-- ==== Sys2Proof/Word.lean ====
section
/-!
DEFINITION. The byte and the instruction word of the press (R106: 128 bits).
-/

namespace Sys2Proof

/-- One byte of a memory, a bit-stream or a message (00_scope, "Numbers, units and bits"). -/
abbrev Byte := BitVec 8

/-- One instruction word of a press program (R106). -/
abbrev PressWord := BitVec 128

end Sys2Proof
end

