-- ==== Sys2Proof/Syntax.lean ====
section
/-!
DEFINITION. The commands of the HK-12 model: one constructor of Instr for each row of
spec/opcode_table.json, with the row's operands. A unit is named by its number (R14).
`t` is the stamp of the event (R7). `n` names a link end: 0 to 31 a fabric port (R14),
32 + 2l + e end e of die link l (R322; end 0 is the lower chase of a ring link in ring order
or the chase of an engine link).
-/

namespace Sys2Proof

/-- The token fields of every instruction word (R111). -/
structure Tok where
  wen : Bool
  wtok : Nat
  sen : Bool
  stok : Nat
deriving DecidableEq, Repr

/-- Format S: an address register's value (R114, R120). `galley` is the space bit. -/
structure AddrReg where
  galley : Bool
  base : Nat
  stride0 : Int
  stride1 : Int
  stride2 : Int
  stride3 : Int
deriving DecidableEq, Repr

/-- Format K: a stochastic-rounding key register's value (R114, R121). -/
structure SrKey where
  tensorId : Nat
  base : Nat
  ld : Nat
  level : Nat
  stride : Int
deriving DecidableEq, Repr

/-- Format W of WLOAD (R115). -/
structure WloadF where
  wfmt : Nat
  strips : Nat
  wad : Nat
  sad : Nat
deriving DecidableEq, Repr

/-- The drain fields of format P (R116). `toRing` is ddst. -/
structure DrainOut where
  dfmt : Nat
  rmode : Nat
  sat : Bool
  toRing : Bool
  dad : Nat
  dsad : Nat
  vbase : Nat
  ring : Nat
  key : Nat
deriving DecidableEq, Repr

/-- Format P of PASS (R116). -/
structure PassF where
  afmt : Nat
  strips : Nat
  mM1 : Nat
  swap : Bool
  head : Nat
  foot : Nat
  aad : Nat
  asad : Nat
  out : DrainOut
deriving DecidableEq, Repr

/-- Format P of DRAIN (R116, R131). -/
structure DrainF where
  mM1 : Nat
  m0 : Nat
  out : DrainOut
deriving DecidableEq, Repr

/-- Format F, the finisher instructions (R117). -/
structure FinF where
  vd : Nat
  va : Nat
  vb : Nat
  vc : Nat
  pa : Bool
  pb : Bool
  bb : Bool
  bi : Bool
  pen : Bool
  pmask : Nat
  sub : Nat
  rmode : Nat
  sat : Bool
  cad : Nat
  cnt : Nat
  xad : Nat
  slot : Nat
  flush : Bool
  key : Nat
  srow : Nat
  imm : Nat
deriving DecidableEq, Repr

/-- Format G, the galley transfers (R118). -/
structure GalF where
  resv : Nat
  gad : Nat
  cad : Nat
  linesM1 : Nat
deriving DecidableEq, Repr

/-- What an instruction-store error is (R139). -/
inductive IstoreErr where
  | corrected
  | uncorrectable
  | illegal
deriving DecidableEq, Repr

/-- An unscheduled request at a slice (R149): requester code, port within an engine, line, byte offset
in the line, the bytes to write or the number of bytes to read, and the words of the line that a read
finds corrected (R162). -/
structure GalReq where
  code : Nat
  port : Nat
  line : Nat
  off : Nat
  len : Nat
  data : Option (List Byte)
  ce : List Nat
deriving DecidableEq, Repr

/-- Where an uncorrectable error was read (R164, R166, R169, R196). -/
inductive UeSite where
  /-- word of a line of slice c, read by requester code -/
  | galley (c code line word : Nat) (sched : Bool)
  /-- chase memory address of chase c, read by requester code -/
  | stack (c code addr : Nat) (sched : Bool)
  /-- frame `seq` of channel `vc` of port q, retained only for a pair -/
  | retained (q vc seq : Nat)
  /-- frame `seq` of channel `vc` of port q, awaiting acknowledgement -/
  | unacked (q vc seq : Nat)
  /-- a value that the collective engine (col) or compositor of chase c holds for a job of forme f -/
  | held (c : Nat) (col : Bool) (f : Nat)
deriving DecidableEq, Repr

/-- A corrected burst (R163). -/
structure BurstErr where
  channel : Nat
  bank : Nat
  row : Nat
  burst : Nat
  symbols : Nat
deriving DecidableEq, Repr

/-- Where a read met a corrected error: word address of a galley slice (R162), or a burst of a stack
(R163). -/
inductive CeSite where
  | galley (c word : Nat)
  | stack (m : Nat) (b : BurstErr)
deriving DecidableEq, Repr

/-- What reading met besides the data: corrected errors, and whether an uncorrectable one. -/
structure Met where
  ce : List CeSite
  ue : Bool
deriving DecidableEq, Repr

/-- Why a lane is due for calibration (R254). -/
inductive CalWhy where
  | temperature
  | time
  | drift
  | restored
deriving DecidableEq, Repr

/-- One reading of an engine's power monitors in 0.01 dBm; -32,768 means no light (R260).
`s0a`, `s0b`, `s1a`, `s1b` have one entry for each wavelength; the others one for each n = 10j + w. -/
structure MonSample where
  s0a : List Int
  s0b : List Int
  s1a : List Int
  s1b : List Int
  s2 : List Int
  s4 : List Int
  s5 : List Int
  s6 : List Int
deriving DecidableEq, Repr

/-- The body of a TRAIN block (R290). -/
structure TrainWord where
  index : Nat
  state : Nat
  word : Nat
deriving DecidableEq, Repr

/-- A 67-bit block as it goes over a lane, payload scrambled (R280, R281). -/
structure LaneBlock where
  sync : Nat
  payload : Nat
  parity : Nat
deriving DecidableEq, Repr

/-- A received frame and the lane it came on, its CRC with it (R294). -/
structure Frame where
  lane : Nat
  vc : Nat
  seq : Nat
  ack : Nat
  len : Nat
  first : Bool
  again : Bool
  payload : List Byte
  crc : Nat
deriving DecidableEq, Repr

/-- The common fields of a received bypass message, its CRC with them (R299). -/
structure Byp where
  ack0 : Nat
  ack1 : Nat
  ack2 : Nat
  reqno : Nat
  crc : Nat
deriving DecidableEq, Repr

/-- The head of a VC1 or guest request (R298, R344), with what its reading met. -/
structure VcReq where
  sectors : Nat
  tag : Nat
  module : Nat
  requester : Nat
  chase : Nat
  target : Nat
  galley : Bool
  addr : Nat
  met : Met
deriving DecidableEq, Repr

/-- What a guest die offers in UCIe training (R342, R343). -/
structure GuestOffer where
  standardPackage : Bool
  streamingRaw : Bool
  rate : Nat
  x16 : Bool
  trained : Bool
deriving DecidableEq, Repr

/-- A BASES entry (R377). -/
structure BaseEntry where
  port : Nat
  txNext : Nat
  rxExpected : Nat
deriving DecidableEq, Repr

/-- A checkpoint record (R229, R377). -/
structure CkptRecord where
  forme : Nat
  variant : Nat
  edition : Nat
  seq : Nat
  tick : Nat
deriving DecidableEq, Repr

/-- Events of one kind counted in one sample (R405): event e of R406, owner queue q of R416,
the press of a press event (12 for none), and how many. -/
structure EstEvent where
  e : Nat
  q : Nat
  press : Nat
  count : Nat
deriving DecidableEq, Repr

/-- One sample of the activity estimator (R405, R413): its events, how many of them are IDLE blocks of die links
and of optical lanes (R406), and whether it is active. -/
structure EstSample where
  events : List EstEvent
  idle : Nat × Nat
  active : Bool
deriving DecidableEq, Repr

/-- What a proof found (R430). -/
inductive FindKind where
  | strip
  | pressDead
  | caseLine
  | coreDead
  | engineDead
  | dataLane
  | clockLane
  | laser
  | laserUnit
  | dieLane
  | dieGroup
  | galleyLine
  | stackRow
  | fatalChase
  | fatalStack
  | fatalRing
deriving DecidableEq, Repr

/-- One finding of a proof, with the fields of its repair-map entry (R430, R439). -/
structure Finding where
  kind : FindKind
  unit : Nat
  loc : Nat
  cause : Nat
  bit : Nat
  nbits : Nat
deriving DecidableEq, Repr

/-- The block whose logic slice runs (R427, R436). -/
inductive LogicUnit where
  | press (p : Nat)
  | chase (c : Nat)
deriving DecidableEq, Repr

/-- A signed survivor command, less its op, with the tag of the message that carried it (R468, R490). -/
structure SignedCmd where
  tag : Nat
  slot : Nat
  challenge : Nat
  sig : List Byte
deriving DecidableEq, Repr

/-- What kind of access a core makes (R476, R477). -/
inductive AccKind where
  | load
  | store
  | fetch
  | amo
deriving DecidableEq, Repr

/-- Privilege of a core access (R475). -/
inductive Priv where
  | machine
  | supervisor
  | user
deriving DecidableEq, Repr

/-- A core's physical access (R475 to R477). `linkError` says that the die link that carries it
went down or answered ERROR; `badWord` that the data read failed its check. -/
structure CoreAcc where
  addr : Nat
  size : Nat
  kind : AccKind
  priv : Priv
  linkError : Bool
  badWord : Bool
deriving DecidableEq, Repr

/-- The head of a received Lemik message (R490). -/
structure MsgHead where
  magic : Nat
  version : Nat
  tag : Nat
  bodyBytes : Nat
deriving DecidableEq, Repr

/-- The tail of an authenticated request (R492). -/
structure AuthTail where
  slot : Nat
  counter : Nat
  sig : List Byte
deriving DecidableEq, Repr

/-- The commands: one constructor for each row of spec/opcode_table.json. `ce` lists the words in which a
command's reads met an error that was corrected (R97, R162): word addresses in the case, or in the galley
slice for GLOAD. -/
inductive Instr where
  /-- NOP: SEQ dispatch: token wait, nothing else, completes at dispatch (R112) -/
  | nop (p : Nat) (k : Tok)
  /-- LOOP: push loop frame; index 0; body bodyM1+1 words, countM1+1 trips (R119) -/
  | loop (p : Nat) (k : Tok) (level countM1 bodyM1 : Nat)
  /-- SETA: write AD register: space, base, 4 signed strides (R120) -/
  | seta (p : Nat) (k : Tok) (ad : Nat) (a : AddrReg)
  /-- SRK: write key register: tensor_id, base, ld, level, stride (R121) -/
  | srk (p : Nat) (k : Tok) (key : Nat) (a : SrKey)
  /-- STEP: holds until all 5 units have completed; reports STEP to the forme; press READY; PRS_STEP_COUNT+1
  (R122) -/
  | stepEnd (p : Nat) (k : Tok)
  /-- BSIG: this press's next arrival on the barrier; chase 0 tallies (R124, R353) -/
  | bsig (p : Nat) (k : Tok) (barrier : Nat)
  /-- BWAIT: holds until completed rounds >= this press's signals (R124) -/
  | bwait (p : Nat) (k : Tok) (barrier : Nat)
  /-- FENCE: holds until the named units hold no earlier instruction (R123) -/
  | fence (p : Nat) (k : Tok) (units : Nat)
  /-- RAMP: array gating mode AUTO/HOLD/WARM/GATE (R125) -/
  | ramp (p : Nat) (k : Tok) (mode : Nat)
  /-- WLOAD: shadow slots of strips 0..n-1 from case lines (R126, R76) -/
  | wload (p : Nat) (k : Tok) (w : WloadF) (ce : List Nat)
  /-- BIAS: bias register from 8 FP32 or 16 A56 lines (R127) -/
  | bias (p : Nat) (k : Tok) (bfmt bad : Nat) (ce : List Nat)
  /-- PASS: M rows: fold blocks in canonical order, foot to carry/drain/both (R128); parity: a strip whose
  weight or scale slot fails its parity (R435) -/
  | pass (p : Nat) (k : Tok) (f : PassF) (parity : Option Nat) (ce : List Nat)
  /-- DRAIN: carry entries m0.. through the drain (R131) -/
  | drain (p : Nat) (k : Tok) (f : DrainF)
  /-- FADD: a+b (R132) -/
  | fadd (p : Nat) (k : Tok) (f : FinF)
  /-- FSUB: a-b -/
  | fsub (p : Nat) (k : Tok) (f : FinF)
  /-- FMUL: a*b -/
  | fmul (p : Nat) (k : Tok) (f : FinF)
  /-- FFMA: a*b+c rounded once -/
  | ffma (p : Nat) (k : Tok) (f : FinF)
  /-- FMIN: IEEE minimum, NaN gives canonical NaN -/
  | fmin (p : Nat) (k : Tok) (f : FinF)
  /-- FMAX: IEEE maximum -/
  | fmax (p : Nat) (k : Tok) (f : FinF)
  /-- FCMP: mask bit = a sub b -/
  | fcmp (p : Nat) (k : Tok) (f : FinF)
  /-- FSEL: P(vc)[n] ? a : b -/
  | fsel (p : Nat) (k : Tok) (f : FinF)
  /-- FMOV: b -/
  | fmov (p : Nat) (k : Tok) (f : FinF)
  /-- FMSK: mask logic, sub 0-6 -/
  | fmsk (p : Nat) (k : Tok) (f : FinF)
  /-- FCVT: round to BF16 or MX, held as exact FP32 -/
  | fcvt (p : Nat) (k : Tok) (f : FinF)
  /-- FRCP: correctly rounded 1/a (R57) -/
  | frcp (p : Nat) (k : Tok) (f : FinF)
  /-- FRSQ: correctly rounded 1/sqrt a -/
  | frsq (p : Nat) (k : Tok) (f : FinF)
  /-- FEXP: correctly rounded exp a -/
  | fexp (p : Nat) (k : Tok) (f : FinF)
  /-- FLOG: correctly rounded log a -/
  | flog (p : Nat) (k : Tok) (f : FinF)
  /-- FRSUM: canonical-tree sum into lane 0, +0 elsewhere (R92) -/
  | frsum (p : Nat) (k : Tok) (f : FinF)
  /-- FRMAX: maximum tree into lane 0 -/
  | frmax (p : Nat) (k : Tok) (f : FinF)
  /-- FRMIN: minimum tree into lane 0 -/
  | frmin (p : Nat) (k : Tok) (f : FinF)
  /-- FLD: load register from case, FP32 or BF16 (R133) -/
  | fld (p : Nat) (k : Tok) (f : FinF) (ce : List Nat)
  /-- FST: store register to case in FP32, BF16 or MX, staging line (R133) -/
  | fst (p : Nat) (k : Tok) (f : FinF)
  /-- CMOV: copy cnt+1 case lines -/
  | cmov (p : Nat) (k : Tok) (f : FinF) (ce : List Nat)
  /-- GLOAD: copy galley lines to case on a reservation (R134) -/
  | gload (p : Nat) (k : Tok) (f : GalF) (ce : List Nat)
  /-- GSTORE: copy case lines to galley on a reservation (R134) -/
  | gstore (p : Nat) (k : Tok) (f : GalF) (ce : List Nat)
  /-- INSTRUCTION_COMPLETE: oldest instruction of the unit completes and signals its token (R109) -/
  | instructionComplete (p unit : Nat)
  /-- ARRAY_RESUME: frozen array resumes once the drain took the waiting row; freeze cycles count in
  case_conflict (R88) -/
  | arrayResume (p frozen : Nat)
  /-- ARRAY_GATE: array clock-gates after 256 idle cycles in mode AUTO (R102) -/
  | arrayGate (p : Nat)
  /-- CASE_SCRUB: scrub reads, corrects, rewrites the next line; a corrected word counts (R98) -/
  | caseScrub (p : Nat) (ce : List Nat)
  /-- CASE_UNCORRECTABLE: ue, ecc_uncorrected, press PARKED, forme abandons UNCORRECTABLE, suspect entry
  (R97) -/
  | caseUncorrectable (p word t : Nat)
  /-- ISTORE_ERROR: ce: count; ue or illegal: flag, press PARKED, forme abandons ISTORE (R139) -/
  | istoreError (p half : Nat) (kind : IstoreErr) (t : Nat)
  /-- UNSCHEDULED_REQUEST: one galley cycle of one free slot: per bank grant by class, code and promotion;
  granted accesses performed under R152-R154 (R149, R150) -/
  | unscheduledRequest (c phase : Nat) (reqs : List GalReq)
  /-- LATE_TRANSFER: transfer outlives its window, `order` its place among the transfers dispatched or
  started: late_transfer; joins late list; slots chosen by R147 -/
  | lateTransfer (c code order nextLine lastLine : Nat)
  /-- GALLEY_SCRUB: scrub one line of the bank; correctable error counts (R162) -/
  | galleyScrub (c bank : Nat) (ce : Option Nat)
  /-- UNCORRECTABLE_ERROR: SCHEDULED or SHARED line: ue, address log, forme abandons or parks
  CHECKPOINT_LOST or yields; retained-only frame: retain_lost (R164, R165, R169) -/
  | uncorrectableError (u : UeSite) (t : Nat)
  /-- CORE_LINE_UE: CORE or REFILL line: ue, log, access fault to the reader, REFILL line dropped, nothing
  abandoned (R166) -/
  | coreLineUe (u : UeSite) (t : Nat)
  /-- HELD_ACCESS_RELEASE: accesses held on forme f's step complete when the step has ended (R153, R154) -/
  | heldAccessRelease (f : Nat)
  /-- STACK_REFRESH: channel refreshes its next bank; new band takes effect (R161) -/
  | stackRefresh (m channel : Nat)
  /-- PATROL_SCRUB: patrol reads the next burst; corrected burst counts (R163) -/
  | patrolScrub (m : Nat) (ce : Option BurstErr)
  /-- SCRUB_LATE: pass not finished in 2^36 ticks: scrub_late (R163) -/
  | scrubLate (m t : Nat)
  /-- DRAIN_ACKNOWLEDGED: a scheduled drain into out_region is acknowledged; commit condition 1; mirrored
  drain sent on VC2 (R229, R376) -/
  | drainAcknowledged (f : Nat)
  /-- JOB_START: job of the running step starts on its engine, or waits when the engine is full (late); MoE
  placement (R170, R171, R198) -/
  | jobStart (f job t : Nat)
  /-- WINDOW_FETCH: the compositor fetches its next window, pooled at list positions (R178-R183) -/
  | windowFetch (c : Nat) (ce : List CeSite)
  /-- NODE_ARRIVAL: held or combined in canonical tree order; dup_term, bad_node, spill (R189, R194, R195) -/
  | nodeArrival (c job : Nat) (shard lo hi : Nat) (v : List Nat)
  /-- JOB_COMPLETE: output in the galley; barrier arrival; next waiting job begins (R172) -/
  | jobComplete (c eng job t : Nat)
  /-- LOAD: EMPTY or REJECTED: VERIFYING with the bytes read; else cmd_ignored (R218) -/
  | impLoad (t : Nat)
  /-- COMMIT: LOADED: COMMITTING or REJECTED on carried_from; else cmd_ignored (R219, R222) -/
  | impCommit (t : Nat)
  /-- DISCARD: by state as R219 -/
  | impDiscard (t : Nat)
  /-- VERIFY_COMPLETE: header, digest, signature, rollback, identity, capability: CHECKING or REJECTED
  (R220) -/
  | verifyComplete (t : Nat)
  /-- CHECK_COMPLETE: directory and sections: LOADED or REJECTED with code and place (R220) -/
  | checkComplete (t : Nat)
  /-- DISCARD_STOP: a discarded check stops: EMPTY (R219) -/
  | discardStop (t : Nat)
  /-- SWITCH: all formes held: counter, istores, tables, press power (R222 steps 2-3) -/
  | switch (counterOk : Bool) (t : Nat)
  /-- SWITCH_COMPLETE: press proofs ended: READY or FAILED; carried formes RUNNING, others LOADED (R222 step
  4) -/
  | switchComplete (findings dead : List (Nat × Nat)) (t : Nat)
  /-- START: LOADED and ACTIVE-or-no pair rule: release step 0 of start_edition (R223, R370) -/
  | formeStart (f t : Nat)
  /-- HOLD: hold at next edition boundary (R231) -/
  | formeHold (f t : Nat)
  /-- RESUME: HELD or PARKED: release next step or replay (R231, R240, R415) -/
  | formeResume (f t : Nat)
  /-- PARK: park at next step boundary (R240) -/
  | formePark (f t : Nat)
  /-- STEP_COMPLETE: all presses and jobs done: late, edition_end -> CLOSING, else next (R223, R224) -/
  | stepComplete (f : Nat) (ce : List CeSite) (t : Nat)
  /-- STEP_RELEASE: next step released: presses ACTIVE, tokens cleared, slices start at an edition's first
  step (R223, R433) -/
  | stepRelease (f t : Nat)
  /-- WATCHDOG_TIMEOUT: step not complete at r + watchdog: abandon STEP_TIMEOUT (R225) -/
  | watchdogTimeout (f t : Nat)
  /-- EDITION_COMMIT: CLOSING conditions met: record, edition, commit tick, counters, EDITION tokens,
  variant, views, next state (R229, R230) -/
  | editionCommit (f t : Nat)
  /-- UNITS_STOPPED: ABANDONING: variant and replay; second abandonment yields or parks (R231, R235) -/
  | unitsStopped (f t : Nat)
  /-- VARIANT_REWRITE_DONE: images rewritten; variant_changes (R238) -/
  | variantRewriteDone (f t : Nat)
  /-- PRESS_LOST: press FAILED; forme abandons PRESS_LOST (R236) -/
  | pressLost (p t : Nat)
  /-- HEATER_LOOP_UPDATE: e moves at most 2 codes; drive = clamp(lock+bias+e-X); due when |e|>256
  (R246-R248) -/
  | heaterLoopUpdate (k r : Nat) (err : Int)
  /-- TONE_WINDOW: right wavelength or mislock; park, spare, suspect (R250, R251) -/
  | toneWindow (k r : Nat) (strongest : Nat) (margin10dB : Bool) (t : Nat)
  /-- MISLOCK_RECOVERY_DONE: lock confirmed, lane back (R251) -/
  | mislockRecoveryDone (k r code t : Nat)
  /-- CAL_DUE: wavelength due; calibration of the lowest due lane starts when the spare is free (R254) -/
  | calDue (k j w : Nat) (why : CalWhy) (t : Nat)
  /-- CONTINUOUS_CAL_NEXT: next of L0..L7, LS starts in continuous mode (R255) -/
  | continuousCalNext (k j t : Nat)
  /-- CALIBRATION_SWEEP_DONE: repeat-agree rule on the ring's runs (R257) -/
  | calibrationSweepDone (k r run t : Nat)
  /-- LANE_RETRAINED: traffic back from the spare; swap proceeds; unit drained (R265, R270) -/
  | laneRetrained (k j d w t : Nat)
  /-- POWER_MONITOR_SAMPLE: monitors written; excess losses located (R260, R261) -/
  | powerMonitorSample (k : Nat) (m : MonSample) (t : Nat)
  /-- LASER_SAMPLE: output and bias; fade rate and fade stage (R263, R264) -/
  | laserSample (n : Nat) (output : Int) (bias : Nat) (t : Nat)
  /-- WATCH_CLEAR: WATCH to NORMAL after 2^30 ticks above -0.3 dB and below 75 % (R264) -/
  | watchClear (n t : Nat)
  /-- TWIN_READY: lit laser READY; pending SWAP proceeds (R264) -/
  | twinReady (n t : Nat)
  /-- SUDDEN_LOSS: lane to spare at once class 1, twin lit, LC switches (R268) -/
  | suddenLoss (k j w t : Nat)
  /-- DRAIN_UNIT: LSU_CTRL DRAIN or button: refused without cover_ok; else DRAINING, lanes swap (R270) -/
  | drainUnit (u t : Nat)
  /-- RESTORE: lanes return to primaries of the unit (R271) -/
  | lsuRestore (u t : Nat)
  /-- RELIGHT: units proved again after a shutdown; refused while trip or trigger 3/4 persists (R274, R462) -/
  | relight (t : Nat)
  /-- UNIT_INSERTED: present, bolted, PROOF (R271) -/
  | unitInserted (u t : Nat)
  /-- UNIT_PROOF_DONE: lasers lit, RESTORING; or FAILED (R271, R430) -/
  | unitProofDone (u : Nat) (failed : List Nat) (t : Nat)
  /-- INTERLOCK_OPEN: surprise removal: lasers dark, lanes lost, ports down (R271) -/
  | interlockOpen (u t : Nat)
  /-- STEER_WINDOW_END: window closes; unaligned lanes leave (R276) -/
  | steerWindowEnd (k : Nat) (unaligned : List (Nat × Nat)) (t : Nat)
  /-- OE_CAL_CTRL_WRITE: delta clamped 4..40; mode at end of calibration (R254, R255) -/
  | oeCalCtrlWrite (k value : Nat)
  /-- LANE_LOCK: lane LOCKED after 64 valid headers (R284) -/
  | laneLock (n i t : Nat)
  /-- LOSS_OF_LOCK: non-member LOCKED lane hunts again (R284) -/
  | lossOfLock (n i t : Nat)
  /-- BLOCK_ERROR: block b after prev; member lane leaves; LANE_DROP; third error in 2^30 retires; link-down
  below link_min (R285, R313, R314, R329) -/
  | blockError (n i : Nat) (prev b : LaneBlock) (t : Nat)
  /-- LC_LOST: LC lost: in ALIGN/IDENT attempt fails, UP/RETRAIN link down (R286, R319) -/
  | lcLost (n t : Nat)
  /-- LC_LOCK: CLOCK to ALIGN (R288) -/
  | lcLock (n t : Nat)
  /-- ALIGN_COMPLETE: ALIGN to IDENT when all lit lanes LOCKED or 2^18 ticks with link_min (R288) -/
  | alignComplete (n t : Nat)
  /-- TRAIN: identity, sequence gap, rtt, credits, peer_ok, final, entry to UP or MISMATCH (R290-R292) -/
  | train (n : Nat) (w : TrainWord) (t : Nat)
  /-- TRAINING_TIMEOUT: attempt fails; third goes ABSENT; RETRAIN takes the link down (R288) -/
  | trainingTimeout (n t : Nat)
  /-- TRAINING_RETRY: next attempt in CLOCK 2^16 ticks after a failure (R288) -/
  | trainingRetry (n t : Nat)
  /-- POLL: ABSENT: LC and L0 at normal power, level POLL (R293) -/
  | poll (n t : Nat)
  /-- POLL_END: back to SAFE_IDLE (R293) -/
  | pollEnd (n t : Nat)
  /-- PEER_LC_DETECTED: ABSENT to CLOCK (R293) -/
  | peerLcDetected (n t : Nat)
  /-- CLEAR_MISMATCH: MISMATCH to CLOCK (R291) -/
  | clearMismatch (n t : Nat)
  /-- RETRAIN: UP: RETRAIN then ALIGN with clock, frames, spaces and credits kept (R316) -/
  | retrain (n t : Nat)
  /-- TRANSMIT_START: at the lane's frame boundary: bypass (to 4), resend, VC0, VC2 share, VC1, IDLE (R296,
  R324) -/
  | transmitStart (n lane : Nat) (t : Nat)
  /-- FRAME: CRC, extension, duplicate, accept, deliver in order, ack, credits (R294, R304-R308) -/
  | frame (n : Nat) (f : Frame) (t : Nat)
  /-- VC1_READ: served at the target chase under R152: DATA or ERROR queued (R298) -/
  | vc1Read (n : Nat) (r : VcReq)
  /-- VC1_WRITE: served: DONE or ERROR (R298) -/
  | vc1Write (n : Nat) (r : VcReq) (data : List (BitVec 8))
  /-- VC1_DATA: answers the outstanding READ with that tag (R298) -/
  | vc1Data (n tag : Nat) (data : List (BitVec 8))
  /-- VC1_DONE: answers the outstanding WRITE (R298) -/
  | vc1Done (n tag : Nat)
  /-- VC1_ERROR: ERROR reaches the requester: access fault cause LINK (R298, R477) -/
  | vc1Error (n tag : Nat)
  /-- ACK: cumulative acknowledgements release frames (R306) -/
  | ack (n : Nat) (b : Byp) (t : Nat)
  /-- CREDIT: credits += freed - last, modulo 2^16 (R303) -/
  | credit (n : Nat) (b : Byp) (vc freed : Nat) (t : Nat)
  /-- BARRIER: new: stored, relayed, other chases; else stale (R355) -/
  | barrierToken (n : Nat) (b : Byp) (origin bar edition count : Nat) (t : Nat)
  /-- MOVE: request received: acknowledged, collision R312; peer moves its transmit place; receive side
  follows MARKs (R311) -/
  | laneMove (n : Nat) (b : Byp) (ident lane : Nat) (t : Nat)
  /-- BACK: as MOVE, reverse -/
  | laneBack (n : Nat) (b : Byp) (ident lane : Nat) (t : Nat)
  /-- CAL: MOVE in both directions: this end moves its transmit place too -/
  | laneCal (n : Nat) (b : Byp) (ident lane : Nat) (t : Nat)
  /-- CAL_END: BACK in both directions -/
  | laneCalEnd (n : Nat) (b : Byp) (ident lane : Nat) (t : Nat)
  /-- REJOIN: this end sends JOIN on the lane (R311, R313) -/
  | laneRejoin (n : Nat) (b : Byp) (ident lane : Nat) (t : Nat)
  /-- SPARE_IN: this end JOINs LS in place of the retired lane (R311, R314) -/
  | spareIn (n : Nat) (b : Byp) (ident lane : Nat) (t : Nat)
  /-- LANE_DROP: this end sends LEAVE and TRAIN blocks on the lane (R313) -/
  | laneDrop (n : Nat) (b : Byp) (lane : Nat) (t : Nat)
  /-- LANE_ACK: outstanding lane request acknowledged; the move is carried out (R311) -/
  | laneAck (n : Nat) (b : Byp) (arg : Nat) (t : Nat)
  /-- WIDTH_REQ: WIDTH_ACK, then transmit members made equal to mask (R315) -/
  | widthReq (n : Nat) (b : Byp) (ident mask : Nat) (t : Nat)
  /-- WIDTH_ACK: outstanding width request acknowledged -/
  | widthAck (n : Nat) (b : Byp) (arg : Nat) (t : Nat)
  /-- RETRAIN_REQ: RETRAIN_ACK and RETRAIN (R316) -/
  | retrainReq (n : Nat) (b : Byp) (ident : Nat) (t : Nat)
  /-- RETRAIN_ACK: this end enters RETRAIN -/
  | retrainAck (n : Nat) (b : Byp) (arg : Nat) (t : Nat)
  /-- REWIND: extension reference becomes the rewound number (R309) -/
  | rewind (n : Nat) (b : Byp) (vc hi : Nat) (t : Nat)
  /-- MARK_JOIN: lane becomes a receive member (R310) -/
  | markJoin (n lane t : Nat)
  /-- MARK_LEAVE: lane's receive membership ends (R310) -/
  | markLeave (n lane t : Nat)
  /-- ACK_TIMER: ACK bypass sent after 128 ticks, repeated each 1,024 (R306) -/
  | ackTimer (n vc t : Nat)
  /-- CREDIT_TIMER: CREDIT with freed count (R303) -/
  | creditTimer (n vc t : Nat)
  /-- REPLAY_TIMER: unacknowledged frame queued for resend with again (R307) -/
  | replayTimer (n vc seq t : Nat)
  /-- REQUEST_REPEAT: outstanding request repeated; fails after 16 (R311) -/
  | requestRepeat (n t : Nat)
  /-- LANE_CLEAN_RUN: locked lane, 4,096 clean blocks: LANE_REQ REJOIN (R313, R329) -/
  | laneCleanRun (n i t : Nat)
  /-- LANE_RETRAIN_TIMEOUT: failed retrain counted; third retires (R313, R314) -/
  | laneRetrainTimeout (n i t : Nat)
  /-- LANE_RETRAIN_RETRY: lane retrained again (R313) -/
  | laneRetrainRetry (n i t : Nat)
  /-- IDLE_ADAPTATION: idle_run and adapt by thresholds (R318) -/
  | idleAdaptation (n i : Nat) (idle : Bool) (blocks : Nat)
  /-- LINK_DOWN: darken, drop, synthetic completions, CLOCK; formes abandon LINK_ERROR (R319, R320) -/
  | linkDown (n cause t : Nat)
  /-- DLANE_DROP: transmitter joins a free spare of the group (R329) -/
  | dlaneDrop (l e : Nat) (b : Byp) (lane t : Nat)
  /-- DWIDTH_REQ: collision by chase number, DWIDTH_ACK (R332, R333) -/
  | dwidthReq (l e : Nat) (b : Byp) (mask t : Nat)
  /-- DWIDTH_ACK: both directions switch width (R332, R334) -/
  | dwidthAck (l e : Nat) (b : Byp) (mask t : Nat)
  /-- GROUP_CLOCK_LOST: group fails; DWIDTH_REQ or link down (R323, R330) -/
  | groupClockLost (l e g t : Nat)
  /-- GROUP_HEALTHY: group healthy; wider width requested (R330, R334) -/
  | groupHealthy (l e g t : Nat)
  /-- DIE_LINK_DOWN: drop, abandon, link-specific effect (R336) -/
  | dieLinkDown (l t : Nat)
  /-- DIE_LINK_RETRY: TRAIN every 2^20 ticks (R336) -/
  | dieLinkRetry (l t : Nat)
  /-- GUEST_TRAIN: enabled site: TRAINING, rate, HELLO sent; or REFUSED, DOWN (R342, R343) -/
  | guestTrain (g : Nat) (offer : GuestOffer) (t : Nat)
  /-- GUEST_RETRY: DOWN site tries again (R343) -/
  | guestRetry (g t : Nat)
  /-- HELLO: capability, msg_level, UP (R343) -/
  | guestHello (g : Nat) (cap : Nat) (t : Nat)
  /-- GUEST_READ: within windows and R152: DATA, else ERROR and error_sent (R345) -/
  | guestRead (g : Nat) (r : VcReq)
  /-- GUEST_WRITE: DONE or ERROR (R345) -/
  | guestWrite (g : Nat) (r : VcReq) (data : List (BitVec 8))
  /-- NOTIFY: GST_NOTIFY, interrupt source 11 (R344) -/
  | guestNotify (g value t : Nat)
  /-- POST: UP: POST sent (R344) -/
  | guestPost (g value : Nat)
  /-- LOW_POWER_REQUEST: refused (R342) -/
  | lowPowerRequest (g : Nat)
  /-- GUEST_LINK_DOWN: down_seen, downs, pending dropped, TRAINING (R346) -/
  | guestLinkDown (g t : Nat)
  /-- IDENTITY_WRITE: FAB_IDENTITY only while none active and in range (R349) -/
  | identityWrite (value : Nat)
  /-- BARRIER_ROUND_COMPLETE: round complete: completion to participants, steer window (R356, R276) -/
  | barrierRoundComplete (f bar t : Nat)
  /-- TOKEN_REPEAT: entries changed in 2^18 ticks resent at multiples of 2^14 (R357) -/
  | tokenRepeat (n t : Nat)
  /-- EDITION: peer_edition, retained frames released (R361) -/
  | editionToken (n : Nat) (b : Byp) (edition : Nat) (t : Nat)
  /-- EDITION_REPEAT: EDITION resent (R359) -/
  | editionRepeat (n t : Nat)
  /-- EDITION_STALLED: edition wait past 2^30: edition_stalled (R360) -/
  | editionStalled (f t : Nat)
  /-- FETCH: FETCH_ACK, retained frames at or above base queued with again clear (R362, R389) -/
  | fetch (n : Nat) (b : Byp) (base : Nat) (t : Nat)
  /-- FETCH_ACK: fetch_pending clears (R362) -/
  | fetchAck (n : Nat) (b : Byp) (base : Nat) (t : Nat)
  /-- QUIESCE: QUIESCED when sent and received with the same E (R366) -/
  | quiesce (n : Nat) (b : Byp) (edition : Nat) (t : Nat)
  /-- QUIESCE_TIMEOUT: port goes down cause 6; counted (R366) -/
  | quiesceTimeout (n t : Nat)
  /-- PLANT: S4-S5 > 9.0 dB: plant_fault (R365) -/
  | plant (n : Nat) (b : Byp) (w s5 : Nat) (t : Nat)
  /-- PLANT_TIMER: PLANT sent for each lit receive wavelength (R352) -/
  | plantTimer (n t : Nat)
  /-- ACTIVE: role NONE and imposition active: pending ACTIVE, PAIR_HELLO at once (R370) -/
  | pairActive (t : Nat)
  /-- STANDBY: pending STANDBY (R370) -/
  | pairStandby (t : Nat)
  /-- SWAP: PROTECTED active: SWAP_REQ; else role_refused (R393) -/
  | pairSwap (f t : Nat)
  /-- YIELD: active yields with cause 0x09 (R383) -/
  | pairYield (t : Nat)
  /-- ROLE_TIMEOUT: SB_PAIR_LIVE low 2^20: pending request granted (R370) -/
  | roleTimeout (t : Nat)
  /-- PAIR_HELLO: decide pending, partner_role, resync, swap hold (R370, R374, R382, R394, R517) -/
  | pairHello (n : Nat) (b : Byp) (role member resync pend : Nat) (t : Nat)
  /-- PAIR_LEVEL: compared for mirroring (R375) -/
  | pairLevel (n : Nat) (b : Byp) (level : Nat) (t : Nat)
  /-- PAIR_IMP: compared for mirroring (R375) -/
  | pairImp (n : Nat) (b : Byp) (digest : Nat) (t : Nat)
  /-- MIRROR_WRITE: standby writes inside checkpoint copy or SHARED region, else bad_writes (R378) -/
  | mirrorWrite (n f c addr edition : Nat) (data : List (BitVec 8))
  /-- BASES: standby holds the S0 bases (R377) -/
  | mirrorBases (n f : Nat) (edition : Nat) (es : List BaseEntry)
  /-- RECORD: stored, MIRROR_DONE sent, SYNCED (R378, R382) -/
  | mirrorRecord (n f : Nat) (r : CkptRecord) (t : Nat)
  /-- MIRROR_DONE: commit condition 3, or the pre-release batch (R378, R379) -/
  | mirrorDone (n : Nat) (b : Byp) (f edition : Nat) (t : Nat)
  /-- SWAP_REQ: standby accepts: SWAP_ACK (R393) -/
  | swapReq (n : Nat) (b : Byp) (edition : Nat) (t : Nat)
  /-- SWAP_ACK: active will hold its formes at E-1 (R393) -/
  | swapAck (n : Nat) (b : Byp) (edition : Nat) (t : Nat)
  /-- PARTNER_YIELD: SB_PAIR_LIVE low 1,000: standby takes over or STOPPED; active UNPROTECTED; SWAP_HOLD
  returns to ACTIVE (R372, R386, R394) -/
  | partnerYield (t : Nat)
  /-- LIVENESS_FAIL: active yields with cause 0x05 (R383) -/
  | livenessFail (t : Nat)
  /-- YIELD_COMPLETE: ports OFF, line released, YIELDED or SWAP_HOLD (R385) -/
  | yieldComplete (t : Nat)
  /-- GRACE_EXPIRED: GRACE 2^28: UNPROTECTED (R381) -/
  | graceExpired (f t : Nat)
  /-- STANDBY_STALE: no pair port UP for 2^27: mirrored formes STALE (R381) -/
  | standbyStale (t : Nat)
  /-- TAKEOVER_POWERED: units powered: PROOF (R387) -/
  | takeoverPowered (t : Nat)
  /-- TAKEOVER_PROOF_DONE: findings; variants; STOPPED FAILED where none fits (R388) -/
  | takeoverProofDone (fs : List Finding) (t : Nat)
  /-- TAKEOVER_IMAGES_WRITTEN: ports set S0 from BASES and enter CLOCK (R387) -/
  | takeoverImagesWritten (t : Nat)
  /-- TAKEOVER_PORTS_TIMEOUT: proceeds: REWIND and FETCH on UP ports (R387) -/
  | takeoverPortsTimeout (t : Nat)
  /-- TAKEOVER_RELEASE: first replay step released; ACTIVE; DONE (R387, R390) -/
  | takeoverRelease (t : Nat)
  /-- RAIL_WINDOW: current; LIMITING, CUT with its effect (R397, R398) -/
  | railWindow (n current : Nat) (t : Nat)
  /-- MAIN_RAIL_FAILURE: power-off sequence, yield 0x07 (R400) -/
  | mainRailFailure (inputOut : Bool) (t : Nat)
  /-- ESTIMATOR_SAMPLE: energy charged, decision window, controller (R405-R411, R415, R416) -/
  | estimatorSample (e : EstSample) (t : Nat)
  /-- INPUT_MEASUREMENT: input_w, input_dv, drift (R407) -/
  | inputMeasurement (watts dv : Nat) (t : Nat)
  /-- IDLE_STEP_END: next idle step or release (R413) -/
  | idleStepEnd (f t : Nat)
  /-- PWR_CTRL_WRITE: cap clamp 2,800, boost, fixed, point (R409) -/
  | pwrCtrlWrite (value : Nat)
  /-- DROOP_TRIP: stretch, droop_events, storm at 64 in 2^20 (R419, R420) -/
  | droopTrip (island sag : Nat) (t : Nat)
  /-- DROOP_EVENT_END: stretch ends or a new event starts (R419) -/
  | droopEventEnd (island : Nat) (still : Option Nat) (t : Nat)
  /-- TEMP_SAMPLE: temp, sensor, peak, band up/down, selections (R421-R425) -/
  | tempSample (d : Nat) (ts : List Int) (t : Nat)
  /-- THERMAL_DUTY_UPDATE: d_t halves or doubles (R425) -/
  | thermalDutyUpdate (d t : Nat)
  /-- THERMAL_TRIP: trip latch, laser shutdown, power-off, yield 0x06 (R426) -/
  | thermalTrip (d t : Nat)
  /-- PROOF_PHASE_COMPLETE: findings, map, PASSED or FATAL (R428-R431) -/
  | proofPhaseComplete (fs : List Finding) (t : Nat)
  /-- STRIP_SLICE_DONE: slice_passed, or failure: abandon PROOF_SLICE (R433, R436) -/
  | stripSliceDone (p strip : Nat) (ok : Bool) (t : Nat)
  /-- LOGIC_SLICE: slice starts (R436) -/
  | logicSlice (u : LogicUnit) (t : Nat)
  /-- CORE_SLICE: slice starts (R436) -/
  | coreSlice (n t : Nat)
  /-- PENDING_FLUSH: PENDING entries queued to flash (R441) -/
  | pendingFlush (t : Nat)
  /-- STACK_CHANNEL_RETRAIN: CAL_REC 512+n run (R442) -/
  | stackChannelRetrain (m channel : Nat) (ok : Bool) (t : Nat)
  /-- LOOPBACK: OFF or ABSENT port: busy; else refused (R448) -/
  | loopback (q t : Nat)
  /-- LOOPBACK_DONE: result in PRF_LOOPBACK (R447) -/
  | loopbackDone (errors passed t : Nat)
  /-- CLEAR_MAP: every entry marked retest at the next flash write (R429) -/
  | clearMap
  /-- TAP_RESET: IDCODE and SEG0 alone (R444) -/
  | tapReset
  /-- BYPASS: instruction BYPASS (R444) -/
  | tapBypass
  /-- IDCODE: data register 0x1C12_0A4B (R444) -/
  | tapIdcode
  /-- SAMPLE_PRELOAD: instruction SAMPLE/PRELOAD, pins sampled (R444) -/
  | tapSample
  /-- EXTEST: effective only in reset or FATAL, else BYPASS and scan_refused (R446) -/
  | tapExtest
  /-- CLAMP: as EXTEST -/
  | tapClamp
  /-- HIGHZ: as EXTEST; outputs released -/
  | tapHighz
  /-- SEGSEL: segment register, unpowered segments read 0 (R445) -/
  | tapSegsel (segs : Nat)
  /-- AUX_POWER_ON: stage 1 in the island (R457) -/
  | auxPowerOn (strap : Nat) (fail : Nat)
  /-- STAGE_COMPLETE: next stage (R457) -/
  | stageComplete (t : Nat)
  /-- STAGE_TIMEOUT: BOOT_FAIL, FATAL or main-rail failure by stage (R457) -/
  | stageTimeout (t : Nat)
  /-- T0_REACHED: SEQUENCING, VCHS enabled, yield line live (R458) -/
  | t0Reached (t : Nat)
  /-- RAIL_ENABLE_STEP: next rail group; time base from VCHS_0 good (R458, R504) -/
  | railEnableStep (good : Bool) (t : Nat)
  /-- HARDWARE_RESET: shutdown, yield, power-off to restart; refused in hot TRIPPED (R451, R452) -/
  | hardwareReset (islandTemp : Int) (t : Nat)
  /-- RESET_RELEASE: SB_RESET_N high: restart at stage 2 (R452) -/
  | resetRelease (t : Nat)
  /-- AUX_LOSS: every rail and output drops (R453) -/
  | auxLoss
  /-- RAIL_DISABLE_STEP: next rail off in order; end state (R460) -/
  | railDisableStep (t : Nat)
  /-- LASER_OVERPOWER: shutdown trigger 3 (R462) -/
  | laserOverpower (n t : Nat)
  /-- LASER_HEARTBEAT_MISS: shutdown trigger 4 (R462) -/
  | laserHeartbeatMiss (u t : Nat)
  /-- FLASH_WRITE_COMPLETE: next pending write in priority order (R471) -/
  | flashWriteComplete (ok : Bool) (t : Nat)
  /-- COUNTER_WRITE_TIMEOUT: counter write failed (R470, R222) -/
  | counterWriteTimeout (t : Nat)
  /-- READY: stage 5 ends, SB_READY high (R461) -/
  | secReady (t : Nat)
  /-- FW_COMMIT: firmware counter raised to the running image's version (R470) -/
  | fwCommit (t : Nat)
  /-- ATTEST: 2,048-byte report at the buffer + 256 (R472) -/
  | secAttest (t : Nat)
  /-- ALERT: alert bit 6 (R456) -/
  | secAlert
  /-- CLAIM: slot 4 installed (R467) -/
  | keyClaim (t : Nat)
  /-- TRANSFER: slot 4 replaced, 5-15 emptied (R467) -/
  | keyTransfer (t : Nat)
  /-- ADD: slot written (R467) -/
  | keyAdd (t : Nat)
  /-- REMOVE: slot emptied (R467) -/
  | keyRemove (t : Nat)
  /-- EPOCH: key-epoch counter raised (R467) -/
  | keyEpoch (t : Nat)
  /-- RESET: signed: hardware reset (R468) -/
  | svReset (c : SignedCmd) (t : Nat)
  /-- POWER_OFF: signed: power-off, end OFF (R468) -/
  | svPowerOff (c : SignedCmd) (t : Nat)
  /-- POWER_ON: signed: leaves OFF (R468) -/
  | svPowerOn (c : SignedCmd) (t : Nat)
  /-- LASER_OFF: signed: shutdown trigger 5 (R468) -/
  | svLaserOff (c : SignedCmd) (t : Nat)
  /-- CORE_START: HALTED to RUN at 0x1000_0000, mask cleared (R480) -/
  | coreStart (n : Nat)
  /-- RETIRE: L2 written back, directory entries dropped, RETIRED (R480) -/
  | coreRetire (n : Nat)
  /-- TIMER_INTERRUPT: time >= compare: machine timer pending (R481) -/
  | timerInterrupt (n : Nat)
  /-- CORE_ACCESS_FAULT: cause by R477 order, CORE_FAULT, no effect (R475-R477) -/
  | coreAccessFault (n : Nat) (a : CoreAcc)
  /-- SNAPSHOT_READ: low half returned, high half snapshotted (R499, R476) -/
  | snapshotRead (who addr size : Nat)
  /-- GROUP_READ: lowest member, mismatch (R487, R502) -/
  | groupRead (who addr size : Nat)
  /-- GROUP_WRITE: each member in ascending order (R487) -/
  | groupWrite (who addr size value : Nat) (t : Nat)
  /-- UNMAPPED_ACCESS: zero, count, record (R506) -/
  | unmappedAccess (who addr : Nat) (store : Bool)
  /-- REGISTER_WRITE: RW set, RW1C cleared, RO/RSV none (R10) -/
  | registerWrite (who addr size value : Nat)
  /-- NEIGHBOUR_DISCOVERY: advertisement where the target is the module's address (R489) -/
  | neighbourDiscovery (target : Nat)
  /-- ECHO: ICMPv6 echo reply (R489) -/
  | echoRequest (ident seq : Nat) (data : List (BitVec 8))
  /-- DUPLICATE_ADDRESS_DETECTION: addr_conflict on failure (R489) -/
  | duplicateAddressDetection (failed : Bool)
  /-- STATUS: 256-byte status block (R473) -/
  | mgtStatus (h : MsgHead)
  /-- CHALLENGE: the challenge (R468) -/
  | mgtChallenge (h : MsgHead)
  /-- CERT: key record or ATTEST certificate; STATE before stage 4 (R491) -/
  | mgtCert (h : MsgHead) (which slot : Nat)
  /-- MGT_ATTEST: attestation report (R472, R491) -/
  | mgtAttest (h : MsgHead) (nonce : List (BitVec 8))
  /-- REG_READ: registers through the engine (R493) -/
  | regRead (h : MsgHead) (a : AuthTail) (off width count : Nat)
  /-- REG_WRITE: writes in order (R493) -/
  | regWrite (h : MsgHead) (a : AuthTail) (off width : Nat) (vals : List Nat) (t : Nat)
  /-- MEM_READ: data, or FAULT (R493) -/
  | memRead (h : MsgHead) (a : AuthTail) (c space addr len : Nat) (met : Met)
  /-- MEM_WRITE: stored, or FAULT (R493) -/
  | memWrite (h : MsgHead) (a : AuthTail) (c space addr : Nat) (data : List (BitVec 8))
  /-- IMAGE_BEGIN: upload opened to the slot not booted (R494) -/
  | imageBegin (h : MsgHead) (a : Option AuthTail) (len : Nat)
  /-- IMAGE_DATA: next contiguous chunk, else FORMAT (R494) -/
  | imageData (h : MsgHead) (off : Nat) (data : List (BitVec 8))
  /-- IMAGE_END: verified by R466, flash write queued (R494) -/
  | imageEnd (h : MsgHead)
  /-- UNIT_WITHDRAWN: DRAINED or unbolted unit becomes ABSENT (R271) -/
  | unitWithdrawn (u t : Nat)
  /-- PAIR_HELLO_TIMER: PAIR_HELLO, PAIR_LEVEL, PAIR_IMP on every UP pair-link port (R374) -/
  | pairHelloTimer (t : Nat)
  /-- PAIR_LIVE_RESTORED: live_in 1 (R372) -/
  | pairLiveRestored (t : Nat)
  /-- LOGIC_SLICE_DONE: failed: press FAILED and abandon, or chase lost (R436) -/
  | logicSliceDone (u : LogicUnit) (ok : Bool) (t : Nat)
  /-- CORE_SLICE_DONE: failed: core_fail (R436) -/
  | coreSliceDone (n : Nat) (ok : Bool) (t : Nat)
  /-- MGT_BLOCK_LOCK: link_up (R489) -/
  | mgtBlockLock
  /-- MGT_BLOCK_LOCK_LOST: link_up clears (R489) -/
  | mgtBlockLockLost
  /-- OTHER_BYPASS_KIND: discarded and counted (R300) -/
  | otherBypassKind (n : Nat) (b : Byp) (kind arg : Nat)
deriving DecidableEq, Repr

end Sys2Proof
end

