-- ==== Sys2Proof/Decode.lean ====
section
/-!
DEFINITION. Decoding. spec/opcode_table.json gives no row bits, so no word spells a command of the
table (`decodeTableWord`). The 128-bit instruction word of a press program has an encoding (R111 to
R118); `pressDecode` reads it, and `Instr.fieldOk` says which decoded words R138 calls legal taken
alone.
-/

namespace Sys2Proof

/-- The command that a table word spells: the table gives bits to no row. -/
def decodeTableWord (_nbits _w : Nat) : Option Instr := none

/-- The errors of a press program, in the order of R138's table. -/
inductive PrgErr where
  | opcode
  | field
  | range
  | depth
  | loop
  | token
  | ring
  | race
  | state
  | carry
  | resv
  | barrier
  | size
deriving DecidableEq, Repr

/-- Code of an error in MOD_IMP_STATUS (R220): 0x10 to 0x1C. -/
def PrgErr.code : PrgErr → Nat
  | .opcode => 0x10
  | .field => 0x11
  | .range => 0x12
  | .depth => 0x13
  | .loop => 0x14
  | .token => 0x15
  | .ring => 0x16
  | .race => 0x17
  | .state => 0x18
  | .carry => 0x19
  | .resv => 0x1A
  | .barrier => 0x1B
  | .size => 0x1C

/-- Bits [hi:lo] of a word. -/
def wordBits (w hi lo : Nat) : Nat := w / 2 ^ lo % 2 ^ (hi + 1 - lo)

/-- Bit n of a word. -/
def wordBit (w n : Nat) : Bool := w / 2 ^ n % 2 = 1

/-- A two's complement field of n bits. -/
def signed (n x : Nat) : Int := if x < 2 ^ (n - 1) then Int.ofNat x else Int.ofNat x - 2 ^ n

/-- Token fields (R111). -/
def wordTok (w : Nat) : Tok :=
  { wen := wordBit w 119, wtok := wordBits w 118 116, sen := wordBit w 115, stok := wordBits w 114 112 }

/-- Format S (R114). -/
def wordAddr (w : Nat) : AddrReg :=
  { galley := wordBit w 107, base := wordBits w 106 86, stride0 := signed 21 (wordBits w 22 2),
    stride1 := signed 21 (wordBits w 43 23), stride2 := signed 21 (wordBits w 64 44),
    stride3 := signed 21 (wordBits w 85 65) }

/-- Format K (R114). -/
def wordKey (w : Nat) : SrKey :=
  { tensorId := wordBits w 109 86, base := wordBits w 85 46, ld := wordBits w 45 26,
    level := wordBits w 25 24, stride := signed 24 (wordBits w 23 0) }

/-- Drain fields of format P (R116). -/
def wordDrain (w : Nat) : DrainOut :=
  { dfmt := wordBits w 78 75, rmode := wordBits w 74 73, sat := wordBit w 72, toRing := wordBit w 71,
    dad := wordBits w 70 67, dsad := wordBits w 66 63, vbase := wordBits w 62 58,
    ring := wordBits w 57 55, key := wordBits w 44 43 }

/-- Format P of PASS (R116). -/
def wordPass (w : Nat) : PassF :=
  { afmt := wordBits w 111 108, strips := wordBits w 107 103, mM1 := wordBits w 102 92,
    swap := wordBit w 91, head := wordBits w 90 89, foot := wordBits w 88 87, aad := wordBits w 86 83,
    asad := wordBits w 82 79, out := wordDrain w }

/-- Format F (R117). -/
def wordFin (w : Nat) : FinF :=
  { vd := wordBits w 111 107, va := wordBits w 106 102, vb := wordBits w 101 97,
    vc := wordBits w 96 92, pa := wordBit w 91, pb := wordBit w 90, bb := wordBit w 89,
    bi := wordBit w 88, pen := wordBit w 87, pmask := wordBits w 86 84, sub := wordBits w 83 80,
    rmode := wordBits w 79 78, sat := wordBit w 77, cad := wordBits w 76 73, cnt := wordBits w 72 57,
    xad := wordBits w 56 53, slot := wordBits w 52 49, flush := wordBit w 48, key := wordBits w 47 46,
    srow := wordBits w 45 32, imm := wordBits w 31 0 }

/-- Format G (R118). -/
def wordGal (w : Nat) : GalF :=
  { resv := wordBits w 111 100, gad := wordBits w 99 96, cad := wordBits w 95 92,
    linesM1 := wordBits w 91 76 }

/-- Which finisher operation a format F word names (R112). -/
inductive FinOp where
  | add | sub | mul | ffma | min | max | cmp | sel | mov | msk | cvt | rcp | rsq | exp | log
  | rsum | rmax | rmin | ld | st | cmov
deriving DecidableEq, Repr

/-- The fields of format F that an operation uses (R117, R132, R133). -/
structure FinUse where
  vd : Bool
  va : Bool
  vb : Bool
  vc : Bool
  pen : Bool
  sub : Bool
  round : Bool
  cad : Bool
  cnt : Bool
  xad : Bool
deriving DecidableEq, Repr

/-- Fields used by each operation. -/
def FinOp.use : FinOp → FinUse
  | .add => ⟨true, true, true, false, true, false, false, false, false, false⟩
  | .sub => ⟨true, true, true, false, true, false, false, false, false, false⟩
  | .mul => ⟨true, true, true, false, true, false, false, false, false, false⟩
  | .ffma => ⟨true, true, true, true, true, false, false, false, false, false⟩
  | .min => ⟨true, true, true, false, true, false, false, false, false, false⟩
  | .max => ⟨true, true, true, false, true, false, false, false, false, false⟩
  | .cmp => ⟨true, true, true, false, true, true, false, false, false, false⟩
  | .sel => ⟨true, true, true, true, true, false, false, false, false, false⟩
  | .mov => ⟨true, false, true, false, true, false, false, false, false, false⟩
  | .msk => ⟨true, true, true, false, true, true, false, false, false, false⟩
  | .cvt => ⟨true, true, false, false, true, true, true, false, false, false⟩
  | .rcp => ⟨true, true, false, false, true, false, false, false, false, false⟩
  | .rsq => ⟨true, true, false, false, true, false, false, false, false, false⟩
  | .exp => ⟨true, true, false, false, true, false, false, false, false, false⟩
  | .log => ⟨true, true, false, false, true, false, false, false, false, false⟩
  | .rsum => ⟨true, true, false, false, true, false, false, false, false, false⟩
  | .rmax => ⟨true, true, false, false, true, false, false, false, false, false⟩
  | .rmin => ⟨true, true, false, false, true, false, false, false, false, false⟩
  | .ld => ⟨true, false, false, false, false, true, false, true, true, false⟩
  | .st => ⟨false, true, false, false, false, true, true, true, true, true⟩
  | .cmov => ⟨false, false, false, false, false, false, false, true, true, true⟩

/-- Source B may be broadcast or immediate where it is a vector operand. -/
def FinOp.vectorB : FinOp → Bool
  | .add => true
  | .sub => true
  | .mul => true
  | .ffma => true
  | .min => true
  | .max => true
  | .cmp => true
  | .sel => true
  | .mov => true
  | .msk => false
  | .cvt => false
  | .rcp => false
  | .rsq => false
  | .exp => false
  | .log => false
  | .rsum => false
  | .rmax => false
  | .rmin => false
  | .ld => false
  | .st => false
  | .cmov => false

/-- Sub-operation allowed (R132, R133). -/
def FinOp.subOk (o : FinOp) (sub : Nat) : Bool :=
  match o with
  | .cmp => sub ≤ 3
  | .msk => sub ≤ 6
  | .cvt => 1 ≤ sub && sub ≤ 6
  | .ld => sub ≤ 1
  | .st => sub ≤ 6
  | .add => sub = 0
  | .sub => sub = 0
  | .mul => sub = 0
  | .ffma => sub = 0
  | .min => sub = 0
  | .max => sub = 0
  | .sel => sub = 0
  | .mov => sub = 0
  | .rcp => sub = 0
  | .rsq => sub = 0
  | .exp => sub = 0
  | .log => sub = 0
  | .rsum => sub = 0
  | .rmax => sub = 0
  | .rmin => sub = 0
  | .cmov => sub = 0

/-- Masks named by FCMP and FMSK leave the upper register bits reserved (R117). -/
def FinOp.maskFieldsOk (o : FinOp) (f : FinF) : Bool :=
  match o with
  | .cmp => f.vd < 8
  | .msk => f.vd < 8 && f.va < 8 && f.vb < 8
  | .sel => f.vc < 8
  | .add => true
  | .sub => true
  | .mul => true
  | .ffma => true
  | .min => true
  | .max => true
  | .mov => true
  | .cvt => true
  | .rcp => true
  | .rsq => true
  | .exp => true
  | .log => true
  | .rsum => true
  | .rmax => true
  | .rmin => true
  | .ld => true
  | .st => true
  | .cmov => true

/-- FST in an MX format uses slot, flush and the scale line register (R117, R133). -/
def FinOp.mxStore (o : FinOp) (f : FinF) : Bool := o = .st && 2 ≤ f.sub

/-- Legality of a format F word taken alone: PRG_FIELD (R117, R132, R133, R138). -/
def FinOp.fieldOk (o : FinOp) (f : FinF) : Bool :=
  let u := o.use
  o.subOk f.sub && o.maskFieldsOk f &&
    (u.vd || f.vd = 0) && (u.va || f.va = 0) && (u.vb || f.vb = 0) && (u.vc || f.vc = 0) &&
    (!f.pa || (u.va && o != .msk)) && (!f.pb || o.vectorB) &&
    (!(f.bb || f.bi) || o.vectorB) && !(f.bb && f.bi) &&
    (u.pen || (!f.pen && f.pmask = 0)) &&
    (u.round || (f.rmode = 0 && !f.sat)) && f.rmode != 3 &&
    (u.cad || f.cad = 0) && (u.cnt || f.cnt = 0) &&
    (o = .cmov || o.mxStore f || f.xad = 0) &&
    (o.mxStore f || (f.slot = 0 && !f.flush)) &&
    (u.round || (f.key = 0 && f.srow = 0)) &&
    (f.bi || (o = .msk && f.sub = 6 && f.imm < 512) || f.imm = 0)

/-- Drain fields taken alone (R116, R138). -/
def DrainOut.fieldOk (o : DrainOut) : Bool :=
  o.dfmt ≤ 7 && o.rmode != 3 && o.ring ≤ 4 && (!o.toRing || (o.dfmt = 0 && o.vbase + 2 ^ o.ring ≤ 32))

/-- Every drain field zero. -/
def DrainOut.allZero (o : DrainOut) : Bool :=
  o.dfmt = 0 && o.rmode = 0 && !o.sat && !o.toRing && o.dad = 0 && o.dsad = 0 && o.vbase = 0 &&
    o.ring = 0 && o.key = 0

/-- Legality of WLOAD taken alone (R115); no strip at all is an illegal field, here and in PASS (log entry
76). -/
def WloadF.fieldOk (w : WloadF) : Bool := 1 ≤ w.wfmt && w.wfmt ≤ 6 && 1 ≤ w.strips

/-- Legality of BIAS taken alone (R115). -/
def biasFieldOk (bfmt : Nat) : Bool := bfmt = 0 || bfmt = 7

/-- Legality of PASS taken alone (R116). -/
def PassF.fieldOk (f : PassF) : Bool :=
  1 ≤ f.afmt && f.afmt ≤ 6 && 1 ≤ f.strips && f.head != 3 && f.foot != 3 &&
    (if f.foot = 1 then f.out.allZero else f.out.fieldOk)

/-- Legality of DRAIN taken alone (R116). -/
def DrainF.fieldOk (f : DrainF) : Bool := f.out.fieldOk

/-- A format F instruction of press p. -/
def finInstr (o : FinOp) (p : Nat) (k : Tok) (f : FinF) : Instr :=
  match o with
  | .add => .fadd p k f
  | .sub => .fsub p k f
  | .mul => .fmul p k f
  | .ffma => .ffma p k f
  | .min => .fmin p k f
  | .max => .fmax p k f
  | .cmp => .fcmp p k f
  | .sel => .fsel p k f
  | .mov => .fmov p k f
  | .msk => .fmsk p k f
  | .cvt => .fcvt p k f
  | .rcp => .frcp p k f
  | .rsq => .frsq p k f
  | .exp => .fexp p k f
  | .log => .flog p k f
  | .rsum => .frsum p k f
  | .rmax => .frmax p k f
  | .rmin => .frmin p k f
  | .ld => .fld p k f []
  | .st => .fst p k f
  | .cmov => .cmov p k f []

/-- The finisher operation of an opcode (R112). -/
def finOpOf : Nat → Option FinOp
  | 0x20 => some .add
  | 0x21 => some .sub
  | 0x22 => some .mul
  | 0x23 => some .ffma
  | 0x24 => some .min
  | 0x25 => some .max
  | 0x26 => some .cmp
  | 0x27 => some .sel
  | 0x28 => some .mov
  | 0x29 => some .msk
  | 0x2A => some .cvt
  | 0x2B => some .rcp
  | 0x2C => some .rsq
  | 0x2D => some .exp
  | 0x2E => some .log
  | 0x2F => some .rsum
  | 0x30 => some .rmax
  | 0x31 => some .rmin
  | 0x32 => some .ld
  | 0x33 => some .st
  | 0x34 => some .cmov
  | _ => none

/-- A legal value, or PRG_FIELD. -/
def guardField (ok : Bool) (i : Instr) : Except PrgErr Instr := if ok then .ok i else .error .field

/-- The instruction of a 128-bit word for press p, or the error of the word taken alone (R111 to
R118, R138 pass 2; PRG_DEPTH and PRG_LOOP need more than the word). -/
def pressDecode (p w : Nat) : Except PrgErr Instr :=
  let k := wordTok w
  let op := wordBits w 127 120
  match op with
  | 0x00 => guardField (wordBits w 111 0 = 0) (.nop p k)
  | 0x01 => guardField (wordBits w 81 0 = 0)
      (.loop p k (wordBits w 111 110) (wordBits w 109 94) (wordBits w 93 82))
  | 0x02 => guardField (wordBits w 1 0 = 0) (.seta p k (wordBits w 111 108) (wordAddr w))
  | 0x03 => guardField (wordBits w 111 0 = 0) (.stepEnd p k)
  | 0x04 => guardField (wordBits w 105 0 = 0) (.bsig p k (wordBits w 111 106))
  | 0x05 => guardField (wordBits w 105 0 = 0) (.bwait p k (wordBits w 111 106))
  | 0x06 => guardField (wordBits w 106 0 = 0 && wordBits w 111 107 != 0)
      (.fence p k (wordBits w 111 107))
  | 0x07 => guardField (wordBits w 109 0 = 0) (.ramp p k (wordBits w 111 110))
  | 0x08 => .ok (.srk p k (wordBits w 111 110) (wordKey w))
  | 0x10 =>
    let f : WloadF := ⟨wordBits w 111 108, wordBits w 107 103, wordBits w 102 99, wordBits w 98 95⟩
    guardField (wordBits w 94 0 = 0 && f.fieldOk) (.wload p k f [])
  | 0x11 => guardField (wordBits w 103 0 = 0 && biasFieldOk (wordBits w 111 108))
      (.bias p k (wordBits w 111 108) (wordBits w 107 104) [])
  | 0x12 => guardField (wordBits w 42 0 = 0 && wordBits w 54 45 = 0 && (wordPass w).fieldOk)
      (.pass p k (wordPass w) none [])
  | 0x13 =>
    let f : DrainF := ⟨wordBits w 102 92, wordBits w 54 45, wordDrain w⟩
    guardField (wordBits w 42 0 = 0 && wordBits w 111 103 = 0 && wordBits w 91 79 = 0 && f.fieldOk)
      (.drain p k f)
  | 0x40 => guardField (wordBits w 75 0 = 0) (.gload p k (wordGal w) [])
  | 0x41 => guardField (wordBits w 75 0 = 0) (.gstore p k (wordGal w) [])
  | _ =>
    match finOpOf op with
    | some o => guardField (o.fieldOk (wordFin w)) (finInstr o p k (wordFin w))
    | none => .error .opcode

end Sys2Proof
end

