-- ==== Sys2Proof/Machine/Flags.lean ====
section
/-!
DEFINITION. Number formats, exact values, rounding, and the numeric flags of chapter 2
(R37 to R68). A pattern is a Nat; an exact finite value is sign, magnitude and power of two.
-/

namespace Sys2Proof.Machine

/-- The number formats of R37. -/
inductive Fmt where
  | fp32 | bf16 | e4m3 | e5m2 | e3m2 | e2m3 | e2m1 | a56 | e8m0
deriving DecidableEq, Repr

/-- Format code (R37); codes 9 to 15 are reserved. -/
def Fmt.ofCode : Nat → Option Fmt
  | 0 => some .fp32
  | 1 => some .bf16
  | 2 => some .e4m3
  | 3 => some .e5m2
  | 4 => some .e3m2
  | 5 => some .e2m3
  | 6 => some .e2m1
  | 7 => some .a56
  | 8 => some .e8m0
  | _ => none

/-- Width of a pattern (R37). -/
def Fmt.bits : Fmt → Nat
  | .fp32 => 32
  | .bf16 => 16
  | .e4m3 => 8
  | .e5m2 => 8
  | .e3m2 => 6
  | .e2m3 => 6
  | .e2m1 => 4
  | .a56 => 56
  | .e8m0 => 8

/-- Exponent field width (R37). -/
def Fmt.ebits : Fmt → Nat
  | .fp32 => 8
  | .bf16 => 8
  | .e4m3 => 4
  | .e5m2 => 5
  | .e3m2 => 3
  | .e2m3 => 2
  | .e2m1 => 2
  | .a56 => 9
  | .e8m0 => 8

/-- Fraction field width m (R37). -/
def Fmt.fbits : Fmt → Nat
  | .fp32 => 23
  | .bf16 => 7
  | .e4m3 => 3
  | .e5m2 => 2
  | .e3m2 => 2
  | .e2m3 => 3
  | .e2m1 => 1
  | .a56 => 46
  | .e8m0 => 0

/-- Exponent bias b (R37). -/
def Fmt.bias : Fmt → Nat
  | .fp32 => 127
  | .bf16 => 127
  | .e4m3 => 7
  | .e5m2 => 15
  | .e3m2 => 3
  | .e2m3 => 1
  | .e2m1 => 1
  | .a56 => 255
  | .e8m0 => 127

/-- Whether the format has infinities (R37). -/
def Fmt.hasInf : Fmt → Bool
  | .fp32 => true
  | .bf16 => true
  | .e5m2 => true
  | .a56 => true
  | .e4m3 => false
  | .e3m2 => false
  | .e2m3 => false
  | .e2m1 => false
  | .e8m0 => false

/-- The MX element formats 0x2 to 0x6 (R41). -/
def Fmt.isMx : Fmt → Bool
  | .e4m3 => true
  | .e5m2 => true
  | .e3m2 => true
  | .e2m3 => true
  | .e2m1 => true
  | .fp32 => false
  | .bf16 => false
  | .a56 => false
  | .e8m0 => false

/-- Magnitude pattern of the largest finite value (R37). -/
def Fmt.maxMag : Fmt → Nat
  | .fp32 => 0x7F7FFFFF
  | .bf16 => 0x7F7F
  | .e4m3 => 0x7E
  | .e5m2 => 0x7B
  | .e3m2 => 0x1F
  | .e2m3 => 0x1F
  | .e2m1 => 0x7
  | .a56 => 511 * 2 ^ 46 - 1
  | .e8m0 => 0xFE

/-- Exponent of the largest normal, emax of R66 step 2. -/
def Fmt.emax : Fmt → Int
  | .e4m3 => 8
  | .e5m2 => 15
  | .e3m2 => 4
  | .e2m3 => 2
  | .e2m1 => 2
  | .fp32 => 127
  | .bf16 => 127
  | .a56 => 255
  | .e8m0 => 127

/-- Exponent field of all ones, fraction zero. -/
def Fmt.infMag (f : Fmt) : Nat := (2 ^ f.ebits - 1) * 2 ^ f.fbits

/-- The canonical NaN (R62); the formats without one give zero, as R67 writes the elements of a
NaN block. -/
def Fmt.canonNaN : Fmt → Nat
  | .fp32 => 0x7FC00000
  | .bf16 => 0x7FC0
  | .e4m3 => 0x7F
  | .e5m2 => 0x7E
  | .a56 => 511 * 2 ^ 46 + 2 ^ 45
  | .e8m0 => 0xFF
  | .e3m2 => 0
  | .e2m3 => 0
  | .e2m1 => 0

/-- An exact value: NaN, infinity, or (-1)^neg * mant * 2^exp. -/
inductive FVal where
  | nan
  | inf (neg : Bool)
  | fin (neg : Bool) (mant : Nat) (exp : Int)
deriving DecidableEq, Repr

/-- Value of a pattern (R38, R39). -/
def Fmt.decode (f : Fmt) (x : Nat) : FVal :=
  if f = .e8m0 then
    if x % 256 = 255 then .nan else .fin false 1 (Int.ofNat (x % 256) - 127)
  else
    let m := f.fbits
    let mag := x % 2 ^ (f.ebits + m)
    let neg := x / 2 ^ (f.ebits + m) % 2 = 1
    let e := mag / 2 ^ m
    let fr := mag % 2 ^ m
    if f.hasInf && e = 2 ^ f.ebits - 1 then
      if fr = 0 then .inf neg else .nan
    else if f = .e4m3 && mag = 0x7F then .nan
    else if e = 0 then .fin neg fr (1 - Int.ofNat f.bias - Int.ofNat m)
    else .fin neg (2 ^ m + fr) (Int.ofNat e - Int.ofNat f.bias - Int.ofNat m)

/-- Rounding mode: RNE, RZ, or SR with bits [63:48] of the noise word (R55, R59). -/
inductive RMode where
  | rne
  | rz
  | sr (u : Nat)
deriving DecidableEq, Repr

/-- Whether a magnitude k with discarded part rem / 2^sh rounds up (R55, R59). -/
def RMode.up (r : RMode) (k rem sh : Nat) : Bool :=
  match r with
  | .rne => rem * 2 > 2 ^ sh || (rem * 2 = 2 ^ sh && k % 2 = 1)
  | .rz => false
  | .sr u => rem * 2 ^ 16 / 2 ^ sh + u ≥ 65536

/-- Magnitude pattern of mant * 2^exp rounded to the precision of f with no upper limit on the
exponent (R58), and whether the rounding was inexact. -/
def Fmt.roundMag (f : Fmt) (r : RMode) (mant : Nat) (exp : Int) : Nat × Bool :=
  if mant = 0 then (0, false)
  else
    let emin : Int := 1 - Int.ofNat f.bias
    let m : Int := Int.ofNat f.fbits
    let top : Int := Int.ofNat (Nat.log2 mant) + exp
    let q : Int := max top emin - m
    let off : Nat := (q - (emin - m)).toNat * 2 ^ f.fbits
    if exp ≥ q then (mant * 2 ^ (exp - q).toNat + off, false)
    else
      let sh := (q - exp).toNat
      let k := mant / 2 ^ sh
      let rem := mant % 2 ^ sh
      ((if r.up k rem sh then k + 1 else k) + off, rem ≠ 0)

/-- The numeric events (R68, R63, R67, R58; CMP_NUM_FLAGS and COL_NUM_FLAGS add overflow). -/
structure NumFlags where
  nanIn : Bool
  nanMade : Bool
  navBlock : Bool
  a56Overflow : Bool
  overflow : Bool
  saturated : Bool
  underflow : Bool
  bf16Truncated : Bool
deriving DecidableEq, Repr

/-- No event. -/
def NumFlags.none : NumFlags := ⟨false, false, false, false, false, false, false, false⟩

/-- Events of either. -/
def NumFlags.or (a b : NumFlags) : NumFlags :=
  ⟨a.nanIn || b.nanIn, a.nanMade || b.nanMade, a.navBlock || b.navBlock,
   a.a56Overflow || b.a56Overflow, a.overflow || b.overflow, a.saturated || b.saturated,
   a.underflow || b.underflow, a.bf16Truncated || b.bf16Truncated⟩

/-- Events of a list. -/
def NumFlags.orAll (l : List NumFlags) : NumFlags := l.foldl NumFlags.or NumFlags.none

/-- Sign bit of a pattern. -/
def Fmt.signBit (f : Fmt) (neg : Bool) : Nat := if neg then 2 ^ (f.ebits + f.fbits) else 0

/-- What a value beyond the range of f becomes (R58, R63). -/
def Fmt.beyond (f : Fmt) (r : RMode) (sat neg : Bool) : Nat × NumFlags :=
  if sat || !f.hasInf || r = .rz then
    (f.signBit neg + f.maxMag, { NumFlags.none with saturated := true })
  else if f = .a56 then (f.signBit neg + f.infMag, { NumFlags.none with a56Overflow := true })
  else (f.signBit neg + f.infMag, { NumFlags.none with overflow := true })

/-- Conversion of an exact value into f (R55 to R59). An infinity entering a format that has one
stays infinite under RNE and SR with no event; the range test of R58 governs the rest. -/
def Fmt.encode (f : Fmt) (r : RMode) (sat : Bool) (v : FVal) : Nat × NumFlags :=
  match v with
  | .nan => (f.canonNaN, NumFlags.none)
  | .inf neg =>
    if sat || !f.hasInf || r = .rz then f.beyond r sat neg
    else (f.signBit neg + f.infMag, NumFlags.none)
  | .fin neg mant exp =>
    let x := f.roundMag r mant exp
    if x.1 > f.maxMag then f.beyond r sat neg
    else (f.signBit neg + x.1,
      { NumFlags.none with underflow := x.2 && x.1 < 2 ^ f.fbits })

/-- Conversion between formats with RNE, no saturation; exact where the target holds the value
(R40). -/
def convert (src dst : Fmt) (x : Nat) : Nat := (dst.encode .rne false (src.decode x)).1

/-- A signed exact dyadic number m * 2^e. -/
structure Dy where
  m : Int
  e : Int
deriving DecidableEq, Repr

/-- Signed mantissa of a finite value. -/
def signedMant (neg : Bool) (mant : Nat) : Int := if neg then - Int.ofNat mant else Int.ofNat mant

/-- Exact sum. -/
def Dy.add (a b : Dy) : Dy :=
  let e := min a.e b.e
  ⟨a.m * 2 ^ (a.e - e).toNat + b.m * 2 ^ (b.e - e).toNat, e⟩

/-- Exact product. -/
def Dy.mul (a b : Dy) : Dy := ⟨a.m * b.m, a.e + b.e⟩

/-- A dyadic number as a value; zero has the sign given. -/
def Dy.toFVal (d : Dy) (zeroNeg : Bool) : FVal :=
  if d.m = 0 then .fin zeroNeg 0 0 else .fin (d.m < 0) d.m.natAbs d.e

/-- Exact negation. -/
def FVal.negate : FVal → FVal
  | .nan => .nan
  | .inf n => .inf (!n)
  | .fin n m e => .fin (!n) m e

/-- Is it NaN. -/
def FVal.isNaN : FVal → Bool
  | .nan => true
  | .inf _ => false
  | .fin _ _ _ => false

/-- Is it zero. -/
def FVal.isZero : FVal → Bool
  | .fin _ m _ => m = 0
  | .nan => false
  | .inf _ => false

/-- Exact sum before rounding; an exact zero sum is +0 unless both terms are negative zeros
(IEEE 754 under RNE, R64). -/
def FVal.add (a b : FVal) : FVal :=
  match a, b with
  | .nan, _ => .nan
  | .inf _, .nan => .nan
  | .fin _ _ _, .nan => .nan
  | .inf x, .inf y => if x = y then .inf x else .nan
  | .inf x, .fin _ _ _ => .inf x
  | .fin _ _ _, .inf y => .inf y
  | .fin n1 m1 e1, .fin n2 m2 e2 =>
    (Dy.add ⟨signedMant n1 m1, e1⟩ ⟨signedMant n2 m2, e2⟩).toFVal (n1 && n2 && m1 = 0 && m2 = 0)

/-- Exact product before rounding (R64). -/
def FVal.mul (a b : FVal) : FVal :=
  match a, b with
  | .nan, _ => .nan
  | .inf _, .nan => .nan
  | .fin _ _ _, .nan => .nan
  | .inf x, .inf y => .inf (x != y)
  | .inf x, .fin n m _ => if m = 0 then .nan else .inf (x != n)
  | .fin n m _, .inf y => if m = 0 then .nan else .inf (n != y)
  | .fin n1 m1 e1, .fin n2 m2 e2 => .fin (n1 != n2) (m1 * m2) (e1 + e2)

/-- Numeric order of non-NaN values: -1, 0, 1 (IEEE comparison; the zeros compare equal). -/
def FVal.cmp (a b : FVal) : Int :=
  match a, b with
  | .nan, _ => 0
  | .inf _, .nan => 0
  | .fin _ _ _, .nan => 0
  | .inf x, .inf y => if x = y then 0 else if x then -1 else 1
  | .inf x, .fin _ _ _ => if x then -1 else 1
  | .fin _ _ _, .inf y => if y then 1 else -1
  | .fin n1 m1 e1, .fin n2 m2 e2 =>
    Int.sign (Dy.add ⟨signedMant n1 m1, e1⟩ ⟨- signedMant n2 m2, e2⟩).m

/-- Sign of a value. -/
def FVal.isNeg : FVal → Bool
  | .nan => false
  | .inf n => n
  | .fin n _ _ => n

/-- IEEE 754 minimum (R132): NaN if either is NaN; -0 below +0 (DEDUCED: IEEE 754-2019). -/
def FVal.minimum (a b : FVal) : FVal :=
  if a.isNaN || b.isNaN then .nan
  else if a.cmp b < 0 then a
  else if a.cmp b > 0 then b
  else if a.isNeg then a else b

/-- IEEE 754 maximum (R132). -/
def FVal.maximum (a b : FVal) : FVal :=
  if a.isNaN || b.isNaN then .nan
  else if a.cmp b > 0 then a
  else if a.cmp b < 0 then b
  else if a.isNeg then b else a

/-- A FP32 operation's result pattern: one RNE rounding, canonical NaN (R56, R62). -/
def fp32Of (v : FVal) : Nat := (Fmt.encode .fp32 .rne false v).1

/-- FP32 pattern's value. -/
def fp32Val (x : Nat) : FVal := Fmt.decode .fp32 x

/-- FP32 sum rounded once (R53, R56). -/
def fp32Add (a b : Nat) : Nat := fp32Of ((fp32Val a).add (fp32Val b))

/-- FP32 product rounded once (R56). -/
def fp32Mul (a b : Nat) : Nat := fp32Of ((fp32Val a).mul (fp32Val b))

/-- A56 pattern's value. -/
def a56Val (x : Nat) : FVal := Fmt.decode .a56 x

/-- A56 sum rounded once by RNE (R53, R63), with its events. -/
def a56Add (a b : Nat) : Nat × NumFlags :=
  let va := a56Val a
  let vb := a56Val b
  let r := va.add vb
  let x := Fmt.encode .a56 .rne false r
  (x.1, x.2.or { NumFlags.none with nanMade := r.isNaN && !va.isNaN && !vb.isNaN })

/-- The value of n / 2^k with n's lowest bit standing for all lower ones. -/
def stickyVal (neg : Bool) (n : Nat) (exact : Bool) (exp : Int) : FVal :=
  .fin neg (2 * n + (if exact then 0 else 1)) (exp - 1)

/-- Quotient of finite magnitudes with a sticky bit, enough bits for one rounding to FP32. -/
def quotient (neg : Bool) (m1 : Nat) (e1 : Int) (m2 : Nat) (e2 : Int) : FVal :=
  let n := m1 * 2 ^ (64 + Nat.log2 m2)
  stickyVal neg (n / m2) (n % m2 = 0) (e1 - e2 - Int.ofNat (64 + Nat.log2 m2))

/-- IEEE division before rounding (R57, R64, R182). -/
def FVal.div (a b : FVal) : FVal :=
  match a, b with
  | .nan, _ => .nan
  | .inf _, .nan => .nan
  | .fin _ _ _, .nan => .nan
  | .inf _, .inf _ => .nan
  | .inf x, .fin n _ _ => .inf (x != n)
  | .fin n _ _, .inf y => .fin (n != y) 0 0
  | .fin n1 m1 e1, .fin n2 m2 e2 =>
    if m2 = 0 then (if m1 = 0 then .nan else .inf (n1 != n2))
    else if m1 = 0 then .fin (n1 != n2) 0 0
    else quotient (n1 != n2) m1 e1 m2 e2

/-- Integer square root by bits, from bit k down. -/
def isqrtFrom (n : Nat) : Nat → Nat → Nat
  | 0, r => if (r + 1) * (r + 1) ≤ n then r + 1 else r
  | k + 1, r =>
    let t := r + 2 ^ (k + 1)
    isqrtFrom n k (if t * t ≤ n then t else r)

/-- Floor of the square root. -/
def isqrt (n : Nat) : Nat := isqrtFrom n (Nat.log2 n / 2 + 1) 0

/-- 1 / sqrt a before rounding (R57, R64). -/
def FVal.rsqrt : FVal → FVal
  | .nan => .nan
  | .inf n => if n then .nan else .fin false 0 0
  | .fin n m e =>
    if m = 0 then .inf n
    else if n then .nan
    else
      let m' := if e % 2 = 0 then m else 2 * m
      let h := if e % 2 = 0 then e / 2 else (e - 1) / 2
      let k := 64 + Nat.log2 m'
      let r := isqrt (2 ^ (2 * k) / m')
      stickyVal false r (r * r * m' = 2 ^ (2 * k)) (- h - Int.ofNat k)

/-- Working precision of the fixed-point functions. -/
def fxBits : Nat := 320

/-- Sum of 1 / ((2i+1) z^(2i+1)) style series: atanh(num/den) in units of 2^-320. -/
def atanhFx (num den : Nat) : Nat → Nat → Nat → Nat
  | 0, _, _ => 0
  | t + 1, i, p => p / (2 * i + 1) + atanhFx num den t (i + 1) (p * num * num / (den * den))

/-- ln 2 in units of 2^-320. -/
def ln2Fx : Nat := 2 * atanhFx 1 3 110 0 (2 ^ fxBits / 3)

/-- Taylor series of e^r for 0 ≤ r < 1, r in units of 2^-320. -/
def expFx (r : Nat) : Nat → Nat → Nat → Nat
  | 0, _, _ => 0
  | t + 1, i, p => p + expFx r t (i + 1) (p * r / 2 ^ fxBits / (i + 1))

/-- e^a before rounding (R57, R64). Beyond |a| of 2^8 only the side matters. -/
def FVal.expv : FVal → FVal
  | .nan => .nan
  | .inf n => if n then .fin false 0 0 else .inf false
  | .fin n m e =>
    if m = 0 then .fin false 1 0
    else if Int.ofNat (Nat.log2 m) + e ≥ 8 then
      (if n then stickyVal false 1 true (-1000) else stickyVal false 1 true 1000)
    else
      let fx : Nat := m * 2 ^ (e + Int.ofNat fxBits).toNat / 2 ^ (- (e + Int.ofNat fxBits)).toNat
      let x : Int := signedMant n fx
      let k : Int := x / Int.ofNat ln2Fx
      let r : Nat := (x - k * Int.ofNat ln2Fx).toNat
      stickyVal false (expFx r 90 0 (2 ^ fxBits)) false (k - Int.ofNat fxBits)

/-- ln a before rounding (R57, R64). -/
def FVal.logv : FVal → FVal
  | .nan => .nan
  | .inf n => if n then .nan else .inf false
  | .fin n m e =>
    if m = 0 then .inf true
    else if n then .nan
    else
      let l := Nat.log2 m
      let top : Int := e + Int.ofNat l
      -- ln m/2^l = 2 atanh ((m - 2^l) / (m + 2^l))
      let num := m - 2 ^ l
      let den := m + 2 ^ l
      let s : Int := top * Int.ofNat ln2Fx + 2 * Int.ofNat (atanhFx num den 120 0 (2 ^ fxBits * num / den))
      if num = 0 && top = 0 then .fin false 0 0
      else stickyVal (s < 0) s.natAbs false (- Int.ofNat fxBits)

/-- The canonical tree of R52, with fuel. -/
def treeFold {α : Type} (comb : α → α → α) (dflt : α) : Nat → List α → α
  | _, [] => dflt
  | _, [x] => x
  | 0, x :: _ :: _ => x
  | fuel + 1, x :: y :: l =>
    let n := l.length + 2
    let p := 2 ^ Nat.log2 (n - 1)
    comb (treeFold comb dflt fuel ((x :: y :: l).take p)) (treeFold comb dflt fuel ((x :: y :: l).drop p))

/-- The canonical tree over a whole list (R52): depth is below its length. -/
def tree {α : Type} (comb : α → α → α) (dflt : α) (l : List α) : α :=
  treeFold comb dflt l.length l

/-- 64-bit wrap. -/
def u64 (n : Nat) : Nat := n % 2 ^ 64

/-- One round of R60's mix. -/
def noiseRound (x : Nat) : Nat :=
  let x := Nat.xor x (x / 2 ^ 30)
  let x := u64 (x * 0xBF58476D1CE4E5B9)
  let x := Nat.xor x (x / 2 ^ 27)
  let x := u64 (x * 0x94D049BB133111EB)
  Nat.xor x (x / 2 ^ 31)

/-- Noise word of an element (R60). -/
def noise (seed edition tensorId index : Nat) : Nat :=
  let x := Nat.xor (u64 seed) (u64 (edition * 0x9E3779B97F4A7C15))
  let x := Nat.xor (Nat.xor x (u64 (tensorId * 2 ^ 40))) (u64 index)
  noiseRound (noiseRound x)

/-- Rounding mode from the rmode field (R55); the reserved code rejects before use. -/
def rmodeOf (code noiseWord : Nat) : RMode :=
  if code = 0 then .rne else if code = 1 then .rz else .sr (noiseWord / 2 ^ 48 % 2 ^ 16)

/-- Larger magnitude of two finite values as (mant, exp); other values count as zero (R66). -/
def maxFiniteMag (a : Nat × Int) (v : FVal) : Nat × Int :=
  match v with
  | .nan => a
  | .inf _ => a
  | .fin _ m e =>
    if (Dy.add ⟨Int.ofNat m, e⟩ ⟨- Int.ofNat a.1, a.2⟩).m > 0 then (m, e) else a

/-- Scale exponent X of R66 step 3. -/
def mxScale (f : Fmt) (vs : List FVal) : Int :=
  let a := vs.foldl maxFiniteMag (0, 0)
  if a.1 = 0 then -127
  else max (-127) (min 127 (Int.ofNat (Nat.log2 a.1) + a.2 - f.emax))

/-- A value divided by 2^X. -/
def FVal.scaleDown (v : FVal) (x : Int) : FVal :=
  match v with
  | .nan => .nan
  | .inf n => .inf n
  | .fin n m e => .fin n m (e - x)

/-- One element of R66 step 5; an E5M2 infinity stays infinite (R67). -/
def mxElement (f : Fmt) (r : RMode) (x : Int) (v : FVal) : Nat × NumFlags :=
  match v with
  | .inf n => (f.signBit n + f.infMag, NumFlags.none)
  | .nan => (0, NumFlags.none)
  | .fin n m e => f.encode r true ((FVal.fin n m e).scaleDown x)

/-- Whether R67 writes the block with scale 0xFF. -/
def mxIsNaN (f : Fmt) (vs : List FVal) : Bool :=
  vs.any fun v =>
    match v with
    | .nan => true
    | .inf _ => f != .e5m2
    | .fin _ _ _ => false

/-- Quantisation of a block (R66, R67): scale byte, elements, events. -/
def mxQuantise (f : Fmt) (rs : List RMode) (vs : List FVal) : Nat × List Nat × NumFlags :=
  if mxIsNaN f vs then (255, vs.map fun _ => 0, { NumFlags.none with navBlock := true })
  else
    let x := mxScale f vs
    let es := List.zipWith (fun r v => mxElement f r x v) rs vs
    ((x + 127).toNat, es.map Prod.fst, NumFlags.orAll (es.map Prod.snd))

/-- Bytes of a row of n elements in format f with 4- and 6-bit elements packed (R41). -/
def Fmt.packedBytes (f : Fmt) (n : Nat) : Nat :=
  match f with
  | .fp32 => 4 * n
  | .bf16 => 2 * n
  | .a56 => 8 * n
  | .e4m3 => n
  | .e5m2 => n
  | .e8m0 => n
  | .e3m2 => 3 * ((n + 3) / 4)
  | .e2m3 => 3 * ((n + 3) / 4)
  | .e2m1 => (n + 1) / 2

/-- Bits an element takes in storage (A56 in a 64-bit word, R40). -/
def Fmt.storeBits : Fmt → Nat
  | .a56 => 64
  | .fp32 => 32
  | .bf16 => 16
  | .e4m3 => 8
  | .e5m2 => 8
  | .e3m2 => 6
  | .e2m3 => 6
  | .e2m1 => 4
  | .e8m0 => 8

/-- Little-endian number of bytes. -/
def leNat : List Byte → Nat
  | [] => 0
  | b :: bs => b.toNat + 256 * leNat bs

/-- n little-endian bytes of x. -/
def natLe : Nat → Nat → List Byte
  | 0, _ => []
  | n + 1, x => BitVec.ofNat 8 x :: natLe n (x / 256)

/-- Numbers as one little-endian stream of w-bit elements (R41). -/
def packNat (w : Nat) : List Nat → Nat
  | [] => 0
  | x :: xs => x % 2 ^ w + 2 ^ w * packNat w xs

/-- Element i of a stream of w-bit elements. -/
def unpackAt (w x i : Nat) : Nat := x / 2 ^ (w * i) % 2 ^ w

/-- n elements of format f read from bytes (R40, R41). -/
def Fmt.unpack (f : Fmt) (n : Nat) (bs : List Byte) : List Nat :=
  let x := leNat bs
  (List.range n).map fun i => unpackAt f.storeBits x i % 2 ^ f.bits

/-- Elements of format f as bytes (R40, R41). -/
def Fmt.pack (f : Fmt) (xs : List Nat) : List Byte :=
  natLe (f.packedBytes xs.length) (packNat f.storeBits xs)

end Sys2Proof.Machine
end

