-- ==== Sys2Proof/Config.lean ====
section
/-!
DEFINITION. What the spec leaves to the part, to outside standards, or open: constants without a
body. Nothing in the package can know their values, so every statement holds for all of them.
-/

namespace Sys2Proof

/-- A fresh unspecified number for each value of the free-value counter (log entry 1). -/
opaque Config.freeValue : Nat → Nat

/-- Element i of a table of unspecified numbers, one table for each value of the free-value counter
(log entry 1). -/
opaque Config.freeTable : Nat → Nat → Nat

/-- SHAKE256 of a byte string, with the output length in bytes (R217, R464 to R472: an outside
standard; log entry 7). -/
opaque Config.shake256 : List Byte → Nat → List Byte

/-- Whether a Falcon-1024 signature verifies: public key, message, signature (R217, R463 to R468,
R492: an outside standard; log entry 7). -/
opaque Config.falconVerify : List Byte → List Byte → List Byte → Bool

/-- Digest of the VENDOR_ROOT key in the survivor read-only memory (R463, R465: fixed by the stepping;
log entry 7). -/
opaque Config.rootDigest : List Byte

/-- What die of kind 1 press, 2 chase, 3 engine and a number reports for capability: from it the level,
the die-link revision and the stepping are read (R337, R338: fixed by the part; log entry 25). -/
opaque Config.die : Nat → Nat → Nat

/-- Weight of estimator event e, in 0.01 pJ: measured at manufacture and held in the configuration flash
(R406; log entry 25). -/
opaque Config.pwrWeight : Nat → Nat

/-- Stalled press cycles of every 64, in thousandths for each watt by which the last sample exceeds the cap: R411 says
that k is in proportion and gives no factor (log entry 61). -/
opaque Config.stallGain : Nat

/-- Digest of both read-only memories (R463, R472; log entry 7). -/
opaque Config.romDigest : List Byte

/-- Public ATTEST key that the island derives for an image digest (R463; log entry 7). -/
opaque Config.attestKey : List Byte → List Byte

/-- Falcon-1024 signature by the ATTEST key of an image digest over a message (R463, R472, R492; log
entry 7). -/
opaque Config.attestSign : List Byte → List Byte → List Byte

/-- Falcon-1024 signature by the DEVICE key over a message (R463; log entry 7). -/
opaque Config.deviceSign : List Byte → List Byte

/-- Bytes of the spill region of a fabric port: no rule gives its size or place (R167, log
entry 12). -/
opaque Config.spillBytes : Nat → Nat

/-- Message-set level of the module toward a guest: no rule gives it (R343, log entry 18). -/
opaque Config.guestLevel : Nat

/-- Heater bias of engine k for band b, in codes: held in the configuration flash; the spec gives a
typical value only (R246, R247, log entry 19). -/
opaque Config.heaterBias : Nat → Nat → Int

end Sys2Proof
end

