-- ==== Sys2Proof/Machine/Map.lean ====
section
/-!
DEFINITION. Association lists: the sparse tables of the state.
-/

namespace Sys2Proof.Machine

/-- A sparse table. -/
abbrev SMap (K V : Type) := List (K × V)

/-- First entry of a key. -/
def SMap.get? {K V : Type} [DecidableEq K] (m : SMap K V) (k : K) : Option V :=
  match m with
  | [] => none
  | e :: r => if e.1 = k then some e.2 else SMap.get? r k

/-- Entry of a key, or a default. -/
def SMap.getD {K V : Type} [DecidableEq K] (m : SMap K V) (k : K) (d : V) : V :=
  (m.get? k).getD d

/-- The table without a key. -/
def SMap.del {K V : Type} [DecidableEq K] (m : SMap K V) (k : K) : SMap K V :=
  m.filter fun e => !decide (e.1 = k)

/-- The table with a key set. -/
def SMap.put {K V : Type} [DecidableEq K] (m : SMap K V) (k : K) (v : V) : SMap K V :=
  (k, v) :: m.del k

/-- The table with a key set, and no entry for a default value. -/
def SMap.putD {K V : Type} [DecidableEq K] [DecidableEq V] (m : SMap K V) (k : K) (v d : V) :
    SMap K V :=
  if v = d then m.del k else (k, v) :: m.del k

end Sys2Proof.Machine
end

