-- ==== Sys2Proof/Machine/Mem.lean ====
section
/-!
DEFINITION. Byte memories in canonical form: addresses strictly rising, no listed byte equal to
what an unlisted address reads as (zero: log entry 4).
-/

namespace Sys2Proof.Machine

/-- A byte memory. -/
abbrev Memory := List Host.Cell

/-- What an unlisted address reads as (log entry 4). -/
def Memory.blank : Byte := 0

/-- The byte at an address. -/
def Memory.get (m : Memory) (a : Nat) : Byte :=
  match m with
  | [] => Memory.blank
  | c :: r => if a < c.1 then Memory.blank else if a = c.1 then c.2 else Memory.get r a

/-- The memory with one byte set. -/
def Memory.set (m : Memory) (a : Nat) (v : Byte) : Memory :=
  match m with
  | [] => if v = Memory.blank then [] else [(a, v)]
  | c :: r =>
    if a < c.1 then (if v = Memory.blank then c :: r else (a, v) :: c :: r)
    else if a = c.1 then (if v = Memory.blank then r else (a, v) :: r)
    else c :: Memory.set r a v

/-- Canonical form of a memory whose addresses start at lo or above. -/
def Memory.wfFrom (lo : Nat) (m : Memory) : Bool :=
  match m with
  | [] => true
  | c :: r => decide (lo ≤ c.1) && decide (c.2 ≠ Memory.blank) && Memory.wfFrom (c.1 + 1) r

/-- Canonical form. -/
def Memory.wf (m : Memory) : Bool := Memory.wfFrom 0 m

/-- n bytes from an address. -/
def Memory.read (m : Memory) (a n : Nat) : List Byte := (List.range n).map fun i => m.get (a + i)

/-- Bytes stored from an address. -/
def Memory.write (m : Memory) (a : Nat) (bs : List Byte) : Memory :=
  match bs with
  | [] => m
  | b :: r => Memory.write (m.set a b) (a + 1) r

end Sys2Proof.Machine
end

