-- ==== Sys2Proof/Machine/Field.lean ====
section
/-!
DEFINITION. The fields of the module's state that are one number each: every field of every
register of the spec's register index (R500; the chapter tables give width, access and reset),
and after them, with names that begin with h, the numbers that the rules give the module
without a register. `Field.spec` gives each one's width, reset value and access.
-/

namespace Sys2Proof.Machine

/-- A number of the module's state. Register fields are named by register and field. -/
inductive Field where
  | modIdMapVersion
  | modIdPart
  | modTickTick
  | modGroupMaskMask
  | modUnmappedUnmapped
  | modUnmappedSource
  | modUnmappedCount
  | modUnmappedWrite
  | modUnmappedOffset
  | modCapabilityKind
  | modCapabilityDdlRev
  | modCapabilityStepping
  | modCapabilityLevel
  | modImpSrcAddr
  | modImpLenBytes
  | modImpCtrlCmd
  | modImpStatusError
  | modImpStatusSection
  | modImpStatusForme
  | modImpStatusVariant
  | modImpStatusCmdIgnored
  | modImpStatusPending
  | modImpDetailKind
  | modImpDetailUnit
  | modImpDetailForm
  | modImpDetailIndex
  | modImpActiveRollbackVersion
  | modFormeCtrlCmd
  | modFormeStatusParkReason
  | modFormeStatusCause
  | modFormeStatusVariant
  | modFormeStatusLate
  | modFormeStatusReplay
  | modFormeStatusSwitchPending
  | modFormeStatusState
  | modFormeEditionEdition
  | modFormeCommitTickTick
  | modFormeCountsLateSteps
  | modFormeCountsAbandons
  | modFormeCountsVariantChanges
  | modFormeStepQ
  | fabIdentityWriteRefused
  | fabIdentityIdentity
  | fabStatusEditionStalled
  | fabStatusState
  | fabCountsRelayed
  | fabCountsStale
  | fabCountsQuiesceTimeouts
  | fabEditionWaitTicks
  | fabPortPeerEdition
  | fabPortQuiesced
  | fabPortFetchPending
  | fabPortPlantFault
  | fabPortPlantWavelength
  | fabPortPlantExcess
  | fabPortRetained
  | pairStatusLiveIn
  | pairStatusYielded
  | pairStatusMember
  | pairStatusRoleRefused
  | pairStatusProtection
  | pairStatusPartnerRole
  | pairStatusYieldCause
  | pairStatusPending
  | pairStatusRole
  | pairCtrlCmd
  | pairCountsUnprotectedCommits
  | pairCountsDeltaResends
  | pairCountsResyncs
  | pairCountsBadWrites
  | pairTakeoverTicks
  | pairTakeoverResult
  | pairFormeSync
  | pairFormePairPort
  | pairFormeEdition
  | pwrCtrlFixed
  | pwrCtrlFixedPoint
  | pwrCtrlBoost
  | pwrCtrlCap
  | pwrStatusCapUnmet
  | pwrStatusCapExceeded
  | pwrStatusEstDrift
  | pwrStatusInputFault
  | pwrStatusState
  | pwrStatusInputDv
  | pwrStatusInputW
  | pwrStatusEstW
  | pwrStatusHoldW
  | pwrFormePoint
  | pwrFormeFloor
  | pwrFormeStallTicks
  | pwrFormeIdleSteps
  | pwrFormePointChanges
  | pwrRailState
  | pwrRailDroopStorm
  | pwrRailLimitEvents
  | pwrRailDroopEvents
  | pwrRailCurrent
  | pwrEnergyEnergy
  | pwrWeightWeight
  | thmStatusTrip
  | thmStatusThrottle
  | thmStatusTripDomain
  | thmStatusBand
  | thmStatusTemp
  | thmDomainBand
  | thmDomainSensor
  | thmDomainPeak
  | thmDomainBandChanges
  | thmDomainTemp
  | prfResultState
  | prfResultPhase
  | prfResultKind
  | prfResultUnit
  | prfResultCause
  | prfResultMapRebuilt
  | prfResultNewEntries
  | prfResultEntries
  | prfCtrlPort
  | prfCtrlCmd
  | prfMapGeneration
  | prfMapWriteFail
  | prfMapPendingDropped
  | prfMapPending
  | prfMapScanRefused
  | prfMapUnwritten
  | prfLoopbackBusy
  | prfLoopbackRefused
  | prfLoopbackPort
  | prfLoopbackErrors
  | prfLoopbackPassed
  | prfPressSlicePassed
  | prfPressLastFail
  | prfPressFails
  | prfPressRounds
  | secStatusState
  | secStatusFailCause
  | secStatusResetRefused
  | secStatusCmdRefused
  | secStatusOwner
  | secStatusAlertMask
  | secStatusAlerts
  | secStatusKeys
  | secCtrlCmd
  | secReqAddrAddr
  | secReqStatusBusy
  | secReqStatusResult
  | secCounterValue
  | secEventsShutdownFirst
  | secEventsShutdownMask
  | secEventsResetFirst
  | secEventsResetMask
  | coreStatusMismatch
  | coreStatusState
  | coreCtrlSRead
  | coreCtrlSwi
  | coreCtrlCmd
  | coreFaultCause
  | coreFaultAddress
  | coreTimecmpCompare
  | coreIrqRouteEnable
  | coreIrqRouteSupervisor
  | coreIrqRouteRerouted
  | coreIrqRouteTarget
  | coreIrqPendingLevel
  | coreIrqEventsCommit
  | coreIrqEventsCoreFail
  | coreIrqEventsProof
  | coreIrqEventsLink
  | coreIrqEventsBand
  | coreIrqEventsPair
  | coreIrqEventsImp
  | mgtStatusMismatch
  | mgtStatusAddrConflict
  | mgtStatusLinkUp
  | mgtStatusQueued
  | mgtCountsReceived
  | mgtCountsDropped
  | mgtCountsAuthRefused
  | mgtCountsBusy
  | mgtMacMac
  | calRecLastTick
  | calRecRuns
  | calRecFailures
  | calRecResult
  | chsCapabilityKind
  | chsCapabilityDdlRev
  | chsCapabilityStepping
  | chsCapabilityLevel
  | galCycleCycle
  | galStatusUe
  | galStatusCe
  | galStatusLateTransfer
  | galStatusRetainHigh
  | galStatusRetainLost
  | galEccAddrRequester
  | galEccAddrSched
  | galEccAddrLine
  | galEccAddrWord
  | galCeCountCount
  | galPhaseMapForme
  | galArbCountsGrants
  | galArbCountsPromotions
  | galRangeValid
  | galRangeAttr
  | galRangeForme
  | galRangeFirstLine
  | galRangeLinesM1
  | cmpStatusBusy
  | cmpStatusIdxRange
  | cmpStatusSpill
  | cmpStatusLate
  | cmpStatusJob
  | cmpNumFlagsNanIn
  | cmpNumFlagsNanMade
  | cmpNumFlagsOverflow
  | cmpNumFlagsSaturated
  | cmpNumFlagsUnderflow
  | cmpLookupCountLookups
  | cmpExceptCountsNull
  | cmpExceptCountsOutOfRange
  | colStatusBusy
  | colStatusDupTerm
  | colStatusSpill
  | colStatusLinkError
  | colStatusLate
  | colStatusRouteRange
  | colStatusBadNode
  | colStatusActive
  | colStatusJob
  | colNumFlagsNanIn
  | colNumFlagsNanMade
  | colNumFlagsA56Overflow
  | colNumFlagsOverflow
  | colNumFlagsSaturated
  | colNumFlagsUnderflow
  | colMoeCountsRerouted
  | colMoeCountsDropped
  | colMoeCountsOverflowed
  | ddlStatusGroupsOk
  | ddlStatusSparesUsed
  | ddlStatusRev
  | ddlStatusWidth
  | ddlStatusMinWidth
  | ddlStatusState
  | ddlErrCountsBlockErrors
  | ddlErrCountsResends
  | ddlErrCountsRetires
  | ddlErrCountsWidthChanges
  | gstStatusDownSeen
  | gstStatusErrorSent
  | gstStatusRate
  | gstStatusHalfWidth
  | gstStatusMsgLevel
  | gstStatusState
  | gstCapabilityKind
  | gstCapabilityDdlRev
  | gstCapabilityStepping
  | gstCapabilityLevel
  | gstNotifyValue
  | gstPostValue
  | gstCountsRequests
  | gstCountsErrors
  | gstCountsDowns
  | prsStatusDepth
  | prsStatusEccUncorrected
  | prsStatusState
  | prsStripMapStripFailed
  | prsBusyCyclesBusy
  | prsStallCountsBondWait
  | prsStallCountsShadowWait
  | prsStallCountsCarryWait
  | prsStallCountsCaseConflict
  | prsSeqStatusIllegal
  | prsSeqStatusIstoreUe
  | prsSeqStatusPc
  | prsSeqStatusForm
  | prsSeqStatusHold
  | prsSeqStatusTokens
  | prsSeqWaitsTokenWait
  | prsSeqWaitsQueueWait
  | prsSeqWaitsBarrierWait
  | prsSeqWaitsFenceWait
  | prsStepCountSteps
  | prsIstoreEccUe
  | prsIstoreEccCe
  | prsIstoreEccCeCount
  | prsIstoreEccHalfAddr
  | prsCapabilityKind
  | prsCapabilityDdlRev
  | prsCapabilityStepping
  | prsCapabilityLevel
  | finNumFlagsNanIn
  | finNumFlagsNanMade
  | finNumFlagsNavBlock
  | finNumFlagsA56Overflow
  | finNumFlagsSaturated
  | finNumFlagsUnderflow
  | finNumFlagsBf16Truncated
  | caseEccStatusUe
  | caseEccStatusCe
  | caseEccStatusWordAddr
  | caseCeCountCount
  | oeStatusBand
  | oeStatusRoute
  | oeStatusFibresLit
  | oeStatusSteering
  | oeStatusShutdown
  | oeStatusState
  | oeCalCtrlMode
  | oeCalCtrlDelta
  | oeFibreStatusRetired
  | oeFibreStatusSpareLane
  | oeFibreStatusSpareUse
  | oeFibreStatusLevel
  | oeFibreStatusCalDue
  | oeRingSuspect
  | oeRingState
  | oeRingTone
  | oeRingMislocks
  | oeRingLockCode
  | oeRingBias
  | oeRingDrive
  | oeXtalkNbr
  | oeXtalkCoef
  | oeMonS2
  | oeMonS4
  | oeMonS5
  | oeMonS6
  | oeSrcMonS1B
  | oeSrcMonS1A
  | oeLossFaultValid
  | oeLossFaultExcess
  | oeLossFaultElement
  | oeLossFaultBank
  | oeLossFaultDir
  | oeLossFaultWavelength
  | oeRouteSteers
  | oeRouteNext
  | oeRouteCurrent
  | oeCalEventsPreempted
  | oeCalEventsThirdRuns
  | oeCalEventsFailed
  | oeCalEventsMislocks
  | oeCapabilityKind
  | oeCapabilityDdlRev
  | oeCapabilityStepping
  | oeCapabilityLevel
  | lnkStatusTxMask
  | lnkStatusRxMask
  | lnkStatusAttempts
  | lnkStatusClockOk
  | lnkStatusLastDown
  | lnkStatusState
  | lnkCtrlCmd
  | lnkPeerModule
  | lnkPeerPort
  | lnkPeerRtt
  | lnkPeerReplayTimer
  | lnkCreditVc2
  | lnkCreditVc1
  | lnkCreditVc0
  | lnkErrCountsBlockErrors
  | lnkErrCountsCrcErrors
  | lnkErrCountsResends
  | lnkErrCountsLaneDrops
  | lnkEventsDowns
  | lnkEventsAbsent
  | lnkEventsWithdrawals
  | lnkEventsRetires
  | lnkTxSeqBase
  | lnkTxSeqNext
  | lnkTxSeqUnacked
  | lnkRxSeqBase
  | lnkRxSeqExpected
  | lnkRxSeqDuplicates
  | lnkLaneState
  | lnkLaneAdapt
  | lnkLaneErrors
  | lnkLaneRetrainFails
  | lnkLaneIdleRun
  | lsuStatusPresentB
  | lsuStatusBoltedB
  | lsuStatusCoverOkB
  | lsuStatusRefusedB
  | lsuStatusNoTwinB
  | lsuStatusStateB
  | lsuStatusPresent
  | lsuStatusBolted
  | lsuStatusCoverOk
  | lsuStatusRefused
  | lsuStatusNoTwin
  | lsuStatusState
  | lsuCtrlUnit
  | lsuCtrlCmd
  | lsuFadeCountsWatch
  | lsuFadeCountsPrepare
  | lsuFadeCountsSwap
  | lsuFadeCountsSudden
  | lsuLaserRole
  | lsuLaserStage
  | lsuLaserLit
  | lsuLaserBanks
  | lsuLaserOutput
  | lsuLaserBias
  | lsuLaserRate
  | memStatusUe
  | memStatusCe
  | memStatusScrubLate
  | memStatusBand
  | memStatusRefreshMult
  | memStatusState
  | memEccAddrChannel
  | memEccAddrBank
  | memEccAddrRow
  | memEccAddrBurst
  | memEccAddrSymbols
  | memCeCountCount
  | memActCountActivates
  | memRegionValid
  | memRegionAttr
  | memRegionMode
  | memRegionForme
  | memRegionFirstBand
  | memRegionBandsM1
  /-- the edition in hand was already abandoned once (R235); indexed by 0, forme -/
  | hFormeAbandoned
  /-- stamp of the cause that abandoned the edition (R232); indexed by 0, forme -/
  | hFormeAbTick
  /-- a HOLD waits for the edition boundary (R231); indexed by 0, forme -/
  | hFormeHoldPend
  /-- a PARK waits for the step boundary (R231); indexed by 0, forme -/
  | hFormeParkPend
  /-- the forme parked from an abandonment and resumes by a replay (R240); indexed by 0, forme -/
  | hFormeParkReplay
  /-- stamp plus one of the HOLD that waits (R232); indexed by 0, forme -/
  | hFormeHoldTick
  /-- stamp plus one of the START that waits (R232); indexed by 0, forme -/
  | hFormeStartTick
  /-- stamp plus one of the RESUME that waits (R232); indexed by 0, forme -/
  | hFormeResumeTick
  /-- number of the table of unspecified values that stand for the jobs of other modules in the step (R297); indexed by 0, forme -/
  | hFormeJobTable
  /-- stamp plus one of the PARK that waits (R232); indexed by 0, forme -/
  | hFormeParkTick
  /-- a RESUME waits for HELD or PARKED (R231); indexed by 0, forme -/
  | hFormeResumePend
  /-- a START waits for LOADED (R231); indexed by 0, forme -/
  | hFormeStartPend
  /-- abandon cause that came in HELD, PARKED or LOADED and waits for RUNNING (R231); indexed by 0, forme -/
  | hFormeCausePend
  /-- fabric port whose link-down last raised LINK_ERROR against the forme, plus one; 0 for a die link (R384); indexed by 0, forme -/
  | hFormeErrPort
  /-- an error in the checkpoint region came in HELD, PARKED or LOADED and waits for RUNNING (R231); indexed by 0, forme -/
  | hFormeCkptPend
  /-- stamp r of the release of the step in hand (R224); indexed by 0, forme -/
  | hFormeRelTick
  /-- a step is released and not yet complete (R223); indexed by 0, forme -/
  | hFormeStepRun
  /-- sequence number of the next step to release (R204); indexed by 0, forme -/
  | hFormeNextQ
  /-- sequence number of the first step of the edition in hand (R229, R234); indexed by 0, forme -/
  | hFormeEdQ
  /-- the partner acknowledged the delta of the closing edition (R229, R378); indexed by 0, forme -/
  | hFormeMirrorDone
  /-- stores are being rewritten for a change of variant or form (R238); indexed by 0, forme -/
  | hFormeRewrite
  /-- the next step waits for STEP_RELEASE (R223); indexed by 0, forme -/
  | hFormeReady
  /-- the press reported STEP since its last release (R223); indexed by press -/
  | hPrsStepped
  /-- strips that failed a slice and are marked at the next edition boundary (R84, R436); indexed by press -/
  | hPrsFailPend
  /-- next case line to scrub (R98); indexed by press -/
  | hPrsScrubLine
  /-- Stalled ticks charged to the press in the current step (R411); indexed by press -/
  | hPrsStall
  /-- stamp of the first repair-map entry held unwritten (R441); indexed by module -/
  | hMapFirstTick
  /-- the time base is out of reset and counts (R5, R504); indexed by module -/
  | hTimeBase
  /-- machine external-interrupt pending bit (R483); indexed by 0, core -/
  | hCoreMeip
  /-- supervisor external-interrupt pending bit (R483); indexed by 0, core -/
  | hCoreSeip
  /-- machine timer-interrupt pending bit (R481); indexed by 0, core -/
  | hCoreMtip
  /-- a NOTIFY is held since its arrival (R482); indexed by chase -/
  | hGstNotifyHeld
  /-- refusals of the requester in the slice since its last grant (R150); indexed by chase, requester code -/
  | hGalRefusals
  /-- next line of the bank to scrub (R162); indexed by chase, bank -/
  | hGalScrubLine
  /-- GAL_CYCLE at which the slice observed the release of the step in hand (R145); indexed by chase, forme -/
  | hFormeRelCycle
  /-- band in force for the refresh of the channel (R161); indexed by stack, channel -/
  | hMemChanBand
  /-- bank that the channel refreshes next (R161); indexed by stack, channel -/
  | hMemRefreshBank
  /-- burst that patrol scrub reads next (R163); indexed by stack -/
  | hMemPatrol
  /-- SB_READY (R461); indexed by module -/
  | hPinReady
  /-- SB_PAIR_YIELD_N driven to its live level (R372); indexed by module -/
  | hPinYieldLive
  /-- the GRACE interval of the forme ran out (R381); indexed by 0, forme -/
  | hPairGraceOver
  /-- the members disagreed, so that the next mirrored edition is a resync (R375); indexed by 0, forme -/
  | hPairResyncDue
  /-- the pair-link port in use went down and no other was UP (R380); indexed by 0, forme -/
  | hPairPortGone
  /-- entries of dirtyShared that the pre-release batch holds (R376); indexed by 0, forme -/
  | hFormePreCount
  /-- PAIR_LEVEL last received (R375); indexed by module -/
  | hPairLevel
  /-- PAIR_IMP last received (R375); indexed by module -/
  | hPairImp
  /-- the partner's last PAIR_HELLO reported resync (R382); indexed by module -/
  | hPairPartnerResync
  /-- the partner's last PAIR_HELLO reported member (R517); indexed by module -/
  | hPairPartnerMember
  /-- a PAIR_HELLO was received since reset (R370); indexed by module -/
  | hPairHelloSeen
  /-- a PAIR_LEVEL was received since reset (R375); indexed by module -/
  | hPairLevelSeen
  /-- a PAIR_IMP was received since reset (R375); indexed by module -/
  | hPairImpSeen
  /-- the BASES and RECORD frames of the closing edition were sent (R376); indexed by 0, forme -/
  | hFormeMirrorSent
  /-- the pre-release batch of the next edition was sent (R379); indexed by 0, forme -/
  | hFormePreSent
  /-- the pre-release batch of the next edition was acknowledged (R379); indexed by 0, forme -/
  | hFormePreDone
  /-- stamp at which the wait on peers' EDITION tokens began (R360); indexed by 0, forme -/
  | hFormeWaitTick
  /-- the replay in hand sends REWIND and FETCH before its first release (R234); indexed by 0, forme -/
  | hFormeRouteBack
  /-- edition E of the swap in hand, 0 none (R393); indexed by module -/
  | hPairSwapEdition
  /-- SWAP_ACK was received (R393); indexed by module -/
  | hPairSwapAcked
  /-- stamp of SB_PAIR_LIVE falling for the takeover in hand (R387); indexed by module -/
  | hPairYieldTick
  /-- phase of the takeover in hand: 1 powering, 2 proof, 3 images, 4 ports, 5 fetch; 0 none (R387); indexed
  by module -/
  | hPairPhase
  /-- bypass messages of unknown kinds discarded (R300); indexed by link end -/
  | hLnkOther
  /-- stamp at which the darkness of a link-down ends; 0 for none (R320); indexed by port, 0 -/
  | hLnkDarkEnd
  /-- bypass messages that started in a row on a lane (R296); indexed by link end, lane -/
  | hLnkBypRun
  /-- index of the TRAIN word that a lane sends next (R288); indexed by link end, lane -/
  | hLnkTrainIdx
  /-- last 58 scrambled bits sent on a lane, the newest as bit 0 (R281); indexed by link end, lane -/
  | hLnkScramble
  /-- bits [31:0] of the latest EDITION received, plus one; 0 before any (R360); indexed by 0, port -/
  | hFabEdition
  /-- calibration mode in force (R255); indexed by engine, fibre pair -/
  | hOeCalMode
  /-- wavelength that continuous calibration takes next (R255); indexed by engine, fibre pair -/
  | hOeContNext
  /-- bit j: the selector of port bank j has chosen this laser, whether it passes light or blocks (R262,
  R273); indexed by 0, laser -/
  | hLsuSel
  /-- stamp at which the 200 ticks of HOLD of a switched selector end; 0 for another HOLD (R265); indexed by
  engine, ring -/
  | hOeHoldEnd
  /-- temperature of the engine at the lane's last calibration, as THM_DOMAIN temp (R254); indexed by
  engine, 10j + w -/
  | hOeCalTemp
  /-- a mislock recovery of the ring is in hand (R251); indexed by engine, ring -/
  | hOeRecover
  /-- LS of a fibre is retired, so that its spare is out of use until the next start-up proof (R314); indexed by engine, fibre -/
  | hOeSpareGone
  /-- band whose emphasis table the driver of a lane uses (R247, R423); indexed by link end, lane -/
  | hLnkEmph
  /-- fixed heater code of a steering ring, set at start-up proof (R245); indexed by engine, 8(2j + d) + w -/
  | hOeSteerCode
  /-- fixed heater code of a source selector, set at start-up proof (R245); indexed by engine, 10j + w -/
  | hOeSelCode
  /-- a job of the step in hand waited for its full engine (R171); indexed by 0, forme -/
  | hFormeLateStep
  /-- a proof failed the engine (R236, R430); indexed by engine -/
  | hOeFailed
  /-- the engine was lost to its forme and has had no port UP at a boundary since (R236); indexed by engine, 0 -/
  | hOeLost
  /-- stamp of completion of the step last completed (R413); indexed by 0, forme -/
  | hFormeDoneTick
  /-- stamp of the last change of operating point, plus one; 0 before any (R402); indexed by 0, forme -/
  | hFormePtTick
  /-- an idle step delays the next release (R413); indexed by 0, forme -/
  | hFormeIdle
  /-- a droop storm lowers the forme at its next step boundary (R420); indexed by 0, forme -/
  | hFormeStormPend
  /-- point to which a storm lowered the forme, plus one; 0 none (R420); indexed by 0, forme -/
  | hFormeStormPoint
  /-- stamp of that lowering (R420); indexed by 0, forme -/
  | hFormeStormTick
  /-- energy of the active samples of the step in hand (R413); indexed by 0, forme -/
  | hFormeActSum
  /-- active samples of the step in hand (R413); indexed by 0, forme -/
  | hFormeActNum
  /-- Greatest stall charge of a press in the forme's current step (R411); indexed by forme -/
  | hFormeStallMax
  /-- Stall budget of the step that the forme released last (R411); indexed by forme -/
  | hFormeStallBudget
  /-- energy below one microjoule of a queue (R416); indexed by 0, queue -/
  | hPwrEnergyRem
  /-- stamp since which estimate and measurement differ, plus one; 0 none (R407); indexed by module -/
  | hPwrDriftTick
  /-- the domain was sampled since reset (R421); indexed by 0, domain -/
  | hThmSeen
  /-- stamp of the first of the samples in a row below the band, plus one; 0 none (R422); indexed by 0,
  domain -/
  | hThmCool
  /-- halvings of the thermal duty, 0 to 4 (R425); indexed by 0, domain -/
  | hThmDuty
  /-- stretch of the island's clock: 0 none, 1 12.5 %, 2 25 %, 3 50 % (R419); indexed by 0, island -/
  | hDroopRun
  /-- failing strips whose failure was a parity error (R435, R439); indexed by press -/
  | hPrsParity
  /-- CLEAR_MAP waits for the next flash write of the map (R429); indexed by module -/
  | hMapClear
  /-- TAP instruction in force (R444); indexed by module -/
  | hTapIr
  /-- TAP segment register (R445); indexed by module -/
  | hTapSeg
  /-- a scan instruction other than IDCODE, BYPASS or SAMPLE/PRELOAD was used since stage 1 (R472); indexed
  by module -/
  | hTapUsed
  /-- a DISCARD waits for the check to stop (R219); indexed by module -/
  | hImpDiscard
  /-- step of the switch in hand: 1 waiting for formes, 3 writing; 0 none (R222); indexed by module -/
  | hImpSwitchStep
  /-- stamp at which every forme was held for the switch in hand (R366); indexed by module -/
  | hSwitchTick
  /-- main power is on or being sequenced on (R455, R460); indexed by module -/
  | hPwrUp
  /-- next rail group of power-off sequencing, plus one; 0 none (R460); indexed by module -/
  | hPwrOffStep
  /-- next rail group of power-on sequencing (R458); indexed by module -/
  | hPwrOnStep
  /-- the sensor of the island reads 70 °C or above (R452); indexed by module -/
  | hIslandHot
  /-- island sensor in 0.125 °C, two's complement (R473); indexed by module -/
  | hIslandTemp
  /-- survivor ticks (R450); indexed by module -/
  | hSurvTick
  /-- STRAP_ID as sampled at stage 1 (R454, R457); indexed by module -/
  | hStrap
  /-- stage running, 1 to 5; 0 none (R457); indexed by module -/
  | hStage
  /-- challenge of the island (R468); indexed by module -/
  | hChallenge
  /-- SB_RESET_N is low (R452, R454); indexed by module -/
  | hPinReset
  /-- SB_AUX_GOOD driven high (R454); indexed by module -/
  | hPinAuxGood
  /-- SB_THERM_TRIP_N low (R426, R454); indexed by module -/
  | hPinTrip
  /-- SB_ALERT_N low (R456); indexed by module -/
  | hPinAlert
  /-- boot core of stage 4, plus one; 0 none (R457); indexed by module -/
  | hBootCore
  /-- image slot booted: 1 A, 2 B; 0 none (R466); indexed by module -/
  | hBootSlot
  /-- units whose laser controller misses its heartbeat (R462); indexed by module -/
  | hHeartMiss
  /-- the output comparator of the laser is above 110 % (R462); indexed by 0, laser -/
  | hOverPower
  /-- generation of the repair map that the flash holds; 0 none (R438); indexed by module -/
  | hFlashGen
deriving DecidableEq, Repr

/-- Access of a register field (R10); `hid` marks a number that no register shows. -/
inductive Acc where
  | ro
  | rw
  | w1c
  | wo
  | hid
deriving DecidableEq, Repr

/-- Width in bits (0: no bound), value at reset, access. -/
structure FieldSpec where
  width : Nat
  reset : Nat
  acc : Acc
deriving DecidableEq, Repr

/-- Width, reset value and access of every field, from the chapters' register tables. -/
def Field.spec : Field → FieldSpec
  | .modIdMapVersion => ⟨16, 1, .ro⟩
  | .modIdPart => ⟨32, 842091336, .ro⟩
  | .modTickTick => ⟨64, 0, .ro⟩
  | .modGroupMaskMask => ⟨16, 0, .rw⟩
  | .modUnmappedUnmapped => ⟨1, 0, .w1c⟩
  | .modUnmappedSource => ⟨5, 0, .ro⟩
  | .modUnmappedCount => ⟨16, 0, .ro⟩
  | .modUnmappedWrite => ⟨1, 0, .ro⟩
  | .modUnmappedOffset => ⟨28, 0, .ro⟩
  | .modCapabilityKind => ⟨4, 0, .ro⟩
  | .modCapabilityDdlRev => ⟨4, 0, .ro⟩
  | .modCapabilityStepping => ⟨8, 0, .ro⟩
  | .modCapabilityLevel => ⟨32, 0, .ro⟩
  | .modImpSrcAddr => ⟨38, 0, .rw⟩
  | .modImpLenBytes => ⟨32, 0, .rw⟩
  | .modImpCtrlCmd => ⟨2, 0, .wo⟩
  | .modImpStatusError => ⟨8, 0, .ro⟩
  | .modImpStatusSection => ⟨8, 0, .ro⟩
  | .modImpStatusForme => ⟨8, 0, .ro⟩
  | .modImpStatusVariant => ⟨8, 0, .ro⟩
  | .modImpStatusCmdIgnored => ⟨1, 0, .w1c⟩
  | .modImpStatusPending => ⟨3, 0, .ro⟩
  | .modImpDetailKind => ⟨4, 0, .ro⟩
  | .modImpDetailUnit => ⟨4, 0, .ro⟩
  | .modImpDetailForm => ⟨1, 0, .ro⟩
  | .modImpDetailIndex => ⟨32, 0, .ro⟩
  | .modImpActiveRollbackVersion => ⟨64, 0, .ro⟩
  | .modFormeCtrlCmd => ⟨3, 0, .wo⟩
  | .modFormeStatusParkReason => ⟨8, 0, .ro⟩
  | .modFormeStatusCause => ⟨8, 0, .ro⟩
  | .modFormeStatusVariant => ⟨5, 0, .ro⟩
  | .modFormeStatusLate => ⟨1, 0, .w1c⟩
  | .modFormeStatusReplay => ⟨1, 0, .ro⟩
  | .modFormeStatusSwitchPending => ⟨1, 0, .ro⟩
  | .modFormeStatusState => ⟨3, 0, .ro⟩
  | .modFormeEditionEdition => ⟨64, 0, .ro⟩
  | .modFormeCommitTickTick => ⟨64, 0, .ro⟩
  | .modFormeCountsLateSteps => ⟨32, 0, .ro⟩
  | .modFormeCountsAbandons => ⟨16, 0, .ro⟩
  | .modFormeCountsVariantChanges => ⟨16, 0, .ro⟩
  | .modFormeStepQ => ⟨64, 0, .ro⟩
  | .fabIdentityWriteRefused => ⟨1, 0, .w1c⟩
  | .fabIdentityIdentity => ⟨16, 0, .rw⟩
  | .fabStatusEditionStalled => ⟨1, 0, .w1c⟩
  | .fabStatusState => ⟨3, 0, .ro⟩
  | .fabCountsRelayed => ⟨32, 0, .ro⟩
  | .fabCountsStale => ⟨16, 0, .ro⟩
  | .fabCountsQuiesceTimeouts => ⟨16, 0, .ro⟩
  | .fabEditionWaitTicks => ⟨64, 0, .ro⟩
  | .fabPortPeerEdition => ⟨16, 0, .ro⟩
  | .fabPortQuiesced => ⟨1, 0, .ro⟩
  | .fabPortFetchPending => ⟨1, 0, .ro⟩
  | .fabPortPlantFault => ⟨1, 0, .w1c⟩
  | .fabPortPlantWavelength => ⟨4, 0, .ro⟩
  | .fabPortPlantExcess => ⟨8, 0, .ro⟩
  | .fabPortRetained => ⟨32, 0, .ro⟩
  | .pairStatusLiveIn => ⟨1, 0, .ro⟩
  | .pairStatusYielded => ⟨1, 0, .ro⟩
  | .pairStatusMember => ⟨1, 0, .ro⟩
  | .pairStatusRoleRefused => ⟨1, 0, .w1c⟩
  | .pairStatusProtection => ⟨4, 0, .ro⟩
  | .pairStatusPartnerRole => ⟨4, 0, .ro⟩
  | .pairStatusYieldCause => ⟨8, 0, .ro⟩
  | .pairStatusPending => ⟨2, 0, .ro⟩
  | .pairStatusRole => ⟨4, 0, .ro⟩
  | .pairCtrlCmd => ⟨3, 0, .wo⟩
  | .pairCountsUnprotectedCommits => ⟨16, 0, .ro⟩
  | .pairCountsDeltaResends => ⟨16, 0, .ro⟩
  | .pairCountsResyncs => ⟨16, 0, .ro⟩
  | .pairCountsBadWrites => ⟨16, 0, .ro⟩
  | .pairTakeoverTicks => ⟨32, 0, .ro⟩
  | .pairTakeoverResult => ⟨2, 0, .ro⟩
  | .pairFormeSync => ⟨4, 0, .ro⟩
  | .pairFormePairPort => ⟨5, 0, .ro⟩
  | .pairFormeEdition => ⟨48, 0, .ro⟩
  | .pwrCtrlFixed => ⟨1, 0, .rw⟩
  | .pwrCtrlFixedPoint => ⟨3, 1, .rw⟩
  | .pwrCtrlBoost => ⟨1, 0, .rw⟩
  | .pwrCtrlCap => ⟨12, 2600, .rw⟩
  | .pwrStatusCapUnmet => ⟨1, 0, .ro⟩
  | .pwrStatusCapExceeded => ⟨1, 0, .w1c⟩
  | .pwrStatusEstDrift => ⟨1, 0, .w1c⟩
  | .pwrStatusInputFault => ⟨1, 0, .w1c⟩
  | .pwrStatusState => ⟨3, 0, .ro⟩
  | .pwrStatusInputDv => ⟨12, 0, .ro⟩
  | .pwrStatusInputW => ⟨12, 0, .ro⟩
  | .pwrStatusEstW => ⟨12, 0, .ro⟩
  | .pwrStatusHoldW => ⟨12, 0, .ro⟩
  | .pwrFormePoint => ⟨3, 0, .ro⟩
  | .pwrFormeFloor => ⟨1, 0, .ro⟩
  | .pwrFormeStallTicks => ⟨20, 0, .ro⟩
  | .pwrFormeIdleSteps => ⟨16, 0, .ro⟩
  | .pwrFormePointChanges => ⟨16, 0, .ro⟩
  | .pwrRailState => ⟨2, 0, .ro⟩
  | .pwrRailDroopStorm => ⟨1, 0, .w1c⟩
  | .pwrRailLimitEvents => ⟨16, 0, .ro⟩
  | .pwrRailDroopEvents => ⟨16, 0, .ro⟩
  | .pwrRailCurrent => ⟨16, 0, .ro⟩
  | .pwrEnergyEnergy => ⟨64, 0, .ro⟩
  | .pwrWeightWeight => ⟨32, 0, .ro⟩
  | .thmStatusTrip => ⟨1, 0, .ro⟩
  | .thmStatusThrottle => ⟨1, 0, .ro⟩
  | .thmStatusTripDomain => ⟨6, 0, .ro⟩
  | .thmStatusBand => ⟨3, 0, .ro⟩
  | .thmStatusTemp => ⟨12, 0, .ro⟩
  | .thmDomainBand => ⟨3, 0, .ro⟩
  | .thmDomainSensor => ⟨5, 0, .ro⟩
  | .thmDomainPeak => ⟨12, 0, .ro⟩
  | .thmDomainBandChanges => ⟨16, 0, .ro⟩
  | .thmDomainTemp => ⟨12, 0, .ro⟩
  | .prfResultState => ⟨4, 0, .ro⟩
  | .prfResultPhase => ⟨2, 0, .ro⟩
  | .prfResultKind => ⟨4, 0, .ro⟩
  | .prfResultUnit => ⟨8, 0, .ro⟩
  | .prfResultCause => ⟨4, 0, .ro⟩
  | .prfResultMapRebuilt => ⟨1, 0, .ro⟩
  | .prfResultNewEntries => ⟨16, 0, .ro⟩
  | .prfResultEntries => ⟨16, 0, .ro⟩
  | .prfCtrlPort => ⟨5, 0, .wo⟩
  | .prfCtrlCmd => ⟨4, 0, .wo⟩
  | .prfMapGeneration => ⟨32, 0, .ro⟩
  | .prfMapWriteFail => ⟨1, 0, .w1c⟩
  | .prfMapPendingDropped => ⟨1, 0, .w1c⟩
  | .prfMapPending => ⟨9, 0, .ro⟩
  | .prfMapScanRefused => ⟨1, 0, .w1c⟩
  | .prfMapUnwritten => ⟨15, 0, .ro⟩
  | .prfLoopbackBusy => ⟨1, 0, .ro⟩
  | .prfLoopbackRefused => ⟨1, 0, .w1c⟩
  | .prfLoopbackPort => ⟨5, 0, .ro⟩
  | .prfLoopbackErrors => ⟨16, 0, .ro⟩
  | .prfLoopbackPassed => ⟨10, 0, .ro⟩
  | .prfPressSlicePassed => ⟨17, 0, .ro⟩
  | .prfPressLastFail => ⟨5, 0, .ro⟩
  | .prfPressFails => ⟨16, 0, .ro⟩
  | .prfPressRounds => ⟨16, 0, .ro⟩
  | .secStatusState => ⟨4, 0, .ro⟩
  | .secStatusFailCause => ⟨4, 0, .ro⟩
  | .secStatusResetRefused => ⟨1, 0, .w1c⟩
  | .secStatusCmdRefused => ⟨1, 0, .w1c⟩
  | .secStatusOwner => ⟨1, 0, .ro⟩
  | .secStatusAlertMask => ⟨8, 0, .rw⟩
  | .secStatusAlerts => ⟨8, 0, .w1c⟩
  | .secStatusKeys => ⟨16, 0, .ro⟩
  | .secCtrlCmd => ⟨3, 0, .wo⟩
  | .secReqAddrAddr => ⟨38, 0, .rw⟩
  | .secReqStatusBusy => ⟨1, 0, .ro⟩
  | .secReqStatusResult => ⟨8, 0, .ro⟩
  | .secCounterValue => ⟨64, 0, .ro⟩
  | .secEventsShutdownFirst => ⟨4, 0, .ro⟩
  | .secEventsShutdownMask => ⟨6, 0, .ro⟩
  | .secEventsResetFirst => ⟨4, 0, .ro⟩
  | .secEventsResetMask => ⟨6, 0, .ro⟩
  | .coreStatusMismatch => ⟨1, 0, .w1c⟩
  | .coreStatusState => ⟨2, 0, .ro⟩
  | .coreCtrlSRead => ⟨1, 0, .rw⟩
  | .coreCtrlSwi => ⟨1, 0, .rw⟩
  | .coreCtrlCmd => ⟨2, 0, .wo⟩
  | .coreFaultCause => ⟨4, 0, .ro⟩
  | .coreFaultAddress => ⟨41, 0, .ro⟩
  | .coreTimecmpCompare => ⟨64, 18446744073709551615, .rw⟩
  | .coreIrqRouteEnable => ⟨1, 0, .rw⟩
  | .coreIrqRouteSupervisor => ⟨1, 0, .rw⟩
  | .coreIrqRouteRerouted => ⟨1, 0, .w1c⟩
  | .coreIrqRouteTarget => ⟨4, 0, .rw⟩
  | .coreIrqPendingLevel => ⟨14, 0, .ro⟩
  | .coreIrqEventsCommit => ⟨16, 0, .w1c⟩
  | .coreIrqEventsCoreFail => ⟨1, 0, .w1c⟩
  | .coreIrqEventsProof => ⟨1, 0, .w1c⟩
  | .coreIrqEventsLink => ⟨1, 0, .w1c⟩
  | .coreIrqEventsBand => ⟨1, 0, .w1c⟩
  | .coreIrqEventsPair => ⟨1, 0, .w1c⟩
  | .coreIrqEventsImp => ⟨1, 0, .w1c⟩
  | .mgtStatusMismatch => ⟨1, 0, .w1c⟩
  | .mgtStatusAddrConflict => ⟨1, 0, .w1c⟩
  | .mgtStatusLinkUp => ⟨1, 0, .ro⟩
  | .mgtStatusQueued => ⟨7, 0, .ro⟩
  | .mgtCountsReceived => ⟨16, 0, .ro⟩
  | .mgtCountsDropped => ⟨16, 0, .ro⟩
  | .mgtCountsAuthRefused => ⟨16, 0, .ro⟩
  | .mgtCountsBusy => ⟨16, 0, .ro⟩
  | .mgtMacMac => ⟨48, 0, .ro⟩
  | .calRecLastTick => ⟨64, 0, .ro⟩
  | .calRecRuns => ⟨32, 0, .ro⟩
  | .calRecFailures => ⟨16, 0, .ro⟩
  | .calRecResult => ⟨4, 0, .ro⟩
  | .chsCapabilityKind => ⟨4, 0, .ro⟩
  | .chsCapabilityDdlRev => ⟨4, 0, .ro⟩
  | .chsCapabilityStepping => ⟨8, 0, .ro⟩
  | .chsCapabilityLevel => ⟨32, 0, .ro⟩
  | .galCycleCycle => ⟨64, 0, .ro⟩
  | .galStatusUe => ⟨1, 0, .w1c⟩
  | .galStatusCe => ⟨1, 0, .w1c⟩
  | .galStatusLateTransfer => ⟨1, 0, .w1c⟩
  | .galStatusRetainHigh => ⟨1, 0, .ro⟩
  | .galStatusRetainLost => ⟨1, 0, .w1c⟩
  | .galEccAddrRequester => ⟨5, 0, .ro⟩
  | .galEccAddrSched => ⟨1, 0, .ro⟩
  | .galEccAddrLine => ⟨21, 0, .ro⟩
  | .galEccAddrWord => ⟨5, 0, .ro⟩
  | .galCeCountCount => ⟨32, 0, .ro⟩
  | .galPhaseMapForme => ⟨8, 255, .ro⟩
  | .galArbCountsGrants => ⟨32, 0, .ro⟩
  | .galArbCountsPromotions => ⟨32, 0, .ro⟩
  | .galRangeValid => ⟨1, 0, .ro⟩
  | .galRangeAttr => ⟨2, 0, .ro⟩
  | .galRangeForme => ⟨8, 0, .ro⟩
  | .galRangeFirstLine => ⟨21, 0, .ro⟩
  | .galRangeLinesM1 => ⟨21, 0, .ro⟩
  | .cmpStatusBusy => ⟨1, 0, .ro⟩
  | .cmpStatusIdxRange => ⟨1, 0, .w1c⟩
  | .cmpStatusSpill => ⟨1, 0, .w1c⟩
  | .cmpStatusLate => ⟨1, 0, .w1c⟩
  | .cmpStatusJob => ⟨16, 0, .ro⟩
  | .cmpNumFlagsNanIn => ⟨1, 0, .w1c⟩
  | .cmpNumFlagsNanMade => ⟨1, 0, .w1c⟩
  | .cmpNumFlagsOverflow => ⟨1, 0, .w1c⟩
  | .cmpNumFlagsSaturated => ⟨1, 0, .w1c⟩
  | .cmpNumFlagsUnderflow => ⟨1, 0, .w1c⟩
  | .cmpLookupCountLookups => ⟨64, 0, .ro⟩
  | .cmpExceptCountsNull => ⟨32, 0, .ro⟩
  | .cmpExceptCountsOutOfRange => ⟨32, 0, .ro⟩
  | .colStatusBusy => ⟨1, 0, .ro⟩
  | .colStatusDupTerm => ⟨1, 0, .w1c⟩
  | .colStatusSpill => ⟨1, 0, .w1c⟩
  | .colStatusLinkError => ⟨1, 0, .w1c⟩
  | .colStatusLate => ⟨1, 0, .w1c⟩
  | .colStatusRouteRange => ⟨1, 0, .w1c⟩
  | .colStatusBadNode => ⟨1, 0, .w1c⟩
  | .colStatusActive => ⟨4, 0, .ro⟩
  | .colStatusJob => ⟨16, 0, .ro⟩
  | .colNumFlagsNanIn => ⟨1, 0, .w1c⟩
  | .colNumFlagsNanMade => ⟨1, 0, .w1c⟩
  | .colNumFlagsA56Overflow => ⟨1, 0, .w1c⟩
  | .colNumFlagsOverflow => ⟨1, 0, .w1c⟩
  | .colNumFlagsSaturated => ⟨1, 0, .w1c⟩
  | .colNumFlagsUnderflow => ⟨1, 0, .w1c⟩
  | .colMoeCountsRerouted => ⟨16, 0, .ro⟩
  | .colMoeCountsDropped => ⟨16, 0, .ro⟩
  | .colMoeCountsOverflowed => ⟨16, 0, .ro⟩
  | .ddlStatusGroupsOk => ⟨8, 0, .ro⟩
  | .ddlStatusSparesUsed => ⟨16, 0, .ro⟩
  | .ddlStatusRev => ⟨4, 0, .ro⟩
  | .ddlStatusWidth => ⟨2, 0, .ro⟩
  | .ddlStatusMinWidth => ⟨2, 0, .ro⟩
  | .ddlStatusState => ⟨3, 0, .ro⟩
  | .ddlErrCountsBlockErrors => ⟨16, 0, .ro⟩
  | .ddlErrCountsResends => ⟨16, 0, .ro⟩
  | .ddlErrCountsRetires => ⟨16, 0, .ro⟩
  | .ddlErrCountsWidthChanges => ⟨16, 0, .ro⟩
  | .gstStatusDownSeen => ⟨1, 0, .w1c⟩
  | .gstStatusErrorSent => ⟨1, 0, .w1c⟩
  | .gstStatusRate => ⟨4, 0, .ro⟩
  | .gstStatusHalfWidth => ⟨1, 0, .ro⟩
  | .gstStatusMsgLevel => ⟨4, 0, .ro⟩
  | .gstStatusState => ⟨4, 0, .ro⟩
  | .gstCapabilityKind => ⟨4, 0, .ro⟩
  | .gstCapabilityDdlRev => ⟨4, 0, .ro⟩
  | .gstCapabilityStepping => ⟨8, 0, .ro⟩
  | .gstCapabilityLevel => ⟨32, 0, .ro⟩
  | .gstNotifyValue => ⟨64, 0, .ro⟩
  | .gstPostValue => ⟨64, 0, .wo⟩
  | .gstCountsRequests => ⟨32, 0, .ro⟩
  | .gstCountsErrors => ⟨16, 0, .ro⟩
  | .gstCountsDowns => ⟨16, 0, .ro⟩
  | .prsStatusDepth => ⟨5, 0, .ro⟩
  | .prsStatusEccUncorrected => ⟨1, 0, .w1c⟩
  | .prsStatusState => ⟨3, 0, .ro⟩
  | .prsStripMapStripFailed => ⟨17, 0, .ro⟩
  | .prsBusyCyclesBusy => ⟨64, 0, .ro⟩
  | .prsStallCountsBondWait => ⟨16, 0, .ro⟩
  | .prsStallCountsShadowWait => ⟨16, 0, .ro⟩
  | .prsStallCountsCarryWait => ⟨16, 0, .ro⟩
  | .prsStallCountsCaseConflict => ⟨16, 0, .ro⟩
  | .prsSeqStatusIllegal => ⟨1, 0, .w1c⟩
  | .prsSeqStatusIstoreUe => ⟨1, 0, .w1c⟩
  | .prsSeqStatusPc => ⟨14, 0, .ro⟩
  | .prsSeqStatusForm => ⟨1, 0, .ro⟩
  | .prsSeqStatusHold => ⟨3, 0, .ro⟩
  | .prsSeqStatusTokens => ⟨8, 0, .ro⟩
  | .prsSeqWaitsTokenWait => ⟨16, 0, .ro⟩
  | .prsSeqWaitsQueueWait => ⟨16, 0, .ro⟩
  | .prsSeqWaitsBarrierWait => ⟨16, 0, .ro⟩
  | .prsSeqWaitsFenceWait => ⟨16, 0, .ro⟩
  | .prsStepCountSteps => ⟨64, 0, .ro⟩
  | .prsIstoreEccUe => ⟨1, 0, .w1c⟩
  | .prsIstoreEccCe => ⟨1, 0, .w1c⟩
  | .prsIstoreEccCeCount => ⟨14, 0, .ro⟩
  | .prsIstoreEccHalfAddr => ⟨16, 0, .ro⟩
  | .prsCapabilityKind => ⟨4, 0, .ro⟩
  | .prsCapabilityDdlRev => ⟨4, 0, .ro⟩
  | .prsCapabilityStepping => ⟨8, 0, .ro⟩
  | .prsCapabilityLevel => ⟨32, 0, .ro⟩
  | .finNumFlagsNanIn => ⟨1, 0, .w1c⟩
  | .finNumFlagsNanMade => ⟨1, 0, .w1c⟩
  | .finNumFlagsNavBlock => ⟨1, 0, .w1c⟩
  | .finNumFlagsA56Overflow => ⟨1, 0, .w1c⟩
  | .finNumFlagsSaturated => ⟨1, 0, .w1c⟩
  | .finNumFlagsUnderflow => ⟨1, 0, .w1c⟩
  | .finNumFlagsBf16Truncated => ⟨1, 0, .w1c⟩
  | .caseEccStatusUe => ⟨1, 0, .w1c⟩
  | .caseEccStatusCe => ⟨1, 0, .w1c⟩
  | .caseEccStatusWordAddr => ⟨23, 0, .ro⟩
  | .caseCeCountCount => ⟨32, 0, .ro⟩
  | .oeStatusBand => ⟨4, 0, .ro⟩
  | .oeStatusRoute => ⟨6, 0, .ro⟩
  | .oeStatusFibresLit => ⟨4, 0, .ro⟩
  | .oeStatusSteering => ⟨1, 0, .ro⟩
  | .oeStatusShutdown => ⟨1, 0, .ro⟩
  | .oeStatusState => ⟨3, 0, .ro⟩
  | .oeCalCtrlMode => ⟨1, 0, .rw⟩
  | .oeCalCtrlDelta => ⟨8, 12, .rw⟩
  | .oeFibreStatusRetired => ⟨8, 0, .ro⟩
  | .oeFibreStatusSpareLane => ⟨4, 15, .ro⟩
  | .oeFibreStatusSpareUse => ⟨4, 0, .ro⟩
  | .oeFibreStatusLevel => ⟨2, 0, .ro⟩
  | .oeFibreStatusCalDue => ⟨10, 1023, .ro⟩
  | .oeRingSuspect => ⟨1, 0, .ro⟩
  | .oeRingState => ⟨3, 0, .ro⟩
  | .oeRingTone => ⟨5, 0, .ro⟩
  | .oeRingMislocks => ⟨4, 0, .ro⟩
  | .oeRingLockCode => ⟨12, 0, .ro⟩
  | .oeRingBias => ⟨12, 0, .ro⟩
  | .oeRingDrive => ⟨12, 0, .ro⟩
  | .oeXtalkNbr => ⟨7, 0, .ro⟩
  | .oeXtalkCoef => ⟨9, 0, .ro⟩
  | .oeMonS2 => ⟨16, 32768, .ro⟩
  | .oeMonS4 => ⟨16, 32768, .ro⟩
  | .oeMonS5 => ⟨16, 32768, .ro⟩
  | .oeMonS6 => ⟨16, 32768, .ro⟩
  | .oeSrcMonS1B => ⟨16, 32768, .ro⟩
  | .oeSrcMonS1A => ⟨16, 32768, .ro⟩
  | .oeLossFaultValid => ⟨1, 0, .w1c⟩
  | .oeLossFaultExcess => ⟨8, 0, .ro⟩
  | .oeLossFaultElement => ⟨4, 0, .ro⟩
  | .oeLossFaultBank => ⟨2, 0, .ro⟩
  | .oeLossFaultDir => ⟨1, 0, .ro⟩
  | .oeLossFaultWavelength => ⟨4, 0, .ro⟩
  | .oeRouteSteers => ⟨32, 0, .ro⟩
  | .oeRouteNext => ⟨6, 63, .ro⟩
  | .oeRouteCurrent => ⟨6, 0, .ro⟩
  | .oeCalEventsPreempted => ⟨16, 0, .ro⟩
  | .oeCalEventsThirdRuns => ⟨16, 0, .ro⟩
  | .oeCalEventsFailed => ⟨16, 0, .ro⟩
  | .oeCalEventsMislocks => ⟨16, 0, .ro⟩
  | .oeCapabilityKind => ⟨4, 0, .ro⟩
  | .oeCapabilityDdlRev => ⟨4, 0, .ro⟩
  | .oeCapabilityStepping => ⟨8, 0, .ro⟩
  | .oeCapabilityLevel => ⟨32, 0, .ro⟩
  | .lnkStatusTxMask => ⟨9, 0, .ro⟩
  | .lnkStatusRxMask => ⟨9, 0, .ro⟩
  | .lnkStatusAttempts => ⟨2, 0, .ro⟩
  | .lnkStatusClockOk => ⟨1, 0, .ro⟩
  | .lnkStatusLastDown => ⟨3, 0, .ro⟩
  | .lnkStatusState => ⟨3, 0, .ro⟩
  | .lnkCtrlCmd => ⟨2, 0, .wo⟩
  | .lnkPeerModule => ⟨16, 0, .ro⟩
  | .lnkPeerPort => ⟨5, 0, .ro⟩
  | .lnkPeerRtt => ⟨20, 0, .ro⟩
  | .lnkPeerReplayTimer => ⟨20, 0, .ro⟩
  | .lnkCreditVc2 => ⟨16, 0, .ro⟩
  | .lnkCreditVc1 => ⟨16, 0, .ro⟩
  | .lnkCreditVc0 => ⟨16, 0, .ro⟩
  | .lnkErrCountsBlockErrors => ⟨16, 0, .ro⟩
  | .lnkErrCountsCrcErrors => ⟨16, 0, .ro⟩
  | .lnkErrCountsResends => ⟨16, 0, .ro⟩
  | .lnkErrCountsLaneDrops => ⟨16, 0, .ro⟩
  | .lnkEventsDowns => ⟨16, 0, .ro⟩
  | .lnkEventsAbsent => ⟨16, 0, .ro⟩
  | .lnkEventsWithdrawals => ⟨16, 0, .ro⟩
  | .lnkEventsRetires => ⟨16, 0, .ro⟩
  | .lnkTxSeqBase => ⟨48, 0, .ro⟩
  | .lnkTxSeqNext => ⟨48, 0, .ro⟩
  | .lnkTxSeqUnacked => ⟨19, 0, .ro⟩
  | .lnkRxSeqBase => ⟨48, 0, .ro⟩
  | .lnkRxSeqExpected => ⟨48, 0, .ro⟩
  | .lnkRxSeqDuplicates => ⟨16, 0, .ro⟩
  | .lnkLaneState => ⟨3, 0, .ro⟩
  | .lnkLaneAdapt => ⟨2, 0, .ro⟩
  | .lnkLaneErrors => ⟨2, 0, .ro⟩
  | .lnkLaneRetrainFails => ⟨2, 0, .ro⟩
  | .lnkLaneIdleRun => ⟨32, 0, .ro⟩
  | .lsuStatusPresentB => ⟨1, 0, .ro⟩
  | .lsuStatusBoltedB => ⟨1, 0, .ro⟩
  | .lsuStatusCoverOkB => ⟨1, 0, .ro⟩
  | .lsuStatusRefusedB => ⟨1, 0, .w1c⟩
  | .lsuStatusNoTwinB => ⟨1, 0, .w1c⟩
  | .lsuStatusStateB => ⟨4, 0, .ro⟩
  | .lsuStatusPresent => ⟨1, 0, .ro⟩
  | .lsuStatusBolted => ⟨1, 0, .ro⟩
  | .lsuStatusCoverOk => ⟨1, 0, .ro⟩
  | .lsuStatusRefused => ⟨1, 0, .w1c⟩
  | .lsuStatusNoTwin => ⟨1, 0, .w1c⟩
  | .lsuStatusState => ⟨4, 0, .ro⟩
  | .lsuCtrlUnit => ⟨1, 0, .wo⟩
  | .lsuCtrlCmd => ⟨4, 0, .wo⟩
  | .lsuFadeCountsWatch => ⟨16, 0, .ro⟩
  | .lsuFadeCountsPrepare => ⟨16, 0, .ro⟩
  | .lsuFadeCountsSwap => ⟨16, 0, .ro⟩
  | .lsuFadeCountsSudden => ⟨16, 0, .ro⟩
  | .lsuLaserRole => ⟨1, 0, .ro⟩
  | .lsuLaserStage => ⟨3, 0, .ro⟩
  | .lsuLaserLit => ⟨3, 0, .ro⟩
  | .lsuLaserBanks => ⟨4, 0, .ro⟩
  | .lsuLaserOutput => ⟨16, 0, .ro⟩
  | .lsuLaserBias => ⟨10, 0, .ro⟩
  | .lsuLaserRate => ⟨16, 0, .ro⟩
  | .memStatusUe => ⟨1, 0, .w1c⟩
  | .memStatusCe => ⟨1, 0, .w1c⟩
  | .memStatusScrubLate => ⟨1, 0, .w1c⟩
  | .memStatusBand => ⟨4, 0, .ro⟩
  | .memStatusRefreshMult => ⟨4, 0, .ro⟩
  | .memStatusState => ⟨4, 0, .ro⟩
  | .memEccAddrChannel => ⟨6, 0, .ro⟩
  | .memEccAddrBank => ⟨4, 0, .ro⟩
  | .memEccAddrRow => ⟨15, 0, .ro⟩
  | .memEccAddrBurst => ⟨5, 0, .ro⟩
  | .memEccAddrSymbols => ⟨4, 0, .ro⟩
  | .memCeCountCount => ⟨32, 0, .ro⟩
  | .memActCountActivates => ⟨64, 0, .ro⟩
  | .memRegionValid => ⟨1, 0, .ro⟩
  | .memRegionAttr => ⟨2, 0, .ro⟩
  | .memRegionMode => ⟨1, 0, .ro⟩
  | .memRegionForme => ⟨8, 0, .ro⟩
  | .memRegionFirstBand => ⟨15, 0, .ro⟩
  | .memRegionBandsM1 => ⟨15, 0, .ro⟩
  | .hFormeAbandoned => ⟨1, 0, .hid⟩
  | .hFormeAbTick => ⟨0, 0, .hid⟩
  | .hFormeHoldPend => ⟨1, 0, .hid⟩
  | .hFormeParkPend => ⟨1, 0, .hid⟩
  | .hFormeParkReplay => ⟨1, 0, .hid⟩
  | .hFormeHoldTick => ⟨0, 0, .hid⟩
  | .hFormeStartTick => ⟨0, 0, .hid⟩
  | .hFormeResumeTick => ⟨0, 0, .hid⟩
  | .hFormeJobTable => ⟨0, 0, .hid⟩
  | .hFormeParkTick => ⟨0, 0, .hid⟩
  | .hFormeResumePend => ⟨1, 0, .hid⟩
  | .hFormeStartPend => ⟨1, 0, .hid⟩
  | .hFormeCausePend => ⟨8, 0, .hid⟩
  | .hFormeErrPort => ⟨6, 0, .hid⟩
  | .hFormeCkptPend => ⟨1, 0, .hid⟩
  | .hFormeRelTick => ⟨0, 0, .hid⟩
  | .hFormeStepRun => ⟨1, 0, .hid⟩
  | .hFormeNextQ => ⟨64, 0, .hid⟩
  | .hFormeEdQ => ⟨64, 0, .hid⟩
  | .hFormeMirrorDone => ⟨1, 0, .hid⟩
  | .hFormeRewrite => ⟨1, 0, .hid⟩
  | .hFormeReady => ⟨1, 0, .hid⟩
  | .hPrsStepped => ⟨1, 0, .hid⟩
  | .hPrsFailPend => ⟨17, 0, .hid⟩
  | .hPrsScrubLine => ⟨18, 0, .hid⟩
  | .hPrsStall => ⟨0, 0, .hid⟩
  | .hMapFirstTick => ⟨0, 0, .hid⟩
  | .hTimeBase => ⟨1, 0, .hid⟩
  | .hCoreMeip => ⟨1, 0, .hid⟩
  | .hCoreSeip => ⟨1, 0, .hid⟩
  | .hCoreMtip => ⟨1, 0, .hid⟩
  | .hGstNotifyHeld => ⟨1, 0, .hid⟩
  | .hGalRefusals => ⟨0, 0, .hid⟩
  | .hGalScrubLine => ⟨15, 0, .hid⟩
  | .hFormeRelCycle => ⟨0, 0, .hid⟩
  | .hMemChanBand => ⟨4, 0, .hid⟩
  | .hMemRefreshBank => ⟨4, 0, .hid⟩
  | .hMemPatrol => ⟨30, 0, .hid⟩
  | .hPinReady => ⟨1, 0, .hid⟩
  | .hPinYieldLive => ⟨1, 0, .hid⟩
  | .hPairGraceOver => ⟨1, 0, .hid⟩
  | .hPairResyncDue => ⟨1, 0, .hid⟩
  | .hPairPortGone => ⟨1, 0, .hid⟩
  | .hFormePreCount => ⟨0, 0, .hid⟩
  | .hPairLevel => ⟨32, 0, .hid⟩
  | .hPairImp => ⟨32, 0, .hid⟩
  | .hPairPartnerResync => ⟨1, 0, .hid⟩
  | .hPairPartnerMember => ⟨1, 0, .hid⟩
  | .hPairHelloSeen => ⟨1, 0, .hid⟩
  | .hPairLevelSeen => ⟨1, 0, .hid⟩
  | .hPairImpSeen => ⟨1, 0, .hid⟩
  | .hFormeMirrorSent => ⟨1, 0, .hid⟩
  | .hFormePreSent => ⟨1, 0, .hid⟩
  | .hFormePreDone => ⟨1, 0, .hid⟩
  | .hFormeWaitTick => ⟨0, 0, .hid⟩
  | .hFormeRouteBack => ⟨1, 0, .hid⟩
  | .hPairSwapEdition => ⟨64, 0, .hid⟩
  | .hPairSwapAcked => ⟨1, 0, .hid⟩
  | .hPairYieldTick => ⟨0, 0, .hid⟩
  | .hPairPhase => ⟨3, 0, .hid⟩
  | .hLnkOther => ⟨0, 0, .hid⟩
  | .hLnkDarkEnd => ⟨0, 0, .hid⟩
  | .hLnkBypRun => ⟨3, 0, .hid⟩
  | .hLnkTrainIdx => ⟨4, 0, .hid⟩
  | .hLnkScramble => ⟨58, 0, .hid⟩
  | .hFabEdition => ⟨0, 0, .hid⟩
  | .hOeCalMode => ⟨1, 0, .hid⟩
  | .hOeContNext => ⟨4, 0, .hid⟩
  | .hLsuSel => ⟨4, 0, .hid⟩
  | .hOeHoldEnd => ⟨0, 0, .hid⟩
  | .hOeCalTemp => ⟨12, 0, .hid⟩
  | .hOeRecover => ⟨1, 0, .hid⟩
  | .hOeSpareGone => ⟨1, 0, .hid⟩
  | .hLnkEmph => ⟨3, 0, .hid⟩
  | .hOeSteerCode => ⟨12, 0, .hid⟩
  | .hOeSelCode => ⟨12, 0, .hid⟩
  | .hFormeLateStep => ⟨1, 0, .hid⟩
  | .hOeFailed => ⟨1, 0, .hid⟩
  | .hOeLost => ⟨1, 0, .hid⟩
  | .hFormeDoneTick => ⟨0, 0, .hid⟩
  | .hFormePtTick => ⟨0, 0, .hid⟩
  | .hFormeIdle => ⟨1, 0, .hid⟩
  | .hFormeStormPend => ⟨1, 0, .hid⟩
  | .hFormeStormPoint => ⟨4, 0, .hid⟩
  | .hFormeStormTick => ⟨0, 0, .hid⟩
  | .hFormeActSum => ⟨0, 0, .hid⟩
  | .hFormeActNum => ⟨0, 0, .hid⟩
  | .hFormeStallMax => ⟨0, 0, .hid⟩
  | .hFormeStallBudget => ⟨0, 0, .hid⟩
  | .hPwrEnergyRem => ⟨0, 0, .hid⟩
  | .hPwrDriftTick => ⟨0, 0, .hid⟩
  | .hThmSeen => ⟨1, 0, .hid⟩
  | .hThmCool => ⟨0, 0, .hid⟩
  | .hThmDuty => ⟨3, 0, .hid⟩
  | .hDroopRun => ⟨2, 0, .hid⟩
  | .hPrsParity => ⟨17, 0, .hid⟩
  | .hMapClear => ⟨1, 0, .hid⟩
  | .hTapIr => ⟨8, 1, .hid⟩
  | .hTapSeg => ⟨25, 1, .hid⟩
  | .hTapUsed => ⟨1, 0, .hid⟩
  | .hImpDiscard => ⟨1, 0, .hid⟩
  | .hImpSwitchStep => ⟨2, 0, .hid⟩
  | .hSwitchTick => ⟨0, 0, .hid⟩
  | .hPwrUp => ⟨1, 0, .hid⟩
  | .hPwrOffStep => ⟨5, 0, .hid⟩
  | .hPwrOnStep => ⟨3, 0, .hid⟩
  | .hIslandHot => ⟨1, 0, .hid⟩
  | .hIslandTemp => ⟨12, 0, .hid⟩
  | .hSurvTick => ⟨64, 0, .hid⟩
  | .hStrap => ⟨6, 0, .hid⟩
  | .hStage => ⟨3, 0, .hid⟩
  | .hChallenge => ⟨64, 0, .hid⟩
  | .hPinReset => ⟨1, 0, .hid⟩
  | .hPinAuxGood => ⟨1, 0, .hid⟩
  | .hPinTrip => ⟨1, 0, .hid⟩
  | .hPinAlert => ⟨1, 0, .hid⟩
  | .hBootCore => ⟨5, 0, .hid⟩
  | .hBootSlot => ⟨2, 0, .hid⟩
  | .hHeartMiss => ⟨2, 0, .hid⟩
  | .hOverPower => ⟨1, 0, .hid⟩
  | .hFlashGen => ⟨64, 0, .hid⟩

/-- A value as the field holds it. -/
def Field.fit (f : Field) (v : Nat) : Nat := if f.spec.width = 0 then v else v % 2 ^ f.spec.width

/-- Which field, of which unit (0 where the register has one instance), at which array index. -/
structure RKey where
  f : Field
  i : Nat
  j : Nat
deriving DecidableEq, Repr

end Sys2Proof.Machine
end

