-- ==== Sys2Proof/Machine/RegTable.lean ====
section
/-!
DEFINITION. The register index: block, offset, stride, count and width of every register (R500),
and which field lies at which bit (the chapters' tables).
-/

namespace Sys2Proof.Machine

/-- The blocks that registers lie in (R500). -/
inductive Block where
  | mod | chs | prs | oe | lnk | lsu | mem
deriving DecidableEq, Repr

/-- Every register of the index (R500). -/
inductive RegName where
  /-- MOD_ID -/
  | modId
  /-- MOD_TICK -/
  | modTick
  /-- MOD_GROUP_MASK -/
  | modGroupMask
  /-- MOD_UNMAPPED -/
  | modUnmapped
  /-- MOD_CAPABILITY -/
  | modCapability
  /-- MOD_IMP_SRC -/
  | modImpSrc
  /-- MOD_IMP_LEN -/
  | modImpLen
  /-- MOD_IMP_CTRL -/
  | modImpCtrl
  /-- MOD_IMP_STATUS -/
  | modImpStatus
  /-- MOD_IMP_DETAIL -/
  | modImpDetail
  /-- MOD_IMP_ACTIVE -/
  | modImpActive
  /-- MOD_FORME_CTRL_n -/
  | modFormeCtrl
  /-- MOD_FORME_STATUS_n -/
  | modFormeStatus
  /-- MOD_FORME_EDITION_n -/
  | modFormeEdition
  /-- MOD_FORME_COMMIT_TICK_n -/
  | modFormeCommitTick
  /-- MOD_FORME_COUNTS_n -/
  | modFormeCounts
  /-- MOD_FORME_STEP_n -/
  | modFormeStep
  /-- FAB_IDENTITY -/
  | fabIdentity
  /-- FAB_STATUS -/
  | fabStatus
  /-- FAB_COUNTS -/
  | fabCounts
  /-- FAB_EDITION_WAIT -/
  | fabEditionWait
  /-- FAB_PORT_p -/
  | fabPort
  /-- PAIR_STATUS -/
  | pairStatus
  /-- PAIR_CTRL -/
  | pairCtrl
  /-- PAIR_COUNTS -/
  | pairCounts
  /-- PAIR_TAKEOVER -/
  | pairTakeover
  /-- PAIR_FORME_n -/
  | pairForme
  /-- PWR_CTRL -/
  | pwrCtrl
  /-- PWR_STATUS -/
  | pwrStatus
  /-- PWR_FORME_n -/
  | pwrForme
  /-- PWR_RAIL_n -/
  | pwrRail
  /-- PWR_ENERGY_q -/
  | pwrEnergy
  /-- PWR_WEIGHT_e -/
  | pwrWeight
  /-- THM_STATUS -/
  | thmStatus
  /-- THM_DOMAIN_d -/
  | thmDomain
  /-- PRF_RESULT -/
  | prfResult
  /-- PRF_CTRL -/
  | prfCtrl
  /-- PRF_MAP -/
  | prfMap
  /-- PRF_LOOPBACK -/
  | prfLoopback
  /-- PRF_PRESS_p -/
  | prfPress
  /-- SEC_STATUS -/
  | secStatus
  /-- SEC_CTRL -/
  | secCtrl
  /-- SEC_REQ_ADDR -/
  | secReqAddr
  /-- SEC_REQ_STATUS -/
  | secReqStatus
  /-- SEC_COUNTER_n -/
  | secCounter
  /-- SEC_EVENTS -/
  | secEvents
  /-- CORE_STATUS_n -/
  | coreStatus
  /-- CORE_CTRL_n -/
  | coreCtrl
  /-- CORE_FAULT_n -/
  | coreFault
  /-- CORE_TIMECMP_n -/
  | coreTimecmp
  /-- CORE_IRQ_ROUTE_s -/
  | coreIrqRoute
  /-- CORE_IRQ_PENDING -/
  | coreIrqPending
  /-- CORE_IRQ_EVENTS -/
  | coreIrqEvents
  /-- MGT_STATUS -/
  | mgtStatus
  /-- MGT_COUNTS -/
  | mgtCounts
  /-- MGT_MAC -/
  | mgtMac
  /-- CAL_REC_i -/
  | calRec
  /-- CHS_CAPABILITY -/
  | chsCapability
  /-- GAL_CYCLE -/
  | galCycle
  /-- GAL_STATUS -/
  | galStatus
  /-- GAL_ECC_ADDR -/
  | galEccAddr
  /-- GAL_CE_COUNT -/
  | galCeCount
  /-- GAL_PHASE_MAP -/
  | galPhaseMap
  /-- GAL_ARB_COUNTS -/
  | galArbCounts
  /-- GAL_RANGE_n -/
  | galRange
  /-- CMP_STATUS -/
  | cmpStatus
  /-- CMP_NUM_FLAGS -/
  | cmpNumFlags
  /-- CMP_LOOKUP_COUNT -/
  | cmpLookupCount
  /-- CMP_EXCEPT_COUNTS -/
  | cmpExceptCounts
  /-- COL_STATUS -/
  | colStatus
  /-- COL_NUM_FLAGS -/
  | colNumFlags
  /-- COL_MOE_COUNTS -/
  | colMoeCounts
  /-- DDL_STATUS_x -/
  | ddlStatus
  /-- DDL_ERR_COUNTS_x -/
  | ddlErrCounts
  /-- GST_STATUS -/
  | gstStatus
  /-- GST_CAPABILITY -/
  | gstCapability
  /-- GST_NOTIFY -/
  | gstNotify
  /-- GST_POST -/
  | gstPost
  /-- GST_COUNTS -/
  | gstCounts
  /-- PRS_STATUS -/
  | prsStatus
  /-- PRS_STRIP_MAP -/
  | prsStripMap
  /-- PRS_BUSY_CYCLES -/
  | prsBusyCycles
  /-- PRS_STALL_COUNTS -/
  | prsStallCounts
  /-- PRS_SEQ_STATUS -/
  | prsSeqStatus
  /-- PRS_SEQ_WAITS -/
  | prsSeqWaits
  /-- PRS_STEP_COUNT -/
  | prsStepCount
  /-- PRS_ISTORE_ECC -/
  | prsIstoreEcc
  /-- PRS_CAPABILITY -/
  | prsCapability
  /-- FIN_NUM_FLAGS -/
  | finNumFlags
  /-- CASE_ECC_STATUS -/
  | caseEccStatus
  /-- CASE_CE_COUNT -/
  | caseCeCount
  /-- PRS_ISTORE -/
  | prsIstore
  /-- OE_STATUS -/
  | oeStatus
  /-- OE_CAL_CTRL -/
  | oeCalCtrl
  /-- OE_FIBRE_STATUS_f -/
  | oeFibreStatus
  /-- OE_RING_n -/
  | oeRing
  /-- OE_XTALK_n -/
  | oeXtalk
  /-- OE_MON_n -/
  | oeMon
  /-- OE_SRC_MON_w -/
  | oeSrcMon
  /-- OE_LOSS_FAULT -/
  | oeLossFault
  /-- OE_ROUTE -/
  | oeRoute
  /-- OE_CAL_EVENTS -/
  | oeCalEvents
  /-- OE_CAPABILITY -/
  | oeCapability
  /-- LNK_STATUS -/
  | lnkStatus
  /-- LNK_CTRL -/
  | lnkCtrl
  /-- LNK_PEER -/
  | lnkPeer
  /-- LNK_CREDIT -/
  | lnkCredit
  /-- LNK_ERR_COUNTS -/
  | lnkErrCounts
  /-- LNK_EVENTS -/
  | lnkEvents
  /-- LNK_TX_SEQ_v -/
  | lnkTxSeq
  /-- LNK_RX_SEQ_v -/
  | lnkRxSeq
  /-- LNK_LANE_i -/
  | lnkLane
  /-- LSU_STATUS -/
  | lsuStatus
  /-- LSU_CTRL -/
  | lsuCtrl
  /-- LSU_FADE_COUNTS -/
  | lsuFadeCounts
  /-- LSU_LASER_n -/
  | lsuLaser
  /-- MEM_STATUS -/
  | memStatus
  /-- MEM_ECC_ADDR -/
  | memEccAddr
  /-- MEM_CE_COUNT -/
  | memCeCount
  /-- MEM_ACT_COUNT -/
  | memActCount
  /-- MEM_REGION_n -/
  | memRegion
deriving DecidableEq, Repr

/-- A field's place in a register: element j of the register holds element mul * j + sub of the
field at bit lo. -/
structure Slot where
  field : Field
  mul : Nat
  sub : Nat
  lo : Nat
deriving DecidableEq, Repr

/-- Place of a register. `stride` is 0 where count is 1. -/
structure RegInfo where
  block : Block
  off : Nat
  stride : Nat
  count : Nat
  width : Nat
  slots : List Slot
deriving DecidableEq, Repr

/-- The register index. -/
def RegName.info : RegName → RegInfo
  | .modId => ⟨.mod, 0, 0, 1, 64,
      [⟨.modIdMapVersion, 1, 0, 32⟩, ⟨.modIdPart, 1, 0, 0⟩]⟩
  | .modTick => ⟨.mod, 8, 0, 1, 64,
      [⟨.modTickTick, 1, 0, 0⟩]⟩
  | .modGroupMask => ⟨.mod, 16, 0, 1, 32,
      [⟨.modGroupMaskMask, 1, 0, 0⟩]⟩
  | .modUnmapped => ⟨.mod, 24, 0, 1, 64,
      [⟨.modUnmappedUnmapped, 1, 0, 63⟩, ⟨.modUnmappedSource, 1, 0, 56⟩, ⟨.modUnmappedCount, 1, 0, 40⟩, ⟨.modUnmappedWrite, 1, 0, 28⟩, ⟨.modUnmappedOffset, 1, 0, 0⟩]⟩
  | .modCapability => ⟨.mod, 512, 0, 1, 64,
      [⟨.modCapabilityKind, 1, 0, 60⟩, ⟨.modCapabilityDdlRev, 1, 0, 56⟩, ⟨.modCapabilityStepping, 1, 0, 48⟩, ⟨.modCapabilityLevel, 1, 0, 0⟩]⟩
  | .modImpSrc => ⟨.mod, 4096, 0, 1, 64,
      [⟨.modImpSrcAddr, 1, 0, 0⟩]⟩
  | .modImpLen => ⟨.mod, 4104, 0, 1, 32,
      [⟨.modImpLenBytes, 1, 0, 0⟩]⟩
  | .modImpCtrl => ⟨.mod, 4112, 0, 1, 32,
      [⟨.modImpCtrlCmd, 1, 0, 0⟩]⟩
  | .modImpStatus => ⟨.mod, 4120, 0, 1, 64,
      [⟨.modImpStatusError, 1, 0, 56⟩, ⟨.modImpStatusSection, 1, 0, 48⟩, ⟨.modImpStatusForme, 1, 0, 40⟩, ⟨.modImpStatusVariant, 1, 0, 32⟩, ⟨.modImpStatusCmdIgnored, 1, 0, 8⟩, ⟨.modImpStatusPending, 1, 0, 0⟩]⟩
  | .modImpDetail => ⟨.mod, 4128, 0, 1, 64,
      [⟨.modImpDetailKind, 1, 0, 60⟩, ⟨.modImpDetailUnit, 1, 0, 56⟩, ⟨.modImpDetailForm, 1, 0, 55⟩, ⟨.modImpDetailIndex, 1, 0, 0⟩]⟩
  | .modImpActive => ⟨.mod, 4136, 0, 1, 64,
      [⟨.modImpActiveRollbackVersion, 1, 0, 0⟩]⟩
  | .modFormeCtrl => ⟨.mod, 4352, 64, 16, 32,
      [⟨.modFormeCtrlCmd, 1, 0, 0⟩]⟩
  | .modFormeStatus => ⟨.mod, 4360, 64, 16, 64,
      [⟨.modFormeStatusParkReason, 1, 0, 56⟩, ⟨.modFormeStatusCause, 1, 0, 48⟩, ⟨.modFormeStatusVariant, 1, 0, 38⟩, ⟨.modFormeStatusLate, 1, 0, 31⟩, ⟨.modFormeStatusReplay, 1, 0, 30⟩, ⟨.modFormeStatusSwitchPending, 1, 0, 29⟩, ⟨.modFormeStatusState, 1, 0, 0⟩]⟩
  | .modFormeEdition => ⟨.mod, 4368, 64, 16, 64,
      [⟨.modFormeEditionEdition, 1, 0, 0⟩]⟩
  | .modFormeCommitTick => ⟨.mod, 4376, 64, 16, 64,
      [⟨.modFormeCommitTickTick, 1, 0, 0⟩]⟩
  | .modFormeCounts => ⟨.mod, 4384, 64, 16, 64,
      [⟨.modFormeCountsLateSteps, 1, 0, 32⟩, ⟨.modFormeCountsAbandons, 1, 0, 16⟩, ⟨.modFormeCountsVariantChanges, 1, 0, 0⟩]⟩
  | .modFormeStep => ⟨.mod, 4392, 64, 16, 64,
      [⟨.modFormeStepQ, 1, 0, 0⟩]⟩
  | .fabIdentity => ⟨.mod, 8192, 0, 1, 32,
      [⟨.fabIdentityWriteRefused, 1, 0, 31⟩, ⟨.fabIdentityIdentity, 1, 0, 0⟩]⟩
  | .fabStatus => ⟨.mod, 8200, 0, 1, 32,
      [⟨.fabStatusEditionStalled, 1, 0, 31⟩, ⟨.fabStatusState, 1, 0, 0⟩]⟩
  | .fabCounts => ⟨.mod, 8208, 0, 1, 64,
      [⟨.fabCountsRelayed, 1, 0, 32⟩, ⟨.fabCountsStale, 1, 0, 16⟩, ⟨.fabCountsQuiesceTimeouts, 1, 0, 0⟩]⟩
  | .fabEditionWait => ⟨.mod, 8216, 0, 1, 64,
      [⟨.fabEditionWaitTicks, 1, 0, 0⟩]⟩
  | .fabPort => ⟨.mod, 8448, 8, 32, 64,
      [⟨.fabPortPeerEdition, 1, 0, 48⟩, ⟨.fabPortQuiesced, 1, 0, 47⟩, ⟨.fabPortFetchPending, 1, 0, 46⟩, ⟨.fabPortPlantFault, 1, 0, 45⟩, ⟨.fabPortPlantWavelength, 1, 0, 41⟩, ⟨.fabPortPlantExcess, 1, 0, 33⟩, ⟨.fabPortRetained, 1, 0, 0⟩]⟩
  | .pairStatus => ⟨.mod, 12288, 0, 1, 32,
      [⟨.pairStatusLiveIn, 1, 0, 31⟩, ⟨.pairStatusYielded, 1, 0, 30⟩, ⟨.pairStatusMember, 1, 0, 29⟩, ⟨.pairStatusRoleRefused, 1, 0, 28⟩, ⟨.pairStatusProtection, 1, 0, 20⟩, ⟨.pairStatusPartnerRole, 1, 0, 16⟩, ⟨.pairStatusYieldCause, 1, 0, 8⟩, ⟨.pairStatusPending, 1, 0, 4⟩, ⟨.pairStatusRole, 1, 0, 0⟩]⟩
  | .pairCtrl => ⟨.mod, 12296, 0, 1, 32,
      [⟨.pairCtrlCmd, 1, 0, 0⟩]⟩
  | .pairCounts => ⟨.mod, 12304, 0, 1, 64,
      [⟨.pairCountsUnprotectedCommits, 1, 0, 48⟩, ⟨.pairCountsDeltaResends, 1, 0, 32⟩, ⟨.pairCountsResyncs, 1, 0, 16⟩, ⟨.pairCountsBadWrites, 1, 0, 0⟩]⟩
  | .pairTakeover => ⟨.mod, 12312, 0, 1, 64,
      [⟨.pairTakeoverTicks, 1, 0, 32⟩, ⟨.pairTakeoverResult, 1, 0, 0⟩]⟩
  | .pairForme => ⟨.mod, 12544, 8, 16, 64,
      [⟨.pairFormeSync, 1, 0, 60⟩, ⟨.pairFormePairPort, 1, 0, 55⟩, ⟨.pairFormeEdition, 1, 0, 0⟩]⟩
  | .pwrCtrl => ⟨.mod, 16384, 0, 1, 32,
      [⟨.pwrCtrlFixed, 1, 0, 31⟩, ⟨.pwrCtrlFixedPoint, 1, 0, 28⟩, ⟨.pwrCtrlBoost, 1, 0, 27⟩, ⟨.pwrCtrlCap, 1, 0, 0⟩]⟩
  | .pwrStatus => ⟨.mod, 16392, 0, 1, 64,
      [⟨.pwrStatusCapUnmet, 1, 0, 63⟩, ⟨.pwrStatusCapExceeded, 1, 0, 62⟩, ⟨.pwrStatusEstDrift, 1, 0, 61⟩, ⟨.pwrStatusInputFault, 1, 0, 60⟩, ⟨.pwrStatusState, 1, 0, 56⟩, ⟨.pwrStatusInputDv, 1, 0, 44⟩, ⟨.pwrStatusInputW, 1, 0, 32⟩, ⟨.pwrStatusEstW, 1, 0, 20⟩, ⟨.pwrStatusHoldW, 1, 0, 0⟩]⟩
  | .pwrForme => ⟨.mod, 16640, 8, 16, 64,
      [⟨.pwrFormePoint, 1, 0, 61⟩, ⟨.pwrFormeFloor, 1, 0, 60⟩, ⟨.pwrFormeStallTicks, 1, 0, 40⟩, ⟨.pwrFormeIdleSteps, 1, 0, 16⟩, ⟨.pwrFormePointChanges, 1, 0, 0⟩]⟩
  | .pwrRail => ⟨.mod, 16896, 8, 26, 64,
      [⟨.pwrRailState, 1, 0, 62⟩, ⟨.pwrRailDroopStorm, 1, 0, 61⟩, ⟨.pwrRailLimitEvents, 1, 0, 32⟩, ⟨.pwrRailDroopEvents, 1, 0, 16⟩, ⟨.pwrRailCurrent, 1, 0, 0⟩]⟩
  | .pwrEnergy => ⟨.mod, 17408, 8, 22, 64,
      [⟨.pwrEnergyEnergy, 1, 0, 0⟩]⟩
  | .pwrWeight => ⟨.mod, 17920, 4, 24, 32,
      [⟨.pwrWeightWeight, 1, 0, 0⟩]⟩
  | .thmStatus => ⟨.mod, 20480, 0, 1, 32,
      [⟨.thmStatusTrip, 1, 0, 31⟩, ⟨.thmStatusThrottle, 1, 0, 30⟩, ⟨.thmStatusTripDomain, 1, 0, 24⟩, ⟨.thmStatusBand, 1, 0, 16⟩, ⟨.thmStatusTemp, 1, 0, 0⟩]⟩
  | .thmDomain => ⟨.mod, 20736, 8, 42, 64,
      [⟨.thmDomainBand, 1, 0, 61⟩, ⟨.thmDomainSensor, 1, 0, 56⟩, ⟨.thmDomainPeak, 1, 0, 32⟩, ⟨.thmDomainBandChanges, 1, 0, 16⟩, ⟨.thmDomainTemp, 1, 0, 0⟩]⟩
  | .prfResult => ⟨.mod, 24576, 0, 1, 64,
      [⟨.prfResultState, 1, 0, 60⟩, ⟨.prfResultPhase, 1, 0, 58⟩, ⟨.prfResultKind, 1, 0, 54⟩, ⟨.prfResultUnit, 1, 0, 46⟩, ⟨.prfResultCause, 1, 0, 42⟩, ⟨.prfResultMapRebuilt, 1, 0, 41⟩, ⟨.prfResultNewEntries, 1, 0, 16⟩, ⟨.prfResultEntries, 1, 0, 0⟩]⟩
  | .prfCtrl => ⟨.mod, 24584, 0, 1, 32,
      [⟨.prfCtrlPort, 1, 0, 8⟩, ⟨.prfCtrlCmd, 1, 0, 0⟩]⟩
  | .prfMap => ⟨.mod, 24592, 0, 1, 64,
      [⟨.prfMapGeneration, 1, 0, 32⟩, ⟨.prfMapWriteFail, 1, 0, 31⟩, ⟨.prfMapPendingDropped, 1, 0, 30⟩, ⟨.prfMapPending, 1, 0, 16⟩, ⟨.prfMapScanRefused, 1, 0, 15⟩, ⟨.prfMapUnwritten, 1, 0, 0⟩]⟩
  | .prfLoopback => ⟨.mod, 24600, 0, 1, 64,
      [⟨.prfLoopbackBusy, 1, 0, 63⟩, ⟨.prfLoopbackRefused, 1, 0, 62⟩, ⟨.prfLoopbackPort, 1, 0, 57⟩, ⟨.prfLoopbackErrors, 1, 0, 32⟩, ⟨.prfLoopbackPassed, 1, 0, 0⟩]⟩
  | .prfPress => ⟨.mod, 24832, 8, 12, 64,
      [⟨.prfPressSlicePassed, 1, 0, 47⟩, ⟨.prfPressLastFail, 1, 0, 42⟩, ⟨.prfPressFails, 1, 0, 16⟩, ⟨.prfPressRounds, 1, 0, 0⟩]⟩
  | .secStatus => ⟨.mod, 28672, 0, 1, 64,
      [⟨.secStatusState, 1, 0, 60⟩, ⟨.secStatusFailCause, 1, 0, 56⟩, ⟨.secStatusResetRefused, 1, 0, 50⟩, ⟨.secStatusCmdRefused, 1, 0, 49⟩, ⟨.secStatusOwner, 1, 0, 48⟩, ⟨.secStatusAlertMask, 1, 0, 40⟩, ⟨.secStatusAlerts, 1, 0, 24⟩, ⟨.secStatusKeys, 1, 0, 0⟩]⟩
  | .secCtrl => ⟨.mod, 28680, 0, 1, 32,
      [⟨.secCtrlCmd, 1, 0, 0⟩]⟩
  | .secReqAddr => ⟨.mod, 28688, 0, 1, 64,
      [⟨.secReqAddrAddr, 1, 0, 0⟩]⟩
  | .secReqStatus => ⟨.mod, 28696, 0, 1, 32,
      [⟨.secReqStatusBusy, 1, 0, 31⟩, ⟨.secReqStatusResult, 1, 0, 0⟩]⟩
  | .secCounter => ⟨.mod, 28704, 8, 4, 64,
      [⟨.secCounterValue, 1, 0, 0⟩]⟩
  | .secEvents => ⟨.mod, 28736, 0, 1, 64,
      [⟨.secEventsShutdownFirst, 1, 0, 52⟩, ⟨.secEventsShutdownMask, 1, 0, 40⟩, ⟨.secEventsResetFirst, 1, 0, 16⟩, ⟨.secEventsResetMask, 1, 0, 0⟩]⟩
  | .coreStatus => ⟨.mod, 32768, 64, 16, 32,
      [⟨.coreStatusMismatch, 1, 0, 31⟩, ⟨.coreStatusState, 1, 0, 0⟩]⟩
  | .coreCtrl => ⟨.mod, 32776, 64, 16, 32,
      [⟨.coreCtrlSRead, 1, 0, 3⟩, ⟨.coreCtrlSwi, 1, 0, 2⟩, ⟨.coreCtrlCmd, 1, 0, 0⟩]⟩
  | .coreFault => ⟨.mod, 32784, 64, 16, 64,
      [⟨.coreFaultCause, 1, 0, 60⟩, ⟨.coreFaultAddress, 1, 0, 0⟩]⟩
  | .coreTimecmp => ⟨.mod, 32792, 64, 16, 64,
      [⟨.coreTimecmpCompare, 1, 0, 0⟩]⟩
  | .coreIrqRoute => ⟨.mod, 33792, 8, 14, 32,
      [⟨.coreIrqRouteEnable, 1, 0, 31⟩, ⟨.coreIrqRouteSupervisor, 1, 0, 30⟩, ⟨.coreIrqRouteRerouted, 1, 0, 29⟩, ⟨.coreIrqRouteTarget, 1, 0, 0⟩]⟩
  | .coreIrqPending => ⟨.mod, 34048, 0, 1, 32,
      [⟨.coreIrqPendingLevel, 1, 0, 0⟩]⟩
  | .coreIrqEvents => ⟨.mod, 34056, 0, 1, 32,
      [⟨.coreIrqEventsCommit, 1, 0, 16⟩, ⟨.coreIrqEventsCoreFail, 1, 0, 6⟩, ⟨.coreIrqEventsProof, 1, 0, 5⟩, ⟨.coreIrqEventsLink, 1, 0, 4⟩, ⟨.coreIrqEventsBand, 1, 0, 3⟩, ⟨.coreIrqEventsPair, 1, 0, 2⟩, ⟨.coreIrqEventsImp, 1, 0, 1⟩]⟩
  | .mgtStatus => ⟨.mod, 34816, 0, 1, 32,
      [⟨.mgtStatusMismatch, 1, 0, 31⟩, ⟨.mgtStatusAddrConflict, 1, 0, 30⟩, ⟨.mgtStatusLinkUp, 1, 0, 29⟩, ⟨.mgtStatusQueued, 1, 0, 0⟩]⟩
  | .mgtCounts => ⟨.mod, 34824, 0, 1, 64,
      [⟨.mgtCountsReceived, 1, 0, 48⟩, ⟨.mgtCountsDropped, 1, 0, 32⟩, ⟨.mgtCountsAuthRefused, 1, 0, 16⟩, ⟨.mgtCountsBusy, 1, 0, 0⟩]⟩
  | .mgtMac => ⟨.mod, 34832, 0, 1, 64,
      [⟨.mgtMacMac, 1, 0, 0⟩]⟩
  | .calRec => ⟨.mod, 65536, 16, 704, 128,
      [⟨.calRecLastTick, 1, 0, 64⟩, ⟨.calRecRuns, 1, 0, 32⟩, ⟨.calRecFailures, 1, 0, 16⟩, ⟨.calRecResult, 1, 0, 12⟩]⟩
  | .chsCapability => ⟨.chs, 0, 0, 1, 64,
      [⟨.chsCapabilityKind, 1, 0, 60⟩, ⟨.chsCapabilityDdlRev, 1, 0, 56⟩, ⟨.chsCapabilityStepping, 1, 0, 48⟩, ⟨.chsCapabilityLevel, 1, 0, 0⟩]⟩
  | .galCycle => ⟨.chs, 8192, 0, 1, 64,
      [⟨.galCycleCycle, 1, 0, 0⟩]⟩
  | .galStatus => ⟨.chs, 8200, 0, 1, 32,
      [⟨.galStatusUe, 1, 0, 31⟩, ⟨.galStatusCe, 1, 0, 30⟩, ⟨.galStatusLateTransfer, 1, 0, 29⟩, ⟨.galStatusRetainHigh, 1, 0, 28⟩, ⟨.galStatusRetainLost, 1, 0, 27⟩]⟩
  | .galEccAddr => ⟨.chs, 8208, 0, 1, 64,
      [⟨.galEccAddrRequester, 1, 0, 51⟩, ⟨.galEccAddrSched, 1, 0, 50⟩, ⟨.galEccAddrLine, 1, 0, 29⟩, ⟨.galEccAddrWord, 1, 0, 24⟩]⟩
  | .galCeCount => ⟨.chs, 8216, 0, 1, 32,
      [⟨.galCeCountCount, 1, 0, 0⟩]⟩
  | .galPhaseMap => ⟨.chs, 8224, 0, 1, 64,
      [⟨.galPhaseMapForme, 8, 0, 0⟩, ⟨.galPhaseMapForme, 8, 1, 8⟩, ⟨.galPhaseMapForme, 8, 2, 16⟩, ⟨.galPhaseMapForme, 8, 3, 24⟩, ⟨.galPhaseMapForme, 8, 4, 32⟩, ⟨.galPhaseMapForme, 8, 5, 40⟩, ⟨.galPhaseMapForme, 8, 6, 48⟩, ⟨.galPhaseMapForme, 8, 7, 56⟩]⟩
  | .galArbCounts => ⟨.chs, 8232, 0, 1, 64,
      [⟨.galArbCountsGrants, 1, 0, 32⟩, ⟨.galArbCountsPromotions, 1, 0, 0⟩]⟩
  | .galRange => ⟨.chs, 8448, 8, 32, 64,
      [⟨.galRangeValid, 1, 0, 63⟩, ⟨.galRangeAttr, 1, 0, 61⟩, ⟨.galRangeForme, 1, 0, 52⟩, ⟨.galRangeFirstLine, 1, 0, 21⟩, ⟨.galRangeLinesM1, 1, 0, 0⟩]⟩
  | .cmpStatus => ⟨.chs, 12288, 0, 1, 32,
      [⟨.cmpStatusBusy, 1, 0, 31⟩, ⟨.cmpStatusIdxRange, 1, 0, 30⟩, ⟨.cmpStatusSpill, 1, 0, 29⟩, ⟨.cmpStatusLate, 1, 0, 28⟩, ⟨.cmpStatusJob, 1, 0, 0⟩]⟩
  | .cmpNumFlags => ⟨.chs, 12296, 0, 1, 32,
      [⟨.cmpNumFlagsNanIn, 1, 0, 4⟩, ⟨.cmpNumFlagsNanMade, 1, 0, 3⟩, ⟨.cmpNumFlagsOverflow, 1, 0, 2⟩, ⟨.cmpNumFlagsSaturated, 1, 0, 1⟩, ⟨.cmpNumFlagsUnderflow, 1, 0, 0⟩]⟩
  | .cmpLookupCount => ⟨.chs, 12304, 0, 1, 64,
      [⟨.cmpLookupCountLookups, 1, 0, 0⟩]⟩
  | .cmpExceptCounts => ⟨.chs, 12312, 0, 1, 64,
      [⟨.cmpExceptCountsNull, 1, 0, 32⟩, ⟨.cmpExceptCountsOutOfRange, 1, 0, 0⟩]⟩
  | .colStatus => ⟨.chs, 13312, 0, 1, 32,
      [⟨.colStatusBusy, 1, 0, 31⟩, ⟨.colStatusDupTerm, 1, 0, 30⟩, ⟨.colStatusSpill, 1, 0, 29⟩, ⟨.colStatusLinkError, 1, 0, 28⟩, ⟨.colStatusLate, 1, 0, 27⟩, ⟨.colStatusRouteRange, 1, 0, 26⟩, ⟨.colStatusBadNode, 1, 0, 25⟩, ⟨.colStatusActive, 1, 0, 16⟩, ⟨.colStatusJob, 1, 0, 0⟩]⟩
  | .colNumFlags => ⟨.chs, 13320, 0, 1, 32,
      [⟨.colNumFlagsNanIn, 1, 0, 5⟩, ⟨.colNumFlagsNanMade, 1, 0, 4⟩, ⟨.colNumFlagsA56Overflow, 1, 0, 3⟩, ⟨.colNumFlagsOverflow, 1, 0, 2⟩, ⟨.colNumFlagsSaturated, 1, 0, 1⟩, ⟨.colNumFlagsUnderflow, 1, 0, 0⟩]⟩
  | .colMoeCounts => ⟨.chs, 13328, 0, 1, 64,
      [⟨.colMoeCountsRerouted, 1, 0, 32⟩, ⟨.colMoeCountsDropped, 1, 0, 16⟩, ⟨.colMoeCountsOverflowed, 1, 0, 0⟩]⟩
  | .ddlStatus => ⟨.chs, 20480, 64, 4, 64,
      [⟨.ddlStatusGroupsOk, 1, 0, 56⟩, ⟨.ddlStatusSparesUsed, 1, 0, 40⟩, ⟨.ddlStatusRev, 1, 0, 36⟩, ⟨.ddlStatusWidth, 1, 0, 34⟩, ⟨.ddlStatusMinWidth, 1, 0, 32⟩, ⟨.ddlStatusState, 1, 0, 0⟩]⟩
  | .ddlErrCounts => ⟨.chs, 20488, 64, 4, 64,
      [⟨.ddlErrCountsBlockErrors, 1, 0, 48⟩, ⟨.ddlErrCountsResends, 1, 0, 32⟩, ⟨.ddlErrCountsRetires, 1, 0, 16⟩, ⟨.ddlErrCountsWidthChanges, 1, 0, 0⟩]⟩
  | .gstStatus => ⟨.chs, 24576, 0, 1, 32,
      [⟨.gstStatusDownSeen, 1, 0, 31⟩, ⟨.gstStatusErrorSent, 1, 0, 30⟩, ⟨.gstStatusRate, 1, 0, 20⟩, ⟨.gstStatusHalfWidth, 1, 0, 19⟩, ⟨.gstStatusMsgLevel, 1, 0, 4⟩, ⟨.gstStatusState, 1, 0, 0⟩]⟩
  | .gstCapability => ⟨.chs, 24584, 0, 1, 64,
      [⟨.gstCapabilityKind, 1, 0, 60⟩, ⟨.gstCapabilityDdlRev, 1, 0, 56⟩, ⟨.gstCapabilityStepping, 1, 0, 48⟩, ⟨.gstCapabilityLevel, 1, 0, 0⟩]⟩
  | .gstNotify => ⟨.chs, 24592, 0, 1, 64,
      [⟨.gstNotifyValue, 1, 0, 0⟩]⟩
  | .gstPost => ⟨.chs, 24600, 0, 1, 64,
      [⟨.gstPostValue, 1, 0, 0⟩]⟩
  | .gstCounts => ⟨.chs, 24608, 0, 1, 64,
      [⟨.gstCountsRequests, 1, 0, 32⟩, ⟨.gstCountsErrors, 1, 0, 16⟩, ⟨.gstCountsDowns, 1, 0, 0⟩]⟩
  | .prsStatus => ⟨.prs, 0, 0, 1, 32,
      [⟨.prsStatusDepth, 1, 0, 16⟩, ⟨.prsStatusEccUncorrected, 1, 0, 3⟩, ⟨.prsStatusState, 1, 0, 0⟩]⟩
  | .prsStripMap => ⟨.prs, 8, 0, 1, 32,
      [⟨.prsStripMapStripFailed, 1, 0, 0⟩]⟩
  | .prsBusyCycles => ⟨.prs, 16, 0, 1, 64,
      [⟨.prsBusyCyclesBusy, 1, 0, 0⟩]⟩
  | .prsStallCounts => ⟨.prs, 24, 0, 1, 64,
      [⟨.prsStallCountsBondWait, 1, 0, 48⟩, ⟨.prsStallCountsShadowWait, 1, 0, 32⟩, ⟨.prsStallCountsCarryWait, 1, 0, 16⟩, ⟨.prsStallCountsCaseConflict, 1, 0, 0⟩]⟩
  | .prsSeqStatus => ⟨.prs, 32, 0, 1, 32,
      [⟨.prsSeqStatusIllegal, 1, 0, 31⟩, ⟨.prsSeqStatusIstoreUe, 1, 0, 30⟩, ⟨.prsSeqStatusPc, 1, 0, 16⟩, ⟨.prsSeqStatusForm, 1, 0, 15⟩, ⟨.prsSeqStatusHold, 1, 0, 8⟩, ⟨.prsSeqStatusTokens, 1, 0, 0⟩]⟩
  | .prsSeqWaits => ⟨.prs, 40, 0, 1, 64,
      [⟨.prsSeqWaitsTokenWait, 1, 0, 48⟩, ⟨.prsSeqWaitsQueueWait, 1, 0, 32⟩, ⟨.prsSeqWaitsBarrierWait, 1, 0, 16⟩, ⟨.prsSeqWaitsFenceWait, 1, 0, 0⟩]⟩
  | .prsStepCount => ⟨.prs, 48, 0, 1, 64,
      [⟨.prsStepCountSteps, 1, 0, 0⟩]⟩
  | .prsIstoreEcc => ⟨.prs, 56, 0, 1, 32,
      [⟨.prsIstoreEccUe, 1, 0, 31⟩, ⟨.prsIstoreEccCe, 1, 0, 30⟩, ⟨.prsIstoreEccCeCount, 1, 0, 16⟩, ⟨.prsIstoreEccHalfAddr, 1, 0, 0⟩]⟩
  | .prsCapability => ⟨.prs, 64, 0, 1, 64,
      [⟨.prsCapabilityKind, 1, 0, 60⟩, ⟨.prsCapabilityDdlRev, 1, 0, 56⟩, ⟨.prsCapabilityStepping, 1, 0, 48⟩, ⟨.prsCapabilityLevel, 1, 0, 0⟩]⟩
  | .finNumFlags => ⟨.prs, 16640, 0, 1, 32,
      [⟨.finNumFlagsNanIn, 1, 0, 6⟩, ⟨.finNumFlagsNanMade, 1, 0, 5⟩, ⟨.finNumFlagsNavBlock, 1, 0, 4⟩, ⟨.finNumFlagsA56Overflow, 1, 0, 3⟩, ⟨.finNumFlagsSaturated, 1, 0, 2⟩, ⟨.finNumFlagsUnderflow, 1, 0, 1⟩, ⟨.finNumFlagsBf16Truncated, 1, 0, 0⟩]⟩
  | .caseEccStatus => ⟨.prs, 32768, 0, 1, 32,
      [⟨.caseEccStatusUe, 1, 0, 31⟩, ⟨.caseEccStatusCe, 1, 0, 30⟩, ⟨.caseEccStatusWordAddr, 1, 0, 0⟩]⟩
  | .caseCeCount => ⟨.prs, 32776, 0, 1, 32,
      [⟨.caseCeCountCount, 1, 0, 0⟩]⟩
  | .prsIstore => ⟨.prs, 262144, 16, 32768, 128,
      []⟩
  | .oeStatus => ⟨.oe, 0, 0, 1, 32,
      [⟨.oeStatusBand, 1, 0, 24⟩, ⟨.oeStatusRoute, 1, 0, 12⟩, ⟨.oeStatusFibresLit, 1, 0, 8⟩, ⟨.oeStatusSteering, 1, 0, 4⟩, ⟨.oeStatusShutdown, 1, 0, 3⟩, ⟨.oeStatusState, 1, 0, 0⟩]⟩
  | .oeCalCtrl => ⟨.oe, 8, 0, 1, 32,
      [⟨.oeCalCtrlMode, 1, 0, 8⟩, ⟨.oeCalCtrlDelta, 1, 0, 0⟩]⟩
  | .oeFibreStatus => ⟨.oe, 16, 8, 8, 64,
      [⟨.oeFibreStatusRetired, 1, 0, 48⟩, ⟨.oeFibreStatusSpareLane, 1, 0, 40⟩, ⟨.oeFibreStatusSpareUse, 1, 0, 32⟩, ⟨.oeFibreStatusLevel, 1, 0, 24⟩, ⟨.oeFibreStatusCalDue, 1, 0, 0⟩]⟩
  | .oeRing => ⟨.oe, 256, 8, 80, 64,
      [⟨.oeRingSuspect, 1, 0, 63⟩, ⟨.oeRingState, 1, 0, 60⟩, ⟨.oeRingTone, 1, 0, 55⟩, ⟨.oeRingMislocks, 1, 0, 48⟩, ⟨.oeRingLockCode, 1, 0, 32⟩, ⟨.oeRingBias, 1, 0, 16⟩, ⟨.oeRingDrive, 1, 0, 0⟩]⟩
  | .oeXtalk => ⟨.oe, 1024, 16, 80, 128,
      [⟨.oeXtalkNbr, 8, 0, 9⟩, ⟨.oeXtalkNbr, 8, 1, 25⟩, ⟨.oeXtalkNbr, 8, 2, 41⟩, ⟨.oeXtalkNbr, 8, 3, 57⟩, ⟨.oeXtalkNbr, 8, 4, 73⟩, ⟨.oeXtalkNbr, 8, 5, 89⟩, ⟨.oeXtalkNbr, 8, 6, 105⟩, ⟨.oeXtalkNbr, 8, 7, 121⟩, ⟨.oeXtalkCoef, 8, 0, 0⟩, ⟨.oeXtalkCoef, 8, 1, 16⟩, ⟨.oeXtalkCoef, 8, 2, 32⟩, ⟨.oeXtalkCoef, 8, 3, 48⟩, ⟨.oeXtalkCoef, 8, 4, 64⟩, ⟨.oeXtalkCoef, 8, 5, 80⟩, ⟨.oeXtalkCoef, 8, 6, 96⟩, ⟨.oeXtalkCoef, 8, 7, 112⟩]⟩
  | .oeMon => ⟨.oe, 2560, 8, 40, 64,
      [⟨.oeMonS2, 1, 0, 48⟩, ⟨.oeMonS4, 1, 0, 32⟩, ⟨.oeMonS5, 1, 0, 16⟩, ⟨.oeMonS6, 1, 0, 0⟩]⟩
  | .oeSrcMon => ⟨.oe, 3072, 8, 10, 32,
      [⟨.oeSrcMonS1B, 1, 0, 16⟩, ⟨.oeSrcMonS1A, 1, 0, 0⟩]⟩
  | .oeLossFault => ⟨.oe, 3328, 0, 1, 64,
      [⟨.oeLossFaultValid, 1, 0, 63⟩, ⟨.oeLossFaultExcess, 1, 0, 48⟩, ⟨.oeLossFaultElement, 1, 0, 44⟩, ⟨.oeLossFaultBank, 1, 0, 38⟩, ⟨.oeLossFaultDir, 1, 0, 37⟩, ⟨.oeLossFaultWavelength, 1, 0, 33⟩]⟩
  | .oeRoute => ⟨.oe, 3584, 0, 1, 64,
      [⟨.oeRouteSteers, 1, 0, 32⟩, ⟨.oeRouteNext, 1, 0, 8⟩, ⟨.oeRouteCurrent, 1, 0, 0⟩]⟩
  | .oeCalEvents => ⟨.oe, 3592, 0, 1, 64,
      [⟨.oeCalEventsPreempted, 1, 0, 48⟩, ⟨.oeCalEventsThirdRuns, 1, 0, 32⟩, ⟨.oeCalEventsFailed, 1, 0, 16⟩, ⟨.oeCalEventsMislocks, 1, 0, 0⟩]⟩
  | .oeCapability => ⟨.oe, 3840, 0, 1, 64,
      [⟨.oeCapabilityKind, 1, 0, 60⟩, ⟨.oeCapabilityDdlRev, 1, 0, 56⟩, ⟨.oeCapabilityStepping, 1, 0, 48⟩, ⟨.oeCapabilityLevel, 1, 0, 0⟩]⟩
  | .lnkStatus => ⟨.lnk, 0, 0, 1, 32,
      [⟨.lnkStatusTxMask, 1, 0, 23⟩, ⟨.lnkStatusRxMask, 1, 0, 14⟩, ⟨.lnkStatusAttempts, 1, 0, 12⟩, ⟨.lnkStatusClockOk, 1, 0, 11⟩, ⟨.lnkStatusLastDown, 1, 0, 8⟩, ⟨.lnkStatusState, 1, 0, 0⟩]⟩
  | .lnkCtrl => ⟨.lnk, 8, 0, 1, 32,
      [⟨.lnkCtrlCmd, 1, 0, 0⟩]⟩
  | .lnkPeer => ⟨.lnk, 16, 0, 1, 64,
      [⟨.lnkPeerModule, 1, 0, 48⟩, ⟨.lnkPeerPort, 1, 0, 43⟩, ⟨.lnkPeerRtt, 1, 0, 20⟩, ⟨.lnkPeerReplayTimer, 1, 0, 0⟩]⟩
  | .lnkCredit => ⟨.lnk, 24, 0, 1, 64,
      [⟨.lnkCreditVc2, 1, 0, 32⟩, ⟨.lnkCreditVc1, 1, 0, 16⟩, ⟨.lnkCreditVc0, 1, 0, 0⟩]⟩
  | .lnkErrCounts => ⟨.lnk, 32, 0, 1, 64,
      [⟨.lnkErrCountsBlockErrors, 1, 0, 48⟩, ⟨.lnkErrCountsCrcErrors, 1, 0, 32⟩, ⟨.lnkErrCountsResends, 1, 0, 16⟩, ⟨.lnkErrCountsLaneDrops, 1, 0, 0⟩]⟩
  | .lnkEvents => ⟨.lnk, 40, 0, 1, 64,
      [⟨.lnkEventsDowns, 1, 0, 48⟩, ⟨.lnkEventsAbsent, 1, 0, 32⟩, ⟨.lnkEventsWithdrawals, 1, 0, 16⟩, ⟨.lnkEventsRetires, 1, 0, 0⟩]⟩
  | .lnkTxSeq => ⟨.lnk, 64, 16, 3, 128,
      [⟨.lnkTxSeqBase, 1, 0, 80⟩, ⟨.lnkTxSeqNext, 1, 0, 32⟩, ⟨.lnkTxSeqUnacked, 1, 0, 0⟩]⟩
  | .lnkRxSeq => ⟨.lnk, 128, 16, 3, 128,
      [⟨.lnkRxSeqBase, 1, 0, 80⟩, ⟨.lnkRxSeqExpected, 1, 0, 32⟩, ⟨.lnkRxSeqDuplicates, 1, 0, 0⟩]⟩
  | .lnkLane => ⟨.lnk, 256, 8, 9, 64,
      [⟨.lnkLaneState, 1, 0, 61⟩, ⟨.lnkLaneAdapt, 1, 0, 59⟩, ⟨.lnkLaneErrors, 1, 0, 57⟩, ⟨.lnkLaneRetrainFails, 1, 0, 55⟩, ⟨.lnkLaneIdleRun, 1, 0, 0⟩]⟩
  | .lsuStatus => ⟨.lsu, 0, 0, 1, 32,
      [⟨.lsuStatusPresentB, 1, 0, 31⟩, ⟨.lsuStatusBoltedB, 1, 0, 30⟩, ⟨.lsuStatusCoverOkB, 1, 0, 29⟩, ⟨.lsuStatusRefusedB, 1, 0, 28⟩, ⟨.lsuStatusNoTwinB, 1, 0, 27⟩, ⟨.lsuStatusStateB, 1, 0, 16⟩, ⟨.lsuStatusPresent, 1, 0, 15⟩, ⟨.lsuStatusBolted, 1, 0, 14⟩, ⟨.lsuStatusCoverOk, 1, 0, 13⟩, ⟨.lsuStatusRefused, 1, 0, 12⟩, ⟨.lsuStatusNoTwin, 1, 0, 11⟩, ⟨.lsuStatusState, 1, 0, 0⟩]⟩
  | .lsuCtrl => ⟨.lsu, 8, 0, 1, 32,
      [⟨.lsuCtrlUnit, 1, 0, 4⟩, ⟨.lsuCtrlCmd, 1, 0, 0⟩]⟩
  | .lsuFadeCounts => ⟨.lsu, 16, 0, 1, 64,
      [⟨.lsuFadeCountsWatch, 1, 0, 48⟩, ⟨.lsuFadeCountsPrepare, 1, 0, 32⟩, ⟨.lsuFadeCountsSwap, 1, 0, 16⟩, ⟨.lsuFadeCountsSudden, 1, 0, 0⟩]⟩
  | .lsuLaser => ⟨.lsu, 256, 8, 160, 64,
      [⟨.lsuLaserRole, 1, 0, 63⟩, ⟨.lsuLaserStage, 1, 0, 60⟩, ⟨.lsuLaserLit, 1, 0, 57⟩, ⟨.lsuLaserBanks, 1, 0, 53⟩, ⟨.lsuLaserOutput, 1, 0, 32⟩, ⟨.lsuLaserBias, 1, 0, 22⟩, ⟨.lsuLaserRate, 1, 0, 0⟩]⟩
  | .memStatus => ⟨.mem, 0, 0, 1, 32,
      [⟨.memStatusUe, 1, 0, 31⟩, ⟨.memStatusCe, 1, 0, 30⟩, ⟨.memStatusScrubLate, 1, 0, 29⟩, ⟨.memStatusBand, 1, 0, 8⟩, ⟨.memStatusRefreshMult, 1, 0, 4⟩, ⟨.memStatusState, 1, 0, 0⟩]⟩
  | .memEccAddr => ⟨.mem, 8, 0, 1, 64,
      [⟨.memEccAddrChannel, 1, 0, 50⟩, ⟨.memEccAddrBank, 1, 0, 46⟩, ⟨.memEccAddrRow, 1, 0, 31⟩, ⟨.memEccAddrBurst, 1, 0, 26⟩, ⟨.memEccAddrSymbols, 1, 0, 0⟩]⟩
  | .memCeCount => ⟨.mem, 16, 0, 1, 32,
      [⟨.memCeCountCount, 1, 0, 0⟩]⟩
  | .memActCount => ⟨.mem, 24, 0, 1, 64,
      [⟨.memActCountActivates, 1, 0, 0⟩]⟩
  | .memRegion => ⟨.mem, 256, 8, 16, 64,
      [⟨.memRegionValid, 1, 0, 63⟩, ⟨.memRegionAttr, 1, 0, 61⟩, ⟨.memRegionMode, 1, 0, 60⟩, ⟨.memRegionForme, 1, 0, 52⟩, ⟨.memRegionFirstBand, 1, 0, 15⟩, ⟨.memRegionBandsM1, 1, 0, 0⟩]⟩

/-- All registers, for a look-up by offset. -/
def RegName.all : List RegName :=
  [RegName.modId, RegName.modTick, RegName.modGroupMask, RegName.modUnmapped, RegName.modCapability, RegName.modImpSrc, RegName.modImpLen, RegName.modImpCtrl, RegName.modImpStatus, RegName.modImpDetail, RegName.modImpActive, RegName.modFormeCtrl, RegName.modFormeStatus, RegName.modFormeEdition, RegName.modFormeCommitTick, RegName.modFormeCounts, RegName.modFormeStep, RegName.fabIdentity, RegName.fabStatus, RegName.fabCounts, RegName.fabEditionWait, RegName.fabPort, RegName.pairStatus, RegName.pairCtrl] ++
  [RegName.pairCounts, RegName.pairTakeover, RegName.pairForme, RegName.pwrCtrl, RegName.pwrStatus, RegName.pwrForme, RegName.pwrRail, RegName.pwrEnergy, RegName.pwrWeight, RegName.thmStatus, RegName.thmDomain, RegName.prfResult, RegName.prfCtrl, RegName.prfMap, RegName.prfLoopback, RegName.prfPress, RegName.secStatus, RegName.secCtrl, RegName.secReqAddr, RegName.secReqStatus, RegName.secCounter, RegName.secEvents, RegName.coreStatus, RegName.coreCtrl] ++
  [RegName.coreFault, RegName.coreTimecmp, RegName.coreIrqRoute, RegName.coreIrqPending, RegName.coreIrqEvents, RegName.mgtStatus, RegName.mgtCounts, RegName.mgtMac, RegName.calRec, RegName.chsCapability, RegName.galCycle, RegName.galStatus, RegName.galEccAddr, RegName.galCeCount, RegName.galPhaseMap, RegName.galArbCounts, RegName.galRange, RegName.cmpStatus, RegName.cmpNumFlags, RegName.cmpLookupCount, RegName.cmpExceptCounts, RegName.colStatus, RegName.colNumFlags, RegName.colMoeCounts] ++
  [RegName.ddlStatus, RegName.ddlErrCounts, RegName.gstStatus, RegName.gstCapability, RegName.gstNotify, RegName.gstPost, RegName.gstCounts, RegName.prsStatus, RegName.prsStripMap, RegName.prsBusyCycles, RegName.prsStallCounts, RegName.prsSeqStatus, RegName.prsSeqWaits, RegName.prsStepCount, RegName.prsIstoreEcc, RegName.prsCapability, RegName.finNumFlags, RegName.caseEccStatus, RegName.caseCeCount, RegName.prsIstore, RegName.oeStatus, RegName.oeCalCtrl, RegName.oeFibreStatus, RegName.oeRing] ++
  [RegName.oeXtalk, RegName.oeMon, RegName.oeSrcMon, RegName.oeLossFault, RegName.oeRoute, RegName.oeCalEvents, RegName.oeCapability, RegName.lnkStatus, RegName.lnkCtrl, RegName.lnkPeer, RegName.lnkCredit, RegName.lnkErrCounts, RegName.lnkEvents, RegName.lnkTxSeq, RegName.lnkRxSeq, RegName.lnkLane, RegName.lsuStatus, RegName.lsuCtrl, RegName.lsuFadeCounts, RegName.lsuLaser, RegName.memStatus, RegName.memEccAddr, RegName.memCeCount, RegName.memActCount] ++
  [RegName.memRegion]

end Sys2Proof.Machine
end

