-- ==== Sys2Proof/Machine/State.lean ====
section
/-!
DEFINITION. The state of the module: plain data. Numbers that registers show, and single numbers
beside them, are fields of `Field` in one table; the structures below hold the rest.
-/

namespace Sys2Proof.Machine

/-- A running loop of a press program (R119): trips and body range. -/
structure LoopFrame where
  level : Nat
  trips : Nat
  first : Nat
  past : Nat
deriving DecidableEq, Repr

/-- What a PASS or DRAIN does while it is in flight (R77, R78, R87, R131): it swaps; press cycles from row to
row; its rows; the carry entries that it writes; and the depth D of the array in its mode. -/
structure ArrRun where
  swap : Bool
  rate : Nat
  rows : Nat
  carry : Nat
  depth : Nat
deriving DecidableEq, Repr

/-- An instruction that a unit holds or runs: its completion signal (R107 to R109), and what an array
instruction does in flight. -/
structure UnitEntry where
  sen : Bool
  stok : Nat
  run : Option ArrRun
deriving DecidableEq, Repr

/-- A weight tile, live or shadow: format code, and weights and scales of each strip; none where
a strip holds no defined weight (R76, R126). -/
structure Tile where
  fmt : Nat
  strips : List (Option (List Byte × List Byte))
deriving DecidableEq, Repr

/-- What one press holds beside its registers (chapters 3 and 4). -/
structure Press where
  /-- the case (R94) -/
  caseMem : Memory
  /-- instruction store words by index, depth-15 form from 16,384 (R106) -/
  istore : SMap Nat Nat
  /-- completion tokens T0 to T7 (R108) -/
  tokens : SMap Nat Nat
  /-- address registers (R120) -/
  ads : SMap Nat AddrReg
  /-- key registers (R121) -/
  keys : SMap Nat SrKey
  /-- running loops, innermost first (R119) -/
  frames : List LoopFrame
  /-- loop indices i0 to i3 (R119) -/
  idx : SMap Nat Nat
  /-- instructions of each unit 1 SHD, 2 ARR, 3 FIN, 4 BIN, 5 BOUT, oldest first (R107) -/
  queues : SMap Nat (List UnitEntry)
  /-- arrivals signalled on each barrier in the step (R124) -/
  signals : SMap Nat Nat
  /-- live weights (R76) -/
  live : Tile
  /-- shadow loads not yet swapped in, oldest first (R76 to R78) -/
  shadow : List Tile
  /-- bias register: 512 A56 patterns (R73, R127) -/
  bias : List Nat
  /-- carry file rows of 512 A56 patterns (R86) -/
  carry : SMap Nat (List Nat)
  /-- 0 while the carry file was not lost since reset; else the number of the table of unspecified
  values that its unlisted entries read as (R86, log entry 1) -/
  carryLost : Nat
  /-- vector registers V0 to V31: 512 FP32 patterns (R90) -/
  vregs : SMap Nat (List Nat)
  /-- lane masks P0 to P7, bit n for lane n (R90) -/
  masks : SMap Nat Nat
  /-- ring registers whose valid bit is set (R130) -/
  ringValid : List Nat
  /-- rows handed to the drain for a ring and not yet written, oldest first: register and lanes (R88, R129) -/
  drainQ : List (Nat × List Nat)
  /-- the array is frozen (R88) -/
  frozen : Bool
  /-- scale staging line, 256 bytes (R133) -/
  staging : List Byte
  /-- the array is clock-gated (R102) -/
  gated : Bool
  /-- RAMP mode in force (R125): 0 AUTO, 1 HOLD, 2 WARM, 3 GATE -/
  rampMode : Nat
deriving DecidableEq, Repr

/-- A press at reset; the values that the spec does not give are log entry 4's. -/
def Press.init : Press :=
  { caseMem := [], istore := [], tokens := [], ads := [], keys := [], frames := [], idx := [],
    queues := [], signals := [], live := ⟨0, []⟩, shadow := [], bias := [], carry := [],
    carryLost := 0, vregs := [], masks := [], ringValid := [], drainQ := [],
    frozen := false, staging := [], gated := true, rampMode := 0 }

/-- A step-table entry (R210). -/
structure StepEntry where
  nominal : Nat
  slack : Nat
  watchdog : Nat
  editionEnd : Bool
  resFirst : Nat
  resCount : Nat
  barFirst : Nat
  barCount : Nat
  jobFirst : Nat
  jobCount : Nat
deriving DecidableEq, Repr

/-- A reservation entry (R145, R211). -/
structure Resv where
  requester : Nat
  slice : Nat
  write : Bool
  phase : Nat
  runHeld : Nat
  runPeriod : Nat
  start : Nat
  stop : Nat
  lineLo : Nat
  lineHi : Nat
  memAddr : Nat
deriving DecidableEq, Repr

/-- A barrier participant record (R212). -/
structure BarPart where
  kind : Nat
  unit : Nat
  module : Nat
  signals : Nat
deriving DecidableEq, Repr

/-- A barrier entry with its participants (R212). -/
structure BarEntry where
  barrier : Nat
  fabric : Bool
  parts : List BarPart
deriving DecidableEq, Repr

/-- A program record (R209). -/
structure ProgRec where
  press : Nat
  form : Nat
  entries : List Nat
  words : List Nat
deriving DecidableEq, Repr

/-- A rank record of a plan (R214). -/
structure PlanRank where
  module : Nat
  chase : Nat
  lineLo : Nat
  lineHi : Nat
deriving DecidableEq, Repr

/-- A node record of a plan (R214). -/
structure PlanNode where
  lo : Nat
  hi : Nat
  module : Nat
  chase : Nat
deriving DecidableEq, Repr

/-- A route record of a plan (R214). -/
structure PlanRoute where
  module : Nat
  chase : Nat
  hop1 : Nat
  hop2 : Nat
deriving DecidableEq, Repr

/-- A collective plan (R214). -/
structure Plan where
  ranks : List PlanRank
  nodes : List PlanNode
  routes : List PlanRoute
deriving DecidableEq, Repr

/-- A variant: its entry (R215) and its sections. Jobs are their 64-byte descriptors as numbers
(R174, R187). -/
structure Variant where
  number : Nat
  pressMask : Nat
  engineMask : Nat
  widths : Nat
  editionNominal : Nat
  programs : List ProgRec
  steps : List StepEntry
  resvs : List Resv
  barriers : List BarEntry
  jobs : List Nat
  plans : List Plan
deriving DecidableEq, Repr

/-- A checkpoint entry (R216). -/
structure CkptEntry where
  chase : Nat
  inRegion : Nat
  outRegion : Nat
  band0 : Nat
  band1 : Nat
  bandsM1 : Nat
deriving DecidableEq, Repr

/-- A forme descriptor (R208) with its variants and checkpoint entries. -/
structure Forme where
  number : Nat
  mirrored : Bool
  fabric : Bool
  carriedFrom : Nat
  linkMin : Nat
  pressSet : Nat
  engineSet : Nat
  mirrorShare : Nat
  portSet : Nat
  startEdition : Nat
  srSeed : Nat
  variants : List Variant
  ckpts : List CkptEntry
deriving DecidableEq, Repr

/-- Memory section of one chase, in register layout (R207). -/
structure ChaseMem where
  phaseMap : Nat
  ranges : List Nat
  regions : List Nat
deriving DecidableEq, Repr

/-- An imposition as the module's own storage holds it (R203 to R217). The ROUTING and OPTICS
sections are kept as bytes; the rules that use them read their records. -/
structure Imposition where
  capability : Nat
  rollbackVersion : Nat
  moduleId : Nat
  digest : List Byte
  formes : List Forme
  routing : List Byte
  optics : List Byte
  memory : List ChaseMem
deriving DecidableEq, Repr

/-- A held node or leaf value of a job (R189): shard or bag, range, element patterns, its place in the order in
which the engine's values came, and whether it lies in the staging range and not in the store (R194). -/
structure HeldNode where
  shard : Nat
  lo : Nat
  hi : Nat
  vals : List Nat
  age : Nat
  spilled : Bool
deriving DecidableEq, Repr

/-- Where a job of the running step stands (R170 to R172). -/
inductive JobStatus where
  | idle
  | waiting
  | running
  | done
deriving DecidableEq, Repr

/-- A started job (R170): forme, index in the step's job table, chase, engine (true: collective),
descriptor, next lookup (R178), held values (R189), nodes ever held or combined (R195), first lines of
the outputs and rows that have landed, and of those that its completion awaits (R172, R196). -/
structure Job where
  forme : Nat
  idx : Nat
  chase : Nat
  col : Bool
  desc : Nat
  status : JobStatus
  nextLookup : Nat
  held : List HeldNode
  seen : List (Nat × Nat × Nat)
  landed : List Nat
  awaits : List Nat
deriving DecidableEq, Repr

/-- A transfer on a die link that its relaying chase sends on (R24, R193): link end it left by, head, link
end it goes on by, forme, whether its edition is still in hand, the lines that hold it in the relaying slice, of
which `place` is the first where a reservation gives one, and whether it has gone on. -/
structure Relay where
  src : Nat
  head : List Byte
  next : Nat
  forme : Nat
  live : Bool
  place : Option Nat
  lines : Nat
  sent : Bool
deriving DecidableEq, Repr

/-- A management request to another chase, which crosses the ring as VC1 requests of at most three sectors (R24,
R298, R493): its own number, the request's type, tag, slot and counter, the pieces without answer, the data of
those that have one, and the cause of the first fault, 0 for none. -/
structure MgtJob where
  id : Nat
  type : Nat
  tag : Nat
  slot : Nat
  counter : Nat
  left : List Nat
  parts : SMap Nat (List Byte)
  cause : Nat
deriving DecidableEq, Repr

/-- A placed assignment of a mixture of experts (R198): rank, token, choice, expert, slot, weight. -/
structure Placed where
  rank : Nat
  token : Nat
  choice : Nat
  expert : Nat
  slot : Nat
  weight : Nat
deriving DecidableEq, Repr

/-- The placement of a plan's last dispatch (R198, R199): the step it belongs to, the number of the table
of unspecified values that ranks of other modules read as, and the assignments placed. -/
structure Placement where
  step : Nat
  table : Nat
  placed : List Placed
deriving DecidableEq, Repr

/-- A scheduled transfer that outlived its window (R147); `order` is its place among the transfers
dispatched or started. -/
structure LateXfer where
  chase : Nat
  code : Nat
  order : Nat
  nextLine : Nat
  lastLine : Nat
deriving DecidableEq, Repr

/-- Who asked for an unscheduled access, and so who gets its answer. -/
inductive Origin where
  /-- requester code of the slice (R149) -/
  | unit (code : Nat)
  /-- a VC1 request received at link end n (R298) -/
  | link (n : Nat) (r : VcReq)
  /-- a guest request at the site of chase g (R344) -/
  | guest (g : Nat) (r : VcReq)
  /-- a management request with its tag and slot (R493) -/
  | mgt (type tag slot counter : Nat)
  /-- piece k of the management request with number id that crosses the ring (R24, R493) -/
  | mgtPart (id k : Nat)
deriving DecidableEq, Repr

/-- An unscheduled access to the galley slice or the memory of a chase (R152), with what its reading
met. -/
structure Access where
  chase : Nat
  galley : Bool
  addr : Nat
  len : Nat
  data : Option (List Byte)
  met : Met
  who : Origin
deriving DecidableEq, Repr

/-- An unscheduled access that waits: on a running step (R153, R154), or for a free slot (R31). -/
structure HeldAcc where
  forme : Nat
  acc : Access
deriving DecidableEq, Repr

/-- A scheduled transfer of the running step on a reservation of its slice (R145): a fill or drain of a stack
(R530), or a GLOAD or GSTORE of a press (R134). Requester code; `fill`: its lines go into the galley; phase;
the window [start, stop) in galley cycles of the slice; run_held and run_period; the first cycle in which its
next line can move; its lines, the next of them; the chase memory address, or the case line, of its first
line; and `toOut` for a drain into the out_region. -/
structure SlotXfer where
  forme : Nat
  chase : Nat
  code : Nat
  fill : Bool
  phase : Nat
  start : Nat
  stop : Nat
  runHeld : Nat
  runPeriod : Nat
  due : Nat
  lineLo : Nat
  lineHi : Nat
  next : Nat
  memAddr : Nat
  toOut : Bool
deriving DecidableEq, Repr

/-- What the module sends or answers. The list of them is the model's own record (log entry 8). -/
inductive Out where
  /-- galley line data answered to requester code of chase c -/
  | galData (c code addr : Nat) (data : List Byte)
  /-- a write acknowledged to requester code of chase c -/
  | galDone (c code addr : Nat)
  /-- galley or memory access fault answered to a requester code of chase c, cause as R477 -/
  | galFault (c code addr cause : Nat)
  /-- a frame started on a lane of link end n (R294, R296) -/
  | frame (n lane vc seq ack : Nat) (first again : Bool) (payload : List Byte)
  /-- a bypass message started on a lane of link end n (R299) -/
  | byp (n lane kind arg reqno ack0 ack1 ack2 : Nat)
  /-- a MARK block (R282) -/
  | mark (n lane : Nat) (join : Bool)
  /-- an IDLE block (R282) -/
  | idleBlock (n lane : Nat)
  /-- a TRAIN block with its word (R282, R290) -/
  | trainBlock (n lane : Nat) (w : TrainWord)
  /-- the blocks of what starts on a lane, as the lane carries them (R280, R281) -/
  | blocks (n lane : Nat) (bs : List LaneBlock)
  /-- a delivered transfer that is handed to a collective engine: node value or MoE row (R297) -/
  | transfer (n job chase kind line lo hi : Nat) (data : List Byte)
  /-- chase memory addresses that a compositor's window fetches, in the order of issue (R178) -/
  | fetches (c : Nat) (addrs : List Nat)
  /-- a delivered VC1 or VC2 frame's payload (R298, R377) -/
  | payload (n vc : Nat) (data : List Byte)
  /-- a retained frame of port q was lost; the pair is reported to the fabric (R169) -/
  | retainLost (q : Nat)
  /-- a message to the guest of chase g (R344): op, tag, and its bytes, the head among them -/
  | guest (g op tag : Nat) (data : List Byte)
  /-- a Lemik response (R490): type, tag, status, body, and the tail of one that is signed (R492) -/
  | mgt (type tag status : Nat) (body tail : List Byte)
  /-- an ICMPv6 echo reply or a neighbour advertisement (R489) -/
  | echoReply (ident seq : Nat) (data : List Byte)
  | advertisement (target : Nat)
  /-- a value returned by a register read: who, address, value -/
  | regValue (who addr value : Nat)
  /-- bits shifted out of a TAP data register (R444, R445) -/
  | tap (value : Nat)
deriving DecidableEq, Repr

/-- A barrier table entry: latest edition nibble and count, and the tick it changed (R355). -/
structure TokEntry where
  nibble : Nat
  count : Nat
  changed : Nat
deriving DecidableEq, Repr

/-- An entry of the repair map (R439). `bit` holds bytes 12 and 13. -/
structure MapEntry where
  type : Nat
  unit : Nat
  flags : Nat
  cause : Nat
  location : Nat
  spare : Nat
  bit : Nat
  nbits : Nat
deriving DecidableEq, Repr

/-- A correctable error's place, kept with the last 64 of its chase and array type (R441): array
type 3 case, 4 galley, 5 stack; unit; word or burst address. -/
structure CeEntry where
  chase : Nat
  type : Nat
  unit : Nat
  place : Nat
  tick : Nat
deriving DecidableEq, Repr

/-- A bypass message that waits for transmission (R299, R300). -/
structure BypMsg where
  kind : Nat
  arg : Nat
  reqno : Nat
deriving DecidableEq, Repr

/-- A frame of a link end's transmit or receive side (R294). `chase` is that of the owning engine,
`forme` the owning forme (255: none), `edition` the retention tag (R361). -/
structure LFrame where
  vc : Nat
  seq : Nat
  first : Bool
  payload : List Byte
  chase : Nat
  forme : Nat
  edition : Nat
deriving DecidableEq, Repr

/-- A request of a link end that waits for its acknowledgement (R311). -/
structure LinkReq where
  kind : Nat
  arg : Nat
  reqno : Nat
  repeats : Nat
deriving DecidableEq, Repr

/-- A VC1 request sent and not yet answered (R298). -/
structure VcOut where
  tag : Nat
  acc : Access
deriving DecidableEq, Repr

/-- What a link end received in IDENT (R290 to R292). -/
structure Training where
  /-- words received: index and 48-bit word -/
  words : SMap Nat Nat
  /-- the first 16 round-trip differences -/
  rtts : List Nat
  /-- words 0 to 9 came with the expected identity, and peer_ok came (R288) -/
  peerOk : Bool
  final : Bool
  /-- word 0 with final was received, and was sent (R288) -/
  gotFinal : Bool
  sentFinal : Bool
  /-- lanes that the last word 0 sent reported LOCKED (R289) -/
  reported : Nat
deriving DecidableEq, Repr

/-- A link end's training before its first TRAIN word. -/
def Training.init : Training :=
  { words := [], rtts := [], peerOk := false, final := false, gotFinal := false, sentFinal := false,
    reported := 0 }

/-- What a link end holds beside its registers. A die-link end has no registers of its own for its
lanes, numbers and credits, so they are here too. -/
structure Link where
  /-- bypass messages ready to send, oldest first (R296) -/
  bypQ : List BypMsg
  /-- new frames not yet sent, oldest first; their numbers are given when they start (R305) -/
  newQ : List LFrame
  /-- frames to send again, and whether with `again` set (R304, R307, R362) -/
  resendQ : List (LFrame × Bool)
  /-- frames sent and not acknowledged (R306) -/
  unacked : List LFrame
  /-- VC0 frames retained for the peer (R361) -/
  retained : List LFrame
  /-- channel and number of the frames that the replay buffer and the spill region hold, in the order in which
  they started (R167, R168) -/
  heldOrder : List (Nat × Nat)
  /-- channel and number of the frames held that lie in the spill region, oldest first (R167) -/
  spilled : List (Nat × Nat)
  /-- channels of the last 256 frames started, newest first (R296) -/
  started : List Nat
  /-- frames accepted and not yet delivered (R306) -/
  rxHeld : List LFrame
  /-- bytes of the VC0 transfer in hand (R297) -/
  transfer : List Byte
  /-- reference of received numbers after a REWIND, by channel (R309) -/
  rxRef : SMap Nat Nat
  /-- channels whose REWIND is repeated before each frame, with the rewound number (R301) -/
  rewinds : SMap Nat Nat
  /-- request number last used (R311) -/
  reqno : Nat
  /-- outstanding request (R311) -/
  request : Option LinkReq
  /-- requests to issue when none is outstanding: kind and arg (R312) -/
  again : List (Nat × Nat)
  /-- the peer's request last carried out: kind, number, arg (R311) -/
  served : Option (Nat × Nat × Nat)
  /-- a calibration that the peer asked for is running (R312) -/
  peerCal : Bool
  /-- MARKs that carry out the peer's request for which this end withdrew its own: sent by this end or not,
  lane, JOIN (R312) -/
  wait : List (Bool × Nat × Bool)
  /-- buffers freed since UP, by channel (R303) -/
  freed : SMap Nat Nat
  /-- count last taken from the peer's CREDIT messages, by channel (R303) -/
  taken : SMap Nat Nat
  /-- VC1 requests without answer -/
  vc1Out : List VcOut
  /-- MARKs to send: lane, JOIN (R310) -/
  marks : List (Nat × Bool)
  /-- MARKs that carry out a request of the peer whose acknowledgement still waits to be sent: number of the
  request, lane, JOIN (R311) -/
  behind : List (Nat × Nat × Bool)
  /-- lanes that reached their boundary since RETRAIN began (R316) -/
  stopped : List Nat
  /-- stamp of entry to the training state (R288) -/
  since : Nat
  /-- attempts failed in a row (R288) -/
  tries : Nat
  /-- the wait between two attempts (R288) -/
  waiting : Bool
  /-- a port retrain is in progress (R316) -/
  retraining : Bool
  /-- the next IDENT follows a link-down or starts a takeover (R291) -/
  gapOk : Bool
  train : Training
  /-- word 1 last received in training (R290) -/
  peerStamp : Nat
  /-- QUIESCE sent, and the edition received with one (R366) -/
  quiesceSent : Bool
  quiesceGot : Option Nat
  /-- stamps of block errors of each receive lane, newest first (R314) -/
  errs : SMap Nat (List Nat)
  /-- consecutive IDLE blocks of each receive lane (R318) -/
  idle : SMap Nat Nat
  /-- blocks left of each lane's RESUMING (R318) -/
  resume : SMap Nat Nat
  /-- die links: adaptation of each receive lane, coded as LNK_LANE_i adapt (R318, R323) -/
  adapt : SMap Nat Nat
  /-- die links: state of each receive lane, coded as LNK_LANE_i state -/
  lanes : SMap Nat Nat
  /-- die links: consecutive failed retrains of each lane (R329) -/
  fails : SMap Nat Nat
  /-- die links: transmit members -/
  txLanes : List Nat
  /-- die links: lane that each spare in use stands for, receive side (R329) -/
  covers : SMap Nat Nat
  /-- die links: the same, transmit side -/
  txCovers : SMap Nat Nat
  /-- die links: groups whose clock is present, groups that lost a lane without a spare -/
  clockLost : List Nat
  short : List Nat
  /-- die links: groups of the peer's DWIDTH_REQ that this end has acknowledged, until both switch (R332) -/
  widthReq : Option Nat
  /-- die links: link state, coded as LNK_STATUS state -/
  state : Nat
  /-- die links: next numbers, expected numbers, credits by channel -/
  txSeq : SMap Nat Nat
  rxSeq : SMap Nat Nat
  credit : SMap Nat Nat
deriving DecidableEq, Repr

/-- A link end at reset. -/
def Link.init : Link :=
  { bypQ := [], newQ := [], resendQ := [], unacked := [], retained := [], heldOrder := [], spilled := [], started := [],
    rxHeld := [], transfer := [], rxRef := [], rewinds := [], reqno := 0, request := none,
    again := [], served := none, peerCal := false, wait := [], freed := [], taken := [], vc1Out := [],
    marks := [], behind := [], stopped := [], since := 0, tries := 0, waiting := false, retraining := false,
    gapOk := false, train := Training.init, peerStamp := 0, quiesceSent := false, quiesceGot := none, errs := [],
    idle := [], resume := [], adapt := [],
    lanes := [], fails := [], txLanes := [], covers := [], txCovers := [], clockLost := [],
    short := [], widthReq := none, state := 0, txSeq := [], rxSeq := [], credit := [] }

/-- A need for a fibre's spare lane that waits (R252): class 1 sudden loss, 2 swap, 3 mislock,
4 retirement, 5 calibration. -/
structure SpareNeed where
  engine : Nat
  fibre : Nat
  rank : Nat
  lane : Nat
deriving DecidableEq, Repr

/-- A calibration in progress (R256): port bank and fibre of the lane, whether it was pre-empted, the
outcome of the modulator's and the filter's ring, coded as CAL_REC result, and their saved lock codes. -/
structure CalJob where
  engine : Nat
  bank : Nat
  fibre : Nat
  lane : Nat
  aborted : Bool
  modRes : Option Nat
  filtRes : Option Nat
  savedMod : Nat
  savedFilt : Nat
deriving DecidableEq, Repr

/-- Lanes of one engine and wavelength that move to another laser (R265, R271): laser left, laser
taken, port banks still to move, and whether the first of them is on its spare. -/
structure Swap where
  engine : Nat
  lane : Nat
  src : Nat
  dst : Nat
  banks : List Nat
  moving : Bool
deriving DecidableEq, Repr

/-- A sample of the activity estimator (R405, R408): its energy in units of 0.01 pJ / 750³, the
measured input power in force, whether it was active, and energy and press dynamic energy by forme. -/
structure PwrSample where
  energy : Nat
  input : Nat
  active : Bool
  formes : SMap Nat (Nat × Nat)
deriving DecidableEq, Repr

/-- A write that the configuration flash has yet to finish (R469 to R471). -/
inductive FlashJob where
  /-- counter n raised to a value -/
  | counter (n value : Nat)
  /-- key slots written; an empty record empties the slot -/
  | keys (l : List (Nat × List Byte))
  /-- the repair map in force, which waits its turn (R438) -/
  | map
  /-- the repair map and the cached codes as the write in progress has them (R428, R438) -/
  | mapOf (l : List MapEntry) (codes : SMap RKey Nat)
  /-- a Lemik image: slot 0 A, 1 B -/
  | image (slot : Nat) (data : List Byte)
deriving DecidableEq, Repr

/-- Why a command stops. -/
inductive Fault where
  /-- an operand names a unit, register element or place that the module does not have (R14);
  raised by every command's meaning; safe: the hardware has no such command -/
  | noSuchUnit
  /-- a press instruction's effective line address lies outside the case or the galley (R94,
  R142); raised by press instructions; safe: R138 refuses such a program at load -/
  | noSuchLine
deriving DecidableEq, Repr

/-- Why a command has no meaning. -/
inductive Refusal where
  /-- raised by exec for a command that the model does not give a meaning yet; safe -/
  | notModelled (mnemonic : String)
deriving DecidableEq, Repr

/-- The state of the module. -/
structure State where
  /-- register fields and single numbers; absent: the reset value -/
  regs : SMap RKey Nat
  /-- the numbers as the galley cycle before left them (R13) -/
  prev : SMap RKey Nat
  /-- galley slices and chase memories by physical address (R475), stack bytes under the STREAM
  decoding of their cell (R159) -/
  mem : Memory
  /-- the presses; absent: as at reset -/
  presses : SMap Nat Press
  /-- the active imposition slot (R218) -/
  active : Option Imposition
  /-- the pending imposition slot, once checked (R218) -/
  loaded : Option Imposition
  /-- the bit-stream as read into the module's own storage (R218) -/
  pendingBytes : List Byte
  /-- jobs of running steps (R170) -/
  jobs : List Job
  /-- late scheduled transfers (R147) -/
  lateXfers : List LateXfer
  /-- accesses held on a running step (R153, R154) -/
  heldAccs : List HeldAcc
  /-- scheduled transfers of the running steps, and drains that no stack has acknowledged (R134, R145, R229,
  R530) -/
  drains : List SlotXfer
  /-- 64 KiB blocks of the out_region written in the edition: forme, chase, block (R380) -/
  dirtyOut : List (Nat × Nat × Nat)
  /-- sectors of SHARED memory regions written since the last pre-release batch: forme, chase,
  address (R376) -/
  dirtyShared : List (Nat × Nat × Nat)
  /-- sectors of the mirrored memory that the standby was sent since the forme's last RECORD: forme, chase, address
  (R378, R382) -/
  mirrorGot : List (Nat × Nat × Nat)
  /-- BASES entries that the standby holds: forme, edition, entry (R377, R378) -/
  bases : List (Nat × Nat × BaseEntry)
  /-- last counter accepted from each slot and the response to it (R492) -/
  mgtLast : SMap Nat (Nat × Out)
  /-- checkpoint log, newest first (R229, R378) -/
  log : List CkptRecord
  /-- calibrations in progress (R256) -/
  calJobs : List CalJob
  /-- best-fit codes of a ring's runs in the calibration in progress, oldest first (R257) -/
  calRuns : SMap (Nat × Nat) (List Nat)
  /-- calibrations that a ring failed in a row (R257) -/
  calFails : SMap (Nat × Nat) Nat
  /-- loop correction of each ring (R246) -/
  ringErr : SMap (Nat × Nat) Int
  /-- stamps of each ring's mislocks, newest first (R251) -/
  mislocks : SMap (Nat × Nat) (List Nat)
  /-- laser swaps in hand or waiting, oldest first (R265) -/
  swaps : List Swap
  /-- needs that wait for a spare lane (R252) -/
  spareNeeds : List SpareNeed
  /-- arrivals in the running step by forme, barrier, participant kind and unit (R353) -/
  arrivals : SMap (Nat × Nat × Nat × Nat) Nat
  /-- rounds completed in the running step by forme and barrier (R353) -/
  barDone : SMap (Nat × Nat) Nat
  /-- the module's own arrivals in the edition on each fabric barrier number (R354) -/
  barSent : SMap Nat Nat
  /-- barrier tables by chase, origin and barrier number (R355) -/
  tokens : SMap (Nat × Nat × Nat) TokEntry
  /-- link ends; absent: as at reset -/
  links : SMap Nat Link
  /-- the repair map in force (R438) -/
  repairMap : List MapEntry
  /-- correctable errors of each chase and array type, newest first (R441) -/
  ceLog : List CeEntry
  /-- samples of the compliance window, newest first (R408) -/
  samples : List PwrSample
  /-- idle debt b of each forme under the idle-step rule, in ticks (R413) -/
  idleDebt : SMap Nat Int
  /-- stamps of each island's droop events, newest first (R420) -/
  droops : SMap Nat (List Nat)
  /-- writes of the configuration flash, the one in progress first (R471) -/
  flashQ : List FlashJob
  /-- key records of the flash's key table, by slot (R464) -/
  keys : SMap Nat (List Byte)
  /-- Lemik images of the flash: 0 slot A, 1 slot B (R466) -/
  images : SMap Nat (List Byte)
  /-- repair map of the flash (R438) -/
  flashMap : List MapEntry
  /-- the running Lemik image (R466, R472) -/
  image : List Byte
  /-- image upload in progress: length, bytes so far (R494) -/
  upload : Option (Nat × List Byte)
  /-- snapshot of each requester's previous control-space load: address of its next half, value (R476,
  R499) -/
  snaps : SMap Nat (Nat × Nat)
  /-- 64-bit words marked bad in the L2 of a core: core, physical address (R478) -/
  badWords : List (Nat × Nat)
  /-- transfers on their way through a relaying chase (R24) -/
  relays : List Relay
  /-- whole VC0 transfers received at a fabric port for a step that is not released yet, oldest first (R193) -/
  early : List (Nat × List Byte)
  /-- management requests under way on the ring (R24, R493) -/
  mgtJobs : List MgtJob
  /-- placements of the plans' last dispatches, by forme and plan (R198) -/
  moe : SMap (Nat × Nat) Placement
  /-- cached codes of the configuration flash: lock, selector and steering codes, crosstalk matrix (R248,
  R428, R442) -/
  cache : SMap RKey Nat
  /-- samples of each laser's output in the last 2^27 ticks, newest first: stamp and output (R263) -/
  fades : SMap Nat (List (Nat × Int))
  /-- REFILL lines that an uncorrectable error dropped and memory refill has not fetched again: slice,
  line (R166) -/
  dropped : List (Nat × Nat)
  /-- messages sent and answers given, newest first (log entry 8) -/
  out : List Out
  /-- the model's own counter of free values (log entry 1) -/
  freeCount : Nat
  /-- commands that wait, first in, first out -/
  pending : List Instr
deriving DecidableEq, Repr

/-- The module right after reset. -/
def State.reset : State :=
  { regs := [], prev := [], mem := [], presses := [], active := none, loaded := none, pendingBytes := [],
    jobs := [], lateXfers := [], heldAccs := [], drains := [], dirtyOut := [], dirtyShared := [],
    mirrorGot := [], bases := [], mgtLast := [], log := [], calJobs := [],
    calRuns := [], calFails := [], ringErr := [], mislocks := [], swaps := [], spareNeeds := [], arrivals := [], barDone := [],
    barSent := [], tokens := [], links := [], repairMap := [], ceLog := [],
    samples := [], idleDebt := [], droops := [], flashQ := [], keys := [],
    images := [], flashMap := [], image := [], upload := none, snaps := [], badWords := [], relays := [], early := [], mgtJobs := [],
    moe := [],
    cache := [], fades := [], dropped := [], out := [], freeCount := 0, pending := [] }

end Sys2Proof.Machine
end

