-- ==== Sys2Proof/Machine/Ops.lean ====
section
/-!
DEFINITION. The named operations on the state: numbers, bits, time, memories, the active
imposition, presses, interrupts, and the abandonment of an edition.
-/

namespace Sys2Proof.Machine

/-- One outcome of a command. -/
abbrev Res := Host.Outcome State Fault Refusal

/-- A truth value as a field holds it. -/
def b2n (b : Bool) : Nat := if b then 1 else 0

/-- Bit k of a number. -/
def bit (x k : Nat) : Bool := x / 2 ^ k % 2 = 1

/-- w bits of a number from bit lo. -/
def bitsAt (x lo w : Nat) : Nat := x / 2 ^ lo % 2 ^ w

/-- A number with bit k set. -/
def setBit (x k : Nat) : Nat := if bit x k then x else x + 2 ^ k

/-- A number with bit k cleared. -/
def clrBit (x k : Nat) : Nat := if bit x k then x - 2 ^ k else x

/-- How many of the lower n bits are set. -/
def popCount (x : Nat) : Nat → Nat
  | 0 => 0
  | n + 1 => popCount x n + b2n (bit x n)

/-- The numbers below n whose bit is set. -/
def bitsSet (x n : Nat) : List Nat := (List.range n).filter fun k => bit x k

/-! ### Numbers of the state -/

/-- Value of field f of unit i at index j. -/
def State.rd (s : State) (f : Field) (i j : Nat) : Nat :=
  (s.regs.get? ⟨f, i, j⟩).getD f.spec.reset

/-- The state with the number of a field replaced; the value is held to the field's width. -/
def State.put (s : State) (f : Field) (i j v : Nat) : State :=
  { s with regs := s.regs.putD ⟨f, i, j⟩ (f.fit v) f.spec.reset }

/-- The numbers that the cycle before left, once an event sets bit k of a field: an RW1C bit counts as clear
there, so that no write of 1 clears it before the cycle ends (R13; log entry 83). -/
def State.marked (s : State) (f : Field) (i j k : Nat) : SMap RKey Nat :=
  if f.spec.acc = .w1c then
    s.prev.putD ⟨f, i, j⟩ (clrBit ((s.prev.get? ⟨f, i, j⟩).getD f.spec.reset) k) f.spec.reset
  else s.prev

/-- The state with a field set by an event; the value is held to the field's width, and an RW1C bit set stays
set in this galley cycle (R13). -/
def State.wr (s : State) (f : Field) (i j v : Nat) : State :=
  { s with
    regs := s.regs.putD ⟨f, i, j⟩ (f.fit v) f.spec.reset
    prev := if f.spec.width = 1 && v % 2 = 1 then s.marked f i j 0 else s.prev }

/-- The state with a field back at its reset value. -/
def State.clr (s : State) (f : Field) (i j : Nat) : State :=
  { s with regs := s.regs.del ⟨f, i, j⟩ }

/-- The state with a counter raised by n, saturating at its width's largest value. -/
def State.bump (s : State) (f : Field) (i j n : Nat) : State :=
  if f.spec.width = 0 then s.wr f i j (s.rd f i j + n)
  else s.wr f i j (min (2 ^ f.spec.width - 1) (s.rd f i j + n))

/-- The state with a counter raised by n, wrapping. -/
def State.wrap (s : State) (f : Field) (i j n : Nat) : State := s.wr f i j (s.rd f i j + n)

/-- The state with one bit of a field set by an event (R13). -/
def State.orBit (s : State) (f : Field) (i j k : Nat) : State :=
  { s.put f i j (setBit (s.rd f i j) k) with prev := s.marked f i j k }

/-- The state with one bit of a field cleared. -/
def State.andNot (s : State) (f : Field) (i j k : Nat) : State :=
  s.wr f i j (clrBit (s.rd f i j) k)

/-- A field is 1. -/
def State.on (s : State) (f : Field) (i j : Nat) : Bool := s.rd f i j = 1

/-- A list of field settings applied in order. -/
def State.wrAll (s : State) (l : List (Field × Nat × Nat × Nat)) : State :=
  l.foldl (fun s e => s.wr e.1 e.2.1 e.2.2.1 e.2.2.2) s

/-- A step applied for each element of a list. -/
def State.each {α : Type} (s : State) (l : List α) (f : State → α → State) : State := l.foldl f s

/-- The next free value of w bits, and the state with the counter advanced (log entry 1). -/
def State.free (s : State) (w : Nat) : Nat × State :=
  (Config.freeValue s.freeCount % 2 ^ w, { s with freeCount := s.freeCount + 1 })

/-- A message or an answer recorded. -/
def State.send (s : State) (o : Out) : State := { s with out := o :: s.out }

/-! ### Time -/

/-- MOD_TICK. -/
def State.now (s : State) : Nat := s.rd .modTickTick 0 0

/-- The numbers of the galley cycle that n ticks end are kept (R13). -/
def State.keepCycle (s : State) (n : Nat) : State := { s with prev := if n = 0 then s.prev else s.regs }

/-- MOD_TICK, the galley cycle counters and the island's counter moved on by n ticks while the time base
counts (R3, R5, R141, R450; a galley cycle and a survivor tick are 1 ns nominal). The numbers of the cycle
that ends are kept (R13). -/
def State.tickBy (s : State) (n : Nat) : State :=
  let s := s.keepCycle n
  if s.on .hTimeBase 0 0 then
    (((((s.wrap .modTickTick 0 0 n).wrap .galCycleCycle 0 0 n).wrap .galCycleCycle 1 0 n).wrap
      .galCycleCycle 2 0 n).wrap .galCycleCycle 3 0 n).wrap .hSurvTick 0 0 n
  else s

/-- Time moved on to the stamp of an event; time never goes back (R5, R7; log entry 2). -/
def State.stamp (s : State) (t : Nat) : State := s.tickBy (t - s.now)

/-! ### Presses -/

/-- What press p holds. -/
def State.press (s : State) (p : Nat) : Press := s.presses.getD p Press.init

/-- The state with a press replaced. -/
def State.setPress (s : State) (p : Nat) (x : Press) : State :=
  { s with presses := s.presses.put p x }

/-- Bytes of case lines. -/
def Press.caseBytes (x : Press) (line n : Nat) : List Byte := x.caseMem.read (line * 256) n

/-- Bytes written to the case from the start of a line. -/
def Press.writeCase (x : Press) (line : Nat) (bs : List Byte) : Press :=
  { x with caseMem := x.caseMem.write (line * 256) bs }

/-- Press states (R104). -/
def pOff : Nat := 0
def pProof : Nat := 1
def pReady : Nat := 2
def pActive : Nat := 3
def pParked : Nat := 4
def pFailed : Nat := 5

/-- State of a press (R104). -/
def State.pState (s : State) (p : Nat) : Nat := s.rd .prsStatusState p 0

/-- The press with its carry file lost (R86): its entries are unspecified values. -/
def Press.loseCarry (x : Press) (n : Nat) : Press := { x with carry := [], carryLost := n + 1 }

/-- A press enters a state; leaving ACTIVE or READY for another loses the carry file (R86). -/
def State.setPState (s : State) (p st : Nat) : State :=
  let lost := (s.pState p = pReady || s.pState p = pActive) && !(st = pReady || st = pActive)
  let s := s.wr .prsStatusState p 0 st
  if lost then
    { s.setPress p ((s.press p).loseCarry s.freeCount) with freeCount := s.freeCount + 1 }
  else s

/-- Fields that a press loses with its power: all of its block but status, strip map and capability
(R503). -/
def pressLost : List Field :=
  (RegName.all.filter fun r => r.info.block = .prs && r != .prsStatus && r != .prsStripMap &&
    r != .prsCapability).flatMap fun r => r.info.slots.map Slot.field

/-- A press loses its power: everything that it holds goes (R104, R503; log entry 4). -/
def State.pressOff (s : State) (p : Nat) : State :=
  let s := (s.setPState p pOff).setPress p Press.init
  pressLost.foldl (fun s f => s.clr f p 0) s

/-- Physical strip carries a logical strip: it is not bypassed, and with no failed strip the last
one is the spare (R81). -/
def State.stripInUse (s : State) (p strip : Nat) : Bool :=
  let failed := s.rd .prsStripMapStripFailed p 0
  !bit failed strip && !(failed = 0 && strip = 16)

/-! ### The active imposition -/

/-- Forme f of the active imposition. -/
def State.forme (s : State) (f : Nat) : Option Forme :=
  match s.active with
  | none => none
  | some i => i.formes.find? fun x => x.number = f

/-- The variant in force of a forme (R204). -/
def State.variant (s : State) (f : Nat) : Option Variant :=
  match s.forme f with
  | none => none
  | some x => x.variants.find? fun v => v.number = s.rd .modFormeStatusVariant 0 f

/-- Step-table entry of a variant for sequence number q (R204). -/
def Variant.step (v : Variant) (q : Nat) : Option StepEntry :=
  if v.steps.length = 0 then none else v.steps[q % v.steps.length]?

/-- Entry of the step that forme f released last. -/
def State.curStep (s : State) (f : Nat) : Option StepEntry :=
  match s.variant f with
  | none => none
  | some v => v.step (s.rd .modFormeStepQ 0 f)

/-- Reservation entry i of the running step of forme f (R210). -/
def State.resv (s : State) (f i : Nat) : Option Resv :=
  match s.variant f, s.curStep f with
  | some v, some e => if i < e.resCount then v.resvs[e.resFirst + i]? else none
  | _, _ => none

/-- Barrier entries of the running step of forme f (R210). -/
def State.stepBarriers (s : State) (f : Nat) : List BarEntry :=
  match s.variant f, s.curStep f with
  | some v, some e => (v.barriers.drop e.barFirst).take e.barCount
  | _, _ => []

/-- Job descriptor i of the running step of forme f (R210). -/
def State.jobDesc (s : State) (f i : Nat) : Option Nat :=
  match s.variant f, s.curStep f with
  | some v, some e => if i < e.jobCount then v.jobs[e.jobFirst + i]? else none
  | _, _ => none

/-- The forme that owns press p: the variant in force uses it (R203). -/
def State.formeOfPress (s : State) (p : Nat) : Option Forme :=
  match s.active with
  | none => none
  | some i => i.formes.find? fun x => bit x.pressSet p

/-- Presses of the variant in force of forme f. -/
def State.formePresses (s : State) (f : Nat) : List Nat :=
  match s.variant f with
  | none => []
  | some v => bitsSet v.pressMask 12

/-- Formes of the active imposition by number. -/
def State.formeNums (s : State) : List Nat :=
  match s.active with
  | none => []
  | some i => i.formes.map Forme.number

/-! ### Memories -/

/-- Lines of a galley slice (R142). -/
def galLines : Nat := 1572864

/-- Physical address of byte 0 of galley slice c (R475). -/
def galBase (c : Nat) : Nat := 0x100000000 + c * 0x20000000

/-- Physical address of byte 0 of the memory of chase c (R475). -/
def memBase (c : Nat) : Nat := 0x10000000000 + c * 0x4000000000

/-- Attribute and owner of galley line L of slice c (R152): a valid range, or CORE and the module. -/
def State.galAttr (s : State) (c line : Nat) : Nat × Nat :=
  match (List.range 32).find? fun n =>
      s.on .galRangeValid c n && s.rd .galRangeFirstLine c n ≤ line &&
        line ≤ s.rd .galRangeFirstLine c n + s.rd .galRangeLinesM1 c n with
  | some n => (s.rd .galRangeAttr c n, s.rd .galRangeForme c n)
  | none => (0, 255)

/-- Bands [first, past) of a region entry in register layout (R207). -/
def regionSpan (x : Nat) : Nat × Nat := (bitsAt x 15 15, bitsAt x 15 15 + bitsAt x 0 15 + 1)

/-- The valid region of chase c that holds a band (R152, R158); the table of stack 4c stands for
the four copies (R160). -/
def State.regionOf (s : State) (c band : Nat) : Option Nat :=
  (List.range 16).find? fun n =>
    s.on .memRegionValid (4 * c) n && s.rd .memRegionFirstBand (4 * c) n ≤ band &&
      band ≤ s.rd .memRegionFirstBand (4 * c) n + s.rd .memRegionBandsM1 (4 * c) n

/-- Attribute and owner of chase memory address a (R152). -/
def State.memAttr (s : State) (c a : Nat) : Nat × Nat :=
  match s.regionOf c (a / 2 ^ 23) with
  | some n => (s.rd .memRegionAttr (4 * c) n, s.rd .memRegionForme (4 * c) n)
  | none => (0, 255)

/-- Mode of the band of a chase memory address: 1 SCATTER (R158). -/
def State.memMode (s : State) (c a : Nat) : Nat :=
  match s.regionOf c (a / 2 ^ 23) with
  | some n => s.rd .memRegionMode (4 * c) n
  | none => 0

/-- Where an address lies: stack of the chase, channel, bank, row, byte in the row (R159). -/
structure StackPos where
  stack : Nat
  channel : Nat
  bank : Nat
  row : Nat
  byte : Nat
deriving DecidableEq, Repr

/-- Decoding of chase memory address a in a mode (R159). -/
def stackPos (mode a : Nat) : StackPos :=
  let row := bitsAt a 23 15
  if mode = 1 then
    { stack := bitsAt a 13 2, channel := Nat.xor (bitsAt a 7 6) (bitsAt row 4 6),
      bank := Nat.xor (bitsAt a 19 4) (bitsAt row 0 4), row := row,
      byte := bitsAt a 15 4 * 128 + bitsAt a 0 7 }
  else
    { stack := bitsAt a 14 2, channel := bitsAt a 8 6, bank := bitsAt a 19 4, row := row,
      byte := bitsAt a 16 3 * 256 + bitsAt a 0 8 }

/-- The address that STREAM mode gives a place (R159). -/
def StackPos.streamAddr (x : StackPos) : Nat :=
  x.row * 2 ^ 23 + x.bank * 2 ^ 19 + x.byte / 256 * 2 ^ 16 + x.stack * 2 ^ 14 +
    x.channel * 2 ^ 8 + x.byte % 256

/-- The cell that holds chase memory address a under the mode in force (R158). -/
def State.memCell (s : State) (c a : Nat) : Nat :=
  memBase c + (if s.memMode c a = 1 then (stackPos 1 a).streamAddr else a)

/-- Bytes of chase memory. -/
def State.readMem (s : State) (c a n : Nat) : List Byte :=
  (List.range n).map fun i => s.mem.get (s.memCell c (a + i))

/-- Bytes stored in chase memory. -/
def State.writeMem (s : State) (c a : Nat) (bs : List Byte) : State :=
  match bs with
  | [] => s
  | b :: r => State.writeMem { s with mem := s.mem.set (s.memCell c a) b } c (a + 1) r

/-- Bytes of a galley slice from byte address a. -/
def State.readGal (s : State) (c a n : Nat) : List Byte := s.mem.read (galBase c + a) n

/-- Bytes stored in a galley slice. -/
def State.writeGal (s : State) (c a : Nat) (bs : List Byte) : State :=
  { s with mem := s.mem.write (galBase c + a) bs }

/-! ### Interrupt sources -/

/-- Some unit below n, at some index below m, has the field set. -/
def State.anyOn (s : State) (f : Field) (n m : Nat) : Bool :=
  (List.range n).any fun i => (List.range m).any fun j => s.rd f i j != 0

/-- Whether external source k is high (R482). -/
def State.irqLevel (s : State) (k : Nat) : Bool :=
  match k with
  | 0 => s.rd .coreIrqEventsCommit 0 0 != 0
  | 1 => (List.range 16).any fun f =>
      s.rd .modFormeStatusState 0 f = 5 || s.rd .modFormeStatusState 0 f = 6
  | 2 => s.anyOn .modFormeStatusLate 1 16
  | 3 => s.on .coreIrqEventsImp 0 0
  | 4 => s.on .coreIrqEventsPair 0 0 || s.on .pairStatusRoleRefused 0 0
  | 5 => s.on .pwrStatusCapUnmet 0 0 || s.on .pwrStatusCapExceeded 0 0 ||
      s.on .pwrStatusEstDrift 0 0 || s.on .pwrStatusInputFault 0 0
  | 6 => s.on .coreIrqEventsBand 0 0 || s.on .thmStatusThrottle 0 0
  | 7 => s.on .coreIrqEventsLink 0 0
  | 8 => s.on .lsuStatusRefused 0 0 || s.on .lsuStatusRefusedB 0 0 || s.on .lsuStatusNoTwin 0 0 ||
      s.on .lsuStatusNoTwinB 0 0 || s.anyOn .oeLossFaultValid 8 1 || s.anyOn .fabPortPlantFault 1 32
  | 9 => s.anyOn .galStatusUe 4 1 || s.anyOn .galStatusCe 4 1 || s.anyOn .memStatusUe 16 1 ||
      s.anyOn .memStatusCe 16 1 || s.anyOn .memStatusScrubLate 16 1 ||
      s.anyOn .caseEccStatusUe 12 1 || s.anyOn .caseEccStatusCe 12 1
  | 10 => s.on .prfMapWriteFail 0 0 || s.on .prfMapPendingDropped 0 0 || s.on .coreIrqEventsProof 0 0
  | 11 => s.anyOn .gstStatusDownSeen 4 1 || s.anyOn .gstStatusErrorSent 4 1 ||
      s.anyOn .hGstNotifyHeld 4 1
  | 12 => s.on .coreIrqEventsCoreFail 0 0
  | 13 => (List.range 8).any fun b =>
      bit (s.rd .secStatusAlerts 0 0) b && !bit (s.rd .secStatusAlertMask 0 0) b
  | _ => false

/-- Core states (R480). -/
def cOff : Nat := 0
def cHalted : Nat := 1
def cRun : Nat := 2
def cRetired : Nat := 3

/-- The core that source k goes to, and whether it was rerouted (R483). -/
def State.irqTarget (s : State) (k : Nat) : Option Nat × Bool :=
  let t := s.rd .coreIrqRouteTarget 0 k
  if s.rd .coreStatusState 0 t = cRun then (some t, false)
  else ((List.range 16).find? fun n => s.rd .coreStatusState 0 n = cRun, true)

/-- Delivery of source k (R483). -/
def State.irqOne (s : State) (k : Nat) : State :=
  if s.on .coreIrqRouteEnable 0 k && s.irqLevel k then
    match s.irqTarget k with
    | (some n, re) =>
      let s := if re then s.wr .coreIrqRouteRerouted 0 k 1 else s
      if s.on .coreIrqRouteSupervisor 0 k then s.wr .hCoreSeip 0 n 1 else s.wr .hCoreMeip 0 n 1
    | (none, _) => s
  else s

/-- Delivery of every source (R482, R483): the external-interrupt pending bits show the enabled sources that
are high, and fall with them (log entry 30). -/
def State.irqDeliver (s : State) : State :=
  let s := s.each (List.range 16) fun s n => (s.clr .hCoreMeip 0 n).clr .hCoreSeip 0 n
  s.each (List.range 14) State.irqOne

/-- The island has power: its own power-on is a recorded cause from then on (R450, SEC_EVENTS). -/
def State.islandOn (s : State) : Bool := s.rd .secEventsResetMask 0 0 != 0

/-- One tick of an idle module: time passes, the island's own where the time base is off, and sources are
delivered (R450; log entry 2). -/
def State.idle (s : State) : State :=
  let s := s.tickBy 1
  let s := if !s.on .hTimeBase 0 0 && s.islandOn then s.wrap .hSurvTick 0 0 1 else s
  s.irqDeliver

/-! ### Formes -/

/-- Forme states (R231). -/
def fNone : Nat := 0
def fLoaded : Nat := 1
def fRunning : Nat := 2
def fClosing : Nat := 3
def fHeld : Nat := 4
def fAbandoning : Nat := 5
def fParked : Nat := 6

/-- State of forme f. -/
def State.fState (s : State) (f : Nat) : Nat := s.rd .modFormeStatusState 0 f

/-- Abandon causes (MOD_FORME_STATUS). -/
def causeUe : Nat := 1
def causeSlice : Nat := 2
def causeIstore : Nat := 3
def causePressLost : Nat := 4
def causeLink : Nat := 5
def causeTimeout : Nat := 6

/-- Park reasons (MOD_FORME_STATUS). -/
def parkSupervisor : Nat := 0x10
def parkCap : Nat := 0x11
def parkNoVariant : Nat := 0x12
def parkUe : Nat := 0x13
def parkAbandon : Nat := 0x14
def parkCkpt : Nat := 0x15

/-- The engines' busy fields follow the jobs (CMP_STATUS, COL_STATUS). -/
def State.jobFields (s : State) (c : Nat) : State :=
  let run (col : Bool) := (s.jobs.filter fun j => j.chase = c && j.col = col && j.status = .running).length
  ((s.wr .cmpStatusBusy c 0 (b2n (run false != 0))).wr .colStatusBusy c 0
    (b2n (run true != 0))).wr .colStatusActive c 0 (run true)

/-- The jobs of a forme stop, and what they held is discarded (R195, R233). -/
def State.dropJobs (s : State) (f : Nat) : State :=
  let s := { s with jobs := s.jobs.filter fun j => !decide (j.forme = f) }
  s.each [0, 1, 2, 3] State.jobFields

/-- The presses of a forme that run park at a row boundary (R104, R233). -/
def State.parkPresses (s : State) (f : Nat) : State :=
  s.each (s.formePresses f) fun s p => if s.pState p = pActive then s.setPState p pParked else s

/-- Late transfers into ranges of forme f stop at a slot boundary (R233). -/
def State.dropLate (s : State) (f : Nat) : State :=
  { s with lateXfers := s.lateXfers.filter fun x => !decide ((s.galAttr x.chase x.nextLine).2 = f) }

/-- A link end without the frames of edition e of forme f that it has not started: the replay makes
them anew (R233, R234, R325). -/
def Link.dropForme (x : Link) (f e : Nat) : Link :=
  { x with newQ := x.newQ.filter fun y => !(decide (y.forme = f) && y.vc != 1 && decide (e ≤ y.edition)) }

/-- A transfer to relay waits unsent at the link end that it leaves by. -/
def State.unsent (s : State) (r : Relay) : Bool :=
  ((s.links.getD r.src Link.init).newQ).any fun y => y.first && y.forme = r.forme && y.payload.take 16 = r.head

/-- Fills and drains not yet acknowledged and frames not yet started of forme f are dropped; what of its
transfers is under way to a relaying chase goes no further (R233, R325). -/
def State.dropTraffic (s : State) (f : Nat) : State :=
  { s with
    relays := (s.relays.filter fun r => !(r.forme = f && (r.sent || s.unsent r))).map fun r =>
      if r.forme = f then { r with live := false } else r
    drains := s.drains.filter fun d => !decide (d.forme = f)
    links := s.links.map fun e => (e.1, e.2.dropForme f (s.rd .modFormeEditionEdition 0 f + 1)) }

/-- Every unit of forme f stops (R233). -/
def State.stopUnits (s : State) (f : Nat) : State :=
  (((s.parkPresses f).dropJobs f).dropLate f).dropTraffic f

end Sys2Proof.Machine
end

