-- ==== Sys2Proof/Machine/Barriers.lean ====
section
/-!
DEFINITION. Ports of the imposition's OPTICS records, waiting bypass messages, and barriers
(R212, R278, R353 to R357, R373).
-/

namespace Sys2Proof.Machine

/-- A port record of the OPTICS section (R278). -/
structure PortRec where
  lit : Bool
  dataMask : Nat
  peer : Nat
  peerPort : Nat
deriving DecidableEq, Repr

/-- n bytes of a byte string from offset o as a little-endian number. -/
def leAt (bs : List Byte) (o n : Nat) : Nat := leNat ((bs.drop o).take n)

/-- Port record q (R278). -/
def Imposition.port (i : Imposition) (q : Nat) : PortRec :=
  let o := 16 + 8 * q
  { lit := bit (leAt i.optics o 1) 0, dataMask := leAt i.optics (o + 1) 1,
    peer := leAt i.optics (o + 2) 2, peerPort := leAt i.optics (o + 4) 1 % 32 }

/-- Port record q of the active imposition. -/
def State.portRec (s : State) (q : Nat) : Option PortRec := s.active.map fun i => i.port q

/-- The module's identity (R349). -/
def State.identity (s : State) : Nat := s.rd .fabIdentityIdentity 0 0

/-- Port q is a pair-link port (R373). -/
def State.isPairPort (s : State) (q : Nat) : Bool :=
  match s.portRec q with
  | none => false
  | some r => r.lit && r.peer = s.identity

/-- Link states (R287). -/
def lOff : Nat := 0
def lAbsent : Nat := 1
def lClock : Nat := 2
def lAlign : Nat := 3
def lIdent : Nat := 4
def lUp : Nat := 5
def lRetrain : Nat := 6
def lMismatch : Nat := 7

/-- State of fabric port q (R287). -/
def State.lState (s : State) (q : Nat) : Nat := s.rd .lnkStatusState q 0

/-- What link end n holds. -/
def State.link (s : State) (n : Nat) : Link := s.links.getD n Link.init

/-- The state with a link end replaced. -/
def State.setLink (s : State) (n : Nat) (x : Link) : State := { s with links := s.links.put n x }

/-- A bypass message waits at link end n (R296). -/
def State.sendByp (s : State) (n kind arg reqno : Nat) : State :=
  s.setLink n { s.link n with bypQ := (s.link n).bypQ ++ [⟨kind, arg, reqno⟩] }

/-- The fabric forme (R347). -/
def State.fabricForme (s : State) : Option Forme :=
  match s.active with
  | none => none
  | some i => i.formes.find? Forme.fabric

/-- UP ports of the fabric forme, pair-link ports excepted (R354, R359). -/
def State.fabricPorts (s : State) : List Nat :=
  match s.fabricForme with
  | none => []
  | some f => (bitsSet f.portSet 32).filter fun q => s.lState q = lUp && !s.isPairPort q

/-- A bypass message waits on every UP port of the fabric forme (R354, R359). -/
def State.sendFabric (s : State) (kind arg : Nat) : State :=
  s.each s.fabricPorts fun s q => s.sendByp q kind arg 0

/-- Entry of barrier number b in the running step of forme f. -/
def State.barEntry (s : State) (f b : Nat) : Option BarEntry :=
  (s.stepBarriers f).find? fun e => e.barrier = b

/-- Arrivals of one participant in the running step. -/
def State.arrived (s : State) (f b kind unit : Nat) : Nat := s.arrivals.getD (f, b, kind, unit) 0

/-- The least of a list of numbers; 0 for none. -/
def minList : List Nat → Nat
  | [] => 0
  | [x] => x
  | x :: y :: r => min x (minList (y :: r))

/-- Rounds that every local participant of a barrier has signalled (R353). -/
def State.localRounds (s : State) (f : Nat) (e : BarEntry) : Nat :=
  minList ((e.parts.filter fun x => x.kind != 3).map fun x => s.arrived f e.barrier x.kind x.unit)

/-- The edition that forme f runs. -/
def State.edition (s : State) (f : Nat) : Nat := s.rd .modFormeEditionEdition 0 f + 1

/-- Argument of a BARRIER token (R352). -/
def tokenArg (origin b nibble count : Nat) : Nat :=
  origin * 2 ^ 16 + b * 2 ^ 10 + nibble * 2 ^ 6 + count

/-- Entry of origin x and barrier b at chase c. -/
def State.token (s : State) (c x b : Nat) : Option TokEntry := s.tokens.get? (c, x, b)

/-- A barrier table entry set on one chase. -/
def State.setToken (s : State) (c x b : Nat) (e : TokEntry) : State :=
  { s with tokens := s.tokens.put (c, x, b) e }

/-- (a - b) mod 16. -/
def nibDiff (a b : Nat) : Nat := (a + 16 - b % 16) % 16

/-- A token is new at a chase (R355). -/
def State.tokenNew (s : State) (c origin bar nib count : Nat) : Bool :=
  match s.token c origin bar with
  | none => true
  | some e =>
    let d := nibDiff nib e.nibble
    (1 ≤ d && d ≤ 7) || (d = 0 && e.count < count)

/-- The module's next arrival on fabric barrier b goes out (R354); its own entry is kept for the
repeats (R357), and an arrival that a replay sends again leaves it as it is (R358). -/
def State.ownArrival (s : State) (f b : Nat) : State :=
  let k := s.barSent.getD b 0 + 1
  let s := { s with barSent := s.barSent.put b k }
  let nib := s.edition f % 16
  let s := s.each [0, 1, 2, 3] fun s c =>
    if s.tokenNew c s.identity b nib k then s.setToken c s.identity b ⟨nib, k, s.now⟩ else s
  s.sendFabric 0x10 (tokenArg s.identity b nib k)

/-- A participant's arrival reaches the tally of chase 0 (R124, R172, R353). -/
def State.barrierArrive (s : State) (f b kind unit : Nat) : State :=
  let old := (s.barEntry f b).map fun e => s.localRounds f e
  let s := { s with arrivals := s.arrivals.put (f, b, kind, unit) (s.arrived f b kind unit + 1) }
  match s.barEntry f b, old with
  | some e, some m => if e.fabric && m < s.localRounds f e then s.ownArrival f b else s
  | _, _ => s

/-- The entry shows a later edition, or edition nib with a count of at least n (R356). -/
def TokEntry.reaches (e : TokEntry) (nib n : Nat) : Bool :=
  let d := nibDiff e.nibble nib
  (1 ≤ d && d ≤ 7) || (d = 0 && n ≤ e.count)

/-- Signals of remote module x on barrier b over the steps of the edition before the running one
(R356). -/
def State.earlierSignals (s : State) (f b x : Nat) : Nat :=
  match s.variant f with
  | none => 0
  | some v =>
    let q := s.rd .modFormeStepQ 0 f
    let q0 := s.rd .hFormeEdQ 0 f
    ((List.range (q - q0)).map fun k =>
      match v.step (q0 + k) with
      | none => 0
      | some e =>
        ((((v.barriers.drop e.barFirst).take e.barCount).filter fun y => y.barrier = b).map fun y =>
          ((y.parts.filter fun z => z.kind = 3 && z.module = x).map BarPart.signals).sum).sum).sum

/-- Rounds of barrier b completed in the running step. -/
def State.rounds (s : State) (f b : Nat) : Nat := s.barDone.getD (f, b) 0

/-- The next round of barrier b is complete (R353, R356). -/
def State.roundReady (s : State) (f b : Nat) : Bool :=
  match s.barEntry f b with
  | none => false
  | some e =>
    let n := s.rounds f b + 1
    n ≤ s.localRounds f e &&
      e.parts.all fun x =>
        x.kind != 3 ||
          match s.token 0 x.module b with
          | none => false
          | some k => k.reaches (s.edition f % 16) (s.earlierSignals f b x.module + n)

end Sys2Proof.Machine
end

