-- ==== Sys2Proof/Machine/Blocks.lean ====
section
/-!
DEFINITION. The blocks of a lane: sync header, scrambler, parity, block types (R280 to R282, R285), and the
layouts of frames, bypass messages and TRAIN words with their checksums (R290, R294, R299).
-/

namespace Sys2Proof.Machine

/-- n bytes of a list, padded with zeros. -/
def fixLen (n : Nat) (l : List Byte) : List Byte := (l ++ List.replicate n 0).take n

/-! ### Bits and the scrambler (R280, R281) -/

/-- The 64 payload bits of a block, bit 0 first (R280). -/
def bits64 (x : Nat) : List Bool := (List.range 64).map x.testBit

/-- The number whose bits are given, bit 0 first. -/
def ofBits : List Bool → Nat
  | [] => 0
  | b :: l => b.toNat + 2 * ofBits l

/-- What x^58 + x^39 + 1 adds to a bit, the last 58 scrambled bits being given, the newest as bit 0 (R281). -/
def scrTap (h : Nat) : Bool := xor (h.testBit 38) (h.testBit 57)

/-- A scrambled bit joins the last 58. -/
def scrPush (h : Nat) (b : Bool) : Nat := (2 * h + b.toNat) % 2 ^ 58

/-- Bits scrambled in order, and the last 58 scrambled bits after them (R281). -/
def scramble : List Bool → Nat → List Bool × Nat
  | [], h => ([], h)
  | d :: l, h =>
    let b := xor d (scrTap h)
    let r := scramble l (scrPush h b)
    (b :: r.1, r.2)

/-- Bits descrambled in order (R281). -/
def descramble : List Bool → Nat → List Bool
  | [], _ => []
  | b :: l, h => xor b (scrTap h) :: descramble l (scrPush h b)

/-- The last 58 scrambled bits after a block with a payload as received. -/
def scrAfter (payload : Nat) : Nat := ofBits ((List.range 58).map fun i => payload.testBit (63 - i))

/-! ### Blocks (R280 to R282, R285) -/

/-- Ones among the lower n bits of a number. -/
def onesOf (x : Nat) : Nat → Nat
  | 0 => 0
  | n + 1 => onesOf x n + (x.testBit n).toNat

/-- Sync header of a data block and of a control block (R280). -/
def syncData : Nat := 1
def syncControl : Nat := 2

/-- The parity bit of a block: the ones of the 67 bits are even in number (R281). -/
def parityOf (sync payload : Nat) : Nat := (onesOf sync 2 + onesOf payload 64) % 2

/-- Block types (R282). -/
def typeIdle : Nat := 0x1E
def typeTrain : Nat := 0x4B
def typeFrame : Nat := 0x78
def typeByp : Nat := 0xB4
def typeMark : Nat := 0xD2

/-- A block before scrambling: control, and its 64 payload bits (R280, R282). -/
abbrev RawBlock := Bool × Nat

/-- A control block of a type with a 56-bit body (R282). -/
def controlBlock (type body : Nat) : RawBlock := (true, type + body % 2 ^ 56 * 2 ^ 8)

/-- A block scrambled on a lane, with its header and parity, and the lane's last 58 bits after it (R280,
R281). -/
def sealBlock (h : Nat) (b : RawBlock) : LaneBlock × Nat :=
  let sync := if b.1 then syncControl else syncData
  let r := scramble (bits64 b.2) h
  (⟨sync, ofBits r.1, parityOf sync (ofBits r.1)⟩, r.2)

/-- Blocks sealed in order. -/
def sealBlocks : Nat → List RawBlock → List LaneBlock × Nat
  | h, [] => ([], h)
  | h, b :: l =>
    let x := sealBlock h b
    let r := sealBlocks x.2 l
    (x.1 :: r.1, r.2)

/-- The descrambled payload of a block that followed one with payload `prev` on its lane (R281). -/
def payloadAfter (prev : Nat) (b : LaneBlock) : Nat := ofBits (descramble (bits64 b.payload) (scrAfter prev))

/-- A block error (R282, R285): parity error, invalid sync header, or a control type that is not one of R282;
`prev` is the block before it on the lane. -/
def blockErr (prev b : LaneBlock) : Bool :=
  parityOf b.sync b.payload != b.parity || (b.sync != syncData && b.sync != syncControl) ||
    (b.sync = syncControl &&
      !([typeIdle, typeTrain, typeFrame, typeByp, typeMark].contains (payloadAfter prev.payload b % 256)))

/-! ### Checksums (R294, R299; log entry 86) -/

/-- f applied n times. -/
def times (f : Nat → Nat) : Nat → Nat → Nat
  | 0, x => x
  | n + 1, x => times f n (f x)

/-- One bit of CRC-32C, polynomial 0x1EDC_6F41, least significant bit first (R294). -/
def crc32Bit (c : Nat) : Nat := if c % 2 = 1 then Nat.xor (c / 2) 0x82F63B78 else c / 2

/-- CRC-32C of bytes (R294). -/
def crc32c (bs : List Byte) : Nat :=
  Nat.xor (bs.foldl (fun c b => times crc32Bit 8 (Nat.xor c b.toNat)) 0xFFFFFFFF) 0xFFFFFFFF

/-- One bit of CRC-16, polynomial 0x1021, most significant bit first (R299). -/
def crc16Bit (c : Nat) : Nat := if c.testBit 15 then Nat.xor (2 * c % 2 ^ 16) 0x1021 else 2 * c % 2 ^ 16

/-- CRC-16 of bytes, initial value 0xFFFF (R299). -/
def crc16 (bs : List Byte) : Nat :=
  bs.foldl (fun c b => times crc16Bit 8 (Nat.xor c (b.toNat * 256))) 0xFFFF

/-! ### Frames, messages and words on a lane -/

/-- Body of a FRAME block (R294). -/
def frameBody (vc seq ack len : Nat) (first again : Bool) : Nat :=
  vc % 4 * 2 ^ 54 + seq % 2 ^ 20 * 2 ^ 34 + ack % 2 ^ 20 * 2 ^ 14 + len % 2 ^ 8 * 2 ^ 6 + first.toNat * 2 ^ 5 +
    again.toNat * 2 ^ 4

/-- CRC-32C of a frame: over its 7 header bytes and its 244 payload bytes (R294). -/
def frameCrc (body : Nat) (payload : List Byte) : Nat := crc32c (natLe 7 body ++ fixLen 244 payload)

/-- The data blocks that carry bytes, eight to a block, least significant byte first. -/
def dataBlocks (bs : List Byte) (n : Nat) : List RawBlock :=
  (List.range n).map fun i => (false, leNat ((bs.drop (8 * i)).take 8))

/-- The 32 blocks of a frame (R294). -/
def frameBlocks (vc seq ack len : Nat) (first again : Bool) (payload : List Byte) : List RawBlock :=
  let body := frameBody vc seq ack len first again
  controlBlock typeFrame body :: dataBlocks (fixLen 244 payload ++ natLe 4 (frameCrc body payload)) 31

/-- Bytes 0 to 13 of a bypass message (R299). -/
def bypBytes (kind arg reqno a0 a1 a2 : Nat) : List Byte :=
  natLe 1 typeByp ++ natLe 1 kind ++
    natLe 8 (a0 % 2 ^ 20 + a1 % 2 ^ 20 * 2 ^ 20 + a2 % 2 ^ 20 * 2 ^ 40 + reqno % 16 * 2 ^ 60) ++ natLe 4 arg

/-- The two blocks of a bypass message (R299). -/
def bypBlocks (kind arg reqno a0 a1 a2 : Nat) : List RawBlock :=
  let bs := bypBytes kind arg reqno a0 a1 a2
  let bs := bs ++ natLe 2 (crc16 bs)
  [(true, leNat (bs.take 8)), (false, leNat (bs.drop 8))]

/-- A MARK block (R282). -/
def markBlock (join : Bool) : RawBlock := controlBlock typeMark ((if join then 2 else 1) * 2 ^ 52)

/-- An IDLE block (R282). -/
def idleRaw : RawBlock := controlBlock typeIdle 0

/-- A TRAIN block: word index, the sender's state, and the word (R290). -/
def trainRaw (w : TrainWord) : RawBlock :=
  controlBlock typeTrain (w.index % 16 * 2 ^ 52 + w.state % 16 * 2 ^ 48 + w.word % 2 ^ 48)

end Sys2Proof.Machine

namespace Sys2Proof

/-- The CRC of a received frame holds (R294). -/
def Frame.crcOk (f : Frame) : Bool :=
  f.crc = Machine.frameCrc (Machine.frameBody f.vc f.seq f.ack f.len f.first f.again) f.payload

/-- The CRC of a received bypass message of a kind with an argument holds (R299). -/
def Byp.crcOk (b : Byp) (kind arg : Nat) : Bool :=
  b.crc = Machine.crc16 (Machine.bypBytes kind arg b.reqno b.ack0 b.ack1 b.ack2)

end Sys2Proof
end

