-- ==== Sys2Proof/Machine/LinkBase.lean ====
section
/-!
DEFINITION. Link ends: what they show, their lanes, numbers, credits and requests (R287, R303 to
R316, R322), transmit levels and lit lasers (R244, R262, R267, R273).
-/

namespace Sys2Proof.Machine

/-! ### Which link end -/

/-- Link ends: 32 fabric ports and the two ends of twelve die links (R14, R322). -/
def linkEnds : Nat := 56

/-- Die link of an end from 32 on. -/
def dieLinkOf (n : Nat) : Nat := (n - 32) / 2

/-- End e of die link l. -/
def dieEnd (l e : Nat) : Nat := 32 + 2 * l + e

/-- Chase whose slice a link end joins (R15, R322). -/
def endChase (n : Nat) : Nat :=
  if n < 32 then n / 8
  else if dieLinkOf n < 4 then (dieLinkOf n + (n - 32) % 2) % 4
  else (dieLinkOf n - 4) / 2

/-- The chase and index x whose DDL registers show a die-link end; none for an engine's end. -/
def ddlAt (n : Nat) : Option (Nat × Nat) :=
  if n < 32 then none
  else if dieLinkOf n < 4 then some (endChase n, (n - 32) % 2)
  else if (n - 32) % 2 = 0 then some (endChase n, 2 + (dieLinkOf n - 4) % 2)
  else none

/-- Data lanes of a link end's direction (R241, R322). -/
def dataLanes (n : Nat) : Nat := if n < 32 then 8 else if dieLinkOf n < 4 then 128 else 64

/-- Groups of a die link (R322). -/
def dieGroups (n : Nat) : Nat := dataLanes n / 16

/-- Lanes of a direction, spares included. -/
def allLanes (n : Nat) : Nat := if n < 32 then 9 else dataLanes n + 2 * dieGroups n

/-- Group that a die-link lane or spare serves (R322). -/
def laneGroup (n i : Nat) : Nat :=
  if i < dataLanes n then i / 16 else (i - dataLanes n) / 2

/-! ### Port banks, fibres and rings (R241, R245, R275) -/

/-- Fabric port of port bank j of engine k (R241). -/
def portOf (k j : Nat) : Nat := 4 * k + j

/-- Ring of port bank or fibre bank j, d 0 modulator 1 filter, wavelength w (R245). -/
def ringOf (j d w : Nat) : Nat := 20 * j + 10 * d + w

/-- Port bank of engine k that owns fibre f at wavelength w under a route (R275, R278). -/
def Imposition.bankOf (i : Imposition) (route k w f : Nat) : Nat :=
  leAt i.optics (272 + 64 * route + 8 * k + w) 1 / 4 ^ f % 4

/-- Port bank that owns fibre f at wavelength w of engine k under a route; LS and LC are never steered
(R275). -/
def State.bankBy (s : State) (route k w f : Nat) : Nat :=
  if 8 ≤ w then f
  else match s.active with
    | none => f
    | some i => i.bankOf route k w f

/-- Port bank that owns fibre f at wavelength w of engine k under the route in force (R275). -/
def State.bankAt (s : State) (k w f : Nat) : Nat := s.bankBy (s.rd .oeRouteCurrent k 0) k w f

/-- Fibre that wavelength w of port bank j of engine k uses under the route in force (R275). -/
def State.fibreOf (s : State) (k w j : Nat) : Nat :=
  ((List.range 4).find? fun f => s.bankAt k w f = j).getD j

/-- Index in OE_FIBRE_STATUS of the fibre of wavelength w of port n: d 0 transmit, 1 receive (R241, R275). -/
def State.fib (s : State) (n w d : Nat) : Nat := 2 * s.fibreOf (n / 4) w (n % 4) + d

/-- Port whose wavelength w uses the fibre of index f in OE_FIBRE_STATUS (R275). -/
def State.fibPort (s : State) (k f w : Nat) : Nat := portOf k (s.bankAt k w (f / 2))

/-- Fibre index of a ring: a modulator's by the route, a filter's its own (R241, R275). -/
def State.ringFib (s : State) (k r : Nat) : Nat :=
  if r / 10 % 2 = 0 then s.fib (portOf k (r / 20)) (r % 10) 0 else 2 * (r / 20) + 1

/-- The ring of a lane of port n: d 0 its modulator, 1 its filter (R241, R275). -/
def State.laneRing (s : State) (n w d : Nat) : Nat :=
  if d = 0 then ringOf (n % 4) 0 w else ringOf (s.fibreOf (n / 4) w (n % 4)) 1 w

/-! ### State, members, counters -/

/-- Lane states of LNK_LANE_i. -/
def laneDark : Nat := 0
def laneHunt : Nat := 1
def laneLocked : Nat := 2
def laneMember : Nat := 3
def laneRetrain : Nat := 4
def laneRetired : Nat := 5

/-- State of a link end, coded as LNK_STATUS state. -/
def State.endState (s : State) (n : Nat) : Nat := if n < 32 then s.lState n else (s.link n).state

/-- The end carries frames and bypass messages: UP, or a retrain that keeps them (R287). -/
def State.linkOpen (s : State) (n : Nat) : Bool := s.endState n = lUp || s.endState n = lRetrain

/-- State of receive lane i. -/
def State.lane (s : State) (n i : Nat) : Nat :=
  if n < 32 then s.rd .lnkLaneState n i else (s.link n).lanes.getD i 0

/-- Receive lane i in another state; rx_mask follows (R310). -/
def State.setLane (s : State) (n i st : Nat) : State :=
  if n < 32 then
    let s := s.wr .lnkLaneState n i st
    if st = laneMember then s.orBit .lnkStatusRxMask n 0 i else s.andNot .lnkStatusRxMask n 0 i
  else s.setLink n { s.link n with lanes := (s.link n).lanes.put i st }

/-- Lane i is a transmit member. -/
def State.txMember (s : State) (n i : Nat) : Bool :=
  if n < 32 then bit (s.rd .lnkStatusTxMask n 0) i else (s.link n).txLanes.contains i

/-- Transmit membership changed by a MARK sent (R310). -/
def State.setTx (s : State) (n i : Nat) (on : Bool) : State :=
  if n < 32 then
    if on then s.orBit .lnkStatusTxMask n 0 i else s.andNot .lnkStatusTxMask n 0 i
  else
    let x := s.link n
    let rest := x.txLanes.filter fun j => !decide (j = i)
    s.setLink n { x with txLanes := if on then rest ++ [i] else rest }

/-- Width of the transmit direction (R310). -/
def State.txWidth (s : State) (n : Nat) : Nat :=
  ((List.range (allLanes n)).filter fun i => s.txMember n i).length

/-- Lane i is a receive member: a port's mask keeps the members that hunt in a retrain or a steering window
(R276, R316). -/
def State.rxMember (s : State) (n i : Nat) : Bool :=
  if n < 32 then bit (s.rd .lnkStatusRxMask n 0) i else s.lane n i = laneMember

/-- Width of the receive direction (R310). -/
def State.rxWidth (s : State) (n : Nat) : Nat :=
  ((List.range (allLanes n)).filter fun i => s.rxMember n i).length

/-- Blocks start on a lane of link end n, scrambled and with their parity (R280, R281). -/
def State.emit (s : State) (n lane : Nat) (l : List RawBlock) : State :=
  let r := sealBlocks (s.rd .hLnkScramble n lane) l
  (s.wr .hLnkScramble n lane r.2).send (.blocks n lane r.1)

/-- A count of a fabric port raised. -/
def State.count (s : State) (n : Nat) (f : Field) : State := if n < 32 then s.bump f n 0 1 else s

/-- A count of a die link raised where the end has registers. -/
def State.ddlCount (s : State) (n : Nat) (f : Field) : State :=
  match ddlAt n with
  | some (c, x) => s.bump f c x 1
  | none => s

/-! ### Numbers and credits (R303, R305) -/

/-- (a - b) modulo 2^48 lies in the lower half: a is not before b (R305). -/
def seqGe (a b : Nat) : Bool := (a + 2 ^ 48 - b % 2 ^ 48) % 2 ^ 48 < 2 ^ 47

/-- The 48-bit number that a 20-bit value names near a reference (R305). -/
def extend (ref v : Nat) : Nat :=
  let lo := (ref + 2 ^ 48 - 2 ^ 19) % 2 ^ 48
  (lo + (v + 2 ^ 20 - lo % 2 ^ 20) % 2 ^ 20) % 2 ^ 48

/-- tx_next of a channel. -/
def State.txNext (s : State) (n v : Nat) : Nat :=
  if n < 32 then s.rd .lnkTxSeqNext n v else (s.link n).txSeq.getD v 0

/-- tx_next set. -/
def State.setTxNext (s : State) (n v x : Nat) : State :=
  if n < 32 then s.wr .lnkTxSeqNext n v x
  else s.setLink n { s.link n with txSeq := (s.link n).txSeq.put v (x % 2 ^ 48) }

/-- rx_expected of a channel. -/
def State.rxExp (s : State) (n v : Nat) : Nat :=
  if n < 32 then s.rd .lnkRxSeqExpected n v else (s.link n).rxSeq.getD v 0

/-- rx_expected set. -/
def State.setRxExp (s : State) (n v x : Nat) : State :=
  if n < 32 then s.wr .lnkRxSeqExpected n v x
  else s.setLink n { s.link n with rxSeq := (s.link n).rxSeq.put v (x % 2 ^ 48) }

/-- LNK_CREDIT field of a channel. -/
def creditField (v : Nat) : Field :=
  if v = 0 then .lnkCreditVc0 else if v = 1 then .lnkCreditVc1 else .lnkCreditVc2

/-- Credits in hand. -/
def State.credit (s : State) (n v : Nat) : Nat :=
  if n < 32 then s.rd (creditField v) n 0 else (s.link n).credit.getD v 0

/-- Credits in hand set. -/
def State.setCredit (s : State) (n v x : Nat) : State :=
  if n < 32 then s.wr (creditField v) n 0 x
  else s.setLink n { s.link n with credit := (s.link n).credit.put v (x % 2 ^ 16) }

/-- Credits that this end grants at IDENT: its receive buffers (R295, R324). -/
def grant (n v : Nat) : Nat :=
  if n < 32 then (if v = 0 then 2048 else if v = 1 then 256 else 1024)
  else (if v = 0 then 8192 else if v = 1 then 512 else 0)

/-- Unacknowledged frames that one space may hold (R305, R324). -/
def unackedLimit (n v : Nat) : Nat :=
  if n < 32 then 2 ^ 18 else if v = 0 then 4096 else 512

/-- Cumulative acknowledgement of a channel, as its frames carry it (R306). -/
def State.ackOf (s : State) (n v : Nat) : Nat := (s.rxExp n v + 2 ^ 48 - 1) % 2 ^ 20

/-- LNK_TX_SEQ unacked and FAB_PORT retained follow the lists. -/
def State.linkFields (s : State) (n : Nat) : State :=
  if n < 32 then
    let x := s.link n
    let cnt (v : Nat) := (x.unacked.filter fun y => y.vc = v).length
    let s := ((s.wr .lnkTxSeqUnacked n 0 (cnt 0)).wr .lnkTxSeqUnacked n 1 (cnt 1)).wr
      .lnkTxSeqUnacked n 2 (cnt 2)
    s.wr .fabPortRetained 0 n (min (2 ^ 32 - 1) x.retained.length)
  else s

/-- Channel and number of the frames that the replay buffer and the spill region of a port hold, oldest
first: each is held until it is acknowledged and, of VC0, until it is released to the peer, whichever is later
(R167, R168, R361). -/
def Link.heldIds (x : Link) : List (Nat × Nat) :=
  let ids := (x.retained ++ x.unacked).map fun y => (y.vc, y.seq)
  x.heldOrder.filter fun e => ids.contains e

/-- A released frame leaves the buffer or the spill region; while the buffer holds more than 3 MiB, its oldest
frames move to the spill region in blocks of 64 KiB, 256 frames (R167, R168). -/
def Link.spill (x : Link) : Link :=
  let held := x.heldIds
  let kept := x.spilled.filter fun e => held.contains e
  let buf := held.filter fun e => !kept.contains e
  { x with
    heldOrder := held
    spilled := if 12288 < buf.length then kept ++ buf.take ((buf.length - 12288 + 255) / 256 * 256) else kept }

/-- Frames that the spill region of port n can hold (R167; log entry 12). -/
def spillFrames (n : Nat) : Nat := Config.spillBytes n / 256

/-- GAL_STATUS retain_high of a chase (R168). -/
def State.retainHigh (s : State) (c : Nat) : State :=
  s.wr .galStatusRetainHigh c 0 (b2n ((List.range 8).any fun j =>
    decide (7 * spillFrames (8 * c + j) < 8 * (s.link (8 * c + j)).spilled.length)))

/-- A fabric port's buffers after frames came or went (R167, R168). -/
def State.settleLink (s : State) (n : Nat) : State :=
  if n < 32 then ((s.setLink n (s.link n).spill).retainHigh (n / 8)).linkFields n else s

/-- The spill region of port n has no room (R168). -/
def State.spillFull (s : State) (n : Nat) : Bool :=
  n < 32 && !(s.link n).spilled.isEmpty && spillFrames n ≤ (s.link n).spilled.length

/-- A cumulative acknowledgement releases frames; one of a frame that a REWIND governs ends its repeats (R306,
R301). -/
def State.ackRx (s : State) (n v a : Nat) : State :=
  let x := s.link n
  let mine := x.unacked.filter fun y => y.vc = v
  match mine with
  | [] => s
  | y :: r =>
    let old := r.foldl (fun o z => if seqGe z.seq o then o else z.seq) y.seq
    let k := extend old a
    let gone (z : LFrame) : Bool := z.vc = v && seqGe k z.seq
    if mine.any gone then
      (s.setLink n { x with
        unacked := x.unacked.filter fun z => !gone z
        resendQ := x.resendQ.filter fun z => !gone z.1
        rewinds := match x.rewinds.get? v with
          | some b => if mine.any fun z => gone z && seqGe z.seq b then x.rewinds.del v else x.rewinds
          | none => x.rewinds }).settleLink n
    else s

/-! ### Transmit levels and lit lasers -/

/-- The laser of wavelength w of engine k in unit u (R262). -/
def laserIndex (u k w : Nat) : Nat := 80 * u + 10 * k + w

/-- Unit whose laser is the primary of engine k (R262). -/
def primaryUnit (k : Nat) : Nat := k % 2

/-- State of a laser source unit. -/
def State.unitState (s : State) (u : Nat) : Nat :=
  s.rd (if u = 0 then .lsuStatusState else .lsuStatusStateB) 0 0

/-- The indicator of a laser unit (R523). -/
inductive Lamp where
  | off
  | green
  | amberFlashing
  | blue
  | red
deriving DecidableEq, Repr

/-- What the indicator of unit u shows (R523). -/
def State.lamp (s : State) (u : Nat) : Lamp :=
  let x := s.unitState u
  if x = 3 then .green
  else if x = 1 || x = 2 || x = 4 then .amberFlashing
  else if x = 5 then .blue
  else if x = 7 then .red
  else .off

/-- A laser can be lit: its unit is bolted and in service with its rail not cut, and it is not RETIRED
(R264, R269, R398). -/
def State.canLight (s : State) (n : Nat) : Bool :=
  (s.unitState (n / 80) = 2 || s.unitState (n / 80) = 3 || s.unitState (n / 80) = 4) &&
    s.rd (if n / 80 = 0 then .lsuStatusBolted else .lsuStatusBoltedB) 0 0 = 1 &&
    s.rd .pwrRailState 0 (24 + n / 80) != 3 && s.rd .lsuLaserStage 0 n != 4

/-- Port n is dark after its link went down (R320). -/
def State.darkNow (s : State) (n : Nat) : Bool := s.now < s.rd .hLnkDarkEnd n 0

/-- Transmit level of a fibre as it is now: none on one that a link-down darkened (R273, R320). -/
def State.fibreLevel (s : State) (k f : Nat) : Nat :=
  if f % 2 = 0 && s.darkNow (portOf k (f / 2)) then 0 else s.rd .oeFibreStatusLevel k f

/-- The selector of wavelength w of port bank j of engine k passes light: at NORMAL those of the lit lanes,
in a poll those of LC and L0, at SAFE_IDLE that of LC; every other one blocks (R273, R278). -/
def State.selOpen (s : State) (k j w : Nat) : Bool :=
  let level := s.fibreLevel k (2 * j)
  if level = 3 then
    8 ≤ w || match s.portRec (portOf k j) with
      | some r => bit r.dataMask w
      | none => false
  else if level = 2 then w = 9 || w = 0
  else level = 1 && w = 9

/-- LSU_LASER banks of laser n: the port banks that have chosen it and do not block (R262, R273). -/
def State.bankMask (s : State) (n : Nat) : Nat :=
  (((List.range 4).filter fun j =>
    bit (s.rd .hLsuSel 0 n) j && s.selOpen (n % 80 / 10) j (n % 10)).map (2 ^ ·)).sum

/-- A laser's light: 0 DARK, 1 WARMING, 2 READY, 3 CARRYING, and the port banks whose selectors choose
it. -/
def State.light (s : State) (n lit banks : Nat) : State :=
  (s.wr .lsuLaserLit 0 n lit).wr .hLsuSel 0 n banks

/-- Port bank j takes its light for one wavelength from laser dst instead of src (R262, R265). -/
def State.moveBank (s : State) (src dst j : Nat) : State :=
  let b := clrBit (s.rd .hLsuSel 0 src) j
  let s := if s.rd .lsuLaserLit 0 src = 3 then s.light src (if b = 0 then 2 else 3) b else s
  s.light dst 3 (setBit (s.rd .hLsuSel 0 dst) j)

/-- A run of a calibration starts (R443). -/
def State.calStart (s : State) (i : Nat) : State := s.bump .calRecRuns 0 i 1

/-- The other unit's laser of the same wavelength and engine (R262). -/
def twinOf (n : Nat) : Nat := (n + 80) % 160

/-- A laser's light is turned on to warm up (R264); its calibration record counts a run (R442). -/
def State.warm (s : State) (n : Nat) : State :=
  if s.rd .lsuLaserLit 0 n = 0 && s.canLight n && s.rd .oeStatusState (n % 80 / 10) 0 != 0 then
    (s.light n 1 0).calStart (528 + n)
  else s

/-- A lit laser of engine k in PREPARE has its twin lit again after the engine was dark (R264). -/
def State.warmTwins (s : State) (k : Nat) : State :=
  s.each (List.range 20) fun s i =>
    let n := laserIndex (i / 10) k (i % 10)
    if s.rd .lsuLaserStage 0 n = 2 && s.rd .lsuLaserLit 0 n = 3 then s.warm (twinOf n) else s

/-- Lasers of engine k for wavelength w are lit while the engine is on (R244, R262, R267). -/
def State.lightLane (s : State) (k : Nat) (on : Bool) (w : Nat) : State :=
  let p := laserIndex (primaryUnit k) k w
  let q := laserIndex (1 - primaryUnit k) k w
  if on then
    let s :=
      if s.rd .lsuLaserLit 0 p = 3 || s.rd .lsuLaserLit 0 q = 3 || s.rd .lsuLaserLit 0 p = 1 ||
          s.rd .lsuLaserLit 0 q = 1 then s
      else if s.canLight p then s.light p 3 15
      else if s.canLight q then s.light q 3 15
      else s
    if w = 9 then
      let r := if s.rd .lsuLaserLit 0 p = 3 then q else p
      if s.rd .lsuLaserLit 0 r = 0 && s.canLight r then s.light r 2 0 else s
    else s
  else (s.light p 0 0).light q 0 0

/-- cover_ok of unit u: the other unit is in service, and each of its lasers that would have to carry a lane
of unit u can be lit (R269). -/
def State.coverOk (s : State) (u : Nat) : Bool :=
  2 ≤ s.unitState (1 - u) && s.unitState (1 - u) ≤ 4 &&
    (List.range 80).all fun i =>
      s.rd .lsuLaserLit 0 (80 * u + i) != 3 || s.canLight (80 * (1 - u) + i)

/-- LSU_STATUS cover_ok of both units. -/
def State.covers (s : State) : State :=
  (s.wr .lsuStatusCoverOk 0 0 (b2n (s.coverOk 0))).wr .lsuStatusCoverOkB 0 0 (b2n (s.coverOk 1))

/-- Swaps of an engine that goes dark end; a laser in SWAP is then unbiased and RETIRED (R264). -/
def State.dropSwaps (s : State) (k : Nat) : State :=
  let mine := s.swaps.filter fun x => x.engine = k
  let s := { s with swaps := s.swaps.filter fun x => !decide (x.engine = k) }
  s.each mine fun s x => if s.rd .lsuLaserStage 0 x.src = 3 then s.wr .lsuLaserStage 0 x.src 4 else s

/-- Counts and logs that an engine and its ports lose with their power (R503). -/
def engineLost : List Field :=
  [.oeCalEventsPreempted, .oeCalEventsThirdRuns, .oeCalEventsFailed, .oeCalEventsMislocks, .oeLossFaultValid,
    .oeLossFaultExcess, .oeLossFaultElement, .oeLossFaultBank, .oeLossFaultDir, .oeLossFaultWavelength]

/-- The same of a port (R503). -/
def portLost : List Field :=
  [.lnkErrCountsBlockErrors, .lnkErrCountsCrcErrors, .lnkErrCountsResends, .lnkErrCountsLaneDrops,
    .lnkEventsDowns, .lnkEventsAbsent, .lnkEventsWithdrawals, .lnkEventsRetires, .lnkStatusLastDown]

/-- An engine loses its power: its counts and logs go (R244, R503). -/
def State.engineDark (s : State) (k : Nat) : State :=
  let s := s.each engineLost fun s f => s.clr f k 0
  s.each [4 * k, 4 * k + 1, 4 * k + 2, 4 * k + 3] fun s q => s.each portLost fun s f => s.clr f q 0

/-! ### Spares, rings and lasers of an engine -/

/-- Spare uses of OE_FIBRE_STATUS_f. -/
def suFree : Nat := 0
def suCal : Nat := 1
def suSwap : Nat := 2
def suMislock : Nat := 3
def suSudden : Nat := 4
def suRetired : Nat := 5
def suUnavailable : Nat := 6

/-- Use of the spare of fibre f of engine k. -/
def State.spareUse (s : State) (k f : Nat) : Nat := s.rd .oeFibreStatusSpareUse k f

/-- The spare of a fibre put to a use for a lane. -/
def State.putSpare (s : State) (k f use lane : Nat) : State :=
  (s.wr .oeFibreStatusSpareUse k f use).wr .oeFibreStatusSpareLane k f
    (if use = suFree || use = suUnavailable then 15 else lane)

/-- A change of calibration mode takes effect on a fibre pair once no calibration runs there (R255). -/
def State.calMode (s : State) (k g : Nat) : State :=
  if s.calJobs.any fun c => c.engine = k && c.fibre = g then s
  else s.wr .hOeCalMode k g (s.rd .oeCalCtrlMode k 0)

/-- A ring stays parked while it is suspect, or its lane or spare retired (R251, R314). -/
def State.ringOut (s : State) (k r : Nat) : Bool :=
  s.on .oeRingSuspect k r || (r % 10 < 8 && bit (s.rd .oeFibreStatusRetired k (s.ringFib k r)) (r % 10)) ||
    (r % 10 = 8 && s.on .hOeSpareGone k (s.ringFib k r))

/-- The spare of fibre f is out of use until the next start-up proof: its LS is retired or its ring suspect
(R251, R314). -/
def State.spareGone (s : State) (k f : Nat) : Bool :=
  s.on .hOeSpareGone k f || s.on .oeRingSuspect k (ringOf (f / 2) (f % 2) 8)

/-- Every ring of an engine parks, and what was in hand for a ring ends (R244, R274): calibrations, with a
change of mode that waited for them (R255), and what kept a spare UNAVAILABLE for the time being (R251,
R268). -/
def State.parkRings (s : State) (k : Nat) : State :=
  let s := s.each (List.range 80) fun s r =>
    s.wrAll [(.oeRingState, k, r, 0), (.oeRingDrive, k, r, 0), (.hOeRecover, k, r, 0), (.hOeHoldEnd, k, r, 0)]
  let s : State := { s with calJobs := s.calJobs.filter fun c => !decide (c.engine = k) }
  let s := s.each (List.range 4) fun s g => s.calMode k g
  s.each (List.range 8) fun s f =>
    if s.spareUse k f = suUnavailable && !s.spareGone k f then s.putSpare k f suFree 15 else s

/-- The rings of an engine that leaves OFF power up on their lock codes (R244; log entry 84). -/
def State.powerRings (s : State) (k : Nat) : State :=
  s.each (List.range 80) fun s r => if s.ringOut k r then s else s.wr .oeRingState k r 2

/-- OE_STATUS, the rings and the lasers of engine k follow its ports (R244, R267, R273). -/
def State.refreshEngine (s : State) (k : Nat) : State :=
  let ports := [4 * k, 4 * k + 1, 4 * k + 2, 4 * k + 3]
  let on := ports.any fun q => s.lState q != lOff
  let act := ports.any fun q => s.lState q = lUp || s.lState q = lRetrain
  let st := if s.on .oeStatusShutdown k 0 then 3 else if act then 2 else if on then 1 else 0
  let lit := ((List.range 4).map fun j =>
    if s.rd .oeFibreStatusLevel k (2 * j) = 3 then 2 ^ j else 0).sum
  let old := s.rd .oeStatusState k 0
  let s := if st = 0 && old != 0 then s.engineDark k else s
  let s := (s.wr .oeStatusState k 0 st).wr .oeStatusFibresLit k 0 lit
  let live := on && !s.on .oeStatusShutdown k 0
  let s := if live then s else s.dropSwaps k
  let s := if live && (old = 0 || old = 3) then s.powerRings k
    else if !live && (old = 1 || old = 2) then s.parkRings k else s
  let s := s.each (List.range 10) fun s w => s.lightLane k live w
  (if live then s.warmTwins k else s).covers

/-- Transmit level of a port's state (R273, R287). -/
def levelOf (st : Nat) : Nat :=
  if st = lOff then 0 else if st = lAbsent || st = lClock || st = lMismatch then 1 else 3

/-- Every port of forme x's port_set on engine k, of which there is one, is OFF, ABSENT or MISMATCH (R236). -/
def State.portsDark (s : State) (x : Forme) (k : Nat) : Bool :=
  let ports := (bitsSet x.portSet 32).filter fun q => q / 4 = k
  !ports.isEmpty && ports.all fun q => s.lState q = lOff || s.lState q = lAbsent || s.lState q = lMismatch

/-- An engine whose forme's ports have all gone dark is lost, until it is taken back at a boundary (R236). -/
def State.noteLost (s : State) (k : Nat) : State :=
  match s.active with
  | none => s
  | some i =>
    if i.formes.any fun x => bit x.engineSet k && s.portsDark x k then s.wr .hOeLost k 0 1 else s

/-- Fabric port n enters a state (R236, R273, R287, R484). -/
def State.setPort (s : State) (n st : Nat) : State :=
  let old := s.lState n
  let s := s.wr .lnkStatusState n 0 st
  let lvl := if s.on .oeStatusShutdown (n / 4) 0 then 0 else levelOf st
  let s := s.wr .oeFibreStatusLevel (n / 4) (2 * (n % 4)) lvl
  let s :=
    if (st = lAbsent && old != lAbsent) || (st = lMismatch && old != lMismatch) ||
        (old = lUp && st != lUp) then s.wr .coreIrqEventsLink 0 0 1
    else s
  (s.noteLost (n / 4)).refreshEngine (n / 4)

/-- DDL_STATUS state of a die-link end (R336). -/
def ddlState (st : Nat) : Nat :=
  if st = lOff then 0 else if st = lUp || st = lRetrain then 2 else if st = lAbsent then 3 else 1

/-- A link end enters a state. -/
def State.setEnd (s : State) (n st : Nat) : State :=
  if n < 32 then s.setPort n st
  else
    let s := s.setLink n { s.link n with state := st }
    match ddlAt n with
    | some (c, x) => s.wr .ddlStatusState c x (ddlState st)
    | none => s

/-- Every lane of a link end goes dark, LC included; retired lanes stay so (R320, R385). -/
def State.darkLanes (s : State) (n : Nat) : State :=
  let s := s.each (List.range (allLanes n)) fun s i =>
    if s.lane n i = laneRetired then s else s.setLane n i laneDark
  if n < 32 then (s.wr .lnkStatusTxMask n 0 0).wr .lnkStatusClockOk n 0 0
  else s.setLink n { s.link n with txLanes := [] }

/-- Port n carries no lanes any more: none of them stands on a spare, retired ones excepted, no need of theirs
waits for one, and no swap has one of them on its way (R252, R320). -/
def State.leaveSpares (s : State) (n : Nat) : State :=
  let k := n / 4
  let s := s.each (List.range 8) fun s f =>
    if 1 ≤ s.spareUse k f && s.spareUse k f ≤ 4 && s.fibPort k f (s.rd .oeFibreStatusSpareLane k f) = n then
      s.putSpare k f suFree 15
    else s
  { s with
    spareNeeds := s.spareNeeds.filter fun d =>
      !(decide (d.engine = k) && decide (s.fibPort k d.fibre d.lane = n) && decide (d.rank != 4))
    swaps := s.swaps.map fun (x : Swap) =>
      if x.engine = k && x.banks.head? = some (n % 4) then { x with moving := false } else x }

/-- Fabric port n goes OFF (R252, R367, R385). -/
def State.portOff (s : State) (n : Nat) : State :=
  let s := ((s.darkLanes n).leaveSpares n).setPort n lOff
  s.setLink n { s.link n with bypQ := [], newQ := [], resendQ := [], rxHeld := [], transfer := [],
                              marks := [], behind := [], request := none, again := [], wait := [], peerCal := false,
                              waiting := false, retraining := false }

/-- A link end enters CLOCK with a count of zero attempts (R287, R320). -/
def State.toClock (s : State) (n t : Nat) : State :=
  let s := s.setLink n { s.link n with tries := 0, since := t, waiting := false, retraining := false,
                                       train := Training.init }
  let s := if n < 32 then s.wr .lnkStatusAttempts n 0 0 else s
  s.setEnd n lClock

/-! ### Die links: groups and widths (R328 to R334) -/

/-- The other end of a die link. -/
def otherEnd (n : Nat) : Nat := dieEnd (dieLinkOf n) (1 - (n - 32) % 2)

/-- min_width of die link l in ROUTING (R340). -/
def Imposition.minWidth (i : Imposition) (l : Nat) : Nat := leAt i.routing (16 + 8 * l) 1 % 4

/-- The end whose DDL registers stand for die link l: its chase's (R322). -/
def ddlOf (l : Nat) : Nat × Nat :=
  if l < 4 then (l, 0) else ((l - 4) / 2, 2 + (l - 4) % 2)

/-- A field written in the DDL registers of both ends of a link. -/
def State.ddlWr (s : State) (l : Nat) (f : Field) (v : Nat) : State :=
  let s := s.wr f (ddlOf l).1 (ddlOf l).2 v
  if l < 4 then s.wr f ((l + 1) % 4) 1 v else s

/-- A count raised in the DDL registers of both ends of a link. -/
def State.ddlBump (s : State) (l : Nat) (f : Field) : State :=
  let s := s.bump f (ddlOf l).1 (ddlOf l).2 1
  if l < 4 then s.bump f ((l + 1) % 4) 1 1 else s

/-- Negotiated revision of a die link (R327). -/
def State.dieRev (s : State) (l : Nat) : Nat := s.rd .ddlStatusRev (ddlOf l).1 (ddlOf l).2

/-- Width of a die link: 0 full, 1 half, 2 quarter, 3 down (R331). -/
def State.dieWidth (s : State) (l : Nat) : Nat := s.rd .ddlStatusWidth (ddlOf l).1 (ddlOf l).2

/-- The narrowest width at which a die link stays up: the wider of min_width and the revision's
(R328, R336). -/
def State.dieNarrowest (s : State) (l : Nat) : Nat :=
  let m := match s.active with
    | some i => i.minWidth l
    | none => 2
  min m (if s.dieRev l ≤ 1 then 1 else 2)

/-- Lanes of a group, spares included. -/
def groupLanes (n g : Nat) : List Nat :=
  (List.range 16).map (fun i => 16 * g + i) ++ [dataLanes n + 2 * g, dataLanes n + 2 * g + 1]

/-- Lane i of a die-link receiver has a place in the link: a data lane that no spare stands for, or a spare
that stands for one (R327, R329). -/
def State.placed (s : State) (n i : Nat) : Bool :=
  if i < dataLanes n then !(s.link n).covers.any (fun e => e.2 = i) else (s.link n).covers.any fun e => e.1 = i

/-- Group g is healthy at the receiver of end n (R330). -/
def State.groupOk (s : State) (n g : Nat) : Bool :=
  let x := s.link n
  !x.clockLost.contains g && !x.short.contains g &&
    ((groupLanes n g).filter fun i => s.lane n i = laneRetired).length < 3

/-- Lanes of group g at the receiver of end n that have a place and hold block lock: data can be taken from them
(R288, R330). -/
def State.readyLanes (s : State) (n g : Nat) : Nat :=
  ((groupLanes n g).filter fun i =>
    s.placed n i && (s.lane n i = laneLocked || s.lane n i = laneMember)).length

/-- Groups of link l healthy in both directions (R331). -/
def State.healthyGroups (s : State) (l : Nat) : List Nat :=
  (List.range (dieGroups (dieEnd l 0))).filter fun g =>
    s.groupOk (dieEnd l 0) g && s.groupOk (dieEnd l 1) g

/-- DDL_STATUS groups_ok and spares_used follow (R330). -/
def State.groupFields (s : State) (l : Nat) : State :=
  let ok := ((s.healthyGroups l).map fun g => 2 ^ g).sum
  let s := s.ddlWr l .ddlStatusGroupsOk ok
  let used (n : Nat) := ((List.range (dieGroups n)).map fun g =>
    ((s.link n).covers.filter fun e => laneGroup n e.1 = g).length * 4 ^ g).sum
  let s := s.wr .ddlStatusSparesUsed (ddlOf l).1 (ddlOf l).2 (used (dieEnd l 0))
  if l < 4 then s.wr .ddlStatusSparesUsed ((l + 1) % 4) 1 (used (dieEnd l 1)) else s

/-- Groups that a width uses. -/
def widthGroups (l w : Nat) : Nat := dieGroups (dieEnd l 0) / 2 ^ w

/-- The widest width that the healthy groups fill (R328, R331); none if there is none. -/
def State.fillWidth (s : State) (l : Nat) : Option Nat :=
  [0, 1, 2].find? fun w => w ≤ s.dieNarrowest l && widthGroups l w ≤ (s.healthyGroups l).length

/-- Group mask of a width: the lowest-numbered healthy groups (R331). -/
def State.groupMask (s : State) (l w : Nat) : Nat :=
  (((s.healthyGroups l).take (widthGroups l w)).map fun g => 2 ^ g).sum

/-- Groups in use. -/
def State.groupsInUse (s : State) (l : Nat) : Nat :=
  ((List.range (dieGroups (dieEnd l 0))).map fun g =>
    b2n ((groupLanes (dieEnd l 0) g).any fun i => s.txMember (dieEnd l 0) i) * 2 ^ g).sum

/-- The group mask that link l wants: that of the widest width that its healthy groups fill, reached step by step
where that is wider; none where that mask is in use, or no width fits (R331, R332, R334). -/
def State.wantedMask (s : State) (l : Nat) : Option Nat :=
  match s.fillWidth l with
  | none => none
  | some w =>
    let cur := s.dieWidth l
    let mask := s.groupMask l (if w < cur then cur - 1 else w)
    if mask = s.groupsInUse l then none else some mask

/-- The need of a die-link end's REJOIN of a lane stands: the lane is LOCKED and out of its place, or out of a
group in use (R329, R333). -/
def State.wantsRejoin (s : State) (n i : Nat) : Bool :=
  s.lane n i = laneLocked && i < dataLanes n &&
    (!s.placed n i || bit (s.groupsInUse (dieLinkOf n)) (laneGroup n i))

/-! ### Requests (R311, R312) -/

/-- Identity of a link end: a port's (R300), or a chase number (R327). -/
def State.endIdentity (s : State) (n : Nat) : Nat :=
  if n < 32 then s.identity * 32 + n else endChase n

/-- arg of LANE_REQ (R300). -/
def laneArg (ident lane action : Nat) : Nat := ident * 2 ^ 11 + lane * 2 ^ 7 + action * 2 ^ 4

/-- The lane that a LANE_REQ of link end n's own names; that of a die link takes as many bits as it needs (R300;
log entry 91). -/
def State.reqLane (s : State) (n arg : Nat) : Nat :=
  if n < 32 then bitsAt arg 7 4 else (arg - s.endIdentity n * 2 ^ 11) / 2 ^ 7

/-- A request is issued, or waits until the outstanding one is answered (R311). -/
def State.issue (s : State) (n kind arg : Nat) : State :=
  let x := s.link n
  match x.request with
  | some _ => s.setLink n { x with again := x.again ++ [(kind, arg)] }
  | none =>
    let r := (x.reqno + 1) % 16
    (s.setLink n { x with reqno := r, request := some ⟨kind, arg, r, 0⟩ }).sendByp n kind arg r

/-- A port retrain is asked for at once: the request outstanding is asked again after it, for every lane trains
anew (R311, R316; log entry 91). -/
def State.issueFirst (s : State) (n kind arg : Nat) : State :=
  let x := s.link n
  match x.request with
  | some r => (s.setLink n { x with request := none, again := x.again ++ [(r.kind, r.arg)] }).issue n kind arg
  | none => s.issue n kind arg

/-- LANE_REQ issued for a lane and an action (R311). -/
def State.laneReq (s : State) (n lane action : Nat) : State :=
  s.issue n 0x20 (laneArg (s.endIdentity n) lane action)

/-- A request that is to be issued again, a port retrain before every other (R312, R316). -/
def askAgain (l : List (Nat × Nat)) (kind arg : Nat) : List (Nat × Nat) :=
  if kind = 0x40 then (kind, arg) :: l else l ++ [(kind, arg)]

/-- The first of the requests that wait whose need a change has not met (R333): a die link's width request asks
for the mask that is wanted now. -/
def State.nextRequest (s : State) (n : Nat) : List (Nat × Nat) → Option ((Nat × Nat) × List (Nat × Nat))
  | [] => none
  | (k, a) :: r =>
    if n < 32 then some ((k, a), r)
    else if k = 0x30 then
      match s.wantedMask (dieLinkOf n) with
      | none => s.nextRequest n r
      | some m => some ((k, m), r)
    else if k = 0x20 && !s.wantsRejoin n (s.reqLane n a) then s.nextRequest n r
    else some ((k, a), r)

/-- The next waiting request is issued, once what the peer asked for with the higher identity is complete
(R312, R333): its calibration, its width, and the MARKs that carry it out; in a retrain only the request for
it (R316). -/
def State.issueNext (s : State) (n : Nat) : State :=
  let x := s.link n
  if x.request.isNone && !x.peerCal && x.wait.isEmpty && x.widthReq.isNone then
    match s.nextRequest n x.again with
    | none => if 32 ≤ n then s.setLink n { x with again := [] } else s
    | some ((k, a), r) =>
      if x.retraining && k != 0x40 then s else (s.setLink n { x with again := r }).issue n k a
  else s

/-- MARKs that a link end has still to send, those behind an acknowledgement included (R310, R311). -/
def Link.toMark (x : Link) : List (Nat × Bool) := x.marks ++ x.behind.map Prod.snd

/-- An acknowledgement with a number has started: the MARKs that carry the request out may follow (R311). -/
def Link.acked (x : Link) (reqno : Nat) : Link :=
  { x with
    marks := x.marks ++ (x.behind.filter fun e => e.1 = reqno).map Prod.snd
    behind := x.behind.filter fun e => e.1 != reqno }

/-- MARKs to send on lanes (R310). -/
def State.mark (s : State) (n : Nat) (l : List (Nat × Bool)) : State :=
  s.setLink n { s.link n with marks := (s.link n).marks ++ l }

/-- Whether this end's request proceeds against the peer's (R312, R333, R351): the higher identity;
between members of a pair the active; on an engine link the chase. -/
def State.outranks (s : State) (n peer : Nat) : Bool :=
  if 40 ≤ n then (n - 32) % 2 = 0
  else if s.endIdentity n = peer then s.rd .pairStatusRole 0 0 = 1
  else peer < s.endIdentity n

/-- Acknowledgement kind of a request kind (R300, R352, R374). -/
def ackKind (kind : Nat) : Nat :=
  if kind = 0x20 then 0x22 else kind + 1

/-- A MARK of this end was sent, or one of the peer's received: what waited for it goes on (R312). -/
def State.markSeen (s : State) (n : Nat) (mine : Bool) (lane : Nat) (join : Bool) : State :=
  let x := s.link n
  if x.wait.contains (mine, lane, join) then
    (s.setLink n { x with wait := x.wait.erase (mine, lane, join) }).issueNext n
  else s

/-- MARKs of the peer that carry out its LANE_REQ (R311). -/
def State.peerMarks (s : State) (n kind arg : Nat) : List (Bool × Nat × Bool) :=
  let lane := bitsAt arg 7 4
  let act := bitsAt arg 4 3
  if kind != 0x20 then []
  else if act = 0 && s.rxMember n lane then [(false, lane, false)]
  else if (act = 1 || act = 3) && s.rxMember n 8 then [(false, 8, false)]
  else []

/-- The MARKs that a request of the peer added wait behind its acknowledgement (R311). -/
def State.holdMarks (s : State) (n : Nat) (before : List (Nat × Bool)) (reqno : Nat) : State :=
  let x := s.link n
  let new := x.marks.filter fun m => !before.contains m
  s.setLink n { x with
    marks := x.marks.filter fun m => before.contains m
    behind := x.behind ++ new.map fun m => (reqno, m) }

/-- A request received (R311, R312): a repeat of the last one carried out is acknowledged again; in
a collision one end withdraws; else it is acknowledged and carried out. -/
def State.receiveReq (s : State) (n kind arg reqno peer : Nat) (run : State → State) : State :=
  let x := s.link n
  if x.served = some (kind, reqno, arg) then s.sendByp n (ackKind kind) arg reqno
  else
    let take (s : State) : State :=
      (run ((s.setLink n { s.link n with served := some (kind, reqno, arg) }).sendByp n
        (ackKind kind) arg reqno)).holdMarks n x.toMark reqno
    match x.request with
    | none => take s
    | some r =>
      if r.kind = 0x81 || kind = 0x81 then take s
      else if s.outranks n peer then s
      else
        let s := s.setLink n { x with request := none, again := askAgain x.again r.kind r.arg }
        let s := take (s.count n .lnkEventsWithdrawals)
        let y := s.link n
        let mine := (y.toMark.filter fun m => !x.toMark.contains m).map fun m => (true, m)
        (s.setLink n { y with wait := mine ++ s.peerMarks n kind arg }).issueNext n

/-- An acknowledgement received: the outstanding request that it copies is answered (R311). -/
def State.receiveAck (s : State) (n kind arg reqno : Nat) (run : State → State) : State :=
  let x := s.link n
  match x.request with
  | some r =>
    if ackKind r.kind = kind && r.arg = arg && r.reqno = reqno then
      (run (s.setLink n { x with request := none })).issueNext n
    else s
  | none => s

end Sys2Proof.Machine
end

