-- ==== Sys2Proof/Machine/PairBase.lean ====
section
/-!
DEFINITION. The pair: protection (R375, R381), the mirror stream (R376, R377, R380), and the yield
(R383, R385).
-/

namespace Sys2Proof.Machine

/-- Roles (R369). -/
def rNone : Nat := 0
def rActive : Nat := 1
def rStandby : Nat := 2
def rTakingOver : Nat := 3
def rYielded : Nat := 4
def rSwapHold : Nat := 5
def rStopped : Nat := 6

/-- The module's role. -/
def State.role (s : State) : Nat := s.rd .pairStatusRole 0 0

/-- The role changes, which sets the pair event (R484). -/
def State.setRole (s : State) (r : Nat) : State :=
  if s.role = r then s else (s.wr .pairStatusRole 0 0 r).wr .coreIrqEventsPair 0 0 1

/-- Mirrored formes of the active imposition. -/
def State.mirroredFormes (s : State) : List Forme :=
  match s.active with
  | none => []
  | some i => i.formes.filter Forme.mirrored

/-- The pair-link port that forme f mirrors on: the lowest of its port_set that is UP (R376). -/
def State.mirrorPort (s : State) (f : Forme) : Option Nat :=
  (bitsSet f.portSet 32).find? fun q => s.isPairPort q && s.lState q = lUp

/-- Bits [31:0] of the digest of the active imposition (R374). -/
def State.impDigest (s : State) : Nat :=
  match s.active with
  | none => 0
  | some i => leNat (i.digest.take 4)

/-- Both members reported equal levels and impositions (R375). -/
def State.pairAgrees (s : State) : Bool :=
  s.on .hPairLevelSeen 0 0 && s.on .hPairImpSeen 0 0 &&
    s.rd .hPairLevel 0 0 = s.rd .modCapabilityLevel 0 0 && s.rd .hPairImp 0 0 = s.impDigest

/-- A report received differs (R375). -/
def State.pairDiffers (s : State) : Bool :=
  (s.on .hPairLevelSeen 0 0 && s.rd .hPairLevel 0 0 != s.rd .modCapabilityLevel 0 0) ||
    (s.on .hPairImpSeen 0 0 && s.rd .hPairImp 0 0 != s.impDigest)

/-- Protection state of a mirrored forme (R381; log entry 13). -/
def State.protectionOf (s : State) (f : Forme) : Nat :=
  if s.role = rStandby && s.pairDiffers then 5
  else if s.role != rActive then 0
  else if !s.on .pairStatusLiveIn 0 0 then 3
  else if s.pairDiffers || (s.rd .pairStatusPartnerRole 0 0 = rStandby && !s.pairAgrees) then 5
  else
    match s.mirrorPort f with
    | none => if s.on .hPairGraceOver 0 f.number then 3 else 2
    | some _ =>
      if s.on .hPairPartnerResync 0 0 || s.on .hPairResyncDue 0 f.number then 4
      else if s.rd .pairStatusPartnerRole 0 0 = rStandby then 1
      else 3

/-- What forme f's mirror has queued and not started is dropped, and what it had sent in part is to be sent anew
(R375). -/
def State.dropMirror (s : State) (f : Forme) : State :=
  let s := s.each (bitsSet f.portSet 32) fun s q =>
    if s.isPairPort q then
      s.setLink q { s.link q with newQ := (s.link q).newQ.filter fun y => y.vc != 2 || y.forme != f.number }
    else s
  let s := s.wr .hFormeMirrorSent 0 f.number 0
  if s.on .hFormePreDone 0 f.number then s else s.wr .hFormePreSent 0 f.number 0

/-- PAIR_STATUS protection and PAIR_FORME pair_port follow; a disagreement makes the next mirrored edition a
resync (R375, R376, R381, R484). -/
def State.refreshPair (s : State) : State :=
  let l := s.mirroredFormes.map fun f => s.protectionOf f
  let p := minList l
  let s := s.each s.mirroredFormes fun s f =>
    let s := s.wr .pairFormePairPort 0 f.number ((s.mirrorPort f).getD 31)
    let s := if s.protectionOf f = 5 then (s.wr .hPairResyncDue 0 f.number 1).dropMirror f else s
    if (s.mirrorPort f).isSome then s.wr .hPairGraceOver 0 f.number 0 else s
  if s.rd .pairStatusProtection 0 0 = p then s
  else (s.wr .pairStatusProtection 0 0 p).wr .coreIrqEventsPair 0 0 1

/-- Rail n takes state x; one that was cut stays off until reset (R398). -/
def State.setRail (s : State) (n x : Nat) : State :=
  if s.rd .pwrRailState 0 n = 3 then s else s.wr .pwrRailState 0 n x

/-- The rail of press p was cut: the press is lost until reset (R236, R398). -/
def State.cutPress (s : State) (p : Nat) : Bool := s.rd .pwrRailState 0 p = 3

/-- A standby is there to take over: SB_PAIR_LIVE is high and the partner reports STANDBY
(R235, R381; log entry 13). -/
def State.livePartner (s : State) : Bool :=
  s.role = rActive && s.on .pairStatusLiveIn 0 0 && s.rd .pairStatusPartnerRole 0 0 = rStandby

/-- A forme of a yielding module stops; the edition in hand ends by the yield (R231, R385). -/
def State.yieldForme (s : State) (cause f : Nat) : State :=
  let s := s.stopUnits f
  if cause != 0x0A && (s.fState f = fRunning || s.fState f = fClosing || s.fState f = fAbandoning) then
    ((s.wr .modFormeStatusState 0 f fNone).wr .hFormeStepRun 0 f 0).wr .hFormeReady 0 f 0
  else s

/-- The active yields: formes stop and every fabric port goes OFF; YIELD_COMPLETE releases the line
(R383, R385). -/
def State.yieldWith (s : State) (cause : Nat) : State :=
  if s.role = rActive && s.rd .pairStatusYieldCause 0 0 = 0 then
    let s := s.each s.formeNums fun s f => s.yieldForme cause f
    let s := s.each (List.range 32) fun s q =>
      if s.lState q = lOff then s else s.portOff q
    (s.wr .pairStatusYieldCause 0 0 cause).refreshPair
  else s

/-- Forme f holds for a role swap: it is mirrored and has committed edition E - 1, or a later one before the partner
had acknowledged (R393; log entry 88). -/
def State.swapHolds (s : State) (f : Nat) : Bool :=
  let e := s.rd .hPairSwapEdition 0 0
  e != 0 && s.on .hPairSwapAcked 0 0 && (s.mirroredFormes.any fun x => x.number = f) &&
    e ≤ s.edition f

/-- Once every mirrored forme is held at edition E - 1 the active yields with cause 0x0A (R393). -/
def State.swapYield (s : State) : State :=
  if s.role = rActive && s.mirroredFormes.all fun x => s.swapHolds x.number && s.fState x.number = fHeld
  then (if s.rd .hPairSwapEdition 0 0 = 0 then s else s.yieldWith 0x0A)
  else s

/-! ### Park -/

/-- cap_unmet: a forme is parked with CAP_UNMET (R415). -/
def State.capUnmet (s : State) : State :=
  s.wr .pwrStatusCapUnmet 0 0 (b2n ((List.range 16).any fun f =>
    decide (s.fState f = fParked) && decide (s.rd .modFormeStatusParkReason 0 f = parkCap)))

/-- Forme f parks with a reason (R231, R240, R415). -/
def State.parkForme (s : State) (f reason : Nat) (replay : Bool) : State :=
  let s := (s.wr .modFormeStatusState 0 f fParked).wr .modFormeStatusParkReason 0 f reason
  let s := (s.wr .hFormeStepRun 0 f 0).wr .hFormeReady 0 f 0
  (s.wr .hFormeParkReplay 0 f (b2n replay)).capUnmet

/-! ### The mirror stream -/

/-- Bytes of a VC2 frame (R377). -/
def mirrorBytes (op f chase count edition addr : Nat) (data : List Byte) : List Byte :=
  natLe 1 op ++ natLe 1 (f + 16 * chase) ++ natLe 1 count ++ natLe 1 0 ++ natLe 4 edition ++
    natLe 8 addr ++ data

/-- A VC2 frame waits on a port. -/
def State.mirrorFrame (s : State) (n f : Nat) (bytes : List Byte) : State :=
  s.setLink n { s.link n with newQ := (s.link n).newQ ++ [LFrame.mk 2 0 false bytes 0 f (s.edition f)] }

/-- WRITE frames of n sectors from an address, three sectors a frame (R376, R377). -/
def State.mirrorWrites (s : State) (q f chase edition addr : Nat) : Nat → State
  | 0 => s
  | 1 => s.mirrorFrame q f (mirrorBytes 1 f chase 1 edition addr (s.readMem chase addr 64))
  | 2 => s.mirrorFrame q f (mirrorBytes 1 f chase 2 edition addr (s.readMem chase addr 128))
  | n + 3 =>
    State.mirrorWrites
      (s.mirrorFrame q f (mirrorBytes 1 f chase 3 edition addr (s.readMem chase addr 192)))
      q f chase edition (addr + 192) n

/-- Entries in groups of fourteen (R377). -/
def chunks14 (l : List (List Byte)) : Nat → List (List (List Byte))
  | 0 => []
  | n + 1 => if l.isEmpty then [] else l.take 14 :: chunks14 (l.drop 14) n

/-- The number that the next frame queued on a channel of port n will take: those queued now go before it (R305,
R309). -/
def State.nextBase (s : State) (n v : Nat) : Nat :=
  (s.txNext n v + ((s.link n).newQ.filter fun y => y.vc = v).length) % 2 ^ 48

/-- BASES frames for every fabric port of the forme: the numbers recorded at the commit that the
record stands for (R377). -/
def State.sendBases (s : State) (q : Nat) (f : Forme) (edition : Nat) : State :=
  let es := (bitsSet f.portSet 32).map fun p =>
    natLe 4 p ++ natLe 6 (s.nextBase p 0) ++ natLe 6 (s.rxExp p 0)
  s.each (chunks14 es 3) fun s g =>
    s.mirrorFrame q f.number (mirrorBytes 2 f.number 0 g.length edition 0 g.flatten)

/-- Bytes of a mirrored record: its commit tick is zero (R377). -/
def recordBytes (r : CkptRecord) : List Byte :=
  natLe 1 r.forme ++ natLe 1 r.variant ++ natLe 6 0 ++ natLe 8 r.edition ++ natLe 8 r.seq ++ natLe 8 0

/-- RECORD frame (R377). -/
def State.sendRecord (s : State) (q : Nat) (r : CkptRecord) : State :=
  s.mirrorFrame q r.forme (mirrorBytes 3 r.forme 0 1 r.edition 0 (recordBytes r))

/-- arg of a PAIR_HELLO (R374). -/
def helloOf (role member resync pend : Nat) : Nat :=
  role * 2 ^ 28 + member * 2 ^ 27 + resync * 2 ^ 26 + pend * 2 ^ 24

/-- PAIR_HELLO arg of this module (R374). -/
def State.helloArg (s : State) : Nat :=
  let resync := s.role = rStandby && s.mirroredFormes.any fun f => s.rd .pairFormeSync 0 f.number != 1
  helloOf s.role (s.rd .pairStatusMember 0 0) (b2n resync) (s.rd .pairStatusPending 0 0)

/-- PAIR_HELLO, PAIR_LEVEL and PAIR_IMP wait on pair-link port q (R374). -/
def State.sendHello (s : State) (q : Nat) : State :=
  ((s.sendByp q 0x90 s.helloArg 0).sendByp q 0x91 (s.rd .modCapabilityLevel 0 0) 0).sendByp q 0x92
    s.impDigest 0

/-- They wait on every pair-link port that is UP (R374). -/
def State.sendHellos (s : State) : State :=
  s.each ((List.range 32).filter fun q => s.isPairPort q && s.lState q = lUp) State.sendHello

/-- No drain into the out_region of forme f is unacknowledged: condition 1 of a commit (R229). -/
def State.drainsDone (s : State) (f : Nat) : Bool := !(s.drains.any fun d => d.forme = f && d.toOut)

/-- Every slice that press p began in the edition has ended: each strip that strip_failed does not mark, the
spare included, has passed or failed it (R433). -/
def State.slicesEnded (s : State) (p : Nat) : Bool :=
  (List.range 17).all fun i => bit (s.rd .prsStripMapStripFailed p 0) i ||
    bit (s.rd .prfPressSlicePassed 0 p) i || bit (s.rd .hPrsFailPend p 0) i

/-- Forme f is CLOSING with a slice unfinished: its presses run vectors in every cycle, ungated (R434). -/
def State.closingSlices (s : State) (f : Nat) : Bool :=
  s.fState f = fClosing && !(s.formePresses f).all s.slicesEnded

/-- The presses of a forme that enters CLOSING with a slice unfinished enable their strips (R103, R434). -/
def State.enableSlices (s : State) (f : Nat) : State :=
  if s.closingSlices f then s.each (s.formePresses f) fun s p => s.setPress p { s.press p with gated := false }
  else s

/-- Every strip in use has passed a slice of the edition: condition 2 of a commit (R229). -/
def State.slicesDone (s : State) (f : Nat) : Bool :=
  (s.formePresses f).all fun p => (List.range 17).all fun i =>
    !s.stripInUse p i || bit (s.rd .prfPressSlicePassed 0 p) i

/-- Condition 3 of a commit, and whether the commit counts as unprotected (R229, R381). -/
def State.mirrorOk (s : State) (x : Forme) : Bool × Bool :=
  if !x.mirrored || s.on .hFormeMirrorDone 0 x.number then (true, false)
  else
    let p := s.protectionOf x
    if p = 3 || p = 5 then (true, true) else (p = 0, false)

/-- Forme f is CLOSING and every condition of its commit holds: what comes now belongs to the next edition (R6,
R229). -/
def State.commitDue (s : State) (f : Nat) : Bool :=
  s.fState f = fClosing && s.drainsDone f && s.slicesDone f &&
    match s.forme f with
    | some x => (s.mirrorOk x).1
    | none => false

/-! ### Abandonment (R231 to R233) -/

/-- A command of the same galley cycle as an abandon cause that has not taken effect is ignored (R232). -/
def State.ignoreWith (s : State) (f t : Nat) (pend tick : Field) : State :=
  if s.on pend 0 f && s.rd tick 0 f = t + 1 then
    (s.wr pend 0 f 0).wr .modImpStatusCmdIgnored 0 0 1
  else s

/-- A cause waits until the forme is RUNNING (R231); of two, the lower code (R232). -/
def State.waitCause (s : State) (f cause : Nat) : State :=
  let c := s.rd .hFormeCausePend 0 f
  if s.fState f = fNone || (c != 0 && c ≤ cause) then s else s.wr .hFormeCausePend 0 f cause

/-- Forme f abandons its edition for a cause stamped t (R231 to R233). In ABANDONING a further
cause has no effect, but of two that arrive together the lower code is reported (R232); in LOADED, HELD and
PARKED a cause waits for RUNNING (R231), and so does one that finds the edition's commit due, which belongs to
the next edition (R6, R229). The replay sends its mirror stream, and a batch that was not acknowledged, anew (R376,
R379). -/
def State.abandon (s : State) (f cause t : Nat) : State :=
  if (s.fState f = fRunning || s.fState f = fClosing) && !s.commitDue f then
    let s := (s.stopUnits f).ignoreWith f t .hFormeHoldPend .hFormeHoldTick
    let s := s.ignoreWith f t .hFormeParkPend .hFormeParkTick
    let s := s.ignoreWith f t .hFormeStartPend .hFormeStartTick
    let s := s.ignoreWith f t .hFormeResumePend .hFormeResumeTick
    let s := s.wr .modFormeStatusState 0 f fAbandoning
    let s := s.wr .modFormeStatusCause 0 f cause
    let s := s.bump .modFormeCountsAbandons 0 f 1
    let s := s.wr .hFormeStepRun 0 f 0
    let s := s.wr .hFormeReady 0 f 0
    let s := s.wr .hFormeMirrorSent 0 f 0
    let s := if s.on .hFormePreDone 0 f then s else s.wr .hFormePreSent 0 f 0
    s.wr .hFormeAbTick 0 f t
  else if s.fState f = fAbandoning && s.rd .hFormeAbTick 0 f = t &&
      cause < s.rd .modFormeStatusCause 0 f then
    s.wr .modFormeStatusCause 0 f cause
  else if s.fState f = fAbandoning then s
  else s.waitCause f cause

/-- The forme of press p abandons (R97, R139, R236). -/
def State.abandonPress (s : State) (p cause t : Nat) : State :=
  match s.formeOfPress p with
  | none => s
  | some x => s.abandon x.number cause t

/-- Checkpoint record of the edition in hand (R229). -/
def State.newRecord (s : State) (f t : Nat) : CkptRecord :=
  { forme := f, variant := s.rd .modFormeStatusVariant 0 f, edition := s.edition f,
    seq := s.rd .hFormeNextQ 0 f, tick := t }

/-- Last record of forme f; before the first commit the state that it starts from. -/
def State.lastRecord (s : State) (f : Nat) : CkptRecord :=
  match s.log.find? fun r => r.forme = f with
  | some r => r
  | none => { s.newRecord f 0 with edition := s.rd .modFormeEditionEdition 0 f }

/-- Valid SHARED memory regions of forme f: chase, region (R376, R382). -/
def State.sharedRegions (s : State) (f : Nat) : List (Nat × Nat) :=
  ([0, 1, 2, 3].flatMap fun c => (List.range 16).map fun n => (c, n)).filter fun e =>
    s.on .memRegionValid (4 * e.1) e.2 && s.rd .memRegionAttr (4 * e.1) e.2 = 1 &&
      s.rd .memRegionForme (4 * e.1) e.2 = f

/-- The forme's whole checkpoint copy of the closing edition and its SHARED regions (R382). -/
def State.sendResync (s : State) (q : Nat) (f : Forme) : State :=
  let e := s.edition f.number
  let s := s.each f.ckpts fun s k =>
    s.mirrorWrites q f.number k.chase e ((if e % 2 = 0 then k.band0 else k.band1) * 2 ^ 23)
      ((k.bandsM1 + 1) * 2 ^ 17)
  s.each (s.sharedRegions f.number) fun s k =>
    s.mirrorWrites q f.number k.1 e (s.rd .memRegionFirstBand (4 * k.1) k.2 * 2 ^ 23)
      ((s.rd .memRegionBandsM1 (4 * k.1) k.2 + 1) * 2 ^ 17)

/-- A closing edition that meets conditions 1 and 2 sends BASES and RECORD, once; a resync sends the
whole copy first (R376, R382). -/
def State.tryMirror (s : State) (f : Nat) : State :=
  match s.mirroredFormes.find? fun x => x.number = f with
  | none => s
  | some x =>
    match s.mirrorPort x with
    | none => s
    | some q =>
      let p := s.protectionOf x
      if s.fState f = fClosing && s.drainsDone f && s.slicesDone f && !s.on .hFormeMirrorSent 0 f &&
          (p = 1 || p = 4) then
        let s := if p = 4 then (s.sendResync q x).wr .pairFormeSync 0 f 3 else s
        ((s.sendBases q x (s.edition f)).sendRecord q (s.newRecord f 0)).wr .hFormeMirrorSent 0 f 1
      else s

/-- The pre-release batch: SHARED sectors written since the last edition's first release, and a repeat
of the last RECORD (R376, R379). -/
def State.sendBatch (s : State) (q f : Nat) : State :=
  let s := s.each (s.dirtyShared.filter fun d => d.1 = f) fun s d =>
    s.mirrorWrites q f d.2.1 (s.edition f) d.2.2 1
  ((s.sendRecord q (s.lastRecord f)).wr .hFormePreSent 0 f 1).wr .hFormePreCount 0 f
    (s.dirtyShared.filter fun d => d.1 = f).length

/-- What a moved forme had sent and not had acknowledged goes again on the new port (R380). -/
def State.sendAgain (s : State) (f : Nat) : State :=
  let s := if s.on .hFormePreSent 0 f && !s.on .hFormePreDone 0 f then s.wr .hFormePreSent 0 f 0 else s
  if s.on .hFormeMirrorSent 0 f && !s.on .hFormeMirrorDone 0 f then
    (s.wr .hFormeMirrorSent 0 f 0).tryMirror f
  else s

/-- A forme moves to another pair-link port: every 64 KiB block of out_region written in the edition
goes first (R380); without a port that is UP the move waits for one. -/
def State.mirrorMove (s : State) (f : Forme) : State :=
  match s.mirrorPort f with
  | none => s.wr .hPairPortGone 0 f.number 1
  | some q =>
    let s := (s.wr .hPairPortGone 0 f.number 0).bump .pairCountsDeltaResends 0 0 1
    let s := if s.protectionOf f = 1 then
      s.each (s.dirtyOut.filter fun d => d.1 = f.number) fun s d =>
        s.mirrorWrites q f.number d.2.1 (s.edition f.number) (d.2.2 * 65536) 1024
      else s
    s.sendAgain f.number

/-- A pair-link port is UP: formes that had none move to it (R380). -/
def State.mirrorBack (s : State) : State :=
  if s.role = rActive then
    s.each (s.mirroredFormes.filter fun f => s.on .hPairPortGone 0 f.number) State.mirrorMove
  else s

/-- Pair-link port q left service: mirrored formes that used it move on (R380, R381). -/
def State.pairPortLost (s : State) (q : Nat) : State :=
  if s.role = rActive then
    let s := s.each s.mirroredFormes fun s f =>
      if s.rd .pairFormePairPort 0 f.number = q then s.mirrorMove f else s
    s.refreshPair
  else s.refreshPair

end Sys2Proof.Machine
end

