-- ==== Sys2Proof/Machine/Repair.lean ====
section
/-!
DEFINITION. The repair map and suspect addresses (R438 to R441).
-/

namespace Sys2Proof.Machine

/-- PENDING entries held (R441). -/
def State.pendingEntries (s : State) : Nat := (s.repairMap.filter fun e => e.type = 0x0B).length

/-- PRF_RESULT entries and PRF_MAP pending follow the map in force. -/
def State.mapFields (s : State) : State :=
  (s.wr .prfResultEntries 0 0 s.repairMap.length).wr .prfMapPending 0 0 s.pendingEntries

/-- An entry joins the map in force and waits for the next flash write (R438). -/
def State.addEntry (s : State) (e : MapEntry) : State :=
  let s := if s.rd .prfMapUnwritten 0 0 = 0 then s.wr .hMapFirstTick 0 0 s.now else s
  ({ s with repairMap := s.repairMap ++ [e] }.bump .prfMapUnwritten 0 0 1).mapFields

/-- Codes that the configuration flash caches: lock codes, selector and steering codes, crosstalk (R248,
R428). -/
def codeFields : List Field := [.oeRingLockCode, .hOeSelCode, .hOeSteerCode, .oeXtalkNbr, .oeXtalkCoef]

/-- The codes in force, as the flash keeps them with the map (R248, R428). -/
def State.codes (s : State) : SMap RKey Nat := s.regs.filter fun e => codeFields.contains e.1.f

/-! ### Flash writes waiting (R471) -/

/-- Order of service: counters, key table, repair map, images (R471). -/
def FlashJob.rank (j : FlashJob) : Nat :=
  match j with
  | .counter _ _ => 0
  | .keys _ => 1
  | .map => 2
  | .mapOf _ _ => 2
  | .image _ _ => 4

/-- A job put behind those of its own and earlier rank. -/
def insertFlash (j : FlashJob) : List FlashJob → List FlashJob
  | [] => [j]
  | k :: l => if k.rank ≤ j.rank then k :: insertFlash j l else j :: k :: l

/-- The first write starts: one of the map takes the map in force and the codes, with what CLEAR_MAP marks
(R429, R438, R471). Without codes in force those of the flash stand. -/
def State.startFlash (s : State) : State :=
  match s.flashQ with
  | .map :: l =>
    let m := if s.on .hMapClear 0 0 then s.repairMap.map fun e => { e with flags := setBit e.flags 1 }
      else s.repairMap
    let c := if s.codes.isEmpty then s.cache else s.codes
    ({ s with repairMap := m, flashQ := .mapOf m c :: l } : State).wr .hMapClear 0 0 0
  | _ => s

/-- A write of the repair map is in progress or waits. -/
def State.mapWriteDue (s : State) : Bool :=
  s.flashQ.any fun j => match j with
    | .map => true
    | .mapOf _ _ => true
    | _ => false

/-- A flash write waits; the one in progress, the first, finishes before it. One waiting write of the
map is enough (R438, R471). -/
def State.queueFlash (s : State) (j : FlashJob) : State :=
  match s.flashQ with
  | [] => ({ s with flashQ := [j] } : State).startFlash
  | k :: l => if j = .map && l.contains .map then s else { s with flashQ := k :: insertFlash j l }

/-- Location of a case line in an entry: bank and line within the bank (R94, R439). -/
def casePlace (line : Nat) : Nat := line % 8 * 2 ^ 16 + line / 8

/-- Location of a galley line in an entry (R142, R439). -/
def galPlace (line : Nat) : Nat := line % 64 * 2 ^ 16 + line / 64

/-- Location of a stack row in an entry (R439). -/
def stackPlace (channel bank row : Nat) : Nat := channel * 2 ^ 20 + bank * 2 ^ 16 + row

/-- A place becomes suspect: a PENDING entry, at most 256 of them (R441). The failing bits that the
event does not name are free values. `word` is byte 12 of the entry. -/
def State.suspect (s : State) (type unit place word : Nat) : State :=
  if s.repairMap.any fun e => e.type = 0x0B && e.cause = type && e.unit = unit && e.location = place
  then s
  else if 256 ≤ s.pendingEntries then s.wr .prfMapPendingDropped 0 0 1
  else
    let b := s.free 8
    let n := b.2.free 8
    n.2.addEntry ⟨0x0B, unit, 0, type, place, 0, b.1 * 256 + word, n.1⟩

/-- A correctable error is kept among the last 64 of its chase and array type; a second at the same
place within 2^34 ticks makes the place suspect (R8, R441). -/
def State.ceSeen (s : State) (e : CeEntry) (place word : Nat) : State :=
  let twice := s.ceLog.any fun x =>
    x.chase = e.chase && x.type = e.type && x.unit = e.unit && x.place = e.place &&
      e.tick - x.tick < 2 ^ 34
  let same := s.ceLog.filter fun x => x.chase = e.chase && x.type = e.type
  let rest := s.ceLog.filter fun x => !(x.chase = e.chase && x.type = e.type)
  let s := { s with ceLog := (e :: same).take 64 ++ rest }
  if twice then s.suspect e.type e.unit place word else s

/-! ### Corrected errors -/

/-- A correctable case error (R97): counted; its address is kept unless ue is set; a
second at the same word within 2^34 ticks makes the line suspect (R441). -/
def State.caseCe (s : State) (p word : Nat) : State :=
  let s := if s.on .caseEccStatusUe p 0 then s else s.wr .caseEccStatusWordAddr p 0 word
  let s := (s.wr .caseEccStatusCe p 0 1).bump .caseCeCountCount p 0 1
  s.ceSeen ⟨p / 3, 3, p, word, s.now⟩ (casePlace (word / 32)) (word % 32)

/-- The corrected words of the last line read: those at the end of a list that lie in one line (R97). -/
def lastRead (ws : List Nat) : List Nat :=
  match ws.reverse with
  | [] => []
  | w :: l => w :: l.takeWhile fun x => x / 32 = w / 32

/-- The words of the case that a command's reads found corrected, in the order of the reads: each counts, and
the address kept is that of the lowest-numbered word of the last read (R97, CASE_ECC_STATUS). -/
def State.caseCes (s : State) (p : Nat) (ws : List Nat) : State :=
  let s := s.each ws fun s w => s.caseCe p w
  match lastRead ws with
  | [] => s
  | w :: l => if s.on .caseEccStatusUe p 0 then s else s.wr .caseEccStatusWordAddr p 0 (l.foldl min w)

/-- A correctable galley error (R162): counted, its place logged while ue is clear. -/
def State.galCe (s : State) (c code : Nat) (sched : Bool) (line word : Nat) : State :=
  let s :=
    if s.on .galStatusUe c 0 then s
    else (((s.wr .galEccAddrRequester c 0 code).wr .galEccAddrSched c 0 (b2n sched)).wr .galEccAddrLine c 0
      line).wr .galEccAddrWord c 0 word
  let s := (s.wr .galStatusCe c 0 1).bump .galCeCountCount c 0 1
  s.ceSeen ⟨c, 4, c, line * 32 + word, s.now⟩ (galPlace line) word

/-- The words of a galley slice that a command's reads found corrected, by word address (R162). -/
def State.galCes (s : State) (c code : Nat) (sched : Bool) (ws : List Nat) : State :=
  s.each ws fun s w => s.galCe c code sched (w / 32) (w % 32)

/-- A corrected burst (R163): counted, its place logged while ue is clear. -/
def State.memCe (s : State) (m : Nat) (b : BurstErr) : State :=
  let s :=
    if s.on .memStatusUe m 0 then s
    else ((((s.wr .memEccAddrChannel m 0 b.channel).wr .memEccAddrBank m 0 b.bank).wr .memEccAddrRow m 0
      b.row).wr .memEccAddrBurst m 0 b.burst).wr .memEccAddrSymbols m 0 b.symbols
  let s := (s.wr .memStatusCe m 0 1).bump .memCeCountCount m 0 1
  s.ceSeen ⟨m / 4, 5, m, ((b.channel * 16 + b.bank) * 32768 + b.row) * 32 + b.burst, s.now⟩
    (stackPlace b.channel b.bank b.row) b.burst

/-- The corrected errors that a read by a requester met (R162, R163). -/
def State.met (s : State) (code : Nat) (sched : Bool) (l : List CeSite) : State :=
  s.each l fun s x =>
    match x with
    | .galley c w => s.galCe c code sched (w / 32) (w % 32)
    | .stack m b => s.memCe m b

/-! ### Strips (R82, R84, R436) -/

/-- Depth of a press from its failed strips (R82). -/
def depthOf (failed : Nat) : Nat := if popCount failed 17 ≤ 1 then 16 else 15

/-- A press becomes FAILED: its depth reads 0 (R82, R104, PRS_STATUS). -/
def State.failPress (s : State) (p : Nat) : State := (s.setPState p pFailed).wr .prsStatusDepth p 0 0

/-- depth follows strip_failed; three failed strips make the press FAILED, and that of a FAILED press stays 0
(R82, R436, PRS_STATUS). -/
def State.setDepth (s : State) (p : Nat) : State :=
  let failed := s.rd .prsStripMapStripFailed p 0
  if 3 ≤ popCount failed 17 || s.pState p = pFailed then s.failPress p
  else s.wr .prsStatusDepth p 0 (depthOf failed)

/-- Strips that failed a slice are marked at an edition boundary, with a STRIP entry each, and the map
is written (R84, R436, R438). -/
def State.markStrips (s : State) (p : Nat) : State :=
  let l := (bitsSet (s.rd .hPrsFailPend p 0) 17).filter fun i =>
    !bit (s.rd .prsStripMapStripFailed p 0) i
  let par := s.rd .hPrsParity p 0
  let s := (s.wr .hPrsFailPend p 0 0).wr .hPrsParity p 0 0
  if l.isEmpty then s
  else
    let s := s.each l fun s i =>
      (s.orBit .prsStripMapStripFailed p 0 i).addEntry ⟨1, p, 0, if bit par i then 9 else 8, i, 0, 0, 0⟩
    (s.setDepth p).queueFlash .map

end Sys2Proof.Machine
end

