-- ==== Sys2Proof/Machine/Operands.lean ====
section
/-!
DEFINITION. What the press instructions share: dispatch, tokens, loops and unit queues (R107 to
R109, R119), addresses and keys (R120, R121), case lines, ring registers (R130), the array fold
(R43 to R51, R63, R72, R126, R128), the drain (R88, R129), and finisher lanes (R132).
-/

namespace Sys2Proof.Machine

/-! ### Units, tokens, loops -/

/-- Units of a press (R107). -/
def uSeq : Nat := 0
def uShd : Nat := 1
def uArr : Nat := 2
def uFin : Nat := 3
def uBin : Nat := 4
def uBout : Nat := 5

/-- Value of a token (R108). -/
def Press.token (x : Press) (t : Nat) : Nat := x.tokens.getD t 0

/-- A token signalled; the counter holds 0 to 255 (R108). -/
def Press.signal (x : Press) (t : Nat) : Press :=
  { x with tokens := x.tokens.put t (min 255 (x.token t + 1)) }

/-- A token waited on (R108). -/
def Press.waitTok (x : Press) (k : Tok) : Press :=
  if k.wen then { x with tokens := x.tokens.put k.wtok (x.token k.wtok - 1) } else x

/-- Instructions that a unit holds or runs. -/
def Press.queue (x : Press) (u : Nat) : List UnitEntry := x.queues.getD u []

/-- A unit holds 16 instructions not yet started (R107). The one it runs has started; how many of those behind
it a pipelined unit has started too is a matter of cycles, and a free value (log entry 9). -/
def State.unitFull (s : State) (p u : Nat) : Bool :=
  let n := ((s.press p).queue u).length
  u != uSeq && 17 ≤ n && 17 ≤ n - Config.freeValue s.freeCount

/-- Loop index (R119). -/
def Press.index (x : Press) (level : Nat) : Nat := x.idx.getD level 0

/-- pc, loop indices and frames after the instruction before pc (R119). -/
def loopEnd (pc : Nat) (idx : SMap Nat Nat) : List LoopFrame → Nat × SMap Nat Nat × List LoopFrame
  | [] => (pc, idx, [])
  | f :: r =>
    if pc = f.past then
      if idx.getD f.level 0 + 1 < f.trips then
        (f.first, idx.put f.level (idx.getD f.level 0 + 1), f :: r)
      else loopEnd pc (idx.put f.level 0) r
    else (pc, idx, f :: r)

/-- The sequencer moves past the instruction at pc (R108, R119). -/
def State.advance (s : State) (p : Nat) : State :=
  let x := s.press p
  let e := loopEnd (s.rd .prsSeqStatusPc p 0 + 1) x.idx x.frames
  (s.setPress p { x with idx := e.2.1, frames := e.2.2 }).wr .prsSeqStatusPc p 0 e.1

/-- Which count of PRS_SEQ_WAITS a hold code raises. -/
def holdField (code : Nat) : Field :=
  if code = 1 then .prsSeqWaitsTokenWait
  else if code = 2 then .prsSeqWaitsQueueWait
  else if code = 3 then .prsSeqWaitsBarrierWait
  else .prsSeqWaitsFenceWait

/-- Dispatch is held: PRS_SEQ_STATUS shows why, and one cycle counts (log entry 9). -/
def State.holdDispatch (s : State) (p code : Nat) : State :=
  (s.wr .prsSeqStatusHold p 0 code).bump (holdField code) p 0 1

/-- Cycle counts of PRS_BUSY_CYCLES and PRS_STALL_COUNTS that an instruction can raise: by how much is a
matter of cycles, and a free value, not the one that `unitFull` read (R78, R87, R96, R100, R105; log entry
37). -/
def State.stalled (s : State) (p : Nat) (fs : List Field) : State :=
  s.each fs fun s f =>
    let n := (s.free 1).2.free 16
    n.2.bump f p 0 n.1

/-- An instruction is issued: the wait consumes its token, SEQ instructions complete at once, the others join
their unit's queue (R107, R108, R112). -/
def State.issued (s : State) (p : Nat) (k : Tok) (u : Nat) : State :=
  let x := (s.press p).waitTok k
  let x := if u = uSeq then (if k.sen then x.signal k.stok else x)
    else { x with queues := x.queues.put u (x.queue u ++ [⟨k.sen, k.stok, none⟩]) }
  (s.setPress p x).wr .prsSeqStatusHold p 0 0

/-- An illegal word at run time (R139). -/
def State.illegalWord (s : State) (p : Nat) : State :=
  ((s.wr .prsSeqStatusIllegal p 0 1).setPState p pParked).abandonPress p causeIstore s.now

/-- A case line address exists (R94). -/
def caseLineOk (a : Int) (n : Nat) : Bool := 0 ≤ a && a + Int.ofNat n ≤ 262144

/-- Dispatch of one instruction by press p (R107, R108, R139). `legal`: the word is legal;
`hold`: the reason why the instruction's own rule holds it, 0 for none; `ready`: the interlocks
of R130 can be met; `lines`: the case lines it reaches; `run`: its effect, with the loop indices of
its own dispatch (R120, R121); `waits`: the cycle counts that it can raise; then pc moves on. -/
def State.dispatch (s : State) (p : Nat) (k : Tok) (u : Nat) (legal : Bool) (hold : Nat)
    (ready : Bool) (lines : List (Int × Nat)) (waits : List Field) (run : State → State) : Res :=
  if p < 12 then
    if s.pState p = pActive then
      if legal then
        if k.wen && (s.press p).token k.wtok = 0 then .next (s.holdDispatch p 1)
        else if s.unitFull p u then .next ((s.holdDispatch p 2).free 1).2
        else if hold != 0 then .next (s.holdDispatch p hold)
        else if ready then
          if lines.all fun e => caseLineOk e.1 e.2 then .next (((run (s.issued p k u)).stalled p waits).advance p)
          else .fault .noSuchLine
        else .next s
      else .next (s.illegalWord p)
    else .next s
  else .fault .noSuchUnit

/-! ### Addresses, keys, case lines -/

/-- Address register (R120). -/
def Press.ad (x : Press) (a : Nat) : AddrReg := x.ads.getD a ⟨false, 0, 0, 0, 0, 0⟩

/-- Effective line address of an address register (R120). -/
def Press.addr (x : Press) (a : Nat) : Int :=
  let r := x.ad a
  Int.ofNat r.base + r.stride0 * Int.ofNat (x.index 0) + r.stride1 * Int.ofNat (x.index 1) +
    r.stride2 * Int.ofNat (x.index 2) + r.stride3 * Int.ofNat (x.index 3)

/-- The register holds a case address (R120). -/
def Press.inCase (x : Press) (a : Nat) : Bool := !(x.ad a).galley

/-- Key register (R121). -/
def Press.key (x : Press) (k : Nat) : SrKey := x.keys.getD k ⟨0, 0, 0, 0, 0⟩

/-- Index of an element for stochastic rounding, 40 bits; strides are signed (R60, R114, R121). -/
def Press.srIndex (x : Press) (k row n : Nat) : Nat :=
  let r := x.key k
  ((Int.ofNat (r.base + row * r.ld + n) + r.stride * Int.ofNat (x.index r.level)) % 2 ^ 40).toNat

/-- Rounding mode of element (row, n) of press p (R55, R121). -/
def State.rmode (s : State) (p code k row n : Nat) : RMode :=
  if code = 2 then
    let f := s.formeOfPress p
    let seed := (f.map Forme.srSeed).getD 0
    let ed := (f.map fun f => s.edition f.number).getD 0
    let x := s.press p
    rmodeOf 2 (noise seed ed (x.key k).tensorId (x.srIndex k row n))
  else rmodeOf code 0

/-- Bytes padded with zeros to n. -/
def padTo (n : Nat) (bs : List Byte) : List Byte := bs ++ List.replicate (n - bs.length) 0

/-! ### Lanes and flags -/

/-- 512 lanes of +0. -/
def zeroLanes : List Nat := List.replicate 512 0

/-- A row of 512 lanes. -/
def lanes512 (l : List Nat) : List Nat := (List.range 512).map fun n => l.getD n 0

/-- A vector register (R90). -/
def Press.vreg (x : Press) (r : Nat) : List Nat := lanes512 (x.vregs.getD r [])

/-- A lane mask (R90). -/
def Press.mask (x : Press) (m : Nat) : Nat := x.masks.getD m 0

/-- FIN_NUM_FLAGS raised (R68). -/
def State.finFlags (s : State) (p : Nat) (f : NumFlags) : State :=
  let put (s : State) (g : Field) (b : Bool) := if b then s.wr g p 0 1 else s
  put (put (put (put (put (put (put s .finNumFlagsNanIn f.nanIn) .finNumFlagsNanMade f.nanMade)
    .finNumFlagsNavBlock f.navBlock) .finNumFlagsA56Overflow f.a56Overflow)
    .finNumFlagsSaturated f.saturated) .finNumFlagsUnderflow f.underflow)
    .finNumFlagsBf16Truncated f.bf16Truncated

/-! ### Ring registers (R130) -/

/-- Rows handed to the drain are written while the next one's register is free (R130). -/
def Press.settleFrom (x : Press) : Nat → Press
  | 0 => x
  | n + 1 =>
    match x.drainQ with
    | [] => x
    | (r, row) :: q =>
      if x.ringValid.contains r then x
      else Press.settleFrom
        { x with vregs := x.vregs.put r row, ringValid := r :: x.ringValid, drainQ := q } n

/-- The drain writes what it can (R130). -/
def Press.settle (x : Press) : Press := x.settleFrom x.drainQ.length

/-- Rows enter the drain for a ring; beyond 32 the array freezes (R88, R130). -/
def Press.enqueueRing (x : Press) (rows : List (Nat × List Nat)) : Press :=
  let y := ({ x with drainQ := x.drainQ ++ rows }).settle
  { y with frozen := y.frozen || decide (32 < y.drainQ.length) }

/-- A register can be read: not a ring register that waits for a row. A ring register is live while rows for
it have not been popped; one that a PASS or DRAIN names but gives no row is not (R130, log entry 77). -/
def Press.readable (x : Press) (r : Nat) : Bool := x.ringValid.contains r || !x.drainQ.any fun e => e.1 = r

/-- Ring registers popped, all in one cycle; then the drain writes what it can (R130). -/
def Press.pop (x : Press) (rs : List Nat) : Press :=
  if rs.isEmpty then x
  else ({ x with ringValid := x.ringValid.filter fun v => !rs.contains v }).settle

/-! ### The array -/

/-- Bits of a weight or activation element. -/
def codeBits (fmt : Nat) : Nat :=
  match Fmt.ofCode fmt with
  | some f => f.storeBits
  | none => 0

/-- FP6 and FP4 weight mode: two blocks a strip (R46). -/
def twoBlocks (fmt : Nat) : Bool := fmt = 4 || fmt = 5 || fmt = 6

/-- Blocks of 32 K elements that one strip carries (R46). -/
def stripBlocks (fmt : Nat) : Nat := if twoBlocks fmt then 2 else 1

/-- Lines of one strip's weights (R126). -/
def stripLines (fmt : Nat) : Nat :=
  if fmt = 1 then 128 else if fmt = 4 || fmt = 5 then 96 else 64

/-- Lines of one strip's scales (R126). -/
def scaleLines (fmt : Nat) : Nat := if fmt = 1 then 0 else 2 * stripBlocks fmt

/-- Row pitch of activations in lines (R128). -/
def aPitch (wfmt afmt : Nat) : Nat :=
  if twoBlocks wfmt then (if afmt = 6 then 2 else if afmt = 4 || afmt = 5 then 3 else 4)
  else (if afmt = 1 then 4 else if afmt = 6 then 1 else 2)

/-- Scale bytes per activation row (R128). -/
def bprOf (wfmt : Nat) : Nat := if twoBlocks wfmt then 32 else 16

/-- Operand pairs of R43. -/
def pairOk (wfmt afmt : Nat) : Bool :=
  (wfmt = 1 && afmt = 1) || (2 ≤ wfmt && wfmt ≤ 6 && 2 ≤ afmt && afmt ≤ 6)

/-- Value of an element of format code fmt. -/
def codeVal (fmt x : Nat) : FVal :=
  match Fmt.ofCode fmt with
  | some f => f.decode x
  | none => .nan

/-- A block's product values (R44). -/
def products (as ws : List FVal) : List FVal := List.zipWith FVal.mul as ws

/-- Exponent of the leading one of a value; none for zero and specials (R47). -/
def leadExp : FVal → Option Int
  | .fin _ m e => if m = 0 then none else some (Int.ofNat (Nat.log2 m) + e)
  | .nan => none
  | .inf _ => none

/-- Largest leading exponent of a list (R47). -/
def emaxOf (l : List FVal) : Option Int :=
  l.foldl (fun a v =>
    match a, leadExp v with
    | some x, some y => some (max x y)
    | some x, none => some x
    | none, y => y) none

/-- A product truncated toward zero to a multiple of 2^q, and whether it lost bits (R47). -/
def truncTo (q : Int) (v : FVal) : Dy × Bool :=
  match v with
  | .fin n m e =>
    if e ≥ q then (⟨signedMant n m, e⟩, false)
    else
      let sh := (q - e).toNat
      (⟨signedMant n (m / 2 ^ sh), q⟩, m % 2 ^ sh != 0)
  | .nan => (⟨0, 0⟩, false)
  | .inf _ => (⟨0, 0⟩, false)

/-- Sum of finite products: exact, or truncated per product in BF16 (R45, R47). -/
def finiteSum (bf16 : Bool) (ps : List FVal) : FVal × Bool :=
  let q := if bf16 then (emaxOf ps).map fun e => e - 60 else none
  let ts := ps.map fun v =>
    match q with
    | some q => truncTo q v
    | none =>
      match v with
      | .fin n m e => (⟨signedMant n m, e⟩, false)
      | .nan => (⟨0, 0⟩, false)
      | .inf _ => (⟨0, 0⟩, false)
  ((ts.foldl (fun a t => Dy.add a t.1) (Dy.mk 0 0)).toFVal false, ts.any Prod.snd)

/-- A value is an infinity of the sign. -/
def isInf (neg : Bool) : FVal → Bool
  | .inf n => n = neg
  | .nan => false
  | .fin _ _ _ => false

/-- Scaled block sum and its events (R45 to R48, R63). xa and xw are scale bytes; a BF16 block has
none and takes 127 for both. -/
def blockSum (bf16 : Bool) (xa xw : Nat) (as ws : List FVal) : FVal × NumFlags :=
  let ps := products as ws
  if as.any FVal.isNaN || ws.any FVal.isNaN || xa = 255 || xw = 255 then
    (.nan, { NumFlags.none with nanIn := true })
  else if ps.any FVal.isNaN || (ps.any (isInf true) && ps.any (isInf false)) then
    (.nan, { NumFlags.none with nanMade := true })
  else if ps.any (isInf false) then (.inf false, NumFlags.none)
  else if ps.any (isInf true) then (.inf true, NumFlags.none)
  else
    let b := finiteSum bf16 ps
    let v := match b.1 with
      | .fin n m e => FVal.fin n m (e + (Int.ofNat xa - 127) + (Int.ofNat xw - 127))
      | .nan => FVal.nan
      | .inf n => FVal.inf n
    (v, { NumFlags.none with bf16Truncated := b.2 })

/-- One fold into an A56 accumulator (R48, R63). -/
def accStep (acc : Nat × NumFlags) (b : FVal × NumFlags) : Nat × NumFlags :=
  let va := a56Val acc.1
  let r := va.add b.1
  let x := Fmt.encode .a56 .rne false r
  (x.1, ((acc.2.or b.2).or x.2).or
    { NumFlags.none with nanMade := r.isNaN && !va.isNaN && !b.1.isNaN })

/-- Weights and scales of strip s; a strip with no defined weight reads as unspecified bytes of
table n (R126, log entry 1). -/
def Tile.strip (t : Tile) (n s : Nat) : List Byte × List Byte :=
  match t.strips[s]? with
  | some (some e) => e
  | _ => ((List.range (stripLines t.fmt * 256)).map fun i =>
            BitVec.ofNat 8 (Config.freeTable n (s * 2 ^ 20 + i)),
          (List.range (scaleLines t.fmt * 256)).map fun i =>
            BitVec.ofNat 8 (Config.freeTable n (s * 2 ^ 20 + 2 ^ 19 + i)))

/-- Some strip below n holds no defined weight. -/
def Tile.undefBelow (t : Tile) (n : Nat) : Bool :=
  (List.range n).any fun s =>
    match t.strips[s]? with
    | some (some _) => false
    | _ => true

/-- Fold of strip s into column n of one activation row: row bits `act`, row scales `sc`, the
strip's weight bits and scales (R51, R72, R126, R128). -/
def foldStrip (wfmt afmt : Nat) (act : Nat) (sc : List Byte) (s : Nat) (wbits : Nat)
    (wsc : List Byte) (n : Nat) (acc : Nat × NumFlags) : Nat × NumFlags :=
  (List.range (stripBlocks wfmt)).foldl (fun acc b =>
    let j := s * stripBlocks wfmt + b
    let as := (List.range 32).map fun i => codeVal afmt (unpackAt (codeBits afmt) act (32 * j + i))
    let ws := (List.range 32).map fun i =>
      codeVal wfmt (unpackAt (codeBits wfmt) wbits ((32 * b + i) * 512 + n))
    let bf16 := wfmt = 1
    let xa := if bf16 then 127 else (sc.getD j 0).toNat
    let xw := if bf16 then 127 else (wsc.getD (512 * b + n) 0).toNat
    accStep acc (blockSum bf16 xa xw as ws)) acc

/-- One output row of a pass: 512 accumulators and events (R128). -/
def passRow (wfmt afmt strips : Nat) (tile : List (Nat × List Byte)) (act : Nat) (sc : List Byte)
    (head : List Nat) : List Nat × NumFlags :=
  let cols := (List.range 512).map fun n =>
    ((List.range strips).zip tile).foldl
      (fun acc e => foldStrip wfmt afmt act sc e.1 e.2.1 e.2.2 n acc)
      (head.getD n 0, NumFlags.none)
  (cols.map Prod.fst, NumFlags.orAll (cols.map Prod.snd))

/-- Bias register (R73). -/
def Press.biasRow (x : Press) : List Nat := if x.bias.isEmpty then zeroLanes else x.bias

/-- Carry file row m (R86); a row lost and not written again is unspecified. -/
def Press.carryRow (x : Press) (m : Nat) : List Nat :=
  match x.carry.get? m with
  | some r => lanes512 r
  | none =>
    if x.carryLost = 0 then zeroLanes
    else (List.range 512).map fun n => Config.freeTable (x.carryLost - 1) (m * 512 + n) % 2 ^ 56

/-- The tile after a swap (R126): the strips that the load named; above them the live strips
where the format is the same, else no defined weight. -/
def swapTile (live shadow : Tile) : Tile :=
  if live.fmt = shadow.fmt then
    { fmt := shadow.fmt, strips := shadow.strips ++ live.strips.drop shadow.strips.length }
  else shadow

/-! ### The drain -/

/-- Row pitch of the drain and of FST in lines (R129, R133). -/
def dPitch (fmt : Nat) : Nat :=
  if fmt = 7 then 16 else if fmt = 0 then 8 else if fmt = 1 then 4 else if fmt = 6 then 1 else 2

/-- One row converted: element patterns, scale bytes, events (R56, R58, R66, R129). `rs` gives the
rounding mode of each column. -/
def convertRow (fmt : Nat) (sat : Bool) (rs : List RMode) (vs : List FVal) :
    List Nat × List Nat × NumFlags :=
  match Fmt.ofCode fmt with
  | none => ([], [], NumFlags.none)
  | some f =>
    if f.isMx then
      let bs := (List.range (vs.length / 32)).map fun b =>
        mxQuantise f ((rs.drop (32 * b)).take 32) ((vs.drop (32 * b)).take 32)
      ((bs.map fun e => e.2.1).flatten, bs.map Prod.fst, NumFlags.orAll (bs.map fun e => e.2.2))
    else
      let es := List.zipWith (fun r v => f.encode r sat v) rs vs
      (es.map Prod.fst, [], NumFlags.orAll (es.map Prod.snd))

/-- Bytes of a converted row as stored, padded to its pitch (R40, R41, R129). -/
def rowBytes (fmt : Nat) (els : List Nat) : List Byte :=
  match Fmt.ofCode fmt with
  | none => []
  | some f => padTo (dPitch fmt * 256) (f.pack els)

/-- Events of a conversion that reads A56 values: a NaN is not flagged again (R68). -/
def State.drainRow (s : State) (p : Nat) (o : DrainOut) (row : Nat) (accs : List Nat) :
    List Nat × List Nat × NumFlags :=
  if o.dfmt = 7 then (accs, [], NumFlags.none)
  else
    convertRow o.dfmt o.sat ((List.range 512).map fun n => s.rmode p o.rmode o.key row n)
      (accs.map a56Val)

/-- Scale lines of a drained pass: 16 rows a line, 0x7F beyond the last row (R129). -/
def scaleLine (scs : List (List Nat)) (g : Nat) : List Byte :=
  ((List.range 16).map fun r =>
    match scs[16 * g + r]? with
    | some bs => bs.map fun b => BitVec.ofNat 8 b
    | none => List.replicate 16 (0x7F : Byte)).flatten

/-- Case lines that a drain reaches (R129). -/
def drainLines (o : DrainOut) (x : Press) (rows : Nat) : List (Int × Nat) :=
  if o.toRing then []
  else
    (x.addr o.dad, rows * dPitch o.dfmt) ::
      (if 2 ≤ o.dfmt && o.dfmt ≤ 6 then [(x.addr o.dsad, (rows + 15) / 16)] else [])

/-- Address registers of a drain lie in the case (R120). -/
def drainSpaceOk (o : DrainOut) (x : Press) : Bool :=
  o.toRing || (x.inCase o.dad && (!(2 ≤ o.dfmt && o.dfmt ≤ 6) || x.inCase o.dsad))

/-- Whether a drain of rows to the case ever held 32 of them: it does not keep the rows' pace in A56 or where
banks collide. That is a matter of cycles, and a free value (R88, R96; log entry 37). -/
def State.caseFreeze (s : State) (rows : Nat) : Bool := 32 < rows && Config.freeValue s.freeCount % 2 = 1

/-- Rows drained to the case or to a ring (R88, R129, R130). DESIGN CHOICE: a DRAIN of more than 32 carry rows to the
case freezes the array on a collision of banks as the rows of a foot do, though R88 speaks of rows that reach the
foot alone (log entry 90). -/
def State.drainRows (s : State) (p : Nat) (o : DrainOut) (accs : List (List Nat)) : State :=
  let conv := (List.range accs.length).map fun m => s.drainRow p o m (accs.getD m [])
  let fl := NumFlags.orAll (conv.map fun e => e.2.2)
  let x := s.press p
  let y :=
    if o.toRing then
      x.enqueueRing ((List.range accs.length).map fun m =>
        (o.vbase + m % 2 ^ o.ring, (conv.getD m ([], [], fl)).1))
    else
      let d := (x.addr o.dad).toNat
      let x := { x with frozen := x.frozen || s.caseFreeze accs.length }
      let x := x.writeCase d ((conv.map fun e => rowBytes o.dfmt e.1).flatten)
      if 2 ≤ o.dfmt && o.dfmt ≤ 6 then
        let scs := conv.map fun e => e.2.1
        x.writeCase (x.addr o.dsad).toNat
          (((List.range ((accs.length + 15) / 16)).map fun g => scaleLine scs g).flatten)
      else x
  (s.setPress p y).finFlags p fl

/-! ### The finisher -/

/-- Lane n is enabled (R132). -/
def Press.laneOn (x : Press) (f : FinF) (n : Nat) : Bool := !f.pen || bit (x.mask f.pmask) n

/-- Source B: register, its lane 0 broadcast, or the immediate (R117). -/
def Press.srcB (x : Press) (f : FinF) : List Nat :=
  if f.bi then List.replicate 512 f.imm
  else if f.bb then List.replicate 512 ((x.vreg f.vb).getD 0 0)
  else x.vreg f.vb

/-- The finisher's reads can be met (R130). -/
def Press.finReady (x : Press) (a b c : Bool) (f : FinF) : Bool :=
  (!a || x.readable f.va) && (!b || f.bi || x.readable f.vb) && (!c || x.readable f.vc)

/-- The pops of an instruction (R130). DESIGN CHOICE: pb set together with bi pops the row of vb, which is not read and
so not waited for (R117; log entry 90). -/
def Press.pops (x : Press) (f : FinF) : Press :=
  x.pop ((if f.pa then [f.va] else []) ++ if f.pb then [f.vb] else [])

/-- Lanes written under the mask (R132). -/
def Press.merge (x : Press) (f : FinF) (new : List Nat) : List Nat :=
  (List.range 512).map fun n => if x.laneOn f n then new.getD n 0 else (x.vreg f.vd).getD n 0

/-- Events of one lane: a NaN read, a NaN made (R68). -/
def laneFlags (operands : List FVal) (r : FVal) : NumFlags :=
  { NumFlags.none with
    nanIn := operands.any FVal.isNaN, nanMade := r.isNaN && !operands.any FVal.isNaN }

/-- A lane operation over FP32 operands: result values and events of the enabled lanes (R64, R68,
R132). -/
def Press.lanes (x : Press) (f : FinF) (srcs : List (List Nat)) (op : List FVal → FVal) :
    List Nat × NumFlags :=
  let es := (List.range 512).map fun n =>
    let vs := srcs.map fun l => fp32Val (l.getD n 0)
    let r := op vs
    (fp32Of r, if x.laneOn f n then laneFlags vs r else NumFlags.none)
  (es.map Prod.fst, NumFlags.orAll (es.map Prod.snd))

/-- A finisher result in vd, with the pops and the events (R130, R132). -/
def State.finWrite (s : State) (p : Nat) (f : FinF) (res : List Nat × NumFlags) : State :=
  let x := s.press p
  let y := { x with vregs := x.vregs.put f.vd (x.merge f res.1) }
  (s.setPress p (y.pops f)).finFlags p res.2

/-- A mask result (FCMP, FMSK), under the lane mask (R132). -/
def State.maskWrite (s : State) (p : Nat) (f : FinF) (bits : Nat → Bool) (fl : NumFlags) : State :=
  let x := s.press p
  let old := x.mask f.vd
  let new := (List.range 512).foldl
    (fun a n => if (if x.laneOn f n then bits n else bit old n) then a + 2 ^ n else a) 0
  let y := { x with masks := x.masks.put f.vd new }
  (s.setPress p (y.pops f)).finFlags p fl

/-- A lane reduction: the tree over the lanes, masked ones supplying the identity; lane 0 of vd, +0
elsewhere (R53, R92, R132). -/
def State.reduce (s : State) (p : Nat) (f : FinF) (ident : Nat) (op : FVal → FVal → FVal) : State :=
  let x := s.press p
  let ls := (List.range 512).map fun n =>
    if x.laneOn f n then
      let v := (x.vreg f.va).getD n 0
      (v, laneFlags [fp32Val v] (.fin false 0 0))
    else (ident, NumFlags.none)
  let r := tree (fun a b =>
    let va := fp32Val a.1
    let vb := fp32Val b.1
    let v := op va vb
    (fp32Of v, (a.2.or b.2).or
      { NumFlags.none with nanMade := v.isNaN && !va.isNaN && !vb.isNaN })) (0, NumFlags.none) ls
  let y := { x with vregs := x.vregs.put f.vd (r.1 :: List.replicate 511 0) }
  (s.setPress p (y.pops f)).finFlags p r.2

/-- A finisher instruction of two or three vector sources (R132). -/
def State.finOp (s : State) (p : Nat) (k : Tok) (o : FinOp) (f : FinF)
    (op : List FVal → FVal) : Res :=
  let u := o.use
  s.dispatch p k uFin (o.fieldOk f) 0 ((s.press p).finReady u.va u.vb (u.vc && o = .ffma) f) []
    [.prsBusyCyclesBusy] fun s =>
      let x := s.press p
      let srcs := (if u.va then [x.vreg f.va] else []) ++ (if u.vb then [x.srcB f] else []) ++
        (if o = .ffma then [x.vreg f.vc] else [])
      s.finWrite p f (x.lanes f srcs op)

/-- First of a list of values, or +0. -/
def arg (vs : List FVal) (n : Nat) : FVal := vs.getD n (.fin false 0 0)

end Sys2Proof.Machine
end

