-- ==== Sys2Proof/Machine/Control.lean ====
section
/-!
DEFINITION. Press control instructions (R107 to R113, R119 to R125).
-/

namespace Sys2Proof.Machine

/-- NOP: only the dispatch (R112). -/
def execNop (p : Nat) (k : Tok) (s : State) : Res :=
  s.dispatch p k uSeq true 0 true [] [] fun s => s

/-- LOOP: a frame of countM1 + 1 trips over the bodyM1 + 1 instructions that follow, its index 0
(R119). -/
def execLoop (p : Nat) (k : Tok) (level countM1 bodyM1 : Nat) (s : State) : Res :=
  s.dispatch p k uSeq true 0 true [] [] fun s =>
    let x := s.press p
    let pc := s.rd .prsSeqStatusPc p 0 + 1
    s.setPress p { x with frames := ⟨level, countM1 + 1, pc, pc + bodyM1 + 1⟩ :: x.frames,
                          idx := x.idx.put level 0 }

/-- SETA: address register ad (R120). -/
def execSeta (p : Nat) (k : Tok) (ad : Nat) (a : AddrReg) (s : State) : Res :=
  s.dispatch p k uSeq true 0 true [] [] fun s =>
    s.setPress p { s.press p with ads := (s.press p).ads.put ad a }

/-- SRK: key register (R121). -/
def execSrk (p : Nat) (k : Tok) (key : Nat) (a : SrKey) (s : State) : Res :=
  s.dispatch p k uSeq true 0 true [] [] fun s =>
    s.setPress p { s.press p with keys := (s.press p).keys.put key a }

/-- Every unit of the press is empty (R122). -/
def Press.idle (x : Press) : Bool := [1, 2, 3, 4, 5].all fun u => (x.queue u).isEmpty

/-- STEP: held until every unit has completed; then reports to the forme, and the press is READY
awaiting its next release; the gating mode HOLD ends with the step (R122, R125). -/
def execStepEnd (p : Nat) (k : Tok) (s : State) : Res :=
  s.dispatch p k uSeq true (if (s.press p).idle then 0 else 4) true [] [] fun s =>
    let x := s.press p
    let s := s.setPress p { x with rampMode := if x.rampMode = 1 then 0 else x.rampMode }
    (((s.setPState p pReady).wr .hPrsStepped p 0 1).wrap .prsStepCountSteps p 0 1).wr
      .prsSeqStatusHold p 0 5

/-- BSIG: this press's next arrival on the barrier (R124, R353). -/
def execBsig (p : Nat) (k : Tok) (barrier : Nat) (s : State) : Res :=
  s.dispatch p k uSeq true 0 true [] [] fun s =>
    let x := s.press p
    let s := s.setPress p { x with signals := x.signals.put barrier (x.signals.getD barrier 0 + 1) }
    match s.formeOfPress p with
    | none => s
    | some f => s.barrierArrive f.number barrier 0 p

/-- The barrier has completed as many rounds as this press signalled it (R124). -/
def State.barrierPassed (s : State) (p barrier : Nat) : Bool :=
  match s.formeOfPress p with
  | none => (s.press p).signals.getD barrier 0 = 0
  | some f => (s.press p).signals.getD barrier 0 ≤ s.rounds f.number barrier

/-- BWAIT: held until the barrier has passed (R124). -/
def execBwait (p : Nat) (k : Tok) (barrier : Nat) (s : State) : Res :=
  s.dispatch p k uSeq true (if s.barrierPassed p barrier then 0 else 3) true [] [] fun s => s

/-- The units that FENCE names have completed: bit 4 SHD, 3 ARR, 2 FIN, 1 BIN, 0 BOUT (R113). -/
def Press.fencePassed (x : Press) (units : Nat) : Bool :=
  [1, 2, 3, 4, 5].all fun u => !bit units (5 - u) || (x.queue u).isEmpty

/-- FENCE: held until every named unit has completed; naming none is illegal (R113, R123). -/
def execFence (p : Nat) (k : Tok) (units : Nat) (s : State) : Res :=
  s.dispatch p k uSeq (units != 0) (if (s.press p).fencePassed units then 0 else 4) true [] []
    fun s => s

/-- No row is in flight and no shadow load is in progress: ARR and SHD are empty (R102, R125). -/
def Press.arrayIdle (x : Press) : Bool := (x.queue uArr).isEmpty && (x.queue uShd).isEmpty

/-- RAMP: the gating mode; WARM starts the ramp of a gated array, GATE gates it once it is idle, at once here
or when the last of its instructions completes (R125). The free value that `unitFull` read is passed. -/
def execRamp (p : Nat) (k : Tok) (mode : Nat) (s : State) : Res :=
  let idle := (s.press p).arrayIdle
  s.dispatch p k uArr true 0 true [] [] fun s =>
    let s := (s.free 1).2
    let x := s.press p
    s.setPress p { x with
      rampMode := mode,
      gated := if mode = 2 then false else if mode = 3 then x.gated || idle else x.gated }

end Sys2Proof.Machine
end

