-- ==== Sys2Proof/Machine/Array.lean ====
section
/-!
DEFINITION. Array instructions: WLOAD, BIAS, PASS, DRAIN (R70 to R78, R86 to R88, R126 to R131).
-/

namespace Sys2Proof.Machine

/-- Depth of the form in use (R82, R106). -/
def State.depth (s : State) (p : Nat) : Nat := if s.rd .prsSeqStatusForm p 0 = 1 then 15 else 16

/-- One strip of a shadow load: its weights and scales from the case (R126). -/
def loadStrip (x : Press) (wfmt : Nat) (w sc : Nat) (s : Nat) : List Byte × List Byte :=
  (x.caseBytes (w + s * stripLines wfmt) (stripLines wfmt * 256),
   x.caseBytes (sc + s * scaleLines wfmt) (scaleLines wfmt * 256))

/-- Some strip's shadow may still hold weights that it has not swapped in: a load that no pass has taken yet, or
one whose pass is in flight (R77, R78). -/
def Press.unswapped (x : Press) : Bool :=
  !x.shadow.isEmpty || (x.queue uArr).any fun e => (e.run.map ArrRun.swap).getD false

/-- WLOAD: the shadow slots of strips 0 to strips - 1 (R76, R126); a load behind one that is not yet swapped
in waits for its turn, and its cycles of waiting count (R78). The load starts the ramp of a gated array
(R103). -/
def execWload (p : Nat) (k : Tok) (w : WloadF) (ce : List Nat) (s : State) : Res :=
  let x := s.press p
  let legal := w.fieldOk && w.strips ≤ s.depth p && x.inCase w.wad && (w.wfmt = 1 || x.inCase w.sad)
  s.dispatch p k uShd legal 0 true
    ((x.addr w.wad, w.strips * stripLines w.wfmt) ::
      (if w.wfmt = 1 then [] else [(x.addr w.sad, w.strips * scaleLines w.wfmt)]))
    (.prsStallCountsCaseConflict :: if x.unswapped then [.prsStallCountsShadowWait] else []) fun s =>
    let x := s.press p
    let s := s.setPress p { x with
      gated := false,
      shadow := x.shadow ++ [Tile.mk w.wfmt ((List.range w.strips).map fun i =>
                    some (loadStrip x w.wfmt (x.addr w.wad).toNat (x.addr w.sad).toNat i))] }
    s.caseCes p ce

/-- BIAS: the bias register from FP32 or A56 values, exactly (R127). -/
def execBias (p : Nat) (k : Tok) (bfmt bad : Nat) (ce : List Nat) (s : State) : Res :=
  let x := s.press p
  s.dispatch p k uArr (biasFieldOk bfmt && x.inCase bad) 0 true
    [(x.addr bad, if bfmt = 7 then 16 else 8)] [.prsStallCountsCaseConflict] fun s =>
    let x := s.press p
    let l := (x.addr bad).toNat
    let row := if bfmt = 7 then Fmt.a56.unpack 512 (x.caseBytes l 4096)
      else (Fmt.fp32.unpack 512 (x.caseBytes l 2048)).map (convert .fp32 .a56)
    (s.setPress p { x with bias := row }).caseCes p ce

/-- The weights that a pass runs on: the swap makes the shadow live (R77, R126). -/
def Press.passTile (x : Press) (swap : Bool) : Tile :=
  match swap, x.shadow with
  | true, t :: _ => swapTile x.live t
  | _, _ => x.live

/-- Head value of row m (R73). -/
def Press.headRow (x : Press) (head m : Nat) : List Nat :=
  if head = 1 then x.biasRow else if head = 2 then x.carryRow m else zeroLanes

/-- Legality of PASS with the tile it meets (R43, R82, R86, R116, R120). -/
def passLegal (x : Press) (f : PassF) (depth : Nat) : Bool :=
  let t := x.passTile f.swap
  f.fieldOk && f.strips ≤ depth && pairOk t.fmt f.afmt &&
    (f.mM1 < 1024 || (f.head != 2 && f.foot = 0)) &&
    x.inCase f.aad && (f.afmt = 1 || x.inCase f.asad) && (f.foot = 1 || drainSpaceOk f.out x)

/-- Lines of one activation row that a pass of so many strips reads: the first strips × 32 elements, or × 64
where a strip carries two blocks; the rest of the row is ignored (R128). -/
def rowLines (wfmt afmt strips : Nat) : Nat := (strips * stripBlocks wfmt * 32 * codeBits afmt + 2047) / 2048

/-- Case lines of a pass's activation rows and their scales, row by row where a row's last lines are not read
(R128). -/
def passLines (x : Press) (f : PassF) : List (Int × Nat) :=
  let t := x.passTile f.swap
  let rows := f.mM1 + 1
  let rpl := 256 / bprOf t.fmt
  let pitch := aPitch t.fmt f.afmt
  let read := rowLines t.fmt f.afmt f.strips
  (if read = pitch then [(x.addr f.aad, rows * pitch)]
    else (List.range rows).map fun m => (x.addr f.aad + Int.ofNat (m * pitch), read)) ++
    (if f.afmt = 1 then [] else [(x.addr f.asad, (rows + rpl - 1) / rpl)])

/-- Output rows of a pass with their events: rows take the head value in order, and carry entries
written by an earlier row are not read by a later one (R128). -/
def passRows (x : Press) (t : Tile) (n : Nat) (f : PassF) : List (List Nat × NumFlags) :=
  let tile := (List.range f.strips).map fun i =>
    let e := t.strip n i
    (leNat e.1, e.2)
  let pitch := aPitch t.fmt f.afmt
  let bpr := bprOf t.fmt
  let rpl := 256 / bpr
  (List.range (f.mM1 + 1)).map fun m =>
    let act := leNat (x.caseBytes ((x.addr f.aad).toNat + m * pitch) (pitch * 256))
    let sc := x.caseMem.read (((x.addr f.asad).toNat + m / rpl) * 256 + bpr * (m % rpl)) bpr
    passRow t.fmt f.afmt f.strips tile act sc (x.headRow f.head m)

/-- Carry entries written from a list of rows. -/
def putCarry (c : SMap Nat (List Nat)) (m : Nat) : List (List Nat) → SMap Nat (List Nat)
  | [] => c
  | r :: rs => putCarry (c.put m r) (m + 1) rs

/-- A failed slice of a physical strip (R433, R436), or a slot parity error (R435): counted, and
the strip waits to be marked at the boundary (R84). A strip in use abandons the edition with
PROOF_SLICE; the spare abandons nothing (R85). -/
def State.stripFails (s : State) (p strip t : Nat) (parity : Bool) : State :=
  let s := s.orBit .hPrsFailPend p 0 strip
  let s := if parity then s.orBit .hPrsParity p 0 strip else s
  let s := (s.bump .prfPressFails 0 p 1).wr .prfPressLastFail 0 p strip
  let s := s.wr .coreIrqEventsProof 0 0 1
  if s.stripInUse p strip then s.abandonPress p causeSlice t else s

/-- Fewest press cycles in which array instructions issue their rows, one after another (R70, R131). -/
def issueCycles (q : List UnitEntry) : Nat :=
  (q.map fun e => (e.run.map fun r => r.rate * r.rows).getD 0).sum

/-- Row i of an instruction behind q, one row every `rate` cycles and read `at` cycles after its issue, comes to
carry entry m0 + i before the pass r, the first of q, has written it, D + 20 cycles after that row issues
(R87). -/
def readsEarly (q : List UnitEntry) (r : ArrRun) (rate at' m0 i : Nat) : Bool :=
  issueCycles q + rate * i + at' < r.rate * (m0 + i) + r.depth + 20

/-- Some carry entry that an instruction of n rows reads from m0 on may still be unwritten by a pass in flight
before it: both sides grow evenly with the row, so the first and the last row that meet that pass's entries
decide (R87). -/
def carryMayWait (rate at' m0 n : Nat) : List UnitEntry → Bool
  | [] => false
  | e :: q =>
    (match e.run with
      | none => false
      | some r =>
        let k := min n (r.carry - m0)
        k != 0 && (readsEarly (e :: q) r rate at' m0 0 || readsEarly (e :: q) r rate at' m0 (k - 1))) ||
      carryMayWait rate at' m0 n q

/-- Depth D of the array in cycles: one for each cell row that a row passes, two in BF16 (R71, R87). -/
def State.arrayDepth (s : State) (p wfmt : Nat) : Nat := s.depth p * 32 * if wfmt = 1 then 2 else 1

/-- Cycles from row to row of a pass: 1, or 2 in BF16 (R70). -/
def passRate (wfmt : Nat) : Nat := if wfmt = 1 then 2 else 1

/-- What a PASS does in flight (R77, R87). -/
def State.passRun (s : State) (p : Nat) (f : PassF) : ArrRun :=
  let t := (s.press p).passTile f.swap
  { swap := f.swap, rate := passRate t.fmt, rows := f.mM1 + 1,
    carry := if f.foot = 0 then 0 else f.mM1 + 1, depth := s.arrayDepth p t.fmt }

/-- The array instruction just issued notes what it does in flight. -/
def Press.running (x : Press) (r : ArrRun) : Press :=
  { x with queues := x.queues.put uArr (match (x.queue uArr).reverse with
      | [] => []
      | e :: l => (({ e with run := some r } : UnitEntry) :: l).reverse) }

/-- Cycle counts that a PASS can raise: busy, bank collisions, the load that it swaps in while a WLOAD writes
it, the carry entries that a pass in flight has yet to write; a row reads its own 12 cycles after it issues
(R78, R87, R96, R105). -/
def passWaits (x : Press) (f : PassF) : List Field :=
  [.prsBusyCyclesBusy, .prsStallCountsCaseConflict] ++
    (if f.swap && x.shadow.length ≤ (x.queue uShd).length && !(x.queue uShd).isEmpty
      then [.prsStallCountsShadowWait] else []) ++
    (if f.head = 2 && carryMayWait (passRate (x.passTile f.swap).fmt) 12 0 (f.mM1 + 1) (x.queue uArr)
      then [.prsStallCountsCarryWait] else [])

/-- PASS: M rows through the array, each folded in logical strip order, to carry, drain or both (R128). The
swap consumes the shadow load, and waits where that load is still in progress (R78); a head of carry waits
for a pass still in flight (R87); the first row starts the ramp of a gated array. -/
def execPass (p : Nat) (k : Tok) (f : PassF) (parity : Option Nat) (ce : List Nat) (s : State) : Res :=
  let x := s.press p
  s.dispatch p k uArr (passLegal x f (s.depth p)) 0 true
    (passLines x f ++ (if f.foot = 1 then [] else drainLines f.out x (f.mM1 + 1))) (passWaits x f) fun s =>
    let r := s.passRun p f
    let x := (s.press p).running r
    let t := x.passTile f.swap
    let n := s.freeCount
    let s := if t.undefBelow f.strips then { s with freeCount := n + 1 } else s
    let rows := passRows x t n f
    let accs := rows.map Prod.fst
    let y := { x with
      gated := false, live := t, shadow := if f.swap then x.shadow.drop 1 else x.shadow,
      carry := if f.foot = 0 then x.carry else putCarry x.carry 0 accs }
    let s := (s.setPress p y).finFlags p (NumFlags.orAll (rows.map Prod.snd))
    let s := if f.foot = 1 then s else s.drainRows p f.out accs
    let s := s.caseCes p ce
    match parity with
    | none => s
    | some strip => s.stripFails p strip s.now true

/-- Cycles from row to row of a DRAIN: 2 for A56 to the case, else 1 (R131). -/
def drainRate (o : DrainOut) : Nat := if o.dfmt = 7 && !o.toRing then 2 else 1

/-- Cycle counts that a DRAIN can raise: a row reads its carry entry in the cycle in which it issues (R87,
R96, R105, R131). -/
def drainWaits (x : Press) (f : DrainF) : List Field :=
  [.prsBusyCyclesBusy, .prsStallCountsCaseConflict] ++
    if carryMayWait (drainRate f.out) 0 f.m0 (f.mM1 + 1) (x.queue uArr) then [.prsStallCountsCarryWait] else []

/-- What a DRAIN does in flight (R131). -/
def drainRun (f : DrainF) : ArrRun :=
  { swap := false, rate := drainRate f.out, rows := f.mM1 + 1, carry := 0, depth := 0 }

/-- DRAIN: carry entries m0 on, each placed as row i; it waits on an entry of a pass still in flight (R87,
R131). Its rows do not pass through the array, so a gated array stays gated (log entry 77). -/
def execDrain (p : Nat) (k : Tok) (f : DrainF) (s : State) : Res :=
  let x := s.press p
  s.dispatch p k uArr (f.fieldOk && f.m0 + f.mM1 + 1 ≤ 1024 && drainSpaceOk f.out x) 0 true
    (drainLines f.out x (f.mM1 + 1)) (drainWaits x f) fun s =>
    (s.setPress p ((s.press p).running (drainRun f))).drainRows p f.out ((List.range (f.mM1 + 1)).map fun i => (s.press p).carryRow (f.m0 + i))

end Sys2Proof.Machine
end

