-- ==== Sys2Proof/Machine/Keys.lean ====
section
/-!
DEFINITION. Key records of the configuration flash, when a key is valid (R463 to R465), and signature
blocks (R217, R466).
-/

namespace Sys2Proof.Machine

/-- Role of a key record (R463, R464). -/
def recRole (r : List Byte) : Nat := leAt r 4 1

/-- Public key of a key record (R464). -/
def recKey (r : List Byte) : List Byte := (r.drop 16).take 1793

/-- Signature of a key record (R464). -/
def recSig (r : List Byte) : List Byte := (r.drop 1824).take 1280

/-- A key's signature verifies over a record's bytes 0 to 1,823 (R464). -/
def recSigned (r key : List Byte) : Bool := Config.falconVerify key (r.take 1824) (recSig r)

/-- Record of a key slot. -/
def State.keyRec (s : State) (slot : Nat) : Option (List Byte) := s.keys.get? slot

/-- Roles allowed in a slot (R463). -/
def roleInSlot (slot role : Nat) : Bool :=
  if slot = 0 then role = 0
  else if slot = 1 then role = 1
  else if slot = 2 || slot = 3 then role = 2
  else if slot = 4 then role = 3
  else role = 4 || role = 5

/-- The record of a slot has its own index and a role allowed there (R465). -/
def recFits (slot : Nat) (r : List Byte) : Bool := leAt r 0 4 = slot && roleInSlot slot (recRole r)

/-- Slot 0 holds the key whose digest the read-only memory holds (R465). -/
def State.rootValid (s : State) : Bool :=
  match s.keyRec 0 with
  | none => false
  | some r => recFits 0 r && Config.shake256 (recKey r) 64 = Config.rootDigest

/-- Slot 4 holds a self-signed OWNER_ROOT (R464, R465). -/
def State.ownerValid (s : State) : Bool :=
  match s.keyRec 4 with
  | none => false
  | some r => recFits 4 r && leAt r 8 4 = 4 && recSigned r (recKey r)

/-- A slot's record, certified by the slot that its role needs (R463, R465). -/
def State.certified (s : State) (slot parent : Nat) : Bool :=
  match s.keyRec slot, s.keyRec parent with
  | some r, some q =>
    recFits slot r && leAt r 8 4 = parent && recSigned r (recKey q) &&
      (slot < 4 || s.rd .secCounterValue 0 2 ≤ leAt r 12 4)
  | _, _ => false

/-- A slot's key is valid (R465). -/
def State.keyValid (s : State) (slot : Nat) : Bool :=
  if slot = 0 then s.rootValid
  else if slot < 4 then s.rootValid && s.certified slot 0
  else if slot = 4 then s.ownerValid
  else slot < 16 && s.ownerValid && s.certified slot 4

/-- A slot holds a valid key of a role. -/
def State.keyOf (s : State) (slot role : Nat) : Option (List Byte) :=
  match s.keyRec slot with
  | some r => if s.keyValid slot && recRole r = role then some (recKey r) else none
  | none => none

/-- Valid slots as bits, and whether slot 4 holds an owner (SEC_STATUS). -/
def State.showKeys (s : State) : State :=
  let m := (List.range 16).foldl (fun m i => if s.keyValid i then setBit m i else m) 0
  (s.wr .secStatusKeys 0 0 m).wr .secStatusOwner 0 0 (b2n s.ownerValid)

/-- Bytes of a signature block (R217). -/
def sigBytes : Nat := 1536

/-- The digest of a block covers the bytes before it (R217, R466). -/
def digestOk (body block : List Byte) : Bool := (block.drop 8).take 64 = Config.shake256 body 64

/-- A block's signature verifies under a slot's key of a role (R217, R465, R466). -/
def State.blockSigned (s : State) (block : List Byte) (role : Nat) : Bool :=
  match s.keyOf (leAt block 0 4) role with
  | some key => Config.falconVerify key (block.take 72) ((block.drop 72).take 1280)
  | none => false

/-- An image or imposition split before its signature block. -/
def splitSig (bs : List Byte) : List Byte × List Byte :=
  (bs.take (bs.length - sigBytes), bs.drop (bs.length - sigBytes))

/-! ### Images (R466) -/

/-- Rollback version of an image (R466). -/
def imageVersion (img : List Byte) : Nat := leAt img 24 8

/-- An image verifies (R466). -/
def State.imageOk (s : State) (img : List Byte) : Bool :=
  let p := splitSig img
  sigBytes ≤ img.length && digestOk p.1 p.2 && s.blockSigned p.2 2

/-- An image slot can be booted: it verifies and its version is at least the firmware counter (R466). -/
def State.bootable (s : State) (slot : Nat) : Option (List Byte) :=
  match s.images.get? slot with
  | some img => if s.imageOk img && s.rd .secCounterValue 0 1 ≤ imageVersion img then some img else none
  | none => none

/-- The slot that stage 4 boots: the higher version, A where they are equal (R466). -/
def State.pickImage (s : State) : Option (Nat × List Byte) :=
  match s.bootable 0, s.bootable 1 with
  | some a, some b => some (if imageVersion a < imageVersion b then (1, b) else (0, a))
  | some a, none => some (0, a)
  | none, some b => some (1, b)
  | none, none => none

end Sys2Proof.Machine
end

