-- ==== Sys2Proof/Machine/JobDesc.lean ====
section
/-!
DEFINITION. Job descriptors (R174, R187), rank trees (R189), and where shards and rows lie (R177,
R183, R200, R533).
-/

namespace Sys2Proof.Machine

/-- Lines of 256 bytes that n bytes take. -/
def linesOf (n : Nat) : Nat := (n + 255) / 256

/-! ### Descriptors: 64 bytes as one little-endian number -/

/-- Byte 0: kind of a compositor job, op of a collective one. -/
def jKind (d : Nat) : Nat := bitsAt d 0 8
/-- Byte 3 bit 7: a collective engine runs it (R170). -/
def jCol (d : Nat) : Bool := bit d 31
/-- Byte 3 bits 1:0: its chase (R170). -/
def jChase (d : Nat) : Nat := bitsAt d 24 2
/-- Byte 1 bits 7:4: mode of POOL; ifmt of a collective job. -/
def jMode (d : Nat) : Nat := bitsAt d 12 4
/-- Byte 1 bits 3:0: efmt of a compositor job; ofmt of a collective one. -/
def jFmt (d : Nat) : Nat := bitsAt d 8 4
/-- ofmt of POOL. -/
def pOfmt (d : Nat) : Nat := bitsAt d 20 4
/-- rmode of POOL. -/
def pRmode (d : Nat) : Nat := bitsAt d 18 2
/-- sat of POOL. -/
def pSat (d : Nat) : Bool := bit d 17
/-- dim. -/
def pDim (d : Nat) : Nat := bitsAt d 32 16
/-- row_bytes. -/
def pRowBytes (d : Nat) : Nat := bitsAt d 48 16
/-- table_base. -/
def pTable (d : Nat) : Nat := bitsAt d 64 38
/-- table_rows. -/
def pRows (d : Nat) : Nat := bitsAt d 128 32
/-- bags; 2^24 is held as 0 in its 24 bits (log entry 21). -/
def pBags (d : Nat) : Nat := if bitsAt d 160 24 = 0 then 2 ^ 24 else bitsAt d 160 24
/-- slots. -/
def pSlots (d : Nat) : Nat := bitsAt d 192 16
/-- index_line. -/
def pIndex (d : Nat) : Nat := bitsAt d 224 21
/-- weight_line. -/
def pWeight (d : Nat) : Nat := bitsAt d 256 21
/-- out_line. -/
def pOut (d : Nat) : Nat := bitsAt d 288 21
/-- stage_line of a compositor job. -/
def pStage (d : Nat) : Nat := bitsAt d 320 21
/-- tensor_id of a compositor job. -/
def pTensor (d : Nat) : Nat := bitsAt d 352 24
/-- plan. -/
def cPlan (d : Nat) : Nat := bitsAt d 32 16
/-- my_rank. -/
def cRank (d : Nat) : Nat := bitsAt d 48 13
/-- count. -/
def cCount (d : Nat) : Nat := bitsAt d 64 32
/-- src_line. -/
def cSrc (d : Nat) : Nat := bitsAt d 96 21
/-- dst_line. -/
def cDst (d : Nat) : Nat := bitsAt d 128 21
/-- stage_line of a collective job. -/
def cStage (d : Nat) : Nat := bitsAt d 160 21
/-- stage_lines. -/
def cStageLines (d : Nat) : Nat := bitsAt d 192 21
/-- tensor_id of a collective job. -/
def cTensor (d : Nat) : Nat := bitsAt d 224 24
/-- rmode of a collective job. -/
def cRmode (d : Nat) : Nat := bitsAt d 22 2
/-- sat of a collective job. -/
def cSat (d : Nat) : Bool := bit d 21
/-- experts E. -/
def cExperts (d : Nat) : Nat := bitsAt d 320 16
/-- capacity C. -/
def cCap (d : Nat) : Nat := bitsAt d 336 16
/-- tokens T. -/
def cTokens (d : Nat) : Nat := bitsAt d 352 16
/-- k. -/
def cK (d : Nat) : Nat := bitsAt d 372 4
/-- kc. -/
def cKc (d : Nat) : Nat := bitsAt d 368 4
/-- route_line. -/
def cRoute (d : Nat) : Nat := bitsAt d 384 21
/-- mask_line. -/
def cMask (d : Nat) : Nat := bitsAt d 416 21
/-- Barrier signalled on completion (R172). -/
def jBarrier (d : Nat) : Nat := if jCol d then bitsAt d 248 6 else bitsAt d 376 6
/-- First reservation of the job. -/
def jResFirst (d : Nat) : Nat := if jCol d then bitsAt d 256 12 else bitsAt d 384 12
/-- Reservations of the job. -/
def jResCount (d : Nat) : Nat := if jCol d then bitsAt d 272 5 else bitsAt d 400 4
/-- Start offset. -/
def jStart (d : Nat) : Nat := if jCol d then bitsAt d 288 32 else bitsAt d 416 32

/-- Bytes of n elements in a format code; MX formats carry one scale byte for each 32 elements (R177,
R200, R533). -/
def elemBytes (fmt n : Nat) : Nat :=
  match Fmt.ofCode fmt with
  | none => 0
  | some f => f.packedBytes n + if f.isMx then n / 32 else 0

/-- Bytes of an output element: 4 for FP32, 2 for BF16 (R183, R201). -/
def obytes (fmt : Nat) : Nat := if fmt = 0 then 4 else 2

/-- Bytes of an element of a node value: A56 in 8, else FP32. -/
def nodeBytes (d : Nat) : Nat := if jMode d = 7 then 8 else 4

/-- Experts hosted by each rank, H (R197). -/
def hosted (d p : Nat) : Nat := (cExperts d + p - 1) / p

/-- Experts that rank r hosts: H, fewer at the last host, none from r × H = E on (R197). -/
def hostsAt (d p r : Nat) : Nat := min (hosted d p) (cExperts d - r * hosted d p)

/-- Lines between the source rows of a dispatch: the elements alone (R200). -/
def srcPitch (d : Nat) : Nat :=
  match Fmt.ofCode (jMode d) with
  | none => 0
  | some f => linesOf (f.packedBytes (cCount d))

/-! ### The rank tree (R52, R189) -/

/-- The largest power of two below n, for n of at least 2: where tree splits a range of n (R52). -/
def splitOf (n : Nat) : Nat := 2 ^ (Nat.log2 (n - 1))

/-- The node that is split to reach [lo, hi) from [a, b), and whether [lo, hi) is its left child. -/
def parentFrom (lo hi : Nat) : Nat → Nat → Nat → Option (Nat × Nat × Bool)
  | 0, _, _ => none
  | k + 1, a, b =>
    if b ≤ a + 1 then none
    else
      let m := a + splitOf (b - a)
      if a = lo && m = hi then some (a, b, true)
      else if m = lo && b = hi then some (a, b, false)
      else if hi ≤ m then parentFrom lo hi k a m
      else if m ≤ lo then parentFrom lo hi k m b
      else none

/-- Parent of a node of tree(x, 0, P), and whether the node is its left child; none for the root and for
a range that is no node (R189). -/
def parentOf (p lo hi : Nat) : Option (Nat × Nat × Bool) := parentFrom lo hi 15 0 p

/-- The range is a node or leaf of tree(x, 0, P). -/
def isNode (p lo hi : Nat) : Bool := (lo = 0 && hi = p) || (parentOf p lo hi).isSome

/-! ### Jobs of a step -/

/-- Job table of the running step of forme f: index and descriptor (R170). -/
def State.stepJobs (s : State) (f : Nat) : List (Nat × Nat) :=
  match s.variant f, s.curStep f with
  | some v, some e => (List.range e.jobCount).filterMap fun i => (v.jobs[e.jobFirst + i]?).map fun d => (i, d)
  | _, _ => []

/-- Plan of a collective job of forme f. -/
def State.planOf (s : State) (f d : Nat) : Option Plan :=
  match s.variant f with
  | some v => v.plans[cPlan d]?
  | none => none

/-- Job idx of forme f on an engine. -/
def State.job (s : State) (f idx : Nat) : Option Job := s.jobs.find? fun j => j.forme = f && j.idx = idx

/-- The state with a job replaced. -/
def State.setJob (s : State) (x : Job) : State :=
  { s with jobs := s.jobs.map fun j => if j.forme = x.forme && j.idx = x.idx then x else j }

/-- A job of the running step that has not reached its start. -/
def Job.fresh (f idx d : Nat) : Job :=
  { forme := f, idx := idx, chase := jChase d, col := jCol d, desc := d, status := .idle,
    nextLookup := 0, held := [], seen := [], landed := [], awaits := [] }

/-- The state with job idx of the step of forme f known to its engine. -/
def State.ensureJob (s : State) (f idx : Nat) : State :=
  match s.job f idx, s.jobDesc f idx with
  | none, some d => { s with jobs := s.jobs ++ [Job.fresh f idx d] }
  | _, _ => s

/-- An output or row of job idx of forme f has landed at a line (R172, R196). -/
def State.land (s : State) (f idx line : Nat) : State :=
  let s := s.ensureJob f idx
  match s.job f idx with
  | none => s
  | some x => s.setJob { x with landed := x.landed ++ [line] }

/-- The forme whose running step's job table has job idx for the collective engine of chase c (R297). -/
def State.formeOfJob (s : State) (c idx : Nat) : Option Nat :=
  s.formeNums.find? fun f => s.on .hFormeStepRun 0 f &&
    match s.jobDesc f idx with
    | some d => jCol d && jChase d = c
    | none => false

/-- The collective job that serves a rank of the plan of d, in the running step: same op and plan. -/
def State.rankJob (s : State) (f d q : Nat) : Option (Nat × Nat) :=
  (s.stepJobs f).find? fun e =>
    jCol e.2 && jKind e.2 = jKind d && cPlan e.2 = cPlan d && cRank e.2 = q

end Sys2Proof.Machine
end

