-- ==== Sys2Proof/Machine/Access.lean ====
section
/-!
DEFINITION. Reservations and stack units (R143, R145, R530), and unscheduled access to the galley
and the memory: attributes, holds, answers (R142, R152 to R154, R298, R344, R477, R493).
-/

namespace Sys2Proof.Machine

/-! ### The running step's reservations -/

/-- Reservation entries of the step that forme f released last (R210). -/
def State.stepResvs (s : State) (f : Nat) : List Resv :=
  match s.variant f, s.curStep f with
  | some v, some e => (v.resvs.drop e.resFirst).take e.resCount
  | _, _ => []

/-- The requester is a stack (R149). -/
def Resv.isStack (r : Resv) : Bool := 15 ≤ r.requester && r.requester ≤ 18

/-- Index of the 256-byte unit of chase memory address a among those of its stack, in half units of
128 bytes (R159, R530). -/
def halfUnit (mode a : Nat) : Nat :=
  if mode = 1 then a / 32768 * 64 + a % 8192 / 128
  else a / 65536 * 128 + a % 16384 / 128

/-- Address of a half unit of stack n (R159, R530). -/
def halfAddr (mode n h : Nat) : Nat :=
  if mode = 1 then h / 64 * 32768 + n * 8192 + h % 64 * 128
  else h / 128 * 65536 + n * 16384 + h % 128 * 128

/-- Stack of the chase that an address names (R159). -/
def stackOf (mode a : Nat) : Nat := if mode = 1 then a / 8192 % 4 else a / 16384 % 4

/-- Chase memory addresses of the two halves of unit i from mem_addr (R530). -/
def unitAddrs (mode n memAddr i : Nat) : Nat × Nat :=
  let h := halfUnit mode memAddr + 2 * i
  (halfAddr mode n h, halfAddr mode n (h + 1))

/-- Chase memory address that address a of the imposition of forme f names now: one in the image of an
in_region or out_region names the band that the region's first_band views in this edition (R228). -/
def State.viewAddr (s : State) (f c a : Nat) : Nat :=
  match s.active, s.forme f with
  | some i, some x =>
    let home (n : Nat) := regionSpan (((i.memory[c]?.map ChaseMem.regions).getD []).getD n 0)
    let views := x.ckpts.flatMap fun k => if k.chase = c then [k.inRegion, k.outRegion] else []
    match views.find? fun n => (home n).1 ≤ a / 2 ^ 23 && a / 2 ^ 23 < (home n).2 with
    | some n => a - (home n).1 * 2 ^ 23 + s.rd .memRegionFirstBand (4 * c) n * 2 ^ 23
    | none => a
  | _, _ => a

/-- Reservation i of the running step of forme f is one that a compositor job names: it gives no
address (R530). -/
def State.jobNames (s : State) (f i : Nat) : Bool :=
  (s.stepJobs f).any fun e => !jCol e.2 && jResFirst e.2 ≤ i && i < jResFirst e.2 + jResCount e.2

/-- Stack reservations of the running step of forme f that are fills or drains of their own (R530). -/
def State.stackResvs (s : State) (f : Nat) : List Resv :=
  ((s.stepResvs f).zipIdx.filter fun r => r.1.isStack && !s.jobNames f r.2).map Prod.fst

/-- Chase memory address a is reached by a fill or drain of forme f (R530). -/
def State.stackReaches (s : State) (f : Nat) (r : Resv) (c a : Nat) : Bool :=
  let m := s.viewAddr f c r.memAddr
  let mode := s.memMode c m
  let h0 := halfUnit mode m
  let h := halfUnit mode a
  r.slice = c && stackOf mode a = r.requester - 15 && h0 ≤ h && h < h0 + 2 * (r.lineHi - r.lineLo)

/-- Chase memory address a lies in the table of a compositor job of the running step of forme f (R154,
R178). -/
def State.inTables (s : State) (f c a : Nat) : Bool :=
  (s.stepJobs f).any fun e =>
    let b := s.viewAddr f c (pTable e.2)
    !jCol e.2 && jChase e.2 = c && b ≤ a && a < b + pRows e.2 * pRowBytes e.2

/-- The reservation covers a galley line of slice c. -/
def Resv.coversLine (r : Resv) (c line : Nat) : Bool :=
  r.slice = c && r.lineLo ≤ line && line < r.lineHi

/-- Address a is in the write set of the running step of forme f (R153, R530). -/
def State.inWriteSet (s : State) (f c : Nat) (galley : Bool) (a : Nat) : Bool :=
  s.on .hFormeStepRun 0 f &&
    if galley then (s.stepResvs f).any fun r => r.write && r.coversLine c (a / 256)
    else (s.stackResvs f).any fun r => !r.write && s.stackReaches f r c a

/-- Address a is in the read set of the running step of forme f: its read reservations, its fills, and
the tables of its compositor jobs (R154, R178, R530). -/
def State.inReadSet (s : State) (f c : Nat) (galley : Bool) (a : Nat) : Bool :=
  s.on .hFormeStepRun 0 f &&
    if galley then (s.stepResvs f).any fun r => !r.write && r.coversLine c (a / 256)
    else (s.stackResvs f).any (fun r => r.write && s.stackReaches f r c a) || s.inTables f c a

/-- The reservation of forme f that holds phase ph of slice c in the slice's present cycle (R145). DESIGN
CHOICE: a step that has ended or been abandoned holds nothing, though its windows may not have ended
(log entry 78). -/
def State.holder (s : State) (f c ph : Nat) : Option Resv :=
  if s.on .hFormeStepRun 0 f then
    (s.stepResvs f).find? fun r =>
      let k := s.rd .galCycleCycle c 0 - s.rd .hFormeRelCycle c f
      r.slice = c && r.phase = ph && r.start ≤ k && k < r.stop &&
        (k - r.start) / 8 % r.runPeriod < r.runHeld
  else none

/-- A reservation of forme f holds phase ph of slice c in the slice's present cycle (R145). -/
def State.phaseHeld (s : State) (f c ph : Nat) : Bool := (s.holder f c ph).isSome

/-- Every phase of slice c is held in its present cycle: the slice grants no unscheduled request (R31). -/
def State.sliceHeld (s : State) (c : Nat) : Bool :=
  (List.range 8).all fun ph => s.phaseHeld (s.rd .galPhaseMapForme c ph) c ph

/-- The phase that addresses a bank set in the slice's present cycle (R143). -/
def State.phaseAt (s : State) (c b : Nat) : Nat := (b + 8 - s.rd .galCycleCycle c 0 % 8) % 8

/-- The phase that addresses bank set b of slice c is held in the present cycle: no unscheduled request gets a
bank of it (R31, R143). -/
def State.setHeld (s : State) (c b : Nat) : Bool :=
  s.phaseHeld (s.rd .galPhaseMapForme c (s.phaseAt c b)) c (s.phaseAt c b)

/-- Lines copied between a stack and the galley for units 0 to n - 1 (R530). -/
def State.moveUnits (s : State) (c stack mode memAddr line : Nat) (toGalley : Bool) : Nat → State
  | 0 => s
  | n + 1 =>
    let s := State.moveUnits s c stack mode memAddr line toGalley n
    let a := unitAddrs mode stack memAddr n
    let g := (line + n) * 256
    if toGalley then s.writeGal c g (s.readMem c a.1 128 ++ s.readMem c a.2 128)
    else (s.writeMem c a.1 (s.readGal c g 128)).writeMem c a.2 (s.readGal c (g + 128) 128)

/-! ### Transfers on reservations (R28, R134, R146, R147, R530) -/

/-- Every line of the transfer has moved. -/
def SlotXfer.moved (d : SlotXfer) : Bool := d.lineHi ≤ d.next

/-- The transfer is a GLOAD or GSTORE: its requester is a press (R149). -/
def SlotXfer.isBond (d : SlotXfer) : Bool := d.code < 3

/-- Press of a GLOAD or GSTORE (R149). -/
def SlotXfer.press (d : SlotXfer) : Nat := 3 * d.chase + d.code

/-- Line after the aligned group of eight that holds a line (R146). -/
def groupEnd (line : Nat) : Nat := (line / 8 + 1) * 8

/-- Bank set of a line (R143). -/
def setOf (line : Nat) : Nat := line % 64 / 8

/-- The cycle of run k of a transfer's window in which its phase addresses bank set b (R143, R145). -/
def SlotXfer.cycleIn (d : SlotXfer) (k b : Nat) : Nat :=
  let t := d.start + 8 * k
  t + (b + 8 - (d.phase + t) % 8) % 8

/-- The galley cycle of the slot in which the transfer moves its next line: the first one held, not before it
is due, that addresses the line's bank set (R145, R146); past its window, any cycle that does (R147). -/
def SlotXfer.slot (d : SlotXfer) : Nat :=
  let b := setOf d.next
  let k0 := (max d.due d.start - d.start) / 8
  let held := (List.range (d.runPeriod + 1)).findSome? fun i =>
    let t := d.cycleIn (k0 + i) b
    if (k0 + i) % d.runPeriod < d.runHeld && d.due ≤ t && t < d.stop then some t else none
  match held with
  | some t => t
  | none =>
    let t := max d.due d.stop
    t + (b + 8 - (d.phase + t) % 8) % 8

/-- The transfer after its next slot (R146). -/
def SlotXfer.after (d : SlotXfer) : SlotXfer :=
  { d with next := min d.lineHi (groupEnd d.next), due := d.slot + 1 }

/-- Slots that the transfer has still to take. -/
def SlotXfer.slots (d : SlotXfer) : Nat := (d.lineHi + 7) / 8 - d.next / 8

/-- The transfer before the slot that moves line `line`, n slots on at most. -/
def SlotXfer.upTo (d : SlotXfer) (line : Nat) : Nat → SlotXfer
  | 0 => d
  | n + 1 => if line < groupEnd d.next then d else d.after.upTo line n

/-- The galley cycle of the slot in which the transfer moves line `line`. -/
def SlotXfer.slotOf (d : SlotXfer) (line : Nat) : Nat := (d.upTo line d.slots).slot

/-- A transfer moves its lines before line `past`: between a stack and the galley, or between the galley and a
case; out_region blocks that a drain reaches become dirty (R134, R380, R530). -/
def State.moveTo (s : State) (d : SlotXfer) (past : Nat) : State :=
  let past := min past d.lineHi
  let n := past - d.next
  let at0 := d.next - d.lineLo
  let x := { d with next := max d.next past, due := d.slot + 1 }
  let s := { s with drains := s.drains.map fun y => if y = d then x else y }
  if d.isBond then
    let line := d.memAddr + at0
    if d.fill then s.writeGal d.chase (d.next * 256) ((s.press d.press).caseBytes line (n * 256))
    else s.setPress d.press ((s.press d.press).writeCase line (s.readGal d.chase (d.next * 256) (n * 256)))
  else
    let mode := s.memMode d.chase d.memAddr
    let stack := d.code - 15
    let addr := (unitAddrs mode stack d.memAddr at0).1
    let s := s.moveUnits d.chase stack mode addr d.next d.fill n
    if d.toOut then
      let blocks := (List.range n).map fun i =>
        (d.forme, d.chase, (unitAddrs mode stack addr i).1 / 65536)
      { s with dirtyOut := s.dirtyOut ++ (blocks.filter fun b => !s.dirtyOut.contains b).eraseDups }
    else s

/-- The transfer of forme f in slice c whose next slot comes first; of two in one cycle, the first begun. -/
def State.nextXfer (s : State) (f c : Nat) : Option SlotXfer :=
  (s.drains.filter fun d => d.forme = f && d.chase = c && !d.moved).foldl (fun best d =>
    match best with
    | none => some d
    | some b => if d.slot < b.slot then some d else some b) none

/-- The slots of forme f's transfers in slice c pass in the order of their cycles, n at most, while `go` holds
of the next (R28, R146). -/
def State.runSlots (s : State) (f c : Nat) (go : SlotXfer → Bool) : Nat → State
  | 0 => s
  | n + 1 =>
    match s.nextXfer f c with
    | none => s
    | some d => if go d then (s.moveTo d (groupEnd d.next)).runSlots f c go n else s

/-- The slots before galley cycle t of slice c have passed (R28, R146; log entry 79). -/
def State.slotsBefore (s : State) (f c t : Nat) : State :=
  s.runSlots f c (fun d => d.slot < t) (s.drains.map SlotXfer.slots).sum

/-- Every transfer of forme f has moved its lines, those of each slice in the order of their slots (R28). -/
def State.allSlots (s : State) (f : Nat) : State :=
  s.each [0, 1, 2, 3] fun s c => s.runSlots f c (fun _ => true) (s.drains.map SlotXfer.slots).sum

/-- A transfer ends: what its slice moves up to its last slot has moved (R28, R134). -/
def State.finishXfer (s : State) (d : SlotXfer) : State :=
  s.slotsBefore d.forme d.chase (d.slotOf (d.lineHi - 1) + 1)

/-- A held slot of reservation r of forme f in slice c, in its present cycle: the transfer under way on the
reservation moves its next lines if the slot's bank set holds them; no other transfer takes it (R31,
R146). -/
def State.moveSlot (s : State) (f c : Nat) (r : Resv) (b : Nat) : State :=
  let now := s.rd .galCycleCycle c 0
  let s := s.slotsBefore f c now
  match s.drains.find? fun d => d.forme = f && d.chase = c && d.code = r.requester && d.fill = r.write &&
      d.phase = r.phase && d.start = s.rd .hFormeRelCycle c f + r.start && !d.moved && d.due ≤ now with
  | some d => if setOf d.next = b then s.moveTo d (groupEnd d.next) else s
  | none => s

/-! ### Unscheduled access -/

/-- Sectors that an access touches. -/
def Access.sectors (a : Access) : List Nat :=
  (List.range ((a.addr % 64 + a.len + 63) / 64)).map fun i => a.addr / 64 * 64 + 64 * i

/-- Attribute and owner at an address (R152). -/
def State.attrAt (s : State) (c : Nat) (galley : Bool) (a : Nat) : Nat × Nat :=
  if galley then s.galAttr c (a / 256) else s.memAttr c a

/-- Attribute and owner at a physical address (R152, R475). -/
def State.physAttr (s : State) (a : Nat) : Nat × Nat :=
  if galBase 0 ≤ a && a < galBase 4 then
    s.galAttr ((a - galBase 0) / 0x20000000) ((a - galBase 0) % 0x20000000 / 256)
  else if memBase 0 ≤ a && a < memBase 4 then
    s.memAttr ((a - memBase 0) / 0x4000000000) ((a - memBase 0) % 0x4000000000)
  else (0, 255)

/-- What becomes of an unscheduled access. -/
inductive Verdict where
  | fault (cause : Nat)
  | hold (forme : Nat)
  | go
deriving DecidableEq, Repr

/-- The access names nothing (R142, R475). -/
def Access.outside (a : Access) : Bool :=
  if a.galley then galLines * 256 < a.addr + a.len else 2 ^ 38 < a.addr + a.len

/-- The requester is a stack's memory refill (R149). -/
def Access.isRefill (a : Access) : Bool :=
  match a.who with
  | .unit code => 15 ≤ code && code ≤ 18
  | _ => false

/-- The access breaks R152: a write to a SCHEDULED line, or a galley line of the REFILL cache, which only
memory refill uses. -/
def State.breaksAttr (s : State) (a : Access) : Bool :=
  a.sectors.any fun x =>
    let t := (s.attrAt a.chase a.galley x).1
    (t = 2 && a.data.isSome) || (t = 3 && a.galley && !a.isRefill)

/-- The access has been granted a slot by the slice's arbitration (R149). -/
def Access.granted (a : Access) : Bool :=
  match a.who with
  | .unit _ => true
  | _ => false

/-- A LIMITING rail suspends the access: VCHS_c the unscheduled grants of slice c, VMEM_c the unscheduled
commands of its stacks (R398). -/
def State.limits (s : State) (c : Nat) (galley : Bool) : Bool :=
  s.rd .pwrRailState 0 (if galley then 12 + c else 16 + c) = 2

/-- Waiting list of the accesses that rail n suspends, after those of the sixteen formes (R398). -/
def railWait (n : Nat) : Nat := 16 + n

/-- What the access waits on: a forme whose running step holds it (R153, R154); a free slot, where the phase
that addresses its galley line is held, or, for an access of the memory, whose bytes cross the slice in some
slot, where every phase is (R30, R31); or a LIMITING rail (R398). -/
def State.holdsAccess (s : State) (a : Access) : Option Nat :=
  match s.formeNums.find? fun f => a.sectors.any fun x =>
      let t := s.attrAt a.chase a.galley x
      if a.data.isSome then t.1 = 1 && s.inReadSet f a.chase a.galley x
      else t.1 = 2 && t.2 = f && s.inWriteSet f a.chase a.galley x with
  | some f => some f
  | none =>
    if !a.granted && (if a.galley then s.setHeld a.chase (setOf (a.addr / 256)) else s.sliceHeld a.chase) then
      some (s.rd .galPhaseMapForme a.chase (if a.galley then s.phaseAt a.chase (setOf (a.addr / 256)) else 0))
    else if !(a.galley && a.granted) && s.limits a.chase a.galley then
      some (railWait (if a.galley then 12 + a.chase else 16 + a.chase))
    else none

/-- Verdict on an access (R142, R152 to R154, R477). -/
def State.judge (s : State) (a : Access) : Verdict :=
  if a.outside then .fault 1
  else if s.breaksAttr a then .fault 2
  else match s.holdsAccess a with
    | some f => .hold f
    | none => .go

/-- Bytes of a VC1 payload: the head of R298 and data. -/
def vc1Bytes (op sectors tag module code chase target : Nat) (galley : Bool) (addr : Nat)
    (data : List Byte) : List Byte :=
  natLe 1 op ++ natLe 1 sectors ++ natLe 2 tag ++ natLe 2 module ++ natLe 1 (code * 4 + chase) ++
    natLe 1 target ++ natLe 8 (addr + b2n galley * 2 ^ 38) ++ data

/-- A VC1 (D1) frame waits on link end n. -/
def State.vc1Frame (s : State) (n : Nat) (bytes : List Byte) : State :=
  s.setLink n { s.link n with newQ := (s.link n).newQ ++ [⟨1, 0, false, bytes, 0, 255, 0⟩] }

/-- A byte string in pieces of 244 bytes. -/
def pieces : Nat → List Byte → List (List Byte)
  | 0, _ => []
  | n + 1, l => if l.isEmpty then [] else l.take 244 :: pieces n (l.drop 244)

/-- A transfer of forme f waits at link end n as VC0 or D0 frames (R193, R294, R297). -/
def State.queueFrames (s : State) (n chase f : Nat) (bytes : List Byte) : State :=
  let ps := pieces (bytes.length / 244 + 1) bytes
  let fs := (List.range ps.length).map fun i =>
    LFrame.mk 0 0 (i = 0) (ps.getD i []) chase f (s.edition f)
  s.setLink n { s.link n with newQ := (s.link n).newQ ++ fs }

/-- A VC1 response (R298). -/
def State.vc1Respond (s : State) (n : Nat) (r : VcReq) (op : Nat) (data : List Byte) : State :=
  s.vc1Frame n (vc1Bytes op r.sectors r.tag r.module r.requester r.chase r.target r.galley r.addr data)

/-- CORE_FAULT of core n (R477). -/
def State.coreFault (s : State) (n cause addr : Nat) : State :=
  (s.wr .coreFaultCause 0 n cause).wr .coreFaultAddress 0 n addr

/-- Physical address of an access (R475). -/
def Access.phys (a : Access) : Nat := (if a.galley then galBase a.chase else memBase a.chase) + a.addr

/-- Head of a Lemik response (R490). -/
def mgtHead (type tag status bodyBytes flags : Nat) : List Byte :=
  natLe 2 0x4B4C ++ natLe 1 1 ++ natLe 1 type ++ natLe 4 tag ++ natLe 4 bodyBytes ++ natLe 1 status ++
    natLe 1 flags ++ natLe 2 0

/-- Digest of the running image: it covers the image before its signature block (R463, R466, R472). -/
def State.lemikDigest (s : State) : List Byte :=
  fixLen 64 (Config.shake256 (s.image.take (s.image.length - 1536)) 64)

/-- Tail of a signed response: the request's counter with the slot zeroed, signed by the ATTEST key with
head and body (R492). -/
def State.mgtTail (s : State) (type tag counter status : Nat) (body : List Byte) : List Byte :=
  let part := natLe 8 0 ++ natLe 8 counter
  part ++ fixLen 1280 (Config.attestSign s.lemikDigest
    (mgtHead type tag status body.length 3 ++ body ++ part))

/-- The Lemik response to an authenticated request is sent, and kept unless a later request's is (R492). -/
def State.mgtRespond (s : State) (type tag slot counter status : Nat) (body : List Byte) : State :=
  let r : Out := .mgt type tag status body (s.mgtTail type tag counter status body)
  let last := ((s.mgtLast.get? slot).map Prod.fst).getD 0
  (if counter < last then s else { s with mgtLast := s.mgtLast.put slot (counter, r) }).send r

/-- A message to the guest of chase g: the head of R298 with module zero and requester code 14, then data
(R344). -/
def State.guestMsg (s : State) (g op sectors tag : Nat) (galley : Bool) (addr : Nat) (data : List Byte) : State :=
  s.send (.guest g op tag (vc1Bytes op sectors tag 0 14 g g galley addr data))

/-- The response to a guest request (R298, R344). -/
def State.guestAnswer (s : State) (g op : Nat) (r : VcReq) (data : List Byte) : State :=
  s.guestMsg g op r.sectors r.tag r.galley r.addr data

/-- ERROR answered to the guest of chase g (R345). -/
def State.guestError (s : State) (g : Nat) (r : VcReq) : State :=
  ((s.wr .gstStatusErrorSent g 0 1).bump .gstCountsErrors g 0 1).guestAnswer g 0xFF r []

/-- Piece k of the management request with number id is answered with data or, where `cause` is not 0, with a fault;
the last answer makes the response: the data in order, or the first fault (R493). -/
def State.mgtPart (s : State) (id k cause : Nat) (data : List Byte) : State :=
  match s.mgtJobs.find? fun j => j.id = id with
  | none => s
  | some j =>
    let x := { j with left := j.left.erase k, parts := j.parts.put k data,
                      cause := if j.cause = 0 then cause else j.cause }
    if x.left.isEmpty then
      let s := { s with mgtJobs := s.mgtJobs.filter fun y => y.id != id }
      if x.cause != 0 then s.mgtRespond x.type x.tag x.slot x.counter 5 (natLe 1 x.cause)
      else s.mgtRespond x.type x.tag x.slot x.counter 0 (x.parts.flatMap Prod.snd)
    else { s with mgtJobs := s.mgtJobs.map fun y => if y.id = id then x else y }

/-- A faulting access is answered and has no effect (R142, R152, R298, R345, R477, R493). -/
def State.answerFault (s : State) (a : Access) (cause : Nat) : State :=
  match a.who with
  | .unit code =>
    let s := s.send (.galFault a.chase code a.addr cause)
    if 19 ≤ code && code ≤ 22 then s.coreFault (4 * a.chase + code - 19) cause a.phys else s
  | .link n r => s.vc1Respond n r 0xFF []
  | .guest g r => s.guestError g r
  | .mgt type tag slot counter => s.mgtRespond type tag slot counter 5 (natLe 1 cause)
  | .mgtPart id k => s.mgtPart id k cause []

/-- The answer of an access that was performed. -/
def State.answerDone (s : State) (a : Access) (data : List Byte) : State :=
  let wr := a.data.isSome
  match a.who with
  | .unit code =>
    if wr then s.send (.galDone a.chase code a.addr) else s.send (.galData a.chase code a.addr data)
  | .link n r => s.vc1Respond n r (if wr then 0x82 else 0x81) data
  | .guest g r => s.guestAnswer g (if wr then 0x82 else 0x81) r data
  | .mgt type tag slot counter => s.mgtRespond type tag slot counter 0 data
  | .mgtPart id k => s.mgtPart id k 0 data

/-- Entry e is noted already for the next pre-release batch of its forme: behind those of the batch that was
sent (R376). -/
def State.shareNoted (s : State) (e : Nat × Nat × Nat) : Bool :=
  ((s.dirtyShared.filter fun d => d.1 = e.1).drop (s.rd .hFormePreCount 0 e.1)).contains e

/-- Sectors of a mirrored forme's SHARED memory regions that a write touches are noted (R376). -/
def State.noteShared (s : State) (a : Access) : State :=
  let hit := a.sectors.filterMap fun x =>
    let t := s.memAttr a.chase x
    if !a.galley && t.1 = 1 && s.mirroredFormes.any (fun f => f.number = t.2) &&
        !s.shareNoted (t.2, a.chase, x) then some (t.2, a.chase, x) else none
  { s with dirtyShared := s.dirtyShared ++ hit }

/-- Requester code of an access in its slice, where the log names one (R149). -/
def Access.code (a : Access) : Nat :=
  match a.who with
  | .unit code => code
  | .link n _ => if n < 32 then 7 + n / 4 % 2 else if n < 40 then 5 + n % 2 else 7 + (n - 40) / 2 % 2
  | .guest _ _ => 9
  | .mgt _ _ _ _ => 23
  | .mgtPart _ _ => 23

/-- A REFILL line that memory refill writes holds its stack line again (R155, R166). -/
def State.refilled (s : State) (a : Access) : State :=
  if a.isRefill then
    { s with dropped := s.dropped.filter fun x => !decide (x = (a.chase, a.addr / 256)) }
  else s

/-- An access is performed and answered; a read that meets an uncorrectable error is answered with a fault
(R152, R162, R163, R298). -/
def State.perform (s : State) (a : Access) : State :=
  match a.data with
  | some d =>
    let s := if a.galley then (s.refilled a).writeGal a.chase a.addr d
      else (s.noteShared a).writeMem a.chase a.addr d
    s.answerDone a []
  | none =>
    let s := s.met a.code false a.met.ce
    if a.met.ue then s.answerFault a 3
    else s.answerDone a (if a.galley then s.readGal a.chase a.addr a.len else s.readMem a.chase a.addr a.len)

/-- An unscheduled access (R152 to R154). -/
def State.access (s : State) (a : Access) : State :=
  match s.judge a with
  | .fault k => s.answerFault a k
  | .hold f => { s with heldAccs := s.heldAccs ++ [⟨f, a⟩] }
  | .go => s.perform a

/-- Die-link end by which an unscheduled request leaves chase c for another chase: to the opposite one
through chase (c + 1) mod 4 (R24). -/
def ringEnd (c target : Nat) : Nat :=
  if target = (c + 3) % 4 then dieEnd ((c + 3) % 4) 1 else dieEnd c 0

/-- A request goes on over a die link as a D1 frame and waits there for its answer; over a link that is down
it is answered with a fault (R24, R298, R324, R336). -/
def State.vc1Forward (s : State) (m : Nat) (a : Access) (r : VcReq) : State :=
  if s.linkOpen m then
    let s := s.vc1Frame m (vc1Bytes (if a.data.isSome then 2 else 1) r.sectors r.tag r.module r.requester
      r.chase r.target r.galley r.addr (a.data.getD []))
    s.setLink m { s.link m with vc1Out := (s.link m).vc1Out ++ [⟨r.tag, a⟩] }
  else s.answerFault a 6

/-- A VC1 request at chase c: an access of its own slice or memory, or one that goes on round the ring (R24,
R298). -/
def State.vc1Reach (s : State) (c : Nat) (a : Access) (r : VcReq) : State :=
  if a.chase = c then s.access a else s.vc1Forward (ringEnd c a.chase) a r

/-- A link of the way that an unscheduled request takes from chase c to chase d is down (R24, R336). -/
def State.ringCut (s : State) (c d : Nat) : Bool :=
  c != d && (!s.linkOpen (ringEnd c d) || (d = (c + 2) % 4 && !s.linkOpen (ringEnd ((c + 1) % 4) d)))

/-- The least tag that no VC1 request waiting at link end m has. -/
def State.freeTag (s : State) (m : Nat) : Nat :=
  let l := (s.link m).vc1Out.map VcOut.tag
  ((List.range (l.length + 1)).find? fun x => !l.contains x).getD 0

/-- Piece k of a management request to another chase leaves chase 0 on the ring: at most three sectors of it
(R24, R298, R324). -/
def State.sendPart (s : State) (a : Access) (id k : Nat) : State :=
  let n := min 192 (a.len - 192 * k)
  let m := ringEnd 0 a.chase
  let data := a.data.map fun d => (d.drop (192 * k)).take n
  s.vc1Forward m { a with addr := a.addr + 192 * k, len := n, data := data, who := .mgtPart id k }
    { sectors := n / 64, tag := s.freeTag m, module := s.identity, requester := 23, chase := 0, target := a.chase,
      galley := a.galley, addr := a.addr + 192 * k, met := ⟨[], false⟩ }

/-- The access of a management request: in chase 0, or round the ring in another, where a link that is down
faults it with LINK (R24, R336, R493). What breaks the map or the attributes is known before it leaves. -/
def State.mgtAccess (s : State) (a : Access) (type tag slot counter : Nat) : State :=
  if a.chase = 0 then s.access a
  else match s.judge a with
    | .fault k => s.answerFault a k
    | _ =>
      if s.ringCut 0 a.chase then s.answerFault a 6
      else
        let id := (s.mgtJobs.map MgtJob.id).foldl max 0 + 1
        let ks := List.range ((a.len + 191) / 192)
        let s := { s with mgtJobs := s.mgtJobs ++ [MgtJob.mk id type tag slot counter ks [] 0] }
        s.each ks fun s k => s.sendPart a id k

/-- Accesses that wait on forme f, or on rail f - 16, are tried again, in the order in which they came:
those that its running step or that rail holds wait on (R31, R153, R154, R398). -/
def State.releaseHeld (s : State) (f : Nat) : State :=
  let mine := s.heldAccs.filter fun h => h.forme = f
  let s := { s with heldAccs := s.heldAccs.filter fun h => !decide (h.forme = f) }
  s.each mine fun s h => s.access h.acc

end Sys2Proof.Machine
end

