-- ==== Sys2Proof/Machine/Spares.lean ====
section
/-!
DEFINITION. The spare lane of each fibre (R252, R253, R259), and the start of calibrations (R254 to
R256, R258).
-/

namespace Sys2Proof.Machine

/-- Calibration in progress on fibre pair g of engine k (R254). -/
def State.calJob (s : State) (k g : Nat) : Option CalJob :=
  s.calJobs.find? fun c => c.engine = k && c.fibre = g

/-- The two rings of a calibration: the modulator and the filter. -/
def CalJob.rings (c : CalJob) : List Nat := [ringOf c.bank 0 c.lane, ringOf c.fibre 1 c.lane]

/-- The calibration that a ring is in. -/
def State.ringJob (s : State) (k r : Nat) : Option CalJob :=
  s.calJobs.find? fun c => c.engine = k && c.rings.contains r

/-- The calibration of a lane of port n. -/
def State.laneJob (s : State) (n w : Nat) : Option CalJob :=
  s.calJobs.find? fun c => c.engine = n / 4 && c.bank = n % 4 && c.lane = w

/-- A calibration of both rings of a lane as one result (R442): FAIL, else PASS_THIRD, else PASS. -/
def CalJob.result (c : CalJob) : Option Nat :=
  match c.modRes, c.filtRes with
  | some a, some b => some (max a b)
  | _, _ => none

/-- A calibration record changed by a run's end (R443). -/
def State.calEnd (s : State) (i result : Nat) : State :=
  let s := (s.wr .calRecLastTick 0 i s.now).wr .calRecResult 0 i result
  if result = 3 then s.bump .calRecFailures 0 i 1 else s

/-- The saved lock codes of a calibration's rings are in force again, and the rings that are not parked and
recover from no mislock are LOCKED on them (R251, R257, R259). -/
def State.restoreCodes (s : State) (c : CalJob) : State :=
  let k := c.engine
  let s := (s.wr .oeRingLockCode k (ringOf c.bank 0 c.lane) c.savedMod).wr .oeRingLockCode k
    (ringOf c.fibre 1 c.lane) c.savedFilt
  s.each c.rings fun s r =>
    if s.rd .oeRingState k r = 0 || s.on .hOeRecover k r then s else s.wr .oeRingState k r 2

/-- A calibration is pre-empted: its saved codes are restored, it counts, its lane stays due; its
traffic moves back when the lane has retrained (R259). -/
def State.preemptCal (s : State) (k g : Nat) : State :=
  match s.calJob k g with
  | none => s
  | some c =>
    if c.aborted then s
    else
      let s := (s.bump .oeCalEventsPreempted k 0 1).calEnd (40 * k + 10 * c.bank + c.lane) 4
      let s := s.restoreCodes c
      { s with
        calJobs := s.calJobs.map fun x => if x = c then { x with aborted := true } else x
        calRuns := c.rings.foldl (fun l r => l.del (k, r)) s.calRuns }

/-- The traffic of a lane of port n has left its place where the lane is no member any more, and a ring that
waited for that sweeps: after a mislock its own direction's, for a calibration both at once (R251, R256). -/
def State.laneMoved (s : State) (n w : Nat) : State :=
  if 32 ≤ n || 10 ≤ w then s
  else
    let k := n / 4
    let tx := s.txMember n w
    let rx := s.lane n w = laneMember
    let sweep (s : State) (r : Nat) : State :=
      if s.on .hOeRecover k r && s.rd .oeRingState k r = 0 then s.wr .oeRingState k r 1 else s
    let s := if tx then s else sweep s (s.laneRing n w 0)
    let s := if rx then s else sweep s (s.laneRing n w 1)
    match s.laneJob n w with
    | none => s
    | some c =>
      if tx || rx || c.aborted then s
      else
        let run (s : State) (r : Nat) : State :=
          if s.rd .oeRingState k r = 2 then s.wr .oeRingState k r 1 else s
        let s := if c.modRes.isNone then run s (ringOf c.bank 0 w) else s
        if c.filtRes.isNone then run s (ringOf c.fibre 1 w) else s

/-- A need takes the free spare of a fibre: the lane's place moves to LS (R252, R253). A transmit
fibre's lane moves by MOVE, at once for a sudden loss. On a receive fibre a retired lane asks for
SPARE_IN, and a mislocked filter's lane is moved by the peer on a CAL request, which moves it in the
other direction too (log entry 14). -/
def State.takeSpare (s : State) (d : SpareNeed) : State :=
  let n := s.fibPort d.engine d.fibre d.lane
  let use := if d.rank = 1 then suSudden else if d.rank = 2 then suSwap
    else if d.rank = 3 then suMislock else suRetired
  let s := s.putSpare d.engine d.fibre use d.lane
  if d.fibre % 2 = 0 then
    let s := if d.rank = 1 then s.mark n [(8, true), (d.lane, false)] else s
    s.laneReq n d.lane 0
  else if d.rank = 4 then s.laneReq n d.lane 5
  else
    let s := if s.spareUse d.engine (d.fibre - 1) = suFree then s.putSpare d.engine (d.fibre - 1) use d.lane
      else s
    s.laneReq n d.lane 2

/-- Whether need a goes before need b (R252): the higher class, then the lower lane. -/
def SpareNeed.before (a b : SpareNeed) : Bool :=
  a.rank < b.rank || (a.rank = b.rank && a.lane ≤ b.lane)

/-- The first of the needs that wait for one fibre. -/
def firstNeed : List SpareNeed → Option SpareNeed
  | [] => none
  | a :: l =>
    match firstNeed l with
    | none => some a
    | some b => some (if a.before b then a else b)

/-- The next need that waits takes a spare that is free (R252). -/
def State.serveSpare (s : State) (k f : Nat) : State :=
  if s.spareUse k f = suFree then
    match firstNeed (s.spareNeeds.filter fun d => d.engine = k && d.fibre = f) with
    | none => s
    | some d => { s with spareNeeds := s.spareNeeds.erase d }.takeSpare d
  else s

/-- A calibration of LS, which moves no traffic, gives way at once (R258, R259). -/
def State.preemptLs (s : State) (k g : Nat) : State :=
  match s.calJob k g with
  | none => s
  | some c =>
    if c.lane = 8 then
      let s := s.preemptCal k g
      { s with calJobs := s.calJobs.filter fun x => !(decide (x.engine = k) && decide (x.fibre = g)) }.calMode k g
    else s

/-- A sudden loss pre-empts a swap or a mislock recovery that holds the spare (R252, R268): LS stands for the
lost lane from then on. The other lane's need waits; a lane whose own source still lights it joins again
meanwhile (log entry 43). -/
def State.takeOver (s : State) (d : SpareNeed) : State :=
  let n := s.fibPort d.engine d.fibre d.lane
  let old := s.rd .oeFibreStatusSpareLane d.engine d.fibre
  let m := s.fibPort d.engine d.fibre old
  let use := s.spareUse d.engine d.fibre
  let wait : SpareNeed := ⟨d.engine, d.fibre, use, old⟩
  let s := { s with spareNeeds := s.spareNeeds.erase d ++ [wait] }
  let s := s.putSpare d.engine d.fibre suSudden d.lane
  let s := if use = suSwap && s.rd .oeRingState d.engine (ringOf (m % 4) 0 old) = 2 && !s.txMember m old then
    s.mark m [(old, true)] else s
  let s := if s.txMember n 8 then s.mark n [(d.lane, false)] else s.mark n [(8, true), (d.lane, false)]
  s.laneReq n d.lane 0

/-- A spare is needed (R252): it is taken if free, or from the same lane's lower need; a calibration that
holds it is pre-empted, and by a sudden loss a swap or a mislock recovery too; else the need waits. A swap
waits for a mislock recovery (R265). -/
def State.needSpare (s : State) (d : SpareNeed) : State :=
  let use := s.spareUse d.engine d.fibre
  if s.spareNeeds.contains d then s
  else if d.rank = 1 && 1 ≤ use && use ≤ 3 && s.rd .oeFibreStatusSpareLane d.engine d.fibre = d.lane then
    (if use = suCal then s.preemptCal d.engine (d.fibre / 2) else s).putSpare d.engine d.fibre suSudden d.lane
  else if d.rank = 1 && (use = suSwap || use = suMislock) then s.takeOver d
  else
    let s := { s with spareNeeds := s.spareNeeds ++ [d] }
    let s := if use = suCal then s.preemptCal d.engine (d.fibre / 2) else s
    (s.preemptLs d.engine (d.fibre / 2)).serveSpare d.engine d.fibre

/-- A spare carries no lane any more, and the next need takes it (R252). -/
def State.freeSpare (s : State) (k f : Nat) : State := (s.putSpare k f suFree 15).serveSpare k f

/-- A lane of a fibre is due for calibration. -/
def State.due (s : State) (k f w : Nat) : Bool := bit (s.rd .oeFibreStatusCalDue k f) w

/-- A lane of a fibre is retired. -/
def State.retiredLane (s : State) (k f w : Nat) : Bool := bit (s.rd .oeFibreStatusRetired k f) w

/-- Training lights a transmit lane: of data_mask and not retired, or LS (R288, R314); on a die link every
lane. -/
def State.laneLit (s : State) (n lane : Nat) : Bool :=
  32 ≤ n || lane = 8 || (!s.retiredLane (n / 4) (s.fib n lane 0) lane &&
    match s.portRec n with
    | some r => bit r.dataMask lane
    | none => false)

/-- A free spare is put to a calibration. -/
def State.calSpare (s : State) (k f w : Nat) : State :=
  if s.spareUse k f = suFree then s.putSpare k f suCal w else s

/-- A calibration of lane w of port n begins (R256): the lock codes of its rings are saved, and they sweep
where the lane carries no traffic. -/
def State.beginCal (s : State) (n w : Nat) : State :=
  let k := n / 4
  let c : CalJob := { engine := k, bank := n % 4, fibre := s.fibreOf k w (n % 4), lane := w, aborted := false,
                      modRes := none, filtRes := none,
                      savedMod := s.rd .oeRingLockCode k (s.laneRing n w 0),
                      savedFilt := s.rd .oeRingLockCode k (s.laneRing n w 1) }
  let s := { s with
    calJobs := s.calJobs ++ [c]
    calRuns := c.rings.foldl (fun l r => l.del (k, r)) s.calRuns }
  (s.calStart (40 * k + 10 * (n % 4) + w)).laneMoved n w

/-- Both spares of a lane of port n are put to its calibration. -/
def State.calSpares (s : State) (n w : Nat) : State :=
  (s.calSpare (n / 4) (s.fib n w 0) w).calSpare (n / 4) (s.fib n w 1) w

/-- A calibration of lane w of port n starts (R256, R258): a data lane's traffic moves to LS in both
directions before the rings sweep. -/
def State.startCal (s : State) (n w : Nat) : State :=
  let s := s.beginCal n w
  if w < 8 then (s.calSpares n w).laneReq n w 2 else s

/-- A fibre's spare is free, or a retired lane holds it for good (R252). -/
def State.spareOpen (s : State) (k f : Nat) : Bool := s.spareUse k f = suFree || s.spareUse k f = suRetired

/-- A lane of fibre pair g can be calibrated now: both its spares are free, no calibration of the pair runs,
and no swap of the engine is in hand (R252, R254, R265). -/
def State.calFree (s : State) (k g : Nat) : Bool :=
  (s.calJob k g).isNone && s.spareOpen k (2 * g) && s.spareOpen k (2 * g + 1) &&
    !(s.swaps.any fun x => x.engine = k)

/-- Lane w of fibre pair g can be calibrated in service: its port is UP, it is not retired, and LS carries no
lane (R251, R254, R258). -/
def State.calLane (s : State) (k g w : Nat) : Bool :=
  s.lState (s.fibPort k (2 * g) w) = lUp && !s.retiredLane k (2 * g) w && !s.retiredLane k (2 * g + 1) w &&
    (w < 8 || (s.spareUse k (2 * g) = suFree && s.spareUse k (2 * g + 1) = suFree))

/-- In native mode the lowest due lane of the fibre pair is calibrated when the spares are free (R254); LS
only while it carries no lane (R258). -/
def State.tryCal (s : State) (k g : Nat) : State :=
  if s.rd .hOeCalMode k g = 0 && s.calFree k g then
    match (List.range 9).find? fun w =>
        (s.due k (2 * g) w || s.due k (2 * g + 1) w) && s.calLane k g w with
    | some w => s.startCal (s.fibPort k (2 * g) w) w
    | none => s
  else s

/-- A lane of a fibre is retired (R251, R257, R314): it is shown, its ring parks, and it asks for the
fibre's spare unless another retired lane holds it (R252). -/
def State.retireFibreLane (s : State) (k f w : Nat) : State :=
  if s.retiredLane k f w then s
  else
    let n := s.fibPort k f w
    let r := s.laneRing n w (f % 2)
    let s := ((s.orBit .oeFibreStatusRetired k f w).wr .oeRingState k r 0).wr .oeRingDrive k r 0
    (s.wr .hOeRecover k r 0).bump .lnkEventsRetires n 0 1

/-- LS of a fibre is retired: the spare is out of use, a need that it served waits for none, and its ring parks
(R252, R314). -/
def State.retireSpare (s : State) (k f : Nat) : State :=
  if s.on .hOeSpareGone k f then s
  else
    let r := ringOf (f / 2) (f % 2) 8
    let s := ((s.wr .hOeSpareGone k f 1).wr .oeRingState k r 0).wr .oeRingDrive k r 0
    (s.putSpare k f suUnavailable 15).bump .lnkEventsRetires (portOf k (f / 2)) 0 1

/-- The link of port n went down: its lanes leave the spares, and rings that waited for that sweep (R251,
R252, R320). -/
def State.downSpares (s : State) (n : Nat) : State :=
  (s.leaveSpares n).each (List.range 10) fun s w => s.laneMoved n w

/-- The link of port n is UP again: lanes that are retired ask for LS anew, and needs that wait take a spare
that came free (R252, R314). -/
def State.upSpares (s : State) (n : Nat) : State :=
  s.each (List.range 8) fun s f =>
    let w := s.rd .oeFibreStatusSpareLane (n / 4) f
    if s.spareUse (n / 4) f = suRetired && s.fibPort (n / 4) f w = n then
      s.laneReq n w (if f % 2 = 0 then 0 else 5)
    else s.serveSpare (n / 4) f

end Sys2Proof.Machine
end

