-- ==== Sys2Proof/Machine/LinkDown.lean ====
section
/-!
DEFINITION. What takes a link out of service: failed attempts (R288), link-down (R319 to R321), and
the groups, widths and end of die links (R329 to R336, R531).
-/

namespace Sys2Proof.Machine

/-! ### Steering (R275, R276, R278) -/

/-- Routes of the OPTICS section (R278). -/
def Imposition.routes (i : Imposition) : Nat := leAt i.optics 0 2

/-- Steer records (R278). -/
def Imposition.steers (i : Imposition) : Nat := leAt i.optics 2 2 % 2 ^ 13

/-- A steer record (R278). -/
structure SteerRec where
  forme : Nat
  variant : Nat
  entry : Nat
  barrier : Nat
  route : Nat
  engines : Nat
deriving DecidableEq, Repr

/-- Steer record x (R278). -/
def Imposition.steer (i : Imposition) (x : Nat) : SteerRec :=
  let o := 272 + 64 * i.routes + 16 * x
  { forme := leAt i.optics o 1 % 16, variant := leAt i.optics (o + 1) 1 % 32,
    entry := leAt i.optics (o + 2) 2, barrier := leAt i.optics (o + 4) 1 % 64,
    route := leAt i.optics (o + 5) 1 % 64, engines := leAt i.optics (o + 6) 1 }

/-- The slot of wavelength w of port bank j changes between two routes (R275). -/
def Imposition.slotMoves (i : Imposition) (a b k j w : Nat) : Bool :=
  (List.range 4).any fun f => decide (i.bankOf a k w f = j) != decide (i.bankOf b k w f = j)

/-- A port whose slots change in an open steering window starts no block (R276). -/
def State.steerHeld (s : State) (n : Nat) : Bool :=
  n < 32 && s.on .oeStatusSteering (n / 4) 0 &&
    match s.active with
    | none => false
    | some i => (List.range 8).any fun w =>
        i.slotMoves (s.rd .oeRouteCurrent (n / 4) 0) (s.rd .oeRouteNext (n / 4) 0) (n / 4) (n % 4) w

/-- link_min of the forme that owns a fabric port (R208). -/
def State.linkMin (s : State) (n : Nat) : Nat :=
  match s.active with
  | none => 1
  | some i =>
    match i.formes.find? fun f => bit f.portSet n with
    | some f => f.linkMin
    | none => 1

/-- The forme that owns a fabric port; 255 for none (R203). -/
def State.portForme (s : State) (n : Nat) : Nat :=
  match s.active with
  | none => 255
  | some i =>
    match i.formes.find? fun f => bit f.portSet n with
    | some f => f.number
    | none => 255

/-- link_error of the collective engine of a chase (R196). -/
def State.linkError (s : State) (c : Nat) : State := s.wr .colStatusLinkError c 0 1

/-- The requester of a VC1 request gets an ERROR response; a core an access fault of cause LINK
(R298, R320, R477). -/
def State.vc1Fail (s : State) (r : VcOut) : State := s.answerFault r.acc 6

/-- Frames that a link end holds for sending. -/
def Link.sending (x : Link) : List LFrame := x.newQ ++ x.unacked ++ x.resendQ.map Prod.fst

/-- A plan's traffic with a module goes by port n (R214). -/
def Plan.uses (p : Plan) (n module : Nat) : Bool :=
  p.routes.any fun r => r.module = module && (r.hop1 = n || r.hop2 = n)

/-- Collective jobs that await a transfer of port n's peer: they run, something that they await has not landed,
a rank or a node of their plan is the peer's, and the plan's traffic with the peer goes by this port (R214,
R320; log entry 91). -/
def State.awaitJobs (s : State) (n : Nat) : List Job :=
  match s.portRec n with
  | none => []
  | some r => s.jobs.filter fun j =>
      j.col && decide (j.status = .running) && decide (s.portForme n = j.forme) &&
        (j.awaits.any fun l => !j.landed.contains l) &&
        match s.planOf j.forme j.desc with
        | some p => p.uses n r.peer &&
            ((p.ranks.any fun k => k.module = r.peer) || p.nodes.any fun k => k.module = r.peer)
        | none => false

/-- The port whose link-down raises LINK_ERROR against forme f, plus one, or 0 for a die link, is kept while no
abandonment is in hand (R384). -/
def State.noteErrPort (s : State) (f n : Nat) : State :=
  if s.fState f = fAbandoning then s else s.wr .hFormeErrPort 0 f n

/-- Synthetic completions of a fabric port's link-down (R196, R320): each transfer sent, received in part, or
awaited has its chase's link_error set and its forme abandoned. -/
def State.synthetic (s : State) (n : Nat) (x : Link) (t : Nat) : State :=
  let tx := x.sending.filter fun y => y.vc = 0
  let jobs := s.awaitJobs n
  let held := x.rxHeld.filter fun y => y.vc = 0
  let heads := (held.filter LFrame.first).map fun y => leAt y.payload 2 1 % 4
  let got := heads ++ if x.transfer.length < 16 then [] else [leAt x.transfer 2 1 % 4]
  let s := s.each (tx.map LFrame.chase ++ got ++ jobs.map Job.chase).eraseDups State.linkError
  let s := s.each x.vc1Out State.vc1Fail
  let awaited := !x.transfer.isEmpty || !held.isEmpty
  let fs := (tx.map LFrame.forme ++ (if awaited then [s.portForme n] else []) ++
    jobs.map Job.forme).eraseDups
  s.each fs fun s f => (s.noteErrPort f (n + 1)).abandon f causeLink t

/-- Buffers of a link end after its link went down: nothing queued, nothing to resend; retained
frames stay; a FETCH stays outstanding, or waits to be issued (R320, R321, R362). -/
def Link.downed (x : Link) : Link :=
  { x with bypQ := [], newQ := [], resendQ := [], unacked := [], rxHeld := [], transfer := [], rxRef := [],
           request := (match x.request with
             | some r => if r.kind = 0x81 then some r else none
             | none => none)
           again := x.again.filter (fun e => e.1 = 0x81), wait := [], served := none, peerCal := false, vc1Out := [], marks := [], behind := [], stopped := [],
           freed := [], taken := [], gapOk := true }

/-- A fabric link goes down (R319 to R321): darkened, emptied, completed with errors unless the port is
QUIESCED (R367), and CLOCK entered with no attempt counted. -/
def State.linkDown (s : State) (n cause t : Nat) : State :=
  if n < 32 && (s.linkOpen n || (s.link n).retraining) then
    let x := s.link n
    let pair := s.isPairPort n
    let s := ((s.darkLanes n).setLink n x.downed).downSpares n
    let s := s.settleLink n
    let s := (s.wr .lnkStatusLastDown n 0 cause).bump .lnkEventsDowns n 0 1
    let s := (s.wr .hLnkDarkEnd n 0 (t + 2000)).toClock n t
    let s := if s.on .fabPortQuiesced 0 n then s else s.synthetic n x t
    if pair then s.pairPortLost n else s
  else s

/-- A training attempt fails: the third in a row ends in ABSENT, a port retrain takes the link down,
else the next begins after a wait (R288, R316). -/
def State.failAttempt (s : State) (n t : Nat) : State :=
  let x := s.link n
  if x.retraining then s.linkDown n 4 t
  else
    let s := s.darkLanes n
    let s := if n < 32 then s.wr .lnkStatusAttempts n 0 (min 3 (s.rd .lnkStatusAttempts n 0 + 1)) else s
    let s := s.setLink n { s.link n with tries := x.tries + 1, since := t, waiting := x.tries < 2 }
    if x.tries < 2 then s.setEnd n lClock
    else (s.setEnd n lAbsent).count n .lnkEventsAbsent

/-- Timeout of a training state (R288). -/
def trainTimeout (st : Nat) : Nat := if st = lIdent then 2 ^ 18 else 2 ^ 20

/-- A case of R319 holds, coded as last_down: a direction too narrow, no clock, a retrain past its timeout,
the engine's die link down, or a quiesce past its time. -/
def State.downCase (s : State) (n cause t : Nat) : Bool :=
  if cause = 1 then s.txWidth n < s.linkMin n
  else if cause = 2 then s.rxWidth n < s.linkMin n
  else if cause = 3 then !s.on .lnkStatusClockOk n 0
  else if cause = 4 then (s.link n).retraining && trainTimeout (s.lState n) ≤ t - (s.link n).since
  else if cause = 5 then s.rd .ddlStatusWidth (n / 8) (2 + n / 4 % 2) = 3
  else cause = 6 && s.rd .fabStatusState 0 0 = 3 && !s.on .fabPortQuiesced 0 n &&
    2 ^ 27 ≤ t - s.rd .hSwitchTick 0 0

/-- A fabric link's direction is narrower than link_min (R319): causes 1 transmit, 2 receive. -/
def State.checkWidth (s : State) (n t : Nat) : State :=
  if n < 32 && s.linkOpen n then
    if s.txWidth n < s.linkMin n then s.linkDown n 1 t
    else if s.rxWidth n < s.linkMin n then s.linkDown n 2 t
    else s
  else s

/-- A member lane of a port leaves the link at its receiver: LANE_DROP goes out (R252, R276, R313). -/
def State.laneOut (s : State) (n w t : Nat) : State :=
  if s.lane n w = laneMember then
    let s := ((s.setLane n w laneRetrain).laneMoved n w).count n .lnkErrCountsLaneDrops
    (s.sendByp n 0x21 (w * 2 ^ 7) 0).checkWidth n t
  else s

/-! ### Die links: down -/

/-- Chase that a hop from chase c reaches, and the ring link that it crosses (R214, R531). -/
def hop (c h : Nat) : Nat × Option Nat :=
  if h = 0x20 then ((c + 1) % 4, some c)
  else if h = 0x21 then ((c + 3) % 4, some ((c + 3) % 4))
  else (c, none)

/-- A route record followed from chase c crosses ring link l (R531). -/
def PlanRoute.crosses (r : PlanRoute) (c l : Nat) : Bool :=
  let a := hop c r.hop1
  a.2 = some l || (hop a.1 r.hop2).2 = some l

/-- A plan names ring link l (R531). -/
def Plan.namesLink (p : Plan) (me l : Nat) : Bool :=
  p.routes.any fun r =>
    (p.ranks.any fun k => k.module = me && r.crosses k.chase l) ||
      (r.hop1 < 32 && (hop (r.hop1 / 8) r.hop2).2 = some l)

/-- A reservation names ring link l (R531). -/
def Resv.namesLink (r : Resv) (l : Nat) : Bool :=
  (r.slice = l && (r.requester = 5 || r.requester = 10)) ||
    (r.slice = (l + 1) % 4 && (r.requester = 6 || r.requester = 11))

/-- The reservations or plans of a forme name ring link l (R531). -/
def State.namesLink (s : State) (f : Forme) (l : Nat) : Bool :=
  f.variants.any fun v =>
    (v.resvs.any fun r => r.namesLink l) || v.plans.any fun p => p.namesLink s.identity l

/-- A forme parks for want of a variant; the reason of one that is parked becomes that (R236, R240, R336). -/
def State.parkLost (s : State) (f : Nat) : State :=
  if s.fState f = fNone then s
  else if s.fState f = fParked then (s.wr .modFormeStatusParkReason 0 f parkNoVariant).capUnmet
  else (s.stopUnits f).parkForme f parkNoVariant true

/-- A fabric port leaves service as on loss of LC, cause 5 (R319, R336). -/
def State.portDownByDie (s : State) (n t : Nat) : State :=
  if s.linkOpen n || (s.link n).retraining then s.linkDown n 5 t
  else if s.lState n = lAlign || s.lState n = lIdent then s.failAttempt n t
  else s

/-- Both ends of a die link are emptied; their frames' formes abandon (R336). -/
def State.emptyDie (s : State) (l t : Nat) : State :=
  let a := s.link (dieEnd l 0)
  let b := s.link (dieEnd l 1)
  let tx := (a.sending ++ b.sending).filter fun y => y.vc = 0
  let s := (s.darkLanes (dieEnd l 0)).darkLanes (dieEnd l 1)
  let s := s.setLink (dieEnd l 0) { (s.link (dieEnd l 0)).downed with since := t, widthReq := none }
  let s := s.setLink (dieEnd l 1) { (s.link (dieEnd l 1)).downed with since := t, widthReq := none }
  let s := s.each (tx.map LFrame.chase).eraseDups State.linkError
  let s := s.each (a.vc1Out ++ b.vc1Out) State.vc1Fail
  s.each (tx.map LFrame.forme).eraseDups fun s f => (s.noteErrPort f 0).abandon f causeLink t

/-- A die link goes down (R336): emptied; an engine link takes its ports down and its formes abandon;
a ring link makes the module yield, or parks the formes that name it (R236, R383, R531). -/
def State.dieDown (s : State) (l t : Nat) : State :=
  if s.dieWidth l = 3 && s.rd .ddlStatusState (ddlOf l).1 (ddlOf l).2 = 3 then s
  else
    let s := s.emptyDie l t
    let s := (s.setEnd (dieEnd l 0) lAbsent).setEnd (dieEnd l 1) lAbsent
    let s := ((s.ddlWr l .ddlStatusWidth 3).ddlWr l .ddlStatusState 3).wr .coreIrqEventsLink 0 0 1
    if l < 4 then
      if s.livePartner then s.yieldWith 4
      else s.each ((s.active.map Imposition.formes).getD []) fun s f =>
        if s.namesLink f l then s.parkLost f.number else s
    else
      let k := l - 4
      let s := s.wr .hOeLost k 0 1
      let s := s.each [4 * k, 4 * k + 1, 4 * k + 2, 4 * k + 3] fun s n => s.portDownByDie n t
      s.each ((s.active.map Imposition.formes).getD []) fun s f =>
        if bit f.engineSet k then (s.noteErrPort f.number 0).abandon f.number causeLink t else s

/-- A die-link end's width request is outstanding or waits (R332). -/
def Link.asksWidth (x : Link) : Bool :=
  (match x.request with
    | some r => decide (r.kind = 0x30)
    | none => false) || x.again.any fun e => e.1 = 0x30

/-- A width change is complete: the peer's request waits no more (R332). -/
def Link.widthMade (x : Link) : Link := { x with widthReq := none }

/-- A width change is wanted (R330 to R334): the link goes down where no width fits, else the end that
saw the change asks for the next one; while a request of its own or of its peer's is in hand, once that
completes. -/
def State.wantWidth (s : State) (l e t : Nat) : State :=
  let n := dieEnd l e
  if s.endState n != lUp then s
  else match s.fillWidth l with
    | none => s.dieDown l t
    | some _ =>
      let x := s.link n
      match s.wantedMask l with
      | none => s
      | some mask =>
        if (match x.request with
            | some r => decide (r.kind = 0x30 ∧ r.arg = mask)
            | none => false) || x.again.any (fun e => e.1 = 0x30) then s
        else if x.widthReq.isSome then s.setLink n { x with again := x.again ++ [(0x30, mask)] }
        else s.issue n 0x30 mask

/-- A free spare of a group at the receiver of a die-link end: LOCKED, and in no lane's place (R329). -/
def State.freeDieSpare (s : State) (n g : Nat) : Option Nat :=
  [dataLanes n + 2 * g, dataLanes n + 2 * g + 1].find? fun i =>
    !(s.link n).covers.any (fun e => e.1 = i) && s.lane n i = laneLocked

/-- A lane of a die link left: a free spare of its group will stand in, else the group fails (R329,
R330). -/
def State.dieLaneLost (s : State) (n i t : Nat) : State :=
  let g := laneGroup n i
  let x := s.link n
  let s := match s.freeDieSpare n g with
    | some sp => s.setLink n { x with covers := (x.covers.del i).put sp (x.covers.getD i i) }
    | none => s.setLink n { x with short := (x.short.filter fun y => !decide (y = g)) ++ [g] }
  let s := s.groupFields (dieLinkOf n)
  if s.groupOk n g then s else s.wantWidth (dieLinkOf n) ((n - 32) % 2) t

end Sys2Proof.Machine
end

