-- ==== Sys2Proof/Machine/Jobs.lean ====
section
/-!
DEFINITION. Jobs of the compositors and the collective engines (R170 to R202, R533).
-/

namespace Sys2Proof.Machine

/-! ### Jobs -/

/-- Jobs that an engine runs. -/
def State.running (s : State) (c : Nat) (col : Bool) : Nat :=
  (s.jobs.filter fun j => j.chase = c && j.col = col && j.status = .running).length

/-- The engine is full (R171). -/
def State.engineFull (s : State) (c : Nat) (col : Bool) : Bool :=
  (if col then 8 else 1) ≤ s.running c col

/-- CMP_NUM_FLAGS of chase c. -/
def State.cmpFlags (s : State) (c : Nat) (f : NumFlags) : State :=
  let up (b : Bool) (x : Field) (s : State) : State := if b then s.wr x c 0 1 else s
  up f.nanIn .cmpNumFlagsNanIn (up f.nanMade .cmpNumFlagsNanMade (up f.overflow .cmpNumFlagsOverflow
    (up f.saturated .cmpNumFlagsSaturated (up f.underflow .cmpNumFlagsUnderflow s))))

/-- COL_NUM_FLAGS of chase c. -/
def State.colFlags (s : State) (c : Nat) (f : NumFlags) : State :=
  let up (b : Bool) (x : Field) (s : State) : State := if b then s.wr x c 0 1 else s
  up f.nanIn .colNumFlagsNanIn (up f.nanMade .colNumFlagsNanMade (up f.a56Overflow
    .colNumFlagsA56Overflow (up f.overflow .colNumFlagsOverflow (up f.saturated
      .colNumFlagsSaturated (up f.underflow .colNumFlagsUnderflow s)))))

/-- Rounding mode of output element n of a job of forme f (R60, R183, R191). -/
def State.jobRound (s : State) (f code tensor n : Nat) : RMode :=
  rmodeOf code (noise ((s.forme f).map Forme.srSeed |>.getD 0) (s.edition f) tensor n)

/-- An FP32 operation with its events (R56, R64, R68): NaN read, NaN made, overflow, underflow. -/
def fp32Op (op : FVal → FVal → FVal) (a b : Nat) : Nat × NumFlags :=
  let r := op (fp32Val a) (fp32Val b)
  let e := Fmt.encode .fp32 .rne false r
  (e.1, e.2.or (laneFlags [fp32Val a, fp32Val b] r))

/-- A value converted once to an output format (R183, R191). Its overflow is no overflow of FP32, which
alone CMP_NUM_FLAGS and COL_NUM_FLAGS give. -/
def convertOut (fmt : Nat) (r : RMode) (sat : Bool) (v : FVal) : Nat × NumFlags :=
  match Fmt.ofCode fmt with
  | none => (0, NumFlags.none)
  | some f =>
    let e := f.encode r sat v
    (e.1, { e.2 with overflow := false })

/-- Bytes written to the galley slice of a chase at a line, as far as the slice reaches. -/
def State.putLines (s : State) (c line : Nat) (bs : List Byte) : State :=
  if line * 256 + bs.length ≤ galLines * 256 then s.writeGal c (line * 256) bs else s

/-- The same, the last line filled with zero bytes: R183 says so of POOL, and the model does so of GATHER and of
copies too (log entry 89). -/
def State.putPadded (s : State) (c line : Nat) (bs : List Byte) : State :=
  s.putLines c line (padTo (256 * linesOf bs.length) bs)

/-! ### The compositor (R174 to R185) -/

/-- A fetched row as FP32 patterns, with its events (R177). -/
def decodeRow (efmt dim : Nat) (bs : List Byte) : List Nat × NumFlags :=
  match Fmt.ofCode efmt with
  | none => ([], NumFlags.none)
  | some f =>
    let es := f.unpack dim bs
    let out := (List.range dim).map fun n =>
      let v := f.decode (es.getD n 0)
      let x := (bs.getD (dim + n / 32) 0).toNat
      let v := if f.isMx then (if x = 255 then .nan else v.scaleDown (127 - Int.ofNat x)) else v
      let e := Fmt.encode .fp32 .rne false v
      (e.1, { e.2 with nanIn := v.isNaN })
    (out.map Prod.fst, NumFlags.orAll (out.map Prod.snd))

/-- -infinity in FP32, the identity of MAX (R182). -/
def minusInf : Nat := 0xFF800000

/-- Term of a null lookup (R182). -/
def nullTerm (d : Nat) : List Nat := List.replicate (pDim d) (if jMode d = 2 then minusInf else 0)

/-- Term of a fetched lookup: the row, or its elements times the weight (R182). -/
def pooledTerm (d weight : Nat) (row : List Nat) : List Nat × NumFlags :=
  if jMode d = 3 then
    let out := row.map fun e => fp32Op FVal.mul weight e
    (out.map Prod.fst, { NumFlags.orAll (out.map Prod.snd) with nanIn := false })
  else (row, NumFlags.none)

/-- Combine of two terms (R182). -/
def poolCombine (d : Nat) (a b : List Nat × NumFlags) : List Nat × NumFlags :=
  let out := List.zipWith (fun x y => if jMode d = 2 then
      (fp32Of ((fp32Val x).maximum (fp32Val y)), NumFlags.none) else fp32Op FVal.add x y) a.1 b.1
  (out.map Prod.fst, (a.2.or b.2).or { NumFlags.orAll (out.map Prod.snd) with nanIn := false })

/-- The pooled row of a bag from its terms, `n` of them not null: the canonical tree, the mean's
division, and +0 for a bag without lookups (R182). -/
def poolBag (d n : Nat) (terms : List (List Nat)) : List Nat × NumFlags :=
  if n = 0 then (List.replicate (pDim d) 0, NumFlags.none)
  else
    let r := tree (poolCombine d) ([], NumFlags.none) (terms.map fun t => (t, NumFlags.none))
    if jMode d = 1 then
      let out := r.1.map fun x => fp32Op FVal.div x (fp32Of (.fin false n 0))
      (out.map Prod.fst, r.2.or { NumFlags.orAll (out.map Prod.snd) with nanIn := false })
    else r

/-- 32-bit entry i of the list at a line. -/
def State.listEntry (s : State) (c line i : Nat) : Nat := leNat (s.readGal c (line * 256 + 4 * i) 4)

/-- A bag's output row is converted and written (R183). -/
def State.writeBag (s : State) (x : Job) (b : Nat) (row : List Nat × NumFlags) : State :=
  let d := x.desc
  let out := (List.range (pDim d)).map fun n =>
    convertOut (pOfmt d) (s.jobRound x.forme (pRmode d) (pTensor d) (b * pDim d + n)) (pSat d)
      (fp32Val (row.1.getD n 0))
  let s := s.cmpFlags x.chase (row.2.or (NumFlags.orAll (out.map Prod.snd)))
  let w := obytes (pOfmt d)
  s.putPadded x.chase (pOut d + b * linesOf (pDim d * w)) ((out.map Prod.fst).flatMap (natLe w))

/-- n lines of a working range from a line: what the engine keeps there is not defined (R180, R194). -/
def State.scratch (s : State) (c line n : Nat) : State :=
  ({ s with freeCount := s.freeCount + 1 } : State).putLines c line
    ((List.range (256 * n)).map fun i => BitVec.ofNat 8 (Config.freeTable s.freeCount i))

/-- The index names no row (R176). -/
def nullIndex (d idx : Nat) : Bool := idx = 0xFFFFFFFF || pRows d ≤ idx

/-- A fetch of a window: list position and address of the row (R178). -/
abbrev Fetch := Nat × Nat

/-- The key by which a window's fetches are sorted: stack, channel, bank, row, list position (R178). -/
def State.fetchKey (s : State) (c : Nat) (e : Fetch) : Nat :=
  let x := stackPos (s.memMode c e.2) e.2
  (((x.stack * 64 + x.channel) * 16 + x.bank) * 32768 + x.row) * 2 ^ 40 + e.1

/-- A fetch put in its place by its key. -/
def State.insertFetch (s : State) (c : Nat) (e : Fetch) : List Fetch → List Fetch
  | [] => [e]
  | x :: l => if s.fetchKey c e < s.fetchKey c x then e :: x :: l else x :: s.insertFetch c e l

/-- The fetches of the next window of a job, in the order of their issue (R178). -/
def State.window (s : State) (x : Job) : List Fetch :=
  let d := x.desc
  let base := s.viewAddr x.forme x.chase (pTable d)
  let n := min 256 (pBags d * pSlots d - x.nextLookup)
  ((List.range n).map fun i => x.nextLookup + i).foldl (fun l i =>
    let idx := s.listEntry x.chase (pIndex d) i
    if nullIndex d idx then l else s.insertFetch x.chase (i, base + idx * pRowBytes d) l) []

/-- One lookup of a running job at its position in the list (R175 to R184), with the rows that its window
fetched. POOL holds its term until its bag is whole; the shard of a held value is the bag, and its range is
[j, j + 1), or [j, j) for a null lookup. -/
def State.lookup (s : State) (x : Job) (rows : List (Nat × List Byte)) : State :=
  let d := x.desc
  let i := x.nextLookup
  let b := i / pSlots d
  let j := i % pSlots d
  let c := x.chase
  let idx := s.listEntry c (pIndex d) i
  let null := nullIndex d idx
  let s := if idx = 0xFFFFFFFF then s.bump .cmpExceptCountsNull c 0 1
    else if pRows d ≤ idx then (s.wr .cmpStatusIdxRange c 0 1).bump .cmpExceptCountsOutOfRange c 0 1
    else s.bump .cmpLookupCountLookups c 0 1
  let row := if null then List.replicate (pRowBytes d) 0
    else ((rows.find? fun e => e.1 = i).map Prod.snd).getD []
  let x := { x with nextLookup := i + 1 }
  if jKind d = 2 then
    (s.putPadded c (pOut d + i * linesOf (pRowBytes d)) row).setJob x
  else
    let dec := decodeRow (jFmt d) (pDim d) row
    let term := pooledTerm d (s.listEntry c (pWeight d) i) dec.1
    let s := if null then s else s.cmpFlags c (dec.2.or term.2)
    let held := x.held ++
      [if null then HeldNode.mk b j j (nullTerm d) 0 false else HeldNode.mk b j (j + 1) term.1 0 false]
    if j + 1 = pSlots d then
      let n := (held.filter fun h => h.lo != h.hi).length
      (s.writeBag x b (poolBag d n (held.map HeldNode.vals))).setJob { x with held := [] }
    else s.setJob { x with held := held }

/-- Lookups of a job (R175). -/
def pTotal (d : Nat) : Nat := pBags d * pSlots d

/-- The next n lookups of job idx of forme f, with the rows of their window. -/
def State.lookups (s : State) (f idx : Nat) (rows : List (Nat × List Byte)) : Nat → State
  | 0 => s
  | n + 1 =>
    match s.job f idx with
    | none => s
    | some x => if x.nextLookup < pTotal x.desc then State.lookups (s.lookup x rows) f idx rows n else s

/-- The staging range after a window: its half holds the window's rows in the compositor's own layout, which
is not defined (R180). -/
def State.stageWindow (s : State) (x : Job) : State :=
  let n := 256 * linesOf (pRowBytes x.desc)
  s.scratch x.chase (pStage x.desc + x.nextLookup / 256 % 2 * n) n

/-- A job's next window: the fetches are issued sorted, the rows pass through the staging range, and each is
pooled at its list position whatever the order of the fetches (R178 to R180). -/
def State.fetchWindow (s : State) (x : Job) : State :=
  let w := s.window x
  let rows := w.map fun e => (e.1, s.readMem x.chase e.2 (pRowBytes x.desc))
  ((s.send (.fetches x.chase (w.map Prod.snd))).stageWindow x).lookups x.forme x.idx rows 256

/-- WINDOW_FETCH: the compositor's running job takes its next window of 256 lookups (R178). Whether a window
of more than 1 MiB of terms spilled depends on the fetches' timing: a free value (R194). `ce` is what the
fetches met corrected (R162, R163). -/
def execWindowFetch (c : Nat) (ce : List CeSite) (s : State) : Res :=
  if c < 4 then
    match s.jobs.find? fun j => j.chase = c && !j.col && j.status = .running with
    | none => .next s
    | some x =>
      let s := s.met 4 true ce
      let big := jKind x.desc = 1 && 2 ^ 20 < min 256 (pTotal x.desc - x.nextLookup) * 4 * pDim x.desc
      let r := if big then s.free 1 else (0, s)
      let s := if r.1 = 1 then r.2.wr .cmpStatusSpill c 0 1 else r.2
      .next (s.fetchWindow x)
  else .fault .noSuchUnit

/-! ### Transfers of the collective engine (R193, R297) -/

/-- The way round the ring from chase c to another: the link end that leaves c, and the one that leaves the
relaying chase; to the opposite chase through chase (c + 1) mod 4 (R24). -/
def ringWay (c chase : Nat) : Nat × Option Nat :=
  if chase = (c + 3) % 4 then (dieEnd ((c + 3) % 4) 1, none)
  else if chase = (c + 2) % 4 then (dieEnd c 0, some (dieEnd ((c + 1) % 4) 0))
  else (dieEnd c 0, none)

/-- The link end by which a transfer leaves chase c toward a destination, and the one by which a relaying
chase sends it on: by the plan's route; without a route, the ring (R24, R193, R214). -/
def pathTo (p : Plan) (me c module chase : Nat) : Nat × Option Nat :=
  let die (c h : Nat) : Nat := if h = 0x20 then dieEnd c 0 else dieEnd ((c + 3) % 4) 1
  match p.routes.find? fun r => r.module = module && r.chase = chase with
  | some r =>
    if r.hop1 < 32 then (r.hop1, none)
    else if r.hop2 = 0xFF then (die c r.hop1, none)
    else if r.hop2 < 32 then (die c r.hop1, some r.hop2)
    else (die c r.hop1, some (die (hop c r.hop1).1 r.hop2))
  | none => if module = me then ringWay c chase else (die c 0x20, none)

/-- The head of a VC0 transfer (R297). -/
def xferHead (job chase kind line bytes lo hi : Nat) : List Byte :=
  natLe 2 job ++ natLe 1 chase ++ natLe 1 kind ++ natLe 4 line ++ natLe 4 bytes ++ natLe 2 lo ++ natLe 2 hi

/-- Reservations that the collective job with descriptor d of forme f's running step names (R171, R193). -/
def State.namedResvs (s : State) (f d : Nat) : List Resv := ((s.stepResvs f).drop (jResFirst d)).take (jResCount d)

/-- First line that a transfer of so many lines takes in the slice of the relaying chase which it enters by link end
m: in the lines of the job's receive reservation of that link's code, behind the transfers that came to them before
in the step (R24, R145, R193); none where no reservation has room. -/
def State.relayPlace (s : State) (rs : List Resv) (m f lines : Nat) : Option Nat :=
  (rs.find? fun r => r.write && r.slice = endChase m && r.requester = 5 + m % 2).bind fun r =>
    let used := ((s.relays.filter fun x => x.live && x.forme = f && x.src = otherEnd m &&
      (x.place.map fun p => decide (r.lineLo ≤ p ∧ p < r.lineHi)) = some true).map Relay.lines).sum
    if r.lineLo + used + lines ≤ r.lineHi then some (r.lineLo + used) else none

/-- A transfer waits at the first link end of its path as VC0 frames; a relaying chase, which holds it in lines of
the job's reservations `rs`, sends it on by the second (R24, R193, R297). -/
def State.queueXfer (s : State) (rs : List Resv) (h : Nat × Option Nat) (chase f : Nat) (bytes : List Byte) : State :=
  let lines := (bytes.length - 16 + 255) / 256
  let s := match h.2 with
    | none => s
    | some e =>
      let place := if h.1 < 32 then none else s.relayPlace rs (otherEnd h.1) f lines
      { s with relays := s.relays ++ [Relay.mk h.1 (bytes.take 16) e f true place lines false] }
  s.queueFrames h.1 chase f bytes

/-- Number of a rank's job in the table of values that stand for the jobs of other modules in a step. -/
def awayKey (d q : Nat) : Nat := ((cPlan d * 8 + jKind d) * 8192 + q) * 2

/-- Descriptor of rank q's job on another module: its dst_line and stage_line are that module's own, one
unspecified value each for the step; experts, capacity, choices and count are the collective's (R187, R188,
R200, R533; log entry 20). -/
def State.awayDesc (s : State) (f d q : Nat) : Nat :=
  let v := Config.freeTable (s.rd .hFormeJobTable 0 f) (awayKey d q)
  d - cDst d * 2 ^ 128 - cStage d * 2 ^ 160 + v % 2 ^ 21 * 2 ^ 128 + v / 2 ^ 21 % 2 ^ 21 * 2 ^ 160

/-- Job index of rank q and the line that its descriptor gives. Those of another module are that module's
own, the same for every transfer of the step (R297, R533; log entry 20). -/
def State.target (s : State) (f d q : Nat) (line : Nat → Nat) : Nat × Nat :=
  match s.rankJob f d q with
  | some e => (e.1, line e.2)
  | none => (Config.freeTable (s.rd .hFormeJobTable 0 f) (awayKey d q + 1) % 2 ^ 16, line (s.awayDesc f d q))

/-- Data for lines of rank q: written where the rank lies in this engine's slice, else sent (R193,
R533). `kind` is 1 for a MoE row, 2 for galley lines. DESIGN CHOICE: the rest of the last line of what is
written here is filled with zero bytes, as R183 has it for POOL, and what a link delivers leaves the rest of
its last line as it was (log entry 89). -/
def State.sendLines (s : State) (x : Job) (p : Plan) (q kind : Nat) (line : Nat → Nat)
    (data : List Byte) : State :=
  match p.ranks[q]? with
  | none => s
  | some k =>
    if k.module = s.identity then
      match s.rankJob x.forme x.desc q with
      | none => s
      | some e =>
        if k.chase = x.chase then (s.putPadded x.chase (line e.2) data).land x.forme e.1 (line e.2)
        else s.queueXfer (s.namedResvs x.forme x.desc) (pathTo p s.identity x.chase k.module k.chase) x.chase x.forme
          (xferHead e.1 k.chase kind (line e.2) data.length 0 0 ++ data)
    else
      let r := s.target x.forme x.desc q line
      s.queueXfer (s.namedResvs x.forme x.desc) (pathTo p s.identity x.chase k.module k.chase) x.chase x.forme
        (xferHead r.1 k.chase kind r.2 data.length 0 0 ++ data)

/-! ### Canonical combination (R189 to R192, R195) -/

/-- The combine of a job's terms, element by element (R53, R191, R192). -/
def combineVals (d : Nat) (a b : List Nat) : List Nat × NumFlags :=
  let out := List.zipWith (fun x y => if jMode d = 7 then
      let r := a56Add x y
      (r.1, { r.2 with nanIn := (a56Val x).isNaN || (a56Val y).isNaN })
    else fp32Op FVal.add x y) a b
  (out.map Prod.fst, NumFlags.orAll (out.map Prod.snd))

/-- The node records that this chase forms, for a plan (R190). -/
def Plan.mine (p : Plan) (me c : Nat) : List PlanNode := p.nodes.filter fun n => n.module = me && n.chase = c

/-- The least node record of the module that holds [lo, hi) and is larger, or may equal it (R190). -/
def leastNode (l : List PlanNode) : Option PlanNode :=
  l.foldl (fun o n =>
    match o with
    | none => some n
    | some m => if n.hi - n.lo < m.hi - m.lo then some n else some m) none

/-- Where a node or leaf of a rank of this module goes: the chase that forms the least enclosing node
record, else the owner of the shard (R189, R190). -/
def Plan.next (p : Plan) (me shard lo hi : Nat) (strict : Bool) : Option (Nat × Nat) :=
  match leastNode (p.nodes.filter fun n =>
      n.module = me && n.lo ≤ lo && hi ≤ n.hi && !(strict && n.lo = lo && n.hi = hi)) with
  | some n => some (n.module, n.chase)
  | none => (p.ranks[shard]?).map fun k => (k.module, k.chase)

/-- The job of a chase that takes node values of a shard: the shard's owner where it lies there, else the
chase's first job of the plan. -/
def State.nodeJob (s : State) (f d shard c : Nat) : Option (Nat × Nat) :=
  let l := (s.stepJobs f).filter fun e =>
    jCol e.2 && jKind e.2 = jKind d && cPlan e.2 = cPlan d && jChase e.2 = c
  match l.find? fun e => cRank e.2 = shard with
  | some e => some e
  | none => l.head?

/-- A node value leaves for another chase or module (R193, R297). -/
def State.sendNode (s : State) (x : Job) (p : Plan) (shard lo hi : Nat) (v : List Nat)
    (dst : Nat × Nat) : State :=
  let data := v.flatMap (natLe (nodeBytes x.desc))
  let job :=
    if dst.1 = s.identity then ((s.nodeJob x.forme x.desc shard dst.2).map Prod.fst).getD 0
    else (s.target x.forme x.desc shard id).1
  s.queueXfer (s.namedResvs x.forme x.desc) (pathTo p s.identity x.chase dst.1 dst.2) x.chase x.forme
    (xferHead job dst.2 0 shard data.length lo hi ++ data)

/-- The result of shard `shard` at its owner: converted once, written, and in ALL_REDUCE copied to every
rank (R188, R191, R533). DESIGN CHOICE: A56 needs no conversion, so with one rank, where nothing combines, a
non-canonical NaN of the input is written as it stands (R52, R62; log entry 89). -/
def State.rootResult (s : State) (x : Job) (p : Plan) (shard : Nat) (v : List Nat) : State :=
  let d := x.desc
  let out := (List.range v.length).map fun n =>
    if jMode d = 7 then (v.getD n 0, NumFlags.none)
    else convertOut (jFmt d) (s.jobRound x.forme (cRmode d) (cTensor d) (shard * cCount d + n)) (cSat d)
      (fp32Val (v.getD n 0))
  let s := s.colFlags x.chase (NumFlags.orAll (out.map Prod.snd))
  let w := if jMode d = 7 then 8 else obytes (jFmt d)
  let data := (out.map Prod.fst).flatMap (natLe w)
  let s := s.setJob x
  if jKind d = 1 then
    let off := shard * linesOf (elemBytes (jFmt d) (cCount d))
    s.each (List.range p.ranks.length) fun s q => s.sendLines x p q 2 (fun e => cDst e + off) data
  else (s.putPadded x.chase (cDst d) data).land x.forme x.idx (cDst d)

/-- Values that the collective engine of chase c holds in its node store, with their jobs (R194). -/
def State.stored (s : State) (c : Nat) : List (Job × HeldNode) :=
  (s.jobs.filter fun j => j.chase = c && j.col).flatMap fun j =>
    (j.held.filter fun h => !h.spilled).map fun h => (j, h)

/-- Bytes that they take (R194). -/
def State.heldBytes (s : State) (c : Nat) : Nat :=
  ((s.stored c).map fun e => e.2.vals.length * nodeBytes e.1.desc).sum

/-- The oldest of them. -/
def oldestHeld : List (Job × HeldNode) → Option (Job × HeldNode)
  | [] => none
  | e :: l =>
    match oldestHeld l with
    | none => some e
    | some b => some (if e.2.age ≤ b.2.age then e else b)

/-- Place of the next value that the collective engine of chase c holds. -/
def State.nextAge (s : State) (c : Nat) : Nat :=
  ((s.jobs.filter fun j => j.chase = c && j.col).flatMap fun j => j.held.map HeldNode.age).foldl max 0 + 1

/-- COL_STATUS spill: while the chase's held values exceed the node store of 8 MiB, the oldest goes to its job's
staging range, whose layout is not defined (R194). -/
def State.nodeSpill (s : State) (c : Nat) : Nat → State
  | 0 => s
  | n + 1 =>
    if 2 ^ 23 < s.heldBytes c then
      match oldestHeld (s.stored c) with
      | none => s
      | some e =>
        let x := e.1
        let held := x.held.map fun h => if h = e.2 then { h with spilled := true } else h
        let s := (s.setJob { x with held := held }).wr .colStatusSpill c 0 1
        (s.scratch c (cStage x.desc) (cStageLines x.desc)).nodeSpill c n
    else s

/-- A value [lo, hi) of a shard at an engine: it goes on where this chase does not form its parent; it is
held until its sibling is there; both combine, the lower range on the left (R189). -/
def State.nodeStep (s : State) (f idx : Nat) (p : Plan) (shard : Nat) :
    Nat → Nat → Nat → List Nat → State
  | 0, _, _, _ => s
  | k + 1, lo, hi, v =>
    match s.job f idx with
    | none => s
    | some x =>
      let n := p.ranks.length
      let mark (x : Job) : Job := { x with seen := x.seen ++ [(shard, lo, hi)] }
      if lo = 0 && hi = n then (s.setJob (mark x)).rootResult (mark x) p shard v
      else
        let own := (p.mine s.identity x.chase).any fun m => m.lo = lo && m.hi = hi
        match p.next s.identity shard lo hi own with
        | none => s
        | some dst =>
          if dst != (s.identity, x.chase) then (s.setJob (mark x)).sendNode (mark x) p shard lo hi v dst
          else
            match parentOf n lo hi with
            | none => s
            | some (plo, phi, left) =>
              let isSib (h : HeldNode) : Bool :=
                h.shard = shard && (if left then h.lo = hi && h.hi = phi else h.lo = plo && h.hi = lo)
              match x.held.find? isSib with
              | none =>
                let s := s.setJob { mark x with
                  held := x.held ++ [HeldNode.mk shard lo hi v (s.nextAge x.chase) false] }
                s.nodeSpill x.chase (s.stored x.chase).length
              | some h =>
                let r := if left then combineVals x.desc v h.vals else combineVals x.desc h.vals v
                let s := s.setJob { mark x with held := x.held.erase h }
                State.nodeStep (s.colFlags x.chase r.2) f idx p shard k plo phi r.1

/-- A value arrives at a job: a range that is no node, or one already held or combined, is discarded
(R195). -/
def State.nodeArrive (s : State) (f idx shard lo hi : Nat) (v : List Nat) : State :=
  match s.job f idx with
  | none => s
  | some x =>
    match s.planOf f x.desc with
    | none => s
    | some p =>
      if p.ranks.length ≤ shard || !isNode p.ranks.length lo hi then s.wr .colStatusBadNode x.chase 0 1
      else if x.seen.any fun e => e.1 = shard && e.2.1 ≤ lo && hi ≤ e.2.2 then
        s.wr .colStatusDupTerm x.chase 0 1
      else s.nodeStep f idx p shard 32 lo hi v

/-- NODE_ARRIVAL: a node value or leaf reaches the collective engine of chase c (R189, R195). -/
def execNodeArrival (c job shard lo hi : Nat) (v : List Nat) (s : State) : Res :=
  if c < 4 then
    match s.formeOfJob c job with
    | none => .next s
    | some f =>
      match s.jobDesc f job with
      | some d =>
        if jKind d = 1 || jKind d = 2 then .next ((s.ensureJob f job).nodeArrive f job shard lo hi v)
        else .next s
      | none => .next s
  else .fault .noSuchUnit

/-! ### Mixture of experts (R197 to R201) -/

/-- A candidate: expert, 0xFFFF for null, and gate. -/
abbrev Cand := Nat × Nat

/-- Candidates of one token, with null ones marked (R197). -/
def cleanCands (e : Nat) : List Cand → List Nat → List Cand
  | [], _ => []
  | c :: l, old =>
    if e ≤ c.1 || old.contains c.1 then (0xFFFF, c.2) :: cleanCands e l old
    else c :: cleanCands e l (c.1 :: old)

/-- Routing table of a job's rank as it stands in its galley (R197). -/
def State.routing (s : State) (d : Nat) : List (List Cand) :=
  (List.range (cTokens d)).map fun t =>
    (List.range (cKc d)).map fun a =>
      let b := s.readGal (jChase d) (cRoute d * 256 + 8 * (t * cKc d + a)) 8
      (leNat (b.take 2), leNat (b.drop 4))

/-- Routing table of a rank of another module: its number of tokens, its experts and its gates are unspecified
values, the same for every rank of the plan here (R187, R197; log entry 20). -/
def awayRouting (d id q : Nat) : List (List Cand) :=
  (List.range (Config.freeTable id (q * 2 ^ 24) % 65535 + 1)).map fun t => (List.range (cKc d)).map fun a =>
    let v := Config.freeTable id (q * 2 ^ 24 + t * 16 + a + 1)
    (v % 2 ^ 16, v / 2 ^ 16 % 2 ^ 32)

/-- Routing tables of all ranks of a job's plan. -/
def State.routings (s : State) (f d : Nat) (p : Plan) (id : Nat) : List (List (List Cand)) :=
  (List.range p.ranks.length).map fun q =>
    (match s.rankJob f d q with
      | some e => s.routing e.2
      | none => awayRouting d id q).map
      fun l => cleanCands (cExperts d) l []

/-- Placement in progress (R198): placed, used slots of each expert, overflow assignments. -/
structure Placing where
  placed : List Placed
  used : SMap Nat Nat
  spill : List (Nat × Nat × Nat)
deriving DecidableEq, Repr

/-- Assignments (r, t, j) in canonical order, each rank with the tokens of its own table (R197, R198). -/
def assignments (tabs : List (List (List Cand))) (k : Nat) : List (Nat × Nat × Nat) :=
  tabs.zipIdx.flatMap fun e => (List.range e.1.length).flatMap fun t =>
    (List.range k).map fun j => (e.2, t, j)

/-- Candidate a of a token. -/
def candOf (tabs : List (List (List Cand))) (r t a : Nat) : Cand :=
  ((tabs.getD r []).getD t []).getD a (0xFFFF, 0)

/-- One assignment put on an expert where it has room. -/
def Placing.put (x : Placing) (cap : Nat) (e : Nat × Nat × Nat) (c : Cand) : Placing :=
  let u := x.used.getD c.1 0
  { x with placed := x.placed ++ [⟨e.1, e.2.1, e.2.2, c.1, u, c.2⟩],
           used := if u < cap then x.used.put c.1 (u + 1) else x.used }

/-- The primary round (R198). -/
def primary (tabs : List (List (List Cand))) (cap : Nat) (x : Placing) (e : Nat × Nat × Nat) : Placing :=
  let c := candOf tabs e.1 e.2.1 e.2.2
  if c.1 = 0xFFFF then x
  else if x.used.getD c.1 0 < cap then x.put cap e c
  else { x with spill := x.spill ++ [e] }

/-- One assignment of a deferral round (R198). -/
def deferOne (tabs : List (List (List Cand))) (cap a : Nat) (x : Placing) (e : Nat × Nat × Nat) : Placing :=
  let c := candOf tabs e.1 e.2.1 a
  if c.1 = 0xFFFF || x.placed.any fun y => y.rank = e.1 && y.token = e.2.1 && y.expert = c.1 then x
  else if x.used.getD c.1 0 < cap then { x.put cap e c with spill := x.spill.erase e }
  else x

/-- Placement (R198): the primary round, then one deferral round for each alternate. -/
def place (tabs : List (List (List Cand))) (k kc cap : Nat) : Placing × List (Nat × Nat × Nat) :=
  let x := (assignments tabs k).foldl (primary tabs cap) ⟨[], [], []⟩
  ((List.range (kc - k)).foldl (fun x i => x.spill.foldl (deferOne tabs cap (k + i)) x) x, x.spill)

/-- Line of slot `slot` of expert e in a host job's slot layout from a line (R200, R201). -/
def slotLine (d h line rowLines e slot : Nat) : Nat := line + (e % h * cCap d + slot) * rowLines

/-- Line of the slot map of a dispatch whose routing table is at a line (R200). -/
def mapLine (d : Nat) : Nat := cRoute d + linesOf (8 * cTokens d * cKc d)

/-- Placement of a dispatch: every rank of the plan's dispatch in a step finds the same one (R198, R199).
The counts that the ranks exchange give the sequential text's result, so the tables are used directly; those
of ranks on other modules are free values (log entry 20). -/
def State.placement (s : State) (x : Job) (p : Plan) : (Placing × List (Nat × Nat × Nat)) × State :=
  let d := x.desc
  let key := (x.forme, cPlan d)
  let q := s.rd .modFormeStepQ 0 x.forme
  let id := match s.moe.get? key with
    | some e => if e.step = q then e.table else s.freeCount
    | none => s.freeCount
  let res := place (s.routings x.forme d p id) (cK d) (cKc d) (cCap d)
  (res, { s with freeCount := if id = s.freeCount then s.freeCount + 1 else s.freeCount,
                 moe := s.moe.put key ⟨q, id, res.1.placed⟩ })

/-- MOE_DISPATCH of a rank (R197 to R200): placement, this rank's counts and slot map, its rows sent to
their hosts, and, as a host, empty slots filled with zero and the slot-valid bits written. -/
def State.dispatch6 (s : State) (x : Job) (p : Plan) : State :=
  let d := x.desc
  let r := cRank d
  let c := x.chase
  let own := s.routing d
  let s := if own.any fun l => l.any fun e => cExperts d ≤ e.1 && e.1 != 0xFFFF then
    s.wr .colStatusRouteRange c 0 1 else s
  let pl := s.placement x p
  let res := pl.1
  let s := pl.2
  let mine := res.1.placed.filter fun y => y.rank = r
  let marked := (res.2.filter fun e => e.1 = r).length
  let left := (res.1.spill.filter fun e => e.1 = r).length
  let s := s.wrAll [(.colMoeCountsOverflowed, c, 0, min 0xFFFF marked),
    (.colMoeCountsRerouted, c, 0, min 0xFFFF (marked - left)),
    (.colMoeCountsDropped, c, 0, min 0xFFFF (cTokens d * cK d - mine.length))]
  let entry (t j : Nat) : List Byte :=
    match mine.find? fun y => y.token = t && y.choice = j with
    | some y => natLe 2 y.expert ++ natLe 2 y.slot ++ natLe 4 y.weight
    | none => natLe 2 0xFFFF ++ natLe 2 0xFFFF ++ natLe 4 0
  let s := s.putLines c (mapLine d) ((List.range (cTokens d)).flatMap fun t =>
    (List.range (cK d)).flatMap fun j => entry t j)
  let rb := elemBytes (jMode d) (cCount d)
  let rl := linesOf rb
  let h := hosted d p.ranks.length
  let slots := (List.range (hostsAt d p.ranks.length r)).flatMap fun i => (List.range (cCap d)).map fun q => (i, q)
  let full (e : Nat × Nat) : Bool := res.1.placed.any fun y => y.expert = r * h + e.1 && y.slot = e.2
  let s := s.each slots fun s e =>
    if full e then s
    else s.putLines c (slotLine d h (cDst d) rl e.1 e.2) (List.replicate (256 * rl) 0)
  let bits := slots.map fun e => b2n (full e)
  let s := if slots.isEmpty then s
    else s.putLines c (cMask d) (natLe ((bits.length + 7) / 8) (packNat 1 bits))
  s.each mine fun s y =>
    s.sendLines x p (y.expert / h) 1 (fun e => slotLine e h (cDst e) rl y.expert y.slot)
      (s.readGal c ((cSrc d + y.token * srcPitch d) * 256) rb)

/-- Slot-map entry of an assignment: expert, slot, weight (R200, R201). -/
def State.mapEntry (s : State) (d t j : Nat) : Nat × Nat × Nat :=
  let b := s.readGal (jChase d) (cRoute d * 256 + 8 * (t * cK d + j)) 8
  (leNat (b.take 2), leNat ((b.drop 2).take 2), leNat (b.drop 4))

/-- Staging line of a returned row: assignment order from stage_line (log entry 20). -/
def stagedLine (d rowLines t j : Nat) : Nat := cStage d + (t * cK d + j) * rowLines

/-- Source of slot `slot` of expert e on a rank of another module, by the plan's last dispatch (R198,
R201). -/
def State.awaySource (s : State) (x : Job) (e slot : Nat) : Option Placed :=
  match s.moe.get? (x.forme, cPlan x.desc) with
  | none => none
  | some m => m.placed.find? fun y =>
      y.expert = e && y.slot = slot && (s.rankJob x.forme x.desc y.rank).isNone

/-- MOE_COMBINE at a host (R201): each occupied slot's row goes back to its source rank, which the slot maps
of this module's ranks name, and for a rank of another module the placement of the dispatch. -/
def State.combineHost (s : State) (x : Job) (p : Plan) : State :=
  let d := x.desc
  let n := p.ranks.length
  let h := hosted d n
  let rb := elemBytes (jMode d) (cCount d)
  let rl := linesOf rb
  let claims := (List.range n).flatMap fun q =>
    match s.rankJob x.forme d q with
    | none => []
    | some e => (List.range (cTokens e.2)).flatMap fun t => (List.range (cK e.2)).filterMap fun j =>
        let m := s.mapEntry e.2 t j
        if m.1 != 0xFFFF && m.1 / h = cRank d then some (q, t, j, m.1, m.2.1) else none
  let row (s : State) (ex slot : Nat) : List Byte :=
    s.readGal x.chase (slotLine d h (cSrc d) rl ex slot * 256) rb
  let s := s.each claims fun s e =>
    s.sendLines x p e.1 1 (fun y => stagedLine y rl e.2.1 e.2.2.1) (row s e.2.2.2.1 e.2.2.2.2)
  s.each ((List.range (hostsAt d n (cRank d))).flatMap fun i => (List.range (cCap d)).map fun q => (i, q))
    fun s e =>
      let ex := cRank d * h + e.1
      match s.awaySource x ex e.2 with
      | none => s
      | some y => s.sendLines x p y.rank 1 (fun z => stagedLine z rl y.token y.choice) (row s ex e.2)

/-- MOE_COMBINE at the source rank, once its rows are back: the canonical tree over a token's choices
(R201). -/
def State.combineTokens (s : State) (x : Job) : State :=
  let d := x.desc
  let rl := linesOf (elemBytes (jMode d) (cCount d))
  s.each (List.range (cTokens d)) fun s t =>
    let rows := (List.range (cK d)).map fun j =>
      let m := s.mapEntry d t j
      if m.1 = 0xFFFF then (List.replicate (cCount d) 0, NumFlags.none)
      else
        let y := decodeRow (jMode d) (cCount d) (s.readGal x.chase (stagedLine d rl t j * 256)
          (elemBytes (jMode d) (cCount d)))
        let out := y.1.map fun e => fp32Op FVal.mul m.2.2 e
        (out.map Prod.fst, NumFlags.orAll (out.map Prod.snd))
    let add (a b : List Nat × NumFlags) : List Nat × NumFlags :=
      let out := List.zipWith (fun u v => fp32Op FVal.add u v) a.1 b.1
      (out.map Prod.fst, (a.2.or b.2).or (NumFlags.orAll (out.map Prod.snd)))
    let r := tree add ([], NumFlags.none) rows
    let out := (List.range (cCount d)).map fun n =>
      convertOut (jFmt d) (s.jobRound x.forme (cRmode d) (cTensor d) (t * cCount d + n)) (cSat d)
        (fp32Val (r.1.getD n 0))
    let s := s.colFlags x.chase (r.2.or (NumFlags.orAll (out.map Prod.snd)))
    let w := obytes (jFmt d)
    s.putPadded x.chase (cDst d + t * linesOf (cCount d * w)) ((out.map Prod.fst).flatMap (natLe w))

/-! ### Start and completion (R170 to R172, R188) -/

/-- A shard of a reduction's input as FP32 or A56 patterns (R191, R533). -/
def State.shardIn (s : State) (d i : Nat) : List Nat :=
  match Fmt.ofCode (jMode d) with
  | none => []
  | some f =>
    let n := elemBytes (jMode d) (cCount d)
    (f.unpack (cCount d) (s.readGal (jChase d) ((cSrc d + i * linesOf n) * 256) n)).map fun e =>
      if jMode d = 1 then convert .bf16 .fp32 e else e

/-- First lines of what must land before a collective job completes (R172, R196): every shard or block of its
output, the rows of its host slots, from whichever module they come, or the rows of its own assignments. -/
def State.awaited (s : State) (x : Job) (p : Plan) : List Nat :=
  let d := x.desc
  let n := p.ranks.length
  let out := linesOf (elemBytes (jFmt d) (cCount d))
  let rl := linesOf (elemBytes (jMode d) (cCount d))
  let h := hosted d n
  if jKind d = 2 then [cDst d]
  else if jKind d = 1 || jKind d = 3 || jKind d = 4 then (List.range n).map fun i => cDst d + i * out
  else if jKind d = 5 then
    ((s.placement x p).1.1.placed.filter fun y => y.expert / h = cRank d).map fun y =>
      slotLine d h (cDst d) rl y.expert y.slot
  else
    (List.range (cTokens d)).flatMap fun t => (List.range (cK d)).filterMap fun j =>
      if (s.mapEntry d t j).1 = 0xFFFF then none else some (stagedLine d rl t j)

/-- What a collective job does when it begins: reductions contribute their leaves, copies go out,
MOE_DISPATCH places and sends, MOE_COMBINE returns rows (R188, R200, R201). -/
def State.colBegin (s : State) (x : Job) : State :=
  match s.planOf x.forme x.desc with
  | none => s
  | some p =>
    let x := { x with awaits := s.awaited x p }
    let s := s.setJob x
    let d := x.desc
    let r := cRank d
    let n := elemBytes (jMode d) (cCount d)
    let m := linesOf n
    let shard (s : State) (i : Nat) : List Byte := s.readGal x.chase ((cSrc d + i * m) * 256) n
    if jKind d = 1 || jKind d = 2 then
      s.each (List.range p.ranks.length) fun s i =>
        match p.next s.identity i r (r + 1) false with
        | none => s
        | some dst =>
          if dst = (s.identity, x.chase) then
            match s.nodeJob x.forme d i x.chase with
            | some e => (s.ensureJob x.forme e.1).nodeArrive x.forme e.1 i r (r + 1) (s.shardIn d i)
            | none => s
          else s.sendNode x p i r (r + 1) (s.shardIn d i) dst
    else if jKind d = 3 then
      s.each (List.range p.ranks.length) fun s q =>
        s.sendLines x p q 2 (fun e => cDst e + r * m) (shard s r)
    else if jKind d = 4 then
      s.each (List.range p.ranks.length) fun s q =>
        s.sendLines x p q 2 (fun e => cDst e + r * m) (shard s q)
    else if jKind d = 5 then s.dispatch6 x p
    else s.combineHost x p

/-- Reservations that a job names in its own slice (R173). -/
def State.jobResvs (s : State) (x : Job) : List Resv :=
  (((s.stepResvs x.forme).drop (jResFirst x.desc)).take (jResCount x.desc)).filter fun r => r.slice = x.chase

/-- First galley cycle in which a job can move a line: the start of its first window, not before its own
start (R170, R173). -/
def State.jobWindow (s : State) (x : Job) : Nat :=
  let l := (s.jobResvs x).map Resv.start
  s.rd .hFormeRelCycle x.chase x.forme + max (jStart x.desc) (if l.isEmpty then 0 else minList l)

/-- A job begins: the slots of the step's other transfers before its first window have passed (R28, R146,
R170). -/
def State.beginJob (s : State) (f idx : Nat) : State :=
  match s.job f idx with
  | none => s
  | some x =>
    let s := s.slotsBefore f x.chase (s.jobWindow x)
    let x := { x with status := .running }
    let s := (s.setJob x).jobFields x.chase
    if x.col then (s.wr .colStatusJob x.chase 0 idx).colBegin x else s.wr .cmpStatusJob x.chase 0 idx

/-- Galley cycle of its slice at which a job starts (R170). -/
def State.startCycle (s : State) (x : Job) : Nat := s.rd .hFormeRelCycle x.chase x.forme + jStart x.desc

/-- Job a begins before job b: the earlier start, then job-table order (R170). -/
def State.goesFirst (s : State) (a b : Job) : Bool :=
  s.startCycle a < s.startCycle b || (s.startCycle a = s.startCycle b && a.idx ≤ b.idx)

/-- The waiting job of an engine that begins when it has room (R170, R171). -/
def State.nextWaiting (s : State) (c : Nat) (col : Bool) : Option Job :=
  let l := s.jobs.filter fun j => j.chase = c && j.col = col && j.status = .waiting
  l.find? fun a => l.all fun b => s.goesFirst a b

/-- Jobs that wait for an engine begin while it has room, n at most (R171). -/
def State.beginWaiting (s : State) (c : Nat) (col : Bool) : Nat → State
  | 0 => s
  | n + 1 =>
    if s.engineFull c col then s
    else
      match s.nextWaiting c col with
      | none => s
      | some y => (s.beginJob y.forme y.idx).beginWaiting c col n

/-- Jobs that wait begin on every engine that has room: the jobs of an abandoned edition have ended (R171,
R233). -/
def State.beginAllWaiting (s : State) : State :=
  s.each [0, 1, 2, 3] fun s c => (s.beginWaiting c false 1).beginWaiting c true 8

/-- A job that is due begins behind those that wait, or waits for its full engine, late (R170, R171). -/
def State.startJob (s : State) (f idx : Nat) : State :=
  let s := s.ensureJob f idx
  match s.job f idx with
  | none => s
  | some x =>
    if x.status != .idle then s
    else
      let s := s.beginWaiting x.chase x.col 8
      if s.engineFull x.chase x.col then
        let s := s.wr (if x.col then .colStatusLate else .cmpStatusLate) x.chase 0 1
        (s.wr .hFormeLateStep 0 f 1).setJob { x with status := .waiting }
      else s.beginJob f idx

/-- A job put in its place: by its start, then by its index (R170). -/
def insertDue (e : Nat × Nat) : List (Nat × Nat) → List (Nat × Nat)
  | [] => [e]
  | x :: l => if jStart x.2 ≤ jStart e.2 then x :: insertDue e l else e :: x :: l

/-- Jobs of the step on the engine of job x that start no later than x, x the last, in the order in which they
begin (R170). -/
def State.dueJobs (s : State) (f : Nat) (x : Job) : List Nat :=
  (((s.stepJobs f).filter fun e => jChase e.2 = x.chase && jCol e.2 = x.col &&
    (jStart e.2 < jStart x.desc || (jStart e.2 = jStart x.desc && e.1 ≤ x.idx))).foldl
      (fun l e => insertDue e l) []).map Prod.fst

/-- JOB_START: a job of the running step reaches its start cycle. It begins, after those of its engine that are
due before it, or waits for its full engine, late (R170, R171). Before its start nothing happens; a job that
waits begins once its engine has room. -/
def execJobStart (f job t : Nat) (s : State) : Res :=
  if f < 16 then
    let s := s.stamp t
    if s.on .hFormeStepRun 0 f then
      let s := s.ensureJob f job
      match s.job f job with
      | none => .next s
      | some x =>
        if s.rd .galCycleCycle x.chase 0 < s.startCycle x then .next s
        else .next ((s.each (s.dueJobs f x) fun s i => s.startJob f i).beginWaiting x.chase x.col 8)
    else .next s
  else .fault .noSuchUnit

/-- Every output of the job is there: a POOL or GATHER job has taken all its lookups, and what a collective
job awaits has landed (R172, R196). -/
def Job.formed (x : Job) : Bool :=
  if x.col then x.awaits.all fun l => x.landed.contains l else x.nextLookup = pTotal x.desc

/-- JOB_COMPLETE: the job's last output line is in the galley; its arrival goes to its barrier, and the
next job that waits begins (R171, R172). A collective engine keeps the values that it forms for other shards
(R190). -/
def execJobComplete (c eng job t : Nat) (s : State) : Res :=
  if c < 4 && eng < 2 then
    let s := s.stamp t
    match s.jobs.find? fun j => j.chase = c && j.col = (eng = 1) && j.idx = job && j.status = .running with
    | none => .next s
    | some x =>
      if x.formed then
        let s := if x.col && jKind x.desc = 6 then s.combineTokens x else s
        let s := (s.setJob { x with status := .done }).jobFields c
        let s := s.barrierArrive x.forme (jBarrier x.desc) (eng + 1) c
        .next (s.beginWaiting c (eng = 1) 8)
      else .next s
  else .fault .noSuchUnit

end Sys2Proof.Machine
end

