-- ==== Sys2Proof/Machine/Lasers.lean ====
section
/-!
DEFINITION. Swaps of lanes between lasers (R264 to R268), the laser source units (R262, R269 to R271),
and the laser safety shutdown (R274).
-/

namespace Sys2Proof.Machine

/-- The laser that port bank j of engine k takes wavelength w from (R262). -/
def State.carrier (s : State) (k j w : Nat) : Option Nat :=
  [laserIndex 0 k w, laserIndex 1 k w].find? fun n =>
    s.rd .lsuLaserLit 0 n = 3 && bit (s.rd .hLsuSel 0 n) j

/-- The end of a calibration of a lane: the spares that carried it come free, a change of mode takes effect,
and the lane is due no more unless the calibration was pre-empted (R253 to R256, R259). -/
def State.endCal (s : State) (k j lane : Nat) : State :=
  let mine := s.calJobs.filter fun c => c.engine = k && c.bank = j && c.lane = lane
  let s := { s with calJobs := s.calJobs.filter fun c =>
    !(decide (c.engine = k) && decide (c.bank = j) && decide (c.lane = lane)) }
  let s := s.each mine fun s c =>
    let s := s.calMode k c.fibre
    if c.aborted || c.result.isNone then s
    else (s.andNot .oeFibreStatusCalDue k (2 * c.fibre) lane).andNot .oeFibreStatusCalDue k (2 * c.fibre + 1) lane
  let give (s : State) (f : Nat) : State :=
    if (s.spareUse k f = suCal || s.spareUse k f = suMislock) && s.rd .oeFibreStatusSpareLane k f = lane
    then s.freeSpare k f
    else s
  give (give s (s.fib (portOf k j) lane 0)) (s.fib (portOf k j) lane 1)

/-- A spare that carried a lane for a swap, a mislock or a sudden loss comes free. -/
def State.giveBack (s : State) (k f lane : Nat) : State :=
  if 2 ≤ s.spareUse k f && s.spareUse k f ≤ 4 && s.rd .oeFibreStatusSpareLane k f = lane then
    s.freeSpare k f
  else s

/-! ### Swaps (R265) -/

/-- The swap of engine k whose lane is on its way. -/
def State.swapMoving (s : State) (k : Nat) : Option Swap := s.swaps.find? fun x => x.engine = k && x.moving

/-- One swap replaced. -/
def State.setSwap (s : State) (x y : Swap) : State :=
  { s with swaps := s.swaps.map fun z => if z = x then y else z }

/-- The swap's laser is READY, and where it moves LS, LS stands in for no lane (R264, R265). -/
def State.swapCan (s : State) (x : Swap) : Bool :=
  2 ≤ s.rd .lsuLaserLit 0 x.dst &&
    (x.lane != 8 ||
      match x.banks with
      | [] => true
      | j :: _ => s.spareUse x.engine (2 * j) = suFree || s.spareUse x.engine (2 * j) = suUnavailable)

/-- The state of unit u set. -/
def State.setUnit (s : State) (u st : Nat) : State :=
  s.wr (if u = 0 then .lsuStatusState else .lsuStatusStateB) 0 0 st

/-- The bolt of unit u. -/
def State.setBolt (s : State) (u b : Nat) : State :=
  s.wr (if u = 0 then .lsuStatusBolted else .lsuStatusBoltedB) 0 0 b

/-- Every laser of unit u is unbiased. -/
def State.darkUnit (s : State) (u : Nat) : State :=
  s.each (List.range 80) fun s i => s.light (80 * u + i) 0 0

/-- A unit that drains is DRAINED when none of its lasers carries a lane (R270); one that restores is
READY when none of its lanes has still to move (R271). -/
def State.unitSettle (s : State) (u : Nat) : State :=
  if s.unitState u = 4 && (List.range 80).all fun i => s.rd .lsuLaserLit 0 (80 * u + i) != 3 then
    ((s.darkUnit u).setUnit u 5).setBolt u 0
  else if s.unitState u = 2 && !(s.swaps.any fun x => x.dst / 80 = u) then s.setUnit u 3
  else s

/-- A swap has moved its last bank: a laser in SWAP is unbiased and RETIRED (R264), a twin that gave its
lanes back goes dark, LC's excepted (R267, R271). -/
def State.endSwap (s : State) (x : Swap) : State :=
  let s := { s with swaps := s.swaps.filter fun z => z != x }
  let s := if s.rd .lsuLaserStage 0 x.src = 3 then (s.light x.src 0 0).wr .lsuLaserStage 0 x.src 4
    else if s.on .lsuLaserRole 0 x.src && x.lane != 9 && s.rd .lsuLaserLit 0 x.src = 2 then
      s.light x.src 0 0
    else s
  let s := ((s.unitSettle 0).unitSettle 1).covers
  if s.swaps.any fun z => z.engine = x.engine then s
  else s.each (List.range 4) fun s j => s.tryCal x.engine j

/-- State of a ring's loop: the HOLD of a switched selector ends after its 200 ticks (R265). -/
def State.ringState (s : State) (k r : Nat) : Nat :=
  let e := s.rd .hOeHoldEnd k r
  if s.rd .oeRingState k r = 3 && e != 0 && e ≤ s.now then 2 else s.rd .oeRingState k r

/-- A ring loop is put in HOLD until a stamp, 0 for a HOLD without such an end, unless it is parked or sweeps
(R265, R276). -/
def State.holdRing (s : State) (k r e : Nat) : State :=
  if 2 ≤ s.rd .oeRingState k r then (s.wr .oeRingState k r 3).wr .hOeHoldEnd k r e else s

/-- The HOLD of a ring loop ends (R265, R276). -/
def State.unholdRing (s : State) (k r : Nat) : State :=
  if s.rd .oeRingState k r = 3 then (s.wr .oeRingState k r 2).wr .hOeHoldEnd k r 0 else s

/-- Bank j of a swap's lane takes the new laser, its ring loop in HOLD for 200 ticks, and waits for the
retrain (R265). -/
def State.swapSource (s : State) (x : Swap) (j : Nat) : State :=
  ((s.moveBank x.src x.dst j).holdRing x.engine (ringOf j 0 x.lane) (s.now + 200)).setSwap x
    { x with moving := true }

/-- The first bank of a swap is done. -/
def State.swapDone (s : State) (x : Swap) : State :=
  s.setSwap x { x with banks := x.banks.drop 1, moving := false }

/-- One bank of a swap whose turn has come (R265, R267, R268): LC and LS switch directly, and so does a
lane that carries no traffic, of a link that is not open, outside data_mask or retired; a lane that is on its spare already, or out of the link, switches and
retrains; a lane that finds its spare retired or unavailable leaves the link; else it asks for its
spare. -/
def State.swapBank (s : State) (x : Swap) (j : Nat) : State :=
  let k := x.engine
  let n := portOf k j
  let f := s.fib n x.lane 0
  let use := s.spareUse k f
  if x.lane = 9 || !s.linkOpen n || !s.laneLit n x.lane then (s.moveBank x.src x.dst j).swapDone x
  else if x.lane = 8 then
    let s := (s.moveBank x.src x.dst j).swapDone x
    if use = suUnavailable && !s.spareGone k f then s.freeSpare k f else s
  else if s.rd .oeFibreStatusSpareLane k f = x.lane && use = suRetired then
    (s.moveBank x.src x.dst j).swapDone x
  else if (s.rd .oeFibreStatusSpareLane k f = x.lane && use = suSudden) || !s.txMember n x.lane then
    s.swapSource x j
  else if use = suRetired || use = suUnavailable then (s.mark n [(x.lane, false)]).swapSource x j
  else (s.setSwap x { x with moving := true }).needSpare ⟨k, f, 2, x.lane⟩

/-- The swaps of engine k go on, one lane at a time, in port-bank order (R265). -/
def State.swapRun (s : State) (k : Nat) : Nat → State
  | 0 => s
  | n + 1 =>
    if (s.swapMoving k).isSome then s
    else
      match s.swaps.find? fun x => x.engine = k && s.swapCan x with
      | none => s
      | some x =>
        match x.banks with
        | [] => (s.endSwap x).swapRun k n
        | j :: _ => (s.swapBank x j).swapRun k n

/-- The swaps of engine k go on. -/
def State.swapNext (s : State) (k : Nat) : State := s.swapRun k (6 * s.swaps.length)

/-- The traffic of a lane of port n has moved, and if the lane is the one that a swap moves, its selector
switches (R265). -/
def State.switchSource (s : State) (n lane : Nat) : State :=
  let k := n / 4
  match s.swapMoving k with
  | some x =>
    if x.lane = lane && x.banks.head? = some (n % 4) && s.spareUse k (s.fib n lane 0) = suSwap &&
        s.rd .oeFibreStatusSpareLane k (s.fib n lane 0) = lane && s.carrier k (n % 4) lane = some x.src then
      s.swapSource x (n % 4)
    else s
  | none => s

/-- A lane of a swap is back: the swap goes on with the next bank (R265). -/
def State.swapBack (s : State) (k j lane : Nat) : State :=
  match s.swapMoving k with
  | some x => if x.lane = lane && x.banks.head? = some j then (s.swapDone x).swapNext k else s
  | none => s

/-- A spare came free: swaps that wait for LS, and calibrations, go on (R254, R265). -/
def State.afterSpare (s : State) (k j : Nat) : State := (s.swapNext k).tryCal k j

/-- Port banks as a list, from a mask. -/
def banksOf (mask : Nat) : List Nat := bitsSet mask 4

/-- The lanes of some banks of a laser are to move to its twin; sudden losses go first (R252, R265). -/
def State.addSwap (s : State) (src : Nat) (banks : List Nat) (sudden : Bool) : State :=
  let x : Swap := { engine := src % 80 / 10, lane := src % 10, src := src, dst := twinOf src,
                    banks := banks, moving := false }
  if s.swaps.any fun y => y.src = src && banks.all fun j => y.banks.contains j then s
  else { s with swaps := if sudden then x :: s.swaps else s.swaps ++ [x] }

/-- no_twin of the unit of laser n (R266). -/
def State.noTwin (s : State) (n : Nat) : State :=
  s.wr (if n / 80 = 0 then .lsuStatusNoTwin else .lsuStatusNoTwinB) 0 0 1

/-- Every lane that unit u sources is to move to its twin (R270, R271). -/
def State.moveAll (s : State) (u : Nat) (which : Nat → Bool) : State :=
  s.each (List.range 80) fun s i =>
    let n := 80 * u + i
    if s.rd .lsuLaserLit 0 n = 3 && which n then
      (s.warm (twinOf n)).addSwap n (banksOf (s.rd .hLsuSel 0 n)) false
    else s

/-- Every engine's swaps go on. -/
def State.swapAll (s : State) : State := s.each (List.range 8) State.swapNext

/-! ### Laser safety shutdown (R274) -/

/-- Every laser is unbiased, every ring parks, every fibre goes OFF, every link goes down, and the units
that are seated enter SHUTDOWN (R274). -/
def State.laserShutdown (s : State) (t : Nat) : State :=
  let s := (s.darkUnit 0).darkUnit 1
  let s := s.each (List.range 8) fun s k =>
    let s := s.parkRings k
    s.wr .oeStatusShutdown k 0 1
  let s := if s.on .lsuStatusPresent 0 0 then s.setUnit 0 6 else s
  let s := if s.on .lsuStatusPresentB 0 0 then s.setUnit 1 6 else s
  let s := s.each (List.range 32) fun s n => s.linkDown n 1 t
  let s := s.each (List.range 32) fun s n => s.wr .oeFibreStatusLevel (n / 4) (2 * (n % 4)) 0
  s.each (List.range 8) State.refreshEngine

/-- A laser safety shutdown is in force (R274). -/
def State.isShut (s : State) : Bool := s.anyOn .oeStatusShutdown 8 1

end Sys2Proof.Machine
end

