-- ==== Sys2Proof/Machine/Training.lean ====
section
/-!
DEFINITION. Lanes and training of link ends (R284 to R293, R316, R327), and the commands that bear on
them.
-/

namespace Sys2Proof.Machine

/-- An event at a link end, stamped t. -/
def State.atEnd (s : State) (n t : Nat) (run : State → State) : Res :=
  if n < linkEnds then .next (run (s.stamp t)) else .fault .noSuchUnit

/-- An event at a fabric port, stamped t. -/
def State.atPort (s : State) (n t : Nat) (run : State → State) : Res :=
  if n < 32 then .next (run (s.stamp t)) else .fault .noSuchUnit

/-- An event at a lane of a link end, stamped t. -/
def State.atLane (s : State) (n i t : Nat) (run : State → State) : Res :=
  if n < linkEnds && i < allLanes n then .next (run (s.stamp t)) else .fault .noSuchUnit

/-- Lanes that training lights: those of data_mask and LS (R288); on a die link all. -/
def State.litLanes (s : State) (n : Nat) : List Nat :=
  (List.range (allLanes n)).filter fun i =>
    s.lane n i != laneRetired &&
      (32 ≤ n || i = 8 || match s.portRec n with
        | some r => bit r.dataMask i
        | none => false)

/-- ALIGN is entered: lit lanes hunt (R288). -/
def State.toAlign (s : State) (n t : Nat) : State :=
  let s := s.each (s.litLanes n) fun s i => s.setLane n i laneHunt
  let s := s.setLink n { s.link n with since := t, train := Training.init }
  s.setEnd n lAlign

/-- A lane holds block lock. -/
def State.locked (s : State) (n i : Nat) : Bool := s.lane n i = laneLocked || s.lane n i = laneMember

/-- Enough lanes are locked for a link: link_min data lanes of a port (R288); the groups of the
narrowest width of a die link, which its revision limits once it is negotiated (R327, R328). -/
def State.enoughLocked (s : State) (n : Nat) : Bool :=
  if n < 32 then
    s.linkMin n ≤ ((List.range 8).filter fun i => s.locked n i).length
  else
    let l := dieLinkOf n
    let w := if s.dieRev l = 0 then 2 else s.dieNarrowest l
    widthGroups l w ≤ ((List.range (dieGroups n)).filter fun g => 16 ≤ s.readyLanes n g).length

/-- A member lane of a port hunts in a steering window (R276). -/
def State.steered (s : State) (n i : Nat) : Bool :=
  n < 32 && s.on .oeStatusSteering (n / 4) 0 && s.lane n i = laneHunt && bit (s.rd .lnkStatusRxMask n 0) i

/-- LANE_LOCK: a hunting lane is LOCKED (R284); a member that hunts in a steering window is one again
(R276). -/
def execLaneLock (n i t : Nat) (s : State) : Res :=
  s.atLane n i t fun s =>
    if s.steered n i then s.setLane n i laneMember
    else if s.lane n i = laneHunt || s.lane n i = laneRetrain then s.setLane n i laneLocked else s

/-- LOSS_OF_LOCK: a LOCKED lane outside the link hunts again (R284). -/
def execLossOfLock (n i t : Nat) (s : State) : Res :=
  s.atLane n i t fun s => if s.lane n i = laneLocked then s.setLane n i laneHunt else s

/-- A lane is retired in the receive direction (R314, R329): a port's fibre records it, and SPARE_IN tells the
peer, which puts LS in its place unless another retired lane holds it; of LS itself that the fibre has no spare
any more (log entry 91). -/
def State.retireRx (s : State) (n i : Nat) : State :=
  let s := s.setLane n i laneRetired
  if n < 32 then
    if i < 8 then
      let k := n / 4
      let f := s.fib n i 1
      let s := s.retireFibreLane k f i
      if s.spareUse k f = suRetired then s.laneReq n i 5 else s.needSpare ⟨k, f, 4, i⟩
    else (s.retireSpare (n / 4) (2 * (n % 4) + 1)).laneReq n 8 5
  else s.ddlCount n .ddlErrCountsRetires

/-- Stamps of a lane's block errors within 2^30 ticks, the new one first (R8, R314). -/
def State.laneErrors (s : State) (n i t : Nat) : List Nat :=
  t :: ((s.link n).errs.getD i []).filter fun x => t - x < 2 ^ 30

/-- A block error on a lane (R285, R313, R314, R319, R329): a member leaves at once and LANE_DROP goes out;
its third error in 2^30 ticks retires it; too few lanes take the link down. Outside the link a block error
counts only toward loss of lock. -/
def State.blockFault (s : State) (n i t : Nat) : State :=
  if s.lane n i = laneMember && s.linkOpen n then
    let e := s.laneErrors n i t
    let s := s.setLink n { s.link n with errs := (s.link n).errs.put i e }
    let s := (s.count n .lnkErrCountsBlockErrors).count n .lnkErrCountsLaneDrops
    let s := s.ddlCount n .ddlErrCountsBlockErrors
    let s := if n < 32 then s.wr .lnkLaneErrors n i (min 2 e.length) else s
    let s := ((s.setLane n i laneRetrain).laneMoved n i).markSeen n false i false
    let s := s.sendByp n 0x21 (if n < 32 then i * 2 ^ 7 else i) 0
    let s := if 3 ≤ e.length then s.retireRx n i else s
    if n < 32 then s.checkWidth n t else s.dieLaneLost n i t
  else s

/-- BLOCK_ERROR: block b of a lane, which followed `prev`, is in error by its parity, header or type (R281,
R282, R285). -/
def execBlockError (n i : Nat) (prev b : LaneBlock) (t : Nat) (s : State) : Res :=
  s.atLane n i t fun s => if blockErr prev b then s.blockFault n i t else s

/-- LC_LOST: a training attempt fails; a link that is up or retrains goes down (R286, R288, R319). -/
def execLcLost (n t : Nat) (s : State) : Res :=
  s.atPort n t fun s =>
    let s := s.wr .lnkStatusClockOk n 0 0
    if s.linkOpen n || (s.link n).retraining then s.linkDown n 3 t
    else if s.lState n = lAlign || s.lState n = lIdent then s.failAttempt n t
    else s

/-- LC_LOCK: CLOCK to ALIGN (R288), once the port is dark no more after a link-down (R320). -/
def execLcLock (n t : Nat) (s : State) : Res :=
  s.atPort n t fun s =>
    if s.lState n = lClock && !(s.link n).waiting && !s.darkNow n then (s.wr .lnkStatusClockOk n 0 1).toAlign n t else s

/-- ALIGN_COMPLETE: to IDENT when every lit lane is LOCKED, or 2^18 ticks have passed with enough of
them (R288). -/
def execAlignComplete (n t : Nat) (s : State) : Res :=
  s.atEnd n t fun s =>
    let st := s.endState n
    let all := (s.litLanes n).all fun i => s.locked n i
    if st = lAlign &&
        (all || (2 ^ 18 ≤ t - (s.link n).since && s.enoughLocked n)) then
      (s.setLink n { s.link n with since := t, train := Training.init }).setEnd n lIdent
    else s

/-! ### IDENT (R289 to R292) -/

/-- The identity that word 0 must carry: the port record's peer (R291, R351), or the chase number of
the other end (R327). -/
def State.identityOk (s : State) (n module port : Nat) : Bool :=
  if n < 32 then
    1 ≤ module && module < 0x400 && match s.portRec n with
      | some r => r.peer = module && r.peerPort = port
      | none => false
  else module = endChase (if (n - 32) % 2 = 0 then n + 1 else n - 1) && port = 0

/-- a lies strictly above b (R305). -/
def seqGt (a b : Nat) : Bool := a != b && seqGe a b

/-- Received word i of this IDENT. -/
def State.trainWord (s : State) (n i : Nat) : Nat := (s.link n).train.words.getD i 0

/-- A sequence gap of VC0 or VC2 shown by word i, at an IDENT that follows no link-down or takeover (R291). -/
def State.gap (s : State) (n i : Nat) : Bool :=
  let x := s.link n
  if x.gapOk then false
  else if i = 3 then seqGt (s.trainWord n 3) (s.rxExp n 0)
  else if i = 5 then seqGt (s.trainWord n 5) (s.rxExp n 2)
  else if i = 6 then seqGt (s.txNext n 0) (s.trainWord n 6)
  else if i = 8 then seqGt (s.txNext n 2) (s.trainWord n 8)
  else false

/-- MISMATCH is entered: training ends and no attempt counts (R291). -/
def State.mismatch (s : State) (n : Nat) : State :=
  let s := s.darkLanes n
  (s.setLink n { s.link n with retraining := false }).setEnd n lMismatch

/-- Word 2 returned: one of the first 16 round trips (R292). -/
def State.roundTrip (s : State) (n stamp : Nat) : State :=
  let x := s.link n
  if x.train.rtts.length < 16 then
    let d := (s.now % 2 ^ 48 + 2 ^ 48 - stamp % 2 ^ 48) % 2 ^ 48
    let l := x.train.rtts ++ [d]
    let s := s.setLink n { x with train := { x.train with rtts := l } }
    if n < 32 then
      let r := l.foldl max 0
      (s.wr .lnkPeerRtt n 0 (min (2 ^ 20 - 1) r)).wr .lnkPeerReplayTimer n 0
        (min (2 ^ 20 - 1) (max (2 * r + 4096) 8192))
    else s
  else s

/-- BARRIER tokens of every entry that changed in the last 2^18 ticks wait on a port (R357). -/
def State.repeatTokens (s : State) (n : Nat) : State :=
  s.each (s.tokens.filter fun e => e.1.1 = endChase n && s.now - e.2.changed < 2 ^ 18) fun s e =>
    s.sendByp n 0x10 (tokenArg e.1.2.1 e.1.2.2 e.2.nibble e.2.count) 0

/-- Port n carries the fabric forme's fabric traffic: of its port_set, and no pair-link port. -/
def State.fabricPort (s : State) (n : Nat) : Bool :=
  !s.isPairPort n && match s.fabricForme with
    | some f => bit f.portSet n
    | none => false

/-- EDITION waits on a port: the fabric forme's last committed edition (R359). -/
def State.sendEdition (s : State) (n : Nat) : State :=
  match s.fabricForme with
  | some f =>
    if s.fabricPort n && s.fState f.number != fNone then
      s.sendByp n 0x80 (s.rd .modFormeEditionEdition 0 f.number % 2 ^ 32) 0
    else s
  | none => s

/-- What a port sends on entry to UP (R357, R359, R374). -/
def State.onUp (s : State) (n : Nat) : State :=
  if n < 32 then
    let s := if s.fabricPort n then (s.repeatTokens n).sendEdition n else s
    if s.isPairPort n then (s.sendHello n).mirrorBack.refreshPair else s
  else s

/-- Numbers and credits at entry to UP (R291, R295, R321): kept by a port retrain, and a channel that a
replay has set back keeps its base (R309). -/
def State.restart (s : State) (n : Nat) : State :=
  let x := s.link n
  if x.retraining then s
  else
    let w := s.trainWord n 9
    let s := ((s.setCredit n 0 (bitsAt w 32 16)).setCredit n 1 (bitsAt w 16 16)).setCredit n 2
      (bitsAt w 0 16)
    let s := s.setTxNext n 1 (s.trainWord n 7)
    let s := if x.gapOk && (x.rewinds.get? 0).isNone then s.setTxNext n 0 (s.trainWord n 6) else s
    let s := if x.gapOk && (x.rewinds.get? 2).isNone then s.setTxNext n 2 (s.trainWord n 8) else s
    s.setLink n { s.link n with freed := [], taken := [] }

/-- The groups of a die-link receiver that come up with fewer than 16 lanes LOCKED in their places are short of them
(R330). -/
def State.shortGroups (s : State) (n : Nat) : State :=
  s.setLink n { s.link n with short := (List.range (dieGroups n)).filter fun g => s.readyLanes n g < 16 }

/-- A die link whose two receivers note their short groups. -/
def State.shortEnds (s : State) (l : Nat) : State := (s.shortGroups (dieEnd l 0)).shortGroups (dieEnd l 1)

/-- Members at entry to UP: the lanes that the peer reported locked in word 0, and those that this end did; a
lane that lost its lock since is one until a block error shows it (R289). -/
def State.takeMembers (s : State) (n : Nat) : State :=
  if n < 32 then
    let told := (s.link n).train.reported
    let s := s.each (List.range 8) fun s i =>
      if bit told i && s.lane n i != laneRetired then s.setLane n i laneMember
      else if s.lane n i = laneHunt then s.setLane n i laneRetrain
      else s
    let s := if s.lane n 8 = laneMember then s.setLane n 8 laneLocked
      else s.andNot .lnkStatusRxMask n 0 8
    s.wr .lnkStatusTxMask n 0 (bitsAt (s.trainWord n 0) 18 8)
  else
    let l := dieLinkOf n
    let m := otherEnd n
    let s := s.shortEnds l
    let w := s.fillWidth l
    let mask := s.groupMask l (w.getD 0)
    let s := s.each ((List.range (allLanes n)).filter fun i => bit mask (laneGroup n i) && s.placed n i) fun s i =>
      if s.lane n i = laneLocked then s.setLane n i laneMember
      else if s.lane n i = laneHunt then s.setLane n i laneRetrain
      else s
    let outs := (List.range (allLanes n)).filter fun i =>
      bit mask (laneGroup n i) && s.placed m i && s.locked m i
    let s := s.setLink n { s.link n with txLanes := outs }
    (s.ddlWr l .ddlStatusWidth (w.getD 3)).groupFields l

/-- The need for a port retrain is met: its request is open no more (R311, R316). -/
def Link.retrained (x : Link) : Link :=
  { x with
    request := match x.request with
      | some r => if r.kind = 0x40 then none else some r
      | none => none
    again := x.again.filter fun e => e.1 != 0x40 }

/-- UP is entered (R289). -/
def State.enterUp (s : State) (n t : Nat) : State :=
  let s := (s.takeMembers n).restart n
  let x := if (s.link n).retraining then (s.link n).retrained else s.link n
  let s := (s.setLink n { x with tries := 0, retraining := false, gapOk := false, since := t,
                                 stopped := [] }).issueNext n
  let s := if n < 32 then s.wr .lnkStatusAttempts n 0 0 else s
  let s := (s.setEnd n lUp).onUp n
  if n < 32 then ((s.upSpares n).swapNext (n / 4)).each (List.range 4) fun s g => s.tryCal (n / 4) g else s

/-- Both directions would have link_min members (R289); a die link would run at a width that its revision and its
min_width allow (R327, R328, R336). -/
def State.upWidthOk (s : State) (n : Nat) : Bool :=
  if n < 32 then
    s.linkMin n ≤ popCount (bitsAt (s.trainWord n 0) 18 8) 8 &&
      s.linkMin n ≤ popCount (s.link n).train.reported 8
  else ((s.shortEnds (dieLinkOf n)).fillWidth (dieLinkOf n)).isSome

/-- The words that IDENT needs were received in it: TRAIN words 0 to 9, and on a die link word 10 (R288, R327). -/
def Training.full (x : Training) (n : Nat) : Bool :=
  (List.range (if n < 32 then 10 else 11)).all fun i => (x.words.get? i).isSome

/-- A word of IDENT taken: identity, gaps, round trip, credits, revision, peer_ok and final (R288 to R292,
R327). -/
def State.ident (s : State) (n : Nat) (w : TrainWord) : State :=
  let x := s.link n
  let s := s.setLink n { x with train := { x.train with words := x.train.words.put w.index w.word } }
  let md := bitsAt w.word 32 16
  let pt := bitsAt w.word 27 5
  let s := if w.index = 0 && n < 32 then (s.wr .lnkPeerModule n 0 md).wr .lnkPeerPort n 0 pt else s
  if w.index = 0 && !s.identityOk n md pt then s.mismatch n
  else if s.gap n w.index then s.mismatch n
  else
    let s := if w.index = 2 then s.roundTrip n w.word else s
    let s := if w.index = 10 && 32 ≤ n then
      s.ddlWr (dieLinkOf n) .ddlStatusRev (min (bitsAt w.word 44 4)
        (if dieLinkOf n < 4 || (n - 32) % 2 = 0 then s.rd .chsCapabilityDdlRev (endChase n) 0
         else s.rd .oeCapabilityDdlRev (dieLinkOf n - 4) 0)) else s
    let x := s.link n
    s.setLink n { x with train := { x.train with
      peerOk := x.train.full n
      final := x.train.final || bit (x.train.words.getD 0 0) 17
      gotFinal := x.train.gotFinal || bit (x.train.words.getD 0 0) 16 } }

/-- Word 0 with final was sent and received, and both directions have their members (R288, R289). -/
def State.upReady (s : State) (n : Nat) : Bool :=
  let x := (s.link n).train
  s.endState n = lIdent && x.sentFinal && x.gotFinal && x.peerOk && s.upWidthOk n

/-- Lanes that word 0 reports LOCKED: bit i for Li, bit 8 for LS (R290). -/
def State.lockMask (s : State) (n : Nat) : Nat :=
  (((List.range 9).filter fun i => s.locked n i).map (2 ^ ·)).sum

/-- TRAIN word i of a link end as it is now (R290, R327). -/
def State.wordOut (s : State) (n i : Nat) : Nat :=
  let x := (s.link n).train
  if i = 0 then
    (if n < 32 then s.identity * 2 ^ 32 + n * 2 ^ 27 else endChase n * 2 ^ 32) + s.lockMask n * 2 ^ 18 +
      x.peerOk.toNat * 2 ^ 17 + x.final.toNat * 2 ^ 16
  else if i = 1 then s.now % 2 ^ 48
  else if i = 2 then (s.link n).peerStamp
  else if i ≤ 5 then s.txNext n (i - 3)
  else if i ≤ 8 then s.rxExp n (i - 6)
  else if i = 9 then grant n 0 * 2 ^ 32 + grant n 1 * 2 ^ 16 + grant n 2
  else if i = 10 && 32 ≤ n then
    (if dieLinkOf n < 4 || (n - 32) % 2 = 0 then s.rd .chsCapabilityDdlRev (endChase n) 0
     else s.rd .oeCapabilityDdlRev (dieLinkOf n - 4) 0) * 2 ^ 44
  else 0

/-- A lane sends its next TRAIN word (R288, R290). -/
def State.sendTrain (s : State) (n lane : Nat) : State :=
  let i := s.rd .hLnkTrainIdx n lane
  let w : TrainWord := ⟨i, s.endState n, s.wordOut n i⟩
  let x := s.link n
  let s := if i = 0 then
    s.setLink n { x with train := { x.train with
      reported := s.lockMask n
      sentFinal := x.train.sentFinal || (x.train.final && decide (s.endState n = lIdent)) } }
    else s
  ((s.wr .hLnkTrainIdx n lane (i + 1)).emit n lane [trainRaw w]).send (.trainBlock n lane w)

/-- TRAIN: a training word received; word 1 is kept for word 2 in ALIGN and IDENT, and the words of IDENT count
(R288, R290 to R292). -/
def execTrain (n : Nat) (w : TrainWord) (t : Nat) (s : State) : Res :=
  s.atEnd n t fun s =>
    let st := s.endState n
    let s := if (st = lAlign || st = lIdent) && w.index = 1 then s.setLink n { s.link n with peerStamp := w.word }
      else s
    if st = lIdent && w.index < 16 then s.ident n w else s

/-- TRAINING_TIMEOUT: the attempt fails once the time of its state is over (R6, R288, R316). -/
def execTrainingTimeout (n t : Nat) (s : State) : Res :=
  s.atEnd n t fun s =>
    let st := s.endState n
    if trainTimeout st ≤ t - (s.link n).since &&
        (((st = lClock || st = lAlign || st = lIdent) && !(s.link n).waiting) ||
          (st = lRetrain && (s.link n).retraining)) then s.failAttempt n t else s

/-- TRAINING_RETRY: 2^16 ticks after a failed attempt the next begins in CLOCK (R288); on a die link in ALIGN
(R327). -/
def execTrainingRetry (n t : Nat) (s : State) : Res :=
  s.atEnd n t fun s =>
    if s.endState n = lClock && (s.link n).waiting && 2 ^ 16 ≤ t - (s.link n).since then
      let s := s.setLink n { s.link n with waiting := false, since := t }
      if n < 32 then s else s.toAlign n t
    else s

/-- POLL: an ABSENT port sends LC and L0 at normal power (R293). A port under a loopback test waits (R448). -/
def execPoll (n t : Nat) (s : State) : Res :=
  s.atPort n t fun s =>
    if s.lState n = lAbsent && !s.on .oeStatusShutdown (n / 4) 0 &&
        !(s.on .prfLoopbackBusy 0 0 && s.rd .prfLoopbackPort 0 0 = n) then
      s.wr .oeFibreStatusLevel (n / 4) (2 * (n % 4)) 2
    else s

/-- POLL_END: the poll ends (R293). -/
def execPollEnd (n t : Nat) (s : State) : Res :=
  s.atPort n t fun s =>
    if s.lState n = lAbsent && s.rd .oeFibreStatusLevel (n / 4) (2 * (n % 4)) = 2 then
      s.wr .oeFibreStatusLevel (n / 4) (2 * (n % 4)) 1
    else s

/-- PEER_LC_DETECTED: an ABSENT port begins training (R287, R293). -/
def execPeerLcDetected (n t : Nat) (s : State) : Res :=
  s.atPort n t fun s =>
    if s.lState n = lAbsent then
      let a := s.rd .lnkStatusAttempts n 0
      (s.toClock n t).wr .lnkStatusAttempts n 0 a
    else s

/-- CLEAR_MISMATCH: a port leaves MISMATCH and starts a new attempt (R291). -/
def execClearMismatch (n t : Nat) (s : State) : Res :=
  s.atPort n t fun s => if s.lState n = lMismatch then s.toClock n t else s

/-- A port retrain begins: frames, numbers, credits and the clock are kept, and each lane stops at its next
boundary, after the MARKs and bypass messages that wait there (R316). -/
def State.beginRetrain (s : State) (n t : Nat) : State :=
  (s.setLink n { s.link n with retraining := true, since := t, stopped := [] }).setPort n lRetrain

/-- RETRAIN: an UP port asks its peer and enters RETRAIN (R316). -/
def execRetrain (n t : Nat) (s : State) : Res :=
  s.atPort n t fun s =>
    if s.lState n = lUp then (s.issueFirst n 0x40 (s.endIdentity n * 2 ^ 11)).beginRetrain n t else s

end Sys2Proof.Machine
end

