-- ==== Sys2Proof/Machine/Links.lean ====
section
/-!
DEFINITION. Frames, bypass messages and lane membership of link ends (R294 to R318), and the commands
that bear on them.
-/

namespace Sys2Proof.Machine

/-! ### Transmission (R283, R296, R305) -/

/-- A bypass message starts on a lane; it carries the three acknowledgements of the moment (R299,
R306). The MARKs that wait behind an acknowledgement follow it (R311). -/
def State.startByp (s : State) (n lane : Nat) (m : BypMsg) : State :=
  let s := if m.kind = 0x22 || m.kind = 0x31 then s.setLink n ((s.link n).acked m.reqno) else s
  (s.emit n lane (bypBlocks m.kind m.arg m.reqno (s.ackOf n 0) (s.ackOf n 1) (s.ackOf n 2))).send
    (.byp n lane m.kind m.arg m.reqno (s.ackOf n 0) (s.ackOf n 1) (s.ackOf n 2))

/-- A frame started takes its place in the window of the last 256 frames (R296). -/
def State.noteStart (s : State) (n v : Nat) : State :=
  s.setLink n { s.link n with started := (v :: (s.link n).started).take 256 }

/-- A REWIND governs the frame with number q of a channel (R301, R309). -/
def Link.governed (x : Link) (v q : Nat) : Bool :=
  match x.rewinds.get? v with
  | some base => seqGe q base
  | none => false

/-- REWIND goes before each frame that it governs (R301, R309). -/
def State.rewindFirst (s : State) (n lane : Nat) (f : LFrame) : State :=
  if (s.link n).governed f.vc f.seq then
    s.startByp n lane ⟨0x50, f.vc * 2 ^ 28 + f.seq / 2 ^ 20 % 2 ^ 28, 0⟩
  else s

/-- A frame starts on a lane (R294). -/
def State.startFrame (s : State) (n lane : Nat) (f : LFrame) (again : Bool) : State :=
  let s := (s.rewindFirst n lane f).noteStart n f.vc
  let s := s.emit n lane
    (frameBlocks f.vc f.seq (s.ackOf n f.vc) f.payload.length f.first again f.payload)
  s.send (.frame n lane f.vc (f.seq % 2 ^ 20) (s.ackOf n f.vc) f.first again f.payload)

/-- One resend: the replay timer's needs no credit; a fetched frame spends one (R303, R307, R362). No VC2 frame is sent
while the pair does not agree (R375). -/
def State.canResend (s : State) (n : Nat) (e : LFrame × Bool) : Bool :=
  (e.2 || 0 < s.credit n e.1.vc) && (32 ≤ n || e.1.vc != 2 || s.pairAgrees)

/-- The oldest frame that can be sent again (R296). -/
def State.oldestResend (s : State) (n : Nat) : List (LFrame × Bool) → Option (LFrame × Bool)
  | [] => none
  | e :: l =>
    match s.oldestResend n l with
    | none => if s.canResend n e then some e else none
    | some b => if s.canResend n e && seqGe b.1.seq e.1.seq then some e else some b

/-- A resend starts (R296, R303, R307). -/
def State.startResend (s : State) (n lane : Nat) (e : LFrame × Bool) : State :=
  let x := s.link n
  let s := s.setLink n { x with
    resendQ := x.resendQ.erase e
    unacked := if x.unacked.contains e.1 then x.unacked else x.unacked ++ [e.1] }
  let s := if e.2 then (s.count n .lnkErrCountsResends).ddlCount n .ddlErrCountsResends
    else s.setCredit n e.1.vc (s.credit n e.1.vc - 1)
  (s.startFrame n lane e.1 e.2).settleLink n

/-- Fabric ports quiesce (R366). -/
def State.quiescing (s : State) : Bool := s.rd .fabStatusState 0 0 = 3 || s.rd .fabStatusState 0 0 = 4

/-- mirror_share of the forme that a VC2 frame belongs to (R208). -/
def State.mirrorShare (s : State) (f : Nat) : Nat := ((s.forme f).map Forme.mirrorShare).getD 0

/-- A new frame can start: credit, room in its space, no quiesce, room to spill, and VC2's share between members that
agree (R168, R296, R303, R305, R366, R375). -/
def State.canStart (s : State) (n : Nat) (f : LFrame) : Bool :=
  let x := s.link n
  0 < s.credit n f.vc && (x.unacked.filter fun y => y.vc = f.vc).length < unackedLimit n f.vc &&
    (f.vc = 1 || 32 ≤ n || (!s.quiescing && !s.spillFull n)) &&
    (f.vc != 2 || 32 ≤ n || (s.pairAgrees && (x.started.filter fun v => v = 2).length < s.mirrorShare f.forme))

/-- The next new frame of a channel that can start. -/
def State.nextNew (s : State) (n v : Nat) : Option LFrame :=
  match (s.link n).newQ.find? fun f => f.vc = v with
  | some f => if s.canStart n f then some f else none
  | none => none

/-- A new frame starts: it takes tx_next, spends a credit, and is kept until acknowledged; VC0 frames
of a port are retained (R303, R305, R361). -/
def State.startNew (s : State) (n lane : Nat) (f : LFrame) : State :=
  let q := s.txNext n f.vc
  let g := { f with seq := q }
  let x := s.link n
  let keep := n < 32 && f.vc = 0
  let s := s.setLink n { x with
    newQ := x.newQ.erase f
    unacked := x.unacked ++ [g]
    retained := if keep then (x.retained.filter fun y => !decide (y.seq = q)) ++ [g] else x.retained
    heldOrder := (x.heldOrder.filter fun e => e != (f.vc, q)) ++ [(f.vc, q)] }
  let s := (s.setTxNext n f.vc (q + 1)).setCredit n f.vc (s.credit n f.vc - 1)
  (s.startFrame n lane g false).settleLink n

/-- Order in which new frames start (R296, R324). -/
def newOrder (n : Nat) : List Nat := if n < 32 then [0, 2, 1] else [0, 1]

/-- The first new frame that is ready. -/
def State.readyNew (s : State) (n : Nat) : Option LFrame := (newOrder n).findSome? fun v => s.nextNew n v

/-- The frame that would start next on a link end is one that a REWIND governs (R296, R301). -/
def State.rewindNext (s : State) (n : Nat) : Bool :=
  let x := s.link n
  match s.oldestResend n x.resendQ with
  | some e => x.governed e.1.vc e.1.seq
  | none =>
    match s.readyNew n with
    | some f => x.governed f.vc (s.txNext n f.vc)
    | none => false

/-- Bypass messages that a lane may start in a row: four, of which a REWIND before the next frame is one
(R296, R301). -/
def State.bypRoom (s : State) (n lane : Nat) : Nat := 4 - b2n (s.rewindNext n) - s.rd .hLnkBypRun n lane

/-- Bypass messages are ready on a lane: fewer than four went before them with nothing between (R296). -/
def State.bypReady (s : State) (n lane : Nat) : Bool := !(s.link n).bypQ.isEmpty && decide (0 < s.bypRoom n lane)

/-- Bypass messages start, up to four in a row (R296). -/
def State.startBypasses (s : State) (n lane : Nat) : State :=
  let x := s.link n
  let k := min x.bypQ.length (s.bypRoom n lane)
  let s := s.wr .hLnkBypRun n lane (s.rd .hLnkBypRun n lane + k)
  (s.setLink n { x with bypQ := x.bypQ.drop k }).each (x.bypQ.take k) fun s m => s.startByp n lane m

/-- An IDLE block starts (R282). -/
def State.startIdle (s : State) (n lane : Nat) : State := (s.emit n lane [idleRaw]).send (.idleBlock n lane)

/-- LS stands in for a lane that has left the link, in the direction of port n that d names: 0 transmit, 1
receive (R252). -/
def State.lsStands (s : State) (n d : Nat) : Bool :=
  let f := 2 * (n % 4) + d
  let w := s.rd .oeFibreStatusSpareLane (n / 4) f
  1 ≤ s.spareUse (n / 4) f && s.spareUse (n / 4) f ≤ suRetired && w < 8 &&
    !(if d = 0 then s.txMember n w else s.rxMember n w)

/-- A lane outside the link carries TRAIN while it is lit, LS IDLE while it stands in for no lane (R282,
R313). -/
def State.startOutside (s : State) (n lane : Nat) : State :=
  if n < 32 && lane = 8 && !s.lsStands n 0 then s.startIdle n lane
  else if s.laneLit n lane then s.sendTrain n lane
  else s

/-- A MARK for the lane that can be sent: a LEAVE waits for the JOINs before it (R310, R311). -/
def markReady : List (Nat × Bool) → Nat → Option (Nat × Bool)
  | [], _ => none
  | m :: l, lane =>
    if m.1 = lane then some m
    else if m.2 then (l.find? fun x => x.1 = lane && x.2)
    else markReady l lane

/-- A MARK is sent; transmit membership changes with it (R310, R319). -/
def State.sendMark (s : State) (n : Nat) (m : Nat × Bool) (t : Nat) : State :=
  let x := s.link n
  let s := s.setLink n { x with marks := x.marks.erase m }
  let s := ((s.setTx n m.1 m.2).emit n m.1 [markBlock m.2]).send (.mark n m.1 m.2)
  let s := if m.2 || 32 ≤ n then s else (s.laneMoved n m.1).switchSource n m.1
  (s.markSeen n true m.1 m.2).checkWidth n t

/-- Band whose emphasis table the drivers of a link end use: the engine's, or the higher of a die link's two
dies (R247, R423). -/
def State.driverBand (s : State) (n : Nat) : Nat :=
  if n < 32 then s.rd .oeStatusBand (n / 4) 0
  else
    let l := dieLinkOf n
    if l < 4 then max (s.rd .thmDomainBand 0 (12 + l)) (s.rd .thmDomainBand 0 (12 + (l + 1) % 4))
    else max (s.rd .thmDomainBand 0 (12 + (l - 4) / 2)) (s.rd .thmDomainBand 0 (32 + (l - 4)))

/-- The first that is ready starts on a member lane, bypass messages apart (R296, R324). A frame that needs a
REWIND before it is not ready where four bypass messages have just gone. -/
def State.startOne (s : State) (n lane : Nat) : State :=
  let full := s.rewindNext n && 4 ≤ s.rd .hLnkBypRun n lane
  let s := s.wr .hLnkBypRun n lane 0
  if full then s.startIdle n lane
  else match s.oldestResend n (s.link n).resendQ with
  | some e => s.startResend n lane e
  | none =>
    match s.readyNew n with
    | some f => s.startNew n lane f
    | none => s.startIdle n lane

/-- A lane reaches its boundary in RETRAIN: it stops, and ALIGN begins once every member has (R316). -/
def State.stopLane (s : State) (n lane t : Nat) : State :=
  let x := s.link n
  let done := if x.stopped.contains lane then x.stopped else x.stopped ++ [lane]
  let s := (s.setLink n { x with stopped := done }).startOutside n lane
  if (List.range (allLanes n)).all fun i => !s.txMember n i || done.contains i then s.toAlign n t else s

/-- TRANSMIT_START: at the lane's frame boundary the first that is ready starts: a MARK of the lane; then
bypass messages, a resend, a new frame, IDLE (R283, R296, R310, R324). A lane outside the link carries TRAIN
blocks or, on LS, IDLE (R282). In ALIGN and IDENT every lit lane sends its TRAIN words in turn, and UP is
entered at the boundary after the exchange of final (R288). In RETRAIN the lane stops (R316); a port whose
slots change starts nothing in a steering window (R276). At the boundary the lane's driver changes to the
emphasis table of the band in force (R247, R423). A port that a link-down darkened sends nothing (R320). -/
def execTransmitStart (n lane t : Nat) (s : State) : Res :=
  s.atLane n lane t fun s =>
    let s := s.wr .hLnkEmph n lane (s.driverBand n)
    let s := if s.upReady n then s.enterUp n t else s
    if s.steerHeld n || s.darkNow n then s
    else if s.endState n = lRetrain then
      match markReady (s.link n).marks lane with
      | some m => s.sendMark n m t
      | none => if s.txMember n lane && s.bypReady n lane then s.startBypasses n lane else s.stopLane n lane t
    else if s.endState n = lUp then
      match markReady (s.link n).marks lane with
      | some m => s.sendMark n m t
      | none =>
        if !s.txMember n lane then s.startOutside n lane
        else if s.bypReady n lane then s.startBypasses n lane
        else s.startOne n lane
    else if (s.endState n = lAlign || s.endState n = lIdent) && s.laneLit n lane then s.sendTrain n lane
    else s

/-! ### Reception of frames (R294, R297, R303 to R309) -/

/-- A buffer freed, counted since UP (R303). -/
def State.freeBuffer (s : State) (n v : Nat) : State :=
  let x := s.link n
  s.setLink n { x with freed := x.freed.put v ((x.freed.getD v 0 + 1) % 2 ^ 16) }

/-- Forme f is between its abandonment and the release of its replay: it stops, is parked with the replay to come,
or replays and has not released the edition's first step (R234, R240, R325). -/
def State.betweenReplay (s : State) (f : Nat) : Bool :=
  s.fState f = fAbandoning || (s.fState f = fParked && s.on .hFormeParkReplay 0 f) ||
    (s.fState f = fRunning && s.on .modFormeStatusReplay 0 f && s.rd .hFormeNextQ 0 f = s.rd .hFormeEdQ 0 f)

/-- A node value of job `idx` on chase c is one of a forme that is between its abandonment and its replay's release:
no running step has the job, and the last step of such a forme had it (R297, R325). -/
def State.lateValue (s : State) (c idx : Nat) : Bool :=
  (s.formeOfJob c idx).isNone && s.formeNums.any fun f => s.betweenReplay f &&
    match s.jobDesc f idx with
    | some d => jCol d && jChase d = c
    | none => false

/-- The transfer to relay that a whole transfer received at a link end is (R24). -/
def State.relayOf (s : State) (n : Nat) (bs : List Byte) : Option Relay :=
  if n < 32 then none else s.relays.find? fun r => !r.sent && r.src = otherEnd n && r.head = bs.take 16

/-- A transfer reaches its relaying chase: it is placed in that chase's slice, in lines of the reservation that it
entered by, and goes on from there by its second link; one of an edition that was abandoned goes no further (R24,
R30, R193, R325; log entry 81). -/
def State.relayOn (s : State) (n : Nat) (r : Relay) (bs : List Byte) : State :=
  if r.live then
    let s := { s with relays := s.relays.map fun x => if x = r then { x with sent := true } else x }
    let c := endChase n
    let data := (bs.drop 16).take (leAt bs 8 4)
    match r.place with
    | some l =>
      let s := s.writeGal c (l * 256) data
      s.queueFrames r.next c r.forme (bs.take 16 ++ s.readGal c (l * 256) data.length)
    | none => s.queueFrames r.next c r.forme bs
  else { s with relays := s.relays.erase r }

/-- A whole VC0 transfer enters the slice of its chase (R297): galley lines and MoE rows are written and land in their
job; node values are handed to the chase's collective engine (log entry 17). -/
def State.enterSlice (s : State) (n : Nat) (bs : List Byte) : State :=
  let c := leAt bs 2 1 % 4
  let kind := leAt bs 3 1
  let line := leAt bs 4 4
  let data := (bs.drop 16).take (leAt bs 8 4)
  let lines := line % 2 ^ 21
  let s := if kind = 1 || kind = 2 then
    (let s := if lines * 256 + data.length ≤ galLines * 256 then s.writeGal c (lines * 256) data else s
     match s.formeOfJob c (leAt bs 0 2) with
     | some f => s.land f (leAt bs 0 2) lines
     | none => s) else s
  if kind = 0 || kind = 1 then
    s.send (.transfer n (leAt bs 0 2) c kind line (leAt bs 12 2) (leAt bs 14 2) data)
  else s

/-- A whole VC0 transfer was received at a link end (R24, R193, R297). A relaying chase sends it on. One that came
by a fabric port waits for the step whose job it names, since it enters a slice only in the slots that the job
reserves; for another chase it goes on round the ring (log entry 81). One of an abandoned forme that came by a die
link reaches no unit (R325). -/
def State.deliverTransfer (s : State) (n : Nat) (bs : List Byte) : State :=
  match s.relayOf n bs with
  | some r => s.relayOn n r bs
  | none =>
    let c := leAt bs 2 1 % 4
    let kind := leAt bs 3 1
    let job := leAt bs 0 2
    if n < 32 then
      match s.formeOfJob c job with
      | none => { s with early := s.early ++ [(n, bs)] }
      | some f =>
        if c = endChase n then s.enterSlice n bs
        else s.queueXfer (((s.jobDesc f job).map fun d => s.namedResvs f d).getD []) (ringWay (endChase n) c)
          (endChase n) f bs
    else if (if kind = 0 then s.lateValue c job else s.betweenReplay (s.galAttr c (leAt bs 4 4 % 2 ^ 21)).2) then s
    else s.enterSlice n bs

/-- The transfers that waited for a step are delivered, those that wait on as they are (R193). -/
def State.deliverEarly (s : State) : State :=
  ({ s with early := [] } : State).each s.early fun s e => s.deliverTransfer e.1 e.2

/-- One frame of a channel delivered in order. -/
def State.deliver (s : State) (n : Nat) (f : LFrame) : State :=
  let s := s.freeBuffer n f.vc
  if f.vc = 0 then
    let x := s.link n
    let bs := if f.first then f.payload else x.transfer ++ f.payload
    if !f.first && x.transfer.isEmpty then s
    else if 16 ≤ bs.length && (16 + leAt bs 8 4 ≤ bs.length || f.payload.length < 244) then
      (s.setLink n { x with transfer := [] }).deliverTransfer n bs
    else s.setLink n { x with transfer := bs }
  else s.send (.payload n f.vc f.payload)

/-- Frames are delivered in sequence order as far as they have been accepted (R306). -/
def State.deliverReady (s : State) (n v : Nat) : Nat → State
  | 0 => s
  | k + 1 =>
    let x := s.link n
    match x.rxHeld.find? fun f => f.vc = v && f.seq = s.rxExp n v with
    | none => s
    | some f =>
      let s := s.setLink n { x with rxHeld := x.rxHeld.erase f }
      State.deliverReady ((s.setRxExp n v (f.seq + 1)).deliver n f) n v k

/-- The reference of received numbers of a channel (R305, R309). -/
def State.rxRef (s : State) (n v : Nat) : Nat := (s.link n).rxRef.getD v (s.rxExp n v)

/-- After a REWIND the reference follows the numbers until they reach rx_expected (R309). -/
def State.moveRef (s : State) (n v q : Nat) : State :=
  let x := s.link n
  match x.rxRef.get? v with
  | none => s
  | some _ =>
    let q := (q + 1) % 2 ^ 48
    s.setLink n { x with rxRef := if seqGe q (s.rxExp n v) then x.rxRef.del v else x.rxRef.put v q }

/-- The receive buffer of a channel holds as many frames as it has room for: what its credits grant (R295,
R324). -/
def State.rxFull (s : State) (n v : Nat) : Bool :=
  grant n v ≤ ((s.link n).rxHeld.filter fun y => y.vc = v).length

/-- A good frame received (R304 to R309). One that finds no room in its buffer, which no credit was granted for,
is not accepted (R295; log entry 91). -/
def State.receiveFrame (s : State) (n : Nat) (f : Frame) : State :=
  let q := extend (s.rxRef n f.vc) f.seq
  let s := s.ackRx n f.vc f.ack
  let dup := !seqGe q (s.rxExp n f.vc) || (s.link n).rxHeld.any fun y => y.vc = f.vc && y.seq = q
  let s :=
    if dup then
      let s := if n < 32 then s.bump .lnkRxSeqDuplicates n f.vc 1 else s
      if f.again then s else s.freeBuffer n f.vc
    else if s.rxFull n f.vc then s
    else
      let y : LFrame := ⟨f.vc, q, f.first, (fixLen 244 f.payload).take f.len, 0, 255, 0⟩
      let x := s.link n
      let s := s.setLink n { x with rxHeld := x.rxHeld ++ [y] }
      s.deliverReady n f.vc (s.link n).rxHeld.length
  s.moveRef n f.vc q

/-- Channels of a link end (R295, R324). -/
def channelOk (n v : Nat) : Bool := if n < 32 then v < 3 else v < 2

/-- The edition that the fabric change agreed on: start_edition of the fabric forme's successor (R366). -/
def State.agreedEdition (s : State) : Option Nat :=
  match s.fabricForme, s.loaded with
  | some f, some i => (i.formes.find? fun x => x.carriedFrom = f.number).map Forme.startEdition
  | _, _ => none

/-- Fabric port n is one that a switch waits for: its link is up or retrains (R366). -/
def State.mustQuiesce (s : State) (n : Nat) : Bool :=
  s.fabricPort n && (s.linkOpen n || (s.link n).retraining)

/-- Every port that a switch waits for is QUIESCED (R366). -/
def State.allQuiesced (s : State) : Bool :=
  (List.range 32).all fun q => !s.mustQuiesce q || s.on .fabPortQuiesced 0 q

/-- Nothing of a port waits to be sent, acknowledged, delivered or answered, VC0 and VC2 frames apart that a
quiesce does not start (R366). -/
def State.portEmpty (s : State) (n : Nat) : Bool :=
  let x := s.link n
  x.unacked.isEmpty && x.rxHeld.isEmpty && x.resendQ.isEmpty && x.vc1Out.isEmpty &&
    (x.newQ.all fun y => y.vc != 1) && s.heldAccs.all fun h => match h.acc.who with
      | .link m _ => decide (m != n)
      | _ => true

/-- A quiescing port that is empty, has its credits back and EDITION E - 1 sends QUIESCE; it is
QUIESCED once QUIESCE with E was both sent and received (R366). -/
def State.quiesceCheck (s : State) (n : Nat) : State :=
  match s.agreedEdition with
  | none => s
  | some e =>
    if n < 32 && s.rd .fabStatusState 0 0 = 3 && s.lState n = lUp && s.fabricPort n then
      let x := s.link n
      let empty := s.portEmpty n && s.credit n 0 = grant n 0 && s.credit n 1 = grant n 1 && s.credit n 2 = grant n 2 &&
        s.rd .fabPortPeerEdition 0 n = (e - 1) % 2 ^ 16
      let s := if empty && !x.quiesceSent then
        (s.setLink n { x with quiesceSent := true }).sendByp n 0x83 (e % 2 ^ 32) 0 else s
      let x := s.link n
      let s := if x.quiesceSent && x.quiesceGot = some (e % 2 ^ 32) then s.wr .fabPortQuiesced 0 n 1
        else s
      if s.allQuiesced then s.wr .fabStatusState 0 0 4 else s
    else s

/-- FRAME: one on a lane that is no member is discarded (R313); a channel number that no header has is a block
error (R294); a corrupt frame is discarded and counted; a good one is acknowledged, extended, checked for a
duplicate, accepted and delivered in order (R294, R304 to R308). -/
def execFrame (n : Nat) (f : Frame) (t : Nat) (s : State) : Res :=
  s.atEnd n t fun s =>
    if s.linkOpen n && f.lane < allLanes n && s.rxMember n f.lane then
      if n < 32 && !channelOk n f.vc then s.blockFault n f.lane t
      else if f.crcOk && channelOk n f.vc && 1 ≤ f.len && f.len ≤ 244 then (s.receiveFrame n f).quiesceCheck n
      else s.count n .lnkErrCountsCrcErrors
    else s

/-! ### Bypass messages received (R299 to R303) -/

/-- A bypass message of a kind with an argument received: a corrupt one is discarded and counted; each good
one carries three acknowledgements (R299, R306), and may be what a quiescing port waited for (R366). -/
def State.byp (s : State) (n : Nat) (b : Byp) (kind arg t : Nat) (run : State → State) : Res :=
  s.atEnd n t fun s =>
    if s.linkOpen n then
      if b.crcOk kind arg then (run (((s.ackRx n 0 b.ack0).ackRx n 1 b.ack1).ackRx n 2 b.ack2)).quiesceCheck n
      else s.count n .lnkErrCountsCrcErrors
    else s

/-- ACK: the acknowledgements alone (R306). -/
def execAck (n : Nat) (b : Byp) (t : Nat) (s : State) : Res :=
  s.byp n b 0x01 0 t id

/-- CREDIT: the difference to the last count taken is added to the credits (R303). -/
def execCredit (n : Nat) (b : Byp) (vc freed t : Nat) (s : State) : Res :=
  s.byp n b 0x02 (vc * 2 ^ 16 + freed % 2 ^ 16) t fun s =>
    if channelOk n vc then
      let x := s.link n
      let d := (freed % 2 ^ 16 + 2 ^ 16 - x.taken.getD vc 0) % 2 ^ 16
      let s := s.setLink n { x with taken := x.taken.put vc (freed % 2 ^ 16) }
      s.setCredit n vc (s.credit n vc + d)
    else s

/-- BARRIER: a new token is stored, relayed on the other fabric ports and to the other chases; any
other is discarded and counted (R302, R355). -/
def execBarrierToken (n : Nat) (b : Byp) (origin bar edition count t : Nat) (s : State) : Res :=
  s.byp n b 0x10 (tokenArg origin bar (edition % 16) count) t fun s =>
    let nib := edition % 16
    if origin != s.identity && s.tokenNew (endChase n) origin bar nib count then
      let s := s.each [0, 1, 2, 3] fun s c =>
        if s.tokenNew c origin bar nib count then s.setToken c origin bar ⟨nib, count, s.now⟩ else s
      let s := s.each (s.fabricPorts.filter fun q => !decide (q = n)) fun s q =>
        s.sendByp q 0x10 (tokenArg origin bar nib count) 0
      s.bump .fabCountsRelayed 0 0 1
    else s.bump .fabCountsStale 0 0 1

/-! ### Lane requests (R310 to R316) -/

/-- A lane's LEAVE went out or waits. -/
def State.leaving (s : State) (n lane : Nat) : Bool :=
  !s.txMember n lane || (s.link n).toMark.contains (lane, false)

/-- LS stands for another lane, retired for good: the lane moves by leaving the link (R252). -/
def State.noSpare (s : State) (n lane : Nat) : Bool :=
  n < 32 && s.spareUse (n / 4) (s.fib n lane 0) = suRetired &&
    s.rd .oeFibreStatusSpareLane (n / 4) (s.fib n lane 0) != lane

/-- This end moves the lane's transmit place to LS (R311). -/
def State.moveTx (s : State) (n lane : Nat) : State :=
  if s.noSpare n lane then s.mark n [(lane, false)]
  else if s.txMember n 8 || (s.link n).toMark.contains (8, true) then s
  else s.mark n [(8, true), (lane, false)]

/-- This end moves the lane's transmit place back (R311). -/
def State.backTx (s : State) (n lane : Nat) : State :=
  if !s.leaving n lane then s
  else if n < 32 && s.retiredLane (n / 4) (s.fib n lane 0) lane then s
  else if s.noSpare n lane then s.mark n [(lane, true)]
  else s.mark n [(lane, true), (8, false)]

/-- A LANE_REQ received (R311, R312). -/
def State.laneRequest (s : State) (n : Nat) (b : Byp) (ident lane action t : Nat)
    (run : State → State) : Res :=
  s.byp n b 0x20 (laneArg ident lane action) t fun s =>
    s.receiveReq n 0x20 (laneArg ident lane action) b.reqno ident run

/-- MOVE: the peer moves its transmit place; this end's receive fibre carries the lane on LS (R253,
R311). Why the peer moves it is not told: the use shown is a free value among SWAP, MISLOCK and SUDDEN. -/
def execLaneMove (n : Nat) (b : Byp) (ident lane t : Nat) (s : State) : Res :=
  s.laneRequest n b ident lane 0 t fun s =>
    if n < 32 && lane < 8 && s.spareUse (n / 4) (s.fib n lane 1) != suRetired then
      let r := s.free 8
      r.2.putSpare (n / 4) (s.fib n lane 1) (2 + r.1 % 3) lane
    else s

/-- BACK: the peer moves it back (R253, R311). -/
def execLaneBack (n : Nat) (b : Byp) (ident lane t : Nat) (s : State) : Res :=
  s.laneRequest n b ident lane 1 t fun s =>
    let f := s.fib n lane 1
    if n < 32 && s.rd .oeFibreStatusSpareLane (n / 4) f = lane && s.spareUse (n / 4) f != suRetired then
      s.freeSpare (n / 4) f
    else s

/-- A calibration of this end that has not moved its traffic yet makes way for the one that the peer asks for
(R256, R312): its own request is withdrawn and its lane stays due; one of LS is pre-empted. -/
def State.yieldCal (s : State) (n lane : Nat) : State :=
  let k := n / 4
  let s := s.preemptLs k (s.fibreOf k lane (n % 4))
  match s.calJob k (s.fibreOf k lane (n % 4)) with
  | none => s
  | some c =>
    let m := portOf k c.bank
    let req := (0x20, laneArg (s.endIdentity m) c.lane 2)
    if (s.link m).again.contains req then
      let s := s.setLink m { s.link m with again := (s.link m).again.erase req }
      let s := { s with calJobs := s.calJobs.erase c }
      let give (s : State) (f : Nat) : State := if s.spareUse k f = suCal then s.putSpare k f suFree 15 else s
      let s := give (give s (2 * c.fibre)) (2 * c.fibre + 1)
      if s.rd .hOeCalMode k c.fibre = 1 then s.wr .hOeContNext k c.fibre c.lane else s
    else s

/-- CAL: this end moves its transmit place too, and calibrates its rings of the lane (R256, R311). -/
def execLaneCal (n : Nat) (b : Byp) (ident lane t : Nat) (s : State) : Res :=
  s.laneRequest n b ident lane 2 t fun s =>
    let k := n / 4
    if n < 32 && lane < 8 then
      let s := (s.setLink n { s.link n with peerCal := true }).yieldCal n lane
      let g := s.fibreOf k lane (n % 4)
      let s := if (s.calJob k g).isNone && s.spareOpen k (2 * g) && s.spareOpen k (2 * g + 1) then
        (s.beginCal n lane).calSpares n lane
      else s
      s.moveTx n lane
    else s

/-- CAL_END: traffic moves back in both directions (R311); what this end withdrew waits until the MARKs of both
ends have gone (R312). A calibration of this end's rings that has no result yet is pre-empted with the peer's
(R256, R259; log entry 91). -/
def execLaneCalEnd (n : Nat) (b : Byp) (ident lane t : Nat) (s : State) : Res :=
  s.laneRequest n b ident lane 3 t fun s =>
    if n < 32 && lane < 8 then
      let before := (s.link n).toMark
      let s := (s.setLink n { s.link n with peerCal := false }).backTx n lane
      let mine := ((s.link n).toMark.filter fun m => !before.contains m).map fun m => (true, m)
      let s := s.setLink n { s.link n with
        wait := mine ++ s.peerMarks n 0x20 (laneArg ident lane 3) }
      let g := s.fibreOf (n / 4) lane (n % 4)
      let s := if ((s.laneJob n lane).bind CalJob.result).isNone then s.preemptCal (n / 4) g else s
      ((s.endCal (n / 4) (n % 4) lane).afterSpare (n / 4) g).issueNext n
    else s

/-- Lane i of a die link is of a group that the link's width does not use (R331). -/
def State.idleGroup (s : State) (n i : Nat) : Bool :=
  32 ≤ n && !bit (s.groupsInUse (dieLinkOf n)) (laneGroup n i)

/-- REJOIN: this end sends JOIN on the lane (R311, R313, R329); one of a group out of use takes its place again and
carries nothing (R331). -/
def execLaneRejoin (n : Nat) (b : Byp) (ident lane t : Nat) (s : State) : Res :=
  s.laneRequest n b ident lane 4 t fun s =>
    if lane < allLanes n && !s.txMember n lane then
      let x := s.link n
      match (x.txCovers.find? fun e => e.2 = lane) with
      | some e =>
        let s := s.setLink n { x with txCovers := x.txCovers.del e.1 }
        if s.idleGroup n lane then s else s.mark n [(lane, true), (e.1, false)]
      | none => if s.idleGroup n lane then s else s.mark n [(lane, true)]
    else s

/-- SPARE_IN: the lane is retired in this end's transmit direction and LS joins in its place (R311,
R314). One that names LS tells that LS itself is retired: the fibre has no spare any more (log entry 91). -/
def execSpareIn (n : Nat) (b : Byp) (ident lane t : Nat) (s : State) : Res :=
  s.laneRequest n b ident lane 5 t fun s =>
    if n < 32 && lane < 8 then
      let f := s.fib n lane 0
      let s := s.retireFibreLane (n / 4) f lane
      if s.noSpare n lane then (if s.txMember n lane then s.mark n [(lane, false)] else s)
      else
        let s := if s.spareUse (n / 4) f = suCal then s.preemptCal (n / 4) (f / 2) else s
        let s := s.putSpare (n / 4) f suRetired lane
        let s := if s.txMember n 8 then s else s.mark n [(8, true)]
        if s.txMember n lane then s.mark n [(lane, false)] else s
    else if n < 32 && lane = 8 then
      let s := s.retireSpare (n / 4) (2 * (n % 4))
      if s.txMember n 8 then s.mark n [(8, false)] else s
    else s

/-- LANE_DROP: LEAVE goes out on the lane at its next boundary (R313). -/
def execLaneDrop (n : Nat) (b : Byp) (lane t : Nat) (s : State) : Res :=
  s.byp n b 0x21 (if n < 32 then lane * 2 ^ 7 else lane) t fun s =>
    if lane < allLanes n && s.txMember n lane && !(s.link n).toMark.contains (lane, false) then
      s.setLink n { s.link n with marks := (lane, false) :: (s.link n).marks }
    else s

/-- The lane's spare carries it for a sudden loss (R268). -/
def State.onSudden (s : State) (n lane : Nat) : Bool :=
  n < 32 && s.spareUse (n / 4) (s.fib n lane 0) = suSudden &&
    s.rd .oeFibreStatusSpareLane (n / 4) (s.fib n lane 0) = lane

/-- LANE_ACK: this end carries out the move that it asked for (R311); a lane that is back frees its spare
(R265), unless its calibration ends while a sudden loss holds it there (R252). -/
def execLaneAck (n : Nat) (b : Byp) (arg t : Nat) (s : State) : Res :=
  s.byp n b 0x22 arg t fun s =>
    s.receiveAck n 0x22 arg b.reqno fun s =>
      let lane := s.reqLane n arg
      let act := bitsAt arg 4 3
      if act = 4 && s.idleGroup n lane then
        let x := s.link n
        (s.setLink n { x with covers := x.covers.filter fun e => e.2 != lane }).groupFields (dieLinkOf n)
      else if act = 0 || act = 2 then
        let s := s.moveTx n lane
        if n < 32 && !s.txMember n lane then s.switchSource n lane else s
      else if act = 1 || act = 3 then
        let s := if act = 3 && s.onSudden n lane then s else s.backTx n lane
        if n < 32 then
          let s := if act = 3 then s.endCal (n / 4) (n % 4) lane
            else s.giveBack (n / 4) (s.fib n lane 0) lane
          (s.swapBack (n / 4) (n % 4) lane).afterSpare (n / 4) (s.fibreOf (n / 4) lane (n % 4))
        else s
      else s

/-- WIDTH_REQ: the transmit members become the mask, lane by lane, less the lanes that cannot be sent
(R315). -/
def execWidthReq (n : Nat) (b : Byp) (ident mask t : Nat) (s : State) : Res :=
  s.byp n b 0x30 (ident * 2 ^ 11 + mask % 2 ^ 9) t fun s =>
    s.receiveReq n 0x30 (ident * 2 ^ 11 + mask % 2 ^ 9) b.reqno ident fun s =>
      s.mark n ((List.range 9).filterMap fun i =>
        if bit mask i && s.laneLit n i && !s.txMember n i then some (i, true)
        else if !bit mask i && s.txMember n i then some (i, false)
        else none)

/-- WIDTH_ACK: the outstanding width request is answered (R315). -/
def execWidthAck (n : Nat) (b : Byp) (arg t : Nat) (s : State) : Res :=
  s.byp n b 0x31 arg t fun s => s.receiveAck n 0x31 arg b.reqno fun s => s

/-- RETRAIN_REQ: acknowledged; this end retrains too (R316). -/
def execRetrainReq (n : Nat) (b : Byp) (ident t : Nat) (s : State) : Res :=
  s.byp n b 0x40 (ident * 2 ^ 11) t fun s =>
    s.receiveReq n 0x40 (ident * 2 ^ 11) b.reqno ident fun s =>
      if n < 32 && s.lState n = lUp then s.beginRetrain n t else s

/-- RETRAIN_ACK: the outstanding request is answered; this end retrains (R316). -/
def execRetrainAck (n : Nat) (b : Byp) (arg t : Nat) (s : State) : Res :=
  s.byp n b 0x41 arg t fun s =>
    s.receiveAck n 0x41 arg b.reqno fun s =>
      if n < 32 && s.lState n = lUp then s.beginRetrain n t else s

/-- REWIND: received numbers extend against the rewound number (R309). Its low 20 bits are not sent; the
first number whose higher bits are `hi` is the one that follows. -/
def execRewind (n : Nat) (b : Byp) (vc hi t : Nat) (s : State) : Res :=
  s.byp n b 0x50 (vc * 2 ^ 28 + hi % 2 ^ 28) t fun s =>
    if channelOk n vc && n < 32 then
      s.setLink n { s.link n with
        rxRef := (s.link n).rxRef.put vc ((hi * 2 ^ 20 + 2 ^ 19) % 2 ^ 48) }
    else s

/-- MARK_JOIN: the lane becomes a receive member (R310); its failed retrains are forgotten (R313). -/
def execMarkJoin (n lane t : Nat) (s : State) : Res :=
  s.atLane n lane t fun s =>
    if s.linkOpen n && s.lane n lane != laneRetired && !s.idleGroup n lane then
      let s := (s.setLane n lane laneMember).markSeen n false lane true
      if n < 32 then s.wr .lnkLaneRetrainFails n lane 0
      else
        let x := s.link n
        s.setLink n { x with fails := x.fails.del lane }
    else s

/-- MARK_LEAVE: the lane's receive membership ends (R310, R319); one that data_mask does not name goes dark.
A die link's spare becomes free (R329). -/
def execMarkLeave (n lane t : Nat) (s : State) : Res :=
  s.atLane n lane t fun s =>
    if s.linkOpen n && s.lane n lane = laneMember then
      let off := n < 32 && lane < 8 && !((s.portRec n).map fun r => bit r.dataMask lane).getD false
      let s := (s.setLane n lane (if off then laneDark else laneLocked)).markSeen n false lane false
      if n < 32 then (s.laneMoved n lane).checkWidth n t
      else
        let x := s.link n
        (s.setLink n { x with covers := x.covers.del lane }).groupFields (dieLinkOf n)
    else s

/-! ### Timers -/

/-- ACK_TIMER: an ACK message goes out (R306). -/
def execAckTimer (n vc t : Nat) (s : State) : Res :=
  s.atEnd n t fun s => if s.linkOpen n && channelOk n vc then s.sendByp n 0x01 0 0 else s

/-- CREDIT_TIMER: a CREDIT message with the count of freed buffers goes out (R303). -/
def execCreditTimer (n vc t : Nat) (s : State) : Res :=
  s.atEnd n t fun s =>
    if s.linkOpen n && channelOk n vc then
      s.sendByp n 0x02 (vc * 2 ^ 16 + (s.link n).freed.getD vc 0) 0
    else s

/-- REPLAY_TIMER: an unacknowledged frame is to be sent again with `again` set (R307, R325). -/
def execReplayTimer (n vc seq t : Nat) (s : State) : Res :=
  s.atEnd n t fun s =>
    let x := s.link n
    match x.unacked.find? fun f => f.vc = vc && f.seq % 2 ^ 20 = seq % 2 ^ 20 with
    | some f =>
      if s.linkOpen n && !x.resendQ.any fun e => e.1 = f then
        s.setLink n { x with resendQ := x.resendQ ++ [(f, true)] }
      else s
    | none => s

/-- REQUEST_REPEAT: the outstanding request is sent again; after 16 repeats it fails, is counted, and
its need stays open (R311). -/
def execRequestRepeat (n t : Nat) (s : State) : Res :=
  s.atEnd n t fun s =>
    let x := s.link n
    match x.request with
    | none => s
    | some r =>
      if r.repeats < 16 then
        (s.setLink n { x with request := some { r with repeats := r.repeats + 1 } }).sendByp n r.kind
          r.arg r.reqno
      else
        let s := s.setLink n { x with request := none, again := askAgain x.again r.kind r.arg }
        (s.count n .lnkEventsWithdrawals).issueNext n

/-- LANE_CLEAN_RUN: a LOCKED lane outside the link after 4,096 clean blocks asks to rejoin (R313, R329); LS
only where it stands in for a lane. -/
def execLaneCleanRun (n i t : Nat) (s : State) : Res :=
  s.atLane n i t fun s =>
    if s.linkOpen n && s.lane n i = laneLocked &&
        (if n < 32 then i < 8 || s.lsStands n 1 else s.wantsRejoin n i) then s.laneReq n i 4 else s

/-- Failed retrains of a lane in a row. -/
def State.laneFails (s : State) (n i : Nat) : Nat :=
  if n < 32 then s.rd .lnkLaneRetrainFails n i else (s.link n).fails.getD i 0

/-- LANE_RETRAIN_TIMEOUT: a failed retrain counts; the third in a row retires the lane (R313, R314,
R329). -/
def execLaneRetrainTimeout (n i t : Nat) (s : State) : Res :=
  s.atLane n i t fun s =>
    if s.lane n i = laneRetrain || s.lane n i = laneLocked || s.lane n i = laneHunt then
      let k := s.laneFails n i + 1
      if k < 3 then
        let s := s.setLane n i laneHunt
        if n < 32 then s.wr .lnkLaneRetrainFails n i k
        else s.setLink n { s.link n with fails := (s.link n).fails.put i k }
      else
        let s := s.retireRx n i
        if n < 32 then s else (s.groupFields (dieLinkOf n)).wantWidth (dieLinkOf n) ((n - 32) % 2) t
    else s

/-- LANE_RETRAIN_RETRY: the lane is retrained again (R313). -/
def execLaneRetrainRetry (n i t : Nat) (s : State) : Res :=
  s.atLane n i t fun s => if s.lane n i = laneHunt then s.setLane n i laneRetrain else s

/-- IDLE_ADAPTATION: idle blocks count and reduce or freeze adaptation; the first 4,096 others after a
long run resume it (R318). -/
def execIdleAdaptation (n i : Nat) (idle : Bool) (blocks : Nat) (s : State) : Res :=
  s.atLane n i s.now fun s =>
    let x := s.link n
    let run := x.idle.getD i 0
    let left := x.resume.getD i 0
    let run' := if idle then run + blocks else if blocks = 0 then run else 0
    let left' := if idle then left else (if 2 ^ 20 ≤ run then 4096 else left) - blocks
    let mode := if 2 ^ 24 ≤ run' then 2 else if 2 ^ 20 ≤ run' then 1 else if 0 < left' then 3 else 0
    let s := s.setLink n { x with idle := x.idle.put i run', resume := x.resume.put i left',
                                  adapt := x.adapt.put i mode }
    if n < 32 then
      (s.wr .lnkLaneIdleRun n i (min (2 ^ 32 - 1) run')).wr .lnkLaneAdapt n i mode
    else s

/-- LINK_DOWN: the link goes down in the cases of R319, of which `cause` names one, and in no other (R319 to
R321). -/
def execLinkDown (n cause t : Nat) (s : State) : Res :=
  s.atPort n t fun s => if s.downCase n cause t then s.linkDown n cause t else s

/-! ### VC1 (R298) -/

/-- A VC1 request is served at the target chase, over the ring where that is another (R24). -/
def State.vc1Serve (s : State) (n : Nat) (r : VcReq) (data : Option (List Byte)) : Res :=
  if n < linkEnds && r.target < 4 && 1 ≤ r.sectors && r.sectors ≤ 3 then
    if s.linkOpen n then
      .next (s.vc1Reach (endChase n) ⟨r.target, r.galley, r.addr, r.sectors * 64, data, r.met, .link n r⟩ r)
    else .next s
  else .fault .noSuchUnit

/-- VC1_READ: answered with DATA or ERROR (R298, R340). -/
def execVc1Read (n : Nat) (r : VcReq) (s : State) : Res := s.vc1Serve n r none

/-- VC1_WRITE: answered with DONE or ERROR (R298). -/
def execVc1Write (n : Nat) (r : VcReq) (data : List (BitVec 8)) (s : State) : Res :=
  s.vc1Serve n r (some data)

/-- The outstanding request with a tag is answered. -/
def State.vc1Answered (s : State) (n tag op : Nat) (data : List Byte) : Res :=
  if n < linkEnds then
    let x := s.link n
    match x.vc1Out.find? fun r => r.tag = tag with
    | none => .next s
    | some r =>
      let s := s.setLink n { x with vc1Out := x.vc1Out.erase r }
      if op = 0xFF then .next (s.vc1Fail r) else .next (s.answerDone r.acc data)
  else .fault .noSuchUnit

/-- VC1_DATA answers the READ with its tag (R298). -/
def execVc1Data (n tag : Nat) (data : List (BitVec 8)) (s : State) : Res := s.vc1Answered n tag 0x81 data

/-- VC1_DONE answers the WRITE with its tag (R298). -/
def execVc1Done (n tag : Nat) (s : State) : Res := s.vc1Answered n tag 0x82 []

/-- VC1_ERROR reaches the requester (R298, R477). -/
def execVc1Error (n tag : Nat) (s : State) : Res := s.vc1Answered n tag 0xFF []

/-- OTHER_BYPASS_KIND: discarded and counted (R300). -/
def execOtherBypassKind (n : Nat) (b : Byp) (kind arg : Nat) (s : State) : Res :=
  if n < linkEnds then
    if s.linkOpen n then
      if b.crcOk kind arg then .next (s.bump .hLnkOther n 0 (b2n (kind < 256)))
      else .next (s.count n .lnkErrCountsCrcErrors)
    else .next s
  else .fault .noSuchUnit

end Sys2Proof.Machine
end

