-- ==== Sys2Proof/Machine/Dies.lean ====
section
/-!
DEFINITION. Die-link commands (R329 to R336) and guest sites (R340, R342 to R346).
-/

namespace Sys2Proof.Machine

/-- An event at end e of die link l, stamped t. -/
def State.atDie (s : State) (l e t : Nat) (run : State → State) : Res :=
  if l < 12 && e < 2 then .next (run (s.stamp t)) else .fault .noSuchUnit

/-- A bypass message received at end e of die link l (R299, R324). -/
def State.dieByp (s : State) (l e : Nat) (b : Byp) (kind arg t : Nat) (run : State → State) : Res :=
  if l < 12 && e < 2 then s.byp (dieEnd l e) b kind arg t run else .fault .noSuchUnit

/-- DLANE_DROP: the transmitter's lane leaves and the free spare of its group that the receiver puts in its place
joins (R329). -/
def execDlaneDrop (l e : Nat) (b : Byp) (lane t : Nat) (s : State) : Res :=
  s.dieByp l e b 0x21 lane t fun s =>
    let n := dieEnd l e
    if lane < allLanes n && s.txMember n lane && !(s.link n).toMark.contains (lane, false) then
      let x := s.link n
      let role := x.txCovers.getD lane lane
      match (s.link (otherEnd n)).covers.find? fun c => c.2 = role && c.1 != lane with
      | some c =>
        (s.setLink n { x with txCovers := (x.txCovers.del lane).put c.1 role }).mark n
          [(lane, false), (c.1, true)]
      | none => s.mark n [(lane, false)]
    else s

/-- Width whose group count a mask has. -/
def maskWidth (l mask : Nat) : Nat :=
  let k := popCount mask 8
  if widthGroups l 0 ≤ k then 0 else if widthGroups l 1 ≤ k then 1 else if widthGroups l 2 ≤ k then 2
  else 3

/-- One end of a die link takes the lanes of a group mask as members: those that have a place at their receiver and
hold block lock there (R331, R332). MARKs of other lanes are dropped. -/
def State.takeGroups (s : State) (n mask : Nat) : State :=
  let m := otherEnd n
  let used (i : Nat) : Bool := bit mask (laneGroup n i)
  let tx := (List.range (allLanes n)).filter fun i =>
    used i && s.placed m i && (s.lane m i = laneLocked || s.lane m i = laneMember)
  let s := s.each (List.range (allLanes n)) fun s i =>
    if used i && s.placed n i then (if s.lane n i = laneLocked then s.setLane n i laneMember else s)
    else if s.lane n i = laneMember then s.setLane n i laneLocked
    else s
  let x := s.link n
  s.setLink n { x with
    txLanes := tx, marks := x.marks.filter fun e => used e.1, behind := x.behind.filter fun e => used e.2.1 }

/-- Both directions of a die link switch to a group mask (R331, R332, R484). -/
def State.switchWidth (s : State) (l mask : Nat) : State :=
  let s := (s.takeGroups (dieEnd l 0) mask).takeGroups (dieEnd l 1) mask
  let s := s.each [dieEnd l 0, dieEnd l 1] fun s n => s.setLink n (s.link n).widthMade
  let s := (s.ddlWr l .ddlStatusWidth (maskWidth l mask)).ddlBump l .ddlErrCountsWidthChanges
  (s.groupFields l).wr .coreIrqEventsLink 0 0 1

/-- DWIDTH_REQ: acknowledged, unless this end's own request outranks it (R332, R333). -/
def execDwidthReq (l e : Nat) (b : Byp) (mask t : Nat) (s : State) : Res :=
  s.dieByp l e b 0x30 mask t fun s =>
    let n := dieEnd l e
    s.receiveReq n 0x30 mask b.reqno (endChase (otherEnd n)) fun s =>
      s.setLink n { s.link n with widthReq := some mask }

/-- DWIDTH_ACK: both ends switch; then each asks for what waited there, and where neither does, the end that asked
for this change asks for the next step (R332 to R334). -/
def execDwidthAck (l e : Nat) (b : Byp) (mask t : Nat) (s : State) : Res :=
  s.dieByp l e b 0x31 mask t fun s =>
    let n := dieEnd l e
    s.receiveAck n 0x31 mask b.reqno fun s =>
      let s := ((s.switchWidth l mask).issueNext (otherEnd n)).issueNext n
      if (s.link n).asksWidth || (s.link (otherEnd n)).asksWidth then s else s.wantWidth l e t

/-- GROUP_CLOCK_LOST: the group fails; the link narrows, or goes down with its last clock (R323, R330,
R336). -/
def execGroupClockLost (l e g t : Nat) (s : State) : Res :=
  s.atDie l e t fun s =>
    let n := dieEnd l e
    if g < dieGroups n then
      if s.linkOpen n then
        let x := s.link n
        let lost := (x.clockLost.filter fun y => !decide (y = g)) ++ [g]
        let s := (s.setLink n { x with clockLost := lost }).groupFields l
        if (List.range (dieGroups n)).all fun i => lost.contains i then s.dieDown l t
        else s.wantWidth l e t
      else if s.endState n = lAlign || s.endState n = lIdent then s.failAttempt n t
      else s
    else s

/-- GROUP_HEALTHY: the group's clock is present; with 16 lanes ready in their places it is no longer short of them,
and a wider width is asked for (R330, R334). -/
def execGroupHealthy (l e g t : Nat) (s : State) : Res :=
  s.atDie l e t fun s =>
    let n := dieEnd l e
    let x := s.link n
    let full := 16 ≤ s.readyLanes n g
    let s := s.setLink n { x with clockLost := x.clockLost.filter fun y => !decide (y = g)
                                  short := x.short.filter fun y => decide (y != g) || !full }
    (s.groupFields l).wantWidth l e t

/-- DIE_LINK_DOWN: the link goes down with its effect (R336). -/
def execDieLinkDown (l t : Nat) (s : State) : Res :=
  if l < 12 then .next ((s.stamp t).dieDown l t) else .fault .noSuchUnit

/-- DIE_LINK_RETRY: a link that is down trains again (R327, R336); not one that the start-up proof still judges, or
whose engine failed it (R430). -/
def execDieLinkRetry (l t : Nat) (s : State) : Res :=
  if l < 12 then
    let s := s.stamp t
    let proving := s.rd .prfResultState 0 0 = 1 || (4 ≤ l && s.on .hOeFailed (l - 4) 0)
    if !proving && s.rd .ddlStatusState (ddlOf l).1 (ddlOf l).2 = 3 then
      let s := s.setLink (dieEnd l 0) { s.link (dieEnd l 0) with tries := 0, waiting := false }
      let s := s.setLink (dieEnd l 1) { s.link (dieEnd l 1) with tries := 0, waiting := false }
      .next ((s.toAlign (dieEnd l 0) t).toAlign (dieEnd l 1) t)
    else .next s
  else .fault .noSuchUnit

/-! ### Guest sites -/

/-- Guest states of GST_STATUS. -/
def gAbsent : Nat := 1
def gTraining : Nat := 2
def gUp : Nat := 3
def gDown : Nat := 4
def gRefused : Nat := 5

/-- A guest record of the ROUTING section (R340). -/
structure GuestRec where
  enable : Bool
  notify : Bool
  maxRate : Nat
  core : Nat
  windows : List (Nat × Nat)
deriving DecidableEq, Repr

/-- Guest record of the site of chase g (R340). -/
def Imposition.guest (i : Imposition) (g : Nat) : GuestRec :=
  let o := 112 + 16 * g
  { enable := bit (leAt i.routing o 1) 0, notify := bit (leAt i.routing o 1) 1,
    maxRate := leAt i.routing (o + 1) 1 % 16, core := leAt i.routing (o + 2) 1 % 16,
    windows := [(leAt i.routing (o + 4) 8, leAt i.routing (o + 12) 4),
                (leAt i.routing (o + 16) 8, leAt i.routing (o + 24) 4)] }

/-- Guest record in force. -/
def State.guestRec (s : State) (g : Nat) : Option GuestRec := s.active.map fun i => i.guest g

/-- An event at a guest site, stamped t. -/
def State.atGuest (s : State) (g t : Nat) (run : State → State) : Res :=
  if g = 0 || g = 2 then .next (run (s.stamp t)) else .fault .noSuchUnit

/-- A site without a link: no rate, no width, no level (R343, R346). -/
def State.guestOut (s : State) (g st : Nat) : State :=
  s.wrAll [(.gstStatusRate, g, 0, 0), (.gstStatusHalfWidth, g, 0, 0), (.gstStatusMsgLevel, g, 0, 0),
    (.gstStatusState, g, 0, st)]

/-- State of a guest site. -/
def State.gState (s : State) (g : Nat) : Nat := s.rd .gstStatusState g 0

/-- GUEST_TRAIN: once the module's proof has passed, an enabled site trains within the limits of R342: HELLO
goes out at the negotiated rate; else it is REFUSED, or DOWN where training fails (R342, R343). Before any
imposition is active a site trains too, since a load that enables it needs it UP (R339; log entry 24). -/
def execGuestTrain (g : Nat) (offer : GuestOffer) (t : Nat) (s : State) : Res :=
  s.atGuest g t fun s =>
    let r := (s.guestRec g).getD ⟨true, false, 6, 0, []⟩
    if s.rd .prfResultState 0 0 != 2 && s.rd .prfResultState 0 0 != 4 then s
    else if !r.enable then s.guestOut g gAbsent
    else if s.gState g = gUp || s.gState g = gDown then s
    else if !(offer.standardPackage && offer.streamingRaw && 1 ≤ offer.rate) then s.guestOut g gRefused
    else if !offer.trained then s.guestOut g gDown
    else
      let s := s.wr .gstStatusRate g 0 (min (min offer.rate 6) r.maxRate)
      let s := s.wr .gstStatusHalfWidth g 0 (b2n (!offer.x16))
      let s := s.wr .gstStatusState g 0 gTraining
      let cap := s.rd .chsCapabilityKind g 0 * 2 ^ 60 + s.rd .chsCapabilityDdlRev g 0 * 2 ^ 56 +
        s.rd .chsCapabilityStepping g 0 * 2 ^ 48 + s.rd .chsCapabilityLevel g 0
      s.guestMsg g 0x20 0 0 false cap []

/-- GUEST_RETRY: a DOWN site tries again (R343). -/
def execGuestRetry (g t : Nat) (s : State) : Res :=
  s.atGuest g t fun s => if s.gState g = gDown then s.wr .gstStatusState g 0 gTraining else s

/-- HELLO: the guest's capability block; a site that has trained is UP at the lower message-set level; one whose
HELLO fails, since its block is no guest's (R337), stays DOWN (R343; log entry 91). -/
def execGuestHello (g cap t : Nat) (s : State) : Res :=
  s.atGuest g t fun s =>
    if s.gState g = gTraining && s.rd .gstStatusRate g 0 != 0 then
      if bitsAt cap 60 4 != 4 then s.guestOut g gDown else
      let s := (s.wr .gstCapabilityKind g 0 (bitsAt cap 60 4)).wr .gstCapabilityDdlRev g 0 (bitsAt cap 56 4)
      let s := (s.wr .gstCapabilityStepping g 0 (bitsAt cap 48 8)).wr .gstCapabilityLevel g 0
        (bitsAt cap 0 32)
      let s := s.wr .gstStatusMsgLevel g 0 (min 15 (min Config.guestLevel (bitsAt cap 0 32)))
      s.wr .gstStatusState g 0 gUp
    else s

/-- A guest request lies within a window (R340, R345). -/
def windowAllows (w : Nat × Nat) (r : VcReq) (write : Bool) : Bool :=
  bit w.1 38 = r.galley && (!write || bit w.1 63) && bitsAt w.1 0 38 ≤ r.addr &&
    r.addr + 64 * r.sectors ≤ bitsAt w.1 0 38 + 64 * w.2

/-- Requests of a site held and not yet answered (R344). -/
def State.guestHeld (s : State) (g : Nat) : Nat :=
  (s.heldAccs.filter fun h => match h.acc.who with
    | .guest g' _ => decide (g' = g)
    | _ => false).length

/-- A guest request (R344, R345): within a window it is an access of the site's own chase; any other, one that names
another chase or a module, and one beyond 64 outstanding, is answered with ERROR. -/
def State.guestServe (s : State) (g : Nat) (r : VcReq) (data : Option (List Byte)) : Res :=
  s.atGuest g s.now fun s =>
    if s.gState g = gUp then
      let s := s.bump .gstCountsRequests g 0 1
      let ok := match s.guestRec g with
        | some x => x.windows.any fun w => windowAllows w r data.isSome
        | none => false
      if ok && r.module = 0 && r.target = g && 1 ≤ r.sectors && r.sectors ≤ 3 && r.addr % 64 = 0 && s.guestHeld g < 64 then
        s.access ⟨g, r.galley, r.addr, r.sectors * 64, data, r.met, .guest g r⟩
      else s.guestError g r
    else s

/-- GUEST_READ (R345). -/
def execGuestRead (g : Nat) (r : VcReq) (s : State) : Res := s.guestServe g r none

/-- GUEST_WRITE (R345). -/
def execGuestWrite (g : Nat) (r : VcReq) (data : List (BitVec 8)) (s : State) : Res :=
  s.guestServe g r (some data)

/-- NOTIFY: the value is kept; where notify is set the interrupt is raised (R344, R482, R483). -/
def execGuestNotify (g value t : Nat) (s : State) : Res :=
  s.atGuest g t fun s =>
    if s.gState g = gUp then
      let s := s.wr .gstNotifyValue g 0 value
      match s.guestRec g with
      | some r => if r.notify then (s.wr .hGstNotifyHeld g 0 1).irqDeliver else s
      | none => s
    else s

/-- POST: sent while the site is UP (R344, GST_POST). -/
def execGuestPost (g value : Nat) (s : State) : Res :=
  s.atGuest g s.now fun s => if s.gState g = gUp then s.guestMsg g 0x22 0 0 false value [] else s

/-- LOW_POWER_REQUEST: refused; the site stays as it is (R342). -/
def execLowPowerRequest (g : Nat) (s : State) : Res := s.atGuest g s.now fun s => s

/-- GUEST_LINK_DOWN: seen, counted, requests not yet answered dropped, and training again (R346). -/
def execGuestLinkDown (g t : Nat) (s : State) : Res :=
  s.atGuest g t fun s =>
    if s.gState g = gUp || s.gState g = gTraining then
      let s := (s.wr .gstStatusDownSeen g 0 1).bump .gstCountsDowns g 0 1
      let s := { s with heldAccs := s.heldAccs.filter fun h => match h.acc.who with
        | .guest g' _ => !decide (g' = g)
        | _ => true }
      (s.guestOut g gTraining).irqDeliver
    else s

end Sys2Proof.Machine
end

