-- ==== Sys2Proof/Machine/Island.lean ====
section
/-!
DEFINITION. The survivor island: what it keeps (R449), its contacts (R454 to R456, R461), the laser
shutdown's record (R462), the yield's end (R385), the power-off sequence (R451, R452, R460), and the
states FATAL and BOOT_FAIL (R431, R457).
-/

namespace Sys2Proof.Machine

/-! ### States (SEC_STATUS) -/

def zStage1 : Nat := 0
def zAuxOnly : Nat := 1
def zSequencing : Nat := 2
def zProof : Nat := 3
def zBooting : Nat := 4
def zReady : Nat := 5
def zFatal : Nat := 6
def zBootFail : Nat := 7
def zPoweringOff : Nat := 8
def zOff : Nat := 9
def zTripped : Nat := 10

/-- State of SEC_STATUS. -/
def State.sec (s : State) : Nat := s.rd .secStatusState 0 0

/-- SEC_STATUS state set. -/
def State.setSec (s : State) (x : Nat) : State := s.wr .secStatusState 0 0 x

/-! ### What the island and the contacts keep -/

/-- Fields that the island, its flash, its management port and the contacts hold: no reset of the main
domain touches them (R449, R450, R454, SEC_EVENTS). -/
def islandFields : List Field :=
  [.secStatusState, .secStatusFailCause, .secStatusResetRefused, .secStatusCmdRefused, .secStatusOwner,
    .secStatusAlertMask, .secStatusAlerts, .secStatusKeys, .secCounterValue, .secEventsShutdownFirst,
    .secEventsShutdownMask, .secEventsResetFirst, .secEventsResetMask, .thmStatusTrip,
    .thmStatusTripDomain] ++
  [.mgtStatusAddrConflict, .mgtStatusLinkUp, .mgtCountsReceived, .mgtCountsDropped,
    .mgtCountsAuthRefused, .mgtCountsBusy, .mgtMacMac, .pairStatusLiveIn, .pairStatusMember,
    .pairStatusYielded, .lsuStatusPresent, .lsuStatusPresentB, .hPinReady, .hPinYieldLive, .hPinReset] ++
  [.hPinAuxGood, .hPinTrip, .hPinAlert, .hIslandHot, .hIslandTemp, .hSurvTick, .hStrap, .hStage,
    .hChallenge, .hPwrUp, .hPwrOffStep, .hPwrOnStep, .hTapIr, .hTapSeg, .hTapUsed, .hFlashGen]

/-- What a main domain held in reset keeps: the proof's report, which the island reads, its rails, which stay on, and
the energy counted since they came on (R416, R431, R457, PRF_RESULT). -/
def heldFields : List Field :=
  [.pwrRailState, .prfResultState, .prfResultPhase, .prfResultKind, .prfResultUnit, .prfResultCause,
    .prfResultMapRebuilt, .prfResultNewEntries, .prfResultEntries, .pwrEnergyEnergy, .hPwrEnergyRem]

/-- The main domain in reset (R431, R457, R460): all but the island's state at its reset value. `report`: it
is held with its power on, and keeps the proof's report and the map in force; a map that waits to be written
is kept too (R471). -/
def State.resetMain (s : State) (report : Bool) : State :=
  { State.reset with
    regs := s.regs.filter fun e => islandFields.contains e.1.f || (report && heldFields.contains e.1.f)
    repairMap := if report || s.flashQ.contains .map then s.repairMap else []
    mgtLast := s.mgtLast, flashQ := s.flashQ, keys := s.keys, images := s.images, flashMap := s.flashMap, cache := s.cache,
    upload := s.upload, out := s.out, freeCount := s.freeCount, pending := s.pending }

/-! ### Contacts -/

/-- SB_ALERT_N follows the unmasked alerts (R456). -/
def State.alertPin (s : State) : State :=
  s.wr .hPinAlert 0 0 (b2n ((List.range 8).any fun b =>
    bit (s.rd .secStatusAlerts 0 0) b && !bit (s.rd .secStatusAlertMask 0 0) b))

/-- An alert is set (R456): 0 trip, 1 laser shutdown, 2 yield, 3 FATAL, 4 BOOT_FAIL, 5 reset refused,
6 supervisor. -/
def State.alert (s : State) (b : Nat) : State := (s.orBit .secStatusAlerts 0 0 b).alertPin

/-- SB_PAIR_YIELD_N is released (R372). -/
def State.releaseLine (s : State) : State := (s.wr .hPinYieldLive 0 0 0).wr .pairStatusYielded 0 0 1

/-- SB_PAIR_YIELD_N is driven live (R455). -/
def State.driveLine (s : State) : State := (s.wr .hPinYieldLive 0 0 1).wr .pairStatusYielded 0 0 0

/-- The yield ends: the line is released and the role is YIELDED, or SWAP_HOLD for cause 0x0A (R385). -/
def State.endYield (s : State) : State :=
  if s.role = rActive && s.rd .pairStatusYieldCause 0 0 != 0 then
    let s := s.releaseLine.alert 2
    s.setRole (if s.rd .pairStatusYieldCause 0 0 = 0x0A then rSwapHold else rYielded)
  else s

/-! ### Laser safety shutdown (R462) -/

/-- A trigger is recorded, and the shutdown begins unless one is in force (R274, R456, R462). Without main
power no laser is biased. -/
def State.shutdown (s : State) (trigger t : Nat) : State :=
  if s.isShut then s.orBit .secEventsShutdownMask 0 0 trigger
  else
    let s := (s.wr .secEventsShutdownMask 0 0 (2 ^ trigger)).wr .secEventsShutdownFirst 0 0 (trigger + 1)
    (if s.on .hPwrUp 0 0 then s.laserShutdown t else s).alert 1

/-! ### Power off (R451, R452, R460) -/

/-- Rank of the end state that a cause of SEC_EVENTS requires: TRIPPED above OFF above restart (R452). -/
def causeRank (b : Nat) : Nat := if b = 5 then 3 else if b = 3 || b = 4 then 2 else 1

/-- A cause of power-off or reset is recorded: a sequence that runs takes it in; else the record starts
afresh (R452). -/
def State.noteCause (s : State) (b : Nat) (joins : Bool) : State :=
  if joins then
    let old := s.rd .secEventsResetFirst 0 0
    let s := s.orBit .secEventsResetMask 0 0 b
    if causeRank (old - 1) < causeRank b then s.wr .secEventsResetFirst 0 0 (b + 1) else s
  else (s.wr .secEventsResetMask 0 0 (2 ^ b)).wr .secEventsResetFirst 0 0 (b + 1)

/-- State that a sequence ends in (R452): TRIPPED, OFF, or restart, which waits for SB_RESET_N. -/
def State.endState0 (s : State) : Nat :=
  let m := s.rd .secEventsResetMask 0 0
  if bit m 5 then zTripped
  else if bit m 3 || bit m 4 then zOff
  else if s.on .hPinReset 0 0 then zOff
  else zAuxOnly

/-- The sequence ends: the main domain has no power (R452, R460). -/
def State.endPowerOff (s : State) : State :=
  let s := s.resetMain false
  let s := s.wrAll [(.hPwrUp, 0, 0, 0), (.hPwrOffStep, 0, 0, 0), (.hPwrOnStep, 0, 0, 0), (.hStage, 0, 0, 0)]
  s.setSec s.endState0

/-- yield_cause of an active module that loses power (R383): 0x06 trip, 0x07 main-rail failure, 0x08
reset. For a signed POWER_OFF no rule states one: it is free among 1 to 9. -/
def State.powerYield (s : State) (b : Nat) : State :=
  let c := if b = 5 then (6, s) else if b = 4 then (7, s) else if b = 1 || b = 2 then (8, s)
    else let r := s.free 8
         (1 + r.1 % 9, r.2)
  (c.2.yieldWith c.1).endYield

/-- A cause of power-off (R451, R452, R460): lasers dark, the yield, the two contacts released, and the
rails go off in order; a sequence that runs takes the cause in, and a module without main power is in
the end state at once. -/
def State.powerOff (s : State) (b t : Nat) : State :=
  if s.sec = zPoweringOff then s.noteCause b true
  else if s.sec = zTripped then s
  else if !s.on .hPwrUp 0 0 then
    let s := s.noteCause b false
    s.setSec s.endState0
  else
    let s := (s.noteCause b false).shutdown 1 t
    let s := (s.powerYield b).releaseLine.wr .hPinReady 0 0 0
    (s.setSec zPoweringOff).wr .hPwrOffStep 0 0 1

/-! ### FATAL and BOOT_FAIL (R431, R457) -/

/-- The main domain is held in reset: both contacts released (R454, R461). -/
def State.holdMain (s : State) (sec alert : Nat) : State :=
  let s := (s.releaseLine.wr .hPinReady 0 0 0).alert alert
  ((s.resetMain true).wr .hStage 0 0 0).setSec sec

/-- BOOT_FAIL with a cause (R457). -/
def State.bootFail (s : State) (cause : Nat) : State :=
  (s.wr .secStatusFailCause 0 0 cause).holdMain zBootFail 4

/-- The image that stage 4 picks boots, or NO_IMAGE (R457, R466). -/
def State.bootImage (s : State) : State :=
  match s.pickImage with
  | some (slot, img) => { s with image := img }.wr .hBootSlot 0 0 (slot + 1)
  | none => s.bootFail 5

/-- FATAL: the first finding that no repair covers is in PRF_RESULT, and the map is written (R431). -/
def State.fatal (s : State) (phase kind unit cause : Nat) : State :=
  let s := s.wrAll [(.prfResultState, 0, 0, 3), (.prfResultPhase, 0, 0, phase), (.prfResultKind, 0, 0, kind),
    (.prfResultUnit, 0, 0, unit), (.prfResultCause, 0, 0, cause)]
  (s.queueFlash .map).holdMain zFatal 3

end Sys2Proof.Machine
end

