-- ==== Sys2Proof/Machine/Fabric.lean ====
section
/-!
DEFINITION. Fabric commands: identity, barrier rounds and steering, tokens, editions, fetch, quiesce,
plant (R276, R349 to R366).
-/

namespace Sys2Proof.Machine

/-- IDENTITY_WRITE: only while no imposition is active and within 0x0001 to 0x03FF (R349). -/
def execIdentityWrite (value : Nat) (s : State) : Res :=
  if s.active.isNone && 1 ≤ value && value ≤ 0x3FF then .next (s.wr .fabIdentityIdentity 0 0 value)
  else .next (s.wr .fabIdentityWriteRefused 0 0 1)

/-! ### Barrier rounds and steering -/

/-- Steers that the completion of barrier b in the running step of forme f triggers (R276, R278). -/
def State.steersOf (s : State) (f b : Nat) : List SteerRec :=
  match s.active, s.variant f with
  | some i, some v =>
    let entry := if v.steps.length = 0 then 0 else s.rd .modFormeStepQ 0 f % v.steps.length
    ((List.range i.steers).map fun x => i.steer x).filter fun r =>
      r.forme = f && r.variant = v.number && r.entry = entry && r.barrier = b
  | _, _ => []

/-- Slots, fibre and data wavelength, whose port bank differs between the route in force of engine k and
another (R275). -/
def State.movedSlots (s : State) (k route : Nat) : List (Nat × Nat) :=
  ((List.range 32).map fun x => (x / 8, x % 8)).filter fun e =>
    s.bankAt k e.2 e.1 != s.bankBy route k e.2 e.1

/-- Rings of the lanes that move: the modulators of both port banks and the filter of each slot (R276). -/
def State.movedRings (s : State) (k route : Nat) : List Nat :=
  (s.movedSlots k route).flatMap fun e => [ringOf (s.bankAt k e.2 e.1) 0 e.2, ringOf e.1 1 e.2]

/-- A steering window opens at engine k (R276): the moved lanes' ring loops are in HOLD, and their receivers
hunt. -/
def State.openWindow (s : State) (k route : Nat) : State :=
  let s := s.each (s.movedRings k route) fun s r => s.holdRing k r 0
  let s := s.each (s.movedSlots k route) fun s e =>
    let n := portOf k (s.bankAt k e.2 e.1)
    if s.lane n e.2 = laneMember then s.wr .lnkLaneState n e.2 laneHunt else s
  ((s.wr .oeStatusSteering k 0 1).wr .oeRouteNext k 0 route).bump .oeRouteSteers k 0 1

/-- Lane w of port n stands on its spare: LS is a member and the lane is not; d is 0 for the transmit
direction, 1 for the receive direction (R252, R275). -/
def State.standsOn (s : State) (n w d : Nat) : Bool :=
  if d = 0 then s.txMember n 8 && !s.txMember n w else s.rxMember n 8 && !s.rxMember n w

/-- The spare of a fibre whose slot passes from one port to another stands in for the other's lane from then
on (R275). -/
def State.steerSpare (s : State) (f w a b : Nat) : State :=
  if f % 2 = 0 then (((s.setTx a 8 false).setTx a w true).setTx b w false).setTx b 8 true
  else (((s.setLane a 8 laneLocked).setLane a w laneMember).setLane b w laneLocked).setLane b 8 laneMember

/-- A use of a fibre's spare whose move has not been carried out goes with its port's lane to the fibre that the
lane uses from then on; where another use holds the spare there, it waits for it (R252, R276; log entry 91). -/
def State.moveUse (s : State) (k f route : Nat) : State :=
  let w := s.rd .oeFibreStatusSpareLane k f
  let j := s.bankAt k w (f / 2)
  let g := 2 * ((List.range 4).find? fun x => s.bankBy route k w x = j).getD j + f % 2
  let use := s.spareUse k f
  if g = f then s
  else
    let s := s.putSpare k f suFree 15
    if s.spareUse k g = suFree then s.putSpare k g use w
    else if use = suCal then s.preemptCal k (f / 2)
    else { s with spareNeeds := s.spareNeeds ++ [⟨k, g, if use = suSudden then 1 else if use = suRetired then 4 else use, w⟩] }

/-- A route comes into force (R275): a lane that stands on a spare stays there and carries from then on the
traffic of the port that the route gives its slot; a move that has not been carried out yet is carried out
after the switch (R276). -/
def State.setRoute (s : State) (k route : Nat) : State :=
  let used := (List.range 8).filter fun f => 1 ≤ s.spareUse k f && s.spareUse k f ≤ 5
  let on := used.filter fun f =>
    s.standsOn (s.fibPort k f (s.rd .oeFibreStatusSpareLane k f)) (s.rd .oeFibreStatusSpareLane k f) (f % 2)
  let s := s.each on fun s f =>
    let w := s.rd .oeFibreStatusSpareLane k f
    let a := s.fibPort k f w
    let b := portOf k (s.bankBy route k w (f / 2))
    if a = b || !s.linkOpen a || !s.linkOpen b then s else s.steerSpare f w a b
  let s := s.each (used.filter fun f => !on.contains f) fun s f => s.moveUse k f route
  (s.wr .oeRouteCurrent k 0 route).wr .oeStatusRoute k 0 route

/-- The window of an engine ends: HOLD ends, and the receivers that aligned are members as before (R276). -/
def State.closeWindow (s : State) (k : Nat) : State :=
  let r := s.rd .oeRouteNext k 0
  let rings := s.movedRings k r
  let s := s.each rings fun s x => s.unholdRing k x
  let s := s.each (List.range 32) fun s x =>
    if s.steered (portOf k (x / 8)) (x % 8) then s.setLane (portOf k (x / 8)) (x % 8) laneMember else s
  (s.wr .oeRouteNext k 0 0x3F).wr .oeStatusSteering k 0 0

/-- BARRIER_ROUND_COMPLETE: the next round of the barrier is complete; its steers open their windows
(R276, R353, R356). -/
def execBarrierRoundComplete (f bar t : Nat) (s : State) : Res :=
  if f < 16 && bar < 64 then
    let s := s.stamp t
    if s.on .hFormeStepRun 0 f && s.roundReady f bar then
      let s := { s with barDone := s.barDone.put (f, bar) (s.rounds f bar + 1) }
      .next (s.each (s.steersOf f bar) fun s r =>
        s.each (bitsSet r.engines 8) fun s k => s.openWindow k r.route)
    else .next s
  else .fault .noSuchUnit

/-- STEER_WINDOW_END: the route is in force; lanes not aligned leave as a failed lane does (R276, R313). -/
def execSteerWindowEnd (k : Nat) (unaligned : List (Nat × Nat)) (t : Nat) (s : State) : Res :=
  if k < 8 && unaligned.all fun e => e.1 < 4 && e.2 < 8 then
    let s := s.stamp t
    if s.on .oeStatusSteering k 0 then
      let s := (s.closeWindow k).setRoute k (s.rd .oeRouteNext k 0)
      .next (s.each unaligned fun s e => s.laneOut (portOf k e.1) e.2 t)
    else .next s
  else .fault .noSuchUnit

/-! ### Tokens and editions -/

/-- TOKEN_REPEAT: entries that changed within 2^18 ticks go out again (R357). -/
def execTokenRepeat (n t : Nat) (s : State) : Res :=
  s.atPort n t fun s => if s.lState n = lUp && s.fabricPort n then s.repeatTokens n else s

/-- A frame is released by EDITION e: its tag is e or earlier (R361). -/
def releasedBy (e tag : Nat) : Bool := (e + 2 ^ 32 - tag % 2 ^ 32) % 2 ^ 32 < 2 ^ 31

/-- EDITION: the peer's edition is kept, and retained frames tagged with it or earlier are released
(R359, R361, R366). -/
def execEditionToken (n : Nat) (b : Byp) (edition t : Nat) (s : State) : Res :=
  s.byp n b 0x80 edition t fun s =>
    if n < 32 then
      let s := (s.wr .fabPortPeerEdition 0 n edition).wr .hFabEdition 0 n (edition % 2 ^ 32 + 1)
      let x := s.link n
      let s := s.setLink n { x with retained := x.retained.filter fun f => !releasedBy edition f.edition }
      s.settleLink n
    else s

/-- EDITION_REPEAT: EDITION goes out again (R359). -/
def execEditionRepeat (n t : Nat) (s : State) : Res :=
  s.atPort n t fun s => if s.lState n = lUp then s.sendEdition n else s

/-- EDITION_STALLED: a wait on peers passed 2^30 ticks; the forme keeps waiting (R360). -/
def execEditionStalled (f t : Nat) (s : State) : Res :=
  if f < 16 then
    let s := s.stamp t
    if s.rd .fabStatusState 0 0 = 2 && (s.fabricForme.map Forme.number) = some f &&
        2 ^ 30 < t - s.rd .hFormeWaitTick 0 f then
      .next (s.wr .fabStatusEditionStalled 0 0 1)
    else .next s
  else .fault .noSuchUnit

/-! ### Fetch, quiesce, plant -/

/-- The oldest retained frame's number (R362). -/
def oldestSeq : List LFrame → Option Nat
  | [] => none
  | f :: l =>
    match oldestSeq l with
    | none => some f.seq
    | some q => some (if seqGe q f.seq then f.seq else q)

/-- The forme of port n replays, or the module takes over (R389). -/
def State.replaying (s : State) (n : Nat) : Bool :=
  s.role = rTakingOver || s.on .modFormeStatusReplay 0 (s.portForme n)

/-- FETCH: acknowledged; retained frames from the base on are sent again with `again` clear, unless
this module replays and sends them anew; a frame at the base that was lost sets retain_lost (R362, R389). -/
def execFetch (n : Nat) (b : Byp) (base t : Nat) (s : State) : Res :=
  s.byp n b 0x81 base t fun s =>
    s.receiveReq n 0x81 (base % 2 ^ 20) b.reqno 0 fun s =>
      let x := s.link n
      if s.replaying n then s
      else
        let k := extend ((oldestSeq x.retained).getD (s.txNext n 0)) base
        let s := if n < 32 && seqGt (s.txNext n 0) k && !x.retained.any fun f => f.seq = k then
          s.wr .galStatusRetainLost (n / 8) 0 1 else s
        let fs := x.retained.filter fun f => seqGe f.seq k && !x.resendQ.any fun e => e.1 = f
        s.setLink n { x with resendQ := x.resendQ ++ fs.map fun f => (f, false) }

/-- FETCH_ACK: fetch_pending clears (R362). -/
def execFetchAck (n : Nat) (b : Byp) (base t : Nat) (s : State) : Res :=
  s.byp n b 0x82 base t fun s =>
    s.receiveAck n 0x82 base b.reqno fun s => if n < 32 then s.wr .fabPortFetchPending 0 n 0 else s

/-- QUIESCE received with an edition (R366). -/
def execQuiesce (n : Nat) (b : Byp) (edition t : Nat) (s : State) : Res :=
  s.byp n b 0x83 edition t fun s =>
    s.setLink n { s.link n with quiesceGot := some (edition % 2 ^ 32) }

/-- QUIESCE_TIMEOUT: a port not QUIESCED in time goes down and counts (R319, R366). -/
def execQuiesceTimeout (n t : Nat) (s : State) : Res :=
  s.atPort n t fun s =>
    if s.fabricPort n && s.downCase n 6 t then
      let s := (s.linkDown n 6 t).bump .fabCountsQuiesceTimeouts 0 0 1
      if s.allQuiesced then s.wr .fabStatusState 0 0 4 else s
    else s

/-- A 16-bit two's-complement value. -/
def sext16 (x : Nat) : Int := if x % 2 ^ 16 < 2 ^ 15 then Int.ofNat (x % 2 ^ 16)
  else Int.ofNat (x % 2 ^ 16) - 2 ^ 16

/-- PLANT: a loss from this port's S4 to the peer's S5 above 9.0 dB is a plant fault (R365, R521). -/
def execPlant (n : Nat) (b : Byp) (w s5 t : Nat) (s : State) : Res :=
  s.byp n b 0x84 (w * 2 ^ 28 + s5) t fun s =>
    if n < 32 && w < 10 then
      let s4 := s.rd .oeMonS4 (n / 4) (10 * (n % 4) + w)
      let loss := sext16 s4 - sext16 s5
      if s4 != 0x8000 && 900 < loss then
        ((s.wr .fabPortPlantFault 0 n 1).wr .fabPortPlantWavelength 0 n w).wr .fabPortPlantExcess 0 n
          (min 255 ((loss - 900) / 10).toNat)
      else s
    else s

/-- PLANT_TIMER: PLANT goes out for each lit wavelength of the receive fibre (R352). -/
def execPlantTimer (n t : Nat) (s : State) : Res :=
  s.atPort n t fun s =>
    if s.lState n = lUp then
      s.each (List.range 10) fun s w =>
        let s5 := s.rd .oeMonS5 (n / 4) (10 * (n % 4) + w)
        if s5 = 0x8000 then s else s.sendByp n 0x84 (w * 2 ^ 28 + s5) 0
    else s

end Sys2Proof.Machine
end

