-- ==== Sys2Proof/Machine/Galley.lean ====
section
/-!
DEFINITION. The galley and memory commands (chapter 5): unscheduled requests, late transfers,
scrub, refresh, uncorrectable errors, held accesses, acknowledged drains.
-/

namespace Sys2Proof.Machine

/-! ### Arbitration (R143, R147, R149, R150) -/

/-- Bank set that phase ph addresses in the slice's present cycle (R143). -/
def State.bankSet (s : State) (c ph : Nat) : Nat := (ph + s.rd .galCycleCycle c 0) % 8

/-- The slots before the slice's present cycle have passed, and then the late transfer on its list moves its
next lines (R146, R147). -/
def State.moveLate (s : State) (f : Nat) (x : LateXfer) : State :=
  let s := s.slotsBefore f x.chase (s.rd .galCycleCycle x.chase 0)
  match s.drains.find? fun d => d.forme = f && d.chase = x.chase && d.code = x.code && !d.moved &&
      d.next = x.nextLine with
  | some d => s.moveTo d (groupEnd d.next)
  | none => s

/-- The first of each requester; the others wait (R149). -/
def firstOf : List GalReq → List GalReq
  | [] => []
  | r :: l => r :: (firstOf l).filter fun x => !decide (x.code = r.code)

/-- The request that each requester presents: its oldest, and within an engine that of the lower port
number (R149). -/
def oldestOf (l : List GalReq) : List GalReq :=
  firstOf (l.filter fun r => l.all fun x => x.code != r.code || r.port ≤ x.port)

/-- A requester whose refusal count reached 16 is promoted (R150). -/
def State.promoted (s : State) (c code : Nat) : Bool := 16 ≤ s.rd .hGalRefusals c code

/-- Whether request a goes before request b: promotion, then class and code (R149, R150). -/
def State.before (s : State) (c : Nat) (a b : GalReq) : Bool :=
  if s.promoted c a.code = s.promoted c b.code then a.code ≤ b.code else s.promoted c a.code

/-- The request that is granted among those of one bank. -/
def State.winner (s : State) (c : Nat) : List GalReq → Option GalReq
  | [] => none
  | a :: l =>
    match s.winner c l with
    | none => some a
    | some b => some (if s.before c a b then a else b)

/-- The access that a request makes in slice c. -/
def reqAccess (c : Nat) (r : GalReq) : Access :=
  ⟨c, true, r.line * 256 + r.off, r.len, r.data, ⟨r.ce.map fun w => .galley c (r.line * 32 + w), false⟩,
    .unit r.code⟩

/-- Grant of one bank: the winner's access is performed, the others are refused (R149, R150). -/
def State.grantBank (s : State) (c : Nat) (reqs : List GalReq) (bank : Nat) : State :=
  let here := reqs.filter fun r => r.line % 64 = bank
  match s.winner c here with
  | none => s
  | some w =>
    let s := s.each (here.filter fun r => !decide (r.code = w.code)) fun s r =>
      s.bump .hGalRefusals c r.code 1
    let s := if s.promoted c w.code then s.bump .galArbCountsPromotions c 0 1 else s
    let s := (s.wr .hGalRefusals c w.code 0).bump .galArbCountsGrants c 0 1
    if w.code = 24 then s
    else s.access (reqAccess c w)

/-- The late transfer that takes a free slot of its own forme's phase: lowest requester code, then
the first dispatched or started (R147). -/
def State.lateTaker (s : State) (c ph : Nat) : Option LateXfer :=
  let owner := s.rd .galPhaseMapForme c ph
  let able := s.lateXfers.filter fun x =>
    x.chase = c && (s.galAttr c x.nextLine).2 = owner && setOf x.nextLine = s.bankSet c ph
  able.find? fun x => able.all fun y => x.code < y.code || (x.code = y.code && x.order ≤ y.order)

/-- A late transfer moves its next lines, up to the end of their aligned group of eight (R146). -/
def LateXfer.advance (x : LateXfer) : Option LateXfer :=
  let next := groupEnd x.nextLine
  if x.lastLine < next then none else some { x with nextLine := next }

/-- The first entry equal to x replaced by what it becomes. -/
def replaceFirst (x : LateXfer) (y : Option LateXfer) : List LateXfer → List LateXfer
  | [] => []
  | z :: l => if z = x then y.toList ++ l else z :: replaceFirst x y l

/-- UNSCHEDULED_REQUEST: one galley cycle of one slot. A held slot goes to the transfer of its
reservation and to no requester (R31, R146); a late transfer takes a free slot whole (R147); else each
bank of its set is granted (R149, R150). DESIGN CHOICE: the banks of a free slot are granted each for
itself, so that one may read while another writes; R143's one direction a slot is kept by the scheduled
transfers (log entry 78). -/
def execUnscheduledRequest (c phase : Nat) (reqs : List GalReq) (s : State) : Res :=
  if c < 4 && phase < 8 && reqs.all fun r =>
      3 ≤ r.code && r.code ≤ 24 && (r.code != 23 || c = 0) && r.off + r.len ≤ 256 then
    let f := s.rd .galPhaseMapForme c phase
    match s.holder f c phase with
    | some r => .next (s.moveSlot f c r (s.bankSet c phase))
    | none => match s.lateTaker c phase with
      | some x =>
        .next (({ s with lateXfers := replaceFirst x x.advance s.lateXfers } : State).moveLate f x)
      | none =>
        let reqs := if s.limits c true then [] else reqs
        let gone := reqs.filter fun r => galLines ≤ r.line
        let live := oldestOf (reqs.filter fun r => r.line < galLines)
        let s := s.each gone fun s r => s.answerFault (reqAccess c r) 1
        let banks := (List.range 8).map fun i => 8 * s.bankSet c phase + i
        let quiet := live.filter fun r =>
          r.code != 24 || !live.any fun x => x.code != 24 && x.line % 64 = r.line % 64
        .next (s.each banks fun s b => s.grantBank c quiet b)
  else .fault .noSuchUnit

/-- LATE_TRANSFER: late_transfer is set, the step of the lines' forme is late, and the remaining lines
move in free slots (R147). -/
def execLateTransfer (c code order nextLine lastLine : Nat) (s : State) : Res :=
  if c < 4 && code < 19 && nextLine ≤ lastLine && lastLine < galLines then
    let s := s.wr .galStatusLateTransfer c 0 1
    let f := (s.galAttr c nextLine).2
    let s := if f < 16 then s.wr .hFormeLateStep 0 f 1 else s
    .next { s with lateXfers := s.lateXfers ++ [⟨c, code, order, nextLine, lastLine⟩] }
  else .fault .noSuchUnit

/-! ### Scrub and refresh -/

/-- GALLEY_SCRUB: the bank's next line is read; a corrected word is written back and counts
(R162); a LIMITING rail suspends the scrub (R398). -/
def execGalleyScrub (c bank : Nat) (ce : Option Nat) (s : State) : Res :=
  if c < 4 && bank < 64 then
    if s.limits c true then .next s else
    let k := s.rd .hGalScrubLine c bank
    let s := s.wr .hGalScrubLine c bank ((k + 1) % 24576)
    match ce with
    | none => .next s
    | some w => .next (s.galCe c 24 false (k * 64 + bank) (w % 32))
  else .fault .noSuchUnit

/-- Refresh multiplier of a band (R161). -/
def refreshMult (band : Nat) : Nat := if band ≤ 1 then 1 else if band = 2 then 2 else 4

/-- STACK_REFRESH: the channel refreshes its next bank, and a new band takes effect there (R161). -/
def execStackRefresh (m channel : Nat) (s : State) : Res :=
  if m < 16 && channel < 64 then
    .next ((s.wr .hMemRefreshBank m channel (s.rd .hMemRefreshBank m channel + 1)).wr .hMemChanBand m
      channel (s.rd .memStatusBand m 0))
  else .fault .noSuchUnit

/-- PATROL_SCRUB: the next burst is read; a corrected one counts (R163); a LIMITING rail suspends the scrub
(R398). -/
def execPatrolScrub (m : Nat) (ce : Option BurstErr) (s : State) : Res :=
  if m < 16 then
    if s.limits (m / 4) false then .next s else
    let s := s.wr .hMemPatrol m 0 (s.rd .hMemPatrol m 0 + 1)
    match ce with
    | none => .next s
    | some b => .next (s.memCe m b)
  else .fault .noSuchUnit

/-- SCRUB_LATE: a pass overran 2^36 ticks (R163). -/
def execScrubLate (m t : Nat) (s : State) : Res :=
  if m < 16 then .next ((s.stamp t).wr .memStatusScrubLate m 0 1) else .fault .noSuchUnit

/-! ### Uncorrectable errors -/

/-- 64-bit words of a line that core n filled are marked bad in its L2 (R478). -/
def State.markBad (s : State) (n : Nat) (words : List Nat) : State :=
  { s with badWords := (words.map fun a => (n, a)) ++
      s.badWords.filter fun e => !(decide (e.1 = n) && words.contains e.2) }

/-- ue, the address log and the suspect entry of an error in a line of slice c that requester `code` read (R164,
R441). -/
def State.logGal (s : State) (c code line word : Nat) (sched : Bool) : State :=
  let s := (((s.wr .galEccAddrRequester c 0 code).wr .galEccAddrSched c 0 (b2n sched)).wr
    .galEccAddrLine c 0 line).wr .galEccAddrWord c 0 word
  (s.wr .galStatusUe c 0 1).suspect 4 c (galPlace line) word

/-- The same of an error in a burst of stack m (R164, R441). -/
def State.logMem (s : State) (m : Nat) (x : StackPos) : State :=
  let s := ((((s.wr .memEccAddrChannel m 0 x.channel).wr .memEccAddrBank m 0 x.bank).wr
    .memEccAddrRow m 0 x.row).wr .memEccAddrBurst m 0 (x.byte / 64)).wr .memEccAddrSymbols m 0 15
  (s.wr .memStatusUe m 0 1).suspect 5 m (stackPlace x.channel x.bank x.row) (x.byte / 64)

/-- An error in what requester `code` keeps in slice c in a place of its own choice: which line and word that is,
is a free value (R164; log entry 39). -/
def State.logKept (s : State) (c code : Nat) : State :=
  let a := s.free 21
  let b := a.2.free 5
  b.2.logGal c code (a.1 % galLines) b.1 true

/-- ue, the address log and the suspect entry of an uncorrectable error, and the access fault of a
core whose own read met it, with the words that it marks: of a stack the eight of the burst, which one code
checks (R164, R441, R478; log entry 39). -/
def State.logUe (s : State) (u : UeSite) : State :=
  match u with
  | .galley c code line word sched =>
    let s := s.logGal c code line word sched
    if 19 ≤ code && code ≤ 22 then
      let a := galBase c + line * 256 + word * 8
      (s.coreFault (4 * c + code - 19) 3 a).markBad (4 * c + code - 19) [a]
    else if code = 23 then s.send (.galFault c code (line * 256 + word * 8) 3)
    else s
  | .stack c code addr _ =>
    let x := stackPos (s.memMode c addr) addr
    let m := 4 * c + x.stack
    let s := s.logMem m x
    if 19 ≤ code && code ≤ 22 then
      (s.coreFault (4 * c + code - 19) 3 (memBase c + addr)).markBad (4 * c + code - 19)
        ((List.range 8).map fun i => memBase c + addr / 64 * 64 + 8 * i)
    else if code = 23 then s.send (.galFault c code addr 3)
    else s
  | .retained q vc seq =>
    let x := s.link q
    (((s.wr .galStatusRetainLost (q / 8) 0 1).setLink q { x with
      retained := x.retained.filter fun y => !(y.vc = vc && y.seq = seq) }).settleLink q).send (.retainLost q)
  | .unacked q vc seq =>
    let c := q / 8
    if (s.link q).spilled.contains (vc, seq) then
      let a := s.free 38
      let x := stackPos 0 a.1
      a.2.logMem (4 * c + x.stack) x
    else s.logKept c (12 + q / 4 % 2)
  | .held c col _ => s.logKept c (if col then 3 else 4)

/-- The line is in a unit that the module has. -/
def ueOk (u : UeSite) : Bool :=
  match u with
  | .galley c code line word _ => c < 4 && code < 32 && line < galLines && word < 32
  | .stack c code addr _ => c < 4 && code < 32 && addr < 2 ^ 38
  | .retained q vc seq => q < 32 && vc < 3 && seq < 2 ^ 48
  | .unacked q vc seq => q < 32 && vc < 3 && seq < 2 ^ 48
  | .held c _ f => c < 4 && f < 16

/-- Attribute and owner of the line; a frame that awaits its acknowledgement is its sending forme's, and a
held value its job's (R152, R169, R196). -/
def State.ueAttr (s : State) (u : UeSite) : Nat × Nat :=
  match u with
  | .galley c _ line _ _ => s.galAttr c line
  | .stack c _ addr _ => s.memAttr c addr
  | .retained _ _ _ => (0, 255)
  | .unacked q vc seq =>
    match (s.link q).unacked.find? fun y => y.vc = vc && y.seq = seq with
    | some y => (2, y.forme)
    | none => (0, 255)
  | .held _ _ f => (2, f)

/-- The error lies in the copy that holds the checkpoint of the forme's edition in hand: the
region that its in_region views (R165, R228). -/
def State.inCheckpoint (s : State) (f : Nat) (u : UeSite) : Bool :=
  match u, s.forme f with
  | .stack c _ addr _, some x =>
    x.ckpts.any fun e =>
      let b := if s.rd .modFormeEditionEdition 0 f % 2 = 0 then e.band0 else e.band1
      e.chase = c && b ≤ addr / 2 ^ 23 && addr / 2 ^ 23 ≤ b + e.bandsM1
  | _, _ => false

/-- A final error in the checkpoint region: a yield with a live partner, else the forme parks
(R165, R231, R383). -/
def State.checkpointLost (s : State) (f t : Nat) : State :=
  if s.livePartner then s.yieldWith 2
  else
    let k := b2n (s.fState f != fAbandoning)
    let s := (s.stopUnits f).parkForme f parkCkpt true
    let s := (s.wr .modFormeStatusCause 0 f causeUe).bump .modFormeCountsAbandons 0 f k
    s.wr .hFormeAbTick 0 f t

/-- A forme is at work on an edition (R231). -/
def State.atWork (s : State) (f : Nat) : Bool :=
  s.fState f = fRunning || s.fState f = fClosing || s.fState f = fAbandoning

/-- UNCORRECTABLE_ERROR: ue and the log; the owning forme abandons, or parks with CHECKPOINT_LOST or
yields for an error in the checkpoint (R164, R165); a standby's mirrored data asks for a resync
(R382); a frame kept only for a pair sets retain_lost (R169). -/
def execUncorrectableError (u : UeSite) (t : Nat) (s : State) : Res :=
  if ueOk u then
    let s := (s.stamp t).logUe u
    let a := s.ueAttr u
    if (a.1 = 1 || a.1 = 2) && a.2 < 16 then
      if s.role = rStandby then
        .next (if s.mirroredFormes.any (fun f => f.number = a.2) then s.wr .pairFormeSync 0 a.2 2 else s)
      else if s.inCheckpoint a.2 u then
        if s.atWork a.2 && !s.commitDue a.2 then .next (s.checkpointLost a.2 t)
        else .next (if s.fState a.2 = fNone then s else s.wr .hFormeCkptPend 0 a.2 1)
      else .next (s.abandon a.2 causeUe t)
    else .next s
  else .fault .noSuchUnit

/-- CORE_LINE_UE: an error in a CORE or REFILL line or a module-owned range is logged, its reader
gets an access fault, and no edition is abandoned; a REFILL line is dropped until memory refill fetches it
again (R166). -/
def execCoreLineUe (u : UeSite) (t : Nat) (s : State) : Res :=
  if ueOk u then
    let s := (s.stamp t).logUe u
    match u with
    | .galley c _ line _ _ =>
      if (s.galAttr c line).1 = 3 && !s.dropped.contains (c, line) then
        .next { s with dropped := (c, line) :: s.dropped }
      else .next s
    | _ => .next s
  else .fault .noSuchUnit

/-- HELD_ACCESS_RELEASE: once forme f's step has ended, the accesses held on it complete (R153, R154); one
that waited for a free slot alone completes as soon as the slice has one (R31). DESIGN CHOICE: a step that
is abandoned has ended (log entry 78). -/
def execHeldAccessRelease (f : Nat) (s : State) : Res :=
  if f < 16 then .next (s.releaseHeld f) else .fault .noSuchUnit

/-! ### Drains -/

/-- A mirrored drain is sent on the forme's pair-link port, unit by unit; while it has none that is UP, the drain goes
with the move that a port coming UP makes (R376, R380). -/
def State.mirrorDrain (s : State) (d : SlotXfer) : State :=
  match s.mirroredFormes.find? fun f => f.number = d.forme with
  | none => s
  | some f =>
    match s.mirrorPort f with
    | none => if s.protectionOf f = 2 then s.wr .hPairPortGone 0 f.number 1 else s
    | some q =>
      if s.protectionOf f = 1 then
        let mode := s.memMode d.chase d.memAddr
        s.each (List.range (d.lineHi - d.lineLo)) fun s i =>
          let a := unitAddrs mode (d.code - 15) d.memAddr i
          let s := s.mirrorWrites q f.number d.chase (s.edition f.number) a.1 2
          s.mirrorWrites q f.number d.chase (s.edition f.number) a.2 2
      else s

/-- The oldest drain of forme f into its out_region is acknowledged (R229, R376). -/
def State.ackDrain (s : State) (f : Nat) : State :=
  match s.drains.find? fun d => d.forme = f && d.toOut with
  | none => s
  | some d =>
    let s := if d.moved then s else s.finishXfer d
    ({ s with drains := s.drains.eraseP fun d => d.forme = f && d.toOut }).mirrorDrain d

end Sys2Proof.Machine
end

