-- ==== Sys2Proof/Machine/PowerBase.lean ====
section
/-!
DEFINITION. The power controller at a step boundary: operating points (R401 to R404, R409, R410,
R412), thermal throttle (R424, R425), droop storms (R420), the floor (R413 to R415).
-/

namespace Sys2Proof.Machine

/-- Supply of an operating point in mV (R401). -/
def pointMv (p : Nat) : Nat :=
  if p = 0 then 800 else if p = 1 then 750 else if p = 2 then 680 else if p = 3 then 610 else 550

/-- Scale of an operating point in hundredths (R401). -/
def pointScale (p : Nat) : Nat :=
  if p = 0 then 125 else if p = 1 then 100 else if p = 2 then 66 else if p = 3 then 40 else 22

/-- Operating point of press p: its forme's, P1 before the forme runs (R402). -/
def State.pressPoint (s : State) (p : Nat) : Nat :=
  match s.formeOfPress p with
  | none => 1
  | some f => if s.fState f.number ≤ fLoaded then 1 else s.rd .pwrFormePoint 0 f.number

/-- Energy of n watts over one sample, in units of 0.01 pJ / 750³ (R405). -/
def sampleUnits (watts : Nat) : Nat := watts * 204800000 * 421875000

/-- Samples of the decision window (R408). -/
def decisionLen : Nat := 512

/-- Samples of the compliance window (R408). -/
def complianceLen : Nat := 8192

/-- Energy of the last n samples: the greater of estimate and measurement (R407, R408). -/
def State.windowEnergy (s : State) (n : Nat) : Nat :=
  let l := s.samples.take n
  max (l.map PwrSample.energy).sum (l.map fun x => sampleUnits x.input).sum

/-- A forme's energy in the decision window, and its press dynamic energy. -/
def State.formeEnergy (s : State) (f : Nat) : Nat × Nat :=
  let l := (s.samples.take decisionLen).map fun x => x.formes.getD f (0, 0)
  ((l.map Prod.fst).sum, (l.map Prod.snd).sum)

/-- The cap in watts (R409). -/
def State.cap (s : State) : Nat := s.rd .pwrCtrlCap 0 0

/-- The hold estimate H in watts (R406). -/
def State.holdW (s : State) : Nat := s.rd .pwrStatusHoldW 0 0

/-- The decision-window mean exceeds the cap (R409). -/
def State.aboveCap (s : State) : Bool :=
  decide (decisionLen * sampleUnits s.cap < s.windowEnergy decisionLen)

/-- Formes that run. -/
def State.runningFormes (s : State) : List Nat :=
  s.formeNums.filter fun f => s.fState f = fRunning || s.fState f = fClosing

/-- Fixed-frequency mode (R412). -/
def State.fixedMode (s : State) : Bool := s.on .pwrCtrlFixed 0 0

/-- The point of fixed-frequency mode; 5 to 7 are taken as 4 (PWR_CTRL). -/
def State.fixedPoint (s : State) : Nat := min 4 (s.rd .pwrCtrlFixedPoint 0 0)

/-! ### Domains (R421, R424) -/

/-- A forme owns something on chase c. -/
def State.onChase (s : State) (f : Forme) (c : Nat) : Bool :=
  [3 * c, 3 * c + 1, 3 * c + 2].any (fun p => bit f.pressSet p) ||
    [2 * c, 2 * c + 1].any (fun k => bit f.engineSet k) ||
    (List.range 32).any (fun n =>
      s.on .galRangeValid c n && s.rd .galRangeForme c n = f.number && s.rd .galRangeAttr c n != 0) ||
    (List.range 16).any fun n =>
      s.on .memRegionValid (4 * c) n && s.rd .memRegionForme (4 * c) n = f.number &&
        s.rd .memRegionAttr (4 * c) n != 0

/-- Forme f touches domain d (R424). -/
def State.touches (s : State) (f : Forme) (d : Nat) : Bool :=
  if d < 12 then bit f.pressSet d
  else if d < 16 then s.onChase f (d - 12)
  else if d < 32 then s.onChase f ((d - 16) / 4)
  else d < 40 && bit f.engineSet (d - 32)

/-- Domains that a forme touches. -/
def State.domains (s : State) (f : Nat) : List Nat :=
  match s.forme f with
  | none => []
  | some x => (List.range 42).filter fun d => s.touches x d

/-- Highest band among the domains of a forme (R424). -/
def State.formeBand (s : State) (f : Nat) : Nat :=
  (s.domains f).foldl (fun b d => max b (s.rd .thmDomainBand 0 d)) 0

/-- Halvings of the thermal duty d_t of a forme: the lowest duty of its domains (R425). -/
def State.formeDuty (s : State) (f : Nat) : Nat :=
  (s.domains f).foldl (fun k d => max k (s.rd .hThmDuty 0 d)) 0

/-! ### Points (R402, R403, R409, R410, R412, R420, R424, R425) -/

/-- The forme takes a point, which counts (R402). -/
def State.setPoint (s : State) (f p t : Nat) : State :=
  if s.rd .pwrFormePoint 0 f = p then s
  else
    (((s.wr .pwrFormePoint 0 f p).bump .pwrFormePointChanges 0 f 1)).wr .hFormePtTick 0 f (t + 1)

/-- P0 is allowed (R403). -/
def State.boostOk (s : State) (f : Nat) : Bool :=
  s.on .pwrCtrlBoost 0 0 && decide (s.formeBand f < 3)

/-- The point at which fixed-frequency mode holds forme f: the one named, but P1 while P0 is not allowed (R403, R412,
R424; log entry 61). -/
def State.fixedTarget (s : State) (f : Nat) : Nat :=
  if s.fixedPoint = 0 && !s.boostOk f then 1 else s.fixedPoint

/-- A droop storm holds the forme below point p (R420). -/
def State.stormHolds (s : State) (f p t : Nat) : Bool :=
  let q := s.rd .hFormeStormPoint 0 f
  q != 0 && p + 1 < q && t < s.rd .hFormeStormTick 0 f + 2 ^ 30

/-- The three conditions of a raise (R410). -/
def State.raiseOk (s : State) (f t : Nat) : Bool :=
  let p := s.rd .pwrFormePoint 0 f
  p != 0 && !(s.formeNums.any fun g => s.on .pwrFormeFloor 0 g) &&
    decide (100 * (s.windowEnergy decisionLen * pointScale p +
        (s.formeEnergy f).2 * (pointScale (p - 1) - pointScale p)) ≤
      95 * (decisionLen * sampleUnits s.cap) * pointScale p) &&
    (p != 1 || s.boostOk f) && !s.stormHolds f (p - 1) t

/-- Forme g comes before forme f in the order of raises (R410). -/
def State.raisedBefore (s : State) (g f : Nat) : Bool :=
  let a := s.rd .pwrFormePoint 0 g
  let b := s.rd .pwrFormePoint 0 f
  b < a || (a = b && g < f)

/-- The forme that the cap lowers: the running forme of highest mean power that is not at P4, the lower
number on a tie (R409). -/
def State.hottest (s : State) : Option Nat :=
  let l := s.runningFormes.filter fun g => s.rd .pwrFormePoint 0 g != 4
  l.find? fun g => l.all fun h =>
    (s.formeEnergy h).1 < (s.formeEnergy g).1 || ((s.formeEnergy h).1 = (s.formeEnergy g).1 && g ≤ h)

/-- The point that the rules want for forme f at its step boundary (R403, R409, R410, R412, R420, R424, R425): in
fixed-frequency mode it moves to the fixed point, to P0 only where the raise rule allows it too (R403). -/
def State.wantPoint (s : State) (f t : Nat) : Nat :=
  let p := s.rd .pwrFormePoint 0 f
  let q := s.fixedTarget f
  if s.fixedMode then
    (if p < q then p + 1 else if q < p && (p != 1 || s.raiseOk f t) then p - 1 else p)
  else if s.formeBand f = 4 || s.on .hFormeStormPend 0 f || (p = 0 && !s.boostOk f) ||
      (s.aboveCap && s.hottest = some f) then min 4 (p + 1)
  else if s.raiseOk f t && s.runningFormes.all fun g => !(s.raisedBefore g f && s.raiseOk g t) then p - 1
  else p

/-- The point of forme f changes at a step boundary, at most once in 2^20 ticks (R402). A storm's
lowering holds for 2^30 ticks (R420). -/
def State.pointStep (s : State) (f t : Nat) : State :=
  let last := s.rd .hFormePtTick 0 f
  if last != 0 && t + 1 < last + 2 ^ 20 then s
  else
    let q := s.wantPoint f t
    if s.on .hFormeStormPend 0 f then
      (((s.setPoint f q t).wr .hFormeStormPend 0 f 0).wr .hFormeStormPoint 0 f (q + 1)).wr
        .hFormeStormTick 0 f t
    else s.setPoint f q t

/-! ### The floor (R411, R413 to R415) -/

/-- Sum and number of the active samples that give A (R413); none: A is H. -/
def State.activeMean (s : State) (f : Nat) : Option (Nat × Nat) :=
  let l := (s.samples.take decisionLen).filter PwrSample.active
  if l.length != 0 then some ((l.map PwrSample.energy).sum, l.length)
  else if s.rd .hFormeActNum 0 f != 0 then
    some (s.rd .hFormeActSum 0 f, s.rd .hFormeActNum 0 f)
  else none

/-- t × (1 - d) / d for the duty that the cap gives: t × (A - cap) / (cap - H), rounded down (R413). -/
def State.capDebt (s : State) (f t : Nat) : Nat :=
  match s.activeMean f with
  | none => 0
  | some (sum, n) =>
    t * (sum - n * sampleUnits s.cap) / (n * (sampleUnits s.cap - sampleUnits s.holdW))

/-- Idle debt of forme f. -/
def State.debt (s : State) (f : Nat) : Int := s.idleDebt.getD f 0

/-- The state with the idle debt set. -/
def State.setDebt (s : State) (f : Nat) (b : Int) : State :=
  { s with idleDebt := s.idleDebt.putD f b 0 }

/-- Nominal duration of the step that forme f releases next. -/
def State.nextNominal (s : State) (f : Nat) : Nat :=
  match s.variant f with
  | none => 0
  | some v => ((v.step (s.rd .hFormeNextQ 0 f)).map StepEntry.nominal).getD 0

/-- One idle step is inserted while the debt is positive; else none runs (R413). -/
def State.idleNext (s : State) (f : Nat) : State :=
  if 0 < s.debt f then
    ((s.setDebt f (s.debt f - Int.ofNat (s.nextNominal f))).bump .pwrFormeIdleSteps 0 f 1).wr
      .hFormeIdle 0 f 1
  else s.wr .hFormeIdle 0 f 0

/-- The idle-step rule at a step boundary of forme f: where the stall budget of the completed step was spent, or a
thermal duty is below 1 (R413, R425). Elsewhere the forme leaves the rule (log entry 61). -/
def State.idleRule (s : State) (f : Nat) : State :=
  let spent := decide (s.rd .hFormeStallBudget 0 f ≤ s.rd .hFormeStallMax 0 f)
  let dt := s.formeDuty f
  if (s.rd .pwrFormePoint 0 f = 4 || s.fixedMode) && (spent || dt != 0) then
    let t := s.rd .hFormeDoneTick 0 f - s.rd .hFormeRelTick 0 f
    let add := max (s.capDebt f t) (t * (2 ^ dt - 1))
    if add = 0 then (s.setDebt f 0).wr .pwrFormeFloor 0 f 0
    else ((s.setDebt f (s.debt f + Int.ofNat add)).wr .pwrFormeFloor 0 f 1).idleNext f
  else (s.setDebt f 0).wr .pwrFormeFloor 0 f 0

/-- The controller at a step boundary of forme f, before its next release: park (R415), else the point
and the idle-step rule. -/
def State.powerBoundary (s : State) (f t : Nat) : State :=
  if s.cap ≤ s.holdW then s.parkForme f parkCap false
  else (s.pointStep f t).idleRule f

end Sys2Proof.Machine
end

