-- ==== Sys2Proof/Machine/Formes.lean ====
section
/-!
DEFINITION. Formes: selection of a variant, the edition boundary, steps, commit, abandonment and replay
(R204, R223 to R240, R277, R309, R354, R358 to R362, R376 to R382, R433, R530).
-/

namespace Sys2Proof.Machine

/-! ### Selection (R236 to R238) -/

/-- Engine k is out of service for forme x: it failed, its die link or its rail is down, or every port of the
forme on it is dark (R236). In a takeover its ports are still to be lit (R387). -/
def State.engineOut (s : State) (x : Forme) (k : Nat) : Bool :=
  s.on .hOeFailed k 0 || decide (s.dieWidth (4 + k) = 3) || s.rd .pwrRailState 0 (20 + k / 2) = 3 ||
    (s.role != rTakingOver && s.portsDark x k)

/-- Engine k is lost to forme x: out of service, or out of service before and not yet taken back (R236). -/
def State.engineLost (s : State) (x : Forme) (k : Nat) : Bool :=
  s.engineOut x k || (s.role != rTakingOver && s.on .hOeLost k 0)

/-- At a boundary an engine is noted as lost, or taken back once one of its ports is UP and its die link is up
(R236). -/
def State.judgeEngines (s : State) (x : Forme) : State :=
  s.each (bitsSet x.engineSet 8) fun s k =>
    if s.engineOut x k then s.wr .hOeLost k 0 1
    else if (bitsSet x.portSet 32).any fun q => q / 4 = k && s.lState q = lUp then s.wr .hOeLost k 0 0
    else s

/-- Every press and engine that variant v uses is there (R237). -/
def State.usable (s : State) (x : Forme) (v : Variant) : Bool :=
  (bitsSet v.pressMask 12).all (fun p => s.pState p != pFailed) &&
    (bitsSet v.engineMask 8).all fun k => !s.engineLost x k

/-- Variant v fits every die link's present width (R237). -/
def State.fitsLinks (s : State) (v : Variant) : Bool :=
  (List.range 12).all fun l => decide (s.dieWidth l ≤ bitsAt v.widths (2 * l) 2)

/-- Selection (R237). -/
def State.select (s : State) (x : Forme) : Option Variant :=
  let c := x.variants.filter fun v => s.usable x v
  match c.find? fun v => s.fitsLinks v with
  | some v => some v
  | none => c.head?

/-- Form that matches a press's depth: 1 for depth 15 (R83). -/
def State.formOf (s : State) (p : Nat) : Nat := if s.rd .prsStatusDepth p 0 = 15 then 1 else 0

/-- Instruction-store words of press p in a variant: both forms (R106, R209). -/
def Variant.stores (v : Variant) (p : Nat) : SMap Nat Nat :=
  (v.programs.filter fun r => r.press = p).flatMap fun r =>
    r.words.zipIdx.map fun e => (16384 * r.form + e.2, e.1)

/-- The stores of a variant's presses are written (R106, R222, R238). -/
def State.writeStores (s : State) (v : Variant) : State :=
  s.each (bitsSet v.pressMask 12) fun s p =>
    s.setPress p { s.press p with istore := v.stores p }

/-! ### The edition boundary -/

/-- First band of copy e mod 2 of a checkpoint entry (R228). -/
def CkptEntry.band (k : CkptEntry) (e : Nat) : Nat := if e % 2 = 0 then k.band0 else k.band1

/-- in_region views copy (e - 1) mod 2 and out_region copy e mod 2, in all four stacks' tables (R160,
R228). -/
def State.setViews (s : State) (x : Forme) : State :=
  let e := s.edition x.number
  s.each x.ckpts fun s k => s.each [0, 1, 2, 3] fun s i =>
    (s.wr .memRegionFirstBand (4 * k.chase + i) k.inRegion (k.band (e - 1))).wr .memRegionFirstBand
      (4 * k.chase + i) k.outRegion (k.band e)

/-- Each engine of the forme returns to route 0; an open window closes (R277). -/
def State.routesBack (s : State) (x : Forme) : State :=
  s.each (bitsSet x.engineSet 8) fun s k =>
    (if s.on .oeStatusSteering k 0 then s.closeWindow k else s).setRoute k 0

/-- The variant and each press's form are set; a change rewrites the stores before the next release
(R83, R238). -/
def State.adopt (s : State) (f : Nat) (v : Variant) : State :=
  let ps := bitsSet v.pressMask 12
  let change := s.rd .modFormeStatusVariant 0 f != v.number ||
    ps.any fun p => s.rd .prsSeqStatusForm p 0 != s.formOf p
  let s := if change then s.wr .hFormeRewrite 0 f 1 else s
  let s := s.wr .modFormeStatusVariant 0 f v.number
  s.each ps fun s p => s.wr .prsSeqStatusForm p 0 (s.formOf p)

/-- Everything that a boundary does before the first release of an edition, replays included (R84,
R228, R237, R277, R358, R413). -/
def State.prepare (s : State) (f : Nat) : State :=
  match s.forme f with
  | none => s
  | some x =>
    let s := s.each (bitsSet x.pressSet 12) State.markStrips
    let s := (s.wr .hFormeEdQ 0 f (s.rd .hFormeNextQ 0 f)).wr .pwrFormeIdleSteps 0 f 0
    let s := if x.fabric then { s with barSent := [] } else s
    let s := s.judgeEngines x
    match s.select x with
    | none => s.parkForme f parkNoVariant true
    | some v =>
      let s := ((s.adopt f v).routesBack x).setViews x
      let s := s.each (bitsSet x.pressSet 12) fun s p =>
        if s.pState p = pParked then s.setPState p pReady else s
      s.wr .hFormeReady 0 f 1

/-- The forme replays the edition in hand (R234). -/
def State.replay (s : State) (f : Nat) : State :=
  let s := (s.wr .modFormeStatusState 0 f fRunning).wr .modFormeStatusReplay 0 f 1
  let s := (s.wr .hFormeNextQ 0 f (s.rd .hFormeEdQ 0 f)).wr .hFormeIdle 0 f 0
  (s.wr .hFormeRouteBack 0 f 1).prepare f

/-- The forme enters RUNNING at P1 (R402), or at the point given; its next step waits for release. -/
def State.run (s : State) (f point : Nat) : State :=
  (s.wr .modFormeStatusState 0 f fRunning).wr .pwrFormePoint 0 f point

/-- The forme leaves HELD or PARKED (R231, R240): a replay, a new edition, or the next step. -/
def State.resumeForme (s : State) (f point : Nat) : State :=
  let s := (s.run f point).wr .modFormeStatusParkReason 0 f 0
  if s.on .hFormeParkReplay 0 f then (s.wr .hFormeParkReplay 0 f 0).replay f
  else if s.rd .hFormeNextQ 0 f = s.rd .hFormeEdQ 0 f then s.prepare f
  else s.wr .hFormeReady 0 f 1

/-! ### Software commands (R223, R231, R232, R240, R370, R415) -/

/-- A command changes nothing and sets cmd_ignored (R218, R232). -/
def State.ignoreCmd (s : State) : State := s.wr .modImpStatusCmdIgnored 0 0 1

/-- The edition was abandoned at this stamp, so the command is ignored (R232). -/
def State.abandonedAt (s : State) (f t : Nat) : Bool :=
  s.fState f = fAbandoning && s.rd .hFormeAbTick 0 f = t

/-- A switch is in hand: START and RESUME are ignored until it ends (R222; log entry 23). -/
def State.switching (s : State) : Bool := s.rd .modImpStatusPending 0 0 = 4

/-- A forme that a START takes to RUNNING at its first edition (R223). -/
def State.startForme (s : State) (f : Nat) : State := (s.run f 1).prepare f

/-- RESUME is admitted: HELD, or PARKED for another reason than CAP_UNMET and NO_VARIANT (R231, R240,
R415). -/
def State.resumable (s : State) (f : Nat) : Bool :=
  s.role = rActive && !s.switching && (s.fState f = fHeld ||
    (s.fState f = fParked && s.rd .modFormeStatusParkReason 0 f != parkCap &&
      s.rd .modFormeStatusParkReason 0 f != parkNoVariant))

/-- START is admitted: LOADED, on a module whose role is ACTIVE (R223, R370). -/
def State.startable (s : State) (f : Nat) : Bool := s.fState f = fLoaded && s.role = rActive && !s.switching

/-- Events that waited for forme f's state take effect in it: START and RESUME, then in RUNNING an error in the
checkpoint region or an abandon cause (R231). -/
def State.letIn (s : State) (f t : Nat) : State :=
  let s := if s.on .hFormeStartPend 0 f && s.startable f then (s.wr .hFormeStartPend 0 f 0).startForme f else s
  let s := if s.on .hFormeResumePend 0 f && s.resumable f then
    (s.wr .hFormeResumePend 0 f 0).resumeForme f 1 else s
  let c := s.rd .hFormeCausePend 0 f
  if s.fState f = fRunning && s.on .hFormeCkptPend 0 f then
    ((s.wr .hFormeCkptPend 0 f 0).wr .hFormeCausePend 0 f 0).checkpointLost f t
  else if s.fState f = fRunning && c != 0 then (s.wr .hFormeCausePend 0 f 0).abandon f c t else s

/-- A software command to forme f, stamped t: ignored where the edition was abandoned in the same galley
cycle (R232), on a module whose role is not ACTIVE where `own` says so (R370), and for a forme that is not
there; else it waits until the state admits it (R231). -/
def State.command (s : State) (f t : Nat) (own : Bool) (hold : State → State) : State :=
  if s.fState f = fNone || s.abandonedAt f t || (own && s.role != rActive) then s.ignoreCmd
  else (hold s).letIn f t

/-- A command waits for its boundary or its state; the stamp of the first one is kept (R231, R232). -/
def State.waitBoundary (s : State) (f t : Nat) (pend tick : Field) : State :=
  if s.on pend 0 f then s else (s.wr pend 0 f 1).wr tick 0 f (t + 1)

/-- START (R223): in LOADED; in another state it waits (R231). -/
def execFormeStart (f t : Nat) (s : State) : Res :=
  if f < 16 then
    .next ((s.stamp t).command f t true fun s => s.waitBoundary f t .hFormeStartPend .hFormeStartTick)
  else .fault .noSuchUnit

/-- HOLD: at the next edition boundary (R231). -/
def execFormeHold (f t : Nat) (s : State) : Res :=
  if f < 16 then
    .next ((s.stamp t).command f t false fun s => s.waitBoundary f t .hFormeHoldPend .hFormeHoldTick)
  else .fault .noSuchUnit

/-- PARK: at the next step boundary (R240). -/
def execFormePark (f t : Nat) (s : State) : Res :=
  if f < 16 then
    .next ((s.stamp t).command f t false fun s => s.waitBoundary f t .hFormeParkPend .hFormeParkTick)
  else .fault .noSuchUnit

/-- RESUME (R231, R240): in HELD and PARKED; in another state it waits (R231). One to a forme parked for
CAP_UNMET is ignored (R415); a forme parked with NO_VARIANT is resumed by what that reason names, and a RESUME of
it waits. -/
def execFormeResume (f t : Nat) (s : State) : Res :=
  if f < 16 then
    let s := s.stamp t
    if s.fState f = fParked && s.rd .modFormeStatusParkReason 0 f = parkCap then .next s.ignoreCmd
    else .next (s.command f t true fun s => s.waitBoundary f t .hFormeResumePend .hFormeResumeTick)
  else .fault .noSuchUnit

/-! ### Release (R223, R309, R360, R362, R379, R433, R530) -/

/-- Every peer of those of the forme's lit ports that `some` names, pair-link ports excepted, has sent the EDITION
before the one in hand, or a later one (R360). -/
def State.peersSent (s : State) (x : Forme) (some : Nat → Bool) : Bool :=
  (bitsSet x.portSet 32).all fun q =>
    let h := s.rd .hFabEdition 0 q
    !((s.portRec q).map PortRec.lit).getD false || s.isPairPort q || !some q ||
      (h != 0 && releasedBy (h - 1) (s.rd .modFormeEditionEdition 0 x.number))

/-- The pre-release batch is acknowledged, in this run of the edition or in one before it, or there is none to send
(R379, R381). -/
def State.batchDone (s : State) (x : Forme) : Bool :=
  let p := s.protectionOf x
  !x.mirrored || s.on .hFormePreDone 0 x.number || (p != 1 && p != 2)

/-- Frames numbered from a base on are sent anew, and go behind a REWIND (R309). -/
def Link.rewindTo (x : Link) (v base : Nat) : Link :=
  { x with
    unacked := x.unacked.filter fun y => !(decide (y.vc = v) && seqGe y.seq base)
    resendQ := x.resendQ.filter fun y => !(decide (y.1.vc = v) && seqGe y.1.seq base)
    rewinds := x.rewinds.put v base }

/-- A channel goes back to its transmit base, and REWIND goes before what is sent from there (R309). Frames of an
earlier edition that have not started take the numbers before it. -/
def State.rewindTx (s : State) (q v : Nat) : State :=
  let base := s.rd .lnkTxSeqBase q v
  let k := ((s.link q).newQ.filter fun y => y.vc = v).length
  ((s.setLink q ((s.link q).rewindTo v base)).setTxNext q v ((base + 2 ^ 48 - k) % 2 ^ 48)).settleLink q

/-- A port of a replaying forme: REWIND, and FETCH from the receive base (R309, R362). -/
def State.replayPort (s : State) (x : Forme) (q : Nat) : State :=
  if !((s.portRec q).map PortRec.lit).getD false then s
  else if s.isPairPort q then (if x.mirrored then s.rewindTx q 2 else s)
  else
    let base := s.rd .lnkRxSeqBase q 0
    let s := (s.rewindTx q 0).setRxExp q 0 base
    let y := s.link q
    let s := s.setLink q { y with rxHeld := y.rxHeld.filter fun z => !decide (z.vc = 0), transfer := [] }
    let s := { s with early := s.early.filter fun e => e.1 != q }
    (s.issue q 0x81 (base % 2 ^ 20)).wr .fabPortFetchPending 0 q 1

/-- Every port of a forme that replays (R234). -/
def State.replayPorts (s : State) (x : Forme) : State :=
  s.each (bitsSet x.portSet 32) fun s q => s.replayPort x q

/-- Memory address a of chase c lies in the copy that the edition writes (R228, R229). -/
def State.inOut (s : State) (x : Forme) (c a : Nat) : Bool :=
  x.ckpts.any fun k =>
    let b := k.band (s.edition x.number)
    k.chase = c && b ≤ a / 2 ^ 23 && a / 2 ^ 23 ≤ b + k.bandsM1

/-- A transfer put behind those whose windows begin no later. -/
def insertXfer (d : SlotXfer) : List SlotXfer → List SlotXfer
  | [] => [d]
  | x :: l => if x.start ≤ d.start then x :: insertXfer d l else d :: x :: l

/-- The fill or drain of a stack reservation, its address seen through the edition's views (R145, R228,
R530). -/
def State.xferOf (s : State) (x : Forme) (r : Resv) : SlotXfer :=
  let a := s.viewAddr x.number r.slice r.memAddr
  let rel := s.rd .hFormeRelCycle r.slice x.number
  { forme := x.number, chase := r.slice, code := r.requester, fill := r.write, phase := r.phase,
    start := rel + r.start, stop := rel + r.stop, runHeld := r.runHeld, runPeriod := r.runPeriod,
    due := rel + r.start, lineLo := r.lineLo, lineHi := r.lineHi, next := r.lineLo, memAddr := a,
    toOut := !r.write && s.inOut x r.slice a }

/-- The fills and drains of the step wait, in the order of their windows (R28, R145, R530). -/
def State.startTransfers (s : State) (x : Forme) : State :=
  let new := (s.stackResvs x.number).foldl (fun l r => insertXfer (s.xferOf x r) l) []
  { s with drains := s.drains ++ new }

/-- Entry index of press p at step q (R106, R209). -/
def Variant.entry (v : Variant) (p form q : Nat) : Nat :=
  match v.programs.find? fun r => r.press = p && r.form = form with
  | some r => (r.entries[q % v.steps.length]?).getD 0
  | none => 0

/-- A press starts step q: tokens, address and key registers, loops and barrier counts start afresh (R106,
R108, R119 to R121, R124, R125, R133), and its units, ring registers and shadow tile hold nothing of an
earlier step (R137). DESIGN CHOICE: so too after an abandoned step, whose unfinished instructions are
dropped (log entry 80). -/
def State.releasePress (s : State) (v : Variant) (q p : Nat) : State :=
  let s := s.setPress p { s.press p with tokens := [], ads := [], keys := [], frames := [], idx := [],
                                         signals := [], staging := [], rampMode := 0, queues := [],
                                         drainQ := [], ringValid := [], frozen := false, shadow := [] }
  let s := if s.pState p = pReady then s.setPState p pActive else s
  s.wrAll [(.prsSeqStatusPc, p, 0, v.entry p (s.rd .prsSeqStatusForm p 0) q), (.prsSeqStatusHold, p, 0, 0),
    (.prsSeqStatusTokens, p, 0, 0), (.hPrsStepped, p, 0, 0)]

/-- Ticks that the fabric forme has waited on its peers' EDITION tokens since its wait began (R360). -/
def State.editionWait (s : State) : Nat :=
  match s.fabricForme with
  | some x => if s.rd .fabStatusState 0 0 = 2 then s.now - s.rd .hFormeWaitTick 0 x.number else 0
  | none => 0

/-- The SHARED writes of the next pre-release batch are counted afresh, but for those that came after the
batch was sent (R376); a replay keeps them. -/
def State.nextBatch (s : State) (f : Nat) : State :=
  if s.on .modFormeStatusReplay 0 f then s
  else
    let mine := s.dirtyShared.filter fun d => d.1 = f
    let kept := if s.on .hFormePreSent 0 f then mine.drop (s.rd .hFormePreCount 0 f) else []
    ({ s with dirtyShared := (s.dirtyShared.filter fun d => !decide (d.1 = f)) ++ kept } : State).wr .hFormePreCount 0 f 0

/-- Every peer of the forme's lit ports, pair-link ports excepted, has sent the EDITION before the one
in hand, or a later one (R360). -/
def State.peersReady (s : State) (x : Forme) : Bool := s.peersSent x fun _ => true

/-- The wait for the peers' EDITION is over, and counted (R360). -/
def State.endWait (s : State) (x : Forme) : State :=
  if x.fabric && s.rd .fabStatusState 0 0 = 2 then
    (s.wrap .fabEditionWaitTicks 0 0 s.editionWait).wr .fabStatusState 0 0 1
  else s

/-- At an edition's first release: the slices start (R433), the SHARED writes of the next batch are
counted afresh (R376), and a replay rewinds and fetches (R309, R362). -/
def State.firstRelease (s : State) (x : Forme) (v : Variant) : State :=
  let f := x.number
  let s := s.each (bitsSet v.pressMask 12) fun s p => s.wr .prfPressSlicePassed 0 p 0
  let s := s.nextBatch f
  let s := if s.on .hFormeRouteBack 0 f then (s.wr .hFormeRouteBack 0 f 0).replayPorts x else s
  if x.fabric then
    (s.wrap .fabEditionWaitTicks 0 0 s.editionWait).wr .fabStatusState 0 0 1
  else s

/-- Stall budget of the step that forme f released last (R411). -/
def State.stallBudget (s : State) (f : Nat) : Nat :=
  match s.curStep f with
  | none => 0
  | some e => if (s.stepBarriers f).any BarEntry.fabric then e.slack * 3 / 4 else e.slack

/-- The next step of forme x is released (R223). -/
def State.releaseStep (s : State) (x : Forme) (v : Variant) (t : Nat) : State :=
  let f := x.number
  let q := s.rd .hFormeNextQ 0 f
  let s := if q = s.rd .hFormeEdQ 0 f then s.firstRelease x v else s
  let s := s.dropJobs f
  let s := { s with relays := s.relays.filter (fun r => !(r.sent && decide (r.forme = f))),
                    arrivals := s.arrivals.filter (fun e => !decide (e.1.1 = f)),
                    barDone := s.barDone.filter fun e => !decide (e.1.1 = f) }
  let s := s.wrAll [(.modFormeStepQ, 0, f, q), (.hFormeNextQ, 0, f, q + 1), (.hFormeRelTick, 0, f, t),
    (.hFormeStepRun, 0, f, 1), (.hFormeReady, 0, f, 0), (.hFormeLateStep, 0, f, 0),
    (.hFormeJobTable, 0, f, s.freeCount), (.pwrFormeStallTicks, 0, f, 0),
    (.hFormeActSum, 0, f, 0), (.hFormeActNum, 0, f, 0), (.hFormeStallMax, 0, f, 0)]
  let s := { s with freeCount := s.freeCount + 1 }
  let s := s.wr .hFormeStallBudget 0 f (s.stallBudget f)
  let s := s.each (bitsSet v.pressMask 12) fun s p => s.wr .hPrsStall 0 p 0
  let s := s.each [0, 1, 2, 3] fun s c => s.wr .hFormeRelCycle c f (s.rd .galCycleCycle c 0)
  let s := s.each (bitsSet v.pressMask 12) fun s p => s.releasePress v q p
  (s.startTransfers x).deliverEarly

/-- The forme's next step may be released as far as the module itself goes (R223, R238, R413). -/
def State.releasable (s : State) (f : Nat) : Bool :=
  s.fState f = fRunning && s.on .hFormeReady 0 f && !s.on .hFormeRewrite 0 f && !s.on .hFormeIdle 0 f

/-- STEP_RELEASE: the next step is released; the first of an edition waits for the peers' EDITION tokens
(R360) and the pre-release batch (R379). -/
def execStepRelease (f t : Nat) (s : State) : Res :=
  if f < 16 then
    let s := s.stamp t
    match s.forme f, s.variant f with
    | some x, some v =>
      if s.releasable f then
        if s.rd .hFormeNextQ 0 f = s.rd .hFormeEdQ 0 f then
          if x.fabric && !s.peersReady x then
            .next (if s.rd .fabStatusState 0 0 = 2 then s
              else (s.wr .fabStatusState 0 0 2).wr .hFormeWaitTick 0 f t)
          else
            let s := s.endWait x
            if s.batchDone x then .next (s.releaseStep x v t)
            else match s.mirrorPort x with
              | some q => .next (if s.on .hFormePreSent 0 f then s else s.sendBatch q f)
              | none => .next s
        else .next (s.releaseStep x v t)
      else .next s
    | _, _ => .next s
  else .fault .noSuchUnit

/-! ### Completion and the watchdog (R223 to R225) -/

/-- Every press of the variant reported STEP and every job sent its arrival (R223). -/
def State.stepFinished (s : State) (f : Nat) : Bool :=
  match s.curStep f with
  | none => false
  | some e =>
    s.on .hFormeStepRun 0 f && (s.formePresses f).all (fun p => s.on .hPrsStepped p 0) &&
      (List.range e.jobCount).all fun i => ((s.job f i).map fun j => decide (j.status = .done)).getD false

/-- The transfers of an ended step have moved their lines; the drains into the out_region wait for their
acknowledgement (R28, R229, R530). -/
def State.endDrains (s : State) (f : Nat) : State :=
  let s := s.allSlots f
  { s with drains := s.drains.filter fun d => decide (d.forme != f) || d.toOut }

/-- Cores' L2 copies of forme f's SCHEDULED lines expire at its step boundary, and what was marked bad in
them with them (R153, R478). -/
def State.expireCopies (s : State) (f : Nat) : State :=
  { s with badWords := s.badWords.filter fun e => s.physAttr e.2 != (2, f) }

/-- A step boundary inside an edition: a PARK that waits, else the power controller, then the next
release (R231, R240, R413). -/
def State.stepBoundary (s : State) (f t : Nat) : State :=
  if s.on .hFormeParkPend 0 f then (s.wr .hFormeParkPend 0 f 0).parkForme f parkSupervisor false
  else
    let s := s.powerBoundary f t
    if s.fState f = fRunning then s.wr .hFormeReady 0 f 1 else s

/-- STEP_COMPLETE: late by its stamp or by a job (R171, R224); the edition closes, or a step boundary
follows (R231). One stamped at r + watchdog or later comes after the abandonment of R225. `ce` is what the
step's fills and drains met corrected (R162, R163). -/
def execStepComplete (f : Nat) (ce : List CeSite) (t : Nat) (s : State) : Res :=
  if f < 16 then
    let s := s.stamp t
    match s.curStep f with
    | none => .next s
    | some e =>
      if s.fState f = fRunning && s.stepFinished f && s.rd .hFormeRelTick 0 f + e.watchdog ≤ t then
        .next (s.abandon f causeTimeout t)
      else if s.fState f = fRunning && s.stepFinished f then
        let late := s.rd .hFormeRelTick 0 f + e.nominal + e.slack ≤ t || s.on .hFormeLateStep 0 f
        let s := if late then (s.wr .modFormeStatusLate 0 f 1).bump .modFormeCountsLateSteps 0 f 1 else s
        let s := (((s.endDrains f).met 15 true ce).wr .hFormeStepRun 0 f 0).wr .hFormeDoneTick 0 f t
        let s := s.expireCopies f
        let s := if e.editionEnd then ((s.wr .modFormeStatusState 0 f fClosing).enableSlices f).tryMirror f
          else s.stepBoundary f t
        .next (s.letIn f t).irqDeliver
      else .next s
  else .fault .noSuchUnit

/-- WATCHDOG_TIMEOUT: a step not complete at r + watchdog abandons with STEP_TIMEOUT (R225). -/
def execWatchdogTimeout (f t : Nat) (s : State) : Res :=
  if f < 16 then
    let s := s.stamp t
    match s.curStep f with
    | none => .next s
    | some e =>
      if s.on .hFormeStepRun 0 f && s.rd .hFormeRelTick 0 f + e.watchdog ≤ t then
        .next (s.abandon f causeTimeout t)
      else .next s
  else .fault .noSuchUnit

/-! ### Commit (R229, R230, R309, R359, R381) -/

/-- The bases of the forme's ports: tx_next, as it is once the frames of the edition have started, and rx_expected
(R309, R376, R377). -/
def State.recordBases (s : State) (x : Forme) : State :=
  s.each (bitsSet x.portSet 32) fun s q =>
    if s.isPairPort q then (if x.mirrored then s.wr .lnkTxSeqBase q 2 (s.nextBase q 2) else s)
    else (s.wr .lnkTxSeqBase q 0 (s.nextBase q 0)).wr .lnkRxSeqBase q 0 (s.rxExp q 0)

/-- The per-edition counters of the forme's presses start again (R230). -/
def State.clearCounters (s : State) (x : Forme) : State :=
  s.each (bitsSet x.pressSet 12) fun s p =>
    s.wrAll [(.prsStallCountsBondWait, p, 0, 0), (.prsStallCountsShadowWait, p, 0, 0),
      (.prsStallCountsCarryWait, p, 0, 0), (.prsStallCountsCaseConflict, p, 0, 0),
      (.prsSeqWaitsTokenWait, p, 0, 0), (.prsSeqWaitsQueueWait, p, 0, 0),
      (.prsSeqWaitsBarrierWait, p, 0, 0), (.prsSeqWaitsFenceWait, p, 0, 0)]

/-- The record is written and the commit takes effect (R229, R230). -/
def State.commitEdition (s : State) (x : Forme) (t : Nat) : State :=
  let f := x.number
  let unprot := (s.mirrorOk x).2
  let r := s.newRecord f t
  let s := { s with log := r :: s.log }
  let s := if unprot then s.bump .pairCountsUnprotectedCommits 0 0 1 else s
  let s := s.wrAll [(.modFormeEditionEdition, 0, f, r.edition), (.modFormeCommitTickTick, 0, f, t),
    (.modFormeStatusReplay, 0, f, 0), (.hFormeAbandoned, 0, f, 0),
    (.hFormeEdQ, 0, f, s.rd .hFormeNextQ 0 f), (.hFormeMirrorSent, 0, f, 0),
    (.hFormeMirrorDone, 0, f, 0), (.hFormePreSent, 0, f, 0), (.hFormePreDone, 0, f, 0)]
  let s := (s.orBit .coreIrqEventsCommit 0 0 f).clearCounters x
  let s := s.recordBases x
  let s := { s with dirtyOut := s.dirtyOut.filter fun d => !decide (d.1 = f) }
  if x.fabric then s.each s.fabricPorts State.sendEdition else s

/-- The forme holds at this boundary for the switch in hand: the edition before its successor's first,
or any where it has none (R222). -/
def State.switchHolds (s : State) (f : Nat) : Bool :=
  s.on .modFormeStatusSwitchPending 0 f &&
    match s.loaded.bind fun i => i.formes.find? fun x => x.carriedFrom = f with
    | none => true
    | some x => s.edition f = x.startEdition

/-- Formes of the active imposition that are not yet held for a switch (R222). -/
def State.unheld (s : State) : List Nat :=
  s.formeNums.filter fun f => s.fState f = fRunning || s.fState f = fClosing || s.fState f = fAbandoning

/-- Once the fabric forme is held for a switch with an agreed edition, the lit ports quiesce (R366). -/
def State.startQuiesce (s : State) (t : Nat) : State :=
  match s.fabricForme, s.agreedEdition with
  | some f, some _ =>
    if s.rd .hImpSwitchStep 0 0 = 1 && s.rd .fabStatusState 0 0 < 3 && !s.unheld.contains f.number then
      let s := (s.wr .fabStatusState 0 0 3).wr .hSwitchTick 0 0 t
      s.each (List.range 32) State.quiesceCheck
    else s
  | _, _ => s

/-- What follows a commit: the engines return to route 0 (R277), and the forme is HELD, PARKED, or runs the
next edition (R230, R231). -/
def State.afterCommit (s : State) (f t : Nat) : State :=
  let s := match s.forme f with
    | some x => s.routesBack x
    | none => s
  if s.on .hFormeHoldPend 0 f || s.switchHolds f || s.swapHolds f then
    ((s.wr .hFormeHoldPend 0 f 0).wr .modFormeStatusState 0 f fHeld).swapYield
  else if s.on .hFormeParkPend 0 f then
    (s.wr .hFormeParkPend 0 f 0).parkForme f parkSupervisor false
  else
    let s := (s.wr .modFormeStatusState 0 f fRunning).prepare f
    if s.fState f = fRunning then s.powerBoundary f t else s

/-- EDITION_COMMIT: in CLOSING, with the three conditions met, the edition commits (R229, R230). -/
def execEditionCommit (f t : Nat) (s : State) : Res :=
  if f < 16 then
    let s := s.stamp t
    match s.forme f with
    | none => .next s
    | some x =>
      if s.fState f = fClosing then
        if s.commitDue f then
          .next ((((s.commitEdition x t).afterCommit f t).startQuiesce t).letIn f t).irqDeliver
        else .next (s.tryMirror f)
      else .next s
  else .fault .noSuchUnit

/-- DRAIN_ACKNOWLEDGED: a stack acknowledges a drain into the out_region (R229, R376). -/
def execDrainAcknowledged (f : Nat) (s : State) : Res :=
  if f < 16 then .next ((s.ackDrain f).tryMirror f) else .fault .noSuchUnit

/-! ### Abandonment (R233 to R236, R384) -/

/-- A barrier of the running step waits: its next round, signalled by a local participant and not
complete; and whether it waits only on remote modules (R384). -/
def State.barrierWaits (s : State) (f : Nat) (e : BarEntry) : Option Bool :=
  let n := s.rounds f e.barrier + 1
  let loc := e.parts.filter fun x => x.kind != 3
  let due := loc.filter fun x => n ≤ x.signals
  if due.any fun x => n ≤ s.arrived f e.barrier x.kind x.unit then
    some (due.all fun x => n ≤ s.arrived f e.barrier x.kind x.unit)
  else none

/-- The cause of a final abandonment lies outside the module (R384). -/
def State.outsideCause (s : State) (x : Forme) : Bool :=
  let c := s.rd .modFormeStatusCause 0 x.number
  let w := (s.stepBarriers x.number).filterMap fun e => s.barrierWaits x.number e
  (c = causeTimeout && !w.isEmpty && w.all id) ||
    let e := s.rd .hFormeErrPort 0 x.number
    (c = causeLink && e != 0 && !s.isPairPort (e - 1) && !s.linkOpen (e - 1) && !(s.link (e - 1)).retraining)

/-- A second abandonment of an edition: a yield to a live partner, or park (R235, R383, R384). -/
def State.finalAbandon (s : State) (x : Forme) : State :=
  let f := x.number
  let ue := s.rd .modFormeStatusCause 0 f = causeUe
  if s.outsideCause x then s.parkForme f parkAbandon true
  else if s.livePartner then s.yieldWith (if ue then 2 else 1)
  else s.parkForme f (if ue then parkUe else parkAbandon) true

/-- UNITS_STOPPED: the first abandonment of an edition replays it, the second is final (R231, R235). -/
def execUnitsStopped (f t : Nat) (s : State) : Res :=
  if f < 16 then
    let s := s.stamp t
    match s.forme f with
    | none => .next s
    | some x =>
      if s.fState f = fAbandoning then
        if s.on .hFormeAbandoned 0 f then .next ((s.beginAllWaiting.finalAbandon x).letIn f t).irqDeliver
        else .next (((s.beginAllWaiting.wr .hFormeAbandoned 0 f 1).replay f).letIn f t).irqDeliver
      else .next s
  else .fault .noSuchUnit

/-- VARIANT_REWRITE_DONE: the stores hold the variant in force (R238). -/
def execVariantRewriteDone (f t : Nat) (s : State) : Res :=
  if f < 16 then
    let s := s.stamp t
    match s.variant f with
    | none => .next s
    | some v =>
      if s.on .hFormeRewrite 0 f then
        .next (((s.writeStores v).wr .hFormeRewrite 0 f 0).bump .modFormeCountsVariantChanges 0 f 1)
      else .next s
  else .fault .noSuchUnit

/-- A press is lost: FAILED until reset, and its forme abandons (R236). -/
def State.losePress (s : State) (p t : Nat) : State :=
  (s.abandonPress p causePressLost t).failPress p

/-- PRESS_LOST: the bond gave no response for 65,536 ticks (R236). -/
def execPressLost (p t : Nat) (s : State) : Res :=
  if p < 12 then .next ((s.stamp t).losePress p t) else .fault .noSuchUnit

end Sys2Proof.Machine
end

