-- ==== Sys2Proof/Machine/ImpParse.lean ====
section
/-!
DEFINITION. The byte layout of an imposition (R205 to R217): header, directory, sections, records.
-/

namespace Sys2Proof.Machine

/-- n bytes from offset o are zero. -/
def zeroAt (b : List Byte) (o n : Nat) : Bool := leAt b o n = 0

/-- A directory entry with its index (R206). -/
structure Section where
  idx : Nat
  type : Nat
  forme : Nat
  variant : Nat
  offset : Nat
  length : Nat
deriving DecidableEq, Repr

/-- Directory entry i (R206). -/
def sectionAt (b : List Byte) (i : Nat) : Section :=
  let o := 128 + 16 * i
  { idx := i, type := leAt b o 1, forme := leAt b (o + 1) 1, variant := leAt b (o + 2) 1,
    offset := leAt b (o + 8) 4, length := leAt b (o + 12) 4 }

/-- The directory (R205, R206). -/
def directory (b : List Byte) : List Section := (List.range (leAt b 12 2)).map (sectionAt b)

/-- Section types (R207). -/
def secStructure : Nat := 0x01
def secRouting : Nat := 0x02
def secOptics : Nat := 0x03
def secMemory : Nat := 0x04
def secProgram : Nat := 0x05
def secSteps : Nat := 0x06
def secResvs : Nat := 0x07
def secBarriers : Nat := 0x08
def secJobs : Nat := 0x09
def secPlans : Nat := 0x0A
def secVariants : Nat := 0x0B
def secCheckpoint : Nat := 0x0C
def secSignature : Nat := 0x7F

/-- The section of a type that serves an owner: its own, or that of every variant (R206). -/
def findSection (d : List Section) (t f v : Nat) : Option Section :=
  d.find? fun x => x.type = t && x.forme = f && (x.variant = v || x.variant = 0xFF)

/-- Its bytes. -/
def sectionBytes (b : List Byte) : Option Section → List Byte
  | none => []
  | some x => (b.drop x.offset).take x.length

/-- Record i of n bytes. -/
def recAt (s : List Byte) (n i : Nat) : List Byte := (s.drop (n * i)).take n

/-- The whole records of n bytes in a section. -/
def recsOf (s : List Byte) (n : Nat) : List (List Byte) :=
  (List.range (s.length / n)).map fun i => recAt s n i

/-- A forme descriptor (R208), without its variants and checkpoint entries. -/
def parseForme (r : List Byte) : Forme :=
  { number := leAt r 0 1 % 16, mirrored := bit (leAt r 1 1) 0, fabric := bit (leAt r 1 1) 1,
    carriedFrom := leAt r 2 1, linkMin := leAt r 3 1 % 16, pressSet := leAt r 4 2 % 2 ^ 12,
    engineSet := leAt r 6 1, mirrorShare := leAt r 7 1, portSet := leAt r 8 4,
    startEdition := leAt r 16 8, srSeed := leAt r 24 8, variants := [], ckpts := [] }

/-- A step-table entry (R210). -/
def parseStep (r : List Byte) : StepEntry :=
  { nominal := leAt r 0 4, slack := leAt r 4 4, watchdog := leAt r 8 4,
    editionEnd := bit (leAt r 12 2) 0, resFirst := leAt r 16 4, resCount := leAt r 20 2 % 2 ^ 13,
    barFirst := leAt r 24 4, barCount := leAt r 28 1 % 2 ^ 7, jobFirst := leAt r 32 4,
    jobCount := leAt r 36 2 % 2 ^ 9 }

/-- A reservation entry (R211). -/
def parseResv (r : List Byte) : Resv :=
  { requester := leAt r 0 1 % 32, slice := leAt r 0 1 / 32 % 4, write := bit (leAt r 0 1) 7,
    phase := leAt r 1 1 % 8, runHeld := leAt r 2 1 % 32, runPeriod := leAt r 3 1 % 32,
    start := leAt r 4 4, stop := leAt r 8 4, lineLo := leAt r 12 4 % 2 ^ 21,
    lineHi := leAt r 16 4 % 2 ^ 22, memAddr := leAt r 24 8 % 2 ^ 38 }

/-- A participant record (R212). -/
def parsePart (r : List Byte) : BarPart :=
  { kind := leAt r 0 1 % 4, unit := leAt r 1 1 % 16, module := leAt r 2 2, signals := leAt r 4 2 }

/-- Participant records that a barrier entry names. -/
def partBytes (s r : List Byte) : List (List Byte) :=
  recsOf ((s.drop (leAt r 4 4)).take (8 * leAt r 2 2)) 8

/-- A barrier entry of a section, with its participants (R212). -/
def parseBarrier (s r : List Byte) : BarEntry :=
  { barrier := leAt r 0 1 % 64, fabric := bit (leAt r 1 1) 0, parts := (partBytes s r).map parsePart }

/-- Program records of a section, in order (R209): the bytes of each; at most n. -/
def programRecs : Nat → List Byte → List (List Byte)
  | 0, _ => []
  | n + 1, s =>
    if s.isEmpty then []
    else
      let len := 32 + 2 * leAt s 4 4 + 16 * leAt s 2 2
      s.take len :: programRecs n (s.drop len)

/-- A program record (R209). -/
def parseProgram (r : List Byte) : ProgRec :=
  let n := leAt r 4 4
  { press := leAt r 0 1 % 16, form := leAt r 1 1 % 2,
    entries := (List.range n).map fun i => leAt r (32 + 2 * i) 2,
    words := (List.range (leAt r 2 2)).map fun i => leAt r (32 + 2 * n + 16 * i) 16 }

/-- Plan indices of a section: its first offset ends the table (R214). -/
def planCount (s : List Byte) : Nat := leAt s 0 4 / 4

/-- Where plan i begins. -/
def planAt (s : List Byte) (i : Nat) : List Byte := s.drop (leAt s (4 * i) 4)

/-- A plan (R214). -/
def parsePlan (r : List Byte) : Plan :=
  let p := leAt r 0 2
  let n := leAt r 2 2
  let a := 16 + 16 * p
  let b := a + 8 * n
  { ranks := (List.range p).map fun i =>
      PlanRank.mk (leAt r (16 + 16 * i) 2) (leAt r (18 + 16 * i) 1) (leAt r (20 + 16 * i) 4)
        (leAt r (24 + 16 * i) 4)
    nodes := (List.range n).map fun i =>
      PlanNode.mk (leAt r (a + 8 * i) 2) (leAt r (a + 8 * i + 2) 2) (leAt r (a + 8 * i + 4) 2)
        (leAt r (a + 8 * i + 6) 1)
    routes := (List.range (leAt r 4 2)).map fun i =>
      PlanRoute.mk (leAt r (b + 8 * i) 2) (leAt r (b + 8 * i + 2) 1) (leAt r (b + 8 * i + 3) 1)
        (leAt r (b + 8 * i + 4) 1) }

/-- A checkpoint entry (R216). -/
def parseCkpt (r : List Byte) : CkptEntry :=
  { chase := leAt r 0 1 % 4, inRegion := leAt r 1 1 % 16, outRegion := leAt r 2 1 % 16,
    band0 := leAt r 4 2 % 2 ^ 15, band1 := leAt r 6 2 % 2 ^ 15, bandsM1 := leAt r 8 2 % 2 ^ 15 }

/-- A variant from its entry and its sections (R215). -/
def parseVariant (b : List Byte) (d : List Section) (f : Nat) (r : List Byte) : Variant :=
  let v := leAt r 0 1 % 32
  let sec (t : Nat) := sectionBytes b (findSection d t f v)
  let progs := sec secProgram
  let bars := sec secBarriers
  let plans := sec secPlans
  let steps := (recsOf (sec secSteps) 48).map parseStep
  let top := (steps.map fun e => e.barFirst + e.barCount).foldl max 0
  { number := v, pressMask := leAt r 2 2 % 2 ^ 12, engineMask := leAt r 4 1, widths := leAt r 5 3,
    editionNominal := leAt r 8 4,
    programs := (programRecs progs.length progs).map parseProgram,
    steps := steps,
    resvs := (recsOf (sec secResvs) 32).map parseResv,
    barriers := (List.range (min top (bars.length / 16))).map fun i => parseBarrier bars (recAt bars 16 i),
    jobs := (recsOf (sec secJobs) 64).map fun x => leAt x 0 64,
    plans := (List.range (planCount plans)).map fun i => parsePlan (planAt plans i) }

/-- A forme with its variants and checkpoint entries (R208, R215, R216). -/
def parseWhole (b : List Byte) (d : List Section) (r : List Byte) : Forme :=
  let f := parseForme r
  let sec (t : Nat) := sectionBytes b (findSection d t f.number 0xFF)
  { f with variants := (recsOf (sec secVariants) 32).map (parseVariant b d f.number),
           ckpts := (recsOf (sec secCheckpoint) 16).map parseCkpt }

/-- Memory section of chase c (R207): phase map, 32 ranges, 16 regions; without a section no phase is
assigned. -/
def parseMem (s : List Byte) (c : Nat) : ChaseMem :=
  let o := 392 * c
  { phaseMap := if s.isEmpty then 2 ^ 64 - 1 else leAt s o 8, ranges := (List.range 32).map fun n => leAt s (o + 8 + 8 * n) 8,
    regions := (List.range 16).map fun n => leAt s (o + 264 + 8 * n) 8 }

/-- The bytes of a module-owned section (R207). -/
def moduleSection (b : List Byte) (t : Nat) : List Byte :=
  sectionBytes b (findSection (directory b) t 0xFF 0xFF)

/-- The imposition that a bit-stream spells. -/
def parseImp (b : List Byte) : Imposition :=
  let d := directory b
  let sec (t : Nat) := sectionBytes b (findSection d t 0xFF 0xFF)
  let mem := sec secMemory
  { capability := leAt b 16 4, rollbackVersion := leAt b 24 8, moduleId := leAt b 32 2,
    digest := (b.drop (leAt b 8 4 - 1528)).take 64,
    formes := ((List.range (leAt b 34 2)).map fun i => parseWhole b d (recAt (sec secStructure) 64 i)),
    routing := sec secRouting, optics := sec secOptics,
    memory := [0, 1, 2, 3].map (parseMem mem) }

/-! ### Fields of range and region entries (GAL_RANGE_n, MEM_REGION_n) -/

/-- valid -/
def entValid (x : Nat) : Bool := bit x 63
/-- attr -/
def entAttr (x : Nat) : Nat := bitsAt x 61 2
/-- forme -/
def entForme (x : Nat) : Nat := bitsAt x 52 8
/-- Lines [first, past) of a galley range -/
def rangeSpan (x : Nat) : Nat × Nat := (bitsAt x 21 21, bitsAt x 21 21 + bitsAt x 0 21 + 1)
/-- mode of a region -/
def regionMode (x : Nat) : Nat := bitsAt x 60 1

/-- Two half-open spans share a member. -/
def spansMeet (a b : Nat × Nat) : Bool := a.1 < b.2 && b.1 < a.2

/-- Memory section of chase c of an imposition. -/
def Imposition.mem (i : Imposition) (c : Nat) : ChaseMem := i.memory.getD c ⟨0, [], []⟩

/-- Byte φ of a phase map. -/
def ChaseMem.phase (m : ChaseMem) (ph : Nat) : Nat := bitsAt m.phaseMap (8 * ph) 8

/-- Spans of the valid galley ranges of a forme, of any attribute or of those given. -/
def ChaseMem.spans (m : ChaseMem) (f : Nat) (attrs : List Nat) : List (Nat × Nat) :=
  (m.ranges.filter fun x => entValid x && entForme x = f && attrs.contains (entAttr x)).map rangeSpan

end Sys2Proof.Machine
end

