-- ==== Sys2Proof/Machine/Finisher.lean ====
section
/-!
DEFINITION. Finisher instructions (R90 to R93, R117, R130, R132, R133).
-/

namespace Sys2Proof.Machine

/-- FADD: a + b (R132). -/
def execFadd (p : Nat) (k : Tok) (f : FinF) (s : State) : Res :=
  s.finOp p k .add f fun v => (arg v 0).add (arg v 1)

/-- FSUB: a - b (R132). -/
def execFsub (p : Nat) (k : Tok) (f : FinF) (s : State) : Res :=
  s.finOp p k .sub f fun v => (arg v 0).add (arg v 1).negate

/-- FMUL: a * b (R132). -/
def execFmul (p : Nat) (k : Tok) (f : FinF) (s : State) : Res :=
  s.finOp p k .mul f fun v => (arg v 0).mul (arg v 1)

/-- FFMA: a * b + c, rounded once (R132). -/
def execFfma (p : Nat) (k : Tok) (f : FinF) (s : State) : Res :=
  s.finOp p k .ffma f fun v => ((arg v 0).mul (arg v 1)).add (arg v 2)

/-- FMIN: IEEE 754 minimum (R132). -/
def execFmin (p : Nat) (k : Tok) (f : FinF) (s : State) : Res :=
  s.finOp p k .min f fun v => (arg v 0).minimum (arg v 1)

/-- FMAX: IEEE 754 maximum (R132). -/
def execFmax (p : Nat) (k : Tok) (f : FinF) (s : State) : Res :=
  s.finOp p k .max f fun v => (arg v 0).maximum (arg v 1)

/-- Comparison sub of FCMP (R132). -/
def fcmpHolds (sub : Nat) (a b : FVal) : Bool :=
  let un := a.isNaN || b.isNaN
  match sub with
  | 0 => !un && a.cmp b = 0
  | 1 => !un && a.cmp b < 0
  | 2 => !un && a.cmp b ≤ 0
  | _ => un

/-- FCMP: mask bit = a sub b (R132). -/
def execFcmp (p : Nat) (k : Tok) (f : FinF) (s : State) : Res :=
  s.dispatch p k uFin (FinOp.cmp.fieldOk f) 0 ((s.press p).finReady true true false f) [] [.prsBusyCyclesBusy] fun s =>
    let x := s.press p
    let a := x.vreg f.va
    let b := x.srcB f
    let fl := NumFlags.orAll ((List.range 512).map fun n =>
      if x.laneOn f n then
        laneFlags [fp32Val (a.getD n 0), fp32Val (b.getD n 0)] (.fin false 0 0)
      else NumFlags.none)
    s.maskWrite p f (fun n => fcmpHolds f.sub (fp32Val (a.getD n 0)) (fp32Val (b.getD n 0))) fl

/-- FSEL: P(vc)[n] ? a : b (R132). -/
def execFsel (p : Nat) (k : Tok) (f : FinF) (s : State) : Res :=
  s.dispatch p k uFin (FinOp.sel.fieldOk f) 0 ((s.press p).finReady true true false f) [] [.prsBusyCyclesBusy] fun s =>
    let x := s.press p
    let m := x.mask f.vc
    let a := x.vreg f.va
    let b := x.srcB f
    let es := (List.range 512).map fun n =>
      let va := fp32Val (a.getD n 0)
      let vb := fp32Val (b.getD n 0)
      (fp32Of (if bit m n then va else vb),
        if x.laneOn f n then laneFlags [va, vb] (.fin false 0 0) else NumFlags.none)
    s.finWrite p f (es.map Prod.fst, NumFlags.orAll (es.map Prod.snd))

/-- FMOV: b (R132). -/
def execFmov (p : Nat) (k : Tok) (f : FinF) (s : State) : Res :=
  s.finOp p k .mov f fun v => arg v 0

/-- Lane n of a mask operation (R132). -/
def fmskBit (sub imm : Nat) (a b : Nat) (n : Nat) : Bool :=
  match sub with
  | 0 => bit a n && bit b n
  | 1 => bit a n || bit b n
  | 2 => bit a n != bit b n
  | 3 => bit a n && !bit b n
  | 4 => true
  | 5 => false
  | _ => n = imm % 512

/-- FMSK: mask logic (R132). -/
def execFmsk (p : Nat) (k : Tok) (f : FinF) (s : State) : Res :=
  s.dispatch p k uFin (FinOp.msk.fieldOk f) 0 true [] [.prsBusyCyclesBusy] fun s =>
    let x := s.press p
    s.maskWrite p f (fmskBit f.sub f.imm (x.mask f.va) (x.mask f.vb)) NumFlags.none

/-- Whether some lane of MX block b is enabled. -/
def Press.blockOn (x : Press) (f : FinF) (b : Nat) : Bool :=
  (List.range 32).any fun i => x.laneOn f (32 * b + i)

/-- An MX element under its scale byte as an exact FP32 value; a block of scale 0xFF holds NaN
(R39, R67, R132; log entry 10). -/
def dequant (f : Fmt) (scale e : Nat) : FVal :=
  if scale = 255 then .nan
  else
    match f.decode e with
    | .fin n m x => .fin n m (x + (Int.ofNat scale - 127))
    | .nan => .nan
    | .inf n => .inf n

/-- FCVT of one 32-lane block to an MX format (R66, R132): FP32 patterns and events of the enabled
lanes. -/
def State.fcvtBlock (s : State) (p : Nat) (f : FinF) (fmt : Fmt) (b : Nat) :
    List (Nat × NumFlags) :=
  let x := s.press p
  let vs := (List.range 32).map fun i => fp32Val ((x.vreg f.va).getD (32 * b + i) 0)
  let rs := (List.range 32).map fun i => s.rmode p f.rmode f.key f.srow (32 * b + i)
  let q := mxQuantise fmt rs vs
  let nav := q.2.2.navBlock && x.blockOn f b
  (List.range 32).map fun i =>
    let v := vs.getD i .nan
    let el := if q.1 = 255 then NumFlags.none
      else (mxElement fmt (rs.getD i .rne) (Int.ofNat q.1 - 127) v).2
    (fp32Of (dequant fmt q.1 (q.2.1.getD i 0)),
      if x.laneOn f (32 * b + i) then
        (el.or (laneFlags [v] (.fin false 0 0))).or { NumFlags.none with navBlock := nav }
      else NumFlags.none)

/-- FCVT: a rounded to BF16 or to an MX format, held as FP32 (R132). -/
def execFcvt (p : Nat) (k : Tok) (f : FinF) (s : State) : Res :=
  s.dispatch p k uFin (FinOp.cvt.fieldOk f) 0 ((s.press p).finReady true false false f) []
    [.prsBusyCyclesBusy] fun s =>
    let x := s.press p
    let es :=
      match Fmt.ofCode f.sub with
      | none => []
      | some fmt =>
        if fmt.isMx then ((List.range 16).map fun b => s.fcvtBlock p f fmt b).flatten
        else (List.range 512).map fun n =>
          let v := fp32Val ((x.vreg f.va).getD n 0)
          let e := fmt.encode (s.rmode p f.rmode f.key f.srow n) f.sat v
          (convert fmt .fp32 e.1,
            if x.laneOn f n then e.2.or (laneFlags [v] (.fin false 0 0)) else NumFlags.none)
    s.finWrite p f (es.map Prod.fst, NumFlags.orAll (es.map Prod.snd))

/-- FRCP: 1 / a, correctly rounded (R57, R64). -/
def execFrcp (p : Nat) (k : Tok) (f : FinF) (s : State) : Res :=
  s.finOp p k .rcp f fun v => (FVal.fin false 1 0).div (arg v 0)

/-- FRSQ: 1 / sqrt a, correctly rounded (R57, R64). -/
def execFrsq (p : Nat) (k : Tok) (f : FinF) (s : State) : Res :=
  s.finOp p k .rsq f fun v => (arg v 0).rsqrt

/-- FEXP: exp a, correctly rounded (R57, R64). -/
def execFexp (p : Nat) (k : Tok) (f : FinF) (s : State) : Res :=
  s.finOp p k .exp f fun v => (arg v 0).expv

/-- FLOG: log a, correctly rounded (R57, R64). -/
def execFlog (p : Nat) (k : Tok) (f : FinF) (s : State) : Res :=
  s.finOp p k .log f fun v => (arg v 0).logv

/-- A lane reduction's dispatch (R92, R132). -/
def State.finReduce (s : State) (p : Nat) (k : Tok) (o : FinOp) (f : FinF) (ident : Nat)
    (op : FVal → FVal → FVal) : Res :=
  s.dispatch p k uFin (o.fieldOk f) 0 ((s.press p).finReady true false false f) []
    [.prsBusyCyclesBusy] fun s =>
    s.reduce p f ident op

/-- FRSUM: sum by the canonical tree; masked lanes supply +0 (R53, R92). -/
def execFrsum (p : Nat) (k : Tok) (f : FinF) (s : State) : Res :=
  s.finReduce p k .rsum f 0 FVal.add

/-- FRMAX: maximum; masked lanes supply -infinity (R53, R92). -/
def execFrmax (p : Nat) (k : Tok) (f : FinF) (s : State) : Res :=
  s.finReduce p k .rmax f 0xFF800000 FVal.maximum

/-- FRMIN: minimum; masked lanes supply +infinity (R53, R92). -/
def execFrmin (p : Nat) (k : Tok) (f : FinF) (s : State) : Res :=
  s.finReduce p k .rmin f 0x7F800000 FVal.minimum

/-- Line address of FLD and FST: cad + cnt (R120). -/
def Press.finLine (x : Press) (f : FinF) : Int := x.addr f.cad + Int.ofNat f.cnt

/-- Cycle counts that a finisher access to the case can raise (R96, R105). -/
def finCaseWaits : List Field := [.prsBusyCyclesBusy, .prsStallCountsCaseConflict]

/-- FLD: a register from 8 lines of FP32, or 4 of BF16 widened exactly (R133). FP32 lanes are loaded bit for
bit and raise nothing; a NaN of a BF16 line raises nan_in, as an operand of a conversion (R62, R68, log
entry 76). -/
def execFld (p : Nat) (k : Tok) (f : FinF) (ce : List Nat) (s : State) : Res :=
  let x := s.press p
  s.dispatch p k uFin (FinOp.ld.fieldOk f && x.inCase f.cad) 0 true
    [(x.finLine f, if f.sub = 1 then 4 else 8)] finCaseWaits fun s =>
    let x := s.press p
    let l := (x.finLine f).toNat
    let s :=
      if f.sub = 1 then
        let raw := Fmt.bf16.unpack 512 (x.caseBytes l 1024)
        (s.setPress p { x with vregs := x.vregs.put f.vd (raw.map (convert .bf16 .fp32)) }).finFlags p
          (NumFlags.orAll (raw.map fun e => laneFlags [Fmt.bf16.decode e] (.fin false 0 0)))
      else
        s.setPress p { x with vregs := x.vregs.put f.vd (Fmt.fp32.unpack 512 (x.caseBytes l 2048)) }
    s.caseCes p ce

/-- The staging line as 256 bytes; it holds 0x7F at step release (R133). -/
def Press.stagingLine (x : Press) : List Byte :=
  if x.staging.isEmpty then List.replicate 256 0x7F else x.staging

/-- Bytes put into a list at an offset. -/
def spliceBytes (l : List Byte) (o : Nat) (bs : List Byte) : List Byte :=
  l.take o ++ bs ++ l.drop (o + bs.length)

/-- Case lines that FST reaches (R133). -/
def fstLines (x : Press) (f : FinF) : List (Int × Nat) :=
  (x.finLine f, dPitch f.sub) :: (if f.flush then [(x.addr f.xad, 1)] else [])

/-- FST: a register stored as FP32, BF16 or MX; scales go to a slot of the staging line, which a
flush writes and refills (R133). FP32 lanes are stored bit for bit and raise nothing; xad must name the case
where flush is set alone (R62, R68, R133, log entry 76). -/
def execFst (p : Nat) (k : Tok) (f : FinF) (s : State) : Res :=
  let x := s.press p
  s.dispatch p k uFin
    (FinOp.st.fieldOk f && x.inCase f.cad && (!f.flush || x.inCase f.xad)) 0
    (x.finReady true false false f) (fstLines x f) finCaseWaits fun s =>
    let x := s.press p
    let raw := x.vreg f.va
    let vs := raw.map fp32Val
    let c := if f.sub = 0 then (raw, [], NumFlags.none)
      else convertRow f.sub f.sat ((List.range 512).map fun n => s.rmode p f.rmode f.key f.srow n) vs
    let x := x.writeCase (x.finLine f).toNat (rowBytes f.sub c.1)
    let st := if c.2.1.isEmpty then x.stagingLine
      else spliceBytes x.stagingLine (16 * f.slot) (c.2.1.map fun b => BitVec.ofNat 8 b)
    let x := if f.flush then { (x.writeCase (x.addr f.xad).toNat st) with staging := [] }
      else { x with staging := st }
    let fl := if f.sub = 0 then NumFlags.none
      else c.2.2.or (NumFlags.orAll (vs.map fun v => laneFlags [v] (.fin false 0 0)))
    (s.setPress p (x.pops f)).finFlags p fl

/-- CMOV: cnt + 1 case lines copied from cad to xad (R133). -/
def execCmov (p : Nat) (k : Tok) (f : FinF) (ce : List Nat) (s : State) : Res :=
  let x := s.press p
  s.dispatch p k uFin (FinOp.cmov.fieldOk f && x.inCase f.cad && x.inCase f.xad) 0 true
    [(x.addr f.cad, f.cnt + 1), (x.addr f.xad, f.cnt + 1)] finCaseWaits fun s =>
    let x := s.press p
    (s.setPress p (x.writeCase (x.addr f.xad).toNat
      (x.caseBytes (x.addr f.cad).toNat ((f.cnt + 1) * 256)))).caseCes p ce

end Sys2Proof.Machine
end

