-- ==== Sys2Proof/Machine/Transfer.lean ====
section
/-!
DEFINITION. Galley transfers of a press (R118, R134) and the events of a press (R88, R97, R98,
R102, R109, R139).
-/

namespace Sys2Proof.Machine

/-- Galley lines named exist (R142). -/
def galLinesOk (a : Int) (n : Nat) : Bool := 0 ≤ a && a + Int.ofNat n ≤ Int.ofNat galLines

/-- Cycle counts that a galley transfer can raise (R96, R99, R100). -/
def bondWaits : List Field := [.prsStallCountsBondWait, .prsStallCountsCaseConflict]

/-- Reservation of the running step that a bond transfer of press p names; one that the step does not have
holds no slot (R134, R138). -/
def State.bondResv (s : State) (p resv : Nat) : Nat × Resv :=
  let none' : Resv := ⟨p % 3, p / 3, false, 0, 0, 1, 0, 0, 0, 0, 0⟩
  match s.formeOfPress p with
  | none => (255, none')
  | some x => (x.number, (s.resv x.number resv).getD none')

/-- First galley cycle in which a bond transfer dispatched now can move a line: three cycles on, and behind
those that its unit has still to do (R134). -/
def State.bondDue (s : State) (p : Nat) (fill : Bool) : Nat :=
  let now := s.rd .galCycleCycle (p / 3) 0 + 3
  (s.drains.filter fun d => d.isBond && d.press = p && d.fill = fill && !d.moved).foldl
    (fun t d => max t (d.slotOf (d.lineHi - 1) + 1)) now

/-- A bond transfer is queued on its reservation: it moves n lines in the slots of it, from galley line g and
case line l (R134, R146). -/
def State.queueBond (s : State) (p resv : Nat) (fill : Bool) (g l n : Nat) : State :=
  let e := s.bondResv p resv
  let r := e.2
  let rel := s.rd .hFormeRelCycle (p / 3) e.1
  { s with drains := s.drains ++ [{
      forme := e.1, chase := p / 3, code := p % 3, fill := fill, phase := r.phase, start := rel + r.start,
      stop := rel + r.stop, runHeld := r.runHeld, runPeriod := r.runPeriod, due := s.bondDue p fill,
      lineLo := g, lineHi := g + n, next := g, memAddr := l, toOut := false }] }

/-- GLOAD: lines from the galley slice of the press's chase to the case, in the slots of its reservation
(R134). -/
def execGload (p : Nat) (k : Tok) (f : GalF) (ce : List Nat) (s : State) : Res :=
  let x := s.press p
  let n := f.linesM1 + 1
  if p < 12 && s.pState p = pActive && !galLinesOk (x.addr f.gad) n && (x.ad f.gad).galley then
    .fault .noSuchLine
  else
    s.dispatch p k uBin ((x.ad f.gad).galley && x.inCase f.cad) 0 true [(x.addr f.cad, n)] bondWaits fun s =>
      let x := s.press p
      (s.queueBond p f.resv false (x.addr f.gad).toNat (x.addr f.cad).toNat n).galCes (p / 3) (p % 3) true ce

/-- GSTORE: lines from the case to the galley slice of the press's chase, in the slots of its reservation
(R134). -/
def execGstore (p : Nat) (k : Tok) (f : GalF) (ce : List Nat) (s : State) : Res :=
  let x := s.press p
  let n := f.linesM1 + 1
  if p < 12 && s.pState p = pActive && !galLinesOk (x.addr f.gad) n && (x.ad f.gad).galley then
    .fault .noSuchLine
  else
    s.dispatch p k uBout ((x.ad f.gad).galley && x.inCase f.cad) 0 true [(x.addr f.cad, n)] bondWaits fun s =>
      let x := s.press p
      (s.queueBond p f.resv true (x.addr f.gad).toNat (x.addr f.cad).toNat n).caseCes p ce

/-- The bond transfer that an instruction of BIN (4) or BOUT (5) makes, the oldest of its press, ends: it and
what its slice moves before it has moved (R109, R134). -/
def State.endBond (s : State) (p unit : Nat) : State :=
  match s.drains.find? fun d =>
      4 ≤ unit && d.isBond && d.press = p && d.fill = decide (unit = uBout) with
  | none => s
  | some d =>
    let s := if d.moved then s else s.finishXfer d
    { s with drains := s.drains.eraseP fun y => y.isBond && y.press = p && y.fill = d.fill }

/-- INSTRUCTION_COMPLETE: the unit's oldest instruction completes and signals its token (R108,
R109); a bond transfer has then moved its lines (R134). In mode GATE an array that is idle then gates
(R125). -/
def execInstructionComplete (p unit : Nat) (s : State) : Res :=
  if p < 12 && 1 ≤ unit && unit ≤ 5 then
    let x := s.press p
    match x.queue unit with
    | [] => .next s
    | e :: r =>
      let s := s.endBond p unit
      let x := s.press p
      let x := { x with queues := x.queues.put unit r }
      let x := if x.rampMode = 3 && x.arrayIdle then { x with gated := true } else x
      .next (s.setPress p (if e.sen then x.signal e.stok else x))
  else .fault .noSuchUnit

/-- ARRAY_RESUME: the drain took the waiting row; the freeze's cycles count in case_conflict, and a
drain that is still full freezes the array again at the next row (R88). -/
def execArrayResume (p frozen : Nat) (s : State) : Res :=
  if p < 12 then
    let x := s.press p
    if x.frozen then
      .next ((s.setPress p { x with frozen := decide (32 < x.drainQ.length) }).bump
        .prsStallCountsCaseConflict p 0 frozen)
    else .next s
  else .fault .noSuchUnit

/-- ARRAY_GATE: in mode AUTO the array gates after 256 idle cycles; the shadow slots keep their contents
(R102, R125). A press whose slices a CLOSING forme waits for is not idle (R434). In HOLD, WARM and GATE it
does nothing: R125 says it of AUTO alone (log entry 77). -/
def execArrayGate (p : Nat) (s : State) : Res :=
  if p < 12 then
    let x := s.press p
    let closing := match s.formeOfPress p with
      | some f => s.closingSlices f.number
      | none => false
    if x.rampMode = 0 && !closing then .next (s.setPress p { x with gated := true }) else .next s
  else .fault .noSuchUnit

/-- CASE_SCRUB: one line read, corrected and rewritten; corrected words count (R98). -/
def execCaseScrub (p : Nat) (ce : List Nat) (s : State) : Res :=
  if p < 12 then .next ((s.wr .hPrsScrubLine p 0 ((s.rd .hPrsScrubLine p 0 + 1) % 262144)).caseCes p ce)
  else .fault .noSuchUnit

/-- CASE_UNCORRECTABLE: ue and the address, ecc_uncorrected, the press PARKED, the forme's edition
abandoned, a suspect entry (R97, R441). DESIGN CHOICE: an ACTIVE press parks; one that is READY, between steps, stays
READY with ecc_uncorrected set, since R104 has no exit from READY to PARKED (log entry 90). -/
def execCaseUncorrectable (p word t : Nat) (s : State) : Res :=
  if p < 12 then
    let s := s.stamp t
    let s := (s.wr .caseEccStatusUe p 0 1).wr .caseEccStatusWordAddr p 0 word
    let s := s.wr .prsStatusEccUncorrected p 0 1
    let s := s.suspect 3 p (casePlace (word / 32)) (word % 32)
    let s := if s.pState p = pActive then s.setPState p pParked else s
    .next (s.abandonPress p causeUe t)
  else .fault .noSuchUnit

/-- ISTORE_ERROR: a corrected error counts; an uncorrectable one or an illegal word parks the press
and abandons the forme's edition (R139). -/
def execIstoreError (p half : Nat) (kind : IstoreErr) (t : Nat) (s : State) : Res :=
  if p < 12 then
    let s := s.stamp t
    match kind with
    | .corrected =>
      let s := if s.on .prsIstoreEccUe p 0 then s else s.wr .prsIstoreEccHalfAddr p 0 half
      .next ((s.wr .prsIstoreEccCe p 0 1).bump .prsIstoreEccCeCount p 0 1)
    | .uncorrectable =>
      let s := (s.wr .prsIstoreEccUe p 0 1).wr .prsIstoreEccHalfAddr p 0 half
      let s := s.wr .prsSeqStatusIstoreUe p 0 1
      let s := if s.pState p = pActive then s.setPState p pParked else s
      .next (s.abandonPress p causeIstore t)
    | .illegal =>
      let s := s.wr .prsSeqStatusIllegal p 0 1
      let s := if s.pState p = pActive then s.setPState p pParked else s
      .next (s.abandonPress p causeIstore t)
  else .fault .noSuchUnit

end Sys2Proof.Machine
end

