-- ==== Sys2Proof/Machine/ProgCheck.lean ====
section
/-!
DEFINITION. The checks of a press program at load (R136 to R138): size, words, and the dispatch
sequence of each step with every loop unrolled.
-/

namespace Sys2Proof.Machine

/-- Opcode of a word (R111). -/
def opOf (w : Nat) : Nat := wordBits w 127 120

/-- Unit that an opcode goes to (R107, R112). -/
def unitOf (op : Nat) : Nat :=
  if op = 0x10 then uShd
  else if op = 0x07 || op = 0x11 || op = 0x12 || op = 0x13 then uArr
  else if (finOpOf op).isSome then uFin
  else if op = 0x40 then uBin
  else if op = 0x41 then uBout
  else uSeq

/-- A case access of the walk: unit, its place among the unit's instructions, lines [lo, hi). -/
structure CaseUse where
  unit : Nat
  seq : Nat
  lo : Int
  hi : Int
  write : Bool
deriving DecidableEq, Repr

/-- What a program is checked against: press, depth of the form, galley ranges of the forme in the
press's slice, reservations of the step, and the press's barriers with their signals. -/
structure ProgEnv where
  press : Nat
  depth : Nat
  ranges : List (Nat × Nat)
  resvs : List Resv
  bars : List (Nat × Nat)
deriving DecidableEq, Repr

/-- Where the walk of a step stands. -/
structure Walk where
  /-- address registers, loop indices and frames -/
  x : Press
  pc : Nat
  /-- errors of the instruction in hand -/
  errs : List PrgErr
  /-- instructions dispatched to each unit, and how many of them are known complete (R136) -/
  sent : SMap Nat Nat
  known : SMap Nat Nat
  uses : List CaseUse
  /-- signals of each token not yet consumed, oldest first, and the unit that signals it (R109) -/
  signals : SMap Nat (List (Nat × Nat))
  owner : SMap Nat Nat
  /-- format and strips with defined weights, live and shadow loads in order (R78, R126) -/
  live : Nat × Nat
  shadow : List (Nat × Nat)
  bias : Bool
  /-- carry entries written -/
  carry : Nat
  /-- registers, masks and keys written, as bits -/
  vregs : Nat
  masks : Nat
  keys : Nat
  /-- rows not yet popped of each ring register (R130) -/
  rows : SMap Nat Nat
  bsig : SMap Nat Nat
  bwait : SMap Nat Nat
deriving DecidableEq, Repr

/-- The walk at a step's entry (R122). -/
def Walk.start (entry : Nat) : Walk :=
  { x := Press.init, pc := entry, errs := [], sent := [], known := [], uses := [], signals := [],
    owner := [], live := (0, 0), shadow := [], bias := false, carry := 0, vregs := 0, masks := 0,
    keys := 0, rows := [], bsig := [], bwait := [] }

/-- An error noted where a condition holds. -/
def Walk.fail (k : Walk) (c : Bool) (e : PrgErr) : Walk := if c then { k with errs := e :: k.errs } else k

/-- A case access at n lines from address register ad plus off: its space, its range, and the order
against other units (R120, R136). -/
def Walk.touch (k : Walk) (u ad off n : Nat) (write : Bool) : Walk :=
  let a := k.x.addr ad + Int.ofNat off
  let b := a + Int.ofNat n
  if !k.x.inCase ad then k.fail true .field
  else if !caseLineOk a n then k.fail true .range
  else
    let open' := k.uses.filter fun y => k.known.getD y.unit 0 < y.seq
    let race := open'.any fun y => y.unit != u && decide (y.lo < b) && decide (a < y.hi) && (write || y.write)
    { k.fail race .race with uses := CaseUse.mk u (k.sent.getD u 0) a b write :: open' }

/-- A finisher register is read (R137). -/
def Walk.readV (k : Walk) (c : Bool) (r : Nat) : Walk := k.fail (c && !bit k.vregs r) .state

/-- A mask is read (R137). -/
def Walk.readM (k : Walk) (c : Bool) (r : Nat) : Walk := k.fail (c && !bit k.masks r) .state

/-- A key register is read by stochastic rounding (R121, R137). -/
def Walk.readK (k : Walk) (rmode key : Nat) : Walk := k.fail (rmode = 2 && !bit k.keys key) .state

/-- The finisher writes a register: never a live ring register (R130). -/
def Walk.writeV (k : Walk) (r : Nat) : Walk :=
  { k.fail (k.rows.getD r 0 != 0) .ring with vregs := setBit k.vregs r }

/-- A ring register is popped (R130). -/
def Walk.pop (k : Walk) (c : Bool) (r : Nat) : Walk :=
  if c then
    if k.rows.getD r 0 = 0 then k.fail true .ring
    else { k with rows := k.rows.put r (k.rows.getD r 0 - 1) }
  else k

/-- The token of an instruction is waited for (R108, R109). -/
def Walk.wait (k : Walk) (t : Tok) : Walk :=
  if t.wen then
    match k.signals.getD t.wtok [] with
    | [] => k.fail true .token
    | e :: r => { k with signals := k.signals.put t.wtok r,
                         known := k.known.put e.1 (max (k.known.getD e.1 0) e.2) }
  else k

/-- The token of an instruction is signalled (R108, R109). -/
def Walk.signal (k : Walk) (t : Tok) (u : Nat) : Walk :=
  if t.sen then
    let l := k.signals.getD t.stok [] ++ [(u, k.sent.getD u 0)]
    let k := k.fail (k.owner.getD t.stok u != u || 255 < l.length) .token
    { k with signals := k.signals.put t.stok l, owner := k.owner.put t.stok u }
  else k

/-- Drained rows of a PASS or DRAIN (R129, R130). -/
def Walk.drainOut (k : Walk) (o : DrainOut) (rows : Nat) : Walk :=
  let k := k.readK o.rmode o.key
  if o.toRing then
    let w := 2 ^ o.ring
    (List.range (min w rows)).foldl (fun k i =>
      let r := o.vbase + i
      { k with rows := k.rows.put r (k.rows.getD r 0 + (rows - i + w - 1) / w),
               vregs := setBit k.vregs r }) k
  else
    let k := k.touch uArr o.dad 0 (rows * dPitch o.dfmt) true
    if 2 ≤ o.dfmt && o.dfmt ≤ 6 then k.touch uArr o.dsad 0 ((rows + 15) / 16) true else k

/-- WLOAD (R126). -/
def Walk.wload (k : Walk) (f : WloadF) : Walk :=
  let k := k.touch uShd f.wad 0 (f.strips * stripLines f.wfmt) false
  let k := if f.wfmt = 1 then k else k.touch uShd f.sad 0 (f.strips * scaleLines f.wfmt) false
  { k with shadow := k.shadow ++ [(f.wfmt, f.strips)] }

/-- A swap takes the oldest shadow load; strips above it keep their weights only in its format
(R126, R137). -/
def Walk.swap (k : Walk) (c : Bool) : Walk :=
  if c then
    match k.shadow with
    | [] => k.fail true .state
    | e :: r => { k with shadow := r, live := if k.live.1 = e.1 then (e.1, max e.2 k.live.2) else e }
  else k

/-- PASS (R43, R86, R126 to R128, R137). -/
def Walk.pass (k : Walk) (f : PassF) : Walk :=
  let m := f.mM1 + 1
  let k := k.swap f.swap
  let wf := k.live.1
  let k := k.fail (wf != 0 && !pairOk wf f.afmt) .field
  let k := k.fail (k.live.2 < f.strips) .state
  let k := k.fail (f.head = 1 && !k.bias) .state
  let uses := f.head = 2 || f.foot != 0
  let k := k.fail (uses && 1024 < m) .carry
  let k := k.fail (f.head = 2 && k.carry < min m 1024) .state
  let pitch := aPitch wf f.afmt
  let read := rowLines wf f.afmt f.strips
  let k := if read = pitch then k.touch uArr f.aad 0 (m * pitch) false
    else (List.range m).foldl (fun k i => k.touch uArr f.aad (i * pitch) read false) k
  let rpl := 256 / bprOf wf
  let k := if f.afmt = 1 then k else k.touch uArr f.asad 0 ((m + rpl - 1) / rpl) false
  let k := if f.foot = 0 then k else { k with carry := max k.carry m }
  if f.foot = 1 then k else k.drainOut f.out m

/-- DRAIN (R131). -/
def Walk.drain (k : Walk) (f : DrainF) : Walk :=
  let m := f.mM1 + 1
  let k := k.fail (1024 < f.m0 + m) .carry
  (k.fail (k.carry < min (f.m0 + m) 1024) .state).drainOut f.out m

/-- A finisher instruction (R117, R130, R132, R133, R137). -/
def Walk.fin (k : Walk) (o : FinOp) (f : FinF) : Walk :=
  let u := o.use
  match o with
  | .cmov => (k.touch uFin f.cad 0 (f.cnt + 1) false).touch uFin f.xad 0 (f.cnt + 1) true
  | .ld => (k.touch uFin f.cad f.cnt (if f.sub = 0 then 8 else 4) false).writeV f.vd
  | .st =>
    let k := ((k.readK f.rmode f.key).readV true f.va).pop f.pa f.va
    let k := k.touch uFin f.cad f.cnt (dPitch f.sub) true
    if f.flush then k.touch uFin f.xad 0 1 true else k
  | .msk =>
    let two := f.sub < 4
    let k := ((k.readM two f.va).readM two f.vb).readM f.pen f.pmask
    { k.readM f.pen f.vd with masks := setBit k.masks f.vd }
  | _ =>
    let k := (k.readV u.va f.va).readV (u.vb && !f.bi) f.vb
    let k := if o = .sel then k.readM true f.vc else k.readV u.vc f.vc
    let k := (if o = .cvt then k.readK f.rmode f.key else k).readM f.pen f.pmask
    let k := (k.pop f.pa f.va).pop (f.pb && !(f.pa && f.va = f.vb)) f.vb
    if o = .cmp then { k.readM f.pen f.vd with masks := setBit k.masks f.vd }
    else (k.readV (f.pen && !(o = .rsum || o = .rmax || o = .rmin)) f.vd).writeV f.vd

/-- The lines [lo, hi) lie in the union of some ranges; fuel n. -/
def covered (rs : List (Nat × Nat)) : Nat → Nat → Nat → Bool
  | 0, lo, hi => hi ≤ lo
  | n + 1, lo, hi =>
    hi ≤ lo || match rs.find? fun r => r.1 ≤ lo && lo < r.2 with
      | some r => covered rs n r.2 hi
      | none => false

/-- GLOAD or GSTORE: the forme's galley range, the case lines, and the reservation (R134, R138,
R145). -/
def Walk.galley (k : Walk) (e : ProgEnv) (f : GalF) (store : Bool) : Walk :=
  let n := f.linesM1 + 1
  let a := k.x.addr f.gad
  let k := k.fail (!(k.x.ad f.gad).galley) .field
  let k := k.fail (!galLinesOk a n || !covered e.ranges e.ranges.length a.toNat (a.toNat + n)) .range
  let ok := match e.resvs[f.resv]? with
    | none => false
    | some r => r.requester = e.press % 3 && r.slice = e.press / 3 && r.write = store &&
        decide (Int.ofNat r.lineLo ≤ a) && decide (a + Int.ofNat n ≤ Int.ofNat r.lineHi)
  (k.fail (!ok) .resv).touch (if store then uBout else uBin) f.cad 0 n (!store)

/-- BSIG or BWAIT (R124, R138). -/
def Walk.barrier (k : Walk) (e : ProgEnv) (b : Nat) (wait : Bool) : Walk :=
  let k := k.fail (!e.bars.any fun x => x.1 = b) .barrier
  if wait then
    let k := { k with bwait := k.bwait.put b (k.bwait.getD b 0 + 1) }
    k.fail (k.bsig.getD b 0 < k.bwait.getD b 0) .barrier
  else { k with bsig := k.bsig.put b (k.bsig.getD b 0 + 1) }

/-- STEP: every ring row popped, every barrier signalled as the table says (R138). DESIGN CHOICE: a count of BSIGs above
the table's is reported here too, at the STEP, and not at the surplus BSIG (log entry 90). -/
def Walk.stepEnd (k : Walk) (e : ProgEnv) : Walk :=
  let k := k.fail (k.rows.any fun r => r.2 != 0) .ring
  k.fail (e.bars.any fun x => k.bsig.getD x.1 0 != x.2) .barrier

/-- FENCE: the named units' instructions are complete (R123, R136). -/
def Walk.fence (k : Walk) (units : Nat) : Walk :=
  let add (m : SMap Nat Nat) (u : Nat) := if bit units (5 - u) then m.put u (k.sent.getD u 0) else m
  { k with known := [1, 2, 3, 4, 5].foldl add k.known }

/-- One instruction of the dispatch sequence. -/
def Walk.instr (k : Walk) (e : ProgEnv) (w : Nat) : Walk :=
  let op := opOf w
  let u := unitOf op
  let t := wordTok w
  let k := ({ k with errs := [] } : Walk).wait t
  let k := { k with sent := k.sent.put u (k.sent.getD u 0 + 1) }
  let k := match op with
    | 0x01 =>
      let lv := wordBits w 111 110
      let f := LoopFrame.mk lv (wordBits w 109 94 + 1) (k.pc + 1) (k.pc + wordBits w 93 82 + 2)
      { k with x := { k.x with frames := f :: k.x.frames, idx := k.x.idx.put lv 0 } }
    | 0x02 => { k with x := { k.x with ads := k.x.ads.put (wordBits w 111 108) (wordAddr w) } }
    | 0x03 => k.stepEnd e
    | 0x04 => k.barrier e (wordBits w 111 106) false
    | 0x05 => k.barrier e (wordBits w 111 106) true
    | 0x06 => k.fence (wordBits w 111 107)
    | 0x08 => { k with keys := setBit k.keys (wordBits w 111 110) }
    | 0x10 => k.wload ⟨wordBits w 111 108, wordBits w 107 103, wordBits w 102 99, wordBits w 98 95⟩
    | 0x11 => { k.touch uArr (wordBits w 107 104) 0 (if wordBits w 111 108 = 7 then 16 else 8) false with
                bias := true }
    | 0x12 => k.pass (wordPass w)
    | 0x13 => k.drain ⟨wordBits w 102 92, wordBits w 54 45, wordDrain w⟩
    | 0x40 => k.galley e (wordGal w) false
    | 0x41 => k.galley e (wordGal w) true
    | _ => match finOpOf op with
      | some o => k.fin o (wordFin w)
      | none => k
  k.signal t u

/-- The least of the codes of some errors (R138). -/
def leastCode (l : List PrgErr) : Option Nat :=
  match l.map PrgErr.code with
  | [] => none
  | c :: r => some (r.foldl min c)

/-- The dispatch sequence from an entry to its STEP (R119, R138): the first error, as its code and the
instruction's index; at most n instructions. -/
def walkStep (e : ProgEnv) (words : List Nat) : Nat → Walk → Option (Nat × Nat)
  | 0, _ => none
  | n + 1, k =>
    match words[k.pc]? with
    | none => none
    | some w =>
      let k := k.instr e w
      match leastCode k.errs with
      | some c => some (c, k.pc)
      | none =>
        if opOf w = 0x03 then none
        else
          let a := loopEnd (k.pc + 1) k.x.idx k.x.frames
          walkStep e words n { k with pc := a.1, x := { k.x with idx := a.2.1, frames := a.2.2 } }

/-- More instructions than any step dispatches: four loop levels of 2^16 trips over 2^14 words. -/
def walkFuel : Nat := 2 ^ 80

/-- Last index of the body of a LOOP at i (R119). -/
def bodyEnd (i w : Nat) : Nat := i + wordBits w 93 82 + 1

/-- A LOOP before index i whose body holds i. -/
def loopsAround (words : List Nat) (i : Nat) : List (Nat × Nat) :=
  ((words.take i).zipIdx).filterMap fun e =>
    if opOf e.1 = 0x01 && i ≤ bodyEnd e.2 e.1 then some (wordBits e.1 111 110, bodyEnd e.2 e.1) else none

/-- Loop structure at a word (R119, R138). -/
def loopBad (words : List Nat) (i w : Nat) : Bool :=
  let l := loopsAround words i
  (opOf w = 0x03 && !l.isEmpty) ||
    (opOf w = 0x01 && (words.length ≤ bodyEnd i w ||
      l.any fun o => o.2 < bodyEnd i w || o.1 = wordBits w 111 110))

/-- Pass 2 at a word: the word alone, its depth, its loop (R138). -/
def wordCheck (e : ProgEnv) (words : List Nat) (i w : Nat) : Option Nat :=
  match pressDecode e.press w with
  | .error x => some x.code
  | .ok _ =>
    if (opOf w = 0x10 || opOf w = 0x12) && e.depth < wordBits w 107 103 then some PrgErr.depth.code
    else if loopBad words i w then some PrgErr.loop.code
    else none

/-- Pass 1 (R138): the form's length and its entry table. -/
def sizeCheck (words entries : List Nat) : Option (Nat × Nat) :=
  if 16384 < words.length then some (PrgErr.size.code, 16384)
  else (entries.find? fun x => !(words.drop x).any fun w => opOf w = 0x03).map fun x =>
    (PrgErr.size.code, x)

/-- The three passes over one record (R138): code and instruction index of the first error. The
environments are those of the steps, in step-table order. -/
def progCheck (e0 : ProgEnv) (envs : List ProgEnv) (words entries : List Nat) : Option (Nat × Nat) :=
  match sizeCheck words entries with
  | some x => some x
  | none =>
    match words.zipIdx.findSome? fun w => (wordCheck e0 words w.2 w.1).map fun c => (c, w.2) with
    | some x => some x
    | none => (entries.zip envs).findSome? fun x => walkStep x.2 words walkFuel (Walk.start x.1)

end Sys2Proof.Machine
end

