-- ==== Sys2Proof/Machine/ImpCheck.lean ====
section
/-!
DEFINITION. The checks of an imposition at load, in the order of R220 (R148, R160, R173, R174, R187,
R190, R194, R203 to R217, R228, R279, R339, R341, R347, R354, R373, R530; log entry 22).
-/

namespace Sys2Proof.Machine

/-- A failed check as MOD_IMP_STATUS and MOD_IMP_DETAIL report it (R220). -/
structure ImpErr where
  code : Nat
  sec : Nat
  forme : Nat
  variant : Nat
  kind : Nat
  unit : Nat
  form : Nat
  index : Nat
deriving DecidableEq, Repr

/-- Codes of R220. -/
def eFormat : Nat := 0x01
def eDigest : Nat := 0x02
def eSignature : Nat := 0x03
def eRollback : Nat := 0x04
def eIdentity : Nat := 0x05
def eCapability : Nat := 0x06
def eSection : Nat := 0x07
def eForme : Nat := 0x08
def eVariant : Nat := 0x09
def eStep : Nat := 0x0A
def eEdition : Nat := 0x0B
def ePlan : Nat := 0x0C
def eCheckpoint : Nat := 0x0D
def eGalSlot : Nat := 0x20
def eGalPhase : Nat := 0x21
def eGalRange : Nat := 0x22
def eGalDuty : Nat := 0x23
def eMemRegion : Nat := 0x28
def eCmpField : Nat := 0x30
def eCmpRes : Nat := 0x31
def eColField : Nat := 0x38
def eColRes : Nat := 0x39
def eColStage : Nat := 0x3A

/-- An error of the module as a whole (R222: fields that name nothing read 0xFF). -/
def errModule (code : Nat) : ImpErr := ⟨code, 0xFF, 0xFF, 0xFF, 0, 0, 0, 0⟩

/-- An error where a condition holds. -/
def failIf (c : Bool) (e : ImpErr) : Option ImpErr := if c then some e else none

/-- The first error of some checks. -/
def firstErr (l : List (Option ImpErr)) : Option ImpErr := l.findSome? id

/-- The first error over the elements of a list with their positions. -/
def eachErr {α : Type} (l : List α) (f : α → Nat → Option ImpErr) : Option ImpErr :=
  l.zipIdx.findSome? fun x => f x.1 x.2

/-- What the checks look at. -/
structure ImpEnv where
  s : State
  bytes : List Byte
  dir : List Section
  imp : Imposition

/-- The section of a type that serves an owner. -/
def ImpEnv.sec (e : ImpEnv) (t f v : Nat) : Option Section := findSection e.dir t f v

/-- Its bytes. -/
def ImpEnv.raw (e : ImpEnv) (t f v : Nat) : List Byte := sectionBytes e.bytes (e.sec t f v)

/-- An error in the section of a type and owner. -/
def ImpEnv.err (e : ImpEnv) (code t f v index : Nat) : ImpErr :=
  ⟨code, match e.sec t f v with | some x => x.idx | none => 0xFF, f, v, 0, 0, 0, index⟩

/-! ### Verification (R205, R217, R220, R339) -/

/-- The header breaks R205, or its length differs from MOD_IMP_LEN (R220). -/
def headerBad (b : List Byte) (len : Nat) : Bool :=
  let total := leAt b 8 4
  leAt b 0 4 != 0x4D494B48 || leAt b 4 2 != 1 || leAt b 6 2 != 128 || total % 256 != 0 ||
    2 ^ 28 < total || total < 128 + sigBytes || total != len || leAt b 12 2 < 2 || 255 < leAt b 12 2 ||
    leAt b 34 2 < 1 || 16 < leAt b 34 2 ||
    !(zeroAt b 14 2 && zeroAt b 20 4 && zeroAt b 36 12 && zeroAt b 64 64)

/-- Capability levels of the dies with their kind and unit (R337, R339). -/
def State.dieLevels (s : State) : List (Nat × Nat × Nat) :=
  (List.range 12).map (fun p => (1, p, s.rd .prsCapabilityLevel p 0)) ++
    ((List.range 4).map (fun c => (2, c, s.rd .chsCapabilityLevel c 0)) ++
      (List.range 8).map fun k => (3, k, s.rd .oeCapabilityLevel k 0))

/-- The checks of VERIFYING, in order (R217, R218, R220). -/
def State.verifyErr (s : State) (b : List Byte) : Option ImpErr :=
  let p := splitSig b
  firstErr [failIf (headerBad b (s.rd .modImpLenBytes 0 0)) (errModule eFormat),
    failIf (!digestOk p.1 p.2) (errModule eDigest),
    failIf (!s.blockSigned p.2 4) (errModule eSignature),
    failIf (leAt b 24 8 < s.rd .secCounterValue 0 0) (errModule eRollback),
    failIf (leAt b 32 2 != s.identity || s.identity = 0) (errModule eIdentity),
    ((s.dieLevels.find? fun x => x.2.2 < leAt b 16 4).map fun x =>
      { errModule eCapability with kind := x.1, unit := x.2.1 })]

/-! ### Directory (R206, R207) -/

/-- Owner of a section type: 0 module, 1 forme, 2 variant. -/
def ownerOf (t : Nat) : Option Nat :=
  if t = secSignature || (1 ≤ t && t ≤ 4) then some 0
  else if t = secVariants || t = secCheckpoint then some 1
  else if 5 ≤ t && t ≤ 0x0A then some 2
  else none

/-- A directory entry names an owner that its type has. -/
def Section.ownerOk (x : Section) : Bool :=
  match ownerOf x.type with
  | some 0 => x.forme = 0xFF && x.variant = 0xFF
  | some 1 => x.forme < 16 && x.variant = 0xFF
  | some _ => x.forme < 16 && (x.variant < 32 || x.variant = 0xFF)
  | none => false

/-- Two entries name one section of one owner (R207). -/
def Section.same (x y : Section) : Bool :=
  x.type = y.type && x.forme = y.forme && (x.variant = y.variant || x.variant = 0xFF || y.variant = 0xFF)

/-- Bytes of a section. -/
def Section.span (x : Section) : Nat × Nat := (x.offset, x.offset + x.length)

/-- A directory entry breaks R206 or R207. -/
def ImpEnv.entryBad (e : ImpEnv) (x : Section) : Bool :=
  let total := leAt e.bytes 8 4
  let earlier := e.dir.take x.idx
  let last := x.idx + 1 = e.dir.length
  !x.ownerOk || !zeroAt e.bytes (131 + 16 * x.idx) 5 || x.offset % 256 != 0 || total < x.offset + x.length ||
    x.offset < 128 + 16 * e.dir.length || earlier.any (fun y => x.same y || spansMeet x.span y.span) ||
    decide (x.type = secSignature) != last ||
    (last && (x.offset != total - sigBytes || x.length != sigBytes))

/-- The directory's first error. -/
def ImpEnv.dirErr (e : ImpEnv) : Option ImpErr :=
  eachErr e.dir fun x n => failIf (e.entryBad x) { errModule eSection with sec := n, index := n }

/-! ### Module-owned sections -/

/-- Ports of a set that are lit. -/
def Imposition.litPorts (i : Imposition) (set : Nat) : List Nat :=
  (bitsSet set 32).filter fun q => (i.port q).lit

/-- A forme descriptor breaks R203, R208, R347 or R373. -/
def ImpEnv.formeBad (e : ImpEnv) (x : Forme) (r : List Byte) (n : Nat) : Bool :=
  let earlier := e.imp.formes.take n
  let lit := e.imp.litPorts x.portSet
  let pair := lit.filter fun q => (e.imp.port q).peer = e.imp.moduleId
  !(leAt r 0 1 < 16 && leAt r 1 1 < 4 && leAt r 3 1 < 16 && leAt r 4 2 < 4096 && zeroAt r 12 4 && zeroAt r 32 32) ||
    x.linkMin < 1 || 8 < x.linkMin || x.startEdition < 1 ||
    earlier.any (fun y => y.number = x.number || Nat.land y.pressSet x.pressSet != 0 ||
      Nat.land y.portSet x.portSet != 0 || Nat.land y.engineSet x.engineSet != 0 || (x.fabric && y.fabric)) ||
    (x.carriedFrom != 0xFF && !e.s.formeNums.contains x.carriedFrom) ||
    (!x.fabric && lit.any fun q => (e.imp.port q).peer != e.imp.moduleId) ||
    (x.mirrored && (pair.isEmpty || e.imp.memory.any fun m => !(m.spans x.number [1]).isEmpty))

/-- STRUCTURE (R208). -/
def ImpEnv.structureErr (e : ImpEnv) : Option ImpErr :=
  let s := e.raw secStructure 0xFF 0xFF
  let err (code n : Nat) := e.err code secStructure 0xFF 0xFF n
  firstErr [failIf (e.sec secStructure 0xFF 0xFF).isNone (errModule eSection),
    failIf (s.length < 64 * e.imp.formes.length) (err eForme (s.length / 64)),
    eachErr e.imp.formes fun x n =>
      failIf (e.formeBad x (recAt s 64 n) n) { err eForme n with forme := x.number }]

/-- The chase that a die link belongs to (R322, R339). -/
def dieChase (l : Nat) : Nat := if l < 4 then l else (l - 4) / 2

/-- A window of a guest record is not aligned, leaves its chase, or may write scheduled data (R341). -/
def ImpEnv.windowBad (e : ImpEnv) (g : Nat) (w : Nat × Nat) : Bool :=
  let a := bitsAt w.1 0 38
  let stop := a + 64 * w.2
  let m := e.imp.mem g
  let gal := bit w.1 38
  w.2 != 0 && (a % 64 != 0 || (if gal then 256 * galLines else 2 ^ 38) < stop ||
    (bit w.1 63 &&
      if gal then m.ranges.any fun x => entValid x && entAttr x = 2 && spansMeet (rangeSpan x) (a / 256, (stop + 255) / 256)
      else m.regions.any fun x => entValid x && entAttr x = 2 &&
        spansMeet (regionSpan x) (a / 2 ^ 23, (stop + 2 ^ 23 - 1) / 2 ^ 23)))

/-- A guest record (R339, R341). -/
def ImpEnv.guestErr (e : ImpEnv) (n g : Nat) : Option ImpErr :=
  let r := e.imp.guest g
  let err (code : Nat) := e.err code secRouting 0xFF 0xFF n
  firstErr [failIf (r.enable && (e.s.gState g != gUp || e.s.rd .gstCapabilityLevel g 0 < 1))
      { err eCapability with kind := 4, unit := g },
    failIf ((r.enable && (r.maxRate < 1 || 6 < r.maxRate)) || r.windows.any (e.windowBad g)) (err eSection)]

/-- ROUTING (R339 to R341); entries are numbered through the section. -/
def ImpEnv.routingErr (e : ImpEnv) : Option ImpErr :=
  let s := e.imp.routing
  let err (code n : Nat) := e.err code secRouting 0xFF 0xFF n
  if (e.sec secRouting 0xFF 0xFF).isNone then none
  else
    let routes := leAt s 0 2 % 2 ^ 11
    firstErr [failIf (1024 < routes || s.length < 176 + 4 * routes) (err eSection 0),
      eachErr (List.range 12) fun l n =>
        let w := leAt s (16 + 8 * l) 1 % 4
        firstErr [failIf (w = 2 && e.s.dieRev l = 1) { err eCapability n with kind := 2, unit := dieChase l },
          failIf (w = 3) (err eSection n)],
      e.guestErr 12 0, e.guestErr 13 2,
      eachErr (List.range routes) fun k n =>
        let m := leAt s (176 + 4 * k) 2
        failIf (!(e.imp.port (leAt s (178 + 4 * k) 1 % 32)).lit ||
          (List.range k).any fun j => leAt s (176 + 4 * j) 2 = m) (err eSection (14 + n))]

/-- The forme that owns a port. -/
def Imposition.portForme (i : Imposition) (q : Nat) : Option Forme := i.formes.find? fun x => bit x.portSet q

/-- A port record (R279, R373). -/
def ImpEnv.portErr (e : ImpEnv) (q : Nat) : Option ImpErr :=
  let r := e.imp.port q
  let need := ((e.imp.portForme q).map Forme.linkMin).getD 1
  let err (code : Nat) := e.err code secOptics 0xFF 0xFF q
  firstErr [failIf (r.lit && popCount r.dataMask 8 < need) (err eSection),
    failIf (r.lit && r.peer = e.imp.moduleId && 8 ≤ q) (err eForme)]

/-- A route byte is no permutation, or route 0 is not the identity (R279). -/
def ImpEnv.routeBad (e : ImpEnv) (r : Nat) : Bool :=
  (List.range 64).any fun x =>
    let v := leAt e.imp.optics (272 + 64 * r + x) 1
    (r = 0 && v != 0xE4) || !([0, 1, 2, 3].all fun j => (List.range 4).any fun f => v / 4 ^ f % 4 = j)

/-- A steer record breaks R279. -/
def ImpEnv.steerBad (e : ImpEnv) (n : Nat) : Bool :=
  let r := e.imp.steer n
  let step := (e.imp.formes.find? fun x => x.number = r.forme).bind fun x =>
    (x.variants.find? fun v => v.number = r.variant).bind fun v =>
      (v.steps[r.entry]?).map fun t => (x, (v.barriers.drop t.barFirst).take t.barCount)
  match step with
  | none => true
  | some (x, bars) =>
    !(bars.any fun b => b.barrier = r.barrier) || e.imp.routes ≤ r.route ||
      ((bitsSet r.engines 8).any fun k => (List.range 4).any fun j =>
        !bit x.portSet (4 * k + j) && (List.range 8).any fun w => e.imp.slotMoves 0 r.route k j w) ||
      (List.range n).any fun m =>
        let q := e.imp.steer m
        q.forme = r.forme && q.variant = r.variant && q.entry = r.entry && q.barrier = r.barrier &&
          Nat.land q.engines r.engines != 0

/-- OPTICS (R278, R279); entries are numbered through the section. -/
def ImpEnv.opticsErr (e : ImpEnv) : Option ImpErr :=
  let i := e.imp
  let err (n : Nat) := e.err eSection secOptics 0xFF 0xFF n
  if (e.sec secOptics 0xFF 0xFF).isNone then none
  else firstErr [failIf (i.routes < 1 || 64 < i.routes || 4096 < i.steers ||
      i.optics.length < 272 + 64 * i.routes + 16 * i.steers) (err 0),
    eachErr (List.range 32) fun q _ => e.portErr q,
    eachErr (List.range i.routes) fun r n => failIf (e.routeBad r) (err (32 + n)),
    eachErr (List.range i.steers) fun x n => failIf (e.steerBad x) (err (32 + i.routes + n))]

/-- MEMORY of one chase (R144, R148, R160, R203); its 49 entries are numbered through the section. -/
def ImpEnv.chaseErr (e : ImpEnv) (c : Nat) : Option ImpErr :=
  let m := e.imp.mem c
  let err (code n : Nat) := { e.err code secMemory 0xFF 0xFF (49 * c + n) with kind := 2, unit := c }
  let known (f : Nat) := f = 0xFE || f = 0xFF || e.imp.formes.any fun x => x.number = f
  let two (x y : Nat) := entForme y != entForme x && entForme x != 0xFF && entForme y != 0xFF
  firstErr [failIf (!(List.range 8).all fun ph => known (m.phase ph)) (err eGalPhase 0),
    eachErr m.ranges fun x n => failIf (entValid x && (m.ranges.take n).any fun y =>
      entValid y && entForme y != entForme x && spansMeet (rangeSpan x) (rangeSpan y)) (err eForme (1 + n)),
    eachErr m.regions fun x n =>
      let meets (y : Nat) := entValid y && spansMeet (regionSpan x) (regionSpan y)
      firstErr [failIf (entValid x && (m.regions.take n).any fun y => meets y && two x y)
          (err eForme (33 + n)),
        failIf (entValid x && (entAttr x = 3 || 32768 < (regionSpan x).2 || (m.regions.take n).any meets))
          (err eMemRegion (33 + n))]]

/-- MEMORY (R207). -/
def ImpEnv.memoryErr (e : ImpEnv) : Option ImpErr :=
  let s := e.raw secMemory 0xFF 0xFF
  if (e.sec secMemory 0xFF 0xFF).isNone then none
  else firstErr [failIf (s.length < 4 * 392) (e.err eSection secMemory 0xFF 0xFF 0),
    eachErr [0, 1, 2, 3] fun c _ => e.chaseErr c]

/-! ### Variants -/

/-- Where a variant's checks stand. -/
structure VarEnv where
  e : ImpEnv
  f : Forme
  v : Variant

/-- An error in a variant's section. -/
def VarEnv.err (x : VarEnv) (code t index : Nat) : ImpErr :=
  { x.e.err code t x.f.number x.v.number index with variant := x.v.number }

/-- Bytes of a variant's section. -/
def VarEnv.raw (x : VarEnv) (t : Nat) : List Byte := x.e.raw t x.f.number x.v.number

/-- Reservations of a step of the variant. -/
def Variant.stepRes (v : Variant) (t : StepEntry) : List Resv := (v.resvs.drop t.resFirst).take t.resCount

/-- Barriers of a step of the variant. -/
def Variant.stepBars (v : Variant) (t : StepEntry) : List BarEntry :=
  (v.barriers.drop t.barFirst).take t.barCount

/-- Job descriptors of a step of the variant. -/
def Variant.stepDescs (v : Variant) (t : StepEntry) : List Nat := (v.jobs.drop t.jobFirst).take t.jobCount

/-- A VARIANTS entry (R215, R220, R339). -/
def ImpEnv.variantErr (e : ImpEnv) (f : Forme) (v : Variant) (n : Nat) : Option ImpErr :=
  let err (code : Nat) := { e.err code secVariants f.number 0xFF n with variant := n }
  let slow := (List.range 12).find? fun l => bitsAt v.widths (2 * l) 2 = 2 && e.s.dieRev l = 1
  firstErr [slow.map fun l => { err eCapability with kind := 2, unit := dieChase l },
    failIf (v.number != n || Nat.land v.pressMask f.pressSet != v.pressMask ||
      Nat.land v.engineMask f.engineSet != v.engineMask ||
      (n = 0 && (v.pressMask != f.pressSet || v.engineMask != f.engineSet))) (err eVariant)]

/-- Environments of a press's program in each step (R138). -/
def VarEnv.progEnv (x : VarEnv) (p form : Nat) (t : StepEntry) : ProgEnv :=
  { press := p, depth := 16 - form,
    ranges := (x.e.imp.mem (p / 3)).spans x.f.number [0, 1, 2, 3],
    resvs := x.v.stepRes t,
    bars := (x.v.stepBars t).flatMap fun b =>
      (b.parts.filter fun q => q.kind = 0 && q.unit = p).map fun q => (b.barrier, q.signals) }

/-- A program record (R138, R209). -/
def VarEnv.programErr (x : VarEnv) (r : List Byte) (g : ProgRec) (n : Nat) : Option ImpErr :=
  let err (code i : Nat) := { x.err code secProgram i with kind := 1, unit := g.press, form := g.form }
  let earlier := x.v.programs.take n
  let bad := r.length != 32 + 2 * leAt r 4 4 + 16 * leAt r 2 2 || 16 ≤ leAt r 0 1 || 2 ≤ leAt r 1 1 ||
    !zeroAt r 8 24 || g.words.length < 1 || 16384 < g.words.length ||
    g.entries.length != x.v.steps.length || !bit x.v.pressMask g.press ||
    earlier.any fun y => y.press = g.press && y.form = g.form
  let envs := x.v.steps.map (x.progEnv g.press g.form)
  if bad then some (err eForme n)
  else (progCheck ⟨g.press, 16 - g.form, [], [], []⟩ envs g.words g.entries).map fun c => err c.1 c.2

/-- PROGRAM (R209): the records in section order, then the forms that are missing. -/
def VarEnv.programsErr (x : VarEnv) : Option ImpErr :=
  let s := x.raw secProgram
  let recs := programRecs s.length s
  let want := (bitsSet x.v.pressMask 12).flatMap fun p => [(p, 0), (p, 1)]
  let miss := want.find? fun k => !x.v.programs.any fun g => g.press = k.1 && g.form = k.2
  firstErr [eachErr (recs.zip x.v.programs) fun g n => x.programErr g.1 g.2 n,
    miss.map fun k => { x.err eForme secProgram recs.length with kind := 1, unit := k.1, form := k.2 }]

/-- First entry of the edition that holds step-table entry j (R226). -/
def editionFirst (l : List StepEntry) (j : Nat) : Nat :=
  match (List.range j).reverse.find? fun i => ((l[i]?).map StepEntry.editionEnd).getD false with
  | some i => i + 1
  | none => 0

/-- Nominal duration of the edition that ends at entry j (R220). -/
def editionSum (l : List StepEntry) (j : Nat) : Nat :=
  let a := editionFirst l j
  (((l.drop a).take (j + 1 - a)).map StepEntry.nominal).foldl (fun x y => x + y) 0

/-- A step entry breaks R210, or its watchdog is too short (R220). -/
def VarEnv.stepBad (x : VarEnv) (t : StepEntry) (r : List Byte) (n : Nat) : Bool :=
  2 ≤ leAt r 12 2 || !zeroAt r 14 2 || 2 ^ 13 ≤ leAt r 20 2 || !zeroAt r 22 2 || 2 ^ 7 ≤ leAt r 28 1 ||
    !zeroAt r 29 3 || 2 ^ 9 ≤ leAt r 36 2 || !zeroAt r 38 10 ||
    4096 < t.resCount || 64 < t.barCount || 256 < t.jobCount ||
    x.v.resvs.length < t.resFirst + t.resCount ||
    (x.raw secBarriers).length / 16 < t.barFirst + t.barCount ||
    x.v.jobs.length < t.jobFirst + t.jobCount || t.watchdog < t.nominal + t.slack ||
    (n + 1 = x.v.steps.length && !t.editionEnd)

/-- STEPS (R210, R215, R220, R226); an edition's fault is reported at its first entry. -/
def VarEnv.stepsErr (x : VarEnv) : Option ImpErr :=
  let s := x.raw secSteps
  let l := x.v.steps
  let sums := ((List.range l.length).filter fun j => ((l[j]?).map StepEntry.editionEnd).getD false).map
    (editionSum l)
  firstErr [failIf (l.length < 1 || 65536 < l.length || s.length % 48 != 0) (x.err eStep secSteps 0),
    eachErr l fun t n => firstErr [failIf (x.stepBad t (recAt s 48 n) n) (x.err eStep secSteps n),
      failIf (t.editionEnd && (editionSum l n < 1000000 || 50000000 < editionSum l n))
        (x.err eEdition secSteps (editionFirst l n))],
    failIf (x.v.editionNominal != sums.foldl max 0) (x.err eEdition secSteps 0)]

/-! ### Reservations (R144 to R148, R530) -/

/-- The duty and window of a reservation are in order (R148). DESIGN CHOICE: a run_period above 16, which
R145 rules out and for which R148 names no error, is GAL_DUTY too (log entry 78). -/
def Resv.dutyOk (r : Resv) : Bool :=
  1 ≤ r.runHeld && r.runHeld ≤ r.runPeriod && r.runPeriod ≤ 16 && r.start < r.stop

/-- The reservation holds its phase at galley cycle t of the step (R145). -/
def Resv.holdsAt (r : Resv) (t : Nat) : Bool :=
  r.start ≤ t && t < r.stop && (t - r.start) / 8 % r.runPeriod < r.runHeld

/-- Two reservations hold one phase of one slice in a common cycle; their patterns repeat (R145,
R148). -/
def Resv.clash (q r : Resv) : Bool :=
  let lo := max q.start r.start
  let n := min (min q.stop r.stop - lo) (8 * q.runPeriod * r.runPeriod)
  q.slice = r.slice && q.phase = r.phase && q.dutyOk && r.dutyOk &&
    (List.range n).any fun i => q.holdsAt (lo + i) && r.holdsAt (lo + i)

/-- Reservation entry k belongs to the job of a compositor (R530). -/
def Variant.namedByJob (v : Variant) (k : Nat) : Bool :=
  v.steps.any fun t => (v.stepDescs t).any fun d =>
    !jCol d && t.resFirst + jResFirst d ≤ k && k < t.resFirst + jResFirst d + jResCount d

/-- Addresses [first, past) that a stack reservation reaches under a mode (R530). -/
def Resv.stackSpan (r : Resv) (mode : Nat) : Nat × Nat :=
  (r.memAddr, (unitAddrs mode (r.requester - 15) r.memAddr (r.lineHi - r.lineLo - 1)).2 + 128)

/-- A fill or drain keeps within one memory region of its forme (R530). -/
def VarEnv.stackOk (x : VarEnv) (r : Resv) : Bool :=
  let band := r.memAddr / 2 ^ 23
  let fit (y : Nat) := entValid y && entForme y = x.f.number && (regionSpan y).1 ≤ band && band < (regionSpan y).2 &&
    (entAttr y = 2 || (r.write && entAttr y = 1))
  match (x.e.imp.mem r.slice).regions.find? fit with
  | none => false
  | some y =>
    let m := regionMode y
    stackOf m r.memAddr = r.requester - 15 && r.memAddr % (if m = 1 then 128 else 256) = 0 &&
      (r.lineHi ≤ r.lineLo || (r.stackSpan m).2 ≤ (regionSpan y).2 * 2 ^ 23)

/-- A reservation entry (R148, R530). DESIGN CHOICE: a read over a range that scheduled transfers may not access
(CORE, REFILL) is refused with GAL_RANGE: R152 gives it no access and R148 names no other code (log entry
22). -/
def VarEnv.resvErr (x : VarEnv) (r : Resv) (k : Nat) : Option ImpErr :=
  let m := x.e.imp.mem r.slice
  let err (code : Nat) := x.err code secResvs k
  let spans := m.spans x.f.number (if r.write then [2] else [1, 2])
  let clash := x.v.steps.any fun t => t.resFirst ≤ k && k < t.resFirst + t.resCount &&
    ((x.v.resvs.drop t.resFirst).take (k - t.resFirst)).any fun q => q.clash r
  firstErr [failIf clash (err eGalSlot),
    failIf (m.phase r.phase != x.f.number) (err eGalPhase),
    failIf (!covered spans spans.length r.lineLo r.lineHi ||
      (r.isStack && !x.v.namedByJob k && !x.stackOk r)) (err eGalRange),
    failIf (!r.dutyOk) (err eGalDuty)]

/-! ### Barriers (R212, R347, R354) -/

/-- A participant record lies within its ranges (R212). -/
def partOk (r : List Byte) (q : BarPart) : Bool :=
  leAt r 0 1 < 4 && leAt r 1 1 ≤ (if q.kind = 0 then 11 else if q.kind = 3 then 0 else 3) && 1 ≤ q.signals

/-- Arrivals that the module sends on a barrier of one step: one for each round of its local
participants (R354). -/
def BarEntry.sends (b : BarEntry) : Nat :=
  if b.fabric then minList ((b.parts.filter fun q => q.kind != 3).map BarPart.signals) else 0

/-- Arrivals sent on barrier number n in the edition up to step-table entry j (R354). -/
def Variant.sentUpTo (v : Variant) (n j : Nat) : Nat :=
  let a := editionFirst v.steps j
  (((v.steps.drop a).take (j + 1 - a)).flatMap fun t =>
    ((v.stepBars t).filter fun b => b.barrier = n).map BarEntry.sends).foldl (fun x y => x + y) 0

/-- A barrier entry (R212, R347, R354). -/
def VarEnv.barErr (x : VarEnv) (b : BarEntry) (k : Nat) : Option ImpErr :=
  let s := x.raw secBarriers
  let r := recAt s 16 k
  let parts := leAt r 2 2
  let err (code : Nat) := x.err code secBarriers k
  let mine := x.v.steps.zipIdx.filter fun t => t.1.barFirst ≤ k && k < t.1.barFirst + t.1.barCount
  let again := mine.any fun t =>
    ((x.v.barriers.drop t.1.barFirst).take (k - t.1.barFirst)).any fun y => y.barrier = b.barrier
  firstErr [failIf (parts < 1 || 4096 < parts || s.length < leAt r 4 4 + 8 * parts || again ||
      (partBytes s r).any fun q => !partOk q (parsePart q)) (err eSection),
    failIf (!x.f.fabric && (b.fabric || b.parts.any fun q => q.kind = 3)) (err eForme),
    failIf (mine.any fun t => 63 < x.v.sentUpTo b.barrier t.2) (err eStep)]

/-! ### Jobs (R170, R173, R174, R177, R187, R191, R194, R200, R201, R533) -/

/-- Fields of a descriptor that are reserved: first bit and width (R174, R187). -/
def reservedOf (col : Bool) : List (Nat × Nat) :=
  if col then [(16, 5), (26, 5), (61, 3), (117, 11), (149, 11), (181, 11), (213, 11), (254, 2), (268, 4),
    (277, 3), (280, 8), (376, 8), (405, 11), (437, 11), (448, 64)]
  else [(16, 1), (26, 5), (102, 26), (184, 8), (208, 16), (245, 11), (277, 11), (309, 11), (341, 11), (382, 2),
    (396, 4), (404, 4), (408, 8), (448, 64)]

/-- The job's barrier has a participant record of its engine and chase (R170). -/
def barrierOk (bars : List BarEntry) (d : Nat) : Bool :=
  bars.any fun b => b.barrier = jBarrier d &&
    b.parts.any fun q => q.kind = (if jCol d then 2 else 1) && q.unit = jChase d

/-- A compositor descriptor's own fields are legal (R174, R177). DESIGN CHOICE: ofmt of GATHER, which the table
gives to POOL only, must be zero like its mode; and a row of any format longer than row_bytes is refused, as
R177 has it for E4M3 and E5M2 (log entry 89). -/
def cmpFieldOk (d : Nat) : Bool :=
  let pool := jKind d = 1
  (jKind d = 1 || jKind d = 2) && jFmt d ≤ 3 && pRmode d != 3 &&
    (if pool then jMode d ≤ 3 && pOfmt d ≤ 1 else jMode d = 0 && pOfmt d = 0) &&
    (pWeight d = 0 || (pool && jMode d = 3)) && 1 ≤ pDim d && pDim d ≤ 2048 &&
    (jFmt d < 2 || pDim d % 32 = 0) && pRowBytes d % 64 = 0 && 64 ≤ pRowBytes d && pRowBytes d ≤ 4096 &&
    elemBytes (jFmt d) (pDim d) ≤ pRowBytes d && pTable d % 64 = 0 && 1 ≤ pRows d && 1 ≤ pSlots d &&
    pSlots d ≤ 4096 && 1 ≤ jResCount d && jResCount d ≤ 8

/-- The table lies within one region of the forme, SCHEDULED or SHARED (R174). -/
def VarEnv.tableOk (x : VarEnv) (d : Nat) : Bool :=
  let stop := pTable d + pRows d * pRowBytes d
  (x.e.imp.mem (jChase d)).regions.any fun y => entValid y && entForme y = x.f.number &&
    (entAttr y = 1 || entAttr y = 2) && (regionSpan y).1 * 2 ^ 23 ≤ pTable d && stop ≤ (regionSpan y).2 * 2 ^ 23

/-- Lines that a job moves: the requester codes that may move them, the direction, first line, count. -/
structure JobLines where
  codes : List Nat
  write : Bool
  first : Nat
  count : Nat

/-- Lines that a compositor job reads or writes; its rows come into the staging range by a stack's fill (R149,
R175, R180, R183, R184). -/
def cmpLines (d : Nat) : List JobLines :=
  let n := pBags d * pSlots d
  let row := linesOf (pRowBytes d)
  let out := if jKind d = 1 then pBags d * linesOf (pDim d * obytes (pOfmt d)) else n * row
  [⟨[4], false, pIndex d, linesOf (4 * n)⟩, ⟨[4], false, pStage d, 512 * row⟩,
    ⟨[15, 16, 17, 18], true, pStage d, 512 * row⟩, ⟨[4], true, pOut d, out⟩] ++
    (if jKind d = 1 && jMode d = 3 then [⟨[4], false, pWeight d, linesOf (4 * n)⟩] else [])

/-- Formats that a collective operation takes (R191). -/
def colFmtOk (d : Nat) : Bool :=
  let i := jMode d
  let o := jFmt d
  let fp (f : Nat) := f = 0 || f = 1
  match jKind d with
  | 1 => (i = 7 && o = 7) || (fp i && fp o)
  | 2 => (i = 7 && o = 7) || (fp i && fp o)
  | 3 => i = o && (Fmt.ofCode i).isSome
  | 4 => i = o && (Fmt.ofCode i).isSome
  | 5 => i = o && i ≤ 6
  | 6 => fp i && fp o
  | _ => false

/-- A collective descriptor's fields are legal (R187, R191). -/
def VarEnv.colFieldOk (x : VarEnv) (d : Nat) : Bool :=
  let moe := jKind d = 5 || jKind d = 6
  let rank := (x.v.plans[cPlan d]?).bind fun p => p.ranks[cRank d]?
  colFmtOk d && cRmode d != 3 && 1 ≤ jResCount d && jResCount d ≤ 31 &&
    (match rank with
     | some r => r.module = x.e.imp.moduleId && r.chase = jChase d
     | none => false) &&
    (if moe then 1 ≤ cExperts d && 1 ≤ cCap d && 1 ≤ cTokens d && 1 ≤ cK d && cK d ≤ cKc d && cKc d ≤ 8
     else cExperts d = 0)

/-- Lines of a collective job that the engine reads, or a link that transmits them (R149, R193). -/
def colRead (first count : Nat) : JobLines := ⟨[3, 10, 11, 12, 13], false, first, count⟩

/-- Lines of a collective job that the engine writes, or a link that receives them (R149, R193). -/
def colWrite (first count : Nat) : JobLines := ⟨[3, 5, 6, 7, 8], true, first, count⟩

/-- Lines that a collective job reads or writes (R200, R201, R533). -/
def VarEnv.colLines (x : VarEnv) (d : Nat) : List JobLines :=
  let p := ((x.v.plans[cPlan d]?).map fun y => y.ranks.length).getD 0
  let bi := linesOf (elemBytes (jMode d) (cCount d))
  let bo := linesOf (elemBytes (jFmt d) (cCount d))
  let slots := hostsAt d p (cRank d) * cCap d
  match jKind d with
  | 1 => [colRead (cSrc d) (p * bi), colWrite (cDst d) (p * bo)]
  | 2 => [colRead (cSrc d) (p * bi), colWrite (cDst d) bo]
  | 3 => [colRead (cSrc d + cRank d * bi) bi, colWrite (cDst d) (p * bo)]
  | 4 => [colRead (cSrc d) (p * bi), colWrite (cDst d) (p * bo)]
  | 5 =>
    let table := linesOf (8 * cTokens d * cKc d)
    [colRead (cSrc d) (cTokens d * srcPitch d), colRead (cRoute d) table,
      colWrite (cRoute d + table) (linesOf (8 * cTokens d * cK d)), colWrite (cDst d) (slots * bo),
      colWrite (cMask d) (linesOf ((slots + 7) / 8))]
  | _ =>
    [colRead (cRoute d) (linesOf (8 * cTokens d * cK d)), colRead (cSrc d) (slots * bi),
      colRead (cStage d) (cTokens d * cK d * bi), colWrite (cStage d) (cTokens d * cK d * bi),
      colWrite (cDst d) (cTokens d * linesOf (cCount d * obytes (jFmt d)))]

/-- The job's reservations cover its lines, each by requesters that may move it (R149, R173). -/
def resCovers (res : List Resv) (d : Nat) (lines : List JobLines) : Bool :=
  let mine := (res.drop (jResFirst d)).take (jResCount d)
  jResFirst d + jResCount d ≤ res.length && lines.all fun n =>
    let spans := (mine.filter fun r =>
      r.slice = jChase d && r.write = n.write && n.codes.contains r.requester).map fun r => (r.lineLo, r.lineHi)
    covered spans spans.length n.first (n.first + n.count)

/-- Most values held at once below a node that is not yet formed, for leaves in any order of arrival;
nodes formed elsewhere arrive as leaves (R189, R194). -/
def heldMost (leaf : Nat → Nat → Bool) : Nat → Nat → Nat → Nat
  | 0, _, _ => 0
  | n + 1, lo, hi =>
    if hi ≤ lo + 1 || leaf lo hi then 0
    else
      let m := lo + splitOf (hi - lo)
      let a := heldMost leaf n lo m
      let b := heldMost leaf n m hi
      max (a + b) (max (1 + b) (a + 1))

/-- Values that a reduction's engine may have to hold: its own shard, and the nodes that the plan gives
its chase in every other shard (R190, R194; log entry 22). -/
def VarEnv.heldValues (x : VarEnv) (d : Nat) : Nat :=
  match x.v.plans[cPlan d]? with
  | none => 0
  | some p =>
    let here (n : PlanNode) := n.module = x.e.imp.moduleId && n.chase = jChase d
    let far (lo hi : Nat) := p.nodes.any fun n => n.lo = lo && n.hi = hi && !here n
    let top := p.nodes.filter fun n => here n && !p.nodes.any fun m =>
      here m && m.lo ≤ n.lo && n.hi ≤ m.hi && !(m.lo = n.lo && m.hi = n.hi)
    let others := (top.map fun n => heldMost far 15 n.lo n.hi).foldl (fun a b => a + b) 0
    heldMost far 15 0 p.ranks.length + (p.ranks.length - 1) * others

/-- The staging range holds the worst case: the bytes of the values that a reduction may hold, or the rows that a
MOE_COMBINE takes back, each of which its transfer's head puts at a line of its own (R194, R201, R297; log
entry 22). -/
def VarEnv.stageOk (x : VarEnv) (d : Nat) : Bool :=
  if jKind d = 1 || jKind d = 2 then
    x.heldValues d * (nodeBytes d * cCount d) ≤ 256 * cStageLines d
  else if jKind d = 6 then
    cTokens d * cK d * linesOf (elemBytes (jMode d) (cCount d)) ≤ cStageLines d
  else true

/-- A job descriptor, in each step that runs it (R170, R173, R174, R187, R194). -/
def VarEnv.jobErr (x : VarEnv) (d k : Nat) : Option ImpErr :=
  let err (code : Nat) := x.err code secJobs k
  let steps := x.v.steps.filter fun t => t.jobFirst ≤ k && k < t.jobFirst + t.jobCount
  let res := (reservedOf (jCol d)).all fun f => bitsAt d f.1 f.2 = 0
  let bars := steps.all fun t => barrierOk (x.v.stepBars t) d
  if jCol d then
    firstErr [failIf (!(res && bars && x.colFieldOk d)) (err eColField),
      failIf (!steps.all fun t => resCovers (x.v.stepRes t) d (x.colLines d)) (err eColRes),
      failIf (!x.stageOk d) (err eColStage)]
  else
    firstErr [failIf (!(res && bars && cmpFieldOk d && x.tableOk d)) (err eCmpField),
      failIf (!steps.all fun t => resCovers (x.v.stepRes t) d (cmpLines d)) (err eCmpRes)]

/-! ### Plans (R54, R186, R190, R214, R347) -/

/-- A node record is valid (R190). -/
def Plan.nodeOk (p : Plan) (n : PlanNode) : Bool :=
  (parentOf p.ranks.length n.lo n.hi).isSome && n.chase < 4 &&
    ((p.ranks.drop n.lo).take (n.hi - n.lo)).all fun r => r.module = n.module

/-- The plan's records lie in the section (R214). -/
def planFits (s : List Byte) (i : Nat) : Bool :=
  let o := leAt s (4 * i) 4
  4 * i + 4 ≤ s.length && o + 16 + 16 * leAt s o 2 + 8 * (leAt s (o + 2) 2 + leAt s (o + 4) 2) ≤ s.length

/-- A plan (R54, R186, R190, R347). -/
def VarEnv.planErr (x : VarEnv) (s : List Byte) (p : Plan) (i : Nat) : Option ImpErr :=
  let n := p.ranks.length
  let first := (x.f.variants.head?).bind fun v => v.plans[i]?
  let twice := p.nodes.zipIdx.any fun a => (p.nodes.take a.2).any fun b => b.lo = a.1.lo && b.hi = a.1.hi
  firstErr [failIf (!x.f.fabric && p.ranks.any fun r => r.module != x.e.imp.moduleId) (x.err eForme secPlans i),
    failIf (!planFits s i || n < 1 || 8192 < n || twice || !p.nodes.all p.nodeOk ||
      first.map (fun q => q.ranks.length) != some n) (x.err ePlan secPlans i)]

/-- PLANS: each plan, then the number of them (R54). -/
def VarEnv.plansErr (x : VarEnv) : Option ImpErr :=
  let s := x.raw secPlans
  let n := x.v.plans.length
  let want := ((x.f.variants.head?).map fun v => v.plans.length).getD n
  firstErr [eachErr x.v.plans (x.planErr s), failIf (n != want) (x.err ePlan secPlans n)]

/-- A variant's sections in type order (R220). -/
def VarEnv.sectionsErr (x : VarEnv) : Option ImpErr :=
  let lacks := [secProgram, secSteps, secResvs, secBarriers, secJobs, secPlans].any fun t =>
    (x.e.sec t x.f.number x.v.number).isNone
  firstErr [failIf lacks { x.e.err eVariant secVariants x.f.number 0xFF x.v.number with variant := x.v.number },
    x.programsErr, x.stepsErr, eachErr x.v.resvs x.resvErr, eachErr x.v.barriers x.barErr,
    eachErr x.v.jobs x.jobErr, x.plansErr]

/-! ### Checkpoints (R216, R228) -/

/-- A drain of a variant reaches a span of bands of chase c (R228, R530). -/
def Variant.drainsInto (v : Variant) (c mode : Nat) (span : Nat × Nat) : Bool :=
  v.resvs.zipIdx.any fun r =>
    let a := r.1.stackSpan mode
    r.1.isStack && !r.1.write && r.1.slice = c && !v.namedByJob r.2 && r.1.lineLo < r.1.lineHi &&
      spansMeet span (a.1 / 2 ^ 23, (a.2 - 1) / 2 ^ 23 + 1)

/-- Two checkpoint entries of one chase name one region, or copies that overlap (R228). -/
def CkptEntry.meets (k m : CkptEntry) : Bool :=
  let copies (x : CkptEntry) := [(x.band0, x.band0 + x.bandsM1 + 1), (x.band1, x.band1 + x.bandsM1 + 1)]
  k.chase = m.chase && ([k.inRegion, k.outRegion].any (fun r => r = m.inRegion || r = m.outRegion) ||
    (copies k).any fun a => (copies m).any fun b => spansMeet a b)

/-- Checkpoint entry i of forme f breaks R228. -/
def ImpEnv.ckptBad (e : ImpEnv) (f : Forme) (k : CkptEntry) (i : Nat) : Bool :=
  let regs := (e.imp.mem k.chase).regions
  let a := regs.getD k.inRegion 0
  let b := regs.getD k.outRegion 0
  let ok (x : Nat) := entValid x && entAttr x = 2 && entForme x = f.number
  let c0 := (k.band0, k.band0 + k.bandsM1 + 1)
  let c1 := (k.band1, k.band1 + k.bandsM1 + 1)
  let others := (regs.zipIdx.filter fun x => entValid x.1 && x.2 != k.inRegion && x.2 != k.outRegion).map
    fun x => regionSpan x.1
  let rest := e.imp.formes.flatMap fun g => (g.ckpts.zipIdx.filter fun m => g.number != f.number || m.2 != i).map
    Prod.fst
  k.inRegion = k.outRegion || rest.any k.meets || !ok a || !ok b || regionMode a != regionMode b || spansMeet c0 c1 ||
    32768 < c0.2 || 32768 < c1.2 || others.any (fun o => spansMeet o c0 || spansMeet o c1) ||
    f.variants.any fun v => v.drainsInto k.chase (regionMode a) (regionSpan a)

/-- A forme's sections: VARIANTS, its variants, CHECKPOINT (R220). -/
def ImpEnv.formeErr (e : ImpEnv) (f : Forme) : Option ImpErr :=
  let n := (e.raw secVariants f.number 0xFF).length / 32
  firstErr [failIf (n < 1 || 32 < n) (e.err eVariant secVariants f.number 0xFF 0),
    eachErr f.variants (e.variantErr f),
    eachErr f.variants fun v _ => (VarEnv.mk e f v).sectionsErr,
    eachErr f.ckpts fun k i => failIf (e.ckptBad f k i) (e.err eCheckpoint secCheckpoint f.number 0xFF i)]

/-- The checks of CHECKING, in order (R220). -/
def State.checkErr (s : State) (b : List Byte) : Option ImpErr :=
  let e : ImpEnv := ⟨s, b, directory b, parseImp b⟩
  let formes := (List.range 16).filterMap fun n => e.imp.formes.find? fun f => f.number = n
  firstErr [e.dirErr, e.structureErr, e.routingErr, e.opticsErr, e.memoryErr,
    formes.findSome? e.formeErr]

end Sys2Proof.Machine
end

