-- ==== Sys2Proof/Machine/Load.lean ====
section
/-!
DEFINITION. Loading, checking and switching impositions (R218 to R222, R366, R367).
-/

namespace Sys2Proof.Machine

/-- States of the pending slot (R218). -/
def iEmpty : Nat := 0
def iVerifying : Nat := 1
def iChecking : Nat := 2
def iLoaded : Nat := 3
def iCommitting : Nat := 4
def iRejected : Nat := 5

/-- State of the pending slot. -/
def State.slot (s : State) : Nat := s.rd .modImpStatusPending 0 0

/-- The pending slot in another state; LOADED and REJECTED set the imposition event (R484). -/
def State.setSlot (s : State) (x : Nat) : State :=
  let s := s.wr .modImpStatusPending 0 0 x
  if x = iLoaded || x = iRejected then s.wr .coreIrqEventsImp 0 0 1 else s

/-- MOD_IMP_STATUS and MOD_IMP_DETAIL report an error; none clears them (R220). -/
def State.report (s : State) (e : ImpErr) : State :=
  s.wrAll [(.modImpStatusError, 0, 0, e.code), (.modImpStatusSection, 0, 0, e.sec),
    (.modImpStatusForme, 0, 0, e.forme), (.modImpStatusVariant, 0, 0, e.variant),
    (.modImpDetailKind, 0, 0, e.kind), (.modImpDetailUnit, 0, 0, e.unit),
    (.modImpDetailForm, 0, 0, e.form), (.modImpDetailIndex, 0, 0, e.index)]

/-- The pending slot is refused (R218, R220, R221). -/
def State.refuse (s : State) (e : ImpErr) : State :=
  { ((s.report e).setSlot iRejected).wr .hImpDiscard 0 0 0 with loaded := none, pendingBytes := [] }

/-- The pending slot is emptied. -/
def State.emptySlot (s : State) : State :=
  { (s.setSlot iEmpty).wr .hImpDiscard 0 0 0 with loaded := none, pendingBytes := [] }

/-- LOAD: the bit-stream is read once into the module's own storage; outside EMPTY and REJECTED the
command is ignored (R218). -/
def execImpLoad (t : Nat) (s : State) : Res :=
  let s := s.stamp t
  if s.slot = iEmpty || s.slot = iRejected then
    let s := ((s.report ⟨0, 0, 0, 0, 0, 0, 0, 0⟩).setSlot iVerifying).wr .hImpDiscard 0 0 0
    .next { s with loaded := none,
                   pendingBytes := s.readMem 0 (s.rd .modImpSrcAddr 0 0 / 256 * 256) (s.rd .modImpLenBytes 0 0) }
  else .next s.ignoreCmd

/-- VERIFY_COMPLETE: header, digest, signature, rollback, identity, capability (R217, R218, R220); after a
DISCARD the slot stays as it is until the check has stopped (R219). -/
def execVerifyComplete (t : Nat) (s : State) : Res :=
  let s := s.stamp t
  if s.slot = iVerifying && !s.on .hImpDiscard 0 0 then
    match s.verifyErr s.pendingBytes with
    | some e => .next (s.refuse e).irqDeliver
    | none => .next (s.setSlot iChecking)
  else .next s

/-- CHECK_COMPLETE: the sections in order (R218, R220); after a DISCARD the slot stays as it is (R219). -/
def execCheckComplete (t : Nat) (s : State) : Res :=
  let s := s.stamp t
  if s.slot = iChecking && !s.on .hImpDiscard 0 0 then
    match s.checkErr s.pendingBytes with
    | some e => .next (s.refuse e).irqDeliver
    | none => .next ({ s.setSlot iLoaded with loaded := some (parseImp s.pendingBytes) } : State).irqDeliver
  else .next s

/-- DISCARD_STOP: a discarded check stops (R219). -/
def execDiscardStop (t : Nat) (s : State) : Res :=
  let s := s.stamp t
  if (s.slot = iVerifying || s.slot = iChecking) && s.on .hImpDiscard 0 0 then .next s.emptySlot
  else .next s

/-! ### The switch (R222) -/

/-- The successor that carries forme f. -/
def Imposition.successor (i : Imposition) (f : Nat) : Option Forme := i.formes.find? fun x => x.carriedFrom = f

/-- Forme f of the active imposition cannot be switched: a carried forme parked at another edition, or
one that has committed beyond its successor's start (R222). -/
def State.carryBad (s : State) (f : Nat) : Bool :=
  match s.loaded.bind fun i => i.successor f with
  | none => false
  | some x => (s.fState f = fParked && s.edition f != x.startEdition) || x.startEdition < s.edition f

/-- The lowest forme at fault (R222). -/
def State.carryFault (s : State) : Option Nat :=
  (List.range 16).find? fun f => s.formeNums.contains f && s.carryBad f

/-- Formes held for the switch are released as RESUME would (R219, R222). -/
def State.releaseSwitch (s : State) : State :=
  let s := s.wr .hImpSwitchStep 0 0 0
  let s := if 3 ≤ s.rd .fabStatusState 0 0 then
    (s.each (List.range 32) fun s q => (s.setLink q { s.link q with quiesceSent := false, quiesceGot := none
      }).wr .fabPortQuiesced 0 q 0).wr .fabStatusState 0 0 1 else s
  s.each s.formeNums fun s f =>
    if s.on .modFormeStatusSwitchPending 0 f then
      let s := s.wr .modFormeStatusSwitchPending 0 f 0
      (if s.fState f = fHeld then s.resumeForme f 1 else s).letIn f s.now
    else s.letIn f s.now

/-- The switch does not proceed (R222). -/
def State.switchFault (s : State) (f : Nat) : State :=
  (s.refuse { errModule eForme with forme := f }).releaseSwitch

/-- COMMIT: a LOADED slot begins its switch; formes that run are to hold (R219, R222). -/
def execImpCommit (t : Nat) (s : State) : Res :=
  let s := s.stamp t
  if s.slot = iLoaded then
    match s.carryFault with
    | some f => .next (s.switchFault f).irqDeliver
    | none =>
      let s := (s.setSlot iCommitting).wr .hImpSwitchStep 0 0 1
      let s := s.each s.unheld fun s f => s.wr .modFormeStatusSwitchPending 0 f 1
      .next (s.startQuiesce t)
  else .next s.ignoreCmd

/-- DISCARD: empties, stops or cancels the pending slot as its state allows (R219). -/
def execImpDiscard (t : Nat) (s : State) : Res :=
  let s := s.stamp t
  if s.slot = iLoaded || s.slot = iRejected then .next s.emptySlot
  else if s.slot = iVerifying || s.slot = iChecking then
    if s.on .hImpDiscard 0 0 then .next s.ignoreCmd else .next (s.wr .hImpDiscard 0 0 1)
  else if s.slot = iCommitting && s.rd .hImpSwitchStep 0 0 = 1 then .next (s.emptySlot.releaseSwitch)
  else .next s.ignoreCmd

/-- Every fabric port that quiesces is QUIESCED or down (R366). -/
def State.quiesced (s : State) : Bool :=
  s.rd .fabStatusState 0 0 != 3 || s.allQuiesced

/-- Register images of the MEMORY section (R144, R152, R160, R207): the four stacks of a chase hold one
table. -/
def State.writeMemory (s : State) (i : Imposition) : State :=
  s.each [0, 1, 2, 3] fun s c =>
    let m := i.mem c
    let s := s.each (List.range 8) fun s ph => s.wr .galPhaseMapForme c ph (m.phase ph)
    let s := s.each (List.range 32) fun s n =>
      let x := m.ranges.getD n 0
      s.wrAll [(.galRangeValid, c, n, b2n (entValid x)), (.galRangeAttr, c, n, entAttr x),
        (.galRangeForme, c, n, entForme x), (.galRangeFirstLine, c, n, bitsAt x 21 21),
        (.galRangeLinesM1, c, n, bitsAt x 0 21)]
    s.each (List.range 16) fun s n => s.each [0, 1, 2, 3] fun s k =>
      let x := m.regions.getD n 0
      s.wrAll [(.memRegionValid, 4 * c + k, n, b2n (entValid x)), (.memRegionAttr, 4 * c + k, n, entAttr x),
        (.memRegionMode, 4 * c + k, n, regionMode x), (.memRegionForme, 4 * c + k, n, entForme x),
        (.memRegionFirstBand, 4 * c + k, n, bitsAt x 15 15), (.memRegionBandsM1, 4 * c + k, n, bitsAt x 0 15)]

/-- Presses of every forme. -/
def Imposition.presses (i : Imposition) : Nat := (i.formes.map Forme.pressSet).foldl Nat.lor 0

/-- Press power (R222): outside every forme OFF; OFF and in a forme, proved; on a standby every press is OFF (R104,
R371). A FAILED press stays so until reset (R104). -/
def State.powerPresses (s : State) (i : Imposition) : State :=
  s.each (List.range 12) fun s p =>
    if bit i.presses p && s.role != rStandby then (if s.pState p = pOff then s.setPState p pProof else s)
    else if s.pState p = pFailed then s
    else s.pressOff p

/-- Die-link minimum widths and guest sites of the ROUTING section (R340, R343, R482). -/
def State.writeRouting (s : State) (i : Imposition) : State :=
  let s := s.each (List.range 12) fun s l => s.ddlWr l .ddlStatusMinWidth (i.minWidth l)
  s.each [0, 2] fun s g =>
    let r := i.guest g
    if r.enable then (if r.notify then s.wr .coreIrqRouteTarget 0 11 r.core else s)
    else s.wrAll [(.gstStatusRate, g, 0, 0), (.gstStatusHalfWidth, g, 0, 0), (.gstStatusMsgLevel, g, 0, 0),
      (.gstStatusState, g, 0, 1)]

/-- Stores of the formes' variants 0 (R106, R222). -/
def State.writeImages (s : State) (i : Imposition) : State :=
  s.each i.formes fun s x =>
    match x.variants.head? with
    | some v => s.writeStores v
    | none => s

/-- SWITCH: with every forme held and every port quiesced, the anti-rollback counter is written, then
stores, tables and images, and presses change power (R222 steps 2 and 3, R366). -/
def execSwitch (counterOk : Bool) (t : Nat) (s : State) : Res :=
  let s := s.stamp t
  match s.loaded with
  | none => .next s
  | some i =>
    if s.slot = iCommitting && s.rd .hImpSwitchStep 0 0 = 1 then
      match s.carryFault with
      | some f => .next (s.switchFault f).irqDeliver
      | none =>
        let s := s.startQuiesce t
        if !s.unheld.isEmpty || !s.quiesced then .next s
        else if i.rollbackVersion != s.rd .secCounterValue 0 0 && !counterOk then
          .next ((s.refuse (errModule eRollback)).releaseSwitch).irqDeliver
        else
          let s := (s.wr .secCounterValue 0 0 i.rollbackVersion).wr .hImpSwitchStep 0 0 3
          .next ((((s.writeImages i).writeMemory i).writeRouting i).powerPresses i)
    else .next s

/-- Fields of a forme that a switch sets back (R222). -/
def formeFields : List Field :=
  [.modFormeStatusParkReason, .modFormeStatusCause, .modFormeStatusVariant, .modFormeStatusReplay,
    .modFormeStatusSwitchPending, .modFormeStatusState, .modFormeEditionEdition, .modFormeCommitTickTick,
    .modFormeStepQ, .pwrFormePoint, .pwrFormeFloor, .pwrFormeStallTicks, .pwrFormeIdleSteps,
    .hFormeAbandoned, .hFormeAbTick, .hFormeHoldPend, .hFormeParkPend, .hFormeParkReplay, .hFormeRelTick,
    .hFormeHoldTick, .hFormeParkTick, .hFormeResumePend, .hFormeStartPend, .hFormeCausePend,
    .hFormeCkptPend, .hFormeStartTick, .hFormeResumeTick, .hFormeJobTable,
    .hFormeStepRun, .hFormeNextQ, .hFormeEdQ, .hFormeMirrorDone, .hFormeRewrite, .hFormeReady,
    .hFormeMirrorSent, .hFormePreSent, .hFormePreDone, .hFormeWaitTick, .hFormeRouteBack, .hFormeLateStep,
    .hFormeDoneTick, .hFormePtTick, .hFormeIdle, .hFormeStormPend, .hFormeStormPoint, .hFormeStormTick,
    .hFormeActSum, .hFormeActNum, .hFormeStallMax, .hFormeStallBudget, .hPairGraceOver, .hPairResyncDue, .hPairPortGone, .hFormePreCount,
    .pairFormeSync, .pairFormeEdition]

/-- A forme of the new imposition before its start: LOADED at the edition before its first (R222). -/
def State.loadForme (s : State) (x : Forme) : State :=
  s.wrAll [(.modFormeStatusState, 0, x.number, fLoaded),
    (.modFormeEditionEdition, 0, x.number, x.startEdition - 1)]

/-- Port q is lit by an imposition and lies in the port_set of one of its formes (R244, R278). -/
def Imposition.lights (i : Imposition) (q : Nat) : Bool :=
  (i.port q).lit && i.formes.any fun f => bit f.portSet q

/-- What a port faced and faces: lit, and its peer (R244, R367). -/
def portKey (i : Option Imposition) (q : Nat) : Option (Nat × Nat) :=
  match i with
  | none => none
  | some i => if i.lights q then some ((i.port q).peer, (i.port q).peerPort) else none

/-- Every sequence number of a port is zero, and no EDITION came from its peer (R360, R367). -/
def State.zeroSeqs (s : State) (q : Nat) : State :=
  let s := s.setLink q { s.link q with unacked := [], retained := [], spilled := [], rxRef := [], rewinds := [],
                                       vc1Out := [], request := none, again := [] }
  let s := { s with early := s.early.filter fun e => e.1 != q }
  s.each [0, 1, 2] fun s v =>
    s.wrAll [(.lnkTxSeqNext, q, v, 0), (.lnkRxSeqExpected, q, v, 0), (.lnkTxSeqBase, q, v, 0),
      (.lnkRxSeqBase, q, v, 0), (.hFabEdition, 0, q, 0)]

/-- A proof left port q OFF: its engine is FAILED, or its LC failed (R430). -/
def State.portDead (s : State) (q : Nat) : Bool :=
  s.on .hOeFailed (q / 4) 0 ||
    s.repairMap.any fun e => e.type = 7 && e.unit = q / 4 && e.location / 2 = 72 + q % 4

/-- The module is a member of a pair: its imposition lights a pair-link port (R350, R373). -/
def State.paired (s : State) : Bool := (List.range 32).any s.isPairPort

/-- Port q may be lit: a pair-link port, or any port of a module that is active or no member of a pair; of a pair
only the active member transmits on the others (R350, R371). -/
def State.mayLight (s : State) (q : Nat) : Bool :=
  s.isPairPort q || s.role = rActive || (s.role = rNone && !s.paired)

/-- A port newly lit enters CLOCK with every number zero where it may be lit (R350, R367, R371); one that a proof
left OFF stays so (R430). -/
def State.lightPort (s : State) (q t : Nat) : State :=
  let s := s.zeroSeqs q
  if s.portDead q then s else if s.mayLight q then s.toClock q t else s

/-- The data lanes of a port changed with its peer the same: the lanes newly lit hunt, and WIDTH_REQ asks
for the new mask, with LS in the place of a lane that it stands for (R315). -/
def State.askWidth (s : State) (q : Nat) : State :=
  let mask := ((s.portRec q).map PortRec.dataMask).getD 0
  let s := s.each (List.range 8) fun s w =>
    if bit mask w && s.lane q w = laneDark then s.setLane q w laneHunt else s
  let stood (w : Nat) : Bool :=
    s.spareUse (q / 4) (s.fib q w 1) != suFree && s.rd .oeFibreStatusSpareLane (q / 4) (s.fib q w 1) = w &&
      s.rxMember q 8
  let want := (List.range 8).filter fun w => bit mask w
  let m := ((want.filter fun w => !stood w).map (2 ^ ·)).sum + if want.any stood then 2 ^ 8 else 0
  s.issue q 0x30 (s.endIdentity q * 2 ^ 11 + m)

/-- A port after the write of a new imposition (R315, R367). -/
def State.switchPort (s : State) (old : Option Imposition) (q t : Nat) : State :=
  let s := s.wr .fabPortQuiesced 0 q 0
  let s := s.setLink q { s.link q with quiesceSent := false, quiesceGot := none }
  match portKey old q, portKey s.active q with
  | some a, some b =>
    if a != b then (s.portOff q).lightPort q t
    else if s.lState q != lOff && !s.mayLight q then s.portOff q
    else if s.lState q = lMismatch then s.toClock q t
    else if s.linkOpen q && (old.map fun i => (i.port q).dataMask) != (s.portRec q).map PortRec.dataMask then
      s.askWidth q
    else s
  | some _, none => s.portOff q
  | none, some _ => s.lightPort q t
  | none, none => s

/-- A powered press's proof ends: its failed strips join the map; three make it FAILED, as does another
finding of R430, of which `dead` is the cause; else it is READY (R82, R222, R430, R438). -/
def State.endPressProof (s : State) (p mask : Nat) (dead : Option Nat) : State :=
  if s.pState p = pProof then
    let new := (bitsSet mask 17).filter fun i => !bit (s.rd .prsStripMapStripFailed p 0) i
    let s := s.each new fun s i => (s.orBit .prsStripMapStripFailed p 0 i).addEntry ⟨1, p, 1, 1, i, 0, 0, 0⟩
    let s := match dead with
      | some cause => s.addEntry ⟨2, p, 1, cause, 0, 0, 0, 0⟩
      | none => s
    let s := if new.isEmpty && dead.isNone then s else s.queueFlash .map
    if dead.isSome then s.failPress p else (s.setPState p pReady).setDepth p
  else s

/-- A forme carried on an ACTIVE module runs on at its start edition, as a replay where its predecessor
was parked (R222). -/
def State.carryForme (s : State) (x : Forme) (parked : Bool) : State :=
  if s.role = rActive then
    let s := s.run x.number 1
    if parked then s.replay x.number else s.prepare x.number
  else s

/-- Formes of the new imposition that carry one of the active: whether that is parked, and the tick of its
last commit (R222). -/
def State.carried (s : State) (i : Imposition) : List (Forme × Bool × Nat) :=
  i.formes.filterMap fun x =>
    if s.formeNums.contains x.carriedFrom then
      some (x, decide (s.fState x.carriedFrom = fParked), s.rd .modFormeCommitTickTick 0 x.carriedFrom)
    else none

/-- The new imposition takes over the formes: what is carried, the records of carried formes, and what
ends (R222 step 4). -/
def State.installFormes (s : State) (i : Imposition) (kept : List (Forme × Bool × Nat)) : State :=
  let log := kept.filterMap fun k =>
    (s.log.find? fun r => r.forme = k.1.carriedFrom).map fun r =>
      { r with forme := k.1.number, variant := 0, edition := k.1.startEdition - 1, seq := 0 }
  let s := s.each (List.range 16) fun s f => s.each formeFields fun s fld => s.clr fld 0 f
  let s := { s with active := some i, loaded := none, pendingBytes := [], log := log, jobs := [],
                    lateXfers := [], drains := [], relays := [], early := [], mirrorGot := [], moe := [], dirtyOut := [], dirtyShared := [], arrivals := [],
                    barDone := [], barSent := [], idleDebt := [] }
  let s := (s.each (List.range 8) fun s k => s.wr .hOeLost k 0 0).capUnmet
  let s := s.each i.formes State.loadForme
  let s := s.each (bitsSet i.presses 12) fun s p => s.wr .prsSeqStatusForm p 0 (s.formOf p)
  s.each kept fun s k => (s.wr .modFormeCommitTickTick 0 k.1.number k.2.2).carryForme k.1 k.2.1

/-- SWITCH_COMPLETE: press proofs end, each with the strips that failed and `dead` with the cause of what
else failed in one (R430); ports follow the new records, carried formes run and the others are LOADED (R222
step 4, R367), and a die link that cannot run at its new min_width goes down (R336). -/
def execSwitchComplete (findings dead : List (Nat × Nat)) (t : Nat) (s : State) : Res :=
  let s := s.stamp t
  match s.loaded with
  | none => .next s
  | some i =>
    if s.slot = iCommitting && s.rd .hImpSwitchStep 0 0 = 3 then
      let old := s.active
      let s := s.each (List.range 12) fun s p =>
        s.endPressProof p (((findings.find? fun x => x.1 = p).map Prod.snd).getD 0)
          ((dead.find? fun x => x.1 = p).map Prod.snd)
      let kept := s.carried i
      let s := s.each (List.range 32) fun s q => ({ s with active := some i } : State).switchPort old q t
      let s := (s.installFormes i kept).each (List.range 12) fun s l => s.wantWidth l 0 t
      let s := s.wrAll [(.modImpActiveRollbackVersion, 0, 0, i.rollbackVersion),
        (.hImpSwitchStep, 0, 0, 0), (.coreIrqEventsImp, 0, 0, 1),
        (.fabStatusState, 0, 0, b2n s.fabricForme.isSome)]
      .next (s.setSlot iEmpty).refreshPair.irqDeliver
    else .next s

end Sys2Proof.Machine
end

