-- ==== Sys2Proof/Machine/Optics.lean ====
section
/-!
DEFINITION. Commands of the optical engines and the laser source units (R241 to R274): rings, tones,
calibrations, power monitors, lasers and units.
-/

namespace Sys2Proof.Machine

/-- Two's complement of an integer in w bits. -/
def twos (w : Nat) (x : Int) : Nat := (x % (2 ^ w : Nat)).toNat

/-- The integer that w bits hold in two's complement. -/
def sgn (w x : Nat) : Int := if x % 2 ^ w < 2 ^ (w - 1) then Int.ofNat (x % 2 ^ w)
  else Int.ofNat (x % 2 ^ w) - Int.ofNat (2 ^ w)

/-- An integer held between two bounds. -/
def clampI (x lo hi : Int) : Int := if x < lo then lo else if hi < x then hi else x

/-- Division rounded to nearest, ties toward zero (R248). -/
def divNear (x : Int) (d : Nat) : Int :=
  let q := (2 * x.natAbs + d - 1) / (2 * d)
  if x < 0 then -Int.ofNat q else Int.ofNat q

/-! ### Rings (R245 to R251) -/

/-- Crosstalk term of ring r: the drives are those of the previous update (R248). -/
def State.crosstalk (s : State) (k r : Nat) : Int :=
  divNear (((List.range 8).map fun i =>
    let b := s.rd .oeXtalkNbr k (8 * r + i)
    if b < 80 then
      sgn 9 (s.rd .oeXtalkCoef k (8 * r + i)) *
        (Int.ofNat (s.rd .oeRingDrive k b) - Int.ofNat (s.rd .oeRingLockCode k b) -
          sgn 12 (s.rd .oeRingBias k b))
    else 0).foldl (· + ·) 0) 1024

/-- A wavelength of fibre pair g becomes due (R254): both fibres show it. -/
def State.setDue (s : State) (k g w : Nat) : State :=
  (s.orBit .oeFibreStatusCalDue k (2 * g) w).orBit .oeFibreStatusCalDue k (2 * g + 1) w

/-- HEATER_LOOP_UPDATE: the correction moves by at most 2 codes toward what the monitor asks for, the
band's bias by at most 2, and the drive follows; a far correction makes the lane due (R246 to R248). A
ring that is parked, sweeps or is in HOLD keeps its drive. -/
def execHeaterLoopUpdate (k r : Nat) (err : Int) (s : State) : Res :=
  if k < 8 && r < 80 then
    if s.ringState k r = 2 then
      let e := s.ringErr.getD (k, r) 0 + clampI err (-2) 2
      let b0 := sgn 12 (s.rd .oeRingBias k r)
      let b := b0 + clampI (Config.heaterBias k (s.rd .oeStatusBand k 0) - b0) (-2) 2
      let d := clampI (Int.ofNat (s.rd .oeRingLockCode k r) + b + e - s.crosstalk k r) 0 4095
      let s := { s with ringErr := s.ringErr.put (k, r) e }
      let s := (s.wr .oeRingBias k r (twos 12 b)).wr .oeRingDrive k r d.toNat
      .next (if 256 < e.natAbs && s.rd .hOeCalMode k (s.ringFib k r / 2) = 0 then
        (s.setDue k (s.ringFib k r / 2) (r % 10)).tryCal k (s.ringFib k r / 2) else s)
    else .next s
  else .fault .noSuchUnit

/-- The tone that a ring must see (R249, R250): a modulator's from its selected unit; a filter's from
either. -/
def State.toneOk (s : State) (k r strongest : Nat) : Bool :=
  strongest < 20 && strongest % 10 = r % 10 &&
    (r / 10 % 2 = 1 || s.carrier k (r / 20) (r % 10) = some (laserIndex (strongest / 10) k (r % 10)))

/-- A suspect ring stays parked and its lane is retired; the fibre's spare carries it for good, where another
lane does not hold it already (R251, R252, R257). -/
def State.suspectRing (s : State) (k r : Nat) : State :=
  let f := s.ringFib k r
  let w := r % 10
  let n := s.fibPort k f w
  let s := s.wrAll [(.oeRingSuspect, k, r, 1), (.oeRingState, k, r, 0), (.oeRingDrive, k, r, 0),
    (.hOeRecover, k, r, 0)]
  if w < 8 then
    let s := s.retireFibreLane k f w
    if s.spareUse k f = suRetired then
      if f % 2 = 0 then s.mark n [(w, false)] else s.laneReq n w 5
    else if 1 ≤ s.spareUse k f && s.spareUse k f ≤ 4 && s.rd .oeFibreStatusSpareLane k f = w then
      let s := s.putSpare k f suRetired w
      if f % 2 = 0 then s else s.laneReq n w 5
    else s.needSpare ⟨k, f, 4, w⟩
  else if w = 8 then s.putSpare k f suUnavailable 15
  else s

/-- A mislock (R250, R251): the ring parks; a data lane's traffic moves to its spare, or out of the link
where the spare is held for good (R252), and the ring sweeps once it has; a second mislock within 2^34 ticks
retires the lane. -/
def State.mislock (s : State) (k r t : Nat) : State :=
  let f := s.ringFib k r
  let w := r % 10
  let n := s.fibPort k f w
  let l := t :: ((s.mislocks.getD (k, r) []).filter fun x => t - x < 2 ^ 34)
  let s := { s with mislocks := s.mislocks.put (k, r) l }
  let s := (s.wr .oeRingMislocks k r (min 15 l.length)).bump .oeCalEventsMislocks k 0 1
  let s := (s.wr .oeRingState k r 0).wr .oeRingDrive k r 0
  if 2 ≤ l.length then s.suspectRing k r
  else
    let s := (s.wr .hOeRecover k r 1).laneMoved n w
    if !s.linkOpen n then s
    else if w < 8 then
      if s.spareUse k f = suRetired && s.rd .oeFibreStatusSpareLane k f != w then
        if f % 2 = 0 then s.mark n [(w, false)] else s.laneOut n w t
      else s.needSpare ⟨k, f, 3, w⟩
    else if w = 8 && s.spareUse k f = suFree then s.putSpare k f suUnavailable 15
    else s

/-- Light reaches the ring: every filter, and a modulator whose selector does not block (R273; log entry
84). -/
def State.ringLit (s : State) (k r : Nat) : Bool :=
  r / 10 % 2 = 1 || s.selOpen k (r / 20) (r % 10)

/-- TONE_WINDOW: a locked ring's window is judged (R250, R251). -/
def execToneWindow (k r strongest : Nat) (margin10dB : Bool) (t : Nat) (s : State) : Res :=
  if k < 8 && r < 80 then
    let s := (s.stamp t).wr .oeRingTone k r (if strongest < 20 then strongest else 31)
    .next (if 2 ≤ s.rd .oeRingState k r && s.ringLit k r && !(margin10dB && s.toneOk k r strongest) then s.mislock k r t
      else s)
  else .fault .noSuchUnit

/-- A ring's new lock code; its correction starts from zero (R256, R257). -/
def State.lockRing (s : State) (k r code : Nat) : State :=
  let s := (s.wr .oeRingLockCode k r code).wr .oeRingState k r 2
  { s with ringErr := s.ringErr.del (k, r) }

/-- MISLOCK_RECOVERY_DONE: the ring holds its lane again and the traffic moves back; the lane is due for
calibration (R251, R254). -/
def execMislockRecoveryDone (k r code t : Nat) (s : State) : Res :=
  if k < 8 && r < 80 then
    let s := s.stamp t
    let f := s.ringFib k r
    let w := r % 10
    let n := s.fibPort k f w
    if s.rd .oeRingState k r = 1 && s.on .hOeRecover k r then
      let s := (s.lockRing k r code).wr .hOeRecover k r 0
      let s := { s with spareNeeds := s.spareNeeds.erase ⟨k, f, 3, w⟩ }
      let s := if w < 8 && s.rd .hOeCalMode k (f / 2) = 0 then s.setDue k (f / 2) w else s
      let s :=
        if s.spareUse k f = suMislock && s.rd .oeFibreStatusSpareLane k f = w then
          s.laneReq n w (if f % 2 = 0 then 1 else 3)
        else if w = 8 && s.spareUse k f = suUnavailable && !s.spareGone k f then s.freeSpare k f
        else if w < 8 && f % 2 = 0 && s.linkOpen n && !s.txMember n w then
          s.mark n [(w, true)]
        else s
      .next s
    else .next s
  else .fault .noSuchUnit

/-! ### Calibration (R254 to R259) -/

/-- The engine's temperature has moved by at least delta since the lane's last calibration (R254): temperature
in 0.125 °C, delta in 0.25 °C. -/
def State.movedTemp (s : State) (k j w : Nat) : Bool :=
  2 * s.rd .oeCalCtrlDelta k 0 ≤
    (sgn 12 (s.rd .thmDomainTemp 0 (32 + k)) - sgn 12 (s.rd .hOeCalTemp k (10 * j + w))).natAbs

/-- A lane of port bank j is due for a reason of R254; after a failed calibration it is after 2^30 ticks
(R257). -/
def State.dueBy (s : State) (k j w : Nat) (why : CalWhy) : Bool :=
  let rings := [s.laneRing (portOf k j) w 0, s.laneRing (portOf k j) w 1]
  match why with
  | .temperature => s.movedTemp k j w
  | .time =>
    let i := 40 * k + 10 * j + w
    (if s.rd .calRecResult 0 i = 3 then 2 ^ 30 else 2 ^ 40) ≤ s.now - s.rd .calRecLastTick 0 i
  | .drift => rings.any fun r => decide (256 < (s.ringErr.getD (k, r) 0).natAbs)
  | .restored => rings.any fun r => s.mislocks.getD (k, r) [] != []

/-- CAL_DUE: in native mode a lane that a cause of R254 makes due is due, and the lowest due lane's
calibration starts when the spares are free. -/
def execCalDue (k j w : Nat) (why : CalWhy) (t : Nat) (s : State) : Res :=
  if k < 8 && j < 4 && w < 10 then
    let s := s.stamp t
    let g := s.fibreOf k w j
    .next (if s.rd .hOeCalMode k g = 0 && s.dueBy k j w why then (s.setDue k g w).tryCal k g else s)
  else .fault .noSuchUnit

/-- CONTINUOUS_CAL_NEXT: the next lane of fibre pair j, of L0 to L7 and LS (R255). -/
def execContinuousCalNext (k j t : Nat) (s : State) : Res :=
  if k < 8 && j < 4 then
    let s := s.stamp t
    if s.rd .hOeCalMode k j = 1 && s.calFree k j then
      let w := s.rd .hOeContNext k j
      let s := s.wr .hOeContNext k j ((w + 1) % 9)
      .next (if s.calLane k j w then s.startCal (s.fibPort k (2 * j) w) w else s)
    else .next s
  else .fault .noSuchUnit

/-- Distance of two codes. -/
def dist (a b : Nat) : Nat := (a - b) + (b - a)

/-- The repeat-agree rule with a tolerance (R257): none while a further run is needed; else the result
code of CAL_REC and the new code. -/
def repeatAgree (tol : Nat) : List Nat → Option (Nat × Nat)
  | [a, b] => if dist a b ≤ tol then some (1, (a + b) / 2) else none
  | [a, b, c] =>
    let ac := decide (dist a c ≤ tol)
    let bc := decide (dist b c ≤ tol)
    if ac && bc then
      if dist b c < dist a c then some (2, (b + c) / 2) else some (2, (a + c) / 2)
    else if ac then some (2, (a + c) / 2)
    else if bc then some (2, (b + c) / 2)
    else some (3, 0)
  | _ => none

/-- A ring's calibration ended with a result (R257): its lock code, or the saved one; the third failure
in a row retires its lane. -/
def State.ringResult (s : State) (k r : Nat) (res : Nat × Nat) : State :=
  if res.1 = 3 then
    let n := s.calFails.getD (k, r) 0 + 1
    let s := { s with calFails := s.calFails.put (k, r) n }
    let s := s.wr .oeRingState k r 2
    if 3 ≤ n then s.suspectRing k r else s
  else { s with calFails := s.calFails.del (k, r) }.lockRing k r res.2

/-- Both rings of a lane's calibration have a result: the record takes it, a failure restores the saved
codes of both, and a calibration that moved no traffic ends here (R254, R257, R258, R443). -/
def State.jobSettle (s : State) (c : CalJob) : State :=
  match c.result with
  | none => s
  | some res =>
    let k := c.engine
    let j := c.bank
    let w := c.lane
    let s := s.calEnd (40 * k + 10 * j + w) res
    let s := s.wr .hOeCalTemp k (10 * j + w) (s.rd .thmDomainTemp 0 (32 + k))
    let s := if res = 3 then (s.bump .oeCalEventsFailed k 0 1).restoreCodes c else s
    if w < 8 && s.linkOpen (portOf k j) then s
    else (s.endCal k j w).afterSpare k c.fibre

/-- A run of a ring in a job (R257). -/
def State.sweepRun (s : State) (k r run : Nat) (c : CalJob) : State :=
  let l := s.calRuns.getD (k, r) [] ++ [run]
  let other := ((c.rings.find? fun x => x != r).bind fun x => s.calRuns.get? (k, x)).getD []
  let s := { s with calRuns := s.calRuns.put (k, r) l }
  let s := if l.length = 3 && other.length != 3 then s.bump .oeCalEventsThirdRuns k 0 1 else s
  match repeatAgree 4 l with
  | none => s
  | some res =>
    let s := s.ringResult k r res
    let c' := if r / 10 % 2 = 0 then { c with modRes := some res.1 } else { c with filtRes := some res.1 }
    { s with calJobs := s.calJobs.map fun x => if x = c then c' else x }.jobSettle c'

/-- Port n trains (R258, R287). -/
def State.trains (s : State) (n : Nat) : Bool := s.lState n = lClock || s.lState n = lAlign || s.lState n = lIdent

/-- CALIBRATION_SWEEP_DONE: a run of a ring; the repeat-agree rule is applied (R257). LC is calibrated without a
request, while its port trains (R258). -/
def execCalibrationSweepDone (k r run t : Nat) (s : State) : Res :=
  if k < 8 && r < 80 then
    let s := s.stamp t
    let w := r % 10
    let n := s.fibPort k (s.ringFib k r) w
    let s := if (s.ringJob k r).isNone && w = 9 && s.trains n && 2 ≤ s.rd .oeRingState k r then s.beginCal n w else s
    match s.ringJob k r with
    | some c =>
      if c.aborted || (if r / 10 % 2 = 0 then c.modRes else c.filtRes).isSome || s.rd .oeRingState k r != 1 then
        .next s
      else .next (s.sweepRun k r run c)
    | none => .next s
  else .fault .noSuchUnit

/-- LANE_RETRAINED: a lane has retrained on its new source or its codes; its traffic moves back, and a
swap goes on (R256, R259, R265). -/
def execLaneRetrained (k j d w t : Nat) (s : State) : Res :=
  if k < 8 && j < 4 && d < 2 && w < 10 then
    let s := s.stamp t
    let n := portOf k j
    if d = 0 then
      match s.swapMoving k with
      | some x =>
        if x.lane = w && x.banks.head? = some j && (s.carrier k j w = some x.dst) then
          let f := s.fib n w 0
          let s := s.unholdRing k (ringOf j 0 w)
          let use := s.spareUse k f
          if (use = suSwap || use = suSudden) && s.rd .oeFibreStatusSpareLane k f = w then
            .next (s.laneReq n w 1)
          else
            let s := { s with spareNeeds := s.spareNeeds.filter fun y =>
              !(decide (y.engine = k) && decide (y.fibre = f) && decide (y.lane = w) &&
                decide (y.rank ≤ 2)) }
            .next ((if s.linkOpen n && s.laneLit n w then s.mark n [(w, true)] else s).swapBack k j w)
        else .next s
      | none => .next s
    else
      match s.laneJob n w with
      | some c =>
        if c.aborted || c.result.isSome then
          if w < 8 && s.linkOpen n then .next (s.laneReq n w 3)
          else .next ((s.endCal k j w).afterSpare k c.fibre)
        else .next s
      | none => .next s
  else .fault .noSuchUnit

/-- OE_CAL_CTRL_WRITE: delta is held to 4 to 40; a new mode takes effect when the calibration in progress
ends (R254, R255). -/
def execOeCalCtrlWrite (k value : Nat) (s : State) : Res :=
  if k < 8 then
    let d := value % 256
    let s := s.wr .oeCalCtrlDelta k 0 (if d < 4 then 4 else if 40 < d then 40 else d)
    let s := s.wr .oeCalCtrlMode k 0 (bitsAt value 8 1)
    .next (s.each (List.range 4) fun s g => s.calMode k g)
  else .fault .noSuchUnit

/-! ### Power monitors (R260, R261) -/

/-- A located loss: element, bank, direction, wavelength, excess in 0.1 dB. -/
structure LossAt where
  element : Nat
  bank : Nat
  dir : Nat
  w : Nat
  excess : Nat
deriving DecidableEq, Repr

/-- The loss between two stages exceeds its nominal by more than 1.0 dB: the excess in 0.1 dB (R261). -/
def excessOf (a b nominal : Int) : Option Nat :=
  if a = -32768 then none
  else if 100 < a - b - nominal then some (min 255 ((a - b - nominal) / 10).toNat) else none

/-- The first excessive loss of a transmit path, nearest the source first (R261): the modulator of bank j
feeds the fibre that the route in force gives it (R275). -/
def State.txLoss (s : State) (k : Nat) (m : MonSample) (j w : Nat) : Option LossAt :=
  let g (l : List Int) (i : Nat) : Int := l.getD i (-32768)
  if s.rd .oeFibreStatusLevel k (2 * j) = 3 then
    match s.carrier k j w with
    | none => none
    | some n =>
      let s0 := g (if n < 80 then m.s0a else m.s0b) w
      let s1 := g (if n < 80 then m.s1a else m.s1b) w
      let s2 := g m.s2 (10 * j + w)
      let s4 := g m.s4 (10 * s.fibreOf k w j + w)
      match excessOf s0 s1 150 with
      | some x => some ⟨1, j, 0, w, x⟩
      | none =>
        match excessOf s1 s2 650 with
        | some x => some ⟨2, j, 0, w, x⟩
        | none => (excessOf s2 s4 500).map fun x => ⟨3, j, 0, w, x⟩
  else none

/-- The excessive loss of a receive path; a parked filter drops no light. -/
def State.rxLoss (s : State) (k : Nat) (m : MonSample) (j w : Nat) : Option LossAt :=
  if 2 ≤ s.rd .oeRingState k (ringOf j 1 w) then
    (excessOf (m.s5.getD (10 * j + w) (-32768)) (m.s6.getD (10 * j + w) (-32768)) 200).map
      fun x => ⟨5, j, 1, w, x⟩
  else none

/-- The losses of an engine, in bank and wavelength order. -/
def State.losses (s : State) (k : Nat) (m : MonSample) : List LossAt :=
  (List.range 40).filterMap (fun i => s.txLoss k m (i / 10) (i % 10)) ++
    (List.range 40).filterMap (fun i => s.rxLoss k m (i / 10) (i % 10))

/-- POWER_MONITOR_SAMPLE: the monitors are written and an excessive loss is located unless one is shown
already (R260, R261). -/
def execPowerMonitorSample (k : Nat) (m : MonSample) (t : Nat) (s : State) : Res :=
  if k < 8 then
    let s := s.stamp t
    let v (l : List Int) (i : Nat) : Nat := twos 16 (l.getD i (-32768))
    let s := s.each (List.range 10) fun s w =>
      (s.wr .oeSrcMonS1A k w (v m.s1a w)).wr .oeSrcMonS1B k w (v m.s1b w)
    let s := s.each (List.range 40) fun s i =>
      (((s.wr .oeMonS2 k i (v m.s2 i)).wr .oeMonS4 k i (v m.s4 i)).wr .oeMonS5 k i (v m.s5 i)).wr
        .oeMonS6 k i (v m.s6 i)
    match s.losses k m with
    | [] => .next s
    | x :: _ =>
      if s.on .oeLossFaultValid k 0 then .next s
      else .next (s.wrAll [(.oeLossFaultValid, k, 0, 1), (.oeLossFaultExcess, k, 0, x.excess),
        (.oeLossFaultElement, k, 0, x.element), (.oeLossFaultBank, k, 0, x.bank),
        (.oeLossFaultDir, k, 0, x.dir), (.oeLossFaultWavelength, k, 0, x.w)])
  else .fault .noSuchUnit

/-! ### Lasers (R263 to R268) -/

/-- A fade threshold is crossed: output in 0.01 dB, bias in 0.1 % of its limit (R264). -/
def State.fadedTo (s : State) (n : Nat) (out : Int) (bias : Nat) : Bool :=
  sgn 16 (s.rd .lsuLaserOutput 0 n) ≤ out || bias ≤ s.rd .lsuLaserBias 0 n

/-- The twin cannot take over (R266): absent, RETIRED, or itself in PREPARE or later. -/
def State.twinUnusable (s : State) (n : Nat) : Bool :=
  !s.canLight (twinOf n) || 2 ≤ s.rd .lsuLaserStage 0 (twinOf n)

/-- SWAP, with the twin READY (R264). -/
def State.toSwap (s : State) (n : Nat) : State :=
  if s.rd .lsuLaserStage 0 n = 2 && s.fadedTo n (-150) 920 then
    if s.twinUnusable n then s.noTwin n
    else if 2 ≤ s.rd .lsuLaserLit 0 (twinOf n) then
      let s := (s.wr .lsuLaserStage 0 n 3).bump .lsuFadeCountsSwap 0 0 1
      (s.addSwap n (banksOf (s.rd .hLsuSel 0 n)) false).swapNext (n % 80 / 10)
    else s
  else s

/-- PREPARE: the twin is lit (R264), unless it cannot take over (R266). -/
def State.toPrepare (s : State) (n : Nat) : State :=
  if s.twinUnusable n then s.noTwin n
  else ((s.wr .lsuLaserStage 0 n 2).bump .lsuFadeCountsPrepare 0 0 1).warm (twinOf n)

/-- Samples of a laser's output over the last 2^27 ticks, the new one first (R263). The window [t - 2^27, t) has
the sample at its start; the one stamped t ends it (R6). -/
def State.fadeLog (s : State) (n t : Nat) (output : Int) : List (Nat × Int) :=
  (t, output) :: (s.fades.getD n []).filter fun e => t - e.1 ≤ 2 ^ 27

/-- Fade rate in 0.001 dB/s: the fall over the samples kept, in 0.01 dB over 2^27 ticks of 1 ns, scaled to a
second (R5, R263; log entry 85). -/
def fadeRate (l : List (Nat × Int)) : Int :=
  match l.head?, l.getLast? with
  | some a, some b => clampI (divNear ((b.2 - a.2) * 10 ^ 10) (2 ^ 27)) (-32768) 32767
  | _, _ => 0

/-- LASER_SAMPLE: output, bias and fade rate, and the fade stages that they lead to (R263 to R266). -/
def execLaserSample (n : Nat) (output : Int) (bias : Nat) (t : Nat) (s : State) : Res :=
  if n < 160 then
    let s := s.stamp t
    let l := s.fadeLog n t output
    let rate := fadeRate l
    let s := { s with fades := s.fades.put n l }
    let s := ((s.wr .lsuLaserOutput 0 n (twos 16 output)).wr .lsuLaserBias 0 n (min 1000 bias)).wr
      .lsuLaserRate 0 n (twos 16 rate)
    if s.rd .lsuLaserLit 0 n = 0 then .next s
    else
      let s :=
        if s.rd .lsuLaserStage 0 n = 0 && s.fadedTo n (-50) 800 then
          if 500 < rate && !s.twinUnusable n then s.toPrepare n
          else
            let s := (s.wr .lsuLaserStage 0 n 1).bump .lsuFadeCountsWatch 0 0 1
            if 500 < rate then s.noTwin n else s
        else s
      let s := if s.rd .lsuLaserStage 0 n = 1 && s.fadedTo n (-100) 880 then s.toPrepare n else s
      .next (s.toSwap n).covers
  else .fault .noSuchUnit

/-- WATCH_CLEAR: back to NORMAL (R264). -/
def execWatchClear (n t : Nat) (s : State) : Res :=
  if n < 160 then
    let s := s.stamp t
    .next (if s.rd .lsuLaserStage 0 n = 1 && -30 < sgn 16 (s.rd .lsuLaserOutput 0 n) &&
      s.rd .lsuLaserBias 0 n < 750 then s.wr .lsuLaserStage 0 n 0 else s)
  else .fault .noSuchUnit

/-- TWIN_READY: a warming laser is READY; what waited for it goes on (R264, R265, R268). Whether its
calibration needed a third run is a free value. -/
def execTwinReady (n t : Nat) (s : State) : Res :=
  if n < 160 then
    let s := s.stamp t
    if s.rd .lsuLaserLit 0 n = 1 then
      let r := (s.wr .lsuLaserLit 0 n 2).free 1
      let s := r.2.calEnd (528 + n) (1 + r.1)
      .next ((s.toSwap (twinOf n)).swapNext (n % 80 / 10))
    else .next s
  else .fault .noSuchUnit

/-- SUDDEN_LOSS: a data lane moves to its spare at once, with class 1 priority, or leaves the link where the
spare is not free for it; LC switches at once; while LS stands in for no lane the spare is UNAVAILABLE; the
twin is lit and takes the bank when READY (R268). -/
def execSuddenLoss (k j w t : Nat) (s : State) : Res :=
  if k < 8 && j < 4 && w < 10 then
    let s := s.stamp t
    match s.carrier k j w with
    | none => .next s
    | some src =>
      let n := portOf k j
      let s := s.bump .lsuFadeCountsSudden 0 0 1
      let s :=
        if !s.linkOpen n then s
        else if w < 8 then
          let f := s.fib n w 0
          let s := if s.spareUse k f ≤ 3 then s.needSpare ⟨k, f, 1, w⟩ else s
          if s.rd .oeFibreStatusSpareLane k f = w then s else s.mark n [(w, false)]
        else if w = 8 && s.spareUse k (2 * j) = suFree then s.putSpare k (2 * j) suUnavailable 15
        else s
      let s := if w = 9 && 2 ≤ s.rd .lsuLaserLit 0 (twinOf src) then s.moveBank src (twinOf src) j
        else if s.twinUnusable src then s.noTwin src
        else (s.warm (twinOf src)).addSwap src [j] true
      .next ((s.swapNext k).covers)
  else .fault .noSuchUnit

/-! ### Laser source units (R269 to R271) -/

/-- Unit u is seated. -/
def State.seated (s : State) (u : Nat) : Bool :=
  s.on (if u = 0 then .lsuStatusPresent else .lsuStatusPresentB) 0 0

/-- Unit u's bolt is engaged. -/
def State.bolted (s : State) (u : Nat) : Bool := s.on (if u = 0 then .lsuStatusBolted else .lsuStatusBoltedB) 0 0

/-- DRAIN_UNIT: refused without cover_ok; else every lane that a bolted unit sources swaps to its twin, and
the unit is DRAINED when none is left (R269, R270). -/
def execDrainUnit (u t : Nat) (s : State) : Res :=
  if u < 2 then
    let s := s.stamp t
    if s.coverOk u then
      if s.bolted u && s.unitState u != 4 then
        let s := (s.setUnit u 4).moveAll u fun _ => true
        .next ((s.swapAll).unitSettle u).covers
      else .next s
    else .next (s.wr (if u = 0 then .lsuStatusRefused else .lsuStatusRefusedB) 0 0 1)
  else .fault .noSuchUnit

/-- A seated unit is bolted, its rail is on unless it was cut, its lasers are told their roles, and its proof
begins (R262, R271, R398, R458). -/
def State.proveUnit (s : State) (u : Nat) : State :=
  let s := if s.rd .pwrRailState 0 (24 + u) = 3 then s else s.wr .pwrRailState 0 (24 + u) 1
  let s := s.each (List.range 80) fun s i =>
    s.wr .lsuLaserRole 0 (80 * u + i) (b2n (primaryUnit (i / 10) != u))
  ((s.setBolt u 1).setUnit u 1).covers

/-- Lanes whose primary is in unit u and whose light comes from the twin are to move back (R271). -/
def State.restoreUnit (s : State) (u : Nat) : State :=
  let s := s.setUnit u 2
  let s := s.each (List.range 8) State.refreshEngine
  let s := s.each (List.range 80) fun s i =>
    let n := 80 * u + i
    if primaryUnit (i / 10) = u && s.canLight n && s.rd .lsuLaserLit 0 (twinOf n) = 3 then
      let s := if s.rd .lsuLaserLit 0 n = 0 then s.light n 2 0 else s
      s.addSwap (twinOf n) (banksOf (s.rd .hLsuSel 0 (twinOf n))) false
    else s
  (s.swapAll.unitSettle u).covers

/-- RESTORE: a READY unit takes its primaries' lanes back; a DRAINED one is bolted and proved first
(R271). -/
def execLsuRestore (u t : Nat) (s : State) : Res :=
  if u < 2 then
    let s := s.stamp t
    .next (if s.unitState u = 3 then s.restoreUnit u
      else if s.unitState u = 5 && s.seated u then s.proveUnit u else s)
  else .fault .noSuchUnit

/-- RELIGHT: after a shutdown whose cause has cleared, each unit is proved again; refused while a trip is
latched, or while trigger 3 or 4 persists, which is a free value once they fired (R274, R462). -/
def execRelight (t : Nat) (s : State) : Res :=
  let s := s.stamp t
  if !s.isShut || s.on .thmStatusTrip 0 0 then .next s
  else
    let fired := s.rd .hHeartMiss 0 0 != 0 || (List.range 160).any fun n => s.on .hOverPower 0 n
    let r := if fired then s.free 1 else (0, s)
    let s := r.2
    if r.1 = 1 then .next s
    else
      let s := s.each (List.range 160) fun s n => if s.on .hOverPower 0 n then s.wr .hOverPower 0 n 0 else s
      let s := (s.wr .hHeartMiss 0 0 0).each [0, 1] fun s u => if s.unitState u = 6 then s.proveUnit u else s
      let s := s.each (List.range 8) fun s k => s.wr .oeStatusShutdown k 0 0
      let s := s.each (List.range 32) fun s n =>
        s.wr .oeFibreStatusLevel (n / 4) (2 * (n % 4)) (levelOf (s.lState n))
      .next (s.each (List.range 8) State.refreshEngine)

/-- UNIT_INSERTED: the bay's unit is bolted and its proof begins; its lasers are new (R264, R271). -/
def execUnitInserted (u t : Nat) (s : State) : Res :=
  if u < 2 then
    let s := s.stamp t
    if s.unitState u = 0 then
      let s := s.wr (if u = 0 then .lsuStatusPresent else .lsuStatusPresentB) 0 0 1
      let s := s.each (List.range 80) fun s i =>
        let n := 80 * u + i
        ({ s with fades := s.fades.del n }.wr .lsuLaserStage 0 n 0).light n 0 0
      .next (s.proveUnit u)
    else .next s
  else .fault .noSuchUnit

/-- A unit's proof ends: `failed` lists the lasers, 0 to 79 in the unit, that failed. A failed LC laser or
more than 8 failed lasers leave the unit FAILED and unbolted; else the failed ones are RETIRED, the
others are lit, and the unit's lanes are restored (R271, R430). Results of the lasers' calibrations are
free between PASS and PASS_THIRD. -/
def State.unitProved (s : State) (u : Nat) (failed : List Nat) : State :=
  if 8 < failed.eraseDups.length || failed.any fun i => i % 10 = 9 then
    (((s.darkUnit u).setUnit u 7).setBolt u 0).covers
  else
    let s := s.each (List.range 80) fun s i =>
      let n := 80 * u + i
      if failed.contains i then
        ((s.calStart (528 + n)).calEnd (528 + n) 3).wr .lsuLaserStage 0 n 4
      else
        let r := (s.calStart (528 + n)).free 1
        r.2.calEnd (528 + n) (1 + r.1)
    s.restoreUnit u

/-- UNIT_PROOF_DONE: the proof of an inserted or restored unit ends (R271, R430). -/
def execUnitProofDone (u : Nat) (failed : List Nat) (t : Nat) (s : State) : Res :=
  if u < 2 && failed.all fun i => i < 80 then
    let s := s.stamp t
    .next (if s.unitState u = 1 then s.unitProved u failed else s)
  else .fault .noSuchUnit

/-- The unit's lasers lose their light at once: LC switches to its twin, data lanes and LS wait for
theirs, and the ports of engines that drew data lanes from the unit go down (R269, R271). -/
def State.loseUnit (s : State) (u t : Nat) : State :=
  let held := (List.range 80).filterMap fun i =>
    let n := 80 * u + i
    if s.rd .lsuLaserLit 0 n = 3 then some (n, banksOf (s.rd .hLsuSel 0 n)) else none
  let hit := ((held.filter fun e => e.1 % 10 != 9).map fun e => e.1 % 80 / 10).eraseDups
  let s := s.setBolt u 0
  let s := { s with swaps := s.swaps.filter fun x => !(decide (x.src / 80 = u) || decide (x.dst / 80 = u)) }
  let s := s.each held fun s e =>
    if e.1 % 10 = 9 && s.rd .lsuLaserLit 0 (twinOf e.1) = 2 then
      s.each e.2 fun s j => s.moveBank e.1 (twinOf e.1) j
    else s
  let s := s.darkUnit u
  let s := s.each held fun s e =>
    if e.1 % 10 = 9 then s
    else if s.twinUnusable e.1 then s.noTwin e.1
    else (s.warm (twinOf e.1)).addSwap e.1 e.2 true
  let s := s.each hit fun s k => s.each (List.range 4) fun s j => s.linkDown (portOf k j) 1 t
  s.swapAll.covers

/-- INTERLOCK_OPEN: the bolt of a bolted unit was opened by its override (R269, R271). -/
def execInterlockOpen (u t : Nat) (s : State) : Res :=
  if u < 2 then
    let s := s.stamp t
    if s.bolted u then
      .next ((s.loseUnit u t).setUnit u 5).covers
    else .next s
  else .fault .noSuchUnit

/-- UNIT_WITHDRAWN: a unit whose bolt is open leaves its bay (R271). -/
def execUnitWithdrawn (u t : Nat) (s : State) : Res :=
  if u < 2 then
    let s := s.stamp t
    if s.bolted u then .next s
    else
      let s := s.wr (if u = 0 then .lsuStatusPresent else .lsuStatusPresentB) 0 0 0
      .next ((s.darkUnit u).setUnit u 0).covers
  else .fault .noSuchUnit

end Sys2Proof.Machine
end

