-- ==== Sys2Proof/Machine/Proof.lean ====
section
/-!
DEFINITION. The start-up proof and the repair map that it builds (R428 to R432, R438 to R440), proof slices
in service (R433 to R436), pending suspects (R441), stack retraining (R442), loopback (R447, R448) and
boundary scan (R444 to R446).
-/

namespace Sys2Proof.Machine

/-! ### The map that a proof makes (R429, R440) -/

/-- Entry type of a finding (R439); 0 for one that no entry records. -/
def findType (k : FindKind) : Nat :=
  match k with
  | .strip => 1
  | .pressDead => 2
  | .caseLine => 3
  | .galleyLine => 4
  | .stackRow => 5
  | .dieLane => 6
  | .dataLane => 7
  | .clockLane => 7
  | .engineDead => 8
  | .coreDead => 9
  | .laser => 10
  | .laserUnit => 0
  | .dieGroup => 0
  | .fatalChase => 0
  | .fatalStack => 0
  | .fatalRing => 0

/-- A finding is of the element of an entry. -/
def isOf (f : Finding) (e : MapEntry) : Bool :=
  findType f.kind = e.type && f.unit = e.unit && f.loc = e.location

/-- The entry of a finding, new at this proof (R439). -/
def entryOf (f : Finding) : MapEntry := ⟨findType f.kind, f.unit, 1, f.cause, f.loc, 0, f.bit, f.nbits⟩

/-- Ascending order of addresses: type, unit, location (R440). -/
def MapEntry.le (a b : MapEntry) : Bool :=
  a.type < b.type || (a.type = b.type && (a.unit < b.unit || (a.unit = b.unit && a.location ≤ b.location)))

/-- An entry put in its place among sorted ones; one of the same element is not added again. -/
def insertEntry (e : MapEntry) : List MapEntry → List MapEntry
  | [] => [e]
  | x :: l =>
    if x.type = e.type && x.unit = e.unit && x.location = e.location then x :: l
    else if e.le x then e :: x :: l
    else x :: insertEntry e l

/-- Elements that share spares: a bank of a case, slice or stack channel, or a die-link group of a
direction (R427, R439). -/
def MapEntry.pool (e : MapEntry) : Nat :=
  if e.type = 6 then e.location / 256 * 16 + laneGroup (dieEnd e.unit 0) (e.location % 256)
  else e.location / 65536

/-- Spares that such a pool has (R322, R427); 0 where an element has none of its own. -/
def spareCount (type : Nat) : Nat :=
  if type = 3 then 64 else if type = 4 then 96 else if type = 5 then 16 else if type = 6 then 2 else 0

/-- Entries before e that take spares of its pool. -/
def takenBefore (before : List MapEntry) (e : MapEntry) : Nat :=
  (before.filter fun x => x.type = e.type && x.unit = e.unit && x.pool = e.pool).length

/-- A die-link entry of a spare lane, which nothing stands in for (R322, R427). -/
def MapEntry.ofSpare (e : MapEntry) : Bool := e.type = 6 && dataLanes (dieEnd e.unit 0) ≤ e.location % 256

/-- Spares of the pool of e that a map leaves usable: a die-link group's two but for those that failed
(R322, R427, R440). -/
def freeSpares (map : List MapEntry) (e : MapEntry) : List Nat :=
  (List.range (spareCount e.type)).filter fun k => !map.any fun x =>
    x.ofSpare && x.unit = e.unit && x.pool = e.pool && x.location % 2 = k

/-- Spares assigned in map order, lowest free first (R440). -/
def assignSpares (map before : List MapEntry) : List MapEntry → List MapEntry
  | [] => []
  | e :: l =>
    let n := takenBefore (before.filter fun x => !x.ofSpare) e
    { e with spare := if e.ofSpare then 0 else ((freeSpares map e)[n]?).getD 0 } :: assignSpares map (e :: before) l

/-- A proof starts on a map: no entry of it is new (R439). -/
def agedMap (l : List MapEntry) : List MapEntry := l.map fun e => { e with flags := e.flags / 2 * 2 }

/-- A cached entry after a proof: one marked retest that passed is dropped, and one that failed again
keeps its cause; PENDING locations were marched (R429, R439, R441). -/
def keptEntry (tested : MapEntry → Bool) (fs : List Finding) (e : MapEntry) : Option MapEntry :=
  if !tested e then some e
  else if e.type = 0x0B then none
  else if !bit e.flags 1 then some e
  else if fs.any fun f => isOf f e then some { e with flags := 0 }
  else none

/-- New entries of a proof, in ascending address order. -/
def newEntries (kept : List MapEntry) (fs : List Finding) : List MapEntry :=
  (fs.filter fun f => findType f.kind != 0 && !(kept.any fun e => isOf f e)).foldl
    (fun l f => insertEntry (entryOf f) l) []

/-- Type of the array that an entry stands for: its own, or what PENDING names (R439). -/
def MapEntry.array (e : MapEntry) : Nat := if e.type = 0x0B then e.cause else e.type

/-! ### Results of findings (R430) -/

/-- Failed strips, presses, engines, cores, lanes and lasers of an entry (R430, R440). -/
def State.applyEntry (s : State) (e : MapEntry) : State :=
  if e.type = 1 then s.orBit .prsStripMapStripFailed e.unit 0 e.location
  else if e.type = 2 then s.failPress e.unit
  else if e.type = 6 then s.setLane (dieEnd e.unit (e.location / 256)) (e.location % 256) laneRetired
  else if e.type = 7 then
    let w := e.location / 16
    let f := e.location % 8
    if w < 8 then
      let s := s.retireFibreLane e.unit f w
      let s := if f % 2 = 1 then s.setLane (portOf e.unit (f / 2)) w laneRetired else s
      if s.spareUse e.unit f = suRetired then s else s.putSpare e.unit f suRetired w
    else if w = 8 then s.putSpare e.unit f suUnavailable 15
    else s
  else if e.type = 8 then s.wr .hOeFailed e.unit 0 1
  else if e.type = 9 then s.wr .coreStatusState 0 e.unit cOff
  else if e.type = 10 then (s.light e.unit 0 0).wr .lsuLaserStage 0 e.unit 4
  else s

/-- Die-link spares stand in for the failed lanes of their groups (R327, R329, R440). -/
def State.coverEntry (s : State) (e : MapEntry) : State :=
  let n := dieEnd e.unit (e.location / 256)
  let m := dieEnd e.unit (1 - e.location / 256)
  let i := e.location % 256
  let g := laneGroup n i
  if e.type = 6 && i < dataLanes n && !(s.link n).covers.any fun c => c.2 = i then
    match [dataLanes n + 2 * g, dataLanes n + 2 * g + 1].find? fun sp =>
        !(s.link n).covers.any (fun c => c.1 = sp) && s.lane n sp != laneRetired with
    | some sp =>
      let s := s.setLink n { s.link n with covers := (s.link n).covers.put sp i }
      s.setLink m { s.link m with txCovers := (s.link m).txCovers.put sp i }
    | none => s
  else s

/-- A group of a die link that a proof failed (R330, R430): the finding's location is the direction in bit
8 and the group below it. -/
def State.failGroup (s : State) (f : Finding) : State :=
  if f.kind = .dieGroup then
    let n := dieEnd f.unit (f.loc / 256)
    let x := s.link n
    s.setLink n { x with short := (x.short.filter fun y => !decide (y = f.loc % 256)) ++ [f.loc % 256] }
  else s

/-- Die link l fails the proof: it has no healthy group, or three attempts to train failed (R327, R430). -/
def State.linkFailed (s : State) (l : Nat) : Bool :=
  (s.healthyGroups l).isEmpty ||
    (s.sec = zProof && (s.endState (dieEnd l 0) = lAbsent || s.endState (dieEnd l 1) = lAbsent))

/-- An engine whose die link fails is FAILED, cause TRAINING (R327, R430). -/
def State.engineLinks (s : State) : State :=
  s.each (List.range 8) fun s k =>
    if s.linkFailed (4 + k) && !s.on .hOeFailed k 0 then
      (s.wr .hOeFailed k 0 1).addEntry ⟨8, k, 1, 3, 0, 0, 0, 0⟩
    else s

/-- A press whose case has a bank with more failing lines than spares is FAILED, cause SPARES (R430). -/
def State.caseSpares (s : State) : State :=
  s.each (List.range 12) fun s p =>
    if s.pState p != pFailed && s.repairMap.any fun e =>
        e.type = 3 && e.unit = p && 64 < takenBefore s.repairMap e then
      (s.failPress p).addEntry ⟨2, p, 1, 2, 0, 0, 0, 0⟩
    else s

/-- PRF_RESULT's kind, unit and cause of a finding that no repair covers (R430). -/
def fatalOf (f : Finding) : Option (Nat × Nat × Nat) :=
  match f.kind with
  | .fatalChase => some (2, f.unit, f.cause)
  | .fatalStack => some (3, f.unit, f.cause)
  | .fatalRing => some (4, f.unit, f.cause)
  | _ => none

/-- The first FATAL finding of a proof: as reported, a slice or a stack out of spares, or a ring link
without a healthy group (R430). -/
def State.firstFatal (s : State) (fs : List Finding) : Option (Nat × Nat × Nat) :=
  match fs.findSome? fatalOf with
  | some x => some x
  | none =>
    match s.repairMap.find? fun e =>
        (e.type = 4 || e.type = 5) && spareCount e.type < takenBefore s.repairMap e with
    | some e => some (if e.type = 4 then 2 else 3, e.unit, 2)
    | none => ((List.range 4).find? s.linkFailed).map fun l => (4, l, 3)

/-- The findings of a proof enter the map and take their results (R429, R430, R438 to R441). -/
def State.findings (s : State) (tested : MapEntry → Bool) (fs : List Finding) : State :=
  let kept := s.repairMap.filterMap (keptEntry tested fs)
  let new := newEntries kept fs
  let map := assignSpares (kept ++ new) [] (kept ++ new)
  let s := ({ s with repairMap := map }.bump .prfResultNewEntries 0 0 new.length).bump .prfMapUnwritten 0 0
    new.length
  let mine := map.filter tested
  let s := s.each mine State.applyEntry
  let s := s.each mine State.coverEntry
  let s := s.each fs State.failGroup
  let s := (s.engineLinks).caseSpares
  let s := s.each (List.range 12) fun s p =>
    if s.pState p != pFailed && 3 ≤ popCount (s.rd .prsStripMapStripFailed p 0) 17 then s.failPress p else s
  s.mapFields

/-- A proof that started on map `old` ends: a map that it changed is written (R438). -/
def State.writeChanged (s : State) (old : List MapEntry) : State :=
  if s.repairMap = old then s else s.queueFlash .map

/-! ### The start-up proof (R428, R431) -/

/-- Capability blocks of the dies, and the module's (R337, R338): the level is at least 0x0001_0000 and the
other values are the part's. -/
def State.loadCapabilities (s : State) : State :=
  let level (k u : Nat) := 0x10000 + Config.die k u / 2 ^ 16 % (2 ^ 32 - 0x10000)
  let rev (k u : Nat) := if k = 1 then 0 else Config.die k u % 16
  let step (k u : Nat) := Config.die k u / 16 % 256
  let s := s.each (List.range 12) fun s p => s.wrAll [(.prsCapabilityKind, p, 0, 1),
    (.prsCapabilityDdlRev, p, 0, 0), (.prsCapabilityStepping, p, 0, step 1 p), (.prsCapabilityLevel, p, 0, level 1 p)]
  let s := s.each [0, 1, 2, 3] fun s c => s.wrAll [(.chsCapabilityKind, c, 0, 2),
    (.chsCapabilityDdlRev, c, 0, rev 2 c), (.chsCapabilityStepping, c, 0, step 2 c),
    (.chsCapabilityLevel, c, 0, level 2 c)]
  let s := s.each (List.range 8) fun s k => s.wrAll [(.oeCapabilityKind, k, 0, 3),
    (.oeCapabilityDdlRev, k, 0, rev 3 k), (.oeCapabilityStepping, k, 0, step 3 k), (.oeCapabilityLevel, k, 0, level 3 k)]
  let levels := (List.range 12).map (level 1) ++ (List.range 4).map (level 2) ++ (List.range 8).map (level 3)
  let revs := (List.range 12).map (rev 1) ++ (List.range 4).map (rev 2) ++ (List.range 8).map (rev 3)
  s.wrAll [(.modCapabilityKind, 0, 0, 0), (.modCapabilityDdlRev, 0, 0, minList revs),
    (.modCapabilityStepping, 0, 0, 0), (.modCapabilityLevel, 0, 0, minList levels)]

/-- The codes that the flash caches come into force (R248, R428). -/
def State.loadCodes (s : State) : State :=
  s.each s.cache fun s e => if codeFields.contains e.1.f then s.wr e.1.f e.1.i e.1.j e.2 else s

/-- The estimator's weights are loaded from the flash (R406). -/
def State.loadWeights (s : State) : State :=
  s.each (List.range 24) fun s e => s.wr .pwrWeightWeight 0 e (Config.pwrWeight e)

/-- Phase 1: the flash's repair map comes into force, or none is valid, and the cached codes are read (R248,
R428, R438); the estimator's weights are loaded (R406). -/
def State.phaseOne (s : State) : State :=
  let s := { s with repairMap := agedMap s.flashMap }
  let s := s.wrAll [(.prfResultMapRebuilt, 0, 0, b2n (s.rd .hFlashGen 0 0 = 0)),
    (.prfMapGeneration, 0, 0, s.rd .hFlashGen 0 0), (.prfMapUnwritten, 0, 0, 0), (.prfResultPhase, 0, 0, 2)]
  s.loadWeights.loadCodes.mapFields

/-- Entries of the map in force that map a die lane out in this training: not those that are to be tested again
(R327, R429; log entry 91). -/
def State.mappedLanes (s : State) : List MapEntry := s.repairMap.filter fun e => e.type = 6 && !bit e.flags 1

/-- Phase 3 begins: presses prove, stacks train, die links train with the spares that the map names in the places of
mapped-out lanes, and seated laser units are powered and proved (R327, R428, R458). -/
def State.phaseThree (s : State) (t : Nat) : State :=
  let s := s.wr .prfResultPhase 0 0 3
  let s := (s.each s.mappedLanes State.applyEntry).each s.mappedLanes State.coverEntry
  let s := s.each (List.range 12) fun s p => s.setPState p pProof
  let s := s.each (List.range 16) fun s m => s.wr .memStatusState m 0 1
  let s := s.each (List.range 24) fun s i => s.toAlign (32 + i) t
  s.each [0, 1] fun s u => if s.seated u then s.proveUnit u else s

/-- Refresh multiplier of a stack in a band (R161, R423). -/
def refreshOf (band : Nat) : Nat := if band ≤ 1 then 1 else if band = 2 then 2 else 4

/-- A calibration group's run at start ends (R442, R443): PASS or PASS_THIRD with new codes, which `fresh`
sets; CACHED with the codes of the flash, where it has some; or FAIL. Which of the others it is, is free. -/
def State.startRun (s : State) (i : Nat) (failed cached : Bool) (fresh : State → State) : State :=
  let s := s.calStart i
  if failed then s.calEnd i 3
  else
    let r := s.free 8
    if cached && r.1 % 3 = 2 then r.2.calEnd i 5 else fresh (r.2.calEnd i (1 + r.1 % 2))

/-- The flash holds codes of engine k of a kind (R442). -/
def State.cached (s : State) (f : Field) (k : Nat) : Bool := s.cache.any fun e => e.1.f = f && e.1.i = k

/-- A code found by a sweep: a free value (R428). -/
def State.freshCode (s : State) (f : Field) (k n : Nat) : State :=
  let c := s.free 12
  c.2.wr f k n c.1

/-- A slot of the crosstalk matrix as measured (R248): a neighbour or none, and a coefficient, all free
values. -/
def State.freshSlot (s : State) (k n : Nat) : State :=
  let b := s.free 16
  let c := b.2.free 9
  (c.2.wr .oeXtalkNbr k n (if b.1 % 81 < 80 then b.1 % 81 else 0x7F)).wr .oeXtalkCoef k n c.1

/-- Calibration of engines in a proof (R245, R248, R428, R442): each lane's two rings, the crosstalk matrix,
the selector and steering rings. No lane is due then (R254). -/
def State.engineCals (s : State) (ks : List Nat) : State :=
  let bad (k j w : Nat) := s.repairMap.any fun e =>
    e.type = 7 && e.unit = k && e.cause = 5 && e.location / 2 = w * 8 + j
  s.each ks fun s k =>
    if s.on .hOeFailed k 0 then s
    else
      let s := s.each (List.range 8) fun s f => s.wr .oeFibreStatusCalDue k f 0
      let s := s.each (List.range 40) fun s i =>
        (s.startRun (40 * k + i) (bad k (i / 10) (i % 10)) (s.cached .oeRingLockCode k) fun s =>
          (s.freshCode .oeRingLockCode k (ringOf (i / 10) 0 (i % 10))).freshCode .oeRingLockCode k
            (ringOf (i / 10) 1 (i % 10))).wr .hOeCalTemp k i (s.rd .thmDomainTemp 0 (32 + k))
      let s := s.startRun (688 + k) false (s.cached .oeXtalkNbr k) fun s =>
        s.each (List.range 640) fun s n => s.freshSlot k n
      s.startRun (696 + k) false (s.cached .hOeSelCode k) fun s =>
        (s.each (List.range 40) fun s n => s.freshCode .hOeSelCode k n).each (List.range 64) fun s n =>
          s.freshCode .hOeSteerCode k n

/-- Calibration at start (R428, R442): the engines and the stacks. -/
def State.startCals (s : State) : State :=
  (s.engineCals (List.range 8)).each (List.range 16) fun s m => s.startRun (512 + m) false false id

/-- A proof of the presses has passed: those proved are READY, and every press that is not FAILED shows its
depth (R82, R104, PRS_STATUS). -/
def State.pressesProven (s : State) : State :=
  s.each (List.range 12) fun s p =>
    let s := if s.pState p = pProof then s.setPState p pReady else s
    if s.pState p = pFailed then s else s.setDepth p

/-- Phase 3 ends without a FATAL finding: the proof has passed (R428). -/
def State.proofPassed (s : State) (fs : List Finding) : State :=
  let s := s.pressesProven
  let s := s.each (List.range 16) fun s m =>
    (s.wr .memStatusState m 0 2).wr .memStatusRefreshMult m 0 (refreshOf (s.rd .memStatusBand m 0))
  let s := s.each [0, 1] fun s u =>
    if s.unitState u = 1 then
      if fs.any fun f => f.kind = .laserUnit && f.unit = u then
        (((s.darkUnit u).setUnit u 7).setBolt u 0).covers
      else
        s.unitProved u ((s.repairMap.filter fun e => e.type = 10 && e.unit / 80 = u).map fun e => e.unit % 80)
    else s
  (s.startCals.wr .prfResultState 0 0 2).writeChanged (agedMap s.flashMap)

/-- A phase's findings, and FATAL where one is not covered (R430, R431). -/
def State.endPhase (s : State) (tested : MapEntry → Bool) (fs : List Finding) (go : State → State) : State :=
  let phase := s.rd .prfResultPhase 0 0
  let s := s.findings tested fs
  match s.firstFatal fs with
  | some (k, u, c) => s.fatal phase k u c
  | none => go s

/-- PROOF_PHASE_COMPLETE: a phase of the start-up proof ends with its findings (R428 to R431). -/
def execProofPhaseComplete (fs : List Finding) (t : Nat) (s : State) : Res :=
  let s := s.stamp t
  if s.sec = zProof && s.rd .prfResultState 0 0 = 1 then
    let ph := s.rd .prfResultPhase 0 0
    if ph = 1 then .next s.phaseOne
    else if ph = 2 then
      .next (s.endPhase (fun e => e.array = 4) fs fun s => s.loadCapabilities.phaseThree t).irqDeliver
    else .next (s.endPhase (fun e => e.array != 4) fs fun s => s.proofPassed fs).irqDeliver
  else .next s

/-! ### Slices in service (R433 to R436) -/

/-- The last slice of press p's edition ends: `before`, whether they had all ended (PRF_PRESS). -/
def State.countRound (s : State) (p : Nat) (before : Bool) : State :=
  if !before && s.slicesEnded p then s.bump .prfPressRounds 0 p 1 else s

/-- STRIP_SLICE_DONE: a pass is recorded in the edition (R433); a failure counts, marks the strip for the
next boundary, and abandons the edition where the strip is in use (R84, R85, R436, R484). -/
def execStripSliceDone (p strip : Nat) (ok : Bool) (t : Nat) (s : State) : Res :=
  if p < 12 && strip < 17 then
    let s := s.stamp t
    if bit (s.rd .prsStripMapStripFailed p 0) strip then .next s
    else if ok then
      let s := (s.orBit .prfPressSlicePassed 0 p strip).countRound p (s.slicesEnded p)
      .next (match s.formeOfPress p with
        | some x => s.tryMirror x.number
        | none => s)
    else
      let s := (s.bump .prfPressFails 0 p 1).wr .prfPressLastFail 0 p strip
      let s := ((s.orBit .hPrsFailPend p 0 strip).countRound p (s.slicesEnded p)).wr .coreIrqEventsProof 0 0 1
      .next (if s.stripInUse p strip then s.abandonPress p causeSlice t else s).irqDeliver
  else .fault .noSuchUnit

/-- The unit of a logic slice exists. -/
def unitOk (u : LogicUnit) : Bool :=
  match u with
  | .press p => p < 12
  | .chase c => c < 4

/-- LOGIC_SLICE: a slice of a finisher group or of a chase's logic starts in free cycles; no state shows
it (R436). -/
def execLogicSlice (u : LogicUnit) (t : Nat) (s : State) : Res :=
  if unitOk u then .next (s.stamp t) else .fault .noSuchUnit

/-- A chase is lost (R236): a yield where a live partner is, else every forme that touches it parks. -/
def State.loseChase (s : State) (c : Nat) : State :=
  if s.livePartner then s.yieldWith 3
  else s.each ((s.active.map Imposition.formes).getD []) fun s x =>
    if s.onChase x c then s.parkLost x.number else s

/-- LOGIC_SLICE_DONE: a press that fails is FAILED and its forme abandons with PROOF_SLICE; a chase that
fails is lost (R436). -/
def execLogicSliceDone (u : LogicUnit) (ok : Bool) (t : Nat) (s : State) : Res :=
  if unitOk u then
    let s := s.stamp t
    if ok then .next s
    else
      match u with
      | .press p =>
        let s := (s.bump .prfPressFails 0 p 1).abandonPress p causeSlice t
        .next (s.failPress p).irqDeliver
      | .chase c => .next (s.loseChase c).irqDeliver
  else .fault .noSuchUnit

/-- CORE_SLICE: a core's slice starts; no state shows it (R436). -/
def execCoreSlice (n t : Nat) (s : State) : Res :=
  if n < 16 then .next (s.stamp t) else .fault .noSuchUnit

/-- CORE_SLICE_DONE: a failure raises core_fail (R436, R480, R484). -/
def execCoreSliceDone (n : Nat) (ok : Bool) (t : Nat) (s : State) : Res :=
  if n < 16 then
    let s := s.stamp t
    .next (if ok then s else (s.wr .coreIrqEventsCoreFail 0 0 1).irqDeliver)
  else .fault .noSuchUnit

/-! ### The map, retraining, loopback -/

/-- PENDING_FLUSH: unwritten entries go to the flash (R441). -/
def execPendingFlush (t : Nat) (s : State) : Res :=
  let s := s.stamp t
  .next (if s.rd .prfMapUnwritten 0 0 = 0 then s else s.queueFlash .map)

/-- CLEAR_MAP: every entry is marked retest at the next flash write (R429, PRF_CTRL). -/
def execClearMap (s : State) : Res := .next (s.wr .hMapClear 0 0 1)

/-- STACK_CHANNEL_RETRAIN: a run of the stack's record (R442, R443); whether a pass needed its third run is
free. -/
def execStackChannelRetrain (m channel : Nat) (ok : Bool) (t : Nat) (s : State) : Res :=
  if m < 16 && channel < 64 then
    let s := (s.stamp t).calStart (512 + m)
    if ok then
      let r := s.free 1
      .next (r.2.calEnd (512 + m) (1 + r.1))
    else .next (s.calEnd (512 + m) 3)
  else .fault .noSuchUnit

/-- LOOPBACK: one port that is OFF or ABSENT is tested; else refused (R448). -/
def execLoopback (q t : Nat) (s : State) : Res :=
  if q < 32 then
    let s := s.stamp t
    if s.on .prfLoopbackBusy 0 0 || !(s.lState q = lOff || s.lState q = lAbsent) then
      .next (s.wr .prfLoopbackRefused 0 0 1)
    else .next ((s.wr .prfLoopbackBusy 0 0 1).wr .prfLoopbackPort 0 0 q)
  else .fault .noSuchUnit

/-- LOOPBACK_DONE: the result appears; no lane is retired (R447, R448). -/
def execLoopbackDone (errors passed t : Nat) (s : State) : Res :=
  let s := s.stamp t
  if s.on .prfLoopbackBusy 0 0 then
    .next (s.wrAll [(.prfLoopbackBusy, 0, 0, 0), (.prfLoopbackErrors, 0, 0, min 0xFFFF errors),
      (.prfLoopbackPassed, 0, 0, passed)])
  else .next s

/-! ### Boundary scan (R444 to R446) -/

/-- TAP_RESET: IDCODE, and SEG0 alone (R444, R445). -/
def execTapReset (s : State) : Res := .next ((s.wr .hTapIr 0 0 0x01).wr .hTapSeg 0 0 1)

/-- BYPASS (R444). -/
def execTapBypass (s : State) : Res := .next (s.wr .hTapIr 0 0 0xFF)

/-- IDCODE: the device's code is read out (R444). -/
def execTapIdcode (s : State) : Res := .next ((s.wr .hTapIr 0 0 0x01).send (.tap 0x1C120A4B))

/-- SAMPLE/PRELOAD (R444). The order of the boundary cells is not given, so no value is read out (log
entry 26). -/
def execTapSample (s : State) : Res := .next (s.wr .hTapIr 0 0 0x02)

/-- A scan instruction that drives pins: in force only while SB_RESET_N is asserted or a FATAL proof holds
the module; else it acts as BYPASS and sets scan_refused (R446). -/
def State.drivePins (s : State) (code : Nat) : State :=
  if s.on .hPinReset 0 0 || s.sec = zFatal then (s.wr .hTapIr 0 0 code).wr .hTapUsed 0 0 1
  else (s.wr .hTapIr 0 0 0xFF).wr .prfMapScanRefused 0 0 1

/-- EXTEST (R444, R446). -/
def execTapExtest (s : State) : Res := .next (s.drivePins 0x03)

/-- CLAMP (R444, R446). -/
def execTapClamp (s : State) : Res := .next (s.drivePins 0x04)

/-- HIGHZ (R444, R446). -/
def execTapHighz (s : State) : Res := .next (s.drivePins 0x05)

/-- The die of a segment is powered (R397, R445): sideband pins, a chase, a press or an engine. -/
def State.segPowered (s : State) (n : Nat) : Bool :=
  let on (r : Nat) : Bool := s.rd .pwrRailState 0 r = 1 || s.rd .pwrRailState 0 r = 2
  if n = 0 then true
  else if n ≤ 4 then on (12 + (n - 1))
  else if n ≤ 16 then on (n - 5)
  else on (20 + (n - 17) / 2)

/-- SEGSEL: the segment register; a segment whose die has no power reads 0 (R445). -/
def execTapSegsel (segs : Nat) (s : State) : Res :=
  let m := ((bitsSet segs 25).filter fun n => s.segPowered n).foldl setBit 0
  .next ((s.wrAll [(.hTapIr, 0, 0, 0x10), (.hTapSeg, 0, 0, m), (.hTapUsed, 0, 0, 1)]).send (.tap m))

end Sys2Proof.Machine
end

