-- ==== Sys2Proof/Machine/Pair.lean ====
section
/-!
DEFINITION. The pair: roles and their requests (R369 to R371, R374), the standby's side of mirroring (R377,
R378, R381, R382), the yield's commands (R372, R383, R385), takeover (R386 to R390), and the voluntary
swap (R393, R394).
-/

namespace Sys2Proof.Machine

/-! ### Roles (R370, R371) -/

/-- A role or swap request is refused (R370, R393). -/
def State.refuseRole (s : State) : State := s.wr .pairStatusRoleRefused 0 0 1

/-- A request becomes pending while no role is held and an imposition is active, and PAIR_HELLO goes out at
once; else it is refused (R370, R374). -/
def State.askRole (s : State) (want : Nat) : State :=
  if s.role = rNone && s.active.isSome then (s.wr .pairStatusPending 0 0 want).sendHellos
  else s.refuseRole.irqDeliver

/-- ACTIVE (R370, PAIR_CTRL). -/
def execPairActive (t : Nat) (s : State) : Res := .next ((s.stamp t).askRole 1)

/-- STANDBY (R370, PAIR_CTRL). -/
def execPairStandby (t : Nat) (s : State) : Res := .next ((s.stamp t).askRole 2)

/-- Only the retention path keeps its power (R371): presses OFF, cores unpowered, ports that are no
pair-link ports OFF, stacks in RETAIN, the other engines' rails off; no forme runs. One press only stays FAILED: that
whose rail was cut, which is lost until reset (R236, R398). DESIGN CHOICE: a press that is FAILED for another reason
goes OFF too, and a takeover proves it again (R104; log entry 90). -/
def State.retain (s : State) : State :=
  let s := (s.each s.formeNums fun s f => (s.stopUnits f).wr .modFormeStatusState 0 f fLoaded).capUnmet
  let s := s.each (List.range 12) fun s p => if s.cutPress p then s else (s.pressOff p).setRail p 0
  let s := s.each (List.range 16) fun s n => (s.wr .coreStatusState 0 n cOff).wr .memStatusState n 0 3
  let s := { s with badWords := [] }
  let s := s.each (List.range 32) fun s q => if s.isPairPort q || s.lState q = lOff then s else s.portOff q
  s.each (List.range 4) fun s c =>
    if (List.range 32).any fun q => s.isPairPort q && decide (q / 8 = c) then s
    else s.setRail (20 + c) 0

/-- A module that becomes ACTIVE lights the ports that its imposition lights and that were dark till then (R350). -/
def State.lightPorts (s : State) (t : Nat) : State :=
  s.each (List.range 32) fun s q =>
    if s.portDead q || s.lState q != lOff || !(s.active.map fun i => i.lights q).getD false then s
    else s.toClock q t

/-- The pending request is granted (R350, R370, R371). -/
def State.grant (s : State) (want t : Nat) : State :=
  let s := s.wr .pairStatusPending 0 0 0
  if want = 1 then ((s.setRole rActive).lightPorts t).refreshPair
  else (s.setRole rStandby).retain.refreshPair

/-- The pending request of a module without a role is decided on what the partner reports; one whose line reads low
reports nothing (R370). -/
def State.decideRole (s : State) (partnerRole partnerPending t : Nat) : State :=
  let want := s.rd .pairStatusPending 0 0
  let me1 := s.on .pairStatusMember 0 0
  let held := if want = 1 then partnerRole = rActive || partnerRole = rTakingOver else decide (partnerRole = rStandby)
  if want = 0 || s.role != rNone then s
  else if s.on .pairStatusLiveIn 0 0 && (held || (decide (partnerPending = want) && me1)) then
    (s.wr .pairStatusPending 0 0 0).refuseRole
  else s.grant want t

/-- ROLE_TIMEOUT: SB_PAIR_LIVE has read low for 2^20 ticks: the pending request is granted (R370). -/
def execRoleTimeout (t : Nat) (s : State) : Res :=
  let s := s.stamp t
  if s.on .pairStatusLiveIn 0 0 then .next s else .next (s.decideRole 0 0 t).irqDeliver

/-- A module in SWAP_HOLD whose partner is ACTIVE becomes STANDBY, its line live again and every mirrored
forme SYNCED at E - 1 (R372, R394). -/
def State.swapDoneStandby (s : State) : State :=
  let e := s.rd .hPairSwapEdition 0 0
  let s := ((s.driveLine.setRole rStandby).retain).wr .hPairSwapEdition 0 0 0
  s.each s.mirroredFormes fun s x =>
    (s.wr .pairFormeSync 0 x.number 1).wr .pairFormeEdition 0 x.number (e - 1)

/-- What PAIR_HELLO reports is kept; a change of the partner's role is an event (R374, R484). -/
def State.noteHello (s : State) (role member resync : Nat) : State :=
  let s := if s.rd .pairStatusPartnerRole 0 0 = role then s
    else (s.wr .pairStatusPartnerRole 0 0 role).wr .coreIrqEventsPair 0 0 1
  s.wrAll [(.hPairPartnerMember, 0, 0, member), (.hPairPartnerResync, 0, 0, resync), (.hPairHelloSeen, 0, 0, 1)]

/-- PAIR_HELLO on a pair-link port: the partner's report is kept, a pending request is decided, and a swap
ends (R370, R374, R394). -/
def execPairHello (n : Nat) (b : Byp) (role member resync pend t : Nat) (s : State) : Res :=
  s.byp n b 0x90 (helloOf role member resync pend) t fun s =>
    if n < 32 && s.isPairPort n then
      let s := (s.noteHello role member resync).decideRole role pend t
      let s := if s.role = rSwapHold && role = rActive then s.swapDoneStandby else s
      s.refreshPair.irqDeliver
    else s

/-- PAIR_LEVEL (R374, R375). -/
def execPairLevel (n : Nat) (b : Byp) (level t : Nat) (s : State) : Res :=
  s.byp n b 0x91 level t fun s =>
    if n < 32 && s.isPairPort n then
      ((s.wr .hPairLevel 0 0 level).wr .hPairLevelSeen 0 0 1).refreshPair.irqDeliver
    else s

/-- PAIR_IMP (R374, R375). -/
def execPairImp (n : Nat) (b : Byp) (digest t : Nat) (s : State) : Res :=
  s.byp n b 0x92 digest t fun s =>
    if n < 32 && s.isPairPort n then
      ((s.wr .hPairImp 0 0 digest).wr .hPairImpSeen 0 0 1).refreshPair.irqDeliver
    else s

/-- PAIR_HELLO_TIMER: PAIR_HELLO, PAIR_LEVEL and PAIR_IMP on every pair-link port that is UP (R374). -/
def execPairHelloTimer (t : Nat) (s : State) : Res := .next (s.stamp t).sendHellos

/-! ### The standby's side of the mirror (R377, R378, R382) -/

/-- Bytes [a, a + n) of chase c's memory lie wholly within one checkpoint copy or SHARED memory region of
forme x (R378). -/
def State.mirrorOwns (s : State) (x : Forme) (c a n : Nat) : Bool :=
  (x.ckpts.any fun k => k.chase = c && [k.band0, k.band1].any fun b =>
    b * 2 ^ 23 ≤ a && a + n ≤ (b + k.bandsM1 + 1) * 2 ^ 23) ||
    (s.sharedRegions x.number).any fun r => r.1 = c &&
      s.rd .memRegionFirstBand (4 * c) r.2 * 2 ^ 23 ≤ a &&
        a + n ≤ (s.rd .memRegionFirstBand (4 * c) r.2 + s.rd .memRegionBandsM1 (4 * c) r.2 + 1) * 2 ^ 23

/-- Sectors [a, a + n) of chase c that a WRITE of forme f carried. -/
def State.noteMirror (s : State) (f c a n : Nat) : State :=
  let l := (List.range ((n + 63) / 64)).map fun k => (f, c, a + 64 * k)
  { s with mirrorGot := s.mirrorGot ++ l.filter fun e => !s.mirrorGot.contains e }

/-- MIRROR_WRITE: a standby stores a WRITE inside the forme's mirrored memory, and counts any other as bad
(R378, R382). -/
def execMirrorWrite (n f c addr _edition : Nat) (data : List (BitVec 8)) (s : State) : Res :=
  if n < 32 && f < 16 && c < 4 then
    if s.role = rStandby then
      match s.mirroredFormes.find? fun x => x.number = f with
      | some x =>
        if s.mirrorOwns x c addr data.length then .next ((s.writeMem c addr data).noteMirror f c addr data.length)
        else .next (s.bump .pairCountsBadWrites 0 0 1)
      | none => .next (s.bump .pairCountsBadWrites 0 0 1)
    else .next s
  else .fault .noSuchUnit

/-- BASES: a standby holds the entries of the edition whose RECORD follows, beside those of its last record (R377,
R378). -/
def execMirrorBases (n f edition : Nat) (es : List BaseEntry) (s : State) : Res :=
  if n < 32 && f < 16 then
    if s.role = rStandby then
      let old := s.bases.filter fun b => b.1 != f || b.2.1 != edition || !(es.any fun e => e.port = b.2.2.port)
      .next { s with bases := old ++ es.map fun e => (f, edition, e) }
    else .next s
  else .fault .noSuchUnit

/-- Every sector of n bands from band b of chase c was sent for forme f. -/
def State.gotBands (s : State) (f c b n : Nat) : Bool :=
  (List.range (n * 2 ^ 17)).all fun k => s.mirrorGot.contains (f, c, b * 2 ^ 23 + 64 * k)

/-- A whole-copy transfer of forme x came before the record of edition e: every sector of the checkpoint copy and of
the SHARED memory regions (R382). -/
def State.gotWhole (s : State) (x : Forme) (e : Nat) : Bool :=
  (x.ckpts.all fun k => s.gotBands x.number k.chase (k.band e) (k.bandsM1 + 1)) &&
    (s.sharedRegions x.number).all fun r =>
      s.gotBands x.number r.1 (s.rd .memRegionFirstBand (4 * r.1) r.2) (s.rd .memRegionBandsM1 (4 * r.1) r.2 + 1)

/-- A record that the standby does not hold yet is stored, with the BASES entries of its edition. One that ends a
whole-copy transfer makes its forme SYNCED; after a delta a forme that was not SYNCED stays so (R378, R381, R382). -/
def State.storeRecord (s : State) (x : Forme) (r : CkptRecord) : State :=
  let f := x.number
  let s := { s with log := r :: s.log, bases := s.bases.filter fun b => b.1 != f || b.2.1 = r.edition % 2 ^ 32 }
  let s := if s.rd .pairFormeSync 0 f != 1 && s.gotWhole x r.edition then
    (s.bump .pairCountsResyncs 0 0 1).wr .pairFormeSync 0 f 1 else s
  s.wr .pairFormeEdition 0 f r.edition

/-- RECORD: a standby stores it, unless it repeats the last one, and answers MIRROR_DONE (R378, R379). -/
def execMirrorRecord (n f : Nat) (r : CkptRecord) (t : Nat) (s : State) : Res :=
  if n < 32 && f < 16 then
    let s := s.stamp t
    if s.role = rStandby then
      let again := (s.log.find? fun x => x.forme = f).map CkptRecord.edition = some r.edition
      let s := match s.mirroredFormes.find? fun x => x.number = f with
        | some x => if again then s else s.storeRecord x r
        | none => s
      let s := { s with mirrorGot := s.mirrorGot.filter fun e => e.1 != f }
      .next (s.sendByp n 0x93 (f * 2 ^ 28 + r.edition % 2 ^ 28) 0)
    else .next s
  else .fault .noSuchUnit

/-- The partner has the delta of the closing edition: condition 3 of its commit (R229, R378, R382). -/
def State.deltaDone (s : State) (f : Nat) : State :=
  let s := (s.wr .hFormeMirrorDone 0 f 1).wr .pairFormeEdition 0 f (s.edition f)
  if s.rd .pairFormeSync 0 f = 3 then
    ((s.bump .pairCountsResyncs 0 0 1).wr .pairFormeSync 0 f 1).wr .hPairResyncDue 0 f 0
  else s.wr .pairFormeSync 0 f 1

/-- The partner has the pre-release batch: the port's S2 base is recorded (R309, R379). -/
def State.batchAcked (s : State) (f : Nat) : State :=
  let s := s.wr .hFormePreDone 0 f 1
  match (s.mirroredFormes.find? fun x => x.number = f).bind s.mirrorPort with
  | some q => s.wr .lnkTxSeqBase q 2 (s.nextBase q 2)
  | none => s

/-- MIRROR_DONE: for the edition in hand, whose RECORD went out in this run of it or in one that was abandoned, or for
the last record at the end of a pre-release batch (R378, R379). -/
def execMirrorDone (n : Nat) (b : Byp) (f edition t : Nat) (s : State) : Res :=
  s.byp n b 0x93 (f * 2 ^ 28 + edition) t fun s =>
    if n < 32 && f < 16 && s.role = rActive then
      if edition % 2 ^ 28 = s.edition f % 2 ^ 28 then s.deltaDone f
      else if s.on .hFormePreSent 0 f && edition % 2 ^ 28 = (s.edition f - 1) % 2 ^ 28 then s.batchAcked f
      else s
    else s

/-- STANDBY_STALE: no pair-link port UP for 2^27 ticks: every mirrored forme is STALE (R381). -/
def execStandbyStale (t : Nat) (s : State) : Res :=
  let s := s.stamp t
  if s.role = rStandby && !((List.range 32).any fun q => s.isPairPort q && s.lState q = lUp) then
    .next (s.each s.mirroredFormes fun s x => s.wr .pairFormeSync 0 x.number 2)
  else .next s

/-- GRACE_EXPIRED: a mirrored forme without a pair-link port UP for 2^28 ticks is UNPROTECTED (R381). -/
def execGraceExpired (f t : Nat) (s : State) : Res :=
  if f < 16 then
    let s := s.stamp t
    match s.mirroredFormes.find? fun x => x.number = f with
    | some x =>
      if s.role = rActive && (s.mirrorPort x).isNone then
        .next (s.wr .hPairGraceOver 0 f 1).refreshPair.irqDeliver
      else .next s
    | none => .next s
  else .fault .noSuchUnit

/-! ### Yield (R372, R383, R385) -/

/-- YIELD: an active yields with cause 0x09 (R383, PAIR_CTRL). -/
def execPairYield (t : Nat) (s : State) : Res := .next ((s.stamp t).yieldWith 9).irqDeliver

/-- LIVENESS_FAIL: four liveness pulses missed: an active yields with cause 0x05 (R383). -/
def execLivenessFail (t : Nat) (s : State) : Res := .next ((s.stamp t).yieldWith 5).irqDeliver

/-- A port that a yield or a standby darkened enters CLOCK; its numbers follow the peer's (R291, R394). -/
def State.relightPort (s : State) (q t : Nat) : State :=
  if s.portDead q || s.lState q != lOff || !(s.active.map fun i => i.lights q).getD false then s
  else (s.setLink q { s.link q with gapOk := true }).toClock q t

/-- YIELD_COMPLETE: the ports are dark: the line is released (R385). In SWAP_HOLD the pair-link ports train again, over
which the partner will report ACTIVE (R394; log entry 88). -/
def execYieldComplete (t : Nat) (s : State) : Res :=
  let s := (s.stamp t).endYield
  let s := if s.role = rSwapHold then
    s.each ((List.range 32).filter s.isPairPort) fun s q => s.relightPort q t else s
  .next s.irqDeliver

/-- The module could not take over: STOPPED, its own line released (R386, R388). -/
def State.stopTakeover (s : State) (result : Nat) : State :=
  ((s.releaseLine.setRole rStopped).wr .pairTakeoverResult 0 0 result).wr .hPairPhase 0 0 0

/-- A takeover begins where every mirrored forme is SYNCED, with an empty barrier table; else it is REFUSED
(R358, R386, R387). -/
def State.beginTakeover (s : State) (t : Nat) : State :=
  if s.mirroredFormes.all fun x => s.rd .pairFormeSync 0 x.number = 1 then
    let s := { s with tokens := [] }
    ((s.setRole rTakingOver).wr .hPairYieldTick 0 0 (t - 1000)).wr .hPairPhase 0 0 1
  else s.stopTakeover 2

/-- A withdrawn swap: the line is live before any port lights; held formes release edition E, and others
that were stopped replay (R385, R394), and what waited for their states takes effect (R231). -/
def State.withdrawSwap (s : State) (t : Nat) : State :=
  let s := ((s.driveLine.setRole rActive).wr .pairStatusYieldCause 0 0 0).wr .hPairSwapEdition 0 0 0
  let s := s.each (List.range 32) fun s q => s.relightPort q t
  let s := s.each s.formeNums fun s f =>
    let s := if s.fState f = fHeld then s.resumeForme f 1
      else if s.fState f = fRunning || s.fState f = fClosing || s.fState f = fAbandoning then s.replay f
      else s
    s.letIn f t
  s.refreshPair

/-- PARTNER_YIELD: SB_PAIR_LIVE has read low for 1,000 ticks: a standby takes over, a module in SWAP_HOLD is
ACTIVE again, and an active has lost its standby (R372, R386, R387, R394). -/
def execPartnerYield (t : Nat) (s : State) : Res :=
  let s := (s.stamp t).wr .pairStatusLiveIn 0 0 0
  if s.role = rStandby then .next (s.beginTakeover t).irqDeliver
  else if s.role = rSwapHold then .next (s.withdrawSwap t).irqDeliver
  else .next s.refreshPair.irqDeliver

/-- PAIR_LIVE_RESTORED: SB_PAIR_LIVE reads high again (R372). -/
def execPairLiveRestored (t : Nat) (s : State) : Res :=
  .next ((s.stamp t).wr .pairStatusLiveIn 0 0 1).refreshPair.irqDeliver

/-! ### Takeover (R387 to R390, R432) -/

/-- Engines of the fabric forme without a pair-link port (R387, R432). -/
def State.takeoverEngines (s : State) : List Nat :=
  match s.fabricForme with
  | none => []
  | some x => (bitsSet x.engineSet 8).filter fun k => !((List.range 4).any fun j => s.isPairPort (portOf k j))

/-- TAKEOVER_POWERED: the units that STANDBY left unpowered have power, and their proof starts (R387,
R432). -/
def execTakeoverPowered (t : Nat) (s : State) : Res :=
  let s := s.stamp t
  if s.role = rTakingOver && s.rd .hPairPhase 0 0 = 1 then
    let s := s.each (List.range 12) fun s p => if s.cutPress p then s else (s.setRail p 1).setPState p pProof
    let s := s.each s.takeoverEngines fun s k => s.setRail (20 + k / 2) 1
    let s := s.each (List.range 16) fun s m => s.wr .memStatusState m 0 2
    let s := { s with repairMap := agedMap s.repairMap }
    .next (s.wrAll [(.prfResultState, 0, 0, 1), (.prfResultNewEntries, 0, 0, 0), (.hPairPhase, 0, 0, 2)])
  else .next s

/-- The entry's element is proved in a takeover (R432): presses, cores, slices 1 to 3 but for BS0, and the
fabric forme's engines without pair-link ports. -/
def State.inTakeover (s : State) (e : MapEntry) : Bool :=
  e.array = 1 || e.array = 2 || e.array = 3 || e.array = 9 ||
    (e.array = 4 && e.unit != 0 && 8 ≤ e.location / 65536) ||
    ((e.array = 7 || e.array = 8) && s.takeoverEngines.contains e.unit)

/-- The boot core of stage 4: the lowest of chase 0 that passed, else the lowest that passed (R457). -/
def State.bootCore (s : State) : Option Nat :=
  (List.range 16).find? fun n => !(s.repairMap.any fun e => e.type = 9 && e.unit = n)

/-- Stage 4: the boot core runs, the others that passed are HALTED (R457, R480). -/
def State.startCores (s : State) : State :=
  let s := s.each (List.range 16) fun s n =>
    if s.repairMap.any fun e => e.type = 9 && e.unit = n then s.wr .coreStatusState 0 n cOff
    else s.wr .coreStatusState 0 n cHalted
  match s.bootCore with
  | some n => (s.wr .coreStatusState 0 n cRun).wr .hBootCore 0 0 (n + 1)
  | none => s

/-- A takeover proof fails: a finding that no variant covers, or a mirrored forme without a variant
(R388). -/
def State.failTakeover (s : State) (x : Nat × Nat × Nat) : State :=
  (s.wrAll [(.prfResultState, 0, 0, 5), (.prfResultKind, 0, 0, x.1), (.prfResultUnit, 0, 0, x.2.1),
    (.prfResultCause, 0, 0, x.2.2)]).stopTakeover 3

/-- After the takeover's proof: it fails, where a finding is fatal or a mirrored forme fits no variant, or
goes on with the presses READY and the engines calibrated, and the cores run stages 4 and 5 on the image
that they pick (R388, R432, R442, R459). -/
def State.takeoverProven (s : State) (fs : List Finding) : State :=
  let s := (s.findings s.inTakeover fs).writeChanged s.repairMap
  match s.firstFatal fs with
  | some x => (s.failTakeover x).irqDeliver
  | none =>
    let s := s.pressesProven.engineCals s.takeoverEngines
    if s.mirroredFormes.any fun x => (s.select x).isNone then (s.failTakeover (0, 0, 0)).irqDeliver
    else ((s.wr .prfResultState 0 0 4).wr .hPairPhase 0 0 3).startCores.bootImage

/-- TAKEOVER_PROOF_DONE: findings take their results; the takeover fails or goes on (R388, R432, R459). -/
def execTakeoverProofDone (fs : List Finding) (t : Nat) (s : State) : Res :=
  let s := s.stamp t
  if s.role = rTakingOver && s.rd .hPairPhase 0 0 = 2 then .next (s.takeoverProven fs)
  else .next s

/-- A mirrored forme stands where its record says: its edition, its next step, its variant and images
(R237, R238, R378, R387). -/
def State.restoreForme (s : State) (x : Forme) : State :=
  let f := x.number
  let r := s.lastRecord f
  let s := s.wrAll [(.modFormeEditionEdition, 0, f, r.edition), (.hFormeNextQ, 0, f, r.seq),
    (.hFormeEdQ, 0, f, r.seq)]
  match s.select x with
  | some v => ((s.adopt f v).writeStores v).wr .hFormeRewrite 0 f 0
  | none => s

/-- S0 numbers of a port from its BASES entry (R291, R377, R387). -/
def State.takeBase (s : State) (e : BaseEntry) : State :=
  let s := ((s.setTxNext e.port 0 e.txNext).setRxExp e.port 0 e.rxExpected)
  (s.wr .lnkTxSeqBase e.port 0 e.txNext).wr .lnkRxSeqBase e.port 0 e.rxExpected

/-- TAKEOVER_IMAGES_WRITTEN: variants are selected and written; the fabric ports take their numbers and
enter CLOCK (R387 rows 4 and 5). -/
def execTakeoverImagesWritten (t : Nat) (s : State) : Res :=
  let s := s.stamp t
  if s.role = rTakingOver && s.rd .hPairPhase 0 0 = 3 then
    let s := s.each s.mirroredFormes State.restoreForme
    let s := s.each (s.bases.filter fun b =>
      b.2.1 = (s.lastRecord b.1).edition % 2 ^ 32 && b.2.2.port < 32) fun s b => s.takeBase b.2.2
    let s := s.each (List.range 32) fun s q => s.relightPort q t
    .next (s.wr .hPairPhase 0 0 4)
  else .next s

/-- REWIND and FETCH of every mirrored forme's ports (R387 row 6). -/
def State.takeoverFetch (s : State) : State :=
  (s.each s.mirroredFormes fun s x => s.replayPorts x).wr .hPairPhase 0 0 5

/-- TAKEOVER_PORTS_TIMEOUT: the standby proceeds without the ports that are not UP (R387 row 5). -/
def execTakeoverPortsTimeout (t : Nat) (s : State) : Res :=
  let s := s.stamp t
  if s.role = rTakingOver && s.rd .hPairPhase 0 0 = 4 then .next s.takeoverFetch else .next s

/-- The first step of the edition after the mirrored one is released, with replay set (R234, R387 row 7,
R389), unless a cause that waited for RUNNING abandons it first (R231). -/
def State.firstReplay (s : State) (x : Forme) (t : Nat) : State :=
  let s := (((s.run x.number 1).replay x.number).wr .hFormeRouteBack 0 x.number 0).letIn x.number t
  match s.variant x.number with
  | some v => if s.fState x.number = fRunning then s.releaseStep x v t else s
  | none => s

/-- Takeover is complete: ACTIVE, result DONE (R387, R390). -/
def State.endTakeover (s : State) (t : Nat) : State :=
  let s := s.setRole rActive
  let s := s.each s.mirroredFormes fun s x => s.firstReplay x t
  let s := s.wrAll [(.pairTakeoverResult, 0, 0, 1), (.hPairPhase, 0, 0, 0),
    (.pairTakeoverTicks, 0, 0, min (2 ^ 32 - 1) (t - s.rd .hPairYieldTick 0 0))]
  s.refreshPair

/-- Lit ports of the mirrored formes, pair-link ports excepted. -/
def State.takeoverPorts (s : State) : List Nat :=
  (s.mirroredFormes.flatMap fun x => bitsSet x.portSet 32).filter fun q =>
    ((s.portRec q).map PortRec.lit).getD false && !s.isPairPort q

/-- The peers of the ports that are UP have sent the EDITION of the takeover's record, or a later one (R360, R387 row 5;
log entry 68). -/
def State.takeoverReady (s : State) : Bool :=
  s.mirroredFormes.all fun x => !x.fabric || s.peersSent x fun q => s.lState q = lUp

/-- TAKEOVER_RELEASE: with every port UP, REWIND and FETCH go out; with every FETCH of a port that is UP answered, and
the peers' EDITION there, the first step is released and the module is ACTIVE (R360, R387, R390). -/
def execTakeoverRelease (t : Nat) (s : State) : Res :=
  let s := s.stamp t
  if s.role = rTakingOver then
    if s.rd .hPairPhase 0 0 = 4 then
      if s.takeoverPorts.all fun q => s.lState q = lUp then .next s.takeoverFetch else .next s
    else if s.rd .hPairPhase 0 0 = 5 then
      if s.takeoverReady && s.takeoverPorts.all fun q => s.lState q != lUp || !s.on .fabPortFetchPending 0 q then
        .next (s.endTakeover t).irqDeliver
      else .next s
    else .next s
  else .next s

/-! ### Voluntary swap (R393) -/

/-- SWAP: a PROTECTED active asks its standby for the swap after forme f's next boundary; else it is refused
(R393, PAIR_CTRL). -/
def execPairSwap (f t : Nat) (s : State) : Res :=
  if f < 16 then
    let s := s.stamp t
    match (s.mirroredFormes.find? fun x => x.number = f).bind s.mirrorPort with
    | some q =>
      if s.role = rActive && s.rd .pairStatusProtection 0 0 = 1 then
        let e := s.edition f + 1
        .next (((s.wr .hPairSwapEdition 0 0 e).wr .hPairSwapAcked 0 0 0).issue q 0x94 (e % 2 ^ 32))
      else .next s.refuseRole.irqDeliver
    | none => .next s.refuseRole.irqDeliver
  else .fault .noSuchUnit

/-- Identity of the peer that port n's record names (R351). -/
def State.peerIdentity (s : State) (n : Nat) : Nat :=
  ((s.portRec n).map fun r => r.peer * 32 + r.peerPort).getD (s.endIdentity n)

/-- SWAP_REQ: a standby acknowledges it (R374, R393). -/
def execSwapReq (n : Nat) (b : Byp) (edition t : Nat) (s : State) : Res :=
  s.byp n b 0x94 edition t fun s =>
    if s.role = rStandby then s.receiveReq n 0x94 edition b.reqno (s.peerIdentity n) fun s => s else s

/-- SWAP_ACK: the active holds its mirrored formes once edition E - 1 is committed, and yields where they hold
already (R374, R393). -/
def execSwapAck (n : Nat) (b : Byp) (edition t : Nat) (s : State) : Res :=
  s.byp n b 0x95 edition t fun s => s.receiveAck n 0x95 edition b.reqno fun s => (s.wr .hPairSwapAcked 0 0 1).swapYield

end Sys2Proof.Machine
end

