-- ==== Sys2Proof/Machine/Power.lean ====
section
/-!
DEFINITION. Rails (R397 to R400), the activity estimator, its windows and the energy queues (R405 to R408,
R416), the cap's commands (R409, R411, R413, R415), droop (R419, R420) and temperature (R421 to R426).
-/

namespace Sys2Proof.Machine

/-! ### Rails (R397, R398, R400) -/

/-- Limit and cut level of a rail in 0.1 A (R397). -/
def railLimits (n : Nat) : Nat × Nat :=
  if n < 12 then (2400, 3000) else if n < 16 then (2000, 2500) else if n < 20 then (1100, 1400)
  else if n < 24 then (1000, 1250) else (400, 500)

/-- An engine loses its supply: its die link and its ports go down, and the ports stay OFF (R236, R336,
R398; log entry 67). -/
def State.engineCut (s : State) (t k : Nat) : State :=
  (s.dieDown (4 + k) t).each (List.range 4) fun s j => s.portOff (portOf k j)

/-- The effect of a cut (R398): a press lost, a main-rail failure, both engines lost, or the unit's lanes
suddenly lost. -/
def State.cutRail (s : State) (n t : Nat) : State :=
  let s := s.wr .pwrRailState 0 n 3
  if n < 12 then s.losePress n t
  else if n < 20 then s.powerOff 4 t
  else if n < 24 then (s.engineCut t (2 * (n - 20))).engineCut t (2 * (n - 20) + 1)
  else ((s.loseUnit (n - 24) t).setBolt (n - 24) 1).covers

/-- RAIL_WINDOW: a rail's window mean, in 0.1 A: CUT above its cut level, LIMITING above its limit and until
a window falls below 90 % of it (R397, R398). A rail that is off draws nothing. -/
def execRailWindow (n current t : Nat) (s : State) : Res :=
  if n < 26 then
    let s := s.stamp t
    let st := s.rd .pwrRailState 0 n
    let l := railLimits n
    if st = 0 || st = 3 then .next (s.wr .pwrRailCurrent 0 n 0)
    else
      let s := s.wr .pwrRailCurrent 0 n (min 0xFFFF current)
      if l.2 < current then .next (s.cutRail n t).irqDeliver
      else if l.1 < current then
        .next (if st = 2 then s else (s.wr .pwrRailState 0 n 2).bump .pwrRailLimitEvents 0 n 1)
      else if st = 2 && 10 * current < 9 * l.1 then
        .next ((s.wr .pwrRailState 0 n 1).releaseHeld (railWait n))
      else .next s
  else .fault .noSuchUnit

/-- MAIN_RAIL_FAILURE: power-off, with a yield of cause 0x07 (R400, R452). -/
def execMainRailFailure (inputOut : Bool) (t : Nat) (s : State) : Res :=
  let s := s.stamp t
  if s.on .hPwrUp 0 0 then
    let s := if inputOut then s.wr .pwrStatusInputFault 0 0 1 else s
    .next (s.powerOff 4 t).irqDeliver
  else .next s

/-! ### Estimator (R405 to R408, R416) -/

/-- Weight e of the estimator. -/
def State.weight (s : State) (e : Nat) : Nat := s.rd .pwrWeightWeight 0 e

/-- An event is a static term of a press (R406). -/
def isPressStatic (e : EstEvent) : Bool := e.press < 12 && 15 ≤ e.e && e.e ≤ 19

/-- Energy of events in units of 0.01 pJ / 750³: press weights scale by V², press static ones by V³, and the band of
the press's domain selects the static weight (R405, R423). -/
def State.eventEnergy (s : State) (e : EstEvent) : Nat :=
  let v := pointMv (s.pressPoint e.press)
  if 12 ≤ e.press then e.count * s.weight e.e * 421875000
  else if isPressStatic e then e.count * s.weight (15 + s.rd .thmDomainBand 0 e.press) * (v * v * v)
  else e.count * s.weight e.e * (v * v * 750)

/-- The hold estimate H of a sample in watts: its static terms and its IDLE blocks, at most 520 W (R395, R406). -/
def State.holdOf (s : State) (x : EstSample) : Nat :=
  let fixed := ((x.events.filter fun e => 15 ≤ e.e).map s.eventEnergy).sum
  let idle := (x.idle.1 * s.weight 12 + x.idle.2 * s.weight 13) * 421875000
  min 520 ((fixed + idle) / sampleUnits 1)

/-- An event counts as a press's dynamic energy (R405, R410). -/
def isPressDynamic (e : EstEvent) : Bool := e.press < 12 && e.e < 15

/-- Energy, and press dynamic energy, of forme f's queue in a sample. -/
def State.formeShare (s : State) (es : List EstEvent) (f : Nat) : Nat × Nat :=
  let mine := es.filter fun e => e.q = f
  ((mine.map s.eventEnergy).sum, ((mine.filter isPressDynamic).map s.eventEnergy).sum)

/-- One microjoule in the units of a sample. -/
def microjoule : Nat := 100000000 * 421875000

/-- Energy charged to a queue, in whole microjoules; what is below one is kept for the next (R416). -/
def State.charge (s : State) (q energy : Nat) : State :=
  let e := s.rd .hPwrEnergyRem 0 q + energy
  (s.wrap .pwrEnergyEnergy 0 q (e / microjoule)).wr .hPwrEnergyRem 0 q (e % microjoule)

/-- The sample's energy goes to the queues of its events' owners (R416). -/
def State.chargeAll (s : State) (es : List EstEvent) : State :=
  s.each (List.range 22) fun s q =>
    s.charge q ((es.filter fun e => e.q = q).map s.eventEnergy).sum

/-- A sample joins the windows (R408), and the active samples of the steps in hand are summed (R413). -/
def State.addSample (s : State) (x : EstSample) : State :=
  let energy := (x.events.map s.eventEnergy).sum
  let formes := (s.formeNums.map fun f => (f, s.formeShare x.events f)).filter fun e => e.2.1 != 0
  let y := PwrSample.mk energy (s.rd .pwrStatusInputW 0 0) x.active formes
  let s := s.chargeAll x.events
  let s := { s with samples := (y :: s.samples).take complianceLen }
  let s := if x.active then s.each s.formeNums fun s f =>
      if s.on .hFormeStepRun 0 f then
        (s.wr .hFormeActSum 0 f (s.rd .hFormeActSum 0 f + energy)).wr .hFormeActNum 0 f
          (s.rd .hFormeActNum 0 f + 1)
      else s
    else s
  let est := ((s.samples.take decisionLen).map PwrSample.energy).sum / (decisionLen * sampleUnits 1)
  (s.wr .pwrStatusHoldW 0 0 (s.holdOf x)).wr .pwrStatusEstW 0 0 (min 4095 est)

/-- A full compliance window whose mean exceeds the cap by more than 5 % (R408). -/
def State.compliance (s : State) : State :=
  if s.samples.length = complianceLen &&
      105 * (complianceLen * sampleUnits s.cap) < 100 * s.windowEnergy complianceLen then
    s.wr .pwrStatusCapExceeded 0 0 1
  else s

/-- Estimate and measurement differ by more than 10 % over the decision window (R407). -/
def State.drifts (s : State) : Bool :=
  let l := s.samples.take decisionLen
  let e := (l.map PwrSample.energy).sum
  let m := (l.map fun x => sampleUnits x.input).sum
  m < 10 * (max e m - min e m)

/-- est_drift: every decision window for 2^30 ticks differs so; one that agrees starts the time afresh (R407). -/
def State.noteDrift (s : State) (t : Nat) : State :=
  let since := s.rd .hPwrDriftTick 0 0
  if !s.drifts then s.wr .hPwrDriftTick 0 0 0
  else if since = 0 then s.wr .hPwrDriftTick 0 0 (t + 1)
  else if 2 ^ 30 ≤ t + 1 - since then s.wr .pwrStatusEstDrift 0 0 1
  else s

/-- The forme that stalls slow: the running one of highest mean power, the lower number on a tie (R409). -/
def State.stalledForme (s : State) : Option Nat :=
  s.runningFormes.find? fun g => s.runningFormes.all fun h =>
    (s.formeEnergy h).1 < (s.formeEnergy g).1 || ((s.formeEnergy h).1 = (s.formeEnergy g).1 && g ≤ h)

/-- Power by which the last sample exceeds the cap, in thousandths of a watt (R407, R411). -/
def State.excess (s : State) : Nat :=
  match s.samples with
  | x :: _ => 1000 * (max x.energy (sampleUnits x.input) - sampleUnits s.cap) / sampleUnits 1
  | [] => 0

/-- Stalled press cycles of every 64: in proportion to the excess, 0 to 32 (R411). -/
def State.stallCycles (s : State) : Nat := min 32 (Config.stallGain * s.excess / 1000000)

/-- The stalled time of a sample is charged to press p of forme f, up to the step's budget (R411). -/
def State.stallPress (s : State) (f ticks p : Nat) : State :=
  if s.pState p = pActive then
    let c := min (s.rd .hFormeStallBudget 0 f) (s.rd .hPrsStall 0 p + ticks)
    (s.wr .hPrsStall 0 p c).wr .hFormeStallMax 0 f (max c (s.rd .hFormeStallMax 0 f))
  else s

/-- stall_ticks: the greatest charge of a press in the step; one of 2^20 ticks or more does not fit the field, and what
it shows then is free (R411; log entry 61). -/
def State.showStall (s : State) (f : Nat) : State :=
  let m := s.rd .hFormeStallMax 0 f
  if m < 2 ^ 20 then s.wr .pwrFormeStallTicks 0 f m
  else (s.free 20).2.wr .pwrFormeStallTicks 0 f (s.free 20).1

/-- Stalls for a sample, in the current step of one forme while the decision-window mean exceeds the cap (R409,
R411). -/
def State.stalls (s : State) : State :=
  match s.stalledForme with
  | none => s
  | some f =>
    match s.variant f with
    | none => s
    | some v =>
      if s.aboveCap && s.on .hFormeStepRun 0 f then
        (s.each (bitsSet v.pressMask 12) fun s p => s.stallPress f (32 * s.stallCycles) p).showStall f
      else s

/-- Formes parked for CAP_UNMET resume at the first sample at which the cap is H + 40 W or more: at P4 or at
the fixed point, under the idle-step rule (R415); a cause that waited for RUNNING then takes effect (R231). -/
def State.capResume (s : State) (t : Nat) : State :=
  if s.holdW + 40 ≤ s.cap && s.role = rActive && !s.switching then
    (s.each s.formeNums fun s f =>
      if s.fState f = fParked && s.rd .modFormeStatusParkReason 0 f = parkCap then
        let s := s.resumeForme f (if s.fixedMode then s.fixedTarget f else 4)
        ((s.setDebt f 0).wr .pwrFormeFloor 0 f 1).letIn f t
      else s).capUnmet
  else s

/-- ESTIMATOR_SAMPLE: a sample of 2,048 ticks ends, and with it a decision window (R405 to R411, R413, R415, R416). -/
def execEstimatorSample (x : EstSample) (t : Nat) (s : State) : Res :=
  if x.events.all fun e => e.e < 24 && e.q < 22 then
    let s := s.stamp t
    .next ((((s.addSample x).compliance.noteDrift t).stalls).capResume t).irqDeliver
  else .fault .noSuchUnit

/-- INPUT_MEASUREMENT: input power and voltage; input_fault outside 40 V to 60 V (R407, PWR_STATUS). -/
def execInputMeasurement (watts dv t : Nat) (s : State) : Res :=
  let s := s.stamp t
  let s := (s.wr .pwrStatusInputW 0 0 (min 4095 watts)).wr .pwrStatusInputDv 0 0 (min 4095 dv)
  .next (if dv < 400 || 600 < dv then s.wr .pwrStatusInputFault 0 0 1 else s).irqDeliver

/-- IDLE_STEP_END: the next idle step, or the release (R413). -/
def execIdleStepEnd (f t : Nat) (s : State) : Res :=
  if f < 16 then
    let s := s.stamp t
    .next (if s.on .hFormeIdle 0 f then s.idleNext f else s)
  else .fault .noSuchUnit

/-- PWR_CTRL_WRITE: fields as written; a cap above 2,800 W is taken as 2,800 W (R403, R409, R412). -/
def execPwrCtrlWrite (value : Nat) (s : State) : Res :=
  .next (s.wrAll [(.pwrCtrlFixed, 0, 0, bitsAt value 31 1), (.pwrCtrlFixedPoint, 0, 0, bitsAt value 28 3),
    (.pwrCtrlBoost, 0, 0, bitsAt value 27 1), (.pwrCtrlCap, 0, 0, min 2800 (bitsAt value 0 12))])

/-! ### Droop (R419, R420) -/

/-- Stretch for a sag in 0.1 % of nominal: 1 is 12.5 %, 2 is 25 %, 3 is 50 %, 0 none (R419). -/
def stretchOf (sag : Nat) : Nat :=
  if sag < 50 then 0 else if sag < 75 then 1 else if sag < 100 then 2 else 3

/-- Rail of an island: 0 to 11 presses, 12 to 15 galleys, 16 to 19 core clusters of a chase (R397). -/
def railOfIsland (i : Nat) : Nat := if i < 16 then i else i - 4

/-- A droop event starts: counted, and the 64th within 2^20 ticks is a storm (R8, R419, R420). -/
def State.droopEvent (s : State) (i sag t : Nat) : State :=
  let l := (t :: (s.droops.getD i []).filter fun x => t - x < 2 ^ 20).take 64
  let s := { s with droops := s.droops.put i l }
  let s := (s.wr .hDroopRun 0 i (stretchOf sag)).bump .pwrRailDroopEvents 0 (railOfIsland i) 1
  if 64 ≤ l.length then
    let s := s.wr .pwrRailDroopStorm 0 (railOfIsland i) 1
    if i < 12 && !s.fixedMode then
      match s.formeOfPress i with
      | some f => s.wr .hFormeStormPend 0 f.number 1
      | none => s
    else s
  else s

/-- DROOP_TRIP: an island's detector trips; one event at a time (R419, R420). -/
def execDroopTrip (island sag t : Nat) (s : State) : Res :=
  if island < 20 then
    let s := s.stamp t
    .next (if stretchOf sag = 0 || s.rd .hDroopRun 0 island != 0 then s else s.droopEvent island sag t)
  else .fault .noSuchUnit

/-- DROOP_EVENT_END: the stretch ends; a detector still tripped starts a new event at once (R419). -/
def execDroopEventEnd (island : Nat) (still : Option Nat) (t : Nat) (s : State) : Res :=
  if island < 20 then
    let s := (s.stamp t).wr .hDroopRun 0 island 0
    match still with
    | some sag => .next (if stretchOf sag = 0 then s else s.droopEvent island sag t)
    | none => .next s
  else .fault .noSuchUnit

/-! ### Temperature (R421 to R426) -/

/-- Band of a temperature in 0.125 °C (R421). -/
def bandOf (x : Int) : Nat :=
  if x < 360 then 0 else if x < 560 then 1 else if x < 680 then 2 else if x < 760 then 3 else 4

/-- Lower bound of a band in 0.125 °C (R421). -/
def bandFloor (b : Nat) : Int := if b = 1 then 360 else if b = 2 then 560 else if b = 3 then 680 else 760

/-- Highest of some readings and the first sensor that has it. -/
def hotSensor : List Int → Int × Nat
  | [] => (-2048, 0)
  | [x] => (x, 0)
  | x :: y :: l =>
    let r := hotSensor (y :: l)
    if r.1 ≤ x then (x, 0) else (r.1, r.2 + 1)

/-- A domain's band, and what the band selects in a stack or an engine (R161, R247, R423). -/
def State.setBand (s : State) (d b : Nat) : State :=
  let s := (s.wr .thmDomainBand 0 d b).bump .thmDomainBandChanges 0 d 1
  if 16 ≤ d && d < 32 then
    let s := s.wr .memStatusBand (d - 16) 0 b
    if 2 ≤ s.rd .memStatusState (d - 16) 0 then s.wr .memStatusRefreshMult (d - 16) 0 (refreshOf b) else s
  else if 32 ≤ d && d < 40 then s.wr .oeStatusBand (d - 32) 0 b
  else s

/-- The band after a sample: up at once; down by one after 2^20 ticks more than 2.0 °C below the band
(R422). -/
def State.moveBand (s : State) (d : Nat) (x : Int) (t : Nat) : State :=
  let b := s.rd .thmDomainBand 0 d
  let cool := s.rd .hThmCool 0 d
  if b < bandOf x then (s.setBand d (bandOf x)).wr .hThmCool 0 d 0
  else if b != 0 && x < bandFloor b - 16 then
    if cool = 0 then s.wr .hThmCool 0 d (t + 1)
    else if 2 ^ 20 ≤ t + 1 - cool then (s.setBand d (b - 1)).wr .hThmCool 0 d 0
    else s
  else s.wr .hThmCool 0 d 0

/-- THM_STATUS follows the domains; a change of the module's band is an event (R422, R425, R484). -/
def State.thermalStatus (s : State) : State :=
  let ds := (List.range 42).filter fun d => s.on .hThmSeen 0 d
  let band := (ds.map fun d => s.rd .thmDomainBand 0 d).foldl max 0
  let temp := (hotSensor (ds.map fun d => sgn 12 (s.rd .thmDomainTemp 0 d))).1
  let s := if s.rd .thmStatusBand 0 0 = band then s else s.wr .coreIrqEventsBand 0 0 1
  s.wrAll [(.thmStatusBand, 0, 0, band), (.thmStatusThrottle, 0, 0, b2n (decide (band = 4))),
    (.thmStatusTemp, 0, 0, twos 12 temp)]

/-- Sensors of a domain (R421). -/
def sensorsOf (d : Nat) : Nat :=
  if d < 12 then 8 else if d < 16 then 12 else if d < 32 then 2 else if d < 40 then 4 else 2

/-- TEMP_SAMPLE: the sensors of a domain, in 0.125 °C (R421 to R424). -/
def execTempSample (d : Nat) (ts : List Int) (t : Nat) (s : State) : Res :=
  if d < 42 && ts.length = sensorsOf d then
    let s := s.stamp t
    let h := hotSensor ts
    let seen := s.on .hThmSeen 0 d
    let peak := if seen then max h.1 (sgn 12 (s.rd .thmDomainPeak 0 d)) else h.1
    let s := s.wrAll [(.thmDomainTemp, 0, d, twos 12 h.1), (.thmDomainSensor, 0, d, h.2),
      (.thmDomainPeak, 0, d, twos 12 peak), (.hThmSeen, 0, d, 1)]
    .next ((s.moveBand d h.1 t).thermalStatus).irqDeliver
  else .fault .noSuchUnit

/-- THERMAL_DUTY_UPDATE: d_t halves while the domain is in B4, down to 1/16, and doubles after (R425). -/
def execThermalDutyUpdate (d t : Nat) (s : State) : Res :=
  if d < 42 then
    let s := s.stamp t
    let k := s.rd .hThmDuty 0 d
    .next (s.wr .hThmDuty 0 d (if s.rd .thmDomainBand 0 d = 4 then min 4 (k + 1) else k - 1))
  else .fault .noSuchUnit

/-- THERMAL_TRIP: latched; lasers dark, power off, and an active yields with cause 0x06 (R426, R452, R456,
R462). -/
def execThermalTrip (d t : Nat) (s : State) : Res :=
  if d < 42 then
    let s := s.stamp t
    let s := if s.on .thmStatusTrip 0 0 then s
      else (s.wr .thmStatusTrip 0 0 1).wr .thmStatusTripDomain 0 0 d
    let s := (s.wr .hPinTrip 0 0 1).alert 0
    let s := if s.on .hPwrUp 0 0 then s.shutdown 0 t else s
    .next (s.powerOff 5 t).irqDeliver
  else .fault .noSuchUnit

end Sys2Proof.Machine
end

