-- ==== Sys2Proof/Machine/Startup.lean ====
section
/-!
DEFINITION. Start-up and power-off, stage by stage (R451 to R453, R457 to R460), the laser triggers of the
island (R462), the configuration flash (R438, R469 to R471), and the supervisor's commands READY, FW_COMMIT,
ATTEST and ALERT (R456, R461, R470, R472).
-/

namespace Sys2Proof.Machine

/-- A new challenge from the random source (R468): a free value. -/
def State.newChallenge (s : State) : State :=
  let c := s.free 64
  c.2.wr .hChallenge 0 0 c.1

/-! ### Auxiliary power (R453, R457) -/

/-- What outlives the auxiliary supply: the flash, seated units, and the partner's line (R453, R469). -/
def auxFields : List Field :=
  [.secCounterValue, .hFlashGen, .lsuStatusPresent, .lsuStatusPresentB, .pairStatusLiveIn]

/-- The module without auxiliary power (R453). A write in progress is lost: a counter holds its old or its
new value, which is free (R470); a table or map keeps its other copy (R469); an image, of which there is
one copy, no longer verifies (log entry 27). -/
def State.auxLost (s : State) : State :=
  let s := match s.flashQ with
    | .counter n v :: _ =>
      let r := s.free 1
      if r.1 = 1 then r.2.wr .secCounterValue 0 n (max v (s.rd .secCounterValue 0 n)) else r.2
    | .image slot _ :: _ => { s with images := s.images.del slot }
    | _ => s
  { State.reset with
    regs := s.regs.filter fun e => auxFields.contains e.1.f
    keys := s.keys, images := s.images, flashMap := s.flashMap, cache := s.cache, out := s.out,
    freeCount := s.freeCount, pending := s.pending }

/-- AUX_LOSS: every rail and every sideband output drops (R453). -/
def execAuxLoss (s : State) : Res := .next s.auxLost

/-- AUX_POWER_ON: stage 1 starts in the island: straps sampled, a challenge drawn; `fail` is the cause with
which its checks fail, 0 for none (R454, R457, R468, SEC_EVENTS). -/
def execAuxPowerOn (strap fail : Nat) (s : State) : Res :=
  if fail ≤ 4 then
    let s := s.auxLost
    let s := s.wrAll [(.hStage, 0, 0, 1), (.hStrap, 0, 0, strap), (.pairStatusMember, 0, 0, strap),
      (.secEventsResetMask, 0, 0, 1), (.secEventsResetFirst, 0, 0, 1)]
    let s := s.newChallenge
    .next (if fail = 0 then s else s.bootFail fail)
  else .fault .noSuchUnit

/-! ### Stages (R457, R458, R466) -/

/-- The label "HK12-MAC" (R489). -/
def macLabel : List Byte := [0x48, 0x4B, 0x31, 0x32, 0x2D, 0x4D, 0x41, 0x43]

/-- MAC address from the DEVICE public key of slot 1 (R489): d0 in bits [47:40]. -/
def State.macAddress (s : State) : Nat :=
  let d := fixLen 6 (Config.shake256 (macLabel ++ ((s.keyRec 1).map recKey).getD []) 6)
  let x (i : Nat) : Nat := leAt d i 1
  let d0 := Nat.lor (Nat.land (x 0) 0xFC) 0x02
  ((((d0 * 256 + x 1) * 256 + x 2) * 256 + x 3) * 256 + x 4) * 256 + x 5

/-- Stage 1 passes: the boot count rises, SB_AUX_GOOD is high, keys and MAC address are shown (R454, R457,
R470, R489). -/
def State.endStageOne (s : State) : State :=
  let s := (s.wrap .secCounterValue 0 3 1).wrAll [(.hPinAuxGood, 0, 0, 1), (.mgtMacMac, 0, 0, s.macAddress),
    (.hStage, 0, 0, 0)]
  s.showKeys.setSec zAuxOnly

/-- Stage 4 begins: cores are released (R457, R480). -/
def State.stageFour (s : State) : State := (s.startCores.wr .hStage 0 0 4).setSec zBooting

/-- Stage 4 ends: the image runs and stage 5 begins, or NO_IMAGE (R457, R466). -/
def State.endStageFour (s : State) : State :=
  let s := s.bootImage
  if s.sec = zBootFail then s else s.wr .hStage 0 0 5

/-- STAGE_COMPLETE: a stage passes and the next begins (R457): stage 1 waits for t0 (R458); stage 2 has
passed with its last rails good; stage 3 with its proof; stage 5 ends with READY (R461). -/
def execStageComplete (t : Nat) (s : State) : Res :=
  let s := s.stamp t
  let st := s.rd .hStage 0 0
  if st = 1 then .next s.endStageOne
  else if st = 2 && s.rd .hPwrOnStep 0 0 = 4 then
    .next ((s.wrAll [(.hStage, 0, 0, 3), (.prfResultState, 0, 0, 1), (.prfResultPhase, 0, 0, 1)]).setSec zProof)
  else if st = 3 && s.rd .prfResultState 0 0 = 2 then .next s.stageFour
  else if st = 4 then .next s.endStageFour.irqDeliver
  else .next s

/-- STAGE_TIMEOUT: the stage in hand fails (R457). The cause of a timeout of stage 1 or 4 is not stated: free
among those of the stage. -/
def execStageTimeout (t : Nat) (s : State) : Res :=
  let s := s.stamp t
  let st := s.rd .hStage 0 0
  if st = 1 then
    let r := s.free 2
    .next (r.2.bootFail (1 + r.1))
  else if st = 2 then .next (s.powerOff 4 t)
  else if st = 3 then .next (s.fatal (s.rd .prfResultPhase 0 0) 0 0 0)
  else if st = 4 then
    let r := s.free 1
    .next (r.2.bootFail (5 + r.1))
  else if st = 5 then .next (s.bootFail 6)
  else .next s

/-- T0_REACHED: with SB_RESET_N high the chase rails are enabled and SB_PAIR_YIELD_N is driven live (R455,
R458). -/
def execT0Reached (t : Nat) (s : State) : Res :=
  let s := s.stamp t
  if s.sec = zAuxOnly && !s.on .hPinReset 0 0 then
    let s := s.wrAll [(.hStage, 0, 0, 2), (.hPwrUp, 0, 0, 1), (.hPwrOnStep, 0, 0, 0)]
    let s := s.each [12, 13, 14, 15] fun s n => s.wr .pwrRailState 0 n 1
    .next (s.driveLine.setSec zSequencing)
  else .next s

/-- Rails enabled after the k-th group (R458). -/
def nextRails (k : Nat) : List Nat :=
  if k = 0 then [16, 17, 18, 19] else if k = 1 then [20, 21, 22, 23]
  else if k = 2 then List.range 12 else []

/-- RAIL_ENABLE_STEP: the group enabled last is good, and the next is enabled; the time base starts with the
chase rails; a group that is not good is a main-rail failure (R400, R458, R504). -/
def execRailEnableStep (good : Bool) (t : Nat) (s : State) : Res :=
  let s := s.stamp t
  let k := s.rd .hPwrOnStep 0 0
  if s.sec = zSequencing && k < 4 then
    if good then
      let s := if k = 0 then (s.wr .hTimeBase 0 0 1).wr .modTickTick 0 0 0 else s
      let s := s.each (nextRails k) fun s n => s.wr .pwrRailState 0 n 1
      .next (s.wr .hPwrOnStep 0 0 (k + 1))
    else .next (s.powerOff 4 t)
  else .next s

/-! ### Reset and power-off (R451, R452, R460) -/

/-- A hardware reset, by SB_RESET_N (1) or by a signed command (2): refused in TRIPPED while the island is at
70 °C or above; else the shutdown and the sequence run (R426, R451, R452, R462). -/
def State.hardReset (s : State) (b t : Nat) : State :=
  if s.sec = zStage1 then s
  else if s.sec = zTripped then
    if s.on .hIslandHot 0 0 then (s.wr .secStatusResetRefused 0 0 1).alert 5
    else
      let s := s.wrAll [(.thmStatusTrip, 0, 0, 0), (.thmStatusTripDomain, 0, 0, 0), (.hPinTrip, 0, 0, 0)]
      let s := s.noteCause b false
      s.setSec s.endState0
  else (if s.on .hPwrUp 0 0 then s.shutdown 2 t else s).powerOff b t

/-- The island's sensor is read where no input gives its reading: the reading is free (R426, R473; log entry 1). -/
def State.senseIsland (s : State) : State :=
  let k := s.free 12
  (k.2.wr .hIslandTemp 0 0 k.1).wr .hIslandHot 0 0 (b2n (decide (560 ≤ sgn 12 k.1)))

/-- HARDWARE_RESET: SB_RESET_N is recognised low; `islandTemp` is the island's sensor in 0.125 °C (R451,
R452, R454). -/
def execHardwareReset (islandTemp : Int) (t : Nat) (s : State) : Res :=
  let s := (s.stamp t).wrAll [(.hPinReset, 0, 0, 1), (.hIslandTemp, 0, 0, twos 12 islandTemp),
    (.hIslandHot, 0, 0, b2n (decide (560 ≤ islandTemp)))]
  .next (s.hardReset 1 t)

/-- RESET_RELEASE: SB_RESET_N is high; a module whose last sequence ended in restart waits for t0 (R452,
R458). -/
def execResetRelease (t : Nat) (s : State) : Res :=
  let s := (s.stamp t).wr .hPinReset 0 0 0
  if s.sec = zOff && s.rd .secEventsResetMask 0 0 < 8 then .next (s.setSec zAuxOnly) else .next s

/-- Rails of group k of power-off sequencing, from 1 (R460). -/
def offRails (k : Nat) : List Nat :=
  if k = 1 then [24, 25] else if k = 2 then List.range 12 else if k = 3 then [20, 21, 22, 23]
  else if k = 4 then [16, 17, 18, 19] else [12, 13, 14, 15]

/-- RAIL_DISABLE_STEP: the next rails in order are off; with the last the sequence ends (R452, R460). -/
def execRailDisableStep (t : Nat) (s : State) : Res :=
  let s := s.stamp t
  let k := s.rd .hPwrOffStep 0 0
  if s.sec = zPoweringOff && k != 0 then
    let s := s.each (offRails k) fun s n => s.wr .pwrRailState 0 n 0
    if k < 5 then .next (s.wr .hPwrOffStep 0 0 (k + 1)) else .next s.endPowerOff
  else .next s

/-- LASER_OVERPOWER: trigger 3 (R462). -/
def execLaserOverpower (n t : Nat) (s : State) : Res :=
  if n < 160 then .next (((s.stamp t).wr .hOverPower 0 n 1).shutdown 3 t).irqDeliver
  else .fault .noSuchUnit

/-- LASER_HEARTBEAT_MISS: trigger 4 (R462). -/
def execLaserHeartbeatMiss (u t : Nat) (s : State) : Res :=
  if u < 2 then .next (((s.stamp t).orBit .hHeartMiss 0 0 u).shutdown 4 t).irqDeliver
  else .fault .noSuchUnit

/-! ### The flash (R438, R469 to R471) -/

/-- A key request is answered (SEC_REQ_STATUS). -/
def State.answerRequest (s : State) (result : Nat) : State :=
  if s.on .secReqStatusBusy 0 0 then
    (s.wr .secReqStatusBusy 0 0 0).wr .secReqStatusResult 0 0 result
  else s

/-- Key slots after a write; an empty record empties its slot (R467). -/
def putKeys (m : SMap Nat (List Byte)) (l : List (Nat × List Byte)) : SMap Nat (List Byte) :=
  l.foldl (fun m e => if e.2.isEmpty then m.del e.1 else m.put e.1 e.2) m

/-- A map and codes are in the flash: the generation rises, and entries added since the write started are
unwritten (R438). -/
def State.mapWritten (s : State) (l : List MapEntry) (codes : SMap RKey Nat) : State :=
  let s := ({ s with flashMap := l, cache := codes } : State).wrap .hFlashGen 0 0 1
  if s.on .hTimeBase 0 0 then
    s.wrAll [(.prfMapGeneration, 0, 0, s.rd .hFlashGen 0 0),
      (.prfMapUnwritten, 0, 0, (s.repairMap.filter fun e => !l.contains e).length)]
  else s

/-- The main domain leaves reset with what its proof found, and restarts from stage 4 (R494; log entry
28). -/
def State.restartFour (s : State) (t : Nat) : State :=
  let s := ((s.wr .hTimeBase 0 0 1).wr .secStatusFailCause 0 0 0).loadCapabilities.loadWeights.phaseThree t
  let s := (s.each s.repairMap State.applyEntry).each s.repairMap State.coverEntry
  let s := s.each (List.range 12) fun s p => if s.pState p = pFailed then s else s.setDepth p
  (s.proofPassed []).driveLine.stageFour

/-- A flash write that was done. -/
def State.flashDone (s : State) (j : FlashJob) (t : Nat) : State :=
  match j with
  | .counter n v =>
    let s := s.wr .secCounterValue 0 n (max v (s.rd .secCounterValue 0 n))
    if n = 2 then s.showKeys.answerRequest 1 else s
  | .keys l => ({ s with keys := putKeys s.keys l } : State).showKeys.answerRequest 1
  | .map => s
  | .mapOf l c => s.mapWritten l c
  | .image slot data =>
    let s := { s with images := s.images.put slot data }
    if s.sec = zBootFail && s.rd .secStatusFailCause 0 0 = 5 then s.restartFour t else s

/-- A flash write that failed (R438, R469, R470; for an image log entry 27). -/
def State.flashFailed (s : State) (j : FlashJob) : State :=
  match j with
  | .counter n _ => if n = 2 then s.answerRequest 6 else s
  | .keys _ => s.answerRequest 7
  | .map => s
  | .mapOf _ _ => s.wr .prfMapWriteFail 0 0 1
  | .image slot _ => { s with images := s.images.del slot }

/-- FLASH_WRITE_COMPLETE: the write in progress ends, and the next starts (R471). -/
def execFlashWriteComplete (ok : Bool) (t : Nat) (s : State) : Res :=
  let s := s.stamp t
  match s.flashQ with
  | [] => .next s
  | j :: l =>
    let s := { s with flashQ := l }
    .next ((if ok then s.flashDone j t else s.flashFailed j).startFlash).irqDeliver

/-- COUNTER_WRITE_TIMEOUT: a counter write has failed; a switch whose formes are held and that waited for
its counter is refused (R222, R470). -/
def execCounterWriteTimeout (t : Nat) (s : State) : Res :=
  let s := s.stamp t
  match s.flashQ with
  | .counter n v :: l =>
    .next ((({ s with flashQ := l } : State).flashFailed (.counter n v)).startFlash).irqDeliver
  | _ =>
    match s.loaded with
    | some i =>
      if s.slot = iCommitting && s.rd .hImpSwitchStep 0 0 = 1 && s.unheld.isEmpty && s.quiesced &&
          i.rollbackVersion != s.rd .secCounterValue 0 0 then
        .next ((s.refuse (errModule eRollback)).releaseSwitch).irqDeliver
      else .next s
    | none => .next s

/-! ### SEC_CTRL (R456, R461, R470, R472) -/

/-- READY: stage 5 ends and SB_READY rises (R461). -/
def execSecReady (t : Nat) (s : State) : Res :=
  let s := s.stamp t
  if s.sec = zBooting && s.rd .hStage 0 0 = 5 then
    .next ((s.wr .hPinReady 0 0 1).wr .hStage 0 0 0 |>.setSec zReady)
  else .next s

/-- FW_COMMIT: the firmware counter is raised to the running image's version (R470). -/
def execFwCommit (t : Nat) (s : State) : Res :=
  let s := s.stamp t
  let v := imageVersion s.image
  if s.rd .secCounterValue 0 1 < v then .next (s.queueFlash (.counter 1 v)) else .next s

/-- ALERT: the supervisor's alert (R456). -/
def execSecAlert (s : State) : Res := .next (s.alert 6).irqDeliver

/-- Bytes 0 to 415 of an attestation report (R472). -/
def State.attestBody (s : State) (nonce : List Byte) : List Byte :=
  let flags := s.rd .prfResultMapRebuilt 0 0 + 2 * s.rd .hTapUsed 0 0 + 4 * b2n s.ownerValid
  let steppings := (List.range 12).map (fun p => s.rd .prsCapabilityStepping p 0) ++
    (List.range 4).map (fun c => s.rd .chsCapabilityStepping c 0) ++
    (List.range 8).map fun k => s.rd .oeCapabilityStepping k 0
  natLe 4 0x54414B48 ++ natLe 2 1 ++ natLe 2 2048 ++ fixLen 32 nonce ++ natLe 2 s.identity ++
    natLe 1 (s.role * 16 + s.rd .pairStatusMember 0 0) ++ natLe 1 (s.rd .hStrap 0 0) ++
    natLe 4 (s.rd .modCapabilityLevel 0 0) ++ natLe 8 (s.rd .secCounterValue 0 3) ++ natLe 8 s.now ++
    fixLen 64 Config.romDigest ++ s.lemikDigest ++ fixLen 64 ((s.active.map Imposition.digest).getD []) ++
    natLe 8 (s.rd .secCounterValue 0 0) ++ natLe 8 (s.rd .secCounterValue 0 1) ++
    natLe 8 (s.rd .secCounterValue 0 2) ++ natLe 8 (s.rd .hFlashGen 0 0) ++ natLe 8 flags ++ natLe 24 0 ++
    steppings.flatMap (natLe 1) ++ natLe 8 0 ++
    fixLen 64 (Config.shake256 (Config.attestKey s.lemikDigest) 64)

/-- The 2,048-byte attestation report (R472). -/
def State.attestation (s : State) (nonce : List Byte) : List Byte :=
  let b := s.attestBody nonce
  fixLen 2048 (b ++ fixLen 1280 (Config.attestSign s.lemikDigest b))

/-- ATTEST: the report at the buffer plus 256, for the nonce in its first bytes (R472). -/
def execSecAttest (t : Nat) (s : State) : Res :=
  let s := s.stamp t
  let a := s.rd .secReqAddrAddr 0 0 / 4096 * 4096
  .next (s.writeMem 0 (a + 256) (s.attestation (s.readMem 0 a 32)))

end Sys2Proof.Machine
end

