-- ==== Sys2Proof/Machine/Security.lean ====
section
/-!
DEFINITION. Key requests (R467) and signed survivor commands (R468).
-/

namespace Sys2Proof.Machine

/-! ### Key requests (R467) -/

/-- A key request as it stands in the buffer (R467). -/
structure KeyReq where
  op : Nat
  slot : Nat
  authority : Nat
  challenge : Nat
  epoch : Nat
  record : List Byte
  signed : List Byte
  sig : List Byte
deriving DecidableEq, Repr

/-- The request at SEC_REQ_ADDR in chase 0's memory (R467). -/
def State.keyReq (s : State) : KeyReq :=
  let b := s.readMem 0 (s.rd .secReqAddrAddr 0 0 / 4096 * 4096) 4448
  { op := leAt b 0 1, slot := leAt b 1 1, authority := leAt b 4 4, challenge := leAt b 8 8,
    epoch := leAt b 16 8, record := (b.drop 32).take 3136, signed := b.take 3168,
    sig := (b.drop 3168).take 1280 }

/-- Public key of a request's authority: slot 0 a VENDOR_ROOT, slot 4 an OWNER_ROOT (R463, R467). -/
def State.authorityKey (s : State) (slot : Nat) : Option (List Byte) :=
  if slot = 0 then s.keyOf 0 0 else if slot = 4 then s.keyOf 4 3 else none

/-- Results of SEC_REQ_STATUS. -/
def rBadSignature : Nat := 2
def rBadChallenge : Nat := 3
def rBadAuthority : Nat := 4
def rSlotState : Nat := 5
def rCounter : Nat := 6
def rBusy : Nat := 8

/-- A request is refused with a result. -/
def State.reqFail (s : State) (result : Nat) : State := s.wr .secReqStatusResult 0 0 result

/-- A request is accepted: its flash write waits, and SEC_REQ_STATUS shows it busy (R467, R471). -/
def State.reqTake (s : State) (j : FlashJob) : State :=
  ((s.wr .secReqStatusBusy 0 0 1).wr .secReqStatusResult 0 0 0).queueFlash j

/-- The request's checks that every op has, and then its own. The challenge is replaced whether they pass or
not (R467, R468). Where several fail, the first of challenge, authority, slot, signature is reported (log
entry 29). -/
def State.keyRequest (s : State) (op : Nat) (run : KeyReq → State → State) : State :=
  let r := s.keyReq
  if r.op != op then s
  else if s.on .secReqStatusBusy 0 0 then s.reqFail rBusy
  else if r.challenge != s.rd .hChallenge 0 0 then s.newChallenge.reqFail rBadChallenge
  else run r s.newChallenge

/-- An authority's slot is right and its signature over the request verifies; then the effect. -/
def State.underAuthority (s : State) (r : KeyReq) (slot : Nat) (slotOk : Bool) (run : State → State) : State :=
  if r.authority != slot then s.reqFail rBadAuthority
  else
    match s.authorityKey slot with
    | none => s.reqFail rBadAuthority
    | some k =>
      if !slotOk then s.reqFail rSlotState
      else if Config.falconVerify k r.signed r.sig then run s
      else s.reqFail rBadSignature

/-- CLAIM: an empty slot 4 takes a self-signed OWNER_ROOT (R467). -/
def execKeyClaim (t : Nat) (s : State) : Res :=
  .next ((s.stamp t).keyRequest 1 fun r s =>
    if r.slot != 4 || (s.keyRec 4).isSome || !recFits 4 r.record || leAt r.record 8 4 != 4 then
      s.reqFail rSlotState
    else if recSigned r.record (recKey r.record) && Config.falconVerify (recKey r.record) r.signed r.sig then
      s.reqTake (.keys [(4, r.record)])
    else s.reqFail rBadSignature)

/-- TRANSFER: the owner replaces OWNER_ROOT, and slots 5 to 15 are emptied (R467). -/
def execKeyTransfer (t : Nat) (s : State) : Res :=
  .next ((s.stamp t).keyRequest 2 fun r s =>
    s.underAuthority r 4 (decide (r.slot = 4) && recFits 4 r.record) fun s =>
      s.reqTake (.keys ((4, r.record) :: (List.range 11).map fun i => (5 + i, []))))

/-- The slot whose key may write a slot: 0 for 1 to 3, 4 for 5 to 15 (R467). -/
def writerOf (slot : Nat) : Nat := if 1 ≤ slot && slot ≤ 3 then 0 else if 5 ≤ slot && slot ≤ 15 then 4 else 16

/-- ADD: the authority's record is written to its slot (R467). -/
def execKeyAdd (t : Nat) (s : State) : Res :=
  .next ((s.stamp t).keyRequest 3 fun r s =>
    s.underAuthority r (writerOf r.slot) (recFits r.slot r.record) fun s =>
      s.reqTake (.keys [(r.slot, r.record)]))

/-- REMOVE: the slot is emptied (R467). -/
def execKeyRemove (t : Nat) (s : State) : Res :=
  .next ((s.stamp t).keyRequest 4 fun r s =>
    s.underAuthority r (writerOf r.slot) true fun s => s.reqTake (.keys [(r.slot, [])]))

/-- EPOCH: the key-epoch counter is raised (R467, R470). -/
def execKeyEpoch (t : Nat) (s : State) : Res :=
  .next ((s.stamp t).keyRequest 5 fun r s =>
    s.underAuthority r 4 true fun s =>
      if r.epoch ≤ s.rd .secCounterValue 0 2 then s.reqFail rCounter
      else s.reqTake (.counter 2 r.epoch))

/-! ### Signed survivor commands (R468) -/

/-- The key that may sign: a valid OWNER_ROOT or OWNER_OPS (R463, R468). -/
def State.opsKey (s : State) (slot : Nat) : Option (List Byte) :=
  match s.keyOf slot 3 with
  | some k => some k
  | none => s.keyOf slot 5

/-- The 16 bytes that a command's signature covers (R468). -/
def signedHead (op : Nat) (c : SignedCmd) : List Byte :=
  natLe 1 op ++ natLe 1 c.slot ++ natLe 6 0 ++ natLe 8 c.challenge

/-- The signature of a command verifies under its slot's key (R468). -/
def State.signedOk (s : State) (op : Nat) (c : SignedCmd) : Bool :=
  match s.opsKey c.slot with
  | some k => Config.falconVerify k (signedHead op c) (fixLen 1280 c.sig)
  | none => false

/-- The response to COMMAND, which has no body: 0 OK, 3 AUTH, 4 STALE (R490, R491). -/
def State.answerCommand (s : State) (tag status : Nat) : State :=
  (if status = 0 then s.bump .mgtCountsReceived 0 0 1 else s).send (.mgt 0x03 tag status [] [])

/-- A signed command is checked, the challenge replaced, and the command acted on or dropped (R468, R491,
MGT_COUNTS). -/
def State.signed (s : State) (op : Nat) (c : SignedCmd) (run : State → State) : State :=
  let fresh := decide (c.challenge = s.rd .hChallenge 0 0)
  let ok := fresh && s.signedOk op c
  let s := s.newChallenge
  if ok then run (s.answerCommand c.tag 0)
  else
    let s := (s.wr .secStatusCmdRefused 0 0 1).bump .mgtCountsAuthRefused 0 0 1
    s.answerCommand c.tag (if fresh then 3 else 4)

/-- RESET (R452, R468). -/
def execSvReset (c : SignedCmd) (t : Nat) (s : State) : Res :=
  .next ((s.stamp t).signed 1 c fun s => (s.senseIsland.hardReset 2 t).irqDeliver)

/-- POWER_OFF (R452, R468). -/
def execSvPowerOff (c : SignedCmd) (t : Nat) (s : State) : Res :=
  .next ((s.stamp t).signed 2 c fun s => if s.sec = zStage1 then s else (s.powerOff 3 t).irqDeliver)

/-- POWER_ON: a module in OFF waits for t0 (R452, R458, R468). -/
def execSvPowerOn (c : SignedCmd) (t : Nat) (s : State) : Res :=
  .next ((s.stamp t).signed 3 c fun s =>
    if s.sec = zOff && !s.on .hPinReset 0 0 then s.setSec zAuxOnly else s)

/-- LASER_OFF: trigger 5 (R462, R468). -/
def execSvLaserOff (c : SignedCmd) (t : Nat) (s : State) : Res :=
  .next ((s.stamp t).signed 4 c fun s => (s.shutdown 5 t).irqDeliver)

end Sys2Proof.Machine
end

