-- ==== Sys2Proof/Machine/Regs.lean ====
section
/-!
DEFINITION. The control space: which register an address names, single, group and broadcast access, halves
and snapshots, unpowered units, unmapped accesses, and what a store does (R10 to R13, R475, R476, R485 to
R488, R495 to R507).
-/

namespace Sys2Proof.Machine

/-- Size of the control space (R495). -/
def ctlSize : Nat := 2 ^ 28

/-- What an access reaches: element `elem` of a register of instance `inst`, from its byte `byte`. -/
structure Hit where
  reg : RegName
  inst : Nat
  elem : Nat
  byte : Nat
deriving DecidableEq, Repr

/-- Element and byte of a register at an offset of its block (R498, R507). -/
def RegInfo.at? (x : RegInfo) (off : Nat) : Option (Nat × Nat) :=
  if off < x.off then none
  else
    let d := off - x.off
    if x.stride = 0 then (if d < x.width / 8 then some (0, d) else none)
    else if d / x.stride < x.count && d % x.stride < x.width / 8 then some (d / x.stride, d % x.stride)
    else none

/-- The register of a block at an offset (R498, R507). -/
def findReg (b : Block) (inst off : Nat) : Option Hit :=
  RegName.all.findSome? fun r =>
    if r.info.block = b then (r.info.at? off).map fun e => ⟨r, inst, e.1, e.2⟩ else none

/-- GST registers, which chases 0 and 2 alone have (R496). -/
def RegName.isGst (r : RegName) : Bool :=
  r = .gstStatus || r = .gstCapability || r = .gstNotify || r = .gstPost || r = .gstCounts

/-- Instances of an aperture class (R485). -/
def classCount (c : Nat) : Nat := if c = 0 then 4 else if c = 1 then 12 else if c = 2 then 8 else 16

/-- Span of one instance of a class (R496). -/
def classSpan (c : Nat) : Nat := if c ≤ 1 then 0x100000 else if c = 2 then 0x40000 else 0x10000

/-- Base of a class's single addresses (R496). -/
def classBase (c : Nat) : Nat :=
  if c = 0 then 0x1000000 else if c = 1 then 0x2000000 else if c = 2 then 0x3000000 else 0x4000000

/-- The register at an offset of instance i of a class: 0 CHS, 1 PRS, 2 OE with its ports, 3 MEM (R485,
R496). -/
def spanHit (c i off : Nat) : Option Hit :=
  if c = 0 then
    match findReg .chs i off with
    | some h => if h.reg.isGst && i % 2 = 1 then none else some h
    | none => none
  else if c = 1 then findReg .prs i off
  else if c = 2 then
    if 0x8000 ≤ off && off < 0x10000 then findReg .lnk (4 * i + (off - 0x8000) / 0x2000) (off % 0x2000)
    else findReg .oe i off
  else findReg .mem i off

/-- The register that a single address names (R496, R498). -/
def singleHit (a : Nat) : Option Hit :=
  if a < 0x1000000 then findReg .mod 0 a
  else if 0x3800000 ≤ a && a < 0x3810000 then findReg .lsu 0 (a - 0x3800000)
  else
    match (List.range 4).find? fun c => classBase c ≤ a && a < classBase c + classCount c * classSpan c with
    | some c => spanHit c ((a - classBase c) / classSpan c) ((a - classBase c) % classSpan c)
    | none => none

/-- The address is in the group or the broadcast aperture (R485). -/
def isAperture (a : Nat) : Bool := 0xE000000 ≤ a

/-! ### Powered units -/

/-- The unit that holds a register is powered: chase, press, engine, stack (R487, R503). -/
def State.powered (s : State) (h : Hit) : Bool :=
  match h.reg.info.block with
  | .mod => true
  | .lsu => true
  | .chs => s.rd .pwrRailState 0 (12 + h.inst) = 1 || s.rd .pwrRailState 0 (12 + h.inst) = 2
  | .prs => s.pState h.inst != pOff && s.rd .pwrRailState 0 h.inst != 3
  | .oe => s.rd .oeStatusState h.inst 0 != 0
  | .lnk => s.rd .oeStatusState (h.inst / 4) 0 != 0
  | .mem => s.rd .memStatusState h.inst 0 != 0

/-- Registers of an unpowered press or engine that its chase holds (R503). -/
def RegName.heldByChase (r : RegName) : Bool :=
  r = .prsStatus || r = .prsStripMap || r = .prsCapability || r = .oeCapability

/-- A single access reads the register itself: a press, engine or stack must be powered (R503). -/
def State.readable (s : State) (h : Hit) : Bool :=
  h.reg.heldByChase || h.reg.info.block = .chs || s.powered h

/-- Instances that an aperture address names by requester `who`'s mask (R485, R486), the powered ones of
which are the members (R487), lowest first. -/
def State.members (s : State) (who a : Nat) : List Hit :=
  let c := a % 0x1000000 / 0x100000
  let off := a % 0x100000
  if c < 4 && off < classSpan c then
    ((List.range (classCount c)).filter fun i =>
      decide (0xF000000 ≤ a) || bit (s.rd .modGroupMaskMask 0 who) i).filterMap fun i =>
        match spanHit c i off with
        | some h => if s.powered h then some h else none
        | none => none
  else []

/-- What an address of the control space reaches; none where it is unmapped (R487, R498). -/
def State.reach (s : State) (who a : Nat) : List Hit :=
  if isAperture a then s.members who a else (singleHit a).toList

/-! ### Values -/

/-- Levels of the interrupt sources (R482, CORE_IRQ_PENDING). -/
def State.irqLevels (s : State) : Nat := ((List.range 14).map fun k => b2n (s.irqLevel k) * 2 ^ k).sum

/-- PWR_STATUS state (R395): OFF and AUX without main power, STANDBY by role, RUN with a forme RUNNING, HOLD with an
imposition active and every forme HELD, PARKED or LOADED; the rows of R395 say no state for the rest, a free one of
the five (log entry 1). -/
def State.pwrState (s : State) : Nat :=
  if !s.on .hPwrUp 0 0 then b2n s.islandOn
  else if s.role = rStandby then 2
  else if s.formeNums.any fun f => s.fState f = fRunning then 4
  else if s.active.isSome && s.formeNums.all fun f =>
      s.fState f = fHeld || s.fState f = fParked || s.fState f = fLoaded then 3
  else Config.freeTable s.freeCount 0 % 5

/-- Requests in Lemik's queue: those held on a running step, and those under way on the ring (R24, R153, R493). -/
def State.mgtHeld (s : State) : Nat :=
  (s.heldAccs.filter fun h => match h.acc.who with | .mgt _ _ _ _ => true | _ => false).length + s.mgtJobs.length

/-- A field as a read shows it to requester `who` (R10, R486). -/
def State.shown (s : State) (who : Nat) (f : Field) (i j : Nat) : Nat :=
  if f.spec.acc = .wo then 0
  else
    match f with
    | .modGroupMaskMask => s.rd .modGroupMaskMask 0 who
    | .coreIrqPendingLevel => s.irqLevels
    | .oeRingState => s.ringState i j
    | .oeFibreStatusLevel => s.fibreLevel i j
    | .lsuLaserBanks => s.bankMask j
    | .fabEditionWaitTicks => s.rd f i j + s.editionWait
    | .pwrStatusState => s.pwrState
    | .mgtStatusQueued => min 64 s.mgtHeld
    | .secReqAddrAddr => s.rd .secReqAddrAddr 0 0 / 4096 * 4096
    | .modImpSrcAddr => s.rd .modImpSrcAddr 0 0 / 256 * 256
    | f => s.rd f i j

/-- Unit index of a register's fields in the state: 0 in the MOD and LSU blocks. -/
def Hit.unit (h : Hit) : Nat :=
  match h.reg.info.block with
  | .mod => 0
  | .lsu => 0
  | _ => h.inst

/-- Present value of a whole register. -/
def State.regVal (s : State) (who : Nat) (h : Hit) : Nat :=
  if h.reg = .prsIstore then (s.press h.inst).istore.getD h.elem 0
  else (h.reg.info.slots.map fun x => s.shown who x.field h.unit (x.mul * h.elem + x.sub) * 2 ^ x.lo).sum

/-- Reset value of a whole register (R507). -/
def Hit.resetVal (h : Hit) : Nat := (h.reg.info.slots.map fun x => x.field.spec.reset * 2 ^ x.lo).sum

/-- What a read of a whole register returns: the reset value where the unit is not powered (R503). -/
def State.readReg (s : State) (who : Nat) (h : Hit) : Nat :=
  if s.readable h then s.regVal who h else h.resetVal

/-! ### Loads -/

/-- The form of an access is one that control space accepts (R476). -/
def formOk (a size : Nat) : Bool := (size = 4 || size = 8) && a % size = 0

/-- An unmapped access is counted, and recorded while the flag is clear (R12, R506). -/
def State.unmapped (s : State) (who a : Nat) (store : Bool) : State :=
  let s := s.bump .modUnmappedCount 0 0 1
  if s.on .modUnmappedUnmapped 0 0 then s
  else s.wrAll [(.modUnmappedSource, 0, 0, who), (.modUnmappedWrite, 0, 0, b2n store),
    (.modUnmappedOffset, 0, 0, a), (.modUnmappedUnmapped, 0, 0, 1)]

/-- The mismatch flag of a requester is set (R487). -/
def State.setMismatch (s : State) (who : Nat) : State :=
  if who < 16 then s.wr .coreStatusMismatch 0 who 1 else s.wr .mgtStatusMismatch 0 0 1

/-- The half of a register's value that an access of a size names. -/
def halfOf (byte size v : Nat) : Nat := v / 2 ^ (8 * byte) % 2 ^ (8 * size)

/-- Value of a load, and whether a member differs from it (R487, R499, R502). The half after a snapshot is the
snapshot, the lowest member's value; of a 128-bit register it is not compared again (R502). -/
def State.loadVal (s : State) (who a size : Nat) (h : Hit) (vals : List Nat) : Nat × Bool :=
  let w := h.reg.info.width
  let part := vals.map (halfOf h.byte size)
  let lead := part.headD 0
  match s.snaps.get? who with
  | some (b, v) =>
    if h.byte != 0 && b = a then (v, w != 128 && (part.drop 1).any fun x => x != v)
    else (lead, (if w = 128 && h.byte = 0 then vals else part).eraseDups.length != 1)
  | none => (lead, (if w = 128 && h.byte = 0 then vals else part).eraseDups.length != 1)

/-- The snapshot that a load leaves: the upper half, after a load of the lower half alone; else none (R476,
R499). -/
def State.snapAfter (s : State) (who a size : Nat) (h : Hit) (vals : List Nat) : State :=
  if h.byte = 0 && 8 * size < h.reg.info.width then
    { s with snaps := s.snaps.put who (a + size, halfOf size size (vals.headD 0)) }
  else { s with snaps := s.snaps.del who }

/-- A load by requester `who`: value, mismatch, state; none where it breaks R476. -/
def State.ctlLoad (s : State) (who a size : Nat) : Option (Nat × Bool × State) :=
  if !formOk a size then none
  else
    match s.reach who a with
    | [] => some (0, false, ({ s with snaps := s.snaps.del who } : State).unmapped who a false)
    | h :: l =>
      if h.reg.info.width = 128 && size = 4 then none
      else
        let vals := if isAperture a then (h :: l).map (s.regVal who) else [s.readReg who h]
        let r := s.loadVal who a size h vals
        let t := s.snapAfter who a size h vals
        some (r.1, r.2, if r.2 then t.setMismatch who else t)

/-! ### Stores -/

/-- Fields that their commands write with rules of their own (R255, R349, R409), and the target of source
11, which is read-only (R483). -/
def ownRule (f : Field) (j : Nat) : Bool :=
  match f with
  | .pwrCtrlFixed | .pwrCtrlFixedPoint | .pwrCtrlBoost | .pwrCtrlCap => true
  | .oeCalCtrlMode | .oeCalCtrlDelta => true
  | .fabIdentityIdentity => true
  | .coreIrqRouteTarget => j = 11
  | _ => false

/-- Bits [lo, lo + w) of a number replaced. -/
def replaceBits (old lo w v : Nat) : Nat :=
  old % 2 ^ lo + v % 2 ^ w * 2 ^ lo + old / 2 ^ (lo + w) * 2 ^ (lo + w)

/-- What a register keeps of a value written: the low bits of an address that is aligned are discarded (R218,
R467). -/
def kept (f : Field) (v : Nat) : Nat :=
  match f with
  | .modImpSrcAddr => v / 256 * 256
  | .secReqAddrAddr => v / 4096 * 4096
  | _ => v

/-- A store of bits [lo, lo + w) reaches one field: RW is set, RW1C cleared where 1 is written (R10,
R499); a bit that an event set in this galley cycle stays set (R13; log entry 83). -/
def State.storeField (s : State) (who : Nat) (h : Hit) (x : Slot) (lo w v : Nat) : State :=
  let i := h.unit
  let j := if x.field = .modGroupMaskMask then who else x.mul * h.elem + x.sub
  let fw := x.field.spec.width
  match x.field.spec.acc with
  | .rw =>
    if ownRule x.field j then s
    else s.wr x.field i j (kept x.field (replaceBits (s.rd x.field i j * 2 ^ x.lo) lo w v / 2 ^ x.lo % 2 ^ fw))
  | .w1c =>
    let ones := v % 2 ^ w * 2 ^ lo / 2 ^ x.lo % 2 ^ fw
    let old := (s.prev.get? ⟨x.field, i, j⟩).getD x.field.spec.reset
    s.put x.field i j (s.rd x.field i j - Nat.land (s.rd x.field i j) (Nat.land old ones))
  | _ => s

/-- State after a meaning whose outcome is a next state. -/
def State.after (s : State) (f : State → Res) : State :=
  match f s with
  | .next t => t
  | _ => s

/-- Requests by SEC_CTRL KEY_REQUEST: the operation is byte 0 of the buffer (R467). -/
def State.keyCommand (s : State) (t : Nat) : State :=
  match s.keyReq.op with
  | 1 => s.after (execKeyClaim t)
  | 2 => s.after (execKeyTransfer t)
  | 3 => s.after (execKeyAdd t)
  | 4 => s.after (execKeyRemove t)
  | 5 => s.after (execKeyEpoch t)
  | _ => s

/-- START of a core: HALTED to RUN at the boot memory, its copy of the mask cleared (R480, R501, R505). -/
def State.startCore (s : State) (n : Nat) : State :=
  if s.rd .coreStatusState 0 n = cHalted then
    (s.wr .coreStatusState 0 n cRun).wr .modGroupMaskMask 0 n 0
  else s

/-- RETIRE of a core: its L2 and what it marks are gone (R478, R480). -/
def State.retireCore (s : State) (n : Nat) : State :=
  if s.rd .coreStatusState 0 n = cHalted || s.rd .coreStatusState 0 n = cRun then
    ({ s with badWords := s.badWords.filter fun e => e.1 != n } : State).wr .coreStatusState 0 n cRetired
  else s

/-- The machine timer of a core is pending while time is at or above the compare (R481). -/
def State.timerLevel (s : State) (n : Nat) : State :=
  s.wr .hCoreMtip 0 n (b2n (decide (s.rd .coreTimecmpCompare 0 n ≤ s.now)))

/-- The lowest mirrored forme, which PAIR_CTRL SWAP names (R393). -/
def State.swapForme (s : State) : Nat := (s.mirroredFormes.map Forme.number).foldl min 15

/-- What a store to a register does beside setting and clearing its fields: the action of a WO field, whose
bits lie in the half stored (R10, R499), and the fields with rules of their own. `c` is the value of bits
[31:0] of a 32-bit register. -/
def State.storeAct (s : State) (h : Hit) (c t : Nat) : State :=
  let cmd (k : Nat) : Nat := c % k
  match h.reg with
  | .modImpCtrl =>
    (match cmd 4 with
    | 1 => s.after (execImpLoad t)
    | 2 => s.after (execImpCommit t)
    | 3 => s.after (execImpDiscard t)
    | _ => s)
  | .modFormeCtrl =>
    (match cmd 8 with
    | 1 => s.after (execFormeStart h.elem t)
    | 2 => s.after (execFormeHold h.elem t)
    | 3 => s.after (execFormeResume h.elem t)
    | 4 => s.after (execFormePark h.elem t)
    | _ => s)
  | .fabIdentity => s.after (execIdentityWrite (c % 2 ^ 16))
  | .pairCtrl =>
    (match cmd 8 with
    | 1 => s.after (execPairActive t)
    | 2 => s.after (execPairStandby t)
    | 3 => s.after (execPairSwap s.swapForme t)
    | 4 => s.after (execPairYield t)
    | _ => s)
  | .pwrCtrl => s.after (execPwrCtrlWrite c)
  | .prfCtrl =>
    (match cmd 16 with
    | 1 => s.after (execLoopback (bitsAt c 8 5) t)
    | 2 => s.after execClearMap
    | _ => s)
  | .secCtrl =>
    (match cmd 8 with
    | 1 => s.after (execSecReady t)
    | 2 => s.after (execFwCommit t)
    | 3 => s.keyCommand t
    | 4 => s.after (execSecAttest t)
    | 5 => s.after execSecAlert
    | _ => s)
  | .secStatus => s.alertPin
  | .coreCtrl =>
    (match cmd 4 with
    | 1 => s.startCore h.elem
    | 2 => s.retireCore h.elem
    | _ => s)
  | .coreTimecmp => s.timerLevel h.elem
  | .oeCalCtrl => s.after (execOeCalCtrlWrite h.inst c)
  | .lnkCtrl =>
    (match cmd 4 with
    | 1 => s.after (execRetrain h.inst t)
    | 2 => s.after (execClearMismatch h.inst t)
    | _ => s)
  | .lsuCtrl =>
    (match cmd 16 with
    | 1 => s.after (execDrainUnit (bitsAt c 4 1) t)
    | 2 => s.after (execLsuRestore (bitsAt c 4 1) t)
    | 3 => s.after (execRelight t)
    | _ => s)
  | .gstPost => s.after (execGuestPost h.inst c)
  | _ => s

/-- A store to one register of one instance; none to an unpowered unit (R10, R499, R503). The half of
GST_POST that a 32-bit store does not name counts as zeros (log entry 31). -/
def State.storeHit (s : State) (who : Nat) (h : Hit) (size v t : Nat) : State :=
  if s.readable h && s.powered h then
    let lo := 8 * h.byte
    let w := min (8 * size) (h.reg.info.width - lo)
    let s := h.reg.info.slots.foldl (fun s x => s.storeField who h x lo w v) s
    s.storeAct h (v % 2 ^ w * 2 ^ lo) t
  else s

/-- A store by requester `who`, on each member in ascending order; none where it breaks R476 (R476, R487). -/
def State.ctlStore (s : State) (who a size v t : Nat) : Option State :=
  if !formOk a size then none
  else
    match s.reach who a with
    | [] => some (s.unmapped who a true)
    | h :: l =>
      if h.reg.info.width = 128 && size = 4 then none
      else some ((s.each (h :: l) fun s h => s.storeHit who h size v t).irqDeliver)

/-! ### The commands -/

/-- An access that breaks R476 is a fault of a core (R477); a fault of the management engine is its caller's
to answer (R493). -/
def State.formFault (s : State) (who a : Nat) : State := if who < 16 then s.coreFault who 4 a else s

/-- A load whose value goes to its requester. -/
def State.loadFor (s : State) (who a size : Nat) : State :=
  match s.ctlLoad who a size with
  | some (v, _, s) => s.send (.regValue who a v)
  | none => s.formFault who a

/-- A store by a requester. -/
def State.storeFor (s : State) (who a size v t : Nat) : State := (s.ctlStore who a size v t).getD (s.formFault who a)

/-- Requesters are cores 0 to 15 and the management engine, 16 (MOD_UNMAPPED). -/
def ctlOk (who a : Nat) : Bool := who ≤ 16 && a < ctlSize

/-- SNAPSHOT_READ: a load of half a register, which takes or returns a snapshot (R476, R499). -/
def execSnapshotRead (who addr size : Nat) (s : State) : Res :=
  if ctlOk who addr then .next (s.loadFor who addr size) else .fault .noSuchUnit

/-- GROUP_READ: each member is read, the lowest one's value returned, and a difference noted (R487, R502). -/
def execGroupRead (who addr size : Nat) (s : State) : Res :=
  if ctlOk who addr then .next (s.loadFor who addr size) else .fault .noSuchUnit

/-- GROUP_WRITE: each member is written in ascending order (R487). -/
def execGroupWrite (who addr size value t : Nat) (s : State) : Res :=
  if ctlOk who addr then .next ((s.stamp t).storeFor who addr size value t) else .fault .noSuchUnit

/-- REGISTER_WRITE: RW fields are set, RW1C cleared, WO fields act (R10). -/
def execRegisterWrite (who addr size value : Nat) (s : State) : Res :=
  if ctlOk who addr then .next (s.storeFor who addr size value s.now) else .fault .noSuchUnit

/-- UNMAPPED_ACCESS: zero is returned, and the access counted and recorded; an access to an address that is
mapped is none (R12, R498, R506). -/
def execUnmappedAccess (who addr : Nat) (store : Bool) (s : State) : Res :=
  if ctlOk who addr then
    if (s.reach who addr).isEmpty then
      if store then .next (s.unmapped who addr true)
      else .next (((({ s with snaps := s.snaps.del who } : State).unmapped who addr false)).send
        (.regValue who addr 0))
    else .next s
  else .fault .noSuchUnit

end Sys2Proof.Machine
end

