-- ==== Sys2Proof/Machine/Cores.lean ====
section
/-!
DEFINITION. Application cores: START, RETIRE, the machine timer, and the check of an access (R475 to R478,
R480, R481).
-/

namespace Sys2Proof.Machine

/-- CORE_START: a HALTED core runs from the boot memory (R480, R505). -/
def execCoreStart (n : Nat) (s : State) : Res :=
  if n < 16 then .next (s.startCore n).irqDeliver else .fault .noSuchUnit

/-- RETIRE: a core leaves service until reset (R480). -/
def execCoreRetire (n : Nat) (s : State) : Res :=
  if n < 16 then .next (s.retireCore n).irqDeliver else .fault .noSuchUnit

/-- TIMER_INTERRUPT: the machine timer's pending bit follows time and compare (R481). -/
def execTimerInterrupt (n : Nat) (s : State) : Res :=
  if n < 16 then .next (s.timerLevel n) else .fault .noSuchUnit

/-- What a physical address names (R475). -/
inductive Region where
  | control
  | bootRom
  | slice (c a : Nat)
  | stacks (c a : Nat)
  | nothing
deriving DecidableEq, Repr

/-- The physical map (R475). A slice's window beyond its lines names nothing (R477). -/
def regionAt (a : Nat) : Region :=
  if a < ctlSize then .control
  else if 0x10000000 ≤ a && a < 0x10010000 then .bootRom
  else if 0x100000000 ≤ a && a < 0x180000000 then
    let o := a - 0x100000000
    if o % 0x20000000 < galLines * 256 then .slice (o / 0x20000000) (o % 0x20000000) else .nothing
  else if 0x10000000000 ≤ a && a < 0x20000000000 then
    .stacks ((a - 0x10000000000) / 0x4000000000) ((a - 0x10000000000) % 0x4000000000)
  else .nothing

/-- An access writes. -/
def isWrite (k : AccKind) : Bool := k = .store || k = .amo

/-- Check of an access to control space: first its form (R476), then its privilege (R475). -/
def State.ctlCheck (s : State) (n : Nat) (a : CoreAcc) : Option Nat :=
  if !(a.kind = .load || a.kind = .store) || !formOk a.addr a.size then some 4
  else if a.size = 4 && (s.reach n a.addr).any fun h => h.reg.info.width = 128 then some 4
  else if a.priv = .machine || (a.priv = .supervisor && a.kind = .load && s.on .coreCtrlSRead 0 n) then none
  else some 5

/-- Check of an access to the boot memory: machine mode executes and reads it (R475). A machine-mode store
breaks the memory's own attribute (log entry 32). -/
def bootCheck (a : CoreAcc) : Option Nat :=
  if a.priv != .machine then some 5 else if isWrite a.kind then some 2 else none

/-- A load, or a store of part of it, meets a word that the core's L2 marks bad (R478). -/
def State.meetsMark (s : State) (n : Nat) (a : CoreAcc) : Bool :=
  s.badWords.any fun e => e.1 = n && e.2 < a.addr + a.size && a.addr < e.2 + 8 &&
    !(decide (a.kind = .store) && a.addr ≤ e.2 && e.2 + 8 ≤ a.addr + a.size)

/-- Check of an access to a slice or a memory, over the ring where that is another chase's (R24, R152, R164, R336,
R477, R478). -/
def State.memCheck (s : State) (n : Nat) (a : CoreAcc) (c : Nat) (galley : Bool) (x : Nat) : Option Nat :=
  let acc : Access := { chase := c, galley := galley, addr := x, len := a.size,
                        data := if isWrite a.kind then some [] else none, met := ⟨[], false⟩,
                        who := .unit (19 + n % 4) }
  match s.judge acc with
  | .fault k => some k
  | _ => if a.linkError || s.ringCut (n / 4) c then some 6 else if a.badWord || s.meetsMark n a then some 3 else none

/-- Cause of the access fault that an access of core n raises, none where it is performed (R475 to R478). -/
def State.accCause (s : State) (n : Nat) (a : CoreAcc) : Option Nat :=
  match regionAt a.addr with
  | .control => s.ctlCheck n a
  | .bootRom => bootCheck a
  | .slice c x => s.memCheck n a c true x
  | .stacks c x => s.memCheck n a c false x
  | .nothing => some 1

/-- A store of whole marked words clears their marks (R478). -/
def State.clearMarks (s : State) (n : Nat) (a : CoreAcc) : State :=
  if a.kind = .store then
    { s with badWords := s.badWords.filter fun e =>
        !(decide (e.1 = n) && a.addr ≤ e.2 && e.2 + 8 ≤ a.addr + a.size) }
  else s

/-- CORE_ACCESS_FAULT: an access is checked before it is performed; a faulting one is recorded and has no
effect (R477); one that passes is no fault, and clears the marks that it overwrites (R478). -/
def execCoreAccessFault (n : Nat) (a : CoreAcc) (s : State) : Res :=
  if n < 16 && a.addr < 2 ^ 41 then
    match s.accCause n a with
    | some k => .next (s.coreFault n k a.addr)
    | none => .next (s.clearMarks n a)
  else .fault .noSuchUnit

end Sys2Proof.Machine
end

