-- ==== Sys2Proof/Machine/Management.lean ====
section
/-!
DEFINITION. The management port: link, neighbours, the island's messages and Lemik's (R451, R473, R489 to
R494).
-/

namespace Sys2Proof.Machine

/-! ### Link and addresses (R489) -/

/-- MGT_BLOCK_LOCK: the link is up (R489, MGT_STATUS). -/
def execMgtBlockLock (s : State) : Res := .next (if s.islandOn then s.wr .mgtStatusLinkUp 0 0 1 else s)

/-- MGT_BLOCK_LOCK_LOST: the link is down (R489, MGT_STATUS). -/
def execMgtBlockLockLost (s : State) : Res := .next (s.wr .mgtStatusLinkUp 0 0 0)

/-- Modified EUI-64 of a MAC address, d0 in bits [47:40] (R489; RFC 4291). -/
def eui64 (mac : Nat) : Nat :=
  let d0 := mac / 2 ^ 40
  (Nat.xor d0 2 * 2 ^ 16 + mac / 2 ^ 24 % 2 ^ 16) * 2 ^ 40 + 0xFFFE * 2 ^ 24 + mac % 2 ^ 24

/-- The link-local address (R489). -/
def State.linkLocal (s : State) : Nat := 0xFE80 * 2 ^ 112 + eui64 (s.rd .mgtMacMac 0 0)

/-- NEIGHBOUR_DISCOVERY: a solicitation of the module's link-local address is answered once stage 1 has given
it a MAC address; not where the address was found in use (R489; RFC 4862, log entry 33). -/
def execNeighbourDiscovery (target : Nat) (s : State) : Res :=
  .next (if s.islandOn && s.sec != zStage1 && target = s.linkLocal && !s.on .mgtStatusAddrConflict 0 0 then
    s.send (.advertisement target) else s)

/-- ECHO: an ICMPv6 echo request is answered (R489). -/
def execEchoRequest (ident seq : Nat) (data : List Byte) (s : State) : Res :=
  .next (if s.islandOn then s.send (.echoReply ident seq data) else s)

/-- DUPLICATE_ADDRESS_DETECTION: a failure sets addr_conflict (R489). -/
def execDuplicateAddressDetection (failed : Bool) (s : State) : Res :=
  .next (if s.islandOn && failed then s.wr .mgtStatusAddrConflict 0 0 1 else s)

/-! ### Messages (R490 to R492) -/

/-- A message is dropped (R490). -/
def State.dropMsg (s : State) : State := s.bump .mgtCountsDropped 0 0 1

/-- A message accepted for service (MGT_COUNTS). -/
def State.received (s : State) : State := s.bump .mgtCountsReceived 0 0 1

/-- A message reaches the island where it has power; a bad magic, version or length drops it (R490, R491). -/
def State.withHead (s : State) (h : MsgHead) (bytes : Nat) (serve : State → State) : Res :=
  if !s.islandOn then .next s
  else if h.magic = 0x4B4C && h.version = 1 && h.bodyBytes = bytes then .next (serve s)
  else .next s.dropMsg

/-- A response without a tail (R490, R492). -/
def State.respond (s : State) (type tag status : Nat) (body : List Byte) : State :=
  s.send (.mgt type tag status body [])

/-- A response of Lemik with its tail, which is not kept (R492). -/
def State.respondSigned (s : State) (type tag counter status : Nat) (body : List Byte) : State :=
  s.send (.mgt type tag status body (s.mgtTail type tag counter status body))

/-- Lemik serves: SEC_STATUS reads READY, and a core runs it; on a standby, and in a takeover until its cores
boot, none does (R371, R459, R480, R491). -/
def State.lemikServes (s : State) : Bool :=
  s.sec = zReady && (List.range 16).any fun n => s.rd .coreStatusState 0 n = cRun

/-- What an authenticated request's signature covers: head, body and tail bytes 0 to 15 (R492). -/
def authBytes (type : Nat) (h : MsgHead) (a : AuthTail) (body : List Byte) : List Byte :=
  mgtHead type h.tag 0 h.bodyBytes 1 ++ body ++ natLe 4 a.slot ++ natLe 4 0 ++ natLe 8 a.counter

/-- The counters of the requests of a slot that are held or under way on the ring (R153, R492). -/
def State.heldCounters (s : State) (slot : Nat) : List Nat :=
  (s.heldAccs.filterMap fun h => match h.acc.who with
    | .mgt _ _ k c => if k = slot then some c else none
    | _ => none) ++ s.mgtJobs.filterMap fun j => if j.slot = slot then some j.counter else none

/-- Bits [31:0] of the last counter accepted from a slot (R492). -/
def State.lastCounter (s : State) (slot : Nat) : Option Nat :=
  match (s.mgtLast.get? slot).map Prod.fst, s.heldCounters slot with
  | none, [] => none
  | none, c :: l => some (l.foldl max c)
  | some c, l => some (l.foldl max c)

/-- Outcome of the checks of R492. -/
inductive AuthRes where
  | ok
  | again
  | refused (status : Nat)
deriving DecidableEq, Repr

/-- The checks of R492: key, signature, boot count, and the counter against the last one accepted. -/
def State.authCheck (s : State) (type : Nat) (h : MsgHead) (a : AuthTail) (body : List Byte) : AuthRes :=
  match s.opsKey a.slot with
  | none => .refused 3
  | some k =>
    if !Config.falconVerify k (authBytes type h a body) (fixLen 1280 a.sig) then .refused 3
    else if a.counter / 2 ^ 32 != s.rd .secCounterValue 0 3 % 2 ^ 32 then .refused 3
    else
      match s.lastCounter a.slot with
      | none => .ok
      | some c => if c < a.counter then .ok else if c = a.counter then .again else .refused 4

/-- The kept response is sent again (R492); of a request that is still held there is none yet. -/
def State.answerAgain (s : State) (slot counter : Nat) : State :=
  match s.mgtLast.get? slot with
  | some (c, r) => if c = counter then s.send r else s
  | none => s

/-- A request of Lemik's that passes its checks is served, or turned away with BUSY (R491 to R493). -/
def State.lemik (s : State) (type : Nat) (h : MsgHead) (a : AuthTail) (body : List Byte)
    (serve : State → State) : State :=
  if !s.lemikServes then s.respond type h.tag 7 []
  else
    match s.authCheck type h a body with
    | .refused k => (s.bump .mgtCountsAuthRefused 0 0 1).respondSigned type h.tag a.counter k []
    | .again => s.answerAgain a.slot a.counter
    | .ok =>
      if 64 ≤ s.mgtHeld then (s.bump .mgtCountsBusy 0 0 1).respondSigned type h.tag a.counter 6 []
      else serve s.received

/-! ### The island's types -/

/-- The island's view of chase 0: zero while it is unpowered (R473). -/
def State.pairSeen (s : State) (x : Nat) : Nat :=
  if s.on .hPwrUp 0 0 && (s.rd .pwrRailState 0 12 = 1 || s.rd .pwrRailState 0 12 = 2) then x else 0

/-- Value of a register of the MOD block by its name. -/
def State.modReg (s : State) (r : RegName) : Nat := s.regVal 16 ⟨r, 0, 0, 0⟩

/-- The status block (R473). -/
def State.statusBlock (s : State) : List Byte :=
  let tick := if s.on .hTimeBase 0 0 then s.now else 0
  let t := s.rd .hIslandTemp 0 0
  let temp := if t < 2048 then t else t + 0xF000
  natLe 4 0x54534B48 ++ natLe 2 1 ++ natLe 2 256 ++ natLe 2 s.identity ++ natLe 1 (s.rd .hStrap 0 0) ++
    natLe 1 s.sec ++ natLe 1 (s.pairSeen s.role) ++ natLe 1 (s.pairSeen (s.rd .pairStatusYieldCause 0 0)) ++
    natLe 1 (s.rd .secStatusFailCause 0 0) ++ natLe 1 0 ++ natLe 8 (s.modReg .prfResult) ++
    natLe 4 (s.modReg .thmStatus) ++ natLe 8 (s.modReg .secEvents) ++
    natLe 4 (s.rd .secStatusAlerts 0 0) ++ natLe 8 (s.rd .secCounterValue 0 3) ++
    natLe 8 (s.rd .hSurvTick 0 0) ++ natLe 8 tick ++ natLe 8 (s.rd .hChallenge 0 0) ++
    natLe 2 (Config.freeTable s.freeCount 1) ++ natLe 2 (s.rd .pwrStatusInputDv 0 0) ++
    natLe 2 (s.rd .pwrStatusInputW 0 0) ++ natLe 2 temp ++ natLe 8 (s.rd .secCounterValue 0 0) ++
    natLe 8 (s.rd .secCounterValue 0 1) ++ natLe 8 (s.rd .secCounterValue 0 2) ++
    natLe 4 (s.pairSeen (s.modReg .pairStatus)) ++ natLe 1 (s.pairSeen (s.rd .pairTakeoverResult 0 0)) ++
    natLe 3 0 ++
    natLe 8 (s.pairSeen (((List.range 16).map fun n => s.rd .pairFormeSync 0 n * 16 ^ n).sum)) ++
    ((List.range 16).flatMap fun n => natLe 8 (s.pairSeen (s.rd .pairFormeEdition 0 n))) ++ natLe 8 0

/-- STATUS: the status block (R473, R491). -/
def execMgtStatus (h : MsgHead) (s : State) : Res :=
  s.withHead h 0 fun s => s.received.respond 0x01 h.tag 0 s.statusBlock

/-- CHALLENGE (R468, R491). -/
def execMgtChallenge (h : MsgHead) (s : State) : Res :=
  s.withHead h 0 fun s => s.received.respond 0x02 h.tag 0 (natLe 8 (s.rd .hChallenge 0 0))

/-- The ATTEST certificate: role 6, certified by DEVICE (R463, R464). -/
def State.attestCert (s : State) : List Byte :=
  let part := natLe 4 0xFFFFFFFF ++ natLe 1 6 ++ natLe 3 0 ++ natLe 4 1 ++ natLe 4 0 ++
    fixLen 1793 (Config.attestKey s.lemikDigest) ++ natLe 15 0
  part ++ fixLen 1280 (Config.deviceSign part) ++ natLe 32 0

/-- CERT: a key record, or the ATTEST certificate, which needs stage 4 (R464, R491; for an empty slot and
operands of no meaning log entry 34). -/
def execMgtCert (h : MsgHead) (which slot : Nat) (s : State) : Res :=
  s.withHead h 2 fun s =>
    if which = 0 && slot < 16 then
      match s.keyRec slot with
      | some r => s.received.respond 0x04 h.tag 0 (fixLen 3136 r)
      | none => s.respond 0x04 h.tag 7 []
    else if which = 1 then
      if s.image.isEmpty then s.respond 0x04 h.tag 7 []
      else s.received.respond 0x04 h.tag 0 s.attestCert
    else s.respond 0x04 h.tag 1 []

/-! ### Lemik's types -/

/-- MGT_ATTEST: the report for the nonce (R472, R491). -/
def execMgtAttest (h : MsgHead) (nonce : List Byte) (s : State) : Res :=
  s.withHead h 32 fun s =>
    if s.lemikServes then s.received.respond 0x05 h.tag 0 (s.attestation nonce)
    else s.respond 0x05 h.tag 7 []

/-- What a register request came to: values so far, mismatch map, unmapped offsets met, cause of the fault
that ended it or 0. -/
structure RegRun where
  vals : List Nat
  mism : Nat
  unm : Bool
  cause : Nat
deriving DecidableEq, Repr

/-- Cause of the fault of one access of a request: an offset outside the control space names nothing (R477,
R495); a width of 16 needs a 128-bit register at its own offset (R493). -/
def State.regCause (s : State) (a width : Nat) : Nat :=
  if ctlSize ≤ a then 1
  else if width = 16 then
    if a % 16 = 0 && (s.reach 16 a).any fun h => h.reg.info.width = 128 && h.byte = 0 then 0 else 4
  else if !formOk a width || (width = 4 && (s.reach 16 a).any fun h => h.reg.info.width = 128) then 4
  else 0

/-- One value read by the engine: a 128-bit register as its two halves (R493, R502). -/
def State.regOne (s : State) (a width : Nat) : Nat × Bool × State :=
  if width = 16 then
    match s.ctlLoad 16 a 8 with
    | none => (0, false, s)
    | some (lo, m, s) =>
      match s.ctlLoad 16 (a + 8) 8 with
      | none => (lo, m, s)
      | some (hi, n, s) => (lo + hi * 2 ^ 64, m || n, s)
  else (s.ctlLoad 16 a width).getD (0, false, s)

/-- Values i, i + 1, ... of a REG_READ in order, n of them, until one faults (R493). -/
def State.regReads (s : State) (off width i : Nat) (x : RegRun) : Nat → RegRun × State
  | 0 => (x, s)
  | n + 1 =>
    let a := off + width * i
    let k := s.regCause a width
    if k != 0 then ({ x with cause := k }, s)
    else
      let r := s.regOne a width
      let y : RegRun := { vals := x.vals ++ [r.1], mism := if r.2.1 then setBit x.mism i else x.mism,
                          unm := x.unm || (s.reach 16 a).isEmpty, cause := 0 }
      State.regReads r.2.2 off width (i + 1) y n

/-- One value written by the engine, low half first (R493). -/
def State.regPut (s : State) (a width v t : Nat) : State :=
  if width = 16 then
    let s := (s.ctlStore 16 a 8 (v % 2 ^ 64) t).getD s
    (s.ctlStore 16 (a + 8) 8 (v / 2 ^ 64) t).getD s
  else (s.ctlStore 16 a width v t).getD s

/-- Values of a REG_WRITE in order, until one faults (R493). -/
def State.regWrites (s : State) (off width i t : Nat) (x : RegRun) : List Nat → RegRun × State
  | [] => (x, s)
  | v :: l =>
    let a := off + width * i
    let k := s.regCause a width
    if k != 0 then ({ x with cause := k }, s)
    else
      let y : RegRun := { x with vals := x.vals ++ [v], unm := x.unm || (s.reach 16 a).isEmpty }
      State.regWrites (s.regPut a width v t) off width (i + 1) t y l

/-- Operands of a register request (R491). -/
def regForm (width count : Nat) : Bool := (width = 4 || width = 8 || width = 16) && 1 ≤ count && count ≤ 64

/-- Body bytes that name registers (R491). -/
def regBody (off width count : Nat) : List Byte := natLe 4 off ++ natLe 1 width ++ natLe 1 count ++ natLe 2 0

/-- Status of a register request without a fault: UNMAPPED where a value named an offset without a register
(R490, R498; log entry 35). -/
def RegRun.status (x : RegRun) : Nat := if x.unm then 8 else 0

/-- REG_READ (R491, R493). -/
def execRegRead (h : MsgHead) (a : AuthTail) (off width count : Nat) (s : State) : Res :=
  s.withHead h 8 fun s => s.lemik 0x10 h a (regBody off width count) fun s =>
    if regForm width count then
      let r := s.regReads off width 0 ⟨[], 0, false, 0⟩ count
      if r.1.cause != 0 then r.2.mgtRespond 0x10 h.tag a.slot a.counter 5 (natLe 1 r.1.cause)
      else r.2.mgtRespond 0x10 h.tag a.slot a.counter r.1.status
        (r.1.vals.flatMap (natLe width) ++ natLe 8 r.1.mism)
    else s.mgtRespond 0x10 h.tag a.slot a.counter 1 []

/-- REG_WRITE (R491, R493). A failed one answers the fault's code and then the number of values written. -/
def execRegWrite (h : MsgHead) (a : AuthTail) (off width : Nat) (vals : List Nat) (t : Nat) (s : State) : Res :=
  (s.stamp t).withHead h (8 + width * vals.length) fun s =>
    s.lemik 0x11 h a (regBody off width vals.length ++ vals.flatMap (natLe width)) fun s =>
      if regForm width vals.length then
        let r := s.regWrites off width 0 t ⟨[], 0, false, 0⟩ vals
        if r.1.cause != 0 then
          r.2.mgtRespond 0x11 h.tag a.slot a.counter 5 (natLe 1 r.1.cause ++ natLe 4 r.1.vals.length)
        else r.2.mgtRespond 0x11 h.tag a.slot a.counter r.1.status (natLe 4 r.1.vals.length)
      else s.mgtRespond 0x11 h.tag a.slot a.counter 1 []

/-- Operands of a memory request (R491). -/
def memForm (c space addr len : Nat) : Bool :=
  c < 4 && space ≤ 1 && addr % 64 = 0 && len % 64 = 0 && 0 < len && len ≤ 8192

/-- Body bytes that name memory (R491). -/
def memBody (c space addr len : Nat) : List Byte :=
  natLe 1 c ++ natLe 1 space ++ natLe 6 0 ++ natLe 8 addr ++ natLe 4 len

/-- MEM_READ: an access of requester 23 in chase 0, which may be held, or one that crosses the ring (R24, R152 to
R154, R493). -/
def execMemRead (h : MsgHead) (a : AuthTail) (c space addr len : Nat) (met : Met) (s : State) : Res :=
  s.withHead h 20 fun s => s.lemik 0x12 h a (memBody c space addr len) fun s =>
    if memForm c space addr len then
      s.mgtAccess ⟨c, space = 1, addr, len, none, met, .mgt 0x12 h.tag a.slot a.counter⟩ 0x12 h.tag a.slot a.counter
    else s.mgtRespond 0x12 h.tag a.slot a.counter 1 []

/-- MEM_WRITE (R24, R152 to R154, R493). -/
def execMemWrite (h : MsgHead) (a : AuthTail) (c space addr : Nat) (data : List Byte) (s : State) : Res :=
  s.withHead h (20 + data.length) fun s =>
    s.lemik 0x13 h a (memBody c space addr data.length ++ data) fun s =>
      if memForm c space addr data.length then
        s.mgtAccess ⟨c, space = 1, addr, data.length, some data, ⟨[], false⟩, .mgt 0x13 h.tag a.slot a.counter⟩
          0x13 h.tag a.slot a.counter
      else s.mgtRespond 0x13 h.tag a.slot a.counter 1 []

/-! ### Images (R494) -/

/-- Longest image: 64 MiB (R491). -/
def imageMax : Nat := 2 ^ 26

/-- An upload opens; one in progress is abandoned (R494). -/
def State.openUpload (s : State) (tag len : Nat) : State :=
  if len ≤ imageMax then ({ s.received with upload := some (len, []) } : State).respond 0x20 tag 0 []
  else s.respond 0x20 tag 1 []

/-- IMAGE_BEGIN: authenticated where an owner is claimed (R491, R494). -/
def execImageBegin (h : MsgHead) (a : Option AuthTail) (len : Nat) (s : State) : Res :=
  s.withHead h 8 fun s =>
    if !s.ownerValid then s.openUpload h.tag len
    else
      match a with
      | none => (s.bump .mgtCountsAuthRefused 0 0 1).respond 0x20 h.tag 3 []
      | some a =>
        match s.authCheck 0x20 h a (natLe 8 len) with
        | .refused k => (s.bump .mgtCountsAuthRefused 0 0 1).respond 0x20 h.tag k []
        | .again => s.answerAgain a.slot a.counter
        | .ok =>
          let r : Out := .mgt 0x20 h.tag (if len ≤ imageMax then 0 else 1) [] []
          ({ s with mgtLast := s.mgtLast.put a.slot (a.counter, r) } : State).openUpload h.tag len

/-- IMAGE_DATA: the next bytes in order; any other chunk is FORMAT (R494). -/
def execImageData (h : MsgHead) (off : Nat) (data : List Byte) (s : State) : Res :=
  s.withHead h (8 + data.length) fun s =>
    match s.upload with
    | none => s.respond 0x21 h.tag 1 []
    | some (n, b) =>
      if off = b.length && off + data.length ≤ n && data.length ≤ 8192 then
        ({ s.received with upload := some (n, b ++ data) } : State).respond 0x21 h.tag 0 []
      else s.respond 0x21 h.tag 1 []

/-- An image slot holds an image that verifies. -/
def State.slotOk (s : State) (slot : Nat) : Bool :=
  match s.images.get? slot with
  | some img => s.imageOk img
  | none => false

/-- The slot that an upload goes to: the one not booted, A where neither verifies; where none was booted and
one verifies, the other (R494; log entry 36). -/
def State.uploadSlot (s : State) : Nat :=
  let b := s.rd .hBootSlot 0 0
  if !s.slotOk 0 && !s.slotOk 1 then 0
  else if b != 0 then 2 - b
  else if s.slotOk 0 && !s.slotOk 1 then 1
  else 0

/-- IMAGE_END: the whole image is verified, and only then written (R466, R471, R494). -/
def execImageEnd (h : MsgHead) (s : State) : Res :=
  s.withHead h 0 fun s =>
    match s.upload with
    | none => s.respond 0x22 h.tag 7 []
    | some (n, b) =>
      let s : State := { s with upload := none }
      if b.length = n && s.imageOk b then
        (s.received.queueFlash (.image s.uploadSlot b)).respond 0x22 h.tag 0 []
      else s.respond 0x22 h.tag 3 []

end Sys2Proof.Machine
end

