-- ==== Sys2Proof/Machine/Dispatch.lean ====
section
/-!
DEFINITION. The meaning of every command: one arm for each constructor of Instr.
-/

namespace Sys2Proof.Machine

def exec (i : Instr) (s : State) : Host.Outcome State Fault Refusal :=
  match i with
  | .nop p k => Sys2Proof.Machine.execNop p k s
  | .loop p k level countM1 bodyM1 => Sys2Proof.Machine.execLoop p k level countM1 bodyM1 s
  | .seta p k ad a => Sys2Proof.Machine.execSeta p k ad a s
  | .srk p k key a => Sys2Proof.Machine.execSrk p k key a s
  | .stepEnd p k => Sys2Proof.Machine.execStepEnd p k s
  | .bsig p k barrier => Sys2Proof.Machine.execBsig p k barrier s
  | .bwait p k barrier => Sys2Proof.Machine.execBwait p k barrier s
  | .fence p k units => Sys2Proof.Machine.execFence p k units s
  | .ramp p k mode => Sys2Proof.Machine.execRamp p k mode s
  | .wload p k w ce => Sys2Proof.Machine.execWload p k w ce s
  | .bias p k bfmt bad ce => Sys2Proof.Machine.execBias p k bfmt bad ce s
  | .pass p k f parity ce => Sys2Proof.Machine.execPass p k f parity ce s
  | .drain p k f => Sys2Proof.Machine.execDrain p k f s
  | .fadd p k f => Sys2Proof.Machine.execFadd p k f s
  | .fsub p k f => Sys2Proof.Machine.execFsub p k f s
  | .fmul p k f => Sys2Proof.Machine.execFmul p k f s
  | .ffma p k f => Sys2Proof.Machine.execFfma p k f s
  | .fmin p k f => Sys2Proof.Machine.execFmin p k f s
  | .fmax p k f => Sys2Proof.Machine.execFmax p k f s
  | .fcmp p k f => Sys2Proof.Machine.execFcmp p k f s
  | .fsel p k f => Sys2Proof.Machine.execFsel p k f s
  | .fmov p k f => Sys2Proof.Machine.execFmov p k f s
  | .fmsk p k f => Sys2Proof.Machine.execFmsk p k f s
  | .fcvt p k f => Sys2Proof.Machine.execFcvt p k f s
  | .frcp p k f => Sys2Proof.Machine.execFrcp p k f s
  | .frsq p k f => Sys2Proof.Machine.execFrsq p k f s
  | .fexp p k f => Sys2Proof.Machine.execFexp p k f s
  | .flog p k f => Sys2Proof.Machine.execFlog p k f s
  | .frsum p k f => Sys2Proof.Machine.execFrsum p k f s
  | .frmax p k f => Sys2Proof.Machine.execFrmax p k f s
  | .frmin p k f => Sys2Proof.Machine.execFrmin p k f s
  | .fld p k f ce => Sys2Proof.Machine.execFld p k f ce s
  | .fst p k f => Sys2Proof.Machine.execFst p k f s
  | .cmov p k f ce => Sys2Proof.Machine.execCmov p k f ce s
  | .gload p k f ce => Sys2Proof.Machine.execGload p k f ce s
  | .gstore p k f ce => Sys2Proof.Machine.execGstore p k f ce s
  | .instructionComplete p unit => Sys2Proof.Machine.execInstructionComplete p unit s
  | .arrayResume p frozen => Sys2Proof.Machine.execArrayResume p frozen s
  | .arrayGate p => Sys2Proof.Machine.execArrayGate p s
  | .caseScrub p ce => Sys2Proof.Machine.execCaseScrub p ce s
  | .caseUncorrectable p word t => Sys2Proof.Machine.execCaseUncorrectable p word t s
  | .istoreError p half kind t => Sys2Proof.Machine.execIstoreError p half kind t s
  | .unscheduledRequest c phase reqs => Sys2Proof.Machine.execUnscheduledRequest c phase reqs s
  | .lateTransfer c code order nextLine lastLine => Sys2Proof.Machine.execLateTransfer c code order nextLine lastLine s
  | .galleyScrub c bank ce => Sys2Proof.Machine.execGalleyScrub c bank ce s
  | .uncorrectableError u t => Sys2Proof.Machine.execUncorrectableError u t s
  | .coreLineUe u t => Sys2Proof.Machine.execCoreLineUe u t s
  | .heldAccessRelease f => Sys2Proof.Machine.execHeldAccessRelease f s
  | .stackRefresh m channel => Sys2Proof.Machine.execStackRefresh m channel s
  | .patrolScrub m ce => Sys2Proof.Machine.execPatrolScrub m ce s
  | .scrubLate m t => Sys2Proof.Machine.execScrubLate m t s
  | .drainAcknowledged f => Sys2Proof.Machine.execDrainAcknowledged f s
  | .jobStart f job t => Sys2Proof.Machine.execJobStart f job t s
  | .windowFetch c ce => Sys2Proof.Machine.execWindowFetch c ce s
  | .nodeArrival c job shard lo hi v => Sys2Proof.Machine.execNodeArrival c job shard lo hi v s
  | .jobComplete c eng job t => Sys2Proof.Machine.execJobComplete c eng job t s
  | .impLoad t => Sys2Proof.Machine.execImpLoad t s
  | .impCommit t => Sys2Proof.Machine.execImpCommit t s
  | .impDiscard t => Sys2Proof.Machine.execImpDiscard t s
  | .verifyComplete t => Sys2Proof.Machine.execVerifyComplete t s
  | .checkComplete t => Sys2Proof.Machine.execCheckComplete t s
  | .discardStop t => Sys2Proof.Machine.execDiscardStop t s
  | .switch counterOk t => Sys2Proof.Machine.execSwitch counterOk t s
  | .switchComplete findings dead t => Sys2Proof.Machine.execSwitchComplete findings dead t s
  | .formeStart f t => Sys2Proof.Machine.execFormeStart f t s
  | .formeHold f t => Sys2Proof.Machine.execFormeHold f t s
  | .formeResume f t => Sys2Proof.Machine.execFormeResume f t s
  | .formePark f t => Sys2Proof.Machine.execFormePark f t s
  | .stepComplete f ce t => Sys2Proof.Machine.execStepComplete f ce t s
  | .stepRelease f t => Sys2Proof.Machine.execStepRelease f t s
  | .watchdogTimeout f t => Sys2Proof.Machine.execWatchdogTimeout f t s
  | .editionCommit f t => Sys2Proof.Machine.execEditionCommit f t s
  | .unitsStopped f t => Sys2Proof.Machine.execUnitsStopped f t s
  | .variantRewriteDone f t => Sys2Proof.Machine.execVariantRewriteDone f t s
  | .pressLost p t => Sys2Proof.Machine.execPressLost p t s
  | .heaterLoopUpdate k r err => Sys2Proof.Machine.execHeaterLoopUpdate k r err s
  | .toneWindow k r strongest margin10dB t => Sys2Proof.Machine.execToneWindow k r strongest margin10dB t s
  | .mislockRecoveryDone k r code t => Sys2Proof.Machine.execMislockRecoveryDone k r code t s
  | .calDue k j w why t => Sys2Proof.Machine.execCalDue k j w why t s
  | .continuousCalNext k j t => Sys2Proof.Machine.execContinuousCalNext k j t s
  | .calibrationSweepDone k r run t => Sys2Proof.Machine.execCalibrationSweepDone k r run t s
  | .laneRetrained k j d w t => Sys2Proof.Machine.execLaneRetrained k j d w t s
  | .powerMonitorSample k m t => Sys2Proof.Machine.execPowerMonitorSample k m t s
  | .laserSample n output bias t => Sys2Proof.Machine.execLaserSample n output bias t s
  | .watchClear n t => Sys2Proof.Machine.execWatchClear n t s
  | .twinReady n t => Sys2Proof.Machine.execTwinReady n t s
  | .suddenLoss k j w t => Sys2Proof.Machine.execSuddenLoss k j w t s
  | .drainUnit u t => Sys2Proof.Machine.execDrainUnit u t s
  | .lsuRestore u t => Sys2Proof.Machine.execLsuRestore u t s
  | .relight t => Sys2Proof.Machine.execRelight t s
  | .unitInserted u t => Sys2Proof.Machine.execUnitInserted u t s
  | .unitProofDone u failed t => Sys2Proof.Machine.execUnitProofDone u failed t s
  | .interlockOpen u t => Sys2Proof.Machine.execInterlockOpen u t s
  | .steerWindowEnd k unaligned t => Sys2Proof.Machine.execSteerWindowEnd k unaligned t s
  | .oeCalCtrlWrite k value => Sys2Proof.Machine.execOeCalCtrlWrite k value s
  | .laneLock n x t => Sys2Proof.Machine.execLaneLock n x t s
  | .lossOfLock n x t => Sys2Proof.Machine.execLossOfLock n x t s
  | .blockError n lane prev b t => Sys2Proof.Machine.execBlockError n lane prev b t s
  | .lcLost n t => Sys2Proof.Machine.execLcLost n t s
  | .lcLock n t => Sys2Proof.Machine.execLcLock n t s
  | .alignComplete n t => Sys2Proof.Machine.execAlignComplete n t s
  | .train n w t => Sys2Proof.Machine.execTrain n w t s
  | .trainingTimeout n t => Sys2Proof.Machine.execTrainingTimeout n t s
  | .trainingRetry n t => Sys2Proof.Machine.execTrainingRetry n t s
  | .poll n t => Sys2Proof.Machine.execPoll n t s
  | .pollEnd n t => Sys2Proof.Machine.execPollEnd n t s
  | .peerLcDetected n t => Sys2Proof.Machine.execPeerLcDetected n t s
  | .clearMismatch n t => Sys2Proof.Machine.execClearMismatch n t s
  | .retrain n t => Sys2Proof.Machine.execRetrain n t s
  | .transmitStart n lane t => Sys2Proof.Machine.execTransmitStart n lane t s
  | .frame n f t => Sys2Proof.Machine.execFrame n f t s
  | .vc1Read n r => Sys2Proof.Machine.execVc1Read n r s
  | .vc1Write n r data => Sys2Proof.Machine.execVc1Write n r data s
  | .vc1Data n tag data => Sys2Proof.Machine.execVc1Data n tag data s
  | .vc1Done n tag => Sys2Proof.Machine.execVc1Done n tag s
  | .vc1Error n tag => Sys2Proof.Machine.execVc1Error n tag s
  | .ack n b t => Sys2Proof.Machine.execAck n b t s
  | .credit n b vc freed t => Sys2Proof.Machine.execCredit n b vc freed t s
  | .barrierToken n b origin bar edition count t => Sys2Proof.Machine.execBarrierToken n b origin bar edition count t s
  | .laneMove n b ident lane t => Sys2Proof.Machine.execLaneMove n b ident lane t s
  | .laneBack n b ident lane t => Sys2Proof.Machine.execLaneBack n b ident lane t s
  | .laneCal n b ident lane t => Sys2Proof.Machine.execLaneCal n b ident lane t s
  | .laneCalEnd n b ident lane t => Sys2Proof.Machine.execLaneCalEnd n b ident lane t s
  | .laneRejoin n b ident lane t => Sys2Proof.Machine.execLaneRejoin n b ident lane t s
  | .spareIn n b ident lane t => Sys2Proof.Machine.execSpareIn n b ident lane t s
  | .laneDrop n b lane t => Sys2Proof.Machine.execLaneDrop n b lane t s
  | .laneAck n b arg t => Sys2Proof.Machine.execLaneAck n b arg t s
  | .widthReq n b ident mask t => Sys2Proof.Machine.execWidthReq n b ident mask t s
  | .widthAck n b arg t => Sys2Proof.Machine.execWidthAck n b arg t s
  | .retrainReq n b ident t => Sys2Proof.Machine.execRetrainReq n b ident t s
  | .retrainAck n b arg t => Sys2Proof.Machine.execRetrainAck n b arg t s
  | .rewind n b vc hi t => Sys2Proof.Machine.execRewind n b vc hi t s
  | .markJoin n lane t => Sys2Proof.Machine.execMarkJoin n lane t s
  | .markLeave n lane t => Sys2Proof.Machine.execMarkLeave n lane t s
  | .ackTimer n vc t => Sys2Proof.Machine.execAckTimer n vc t s
  | .creditTimer n vc t => Sys2Proof.Machine.execCreditTimer n vc t s
  | .replayTimer n vc seq t => Sys2Proof.Machine.execReplayTimer n vc seq t s
  | .requestRepeat n t => Sys2Proof.Machine.execRequestRepeat n t s
  | .laneCleanRun n x t => Sys2Proof.Machine.execLaneCleanRun n x t s
  | .laneRetrainTimeout n x t => Sys2Proof.Machine.execLaneRetrainTimeout n x t s
  | .laneRetrainRetry n x t => Sys2Proof.Machine.execLaneRetrainRetry n x t s
  | .idleAdaptation n x idle blocks => Sys2Proof.Machine.execIdleAdaptation n x idle blocks s
  | .linkDown n cause t => Sys2Proof.Machine.execLinkDown n cause t s
  | .dlaneDrop l e b lane t => Sys2Proof.Machine.execDlaneDrop l e b lane t s
  | .dwidthReq l e b mask t => Sys2Proof.Machine.execDwidthReq l e b mask t s
  | .dwidthAck l e b mask t => Sys2Proof.Machine.execDwidthAck l e b mask t s
  | .groupClockLost l e g t => Sys2Proof.Machine.execGroupClockLost l e g t s
  | .groupHealthy l e g t => Sys2Proof.Machine.execGroupHealthy l e g t s
  | .dieLinkDown l t => Sys2Proof.Machine.execDieLinkDown l t s
  | .dieLinkRetry l t => Sys2Proof.Machine.execDieLinkRetry l t s
  | .guestTrain g offer t => Sys2Proof.Machine.execGuestTrain g offer t s
  | .guestRetry g t => Sys2Proof.Machine.execGuestRetry g t s
  | .guestHello g cap t => Sys2Proof.Machine.execGuestHello g cap t s
  | .guestRead g r => Sys2Proof.Machine.execGuestRead g r s
  | .guestWrite g r data => Sys2Proof.Machine.execGuestWrite g r data s
  | .guestNotify g value t => Sys2Proof.Machine.execGuestNotify g value t s
  | .guestPost g value => Sys2Proof.Machine.execGuestPost g value s
  | .lowPowerRequest g => Sys2Proof.Machine.execLowPowerRequest g s
  | .guestLinkDown g t => Sys2Proof.Machine.execGuestLinkDown g t s
  | .identityWrite value => Sys2Proof.Machine.execIdentityWrite value s
  | .barrierRoundComplete f bar t => Sys2Proof.Machine.execBarrierRoundComplete f bar t s
  | .tokenRepeat n t => Sys2Proof.Machine.execTokenRepeat n t s
  | .editionToken n b edition t => Sys2Proof.Machine.execEditionToken n b edition t s
  | .editionRepeat n t => Sys2Proof.Machine.execEditionRepeat n t s
  | .editionStalled f t => Sys2Proof.Machine.execEditionStalled f t s
  | .fetch n b base t => Sys2Proof.Machine.execFetch n b base t s
  | .fetchAck n b base t => Sys2Proof.Machine.execFetchAck n b base t s
  | .quiesce n b edition t => Sys2Proof.Machine.execQuiesce n b edition t s
  | .quiesceTimeout n t => Sys2Proof.Machine.execQuiesceTimeout n t s
  | .plant n b w s5 t => Sys2Proof.Machine.execPlant n b w s5 t s
  | .plantTimer n t => Sys2Proof.Machine.execPlantTimer n t s
  | .pairActive t => Sys2Proof.Machine.execPairActive t s
  | .pairStandby t => Sys2Proof.Machine.execPairStandby t s
  | .pairSwap f t => Sys2Proof.Machine.execPairSwap f t s
  | .pairYield t => Sys2Proof.Machine.execPairYield t s
  | .roleTimeout t => Sys2Proof.Machine.execRoleTimeout t s
  | .pairHello n b role member resync pend t => Sys2Proof.Machine.execPairHello n b role member resync pend t s
  | .pairLevel n b level t => Sys2Proof.Machine.execPairLevel n b level t s
  | .pairImp n b digest t => Sys2Proof.Machine.execPairImp n b digest t s
  | .mirrorWrite n f c addr edition data => Sys2Proof.Machine.execMirrorWrite n f c addr edition data s
  | .mirrorBases n f edition es => Sys2Proof.Machine.execMirrorBases n f edition es s
  | .mirrorRecord n f r t => Sys2Proof.Machine.execMirrorRecord n f r t s
  | .mirrorDone n b f edition t => Sys2Proof.Machine.execMirrorDone n b f edition t s
  | .swapReq n b edition t => Sys2Proof.Machine.execSwapReq n b edition t s
  | .swapAck n b edition t => Sys2Proof.Machine.execSwapAck n b edition t s
  | .partnerYield t => Sys2Proof.Machine.execPartnerYield t s
  | .livenessFail t => Sys2Proof.Machine.execLivenessFail t s
  | .yieldComplete t => Sys2Proof.Machine.execYieldComplete t s
  | .graceExpired f t => Sys2Proof.Machine.execGraceExpired f t s
  | .standbyStale t => Sys2Proof.Machine.execStandbyStale t s
  | .takeoverPowered t => Sys2Proof.Machine.execTakeoverPowered t s
  | .takeoverProofDone fs t => Sys2Proof.Machine.execTakeoverProofDone fs t s
  | .takeoverImagesWritten t => Sys2Proof.Machine.execTakeoverImagesWritten t s
  | .takeoverPortsTimeout t => Sys2Proof.Machine.execTakeoverPortsTimeout t s
  | .takeoverRelease t => Sys2Proof.Machine.execTakeoverRelease t s
  | .railWindow n current t => Sys2Proof.Machine.execRailWindow n current t s
  | .mainRailFailure inputOut t => Sys2Proof.Machine.execMainRailFailure inputOut t s
  | .estimatorSample e t => Sys2Proof.Machine.execEstimatorSample e t s
  | .inputMeasurement watts dv t => Sys2Proof.Machine.execInputMeasurement watts dv t s
  | .idleStepEnd f t => Sys2Proof.Machine.execIdleStepEnd f t s
  | .pwrCtrlWrite value => Sys2Proof.Machine.execPwrCtrlWrite value s
  | .droopTrip island sag t => Sys2Proof.Machine.execDroopTrip island sag t s
  | .droopEventEnd island still t => Sys2Proof.Machine.execDroopEventEnd island still t s
  | .tempSample d ts t => Sys2Proof.Machine.execTempSample d ts t s
  | .thermalDutyUpdate d t => Sys2Proof.Machine.execThermalDutyUpdate d t s
  | .thermalTrip d t => Sys2Proof.Machine.execThermalTrip d t s
  | .proofPhaseComplete fs t => Sys2Proof.Machine.execProofPhaseComplete fs t s
  | .stripSliceDone p strip ok t => Sys2Proof.Machine.execStripSliceDone p strip ok t s
  | .logicSlice u t => Sys2Proof.Machine.execLogicSlice u t s
  | .coreSlice n t => Sys2Proof.Machine.execCoreSlice n t s
  | .pendingFlush t => Sys2Proof.Machine.execPendingFlush t s
  | .stackChannelRetrain m channel ok t => Sys2Proof.Machine.execStackChannelRetrain m channel ok t s
  | .loopback q t => Sys2Proof.Machine.execLoopback q t s
  | .loopbackDone errors passed t => Sys2Proof.Machine.execLoopbackDone errors passed t s
  | .clearMap => Sys2Proof.Machine.execClearMap s
  | .tapReset => Sys2Proof.Machine.execTapReset s
  | .tapBypass => Sys2Proof.Machine.execTapBypass s
  | .tapIdcode => Sys2Proof.Machine.execTapIdcode s
  | .tapSample => Sys2Proof.Machine.execTapSample s
  | .tapExtest => Sys2Proof.Machine.execTapExtest s
  | .tapClamp => Sys2Proof.Machine.execTapClamp s
  | .tapHighz => Sys2Proof.Machine.execTapHighz s
  | .tapSegsel segs => Sys2Proof.Machine.execTapSegsel segs s
  | .auxPowerOn strap fail => Sys2Proof.Machine.execAuxPowerOn strap fail s
  | .stageComplete t => Sys2Proof.Machine.execStageComplete t s
  | .stageTimeout t => Sys2Proof.Machine.execStageTimeout t s
  | .t0Reached t => Sys2Proof.Machine.execT0Reached t s
  | .railEnableStep good t => Sys2Proof.Machine.execRailEnableStep good t s
  | .hardwareReset islandTemp t => Sys2Proof.Machine.execHardwareReset islandTemp t s
  | .resetRelease t => Sys2Proof.Machine.execResetRelease t s
  | .auxLoss => Sys2Proof.Machine.execAuxLoss s
  | .railDisableStep t => Sys2Proof.Machine.execRailDisableStep t s
  | .laserOverpower n t => Sys2Proof.Machine.execLaserOverpower n t s
  | .laserHeartbeatMiss u t => Sys2Proof.Machine.execLaserHeartbeatMiss u t s
  | .flashWriteComplete ok t => Sys2Proof.Machine.execFlashWriteComplete ok t s
  | .counterWriteTimeout t => Sys2Proof.Machine.execCounterWriteTimeout t s
  | .secReady t => Sys2Proof.Machine.execSecReady t s
  | .fwCommit t => Sys2Proof.Machine.execFwCommit t s
  | .secAttest t => Sys2Proof.Machine.execSecAttest t s
  | .secAlert => Sys2Proof.Machine.execSecAlert s
  | .keyClaim t => Sys2Proof.Machine.execKeyClaim t s
  | .keyTransfer t => Sys2Proof.Machine.execKeyTransfer t s
  | .keyAdd t => Sys2Proof.Machine.execKeyAdd t s
  | .keyRemove t => Sys2Proof.Machine.execKeyRemove t s
  | .keyEpoch t => Sys2Proof.Machine.execKeyEpoch t s
  | .svReset c t => Sys2Proof.Machine.execSvReset c t s
  | .svPowerOff c t => Sys2Proof.Machine.execSvPowerOff c t s
  | .svPowerOn c t => Sys2Proof.Machine.execSvPowerOn c t s
  | .svLaserOff c t => Sys2Proof.Machine.execSvLaserOff c t s
  | .coreStart n => Sys2Proof.Machine.execCoreStart n s
  | .coreRetire n => Sys2Proof.Machine.execCoreRetire n s
  | .timerInterrupt n => Sys2Proof.Machine.execTimerInterrupt n s
  | .coreAccessFault n a => Sys2Proof.Machine.execCoreAccessFault n a s
  | .snapshotRead who addr size => Sys2Proof.Machine.execSnapshotRead who addr size s
  | .groupRead who addr size => Sys2Proof.Machine.execGroupRead who addr size s
  | .groupWrite who addr size value t => Sys2Proof.Machine.execGroupWrite who addr size value t s
  | .unmappedAccess who addr store => Sys2Proof.Machine.execUnmappedAccess who addr store s
  | .registerWrite who addr size value => Sys2Proof.Machine.execRegisterWrite who addr size value s
  | .neighbourDiscovery target => Sys2Proof.Machine.execNeighbourDiscovery target s
  | .echoRequest ident seq data => Sys2Proof.Machine.execEchoRequest ident seq data s
  | .duplicateAddressDetection failed => Sys2Proof.Machine.execDuplicateAddressDetection failed s
  | .mgtStatus h => Sys2Proof.Machine.execMgtStatus h s
  | .mgtChallenge h => Sys2Proof.Machine.execMgtChallenge h s
  | .mgtCert h which slot => Sys2Proof.Machine.execMgtCert h which slot s
  | .mgtAttest h nonce => Sys2Proof.Machine.execMgtAttest h nonce s
  | .regRead h a off width count => Sys2Proof.Machine.execRegRead h a off width count s
  | .regWrite h a off width vals t => Sys2Proof.Machine.execRegWrite h a off width vals t s
  | .memRead h a c space addr len met => Sys2Proof.Machine.execMemRead h a c space addr len met s
  | .memWrite h a c space addr data => Sys2Proof.Machine.execMemWrite h a c space addr data s
  | .imageBegin h a len => Sys2Proof.Machine.execImageBegin h a len s
  | .imageData h off data => Sys2Proof.Machine.execImageData h off data s
  | .imageEnd h => Sys2Proof.Machine.execImageEnd h s
  | .unitWithdrawn u t => Sys2Proof.Machine.execUnitWithdrawn u t s
  | .pairHelloTimer t => Sys2Proof.Machine.execPairHelloTimer t s
  | .pairLiveRestored t => Sys2Proof.Machine.execPairLiveRestored t s
  | .logicSliceDone u ok t => Sys2Proof.Machine.execLogicSliceDone u ok t s
  | .coreSliceDone n ok t => Sys2Proof.Machine.execCoreSliceDone n ok t s
  | .mgtBlockLock => Sys2Proof.Machine.execMgtBlockLock s
  | .mgtBlockLockLost => Sys2Proof.Machine.execMgtBlockLockLost s
  | .otherBypassKind n b kind arg => Sys2Proof.Machine.execOtherBypassKind n b kind arg s

end Sys2Proof.Machine
end

