-- ==== Sys2Proof/WellFormed.lean ====
section
/-!
DEFINITION. Which commands name units and operands that the module has (R14): the checks on the syntax, one
row for each command. A command that passes its check runs to a next state, but for a press instruction whose
lines lie outside its memory (Fault.noSuchLine).
-/

namespace Sys2Proof

/-- Token numbers are of three bits (R111). -/
def tokFits (k : Tok) : Bool := k.wtok < 8 && k.stok < 8

/-- A stride of an address register is a 21-bit number (R114). -/
def strideFits (x : Int) : Bool := -2 ^ 20 ≤ x && x < 2 ^ 20

/-- Format S (R114). -/
def addrFits (a : AddrReg) : Bool :=
  a.base < 2 ^ 21 && strideFits a.stride0 && strideFits a.stride1 && strideFits a.stride2 &&
    strideFits a.stride3

/-- Format K (R114). -/
def keyFits (a : SrKey) : Bool :=
  a.tensorId < 2 ^ 24 && a.base < 2 ^ 40 && a.ld < 2 ^ 20 && a.level < 4 && -2 ^ 23 ≤ a.stride && a.stride < 2 ^ 23

/-- Word addresses of the case (R94, R97). -/
def caseWords (ce : List Nat) : Bool := ce.all fun w => w < 2 ^ 23

/-- Drain fields of format P (R116). -/
def drainFits (o : DrainOut) : Bool :=
  o.dfmt < 16 && o.rmode < 4 && o.dad < 16 && o.dsad < 16 && o.vbase < 32 && o.ring < 8 && o.key < 4

/-- Format P of PASS (R116). -/
def passFits (f : PassF) : Bool :=
  f.afmt < 16 && f.strips < 32 && f.mM1 < 2 ^ 11 && f.head < 4 && f.foot < 4 && f.aad < 16 && f.asad < 16 &&
    drainFits f.out

/-- A strip with a parity error is one of the 17 (R81, R435). -/
def parityFits (x : Option Nat) : Bool :=
  match x with
  | none => true
  | some n => n < 17

/-- Format F (R117). -/
def finFits (f : FinF) : Bool :=
  f.vd < 32 && f.va < 32 && f.vb < 32 && f.vc < 32 && f.pmask < 8 && f.sub < 16 && f.rmode < 4 &&
    f.cad < 16 && f.cnt < 2 ^ 16 && f.xad < 16 && f.slot < 16 && f.key < 4 && f.srow < 2 ^ 14 &&
    f.imm < 2 ^ 32

/-- Format G (R118). -/
def galFits (f : GalF) : Bool := f.resv < 2 ^ 12 && f.gad < 16 && f.cad < 16 && f.linesM1 < 2 ^ 16

/-- Lanes of a link end: a port, a ring link, an engine's link (R14, R322). -/
def laneCount (n : Nat) : Nat := if n < 32 then 9 else if n < 40 then 144 else 72

/-- Where an uncorrectable error can lie (R142, R149, R159). -/
def ueFits (u : UeSite) : Bool :=
  match u with
  | .galley c code line word _ => c < 4 && code < 32 && line < 1572864 && word < 32
  | .stack c code addr _ => c < 4 && code < 32 && addr < 2 ^ 38
  | .retained q vc seq => q < 32 && vc < 3 && seq < 2 ^ 48
  | .unacked q vc seq => q < 32 && vc < 3 && seq < 2 ^ 48
  | .held c _ f => c < 4 && f < 16

/-- Where a corrected error can lie (R142, R159). -/
def ceFits (x : CeSite) : Bool :=
  match x with
  | .galley c word => c < 4 && word < 32 * 1572864
  | .stack m b => m < 16 && b.channel < 64 && b.bank < 16 && b.row < 32768 && b.burst < 32 && b.symbols < 16

/-- Block of a logic slice (R436). -/
def blockFits (u : LogicUnit) : Bool :=
  match u with
  | .press p => p < 12
  | .chase c => c < 4

/-- Sensors of a thermal domain (R421). -/
def sensorCount (d : Nat) : Nat :=
  if d < 12 then 8 else if d < 16 then 12 else if d < 32 then 2 else if d < 40 then 4 else 2

/-- The command's operands are within the module. -/
def Instr.wf : Instr → Bool
  | .nop p k => p < 12 && tokFits k
  | .loop p k level countM1 bodyM1 => p < 12 && tokFits k && level < 4 && countM1 < 2 ^ 16 && bodyM1 < 2 ^ 12
  | .seta p k ad a => p < 12 && tokFits k && ad < 16 && addrFits a
  | .srk p k key a => p < 12 && tokFits k && key < 4 && keyFits a
  | .stepEnd p k => p < 12 && tokFits k
  | .bsig p k barrier => p < 12 && tokFits k && barrier < 64
  | .bwait p k barrier => p < 12 && tokFits k && barrier < 64
  | .fence p k units => p < 12 && tokFits k && units < 32
  | .ramp p k mode => p < 12 && tokFits k && mode < 4
  | .wload p k w ce => p < 12 && tokFits k && w.wfmt < 16 && w.strips < 32 && w.wad < 16 && w.sad < 16 && caseWords ce
  | .bias p k bfmt bad ce => p < 12 && tokFits k && bfmt < 16 && bad < 16 && caseWords ce
  | .pass p k f parity ce => p < 12 && tokFits k && passFits f && parityFits parity && caseWords ce
  | .drain p k f => p < 12 && tokFits k && f.mM1 < 2 ^ 11 && f.m0 < 2 ^ 10 && drainFits f.out
  | .fadd p k f => p < 12 && tokFits k && finFits f
  | .fsub p k f => p < 12 && tokFits k && finFits f
  | .fmul p k f => p < 12 && tokFits k && finFits f
  | .ffma p k f => p < 12 && tokFits k && finFits f
  | .fmin p k f => p < 12 && tokFits k && finFits f
  | .fmax p k f => p < 12 && tokFits k && finFits f
  | .fcmp p k f => p < 12 && tokFits k && finFits f
  | .fsel p k f => p < 12 && tokFits k && finFits f
  | .fmov p k f => p < 12 && tokFits k && finFits f
  | .fmsk p k f => p < 12 && tokFits k && finFits f
  | .fcvt p k f => p < 12 && tokFits k && finFits f
  | .frcp p k f => p < 12 && tokFits k && finFits f
  | .frsq p k f => p < 12 && tokFits k && finFits f
  | .fexp p k f => p < 12 && tokFits k && finFits f
  | .flog p k f => p < 12 && tokFits k && finFits f
  | .frsum p k f => p < 12 && tokFits k && finFits f
  | .frmax p k f => p < 12 && tokFits k && finFits f
  | .frmin p k f => p < 12 && tokFits k && finFits f
  | .fld p k f ce => p < 12 && tokFits k && finFits f && caseWords ce
  | .fst p k f => p < 12 && tokFits k && finFits f
  | .cmov p k f ce => p < 12 && tokFits k && finFits f && caseWords ce
  | .gload p k f ce => p < 12 && tokFits k && galFits f && ce.all fun w => w < 50331648
  | .gstore p k f ce => p < 12 && tokFits k && galFits f && caseWords ce
  | .instructionComplete p unit => p < 12 && 1 ≤ unit && unit ≤ 5
  | .arrayResume p _ => p < 12
  | .arrayGate p => p < 12
  | .caseScrub p ce => p < 12 && caseWords ce
  | .caseUncorrectable p _ _ => p < 12
  | .istoreError p _ _ _ => p < 12
  | .unscheduledRequest c phase reqs =>
      c < 4 && phase < 8 && reqs.all fun r => 3 ≤ r.code && r.code ≤ 24 && (r.code != 23 || c = 0) &&
        r.off + r.len ≤ 256 && r.ce.all fun w => w < 32
  | .lateTransfer c code _ nextLine lastLine => c < 4 && code < 19 && nextLine ≤ lastLine && lastLine < 1572864
  | .galleyScrub c bank _ => c < 4 && bank < 64
  | .uncorrectableError u _ => ueFits u
  | .coreLineUe u _ => ueFits u
  | .heldAccessRelease f => f < 16
  | .stackRefresh m channel => m < 16 && channel < 64
  | .patrolScrub m _ => m < 16
  | .scrubLate m _ => m < 16
  | .drainAcknowledged f => f < 16
  | .jobStart f _ _ => f < 16
  | .windowFetch c ce => c < 4 && ce.all ceFits
  | .nodeArrival c _ _ _ _ _ => c < 4
  | .jobComplete c eng _ _ => c < 4 && eng < 2
  | .impLoad _ => true
  | .impCommit _ => true
  | .impDiscard _ => true
  | .verifyComplete _ => true
  | .checkComplete _ => true
  | .discardStop _ => true
  | .switch _ _ => true
  | .switchComplete _ _ _ => true
  | .formeStart f _ => f < 16
  | .formeHold f _ => f < 16
  | .formeResume f _ => f < 16
  | .formePark f _ => f < 16
  | .stepComplete f ce _ => f < 16 && ce.all ceFits
  | .stepRelease f _ => f < 16
  | .watchdogTimeout f _ => f < 16
  | .editionCommit f _ => f < 16
  | .unitsStopped f _ => f < 16
  | .variantRewriteDone f _ => f < 16
  | .pressLost p _ => p < 12
  | .heaterLoopUpdate k r _ => k < 8 && r < 80
  | .toneWindow k r _ _ _ => k < 8 && r < 80
  | .mislockRecoveryDone k r _ _ => k < 8 && r < 80
  | .calDue k j w _ _ => k < 8 && j < 4 && w < 10
  | .continuousCalNext k j _ => k < 8 && j < 4
  | .calibrationSweepDone k r _ _ => k < 8 && r < 80
  | .laneRetrained k j d w _ => k < 8 && j < 4 && w < 10 && d < 2
  | .powerMonitorSample k _ _ => k < 8
  | .laserSample n _ _ _ => n < 160
  | .watchClear n _ => n < 160
  | .twinReady n _ => n < 160
  | .suddenLoss k j w _ => k < 8 && j < 4 && w < 10
  | .drainUnit u _ => u < 2
  | .lsuRestore u _ => u < 2
  | .relight _ => true
  | .unitInserted u _ => u < 2
  | .unitProofDone u failed _ => u < 2 && failed.all fun i => i < 80
  | .interlockOpen u _ => u < 2
  | .steerWindowEnd k unaligned _ => k < 8 && unaligned.all fun e => e.1 < 4 && e.2 < 8
  | .oeCalCtrlWrite k _ => k < 8
  | .laneLock n i _ => n < 56 && i < laneCount n
  | .lossOfLock n i _ => n < 56 && i < laneCount n
  | .blockError n i _ _ _ => n < 56 && i < laneCount n
  | .lcLost n _ => n < 32
  | .lcLock n _ => n < 32
  | .alignComplete n _ => n < 56
  | .train n _ _ => n < 56
  | .trainingTimeout n _ => n < 56
  | .trainingRetry n _ => n < 56
  | .poll n _ => n < 32
  | .pollEnd n _ => n < 32
  | .peerLcDetected n _ => n < 32
  | .clearMismatch n _ => n < 32
  | .retrain n _ => n < 32
  | .transmitStart n lane _ => n < 56 && lane < laneCount n
  | .frame n f _ => n < 56 && f.lane < laneCount n
  | .vc1Read n r => n < 56 && r.target < 4 && 1 ≤ r.sectors && r.sectors ≤ 3 && r.met.ce.all ceFits
  | .vc1Write n r _ => n < 56 && r.target < 4 && 1 ≤ r.sectors && r.sectors ≤ 3
  | .vc1Data n _ _ => n < 56
  | .vc1Done n _ => n < 56
  | .vc1Error n _ => n < 56
  | .ack n _ _ => n < 56
  | .credit n _ _ _ _ => n < 56
  | .barrierToken n _ _ _ _ _ _ => n < 56
  | .laneMove n _ _ _ _ => n < 56
  | .laneBack n _ _ _ _ => n < 56
  | .laneCal n _ _ _ _ => n < 56
  | .laneCalEnd n _ _ _ _ => n < 56
  | .laneRejoin n _ _ _ _ => n < 56
  | .spareIn n _ _ _ _ => n < 56
  | .laneDrop n _ _ _ => n < 56
  | .laneAck n _ _ _ => n < 56
  | .widthReq n _ _ _ _ => n < 56
  | .widthAck n _ _ _ => n < 56
  | .retrainReq n _ _ _ => n < 56
  | .retrainAck n _ _ _ => n < 56
  | .rewind n _ _ _ _ => n < 56
  | .markJoin n lane _ => n < 56 && lane < laneCount n
  | .markLeave n lane _ => n < 56 && lane < laneCount n
  | .ackTimer n _ _ => n < 56
  | .creditTimer n _ _ => n < 56
  | .replayTimer n _ _ _ => n < 56
  | .requestRepeat n _ => n < 56
  | .laneCleanRun n i _ => n < 56 && i < laneCount n
  | .laneRetrainTimeout n i _ => n < 56 && i < laneCount n
  | .laneRetrainRetry n i _ => n < 56 && i < laneCount n
  | .idleAdaptation n i _ _ => n < 56 && i < laneCount n
  | .linkDown n _ _ => n < 32
  | .dlaneDrop l e _ _ _ => l < 12 && e < 2
  | .dwidthReq l e _ _ _ => l < 12 && e < 2
  | .dwidthAck l e _ _ _ => l < 12 && e < 2
  | .groupClockLost l e _ _ => l < 12 && e < 2
  | .groupHealthy l e _ _ => l < 12 && e < 2
  | .dieLinkDown l _ => l < 12
  | .dieLinkRetry l _ => l < 12
  | .guestTrain g _ _ => (g = 0 || g = 2)
  | .guestRetry g _ => (g = 0 || g = 2)
  | .guestHello g _ _ => (g = 0 || g = 2)
  | .guestRead g r => (g = 0 || g = 2) && r.met.ce.all ceFits
  | .guestWrite g _ _ => (g = 0 || g = 2)
  | .guestNotify g _ _ => (g = 0 || g = 2)
  | .guestPost g _ => (g = 0 || g = 2)
  | .lowPowerRequest g => (g = 0 || g = 2)
  | .guestLinkDown g _ => (g = 0 || g = 2)
  | .identityWrite _ => true
  | .barrierRoundComplete f bar _ => f < 16 && bar < 64
  | .tokenRepeat n _ => n < 32
  | .editionToken n _ _ _ => n < 56
  | .editionRepeat n _ => n < 32
  | .editionStalled f _ => f < 16
  | .fetch n _ _ _ => n < 56
  | .fetchAck n _ _ _ => n < 56
  | .quiesce n _ _ _ => n < 56
  | .quiesceTimeout n _ => n < 32
  | .plant n _ _ _ _ => n < 56
  | .plantTimer n _ => n < 32
  | .pairActive _ => true
  | .pairStandby _ => true
  | .pairSwap f _ => f < 16
  | .pairYield _ => true
  | .roleTimeout _ => true
  | .pairHello n _ _ _ _ _ _ => n < 56
  | .pairLevel n _ _ _ => n < 56
  | .pairImp n _ _ _ => n < 56
  | .mirrorWrite n f c _ _ _ => n < 32 && f < 16 && c < 4
  | .mirrorBases n f _ _ => n < 32 && f < 16
  | .mirrorRecord n f _ _ => n < 32 && f < 16
  | .mirrorDone n _ f _ _ => n < 56 && f < 16
  | .swapReq n _ _ _ => n < 56
  | .swapAck n _ _ _ => n < 56
  | .partnerYield _ => true
  | .livenessFail _ => true
  | .yieldComplete _ => true
  | .graceExpired f _ => f < 16
  | .standbyStale _ => true
  | .takeoverPowered _ => true
  | .takeoverProofDone _ _ => true
  | .takeoverImagesWritten _ => true
  | .takeoverPortsTimeout _ => true
  | .takeoverRelease _ => true
  | .railWindow n _ _ => n < 26
  | .mainRailFailure _ _ => true
  | .estimatorSample e _ => e.events.all fun x => x.e < 24 && x.q < 22
  | .inputMeasurement _ _ _ => true
  | .idleStepEnd f _ => f < 16
  | .pwrCtrlWrite _ => true
  | .droopTrip island _ _ => island < 20
  | .droopEventEnd island _ _ => island < 20
  | .tempSample d ts _ => d < 42 && ts.length = sensorCount d
  | .thermalDutyUpdate d _ => d < 42
  | .thermalTrip d _ => d < 42
  | .proofPhaseComplete _ _ => true
  | .stripSliceDone p strip _ _ => p < 12 && strip < 17
  | .logicSlice u _ => blockFits u
  | .coreSlice n _ => n < 16
  | .pendingFlush _ => true
  | .stackChannelRetrain m channel _ _ => m < 16 && channel < 64
  | .loopback q _ => q < 32
  | .loopbackDone _ _ _ => true
  | .clearMap => true
  | .tapReset => true
  | .tapBypass => true
  | .tapIdcode => true
  | .tapSample => true
  | .tapExtest => true
  | .tapClamp => true
  | .tapHighz => true
  | .tapSegsel _ => true
  | .auxPowerOn _ fail => fail ≤ 4
  | .stageComplete _ => true
  | .stageTimeout _ => true
  | .t0Reached _ => true
  | .railEnableStep _ _ => true
  | .hardwareReset _ _ => true
  | .resetRelease _ => true
  | .auxLoss => true
  | .railDisableStep _ => true
  | .laserOverpower n _ => n < 160
  | .laserHeartbeatMiss u _ => u < 2
  | .flashWriteComplete _ _ => true
  | .counterWriteTimeout _ => true
  | .secReady _ => true
  | .fwCommit _ => true
  | .secAttest _ => true
  | .secAlert => true
  | .keyClaim _ => true
  | .keyTransfer _ => true
  | .keyAdd _ => true
  | .keyRemove _ => true
  | .keyEpoch _ => true
  | .svReset _ _ => true
  | .svPowerOff _ _ => true
  | .svPowerOn _ _ => true
  | .svLaserOff _ _ => true
  | .coreStart n => n < 16
  | .coreRetire n => n < 16
  | .timerInterrupt n => n < 16
  | .coreAccessFault n a => n < 16 && a.addr < 2 ^ 41
  | .snapshotRead who addr _ => who ≤ 16 && addr < 2 ^ 28
  | .groupRead who addr _ => who ≤ 16 && addr < 2 ^ 28
  | .groupWrite who addr _ _ _ => who ≤ 16 && addr < 2 ^ 28
  | .unmappedAccess who addr _ => who ≤ 16 && addr < 2 ^ 28
  | .registerWrite who addr _ _ => who ≤ 16 && addr < 2 ^ 28
  | .neighbourDiscovery _ => true
  | .echoRequest _ _ _ => true
  | .duplicateAddressDetection _ => true
  | .mgtStatus _ => true
  | .mgtChallenge _ => true
  | .mgtCert _ _ _ => true
  | .mgtAttest _ _ => true
  | .regRead _ _ _ _ _ => true
  | .regWrite _ _ _ _ _ _ => true
  | .memRead _ _ _ _ _ _ met => met.ce.all ceFits
  | .memWrite _ _ _ _ _ _ => true
  | .imageBegin _ _ _ => true
  | .imageData _ _ _ => true
  | .imageEnd _ => true
  | .unitWithdrawn u _ => u < 2
  | .pairHelloTimer _ => true
  | .pairLiveRestored _ => true
  | .logicSliceDone u _ _ => blockFits u
  | .coreSliceDone n _ _ => n < 16
  | .mgtBlockLock => true
  | .mgtBlockLockLost => true
  | .otherBypassKind n _ _ _ => n < 56

end Sys2Proof
end

