-- ==== Sys2Proof/Safety.lean ====
section
/-!
DEFINITION. What claims are stated in: a command that runs to a next state, the invariant of the module's
tables and memories, and what a command leaves alone.
-/

namespace Sys2Proof.Machine

/-- Command c takes state s to state t. -/
def Runs (c : Instr) (s t : State) : Prop := exec c s = .next t

/-- The table of numbers is in its one form: no key twice, every number within its field's width, none equal
to its reset value. So equal registers are equal tables. -/
def tableWf : SMap RKey Nat → Bool
  | [] => true
  | e :: r => decide (e.2 = e.1.f.fit e.2) && decide (e.2 ≠ e.1.f.spec.reset) &&
      r.all (fun x => decide (x.1 ≠ e.1)) && tableWf r

/-- The invariant: the numbers, the module's memories and every press's case are in their one form. -/
def State.inv (s : State) : Bool :=
  tableWf s.regs && s.mem.wf && s.presses.all fun e => e.2.caseMem.wf

/-! ### What a command leaves alone -/

/-- Groups of numbers: one for each block of registers (R500), with the numbers of the block that no register
shows; time, the interrupt bits and the event bits of the cores stand apart. -/
inductive Area where
  | module | tick | imp | forme | fab | pair | pwr | thm | prf | sec | core | irq | events | mgt | cal
  | chs | gal | cmp | col | ddl | gst | prs | fin | case | oe | lnk | lsu | mem
deriving DecidableEq, Repr

/-- Group of a number. -/
def Field.area : Field → Area
  | .modIdMapVersion | .modIdPart | .modGroupMaskMask | .modUnmappedUnmapped | .modUnmappedSource
  | .modUnmappedCount | .modUnmappedWrite | .modUnmappedOffset | .modCapabilityKind | .modCapabilityDdlRev
  | .modCapabilityStepping | .modCapabilityLevel => .module
  | .modTickTick | .galCycleCycle | .hSurvTick => .tick
  | .modImpSrcAddr | .modImpLenBytes | .modImpCtrlCmd | .modImpStatusError | .modImpStatusSection
  | .modImpStatusForme | .modImpStatusVariant | .modImpStatusCmdIgnored | .modImpStatusPending
  | .modImpDetailKind | .modImpDetailUnit | .modImpDetailForm | .modImpDetailIndex
  | .modImpActiveRollbackVersion | .hImpDiscard | .hImpSwitchStep | .hSwitchTick => .imp
  | .modFormeCtrlCmd | .modFormeStatusParkReason | .modFormeStatusCause | .modFormeStatusVariant
  | .modFormeStatusLate | .modFormeStatusReplay | .modFormeStatusSwitchPending | .modFormeStatusState
  | .modFormeEditionEdition | .modFormeCommitTickTick | .modFormeCountsLateSteps | .modFormeCountsAbandons
  | .modFormeCountsVariantChanges | .modFormeStepQ | .hFormeAbandoned | .hFormeAbTick | .hFormeHoldPend
  | .hFormeParkPend | .hFormeParkReplay | .hFormeHoldTick | .hFormeStartTick | .hFormeResumeTick | .hFormeJobTable | .hFormeParkTick | .hFormeResumePend | .hFormeStartPend | .hFormeCausePend | .hFormeErrPort | .hFormeCkptPend | .hFormeRelTick | .hFormeStepRun | .hFormeNextQ | .hFormeEdQ
  | .hFormeMirrorDone | .hFormeRewrite | .hFormeReady | .hFormeRelCycle | .hFormeMirrorSent
  | .hFormePreSent | .hFormePreDone | .hFormeWaitTick | .hFormeRouteBack | .hFormeLateStep
  | .hFormeDoneTick | .hFormePtTick | .hFormeIdle | .hFormeStormPend | .hFormeStormPoint | .hFormeStormTick
  | .hFormeActSum | .hFormeActNum | .hFormeStallMax | .hFormeStallBudget => .forme
  | .fabIdentityWriteRefused | .fabIdentityIdentity | .fabStatusEditionStalled | .fabStatusState
  | .fabCountsRelayed | .fabCountsStale | .fabCountsQuiesceTimeouts | .fabEditionWaitTicks
  | .fabPortPeerEdition | .fabPortQuiesced | .fabPortFetchPending | .fabPortPlantFault
  | .fabPortPlantWavelength | .fabPortPlantExcess | .fabPortRetained | .hFabEdition => .fab
  | .pairStatusLiveIn | .pairStatusYielded | .pairStatusMember | .pairStatusRoleRefused
  | .pairStatusProtection | .pairStatusPartnerRole | .pairStatusYieldCause | .pairStatusPending
  | .pairStatusRole | .pairCtrlCmd | .pairCountsUnprotectedCommits | .pairCountsDeltaResends
  | .pairCountsResyncs | .pairCountsBadWrites | .pairTakeoverTicks | .pairTakeoverResult | .pairFormeSync
  | .pairFormePairPort | .pairFormeEdition | .hPairGraceOver | .hPairResyncDue | .hPairPortGone | .hFormePreCount | .hPairLevel | .hPairImp
  | .hPairPartnerResync | .hPairPartnerMember | .hPairHelloSeen | .hPairLevelSeen | .hPairImpSeen
  | .hPairSwapEdition | .hPairSwapAcked | .hPairYieldTick | .hPairPhase => .pair
  | .pwrCtrlFixed | .pwrCtrlFixedPoint | .pwrCtrlBoost | .pwrCtrlCap | .pwrStatusCapUnmet
  | .pwrStatusCapExceeded | .pwrStatusEstDrift | .pwrStatusInputFault | .pwrStatusState | .pwrStatusInputDv
  | .pwrStatusInputW | .pwrStatusEstW | .pwrStatusHoldW | .pwrFormePoint | .pwrFormeFloor
  | .pwrFormeStallTicks | .pwrFormeIdleSteps | .pwrFormePointChanges | .pwrRailState | .pwrRailDroopStorm
  | .pwrRailLimitEvents | .pwrRailDroopEvents | .pwrRailCurrent | .pwrEnergyEnergy | .pwrWeightWeight
  | .hPwrEnergyRem | .hPwrDriftTick | .hDroopRun | .hPwrUp | .hPwrOffStep | .hPwrOnStep => .pwr
  | .thmStatusTrip | .thmStatusThrottle | .thmStatusTripDomain | .thmStatusBand | .thmStatusTemp
  | .thmDomainBand | .thmDomainSensor | .thmDomainPeak | .thmDomainBandChanges | .thmDomainTemp | .hThmSeen
  | .hThmCool | .hThmDuty => .thm
  | .prfResultState | .prfResultPhase | .prfResultKind | .prfResultUnit | .prfResultCause
  | .prfResultMapRebuilt | .prfResultNewEntries | .prfResultEntries | .prfCtrlPort | .prfCtrlCmd
  | .prfMapGeneration | .prfMapWriteFail | .prfMapPendingDropped | .prfMapPending | .prfMapScanRefused
  | .prfMapUnwritten | .prfLoopbackBusy | .prfLoopbackRefused | .prfLoopbackPort | .prfLoopbackErrors
  | .prfLoopbackPassed | .prfPressSlicePassed | .prfPressLastFail | .prfPressFails | .prfPressRounds
  | .hMapFirstTick | .hMapClear | .hTapIr | .hTapSeg | .hTapUsed => .prf
  | .secStatusState | .secStatusFailCause | .secStatusResetRefused | .secStatusCmdRefused | .secStatusOwner
  | .secStatusAlertMask | .secStatusAlerts | .secStatusKeys | .secCtrlCmd | .secReqAddrAddr
  | .secReqStatusBusy | .secReqStatusResult | .secCounterValue | .secEventsShutdownFirst
  | .secEventsShutdownMask | .secEventsResetFirst | .secEventsResetMask | .hTimeBase | .hPinReady
  | .hPinYieldLive | .hIslandHot | .hIslandTemp | .hStrap | .hStage | .hChallenge | .hPinReset
  | .hPinAuxGood | .hPinTrip | .hPinAlert | .hBootCore | .hBootSlot | .hHeartMiss | .hOverPower
  | .hFlashGen => .sec
  | .coreStatusMismatch | .coreStatusState | .coreCtrlSRead | .coreCtrlSwi | .coreCtrlCmd | .coreFaultCause
  | .coreFaultAddress | .coreTimecmpCompare | .coreIrqRouteEnable | .coreIrqRouteSupervisor
  | .coreIrqRouteTarget | .coreIrqPendingLevel | .hCoreMtip => .core
  | .coreIrqRouteRerouted | .hCoreMeip | .hCoreSeip => .irq
  | .coreIrqEventsCommit | .coreIrqEventsCoreFail | .coreIrqEventsProof | .coreIrqEventsLink
  | .coreIrqEventsBand | .coreIrqEventsPair | .coreIrqEventsImp => .events
  | .mgtStatusMismatch | .mgtStatusAddrConflict | .mgtStatusLinkUp | .mgtStatusQueued | .mgtCountsReceived
  | .mgtCountsDropped | .mgtCountsAuthRefused | .mgtCountsBusy | .mgtMacMac => .mgt
  | .calRecLastTick | .calRecRuns | .calRecFailures | .calRecResult => .cal
  | .chsCapabilityKind | .chsCapabilityDdlRev | .chsCapabilityStepping | .chsCapabilityLevel => .chs
  | .galStatusUe | .galStatusCe | .galStatusLateTransfer | .galStatusRetainHigh | .galStatusRetainLost
  | .galEccAddrRequester | .galEccAddrSched | .galEccAddrLine | .galEccAddrWord | .galCeCountCount
  | .galPhaseMapForme | .galArbCountsGrants | .galArbCountsPromotions | .galRangeValid | .galRangeAttr
  | .galRangeForme | .galRangeFirstLine | .galRangeLinesM1 | .hGalRefusals | .hGalScrubLine => .gal
  | .cmpStatusBusy | .cmpStatusIdxRange | .cmpStatusSpill | .cmpStatusLate | .cmpStatusJob
  | .cmpNumFlagsNanIn | .cmpNumFlagsNanMade | .cmpNumFlagsOverflow | .cmpNumFlagsSaturated
  | .cmpNumFlagsUnderflow | .cmpLookupCountLookups | .cmpExceptCountsNull | .cmpExceptCountsOutOfRange => .cmp
  | .colStatusBusy | .colStatusDupTerm | .colStatusSpill | .colStatusLinkError | .colStatusLate
  | .colStatusRouteRange | .colStatusBadNode | .colStatusActive | .colStatusJob | .colNumFlagsNanIn
  | .colNumFlagsNanMade | .colNumFlagsA56Overflow | .colNumFlagsOverflow | .colNumFlagsSaturated
  | .colNumFlagsUnderflow | .colMoeCountsRerouted | .colMoeCountsDropped | .colMoeCountsOverflowed => .col
  | .ddlStatusGroupsOk | .ddlStatusSparesUsed | .ddlStatusRev | .ddlStatusWidth | .ddlStatusMinWidth
  | .ddlStatusState | .ddlErrCountsBlockErrors | .ddlErrCountsResends | .ddlErrCountsRetires
  | .ddlErrCountsWidthChanges => .ddl
  | .gstStatusDownSeen | .gstStatusErrorSent | .gstStatusRate | .gstStatusHalfWidth | .gstStatusMsgLevel
  | .gstStatusState | .gstCapabilityKind | .gstCapabilityDdlRev | .gstCapabilityStepping
  | .gstCapabilityLevel | .gstNotifyValue | .gstPostValue | .gstCountsRequests | .gstCountsErrors
  | .gstCountsDowns | .hGstNotifyHeld => .gst
  | .prsStatusDepth | .prsStatusEccUncorrected | .prsStatusState | .prsStripMapStripFailed
  | .prsBusyCyclesBusy | .prsStallCountsBondWait | .prsStallCountsShadowWait | .prsStallCountsCarryWait
  | .prsStallCountsCaseConflict | .prsSeqStatusIllegal | .prsSeqStatusIstoreUe | .prsSeqStatusPc
  | .prsSeqStatusForm | .prsSeqStatusHold | .prsSeqStatusTokens | .prsSeqWaitsTokenWait
  | .prsSeqWaitsQueueWait | .prsSeqWaitsBarrierWait | .prsSeqWaitsFenceWait | .prsStepCountSteps
  | .prsIstoreEccUe | .prsIstoreEccCe | .prsIstoreEccCeCount | .prsIstoreEccHalfAddr | .prsCapabilityKind
  | .prsCapabilityDdlRev | .prsCapabilityStepping | .prsCapabilityLevel | .hPrsStepped | .hPrsFailPend
  | .hPrsScrubLine | .hPrsStall | .hPrsParity => .prs
  | .finNumFlagsNanIn | .finNumFlagsNanMade | .finNumFlagsNavBlock | .finNumFlagsA56Overflow
  | .finNumFlagsSaturated | .finNumFlagsUnderflow | .finNumFlagsBf16Truncated => .fin
  | .caseEccStatusUe | .caseEccStatusCe | .caseEccStatusWordAddr | .caseCeCountCount => .case
  | .oeStatusBand | .oeStatusRoute | .oeStatusFibresLit | .oeStatusSteering | .oeStatusShutdown
  | .oeStatusState | .oeCalCtrlMode | .oeCalCtrlDelta | .oeFibreStatusRetired | .oeFibreStatusSpareLane
  | .oeFibreStatusSpareUse | .oeFibreStatusLevel | .oeFibreStatusCalDue | .oeRingSuspect | .oeRingState
  | .oeRingTone | .oeRingMislocks | .oeRingLockCode | .oeRingBias | .oeRingDrive | .oeXtalkNbr
  | .oeXtalkCoef | .oeMonS2 | .oeMonS4 | .oeMonS5 | .oeMonS6 | .oeSrcMonS1B | .oeSrcMonS1A
  | .oeLossFaultValid | .oeLossFaultExcess | .oeLossFaultElement | .oeLossFaultBank | .oeLossFaultDir
  | .oeLossFaultWavelength | .oeRouteSteers | .oeRouteNext | .oeRouteCurrent | .oeCalEventsPreempted
  | .oeCalEventsThirdRuns | .oeCalEventsFailed | .oeCalEventsMislocks | .oeCapabilityKind
  | .oeCapabilityDdlRev | .oeCapabilityStepping | .oeCapabilityLevel | .hOeCalMode | .hOeContNext | .hLsuSel | .hOeHoldEnd | .hOeCalTemp | .hOeRecover | .hOeSpareGone | .hLnkEmph | .hOeSteerCode | .hOeSelCode
  | .hOeFailed | .hOeLost => .oe
  | .lnkStatusTxMask | .lnkStatusRxMask | .lnkStatusAttempts | .lnkStatusClockOk | .lnkStatusLastDown
  | .lnkStatusState | .lnkCtrlCmd | .lnkPeerModule | .lnkPeerPort | .lnkPeerRtt | .lnkPeerReplayTimer
  | .lnkCreditVc2 | .lnkCreditVc1 | .lnkCreditVc0 | .lnkErrCountsBlockErrors | .lnkErrCountsCrcErrors
  | .lnkErrCountsResends | .lnkErrCountsLaneDrops | .lnkEventsDowns | .lnkEventsAbsent
  | .lnkEventsWithdrawals | .lnkEventsRetires | .lnkTxSeqBase | .lnkTxSeqNext | .lnkTxSeqUnacked
  | .lnkRxSeqBase | .lnkRxSeqExpected | .lnkRxSeqDuplicates | .lnkLaneState | .lnkLaneAdapt
  | .lnkLaneErrors | .lnkLaneRetrainFails | .lnkLaneIdleRun | .hLnkOther | .hLnkDarkEnd | .hLnkBypRun | .hLnkTrainIdx | .hLnkScramble => .lnk
  | .lsuStatusPresentB | .lsuStatusBoltedB | .lsuStatusCoverOkB | .lsuStatusRefusedB | .lsuStatusNoTwinB
  | .lsuStatusStateB | .lsuStatusPresent | .lsuStatusBolted | .lsuStatusCoverOk | .lsuStatusRefused
  | .lsuStatusNoTwin | .lsuStatusState | .lsuCtrlUnit | .lsuCtrlCmd | .lsuFadeCountsWatch
  | .lsuFadeCountsPrepare | .lsuFadeCountsSwap | .lsuFadeCountsSudden | .lsuLaserRole | .lsuLaserStage
  | .lsuLaserLit | .lsuLaserBanks | .lsuLaserOutput | .lsuLaserBias | .lsuLaserRate => .lsu
  | .memStatusUe | .memStatusCe | .memStatusScrubLate | .memStatusBand | .memStatusRefreshMult
  | .memStatusState | .memEccAddrChannel | .memEccAddrBank | .memEccAddrRow | .memEccAddrBurst
  | .memEccAddrSymbols | .memCeCountCount | .memActCountActivates | .memRegionValid | .memRegionAttr
  | .memRegionMode | .memRegionForme | .memRegionFirstBand | .memRegionBandsM1 | .hMemChanBand
  | .hMemRefreshBank | .hMemPatrol => .mem

/-- The parts of the state beside its numbers. The numbers of the galley cycle before (R13) follow time and the
events of the cycle, and are named in no footprint. -/
inductive Part where
  | mem | presses | active | loaded | pendingBytes | jobs | lateXfers | heldAccs | drains | dirtyOut
  | dirtyShared | mirrorGot | bases | mgtLast | log | calJobs | calRuns | calFails | ringErr | mislocks | swaps
  | spareNeeds | arrivals | barDone | barSent | tokens | links | repairMap | ceLog | samples | idleDebt
  | droops | flashQ | keys | images | flashMap | image | upload | snaps | badWords | relays | early | mgtJobs | moe
  | cache | fades | dropped | out | freeCount | pending
deriving DecidableEq, Repr

/-- Two states agree on a part. -/
def Part.same (q : Part) (s t : State) : Prop :=
  match q with
  | .mem => t.mem = s.mem
  | .presses => t.presses = s.presses
  | .active => t.active = s.active
  | .loaded => t.loaded = s.loaded
  | .pendingBytes => t.pendingBytes = s.pendingBytes
  | .jobs => t.jobs = s.jobs
  | .lateXfers => t.lateXfers = s.lateXfers
  | .heldAccs => t.heldAccs = s.heldAccs
  | .drains => t.drains = s.drains
  | .dirtyOut => t.dirtyOut = s.dirtyOut
  | .dirtyShared => t.dirtyShared = s.dirtyShared
  | .mirrorGot => t.mirrorGot = s.mirrorGot
  | .bases => t.bases = s.bases
  | .mgtLast => t.mgtLast = s.mgtLast
  | .log => t.log = s.log
  | .calJobs => t.calJobs = s.calJobs
  | .calRuns => t.calRuns = s.calRuns
  | .calFails => t.calFails = s.calFails
  | .ringErr => t.ringErr = s.ringErr
  | .mislocks => t.mislocks = s.mislocks
  | .swaps => t.swaps = s.swaps
  | .spareNeeds => t.spareNeeds = s.spareNeeds
  | .arrivals => t.arrivals = s.arrivals
  | .barDone => t.barDone = s.barDone
  | .barSent => t.barSent = s.barSent
  | .tokens => t.tokens = s.tokens
  | .links => t.links = s.links
  | .repairMap => t.repairMap = s.repairMap
  | .ceLog => t.ceLog = s.ceLog
  | .samples => t.samples = s.samples
  | .idleDebt => t.idleDebt = s.idleDebt
  | .droops => t.droops = s.droops
  | .flashQ => t.flashQ = s.flashQ
  | .keys => t.keys = s.keys
  | .images => t.images = s.images
  | .flashMap => t.flashMap = s.flashMap
  | .image => t.image = s.image
  | .upload => t.upload = s.upload
  | .snaps => t.snaps = s.snaps
  | .badWords => t.badWords = s.badWords
  | .relays => t.relays = s.relays
  | .early => t.early = s.early
  | .mgtJobs => t.mgtJobs = s.mgtJobs
  | .moe => t.moe = s.moe
  | .cache => t.cache = s.cache
  | .fades => t.fades = s.fades
  | .dropped => t.dropped = s.dropped
  | .out => t.out = s.out
  | .freeCount => t.freeCount = s.freeCount
  | .pending => t.pending = s.pending

/-- From s to t nothing changes but numbers of the groups and the parts listed. -/
def touches (as : List Area) (ps : List Part) (s t : State) : Prop :=
  (∀ f i j, f.area ∉ as → t.rd f i j = s.rd f i j) ∧ ∀ q, q ∉ ps → q.same s t

/-- From s to t nothing changes but the numbers and the parts listed. -/
def changes (fs : List Field) (ps : List Part) (s t : State) : Prop :=
  (∀ f i j, f ∉ fs → t.rd f i j = s.rd f i j) ∧ ∀ q, q ∉ ps → q.same s t

/-- From s to t nothing changes but the numbers listed, the parts listed, and what press p holds. -/
def onlyPress (fs : List Field) (ps : List Part) (p : Nat) (s t : State) : Prop :=
  changes fs (.presses :: ps) s t ∧ ∀ q, q ≠ p → t.press q = s.press q

/-- Fields that time alone moves (R3, R141, R450). -/
def timeFields : List Field := [.modTickTick, .galCycleCycle, .hSurvTick]

/-- Fields that the delivery of interrupts alone moves (R483). -/
def irqFields : List Field := [.hCoreMeip, .hCoreSeip, .coreIrqRouteRerouted]

/-! ### Press instructions -/

/-- Press p runs, and unit u can take one more instruction, whose token is there (R104, R107, R108). -/
def canDispatch (s : State) (p : Nat) (k : Tok) (u : Nat) : Prop :=
  p < 12 ∧ s.pState p = pActive ∧ (k.wen = true → (s.press p).token k.wtok ≠ 0) ∧ s.unitFull p u = false

/-- Fields that a dispatch moves: the program counter and the reason of a hold. -/
def seqFields : List Field := [.prsSeqStatusPc, .prsSeqStatusHold]

/-- The sticky flags of a press (R68). -/
def finFields : List Field :=
  [.finNumFlagsNanIn, .finNumFlagsNanMade, .finNumFlagsNavBlock, .finNumFlagsA56Overflow,
    .finNumFlagsSaturated, .finNumFlagsUnderflow, .finNumFlagsBf16Truncated]

/-- A press as an instruction of a unit finds it at its start: the token waited on is taken, and the
instruction stands in the unit's queue; one of SEQ has signalled its token (R107, R108, R112). -/
def entered (s : State) (p : Nat) (k : Tok) (u : Nat) : Press := (s.issued p k u).press p

/-- A press whose instruction took it from s to x, moved past it: loops that end there go round or are left
(R108, R119). -/
def movedOn (s : State) (p : Nat) (x : Press) : Press :=
  let e := loopEnd (s.rd .prsSeqStatusPc p 0 + 1) x.idx x.frames
  { x with idx := e.2.1, frames := e.2.2 }

/-- The program counter after the instruction at the present one, by the rules of loops (R108, R119). -/
def nextPc (s : State) (p : Nat) (x : Press) : Nat :=
  (loopEnd (s.rd .prsSeqStatusPc p 0 + 1) x.idx x.frames).1 % 2 ^ 14

/-- A token after an instruction of SEQ: its wait takes one, its signal, at once, adds one, up to 255
(R108, R112). -/
def tokenAfter (x : Press) (k : Tok) (n : Nat) : Nat :=
  let a := if k.wen && k.wtok = n then x.token n - 1 else x.token n
  if k.sen && k.stok = n then min 255 (a + 1) else a

end Sys2Proof.Machine
end

