-- ==== Sys2Proof/Claims.lean ====
section
/-!
DEFINITION. Terms of the statements: a press instruction run to its end, and a lane operation.
-/

namespace Sys2Proof.Machine

/-- Instruction c of press p runs from s: the press then holds x, moved past the instruction; the program
counter and the reason of a hold follow; Q holds of the state after; and beside the fields fs and the parts ps
nothing else changes (R107, R108, R119). -/
def pressEnds (c : Instr) (fs : List Field) (ps : List Part) (p : Nat) (s : State) (x : Press)
    (Q : State → Prop) : Prop :=
  ∃ t, Runs c s t ∧ t.press p = movedOn s p x ∧ t.rd .prsSeqStatusPc p 0 = nextPc s p x ∧
    t.rd .prsSeqStatusHold p 0 = 0 ∧ Q t ∧ onlyPress (seqFields ++ fs) ps p s t

/-- Fields that a word of the case read with a corrected error moves (R97, R441). -/
def ceFields : List Field :=
  [.caseEccStatusWordAddr, .caseEccStatusCe, .caseCeCountCount, .prfMapPendingDropped, .prfMapUnwritten,
    .hMapFirstTick, .prfResultEntries, .prfMapPending]

/-- Counts of cycles that an array instruction moves (R78, R87, R96, R105; log entry 37). -/
def arrWaits : List Field :=
  [.prsBusyCyclesBusy, .prsStallCountsCaseConflict, .prsStallCountsShadowWait, .prsStallCountsCarryWait]

/-- An instruction of press p that reads the case runs to its end, whatever words the reads find corrected:
each counts (R97). -/
def pressReads (c : List Nat → Instr) (fs : List Field) (ps : List Part) (p : Nat) (s : State) (x : Press)
    (Q : State → Prop) : Prop :=
  pressEnds (c []) fs ps p s x Q ∧
  ∀ w ce, pressEnds (c (w :: ce)) (ceFields ++ fs) (.ceLog :: .repairMap :: .freeCount :: ps) p s x fun t =>
    Q t ∧ t.rd .caseEccStatusCe p 0 = 1 ∧
      t.rd .caseCeCountCount p 0 = min (2 ^ 32 - 1) (s.rd .caseCeCountCount p 0 + (w :: ce).length)

/-- Instruction c of press p is held from s for the reason of a code: it shows in PRS_SEQ_STATUS and one cycle
counts in PRS_SEQ_WAITS, up to 65,535; nothing else changes (R107, R108). -/
def heldFor (c : Instr) (code p : Nat) (s : State) : Prop :=
  ∃ t, Runs c s t ∧ t.rd .prsSeqStatusHold p 0 = code ∧
    t.rd (holdField code) p 0 = min 65535 (s.rd (holdField code) p 0 + 1) ∧
    changes [.prsSeqStatusHold, holdField code] [] s t

/-- Instruction c of press p is an illegal word: illegal is set, the press is PARKED, and what it computes
on is as it was (R139). -/
def illegalRuns (c : Instr) (p : Nat) (s : State) : Prop :=
  ∃ t, Runs c s t ∧ t.rd .prsSeqStatusIllegal p 0 = 1 ∧ t.pState p = pParked ∧
    (t.press p).caseMem = (s.press p).caseMem ∧ (t.press p).vregs = (s.press p).vregs ∧
    (t.press p).masks = (s.press p).masks ∧ (t.press p).live = (s.press p).live ∧ t.mem = s.mem

/-- Forme f, which ran or closed its edition in s with the commit not yet due, abandons it in t for the cause; where
the commit is due, the forme stays CLOSING and a cause waits, the lower code of two (R6, R231 to R233). -/
def abandoned (f cause : Nat) (s t : State) : Prop :=
  (s.fState f = fRunning ∨ s.fState f = fClosing →
    s.commitDue f = false → t.fState f = fAbandoning ∧ t.rd .modFormeStatusCause 0 f = cause ∧
      t.rd .modFormeCountsAbandons 0 f = min 65535 (s.rd .modFormeCountsAbandons 0 f + 1)) ∧
    (s.commitDue f = true → t.fState f = fClosing ∧ t.rd .hFormeCausePend 0 f ≠ 0 ∧
      t.rd .hFormeCausePend 0 f ≤ cause)

/-- Command c does nothing in s but let time pass (log entry 2). -/
def quietly (c : Instr) (s : State) : Prop := ∃ t, Runs c s t ∧ changes timeFields [] s t

/-- Link end n, with no request outstanding in s, has the request of this kind and arg outstanding in t
(R311). -/
def asked (n kind arg : Nat) (s t : State) : Prop :=
  (s.link n).request = none → (t.link n).request.map (fun r => (r.kind, r.arg)) = some (kind, arg)

/-- The record of the blocks that carry what a lane sends. -/
def Out.isBlocks : Out → Bool
  | .blocks .. => true
  | _ => false

/-- What was sent, the newest first, without the blocks that carry it. -/
def State.told (s : State) : List Out := s.out.filter fun o => !o.isBlocks

/-- A press instruction's press, its tokens and its unit (R107, R111). -/
def onPress : Instr → Option (Nat × Tok × Nat)
  | .nop p k => some (p, k, uSeq)
  | .loop p k _ _ _ => some (p, k, uSeq)
  | .seta p k _ _ => some (p, k, uSeq)
  | .srk p k _ _ => some (p, k, uSeq)
  | .stepEnd p k => some (p, k, uSeq)
  | .bsig p k _ => some (p, k, uSeq)
  | .bwait p k _ => some (p, k, uSeq)
  | .fence p k _ => some (p, k, uSeq)
  | .ramp p k _ => some (p, k, uArr)
  | .wload p k _ _ => some (p, k, uShd)
  | .bias p k _ _ _ => some (p, k, uArr)
  | .pass p k _ _ _ => some (p, k, uArr)
  | .drain p k _ => some (p, k, uArr)
  | .fadd p k _ => some (p, k, uFin)
  | .fsub p k _ => some (p, k, uFin)
  | .fmul p k _ => some (p, k, uFin)
  | .ffma p k _ => some (p, k, uFin)
  | .fmin p k _ => some (p, k, uFin)
  | .fmax p k _ => some (p, k, uFin)
  | .fcmp p k _ => some (p, k, uFin)
  | .fsel p k _ => some (p, k, uFin)
  | .fmov p k _ => some (p, k, uFin)
  | .fmsk p k _ => some (p, k, uFin)
  | .fcvt p k _ => some (p, k, uFin)
  | .frcp p k _ => some (p, k, uFin)
  | .frsq p k _ => some (p, k, uFin)
  | .fexp p k _ => some (p, k, uFin)
  | .flog p k _ => some (p, k, uFin)
  | .frsum p k _ => some (p, k, uFin)
  | .frmax p k _ => some (p, k, uFin)
  | .frmin p k _ => some (p, k, uFin)
  | .fld p k _ _ => some (p, k, uFin)
  | .fst p k _ => some (p, k, uFin)
  | .cmov p k _ _ => some (p, k, uFin)
  | .gload p k _ _ => some (p, k, uBin)
  | .gstore p k _ _ => some (p, k, uBout)
  | _ => none

/-- Lane n of the destination after a lane operation on the sources: the operation on the lanes' FP32 values,
rounded once, where the mask enables the lane; else as it was (R64, R132). -/
def laneValue (x : Press) (f : FinF) (srcs : List (List Nat)) (op : List FVal → FVal) (n : Nat) : Nat :=
  if x.laneOn f n then fp32Of (op (srcs.map fun l => fp32Val (l.getD n 0))) else (x.vreg f.vd).getD n 0

/-- A field after an event that can raise it: one where it was one or the event came (R68). -/
def sticky (f : Field) (p : Nat) (s t : State) (e : Prop) : Prop :=
  t.rd f p 0 = 1 ↔ s.rd f p 0 = 1 ∨ e

/-- Lane n is enabled and some source has a NaN there. -/
def laneNan (x : Press) (f : FinF) (srcs : List (List Nat)) (n : Nat) : Prop :=
  x.laneOn f n = true ∧ ∃ l ∈ srcs, (fp32Val (l.getD n 0)).isNaN = true

/-- Lane n is enabled, no source has a NaN there, and the result is one. -/
def laneMade (x : Press) (f : FinF) (srcs : List (List Nat)) (op : List FVal → FVal) (n : Nat) : Prop :=
  x.laneOn f n = true ∧ (∀ l ∈ srcs, (fp32Val (l.getD n 0)).isNaN = false) ∧
    (op (srcs.map fun l => fp32Val (l.getD n 0))).isNaN = true

/-- Finisher instruction c writes a lane operation's result to vd, pops the rings that it names, and raises
the NaN flags of the enabled lanes, and nothing else but the finisher's busy cycles, a free value (R68, R92,
R105, R130, R132; log entry 37). -/
def laneRuns (c : Instr) (p : Nat) (k : Tok) (f : FinF) (s : State) (srcs : List (List Nat))
    (op : List FVal → FVal) : Prop :=
  let x := entered s p k uFin
  pressEnds c [.finNumFlagsNanIn, .finNumFlagsNanMade, .prsBusyCyclesBusy] [.freeCount] p s
    (({ x with vregs := x.vregs.put f.vd ((List.range 512).map (laneValue (s.press p) f srcs op)) }).pops f)
    fun t =>
      sticky .finNumFlagsNanIn p s t (∃ n, n < 512 ∧ laneNan (s.press p) f srcs n) ∧
      sticky .finNumFlagsNanMade p s t (∃ n, n < 512 ∧ laneMade (s.press p) f srcs op n)

end Sys2Proof.Machine
end

