-- ==== Sys2Proof/Certificates/Slice0/Obligations.lean ====
section
/-!
DEFINITION. The statements for the provers.
-/

open Sys2Proof Sys2Proof.Machine

/-- The queue is the model's own interface to the commands (log entry 2): where command c stands at its front, a
step is exec of c on the state whose queue is the rest. (00_scope_and_conventions.md) -/
def Obligations.StepRunsFrontCommand : Prop :=
  ∀ (c : Instr) (rest : List Instr) (s : State), s.pending = c :: rest →
    step s = exec c { s with pending := rest }

/-- The model's choice of log entry 2: with no command waiting a step is one tick. Where the time base is on,
MOD_TICK and the galley cycle of every chase advance by one modulo 2^64; where it is off they stand still.
Beside the time fields and the fields that interrupt delivery alone moves, the whole state is as before.
(00_scope_and_conventions.md, R3, R5, R141, R450, R483) -/
def Obligations.IdleModuleTicks : Prop :=
  ∀ s : State, s.pending = [] → ∃ t, step s = .next t ∧
    (s.on .hTimeBase 0 0 = true → t.now = (s.now + 1) % 2 ^ 64 ∧
      ∀ c, c < 4 → t.rd .galCycleCycle c 0 = (s.rd .galCycleCycle c 0 + 1) % 2 ^ 64) ∧
    (s.on .hTimeBase 0 0 = false → t.now = s.now ∧
      ∀ c, t.rd .galCycleCycle c 0 = s.rd .galCycleCycle c 0) ∧
    changes (timeFields ++ irqFields) [] s t

/-- At reset the table of numbers, the module's memories and every press's case are in their one form, and no
command waits. (00_scope_and_conventions.md, R6) -/
def Obligations.ResetHasInvariant : Prop :=
  State.reset.inv = true ∧ State.reset.pending = []

/-- From every state with the invariant, whatever command stands at the front of its queue, a step that answers a
next state answers one with the invariant: no number has two entries, each fits the width of its register
field and is not listed at its reset value, and the byte memories of the module and of every press list rising
addresses and no byte that reads as blank. (00_scope_and_conventions.md, R9, R94, R142, R475, R500) -/
def Obligations.StepKeepsInvariant : Prop :=
  ∀ s t : State, s.inv = true → step s = .next t → t.inv = true

/-- No command is refused. A command whose operands lie within the module runs to a next state from every state,
but for a press instruction whose effective line addresses lie outside the case or the galley, which is a
fault; a press instruction alone can end so. The queue is the model's own (log entry 2). Every command that
runs to a next state leaves it as it was, so commands run in the order in which they were put. The hardware
has no command for a unit that it does not have; the model stops with a fault of that name. Shown for one
command or more of each kind of unit: presses from 12, chases from 4, optical engines from 8, lasers from 160,
link ends from 56, ports from 32, die links from 12, guest sites other than those of chases 0 and 2, formes
from 16, stacks from 16, cores from 16 and rails from 26. (R14, R94, R142, 00_scope_and_conventions.md) -/
def Obligations.CommandsRunOrFault : Prop :=
  ((∀ (c : Instr) (s : State),
      (∀ r, exec c s ≠ .refused r) ∧
      (c.wf = true → onPress c = none → ∃ t, Runs c s t) ∧
      (c.wf = true → onPress c ≠ none → (∃ t, Runs c s t) ∨ exec c s = .fault .noSuchLine) ∧
      (exec c s = .fault .noSuchLine → onPress c ≠ none)) ∧
   (∀ (c : Instr) (s t : State), Runs c s t → t.pending = s.pending)) ∧
  (∀ (s : State) (n t : Nat),
     (12 ≤ n → (∀ k, exec (.nop n k) s = .fault .noSuchUnit) ∧ exec (.arrayGate n) s = .fault .noSuchUnit ∧
       exec (.pressLost n t) s = .fault .noSuchUnit) ∧
     (4 ≤ n → (∀ ce, exec (.windowFetch n ce) s = .fault .noSuchUnit)) ∧
     (8 ≤ n → (∀ v, exec (.oeCalCtrlWrite n v) s = .fault .noSuchUnit)) ∧
     (160 ≤ n → exec (.watchClear n t) s = .fault .noSuchUnit) ∧
     (56 ≤ n → exec (.alignComplete n t) s = .fault .noSuchUnit) ∧
     (32 ≤ n → exec (.poll n t) s = .fault .noSuchUnit ∧ exec (.retrain n t) s = .fault .noSuchUnit) ∧
     (12 ≤ n → exec (.dieLinkDown n t) s = .fault .noSuchUnit) ∧
     (n ≠ 0 ∧ n ≠ 2 → exec (.guestRetry n t) s = .fault .noSuchUnit) ∧
     (16 ≤ n → exec (.formeHold n t) s = .fault .noSuchUnit ∧ exec (.scrubLate n t) s = .fault .noSuchUnit ∧
       exec (.coreStart n) s = .fault .noSuchUnit) ∧
     (26 ≤ n → ∀ c, exec (.railWindow n c t) s = .fault .noSuchUnit))

/-- Where the press is ACTIVE, the token waited on is there and the unit has room, each of the five runs: the wait
takes its token and an instruction of SEQ signals at once; NOP does nothing more; SETA sets the address
register, SRK the key register; LOOP starts countM1 + 1 trips over the bodyM1 + 1 instructions that follow
with its index at 0; RAMP sets the gating mode, WARM ungating the array and GATE gating it at once where ARR
and SHD were empty. The program counter moves past the instruction or, at the end of a loop's body, back to
its start. Beside the press and its program counter and hold nothing changes (RAMP takes one free value, log
entry 9). For each of the 36 press instructions: where the press is not ACTIVE the instruction does nothing.
Where it is ACTIVE and the instruction waits on a token that stands at 0, or waits on none and its unit holds
16 not yet started (beside the one that it runs a free value of those behind it have started, log entry 9), a
next state has the program counter as before and shows the hold, code 1 for the token and 2 for the queue,
unless the word is illegal, which sets illegal. (R107, R108, R112, R114, R119, R120, R121, R125, R104, R139) -/
def Obligations.PressControl : Prop :=
  (∀ (s : State) (p : Nat) (k : Tok),
     (canDispatch s p k uSeq →
       let x := entered s p k uSeq
       let pc := s.rd .prsSeqStatusPc p 0
       (∀ n, x.token n = tokenAfter (s.press p) k n) ∧
       pressEnds (.nop p k) [] [] p s x (fun t => (t.press p).caseMem = (s.press p).caseMem) ∧
       (∀ ad a, pressEnds (.seta p k ad a) [] [] p s { x with ads := x.ads.put ad a }
         fun t => (t.press p).ad ad = a ∧ ∀ b, b ≠ ad → (t.press p).ad b = (s.press p).ad b) ∧
       (∀ key a, pressEnds (.srk p k key a) [] [] p s { x with keys := x.keys.put key a }
         fun t => (t.press p).key key = a ∧ ∀ b, b ≠ key → (t.press p).key b = (s.press p).key b) ∧
       ∀ level countM1 bodyM1, pressEnds (.loop p k level countM1 bodyM1) [] [] p s
         { x with frames := ⟨level, countM1 + 1, pc + 1, pc + 1 + bodyM1 + 1⟩ :: x.frames,
                  idx := x.idx.put level 0 }
         fun t => (t.press p).index level = 0) ∧
     (canDispatch s p k uArr → ∀ mode,
       let x := entered s p k uArr
       pressEnds (.ramp p k mode) [] [.freeCount] p s
         { x with
           rampMode := mode,
           gated := if mode = 2 then false else if mode = 3 then x.gated || x.arrayIdle else x.gated }
         fun t => (t.press p).rampMode = mode)) ∧
  (∀ (c : Instr) (p u : Nat) (k : Tok) (s : State), onPress c = some (p, k, u) → p < 12 →
     (s.pState p ≠ pActive →
       Runs c s s) ∧
     (s.pState p = pActive → ∀ t, Runs c s t →
       (k.wen = true → (s.press p).token k.wtok = 0 →
         t.rd .prsSeqStatusPc p 0 = s.rd .prsSeqStatusPc p 0 ∧
         (t.rd .prsSeqStatusHold p 0 = 1 ∨ t.rd .prsSeqStatusIllegal p 0 = 1)) ∧
       (k.wen = false → s.unitFull p u = true →
         t.rd .prsSeqStatusPc p 0 = s.rd .prsSeqStatusPc p 0 ∧
         (t.rd .prsSeqStatusHold p 0 = 2 ∨ t.rd .prsSeqStatusIllegal p 0 = 1))))

/-- On a press that can dispatch to SEQ: STEP with every unit empty reports the step, counts it and leaves the
press READY with hold 5 and its gating mode HOLD ended, and with a unit not empty is held with code 4. BSIG
adds one to the press's signals on the barrier and, where the press belongs to a forme, one arrival of the
press in the forme's tally. BWAIT goes on where the barrier's completed rounds have reached the press's
signals, else is held with code 3. FENCE goes on where the named units are empty, else is held with code 4;
naming no unit it is an illegal word, which sets illegal and parks the press. Each held cycle is counted (the
cycle count is the model's convention, log entry 9). (R107, R108, R113, R122, R123, R124, R139, R353) -/
def Obligations.PressWaits : Prop :=
  ∀ (s : State) (p : Nat) (k : Tok), canDispatch s p k uSeq →
    let x := entered s p k uSeq
    ((s.press p).idle = true → ∃ t, Runs (.stepEnd p k) s t ∧ t.pState p = pReady ∧
      t.rd .hPrsStepped p 0 = 1 ∧ t.rd .prsSeqStatusHold p 0 = 5 ∧
      t.rd .prsStepCountSteps p 0 = (s.rd .prsStepCountSteps p 0 + 1) % 2 ^ 64 ∧
      t.press p = movedOn s p { x with rampMode := if x.rampMode = 1 then 0 else x.rampMode } ∧
      t.rd .prsSeqStatusPc p 0 = nextPc s p x ∧
      onlyPress (.prsStatusState :: .hPrsStepped :: .prsStepCountSteps :: seqFields) [] p s t) ∧
    ((s.press p).idle = false → heldFor (.stepEnd p k) 4 p s) ∧
    (∀ b, s.formeOfPress p = none →
      pressEnds (.bsig p k b) [] [] p s { x with signals := x.signals.put b (x.signals.getD b 0 + 1) }
        fun _ => True) ∧
    (∀ b f, s.formeOfPress p = some f →
      pressEnds (.bsig p k b) [] [.arrivals, .barSent, .tokens, .links] p s
        { x with signals := x.signals.put b (x.signals.getD b 0 + 1) }
        fun t => t.arrived f.number b 0 p = s.arrived f.number b 0 p + 1) ∧
    (∀ b, (s.barrierPassed p b = true → pressEnds (.bwait p k b) [] [] p s x fun _ => True) ∧
      (s.barrierPassed p b = false → heldFor (.bwait p k b) 3 p s)) ∧
    (∀ u, u ≠ 0 → ((s.press p).fencePassed u = true → pressEnds (.fence p k u) [] [] p s x fun _ => True) ∧
      ((s.press p).fencePassed u = false → heldFor (.fence p k u) 4 p s)) ∧
    ∃ t, Runs (.fence p k 0) s t ∧ t.rd .prsSeqStatusIllegal p 0 = 1 ∧ t.pState p = pParked

/-- On a press that can dispatch to the finisher, with a word whose fields are legal and whose ring registers can
be read, each instruction runs: lane n of vd is the exact or correctly rounded operation on lane n of the
sources, rounded once to FP32, where the mask enables the lane, and as before elsewhere; named ring registers
are popped; nan_in is raised where an enabled lane reads a NaN and nan_made where one makes a NaN of operands
that are none, and neither otherwise. Nothing else changes but the press, its sequencer and the finisher's
busy cycles, a free value (log entry 37). (R57, R64, R68, R90, R92, R107, R117, R130, R132) -/
def Obligations.LaneArithmetic : Prop :=
  ∀ (s : State) (p : Nat) (k : Tok) (f : FinF), canDispatch s p k uFin →
    let x := s.press p
    let a := x.vreg f.va
    let b := x.srcB f
    (x.finReady true true false f = true → ∀ e ∈
      [(Instr.fadd p k f, FinOp.add, fun v => (arg v 0).add (arg v 1)),
       (Instr.fsub p k f, FinOp.sub, fun v => (arg v 0).add (arg v 1).negate),
       (Instr.fmul p k f, FinOp.mul, fun v => (arg v 0).mul (arg v 1)),
       (Instr.fmin p k f, FinOp.min, fun v => (arg v 0).minimum (arg v 1)),
       (Instr.fmax p k f, FinOp.max, fun v => (arg v 0).maximum (arg v 1))],
      e.2.1.fieldOk f = true → laneRuns e.1 p k f s [a, b] e.2.2) ∧
    (x.finReady true true true f = true → FinOp.ffma.fieldOk f = true →
      laneRuns (.ffma p k f) p k f s [a, b, x.vreg f.vc]
        fun v => ((arg v 0).mul (arg v 1)).add (arg v 2)) ∧
    (x.finReady false true false f = true → FinOp.mov.fieldOk f = true →
      laneRuns (.fmov p k f) p k f s [b] fun v => arg v 0) ∧
    (x.finReady true false false f = true → ∀ e ∈
      [(Instr.frcp p k f, FinOp.rcp, fun v => (FVal.fin false 1 0).div (arg v 0)),
       (Instr.frsq p k f, FinOp.rsq, fun v => (arg v 0).rsqrt),
       (Instr.fexp p k f, FinOp.exp, fun v => (arg v 0).expv),
       (Instr.flog p k f, FinOp.log, fun v => (arg v 0).logv)],
      e.2.1.fieldOk f = true → laneRuns e.1 p k f s [a] e.2.2)

/-- On a press that can dispatch to the finisher, with a legal word and readable ring registers: FCMP sets bit n
of the mask vd, for an enabled lane, to whether a is equal to, less than, or at most b, or whether either is a
NaN, by sub 0 to 3; FMSK sets it to and, or, exclusive or, and-not of two masks, one, zero, or lane imm alone,
by sub 0 to 6; both leave the bits of lanes not enabled. FSEL writes a's lane where the mask vc has its bit
and b's elsewhere. FCVT writes the lane rounded to BF16 and held as FP32, or, for an MX format, the value of
its element under the block's scale, block by block of 32 lanes (a block of scale 0xFF reads as NaN, the
model's log entry 10); lanes not enabled stay. (R66, R68, R90, R117, R130, R132) -/
def Obligations.MaskInstructions : Prop :=
  ∀ (s : State) (p : Nat) (k : Tok) (f : FinF), canDispatch s p k uFin →
    let x := s.press p
    let y := entered s p k uFin
    let a := x.vreg f.va
    let b := x.srcB f
    let va (n : Nat) := fp32Val (a.getD n 0)
    let vb (n : Nat) := fp32Val (b.getD n 0)
    let merged (v : Nat → Nat) :=
      (List.range 512).map fun n => if x.laneOn f n then v n else (x.vreg f.vd).getD n 0
    let put (v : Nat → Nat) : Press := ({ y with vregs := y.vregs.put f.vd (merged v) }).pops f
    (x.finReady true true false f = true → FinOp.cmp.fieldOk f = true →
      ∃ t, Runs (.fcmp p k f) s t ∧
        (∀ n, n < 512 → bit ((t.press p).mask f.vd) n =
          if x.laneOn f n then
            if f.sub = 0 then !(va n).isNaN && !(vb n).isNaN && (va n).cmp (vb n) = 0
            else if f.sub = 1 then !(va n).isNaN && !(vb n).isNaN && (va n).cmp (vb n) < 0
            else if f.sub = 2 then !(va n).isNaN && !(vb n).isNaN && (va n).cmp (vb n) ≤ 0
            else (va n).isNaN || (vb n).isNaN
          else bit (x.mask f.vd) n) ∧
        (∀ m, m ≠ f.vd → (t.press p).mask m = x.mask m) ∧
        onlyPress (.prsBusyCyclesBusy :: seqFields ++ finFields) [.freeCount] p s t) ∧
    (FinOp.msk.fieldOk f = true →
      ∃ t, Runs (.fmsk p k f) s t ∧
        (∀ n, n < 512 → bit ((t.press p).mask f.vd) n =
          if x.laneOn f n then
            if f.sub = 0 then bit (x.mask f.va) n && bit (x.mask f.vb) n
            else if f.sub = 1 then bit (x.mask f.va) n || bit (x.mask f.vb) n
            else if f.sub = 2 then bit (x.mask f.va) n != bit (x.mask f.vb) n
            else if f.sub = 3 then bit (x.mask f.va) n && !bit (x.mask f.vb) n
            else if f.sub = 4 then true
            else if f.sub = 5 then false
            else n = f.imm % 512
          else bit (x.mask f.vd) n) ∧
        (∀ m, m ≠ f.vd → (t.press p).mask m = x.mask m) ∧ onlyPress (.prsBusyCyclesBusy :: seqFields)
          [.freeCount] p s t) ∧
    (x.finReady true true false f = true → FinOp.sel.fieldOk f = true →
      pressEnds (.fsel p k f) (.prsBusyCyclesBusy :: finFields) [.freeCount] p s
        (put fun n => fp32Of (if bit (x.mask f.vc) n then va n else vb n)) fun _ => True) ∧
    (x.finReady true false false f = true → FinOp.cvt.fieldOk f = true →
      (f.sub = 1 → pressEnds (.fcvt p k f) (.prsBusyCyclesBusy :: finFields) [.freeCount] p s
        (put fun n => convert .bf16 .fp32 (Fmt.bf16.encode (s.rmode p f.rmode f.key f.srow n) f.sat (va n)).1)
        fun _ => True) ∧
      ∀ fmt, f.sub ≠ 1 → Fmt.ofCode f.sub = some fmt →
        let q (j : Nat) := mxQuantise fmt
          ((List.range 32).map fun i => s.rmode p f.rmode f.key f.srow (32 * j + i))
          ((List.range 32).map fun i => va (32 * j + i))
        pressEnds (.fcvt p k f) (.prsBusyCyclesBusy :: finFields) [.freeCount] p s
          (put fun n => fp32Of (dequant fmt (q (n / 32)).1 ((q (n / 32)).2.1.getD (n % 32) 0)))
          fun _ => True)

/-- On a press that can dispatch to the finisher, with a legal word and readable ring registers, each reduction
runs: lane 0 of vd is the value of the canonical tree over the 512 lanes, each node rounded to FP32, where a
lane not enabled supplies +0 to the sum, -infinity to the maximum and +infinity to the minimum; every other
lane of vd is +0; named ring registers are popped. Nothing else changes but the press, its sequencer, its NaN
flags and its busy cycles, a free value (log entry 37). For each of the fifteen lane instructions and three
reductions, on a press that can dispatch: where the word breaks a field rule, illegal is set, the press is
PARKED and no lane changes; where it is legal but a ring register that it reads has no row yet, the
instruction waits and the whole state is as before. (R53, R64, R92, R117, R130, R132, R138, R139) -/
def Obligations.FinisherReductionsAndHolds : Prop :=
  (∀ (s : State) (p : Nat) (k : Tok) (f : FinF), canDispatch s p k uFin →
     (s.press p).finReady true false false f = true →
     let x := s.press p
     let y := entered s p k uFin
     ∀ e ∈ [(Instr.frsum p k f, FinOp.rsum, 0, FVal.add),
            (Instr.frmax p k f, FinOp.rmax, 0xFF800000, FVal.maximum),
            (Instr.frmin p k f, FinOp.rmin, 0x7F800000, FVal.minimum)],
       e.2.1.fieldOk f = true →
       let leaves := (List.range 512).map fun n => if x.laneOn f n then (x.vreg f.va).getD n 0 else e.2.2.1
       let r := tree (fun a b => fp32Of (e.2.2.2 (fp32Val a) (fp32Val b))) 0 leaves
       pressEnds e.1 [.finNumFlagsNanIn, .finNumFlagsNanMade, .prsBusyCyclesBusy] [.freeCount] p s
         (({ y with vregs := y.vregs.put f.vd (r :: List.replicate 511 0) }).pops f) fun _ => True) ∧
  (∀ (s : State) (p : Nat) (k : Tok) (f : FinF), canDispatch s p k uFin →
     ∀ e ∈ [(Instr.fadd p k f, FinOp.add), (Instr.fsub p k f, FinOp.sub), (Instr.fmul p k f, FinOp.mul),
         (Instr.ffma p k f, FinOp.ffma), (Instr.fmin p k f, FinOp.min), (Instr.fmax p k f, FinOp.max),
         (Instr.fcmp p k f, FinOp.cmp), (Instr.fsel p k f, FinOp.sel), (Instr.fmov p k f, FinOp.mov),
         (Instr.fmsk p k f, FinOp.msk), (Instr.fcvt p k f, FinOp.cvt), (Instr.frcp p k f, FinOp.rcp),
         (Instr.frsq p k f, FinOp.rsq), (Instr.fexp p k f, FinOp.exp), (Instr.flog p k f, FinOp.log),
         (Instr.frsum p k f, FinOp.rsum), (Instr.frmax p k f, FinOp.rmax), (Instr.frmin p k f, FinOp.rmin)],
       (e.2.fieldOk f = false → illegalRuns e.1 p s) ∧
       (e.2.fieldOk f = true → e.2 ≠ .msk →
         ((e.2.use.va && !(s.press p).readable f.va) ||
           (e.2.use.vb && !f.bi && !(s.press p).readable f.vb) ||
           (e.2 = .ffma && !(s.press p).readable f.vc)) = true → Runs e.1 s s))

/-- On a press that can dispatch to the finisher, with a legal word whose address registers lie in the case and
whose lines exist: FLD fills vd from 8 lines of FP32 or from 4 lines of BF16 widened exactly. FST (its
register readable) stores the row in FP32, BF16 or an MX format at its line, puts the scale bytes of an MX row
into the slot of the staging line, and with a flush writes the staging line to its own line and refills it
with 0x7F. CMOV copies cnt + 1 lines. FP32 lanes pass bit for bit and raise no flag (the model's choice, log
entry 76). Every byte of the case outside the lines stored reads as before, and nothing else changes but the
press, its sequencer, its flags and counts of cycles, free values (log entry 37). Words that the reads of FLD
and CMOV find corrected count, and may add a suspect place to the repair map; the rest is as without them.
(R40, R41, R90, R94, R117, R120, R130, R133) -/
def Obligations.CaseMoves : Prop :=
  ∀ (s : State) (p : Nat) (k : Tok) (f : FinF), s.inv = true → canDispatch s p k uFin →
    let x := s.press p
    let y := entered s p k uFin
    let l := x.finLine f
    let d := x.addr f.xad
    (FinOp.ld.fieldOk f = true → x.inCase f.cad = true →
      caseLineOk l (if f.sub = 1 then 4 else 8) = true →
      let row := if f.sub = 1 then (Fmt.bf16.unpack 512 (x.caseBytes l.toNat 1024)).map (convert .bf16 .fp32)
        else Fmt.fp32.unpack 512 (x.caseBytes l.toNat 2048)
      pressReads (.fld p k f) (finCaseWaits ++ finFields) [.freeCount] p s
        { y with vregs := y.vregs.put f.vd row }
        fun t => (∀ a, (t.press p).caseMem.get a = x.caseMem.get a) ∧
          (f.sub ≠ 1 → ∀ g ∈ finFields, t.rd g p 0 = s.rd g p 0)) ∧
    (FinOp.st.fieldOk f = true → x.inCase f.cad = true → (f.flush = true → x.inCase f.xad = true) →
      x.readable f.va = true → caseLineOk l (dPitch f.sub) = true → (f.flush = true → caseLineOk d 1 = true) →
      let c := if f.sub = 0 then (x.vreg f.va, [], NumFlags.none)
        else convertRow f.sub f.sat ((List.range 512).map fun n => s.rmode p f.rmode f.key f.srow n)
          ((x.vreg f.va).map fp32Val)
      let st := if c.2.1.isEmpty then x.stagingLine
        else spliceBytes x.stagingLine (16 * f.slot) (c.2.1.map fun b => BitVec.ofNat 8 b)
      let z := y.writeCase l.toNat (rowBytes f.sub c.1)
      pressEnds (.fst p k f) (finCaseWaits ++ finFields) [.freeCount] p s
        ((if f.flush then { (z.writeCase d.toNat st) with staging := [] } else { z with staging := st
          }).pops f)
        fun t => (f.sub = 0 → ∀ g ∈ finFields, t.rd g p 0 = s.rd g p 0) ∧ (f.flush = false → ∀ a, a <
          l.toNat * 256 ∨ (l.toNat + dPitch f.sub) * 256 ≤ a →
          (t.press p).caseMem.get a = x.caseMem.get a)) ∧
    (FinOp.cmov.fieldOk f = true → x.inCase f.cad = true → x.inCase f.xad = true →
      caseLineOk (x.addr f.cad) (f.cnt + 1) = true → caseLineOk d (f.cnt + 1) = true →
      pressReads (.cmov p k f) finCaseWaits [.freeCount] p s
        (y.writeCase d.toNat (x.caseBytes (x.addr f.cad).toNat ((f.cnt + 1) * 256)))
        fun t => (∀ i, i < (f.cnt + 1) * 256 → (t.press p).caseMem.get (d.toNat * 256 + i) =
            x.caseMem.get ((x.addr f.cad).toNat * 256 + i)) ∧
          ∀ a, a < d.toNat * 256 ∨ (d.toNat + f.cnt + 1) * 256 ≤ a →
            (t.press p).caseMem.get a = x.caseMem.get a)

/-- On a press that can dispatch, with legal fields, operands in the case and lines that exist: WLOAD puts behind
the shadow loads that wait one whose strips 0 to strips - 1 hold the weight lines and the scale lines of the
case, strip by strip, and starts the ramp of a gated array. BIAS loads 512 values from 16 lines of A56 as they
are, or from 8 lines of FP32 converted to A56. Nothing else changes but the press and its sequencer. On a
press that can dispatch, with a galley register and a case register whose lines exist, GLOAD and GSTORE each
put behind the transfers under way one of linesM1 + 1 lines on the named reservation of the step, from the
galley register's line of the slice of the press's chase to the case register's line, or back; the lines move
in the reservation's slots, the last by the instruction's completion, so no memory and no case changes at the
dispatch. Cycle counts rise by free values (log entry 37); corrected words of the case or the galley count.
(R76, R78, R103, R115, R120, R126, R127, R118, R134, R142) -/
def Obligations.ArrayLoadsAndTransfers : Prop :=
  (∀ (s : State) (p : Nat) (k : Tok),
     let x := s.press p
     (∀ w : WloadF, canDispatch s p k uShd → w.fieldOk = true → w.strips ≤ s.depth p →
       x.inCase w.wad = true → (w.wfmt = 1 ∨ x.inCase w.sad = true) →
       caseLineOk (x.addr w.wad) (w.strips * stripLines w.wfmt) = true →
       (w.wfmt = 1 ∨ caseLineOk (x.addr w.sad) (w.strips * scaleLines w.wfmt) = true) →
       let y := entered s p k uShd
       pressReads (.wload p k w) [.prsStallCountsCaseConflict, .prsStallCountsShadowWait] [.freeCount] p s
         { y with gated := false, shadow := x.shadow ++ [Tile.mk w.wfmt ((List.range w.strips).map fun i =>
             some (x.caseBytes ((x.addr w.wad).toNat + i * stripLines w.wfmt) (stripLines w.wfmt * 256),
               x.caseBytes ((x.addr w.sad).toNat + i * scaleLines w.wfmt) (scaleLines w.wfmt * 256)))] }
         fun t => (t.press p).live = x.live ∧ (t.press p).caseMem = x.caseMem) ∧
     (∀ bfmt bad, canDispatch s p k uArr → biasFieldOk bfmt = true → x.inCase bad = true →
       caseLineOk (x.addr bad) (if bfmt = 7 then 16 else 8) = true →
       let y := entered s p k uArr
       pressReads (.bias p k bfmt bad) [.prsStallCountsCaseConflict] [.freeCount] p s
         { y with bias := if bfmt = 7 then Fmt.a56.unpack 512 (x.caseBytes (x.addr bad).toNat 4096)
             else (Fmt.fp32.unpack 512 (x.caseBytes (x.addr bad).toNat 2048)).map (convert .fp32 .a56) }
         fun t => (t.press p).caseMem = x.caseMem)) ∧
  (∀ (s : State) (p : Nat) (k : Tok) (f : GalF), s.inv = true →
     let x := s.press p
     let g := (x.addr f.gad).toNat
     let c := (x.addr f.cad).toNat
     let n := f.linesM1 + 1
     (x.ad f.gad).galley = true → x.inCase f.cad = true →
     galLinesOk (x.addr f.gad) n = true → caseLineOk (x.addr f.cad) n = true →
     let what (fill : Bool) (t : State) : Prop :=
       t.drains = (s.queueBond p f.resv fill g c n).drains ∧ t.drains.dropLast = s.drains ∧
         t.drains.getLast?.map (fun d => (d.press, d.fill, d.next, d.lineHi, d.memAddr)) =
           some (p, fill, g, g + n, c)
     (canDispatch s p k uBin →
       pressEnds (.gload p k f []) bondWaits [.drains, .freeCount] p s (entered s p k uBin) (what false) ∧
       ∀ w ce, ∃ t, Runs (.gload p k f (w :: ce)) s t ∧
         t.press p = movedOn s p (entered s p k uBin) ∧ what false t ∧ t.mem = s.mem ∧
         t.rd .galStatusCe (p / 3) 0 = 1 ∧
         t.rd .galCeCountCount (p / 3) 0 =
           min (2 ^ 32 - 1) (s.rd .galCeCountCount (p / 3) 0 + (w :: ce).length)) ∧
     (canDispatch s p k uBout →
       pressReads (.gstore p k f) bondWaits [.drains, .freeCount] p s (entered s p k uBout) (what true)))

/-- On a press that can dispatch to the array, with a legal word and lines that exist: PASS swaps the shadow load
in where it says so, folds the rows of the case with the live weights in strip order on their head values, and
writes them to the carry file where its foot says so, and notes what it does in flight; the rows go to the
drain where its foot says so; the array is ungated and its flags rise. With a foot of carry alone the case and
the lanes are as before. DRAIN places carry entries m0 on as rows of the drain. A strip that holds no defined
weight is read as unspecified bytes, a free value (log entry 1), and the pass goes on. Nothing else changes
but the press, its sequencer, its flags and counts of cycles, free values (log entry 37), and what words of
the case that the pass finds corrected count; a PASS into the case changes no byte outside the lines of its
drain. (R43, R51, R72, R73, R77, R86, R88, R116, R126, R128, R131) -/
def Obligations.PassFoldsRows : Prop :=
  ∀ (s : State) (p : Nat) (k : Tok), s.inv = true → canDispatch s p k uArr →
    let x := s.press p
    let y := entered s p k uArr
    (∀ f : PassF, passLegal x f (s.depth p) = true →
      ((passLines x f ++ (if f.foot = 1 then [] else drainLines f.out x (f.mM1 + 1))).all fun e =>
        caseLineOk e.1 e.2) = true →
      let rows := (passRows x (x.passTile f.swap) s.freeCount f).map Prod.fst
      let z := { y.running (s.passRun p f) with
        gated := false, live := x.passTile f.swap,
        shadow := if f.swap then x.shadow.drop 1 else x.shadow,
        carry := if f.foot = 0 then x.carry else putCarry x.carry 0 rows }
      rows.length = f.mM1 + 1 ∧
      (f.foot = 1 → pressReads (.pass p k f none) (arrWaits ++ finFields) [.freeCount] p s z fun t =>
        (t.press p).caseMem = x.caseMem ∧ (t.press p).vregs = x.vregs) ∧
      (f.foot ≠ 1 → ∀ ce, ∃ t, Runs (.pass p k f none ce) s t ∧
        t.press p = movedOn s p ((((s.issued p k uArr).setPress p z).drainRows p f.out rows).press p) ∧
        (t.press p).live = z.live ∧ (t.press p).shadow = z.shadow ∧ (t.press p).carry = z.carry ∧
        (ce = [] → t.rd .caseCeCountCount p 0 = s.rd .caseCeCountCount p 0) ∧
        onlyPress (seqFields ++ arrWaits ++ ceFields ++ finFields) [.ceLog, .repairMap, .freeCount] p s t ∧
        (f.out.toRing = true → (t.press p).caseMem = x.caseMem) ∧
        (f.out.toRing = false → (t.press p).vregs = x.vregs ∧
          ∀ a, (∀ e ∈ drainLines f.out x (f.mM1 + 1),
              a < e.1.toNat * 256 ∨ (e.1.toNat + e.2) * 256 ≤ a) →
            (t.press p).caseMem.get a = x.caseMem.get a))) ∧
    (∀ f : DrainF, f.fieldOk = true → f.m0 + f.mM1 + 1 ≤ 1024 → drainSpaceOk f.out x = true →
      ((drainLines f.out x (f.mM1 + 1)).all fun e => caseLineOk e.1 e.2) = true →
      let rows := (List.range (f.mM1 + 1)).map fun i => x.carryRow (f.m0 + i)
      ∃ t, Runs (.drain p k f) s t ∧
        t.press p = movedOn s p ((((s.issued p k uArr).setPress p (y.running (drainRun f))).drainRows p f.out
          rows).press p) ∧
        (t.press p).carry = x.carry ∧ (t.press p).live = x.live ∧
        onlyPress (seqFields ++ arrWaits ++ finFields) [.freeCount] p s t ∧
        (f.out.toRing = true → (t.press p).caseMem = x.caseMem) ∧
        (f.out.toRing = false → (t.press p).vregs = x.vregs ∧
          (f.out.dfmt = 7 → ∀ m i, m < f.mM1 + 1 → i < 4096 →
            (t.press p).caseMem.get (((x.addr f.out.dad).toNat + 16 * m) * 256 + i) =
              (rowBytes 7 (rows.getD m [])).getD i 0) ∧
          ∀ a, (∀ e ∈ drainLines f.out x (f.mM1 + 1),
              a < e.1.toNat * 256 ∨ (e.1.toNat + e.2) * 256 ≤ a) →
            (t.press p).caseMem.get a = x.caseMem.get a))

/-- INSTRUCTION_COMPLETE removes the oldest instruction of units 1 to 5 and adds one to its signal's token, up to
255; on an empty unit nothing changes. Completing a GLOAD or GSTORE, the oldest transfer of its kind of the
press and the slice has moved its lines, and with them what the slice moves before it; where it is the only
transfer of its forme under way in the slice and none of its lines has moved yet, its lines of the case, or of
the galley, read as those of the galley, or of the case, and no other byte changes. Completing another
instruction moves nothing. ARRAY_RESUME on a frozen array leaves it frozen only while more than 32 rows wait,
and adds the freeze to case_conflict, up to 65,535; on one that runs nothing changes. In mode GATE the
completion that leaves ARR and SHD empty gates the array. ARRAY_GATE gates the array in mode AUTO, unless a
CLOSING forme waits for the press's slices, and does nothing in the other modes (WARM: log entry 77).
CASE_SCRUB moves to the next line; each word corrected sets ce and counts, and the lowest of the line's is the
address shown unless ue holds one. (R88, R97, R98, R102, R108, R109, R125, R134) -/
def Obligations.PressEvents : Prop :=
  ∀ (s : State) (p : Nat), p < 12 →
    (∀ u, 1 ≤ u → u ≤ 5 →
      ((s.press p).queue u = [] → Runs (.instructionComplete p u) s s) ∧
      ∀ e r, (s.press p).queue u = e :: r →
        let w := s.endBond p u
        ∃ t, Runs (.instructionComplete p u) s t ∧
        (t.press p).queue u = r ∧ (∀ v, v ≠ u → (t.press p).queue v = (s.press p).queue v) ∧
        (∀ n, (t.press p).token n =
          if e.sen ∧ n = e.stok then min 255 ((s.press p).token n + 1) else (s.press p).token n) ∧
        ((t.press p).gated = true ↔ (s.press p).gated = true ∨ ((s.press p).rampMode = 3 ∧ (t.press
          p).arrayIdle = true)) ∧
        (t.press p).caseMem = (w.press p).caseMem ∧ (t.press p).vregs = (s.press p).vregs ∧
        t.mem = w.mem ∧ t.drains = w.drains ∧ (∀ q, q ≠ p → t.press q = w.press q) ∧
        (u < 4 → onlyPress [] [] p s t) ∧
        changes [] [.presses, .mem, .drains, .dirtyOut] s t ∧
        ∀ d, s.drains.find? (fun y => y.isBond && y.press = p && y.fill = decide (u = uBout)) = some d →
          4 ≤ u → s.inv = true → d.next = d.lineLo → d.lineLo < d.lineHi →
          s.drains.filter (fun y => y.forme = d.forme && y.chase = d.chase && !y.moved) = [d] →
          let n := (d.lineHi - d.lineLo) * 256
          let g := galBase (p / 3) + d.lineLo * 256
          let c := d.memAddr * 256
          t.drains = s.drains.erase d ∧
          (d.fill = false → t.mem = s.mem ∧
            (∀ i, i < n → (t.press p).caseMem.get (c + i) = s.mem.get (g + i)) ∧
            ∀ a, a < c ∨ c + n ≤ a → (t.press p).caseMem.get a = (s.press p).caseMem.get a) ∧
          (d.fill = true → (t.press p).caseMem = (s.press p).caseMem ∧
            (∀ i, i < n → t.mem.get (g + i) = (s.press p).caseMem.get (c + i)) ∧
            ∀ a, a < g ∨ g + n ≤ a → t.mem.get a = s.mem.get a)) ∧
    (∀ n, ((s.press p).frozen = false → Runs (.arrayResume p n) s s) ∧
      ((s.press p).frozen = true → ∃ t, Runs (.arrayResume p n) s t ∧
        t.press p = { s.press p with frozen := decide (32 < (s.press p).drainQ.length) } ∧
        t.rd .prsStallCountsCaseConflict p 0 = min 65535 (s.rd .prsStallCountsCaseConflict p 0 + n) ∧
        onlyPress [.prsStallCountsCaseConflict] [] p s t)) ∧
    ((s.press p).rampMode = 0 → (∀ f, s.formeOfPress p = some f → s.closingSlices f.number = false) →
      ∃ t, Runs (.arrayGate p) s t ∧
      t.press p = { s.press p with gated := true } ∧ onlyPress [] [] p s t) ∧
    ((s.press p).rampMode ≠ 0 → Runs (.arrayGate p) s s) ∧
    (∃ t, Runs (.caseScrub p []) s t ∧ t.rd .hPrsScrubLine p 0 = (s.rd .hPrsScrubLine p 0 + 1) % 262144 ∧
      changes [.hPrsScrubLine] [] s t) ∧
    ∀ w ce, ∃ t, Runs (.caseScrub p (ce ++ [w])) s t ∧
      t.rd .hPrsScrubLine p 0 = (s.rd .hPrsScrubLine p 0 + 1) % 262144 ∧ t.rd .caseEccStatusCe p 0 = 1 ∧
      t.rd .caseCeCountCount p 0 = min (2 ^ 32 - 1) (s.rd .caseCeCountCount p 0 + ce.length + 1) ∧
      t.rd .caseEccStatusUe p 0 = s.rd .caseEccStatusUe p 0 ∧
      (s.on .caseEccStatusUe p 0 = true → t.rd .caseEccStatusWordAddr p 0 = s.rd .caseEccStatusWordAddr p 0) ∧
      (s.on .caseEccStatusUe p 0 = false → (∀ x ∈ ce, x / 32 = w / 32) →
        t.rd .caseEccStatusWordAddr p 0 = ce.foldl min w % 2 ^ 23) ∧
      t.presses = s.presses ∧ t.mem = s.mem

/-- On a press that can dispatch to the instruction's unit: WLOAD with illegal fields, more strips than the depth
or a galley register, BIAS with an illegal format or a galley register, PASS and DRAIN that break their field
rules, FLD, FST and CMOV with illegal fields or a galley register, and GLOAD and GSTORE whose registers name
the wrong space set illegal and park the press, whose case and lanes stay as they were. A legal word whose
effective lines lie outside the case or the galley has no place to act on: the model stops with the fault
noSuchLine (no loaded program has one, since the load refuses it). (R82, R94, R116, R120, R126, R127, R131,
R134, R138, R139, R142) -/
def Obligations.PressWordsIllegal : Prop :=
  ∀ (s : State) (p : Nat) (k : Tok), p < 12 →
    let x := s.press p
    (∀ w : WloadF, canDispatch s p k uShd →
      let ok := w.fieldOk && w.strips ≤ s.depth p && x.inCase w.wad && (w.wfmt = 1 || x.inCase w.sad)
      (ok = false → ∀ ce, illegalRuns (.wload p k w ce) p s) ∧
      (ok = true → caseLineOk (x.addr w.wad) (w.strips * stripLines w.wfmt) = false →
        ∀ ce, exec (.wload p k w ce) s = .fault .noSuchLine)) ∧
    (canDispatch s p k uArr →
      (∀ bfmt bad, ((biasFieldOk bfmt && x.inCase bad) = false → ∀ ce, illegalRuns (.bias p k bfmt bad ce)
        p s) ∧
        ((biasFieldOk bfmt && x.inCase bad) = true →
          caseLineOk (x.addr bad) (if bfmt = 7 then 16 else 8) = false →
          ∀ ce, exec (.bias p k bfmt bad ce) s = .fault .noSuchLine)) ∧
      (∀ f e ce, passLegal x f (s.depth p) = false → illegalRuns (.pass p k f e ce) p s) ∧
      (∀ f e ce, passLegal x f (s.depth p) = true → ((passLines x f).all fun e => caseLineOk e.1 e.2) =
        false →
        exec (.pass p k f e ce) s = .fault .noSuchLine) ∧
      ∀ f : DrainF, (f.fieldOk && f.m0 + f.mM1 + 1 ≤ 1024 && drainSpaceOk f.out x) = false →
        illegalRuns (.drain p k f) p s) ∧
    (∀ f : FinF, canDispatch s p k uFin →
      ((FinOp.ld.fieldOk f && x.inCase f.cad) = false → ∀ ce, illegalRuns (.fld p k f ce) p s) ∧
      ((FinOp.st.fieldOk f && x.inCase f.cad && (!f.flush || x.inCase f.xad)) = false →
        illegalRuns (.fst p k f) p s) ∧
      ((FinOp.cmov.fieldOk f && x.inCase f.cad && x.inCase f.xad) = false →
        ∀ ce, illegalRuns (.cmov p k f ce) p s) ∧
      ((FinOp.cmov.fieldOk f && x.inCase f.cad && x.inCase f.xad) = true →
        caseLineOk (x.addr f.xad) (f.cnt + 1) = false → ∀ ce, exec (.cmov p k f ce) s = .fault .noSuchLine)) ∧
    ∀ f : GalF,
      (canDispatch s p k uBin → ((x.ad f.gad).galley && x.inCase f.cad) = false →
        ((x.ad f.gad).galley = false ∨ galLinesOk (x.addr f.gad) (f.linesM1 + 1) = true) →
        ∀ ce, illegalRuns (.gload p k f ce) p s) ∧
      (canDispatch s p k uBout → ((x.ad f.gad).galley && x.inCase f.cad) = false →
        ((x.ad f.gad).galley = false ∨ galLinesOk (x.addr f.gad) (f.linesM1 + 1) = true) →
        ∀ ce, illegalRuns (.gstore p k f ce) p s) ∧
      (s.pState p = pActive → (x.ad f.gad).galley = true → galLinesOk (x.addr f.gad) (f.linesM1 + 1) = false →
        ∀ ce, exec (.gload p k f ce) s = .fault .noSuchLine ∧ exec (.gstore p k f ce) s = .fault .noSuchLine)

/-- For every press: CASE_UNCORRECTABLE sets ue with the word's address and ecc_uncorrected, parks the press if it
was ACTIVE, and the press's forme, if it was RUNNING or CLOSING, abandons its edition with UNCORRECTABLE.
ISTORE_ERROR, corrected, sets ce and counts; uncorrectable, sets ue and istore_ue; an illegal word sets
illegal; the last two park an ACTIVE press and the forme abandons with ISTORE. PRESS_LOST leaves the press
FAILED and the forme abandons with PRESS_LOST. A PASS that meets a parity error in a strip counts a failure of
the press, names the strip and raises the proof event. What each may change beside that is listed. (R84, R97,
R104, R139, R231, R232, R233, R236, R433, R435, R436, R441) -/
def Obligations.PressErrors : Prop :=
  ∀ (s : State) (p u : Nat), p < 12 →
    (∀ word, ∃ t, Runs (.caseUncorrectable p word u) s t ∧ t.rd .caseEccStatusUe p 0 = 1 ∧
      t.rd .caseEccStatusWordAddr p 0 = word % 2 ^ 23 ∧ t.rd .prsStatusEccUncorrected p 0 = 1 ∧
      (s.pState p = pActive → t.pState p = pParked) ∧
      (∀ f, s.formeOfPress p = some f → abandoned f.number causeUe s t) ∧
      touches [.tick, .imp, .forme, .prf, .cmp, .col, .prs, .case] [.presses, .jobs, .lateXfers, .drains,
        .links, .repairMap, .relays, .freeCount] s t) ∧
    (∀ half, ∃ t, Runs (.istoreError p half .corrected u) s t ∧ t.rd .prsIstoreEccCe p 0 = 1 ∧
      t.rd .prsIstoreEccCeCount p 0 = min 16383 (s.rd .prsIstoreEccCeCount p 0 + 1) ∧
      changes (.prsIstoreEccHalfAddr :: .prsIstoreEccCe :: .prsIstoreEccCeCount :: timeFields) [] s t) ∧
    (∀ half, ∃ t, Runs (.istoreError p half .uncorrectable u) s t ∧ t.rd .prsIstoreEccUe p 0 = 1 ∧
      t.rd .prsIstoreEccHalfAddr p 0 = half % 2 ^ 16 ∧ t.rd .prsSeqStatusIstoreUe p 0 = 1 ∧
      (s.pState p = pActive → t.pState p = pParked) ∧
      (∀ f, s.formeOfPress p = some f → abandoned f.number causeIstore s t) ∧
      touches [.tick, .imp, .forme, .cmp, .col, .prs] [.presses, .jobs, .lateXfers, .drains, .links,
        .relays, .freeCount] s t) ∧
    (∀ half, ∃ t, Runs (.istoreError p half .illegal u) s t ∧ t.rd .prsSeqStatusIllegal p 0 = 1 ∧
      (s.pState p = pActive → t.pState p = pParked) ∧
      (∀ f, s.formeOfPress p = some f → abandoned f.number causeIstore s t) ∧
      touches [.tick, .imp, .forme, .cmp, .col, .prs] [.presses, .jobs, .lateXfers, .drains, .links,
        .relays, .freeCount] s t) ∧
    (∃ t, Runs (.pressLost p u) s t ∧ t.pState p = pFailed ∧
      (∀ f, s.formeOfPress p = some f → abandoned f.number causePressLost s t) ∧
      touches [.tick, .imp, .forme, .cmp, .col, .prs] [.presses, .jobs, .lateXfers, .drains, .links,
        .relays, .freeCount] s t) ∧
    ∀ k f strip, strip < 17 → canDispatch s p k uArr → passLegal (s.press p) f (s.depth p) = true →
      ((passLines (s.press p) f ++
          (if f.foot = 1 then [] else drainLines f.out (s.press p) (f.mM1 + 1))).all fun e =>
        caseLineOk e.1 e.2) = true →
      ∀ ce, ∃ t, Runs (.pass p k f (some strip) ce) s t ∧ t.rd .prfPressLastFail 0 p = strip ∧
        t.rd .prfPressFails 0 p = min 65535 (s.rd .prfPressFails 0 p + 1) ∧
        t.rd .coreIrqEventsProof 0 0 = 1 ∧ bit (t.rd .hPrsFailPend p 0) strip = true ∧
        touches [.imp, .forme, .prf, .events, .cmp, .col, .prs, .fin, .case] [.presses, .jobs, .lateXfers,
          .drains, .links, .repairMap, .ceLog, .relays, .freeCount] s t

/-- In a slot that a reservation holds no request is served or refused: the slots before it have passed and the
transfer under way on the reservation moves its next lines, and where no transfer has lines to move nothing
changes. A late transfer takes a free slot of its forme's phase whole and goes on to its next lines. In a free
slot with no late transfer waiting and no LIMITING rail, a single request of a core or a unit for a line of
the slot's bank set is granted: a read that nothing holds answers the line's bytes, changes no memory, counts
one grant, clears the requester's refusals and counts each word found corrected, and a write stores its bytes
and acknowledges. Where the chase's rail LIMITS, no request is granted. Of two requests for one bank with
neither promoted, the lower code is granted and the other's refusals grow by one. A write to a line of a
SCHEDULED range answers an access fault of cause 2 and changes no memory. LATE_TRANSFER sets late_transfer,
makes the step of the lines' forme late and joins the late list. HELD_ACCESS_RELEASE with nothing held on the
forme changes nothing; a held access that a forme's step still holds stays held, and one that nothing holds
any more is answered. A forme whose step does not run holds no access. (R142, R145, R147, R149, R150, R152,
R153) -/
def Obligations.GalleyArbitration : Prop :=
  ∀ s : State,
    (∀ c ph reqs, c < 4 → ph < 8 →
      (reqs.all fun r => 3 ≤ r.code && r.code ≤ 24 && (r.code != 23 || c = 0) && r.off + r.len ≤ 256) = true →
      (∀ r, s.holder (s.rd .galPhaseMapForme c ph) c ph = some r →
        ∃ t, Runs (.unscheduledRequest c ph reqs) s t ∧
          t = s.moveSlot (s.rd .galPhaseMapForme c ph) c r (s.bankSet c ph) ∧
          ((∀ d ∈ s.drains, d.moved = true) → t = s) ∧
          changes [] [.mem, .presses, .drains, .dirtyOut] s t) ∧
      (∀ x, s.holder (s.rd .galPhaseMapForme c ph) c ph = none → s.lateTaker c ph = some x →
        ∃ t, Runs (.unscheduledRequest c ph reqs) s t ∧
          t.lateXfers = replaceFirst x x.advance s.lateXfers ∧
          changes [] [.lateXfers, .mem, .presses, .drains, .dirtyOut] s t) ∧
      (s.holder (s.rd .galPhaseMapForme c ph) c ph = none → s.lateTaker c ph = none → s.limits c true = true →
        Runs (.unscheduledRequest c ph reqs) s s)) ∧
    (∀ c ph code port line off len data ce, c < 4 → ph < 8 → 3 ≤ code → code < 24 → (code = 23 → c = 0) →
      off + len ≤ 256 → s.limits c true = false → line < galLines → line % 64 / 8 = s.bankSet c ph →
      s.phaseHeld (s.rd .galPhaseMapForme c ph) c ph = false → s.lateTaker c ph = none →
      s.promoted c code = false →
      let r : GalReq := ⟨code, port, line, off, len, data, ce⟩
      let a : Access := reqAccess c r
      ∃ t, Runs (.unscheduledRequest c ph [r]) s t ∧
        t.rd .galArbCountsGrants c 0 = min (2 ^ 32 - 1) (s.rd .galArbCountsGrants c 0 + 1) ∧
        t.rd .hGalRefusals c code = 0 ∧
        (data = none → s.judge a = .go → t.mem = s.mem ∧
          t.out = .galData c code (line * 256 + off) (s.readGal c (line * 256 + off) len) :: s.out ∧
          (ce = [] → changes [.galArbCountsGrants, .hGalRefusals] [.out] s t) ∧
          (ce ≠ [] → t.rd .galStatusCe c 0 = 1 ∧
            t.rd .galCeCountCount c 0 = min (2 ^ 32 - 1) (s.rd .galCeCountCount c 0 + ce.length))) ∧
        (∀ d, data = some d → s.judge a = .go →
          t.mem = s.mem.write (galBase c + (line * 256 + off)) d ∧
          t.out = .galDone c code (line * 256 + off) :: s.out ∧
          changes [.galArbCountsGrants, .hGalRefusals] [.out, .mem] s t) ∧
        (∀ d, data = some d → 1 ≤ len → (s.galAttr c line).1 = 2 → t.mem = s.mem ∧
          .galFault c code (line * 256 + off) 2 ∈ t.out)) ∧
    (∀ c ph x y lx, c < 4 → ph < 8 → 3 ≤ x → x < y → y < 24 → (y = 23 → c = 0) → s.limits c true = false →
      lx < galLines →
      lx % 64 / 8 = s.bankSet c ph → s.phaseHeld (s.rd .galPhaseMapForme c ph) c ph = false →
      s.lateTaker c ph = none → s.promoted c x = false → s.promoted c y = false →
      ∃ t, Runs (.unscheduledRequest c ph [⟨y, 0, lx, 0, 8, none, []⟩, ⟨x, 0, lx, 0, 8, none, []⟩]) s t ∧
        t.rd .hGalRefusals c x = 0 ∧ t.rd .hGalRefusals c y = (s.rd .hGalRefusals c y + 1) ∧
        t.rd .galArbCountsGrants c 0 = min (2 ^ 32 - 1) (s.rd .galArbCountsGrants c 0 + 1)) ∧
    (∀ c code order lo hi, c < 4 → code < 19 → lo ≤ hi → hi < galLines →
      ∃ t, Runs (.lateTransfer c code order lo hi) s t ∧ t.rd .galStatusLateTransfer c 0 = 1 ∧
        ((s.galAttr c lo).2 < 16 → t.rd .hFormeLateStep 0 (s.galAttr c lo).2 = 1) ∧
        t.lateXfers = s.lateXfers ++ [⟨c, code, order, lo, hi⟩] ∧
        changes [.galStatusLateTransfer, .hFormeLateStep] [.lateXfers] s t) ∧
    (∀ f, f < 16 → (s.heldAccs.all (fun h => h.forme != f) = true → Runs (.heldAccessRelease f) s s) ∧
      (s.on .hFormeStepRun 0 f = false → ∀ c g x, s.inWriteSet f c g x = false ∧ s.inReadSet f c g x =
        false) ∧
      (∃ t, Runs (.heldAccessRelease f) s t ∧
        (∀ a g, s.heldAccs = [⟨f, a⟩] → s.judge a = .hold g → t.heldAccs = [⟨g, a⟩] ∧
          changes [] [.heldAccs] s t) ∧
        (∀ a c code addr len, s.heldAccs = [⟨f, a⟩] → s.judge a = .go →
          a = ⟨c, true, addr, len, none, ⟨[], false⟩, .unit code⟩ → t.heldAccs = [] ∧
          t.out = .galData c code addr (s.readGal c addr len) :: s.out ∧ changes [] [.heldAccs, .out] s t) ∧
        touches [.prf, .core, .gal, .gst, .mem] [.mem, .heldAccs, .dirtyShared, .mgtLast, .links,
          .repairMap, .ceLog, .mgtJobs, .dropped, .out, .freeCount] s t))

/-- Unless a LIMITING rail suspends them, which then changes nothing: GALLEY_SCRUB moves to the bank's next line
of 24,576; a corrected word sets ce, counts and, unless ue is set, logs requester 24 and the line and word.
PATROL_SCRUB moves to the stack's next burst; a corrected burst sets ce, counts and, unless ue is set, logs
its place. SCRUB_LATE sets scrub_late of its stack alone. STACK_REFRESH moves the channel to its next bank of
16 and takes the stack's band into effect there. UNCORRECTABLE_ERROR in a galley line sets ue and logs
requester, line and word; where the line belongs to a SHARED or SCHEDULED range of a forme that is not the
standby's, the forme, if RUNNING or CLOSING, abandons with UNCORRECTABLE (where its commit is due the cause
waits for the next edition); in a burst of a stack likewise, with channel, bank, row and burst and outside the
forme's checkpoint; a frame that waits for its acknowledgement sets ue of its chase's galley with its engine
as requester, or of one of its chase's stacks where the frame is spilled, and a value held in a node or a bag
sets ue of the galley with the engine that holds it as requester, and the forme that sent or forms it
abandons; a frame kept for a pair alone sets retain_lost of its chase instead and is kept no more.
CORE_LINE_UE read by core n logs the same and gives that core an access fault of cause 3 at the word's
physical address, marks the word bad in its L2, drops a line of the REFILL cache, and abandons nothing: no
forme's state changes. No memory changes. DRAIN_ACKNOWLEDGED with no drain of the forme outstanding drops
nothing, and with one into the out_region moves what is left of it and takes it off the list of drains. (R161,
R162, R163, R164, R441, R152, R166, R169, R231, R382, R477, R478) -/
def Obligations.ScrubsAndErrors : Prop :=
  (∀ s : State,
     (∀ c b, c < 4 → b < 64 → (s.limits c true = true → ∀ w, Runs (.galleyScrub c b w) s s) ∧
       (s.limits c true = false →
       (∃ t, Runs (.galleyScrub c b none) s t ∧
         t.rd .hGalScrubLine c b = (s.rd .hGalScrubLine c b + 1) % 24576 ∧ changes [.hGalScrubLine] [] s t) ∧
       ∀ w, ∃ t, Runs (.galleyScrub c b (some w)) s t ∧
         t.rd .hGalScrubLine c b = (s.rd .hGalScrubLine c b + 1) % 24576 ∧ t.rd .galStatusCe c 0 = 1 ∧
         t.rd .galCeCountCount c 0 = min (2 ^ 32 - 1) (s.rd .galCeCountCount c 0 + 1) ∧
         (s.on .galStatusUe c 0 = false → t.rd .galEccAddrRequester c 0 = 24 ∧
           t.rd .galEccAddrLine c 0 = (s.rd .hGalScrubLine c b * 64 + b) % 2 ^ 21 ∧
           t.rd .galEccAddrWord c 0 = w % 32) ∧
         (s.on .galStatusUe c 0 = true → t.rd .galEccAddrLine c 0 = s.rd .galEccAddrLine c 0) ∧
         t.mem = s.mem ∧ touches [.prf, .gal] [.repairMap, .ceLog, .freeCount] s t)) ∧
     (∀ m, m < 16 → (s.limits (m / 4) false = true → ∀ b, Runs (.patrolScrub m b) s s) ∧
       (s.limits (m / 4) false = false →
       (∃ t, Runs (.patrolScrub m none) s t ∧ t.rd .hMemPatrol m 0 = (s.rd .hMemPatrol m 0 + 1) % 2 ^ 30 ∧
         changes [.hMemPatrol] [] s t) ∧
       ∀ b, ∃ t, Runs (.patrolScrub m (some b)) s t ∧ t.rd .memStatusCe m 0 = 1 ∧
         t.rd .memCeCountCount m 0 = min (2 ^ 32 - 1) (s.rd .memCeCountCount m 0 + 1) ∧
         (s.on .memStatusUe m 0 = false → t.rd .memEccAddrChannel m 0 = b.channel % 64 ∧
           t.rd .memEccAddrBank m 0 = b.bank % 16 ∧ t.rd .memEccAddrRow m 0 = b.row % 2 ^ 15 ∧
           t.rd .memEccAddrBurst m 0 = b.burst % 32) ∧
         (s.on .memStatusUe m 0 = true → t.rd .memEccAddrRow m 0 = s.rd .memEccAddrRow m 0) ∧
         t.mem = s.mem ∧ touches [.prf, .mem] [.repairMap, .ceLog, .freeCount] s t)) ∧
     (∀ m u, m < 16 → ∃ t, Runs (.scrubLate m u) s t ∧ t.rd .memStatusScrubLate m 0 = 1 ∧
       changes (.memStatusScrubLate :: timeFields) [] s t) ∧
     ∀ m ch, m < 16 → ch < 64 → ∃ t, Runs (.stackRefresh m ch) s t ∧
       t.rd .hMemRefreshBank m ch = (s.rd .hMemRefreshBank m ch + 1) % 16 ∧
       t.rd .hMemChanBand m ch = s.rd .memStatusBand m 0 % 16 ∧
       changes [.hMemRefreshBank, .hMemChanBand] [] s t) ∧
  (∀ (s : State) (u : Nat),
     (∀ c code line word sched, c < 4 → code < 19 → line < galLines → word < 32 →
       ∃ t, Runs (.uncorrectableError (.galley c code line word sched) u) s t ∧ t.rd .galStatusUe c 0 = 1 ∧
         t.rd .galEccAddrRequester c 0 = code ∧ t.rd .galEccAddrLine c 0 = line ∧
         t.rd .galEccAddrWord c 0 = word ∧ t.mem = s.mem ∧
         (((s.galAttr c line).1 = 1 ∨ (s.galAttr c line).1 = 2) → (s.galAttr c line).2 < 16 →
           s.role ≠ rStandby → abandoned (s.galAttr c line).2 causeUe s t) ∧
         touches [.tick, .imp, .forme, .fab, .pair, .pwr, .prf, .core, .events, .cal, .gal, .cmp, .col,
           .prs, .oe, .lnk, .lsu, .mem] [.presses, .jobs, .lateXfers, .drains, .calJobs, .swaps,
           .spareNeeds, .links, .repairMap, .badWords, .relays, .out, .freeCount] s t) ∧
     (∀ c code a sched, c < 4 → code < 19 → a < 2 ^ 38 →
       let x := stackPos (s.memMode c a) a
       let m := 4 * c + x.stack
       ∃ t, Runs (.uncorrectableError (.stack c code a sched) u) s t ∧ t.rd .memStatusUe m 0 = 1 ∧
         t.rd .memEccAddrChannel m 0 = x.channel % 64 ∧ t.rd .memEccAddrBank m 0 = x.bank % 16 ∧
         t.rd .memEccAddrRow m 0 = x.row % 2 ^ 15 ∧ t.mem = s.mem ∧
         (((s.memAttr c a).1 = 1 ∨ (s.memAttr c a).1 = 2) → (s.memAttr c a).2 < 16 → s.role ≠ rStandby →
           s.inCheckpoint (s.memAttr c a).2 (.stack c code a sched) = false →
           abandoned (s.memAttr c a).2 causeUe s t) ∧
         touches [.tick, .imp, .forme, .fab, .pair, .pwr, .prf, .core, .events, .cal, .gal, .cmp, .col,
           .prs, .oe, .lnk, .lsu, .mem] [.presses, .jobs, .lateXfers, .drains, .calJobs, .swaps,
           .spareNeeds, .links, .repairMap, .badWords, .relays, .out, .freeCount] s t) ∧
     (∀ q vc seq, q < 32 → vc < 3 → seq < 2 ^ 48 →
       (∃ t, Runs (.uncorrectableError (.retained q vc seq) u) s t ∧
         t.rd .galStatusRetainLost (q / 8) 0 = 1 ∧ .retainLost q ∈ t.out ∧ t.mem = s.mem ∧
         (∀ y ∈ (t.link q).retained, y.vc ≠ vc ∨ y.seq ≠ seq) ∧ touches [.tick, .imp, .forme, .fab, .pair,
           .pwr, .prf, .core, .events, .cal, .gal, .cmp, .col, .prs, .oe, .lnk, .lsu, .mem] [.presses,
           .jobs, .lateXfers, .drains, .calJobs, .swaps, .spareNeeds, .links, .repairMap, .badWords,
           .relays, .out, .freeCount] s t) ∧
       ∀ y, (s.link q).unacked.find? (fun y => y.vc = vc && y.seq = seq) = some y → y.forme < 16 →
         s.role ≠ rStandby → ∃ t, Runs (.uncorrectableError (.unacked q vc seq) u) s t ∧
           ((s.link q).spilled.contains (vc, seq) = false → t.rd .galStatusUe (q / 8) 0 = 1 ∧
             t.rd .galEccAddrRequester (q / 8) 0 = 12 + q / 4 % 2) ∧
           ((s.link q).spilled.contains (vc, seq) = true →
             ∃ m, m < 16 ∧ m / 4 = q / 8 ∧ t.rd .memStatusUe m 0 = 1) ∧
           abandoned y.forme causeUe s t ∧ touches [.tick, .imp, .forme, .fab, .pair, .pwr, .prf, .core,
             .events, .cal, .gal, .cmp, .col, .prs, .oe, .lnk, .lsu, .mem] [.presses, .jobs, .lateXfers,
             .drains, .calJobs, .swaps, .spareNeeds, .links, .repairMap, .badWords, .relays, .out,
             .freeCount] s t) ∧
     (∀ c col f, c < 4 → f < 16 → s.role ≠ rStandby →
       ∃ t, Runs (.uncorrectableError (.held c col f) u) s t ∧
         t.rd .galStatusUe c 0 = 1 ∧ t.rd .galEccAddrRequester c 0 = (if col then 3 else 4) ∧ abandoned f
           causeUe s t ∧ touches [.tick, .imp, .forme, .fab, .pair, .pwr, .prf, .core, .events, .cal, .gal,
           .cmp, .col, .prs, .oe, .lnk, .lsu, .mem] [.presses, .jobs, .lateXfers, .drains, .calJobs,
           .swaps, .spareNeeds, .links, .repairMap, .badWords, .relays, .out, .freeCount] s t) ∧
     (∀ c n line word sched, c < 4 → n < 4 → line < galLines → word < 32 →
       let a := galBase c + line * 256 + word * 8
       ∃ t, Runs (.coreLineUe (.galley c (19 + n) line word sched) u) s t ∧ t.rd .galStatusUe c 0 = 1 ∧
         t.rd .coreFaultCause 0 (4 * c + n) = 3 ∧ t.rd .coreFaultAddress 0 (4 * c + n) = a ∧
         (4 * c + n, a) ∈ t.badWords ∧ ((s.galAttr c line).1 = 3 → (c, line) ∈ t.dropped) ∧ (∀ f, t.fState
           f = s.fState f) ∧ t.mem = s.mem ∧
         touches [.tick, .fab, .prf, .core, .gal, .lnk, .mem] [.links, .repairMap, .badWords, .dropped,
           .out, .freeCount] s t) ∧
     ∀ f, f < 16 → ∃ t, Runs (.drainAcknowledged f) s t ∧
       (∀ d, (s.drains.find? fun d => d.forme = f && d.toOut) = some d →
         t.drains.length + 1 = s.drains.length ∧
         (d.moved = true → t.drains = s.drains.erase d ∧ t.mem = s.mem)) ∧
       ((s.drains.find? fun d => d.forme = f && d.toOut) = none → t.drains = s.drains ∧ t.mem = s.mem) ∧
       touches [.forme, .pair] [.mem, .presses, .drains, .dirtyOut, .links] s t)

/-- JOB_START does nothing but let time pass where the forme's step does not run, and before the job's start cycle
it does not begin the job. From that cycle on the jobs of the step on the job's engine that are due, in the
order of their start cycles and then of the job table, the job the last, each begin or wait, and then those
that wait begin while the engine has room. A job that begins is RUNNING: the slots of the step's other
transfers before its first window have passed; a compositor job shows in the engine's job field, with the
engine busy; a collective job in its engine's. A job whose engine is full waits, the engine's late flag is set
and the step is late. Of the jobs that wait the first by start cycle and then by table order begins first.
JOB_COMPLETE of a running job with an output still missing (a lookup to take, or a line that a collective job
awaits) does nothing but let time pass; else the job is done and one arrival of its engine on its barrier is
added, and no other job changes where none waits for the engine or the engine is still full; where one waits
and there is room, the first of them begins. (R170, R171, R172, R188, R196) -/
def Obligations.JobStarts : Prop :=
  (∀ (s : State) (f i : Nat) (x : Job), s.job f i = some x → x.status = .idle →
    s.nextWaiting x.chase x.col = none → x.forme = f → x.idx = i →
    let t := s.startJob f i
    (s.engineFull x.chase x.col = true →
      t.jobs = (s.setJob { x with status := .waiting }).jobs ∧
      t.rd (if x.col then .colStatusLate else .cmpStatusLate) x.chase 0 = 1 ∧ t.rd .hFormeLateStep 0 f = 1 ∧
      changes [.colStatusLate, .cmpStatusLate, .hFormeLateStep] [.jobs] s t) ∧
    (s.engineFull x.chase x.col = false → (t.job f i).map Job.status = some .running ∧
      t.rd (if x.col then .colStatusJob else .cmpStatusJob) x.chase 0 = i % 2 ^ 16 ∧
      (x.col = false → t.jobs = (s.setJob { x with status := .running }).jobs ∧
        t.mem = (s.slotsBefore f x.chase (s.jobWindow x)).mem))) ∧
  (∀ (s : State) (x : Job), s.startCycle x ≤ s.jobWindow x ∧
    ∀ r ∈ s.jobResvs x, s.jobWindow x ≤ s.rd .hFormeRelCycle x.chase x.forme + max (jStart x.desc) r.start) ∧
  (∀ (s : State) (f : Nat) (x : Job),
    (∀ i, i ∈ s.dueJobs f x ↔ ∃ d, (i, d) ∈ s.stepJobs f ∧ jChase d = x.chase ∧ jCol d = x.col ∧
      (jStart d < jStart x.desc ∨ (jStart d = jStart x.desc ∧ i ≤ x.idx))) ∧
    (s.dueJobs f x).Pairwise fun i j => ∀ d ∈ s.stepJobs f, ∀ e ∈ s.stepJobs f, d.1 = i → e.1 = j →
      jStart d.2 < jStart e.2 ∨ (jStart d.2 = jStart e.2 ∧ i < j)) ∧
  ∀ (s : State) (f job u : Nat), f < 16 →
    (s.on .hFormeStepRun 0 f = false → ∃ t, Runs (.jobStart f job u) s t ∧ changes timeFields [] s t) ∧
    (∀ x, s.on .hFormeStepRun 0 f = true → ((s.stamp u).ensureJob f job).job f job = some x →
      let w := (s.stamp u).ensureJob f job
      let now := w.rd .galCycleCycle x.chase 0
      (now < w.startCycle x → ∃ t, Runs (.jobStart f job u) s t ∧ t.jobs = w.jobs ∧
        changes timeFields [.jobs] s t) ∧
      (w.startCycle x ≤ now → ∃ t, Runs (.jobStart f job u) s t ∧
        t = (w.each (w.dueJobs f x) fun w i => w.startJob f i).beginWaiting x.chase x.col 8 ∧ touches
          [.tick, .forme, .cmp, .col] [.mem, .presses, .jobs, .drains, .dirtyOut, .links, .relays, .moe,
          .freeCount] s t)) ∧
    (∀ d, s.on .hFormeStepRun 0 f = true → s.job f job = none → s.jobDesc f job = some d →
      let x := Job.fresh f job d
      s.startCycle x ≤ (s.stamp u).rd .galCycleCycle (jChase d) 0 → s.dueJobs f x = [job] →
      s.nextWaiting (jChase d) (jCol d) = none →
      (jCol d = false → s.engineFull (jChase d) false = false → ∃ t, Runs (.jobStart f job u) s t ∧
        t.jobs = s.jobs ++ [{ x with status := .running }] ∧
        t.rd .cmpStatusJob (jChase d) 0 = job % 2 ^ 16 ∧ t.rd .cmpStatusBusy (jChase d) 0 = 1 ∧
        ((∀ d ∈ s.drains, d.moved = true) → t.mem = s.mem) ∧
        changes (.cmpStatusJob :: .cmpStatusBusy :: .colStatusBusy :: .colStatusActive :: timeFields)
          [.jobs, .mem, .presses, .drains, .dirtyOut] s t) ∧
      (s.engineFull (jChase d) (jCol d) = true → ∃ t, Runs (.jobStart f job u) s t ∧
        t.jobs = s.jobs ++ [{ x with status := .waiting }] ∧
        t.rd (if jCol d then .colStatusLate else .cmpStatusLate) (jChase d) 0 = 1 ∧
        t.rd .hFormeLateStep 0 f = 1 ∧
        changes (.colStatusLate :: .cmpStatusLate :: .hFormeLateStep :: timeFields) [.jobs] s t)) ∧
    (∀ x, s.on .hFormeStepRun 0 f = true → s.job f job = some x → x.col = false → x.status = .waiting →
      s.startCycle x ≤ (s.stamp u).rd .galCycleCycle x.chase 0 →
      (∀ i ∈ s.dueJobs f x, ∃ y, s.job f i = some y ∧ y.status ≠ .idle) →
      (s.engineFull x.chase false = false → s.nextWaiting x.chase false = some x →
        ∃ t, Runs (.jobStart f job u) s t ∧ t.jobs = (s.setJob { x with status := .running }).jobs ∧
          t.rd .cmpStatusJob x.chase 0 = job % 2 ^ 16) ∧
      (s.engineFull x.chase false = true → ∃ t, Runs (.jobStart f job u) s t ∧ changes timeFields [] s t)) ∧
    ∀ x eng, eng < 2 → x.chase < 4 →
      s.jobs.find? (fun j => j.chase = x.chase && j.col = (eng = 1) && j.idx = x.idx && j.status = .running) =
        some x →
      (x.formed = false → ∃ t, Runs (.jobComplete x.chase eng x.idx u) s t ∧ changes timeFields [] s t) ∧
      (x.formed = true →
        let w := s.setJob { x with status := .done }
        (w.nextWaiting x.chase (eng = 1) = none ∨ w.engineFull x.chase (eng = 1) = true →
          ∃ t, Runs (.jobComplete x.chase eng x.idx u) s t ∧ t.jobs = w.jobs ∧
            t.arrived x.forme (jBarrier x.desc) (eng + 1) x.chase =
              s.arrived x.forme (jBarrier x.desc) (eng + 1) x.chase + 1 ∧
            (x.col = false → changes (.cmpStatusBusy :: .colStatusBusy :: .colStatusActive :: timeFields)
              [.jobs, .arrivals, .barSent, .tokens, .links] s t) ∧ touches [.tick, .cmp, .col] [.mem,
                .presses, .jobs, .drains, .dirtyOut, .arrivals, .barSent, .tokens, .links, .relays, .moe,
                .freeCount] s t) ∧
        ∀ y, w.nextWaiting x.chase (eng = 1) = some y → w.engineFull x.chase (eng = 1) = false →
          w.job y.forme y.idx = some y →
          ∃ t, Runs (.jobComplete x.chase eng x.idx u) s t ∧
            (t.job y.forme y.idx).map Job.status = some .running ∧
            t.arrived x.forme (jBarrier x.desc) (eng + 1) x.chase =
              s.arrived x.forme (jBarrier x.desc) (eng + 1) x.chase + 1 ∧
            (eng = 0 → t.jobs = (w.setJob { y with status := .running }).jobs ∧
              t.rd .cmpStatusJob x.chase 0 = y.idx % 2 ^ 16) ∧
            touches [.tick, .cmp, .col] [.mem, .presses, .jobs, .drains, .dirtyOut, .arrivals, .barSent,
              .tokens, .links, .relays, .moe, .freeCount] s t)

/-- WINDOW_FETCH on a chase whose compositor runs no job does nothing. Else the running job takes its next 256
lookups or as many as are left, one by one in list order, with the rows that the window fetched: one fetch for
each lookup whose index is neither null nor out of range, at its row's address, and they are issued in the
order of stack, channel, bank, row and list position. A lookup counts as null, out of range (with idx_range
set) or a lookup. In GATHER it writes its row, or zeros for no row, to the lookup's output lines; in POOL it
holds the lookup's term, and on the bag's last writes the pooled row, converted, and holds nothing more.
NODE_ARRIVAL where no running step has such a job does nothing; a range that is no node sets bad_node; a node
already covered sets dup_term. A value that this chase does not combine goes on to the chase that forms the
least enclosing node, or to the shard's owner; the whole range at its owner becomes the shard's result; else
it is held until its sibling is there (where the chase's held values then exceed 8 MiB, spill is set), and
then both combine, the lower range on the left, and the parent goes the same way. (R174, R175, R176, R178,
R179, R182, R183, R184, R189, R190, R194, R195) -/
def Obligations.LookupsAndNodes : Prop :=
  (∀ (s : State) (c : Nat) (ce : List CeSite), c < 4 →
    let run := s.jobs.find? fun j => j.chase = c && !j.col && j.status = .running
    (run = none → Runs (.windowFetch c ce) s s) ∧
    ∀ x : Job, run = some x → s.job x.forme x.idx = some x →
      let d := x.desc
      let n := min 256 (pTotal d - x.nextLookup)
      let big := jKind d = 1 ∧ 2 ^ 20 < n * 4 * pDim d
      let m := s.met 4 true ce
      let v := ((if big then (m.free 1).2 else m) : State)
      let rows := (s.window x).map fun e => (e.1, s.readMem c e.2 (pRowBytes d))
      let w := (v.stageWindow x).lookups x.forme x.idx rows 256
      (∀ e : Nat × Nat, e ∈ s.window x ↔ ∃ i, x.nextLookup ≤ i ∧ i < x.nextLookup + n ∧
        nullIndex d (s.listEntry c (pIndex d) i) = false ∧
        e = (i, s.viewAddr x.forme c (pTable d) + s.listEntry c (pIndex d) i * pRowBytes d)) ∧
      (s.window x).Pairwise (fun a b => s.fetchKey c a ≤ s.fetchKey c b) ∧
      ∃ t, Runs (.windowFetch c ce) s t ∧ .fetches c ((s.window x).map Prod.snd) ∈ t.out ∧
        t.mem = w.mem ∧ t.jobs = w.jobs ∧
        (t.job x.forme x.idx).map Job.nextLookup = some (x.nextLookup + n) ∧
        (∀ g ∈ [Field.cmpExceptCountsNull, .cmpExceptCountsOutOfRange, .cmpLookupCountLookups],
          t.rd g c 0 = w.rd g c 0) ∧
        touches [.prf, .gal, .cmp, .mem] [.mem, .jobs, .repairMap, .ceLog, .out, .freeCount] s t) ∧
  (∀ (s : State) (x : Job) (rows : List (Nat × List Byte)) (row : List Byte),
    s.job x.forme x.idx = some x → (rows.find? fun e => e.1 = x.nextLookup).map Prod.snd = some row →
    let c := x.chase
    let d := x.desc
    let i := x.nextLookup
    let idx := s.listEntry c (pIndex d) i
    let null : Bool := idx = 0xFFFFFFFF || pRows d ≤ idx
    let r := if null then List.replicate (pRowBytes d) 0 else row
    let t := s.lookup x rows
    (idx = 0xFFFFFFFF → t.rd .cmpExceptCountsNull c 0 = min (2 ^ 32 - 1) (s.rd .cmpExceptCountsNull c 0 +
      1)) ∧
    (idx ≠ 0xFFFFFFFF → pRows d ≤ idx → t.rd .cmpStatusIdxRange c 0 = 1 ∧
      t.rd .cmpExceptCountsOutOfRange c 0 = min (2 ^ 32 - 1) (s.rd .cmpExceptCountsOutOfRange c 0 + 1)) ∧
    (null = false → t.rd .cmpLookupCountLookups c 0 =
      min (2 ^ 64 - 1) (s.rd .cmpLookupCountLookups c 0 + 1)) ∧
    (jKind d = 2 → t.jobs = (s.setJob { x with nextLookup := i + 1 }).jobs ∧
      t.mem = (s.putPadded c (pOut d + i * linesOf (pRowBytes d)) r).mem) ∧
    (jKind d ≠ 2 →
      let b := i / pSlots d
      let j := i % pSlots d
      let term := (pooledTerm d (s.listEntry c (pWeight d) i) (decodeRow (jFmt d) (pDim d) r).1).1
      let held := x.held ++ [if null then HeldNode.mk b j j (nullTerm d) 0 false
        else HeldNode.mk b j (j + 1) term 0 false]
      (j + 1 ≠ pSlots d → t.jobs = (s.setJob { x with nextLookup := i + 1, held := held }).jobs ∧
        t.mem = s.mem) ∧
      (j + 1 = pSlots d → t.jobs = (s.setJob { x with nextLookup := i + 1, held := [] }).jobs ∧
        t.mem = (s.writeBag { x with nextLookup := i + 1 } b
          (poolBag d ((held.filter fun h => h.lo != h.hi).length) (held.map HeldNode.vals))).mem))) ∧
  (∀ (s : State) (c job shard lo hi : Nat) (v : List Nat), c < 4 →
    (s.formeOfJob c job = none → Runs (.nodeArrival c job shard lo hi v) s s) ∧
    ∀ f d (x : Job) (p : Plan), s.formeOfJob c job = some f → s.jobDesc f job = some d →
      (jKind d = 1 ∨ jKind d = 2) → (s.ensureJob f job).job f job = some x →
      (s.ensureJob f job).planOf f x.desc = some p →
      let w := s.ensureJob f job
      let n := p.ranks.length
      let y := { x with seen := x.seen ++ [(shard, lo, hi)] }
      let own := (p.mine s.identity x.chase).any fun m => m.lo = lo && m.hi = hi
      let dst := p.next s.identity shard lo hi own
      ∃ t, Runs (.nodeArrival c job shard lo hi v) s t ∧ touches [.col] [.mem, .jobs, .links, .relays,
        .freeCount] s t ∧
        ((n ≤ shard ∨ isNode n lo hi = false) → t.rd .colStatusBadNode x.chase 0 = 1 ∧
          changes [.colStatusBadNode] [] w t) ∧
        (shard < n → isNode n lo hi = true →
          ((∃ e ∈ x.seen, e.1 = shard ∧ e.2.1 ≤ lo ∧ hi ≤ e.2.2) → t.rd .colStatusDupTerm x.chase 0 = 1 ∧
            changes [.colStatusDupTerm] [] w t) ∧
          ((∀ e ∈ x.seen, e.1 = shard → e.2.1 ≤ lo → e.2.2 < hi) →
            (lo = 0 → hi = n → t = (w.setJob y).rootResult y p shard v ∧
              (jKind x.desc = 2 → jMode x.desc = 7 →
                t.mem = (s.putPadded x.chase (cDst x.desc) (v.flatMap (natLe 8))).mem)) ∧
            (¬ (lo = 0 ∧ hi = n) →
              (∀ e, dst = some e → e ≠ (s.identity, x.chase) →
                t = (w.setJob y).sendNode y p shard lo hi v e ∧ t.mem = s.mem ∧ t.jobs = (w.setJob y).jobs) ∧
              (∀ plo phi left, dst = some (s.identity, x.chase) → parentOf n lo hi = some (plo, phi, left) →
                let sib := x.held.find? fun h =>
                  h.shard = shard && (if left then h.lo = hi && h.hi = phi else h.lo = plo && h.hi = lo)
                (sib = none →
                  let z := w.setJob { y with held := x.held ++ [⟨shard, lo, hi, v, w.nextAge x.chase,
                    false⟩] }
                  (z.heldBytes x.chase ≤ 2 ^ 23 → t = z) ∧
                  (2 ^ 23 < z.heldBytes x.chase → t.rd .colStatusSpill x.chase 0 = 1)) ∧
                ∀ h, sib = some h →
                  let r := if left then combineVals x.desc v h.vals else combineVals x.desc h.vals v
                  t = ((w.setJob { y with held := x.held.erase h }).colFlags x.chase r.2).nodeStep f job p
                    shard 31 plo phi r.1)))))

/-- LOAD in EMPTY or REJECTED reads the bit-stream at the source address into the module's own storage, clears the
error report and leaves the slot VERIFYING; in any other state it is ignored and sets cmd_ignored alone.
VERIFY_COMPLETE in VERIFYING goes on to CHECKING where header, digest, signature, rollback, identity and
capability pass, and else leaves the slot REJECTED with the error's code and no stored bytes. CHECK_COMPLETE
in CHECKING leaves LOADED with the parsed imposition, or REJECTED with code, section, forme and variant; both
set the imposition event. In another state each does nothing, and neither does anything while a DISCARD waits
for the check to stop. DISCARD empties a LOADED or REJECTED slot and marks a running check to stop, once;
DISCARD_STOP then empties the slot, and without one, or in another state, does nothing. (R217, R218, R219,
R220, R221, R484) -/
def Obligations.ImpositionLoad : Prop :=
  ∀ (s : State) (u : Nat),
    let v := s.stamp u
    ((s.slot = iEmpty ∨ s.slot = iRejected) → ∃ t, Runs (.impLoad u) s t ∧ t.slot = iVerifying ∧
      t.loaded = none ∧ t.pendingBytes = s.readMem 0 (s.rd .modImpSrcAddr 0 0) (s.rd .modImpLenBytes 0 0) ∧
      t.rd .modImpStatusError 0 0 = 0 ∧ touches [.tick, .imp, .events] [.loaded, .pendingBytes] s t) ∧
    (s.slot ≠ iEmpty → s.slot ≠ iRejected → ∃ t, Runs (.impLoad u) s t ∧
      t.rd .modImpStatusCmdIgnored 0 0 = 1 ∧ changes (.modImpStatusCmdIgnored :: timeFields) [] s t) ∧
    (s.slot = iVerifying → s.on .hImpDiscard 0 0 = false →
      (v.verifyErr s.pendingBytes = none → ∃ t, Runs (.verifyComplete u) s t ∧ t.slot = iChecking ∧
        changes (.modImpStatusPending :: timeFields) [] s t) ∧
      (∀ e, v.verifyErr s.pendingBytes = some e → ∃ t, Runs (.verifyComplete u) s t ∧ t.slot = iRejected ∧
        t.rd .modImpStatusError 0 0 = e.code % 256 ∧ t.loaded = none ∧ t.pendingBytes = [] ∧
        t.rd .coreIrqEventsImp 0 0 = 1 ∧ touches [.tick, .imp, .irq, .events] [.loaded, .pendingBytes] s t)) ∧
    ((s.slot ≠ iVerifying ∨ s.on .hImpDiscard 0 0 = true) → ∃ t, Runs (.verifyComplete u) s t ∧ changes
      timeFields [] s t) ∧
    (s.slot = iChecking → s.on .hImpDiscard 0 0 = false →
      (v.checkErr s.pendingBytes = none → ∃ t, Runs (.checkComplete u) s t ∧ t.slot = iLoaded ∧
        t.loaded = some (parseImp s.pendingBytes) ∧ t.rd .coreIrqEventsImp 0 0 = 1 ∧
        t.active = s.active ∧ touches [.tick, .imp, .irq, .events] [.loaded, .pendingBytes] s t) ∧
      (∀ e, v.checkErr s.pendingBytes = some e → ∃ t, Runs (.checkComplete u) s t ∧ t.slot = iRejected ∧
        t.rd .modImpStatusError 0 0 = e.code % 256 ∧ t.rd .modImpStatusSection 0 0 = e.sec % 256 ∧
        t.rd .modImpStatusForme 0 0 = e.forme % 256 ∧ t.rd .modImpStatusVariant 0 0 = e.variant % 256 ∧
        t.loaded = none ∧ t.rd .coreIrqEventsImp 0 0 = 1 ∧ touches [.tick, .imp, .irq, .events] [.loaded,
          .pendingBytes] s t)) ∧
    ((s.slot ≠ iChecking ∨ s.on .hImpDiscard 0 0 = true) → ∃ t, Runs (.checkComplete u) s t ∧ changes
      timeFields [] s t) ∧
    ((s.slot = iLoaded ∨ s.slot = iRejected) → ∃ t, Runs (.impDiscard u) s t ∧ t.slot = iEmpty ∧
      t.loaded = none ∧ t.pendingBytes = [] ∧
      changes (.modImpStatusPending :: .hImpDiscard :: timeFields) [.loaded, .pendingBytes] s t) ∧
    ((s.slot = iVerifying ∨ s.slot = iChecking) →
      (s.on .hImpDiscard 0 0 = false → ∃ t, Runs (.impDiscard u) s t ∧ t.rd .hImpDiscard 0 0 = 1 ∧
        changes (.hImpDiscard :: timeFields) [] s t) ∧
      (s.on .hImpDiscard 0 0 = true →
        (∃ t, Runs (.impDiscard u) s t ∧ t.rd .modImpStatusCmdIgnored 0 0 = 1 ∧
          changes (.modImpStatusCmdIgnored :: timeFields) [] s t) ∧
        ∃ t, Runs (.discardStop u) s t ∧ t.slot = iEmpty ∧ t.loaded = none ∧ t.pendingBytes = [] ∧
          changes (.modImpStatusPending :: .hImpDiscard :: timeFields) [.loaded, .pendingBytes] s t)) ∧
    ((s.on .hImpDiscard 0 0 = false ∨ (s.slot ≠ iVerifying ∧ s.slot ≠ iChecking)) →
      ∃ t, Runs (.discardStop u) s t ∧ changes timeFields [] s t)

/-- COMMIT of a LOADED slot whose carried formes fit begins the switch: the slot is COMMITTING; a carried forme
that does not fit leaves it REJECTED with the forme's number; in any other state the command is ignored.
DISCARD cancels a switch that has not begun to write, and is ignored in EMPTY and after that. SWITCH, with
every forme held and every port quiesced, writes the anti-rollback counter, takes presses outside every forme
OFF unless FAILED and powers those inside for their proof; where the counter cannot be written the slot is
REJECTED. SWITCH_COMPLETE makes the imposition active and the slot EMPTY, shows its rollback version, and sets
the imposition event; on a first imposition with no lit port every forme is LOADED at the edition before its
first. Without a switch in that step each does nothing. (R104, R219, R222, R366, R367, R470) -/
def Obligations.ImpositionSwitch : Prop :=
  ∀ (s : State) (u : Nat),
    let v := s.stamp u
    (s.slot = iLoaded → v.carryFault = none → ∃ t, Runs (.impCommit u) s t ∧ t.slot = iCommitting ∧
      t.rd .hImpSwitchStep 0 0 = 1 ∧ t.active = s.active ∧ touches [.tick, .imp, .forme, .fab, .pair, .pwr,
        .prf, .irq, .events, .cal, .cmp, .col, .prs, .oe, .lnk, .lsu, .mem] [.presses, .loaded,
        .pendingBytes, .jobs, .lateXfers, .drains, .calJobs, .calRuns, .swaps, .spareNeeds, .barSent,
        .links, .repairMap, .flashQ, .relays, .freeCount] s t) ∧
    (∀ f, s.slot = iLoaded → v.carryFault = some f → ∃ t, Runs (.impCommit u) s t ∧ t.slot = iRejected ∧
      t.rd .modImpStatusForme 0 0 = f % 256 ∧ t.active = s.active ∧ touches [.tick, .imp, .forme, .fab,
        .pair, .pwr, .prf, .irq, .events, .cal, .cmp, .col, .prs, .oe, .lnk, .lsu, .mem] [.presses,
        .loaded, .pendingBytes, .jobs, .lateXfers, .drains, .calJobs, .calRuns, .swaps, .spareNeeds,
        .barSent, .links, .repairMap, .flashQ, .relays, .freeCount] s t) ∧
    (s.slot ≠ iLoaded → ∃ t, Runs (.impCommit u) s t ∧ t.rd .modImpStatusCmdIgnored 0 0 = 1 ∧
      changes (.modImpStatusCmdIgnored :: timeFields) [] s t) ∧
    (s.slot = iCommitting → s.rd .hImpSwitchStep 0 0 = 1 → ∃ t, Runs (.impDiscard u) s t ∧
      t.slot = iEmpty ∧ t.loaded = none ∧ t.active = s.active ∧ touches [.tick, .imp, .forme, .fab, .pair,
        .pwr, .prf, .events, .cal, .cmp, .col, .prs, .oe, .lnk, .lsu, .mem] [.presses, .loaded,
        .pendingBytes, .jobs, .lateXfers, .drains, .calJobs, .calRuns, .swaps, .spareNeeds, .barSent,
        .links, .repairMap, .flashQ, .relays, .freeCount] s t) ∧
    ((s.slot = iEmpty ∨ (s.slot = iCommitting ∧ s.rd .hImpSwitchStep 0 0 ≠ 1)) →
      ∃ t, Runs (.impDiscard u) s t ∧ t.rd .modImpStatusCmdIgnored 0 0 = 1 ∧
        changes (.modImpStatusCmdIgnored :: timeFields) [] s t) ∧
    (∀ i ok, s.loaded = some i → s.slot = iCommitting → s.rd .hImpSwitchStep 0 0 = 1 →
      v.carryFault = none → v.unheld = [] → v.quiesced = true →
      (v.fabricForme = none ∨ 3 ≤ s.rd .fabStatusState 0 0) →
      ((ok = true ∨ i.rollbackVersion = s.rd .secCounterValue 0 0) →
        ∃ t, Runs (.switch ok u) s t ∧ t.slot = iCommitting ∧ t.rd .hImpSwitchStep 0 0 = 3 ∧
          t.rd .secCounterValue 0 0 = i.rollbackVersion % 2 ^ 64 ∧
          (∀ p, p < 12 → bit i.presses p = false → s.pState p ≠ pFailed → t.pState p = pOff) ∧
          (∀ p, p < 12 → bit i.presses p = true → s.pState p = pOff → t.pState p = pProof) ∧
          (∀ p, p < 12 → s.pState p = pFailed → t.pState p = pFailed) ∧ t.active = s.active ∧ touches
            [.tick, .imp, .forme, .fab, .pair, .pwr, .prf, .sec, .core, .irq, .events, .cal, .gal, .cmp,
            .col, .ddl, .gst, .prs, .fin, .case, .oe, .lnk, .lsu, .mem] [.presses, .loaded, .pendingBytes,
            .jobs, .lateXfers, .drains, .calJobs, .calRuns, .swaps, .spareNeeds, .barSent, .links,
            .repairMap, .flashQ, .relays, .freeCount] s t) ∧
      (ok = false → i.rollbackVersion ≠ s.rd .secCounterValue 0 0 →
        ∃ t, Runs (.switch ok u) s t ∧ t.slot = iRejected ∧ t.active = s.active ∧ touches [.tick, .imp,
          .forme, .fab, .pair, .pwr, .prf, .sec, .core, .irq, .events, .cal, .gal, .cmp, .col, .ddl, .gst,
          .prs, .fin, .case, .oe, .lnk, .lsu, .mem] [.presses, .loaded, .pendingBytes, .jobs, .lateXfers,
          .drains, .calJobs, .calRuns, .swaps, .spareNeeds, .barSent, .links, .repairMap, .flashQ, .relays,
          .freeCount] s t)) ∧
    (∀ ok, (s.loaded = none ∨ s.slot ≠ iCommitting ∨ s.rd .hImpSwitchStep 0 0 ≠ 1) →
      ∃ t, Runs (.switch ok u) s t ∧ changes timeFields [] s t) ∧
    (∀ i fs dead, s.loaded = some i → s.slot = iCommitting → s.rd .hImpSwitchStep 0 0 = 3 →
      ∃ t, Runs (.switchComplete fs dead u) s t ∧ t.active = some i ∧ t.loaded = none ∧ t.pendingBytes = [] ∧
        t.slot = iEmpty ∧ t.rd .hImpSwitchStep 0 0 = 0 ∧
        t.rd .modImpActiveRollbackVersion 0 0 = i.rollbackVersion % 2 ^ 64 ∧
        t.rd .coreIrqEventsImp 0 0 = 1 ∧
        (s.active = none → (∀ q, q < 32 → (i.port q).lit = false) → (i.formes.map Forme.number).Nodup →
          ∀ x ∈ i.formes, t.fState x.number = fLoaded ∧
            t.rd .modFormeEditionEdition 0 x.number = (x.startEdition - 1) % 2 ^ 64) ∧
        touches [.tick, .imp, .forme, .fab, .pair, .pwr, .prf, .core, .irq, .events, .cal, .gal, .cmp,
          .col, .ddl, .gst, .prs, .oe, .lnk, .lsu, .mem] [.presses, .active, .loaded, .pendingBytes, .jobs,
          .lateXfers, .drains, .dirtyOut, .dirtyShared, .mirrorGot, .mgtLast, .log, .calJobs, .calRuns,
          .swaps, .spareNeeds, .arrivals, .barDone, .barSent, .links, .repairMap, .idleDebt, .flashQ,
          .relays, .early, .mgtJobs, .moe, .out, .freeCount] s t) ∧
    ∀ fs dead, (s.loaded = none ∨ s.slot ≠ iCommitting ∨ s.rd .hImpSwitchStep 0 0 ≠ 3) →
      ∃ t, Runs (.switchComplete fs dead u) s t ∧ changes timeFields [] s t

/-- START of a LOADED forme on a module whose role is ACTIVE and that switches no imposition, whose presses have
no failed strip waiting, with no cause and no error in its checkpoint region that waits and which some variant
fits, leaves it RUNNING at point P1 with that variant and its first step ready; a cause that waited abandons
it there. HOLD and PARK are noted for the edition or step boundary, whatever the forme's state. RESUME of a
HELD forme, or of one PARKED for a reason other than CAP_UNMET and NO_VARIANT, with neither of these waiting,
in the middle of an edition that it does not replay, leaves it RUNNING with its next step ready and no park
reason; at an edition's start or for a replay it prepares the edition, RUNNING where a variant fits. START and
RESUME in another state wait for one that admits them, and do nothing else; the stamp of the first is kept.
RESUME of a forme parked for CAP_UNMET, a command to a forme that is not there, or one that abandoned at that
stamp, and a START or RESUME on a module whose role is not ACTIVE, sets cmd_ignored and changes nothing else.
(R223, R231, R232, R236, R237, R240, R370, R402, R415) -/
def Obligations.FormeCommands : Prop :=
  ∀ (s : State) (f u : Nat), f < 16 →
    let v := s.stamp u
    let ignored (c : Instr) :=
      ∃ t, Runs c s t ∧ t.rd .modImpStatusCmdIgnored 0 0 = 1 ∧
        changes (.modImpStatusCmdIgnored :: timeFields) [] s t
    let gone := s.fState f = fNone ∨ v.abandonedAt f u = true
    let capParked := s.fState f = fParked ∧ s.rd .modFormeStatusParkReason 0 f = parkCap
    let waits (c : Instr) (pend tick : Field) :=
      ∃ t, Runs c s t ∧ t.rd pend 0 f = 1 ∧
        (s.on pend 0 f = false → u + 1 < 2 ^ 64 → t.rd tick 0 f = u + 1) ∧
        (s.on pend 0 f = true → t.rd tick 0 f = s.rd tick 0 f) ∧ changes (pend :: tick :: timeFields) [] s t
    (gone → ignored (.formeStart f u) ∧ ignored (.formeHold f u) ∧ ignored (.formePark f u) ∧
      ignored (.formeResume f u)) ∧
    (s.role ≠ rActive → ignored (.formeStart f u) ∧ ignored (.formeResume f u)) ∧
    (capParked → ignored (.formeResume f u)) ∧
    (¬ gone → v.letIn f u = v →
      waits (.formeHold f u) .hFormeHoldPend .hFormeHoldTick ∧
      waits (.formePark f u) .hFormeParkPend .hFormeParkTick ∧
      (s.role = rActive → v.startable f = false → waits (.formeStart f u) .hFormeStartPend .hFormeStartTick) ∧
      (s.role = rActive → v.resumable f = false → ¬capParked →
        waits (.formeResume f u) .hFormeResumePend .hFormeResumeTick)) ∧
    (∀ x w, v.startable f = true → s.forme f = some x → x.number = f →
      (∀ p, s.rd .hPrsFailPend p 0 = 0) → s.on .hFormeCkptPend 0 f = false →
      (v.judgeEngines x).select x = some w →
      (s.rd .hFormeCausePend 0 f = 0 → ∃ t, Runs (.formeStart f u) s t ∧ t.fState f = fRunning ∧
        t.rd .pwrFormePoint 0 f = 1 ∧ t.rd .modFormeStatusVariant 0 f = w.number % 32 ∧
        t.rd .hFormeReady 0 f = 1 ∧ t.rd .hFormeStartPend 0 f = 0 ∧ touches [.tick, .imp, .forme, .pair,
          .pwr, .prf, .events, .cal, .cmp, .col, .prs, .oe, .lnk, .lsu, .mem] [.presses, .jobs, .lateXfers,
          .drains, .calJobs, .calRuns, .swaps, .spareNeeds, .barSent, .links, .repairMap, .flashQ, .relays,
          .freeCount] s t) ∧
      (s.rd .hFormeCausePend 0 f ≠ 0 → ∃ t, Runs (.formeStart f u) s t ∧ t.fState f = fAbandoning ∧
        t.rd .modFormeStatusCause 0 f = s.rd .hFormeCausePend 0 f ∧ t.rd .hFormeCausePend 0 f = 0 ∧
        touches [.tick, .imp, .forme, .pair, .pwr, .prf, .events, .cal, .cmp, .col, .prs, .oe, .lnk, .lsu,
          .mem] [.presses, .jobs, .lateXfers, .drains, .calJobs, .calRuns, .swaps, .spareNeeds, .barSent,
          .links, .repairMap, .flashQ, .relays, .freeCount] s t)) ∧
    (v.resumable f = true → s.rd .hFormeCausePend 0 f = 0 → s.on .hFormeCkptPend 0 f = false →
      (s.on .hFormeParkReplay 0 f = false → s.rd .hFormeNextQ 0 f ≠ s.rd .hFormeEdQ 0 f →
        ∃ t, Runs (.formeResume f u) s t ∧ t.fState f = fRunning ∧ t.rd .pwrFormePoint 0 f = 1 ∧
          t.rd .modFormeStatusParkReason 0 f = 0 ∧ t.rd .hFormeReady 0 f = 1 ∧
          changes (.modFormeStatusState :: .pwrFormePoint :: .modFormeStatusParkReason :: .hFormeReady ::
            .hFormeResumePend :: .hFormeResumeTick :: timeFields) [] s t) ∧
      (∀ x w, s.forme f = some x → x.number = f → (∀ p, s.rd .hPrsFailPend p 0 = 0) →
        (v.judgeEngines x).select x = some w →
        ∃ t, Runs (.formeResume f u) s t ∧ t.fState f = fRunning ∧
          (s.on .hFormeParkReplay 0 f = true → t.rd .modFormeStatusReplay 0 f = 1) ∧ touches [.tick, .imp,
            .forme, .pair, .pwr, .prf, .events, .cal, .cmp, .col, .prs, .oe, .lnk, .lsu, .mem] [.presses,
            .jobs, .lateXfers, .drains, .calJobs, .calRuns, .swaps, .spareNeeds, .barSent, .links,
            .repairMap, .flashQ, .relays, .freeCount] s t))

/-- STEP_RELEASE of a forme whose next step is ready, in the middle of an edition, or at its start with the peers'
tokens there and the pre-release batch done, releases it: the step's number and stamp are noted, the step
runs, and every READY press of the variant is ACTIVE at its entry with its tokens, address and key registers,
loops, barrier counts, unit queues and shadow loads cleared, and a FAILED one stays so; the fabric forme at an
edition's start waits in EDITION_WAIT where a peer's token is missing; a forme that is not ready is left
alone. STEP_COMPLETE before the watchdog's tick, once every press has reported and every job is done, ends the
step: late is set and counted where the stamp or a job is late and not otherwise, the last step of an edition
leaves the forme CLOSING, and a PARK that waits parks it, unless a RESUME waits too; at or after the
watchdog's tick it abandons the edition with STEP_TIMEOUT; before the step has finished it does nothing.
WATCHDOG_TIMEOUT at or after the watchdog's tick abandons the edition with STEP_TIMEOUT, and earlier does
nothing. (R106, R108, R223, R224, R225, R231, R232, R240, R360) -/
def Obligations.FormeSteps : Prop :=
  ∀ (s : State) (f u : Nat), f < 16 →
    let v := s.stamp u
    (∀ x w, v.forme f = some x → x.number = f → v.variant f = some w → v.releasable f = true →
      ((s.rd .hFormeNextQ 0 f ≠ s.rd .hFormeEdQ 0 f ∨
          ((x.fabric = false ∨ v.peersReady x = true) ∧ v.batchDone x = true)) →
        ∃ t, Runs (.stepRelease f u) s t ∧ t.rd .modFormeStepQ 0 f = s.rd .hFormeNextQ 0 f % 2 ^ 64 ∧
          t.rd .hFormeNextQ 0 f = (s.rd .hFormeNextQ 0 f + 1) % 2 ^ 64 ∧ t.rd .hFormeRelTick 0 f = u ∧
          t.rd .hFormeStepRun 0 f = 1 ∧
          (∀ p ∈ bitsSet w.pressMask 12, (s.pState p = pReady → t.pState p = pActive) ∧
            (s.pState p = pFailed → t.pState p = pFailed) ∧
            (t.press p).queues = [] ∧ (t.press p).shadow = [] ∧
            t.rd .prsSeqStatusPc p 0 =
              w.entry p (s.rd .prsSeqStatusForm p 0) (s.rd .hFormeNextQ 0 f) % 2 ^ 14 ∧
            (t.press p).tokens = [] ∧ (t.press p).ads = [] ∧ (t.press p).keys = [] ∧
            (t.press p).frames = [] ∧ (t.press p).signals = [] ∧ (t.press p).rampMode = 0 ∧
            (t.press p).live = (s.press p).live) ∧
          touches [.tick, .forme, .fab, .pair, .pwr, .prf, .gal, .cmp, .col, .prs, .lnk] [.mem, .presses,
            .jobs, .drains, .dirtyShared, .arrivals, .barDone, .links, .relays, .early, .out, .freeCount] s
            t) ∧
      (s.rd .hFormeNextQ 0 f = s.rd .hFormeEdQ 0 f → x.fabric = true → v.peersReady x = false →
        ∃ t, Runs (.stepRelease f u) s t ∧ t.rd .fabStatusState 0 0 = 2 ∧
          changes (.fabStatusState :: .hFormeWaitTick :: timeFields) [] s t)) ∧
    (v.releasable f = false → ∃ t, Runs (.stepRelease f u) s t ∧ changes timeFields [] s t) ∧
    (∀ e ce, v.curStep f = some e → s.fState f = fRunning → v.stepFinished f = true →
      (s.rd .hFormeRelTick 0 f + e.watchdog ≤ u → ∃ t, Runs (.stepComplete f ce u) s t ∧
        abandoned f causeTimeout s t ∧ touches [.tick, .imp, .forme, .pair, .pwr, .prf, .irq, .events,
          .cal, .gal, .cmp, .col, .prs, .oe, .lnk, .lsu, .mem] [.mem, .presses, .jobs, .lateXfers, .drains,
          .dirtyOut, .calJobs, .calRuns, .swaps, .spareNeeds, .barSent, .links, .repairMap, .ceLog,
          .idleDebt, .flashQ, .badWords, .relays, .freeCount] s t) ∧
      (u < s.rd .hFormeRelTick 0 f + e.watchdog → ∃ t, Runs (.stepComplete f ce u) s t ∧
        t.rd .hFormeStepRun 0 f = 0 ∧
        (e.editionEnd = true → t.fState f = fClosing) ∧
        (e.editionEnd = false → s.on .hFormeParkPend 0 f = true → s.on .hFormeResumePend 0 f = false →
          t.fState f = fParked ∧ t.rd .modFormeStatusParkReason 0 f = parkSupervisor) ∧
        ((s.rd .hFormeRelTick 0 f + e.nominal + e.slack ≤ u ∨ s.on .hFormeLateStep 0 f = true) →
          t.rd .modFormeStatusLate 0 f = 1 ∧
          t.rd .modFormeCountsLateSteps 0 f = min (2 ^ 32 - 1) (s.rd .modFormeCountsLateSteps 0 f + 1)) ∧
        (u < s.rd .hFormeRelTick 0 f + e.nominal + e.slack → s.on .hFormeLateStep 0 f = false →
          t.rd .modFormeStatusLate 0 f = s.rd .modFormeStatusLate 0 f ∧
          t.rd .modFormeCountsLateSteps 0 f = s.rd .modFormeCountsLateSteps 0 f) ∧
        touches [.tick, .imp, .forme, .pair, .pwr, .prf, .irq, .events, .cal, .gal, .cmp, .col, .prs, .oe,
          .lnk, .lsu, .mem] [.mem, .presses, .jobs, .lateXfers, .drains, .dirtyOut, .calJobs, .calRuns,
          .swaps, .spareNeeds, .barSent, .links, .repairMap, .ceLog, .idleDebt, .flashQ, .badWords,
          .relays, .freeCount] s t)) ∧
    ((s.fState f ≠ fRunning ∨ v.stepFinished f = false) →
      ∀ ce, ∃ t, Runs (.stepComplete f ce u) s t ∧ changes timeFields [] s t) ∧
    (∀ e, v.curStep f = some e →
      (s.on .hFormeStepRun 0 f = true → s.rd .hFormeRelTick 0 f + e.watchdog ≤ u →
        ∃ t, Runs (.watchdogTimeout f u) s t ∧ abandoned f causeTimeout s t ∧ touches [.tick, .imp, .forme,
          .cmp, .col, .prs] [.presses, .jobs, .lateXfers, .drains, .links, .relays, .freeCount] s t) ∧
      ((s.on .hFormeStepRun 0 f = false ∨ u < s.rd .hFormeRelTick 0 f + e.watchdog) →
        ∃ t, Runs (.watchdogTimeout f u) s t ∧ changes timeFields [] s t))

/-- EDITION_COMMIT in CLOSING with its drains acknowledged, its slices done and its mirroring done or not needed
writes the checkpoint record, shows the committed edition and the commit's stamp, clears replay and sets the
forme's commit event; with a HOLD that waits, no RESUME that waits and no swap under way the forme is HELD.
With a condition not met the forme stays CLOSING at its edition, and in any other state nothing happens.
UNITS_STOPPED in ABANDONING the first time, with no further cause and no checkpoint error that waits, replays
the edition, RUNNING with replay set where a variant fits; the second time, without a live partner or a RESUME
that waits, it parks the forme with ABANDONED, or UNCORRECTABLE where that was the cause. VARIANT_REWRITE_DONE
writes the stores of the variant in force and counts the change; with no rewrite in hand it does nothing.
(R229, R230, R231, R234, R235, R238, R484) -/
def Obligations.EditionCommits : Prop :=
  ∀ (s : State) (f u : Nat), f < 16 →
    let v := s.stamp u
    (∀ x, v.forme f = some x → x.number = f →
      (s.fState f = fClosing → v.drainsDone f = true → v.slicesDone f = true → (v.mirrorOk x).1 = true →
        ∃ t, Runs (.editionCommit f u) s t ∧
          (s.rd .modFormeEditionEdition 0 f + 1 < 2 ^ 64 →
            t.rd .modFormeEditionEdition 0 f = s.rd .modFormeEditionEdition 0 f + 1) ∧
          t.rd .modFormeCommitTickTick 0 f = u % 2 ^ 64 ∧ t.rd .modFormeStatusReplay 0 f = 0 ∧
          t.log = ⟨f, s.rd .modFormeStatusVariant 0 f, s.edition f, s.rd .hFormeNextQ 0 f, u⟩ :: s.log ∧
          bit (t.rd .coreIrqEventsCommit 0 0) f = true ∧
          (s.on .hFormeHoldPend 0 f = true → s.on .hFormeResumePend 0 f = false →
            s.rd .hPairSwapEdition 0 0 = 0 → t.fState f = fHeld) ∧ touches [.tick, .imp, .forme, .fab,
              .pair, .pwr, .prf, .irq, .events, .cal, .cmp, .col, .prs, .oe, .lnk, .lsu, .mem] [.presses,
              .jobs, .lateXfers, .drains, .dirtyOut, .log, .calJobs, .calRuns, .swaps, .spareNeeds,
              .barSent, .links, .repairMap, .idleDebt, .flashQ, .relays, .freeCount] s t) ∧
      (s.fState f = fClosing → (v.drainsDone f && v.slicesDone f && (v.mirrorOk x).1) = false →
        ∃ t, Runs (.editionCommit f u) s t ∧ t.fState f = fClosing ∧
          t.rd .modFormeEditionEdition 0 f = s.rd .modFormeEditionEdition 0 f ∧ t.log = s.log ∧
          touches [.tick, .imp, .forme, .fab, .pair, .pwr, .prf, .irq, .events, .cal, .cmp, .col, .prs,
            .oe, .lnk, .lsu, .mem] [.presses, .jobs, .lateXfers, .drains, .dirtyOut, .log, .calJobs,
            .calRuns, .swaps, .spareNeeds, .barSent, .links, .repairMap, .idleDebt, .flashQ, .relays,
            .freeCount] s t) ∧
      (s.fState f ≠ fClosing → ∃ t, Runs (.editionCommit f u) s t ∧ changes timeFields [] s t) ∧
      (s.fState f = fAbandoning → s.on .hFormeAbandoned 0 f = false → s.rd .hFormeCausePend 0 f = 0 →
        (∀ p, s.rd .hPrsFailPend p 0 = 0) → s.on .hFormeCkptPend 0 f = false →
        ∀ w, (v.judgeEngines x).select x = some w →
        ∃ t, Runs (.unitsStopped f u) s t ∧ t.rd .hFormeAbandoned 0 f = 1 ∧ t.fState f = fRunning ∧
          t.rd .modFormeStatusReplay 0 f = 1 ∧
          t.rd .modFormeEditionEdition 0 f = s.rd .modFormeEditionEdition 0 f ∧ touches [.tick, .imp,
            .forme, .pair, .pwr, .prf, .irq, .events, .cal, .cmp, .col, .prs, .oe, .lnk, .lsu, .mem] [.mem,
            .presses, .jobs, .lateXfers, .drains, .dirtyOut, .calJobs, .calRuns, .swaps, .spareNeeds,
            .barSent, .links, .repairMap, .flashQ, .relays, .moe, .freeCount] s t) ∧
      (s.fState f = fAbandoning → s.on .hFormeAbandoned 0 f = true → v.livePartner = false →
        s.on .hFormeResumePend 0 f = false →
        ∃ t, Runs (.unitsStopped f u) s t ∧ t.fState f = fParked ∧
          (v.outsideCause x = true → t.rd .modFormeStatusParkReason 0 f = parkAbandon) ∧
          (v.outsideCause x = false → t.rd .modFormeStatusParkReason 0 f =
            if s.rd .modFormeStatusCause 0 f = causeUe then parkUe else parkAbandon) ∧ touches [.tick,
              .imp, .forme, .pair, .pwr, .prf, .irq, .events, .cal, .cmp, .col, .prs, .oe, .lnk, .lsu,
              .mem] [.mem, .presses, .jobs, .lateXfers, .drains, .dirtyOut, .calJobs, .calRuns, .swaps,
              .spareNeeds, .barSent, .links, .repairMap, .flashQ, .relays, .moe, .freeCount] s t) ∧
      (s.fState f ≠ fAbandoning → ∃ t, Runs (.unitsStopped f u) s t ∧ changes timeFields [] s t)) ∧
    ∀ w, v.variant f = some w →
      (s.on .hFormeRewrite 0 f = true → ∃ t, Runs (.variantRewriteDone f u) s t ∧
        t.rd .hFormeRewrite 0 f = 0 ∧
        t.rd .modFormeCountsVariantChanges 0 f = min 65535 (s.rd .modFormeCountsVariantChanges 0 f + 1) ∧
        (∀ p ∈ bitsSet w.pressMask 12, (t.press p).istore = w.stores p) ∧
        (∀ p, p ∉ bitsSet w.pressMask 12 → t.press p = s.press p) ∧
        changes (.hFormeRewrite :: .modFormeCountsVariantChanges :: timeFields) [.presses] s t) ∧
      (s.on .hFormeRewrite 0 f = false → ∃ t, Runs (.variantRewriteDone f u) s t ∧ changes timeFields [] s t)

/-- For every ring of an engine that is locked (a HOLD of 200 ticks after a switch of its source that has ended
included), HEATER_LOOP_UPDATE moves the loop's correction by the measured error held to 2 codes either way and
the temperature bias by at most 2 codes toward its band's value (an opaque value of the model, log entry 19),
and drives the heater with lock code plus bias plus correction less crosstalk, held to 0 to 4095; a correction
of more than 256 codes in native mode makes the lane due on both fibres; else nothing but those three changes.
A ring in another state keeps everything. OE_CAL_CTRL_WRITE writes delta, held to 4 to 40, and the mode, which
is in force at once on each fibre pair where no calibration runs, and changes nothing else. For every engine
and sample, each transmit and receive monitor, and each source monitor, shows its reading in 0.01 dBm as
16-bit two's complement. Where some path loses more than 1.0 dB above its nominal and no loss is shown yet,
the first such loss shows with its element, bank, direction, wavelength and excess; where none does or one is
shown already, nothing but the monitors changes. (R246, R247, R248, R254, R255, R260, R261) -/
def Obligations.RingLoopsAndMonitors : Prop :=
  (∀ (s : State) (k : Nat), k < 8 →
     (∀ r err, r < 80 →
       (s.ringState k r = 2 →
         let g := s.ringFib k r / 2
         let e := s.ringErr.getD (k, r) 0 + clampI err (-2) 2
         let b0 := sgn 12 (s.rd .oeRingBias k r)
         let b := b0 + clampI (Config.heaterBias k (s.rd .oeStatusBand k 0) - b0) (-2) 2
         let d := clampI (Int.ofNat (s.rd .oeRingLockCode k r) + b + e - s.crosstalk k r) 0 4095
         ∃ t, Runs (.heaterLoopUpdate k r err) s t ∧ t.ringErr = s.ringErr.put (k, r) e ∧
           t.rd .oeRingBias k r = twos 12 b ∧ t.rd .oeRingDrive k r = d.toNat ∧
           (256 < e.natAbs → s.rd .hOeCalMode k g = 0 →
             bit (t.rd .oeFibreStatusCalDue k (2 * g)) (r % 10) = true ∧
             bit (t.rd .oeFibreStatusCalDue k (2 * g + 1)) (r % 10) = true) ∧
           (e.natAbs ≤ 256 ∨ s.rd .hOeCalMode k g ≠ 0 →
             changes [.oeRingBias, .oeRingDrive] [.ringErr] s t) ∧
           touches [.cal, .oe] [.calJobs, .calRuns, .ringErr, .links] s t) ∧
       (s.ringState k r ≠ 2 → Runs (.heaterLoopUpdate k r err) s s)) ∧
     ∀ value, ∃ t, Runs (.oeCalCtrlWrite k value) s t ∧
       t.rd .oeCalCtrlDelta k 0 = max 4 (min 40 (value % 256)) ∧ t.rd .oeCalCtrlMode k 0 = value / 256 % 2 ∧
       (∀ g < 4, ((∀ c ∈ s.calJobs, c.engine ≠ k ∨ c.fibre ≠ g) →
           t.rd .hOeCalMode k g = value / 256 % 2) ∧
         ((∃ c ∈ s.calJobs, c.engine = k ∧ c.fibre = g) →
           t.rd .hOeCalMode k g = s.rd .hOeCalMode k g)) ∧
       changes [.oeCalCtrlDelta, .oeCalCtrlMode, .hOeCalMode] [] s t) ∧
  (∀ (s : State) (k u : Nat) (m : MonSample), k < 8 →
     let v := s.stamp u
     ∃ t, Runs (.powerMonitorSample k m u) s t ∧
       (∀ w < 10, t.rd .oeSrcMonS1A k w = twos 16 (m.s1a.getD w (-32768)) ∧
         t.rd .oeSrcMonS1B k w = twos 16 (m.s1b.getD w (-32768))) ∧
       (∀ i < 40, t.rd .oeMonS2 k i = twos 16 (m.s2.getD i (-32768)) ∧
         t.rd .oeMonS4 k i = twos 16 (m.s4.getD i (-32768)) ∧
         t.rd .oeMonS5 k i = twos 16 (m.s5.getD i (-32768)) ∧
         t.rd .oeMonS6 k i = twos 16 (m.s6.getD i (-32768))) ∧
       (v.losses k m = [] ∨ s.on .oeLossFaultValid k 0 = true →
         changes (.oeSrcMonS1A :: .oeSrcMonS1B :: .oeMonS2 :: .oeMonS4 :: .oeMonS5 :: .oeMonS6 :: timeFields)
           [] s t) ∧
       (∀ x l, v.losses k m = x :: l → s.on .oeLossFaultValid k 0 = false →
         t.rd .oeLossFaultValid k 0 = 1 ∧ t.rd .oeLossFaultElement k 0 = x.element % 16 ∧
         t.rd .oeLossFaultBank k 0 = x.bank % 4 ∧ t.rd .oeLossFaultDir k 0 = x.dir % 2 ∧
         t.rd .oeLossFaultWavelength k 0 = x.w % 16 ∧ t.rd .oeLossFaultExcess k 0 = x.excess % 256) ∧
       touches [.tick, .oe] [] s t)

/-- For every ring, TONE_WINDOW shows the strongest tone, or 31 where there is none, and changes nothing else
where the ring is not locked, its selector blocks (log entry 84) or the window shows its own source's tone
with the margin. Else it is a mislock: its stamp joins those of the last 2^34 ticks, their number shows up to
15, the engine counts it, and the heater is off; where it is the first of them the ring recovers: it parks
while its lane carries traffic and sweeps once it does not; where it is a further one the ring is marked
suspect and parks and its data lane is retired. MISLOCK_RECOVERY_DONE locks a ring that sweeps to recover at
its new code with the loop's correction back at zero, and makes its data lane due in native mode; any other
ring keeps everything. (R249, R250, R251, R254, R257) -/
def Obligations.ToneWindows : Prop :=
  ∀ (s : State) (k r u : Nat), k < 8 → r < 80 →
    let v := s.stamp u
    let f := s.ringFib k r
    let n := s.fibPort k f (r % 10)
    let busy := if f % 2 = 0 then s.txMember n (r % 10) = true else s.lane n (r % 10) = laneMember
    (∀ tone margin,
      (s.rd .oeRingState k r < 2 ∨ v.ringLit k r = false ∨ (margin = true ∧ v.toneOk k r tone = true) →
        ∃ t, Runs (.toneWindow k r tone margin u) s t ∧
          t.rd .oeRingTone k r = (if tone < 20 then tone else 31) ∧
          changes (.oeRingTone :: timeFields) [] s t) ∧
      (2 ≤ s.rd .oeRingState k r → v.ringLit k r = true → (margin && v.toneOk k r tone) = false →
        let l := u :: (s.mislocks.getD (k, r) []).filter fun x => u - x < 2 ^ 34
        ∃ t, Runs (.toneWindow k r tone margin u) s t ∧
          t.rd .oeRingTone k r = (if tone < 20 then tone else 31) ∧
          t.mislocks = s.mislocks.put (k, r) l ∧ t.rd .oeRingMislocks k r = min 15 l.length ∧
          t.rd .oeCalEventsMislocks k 0 = min 65535 (s.rd .oeCalEventsMislocks k 0 + 1) ∧
          t.rd .oeRingDrive k r = 0 ∧
          (2 ≤ l.length → t.rd .oeRingSuspect k r = 1 ∧ t.rd .oeRingState k r = 0 ∧
            (r % 10 < 8 → bit (t.rd .oeFibreStatusRetired k f) (r % 10) = true)) ∧
          (l.length = 1 → t.rd .oeRingSuspect k r = s.rd .oeRingSuspect k r ∧
            t.rd .hOeRecover k r = 1 ∧ (¬ busy → t.rd .oeRingState k r = 1) ∧
            (busy → s.spareUse k f ≠ suRetired → t.rd .oeRingState k r = 0)) ∧
          touches [.tick, .imp, .forme, .fab, .pair, .core, .events, .cal, .gal, .cmp, .col, .ddl, .gst,
            .prs, .oe, .lnk, .lsu] [.presses, .jobs, .lateXfers, .drains, .mgtLast, .calJobs, .calRuns,
            .mislocks, .swaps, .spareNeeds, .links, .relays, .mgtJobs, .out, .freeCount] s t)) ∧
    ∀ code,
      (s.rd .oeRingState k r = 1 → s.on .hOeRecover k r = true →
        ∃ t, Runs (.mislockRecoveryDone k r code u) s t ∧ t.rd .oeRingLockCode k r = code % 4096 ∧
          t.rd .oeRingState k r = 2 ∧ t.ringErr.getD (k, r) 0 = 0 ∧
          (r % 10 < 8 → s.rd .hOeCalMode k (f / 2) = 0 →
            bit (t.rd .oeFibreStatusCalDue k (f / 2 * 2)) (r % 10) = true ∧
            bit (t.rd .oeFibreStatusCalDue k (f / 2 * 2 + 1)) (r % 10) = true) ∧
          touches [.tick, .oe] [.ringErr, .spareNeeds, .links] s t) ∧
      (s.rd .oeRingState k r ≠ 1 ∨ s.on .hOeRecover k r = false →
        quietly (.mislockRecoveryDone k r code u) s)

/-- In native mode, in force for the lane's fibre pair, CAL_DUE of a lane that its cause makes due shows it due on
both fibres of its pair, and where the pair is free, the lane can be calibrated and no lower lane is due its
calibration starts: the codes of both rings are saved, a free spare is put to it, and a data lane's traffic is
asked to move; with the pair not free nothing else changes; in continuous mode, or without its cause, it does
nothing. CONTINUOUS_CAL_NEXT, in continuous mode with the bank free, moves on to the next of nine lanes and
else does nothing. The first run of a ring in a lane's calibration is only kept; a second within 4 codes locks
the ring at their mean, and one further off is only kept; a third that agrees with neither fails, is counted,
and leaves the ring locked at its saved code unless it is the third failure in a row. LANE_RETRAINED of a data
lane whose calibration has ended asks the peer to take the lane back (CAL_END), and does nothing while the
calibration runs. A sweep of a ring that is in no calibration, unless it is an LC ring that is locked while
its port trains, or of one that does not sweep, does nothing. (R254, R255, R256, R257, R258, R259) -/
def Obligations.Calibrations : Prop :=
  ∀ (s : State) (k j u : Nat), k < 8 → j < 4 →
    let v := s.stamp u
    (∀ w why, w < 10 →
      let g := s.fibreOf k w j
      let n := s.fibPort k (2 * g) w
      (s.rd .hOeCalMode k g = 0 → v.dueBy k j w why = true → ∃ t, Runs (.calDue k j w why u) s t ∧
        bit (t.rd .oeFibreStatusCalDue k (2 * g)) w = true ∧
        bit (t.rd .oeFibreStatusCalDue k (2 * g + 1)) w = true ∧
        (v.calFree k g = false → changes (.oeFibreStatusCalDue :: timeFields) [] s t) ∧
        (v.calFree k g = true → w < 8 → (∀ x < w, s.due k (2 * g) x = false ∧ s.due k (2 * g + 1) x = false) →
          v.calLane k g w = true →
          t.calJobs = s.calJobs ++ [⟨k, n % 4, s.fibreOf k w (n % 4), w, false, none, none,
            s.rd .oeRingLockCode k (s.laneRing n w 0), s.rd .oeRingLockCode k (s.laneRing n w 1)⟩] ∧
          (s.spareUse k (s.fib n w 0) = suFree → t.spareUse k (s.fib n w 0) = suCal ∧
            t.rd .oeFibreStatusSpareLane k (s.fib n w 0) = w) ∧
          asked n 0x20 (laneArg (s.endIdentity n) w 2) s t) ∧
        touches [.tick, .cal, .oe] [.calJobs, .calRuns, .links] s t) ∧
      (s.rd .hOeCalMode k g ≠ 0 ∨ v.dueBy k j w why = false → quietly (.calDue k j w why u) s)) ∧
    (s.rd .hOeCalMode k j = 1 → v.calFree k j = true → ∃ t, Runs (.continuousCalNext k j u) s t ∧
      t.rd .hOeContNext k j = (s.rd .hOeContNext k j + 1) % 9 ∧ touches [.tick, .cal, .oe] [.calJobs,
        .calRuns, .links] s t) ∧
    (s.rd .hOeCalMode k j ≠ 1 ∨ v.calFree k j = false → quietly (.continuousCalNext k j u) s) ∧
    (∀ r c run, r < 80 → s.ringJob k r = some c → c.aborted = false → c.modRes = none →
      c.filtRes = none → s.rd .oeRingState k r = 1 →
      (s.calRuns.getD (k, r) [] = [] → ∃ t, Runs (.calibrationSweepDone k r run u) s t ∧
        t.calRuns = s.calRuns.put (k, r) [run] ∧ changes timeFields [.calRuns] s t) ∧
      (∀ a, s.calRuns.getD (k, r) [] = [a] → Machine.dist a run ≤ 4 → ∃ t, Runs (.calibrationSweepDone k r
        run u) s t ∧
        t.rd .oeRingLockCode k r = (a + run) / 2 % 4096 ∧ t.rd .oeRingState k r = 2 ∧
        t.ringErr.getD (k, r) 0 = 0 ∧ touches [.tick, .cal, .oe, .lnk, .lsu] [.calJobs, .calRuns,
          .calFails, .ringErr, .swaps, .spareNeeds, .links] s t) ∧
      (∀ a, s.calRuns.getD (k, r) [] = [a] → 4 < Machine.dist a run → ∃ t, Runs (.calibrationSweepDone k r
        run u) s t ∧
        t.calRuns = s.calRuns.put (k, r) [a, run] ∧ changes timeFields [.calRuns] s t) ∧
      (∀ a b, s.calRuns.getD (k, r) [] = [a, b] → 4 < Machine.dist a run → 4 < Machine.dist b run →
        s.calFails.getD (k, r) 0 < 2 → ∃ t, Runs (.calibrationSweepDone k r run u) s t ∧
          t.calFails.getD (k, r) 0 = s.calFails.getD (k, r) 0 + 1 ∧
          t.rd .oeRingLockCode k r = s.rd .oeRingLockCode k r ∧ t.rd .oeRingState k r = 2 ∧
          touches [.tick, .cal, .oe, .lnk, .lsu] [.calJobs, .calRuns, .calFails, .ringErr, .swaps,
            .spareNeeds, .links] s t)) ∧
    (∀ r run, r < 80 → (s.ringJob k r = none →
        r % 10 ≠ 9 ∨ s.trains (s.fibPort k (s.ringFib k r) 9) = false ∨ s.rd .oeRingState k r < 2 →
        quietly (.calibrationSweepDone k r run u) s) ∧
      (∀ c, s.ringJob k r = some c → s.rd .oeRingState k r ≠ 1 →
        quietly (.calibrationSweepDone k r run u) s)) ∧
    (∀ w c, w < 8 → s.laneJob (portOf k j) w = some c → s.linkOpen (portOf k j) = true →
      (c.aborted = true ∨ c.result.isSome = true → ∃ t, Runs (.laneRetrained k j 1 w u) s t ∧
        asked (portOf k j) 0x20 (laneArg (s.endIdentity (portOf k j)) w 3) s t ∧
        changes timeFields [.links] s t) ∧
      (c.aborted = false → c.result = none → quietly (.laneRetrained k j 1 w u) s)) ∧
    ∀ w, w < 10 → s.swapMoving k = none → quietly (.laneRetrained k j 0 w u) s

/-- For every laser, LASER_SAMPLE shows its output, bias (up to 100.0 %) and the fade rate of its outputs over the
last 2^27 ticks (log entry 85); a dark laser's sample changes nothing else. A lit laser at NORMAL goes to
WATCH, counted, where it has faded by 0.5 dB or its bias is at 80.0 %, and with neither stays; one in WATCH
that has faded by 1.0 dB or is at 88.0 % goes to PREPARE, counted, where its twin can take over, and else
stays and shows no_twin. WATCH_CLEAR returns a laser in WATCH above -0.3 dB and below 75.0 % to NORMAL and
does nothing else. TWIN_READY leaves a WARMING laser READY and ends its calibration with PASS or PASS_THIRD
where no swap of its engine waits and its twin is not in PREPARE, and does nothing to a laser that is not
WARMING. SUDDEN_LOSS of a lane that no laser carries does nothing; of a lane that one carries it is counted; a
data lane of an open link whose spare is free and wanted by nothing moves to the spare at once, LS joining and
the lane leaving. (R263, R264, R266, R268, R442, R443) -/
def Obligations.LaserFades : Prop :=
  ∀ (s : State) (u : Nat),
    (∀ n (o : Int) b, n < 160 → -32768 ≤ o → o ≤ 32767 →
      let rate := fadeRate ((s.stamp u).fadeLog n u o)
      ∃ t, Runs (.laserSample n o b u) s t ∧ t.rd .lsuLaserOutput 0 n = twos 16 o ∧
        t.rd .lsuLaserBias 0 n = min 1000 b ∧ t.rd .lsuLaserRate 0 n = twos 16 rate ∧
        (s.rd .lsuLaserLit 0 n = 0 →
          changes (.lsuLaserOutput :: .lsuLaserBias :: .lsuLaserRate :: timeFields) [.fades] s t) ∧
        (s.rd .lsuLaserLit 0 n ≠ 0 → s.rd .lsuLaserStage 0 n = 0 → -50 < o → b < 800 →
          t.rd .lsuLaserStage 0 n = 0 ∧ t.swaps = s.swaps) ∧
        (s.rd .lsuLaserLit 0 n ≠ 0 → s.rd .lsuLaserStage 0 n = 0 → (o ≤ -50 ∨ 800 ≤ b) → -100 < o → b < 880 →
          rate ≤ 500 → t.rd .lsuLaserStage 0 n = 1 ∧
          t.rd .lsuFadeCountsWatch 0 0 = min 65535 (s.rd .lsuFadeCountsWatch 0 0 + 1)) ∧
        (s.rd .lsuLaserLit 0 n ≠ 0 → s.rd .lsuLaserStage 0 n = 1 → (o ≤ -100 ∨ 880 ≤ b) → -150 < o → b < 920 →
          (s.twinUnusable n = false → t.rd .lsuLaserStage 0 n = 2 ∧
            t.rd .lsuFadeCountsPrepare 0 0 = min 65535 (s.rd .lsuFadeCountsPrepare 0 0 + 1)) ∧
          (s.twinUnusable n = true → t.rd .lsuLaserStage 0 n = 1 ∧
            (n < 80 → t.rd .lsuStatusNoTwin 0 0 = 1) ∧ (80 ≤ n → t.rd .lsuStatusNoTwinB 0 0 = 1))) ∧
        touches [.tick, .cal, .oe, .lsu] [.calJobs, .calRuns, .swaps, .spareNeeds, .links, .fades] s t) ∧
    (∀ n, n < 160 →
      (s.rd .lsuLaserStage 0 n = 1 ∧ -30 < sgn 16 (s.rd .lsuLaserOutput 0 n) ∧ s.rd .lsuLaserBias 0 n < 750 →
        ∃ t, Runs (.watchClear n u) s t ∧ t.rd .lsuLaserStage 0 n = 0 ∧
          changes (.lsuLaserStage :: timeFields) [] s t) ∧
      (¬(s.rd .lsuLaserStage 0 n = 1 ∧ -30 < sgn 16 (s.rd .lsuLaserOutput 0 n) ∧
          s.rd .lsuLaserBias 0 n < 750) → quietly (.watchClear n u) s)) ∧
    (∀ n, n < 160 →
      (s.rd .lsuLaserLit 0 n = 1 → ∃ t, Runs (.twinReady n u) s t ∧
        ((∀ x ∈ s.swaps, x.engine ≠ n % 80 / 10) → s.rd .lsuLaserStage 0 (twinOf n) ≠ 2 →
          t.rd .lsuLaserLit 0 n = 2 ∧
          (t.rd .calRecResult 0 (528 + n) = 1 ∨ t.rd .calRecResult 0 (528 + n) = 2) ∧
          changes (.lsuLaserLit :: .calRecResult :: .calRecLastTick :: timeFields) [.freeCount] s t) ∧
        touches [.tick, .cal, .oe, .lsu] [.calJobs, .calRuns, .swaps, .spareNeeds, .links, .freeCount] s t) ∧
      (s.rd .lsuLaserLit 0 n ≠ 1 → quietly (.twinReady n u) s)) ∧
    ∀ k j w, k < 8 → j < 4 → w < 10 →
      (s.carrier k j w = none → quietly (.suddenLoss k j w u) s) ∧
      ∀ x, s.carrier k j w = some x → ∃ t, Runs (.suddenLoss k j w u) s t ∧
        t.rd .lsuFadeCountsSudden 0 0 = min 65535 (s.rd .lsuFadeCountsSudden 0 0 + 1) ∧
        (w < 8 → s.linkOpen (portOf k j) = true → s.spareUse k (s.fib (portOf k j) w 0) = suFree →
          s.spareNeeds = [] → s.swaps = [] → s.twinUnusable x = true →
          t.spareUse k (s.fib (portOf k j) w 0) = suSudden ∧
          t.rd .oeFibreStatusSpareLane k (s.fib (portOf k j) w 0) = w ∧
          (t.link (portOf k j)).marks = (s.link (portOf k j)).marks ++ [(8, true), (w, false)] ∧
          asked (portOf k j) 0x20 (laneArg (s.endIdentity (portOf k j)) w 0) s t) ∧
        touches [.tick, .cal, .oe, .lsu] [.calJobs, .calRuns, .swaps, .spareNeeds, .links] s t

/-- DRAIN_UNIT of a unit without cover_ok sets refused and nothing else; with cover_ok, where the unit is bolted,
carries no lane and no swap waits, the unit is DRAINED and its bolt opens; one that is not bolted or drains
already stays as it is. RESTORE of a seated DRAINED unit bolts it, turns its rail on unless it was cut, and
proves it. RELIGHT does nothing while no shutdown is in force or a trip is latched; with neither laser trigger
fired it clears the shutdown of every engine and proves the units that shut down; where one fired, whether it
persists is a free value, and either nothing but it changes or the shutdown and the triggers clear.
UNIT_INSERTED into an empty bay bolts the unit and proves it with its 80 lasers NORMAL, dark, and in the roles
of its bay. A proof with a failed LC laser or more than eight failed leaves the unit FAILED, unbolted and
dark; else the failed ones are RETIRED. INTERLOCK_OPEN leaves a bolted unit DRAINED with its bolt open, and
UNIT_WITHDRAWN empties a bay whose bolt is open; each does nothing otherwise. (R269, R270, R271, R274, R398,
R430) -/
def Obligations.LaserUnits : Prop :=
  ∀ (s : State) (u c : Nat), u < 2 →
    let v := s.stamp c
    let bolted (x : State) := x.rd (if u = 0 then .lsuStatusBolted else .lsuStatusBoltedB) 0 0
    let present (x : State) := x.rd (if u = 0 then .lsuStatusPresent else .lsuStatusPresentB) 0 0
    let refused (x : State) := x.rd (if u = 0 then .lsuStatusRefused else .lsuStatusRefusedB) 0 0
    (v.coverOk u = false →
      ∃ t, Runs (.drainUnit u c) s t ∧ refused t = 1 ∧
        changes (.lsuStatusRefused :: .lsuStatusRefusedB :: timeFields) [] s t) ∧
    (bolted s = 1 → s.unitState u ≠ 4 → v.coverOk u = true → s.swaps = [] →
      (∀ i < 80, s.rd .lsuLaserLit 0 (80 * u + i) ≠ 3) →
      ∃ t, Runs (.drainUnit u c) s t ∧ t.unitState u = 5 ∧ bolted t = 0 ∧ touches [.tick, .cal, .oe, .lsu]
        [.calJobs, .calRuns, .swaps, .spareNeeds, .links] s t) ∧
    (v.coverOk u = true → (bolted s ≠ 1 ∨ s.unitState u = 4) → quietly (.drainUnit u c) s) ∧
    (s.unitState u = 5 → present s = 1 → ∃ t, Runs (.lsuRestore u c) s t ∧ t.unitState u = 1 ∧
      bolted t = 1 ∧ (s.rd .pwrRailState 0 (24 + u) ≠ 3 → t.rd .pwrRailState 0 (24 + u) = 1) ∧
      touches [.tick, .pwr, .cal, .oe, .lnk, .lsu] [.calJobs, .calRuns, .swaps, .spareNeeds, .links] s t) ∧
    (s.unitState u = 3 → ∃ t, Runs (.lsuRestore u c) s t ∧ (t.unitState u = 2 ∨ t.unitState u = 3) ∧
      touches [.tick, .pwr, .cal, .oe, .lnk, .lsu] [.calJobs, .calRuns, .swaps, .spareNeeds, .links] s t) ∧
    (s.unitState u ≠ 3 → (s.unitState u ≠ 5 ∨ present s ≠ 1) → quietly (.lsuRestore u c) s) ∧
    ((v.isShut = false ∨ s.rd .thmStatusTrip 0 0 = 1) → quietly (.relight c) s) ∧
    (v.isShut = true → s.rd .thmStatusTrip 0 0 ≠ 1 →
      (s.rd .hHeartMiss 0 0 = 0 → (∀ n < 160, s.rd .hOverPower 0 n = 0) →
        ∃ t, Runs (.relight c) s t ∧ t.isShut = false ∧ (s.unitState u = 6 → t.unitState u = 1) ∧
          touches [.tick, .pwr, .sec, .cal, .oe, .lnk, .lsu] [.calJobs, .swaps, .freeCount] s t) ∧
      ∃ t, Runs (.relight c) s t ∧ (changes timeFields [.freeCount] s t ∨
        (t.isShut = false ∧ t.rd .hHeartMiss 0 0 = 0 ∧ ∀ n < 160, t.rd .hOverPower 0 n = 0))) ∧
    (s.unitState u = 0 → ∃ t, Runs (.unitInserted u c) s t ∧ present t = 1 ∧ bolted t = 1 ∧ t.unitState u =
      1 ∧
      (∀ i < 80, t.rd .lsuLaserStage 0 (80 * u + i) = 0 ∧ t.rd .lsuLaserLit 0 (80 * u + i) = 0 ∧
        t.rd .lsuLaserRole 0 (80 * u + i) = b2n (primaryUnit (i / 10) != u)) ∧
      touches [.tick, .pwr, .oe, .lsu] [.fades] s t) ∧
    (s.unitState u ≠ 0 → quietly (.unitInserted u c) s) ∧
    (∀ failed : List Nat, (failed.all fun i => i < 80) = true →
      (s.unitState u = 1 → (8 < failed.eraseDups.length ∨ ∃ i ∈ failed, i % 10 = 9) →
        ∃ t, Runs (.unitProofDone u failed c) s t ∧ t.unitState u = 7 ∧ bolted t = 0 ∧
          (∀ i < 80, t.rd .lsuLaserLit 0 (80 * u + i) = 0) ∧ touches [.tick, .cal, .oe, .lnk, .lsu]
            [.calJobs, .calRuns, .swaps, .spareNeeds, .links, .freeCount] s t) ∧
      (s.unitState u = 1 → failed.eraseDups.length ≤ 8 → (∀ i ∈ failed, i % 10 ≠ 9) →
        ∃ t, Runs (.unitProofDone u failed c) s t ∧
          (∀ i ∈ failed, t.rd .lsuLaserStage 0 (80 * u + i) = 4) ∧ touches [.tick, .cal, .oe, .lnk, .lsu]
            [.calJobs, .calRuns, .swaps, .spareNeeds, .links, .freeCount] s t) ∧
      (s.unitState u ≠ 1 → quietly (.unitProofDone u failed c) s)) ∧
    (bolted s = 1 → ∃ t, Runs (.interlockOpen u c) s t ∧ t.unitState u = 5 ∧ bolted t = 0 ∧
      touches [.tick, .imp, .forme, .fab, .pair, .core, .events, .cal, .gal, .cmp, .col, .ddl, .gst, .prs,
        .oe, .lnk, .lsu] [.presses, .jobs, .lateXfers, .drains, .mgtLast, .calJobs, .calRuns, .swaps,
        .spareNeeds, .links, .relays, .mgtJobs, .out, .freeCount] s t) ∧
    (bolted s ≠ 1 → quietly (.interlockOpen u c) s) ∧
    (bolted s ≠ 1 → ∃ t, Runs (.unitWithdrawn u c) s t ∧ present t = 0 ∧ t.unitState u = 0 ∧
      (∀ i < 80, t.rd .lsuLaserLit 0 (80 * u + i) = 0) ∧ touches [.tick, .oe, .lsu] [] s t) ∧
    (bolted s = 1 → quietly (.unitWithdrawn u c) s)

/-- For every receive lane of every link end: LANE_LOCK makes a lane that hunts or retrains LOCKED, and a MEMBER
again one that hunts in a steering window, LOSS_OF_LOCK makes a LOCKED lane hunt, LANE_RETRAIN_RETRY makes a
hunting lane retrain, and each does nothing to any other lane's state. LANE_CLEAN_RUN of a LOCKED data lane of
an open link, or of LS that stands in for a lane, asks the peer to let it rejoin (on a die link a lane that is
out of its place or of a group in use), and else does nothing. MARK_JOIN on an open link makes a lane that is
not retired, and not of a die-link group out of use, a MEMBER with its failed retrains forgotten; on another
it does nothing. IDLE_ADAPTATION counts the run of idle blocks and freezes adaptation at 2^24, slows it at
2^20, and resumes it for the first 4,096 other blocks after such a run. No other lane changes state. (R284,
R310, R313, R318, R329, R331) -/
def Obligations.LaneMembership : Prop :=
  ∀ (s : State) (n i u : Nat), n < linkEnds → i < allLanes n →
    let moved (st : Nat) (t : State) := t.lane n i = st ∧ (∀ x, x ≠ i → t.lane n x = s.lane n x) ∧
      changes (.lnkLaneState :: .lnkStatusRxMask :: timeFields) [.links] s t
    ((s.lane n i = laneHunt ∨ s.lane n i = laneRetrain) → s.steered n i = false →
      ∃ t, Runs (.laneLock n i u) s t ∧ moved laneLocked t) ∧
    (s.steered n i = true → ∃ t, Runs (.laneLock n i u) s t ∧ moved laneMember t) ∧
    (s.lane n i ≠ laneHunt → s.lane n i ≠ laneRetrain → quietly (.laneLock n i u) s) ∧
    (s.lane n i = laneLocked → ∃ t, Runs (.lossOfLock n i u) s t ∧ moved laneHunt t) ∧
    (s.lane n i ≠ laneLocked → quietly (.lossOfLock n i u) s) ∧
    (s.lane n i = laneHunt → ∃ t, Runs (.laneRetrainRetry n i u) s t ∧ moved laneRetrain t) ∧
    (s.lane n i ≠ laneHunt → quietly (.laneRetrainRetry n i u) s) ∧
    (s.linkOpen n = true → s.lane n i = laneLocked →
      (n < 32 → i < 8 ∨ s.lsStands n 1 = true) → (32 ≤ n → s.wantsRejoin n i = true) →
      ∃ t, Runs (.laneCleanRun n i u) s t ∧ asked n 0x20 (laneArg (s.endIdentity n) i 4) s t ∧
        changes timeFields [.links] s t) ∧
    (s.linkOpen n = false ∨ s.lane n i ≠ laneLocked ∨ (n < 32 ∧ 8 ≤ i ∧ s.lsStands n 1 = false) ∨
        (32 ≤ n ∧ s.wantsRejoin n i = false) →
      quietly (.laneCleanRun n i u) s) ∧
    (s.linkOpen n = true → s.lane n i ≠ laneRetired → s.idleGroup n i = false →
      ∃ t, Runs (.markJoin n i u) s t ∧ t.lane n i = laneMember ∧ t.laneFails n i = 0 ∧
        (∀ x, x ≠ i → t.lane n x = s.lane n x) ∧ touches [.tick, .lnk] [.links] s t) ∧
    (s.linkOpen n = false ∨ s.lane n i = laneRetired ∨ s.idleGroup n i = true → quietly (.markJoin n i u) s) ∧
    ∀ idle blocks,
      let run := (s.link n).idle.getD i 0
      let now := if idle = true then run + blocks else if blocks = 0 then run else 0
      ∃ t, Runs (.idleAdaptation n i idle blocks) s t ∧ (t.link n).idle.getD i 0 = now ∧
        (2 ^ 24 ≤ now → (t.link n).adapt.getD i 0 = 2) ∧
        (2 ^ 20 ≤ now → now < 2 ^ 24 → (t.link n).adapt.getD i 0 = 1) ∧
        (idle = false → 0 < blocks → blocks < 4096 → 2 ^ 20 ≤ run → (t.link n).adapt.getD i 0 = 3) ∧
        (idle = false → 0 < blocks → (s.link n).resume.getD i 0 ≤ blocks → run < 2 ^ 20 →
          (t.link n).adapt.getD i 0 = 0) ∧
        (n < 32 → t.rd .lnkLaneIdleRun n i = min (2 ^ 32 - 1) now ∧
          t.rd .lnkLaneAdapt n i = (t.link n).adapt.getD i 0) ∧
        changes (.lnkLaneIdleRun :: .lnkLaneAdapt :: timeFields) [.links] s t

/-- A block with a parity error, a sync header that is not one or a type that is not one, on a member lane of an
open link, takes the lane out of the link at once; at a fabric port it counts, LANE_DROP goes out, the third
within 2^30 ticks retires the lane, and the link goes down (to CLOCK, counted, cause 1 or 2) where link_min
members do not remain in both directions and else stays. MARK_LEAVE ends a member's membership with the same
test, the lane dark where data_mask does not name it and else LOCKED; a good block, and both outside the link,
do nothing. A failed retrain of a lane counts and the lane hunts; the third retires it. LC_LOST takes an open
or retraining link of a port down, and LINK_DOWN does where the case of R319 that its cause names holds:
CLOCK, every lane dark but retired ones, the cause shown, one more down counted; LC_LOST fails an attempt in
ALIGN or IDENT. A link that is not open, or for which the case does not hold, is left alone by LINK_DOWN.
(R285, R310, R313, R314, R319, R320, R321) -/
def Obligations.LaneLosses : Prop :=
  ∀ (s : State) (n i u : Nat) (prev b : LaneBlock),
    let v := s.stamp u
    let left := ((List.range (allLanes n)).filter fun x => x != i && s.rxMember n x).length
    let wide := s.linkMin n ≤ s.txWidth n ∧ s.linkMin n ≤ left
    let down (cause : Nat) (t : State) := t.lState n = lClock ∧ t.rd .lnkStatusLastDown n 0 = cause ∧
      t.rd .lnkEventsDowns n 0 = min 65535 (s.rd .lnkEventsDowns n 0 + 1) ∧
      t.rd .lnkStatusTxMask n 0 = 0 ∧ (t.link n).gapOk = true ∧
      ∀ x < 9, t.lane n x = if s.lane n x = laneRetired then laneRetired else laneDark
    (n < linkEnds → i < allLanes n →
      (s.lane n i = laneMember → s.linkOpen n = true →
        (blockErr prev b = true → ∃ t, Runs (.blockError n i prev b u) s t ∧ t.lane n i ≠ laneMember ∧
          (n < 32 → (v.laneErrors n i u).length < 3 → wide →
            t.lane n i = laneRetrain ∧ t.lState n = s.lState n ∧
            t.rd .lnkErrCountsBlockErrors n 0 = min 65535 (s.rd .lnkErrCountsBlockErrors n 0 + 1) ∧
            t.rd .lnkErrCountsLaneDrops n 0 = min 65535 (s.rd .lnkErrCountsLaneDrops n 0 + 1) ∧
            (t.link n).bypQ.getLast? = some ⟨0x21, i * 2 ^ 7, 0⟩) ∧
          (n < 32 → (v.laneErrors n i u).length < 3 → ¬wide → t.lState n = lClock ∧
            t.rd .lnkStatusLastDown n 0 = if s.txWidth n < s.linkMin n then 1 else 2) ∧
          (n < 32 → 3 ≤ (v.laneErrors n i u).length → t.lane n i = laneRetired) ∧
          touches [.tick, .imp, .forme, .fab, .pair, .pwr, .core, .events, .cal, .gal, .cmp, .col, .ddl,
            .gst, .prs, .oe, .lnk, .lsu] [.presses, .jobs, .lateXfers, .drains, .mgtLast, .calJobs,
            .calRuns, .swaps, .spareNeeds, .links, .relays, .mgtJobs, .out, .freeCount] s t) ∧
        (∃ t, Runs (.markLeave n i u) s t ∧ t.lane n i ≠ laneMember ∧
          (n < 32 → wide → t.lState n = s.lState n ∧
            (i < 8 → ((s.portRec n).map fun r => bit r.dataMask i) ≠ some true → t.lane n i = laneDark) ∧
            (8 ≤ i ∨ ((s.portRec n).map fun r => bit r.dataMask i) = some true → t.lane n i = laneLocked)) ∧
          (n < 32 → ¬wide → t.lState n = lClock) ∧
          (32 ≤ n → t.lane n i = laneLocked ∧ (t.link n).covers.get? i = none) ∧
          touches [.tick, .imp, .forme, .fab, .pair, .core, .events, .cal, .gal, .cmp, .col, .ddl, .gst,
            .prs, .oe, .lnk, .lsu] [.presses, .jobs, .lateXfers, .drains, .mgtLast, .calJobs, .swaps,
            .spareNeeds, .links, .relays, .mgtJobs, .out, .freeCount] s t)) ∧
      (s.lane n i ≠ laneMember ∨ s.linkOpen n = false →
        quietly (.blockError n i prev b u) s ∧ quietly (.markLeave n i u) s) ∧
      (blockErr prev b = false → quietly (.blockError n i prev b u) s) ∧
      (s.lane n i = laneRetrain ∨ s.lane n i = laneLocked ∨ s.lane n i = laneHunt →
        ∃ t, Runs (.laneRetrainTimeout n i u) s t ∧
          (s.laneFails n i < 2 → t.lane n i = laneHunt ∧ t.laneFails n i = s.laneFails n i + 1) ∧
          (2 ≤ s.laneFails n i → t.lane n i = laneRetired) ∧ touches [.tick, .imp, .forme, .fab, .pair,
            .pwr, .core, .events, .cal, .gal, .cmp, .col, .ddl, .gst, .prs, .oe, .lnk, .lsu] [.presses,
            .jobs, .lateXfers, .drains, .mgtLast, .calJobs, .calRuns, .swaps, .spareNeeds, .links, .relays,
            .mgtJobs, .out, .freeCount] s t) ∧
      (s.lane n i ≠ laneRetrain → s.lane n i ≠ laneLocked → s.lane n i ≠ laneHunt →
        quietly (.laneRetrainTimeout n i u) s)) ∧
    (n < 32 →
      (s.linkOpen n = true ∨ (s.link n).retraining = true →
        (∃ t, Runs (.lcLost n u) s t ∧ down 3 t ∧ touches [.tick, .imp, .forme, .fab, .pair, .core,
          .events, .cal, .gal, .cmp, .col, .ddl, .gst, .prs, .oe, .lnk, .lsu] [.presses, .jobs, .lateXfers,
          .drains, .mgtLast, .calJobs, .swaps, .spareNeeds, .links, .relays, .mgtJobs, .out, .freeCount] s
          t) ∧
        ∀ cause, (v.downCase n cause u = true → ∃ t, Runs (.linkDown n cause u) s t ∧ down cause t ∧
            touches [.tick, .imp, .forme, .fab, .pair, .core, .events, .cal, .gal, .cmp, .col, .ddl, .gst,
              .prs, .oe, .lnk, .lsu] [.presses, .jobs, .lateXfers, .drains, .mgtLast, .calJobs, .swaps,
              .spareNeeds, .links, .relays, .mgtJobs, .out, .freeCount] s t) ∧
          (v.downCase n cause u = false → quietly (.linkDown n cause u) s)) ∧
      (s.linkOpen n = false → (s.link n).retraining = false →
        (∀ cause, quietly (.linkDown n cause u) s) ∧
        (s.lState n = lAlign ∨ s.lState n = lIdent → ∃ t, Runs (.lcLost n u) s t ∧
          ((s.link n).tries < 2 → t.lState n = lClock ∧ (t.link n).waiting = true) ∧
          (2 ≤ (s.link n).tries → t.lState n = lAbsent) ∧ touches [.tick, .imp, .forme, .fab, .pair, .core,
            .events, .cal, .gal, .cmp, .col, .ddl, .gst, .prs, .oe, .lnk, .lsu] [.presses, .jobs,
            .lateXfers, .drains, .mgtLast, .calJobs, .swaps, .spareNeeds, .links, .relays, .mgtJobs, .out,
            .freeCount] s t) ∧
        (s.lState n ≠ lAlign → s.lState n ≠ lIdent → ∃ t, Runs (.lcLost n u) s t ∧
          t.rd .lnkStatusClockOk n 0 = 0 ∧ changes (.lnkStatusClockOk :: timeFields) [] s t)))

/-- LC_LOCK takes a port in CLOCK that neither waits nor is dark after a link-down to ALIGN with its lit lanes
hunting. ALIGN_COMPLETE takes an end in ALIGN to IDENT when every lit lane is locked, or enough of them 2^18
ticks after entry. In IDENT a word 0 of a wrong identity, or a word that shows a sequence gap where none is
allowed, leads to MISMATCH with no attempt counted; every other word is kept, word 1 (kept for word 2 in ALIGN
too) changes nothing else, and word 0 shows the peer's identity. At the next frame boundary after word 0 with
final was sent and received, the words taken and enough lanes reported locked by both ends (on a die link
groups for a width that it may run at), UP is entered, the peer's lanes being the transmit members. (That UP
stays is stated where no MARK and no swap waits, which the boundary would go on with.) A timeout, once the
time of its state is over, fails the attempt: CLOCK and a wait after the first two, ABSENT after the third;
that of a port retrain takes the link down with cause 4. TRAINING_RETRY ends the wait 2^16 ticks later. POLL
raises an ABSENT port's light unless a shutdown or its loopback test stands against it, POLL_END lowers it,
PEER_LC_DETECTED takes it to CLOCK, CLEAR_MISMATCH takes a port from MISMATCH to CLOCK with no attempt
counted, and RETRAIN takes an UP port to RETRAIN and asks the peer, its lanes as they were until each stops.
Each does nothing in any other state. (R287, R288, R289, R290, R291, R293, R316, R327, R448) -/
def Obligations.LinkTraining : Prop :=
  ∀ (s : State) (n u : Nat),
    let v := s.stamp u
    let x := s.link n
    (n < 32 →
      (s.lState n = lClock → x.waiting = false → v.darkNow n = false → ∃ t, Runs (.lcLock n u) s t ∧
        t.lState n = lAlign ∧
        t.rd .lnkStatusClockOk n 0 = 1 ∧ (∀ i ∈ s.litLanes n, t.lane n i = laneHunt) ∧ touches [.tick,
          .events, .cal, .ddl, .oe, .lnk, .lsu] [.calJobs, .swaps, .links] s t) ∧
      (s.lState n ≠ lClock ∨ x.waiting = true ∨ v.darkNow n = true → quietly (.lcLock n u) s) ∧
      (s.lState n = lAbsent →
        (s.rd .oeStatusShutdown (n / 4) 0 ≠ 1 →
          (s.rd .prfLoopbackBusy 0 0 ≠ 1 ∨ s.rd .prfLoopbackPort 0 0 ≠ n) →
          ∃ t, Runs (.poll n u) s t ∧ t.rd .oeFibreStatusLevel (n / 4) (2 * (n % 4)) = 2 ∧
            changes (.oeFibreStatusLevel :: timeFields) [] s t) ∧
        (s.rd .oeStatusShutdown (n / 4) 0 = 1 ∨
          (s.rd .prfLoopbackBusy 0 0 = 1 ∧ s.rd .prfLoopbackPort 0 0 = n) → quietly (.poll n u) s) ∧
        (∃ t, Runs (.pollEnd n u) s t ∧ t.rd .oeFibreStatusLevel (n / 4) (2 * (n % 4)) ≠ 2 ∧
          changes (.oeFibreStatusLevel :: timeFields) [] s t) ∧
        ∃ t, Runs (.peerLcDetected n u) s t ∧ t.lState n = lClock ∧
          t.rd .lnkStatusAttempts n 0 = s.rd .lnkStatusAttempts n 0 % 4 ∧ (t.link n).tries = 0 ∧
          touches [.tick, .events, .cal, .ddl, .oe, .lnk, .lsu] [.calJobs, .swaps, .links] s t) ∧
      (s.lState n ≠ lAbsent →
        quietly (.poll n u) s ∧ quietly (.pollEnd n u) s ∧ quietly (.peerLcDetected n u) s) ∧
      (s.lState n = lMismatch → ∃ t, Runs (.clearMismatch n u) s t ∧ t.lState n = lClock ∧
        t.rd .lnkStatusAttempts n 0 = 0 ∧ touches [.tick, .events, .cal, .ddl, .oe, .lnk, .lsu] [.calJobs,
          .swaps, .links] s t) ∧
      (s.lState n ≠ lMismatch → quietly (.clearMismatch n u) s) ∧
      (s.lState n = lUp → ∃ t, Runs (.retrain n u) s t ∧ t.lState n = lRetrain ∧
        (t.link n).retraining = true ∧ 
        (t.link n).request.map (fun r => (r.kind, r.arg)) = some (0x40, s.endIdentity n * 2 ^ 11) ∧
        (∀ i, t.lane n i = s.lane n i) ∧ t.rd .lnkStatusTxMask n 0 = s.rd .lnkStatusTxMask n 0 ∧ touches
          [.tick, .events, .cal, .oe, .lnk, .lsu] [.calJobs, .swaps, .links] s t) ∧
      (s.lState n ≠ lUp → quietly (.retrain n u) s)) ∧
    (n < linkEnds →
      (let ready := (s.litLanes n).all (fun i => s.locked n i) ||
          (decide (2 ^ 18 ≤ u - x.since) && v.enoughLocked n);
        (s.endState n = lAlign → ready = true →
          ∃ t, Runs (.alignComplete n u) s t ∧ t.endState n = lIdent ∧ touches [.tick, .events, .cal, .ddl,
            .oe, .lnk, .lsu] [.calJobs, .swaps, .links] s t) ∧
        (s.endState n ≠ lAlign ∨ ready = false → quietly (.alignComplete n u) s)) ∧
      (∀ w, (s.endState n ≠ lIdent → s.endState n ≠ lAlign ∨ w.index ≠ 1 → quietly (.train n w u) s) ∧
        (16 ≤ w.index → quietly (.train n w u) s) ∧
        (s.endState n = lAlign → w.index = 1 → ∃ t, Runs (.train n w u) s t ∧
          (t.link n).peerStamp = w.word ∧ changes timeFields [.links] s t) ∧
        (let wrong := w.index = 0 ∧ s.identityOk n (bitsAt w.word 32 16) (bitsAt w.word 27 5) = false
         let gap := x.gapOk = false ∧
           (w.index = 3 ∧ seqGt w.word (s.rxExp n 0) = true ∨ w.index = 5 ∧ seqGt w.word (s.rxExp n 2) =
             true ∨
            w.index = 6 ∧ seqGt (s.txNext n 0) w.word = true ∨ w.index = 8 ∧ seqGt (s.txNext n 2) w.word =
              true)
         (s.endState n = lIdent → wrong ∨ gap → ∃ t, Runs (.train n w u) s t ∧ t.endState n = lMismatch ∧
           t.rd .lnkStatusAttempts n 0 = s.rd .lnkStatusAttempts n 0 ∧ touches [.tick, .events, .cal, .ddl,
             .oe, .lnk, .lsu] [.calJobs, .swaps, .links] s t) ∧
         (s.endState n = lIdent → w.index < 16 → ¬wrong → ¬gap → ∃ t, Runs (.train n w u) s t ∧
           (t.link n).train.words.get? w.index = some w.word ∧ t.endState n = lIdent ∧
           (w.index = 0 → (t.link n).train.gotFinal = (x.train.gotFinal || bit w.word 16) ∧
             (t.link n).train.final = (x.train.final || bit w.word 17) ∧
             (n < 32 → t.rd .lnkPeerModule n 0 = bitsAt w.word 32 16 ∧
               t.rd .lnkPeerPort n 0 = bitsAt w.word 27 5)) ∧ touches [.tick, .events, .cal, .ddl, .oe,
                 .lnk, .lsu] [.calJobs, .swaps, .links] s t)) ∧
        (s.endState n = lIdent → w.index = 1 → ∃ t, Runs (.train n w u) s t ∧
          (t.link n).train.words.get? 1 = some w.word ∧ (t.link n).peerStamp = w.word ∧ t.endState n =
            lIdent ∧
          changes timeFields [.links] s t)) ∧
      (∀ lane, lane < allLanes n → s.endState n = lIdent → x.train.sentFinal = true →
        x.train.gotFinal = true → x.train.peerOk = true →
        (n < 32 → s.linkMin n ≤ popCount (bitsAt (s.trainWord n 0) 18 8) 8 ∧
          s.linkMin n ≤ popCount x.train.reported 8) →
        (32 ≤ n → ((s.shortEnds (dieLinkOf n)).fillWidth (dieLinkOf n)).isSome = true) →
        x.marks = [] → (n < 32 → ∀ y ∈ s.swaps, y.engine ≠ n / 4) →
        ∃ t, Runs (.transmitStart n lane u) s t ∧ t.endState n = lUp ∧ (t.link n).tries = 0 ∧
          (t.link n).retraining = false ∧ (t.link n).gapOk = false ∧
          (n < 32 → t.rd .lnkStatusTxMask n 0 = bitsAt (s.trainWord n 0) 18 8 ∧
            t.rd .lnkStatusAttempts n 0 = 0) ∧ touches [.tick, .imp, .forme, .fab, .pair, .core, .events,
              .cal, .gal, .cmp, .col, .ddl, .gst, .prs, .oe, .lnk, .lsu] [.presses, .jobs, .lateXfers,
              .drains, .mgtLast, .calJobs, .calRuns, .swaps, .spareNeeds, .links, .relays, .mgtJobs, .out,
              .freeCount] s t) ∧
      (((s.endState n = lClock ∨ s.endState n = lAlign ∨ s.endState n = lIdent) → x.waiting = false →
          x.retraining = false → trainTimeout (s.endState n) ≤ u - x.since →
          ∃ t, Runs (.trainingTimeout n u) s t ∧
          (t.link n).tries = x.tries + 1 ∧
          (x.tries < 2 → t.endState n = lClock ∧ (t.link n).waiting = true) ∧
          (2 ≤ x.tries → t.endState n = lAbsent) ∧ touches [.tick, .imp, .forme, .fab, .pair, .core,
            .events, .cal, .gal, .cmp, .col, .ddl, .gst, .prs, .oe, .lnk, .lsu] [.presses, .jobs,
            .lateXfers, .drains, .mgtLast, .calJobs, .swaps, .spareNeeds, .links, .relays, .mgtJobs, .out,
            .freeCount] s t)) ∧
      (n < 32 → ((s.endState n = lAlign ∨ s.endState n = lIdent) ∧ x.waiting = false) ∨
          s.endState n = lRetrain → x.retraining = true → trainTimeout (s.endState n) ≤ u - x.since →
          ∃ t, Runs (.trainingTimeout n u) s t ∧
          t.lState n = lClock ∧ t.rd .lnkStatusLastDown n 0 = 4 ∧ touches [.tick, .imp, .forme, .fab,
            .pair, .core, .events, .cal, .gal, .cmp, .col, .ddl, .gst, .prs, .oe, .lnk, .lsu] [.presses,
            .jobs, .lateXfers, .drains, .mgtLast, .calJobs, .swaps, .spareNeeds, .links, .relays, .mgtJobs,
            .out, .freeCount] s t) ∧
      ((s.endState n ≠ lClock → s.endState n ≠ lAlign → s.endState n ≠ lIdent → s.endState n ≠ lRetrain →
        quietly (.trainingTimeout n u) s) ∧
       (x.waiting = true → s.endState n ≠ lRetrain → quietly (.trainingTimeout n u) s) ∧
       (s.endState n = lRetrain → x.retraining = false → quietly (.trainingTimeout n u) s) ∧
       (u - x.since < trainTimeout (s.endState n) → quietly (.trainingTimeout n u) s)) ∧
      (s.endState n = lClock → x.waiting = true → 2 ^ 16 ≤ u - x.since → ∃ t, Runs (.trainingRetry n u) s t ∧
        (t.link n).waiting = false ∧ (n < 32 → changes timeFields [.links] s t) ∧
        (32 ≤ n → t.endState n = lAlign) ∧ touches [.tick, .events, .cal, .ddl, .oe, .lnk, .lsu] [.calJobs,
          .swaps, .links] s t) ∧
      (s.endState n ≠ lClock ∨ x.waiting = false ∨ u - x.since < 2 ^ 16 → quietly (.trainingRetry n u) s))

/-- What a lane sends is told, and its blocks are sent scrambled with header and parity. At a lane's frame
boundary in UP with no MARK ready for it: a member lane sends waiting bypass messages, four in a row at most
(a REWIND that the next frame needs counted among them), else the oldest frame to send again, else the first
new frame that can start, which takes tx_next, spends a credit and is kept until acknowledged, else an IDLE
block; REWIND goes before a frame that it governs, and where four bypass messages have just gone an IDLE block
goes first; a lane outside the link sends its next TRAIN word where it is lit, or IDLE on LS that stands in
for none. A MARK that is ready goes out first. In RETRAIN the lane stops after its MARKs and bypass messages,
and ALIGN begins once every member has. In ALIGN and IDENT a lit lane sends its next TRAIN word; in a state
without light, and on a port held in a steering window or darkened by a link-down, nothing goes out. (Entry to
UP is LinkTraining's.) ACK_TIMER and CREDIT_TIMER queue their messages on an open link, REPLAY_TIMER queues an
unacknowledged frame once, and REQUEST_REPEAT repeats the outstanding request 16 times; each does nothing
where it has nothing to send. (R276, R280, R281, R282, R283, R288, R294, R296, R303, R305, R307, R310) -/
def Obligations.LinkTransmission : Prop :=
  ∀ (s : State) (n u : Nat), n < linkEnds →
    let v := s.stamp u
    let x := s.link n
    (∀ lane, lane < allLanes n → s.upReady n = false →
      let carry (l : List RawBlock) := Out.blocks n lane (sealBlocks (s.rd .hLnkScramble n lane) l).1
      let laneFields : List Field := .hLnkEmph :: .hLnkScramble :: .hLnkTrainIdx :: .hLnkBypRun :: timeFields
      let idled (t : State) := t.out = .idleBlock n lane :: carry [idleRaw] :: s.out
      let w : TrainWord := ⟨s.rd .hLnkTrainIdx n lane, s.endState n, v.wordOut n (s.rd .hLnkTrainIdx n lane)⟩
      let trained (t : State) := t.out = .trainBlock n lane w :: carry [trainRaw w] :: s.out ∧
        t.rd .hLnkTrainIdx n lane = (w.index + 1) % 16
      let outside (t : State) :=
        if n < 32 ∧ lane = 8 ∧ s.lsStands n 0 = false then idled t
        else if s.laneLit n lane = true then trained t else t.out = s.out
      let room := s.rewindNext n = false ∨ s.rd .hLnkBypRun n lane < 4
      let still := ∃ t, Runs (.transmitStart n lane u) s t ∧ changes (.hLnkEmph :: timeFields) [] s t
      let bypassed :=
        let k := min x.bypQ.length (4 - b2n (s.rewindNext n) - s.rd .hLnkBypRun n lane)
        ∃ t, Runs (.transmitStart n lane u) s t ∧ (t.link n).bypQ = x.bypQ.drop k ∧
          t.rd .hLnkBypRun n lane = s.rd .hLnkBypRun n lane + k ∧
          t.told = ((x.bypQ.take k).map fun m => .byp n lane m.kind m.arg m.reqno (s.ackOf n 0)
            (s.ackOf n 1) (s.ackOf n 2)).reverse ++ s.told ∧
          (∀ m, x.bypQ.head? = some m → carry (bypBlocks m.kind m.arg m.reqno (s.ackOf n 0) (s.ackOf n 1)
            (s.ackOf n 2)) ∈ t.out) ∧
          changes laneFields [.links, .out] s t
      let framed (f : LFrame) (again : Bool) (t : State) :=
        t.out.head? = some (.frame n lane f.vc (f.seq % 2 ^ 20) (s.ackOf n f.vc) f.first again f.payload) ∧
        (x.rewinds.get? f.vc = none → carry (frameBlocks f.vc f.seq (s.ackOf n f.vc) f.payload.length f.first
          again f.payload) ∈ t.out) ∧
        ∀ base, x.rewinds.get? f.vc = some base → seqGe f.seq base = true → .byp n lane 0x50
          (f.vc * 2 ^ 28 + f.seq / 2 ^ 20 % 2 ^ 28) 0 (s.ackOf n 0) (s.ackOf n 1) (s.ackOf n 2) ∈ t.out
      (s.steerHeld n = true ∨ v.darkNow n = true → still) ∧
      (s.steerHeld n = false → v.darkNow n = false → s.endState n = lUp →
        (∀ m, markReady x.marks lane = some m → ∃ t, Runs (.transmitStart n lane u) s t ∧
          .mark n m.1 m.2 ∈ t.out ∧ carry [markBlock m.2] ∈ t.out ∧ (32 ≤ n → t.txMember n lane = m.2) ∧
          touches [.tick, .imp, .forme, .fab, .pair, .core, .events, .cal, .gal, .cmp, .col, .ddl, .gst,
            .prs, .oe, .lnk, .lsu] [.presses, .jobs, .lateXfers, .drains, .mgtLast, .calJobs, .calRuns,
            .swaps, .spareNeeds, .links, .relays, .mgtJobs, .out, .freeCount] s t) ∧
        (markReady x.marks lane = none →
          (s.txMember n lane = false → ∃ t, Runs (.transmitStart n lane u) s t ∧ outside t ∧
            changes laneFields [.out] s t) ∧
          (s.txMember n lane = true → s.bypReady n lane = true → bypassed) ∧
          (s.txMember n lane = true → s.bypReady n lane = false →
            (s.rewindNext n = true → 4 ≤ s.rd .hLnkBypRun n lane → ∃ t, Runs (.transmitStart n lane u) s t ∧
              idled t ∧ changes laneFields [.out] s t) ∧
            (∀ e, s.oldestResend n x.resendQ = some e → room → ∃ t, Runs (.transmitStart n lane u) s t ∧
              framed e.1 e.2 t ∧ (t.link n).resendQ = x.resendQ.erase e ∧ e.1 ∈ (t.link n).unacked ∧
              t.credit n e.1.vc = (if e.2 = true then s.credit n e.1.vc
                else (s.credit n e.1.vc - 1) % 2 ^ 16) ∧
              touches [.tick, .imp, .forme, .fab, .pair, .core, .events, .cal, .gal, .cmp, .col, .ddl,
                .gst, .prs, .oe, .lnk, .lsu] [.presses, .jobs, .lateXfers, .drains, .mgtLast, .calJobs,
                .calRuns, .swaps, .spareNeeds, .links, .relays, .mgtJobs, .out, .freeCount] s t) ∧
            (s.oldestResend n x.resendQ = none → s.readyNew n = none →
              ∃ t, Runs (.transmitStart n lane u) s t ∧ idled t ∧ changes laneFields [.out] s t) ∧
            ∀ f, s.oldestResend n x.resendQ = none → s.readyNew n = some f → room →
              ∃ t, Runs (.transmitStart n lane u) s t ∧ framed { f with seq := s.txNext n f.vc } false t ∧
                t.txNext n f.vc = (s.txNext n f.vc + 1) % 2 ^ 48 ∧
                t.credit n f.vc = (s.credit n f.vc - 1) % 2 ^ 16 ∧ (t.link n).newQ = x.newQ.erase f ∧
                (t.link n).unacked = x.unacked ++ [{ f with seq := s.txNext n f.vc }] ∧
                touches [.tick, .imp, .forme, .fab, .pair, .core, .events, .cal, .gal, .cmp, .col, .ddl,
                  .gst, .prs, .oe, .lnk, .lsu] [.presses, .jobs, .lateXfers, .drains, .mgtLast, .calJobs,
                  .calRuns, .swaps, .spareNeeds, .links, .relays, .mgtJobs, .out, .freeCount] s t))) ∧
      (s.steerHeld n = false → v.darkNow n = false → s.endState n = lRetrain → markReady x.marks lane = none →
        (s.txMember n lane = true → s.bypReady n lane = true → bypassed) ∧
        (s.txMember n lane = false ∨ s.bypReady n lane = false → ∃ t, Runs (.transmitStart n lane u) s t ∧
          outside t ∧ lane ∈ (t.link n).stopped ∧
          t.endState n = (if ∀ i < allLanes n, s.txMember n i = true → i = lane ∨ i ∈ x.stopped then lAlign
            else lRetrain) ∧ touches [.tick, .imp, .forme, .fab, .pair, .core, .events, .cal, .gal, .cmp,
              .col, .ddl, .gst, .prs, .oe, .lnk, .lsu] [.presses, .jobs, .lateXfers, .drains, .mgtLast,
              .calJobs, .calRuns, .swaps, .spareNeeds, .links, .relays, .mgtJobs, .out, .freeCount] s t)) ∧
      (s.steerHeld n = false → v.darkNow n = false → s.endState n = lAlign ∨ s.endState n = lIdent →
        (s.laneLit n lane = true → ∃ t, Runs (.transmitStart n lane u) s t ∧ trained t ∧
          (s.endState n = lIdent → w.index = 0 → x.train.final = true →
            (t.link n).train.sentFinal = true) ∧ changes laneFields [.links, .out] s t) ∧
        (s.laneLit n lane = false → still)) ∧
      (s.endState n ≠ lUp → s.endState n ≠ lRetrain → s.endState n ≠ lAlign → s.endState n ≠ lIdent →
        still)) ∧
    (∀ vc,
      (s.linkOpen n = true → channelOk n vc = true →
        (∃ t, Runs (.ackTimer n vc u) s t ∧ (t.link n).bypQ = x.bypQ ++ [⟨0x01, 0, 0⟩] ∧
          changes timeFields [.links] s t) ∧
        ∃ t, Runs (.creditTimer n vc u) s t ∧
          (t.link n).bypQ = x.bypQ ++ [⟨0x02, vc * 2 ^ 16 + x.freed.getD vc 0, 0⟩] ∧
          changes timeFields [.links] s t) ∧
      (s.linkOpen n = false ∨ channelOk n vc = false →
        quietly (.ackTimer n vc u) s ∧ quietly (.creditTimer n vc u) s) ∧
      ∀ seq,
        ((x.unacked.find? fun f => f.vc = vc && f.seq % 2 ^ 20 = seq % 2 ^ 20) = none →
          quietly (.replayTimer n vc seq u) s) ∧
        ∀ f, (x.unacked.find? fun f => f.vc = vc && f.seq % 2 ^ 20 = seq % 2 ^ 20) = some f →
          (s.linkOpen n = true → (∀ e ∈ x.resendQ, e.1 ≠ f) →
            ∃ t, Runs (.replayTimer n vc seq u) s t ∧ (t.link n).resendQ = x.resendQ ++ [(f, true)] ∧
              changes timeFields [.links] s t) ∧
          (s.linkOpen n = false ∨ (∃ e ∈ x.resendQ, e.1 = f) → quietly (.replayTimer n vc seq u) s)) ∧
    (x.request = none → quietly (.requestRepeat n u) s) ∧
    ∀ r, x.request = some r →
      (r.repeats < 16 → ∃ t, Runs (.requestRepeat n u) s t ∧
        (t.link n).request = some { r with repeats := r.repeats + 1 } ∧
        (t.link n).bypQ = x.bypQ ++ [⟨r.kind, r.arg, r.reqno⟩] ∧ changes timeFields [.links] s t) ∧
      (16 ≤ r.repeats → ∃ t, Runs (.requestRepeat n u) s t ∧
        (n < 32 → t.rd .lnkEventsWithdrawals n 0 = min 65535 (s.rd .lnkEventsWithdrawals n 0 + 1)) ∧
        (x.peerCal = true → (t.link n).request = none ∧ (t.link n).again = x.again ++ [(r.kind, r.arg)]) ∧
        (x.peerCal = false → x.wait = [] → x.retraining = false → x.widthReq = none →
          (t.link n).request.map (fun q => (q.kind, q.arg)) = (x.again ++ [(r.kind, r.arg)]).head?) ∧
        touches [.tick, .lnk] [.links] s t)

/-- On a link that is not open every frame and bypass message is dropped; on an open port a corrupt one, whose CRC
does not hold or whose length is none, is discarded and counted, and a frame on a lane that is no member is
discarded; one of a channel that no header has is a block error of its lane. A frame with the expected number
advances rx_expected, frees a buffer and is delivered: VC1 and VC2 are handed on, and a VC0 transfer of plain
galley lines in one frame is written. One beyond it is kept; one before it, or kept already, counts as a
duplicate and neither advances nor hands on anything. An ACK releases the unacknowledged frames up to the
number it names and no later ones. CREDIT adds the difference to the count last taken. REWIND sets the
channel's reference. A BARRIER token that is new at the chase is stored and counted as relayed; any other is
counted as stale and stores nothing. A bypass message of an unknown kind is counted and changes nothing else.
(R294, R297, R299, R300, R302, R303, R304, R305, R306, R308, R309, R355) -/
def Obligations.LinkReception : Prop :=
  ∀ (s : State) (n u : Nat) (b : Byp), n < linkEnds →
    let v := s.stamp u
    let x := s.link n
    (s.linkOpen n = false →
      (∀ f, quietly (.frame n f u) s) ∧ quietly (.ack n b u) s ∧
      (∀ vc k, quietly (.credit n b vc k u) s ∧ quietly (.rewind n b vc k u) s) ∧
      (∀ o r e k, quietly (.barrierToken n b o r e k u) s) ∧ ∀ k a, Runs (.otherBypassKind n b k a) s s) ∧
    (s.linkOpen n = true →
      let counted (c : Instr) :=
        ∃ t, Runs c s t ∧
          (n < 32 → t.rd .lnkErrCountsCrcErrors n 0 = min 65535 (s.rd .lnkErrCountsCrcErrors n 0 + 1)) ∧
          changes (.lnkErrCountsCrcErrors :: timeFields) [] s t
      (∀ f : Frame, (allLanes n ≤ f.lane ∨ s.rxMember n f.lane = false → quietly (.frame n f u) s) ∧
        (f.lane < allLanes n → s.rxMember n f.lane = true → channelOk n f.vc = true →
          (f.crcOk = false ∨ f.len = 0 ∨ 244 < f.len) → counted (.frame n f u)) ∧
        (f.lane < allLanes n → s.lane n f.lane = laneMember → s.rxMember n f.lane = true → n < 32 →
          channelOk n f.vc = false → ∃ t, Runs (.frame n f u) s t ∧ t.lane n f.lane ≠ laneMember ∧
          t.mem = s.mem ∧ touches [.tick, .imp, .forme, .fab, .pair, .pwr, .core, .events, .cal, .gal,
            .cmp, .col, .ddl, .gst, .prs, .oe, .lnk, .lsu] [.mem, .presses, .jobs, .lateXfers, .drains,
            .mgtLast, .calJobs, .calRuns, .swaps, .spareNeeds, .links, .relays, .early, .mgtJobs, .out,
            .freeCount] s t)) ∧
      (b.crcOk 0x01 0 = false → counted (.ack n b u)) ∧
      (∀ vc k, (b.crcOk 0x02 (vc * 2 ^ 16 + k % 2 ^ 16) = false → counted (.credit n b vc k u)) ∧
        (b.crcOk 0x50 (vc * 2 ^ 28 + k % 2 ^ 28) = false → counted (.rewind n b vc k u))) ∧
      (∀ o r e k, b.crcOk 0x10 (tokenArg o r (e % 16) k) = false → counted (.barrierToken n b o r e k u)) ∧
      ∀ k a, b.crcOk k a = false → counted (.otherBypassKind n b k a)) ∧
    (s.linkOpen n = true →
      ∀ f : Frame, f.lane < allLanes n → s.rxMember n f.lane = true → f.crcOk = true →
        channelOk n f.vc = true → 1 ≤ f.len → f.len ≤ 244 →
        let q := extend (s.rxRef n f.vc) f.seq
        let bytes := (fixLen 244 f.payload).take f.len
        let held := ∃ y ∈ x.rxHeld, y.vc = f.vc ∧ y.seq = q
        (q = s.rxExp n f.vc → ¬held → (∀ y ∈ x.rxHeld, y.vc = f.vc → y.seq ≠ (q + 1) % 2 ^ 48) →
          ∃ t, Runs (.frame n f u) s t ∧ t.rxExp n f.vc = (q + 1) % 2 ^ 48 ∧
            (t.link n).freed.getD f.vc 0 = (x.freed.getD f.vc 0 + 1) % 2 ^ 16 ∧
            (f.vc ≠ 0 → t.out = .payload n f.vc bytes :: s.out ∧ t.mem = s.mem) ∧
            (f.vc = 0 → n < 32 → f.first = true → leAt bytes 3 1 = 2 → 16 + leAt bytes 8 4 ≤ f.len →
              t.mem = (s.writeGal (leAt bytes 2 1 % 4) (leAt bytes 4 4 % 2 ^ 21 * 256)
                ((bytes.drop 16).take (leAt bytes 8 4))).mem ∨
              galLines * 256 < leAt bytes 4 4 % 2 ^ 21 * 256 + leAt bytes 8 4 ∧ t.mem = s.mem) ∧ touches
                [.tick, .imp, .forme, .fab, .pair, .pwr, .core, .events, .cal, .gal, .cmp, .col, .ddl,
                .gst, .prs, .oe, .lnk, .lsu] [.mem, .presses, .jobs, .lateXfers, .drains, .mgtLast,
                .calJobs, .calRuns, .swaps, .spareNeeds, .links, .relays, .early, .mgtJobs, .out,
                .freeCount] s t) ∧
        (seqGe q (s.rxExp n f.vc) = true → q ≠ s.rxExp n f.vc → ¬held →
          (∀ y ∈ x.rxHeld, y.vc = f.vc → y.seq ≠ s.rxExp n f.vc) →
          ∃ t, Runs (.frame n f u) s t ∧ t.rxExp n f.vc = s.rxExp n f.vc ∧ t.out = s.out ∧ t.mem = s.mem ∧
            (t.link n).rxHeld = x.rxHeld ++ [⟨f.vc, q, f.first, bytes, 0, 255, 0⟩] ∧ touches [.tick, .imp,
              .forme, .fab, .pair, .pwr, .core, .events, .cal, .gal, .cmp, .col, .ddl, .gst, .prs, .oe,
              .lnk, .lsu] [.mem, .presses, .jobs, .lateXfers, .drains, .mgtLast, .calJobs, .calRuns,
              .swaps, .spareNeeds, .links, .relays, .early, .mgtJobs, .out, .freeCount] s t) ∧
        (seqGe q (s.rxExp n f.vc) = false ∨ held → ∃ t, Runs (.frame n f u) s t ∧
          t.rxExp n f.vc = s.rxExp n f.vc ∧ t.out = s.out ∧ t.mem = s.mem ∧
          (t.link n).rxHeld = x.rxHeld ∧
          (n < 32 → t.rd .lnkRxSeqDuplicates n f.vc = min 65535 (s.rd .lnkRxSeqDuplicates n f.vc + 1)) ∧
          touches [.tick, .imp, .forme, .fab, .pair, .pwr, .core, .events, .cal, .gal, .cmp, .col, .ddl,
            .gst, .prs, .oe, .lnk, .lsu] [.mem, .presses, .jobs, .lateXfers, .drains, .mgtLast, .calJobs,
            .calRuns, .swaps, .spareNeeds, .links, .relays, .early, .mgtJobs, .out, .freeCount] s t)) ∧
    (s.linkOpen n = true →
      (b.crcOk 0x01 0 = true →
        (∃ t, Runs (.ack n b u) s t ∧ touches [.tick, .fab, .gal, .lnk] [.links] s t ∧
          ∀ vc a k, (vc, a) ∈ [(0, b.ack0), (1, b.ack1), (2, b.ack2)] → k < 2 ^ 48 → a = k % 2 ^ 20 →
            (∀ y ∈ x.unacked, y.vc = vc → y.seq < 2 ^ 48 ∧ (k + 2 ^ 48 + 2 ^ 18 - y.seq) % 2 ^ 48 < 2 ^ 19) →
            (∀ y ∈ (t.link n).unacked, y.vc = vc → seqGe k y.seq = false) ∧
            ∀ y ∈ x.unacked, y.vc = vc → seqGe k y.seq = false → y ∈ (t.link n).unacked) ∧
        (x.unacked = [] → v.agreedEdition = none → quietly (.ack n b u) s)) ∧
      (∀ vc freed, channelOk n vc = true → b.crcOk 0x02 (vc * 2 ^ 16 + freed % 2 ^ 16) = true →
        ∃ t, Runs (.credit n b vc freed u) s t ∧
          t.credit n vc =
            (s.credit n vc + (freed % 2 ^ 16 + 2 ^ 16 - x.taken.getD vc 0) % 2 ^ 16) % 2 ^ 16 ∧
          (t.link n).taken.getD vc 0 = freed % 2 ^ 16 ∧ touches [.tick, .fab, .gal, .lnk] [.links] s t) ∧
      (∀ vc hi, channelOk n vc = true → n < 32 → b.crcOk 0x50 (vc * 2 ^ 28 + hi % 2 ^ 28) = true →
        ∃ t, Runs (.rewind n b vc hi u) s t ∧
          t.rxRef n vc = (hi * 2 ^ 20 + 2 ^ 19) % 2 ^ 48 ∧ touches [.tick, .fab, .gal, .lnk] [.links] s t) ∧
      (∀ o r e k, b.crcOk 0x10 (tokenArg o r (e % 16) k) = true →
        (o ≠ s.identity → s.tokenNew (endChase n) o r (e % 16) k = true →
          ∃ t, Runs (.barrierToken n b o r e k u) s t ∧
            t.token (endChase n) o r = some ⟨e % 16, k, v.now⟩ ∧
            t.rd .fabCountsRelayed 0 0 = min (2 ^ 32 - 1) (s.rd .fabCountsRelayed 0 0 + 1) ∧
            touches [.tick, .fab, .gal, .lnk] [.tokens, .links] s t) ∧
        (o = s.identity ∨ s.tokenNew (endChase n) o r (e % 16) k = false →
          ∃ t, Runs (.barrierToken n b o r e k u) s t ∧ t.tokens = s.tokens ∧
            t.rd .fabCountsStale 0 0 = min 65535 (s.rd .fabCountsStale 0 0 + 1) ∧ touches [.tick, .fab,
              .gal, .lnk] [.tokens, .links] s t)) ∧
      ∀ k a, k < 256 → b.crcOk k a = true → ∃ t, Runs (.otherBypassKind n b k a) s t ∧
        t.rd .hLnkOther n 0 = s.rd .hLnkOther n 0 + 1 ∧ changes [.hLnkOther] [] s t)

/-- On an open link end a VC1 request of 1 to 3 sectors to the end's own chase that nothing forbids or holds is
performed: a read queues DATA with the bytes, or ERROR where it met an uncorrectable error, and changes no
memory, a write stores its bytes at the address and queues DONE. One to another chase goes on over the ring
link as a D1 frame and waits there for its answer; over a link that is not open it is answered with ERROR. One
that R142 or R152 forbids queues ERROR and stores nothing, and one that a running step holds waits and does
nothing. On a link that is not open nothing happens. An answer whose tag no outstanding request has does
nothing; else the request is no longer outstanding and its requester gets the answer: a unit its data or its
fault, a link end a VC1 response, a guest its message, the management endpoint its response; ERROR to a core's
request is an access fault of cause LINK of that core. (R24, R142, R152, R153, R154, R298, R320, R324, R477) -/
def Obligations.RemoteAccesses : Prop :=
  ∀ (s : State) (n : Nat), n < linkEnds →
    (∀ r : VcReq, r.target < 4 → 1 ≤ r.sectors → r.sectors ≤ 3 →
      let queued (m op : Nat) (data : List Byte) (t : State) := (t.link m).newQ = (s.link m).newQ ++
        [⟨1, 0, false, vc1Bytes op r.sectors r.tag r.module r.requester r.chase r.target r.galley r.addr
          data, 0, 255, 0⟩]
      let rd : Access := ⟨r.target, r.galley, r.addr, r.sectors * 64, none, r.met, .link n r⟩
      let m := ringEnd (endChase n) r.target
      (s.linkOpen n = false → Runs (.vc1Read n r) s s ∧ ∀ d, Runs (.vc1Write n r d) s s) ∧
      (s.linkOpen n = true → r.target ≠ endChase n →
        (s.linkOpen m = true →
          (∃ t, Runs (.vc1Read n r) s t ∧ queued m 1 [] t ∧
            (t.link m).vc1Out = (s.link m).vc1Out ++ [⟨r.tag, rd⟩] ∧ changes [] [.links] s t) ∧
          ∀ d : List Byte, ∃ t, Runs (.vc1Write n r d) s t ∧ queued m 2 d t ∧
            (t.link m).vc1Out = (s.link m).vc1Out ++ [⟨r.tag, { rd with data := some d }⟩] ∧
            changes [] [.links] s t) ∧
        (s.linkOpen m = false →
          (∃ t, Runs (.vc1Read n r) s t ∧ queued n 0xFF [] t ∧ changes [] [.links] s t) ∧
          ∀ d, ∃ t, Runs (.vc1Write n r d) s t ∧ queued n 0xFF [] t ∧ changes [] [.links] s t)) ∧
      (s.linkOpen n = true → r.target = endChase n →
        (s.judge rd = .go → ∃ t, Runs (.vc1Read n r) s t ∧ t.mem = s.mem ∧
          (r.met.ue = true → queued n 0xFF [] t) ∧
          (r.met.ue = false → queued n 0x81 (if r.galley = true then s.readGal r.target r.addr (r.sectors *
            64)
            else s.readMem r.target r.addr (r.sectors * 64)) t) ∧
          (r.met.ce = [] → changes [] [.links] s t) ∧ touches [.prf, .core, .gal, .gst, .mem] [.mem,
            .heldAccs, .dirtyShared, .mgtLast, .links, .repairMap, .ceLog, .mgtJobs, .dropped, .out,
            .freeCount] s t) ∧
        (∀ k, s.judge rd = .fault k → ∃ t, Runs (.vc1Read n r) s t ∧ queued n 0xFF [] t ∧
          changes [] [.links] s t) ∧
        (∀ f, s.judge rd = .hold f → ∃ t, Runs (.vc1Read n r) s t ∧ t.heldAccs = s.heldAccs ++ [⟨f, rd⟩] ∧
          changes [] [.heldAccs] s t) ∧
        ∀ d : List Byte,
          let wr : Access := { rd with data := some d }
          (s.judge wr = .go → ∃ t, Runs (.vc1Write n r d) s t ∧ queued n 0x82 [] t ∧
            (r.galley = true → t.mem = (s.writeGal r.target r.addr d).mem) ∧
            (r.galley = false → t.mem = (s.writeMem r.target r.addr d).mem) ∧ touches [.prf, .core, .gal,
              .gst, .mem] [.mem, .heldAccs, .dirtyShared, .mgtLast, .links, .repairMap, .ceLog, .mgtJobs,
              .dropped, .out, .freeCount] s t) ∧
          (∀ k, s.judge wr = .fault k → ∃ t, Runs (.vc1Write n r d) s t ∧ queued n 0xFF [] t ∧
            changes [] [.links] s t) ∧
          ∀ f, s.judge wr = .hold f → ∃ t, Runs (.vc1Write n r d) s t ∧
            t.heldAccs = s.heldAccs ++ [⟨f, wr⟩] ∧ changes [] [.heldAccs] s t)) ∧
    ∀ tag (data : List Byte),
      ((s.link n).vc1Out.find? (fun r => r.tag = tag) = none →
        Runs (.vc1Data n tag data) s s ∧ Runs (.vc1Done n tag) s s ∧ Runs (.vc1Error n tag) s s) ∧
      ∀ r, (s.link n).vc1Out.find? (fun r => r.tag = tag) = some r →
        let a := r.acc
        let taken (t : State) := (t.link n).vc1Out = (s.link n).vc1Out.erase r
        let wrote := a.data.isSome
        let answered (d : List Byte) (t : State) := taken t ∧ t.mem = s.mem ∧
          (∀ code, a.who = .unit code → t.out = (if wrote = true then .galDone a.chase code a.addr
            else .galData a.chase code a.addr d) :: s.out) ∧
          (∀ m q, a.who = .link m q → (t.link m).newQ = (s.link m).newQ ++ [⟨1, 0, false,
            vc1Bytes (if wrote = true then 0x82 else 0x81) q.sectors q.tag q.module q.requester q.chase
              q.target
              q.galley q.addr d, 0, 255, 0⟩]) ∧
          (∀ g q, a.who = .guest g q → t.out =
            .guest g (if wrote = true then 0x82 else 0x81) q.tag d :: s.out) ∧
          ∀ ty tg slot ctr, a.who = .mgt ty tg slot ctr → ∃ tail, t.out = .mgt ty tg 0 d tail :: s.out
        (∃ t, Runs (.vc1Data n tag data) s t ∧ answered data t ∧ touches [.core, .gst] [.mgtLast, .links,
          .mgtJobs, .out] s t) ∧
        (∃ t, Runs (.vc1Done n tag) s t ∧ answered [] t ∧ touches [.core, .gst] [.mgtLast, .links,
          .mgtJobs, .out] s t) ∧
        ∃ t, Runs (.vc1Error n tag) s t ∧ taken t ∧ t.mem = s.mem ∧
          (∀ code, a.who = .unit code → .galFault a.chase code a.addr 6 ∈ t.out ∧
            (19 ≤ code → code ≤ 22 → a.chase < 4 →
              t.rd .coreFaultCause 0 (4 * a.chase + code - 19) = 6)) ∧
          (∀ m q, a.who = .link m q → (t.link m).newQ = (s.link m).newQ ++ [⟨1, 0, false,
            vc1Bytes 0xFF q.sectors q.tag q.module q.requester q.chase q.target q.galley q.addr [],
            0, 255, 0⟩]) ∧
          (∀ g q, a.who = .guest g q → .guest g 0xFF q.tag [] ∈ t.out) ∧ touches [.core, .gst] [.mgtLast,
            .links, .mgtJobs, .out] s t

/-- A request that repeats the last one carried out is acknowledged again and is not carried out again. One that
meets a request of this end's does nothing where this end outranks the peer, and else this end withdraws its
own, counts that and acknowledges. A fresh request with none of this end's outstanding is acknowledged, and is
carried out: MOVE puts the spare, unless a retired lane holds it, of the port's receive fibre to the lane,
BACK frees it, CAL, which lets this end's own request wait, starts this end's calibration of the lane, CAL_END
ends the peer's calibration, REJOIN sends JOIN on a lane that is no member (of a die link's group in use),
SPARE_IN retires the lane in the transmit direction with LS in its place unless LS stands for another retired
lane, WIDTH_REQ sends MARKs for the lanes that join, of those that can be sent, and leave, and RETRAIN_REQ
takes an UP port to RETRAIN; the MARKs that it asks for wait behind its acknowledgement, and of SPARE_IN for
LS the fibre's spare is gone (log entry 91). LANE_DROP sends LEAVE on a member at once. An acknowledgement
that answers no outstanding request does nothing; one that answers it ends it: LANE_ACK sends the MARKs that
move the lane to LS or back, and RETRAIN_ACK takes an UP port to RETRAIN. On a link that is not open each does
nothing. (Where the message's own acknowledgements release nothing and no quiesce waits for it, nothing else
changes.) (R252, R253, R256, R259, R310, R311, R312, R313, R314, R315, R316) -/
def Obligations.LinkRequests : Prop :=
  ∀ (s : State) (n lane u : Nat) (b : Byp), n < linkEnds →
    let x := s.link n
    let calm := x.unacked = [] ∧ s.rd .fabStatusState 0 0 ≠ 3
    (s.linkOpen n = false → ∀ id k, ∀ c ∈ ([.laneMove n b id lane u, .laneBack n b id lane u,
        .laneCal n b id lane u, .laneCalEnd n b id lane u, .laneRejoin n b id lane u, .spareIn n b id lane u,
        .laneDrop n b lane u, .laneAck n b k u, .widthReq n b id k u, .widthAck n b k u,
        .retrainReq n b id u, .retrainAck n b k u] : List Instr), quietly c s) ∧
    (s.linkOpen n = true →
      (∀ id,
        let arg (action : Nat) := laneArg id lane action
        let acked (kind arg : Nat) (t : State) := (t.link n).served = some (kind, b.reqno, arg) ∧
          ⟨ackKind kind, arg, b.reqno⟩ ∈ (t.link n).bypQ
        let waits (m : Nat × Bool) (t : State) := m ∈ (t.link n).toMark ∧
          (m ∉ x.toMark → (b.reqno, m) ∈ (t.link n).behind)
        let fresh (kind arg : Nat) := b.crcOk kind arg = true ∧ x.request = none ∧
          x.served ≠ some (kind, b.reqno, arg)
        let asks (c : Instr) (kind arg : Nat) := b.crcOk kind arg = true →
          (x.served = some (kind, b.reqno, arg) → ∃ t, Runs c s t ∧
            ⟨ackKind kind, arg, b.reqno⟩ ∈ (t.link n).bypQ ∧ (t.link n).marks = x.marks ∧
            (calm → (t.link n).bypQ = x.bypQ ++ [⟨ackKind kind, arg, b.reqno⟩] ∧
              changes timeFields [.links] s t)) ∧
          (∀ r, x.request = some r → r.kind ≠ 0x81 → x.served ≠ some (kind, b.reqno, arg) →
            (s.outranks n id = true → calm → quietly c s) ∧
            (s.outranks n id = false → ∃ t, Runs c s t ∧ acked kind arg t ∧
              (n < 32 → t.rd .lnkEventsWithdrawals n 0 =
                min 65535 (s.rd .lnkEventsWithdrawals n 0 + 1))))
        (asks (.laneMove n b id lane u) 0x20 (arg 0) ∧ asks (.laneBack n b id lane u) 0x20 (arg 1) ∧
          asks (.laneCal n b id lane u) 0x20 (arg 2) ∧ asks (.laneCalEnd n b id lane u) 0x20 (arg 3) ∧
          asks (.laneRejoin n b id lane u) 0x20 (arg 4) ∧ asks (.spareIn n b id lane u) 0x20 (arg 5) ∧
          asks (.retrainReq n b id u) 0x40 (id * 2 ^ 11) ∧
          ∀ mask, asks (.widthReq n b id mask u) 0x30 (id * 2 ^ 11 + mask % 2 ^ 9)) ∧
        (fresh 0x20 (arg 0) → ∃ t, Runs (.laneMove n b id lane u) s t ∧ acked 0x20 (arg 0) t ∧
          (n < 32 → lane < 8 → s.spareUse (n / 4) (s.fib n lane 1) ≠ suRetired →
            2 ≤ t.spareUse (n / 4) (s.fib n lane 1) ∧ t.spareUse (n / 4) (s.fib n lane 1) ≤ 4 ∧
            t.rd .oeFibreStatusSpareLane (n / 4) (s.fib n lane 1) = lane) ∧ touches [.tick, .fab, .gal,
              .oe, .lnk] [.links, .freeCount] s t) ∧
        (fresh 0x20 (arg 1) → ∃ t, Runs (.laneBack n b id lane u) s t ∧ acked 0x20 (arg 1) t ∧
          (n < 32 → s.spareUse (n / 4) (s.fib n lane 1) ≠ suRetired → s.spareNeeds = [] →
            s.rd .oeFibreStatusSpareLane (n / 4) (s.fib n lane 1) = lane →
            t.spareUse (n / 4) (s.fib n lane 1) = suFree) ∧ touches [.tick, .fab, .gal, .oe, .lnk]
              [.spareNeeds, .links] s t) ∧
        (fresh 0x20 (arg 2) → ∃ t, Runs (.laneCal n b id lane u) s t ∧ acked 0x20 (arg 2) t ∧
          (n < 32 → lane < 8 → (t.link n).peerCal = true ∧
            (let k := n / 4
             let g := s.fibreOf k lane (n % 4)
             (s.calJob k g).isNone = true → s.spareOpen k (2 * g) = true → s.spareOpen k (2 * g + 1) = true →
              t.calJobs = s.calJobs ++ [⟨k, n % 4, g, lane, false, none, none,
                s.rd .oeRingLockCode k (s.laneRing n lane 0), s.rd .oeRingLockCode k (s.laneRing n lane
                  1)⟩])) ∧
          touches [.tick, .fab, .cal, .gal, .oe, .lnk] [.calJobs, .calRuns, .links] s t) ∧
        (fresh 0x20 (arg 3) → ∃ t, Runs (.laneCalEnd n b id lane u) s t ∧ acked 0x20 (arg 3) t ∧
          (n < 32 → lane < 8 → (t.link n).peerCal = false) ∧ touches [.tick, .fab, .cal, .gal, .oe, .lnk,
            .lsu] [.calJobs, .calRuns, .swaps, .spareNeeds, .links] s t) ∧
        (fresh 0x20 (arg 4) → ∃ t, Runs (.laneRejoin n b id lane u) s t ∧ acked 0x20 (arg 4) t ∧
          (lane < allLanes n → s.txMember n lane = false → s.idleGroup n lane = false →
            waits (lane, true) t ∧
            ∀ e, x.txCovers.find? (fun e => e.2 = lane) = some e → waits (e.1, false) t) ∧
          (s.txMember n lane = true ∨ allLanes n ≤ lane ∨ s.idleGroup n lane = true →
            (t.link n).marks = x.marks ∧ (t.link n).behind = x.behind) ∧ touches [.tick, .fab, .gal, .lnk]
              [.links] s t) ∧
        (fresh 0x20 (arg 5) → ∃ t, Runs (.spareIn n b id lane u) s t ∧ acked 0x20 (arg 5) t ∧
          (n < 32 → lane < 8 → bit (t.rd .oeFibreStatusRetired (n / 4) (s.fib n lane 0)) lane = true ∧
            (s.txMember n lane = true → waits (lane, false) t) ∧
            (s.noSpare n lane = false → t.spareUse (n / 4) (s.fib n lane 0) = suRetired ∧
              t.rd .oeFibreStatusSpareLane (n / 4) (s.fib n lane 0) = lane)) ∧
          (n < 32 → lane = 8 → t.rd .hOeSpareGone (n / 4) (2 * (n % 4)) = 1 ∧
            (s.txMember n 8 = true → waits (8, false) t)) ∧ touches [.tick, .fab, .cal, .gal, .oe, .lnk]
              [.calJobs, .calRuns, .links] s t) ∧
        (fresh 0x40 (id * 2 ^ 11) → ∃ t, Runs (.retrainReq n b id u) s t ∧ acked 0x40 (id * 2 ^ 11) t ∧
          (n < 32 → s.lState n = lUp → t.lState n = lRetrain) ∧ touches [.tick, .fab, .events, .cal, .gal,
            .oe, .lnk, .lsu] [.calJobs, .swaps, .links] s t) ∧
        ∀ mask, fresh 0x30 (id * 2 ^ 11 + mask % 2 ^ 9) → ∃ t, Runs (.widthReq n b id mask u) s t ∧
          acked 0x30 (id * 2 ^ 11 + mask % 2 ^ 9) t ∧
          (∀ i < 9, bit mask i = false → s.txMember n i = true → waits (i, false) t) ∧
          (∀ i < 9, bit mask i = true → s.txMember n i = false → s.laneLit n i = true → waits (i, true) t) ∧
          (calm → changes timeFields [.links] s t) ∧ touches [.tick, .fab, .gal, .lnk] [.links] s t) ∧
      (b.crcOk 0x21 (if n < 32 then lane * 2 ^ 7 else lane) = true →
        (lane < allLanes n → s.txMember n lane = true → (lane, false) ∉ x.toMark →
          ∃ t, Runs (.laneDrop n b lane u) s t ∧ (t.link n).marks = (lane, false) :: x.marks ∧ touches
            [.tick, .fab, .gal, .lnk] [.links] s t) ∧
        (allLanes n ≤ lane ∨ s.txMember n lane = false ∨ (lane, false) ∈ x.toMark →
          ∃ t, Runs (.laneDrop n b lane u) s t ∧ (t.link n).marks = x.marks ∧ touches [.tick, .fab, .gal,
            .lnk] [.links] s t)) ∧
      (∀ k, (∀ r, x.request = some r → r.arg ≠ k ∨ r.reqno ≠ b.reqno) → calm →
        (b.crcOk 0x22 k = true → quietly (.laneAck n b k u) s) ∧
        (b.crcOk 0x31 k = true → quietly (.widthAck n b k u) s) ∧
        (b.crcOk 0x41 k = true → quietly (.retrainAck n b k u) s)) ∧
      ∀ r, x.request = some r → r.reqno = b.reqno →
        (r.kind = 0x20 → b.crcOk 0x22 r.arg = true →
          let w := s.reqLane n r.arg
          let act := bitsAt r.arg 4 3
          ∃ t, Runs (.laneAck n b r.arg u) s t ∧ touches [.tick, .fab, .cal, .gal, .ddl, .oe, .lnk, .lsu]
            [.calJobs, .calRuns, .swaps, .spareNeeds, .links] s t ∧
            ((act = 0 ∨ act = 2) → s.noSpare n w = false → s.txMember n 8 = false → (8, true) ∉ x.toMark →
              (8, true) ∈ (t.link n).marks ∧ (w, false) ∈ (t.link n).marks) ∧
            ((act = 0 ∨ act = 2) → s.noSpare n w = true → (w, false) ∈ (t.link n).marks) ∧
            ((act = 0 ∨ act = 2) → s.txMember n w = true → x.again = [] → (t.link n).request = none) ∧
            ((act = 1 ∨ (act = 3 ∧ s.onSudden n w = false)) → s.leaving n w = true →
              (32 ≤ n ∨ s.retiredLane (n / 4) (s.fib n w 0) w = false) → (w, true) ∈ (t.link n).marks)) ∧
        (r.kind = 0x30 → b.crcOk 0x31 r.arg = true → ∃ t, Runs (.widthAck n b r.arg u) s t ∧
          (x.again = [] → (t.link n).request = none) ∧ (calm → changes timeFields [.links] s t) ∧
          touches [.tick, .fab, .gal, .lnk] [.links] s t) ∧
        (r.kind = 0x40 → b.crcOk 0x41 r.arg = true → ∃ t, Runs (.retrainAck n b r.arg u) s t ∧
          (x.again = [] → (t.link n).request = none) ∧
          (n < 32 → s.lState n = lUp → t.lState n = lRetrain) ∧ touches [.tick, .fab, .events, .cal, .gal,
            .oe, .lnk, .lsu] [.calJobs, .swaps, .links] s t))

/-- At every end of a die link: DLANE_DROP of a transmit member of an open link sends LEAVE on it, once, and JOIN
on the spare that its receiver has put in the lane's place, or on none. DWIDTH_REQ is acknowledged where this
end has no request of its own, or its own does not proceed against it, and is withdrawn then; else it is not
answered. DWIDTH_ACK that answers this end's request switches the width and is counted; any other answers
nothing. On a link that is not open, and with a CRC that does not hold, each does nothing. A group whose clock
is lost is noted on an open link, fails the attempt of one that trains, and a healthy one is no longer noted,
nor as short of lanes once 16 of its lanes are ready in their places. DIE_LINK_DOWN of a link that is up
leaves it DOWN with the link event set; an engine link's formes that run abandon with LINK, and for a ring
link the active with a live standby yields with cause 4, or else the formes whose reservations or plans name
the link park; of a link that is down it does nothing. DIE_LINK_RETRY of a link that is DOWN trains both ends
from ALIGN with no attempt counted, unless the start-up proof runs or has failed its engine, and else does
nothing. (R299, R323, R327, R329, R330, R331, R332, R333, R334, R336, R383, R531) -/
def Obligations.DieLinks : Prop :=
  ∀ (s : State) (l u : Nat), l < 12 →
    let v := s.stamp u
    (∀ e (b : Byp), e < 2 →
      let n := dieEnd l e
      let x := s.link n
      let id := endChase (otherEnd n)
      (∀ lane, b.crcOk 0x21 lane = true → s.linkOpen n = true →
        let role := x.txCovers.getD lane lane
        let spare := (s.link (otherEnd n)).covers.find? fun c => c.2 = role && c.1 != lane
        let dropped (l' : List (Nat × Bool)) := ∃ t, Runs (.dlaneDrop l e b lane u) s t ∧
          (t.link n).marks = x.marks ++ l' ∧ changes timeFields [.links] s t
        (lane < allLanes n → s.txMember n lane = true → (lane, false) ∉ x.toMark →
          (∀ c, spare = some c → dropped [(lane, false), (c.1, true)]) ∧
          (spare = none → dropped [(lane, false)])) ∧
        (allLanes n ≤ lane ∨ s.txMember n lane = false ∨ (lane, false) ∈ x.toMark → dropped [])) ∧
      (s.linkOpen n = false → ∀ k, quietly (.dlaneDrop l e b k u) s ∧ quietly (.dwidthReq l e b k u) s ∧
        quietly (.dwidthAck l e b k u) s) ∧
      (∀ k, (b.crcOk 0x21 k = false → quietly (.dlaneDrop l e b k u) s) ∧
        (b.crcOk 0x30 k = false → quietly (.dwidthReq l e b k u) s) ∧
        (b.crcOk 0x31 k = false → quietly (.dwidthAck l e b k u) s)) ∧
      (∀ mask, s.linkOpen n = true →
        (b.crcOk 0x30 mask = true →
          (x.served = some (0x30, b.reqno, mask) ∨ x.request = none ∨ s.outranks n id = false →
            ∃ t, Runs (.dwidthReq l e b mask u) s t ∧ ⟨0x31, mask, b.reqno⟩ ∈ (t.link n).bypQ ∧
              (x.served ≠ some (0x30, b.reqno, mask) → (t.link n).widthReq = some mask) ∧
              changes timeFields [.links] s t) ∧
          (∀ r, x.request = some r → r.kind ≠ 0x81 → x.served ≠ some (0x30, b.reqno, mask) →
            s.outranks n id = true → ∃ t, Runs (.dwidthReq l e b mask u) s t ∧ (t.link n).bypQ = x.bypQ ∧
              (t.link n).widthReq = x.widthReq ∧ (t.link n).request = some r ∧
              changes timeFields [.links] s t)) ∧
        (b.crcOk 0x31 mask = true →
          (∀ r, x.request = some r → r.kind = 0x30 → r.arg = mask → r.reqno = b.reqno →
            ∃ t, Runs (.dwidthAck l e b mask u) s t ∧
              t.rd .ddlErrCountsWidthChanges (ddlOf l).1 (ddlOf l).2 =
                min 65535 (s.rd .ddlErrCountsWidthChanges (ddlOf l).1 (ddlOf l).2 + 1) ∧
              t.rd .coreIrqEventsLink 0 0 = 1 ∧ touches [.tick, .imp, .forme, .fab, .pair, .pwr, .core,
                .events, .cal, .gal, .cmp, .col, .ddl, .gst, .prs, .oe, .lnk, .lsu] [.presses, .jobs,
                .lateXfers, .drains, .mgtLast, .calJobs, .swaps, .spareNeeds, .links, .relays, .mgtJobs,
                .out, .freeCount] s t) ∧
          ((∀ r, x.request = some r → r.arg ≠ mask ∨ r.reqno ≠ b.reqno) →
            ∃ t, Runs (.dwidthAck l e b mask u) s t ∧ (t.link n).request = x.request ∧
              changes timeFields [.links] s t))) ∧
      ∀ g,
        (g < dieGroups n → s.linkOpen n = true → ∃ t, Runs (.groupClockLost l e g u) s t ∧
          g ∈ (t.link n).clockLost ∧ touches [.tick, .imp, .forme, .fab, .pair, .pwr, .core, .events, .cal,
            .gal, .cmp, .col, .ddl, .gst, .prs, .oe, .lnk, .lsu] [.presses, .jobs, .lateXfers, .drains,
            .mgtLast, .calJobs, .swaps, .spareNeeds, .links, .relays, .mgtJobs, .out, .freeCount] s t) ∧
        (g < dieGroups n → s.endState n = lAlign ∨ s.endState n = lIdent → x.retraining = false →
          ∃ t, Runs (.groupClockLost l e g u) s t ∧ (t.link n).tries = x.tries + 1 ∧
            t.endState n = (if x.tries < 2 then lClock else lAbsent) ∧ touches [.tick, .imp, .forme, .fab,
              .pair, .pwr, .core, .events, .cal, .gal, .cmp, .col, .ddl, .gst, .prs, .oe, .lnk, .lsu]
              [.presses, .jobs, .lateXfers, .drains, .mgtLast, .calJobs, .swaps, .spareNeeds, .links,
              .relays, .mgtJobs, .out, .freeCount] s t) ∧
        (dieGroups n ≤ g ∨ (s.linkOpen n = false ∧ s.endState n ≠ lAlign ∧ s.endState n ≠ lIdent) →
          quietly (.groupClockLost l e g u) s) ∧
        ∃ t, Runs (.groupHealthy l e g u) s t ∧ g ∉ (t.link n).clockLost ∧
          (16 ≤ s.readyLanes n g → g ∉ (t.link n).short) ∧
          touches [.tick, .imp, .forme, .fab, .pair, .pwr, .core, .events, .cal, .gal, .cmp, .col, .ddl,
            .gst, .prs, .oe, .lnk, .lsu] [.presses, .jobs, .lateXfers, .drains, .mgtLast, .calJobs, .swaps,
            .spareNeeds, .links, .relays, .mgtJobs, .out, .freeCount] s t) ∧
    (let isDown := s.dieWidth l = 3 ∧ s.rd .ddlStatusState (ddlOf l).1 (ddlOf l).2 = 3;
      (isDown → quietly (.dieLinkDown l u) s) ∧
      (¬isDown → ∃ t, Runs (.dieLinkDown l u) s t ∧ t.dieWidth l = 3 ∧
        t.rd .ddlStatusState (ddlOf l).1 (ddlOf l).2 = 3 ∧ t.rd .coreIrqEventsLink 0 0 = 1 ∧
        (∀ i f, 4 ≤ l → s.active = some i → f ∈ i.formes → bit f.engineSet (l - 4) = true →
          s.fState f.number = fRunning → t.fState f.number = fAbandoning) ∧
        (∀ i f, l < 4 → v.livePartner = false → s.active = some i → f ∈ i.formes → s.namesLink f l = true →
          s.fState f.number ≠ fNone → t.fState f.number = fParked) ∧
        (l < 4 → v.livePartner = true → s.rd .pairStatusYieldCause 0 0 = 0 →
          t.rd .pairStatusYieldCause 0 0 = 4) ∧ touches [.tick, .imp, .forme, .fab, .pair, .pwr, .core,
            .events, .cal, .gal, .cmp, .col, .ddl, .gst, .prs, .oe, .lnk, .lsu] [.presses, .jobs,
            .lateXfers, .drains, .mgtLast, .calJobs, .swaps, .spareNeeds, .links, .relays, .mgtJobs, .out,
            .freeCount] s t)) ∧
    (let proving := s.rd .prfResultState 0 0 = 1 ∨ (4 ≤ l ∧ s.rd .hOeFailed (l - 4) 0 = 1);
     (¬proving → s.rd .ddlStatusState (ddlOf l).1 (ddlOf l).2 = 3 → ∃ t, Runs (.dieLinkRetry l u) s t ∧
      (∀ e, e < 2 → t.endState (dieEnd l e) = lAlign ∧ (t.link (dieEnd l e)).tries = 0 ∧
        (t.link (dieEnd l e)).waiting = false) ∧
      t.rd .ddlStatusState (ddlOf l).1 (ddlOf l).2 = 1 ∧ touches [.tick, .events, .cal, .ddl, .oe, .lnk,
        .lsu] [.calJobs, .swaps, .links] s t) ∧
    (proving ∨ s.rd .ddlStatusState (ddlOf l).1 (ddlOf l).2 ≠ 3 → quietly (.dieLinkRetry l u) s))

/-- At a guest site, before the module's proof, or its short proof at a takeover, has passed GUEST_TRAIN does
nothing; after it, one of a site that its record disables leaves it ABSENT; of one that is UP or DOWN it does
nothing; an offer outside the limits leaves it REFUSED, one that failed to train DOWN, and any other TRAINING
at the lower of the rates and 6 and sends HELLO. (Before any imposition is active a site counts as enabled,
log entry 24.) GUEST_RETRY trains a DOWN site. HELLO takes a TRAINING site that has a rate to UP with the
guest's capability and the lower message-set level (this module's is an opaque value, log entry 18), and to
DOWN where the capability's kind is not a guest's (log entry 91). Each message to the guest carries the head
of a VC1 message, its module field zero and requester code 14. A request at an UP site is counted; within a
window, naming module 0 and the site's own chase, aligned to its sectors and with fewer than 64 outstanding it
is performed and answered, a read that met an uncorrectable error and an access that a rule forbids with
ERROR, or held by a running step; outside every window, or naming another chase, it is answered with ERROR,
sets error_sent and counts. NOTIFY keeps the value and is held where the record says so; POST is sent; a
low-power request changes nothing; a link-down is seen and counted, drops the site's held requests and trains
anew. Each does nothing at a site that is not UP, or for a retry not DOWN, or for HELLO not TRAINING or
without a rate. (R340, R342, R343, R344, R345, R346) -/
def Obligations.GuestSites : Prop :=
  ∀ (s : State) (g u : Nat), g = 0 ∨ g = 2 →
    let r := (s.guestRec g).getD ⟨true, false, 6, 0, []⟩
    (∀ offer,
      let taken := offer.standardPackage = true ∧ offer.streamingRaw = true ∧ 1 ≤ offer.rate
      let left (st : Nat) := ∃ t, Runs (.guestTrain g offer u) s t ∧ t.gState g = st ∧
        t.rd .gstStatusRate g 0 = 0 ∧ t.rd .gstStatusHalfWidth g 0 = 0 ∧ t.rd .gstStatusMsgLevel g 0 = 0 ∧
        changes (.gstStatusState :: .gstStatusRate :: .gstStatusHalfWidth :: .gstStatusMsgLevel :: timeFields)
          [] s t
      (s.rd .prfResultState 0 0 ≠ 2 → s.rd .prfResultState 0 0 ≠ 4 → quietly (.guestTrain g offer u) s) ∧
      (s.rd .prfResultState 0 0 = 2 ∨ s.rd .prfResultState 0 0 = 4 → r.enable = false → left gAbsent) ∧
      (r.enable = true → s.gState g = gUp ∨ s.gState g = gDown → quietly (.guestTrain g offer u) s) ∧
      (s.rd .prfResultState 0 0 = 2 ∨ s.rd .prfResultState 0 0 = 4 → r.enable = true → s.gState g ≠ gUp →
        s.gState g ≠ gDown →
        (¬taken → left gRefused) ∧ (taken → offer.trained = false → left gDown) ∧
        (taken → offer.trained = true → ∃ t, Runs (.guestTrain g offer u) s t ∧ t.gState g = gTraining ∧
          t.rd .gstStatusRate g 0 = min (min offer.rate 6) r.maxRate ∧
          t.rd .gstStatusHalfWidth g 0 = (if offer.x16 = true then 0 else 1) ∧
          t.out = .guest g 0x20 0 (vc1Bytes 0x20 0 0 0 14 g g false (s.rd .chsCapabilityKind g 0 * 2 ^ 60 +
            s.rd .chsCapabilityDdlRev g 0 * 2 ^ 56 + s.rd .chsCapabilityStepping g 0 * 2 ^ 48 +
            s.rd .chsCapabilityLevel g 0) []) :: s.out ∧
          changes (.gstStatusState :: .gstStatusRate :: .gstStatusHalfWidth :: timeFields) [.out] s t))) ∧
    (s.gState g = gDown → ∃ t, Runs (.guestRetry g u) s t ∧ t.gState g = gTraining ∧
      changes (.gstStatusState :: timeFields) [] s t) ∧
    (s.gState g ≠ gDown → quietly (.guestRetry g u) s) ∧
    (∀ cap,
      (s.gState g = gTraining → s.rd .gstStatusRate g 0 ≠ 0 → bitsAt cap 60 4 ≠ 4 →
        ∃ t, Runs (.guestHello g cap u) s t ∧ t.gState g = gDown ∧ t.rd .gstStatusRate g 0 = 0 ∧ touches
          [.tick, .gst] [] s t) ∧
      (s.gState g = gTraining → s.rd .gstStatusRate g 0 ≠ 0 → bitsAt cap 60 4 = 4 →
        ∃ t, Runs (.guestHello g cap u) s t ∧ t.gState g = gUp ∧ t.rd .gstCapabilityKind g 0 = 4 ∧
        t.rd .gstCapabilityLevel g 0 = cap % 2 ^ 32 ∧
        t.rd .gstStatusMsgLevel g 0 = min 15 (min Config.guestLevel (cap % 2 ^ 32)) ∧ touches [.tick, .gst]
          [] s t) ∧
      (s.gState g ≠ gTraining ∨ s.rd .gstStatusRate g 0 = 0 → quietly (.guestHello g cap u) s)) ∧
    (s.gState g = gUp →
      let v := (s.stamp s.now).bump .gstCountsRequests g 0 1
      (∀ (q : VcReq) (d : Option (List Byte)),
        let c : Instr := match d with
          | none => .guestRead g q
          | some x => .guestWrite g q x
        let allowed := (∃ x w, s.guestRec g = some x ∧ w ∈ x.windows ∧ windowAllows w q d.isSome = true) ∧
          q.module = 0 ∧ q.target = g ∧
          1 ≤ q.sectors ∧ q.sectors ≤ 3 ∧ q.addr % 64 = 0 ∧ s.guestHeld g < 64
        let sent (op : Nat) := vc1Bytes op q.sectors q.tag 0 14 g g q.galley q.addr
        let a : Access := ⟨g, q.galley, q.addr, q.sectors * 64, d, q.met, .guest g q⟩
        (allowed → v.judge a = .go → (d = none → q.met.ue = false) → ∃ t, Runs c s t ∧
          t.rd .gstCountsRequests g 0 = min (2 ^ 32 - 1) (s.rd .gstCountsRequests g 0 + 1) ∧
          (d = none → t.mem = s.mem ∧ t.out = .guest g 0x81 q.tag (sent 0x81 (if q.galley = true
            then v.readGal g q.addr (q.sectors * 64) else v.readMem g q.addr (q.sectors * 64))) :: s.out) ∧
          (∀ x, d = some x → t.out = .guest g 0x82 q.tag (sent 0x82 []) :: s.out ∧
            t.mem = (if q.galley = true then v.writeGal g q.addr x else v.writeMem g q.addr x).mem) ∧
          (d.isSome = true ∨ q.met.ce = [] →
            changes (.gstCountsRequests :: timeFields) [.mem, .badWords, .dirtyShared, .out] s t)) ∧
        (allowed → d = none → v.judge a = .go → q.met.ue = true → ∃ t, Runs c s t ∧ t.mem = s.mem ∧
          t.rd .gstStatusErrorSent g 0 = 1 ∧ t.out = .guest g 0xFF q.tag (sent 0xFF []) :: s.out) ∧
        (∀ f, allowed → v.judge a = .hold f → ∃ t, Runs c s t ∧ t.heldAccs = s.heldAccs ++ [⟨f, a⟩] ∧
          changes (.gstCountsRequests :: timeFields) [.heldAccs] s t) ∧
        (¬allowed ∨ (∃ k, v.judge a = .fault k) → ∃ t, Runs c s t ∧
          t.rd .gstStatusErrorSent g 0 = 1 ∧
          t.rd .gstCountsErrors g 0 = min 65535 (s.rd .gstCountsErrors g 0 + 1) ∧
          t.out = .guest g 0xFF q.tag (sent 0xFF []) :: s.out ∧
          changes (.gstStatusErrorSent :: .gstCountsErrors :: .gstCountsRequests :: timeFields) [.out] s t)) ∧
      ∀ value,
        (∃ t, Runs (.guestNotify g value u) s t ∧ t.rd .gstNotifyValue g 0 = value % 2 ^ 64 ∧
          ((∃ x, s.guestRec g = some x ∧ x.notify = true) → t.rd .hGstNotifyHeld g 0 = 1) ∧
          ((∀ x, s.guestRec g = some x → x.notify = false) →
            changes (.gstNotifyValue :: timeFields) [] s t) ∧ touches [.tick, .irq, .gst] [] s t) ∧
        ∃ t, Runs (.guestPost g value) s t ∧ t.out = .guest g 0x22 0 (vc1Bytes 0x22 0 0 0 14 g g false
          value []) :: s.out ∧
          changes timeFields [.out] s t) ∧
    (s.gState g ≠ gUp → (∀ q d, quietly (.guestRead g q) s ∧ quietly (.guestWrite g q d) s) ∧
      ∀ value, quietly (.guestNotify g value u) s ∧ quietly (.guestPost g value) s) ∧
    quietly (.lowPowerRequest g) s ∧
    (s.gState g = gUp ∨ s.gState g = gTraining → ∃ t, Runs (.guestLinkDown g u) s t ∧
      t.gState g = gTraining ∧ t.rd .gstStatusDownSeen g 0 = 1 ∧
      t.rd .gstCountsDowns g 0 = min 65535 (s.rd .gstCountsDowns g 0 + 1) ∧ t.guestHeld g = 0 ∧
      touches [.tick, .irq, .gst] [.heldAccs] s t) ∧
    (s.gState g ≠ gUp → s.gState g ≠ gTraining → quietly (.guestLinkDown g u) s)

/-- IDENTITY_WRITE of 0x0001 to 0x03FF while no imposition is active sets the identity, and any other sets
write_refused, and nothing else changes. BARRIER_ROUND_COMPLETE of a round that is ready while the forme's
step runs counts the round, and each steer record on it opens the window of each engine that it names, with
its route; a round that is not ready changes nothing. STEER_WINDOW_END puts the next route in force and closes
the window, and changes nothing without one. TOKEN_REPEAT on an UP fabric port queues a token for each entry
of its chase that changed within 2^18 ticks. PLANT at a port notes a loss above 9.0 dB with its wavelength and
excess, and nothing else; a corrupt one counts. PLANT_TIMER queues PLANT for each lit wavelength of an UP
port. (R276, R278, R349, R352, R353, R356, R357, R365, R521) -/
def Obligations.FabricRounds : Prop :=
  ∀ (s : State) (u : Nat),
    let v := s.stamp u
    (∀ x, (s.active = none → 1 ≤ x → x ≤ 0x3FF → ∃ t, Runs (.identityWrite x) s t ∧ t.identity = x ∧
        changes [.fabIdentityIdentity] [] s t) ∧
      (s.active ≠ none ∨ x = 0 ∨ 0x3FF < x → ∃ t, Runs (.identityWrite x) s t ∧
        t.rd .fabIdentityWriteRefused 0 0 = 1 ∧ changes [.fabIdentityWriteRefused] [] s t)) ∧
    (∀ f bar, f < 16 → bar < 64 →
      let ready := s.rd .hFormeStepRun 0 f = 1 ∧ v.roundReady f bar = true
      (ready → ∃ t, Runs (.barrierRoundComplete f bar u) s t ∧ t.rounds f bar = s.rounds f bar + 1 ∧
        (s.steersOf f bar = [] → changes timeFields [.barDone] s t) ∧
        (∀ r ∈ s.steersOf f bar, ∀ k < 8, bit r.engines k = true → t.rd .oeStatusSteering k 0 = 1) ∧
        (∀ r, s.steersOf f bar = [r] → ∀ k < 8, bit r.engines k = true →
          t.rd .oeStatusSteering k 0 = 1 ∧ t.rd .oeRouteNext k 0 = r.route % 64 ∧
          t.rd .oeRouteSteers k 0 = min (2 ^ 32 - 1) (s.rd .oeRouteSteers k 0 + 1)) ∧
        touches [.tick, .oe, .lnk] [.barDone] s t) ∧
      (¬ready → quietly (.barrierRoundComplete f bar u) s)) ∧
    (∀ k (l : List (Nat × Nat)), k < 8 → (l.all fun e => e.1 < 4 && e.2 < 8) = true →
      (s.rd .oeStatusSteering k 0 = 1 → ∃ t, Runs (.steerWindowEnd k l u) s t ∧
        t.rd .oeRouteCurrent k 0 = s.rd .oeRouteNext k 0 % 64 ∧
        t.rd .oeStatusRoute k 0 = s.rd .oeRouteNext k 0 % 64 ∧ t.rd .oeRouteNext k 0 = 0x3F ∧
        t.rd .oeStatusSteering k 0 = 0 ∧ touches [.tick, .imp, .forme, .fab, .pair, .core, .events, .cal,
          .gal, .cmp, .col, .ddl, .gst, .prs, .oe, .lnk, .lsu] [.presses, .jobs, .lateXfers, .drains,
          .mgtLast, .calJobs, .calRuns, .swaps, .spareNeeds, .links, .relays, .mgtJobs, .out, .freeCount] s
          t) ∧
      (s.rd .oeStatusSteering k 0 ≠ 1 → quietly (.steerWindowEnd k l u) s)) ∧
    (∀ n, n < 32 →
      (s.lState n = lUp → s.fabricPort n = true → ∃ t, Runs (.tokenRepeat n u) s t ∧
        (∀ e ∈ s.tokens, e.1.1 = n / 8 → v.now - e.2.changed < 2 ^ 18 →
          ⟨0x10, tokenArg e.1.2.1 e.1.2.2 e.2.nibble e.2.count, 0⟩ ∈ (t.link n).bypQ) ∧
        changes timeFields [.links] s t) ∧
      (s.lState n ≠ lUp ∨ s.fabricPort n = false → quietly (.tokenRepeat n u) s) ∧
      (s.lState n = lUp → ∃ t, Runs (.plantTimer n u) s t ∧
        (∀ w < 10, s.rd .oeMonS5 (n / 4) (10 * (n % 4) + w) ≠ 0x8000 →
          ⟨0x84, w * 2 ^ 28 + s.rd .oeMonS5 (n / 4) (10 * (n % 4) + w), 0⟩ ∈ (t.link n).bypQ) ∧
        changes timeFields [.links] s t) ∧
      (s.lState n ≠ lUp → quietly (.plantTimer n u) s)) ∧
    ∀ n (b : Byp) w s5, n < linkEnds →
      (s.linkOpen n = false → quietly (.plant n b w s5 u) s) ∧
      (s.linkOpen n = true → b.crcOk 0x84 (w * 2 ^ 28 + s5) = false → ∃ t, Runs (.plant n b w s5 u) s t ∧
        (n < 32 → t.rd .lnkErrCountsCrcErrors n 0 = min 65535 (s.rd .lnkErrCountsCrcErrors n 0 + 1)) ∧
        changes (.lnkErrCountsCrcErrors :: timeFields) [] s t) ∧
      (s.linkOpen n = true → b.crcOk 0x84 (w * 2 ^ 28 + s5) = true →
        let calm := (s.link n).unacked = [] ∧ s.rd .fabStatusState 0 0 ≠ 3
        let s4 := s.rd .oeMonS4 (n / 4) (10 * (n % 4) + w)
        let loss := sext16 s4 - sext16 s5
        (n < 32 → w < 10 → s4 ≠ 0x8000 → 900 < loss → ∃ t, Runs (.plant n b w s5 u) s t ∧
          t.rd .fabPortPlantFault 0 n = 1 ∧ t.rd .fabPortPlantWavelength 0 n = w ∧
          t.rd .fabPortPlantExcess 0 n = min 255 ((loss - 900) / 10).toNat ∧
          (calm → changes (.fabPortPlantFault :: .fabPortPlantWavelength :: .fabPortPlantExcess :: timeFields)
            [] s t) ∧ touches [.tick, .fab, .gal, .lnk] [.links] s t) ∧
        (32 ≤ n ∨ 10 ≤ w ∨ s4 = 0x8000 ∨ loss ≤ 900 → calm → quietly (.plant n b w s5 u) s))

/-- EDITION received on a port shows the peer's edition and releases the retained frames tagged with it or
earlier. EDITION_REPEAT on an UP fabric port queues the last committed edition, and elsewhere does nothing.
EDITION_STALLED sets edition_stalled where the fabric forme has waited on peers for more than 2^30 ticks.
FETCH is acknowledged and queues the retained frames from its base on, not marked again, unless the port's
forme replays or the module takes over, and sets retain_lost where the frame at its base was lost; a repeat of
it is only acknowledged. FETCH_ACK clears fetch_pending where it answers this end's FETCH and else does
nothing. QUIESCE is noted. QUIESCE_TIMEOUT of a fabric port that is not QUIESCED 2^27 ticks after the quiesce
began counts and takes its link down, and else does nothing. A message whose CRC does not hold counts. (Where
the message's own acknowledgements release nothing and no quiesce waits for it, nothing else changes.) (R311,
R359, R360, R361, R362, R366, R389) -/
def Obligations.EditionsAcrossModules : Prop :=
  ∀ (s : State) (n u : Nat) (b : Byp), n < linkEnds →
    let v := s.stamp u
    let x := s.link n
    let calm := x.unacked = [] ∧ s.rd .fabStatusState 0 0 ≠ 3
    (∀ e, s.linkOpen n = false → quietly (.editionToken n b e u) s ∧ quietly (.fetch n b e u) s ∧
      quietly (.fetchAck n b e u) s ∧ quietly (.quiesce n b e u) s) ∧
    (s.linkOpen n = true → ∀ e,
      let counted (c : Instr) := ∃ t, Runs c s t ∧
        (n < 32 → t.rd .lnkErrCountsCrcErrors n 0 = min 65535 (s.rd .lnkErrCountsCrcErrors n 0 + 1)) ∧
        changes (.lnkErrCountsCrcErrors :: timeFields) [] s t
      (b.crcOk 0x80 e = false → counted (.editionToken n b e u)) ∧
      (b.crcOk 0x81 e = false → counted (.fetch n b e u)) ∧
      (b.crcOk 0x82 e = false → counted (.fetchAck n b e u)) ∧
      (b.crcOk 0x83 e = false → counted (.quiesce n b e u))) ∧
    (s.linkOpen n = true →
      (∀ e,
        (n < 32 → b.crcOk 0x80 e = true → ∃ t, Runs (.editionToken n b e u) s t ∧
          t.rd .fabPortPeerEdition 0 n = e % 2 ^ 16 ∧
          (t.link n).retained = x.retained.filter (fun f => !releasedBy e f.edition) ∧ touches [.tick,
            .fab, .gal, .lnk] [.links] s t) ∧
        (32 ≤ n → b.crcOk 0x80 e = true → x.unacked = [] → quietly (.editionToken n b e u) s) ∧
        (b.crcOk 0x83 e = true → ∃ t, Runs (.quiesce n b e u) s t ∧
          (t.link n).quiesceGot = some (e % 2 ^ 32) ∧ (calm → changes timeFields [.links] s t) ∧
          touches [.tick, .fab, .gal, .lnk] [.links] s t)) ∧
      (∀ base, b.crcOk 0x81 base = true →
        let again := x.served = some (0x81, b.reqno, base % 2 ^ 20)
        let k := extend ((oldestSeq x.retained).getD (s.txNext n 0)) base
        ∃ t, Runs (.fetch n b base u) s t ∧ ⟨0x82, base % 2 ^ 20, b.reqno⟩ ∈ (t.link n).bypQ ∧
          (again → calm → (t.link n).bypQ = x.bypQ ++ [⟨0x82, base % 2 ^ 20, b.reqno⟩] ∧
            changes timeFields [.links] s t) ∧
          (again ∨ v.replaying n = true → x.unacked = [] → (t.link n).resendQ = x.resendQ) ∧
          (¬again → v.replaying n = false →
            (∀ f ∈ x.retained, seqGe f.seq k = true → ∃ m, (f, m) ∈ (t.link n).resendQ) ∧
            (x.unacked = [] → x.resendQ = [] → (t.link n).resendQ =
              (x.retained.filter fun f => seqGe f.seq k).map fun f => (f, false)) ∧
            (n < 32 → seqGt (s.txNext n 0) k = true → (∀ f ∈ x.retained, f.seq ≠ k) →
              t.rd .galStatusRetainLost (n / 8) 0 = 1)) ∧ touches [.tick, .fab, .gal, .lnk] [.links] s t) ∧
      ∀ base, b.crcOk 0x82 base = true →
        ((∀ r, x.request = some r → r.arg ≠ base ∨ r.reqno ≠ b.reqno) → calm →
          quietly (.fetchAck n b base u) s) ∧
        ∀ r, x.request = some r → r.kind = 0x81 → r.arg = base → r.reqno = b.reqno →
          ∃ t, Runs (.fetchAck n b base u) s t ∧ (x.again = [] → (t.link n).request = none) ∧
            (n < 32 → t.rd .fabPortFetchPending 0 n = 0) ∧
            (calm → changes (.fabPortFetchPending :: timeFields) [.links] s t) ∧ touches [.tick, .fab,
              .gal, .lnk] [.links] s t) ∧
    (n < 32 →
      (∀ f, s.lState n = lUp → s.fabricForme = some f → s.fabricPort n = true → s.fState f.number ≠ fNone →
        ∃ t, Runs (.editionRepeat n u) s t ∧ (t.link n).bypQ =
          x.bypQ ++ [⟨0x80, s.rd .modFormeEditionEdition 0 f.number % 2 ^ 32, 0⟩] ∧
          changes timeFields [.links] s t) ∧
      (s.lState n ≠ lUp ∨ s.fabricPort n = false ∨
        (∀ f, s.fabricForme = some f → s.fState f.number = fNone) → quietly (.editionRepeat n u) s) ∧
      (s.fabricPort n = true → v.downCase n 6 u = true →
        ∃ t, Runs (.quiesceTimeout n u) s t ∧
          t.rd .fabCountsQuiesceTimeouts 0 0 = min 65535 (s.rd .fabCountsQuiesceTimeouts 0 0 + 1) ∧
          (s.linkOpen n = true ∨ x.retraining = true →
            t.lState n = lClock ∧ t.rd .lnkStatusLastDown n 0 = 6) ∧
          touches [.tick, .imp, .forme, .fab, .pair, .core, .events, .cal, .gal, .cmp, .col, .ddl, .gst,
            .prs, .oe, .lnk, .lsu] [.presses, .jobs, .lateXfers, .drains, .mgtLast, .calJobs, .swaps,
            .spareNeeds, .links, .relays, .mgtJobs, .out, .freeCount] s t) ∧
      (s.fabricPort n = false ∨ v.downCase n 6 u = false → quietly (.quiesceTimeout n u) s)) ∧
    ∀ f, f < 16 →
      let waits := s.rd .fabStatusState 0 0 = 2 ∧ s.fabricForme.map Forme.number = some f ∧
        2 ^ 30 < u - s.rd .hFormeWaitTick 0 f
      (waits → ∃ t, Runs (.editionStalled f u) s t ∧ t.rd .fabStatusEditionStalled 0 0 = 1 ∧
        changes (.fabStatusEditionStalled :: timeFields) [] s t) ∧
      (¬waits → quietly (.editionStalled f u) s)

/-- Each of the eight commands answers a next state from every state. ACTIVE and STANDBY on a module that holds no
role while an imposition is active make their request pending, and PAIR_HELLO waits on every UP pair-link
port; else role_refused is set and what was pending stays. ROLE_TIMEOUT with the partner's line low grants the
pending request of a module without a role: ACTIVE, or STANDBY with every press OFF whose rail was not cut;
with the line high it does nothing, and without a request, or with a role held, no role changes. PAIR_HELLO on
a pair-link port shows the partner's role; on a module without a role and with the partner's line high, a
request for ACTIVE is refused where the partner is ACTIVE or takes over, one for STANDBY where it is STANDBY,
either where it asks for the same and this module is member 1, and else granted; a module in SWAP_HOLD whose
partner is ACTIVE is STANDBY; else no role changes. PAIR_LEVEL and PAIR_IMP are kept. On other ports the three
do nothing. PAIR_HELLO_TIMER queues PAIR_HELLO, PAIR_LEVEL and PAIR_IMP on every UP pair-link port, and
PAIR_LIVE_RESTORED shows the line high. (R369, R370, R371, R372, R374, R375) -/
def Obligations.PairRoles : Prop :=
  ∀ (s : State) (u : Nat),
    let free := s.role = rNone ∧ s.active ≠ none
    let asks (want : Nat) (t : State) := t.role = s.role ∧
      (free → t.rd .pairStatusPending 0 0 = want ∧
        t.rd .pairStatusRoleRefused 0 0 = s.rd .pairStatusRoleRefused 0 0 ∧
        ∀ q < 32, s.isPairPort q = true → s.lState q = lUp → ∃ arg, ⟨0x90, arg, 0⟩ ∈ (t.link q).bypQ) ∧
      (¬free → t.rd .pairStatusRoleRefused 0 0 = 1 ∧
        t.rd .pairStatusPending 0 0 = s.rd .pairStatusPending 0 0)
    (∃ t, Runs (.pairActive u) s t ∧ asks 1 t ∧ touches [.tick, .pair, .irq] [.links] s t) ∧
    (∃ t, Runs (.pairStandby u) s t ∧ asks 2 t ∧ touches [.tick, .pair, .irq] [.links] s t) ∧
    (∃ t, Runs (.roleTimeout u) s t ∧ (s.rd .pairStatusLiveIn 0 0 = 1 → changes timeFields [] s t) ∧
      (s.rd .pairStatusPending 0 0 = 0 ∨ s.role ≠ rNone → t.role = s.role ∧
        t.rd .pairStatusPending 0 0 = s.rd .pairStatusPending 0 0) ∧
      (s.rd .pairStatusLiveIn 0 0 ≠ 1 → s.role = rNone →
        (s.rd .pairStatusPending 0 0 = 1 → t.role = rActive ∧ t.rd .pairStatusPending 0 0 = 0) ∧
        (s.rd .pairStatusPending 0 0 = 2 → t.role = rStandby ∧ t.rd .pairStatusPending 0 0 = 0 ∧
          ∀ p < 12, s.rd .pwrRailState 0 p ≠ 3 → t.pState p = pOff)) ∧ touches [.tick, .forme, .pair, .pwr,
            .core, .irq, .events, .cal, .cmp, .col, .ddl, .prs, .fin, .case, .oe, .lnk, .lsu, .mem]
            [.presses, .jobs, .lateXfers, .drains, .calJobs, .swaps, .spareNeeds, .links, .badWords,
            .relays, .freeCount] s t) ∧
    (∀ n (b : Byp), n < linkEnds →
      let other := 32 ≤ n ∨ s.isPairPort n = false
      let calm := (s.link n).unacked = [] ∧ s.rd .fabStatusState 0 0 ≠ 3
      (∀ role member resync pend, ∃ t, Runs (.pairHello n b role member resync pend u) s t ∧ touches
        [.tick, .forme, .fab, .pair, .pwr, .sec, .core, .irq, .events, .cal, .gal, .cmp, .col, .ddl, .prs,
        .fin, .case, .oe, .lnk, .lsu, .mem] [.presses, .jobs, .lateXfers, .drains, .calJobs, .swaps,
        .spareNeeds, .links, .badWords, .relays, .freeCount] s t ∧
        (s.linkOpen n = false → changes timeFields [] s t) ∧
        (s.linkOpen n = true → b.crcOk 0x90 (helloOf role member resync pend) = true →
          (other → calm → changes timeFields [] s t) ∧
          (n < 32 → s.isPairPort n = true → role < 16 →
            t.rd .pairStatusPartnerRole 0 0 = role ∧
            (s.role ≠ rNone → s.role ≠ rSwapHold ∨ role ≠ rActive → t.role = s.role) ∧
            (s.rd .pairStatusPending 0 0 = 0 → s.role = rNone → t.role = rNone) ∧
            (s.role = rSwapHold → role = rActive → t.role = rStandby) ∧
            ∀ want, want = 1 ∨ want = 2 → s.rd .pairStatusPending 0 0 = want → s.role = rNone →
              let refused := s.rd .pairStatusLiveIn 0 0 = 1 ∧
                ((want = 1 ∧ (role = rActive ∨ role = rTakingOver)) ∨ (want = 2 ∧ role = rStandby) ∨
                  (pend = want ∧ s.rd .pairStatusMember 0 0 = 1))
              t.rd .pairStatusPending 0 0 = 0 ∧
              (refused → t.role = rNone ∧ t.rd .pairStatusRoleRefused 0 0 = 1) ∧
              (¬refused → t.role = if want = 1 then rActive else rStandby)))) ∧
      (∀ level, ∃ t, Runs (.pairLevel n b level u) s t ∧ t.role = s.role ∧ touches [.tick, .forme, .fab,
        .pair, .irq, .events, .gal, .lnk] [.links] s t ∧
        (s.linkOpen n = false → changes timeFields [] s t) ∧
        (s.linkOpen n = true → b.crcOk 0x91 level = true → (other → calm → changes timeFields [] s t) ∧
          (n < 32 → s.isPairPort n = true → t.rd .hPairLevel 0 0 = level % 2 ^ 32 ∧
            t.rd .hPairLevelSeen 0 0 = 1))) ∧
      ∀ digest, ∃ t, Runs (.pairImp n b digest u) s t ∧ t.role = s.role ∧ touches [.tick, .forme, .fab,
        .pair, .irq, .events, .gal, .lnk] [.links] s t ∧
        (s.linkOpen n = false → changes timeFields [] s t) ∧
        (s.linkOpen n = true → b.crcOk 0x92 digest = true → (other → calm → changes timeFields [] s t) ∧
          (n < 32 → s.isPairPort n = true → t.rd .hPairImp 0 0 = digest % 2 ^ 32 ∧
            t.rd .hPairImpSeen 0 0 = 1))) ∧
    (∃ t, Runs (.pairHelloTimer u) s t ∧ (∀ q < 32, s.isPairPort q = true → s.lState q = lUp →
      ⟨0x90, s.helloArg, 0⟩ ∈ (t.link q).bypQ ∧ ⟨0x91, s.rd .modCapabilityLevel 0 0, 0⟩ ∈ (t.link q).bypQ ∧
      ⟨0x92, s.impDigest, 0⟩ ∈ (t.link q).bypQ) ∧ changes timeFields [.links] s t) ∧
    ∃ t, Runs (.pairLiveRestored u) s t ∧ t.rd .pairStatusLiveIn 0 0 = 1 ∧ t.role = s.role ∧
      touches [.tick, .forme, .pair, .irq, .events] [.links] s t

/-- A standby stores a WRITE that lies inside the mirrored forme's memory, notes its sectors, and counts any other
as bad; no byte outside the write changes. It holds BASES entries beside those of its last record, keeps a
mirrored forme's RECORD unless it has the edition's already, shows the record's edition, keeps the BASES of
that edition alone, and answers MIRROR_DONE; where the writes before the record were a whole copy the forme is
SYNCED, with a resync counted if it was not, and after a delta its state stays. A module that is no standby
ignores the three. MIRROR_DONE at the active for the edition in hand marks it done and SYNCED, for the last
record the pre-release batch, and does nothing else. A standby without a pair-link port UP shows every
mirrored forme STALE, and GRACE_EXPIRED ends the grace of a mirrored forme of an active that has none. (R229,
R376, R377, R378, R379, R381, R382) -/
def Obligations.Mirroring : Prop :=
  ∀ (s : State) (n f u : Nat), n < 32 → f < 16 →
    (∀ c addr e d, c < 4 →
      (s.role ≠ rStandby → Runs (.mirrorWrite n f c addr e d) s s) ∧
      (∀ x, s.role = rStandby → (s.mirroredFormes.find? fun x => x.number = f) = some x →
        (s.mirrorOwns x c addr d.length = true → ∃ t, Runs (.mirrorWrite n f c addr e d) s t ∧
          t.mem = (s.writeMem c addr d).mem ∧
          (∀ k < (d.length + 63) / 64, (f, c, addr + 64 * k) ∈ t.mirrorGot) ∧
          (∀ x ∈ s.mirrorGot, x ∈ t.mirrorGot) ∧
          (s.inv = true → ∀ a, (∀ i < d.length, a ≠ s.memCell c (addr + i)) → t.mem.get a = s.mem.get a) ∧
          changes [] [.mem, .mirrorGot] s t) ∧
        (s.mirrorOwns x c addr d.length = false → ∃ t, Runs (.mirrorWrite n f c addr e d) s t ∧
          t.rd .pairCountsBadWrites 0 0 = min 65535 (s.rd .pairCountsBadWrites 0 0 + 1) ∧
          changes [.pairCountsBadWrites] [] s t)) ∧
      (s.role = rStandby → (s.mirroredFormes.find? fun x => x.number = f) = none →
        ∃ t, Runs (.mirrorWrite n f c addr e d) s t ∧
          t.rd .pairCountsBadWrites 0 0 = min 65535 (s.rd .pairCountsBadWrites 0 0 + 1) ∧
          changes [.pairCountsBadWrites] [] s t)) ∧
    (∀ e es,
      (s.role = rStandby → ∃ t, Runs (.mirrorBases n f e es) s t ∧ (∀ x ∈ es, (f, e, x) ∈ t.bases) ∧
        (∀ x ∈ s.bases, x.1 ≠ f ∨ x.2.1 ≠ e → x ∈ t.bases) ∧ changes [] [.bases] s t) ∧
      (s.role ≠ rStandby → Runs (.mirrorBases n f e es) s s)) ∧
    (∀ r : CkptRecord,
      let had := (s.log.find? fun x => x.forme = f).map CkptRecord.edition = some r.edition
      (s.role = rStandby → ∃ t, Runs (.mirrorRecord n f r u) s t ∧ (had → t.log = s.log) ∧
        (¬had → ∀ x, (s.mirroredFormes.find? fun x => x.number = f) = some x → t.log = r :: s.log ∧
          t.rd .pairFormeEdition 0 f = r.edition % 2 ^ 48 ∧
          (∀ y ∈ s.bases, y.1 ≠ f ∨ y.2.1 = r.edition % 2 ^ 32 → y ∈ t.bases) ∧
          (∀ y ∈ t.bases, y ∈ s.bases ∧ (y.1 = f → y.2.1 = r.edition % 2 ^ 32)) ∧
          (s.gotWhole x r.edition = true → t.rd .pairFormeSync 0 f = 1 ∧ (s.rd .pairFormeSync 0 f ≠ 1 →
            t.rd .pairCountsResyncs 0 0 = min 65535 (s.rd .pairCountsResyncs 0 0 + 1))) ∧
          (s.gotWhole x r.edition = false → t.rd .pairFormeSync 0 f = s.rd .pairFormeSync 0 f)) ∧
        ((s.mirroredFormes.find? fun x => x.number = f) = none → t.log = s.log) ∧
        t.mirrorGot = s.mirrorGot.filter (fun e => e.1 ≠ f) ∧
        (t.link n).bypQ = (s.link n).bypQ ++ [⟨0x93, f * 2 ^ 28 + r.edition % 2 ^ 28, 0⟩] ∧
        changes (.pairFormeSync :: .pairFormeEdition :: .pairCountsResyncs :: timeFields)
          [.log, .links, .bases, .mirrorGot] s t) ∧
      (s.role ≠ rStandby → quietly (.mirrorRecord n f r u) s)) ∧
    (∀ (b : Byp) e, s.linkOpen n = true → b.crcOk 0x93 (f * 2 ^ 28 + e) = true →
      let closing := s.role = rActive ∧ e % 2 ^ 28 = s.edition f % 2 ^ 28
      let batch := s.role = rActive ∧ s.rd .hFormePreSent 0 f = 1 ∧
        e % 2 ^ 28 = (s.edition f - 1) % 2 ^ 28
      (closing → ∃ t, Runs (.mirrorDone n b f e u) s t ∧ t.rd .hFormeMirrorDone 0 f = 1 ∧
        t.rd .pairFormeSync 0 f = 1 ∧ t.rd .pairFormeEdition 0 f = s.edition f % 2 ^ 48 ∧
        touches [.tick, .forme, .fab, .pair, .gal, .lnk] [.links] s t) ∧
      (¬closing → batch → ∃ t, Runs (.mirrorDone n b f e u) s t ∧ t.rd .hFormePreDone 0 f = 1 ∧
        touches [.tick, .forme, .fab, .pair, .gal, .lnk] [.links] s t) ∧
      (¬closing → ¬batch → (s.link n).unacked = [] → s.rd .fabStatusState 0 0 ≠ 3 →
        quietly (.mirrorDone n b f e u) s)) ∧
    (s.role = rActive → (∃ x ∈ s.mirroredFormes, x.number = f) →
      (∀ x ∈ s.mirroredFormes, x.number = f → s.mirrorPort x = none) →
      ∃ t, Runs (.graceExpired f u) s t ∧ t.rd .hPairGraceOver 0 f = 1 ∧ touches [.tick, .forme, .pair,
        .irq, .events] [.links] s t) ∧
    (s.role ≠ rActive ∨ (∀ x, s.mirroredFormes.find? (fun x => x.number = f) = some x →
      (s.mirrorPort x).isSome = true) → quietly (.graceExpired f u) s) ∧
    let cut := s.role = rStandby ∧ ∀ q < 32, s.isPairPort q = false ∨ s.lState q ≠ lUp
    (cut → ∃ t, Runs (.standbyStale u) s t ∧ (∀ x ∈ s.mirroredFormes, t.rd .pairFormeSync 0 x.number = 2) ∧
      changes (.pairFormeSync :: timeFields) [] s t) ∧
    (¬cut → quietly (.standbyStale u) s)

/-- SWAP of a PROTECTED active asks its standby for the swap at edition E, the second after the last committed;
without a port or protection or role it is refused. A standby acknowledges SWAP_REQ, its own request withdrawn
unless it outranks the active's, and SWAP_ACK that answers the request is noted. YIELD and LIVENESS_FAIL of an
active that does not yield yet show cause 0x09 and 0x05, turn every fabric port OFF, and leave no forme
running; of any other module they change no yield cause. YIELD_COMPLETE releases the line: SWAP_HOLD for cause
0x0A and YIELDED for any other. PARTNER_YIELD shows the line low; a standby with every mirrored forme SYNCED
starts a takeover and one without is STOPPED with result REFUSED, a module in SWAP_HOLD is ACTIVE again with
no yield cause, and another keeps its role. (R370, R372, R374, R383, R385, R386, R387, R393, R394) -/
def Obligations.SwapsAndYields : Prop :=
  ∀ (s : State) (u : Nat),
    (∀ f, f < 16 →
      let port := (s.mirroredFormes.find? fun x => x.number = f).bind s.mirrorPort
      (∀ q, port = some q → s.role = rActive → s.rd .pairStatusProtection 0 0 = 1 →
        ∃ t, Runs (.pairSwap f u) s t ∧ t.rd .hPairSwapEdition 0 0 = (s.edition f + 1) % 2 ^ 64 ∧
          t.rd .hPairSwapAcked 0 0 = 0 ∧ asked q 0x94 ((s.edition f + 1) % 2 ^ 32) s t ∧ t.role = s.role ∧
          touches [.tick, .pair, .irq] [.links] s t) ∧
      (port = none ∨ s.role ≠ rActive ∨ s.rd .pairStatusProtection 0 0 ≠ 1 →
        ∃ t, Runs (.pairSwap f u) s t ∧ t.rd .pairStatusRoleRefused 0 0 = 1 ∧
          t.rd .hPairSwapEdition 0 0 = s.rd .hPairSwapEdition 0 0 ∧ t.role = s.role ∧ touches [.tick,
            .pair, .irq] [.links] s t)) ∧
    (∀ n (b : Byp) e, n < linkEnds → s.linkOpen n = true →
      let x := s.link n
      let calm := x.unacked = [] ∧ s.rd .fabStatusState 0 0 ≠ 3
      (b.crcOk 0x94 e = true →
        (s.role ≠ rStandby → calm → quietly (.swapReq n b e u) s) ∧
        (s.role = rStandby → x.request = none ∨ x.served = some (0x94, b.reqno, e) ∨
            s.outranks n (s.peerIdentity n) = false →
          ∃ t, Runs (.swapReq n b e u) s t ∧ ⟨0x95, e, b.reqno⟩ ∈ (t.link n).bypQ ∧ t.role = rStandby ∧
            (x.request = none ∨ x.served = some (0x94, b.reqno, e) → calm →
              (t.link n).bypQ = x.bypQ ++ [⟨0x95, e, b.reqno⟩] ∧ changes timeFields [.links] s t) ∧
            touches [.tick, .fab, .gal, .lnk] [.links] s t) ∧
        (∀ r, s.role = rStandby → x.request = some r → r.kind ≠ 0x81 →
          x.served ≠ some (0x94, b.reqno, e) → s.outranks n (s.peerIdentity n) = true → calm →
          quietly (.swapReq n b e u) s)) ∧
      (b.crcOk 0x95 e = true →
        ((∀ r, x.request = some r → r.arg ≠ e ∨ r.reqno ≠ b.reqno) → calm → quietly (.swapAck n b e u) s) ∧
        ∀ r, x.request = some r → r.kind = 0x94 → r.arg = e → r.reqno = b.reqno →
          ∃ t, Runs (.swapAck n b e u) s t ∧ t.rd .hPairSwapAcked 0 0 = 1 ∧
            (x.again = [] → (t.link n).request = none) ∧
            (calm → changes (.hPairSwapAcked :: timeFields) [.links] s t) ∧ touches [.tick, .forme, .fab,
              .pair, .events, .cal, .gal, .cmp, .col, .prs, .oe, .lnk, .lsu] [.presses, .jobs, .lateXfers,
              .drains, .calJobs, .swaps, .spareNeeds, .links, .relays, .freeCount] s t)) ∧
    (let yields := s.role = rActive ∧ s.rd .pairStatusYieldCause 0 0 = 0
      let yielded (cause : Nat) (t : State) := t.rd .pairStatusYieldCause 0 0 = cause ∧ t.role = rActive ∧
        (∀ q < 32, t.lState q = lOff) ∧
        ∀ f ∈ s.formeNums, t.fState f ≠ fRunning ∧ t.fState f ≠ fClosing ∧ t.fState f ≠ fAbandoning;
      (yields → (∃ t, Runs (.pairYield u) s t ∧ yielded 9 t ∧ touches [.tick, .forme, .pair, .irq, .events,
        .cal, .cmp, .col, .prs, .oe, .lnk, .lsu] [.presses, .jobs, .lateXfers, .drains, .calJobs, .swaps,
        .spareNeeds, .links, .relays, .freeCount] s t) ∧
        ∃ t, Runs (.livenessFail u) s t ∧ yielded 5 t ∧ touches [.tick, .forme, .pair, .irq, .events, .cal,
          .cmp, .col, .prs, .oe, .lnk, .lsu] [.presses, .jobs, .lateXfers, .drains, .calJobs, .swaps,
          .spareNeeds, .links, .relays, .freeCount] s t) ∧
      (¬yields → (∃ t, Runs (.pairYield u) s t ∧
          t.rd .pairStatusYieldCause 0 0 = s.rd .pairStatusYieldCause 0 0 ∧ changes (irqFields ++ timeFields)
            [] s t) ∧
        ∃ t, Runs (.livenessFail u) s t ∧
          t.rd .pairStatusYieldCause 0 0 = s.rd .pairStatusYieldCause 0 0 ∧ changes (irqFields ++ timeFields)
            [] s t)) ∧
    (s.role = rActive → s.rd .pairStatusYieldCause 0 0 ≠ 0 → ∃ t, Runs (.yieldComplete u) s t ∧
      t.rd .pairStatusYielded 0 0 = 1 ∧ t.rd .hPinYieldLive 0 0 = 0 ∧
      (s.rd .pairStatusYieldCause 0 0 = 0x0A → t.role = rSwapHold) ∧
      (s.rd .pairStatusYieldCause 0 0 ≠ 0x0A → t.role = rYielded) ∧ touches [.tick, .pair, .sec, .irq,
        .events, .cal, .ddl, .oe, .lnk, .lsu] [.calJobs, .swaps, .links] s t) ∧
    (s.role ≠ rActive ∨ s.rd .pairStatusYieldCause 0 0 = 0 → ∃ t, Runs (.yieldComplete u) s t ∧
      changes (irqFields ++ timeFields) [] s t) ∧
    ∃ t, Runs (.partnerYield u) s t ∧ t.rd .pairStatusLiveIn 0 0 = 0 ∧
      (s.role = rStandby → (∀ x ∈ s.mirroredFormes, s.rd .pairFormeSync 0 x.number = 1) →
        t.role = rTakingOver) ∧
      (s.role = rStandby → (∃ x ∈ s.mirroredFormes, s.rd .pairFormeSync 0 x.number ≠ 1) →
        t.role = rStopped ∧ t.rd .pairTakeoverResult 0 0 = 2) ∧
      (s.role = rSwapHold → t.role = rActive ∧ t.rd .pairStatusYieldCause 0 0 = 0) ∧
      (s.role ≠ rStandby → s.role ≠ rSwapHold → t.role = s.role) ∧ touches [.tick, .imp, .forme, .pair,
        .pwr, .prf, .sec, .irq, .events, .cal, .cmp, .col, .ddl, .prs, .oe, .lnk, .lsu, .mem] [.presses,
        .jobs, .lateXfers, .drains, .calJobs, .calRuns, .swaps, .spareNeeds, .barSent, .tokens, .links,
        .repairMap, .flashQ, .relays, .freeCount] s t

/-- In TAKING_OVER each phase's command leads to the next: with power every press whose rail was not cut is in
PROOF with its rail on, one whose rail was cut stays as it was, and the proof runs; after the proof a finding
that nothing covers or a mirrored forme that fits no variant leaves the module STOPPED with result
PROOF_FAILED, and else, where an image boots, its images are written next; then the ports train; once every
port is UP, or they time out, FETCH goes out; and once every FETCH of an UP port is answered and the peers of
the UP ports have sent the record's EDITION or a later one (log entry 68) the module is ACTIVE with result
DONE. (The numbers of the phases are the model's own.) Before that, and in another phase or outside
TAKING_OVER, the command does nothing. (R387, R388, R389, R390, R432, R459) -/
def Obligations.Takeovers : Prop :=
  ∀ (s : State) (u : Nat),
    let v := s.stamp u
    let phase (k : Nat) := s.role = rTakingOver ∧ s.rd .hPairPhase 0 0 = k
    (phase 1 → ∃ t, Runs (.takeoverPowered u) s t ∧ t.rd .hPairPhase 0 0 = 2 ∧ t.role = rTakingOver ∧
      (∀ p < 12, (s.rd .pwrRailState 0 p ≠ 3 → t.pState p = pProof ∧ t.rd .pwrRailState 0 p = 1) ∧
        (s.rd .pwrRailState 0 p = 3 → t.pState p = s.pState p ∧ t.rd .pwrRailState 0 p = 3)) ∧
      t.rd .prfResultState 0 0 = 1 ∧
      touches [.tick, .pair, .pwr, .prf, .prs, .mem] [.presses, .repairMap, .freeCount] s t) ∧
    (¬phase 1 → quietly (.takeoverPowered u) s) ∧
    (∀ fs, phase 2 →
      let w := (v.findings v.inTakeover fs).writeChanged v.repairMap
      let r := w.pressesProven.engineCals w.takeoverEngines
      let stopped (t : State) := t.role = rStopped ∧ t.rd .pairTakeoverResult 0 0 = 3 ∧
        t.rd .prfResultState 0 0 = 5
      ∃ t, Runs (.takeoverProofDone fs u) s t ∧ ((w.firstFatal fs).isSome = true → stopped t) ∧
        (w.firstFatal fs = none →
          ((∃ x ∈ r.mirroredFormes, r.select x = none) → stopped t) ∧
          ((∀ x ∈ r.mirroredFormes, r.select x ≠ none) → s.pickImage ≠ none →
            t.rd .hPairPhase 0 0 = 3 ∧ t.role = rTakingOver ∧ t.rd .prfResultState 0 0 = 4)) ∧ touches
              [.module, .tick, .imp, .forme, .fab, .pair, .pwr, .thm, .prf, .sec, .core, .irq, .events,
              .mgt, .cal, .chs, .gal, .cmp, .col, .ddl, .gst, .prs, .fin, .case, .oe, .lnk, .lsu, .mem]
              [.mem, .presses, .active, .loaded, .pendingBytes, .jobs, .lateXfers, .heldAccs, .drains,
              .dirtyOut, .dirtyShared, .mirrorGot, .bases, .log, .calJobs, .calRuns, .calFails, .ringErr,
              .mislocks, .swaps, .spareNeeds, .arrivals, .barDone, .barSent, .tokens, .links, .repairMap,
              .ceLog, .samples, .idleDebt, .droops, .flashQ, .image, .snaps, .badWords, .relays, .early,
              .mgtJobs, .moe, .cache, .fades, .dropped, .freeCount] s t) ∧
    (∀ fs, ¬phase 2 → quietly (.takeoverProofDone fs u) s) ∧
    (phase 3 → ∃ t, Runs (.takeoverImagesWritten u) s t ∧ t.rd .hPairPhase 0 0 = 4 ∧ t.role = rTakingOver ∧
      ((s.mirroredFormes.map Forme.number).Nodup → ∀ x ∈ s.mirroredFormes, x.number < 16 →
        t.rd .modFormeEditionEdition 0 x.number = (v.lastRecord x.number).edition % 2 ^ 64) ∧
      touches [.tick, .forme, .pair, .events, .cal, .ddl, .prs, .oe, .lnk, .lsu] [.presses, .calJobs,
        .swaps, .links] s t) ∧
    (¬phase 3 → quietly (.takeoverImagesWritten u) s) ∧
    (phase 4 → ∃ t, Runs (.takeoverPortsTimeout u) s t ∧ t.rd .hPairPhase 0 0 = 5 ∧ t.role = rTakingOver ∧
      touches [.tick, .fab, .pair, .gal, .lnk] [.links, .early] s t) ∧
    (¬phase 4 → quietly (.takeoverPortsTimeout u) s) ∧
    (phase 4 → (∀ q ∈ s.takeoverPorts, s.lState q = lUp) → ∃ t, Runs (.takeoverRelease u) s t ∧
      t.rd .hPairPhase 0 0 = 5 ∧ t.role = rTakingOver ∧ touches [.tick, .imp, .forme, .fab, .pair, .pwr,
        .prf, .irq, .events, .cal, .gal, .cmp, .col, .prs, .oe, .lnk, .lsu, .mem] [.mem, .presses, .jobs,
        .lateXfers, .drains, .dirtyShared, .calJobs, .calRuns, .swaps, .spareNeeds, .arrivals, .barDone,
        .barSent, .links, .repairMap, .flashQ, .relays, .early, .out, .freeCount] s t) ∧
    (phase 4 → (∃ q ∈ s.takeoverPorts, s.lState q ≠ lUp) → quietly (.takeoverRelease u) s) ∧
    (phase 5 → s.takeoverReady = true →
      (∀ q ∈ s.takeoverPorts, s.lState q ≠ lUp ∨ s.rd .fabPortFetchPending 0 q ≠ 1) →
      ∃ t, Runs (.takeoverRelease u) s t ∧ t.role = rActive ∧ t.rd .pairTakeoverResult 0 0 = 1 ∧
        t.rd .hPairPhase 0 0 = 0 ∧ touches [.tick, .imp, .forme, .fab, .pair, .pwr, .prf, .irq, .events,
          .cal, .gal, .cmp, .col, .prs, .oe, .lnk, .lsu, .mem] [.mem, .presses, .jobs, .lateXfers, .drains,
          .dirtyShared, .calJobs, .calRuns, .swaps, .spareNeeds, .arrivals, .barDone, .barSent, .links,
          .repairMap, .flashQ, .relays, .early, .out, .freeCount] s t) ∧
    (phase 5 → s.takeoverReady = false ∨
        (∃ q ∈ s.takeoverPorts, s.lState q = lUp ∧ s.rd .fabPortFetchPending 0 q = 1) →
      quietly (.takeoverRelease u) s) ∧
    (¬phase 4 → ¬phase 5 → quietly (.takeoverRelease u) s)

/-- RAIL_WINDOW of a rail that is off or cut shows no current and does nothing else; of another it shows the
current and cuts the rail above its cut level (a press's fails the press, a galley's or core cluster's powers
the module off, an engine rail's turns the ports of both engines OFF), limits it above its limit with one
limit event counted as it starts to, and ends the limit below 90 %, which lets the accesses that it suspended
go on. MAIN_RAIL_FAILURE without main power does nothing; with it, and with no power-off running and no trip,
the module powers off: SB_READY and SB_PAIR_YIELD_N are released. ESTIMATOR_SAMPLE puts the events' energy at
the front of the samples, of which 8,192 are kept, and shows the hold estimate (the sample's static terms and
idle blocks, at most 520 W) and the mean of the last 512 samples; a decision window in which estimate and
measurement agree within 10 % starts the time of est_drift afresh, and one that differs 2^30 ticks or more
after the first sets it. INPUT_MEASUREMENT shows power and voltage, and input_fault outside 40 V to 60 V.
IDLE_STEP_END inserts the next idle step while a debt is left and else ends them; without an idle step it does
nothing. PWR_CTRL_WRITE writes its four fields, a cap above 2,800 W as 2,800 W. (R397, R398, R400, R405, R406,
R407, R408, R409, R413) -/
def Obligations.PowerControl : Prop :=
  ∀ (s : State) (u : Nat),
    (∀ n current, n < 26 →
      let st := s.rd .pwrRailState 0 n
      let shown (t : State) := t.rd .pwrRailCurrent 0 n = min 65535 current
      let limited := .pwrRailCurrent :: .pwrRailState :: .pwrRailLimitEvents :: timeFields
      (st = 0 ∨ st = 3 → ∃ t, Runs (.railWindow n current u) s t ∧ t.rd .pwrRailCurrent 0 n = 0 ∧
        changes (.pwrRailCurrent :: timeFields) [] s t) ∧
      (st ≠ 0 → st ≠ 3 →
        ((railLimits n).2 < current → ∃ t, Runs (.railWindow n current u) s t ∧
          t.rd .pwrRailState 0 n = 3 ∧ (n < 12 → t.pState n = pFailed) ∧
          (12 ≤ n → n < 20 → s.rd .hPwrUp 0 0 = 1 → s.sec ≠ zTripped → t.sec = zPoweringOff) ∧
          (20 ≤ n → n < 24 → ∀ q < 32, q / 8 = n - 20 → t.lState q = lOff) ∧
          touches [.tick, .imp, .forme, .fab, .pair, .pwr, .prf, .sec, .core, .irq, .events, .cal, .gal,
            .cmp, .col, .ddl, .gst, .prs, .oe, .lnk, .lsu, .mem] [.mem, .presses, .jobs, .lateXfers,
            .heldAccs, .drains, .dirtyShared, .mgtLast, .calJobs, .calRuns, .swaps, .spareNeeds, .links,
            .repairMap, .ceLog, .relays, .mgtJobs, .dropped, .out, .freeCount] s t) ∧
        (current ≤ (railLimits n).2 → (railLimits n).1 < current → st = 2 →
          ∃ t, Runs (.railWindow n current u) s t ∧ shown t ∧ changes (.pwrRailCurrent :: timeFields) [] s
            t) ∧
        (current ≤ (railLimits n).2 → (railLimits n).1 < current → st ≠ 2 →
          ∃ t, Runs (.railWindow n current u) s t ∧ shown t ∧ t.rd .pwrRailState 0 n = 2 ∧
            t.rd .pwrRailLimitEvents 0 n = min 65535 (s.rd .pwrRailLimitEvents 0 n + 1) ∧
            (∀ m, m ≠ n → t.rd .pwrRailState 0 m = s.rd .pwrRailState 0 m) ∧ changes limited [] s t) ∧
        (current ≤ (railLimits n).1 → ∃ t, Runs (.railWindow n current u) s t ∧ shown t ∧
          t.rd .pwrRailState 0 n = (if st = 2 ∧ 10 * current < 9 * (railLimits n).1 then 1 else st) ∧
          t.rd .pwrRailLimitEvents 0 n = s.rd .pwrRailLimitEvents 0 n ∧
          (st = 2 → 10 * current < 9 * (railLimits n).1 → s.heldAccs = [] → changes limited [] s t) ∧
          (st ≠ 2 ∨ 9 * (railLimits n).1 ≤ 10 * current → changes limited [] s t) ∧ touches [.tick, .imp,
            .forme, .fab, .pair, .pwr, .prf, .sec, .core, .irq, .events, .cal, .gal, .cmp, .col, .ddl,
            .gst, .prs, .oe, .lnk, .lsu, .mem] [.mem, .presses, .jobs, .lateXfers, .heldAccs, .drains,
            .dirtyShared, .mgtLast, .calJobs, .calRuns, .swaps, .spareNeeds, .links, .repairMap, .ceLog,
            .relays, .mgtJobs, .dropped, .out, .freeCount] s t))) ∧
    (∀ inputOut,
      (s.rd .hPwrUp 0 0 ≠ 1 → quietly (.mainRailFailure inputOut u) s) ∧
      (s.rd .hPwrUp 0 0 = 1 → s.sec ≠ zPoweringOff → s.sec ≠ zTripped →
        ∃ t, Runs (.mainRailFailure inputOut u) s t ∧ t.sec = zPoweringOff ∧ t.rd .hPinReady 0 0 = 0 ∧
          t.rd .pairStatusYielded 0 0 = 1 ∧ t.rd .hPwrOffStep 0 0 = 1 ∧
          (inputOut = true → t.rd .pwrStatusInputFault 0 0 = 1) ∧ touches [.tick, .imp, .forme, .fab,
            .pair, .pwr, .sec, .core, .irq, .events, .cal, .gal, .cmp, .col, .ddl, .gst, .prs, .oe, .lnk,
            .lsu] [.presses, .jobs, .lateXfers, .drains, .mgtLast, .calJobs, .swaps, .spareNeeds, .links,
            .relays, .mgtJobs, .out, .freeCount] s t)) ∧
    (∀ e : EstSample, (e.events.all fun x => x.e < 24 && x.q < 22) = true →
      ∃ t, Runs (.estimatorSample e u) s t ∧
        (t.samples.head?.map PwrSample.energy) = some (e.events.map s.eventEnergy).sum ∧
        t.samples.tail = s.samples.take 8191 ∧ t.rd .pwrStatusHoldW 0 0 = s.holdOf e ∧
        t.rd .pwrStatusEstW 0 0 =
          min 4095 (((t.samples.take 512).map PwrSample.energy).sum / (512 * sampleUnits 1)) ∧
        (t.drifts = false → t.rd .hPwrDriftTick 0 0 = 0 ∧
          t.rd .pwrStatusEstDrift 0 0 = s.rd .pwrStatusEstDrift 0 0) ∧
        (t.drifts = true → s.rd .hPwrDriftTick 0 0 ≠ 0 → 2 ^ 30 ≤ u + 1 - s.rd .hPwrDriftTick 0 0 →
          t.rd .pwrStatusEstDrift 0 0 = 1) ∧
        touches [.tick, .imp, .forme, .pair, .pwr, .prf, .irq, .events, .cal, .cmp, .col, .prs, .oe, .lnk,
          .lsu, .mem] [.presses, .jobs, .lateXfers, .drains, .calJobs, .calRuns, .swaps, .spareNeeds,
          .barSent, .links, .repairMap, .samples, .idleDebt, .flashQ, .relays, .freeCount] s t) ∧
    (∀ watts dv, ∃ t, Runs (.inputMeasurement watts dv u) s t ∧ t.rd .pwrStatusInputW 0 0 = min 4095 watts ∧
      t.rd .pwrStatusInputDv 0 0 = min 4095 dv ∧
      t.rd .pwrStatusInputFault 0 0 =
        (if dv < 400 ∨ 600 < dv then 1 else s.rd .pwrStatusInputFault 0 0) ∧
      changes (.pwrStatusInputW :: .pwrStatusInputDv :: .pwrStatusInputFault :: irqFields ++ timeFields) []
        s t) ∧
    (∀ f, f < 16 →
      (s.rd .hFormeIdle 0 f ≠ 1 → quietly (.idleStepEnd f u) s) ∧
      (s.rd .hFormeIdle 0 f = 1 → 0 < s.debt f → ∃ t, Runs (.idleStepEnd f u) s t ∧
        t.rd .pwrFormeIdleSteps 0 f = min 65535 (s.rd .pwrFormeIdleSteps 0 f + 1) ∧
        t.debt f = s.debt f - Int.ofNat (s.nextNominal f) ∧ t.rd .hFormeIdle 0 f = 1 ∧ touches [.tick,
          .forme, .pwr] [.idleDebt] s t) ∧
      (s.rd .hFormeIdle 0 f = 1 → s.debt f ≤ 0 → ∃ t, Runs (.idleStepEnd f u) s t ∧
        t.rd .hFormeIdle 0 f = 0 ∧ changes (.hFormeIdle :: timeFields) [] s t)) ∧
    ∀ value, ∃ t, Runs (.pwrCtrlWrite value) s t ∧ t.rd .pwrCtrlCap 0 0 = min 2800 (value % 4096) ∧
      t.rd .pwrCtrlBoost 0 0 = bitsAt value 27 1 ∧ t.rd .pwrCtrlFixedPoint 0 0 = bitsAt value 28 3 ∧
      t.rd .pwrCtrlFixed 0 0 = bitsAt value 31 1 ∧
      changes [.pwrCtrlCap, .pwrCtrlBoost, .pwrCtrlFixedPoint, .pwrCtrlFixed] [] s t

/-- DROOP_TRIP of an island without a droop event, by a sag of 5 % or more, starts an event with the stretch that
the sag selects, counts it on the island's rail, and the 64th within 2^20 ticks is a storm; else it does
nothing. DROOP_EVENT_END ends the stretch, or starts a new event where the detector is still tripped.
TEMP_SAMPLE shows the hottest of the domain's sensors; the band rises at once to that temperature's band, with
one change counted and shown at the domain's stack or engine; it falls by one only 2^20 ticks after the domain
is more than 2.0 °C below its band; else it stays. THERMAL_DUTY_UPDATE halves d_t in B4, down to 1/16, and
else doubles it. THERMAL_TRIP latches the trip with its first domain, drives the trip contact, sets alert 0,
and the module powers off and is TRIPPED at the end. (R419, R420, R421, R422, R423, R424, R425, R426) -/
def Obligations.DroopsAndHeat : Prop :=
  ∀ (s : State) (u : Nat),
    (∀ i sag, i < 20 →
      let r := railOfIsland i
      let near := (s.droops.getD i []).filter fun x => u - x < 2 ^ 20
      let starts (t : State) := t.rd .hDroopRun 0 i = stretchOf sag ∧
        t.rd .pwrRailDroopEvents 0 r = min 65535 (s.rd .pwrRailDroopEvents 0 r + 1) ∧
        (63 ≤ near.length → t.rd .pwrRailDroopStorm 0 r = 1) ∧
        (near.length < 63 → t.rd .pwrRailDroopStorm 0 r = s.rd .pwrRailDroopStorm 0 r) ∧
        t.droops.getD i [] = (u :: near).take 64
      (stretchOf sag ≠ 0 → s.rd .hDroopRun 0 i = 0 → ∃ t, Runs (.droopTrip i sag u) s t ∧ starts t ∧
        touches [.tick, .forme, .pwr] [.droops] s t) ∧
      (stretchOf sag = 0 ∨ s.rd .hDroopRun 0 i ≠ 0 → quietly (.droopTrip i sag u) s) ∧
      (stretchOf sag ≠ 0 → ∃ t, Runs (.droopEventEnd i (some sag) u) s t ∧ starts t ∧ touches [.tick,
        .forme, .pwr] [.droops] s t) ∧
      ∀ still, still = none ∨ (still = some sag ∧ stretchOf sag = 0) →
        ∃ t, Runs (.droopEventEnd i still u) s t ∧ t.rd .hDroopRun 0 i = 0 ∧
          changes (.hDroopRun :: timeFields) [] s t) ∧
    (∀ d ts, d < 42 → ts.length = sensorsOf d → ∀ h ∈ ts, (∀ x ∈ ts, x ≤ h) →
      let b := s.rd .thmDomainBand 0 d
      let cool := s.rd .hThmCool 0 d
      let low := b ≠ 0 ∧ h < bandFloor b - 16
      ∃ t, Runs (.tempSample d ts u) s t ∧ t.rd .thmDomainTemp 0 d = twos 12 h % 4096 ∧
        ts.getD (t.rd .thmDomainSensor 0 d) 0 = h ∧
        (b < bandOf h → t.rd .thmDomainBand 0 d = bandOf h ∧
          t.rd .thmDomainBandChanges 0 d = min 65535 (s.rd .thmDomainBandChanges 0 d + 1) ∧
          (16 ≤ d → d < 32 → t.rd .memStatusBand (d - 16) 0 = bandOf h) ∧
          (32 ≤ d → d < 40 → t.rd .oeStatusBand (d - 32) 0 = bandOf h)) ∧
        (bandOf h ≤ b → low → cool ≠ 0 → 2 ^ 20 ≤ u + 1 - cool → t.rd .thmDomainBand 0 d = b - 1 ∧
          t.rd .thmDomainBandChanges 0 d = min 65535 (s.rd .thmDomainBandChanges 0 d + 1)) ∧
        (bandOf h ≤ b → ¬low ∨ cool = 0 ∨ u + 1 - cool < 2 ^ 20 → t.rd .thmDomainBand 0 d = b ∧
          t.rd .thmDomainBandChanges 0 d = s.rd .thmDomainBandChanges 0 d) ∧
        (∀ e, e ≠ d → t.rd .thmDomainBand 0 e = s.rd .thmDomainBand 0 e) ∧ touches [.tick, .thm, .irq,
          .events, .oe, .mem] [] s t) ∧
    (∀ d, d < 42 →
      (∃ t, Runs (.thermalDutyUpdate d u) s t ∧
        (s.rd .thmDomainBand 0 d = 4 → t.rd .hThmDuty 0 d = min 4 (s.rd .hThmDuty 0 d + 1)) ∧
        (s.rd .thmDomainBand 0 d ≠ 4 → t.rd .hThmDuty 0 d = (s.rd .hThmDuty 0 d - 1) % 8) ∧
        (∀ e, e ≠ d → t.rd .hThmDuty 0 e = s.rd .hThmDuty 0 e) ∧ changes (.hThmDuty :: timeFields) [] s t) ∧
      ∃ t, Runs (.thermalTrip d u) s t ∧ t.rd .thmStatusTrip 0 0 = 1 ∧ t.rd .hPinTrip 0 0 = 1 ∧
        t.rd .thmStatusTripDomain 0 0 =
          (if s.rd .thmStatusTrip 0 0 = 1 then s.rd .thmStatusTripDomain 0 0 else d) ∧
        bit (t.rd .secStatusAlerts 0 0) 0 = true ∧
        (s.sec ≠ zTripped → bit (t.rd .secEventsResetMask 0 0) 5 = true) ∧
        (s.sec ≠ zTripped → s.sec ≠ zPoweringOff →
          (s.rd .hPwrUp 0 0 = 1 → t.sec = zPoweringOff) ∧ (s.rd .hPwrUp 0 0 ≠ 1 → t.sec = zTripped)) ∧
        touches [.tick, .imp, .forme, .fab, .pair, .pwr, .thm, .sec, .core, .irq, .events, .cal, .gal,
          .cmp, .col, .ddl, .gst, .prs, .oe, .lnk, .lsu] [.presses, .jobs, .lateXfers, .drains, .mgtLast,
          .calJobs, .swaps, .spareNeeds, .links, .relays, .mgtJobs, .out, .freeCount] s t)

/-- A phase of the start-up proof that ends with a finding that nothing covers leaves the module in FATAL with the
finding's kind and phase, both contacts released; else phase 1 takes the flash's map with no entry new, 2
starts every press and stack proving, and 3 leaves the proof passed; outside a proof the command does nothing.
A strip slice passed is recorded in the edition, and the one that ends the last of the press's slices counts a
round; one failed counts, is noted for the next boundary and raises an event; of a strip already failed
nothing happens. A logic slice that fails a press fails it and abandons its forme, and one that fails a chase
makes a module with a live partner yield, and else parks the formes on that chase; a core slice that fails
raises core_fail; one that passes or starts does nothing else. (R428, R429, R430, R431, R433, R436, R454,
R457) -/
def Obligations.ProofsAndSlices : Prop :=
  ∀ (s : State) (u : Nat),
    let v := s.stamp u
    (∀ fs,
      let proves := s.sec = zProof ∧ s.rd .prfResultState 0 0 = 1
      let ph := s.rd .prfResultPhase 0 0
      let w := v.findings (fun e => if ph = 2 then e.array = 4 else e.array != 4) fs
      (¬proves → quietly (.proofPhaseComplete fs u) s) ∧
      (proves → ph = 1 → ∃ t, Runs (.proofPhaseComplete fs u) s t ∧ t.repairMap = agedMap s.flashMap ∧
        t.rd .prfResultPhase 0 0 = 2 ∧
        t.rd .prfResultMapRebuilt 0 0 = b2n (decide (s.rd .hFlashGen 0 0 = 0)) ∧ t.sec = zProof ∧
        touches [.module, .tick, .imp, .forme, .fab, .pair, .pwr, .thm, .prf, .sec, .core, .irq, .events,
          .mgt, .cal, .chs, .gal, .cmp, .col, .ddl, .gst, .prs, .fin, .case, .oe, .lnk, .lsu, .mem] [.mem,
          .presses, .active, .loaded, .pendingBytes, .jobs, .lateXfers, .heldAccs, .drains, .dirtyOut,
          .dirtyShared, .mirrorGot, .bases, .log, .calJobs, .calRuns, .calFails, .ringErr, .mislocks,
          .swaps, .spareNeeds, .arrivals, .barDone, .barSent, .tokens, .links, .repairMap, .ceLog,
          .samples, .idleDebt, .droops, .flashQ, .image, .snaps, .badWords, .relays, .early, .mgtJobs,
          .moe, .cache, .fades, .dropped, .freeCount] s t) ∧
      (proves → ph = 2 ∨ ph = 3 →
        (∀ x, w.firstFatal fs = some x → ∃ t, Runs (.proofPhaseComplete fs u) s t ∧ t.sec = zFatal ∧
          t.rd .prfResultState 0 0 = 3 ∧ t.rd .prfResultPhase 0 0 = ph ∧
          t.rd .prfResultKind 0 0 = x.1 % 16 ∧ t.rd .hPinReady 0 0 = 0 ∧
          t.rd .pairStatusYielded 0 0 = 1 ∧ bit (t.rd .secStatusAlerts 0 0) 3 = true ∧
          touches [.module, .tick, .imp, .forme, .fab, .pair, .pwr, .thm, .prf, .sec, .core, .irq, .events,
            .mgt, .cal, .chs, .gal, .cmp, .col, .ddl, .gst, .prs, .fin, .case, .oe, .lnk, .lsu, .mem]
            [.mem, .presses, .active, .loaded, .pendingBytes, .jobs, .lateXfers, .heldAccs, .drains,
            .dirtyOut, .dirtyShared, .mirrorGot, .bases, .log, .calJobs, .calRuns, .calFails, .ringErr,
            .mislocks, .swaps, .spareNeeds, .arrivals, .barDone, .barSent, .tokens, .links, .repairMap,
            .ceLog, .samples, .idleDebt, .droops, .flashQ, .image, .snaps, .badWords, .relays, .early,
            .mgtJobs, .moe, .cache, .fades, .dropped, .freeCount] s t) ∧
        (w.firstFatal fs = none → ∃ t, Runs (.proofPhaseComplete fs u) s t ∧ t.sec = zProof ∧
          (ph = 2 → t.rd .prfResultPhase 0 0 = 3 ∧ t.rd .prfResultState 0 0 = 1 ∧
            (∀ p < 12, t.pState p = pProof) ∧ ∀ m < 16, t.rd .memStatusState m 0 = 1) ∧
          (ph = 3 → t.rd .prfResultState 0 0 = 2 ∧ ∀ m < 16, t.rd .memStatusState m 0 = 2) ∧
          touches [.module, .tick, .imp, .forme, .fab, .pair, .pwr, .thm, .prf, .sec, .core, .irq, .events,
            .mgt, .cal, .chs, .gal, .cmp, .col, .ddl, .gst, .prs, .fin, .case, .oe, .lnk, .lsu, .mem]
            [.mem, .presses, .active, .loaded, .pendingBytes, .jobs, .lateXfers, .heldAccs, .drains,
            .dirtyOut, .dirtyShared, .mirrorGot, .bases, .log, .calJobs, .calRuns, .calFails, .ringErr,
            .mislocks, .swaps, .spareNeeds, .arrivals, .barDone, .barSent, .tokens, .links, .repairMap,
            .ceLog, .samples, .idleDebt, .droops, .flashQ, .image, .snaps, .badWords, .relays, .early,
            .mgtJobs, .moe, .cache, .fades, .dropped, .freeCount] s t))) ∧
    (∀ p strip, p < 12 → strip < 17 →
      (bit (s.rd .prsStripMapStripFailed p 0) strip = true →
        ∀ ok, quietly (.stripSliceDone p strip ok u) s) ∧
      (bit (s.rd .prsStripMapStripFailed p 0) strip = false →
        let round (t : State) := t.rd .prfPressRounds 0 p = if s.slicesEnded p = false ∧ t.slicesEnded p =
          true
          then min 65535 (s.rd .prfPressRounds 0 p + 1) else s.rd .prfPressRounds 0 p
        (∃ t, Runs (.stripSliceDone p strip true u) s t ∧ round t ∧
          bit (t.rd .prfPressSlicePassed 0 p) strip = true ∧
          (∀ x < 17, x ≠ strip → bit (t.rd .prfPressSlicePassed 0 p) x = bit (s.rd .prfPressSlicePassed 0
            p) x) ∧
          touches [.tick, .imp, .forme, .pair, .prf, .irq, .events, .cmp, .col, .prs] [.presses, .jobs,
            .lateXfers, .drains, .links, .relays, .freeCount] s t) ∧
        ∃ t, Runs (.stripSliceDone p strip false u) s t ∧ round t ∧
          t.rd .prfPressFails 0 p = min 65535 (s.rd .prfPressFails 0 p + 1) ∧
          t.rd .prfPressLastFail 0 p = strip ∧ bit (t.rd .hPrsFailPend p 0) strip = true ∧
          t.rd .coreIrqEventsProof 0 0 = 1 ∧
          (s.stripInUse p strip = true →
            ∀ x, s.formeOfPress p = some x → abandoned x.number causeSlice s t) ∧ touches [.tick, .imp,
              .forme, .pair, .prf, .irq, .events, .cmp, .col, .prs] [.presses, .jobs, .lateXfers, .drains,
              .links, .relays, .freeCount] s t)) ∧
    (∀ x, unitOk x = true → quietly (.logicSlice x u) s ∧ quietly (.logicSliceDone x true u) s) ∧
    (∀ p, p < 12 → ∃ t, Runs (.logicSliceDone (.press p) false u) s t ∧ t.pState p = pFailed ∧
      t.rd .prfPressFails 0 p = min 65535 (s.rd .prfPressFails 0 p + 1) ∧
      (∀ x, s.formeOfPress p = some x → abandoned x.number causeSlice s t) ∧ touches [.tick, .imp, .forme,
        .pair, .pwr, .prf, .irq, .events, .cal, .cmp, .col, .prs, .oe, .lnk, .lsu] [.presses, .jobs,
        .lateXfers, .drains, .calJobs, .swaps, .spareNeeds, .links, .relays, .freeCount] s t) ∧
    (∀ c, c < 4 → s.livePartner = true → s.rd .pairStatusYieldCause 0 0 = 0 →
      ∃ t, Runs (.logicSliceDone (.chase c) false u) s t ∧ t.rd .pairStatusYieldCause 0 0 = 3 ∧
        (∀ q < 32, t.lState q = lOff) ∧ touches [.tick, .imp, .forme, .pair, .pwr, .prf, .irq, .events,
          .cal, .cmp, .col, .prs, .oe, .lnk, .lsu] [.presses, .jobs, .lateXfers, .drains, .calJobs, .swaps,
          .spareNeeds, .links, .relays, .freeCount] s t) ∧
    (∀ c, c < 4 → s.livePartner = false → ∃ t, Runs (.logicSliceDone (.chase c) false u) s t ∧
      (∀ i f, s.active = some i → f ∈ i.formes → s.onChase f c = true → s.fState f.number ≠ fNone →
        t.fState f.number = fParked) ∧ touches [.tick, .imp, .forme, .pair, .pwr, .prf, .irq, .events,
          .cal, .cmp, .col, .prs, .oe, .lnk, .lsu] [.presses, .jobs, .lateXfers, .drains, .calJobs, .swaps,
          .spareNeeds, .links, .relays, .freeCount] s t) ∧
    (∀ n, n < 16 → quietly (.coreSlice n u) s ∧ quietly (.coreSliceDone n true u) s ∧
      ∃ t, Runs (.coreSliceDone n false u) s t ∧ t.rd .coreIrqEventsCoreFail 0 0 = 1 ∧
        changes (.coreIrqEventsCoreFail :: irqFields ++ timeFields) [] s t)

/-- PENDING_FLUSH queues the map's write where entries wait and else does nothing. CLEAR_MAP is noted for the next
flash write. A stack's retraining counts a run of its record with result PASS or PASS_THIRD, free between the
two, or FAIL with one failure counted. TAP_RESET selects IDCODE and segment 0; BYPASS, IDCODE and
SAMPLE/PRELOAD are in force at any time, IDCODE with the code read out; EXTEST, CLAMP and HIGHZ are in force
only in reset or FATAL and else act as BYPASS with scan_refused; and SEGSEL takes the segments whose die has
power and reads 0 for another. (R429, R441, R442, R443, R444, R445, R446) -/
def Obligations.RepairMapAndScan : Prop :=
  ∀ (s : State) (u : Nat),
    (s.rd .prfMapUnwritten 0 0 = 0 → quietly (.pendingFlush u) s) ∧
    (s.rd .prfMapUnwritten 0 0 ≠ 0 → ∃ t, Runs (.pendingFlush u) s t ∧ t.mapWriteDue = true ∧
      (s.rd .hMapClear 0 0 = 0 → changes timeFields [.flashQ] s t) ∧ touches [.tick, .prf] [.repairMap,
        .flashQ] s t) ∧
    (∃ t, Runs .clearMap s t ∧ t.rd .hMapClear 0 0 = 1 ∧ changes [.hMapClear] [] s t) ∧
    (∀ m channel ok, m < 16 → channel < 64 →
      let i := 512 + m
      ∃ t, Runs (.stackChannelRetrain m channel ok u) s t ∧
        t.rd .calRecRuns 0 i = min (2 ^ 32 - 1) (s.rd .calRecRuns 0 i + 1) ∧
        (ok = true → (t.rd .calRecResult 0 i = 1 ∨ t.rd .calRecResult 0 i = 2) ∧
          t.rd .calRecFailures 0 i = s.rd .calRecFailures 0 i) ∧
        (ok = false → t.rd .calRecResult 0 i = 3 ∧
          t.rd .calRecFailures 0 i = min 65535 (s.rd .calRecFailures 0 i + 1)) ∧
        (∀ j, j ≠ i → t.rd .calRecResult 0 j = s.rd .calRecResult 0 j) ∧ touches [.tick, .cal] [.freeCount]
          s t) ∧
    (∃ t, Runs .tapReset s t ∧ t.rd .hTapIr 0 0 = 1 ∧ t.rd .hTapSeg 0 0 = 1 ∧ changes [.hTapIr, .hTapSeg]
      [] s t) ∧
    (∃ t, Runs .tapBypass s t ∧ t.rd .hTapIr 0 0 = 0xFF ∧ changes [.hTapIr] [] s t) ∧
    (∃ t, Runs .tapIdcode s t ∧ t.rd .hTapIr 0 0 = 1 ∧ t.out = .tap 0x1C120A4B :: s.out ∧
      changes [.hTapIr] [.out] s t) ∧
    (∃ t, Runs .tapSample s t ∧ t.rd .hTapIr 0 0 = 2 ∧ changes [.hTapIr] [] s t) ∧
    (∀ c code, (c = .tapExtest ∧ code = 3) ∨ (c = .tapClamp ∧ code = 4) ∨ (c = .tapHighz ∧ code = 5) →
      let may := s.rd .hPinReset 0 0 = 1 ∨ s.sec = zFatal
      (may → ∃ t, Runs c s t ∧ t.rd .hTapIr 0 0 = code ∧ t.rd .hTapUsed 0 0 = 1 ∧
        changes [.hTapIr, .hTapUsed] [] s t) ∧
      (¬may → ∃ t, Runs c s t ∧ t.rd .hTapIr 0 0 = 0xFF ∧ t.rd .prfMapScanRefused 0 0 = 1 ∧
        changes [.hTapIr, .prfMapScanRefused] [] s t)) ∧
    ∀ segs, ∃ t, Runs (.tapSegsel segs) s t ∧ t.rd .hTapIr 0 0 = 0x10 ∧ t.rd .hTapUsed 0 0 = 1 ∧
      (∀ n < 25, bit (t.rd .hTapSeg 0 0) n = (bit segs n && s.segPowered n)) ∧
      t.out = .tap (t.rd .hTapSeg 0 0) :: s.out ∧ changes [.hTapIr, .hTapSeg, .hTapUsed] [.out] s t

/-- LOOPBACK of a port that is OFF or ABSENT, while no test runs, by the command or by a store to PRF_CTRL, starts
the test: the port's transmit level and everything else stay, and until it ends a poll of the port does
nothing. LOOPBACK_DONE ends it with the errors and lanes passed in PRF_LOOPBACK; no lane changes state. A
LOOPBACK for a port in another state, or while a test runs, sets refused and has no other effect. (R448) -/
def Obligations.LoopbackTests : Prop :=
  ∀ (s : State) (u : Nat),
    (∀ q, q < 32 →
      let free := s.rd .prfLoopbackBusy 0 0 ≠ 1 ∧ (s.lState q = lOff ∨ s.lState q = lAbsent)
      (free → ∃ t, Runs (.loopback q u) s t ∧ t.rd .prfLoopbackBusy 0 0 = 1 ∧ t.rd .prfLoopbackPort 0 0 = q ∧
        changes (.prfLoopbackBusy :: .prfLoopbackPort :: timeFields) [] s t ∧
        (∀ k i, t.rd .oeFibreStatusLevel k i = s.rd .oeFibreStatusLevel k i)) ∧
      (s.rd .prfLoopbackBusy 0 0 = 1 → s.rd .prfLoopbackPort 0 0 = q → quietly (.poll q u) s) ∧
      (free → ∀ who ≤ 16, ∃ t, Runs (.registerWrite who 0x6008 4 (256 * q + 1)) s t ∧
        t.rd .prfLoopbackBusy 0 0 = 1 ∧ t.rd .prfLoopbackPort 0 0 = q ∧
        changes (.prfLoopbackBusy :: .prfLoopbackPort :: irqFields) [] s t) ∧
      (¬free → ∃ t, Runs (.loopback q u) s t ∧ t.rd .prfLoopbackRefused 0 0 = 1 ∧
        changes (.prfLoopbackRefused :: timeFields) [] s t)) ∧
    (∀ errors passed,
      (s.rd .prfLoopbackBusy 0 0 = 1 → ∃ t, Runs (.loopbackDone errors passed u) s t ∧
        t.rd .prfLoopbackBusy 0 0 = 0 ∧ t.rd .prfLoopbackErrors 0 0 = min 65535 errors ∧
        t.rd .prfLoopbackPassed 0 0 = passed % 1024 ∧ (∀ n i, t.lane n i = s.lane n i) ∧
        changes (.prfLoopbackBusy :: .prfLoopbackErrors :: .prfLoopbackPassed :: timeFields) [] s t) ∧
      (s.rd .prfLoopbackBusy 0 0 ≠ 1 → quietly (.loopbackDone errors passed u) s))

/-- AUX_LOSS leaves the reset state but for the flash, seated units and the partner's line. AUX_POWER_ON starts
stage 1, or ends in BOOT_FAIL with the cause that failed. STAGE_COMPLETE leads from stage 1 to AUX_ONLY with
the boot count raised and the MAC address shown, from 2 to the proof, from 3 to booting with one core running
and the others that passed halted, and from 4 to stage 5 with the image picked or to BOOT_FAIL; else it does
nothing. STAGE_TIMEOUT leads to BOOT_FAIL from stages 1, 4 and 5, to power-off from 2 and to FATAL from 3, and
else does nothing. (The cause of a timeout of stage 1 or 4 is free, log entry 1.) (R400, R431, R453, R454,
R457, R466, R470, R480, R489) -/
def Obligations.StartUpStages : Prop :=
  ∀ (s : State) (u : Nat),
    let v := s.stamp u
    let st := s.rd .hStage 0 0
    let stops (t : State) := t.sec = zPoweringOff ∧ t.rd .hPinReady 0 0 = 0 ∧ t.rd .pairStatusYielded 0 0 =
      1 ∧
      t.rd .hPwrOffStep 0 0 = 1
    let fails (cause : Nat) (t : State) := t.sec = zBootFail ∧ t.rd .secStatusFailCause 0 0 = cause ∧
      t.rd .hPinReady 0 0 = 0 ∧ bit (t.rd .secStatusAlerts 0 0) 4 = true
    (∃ t, Runs .auxLoss s t ∧ (∀ f i j, f ∉ auxFields → t.rd f i j = State.reset.rd f i j) ∧
      t.mem = State.reset.mem ∧ t.keys = s.keys ∧ t.flashMap = s.flashMap ∧ t.flashQ = [] ∧
      (s.flashQ = [] → t.images = s.images ∧ ∀ f i j, f ∈ auxFields → t.rd f i j = s.rd f i j)) ∧
    (∀ strap fail, fail ≤ 4 → ∃ t, Runs (.auxPowerOn strap fail) s t ∧ t.rd .hStrap 0 0 = strap % 64 ∧
      t.rd .pairStatusMember 0 0 = strap % 2 ∧ t.rd .secEventsResetMask 0 0 = 1 ∧ t.mem = State.reset.mem ∧
      t.keys = s.keys ∧ (fail = 0 → t.sec = zStage1 ∧ t.rd .hStage 0 0 = 1) ∧ (fail ≠ 0 → fails fail t)) ∧
    (let done := st = 1 ∨ (st = 2 ∧ s.rd .hPwrOnStep 0 0 = 4) ∨
        (st = 3 ∧ s.rd .prfResultState 0 0 = 2) ∨ st = 4;
      (¬done → quietly (.stageComplete u) s) ∧
      (done → ∃ t, Runs (.stageComplete u) s t ∧
        (st = 1 → t.sec = zAuxOnly ∧ t.rd .secCounterValue 0 3 = (s.rd .secCounterValue 0 3 + 1) % 2 ^ 64 ∧
          t.rd .hPinAuxGood 0 0 = 1 ∧ t.rd .mgtMacMac 0 0 = v.macAddress % 2 ^ 48) ∧
        (st = 2 → t.sec = zProof ∧ t.rd .hStage 0 0 = 3 ∧ t.rd .prfResultState 0 0 = 1 ∧
          t.rd .prfResultPhase 0 0 = 1) ∧
        (st = 3 → t.sec = zBooting ∧ t.rd .hStage 0 0 = 4 ∧
          ∀ n < 16, t.rd .coreStatusState 0 n = if (∃ e ∈ s.repairMap, e.type = 9 ∧ e.unit = n) then cOff
            else if s.bootCore = some n then cRun else cHalted) ∧
        (st = 4 →
          (∀ slot img, v.pickImage = some (slot, img) → t.image = img ∧ t.rd .hBootSlot 0 0 = slot + 1 ∧
            t.sec = s.sec ∧ (s.sec ≠ zBootFail → t.rd .hStage 0 0 = 5)) ∧
          (v.pickImage = none → fails 5 t)) ∧ touches [.module, .tick, .imp, .forme, .fab, .pair, .pwr,
            .thm, .prf, .sec, .core, .irq, .events, .mgt, .cal, .chs, .gal, .cmp, .col, .ddl, .gst, .prs,
            .fin, .case, .oe, .lnk, .lsu, .mem] [.mem, .presses, .active, .loaded, .pendingBytes, .jobs,
            .lateXfers, .heldAccs, .drains, .dirtyOut, .dirtyShared, .mirrorGot, .bases, .log, .calJobs,
            .calRuns, .calFails, .ringErr, .mislocks, .swaps, .spareNeeds, .arrivals, .barDone, .barSent,
            .tokens, .links, .repairMap, .ceLog, .samples, .idleDebt, .droops, .image, .snaps, .badWords,
            .relays, .early, .mgtJobs, .moe, .cache, .fades, .dropped] s t)) ∧
    (∃ t, Runs (.stageTimeout u) s t ∧
      (st = 1 → ∃ c, 1 ≤ c ∧ c ≤ 4 ∧ fails c t) ∧
      (st = 2 → s.sec ≠ zTripped → s.sec ≠ zPoweringOff → s.rd .hPwrUp 0 0 = 1 → stops t) ∧
      (st = 3 → t.sec = zFatal ∧ t.rd .prfResultState 0 0 = 3) ∧ (st = 4 → fails 5 t ∨ fails 6 t) ∧
      (st = 5 → fails 6 t) ∧ (st = 0 ∨ 5 < st → changes timeFields [] s t) ∧ touches [.module, .tick, .imp,
        .forme, .fab, .pair, .pwr, .thm, .prf, .sec, .core, .irq, .events, .mgt, .cal, .chs, .gal, .cmp,
        .col, .ddl, .gst, .prs, .fin, .case, .oe, .lnk, .lsu, .mem] [.mem, .presses, .active, .loaded,
        .pendingBytes, .jobs, .lateXfers, .heldAccs, .drains, .dirtyOut, .dirtyShared, .mirrorGot, .bases,
        .mgtLast, .log, .calJobs, .calRuns, .calFails, .ringErr, .mislocks, .swaps, .spareNeeds, .arrivals,
        .barDone, .barSent, .tokens, .links, .repairMap, .ceLog, .samples, .idleDebt, .droops, .flashQ,
        .image, .snaps, .badWords, .relays, .early, .mgtJobs, .moe, .cache, .fades, .dropped, .out,
        .freeCount] s t)

/-- T0_REACHED in AUX_ONLY with SB_RESET_N high enables the chase rails and drives SB_PAIR_YIELD_N live;
RAIL_ENABLE_STEP enables the next group, or powers off. HARDWARE_RESET does nothing more in stage 1, is
refused in TRIPPED at 70 °C or above and else clears the trip, and otherwise powers off; RESET_RELEASE takes a
module in OFF whose causes ask for restart to AUX_ONLY. RAIL_DISABLE_STEP takes the next rails off and at the
last ends in TRIPPED, OFF or AUX_ONLY by the causes. A laser over power or a missed heartbeat is recorded and
starts the shutdown unless one is in force. (R400, R426, R451, R452, R454, R455, R458, R460, R462, R504) -/
def Obligations.ResetAndPowerOff : Prop :=
  ∀ (s : State) (u : Nat),
    let stops (t : State) := t.sec = zPoweringOff ∧ t.rd .hPinReady 0 0 = 0 ∧ t.rd .pairStatusYielded 0 0 =
      1 ∧
      t.rd .hPwrOffStep 0 0 = 1
    (s.sec = zAuxOnly → s.rd .hPinReset 0 0 ≠ 1 → ∃ t, Runs (.t0Reached u) s t ∧ t.sec = zSequencing ∧
      t.rd .hPwrUp 0 0 = 1 ∧ t.rd .hStage 0 0 = 2 ∧ (∀ n, 12 ≤ n → n < 16 → t.rd .pwrRailState 0 n = 1) ∧
      t.rd .hPinYieldLive 0 0 = 1 ∧ t.rd .pairStatusYielded 0 0 = 0 ∧ touches [.tick, .pair, .pwr, .sec] []
        s t) ∧
    (s.sec ≠ zAuxOnly ∨ s.rd .hPinReset 0 0 = 1 → quietly (.t0Reached u) s) ∧
    (∀ good,
      let k := s.rd .hPwrOnStep 0 0
      (s.sec = zSequencing → k < 4 →
        (good = true → ∃ t, Runs (.railEnableStep good u) s t ∧ t.rd .hPwrOnStep 0 0 = k + 1 ∧
          (∀ n ∈ nextRails k, t.rd .pwrRailState 0 n = 1) ∧
          (∀ n, n ∉ nextRails k → t.rd .pwrRailState 0 n = s.rd .pwrRailState 0 n) ∧
          (k = 0 → t.rd .hTimeBase 0 0 = 1 ∧ t.rd .modTickTick 0 0 = 0) ∧
          changes (.hPwrOnStep :: .pwrRailState :: .hTimeBase :: timeFields) [] s t) ∧
        (good = false → s.rd .hPwrUp 0 0 = 1 → ∃ t, Runs (.railEnableStep good u) s t ∧ stops t ∧
          touches [.tick, .imp, .forme, .fab, .pair, .pwr, .sec, .core, .events, .cal, .gal, .cmp, .col,
            .ddl, .gst, .prs, .oe, .lnk, .lsu] [.presses, .jobs, .lateXfers, .drains, .mgtLast, .calJobs,
            .swaps, .spareNeeds, .links, .relays, .mgtJobs, .out, .freeCount] s t)) ∧
      (s.sec ≠ zSequencing ∨ 4 ≤ k → quietly (.railEnableStep good u) s)) ∧
    (∀ temp : Int, ∃ t, Runs (.hardwareReset temp u) s t ∧ t.rd .hPinReset 0 0 = 1 ∧
      (s.sec = zStage1 → t.sec = zStage1 ∧
        changes (.hPinReset :: .hIslandTemp :: .hIslandHot :: timeFields) [] s t) ∧
      (s.sec = zTripped → 560 ≤ temp → t.sec = zTripped ∧ t.rd .secStatusResetRefused 0 0 = 1 ∧
        bit (t.rd .secStatusAlerts 0 0) 5 = true ∧ t.rd .thmStatusTrip 0 0 = s.rd .thmStatusTrip 0 0) ∧
      (s.sec = zTripped → temp < 560 → t.sec = zOff ∧ t.rd .thmStatusTrip 0 0 = 0 ∧ t.rd .hPinTrip 0 0 = 0) ∧
      (s.sec = zPoweringOff → t.sec = zPoweringOff ∧ bit (t.rd .secEventsResetMask 0 0) 1 = true) ∧
      (s.sec ≠ zStage1 → s.sec ≠ zTripped → s.sec ≠ zPoweringOff → t.rd .secEventsResetMask 0 0 = 2 ∧
        (s.rd .hPwrUp 0 0 = 1 → stops t) ∧ (s.rd .hPwrUp 0 0 ≠ 1 → t.sec = zOff)) ∧ touches [.tick, .imp,
          .forme, .fab, .pair, .pwr, .thm, .sec, .core, .events, .cal, .gal, .cmp, .col, .ddl, .gst, .prs,
          .oe, .lnk, .lsu] [.presses, .jobs, .lateXfers, .drains, .mgtLast, .calJobs, .swaps, .spareNeeds,
          .links, .relays, .mgtJobs, .out, .freeCount] s t) ∧
    (∃ t, Runs (.resetRelease u) s t ∧ t.rd .hPinReset 0 0 = 0 ∧
      t.sec = (if s.sec = zOff ∧ s.rd .secEventsResetMask 0 0 < 8 then zAuxOnly else s.sec) ∧
      changes (.hPinReset :: .secStatusState :: timeFields) [] s t) ∧
    (let k := s.rd .hPwrOffStep 0 0;
      let m := s.rd .secEventsResetMask 0 0;
      (s.sec = zPoweringOff → k ≠ 0 → ∃ t, Runs (.railDisableStep u) s t ∧
        (∀ n ∈ offRails k, t.rd .pwrRailState 0 n = 0) ∧
        (k < 5 → t.sec = zPoweringOff ∧ t.rd .hPwrOffStep 0 0 = k + 1 ∧
          (∀ n, n ∉ offRails k → t.rd .pwrRailState 0 n = s.rd .pwrRailState 0 n) ∧ t.mem = s.mem) ∧
        (5 ≤ k → t.rd .hPwrUp 0 0 = 0 ∧ t.mem = State.reset.mem ∧ (∀ n, t.rd .pwrRailState 0 n = 0) ∧
          t.sec = if bit m 5 = true then zTripped
            else if bit m 3 = true ∨ bit m 4 = true ∨ s.rd .hPinReset 0 0 = 1 then zOff else zAuxOnly) ∧
        touches [.module, .tick, .imp, .forme, .fab, .pair, .pwr, .thm, .prf, .sec, .core, .irq, .events,
          .mgt, .cal, .chs, .gal, .cmp, .col, .ddl, .gst, .prs, .fin, .case, .oe, .lnk, .lsu, .mem] [.mem,
          .presses, .active, .loaded, .pendingBytes, .jobs, .lateXfers, .heldAccs, .drains, .dirtyOut,
          .dirtyShared, .mirrorGot, .bases, .log, .calJobs, .calRuns, .calFails, .ringErr, .mislocks,
          .swaps, .spareNeeds, .arrivals, .barDone, .barSent, .tokens, .links, .repairMap, .ceLog,
          .samples, .idleDebt, .droops, .image, .snaps, .badWords, .relays, .early, .mgtJobs, .moe, .cache,
          .fades, .dropped] s t) ∧
      (s.sec ≠ zPoweringOff ∨ k = 0 → quietly (.railDisableStep u) s)) ∧
    ∀ n, n < 160 →
      let noted (trigger : Nat) (t : State) := bit (t.rd .secEventsShutdownMask 0 0) trigger = true ∧
        (s.isShut = true → t.rd .secEventsShutdownFirst 0 0 = s.rd .secEventsShutdownFirst 0 0) ∧
        (s.isShut = false → t.rd .secEventsShutdownFirst 0 0 = trigger + 1 ∧
          bit (t.rd .secStatusAlerts 0 0) 1 = true ∧
          (s.rd .hPwrUp 0 0 = 1 → ∀ k < 8, t.rd .oeStatusShutdown k 0 = 1))
      (∃ t, Runs (.laserOverpower n u) s t ∧ noted 3 t ∧ t.rd .hOverPower 0 n = 1 ∧ touches [.tick, .imp,
        .forme, .fab, .pair, .sec, .core, .irq, .events, .cal, .gal, .cmp, .col, .ddl, .gst, .prs, .oe,
        .lnk, .lsu] [.presses, .jobs, .lateXfers, .drains, .mgtLast, .calJobs, .swaps, .spareNeeds, .links,
        .relays, .mgtJobs, .out, .freeCount] s t) ∧
      (n < 2 → ∃ t, Runs (.laserHeartbeatMiss n u) s t ∧ noted 4 t ∧ bit (t.rd .hHeartMiss 0 0) n = true ∧
        touches [.tick, .imp, .forme, .fab, .pair, .sec, .core, .irq, .events, .cal, .gal, .cmp, .col,
          .ddl, .gst, .prs, .oe, .lnk, .lsu] [.presses, .jobs, .lateXfers, .drains, .mgtLast, .calJobs,
          .swaps, .spareNeeds, .links, .relays, .mgtJobs, .out, .freeCount] s t)

/-- FLASH_WRITE_COMPLETE ends the write in progress: a counter takes the greater value, key slots, the map with
its codes as they stood when the write started or an image are written, a key request is answered, and an
image that a module in BOOT_FAIL for want of one lacked restarts it at stage 4 (log entry 28). The next write
then starts, one of the map with the map in force. A failed write leaves what the flash held, but for an
image's slot, which is left empty (log entry 27). COUNTER_WRITE_TIMEOUT fails a counter write in progress, and
refuses a switch that waited for its counter. READY ends stage 5, FW_COMMIT queues the firmware counter,
ATTEST writes the report and no other byte, and ALERT sets alert 6. (R222, R429, R438, R456, R461, R466, R467,
R469, R470, R471, R472, R494) -/
def Obligations.FlashAndSupervisor : Prop :=
  ∀ (s : State) (u : Nat),
    let v := s.stamp u
    let answered (k : Nat) (t : State) := s.rd .secReqStatusBusy 0 0 = 1 →
      t.rd .secReqStatusBusy 0 0 = 0 ∧ t.rd .secReqStatusResult 0 0 = k
    (∀ ok, s.flashQ = [] → quietly (.flashWriteComplete ok u) s) ∧
    (∀ j l, s.flashQ = j :: l →
      let next (t : State) :=
        (∀ l', l = .map :: l' → t.rd .hMapClear 0 0 = 0 ∧ (∃ c, t.flashQ = .mapOf t.repairMap c :: l') ∧
          (s.rd .hMapClear 0 0 ≠ 1 → t.repairMap = s.repairMap) ∧
          (s.rd .hMapClear 0 0 = 1 → ∀ e ∈ t.repairMap, bit e.flags 1 = true)) ∧
        (l.head? ≠ some .map → t.flashQ = l ∧ t.repairMap = s.repairMap)
      (∃ t, Runs (.flashWriteComplete true u) s t ∧
        (∀ n x, j = .counter n x → next t ∧ (n = 2 → answered 1 t) ∧
          t.rd .secCounterValue 0 n = max x (s.rd .secCounterValue 0 n) % 2 ^ 64) ∧
        (∀ ks, j = .keys ks → next t ∧ t.keys = putKeys s.keys ks ∧ answered 1 t) ∧
        (j = .map → next t) ∧
        (∀ m c, j = .mapOf m c → next t ∧ t.flashMap = m ∧ t.cache = c ∧
          t.rd .hFlashGen 0 0 = (s.rd .hFlashGen 0 0 + 1) % 2 ^ 64 ∧
          (s.rd .hTimeBase 0 0 = 1 → t.rd .prfMapGeneration 0 0 = (s.rd .hFlashGen 0 0 + 1) % 2 ^ 32 ∧
            ((∀ e ∈ s.repairMap, e ∈ m) → t.rd .prfMapUnwritten 0 0 = 0))) ∧
        (∀ slot data, j = .image slot data → t.images.get? slot = some data ∧
          (s.sec = zBootFail → s.rd .secStatusFailCause 0 0 = 5 → t.sec = zBooting ∧ t.rd .hStage 0 0 = 4) ∧
          (s.sec ≠ zBootFail ∨ s.rd .secStatusFailCause 0 0 ≠ 5 → next t ∧ t.sec = s.sec)) ∧
        touches [.module, .tick, .pair, .pwr, .prf, .sec, .core, .irq, .events, .cal, .chs, .ddl, .prs,
          .oe, .lnk, .lsu, .mem] [.presses, .calJobs, .calRuns, .swaps, .spareNeeds, .links, .repairMap,
          .flashQ, .keys, .images, .flashMap, .cache, .freeCount] s t) ∧
      ∃ t, Runs (.flashWriteComplete false u) s t ∧ next t ∧ t.keys = s.keys ∧ t.flashMap = s.flashMap ∧
        t.cache = s.cache ∧
        (∀ n, t.rd .secCounterValue 0 n = s.rd .secCounterValue 0 n) ∧
        (∀ x, j = .counter 2 x → answered 6 t) ∧ (∀ ks, j = .keys ks → answered 7 t) ∧
        (∀ m c, j = .mapOf m c → t.rd .prfMapWriteFail 0 0 = 1) ∧
        (∀ slot data, j = .image slot data → t.images.get? slot = none) ∧ touches [.module, .tick, .pair,
          .pwr, .prf, .sec, .core, .irq, .events, .cal, .chs, .ddl, .prs, .oe, .lnk, .lsu, .mem] [.presses,
          .calJobs, .calRuns, .swaps, .spareNeeds, .links, .repairMap, .flashQ, .keys, .images, .flashMap,
          .cache, .freeCount] s t) ∧
    (∀ n x l, s.flashQ = .counter n x :: l → ∃ t, Runs (.counterWriteTimeout u) s t ∧
      (l.head? ≠ some .map → t.flashQ = l) ∧ (∀ l', l = .map :: l' → ∃ c, t.flashQ = .mapOf t.repairMap c
        :: l') ∧
      (∀ m, t.rd .secCounterValue 0 m = s.rd .secCounterValue 0 m) ∧ (n = 2 → answered 6 t) ∧
      touches [.tick, .imp, .forme, .fab, .pair, .pwr, .prf, .sec, .irq, .events, .cal, .cmp, .col, .prs,
        .oe, .lnk, .lsu, .mem] [.presses, .loaded, .pendingBytes, .jobs, .lateXfers, .drains, .calJobs,
        .calRuns, .swaps, .spareNeeds, .barSent, .links, .repairMap, .flashQ, .images, .relays, .freeCount]
        s t) ∧
    ((∀ n x l, s.flashQ ≠ .counter n x :: l) →
      (s.loaded = none ∨ s.slot ≠ iCommitting → quietly (.counterWriteTimeout u) s) ∧
      ∀ i, s.loaded = some i → s.slot = iCommitting → s.rd .hImpSwitchStep 0 0 = 1 → s.unheld = [] →
        s.quiesced = true → i.rollbackVersion ≠ s.rd .secCounterValue 0 0 →
        ∃ t, Runs (.counterWriteTimeout u) s t ∧ t.slot = iRejected ∧ t.rd .hImpSwitchStep 0 0 = 0 ∧
          t.active = s.active ∧ t.loaded = none ∧ touches [.tick, .imp, .forme, .fab, .pair, .pwr, .prf,
            .sec, .irq, .events, .cal, .cmp, .col, .prs, .oe, .lnk, .lsu, .mem] [.presses, .loaded,
            .pendingBytes, .jobs, .lateXfers, .drains, .calJobs, .calRuns, .swaps, .spareNeeds, .barSent,
            .links, .repairMap, .flashQ, .images, .relays, .freeCount] s t) ∧
    (s.sec = zBooting → s.rd .hStage 0 0 = 5 → ∃ t, Runs (.secReady u) s t ∧ t.sec = zReady ∧
      t.rd .hPinReady 0 0 = 1 ∧ t.rd .hStage 0 0 = 0 ∧ touches [.tick, .sec] [] s t) ∧
    (s.sec ≠ zBooting ∨ s.rd .hStage 0 0 ≠ 5 → quietly (.secReady u) s) ∧
    (s.rd .secCounterValue 0 1 < imageVersion s.image → ∃ t, Runs (.fwCommit u) s t ∧
      FlashJob.counter 1 (imageVersion s.image) ∈ t.flashQ ∧ changes timeFields [.flashQ] s t) ∧
    (imageVersion s.image ≤ s.rd .secCounterValue 0 1 → quietly (.fwCommit u) s) ∧
    (let a := s.rd .secReqAddrAddr 0 0 / 4096 * 4096;
      ∃ t, Runs (.secAttest u) s t ∧ t.mem = (v.writeMem 0 (a + 256) (v.attestation (s.readMem 0 a 32))).mem ∧
        (s.inv = true → ∀ x, (∀ i < 2048, x ≠ s.memCell 0 (a + 256 + i)) → t.mem.get x = s.mem.get x) ∧
        changes timeFields [.mem] s t) ∧
    (∃ t, Runs .secAlert s t ∧ bit (t.rd .secStatusAlerts 0 0) 6 = true ∧
      (bit (s.rd .secStatusAlertMask 0 0) 6 = false → t.rd .hPinAlert 0 0 = 1) ∧
      changes (.secStatusAlerts :: .hPinAlert :: irqFields) [] s t)

/-- A key request is answered: busy with 8, a wrong challenge with 3, a wrong authority with 4, a wrong slot with
5, a bad signature with 2, an epoch not above the counter with 6, in that order (log entry 29), and else its
write is queued; a request of another op changes nothing. A signed command that is stale or whose signature
fails is refused, counted and answered; the others are answered with OK and do what they say: RESET and
POWER_OFF power the module off with their causes, or leave it in the end state at once without main power,
POWER_ON takes a module in OFF to AUX_ONLY while SB_RESET_N is high, and LASER_OFF is a laser trigger. Every
attempt that is heard replaces the challenge. (R452, R462, R463, R467, R468, R470, R490, R491) -/
def Obligations.KeysAndSignedCommands : Prop :=
  ∀ (s : State) (u : Nat),
    (let r := s.keyReq;
      let keyFields := .secReqStatusBusy :: .secReqStatusResult :: .hChallenge :: timeFields;
      let fate (c : Instr) (k : Nat) := ∃ t, Runs c s t ∧ t.rd .secReqStatusResult 0 0 = k ∧
        t.rd .secReqStatusBusy 0 0 = s.rd .secReqStatusBusy 0 0 ∧ changes keyFields [.freeCount] s t;
      let takes (c : Instr) (j : FlashJob) := ∃ t, Runs c s t ∧ t.rd .secReqStatusBusy 0 0 = 1 ∧
        t.rd .secReqStatusResult 0 0 = 0 ∧ j ∈ t.flashQ ∧ changes keyFields [.freeCount, .flashQ] s t;
      let judged (c : Instr) (slot : Nat) (slotOk : Bool) (next : Prop) :=
        (r.authority ≠ slot ∨ s.authorityKey slot = none → fate c 4) ∧
        ∀ key, r.authority = slot → s.authorityKey slot = some key → (slotOk = false → fate c 5) ∧
          (slotOk = true → (Config.falconVerify key r.signed r.sig = false → fate c 2) ∧
            (Config.falconVerify key r.signed r.sig = true → next));
      let self := recSigned r.record (recKey r.record) && Config.falconVerify (recKey r.record) r.signed
        r.sig;
      let free := r.slot = 4 ∧ s.keyRec 4 = none ∧ recFits 4 r.record = true ∧ leAt r.record 8 4 = 4;
      (∀ c op, (c = .keyClaim u ∧ op = 1) ∨ (c = .keyTransfer u ∧ op = 2) ∨ (c = .keyAdd u ∧ op = 3) ∨
          (c = .keyRemove u ∧ op = 4) ∨ (c = .keyEpoch u ∧ op = 5) →
        (r.op ≠ op → quietly c s) ∧ (r.op = op → s.rd .secReqStatusBusy 0 0 = 1 → fate c 8) ∧
        (r.op = op → s.rd .secReqStatusBusy 0 0 ≠ 1 → r.challenge ≠ s.rd .hChallenge 0 0 → fate c 3)) ∧
      (s.rd .secReqStatusBusy 0 0 ≠ 1 → r.challenge = s.rd .hChallenge 0 0 →
        (r.op = 1 → (¬free → fate (.keyClaim u) 5) ∧ (free → self = false → fate (.keyClaim u) 2) ∧
          (free → self = true → takes (.keyClaim u) (.keys [(4, r.record)]))) ∧
        (r.op = 2 → judged (.keyTransfer u) 4 (decide (r.slot = 4) && recFits 4 r.record)
          (takes (.keyTransfer u) (.keys ((4, r.record) :: (List.range 11).map fun i => (5 + i, []))))) ∧
        (r.op = 3 → judged (.keyAdd u) (writerOf r.slot) (recFits r.slot r.record)
          (takes (.keyAdd u) (.keys [(r.slot, r.record)]))) ∧
        (r.op = 4 → judged (.keyRemove u) (writerOf r.slot) true
          (takes (.keyRemove u) (.keys [(r.slot, [])]))) ∧
        (r.op = 5 → judged (.keyEpoch u) 4 true
          (if r.epoch ≤ s.rd .secCounterValue 0 2 then fate (.keyEpoch u) 6
            else takes (.keyEpoch u) (.counter 2 r.epoch))))) ∧
    ∀ x : SignedCmd,
      let fresh := x.challenge = s.rd .hChallenge 0 0
      (∀ c op, (c = .svReset x u ∧ op = 1) ∨ (c = .svPowerOff x u ∧ op = 2) ∨ (c = .svPowerOn x u ∧ op = 3) ∨
          (c = .svLaserOff x u ∧ op = 4) → ¬fresh ∨ s.signedOk op x = false →
        ∃ t, Runs c s t ∧ t.rd .secStatusCmdRefused 0 0 = 1 ∧
          t.rd .mgtCountsAuthRefused 0 0 = min 65535 (s.rd .mgtCountsAuthRefused 0 0 + 1) ∧
          t.out = .mgt 3 x.tag (if fresh then 3 else 4) [] [] :: s.out ∧
          changes (.secStatusCmdRefused :: .mgtCountsAuthRefused :: .hChallenge :: timeFields)
            [.out, .freeCount] s t) ∧
      (fresh → let runs := s.sec ≠ zStage1 ∧ s.sec ≠ zTripped ∧ s.sec ≠ zPoweringOff
        (s.signedOk 1 x = true → ∃ t, Runs (.svReset x u) s t ∧
          (runs → t.rd .secEventsResetMask 0 0 = 4 ∧ (s.rd .hPwrUp 0 0 = 1 → t.sec = zPoweringOff) ∧
            (s.rd .hPwrUp 0 0 ≠ 1 → t.sec = if s.rd .hPinReset 0 0 = 1 then zOff else zAuxOnly)) ∧
          touches [.tick, .imp, .forme, .fab, .pair, .pwr, .thm, .sec, .core, .irq, .events, .mgt, .cal,
            .gal, .cmp, .col, .ddl, .gst, .prs, .oe, .lnk, .lsu] [.presses, .jobs, .lateXfers, .drains,
            .mgtLast, .calJobs, .swaps, .spareNeeds, .links, .relays, .mgtJobs, .out, .freeCount] s t) ∧
        (s.signedOk 2 x = true → ∃ t, Runs (.svPowerOff x u) s t ∧
          (runs → t.rd .secEventsResetMask 0 0 = 8 ∧
            t.sec = if s.rd .hPwrUp 0 0 = 1 then zPoweringOff else zOff) ∧ touches [.tick, .imp, .forme,
              .fab, .pair, .pwr, .sec, .core, .irq, .events, .mgt, .cal, .gal, .cmp, .col, .ddl, .gst,
              .prs, .oe, .lnk, .lsu] [.presses, .jobs, .lateXfers, .drains, .mgtLast, .calJobs, .swaps,
              .spareNeeds, .links, .relays, .mgtJobs, .out, .freeCount] s t) ∧
        (s.signedOk 3 x = true → ∃ t, Runs (.svPowerOn x u) s t ∧
          t.sec = (if s.sec = zOff ∧ s.rd .hPinReset 0 0 ≠ 1 then zAuxOnly else s.sec) ∧
          t.out = .mgt 3 x.tag 0 [] [] :: s.out ∧ touches [.tick, .sec, .mgt] [.out, .freeCount] s t) ∧
        (s.signedOk 4 x = true → ∃ t, Runs (.svLaserOff x u) s t ∧
          bit (t.rd .secEventsShutdownMask 0 0) 5 = true ∧
          (s.isShut = false → t.rd .secEventsShutdownFirst 0 0 = 6 ∧
            (s.rd .hPwrUp 0 0 = 1 → ∀ k < 8, t.rd .oeStatusShutdown k 0 = 1)) ∧ touches [.tick, .imp,
              .forme, .fab, .pair, .sec, .core, .irq, .events, .mgt, .cal, .gal, .cmp, .col, .ddl, .gst,
              .prs, .oe, .lnk, .lsu] [.presses, .jobs, .lateXfers, .drains, .mgtLast, .calJobs, .swaps,
              .spareNeeds, .links, .relays, .mgtJobs, .out, .freeCount] s t))

/-- CORE_START runs a HALTED core with its copy of the group mask zero, RETIRE takes a HALTED or running core out
of service with its marks, TIMER_INTERRUPT sets the timer's pending bit by compare and time, and an access
that breaks a rule is recorded with its cause and address, while one that breaks none only clears the marks
that it overwrites. Block lock shows on the link; echo requests and solicitations of the link-local address
are answered, and a failed address detection shows (log entry 33). A message of the wrong magic, version or
length is dropped and counted; without the island's power none does anything. STATUS, CHALLENGE, CERT and
ATTEST answer with the status block, the challenge, the record or certificate, and the report, which only
READY gives. IMAGE_BEGIN opens an upload of at most 64 MiB, IMAGE_DATA appends the bytes next in order, and
IMAGE_END queues the whole image for the flash where it verifies. (R473, R475, R476, R477, R478, R480, R481,
R489, R490, R491, R493, R494) -/
def Obligations.CoresAndManagement : Prop :=
  ∀ (s : State),
    (∀ n, n < 16 →
      let st := s.rd .coreStatusState 0 n
      (∃ t, Runs (.coreStart n) s t ∧ (st = cHalted → t.rd .coreStatusState 0 n = cRun ∧
          t.rd .modGroupMaskMask 0 n = 0 ∧ (∀ m, m ≠ n → t.rd .coreStatusState 0 m = s.rd .coreStatusState
            0 m) ∧
          changes (.coreStatusState :: .modGroupMaskMask :: irqFields) [] s t) ∧
        (st ≠ cHalted → changes irqFields [] s t)) ∧
      (∃ t, Runs (.coreRetire n) s t ∧ (st = cHalted ∨ st = cRun → t.rd .coreStatusState 0 n = cRetired ∧
          t.badWords = s.badWords.filter (fun e => e.1 != n) ∧
          (∀ m, m ≠ n → t.rd .coreStatusState 0 m = s.rd .coreStatusState 0 m) ∧
          changes (.coreStatusState :: irqFields) [.badWords] s t) ∧
        (st ≠ cHalted → st ≠ cRun → changes irqFields [] s t)) ∧
      (∃ t, Runs (.timerInterrupt n) s t ∧
        t.rd .hCoreMtip 0 n = b2n (decide (s.rd .coreTimecmpCompare 0 n ≤ s.now)) ∧
        (∀ m, m ≠ n → t.rd .hCoreMtip 0 m = s.rd .hCoreMtip 0 m) ∧ changes [.hCoreMtip] [] s t) ∧
      ∀ a : CoreAcc, a.addr < 2 ^ 41 →
        (∀ k, s.accCause n a = some k → ∃ t, Runs (.coreAccessFault n a) s t ∧
          t.rd .coreFaultCause 0 n = k ∧ t.rd .coreFaultAddress 0 n = a.addr ∧
          (∀ m, m ≠ n → t.rd .coreFaultCause 0 m = s.rd .coreFaultCause 0 m) ∧
          changes [.coreFaultCause, .coreFaultAddress] [] s t) ∧
        (s.accCause n a = none → ∃ t, Runs (.coreAccessFault n a) s t ∧ changes [] [.badWords] s t ∧
          ∀ e, e ∈ t.badWords ↔ e ∈ s.badWords ∧ (a.kind ≠ .store ∨ e.1 ≠ n ∨ e.2 < a.addr ∨
            a.addr + a.size < e.2 + 8)) ∧
        (0x10010000 ≤ a.addr → a.addr < 0x100000000 → s.accCause n a = some 1) ∧
        (a.addr < ctlSize → a.kind = .amo → s.accCause n a = some 4)) ∧
    (∃ t, Runs .mgtBlockLock s t ∧ (s.islandOn = true → t.rd .mgtStatusLinkUp 0 0 = 1) ∧
      (s.islandOn = false → t = s) ∧ changes [.mgtStatusLinkUp] [] s t) ∧
    (∃ t, Runs .mgtBlockLockLost s t ∧ t.rd .mgtStatusLinkUp 0 0 = 0 ∧ changes [.mgtStatusLinkUp] [] s t) ∧
    (∀ target,
      let mine := s.islandOn = true ∧ s.sec ≠ zStage1 ∧ target = s.linkLocal ∧
        s.rd .mgtStatusAddrConflict 0 0 ≠ 1
      (mine → ∃ t, Runs (.neighbourDiscovery target) s t ∧ t.out = .advertisement target :: s.out ∧
        changes [] [.out] s t) ∧
      (¬mine → Runs (.neighbourDiscovery target) s s)) ∧
    (∀ i q d, (s.islandOn = true → ∃ t, Runs (.echoRequest i q d) s t ∧ t.out = .echoReply i q d :: s.out ∧
        changes [] [.out] s t) ∧ (s.islandOn = false → Runs (.echoRequest i q d) s s)) ∧
    (∀ failed, (s.islandOn = true → failed = true → ∃ t, Runs (.duplicateAddressDetection failed) s t ∧
        t.rd .mgtStatusAddrConflict 0 0 = 1 ∧ changes [.mgtStatusAddrConflict] [] s t) ∧
      (s.islandOn = false ∨ failed = false → Runs (.duplicateAddressDetection failed) s s)) ∧
    ∀ (h : MsgHead) (o : Option AuthTail) which slot nonce off data len,
      let head (n : Nat) := h.magic = 0x4B4C ∧ h.version = 1 ∧ h.bodyBytes = n
      let got (t : State) := t.rd .mgtCountsReceived 0 0 = min 65535 (s.rd .mgtCountsReceived 0 0 + 1)
      let ok (c : Instr) (type : Nat) (body : List Byte) := ∃ t, Runs c s t ∧
        t.out = .mgt type h.tag 0 body [] :: s.out ∧ got t ∧ changes [.mgtCountsReceived] [.out] s t
      let no (c : Instr) (type status : Nat) := ∃ t, Runs c s t ∧
        t.out = .mgt type h.tag status [] [] :: s.out ∧ changes [] [.out] s t
      (∀ c n, (c = .mgtStatus h ∧ n = 0) ∨ (c = .mgtChallenge h ∧ n = 0) ∨ (c = .mgtCert h which slot ∧ n =
        2) ∨
          (c = .mgtAttest h nonce ∧ n = 32) ∨ (c = .imageBegin h o len ∧ n = 8) ∨
          (c = .imageData h off data ∧ n = 8 + data.length) ∨ (c = .imageEnd h ∧ n = 0) →
        (s.islandOn = false → Runs c s s) ∧
        (s.islandOn = true → ¬head n → ∃ t, Runs c s t ∧
          t.rd .mgtCountsDropped 0 0 = min 65535 (s.rd .mgtCountsDropped 0 0 + 1) ∧
          changes [.mgtCountsDropped] [] s t)) ∧
      (s.islandOn = true →
        (head 0 → ok (.mgtStatus h) 0x01 s.statusBlock ∧ s.statusBlock.length = 256 ∧
          ok (.mgtChallenge h) 0x02 (natLe 8 (s.rd .hChallenge 0 0))) ∧
        (head 2 →
          (∀ r, which = 0 → slot < 16 → s.keyRec slot = some r →
            ok (.mgtCert h which slot) 0x04 (fixLen 3136 r)) ∧
          (which = 0 → slot < 16 → s.keyRec slot = none → no (.mgtCert h which slot) 0x04 7) ∧
          (which = 1 → s.image ≠ [] → ok (.mgtCert h which slot) 0x04 s.attestCert) ∧
          (which = 1 → s.image = [] → no (.mgtCert h which slot) 0x04 7) ∧
          (1 < which ∨ (which = 0 ∧ 16 ≤ slot) → no (.mgtCert h which slot) 0x04 1)) ∧
        (head 32 → (s.lemikServes = true → ok (.mgtAttest h nonce) 0x05 (s.attestation nonce)) ∧
          (s.lemikServes = false → no (.mgtAttest h nonce) 0x05 7)) ∧
        (head 8 → s.ownerValid = false →
          (len ≤ 2 ^ 26 → ∃ t, Runs (.imageBegin h o len) s t ∧ t.upload = some (len, []) ∧ got t ∧
            t.out = .mgt 0x20 h.tag 0 [] [] :: s.out ∧ changes [.mgtCountsReceived] [.upload, .out] s t) ∧
          (2 ^ 26 < len → no (.imageBegin h o len) 0x20 1)) ∧
        (head 8 → s.ownerValid = true → o = none → ∃ t, Runs (.imageBegin h o len) s t ∧
          t.rd .mgtCountsAuthRefused 0 0 = min 65535 (s.rd .mgtCountsAuthRefused 0 0 + 1) ∧
          t.out = .mgt 0x20 h.tag 3 [] [] :: s.out ∧ changes [.mgtCountsAuthRefused] [.out] s t) ∧
        (∀ a, head 8 → s.ownerValid = true → o = some a → s.authCheck 0x20 h a (natLe 8 len) = .ok →
          len ≤ 2 ^ 26 → ∃ t, Runs (.imageBegin h o len) s t ∧ t.upload = some (len, []) ∧
            t.mgtLast.get? a.slot = some (a.counter, .mgt 0x20 h.tag 0 [] []) ∧ touches [.mgt] [.mgtLast,
              .upload, .out] s t) ∧
        (head (8 + data.length) →
          (s.upload = none → no (.imageData h off data) 0x21 1) ∧
          ∀ n b, s.upload = some (n, b) →
            let next := off = b.length ∧ off + data.length ≤ n ∧ data.length ≤ 8192
            (next → ∃ t, Runs (.imageData h off data) s t ∧ t.upload = some (n, b ++ data) ∧ got t ∧
              t.out = .mgt 0x21 h.tag 0 [] [] :: s.out ∧ changes [.mgtCountsReceived] [.upload, .out] s t) ∧
            (¬next → no (.imageData h off data) 0x21 1)) ∧
        (head 0 → (s.upload = none → no (.imageEnd h) 0x22 7) ∧
          ∀ n b, s.upload = some (n, b) →
            let whole := b.length = n ∧ s.imageOk b = true
            (whole → ∃ t, Runs (.imageEnd h) s t ∧ t.upload = none ∧ got t ∧
              FlashJob.image s.uploadSlot b ∈ t.flashQ ∧ t.out = .mgt 0x22 h.tag 0 [] [] :: s.out ∧
              changes [.mgtCountsReceived] [.upload, .flashQ, .out] s t) ∧
            (¬whole → ∃ t, Runs (.imageEnd h) s t ∧ t.upload = none ∧
              t.out = .mgt 0x22 h.tag 3 [] [] :: s.out ∧ changes [] [.upload, .out] s t)))

/-- A request without the island's power does nothing, and one of the wrong magic, version or length is dropped
and counted. While Lemik does not serve, it is answered with STATE. A request whose key, signature or counter
fails is counted and refused with the status; one whose counter was the last accepted is answered with the
kept response again; one that finds 64 requests held is answered with BUSY. Of the others a malformed one is
answered with FORMAT. REG_READ and REG_WRITE answer the values read or the number written, with the mismatch
map, UNMAPPED where an offset had no register (log entry 35), and FAULT with its cause where one faulted.
MEM_READ and MEM_WRITE are accesses of the management engine: one that breaks a rule, and a read that meets an
uncorrectable error, is answered with FAULT and its cause, one that a running step, a slice held whole or a
LIMITING rail holds waits, and another is performed and answered. (R153, R154, R477, R490, R491, R492, R493) -/
def Obligations.LemikRequests : Prop :=
  ∀ (s : State) (h : MsgHead) (a : AuthTail) (off width count ch space addr len u : Nat) (vals : List Nat)
      (data : List Byte) (met : Met),
    let head (n : Nat) := h.magic = 0x4B4C ∧ h.version = 1 ∧ h.bodyBytes = n
    let reads : Instr := .regRead h a off width count
    let writes : Instr := .regWrite h a off width vals u
    let loads : Instr := .memRead h a ch space addr len met
    let stores : Instr := .memWrite h a ch space addr data
    (∀ c type n body, (c = reads ∧ type = 0x10 ∧ n = 8 ∧ body = regBody off width count) ∨
        (c = writes ∧ type = 0x11 ∧ n = 8 + width * vals.length ∧
          body = regBody off width vals.length ++ vals.flatMap (natLe width)) ∨
        (c = loads ∧ type = 0x12 ∧ n = 20 ∧ body = memBody ch space addr len) ∨
        (c = stores ∧ type = 0x13 ∧ n = 20 + data.length ∧ body = memBody ch space addr data.length ++ data) →
      (s.islandOn = false → quietly c s) ∧
      (s.islandOn = true → ¬head n → ∃ t, Runs c s t ∧
        t.rd .mgtCountsDropped 0 0 = min 65535 (s.rd .mgtCountsDropped 0 0 + 1) ∧
        changes (.mgtCountsDropped :: timeFields) [] s t) ∧
      (s.islandOn = true → head n →
        (s.lemikServes = false → ∃ t, Runs c s t ∧ t.out = .mgt type h.tag 7 [] [] :: s.out ∧
          changes timeFields [.out] s t) ∧
        (s.lemikServes = true →
          (∀ k, s.authCheck type h a body = .refused k → ∃ t, Runs c s t ∧
            (∃ tail, t.out = .mgt type h.tag k [] tail :: s.out) ∧
            t.rd .mgtCountsAuthRefused 0 0 = min 65535 (s.rd .mgtCountsAuthRefused 0 0 + 1) ∧
            changes (.mgtCountsAuthRefused :: timeFields) [.out] s t) ∧
          (s.authCheck type h a body = .again → ∃ t, Runs c s t ∧
            (∀ r, s.mgtLast.get? a.slot = some (a.counter, r) → t.out = r :: s.out) ∧
            changes timeFields [.out] s t) ∧
          (s.authCheck type h a body = .ok → 64 ≤ s.mgtHeld → ∃ t, Runs c s t ∧
            (∃ tail, t.out = .mgt type h.tag 6 [] tail :: s.out) ∧
            t.rd .mgtCountsBusy 0 0 = min 65535 (s.rd .mgtCountsBusy 0 0 + 1) ∧
            changes (.mgtCountsBusy :: timeFields) [.out] s t)))) ∧
    (s.islandOn = true → s.lemikServes = true → s.mgtHeld < 64 →
      let v := s.received
      let got (t : State) := t.rd .mgtCountsReceived 0 0 = min 65535 (s.rd .mgtCountsReceived 0 0 + 1)
      let tells (type status : Nat) (body : List Byte) (before : List Out) (t : State) := got t ∧
        (∃ tail, t.out = .mgt type h.tag status body tail :: before)
      let kept (t : State) := t.mgtLast.get? a.slot = t.out.head?.map fun x => (a.counter, x)
      (head 8 → s.authCheck 0x10 h a (regBody off width count) = .ok →
        let r := v.regReads off width 0 ⟨[], 0, false, 0⟩ count
        ∃ t, Runs reads s t ∧ kept t ∧
          (regForm width count = false → tells 0x10 1 [] s.out t) ∧
          (regForm width count = true → r.1.cause ≠ 0 → tells 0x10 5 (natLe 1 r.1.cause) s.out t) ∧
          (regForm width count = true → r.1.cause = 0 → r.1.vals.length = count ∧
            tells 0x10 (if r.1.unm then 8 else 0) (r.1.vals.flatMap (natLe width) ++ natLe 8 r.1.mism)
              s.out t) ∧ touches [.module, .core, .mgt] [.mgtLast, .snaps, .out] s t) ∧
      (head (8 + width * vals.length) →
        s.authCheck 0x11 h a (regBody off width vals.length ++ vals.flatMap (natLe width)) = .ok →
        let w := (s.stamp u).received
        let r := w.regWrites off width 0 u ⟨[], 0, false, 0⟩ vals
        ∃ t, Runs writes s t ∧
          (regForm width vals.length = false → tells 0x11 1 [] s.out t ∧ t.mem = s.mem) ∧
          (regForm width vals.length = true → r.1.cause = 0 →
            (∃ tail, t.out = .mgt 0x11 h.tag (if r.1.unm then 8 else 0) (natLe 4 vals.length) tail ::
              r.2.out) ∧
            ∀ f i j, t.rd f i j = r.2.rd f i j) ∧
          (regForm width vals.length = true → r.1.cause ≠ 0 →
            ∃ tail, t.out = .mgt 0x11 h.tag 5 (natLe 1 r.1.cause ++ natLe 4 r.1.vals.length) tail ::
              r.2.out) ∧
          touches [.module, .tick, .imp, .forme, .fab, .pair, .pwr, .thm, .prf, .sec, .core, .irq, .events,
            .mgt, .cal, .chs, .gal, .cmp, .col, .ddl, .gst, .prs, .fin, .case, .oe, .lnk, .lsu, .mem]
            [.mem, .presses, .loaded, .pendingBytes, .jobs, .lateXfers, .drains, .mgtLast, .calJobs,
            .calRuns, .swaps, .spareNeeds, .barSent, .links, .repairMap, .flashQ, .badWords, .relays, .out,
            .freeCount] s t) ∧
      (head 20 → s.authCheck 0x12 h a (memBody ch space addr len) = .ok →
        let x : Access := ⟨ch, decide (space = 1), addr, len, none, met, .mgt 0x12 h.tag a.slot a.counter⟩
        ∃ t, Runs loads s t ∧ got t ∧ t.mem = s.mem ∧
          (memForm ch space addr len = false → tells 0x12 1 [] s.out t) ∧
          (memForm ch space addr len = true →
            (v.judge x = .go → met.ue = false → ∃ before,
              tells 0x12 0 (if space = 1 then s.readGal ch addr len else s.readMem ch addr len) before t) ∧
            (v.judge x = .go → met.ue = false → met.ce = [] →
              tells 0x12 0 (if space = 1 then s.readGal ch addr len else s.readMem ch addr len) s.out t) ∧
            (v.judge x = .go → met.ue = true → ∃ before, tells 0x12 5 (natLe 1 3) before t) ∧
            (∀ k, v.judge x = .fault k → tells 0x12 5 (natLe 1 k) s.out t) ∧
            (∀ f, v.judge x = .hold f → t.heldAccs = s.heldAccs ++ [⟨f, x⟩] ∧ t.out = s.out)) ∧
          touches [.prf, .core, .mgt, .gal, .gst, .mem] [.mem, .heldAccs, .dirtyShared, .mgtLast, .links,
            .repairMap, .ceLog, .mgtJobs, .dropped, .out, .freeCount] s t) ∧
      (head (20 + data.length) → s.authCheck 0x13 h a (memBody ch space addr data.length ++ data) = .ok →
        let x : Access := ⟨ch, decide (space = 1), addr, data.length, some data, ⟨[], false⟩,
          .mgt 0x13 h.tag a.slot a.counter⟩
        let form := memForm ch space addr data.length
        ∃ t, Runs stores s t ∧ got t ∧
          (form = false → tells 0x13 1 [] s.out t ∧ t.mem = s.mem) ∧
          (form = true →
            (v.judge x = .go → tells 0x13 0 [] s.out t ∧ t.mem = (if space = 1 then v.writeGal ch addr data
              else v.writeMem ch addr data).mem) ∧
            (∀ k, v.judge x = .fault k → tells 0x13 5 (natLe 1 k) s.out t ∧ t.mem = s.mem) ∧
            (∀ f, v.judge x = .hold f → t.heldAccs = s.heldAccs ++ [⟨f, x⟩] ∧ t.out = s.out ∧
              t.mem = s.mem)) ∧ touches [.prf, .core, .mgt, .gal, .gst, .mem] [.mem, .heldAccs,
                .dirtyShared, .mgtLast, .links, .repairMap, .ceLog, .mgtJobs, .dropped, .out, .freeCount] s
                t))

/-- A load or store of a core or of the management engine that names no register, by any of the five commands that
can make one: a load returns zero to its requester; the access counts; the first since the flag was clear is
recorded with its requester, direction and offset and sets the flag; and nothing else changes but that a load
ends the requester's snapshot. UNMAPPED_ACCESS of an address that is mapped is no unmapped access and changes
nothing. (R12) -/
def Obligations.UnmappedAccesses : Prop :=
  ∀ (s : State) (who a size value u : Nat), who ≤ 16 → a < ctlSize →
    let noted (store : Bool) (t : State) := t.rd .modUnmappedUnmapped 0 0 = 1 ∧
      t.rd .modUnmappedCount 0 0 = min 65535 (s.rd .modUnmappedCount 0 0 + 1) ∧
      (s.rd .modUnmappedUnmapped 0 0 ≠ 1 → t.rd .modUnmappedSource 0 0 = who ∧
        t.rd .modUnmappedWrite 0 0 = b2n store ∧ t.rd .modUnmappedOffset 0 0 = a) ∧
      (s.rd .modUnmappedUnmapped 0 0 = 1 →
        t.rd .modUnmappedSource 0 0 = s.rd .modUnmappedSource 0 0 ∧
        t.rd .modUnmappedWrite 0 0 = s.rd .modUnmappedWrite 0 0 ∧
        t.rd .modUnmappedOffset 0 0 = s.rd .modUnmappedOffset 0 0) ∧
      changes (.modUnmappedUnmapped :: .modUnmappedCount :: .modUnmappedSource :: .modUnmappedWrite ::
        .modUnmappedOffset :: timeFields) [.snaps, .out] s t
    (s.reach who a = [] →
      (∀ c store, (c = .unmappedAccess who a store) ∨ (formOk a size = true ∧
          ((c = .snapshotRead who a size ∧ store = false) ∨ (c = .groupRead who a size ∧ store = false) ∨
            (c = .groupWrite who a size value u ∧ store = true) ∨
            (c = .registerWrite who a size value ∧ store = true))) →
        ∃ t, Runs c s t ∧ noted store t ∧
          (store = false → t.out = .regValue who a 0 :: s.out ∧ t.snaps = s.snaps.del who) ∧
          (store = true → t.out = s.out ∧ t.snaps = s.snaps))) ∧
    (s.reach who a ≠ [] → ∀ store, Runs (.unmappedAccess who a store) s s)

/-- A store to address 0x10 sets the copy of its requester and no other, and a load there returns the requester's
own. Every copy is zero at reset, after a power-off sequence of a hardware reset, and of a core that enters
RUN by START. A group access under a mask of zero reaches nothing, and no address of the group or the
broadcast aperture reaches MOD_GROUP_MASK. (R505) -/
def Obligations.GroupMaskCopies : Prop :=
  ∀ (s : State) (who u : Nat), who ≤ 16 →
    (∀ size value, size = 4 ∨ size = 8 →
      (∃ t, Runs (.registerWrite who 0x10 size value) s t ∧ t.rd .modGroupMaskMask 0 who = value % 65536 ∧
        (∀ x, x ≠ who → t.rd .modGroupMaskMask 0 x = s.rd .modGroupMaskMask 0 x) ∧
        changes (.modGroupMaskMask :: irqFields) [] s t) ∧
      ∃ t, Runs (.snapshotRead who 0x10 size) s t ∧
        t.out = .regValue who 0x10 (s.rd .modGroupMaskMask 0 who % 2 ^ (8 * size)) :: s.out ∧
        changes [] [.snaps, .out] s t) ∧
    State.reset.rd .modGroupMaskMask 0 who = 0 ∧
    (s.sec = zPoweringOff → 5 ≤ s.rd .hPwrOffStep 0 0 → ∃ t, Runs (.railDisableStep u) s t ∧
      t.rd .modGroupMaskMask 0 who = 0) ∧
    (who < 16 → s.rd .coreStatusState 0 who = cHalted → ∃ t, Runs (.coreStart who) s t ∧
      t.rd .coreStatusState 0 who = cRun ∧ t.rd .modGroupMaskMask 0 who = 0) ∧
    (s.rd .modGroupMaskMask 0 who = 0 → ∀ a, 0xE000000 ≤ a → a < 0xF000000 → s.reach who a = []) ∧
    ∀ a, 0xE000000 ≤ a → ∀ h ∈ s.reach who a, h.reg ≠ .modGroupMask

/-- An access of a form that control space does not accept is a fault of the core with cause FORM and has no other
effect. A load of a register by its single address returns the half that it names, live, or the snapshot that
the load of the lower half just before it left; a unit without power reads its reset value, and a store to it
does nothing but deliver interrupts. A group or broadcast load returns the lowest member's value and sets the
requester's mismatch where a member's differs. A store to a register whose fields are all read-only changes
nothing; one to CORE_TIMECMP sets the compare and the timer's pending bit; one to PWR_CTRL takes at most 2,800
W; one to MOD_UNMAPPED with bit 63 clears the flag alone, and leaves it set where an event of this galley
cycle set it (R13); and a broadcast store of 0x7F to FIN_NUM_FLAGS clears the seven flags of every powered
press and no other's, but for a flag set in this galley cycle. (R10, R13, R409, R476, R477, R481, R486, R487,
R499, R502, R503, R506) -/
def Obligations.RegisterAccesses : Prop :=
  ∀ (s : State) (who a size value u : Nat), who ≤ 16 → a < ctlSize →
    let live (h : Hit) := halfOf h.byte size (s.regVal who h)
    let wide (h : Hit) := h.reg.info.width = 128 ∧ size = 4
    let missed (t : State) : Nat := if who < 16 then t.rd .coreStatusMismatch 0 who
      else t.rd .mgtStatusMismatch 0 0
    (∀ c, c = .snapshotRead who a size ∨ c = .groupRead who a size ∨ c = .groupWrite who a size value u ∨
        c = .registerWrite who a size value →
      formOk a size = false ∨ (∃ h l, s.reach who a = h :: l ∧ wide h) →
      ∃ t, Runs c s t ∧ (who < 16 → t.rd .coreFaultCause 0 who = 4 ∧ t.rd .coreFaultAddress 0 who = a) ∧
        (who = 16 → changes timeFields [] s t) ∧
        changes (.coreFaultCause :: .coreFaultAddress :: timeFields) [] s t) ∧
    (∀ h, isAperture a = false → s.reach who a = [h] → formOk a size = true → ¬wide h →
      (∃ t, Runs (.snapshotRead who a size) s t ∧
        (∀ x, h.byte ≠ 0 → s.snaps.get? who = some (a, x) → t.out = .regValue who a x :: s.out) ∧
        (h.byte = 0 ∨ (∀ x, s.snaps.get? who ≠ some (a, x)) →
          (s.readable h = true → t.out = .regValue who a (live h) :: s.out) ∧
          (s.readable h = false → t.out = .regValue who a (halfOf h.byte size h.resetVal) :: s.out)) ∧
        (h.byte = 0 → 8 * size < h.reg.info.width → s.readable h = true →
          t.snaps.get? who = some (a + size, halfOf size size (s.regVal who h))) ∧
        (h.byte ≠ 0 ∨ h.reg.info.width ≤ 8 * size → t.snaps.get? who = none) ∧
        changes [] [.snaps, .out] s t) ∧
      (s.readable h = false ∨ s.powered h = false ∨ (∀ x ∈ h.reg.info.slots, x.field.spec.acc = .ro) →
        ∃ t, Runs (.registerWrite who a size value) s t ∧ changes irqFields [] s t)) ∧
    (∀ h l, isAperture a = true → s.reach who a = h :: l → formOk a size = true → ¬wide h →
      h.byte = 0 ∨ s.snaps.get? who = none → h.reg.info.width ≠ 128 →
      let differs := ∃ x ∈ l, live x ≠ live h
      ∃ t, Runs (.groupRead who a size) s t ∧ t.out = .regValue who a (live h) :: s.out ∧
        (differs → missed t = 1) ∧ (¬differs → missed t = missed s) ∧
        changes [.coreStatusMismatch, .mgtStatusMismatch] [.snaps, .out] s t) ∧
    (∀ n, n < 16 → ∃ t, Runs (.registerWrite who (0x8018 + 0x40 * n) 8 value) s t ∧
      t.rd .coreTimecmpCompare 0 n = value % 2 ^ 64 ∧
      t.rd .hCoreMtip 0 n = b2n (decide (value % 2 ^ 64 ≤ s.now)) ∧
      (∀ m, m ≠ n → t.rd .coreTimecmpCompare 0 m = s.rd .coreTimecmpCompare 0 m) ∧
      changes (.coreTimecmpCompare :: .hCoreMtip :: irqFields) [] s t) ∧
    (∃ t, Runs (.registerWrite who 0x4000 4 value) s t ∧ t.rd .pwrCtrlCap 0 0 = min 2800 (value % 4096) ∧
      t.rd .pwrCtrlFixed 0 0 = bitsAt value 31 1 ∧
      changes (.pwrCtrlCap :: .pwrCtrlBoost :: .pwrCtrlFixedPoint :: .pwrCtrlFixed :: irqFields) [] s t) ∧
    (∃ t, Runs (.registerWrite who 0x18 8 value) s t ∧
      (s.rd .modUnmappedUnmapped 0 0 = 1 → t.rd .modUnmappedUnmapped 0 0 =
        if (s.prev.get? ⟨.modUnmappedUnmapped, 0, 0⟩).getD 0 = 1 then 1 - bitsAt value 63 1 else 1) ∧
      changes (.modUnmappedUnmapped :: irqFields) [] s t) ∧
    let flags : List Field := [.finNumFlagsNanIn, .finNumFlagsNanMade, .finNumFlagsNavBlock,
      .finNumFlagsA56Overflow, .finNumFlagsSaturated, .finNumFlagsUnderflow, .finNumFlagsBf16Truncated]
    ∃ t, Runs (.groupWrite who 0xF104100 4 0x7F u) s t ∧
      (∀ f ∈ flags, ∀ p < 12, s.rd f p 0 ≤ 1 →
        t.rd f p 0 = if s.powered ⟨.finNumFlags, p, 0, 0⟩ = true ∧
          ((s.stamp u).prev.get? ⟨f, p, 0⟩).getD 0 = 1 then 0 else s.rd f p 0) ∧
      changes (.modUnmappedUnmapped :: .modUnmappedCount :: .modUnmappedSource :: .modUnmappedWrite ::
        .modUnmappedOffset :: flags ++ irqFields ++ timeFields) [] s t

/-- MOD_ID reads 0x0000_0001_3231_4B48 at reset, PWR_CTRL 0x1000_0A28, every CORE_TIMECMP and every GAL_PHASE_MAP
all ones, every OE_CAL_CTRL 0x0000_000C, every OE_FIBRE_STATUS 0x0000_0F00_0000_03FF, every OE_MON 0x8000 in
its four quarters, every OE_SRC_MON 0x8000_8000, every OE_ROUTE 0x3F00, and every other register of every unit
0. (PRS_ISTORE is left out: the index gives no reset value for what it shows.) (R10, R503, R507) -/
def Obligations.ResetValues : Prop :=
  ∀ (r : RegName) (inst elem who : Nat), r ≠ .prsIstore →
    State.reset.regVal who ⟨r, inst, elem, 0⟩ =
      match r with
      | .modId => 0x0000000132314B48
      | .pwrCtrl => 0x10000A28
      | .coreTimecmp => 0xFFFFFFFFFFFFFFFF
      | .galPhaseMap => 0xFFFFFFFFFFFFFFFF
      | .oeCalCtrl => 0x0000000C
      | .oeFibreStatus => 0x00000F00000003FF
      | .oeMon => 0x8000800080008000
      | .oeSrcMon => 0x80008000
      | .oeRoute => 0x3F00
      | _ => 0
end

