-- ==== Sys2Proof/Laws/State.lean ====
section
/-!
SUPPORT. What the elementary updates of the state leave alone: one lemma for each field and update.
-/

namespace Sys2Proof.Machine

variable (s : State)

/-! ### wr -/

@[simp] theorem State.wr_mem (f : Field) (i j v : Nat) : (s.wr f i j v).mem = s.mem := rfl
@[simp] theorem State.wr_presses (f : Field) (i j v : Nat) : (s.wr f i j v).presses = s.presses := rfl
@[simp] theorem State.wr_active (f : Field) (i j v : Nat) : (s.wr f i j v).active = s.active := rfl
@[simp] theorem State.wr_loaded (f : Field) (i j v : Nat) : (s.wr f i j v).loaded = s.loaded := rfl
@[simp] theorem State.wr_pendingBytes (f : Field) (i j v : Nat) : (s.wr f i j v).pendingBytes = s.pendingBytes := rfl
@[simp] theorem State.wr_jobs (f : Field) (i j v : Nat) : (s.wr f i j v).jobs = s.jobs := rfl
@[simp] theorem State.wr_lateXfers (f : Field) (i j v : Nat) : (s.wr f i j v).lateXfers = s.lateXfers := rfl
@[simp] theorem State.wr_heldAccs (f : Field) (i j v : Nat) : (s.wr f i j v).heldAccs = s.heldAccs := rfl
@[simp] theorem State.wr_drains (f : Field) (i j v : Nat) : (s.wr f i j v).drains = s.drains := rfl
@[simp] theorem State.wr_dirtyOut (f : Field) (i j v : Nat) : (s.wr f i j v).dirtyOut = s.dirtyOut := rfl
@[simp] theorem State.wr_dirtyShared (f : Field) (i j v : Nat) : (s.wr f i j v).dirtyShared = s.dirtyShared := rfl
@[simp] theorem State.wr_mirrorGot (f : Field) (i j v : Nat) : (s.wr f i j v).mirrorGot = s.mirrorGot := rfl
@[simp] theorem State.wr_bases (f : Field) (i j v : Nat) : (s.wr f i j v).bases = s.bases := rfl
@[simp] theorem State.wr_mgtLast (f : Field) (i j v : Nat) : (s.wr f i j v).mgtLast = s.mgtLast := rfl
@[simp] theorem State.wr_log (f : Field) (i j v : Nat) : (s.wr f i j v).log = s.log := rfl
@[simp] theorem State.wr_calJobs (f : Field) (i j v : Nat) : (s.wr f i j v).calJobs = s.calJobs := rfl
@[simp] theorem State.wr_calRuns (f : Field) (i j v : Nat) : (s.wr f i j v).calRuns = s.calRuns := rfl
@[simp] theorem State.wr_calFails (f : Field) (i j v : Nat) : (s.wr f i j v).calFails = s.calFails := rfl
@[simp] theorem State.wr_ringErr (f : Field) (i j v : Nat) : (s.wr f i j v).ringErr = s.ringErr := rfl
@[simp] theorem State.wr_mislocks (f : Field) (i j v : Nat) : (s.wr f i j v).mislocks = s.mislocks := rfl
@[simp] theorem State.wr_swaps (f : Field) (i j v : Nat) : (s.wr f i j v).swaps = s.swaps := rfl
@[simp] theorem State.wr_spareNeeds (f : Field) (i j v : Nat) : (s.wr f i j v).spareNeeds = s.spareNeeds := rfl
@[simp] theorem State.wr_arrivals (f : Field) (i j v : Nat) : (s.wr f i j v).arrivals = s.arrivals := rfl
@[simp] theorem State.wr_barDone (f : Field) (i j v : Nat) : (s.wr f i j v).barDone = s.barDone := rfl
@[simp] theorem State.wr_barSent (f : Field) (i j v : Nat) : (s.wr f i j v).barSent = s.barSent := rfl
@[simp] theorem State.wr_tokens (f : Field) (i j v : Nat) : (s.wr f i j v).tokens = s.tokens := rfl
@[simp] theorem State.wr_links (f : Field) (i j v : Nat) : (s.wr f i j v).links = s.links := rfl
@[simp] theorem State.wr_repairMap (f : Field) (i j v : Nat) : (s.wr f i j v).repairMap = s.repairMap := rfl
@[simp] theorem State.wr_ceLog (f : Field) (i j v : Nat) : (s.wr f i j v).ceLog = s.ceLog := rfl
@[simp] theorem State.wr_samples (f : Field) (i j v : Nat) : (s.wr f i j v).samples = s.samples := rfl
@[simp] theorem State.wr_idleDebt (f : Field) (i j v : Nat) : (s.wr f i j v).idleDebt = s.idleDebt := rfl
@[simp] theorem State.wr_droops (f : Field) (i j v : Nat) : (s.wr f i j v).droops = s.droops := rfl
@[simp] theorem State.wr_flashQ (f : Field) (i j v : Nat) : (s.wr f i j v).flashQ = s.flashQ := rfl
@[simp] theorem State.wr_keys (f : Field) (i j v : Nat) : (s.wr f i j v).keys = s.keys := rfl
@[simp] theorem State.wr_images (f : Field) (i j v : Nat) : (s.wr f i j v).images = s.images := rfl
@[simp] theorem State.wr_flashMap (f : Field) (i j v : Nat) : (s.wr f i j v).flashMap = s.flashMap := rfl
@[simp] theorem State.wr_image (f : Field) (i j v : Nat) : (s.wr f i j v).image = s.image := rfl
@[simp] theorem State.wr_upload (f : Field) (i j v : Nat) : (s.wr f i j v).upload = s.upload := rfl
@[simp] theorem State.wr_snaps (f : Field) (i j v : Nat) : (s.wr f i j v).snaps = s.snaps := rfl
@[simp] theorem State.wr_badWords (f : Field) (i j v : Nat) : (s.wr f i j v).badWords = s.badWords := rfl
@[simp] theorem State.wr_relays (f : Field) (i j v : Nat) : (s.wr f i j v).relays = s.relays := rfl
@[simp] theorem State.wr_early (f : Field) (i j v : Nat) : (s.wr f i j v).early = s.early := rfl
@[simp] theorem State.wr_mgtJobs (f : Field) (i j v : Nat) : (s.wr f i j v).mgtJobs = s.mgtJobs := rfl
@[simp] theorem State.wr_moe (f : Field) (i j v : Nat) : (s.wr f i j v).moe = s.moe := rfl
@[simp] theorem State.wr_cache (f : Field) (i j v : Nat) : (s.wr f i j v).cache = s.cache := rfl
@[simp] theorem State.wr_fades (f : Field) (i j v : Nat) : (s.wr f i j v).fades = s.fades := rfl
@[simp] theorem State.wr_dropped (f : Field) (i j v : Nat) : (s.wr f i j v).dropped = s.dropped := rfl
@[simp] theorem State.wr_out (f : Field) (i j v : Nat) : (s.wr f i j v).out = s.out := rfl
@[simp] theorem State.wr_freeCount (f : Field) (i j v : Nat) : (s.wr f i j v).freeCount = s.freeCount := rfl
@[simp] theorem State.wr_pending (f : Field) (i j v : Nat) : (s.wr f i j v).pending = s.pending := rfl

/-! ### clr -/

@[simp] theorem State.clr_mem (f : Field) (i j : Nat) : (s.clr f i j).mem = s.mem := rfl
@[simp] theorem State.clr_presses (f : Field) (i j : Nat) : (s.clr f i j).presses = s.presses := rfl
@[simp] theorem State.clr_active (f : Field) (i j : Nat) : (s.clr f i j).active = s.active := rfl
@[simp] theorem State.clr_loaded (f : Field) (i j : Nat) : (s.clr f i j).loaded = s.loaded := rfl
@[simp] theorem State.clr_pendingBytes (f : Field) (i j : Nat) : (s.clr f i j).pendingBytes = s.pendingBytes := rfl
@[simp] theorem State.clr_jobs (f : Field) (i j : Nat) : (s.clr f i j).jobs = s.jobs := rfl
@[simp] theorem State.clr_lateXfers (f : Field) (i j : Nat) : (s.clr f i j).lateXfers = s.lateXfers := rfl
@[simp] theorem State.clr_heldAccs (f : Field) (i j : Nat) : (s.clr f i j).heldAccs = s.heldAccs := rfl
@[simp] theorem State.clr_drains (f : Field) (i j : Nat) : (s.clr f i j).drains = s.drains := rfl
@[simp] theorem State.clr_dirtyOut (f : Field) (i j : Nat) : (s.clr f i j).dirtyOut = s.dirtyOut := rfl
@[simp] theorem State.clr_dirtyShared (f : Field) (i j : Nat) : (s.clr f i j).dirtyShared = s.dirtyShared := rfl
@[simp] theorem State.clr_mirrorGot (f : Field) (i j : Nat) : (s.clr f i j).mirrorGot = s.mirrorGot := rfl
@[simp] theorem State.clr_bases (f : Field) (i j : Nat) : (s.clr f i j).bases = s.bases := rfl
@[simp] theorem State.clr_mgtLast (f : Field) (i j : Nat) : (s.clr f i j).mgtLast = s.mgtLast := rfl
@[simp] theorem State.clr_log (f : Field) (i j : Nat) : (s.clr f i j).log = s.log := rfl
@[simp] theorem State.clr_calJobs (f : Field) (i j : Nat) : (s.clr f i j).calJobs = s.calJobs := rfl
@[simp] theorem State.clr_calRuns (f : Field) (i j : Nat) : (s.clr f i j).calRuns = s.calRuns := rfl
@[simp] theorem State.clr_calFails (f : Field) (i j : Nat) : (s.clr f i j).calFails = s.calFails := rfl
@[simp] theorem State.clr_ringErr (f : Field) (i j : Nat) : (s.clr f i j).ringErr = s.ringErr := rfl
@[simp] theorem State.clr_mislocks (f : Field) (i j : Nat) : (s.clr f i j).mislocks = s.mislocks := rfl
@[simp] theorem State.clr_swaps (f : Field) (i j : Nat) : (s.clr f i j).swaps = s.swaps := rfl
@[simp] theorem State.clr_spareNeeds (f : Field) (i j : Nat) : (s.clr f i j).spareNeeds = s.spareNeeds := rfl
@[simp] theorem State.clr_arrivals (f : Field) (i j : Nat) : (s.clr f i j).arrivals = s.arrivals := rfl
@[simp] theorem State.clr_barDone (f : Field) (i j : Nat) : (s.clr f i j).barDone = s.barDone := rfl
@[simp] theorem State.clr_barSent (f : Field) (i j : Nat) : (s.clr f i j).barSent = s.barSent := rfl
@[simp] theorem State.clr_tokens (f : Field) (i j : Nat) : (s.clr f i j).tokens = s.tokens := rfl
@[simp] theorem State.clr_links (f : Field) (i j : Nat) : (s.clr f i j).links = s.links := rfl
@[simp] theorem State.clr_repairMap (f : Field) (i j : Nat) : (s.clr f i j).repairMap = s.repairMap := rfl
@[simp] theorem State.clr_ceLog (f : Field) (i j : Nat) : (s.clr f i j).ceLog = s.ceLog := rfl
@[simp] theorem State.clr_samples (f : Field) (i j : Nat) : (s.clr f i j).samples = s.samples := rfl
@[simp] theorem State.clr_idleDebt (f : Field) (i j : Nat) : (s.clr f i j).idleDebt = s.idleDebt := rfl
@[simp] theorem State.clr_droops (f : Field) (i j : Nat) : (s.clr f i j).droops = s.droops := rfl
@[simp] theorem State.clr_flashQ (f : Field) (i j : Nat) : (s.clr f i j).flashQ = s.flashQ := rfl
@[simp] theorem State.clr_keys (f : Field) (i j : Nat) : (s.clr f i j).keys = s.keys := rfl
@[simp] theorem State.clr_images (f : Field) (i j : Nat) : (s.clr f i j).images = s.images := rfl
@[simp] theorem State.clr_flashMap (f : Field) (i j : Nat) : (s.clr f i j).flashMap = s.flashMap := rfl
@[simp] theorem State.clr_image (f : Field) (i j : Nat) : (s.clr f i j).image = s.image := rfl
@[simp] theorem State.clr_upload (f : Field) (i j : Nat) : (s.clr f i j).upload = s.upload := rfl
@[simp] theorem State.clr_snaps (f : Field) (i j : Nat) : (s.clr f i j).snaps = s.snaps := rfl
@[simp] theorem State.clr_badWords (f : Field) (i j : Nat) : (s.clr f i j).badWords = s.badWords := rfl
@[simp] theorem State.clr_prev (f : Field) (i j : Nat) : (s.clr f i j).prev = s.prev := rfl
@[simp] theorem State.clr_relays (f : Field) (i j : Nat) : (s.clr f i j).relays = s.relays := rfl
@[simp] theorem State.clr_early (f : Field) (i j : Nat) : (s.clr f i j).early = s.early := rfl
@[simp] theorem State.clr_mgtJobs (f : Field) (i j : Nat) : (s.clr f i j).mgtJobs = s.mgtJobs := rfl
@[simp] theorem State.clr_moe (f : Field) (i j : Nat) : (s.clr f i j).moe = s.moe := rfl
@[simp] theorem State.clr_cache (f : Field) (i j : Nat) : (s.clr f i j).cache = s.cache := rfl
@[simp] theorem State.clr_fades (f : Field) (i j : Nat) : (s.clr f i j).fades = s.fades := rfl
@[simp] theorem State.clr_dropped (f : Field) (i j : Nat) : (s.clr f i j).dropped = s.dropped := rfl
@[simp] theorem State.clr_out (f : Field) (i j : Nat) : (s.clr f i j).out = s.out := rfl
@[simp] theorem State.clr_freeCount (f : Field) (i j : Nat) : (s.clr f i j).freeCount = s.freeCount := rfl
@[simp] theorem State.clr_pending (f : Field) (i j : Nat) : (s.clr f i j).pending = s.pending := rfl

/-! ### setPress -/

@[simp] theorem State.setPress_regs (p : Nat) (x : Press) : (s.setPress p x).regs = s.regs := rfl
@[simp] theorem State.setPress_mem (p : Nat) (x : Press) : (s.setPress p x).mem = s.mem := rfl
@[simp] theorem State.setPress_active (p : Nat) (x : Press) : (s.setPress p x).active = s.active := rfl
@[simp] theorem State.setPress_loaded (p : Nat) (x : Press) : (s.setPress p x).loaded = s.loaded := rfl
@[simp] theorem State.setPress_pendingBytes (p : Nat) (x : Press) : (s.setPress p x).pendingBytes = s.pendingBytes := rfl
@[simp] theorem State.setPress_jobs (p : Nat) (x : Press) : (s.setPress p x).jobs = s.jobs := rfl
@[simp] theorem State.setPress_lateXfers (p : Nat) (x : Press) : (s.setPress p x).lateXfers = s.lateXfers := rfl
@[simp] theorem State.setPress_heldAccs (p : Nat) (x : Press) : (s.setPress p x).heldAccs = s.heldAccs := rfl
@[simp] theorem State.setPress_drains (p : Nat) (x : Press) : (s.setPress p x).drains = s.drains := rfl
@[simp] theorem State.setPress_dirtyOut (p : Nat) (x : Press) : (s.setPress p x).dirtyOut = s.dirtyOut := rfl
@[simp] theorem State.setPress_dirtyShared (p : Nat) (x : Press) : (s.setPress p x).dirtyShared = s.dirtyShared := rfl
@[simp] theorem State.setPress_mirrorGot (p : Nat) (x : Press) : (s.setPress p x).mirrorGot = s.mirrorGot := rfl
@[simp] theorem State.setPress_bases (p : Nat) (x : Press) : (s.setPress p x).bases = s.bases := rfl
@[simp] theorem State.setPress_mgtLast (p : Nat) (x : Press) : (s.setPress p x).mgtLast = s.mgtLast := rfl
@[simp] theorem State.setPress_log (p : Nat) (x : Press) : (s.setPress p x).log = s.log := rfl
@[simp] theorem State.setPress_calJobs (p : Nat) (x : Press) : (s.setPress p x).calJobs = s.calJobs := rfl
@[simp] theorem State.setPress_calRuns (p : Nat) (x : Press) : (s.setPress p x).calRuns = s.calRuns := rfl
@[simp] theorem State.setPress_calFails (p : Nat) (x : Press) : (s.setPress p x).calFails = s.calFails := rfl
@[simp] theorem State.setPress_ringErr (p : Nat) (x : Press) : (s.setPress p x).ringErr = s.ringErr := rfl
@[simp] theorem State.setPress_mislocks (p : Nat) (x : Press) : (s.setPress p x).mislocks = s.mislocks := rfl
@[simp] theorem State.setPress_swaps (p : Nat) (x : Press) : (s.setPress p x).swaps = s.swaps := rfl
@[simp] theorem State.setPress_spareNeeds (p : Nat) (x : Press) : (s.setPress p x).spareNeeds = s.spareNeeds := rfl
@[simp] theorem State.setPress_arrivals (p : Nat) (x : Press) : (s.setPress p x).arrivals = s.arrivals := rfl
@[simp] theorem State.setPress_barDone (p : Nat) (x : Press) : (s.setPress p x).barDone = s.barDone := rfl
@[simp] theorem State.setPress_barSent (p : Nat) (x : Press) : (s.setPress p x).barSent = s.barSent := rfl
@[simp] theorem State.setPress_tokens (p : Nat) (x : Press) : (s.setPress p x).tokens = s.tokens := rfl
@[simp] theorem State.setPress_links (p : Nat) (x : Press) : (s.setPress p x).links = s.links := rfl
@[simp] theorem State.setPress_repairMap (p : Nat) (x : Press) : (s.setPress p x).repairMap = s.repairMap := rfl
@[simp] theorem State.setPress_ceLog (p : Nat) (x : Press) : (s.setPress p x).ceLog = s.ceLog := rfl
@[simp] theorem State.setPress_samples (p : Nat) (x : Press) : (s.setPress p x).samples = s.samples := rfl
@[simp] theorem State.setPress_idleDebt (p : Nat) (x : Press) : (s.setPress p x).idleDebt = s.idleDebt := rfl
@[simp] theorem State.setPress_droops (p : Nat) (x : Press) : (s.setPress p x).droops = s.droops := rfl
@[simp] theorem State.setPress_flashQ (p : Nat) (x : Press) : (s.setPress p x).flashQ = s.flashQ := rfl
@[simp] theorem State.setPress_keys (p : Nat) (x : Press) : (s.setPress p x).keys = s.keys := rfl
@[simp] theorem State.setPress_images (p : Nat) (x : Press) : (s.setPress p x).images = s.images := rfl
@[simp] theorem State.setPress_flashMap (p : Nat) (x : Press) : (s.setPress p x).flashMap = s.flashMap := rfl
@[simp] theorem State.setPress_image (p : Nat) (x : Press) : (s.setPress p x).image = s.image := rfl
@[simp] theorem State.setPress_upload (p : Nat) (x : Press) : (s.setPress p x).upload = s.upload := rfl
@[simp] theorem State.setPress_snaps (p : Nat) (x : Press) : (s.setPress p x).snaps = s.snaps := rfl
@[simp] theorem State.setPress_badWords (p : Nat) (x : Press) : (s.setPress p x).badWords = s.badWords := rfl
@[simp] theorem State.setPress_prev (p : Nat) (x : Press) : (s.setPress p x).prev = s.prev := rfl
@[simp] theorem State.setPress_relays (p : Nat) (x : Press) : (s.setPress p x).relays = s.relays := rfl
@[simp] theorem State.setPress_early (p : Nat) (x : Press) : (s.setPress p x).early = s.early := rfl
@[simp] theorem State.setPress_mgtJobs (p : Nat) (x : Press) : (s.setPress p x).mgtJobs = s.mgtJobs := rfl
@[simp] theorem State.setPress_moe (p : Nat) (x : Press) : (s.setPress p x).moe = s.moe := rfl
@[simp] theorem State.setPress_cache (p : Nat) (x : Press) : (s.setPress p x).cache = s.cache := rfl
@[simp] theorem State.setPress_fades (p : Nat) (x : Press) : (s.setPress p x).fades = s.fades := rfl
@[simp] theorem State.setPress_dropped (p : Nat) (x : Press) : (s.setPress p x).dropped = s.dropped := rfl
@[simp] theorem State.setPress_out (p : Nat) (x : Press) : (s.setPress p x).out = s.out := rfl
@[simp] theorem State.setPress_freeCount (p : Nat) (x : Press) : (s.setPress p x).freeCount = s.freeCount := rfl
@[simp] theorem State.setPress_pending (p : Nat) (x : Press) : (s.setPress p x).pending = s.pending := rfl

/-! ### setLink -/

@[simp] theorem State.setLink_regs (n : Nat) (x : Link) : (s.setLink n x).regs = s.regs := rfl
@[simp] theorem State.setLink_mem (n : Nat) (x : Link) : (s.setLink n x).mem = s.mem := rfl
@[simp] theorem State.setLink_presses (n : Nat) (x : Link) : (s.setLink n x).presses = s.presses := rfl
@[simp] theorem State.setLink_active (n : Nat) (x : Link) : (s.setLink n x).active = s.active := rfl
@[simp] theorem State.setLink_loaded (n : Nat) (x : Link) : (s.setLink n x).loaded = s.loaded := rfl
@[simp] theorem State.setLink_pendingBytes (n : Nat) (x : Link) : (s.setLink n x).pendingBytes = s.pendingBytes := rfl
@[simp] theorem State.setLink_jobs (n : Nat) (x : Link) : (s.setLink n x).jobs = s.jobs := rfl
@[simp] theorem State.setLink_lateXfers (n : Nat) (x : Link) : (s.setLink n x).lateXfers = s.lateXfers := rfl
@[simp] theorem State.setLink_heldAccs (n : Nat) (x : Link) : (s.setLink n x).heldAccs = s.heldAccs := rfl
@[simp] theorem State.setLink_drains (n : Nat) (x : Link) : (s.setLink n x).drains = s.drains := rfl
@[simp] theorem State.setLink_dirtyOut (n : Nat) (x : Link) : (s.setLink n x).dirtyOut = s.dirtyOut := rfl
@[simp] theorem State.setLink_dirtyShared (n : Nat) (x : Link) : (s.setLink n x).dirtyShared = s.dirtyShared := rfl
@[simp] theorem State.setLink_mirrorGot (n : Nat) (x : Link) : (s.setLink n x).mirrorGot = s.mirrorGot := rfl
@[simp] theorem State.setLink_bases (n : Nat) (x : Link) : (s.setLink n x).bases = s.bases := rfl
@[simp] theorem State.setLink_mgtLast (n : Nat) (x : Link) : (s.setLink n x).mgtLast = s.mgtLast := rfl
@[simp] theorem State.setLink_log (n : Nat) (x : Link) : (s.setLink n x).log = s.log := rfl
@[simp] theorem State.setLink_calJobs (n : Nat) (x : Link) : (s.setLink n x).calJobs = s.calJobs := rfl
@[simp] theorem State.setLink_calRuns (n : Nat) (x : Link) : (s.setLink n x).calRuns = s.calRuns := rfl
@[simp] theorem State.setLink_calFails (n : Nat) (x : Link) : (s.setLink n x).calFails = s.calFails := rfl
@[simp] theorem State.setLink_ringErr (n : Nat) (x : Link) : (s.setLink n x).ringErr = s.ringErr := rfl
@[simp] theorem State.setLink_mislocks (n : Nat) (x : Link) : (s.setLink n x).mislocks = s.mislocks := rfl
@[simp] theorem State.setLink_swaps (n : Nat) (x : Link) : (s.setLink n x).swaps = s.swaps := rfl
@[simp] theorem State.setLink_spareNeeds (n : Nat) (x : Link) : (s.setLink n x).spareNeeds = s.spareNeeds := rfl
@[simp] theorem State.setLink_arrivals (n : Nat) (x : Link) : (s.setLink n x).arrivals = s.arrivals := rfl
@[simp] theorem State.setLink_barDone (n : Nat) (x : Link) : (s.setLink n x).barDone = s.barDone := rfl
@[simp] theorem State.setLink_barSent (n : Nat) (x : Link) : (s.setLink n x).barSent = s.barSent := rfl
@[simp] theorem State.setLink_tokens (n : Nat) (x : Link) : (s.setLink n x).tokens = s.tokens := rfl
@[simp] theorem State.setLink_repairMap (n : Nat) (x : Link) : (s.setLink n x).repairMap = s.repairMap := rfl
@[simp] theorem State.setLink_ceLog (n : Nat) (x : Link) : (s.setLink n x).ceLog = s.ceLog := rfl
@[simp] theorem State.setLink_samples (n : Nat) (x : Link) : (s.setLink n x).samples = s.samples := rfl
@[simp] theorem State.setLink_idleDebt (n : Nat) (x : Link) : (s.setLink n x).idleDebt = s.idleDebt := rfl
@[simp] theorem State.setLink_droops (n : Nat) (x : Link) : (s.setLink n x).droops = s.droops := rfl
@[simp] theorem State.setLink_flashQ (n : Nat) (x : Link) : (s.setLink n x).flashQ = s.flashQ := rfl
@[simp] theorem State.setLink_keys (n : Nat) (x : Link) : (s.setLink n x).keys = s.keys := rfl
@[simp] theorem State.setLink_images (n : Nat) (x : Link) : (s.setLink n x).images = s.images := rfl
@[simp] theorem State.setLink_flashMap (n : Nat) (x : Link) : (s.setLink n x).flashMap = s.flashMap := rfl
@[simp] theorem State.setLink_image (n : Nat) (x : Link) : (s.setLink n x).image = s.image := rfl
@[simp] theorem State.setLink_upload (n : Nat) (x : Link) : (s.setLink n x).upload = s.upload := rfl
@[simp] theorem State.setLink_snaps (n : Nat) (x : Link) : (s.setLink n x).snaps = s.snaps := rfl
@[simp] theorem State.setLink_badWords (n : Nat) (x : Link) : (s.setLink n x).badWords = s.badWords := rfl
@[simp] theorem State.setLink_prev (n : Nat) (x : Link) : (s.setLink n x).prev = s.prev := rfl
@[simp] theorem State.setLink_relays (n : Nat) (x : Link) : (s.setLink n x).relays = s.relays := rfl
@[simp] theorem State.setLink_early (n : Nat) (x : Link) : (s.setLink n x).early = s.early := rfl
@[simp] theorem State.setLink_mgtJobs (n : Nat) (x : Link) : (s.setLink n x).mgtJobs = s.mgtJobs := rfl
@[simp] theorem State.setLink_moe (n : Nat) (x : Link) : (s.setLink n x).moe = s.moe := rfl
@[simp] theorem State.setLink_cache (n : Nat) (x : Link) : (s.setLink n x).cache = s.cache := rfl
@[simp] theorem State.setLink_fades (n : Nat) (x : Link) : (s.setLink n x).fades = s.fades := rfl
@[simp] theorem State.setLink_dropped (n : Nat) (x : Link) : (s.setLink n x).dropped = s.dropped := rfl
@[simp] theorem State.setLink_out (n : Nat) (x : Link) : (s.setLink n x).out = s.out := rfl
@[simp] theorem State.setLink_freeCount (n : Nat) (x : Link) : (s.setLink n x).freeCount = s.freeCount := rfl
@[simp] theorem State.setLink_pending (n : Nat) (x : Link) : (s.setLink n x).pending = s.pending := rfl

/-! ### send -/

@[simp] theorem State.send_regs (o : Out) : (s.send o).regs = s.regs := rfl
@[simp] theorem State.send_mem (o : Out) : (s.send o).mem = s.mem := rfl
@[simp] theorem State.send_presses (o : Out) : (s.send o).presses = s.presses := rfl
@[simp] theorem State.send_active (o : Out) : (s.send o).active = s.active := rfl
@[simp] theorem State.send_loaded (o : Out) : (s.send o).loaded = s.loaded := rfl
@[simp] theorem State.send_pendingBytes (o : Out) : (s.send o).pendingBytes = s.pendingBytes := rfl
@[simp] theorem State.send_jobs (o : Out) : (s.send o).jobs = s.jobs := rfl
@[simp] theorem State.send_lateXfers (o : Out) : (s.send o).lateXfers = s.lateXfers := rfl
@[simp] theorem State.send_heldAccs (o : Out) : (s.send o).heldAccs = s.heldAccs := rfl
@[simp] theorem State.send_drains (o : Out) : (s.send o).drains = s.drains := rfl
@[simp] theorem State.send_dirtyOut (o : Out) : (s.send o).dirtyOut = s.dirtyOut := rfl
@[simp] theorem State.send_dirtyShared (o : Out) : (s.send o).dirtyShared = s.dirtyShared := rfl
@[simp] theorem State.send_mirrorGot (o : Out) : (s.send o).mirrorGot = s.mirrorGot := rfl
@[simp] theorem State.send_bases (o : Out) : (s.send o).bases = s.bases := rfl
@[simp] theorem State.send_mgtLast (o : Out) : (s.send o).mgtLast = s.mgtLast := rfl
@[simp] theorem State.send_log (o : Out) : (s.send o).log = s.log := rfl
@[simp] theorem State.send_calJobs (o : Out) : (s.send o).calJobs = s.calJobs := rfl
@[simp] theorem State.send_calRuns (o : Out) : (s.send o).calRuns = s.calRuns := rfl
@[simp] theorem State.send_calFails (o : Out) : (s.send o).calFails = s.calFails := rfl
@[simp] theorem State.send_ringErr (o : Out) : (s.send o).ringErr = s.ringErr := rfl
@[simp] theorem State.send_mislocks (o : Out) : (s.send o).mislocks = s.mislocks := rfl
@[simp] theorem State.send_swaps (o : Out) : (s.send o).swaps = s.swaps := rfl
@[simp] theorem State.send_spareNeeds (o : Out) : (s.send o).spareNeeds = s.spareNeeds := rfl
@[simp] theorem State.send_arrivals (o : Out) : (s.send o).arrivals = s.arrivals := rfl
@[simp] theorem State.send_barDone (o : Out) : (s.send o).barDone = s.barDone := rfl
@[simp] theorem State.send_barSent (o : Out) : (s.send o).barSent = s.barSent := rfl
@[simp] theorem State.send_tokens (o : Out) : (s.send o).tokens = s.tokens := rfl
@[simp] theorem State.send_links (o : Out) : (s.send o).links = s.links := rfl
@[simp] theorem State.send_repairMap (o : Out) : (s.send o).repairMap = s.repairMap := rfl
@[simp] theorem State.send_ceLog (o : Out) : (s.send o).ceLog = s.ceLog := rfl
@[simp] theorem State.send_samples (o : Out) : (s.send o).samples = s.samples := rfl
@[simp] theorem State.send_idleDebt (o : Out) : (s.send o).idleDebt = s.idleDebt := rfl
@[simp] theorem State.send_droops (o : Out) : (s.send o).droops = s.droops := rfl
@[simp] theorem State.send_flashQ (o : Out) : (s.send o).flashQ = s.flashQ := rfl
@[simp] theorem State.send_keys (o : Out) : (s.send o).keys = s.keys := rfl
@[simp] theorem State.send_images (o : Out) : (s.send o).images = s.images := rfl
@[simp] theorem State.send_flashMap (o : Out) : (s.send o).flashMap = s.flashMap := rfl
@[simp] theorem State.send_image (o : Out) : (s.send o).image = s.image := rfl
@[simp] theorem State.send_upload (o : Out) : (s.send o).upload = s.upload := rfl
@[simp] theorem State.send_snaps (o : Out) : (s.send o).snaps = s.snaps := rfl
@[simp] theorem State.send_badWords (o : Out) : (s.send o).badWords = s.badWords := rfl
@[simp] theorem State.send_freeCount (o : Out) : (s.send o).freeCount = s.freeCount := rfl
@[simp] theorem State.send_pending (o : Out) : (s.send o).pending = s.pending := rfl

end Sys2Proof.Machine
end

