-- ==== Sys2Proof/Laws/Tables.lean ====
section
/-!
SUPPORT. Reads after writes of the sparse tables.
-/

namespace Sys2Proof.Machine

variable {K V : Type} [DecidableEq K]

@[simp] theorem SMap.get?_nil (k : K) : SMap.get? ([] : SMap K V) k = none := rfl

theorem SMap.get?_cons (e : K × V) (m : SMap K V) (k : K) :
    SMap.get? (e :: m) k = if e.1 = k then some e.2 else SMap.get? m k := rfl

theorem SMap.get?_del (m : SMap K V) (k x : K) :
    (m.del k).get? x = if k = x then none else m.get? x := by
  induction m with
  | nil => simp [SMap.del]
  | cons e m ih =>
    unfold SMap.del at ih ⊢
    by_cases h : e.1 = k
    · rw [List.filter_cons_of_neg (by simp [h]), ih, SMap.get?_cons]
      by_cases h2 : k = x
      · simp [h2]
      · simp [h2, h]
    · rw [List.filter_cons_of_pos (by simp [h]), SMap.get?_cons, SMap.get?_cons, ih]
      by_cases h2 : k = x
      · subst h2; simp [h]
      · simp [h2]

theorem SMap.get?_put (m : SMap K V) (k x : K) (v : V) :
    (m.put k v).get? x = if k = x then some v else m.get? x := by
  unfold SMap.put
  rw [SMap.get?_cons, SMap.get?_del]
  by_cases h : k = x <;> simp [h]

theorem SMap.get?_putD [DecidableEq V] (m : SMap K V) (k x : K) (v d : V) :
    (m.putD k v d).get? x = if k = x then (if v = d then none else some v) else m.get? x := by
  unfold SMap.putD
  by_cases hv : v = d
  · simp only [hv, if_true]; exact SMap.get?_del m k x
  · simp only [hv, if_false]; exact SMap.get?_put m k x v

@[simp] theorem SMap.getD_put_same (m : SMap K V) (k : K) (v d : V) : (m.put k v).getD k d = v := by
  simp [SMap.getD, SMap.get?_put]

theorem SMap.getD_put_ne (m : SMap K V) (k x : K) (v d : V) (h : k ≠ x) :
    (m.put k v).getD x d = m.getD x d := by simp [SMap.getD, SMap.get?_put, h]

end Sys2Proof.Machine
end

