-- ==== Sys2Proof/Laws/Fields.lean ====
section
/-!
SUPPORT. Numbers of the state after the elementary updates, after time has passed and after interrupts were
delivered.
-/

namespace Sys2Proof.Machine

/-! ### One field -/

/-- A field read after a field written. -/
theorem State.rd_wr (s : State) (f g : Field) (i j a b v : Nat) :
    (s.wr f i j v).rd g a b = if f = g ∧ i = a ∧ j = b then f.fit v else s.rd g a b := by
  unfold State.rd State.wr
  simp only [SMap.get?_putD, RKey.mk.injEq]
  by_cases h : f = g ∧ i = a ∧ j = b
  · obtain ⟨rfl, rfl, rfl⟩ := h
    by_cases h2 : f.fit v = f.spec.reset <;> simp [h2]
  · simp [h]

@[simp] theorem State.rd_wr_same (s : State) (f : Field) (i j v : Nat) :
    (s.wr f i j v).rd f i j = f.fit v := by simp [State.rd_wr]

/-- Writing one field leaves the others. -/
theorem State.rd_wr_ne (s : State) (f g : Field) (i j a b v : Nat) (h : f ≠ g) :
    (s.wr f i j v).rd g a b = s.rd g a b := by simp [State.rd_wr, h]

/-- A field read after a field was put back. -/
theorem State.rd_clr (s : State) (f g : Field) (i j a b : Nat) :
    (s.clr f i j).rd g a b = if f = g ∧ i = a ∧ j = b then f.spec.reset else s.rd g a b := by
  unfold State.rd State.clr
  simp only [SMap.get?_del, RKey.mk.injEq]
  by_cases h : f = g ∧ i = a ∧ j = b
  · obtain ⟨rfl, rfl, rfl⟩ := h; simp
  · simp [h]

@[simp] theorem State.rd_setPress (s : State) (p : Nat) (x : Press) (f : Field) (i j : Nat) :
    (s.setPress p x).rd f i j = s.rd f i j := rfl

@[simp] theorem State.rd_setLink (s : State) (n : Nat) (x : Link) (f : Field) (i j : Nat) :
    (s.setLink n x).rd f i j = s.rd f i j := rfl

@[simp] theorem State.rd_send (s : State) (o : Out) (f : Field) (i j : Nat) :
    (s.send o).rd f i j = s.rd f i j := rfl

theorem State.rd_wrap (s : State) (f g : Field) (i j a b n : Nat) :
    (s.wrap f i j n).rd g a b = if f = g ∧ i = a ∧ j = b then f.fit (s.rd f i j + n) else s.rd g a b :=
  State.rd_wr ..

theorem State.rd_bump_ne (s : State) (f g : Field) (i j a b n : Nat) (h : f ≠ g) :
    (s.bump f i j n).rd g a b = s.rd g a b := by
  unfold State.bump
  split <;> exact State.rd_wr_ne _ _ _ _ _ _ _ _ h

/-- A saturating count read after it was raised. -/
theorem State.rd_bump_same (s : State) (f : Field) (i j n : Nat) (h : f.spec.width ≠ 0) :
    (s.bump f i j n).rd f i j = min (2 ^ f.spec.width - 1) (s.rd f i j + n) := by
  unfold State.bump
  rw [if_neg h, State.rd_wr_same]
  unfold Field.fit
  rw [if_neg h, Nat.mod_eq_of_lt]
  have : 0 < 2 ^ f.spec.width := Nat.pos_of_ne_zero (by simp)
  omega

/-- The press read after a press replaced. -/
theorem State.press_setPress (s : State) (p q : Nat) (x : Press) :
    (s.setPress p x).press q = if p = q then x else s.press q := by
  unfold State.press State.setPress
  by_cases h : p = q
  · subst h; simp
  · simp [h, SMap.getD_put_ne]

@[simp] theorem State.press_wr (s : State) (f : Field) (i j v p : Nat) :
    (s.wr f i j v).press p = s.press p := rfl

@[simp] theorem State.link_wr (s : State) (f : Field) (i j v n : Nat) :
    (s.wr f i j v).link n = s.link n := rfl

/-- The link end read after a link end replaced. -/
theorem State.link_setLink (s : State) (n m : Nat) (x : Link) :
    (s.setLink n x).link m = if n = m then x else s.link m := by
  unfold State.link State.setLink
  by_cases h : n = m
  · subst h; simp
  · simp [h, SMap.getD_put_ne]

/-! ### Updates of the number table alone -/

theorem State.bump_only (s : State) (f : Field) (i j n : Nat) :
    s.bump f i j n = { s with regs := (s.bump f i j n).regs, prev := (s.bump f i j n).prev } := by unfold State.bump; split <;> rfl

theorem State.wrap_only (s : State) (f : Field) (i j n : Nat) :
    s.wrap f i j n = { s with regs := (s.wrap f i j n).regs, prev := (s.wrap f i j n).prev } := rfl

theorem State.wrAll_only (s : State) (l : List (Field × Nat × Nat × Nat)) :
    s.wrAll l = { s with regs := (s.wrAll l).regs, prev := (s.wrAll l).prev } := by
  induction l generalizing s with
  | nil => rfl
  | cons e l ih =>
    have h := ih (s.wr e.1 e.2.1 e.2.2.1 e.2.2.2)
    exact h

theorem State.tickBy_only (s : State) (n : Nat) :
    s.tickBy n = { s with regs := (s.tickBy n).regs, prev := (s.tickBy n).prev } := by
  unfold State.tickBy; dsimp only; split <;> rfl

theorem State.stamp_only (s : State) (t : Nat) :
    s.stamp t = { s with regs := (s.stamp t).regs, prev := (s.stamp t).prev } := State.tickBy_only s _

theorem State.each_only {α : Type} (l : List α) (f : State → α → State)
    (h : ∀ s a, f s a = { s with regs := (f s a).regs, prev := (f s a).prev }) (s : State) :
    s.each l f = { s with regs := (s.each l f).regs, prev := (s.each l f).prev } := by
  induction l generalizing s with
  | nil => rfl
  | cons a l ih =>
    show State.each (f s a) l f = { s with regs := (State.each (f s a) l f).regs, prev := (State.each (f s a) l f).prev }
    have h1 := ih (f s a)
    have h2 := h s a
    calc State.each (f s a) l f = { f s a with regs := (State.each (f s a) l f).regs, prev := (State.each (f s a) l f).prev } := h1
      _ = { s with regs := (State.each (f s a) l f).regs, prev := (State.each (f s a) l f).prev } := by rw [h2]

theorem State.irqOne_only (s : State) (k : Nat) :
    s.irqOne k = { s with regs := (s.irqOne k).regs, prev := (s.irqOne k).prev } := by
  unfold State.irqOne
  repeat' split
  all_goals first | rfl | (dsimp only; split <;> rfl)

theorem State.irqDeliver_only (s : State) :
    s.irqDeliver = { s with regs := s.irqDeliver.regs, prev := s.irqDeliver.prev } := by
  unfold State.irqDeliver
  generalize hu : s.each (List.range 16) (fun s n => (s.clr .hCoreMeip 0 n).clr .hCoreSeip 0 n) = u
  have h1 : u = { s with regs := u.regs, prev := u.prev } := by
    rw [← hu]; exact State.each_only _ _ (fun _ _ => rfl) s
  have h2 := State.each_only (List.range 14) State.irqOne State.irqOne_only u
  calc u.each (List.range 14) State.irqOne
      = { u with regs := (u.each (List.range 14) State.irqOne).regs, prev := (u.each (List.range 14) State.irqOne).prev } := h2
    _ = { s with regs := (u.each (List.range 14) State.irqOne).regs, prev := (u.each (List.range 14) State.irqOne).prev } := by rw [h1]

/-! ### Fields that they leave alone -/

@[simp] theorem State.bump_mem (s : State) (f : Field) (i j n : Nat) : (s.bump f i j n).mem = s.mem := by rw [State.bump_only]
@[simp] theorem State.bump_presses (s : State) (f : Field) (i j n : Nat) : (s.bump f i j n).presses = s.presses := by rw [State.bump_only]
@[simp] theorem State.bump_active (s : State) (f : Field) (i j n : Nat) : (s.bump f i j n).active = s.active := by rw [State.bump_only]
@[simp] theorem State.bump_loaded (s : State) (f : Field) (i j n : Nat) : (s.bump f i j n).loaded = s.loaded := by rw [State.bump_only]
@[simp] theorem State.bump_pendingBytes (s : State) (f : Field) (i j n : Nat) : (s.bump f i j n).pendingBytes = s.pendingBytes := by rw [State.bump_only]
@[simp] theorem State.bump_jobs (s : State) (f : Field) (i j n : Nat) : (s.bump f i j n).jobs = s.jobs := by rw [State.bump_only]
@[simp] theorem State.bump_lateXfers (s : State) (f : Field) (i j n : Nat) : (s.bump f i j n).lateXfers = s.lateXfers := by rw [State.bump_only]
@[simp] theorem State.bump_heldAccs (s : State) (f : Field) (i j n : Nat) : (s.bump f i j n).heldAccs = s.heldAccs := by rw [State.bump_only]
@[simp] theorem State.bump_drains (s : State) (f : Field) (i j n : Nat) : (s.bump f i j n).drains = s.drains := by rw [State.bump_only]
@[simp] theorem State.bump_dirtyOut (s : State) (f : Field) (i j n : Nat) : (s.bump f i j n).dirtyOut = s.dirtyOut := by rw [State.bump_only]
@[simp] theorem State.bump_dirtyShared (s : State) (f : Field) (i j n : Nat) : (s.bump f i j n).dirtyShared = s.dirtyShared := by rw [State.bump_only]
@[simp] theorem State.bump_mirrorGot (s : State) (f : Field) (i j n : Nat) : (s.bump f i j n).mirrorGot = s.mirrorGot := by rw [State.bump_only]
@[simp] theorem State.bump_bases (s : State) (f : Field) (i j n : Nat) : (s.bump f i j n).bases = s.bases := by rw [State.bump_only]
@[simp] theorem State.bump_mgtLast (s : State) (f : Field) (i j n : Nat) : (s.bump f i j n).mgtLast = s.mgtLast := by rw [State.bump_only]
@[simp] theorem State.bump_log (s : State) (f : Field) (i j n : Nat) : (s.bump f i j n).log = s.log := by rw [State.bump_only]
@[simp] theorem State.bump_calJobs (s : State) (f : Field) (i j n : Nat) : (s.bump f i j n).calJobs = s.calJobs := by rw [State.bump_only]
@[simp] theorem State.bump_calRuns (s : State) (f : Field) (i j n : Nat) : (s.bump f i j n).calRuns = s.calRuns := by rw [State.bump_only]
@[simp] theorem State.bump_calFails (s : State) (f : Field) (i j n : Nat) : (s.bump f i j n).calFails = s.calFails := by rw [State.bump_only]
@[simp] theorem State.bump_ringErr (s : State) (f : Field) (i j n : Nat) : (s.bump f i j n).ringErr = s.ringErr := by rw [State.bump_only]
@[simp] theorem State.bump_mislocks (s : State) (f : Field) (i j n : Nat) : (s.bump f i j n).mislocks = s.mislocks := by rw [State.bump_only]
@[simp] theorem State.bump_swaps (s : State) (f : Field) (i j n : Nat) : (s.bump f i j n).swaps = s.swaps := by rw [State.bump_only]
@[simp] theorem State.bump_spareNeeds (s : State) (f : Field) (i j n : Nat) : (s.bump f i j n).spareNeeds = s.spareNeeds := by rw [State.bump_only]
@[simp] theorem State.bump_arrivals (s : State) (f : Field) (i j n : Nat) : (s.bump f i j n).arrivals = s.arrivals := by rw [State.bump_only]
@[simp] theorem State.bump_barDone (s : State) (f : Field) (i j n : Nat) : (s.bump f i j n).barDone = s.barDone := by rw [State.bump_only]
@[simp] theorem State.bump_barSent (s : State) (f : Field) (i j n : Nat) : (s.bump f i j n).barSent = s.barSent := by rw [State.bump_only]
@[simp] theorem State.bump_tokens (s : State) (f : Field) (i j n : Nat) : (s.bump f i j n).tokens = s.tokens := by rw [State.bump_only]
@[simp] theorem State.bump_links (s : State) (f : Field) (i j n : Nat) : (s.bump f i j n).links = s.links := by rw [State.bump_only]
@[simp] theorem State.bump_repairMap (s : State) (f : Field) (i j n : Nat) : (s.bump f i j n).repairMap = s.repairMap := by rw [State.bump_only]
@[simp] theorem State.bump_ceLog (s : State) (f : Field) (i j n : Nat) : (s.bump f i j n).ceLog = s.ceLog := by rw [State.bump_only]
@[simp] theorem State.bump_samples (s : State) (f : Field) (i j n : Nat) : (s.bump f i j n).samples = s.samples := by rw [State.bump_only]
@[simp] theorem State.bump_idleDebt (s : State) (f : Field) (i j n : Nat) : (s.bump f i j n).idleDebt = s.idleDebt := by rw [State.bump_only]
@[simp] theorem State.bump_droops (s : State) (f : Field) (i j n : Nat) : (s.bump f i j n).droops = s.droops := by rw [State.bump_only]
@[simp] theorem State.bump_flashQ (s : State) (f : Field) (i j n : Nat) : (s.bump f i j n).flashQ = s.flashQ := by rw [State.bump_only]
@[simp] theorem State.bump_keys (s : State) (f : Field) (i j n : Nat) : (s.bump f i j n).keys = s.keys := by rw [State.bump_only]
@[simp] theorem State.bump_images (s : State) (f : Field) (i j n : Nat) : (s.bump f i j n).images = s.images := by rw [State.bump_only]
@[simp] theorem State.bump_flashMap (s : State) (f : Field) (i j n : Nat) : (s.bump f i j n).flashMap = s.flashMap := by rw [State.bump_only]
@[simp] theorem State.bump_image (s : State) (f : Field) (i j n : Nat) : (s.bump f i j n).image = s.image := by rw [State.bump_only]
@[simp] theorem State.bump_upload (s : State) (f : Field) (i j n : Nat) : (s.bump f i j n).upload = s.upload := by rw [State.bump_only]
@[simp] theorem State.bump_snaps (s : State) (f : Field) (i j n : Nat) : (s.bump f i j n).snaps = s.snaps := by rw [State.bump_only]
@[simp] theorem State.bump_badWords (s : State) (f : Field) (i j n : Nat) : (s.bump f i j n).badWords = s.badWords := by rw [State.bump_only]
@[simp] theorem State.bump_relays (s : State) (f : Field) (i j n : Nat) : (s.bump f i j n).relays = s.relays := by rw [State.bump_only]
@[simp] theorem State.bump_early (s : State) (f : Field) (i j n : Nat) : (s.bump f i j n).early = s.early := by rw [State.bump_only]
@[simp] theorem State.bump_mgtJobs (s : State) (f : Field) (i j n : Nat) : (s.bump f i j n).mgtJobs = s.mgtJobs := by rw [State.bump_only]
@[simp] theorem State.bump_moe (s : State) (f : Field) (i j n : Nat) : (s.bump f i j n).moe = s.moe := by rw [State.bump_only]
@[simp] theorem State.bump_cache (s : State) (f : Field) (i j n : Nat) : (s.bump f i j n).cache = s.cache := by rw [State.bump_only]
@[simp] theorem State.bump_fades (s : State) (f : Field) (i j n : Nat) : (s.bump f i j n).fades = s.fades := by rw [State.bump_only]
@[simp] theorem State.bump_dropped (s : State) (f : Field) (i j n : Nat) : (s.bump f i j n).dropped = s.dropped := by rw [State.bump_only]
@[simp] theorem State.bump_out (s : State) (f : Field) (i j n : Nat) : (s.bump f i j n).out = s.out := by rw [State.bump_only]
@[simp] theorem State.bump_freeCount (s : State) (f : Field) (i j n : Nat) : (s.bump f i j n).freeCount = s.freeCount := by rw [State.bump_only]
@[simp] theorem State.bump_pending (s : State) (f : Field) (i j n : Nat) : (s.bump f i j n).pending = s.pending := by rw [State.bump_only]

@[simp] theorem State.wrap_mem (s : State) (f : Field) (i j n : Nat) : (s.wrap f i j n).mem = s.mem := by rw [State.wrap_only]
@[simp] theorem State.wrap_presses (s : State) (f : Field) (i j n : Nat) : (s.wrap f i j n).presses = s.presses := by rw [State.wrap_only]
@[simp] theorem State.wrap_active (s : State) (f : Field) (i j n : Nat) : (s.wrap f i j n).active = s.active := by rw [State.wrap_only]
@[simp] theorem State.wrap_loaded (s : State) (f : Field) (i j n : Nat) : (s.wrap f i j n).loaded = s.loaded := by rw [State.wrap_only]
@[simp] theorem State.wrap_pendingBytes (s : State) (f : Field) (i j n : Nat) : (s.wrap f i j n).pendingBytes = s.pendingBytes := by rw [State.wrap_only]
@[simp] theorem State.wrap_jobs (s : State) (f : Field) (i j n : Nat) : (s.wrap f i j n).jobs = s.jobs := by rw [State.wrap_only]
@[simp] theorem State.wrap_lateXfers (s : State) (f : Field) (i j n : Nat) : (s.wrap f i j n).lateXfers = s.lateXfers := by rw [State.wrap_only]
@[simp] theorem State.wrap_heldAccs (s : State) (f : Field) (i j n : Nat) : (s.wrap f i j n).heldAccs = s.heldAccs := by rw [State.wrap_only]
@[simp] theorem State.wrap_drains (s : State) (f : Field) (i j n : Nat) : (s.wrap f i j n).drains = s.drains := by rw [State.wrap_only]
@[simp] theorem State.wrap_dirtyOut (s : State) (f : Field) (i j n : Nat) : (s.wrap f i j n).dirtyOut = s.dirtyOut := by rw [State.wrap_only]
@[simp] theorem State.wrap_dirtyShared (s : State) (f : Field) (i j n : Nat) : (s.wrap f i j n).dirtyShared = s.dirtyShared := by rw [State.wrap_only]
@[simp] theorem State.wrap_mirrorGot (s : State) (f : Field) (i j n : Nat) : (s.wrap f i j n).mirrorGot = s.mirrorGot := by rw [State.wrap_only]
@[simp] theorem State.wrap_bases (s : State) (f : Field) (i j n : Nat) : (s.wrap f i j n).bases = s.bases := by rw [State.wrap_only]
@[simp] theorem State.wrap_mgtLast (s : State) (f : Field) (i j n : Nat) : (s.wrap f i j n).mgtLast = s.mgtLast := by rw [State.wrap_only]
@[simp] theorem State.wrap_log (s : State) (f : Field) (i j n : Nat) : (s.wrap f i j n).log = s.log := by rw [State.wrap_only]
@[simp] theorem State.wrap_calJobs (s : State) (f : Field) (i j n : Nat) : (s.wrap f i j n).calJobs = s.calJobs := by rw [State.wrap_only]
@[simp] theorem State.wrap_calRuns (s : State) (f : Field) (i j n : Nat) : (s.wrap f i j n).calRuns = s.calRuns := by rw [State.wrap_only]
@[simp] theorem State.wrap_calFails (s : State) (f : Field) (i j n : Nat) : (s.wrap f i j n).calFails = s.calFails := by rw [State.wrap_only]
@[simp] theorem State.wrap_ringErr (s : State) (f : Field) (i j n : Nat) : (s.wrap f i j n).ringErr = s.ringErr := by rw [State.wrap_only]
@[simp] theorem State.wrap_mislocks (s : State) (f : Field) (i j n : Nat) : (s.wrap f i j n).mislocks = s.mislocks := by rw [State.wrap_only]
@[simp] theorem State.wrap_swaps (s : State) (f : Field) (i j n : Nat) : (s.wrap f i j n).swaps = s.swaps := by rw [State.wrap_only]
@[simp] theorem State.wrap_spareNeeds (s : State) (f : Field) (i j n : Nat) : (s.wrap f i j n).spareNeeds = s.spareNeeds := by rw [State.wrap_only]
@[simp] theorem State.wrap_arrivals (s : State) (f : Field) (i j n : Nat) : (s.wrap f i j n).arrivals = s.arrivals := by rw [State.wrap_only]
@[simp] theorem State.wrap_barDone (s : State) (f : Field) (i j n : Nat) : (s.wrap f i j n).barDone = s.barDone := by rw [State.wrap_only]
@[simp] theorem State.wrap_barSent (s : State) (f : Field) (i j n : Nat) : (s.wrap f i j n).barSent = s.barSent := by rw [State.wrap_only]
@[simp] theorem State.wrap_tokens (s : State) (f : Field) (i j n : Nat) : (s.wrap f i j n).tokens = s.tokens := by rw [State.wrap_only]
@[simp] theorem State.wrap_links (s : State) (f : Field) (i j n : Nat) : (s.wrap f i j n).links = s.links := by rw [State.wrap_only]
@[simp] theorem State.wrap_repairMap (s : State) (f : Field) (i j n : Nat) : (s.wrap f i j n).repairMap = s.repairMap := by rw [State.wrap_only]
@[simp] theorem State.wrap_ceLog (s : State) (f : Field) (i j n : Nat) : (s.wrap f i j n).ceLog = s.ceLog := by rw [State.wrap_only]
@[simp] theorem State.wrap_samples (s : State) (f : Field) (i j n : Nat) : (s.wrap f i j n).samples = s.samples := by rw [State.wrap_only]
@[simp] theorem State.wrap_idleDebt (s : State) (f : Field) (i j n : Nat) : (s.wrap f i j n).idleDebt = s.idleDebt := by rw [State.wrap_only]
@[simp] theorem State.wrap_droops (s : State) (f : Field) (i j n : Nat) : (s.wrap f i j n).droops = s.droops := by rw [State.wrap_only]
@[simp] theorem State.wrap_flashQ (s : State) (f : Field) (i j n : Nat) : (s.wrap f i j n).flashQ = s.flashQ := by rw [State.wrap_only]
@[simp] theorem State.wrap_keys (s : State) (f : Field) (i j n : Nat) : (s.wrap f i j n).keys = s.keys := by rw [State.wrap_only]
@[simp] theorem State.wrap_images (s : State) (f : Field) (i j n : Nat) : (s.wrap f i j n).images = s.images := by rw [State.wrap_only]
@[simp] theorem State.wrap_flashMap (s : State) (f : Field) (i j n : Nat) : (s.wrap f i j n).flashMap = s.flashMap := by rw [State.wrap_only]
@[simp] theorem State.wrap_image (s : State) (f : Field) (i j n : Nat) : (s.wrap f i j n).image = s.image := by rw [State.wrap_only]
@[simp] theorem State.wrap_upload (s : State) (f : Field) (i j n : Nat) : (s.wrap f i j n).upload = s.upload := by rw [State.wrap_only]
@[simp] theorem State.wrap_snaps (s : State) (f : Field) (i j n : Nat) : (s.wrap f i j n).snaps = s.snaps := by rw [State.wrap_only]
@[simp] theorem State.wrap_badWords (s : State) (f : Field) (i j n : Nat) : (s.wrap f i j n).badWords = s.badWords := by rw [State.wrap_only]
@[simp] theorem State.wrap_relays (s : State) (f : Field) (i j n : Nat) : (s.wrap f i j n).relays = s.relays := by rw [State.wrap_only]
@[simp] theorem State.wrap_early (s : State) (f : Field) (i j n : Nat) : (s.wrap f i j n).early = s.early := by rw [State.wrap_only]
@[simp] theorem State.wrap_mgtJobs (s : State) (f : Field) (i j n : Nat) : (s.wrap f i j n).mgtJobs = s.mgtJobs := by rw [State.wrap_only]
@[simp] theorem State.wrap_moe (s : State) (f : Field) (i j n : Nat) : (s.wrap f i j n).moe = s.moe := by rw [State.wrap_only]
@[simp] theorem State.wrap_cache (s : State) (f : Field) (i j n : Nat) : (s.wrap f i j n).cache = s.cache := by rw [State.wrap_only]
@[simp] theorem State.wrap_fades (s : State) (f : Field) (i j n : Nat) : (s.wrap f i j n).fades = s.fades := by rw [State.wrap_only]
@[simp] theorem State.wrap_dropped (s : State) (f : Field) (i j n : Nat) : (s.wrap f i j n).dropped = s.dropped := by rw [State.wrap_only]
@[simp] theorem State.wrap_out (s : State) (f : Field) (i j n : Nat) : (s.wrap f i j n).out = s.out := by rw [State.wrap_only]
@[simp] theorem State.wrap_freeCount (s : State) (f : Field) (i j n : Nat) : (s.wrap f i j n).freeCount = s.freeCount := by rw [State.wrap_only]
@[simp] theorem State.wrap_pending (s : State) (f : Field) (i j n : Nat) : (s.wrap f i j n).pending = s.pending := by rw [State.wrap_only]

@[simp] theorem State.wrAll_mem (s : State) (l : List (Field × Nat × Nat × Nat)) : (s.wrAll l).mem = s.mem := by rw [State.wrAll_only]
@[simp] theorem State.wrAll_presses (s : State) (l : List (Field × Nat × Nat × Nat)) : (s.wrAll l).presses = s.presses := by rw [State.wrAll_only]
@[simp] theorem State.wrAll_active (s : State) (l : List (Field × Nat × Nat × Nat)) : (s.wrAll l).active = s.active := by rw [State.wrAll_only]
@[simp] theorem State.wrAll_loaded (s : State) (l : List (Field × Nat × Nat × Nat)) : (s.wrAll l).loaded = s.loaded := by rw [State.wrAll_only]
@[simp] theorem State.wrAll_pendingBytes (s : State) (l : List (Field × Nat × Nat × Nat)) : (s.wrAll l).pendingBytes = s.pendingBytes := by rw [State.wrAll_only]
@[simp] theorem State.wrAll_jobs (s : State) (l : List (Field × Nat × Nat × Nat)) : (s.wrAll l).jobs = s.jobs := by rw [State.wrAll_only]
@[simp] theorem State.wrAll_lateXfers (s : State) (l : List (Field × Nat × Nat × Nat)) : (s.wrAll l).lateXfers = s.lateXfers := by rw [State.wrAll_only]
@[simp] theorem State.wrAll_heldAccs (s : State) (l : List (Field × Nat × Nat × Nat)) : (s.wrAll l).heldAccs = s.heldAccs := by rw [State.wrAll_only]
@[simp] theorem State.wrAll_drains (s : State) (l : List (Field × Nat × Nat × Nat)) : (s.wrAll l).drains = s.drains := by rw [State.wrAll_only]
@[simp] theorem State.wrAll_dirtyOut (s : State) (l : List (Field × Nat × Nat × Nat)) : (s.wrAll l).dirtyOut = s.dirtyOut := by rw [State.wrAll_only]
@[simp] theorem State.wrAll_dirtyShared (s : State) (l : List (Field × Nat × Nat × Nat)) : (s.wrAll l).dirtyShared = s.dirtyShared := by rw [State.wrAll_only]
@[simp] theorem State.wrAll_mirrorGot (s : State) (l : List (Field × Nat × Nat × Nat)) : (s.wrAll l).mirrorGot = s.mirrorGot := by rw [State.wrAll_only]
@[simp] theorem State.wrAll_bases (s : State) (l : List (Field × Nat × Nat × Nat)) : (s.wrAll l).bases = s.bases := by rw [State.wrAll_only]
@[simp] theorem State.wrAll_mgtLast (s : State) (l : List (Field × Nat × Nat × Nat)) : (s.wrAll l).mgtLast = s.mgtLast := by rw [State.wrAll_only]
@[simp] theorem State.wrAll_log (s : State) (l : List (Field × Nat × Nat × Nat)) : (s.wrAll l).log = s.log := by rw [State.wrAll_only]
@[simp] theorem State.wrAll_calJobs (s : State) (l : List (Field × Nat × Nat × Nat)) : (s.wrAll l).calJobs = s.calJobs := by rw [State.wrAll_only]
@[simp] theorem State.wrAll_calRuns (s : State) (l : List (Field × Nat × Nat × Nat)) : (s.wrAll l).calRuns = s.calRuns := by rw [State.wrAll_only]
@[simp] theorem State.wrAll_calFails (s : State) (l : List (Field × Nat × Nat × Nat)) : (s.wrAll l).calFails = s.calFails := by rw [State.wrAll_only]
@[simp] theorem State.wrAll_ringErr (s : State) (l : List (Field × Nat × Nat × Nat)) : (s.wrAll l).ringErr = s.ringErr := by rw [State.wrAll_only]
@[simp] theorem State.wrAll_mislocks (s : State) (l : List (Field × Nat × Nat × Nat)) : (s.wrAll l).mislocks = s.mislocks := by rw [State.wrAll_only]
@[simp] theorem State.wrAll_swaps (s : State) (l : List (Field × Nat × Nat × Nat)) : (s.wrAll l).swaps = s.swaps := by rw [State.wrAll_only]
@[simp] theorem State.wrAll_spareNeeds (s : State) (l : List (Field × Nat × Nat × Nat)) : (s.wrAll l).spareNeeds = s.spareNeeds := by rw [State.wrAll_only]
@[simp] theorem State.wrAll_arrivals (s : State) (l : List (Field × Nat × Nat × Nat)) : (s.wrAll l).arrivals = s.arrivals := by rw [State.wrAll_only]
@[simp] theorem State.wrAll_barDone (s : State) (l : List (Field × Nat × Nat × Nat)) : (s.wrAll l).barDone = s.barDone := by rw [State.wrAll_only]
@[simp] theorem State.wrAll_barSent (s : State) (l : List (Field × Nat × Nat × Nat)) : (s.wrAll l).barSent = s.barSent := by rw [State.wrAll_only]
@[simp] theorem State.wrAll_tokens (s : State) (l : List (Field × Nat × Nat × Nat)) : (s.wrAll l).tokens = s.tokens := by rw [State.wrAll_only]
@[simp] theorem State.wrAll_links (s : State) (l : List (Field × Nat × Nat × Nat)) : (s.wrAll l).links = s.links := by rw [State.wrAll_only]
@[simp] theorem State.wrAll_repairMap (s : State) (l : List (Field × Nat × Nat × Nat)) : (s.wrAll l).repairMap = s.repairMap := by rw [State.wrAll_only]
@[simp] theorem State.wrAll_ceLog (s : State) (l : List (Field × Nat × Nat × Nat)) : (s.wrAll l).ceLog = s.ceLog := by rw [State.wrAll_only]
@[simp] theorem State.wrAll_samples (s : State) (l : List (Field × Nat × Nat × Nat)) : (s.wrAll l).samples = s.samples := by rw [State.wrAll_only]
@[simp] theorem State.wrAll_idleDebt (s : State) (l : List (Field × Nat × Nat × Nat)) : (s.wrAll l).idleDebt = s.idleDebt := by rw [State.wrAll_only]
@[simp] theorem State.wrAll_droops (s : State) (l : List (Field × Nat × Nat × Nat)) : (s.wrAll l).droops = s.droops := by rw [State.wrAll_only]
@[simp] theorem State.wrAll_flashQ (s : State) (l : List (Field × Nat × Nat × Nat)) : (s.wrAll l).flashQ = s.flashQ := by rw [State.wrAll_only]
@[simp] theorem State.wrAll_keys (s : State) (l : List (Field × Nat × Nat × Nat)) : (s.wrAll l).keys = s.keys := by rw [State.wrAll_only]
@[simp] theorem State.wrAll_images (s : State) (l : List (Field × Nat × Nat × Nat)) : (s.wrAll l).images = s.images := by rw [State.wrAll_only]
@[simp] theorem State.wrAll_flashMap (s : State) (l : List (Field × Nat × Nat × Nat)) : (s.wrAll l).flashMap = s.flashMap := by rw [State.wrAll_only]
@[simp] theorem State.wrAll_image (s : State) (l : List (Field × Nat × Nat × Nat)) : (s.wrAll l).image = s.image := by rw [State.wrAll_only]
@[simp] theorem State.wrAll_upload (s : State) (l : List (Field × Nat × Nat × Nat)) : (s.wrAll l).upload = s.upload := by rw [State.wrAll_only]
@[simp] theorem State.wrAll_snaps (s : State) (l : List (Field × Nat × Nat × Nat)) : (s.wrAll l).snaps = s.snaps := by rw [State.wrAll_only]
@[simp] theorem State.wrAll_badWords (s : State) (l : List (Field × Nat × Nat × Nat)) : (s.wrAll l).badWords = s.badWords := by rw [State.wrAll_only]
@[simp] theorem State.wrAll_relays (s : State) (l : List (Field × Nat × Nat × Nat)) : (s.wrAll l).relays = s.relays := by rw [State.wrAll_only]
@[simp] theorem State.wrAll_early (s : State) (l : List (Field × Nat × Nat × Nat)) : (s.wrAll l).early = s.early := by rw [State.wrAll_only]
@[simp] theorem State.wrAll_mgtJobs (s : State) (l : List (Field × Nat × Nat × Nat)) : (s.wrAll l).mgtJobs = s.mgtJobs := by rw [State.wrAll_only]
@[simp] theorem State.wrAll_moe (s : State) (l : List (Field × Nat × Nat × Nat)) : (s.wrAll l).moe = s.moe := by rw [State.wrAll_only]
@[simp] theorem State.wrAll_cache (s : State) (l : List (Field × Nat × Nat × Nat)) : (s.wrAll l).cache = s.cache := by rw [State.wrAll_only]
@[simp] theorem State.wrAll_fades (s : State) (l : List (Field × Nat × Nat × Nat)) : (s.wrAll l).fades = s.fades := by rw [State.wrAll_only]
@[simp] theorem State.wrAll_dropped (s : State) (l : List (Field × Nat × Nat × Nat)) : (s.wrAll l).dropped = s.dropped := by rw [State.wrAll_only]
@[simp] theorem State.wrAll_out (s : State) (l : List (Field × Nat × Nat × Nat)) : (s.wrAll l).out = s.out := by rw [State.wrAll_only]
@[simp] theorem State.wrAll_freeCount (s : State) (l : List (Field × Nat × Nat × Nat)) : (s.wrAll l).freeCount = s.freeCount := by rw [State.wrAll_only]
@[simp] theorem State.wrAll_pending (s : State) (l : List (Field × Nat × Nat × Nat)) : (s.wrAll l).pending = s.pending := by rw [State.wrAll_only]

@[simp] theorem State.tickBy_mem (s : State) (n : Nat) : (s.tickBy n).mem = s.mem := by rw [State.tickBy_only]
@[simp] theorem State.tickBy_presses (s : State) (n : Nat) : (s.tickBy n).presses = s.presses := by rw [State.tickBy_only]
@[simp] theorem State.tickBy_active (s : State) (n : Nat) : (s.tickBy n).active = s.active := by rw [State.tickBy_only]
@[simp] theorem State.tickBy_loaded (s : State) (n : Nat) : (s.tickBy n).loaded = s.loaded := by rw [State.tickBy_only]
@[simp] theorem State.tickBy_pendingBytes (s : State) (n : Nat) : (s.tickBy n).pendingBytes = s.pendingBytes := by rw [State.tickBy_only]
@[simp] theorem State.tickBy_jobs (s : State) (n : Nat) : (s.tickBy n).jobs = s.jobs := by rw [State.tickBy_only]
@[simp] theorem State.tickBy_lateXfers (s : State) (n : Nat) : (s.tickBy n).lateXfers = s.lateXfers := by rw [State.tickBy_only]
@[simp] theorem State.tickBy_heldAccs (s : State) (n : Nat) : (s.tickBy n).heldAccs = s.heldAccs := by rw [State.tickBy_only]
@[simp] theorem State.tickBy_drains (s : State) (n : Nat) : (s.tickBy n).drains = s.drains := by rw [State.tickBy_only]
@[simp] theorem State.tickBy_dirtyOut (s : State) (n : Nat) : (s.tickBy n).dirtyOut = s.dirtyOut := by rw [State.tickBy_only]
@[simp] theorem State.tickBy_dirtyShared (s : State) (n : Nat) : (s.tickBy n).dirtyShared = s.dirtyShared := by rw [State.tickBy_only]
@[simp] theorem State.tickBy_mirrorGot (s : State) (n : Nat) : (s.tickBy n).mirrorGot = s.mirrorGot := by rw [State.tickBy_only]
@[simp] theorem State.tickBy_bases (s : State) (n : Nat) : (s.tickBy n).bases = s.bases := by rw [State.tickBy_only]
@[simp] theorem State.tickBy_mgtLast (s : State) (n : Nat) : (s.tickBy n).mgtLast = s.mgtLast := by rw [State.tickBy_only]
@[simp] theorem State.tickBy_log (s : State) (n : Nat) : (s.tickBy n).log = s.log := by rw [State.tickBy_only]
@[simp] theorem State.tickBy_calJobs (s : State) (n : Nat) : (s.tickBy n).calJobs = s.calJobs := by rw [State.tickBy_only]
@[simp] theorem State.tickBy_calRuns (s : State) (n : Nat) : (s.tickBy n).calRuns = s.calRuns := by rw [State.tickBy_only]
@[simp] theorem State.tickBy_calFails (s : State) (n : Nat) : (s.tickBy n).calFails = s.calFails := by rw [State.tickBy_only]
@[simp] theorem State.tickBy_ringErr (s : State) (n : Nat) : (s.tickBy n).ringErr = s.ringErr := by rw [State.tickBy_only]
@[simp] theorem State.tickBy_mislocks (s : State) (n : Nat) : (s.tickBy n).mislocks = s.mislocks := by rw [State.tickBy_only]
@[simp] theorem State.tickBy_swaps (s : State) (n : Nat) : (s.tickBy n).swaps = s.swaps := by rw [State.tickBy_only]
@[simp] theorem State.tickBy_spareNeeds (s : State) (n : Nat) : (s.tickBy n).spareNeeds = s.spareNeeds := by rw [State.tickBy_only]
@[simp] theorem State.tickBy_arrivals (s : State) (n : Nat) : (s.tickBy n).arrivals = s.arrivals := by rw [State.tickBy_only]
@[simp] theorem State.tickBy_barDone (s : State) (n : Nat) : (s.tickBy n).barDone = s.barDone := by rw [State.tickBy_only]
@[simp] theorem State.tickBy_barSent (s : State) (n : Nat) : (s.tickBy n).barSent = s.barSent := by rw [State.tickBy_only]
@[simp] theorem State.tickBy_tokens (s : State) (n : Nat) : (s.tickBy n).tokens = s.tokens := by rw [State.tickBy_only]
@[simp] theorem State.tickBy_links (s : State) (n : Nat) : (s.tickBy n).links = s.links := by rw [State.tickBy_only]
@[simp] theorem State.tickBy_repairMap (s : State) (n : Nat) : (s.tickBy n).repairMap = s.repairMap := by rw [State.tickBy_only]
@[simp] theorem State.tickBy_ceLog (s : State) (n : Nat) : (s.tickBy n).ceLog = s.ceLog := by rw [State.tickBy_only]
@[simp] theorem State.tickBy_samples (s : State) (n : Nat) : (s.tickBy n).samples = s.samples := by rw [State.tickBy_only]
@[simp] theorem State.tickBy_idleDebt (s : State) (n : Nat) : (s.tickBy n).idleDebt = s.idleDebt := by rw [State.tickBy_only]
@[simp] theorem State.tickBy_droops (s : State) (n : Nat) : (s.tickBy n).droops = s.droops := by rw [State.tickBy_only]
@[simp] theorem State.tickBy_flashQ (s : State) (n : Nat) : (s.tickBy n).flashQ = s.flashQ := by rw [State.tickBy_only]
@[simp] theorem State.tickBy_keys (s : State) (n : Nat) : (s.tickBy n).keys = s.keys := by rw [State.tickBy_only]
@[simp] theorem State.tickBy_images (s : State) (n : Nat) : (s.tickBy n).images = s.images := by rw [State.tickBy_only]
@[simp] theorem State.tickBy_flashMap (s : State) (n : Nat) : (s.tickBy n).flashMap = s.flashMap := by rw [State.tickBy_only]
@[simp] theorem State.tickBy_image (s : State) (n : Nat) : (s.tickBy n).image = s.image := by rw [State.tickBy_only]
@[simp] theorem State.tickBy_upload (s : State) (n : Nat) : (s.tickBy n).upload = s.upload := by rw [State.tickBy_only]
@[simp] theorem State.tickBy_snaps (s : State) (n : Nat) : (s.tickBy n).snaps = s.snaps := by rw [State.tickBy_only]
@[simp] theorem State.tickBy_badWords (s : State) (n : Nat) : (s.tickBy n).badWords = s.badWords := by rw [State.tickBy_only]
@[simp] theorem State.tickBy_relays (s : State) (n : Nat) : (s.tickBy n).relays = s.relays := by rw [State.tickBy_only]
@[simp] theorem State.tickBy_early (s : State) (n : Nat) : (s.tickBy n).early = s.early := by rw [State.tickBy_only]
@[simp] theorem State.tickBy_mgtJobs (s : State) (n : Nat) : (s.tickBy n).mgtJobs = s.mgtJobs := by rw [State.tickBy_only]
@[simp] theorem State.tickBy_moe (s : State) (n : Nat) : (s.tickBy n).moe = s.moe := by rw [State.tickBy_only]
@[simp] theorem State.tickBy_cache (s : State) (n : Nat) : (s.tickBy n).cache = s.cache := by rw [State.tickBy_only]
@[simp] theorem State.tickBy_fades (s : State) (n : Nat) : (s.tickBy n).fades = s.fades := by rw [State.tickBy_only]
@[simp] theorem State.tickBy_dropped (s : State) (n : Nat) : (s.tickBy n).dropped = s.dropped := by rw [State.tickBy_only]
@[simp] theorem State.tickBy_out (s : State) (n : Nat) : (s.tickBy n).out = s.out := by rw [State.tickBy_only]
@[simp] theorem State.tickBy_freeCount (s : State) (n : Nat) : (s.tickBy n).freeCount = s.freeCount := by rw [State.tickBy_only]
@[simp] theorem State.tickBy_pending (s : State) (n : Nat) : (s.tickBy n).pending = s.pending := by rw [State.tickBy_only]

@[simp] theorem State.stamp_mem (s : State) (t : Nat) : (s.stamp t).mem = s.mem := by rw [State.stamp_only]
@[simp] theorem State.stamp_presses (s : State) (t : Nat) : (s.stamp t).presses = s.presses := by rw [State.stamp_only]
@[simp] theorem State.stamp_active (s : State) (t : Nat) : (s.stamp t).active = s.active := by rw [State.stamp_only]
@[simp] theorem State.stamp_loaded (s : State) (t : Nat) : (s.stamp t).loaded = s.loaded := by rw [State.stamp_only]
@[simp] theorem State.stamp_pendingBytes (s : State) (t : Nat) : (s.stamp t).pendingBytes = s.pendingBytes := by rw [State.stamp_only]
@[simp] theorem State.stamp_jobs (s : State) (t : Nat) : (s.stamp t).jobs = s.jobs := by rw [State.stamp_only]
@[simp] theorem State.stamp_lateXfers (s : State) (t : Nat) : (s.stamp t).lateXfers = s.lateXfers := by rw [State.stamp_only]
@[simp] theorem State.stamp_heldAccs (s : State) (t : Nat) : (s.stamp t).heldAccs = s.heldAccs := by rw [State.stamp_only]
@[simp] theorem State.stamp_drains (s : State) (t : Nat) : (s.stamp t).drains = s.drains := by rw [State.stamp_only]
@[simp] theorem State.stamp_dirtyOut (s : State) (t : Nat) : (s.stamp t).dirtyOut = s.dirtyOut := by rw [State.stamp_only]
@[simp] theorem State.stamp_dirtyShared (s : State) (t : Nat) : (s.stamp t).dirtyShared = s.dirtyShared := by rw [State.stamp_only]
@[simp] theorem State.stamp_mirrorGot (s : State) (t : Nat) : (s.stamp t).mirrorGot = s.mirrorGot := by rw [State.stamp_only]
@[simp] theorem State.stamp_bases (s : State) (t : Nat) : (s.stamp t).bases = s.bases := by rw [State.stamp_only]
@[simp] theorem State.stamp_mgtLast (s : State) (t : Nat) : (s.stamp t).mgtLast = s.mgtLast := by rw [State.stamp_only]
@[simp] theorem State.stamp_log (s : State) (t : Nat) : (s.stamp t).log = s.log := by rw [State.stamp_only]
@[simp] theorem State.stamp_calJobs (s : State) (t : Nat) : (s.stamp t).calJobs = s.calJobs := by rw [State.stamp_only]
@[simp] theorem State.stamp_calRuns (s : State) (t : Nat) : (s.stamp t).calRuns = s.calRuns := by rw [State.stamp_only]
@[simp] theorem State.stamp_calFails (s : State) (t : Nat) : (s.stamp t).calFails = s.calFails := by rw [State.stamp_only]
@[simp] theorem State.stamp_ringErr (s : State) (t : Nat) : (s.stamp t).ringErr = s.ringErr := by rw [State.stamp_only]
@[simp] theorem State.stamp_mislocks (s : State) (t : Nat) : (s.stamp t).mislocks = s.mislocks := by rw [State.stamp_only]
@[simp] theorem State.stamp_swaps (s : State) (t : Nat) : (s.stamp t).swaps = s.swaps := by rw [State.stamp_only]
@[simp] theorem State.stamp_spareNeeds (s : State) (t : Nat) : (s.stamp t).spareNeeds = s.spareNeeds := by rw [State.stamp_only]
@[simp] theorem State.stamp_arrivals (s : State) (t : Nat) : (s.stamp t).arrivals = s.arrivals := by rw [State.stamp_only]
@[simp] theorem State.stamp_barDone (s : State) (t : Nat) : (s.stamp t).barDone = s.barDone := by rw [State.stamp_only]
@[simp] theorem State.stamp_barSent (s : State) (t : Nat) : (s.stamp t).barSent = s.barSent := by rw [State.stamp_only]
@[simp] theorem State.stamp_tokens (s : State) (t : Nat) : (s.stamp t).tokens = s.tokens := by rw [State.stamp_only]
@[simp] theorem State.stamp_links (s : State) (t : Nat) : (s.stamp t).links = s.links := by rw [State.stamp_only]
@[simp] theorem State.stamp_repairMap (s : State) (t : Nat) : (s.stamp t).repairMap = s.repairMap := by rw [State.stamp_only]
@[simp] theorem State.stamp_ceLog (s : State) (t : Nat) : (s.stamp t).ceLog = s.ceLog := by rw [State.stamp_only]
@[simp] theorem State.stamp_samples (s : State) (t : Nat) : (s.stamp t).samples = s.samples := by rw [State.stamp_only]
@[simp] theorem State.stamp_idleDebt (s : State) (t : Nat) : (s.stamp t).idleDebt = s.idleDebt := by rw [State.stamp_only]
@[simp] theorem State.stamp_droops (s : State) (t : Nat) : (s.stamp t).droops = s.droops := by rw [State.stamp_only]
@[simp] theorem State.stamp_flashQ (s : State) (t : Nat) : (s.stamp t).flashQ = s.flashQ := by rw [State.stamp_only]
@[simp] theorem State.stamp_keys (s : State) (t : Nat) : (s.stamp t).keys = s.keys := by rw [State.stamp_only]
@[simp] theorem State.stamp_images (s : State) (t : Nat) : (s.stamp t).images = s.images := by rw [State.stamp_only]
@[simp] theorem State.stamp_flashMap (s : State) (t : Nat) : (s.stamp t).flashMap = s.flashMap := by rw [State.stamp_only]
@[simp] theorem State.stamp_image (s : State) (t : Nat) : (s.stamp t).image = s.image := by rw [State.stamp_only]
@[simp] theorem State.stamp_upload (s : State) (t : Nat) : (s.stamp t).upload = s.upload := by rw [State.stamp_only]
@[simp] theorem State.stamp_snaps (s : State) (t : Nat) : (s.stamp t).snaps = s.snaps := by rw [State.stamp_only]
@[simp] theorem State.stamp_badWords (s : State) (t : Nat) : (s.stamp t).badWords = s.badWords := by rw [State.stamp_only]
@[simp] theorem State.stamp_relays (s : State) (t : Nat) : (s.stamp t).relays = s.relays := by rw [State.stamp_only]
@[simp] theorem State.stamp_early (s : State) (t : Nat) : (s.stamp t).early = s.early := by rw [State.stamp_only]
@[simp] theorem State.stamp_mgtJobs (s : State) (t : Nat) : (s.stamp t).mgtJobs = s.mgtJobs := by rw [State.stamp_only]
@[simp] theorem State.stamp_moe (s : State) (t : Nat) : (s.stamp t).moe = s.moe := by rw [State.stamp_only]
@[simp] theorem State.stamp_cache (s : State) (t : Nat) : (s.stamp t).cache = s.cache := by rw [State.stamp_only]
@[simp] theorem State.stamp_fades (s : State) (t : Nat) : (s.stamp t).fades = s.fades := by rw [State.stamp_only]
@[simp] theorem State.stamp_dropped (s : State) (t : Nat) : (s.stamp t).dropped = s.dropped := by rw [State.stamp_only]
@[simp] theorem State.stamp_out (s : State) (t : Nat) : (s.stamp t).out = s.out := by rw [State.stamp_only]
@[simp] theorem State.stamp_freeCount (s : State) (t : Nat) : (s.stamp t).freeCount = s.freeCount := by rw [State.stamp_only]
@[simp] theorem State.stamp_pending (s : State) (t : Nat) : (s.stamp t).pending = s.pending := by rw [State.stamp_only]

@[simp] theorem State.irqDeliver_mem (s : State)  : (s.irqDeliver).mem = s.mem := by rw [State.irqDeliver_only]
@[simp] theorem State.irqDeliver_presses (s : State)  : (s.irqDeliver).presses = s.presses := by rw [State.irqDeliver_only]
@[simp] theorem State.irqDeliver_active (s : State)  : (s.irqDeliver).active = s.active := by rw [State.irqDeliver_only]
@[simp] theorem State.irqDeliver_loaded (s : State)  : (s.irqDeliver).loaded = s.loaded := by rw [State.irqDeliver_only]
@[simp] theorem State.irqDeliver_pendingBytes (s : State)  : (s.irqDeliver).pendingBytes = s.pendingBytes := by rw [State.irqDeliver_only]
@[simp] theorem State.irqDeliver_jobs (s : State)  : (s.irqDeliver).jobs = s.jobs := by rw [State.irqDeliver_only]
@[simp] theorem State.irqDeliver_lateXfers (s : State)  : (s.irqDeliver).lateXfers = s.lateXfers := by rw [State.irqDeliver_only]
@[simp] theorem State.irqDeliver_heldAccs (s : State)  : (s.irqDeliver).heldAccs = s.heldAccs := by rw [State.irqDeliver_only]
@[simp] theorem State.irqDeliver_drains (s : State)  : (s.irqDeliver).drains = s.drains := by rw [State.irqDeliver_only]
@[simp] theorem State.irqDeliver_dirtyOut (s : State)  : (s.irqDeliver).dirtyOut = s.dirtyOut := by rw [State.irqDeliver_only]
@[simp] theorem State.irqDeliver_dirtyShared (s : State)  : (s.irqDeliver).dirtyShared = s.dirtyShared := by rw [State.irqDeliver_only]
@[simp] theorem State.irqDeliver_mirrorGot (s : State)  : (s.irqDeliver).mirrorGot = s.mirrorGot := by rw [State.irqDeliver_only]
@[simp] theorem State.irqDeliver_bases (s : State)  : (s.irqDeliver).bases = s.bases := by rw [State.irqDeliver_only]
@[simp] theorem State.irqDeliver_mgtLast (s : State)  : (s.irqDeliver).mgtLast = s.mgtLast := by rw [State.irqDeliver_only]
@[simp] theorem State.irqDeliver_log (s : State)  : (s.irqDeliver).log = s.log := by rw [State.irqDeliver_only]
@[simp] theorem State.irqDeliver_calJobs (s : State)  : (s.irqDeliver).calJobs = s.calJobs := by rw [State.irqDeliver_only]
@[simp] theorem State.irqDeliver_calRuns (s : State)  : (s.irqDeliver).calRuns = s.calRuns := by rw [State.irqDeliver_only]
@[simp] theorem State.irqDeliver_calFails (s : State)  : (s.irqDeliver).calFails = s.calFails := by rw [State.irqDeliver_only]
@[simp] theorem State.irqDeliver_ringErr (s : State)  : (s.irqDeliver).ringErr = s.ringErr := by rw [State.irqDeliver_only]
@[simp] theorem State.irqDeliver_mislocks (s : State)  : (s.irqDeliver).mislocks = s.mislocks := by rw [State.irqDeliver_only]
@[simp] theorem State.irqDeliver_swaps (s : State)  : (s.irqDeliver).swaps = s.swaps := by rw [State.irqDeliver_only]
@[simp] theorem State.irqDeliver_spareNeeds (s : State)  : (s.irqDeliver).spareNeeds = s.spareNeeds := by rw [State.irqDeliver_only]
@[simp] theorem State.irqDeliver_arrivals (s : State)  : (s.irqDeliver).arrivals = s.arrivals := by rw [State.irqDeliver_only]
@[simp] theorem State.irqDeliver_barDone (s : State)  : (s.irqDeliver).barDone = s.barDone := by rw [State.irqDeliver_only]
@[simp] theorem State.irqDeliver_barSent (s : State)  : (s.irqDeliver).barSent = s.barSent := by rw [State.irqDeliver_only]
@[simp] theorem State.irqDeliver_tokens (s : State)  : (s.irqDeliver).tokens = s.tokens := by rw [State.irqDeliver_only]
@[simp] theorem State.irqDeliver_links (s : State)  : (s.irqDeliver).links = s.links := by rw [State.irqDeliver_only]
@[simp] theorem State.irqDeliver_repairMap (s : State)  : (s.irqDeliver).repairMap = s.repairMap := by rw [State.irqDeliver_only]
@[simp] theorem State.irqDeliver_ceLog (s : State)  : (s.irqDeliver).ceLog = s.ceLog := by rw [State.irqDeliver_only]
@[simp] theorem State.irqDeliver_samples (s : State)  : (s.irqDeliver).samples = s.samples := by rw [State.irqDeliver_only]
@[simp] theorem State.irqDeliver_idleDebt (s : State)  : (s.irqDeliver).idleDebt = s.idleDebt := by rw [State.irqDeliver_only]
@[simp] theorem State.irqDeliver_droops (s : State)  : (s.irqDeliver).droops = s.droops := by rw [State.irqDeliver_only]
@[simp] theorem State.irqDeliver_flashQ (s : State)  : (s.irqDeliver).flashQ = s.flashQ := by rw [State.irqDeliver_only]
@[simp] theorem State.irqDeliver_keys (s : State)  : (s.irqDeliver).keys = s.keys := by rw [State.irqDeliver_only]
@[simp] theorem State.irqDeliver_images (s : State)  : (s.irqDeliver).images = s.images := by rw [State.irqDeliver_only]
@[simp] theorem State.irqDeliver_flashMap (s : State)  : (s.irqDeliver).flashMap = s.flashMap := by rw [State.irqDeliver_only]
@[simp] theorem State.irqDeliver_image (s : State)  : (s.irqDeliver).image = s.image := by rw [State.irqDeliver_only]
@[simp] theorem State.irqDeliver_upload (s : State)  : (s.irqDeliver).upload = s.upload := by rw [State.irqDeliver_only]
@[simp] theorem State.irqDeliver_snaps (s : State)  : (s.irqDeliver).snaps = s.snaps := by rw [State.irqDeliver_only]
@[simp] theorem State.irqDeliver_badWords (s : State)  : (s.irqDeliver).badWords = s.badWords := by rw [State.irqDeliver_only]
@[simp] theorem State.irqDeliver_relays (s : State)  : (s.irqDeliver).relays = s.relays := by rw [State.irqDeliver_only]
@[simp] theorem State.irqDeliver_early (s : State)  : (s.irqDeliver).early = s.early := by rw [State.irqDeliver_only]
@[simp] theorem State.irqDeliver_mgtJobs (s : State)  : (s.irqDeliver).mgtJobs = s.mgtJobs := by rw [State.irqDeliver_only]
@[simp] theorem State.irqDeliver_moe (s : State)  : (s.irqDeliver).moe = s.moe := by rw [State.irqDeliver_only]
@[simp] theorem State.irqDeliver_cache (s : State)  : (s.irqDeliver).cache = s.cache := by rw [State.irqDeliver_only]
@[simp] theorem State.irqDeliver_fades (s : State)  : (s.irqDeliver).fades = s.fades := by rw [State.irqDeliver_only]
@[simp] theorem State.irqDeliver_dropped (s : State)  : (s.irqDeliver).dropped = s.dropped := by rw [State.irqDeliver_only]
@[simp] theorem State.irqDeliver_out (s : State)  : (s.irqDeliver).out = s.out := by rw [State.irqDeliver_only]
@[simp] theorem State.irqDeliver_freeCount (s : State)  : (s.irqDeliver).freeCount = s.freeCount := by rw [State.irqDeliver_only]
@[simp] theorem State.irqDeliver_pending (s : State)  : (s.irqDeliver).pending = s.pending := by rw [State.irqDeliver_only]

/-! ### Time and interrupts -/

/-- Time moves only its own fields (R5). -/
theorem State.rd_tickBy (s : State) (n : Nat) (f : Field) (i j : Nat)
    (h : f ≠ .modTickTick ∧ f ≠ .galCycleCycle ∧ f ≠ .hSurvTick) :
    (s.tickBy n).rd f i j = s.rd f i j := by
  unfold State.tickBy
  dsimp only
  split
  · simp only [State.rd_wrap, h.1.symm, h.2.1.symm, h.2.2.symm, false_and, if_false]; rfl
  · rfl

/-- The stamp of an event moves only the time fields (R7). -/
theorem State.rd_stamp (s : State) (t : Nat) (f : Field) (i j : Nat)
    (h : f ≠ .modTickTick ∧ f ≠ .galCycleCycle ∧ f ≠ .hSurvTick) :
    (s.stamp t).rd f i j = s.rd f i j := State.rd_tickBy s _ f i j h

@[simp] theorem State.press_stamp (s : State) (t p : Nat) : (s.stamp t).press p = s.press p := by
  unfold State.press; simp

@[simp] theorem State.link_stamp (s : State) (t n : Nat) : (s.stamp t).link n = s.link n := by
  unfold State.link; simp

theorem State.rd_each {α : Type} (l : List α) (g : State → α → State) (f : Field) (i j : Nat)
    (h : ∀ s a, (g s a).rd f i j = s.rd f i j) (s : State) :
    (s.each l g).rd f i j = s.rd f i j := by
  induction l generalizing s with
  | nil => rfl
  | cons a l ih => exact (ih (g s a)).trans (h s a)

theorem State.rd_irqOne (s : State) (k : Nat) (f : Field) (i j : Nat)
    (h : f ≠ .hCoreMeip ∧ f ≠ .hCoreSeip ∧ f ≠ .coreIrqRouteRerouted) :
    (s.irqOne k).rd f i j = s.rd f i j := by
  unfold State.irqOne
  repeat' split
  all_goals first
    | rfl
    | (dsimp only; split <;> simp [State.rd_wr, h.1.symm, h.2.1.symm, h.2.2.symm])

/-- Delivery of interrupts moves only the pending bits and the rerouted flags (R483). -/
theorem State.rd_irqDeliver (s : State) (f : Field) (i j : Nat)
    (h : f ≠ .hCoreMeip ∧ f ≠ .hCoreSeip ∧ f ≠ .coreIrqRouteRerouted) :
    s.irqDeliver.rd f i j = s.rd f i j := by
  unfold State.irqDeliver
  rw [State.rd_each _ _ f i j (fun s k => State.rd_irqOne s k f i j h)]
  exact State.rd_each _ _ f i j (fun s n => by simp [State.rd_clr, h.1.symm, h.2.1.symm]) s

end Sys2Proof.Machine
end

