-- ==== Sys2Proof/Laws/Memory.lean ====
section
/-!
SUPPORT. The byte memories: reads after writes, and the canonical form, which every operation keeps.
-/

namespace Sys2Proof.Machine

theorem Memory.get_nil (a : Nat) : Memory.get [] a = Memory.blank := rfl

theorem Memory.get_below (lo : Nat) (m : Memory) (a : Nat) (h : Memory.wfFrom lo m = true) (ha : a < lo) :
    m.get a = Memory.blank := by
  cases m with
  | nil => rfl
  | cons c r =>
    simp [Memory.wfFrom] at h
    have : a < c.1 := by omega
    simp [Memory.get, this]

theorem Memory.get_set_from (lo : Nat) (m : Memory) (a x : Nat) (v : Byte)
    (h : Memory.wfFrom lo m = true) :
    (m.set a v).get x = if x = a then v else m.get x := by
  induction m generalizing lo with
  | nil =>
    unfold Memory.set
    by_cases hv : v = Memory.blank
    · simp [hv, Memory.get]
    · simp only [hv, if_false, Memory.get]
      by_cases hx : x = a
      · simp [hx]
      · simp [hx]
  | cons c r ih =>
    simp [Memory.wfFrom] at h
    have hr := h.2
    unfold Memory.set
    by_cases h1 : a < c.1
    · simp only [h1, if_true]
      by_cases hv : v = Memory.blank
      · simp only [hv, if_true]
        by_cases hx : x = a
        · subst hx; simp [Memory.get, h1]
        · simp [hx]
      · simp only [hv, if_false]
        rw [Memory.get]
        by_cases hx : x = a
        · simp [hx]
        · by_cases hl : x < a
          · have : x < c.1 := by omega
            simp [hl, hx, Memory.get, this]
          · simp [hl, hx]
    · simp only [h1, if_false]
      by_cases h2 : a = c.1
      · simp only [h2, if_true]
        by_cases hv : v = Memory.blank
        · simp only [hv, if_true]
          by_cases hx : x = c.1
          · subst hx; simp [Memory.get_below _ r _ hr (Nat.lt_succ_self _)]
          · by_cases hl : x < c.1
            · simp [Memory.get, hl, hx, Memory.get_below _ r x hr (by omega)]
            · simp [Memory.get, hl, hx]
        · simp only [hv, if_false]
          by_cases hx : x = c.1
          · subst hx; simp [Memory.get]
          · simp [Memory.get, hx]
      · simp only [h2, if_false]
        rw [Memory.get]
        by_cases hl : x < c.1
        · have : x ≠ a := by omega
          simp [hl, this, Memory.get]
        · simp only [hl, if_false]
          by_cases hx : x = c.1
          · have : x ≠ a := by omega
            simp [hx, Memory.get]
            intro hh; omega
          · simp only [hx, if_false]
            rw [ih _ hr]
            by_cases hxa : x = a
            · simp [hxa]
            · simp [hxa, Memory.get, hl, hx]

/-- A byte read after a byte written. -/
theorem Memory.get_set (m : Memory) (a x : Nat) (v : Byte) (h : m.wf = true) :
    (m.set a v).get x = if x = a then v else m.get x := Memory.get_set_from 0 m a x v h

theorem Memory.wfFrom_mono (lo lo' : Nat) (m : Memory) (h : Memory.wfFrom lo m = true) (hl : lo' ≤ lo) :
    Memory.wfFrom lo' m = true := by
  cases m with
  | nil => rfl
  | cons c r => simp [Memory.wfFrom] at h ⊢; exact ⟨⟨by omega, h.1.2⟩, h.2⟩

theorem Memory.wfFrom_set (lo : Nat) (m : Memory) (a : Nat) (v : Byte) (h : Memory.wfFrom lo m = true)
    (ha : lo ≤ a) : Memory.wfFrom lo (m.set a v) = true := by
  induction m generalizing lo with
  | nil =>
    unfold Memory.set
    by_cases hv : v = Memory.blank
    · simp [hv, Memory.wfFrom]
    · simp [hv, Memory.wfFrom, ha]
  | cons c r ih =>
    have h0 := h
    simp [Memory.wfFrom] at h
    unfold Memory.set
    by_cases h1 : a < c.1
    · simp only [h1, if_true]
      by_cases hv : v = Memory.blank
      · simpa [hv] using h0
      · simp only [hv, if_false]
        simp [Memory.wfFrom, ha, hv, h.1.2, h.2]
        omega
    · simp only [h1, if_false]
      by_cases h2 : a = c.1
      · simp only [h2, if_true]
        by_cases hv : v = Memory.blank
        · simp only [hv, if_true]
          exact Memory.wfFrom_mono _ _ r h.2 (by omega)
        · simp [hv, Memory.wfFrom, h.1.1, h.2]
      · simp only [h2, if_false]
        simp only [Memory.wfFrom, h.1.1, h.1.2, decide_true, Bool.true_and, ne_eq, not_false_iff]
        exact ih _ h.2 (by omega)

/-- A byte written keeps the canonical form. -/
theorem Memory.wf_set (m : Memory) (a : Nat) (v : Byte) (h : m.wf = true) : (m.set a v).wf = true :=
  Memory.wfFrom_set 0 m a v h (Nat.zero_le a)

/-- Bytes written keep the canonical form. -/
theorem Memory.wf_write (m : Memory) (a : Nat) (bs : List Byte) (h : m.wf = true) :
    (m.write a bs).wf = true := by
  induction bs generalizing m a with
  | nil => exact h
  | cons b r ih => exact ih _ _ (Memory.wf_set m a b h)

/-- A byte read after bytes written. -/
theorem Memory.get_write (m : Memory) (a x : Nat) (bs : List Byte) (h : m.wf = true) :
    (m.write a bs).get x = if a ≤ x ∧ x < a + bs.length then bs.getD (x - a) 0 else m.get x := by
  induction bs generalizing m a with
  | nil =>
    have : ¬(a ≤ x ∧ x < a) := by omega
    simp [Memory.write, this]
  | cons b r ih =>
    rw [Memory.write, ih _ _ (Memory.wf_set m a b h), Memory.get_set m a x b h]
    by_cases h1 : x = a
    · subst h1
      simp
    · by_cases h2 : a ≤ x ∧ x < a + (b :: r).length
      · have h3 : a + 1 ≤ x ∧ x < a + 1 + r.length := by
          simp at h2; omega
        have h4 : x - a = (x - (a + 1)) + 1 := by omega
        rw [if_pos h3, if_pos h2, h4, List.getD_cons_succ]
      · have h3 : ¬(a + 1 ≤ x ∧ x < a + 1 + r.length) := by
          simp at h2; omega
        rw [if_neg h3, if_neg h2, if_neg h1]

end Sys2Proof.Machine
end

