-- ==== Sys2Proof/Laws/Frame.lean ====
section
/-!
SUPPORT. Footprints: which groups of numbers and which parts of the state an operation can move, and that it
keeps the invariant. Rules for the elementary updates; Laws/Moves*.lean has one lemma for each operation.
-/

namespace Sys2Proof.Machine

/-- From s to t only the listed groups and parts move, and the invariant is kept. -/
def Moves (as : List Area) (ps : List Part) (s t : State) : Prop :=
  touches as ps s t ∧ (s.inv = true → t.inv = true)

/-- The same of a command's outcome. -/
def ResMoves (as : List Area) (ps : List Part) (s : State) (r : Res) : Prop :=
  ∀ t, r = .next t → Moves as ps s t

/-- A press whose case is in its one form. -/
def Press.Ok (x : Press) : Prop := x.caseMem.wf = true

/-! ### The invariant's parts -/

theorem tableWf_cons (e : RKey × Nat) (r : SMap RKey Nat) :
    tableWf (e :: r) = true ↔ (e.2 = e.1.f.fit e.2 ∧ e.2 ≠ e.1.f.spec.reset) ∧
      (∀ x ∈ r, x.1 ≠ e.1) ∧ tableWf r = true := by
  simp [tableWf, and_assoc]

theorem tableWf_filter (m : SMap RKey Nat) (p : RKey × Nat → Bool) (h : tableWf m = true) :
    tableWf (m.filter p) = true := by
  induction m with
  | nil => rfl
  | cons e m ih =>
    rw [tableWf_cons] at h
    by_cases hp : p e = true
    · rw [List.filter_cons_of_pos hp, tableWf_cons]
      exact ⟨h.1, fun x hx => h.2.1 x (List.mem_filter.mp hx).1, ih h.2.2⟩
    · rw [List.filter_cons_of_neg hp]; exact ih h.2.2

theorem tableWf_del (m : SMap RKey Nat) (k : RKey) (h : tableWf m = true) : tableWf (m.del k) = true :=
  tableWf_filter m _ h

theorem Field.fit_fit (f : Field) (v : Nat) : f.fit (f.fit v) = f.fit v := by
  unfold Field.fit; split <;> simp

theorem tableWf_putD (m : SMap RKey Nat) (k : RKey) (v : Nat) (h : tableWf m = true) :
    tableWf (m.putD k (k.f.fit v) k.f.spec.reset) = true := by
  unfold SMap.putD
  split
  · exact tableWf_del m k h
  · rename_i hv
    rw [tableWf_cons]
    refine ⟨⟨(Field.fit_fit _ _).symm, hv⟩, ?_, tableWf_del m k h⟩
    intro x hx
    have := (List.mem_filter.mp hx).2
    simpa using this

/-- The invariant, part by part. -/
theorem State.inv_iff (s : State) :
    s.inv = true ↔ tableWf s.regs = true ∧ s.mem.wf = true ∧ ∀ e ∈ s.presses, e.2.caseMem.wf = true := by
  simp [State.inv, and_assoc]

theorem Press.ok_init : Press.init.Ok := rfl

/-- Every press of a state in its one form is. -/
theorem State.inv_press (s : State) (p : Nat) (h : s.inv = true) : (s.press p).Ok := by
  have hp := ((State.inv_iff s).mp h).2.2
  unfold State.press SMap.getD
  suffices hs : ∀ l : SMap Nat Press, (∀ e ∈ l, e.2.caseMem.wf = true) →
      ((SMap.get? l p).getD Press.init).Ok from hs s.presses hp
  intro l hl
  induction l with
  | nil => exact Press.ok_init
  | cons e l ih =>
    rw [SMap.get?_cons]
    split
    · exact hl e (List.mem_cons_self ..)
    · exact ih fun x hx => hl x (List.mem_cons_of_mem _ hx)

theorem Press.Ok.of_wf {x : Press} (h : x.caseMem.wf = true) : x.Ok := h

theorem Press.Ok.wf {x : Press} (h : x.Ok) : x.caseMem.wf = true := h

theorem State.inv_caseMem (s : State) (p : Nat) (h : s.inv = true) : (s.press p).caseMem.wf = true :=
  s.inv_press p h

/-! ### Composition -/

variable {as bs : List Area} {ps qs : List Part} {s s' t u : State}

theorem Moves.refl (s : State) : Moves as ps s s :=
  ⟨⟨fun _ _ _ _ => rfl, fun q _ => by cases q <;> rfl⟩, id⟩

theorem Part.same_trans {q : Part} (h : q.same s t) (h' : q.same t u) : q.same s u := by
  cases q <;> exact Eq.trans h' h

theorem Moves.trans (h : Moves as ps s t) (h' : Moves as ps t u) : Moves as ps s u :=
  ⟨⟨fun f i j hf => (h'.1.1 f i j hf).trans (h.1.1 f i j hf),
    fun q hq => Part.same_trans (h.1.2 q hq) (h'.1.2 q hq)⟩, fun hs => h'.2 (h.2 hs)⟩

/-- A footprint may be given larger. -/
theorem Moves.mono (h : Moves bs qs s t) (ha : bs ⊆ as) (hq : qs ⊆ ps) : Moves as ps s t :=
  ⟨⟨fun f i j hf => h.1.1 f i j fun hx => hf (ha hx), fun q hx => h.1.2 q fun hy => hx (hq hy)⟩, h.2⟩

/-- One more operation. -/
theorem Moves.step (h' : Moves bs qs t u) (ha : bs ⊆ as) (hq : qs ⊆ ps) (h : Moves as ps s t) :
    Moves as ps s u := h.trans (h'.mono ha hq)

/-- An element of a part of a list. -/
theorem Moves.inSub {α : Type} {l m : List α} {a : α} (h : l ⊆ m) (ha : a ∈ l) : a ∈ m := h ha

theorem Moves.ite {c : Prop} [Decidable c] (h : c → Moves as ps s t) (h' : ¬c → Moves as ps s u) :
    Moves as ps s (if c then t else u) := by
  split <;> rename_i hc
  · exact h hc
  · exact h' hc

theorem Moves.ite_snd {α : Type} {c : Prop} [Decidable c] {x y : α × State}
    (h : c → Moves as ps s x.2) (h' : ¬c → Moves as ps s y.2) : Moves as ps s (if c then x else y).2 := by
  split <;> rename_i hc
  · exact h hc
  · exact h' hc

theorem Moves.foldl {α : Type} (l : List α) (f : State → α → State)
    (hf : ∀ x a, Moves as ps s x → Moves as ps s (f x a)) (h : Moves as ps s t) :
    Moves as ps s (l.foldl f t) := by
  induction l generalizing t with
  | nil => exact h
  | cons a l ih => exact ih (hf t a h)

theorem Moves.each {α : Type} (l : List α) (f : State → α → State)
    (hf : ∀ x a, Moves as ps s x → Moves as ps s (f x a)) (h : Moves as ps s t) :
    Moves as ps s (t.each l f) := Moves.foldl l f hf h

/-! ### Elementary updates -/

theorem Moves.regs (r : SMap RKey Nat) (hr : ∀ f i j, f.area ∉ as →
      (SMap.get? r ⟨f, i, j⟩).getD f.spec.reset = t.rd f i j)
    (hw : tableWf t.regs = true → tableWf r = true) (h : Moves as ps s t) :
    Moves as ps s { t with regs := r } := by
  refine h.trans ⟨⟨hr, fun q _ => by cases q <;> rfl⟩, fun hi => ?_⟩
  rw [State.inv_iff] at hi ⊢
  exact ⟨hw hi.1, hi.2⟩

/-- Parts other than the numbers, the memory and the presses. -/
theorem Moves.parts (h : Moves as ps s t) (hr : t.regs = u.regs) (hm : t.mem = u.mem)
    (hp : t.presses = u.presses) (hq : ∀ q, q ∉ ps → q.same t u) : Moves as ps s u := by
  refine h.trans ⟨⟨fun f i j _ => ?_, hq⟩, fun hi => ?_⟩
  · unfold State.rd; rw [hr]
  · rw [State.inv_iff] at hi ⊢; rw [← hr, ← hm, ← hp]; exact hi

/-- The numbers of the galley cycle before are no part (R13). -/
theorem Moves.set_prev (x : SMap RKey Nat) (h : Moves as ps s t) : Moves as ps s { t with prev := x } :=
  h.parts rfl rfl rfl fun q _ => by cases q <;> rfl

theorem Moves.put (f : Field) (i j v : Nat) (hf : f.area ∈ as) (h : Moves as ps s t) :
    Moves as ps s (t.put f i j v) :=
  h.regs _ (fun g a b hg => State.rd_wr_ne t f g i j a b v fun he => hg (he ▸ hf))
    (fun hw => tableWf_putD _ ⟨f, i, j⟩ v hw)

theorem Moves.wr (f : Field) (i j v : Nat) (hf : f.area ∈ as) (h : Moves as ps s t) :
    Moves as ps s (t.wr f i j v) := (h.put f i j v hf).set_prev _

theorem Moves.clr (f : Field) (i j : Nat) (hf : f.area ∈ as) (h : Moves as ps s t) :
    Moves as ps s (t.clr f i j) :=
  h.regs _ (fun g a b hg => by
      have := State.rd_clr t f g i j a b
      rw [if_neg (fun he : f = g ∧ i = a ∧ j = b => hg (he.1 ▸ hf))] at this
      exact this) (fun hw => tableWf_del _ _ hw)

theorem Moves.bump (f : Field) (i j n : Nat) (hf : f.area ∈ as) (h : Moves as ps s t) :
    Moves as ps s (t.bump f i j n) := by
  unfold State.bump; split <;> exact h.wr f i j _ hf

theorem Moves.wrap (f : Field) (i j n : Nat) (hf : f.area ∈ as) (h : Moves as ps s t) :
    Moves as ps s (t.wrap f i j n) := h.wr f i j _ hf

theorem Moves.orBit (f : Field) (i j n : Nat) (hf : f.area ∈ as) (h : Moves as ps s t) :
    Moves as ps s (t.orBit f i j n) := (h.put f i j _ hf).set_prev _

theorem Moves.andNot (f : Field) (i j n : Nat) (hf : f.area ∈ as) (h : Moves as ps s t) :
    Moves as ps s (t.andNot f i j n) := h.wr f i j _ hf

theorem Moves.wrAll (l : List (Field × Nat × Nat × Nat)) (hl : ∀ e ∈ l, e.1.area ∈ as)
    (h : Moves as ps s t) : Moves as ps s (t.wrAll l) := by
  induction l generalizing t with
  | nil => exact h
  | cons e l ih => exact ih (fun x hx => hl x (List.mem_cons_of_mem _ hx)) (h.wr _ _ _ _ (hl e (List.mem_cons_self ..)))

theorem areas_nil : ∀ e ∈ ([] : List (Field × Nat × Nat × Nat)), e.1.area ∈ as := fun _ h => nomatch h

theorem areas_cons {f : Field} {i j v : Nat} {l : List (Field × Nat × Nat × Nat)}
    (h : f.area ∈ as) (hl : ∀ x ∈ l, x.1.area ∈ as) : ∀ x ∈ (f, i, j, v) :: l, x.1.area ∈ as := by
  intro x hx
  rcases List.mem_cons.mp hx with rfl | hx
  · exact h
  · exact hl x hx

/-- Parts other than the numbers, the memory and the presses, set in one update. -/
theorem Moves.update {active' : Option Imposition} {loaded' : Option Imposition} {pendingBytes' : List Byte}
    {jobs' : List Job} {lateXfers' : List LateXfer} {heldAccs' : List HeldAcc} {drains' : List SlotXfer}
    {dirtyOut' : List (Nat × Nat × Nat)} {dirtyShared' : List (Nat × Nat × Nat)}
    {mirrorGot' : List (Nat × Nat × Nat)} {bases' : List (Nat × Nat × BaseEntry)} {mgtLast' : SMap Nat (Nat × Out)} {log' : List CkptRecord}
    {calJobs' : List CalJob} {calRuns' : SMap (Nat × Nat) (List Nat)} {calFails' : SMap (Nat × Nat) Nat}
    {ringErr' : SMap (Nat × Nat) Int} {mislocks' : SMap (Nat × Nat) (List Nat)} {swaps' : List Swap}
    {spareNeeds' : List SpareNeed} {arrivals' : SMap (Nat × Nat × Nat × Nat) Nat}
    {barDone' : SMap (Nat × Nat) Nat} {barSent' : SMap Nat Nat}
    {tokens' : SMap (Nat × Nat × Nat) TokEntry} {links' : SMap Nat Link} {repairMap' : List MapEntry}
    {ceLog' : List CeEntry} {samples' : List PwrSample} {idleDebt' : SMap Nat Int}
    {droops' : SMap Nat (List Nat)} {flashQ' : List FlashJob} {keys' : SMap Nat (List Byte)}
    {images' : SMap Nat (List Byte)} {flashMap' : List MapEntry} {image' : List Byte}
    {upload' : Option (Nat × List Byte)} {snaps' : SMap Nat (Nat × Nat)} {badWords' : List (Nat × Nat)}
    {relays' : List Relay} {early' : List (Nat × List Byte)} {mgtJobs' : List MgtJob}
    {moe' : SMap (Nat × Nat) Placement} {cache' : SMap RKey Nat} {fades' : SMap Nat (List (Nat × Int))}
    {dropped' : List (Nat × Nat)} {out' : List Out} {freeCount' : Nat} {pending' : List Instr}
    (hq : ∀ q, q ∉ ps → q.same t
        ⟨t.regs, t.prev, t.mem, t.presses, active', loaded', pendingBytes', jobs', lateXfers', heldAccs',
        drains', dirtyOut', dirtyShared', mirrorGot', bases', mgtLast', log', calJobs', calRuns', calFails',
        ringErr', mislocks', swaps', spareNeeds', arrivals', barDone', barSent', tokens', links',
        repairMap', ceLog', samples', idleDebt', droops', flashQ', keys', images', flashMap', image',
        upload', snaps', badWords', relays', early', mgtJobs', moe', cache', fades',
        dropped', out', freeCount', pending'⟩)
    (h : Moves as ps s t) : Moves as ps s
        ⟨t.regs, t.prev, t.mem, t.presses, active', loaded', pendingBytes', jobs', lateXfers', heldAccs',
        drains', dirtyOut', dirtyShared', mirrorGot', bases', mgtLast', log', calJobs', calRuns', calFails',
        ringErr', mislocks', swaps', spareNeeds', arrivals', barDone', barSent', tokens', links',
        repairMap', ceLog', samples', idleDebt', droops', flashQ', keys', images', flashMap', image',
        upload', snaps', badWords', relays', early', mgtJobs', moe', cache', fades',
        dropped', out', freeCount', pending'⟩ :=
  h.parts rfl rfl rfl hq

/-! One part set. -/

theorem Moves.set_active (x : Option Imposition) (hq : Part.active ∈ ps) (h : Moves as ps s t) :
    Moves as ps s { t with active := x } :=
  h.parts rfl rfl rfl fun q hn => by cases q <;> first | rfl | exact absurd hq hn

theorem Moves.set_loaded (x : Option Imposition) (hq : Part.loaded ∈ ps) (h : Moves as ps s t) :
    Moves as ps s { t with loaded := x } :=
  h.parts rfl rfl rfl fun q hn => by cases q <;> first | rfl | exact absurd hq hn

theorem Moves.set_pendingBytes (x : List Byte) (hq : Part.pendingBytes ∈ ps) (h : Moves as ps s t) :
    Moves as ps s { t with pendingBytes := x } :=
  h.parts rfl rfl rfl fun q hn => by cases q <;> first | rfl | exact absurd hq hn

theorem Moves.set_jobs (x : List Job) (hq : Part.jobs ∈ ps) (h : Moves as ps s t) :
    Moves as ps s { t with jobs := x } :=
  h.parts rfl rfl rfl fun q hn => by cases q <;> first | rfl | exact absurd hq hn

theorem Moves.set_lateXfers (x : List LateXfer) (hq : Part.lateXfers ∈ ps) (h : Moves as ps s t) :
    Moves as ps s { t with lateXfers := x } :=
  h.parts rfl rfl rfl fun q hn => by cases q <;> first | rfl | exact absurd hq hn

theorem Moves.set_heldAccs (x : List HeldAcc) (hq : Part.heldAccs ∈ ps) (h : Moves as ps s t) :
    Moves as ps s { t with heldAccs := x } :=
  h.parts rfl rfl rfl fun q hn => by cases q <;> first | rfl | exact absurd hq hn

theorem Moves.set_drains (x : List SlotXfer) (hq : Part.drains ∈ ps) (h : Moves as ps s t) :
    Moves as ps s { t with drains := x } :=
  h.parts rfl rfl rfl fun q hn => by cases q <;> first | rfl | exact absurd hq hn

theorem Moves.set_dirtyOut (x : List (Nat × Nat × Nat)) (hq : Part.dirtyOut ∈ ps) (h : Moves as ps s t) :
    Moves as ps s { t with dirtyOut := x } :=
  h.parts rfl rfl rfl fun q hn => by cases q <;> first | rfl | exact absurd hq hn

theorem Moves.set_dirtyShared (x : List (Nat × Nat × Nat)) (hq : Part.dirtyShared ∈ ps) (h : Moves as ps s t) :
    Moves as ps s { t with dirtyShared := x } :=
  h.parts rfl rfl rfl fun q hn => by cases q <;> first | rfl | exact absurd hq hn

theorem Moves.set_mirrorGot (x : List (Nat × Nat × Nat)) (hq : Part.mirrorGot ∈ ps) (h : Moves as ps s t) :
    Moves as ps s { t with mirrorGot := x } :=
  h.parts rfl rfl rfl fun q hn => by cases q <;> first | rfl | exact absurd hq hn

theorem Moves.set_bases (x : List (Nat × Nat × BaseEntry)) (hq : Part.bases ∈ ps) (h : Moves as ps s t) :
    Moves as ps s { t with bases := x } :=
  h.parts rfl rfl rfl fun q hn => by cases q <;> first | rfl | exact absurd hq hn

theorem Moves.set_mgtLast (x : SMap Nat (Nat × Out)) (hq : Part.mgtLast ∈ ps) (h : Moves as ps s t) :
    Moves as ps s { t with mgtLast := x } :=
  h.parts rfl rfl rfl fun q hn => by cases q <;> first | rfl | exact absurd hq hn

theorem Moves.set_log (x : List CkptRecord) (hq : Part.log ∈ ps) (h : Moves as ps s t) :
    Moves as ps s { t with log := x } :=
  h.parts rfl rfl rfl fun q hn => by cases q <;> first | rfl | exact absurd hq hn

theorem Moves.set_calJobs (x : List CalJob) (hq : Part.calJobs ∈ ps) (h : Moves as ps s t) :
    Moves as ps s { t with calJobs := x } :=
  h.parts rfl rfl rfl fun q hn => by cases q <;> first | rfl | exact absurd hq hn

theorem Moves.set_calRuns (x : SMap (Nat × Nat) (List Nat)) (hq : Part.calRuns ∈ ps) (h : Moves as ps s t) :
    Moves as ps s { t with calRuns := x } :=
  h.parts rfl rfl rfl fun q hn => by cases q <;> first | rfl | exact absurd hq hn

theorem Moves.set_calFails (x : SMap (Nat × Nat) Nat) (hq : Part.calFails ∈ ps) (h : Moves as ps s t) :
    Moves as ps s { t with calFails := x } :=
  h.parts rfl rfl rfl fun q hn => by cases q <;> first | rfl | exact absurd hq hn

theorem Moves.set_ringErr (x : SMap (Nat × Nat) Int) (hq : Part.ringErr ∈ ps) (h : Moves as ps s t) :
    Moves as ps s { t with ringErr := x } :=
  h.parts rfl rfl rfl fun q hn => by cases q <;> first | rfl | exact absurd hq hn

theorem Moves.set_mislocks (x : SMap (Nat × Nat) (List Nat)) (hq : Part.mislocks ∈ ps) (h : Moves as ps s t) :
    Moves as ps s { t with mislocks := x } :=
  h.parts rfl rfl rfl fun q hn => by cases q <;> first | rfl | exact absurd hq hn

theorem Moves.set_swaps (x : List Swap) (hq : Part.swaps ∈ ps) (h : Moves as ps s t) :
    Moves as ps s { t with swaps := x } :=
  h.parts rfl rfl rfl fun q hn => by cases q <;> first | rfl | exact absurd hq hn

theorem Moves.set_spareNeeds (x : List SpareNeed) (hq : Part.spareNeeds ∈ ps) (h : Moves as ps s t) :
    Moves as ps s { t with spareNeeds := x } :=
  h.parts rfl rfl rfl fun q hn => by cases q <;> first | rfl | exact absurd hq hn

theorem Moves.set_arrivals (x : SMap (Nat × Nat × Nat × Nat) Nat) (hq : Part.arrivals ∈ ps) (h : Moves as ps s t) :
    Moves as ps s { t with arrivals := x } :=
  h.parts rfl rfl rfl fun q hn => by cases q <;> first | rfl | exact absurd hq hn

theorem Moves.set_barDone (x : SMap (Nat × Nat) Nat) (hq : Part.barDone ∈ ps) (h : Moves as ps s t) :
    Moves as ps s { t with barDone := x } :=
  h.parts rfl rfl rfl fun q hn => by cases q <;> first | rfl | exact absurd hq hn

theorem Moves.set_barSent (x : SMap Nat Nat) (hq : Part.barSent ∈ ps) (h : Moves as ps s t) :
    Moves as ps s { t with barSent := x } :=
  h.parts rfl rfl rfl fun q hn => by cases q <;> first | rfl | exact absurd hq hn

theorem Moves.set_tokens (x : SMap (Nat × Nat × Nat) TokEntry) (hq : Part.tokens ∈ ps) (h : Moves as ps s t) :
    Moves as ps s { t with tokens := x } :=
  h.parts rfl rfl rfl fun q hn => by cases q <;> first | rfl | exact absurd hq hn

theorem Moves.set_links (x : SMap Nat Link) (hq : Part.links ∈ ps) (h : Moves as ps s t) :
    Moves as ps s { t with links := x } :=
  h.parts rfl rfl rfl fun q hn => by cases q <;> first | rfl | exact absurd hq hn

theorem Moves.set_repairMap (x : List MapEntry) (hq : Part.repairMap ∈ ps) (h : Moves as ps s t) :
    Moves as ps s { t with repairMap := x } :=
  h.parts rfl rfl rfl fun q hn => by cases q <;> first | rfl | exact absurd hq hn

theorem Moves.set_ceLog (x : List CeEntry) (hq : Part.ceLog ∈ ps) (h : Moves as ps s t) :
    Moves as ps s { t with ceLog := x } :=
  h.parts rfl rfl rfl fun q hn => by cases q <;> first | rfl | exact absurd hq hn

theorem Moves.set_samples (x : List PwrSample) (hq : Part.samples ∈ ps) (h : Moves as ps s t) :
    Moves as ps s { t with samples := x } :=
  h.parts rfl rfl rfl fun q hn => by cases q <;> first | rfl | exact absurd hq hn

theorem Moves.set_idleDebt (x : SMap Nat Int) (hq : Part.idleDebt ∈ ps) (h : Moves as ps s t) :
    Moves as ps s { t with idleDebt := x } :=
  h.parts rfl rfl rfl fun q hn => by cases q <;> first | rfl | exact absurd hq hn

theorem Moves.set_droops (x : SMap Nat (List Nat)) (hq : Part.droops ∈ ps) (h : Moves as ps s t) :
    Moves as ps s { t with droops := x } :=
  h.parts rfl rfl rfl fun q hn => by cases q <;> first | rfl | exact absurd hq hn

theorem Moves.set_flashQ (x : List FlashJob) (hq : Part.flashQ ∈ ps) (h : Moves as ps s t) :
    Moves as ps s { t with flashQ := x } :=
  h.parts rfl rfl rfl fun q hn => by cases q <;> first | rfl | exact absurd hq hn

theorem Moves.set_keys (x : SMap Nat (List Byte)) (hq : Part.keys ∈ ps) (h : Moves as ps s t) :
    Moves as ps s { t with keys := x } :=
  h.parts rfl rfl rfl fun q hn => by cases q <;> first | rfl | exact absurd hq hn

theorem Moves.set_images (x : SMap Nat (List Byte)) (hq : Part.images ∈ ps) (h : Moves as ps s t) :
    Moves as ps s { t with images := x } :=
  h.parts rfl rfl rfl fun q hn => by cases q <;> first | rfl | exact absurd hq hn

theorem Moves.set_flashMap (x : List MapEntry) (hq : Part.flashMap ∈ ps) (h : Moves as ps s t) :
    Moves as ps s { t with flashMap := x } :=
  h.parts rfl rfl rfl fun q hn => by cases q <;> first | rfl | exact absurd hq hn

theorem Moves.set_image (x : List Byte) (hq : Part.image ∈ ps) (h : Moves as ps s t) :
    Moves as ps s { t with image := x } :=
  h.parts rfl rfl rfl fun q hn => by cases q <;> first | rfl | exact absurd hq hn

theorem Moves.set_upload (x : Option (Nat × List Byte)) (hq : Part.upload ∈ ps) (h : Moves as ps s t) :
    Moves as ps s { t with upload := x } :=
  h.parts rfl rfl rfl fun q hn => by cases q <;> first | rfl | exact absurd hq hn

theorem Moves.set_snaps (x : SMap Nat (Nat × Nat)) (hq : Part.snaps ∈ ps) (h : Moves as ps s t) :
    Moves as ps s { t with snaps := x } :=
  h.parts rfl rfl rfl fun q hn => by cases q <;> first | rfl | exact absurd hq hn

theorem Moves.set_badWords (x : List (Nat × Nat)) (hq : Part.badWords ∈ ps) (h : Moves as ps s t) :
    Moves as ps s { t with badWords := x } :=
  h.parts rfl rfl rfl fun q hn => by cases q <;> first | rfl | exact absurd hq hn

theorem Moves.set_relays (x : List Relay) (hq : Part.relays ∈ ps) (h : Moves as ps s t) :
    Moves as ps s { t with relays := x } :=
  h.parts rfl rfl rfl fun q hn => by cases q <;> first | rfl | exact absurd hq hn

theorem Moves.set_early (x : List (Nat × List Byte)) (hq : Part.early ∈ ps) (h : Moves as ps s t) :
    Moves as ps s { t with early := x } :=
  h.parts rfl rfl rfl fun q hn => by cases q <;> first | rfl | exact absurd hq hn

theorem Moves.set_mgtJobs (x : List MgtJob) (hq : Part.mgtJobs ∈ ps) (h : Moves as ps s t) :
    Moves as ps s { t with mgtJobs := x } :=
  h.parts rfl rfl rfl fun q hn => by cases q <;> first | rfl | exact absurd hq hn

theorem Moves.set_moe (x : SMap (Nat × Nat) Placement) (hq : Part.moe ∈ ps) (h : Moves as ps s t) :
    Moves as ps s { t with moe := x } :=
  h.parts rfl rfl rfl fun q hn => by cases q <;> first | rfl | exact absurd hq hn

theorem Moves.set_cache (x : SMap RKey Nat) (hq : Part.cache ∈ ps) (h : Moves as ps s t) :
    Moves as ps s { t with cache := x } :=
  h.parts rfl rfl rfl fun q hn => by cases q <;> first | rfl | exact absurd hq hn

theorem Moves.set_fades (x : SMap Nat (List (Nat × Int))) (hq : Part.fades ∈ ps) (h : Moves as ps s t) :
    Moves as ps s { t with fades := x } :=
  h.parts rfl rfl rfl fun q hn => by cases q <;> first | rfl | exact absurd hq hn

theorem Moves.set_dropped (x : List (Nat × Nat)) (hq : Part.dropped ∈ ps) (h : Moves as ps s t) :
    Moves as ps s { t with dropped := x } :=
  h.parts rfl rfl rfl fun q hn => by cases q <;> first | rfl | exact absurd hq hn

theorem Moves.set_out (x : List Out) (hq : Part.out ∈ ps) (h : Moves as ps s t) :
    Moves as ps s { t with out := x } :=
  h.parts rfl rfl rfl fun q hn => by cases q <;> first | rfl | exact absurd hq hn

theorem Moves.set_freeCount (x : Nat) (hq : Part.freeCount ∈ ps) (h : Moves as ps s t) :
    Moves as ps s { t with freeCount := x } :=
  h.parts rfl rfl rfl fun q hn => by cases q <;> first | rfl | exact absurd hq hn

theorem Moves.set_pending (x : List Instr) (hq : Part.pending ∈ ps) (h : Moves as ps s t) :
    Moves as ps s { t with pending := x } :=
  h.parts rfl rfl rfl fun q hn => by cases q <;> first | rfl | exact absurd hq hn

theorem Moves.setPress (p : Nat) (x : Press) (hx : t.inv = true → x.Ok) (hq : Part.presses ∈ ps)
    (h : Moves as ps s t) : Moves as ps s (t.setPress p x) := by
  refine h.trans ⟨⟨fun _ _ _ _ => rfl, fun q hn => ?_⟩, fun hi => ?_⟩
  · cases q <;> first | rfl | exact absurd hq hn
  · have hk := hx hi
    rw [State.inv_iff] at hi ⊢
    refine ⟨hi.1, hi.2.1, fun e he => ?_⟩
    rcases List.mem_cons.mp he with rfl | he
    · exact hk
    · exact hi.2.2 e (List.mem_filter.mp he).1

theorem Moves.setMem (m : Memory) (hm : t.mem.wf = true → m.wf = true) (hq : Part.mem ∈ ps)
    (h : Moves as ps s t) : Moves as ps s { t with mem := m } := by
  refine h.trans ⟨⟨fun _ _ _ _ => rfl, fun q hn => ?_⟩, fun hi => ?_⟩
  · cases q <;> first | rfl | exact absurd hq hn
  · rw [State.inv_iff] at hi ⊢; exact ⟨hi.1, hm hi.2.1, hi.2.2⟩

theorem Moves.writeMem (c a : Nat) (l : List Byte) (hq : Part.mem ∈ ps) (h : Moves as ps s t) :
    Moves as ps s (t.writeMem c a l) := by
  induction l generalizing t a with
  | nil => exact h
  | cons b r ih => exact ih _ (h.setMem _ (fun hm => Memory.wf_set _ _ _ hm) hq)

theorem Moves.writeGal (c a : Nat) (l : List Byte) (hq : Part.mem ∈ ps) (h : Moves as ps s t) :
    Moves as ps s (t.writeGal c a l) := h.setMem _ (fun hm => Memory.wf_write _ _ _ hm) hq

theorem Moves.free (w : Nat) (hq : Part.freeCount ∈ ps) (h : Moves as ps s t) :
    Moves as ps s (t.free w).2 :=
  h.parts rfl rfl rfl fun q hn => by cases q <;> first | rfl | exact absurd hq hn

/-! ### Outcomes -/

theorem ResMoves.next (h : Moves as ps s t) : ResMoves as ps s (.next t) := by
  intro x hx; cases hx; exact h

theorem ResMoves.fault (f : Fault) : ResMoves as ps s (.fault f) := by intro x hx; cases hx

theorem ResMoves.refused (r : Refusal) : ResMoves as ps s (.refused r) := by intro x hx; cases hx

theorem ResMoves.ite {c : Prop} [Decidable c] {r r' : Res} (h : c → ResMoves as ps s r)
    (h' : ¬c → ResMoves as ps s r') : ResMoves as ps s (if c then r else r') := by
  split <;> rename_i hc
  · exact h hc
  · exact h' hc

/-- A footprint may be given larger. -/
theorem ResMoves.mono {r : Res} (h : ResMoves bs qs s r) (ha : bs ⊆ as) (hq : qs ⊆ ps) :
    ResMoves as ps s r := fun t ht => (h t ht).mono ha hq

/-! ### Presses in their one form -/

theorem Press.Ok.writeCase {x : Press} (h : x.Ok) (l : Nat) (b : List Byte) : (x.writeCase l b).Ok :=
  Memory.wf_write _ _ _ h

theorem Press.Ok.loseCarry {x : Press} (h : x.Ok) (n : Nat) : (x.loseCarry n).Ok := h

theorem Press.Ok.signal {x : Press} (h : x.Ok) (n : Nat) : (x.signal n).Ok := h

theorem Press.Ok.ite {c : Prop} [Decidable c] {x y : Press} (hx : x.Ok) (hy : y.Ok) :
    (if c then x else y).Ok := by
  split
  · exact hx
  · exact hy

theorem Press.Ok.settleFrom {x : Press} (n : Nat) (h : x.Ok) : (x.settleFrom n).Ok := by
  induction n generalizing x with
  | zero => exact h
  | succ n ih =>
    unfold Press.settleFrom
    split
    · exact h
    · split
      · exact h
      · exact ih h

theorem Press.Ok.settle {x : Press} (h : x.Ok) : x.settle.Ok := h.settleFrom _

theorem Press.Ok.pop {x : Press} (h : x.Ok) (rs : List Nat) : (x.pop rs).Ok := by
  unfold Press.pop
  split
  · exact h
  · exact Press.Ok.settle (x := { x with ringValid := _ }) h

theorem Press.Ok.pops {x : Press} (h : x.Ok) (f : FinF) : (x.pops f).Ok := h.pop _

theorem Press.Ok.enqueueRing {x : Press} (h : x.Ok) (rows : List (Nat × List Nat)) :
    (x.enqueueRing rows).Ok := by
  unfold Press.enqueueRing
  exact Press.Ok.settle (x := { x with drainQ := _ }) h

theorem Press.Ok.waitTok {x : Press} (h : x.Ok) (k : Tok) : (x.waitTok k).Ok := by
  unfold Press.waitTok; split <;> exact h

end Sys2Proof.Machine
end

