-- ==== Sys2Proof/Laws/Changes.lean ====
section
/-!
SUPPORT. Rules for `changes`, which names the numbers and the parts that move one by one.
-/

namespace Sys2Proof.Machine

variable {fs gs : List Field} {ps qs : List Part} {s t u : State}

theorem changes.refl (s : State) : changes fs ps s s :=
  ⟨fun _ _ _ _ => rfl, fun q _ => by cases q <;> rfl⟩

theorem changes.trans (h : changes fs ps s t) (h' : changes fs ps t u) : changes fs ps s u :=
  ⟨fun f i j hf => (h'.1 f i j hf).trans (h.1 f i j hf), fun q hq => Part.same_trans (h.2 q hq) (h'.2 q hq)⟩

theorem changes.mono (h : changes gs qs s t) (ha : gs ⊆ fs) (hq : qs ⊆ ps) : changes fs ps s t :=
  ⟨fun f i j hf => h.1 f i j fun hx => hf (ha hx), fun q hx => h.2 q fun hy => hx (hq hy)⟩

theorem changes.ite {c : Prop} [Decidable c] (h : c → changes fs ps s t) (h' : ¬c → changes fs ps s u) :
    changes fs ps s (if c then t else u) := by
  split <;> rename_i hc
  · exact h hc
  · exact h' hc

theorem changes.each {α : Type} (l : List α) (f : State → α → State)
    (hf : ∀ x a, changes fs ps s x → changes fs ps s (f x a)) (h : changes fs ps s t) :
    changes fs ps s (t.each l f) := by
  induction l generalizing t with
  | nil => exact h
  | cons a l ih => exact ih (hf t a h)

theorem changes.wr (f : Field) (i j v : Nat) (hf : f ∈ fs) (h : changes fs ps s t) :
    changes fs ps s (t.wr f i j v) :=
  h.trans ⟨fun g a b hg => State.rd_wr_ne t f g i j a b v fun he => hg (he ▸ hf),
    fun q _ => by cases q <;> rfl⟩

theorem changes.clr (f : Field) (i j : Nat) (hf : f ∈ fs) (h : changes fs ps s t) :
    changes fs ps s (t.clr f i j) :=
  h.trans ⟨fun g a b hg => by
      have := State.rd_clr t f g i j a b
      rwa [if_neg (fun he : f = g ∧ i = a ∧ j = b => hg (he.1 ▸ hf))] at this,
    fun q _ => by cases q <;> rfl⟩

theorem changes.bump (f : Field) (i j n : Nat) (hf : f ∈ fs) (h : changes fs ps s t) :
    changes fs ps s (t.bump f i j n) := by
  unfold State.bump; split <;> exact h.wr f i j _ hf

theorem changes.wrap (f : Field) (i j n : Nat) (hf : f ∈ fs) (h : changes fs ps s t) :
    changes fs ps s (t.wrap f i j n) := h.wr f i j _ hf

theorem changes.orBit (f : Field) (i j n : Nat) (hf : f ∈ fs) (h : changes fs ps s t) :
    changes fs ps s (t.orBit f i j n) := h.wr f i j _ hf

theorem changes.andNot (f : Field) (i j n : Nat) (hf : f ∈ fs) (h : changes fs ps s t) :
    changes fs ps s (t.andNot f i j n) := h.wr f i j _ hf

theorem changes.wrAll (l : List (Field × Nat × Nat × Nat)) (hl : ∀ e ∈ l, e.1 ∈ fs)
    (h : changes fs ps s t) : changes fs ps s (t.wrAll l) := by
  induction l generalizing t with
  | nil => exact h
  | cons e l ih =>
    exact ih (fun x hx => hl x (List.mem_cons_of_mem _ hx)) (h.wr _ _ _ _ (hl e (List.mem_cons_self ..)))

/-- Parts alone set. -/
theorem changes.parts (h : changes fs ps s t) (hr : t.regs = u.regs) (hq : ∀ q, q ∉ ps → q.same t u) :
    changes fs ps s u :=
  h.trans ⟨fun f i j _ => by unfold State.rd; rw [hr], hq⟩

theorem changes.setPress (p : Nat) (x : Press) (hq : Part.presses ∈ ps) (h : changes fs ps s t) :
    changes fs ps s (t.setPress p x) :=
  h.parts rfl fun q hn => by cases q <;> first | rfl | exact absurd hq hn

theorem changes.setLink (n : Nat) (x : Link) (hq : Part.links ∈ ps) (h : changes fs ps s t) :
    changes fs ps s (t.setLink n x) :=
  h.parts rfl fun q hn => by cases q <;> first | rfl | exact absurd hq hn

theorem changes.send (o : Out) (hq : Part.out ∈ ps) (h : changes fs ps s t) :
    changes fs ps s (t.send o) :=
  h.parts rfl fun q hn => by cases q <;> first | rfl | exact absurd hq hn

theorem changes.free (w : Nat) (hq : Part.freeCount ∈ ps) (h : changes fs ps s t) :
    changes fs ps s (t.free w).2 :=
  h.parts rfl fun q hn => by cases q <;> first | rfl | exact absurd hq hn

theorem changes.stamp (n : Nat) (ht : timeFields ⊆ fs) (h : changes fs ps s t) :
    changes fs ps s (t.stamp n) := by
  refine h.trans ⟨fun f i j hf => State.rd_stamp t n f i j ⟨?_, ?_, ?_⟩, fun q _ => ?_⟩
  · rintro rfl; exact hf (ht (by decide))
  · rintro rfl; exact hf (ht (by decide))
  · rintro rfl; exact hf (ht (by decide))
  · rw [State.stamp_only]; cases q <;> rfl

theorem changes.irqDeliver (hi : irqFields ⊆ fs)
    (h : changes fs ps s t) : changes fs ps s t.irqDeliver := by
  refine h.trans ⟨fun f i j hf => State.rd_irqDeliver t f i j ⟨?_, ?_, ?_⟩, fun q _ => ?_⟩
  · rintro rfl; exact hf (hi (by decide))
  · rintro rfl; exact hf (hi (by decide))
  · rintro rfl; exact hf (hi (by decide))
  · rw [State.irqDeliver_only]; cases q <;> rfl

end Sys2Proof.Machine
end

