-- ==== Sys2Proof/Laws/Press.lean ====
section
/-!
SUPPORT. What the dispatch of a press instruction can do (R107, R108, R119, R139), and what it leaves alone.
-/

namespace Sys2Proof.Machine

/-- Dispatch runs the instruction's effect where nothing holds it (R107, R108). -/
theorem State.dispatch_runs (s : State) (p : Nat) (k : Tok) (u : Nat) (lines : List (Int × Nat))
    (waits : List Field) (run : State → State) (h : canDispatch s p k u)
    (hl : (lines.all fun e => caseLineOk e.1 e.2) = true) :
    s.dispatch p k u true 0 true lines waits run =
      .next (((run (s.issued p k u)).stalled p waits).advance p) := by
  obtain ⟨hp, ha, ht, hf⟩ := h
  have hw : (k.wen && decide ((s.press p).token k.wtok = 0)) = false := by
    cases hk : k.wen
    · rfl
    · simp [ht hk]
  simp [State.dispatch, hp, ha, hw, hf, hl]

/-- Every outcome of a dispatch (R14, R94, R107, R108, R130, R139). -/
theorem State.dispatch_cases (s : State) (p : Nat) (k : Tok) (u : Nat) (legal : Bool) (hold : Nat)
    (ready : Bool) (lines : List (Int × Nat)) (waits : List Field) (run : State → State) :
    (12 ≤ p ∧ s.dispatch p k u legal hold ready lines waits run = .fault .noSuchUnit) ∨
    s.dispatch p k u legal hold ready lines waits run = .next s ∨
    s.dispatch p k u legal hold ready lines waits run = .next (s.illegalWord p) ∨
    s.dispatch p k u legal hold ready lines waits run = .next ((s.holdDispatch p 2).free 1).2 ∨
    (∃ code, s.dispatch p k u legal hold ready lines waits run = .next (s.holdDispatch p code)) ∨
    (p < 12 ∧ s.pState p = pActive ∧ s.dispatch p k u legal hold ready lines waits run = .fault .noSuchLine) ∨
    (canDispatch s p k u ∧
      s.dispatch p k u legal hold ready lines waits run = .next (((run (s.issued p k u)).stalled p waits).advance p)) := by
  unfold State.dispatch
  by_cases hp : p < 12
  · by_cases ha : s.pState p = pActive
    · cases legal
      · simp [hp, ha]
      · by_cases hw : (k.wen && decide ((s.press p).token k.wtok = 0)) = true
        · right; right; right; right; left; exact ⟨1, by simp [hp, ha, hw]⟩
        · by_cases hf : s.unitFull p u = true
          · right; right; right; left; simp [hp, ha, hw, hf]
          · by_cases hh : (hold != 0) = true
            · right; right; right; right; left; exact ⟨hold, by simp [hp, ha, hw, hf, hh]⟩
            · cases ready
              · right; left; simp [hp, ha, hw, hf, hh]
              · by_cases hl : (lines.all fun e => caseLineOk e.1 e.2) = true
                · right; right; right; right; right; right
                  refine ⟨⟨hp, ha, ?_, by simpa using hf⟩, by simp [hp, ha, hw, hf, hh, hl]⟩
                  intro hk h0
                  exact hw (by simp [hk, h0])
                · right; right; right; right; right; left
                  exact ⟨hp, ha, by simp [hp, ha, hw, hf, hh, hl]⟩
    · right; left; simp [hp, ha]
  · left; exact ⟨by omega, by simp [hp]⟩

/-! ### The instruction at its start -/

/-- The press after its issue: a token taken; the queue, or the token of a SEQ instruction. -/
theorem entered_eq (s : State) (p : Nat) (k : Tok) (u : Nat) :
    entered s p k u =
      if u = uSeq then (if k.sen then ((s.press p).waitTok k).signal k.stok else (s.press p).waitTok k)
      else { (s.press p).waitTok k with
        queues := ((s.press p).waitTok k).queues.put u
          (((s.press p).waitTok k).queue u ++ [⟨k.sen, k.stok, none⟩]) } := by
  simp [entered, State.issued, State.press_setPress]

theorem State.issued_press (s : State) (p : Nat) (k : Tok) (u : Nat) :
    (s.issued p k u).press p = entered s p k u := rfl

theorem State.issued_other (s : State) (p q : Nat) (k : Tok) (u : Nat) (h : q ≠ p) :
    (s.issued p k u).press q = s.press q := by
  simp [State.issued, State.press_setPress, Ne.symm h]

theorem State.issued_rd (s : State) (p : Nat) (k : Tok) (u : Nat) (f : Field) (i j : Nat)
    (h : f ≠ .prsSeqStatusHold) : (s.issued p k u).rd f i j = s.rd f i j := by
  simp only [State.issued]
  rw [State.rd_wr_ne _ _ _ _ _ _ _ _ (Ne.symm h), State.rd_setPress]

theorem State.issued_hold (s : State) (p : Nat) (k : Tok) (u : Nat) :
    (s.issued p k u).rd .prsSeqStatusHold p 0 = 0 := by
  simp only [State.issued]; rw [State.rd_wr_same]; decide

/-- The parts of a press that an issue leaves alone. -/
theorem entered_same (s : State) (p : Nat) (k : Tok) (u : Nat) :
    (entered s p k u).caseMem = (s.press p).caseMem ∧ (entered s p k u).vregs = (s.press p).vregs ∧
    (entered s p k u).ads = (s.press p).ads ∧ (entered s p k u).keys = (s.press p).keys ∧
    (entered s p k u).masks = (s.press p).masks ∧ (entered s p k u).live = (s.press p).live ∧
    (entered s p k u).shadow = (s.press p).shadow ∧ (entered s p k u).bias = (s.press p).bias ∧
    (entered s p k u).carry = (s.press p).carry ∧ (entered s p k u).carryLost = (s.press p).carryLost ∧
    (entered s p k u).idx = (s.press p).idx ∧ (entered s p k u).frames = (s.press p).frames ∧
    (entered s p k u).staging = (s.press p).staging ∧ (entered s p k u).signals = (s.press p).signals := by
  rw [entered_eq]
  unfold Press.waitTok Press.signal
  by_cases hu : u = uSeq <;> cases hw : k.wen <;> cases hs : k.sen <;> simp [hu]

theorem SMap.getD_put {K V : Type} [DecidableEq K] (m : SMap K V) (k x : K) (v d : V) :
    (m.put k v).getD x d = if k = x then v else m.getD x d := by
  by_cases h : k = x
  · subst h; simp
  · simp [SMap.getD_put_ne, h]

/-- Tokens after the issue of a SEQ instruction (R108, R112). -/
theorem entered_token (s : State) (p : Nat) (k : Tok) (n : Nat) :
    (entered s p k uSeq).token n = tokenAfter (s.press p) k n := by
  rw [entered_eq, if_pos rfl]
  unfold tokenAfter Press.waitTok Press.signal
  cases hw : k.wen <;> cases hs : k.sen <;>
    simp [Press.token, SMap.getD_put] <;> split <;> simp_all

/-! ### The instruction at its end -/

/-- A fold whose steps move the numbers and the counter of free values alone moves nothing else. -/
theorem State.each_counts {α : Type} (l : List α) (g : State → α → State)
    (h : ∀ s a, g s a = { s with regs := (g s a).regs, prev := (g s a).prev, freeCount := (g s a).freeCount }) (s : State) :
    s.each l g = { s with regs := (s.each l g).regs, prev := (s.each l g).prev, freeCount := (s.each l g).freeCount } := by
  induction l generalizing s with
  | nil => rfl
  | cons a l ih =>
    have e := ih (g s a)
    have e2 := h s a
    calc State.each (g s a) l g
        = { g s a with regs := (State.each (g s a) l g).regs, prev := (State.each (g s a) l g).prev, freeCount := (State.each (g s a) l g).freeCount } := e
      _ = { s with regs := (State.each (g s a) l g).regs, prev := (State.each (g s a) l g).prev, freeCount := (State.each (g s a) l g).freeCount } := by
        rw [e2]

/-- Cycle counts raised by free values: the counts named, and the counter of free values, alone move (R100). -/
theorem State.stalled_only (s : State) (p : Nat) (fs : List Field) :
    s.stalled p fs = { s with regs := (s.stalled p fs).regs, prev := (s.stalled p fs).prev, freeCount := (s.stalled p fs).freeCount } :=
  State.each_counts fs _ (fun s f => by dsimp only; rw [State.bump_only]; rfl) s

@[simp] theorem State.stalled_press (s : State) (p q : Nat) (fs : List Field) :
    (s.stalled p fs).press q = s.press q := by rw [State.stalled_only]; rfl

theorem State.stalled_rd (s : State) (p : Nat) (fs : List Field) (f : Field) (i j : Nat) (h : f ∉ fs) :
    (s.stalled p fs).rd f i j = s.rd f i j := by
  unfold State.stalled
  induction fs generalizing s with
  | nil => rfl
  | cons g l ih =>
    simp only [List.mem_cons, not_or] at h
    exact (ih _ h.2).trans (State.rd_bump_ne _ _ _ _ _ _ _ _ (Ne.symm h.1))

theorem State.advance_press (s : State) (p q : Nat) :
    (s.advance p).press q = if p = q then movedOn s p (s.press p) else s.press q := by
  simp [State.advance, movedOn, State.press_setPress]

theorem State.advance_rd (s : State) (p : Nat) (f : Field) (i j : Nat) (h : f ≠ .prsSeqStatusPc) :
    (s.advance p).rd f i j = s.rd f i j := by
  simp only [State.advance]
  rw [State.rd_wr_ne _ _ _ _ _ _ _ _ (Ne.symm h), State.rd_setPress]

theorem State.advance_pc (s : State) (p : Nat) :
    (s.advance p).rd .prsSeqStatusPc p 0 = nextPc s p (s.press p) := by
  simp only [State.advance, State.rd_wr_same]
  unfold nextPc Field.fit
  rw [if_neg (by decide)]
  rfl

/-- The parts of a press that moving on leaves alone: all but loop indices and frames. -/
theorem movedOn_same (s : State) (p : Nat) (x : Press) :
    movedOn s p x = { x with idx := (movedOn s p x).idx, frames := (movedOn s p x).frames } := rfl

/-- An issue, and moving on, touch the sequencer's fields and their press alone. -/
theorem State.seq_only (s : State) (p : Nat) (k : Tok) (u : Nat) (x : Press) :
    onlyPress seqFields [] p s (((s.issued p k u).setPress p x).advance p) := by
  refine ⟨⟨?_, ?_⟩, ?_⟩
  · intro f i j hf
    simp only [seqFields, List.mem_cons, List.not_mem_nil, or_false, not_or] at hf
    rw [State.advance_rd _ _ _ _ _ hf.1, State.rd_setPress, State.issued_rd _ _ _ _ _ _ _ hf.2]
  · intro q hq
    cases q <;> first | rfl | exact absurd (by decide) hq
  · intro q hq
    rw [State.advance_press, if_neg (Ne.symm hq), State.press_setPress, if_neg (Ne.symm hq),
      State.issued_other _ _ _ _ _ hq]

end Sys2Proof.Machine
end

