-- ==== Sys2Proof/Laws/Claims.lean ====
section
/-!
SUPPORT. Rules for the terms of the statements: what a press instruction leaves alone, and when it runs to its end.
-/

namespace Sys2Proof.Machine

theorem State.advance_only (s : State) (p : Nat) : onlyPress seqFields [] p s (s.advance p) := by
  refine ⟨⟨?_, ?_⟩, ?_⟩
  · intro f i j hf
    simp only [seqFields, List.mem_cons, List.not_mem_nil, or_false, not_or] at hf
    exact State.advance_rd _ _ _ _ _ hf.1
  · intro q hq
    cases q <;> first | rfl | exact absurd (by decide) hq
  · intro q hq
    rw [State.advance_press, if_neg (Ne.symm hq)]

theorem State.issued_only (s : State) (p : Nat) (k : Tok) (u : Nat) :
    onlyPress seqFields [] p s (s.issued p k u) := by
  refine ⟨⟨?_, ?_⟩, fun q hq => State.issued_other _ _ _ _ _ hq⟩
  · intro f i j hf
    simp only [seqFields, List.mem_cons, List.not_mem_nil, or_false, not_or] at hf
    exact State.issued_rd _ _ _ _ _ _ _ hf.2
  · intro q hq
    cases q <;> first | rfl | exact absurd (by decide) hq

variable {fs gs : List Field} {ps qs : List Part} {p : Nat} {s t u : State}

theorem onlyPress.refl (fs : List Field) (ps : List Part) (p : Nat) (s : State) : onlyPress fs ps p s s :=
  ⟨changes.refl s, fun _ _ => rfl⟩

theorem onlyPress.trans (h : onlyPress fs ps p s t) (h' : onlyPress fs ps p t u) : onlyPress fs ps p s u :=
  ⟨h.1.trans h'.1, fun q hq => (h'.2 q hq).trans (h.2 q hq)⟩

theorem onlyPress.mono (h : onlyPress gs qs p s t) (hf : gs ⊆ fs) (hp : qs ⊆ ps) : onlyPress fs ps p s t :=
  ⟨h.1.mono hf (List.cons_subset_cons _ hp), h.2⟩

theorem onlyPress.setPress (h : onlyPress fs ps p s t) (x : Press) : onlyPress fs ps p s (t.setPress p x) :=
  ⟨h.1.setPress p x (List.mem_cons_self ..),
    fun q hq => by rw [State.press_setPress, if_neg (Ne.symm hq)]; exact h.2 q hq⟩

theorem onlyPress.wr (h : onlyPress fs ps p s t) (f : Field) (i j v : Nat) (hf : f ∈ fs) :
    onlyPress fs ps p s (t.wr f i j v) :=
  ⟨h.1.wr f i j v hf, fun q hq => h.2 q hq⟩

theorem onlyPress.ite {c : Prop} [Decidable c] (h : onlyPress fs ps p s t) (h' : onlyPress fs ps p s u) :
    onlyPress fs ps p s (if c then t else u) := by split <;> assumption

/-- Where an instruction's effect ends in w with the press x and the sequencer's program counter as it was, the
instruction runs to its end. -/
theorem pressEnds_of (c : Instr) (x : Press) (Q : State → Prop) (w : State)
    (hc : exec c s = .next (w.advance p)) (hx : w.press p = x)
    (hpc : w.rd .prsSeqStatusPc p 0 = s.rd .prsSeqStatusPc p 0) (hh : w.rd .prsSeqStatusHold p 0 = 0)
    (ho : onlyPress (seqFields ++ fs) ps p s w) (hQ : Q (w.advance p)) : pressEnds c fs ps p s x Q := by
  subst hx
  refine ⟨_, hc, ?_, ?_, ?_, hQ, ho.trans ((w.advance_only p).mono (List.subset_append_left ..) (List.nil_subset _))⟩
  · rw [State.advance_press, if_pos rfl]
    simp only [movedOn, hpc]
  · rw [State.advance_pc]
    simp only [nextPc, hpc]
  · rw [State.advance_rd _ _ _ _ _ (by decide)]
    exact hh

/-- Cycle counts raised by free values move those counts and the counter of free values alone. -/
theorem onlyPress.stalled (h : onlyPress fs ps p s t) (ws : List Field) (hw : ws ⊆ fs)
    (hp : ws = [] ∨ Part.freeCount ∈ ps) : onlyPress fs ps p s (t.stalled p ws) := by
  refine ⟨h.1.trans ⟨fun f i j hf => State.stalled_rd _ _ _ _ _ _ fun hx => hf (hw hx), fun q hq => ?_⟩,
    fun q hq => by rw [State.stalled_press]; exact h.2 q hq⟩
  rcases hp with rfl | hp
  · cases q <;> rfl
  · rw [State.stalled_only]
    cases q <;> first | rfl | exact absurd (List.mem_cons_of_mem _ hp) hq

/-- The same where the effect is the press's own alone, and what it counts besides. -/
theorem pressEnds_set (c : Instr) (k : Tok) (n : Nat) (x : Press) (ws : List Field) (Q : State → Prop)
    (hc : exec c s = .next ((((s.issued p k n).setPress p x).stalled p ws).advance p))
    (hw : ws ⊆ fs) (hs : ∀ f ∈ seqFields, f ∉ ws) (hp : ws = [] ∨ Part.freeCount ∈ ps)
    (hQ : ∀ y, y = { x with idx := y.idx, frames := y.frames } → ∀ w : State, w.press p = y → Q w) :
    pressEnds c fs ps p s x Q := by
  refine pressEnds_of c x Q _ hc (by simp [State.press_setPress]) ?_ ?_ ?_ ?_
  · rw [State.stalled_rd _ _ _ _ _ _ (hs _ (by decide)), State.rd_setPress]
    exact State.issued_rd _ _ _ _ _ _ _ (by decide)
  · rw [State.stalled_rd _ _ _ _ _ _ (hs _ (by decide)), State.rd_setPress]
    exact State.issued_hold _ _ _ _
  · exact (((s.issued_only p k n).mono (List.subset_append_left ..) (List.nil_subset _)).setPress x).stalled ws
      (List.Subset.trans hw (List.subset_append_right ..)) hp
  · refine hQ _ ?_ _ rfl
    rw [State.advance_press, if_pos rfl, State.stalled_press, State.press_setPress, if_pos rfl]
    rfl

end Sys2Proof.Machine
end

