-- ==== Sys2Proof/Laws/MovesOps.lean ====
section
/-!
SUPPORT. Footprints of the operations of Machine/Ops.lean.
-/

namespace Sys2Proof.Machine

variable {as : List Area} {ps : List Part} {s0 : State}

theorem State.jobFields_moves (s : State) (c : Nat)
    (ha : [.cmp, .col] ⊆ as)
    (h : Moves as ps s0 s) : Moves as ps s0 (State.jobFields s c) := by
  unfold State.jobFields
  repeat' first
    | with_reducible assumption
    | with_reducible apply Moves.refl
    | with_reducible apply Moves.wr
    | with_reducible apply Moves.ite
    | (with_reducible apply Moves.inSub ha; decide)
    | with_reducible apply Moves.foldl
    | with_reducible intro _
    | (with_reducible apply List.Subset.trans ?_ ha; decide)
    | split
    | dsimp only

theorem State.dropJobs_moves (s : State) (f : Nat)
    (ha : [.cmp, .col] ⊆ as)
    (hq : [.jobs] ⊆ ps)
    (h : Moves as ps s0 s) : Moves as ps s0 (State.dropJobs s f) := by
  unfold State.dropJobs
  repeat' first
    | with_reducible assumption
    | with_reducible apply Moves.refl
    | with_reducible apply State.jobFields_moves
    | with_reducible apply Moves.ite
    | (with_reducible apply Moves.inSub ha; decide)
    | (with_reducible apply Moves.inSub hq; decide)
    | with_reducible apply Moves.each
    | with_reducible apply Moves.foldl
    | with_reducible intro _
    | (with_reducible apply List.Subset.trans ?_ ha; decide)
    | (with_reducible apply List.Subset.trans ?_ hq; decide)
    | split
    | dsimp only
    | with_reducible apply Moves.set_jobs

theorem State.keepCycle_moves (s : State) (n : Nat)
    (h : Moves as ps s0 s) : Moves as ps s0 (State.keepCycle s n) := by
  exact Moves.set_prev _ h

theorem State.setPState_moves (s : State) (p : Nat) (st : Nat)
    (ha : [.prs] ⊆ as)
    (hq : [.presses, .freeCount] ⊆ ps)
    (h : Moves as ps s0 s) : Moves as ps s0 (State.setPState s p st) := by
  unfold State.setPState
  repeat' first
    | with_reducible assumption
    | with_reducible apply Moves.refl
    | with_reducible apply Press.ok_init
    | (with_reducible apply State.inv_press; assumption)
    | with_reducible apply Press.Ok.pops
    | with_reducible apply Press.Ok.loseCarry
    | with_reducible apply Press.Ok.signal
    | with_reducible apply Press.Ok.waitTok
    | (with_reducible apply State.inv_caseMem; assumption)
    | with_reducible apply Press.Ok.pop
    | with_reducible apply Press.Ok.writeCase
    | with_reducible apply Press.Ok.enqueueRing
    | with_reducible apply Press.Ok.settle
    | with_reducible apply Press.Ok.ite
    | with_reducible apply Press.Ok.of_wf
    | with_reducible apply Moves.wr
    | with_reducible apply Moves.setPress
    | with_reducible apply Moves.ite
    | (with_reducible apply Moves.inSub ha; decide)
    | (with_reducible apply Moves.inSub hq; decide)
    | with_reducible apply Moves.foldl
    | with_reducible intro _
    | (with_reducible apply List.Subset.trans ?_ ha; decide)
    | (with_reducible apply List.Subset.trans ?_ hq; decide)
    | split
    | dsimp only
    | with_reducible apply Press.Ok.wf
    | with_reducible apply Moves.set_freeCount

theorem State.parkPresses_moves (s : State) (f : Nat)
    (ha : [.prs] ⊆ as)
    (hq : [.presses, .freeCount] ⊆ ps)
    (h : Moves as ps s0 s) : Moves as ps s0 (State.parkPresses s f) := by
  unfold State.parkPresses
  repeat' first
    | with_reducible assumption
    | with_reducible apply Moves.refl
    | with_reducible apply State.setPState_moves
    | with_reducible apply Moves.ite
    | (with_reducible apply Moves.inSub ha; decide)
    | (with_reducible apply Moves.inSub hq; decide)
    | with_reducible apply Moves.each
    | with_reducible apply Moves.foldl
    | with_reducible intro _
    | (with_reducible apply List.Subset.trans ?_ ha; decide)
    | (with_reducible apply List.Subset.trans ?_ hq; decide)
    | split
    | dsimp only

theorem State.irqOne_moves (s : State) (k : Nat)
    (ha : [.irq] ⊆ as)
    (h : Moves as ps s0 s) : Moves as ps s0 (State.irqOne s k) := by
  unfold State.irqOne
  repeat' first
    | with_reducible assumption
    | with_reducible apply Moves.refl
    | with_reducible apply Moves.wr
    | with_reducible apply Moves.ite
    | (with_reducible apply Moves.inSub ha; decide)
    | with_reducible apply Moves.foldl
    | with_reducible intro _
    | (with_reducible apply List.Subset.trans ?_ ha; decide)
    | split
    | dsimp only

theorem State.irqDeliver_moves (s : State)
    (ha : [.irq] ⊆ as)
    (h : Moves as ps s0 s) : Moves as ps s0 (State.irqDeliver s) := by
  unfold State.irqDeliver
  repeat' first
    | with_reducible assumption
    | with_reducible apply Moves.refl
    | with_reducible apply State.irqOne_moves
    | with_reducible apply Moves.clr
    | with_reducible apply Moves.ite
    | (with_reducible apply Moves.inSub ha; decide)
    | with_reducible apply Moves.each
    | with_reducible apply Moves.foldl
    | with_reducible intro _
    | (with_reducible apply List.Subset.trans ?_ ha; decide)
    | split
    | dsimp only

theorem State.send_moves (s : State) (o : Out)
    (hq : [.out] ⊆ ps)
    (h : Moves as ps s0 s) : Moves as ps s0 (State.send s o) := by
  unfold State.send
  repeat' first
    | with_reducible assumption
    | with_reducible apply Moves.refl
    | with_reducible apply Moves.ite
    | (with_reducible apply Moves.inSub hq; decide)
    | with_reducible apply Moves.foldl
    | with_reducible intro _
    | (with_reducible apply List.Subset.trans ?_ hq; decide)
    | split
    | dsimp only
    | with_reducible apply Moves.set_out

theorem State.pressOff_moves (s : State) (p : Nat)
    (ha : [.prs, .fin, .case] ⊆ as)
    (hq : [.presses, .freeCount] ⊆ ps)
    (h : Moves as ps s0 s) : Moves as ps s0 (State.pressOff s p) := by
  unfold State.pressOff
  have hl : ∀ (l : List Field), (∀ f ∈ l, f.area ∈ as) → ∀ t, Moves as ps s0 t →
      Moves as ps s0 (l.foldl (fun s f => s.clr f p 0) t) := by
    intro l
    induction l with
    | nil => exact fun _ t ht => ht
    | cons f l ih =>
      exact fun hf t ht => ih (fun g hg => hf g (List.mem_cons_of_mem _ hg)) _
        (Moves.clr _ _ _ (hf f (List.mem_cons_self ..)) ht)
  refine hl pressLost (fun f hf => ?_) _ ?_
  · have : ∀ g ∈ pressLost, g.area ∈ [Area.prs, .fin, .case] := by decide
    exact ha (List.Subset.trans (l₂ := [Area.prs, .fin, .case]) (fun _ h => h) (by decide) (this f hf))
  · exact Moves.setPress _ _ (fun _ => Press.ok_init) (hq (by decide))
      (State.setPState_moves s p pOff (List.Subset.trans (by decide) ha) hq h)

theorem State.tickBy_moves (s : State) (n : Nat)
    (ha : [.tick] ⊆ as)
    (h : Moves as ps s0 s) : Moves as ps s0 (State.tickBy s n) := by
  unfold State.tickBy
  repeat' first
    | with_reducible assumption
    | with_reducible apply Moves.refl
    | with_reducible apply State.keepCycle_moves
    | with_reducible apply Moves.wrap
    | with_reducible apply Moves.ite
    | (with_reducible apply Moves.inSub ha; decide)
    | with_reducible apply Moves.foldl
    | with_reducible intro _
    | (with_reducible apply List.Subset.trans ?_ ha; decide)
    | split
    | dsimp only

theorem State.stamp_moves (s : State) (t : Nat)
    (ha : [.tick] ⊆ as)
    (h : Moves as ps s0 s) : Moves as ps s0 (State.stamp s t) := by
  unfold State.stamp
  repeat' first
    | with_reducible assumption
    | with_reducible apply Moves.refl
    | with_reducible apply State.tickBy_moves
    | with_reducible apply Moves.ite
    | (with_reducible apply Moves.inSub ha; decide)
    | with_reducible apply Moves.foldl
    | with_reducible intro _
    | (with_reducible apply List.Subset.trans ?_ ha; decide)
    | split
    | dsimp only

theorem State.dropLate_moves (s : State) (f : Nat)
    (hq : [.lateXfers] ⊆ ps)
    (h : Moves as ps s0 s) : Moves as ps s0 (State.dropLate s f) := by
  unfold State.dropLate
  repeat' first
    | with_reducible assumption
    | with_reducible apply Moves.refl
    | with_reducible apply Moves.ite
    | (with_reducible apply Moves.inSub hq; decide)
    | with_reducible apply Moves.foldl
    | with_reducible intro _
    | (with_reducible apply List.Subset.trans ?_ hq; decide)
    | split
    | dsimp only
    | with_reducible apply Moves.set_lateXfers

theorem State.idle_moves (s : State)
    (ha : [.tick, .irq] ⊆ as)
    (h : Moves as ps s0 s) : Moves as ps s0 (State.idle s) := by
  unfold State.idle
  repeat' first
    | with_reducible assumption
    | with_reducible apply Moves.refl
    | with_reducible apply State.tickBy_moves
    | with_reducible apply State.irqDeliver_moves
    | with_reducible apply Moves.wrap
    | with_reducible apply Moves.ite
    | (with_reducible apply Moves.inSub ha; decide)
    | with_reducible apply Moves.foldl
    | with_reducible intro _
    | (with_reducible apply List.Subset.trans ?_ ha; decide)
    | split
    | dsimp only

theorem State.dropTraffic_moves (s : State) (f : Nat)
    (hq : [.drains, .links, .relays] ⊆ ps)
    (h : Moves as ps s0 s) : Moves as ps s0 (State.dropTraffic s f) := by
  unfold State.dropTraffic
  repeat' first
    | with_reducible assumption
    | with_reducible apply Moves.refl
    | with_reducible apply Moves.ite
    | (with_reducible apply Moves.inSub hq; decide)
    | with_reducible apply Moves.foldl
    | with_reducible intro _
    | (with_reducible apply List.Subset.trans ?_ hq; decide)
    | split
    | dsimp only
    | with_reducible apply Moves.set_drains
    | with_reducible apply Moves.set_links
    | with_reducible apply Moves.set_relays
    | ((with_reducible apply Moves.update); on_goal 1 => (intro q hn; cases q <;> first | exact absurd (hq (by decide)) hn | rfl))

theorem State.stopUnits_moves (s : State) (f : Nat)
    (ha : [.cmp, .col, .prs] ⊆ as)
    (hq : [.presses, .jobs, .lateXfers, .drains, .links, .relays, .freeCount] ⊆ ps)
    (h : Moves as ps s0 s) : Moves as ps s0 (State.stopUnits s f) := by
  unfold State.stopUnits
  repeat' first
    | with_reducible assumption
    | with_reducible apply Moves.refl
    | with_reducible apply State.dropTraffic_moves
    | with_reducible apply State.dropLate_moves
    | with_reducible apply State.dropJobs_moves
    | with_reducible apply State.parkPresses_moves
    | with_reducible apply Moves.ite
    | (with_reducible apply Moves.inSub ha; decide)
    | (with_reducible apply Moves.inSub hq; decide)
    | with_reducible apply Moves.foldl
    | with_reducible intro _
    | (with_reducible apply List.Subset.trans ?_ ha; decide)
    | (with_reducible apply List.Subset.trans ?_ hq; decide)
    | split
    | dsimp only

end Sys2Proof.Machine
end

