-- ==== Sys2Proof/Laws/MovesBarriers.lean ====
section
/-!
SUPPORT. Footprints of the operations of Machine/Barriers.lean.
-/

namespace Sys2Proof.Machine

variable {as : List Area} {ps : List Part} {s0 : State}

theorem State.setToken_moves (s : State) (c : Nat) (x : Nat) (b : Nat) (e : TokEntry)
    (hq : [.tokens] ⊆ ps)
    (h : Moves as ps s0 s) : Moves as ps s0 (State.setToken s c x b e) := by
  unfold State.setToken
  repeat' first
    | with_reducible assumption
    | with_reducible apply Moves.refl
    | with_reducible apply Moves.ite
    | (with_reducible apply Moves.inSub hq; decide)
    | with_reducible apply Moves.foldl
    | with_reducible intro _
    | (with_reducible apply List.Subset.trans ?_ hq; decide)
    | split
    | dsimp only
    | with_reducible apply Moves.set_tokens

theorem State.setLink_moves (s : State) (n : Nat) (x : Link)
    (hq : [.links] ⊆ ps)
    (h : Moves as ps s0 s) : Moves as ps s0 (State.setLink s n x) := by
  unfold State.setLink
  repeat' first
    | with_reducible assumption
    | with_reducible apply Moves.refl
    | with_reducible apply Moves.ite
    | (with_reducible apply Moves.inSub hq; decide)
    | with_reducible apply Moves.foldl
    | with_reducible intro _
    | (with_reducible apply List.Subset.trans ?_ hq; decide)
    | split
    | dsimp only
    | with_reducible apply Moves.set_links

theorem State.sendByp_moves (s : State) (n : Nat) (kind : Nat) (arg : Nat) (reqno : Nat)
    (hq : [.links] ⊆ ps)
    (h : Moves as ps s0 s) : Moves as ps s0 (State.sendByp s n kind arg reqno) := by
  unfold State.sendByp
  repeat' first
    | with_reducible assumption
    | with_reducible apply Moves.refl
    | with_reducible apply State.setLink_moves
    | with_reducible apply Moves.ite
    | (with_reducible apply Moves.inSub hq; decide)
    | with_reducible apply Moves.foldl
    | with_reducible intro _
    | (with_reducible apply List.Subset.trans ?_ hq; decide)
    | split
    | dsimp only

theorem State.sendFabric_moves (s : State) (kind : Nat) (arg : Nat)
    (hq : [.links] ⊆ ps)
    (h : Moves as ps s0 s) : Moves as ps s0 (State.sendFabric s kind arg) := by
  unfold State.sendFabric
  repeat' first
    | with_reducible assumption
    | with_reducible apply Moves.refl
    | with_reducible apply State.sendByp_moves
    | with_reducible apply Moves.ite
    | (with_reducible apply Moves.inSub hq; decide)
    | with_reducible apply Moves.each
    | with_reducible apply Moves.foldl
    | with_reducible intro _
    | (with_reducible apply List.Subset.trans ?_ hq; decide)
    | split
    | dsimp only

theorem State.ownArrival_moves (s : State) (f : Nat) (b : Nat)
    (hq : [.barSent, .tokens, .links] ⊆ ps)
    (h : Moves as ps s0 s) : Moves as ps s0 (State.ownArrival s f b) := by
  unfold State.ownArrival
  repeat' first
    | with_reducible assumption
    | with_reducible apply Moves.refl
    | with_reducible apply State.setToken_moves
    | with_reducible apply State.sendFabric_moves
    | with_reducible apply Moves.ite
    | (with_reducible apply Moves.inSub hq; decide)
    | with_reducible apply Moves.each
    | with_reducible apply Moves.foldl
    | with_reducible intro _
    | (with_reducible apply List.Subset.trans ?_ hq; decide)
    | split
    | dsimp only
    | with_reducible apply Moves.set_barSent

theorem State.barrierArrive_moves (s : State) (f : Nat) (b : Nat) (kind : Nat) (unit : Nat)
    (hq : [.arrivals, .barSent, .tokens, .links] ⊆ ps)
    (h : Moves as ps s0 s) : Moves as ps s0 (State.barrierArrive s f b kind unit) := by
  unfold State.barrierArrive
  repeat' first
    | with_reducible assumption
    | with_reducible apply Moves.refl
    | with_reducible apply State.ownArrival_moves
    | with_reducible apply Moves.ite
    | (with_reducible apply Moves.inSub hq; decide)
    | with_reducible apply Moves.foldl
    | with_reducible intro _
    | (with_reducible apply List.Subset.trans ?_ hq; decide)
    | split
    | dsimp only
    | with_reducible apply Moves.set_arrivals

end Sys2Proof.Machine
end

