-- ==== Sys2Proof/Laws/MovesLinkBase.lean ====
section
/-!
SUPPORT. Footprints of the operations of Machine/LinkBase.lean.
-/

namespace Sys2Proof.Machine

variable {as : List Area} {ps : List Part} {s0 : State}

theorem State.linkFields_moves (s : State) (n : Nat)
    (ha : [.fab, .lnk] ⊆ as)
    (h : Moves as ps s0 s) : Moves as ps s0 (State.linkFields s n) := by
  unfold State.linkFields
  repeat' first
    | with_reducible assumption
    | with_reducible apply Moves.refl
    | with_reducible apply Moves.wr
    | with_reducible apply Moves.ite
    | (with_reducible apply Moves.inSub ha; decide)
    | with_reducible apply Moves.foldl
    | with_reducible intro _
    | (with_reducible apply List.Subset.trans ?_ ha; decide)
    | split
    | dsimp only

theorem State.calMode_moves (s : State) (k : Nat) (g : Nat)
    (ha : [.oe] ⊆ as)
    (h : Moves as ps s0 s) : Moves as ps s0 (State.calMode s k g) := by
  unfold State.calMode
  repeat' first
    | with_reducible assumption
    | with_reducible apply Moves.refl
    | with_reducible apply Moves.wr
    | with_reducible apply Moves.ite
    | (with_reducible apply Moves.inSub ha; decide)
    | with_reducible apply Moves.foldl
    | with_reducible intro _
    | (with_reducible apply List.Subset.trans ?_ ha; decide)
    | split
    | dsimp only

theorem State.calStart_moves (s : State) (i : Nat)
    (ha : [.cal] ⊆ as)
    (h : Moves as ps s0 s) : Moves as ps s0 (State.calStart s i) := by
  unfold State.calStart
  repeat' first
    | with_reducible assumption
    | with_reducible apply Moves.refl
    | with_reducible apply Moves.bump
    | with_reducible apply Moves.ite
    | (with_reducible apply Moves.inSub ha; decide)
    | with_reducible apply Moves.foldl
    | with_reducible intro _
    | (with_reducible apply List.Subset.trans ?_ ha; decide)
    | split
    | dsimp only

theorem State.light_moves (s : State) (n : Nat) (lit : Nat) (banks : Nat)
    (ha : [.oe, .lsu] ⊆ as)
    (h : Moves as ps s0 s) : Moves as ps s0 (State.light s n lit banks) := by
  unfold State.light
  repeat' first
    | with_reducible assumption
    | with_reducible apply Moves.refl
    | with_reducible apply Moves.wr
    | with_reducible apply Moves.ite
    | (with_reducible apply Moves.inSub ha; decide)
    | with_reducible apply Moves.foldl
    | with_reducible intro _
    | (with_reducible apply List.Subset.trans ?_ ha; decide)
    | split
    | dsimp only

theorem State.warm_moves (s : State) (n : Nat)
    (ha : [.cal, .oe, .lsu] ⊆ as)
    (h : Moves as ps s0 s) : Moves as ps s0 (State.warm s n) := by
  unfold State.warm
  repeat' first
    | with_reducible assumption
    | with_reducible apply Moves.refl
    | with_reducible apply State.calStart_moves
    | with_reducible apply State.light_moves
    | with_reducible apply Moves.ite
    | (with_reducible apply Moves.inSub ha; decide)
    | with_reducible apply Moves.foldl
    | with_reducible intro _
    | (with_reducible apply List.Subset.trans ?_ ha; decide)
    | split
    | dsimp only

theorem State.warmTwins_moves (s : State) (k : Nat)
    (ha : [.cal, .oe, .lsu] ⊆ as)
    (h : Moves as ps s0 s) : Moves as ps s0 (State.warmTwins s k) := by
  unfold State.warmTwins
  repeat' first
    | with_reducible assumption
    | with_reducible apply Moves.refl
    | with_reducible apply State.warm_moves
    | with_reducible apply Moves.ite
    | (with_reducible apply Moves.inSub ha; decide)
    | with_reducible apply Moves.each
    | with_reducible apply Moves.foldl
    | with_reducible intro _
    | (with_reducible apply List.Subset.trans ?_ ha; decide)
    | split
    | dsimp only

theorem State.ddlWr_moves (s : State) (l : Nat) (f : Field) (v : Nat)
    (hf : f.area ∈ as)
    (h : Moves as ps s0 s) : Moves as ps s0 (State.ddlWr s l f v) := by
  unfold State.ddlWr
  repeat' first
    | with_reducible assumption
    | with_reducible apply Moves.refl
    | with_reducible apply Moves.wr
    | with_reducible apply Moves.ite
    | with_reducible apply Moves.foldl
    | with_reducible intro _
    | split
    | dsimp only

theorem State.groupFields_moves (s : State) (l : Nat)
    (ha : [.ddl] ⊆ as)
    (h : Moves as ps s0 s) : Moves as ps s0 (State.groupFields s l) := by
  unfold State.groupFields
  repeat' first
    | with_reducible assumption
    | with_reducible apply Moves.refl
    | with_reducible apply State.ddlWr_moves
    | with_reducible apply Moves.wr
    | with_reducible apply Moves.ite
    | (with_reducible apply Moves.inSub ha; decide)
    | with_reducible apply Moves.foldl
    | with_reducible intro _
    | (with_reducible apply List.Subset.trans ?_ ha; decide)
    | split
    | dsimp only

theorem State.setLane_moves (s : State) (n : Nat) (i : Nat) (st : Nat)
    (ha : [.lnk] ⊆ as)
    (hq : [.links] ⊆ ps)
    (h : Moves as ps s0 s) : Moves as ps s0 (State.setLane s n i st) := by
  unfold State.setLane
  repeat' first
    | with_reducible assumption
    | with_reducible apply Moves.refl
    | with_reducible apply State.setLink_moves
    | with_reducible apply Moves.wr
    | with_reducible apply Moves.orBit
    | with_reducible apply Moves.andNot
    | with_reducible apply Moves.ite
    | (with_reducible apply Moves.inSub ha; decide)
    | (with_reducible apply Moves.inSub hq; decide)
    | with_reducible apply Moves.foldl
    | with_reducible intro _
    | (with_reducible apply List.Subset.trans ?_ ha; decide)
    | (with_reducible apply List.Subset.trans ?_ hq; decide)
    | split
    | dsimp only

theorem State.issue_moves (s : State) (n : Nat) (kind : Nat) (arg : Nat)
    (hq : [.links] ⊆ ps)
    (h : Moves as ps s0 s) : Moves as ps s0 (State.issue s n kind arg) := by
  unfold State.issue
  repeat' first
    | with_reducible assumption
    | with_reducible apply Moves.refl
    | with_reducible apply State.setLink_moves
    | with_reducible apply State.sendByp_moves
    | with_reducible apply Moves.ite
    | (with_reducible apply Moves.inSub hq; decide)
    | with_reducible apply Moves.foldl
    | with_reducible intro _
    | (with_reducible apply List.Subset.trans ?_ hq; decide)
    | split
    | dsimp only

theorem State.issueNext_moves (s : State) (n : Nat)
    (hq : [.links] ⊆ ps)
    (h : Moves as ps s0 s) : Moves as ps s0 (State.issueNext s n) := by
  unfold State.issueNext
  repeat' first
    | with_reducible assumption
    | with_reducible apply Moves.refl
    | with_reducible apply State.setLink_moves
    | with_reducible apply State.issue_moves
    | with_reducible apply Moves.ite
    | (with_reducible apply Moves.inSub hq; decide)
    | with_reducible apply Moves.foldl
    | with_reducible intro _
    | (with_reducible apply List.Subset.trans ?_ hq; decide)
    | split
    | dsimp only

theorem State.putSpare_moves (s : State) (k : Nat) (f : Nat) (use : Nat) (lane : Nat)
    (ha : [.oe] ⊆ as)
    (h : Moves as ps s0 s) : Moves as ps s0 (State.putSpare s k f use lane) := by
  unfold State.putSpare
  repeat' first
    | with_reducible assumption
    | with_reducible apply Moves.refl
    | with_reducible apply Moves.wr
    | with_reducible apply Moves.ite
    | (with_reducible apply Moves.inSub ha; decide)
    | with_reducible apply Moves.foldl
    | with_reducible intro _
    | (with_reducible apply List.Subset.trans ?_ ha; decide)
    | split
    | dsimp only

theorem State.laneReq_moves (s : State) (n : Nat) (lane : Nat) (action : Nat)
    (hq : [.links] ⊆ ps)
    (h : Moves as ps s0 s) : Moves as ps s0 (State.laneReq s n lane action) := by
  unfold State.laneReq
  repeat' first
    | with_reducible assumption
    | with_reducible apply Moves.refl
    | with_reducible apply State.issue_moves
    | with_reducible apply Moves.ite
    | (with_reducible apply Moves.inSub hq; decide)
    | with_reducible apply Moves.foldl
    | with_reducible intro _
    | (with_reducible apply List.Subset.trans ?_ hq; decide)
    | split
    | dsimp only

theorem State.leaveSpares_moves (s : State) (n : Nat)
    (ha : [.oe] ⊆ as)
    (hq : [.swaps, .spareNeeds] ⊆ ps)
    (h : Moves as ps s0 s) : Moves as ps s0 (State.leaveSpares s n) := by
  unfold State.leaveSpares
  extract_lets k s1
  have ks1 : Moves as ps s0 s1 := by
    unfold s1
    repeat' first
    | with_reducible assumption
    | with_reducible apply Moves.refl
    | with_reducible apply State.putSpare_moves
    | with_reducible apply Moves.ite
    | (with_reducible apply Moves.inSub ha; decide)
    | (with_reducible apply Moves.inSub hq; decide)
    | with_reducible apply Moves.each
    | with_reducible apply Moves.foldl
    | with_reducible intro _
    | (with_reducible apply List.Subset.trans ?_ ha; decide)
    | (with_reducible apply List.Subset.trans ?_ hq; decide)
    | split
    | dsimp only
    | with_reducible apply Moves.set_swaps
    | with_reducible apply Moves.set_spareNeeds
    | ((with_reducible apply Moves.update); on_goal 1 => (intro q hn; cases q <;> first | exact absurd (hq (by decide)) hn | rfl))
  clear_value s1
  repeat' first
    | with_reducible assumption
    | with_reducible apply Moves.refl
    | with_reducible apply State.putSpare_moves
    | with_reducible apply Moves.ite
    | (with_reducible apply Moves.inSub ha; decide)
    | (with_reducible apply Moves.inSub hq; decide)
    | with_reducible apply Moves.each
    | with_reducible apply Moves.foldl
    | with_reducible intro _
    | (with_reducible apply List.Subset.trans ?_ ha; decide)
    | (with_reducible apply List.Subset.trans ?_ hq; decide)
    | split
    | dsimp only
    | with_reducible apply Moves.set_swaps
    | with_reducible apply Moves.set_spareNeeds
    | ((with_reducible apply Moves.update); on_goal 1 => (intro q hn; cases q <;> first | exact absurd (hq (by decide)) hn | rfl))

theorem State.parkRings_moves (s : State) (k : Nat)
    (ha : [.oe] ⊆ as)
    (hq : [.calJobs] ⊆ ps)
    (h : Moves as ps s0 s) : Moves as ps s0 (State.parkRings s k) := by
  unfold State.parkRings
  repeat' first
    | with_reducible assumption
    | with_reducible apply Moves.refl
    | with_reducible apply State.calMode_moves
    | with_reducible apply State.putSpare_moves
    | with_reducible apply Moves.wrAll
    | with_reducible apply areas_cons
    | with_reducible apply areas_nil
    | with_reducible apply Moves.ite
    | (with_reducible apply Moves.inSub ha; decide)
    | (with_reducible apply Moves.inSub hq; decide)
    | with_reducible apply Moves.each
    | with_reducible apply Moves.foldl
    | with_reducible intro _
    | (with_reducible apply List.Subset.trans ?_ ha; decide)
    | (with_reducible apply List.Subset.trans ?_ hq; decide)
    | split
    | dsimp only
    | with_reducible apply Moves.set_calJobs

theorem State.setTx_moves (s : State) (n : Nat) (i : Nat) (on : Bool)
    (ha : [.lnk] ⊆ as)
    (hq : [.links] ⊆ ps)
    (h : Moves as ps s0 s) : Moves as ps s0 (State.setTx s n i on) := by
  unfold State.setTx
  repeat' first
    | with_reducible assumption
    | with_reducible apply Moves.refl
    | with_reducible apply State.setLink_moves
    | with_reducible apply Moves.orBit
    | with_reducible apply Moves.andNot
    | with_reducible apply Moves.ite
    | (with_reducible apply Moves.inSub ha; decide)
    | (with_reducible apply Moves.inSub hq; decide)
    | with_reducible apply Moves.foldl
    | with_reducible intro _
    | (with_reducible apply List.Subset.trans ?_ ha; decide)
    | (with_reducible apply List.Subset.trans ?_ hq; decide)
    | split
    | dsimp only

theorem State.mark_moves (s : State) (n : Nat) (l : List (Nat × Bool))
    (hq : [.links] ⊆ ps)
    (h : Moves as ps s0 s) : Moves as ps s0 (State.mark s n l) := by
  unfold State.mark
  repeat' first
    | with_reducible assumption
    | with_reducible apply Moves.refl
    | with_reducible apply State.setLink_moves
    | with_reducible apply Moves.ite
    | (with_reducible apply Moves.inSub hq; decide)
    | with_reducible apply Moves.foldl
    | with_reducible intro _
    | (with_reducible apply List.Subset.trans ?_ hq; decide)
    | split
    | dsimp only

theorem State.issueFirst_moves (s : State) (n : Nat) (kind : Nat) (arg : Nat)
    (hq : [.links] ⊆ ps)
    (h : Moves as ps s0 s) : Moves as ps s0 (State.issueFirst s n kind arg) := by
  unfold State.issueFirst
  repeat' first
    | with_reducible assumption
    | with_reducible apply Moves.refl
    | with_reducible apply State.issue_moves
    | with_reducible apply State.setLink_moves
    | with_reducible apply Moves.ite
    | (with_reducible apply Moves.inSub hq; decide)
    | with_reducible apply Moves.foldl
    | with_reducible intro _
    | (with_reducible apply List.Subset.trans ?_ hq; decide)
    | split
    | dsimp only

theorem State.engineDark_moves (s : State) (k : Nat)
    (ha : [.oe, .lnk] ⊆ as)
    (h : Moves as ps s0 s) : Moves as ps s0 (State.engineDark s k) := by
  unfold State.engineDark
  have hl : ∀ (l : List Field), (∀ f ∈ l, f.area ∈ as) → ∀ k t, Moves as ps s0 t →
      Moves as ps s0 (t.each l fun s f => s.clr f k 0) := by
    intro l
    induction l with
    | nil => exact fun _ _ t ht => ht
    | cons f l ih =>
      exact fun hf k t ht => ih (fun g hg => hf g (List.mem_cons_of_mem _ hg)) k _
        (Moves.clr _ _ _ (hf f (List.mem_cons_self ..)) ht)
  refine Moves.each _ _ (fun x q hx => ?_) ?_
  · exact hl Sys2Proof.Machine.portLost (fun f hf => ha ((by decide : ∀ g ∈ Sys2Proof.Machine.portLost, g.area ∈ [Area.oe, .lnk]) f hf)) _ _ hx
  · exact hl Sys2Proof.Machine.engineLost (fun f hf => ha ((by decide : ∀ g ∈ Sys2Proof.Machine.engineLost, g.area ∈ [Area.oe, .lnk]) f hf)) _ _ h

theorem State.dropSwaps_moves (s : State) (k : Nat)
    (ha : [.lsu] ⊆ as)
    (hq : [.swaps] ⊆ ps)
    (h : Moves as ps s0 s) : Moves as ps s0 (State.dropSwaps s k) := by
  unfold State.dropSwaps
  repeat' first
    | with_reducible assumption
    | with_reducible apply Moves.refl
    | with_reducible apply Moves.wr
    | with_reducible apply Moves.ite
    | (with_reducible apply Moves.inSub ha; decide)
    | (with_reducible apply Moves.inSub hq; decide)
    | with_reducible apply Moves.each
    | with_reducible apply Moves.foldl
    | with_reducible intro _
    | (with_reducible apply List.Subset.trans ?_ ha; decide)
    | (with_reducible apply List.Subset.trans ?_ hq; decide)
    | split
    | dsimp only
    | with_reducible apply Moves.set_swaps

theorem State.powerRings_moves (s : State) (k : Nat)
    (ha : [.oe] ⊆ as)
    (h : Moves as ps s0 s) : Moves as ps s0 (State.powerRings s k) := by
  unfold State.powerRings
  repeat' first
    | with_reducible assumption
    | with_reducible apply Moves.refl
    | with_reducible apply Moves.wr
    | with_reducible apply Moves.ite
    | (with_reducible apply Moves.inSub ha; decide)
    | with_reducible apply Moves.each
    | with_reducible apply Moves.foldl
    | with_reducible intro _
    | (with_reducible apply List.Subset.trans ?_ ha; decide)
    | split
    | dsimp only

theorem State.lightLane_moves (s : State) (k : Nat) (on : Bool) (w : Nat)
    (ha : [.oe, .lsu] ⊆ as)
    (h : Moves as ps s0 s) : Moves as ps s0 (State.lightLane s k on w) := by
  unfold State.lightLane
  repeat' first
    | with_reducible assumption
    | with_reducible apply Moves.refl
    | with_reducible apply State.light_moves
    | with_reducible apply Moves.ite
    | (with_reducible apply Moves.inSub ha; decide)
    | with_reducible apply Moves.foldl
    | with_reducible intro _
    | (with_reducible apply List.Subset.trans ?_ ha; decide)
    | split
    | dsimp only

theorem State.covers_moves (s : State)
    (ha : [.lsu] ⊆ as)
    (h : Moves as ps s0 s) : Moves as ps s0 (State.covers s) := by
  unfold State.covers
  repeat' first
    | with_reducible assumption
    | with_reducible apply Moves.refl
    | with_reducible apply Moves.wr
    | with_reducible apply Moves.ite
    | (with_reducible apply Moves.inSub ha; decide)
    | with_reducible apply Moves.foldl
    | with_reducible intro _
    | (with_reducible apply List.Subset.trans ?_ ha; decide)
    | split
    | dsimp only

theorem State.refreshEngine_moves (s : State) (k : Nat)
    (ha : [.cal, .oe, .lnk, .lsu] ⊆ as)
    (hq : [.calJobs, .swaps] ⊆ ps)
    (h : Moves as ps s0 s) : Moves as ps s0 (State.refreshEngine s k) := by
  unfold State.refreshEngine
  repeat' first
    | with_reducible assumption
    | with_reducible apply Moves.refl
    | with_reducible apply State.engineDark_moves
    | with_reducible apply State.dropSwaps_moves
    | with_reducible apply State.powerRings_moves
    | with_reducible apply State.parkRings_moves
    | with_reducible apply State.lightLane_moves
    | with_reducible apply State.covers_moves
    | with_reducible apply State.warmTwins_moves
    | with_reducible apply Moves.wr
    | with_reducible apply Moves.ite
    | (with_reducible apply Moves.inSub ha; decide)
    | (with_reducible apply Moves.inSub hq; decide)
    | with_reducible apply Moves.each
    | with_reducible apply Moves.foldl
    | with_reducible intro _
    | (with_reducible apply List.Subset.trans ?_ ha; decide)
    | (with_reducible apply List.Subset.trans ?_ hq; decide)
    | split
    | dsimp only

theorem State.noteLost_moves (s : State) (k : Nat)
    (ha : [.oe] ⊆ as)
    (h : Moves as ps s0 s) : Moves as ps s0 (State.noteLost s k) := by
  unfold State.noteLost
  repeat' first
    | with_reducible assumption
    | with_reducible apply Moves.refl
    | with_reducible apply Moves.wr
    | with_reducible apply Moves.ite
    | (with_reducible apply Moves.inSub ha; decide)
    | with_reducible apply Moves.foldl
    | with_reducible intro _
    | (with_reducible apply List.Subset.trans ?_ ha; decide)
    | split
    | dsimp only

theorem State.setPort_moves (s : State) (n : Nat) (st : Nat)
    (ha : [.events, .cal, .oe, .lnk, .lsu] ⊆ as)
    (hq : [.calJobs, .swaps] ⊆ ps)
    (h : Moves as ps s0 s) : Moves as ps s0 (State.setPort s n st) := by
  unfold State.setPort
  repeat' first
    | with_reducible assumption
    | with_reducible apply Moves.refl
    | with_reducible apply State.refreshEngine_moves
    | with_reducible apply State.noteLost_moves
    | with_reducible apply Moves.wr
    | with_reducible apply Moves.ite
    | (with_reducible apply Moves.inSub ha; decide)
    | (with_reducible apply Moves.inSub hq; decide)
    | with_reducible apply Moves.foldl
    | with_reducible intro _
    | (with_reducible apply List.Subset.trans ?_ ha; decide)
    | (with_reducible apply List.Subset.trans ?_ hq; decide)
    | split
    | dsimp only

theorem State.darkLanes_moves (s : State) (n : Nat)
    (ha : [.lnk] ⊆ as)
    (hq : [.links] ⊆ ps)
    (h : Moves as ps s0 s) : Moves as ps s0 (State.darkLanes s n) := by
  unfold State.darkLanes
  repeat' first
    | with_reducible assumption
    | with_reducible apply Moves.refl
    | with_reducible apply State.setLane_moves
    | with_reducible apply State.setLink_moves
    | with_reducible apply Moves.wr
    | with_reducible apply Moves.ite
    | (with_reducible apply Moves.inSub ha; decide)
    | (with_reducible apply Moves.inSub hq; decide)
    | with_reducible apply Moves.each
    | with_reducible apply Moves.foldl
    | with_reducible intro _
    | (with_reducible apply List.Subset.trans ?_ ha; decide)
    | (with_reducible apply List.Subset.trans ?_ hq; decide)
    | split
    | dsimp only

theorem State.portOff_moves (s : State) (n : Nat)
    (ha : [.events, .cal, .oe, .lnk, .lsu] ⊆ as)
    (hq : [.calJobs, .swaps, .spareNeeds, .links] ⊆ ps)
    (h : Moves as ps s0 s) : Moves as ps s0 (State.portOff s n) := by
  unfold State.portOff
  repeat' first
    | with_reducible assumption
    | with_reducible apply Moves.refl
    | with_reducible apply State.setPort_moves
    | with_reducible apply State.leaveSpares_moves
    | with_reducible apply State.darkLanes_moves
    | with_reducible apply State.setLink_moves
    | with_reducible apply Moves.ite
    | (with_reducible apply Moves.inSub ha; decide)
    | (with_reducible apply Moves.inSub hq; decide)
    | with_reducible apply Moves.foldl
    | with_reducible intro _
    | (with_reducible apply List.Subset.trans ?_ ha; decide)
    | (with_reducible apply List.Subset.trans ?_ hq; decide)
    | split
    | dsimp only

theorem State.setRxExp_moves (s : State) (n : Nat) (v : Nat) (x : Nat)
    (ha : [.lnk] ⊆ as)
    (hq : [.links] ⊆ ps)
    (h : Moves as ps s0 s) : Moves as ps s0 (State.setRxExp s n v x) := by
  unfold State.setRxExp
  repeat' first
    | with_reducible assumption
    | with_reducible apply Moves.refl
    | with_reducible apply State.setLink_moves
    | with_reducible apply Moves.wr
    | with_reducible apply Moves.ite
    | (with_reducible apply Moves.inSub ha; decide)
    | (with_reducible apply Moves.inSub hq; decide)
    | with_reducible apply Moves.foldl
    | with_reducible intro _
    | (with_reducible apply List.Subset.trans ?_ ha; decide)
    | (with_reducible apply List.Subset.trans ?_ hq; decide)
    | split
    | dsimp only

theorem State.ddlCount_moves (s : State) (n : Nat) (f : Field)
    (hf : f.area ∈ as)
    (h : Moves as ps s0 s) : Moves as ps s0 (State.ddlCount s n f) := by
  unfold State.ddlCount
  repeat' first
    | with_reducible assumption
    | with_reducible apply Moves.refl
    | with_reducible apply Moves.bump
    | with_reducible apply Moves.ite
    | with_reducible apply Moves.foldl
    | with_reducible intro _
    | split
    | dsimp only

theorem State.emit_moves (s : State) (n : Nat) (lane : Nat) (l : List RawBlock)
    (ha : [.lnk] ⊆ as)
    (hq : [.out] ⊆ ps)
    (h : Moves as ps s0 s) : Moves as ps s0 (State.emit s n lane l) := by
  unfold State.emit
  repeat' first
    | with_reducible assumption
    | with_reducible apply Moves.refl
    | with_reducible apply State.send_moves
    | with_reducible apply Moves.wr
    | with_reducible apply Moves.ite
    | (with_reducible apply Moves.inSub ha; decide)
    | (with_reducible apply Moves.inSub hq; decide)
    | with_reducible apply Moves.foldl
    | with_reducible intro _
    | (with_reducible apply List.Subset.trans ?_ ha; decide)
    | (with_reducible apply List.Subset.trans ?_ hq; decide)
    | split
    | dsimp only

theorem State.count_moves (s : State) (n : Nat) (f : Field)
    (hf : f.area ∈ as)
    (h : Moves as ps s0 s) : Moves as ps s0 (State.count s n f) := by
  unfold State.count
  repeat' first
    | with_reducible assumption
    | with_reducible apply Moves.refl
    | with_reducible apply Moves.bump
    | with_reducible apply Moves.ite
    | with_reducible apply Moves.foldl
    | with_reducible intro _
    | split
    | dsimp only

theorem State.setCredit_moves (s : State) (n : Nat) (v : Nat) (x : Nat)
    (ha : [.lnk] ⊆ as)
    (hq : [.links] ⊆ ps)
    (h : Moves as ps s0 s) : Moves as ps s0 (State.setCredit s n v x) := by
  unfold State.setCredit
  refine Moves.ite (fun _ => Moves.wr _ _ _ _ ?_ h) (fun _ => State.setLink_moves _ _ _ hq h)
  unfold creditField
  split
  · exact ha (by decide)
  · split <;> exact ha (by decide)

theorem State.setEnd_moves (s : State) (n : Nat) (st : Nat)
    (ha : [.events, .cal, .ddl, .oe, .lnk, .lsu] ⊆ as)
    (hq : [.calJobs, .swaps, .links] ⊆ ps)
    (h : Moves as ps s0 s) : Moves as ps s0 (State.setEnd s n st) := by
  unfold State.setEnd
  repeat' first
    | with_reducible assumption
    | with_reducible apply Moves.refl
    | with_reducible apply State.setPort_moves
    | with_reducible apply State.setLink_moves
    | with_reducible apply Moves.wr
    | with_reducible apply Moves.ite
    | (with_reducible apply Moves.inSub ha; decide)
    | (with_reducible apply Moves.inSub hq; decide)
    | with_reducible apply Moves.foldl
    | with_reducible intro _
    | (with_reducible apply List.Subset.trans ?_ ha; decide)
    | (with_reducible apply List.Subset.trans ?_ hq; decide)
    | split
    | dsimp only

theorem State.toClock_moves (s : State) (n : Nat) (t : Nat)
    (ha : [.events, .cal, .ddl, .oe, .lnk, .lsu] ⊆ as)
    (hq : [.calJobs, .swaps, .links] ⊆ ps)
    (h : Moves as ps s0 s) : Moves as ps s0 (State.toClock s n t) := by
  unfold State.toClock
  repeat' first
    | with_reducible assumption
    | with_reducible apply Moves.refl
    | with_reducible apply State.setLink_moves
    | with_reducible apply State.setEnd_moves
    | with_reducible apply Moves.wr
    | with_reducible apply Moves.ite
    | (with_reducible apply Moves.inSub ha; decide)
    | (with_reducible apply Moves.inSub hq; decide)
    | with_reducible apply Moves.foldl
    | with_reducible intro _
    | (with_reducible apply List.Subset.trans ?_ ha; decide)
    | (with_reducible apply List.Subset.trans ?_ hq; decide)
    | split
    | dsimp only

theorem State.moveBank_moves (s : State) (src : Nat) (dst : Nat) (j : Nat)
    (ha : [.oe, .lsu] ⊆ as)
    (h : Moves as ps s0 s) : Moves as ps s0 (State.moveBank s src dst j) := by
  unfold State.moveBank
  repeat' first
    | with_reducible assumption
    | with_reducible apply Moves.refl
    | with_reducible apply State.light_moves
    | with_reducible apply Moves.ite
    | (with_reducible apply Moves.inSub ha; decide)
    | with_reducible apply Moves.foldl
    | with_reducible intro _
    | (with_reducible apply List.Subset.trans ?_ ha; decide)
    | split
    | dsimp only

theorem State.receiveAck_moves (s : State) (n : Nat) (kind : Nat) (arg : Nat) (reqno : Nat) (run : State → State)
    (hq : [.links] ⊆ ps)
    (hr : ∀ x0, Moves as ps s0 x0 → Moves as ps s0 (run x0))
    (h : Moves as ps s0 s) : Moves as ps s0 (State.receiveAck s n kind arg reqno run) := by
  unfold State.receiveAck
  repeat' first
    | with_reducible assumption
    | with_reducible apply Moves.refl
    | with_reducible apply State.issueNext_moves
    | with_reducible apply State.setLink_moves
    | with_reducible apply Moves.ite
    | (with_reducible apply Moves.inSub hq; decide)
    | with_reducible apply Moves.foldl
    | with_reducible apply hr
    | with_reducible intro _
    | (with_reducible apply List.Subset.trans ?_ hq; decide)
    | split
    | dsimp only

theorem State.setTxNext_moves (s : State) (n : Nat) (v : Nat) (x : Nat)
    (ha : [.lnk] ⊆ as)
    (hq : [.links] ⊆ ps)
    (h : Moves as ps s0 s) : Moves as ps s0 (State.setTxNext s n v x) := by
  unfold State.setTxNext
  repeat' first
    | with_reducible assumption
    | with_reducible apply Moves.refl
    | with_reducible apply State.setLink_moves
    | with_reducible apply Moves.wr
    | with_reducible apply Moves.ite
    | (with_reducible apply Moves.inSub ha; decide)
    | (with_reducible apply Moves.inSub hq; decide)
    | with_reducible apply Moves.foldl
    | with_reducible intro _
    | (with_reducible apply List.Subset.trans ?_ ha; decide)
    | (with_reducible apply List.Subset.trans ?_ hq; decide)
    | split
    | dsimp only

theorem State.ddlBump_moves (s : State) (l : Nat) (f : Field)
    (hf : f.area ∈ as)
    (h : Moves as ps s0 s) : Moves as ps s0 (State.ddlBump s l f) := by
  unfold State.ddlBump
  repeat' first
    | with_reducible assumption
    | with_reducible apply Moves.refl
    | with_reducible apply Moves.bump
    | with_reducible apply Moves.ite
    | with_reducible apply Moves.foldl
    | with_reducible intro _
    | split
    | dsimp only

theorem State.holdMarks_moves (s : State) (n : Nat) (before : List (Nat × Bool)) (reqno : Nat)
    (hq : [.links] ⊆ ps)
    (h : Moves as ps s0 s) : Moves as ps s0 (State.holdMarks s n before reqno) := by
  unfold State.holdMarks
  repeat' first
    | with_reducible assumption
    | with_reducible apply Moves.refl
    | with_reducible apply State.setLink_moves
    | with_reducible apply Moves.ite
    | (with_reducible apply Moves.inSub hq; decide)
    | with_reducible apply Moves.foldl
    | with_reducible intro _
    | (with_reducible apply List.Subset.trans ?_ hq; decide)
    | split
    | dsimp only

theorem State.markSeen_moves (s : State) (n : Nat) (mine : Bool) (lane : Nat) (join : Bool)
    (hq : [.links] ⊆ ps)
    (h : Moves as ps s0 s) : Moves as ps s0 (State.markSeen s n mine lane join) := by
  unfold State.markSeen
  repeat' first
    | with_reducible assumption
    | with_reducible apply Moves.refl
    | with_reducible apply State.issueNext_moves
    | with_reducible apply State.setLink_moves
    | with_reducible apply Moves.ite
    | (with_reducible apply Moves.inSub hq; decide)
    | with_reducible apply Moves.foldl
    | with_reducible intro _
    | (with_reducible apply List.Subset.trans ?_ hq; decide)
    | split
    | dsimp only

theorem State.retainHigh_moves (s : State) (c : Nat)
    (ha : [.gal] ⊆ as)
    (h : Moves as ps s0 s) : Moves as ps s0 (State.retainHigh s c) := by
  unfold State.retainHigh
  repeat' first
    | with_reducible assumption
    | with_reducible apply Moves.refl
    | with_reducible apply Moves.wr
    | with_reducible apply Moves.ite
    | (with_reducible apply Moves.inSub ha; decide)
    | with_reducible apply Moves.foldl
    | with_reducible intro _
    | (with_reducible apply List.Subset.trans ?_ ha; decide)
    | split
    | dsimp only

theorem State.settleLink_moves (s : State) (n : Nat)
    (ha : [.fab, .gal, .lnk] ⊆ as)
    (hq : [.links] ⊆ ps)
    (h : Moves as ps s0 s) : Moves as ps s0 (State.settleLink s n) := by
  unfold State.settleLink
  repeat' first
    | with_reducible assumption
    | with_reducible apply Moves.refl
    | with_reducible apply State.linkFields_moves
    | with_reducible apply State.retainHigh_moves
    | with_reducible apply State.setLink_moves
    | with_reducible apply Moves.ite
    | (with_reducible apply Moves.inSub ha; decide)
    | (with_reducible apply Moves.inSub hq; decide)
    | with_reducible apply Moves.foldl
    | with_reducible intro _
    | (with_reducible apply List.Subset.trans ?_ ha; decide)
    | (with_reducible apply List.Subset.trans ?_ hq; decide)
    | split
    | dsimp only

theorem State.receiveReq_moves (s : State) (n : Nat) (kind : Nat) (arg : Nat) (reqno : Nat) (peer : Nat) (run : State → State)
    (ha : [.lnk] ⊆ as)
    (hq : [.links] ⊆ ps)
    (hr : ∀ x0, Moves as ps s0 x0 → Moves as ps s0 (run x0))
    (h : Moves as ps s0 s) : Moves as ps s0 (State.receiveReq s n kind arg reqno peer run) := by
  unfold State.receiveReq
  repeat' first
    | with_reducible assumption
    | with_reducible apply Moves.refl
    | with_reducible apply State.sendByp_moves
    | with_reducible apply State.holdMarks_moves
    | with_reducible apply State.setLink_moves
    | with_reducible apply State.count_moves
    | with_reducible apply State.issueNext_moves
    | with_reducible apply Moves.ite
    | (with_reducible apply Moves.inSub ha; decide)
    | (with_reducible apply Moves.inSub hq; decide)
    | with_reducible apply Moves.foldl
    | with_reducible apply hr
    | with_reducible intro _
    | (with_reducible apply List.Subset.trans ?_ ha; decide)
    | (with_reducible apply List.Subset.trans ?_ hq; decide)
    | split
    | dsimp only

theorem State.ackRx_moves (s : State) (n : Nat) (v : Nat) (a : Nat)
    (ha : [.fab, .gal, .lnk] ⊆ as)
    (hq : [.links] ⊆ ps)
    (h : Moves as ps s0 s) : Moves as ps s0 (State.ackRx s n v a) := by
  unfold State.ackRx
  repeat' first
    | with_reducible assumption
    | with_reducible apply Moves.refl
    | with_reducible apply State.settleLink_moves
    | with_reducible apply State.setLink_moves
    | with_reducible apply Moves.ite
    | (with_reducible apply Moves.inSub ha; decide)
    | (with_reducible apply Moves.inSub hq; decide)
    | with_reducible apply Moves.foldl
    | with_reducible intro _
    | (with_reducible apply List.Subset.trans ?_ ha; decide)
    | (with_reducible apply List.Subset.trans ?_ hq; decide)
    | split
    | dsimp only

end Sys2Proof.Machine
end

