-- ==== Sys2Proof/Laws/MovesPairBase.lean ====
section
/-!
SUPPORT. Footprints of the operations of Machine/PairBase.lean.
-/

namespace Sys2Proof.Machine

variable {as : List Area} {ps : List Part} {s0 : State}

theorem State.mirrorFrame_moves (s : State) (n : Nat) (f : Nat) (bytes : List Sys2Proof.Byte)
    (hq : [.links] ⊆ ps)
    (h : Moves as ps s0 s) : Moves as ps s0 (State.mirrorFrame s n f bytes) := by
  unfold State.mirrorFrame
  repeat' first
    | with_reducible assumption
    | with_reducible apply Moves.refl
    | with_reducible apply State.setLink_moves
    | with_reducible apply Moves.ite
    | (with_reducible apply Moves.inSub hq; decide)
    | with_reducible apply Moves.foldl
    | with_reducible intro _
    | (with_reducible apply List.Subset.trans ?_ hq; decide)
    | split
    | dsimp only

theorem State.mirrorWrites_moves (q f chase edition : Nat) (hq : [.links] ⊆ ps) :
    ∀ (n addr : Nat) (s : State), Moves as ps s0 s →
      Moves as ps s0 (State.mirrorWrites s q f chase edition addr n)
  | 0, _, _, h => h
  | 1, _, s, h => State.mirrorFrame_moves s _ _ _ hq h
  | 2, _, s, h => State.mirrorFrame_moves s _ _ _ hq h
  | n + 3, _, s, h => State.mirrorWrites_moves q f chase edition hq n _ _ (State.mirrorFrame_moves s _ _ _ hq h)

theorem State.sendResync_moves (s : State) (q : Nat) (f : Forme)
    (hq : [.links] ⊆ ps)
    (h : Moves as ps s0 s) : Moves as ps s0 (State.sendResync s q f) := by
  unfold State.sendResync
  repeat' first
    | with_reducible assumption
    | with_reducible apply Moves.refl
    | with_reducible apply State.mirrorWrites_moves
    | with_reducible apply Moves.ite
    | (with_reducible apply Moves.inSub hq; decide)
    | with_reducible apply Moves.each
    | with_reducible apply Moves.foldl
    | with_reducible intro _
    | (with_reducible apply List.Subset.trans ?_ hq; decide)
    | split
    | dsimp only

theorem State.sendRecord_moves (s : State) (q : Nat) (r : Sys2Proof.CkptRecord)
    (hq : [.links] ⊆ ps)
    (h : Moves as ps s0 s) : Moves as ps s0 (State.sendRecord s q r) := by
  unfold State.sendRecord
  repeat' first
    | with_reducible assumption
    | with_reducible apply Moves.refl
    | with_reducible apply State.mirrorFrame_moves
    | with_reducible apply Moves.ite
    | (with_reducible apply Moves.inSub hq; decide)
    | with_reducible apply Moves.foldl
    | with_reducible intro _
    | (with_reducible apply List.Subset.trans ?_ hq; decide)
    | split
    | dsimp only

theorem State.sendBases_moves (s : State) (q : Nat) (f : Forme) (edition : Nat)
    (hq : [.links] ⊆ ps)
    (h : Moves as ps s0 s) : Moves as ps s0 (State.sendBases s q f edition) := by
  unfold State.sendBases
  repeat' first
    | with_reducible assumption
    | with_reducible apply Moves.refl
    | with_reducible apply State.mirrorFrame_moves
    | with_reducible apply Moves.ite
    | (with_reducible apply Moves.inSub hq; decide)
    | with_reducible apply Moves.each
    | with_reducible apply Moves.foldl
    | with_reducible intro _
    | (with_reducible apply List.Subset.trans ?_ hq; decide)
    | split
    | dsimp only

theorem State.tryMirror_moves (s : State) (f : Nat)
    (ha : [.forme, .pair] ⊆ as)
    (hq : [.links] ⊆ ps)
    (h : Moves as ps s0 s) : Moves as ps s0 (State.tryMirror s f) := by
  unfold State.tryMirror
  repeat' first
    | with_reducible assumption
    | with_reducible apply Moves.refl
    | with_reducible apply State.sendResync_moves
    | with_reducible apply State.sendRecord_moves
    | with_reducible apply State.sendBases_moves
    | with_reducible apply Moves.wr
    | with_reducible apply Moves.ite
    | (with_reducible apply Moves.inSub ha; decide)
    | (with_reducible apply Moves.inSub hq; decide)
    | with_reducible apply Moves.foldl
    | with_reducible intro _
    | (with_reducible apply List.Subset.trans ?_ ha; decide)
    | (with_reducible apply List.Subset.trans ?_ hq; decide)
    | split
    | dsimp only

theorem State.sendAgain_moves (s : State) (f : Nat)
    (ha : [.forme, .pair] ⊆ as)
    (hq : [.links] ⊆ ps)
    (h : Moves as ps s0 s) : Moves as ps s0 (State.sendAgain s f) := by
  unfold State.sendAgain
  repeat' first
    | with_reducible assumption
    | with_reducible apply Moves.refl
    | with_reducible apply State.tryMirror_moves
    | with_reducible apply Moves.wr
    | with_reducible apply Moves.ite
    | (with_reducible apply Moves.inSub ha; decide)
    | (with_reducible apply Moves.inSub hq; decide)
    | with_reducible apply Moves.foldl
    | with_reducible intro _
    | (with_reducible apply List.Subset.trans ?_ ha; decide)
    | (with_reducible apply List.Subset.trans ?_ hq; decide)
    | split
    | dsimp only

theorem State.mirrorMove_moves (s : State) (f : Forme)
    (ha : [.forme, .pair] ⊆ as)
    (hq : [.links] ⊆ ps)
    (h : Moves as ps s0 s) : Moves as ps s0 (State.mirrorMove s f) := by
  unfold State.mirrorMove
  repeat' first
    | with_reducible assumption
    | with_reducible apply Moves.refl
    | with_reducible apply State.mirrorWrites_moves
    | with_reducible apply State.sendAgain_moves
    | with_reducible apply Moves.wr
    | with_reducible apply Moves.bump
    | with_reducible apply Moves.ite
    | (with_reducible apply Moves.inSub ha; decide)
    | (with_reducible apply Moves.inSub hq; decide)
    | with_reducible apply Moves.each
    | with_reducible apply Moves.foldl
    | with_reducible intro _
    | (with_reducible apply List.Subset.trans ?_ ha; decide)
    | (with_reducible apply List.Subset.trans ?_ hq; decide)
    | split
    | dsimp only

theorem State.yieldForme_moves (s : State) (cause : Nat) (f : Nat)
    (ha : [.forme, .cmp, .col, .prs] ⊆ as)
    (hq : [.presses, .jobs, .lateXfers, .drains, .links, .relays, .freeCount] ⊆ ps)
    (h : Moves as ps s0 s) : Moves as ps s0 (State.yieldForme s cause f) := by
  unfold State.yieldForme
  repeat' first
    | with_reducible assumption
    | with_reducible apply Moves.refl
    | with_reducible apply State.stopUnits_moves
    | with_reducible apply Moves.wr
    | with_reducible apply Moves.ite
    | (with_reducible apply Moves.inSub ha; decide)
    | (with_reducible apply Moves.inSub hq; decide)
    | with_reducible apply Moves.foldl
    | with_reducible intro _
    | (with_reducible apply List.Subset.trans ?_ ha; decide)
    | (with_reducible apply List.Subset.trans ?_ hq; decide)
    | split
    | dsimp only

theorem State.dropMirror_moves (s : State) (f : Forme)
    (ha : [.forme] ⊆ as)
    (hq : [.links] ⊆ ps)
    (h : Moves as ps s0 s) : Moves as ps s0 (State.dropMirror s f) := by
  unfold State.dropMirror
  repeat' first
    | with_reducible assumption
    | with_reducible apply Moves.refl
    | with_reducible apply State.setLink_moves
    | with_reducible apply Moves.wr
    | with_reducible apply Moves.ite
    | (with_reducible apply Moves.inSub ha; decide)
    | (with_reducible apply Moves.inSub hq; decide)
    | with_reducible apply Moves.each
    | with_reducible apply Moves.foldl
    | with_reducible intro _
    | (with_reducible apply List.Subset.trans ?_ ha; decide)
    | (with_reducible apply List.Subset.trans ?_ hq; decide)
    | split
    | dsimp only

theorem State.refreshPair_moves (s : State)
    (ha : [.forme, .pair, .events] ⊆ as)
    (hq : [.links] ⊆ ps)
    (h : Moves as ps s0 s) : Moves as ps s0 (State.refreshPair s) := by
  unfold State.refreshPair
  repeat' first
    | with_reducible assumption
    | with_reducible apply Moves.refl
    | with_reducible apply State.dropMirror_moves
    | with_reducible apply Moves.wr
    | with_reducible apply Moves.ite
    | (with_reducible apply Moves.inSub ha; decide)
    | (with_reducible apply Moves.inSub hq; decide)
    | with_reducible apply Moves.each
    | with_reducible apply Moves.foldl
    | with_reducible intro _
    | (with_reducible apply List.Subset.trans ?_ ha; decide)
    | (with_reducible apply List.Subset.trans ?_ hq; decide)
    | split
    | dsimp only

theorem State.yieldWith_moves (s : State) (cause : Nat)
    (ha : [.forme, .pair, .events, .cal, .cmp, .col, .prs, .oe, .lnk, .lsu] ⊆ as)
    (hq : [.presses, .jobs, .lateXfers, .drains, .calJobs, .swaps, .spareNeeds, .links, .relays, .freeCount] ⊆ ps)
    (h : Moves as ps s0 s) : Moves as ps s0 (State.yieldWith s cause) := by
  unfold State.yieldWith
  repeat' first
    | with_reducible assumption
    | with_reducible apply Moves.refl
    | with_reducible apply State.yieldForme_moves
    | with_reducible apply State.portOff_moves
    | with_reducible apply State.refreshPair_moves
    | with_reducible apply Moves.wr
    | with_reducible apply Moves.ite
    | (with_reducible apply Moves.inSub ha; decide)
    | (with_reducible apply Moves.inSub hq; decide)
    | with_reducible apply Moves.each
    | with_reducible apply Moves.foldl
    | with_reducible intro _
    | (with_reducible apply List.Subset.trans ?_ ha; decide)
    | (with_reducible apply List.Subset.trans ?_ hq; decide)
    | split
    | dsimp only

theorem State.swapYield_moves (s : State)
    (ha : [.forme, .pair, .events, .cal, .cmp, .col, .prs, .oe, .lnk, .lsu] ⊆ as)
    (hq : [.presses, .jobs, .lateXfers, .drains, .calJobs, .swaps, .spareNeeds, .links, .relays, .freeCount] ⊆ ps)
    (h : Moves as ps s0 s) : Moves as ps s0 (State.swapYield s) := by
  unfold State.swapYield
  repeat' first
    | with_reducible assumption
    | with_reducible apply Moves.refl
    | with_reducible apply State.yieldWith_moves
    | with_reducible apply Moves.ite
    | (with_reducible apply Moves.inSub ha; decide)
    | (with_reducible apply Moves.inSub hq; decide)
    | with_reducible apply Moves.foldl
    | with_reducible intro _
    | (with_reducible apply List.Subset.trans ?_ ha; decide)
    | (with_reducible apply List.Subset.trans ?_ hq; decide)
    | split
    | dsimp only

theorem State.capUnmet_moves (s : State)
    (ha : [.pwr] ⊆ as)
    (h : Moves as ps s0 s) : Moves as ps s0 (State.capUnmet s) := by
  unfold State.capUnmet
  repeat' first
    | with_reducible assumption
    | with_reducible apply Moves.refl
    | with_reducible apply Moves.wr
    | with_reducible apply Moves.ite
    | (with_reducible apply Moves.inSub ha; decide)
    | with_reducible apply Moves.foldl
    | with_reducible intro _
    | (with_reducible apply List.Subset.trans ?_ ha; decide)
    | split
    | dsimp only

theorem State.parkForme_moves (s : State) (f : Nat) (reason : Nat) (replay : Bool)
    (ha : [.forme, .pwr] ⊆ as)
    (h : Moves as ps s0 s) : Moves as ps s0 (State.parkForme s f reason replay) := by
  unfold State.parkForme
  repeat' first
    | with_reducible assumption
    | with_reducible apply Moves.refl
    | with_reducible apply State.capUnmet_moves
    | with_reducible apply Moves.wr
    | with_reducible apply Moves.ite
    | (with_reducible apply Moves.inSub ha; decide)
    | with_reducible apply Moves.foldl
    | with_reducible intro _
    | (with_reducible apply List.Subset.trans ?_ ha; decide)
    | split
    | dsimp only

theorem State.setRole_moves (s : State) (r : Nat)
    (ha : [.pair, .events] ⊆ as)
    (h : Moves as ps s0 s) : Moves as ps s0 (State.setRole s r) := by
  unfold State.setRole
  repeat' first
    | with_reducible assumption
    | with_reducible apply Moves.refl
    | with_reducible apply Moves.wr
    | with_reducible apply Moves.ite
    | (with_reducible apply Moves.inSub ha; decide)
    | with_reducible apply Moves.foldl
    | with_reducible intro _
    | (with_reducible apply List.Subset.trans ?_ ha; decide)
    | split
    | dsimp only

theorem State.sendHello_moves (s : State) (q : Nat)
    (hq : [.links] ⊆ ps)
    (h : Moves as ps s0 s) : Moves as ps s0 (State.sendHello s q) := by
  unfold State.sendHello
  repeat' first
    | with_reducible assumption
    | with_reducible apply Moves.refl
    | with_reducible apply State.sendByp_moves
    | with_reducible apply Moves.ite
    | (with_reducible apply Moves.inSub hq; decide)
    | with_reducible apply Moves.foldl
    | with_reducible intro _
    | (with_reducible apply List.Subset.trans ?_ hq; decide)
    | split
    | dsimp only

theorem State.enableSlices_moves (s : State) (f : Nat)
    (hq : [.presses] ⊆ ps)
    (h : Moves as ps s0 s) : Moves as ps s0 (State.enableSlices s f) := by
  unfold State.enableSlices
  repeat' first
    | with_reducible assumption
    | with_reducible apply Moves.refl
    | with_reducible apply Press.ok_init
    | (with_reducible apply State.inv_press; assumption)
    | with_reducible apply Press.Ok.pops
    | with_reducible apply Press.Ok.loseCarry
    | with_reducible apply Press.Ok.signal
    | with_reducible apply Press.Ok.waitTok
    | (with_reducible apply State.inv_caseMem; assumption)
    | with_reducible apply Press.Ok.pop
    | with_reducible apply Press.Ok.writeCase
    | with_reducible apply Press.Ok.enqueueRing
    | with_reducible apply Press.Ok.settle
    | with_reducible apply Press.Ok.ite
    | with_reducible apply Press.Ok.of_wf
    | with_reducible apply Moves.setPress
    | with_reducible apply Moves.ite
    | (with_reducible apply Moves.inSub hq; decide)
    | with_reducible apply Moves.each
    | with_reducible apply Moves.foldl
    | with_reducible intro _
    | (with_reducible apply List.Subset.trans ?_ hq; decide)
    | split
    | dsimp only
    | with_reducible apply Press.Ok.wf

theorem State.ignoreWith_moves (s : State) (f : Nat) (t : Nat) (pend : Field) (tick : Field)
    (ha : [.imp] ⊆ as)
    (hpend : pend.area ∈ as)
    (htick : tick.area ∈ as)
    (h : Moves as ps s0 s) : Moves as ps s0 (State.ignoreWith s f t pend tick) := by
  unfold State.ignoreWith
  repeat' first
    | with_reducible assumption
    | with_reducible apply Moves.refl
    | with_reducible apply Moves.wr
    | with_reducible apply Moves.ite
    | (with_reducible apply Moves.inSub ha; decide)
    | with_reducible apply Moves.foldl
    | with_reducible intro _
    | (with_reducible apply List.Subset.trans ?_ ha; decide)
    | split
    | dsimp only

theorem State.waitCause_moves (s : State) (f : Nat) (cause : Nat)
    (ha : [.forme] ⊆ as)
    (h : Moves as ps s0 s) : Moves as ps s0 (State.waitCause s f cause) := by
  unfold State.waitCause
  repeat' first
    | with_reducible assumption
    | with_reducible apply Moves.refl
    | with_reducible apply Moves.wr
    | with_reducible apply Moves.ite
    | (with_reducible apply Moves.inSub ha; decide)
    | with_reducible apply Moves.foldl
    | with_reducible intro _
    | (with_reducible apply List.Subset.trans ?_ ha; decide)
    | split
    | dsimp only

theorem State.abandon_moves (s : State) (f : Nat) (cause : Nat) (t : Nat)
    (ha : [.imp, .forme, .cmp, .col, .prs] ⊆ as)
    (hq : [.presses, .jobs, .lateXfers, .drains, .links, .relays, .freeCount] ⊆ ps)
    (h : Moves as ps s0 s) : Moves as ps s0 (State.abandon s f cause t) := by
  unfold State.abandon
  repeat' first
    | with_reducible assumption
    | with_reducible apply Moves.refl
    | with_reducible apply State.ignoreWith_moves
    | with_reducible apply State.stopUnits_moves
    | with_reducible apply State.waitCause_moves
    | with_reducible apply Moves.wr
    | with_reducible apply Moves.bump
    | with_reducible apply Moves.ite
    | (with_reducible apply Moves.inSub ha; decide)
    | (with_reducible apply Moves.inSub hq; decide)
    | with_reducible apply Moves.foldl
    | with_reducible intro _
    | (with_reducible apply List.Subset.trans ?_ ha; decide)
    | (with_reducible apply List.Subset.trans ?_ hq; decide)
    | split
    | dsimp only

theorem State.mirrorBack_moves (s : State)
    (ha : [.forme, .pair] ⊆ as)
    (hq : [.links] ⊆ ps)
    (h : Moves as ps s0 s) : Moves as ps s0 (State.mirrorBack s) := by
  unfold State.mirrorBack
  repeat' first
    | with_reducible assumption
    | with_reducible apply Moves.refl
    | with_reducible apply State.mirrorMove_moves
    | with_reducible apply Moves.ite
    | (with_reducible apply Moves.inSub ha; decide)
    | (with_reducible apply Moves.inSub hq; decide)
    | with_reducible apply Moves.each
    | with_reducible apply Moves.foldl
    | with_reducible intro _
    | (with_reducible apply List.Subset.trans ?_ ha; decide)
    | (with_reducible apply List.Subset.trans ?_ hq; decide)
    | split
    | dsimp only

theorem State.abandonPress_moves (s : State) (p : Nat) (cause : Nat) (t : Nat)
    (ha : [.imp, .forme, .cmp, .col, .prs] ⊆ as)
    (hq : [.presses, .jobs, .lateXfers, .drains, .links, .relays, .freeCount] ⊆ ps)
    (h : Moves as ps s0 s) : Moves as ps s0 (State.abandonPress s p cause t) := by
  unfold State.abandonPress
  repeat' first
    | with_reducible assumption
    | with_reducible apply Moves.refl
    | with_reducible apply State.abandon_moves
    | with_reducible apply Moves.ite
    | (with_reducible apply Moves.inSub ha; decide)
    | (with_reducible apply Moves.inSub hq; decide)
    | with_reducible apply Moves.foldl
    | with_reducible intro _
    | (with_reducible apply List.Subset.trans ?_ ha; decide)
    | (with_reducible apply List.Subset.trans ?_ hq; decide)
    | split
    | dsimp only

theorem State.sendHellos_moves (s : State)
    (hq : [.links] ⊆ ps)
    (h : Moves as ps s0 s) : Moves as ps s0 (State.sendHellos s) := by
  unfold State.sendHellos
  repeat' first
    | with_reducible assumption
    | with_reducible apply Moves.refl
    | with_reducible apply State.sendHello_moves
    | with_reducible apply Moves.ite
    | (with_reducible apply Moves.inSub hq; decide)
    | with_reducible apply Moves.each
    | with_reducible apply Moves.foldl
    | with_reducible intro _
    | (with_reducible apply List.Subset.trans ?_ hq; decide)
    | split
    | dsimp only

theorem State.sendBatch_moves (s : State) (q : Nat) (f : Nat)
    (ha : [.forme, .pair] ⊆ as)
    (hq : [.links] ⊆ ps)
    (h : Moves as ps s0 s) : Moves as ps s0 (State.sendBatch s q f) := by
  unfold State.sendBatch
  repeat' first
    | with_reducible assumption
    | with_reducible apply Moves.refl
    | with_reducible apply State.mirrorWrites_moves
    | with_reducible apply State.sendRecord_moves
    | with_reducible apply Moves.wr
    | with_reducible apply Moves.ite
    | (with_reducible apply Moves.inSub ha; decide)
    | (with_reducible apply Moves.inSub hq; decide)
    | with_reducible apply Moves.each
    | with_reducible apply Moves.foldl
    | with_reducible intro _
    | (with_reducible apply List.Subset.trans ?_ ha; decide)
    | (with_reducible apply List.Subset.trans ?_ hq; decide)
    | split
    | dsimp only

theorem State.pairPortLost_moves (s : State) (q : Nat)
    (ha : [.forme, .pair, .events] ⊆ as)
    (hq : [.links] ⊆ ps)
    (h : Moves as ps s0 s) : Moves as ps s0 (State.pairPortLost s q) := by
  unfold State.pairPortLost
  repeat' first
    | with_reducible assumption
    | with_reducible apply Moves.refl
    | with_reducible apply State.mirrorMove_moves
    | with_reducible apply State.refreshPair_moves
    | with_reducible apply Moves.ite
    | (with_reducible apply Moves.inSub ha; decide)
    | (with_reducible apply Moves.inSub hq; decide)
    | with_reducible apply Moves.each
    | with_reducible apply Moves.foldl
    | with_reducible intro _
    | (with_reducible apply List.Subset.trans ?_ ha; decide)
    | (with_reducible apply List.Subset.trans ?_ hq; decide)
    | split
    | dsimp only

theorem State.setRail_moves (s : State) (n : Nat) (x : Nat)
    (ha : [.pwr] ⊆ as)
    (h : Moves as ps s0 s) : Moves as ps s0 (State.setRail s n x) := by
  unfold State.setRail
  repeat' first
    | with_reducible assumption
    | with_reducible apply Moves.refl
    | with_reducible apply Moves.wr
    | with_reducible apply Moves.ite
    | (with_reducible apply Moves.inSub ha; decide)
    | with_reducible apply Moves.foldl
    | with_reducible intro _
    | (with_reducible apply List.Subset.trans ?_ ha; decide)
    | split
    | dsimp only

end Sys2Proof.Machine
end

