-- ==== Sys2Proof/Laws/MovesRepair.lean ====
section
/-!
SUPPORT. Footprints of the operations of Machine/Repair.lean.
-/

namespace Sys2Proof.Machine

variable {as : List Area} {ps : List Part} {s0 : State}

theorem State.mapFields_moves (s : State)
    (ha : [.prf] ⊆ as)
    (h : Moves as ps s0 s) : Moves as ps s0 (State.mapFields s) := by
  unfold State.mapFields
  repeat' first
    | with_reducible assumption
    | with_reducible apply Moves.refl
    | with_reducible apply Moves.wr
    | with_reducible apply Moves.ite
    | (with_reducible apply Moves.inSub ha; decide)
    | with_reducible apply Moves.foldl
    | with_reducible intro _
    | (with_reducible apply List.Subset.trans ?_ ha; decide)
    | split
    | dsimp only

theorem State.addEntry_moves (s : State) (e : MapEntry)
    (ha : [.prf] ⊆ as)
    (hq : [.repairMap] ⊆ ps)
    (h : Moves as ps s0 s) : Moves as ps s0 (State.addEntry s e) := by
  unfold State.addEntry
  repeat' first
    | with_reducible assumption
    | with_reducible apply Moves.refl
    | with_reducible apply State.mapFields_moves
    | with_reducible apply Moves.wr
    | with_reducible apply Moves.bump
    | with_reducible apply Moves.ite
    | (with_reducible apply Moves.inSub ha; decide)
    | (with_reducible apply Moves.inSub hq; decide)
    | with_reducible apply Moves.foldl
    | with_reducible intro _
    | (with_reducible apply List.Subset.trans ?_ ha; decide)
    | (with_reducible apply List.Subset.trans ?_ hq; decide)
    | split
    | dsimp only
    | with_reducible apply Moves.set_repairMap

theorem State.suspect_moves (s : State) (type : Nat) (unit : Nat) (place : Nat) (word : Nat)
    (ha : [.prf] ⊆ as)
    (hq : [.repairMap, .freeCount] ⊆ ps)
    (h : Moves as ps s0 s) : Moves as ps s0 (State.suspect s type unit place word) := by
  unfold State.suspect
  repeat' first
    | with_reducible assumption
    | with_reducible apply Moves.refl
    | with_reducible apply State.addEntry_moves
    | with_reducible apply Moves.wr
    | with_reducible apply Moves.free
    | with_reducible apply Moves.ite
    | (with_reducible apply Moves.inSub ha; decide)
    | (with_reducible apply Moves.inSub hq; decide)
    | with_reducible apply Moves.ite_snd
    | with_reducible apply Moves.foldl
    | with_reducible intro _
    | (with_reducible apply List.Subset.trans ?_ ha; decide)
    | (with_reducible apply List.Subset.trans ?_ hq; decide)
    | split
    | dsimp only

theorem State.ceSeen_moves (s : State) (e : CeEntry) (place : Nat) (word : Nat)
    (ha : [.prf] ⊆ as)
    (hq : [.repairMap, .ceLog, .freeCount] ⊆ ps)
    (h : Moves as ps s0 s) : Moves as ps s0 (State.ceSeen s e place word) := by
  unfold State.ceSeen
  repeat' first
    | with_reducible assumption
    | with_reducible apply Moves.refl
    | with_reducible apply State.suspect_moves
    | with_reducible apply Moves.ite
    | (with_reducible apply Moves.inSub ha; decide)
    | (with_reducible apply Moves.inSub hq; decide)
    | with_reducible apply Moves.foldl
    | with_reducible intro _
    | (with_reducible apply List.Subset.trans ?_ ha; decide)
    | (with_reducible apply List.Subset.trans ?_ hq; decide)
    | split
    | dsimp only
    | with_reducible apply Moves.set_ceLog

theorem State.galCe_moves (s : State) (c : Nat) (code : Nat) (sched : Bool) (line : Nat) (word : Nat)
    (ha : [.prf, .gal] ⊆ as)
    (hq : [.repairMap, .ceLog, .freeCount] ⊆ ps)
    (h : Moves as ps s0 s) : Moves as ps s0 (State.galCe s c code sched line word) := by
  unfold State.galCe
  repeat' first
    | with_reducible assumption
    | with_reducible apply Moves.refl
    | with_reducible apply State.ceSeen_moves
    | with_reducible apply Moves.wr
    | with_reducible apply Moves.bump
    | with_reducible apply Moves.ite
    | (with_reducible apply Moves.inSub ha; decide)
    | (with_reducible apply Moves.inSub hq; decide)
    | with_reducible apply Moves.foldl
    | with_reducible intro _
    | (with_reducible apply List.Subset.trans ?_ ha; decide)
    | (with_reducible apply List.Subset.trans ?_ hq; decide)
    | split
    | dsimp only

theorem State.startFlash_moves (s : State)
    (ha : [.prf] ⊆ as)
    (hq : [.repairMap, .flashQ] ⊆ ps)
    (h : Moves as ps s0 s) : Moves as ps s0 (State.startFlash s) := by
  unfold State.startFlash
  repeat' first
    | with_reducible assumption
    | with_reducible apply Moves.refl
    | with_reducible apply Moves.wr
    | with_reducible apply Moves.ite
    | (with_reducible apply Moves.inSub ha; decide)
    | (with_reducible apply Moves.inSub hq; decide)
    | with_reducible apply Moves.foldl
    | with_reducible intro _
    | (with_reducible apply List.Subset.trans ?_ ha; decide)
    | (with_reducible apply List.Subset.trans ?_ hq; decide)
    | split
    | dsimp only
    | with_reducible apply Moves.set_repairMap
    | with_reducible apply Moves.set_flashQ
    | ((with_reducible apply Moves.update); on_goal 1 => (intro q hn; cases q <;> first | exact absurd (hq (by decide)) hn | rfl))

theorem State.queueFlash_moves (s : State) (j : FlashJob)
    (ha : [.prf] ⊆ as)
    (hq : [.repairMap, .flashQ] ⊆ ps)
    (h : Moves as ps s0 s) : Moves as ps s0 (State.queueFlash s j) := by
  unfold State.queueFlash
  repeat' first
    | with_reducible assumption
    | with_reducible apply Moves.refl
    | with_reducible apply State.startFlash_moves
    | with_reducible apply Moves.ite
    | (with_reducible apply Moves.inSub ha; decide)
    | (with_reducible apply Moves.inSub hq; decide)
    | with_reducible apply Moves.foldl
    | with_reducible intro _
    | (with_reducible apply List.Subset.trans ?_ ha; decide)
    | (with_reducible apply List.Subset.trans ?_ hq; decide)
    | split
    | dsimp only
    | with_reducible apply Moves.set_flashQ

theorem State.failPress_moves (s : State) (p : Nat)
    (ha : [.prs] ⊆ as)
    (hq : [.presses, .freeCount] ⊆ ps)
    (h : Moves as ps s0 s) : Moves as ps s0 (State.failPress s p) := by
  unfold State.failPress
  repeat' first
    | with_reducible assumption
    | with_reducible apply Moves.refl
    | with_reducible apply State.setPState_moves
    | with_reducible apply Moves.wr
    | with_reducible apply Moves.ite
    | (with_reducible apply Moves.inSub ha; decide)
    | (with_reducible apply Moves.inSub hq; decide)
    | with_reducible apply Moves.foldl
    | with_reducible intro _
    | (with_reducible apply List.Subset.trans ?_ ha; decide)
    | (with_reducible apply List.Subset.trans ?_ hq; decide)
    | split
    | dsimp only

theorem State.setDepth_moves (s : State) (p : Nat)
    (ha : [.prs] ⊆ as)
    (hq : [.presses, .freeCount] ⊆ ps)
    (h : Moves as ps s0 s) : Moves as ps s0 (State.setDepth s p) := by
  unfold State.setDepth
  repeat' first
    | with_reducible assumption
    | with_reducible apply Moves.refl
    | with_reducible apply State.failPress_moves
    | with_reducible apply Moves.wr
    | with_reducible apply Moves.ite
    | (with_reducible apply Moves.inSub ha; decide)
    | (with_reducible apply Moves.inSub hq; decide)
    | with_reducible apply Moves.foldl
    | with_reducible intro _
    | (with_reducible apply List.Subset.trans ?_ ha; decide)
    | (with_reducible apply List.Subset.trans ?_ hq; decide)
    | split
    | dsimp only

theorem State.markStrips_moves (s : State) (p : Nat)
    (ha : [.prf, .prs] ⊆ as)
    (hq : [.presses, .repairMap, .flashQ, .freeCount] ⊆ ps)
    (h : Moves as ps s0 s) : Moves as ps s0 (State.markStrips s p) := by
  unfold State.markStrips
  repeat' first
    | with_reducible assumption
    | with_reducible apply Moves.refl
    | with_reducible apply State.addEntry_moves
    | with_reducible apply State.queueFlash_moves
    | with_reducible apply State.setDepth_moves
    | with_reducible apply Moves.wr
    | with_reducible apply Moves.orBit
    | with_reducible apply Moves.ite
    | (with_reducible apply Moves.inSub ha; decide)
    | (with_reducible apply Moves.inSub hq; decide)
    | with_reducible apply Moves.each
    | with_reducible apply Moves.foldl
    | with_reducible intro _
    | (with_reducible apply List.Subset.trans ?_ ha; decide)
    | (with_reducible apply List.Subset.trans ?_ hq; decide)
    | split
    | dsimp only

theorem State.caseCe_moves (s : State) (p : Nat) (word : Nat)
    (ha : [.prf, .case] ⊆ as)
    (hq : [.repairMap, .ceLog, .freeCount] ⊆ ps)
    (h : Moves as ps s0 s) : Moves as ps s0 (State.caseCe s p word) := by
  unfold State.caseCe
  repeat' first
    | with_reducible assumption
    | with_reducible apply Moves.refl
    | with_reducible apply State.ceSeen_moves
    | with_reducible apply Moves.wr
    | with_reducible apply Moves.bump
    | with_reducible apply Moves.ite
    | (with_reducible apply Moves.inSub ha; decide)
    | (with_reducible apply Moves.inSub hq; decide)
    | with_reducible apply Moves.foldl
    | with_reducible intro _
    | (with_reducible apply List.Subset.trans ?_ ha; decide)
    | (with_reducible apply List.Subset.trans ?_ hq; decide)
    | split
    | dsimp only

theorem State.caseCes_moves (s : State) (p : Nat) (ws : List Nat)
    (ha : [.prf, .case] ⊆ as)
    (hq : [.repairMap, .ceLog, .freeCount] ⊆ ps)
    (h : Moves as ps s0 s) : Moves as ps s0 (State.caseCes s p ws) := by
  unfold State.caseCes
  repeat' first
    | with_reducible assumption
    | with_reducible apply Moves.refl
    | with_reducible apply State.caseCe_moves
    | with_reducible apply Moves.wr
    | with_reducible apply Moves.ite
    | (with_reducible apply Moves.inSub ha; decide)
    | (with_reducible apply Moves.inSub hq; decide)
    | with_reducible apply Moves.each
    | with_reducible apply Moves.foldl
    | with_reducible intro _
    | (with_reducible apply List.Subset.trans ?_ ha; decide)
    | (with_reducible apply List.Subset.trans ?_ hq; decide)
    | split
    | dsimp only

theorem State.memCe_moves (s : State) (m : Nat) (b : Sys2Proof.BurstErr)
    (ha : [.prf, .mem] ⊆ as)
    (hq : [.repairMap, .ceLog, .freeCount] ⊆ ps)
    (h : Moves as ps s0 s) : Moves as ps s0 (State.memCe s m b) := by
  unfold State.memCe
  repeat' first
    | with_reducible assumption
    | with_reducible apply Moves.refl
    | with_reducible apply State.ceSeen_moves
    | with_reducible apply Moves.wr
    | with_reducible apply Moves.bump
    | with_reducible apply Moves.ite
    | (with_reducible apply Moves.inSub ha; decide)
    | (with_reducible apply Moves.inSub hq; decide)
    | with_reducible apply Moves.foldl
    | with_reducible intro _
    | (with_reducible apply List.Subset.trans ?_ ha; decide)
    | (with_reducible apply List.Subset.trans ?_ hq; decide)
    | split
    | dsimp only

theorem State.galCes_moves (s : State) (c : Nat) (code : Nat) (sched : Bool) (ws : List Nat)
    (ha : [.prf, .gal] ⊆ as)
    (hq : [.repairMap, .ceLog, .freeCount] ⊆ ps)
    (h : Moves as ps s0 s) : Moves as ps s0 (State.galCes s c code sched ws) := by
  unfold State.galCes
  repeat' first
    | with_reducible assumption
    | with_reducible apply Moves.refl
    | with_reducible apply State.galCe_moves
    | with_reducible apply Moves.ite
    | (with_reducible apply Moves.inSub ha; decide)
    | (with_reducible apply Moves.inSub hq; decide)
    | with_reducible apply Moves.each
    | with_reducible apply Moves.foldl
    | with_reducible intro _
    | (with_reducible apply List.Subset.trans ?_ ha; decide)
    | (with_reducible apply List.Subset.trans ?_ hq; decide)
    | split
    | dsimp only

theorem State.met_moves (s : State) (code : Nat) (sched : Bool) (l : List Sys2Proof.CeSite)
    (ha : [.prf, .gal, .mem] ⊆ as)
    (hq : [.repairMap, .ceLog, .freeCount] ⊆ ps)
    (h : Moves as ps s0 s) : Moves as ps s0 (State.met s code sched l) := by
  unfold State.met
  repeat' first
    | with_reducible assumption
    | with_reducible apply Moves.refl
    | with_reducible apply State.galCe_moves
    | with_reducible apply State.memCe_moves
    | with_reducible apply Moves.ite
    | (with_reducible apply Moves.inSub ha; decide)
    | (with_reducible apply Moves.inSub hq; decide)
    | with_reducible apply Moves.each
    | with_reducible apply Moves.foldl
    | with_reducible intro _
    | (with_reducible apply List.Subset.trans ?_ ha; decide)
    | (with_reducible apply List.Subset.trans ?_ hq; decide)
    | split
    | dsimp only

end Sys2Proof.Machine
end

