-- ==== Sys2Proof/Laws/MovesJobDesc.lean ====
section
/-!
SUPPORT. Footprints of the operations of Machine/JobDesc.lean.
-/

namespace Sys2Proof.Machine

variable {as : List Area} {ps : List Part} {s0 : State}

theorem State.setJob_moves (s : State) (x : Job)
    (hq : [.jobs] ⊆ ps)
    (h : Moves as ps s0 s) : Moves as ps s0 (State.setJob s x) := by
  unfold State.setJob
  repeat' first
    | with_reducible assumption
    | with_reducible apply Moves.refl
    | with_reducible apply Moves.ite
    | (with_reducible apply Moves.inSub hq; decide)
    | with_reducible apply Moves.foldl
    | with_reducible intro _
    | (with_reducible apply List.Subset.trans ?_ hq; decide)
    | split
    | dsimp only
    | with_reducible apply Moves.set_jobs

theorem State.ensureJob_moves (s : State) (f : Nat) (idx : Nat)
    (hq : [.jobs] ⊆ ps)
    (h : Moves as ps s0 s) : Moves as ps s0 (State.ensureJob s f idx) := by
  unfold State.ensureJob
  repeat' first
    | with_reducible assumption
    | with_reducible apply Moves.refl
    | with_reducible apply Moves.ite
    | (with_reducible apply Moves.inSub hq; decide)
    | with_reducible apply Moves.foldl
    | with_reducible intro _
    | (with_reducible apply List.Subset.trans ?_ hq; decide)
    | split
    | dsimp only
    | with_reducible apply Moves.set_jobs

theorem State.land_moves (s : State) (f : Nat) (idx : Nat) (line : Nat)
    (hq : [.jobs] ⊆ ps)
    (h : Moves as ps s0 s) : Moves as ps s0 (State.land s f idx line) := by
  unfold State.land
  repeat' first
    | with_reducible assumption
    | with_reducible apply Moves.refl
    | with_reducible apply State.ensureJob_moves
    | with_reducible apply State.setJob_moves
    | with_reducible apply Moves.ite
    | (with_reducible apply Moves.inSub hq; decide)
    | with_reducible apply Moves.foldl
    | with_reducible intro _
    | (with_reducible apply List.Subset.trans ?_ hq; decide)
    | split
    | dsimp only

end Sys2Proof.Machine
end

