-- ==== Sys2Proof/Laws/MovesSpares.lean ====
section
/-!
SUPPORT. Footprints of the operations of Machine/Spares.lean.
-/

namespace Sys2Proof.Machine

variable {as : List Area} {ps : List Part} {s0 : State}

theorem State.laneMoved_moves (s : State) (n : Nat) (w : Nat)
    (ha : [.oe] ⊆ as)
    (h : Moves as ps s0 s) : Moves as ps s0 (State.laneMoved s n w) := by
  unfold State.laneMoved
  repeat' first
    | with_reducible assumption
    | with_reducible apply Moves.refl
    | with_reducible apply Moves.wr
    | with_reducible apply Moves.ite
    | (with_reducible apply Moves.inSub ha; decide)
    | with_reducible apply Moves.foldl
    | with_reducible intro _
    | (with_reducible apply List.Subset.trans ?_ ha; decide)
    | split
    | dsimp only

theorem State.downSpares_moves (s : State) (n : Nat)
    (ha : [.oe] ⊆ as)
    (hq : [.swaps, .spareNeeds] ⊆ ps)
    (h : Moves as ps s0 s) : Moves as ps s0 (State.downSpares s n) := by
  unfold State.downSpares
  repeat' first
    | with_reducible assumption
    | with_reducible apply Moves.refl
    | with_reducible apply State.leaveSpares_moves
    | with_reducible apply State.laneMoved_moves
    | with_reducible apply Moves.ite
    | (with_reducible apply Moves.inSub ha; decide)
    | (with_reducible apply Moves.inSub hq; decide)
    | with_reducible apply Moves.each
    | with_reducible apply Moves.foldl
    | with_reducible intro _
    | (with_reducible apply List.Subset.trans ?_ ha; decide)
    | (with_reducible apply List.Subset.trans ?_ hq; decide)
    | split
    | dsimp only

theorem State.beginCal_moves (s : State) (n : Nat) (w : Nat)
    (ha : [.cal, .oe] ⊆ as)
    (hq : [.calJobs, .calRuns] ⊆ ps)
    (h : Moves as ps s0 s) : Moves as ps s0 (State.beginCal s n w) := by
  unfold State.beginCal
  repeat' first
    | with_reducible assumption
    | with_reducible apply Moves.refl
    | with_reducible apply State.laneMoved_moves
    | with_reducible apply State.calStart_moves
    | with_reducible apply Moves.ite
    | (with_reducible apply Moves.inSub ha; decide)
    | (with_reducible apply Moves.inSub hq; decide)
    | with_reducible apply Moves.foldl
    | with_reducible intro _
    | (with_reducible apply List.Subset.trans ?_ ha; decide)
    | (with_reducible apply List.Subset.trans ?_ hq; decide)
    | split
    | dsimp only
    | with_reducible apply Moves.set_calJobs
    | with_reducible apply Moves.set_calRuns
    | ((with_reducible apply Moves.update); on_goal 1 => (intro q hn; cases q <;> first | exact absurd (hq (by decide)) hn | rfl))

theorem State.calSpare_moves (s : State) (k : Nat) (f : Nat) (w : Nat)
    (ha : [.oe] ⊆ as)
    (h : Moves as ps s0 s) : Moves as ps s0 (State.calSpare s k f w) := by
  unfold State.calSpare
  repeat' first
    | with_reducible assumption
    | with_reducible apply Moves.refl
    | with_reducible apply State.putSpare_moves
    | with_reducible apply Moves.ite
    | (with_reducible apply Moves.inSub ha; decide)
    | with_reducible apply Moves.foldl
    | with_reducible intro _
    | (with_reducible apply List.Subset.trans ?_ ha; decide)
    | split
    | dsimp only

theorem State.calSpares_moves (s : State) (n : Nat) (w : Nat)
    (ha : [.oe] ⊆ as)
    (h : Moves as ps s0 s) : Moves as ps s0 (State.calSpares s n w) := by
  unfold State.calSpares
  repeat' first
    | with_reducible assumption
    | with_reducible apply Moves.refl
    | with_reducible apply State.calSpare_moves
    | with_reducible apply Moves.ite
    | (with_reducible apply Moves.inSub ha; decide)
    | with_reducible apply Moves.foldl
    | with_reducible intro _
    | (with_reducible apply List.Subset.trans ?_ ha; decide)
    | split
    | dsimp only

theorem State.startCal_moves (s : State) (n : Nat) (w : Nat)
    (ha : [.cal, .oe] ⊆ as)
    (hq : [.calJobs, .calRuns, .links] ⊆ ps)
    (h : Moves as ps s0 s) : Moves as ps s0 (State.startCal s n w) := by
  unfold State.startCal
  repeat' first
    | with_reducible assumption
    | with_reducible apply Moves.refl
    | with_reducible apply State.beginCal_moves
    | with_reducible apply State.laneReq_moves
    | with_reducible apply State.calSpares_moves
    | with_reducible apply Moves.ite
    | (with_reducible apply Moves.inSub ha; decide)
    | (with_reducible apply Moves.inSub hq; decide)
    | with_reducible apply Moves.foldl
    | with_reducible intro _
    | (with_reducible apply List.Subset.trans ?_ ha; decide)
    | (with_reducible apply List.Subset.trans ?_ hq; decide)
    | split
    | dsimp only

theorem State.calEnd_moves (s : State) (i : Nat) (result : Nat)
    (ha : [.cal] ⊆ as)
    (h : Moves as ps s0 s) : Moves as ps s0 (State.calEnd s i result) := by
  unfold State.calEnd
  repeat' first
    | with_reducible assumption
    | with_reducible apply Moves.refl
    | with_reducible apply Moves.wr
    | with_reducible apply Moves.bump
    | with_reducible apply Moves.ite
    | (with_reducible apply Moves.inSub ha; decide)
    | with_reducible apply Moves.foldl
    | with_reducible intro _
    | (with_reducible apply List.Subset.trans ?_ ha; decide)
    | split
    | dsimp only

theorem State.restoreCodes_moves (s : State) (c : CalJob)
    (ha : [.oe] ⊆ as)
    (h : Moves as ps s0 s) : Moves as ps s0 (State.restoreCodes s c) := by
  unfold State.restoreCodes
  repeat' first
    | with_reducible assumption
    | with_reducible apply Moves.refl
    | with_reducible apply Moves.wr
    | with_reducible apply Moves.ite
    | (with_reducible apply Moves.inSub ha; decide)
    | with_reducible apply Moves.each
    | with_reducible apply Moves.foldl
    | with_reducible intro _
    | (with_reducible apply List.Subset.trans ?_ ha; decide)
    | split
    | dsimp only

theorem State.preemptCal_moves (s : State) (k : Nat) (g : Nat)
    (ha : [.cal, .oe] ⊆ as)
    (hq : [.calJobs, .calRuns] ⊆ ps)
    (h : Moves as ps s0 s) : Moves as ps s0 (State.preemptCal s k g) := by
  unfold State.preemptCal
  repeat' first
    | with_reducible assumption
    | with_reducible apply Moves.refl
    | with_reducible apply State.calEnd_moves
    | with_reducible apply State.restoreCodes_moves
    | with_reducible apply Moves.bump
    | with_reducible apply Moves.ite
    | (with_reducible apply Moves.inSub ha; decide)
    | (with_reducible apply Moves.inSub hq; decide)
    | with_reducible apply Moves.foldl
    | with_reducible intro _
    | (with_reducible apply List.Subset.trans ?_ ha; decide)
    | (with_reducible apply List.Subset.trans ?_ hq; decide)
    | split
    | dsimp only
    | with_reducible apply Moves.set_calJobs
    | with_reducible apply Moves.set_calRuns
    | ((with_reducible apply Moves.update); on_goal 1 => (intro q hn; cases q <;> first | exact absurd (hq (by decide)) hn | rfl))

theorem State.takeOver_moves (s : State) (d : SpareNeed)
    (ha : [.oe] ⊆ as)
    (hq : [.spareNeeds, .links] ⊆ ps)
    (h : Moves as ps s0 s) : Moves as ps s0 (State.takeOver s d) := by
  unfold State.takeOver
  repeat' first
    | with_reducible assumption
    | with_reducible apply Moves.refl
    | with_reducible apply State.putSpare_moves
    | with_reducible apply State.mark_moves
    | with_reducible apply State.laneReq_moves
    | with_reducible apply Moves.ite
    | (with_reducible apply Moves.inSub ha; decide)
    | (with_reducible apply Moves.inSub hq; decide)
    | with_reducible apply Moves.foldl
    | with_reducible intro _
    | (with_reducible apply List.Subset.trans ?_ ha; decide)
    | (with_reducible apply List.Subset.trans ?_ hq; decide)
    | split
    | dsimp only
    | with_reducible apply Moves.set_spareNeeds

theorem State.takeSpare_moves (s : State) (d : SpareNeed)
    (ha : [.oe] ⊆ as)
    (hq : [.links] ⊆ ps)
    (h : Moves as ps s0 s) : Moves as ps s0 (State.takeSpare s d) := by
  unfold State.takeSpare
  repeat' first
    | with_reducible assumption
    | with_reducible apply Moves.refl
    | with_reducible apply State.putSpare_moves
    | with_reducible apply State.mark_moves
    | with_reducible apply State.laneReq_moves
    | with_reducible apply Moves.ite
    | (with_reducible apply Moves.inSub ha; decide)
    | (with_reducible apply Moves.inSub hq; decide)
    | with_reducible apply Moves.foldl
    | with_reducible intro _
    | (with_reducible apply List.Subset.trans ?_ ha; decide)
    | (with_reducible apply List.Subset.trans ?_ hq; decide)
    | split
    | dsimp only

theorem State.serveSpare_moves (s : State) (k : Nat) (f : Nat)
    (ha : [.oe] ⊆ as)
    (hq : [.spareNeeds, .links] ⊆ ps)
    (h : Moves as ps s0 s) : Moves as ps s0 (State.serveSpare s k f) := by
  unfold State.serveSpare
  repeat' first
    | with_reducible assumption
    | with_reducible apply Moves.refl
    | with_reducible apply State.takeSpare_moves
    | with_reducible apply Moves.ite
    | (with_reducible apply Moves.inSub ha; decide)
    | (with_reducible apply Moves.inSub hq; decide)
    | with_reducible apply Moves.foldl
    | with_reducible intro _
    | (with_reducible apply List.Subset.trans ?_ ha; decide)
    | (with_reducible apply List.Subset.trans ?_ hq; decide)
    | split
    | dsimp only
    | with_reducible apply Moves.set_spareNeeds

theorem State.preemptLs_moves (s : State) (k : Nat) (g : Nat)
    (ha : [.cal, .oe] ⊆ as)
    (hq : [.calJobs, .calRuns] ⊆ ps)
    (h : Moves as ps s0 s) : Moves as ps s0 (State.preemptLs s k g) := by
  unfold State.preemptLs
  repeat' first
    | with_reducible assumption
    | with_reducible apply Moves.refl
    | with_reducible apply State.preemptCal_moves
    | with_reducible apply State.calMode_moves
    | with_reducible apply Moves.ite
    | (with_reducible apply Moves.inSub ha; decide)
    | (with_reducible apply Moves.inSub hq; decide)
    | with_reducible apply Moves.foldl
    | with_reducible intro _
    | (with_reducible apply List.Subset.trans ?_ ha; decide)
    | (with_reducible apply List.Subset.trans ?_ hq; decide)
    | split
    | dsimp only
    | with_reducible apply Moves.set_calJobs

theorem State.needSpare_moves (s : State) (d : SpareNeed)
    (ha : [.cal, .oe] ⊆ as)
    (hq : [.calJobs, .calRuns, .spareNeeds, .links] ⊆ ps)
    (h : Moves as ps s0 s) : Moves as ps s0 (State.needSpare s d) := by
  unfold State.needSpare
  repeat' first
    | with_reducible assumption
    | with_reducible apply Moves.refl
    | with_reducible apply State.putSpare_moves
    | with_reducible apply State.preemptCal_moves
    | with_reducible apply State.takeOver_moves
    | with_reducible apply State.serveSpare_moves
    | with_reducible apply State.preemptLs_moves
    | with_reducible apply Moves.ite
    | (with_reducible apply Moves.inSub ha; decide)
    | (with_reducible apply Moves.inSub hq; decide)
    | with_reducible apply Moves.foldl
    | with_reducible intro _
    | (with_reducible apply List.Subset.trans ?_ ha; decide)
    | (with_reducible apply List.Subset.trans ?_ hq; decide)
    | split
    | dsimp only
    | with_reducible apply Moves.set_spareNeeds

theorem State.retireFibreLane_moves (s : State) (k : Nat) (f : Nat) (w : Nat)
    (ha : [.oe, .lnk] ⊆ as)
    (h : Moves as ps s0 s) : Moves as ps s0 (State.retireFibreLane s k f w) := by
  unfold State.retireFibreLane
  repeat' first
    | with_reducible assumption
    | with_reducible apply Moves.refl
    | with_reducible apply Moves.wr
    | with_reducible apply Moves.bump
    | with_reducible apply Moves.orBit
    | with_reducible apply Moves.ite
    | (with_reducible apply Moves.inSub ha; decide)
    | with_reducible apply Moves.foldl
    | with_reducible intro _
    | (with_reducible apply List.Subset.trans ?_ ha; decide)
    | split
    | dsimp only

theorem State.tryCal_moves (s : State) (k : Nat) (g : Nat)
    (ha : [.cal, .oe] ⊆ as)
    (hq : [.calJobs, .calRuns, .links] ⊆ ps)
    (h : Moves as ps s0 s) : Moves as ps s0 (State.tryCal s k g) := by
  unfold State.tryCal
  repeat' first
    | with_reducible assumption
    | with_reducible apply Moves.refl
    | with_reducible apply State.startCal_moves
    | with_reducible apply Moves.ite
    | (with_reducible apply Moves.inSub ha; decide)
    | (with_reducible apply Moves.inSub hq; decide)
    | with_reducible apply Moves.foldl
    | with_reducible intro _
    | (with_reducible apply List.Subset.trans ?_ ha; decide)
    | (with_reducible apply List.Subset.trans ?_ hq; decide)
    | split
    | dsimp only

theorem State.retireSpare_moves (s : State) (k : Nat) (f : Nat)
    (ha : [.oe, .lnk] ⊆ as)
    (h : Moves as ps s0 s) : Moves as ps s0 (State.retireSpare s k f) := by
  unfold State.retireSpare
  repeat' first
    | with_reducible assumption
    | with_reducible apply Moves.refl
    | with_reducible apply State.putSpare_moves
    | with_reducible apply Moves.wr
    | with_reducible apply Moves.bump
    | with_reducible apply Moves.ite
    | (with_reducible apply Moves.inSub ha; decide)
    | with_reducible apply Moves.foldl
    | with_reducible intro _
    | (with_reducible apply List.Subset.trans ?_ ha; decide)
    | split
    | dsimp only

theorem State.upSpares_moves (s : State) (n : Nat)
    (ha : [.oe] ⊆ as)
    (hq : [.spareNeeds, .links] ⊆ ps)
    (h : Moves as ps s0 s) : Moves as ps s0 (State.upSpares s n) := by
  unfold State.upSpares
  repeat' first
    | with_reducible assumption
    | with_reducible apply Moves.refl
    | with_reducible apply State.laneReq_moves
    | with_reducible apply State.serveSpare_moves
    | with_reducible apply Moves.ite
    | (with_reducible apply Moves.inSub ha; decide)
    | (with_reducible apply Moves.inSub hq; decide)
    | with_reducible apply Moves.each
    | with_reducible apply Moves.foldl
    | with_reducible intro _
    | (with_reducible apply List.Subset.trans ?_ ha; decide)
    | (with_reducible apply List.Subset.trans ?_ hq; decide)
    | split
    | dsimp only

theorem State.freeSpare_moves (s : State) (k : Nat) (f : Nat)
    (ha : [.oe] ⊆ as)
    (hq : [.spareNeeds, .links] ⊆ ps)
    (h : Moves as ps s0 s) : Moves as ps s0 (State.freeSpare s k f) := by
  unfold State.freeSpare
  repeat' first
    | with_reducible assumption
    | with_reducible apply Moves.refl
    | with_reducible apply State.serveSpare_moves
    | with_reducible apply State.putSpare_moves
    | with_reducible apply Moves.ite
    | (with_reducible apply Moves.inSub ha; decide)
    | (with_reducible apply Moves.inSub hq; decide)
    | with_reducible apply Moves.foldl
    | with_reducible intro _
    | (with_reducible apply List.Subset.trans ?_ ha; decide)
    | (with_reducible apply List.Subset.trans ?_ hq; decide)
    | split
    | dsimp only

end Sys2Proof.Machine
end

