-- ==== Sys2Proof/Laws/MovesAccess.lean ====
section
/-!
SUPPORT. Footprints of the operations of Machine/Access.lean.
-/

namespace Sys2Proof.Machine

variable {as : List Area} {ps : List Part} {s0 : State}

theorem State.vc1Frame_moves (s : State) (n : Nat) (bytes : List Sys2Proof.Byte)
    (hq : [.links] ⊆ ps)
    (h : Moves as ps s0 s) : Moves as ps s0 (State.vc1Frame s n bytes) := by
  unfold State.vc1Frame
  repeat' first
    | with_reducible assumption
    | with_reducible apply Moves.refl
    | with_reducible apply State.setLink_moves
    | with_reducible apply Moves.ite
    | (with_reducible apply Moves.inSub hq; decide)
    | with_reducible apply Moves.foldl
    | with_reducible intro _
    | (with_reducible apply List.Subset.trans ?_ hq; decide)
    | split
    | dsimp only

theorem State.coreFault_moves (s : State) (n : Nat) (cause : Nat) (addr : Nat)
    (ha : [.core] ⊆ as)
    (h : Moves as ps s0 s) : Moves as ps s0 (State.coreFault s n cause addr) := by
  unfold State.coreFault
  repeat' first
    | with_reducible assumption
    | with_reducible apply Moves.refl
    | with_reducible apply Moves.wr
    | with_reducible apply Moves.ite
    | (with_reducible apply Moves.inSub ha; decide)
    | with_reducible apply Moves.foldl
    | with_reducible intro _
    | (with_reducible apply List.Subset.trans ?_ ha; decide)
    | split
    | dsimp only

theorem State.vc1Respond_moves (s : State) (n : Nat) (r : Sys2Proof.VcReq) (op : Nat) (data : List Sys2Proof.Byte)
    (hq : [.links] ⊆ ps)
    (h : Moves as ps s0 s) : Moves as ps s0 (State.vc1Respond s n r op data) := by
  unfold State.vc1Respond
  repeat' first
    | with_reducible assumption
    | with_reducible apply Moves.refl
    | with_reducible apply State.vc1Frame_moves
    | with_reducible apply Moves.ite
    | (with_reducible apply Moves.inSub hq; decide)
    | with_reducible apply Moves.foldl
    | with_reducible intro _
    | (with_reducible apply List.Subset.trans ?_ hq; decide)
    | split
    | dsimp only

theorem State.guestMsg_moves (s : State) (g : Nat) (op : Nat) (sectors : Nat) (tag : Nat) (galley : Bool) (addr : Nat) (data : List Sys2Proof.Byte)
    (hq : [.out] ⊆ ps)
    (h : Moves as ps s0 s) : Moves as ps s0 (State.guestMsg s g op sectors tag galley addr data) := by
  unfold State.guestMsg
  repeat' first
    | with_reducible assumption
    | with_reducible apply Moves.refl
    | with_reducible apply State.send_moves
    | with_reducible apply Moves.ite
    | (with_reducible apply Moves.inSub hq; decide)
    | with_reducible apply Moves.foldl
    | with_reducible intro _
    | (with_reducible apply List.Subset.trans ?_ hq; decide)
    | split
    | dsimp only

theorem State.guestAnswer_moves (s : State) (g : Nat) (op : Nat) (r : Sys2Proof.VcReq) (data : List Sys2Proof.Byte)
    (hq : [.out] ⊆ ps)
    (h : Moves as ps s0 s) : Moves as ps s0 (State.guestAnswer s g op r data) := by
  unfold State.guestAnswer
  repeat' first
    | with_reducible assumption
    | with_reducible apply Moves.refl
    | with_reducible apply State.guestMsg_moves
    | with_reducible apply Moves.ite
    | (with_reducible apply Moves.inSub hq; decide)
    | with_reducible apply Moves.foldl
    | with_reducible intro _
    | (with_reducible apply List.Subset.trans ?_ hq; decide)
    | split
    | dsimp only

theorem State.guestError_moves (s : State) (g : Nat) (r : Sys2Proof.VcReq)
    (ha : [.gst] ⊆ as)
    (hq : [.out] ⊆ ps)
    (h : Moves as ps s0 s) : Moves as ps s0 (State.guestError s g r) := by
  unfold State.guestError
  repeat' first
    | with_reducible assumption
    | with_reducible apply Moves.refl
    | with_reducible apply State.guestAnswer_moves
    | with_reducible apply Moves.wr
    | with_reducible apply Moves.bump
    | with_reducible apply Moves.ite
    | (with_reducible apply Moves.inSub ha; decide)
    | (with_reducible apply Moves.inSub hq; decide)
    | with_reducible apply Moves.foldl
    | with_reducible intro _
    | (with_reducible apply List.Subset.trans ?_ ha; decide)
    | (with_reducible apply List.Subset.trans ?_ hq; decide)
    | split
    | dsimp only

theorem State.mgtRespond_moves (s : State) (type : Nat) (tag : Nat) (slot : Nat) (counter : Nat) (status : Nat) (body : List Sys2Proof.Byte)
    (hq : [.mgtLast, .out] ⊆ ps)
    (h : Moves as ps s0 s) : Moves as ps s0 (State.mgtRespond s type tag slot counter status body) := by
  unfold State.mgtRespond
  repeat' first
    | with_reducible assumption
    | with_reducible apply Moves.refl
    | with_reducible apply State.send_moves
    | with_reducible apply Moves.ite
    | (with_reducible apply Moves.inSub hq; decide)
    | with_reducible apply Moves.foldl
    | with_reducible intro _
    | (with_reducible apply List.Subset.trans ?_ hq; decide)
    | split
    | dsimp only
    | with_reducible apply Moves.set_mgtLast

theorem State.mgtPart_moves (s : State) (id : Nat) (k : Nat) (cause : Nat) (data : List Sys2Proof.Byte)
    (hq : [.mgtLast, .mgtJobs, .out] ⊆ ps)
    (h : Moves as ps s0 s) : Moves as ps s0 (State.mgtPart s id k cause data) := by
  unfold State.mgtPart
  repeat' first
    | with_reducible assumption
    | with_reducible apply Moves.refl
    | with_reducible apply State.mgtRespond_moves
    | with_reducible apply Moves.ite
    | (with_reducible apply Moves.inSub hq; decide)
    | with_reducible apply Moves.foldl
    | with_reducible intro _
    | (with_reducible apply List.Subset.trans ?_ hq; decide)
    | split
    | dsimp only
    | with_reducible apply Moves.set_mgtJobs

theorem State.answerFault_moves (s : State) (a : Access) (cause : Nat)
    (ha : [.core, .gst] ⊆ as)
    (hq : [.mgtLast, .links, .mgtJobs, .out] ⊆ ps)
    (h : Moves as ps s0 s) : Moves as ps s0 (State.answerFault s a cause) := by
  unfold State.answerFault
  repeat' first
    | with_reducible assumption
    | with_reducible apply Moves.refl
    | with_reducible apply State.send_moves
    | with_reducible apply State.coreFault_moves
    | with_reducible apply State.vc1Respond_moves
    | with_reducible apply State.guestError_moves
    | with_reducible apply State.mgtRespond_moves
    | with_reducible apply State.mgtPart_moves
    | with_reducible apply Moves.ite
    | (with_reducible apply Moves.inSub ha; decide)
    | (with_reducible apply Moves.inSub hq; decide)
    | with_reducible apply Moves.foldl
    | with_reducible intro _
    | (with_reducible apply List.Subset.trans ?_ ha; decide)
    | (with_reducible apply List.Subset.trans ?_ hq; decide)
    | split
    | dsimp only

theorem State.vc1Forward_moves (s : State) (m : Nat) (a : Access) (r : Sys2Proof.VcReq)
    (ha : [.core, .gst] ⊆ as)
    (hq : [.mgtLast, .links, .mgtJobs, .out] ⊆ ps)
    (h : Moves as ps s0 s) : Moves as ps s0 (State.vc1Forward s m a r) := by
  unfold State.vc1Forward
  repeat' first
    | with_reducible assumption
    | with_reducible apply Moves.refl
    | with_reducible apply State.vc1Frame_moves
    | with_reducible apply State.setLink_moves
    | with_reducible apply State.answerFault_moves
    | with_reducible apply Moves.ite
    | (with_reducible apply Moves.inSub ha; decide)
    | (with_reducible apply Moves.inSub hq; decide)
    | with_reducible apply Moves.foldl
    | with_reducible intro _
    | (with_reducible apply List.Subset.trans ?_ ha; decide)
    | (with_reducible apply List.Subset.trans ?_ hq; decide)
    | split
    | dsimp only

theorem State.sendPart_moves (s : State) (a : Access) (id : Nat) (k : Nat)
    (ha : [.core, .gst] ⊆ as)
    (hq : [.mgtLast, .links, .mgtJobs, .out] ⊆ ps)
    (h : Moves as ps s0 s) : Moves as ps s0 (State.sendPart s a id k) := by
  unfold State.sendPart
  repeat' first
    | with_reducible assumption
    | with_reducible apply Moves.refl
    | with_reducible apply State.vc1Forward_moves
    | with_reducible apply Moves.ite
    | (with_reducible apply Moves.inSub ha; decide)
    | (with_reducible apply Moves.inSub hq; decide)
    | with_reducible apply Moves.foldl
    | with_reducible intro _
    | (with_reducible apply List.Subset.trans ?_ ha; decide)
    | (with_reducible apply List.Subset.trans ?_ hq; decide)
    | split
    | dsimp only

theorem State.refilled_moves (s : State) (a : Access)
    (hq : [.dropped] ⊆ ps)
    (h : Moves as ps s0 s) : Moves as ps s0 (State.refilled s a) := by
  unfold State.refilled
  repeat' first
    | with_reducible assumption
    | with_reducible apply Moves.refl
    | with_reducible apply Moves.ite
    | (with_reducible apply Moves.inSub hq; decide)
    | with_reducible apply Moves.foldl
    | with_reducible intro _
    | (with_reducible apply List.Subset.trans ?_ hq; decide)
    | split
    | dsimp only
    | with_reducible apply Moves.set_dropped

theorem State.noteShared_moves (s : State) (a : Access)
    (hq : [.dirtyShared] ⊆ ps)
    (h : Moves as ps s0 s) : Moves as ps s0 (State.noteShared s a) := by
  unfold State.noteShared
  repeat' first
    | with_reducible assumption
    | with_reducible apply Moves.refl
    | with_reducible apply Moves.ite
    | (with_reducible apply Moves.inSub hq; decide)
    | with_reducible apply Moves.foldl
    | with_reducible intro _
    | (with_reducible apply List.Subset.trans ?_ hq; decide)
    | split
    | dsimp only
    | with_reducible apply Moves.set_dirtyShared

theorem State.answerDone_moves (s : State) (a : Access) (data : List Sys2Proof.Byte)
    (hq : [.mgtLast, .links, .mgtJobs, .out] ⊆ ps)
    (h : Moves as ps s0 s) : Moves as ps s0 (State.answerDone s a data) := by
  unfold State.answerDone
  repeat' first
    | with_reducible assumption
    | with_reducible apply Moves.refl
    | with_reducible apply State.send_moves
    | with_reducible apply State.vc1Respond_moves
    | with_reducible apply State.guestAnswer_moves
    | with_reducible apply State.mgtRespond_moves
    | with_reducible apply State.mgtPart_moves
    | with_reducible apply Moves.ite
    | (with_reducible apply Moves.inSub hq; decide)
    | with_reducible apply Moves.foldl
    | with_reducible intro _
    | (with_reducible apply List.Subset.trans ?_ hq; decide)
    | split
    | dsimp only

theorem State.perform_moves (s : State) (a : Access)
    (ha : [.prf, .core, .gal, .gst, .mem] ⊆ as)
    (hq : [.mem, .dirtyShared, .mgtLast, .links, .repairMap, .ceLog, .mgtJobs, .dropped, .out, .freeCount] ⊆ ps)
    (h : Moves as ps s0 s) : Moves as ps s0 (State.perform s a) := by
  unfold State.perform
  repeat' first
    | with_reducible assumption
    | with_reducible apply Moves.refl
    | with_reducible apply State.refilled_moves
    | with_reducible apply State.noteShared_moves
    | with_reducible apply State.answerDone_moves
    | with_reducible apply State.met_moves
    | with_reducible apply State.answerFault_moves
    | with_reducible apply Moves.writeMem
    | with_reducible apply Moves.writeGal
    | with_reducible apply Moves.ite
    | (with_reducible apply Moves.inSub ha; decide)
    | (with_reducible apply Moves.inSub hq; decide)
    | with_reducible apply Moves.foldl
    | with_reducible intro _
    | (with_reducible apply List.Subset.trans ?_ ha; decide)
    | (with_reducible apply List.Subset.trans ?_ hq; decide)
    | split
    | dsimp only

theorem State.access_moves (s : State) (a : Access)
    (ha : [.prf, .core, .gal, .gst, .mem] ⊆ as)
    (hq : [.mem, .heldAccs, .dirtyShared, .mgtLast, .links, .repairMap, .ceLog, .mgtJobs, .dropped, .out, .freeCount] ⊆ ps)
    (h : Moves as ps s0 s) : Moves as ps s0 (State.access s a) := by
  unfold State.access
  repeat' first
    | with_reducible assumption
    | with_reducible apply Moves.refl
    | with_reducible apply State.answerFault_moves
    | with_reducible apply State.perform_moves
    | with_reducible apply Moves.ite
    | (with_reducible apply Moves.inSub ha; decide)
    | (with_reducible apply Moves.inSub hq; decide)
    | with_reducible apply Moves.foldl
    | with_reducible intro _
    | (with_reducible apply List.Subset.trans ?_ ha; decide)
    | (with_reducible apply List.Subset.trans ?_ hq; decide)
    | split
    | dsimp only
    | with_reducible apply Moves.set_heldAccs

theorem State.mgtAccess_moves (s : State) (a : Access) (type : Nat) (tag : Nat) (slot : Nat) (counter : Nat)
    (ha : [.prf, .core, .gal, .gst, .mem] ⊆ as)
    (hq : [.mem, .heldAccs, .dirtyShared, .mgtLast, .links, .repairMap, .ceLog, .mgtJobs, .dropped, .out, .freeCount] ⊆ ps)
    (h : Moves as ps s0 s) : Moves as ps s0 (State.mgtAccess s a type tag slot counter) := by
  unfold State.mgtAccess
  repeat' first
    | with_reducible assumption
    | with_reducible apply Moves.refl
    | with_reducible apply State.access_moves
    | with_reducible apply State.answerFault_moves
    | with_reducible apply State.sendPart_moves
    | with_reducible apply Moves.ite
    | (with_reducible apply Moves.inSub ha; decide)
    | (with_reducible apply Moves.inSub hq; decide)
    | with_reducible apply Moves.each
    | with_reducible apply Moves.foldl
    | with_reducible intro _
    | (with_reducible apply List.Subset.trans ?_ ha; decide)
    | (with_reducible apply List.Subset.trans ?_ hq; decide)
    | split
    | dsimp only
    | with_reducible apply Moves.set_mgtJobs

theorem State.vc1Reach_moves (s : State) (c : Nat) (a : Access) (r : Sys2Proof.VcReq)
    (ha : [.prf, .core, .gal, .gst, .mem] ⊆ as)
    (hq : [.mem, .heldAccs, .dirtyShared, .mgtLast, .links, .repairMap, .ceLog, .mgtJobs, .dropped, .out, .freeCount] ⊆ ps)
    (h : Moves as ps s0 s) : Moves as ps s0 (State.vc1Reach s c a r) := by
  unfold State.vc1Reach
  repeat' first
    | with_reducible assumption
    | with_reducible apply Moves.refl
    | with_reducible apply State.access_moves
    | with_reducible apply State.vc1Forward_moves
    | with_reducible apply Moves.ite
    | (with_reducible apply Moves.inSub ha; decide)
    | (with_reducible apply Moves.inSub hq; decide)
    | with_reducible apply Moves.foldl
    | with_reducible intro _
    | (with_reducible apply List.Subset.trans ?_ ha; decide)
    | (with_reducible apply List.Subset.trans ?_ hq; decide)
    | split
    | dsimp only

theorem State.moveUnits_moves (s : State) (c : Nat) (stack : Nat) (mode : Nat) (memAddr : Nat) (line : Nat) (toGalley : Bool) (x7 : Nat)
    (hq : [.mem] ⊆ ps)
    (h : Moves as ps s0 s) : Moves as ps s0 (State.moveUnits s c stack mode memAddr line toGalley x7) := by
  induction x7 generalizing s with
  | zero => exact h
  | succ n ih =>
    unfold State.moveUnits
    repeat' first
      | with_reducible assumption
      | with_reducible apply Moves.refl
      | with_reducible apply ih
      | with_reducible apply Moves.writeMem
      | with_reducible apply Moves.writeGal
      | with_reducible apply Moves.ite
      | (with_reducible apply Moves.inSub hq; decide)
      | with_reducible apply Moves.foldl
      | with_reducible intro _
      | (with_reducible apply List.Subset.trans ?_ hq; decide)
      | split
      | dsimp only

theorem State.moveTo_moves (s : State) (d : SlotXfer) (past : Nat)
    (hq : [.mem, .presses, .drains, .dirtyOut] ⊆ ps)
    (h : Moves as ps s0 s) : Moves as ps s0 (State.moveTo s d past) := by
  unfold State.moveTo
  repeat' first
    | with_reducible assumption
    | with_reducible apply Moves.refl
    | with_reducible apply Press.ok_init
    | (with_reducible apply State.inv_press; assumption)
    | with_reducible apply Press.Ok.pops
    | with_reducible apply Press.Ok.loseCarry
    | with_reducible apply Press.Ok.signal
    | with_reducible apply Press.Ok.waitTok
    | (with_reducible apply State.inv_caseMem; assumption)
    | with_reducible apply Press.Ok.pop
    | with_reducible apply Press.Ok.writeCase
    | with_reducible apply Press.Ok.enqueueRing
    | with_reducible apply Press.Ok.settle
    | with_reducible apply Press.Ok.ite
    | with_reducible apply Press.Ok.of_wf
    | with_reducible apply State.moveUnits_moves
    | with_reducible apply Moves.setPress
    | with_reducible apply Moves.writeGal
    | with_reducible apply Moves.ite
    | (with_reducible apply Moves.inSub hq; decide)
    | with_reducible apply Moves.foldl
    | with_reducible intro _
    | (with_reducible apply List.Subset.trans ?_ hq; decide)
    | split
    | dsimp only
    | with_reducible apply Press.Ok.wf
    | with_reducible apply Moves.set_drains
    | with_reducible apply Moves.set_dirtyOut
    | ((with_reducible apply Moves.update); on_goal 1 => (intro q hn; cases q <;> first | exact absurd (hq (by decide)) hn | rfl))

theorem State.runSlots_moves (s : State) (f : Nat) (c : Nat) (go : SlotXfer → Bool) (x4 : Nat)
    (hq : [.mem, .presses, .drains, .dirtyOut] ⊆ ps)
    (h : Moves as ps s0 s) : Moves as ps s0 (State.runSlots s f c go x4) := by
  induction x4 generalizing s with
  | zero => exact h
  | succ n ih =>
    unfold State.runSlots
    repeat' first
      | with_reducible assumption
      | with_reducible apply Moves.refl
      | with_reducible apply ih
      | with_reducible apply State.moveTo_moves
      | with_reducible apply Moves.ite
      | (with_reducible apply Moves.inSub hq; decide)
      | with_reducible apply Moves.foldl
      | with_reducible intro _
      | (with_reducible apply List.Subset.trans ?_ hq; decide)
      | split
      | dsimp only

theorem State.allSlots_moves (s : State) (f : Nat)
    (hq : [.mem, .presses, .drains, .dirtyOut] ⊆ ps)
    (h : Moves as ps s0 s) : Moves as ps s0 (State.allSlots s f) := by
  unfold State.allSlots
  repeat' first
    | with_reducible assumption
    | with_reducible apply Moves.refl
    | with_reducible apply State.runSlots_moves
    | with_reducible apply Moves.ite
    | (with_reducible apply Moves.inSub hq; decide)
    | with_reducible apply Moves.each
    | with_reducible apply Moves.foldl
    | with_reducible intro _
    | (with_reducible apply List.Subset.trans ?_ hq; decide)
    | split
    | dsimp only

theorem State.slotsBefore_moves (s : State) (f : Nat) (c : Nat) (t : Nat)
    (hq : [.mem, .presses, .drains, .dirtyOut] ⊆ ps)
    (h : Moves as ps s0 s) : Moves as ps s0 (State.slotsBefore s f c t) := by
  unfold State.slotsBefore
  repeat' first
    | with_reducible assumption
    | with_reducible apply Moves.refl
    | with_reducible apply State.runSlots_moves
    | with_reducible apply Moves.ite
    | (with_reducible apply Moves.inSub hq; decide)
    | with_reducible apply Moves.foldl
    | with_reducible intro _
    | (with_reducible apply List.Subset.trans ?_ hq; decide)
    | split
    | dsimp only

theorem State.finishXfer_moves (s : State) (d : SlotXfer)
    (hq : [.mem, .presses, .drains, .dirtyOut] ⊆ ps)
    (h : Moves as ps s0 s) : Moves as ps s0 (State.finishXfer s d) := by
  unfold State.finishXfer
  repeat' first
    | with_reducible assumption
    | with_reducible apply Moves.refl
    | with_reducible apply State.slotsBefore_moves
    | with_reducible apply Moves.ite
    | (with_reducible apply Moves.inSub hq; decide)
    | with_reducible apply Moves.foldl
    | with_reducible intro _
    | (with_reducible apply List.Subset.trans ?_ hq; decide)
    | split
    | dsimp only

theorem State.queueFrames_moves (s : State) (n : Nat) (chase : Nat) (f : Nat) (bytes : List Sys2Proof.Byte)
    (hq : [.links] ⊆ ps)
    (h : Moves as ps s0 s) : Moves as ps s0 (State.queueFrames s n chase f bytes) := by
  unfold State.queueFrames
  repeat' first
    | with_reducible assumption
    | with_reducible apply Moves.refl
    | with_reducible apply State.setLink_moves
    | with_reducible apply Moves.ite
    | (with_reducible apply Moves.inSub hq; decide)
    | with_reducible apply Moves.foldl
    | with_reducible intro _
    | (with_reducible apply List.Subset.trans ?_ hq; decide)
    | split
    | dsimp only

theorem State.releaseHeld_moves (s : State) (f : Nat)
    (ha : [.prf, .core, .gal, .gst, .mem] ⊆ as)
    (hq : [.mem, .heldAccs, .dirtyShared, .mgtLast, .links, .repairMap, .ceLog, .mgtJobs, .dropped, .out, .freeCount] ⊆ ps)
    (h : Moves as ps s0 s) : Moves as ps s0 (State.releaseHeld s f) := by
  unfold State.releaseHeld
  repeat' first
    | with_reducible assumption
    | with_reducible apply Moves.refl
    | with_reducible apply State.access_moves
    | with_reducible apply Moves.ite
    | (with_reducible apply Moves.inSub ha; decide)
    | (with_reducible apply Moves.inSub hq; decide)
    | with_reducible apply Moves.each
    | with_reducible apply Moves.foldl
    | with_reducible intro _
    | (with_reducible apply List.Subset.trans ?_ ha; decide)
    | (with_reducible apply List.Subset.trans ?_ hq; decide)
    | split
    | dsimp only
    | with_reducible apply Moves.set_heldAccs

theorem State.moveSlot_moves (s : State) (f : Nat) (c : Nat) (r : Resv) (b : Nat)
    (hq : [.mem, .presses, .drains, .dirtyOut] ⊆ ps)
    (h : Moves as ps s0 s) : Moves as ps s0 (State.moveSlot s f c r b) := by
  unfold State.moveSlot
  repeat' first
    | with_reducible assumption
    | with_reducible apply Moves.refl
    | with_reducible apply State.slotsBefore_moves
    | with_reducible apply State.moveTo_moves
    | with_reducible apply Moves.ite
    | (with_reducible apply Moves.inSub hq; decide)
    | with_reducible apply Moves.foldl
    | with_reducible intro _
    | (with_reducible apply List.Subset.trans ?_ hq; decide)
    | split
    | dsimp only

end Sys2Proof.Machine
end

