-- ==== Sys2Proof/Laws/MovesLinkDown.lean ====
section
/-!
SUPPORT. Footprints of the operations of Machine/LinkDown.lean.
-/

namespace Sys2Proof.Machine

variable {as : List Area} {ps : List Part} {s0 : State}

theorem State.linkError_moves (s : State) (c : Nat)
    (ha : [.col] ⊆ as)
    (h : Moves as ps s0 s) : Moves as ps s0 (State.linkError s c) := by
  unfold State.linkError
  repeat' first
    | with_reducible assumption
    | with_reducible apply Moves.refl
    | with_reducible apply Moves.wr
    | with_reducible apply Moves.ite
    | (with_reducible apply Moves.inSub ha; decide)
    | with_reducible apply Moves.foldl
    | with_reducible intro _
    | (with_reducible apply List.Subset.trans ?_ ha; decide)
    | split
    | dsimp only

theorem State.vc1Fail_moves (s : State) (r : VcOut)
    (ha : [.core, .gst] ⊆ as)
    (hq : [.mgtLast, .links, .mgtJobs, .out] ⊆ ps)
    (h : Moves as ps s0 s) : Moves as ps s0 (State.vc1Fail s r) := by
  unfold State.vc1Fail
  repeat' first
    | with_reducible assumption
    | with_reducible apply Moves.refl
    | with_reducible apply State.answerFault_moves
    | with_reducible apply Moves.ite
    | (with_reducible apply Moves.inSub ha; decide)
    | (with_reducible apply Moves.inSub hq; decide)
    | with_reducible apply Moves.foldl
    | with_reducible intro _
    | (with_reducible apply List.Subset.trans ?_ ha; decide)
    | (with_reducible apply List.Subset.trans ?_ hq; decide)
    | split
    | dsimp only

theorem State.noteErrPort_moves (s : State) (f : Nat) (n : Nat)
    (ha : [.forme] ⊆ as)
    (h : Moves as ps s0 s) : Moves as ps s0 (State.noteErrPort s f n) := by
  unfold State.noteErrPort
  repeat' first
    | with_reducible assumption
    | with_reducible apply Moves.refl
    | with_reducible apply Moves.wr
    | with_reducible apply Moves.ite
    | (with_reducible apply Moves.inSub ha; decide)
    | with_reducible apply Moves.foldl
    | with_reducible intro _
    | (with_reducible apply List.Subset.trans ?_ ha; decide)
    | split
    | dsimp only

theorem State.synthetic_moves (s : State) (n : Nat) (x : Link) (t : Nat)
    (ha : [.imp, .forme, .core, .cmp, .col, .gst, .prs] ⊆ as)
    (hq : [.presses, .jobs, .lateXfers, .drains, .mgtLast, .links, .relays, .mgtJobs, .out, .freeCount] ⊆ ps)
    (h : Moves as ps s0 s) : Moves as ps s0 (State.synthetic s n x t) := by
  unfold State.synthetic
  repeat' first
    | with_reducible assumption
    | with_reducible apply Moves.refl
    | with_reducible apply State.linkError_moves
    | with_reducible apply State.vc1Fail_moves
    | with_reducible apply State.abandon_moves
    | with_reducible apply State.noteErrPort_moves
    | with_reducible apply Moves.ite
    | (with_reducible apply Moves.inSub ha; decide)
    | (with_reducible apply Moves.inSub hq; decide)
    | with_reducible apply Moves.each
    | with_reducible apply Moves.foldl
    | with_reducible intro _
    | (with_reducible apply List.Subset.trans ?_ ha; decide)
    | (with_reducible apply List.Subset.trans ?_ hq; decide)
    | split
    | dsimp only

theorem State.linkDown_moves (s : State) (n : Nat) (cause : Nat) (t : Nat)
    (ha : [.imp, .forme, .fab, .pair, .core, .events, .cal, .gal, .cmp, .col, .ddl, .gst, .prs, .oe, .lnk, .lsu] ⊆ as)
    (hq : [.presses, .jobs, .lateXfers, .drains, .mgtLast, .calJobs, .swaps, .spareNeeds, .links, .relays, .mgtJobs, .out, .freeCount] ⊆ ps)
    (h : Moves as ps s0 s) : Moves as ps s0 (State.linkDown s n cause t) := by
  unfold State.linkDown
  repeat' first
    | with_reducible assumption
    | with_reducible apply Moves.refl
    | with_reducible apply State.downSpares_moves
    | with_reducible apply State.setLink_moves
    | with_reducible apply State.darkLanes_moves
    | with_reducible apply State.settleLink_moves
    | with_reducible apply State.toClock_moves
    | with_reducible apply State.synthetic_moves
    | with_reducible apply State.pairPortLost_moves
    | with_reducible apply Moves.wr
    | with_reducible apply Moves.bump
    | with_reducible apply Moves.ite
    | (with_reducible apply Moves.inSub ha; decide)
    | (with_reducible apply Moves.inSub hq; decide)
    | with_reducible apply Moves.foldl
    | with_reducible intro _
    | (with_reducible apply List.Subset.trans ?_ ha; decide)
    | (with_reducible apply List.Subset.trans ?_ hq; decide)
    | split
    | dsimp only

theorem State.checkWidth_moves (s : State) (n : Nat) (t : Nat)
    (ha : [.imp, .forme, .fab, .pair, .core, .events, .cal, .gal, .cmp, .col, .ddl, .gst, .prs, .oe, .lnk, .lsu] ⊆ as)
    (hq : [.presses, .jobs, .lateXfers, .drains, .mgtLast, .calJobs, .swaps, .spareNeeds, .links, .relays, .mgtJobs, .out, .freeCount] ⊆ ps)
    (h : Moves as ps s0 s) : Moves as ps s0 (State.checkWidth s n t) := by
  unfold State.checkWidth
  repeat' first
    | with_reducible assumption
    | with_reducible apply Moves.refl
    | with_reducible apply State.linkDown_moves
    | with_reducible apply Moves.ite
    | (with_reducible apply Moves.inSub ha; decide)
    | (with_reducible apply Moves.inSub hq; decide)
    | with_reducible apply Moves.foldl
    | with_reducible intro _
    | (with_reducible apply List.Subset.trans ?_ ha; decide)
    | (with_reducible apply List.Subset.trans ?_ hq; decide)
    | split
    | dsimp only

theorem State.laneOut_moves (s : State) (n : Nat) (w : Nat) (t : Nat)
    (ha : [.imp, .forme, .fab, .pair, .core, .events, .cal, .gal, .cmp, .col, .ddl, .gst, .prs, .oe, .lnk, .lsu] ⊆ as)
    (hq : [.presses, .jobs, .lateXfers, .drains, .mgtLast, .calJobs, .swaps, .spareNeeds, .links, .relays, .mgtJobs, .out, .freeCount] ⊆ ps)
    (h : Moves as ps s0 s) : Moves as ps s0 (State.laneOut s n w t) := by
  unfold State.laneOut
  repeat' first
    | with_reducible assumption
    | with_reducible apply Moves.refl
    | with_reducible apply State.count_moves
    | with_reducible apply State.laneMoved_moves
    | with_reducible apply State.setLane_moves
    | with_reducible apply State.checkWidth_moves
    | with_reducible apply State.sendByp_moves
    | with_reducible apply Moves.ite
    | (with_reducible apply Moves.inSub ha; decide)
    | (with_reducible apply Moves.inSub hq; decide)
    | with_reducible apply Moves.foldl
    | with_reducible intro _
    | (with_reducible apply List.Subset.trans ?_ ha; decide)
    | (with_reducible apply List.Subset.trans ?_ hq; decide)
    | split
    | dsimp only

theorem State.emptyDie_moves (s : State) (l : Nat) (t : Nat)
    (ha : [.imp, .forme, .core, .cmp, .col, .gst, .prs, .lnk] ⊆ as)
    (hq : [.presses, .jobs, .lateXfers, .drains, .mgtLast, .links, .relays, .mgtJobs, .out, .freeCount] ⊆ ps)
    (h : Moves as ps s0 s) : Moves as ps s0 (State.emptyDie s l t) := by
  unfold State.emptyDie
  repeat' first
    | with_reducible assumption
    | with_reducible apply Moves.refl
    | with_reducible apply State.darkLanes_moves
    | with_reducible apply State.setLink_moves
    | with_reducible apply State.linkError_moves
    | with_reducible apply State.vc1Fail_moves
    | with_reducible apply State.abandon_moves
    | with_reducible apply State.noteErrPort_moves
    | with_reducible apply Moves.ite
    | (with_reducible apply Moves.inSub ha; decide)
    | (with_reducible apply Moves.inSub hq; decide)
    | with_reducible apply Moves.each
    | with_reducible apply Moves.foldl
    | with_reducible intro _
    | (with_reducible apply List.Subset.trans ?_ ha; decide)
    | (with_reducible apply List.Subset.trans ?_ hq; decide)
    | split
    | dsimp only

theorem State.parkLost_moves (s : State) (f : Nat)
    (ha : [.forme, .pwr, .cmp, .col, .prs] ⊆ as)
    (hq : [.presses, .jobs, .lateXfers, .drains, .links, .relays, .freeCount] ⊆ ps)
    (h : Moves as ps s0 s) : Moves as ps s0 (State.parkLost s f) := by
  unfold State.parkLost
  repeat' first
    | with_reducible assumption
    | with_reducible apply Moves.refl
    | with_reducible apply State.capUnmet_moves
    | with_reducible apply State.parkForme_moves
    | with_reducible apply State.stopUnits_moves
    | with_reducible apply Moves.wr
    | with_reducible apply Moves.ite
    | (with_reducible apply Moves.inSub ha; decide)
    | (with_reducible apply Moves.inSub hq; decide)
    | with_reducible apply Moves.foldl
    | with_reducible intro _
    | (with_reducible apply List.Subset.trans ?_ ha; decide)
    | (with_reducible apply List.Subset.trans ?_ hq; decide)
    | split
    | dsimp only

theorem State.failAttempt_moves (s : State) (n : Nat) (t : Nat)
    (ha : [.imp, .forme, .fab, .pair, .core, .events, .cal, .gal, .cmp, .col, .ddl, .gst, .prs, .oe, .lnk, .lsu] ⊆ as)
    (hq : [.presses, .jobs, .lateXfers, .drains, .mgtLast, .calJobs, .swaps, .spareNeeds, .links, .relays, .mgtJobs, .out, .freeCount] ⊆ ps)
    (h : Moves as ps s0 s) : Moves as ps s0 (State.failAttempt s n t) := by
  unfold State.failAttempt
  repeat' first
    | with_reducible assumption
    | with_reducible apply Moves.refl
    | with_reducible apply State.linkDown_moves
    | with_reducible apply State.darkLanes_moves
    | with_reducible apply State.setLink_moves
    | with_reducible apply State.setEnd_moves
    | with_reducible apply State.count_moves
    | with_reducible apply Moves.wr
    | with_reducible apply Moves.ite
    | (with_reducible apply Moves.inSub ha; decide)
    | (with_reducible apply Moves.inSub hq; decide)
    | with_reducible apply Moves.foldl
    | with_reducible intro _
    | (with_reducible apply List.Subset.trans ?_ ha; decide)
    | (with_reducible apply List.Subset.trans ?_ hq; decide)
    | split
    | dsimp only

theorem State.portDownByDie_moves (s : State) (n : Nat) (t : Nat)
    (ha : [.imp, .forme, .fab, .pair, .core, .events, .cal, .gal, .cmp, .col, .ddl, .gst, .prs, .oe, .lnk, .lsu] ⊆ as)
    (hq : [.presses, .jobs, .lateXfers, .drains, .mgtLast, .calJobs, .swaps, .spareNeeds, .links, .relays, .mgtJobs, .out, .freeCount] ⊆ ps)
    (h : Moves as ps s0 s) : Moves as ps s0 (State.portDownByDie s n t) := by
  unfold State.portDownByDie
  repeat' first
    | with_reducible assumption
    | with_reducible apply Moves.refl
    | with_reducible apply State.linkDown_moves
    | with_reducible apply State.failAttempt_moves
    | with_reducible apply Moves.ite
    | (with_reducible apply Moves.inSub ha; decide)
    | (with_reducible apply Moves.inSub hq; decide)
    | with_reducible apply Moves.foldl
    | with_reducible intro _
    | (with_reducible apply List.Subset.trans ?_ ha; decide)
    | (with_reducible apply List.Subset.trans ?_ hq; decide)
    | split
    | dsimp only

theorem State.dieDown_moves (s : State) (l : Nat) (t : Nat)
    (ha : [.imp, .forme, .fab, .pair, .pwr, .core, .events, .cal, .gal, .cmp, .col, .ddl, .gst, .prs, .oe, .lnk, .lsu] ⊆ as)
    (hq : [.presses, .jobs, .lateXfers, .drains, .mgtLast, .calJobs, .swaps, .spareNeeds, .links, .relays, .mgtJobs, .out, .freeCount] ⊆ ps)
    (h : Moves as ps s0 s) : Moves as ps s0 (State.dieDown s l t) := by
  unfold State.dieDown
  repeat' first
    | with_reducible assumption
    | with_reducible apply Moves.refl
    | with_reducible apply State.emptyDie_moves
    | with_reducible apply State.setEnd_moves
    | with_reducible apply State.ddlWr_moves
    | with_reducible apply State.yieldWith_moves
    | with_reducible apply State.parkLost_moves
    | with_reducible apply State.portDownByDie_moves
    | with_reducible apply State.abandon_moves
    | with_reducible apply State.noteErrPort_moves
    | with_reducible apply Moves.wr
    | with_reducible apply Moves.ite
    | (with_reducible apply Moves.inSub ha; decide)
    | (with_reducible apply Moves.inSub hq; decide)
    | with_reducible apply Moves.each
    | with_reducible apply Moves.foldl
    | with_reducible intro _
    | (with_reducible apply List.Subset.trans ?_ ha; decide)
    | (with_reducible apply List.Subset.trans ?_ hq; decide)
    | split
    | dsimp only

theorem State.wantWidth_moves (s : State) (l : Nat) (e : Nat) (t : Nat)
    (ha : [.imp, .forme, .fab, .pair, .pwr, .core, .events, .cal, .gal, .cmp, .col, .ddl, .gst, .prs, .oe, .lnk, .lsu] ⊆ as)
    (hq : [.presses, .jobs, .lateXfers, .drains, .mgtLast, .calJobs, .swaps, .spareNeeds, .links, .relays, .mgtJobs, .out, .freeCount] ⊆ ps)
    (h : Moves as ps s0 s) : Moves as ps s0 (State.wantWidth s l e t) := by
  unfold State.wantWidth
  repeat' first
    | with_reducible assumption
    | with_reducible apply Moves.refl
    | with_reducible apply State.dieDown_moves
    | with_reducible apply State.setLink_moves
    | with_reducible apply State.issue_moves
    | with_reducible apply Moves.ite
    | (with_reducible apply Moves.inSub ha; decide)
    | (with_reducible apply Moves.inSub hq; decide)
    | with_reducible apply Moves.foldl
    | with_reducible intro _
    | (with_reducible apply List.Subset.trans ?_ ha; decide)
    | (with_reducible apply List.Subset.trans ?_ hq; decide)
    | split
    | dsimp only

theorem State.dieLaneLost_moves (s : State) (n : Nat) (i : Nat) (t : Nat)
    (ha : [.imp, .forme, .fab, .pair, .pwr, .core, .events, .cal, .gal, .cmp, .col, .ddl, .gst, .prs, .oe, .lnk, .lsu] ⊆ as)
    (hq : [.presses, .jobs, .lateXfers, .drains, .mgtLast, .calJobs, .swaps, .spareNeeds, .links, .relays, .mgtJobs, .out, .freeCount] ⊆ ps)
    (h : Moves as ps s0 s) : Moves as ps s0 (State.dieLaneLost s n i t) := by
  unfold State.dieLaneLost
  repeat' first
    | with_reducible assumption
    | with_reducible apply Moves.refl
    | with_reducible apply State.setLink_moves
    | with_reducible apply State.groupFields_moves
    | with_reducible apply State.wantWidth_moves
    | with_reducible apply Moves.ite
    | (with_reducible apply Moves.inSub ha; decide)
    | (with_reducible apply Moves.inSub hq; decide)
    | with_reducible apply Moves.foldl
    | with_reducible intro _
    | (with_reducible apply List.Subset.trans ?_ ha; decide)
    | (with_reducible apply List.Subset.trans ?_ hq; decide)
    | split
    | dsimp only

end Sys2Proof.Machine
end

