-- ==== Sys2Proof/Laws/MovesLasers.lean ====
section
/-!
SUPPORT. Footprints of the operations of Machine/Lasers.lean.
-/

namespace Sys2Proof.Machine

variable {as : List Area} {ps : List Part} {s0 : State}

theorem State.setBolt_moves (s : State) (u : Nat) (b : Nat)
    (ha : [.lsu] ⊆ as)
    (h : Moves as ps s0 s) : Moves as ps s0 (State.setBolt s u b) := by
  unfold State.setBolt
  repeat' first
    | with_reducible assumption
    | with_reducible apply Moves.refl
    | with_reducible apply Moves.wr
    | with_reducible apply Moves.ite
    | (with_reducible apply Moves.inSub ha; decide)
    | with_reducible apply Moves.foldl
    | with_reducible intro _
    | (with_reducible apply List.Subset.trans ?_ ha; decide)
    | split
    | dsimp only

theorem State.setUnit_moves (s : State) (u : Nat) (st : Nat)
    (ha : [.lsu] ⊆ as)
    (h : Moves as ps s0 s) : Moves as ps s0 (State.setUnit s u st) := by
  unfold State.setUnit
  repeat' first
    | with_reducible assumption
    | with_reducible apply Moves.refl
    | with_reducible apply Moves.wr
    | with_reducible apply Moves.ite
    | (with_reducible apply Moves.inSub ha; decide)
    | with_reducible apply Moves.foldl
    | with_reducible intro _
    | (with_reducible apply List.Subset.trans ?_ ha; decide)
    | split
    | dsimp only

theorem State.darkUnit_moves (s : State) (u : Nat)
    (ha : [.oe, .lsu] ⊆ as)
    (h : Moves as ps s0 s) : Moves as ps s0 (State.darkUnit s u) := by
  unfold State.darkUnit
  repeat' first
    | with_reducible assumption
    | with_reducible apply Moves.refl
    | with_reducible apply State.light_moves
    | with_reducible apply Moves.ite
    | (with_reducible apply Moves.inSub ha; decide)
    | with_reducible apply Moves.each
    | with_reducible apply Moves.foldl
    | with_reducible intro _
    | (with_reducible apply List.Subset.trans ?_ ha; decide)
    | split
    | dsimp only

theorem State.unitSettle_moves (s : State) (u : Nat)
    (ha : [.oe, .lsu] ⊆ as)
    (h : Moves as ps s0 s) : Moves as ps s0 (State.unitSettle s u) := by
  unfold State.unitSettle
  repeat' first
    | with_reducible assumption
    | with_reducible apply Moves.refl
    | with_reducible apply State.setBolt_moves
    | with_reducible apply State.setUnit_moves
    | with_reducible apply State.darkUnit_moves
    | with_reducible apply Moves.ite
    | (with_reducible apply Moves.inSub ha; decide)
    | with_reducible apply Moves.foldl
    | with_reducible intro _
    | (with_reducible apply List.Subset.trans ?_ ha; decide)
    | split
    | dsimp only

theorem State.endSwap_moves (s : State) (x : Swap)
    (ha : [.cal, .oe, .lsu] ⊆ as)
    (hq : [.calJobs, .calRuns, .swaps, .links] ⊆ ps)
    (h : Moves as ps s0 s) : Moves as ps s0 (State.endSwap s x) := by
  unfold State.endSwap
  repeat' first
    | with_reducible assumption
    | with_reducible apply Moves.refl
    | with_reducible apply State.light_moves
    | with_reducible apply State.covers_moves
    | with_reducible apply State.unitSettle_moves
    | with_reducible apply State.tryCal_moves
    | with_reducible apply Moves.wr
    | with_reducible apply Moves.ite
    | (with_reducible apply Moves.inSub ha; decide)
    | (with_reducible apply Moves.inSub hq; decide)
    | with_reducible apply Moves.each
    | with_reducible apply Moves.foldl
    | with_reducible intro _
    | (with_reducible apply List.Subset.trans ?_ ha; decide)
    | (with_reducible apply List.Subset.trans ?_ hq; decide)
    | split
    | dsimp only
    | with_reducible apply Moves.set_swaps

theorem State.setSwap_moves (s : State) (x : Swap) (y : Swap)
    (hq : [.swaps] ⊆ ps)
    (h : Moves as ps s0 s) : Moves as ps s0 (State.setSwap s x y) := by
  unfold State.setSwap
  repeat' first
    | with_reducible assumption
    | with_reducible apply Moves.refl
    | with_reducible apply Moves.ite
    | (with_reducible apply Moves.inSub hq; decide)
    | with_reducible apply Moves.foldl
    | with_reducible intro _
    | (with_reducible apply List.Subset.trans ?_ hq; decide)
    | split
    | dsimp only
    | with_reducible apply Moves.set_swaps

theorem State.swapDone_moves (s : State) (x : Swap)
    (hq : [.swaps] ⊆ ps)
    (h : Moves as ps s0 s) : Moves as ps s0 (State.swapDone s x) := by
  unfold State.swapDone
  repeat' first
    | with_reducible assumption
    | with_reducible apply Moves.refl
    | with_reducible apply State.setSwap_moves
    | with_reducible apply Moves.ite
    | (with_reducible apply Moves.inSub hq; decide)
    | with_reducible apply Moves.foldl
    | with_reducible intro _
    | (with_reducible apply List.Subset.trans ?_ hq; decide)
    | split
    | dsimp only

theorem State.holdRing_moves (s : State) (k : Nat) (r : Nat) (e : Nat)
    (ha : [.oe] ⊆ as)
    (h : Moves as ps s0 s) : Moves as ps s0 (State.holdRing s k r e) := by
  unfold State.holdRing
  repeat' first
    | with_reducible assumption
    | with_reducible apply Moves.refl
    | with_reducible apply Moves.wr
    | with_reducible apply Moves.ite
    | (with_reducible apply Moves.inSub ha; decide)
    | with_reducible apply Moves.foldl
    | with_reducible intro _
    | (with_reducible apply List.Subset.trans ?_ ha; decide)
    | split
    | dsimp only

theorem State.swapSource_moves (s : State) (x : Swap) (j : Nat)
    (ha : [.oe, .lsu] ⊆ as)
    (hq : [.swaps] ⊆ ps)
    (h : Moves as ps s0 s) : Moves as ps s0 (State.swapSource s x j) := by
  unfold State.swapSource
  repeat' first
    | with_reducible assumption
    | with_reducible apply Moves.refl
    | with_reducible apply State.setSwap_moves
    | with_reducible apply State.holdRing_moves
    | with_reducible apply State.moveBank_moves
    | with_reducible apply Moves.ite
    | (with_reducible apply Moves.inSub ha; decide)
    | (with_reducible apply Moves.inSub hq; decide)
    | with_reducible apply Moves.foldl
    | with_reducible intro _
    | (with_reducible apply List.Subset.trans ?_ ha; decide)
    | (with_reducible apply List.Subset.trans ?_ hq; decide)
    | split
    | dsimp only

theorem State.swapBank_moves (s : State) (x : Swap) (j : Nat)
    (ha : [.cal, .oe, .lsu] ⊆ as)
    (hq : [.calJobs, .calRuns, .swaps, .spareNeeds, .links] ⊆ ps)
    (h : Moves as ps s0 s) : Moves as ps s0 (State.swapBank s x j) := by
  unfold State.swapBank
  repeat' first
    | with_reducible assumption
    | with_reducible apply Moves.refl
    | with_reducible apply State.swapDone_moves
    | with_reducible apply State.moveBank_moves
    | with_reducible apply State.freeSpare_moves
    | with_reducible apply State.swapSource_moves
    | with_reducible apply State.mark_moves
    | with_reducible apply State.needSpare_moves
    | with_reducible apply State.setSwap_moves
    | with_reducible apply Moves.ite
    | (with_reducible apply Moves.inSub ha; decide)
    | (with_reducible apply Moves.inSub hq; decide)
    | with_reducible apply Moves.foldl
    | with_reducible intro _
    | (with_reducible apply List.Subset.trans ?_ ha; decide)
    | (with_reducible apply List.Subset.trans ?_ hq; decide)
    | split
    | dsimp only

theorem State.swapRun_moves (s : State) (k : Nat) (x2 : Nat)
    (ha : [.cal, .oe, .lsu] ⊆ as)
    (hq : [.calJobs, .calRuns, .swaps, .spareNeeds, .links] ⊆ ps)
    (h : Moves as ps s0 s) : Moves as ps s0 (State.swapRun s k x2) := by
  induction x2 generalizing s with
  | zero => exact h
  | succ n ih =>
    unfold State.swapRun
    repeat' first
      | with_reducible assumption
      | with_reducible apply Moves.refl
      | with_reducible apply ih
      | with_reducible apply State.endSwap_moves
      | with_reducible apply State.swapBank_moves
      | with_reducible apply Moves.ite
      | (with_reducible apply Moves.inSub ha; decide)
      | (with_reducible apply Moves.inSub hq; decide)
      | with_reducible apply Moves.foldl
      | with_reducible intro _
      | (with_reducible apply List.Subset.trans ?_ ha; decide)
      | (with_reducible apply List.Subset.trans ?_ hq; decide)
      | split
      | dsimp only

theorem State.swapNext_moves (s : State) (k : Nat)
    (ha : [.cal, .oe, .lsu] ⊆ as)
    (hq : [.calJobs, .calRuns, .swaps, .spareNeeds, .links] ⊆ ps)
    (h : Moves as ps s0 s) : Moves as ps s0 (State.swapNext s k) := by
  unfold State.swapNext
  repeat' first
    | with_reducible assumption
    | with_reducible apply Moves.refl
    | with_reducible apply State.swapRun_moves
    | with_reducible apply Moves.ite
    | (with_reducible apply Moves.inSub ha; decide)
    | (with_reducible apply Moves.inSub hq; decide)
    | with_reducible apply Moves.foldl
    | with_reducible intro _
    | (with_reducible apply List.Subset.trans ?_ ha; decide)
    | (with_reducible apply List.Subset.trans ?_ hq; decide)
    | split
    | dsimp only

theorem State.swapAll_moves (s : State)
    (ha : [.cal, .oe, .lsu] ⊆ as)
    (hq : [.calJobs, .calRuns, .swaps, .spareNeeds, .links] ⊆ ps)
    (h : Moves as ps s0 s) : Moves as ps s0 (State.swapAll s) := by
  unfold State.swapAll
  repeat' first
    | with_reducible assumption
    | with_reducible apply Moves.refl
    | with_reducible apply State.swapNext_moves
    | with_reducible apply Moves.ite
    | (with_reducible apply Moves.inSub ha; decide)
    | (with_reducible apply Moves.inSub hq; decide)
    | with_reducible apply Moves.each
    | with_reducible apply Moves.foldl
    | with_reducible intro _
    | (with_reducible apply List.Subset.trans ?_ ha; decide)
    | (with_reducible apply List.Subset.trans ?_ hq; decide)
    | split
    | dsimp only

theorem State.swapBack_moves (s : State) (k : Nat) (j : Nat) (lane : Nat)
    (ha : [.cal, .oe, .lsu] ⊆ as)
    (hq : [.calJobs, .calRuns, .swaps, .spareNeeds, .links] ⊆ ps)
    (h : Moves as ps s0 s) : Moves as ps s0 (State.swapBack s k j lane) := by
  unfold State.swapBack
  repeat' first
    | with_reducible assumption
    | with_reducible apply Moves.refl
    | with_reducible apply State.swapNext_moves
    | with_reducible apply State.swapDone_moves
    | with_reducible apply Moves.ite
    | (with_reducible apply Moves.inSub ha; decide)
    | (with_reducible apply Moves.inSub hq; decide)
    | with_reducible apply Moves.foldl
    | with_reducible intro _
    | (with_reducible apply List.Subset.trans ?_ ha; decide)
    | (with_reducible apply List.Subset.trans ?_ hq; decide)
    | split
    | dsimp only

theorem State.afterSpare_moves (s : State) (k : Nat) (j : Nat)
    (ha : [.cal, .oe, .lsu] ⊆ as)
    (hq : [.calJobs, .calRuns, .swaps, .spareNeeds, .links] ⊆ ps)
    (h : Moves as ps s0 s) : Moves as ps s0 (State.afterSpare s k j) := by
  unfold State.afterSpare
  repeat' first
    | with_reducible assumption
    | with_reducible apply Moves.refl
    | with_reducible apply State.tryCal_moves
    | with_reducible apply State.swapNext_moves
    | with_reducible apply Moves.ite
    | (with_reducible apply Moves.inSub ha; decide)
    | (with_reducible apply Moves.inSub hq; decide)
    | with_reducible apply Moves.foldl
    | with_reducible intro _
    | (with_reducible apply List.Subset.trans ?_ ha; decide)
    | (with_reducible apply List.Subset.trans ?_ hq; decide)
    | split
    | dsimp only

theorem State.addSwap_moves (s : State) (src : Nat) (banks : List Nat) (sudden : Bool)
    (hq : [.swaps] ⊆ ps)
    (h : Moves as ps s0 s) : Moves as ps s0 (State.addSwap s src banks sudden) := by
  unfold State.addSwap
  repeat' first
    | with_reducible assumption
    | with_reducible apply Moves.refl
    | with_reducible apply Moves.ite
    | (with_reducible apply Moves.inSub hq; decide)
    | with_reducible apply Moves.foldl
    | with_reducible intro _
    | (with_reducible apply List.Subset.trans ?_ hq; decide)
    | split
    | dsimp only
    | with_reducible apply Moves.set_swaps

theorem State.moveAll_moves (s : State) (u : Nat) (which : Nat → Bool)
    (ha : [.cal, .oe, .lsu] ⊆ as)
    (hq : [.swaps] ⊆ ps)
    (h : Moves as ps s0 s) : Moves as ps s0 (State.moveAll s u which) := by
  unfold State.moveAll
  repeat' first
    | with_reducible assumption
    | with_reducible apply Moves.refl
    | with_reducible apply State.addSwap_moves
    | with_reducible apply State.warm_moves
    | with_reducible apply Moves.ite
    | (with_reducible apply Moves.inSub ha; decide)
    | (with_reducible apply Moves.inSub hq; decide)
    | with_reducible apply Moves.each
    | with_reducible apply Moves.foldl
    | with_reducible intro _
    | (with_reducible apply List.Subset.trans ?_ ha; decide)
    | (with_reducible apply List.Subset.trans ?_ hq; decide)
    | split
    | dsimp only

theorem State.endCal_moves (s : State) (k : Nat) (j : Nat) (lane : Nat)
    (ha : [.oe] ⊆ as)
    (hq : [.calJobs, .spareNeeds, .links] ⊆ ps)
    (h : Moves as ps s0 s) : Moves as ps s0 (State.endCal s k j lane) := by
  unfold State.endCal
  repeat' first
    | with_reducible assumption
    | with_reducible apply Moves.refl
    | with_reducible apply State.calMode_moves
    | with_reducible apply State.freeSpare_moves
    | with_reducible apply Moves.andNot
    | with_reducible apply Moves.ite
    | (with_reducible apply Moves.inSub ha; decide)
    | (with_reducible apply Moves.inSub hq; decide)
    | with_reducible apply Moves.each
    | with_reducible apply Moves.foldl
    | with_reducible intro _
    | (with_reducible apply List.Subset.trans ?_ ha; decide)
    | (with_reducible apply List.Subset.trans ?_ hq; decide)
    | split
    | dsimp only
    | with_reducible apply Moves.set_calJobs

theorem State.unholdRing_moves (s : State) (k : Nat) (r : Nat)
    (ha : [.oe] ⊆ as)
    (h : Moves as ps s0 s) : Moves as ps s0 (State.unholdRing s k r) := by
  unfold State.unholdRing
  repeat' first
    | with_reducible assumption
    | with_reducible apply Moves.refl
    | with_reducible apply Moves.wr
    | with_reducible apply Moves.ite
    | (with_reducible apply Moves.inSub ha; decide)
    | with_reducible apply Moves.foldl
    | with_reducible intro _
    | (with_reducible apply List.Subset.trans ?_ ha; decide)
    | split
    | dsimp only

theorem State.switchSource_moves (s : State) (n : Nat) (lane : Nat)
    (ha : [.oe, .lsu] ⊆ as)
    (hq : [.swaps] ⊆ ps)
    (h : Moves as ps s0 s) : Moves as ps s0 (State.switchSource s n lane) := by
  unfold State.switchSource
  repeat' first
    | with_reducible assumption
    | with_reducible apply Moves.refl
    | with_reducible apply State.swapSource_moves
    | with_reducible apply Moves.ite
    | (with_reducible apply Moves.inSub ha; decide)
    | (with_reducible apply Moves.inSub hq; decide)
    | with_reducible apply Moves.foldl
    | with_reducible intro _
    | (with_reducible apply List.Subset.trans ?_ ha; decide)
    | (with_reducible apply List.Subset.trans ?_ hq; decide)
    | split
    | dsimp only

theorem State.giveBack_moves (s : State) (k : Nat) (f : Nat) (lane : Nat)
    (ha : [.oe] ⊆ as)
    (hq : [.spareNeeds, .links] ⊆ ps)
    (h : Moves as ps s0 s) : Moves as ps s0 (State.giveBack s k f lane) := by
  unfold State.giveBack
  repeat' first
    | with_reducible assumption
    | with_reducible apply Moves.refl
    | with_reducible apply State.freeSpare_moves
    | with_reducible apply Moves.ite
    | (with_reducible apply Moves.inSub ha; decide)
    | (with_reducible apply Moves.inSub hq; decide)
    | with_reducible apply Moves.foldl
    | with_reducible intro _
    | (with_reducible apply List.Subset.trans ?_ ha; decide)
    | (with_reducible apply List.Subset.trans ?_ hq; decide)
    | split
    | dsimp only

theorem State.laserShutdown_moves (s : State) (t : Nat)
    (ha : [.imp, .forme, .fab, .pair, .core, .events, .cal, .gal, .cmp, .col, .ddl, .gst, .prs, .oe, .lnk, .lsu] ⊆ as)
    (hq : [.presses, .jobs, .lateXfers, .drains, .mgtLast, .calJobs, .swaps, .spareNeeds, .links, .relays, .mgtJobs, .out, .freeCount] ⊆ ps)
    (h : Moves as ps s0 s) : Moves as ps s0 (State.laserShutdown s t) := by
  unfold State.laserShutdown
  repeat' first
    | with_reducible assumption
    | with_reducible apply Moves.refl
    | with_reducible apply State.darkUnit_moves
    | with_reducible apply State.parkRings_moves
    | with_reducible apply State.setUnit_moves
    | with_reducible apply State.linkDown_moves
    | with_reducible apply State.refreshEngine_moves
    | with_reducible apply Moves.wr
    | with_reducible apply Moves.ite
    | (with_reducible apply Moves.inSub ha; decide)
    | (with_reducible apply Moves.inSub hq; decide)
    | with_reducible apply Moves.each
    | with_reducible apply Moves.foldl
    | with_reducible intro _
    | (with_reducible apply List.Subset.trans ?_ ha; decide)
    | (with_reducible apply List.Subset.trans ?_ hq; decide)
    | split
    | dsimp only

theorem State.noTwin_moves (s : State) (n : Nat)
    (ha : [.lsu] ⊆ as)
    (h : Moves as ps s0 s) : Moves as ps s0 (State.noTwin s n) := by
  unfold State.noTwin
  repeat' first
    | with_reducible assumption
    | with_reducible apply Moves.refl
    | with_reducible apply Moves.wr
    | with_reducible apply Moves.ite
    | (with_reducible apply Moves.inSub ha; decide)
    | with_reducible apply Moves.foldl
    | with_reducible intro _
    | (with_reducible apply List.Subset.trans ?_ ha; decide)
    | split
    | dsimp only

end Sys2Proof.Machine
end

