-- ==== Sys2Proof/Laws/MovesPowerBase.lean ====
section
/-!
SUPPORT. Footprints of the operations of Machine/PowerBase.lean.
-/

namespace Sys2Proof.Machine

variable {as : List Area} {ps : List Part} {s0 : State}

theorem State.setPoint_moves (s : State) (f : Nat) (p : Nat) (t : Nat)
    (ha : [.forme, .pwr] ⊆ as)
    (h : Moves as ps s0 s) : Moves as ps s0 (State.setPoint s f p t) := by
  unfold State.setPoint
  repeat' first
    | with_reducible assumption
    | with_reducible apply Moves.refl
    | with_reducible apply Moves.wr
    | with_reducible apply Moves.bump
    | with_reducible apply Moves.ite
    | (with_reducible apply Moves.inSub ha; decide)
    | with_reducible apply Moves.foldl
    | with_reducible intro _
    | (with_reducible apply List.Subset.trans ?_ ha; decide)
    | split
    | dsimp only

theorem State.pointStep_moves (s : State) (f : Nat) (t : Nat)
    (ha : [.forme, .pwr] ⊆ as)
    (h : Moves as ps s0 s) : Moves as ps s0 (State.pointStep s f t) := by
  unfold State.pointStep
  repeat' first
    | with_reducible assumption
    | with_reducible apply Moves.refl
    | with_reducible apply State.setPoint_moves
    | with_reducible apply Moves.wr
    | with_reducible apply Moves.ite
    | (with_reducible apply Moves.inSub ha; decide)
    | with_reducible apply Moves.foldl
    | with_reducible intro _
    | (with_reducible apply List.Subset.trans ?_ ha; decide)
    | split
    | dsimp only

theorem State.setDebt_moves (s : State) (f : Nat) (b : Int)
    (hq : [.idleDebt] ⊆ ps)
    (h : Moves as ps s0 s) : Moves as ps s0 (State.setDebt s f b) := by
  unfold State.setDebt
  repeat' first
    | with_reducible assumption
    | with_reducible apply Moves.refl
    | with_reducible apply Moves.ite
    | (with_reducible apply Moves.inSub hq; decide)
    | with_reducible apply Moves.foldl
    | with_reducible intro _
    | (with_reducible apply List.Subset.trans ?_ hq; decide)
    | split
    | dsimp only
    | with_reducible apply Moves.set_idleDebt

theorem State.idleNext_moves (s : State) (f : Nat)
    (ha : [.forme, .pwr] ⊆ as)
    (hq : [.idleDebt] ⊆ ps)
    (h : Moves as ps s0 s) : Moves as ps s0 (State.idleNext s f) := by
  unfold State.idleNext
  repeat' first
    | with_reducible assumption
    | with_reducible apply Moves.refl
    | with_reducible apply State.setDebt_moves
    | with_reducible apply Moves.wr
    | with_reducible apply Moves.bump
    | with_reducible apply Moves.ite
    | (with_reducible apply Moves.inSub ha; decide)
    | (with_reducible apply Moves.inSub hq; decide)
    | with_reducible apply Moves.foldl
    | with_reducible intro _
    | (with_reducible apply List.Subset.trans ?_ ha; decide)
    | (with_reducible apply List.Subset.trans ?_ hq; decide)
    | split
    | dsimp only

theorem State.idleRule_moves (s : State) (f : Nat)
    (ha : [.forme, .pwr] ⊆ as)
    (hq : [.idleDebt] ⊆ ps)
    (h : Moves as ps s0 s) : Moves as ps s0 (State.idleRule s f) := by
  unfold State.idleRule
  repeat' first
    | with_reducible assumption
    | with_reducible apply Moves.refl
    | with_reducible apply State.setDebt_moves
    | with_reducible apply State.idleNext_moves
    | with_reducible apply Moves.wr
    | with_reducible apply Moves.ite
    | (with_reducible apply Moves.inSub ha; decide)
    | (with_reducible apply Moves.inSub hq; decide)
    | with_reducible apply Moves.foldl
    | with_reducible intro _
    | (with_reducible apply List.Subset.trans ?_ ha; decide)
    | (with_reducible apply List.Subset.trans ?_ hq; decide)
    | split
    | dsimp only

theorem State.powerBoundary_moves (s : State) (f : Nat) (t : Nat)
    (ha : [.forme, .pwr] ⊆ as)
    (hq : [.idleDebt] ⊆ ps)
    (h : Moves as ps s0 s) : Moves as ps s0 (State.powerBoundary s f t) := by
  unfold State.powerBoundary
  repeat' first
    | with_reducible assumption
    | with_reducible apply Moves.refl
    | with_reducible apply State.parkForme_moves
    | with_reducible apply State.idleRule_moves
    | with_reducible apply State.pointStep_moves
    | with_reducible apply Moves.ite
    | (with_reducible apply Moves.inSub ha; decide)
    | (with_reducible apply Moves.inSub hq; decide)
    | with_reducible apply Moves.foldl
    | with_reducible intro _
    | (with_reducible apply List.Subset.trans ?_ ha; decide)
    | (with_reducible apply List.Subset.trans ?_ hq; decide)
    | split
    | dsimp only

end Sys2Proof.Machine
end

