-- ==== Sys2Proof/Laws/MovesOperands.lean ====
section
/-!
SUPPORT. Footprints of the operations of Machine/Operands.lean.
-/

namespace Sys2Proof.Machine

variable {as : List Area} {ps : List Part} {s0 : State}

/-- Counts of cycles, all of them of a press (R105). -/
def prsAll (l : List Field) : Prop := ∀ f ∈ l, f.area = .prs

theorem prsAll.nil : prsAll [] := by unfold prsAll; decide

theorem prsAll.busy : prsAll [.prsBusyCyclesBusy] := by unfold prsAll; decide

theorem State.finFlags_moves (s : State) (p : Nat) (f : NumFlags)
    (ha : [.fin] ⊆ as)
    (h : Moves as ps s0 s) : Moves as ps s0 (State.finFlags s p f) := by
  unfold State.finFlags
  repeat' first
    | with_reducible assumption
    | with_reducible apply Moves.refl
    | with_reducible apply Moves.wr
    | with_reducible apply Moves.ite
    | (with_reducible apply Moves.inSub ha; decide)
    | with_reducible apply Moves.foldl
    | with_reducible intro _
    | (with_reducible apply List.Subset.trans ?_ ha; decide)
    | split
    | dsimp only

theorem State.maskWrite_moves (s : State) (p : Nat) (f : Sys2Proof.FinF) (bits : Nat → Bool) (fl : NumFlags)
    (ha : [.fin] ⊆ as)
    (hq : [.presses] ⊆ ps)
    (h : Moves as ps s0 s) : Moves as ps s0 (State.maskWrite s p f bits fl) := by
  unfold State.maskWrite
  repeat' first
    | with_reducible assumption
    | with_reducible apply Moves.refl
    | with_reducible apply Press.ok_init
    | (with_reducible apply State.inv_press; assumption)
    | with_reducible apply Press.Ok.pops
    | with_reducible apply Press.Ok.loseCarry
    | with_reducible apply Press.Ok.signal
    | with_reducible apply Press.Ok.waitTok
    | (with_reducible apply State.inv_caseMem; assumption)
    | with_reducible apply Press.Ok.pop
    | with_reducible apply Press.Ok.writeCase
    | with_reducible apply Press.Ok.enqueueRing
    | with_reducible apply Press.Ok.settle
    | with_reducible apply Press.Ok.ite
    | with_reducible apply Press.Ok.of_wf
    | with_reducible apply State.finFlags_moves
    | with_reducible apply Moves.setPress
    | with_reducible apply Moves.ite
    | (with_reducible apply Moves.inSub ha; decide)
    | (with_reducible apply Moves.inSub hq; decide)
    | with_reducible apply Moves.foldl
    | with_reducible intro _
    | (with_reducible apply List.Subset.trans ?_ ha; decide)
    | (with_reducible apply List.Subset.trans ?_ hq; decide)
    | split
    | dsimp only
    | with_reducible apply Press.Ok.wf

theorem State.advance_moves (s : State) (p : Nat)
    (ha : [.prs] ⊆ as)
    (hq : [.presses] ⊆ ps)
    (h : Moves as ps s0 s) : Moves as ps s0 (State.advance s p) := by
  unfold State.advance
  repeat' first
    | with_reducible assumption
    | with_reducible apply Moves.refl
    | with_reducible apply Press.ok_init
    | (with_reducible apply State.inv_press; assumption)
    | with_reducible apply Press.Ok.pops
    | with_reducible apply Press.Ok.loseCarry
    | with_reducible apply Press.Ok.signal
    | with_reducible apply Press.Ok.waitTok
    | (with_reducible apply State.inv_caseMem; assumption)
    | with_reducible apply Press.Ok.pop
    | with_reducible apply Press.Ok.writeCase
    | with_reducible apply Press.Ok.enqueueRing
    | with_reducible apply Press.Ok.settle
    | with_reducible apply Press.Ok.ite
    | with_reducible apply Press.Ok.of_wf
    | with_reducible apply Moves.wr
    | with_reducible apply Moves.setPress
    | with_reducible apply Moves.ite
    | (with_reducible apply Moves.inSub ha; decide)
    | (with_reducible apply Moves.inSub hq; decide)
    | with_reducible apply Moves.foldl
    | with_reducible intro _
    | (with_reducible apply List.Subset.trans ?_ ha; decide)
    | (with_reducible apply List.Subset.trans ?_ hq; decide)
    | split
    | dsimp only
    | with_reducible apply Press.Ok.wf

theorem State.finWrite_moves (s : State) (p : Nat) (f : Sys2Proof.FinF) (res : List Nat × NumFlags)
    (ha : [.fin] ⊆ as)
    (hq : [.presses] ⊆ ps)
    (h : Moves as ps s0 s) : Moves as ps s0 (State.finWrite s p f res) := by
  unfold State.finWrite
  repeat' first
    | with_reducible assumption
    | with_reducible apply Moves.refl
    | with_reducible apply Press.ok_init
    | (with_reducible apply State.inv_press; assumption)
    | with_reducible apply Press.Ok.pops
    | with_reducible apply Press.Ok.loseCarry
    | with_reducible apply Press.Ok.signal
    | with_reducible apply Press.Ok.waitTok
    | (with_reducible apply State.inv_caseMem; assumption)
    | with_reducible apply Press.Ok.pop
    | with_reducible apply Press.Ok.writeCase
    | with_reducible apply Press.Ok.enqueueRing
    | with_reducible apply Press.Ok.settle
    | with_reducible apply Press.Ok.ite
    | with_reducible apply Press.Ok.of_wf
    | with_reducible apply State.finFlags_moves
    | with_reducible apply Moves.setPress
    | with_reducible apply Moves.ite
    | (with_reducible apply Moves.inSub ha; decide)
    | (with_reducible apply Moves.inSub hq; decide)
    | with_reducible apply Moves.foldl
    | with_reducible intro _
    | (with_reducible apply List.Subset.trans ?_ ha; decide)
    | (with_reducible apply List.Subset.trans ?_ hq; decide)
    | split
    | dsimp only
    | with_reducible apply Press.Ok.wf

theorem State.holdDispatch_moves (s : State) (p : Nat) (code : Nat)
    (ha : [.prs] ⊆ as)
    (h : Moves as ps s0 s) : Moves as ps s0 (State.holdDispatch s p code) := by
  unfold State.holdDispatch holdField
  refine Moves.bump _ _ _ _ ?_ (Moves.wr _ _ _ _ (ha (by decide)) h)
  split
  · exact ha (by decide)
  · split
    · exact ha (by decide)
    · split <;> exact ha (by decide)

theorem State.stalled_moves (s : State) (p : Nat) (fs : List Field)
    (ha : [.prs] ⊆ as)
    (hq : [.freeCount] ⊆ ps) (hf : prsAll fs)
    (h : Moves as ps s0 s) : Moves as ps s0 (State.stalled s p fs) := by
  unfold State.stalled State.each
  induction fs generalizing s with
  | nil => exact h
  | cons f l ih =>
    refine ih _ (fun g hg => hf g (List.mem_cons_of_mem _ hg)) ?_
    refine Moves.bump _ _ _ _ ?_ (Moves.free _ (hq (by decide)) (Moves.free _ (hq (by decide)) h))
    rw [hf f (List.mem_cons_self ..)]
    exact ha (by decide)

theorem State.issued_moves (s : State) (p : Nat) (k : Sys2Proof.Tok) (u : Nat)
    (ha : [.prs] ⊆ as)
    (hq : [.presses] ⊆ ps)
    (h : Moves as ps s0 s) : Moves as ps s0 (State.issued s p k u) := by
  unfold State.issued
  repeat' first
    | with_reducible assumption
    | with_reducible apply Moves.refl
    | with_reducible apply Press.ok_init
    | (with_reducible apply State.inv_press; assumption)
    | with_reducible apply Press.Ok.pops
    | with_reducible apply Press.Ok.loseCarry
    | with_reducible apply Press.Ok.signal
    | with_reducible apply Press.Ok.waitTok
    | (with_reducible apply State.inv_caseMem; assumption)
    | with_reducible apply Press.Ok.pop
    | with_reducible apply Press.Ok.writeCase
    | with_reducible apply Press.Ok.enqueueRing
    | with_reducible apply Press.Ok.settle
    | with_reducible apply Press.Ok.ite
    | with_reducible apply Press.Ok.of_wf
    | with_reducible apply Moves.wr
    | with_reducible apply Moves.setPress
    | with_reducible apply Moves.ite
    | (with_reducible apply Moves.inSub ha; decide)
    | (with_reducible apply Moves.inSub hq; decide)
    | with_reducible apply Moves.foldl
    | with_reducible intro _
    | (with_reducible apply List.Subset.trans ?_ ha; decide)
    | (with_reducible apply List.Subset.trans ?_ hq; decide)
    | split
    | dsimp only
    | with_reducible apply Press.Ok.wf

theorem State.illegalWord_moves (s : State) (p : Nat)
    (ha : [.imp, .forme, .cmp, .col, .prs] ⊆ as)
    (hq : [.presses, .jobs, .lateXfers, .drains, .links, .relays, .freeCount] ⊆ ps)
    (h : Moves as ps s0 s) : Moves as ps s0 (State.illegalWord s p) := by
  unfold State.illegalWord
  repeat' first
    | with_reducible assumption
    | with_reducible apply Moves.refl
    | with_reducible apply State.abandonPress_moves
    | with_reducible apply State.setPState_moves
    | with_reducible apply Moves.wr
    | with_reducible apply Moves.ite
    | (with_reducible apply Moves.inSub ha; decide)
    | (with_reducible apply Moves.inSub hq; decide)
    | with_reducible apply Moves.foldl
    | with_reducible intro _
    | (with_reducible apply List.Subset.trans ?_ ha; decide)
    | (with_reducible apply List.Subset.trans ?_ hq; decide)
    | split
    | dsimp only

theorem State.dispatch_moves (s : State) (p : Nat) (k : Sys2Proof.Tok) (u : Nat) (legal : Bool) (hold : Nat) (ready : Bool) (lines : List (Int × Nat)) (waits : List Field) (run : State → State)
    (ha : [.imp, .forme, .cmp, .col, .prs] ⊆ as)
    (hq : [.presses, .jobs, .lateXfers, .drains, .links, .relays, .freeCount] ⊆ ps)
    (hwaits : prsAll waits)
    (hr : ∀ x0, Moves as ps s0 x0 → Moves as ps s0 (run x0))
    (h : Moves as ps s0 s) : ResMoves as ps s0 (State.dispatch s p k u legal hold ready lines waits run) := by
  unfold State.dispatch
  repeat' first
    | with_reducible assumption
    | with_reducible apply Moves.refl
    | with_reducible apply State.holdDispatch_moves
    | with_reducible apply State.advance_moves
    | with_reducible apply State.issued_moves
    | with_reducible apply State.illegalWord_moves
    | with_reducible apply Moves.free
    | with_reducible apply State.stalled_moves
    | with_reducible exact hwaits
    | with_reducible apply Moves.ite
    | with_reducible apply ResMoves.next
    | with_reducible apply ResMoves.fault
    | with_reducible apply ResMoves.refused
    | with_reducible apply ResMoves.ite
    | (with_reducible apply Moves.inSub ha; decide)
    | (with_reducible apply Moves.inSub hq; decide)
    | with_reducible apply Moves.ite_snd
    | with_reducible apply Moves.foldl
    | with_reducible apply hr
    | with_reducible intro _
    | (with_reducible apply List.Subset.trans ?_ ha; decide)
    | (with_reducible apply List.Subset.trans ?_ hq; decide)
    | split
    | dsimp only

theorem State.finOp_moves (s : State) (p : Nat) (k : Sys2Proof.Tok) (o : Sys2Proof.FinOp) (f : Sys2Proof.FinF) (op : List FVal → FVal)
    (ha : [.imp, .forme, .cmp, .col, .prs, .fin] ⊆ as)
    (hq : [.presses, .jobs, .lateXfers, .drains, .links, .relays, .freeCount] ⊆ ps)
    (h : Moves as ps s0 s) : ResMoves as ps s0 (State.finOp s p k o f op) := by
  unfold State.finOp
  repeat' first
    | with_reducible assumption
    | with_reducible apply Moves.refl
    | with_reducible apply State.dispatch_moves
    | with_reducible apply State.finWrite_moves
    | with_reducible exact prsAll.nil
    | with_reducible exact prsAll.busy
    | with_reducible apply Moves.ite
    | with_reducible apply ResMoves.next
    | with_reducible apply ResMoves.fault
    | with_reducible apply ResMoves.refused
    | with_reducible apply ResMoves.ite
    | (with_reducible apply Moves.inSub ha; decide)
    | (with_reducible apply Moves.inSub hq; decide)
    | with_reducible apply Moves.foldl
    | with_reducible intro _
    | (with_reducible apply List.Subset.trans ?_ ha; decide)
    | (with_reducible apply List.Subset.trans ?_ hq; decide)
    | split
    | dsimp only

theorem State.reduce_moves (s : State) (p : Nat) (f : Sys2Proof.FinF) (ident : Nat) (op : FVal → FVal → FVal)
    (ha : [.fin] ⊆ as)
    (hq : [.presses] ⊆ ps)
    (h : Moves as ps s0 s) : Moves as ps s0 (State.reduce s p f ident op) := by
  unfold State.reduce
  repeat' first
    | with_reducible assumption
    | with_reducible apply Moves.refl
    | with_reducible apply Press.ok_init
    | (with_reducible apply State.inv_press; assumption)
    | with_reducible apply Press.Ok.pops
    | with_reducible apply Press.Ok.loseCarry
    | with_reducible apply Press.Ok.signal
    | with_reducible apply Press.Ok.waitTok
    | (with_reducible apply State.inv_caseMem; assumption)
    | with_reducible apply Press.Ok.pop
    | with_reducible apply Press.Ok.writeCase
    | with_reducible apply Press.Ok.enqueueRing
    | with_reducible apply Press.Ok.settle
    | with_reducible apply Press.Ok.ite
    | with_reducible apply Press.Ok.of_wf
    | with_reducible apply State.finFlags_moves
    | with_reducible apply Moves.setPress
    | with_reducible apply Moves.ite
    | (with_reducible apply Moves.inSub ha; decide)
    | (with_reducible apply Moves.inSub hq; decide)
    | with_reducible apply Moves.foldl
    | with_reducible intro _
    | (with_reducible apply List.Subset.trans ?_ ha; decide)
    | (with_reducible apply List.Subset.trans ?_ hq; decide)
    | split
    | dsimp only
    | with_reducible apply Press.Ok.wf

theorem State.drainRows_moves (s : State) (p : Nat) (o : Sys2Proof.DrainOut) (accs : List (List Nat))
    (ha : [.fin] ⊆ as)
    (hq : [.presses] ⊆ ps)
    (h : Moves as ps s0 s) : Moves as ps s0 (State.drainRows s p o accs) := by
  unfold State.drainRows
  repeat' first
    | with_reducible assumption
    | with_reducible apply Moves.refl
    | with_reducible apply Press.ok_init
    | (with_reducible apply State.inv_press; assumption)
    | with_reducible apply Press.Ok.pops
    | with_reducible apply Press.Ok.loseCarry
    | with_reducible apply Press.Ok.signal
    | with_reducible apply Press.Ok.waitTok
    | (with_reducible apply State.inv_caseMem; assumption)
    | with_reducible apply Press.Ok.pop
    | with_reducible apply Press.Ok.writeCase
    | with_reducible apply Press.Ok.enqueueRing
    | with_reducible apply Press.Ok.settle
    | with_reducible apply Press.Ok.ite
    | with_reducible apply Press.Ok.of_wf
    | with_reducible apply State.finFlags_moves
    | with_reducible apply Moves.setPress
    | with_reducible apply Moves.ite
    | (with_reducible apply Moves.inSub ha; decide)
    | (with_reducible apply Moves.inSub hq; decide)
    | with_reducible apply Moves.foldl
    | with_reducible intro _
    | (with_reducible apply List.Subset.trans ?_ ha; decide)
    | (with_reducible apply List.Subset.trans ?_ hq; decide)
    | split
    | dsimp only
    | with_reducible apply Press.Ok.wf

end Sys2Proof.Machine
end

