-- ==== Sys2Proof/Laws/MovesControl.lean ====
section
/-!
SUPPORT. Footprints of the operations of Machine/Control.lean.
-/

namespace Sys2Proof.Machine

variable {as : List Area} {ps : List Part} {s0 : State}

theorem execFence_moves (p : Nat) (k : Sys2Proof.Tok) (units : Nat) (s : State)
    (ha : [.imp, .forme, .cmp, .col, .prs] ⊆ as)
    (hq : [.presses, .jobs, .lateXfers, .drains, .links, .relays, .freeCount] ⊆ ps)
    (h : Moves as ps s0 s) : ResMoves as ps s0 (execFence p k units s) := by
  unfold execFence
  repeat' first
    | with_reducible assumption
    | with_reducible apply Moves.refl
    | with_reducible apply State.dispatch_moves
    | with_reducible exact prsAll.nil
    | with_reducible apply Moves.ite
    | with_reducible apply ResMoves.next
    | with_reducible apply ResMoves.fault
    | with_reducible apply ResMoves.refused
    | with_reducible apply ResMoves.ite
    | (with_reducible apply Moves.inSub ha; decide)
    | (with_reducible apply Moves.inSub hq; decide)
    | with_reducible apply Moves.foldl
    | with_reducible intro _
    | (with_reducible apply List.Subset.trans ?_ ha; decide)
    | (with_reducible apply List.Subset.trans ?_ hq; decide)
    | split
    | dsimp only

theorem execSeta_moves (p : Nat) (k : Sys2Proof.Tok) (ad : Nat) (a : Sys2Proof.AddrReg) (s : State)
    (ha : [.imp, .forme, .cmp, .col, .prs] ⊆ as)
    (hq : [.presses, .jobs, .lateXfers, .drains, .links, .relays, .freeCount] ⊆ ps)
    (h : Moves as ps s0 s) : ResMoves as ps s0 (execSeta p k ad a s) := by
  unfold execSeta
  repeat' first
    | with_reducible assumption
    | with_reducible apply Moves.refl
    | with_reducible apply Press.ok_init
    | (with_reducible apply State.inv_press; assumption)
    | with_reducible apply Press.Ok.pops
    | with_reducible apply Press.Ok.loseCarry
    | with_reducible apply Press.Ok.signal
    | with_reducible apply Press.Ok.waitTok
    | (with_reducible apply State.inv_caseMem; assumption)
    | with_reducible apply Press.Ok.pop
    | with_reducible apply Press.Ok.writeCase
    | with_reducible apply Press.Ok.enqueueRing
    | with_reducible apply Press.Ok.settle
    | with_reducible apply Press.Ok.ite
    | with_reducible apply Press.Ok.of_wf
    | with_reducible apply State.dispatch_moves
    | with_reducible apply Moves.setPress
    | with_reducible exact prsAll.nil
    | with_reducible apply Moves.ite
    | with_reducible apply ResMoves.next
    | with_reducible apply ResMoves.fault
    | with_reducible apply ResMoves.refused
    | with_reducible apply ResMoves.ite
    | (with_reducible apply Moves.inSub ha; decide)
    | (with_reducible apply Moves.inSub hq; decide)
    | with_reducible apply Moves.foldl
    | with_reducible intro _
    | (with_reducible apply List.Subset.trans ?_ ha; decide)
    | (with_reducible apply List.Subset.trans ?_ hq; decide)
    | split
    | dsimp only
    | with_reducible apply Press.Ok.wf

theorem execNop_moves (p : Nat) (k : Sys2Proof.Tok) (s : State)
    (ha : [.imp, .forme, .cmp, .col, .prs] ⊆ as)
    (hq : [.presses, .jobs, .lateXfers, .drains, .links, .relays, .freeCount] ⊆ ps)
    (h : Moves as ps s0 s) : ResMoves as ps s0 (execNop p k s) := by
  unfold execNop
  repeat' first
    | with_reducible assumption
    | with_reducible apply Moves.refl
    | with_reducible apply State.dispatch_moves
    | with_reducible exact prsAll.nil
    | with_reducible apply Moves.ite
    | with_reducible apply ResMoves.next
    | with_reducible apply ResMoves.fault
    | with_reducible apply ResMoves.refused
    | with_reducible apply ResMoves.ite
    | (with_reducible apply Moves.inSub ha; decide)
    | (with_reducible apply Moves.inSub hq; decide)
    | with_reducible apply Moves.foldl
    | with_reducible intro _
    | (with_reducible apply List.Subset.trans ?_ ha; decide)
    | (with_reducible apply List.Subset.trans ?_ hq; decide)
    | split
    | dsimp only

theorem execRamp_moves (p : Nat) (k : Sys2Proof.Tok) (mode : Nat) (s : State)
    (ha : [.imp, .forme, .cmp, .col, .prs] ⊆ as)
    (hq : [.presses, .jobs, .lateXfers, .drains, .links, .relays, .freeCount] ⊆ ps)
    (h : Moves as ps s0 s) : ResMoves as ps s0 (execRamp p k mode s) := by
  unfold execRamp
  repeat' first
    | with_reducible assumption
    | with_reducible apply Moves.refl
    | with_reducible apply Press.ok_init
    | (with_reducible apply State.inv_press; assumption)
    | with_reducible apply Press.Ok.pops
    | with_reducible apply Press.Ok.loseCarry
    | with_reducible apply Press.Ok.signal
    | with_reducible apply Press.Ok.waitTok
    | (with_reducible apply State.inv_caseMem; assumption)
    | with_reducible apply Press.Ok.pop
    | with_reducible apply Press.Ok.writeCase
    | with_reducible apply Press.Ok.enqueueRing
    | with_reducible apply Press.Ok.settle
    | with_reducible apply Press.Ok.ite
    | with_reducible apply Press.Ok.of_wf
    | with_reducible apply State.dispatch_moves
    | with_reducible apply Moves.setPress
    | with_reducible apply Moves.free
    | with_reducible exact prsAll.nil
    | with_reducible apply Moves.ite
    | with_reducible apply ResMoves.next
    | with_reducible apply ResMoves.fault
    | with_reducible apply ResMoves.refused
    | with_reducible apply ResMoves.ite
    | (with_reducible apply Moves.inSub ha; decide)
    | (with_reducible apply Moves.inSub hq; decide)
    | with_reducible apply Moves.ite_snd
    | with_reducible apply Moves.foldl
    | with_reducible intro _
    | (with_reducible apply List.Subset.trans ?_ ha; decide)
    | (with_reducible apply List.Subset.trans ?_ hq; decide)
    | split
    | dsimp only
    | with_reducible apply Press.Ok.wf

theorem execBwait_moves (p : Nat) (k : Sys2Proof.Tok) (barrier : Nat) (s : State)
    (ha : [.imp, .forme, .cmp, .col, .prs] ⊆ as)
    (hq : [.presses, .jobs, .lateXfers, .drains, .links, .relays, .freeCount] ⊆ ps)
    (h : Moves as ps s0 s) : ResMoves as ps s0 (execBwait p k barrier s) := by
  unfold execBwait
  repeat' first
    | with_reducible assumption
    | with_reducible apply Moves.refl
    | with_reducible apply State.dispatch_moves
    | with_reducible exact prsAll.nil
    | with_reducible apply Moves.ite
    | with_reducible apply ResMoves.next
    | with_reducible apply ResMoves.fault
    | with_reducible apply ResMoves.refused
    | with_reducible apply ResMoves.ite
    | (with_reducible apply Moves.inSub ha; decide)
    | (with_reducible apply Moves.inSub hq; decide)
    | with_reducible apply Moves.foldl
    | with_reducible intro _
    | (with_reducible apply List.Subset.trans ?_ ha; decide)
    | (with_reducible apply List.Subset.trans ?_ hq; decide)
    | split
    | dsimp only

theorem execStepEnd_moves (p : Nat) (k : Sys2Proof.Tok) (s : State)
    (ha : [.imp, .forme, .cmp, .col, .prs] ⊆ as)
    (hq : [.presses, .jobs, .lateXfers, .drains, .links, .relays, .freeCount] ⊆ ps)
    (h : Moves as ps s0 s) : ResMoves as ps s0 (execStepEnd p k s) := by
  unfold execStepEnd
  repeat' first
    | with_reducible assumption
    | with_reducible apply Moves.refl
    | with_reducible apply Press.ok_init
    | (with_reducible apply State.inv_press; assumption)
    | with_reducible apply Press.Ok.pops
    | with_reducible apply Press.Ok.loseCarry
    | with_reducible apply Press.Ok.signal
    | with_reducible apply Press.Ok.waitTok
    | (with_reducible apply State.inv_caseMem; assumption)
    | with_reducible apply Press.Ok.pop
    | with_reducible apply Press.Ok.writeCase
    | with_reducible apply Press.Ok.enqueueRing
    | with_reducible apply Press.Ok.settle
    | with_reducible apply Press.Ok.ite
    | with_reducible apply Press.Ok.of_wf
    | with_reducible apply State.dispatch_moves
    | with_reducible apply State.setPState_moves
    | with_reducible apply Moves.wr
    | with_reducible apply Moves.wrap
    | with_reducible apply Moves.setPress
    | with_reducible exact prsAll.nil
    | with_reducible apply Moves.ite
    | with_reducible apply ResMoves.next
    | with_reducible apply ResMoves.fault
    | with_reducible apply ResMoves.refused
    | with_reducible apply ResMoves.ite
    | (with_reducible apply Moves.inSub ha; decide)
    | (with_reducible apply Moves.inSub hq; decide)
    | with_reducible apply Moves.foldl
    | with_reducible intro _
    | (with_reducible apply List.Subset.trans ?_ ha; decide)
    | (with_reducible apply List.Subset.trans ?_ hq; decide)
    | split
    | dsimp only
    | with_reducible apply Press.Ok.wf

theorem execSrk_moves (p : Nat) (k : Sys2Proof.Tok) (key : Nat) (a : Sys2Proof.SrKey) (s : State)
    (ha : [.imp, .forme, .cmp, .col, .prs] ⊆ as)
    (hq : [.presses, .jobs, .lateXfers, .drains, .links, .relays, .freeCount] ⊆ ps)
    (h : Moves as ps s0 s) : ResMoves as ps s0 (execSrk p k key a s) := by
  unfold execSrk
  repeat' first
    | with_reducible assumption
    | with_reducible apply Moves.refl
    | with_reducible apply Press.ok_init
    | (with_reducible apply State.inv_press; assumption)
    | with_reducible apply Press.Ok.pops
    | with_reducible apply Press.Ok.loseCarry
    | with_reducible apply Press.Ok.signal
    | with_reducible apply Press.Ok.waitTok
    | (with_reducible apply State.inv_caseMem; assumption)
    | with_reducible apply Press.Ok.pop
    | with_reducible apply Press.Ok.writeCase
    | with_reducible apply Press.Ok.enqueueRing
    | with_reducible apply Press.Ok.settle
    | with_reducible apply Press.Ok.ite
    | with_reducible apply Press.Ok.of_wf
    | with_reducible apply State.dispatch_moves
    | with_reducible apply Moves.setPress
    | with_reducible exact prsAll.nil
    | with_reducible apply Moves.ite
    | with_reducible apply ResMoves.next
    | with_reducible apply ResMoves.fault
    | with_reducible apply ResMoves.refused
    | with_reducible apply ResMoves.ite
    | (with_reducible apply Moves.inSub ha; decide)
    | (with_reducible apply Moves.inSub hq; decide)
    | with_reducible apply Moves.foldl
    | with_reducible intro _
    | (with_reducible apply List.Subset.trans ?_ ha; decide)
    | (with_reducible apply List.Subset.trans ?_ hq; decide)
    | split
    | dsimp only
    | with_reducible apply Press.Ok.wf

theorem execLoop_moves (p : Nat) (k : Sys2Proof.Tok) (level : Nat) (countM1 : Nat) (bodyM1 : Nat) (s : State)
    (ha : [.imp, .forme, .cmp, .col, .prs] ⊆ as)
    (hq : [.presses, .jobs, .lateXfers, .drains, .links, .relays, .freeCount] ⊆ ps)
    (h : Moves as ps s0 s) : ResMoves as ps s0 (execLoop p k level countM1 bodyM1 s) := by
  unfold execLoop
  repeat' first
    | with_reducible assumption
    | with_reducible apply Moves.refl
    | with_reducible apply Press.ok_init
    | (with_reducible apply State.inv_press; assumption)
    | with_reducible apply Press.Ok.pops
    | with_reducible apply Press.Ok.loseCarry
    | with_reducible apply Press.Ok.signal
    | with_reducible apply Press.Ok.waitTok
    | (with_reducible apply State.inv_caseMem; assumption)
    | with_reducible apply Press.Ok.pop
    | with_reducible apply Press.Ok.writeCase
    | with_reducible apply Press.Ok.enqueueRing
    | with_reducible apply Press.Ok.settle
    | with_reducible apply Press.Ok.ite
    | with_reducible apply Press.Ok.of_wf
    | with_reducible apply State.dispatch_moves
    | with_reducible apply Moves.setPress
    | with_reducible exact prsAll.nil
    | with_reducible apply Moves.ite
    | with_reducible apply ResMoves.next
    | with_reducible apply ResMoves.fault
    | with_reducible apply ResMoves.refused
    | with_reducible apply ResMoves.ite
    | (with_reducible apply Moves.inSub ha; decide)
    | (with_reducible apply Moves.inSub hq; decide)
    | with_reducible apply Moves.foldl
    | with_reducible intro _
    | (with_reducible apply List.Subset.trans ?_ ha; decide)
    | (with_reducible apply List.Subset.trans ?_ hq; decide)
    | split
    | dsimp only
    | with_reducible apply Press.Ok.wf

theorem execBsig_moves (p : Nat) (k : Sys2Proof.Tok) (barrier : Nat) (s : State)
    (ha : [.imp, .forme, .cmp, .col, .prs] ⊆ as)
    (hq : [.presses, .jobs, .lateXfers, .drains, .arrivals, .barSent, .tokens, .links, .relays, .freeCount] ⊆ ps)
    (h : Moves as ps s0 s) : ResMoves as ps s0 (execBsig p k barrier s) := by
  unfold execBsig
  repeat' first
    | with_reducible assumption
    | with_reducible apply Moves.refl
    | with_reducible apply Press.ok_init
    | (with_reducible apply State.inv_press; assumption)
    | with_reducible apply Press.Ok.pops
    | with_reducible apply Press.Ok.loseCarry
    | with_reducible apply Press.Ok.signal
    | with_reducible apply Press.Ok.waitTok
    | (with_reducible apply State.inv_caseMem; assumption)
    | with_reducible apply Press.Ok.pop
    | with_reducible apply Press.Ok.writeCase
    | with_reducible apply Press.Ok.enqueueRing
    | with_reducible apply Press.Ok.settle
    | with_reducible apply Press.Ok.ite
    | with_reducible apply Press.Ok.of_wf
    | with_reducible apply State.dispatch_moves
    | with_reducible apply State.barrierArrive_moves
    | with_reducible apply Moves.setPress
    | with_reducible exact prsAll.nil
    | with_reducible apply Moves.ite
    | with_reducible apply ResMoves.next
    | with_reducible apply ResMoves.fault
    | with_reducible apply ResMoves.refused
    | with_reducible apply ResMoves.ite
    | (with_reducible apply Moves.inSub ha; decide)
    | (with_reducible apply Moves.inSub hq; decide)
    | with_reducible apply Moves.foldl
    | with_reducible intro _
    | (with_reducible apply List.Subset.trans ?_ ha; decide)
    | (with_reducible apply List.Subset.trans ?_ hq; decide)
    | split
    | dsimp only
    | with_reducible apply Press.Ok.wf

end Sys2Proof.Machine
end

