-- ==== Sys2Proof/Laws/MovesArray.lean ====
section
/-!
SUPPORT. Footprints of the operations of Machine/Array.lean.
-/

namespace Sys2Proof.Machine

variable {as : List Area} {ps : List Part} {s0 : State}

theorem prsAll.wload (x : Press) :
    prsAll (.prsStallCountsCaseConflict :: if x.unswapped then [.prsStallCountsShadowWait] else []) := by
  split <;> (unfold prsAll; decide)

theorem prsAll.case : prsAll [.prsStallCountsCaseConflict] := by unfold prsAll; decide

theorem prsAll.pass (x : Press) (f : PassF) : prsAll (passWaits x f) := by
  unfold passWaits
  split <;> split <;> (unfold prsAll; decide)

theorem prsAll.drain (x : Press) (f : DrainF) : prsAll (drainWaits x f) := by
  unfold drainWaits
  split <;> (unfold prsAll; decide)

/-- What an array instruction does in flight is no part of the press's memory. -/
theorem Press.Ok.running {x : Press} (h : x.Ok) (r : ArrRun) : (x.running r).Ok := h

theorem execBias_moves (p : Nat) (k : Sys2Proof.Tok) (bfmt : Nat) (bad : Nat) (ce : List Nat) (s : State)
    (ha : [.imp, .forme, .prf, .cmp, .col, .prs, .case] ⊆ as)
    (hq : [.presses, .jobs, .lateXfers, .drains, .links, .repairMap, .ceLog, .relays, .freeCount] ⊆ ps)
    (h : Moves as ps s0 s) : ResMoves as ps s0 (execBias p k bfmt bad ce s) := by
  unfold execBias
  repeat' first
    | with_reducible assumption
    | with_reducible apply Moves.refl
    | with_reducible apply Press.ok_init
    | (with_reducible apply State.inv_press; assumption)
    | with_reducible apply Press.Ok.pops
    | with_reducible apply Press.Ok.loseCarry
    | with_reducible apply Press.Ok.signal
    | with_reducible apply Press.Ok.waitTok
    | (with_reducible apply State.inv_caseMem; assumption)
    | with_reducible apply Press.Ok.pop
    | with_reducible apply Press.Ok.writeCase
    | with_reducible apply Press.Ok.enqueueRing
    | with_reducible apply Press.Ok.settle
    | with_reducible apply Press.Ok.ite
    | with_reducible apply Press.Ok.of_wf
    | with_reducible apply State.dispatch_moves
    | with_reducible apply State.caseCes_moves
    | with_reducible apply Moves.setPress
    | with_reducible exact prsAll.nil
    | with_reducible exact prsAll.case
    | with_reducible exact prsAll.pass _ _
    | with_reducible exact prsAll.wload _
    | with_reducible exact prsAll.drain _
    | with_reducible apply Moves.ite
    | with_reducible apply ResMoves.next
    | with_reducible apply ResMoves.fault
    | with_reducible apply ResMoves.refused
    | with_reducible apply ResMoves.ite
    | (with_reducible apply Moves.inSub ha; decide)
    | (with_reducible apply Moves.inSub hq; decide)
    | with_reducible apply Moves.foldl
    | with_reducible intro _
    | (with_reducible apply List.Subset.trans ?_ ha; decide)
    | (with_reducible apply List.Subset.trans ?_ hq; decide)
    | split
    | dsimp only
    | with_reducible apply Press.Ok.wf

theorem execWload_moves (p : Nat) (k : Sys2Proof.Tok) (w : Sys2Proof.WloadF) (ce : List Nat) (s : State)
    (ha : [.imp, .forme, .prf, .cmp, .col, .prs, .case] ⊆ as)
    (hq : [.presses, .jobs, .lateXfers, .drains, .links, .repairMap, .ceLog, .relays, .freeCount] ⊆ ps)
    (h : Moves as ps s0 s) : ResMoves as ps s0 (execWload p k w ce s) := by
  unfold execWload
  repeat' first
    | with_reducible assumption
    | with_reducible apply Moves.refl
    | with_reducible apply Press.ok_init
    | (with_reducible apply State.inv_press; assumption)
    | with_reducible apply Press.Ok.pops
    | with_reducible apply Press.Ok.loseCarry
    | with_reducible apply Press.Ok.signal
    | with_reducible apply Press.Ok.waitTok
    | (with_reducible apply State.inv_caseMem; assumption)
    | with_reducible apply Press.Ok.pop
    | with_reducible apply Press.Ok.writeCase
    | with_reducible apply Press.Ok.enqueueRing
    | with_reducible apply Press.Ok.settle
    | with_reducible apply Press.Ok.ite
    | with_reducible apply Press.Ok.of_wf
    | with_reducible apply State.dispatch_moves
    | with_reducible apply State.caseCes_moves
    | with_reducible apply Moves.setPress
    | with_reducible exact prsAll.nil
    | with_reducible exact prsAll.case
    | with_reducible exact prsAll.pass _ _
    | with_reducible exact prsAll.wload _
    | with_reducible exact prsAll.drain _
    | with_reducible apply Moves.ite
    | with_reducible apply ResMoves.next
    | with_reducible apply ResMoves.fault
    | with_reducible apply ResMoves.refused
    | with_reducible apply ResMoves.ite
    | (with_reducible apply Moves.inSub ha; decide)
    | (with_reducible apply Moves.inSub hq; decide)
    | with_reducible apply Moves.foldl
    | with_reducible intro _
    | (with_reducible apply List.Subset.trans ?_ ha; decide)
    | (with_reducible apply List.Subset.trans ?_ hq; decide)
    | split
    | dsimp only
    | with_reducible apply Press.Ok.wf

theorem execDrain_moves (p : Nat) (k : Sys2Proof.Tok) (f : Sys2Proof.DrainF) (s : State)
    (ha : [.imp, .forme, .cmp, .col, .prs, .fin] ⊆ as)
    (hq : [.presses, .jobs, .lateXfers, .drains, .links, .relays, .freeCount] ⊆ ps)
    (h : Moves as ps s0 s) : ResMoves as ps s0 (execDrain p k f s) := by
  unfold execDrain
  refine State.dispatch_moves _ _ _ _ _ _ _ _ _ _ (List.Subset.trans (by decide) ha)
    (List.Subset.trans (by decide) hq) (prsAll.drain _ _) (fun u hu => ?_) h
  exact State.drainRows_moves _ _ _ _ (List.Subset.trans (by decide) ha) (List.Subset.trans (by decide) hq)
    (Moves.setPress _ _ (fun hi => Press.Ok.running (State.inv_press u p hi) _) (hq (by decide)) hu)

theorem State.stripFails_moves (s : State) (p : Nat) (strip : Nat) (t : Nat) (parity : Bool)
    (ha : [.imp, .forme, .prf, .events, .cmp, .col, .prs] ⊆ as)
    (hq : [.presses, .jobs, .lateXfers, .drains, .links, .relays, .freeCount] ⊆ ps)
    (h : Moves as ps s0 s) : Moves as ps s0 (State.stripFails s p strip t parity) := by
  unfold State.stripFails
  repeat' first
    | with_reducible assumption
    | with_reducible apply Moves.refl
    | with_reducible apply State.abandonPress_moves
    | with_reducible apply Moves.wr
    | with_reducible apply Moves.bump
    | with_reducible apply Moves.orBit
    | with_reducible apply Moves.ite
    | (with_reducible apply Moves.inSub ha; decide)
    | (with_reducible apply Moves.inSub hq; decide)
    | with_reducible apply Moves.foldl
    | with_reducible intro _
    | (with_reducible apply List.Subset.trans ?_ ha; decide)
    | (with_reducible apply List.Subset.trans ?_ hq; decide)
    | split
    | dsimp only

theorem execPass_moves (p : Nat) (k : Sys2Proof.Tok) (f : Sys2Proof.PassF) (parity : Option Nat) (ce : List Nat) (s : State)
    (ha : [.imp, .forme, .prf, .events, .cmp, .col, .prs, .fin, .case] ⊆ as)
    (hq : [.presses, .jobs, .lateXfers, .drains, .links, .repairMap, .ceLog, .relays, .freeCount] ⊆ ps)
    (h : Moves as ps s0 s) : ResMoves as ps s0 (execPass p k f parity ce s) := by
  unfold execPass
  refine State.dispatch_moves _ _ _ _ _ _ _ _ _ _ (List.Subset.trans (by decide) ha)
    (List.Subset.trans (by decide) hq) (prsAll.pass _ _) (fun u hu => ?_) h
  dsimp only
  have key : ∀ (w : State) (y : Press) (fl : NumFlags) (accs : List (List Nat)), Moves as ps s0 w →
      (w.inv = true → y.Ok) →
      Moves as ps s0 (if f.foot = 1 then (w.setPress p y).finFlags p fl
        else ((w.setPress p y).finFlags p fl).drainRows p f.out accs) := by
    intro w y fl accs hw hy
    have h1 : Moves as ps s0 ((w.setPress p y).finFlags p fl) :=
      State.finFlags_moves _ _ _ (List.Subset.trans (by decide) ha)
        (Moves.setPress _ _ hy (hq (by decide)) hw)
    exact Moves.ite (fun _ => h1) (fun _ => State.drainRows_moves _ _ _ _
      (List.Subset.trans (by decide) ha) (List.Subset.trans (by decide) hq) h1)
  have key2 : Moves as ps s0 _ := key
    (if (((u.press p).running (u.passRun p f)).passTile f.swap).undefBelow f.strips = true then
      { u with freeCount := u.freeCount + 1 } else u)
    { (u.press p).running (u.passRun p f) with
      gated := false, live := ((u.press p).running (u.passRun p f)).passTile f.swap,
      shadow := if f.swap then ((u.press p).running (u.passRun p f)).shadow.drop 1 else ((u.press p).running (u.passRun p f)).shadow,
      carry := if f.foot = 0 then ((u.press p).running (u.passRun p f)).carry
        else putCarry ((u.press p).running (u.passRun p f)).carry 0
          ((passRows ((u.press p).running (u.passRun p f)) (((u.press p).running (u.passRun p f)).passTile f.swap) u.freeCount f).map Prod.fst) }
    (NumFlags.orAll ((passRows ((u.press p).running (u.passRun p f)) (((u.press p).running (u.passRun p f)).passTile f.swap) u.freeCount f).map Prod.snd))
    ((passRows ((u.press p).running (u.passRun p f)) (((u.press p).running (u.passRun p f)).passTile f.swap) u.freeCount f).map Prod.fst)
    (Moves.ite (fun _ => Moves.set_freeCount _ (hq (by decide)) hu) (fun _ => hu))
    (fun hi => by
      refine Press.Ok.running (State.inv_press u p ?_) (u.passRun p f)
      split at hi
      · exact hi
      · exact hi)
  have key3 := State.caseCes_moves _ p ce (List.Subset.trans (by decide) ha) (List.Subset.trans (by decide) hq) key2
  cases parity with
  | none => exact key3
  | some strip =>
    exact State.stripFails_moves _ _ _ _ _ (List.Subset.trans (by decide) ha)
      (List.Subset.trans (by decide) hq) key3

end Sys2Proof.Machine
end

