-- ==== Sys2Proof/Laws/MovesFinisher.lean ====
section
/-!
SUPPORT. Footprints of the operations of Machine/Finisher.lean.
-/

namespace Sys2Proof.Machine

variable {as : List Area} {ps : List Part} {s0 : State}

theorem prsAll.finCase : prsAll finCaseWaits := by unfold prsAll; decide

theorem execFmsk_moves (p : Nat) (k : Sys2Proof.Tok) (f : Sys2Proof.FinF) (s : State)
    (ha : [.imp, .forme, .cmp, .col, .prs, .fin] ⊆ as)
    (hq : [.presses, .jobs, .lateXfers, .drains, .links, .relays, .freeCount] ⊆ ps)
    (h : Moves as ps s0 s) : ResMoves as ps s0 (execFmsk p k f s) := by
  unfold execFmsk
  repeat' first
    | with_reducible assumption
    | with_reducible apply Moves.refl
    | with_reducible apply State.dispatch_moves
    | with_reducible apply State.maskWrite_moves
    | with_reducible exact prsAll.busy
    | with_reducible exact prsAll.finCase
    | with_reducible apply Moves.ite
    | with_reducible apply ResMoves.next
    | with_reducible apply ResMoves.fault
    | with_reducible apply ResMoves.refused
    | with_reducible apply ResMoves.ite
    | (with_reducible apply Moves.inSub ha; decide)
    | (with_reducible apply Moves.inSub hq; decide)
    | with_reducible apply Moves.foldl
    | with_reducible intro _
    | (with_reducible apply List.Subset.trans ?_ ha; decide)
    | (with_reducible apply List.Subset.trans ?_ hq; decide)
    | split
    | dsimp only

theorem execFmax_moves (p : Nat) (k : Sys2Proof.Tok) (f : Sys2Proof.FinF) (s : State)
    (ha : [.imp, .forme, .cmp, .col, .prs, .fin] ⊆ as)
    (hq : [.presses, .jobs, .lateXfers, .drains, .links, .relays, .freeCount] ⊆ ps)
    (h : Moves as ps s0 s) : ResMoves as ps s0 (execFmax p k f s) := by
  unfold execFmax
  repeat' first
    | with_reducible assumption
    | with_reducible apply Moves.refl
    | with_reducible apply State.finOp_moves
    | with_reducible apply Moves.ite
    | with_reducible apply ResMoves.next
    | with_reducible apply ResMoves.fault
    | with_reducible apply ResMoves.refused
    | with_reducible apply ResMoves.ite
    | (with_reducible apply Moves.inSub ha; decide)
    | (with_reducible apply Moves.inSub hq; decide)
    | with_reducible apply Moves.foldl
    | with_reducible intro _
    | (with_reducible apply List.Subset.trans ?_ ha; decide)
    | (with_reducible apply List.Subset.trans ?_ hq; decide)
    | split
    | dsimp only

theorem State.finReduce_moves (s : State) (p : Nat) (k : Sys2Proof.Tok) (o : Sys2Proof.FinOp) (f : Sys2Proof.FinF) (ident : Nat) (op : FVal → FVal → FVal)
    (ha : [.imp, .forme, .cmp, .col, .prs, .fin] ⊆ as)
    (hq : [.presses, .jobs, .lateXfers, .drains, .links, .relays, .freeCount] ⊆ ps)
    (h : Moves as ps s0 s) : ResMoves as ps s0 (State.finReduce s p k o f ident op) := by
  unfold State.finReduce
  repeat' first
    | with_reducible assumption
    | with_reducible apply Moves.refl
    | with_reducible apply State.dispatch_moves
    | with_reducible apply State.reduce_moves
    | with_reducible exact prsAll.busy
    | with_reducible exact prsAll.finCase
    | with_reducible apply Moves.ite
    | with_reducible apply ResMoves.next
    | with_reducible apply ResMoves.fault
    | with_reducible apply ResMoves.refused
    | with_reducible apply ResMoves.ite
    | (with_reducible apply Moves.inSub ha; decide)
    | (with_reducible apply Moves.inSub hq; decide)
    | with_reducible apply Moves.foldl
    | with_reducible intro _
    | (with_reducible apply List.Subset.trans ?_ ha; decide)
    | (with_reducible apply List.Subset.trans ?_ hq; decide)
    | split
    | dsimp only

theorem execFrsum_moves (p : Nat) (k : Sys2Proof.Tok) (f : Sys2Proof.FinF) (s : State)
    (ha : [.imp, .forme, .cmp, .col, .prs, .fin] ⊆ as)
    (hq : [.presses, .jobs, .lateXfers, .drains, .links, .relays, .freeCount] ⊆ ps)
    (h : Moves as ps s0 s) : ResMoves as ps s0 (execFrsum p k f s) := by
  unfold execFrsum
  repeat' first
    | with_reducible assumption
    | with_reducible apply Moves.refl
    | with_reducible apply State.finReduce_moves
    | with_reducible apply Moves.ite
    | with_reducible apply ResMoves.next
    | with_reducible apply ResMoves.fault
    | with_reducible apply ResMoves.refused
    | with_reducible apply ResMoves.ite
    | (with_reducible apply Moves.inSub ha; decide)
    | (with_reducible apply Moves.inSub hq; decide)
    | with_reducible apply Moves.foldl
    | with_reducible intro _
    | (with_reducible apply List.Subset.trans ?_ ha; decide)
    | (with_reducible apply List.Subset.trans ?_ hq; decide)
    | split
    | dsimp only

theorem execFexp_moves (p : Nat) (k : Sys2Proof.Tok) (f : Sys2Proof.FinF) (s : State)
    (ha : [.imp, .forme, .cmp, .col, .prs, .fin] ⊆ as)
    (hq : [.presses, .jobs, .lateXfers, .drains, .links, .relays, .freeCount] ⊆ ps)
    (h : Moves as ps s0 s) : ResMoves as ps s0 (execFexp p k f s) := by
  unfold execFexp
  repeat' first
    | with_reducible assumption
    | with_reducible apply Moves.refl
    | with_reducible apply State.finOp_moves
    | with_reducible apply Moves.ite
    | with_reducible apply ResMoves.next
    | with_reducible apply ResMoves.fault
    | with_reducible apply ResMoves.refused
    | with_reducible apply ResMoves.ite
    | (with_reducible apply Moves.inSub ha; decide)
    | (with_reducible apply Moves.inSub hq; decide)
    | with_reducible apply Moves.foldl
    | with_reducible intro _
    | (with_reducible apply List.Subset.trans ?_ ha; decide)
    | (with_reducible apply List.Subset.trans ?_ hq; decide)
    | split
    | dsimp only

theorem execFlog_moves (p : Nat) (k : Sys2Proof.Tok) (f : Sys2Proof.FinF) (s : State)
    (ha : [.imp, .forme, .cmp, .col, .prs, .fin] ⊆ as)
    (hq : [.presses, .jobs, .lateXfers, .drains, .links, .relays, .freeCount] ⊆ ps)
    (h : Moves as ps s0 s) : ResMoves as ps s0 (execFlog p k f s) := by
  unfold execFlog
  repeat' first
    | with_reducible assumption
    | with_reducible apply Moves.refl
    | with_reducible apply State.finOp_moves
    | with_reducible apply Moves.ite
    | with_reducible apply ResMoves.next
    | with_reducible apply ResMoves.fault
    | with_reducible apply ResMoves.refused
    | with_reducible apply ResMoves.ite
    | (with_reducible apply Moves.inSub ha; decide)
    | (with_reducible apply Moves.inSub hq; decide)
    | with_reducible apply Moves.foldl
    | with_reducible intro _
    | (with_reducible apply List.Subset.trans ?_ ha; decide)
    | (with_reducible apply List.Subset.trans ?_ hq; decide)
    | split
    | dsimp only

theorem execFadd_moves (p : Nat) (k : Sys2Proof.Tok) (f : Sys2Proof.FinF) (s : State)
    (ha : [.imp, .forme, .cmp, .col, .prs, .fin] ⊆ as)
    (hq : [.presses, .jobs, .lateXfers, .drains, .links, .relays, .freeCount] ⊆ ps)
    (h : Moves as ps s0 s) : ResMoves as ps s0 (execFadd p k f s) := by
  unfold execFadd
  repeat' first
    | with_reducible assumption
    | with_reducible apply Moves.refl
    | with_reducible apply State.finOp_moves
    | with_reducible apply Moves.ite
    | with_reducible apply ResMoves.next
    | with_reducible apply ResMoves.fault
    | with_reducible apply ResMoves.refused
    | with_reducible apply ResMoves.ite
    | (with_reducible apply Moves.inSub ha; decide)
    | (with_reducible apply Moves.inSub hq; decide)
    | with_reducible apply Moves.foldl
    | with_reducible intro _
    | (with_reducible apply List.Subset.trans ?_ ha; decide)
    | (with_reducible apply List.Subset.trans ?_ hq; decide)
    | split
    | dsimp only

theorem execFcmp_moves (p : Nat) (k : Sys2Proof.Tok) (f : Sys2Proof.FinF) (s : State)
    (ha : [.imp, .forme, .cmp, .col, .prs, .fin] ⊆ as)
    (hq : [.presses, .jobs, .lateXfers, .drains, .links, .relays, .freeCount] ⊆ ps)
    (h : Moves as ps s0 s) : ResMoves as ps s0 (execFcmp p k f s) := by
  unfold execFcmp
  repeat' first
    | with_reducible assumption
    | with_reducible apply Moves.refl
    | with_reducible apply State.dispatch_moves
    | with_reducible apply State.maskWrite_moves
    | with_reducible exact prsAll.busy
    | with_reducible exact prsAll.finCase
    | with_reducible apply Moves.ite
    | with_reducible apply ResMoves.next
    | with_reducible apply ResMoves.fault
    | with_reducible apply ResMoves.refused
    | with_reducible apply ResMoves.ite
    | (with_reducible apply Moves.inSub ha; decide)
    | (with_reducible apply Moves.inSub hq; decide)
    | with_reducible apply Moves.foldl
    | with_reducible intro _
    | (with_reducible apply List.Subset.trans ?_ ha; decide)
    | (with_reducible apply List.Subset.trans ?_ hq; decide)
    | split
    | dsimp only

theorem execFsub_moves (p : Nat) (k : Sys2Proof.Tok) (f : Sys2Proof.FinF) (s : State)
    (ha : [.imp, .forme, .cmp, .col, .prs, .fin] ⊆ as)
    (hq : [.presses, .jobs, .lateXfers, .drains, .links, .relays, .freeCount] ⊆ ps)
    (h : Moves as ps s0 s) : ResMoves as ps s0 (execFsub p k f s) := by
  unfold execFsub
  repeat' first
    | with_reducible assumption
    | with_reducible apply Moves.refl
    | with_reducible apply State.finOp_moves
    | with_reducible apply Moves.ite
    | with_reducible apply ResMoves.next
    | with_reducible apply ResMoves.fault
    | with_reducible apply ResMoves.refused
    | with_reducible apply ResMoves.ite
    | (with_reducible apply Moves.inSub ha; decide)
    | (with_reducible apply Moves.inSub hq; decide)
    | with_reducible apply Moves.foldl
    | with_reducible intro _
    | (with_reducible apply List.Subset.trans ?_ ha; decide)
    | (with_reducible apply List.Subset.trans ?_ hq; decide)
    | split
    | dsimp only

theorem execFld_moves (p : Nat) (k : Sys2Proof.Tok) (f : Sys2Proof.FinF) (ce : List Nat) (s : State)
    (ha : [.imp, .forme, .prf, .cmp, .col, .prs, .fin, .case] ⊆ as)
    (hq : [.presses, .jobs, .lateXfers, .drains, .links, .repairMap, .ceLog, .relays, .freeCount] ⊆ ps)
    (h : Moves as ps s0 s) : ResMoves as ps s0 (execFld p k f ce s) := by
  unfold execFld
  repeat' first
    | with_reducible assumption
    | with_reducible apply Moves.refl
    | with_reducible apply Press.ok_init
    | (with_reducible apply State.inv_press; assumption)
    | with_reducible apply Press.Ok.pops
    | with_reducible apply Press.Ok.loseCarry
    | with_reducible apply Press.Ok.signal
    | with_reducible apply Press.Ok.waitTok
    | (with_reducible apply State.inv_caseMem; assumption)
    | with_reducible apply Press.Ok.pop
    | with_reducible apply Press.Ok.writeCase
    | with_reducible apply Press.Ok.enqueueRing
    | with_reducible apply Press.Ok.settle
    | with_reducible apply Press.Ok.ite
    | with_reducible apply Press.Ok.of_wf
    | with_reducible apply State.dispatch_moves
    | with_reducible apply State.finFlags_moves
    | with_reducible apply State.caseCes_moves
    | with_reducible apply Moves.setPress
    | with_reducible exact prsAll.busy
    | with_reducible exact prsAll.finCase
    | with_reducible apply Moves.ite
    | with_reducible apply ResMoves.next
    | with_reducible apply ResMoves.fault
    | with_reducible apply ResMoves.refused
    | with_reducible apply ResMoves.ite
    | (with_reducible apply Moves.inSub ha; decide)
    | (with_reducible apply Moves.inSub hq; decide)
    | with_reducible apply Moves.foldl
    | with_reducible intro _
    | (with_reducible apply List.Subset.trans ?_ ha; decide)
    | (with_reducible apply List.Subset.trans ?_ hq; decide)
    | split
    | dsimp only
    | with_reducible apply Press.Ok.wf

theorem execFrmax_moves (p : Nat) (k : Sys2Proof.Tok) (f : Sys2Proof.FinF) (s : State)
    (ha : [.imp, .forme, .cmp, .col, .prs, .fin] ⊆ as)
    (hq : [.presses, .jobs, .lateXfers, .drains, .links, .relays, .freeCount] ⊆ ps)
    (h : Moves as ps s0 s) : ResMoves as ps s0 (execFrmax p k f s) := by
  unfold execFrmax
  repeat' first
    | with_reducible assumption
    | with_reducible apply Moves.refl
    | with_reducible apply State.finReduce_moves
    | with_reducible apply Moves.ite
    | with_reducible apply ResMoves.next
    | with_reducible apply ResMoves.fault
    | with_reducible apply ResMoves.refused
    | with_reducible apply ResMoves.ite
    | (with_reducible apply Moves.inSub ha; decide)
    | (with_reducible apply Moves.inSub hq; decide)
    | with_reducible apply Moves.foldl
    | with_reducible intro _
    | (with_reducible apply List.Subset.trans ?_ ha; decide)
    | (with_reducible apply List.Subset.trans ?_ hq; decide)
    | split
    | dsimp only

theorem execFfma_moves (p : Nat) (k : Sys2Proof.Tok) (f : Sys2Proof.FinF) (s : State)
    (ha : [.imp, .forme, .cmp, .col, .prs, .fin] ⊆ as)
    (hq : [.presses, .jobs, .lateXfers, .drains, .links, .relays, .freeCount] ⊆ ps)
    (h : Moves as ps s0 s) : ResMoves as ps s0 (execFfma p k f s) := by
  unfold execFfma
  repeat' first
    | with_reducible assumption
    | with_reducible apply Moves.refl
    | with_reducible apply State.finOp_moves
    | with_reducible apply Moves.ite
    | with_reducible apply ResMoves.next
    | with_reducible apply ResMoves.fault
    | with_reducible apply ResMoves.refused
    | with_reducible apply ResMoves.ite
    | (with_reducible apply Moves.inSub ha; decide)
    | (with_reducible apply Moves.inSub hq; decide)
    | with_reducible apply Moves.foldl
    | with_reducible intro _
    | (with_reducible apply List.Subset.trans ?_ ha; decide)
    | (with_reducible apply List.Subset.trans ?_ hq; decide)
    | split
    | dsimp only

theorem execFmul_moves (p : Nat) (k : Sys2Proof.Tok) (f : Sys2Proof.FinF) (s : State)
    (ha : [.imp, .forme, .cmp, .col, .prs, .fin] ⊆ as)
    (hq : [.presses, .jobs, .lateXfers, .drains, .links, .relays, .freeCount] ⊆ ps)
    (h : Moves as ps s0 s) : ResMoves as ps s0 (execFmul p k f s) := by
  unfold execFmul
  repeat' first
    | with_reducible assumption
    | with_reducible apply Moves.refl
    | with_reducible apply State.finOp_moves
    | with_reducible apply Moves.ite
    | with_reducible apply ResMoves.next
    | with_reducible apply ResMoves.fault
    | with_reducible apply ResMoves.refused
    | with_reducible apply ResMoves.ite
    | (with_reducible apply Moves.inSub ha; decide)
    | (with_reducible apply Moves.inSub hq; decide)
    | with_reducible apply Moves.foldl
    | with_reducible intro _
    | (with_reducible apply List.Subset.trans ?_ ha; decide)
    | (with_reducible apply List.Subset.trans ?_ hq; decide)
    | split
    | dsimp only

theorem execFrmin_moves (p : Nat) (k : Sys2Proof.Tok) (f : Sys2Proof.FinF) (s : State)
    (ha : [.imp, .forme, .cmp, .col, .prs, .fin] ⊆ as)
    (hq : [.presses, .jobs, .lateXfers, .drains, .links, .relays, .freeCount] ⊆ ps)
    (h : Moves as ps s0 s) : ResMoves as ps s0 (execFrmin p k f s) := by
  unfold execFrmin
  repeat' first
    | with_reducible assumption
    | with_reducible apply Moves.refl
    | with_reducible apply State.finReduce_moves
    | with_reducible apply Moves.ite
    | with_reducible apply ResMoves.next
    | with_reducible apply ResMoves.fault
    | with_reducible apply ResMoves.refused
    | with_reducible apply ResMoves.ite
    | (with_reducible apply Moves.inSub ha; decide)
    | (with_reducible apply Moves.inSub hq; decide)
    | with_reducible apply Moves.foldl
    | with_reducible intro _
    | (with_reducible apply List.Subset.trans ?_ ha; decide)
    | (with_reducible apply List.Subset.trans ?_ hq; decide)
    | split
    | dsimp only

theorem execFsel_moves (p : Nat) (k : Sys2Proof.Tok) (f : Sys2Proof.FinF) (s : State)
    (ha : [.imp, .forme, .cmp, .col, .prs, .fin] ⊆ as)
    (hq : [.presses, .jobs, .lateXfers, .drains, .links, .relays, .freeCount] ⊆ ps)
    (h : Moves as ps s0 s) : ResMoves as ps s0 (execFsel p k f s) := by
  unfold execFsel
  repeat' first
    | with_reducible assumption
    | with_reducible apply Moves.refl
    | with_reducible apply State.dispatch_moves
    | with_reducible apply State.finWrite_moves
    | with_reducible exact prsAll.busy
    | with_reducible exact prsAll.finCase
    | with_reducible apply Moves.ite
    | with_reducible apply ResMoves.next
    | with_reducible apply ResMoves.fault
    | with_reducible apply ResMoves.refused
    | with_reducible apply ResMoves.ite
    | (with_reducible apply Moves.inSub ha; decide)
    | (with_reducible apply Moves.inSub hq; decide)
    | with_reducible apply Moves.foldl
    | with_reducible intro _
    | (with_reducible apply List.Subset.trans ?_ ha; decide)
    | (with_reducible apply List.Subset.trans ?_ hq; decide)
    | split
    | dsimp only

theorem execFmov_moves (p : Nat) (k : Sys2Proof.Tok) (f : Sys2Proof.FinF) (s : State)
    (ha : [.imp, .forme, .cmp, .col, .prs, .fin] ⊆ as)
    (hq : [.presses, .jobs, .lateXfers, .drains, .links, .relays, .freeCount] ⊆ ps)
    (h : Moves as ps s0 s) : ResMoves as ps s0 (execFmov p k f s) := by
  unfold execFmov
  repeat' first
    | with_reducible assumption
    | with_reducible apply Moves.refl
    | with_reducible apply State.finOp_moves
    | with_reducible apply Moves.ite
    | with_reducible apply ResMoves.next
    | with_reducible apply ResMoves.fault
    | with_reducible apply ResMoves.refused
    | with_reducible apply ResMoves.ite
    | (with_reducible apply Moves.inSub ha; decide)
    | (with_reducible apply Moves.inSub hq; decide)
    | with_reducible apply Moves.foldl
    | with_reducible intro _
    | (with_reducible apply List.Subset.trans ?_ ha; decide)
    | (with_reducible apply List.Subset.trans ?_ hq; decide)
    | split
    | dsimp only

theorem execFrcp_moves (p : Nat) (k : Sys2Proof.Tok) (f : Sys2Proof.FinF) (s : State)
    (ha : [.imp, .forme, .cmp, .col, .prs, .fin] ⊆ as)
    (hq : [.presses, .jobs, .lateXfers, .drains, .links, .relays, .freeCount] ⊆ ps)
    (h : Moves as ps s0 s) : ResMoves as ps s0 (execFrcp p k f s) := by
  unfold execFrcp
  repeat' first
    | with_reducible assumption
    | with_reducible apply Moves.refl
    | with_reducible apply State.finOp_moves
    | with_reducible apply Moves.ite
    | with_reducible apply ResMoves.next
    | with_reducible apply ResMoves.fault
    | with_reducible apply ResMoves.refused
    | with_reducible apply ResMoves.ite
    | (with_reducible apply Moves.inSub ha; decide)
    | (with_reducible apply Moves.inSub hq; decide)
    | with_reducible apply Moves.foldl
    | with_reducible intro _
    | (with_reducible apply List.Subset.trans ?_ ha; decide)
    | (with_reducible apply List.Subset.trans ?_ hq; decide)
    | split
    | dsimp only

theorem execFmin_moves (p : Nat) (k : Sys2Proof.Tok) (f : Sys2Proof.FinF) (s : State)
    (ha : [.imp, .forme, .cmp, .col, .prs, .fin] ⊆ as)
    (hq : [.presses, .jobs, .lateXfers, .drains, .links, .relays, .freeCount] ⊆ ps)
    (h : Moves as ps s0 s) : ResMoves as ps s0 (execFmin p k f s) := by
  unfold execFmin
  repeat' first
    | with_reducible assumption
    | with_reducible apply Moves.refl
    | with_reducible apply State.finOp_moves
    | with_reducible apply Moves.ite
    | with_reducible apply ResMoves.next
    | with_reducible apply ResMoves.fault
    | with_reducible apply ResMoves.refused
    | with_reducible apply ResMoves.ite
    | (with_reducible apply Moves.inSub ha; decide)
    | (with_reducible apply Moves.inSub hq; decide)
    | with_reducible apply Moves.foldl
    | with_reducible intro _
    | (with_reducible apply List.Subset.trans ?_ ha; decide)
    | (with_reducible apply List.Subset.trans ?_ hq; decide)
    | split
    | dsimp only

theorem execFst_moves (p : Nat) (k : Sys2Proof.Tok) (f : Sys2Proof.FinF) (s : State)
    (ha : [.imp, .forme, .cmp, .col, .prs, .fin] ⊆ as)
    (hq : [.presses, .jobs, .lateXfers, .drains, .links, .relays, .freeCount] ⊆ ps)
    (h : Moves as ps s0 s) : ResMoves as ps s0 (execFst p k f s) := by
  unfold execFst
  repeat' first
    | with_reducible assumption
    | with_reducible apply Moves.refl
    | with_reducible apply Press.ok_init
    | (with_reducible apply State.inv_press; assumption)
    | with_reducible apply Press.Ok.pops
    | with_reducible apply Press.Ok.loseCarry
    | with_reducible apply Press.Ok.signal
    | with_reducible apply Press.Ok.waitTok
    | (with_reducible apply State.inv_caseMem; assumption)
    | with_reducible apply Press.Ok.pop
    | with_reducible apply Press.Ok.writeCase
    | with_reducible apply Press.Ok.enqueueRing
    | with_reducible apply Press.Ok.settle
    | with_reducible apply Press.Ok.ite
    | with_reducible apply Press.Ok.of_wf
    | with_reducible apply State.dispatch_moves
    | with_reducible apply State.finFlags_moves
    | with_reducible apply Moves.setPress
    | with_reducible exact prsAll.busy
    | with_reducible exact prsAll.finCase
    | with_reducible apply Moves.ite
    | with_reducible apply ResMoves.next
    | with_reducible apply ResMoves.fault
    | with_reducible apply ResMoves.refused
    | with_reducible apply ResMoves.ite
    | (with_reducible apply Moves.inSub ha; decide)
    | (with_reducible apply Moves.inSub hq; decide)
    | with_reducible apply Moves.foldl
    | with_reducible intro _
    | (with_reducible apply List.Subset.trans ?_ ha; decide)
    | (with_reducible apply List.Subset.trans ?_ hq; decide)
    | split
    | dsimp only
    | with_reducible apply Press.Ok.wf

theorem execCmov_moves (p : Nat) (k : Sys2Proof.Tok) (f : Sys2Proof.FinF) (ce : List Nat) (s : State)
    (ha : [.imp, .forme, .prf, .cmp, .col, .prs, .case] ⊆ as)
    (hq : [.presses, .jobs, .lateXfers, .drains, .links, .repairMap, .ceLog, .relays, .freeCount] ⊆ ps)
    (h : Moves as ps s0 s) : ResMoves as ps s0 (execCmov p k f ce s) := by
  unfold execCmov
  repeat' first
    | with_reducible assumption
    | with_reducible apply Moves.refl
    | with_reducible apply Press.ok_init
    | (with_reducible apply State.inv_press; assumption)
    | with_reducible apply Press.Ok.pops
    | with_reducible apply Press.Ok.loseCarry
    | with_reducible apply Press.Ok.signal
    | with_reducible apply Press.Ok.waitTok
    | (with_reducible apply State.inv_caseMem; assumption)
    | with_reducible apply Press.Ok.pop
    | with_reducible apply Press.Ok.writeCase
    | with_reducible apply Press.Ok.enqueueRing
    | with_reducible apply Press.Ok.settle
    | with_reducible apply Press.Ok.ite
    | with_reducible apply Press.Ok.of_wf
    | with_reducible apply State.dispatch_moves
    | with_reducible apply State.caseCes_moves
    | with_reducible apply Moves.setPress
    | with_reducible exact prsAll.busy
    | with_reducible exact prsAll.finCase
    | with_reducible apply Moves.ite
    | with_reducible apply ResMoves.next
    | with_reducible apply ResMoves.fault
    | with_reducible apply ResMoves.refused
    | with_reducible apply ResMoves.ite
    | (with_reducible apply Moves.inSub ha; decide)
    | (with_reducible apply Moves.inSub hq; decide)
    | with_reducible apply Moves.foldl
    | with_reducible intro _
    | (with_reducible apply List.Subset.trans ?_ ha; decide)
    | (with_reducible apply List.Subset.trans ?_ hq; decide)
    | split
    | dsimp only
    | with_reducible apply Press.Ok.wf

theorem execFrsq_moves (p : Nat) (k : Sys2Proof.Tok) (f : Sys2Proof.FinF) (s : State)
    (ha : [.imp, .forme, .cmp, .col, .prs, .fin] ⊆ as)
    (hq : [.presses, .jobs, .lateXfers, .drains, .links, .relays, .freeCount] ⊆ ps)
    (h : Moves as ps s0 s) : ResMoves as ps s0 (execFrsq p k f s) := by
  unfold execFrsq
  repeat' first
    | with_reducible assumption
    | with_reducible apply Moves.refl
    | with_reducible apply State.finOp_moves
    | with_reducible apply Moves.ite
    | with_reducible apply ResMoves.next
    | with_reducible apply ResMoves.fault
    | with_reducible apply ResMoves.refused
    | with_reducible apply ResMoves.ite
    | (with_reducible apply Moves.inSub ha; decide)
    | (with_reducible apply Moves.inSub hq; decide)
    | with_reducible apply Moves.foldl
    | with_reducible intro _
    | (with_reducible apply List.Subset.trans ?_ ha; decide)
    | (with_reducible apply List.Subset.trans ?_ hq; decide)
    | split
    | dsimp only

theorem execFcvt_moves (p : Nat) (k : Sys2Proof.Tok) (f : Sys2Proof.FinF) (s : State)
    (ha : [.imp, .forme, .cmp, .col, .prs, .fin] ⊆ as)
    (hq : [.presses, .jobs, .lateXfers, .drains, .links, .relays, .freeCount] ⊆ ps)
    (h : Moves as ps s0 s) : ResMoves as ps s0 (execFcvt p k f s) := by
  unfold execFcvt
  repeat' first
    | with_reducible assumption
    | with_reducible apply Moves.refl
    | with_reducible apply State.dispatch_moves
    | with_reducible apply State.finWrite_moves
    | with_reducible exact prsAll.busy
    | with_reducible exact prsAll.finCase
    | with_reducible apply Moves.ite
    | with_reducible apply ResMoves.next
    | with_reducible apply ResMoves.fault
    | with_reducible apply ResMoves.refused
    | with_reducible apply ResMoves.ite
    | (with_reducible apply Moves.inSub ha; decide)
    | (with_reducible apply Moves.inSub hq; decide)
    | with_reducible apply Moves.foldl
    | with_reducible intro _
    | (with_reducible apply List.Subset.trans ?_ ha; decide)
    | (with_reducible apply List.Subset.trans ?_ hq; decide)
    | split
    | dsimp only

end Sys2Proof.Machine
end

