-- ==== Sys2Proof/Laws/MovesTransfer.lean ====
section
/-!
SUPPORT. Footprints of the operations of Machine/Transfer.lean.
-/

namespace Sys2Proof.Machine

variable {as : List Area} {ps : List Part} {s0 : State}

theorem prsAll.bond : prsAll bondWaits := by unfold prsAll; decide

theorem State.endBond_moves (s : State) (p : Nat) (unit : Nat)
    (hq : [.mem, .presses, .drains, .dirtyOut] ⊆ ps)
    (h : Moves as ps s0 s) : Moves as ps s0 (State.endBond s p unit) := by
  unfold State.endBond
  repeat' first
    | with_reducible assumption
    | with_reducible apply Moves.refl
    | with_reducible apply State.finishXfer_moves
    | with_reducible apply Moves.ite
    | (with_reducible apply Moves.inSub hq; decide)
    | with_reducible apply Moves.foldl
    | with_reducible intro _
    | (with_reducible apply List.Subset.trans ?_ hq; decide)
    | split
    | dsimp only
    | with_reducible apply Moves.set_drains

theorem execCaseUncorrectable_moves (p : Nat) (word : Nat) (t : Nat) (s : State)
    (ha : [.tick, .imp, .forme, .prf, .cmp, .col, .prs, .case] ⊆ as)
    (hq : [.presses, .jobs, .lateXfers, .drains, .links, .repairMap, .relays, .freeCount] ⊆ ps)
    (h : Moves as ps s0 s) : ResMoves as ps s0 (execCaseUncorrectable p word t s) := by
  unfold execCaseUncorrectable
  repeat' first
    | with_reducible assumption
    | with_reducible apply Moves.refl
    | with_reducible apply State.stamp_moves
    | with_reducible apply State.suspect_moves
    | with_reducible apply State.setPState_moves
    | with_reducible apply State.abandonPress_moves
    | with_reducible apply Moves.wr
    | with_reducible apply Moves.ite
    | with_reducible apply ResMoves.next
    | with_reducible apply ResMoves.fault
    | with_reducible apply ResMoves.refused
    | with_reducible apply ResMoves.ite
    | (with_reducible apply Moves.inSub ha; decide)
    | (with_reducible apply Moves.inSub hq; decide)
    | with_reducible apply Moves.foldl
    | with_reducible intro _
    | (with_reducible apply List.Subset.trans ?_ ha; decide)
    | (with_reducible apply List.Subset.trans ?_ hq; decide)
    | split
    | dsimp only

theorem State.queueBond_moves (s : State) (p : Nat) (resv : Nat) (fill : Bool) (g : Nat) (l : Nat) (n : Nat)
    (hq : [.drains] ⊆ ps)
    (h : Moves as ps s0 s) : Moves as ps s0 (State.queueBond s p resv fill g l n) := by
  unfold State.queueBond
  repeat' first
    | with_reducible assumption
    | with_reducible apply Moves.refl
    | with_reducible apply Moves.ite
    | (with_reducible apply Moves.inSub hq; decide)
    | with_reducible apply Moves.foldl
    | with_reducible intro _
    | (with_reducible apply List.Subset.trans ?_ hq; decide)
    | split
    | dsimp only
    | with_reducible apply Moves.set_drains

theorem execGstore_moves (p : Nat) (k : Sys2Proof.Tok) (f : Sys2Proof.GalF) (ce : List Nat) (s : State)
    (ha : [.imp, .forme, .prf, .cmp, .col, .prs, .case] ⊆ as)
    (hq : [.presses, .jobs, .lateXfers, .drains, .links, .repairMap, .ceLog, .relays, .freeCount] ⊆ ps)
    (h : Moves as ps s0 s) : ResMoves as ps s0 (execGstore p k f ce s) := by
  unfold execGstore
  repeat' first
    | with_reducible assumption
    | with_reducible apply Moves.refl
    | with_reducible apply State.dispatch_moves
    | with_reducible apply State.caseCes_moves
    | with_reducible apply State.queueBond_moves
    | with_reducible exact prsAll.bond
    | with_reducible apply Moves.ite
    | with_reducible apply ResMoves.next
    | with_reducible apply ResMoves.fault
    | with_reducible apply ResMoves.refused
    | with_reducible apply ResMoves.ite
    | (with_reducible apply Moves.inSub ha; decide)
    | (with_reducible apply Moves.inSub hq; decide)
    | with_reducible apply Moves.foldl
    | with_reducible intro _
    | (with_reducible apply List.Subset.trans ?_ ha; decide)
    | (with_reducible apply List.Subset.trans ?_ hq; decide)
    | split
    | dsimp only

theorem execArrayGate_moves (p : Nat) (s : State)
    (hq : [.presses] ⊆ ps)
    (h : Moves as ps s0 s) : ResMoves as ps s0 (execArrayGate p s) := by
  unfold execArrayGate
  repeat' first
    | with_reducible assumption
    | with_reducible apply Moves.refl
    | with_reducible apply Press.ok_init
    | (with_reducible apply State.inv_press; assumption)
    | with_reducible apply Press.Ok.pops
    | with_reducible apply Press.Ok.loseCarry
    | with_reducible apply Press.Ok.signal
    | with_reducible apply Press.Ok.waitTok
    | (with_reducible apply State.inv_caseMem; assumption)
    | with_reducible apply Press.Ok.pop
    | with_reducible apply Press.Ok.writeCase
    | with_reducible apply Press.Ok.enqueueRing
    | with_reducible apply Press.Ok.settle
    | with_reducible apply Press.Ok.ite
    | with_reducible apply Press.Ok.of_wf
    | with_reducible apply Moves.setPress
    | with_reducible apply Moves.ite
    | with_reducible apply ResMoves.next
    | with_reducible apply ResMoves.fault
    | with_reducible apply ResMoves.refused
    | with_reducible apply ResMoves.ite
    | (with_reducible apply Moves.inSub hq; decide)
    | with_reducible apply Moves.foldl
    | with_reducible intro _
    | (with_reducible apply List.Subset.trans ?_ hq; decide)
    | split
    | dsimp only
    | with_reducible apply Press.Ok.wf

theorem execInstructionComplete_moves (p : Nat) (unit : Nat) (s : State)
    (hq : [.mem, .presses, .drains, .dirtyOut] ⊆ ps)
    (h : Moves as ps s0 s) : ResMoves as ps s0 (execInstructionComplete p unit s) := by
  unfold execInstructionComplete
  repeat' first
    | with_reducible assumption
    | with_reducible apply Moves.refl
    | with_reducible apply Press.ok_init
    | (with_reducible apply State.inv_press; assumption)
    | with_reducible apply Press.Ok.pops
    | with_reducible apply Press.Ok.loseCarry
    | with_reducible apply Press.Ok.signal
    | with_reducible apply Press.Ok.waitTok
    | (with_reducible apply State.inv_caseMem; assumption)
    | with_reducible apply Press.Ok.pop
    | with_reducible apply Press.Ok.writeCase
    | with_reducible apply Press.Ok.enqueueRing
    | with_reducible apply Press.Ok.settle
    | with_reducible apply Press.Ok.ite
    | with_reducible apply Press.Ok.of_wf
    | with_reducible apply State.endBond_moves
    | with_reducible apply Moves.setPress
    | with_reducible apply Moves.ite
    | with_reducible apply ResMoves.next
    | with_reducible apply ResMoves.fault
    | with_reducible apply ResMoves.refused
    | with_reducible apply ResMoves.ite
    | (with_reducible apply Moves.inSub hq; decide)
    | with_reducible apply Moves.foldl
    | with_reducible intro _
    | (with_reducible apply List.Subset.trans ?_ hq; decide)
    | split
    | dsimp only
    | with_reducible apply Press.Ok.wf

theorem execArrayResume_moves (p : Nat) (frozen : Nat) (s : State)
    (ha : [.prs] ⊆ as)
    (hq : [.presses] ⊆ ps)
    (h : Moves as ps s0 s) : ResMoves as ps s0 (execArrayResume p frozen s) := by
  unfold execArrayResume
  repeat' first
    | with_reducible assumption
    | with_reducible apply Moves.refl
    | with_reducible apply Press.ok_init
    | (with_reducible apply State.inv_press; assumption)
    | with_reducible apply Press.Ok.pops
    | with_reducible apply Press.Ok.loseCarry
    | with_reducible apply Press.Ok.signal
    | with_reducible apply Press.Ok.waitTok
    | (with_reducible apply State.inv_caseMem; assumption)
    | with_reducible apply Press.Ok.pop
    | with_reducible apply Press.Ok.writeCase
    | with_reducible apply Press.Ok.enqueueRing
    | with_reducible apply Press.Ok.settle
    | with_reducible apply Press.Ok.ite
    | with_reducible apply Press.Ok.of_wf
    | with_reducible apply Moves.bump
    | with_reducible apply Moves.setPress
    | with_reducible apply Moves.ite
    | with_reducible apply ResMoves.next
    | with_reducible apply ResMoves.fault
    | with_reducible apply ResMoves.refused
    | with_reducible apply ResMoves.ite
    | (with_reducible apply Moves.inSub ha; decide)
    | (with_reducible apply Moves.inSub hq; decide)
    | with_reducible apply Moves.foldl
    | with_reducible intro _
    | (with_reducible apply List.Subset.trans ?_ ha; decide)
    | (with_reducible apply List.Subset.trans ?_ hq; decide)
    | split
    | dsimp only
    | with_reducible apply Press.Ok.wf

theorem execGload_moves (p : Nat) (k : Sys2Proof.Tok) (f : Sys2Proof.GalF) (ce : List Nat) (s : State)
    (ha : [.imp, .forme, .prf, .gal, .cmp, .col, .prs] ⊆ as)
    (hq : [.presses, .jobs, .lateXfers, .drains, .links, .repairMap, .ceLog, .relays, .freeCount] ⊆ ps)
    (h : Moves as ps s0 s) : ResMoves as ps s0 (execGload p k f ce s) := by
  unfold execGload
  repeat' first
    | with_reducible assumption
    | with_reducible apply Moves.refl
    | with_reducible apply State.dispatch_moves
    | with_reducible apply State.galCes_moves
    | with_reducible apply State.queueBond_moves
    | with_reducible exact prsAll.bond
    | with_reducible apply Moves.ite
    | with_reducible apply ResMoves.next
    | with_reducible apply ResMoves.fault
    | with_reducible apply ResMoves.refused
    | with_reducible apply ResMoves.ite
    | (with_reducible apply Moves.inSub ha; decide)
    | (with_reducible apply Moves.inSub hq; decide)
    | with_reducible apply Moves.foldl
    | with_reducible intro _
    | (with_reducible apply List.Subset.trans ?_ ha; decide)
    | (with_reducible apply List.Subset.trans ?_ hq; decide)
    | split
    | dsimp only

theorem execCaseScrub_moves (p : Nat) (ce : List Nat) (s : State)
    (ha : [.prf, .prs, .case] ⊆ as)
    (hq : [.repairMap, .ceLog, .freeCount] ⊆ ps)
    (h : Moves as ps s0 s) : ResMoves as ps s0 (execCaseScrub p ce s) := by
  unfold execCaseScrub
  repeat' first
    | with_reducible assumption
    | with_reducible apply Moves.refl
    | with_reducible apply State.caseCes_moves
    | with_reducible apply Moves.wr
    | with_reducible apply Moves.ite
    | with_reducible apply ResMoves.next
    | with_reducible apply ResMoves.fault
    | with_reducible apply ResMoves.refused
    | with_reducible apply ResMoves.ite
    | (with_reducible apply Moves.inSub ha; decide)
    | (with_reducible apply Moves.inSub hq; decide)
    | with_reducible apply Moves.foldl
    | with_reducible intro _
    | (with_reducible apply List.Subset.trans ?_ ha; decide)
    | (with_reducible apply List.Subset.trans ?_ hq; decide)
    | split
    | dsimp only

theorem execIstoreError_moves (p : Nat) (half : Nat) (kind : Sys2Proof.IstoreErr) (t : Nat) (s : State)
    (ha : [.tick, .imp, .forme, .cmp, .col, .prs] ⊆ as)
    (hq : [.presses, .jobs, .lateXfers, .drains, .links, .relays, .freeCount] ⊆ ps)
    (h : Moves as ps s0 s) : ResMoves as ps s0 (execIstoreError p half kind t s) := by
  unfold execIstoreError
  repeat' first
    | with_reducible assumption
    | with_reducible apply Moves.refl
    | with_reducible apply State.stamp_moves
    | with_reducible apply State.setPState_moves
    | with_reducible apply State.abandonPress_moves
    | with_reducible apply Moves.wr
    | with_reducible apply Moves.bump
    | with_reducible apply Moves.ite
    | with_reducible apply ResMoves.next
    | with_reducible apply ResMoves.fault
    | with_reducible apply ResMoves.refused
    | with_reducible apply ResMoves.ite
    | (with_reducible apply Moves.inSub ha; decide)
    | (with_reducible apply Moves.inSub hq; decide)
    | with_reducible apply Moves.foldl
    | with_reducible intro _
    | (with_reducible apply List.Subset.trans ?_ ha; decide)
    | (with_reducible apply List.Subset.trans ?_ hq; decide)
    | split
    | dsimp only

end Sys2Proof.Machine
end

