-- ==== Sys2Proof/Laws/MovesGalley.lean ====
section
/-!
SUPPORT. Footprints of the operations of Machine/Galley.lean.
-/

namespace Sys2Proof.Machine

variable {as : List Area} {ps : List Part} {s0 : State}

theorem execGalleyScrub_moves (c : Nat) (bank : Nat) (ce : Option Nat) (s : State)
    (ha : [.prf, .gal] ⊆ as)
    (hq : [.repairMap, .ceLog, .freeCount] ⊆ ps)
    (h : Moves as ps s0 s) : ResMoves as ps s0 (execGalleyScrub c bank ce s) := by
  unfold execGalleyScrub
  repeat' first
    | with_reducible assumption
    | with_reducible apply Moves.refl
    | with_reducible apply State.galCe_moves
    | with_reducible apply Moves.wr
    | with_reducible apply Moves.ite
    | with_reducible apply ResMoves.next
    | with_reducible apply ResMoves.fault
    | with_reducible apply ResMoves.refused
    | with_reducible apply ResMoves.ite
    | (with_reducible apply Moves.inSub ha; decide)
    | (with_reducible apply Moves.inSub hq; decide)
    | with_reducible apply Moves.foldl
    | with_reducible intro _
    | (with_reducible apply List.Subset.trans ?_ ha; decide)
    | (with_reducible apply List.Subset.trans ?_ hq; decide)
    | split
    | dsimp only

theorem execLateTransfer_moves (c : Nat) (code : Nat) (order : Nat) (nextLine : Nat) (lastLine : Nat) (s : State)
    (ha : [.forme, .gal] ⊆ as)
    (hq : [.lateXfers] ⊆ ps)
    (h : Moves as ps s0 s) : ResMoves as ps s0 (execLateTransfer c code order nextLine lastLine s) := by
  unfold execLateTransfer
  repeat' first
    | with_reducible assumption
    | with_reducible apply Moves.refl
    | with_reducible apply Moves.wr
    | with_reducible apply Moves.ite
    | with_reducible apply ResMoves.next
    | with_reducible apply ResMoves.fault
    | with_reducible apply ResMoves.refused
    | with_reducible apply ResMoves.ite
    | (with_reducible apply Moves.inSub ha; decide)
    | (with_reducible apply Moves.inSub hq; decide)
    | with_reducible apply Moves.foldl
    | with_reducible intro _
    | (with_reducible apply List.Subset.trans ?_ ha; decide)
    | (with_reducible apply List.Subset.trans ?_ hq; decide)
    | split
    | dsimp only
    | with_reducible apply Moves.set_lateXfers

theorem execStackRefresh_moves (m : Nat) (channel : Nat) (s : State)
    (ha : [.mem] ⊆ as)
    (h : Moves as ps s0 s) : ResMoves as ps s0 (execStackRefresh m channel s) := by
  unfold execStackRefresh
  repeat' first
    | with_reducible assumption
    | with_reducible apply Moves.refl
    | with_reducible apply Moves.wr
    | with_reducible apply Moves.ite
    | with_reducible apply ResMoves.next
    | with_reducible apply ResMoves.fault
    | with_reducible apply ResMoves.refused
    | with_reducible apply ResMoves.ite
    | (with_reducible apply Moves.inSub ha; decide)
    | with_reducible apply Moves.foldl
    | with_reducible intro _
    | (with_reducible apply List.Subset.trans ?_ ha; decide)
    | split
    | dsimp only

theorem State.markBad_moves (s : State) (n : Nat) (words : List Nat)
    (hq : [.badWords] ⊆ ps)
    (h : Moves as ps s0 s) : Moves as ps s0 (State.markBad s n words) := by
  unfold State.markBad
  repeat' first
    | with_reducible assumption
    | with_reducible apply Moves.refl
    | with_reducible apply Moves.ite
    | (with_reducible apply Moves.inSub hq; decide)
    | with_reducible apply Moves.foldl
    | with_reducible intro _
    | (with_reducible apply List.Subset.trans ?_ hq; decide)
    | split
    | dsimp only
    | with_reducible apply Moves.set_badWords

theorem State.mirrorDrain_moves (s : State) (d : SlotXfer)
    (ha : [.pair] ⊆ as)
    (hq : [.links] ⊆ ps)
    (h : Moves as ps s0 s) : Moves as ps s0 (State.mirrorDrain s d) := by
  unfold State.mirrorDrain
  repeat' first
    | with_reducible assumption
    | with_reducible apply Moves.refl
    | with_reducible apply State.mirrorWrites_moves
    | with_reducible apply Moves.wr
    | with_reducible apply Moves.ite
    | (with_reducible apply Moves.inSub ha; decide)
    | (with_reducible apply Moves.inSub hq; decide)
    | with_reducible apply Moves.each
    | with_reducible apply Moves.foldl
    | with_reducible intro _
    | (with_reducible apply List.Subset.trans ?_ ha; decide)
    | (with_reducible apply List.Subset.trans ?_ hq; decide)
    | split
    | dsimp only

theorem State.ackDrain_moves (s : State) (f : Nat)
    (ha : [.pair] ⊆ as)
    (hq : [.mem, .presses, .drains, .dirtyOut, .links] ⊆ ps)
    (h : Moves as ps s0 s) : Moves as ps s0 (State.ackDrain s f) := by
  unfold State.ackDrain
  repeat' first
    | with_reducible assumption
    | with_reducible apply Moves.refl
    | with_reducible apply State.finishXfer_moves
    | with_reducible apply State.mirrorDrain_moves
    | with_reducible apply Moves.ite
    | (with_reducible apply Moves.inSub ha; decide)
    | (with_reducible apply Moves.inSub hq; decide)
    | with_reducible apply Moves.foldl
    | with_reducible intro _
    | (with_reducible apply List.Subset.trans ?_ ha; decide)
    | (with_reducible apply List.Subset.trans ?_ hq; decide)
    | split
    | dsimp only
    | with_reducible apply Moves.set_drains

theorem execPatrolScrub_moves (m : Nat) (ce : Option Sys2Proof.BurstErr) (s : State)
    (ha : [.prf, .mem] ⊆ as)
    (hq : [.repairMap, .ceLog, .freeCount] ⊆ ps)
    (h : Moves as ps s0 s) : ResMoves as ps s0 (execPatrolScrub m ce s) := by
  unfold execPatrolScrub
  repeat' first
    | with_reducible assumption
    | with_reducible apply Moves.refl
    | with_reducible apply State.memCe_moves
    | with_reducible apply Moves.wr
    | with_reducible apply Moves.ite
    | with_reducible apply ResMoves.next
    | with_reducible apply ResMoves.fault
    | with_reducible apply ResMoves.refused
    | with_reducible apply ResMoves.ite
    | (with_reducible apply Moves.inSub ha; decide)
    | (with_reducible apply Moves.inSub hq; decide)
    | with_reducible apply Moves.foldl
    | with_reducible intro _
    | (with_reducible apply List.Subset.trans ?_ ha; decide)
    | (with_reducible apply List.Subset.trans ?_ hq; decide)
    | split
    | dsimp only

theorem State.moveLate_moves (s : State) (f : Nat) (x : LateXfer)
    (hq : [.mem, .presses, .drains, .dirtyOut] ⊆ ps)
    (h : Moves as ps s0 s) : Moves as ps s0 (State.moveLate s f x) := by
  unfold State.moveLate
  repeat' first
    | with_reducible assumption
    | with_reducible apply Moves.refl
    | with_reducible apply State.slotsBefore_moves
    | with_reducible apply State.moveTo_moves
    | with_reducible apply Moves.ite
    | (with_reducible apply Moves.inSub hq; decide)
    | with_reducible apply Moves.foldl
    | with_reducible intro _
    | (with_reducible apply List.Subset.trans ?_ hq; decide)
    | split
    | dsimp only

theorem State.grantBank_moves (s : State) (c : Nat) (reqs : List Sys2Proof.GalReq) (bank : Nat)
    (ha : [.prf, .core, .gal, .gst, .mem] ⊆ as)
    (hq : [.mem, .heldAccs, .dirtyShared, .mgtLast, .links, .repairMap, .ceLog, .mgtJobs, .dropped, .out, .freeCount] ⊆ ps)
    (h : Moves as ps s0 s) : Moves as ps s0 (State.grantBank s c reqs bank) := by
  unfold State.grantBank
  repeat' first
    | with_reducible assumption
    | with_reducible apply Moves.refl
    | with_reducible apply State.access_moves
    | with_reducible apply Moves.wr
    | with_reducible apply Moves.bump
    | with_reducible apply Moves.ite
    | (with_reducible apply Moves.inSub ha; decide)
    | (with_reducible apply Moves.inSub hq; decide)
    | with_reducible apply Moves.each
    | with_reducible apply Moves.foldl
    | with_reducible intro _
    | (with_reducible apply List.Subset.trans ?_ ha; decide)
    | (with_reducible apply List.Subset.trans ?_ hq; decide)
    | split
    | dsimp only

theorem execUnscheduledRequest_moves (c : Nat) (phase : Nat) (reqs : List Sys2Proof.GalReq) (s : State)
    (ha : [.prf, .core, .gal, .gst, .mem] ⊆ as)
    (hq : [.mem, .presses, .lateXfers, .heldAccs, .drains, .dirtyOut, .dirtyShared, .mgtLast, .links, .repairMap, .ceLog, .mgtJobs, .dropped, .out, .freeCount] ⊆ ps)
    (h : Moves as ps s0 s) : ResMoves as ps s0 (execUnscheduledRequest c phase reqs s) := by
  unfold execUnscheduledRequest
  repeat' first
    | with_reducible assumption
    | with_reducible apply Moves.refl
    | with_reducible apply State.moveSlot_moves
    | with_reducible apply State.moveLate_moves
    | with_reducible apply State.answerFault_moves
    | with_reducible apply State.grantBank_moves
    | with_reducible apply Moves.ite
    | with_reducible apply ResMoves.next
    | with_reducible apply ResMoves.fault
    | with_reducible apply ResMoves.refused
    | with_reducible apply ResMoves.ite
    | (with_reducible apply Moves.inSub ha; decide)
    | (with_reducible apply Moves.inSub hq; decide)
    | with_reducible apply Moves.each
    | with_reducible apply Moves.foldl
    | with_reducible intro _
    | (with_reducible apply List.Subset.trans ?_ ha; decide)
    | (with_reducible apply List.Subset.trans ?_ hq; decide)
    | split
    | dsimp only
    | with_reducible apply Moves.set_lateXfers

theorem State.logMem_moves (s : State) (m : Nat) (x : StackPos)
    (ha : [.prf, .mem] ⊆ as)
    (hq : [.repairMap, .freeCount] ⊆ ps)
    (h : Moves as ps s0 s) : Moves as ps s0 (State.logMem s m x) := by
  unfold State.logMem
  repeat' first
    | with_reducible assumption
    | with_reducible apply Moves.refl
    | with_reducible apply State.suspect_moves
    | with_reducible apply Moves.wr
    | with_reducible apply Moves.ite
    | (with_reducible apply Moves.inSub ha; decide)
    | (with_reducible apply Moves.inSub hq; decide)
    | with_reducible apply Moves.foldl
    | with_reducible intro _
    | (with_reducible apply List.Subset.trans ?_ ha; decide)
    | (with_reducible apply List.Subset.trans ?_ hq; decide)
    | split
    | dsimp only

theorem execScrubLate_moves (m : Nat) (t : Nat) (s : State)
    (ha : [.tick, .mem] ⊆ as)
    (h : Moves as ps s0 s) : ResMoves as ps s0 (execScrubLate m t s) := by
  unfold execScrubLate
  repeat' first
    | with_reducible assumption
    | with_reducible apply Moves.refl
    | with_reducible apply State.stamp_moves
    | with_reducible apply Moves.wr
    | with_reducible apply Moves.ite
    | with_reducible apply ResMoves.next
    | with_reducible apply ResMoves.fault
    | with_reducible apply ResMoves.refused
    | with_reducible apply ResMoves.ite
    | (with_reducible apply Moves.inSub ha; decide)
    | with_reducible apply Moves.foldl
    | with_reducible intro _
    | (with_reducible apply List.Subset.trans ?_ ha; decide)
    | split
    | dsimp only

theorem State.logGal_moves (s : State) (c : Nat) (code : Nat) (line : Nat) (word : Nat) (sched : Bool)
    (ha : [.prf, .gal] ⊆ as)
    (hq : [.repairMap, .freeCount] ⊆ ps)
    (h : Moves as ps s0 s) : Moves as ps s0 (State.logGal s c code line word sched) := by
  unfold State.logGal
  repeat' first
    | with_reducible assumption
    | with_reducible apply Moves.refl
    | with_reducible apply State.suspect_moves
    | with_reducible apply Moves.wr
    | with_reducible apply Moves.ite
    | (with_reducible apply Moves.inSub ha; decide)
    | (with_reducible apply Moves.inSub hq; decide)
    | with_reducible apply Moves.foldl
    | with_reducible intro _
    | (with_reducible apply List.Subset.trans ?_ ha; decide)
    | (with_reducible apply List.Subset.trans ?_ hq; decide)
    | split
    | dsimp only

theorem State.logKept_moves (s : State) (c : Nat) (code : Nat)
    (ha : [.prf, .gal] ⊆ as)
    (hq : [.repairMap, .freeCount] ⊆ ps)
    (h : Moves as ps s0 s) : Moves as ps s0 (State.logKept s c code) := by
  unfold State.logKept
  repeat' first
    | with_reducible assumption
    | with_reducible apply Moves.refl
    | with_reducible apply State.logGal_moves
    | with_reducible apply Moves.free
    | with_reducible apply Moves.ite
    | (with_reducible apply Moves.inSub ha; decide)
    | (with_reducible apply Moves.inSub hq; decide)
    | with_reducible apply Moves.ite_snd
    | with_reducible apply Moves.foldl
    | with_reducible intro _
    | (with_reducible apply List.Subset.trans ?_ ha; decide)
    | (with_reducible apply List.Subset.trans ?_ hq; decide)
    | split
    | dsimp only

theorem State.logUe_moves (s : State) (u : Sys2Proof.UeSite)
    (ha : [.fab, .prf, .core, .gal, .lnk, .mem] ⊆ as)
    (hq : [.links, .repairMap, .badWords, .out, .freeCount] ⊆ ps)
    (h : Moves as ps s0 s) : Moves as ps s0 (State.logUe s u) := by
  unfold State.logUe
  repeat' first
    | with_reducible assumption
    | with_reducible apply Moves.refl
    | with_reducible apply State.logGal_moves
    | with_reducible apply State.markBad_moves
    | with_reducible apply State.coreFault_moves
    | with_reducible apply State.send_moves
    | with_reducible apply State.logMem_moves
    | with_reducible apply State.settleLink_moves
    | with_reducible apply State.setLink_moves
    | with_reducible apply State.logKept_moves
    | with_reducible apply Moves.wr
    | with_reducible apply Moves.free
    | with_reducible apply Moves.ite
    | (with_reducible apply Moves.inSub ha; decide)
    | (with_reducible apply Moves.inSub hq; decide)
    | with_reducible apply Moves.ite_snd
    | with_reducible apply Moves.foldl
    | with_reducible intro _
    | (with_reducible apply List.Subset.trans ?_ ha; decide)
    | (with_reducible apply List.Subset.trans ?_ hq; decide)
    | split
    | dsimp only

theorem State.checkpointLost_moves (s : State) (f : Nat) (t : Nat)
    (ha : [.forme, .pair, .pwr, .events, .cal, .cmp, .col, .prs, .oe, .lnk, .lsu] ⊆ as)
    (hq : [.presses, .jobs, .lateXfers, .drains, .calJobs, .swaps, .spareNeeds, .links, .relays, .freeCount] ⊆ ps)
    (h : Moves as ps s0 s) : Moves as ps s0 (State.checkpointLost s f t) := by
  unfold State.checkpointLost
  repeat' first
    | with_reducible assumption
    | with_reducible apply Moves.refl
    | with_reducible apply State.yieldWith_moves
    | with_reducible apply State.parkForme_moves
    | with_reducible apply State.stopUnits_moves
    | with_reducible apply Moves.wr
    | with_reducible apply Moves.bump
    | with_reducible apply Moves.ite
    | (with_reducible apply Moves.inSub ha; decide)
    | (with_reducible apply Moves.inSub hq; decide)
    | with_reducible apply Moves.foldl
    | with_reducible intro _
    | (with_reducible apply List.Subset.trans ?_ ha; decide)
    | (with_reducible apply List.Subset.trans ?_ hq; decide)
    | split
    | dsimp only

theorem execUncorrectableError_moves (u : Sys2Proof.UeSite) (t : Nat) (s : State)
    (ha : [.tick, .imp, .forme, .fab, .pair, .pwr, .prf, .core, .events, .cal, .gal, .cmp, .col, .prs, .oe, .lnk, .lsu, .mem] ⊆ as)
    (hq : [.presses, .jobs, .lateXfers, .drains, .calJobs, .swaps, .spareNeeds, .links, .repairMap, .badWords, .relays, .out, .freeCount] ⊆ ps)
    (h : Moves as ps s0 s) : ResMoves as ps s0 (execUncorrectableError u t s) := by
  unfold execUncorrectableError
  repeat' first
    | with_reducible assumption
    | with_reducible apply Moves.refl
    | with_reducible apply State.logUe_moves
    | with_reducible apply State.stamp_moves
    | with_reducible apply State.checkpointLost_moves
    | with_reducible apply State.abandon_moves
    | with_reducible apply Moves.wr
    | with_reducible apply Moves.ite
    | with_reducible apply ResMoves.next
    | with_reducible apply ResMoves.fault
    | with_reducible apply ResMoves.refused
    | with_reducible apply ResMoves.ite
    | (with_reducible apply Moves.inSub ha; decide)
    | (with_reducible apply Moves.inSub hq; decide)
    | with_reducible apply Moves.foldl
    | with_reducible intro _
    | (with_reducible apply List.Subset.trans ?_ ha; decide)
    | (with_reducible apply List.Subset.trans ?_ hq; decide)
    | split
    | dsimp only

theorem execHeldAccessRelease_moves (f : Nat) (s : State)
    (ha : [.prf, .core, .gal, .gst, .mem] ⊆ as)
    (hq : [.mem, .heldAccs, .dirtyShared, .mgtLast, .links, .repairMap, .ceLog, .mgtJobs, .dropped, .out, .freeCount] ⊆ ps)
    (h : Moves as ps s0 s) : ResMoves as ps s0 (execHeldAccessRelease f s) := by
  unfold execHeldAccessRelease
  repeat' first
    | with_reducible assumption
    | with_reducible apply Moves.refl
    | with_reducible apply State.releaseHeld_moves
    | with_reducible apply Moves.ite
    | with_reducible apply ResMoves.next
    | with_reducible apply ResMoves.fault
    | with_reducible apply ResMoves.refused
    | with_reducible apply ResMoves.ite
    | (with_reducible apply Moves.inSub ha; decide)
    | (with_reducible apply Moves.inSub hq; decide)
    | with_reducible apply Moves.foldl
    | with_reducible intro _
    | (with_reducible apply List.Subset.trans ?_ ha; decide)
    | (with_reducible apply List.Subset.trans ?_ hq; decide)
    | split
    | dsimp only

theorem execCoreLineUe_moves (u : Sys2Proof.UeSite) (t : Nat) (s : State)
    (ha : [.tick, .fab, .prf, .core, .gal, .lnk, .mem] ⊆ as)
    (hq : [.links, .repairMap, .badWords, .dropped, .out, .freeCount] ⊆ ps)
    (h : Moves as ps s0 s) : ResMoves as ps s0 (execCoreLineUe u t s) := by
  unfold execCoreLineUe
  repeat' first
    | with_reducible assumption
    | with_reducible apply Moves.refl
    | with_reducible apply State.logUe_moves
    | with_reducible apply State.stamp_moves
    | with_reducible apply Moves.ite
    | with_reducible apply ResMoves.next
    | with_reducible apply ResMoves.fault
    | with_reducible apply ResMoves.refused
    | with_reducible apply ResMoves.ite
    | (with_reducible apply Moves.inSub ha; decide)
    | (with_reducible apply Moves.inSub hq; decide)
    | with_reducible apply Moves.foldl
    | with_reducible intro _
    | (with_reducible apply List.Subset.trans ?_ ha; decide)
    | (with_reducible apply List.Subset.trans ?_ hq; decide)
    | split
    | dsimp only
    | with_reducible apply Moves.set_dropped

end Sys2Proof.Machine
end

