-- ==== Sys2Proof/Laws/MovesJobs.lean ====
section
/-!
SUPPORT. Footprints of the operations of Machine/Jobs.lean.
-/

namespace Sys2Proof.Machine

variable {as : List Area} {ps : List Part} {s0 : State}

theorem State.putLines_moves (s : State) (c : Nat) (line : Nat) (bs : List Sys2Proof.Byte)
    (hq : [.mem] ⊆ ps)
    (h : Moves as ps s0 s) : Moves as ps s0 (State.putLines s c line bs) := by
  unfold State.putLines
  repeat' first
    | with_reducible assumption
    | with_reducible apply Moves.refl
    | with_reducible apply Moves.writeGal
    | with_reducible apply Moves.ite
    | (with_reducible apply Moves.inSub hq; decide)
    | with_reducible apply Moves.foldl
    | with_reducible intro _
    | (with_reducible apply List.Subset.trans ?_ hq; decide)
    | split
    | dsimp only

theorem State.putPadded_moves (s : State) (c : Nat) (line : Nat) (bs : List Sys2Proof.Byte)
    (hq : [.mem] ⊆ ps)
    (h : Moves as ps s0 s) : Moves as ps s0 (State.putPadded s c line bs) := by
  unfold State.putPadded
  repeat' first
    | with_reducible assumption
    | with_reducible apply Moves.refl
    | with_reducible apply State.putLines_moves
    | with_reducible apply Moves.ite
    | (with_reducible apply Moves.inSub hq; decide)
    | with_reducible apply Moves.foldl
    | with_reducible intro _
    | (with_reducible apply List.Subset.trans ?_ hq; decide)
    | split
    | dsimp only

theorem State.colFlags_moves (s : State) (c : Nat) (f : NumFlags)
    (ha : [.col] ⊆ as)
    (h : Moves as ps s0 s) : Moves as ps s0 (State.colFlags s c f) := by
  unfold State.colFlags
  repeat' first
    | with_reducible assumption
    | with_reducible apply Moves.refl
    | with_reducible apply Moves.wr
    | with_reducible apply Moves.ite
    | (with_reducible apply Moves.inSub ha; decide)
    | with_reducible apply Moves.foldl
    | with_reducible intro _
    | (with_reducible apply List.Subset.trans ?_ ha; decide)
    | split
    | dsimp only

theorem State.queueXfer_moves (s : State) (rs : List Resv) (h' : Nat × Option Nat) (chase : Nat) (f : Nat) (bytes : List Sys2Proof.Byte)
    (hq : [.links, .relays] ⊆ ps)
    (h : Moves as ps s0 s) : Moves as ps s0 (State.queueXfer s rs h' chase f bytes) := by
  unfold State.queueXfer
  repeat' first
    | with_reducible assumption
    | with_reducible apply Moves.refl
    | with_reducible apply State.queueFrames_moves
    | with_reducible apply Moves.ite
    | (with_reducible apply Moves.inSub hq; decide)
    | with_reducible apply Moves.foldl
    | with_reducible intro _
    | (with_reducible apply List.Subset.trans ?_ hq; decide)
    | split
    | dsimp only
    | with_reducible apply Moves.set_relays

theorem State.sendLines_moves (s : State) (x : Job) (p : Plan) (q : Nat) (kind : Nat) (line : Nat → Nat) (data : List Sys2Proof.Byte)
    (hq : [.mem, .jobs, .links, .relays] ⊆ ps)
    (h : Moves as ps s0 s) : Moves as ps s0 (State.sendLines s x p q kind line data) := by
  unfold State.sendLines
  repeat' first
    | with_reducible assumption
    | with_reducible apply Moves.refl
    | with_reducible apply State.land_moves
    | with_reducible apply State.putPadded_moves
    | with_reducible apply State.queueXfer_moves
    | with_reducible apply Moves.ite
    | (with_reducible apply Moves.inSub hq; decide)
    | with_reducible apply Moves.foldl
    | with_reducible intro _
    | (with_reducible apply List.Subset.trans ?_ hq; decide)
    | split
    | dsimp only

theorem State.rootResult_moves (s : State) (x : Job) (p : Plan) (shard : Nat) (v : List Nat)
    (ha : [.col] ⊆ as)
    (hq : [.mem, .jobs, .links, .relays] ⊆ ps)
    (h : Moves as ps s0 s) : Moves as ps s0 (State.rootResult s x p shard v) := by
  unfold State.rootResult
  repeat' first
    | with_reducible assumption
    | with_reducible apply Moves.refl
    | with_reducible apply State.colFlags_moves
    | with_reducible apply State.setJob_moves
    | with_reducible apply State.sendLines_moves
    | with_reducible apply State.land_moves
    | with_reducible apply State.putPadded_moves
    | with_reducible apply Moves.ite
    | (with_reducible apply Moves.inSub ha; decide)
    | (with_reducible apply Moves.inSub hq; decide)
    | with_reducible apply Moves.each
    | with_reducible apply Moves.foldl
    | with_reducible intro _
    | (with_reducible apply List.Subset.trans ?_ ha; decide)
    | (with_reducible apply List.Subset.trans ?_ hq; decide)
    | split
    | dsimp only

theorem State.sendNode_moves (s : State) (x : Job) (p : Plan) (shard : Nat) (lo : Nat) (hi : Nat) (v : List Nat) (dst : Nat × Nat)
    (hq : [.links, .relays] ⊆ ps)
    (h : Moves as ps s0 s) : Moves as ps s0 (State.sendNode s x p shard lo hi v dst) := by
  unfold State.sendNode
  repeat' first
    | with_reducible assumption
    | with_reducible apply Moves.refl
    | with_reducible apply State.queueXfer_moves
    | with_reducible apply Moves.ite
    | (with_reducible apply Moves.inSub hq; decide)
    | with_reducible apply Moves.foldl
    | with_reducible intro _
    | (with_reducible apply List.Subset.trans ?_ hq; decide)
    | split
    | dsimp only

theorem State.scratch_moves (s : State) (c : Nat) (line : Nat) (n : Nat)
    (hq : [.mem, .freeCount] ⊆ ps)
    (h : Moves as ps s0 s) : Moves as ps s0 (State.scratch s c line n) := by
  unfold State.scratch
  repeat' first
    | with_reducible assumption
    | with_reducible apply Moves.refl
    | with_reducible apply State.putLines_moves
    | with_reducible apply Moves.ite
    | (with_reducible apply Moves.inSub hq; decide)
    | with_reducible apply Moves.foldl
    | with_reducible intro _
    | (with_reducible apply List.Subset.trans ?_ hq; decide)
    | split
    | dsimp only
    | with_reducible apply Moves.set_freeCount

theorem State.nodeSpill_moves (s : State) (c : Nat) (x2 : Nat)
    (ha : [.col] ⊆ as)
    (hq : [.mem, .jobs, .freeCount] ⊆ ps)
    (h : Moves as ps s0 s) : Moves as ps s0 (State.nodeSpill s c x2) := by
  induction x2 generalizing s with
  | zero => exact h
  | succ n ih =>
    unfold State.nodeSpill
    repeat' first
      | with_reducible assumption
      | with_reducible apply Moves.refl
      | with_reducible apply ih
      | with_reducible apply State.setJob_moves
      | with_reducible apply State.scratch_moves
      | with_reducible apply Moves.wr
      | with_reducible apply Moves.ite
      | (with_reducible apply Moves.inSub ha; decide)
      | (with_reducible apply Moves.inSub hq; decide)
      | with_reducible apply Moves.foldl
      | with_reducible intro _
      | (with_reducible apply List.Subset.trans ?_ ha; decide)
      | (with_reducible apply List.Subset.trans ?_ hq; decide)
      | split
      | dsimp only

theorem State.nodeStep_moves (s : State) (f : Nat) (idx : Nat) (p : Plan) (shard : Nat) (x5 : Nat) (x6 : Nat) (x7 : Nat) (x8 : List Nat)
    (ha : [.col] ⊆ as)
    (hq : [.mem, .jobs, .links, .relays, .freeCount] ⊆ ps)
    (h : Moves as ps s0 s) : Moves as ps s0 (State.nodeStep s f idx p shard x5 x6 x7 x8) := by
  induction x5 generalizing s x6 x7 x8 with
  | zero => exact h
  | succ n ih =>
    unfold State.nodeStep
    repeat' first
      | with_reducible assumption
      | with_reducible apply Moves.refl
      | with_reducible apply ih
      | with_reducible apply State.rootResult_moves
      | with_reducible apply State.setJob_moves
      | with_reducible apply State.sendNode_moves
      | with_reducible apply State.nodeSpill_moves
      | with_reducible apply State.colFlags_moves
      | with_reducible apply Moves.ite
      | (with_reducible apply Moves.inSub ha; decide)
      | (with_reducible apply Moves.inSub hq; decide)
      | with_reducible apply Moves.foldl
      | with_reducible intro _
      | (with_reducible apply List.Subset.trans ?_ ha; decide)
      | (with_reducible apply List.Subset.trans ?_ hq; decide)
      | split
      | dsimp only

theorem State.nodeArrive_moves (s : State) (f : Nat) (idx : Nat) (shard : Nat) (lo : Nat) (hi : Nat) (v : List Nat)
    (ha : [.col] ⊆ as)
    (hq : [.mem, .jobs, .links, .relays, .freeCount] ⊆ ps)
    (h : Moves as ps s0 s) : Moves as ps s0 (State.nodeArrive s f idx shard lo hi v) := by
  unfold State.nodeArrive
  repeat' first
    | with_reducible assumption
    | with_reducible apply Moves.refl
    | with_reducible apply State.nodeStep_moves
    | with_reducible apply Moves.wr
    | with_reducible apply Moves.ite
    | (with_reducible apply Moves.inSub ha; decide)
    | (with_reducible apply Moves.inSub hq; decide)
    | with_reducible apply Moves.foldl
    | with_reducible intro _
    | (with_reducible apply List.Subset.trans ?_ ha; decide)
    | (with_reducible apply List.Subset.trans ?_ hq; decide)
    | split
    | dsimp only

theorem State.placement_moves (s : State) (x : Job) (p : Plan)
    (hq : [.moe, .freeCount] ⊆ ps)
    (h : Moves as ps s0 s) : Moves as ps s0 ((State.placement s x p).2) := by
  unfold State.placement
  repeat' first
    | with_reducible assumption
    | with_reducible apply Moves.refl
    | with_reducible apply Moves.ite
    | (with_reducible apply Moves.inSub hq; decide)
    | with_reducible apply Moves.foldl
    | with_reducible intro _
    | (with_reducible apply List.Subset.trans ?_ hq; decide)
    | split
    | dsimp only
    | with_reducible apply Moves.set_moe
    | with_reducible apply Moves.set_freeCount
    | ((with_reducible apply Moves.update); on_goal 1 => (intro q hn; cases q <;> first | exact absurd (hq (by decide)) hn | rfl))

theorem State.dispatch6_moves (s : State) (x : Job) (p : Plan)
    (ha : [.col] ⊆ as)
    (hq : [.mem, .jobs, .links, .relays, .moe, .freeCount] ⊆ ps)
    (h : Moves as ps s0 s) : Moves as ps s0 (State.dispatch6 s x p) := by
  unfold State.dispatch6
  extract_lets d r c own s1 pl res s2 mine marked left s3 entry s4 rb rl g slots full s5 bits s6
  have h1 : Moves as ps s0 s1 := Moves.ite (fun _ => Moves.wr _ _ _ _ (ha (by decide)) h) (fun _ => h)
  have h2 : Moves as ps s0 s2 := State.placement_moves _ _ _ (List.Subset.trans (by decide) hq) h1
  have h3 : Moves as ps s0 s3 := Moves.wrAll _ (areas_cons (ha (by decide))
    (areas_cons (ha (by decide)) (areas_cons (ha (by decide)) areas_nil))) h2
  have hp : ∀ t a l, Moves as ps s0 t → Moves as ps s0 (t.putLines c a l) := fun t a l ht =>
    State.putLines_moves t c a l (List.Subset.trans (by decide) hq) ht
  have h4 : Moves as ps s0 s4 := hp _ _ _ h3
  have h5 : Moves as ps s0 s5 :=
    Moves.each _ _ (fun t e ht => Moves.ite (fun _ => ht) (fun _ => hp _ _ _ ht)) h4
  have h6 : Moves as ps s0 s6 := Moves.ite (fun _ => h5) (fun _ => hp _ _ _ h5)
  exact Moves.each _ _ (fun t e ht => State.sendLines_moves _ _ _ _ _ _ _ (List.Subset.trans (by decide) hq) ht) h6

theorem State.combineHost_moves (s : State) (x : Job) (p : Plan)
    (hq : [.mem, .jobs, .links, .relays] ⊆ ps)
    (h : Moves as ps s0 s) : Moves as ps s0 (State.combineHost s x p) := by
  unfold State.combineHost
  repeat' first
    | with_reducible assumption
    | with_reducible apply Moves.refl
    | with_reducible apply State.sendLines_moves
    | with_reducible apply Moves.ite
    | (with_reducible apply Moves.inSub hq; decide)
    | with_reducible apply Moves.each
    | with_reducible apply Moves.foldl
    | with_reducible intro _
    | (with_reducible apply List.Subset.trans ?_ hq; decide)
    | split
    | dsimp only

theorem State.colBegin_moves (s : State) (x : Job)
    (ha : [.col] ⊆ as)
    (hq : [.mem, .jobs, .links, .relays, .moe, .freeCount] ⊆ ps)
    (h : Moves as ps s0 s) : Moves as ps s0 (State.colBegin s x) := by
  unfold State.colBegin
  repeat' first
    | with_reducible assumption
    | with_reducible apply Moves.refl
    | with_reducible apply State.setJob_moves
    | with_reducible apply State.nodeArrive_moves
    | with_reducible apply State.ensureJob_moves
    | with_reducible apply State.sendNode_moves
    | with_reducible apply State.sendLines_moves
    | with_reducible apply State.dispatch6_moves
    | with_reducible apply State.combineHost_moves
    | with_reducible apply Moves.ite
    | (with_reducible apply Moves.inSub ha; decide)
    | (with_reducible apply Moves.inSub hq; decide)
    | with_reducible apply Moves.each
    | with_reducible apply Moves.foldl
    | with_reducible intro _
    | (with_reducible apply List.Subset.trans ?_ ha; decide)
    | (with_reducible apply List.Subset.trans ?_ hq; decide)
    | split
    | dsimp only

theorem State.beginJob_moves (s : State) (f : Nat) (idx : Nat)
    (ha : [.cmp, .col] ⊆ as)
    (hq : [.mem, .presses, .jobs, .drains, .dirtyOut, .links, .relays, .moe, .freeCount] ⊆ ps)
    (h : Moves as ps s0 s) : Moves as ps s0 (State.beginJob s f idx) := by
  unfold State.beginJob
  repeat' first
    | with_reducible assumption
    | with_reducible apply Moves.refl
    | with_reducible apply State.slotsBefore_moves
    | with_reducible apply State.jobFields_moves
    | with_reducible apply State.setJob_moves
    | with_reducible apply State.colBegin_moves
    | with_reducible apply Moves.wr
    | with_reducible apply Moves.ite
    | (with_reducible apply Moves.inSub ha; decide)
    | (with_reducible apply Moves.inSub hq; decide)
    | with_reducible apply Moves.foldl
    | with_reducible intro _
    | (with_reducible apply List.Subset.trans ?_ ha; decide)
    | (with_reducible apply List.Subset.trans ?_ hq; decide)
    | split
    | dsimp only

theorem State.cmpFlags_moves (s : State) (c : Nat) (f : NumFlags)
    (ha : [.cmp] ⊆ as)
    (h : Moves as ps s0 s) : Moves as ps s0 (State.cmpFlags s c f) := by
  unfold State.cmpFlags
  repeat' first
    | with_reducible assumption
    | with_reducible apply Moves.refl
    | with_reducible apply Moves.wr
    | with_reducible apply Moves.ite
    | (with_reducible apply Moves.inSub ha; decide)
    | with_reducible apply Moves.foldl
    | with_reducible intro _
    | (with_reducible apply List.Subset.trans ?_ ha; decide)
    | split
    | dsimp only

theorem State.writeBag_moves (s : State) (x : Job) (b : Nat) (row : List Nat × NumFlags)
    (ha : [.cmp] ⊆ as)
    (hq : [.mem] ⊆ ps)
    (h : Moves as ps s0 s) : Moves as ps s0 (State.writeBag s x b row) := by
  unfold State.writeBag
  repeat' first
    | with_reducible assumption
    | with_reducible apply Moves.refl
    | with_reducible apply State.cmpFlags_moves
    | with_reducible apply State.putPadded_moves
    | with_reducible apply Moves.ite
    | (with_reducible apply Moves.inSub ha; decide)
    | (with_reducible apply Moves.inSub hq; decide)
    | with_reducible apply Moves.foldl
    | with_reducible intro _
    | (with_reducible apply List.Subset.trans ?_ ha; decide)
    | (with_reducible apply List.Subset.trans ?_ hq; decide)
    | split
    | dsimp only

theorem State.lookup_moves (s : State) (x : Job) (rows : List (Nat × List Sys2Proof.Byte))
    (ha : [.cmp] ⊆ as)
    (hq : [.mem, .jobs] ⊆ ps)
    (h : Moves as ps s0 s) : Moves as ps s0 (State.lookup s x rows) := by
  unfold State.lookup
  repeat' first
    | with_reducible assumption
    | with_reducible apply Moves.refl
    | with_reducible apply State.setJob_moves
    | with_reducible apply State.putPadded_moves
    | with_reducible apply State.cmpFlags_moves
    | with_reducible apply State.writeBag_moves
    | with_reducible apply Moves.wr
    | with_reducible apply Moves.bump
    | with_reducible apply Moves.ite
    | (with_reducible apply Moves.inSub ha; decide)
    | (with_reducible apply Moves.inSub hq; decide)
    | with_reducible apply Moves.foldl
    | with_reducible intro _
    | (with_reducible apply List.Subset.trans ?_ ha; decide)
    | (with_reducible apply List.Subset.trans ?_ hq; decide)
    | split
    | dsimp only

theorem State.lookups_moves (s : State) (f : Nat) (idx : Nat) (rows : List (Nat × List Sys2Proof.Byte)) (x4 : Nat)
    (ha : [.cmp] ⊆ as)
    (hq : [.mem, .jobs] ⊆ ps)
    (h : Moves as ps s0 s) : Moves as ps s0 (State.lookups s f idx rows x4) := by
  induction x4 generalizing s with
  | zero => exact h
  | succ n ih =>
    unfold State.lookups
    repeat' first
      | with_reducible assumption
      | with_reducible apply Moves.refl
      | with_reducible apply ih
      | with_reducible apply State.lookup_moves
      | with_reducible apply Moves.ite
      | (with_reducible apply Moves.inSub ha; decide)
      | (with_reducible apply Moves.inSub hq; decide)
      | with_reducible apply Moves.foldl
      | with_reducible intro _
      | (with_reducible apply List.Subset.trans ?_ ha; decide)
      | (with_reducible apply List.Subset.trans ?_ hq; decide)
      | split
      | dsimp only

theorem State.stageWindow_moves (s : State) (x : Job)
    (hq : [.mem, .freeCount] ⊆ ps)
    (h : Moves as ps s0 s) : Moves as ps s0 (State.stageWindow s x) := by
  unfold State.stageWindow
  repeat' first
    | with_reducible assumption
    | with_reducible apply Moves.refl
    | with_reducible apply State.scratch_moves
    | with_reducible apply Moves.ite
    | (with_reducible apply Moves.inSub hq; decide)
    | with_reducible apply Moves.foldl
    | with_reducible intro _
    | (with_reducible apply List.Subset.trans ?_ hq; decide)
    | split
    | dsimp only

theorem State.fetchWindow_moves (s : State) (x : Job)
    (ha : [.cmp] ⊆ as)
    (hq : [.mem, .jobs, .out, .freeCount] ⊆ ps)
    (h : Moves as ps s0 s) : Moves as ps s0 (State.fetchWindow s x) := by
  unfold State.fetchWindow
  repeat' first
    | with_reducible assumption
    | with_reducible apply Moves.refl
    | with_reducible apply State.lookups_moves
    | with_reducible apply State.stageWindow_moves
    | with_reducible apply State.send_moves
    | with_reducible apply Moves.ite
    | (with_reducible apply Moves.inSub ha; decide)
    | (with_reducible apply Moves.inSub hq; decide)
    | with_reducible apply Moves.foldl
    | with_reducible intro _
    | (with_reducible apply List.Subset.trans ?_ ha; decide)
    | (with_reducible apply List.Subset.trans ?_ hq; decide)
    | split
    | dsimp only

theorem State.combineTokens_moves (s : State) (x : Job)
    (ha : [.col] ⊆ as)
    (hq : [.mem] ⊆ ps)
    (h : Moves as ps s0 s) : Moves as ps s0 (State.combineTokens s x) := by
  unfold State.combineTokens
  repeat' first
    | with_reducible assumption
    | with_reducible apply Moves.refl
    | with_reducible apply State.colFlags_moves
    | with_reducible apply State.putPadded_moves
    | with_reducible apply Moves.ite
    | (with_reducible apply Moves.inSub ha; decide)
    | (with_reducible apply Moves.inSub hq; decide)
    | with_reducible apply Moves.each
    | with_reducible apply Moves.foldl
    | with_reducible intro _
    | (with_reducible apply List.Subset.trans ?_ ha; decide)
    | (with_reducible apply List.Subset.trans ?_ hq; decide)
    | split
    | dsimp only

theorem State.beginWaiting_moves (s : State) (c : Nat) (col : Bool) (x3 : Nat)
    (ha : [.cmp, .col] ⊆ as)
    (hq : [.mem, .presses, .jobs, .drains, .dirtyOut, .links, .relays, .moe, .freeCount] ⊆ ps)
    (h : Moves as ps s0 s) : Moves as ps s0 (State.beginWaiting s c col x3) := by
  induction x3 generalizing s with
  | zero => exact h
  | succ n ih =>
    unfold State.beginWaiting
    repeat' first
      | with_reducible assumption
      | with_reducible apply Moves.refl
      | with_reducible apply ih
      | with_reducible apply State.beginJob_moves
      | with_reducible apply Moves.ite
      | (with_reducible apply Moves.inSub ha; decide)
      | (with_reducible apply Moves.inSub hq; decide)
      | with_reducible apply Moves.foldl
      | with_reducible intro _
      | (with_reducible apply List.Subset.trans ?_ ha; decide)
      | (with_reducible apply List.Subset.trans ?_ hq; decide)
      | split
      | dsimp only

theorem execJobComplete_moves (c : Nat) (eng : Nat) (job : Nat) (t : Nat) (s : State)
    (ha : [.tick, .cmp, .col] ⊆ as)
    (hq : [.mem, .presses, .jobs, .drains, .dirtyOut, .arrivals, .barSent, .tokens, .links, .relays, .moe, .freeCount] ⊆ ps)
    (h : Moves as ps s0 s) : ResMoves as ps s0 (execJobComplete c eng job t s) := by
  unfold execJobComplete
  repeat' first
    | with_reducible assumption
    | with_reducible apply Moves.refl
    | with_reducible apply State.stamp_moves
    | with_reducible apply State.combineTokens_moves
    | with_reducible apply State.jobFields_moves
    | with_reducible apply State.setJob_moves
    | with_reducible apply State.barrierArrive_moves
    | with_reducible apply State.beginWaiting_moves
    | with_reducible apply Moves.ite
    | with_reducible apply ResMoves.next
    | with_reducible apply ResMoves.fault
    | with_reducible apply ResMoves.refused
    | with_reducible apply ResMoves.ite
    | (with_reducible apply Moves.inSub ha; decide)
    | (with_reducible apply Moves.inSub hq; decide)
    | with_reducible apply Moves.foldl
    | with_reducible intro _
    | (with_reducible apply List.Subset.trans ?_ ha; decide)
    | (with_reducible apply List.Subset.trans ?_ hq; decide)
    | split
    | dsimp only

theorem execNodeArrival_moves (c : Nat) (job : Nat) (shard : Nat) (lo : Nat) (hi : Nat) (v : List Nat) (s : State)
    (ha : [.col] ⊆ as)
    (hq : [.mem, .jobs, .links, .relays, .freeCount] ⊆ ps)
    (h : Moves as ps s0 s) : ResMoves as ps s0 (execNodeArrival c job shard lo hi v s) := by
  unfold execNodeArrival
  repeat' first
    | with_reducible assumption
    | with_reducible apply Moves.refl
    | with_reducible apply State.nodeArrive_moves
    | with_reducible apply State.ensureJob_moves
    | with_reducible apply Moves.ite
    | with_reducible apply ResMoves.next
    | with_reducible apply ResMoves.fault
    | with_reducible apply ResMoves.refused
    | with_reducible apply ResMoves.ite
    | (with_reducible apply Moves.inSub ha; decide)
    | (with_reducible apply Moves.inSub hq; decide)
    | with_reducible apply Moves.foldl
    | with_reducible intro _
    | (with_reducible apply List.Subset.trans ?_ ha; decide)
    | (with_reducible apply List.Subset.trans ?_ hq; decide)
    | split
    | dsimp only

theorem State.startJob_moves (s : State) (f : Nat) (idx : Nat)
    (ha : [.forme, .cmp, .col] ⊆ as)
    (hq : [.mem, .presses, .jobs, .drains, .dirtyOut, .links, .relays, .moe, .freeCount] ⊆ ps)
    (h : Moves as ps s0 s) : Moves as ps s0 (State.startJob s f idx) := by
  unfold State.startJob
  repeat' first
    | with_reducible assumption
    | with_reducible apply Moves.refl
    | with_reducible apply State.ensureJob_moves
    | with_reducible apply State.beginWaiting_moves
    | with_reducible apply State.setJob_moves
    | with_reducible apply State.beginJob_moves
    | with_reducible apply Moves.wr
    | with_reducible apply Moves.ite
    | (with_reducible apply Moves.inSub ha; decide)
    | (with_reducible apply Moves.inSub hq; decide)
    | with_reducible apply Moves.foldl
    | with_reducible intro _
    | (with_reducible apply List.Subset.trans ?_ ha; decide)
    | (with_reducible apply List.Subset.trans ?_ hq; decide)
    | split
    | dsimp only

theorem State.beginAllWaiting_moves (s : State)
    (ha : [.cmp, .col] ⊆ as)
    (hq : [.mem, .presses, .jobs, .drains, .dirtyOut, .links, .relays, .moe, .freeCount] ⊆ ps)
    (h : Moves as ps s0 s) : Moves as ps s0 (State.beginAllWaiting s) := by
  unfold State.beginAllWaiting
  repeat' first
    | with_reducible assumption
    | with_reducible apply Moves.refl
    | with_reducible apply State.beginWaiting_moves
    | with_reducible apply Moves.ite
    | (with_reducible apply Moves.inSub ha; decide)
    | (with_reducible apply Moves.inSub hq; decide)
    | with_reducible apply Moves.each
    | with_reducible apply Moves.foldl
    | with_reducible intro _
    | (with_reducible apply List.Subset.trans ?_ ha; decide)
    | (with_reducible apply List.Subset.trans ?_ hq; decide)
    | split
    | dsimp only

theorem execJobStart_moves (f : Nat) (job : Nat) (t : Nat) (s : State)
    (ha : [.tick, .forme, .cmp, .col] ⊆ as)
    (hq : [.mem, .presses, .jobs, .drains, .dirtyOut, .links, .relays, .moe, .freeCount] ⊆ ps)
    (h : Moves as ps s0 s) : ResMoves as ps s0 (execJobStart f job t s) := by
  unfold execJobStart
  repeat' first
    | with_reducible assumption
    | with_reducible apply Moves.refl
    | with_reducible apply State.stamp_moves
    | with_reducible apply State.ensureJob_moves
    | with_reducible apply State.beginWaiting_moves
    | with_reducible apply State.startJob_moves
    | with_reducible apply Moves.ite
    | with_reducible apply ResMoves.next
    | with_reducible apply ResMoves.fault
    | with_reducible apply ResMoves.refused
    | with_reducible apply ResMoves.ite
    | (with_reducible apply Moves.inSub ha; decide)
    | (with_reducible apply Moves.inSub hq; decide)
    | with_reducible apply Moves.each
    | with_reducible apply Moves.foldl
    | with_reducible intro _
    | (with_reducible apply List.Subset.trans ?_ ha; decide)
    | (with_reducible apply List.Subset.trans ?_ hq; decide)
    | split
    | dsimp only

theorem execWindowFetch_moves (c : Nat) (ce : List Sys2Proof.CeSite) (s : State)
    (ha : [.prf, .gal, .cmp, .mem] ⊆ as)
    (hq : [.mem, .jobs, .repairMap, .ceLog, .out, .freeCount] ⊆ ps)
    (h : Moves as ps s0 s) : ResMoves as ps s0 (execWindowFetch c ce s) := by
  unfold execWindowFetch
  repeat' first
    | with_reducible assumption
    | with_reducible apply Moves.refl
    | with_reducible apply State.met_moves
    | with_reducible apply State.fetchWindow_moves
    | with_reducible apply Moves.wr
    | with_reducible apply Moves.free
    | with_reducible apply Moves.ite
    | with_reducible apply ResMoves.next
    | with_reducible apply ResMoves.fault
    | with_reducible apply ResMoves.refused
    | with_reducible apply ResMoves.ite
    | (with_reducible apply Moves.inSub ha; decide)
    | (with_reducible apply Moves.inSub hq; decide)
    | with_reducible apply Moves.ite_snd
    | with_reducible apply Moves.foldl
    | with_reducible intro _
    | (with_reducible apply List.Subset.trans ?_ ha; decide)
    | (with_reducible apply List.Subset.trans ?_ hq; decide)
    | split
    | dsimp only

end Sys2Proof.Machine
end

