-- ==== Sys2Proof/Laws/MovesTraining.lean ====
section
/-!
SUPPORT. Footprints of the operations of Machine/Training.lean.
-/

namespace Sys2Proof.Machine

variable {as : List Area} {ps : List Part} {s0 : State}

theorem State.atPort_moves (s : State) (n : Nat) (t : Nat) (run : State → State)
    (ha : [.tick] ⊆ as)
    (hr : ∀ x0, Moves as ps s0 x0 → Moves as ps s0 (run x0))
    (h : Moves as ps s0 s) : ResMoves as ps s0 (State.atPort s n t run) := by
  unfold State.atPort
  repeat' first
    | with_reducible assumption
    | with_reducible apply Moves.refl
    | with_reducible apply State.stamp_moves
    | with_reducible apply Moves.ite
    | with_reducible apply ResMoves.next
    | with_reducible apply ResMoves.fault
    | with_reducible apply ResMoves.refused
    | with_reducible apply ResMoves.ite
    | (with_reducible apply Moves.inSub ha; decide)
    | with_reducible apply Moves.foldl
    | with_reducible apply hr
    | with_reducible intro _
    | (with_reducible apply List.Subset.trans ?_ ha; decide)
    | split
    | dsimp only

theorem execLcLost_moves (n : Nat) (t : Nat) (s : State)
    (ha : [.tick, .imp, .forme, .fab, .pair, .core, .events, .cal, .gal, .cmp, .col, .ddl, .gst, .prs, .oe, .lnk, .lsu] ⊆ as)
    (hq : [.presses, .jobs, .lateXfers, .drains, .mgtLast, .calJobs, .swaps, .spareNeeds, .links, .relays, .mgtJobs, .out, .freeCount] ⊆ ps)
    (h : Moves as ps s0 s) : ResMoves as ps s0 (execLcLost n t s) := by
  unfold execLcLost
  repeat' first
    | with_reducible assumption
    | with_reducible apply Moves.refl
    | with_reducible apply State.atPort_moves
    | with_reducible apply State.linkDown_moves
    | with_reducible apply State.failAttempt_moves
    | with_reducible apply Moves.wr
    | with_reducible apply Moves.ite
    | with_reducible apply ResMoves.next
    | with_reducible apply ResMoves.fault
    | with_reducible apply ResMoves.refused
    | with_reducible apply ResMoves.ite
    | (with_reducible apply Moves.inSub ha; decide)
    | (with_reducible apply Moves.inSub hq; decide)
    | with_reducible apply Moves.foldl
    | with_reducible intro _
    | (with_reducible apply List.Subset.trans ?_ ha; decide)
    | (with_reducible apply List.Subset.trans ?_ hq; decide)
    | split
    | dsimp only

theorem State.atEnd_moves (s : State) (n : Nat) (t : Nat) (run : State → State)
    (ha : [.tick] ⊆ as)
    (hr : ∀ x0, Moves as ps s0 x0 → Moves as ps s0 (run x0))
    (h : Moves as ps s0 s) : ResMoves as ps s0 (State.atEnd s n t run) := by
  unfold State.atEnd
  repeat' first
    | with_reducible assumption
    | with_reducible apply Moves.refl
    | with_reducible apply State.stamp_moves
    | with_reducible apply Moves.ite
    | with_reducible apply ResMoves.next
    | with_reducible apply ResMoves.fault
    | with_reducible apply ResMoves.refused
    | with_reducible apply ResMoves.ite
    | (with_reducible apply Moves.inSub ha; decide)
    | with_reducible apply Moves.foldl
    | with_reducible apply hr
    | with_reducible intro _
    | (with_reducible apply List.Subset.trans ?_ ha; decide)
    | split
    | dsimp only

theorem execTrainingTimeout_moves (n : Nat) (t : Nat) (s : State)
    (ha : [.tick, .imp, .forme, .fab, .pair, .core, .events, .cal, .gal, .cmp, .col, .ddl, .gst, .prs, .oe, .lnk, .lsu] ⊆ as)
    (hq : [.presses, .jobs, .lateXfers, .drains, .mgtLast, .calJobs, .swaps, .spareNeeds, .links, .relays, .mgtJobs, .out, .freeCount] ⊆ ps)
    (h : Moves as ps s0 s) : ResMoves as ps s0 (execTrainingTimeout n t s) := by
  unfold execTrainingTimeout
  repeat' first
    | with_reducible assumption
    | with_reducible apply Moves.refl
    | with_reducible apply State.atEnd_moves
    | with_reducible apply State.failAttempt_moves
    | with_reducible apply Moves.ite
    | with_reducible apply ResMoves.next
    | with_reducible apply ResMoves.fault
    | with_reducible apply ResMoves.refused
    | with_reducible apply ResMoves.ite
    | (with_reducible apply Moves.inSub ha; decide)
    | (with_reducible apply Moves.inSub hq; decide)
    | with_reducible apply Moves.foldl
    | with_reducible intro _
    | (with_reducible apply List.Subset.trans ?_ ha; decide)
    | (with_reducible apply List.Subset.trans ?_ hq; decide)
    | split
    | dsimp only

theorem execClearMismatch_moves (n : Nat) (t : Nat) (s : State)
    (ha : [.tick, .events, .cal, .ddl, .oe, .lnk, .lsu] ⊆ as)
    (hq : [.calJobs, .swaps, .links] ⊆ ps)
    (h : Moves as ps s0 s) : ResMoves as ps s0 (execClearMismatch n t s) := by
  unfold execClearMismatch
  repeat' first
    | with_reducible assumption
    | with_reducible apply Moves.refl
    | with_reducible apply State.atPort_moves
    | with_reducible apply State.toClock_moves
    | with_reducible apply Moves.ite
    | with_reducible apply ResMoves.next
    | with_reducible apply ResMoves.fault
    | with_reducible apply ResMoves.refused
    | with_reducible apply ResMoves.ite
    | (with_reducible apply Moves.inSub ha; decide)
    | (with_reducible apply Moves.inSub hq; decide)
    | with_reducible apply Moves.foldl
    | with_reducible intro _
    | (with_reducible apply List.Subset.trans ?_ ha; decide)
    | (with_reducible apply List.Subset.trans ?_ hq; decide)
    | split
    | dsimp only

theorem State.retireRx_moves (s : State) (n : Nat) (i : Nat)
    (ha : [.cal, .ddl, .oe, .lnk] ⊆ as)
    (hq : [.calJobs, .calRuns, .spareNeeds, .links] ⊆ ps)
    (h : Moves as ps s0 s) : Moves as ps s0 (State.retireRx s n i) := by
  unfold State.retireRx
  repeat' first
    | with_reducible assumption
    | with_reducible apply Moves.refl
    | with_reducible apply State.setLane_moves
    | with_reducible apply State.retireFibreLane_moves
    | with_reducible apply State.laneReq_moves
    | with_reducible apply State.needSpare_moves
    | with_reducible apply State.retireSpare_moves
    | with_reducible apply State.ddlCount_moves
    | with_reducible apply Moves.ite
    | (with_reducible apply Moves.inSub ha; decide)
    | (with_reducible apply Moves.inSub hq; decide)
    | with_reducible apply Moves.foldl
    | with_reducible intro _
    | (with_reducible apply List.Subset.trans ?_ ha; decide)
    | (with_reducible apply List.Subset.trans ?_ hq; decide)
    | split
    | dsimp only

theorem State.restart_moves (s : State) (n : Nat)
    (ha : [.lnk] ⊆ as)
    (hq : [.links] ⊆ ps)
    (h : Moves as ps s0 s) : Moves as ps s0 (State.restart s n) := by
  unfold State.restart
  repeat' first
    | with_reducible assumption
    | with_reducible apply Moves.refl
    | with_reducible apply State.setCredit_moves
    | with_reducible apply State.setTxNext_moves
    | with_reducible apply State.setLink_moves
    | with_reducible apply Moves.ite
    | (with_reducible apply Moves.inSub ha; decide)
    | (with_reducible apply Moves.inSub hq; decide)
    | with_reducible apply Moves.foldl
    | with_reducible intro _
    | (with_reducible apply List.Subset.trans ?_ ha; decide)
    | (with_reducible apply List.Subset.trans ?_ hq; decide)
    | split
    | dsimp only

theorem State.shortGroups_moves (s : State) (n : Nat)
    (hq : [.links] ⊆ ps)
    (h : Moves as ps s0 s) : Moves as ps s0 (State.shortGroups s n) := by
  unfold State.shortGroups
  repeat' first
    | with_reducible assumption
    | with_reducible apply Moves.refl
    | with_reducible apply State.setLink_moves
    | with_reducible apply Moves.ite
    | (with_reducible apply Moves.inSub hq; decide)
    | with_reducible apply Moves.foldl
    | with_reducible intro _
    | (with_reducible apply List.Subset.trans ?_ hq; decide)
    | split
    | dsimp only

theorem State.shortEnds_moves (s : State) (l : Nat)
    (hq : [.links] ⊆ ps)
    (h : Moves as ps s0 s) : Moves as ps s0 (State.shortEnds s l) := by
  unfold State.shortEnds
  repeat' first
    | with_reducible assumption
    | with_reducible apply Moves.refl
    | with_reducible apply State.shortGroups_moves
    | with_reducible apply Moves.ite
    | (with_reducible apply Moves.inSub hq; decide)
    | with_reducible apply Moves.foldl
    | with_reducible intro _
    | (with_reducible apply List.Subset.trans ?_ hq; decide)
    | split
    | dsimp only

theorem State.takeMembers_moves (s : State) (n : Nat)
    (ha : [.ddl, .lnk] ⊆ as)
    (hq : [.links] ⊆ ps)
    (h : Moves as ps s0 s) : Moves as ps s0 (State.takeMembers s n) := by
  unfold State.takeMembers
  repeat' first
    | with_reducible assumption
    | with_reducible apply Moves.refl
    | with_reducible apply State.setLane_moves
    | with_reducible apply State.shortEnds_moves
    | with_reducible apply State.setLink_moves
    | with_reducible apply State.groupFields_moves
    | with_reducible apply State.ddlWr_moves
    | with_reducible apply Moves.wr
    | with_reducible apply Moves.andNot
    | with_reducible apply Moves.ite
    | (with_reducible apply Moves.inSub ha; decide)
    | (with_reducible apply Moves.inSub hq; decide)
    | with_reducible apply Moves.each
    | with_reducible apply Moves.foldl
    | with_reducible intro _
    | (with_reducible apply List.Subset.trans ?_ ha; decide)
    | (with_reducible apply List.Subset.trans ?_ hq; decide)
    | split
    | dsimp only

theorem State.sendEdition_moves (s : State) (n : Nat)
    (hq : [.links] ⊆ ps)
    (h : Moves as ps s0 s) : Moves as ps s0 (State.sendEdition s n) := by
  unfold State.sendEdition
  repeat' first
    | with_reducible assumption
    | with_reducible apply Moves.refl
    | with_reducible apply State.sendByp_moves
    | with_reducible apply Moves.ite
    | (with_reducible apply Moves.inSub hq; decide)
    | with_reducible apply Moves.foldl
    | with_reducible intro _
    | (with_reducible apply List.Subset.trans ?_ hq; decide)
    | split
    | dsimp only

theorem State.repeatTokens_moves (s : State) (n : Nat)
    (hq : [.links] ⊆ ps)
    (h : Moves as ps s0 s) : Moves as ps s0 (State.repeatTokens s n) := by
  unfold State.repeatTokens
  repeat' first
    | with_reducible assumption
    | with_reducible apply Moves.refl
    | with_reducible apply State.sendByp_moves
    | with_reducible apply Moves.ite
    | (with_reducible apply Moves.inSub hq; decide)
    | with_reducible apply Moves.each
    | with_reducible apply Moves.foldl
    | with_reducible intro _
    | (with_reducible apply List.Subset.trans ?_ hq; decide)
    | split
    | dsimp only

theorem State.onUp_moves (s : State) (n : Nat)
    (ha : [.forme, .pair, .events] ⊆ as)
    (hq : [.links] ⊆ ps)
    (h : Moves as ps s0 s) : Moves as ps s0 (State.onUp s n) := by
  unfold State.onUp
  repeat' first
    | with_reducible assumption
    | with_reducible apply Moves.refl
    | with_reducible apply State.sendEdition_moves
    | with_reducible apply State.repeatTokens_moves
    | with_reducible apply State.refreshPair_moves
    | with_reducible apply State.mirrorBack_moves
    | with_reducible apply State.sendHello_moves
    | with_reducible apply Moves.ite
    | (with_reducible apply Moves.inSub ha; decide)
    | (with_reducible apply Moves.inSub hq; decide)
    | with_reducible apply Moves.foldl
    | with_reducible intro _
    | (with_reducible apply List.Subset.trans ?_ ha; decide)
    | (with_reducible apply List.Subset.trans ?_ hq; decide)
    | split
    | dsimp only

theorem State.enterUp_moves (s : State) (n : Nat) (t : Nat)
    (ha : [.forme, .pair, .events, .cal, .ddl, .oe, .lnk, .lsu] ⊆ as)
    (hq : [.calJobs, .calRuns, .swaps, .spareNeeds, .links] ⊆ ps)
    (h : Moves as ps s0 s) : Moves as ps s0 (State.enterUp s n t) := by
  unfold State.enterUp
  repeat' first
    | with_reducible assumption
    | with_reducible apply Moves.refl
    | with_reducible apply State.restart_moves
    | with_reducible apply State.takeMembers_moves
    | with_reducible apply State.issueNext_moves
    | with_reducible apply State.setLink_moves
    | with_reducible apply State.onUp_moves
    | with_reducible apply State.setEnd_moves
    | with_reducible apply State.swapNext_moves
    | with_reducible apply State.upSpares_moves
    | with_reducible apply State.tryCal_moves
    | with_reducible apply Moves.wr
    | with_reducible apply Moves.ite
    | (with_reducible apply Moves.inSub ha; decide)
    | (with_reducible apply Moves.inSub hq; decide)
    | with_reducible apply Moves.each
    | with_reducible apply Moves.foldl
    | with_reducible intro _
    | (with_reducible apply List.Subset.trans ?_ ha; decide)
    | (with_reducible apply List.Subset.trans ?_ hq; decide)
    | split
    | dsimp only

theorem State.mismatch_moves (s : State) (n : Nat)
    (ha : [.events, .cal, .ddl, .oe, .lnk, .lsu] ⊆ as)
    (hq : [.calJobs, .swaps, .links] ⊆ ps)
    (h : Moves as ps s0 s) : Moves as ps s0 (State.mismatch s n) := by
  unfold State.mismatch
  repeat' first
    | with_reducible assumption
    | with_reducible apply Moves.refl
    | with_reducible apply State.darkLanes_moves
    | with_reducible apply State.setEnd_moves
    | with_reducible apply State.setLink_moves
    | with_reducible apply Moves.ite
    | (with_reducible apply Moves.inSub ha; decide)
    | (with_reducible apply Moves.inSub hq; decide)
    | with_reducible apply Moves.foldl
    | with_reducible intro _
    | (with_reducible apply List.Subset.trans ?_ ha; decide)
    | (with_reducible apply List.Subset.trans ?_ hq; decide)
    | split
    | dsimp only

theorem execAlignComplete_moves (n : Nat) (t : Nat) (s : State)
    (ha : [.tick, .events, .cal, .ddl, .oe, .lnk, .lsu] ⊆ as)
    (hq : [.calJobs, .swaps, .links] ⊆ ps)
    (h : Moves as ps s0 s) : ResMoves as ps s0 (execAlignComplete n t s) := by
  unfold execAlignComplete
  repeat' first
    | with_reducible assumption
    | with_reducible apply Moves.refl
    | with_reducible apply State.atEnd_moves
    | with_reducible apply State.setEnd_moves
    | with_reducible apply State.setLink_moves
    | with_reducible apply Moves.ite
    | with_reducible apply ResMoves.next
    | with_reducible apply ResMoves.fault
    | with_reducible apply ResMoves.refused
    | with_reducible apply ResMoves.ite
    | (with_reducible apply Moves.inSub ha; decide)
    | (with_reducible apply Moves.inSub hq; decide)
    | with_reducible apply Moves.foldl
    | with_reducible intro _
    | (with_reducible apply List.Subset.trans ?_ ha; decide)
    | (with_reducible apply List.Subset.trans ?_ hq; decide)
    | split
    | dsimp only

theorem execPeerLcDetected_moves (n : Nat) (t : Nat) (s : State)
    (ha : [.tick, .events, .cal, .ddl, .oe, .lnk, .lsu] ⊆ as)
    (hq : [.calJobs, .swaps, .links] ⊆ ps)
    (h : Moves as ps s0 s) : ResMoves as ps s0 (execPeerLcDetected n t s) := by
  unfold execPeerLcDetected
  repeat' first
    | with_reducible assumption
    | with_reducible apply Moves.refl
    | with_reducible apply State.atPort_moves
    | with_reducible apply State.toClock_moves
    | with_reducible apply Moves.wr
    | with_reducible apply Moves.ite
    | with_reducible apply ResMoves.next
    | with_reducible apply ResMoves.fault
    | with_reducible apply ResMoves.refused
    | with_reducible apply ResMoves.ite
    | (with_reducible apply Moves.inSub ha; decide)
    | (with_reducible apply Moves.inSub hq; decide)
    | with_reducible apply Moves.foldl
    | with_reducible intro _
    | (with_reducible apply List.Subset.trans ?_ ha; decide)
    | (with_reducible apply List.Subset.trans ?_ hq; decide)
    | split
    | dsimp only

theorem State.beginRetrain_moves (s : State) (n : Nat) (t : Nat)
    (ha : [.events, .cal, .oe, .lnk, .lsu] ⊆ as)
    (hq : [.calJobs, .swaps, .links] ⊆ ps)
    (h : Moves as ps s0 s) : Moves as ps s0 (State.beginRetrain s n t) := by
  unfold State.beginRetrain
  repeat' first
    | with_reducible assumption
    | with_reducible apply Moves.refl
    | with_reducible apply State.setPort_moves
    | with_reducible apply State.setLink_moves
    | with_reducible apply Moves.ite
    | (with_reducible apply Moves.inSub ha; decide)
    | (with_reducible apply Moves.inSub hq; decide)
    | with_reducible apply Moves.foldl
    | with_reducible intro _
    | (with_reducible apply List.Subset.trans ?_ ha; decide)
    | (with_reducible apply List.Subset.trans ?_ hq; decide)
    | split
    | dsimp only

theorem execRetrain_moves (n : Nat) (t : Nat) (s : State)
    (ha : [.tick, .events, .cal, .oe, .lnk, .lsu] ⊆ as)
    (hq : [.calJobs, .swaps, .links] ⊆ ps)
    (h : Moves as ps s0 s) : ResMoves as ps s0 (execRetrain n t s) := by
  unfold execRetrain
  repeat' first
    | with_reducible assumption
    | with_reducible apply Moves.refl
    | with_reducible apply State.atPort_moves
    | with_reducible apply State.beginRetrain_moves
    | with_reducible apply State.issueFirst_moves
    | with_reducible apply Moves.ite
    | with_reducible apply ResMoves.next
    | with_reducible apply ResMoves.fault
    | with_reducible apply ResMoves.refused
    | with_reducible apply ResMoves.ite
    | (with_reducible apply Moves.inSub ha; decide)
    | (with_reducible apply Moves.inSub hq; decide)
    | with_reducible apply Moves.foldl
    | with_reducible intro _
    | (with_reducible apply List.Subset.trans ?_ ha; decide)
    | (with_reducible apply List.Subset.trans ?_ hq; decide)
    | split
    | dsimp only

theorem State.atLane_moves (s : State) (n : Nat) (i : Nat) (t : Nat) (run : State → State)
    (ha : [.tick] ⊆ as)
    (hr : ∀ x0, Moves as ps s0 x0 → Moves as ps s0 (run x0))
    (h : Moves as ps s0 s) : ResMoves as ps s0 (State.atLane s n i t run) := by
  unfold State.atLane
  repeat' first
    | with_reducible assumption
    | with_reducible apply Moves.refl
    | with_reducible apply State.stamp_moves
    | with_reducible apply Moves.ite
    | with_reducible apply ResMoves.next
    | with_reducible apply ResMoves.fault
    | with_reducible apply ResMoves.refused
    | with_reducible apply ResMoves.ite
    | (with_reducible apply Moves.inSub ha; decide)
    | with_reducible apply Moves.foldl
    | with_reducible apply hr
    | with_reducible intro _
    | (with_reducible apply List.Subset.trans ?_ ha; decide)
    | split
    | dsimp only

theorem State.blockFault_moves (s : State) (n : Nat) (i : Nat) (t : Nat)
    (ha : [.imp, .forme, .fab, .pair, .pwr, .core, .events, .cal, .gal, .cmp, .col, .ddl, .gst, .prs, .oe, .lnk, .lsu] ⊆ as)
    (hq : [.presses, .jobs, .lateXfers, .drains, .mgtLast, .calJobs, .calRuns, .swaps, .spareNeeds, .links, .relays, .mgtJobs, .out, .freeCount] ⊆ ps)
    (h : Moves as ps s0 s) : Moves as ps s0 (State.blockFault s n i t) := by
  unfold State.blockFault
  repeat' first
    | with_reducible assumption
    | with_reducible apply Moves.refl
    | with_reducible apply State.setLink_moves
    | with_reducible apply State.count_moves
    | with_reducible apply State.ddlCount_moves
    | with_reducible apply State.markSeen_moves
    | with_reducible apply State.laneMoved_moves
    | with_reducible apply State.setLane_moves
    | with_reducible apply State.sendByp_moves
    | with_reducible apply State.retireRx_moves
    | with_reducible apply State.checkWidth_moves
    | with_reducible apply State.dieLaneLost_moves
    | with_reducible apply Moves.wr
    | with_reducible apply Moves.ite
    | (with_reducible apply Moves.inSub ha; decide)
    | (with_reducible apply Moves.inSub hq; decide)
    | with_reducible apply Moves.foldl
    | with_reducible intro _
    | (with_reducible apply List.Subset.trans ?_ ha; decide)
    | (with_reducible apply List.Subset.trans ?_ hq; decide)
    | split
    | dsimp only

theorem execBlockError_moves (n : Nat) (i : Nat) (prev : Sys2Proof.LaneBlock) (b : Sys2Proof.LaneBlock) (t : Nat) (s : State)
    (ha : [.tick, .imp, .forme, .fab, .pair, .pwr, .core, .events, .cal, .gal, .cmp, .col, .ddl, .gst, .prs, .oe, .lnk, .lsu] ⊆ as)
    (hq : [.presses, .jobs, .lateXfers, .drains, .mgtLast, .calJobs, .calRuns, .swaps, .spareNeeds, .links, .relays, .mgtJobs, .out, .freeCount] ⊆ ps)
    (h : Moves as ps s0 s) : ResMoves as ps s0 (execBlockError n i prev b t s) := by
  unfold execBlockError
  repeat' first
    | with_reducible assumption
    | with_reducible apply Moves.refl
    | with_reducible apply State.atLane_moves
    | with_reducible apply State.blockFault_moves
    | with_reducible apply Moves.ite
    | with_reducible apply ResMoves.next
    | with_reducible apply ResMoves.fault
    | with_reducible apply ResMoves.refused
    | with_reducible apply ResMoves.ite
    | (with_reducible apply Moves.inSub ha; decide)
    | (with_reducible apply Moves.inSub hq; decide)
    | with_reducible apply Moves.foldl
    | with_reducible intro _
    | (with_reducible apply List.Subset.trans ?_ ha; decide)
    | (with_reducible apply List.Subset.trans ?_ hq; decide)
    | split
    | dsimp only

theorem execLaneLock_moves (n : Nat) (i : Nat) (t : Nat) (s : State)
    (ha : [.tick, .lnk] ⊆ as)
    (hq : [.links] ⊆ ps)
    (h : Moves as ps s0 s) : ResMoves as ps s0 (execLaneLock n i t s) := by
  unfold execLaneLock
  repeat' first
    | with_reducible assumption
    | with_reducible apply Moves.refl
    | with_reducible apply State.atLane_moves
    | with_reducible apply State.setLane_moves
    | with_reducible apply Moves.ite
    | with_reducible apply ResMoves.next
    | with_reducible apply ResMoves.fault
    | with_reducible apply ResMoves.refused
    | with_reducible apply ResMoves.ite
    | (with_reducible apply Moves.inSub ha; decide)
    | (with_reducible apply Moves.inSub hq; decide)
    | with_reducible apply Moves.foldl
    | with_reducible intro _
    | (with_reducible apply List.Subset.trans ?_ ha; decide)
    | (with_reducible apply List.Subset.trans ?_ hq; decide)
    | split
    | dsimp only

theorem execPoll_moves (n : Nat) (t : Nat) (s : State)
    (ha : [.tick, .oe] ⊆ as)
    (h : Moves as ps s0 s) : ResMoves as ps s0 (execPoll n t s) := by
  unfold execPoll
  repeat' first
    | with_reducible assumption
    | with_reducible apply Moves.refl
    | with_reducible apply State.atPort_moves
    | with_reducible apply Moves.wr
    | with_reducible apply Moves.ite
    | with_reducible apply ResMoves.next
    | with_reducible apply ResMoves.fault
    | with_reducible apply ResMoves.refused
    | with_reducible apply ResMoves.ite
    | (with_reducible apply Moves.inSub ha; decide)
    | with_reducible apply Moves.foldl
    | with_reducible intro _
    | (with_reducible apply List.Subset.trans ?_ ha; decide)
    | split
    | dsimp only

theorem execLossOfLock_moves (n : Nat) (i : Nat) (t : Nat) (s : State)
    (ha : [.tick, .lnk] ⊆ as)
    (hq : [.links] ⊆ ps)
    (h : Moves as ps s0 s) : ResMoves as ps s0 (execLossOfLock n i t s) := by
  unfold execLossOfLock
  repeat' first
    | with_reducible assumption
    | with_reducible apply Moves.refl
    | with_reducible apply State.atLane_moves
    | with_reducible apply State.setLane_moves
    | with_reducible apply Moves.ite
    | with_reducible apply ResMoves.next
    | with_reducible apply ResMoves.fault
    | with_reducible apply ResMoves.refused
    | with_reducible apply ResMoves.ite
    | (with_reducible apply Moves.inSub ha; decide)
    | (with_reducible apply Moves.inSub hq; decide)
    | with_reducible apply Moves.foldl
    | with_reducible intro _
    | (with_reducible apply List.Subset.trans ?_ ha; decide)
    | (with_reducible apply List.Subset.trans ?_ hq; decide)
    | split
    | dsimp only

theorem State.toAlign_moves (s : State) (n : Nat) (t : Nat)
    (ha : [.events, .cal, .ddl, .oe, .lnk, .lsu] ⊆ as)
    (hq : [.calJobs, .swaps, .links] ⊆ ps)
    (h : Moves as ps s0 s) : Moves as ps s0 (State.toAlign s n t) := by
  unfold State.toAlign
  repeat' first
    | with_reducible assumption
    | with_reducible apply Moves.refl
    | with_reducible apply State.setLane_moves
    | with_reducible apply State.setLink_moves
    | with_reducible apply State.setEnd_moves
    | with_reducible apply Moves.ite
    | (with_reducible apply Moves.inSub ha; decide)
    | (with_reducible apply Moves.inSub hq; decide)
    | with_reducible apply Moves.each
    | with_reducible apply Moves.foldl
    | with_reducible intro _
    | (with_reducible apply List.Subset.trans ?_ ha; decide)
    | (with_reducible apply List.Subset.trans ?_ hq; decide)
    | split
    | dsimp only

theorem execLcLock_moves (n : Nat) (t : Nat) (s : State)
    (ha : [.tick, .events, .cal, .ddl, .oe, .lnk, .lsu] ⊆ as)
    (hq : [.calJobs, .swaps, .links] ⊆ ps)
    (h : Moves as ps s0 s) : ResMoves as ps s0 (execLcLock n t s) := by
  unfold execLcLock
  repeat' first
    | with_reducible assumption
    | with_reducible apply Moves.refl
    | with_reducible apply State.atPort_moves
    | with_reducible apply State.toAlign_moves
    | with_reducible apply Moves.wr
    | with_reducible apply Moves.ite
    | with_reducible apply ResMoves.next
    | with_reducible apply ResMoves.fault
    | with_reducible apply ResMoves.refused
    | with_reducible apply ResMoves.ite
    | (with_reducible apply Moves.inSub ha; decide)
    | (with_reducible apply Moves.inSub hq; decide)
    | with_reducible apply Moves.foldl
    | with_reducible intro _
    | (with_reducible apply List.Subset.trans ?_ ha; decide)
    | (with_reducible apply List.Subset.trans ?_ hq; decide)
    | split
    | dsimp only

theorem execTrainingRetry_moves (n : Nat) (t : Nat) (s : State)
    (ha : [.tick, .events, .cal, .ddl, .oe, .lnk, .lsu] ⊆ as)
    (hq : [.calJobs, .swaps, .links] ⊆ ps)
    (h : Moves as ps s0 s) : ResMoves as ps s0 (execTrainingRetry n t s) := by
  unfold execTrainingRetry
  repeat' first
    | with_reducible assumption
    | with_reducible apply Moves.refl
    | with_reducible apply State.atEnd_moves
    | with_reducible apply State.setLink_moves
    | with_reducible apply State.toAlign_moves
    | with_reducible apply Moves.ite
    | with_reducible apply ResMoves.next
    | with_reducible apply ResMoves.fault
    | with_reducible apply ResMoves.refused
    | with_reducible apply ResMoves.ite
    | (with_reducible apply Moves.inSub ha; decide)
    | (with_reducible apply Moves.inSub hq; decide)
    | with_reducible apply Moves.foldl
    | with_reducible intro _
    | (with_reducible apply List.Subset.trans ?_ ha; decide)
    | (with_reducible apply List.Subset.trans ?_ hq; decide)
    | split
    | dsimp only

theorem State.roundTrip_moves (s : State) (n : Nat) (stamp : Nat)
    (ha : [.lnk] ⊆ as)
    (hq : [.links] ⊆ ps)
    (h : Moves as ps s0 s) : Moves as ps s0 (State.roundTrip s n stamp) := by
  unfold State.roundTrip
  repeat' first
    | with_reducible assumption
    | with_reducible apply Moves.refl
    | with_reducible apply State.setLink_moves
    | with_reducible apply Moves.wr
    | with_reducible apply Moves.ite
    | (with_reducible apply Moves.inSub ha; decide)
    | (with_reducible apply Moves.inSub hq; decide)
    | with_reducible apply Moves.foldl
    | with_reducible intro _
    | (with_reducible apply List.Subset.trans ?_ ha; decide)
    | (with_reducible apply List.Subset.trans ?_ hq; decide)
    | split
    | dsimp only

theorem State.sendTrain_moves (s : State) (n : Nat) (lane : Nat)
    (ha : [.lnk] ⊆ as)
    (hq : [.links, .out] ⊆ ps)
    (h : Moves as ps s0 s) : Moves as ps s0 (State.sendTrain s n lane) := by
  unfold State.sendTrain
  repeat' first
    | with_reducible assumption
    | with_reducible apply Moves.refl
    | with_reducible apply State.setLink_moves
    | with_reducible apply State.send_moves
    | with_reducible apply State.emit_moves
    | with_reducible apply Moves.wr
    | with_reducible apply Moves.ite
    | (with_reducible apply Moves.inSub ha; decide)
    | (with_reducible apply Moves.inSub hq; decide)
    | with_reducible apply Moves.foldl
    | with_reducible intro _
    | (with_reducible apply List.Subset.trans ?_ ha; decide)
    | (with_reducible apply List.Subset.trans ?_ hq; decide)
    | split
    | dsimp only

theorem execPollEnd_moves (n : Nat) (t : Nat) (s : State)
    (ha : [.tick, .oe] ⊆ as)
    (h : Moves as ps s0 s) : ResMoves as ps s0 (execPollEnd n t s) := by
  unfold execPollEnd
  repeat' first
    | with_reducible assumption
    | with_reducible apply Moves.refl
    | with_reducible apply State.atPort_moves
    | with_reducible apply Moves.wr
    | with_reducible apply Moves.ite
    | with_reducible apply ResMoves.next
    | with_reducible apply ResMoves.fault
    | with_reducible apply ResMoves.refused
    | with_reducible apply ResMoves.ite
    | (with_reducible apply Moves.inSub ha; decide)
    | with_reducible apply Moves.foldl
    | with_reducible intro _
    | (with_reducible apply List.Subset.trans ?_ ha; decide)
    | split
    | dsimp only

theorem State.ident_moves (s : State) (n : Nat) (w : Sys2Proof.TrainWord)
    (ha : [.events, .cal, .ddl, .oe, .lnk, .lsu] ⊆ as)
    (hq : [.calJobs, .swaps, .links] ⊆ ps)
    (h : Moves as ps s0 s) : Moves as ps s0 (State.ident s n w) := by
  unfold State.ident
  repeat' first
    | with_reducible assumption
    | with_reducible apply Moves.refl
    | with_reducible apply State.setLink_moves
    | with_reducible apply State.mismatch_moves
    | with_reducible apply State.roundTrip_moves
    | with_reducible apply State.ddlWr_moves
    | with_reducible apply Moves.wr
    | with_reducible apply Moves.ite
    | (with_reducible apply Moves.inSub ha; decide)
    | (with_reducible apply Moves.inSub hq; decide)
    | with_reducible apply Moves.foldl
    | with_reducible intro _
    | (with_reducible apply List.Subset.trans ?_ ha; decide)
    | (with_reducible apply List.Subset.trans ?_ hq; decide)
    | split
    | dsimp only

theorem execTrain_moves (n : Nat) (w : Sys2Proof.TrainWord) (t : Nat) (s : State)
    (ha : [.tick, .events, .cal, .ddl, .oe, .lnk, .lsu] ⊆ as)
    (hq : [.calJobs, .swaps, .links] ⊆ ps)
    (h : Moves as ps s0 s) : ResMoves as ps s0 (execTrain n w t s) := by
  unfold execTrain
  repeat' first
    | with_reducible assumption
    | with_reducible apply Moves.refl
    | with_reducible apply State.atEnd_moves
    | with_reducible apply State.setLink_moves
    | with_reducible apply State.ident_moves
    | with_reducible apply Moves.ite
    | with_reducible apply ResMoves.next
    | with_reducible apply ResMoves.fault
    | with_reducible apply ResMoves.refused
    | with_reducible apply ResMoves.ite
    | (with_reducible apply Moves.inSub ha; decide)
    | (with_reducible apply Moves.inSub hq; decide)
    | with_reducible apply Moves.foldl
    | with_reducible intro _
    | (with_reducible apply List.Subset.trans ?_ ha; decide)
    | (with_reducible apply List.Subset.trans ?_ hq; decide)
    | split
    | dsimp only

end Sys2Proof.Machine
end

