-- ==== Sys2Proof/Laws/MovesLinks.lean ====
section
/-!
SUPPORT. Footprints of the operations of Machine/Links.lean.
-/

namespace Sys2Proof.Machine

variable {as : List Area} {ps : List Part} {s0 : State}

theorem execLaneRetrainRetry_moves (n : Nat) (i : Nat) (t : Nat) (s : State)
    (ha : [.tick, .lnk] ⊆ as)
    (hq : [.links] ⊆ ps)
    (h : Moves as ps s0 s) : ResMoves as ps s0 (execLaneRetrainRetry n i t s) := by
  unfold execLaneRetrainRetry
  repeat' first
    | with_reducible assumption
    | with_reducible apply Moves.refl
    | with_reducible apply State.atLane_moves
    | with_reducible apply State.setLane_moves
    | with_reducible apply Moves.ite
    | with_reducible apply ResMoves.next
    | with_reducible apply ResMoves.fault
    | with_reducible apply ResMoves.refused
    | with_reducible apply ResMoves.ite
    | (with_reducible apply Moves.inSub ha; decide)
    | (with_reducible apply Moves.inSub hq; decide)
    | with_reducible apply Moves.foldl
    | with_reducible intro _
    | (with_reducible apply List.Subset.trans ?_ ha; decide)
    | (with_reducible apply List.Subset.trans ?_ hq; decide)
    | split
    | dsimp only

theorem State.startByp_moves (s : State) (n : Nat) (lane : Nat) (m : BypMsg)
    (ha : [.lnk] ⊆ as)
    (hq : [.links, .out] ⊆ ps)
    (h : Moves as ps s0 s) : Moves as ps s0 (State.startByp s n lane m) := by
  unfold State.startByp
  repeat' first
    | with_reducible assumption
    | with_reducible apply Moves.refl
    | with_reducible apply State.setLink_moves
    | with_reducible apply State.send_moves
    | with_reducible apply State.emit_moves
    | with_reducible apply Moves.ite
    | (with_reducible apply Moves.inSub ha; decide)
    | (with_reducible apply Moves.inSub hq; decide)
    | with_reducible apply Moves.foldl
    | with_reducible intro _
    | (with_reducible apply List.Subset.trans ?_ ha; decide)
    | (with_reducible apply List.Subset.trans ?_ hq; decide)
    | split
    | dsimp only

theorem State.noteStart_moves (s : State) (n : Nat) (v : Nat)
    (hq : [.links] ⊆ ps)
    (h : Moves as ps s0 s) : Moves as ps s0 (State.noteStart s n v) := by
  unfold State.noteStart
  repeat' first
    | with_reducible assumption
    | with_reducible apply Moves.refl
    | with_reducible apply State.setLink_moves
    | with_reducible apply Moves.ite
    | (with_reducible apply Moves.inSub hq; decide)
    | with_reducible apply Moves.foldl
    | with_reducible intro _
    | (with_reducible apply List.Subset.trans ?_ hq; decide)
    | split
    | dsimp only

theorem State.rewindFirst_moves (s : State) (n : Nat) (lane : Nat) (f : LFrame)
    (ha : [.lnk] ⊆ as)
    (hq : [.links, .out] ⊆ ps)
    (h : Moves as ps s0 s) : Moves as ps s0 (State.rewindFirst s n lane f) := by
  unfold State.rewindFirst
  repeat' first
    | with_reducible assumption
    | with_reducible apply Moves.refl
    | with_reducible apply State.startByp_moves
    | with_reducible apply Moves.ite
    | (with_reducible apply Moves.inSub ha; decide)
    | (with_reducible apply Moves.inSub hq; decide)
    | with_reducible apply Moves.foldl
    | with_reducible intro _
    | (with_reducible apply List.Subset.trans ?_ ha; decide)
    | (with_reducible apply List.Subset.trans ?_ hq; decide)
    | split
    | dsimp only

theorem State.startFrame_moves (s : State) (n : Nat) (lane : Nat) (f : LFrame) (again : Bool)
    (ha : [.lnk] ⊆ as)
    (hq : [.links, .out] ⊆ ps)
    (h : Moves as ps s0 s) : Moves as ps s0 (State.startFrame s n lane f again) := by
  unfold State.startFrame
  repeat' first
    | with_reducible assumption
    | with_reducible apply Moves.refl
    | with_reducible apply State.noteStart_moves
    | with_reducible apply State.rewindFirst_moves
    | with_reducible apply State.emit_moves
    | with_reducible apply State.send_moves
    | with_reducible apply Moves.ite
    | (with_reducible apply Moves.inSub ha; decide)
    | (with_reducible apply Moves.inSub hq; decide)
    | with_reducible apply Moves.foldl
    | with_reducible intro _
    | (with_reducible apply List.Subset.trans ?_ ha; decide)
    | (with_reducible apply List.Subset.trans ?_ hq; decide)
    | split
    | dsimp only

theorem State.startNew_moves (s : State) (n : Nat) (lane : Nat) (f : LFrame)
    (ha : [.fab, .gal, .lnk] ⊆ as)
    (hq : [.links, .out] ⊆ ps)
    (h : Moves as ps s0 s) : Moves as ps s0 (State.startNew s n lane f) := by
  unfold State.startNew
  repeat' first
    | with_reducible assumption
    | with_reducible apply Moves.refl
    | with_reducible apply State.setLink_moves
    | with_reducible apply State.setCredit_moves
    | with_reducible apply State.setTxNext_moves
    | with_reducible apply State.settleLink_moves
    | with_reducible apply State.startFrame_moves
    | with_reducible apply Moves.ite
    | (with_reducible apply Moves.inSub ha; decide)
    | (with_reducible apply Moves.inSub hq; decide)
    | with_reducible apply Moves.foldl
    | with_reducible intro _
    | (with_reducible apply List.Subset.trans ?_ ha; decide)
    | (with_reducible apply List.Subset.trans ?_ hq; decide)
    | split
    | dsimp only

theorem execLinkDown_moves (n : Nat) (cause : Nat) (t : Nat) (s : State)
    (ha : [.tick, .imp, .forme, .fab, .pair, .core, .events, .cal, .gal, .cmp, .col, .ddl, .gst, .prs, .oe, .lnk, .lsu] ⊆ as)
    (hq : [.presses, .jobs, .lateXfers, .drains, .mgtLast, .calJobs, .swaps, .spareNeeds, .links, .relays, .mgtJobs, .out, .freeCount] ⊆ ps)
    (h : Moves as ps s0 s) : ResMoves as ps s0 (execLinkDown n cause t s) := by
  unfold execLinkDown
  repeat' first
    | with_reducible assumption
    | with_reducible apply Moves.refl
    | with_reducible apply State.atPort_moves
    | with_reducible apply State.linkDown_moves
    | with_reducible apply Moves.ite
    | with_reducible apply ResMoves.next
    | with_reducible apply ResMoves.fault
    | with_reducible apply ResMoves.refused
    | with_reducible apply ResMoves.ite
    | (with_reducible apply Moves.inSub ha; decide)
    | (with_reducible apply Moves.inSub hq; decide)
    | with_reducible apply Moves.foldl
    | with_reducible intro _
    | (with_reducible apply List.Subset.trans ?_ ha; decide)
    | (with_reducible apply List.Subset.trans ?_ hq; decide)
    | split
    | dsimp only

theorem execMarkJoin_moves (n : Nat) (lane : Nat) (t : Nat) (s : State)
    (ha : [.tick, .lnk] ⊆ as)
    (hq : [.links] ⊆ ps)
    (h : Moves as ps s0 s) : ResMoves as ps s0 (execMarkJoin n lane t s) := by
  unfold execMarkJoin
  repeat' first
    | with_reducible assumption
    | with_reducible apply Moves.refl
    | with_reducible apply State.atLane_moves
    | with_reducible apply State.markSeen_moves
    | with_reducible apply State.setLane_moves
    | with_reducible apply State.setLink_moves
    | with_reducible apply Moves.wr
    | with_reducible apply Moves.ite
    | with_reducible apply ResMoves.next
    | with_reducible apply ResMoves.fault
    | with_reducible apply ResMoves.refused
    | with_reducible apply ResMoves.ite
    | (with_reducible apply Moves.inSub ha; decide)
    | (with_reducible apply Moves.inSub hq; decide)
    | with_reducible apply Moves.foldl
    | with_reducible intro _
    | (with_reducible apply List.Subset.trans ?_ ha; decide)
    | (with_reducible apply List.Subset.trans ?_ hq; decide)
    | split
    | dsimp only

theorem State.quiesceCheck_moves (s : State) (n : Nat)
    (ha : [.fab] ⊆ as)
    (hq : [.links] ⊆ ps)
    (h : Moves as ps s0 s) : Moves as ps s0 (State.quiesceCheck s n) := by
  unfold State.quiesceCheck
  repeat' first
    | with_reducible assumption
    | with_reducible apply Moves.refl
    | with_reducible apply State.sendByp_moves
    | with_reducible apply State.setLink_moves
    | with_reducible apply Moves.wr
    | with_reducible apply Moves.ite
    | (with_reducible apply Moves.inSub ha; decide)
    | (with_reducible apply Moves.inSub hq; decide)
    | with_reducible apply Moves.foldl
    | with_reducible intro _
    | (with_reducible apply List.Subset.trans ?_ ha; decide)
    | (with_reducible apply List.Subset.trans ?_ hq; decide)
    | split
    | dsimp only

theorem State.byp_moves (s : State) (n : Nat) (b : Sys2Proof.Byp) (kind : Nat) (arg : Nat) (t : Nat) (run : State → State)
    (ha : [.tick, .fab, .gal, .lnk] ⊆ as)
    (hq : [.links] ⊆ ps)
    (hr : ∀ x0, Moves as ps s0 x0 → Moves as ps s0 (run x0))
    (h : Moves as ps s0 s) : ResMoves as ps s0 (State.byp s n b kind arg t run) := by
  unfold State.byp
  repeat' first
    | with_reducible assumption
    | with_reducible apply Moves.refl
    | with_reducible apply State.atEnd_moves
    | with_reducible apply State.quiesceCheck_moves
    | with_reducible apply State.ackRx_moves
    | with_reducible apply State.count_moves
    | with_reducible apply Moves.ite
    | with_reducible apply ResMoves.next
    | with_reducible apply ResMoves.fault
    | with_reducible apply ResMoves.refused
    | with_reducible apply ResMoves.ite
    | (with_reducible apply Moves.inSub ha; decide)
    | (with_reducible apply Moves.inSub hq; decide)
    | with_reducible apply Moves.foldl
    | with_reducible apply hr
    | with_reducible intro _
    | (with_reducible apply List.Subset.trans ?_ ha; decide)
    | (with_reducible apply List.Subset.trans ?_ hq; decide)
    | split
    | dsimp only

theorem State.laneRequest_moves (s : State) (n : Nat) (b : Sys2Proof.Byp) (ident : Nat) (lane : Nat) (action : Nat) (t : Nat) (run : State → State)
    (ha : [.tick, .fab, .gal, .lnk] ⊆ as)
    (hq : [.links] ⊆ ps)
    (hr : ∀ x0, Moves as ps s0 x0 → Moves as ps s0 (run x0))
    (h : Moves as ps s0 s) : ResMoves as ps s0 (State.laneRequest s n b ident lane action t run) := by
  unfold State.laneRequest
  repeat' first
    | with_reducible assumption
    | with_reducible apply Moves.refl
    | with_reducible apply State.byp_moves
    | with_reducible apply State.receiveReq_moves
    | with_reducible apply Moves.ite
    | with_reducible apply ResMoves.next
    | with_reducible apply ResMoves.fault
    | with_reducible apply ResMoves.refused
    | with_reducible apply ResMoves.ite
    | (with_reducible apply Moves.inSub ha; decide)
    | (with_reducible apply Moves.inSub hq; decide)
    | with_reducible apply Moves.foldl
    | with_reducible apply hr
    | with_reducible intro _
    | (with_reducible apply List.Subset.trans ?_ ha; decide)
    | (with_reducible apply List.Subset.trans ?_ hq; decide)
    | split
    | dsimp only

theorem execSpareIn_moves (n : Nat) (b : Sys2Proof.Byp) (ident : Nat) (lane : Nat) (t : Nat) (s : State)
    (ha : [.tick, .fab, .cal, .gal, .oe, .lnk] ⊆ as)
    (hq : [.calJobs, .calRuns, .links] ⊆ ps)
    (h : Moves as ps s0 s) : ResMoves as ps s0 (execSpareIn n b ident lane t s) := by
  unfold execSpareIn
  repeat' first
    | with_reducible assumption
    | with_reducible apply Moves.refl
    | with_reducible apply State.laneRequest_moves
    | with_reducible apply State.retireFibreLane_moves
    | with_reducible apply State.mark_moves
    | with_reducible apply State.preemptCal_moves
    | with_reducible apply State.putSpare_moves
    | with_reducible apply State.retireSpare_moves
    | with_reducible apply Moves.ite
    | with_reducible apply ResMoves.next
    | with_reducible apply ResMoves.fault
    | with_reducible apply ResMoves.refused
    | with_reducible apply ResMoves.ite
    | (with_reducible apply Moves.inSub ha; decide)
    | (with_reducible apply Moves.inSub hq; decide)
    | with_reducible apply Moves.foldl
    | with_reducible intro _
    | (with_reducible apply List.Subset.trans ?_ ha; decide)
    | (with_reducible apply List.Subset.trans ?_ hq; decide)
    | split
    | dsimp only

theorem execMarkLeave_moves (n : Nat) (lane : Nat) (t : Nat) (s : State)
    (ha : [.tick, .imp, .forme, .fab, .pair, .core, .events, .cal, .gal, .cmp, .col, .ddl, .gst, .prs, .oe, .lnk, .lsu] ⊆ as)
    (hq : [.presses, .jobs, .lateXfers, .drains, .mgtLast, .calJobs, .swaps, .spareNeeds, .links, .relays, .mgtJobs, .out, .freeCount] ⊆ ps)
    (h : Moves as ps s0 s) : ResMoves as ps s0 (execMarkLeave n lane t s) := by
  unfold execMarkLeave
  repeat' first
    | with_reducible assumption
    | with_reducible apply Moves.refl
    | with_reducible apply State.atLane_moves
    | with_reducible apply State.markSeen_moves
    | with_reducible apply State.setLane_moves
    | with_reducible apply State.checkWidth_moves
    | with_reducible apply State.laneMoved_moves
    | with_reducible apply State.groupFields_moves
    | with_reducible apply State.setLink_moves
    | with_reducible apply Moves.ite
    | with_reducible apply ResMoves.next
    | with_reducible apply ResMoves.fault
    | with_reducible apply ResMoves.refused
    | with_reducible apply ResMoves.ite
    | (with_reducible apply Moves.inSub ha; decide)
    | (with_reducible apply Moves.inSub hq; decide)
    | with_reducible apply Moves.foldl
    | with_reducible intro _
    | (with_reducible apply List.Subset.trans ?_ ha; decide)
    | (with_reducible apply List.Subset.trans ?_ hq; decide)
    | split
    | dsimp only

theorem State.startIdle_moves (s : State) (n : Nat) (lane : Nat)
    (ha : [.lnk] ⊆ as)
    (hq : [.out] ⊆ ps)
    (h : Moves as ps s0 s) : Moves as ps s0 (State.startIdle s n lane) := by
  unfold State.startIdle
  repeat' first
    | with_reducible assumption
    | with_reducible apply Moves.refl
    | with_reducible apply State.send_moves
    | with_reducible apply State.emit_moves
    | with_reducible apply Moves.ite
    | (with_reducible apply Moves.inSub ha; decide)
    | (with_reducible apply Moves.inSub hq; decide)
    | with_reducible apply Moves.foldl
    | with_reducible intro _
    | (with_reducible apply List.Subset.trans ?_ ha; decide)
    | (with_reducible apply List.Subset.trans ?_ hq; decide)
    | split
    | dsimp only

theorem execRequestRepeat_moves (n : Nat) (t : Nat) (s : State)
    (ha : [.tick, .lnk] ⊆ as)
    (hq : [.links] ⊆ ps)
    (h : Moves as ps s0 s) : ResMoves as ps s0 (execRequestRepeat n t s) := by
  unfold execRequestRepeat
  repeat' first
    | with_reducible assumption
    | with_reducible apply Moves.refl
    | with_reducible apply State.atEnd_moves
    | with_reducible apply State.sendByp_moves
    | with_reducible apply State.setLink_moves
    | with_reducible apply State.issueNext_moves
    | with_reducible apply State.count_moves
    | with_reducible apply Moves.ite
    | with_reducible apply ResMoves.next
    | with_reducible apply ResMoves.fault
    | with_reducible apply ResMoves.refused
    | with_reducible apply ResMoves.ite
    | (with_reducible apply Moves.inSub ha; decide)
    | (with_reducible apply Moves.inSub hq; decide)
    | with_reducible apply Moves.foldl
    | with_reducible intro _
    | (with_reducible apply List.Subset.trans ?_ ha; decide)
    | (with_reducible apply List.Subset.trans ?_ hq; decide)
    | split
    | dsimp only

theorem State.startOutside_moves (s : State) (n : Nat) (lane : Nat)
    (ha : [.lnk] ⊆ as)
    (hq : [.links, .out] ⊆ ps)
    (h : Moves as ps s0 s) : Moves as ps s0 (State.startOutside s n lane) := by
  unfold State.startOutside
  repeat' first
    | with_reducible assumption
    | with_reducible apply Moves.refl
    | with_reducible apply State.startIdle_moves
    | with_reducible apply State.sendTrain_moves
    | with_reducible apply Moves.ite
    | (with_reducible apply Moves.inSub ha; decide)
    | (with_reducible apply Moves.inSub hq; decide)
    | with_reducible apply Moves.foldl
    | with_reducible intro _
    | (with_reducible apply List.Subset.trans ?_ ha; decide)
    | (with_reducible apply List.Subset.trans ?_ hq; decide)
    | split
    | dsimp only

theorem State.stopLane_moves (s : State) (n : Nat) (lane : Nat) (t : Nat)
    (ha : [.events, .cal, .ddl, .oe, .lnk, .lsu] ⊆ as)
    (hq : [.calJobs, .swaps, .links, .out] ⊆ ps)
    (h : Moves as ps s0 s) : Moves as ps s0 (State.stopLane s n lane t) := by
  unfold State.stopLane
  repeat' first
    | with_reducible assumption
    | with_reducible apply Moves.refl
    | with_reducible apply State.startOutside_moves
    | with_reducible apply State.setLink_moves
    | with_reducible apply State.toAlign_moves
    | with_reducible apply Moves.ite
    | (with_reducible apply Moves.inSub ha; decide)
    | (with_reducible apply Moves.inSub hq; decide)
    | with_reducible apply Moves.foldl
    | with_reducible intro _
    | (with_reducible apply List.Subset.trans ?_ ha; decide)
    | (with_reducible apply List.Subset.trans ?_ hq; decide)
    | split
    | dsimp only

theorem execWidthAck_moves (n : Nat) (b : Sys2Proof.Byp) (arg : Nat) (t : Nat) (s : State)
    (ha : [.tick, .fab, .gal, .lnk] ⊆ as)
    (hq : [.links] ⊆ ps)
    (h : Moves as ps s0 s) : ResMoves as ps s0 (execWidthAck n b arg t s) := by
  unfold execWidthAck
  repeat' first
    | with_reducible assumption
    | with_reducible apply Moves.refl
    | with_reducible apply State.byp_moves
    | with_reducible apply State.receiveAck_moves
    | with_reducible apply Moves.ite
    | with_reducible apply ResMoves.next
    | with_reducible apply ResMoves.fault
    | with_reducible apply ResMoves.refused
    | with_reducible apply ResMoves.ite
    | (with_reducible apply Moves.inSub ha; decide)
    | (with_reducible apply Moves.inSub hq; decide)
    | with_reducible apply Moves.foldl
    | with_reducible intro _
    | (with_reducible apply List.Subset.trans ?_ ha; decide)
    | (with_reducible apply List.Subset.trans ?_ hq; decide)
    | split
    | dsimp only

theorem execAckTimer_moves (n : Nat) (vc : Nat) (t : Nat) (s : State)
    (ha : [.tick] ⊆ as)
    (hq : [.links] ⊆ ps)
    (h : Moves as ps s0 s) : ResMoves as ps s0 (execAckTimer n vc t s) := by
  unfold execAckTimer
  repeat' first
    | with_reducible assumption
    | with_reducible apply Moves.refl
    | with_reducible apply State.atEnd_moves
    | with_reducible apply State.sendByp_moves
    | with_reducible apply Moves.ite
    | with_reducible apply ResMoves.next
    | with_reducible apply ResMoves.fault
    | with_reducible apply ResMoves.refused
    | with_reducible apply ResMoves.ite
    | (with_reducible apply Moves.inSub ha; decide)
    | (with_reducible apply Moves.inSub hq; decide)
    | with_reducible apply Moves.foldl
    | with_reducible intro _
    | (with_reducible apply List.Subset.trans ?_ ha; decide)
    | (with_reducible apply List.Subset.trans ?_ hq; decide)
    | split
    | dsimp only

theorem execReplayTimer_moves (n : Nat) (vc : Nat) (seq : Nat) (t : Nat) (s : State)
    (ha : [.tick] ⊆ as)
    (hq : [.links] ⊆ ps)
    (h : Moves as ps s0 s) : ResMoves as ps s0 (execReplayTimer n vc seq t s) := by
  unfold execReplayTimer
  repeat' first
    | with_reducible assumption
    | with_reducible apply Moves.refl
    | with_reducible apply State.atEnd_moves
    | with_reducible apply State.setLink_moves
    | with_reducible apply Moves.ite
    | with_reducible apply ResMoves.next
    | with_reducible apply ResMoves.fault
    | with_reducible apply ResMoves.refused
    | with_reducible apply ResMoves.ite
    | (with_reducible apply Moves.inSub ha; decide)
    | (with_reducible apply Moves.inSub hq; decide)
    | with_reducible apply Moves.foldl
    | with_reducible intro _
    | (with_reducible apply List.Subset.trans ?_ ha; decide)
    | (with_reducible apply List.Subset.trans ?_ hq; decide)
    | split
    | dsimp only

theorem State.vc1Answered_moves (s : State) (n : Nat) (tag : Nat) (op : Nat) (data : List Sys2Proof.Byte)
    (ha : [.core, .gst] ⊆ as)
    (hq : [.mgtLast, .links, .mgtJobs, .out] ⊆ ps)
    (h : Moves as ps s0 s) : ResMoves as ps s0 (State.vc1Answered s n tag op data) := by
  unfold State.vc1Answered
  repeat' first
    | with_reducible assumption
    | with_reducible apply Moves.refl
    | with_reducible apply State.setLink_moves
    | with_reducible apply State.vc1Fail_moves
    | with_reducible apply State.answerDone_moves
    | with_reducible apply Moves.ite
    | with_reducible apply ResMoves.next
    | with_reducible apply ResMoves.fault
    | with_reducible apply ResMoves.refused
    | with_reducible apply ResMoves.ite
    | (with_reducible apply Moves.inSub ha; decide)
    | (with_reducible apply Moves.inSub hq; decide)
    | with_reducible apply Moves.foldl
    | with_reducible intro _
    | (with_reducible apply List.Subset.trans ?_ ha; decide)
    | (with_reducible apply List.Subset.trans ?_ hq; decide)
    | split
    | dsimp only

theorem State.startBypasses_moves (s : State) (n : Nat) (lane : Nat)
    (ha : [.lnk] ⊆ as)
    (hq : [.links, .out] ⊆ ps)
    (h : Moves as ps s0 s) : Moves as ps s0 (State.startBypasses s n lane) := by
  unfold State.startBypasses
  repeat' first
    | with_reducible assumption
    | with_reducible apply Moves.refl
    | with_reducible apply State.setLink_moves
    | with_reducible apply State.startByp_moves
    | with_reducible apply Moves.wr
    | with_reducible apply Moves.ite
    | (with_reducible apply Moves.inSub ha; decide)
    | (with_reducible apply Moves.inSub hq; decide)
    | with_reducible apply Moves.each
    | with_reducible apply Moves.foldl
    | with_reducible intro _
    | (with_reducible apply List.Subset.trans ?_ ha; decide)
    | (with_reducible apply List.Subset.trans ?_ hq; decide)
    | split
    | dsimp only

theorem State.freeBuffer_moves (s : State) (n : Nat) (v : Nat)
    (hq : [.links] ⊆ ps)
    (h : Moves as ps s0 s) : Moves as ps s0 (State.freeBuffer s n v) := by
  unfold State.freeBuffer
  repeat' first
    | with_reducible assumption
    | with_reducible apply Moves.refl
    | with_reducible apply State.setLink_moves
    | with_reducible apply Moves.ite
    | (with_reducible apply Moves.inSub hq; decide)
    | with_reducible apply Moves.foldl
    | with_reducible intro _
    | (with_reducible apply List.Subset.trans ?_ hq; decide)
    | split
    | dsimp only

theorem State.relayOn_moves (s : State) (n : Nat) (r : Relay) (bs : List Sys2Proof.Byte)
    (hq : [.mem, .links, .relays] ⊆ ps)
    (h : Moves as ps s0 s) : Moves as ps s0 (State.relayOn s n r bs) := by
  unfold State.relayOn
  repeat' first
    | with_reducible assumption
    | with_reducible apply Moves.refl
    | with_reducible apply State.queueFrames_moves
    | with_reducible apply Moves.writeGal
    | with_reducible apply Moves.ite
    | (with_reducible apply Moves.inSub hq; decide)
    | with_reducible apply Moves.foldl
    | with_reducible intro _
    | (with_reducible apply List.Subset.trans ?_ hq; decide)
    | split
    | dsimp only
    | with_reducible apply Moves.set_relays

theorem State.enterSlice_moves (s : State) (n : Nat) (bs : List Sys2Proof.Byte)
    (hq : [.mem, .jobs, .out] ⊆ ps)
    (h : Moves as ps s0 s) : Moves as ps s0 (State.enterSlice s n bs) := by
  unfold State.enterSlice
  repeat' first
    | with_reducible assumption
    | with_reducible apply Moves.refl
    | with_reducible apply State.land_moves
    | with_reducible apply State.send_moves
    | with_reducible apply Moves.writeGal
    | with_reducible apply Moves.ite
    | (with_reducible apply Moves.inSub hq; decide)
    | with_reducible apply Moves.foldl
    | with_reducible intro _
    | (with_reducible apply List.Subset.trans ?_ hq; decide)
    | split
    | dsimp only

theorem State.deliverTransfer_moves (s : State) (n : Nat) (bs : List Sys2Proof.Byte)
    (hq : [.mem, .jobs, .links, .relays, .early, .out] ⊆ ps)
    (h : Moves as ps s0 s) : Moves as ps s0 (State.deliverTransfer s n bs) := by
  unfold State.deliverTransfer
  repeat' first
    | with_reducible assumption
    | with_reducible apply Moves.refl
    | with_reducible apply State.relayOn_moves
    | with_reducible apply State.enterSlice_moves
    | with_reducible apply State.queueXfer_moves
    | with_reducible apply Moves.ite
    | (with_reducible apply Moves.inSub hq; decide)
    | with_reducible apply Moves.foldl
    | with_reducible intro _
    | (with_reducible apply List.Subset.trans ?_ hq; decide)
    | split
    | dsimp only
    | with_reducible apply Moves.set_early

theorem State.deliver_moves (s : State) (n : Nat) (f : LFrame)
    (hq : [.mem, .jobs, .links, .relays, .early, .out] ⊆ ps)
    (h : Moves as ps s0 s) : Moves as ps s0 (State.deliver s n f) := by
  unfold State.deliver
  repeat' first
    | with_reducible assumption
    | with_reducible apply Moves.refl
    | with_reducible apply State.freeBuffer_moves
    | with_reducible apply State.deliverTransfer_moves
    | with_reducible apply State.setLink_moves
    | with_reducible apply State.send_moves
    | with_reducible apply Moves.ite
    | (with_reducible apply Moves.inSub hq; decide)
    | with_reducible apply Moves.foldl
    | with_reducible intro _
    | (with_reducible apply List.Subset.trans ?_ hq; decide)
    | split
    | dsimp only

theorem State.deliverReady_moves (s : State) (n : Nat) (v : Nat) (x3 : Nat)
    (ha : [.lnk] ⊆ as)
    (hq : [.mem, .jobs, .links, .relays, .early, .out] ⊆ ps)
    (h : Moves as ps s0 s) : Moves as ps s0 (State.deliverReady s n v x3) := by
  induction x3 generalizing s with
  | zero => exact h
  | succ n ih =>
    unfold State.deliverReady
    repeat' first
      | with_reducible assumption
      | with_reducible apply Moves.refl
      | with_reducible apply ih
      | with_reducible apply State.setLink_moves
      | with_reducible apply State.deliver_moves
      | with_reducible apply State.setRxExp_moves
      | with_reducible apply Moves.ite
      | (with_reducible apply Moves.inSub ha; decide)
      | (with_reducible apply Moves.inSub hq; decide)
      | with_reducible apply Moves.foldl
      | with_reducible intro _
      | (with_reducible apply List.Subset.trans ?_ ha; decide)
      | (with_reducible apply List.Subset.trans ?_ hq; decide)
      | split
      | dsimp only

theorem execVc1Error_moves (n : Nat) (tag : Nat) (s : State)
    (ha : [.core, .gst] ⊆ as)
    (hq : [.mgtLast, .links, .mgtJobs, .out] ⊆ ps)
    (h : Moves as ps s0 s) : ResMoves as ps s0 (execVc1Error n tag s) := by
  unfold execVc1Error
  repeat' first
    | with_reducible assumption
    | with_reducible apply Moves.refl
    | with_reducible apply State.vc1Answered_moves
    | with_reducible apply Moves.ite
    | with_reducible apply ResMoves.next
    | with_reducible apply ResMoves.fault
    | with_reducible apply ResMoves.refused
    | with_reducible apply ResMoves.ite
    | (with_reducible apply Moves.inSub ha; decide)
    | (with_reducible apply Moves.inSub hq; decide)
    | with_reducible apply Moves.foldl
    | with_reducible intro _
    | (with_reducible apply List.Subset.trans ?_ ha; decide)
    | (with_reducible apply List.Subset.trans ?_ hq; decide)
    | split
    | dsimp only

theorem execLaneMove_moves (n : Nat) (b : Sys2Proof.Byp) (ident : Nat) (lane : Nat) (t : Nat) (s : State)
    (ha : [.tick, .fab, .gal, .oe, .lnk] ⊆ as)
    (hq : [.links, .freeCount] ⊆ ps)
    (h : Moves as ps s0 s) : ResMoves as ps s0 (execLaneMove n b ident lane t s) := by
  unfold execLaneMove
  repeat' first
    | with_reducible assumption
    | with_reducible apply Moves.refl
    | with_reducible apply State.laneRequest_moves
    | with_reducible apply State.putSpare_moves
    | with_reducible apply Moves.free
    | with_reducible apply Moves.ite
    | with_reducible apply ResMoves.next
    | with_reducible apply ResMoves.fault
    | with_reducible apply ResMoves.refused
    | with_reducible apply ResMoves.ite
    | (with_reducible apply Moves.inSub ha; decide)
    | (with_reducible apply Moves.inSub hq; decide)
    | with_reducible apply Moves.ite_snd
    | with_reducible apply Moves.foldl
    | with_reducible intro _
    | (with_reducible apply List.Subset.trans ?_ ha; decide)
    | (with_reducible apply List.Subset.trans ?_ hq; decide)
    | split
    | dsimp only

theorem execVc1Done_moves (n : Nat) (tag : Nat) (s : State)
    (ha : [.core, .gst] ⊆ as)
    (hq : [.mgtLast, .links, .mgtJobs, .out] ⊆ ps)
    (h : Moves as ps s0 s) : ResMoves as ps s0 (execVc1Done n tag s) := by
  unfold execVc1Done
  repeat' first
    | with_reducible assumption
    | with_reducible apply Moves.refl
    | with_reducible apply State.vc1Answered_moves
    | with_reducible apply Moves.ite
    | with_reducible apply ResMoves.next
    | with_reducible apply ResMoves.fault
    | with_reducible apply ResMoves.refused
    | with_reducible apply ResMoves.ite
    | (with_reducible apply Moves.inSub ha; decide)
    | (with_reducible apply Moves.inSub hq; decide)
    | with_reducible apply Moves.foldl
    | with_reducible intro _
    | (with_reducible apply List.Subset.trans ?_ ha; decide)
    | (with_reducible apply List.Subset.trans ?_ hq; decide)
    | split
    | dsimp only

theorem State.moveRef_moves (s : State) (n : Nat) (v : Nat) (q : Nat)
    (hq : [.links] ⊆ ps)
    (h : Moves as ps s0 s) : Moves as ps s0 (State.moveRef s n v q) := by
  unfold State.moveRef
  repeat' first
    | with_reducible assumption
    | with_reducible apply Moves.refl
    | with_reducible apply State.setLink_moves
    | with_reducible apply Moves.ite
    | (with_reducible apply Moves.inSub hq; decide)
    | with_reducible apply Moves.foldl
    | with_reducible intro _
    | (with_reducible apply List.Subset.trans ?_ hq; decide)
    | split
    | dsimp only

theorem execVc1Data_moves (n : Nat) (tag : Nat) (data : List (BitVec 8)) (s : State)
    (ha : [.core, .gst] ⊆ as)
    (hq : [.mgtLast, .links, .mgtJobs, .out] ⊆ ps)
    (h : Moves as ps s0 s) : ResMoves as ps s0 (execVc1Data n tag data s) := by
  unfold execVc1Data
  repeat' first
    | with_reducible assumption
    | with_reducible apply Moves.refl
    | with_reducible apply State.vc1Answered_moves
    | with_reducible apply Moves.ite
    | with_reducible apply ResMoves.next
    | with_reducible apply ResMoves.fault
    | with_reducible apply ResMoves.refused
    | with_reducible apply ResMoves.ite
    | (with_reducible apply Moves.inSub ha; decide)
    | (with_reducible apply Moves.inSub hq; decide)
    | with_reducible apply Moves.foldl
    | with_reducible intro _
    | (with_reducible apply List.Subset.trans ?_ ha; decide)
    | (with_reducible apply List.Subset.trans ?_ hq; decide)
    | split
    | dsimp only

theorem execLaneDrop_moves (n : Nat) (b : Sys2Proof.Byp) (lane : Nat) (t : Nat) (s : State)
    (ha : [.tick, .fab, .gal, .lnk] ⊆ as)
    (hq : [.links] ⊆ ps)
    (h : Moves as ps s0 s) : ResMoves as ps s0 (execLaneDrop n b lane t s) := by
  unfold execLaneDrop
  repeat' first
    | with_reducible assumption
    | with_reducible apply Moves.refl
    | with_reducible apply State.byp_moves
    | with_reducible apply State.setLink_moves
    | with_reducible apply Moves.ite
    | with_reducible apply ResMoves.next
    | with_reducible apply ResMoves.fault
    | with_reducible apply ResMoves.refused
    | with_reducible apply ResMoves.ite
    | (with_reducible apply Moves.inSub ha; decide)
    | (with_reducible apply Moves.inSub hq; decide)
    | with_reducible apply Moves.foldl
    | with_reducible intro _
    | (with_reducible apply List.Subset.trans ?_ ha; decide)
    | (with_reducible apply List.Subset.trans ?_ hq; decide)
    | split
    | dsimp only

theorem execOtherBypassKind_moves (n : Nat) (b : Sys2Proof.Byp) (kind : Nat) (arg : Nat) (s : State)
    (ha : [.lnk] ⊆ as)
    (h : Moves as ps s0 s) : ResMoves as ps s0 (execOtherBypassKind n b kind arg s) := by
  unfold execOtherBypassKind
  repeat' first
    | with_reducible assumption
    | with_reducible apply Moves.refl
    | with_reducible apply State.count_moves
    | with_reducible apply Moves.bump
    | with_reducible apply Moves.ite
    | with_reducible apply ResMoves.next
    | with_reducible apply ResMoves.fault
    | with_reducible apply ResMoves.refused
    | with_reducible apply ResMoves.ite
    | (with_reducible apply Moves.inSub ha; decide)
    | with_reducible apply Moves.foldl
    | with_reducible intro _
    | (with_reducible apply List.Subset.trans ?_ ha; decide)
    | split
    | dsimp only

theorem State.receiveFrame_moves (s : State) (n : Nat) (f : Sys2Proof.Frame)
    (ha : [.fab, .gal, .lnk] ⊆ as)
    (hq : [.mem, .jobs, .links, .relays, .early, .out] ⊆ ps)
    (h : Moves as ps s0 s) : Moves as ps s0 (State.receiveFrame s n f) := by
  unfold State.receiveFrame
  repeat' first
    | with_reducible assumption
    | with_reducible apply Moves.refl
    | with_reducible apply State.ackRx_moves
    | with_reducible apply State.freeBuffer_moves
    | with_reducible apply State.setLink_moves
    | with_reducible apply State.deliverReady_moves
    | with_reducible apply State.moveRef_moves
    | with_reducible apply Moves.bump
    | with_reducible apply Moves.ite
    | (with_reducible apply Moves.inSub ha; decide)
    | (with_reducible apply Moves.inSub hq; decide)
    | with_reducible apply Moves.foldl
    | with_reducible intro _
    | (with_reducible apply List.Subset.trans ?_ ha; decide)
    | (with_reducible apply List.Subset.trans ?_ hq; decide)
    | split
    | dsimp only

theorem execFrame_moves (n : Nat) (f : Sys2Proof.Frame) (t : Nat) (s : State)
    (ha : [.tick, .imp, .forme, .fab, .pair, .pwr, .core, .events, .cal, .gal, .cmp, .col, .ddl, .gst, .prs, .oe, .lnk, .lsu] ⊆ as)
    (hq : [.mem, .presses, .jobs, .lateXfers, .drains, .mgtLast, .calJobs, .calRuns, .swaps, .spareNeeds, .links, .relays, .early, .mgtJobs, .out, .freeCount] ⊆ ps)
    (h : Moves as ps s0 s) : ResMoves as ps s0 (execFrame n f t s) := by
  unfold execFrame
  repeat' first
    | with_reducible assumption
    | with_reducible apply Moves.refl
    | with_reducible apply State.atEnd_moves
    | with_reducible apply State.blockFault_moves
    | with_reducible apply State.quiesceCheck_moves
    | with_reducible apply State.receiveFrame_moves
    | with_reducible apply State.count_moves
    | with_reducible apply Moves.ite
    | with_reducible apply ResMoves.next
    | with_reducible apply ResMoves.fault
    | with_reducible apply ResMoves.refused
    | with_reducible apply ResMoves.ite
    | (with_reducible apply Moves.inSub ha; decide)
    | (with_reducible apply Moves.inSub hq; decide)
    | with_reducible apply Moves.foldl
    | with_reducible intro _
    | (with_reducible apply List.Subset.trans ?_ ha; decide)
    | (with_reducible apply List.Subset.trans ?_ hq; decide)
    | split
    | dsimp only

theorem State.startResend_moves (s : State) (n : Nat) (lane : Nat) (e : LFrame × Bool)
    (ha : [.fab, .gal, .ddl, .lnk] ⊆ as)
    (hq : [.links, .out] ⊆ ps)
    (h : Moves as ps s0 s) : Moves as ps s0 (State.startResend s n lane e) := by
  unfold State.startResend
  repeat' first
    | with_reducible assumption
    | with_reducible apply Moves.refl
    | with_reducible apply State.setLink_moves
    | with_reducible apply State.ddlCount_moves
    | with_reducible apply State.count_moves
    | with_reducible apply State.setCredit_moves
    | with_reducible apply State.settleLink_moves
    | with_reducible apply State.startFrame_moves
    | with_reducible apply Moves.ite
    | (with_reducible apply Moves.inSub ha; decide)
    | (with_reducible apply Moves.inSub hq; decide)
    | with_reducible apply Moves.foldl
    | with_reducible intro _
    | (with_reducible apply List.Subset.trans ?_ ha; decide)
    | (with_reducible apply List.Subset.trans ?_ hq; decide)
    | split
    | dsimp only

theorem State.startOne_moves (s : State) (n : Nat) (lane : Nat)
    (ha : [.fab, .gal, .ddl, .lnk] ⊆ as)
    (hq : [.links, .out] ⊆ ps)
    (h : Moves as ps s0 s) : Moves as ps s0 (State.startOne s n lane) := by
  unfold State.startOne
  repeat' first
    | with_reducible assumption
    | with_reducible apply Moves.refl
    | with_reducible apply State.startIdle_moves
    | with_reducible apply State.startResend_moves
    | with_reducible apply State.startNew_moves
    | with_reducible apply Moves.wr
    | with_reducible apply Moves.ite
    | (with_reducible apply Moves.inSub ha; decide)
    | (with_reducible apply Moves.inSub hq; decide)
    | with_reducible apply Moves.foldl
    | with_reducible intro _
    | (with_reducible apply List.Subset.trans ?_ ha; decide)
    | (with_reducible apply List.Subset.trans ?_ hq; decide)
    | split
    | dsimp only

theorem State.vc1Serve_moves (s : State) (n : Nat) (r : Sys2Proof.VcReq) (data : Option (List Sys2Proof.Byte))
    (ha : [.prf, .core, .gal, .gst, .mem] ⊆ as)
    (hq : [.mem, .heldAccs, .dirtyShared, .mgtLast, .links, .repairMap, .ceLog, .mgtJobs, .dropped, .out, .freeCount] ⊆ ps)
    (h : Moves as ps s0 s) : ResMoves as ps s0 (State.vc1Serve s n r data) := by
  unfold State.vc1Serve
  repeat' first
    | with_reducible assumption
    | with_reducible apply Moves.refl
    | with_reducible apply State.vc1Reach_moves
    | with_reducible apply Moves.ite
    | with_reducible apply ResMoves.next
    | with_reducible apply ResMoves.fault
    | with_reducible apply ResMoves.refused
    | with_reducible apply ResMoves.ite
    | (with_reducible apply Moves.inSub ha; decide)
    | (with_reducible apply Moves.inSub hq; decide)
    | with_reducible apply Moves.foldl
    | with_reducible intro _
    | (with_reducible apply List.Subset.trans ?_ ha; decide)
    | (with_reducible apply List.Subset.trans ?_ hq; decide)
    | split
    | dsimp only

theorem execVc1Read_moves (n : Nat) (r : Sys2Proof.VcReq) (s : State)
    (ha : [.prf, .core, .gal, .gst, .mem] ⊆ as)
    (hq : [.mem, .heldAccs, .dirtyShared, .mgtLast, .links, .repairMap, .ceLog, .mgtJobs, .dropped, .out, .freeCount] ⊆ ps)
    (h : Moves as ps s0 s) : ResMoves as ps s0 (execVc1Read n r s) := by
  unfold execVc1Read
  repeat' first
    | with_reducible assumption
    | with_reducible apply Moves.refl
    | with_reducible apply State.vc1Serve_moves
    | with_reducible apply Moves.ite
    | with_reducible apply ResMoves.next
    | with_reducible apply ResMoves.fault
    | with_reducible apply ResMoves.refused
    | with_reducible apply ResMoves.ite
    | (with_reducible apply Moves.inSub ha; decide)
    | (with_reducible apply Moves.inSub hq; decide)
    | with_reducible apply Moves.foldl
    | with_reducible intro _
    | (with_reducible apply List.Subset.trans ?_ ha; decide)
    | (with_reducible apply List.Subset.trans ?_ hq; decide)
    | split
    | dsimp only

theorem State.sendMark_moves (s : State) (n : Nat) (m : Nat × Bool) (t : Nat)
    (ha : [.imp, .forme, .fab, .pair, .core, .events, .cal, .gal, .cmp, .col, .ddl, .gst, .prs, .oe, .lnk, .lsu] ⊆ as)
    (hq : [.presses, .jobs, .lateXfers, .drains, .mgtLast, .calJobs, .swaps, .spareNeeds, .links, .relays, .mgtJobs, .out, .freeCount] ⊆ ps)
    (h : Moves as ps s0 s) : Moves as ps s0 (State.sendMark s n m t) := by
  unfold State.sendMark
  repeat' first
    | with_reducible assumption
    | with_reducible apply Moves.refl
    | with_reducible apply State.setLink_moves
    | with_reducible apply State.send_moves
    | with_reducible apply State.emit_moves
    | with_reducible apply State.setTx_moves
    | with_reducible apply State.switchSource_moves
    | with_reducible apply State.laneMoved_moves
    | with_reducible apply State.checkWidth_moves
    | with_reducible apply State.markSeen_moves
    | with_reducible apply Moves.ite
    | (with_reducible apply Moves.inSub ha; decide)
    | (with_reducible apply Moves.inSub hq; decide)
    | with_reducible apply Moves.foldl
    | with_reducible intro _
    | (with_reducible apply List.Subset.trans ?_ ha; decide)
    | (with_reducible apply List.Subset.trans ?_ hq; decide)
    | split
    | dsimp only

theorem execTransmitStart_moves (n : Nat) (lane : Nat) (t : Nat) (s : State)
    (ha : [.tick, .imp, .forme, .fab, .pair, .core, .events, .cal, .gal, .cmp, .col, .ddl, .gst, .prs, .oe, .lnk, .lsu] ⊆ as)
    (hq : [.presses, .jobs, .lateXfers, .drains, .mgtLast, .calJobs, .calRuns, .swaps, .spareNeeds, .links, .relays, .mgtJobs, .out, .freeCount] ⊆ ps)
    (h : Moves as ps s0 s) : ResMoves as ps s0 (execTransmitStart n lane t s) := by
  unfold execTransmitStart
  repeat' first
    | with_reducible assumption
    | with_reducible apply Moves.refl
    | with_reducible apply State.atLane_moves
    | with_reducible apply State.enterUp_moves
    | with_reducible apply State.sendMark_moves
    | with_reducible apply State.startBypasses_moves
    | with_reducible apply State.stopLane_moves
    | with_reducible apply State.startOutside_moves
    | with_reducible apply State.startOne_moves
    | with_reducible apply State.sendTrain_moves
    | with_reducible apply Moves.wr
    | with_reducible apply Moves.ite
    | with_reducible apply ResMoves.next
    | with_reducible apply ResMoves.fault
    | with_reducible apply ResMoves.refused
    | with_reducible apply ResMoves.ite
    | (with_reducible apply Moves.inSub ha; decide)
    | (with_reducible apply Moves.inSub hq; decide)
    | with_reducible apply Moves.foldl
    | with_reducible intro _
    | (with_reducible apply List.Subset.trans ?_ ha; decide)
    | (with_reducible apply List.Subset.trans ?_ hq; decide)
    | split
    | dsimp only

theorem State.yieldCal_moves (s : State) (n : Nat) (lane : Nat)
    (ha : [.cal, .oe] ⊆ as)
    (hq : [.calJobs, .calRuns, .links] ⊆ ps)
    (h : Moves as ps s0 s) : Moves as ps s0 (State.yieldCal s n lane) := by
  unfold State.yieldCal
  repeat' first
    | with_reducible assumption
    | with_reducible apply Moves.refl
    | with_reducible apply State.preemptLs_moves
    | with_reducible apply State.setLink_moves
    | with_reducible apply State.putSpare_moves
    | with_reducible apply Moves.wr
    | with_reducible apply Moves.ite
    | (with_reducible apply Moves.inSub ha; decide)
    | (with_reducible apply Moves.inSub hq; decide)
    | with_reducible apply Moves.foldl
    | with_reducible intro _
    | (with_reducible apply List.Subset.trans ?_ ha; decide)
    | (with_reducible apply List.Subset.trans ?_ hq; decide)
    | split
    | dsimp only
    | with_reducible apply Moves.set_calJobs

theorem execLaneBack_moves (n : Nat) (b : Sys2Proof.Byp) (ident : Nat) (lane : Nat) (t : Nat) (s : State)
    (ha : [.tick, .fab, .gal, .oe, .lnk] ⊆ as)
    (hq : [.spareNeeds, .links] ⊆ ps)
    (h : Moves as ps s0 s) : ResMoves as ps s0 (execLaneBack n b ident lane t s) := by
  unfold execLaneBack
  repeat' first
    | with_reducible assumption
    | with_reducible apply Moves.refl
    | with_reducible apply State.laneRequest_moves
    | with_reducible apply State.freeSpare_moves
    | with_reducible apply Moves.ite
    | with_reducible apply ResMoves.next
    | with_reducible apply ResMoves.fault
    | with_reducible apply ResMoves.refused
    | with_reducible apply ResMoves.ite
    | (with_reducible apply Moves.inSub ha; decide)
    | (with_reducible apply Moves.inSub hq; decide)
    | with_reducible apply Moves.foldl
    | with_reducible intro _
    | (with_reducible apply List.Subset.trans ?_ ha; decide)
    | (with_reducible apply List.Subset.trans ?_ hq; decide)
    | split
    | dsimp only

theorem execCreditTimer_moves (n : Nat) (vc : Nat) (t : Nat) (s : State)
    (ha : [.tick] ⊆ as)
    (hq : [.links] ⊆ ps)
    (h : Moves as ps s0 s) : ResMoves as ps s0 (execCreditTimer n vc t s) := by
  unfold execCreditTimer
  repeat' first
    | with_reducible assumption
    | with_reducible apply Moves.refl
    | with_reducible apply State.atEnd_moves
    | with_reducible apply State.sendByp_moves
    | with_reducible apply Moves.ite
    | with_reducible apply ResMoves.next
    | with_reducible apply ResMoves.fault
    | with_reducible apply ResMoves.refused
    | with_reducible apply ResMoves.ite
    | (with_reducible apply Moves.inSub ha; decide)
    | (with_reducible apply Moves.inSub hq; decide)
    | with_reducible apply Moves.foldl
    | with_reducible intro _
    | (with_reducible apply List.Subset.trans ?_ ha; decide)
    | (with_reducible apply List.Subset.trans ?_ hq; decide)
    | split
    | dsimp only

theorem execLaneCleanRun_moves (n : Nat) (i : Nat) (t : Nat) (s : State)
    (ha : [.tick] ⊆ as)
    (hq : [.links] ⊆ ps)
    (h : Moves as ps s0 s) : ResMoves as ps s0 (execLaneCleanRun n i t s) := by
  unfold execLaneCleanRun
  repeat' first
    | with_reducible assumption
    | with_reducible apply Moves.refl
    | with_reducible apply State.atLane_moves
    | with_reducible apply State.laneReq_moves
    | with_reducible apply Moves.ite
    | with_reducible apply ResMoves.next
    | with_reducible apply ResMoves.fault
    | with_reducible apply ResMoves.refused
    | with_reducible apply ResMoves.ite
    | (with_reducible apply Moves.inSub ha; decide)
    | (with_reducible apply Moves.inSub hq; decide)
    | with_reducible apply Moves.foldl
    | with_reducible intro _
    | (with_reducible apply List.Subset.trans ?_ ha; decide)
    | (with_reducible apply List.Subset.trans ?_ hq; decide)
    | split
    | dsimp only

theorem execAck_moves (n : Nat) (b : Sys2Proof.Byp) (t : Nat) (s : State)
    (ha : [.tick, .fab, .gal, .lnk] ⊆ as)
    (hq : [.links] ⊆ ps)
    (h : Moves as ps s0 s) : ResMoves as ps s0 (execAck n b t s) := by
  unfold execAck
  repeat' first
    | with_reducible assumption
    | with_reducible apply Moves.refl
    | with_reducible apply State.byp_moves
    | with_reducible apply Moves.ite
    | with_reducible apply ResMoves.next
    | with_reducible apply ResMoves.fault
    | with_reducible apply ResMoves.refused
    | with_reducible apply ResMoves.ite
    | (with_reducible apply Moves.inSub ha; decide)
    | (with_reducible apply Moves.inSub hq; decide)
    | with_reducible apply Moves.foldl
    | with_reducible intro _
    | (with_reducible apply List.Subset.trans ?_ ha; decide)
    | (with_reducible apply List.Subset.trans ?_ hq; decide)
    | split
    | dsimp only
    | simp only [id_eq]

theorem execWidthReq_moves (n : Nat) (b : Sys2Proof.Byp) (ident : Nat) (mask : Nat) (t : Nat) (s : State)
    (ha : [.tick, .fab, .gal, .lnk] ⊆ as)
    (hq : [.links] ⊆ ps)
    (h : Moves as ps s0 s) : ResMoves as ps s0 (execWidthReq n b ident mask t s) := by
  unfold execWidthReq
  repeat' first
    | with_reducible assumption
    | with_reducible apply Moves.refl
    | with_reducible apply State.byp_moves
    | with_reducible apply State.receiveReq_moves
    | with_reducible apply State.mark_moves
    | with_reducible apply Moves.ite
    | with_reducible apply ResMoves.next
    | with_reducible apply ResMoves.fault
    | with_reducible apply ResMoves.refused
    | with_reducible apply ResMoves.ite
    | (with_reducible apply Moves.inSub ha; decide)
    | (with_reducible apply Moves.inSub hq; decide)
    | with_reducible apply Moves.foldl
    | with_reducible intro _
    | (with_reducible apply List.Subset.trans ?_ ha; decide)
    | (with_reducible apply List.Subset.trans ?_ hq; decide)
    | split
    | dsimp only

theorem State.deliverEarly_moves (s : State)
    (hq : [.mem, .jobs, .links, .relays, .early, .out] ⊆ ps)
    (h : Moves as ps s0 s) : Moves as ps s0 (State.deliverEarly s) := by
  unfold State.deliverEarly
  repeat' first
    | with_reducible assumption
    | with_reducible apply Moves.refl
    | with_reducible apply State.deliverTransfer_moves
    | with_reducible apply Moves.ite
    | (with_reducible apply Moves.inSub hq; decide)
    | with_reducible apply Moves.each
    | with_reducible apply Moves.foldl
    | with_reducible intro _
    | (with_reducible apply List.Subset.trans ?_ hq; decide)
    | split
    | dsimp only
    | with_reducible apply Moves.set_early

theorem execRetrainAck_moves (n : Nat) (b : Sys2Proof.Byp) (arg : Nat) (t : Nat) (s : State)
    (ha : [.tick, .fab, .events, .cal, .gal, .oe, .lnk, .lsu] ⊆ as)
    (hq : [.calJobs, .swaps, .links] ⊆ ps)
    (h : Moves as ps s0 s) : ResMoves as ps s0 (execRetrainAck n b arg t s) := by
  unfold execRetrainAck
  repeat' first
    | with_reducible assumption
    | with_reducible apply Moves.refl
    | with_reducible apply State.byp_moves
    | with_reducible apply State.receiveAck_moves
    | with_reducible apply State.beginRetrain_moves
    | with_reducible apply Moves.ite
    | with_reducible apply ResMoves.next
    | with_reducible apply ResMoves.fault
    | with_reducible apply ResMoves.refused
    | with_reducible apply ResMoves.ite
    | (with_reducible apply Moves.inSub ha; decide)
    | (with_reducible apply Moves.inSub hq; decide)
    | with_reducible apply Moves.foldl
    | with_reducible intro _
    | (with_reducible apply List.Subset.trans ?_ ha; decide)
    | (with_reducible apply List.Subset.trans ?_ hq; decide)
    | split
    | dsimp only

theorem execLaneRetrainTimeout_moves (n : Nat) (i : Nat) (t : Nat) (s : State)
    (ha : [.tick, .imp, .forme, .fab, .pair, .pwr, .core, .events, .cal, .gal, .cmp, .col, .ddl, .gst, .prs, .oe, .lnk, .lsu] ⊆ as)
    (hq : [.presses, .jobs, .lateXfers, .drains, .mgtLast, .calJobs, .calRuns, .swaps, .spareNeeds, .links, .relays, .mgtJobs, .out, .freeCount] ⊆ ps)
    (h : Moves as ps s0 s) : ResMoves as ps s0 (execLaneRetrainTimeout n i t s) := by
  unfold execLaneRetrainTimeout
  repeat' first
    | with_reducible assumption
    | with_reducible apply Moves.refl
    | with_reducible apply State.atLane_moves
    | with_reducible apply State.setLane_moves
    | with_reducible apply State.setLink_moves
    | with_reducible apply State.retireRx_moves
    | with_reducible apply State.wantWidth_moves
    | with_reducible apply State.groupFields_moves
    | with_reducible apply Moves.wr
    | with_reducible apply Moves.ite
    | with_reducible apply ResMoves.next
    | with_reducible apply ResMoves.fault
    | with_reducible apply ResMoves.refused
    | with_reducible apply ResMoves.ite
    | (with_reducible apply Moves.inSub ha; decide)
    | (with_reducible apply Moves.inSub hq; decide)
    | with_reducible apply Moves.foldl
    | with_reducible intro _
    | (with_reducible apply List.Subset.trans ?_ ha; decide)
    | (with_reducible apply List.Subset.trans ?_ hq; decide)
    | split
    | dsimp only

theorem execVc1Write_moves (n : Nat) (r : Sys2Proof.VcReq) (data : List (BitVec 8)) (s : State)
    (ha : [.prf, .core, .gal, .gst, .mem] ⊆ as)
    (hq : [.mem, .heldAccs, .dirtyShared, .mgtLast, .links, .repairMap, .ceLog, .mgtJobs, .dropped, .out, .freeCount] ⊆ ps)
    (h : Moves as ps s0 s) : ResMoves as ps s0 (execVc1Write n r data s) := by
  unfold execVc1Write
  repeat' first
    | with_reducible assumption
    | with_reducible apply Moves.refl
    | with_reducible apply State.vc1Serve_moves
    | with_reducible apply Moves.ite
    | with_reducible apply ResMoves.next
    | with_reducible apply ResMoves.fault
    | with_reducible apply ResMoves.refused
    | with_reducible apply ResMoves.ite
    | (with_reducible apply Moves.inSub ha; decide)
    | (with_reducible apply Moves.inSub hq; decide)
    | with_reducible apply Moves.foldl
    | with_reducible intro _
    | (with_reducible apply List.Subset.trans ?_ ha; decide)
    | (with_reducible apply List.Subset.trans ?_ hq; decide)
    | split
    | dsimp only

theorem execRetrainReq_moves (n : Nat) (b : Sys2Proof.Byp) (ident : Nat) (t : Nat) (s : State)
    (ha : [.tick, .fab, .events, .cal, .gal, .oe, .lnk, .lsu] ⊆ as)
    (hq : [.calJobs, .swaps, .links] ⊆ ps)
    (h : Moves as ps s0 s) : ResMoves as ps s0 (execRetrainReq n b ident t s) := by
  unfold execRetrainReq
  repeat' first
    | with_reducible assumption
    | with_reducible apply Moves.refl
    | with_reducible apply State.byp_moves
    | with_reducible apply State.receiveReq_moves
    | with_reducible apply State.beginRetrain_moves
    | with_reducible apply Moves.ite
    | with_reducible apply ResMoves.next
    | with_reducible apply ResMoves.fault
    | with_reducible apply ResMoves.refused
    | with_reducible apply ResMoves.ite
    | (with_reducible apply Moves.inSub ha; decide)
    | (with_reducible apply Moves.inSub hq; decide)
    | with_reducible apply Moves.foldl
    | with_reducible intro _
    | (with_reducible apply List.Subset.trans ?_ ha; decide)
    | (with_reducible apply List.Subset.trans ?_ hq; decide)
    | split
    | dsimp only

theorem execCredit_moves (n : Nat) (b : Sys2Proof.Byp) (vc : Nat) (freed : Nat) (t : Nat) (s : State)
    (ha : [.tick, .fab, .gal, .lnk] ⊆ as)
    (hq : [.links] ⊆ ps)
    (h : Moves as ps s0 s) : ResMoves as ps s0 (execCredit n b vc freed t s) := by
  unfold execCredit
  repeat' first
    | with_reducible assumption
    | with_reducible apply Moves.refl
    | with_reducible apply State.byp_moves
    | with_reducible apply State.setLink_moves
    | with_reducible apply State.setCredit_moves
    | with_reducible apply Moves.ite
    | with_reducible apply ResMoves.next
    | with_reducible apply ResMoves.fault
    | with_reducible apply ResMoves.refused
    | with_reducible apply ResMoves.ite
    | (with_reducible apply Moves.inSub ha; decide)
    | (with_reducible apply Moves.inSub hq; decide)
    | with_reducible apply Moves.foldl
    | with_reducible intro _
    | (with_reducible apply List.Subset.trans ?_ ha; decide)
    | (with_reducible apply List.Subset.trans ?_ hq; decide)
    | split
    | dsimp only

theorem execIdleAdaptation_moves (n : Nat) (i : Nat) (idle : Bool) (blocks : Nat) (s : State)
    (ha : [.tick, .lnk] ⊆ as)
    (hq : [.links] ⊆ ps)
    (h : Moves as ps s0 s) : ResMoves as ps s0 (execIdleAdaptation n i idle blocks s) := by
  unfold execIdleAdaptation
  repeat' first
    | with_reducible assumption
    | with_reducible apply Moves.refl
    | with_reducible apply State.atLane_moves
    | with_reducible apply State.setLink_moves
    | with_reducible apply Moves.wr
    | with_reducible apply Moves.ite
    | with_reducible apply ResMoves.next
    | with_reducible apply ResMoves.fault
    | with_reducible apply ResMoves.refused
    | with_reducible apply ResMoves.ite
    | (with_reducible apply Moves.inSub ha; decide)
    | (with_reducible apply Moves.inSub hq; decide)
    | with_reducible apply Moves.foldl
    | with_reducible intro _
    | (with_reducible apply List.Subset.trans ?_ ha; decide)
    | (with_reducible apply List.Subset.trans ?_ hq; decide)
    | split
    | dsimp only

theorem State.moveTx_moves (s : State) (n : Nat) (lane : Nat)
    (hq : [.links] ⊆ ps)
    (h : Moves as ps s0 s) : Moves as ps s0 (State.moveTx s n lane) := by
  unfold State.moveTx
  repeat' first
    | with_reducible assumption
    | with_reducible apply Moves.refl
    | with_reducible apply State.mark_moves
    | with_reducible apply Moves.ite
    | (with_reducible apply Moves.inSub hq; decide)
    | with_reducible apply Moves.foldl
    | with_reducible intro _
    | (with_reducible apply List.Subset.trans ?_ hq; decide)
    | split
    | dsimp only

theorem State.backTx_moves (s : State) (n : Nat) (lane : Nat)
    (hq : [.links] ⊆ ps)
    (h : Moves as ps s0 s) : Moves as ps s0 (State.backTx s n lane) := by
  unfold State.backTx
  repeat' first
    | with_reducible assumption
    | with_reducible apply Moves.refl
    | with_reducible apply State.mark_moves
    | with_reducible apply Moves.ite
    | (with_reducible apply Moves.inSub hq; decide)
    | with_reducible apply Moves.foldl
    | with_reducible intro _
    | (with_reducible apply List.Subset.trans ?_ hq; decide)
    | split
    | dsimp only

theorem execLaneAck_moves (n : Nat) (b : Sys2Proof.Byp) (arg : Nat) (t : Nat) (s : State)
    (ha : [.tick, .fab, .cal, .gal, .ddl, .oe, .lnk, .lsu] ⊆ as)
    (hq : [.calJobs, .calRuns, .swaps, .spareNeeds, .links] ⊆ ps)
    (h : Moves as ps s0 s) : ResMoves as ps s0 (execLaneAck n b arg t s) := by
  unfold execLaneAck
  repeat' first
    | with_reducible assumption
    | with_reducible apply Moves.refl
    | with_reducible apply State.byp_moves
    | with_reducible apply State.receiveAck_moves
    | with_reducible apply State.groupFields_moves
    | with_reducible apply State.setLink_moves
    | with_reducible apply State.moveTx_moves
    | with_reducible apply State.switchSource_moves
    | with_reducible apply State.backTx_moves
    | with_reducible apply State.endCal_moves
    | with_reducible apply State.giveBack_moves
    | with_reducible apply State.afterSpare_moves
    | with_reducible apply State.swapBack_moves
    | with_reducible apply Moves.ite
    | with_reducible apply ResMoves.next
    | with_reducible apply ResMoves.fault
    | with_reducible apply ResMoves.refused
    | with_reducible apply ResMoves.ite
    | (with_reducible apply Moves.inSub ha; decide)
    | (with_reducible apply Moves.inSub hq; decide)
    | with_reducible apply Moves.foldl
    | with_reducible intro _
    | (with_reducible apply List.Subset.trans ?_ ha; decide)
    | (with_reducible apply List.Subset.trans ?_ hq; decide)
    | split
    | dsimp only

theorem execRewind_moves (n : Nat) (b : Sys2Proof.Byp) (vc : Nat) (hi : Nat) (t : Nat) (s : State)
    (ha : [.tick, .fab, .gal, .lnk] ⊆ as)
    (hq : [.links] ⊆ ps)
    (h : Moves as ps s0 s) : ResMoves as ps s0 (execRewind n b vc hi t s) := by
  unfold execRewind
  repeat' first
    | with_reducible assumption
    | with_reducible apply Moves.refl
    | with_reducible apply State.byp_moves
    | with_reducible apply State.setLink_moves
    | with_reducible apply Moves.ite
    | with_reducible apply ResMoves.next
    | with_reducible apply ResMoves.fault
    | with_reducible apply ResMoves.refused
    | with_reducible apply ResMoves.ite
    | (with_reducible apply Moves.inSub ha; decide)
    | (with_reducible apply Moves.inSub hq; decide)
    | with_reducible apply Moves.foldl
    | with_reducible intro _
    | (with_reducible apply List.Subset.trans ?_ ha; decide)
    | (with_reducible apply List.Subset.trans ?_ hq; decide)
    | split
    | dsimp only

theorem execBarrierToken_moves (n : Nat) (b : Sys2Proof.Byp) (origin : Nat) (bar : Nat) (edition : Nat) (count : Nat) (t : Nat) (s : State)
    (ha : [.tick, .fab, .gal, .lnk] ⊆ as)
    (hq : [.tokens, .links] ⊆ ps)
    (h : Moves as ps s0 s) : ResMoves as ps s0 (execBarrierToken n b origin bar edition count t s) := by
  unfold execBarrierToken
  repeat' first
    | with_reducible assumption
    | with_reducible apply Moves.refl
    | with_reducible apply State.byp_moves
    | with_reducible apply State.setToken_moves
    | with_reducible apply State.sendByp_moves
    | with_reducible apply Moves.bump
    | with_reducible apply Moves.ite
    | with_reducible apply ResMoves.next
    | with_reducible apply ResMoves.fault
    | with_reducible apply ResMoves.refused
    | with_reducible apply ResMoves.ite
    | (with_reducible apply Moves.inSub ha; decide)
    | (with_reducible apply Moves.inSub hq; decide)
    | with_reducible apply Moves.each
    | with_reducible apply Moves.foldl
    | with_reducible intro _
    | (with_reducible apply List.Subset.trans ?_ ha; decide)
    | (with_reducible apply List.Subset.trans ?_ hq; decide)
    | split
    | dsimp only

theorem execLaneCalEnd_moves (n : Nat) (b : Sys2Proof.Byp) (ident : Nat) (lane : Nat) (t : Nat) (s : State)
    (ha : [.tick, .fab, .cal, .gal, .oe, .lnk, .lsu] ⊆ as)
    (hq : [.calJobs, .calRuns, .swaps, .spareNeeds, .links] ⊆ ps)
    (h : Moves as ps s0 s) : ResMoves as ps s0 (execLaneCalEnd n b ident lane t s) := by
  unfold execLaneCalEnd
  repeat' first
    | with_reducible assumption
    | with_reducible apply Moves.refl
    | with_reducible apply State.laneRequest_moves
    | with_reducible apply State.backTx_moves
    | with_reducible apply State.setLink_moves
    | with_reducible apply State.preemptCal_moves
    | with_reducible apply State.issueNext_moves
    | with_reducible apply State.afterSpare_moves
    | with_reducible apply State.endCal_moves
    | with_reducible apply Moves.ite
    | with_reducible apply ResMoves.next
    | with_reducible apply ResMoves.fault
    | with_reducible apply ResMoves.refused
    | with_reducible apply ResMoves.ite
    | (with_reducible apply Moves.inSub ha; decide)
    | (with_reducible apply Moves.inSub hq; decide)
    | with_reducible apply Moves.foldl
    | with_reducible intro _
    | (with_reducible apply List.Subset.trans ?_ ha; decide)
    | (with_reducible apply List.Subset.trans ?_ hq; decide)
    | split
    | dsimp only

theorem execLaneRejoin_moves (n : Nat) (b : Sys2Proof.Byp) (ident : Nat) (lane : Nat) (t : Nat) (s : State)
    (ha : [.tick, .fab, .gal, .lnk] ⊆ as)
    (hq : [.links] ⊆ ps)
    (h : Moves as ps s0 s) : ResMoves as ps s0 (execLaneRejoin n b ident lane t s) := by
  unfold execLaneRejoin
  repeat' first
    | with_reducible assumption
    | with_reducible apply Moves.refl
    | with_reducible apply State.laneRequest_moves
    | with_reducible apply State.setLink_moves
    | with_reducible apply State.mark_moves
    | with_reducible apply Moves.ite
    | with_reducible apply ResMoves.next
    | with_reducible apply ResMoves.fault
    | with_reducible apply ResMoves.refused
    | with_reducible apply ResMoves.ite
    | (with_reducible apply Moves.inSub ha; decide)
    | (with_reducible apply Moves.inSub hq; decide)
    | with_reducible apply Moves.foldl
    | with_reducible intro _
    | (with_reducible apply List.Subset.trans ?_ ha; decide)
    | (with_reducible apply List.Subset.trans ?_ hq; decide)
    | split
    | dsimp only

theorem execLaneCal_moves (n : Nat) (b : Sys2Proof.Byp) (ident : Nat) (lane : Nat) (t : Nat) (s : State)
    (ha : [.tick, .fab, .cal, .gal, .oe, .lnk] ⊆ as)
    (hq : [.calJobs, .calRuns, .links] ⊆ ps)
    (h : Moves as ps s0 s) : ResMoves as ps s0 (execLaneCal n b ident lane t s) := by
  unfold execLaneCal
  repeat' first
    | with_reducible assumption
    | with_reducible apply Moves.refl
    | with_reducible apply State.laneRequest_moves
    | with_reducible apply State.yieldCal_moves
    | with_reducible apply State.setLink_moves
    | with_reducible apply State.calSpares_moves
    | with_reducible apply State.beginCal_moves
    | with_reducible apply State.moveTx_moves
    | with_reducible apply Moves.ite
    | with_reducible apply ResMoves.next
    | with_reducible apply ResMoves.fault
    | with_reducible apply ResMoves.refused
    | with_reducible apply ResMoves.ite
    | (with_reducible apply Moves.inSub ha; decide)
    | (with_reducible apply Moves.inSub hq; decide)
    | with_reducible apply Moves.foldl
    | with_reducible intro _
    | (with_reducible apply List.Subset.trans ?_ ha; decide)
    | (with_reducible apply List.Subset.trans ?_ hq; decide)
    | split
    | dsimp only

end Sys2Proof.Machine
end

