-- ==== Sys2Proof/Laws/MovesOptics.lean ====
section
/-!
SUPPORT. Footprints of the operations of Machine/Optics.lean.
-/

namespace Sys2Proof.Machine

variable {as : List Area} {ps : List Part} {s0 : State}

theorem execPowerMonitorSample_moves (k : Nat) (m : Sys2Proof.MonSample) (t : Nat) (s : State)
    (ha : [.tick, .oe] ⊆ as)
    (h : Moves as ps s0 s) : ResMoves as ps s0 (execPowerMonitorSample k m t s) := by
  unfold execPowerMonitorSample
  repeat' first
    | with_reducible assumption
    | with_reducible apply Moves.refl
    | with_reducible apply State.stamp_moves
    | with_reducible apply Moves.wr
    | with_reducible apply Moves.wrAll
    | with_reducible apply areas_cons
    | with_reducible apply areas_nil
    | with_reducible apply Moves.ite
    | with_reducible apply ResMoves.next
    | with_reducible apply ResMoves.fault
    | with_reducible apply ResMoves.refused
    | with_reducible apply ResMoves.ite
    | (with_reducible apply Moves.inSub ha; decide)
    | with_reducible apply Moves.each
    | with_reducible apply Moves.foldl
    | with_reducible intro _
    | (with_reducible apply List.Subset.trans ?_ ha; decide)
    | split
    | dsimp only

theorem State.jobSettle_moves (s : State) (c : CalJob)
    (ha : [.cal, .oe, .lsu] ⊆ as)
    (hq : [.calJobs, .calRuns, .swaps, .spareNeeds, .links] ⊆ ps)
    (h : Moves as ps s0 s) : Moves as ps s0 (State.jobSettle s c) := by
  unfold State.jobSettle
  repeat' first
    | with_reducible assumption
    | with_reducible apply Moves.refl
    | with_reducible apply State.calEnd_moves
    | with_reducible apply State.restoreCodes_moves
    | with_reducible apply State.afterSpare_moves
    | with_reducible apply State.endCal_moves
    | with_reducible apply Moves.wr
    | with_reducible apply Moves.bump
    | with_reducible apply Moves.ite
    | (with_reducible apply Moves.inSub ha; decide)
    | (with_reducible apply Moves.inSub hq; decide)
    | with_reducible apply Moves.foldl
    | with_reducible intro _
    | (with_reducible apply List.Subset.trans ?_ ha; decide)
    | (with_reducible apply List.Subset.trans ?_ hq; decide)
    | split
    | dsimp only

theorem State.setDue_moves (s : State) (k : Nat) (g : Nat) (w : Nat)
    (ha : [.oe] ⊆ as)
    (h : Moves as ps s0 s) : Moves as ps s0 (State.setDue s k g w) := by
  unfold State.setDue
  repeat' first
    | with_reducible assumption
    | with_reducible apply Moves.refl
    | with_reducible apply Moves.orBit
    | with_reducible apply Moves.ite
    | (with_reducible apply Moves.inSub ha; decide)
    | with_reducible apply Moves.foldl
    | with_reducible intro _
    | (with_reducible apply List.Subset.trans ?_ ha; decide)
    | split
    | dsimp only

theorem execCalDue_moves (k : Nat) (j : Nat) (w : Nat) (why : Sys2Proof.CalWhy) (t : Nat) (s : State)
    (ha : [.tick, .cal, .oe] ⊆ as)
    (hq : [.calJobs, .calRuns, .links] ⊆ ps)
    (h : Moves as ps s0 s) : ResMoves as ps s0 (execCalDue k j w why t s) := by
  unfold execCalDue
  repeat' first
    | with_reducible assumption
    | with_reducible apply Moves.refl
    | with_reducible apply State.stamp_moves
    | with_reducible apply State.tryCal_moves
    | with_reducible apply State.setDue_moves
    | with_reducible apply Moves.ite
    | with_reducible apply ResMoves.next
    | with_reducible apply ResMoves.fault
    | with_reducible apply ResMoves.refused
    | with_reducible apply ResMoves.ite
    | (with_reducible apply Moves.inSub ha; decide)
    | (with_reducible apply Moves.inSub hq; decide)
    | with_reducible apply Moves.foldl
    | with_reducible intro _
    | (with_reducible apply List.Subset.trans ?_ ha; decide)
    | (with_reducible apply List.Subset.trans ?_ hq; decide)
    | split
    | dsimp only

theorem State.lockRing_moves (s : State) (k : Nat) (r : Nat) (code : Nat)
    (ha : [.oe] ⊆ as)
    (hq : [.ringErr] ⊆ ps)
    (h : Moves as ps s0 s) : Moves as ps s0 (State.lockRing s k r code) := by
  unfold State.lockRing
  repeat' first
    | with_reducible assumption
    | with_reducible apply Moves.refl
    | with_reducible apply Moves.wr
    | with_reducible apply Moves.ite
    | (with_reducible apply Moves.inSub ha; decide)
    | (with_reducible apply Moves.inSub hq; decide)
    | with_reducible apply Moves.foldl
    | with_reducible intro _
    | (with_reducible apply List.Subset.trans ?_ ha; decide)
    | (with_reducible apply List.Subset.trans ?_ hq; decide)
    | split
    | dsimp only
    | with_reducible apply Moves.set_ringErr

theorem execMislockRecoveryDone_moves (k : Nat) (r : Nat) (code : Nat) (t : Nat) (s : State)
    (ha : [.tick, .oe] ⊆ as)
    (hq : [.ringErr, .spareNeeds, .links] ⊆ ps)
    (h : Moves as ps s0 s) : ResMoves as ps s0 (execMislockRecoveryDone k r code t s) := by
  unfold execMislockRecoveryDone
  repeat' first
    | with_reducible assumption
    | with_reducible apply Moves.refl
    | with_reducible apply State.stamp_moves
    | with_reducible apply State.lockRing_moves
    | with_reducible apply State.setDue_moves
    | with_reducible apply State.laneReq_moves
    | with_reducible apply State.freeSpare_moves
    | with_reducible apply State.mark_moves
    | with_reducible apply Moves.wr
    | with_reducible apply Moves.ite
    | with_reducible apply ResMoves.next
    | with_reducible apply ResMoves.fault
    | with_reducible apply ResMoves.refused
    | with_reducible apply ResMoves.ite
    | (with_reducible apply Moves.inSub ha; decide)
    | (with_reducible apply Moves.inSub hq; decide)
    | with_reducible apply Moves.foldl
    | with_reducible intro _
    | (with_reducible apply List.Subset.trans ?_ ha; decide)
    | (with_reducible apply List.Subset.trans ?_ hq; decide)
    | split
    | dsimp only
    | with_reducible apply Moves.set_spareNeeds

theorem State.suspectRing_moves (s : State) (k : Nat) (r : Nat)
    (ha : [.cal, .oe, .lnk] ⊆ as)
    (hq : [.calJobs, .calRuns, .spareNeeds, .links] ⊆ ps)
    (h : Moves as ps s0 s) : Moves as ps s0 (State.suspectRing s k r) := by
  unfold State.suspectRing
  repeat' first
    | with_reducible assumption
    | with_reducible apply Moves.refl
    | with_reducible apply State.retireFibreLane_moves
    | with_reducible apply State.mark_moves
    | with_reducible apply State.laneReq_moves
    | with_reducible apply State.putSpare_moves
    | with_reducible apply State.needSpare_moves
    | with_reducible apply Moves.wrAll
    | with_reducible apply areas_cons
    | with_reducible apply areas_nil
    | with_reducible apply Moves.ite
    | (with_reducible apply Moves.inSub ha; decide)
    | (with_reducible apply Moves.inSub hq; decide)
    | with_reducible apply Moves.foldl
    | with_reducible intro _
    | (with_reducible apply List.Subset.trans ?_ ha; decide)
    | (with_reducible apply List.Subset.trans ?_ hq; decide)
    | split
    | dsimp only

theorem execUnitWithdrawn_moves (u : Nat) (t : Nat) (s : State)
    (ha : [.tick, .oe, .lsu] ⊆ as)
    (h : Moves as ps s0 s) : ResMoves as ps s0 (execUnitWithdrawn u t s) := by
  unfold execUnitWithdrawn
  repeat' first
    | with_reducible assumption
    | with_reducible apply Moves.refl
    | with_reducible apply State.stamp_moves
    | with_reducible apply State.covers_moves
    | with_reducible apply State.setUnit_moves
    | with_reducible apply State.darkUnit_moves
    | with_reducible apply Moves.wr
    | with_reducible apply Moves.ite
    | with_reducible apply ResMoves.next
    | with_reducible apply ResMoves.fault
    | with_reducible apply ResMoves.refused
    | with_reducible apply ResMoves.ite
    | (with_reducible apply Moves.inSub ha; decide)
    | with_reducible apply Moves.foldl
    | with_reducible intro _
    | (with_reducible apply List.Subset.trans ?_ ha; decide)
    | split
    | dsimp only

theorem State.proveUnit_moves (s : State) (u : Nat)
    (ha : [.pwr, .lsu] ⊆ as)
    (h : Moves as ps s0 s) : Moves as ps s0 (State.proveUnit s u) := by
  unfold State.proveUnit
  repeat' first
    | with_reducible assumption
    | with_reducible apply Moves.refl
    | with_reducible apply State.covers_moves
    | with_reducible apply State.setUnit_moves
    | with_reducible apply State.setBolt_moves
    | with_reducible apply Moves.wr
    | with_reducible apply Moves.ite
    | (with_reducible apply Moves.inSub ha; decide)
    | with_reducible apply Moves.each
    | with_reducible apply Moves.foldl
    | with_reducible intro _
    | (with_reducible apply List.Subset.trans ?_ ha; decide)
    | split
    | dsimp only

theorem execHeaterLoopUpdate_moves (k : Nat) (r : Nat) (err : Int) (s : State)
    (ha : [.cal, .oe] ⊆ as)
    (hq : [.calJobs, .calRuns, .ringErr, .links] ⊆ ps)
    (h : Moves as ps s0 s) : ResMoves as ps s0 (execHeaterLoopUpdate k r err s) := by
  unfold execHeaterLoopUpdate
  repeat' first
    | with_reducible assumption
    | with_reducible apply Moves.refl
    | with_reducible apply State.tryCal_moves
    | with_reducible apply State.setDue_moves
    | with_reducible apply Moves.wr
    | with_reducible apply Moves.ite
    | with_reducible apply ResMoves.next
    | with_reducible apply ResMoves.fault
    | with_reducible apply ResMoves.refused
    | with_reducible apply ResMoves.ite
    | (with_reducible apply Moves.inSub ha; decide)
    | (with_reducible apply Moves.inSub hq; decide)
    | with_reducible apply Moves.foldl
    | with_reducible intro _
    | (with_reducible apply List.Subset.trans ?_ ha; decide)
    | (with_reducible apply List.Subset.trans ?_ hq; decide)
    | split
    | dsimp only
    | with_reducible apply Moves.set_ringErr

theorem execSuddenLoss_moves (k : Nat) (j : Nat) (w : Nat) (t : Nat) (s : State)
    (ha : [.tick, .cal, .oe, .lsu] ⊆ as)
    (hq : [.calJobs, .calRuns, .swaps, .spareNeeds, .links] ⊆ ps)
    (h : Moves as ps s0 s) : ResMoves as ps s0 (execSuddenLoss k j w t s) := by
  unfold execSuddenLoss
  repeat' first
    | with_reducible assumption
    | with_reducible apply Moves.refl
    | with_reducible apply State.stamp_moves
    | with_reducible apply State.needSpare_moves
    | with_reducible apply State.mark_moves
    | with_reducible apply State.putSpare_moves
    | with_reducible apply State.moveBank_moves
    | with_reducible apply State.noTwin_moves
    | with_reducible apply State.addSwap_moves
    | with_reducible apply State.warm_moves
    | with_reducible apply State.covers_moves
    | with_reducible apply State.swapNext_moves
    | with_reducible apply Moves.bump
    | with_reducible apply Moves.ite
    | with_reducible apply ResMoves.next
    | with_reducible apply ResMoves.fault
    | with_reducible apply ResMoves.refused
    | with_reducible apply ResMoves.ite
    | (with_reducible apply Moves.inSub ha; decide)
    | (with_reducible apply Moves.inSub hq; decide)
    | with_reducible apply Moves.foldl
    | with_reducible intro _
    | (with_reducible apply List.Subset.trans ?_ ha; decide)
    | (with_reducible apply List.Subset.trans ?_ hq; decide)
    | split
    | dsimp only

theorem execOeCalCtrlWrite_moves (k : Nat) (value : Nat) (s : State)
    (ha : [.oe] ⊆ as)
    (h : Moves as ps s0 s) : ResMoves as ps s0 (execOeCalCtrlWrite k value s) := by
  unfold execOeCalCtrlWrite
  repeat' first
    | with_reducible assumption
    | with_reducible apply Moves.refl
    | with_reducible apply State.calMode_moves
    | with_reducible apply Moves.wr
    | with_reducible apply Moves.ite
    | with_reducible apply ResMoves.next
    | with_reducible apply ResMoves.fault
    | with_reducible apply ResMoves.refused
    | with_reducible apply ResMoves.ite
    | (with_reducible apply Moves.inSub ha; decide)
    | with_reducible apply Moves.each
    | with_reducible apply Moves.foldl
    | with_reducible intro _
    | (with_reducible apply List.Subset.trans ?_ ha; decide)
    | split
    | dsimp only

theorem State.restoreUnit_moves (s : State) (u : Nat)
    (ha : [.cal, .oe, .lnk, .lsu] ⊆ as)
    (hq : [.calJobs, .calRuns, .swaps, .spareNeeds, .links] ⊆ ps)
    (h : Moves as ps s0 s) : Moves as ps s0 (State.restoreUnit s u) := by
  unfold State.restoreUnit
  repeat' first
    | with_reducible assumption
    | with_reducible apply Moves.refl
    | with_reducible apply State.setUnit_moves
    | with_reducible apply State.refreshEngine_moves
    | with_reducible apply State.light_moves
    | with_reducible apply State.addSwap_moves
    | with_reducible apply State.covers_moves
    | with_reducible apply State.unitSettle_moves
    | with_reducible apply State.swapAll_moves
    | with_reducible apply Moves.ite
    | (with_reducible apply Moves.inSub ha; decide)
    | (with_reducible apply Moves.inSub hq; decide)
    | with_reducible apply Moves.each
    | with_reducible apply Moves.foldl
    | with_reducible intro _
    | (with_reducible apply List.Subset.trans ?_ ha; decide)
    | (with_reducible apply List.Subset.trans ?_ hq; decide)
    | split
    | dsimp only

theorem execLsuRestore_moves (u : Nat) (t : Nat) (s : State)
    (ha : [.tick, .pwr, .cal, .oe, .lnk, .lsu] ⊆ as)
    (hq : [.calJobs, .calRuns, .swaps, .spareNeeds, .links] ⊆ ps)
    (h : Moves as ps s0 s) : ResMoves as ps s0 (execLsuRestore u t s) := by
  unfold execLsuRestore
  repeat' first
    | with_reducible assumption
    | with_reducible apply Moves.refl
    | with_reducible apply State.stamp_moves
    | with_reducible apply State.restoreUnit_moves
    | with_reducible apply State.proveUnit_moves
    | with_reducible apply Moves.ite
    | with_reducible apply ResMoves.next
    | with_reducible apply ResMoves.fault
    | with_reducible apply ResMoves.refused
    | with_reducible apply ResMoves.ite
    | (with_reducible apply Moves.inSub ha; decide)
    | (with_reducible apply Moves.inSub hq; decide)
    | with_reducible apply Moves.foldl
    | with_reducible intro _
    | (with_reducible apply List.Subset.trans ?_ ha; decide)
    | (with_reducible apply List.Subset.trans ?_ hq; decide)
    | split
    | dsimp only

theorem State.mislock_moves (s : State) (k : Nat) (r : Nat) (t : Nat)
    (ha : [.imp, .forme, .fab, .pair, .core, .events, .cal, .gal, .cmp, .col, .ddl, .gst, .prs, .oe, .lnk, .lsu] ⊆ as)
    (hq : [.presses, .jobs, .lateXfers, .drains, .mgtLast, .calJobs, .calRuns, .mislocks, .swaps, .spareNeeds, .links, .relays, .mgtJobs, .out, .freeCount] ⊆ ps)
    (h : Moves as ps s0 s) : Moves as ps s0 (State.mislock s k r t) := by
  unfold State.mislock
  repeat' first
    | with_reducible assumption
    | with_reducible apply Moves.refl
    | with_reducible apply State.suspectRing_moves
    | with_reducible apply State.laneMoved_moves
    | with_reducible apply State.mark_moves
    | with_reducible apply State.laneOut_moves
    | with_reducible apply State.needSpare_moves
    | with_reducible apply State.putSpare_moves
    | with_reducible apply Moves.wr
    | with_reducible apply Moves.bump
    | with_reducible apply Moves.ite
    | (with_reducible apply Moves.inSub ha; decide)
    | (with_reducible apply Moves.inSub hq; decide)
    | with_reducible apply Moves.foldl
    | with_reducible intro _
    | (with_reducible apply List.Subset.trans ?_ ha; decide)
    | (with_reducible apply List.Subset.trans ?_ hq; decide)
    | split
    | dsimp only
    | with_reducible apply Moves.set_mislocks

theorem execDrainUnit_moves (u : Nat) (t : Nat) (s : State)
    (ha : [.tick, .cal, .oe, .lsu] ⊆ as)
    (hq : [.calJobs, .calRuns, .swaps, .spareNeeds, .links] ⊆ ps)
    (h : Moves as ps s0 s) : ResMoves as ps s0 (execDrainUnit u t s) := by
  unfold execDrainUnit
  repeat' first
    | with_reducible assumption
    | with_reducible apply Moves.refl
    | with_reducible apply State.stamp_moves
    | with_reducible apply State.moveAll_moves
    | with_reducible apply State.setUnit_moves
    | with_reducible apply State.covers_moves
    | with_reducible apply State.unitSettle_moves
    | with_reducible apply State.swapAll_moves
    | with_reducible apply Moves.wr
    | with_reducible apply Moves.ite
    | with_reducible apply ResMoves.next
    | with_reducible apply ResMoves.fault
    | with_reducible apply ResMoves.refused
    | with_reducible apply ResMoves.ite
    | (with_reducible apply Moves.inSub ha; decide)
    | (with_reducible apply Moves.inSub hq; decide)
    | with_reducible apply Moves.foldl
    | with_reducible intro _
    | (with_reducible apply List.Subset.trans ?_ ha; decide)
    | (with_reducible apply List.Subset.trans ?_ hq; decide)
    | split
    | dsimp only

theorem State.loseUnit_moves (s : State) (u : Nat) (t : Nat)
    (ha : [.imp, .forme, .fab, .pair, .core, .events, .cal, .gal, .cmp, .col, .ddl, .gst, .prs, .oe, .lnk, .lsu] ⊆ as)
    (hq : [.presses, .jobs, .lateXfers, .drains, .mgtLast, .calJobs, .calRuns, .swaps, .spareNeeds, .links, .relays, .mgtJobs, .out, .freeCount] ⊆ ps)
    (h : Moves as ps s0 s) : Moves as ps s0 (State.loseUnit s u t) := by
  unfold State.loseUnit
  repeat' first
    | with_reducible assumption
    | with_reducible apply Moves.refl
    | with_reducible apply State.setBolt_moves
    | with_reducible apply State.moveBank_moves
    | with_reducible apply State.darkUnit_moves
    | with_reducible apply State.noTwin_moves
    | with_reducible apply State.addSwap_moves
    | with_reducible apply State.warm_moves
    | with_reducible apply State.linkDown_moves
    | with_reducible apply State.covers_moves
    | with_reducible apply State.swapAll_moves
    | with_reducible apply Moves.ite
    | (with_reducible apply Moves.inSub ha; decide)
    | (with_reducible apply Moves.inSub hq; decide)
    | with_reducible apply Moves.each
    | with_reducible apply Moves.foldl
    | with_reducible intro _
    | (with_reducible apply List.Subset.trans ?_ ha; decide)
    | (with_reducible apply List.Subset.trans ?_ hq; decide)
    | split
    | dsimp only
    | with_reducible apply Moves.set_swaps

theorem State.unitProved_moves (s : State) (u : Nat) (failed : List Nat)
    (ha : [.cal, .oe, .lnk, .lsu] ⊆ as)
    (hq : [.calJobs, .calRuns, .swaps, .spareNeeds, .links, .freeCount] ⊆ ps)
    (h : Moves as ps s0 s) : Moves as ps s0 (State.unitProved s u failed) := by
  unfold State.unitProved
  repeat' first
    | with_reducible assumption
    | with_reducible apply Moves.refl
    | with_reducible apply State.covers_moves
    | with_reducible apply State.setBolt_moves
    | with_reducible apply State.setUnit_moves
    | with_reducible apply State.darkUnit_moves
    | with_reducible apply State.calEnd_moves
    | with_reducible apply State.calStart_moves
    | with_reducible apply State.restoreUnit_moves
    | with_reducible apply Moves.wr
    | with_reducible apply Moves.free
    | with_reducible apply Moves.ite
    | (with_reducible apply Moves.inSub ha; decide)
    | (with_reducible apply Moves.inSub hq; decide)
    | with_reducible apply Moves.ite_snd
    | with_reducible apply Moves.each
    | with_reducible apply Moves.foldl
    | with_reducible intro _
    | (with_reducible apply List.Subset.trans ?_ ha; decide)
    | (with_reducible apply List.Subset.trans ?_ hq; decide)
    | split
    | dsimp only

theorem execUnitProofDone_moves (u : Nat) (failed : List Nat) (t : Nat) (s : State)
    (ha : [.tick, .cal, .oe, .lnk, .lsu] ⊆ as)
    (hq : [.calJobs, .calRuns, .swaps, .spareNeeds, .links, .freeCount] ⊆ ps)
    (h : Moves as ps s0 s) : ResMoves as ps s0 (execUnitProofDone u failed t s) := by
  unfold execUnitProofDone
  repeat' first
    | with_reducible assumption
    | with_reducible apply Moves.refl
    | with_reducible apply State.stamp_moves
    | with_reducible apply State.unitProved_moves
    | with_reducible apply Moves.ite
    | with_reducible apply ResMoves.next
    | with_reducible apply ResMoves.fault
    | with_reducible apply ResMoves.refused
    | with_reducible apply ResMoves.ite
    | (with_reducible apply Moves.inSub ha; decide)
    | (with_reducible apply Moves.inSub hq; decide)
    | with_reducible apply Moves.foldl
    | with_reducible intro _
    | (with_reducible apply List.Subset.trans ?_ ha; decide)
    | (with_reducible apply List.Subset.trans ?_ hq; decide)
    | split
    | dsimp only

theorem State.toSwap_moves (s : State) (n : Nat)
    (ha : [.cal, .oe, .lsu] ⊆ as)
    (hq : [.calJobs, .calRuns, .swaps, .spareNeeds, .links] ⊆ ps)
    (h : Moves as ps s0 s) : Moves as ps s0 (State.toSwap s n) := by
  unfold State.toSwap
  repeat' first
    | with_reducible assumption
    | with_reducible apply Moves.refl
    | with_reducible apply State.noTwin_moves
    | with_reducible apply State.swapNext_moves
    | with_reducible apply State.addSwap_moves
    | with_reducible apply Moves.wr
    | with_reducible apply Moves.bump
    | with_reducible apply Moves.ite
    | (with_reducible apply Moves.inSub ha; decide)
    | (with_reducible apply Moves.inSub hq; decide)
    | with_reducible apply Moves.foldl
    | with_reducible intro _
    | (with_reducible apply List.Subset.trans ?_ ha; decide)
    | (with_reducible apply List.Subset.trans ?_ hq; decide)
    | split
    | dsimp only

theorem execTwinReady_moves (n : Nat) (t : Nat) (s : State)
    (ha : [.tick, .cal, .oe, .lsu] ⊆ as)
    (hq : [.calJobs, .calRuns, .swaps, .spareNeeds, .links, .freeCount] ⊆ ps)
    (h : Moves as ps s0 s) : ResMoves as ps s0 (execTwinReady n t s) := by
  unfold execTwinReady
  repeat' first
    | with_reducible assumption
    | with_reducible apply Moves.refl
    | with_reducible apply State.stamp_moves
    | with_reducible apply State.calEnd_moves
    | with_reducible apply State.swapNext_moves
    | with_reducible apply State.toSwap_moves
    | with_reducible apply Moves.wr
    | with_reducible apply Moves.free
    | with_reducible apply Moves.ite
    | with_reducible apply ResMoves.next
    | with_reducible apply ResMoves.fault
    | with_reducible apply ResMoves.refused
    | with_reducible apply ResMoves.ite
    | (with_reducible apply Moves.inSub ha; decide)
    | (with_reducible apply Moves.inSub hq; decide)
    | with_reducible apply Moves.ite_snd
    | with_reducible apply Moves.foldl
    | with_reducible intro _
    | (with_reducible apply List.Subset.trans ?_ ha; decide)
    | (with_reducible apply List.Subset.trans ?_ hq; decide)
    | split
    | dsimp only

theorem State.ringResult_moves (s : State) (k : Nat) (r : Nat) (res : Nat × Nat)
    (ha : [.cal, .oe, .lnk] ⊆ as)
    (hq : [.calJobs, .calRuns, .calFails, .ringErr, .spareNeeds, .links] ⊆ ps)
    (h : Moves as ps s0 s) : Moves as ps s0 (State.ringResult s k r res) := by
  unfold State.ringResult
  repeat' first
    | with_reducible assumption
    | with_reducible apply Moves.refl
    | with_reducible apply State.suspectRing_moves
    | with_reducible apply State.lockRing_moves
    | with_reducible apply Moves.wr
    | with_reducible apply Moves.ite
    | (with_reducible apply Moves.inSub ha; decide)
    | (with_reducible apply Moves.inSub hq; decide)
    | with_reducible apply Moves.foldl
    | with_reducible intro _
    | (with_reducible apply List.Subset.trans ?_ ha; decide)
    | (with_reducible apply List.Subset.trans ?_ hq; decide)
    | split
    | dsimp only
    | with_reducible apply Moves.set_calFails

theorem execRelight_moves (t : Nat) (s : State)
    (ha : [.tick, .pwr, .sec, .cal, .oe, .lnk, .lsu] ⊆ as)
    (hq : [.calJobs, .swaps, .freeCount] ⊆ ps)
    (h : Moves as ps s0 s) : ResMoves as ps s0 (execRelight t s) := by
  unfold execRelight
  repeat' first
    | with_reducible assumption
    | with_reducible apply Moves.refl
    | with_reducible apply State.stamp_moves
    | with_reducible apply State.proveUnit_moves
    | with_reducible apply State.refreshEngine_moves
    | with_reducible apply Moves.wr
    | with_reducible apply Moves.free
    | with_reducible apply Moves.ite
    | with_reducible apply ResMoves.next
    | with_reducible apply ResMoves.fault
    | with_reducible apply ResMoves.refused
    | with_reducible apply ResMoves.ite
    | (with_reducible apply Moves.inSub ha; decide)
    | (with_reducible apply Moves.inSub hq; decide)
    | with_reducible apply Moves.ite_snd
    | with_reducible apply Moves.each
    | with_reducible apply Moves.foldl
    | with_reducible intro _
    | (with_reducible apply List.Subset.trans ?_ ha; decide)
    | (with_reducible apply List.Subset.trans ?_ hq; decide)
    | split
    | dsimp only

theorem execLaneRetrained_moves (k : Nat) (j : Nat) (d : Nat) (w : Nat) (t : Nat) (s : State)
    (ha : [.tick, .cal, .oe, .lsu] ⊆ as)
    (hq : [.calJobs, .calRuns, .swaps, .spareNeeds, .links] ⊆ ps)
    (h : Moves as ps s0 s) : ResMoves as ps s0 (execLaneRetrained k j d w t s) := by
  unfold execLaneRetrained
  repeat' first
    | with_reducible assumption
    | with_reducible apply Moves.refl
    | with_reducible apply State.stamp_moves
    | with_reducible apply State.unholdRing_moves
    | with_reducible apply State.laneReq_moves
    | with_reducible apply State.swapBack_moves
    | with_reducible apply State.mark_moves
    | with_reducible apply State.afterSpare_moves
    | with_reducible apply State.endCal_moves
    | with_reducible apply Moves.ite
    | with_reducible apply ResMoves.next
    | with_reducible apply ResMoves.fault
    | with_reducible apply ResMoves.refused
    | with_reducible apply ResMoves.ite
    | (with_reducible apply Moves.inSub ha; decide)
    | (with_reducible apply Moves.inSub hq; decide)
    | with_reducible apply Moves.foldl
    | with_reducible intro _
    | (with_reducible apply List.Subset.trans ?_ ha; decide)
    | (with_reducible apply List.Subset.trans ?_ hq; decide)
    | split
    | dsimp only
    | with_reducible apply Moves.set_spareNeeds

theorem execUnitInserted_moves (u : Nat) (t : Nat) (s : State)
    (ha : [.tick, .pwr, .oe, .lsu] ⊆ as)
    (hq : [.fades] ⊆ ps)
    (h : Moves as ps s0 s) : ResMoves as ps s0 (execUnitInserted u t s) := by
  unfold execUnitInserted
  repeat' first
    | with_reducible assumption
    | with_reducible apply Moves.refl
    | with_reducible apply State.stamp_moves
    | with_reducible apply State.light_moves
    | with_reducible apply State.proveUnit_moves
    | with_reducible apply Moves.wr
    | with_reducible apply Moves.ite
    | with_reducible apply ResMoves.next
    | with_reducible apply ResMoves.fault
    | with_reducible apply ResMoves.refused
    | with_reducible apply ResMoves.ite
    | (with_reducible apply Moves.inSub ha; decide)
    | (with_reducible apply Moves.inSub hq; decide)
    | with_reducible apply Moves.each
    | with_reducible apply Moves.foldl
    | with_reducible intro _
    | (with_reducible apply List.Subset.trans ?_ ha; decide)
    | (with_reducible apply List.Subset.trans ?_ hq; decide)
    | split
    | dsimp only
    | with_reducible apply Moves.set_fades

theorem execToneWindow_moves (k : Nat) (r : Nat) (strongest : Nat) (margin10dB : Bool) (t : Nat) (s : State)
    (ha : [.tick, .imp, .forme, .fab, .pair, .core, .events, .cal, .gal, .cmp, .col, .ddl, .gst, .prs, .oe, .lnk, .lsu] ⊆ as)
    (hq : [.presses, .jobs, .lateXfers, .drains, .mgtLast, .calJobs, .calRuns, .mislocks, .swaps, .spareNeeds, .links, .relays, .mgtJobs, .out, .freeCount] ⊆ ps)
    (h : Moves as ps s0 s) : ResMoves as ps s0 (execToneWindow k r strongest margin10dB t s) := by
  unfold execToneWindow
  repeat' first
    | with_reducible assumption
    | with_reducible apply Moves.refl
    | with_reducible apply State.stamp_moves
    | with_reducible apply State.mislock_moves
    | with_reducible apply Moves.wr
    | with_reducible apply Moves.ite
    | with_reducible apply ResMoves.next
    | with_reducible apply ResMoves.fault
    | with_reducible apply ResMoves.refused
    | with_reducible apply ResMoves.ite
    | (with_reducible apply Moves.inSub ha; decide)
    | (with_reducible apply Moves.inSub hq; decide)
    | with_reducible apply Moves.foldl
    | with_reducible intro _
    | (with_reducible apply List.Subset.trans ?_ ha; decide)
    | (with_reducible apply List.Subset.trans ?_ hq; decide)
    | split
    | dsimp only

theorem execInterlockOpen_moves (u : Nat) (t : Nat) (s : State)
    (ha : [.tick, .imp, .forme, .fab, .pair, .core, .events, .cal, .gal, .cmp, .col, .ddl, .gst, .prs, .oe, .lnk, .lsu] ⊆ as)
    (hq : [.presses, .jobs, .lateXfers, .drains, .mgtLast, .calJobs, .calRuns, .swaps, .spareNeeds, .links, .relays, .mgtJobs, .out, .freeCount] ⊆ ps)
    (h : Moves as ps s0 s) : ResMoves as ps s0 (execInterlockOpen u t s) := by
  unfold execInterlockOpen
  repeat' first
    | with_reducible assumption
    | with_reducible apply Moves.refl
    | with_reducible apply State.stamp_moves
    | with_reducible apply State.covers_moves
    | with_reducible apply State.setUnit_moves
    | with_reducible apply State.loseUnit_moves
    | with_reducible apply Moves.ite
    | with_reducible apply ResMoves.next
    | with_reducible apply ResMoves.fault
    | with_reducible apply ResMoves.refused
    | with_reducible apply ResMoves.ite
    | (with_reducible apply Moves.inSub ha; decide)
    | (with_reducible apply Moves.inSub hq; decide)
    | with_reducible apply Moves.foldl
    | with_reducible intro _
    | (with_reducible apply List.Subset.trans ?_ ha; decide)
    | (with_reducible apply List.Subset.trans ?_ hq; decide)
    | split
    | dsimp only

theorem State.sweepRun_moves (s : State) (k : Nat) (r : Nat) (run : Nat) (c : CalJob)
    (ha : [.cal, .oe, .lnk, .lsu] ⊆ as)
    (hq : [.calJobs, .calRuns, .calFails, .ringErr, .swaps, .spareNeeds, .links] ⊆ ps)
    (h : Moves as ps s0 s) : Moves as ps s0 (State.sweepRun s k r run c) := by
  unfold State.sweepRun
  repeat' first
    | with_reducible assumption
    | with_reducible apply Moves.refl
    | with_reducible apply State.ringResult_moves
    | with_reducible apply State.jobSettle_moves
    | with_reducible apply Moves.bump
    | with_reducible apply Moves.ite
    | (with_reducible apply Moves.inSub ha; decide)
    | (with_reducible apply Moves.inSub hq; decide)
    | with_reducible apply Moves.foldl
    | with_reducible intro _
    | (with_reducible apply List.Subset.trans ?_ ha; decide)
    | (with_reducible apply List.Subset.trans ?_ hq; decide)
    | split
    | dsimp only
    | with_reducible apply Moves.set_calJobs
    | with_reducible apply Moves.set_calRuns
    | ((with_reducible apply Moves.update); on_goal 1 => (intro q hn; cases q <;> first | exact absurd (hq (by decide)) hn | rfl))

theorem State.toPrepare_moves (s : State) (n : Nat)
    (ha : [.cal, .oe, .lsu] ⊆ as)
    (h : Moves as ps s0 s) : Moves as ps s0 (State.toPrepare s n) := by
  unfold State.toPrepare
  repeat' first
    | with_reducible assumption
    | with_reducible apply Moves.refl
    | with_reducible apply State.noTwin_moves
    | with_reducible apply State.warm_moves
    | with_reducible apply Moves.wr
    | with_reducible apply Moves.bump
    | with_reducible apply Moves.ite
    | (with_reducible apply Moves.inSub ha; decide)
    | with_reducible apply Moves.foldl
    | with_reducible intro _
    | (with_reducible apply List.Subset.trans ?_ ha; decide)
    | split
    | dsimp only

theorem execLaserSample_moves (n : Nat) (output : Int) (bias : Nat) (t : Nat) (s : State)
    (ha : [.tick, .cal, .oe, .lsu] ⊆ as)
    (hq : [.calJobs, .calRuns, .swaps, .spareNeeds, .links, .fades] ⊆ ps)
    (h : Moves as ps s0 s) : ResMoves as ps s0 (execLaserSample n output bias t s) := by
  unfold execLaserSample
  repeat' first
    | with_reducible assumption
    | with_reducible apply Moves.refl
    | with_reducible apply State.stamp_moves
    | with_reducible apply State.toPrepare_moves
    | with_reducible apply State.noTwin_moves
    | with_reducible apply State.covers_moves
    | with_reducible apply State.toSwap_moves
    | with_reducible apply Moves.wr
    | with_reducible apply Moves.bump
    | with_reducible apply Moves.ite
    | with_reducible apply ResMoves.next
    | with_reducible apply ResMoves.fault
    | with_reducible apply ResMoves.refused
    | with_reducible apply ResMoves.ite
    | (with_reducible apply Moves.inSub ha; decide)
    | (with_reducible apply Moves.inSub hq; decide)
    | with_reducible apply Moves.foldl
    | with_reducible intro _
    | (with_reducible apply List.Subset.trans ?_ ha; decide)
    | (with_reducible apply List.Subset.trans ?_ hq; decide)
    | split
    | dsimp only
    | with_reducible apply Moves.set_fades

theorem execCalibrationSweepDone_moves (k : Nat) (r : Nat) (run : Nat) (t : Nat) (s : State)
    (ha : [.tick, .cal, .oe, .lnk, .lsu] ⊆ as)
    (hq : [.calJobs, .calRuns, .calFails, .ringErr, .swaps, .spareNeeds, .links] ⊆ ps)
    (h : Moves as ps s0 s) : ResMoves as ps s0 (execCalibrationSweepDone k r run t s) := by
  unfold execCalibrationSweepDone
  repeat' first
    | with_reducible assumption
    | with_reducible apply Moves.refl
    | with_reducible apply State.stamp_moves
    | with_reducible apply State.beginCal_moves
    | with_reducible apply State.sweepRun_moves
    | with_reducible apply Moves.ite
    | with_reducible apply ResMoves.next
    | with_reducible apply ResMoves.fault
    | with_reducible apply ResMoves.refused
    | with_reducible apply ResMoves.ite
    | (with_reducible apply Moves.inSub ha; decide)
    | (with_reducible apply Moves.inSub hq; decide)
    | with_reducible apply Moves.foldl
    | with_reducible intro _
    | (with_reducible apply List.Subset.trans ?_ ha; decide)
    | (with_reducible apply List.Subset.trans ?_ hq; decide)
    | split
    | dsimp only

theorem execWatchClear_moves (n : Nat) (t : Nat) (s : State)
    (ha : [.tick, .lsu] ⊆ as)
    (h : Moves as ps s0 s) : ResMoves as ps s0 (execWatchClear n t s) := by
  unfold execWatchClear
  repeat' first
    | with_reducible assumption
    | with_reducible apply Moves.refl
    | with_reducible apply State.stamp_moves
    | with_reducible apply Moves.wr
    | with_reducible apply Moves.ite
    | with_reducible apply ResMoves.next
    | with_reducible apply ResMoves.fault
    | with_reducible apply ResMoves.refused
    | with_reducible apply ResMoves.ite
    | (with_reducible apply Moves.inSub ha; decide)
    | with_reducible apply Moves.foldl
    | with_reducible intro _
    | (with_reducible apply List.Subset.trans ?_ ha; decide)
    | split
    | dsimp only

theorem execContinuousCalNext_moves (k : Nat) (j : Nat) (t : Nat) (s : State)
    (ha : [.tick, .cal, .oe] ⊆ as)
    (hq : [.calJobs, .calRuns, .links] ⊆ ps)
    (h : Moves as ps s0 s) : ResMoves as ps s0 (execContinuousCalNext k j t s) := by
  unfold execContinuousCalNext
  repeat' first
    | with_reducible assumption
    | with_reducible apply Moves.refl
    | with_reducible apply State.stamp_moves
    | with_reducible apply State.startCal_moves
    | with_reducible apply Moves.wr
    | with_reducible apply Moves.ite
    | with_reducible apply ResMoves.next
    | with_reducible apply ResMoves.fault
    | with_reducible apply ResMoves.refused
    | with_reducible apply ResMoves.ite
    | (with_reducible apply Moves.inSub ha; decide)
    | (with_reducible apply Moves.inSub hq; decide)
    | with_reducible apply Moves.foldl
    | with_reducible intro _
    | (with_reducible apply List.Subset.trans ?_ ha; decide)
    | (with_reducible apply List.Subset.trans ?_ hq; decide)
    | split
    | dsimp only

end Sys2Proof.Machine
end

