-- ==== Sys2Proof/Laws/MovesFabric.lean ====
section
/-!
SUPPORT. Footprints of the operations of Machine/Fabric.lean.
-/

namespace Sys2Proof.Machine

variable {as : List Area} {ps : List Part} {s0 : State}

theorem execFetch_moves (n : Nat) (b : Sys2Proof.Byp) (base : Nat) (t : Nat) (s : State)
    (ha : [.tick, .fab, .gal, .lnk] ⊆ as)
    (hq : [.links] ⊆ ps)
    (h : Moves as ps s0 s) : ResMoves as ps s0 (execFetch n b base t s) := by
  unfold execFetch
  repeat' first
    | with_reducible assumption
    | with_reducible apply Moves.refl
    | with_reducible apply State.byp_moves
    | with_reducible apply State.receiveReq_moves
    | with_reducible apply State.setLink_moves
    | with_reducible apply Moves.wr
    | with_reducible apply Moves.ite
    | with_reducible apply ResMoves.next
    | with_reducible apply ResMoves.fault
    | with_reducible apply ResMoves.refused
    | with_reducible apply ResMoves.ite
    | (with_reducible apply Moves.inSub ha; decide)
    | (with_reducible apply Moves.inSub hq; decide)
    | with_reducible apply Moves.foldl
    | with_reducible intro _
    | (with_reducible apply List.Subset.trans ?_ ha; decide)
    | (with_reducible apply List.Subset.trans ?_ hq; decide)
    | split
    | dsimp only

theorem execQuiesceTimeout_moves (n : Nat) (t : Nat) (s : State)
    (ha : [.tick, .imp, .forme, .fab, .pair, .core, .events, .cal, .gal, .cmp, .col, .ddl, .gst, .prs, .oe, .lnk, .lsu] ⊆ as)
    (hq : [.presses, .jobs, .lateXfers, .drains, .mgtLast, .calJobs, .swaps, .spareNeeds, .links, .relays, .mgtJobs, .out, .freeCount] ⊆ ps)
    (h : Moves as ps s0 s) : ResMoves as ps s0 (execQuiesceTimeout n t s) := by
  unfold execQuiesceTimeout
  repeat' first
    | with_reducible assumption
    | with_reducible apply Moves.refl
    | with_reducible apply State.atPort_moves
    | with_reducible apply State.linkDown_moves
    | with_reducible apply Moves.wr
    | with_reducible apply Moves.bump
    | with_reducible apply Moves.ite
    | with_reducible apply ResMoves.next
    | with_reducible apply ResMoves.fault
    | with_reducible apply ResMoves.refused
    | with_reducible apply ResMoves.ite
    | (with_reducible apply Moves.inSub ha; decide)
    | (with_reducible apply Moves.inSub hq; decide)
    | with_reducible apply Moves.foldl
    | with_reducible intro _
    | (with_reducible apply List.Subset.trans ?_ ha; decide)
    | (with_reducible apply List.Subset.trans ?_ hq; decide)
    | split
    | dsimp only

theorem State.steerSpare_moves (s : State) (f : Nat) (w : Nat) (a : Nat) (b : Nat)
    (ha : [.lnk] ⊆ as)
    (hq : [.links] ⊆ ps)
    (h : Moves as ps s0 s) : Moves as ps s0 (State.steerSpare s f w a b) := by
  unfold State.steerSpare
  repeat' first
    | with_reducible assumption
    | with_reducible apply Moves.refl
    | with_reducible apply State.setTx_moves
    | with_reducible apply State.setLane_moves
    | with_reducible apply Moves.ite
    | (with_reducible apply Moves.inSub ha; decide)
    | (with_reducible apply Moves.inSub hq; decide)
    | with_reducible apply Moves.foldl
    | with_reducible intro _
    | (with_reducible apply List.Subset.trans ?_ ha; decide)
    | (with_reducible apply List.Subset.trans ?_ hq; decide)
    | split
    | dsimp only

theorem execEditionStalled_moves (f : Nat) (t : Nat) (s : State)
    (ha : [.tick, .fab] ⊆ as)
    (h : Moves as ps s0 s) : ResMoves as ps s0 (execEditionStalled f t s) := by
  unfold execEditionStalled
  repeat' first
    | with_reducible assumption
    | with_reducible apply Moves.refl
    | with_reducible apply State.stamp_moves
    | with_reducible apply Moves.wr
    | with_reducible apply Moves.ite
    | with_reducible apply ResMoves.next
    | with_reducible apply ResMoves.fault
    | with_reducible apply ResMoves.refused
    | with_reducible apply ResMoves.ite
    | (with_reducible apply Moves.inSub ha; decide)
    | with_reducible apply Moves.foldl
    | with_reducible intro _
    | (with_reducible apply List.Subset.trans ?_ ha; decide)
    | split
    | dsimp only

theorem execPlantTimer_moves (n : Nat) (t : Nat) (s : State)
    (ha : [.tick] ⊆ as)
    (hq : [.links] ⊆ ps)
    (h : Moves as ps s0 s) : ResMoves as ps s0 (execPlantTimer n t s) := by
  unfold execPlantTimer
  repeat' first
    | with_reducible assumption
    | with_reducible apply Moves.refl
    | with_reducible apply State.atPort_moves
    | with_reducible apply State.sendByp_moves
    | with_reducible apply Moves.ite
    | with_reducible apply ResMoves.next
    | with_reducible apply ResMoves.fault
    | with_reducible apply ResMoves.refused
    | with_reducible apply ResMoves.ite
    | (with_reducible apply Moves.inSub ha; decide)
    | (with_reducible apply Moves.inSub hq; decide)
    | with_reducible apply Moves.each
    | with_reducible apply Moves.foldl
    | with_reducible intro _
    | (with_reducible apply List.Subset.trans ?_ ha; decide)
    | (with_reducible apply List.Subset.trans ?_ hq; decide)
    | split
    | dsimp only

theorem execPlant_moves (n : Nat) (b : Sys2Proof.Byp) (w : Nat) (s5 : Nat) (t : Nat) (s : State)
    (ha : [.tick, .fab, .gal, .lnk] ⊆ as)
    (hq : [.links] ⊆ ps)
    (h : Moves as ps s0 s) : ResMoves as ps s0 (execPlant n b w s5 t s) := by
  unfold execPlant
  repeat' first
    | with_reducible assumption
    | with_reducible apply Moves.refl
    | with_reducible apply State.byp_moves
    | with_reducible apply Moves.wr
    | with_reducible apply Moves.ite
    | with_reducible apply ResMoves.next
    | with_reducible apply ResMoves.fault
    | with_reducible apply ResMoves.refused
    | with_reducible apply ResMoves.ite
    | (with_reducible apply Moves.inSub ha; decide)
    | (with_reducible apply Moves.inSub hq; decide)
    | with_reducible apply Moves.foldl
    | with_reducible intro _
    | (with_reducible apply List.Subset.trans ?_ ha; decide)
    | (with_reducible apply List.Subset.trans ?_ hq; decide)
    | split
    | dsimp only

theorem State.openWindow_moves (s : State) (k : Nat) (route : Nat)
    (ha : [.oe, .lnk] ⊆ as)
    (h : Moves as ps s0 s) : Moves as ps s0 (State.openWindow s k route) := by
  unfold State.openWindow
  repeat' first
    | with_reducible assumption
    | with_reducible apply Moves.refl
    | with_reducible apply State.holdRing_moves
    | with_reducible apply Moves.wr
    | with_reducible apply Moves.bump
    | with_reducible apply Moves.ite
    | (with_reducible apply Moves.inSub ha; decide)
    | with_reducible apply Moves.each
    | with_reducible apply Moves.foldl
    | with_reducible intro _
    | (with_reducible apply List.Subset.trans ?_ ha; decide)
    | split
    | dsimp only

theorem execEditionToken_moves (n : Nat) (b : Sys2Proof.Byp) (edition : Nat) (t : Nat) (s : State)
    (ha : [.tick, .fab, .gal, .lnk] ⊆ as)
    (hq : [.links] ⊆ ps)
    (h : Moves as ps s0 s) : ResMoves as ps s0 (execEditionToken n b edition t s) := by
  unfold execEditionToken
  repeat' first
    | with_reducible assumption
    | with_reducible apply Moves.refl
    | with_reducible apply State.byp_moves
    | with_reducible apply State.setLink_moves
    | with_reducible apply State.settleLink_moves
    | with_reducible apply Moves.wr
    | with_reducible apply Moves.ite
    | with_reducible apply ResMoves.next
    | with_reducible apply ResMoves.fault
    | with_reducible apply ResMoves.refused
    | with_reducible apply ResMoves.ite
    | (with_reducible apply Moves.inSub ha; decide)
    | (with_reducible apply Moves.inSub hq; decide)
    | with_reducible apply Moves.foldl
    | with_reducible intro _
    | (with_reducible apply List.Subset.trans ?_ ha; decide)
    | (with_reducible apply List.Subset.trans ?_ hq; decide)
    | split
    | dsimp only

theorem State.closeWindow_moves (s : State) (k : Nat)
    (ha : [.oe, .lnk] ⊆ as)
    (hq : [.links] ⊆ ps)
    (h : Moves as ps s0 s) : Moves as ps s0 (State.closeWindow s k) := by
  unfold State.closeWindow
  repeat' first
    | with_reducible assumption
    | with_reducible apply Moves.refl
    | with_reducible apply State.unholdRing_moves
    | with_reducible apply State.setLane_moves
    | with_reducible apply Moves.wr
    | with_reducible apply Moves.ite
    | (with_reducible apply Moves.inSub ha; decide)
    | (with_reducible apply Moves.inSub hq; decide)
    | with_reducible apply Moves.each
    | with_reducible apply Moves.foldl
    | with_reducible intro _
    | (with_reducible apply List.Subset.trans ?_ ha; decide)
    | (with_reducible apply List.Subset.trans ?_ hq; decide)
    | split
    | dsimp only

theorem execQuiesce_moves (n : Nat) (b : Sys2Proof.Byp) (edition : Nat) (t : Nat) (s : State)
    (ha : [.tick, .fab, .gal, .lnk] ⊆ as)
    (hq : [.links] ⊆ ps)
    (h : Moves as ps s0 s) : ResMoves as ps s0 (execQuiesce n b edition t s) := by
  unfold execQuiesce
  repeat' first
    | with_reducible assumption
    | with_reducible apply Moves.refl
    | with_reducible apply State.byp_moves
    | with_reducible apply State.setLink_moves
    | with_reducible apply Moves.ite
    | with_reducible apply ResMoves.next
    | with_reducible apply ResMoves.fault
    | with_reducible apply ResMoves.refused
    | with_reducible apply ResMoves.ite
    | (with_reducible apply Moves.inSub ha; decide)
    | (with_reducible apply Moves.inSub hq; decide)
    | with_reducible apply Moves.foldl
    | with_reducible intro _
    | (with_reducible apply List.Subset.trans ?_ ha; decide)
    | (with_reducible apply List.Subset.trans ?_ hq; decide)
    | split
    | dsimp only

theorem State.moveUse_moves (s : State) (k : Nat) (f : Nat) (route : Nat)
    (ha : [.cal, .oe] ⊆ as)
    (hq : [.calJobs, .calRuns, .spareNeeds] ⊆ ps)
    (h : Moves as ps s0 s) : Moves as ps s0 (State.moveUse s k f route) := by
  unfold State.moveUse
  repeat' first
    | with_reducible assumption
    | with_reducible apply Moves.refl
    | with_reducible apply State.putSpare_moves
    | with_reducible apply State.preemptCal_moves
    | with_reducible apply Moves.ite
    | (with_reducible apply Moves.inSub ha; decide)
    | (with_reducible apply Moves.inSub hq; decide)
    | with_reducible apply Moves.foldl
    | with_reducible intro _
    | (with_reducible apply List.Subset.trans ?_ ha; decide)
    | (with_reducible apply List.Subset.trans ?_ hq; decide)
    | split
    | dsimp only
    | with_reducible apply Moves.set_spareNeeds

theorem State.setRoute_moves (s : State) (k : Nat) (route : Nat)
    (ha : [.cal, .oe, .lnk] ⊆ as)
    (hq : [.calJobs, .calRuns, .spareNeeds, .links] ⊆ ps)
    (h : Moves as ps s0 s) : Moves as ps s0 (State.setRoute s k route) := by
  unfold State.setRoute
  repeat' first
    | with_reducible assumption
    | with_reducible apply Moves.refl
    | with_reducible apply State.steerSpare_moves
    | with_reducible apply State.moveUse_moves
    | with_reducible apply Moves.wr
    | with_reducible apply Moves.ite
    | (with_reducible apply Moves.inSub ha; decide)
    | (with_reducible apply Moves.inSub hq; decide)
    | with_reducible apply Moves.each
    | with_reducible apply Moves.foldl
    | with_reducible intro _
    | (with_reducible apply List.Subset.trans ?_ ha; decide)
    | (with_reducible apply List.Subset.trans ?_ hq; decide)
    | split
    | dsimp only

theorem execEditionRepeat_moves (n : Nat) (t : Nat) (s : State)
    (ha : [.tick] ⊆ as)
    (hq : [.links] ⊆ ps)
    (h : Moves as ps s0 s) : ResMoves as ps s0 (execEditionRepeat n t s) := by
  unfold execEditionRepeat
  repeat' first
    | with_reducible assumption
    | with_reducible apply Moves.refl
    | with_reducible apply State.atPort_moves
    | with_reducible apply State.sendEdition_moves
    | with_reducible apply Moves.ite
    | with_reducible apply ResMoves.next
    | with_reducible apply ResMoves.fault
    | with_reducible apply ResMoves.refused
    | with_reducible apply ResMoves.ite
    | (with_reducible apply Moves.inSub ha; decide)
    | (with_reducible apply Moves.inSub hq; decide)
    | with_reducible apply Moves.foldl
    | with_reducible intro _
    | (with_reducible apply List.Subset.trans ?_ ha; decide)
    | (with_reducible apply List.Subset.trans ?_ hq; decide)
    | split
    | dsimp only

theorem execSteerWindowEnd_moves (k : Nat) (unaligned : List (Nat × Nat)) (t : Nat) (s : State)
    (ha : [.tick, .imp, .forme, .fab, .pair, .core, .events, .cal, .gal, .cmp, .col, .ddl, .gst, .prs, .oe, .lnk, .lsu] ⊆ as)
    (hq : [.presses, .jobs, .lateXfers, .drains, .mgtLast, .calJobs, .calRuns, .swaps, .spareNeeds, .links, .relays, .mgtJobs, .out, .freeCount] ⊆ ps)
    (h : Moves as ps s0 s) : ResMoves as ps s0 (execSteerWindowEnd k unaligned t s) := by
  unfold execSteerWindowEnd
  repeat' first
    | with_reducible assumption
    | with_reducible apply Moves.refl
    | with_reducible apply State.stamp_moves
    | with_reducible apply State.setRoute_moves
    | with_reducible apply State.closeWindow_moves
    | with_reducible apply State.laneOut_moves
    | with_reducible apply Moves.ite
    | with_reducible apply ResMoves.next
    | with_reducible apply ResMoves.fault
    | with_reducible apply ResMoves.refused
    | with_reducible apply ResMoves.ite
    | (with_reducible apply Moves.inSub ha; decide)
    | (with_reducible apply Moves.inSub hq; decide)
    | with_reducible apply Moves.each
    | with_reducible apply Moves.foldl
    | with_reducible intro _
    | (with_reducible apply List.Subset.trans ?_ ha; decide)
    | (with_reducible apply List.Subset.trans ?_ hq; decide)
    | split
    | dsimp only

theorem execBarrierRoundComplete_moves (f : Nat) (bar : Nat) (t : Nat) (s : State)
    (ha : [.tick, .oe, .lnk] ⊆ as)
    (hq : [.barDone] ⊆ ps)
    (h : Moves as ps s0 s) : ResMoves as ps s0 (execBarrierRoundComplete f bar t s) := by
  unfold execBarrierRoundComplete
  repeat' first
    | with_reducible assumption
    | with_reducible apply Moves.refl
    | with_reducible apply State.stamp_moves
    | with_reducible apply State.openWindow_moves
    | with_reducible apply Moves.ite
    | with_reducible apply ResMoves.next
    | with_reducible apply ResMoves.fault
    | with_reducible apply ResMoves.refused
    | with_reducible apply ResMoves.ite
    | (with_reducible apply Moves.inSub ha; decide)
    | (with_reducible apply Moves.inSub hq; decide)
    | with_reducible apply Moves.each
    | with_reducible apply Moves.foldl
    | with_reducible intro _
    | (with_reducible apply List.Subset.trans ?_ ha; decide)
    | (with_reducible apply List.Subset.trans ?_ hq; decide)
    | split
    | dsimp only
    | with_reducible apply Moves.set_barDone

theorem execFetchAck_moves (n : Nat) (b : Sys2Proof.Byp) (base : Nat) (t : Nat) (s : State)
    (ha : [.tick, .fab, .gal, .lnk] ⊆ as)
    (hq : [.links] ⊆ ps)
    (h : Moves as ps s0 s) : ResMoves as ps s0 (execFetchAck n b base t s) := by
  unfold execFetchAck
  repeat' first
    | with_reducible assumption
    | with_reducible apply Moves.refl
    | with_reducible apply State.byp_moves
    | with_reducible apply State.receiveAck_moves
    | with_reducible apply Moves.wr
    | with_reducible apply Moves.ite
    | with_reducible apply ResMoves.next
    | with_reducible apply ResMoves.fault
    | with_reducible apply ResMoves.refused
    | with_reducible apply ResMoves.ite
    | (with_reducible apply Moves.inSub ha; decide)
    | (with_reducible apply Moves.inSub hq; decide)
    | with_reducible apply Moves.foldl
    | with_reducible intro _
    | (with_reducible apply List.Subset.trans ?_ ha; decide)
    | (with_reducible apply List.Subset.trans ?_ hq; decide)
    | split
    | dsimp only

theorem execTokenRepeat_moves (n : Nat) (t : Nat) (s : State)
    (ha : [.tick] ⊆ as)
    (hq : [.links] ⊆ ps)
    (h : Moves as ps s0 s) : ResMoves as ps s0 (execTokenRepeat n t s) := by
  unfold execTokenRepeat
  repeat' first
    | with_reducible assumption
    | with_reducible apply Moves.refl
    | with_reducible apply State.atPort_moves
    | with_reducible apply State.repeatTokens_moves
    | with_reducible apply Moves.ite
    | with_reducible apply ResMoves.next
    | with_reducible apply ResMoves.fault
    | with_reducible apply ResMoves.refused
    | with_reducible apply ResMoves.ite
    | (with_reducible apply Moves.inSub ha; decide)
    | (with_reducible apply Moves.inSub hq; decide)
    | with_reducible apply Moves.foldl
    | with_reducible intro _
    | (with_reducible apply List.Subset.trans ?_ ha; decide)
    | (with_reducible apply List.Subset.trans ?_ hq; decide)
    | split
    | dsimp only

theorem execIdentityWrite_moves (value : Nat) (s : State)
    (ha : [.fab] ⊆ as)
    (h : Moves as ps s0 s) : ResMoves as ps s0 (execIdentityWrite value s) := by
  unfold execIdentityWrite
  repeat' first
    | with_reducible assumption
    | with_reducible apply Moves.refl
    | with_reducible apply Moves.wr
    | with_reducible apply Moves.ite
    | with_reducible apply ResMoves.next
    | with_reducible apply ResMoves.fault
    | with_reducible apply ResMoves.refused
    | with_reducible apply ResMoves.ite
    | (with_reducible apply Moves.inSub ha; decide)
    | with_reducible apply Moves.foldl
    | with_reducible intro _
    | (with_reducible apply List.Subset.trans ?_ ha; decide)
    | split
    | dsimp only

end Sys2Proof.Machine
end

