-- ==== Sys2Proof/Laws/MovesDies.lean ====
section
/-!
SUPPORT. Footprints of the operations of Machine/Dies.lean.
-/

namespace Sys2Proof.Machine

variable {as : List Area} {ps : List Part} {s0 : State}

theorem execDieLinkDown_moves (l : Nat) (t : Nat) (s : State)
    (ha : [.tick, .imp, .forme, .fab, .pair, .pwr, .core, .events, .cal, .gal, .cmp, .col, .ddl, .gst, .prs, .oe, .lnk, .lsu] ⊆ as)
    (hq : [.presses, .jobs, .lateXfers, .drains, .mgtLast, .calJobs, .swaps, .spareNeeds, .links, .relays, .mgtJobs, .out, .freeCount] ⊆ ps)
    (h : Moves as ps s0 s) : ResMoves as ps s0 (execDieLinkDown l t s) := by
  unfold execDieLinkDown
  repeat' first
    | with_reducible assumption
    | with_reducible apply Moves.refl
    | with_reducible apply State.dieDown_moves
    | with_reducible apply State.stamp_moves
    | with_reducible apply Moves.ite
    | with_reducible apply ResMoves.next
    | with_reducible apply ResMoves.fault
    | with_reducible apply ResMoves.refused
    | with_reducible apply ResMoves.ite
    | (with_reducible apply Moves.inSub ha; decide)
    | (with_reducible apply Moves.inSub hq; decide)
    | with_reducible apply Moves.foldl
    | with_reducible intro _
    | (with_reducible apply List.Subset.trans ?_ ha; decide)
    | (with_reducible apply List.Subset.trans ?_ hq; decide)
    | split
    | dsimp only

theorem execDieLinkRetry_moves (l : Nat) (t : Nat) (s : State)
    (ha : [.tick, .events, .cal, .ddl, .oe, .lnk, .lsu] ⊆ as)
    (hq : [.calJobs, .swaps, .links] ⊆ ps)
    (h : Moves as ps s0 s) : ResMoves as ps s0 (execDieLinkRetry l t s) := by
  unfold execDieLinkRetry
  repeat' first
    | with_reducible assumption
    | with_reducible apply Moves.refl
    | with_reducible apply State.stamp_moves
    | with_reducible apply State.setLink_moves
    | with_reducible apply State.toAlign_moves
    | with_reducible apply Moves.ite
    | with_reducible apply ResMoves.next
    | with_reducible apply ResMoves.fault
    | with_reducible apply ResMoves.refused
    | with_reducible apply ResMoves.ite
    | (with_reducible apply Moves.inSub ha; decide)
    | (with_reducible apply Moves.inSub hq; decide)
    | with_reducible apply Moves.foldl
    | with_reducible intro _
    | (with_reducible apply List.Subset.trans ?_ ha; decide)
    | (with_reducible apply List.Subset.trans ?_ hq; decide)
    | split
    | dsimp only

theorem State.atDie_moves (s : State) (l : Nat) (e : Nat) (t : Nat) (run : State → State)
    (ha : [.tick] ⊆ as)
    (hr : ∀ x0, Moves as ps s0 x0 → Moves as ps s0 (run x0))
    (h : Moves as ps s0 s) : ResMoves as ps s0 (State.atDie s l e t run) := by
  unfold State.atDie
  repeat' first
    | with_reducible assumption
    | with_reducible apply Moves.refl
    | with_reducible apply State.stamp_moves
    | with_reducible apply Moves.ite
    | with_reducible apply ResMoves.next
    | with_reducible apply ResMoves.fault
    | with_reducible apply ResMoves.refused
    | with_reducible apply ResMoves.ite
    | (with_reducible apply Moves.inSub ha; decide)
    | with_reducible apply Moves.foldl
    | with_reducible apply hr
    | with_reducible intro _
    | (with_reducible apply List.Subset.trans ?_ ha; decide)
    | split
    | dsimp only

theorem State.takeGroups_moves (s : State) (n : Nat) (mask : Nat)
    (ha : [.lnk] ⊆ as)
    (hq : [.links] ⊆ ps)
    (h : Moves as ps s0 s) : Moves as ps s0 (State.takeGroups s n mask) := by
  unfold State.takeGroups
  repeat' first
    | with_reducible assumption
    | with_reducible apply Moves.refl
    | with_reducible apply State.setLane_moves
    | with_reducible apply State.setLink_moves
    | with_reducible apply Moves.ite
    | (with_reducible apply Moves.inSub ha; decide)
    | (with_reducible apply Moves.inSub hq; decide)
    | with_reducible apply Moves.each
    | with_reducible apply Moves.foldl
    | with_reducible intro _
    | (with_reducible apply List.Subset.trans ?_ ha; decide)
    | (with_reducible apply List.Subset.trans ?_ hq; decide)
    | split
    | dsimp only

theorem State.atGuest_moves (s : State) (g : Nat) (t : Nat) (run : State → State)
    (ha : [.tick] ⊆ as)
    (hr : ∀ x0, Moves as ps s0 x0 → Moves as ps s0 (run x0))
    (h : Moves as ps s0 s) : ResMoves as ps s0 (State.atGuest s g t run) := by
  unfold State.atGuest
  repeat' first
    | with_reducible assumption
    | with_reducible apply Moves.refl
    | with_reducible apply State.stamp_moves
    | with_reducible apply Moves.ite
    | with_reducible apply ResMoves.next
    | with_reducible apply ResMoves.fault
    | with_reducible apply ResMoves.refused
    | with_reducible apply ResMoves.ite
    | (with_reducible apply Moves.inSub ha; decide)
    | with_reducible apply Moves.foldl
    | with_reducible apply hr
    | with_reducible intro _
    | (with_reducible apply List.Subset.trans ?_ ha; decide)
    | split
    | dsimp only

theorem State.guestOut_moves (s : State) (g : Nat) (st : Nat)
    (ha : [.gst] ⊆ as)
    (h : Moves as ps s0 s) : Moves as ps s0 (State.guestOut s g st) := by
  unfold State.guestOut
  repeat' first
    | with_reducible assumption
    | with_reducible apply Moves.refl
    | with_reducible apply Moves.wrAll
    | with_reducible apply areas_cons
    | with_reducible apply areas_nil
    | with_reducible apply Moves.ite
    | (with_reducible apply Moves.inSub ha; decide)
    | with_reducible apply Moves.foldl
    | with_reducible intro _
    | (with_reducible apply List.Subset.trans ?_ ha; decide)
    | split
    | dsimp only

theorem execGuestHello_moves (g : Nat) (cap : Nat) (t : Nat) (s : State)
    (ha : [.tick, .gst] ⊆ as)
    (h : Moves as ps s0 s) : ResMoves as ps s0 (execGuestHello g cap t s) := by
  unfold execGuestHello
  repeat' first
    | with_reducible assumption
    | with_reducible apply Moves.refl
    | with_reducible apply State.atGuest_moves
    | with_reducible apply State.guestOut_moves
    | with_reducible apply Moves.wr
    | with_reducible apply Moves.ite
    | with_reducible apply ResMoves.next
    | with_reducible apply ResMoves.fault
    | with_reducible apply ResMoves.refused
    | with_reducible apply ResMoves.ite
    | (with_reducible apply Moves.inSub ha; decide)
    | with_reducible apply Moves.foldl
    | with_reducible intro _
    | (with_reducible apply List.Subset.trans ?_ ha; decide)
    | split
    | dsimp only

theorem execGuestPost_moves (g : Nat) (value : Nat) (s : State)
    (ha : [.tick] ⊆ as)
    (hq : [.out] ⊆ ps)
    (h : Moves as ps s0 s) : ResMoves as ps s0 (execGuestPost g value s) := by
  unfold execGuestPost
  repeat' first
    | with_reducible assumption
    | with_reducible apply Moves.refl
    | with_reducible apply State.atGuest_moves
    | with_reducible apply State.guestMsg_moves
    | with_reducible apply Moves.ite
    | with_reducible apply ResMoves.next
    | with_reducible apply ResMoves.fault
    | with_reducible apply ResMoves.refused
    | with_reducible apply ResMoves.ite
    | (with_reducible apply Moves.inSub ha; decide)
    | (with_reducible apply Moves.inSub hq; decide)
    | with_reducible apply Moves.foldl
    | with_reducible intro _
    | (with_reducible apply List.Subset.trans ?_ ha; decide)
    | (with_reducible apply List.Subset.trans ?_ hq; decide)
    | split
    | dsimp only

theorem State.guestServe_moves (s : State) (g : Nat) (r : Sys2Proof.VcReq) (data : Option (List Sys2Proof.Byte))
    (ha : [.tick, .prf, .core, .gal, .gst, .mem] ⊆ as)
    (hq : [.mem, .heldAccs, .dirtyShared, .mgtLast, .links, .repairMap, .ceLog, .mgtJobs, .dropped, .out, .freeCount] ⊆ ps)
    (h : Moves as ps s0 s) : ResMoves as ps s0 (State.guestServe s g r data) := by
  unfold State.guestServe
  repeat' first
    | with_reducible assumption
    | with_reducible apply Moves.refl
    | with_reducible apply State.atGuest_moves
    | with_reducible apply State.access_moves
    | with_reducible apply State.guestError_moves
    | with_reducible apply Moves.bump
    | with_reducible apply Moves.ite
    | with_reducible apply ResMoves.next
    | with_reducible apply ResMoves.fault
    | with_reducible apply ResMoves.refused
    | with_reducible apply ResMoves.ite
    | (with_reducible apply Moves.inSub ha; decide)
    | (with_reducible apply Moves.inSub hq; decide)
    | with_reducible apply Moves.foldl
    | with_reducible intro _
    | (with_reducible apply List.Subset.trans ?_ ha; decide)
    | (with_reducible apply List.Subset.trans ?_ hq; decide)
    | split
    | dsimp only

theorem execGuestWrite_moves (g : Nat) (r : Sys2Proof.VcReq) (data : List (BitVec 8)) (s : State)
    (ha : [.tick, .prf, .core, .gal, .gst, .mem] ⊆ as)
    (hq : [.mem, .heldAccs, .dirtyShared, .mgtLast, .links, .repairMap, .ceLog, .mgtJobs, .dropped, .out, .freeCount] ⊆ ps)
    (h : Moves as ps s0 s) : ResMoves as ps s0 (execGuestWrite g r data s) := by
  unfold execGuestWrite
  repeat' first
    | with_reducible assumption
    | with_reducible apply Moves.refl
    | with_reducible apply State.guestServe_moves
    | with_reducible apply Moves.ite
    | with_reducible apply ResMoves.next
    | with_reducible apply ResMoves.fault
    | with_reducible apply ResMoves.refused
    | with_reducible apply ResMoves.ite
    | (with_reducible apply Moves.inSub ha; decide)
    | (with_reducible apply Moves.inSub hq; decide)
    | with_reducible apply Moves.foldl
    | with_reducible intro _
    | (with_reducible apply List.Subset.trans ?_ ha; decide)
    | (with_reducible apply List.Subset.trans ?_ hq; decide)
    | split
    | dsimp only

theorem State.dieByp_moves (s : State) (l : Nat) (e : Nat) (b : Sys2Proof.Byp) (kind : Nat) (arg : Nat) (t : Nat) (run : State → State)
    (ha : [.tick, .fab, .gal, .lnk] ⊆ as)
    (hq : [.links] ⊆ ps)
    (hr : ∀ x0, Moves as ps s0 x0 → Moves as ps s0 (run x0))
    (h : Moves as ps s0 s) : ResMoves as ps s0 (State.dieByp s l e b kind arg t run) := by
  unfold State.dieByp
  repeat' first
    | with_reducible assumption
    | with_reducible apply Moves.refl
    | with_reducible apply State.byp_moves
    | with_reducible apply Moves.ite
    | with_reducible apply ResMoves.next
    | with_reducible apply ResMoves.fault
    | with_reducible apply ResMoves.refused
    | with_reducible apply ResMoves.ite
    | (with_reducible apply Moves.inSub ha; decide)
    | (with_reducible apply Moves.inSub hq; decide)
    | with_reducible apply Moves.foldl
    | with_reducible apply hr
    | with_reducible intro _
    | (with_reducible apply List.Subset.trans ?_ ha; decide)
    | (with_reducible apply List.Subset.trans ?_ hq; decide)
    | split
    | dsimp only

theorem State.switchWidth_moves (s : State) (l : Nat) (mask : Nat)
    (ha : [.events, .ddl, .lnk] ⊆ as)
    (hq : [.links] ⊆ ps)
    (h : Moves as ps s0 s) : Moves as ps s0 (State.switchWidth s l mask) := by
  unfold State.switchWidth
  repeat' first
    | with_reducible assumption
    | with_reducible apply Moves.refl
    | with_reducible apply State.takeGroups_moves
    | with_reducible apply State.setLink_moves
    | with_reducible apply State.ddlBump_moves
    | with_reducible apply State.ddlWr_moves
    | with_reducible apply State.groupFields_moves
    | with_reducible apply Moves.wr
    | with_reducible apply Moves.ite
    | (with_reducible apply Moves.inSub ha; decide)
    | (with_reducible apply Moves.inSub hq; decide)
    | with_reducible apply Moves.each
    | with_reducible apply Moves.foldl
    | with_reducible intro _
    | (with_reducible apply List.Subset.trans ?_ ha; decide)
    | (with_reducible apply List.Subset.trans ?_ hq; decide)
    | split
    | dsimp only

theorem execDwidthAck_moves (l : Nat) (e : Nat) (b : Sys2Proof.Byp) (mask : Nat) (t : Nat) (s : State)
    (ha : [.tick, .imp, .forme, .fab, .pair, .pwr, .core, .events, .cal, .gal, .cmp, .col, .ddl, .gst, .prs, .oe, .lnk, .lsu] ⊆ as)
    (hq : [.presses, .jobs, .lateXfers, .drains, .mgtLast, .calJobs, .swaps, .spareNeeds, .links, .relays, .mgtJobs, .out, .freeCount] ⊆ ps)
    (h : Moves as ps s0 s) : ResMoves as ps s0 (execDwidthAck l e b mask t s) := by
  unfold execDwidthAck
  repeat' first
    | with_reducible assumption
    | with_reducible apply Moves.refl
    | with_reducible apply State.dieByp_moves
    | with_reducible apply State.receiveAck_moves
    | with_reducible apply State.issueNext_moves
    | with_reducible apply State.switchWidth_moves
    | with_reducible apply State.wantWidth_moves
    | with_reducible apply Moves.ite
    | with_reducible apply ResMoves.next
    | with_reducible apply ResMoves.fault
    | with_reducible apply ResMoves.refused
    | with_reducible apply ResMoves.ite
    | (with_reducible apply Moves.inSub ha; decide)
    | (with_reducible apply Moves.inSub hq; decide)
    | with_reducible apply Moves.foldl
    | with_reducible intro _
    | (with_reducible apply List.Subset.trans ?_ ha; decide)
    | (with_reducible apply List.Subset.trans ?_ hq; decide)
    | split
    | dsimp only

theorem execDlaneDrop_moves (l : Nat) (e : Nat) (b : Sys2Proof.Byp) (lane : Nat) (t : Nat) (s : State)
    (ha : [.tick, .fab, .gal, .lnk] ⊆ as)
    (hq : [.links] ⊆ ps)
    (h : Moves as ps s0 s) : ResMoves as ps s0 (execDlaneDrop l e b lane t s) := by
  unfold execDlaneDrop
  repeat' first
    | with_reducible assumption
    | with_reducible apply Moves.refl
    | with_reducible apply State.dieByp_moves
    | with_reducible apply State.mark_moves
    | with_reducible apply State.setLink_moves
    | with_reducible apply Moves.ite
    | with_reducible apply ResMoves.next
    | with_reducible apply ResMoves.fault
    | with_reducible apply ResMoves.refused
    | with_reducible apply ResMoves.ite
    | (with_reducible apply Moves.inSub ha; decide)
    | (with_reducible apply Moves.inSub hq; decide)
    | with_reducible apply Moves.foldl
    | with_reducible intro _
    | (with_reducible apply List.Subset.trans ?_ ha; decide)
    | (with_reducible apply List.Subset.trans ?_ hq; decide)
    | split
    | dsimp only

theorem execGuestRetry_moves (g : Nat) (t : Nat) (s : State)
    (ha : [.tick, .gst] ⊆ as)
    (h : Moves as ps s0 s) : ResMoves as ps s0 (execGuestRetry g t s) := by
  unfold execGuestRetry
  repeat' first
    | with_reducible assumption
    | with_reducible apply Moves.refl
    | with_reducible apply State.atGuest_moves
    | with_reducible apply Moves.wr
    | with_reducible apply Moves.ite
    | with_reducible apply ResMoves.next
    | with_reducible apply ResMoves.fault
    | with_reducible apply ResMoves.refused
    | with_reducible apply ResMoves.ite
    | (with_reducible apply Moves.inSub ha; decide)
    | with_reducible apply Moves.foldl
    | with_reducible intro _
    | (with_reducible apply List.Subset.trans ?_ ha; decide)
    | split
    | dsimp only

theorem execGuestRead_moves (g : Nat) (r : Sys2Proof.VcReq) (s : State)
    (ha : [.tick, .prf, .core, .gal, .gst, .mem] ⊆ as)
    (hq : [.mem, .heldAccs, .dirtyShared, .mgtLast, .links, .repairMap, .ceLog, .mgtJobs, .dropped, .out, .freeCount] ⊆ ps)
    (h : Moves as ps s0 s) : ResMoves as ps s0 (execGuestRead g r s) := by
  unfold execGuestRead
  repeat' first
    | with_reducible assumption
    | with_reducible apply Moves.refl
    | with_reducible apply State.guestServe_moves
    | with_reducible apply Moves.ite
    | with_reducible apply ResMoves.next
    | with_reducible apply ResMoves.fault
    | with_reducible apply ResMoves.refused
    | with_reducible apply ResMoves.ite
    | (with_reducible apply Moves.inSub ha; decide)
    | (with_reducible apply Moves.inSub hq; decide)
    | with_reducible apply Moves.foldl
    | with_reducible intro _
    | (with_reducible apply List.Subset.trans ?_ ha; decide)
    | (with_reducible apply List.Subset.trans ?_ hq; decide)
    | split
    | dsimp only

theorem execGroupHealthy_moves (l : Nat) (e : Nat) (g : Nat) (t : Nat) (s : State)
    (ha : [.tick, .imp, .forme, .fab, .pair, .pwr, .core, .events, .cal, .gal, .cmp, .col, .ddl, .gst, .prs, .oe, .lnk, .lsu] ⊆ as)
    (hq : [.presses, .jobs, .lateXfers, .drains, .mgtLast, .calJobs, .swaps, .spareNeeds, .links, .relays, .mgtJobs, .out, .freeCount] ⊆ ps)
    (h : Moves as ps s0 s) : ResMoves as ps s0 (execGroupHealthy l e g t s) := by
  unfold execGroupHealthy
  repeat' first
    | with_reducible assumption
    | with_reducible apply Moves.refl
    | with_reducible apply State.atDie_moves
    | with_reducible apply State.setLink_moves
    | with_reducible apply State.wantWidth_moves
    | with_reducible apply State.groupFields_moves
    | with_reducible apply Moves.ite
    | with_reducible apply ResMoves.next
    | with_reducible apply ResMoves.fault
    | with_reducible apply ResMoves.refused
    | with_reducible apply ResMoves.ite
    | (with_reducible apply Moves.inSub ha; decide)
    | (with_reducible apply Moves.inSub hq; decide)
    | with_reducible apply Moves.foldl
    | with_reducible intro _
    | (with_reducible apply List.Subset.trans ?_ ha; decide)
    | (with_reducible apply List.Subset.trans ?_ hq; decide)
    | split
    | dsimp only

theorem execGuestTrain_moves (g : Nat) (offer : Sys2Proof.GuestOffer) (t : Nat) (s : State)
    (ha : [.tick, .gst] ⊆ as)
    (hq : [.out] ⊆ ps)
    (h : Moves as ps s0 s) : ResMoves as ps s0 (execGuestTrain g offer t s) := by
  unfold execGuestTrain
  repeat' first
    | with_reducible assumption
    | with_reducible apply Moves.refl
    | with_reducible apply State.atGuest_moves
    | with_reducible apply State.guestOut_moves
    | with_reducible apply State.guestMsg_moves
    | with_reducible apply Moves.wr
    | with_reducible apply Moves.ite
    | with_reducible apply ResMoves.next
    | with_reducible apply ResMoves.fault
    | with_reducible apply ResMoves.refused
    | with_reducible apply ResMoves.ite
    | (with_reducible apply Moves.inSub ha; decide)
    | (with_reducible apply Moves.inSub hq; decide)
    | with_reducible apply Moves.foldl
    | with_reducible intro _
    | (with_reducible apply List.Subset.trans ?_ ha; decide)
    | (with_reducible apply List.Subset.trans ?_ hq; decide)
    | split
    | dsimp only

theorem execLowPowerRequest_moves (g : Nat) (s : State)
    (ha : [.tick] ⊆ as)
    (h : Moves as ps s0 s) : ResMoves as ps s0 (execLowPowerRequest g s) := by
  unfold execLowPowerRequest
  repeat' first
    | with_reducible assumption
    | with_reducible apply Moves.refl
    | with_reducible apply State.atGuest_moves
    | with_reducible apply Moves.ite
    | with_reducible apply ResMoves.next
    | with_reducible apply ResMoves.fault
    | with_reducible apply ResMoves.refused
    | with_reducible apply ResMoves.ite
    | (with_reducible apply Moves.inSub ha; decide)
    | with_reducible apply Moves.foldl
    | with_reducible intro _
    | (with_reducible apply List.Subset.trans ?_ ha; decide)
    | split
    | dsimp only

theorem execDwidthReq_moves (l : Nat) (e : Nat) (b : Sys2Proof.Byp) (mask : Nat) (t : Nat) (s : State)
    (ha : [.tick, .fab, .gal, .lnk] ⊆ as)
    (hq : [.links] ⊆ ps)
    (h : Moves as ps s0 s) : ResMoves as ps s0 (execDwidthReq l e b mask t s) := by
  unfold execDwidthReq
  repeat' first
    | with_reducible assumption
    | with_reducible apply Moves.refl
    | with_reducible apply State.dieByp_moves
    | with_reducible apply State.receiveReq_moves
    | with_reducible apply State.setLink_moves
    | with_reducible apply Moves.ite
    | with_reducible apply ResMoves.next
    | with_reducible apply ResMoves.fault
    | with_reducible apply ResMoves.refused
    | with_reducible apply ResMoves.ite
    | (with_reducible apply Moves.inSub ha; decide)
    | (with_reducible apply Moves.inSub hq; decide)
    | with_reducible apply Moves.foldl
    | with_reducible intro _
    | (with_reducible apply List.Subset.trans ?_ ha; decide)
    | (with_reducible apply List.Subset.trans ?_ hq; decide)
    | split
    | dsimp only

theorem execGuestLinkDown_moves (g : Nat) (t : Nat) (s : State)
    (ha : [.tick, .irq, .gst] ⊆ as)
    (hq : [.heldAccs] ⊆ ps)
    (h : Moves as ps s0 s) : ResMoves as ps s0 (execGuestLinkDown g t s) := by
  unfold execGuestLinkDown
  repeat' first
    | with_reducible assumption
    | with_reducible apply Moves.refl
    | with_reducible apply State.atGuest_moves
    | with_reducible apply State.irqDeliver_moves
    | with_reducible apply State.guestOut_moves
    | with_reducible apply Moves.wr
    | with_reducible apply Moves.bump
    | with_reducible apply Moves.ite
    | with_reducible apply ResMoves.next
    | with_reducible apply ResMoves.fault
    | with_reducible apply ResMoves.refused
    | with_reducible apply ResMoves.ite
    | (with_reducible apply Moves.inSub ha; decide)
    | (with_reducible apply Moves.inSub hq; decide)
    | with_reducible apply Moves.foldl
    | with_reducible intro _
    | (with_reducible apply List.Subset.trans ?_ ha; decide)
    | (with_reducible apply List.Subset.trans ?_ hq; decide)
    | split
    | dsimp only
    | with_reducible apply Moves.set_heldAccs

theorem execGuestNotify_moves (g : Nat) (value : Nat) (t : Nat) (s : State)
    (ha : [.tick, .irq, .gst] ⊆ as)
    (h : Moves as ps s0 s) : ResMoves as ps s0 (execGuestNotify g value t s) := by
  unfold execGuestNotify
  repeat' first
    | with_reducible assumption
    | with_reducible apply Moves.refl
    | with_reducible apply State.atGuest_moves
    | with_reducible apply State.irqDeliver_moves
    | with_reducible apply Moves.wr
    | with_reducible apply Moves.ite
    | with_reducible apply ResMoves.next
    | with_reducible apply ResMoves.fault
    | with_reducible apply ResMoves.refused
    | with_reducible apply ResMoves.ite
    | (with_reducible apply Moves.inSub ha; decide)
    | with_reducible apply Moves.foldl
    | with_reducible intro _
    | (with_reducible apply List.Subset.trans ?_ ha; decide)
    | split
    | dsimp only

theorem execGroupClockLost_moves (l : Nat) (e : Nat) (g : Nat) (t : Nat) (s : State)
    (ha : [.tick, .imp, .forme, .fab, .pair, .pwr, .core, .events, .cal, .gal, .cmp, .col, .ddl, .gst, .prs, .oe, .lnk, .lsu] ⊆ as)
    (hq : [.presses, .jobs, .lateXfers, .drains, .mgtLast, .calJobs, .swaps, .spareNeeds, .links, .relays, .mgtJobs, .out, .freeCount] ⊆ ps)
    (h : Moves as ps s0 s) : ResMoves as ps s0 (execGroupClockLost l e g t s) := by
  unfold execGroupClockLost
  repeat' first
    | with_reducible assumption
    | with_reducible apply Moves.refl
    | with_reducible apply State.atDie_moves
    | with_reducible apply State.groupFields_moves
    | with_reducible apply State.setLink_moves
    | with_reducible apply State.dieDown_moves
    | with_reducible apply State.wantWidth_moves
    | with_reducible apply State.failAttempt_moves
    | with_reducible apply Moves.ite
    | with_reducible apply ResMoves.next
    | with_reducible apply ResMoves.fault
    | with_reducible apply ResMoves.refused
    | with_reducible apply ResMoves.ite
    | (with_reducible apply Moves.inSub ha; decide)
    | (with_reducible apply Moves.inSub hq; decide)
    | with_reducible apply Moves.foldl
    | with_reducible intro _
    | (with_reducible apply List.Subset.trans ?_ ha; decide)
    | (with_reducible apply List.Subset.trans ?_ hq; decide)
    | split
    | dsimp only

end Sys2Proof.Machine
end

