-- ==== Sys2Proof/Laws/MovesFormes.lean ====
section
/-!
SUPPORT. Footprints of the operations of Machine/Formes.lean.
-/

namespace Sys2Proof.Machine

variable {as : List Area} {ps : List Part} {s0 : State}

theorem State.judgeEngines_moves (s : State) (x : Forme)
    (ha : [.oe] ⊆ as)
    (h : Moves as ps s0 s) : Moves as ps s0 (State.judgeEngines s x) := by
  unfold State.judgeEngines
  repeat' first
    | with_reducible assumption
    | with_reducible apply Moves.refl
    | with_reducible apply Moves.wr
    | with_reducible apply Moves.ite
    | (with_reducible apply Moves.inSub ha; decide)
    | with_reducible apply Moves.each
    | with_reducible apply Moves.foldl
    | with_reducible intro _
    | (with_reducible apply List.Subset.trans ?_ ha; decide)
    | split
    | dsimp only

theorem State.setViews_moves (s : State) (x : Forme)
    (ha : [.mem] ⊆ as)
    (h : Moves as ps s0 s) : Moves as ps s0 (State.setViews s x) := by
  unfold State.setViews
  repeat' first
    | with_reducible assumption
    | with_reducible apply Moves.refl
    | with_reducible apply Moves.wr
    | with_reducible apply Moves.ite
    | (with_reducible apply Moves.inSub ha; decide)
    | with_reducible apply Moves.each
    | with_reducible apply Moves.foldl
    | with_reducible intro _
    | (with_reducible apply List.Subset.trans ?_ ha; decide)
    | split
    | dsimp only

theorem State.routesBack_moves (s : State) (x : Forme)
    (ha : [.cal, .oe, .lnk] ⊆ as)
    (hq : [.calJobs, .calRuns, .spareNeeds, .links] ⊆ ps)
    (h : Moves as ps s0 s) : Moves as ps s0 (State.routesBack s x) := by
  unfold State.routesBack
  repeat' first
    | with_reducible assumption
    | with_reducible apply Moves.refl
    | with_reducible apply State.setRoute_moves
    | with_reducible apply State.closeWindow_moves
    | with_reducible apply Moves.ite
    | (with_reducible apply Moves.inSub ha; decide)
    | (with_reducible apply Moves.inSub hq; decide)
    | with_reducible apply Moves.each
    | with_reducible apply Moves.foldl
    | with_reducible intro _
    | (with_reducible apply List.Subset.trans ?_ ha; decide)
    | (with_reducible apply List.Subset.trans ?_ hq; decide)
    | split
    | dsimp only

theorem State.adopt_moves (s : State) (f : Nat) (v : Variant)
    (ha : [.forme, .prs] ⊆ as)
    (h : Moves as ps s0 s) : Moves as ps s0 (State.adopt s f v) := by
  unfold State.adopt
  repeat' first
    | with_reducible assumption
    | with_reducible apply Moves.refl
    | with_reducible apply Moves.wr
    | with_reducible apply Moves.ite
    | (with_reducible apply Moves.inSub ha; decide)
    | with_reducible apply Moves.each
    | with_reducible apply Moves.foldl
    | with_reducible intro _
    | (with_reducible apply List.Subset.trans ?_ ha; decide)
    | split
    | dsimp only

theorem State.prepare_moves (s : State) (f : Nat)
    (ha : [.forme, .pwr, .prf, .cal, .prs, .oe, .lnk, .mem] ⊆ as)
    (hq : [.presses, .calJobs, .calRuns, .spareNeeds, .barSent, .links, .repairMap, .flashQ, .freeCount] ⊆ ps)
    (h : Moves as ps s0 s) : Moves as ps s0 (State.prepare s f) := by
  unfold State.prepare
  repeat' first
    | with_reducible assumption
    | with_reducible apply Moves.refl
    | with_reducible apply State.markStrips_moves
    | with_reducible apply State.judgeEngines_moves
    | with_reducible apply State.parkForme_moves
    | with_reducible apply State.setViews_moves
    | with_reducible apply State.routesBack_moves
    | with_reducible apply State.adopt_moves
    | with_reducible apply State.setPState_moves
    | with_reducible apply Moves.wr
    | with_reducible apply Moves.ite
    | (with_reducible apply Moves.inSub ha; decide)
    | (with_reducible apply Moves.inSub hq; decide)
    | with_reducible apply Moves.each
    | with_reducible apply Moves.foldl
    | with_reducible intro _
    | (with_reducible apply List.Subset.trans ?_ ha; decide)
    | (with_reducible apply List.Subset.trans ?_ hq; decide)
    | split
    | dsimp only
    | with_reducible apply Moves.set_barSent

theorem State.run_moves (s : State) (f : Nat) (point : Nat)
    (ha : [.forme, .pwr] ⊆ as)
    (h : Moves as ps s0 s) : Moves as ps s0 (State.run s f point) := by
  unfold State.run
  repeat' first
    | with_reducible assumption
    | with_reducible apply Moves.refl
    | with_reducible apply Moves.wr
    | with_reducible apply Moves.ite
    | (with_reducible apply Moves.inSub ha; decide)
    | with_reducible apply Moves.foldl
    | with_reducible intro _
    | (with_reducible apply List.Subset.trans ?_ ha; decide)
    | split
    | dsimp only

theorem State.startForme_moves (s : State) (f : Nat)
    (ha : [.forme, .pwr, .prf, .cal, .prs, .oe, .lnk, .mem] ⊆ as)
    (hq : [.presses, .calJobs, .calRuns, .spareNeeds, .barSent, .links, .repairMap, .flashQ, .freeCount] ⊆ ps)
    (h : Moves as ps s0 s) : Moves as ps s0 (State.startForme s f) := by
  unfold State.startForme
  repeat' first
    | with_reducible assumption
    | with_reducible apply Moves.refl
    | with_reducible apply State.prepare_moves
    | with_reducible apply State.run_moves
    | with_reducible apply Moves.ite
    | (with_reducible apply Moves.inSub ha; decide)
    | (with_reducible apply Moves.inSub hq; decide)
    | with_reducible apply Moves.foldl
    | with_reducible intro _
    | (with_reducible apply List.Subset.trans ?_ ha; decide)
    | (with_reducible apply List.Subset.trans ?_ hq; decide)
    | split
    | dsimp only

theorem State.replay_moves (s : State) (f : Nat)
    (ha : [.forme, .pwr, .prf, .cal, .prs, .oe, .lnk, .mem] ⊆ as)
    (hq : [.presses, .calJobs, .calRuns, .spareNeeds, .barSent, .links, .repairMap, .flashQ, .freeCount] ⊆ ps)
    (h : Moves as ps s0 s) : Moves as ps s0 (State.replay s f) := by
  unfold State.replay
  repeat' first
    | with_reducible assumption
    | with_reducible apply Moves.refl
    | with_reducible apply State.prepare_moves
    | with_reducible apply Moves.wr
    | with_reducible apply Moves.ite
    | (with_reducible apply Moves.inSub ha; decide)
    | (with_reducible apply Moves.inSub hq; decide)
    | with_reducible apply Moves.foldl
    | with_reducible intro _
    | (with_reducible apply List.Subset.trans ?_ ha; decide)
    | (with_reducible apply List.Subset.trans ?_ hq; decide)
    | split
    | dsimp only

theorem State.resumeForme_moves (s : State) (f : Nat) (point : Nat)
    (ha : [.forme, .pwr, .prf, .cal, .prs, .oe, .lnk, .mem] ⊆ as)
    (hq : [.presses, .calJobs, .calRuns, .spareNeeds, .barSent, .links, .repairMap, .flashQ, .freeCount] ⊆ ps)
    (h : Moves as ps s0 s) : Moves as ps s0 (State.resumeForme s f point) := by
  unfold State.resumeForme
  repeat' first
    | with_reducible assumption
    | with_reducible apply Moves.refl
    | with_reducible apply State.run_moves
    | with_reducible apply State.replay_moves
    | with_reducible apply State.prepare_moves
    | with_reducible apply Moves.wr
    | with_reducible apply Moves.ite
    | (with_reducible apply Moves.inSub ha; decide)
    | (with_reducible apply Moves.inSub hq; decide)
    | with_reducible apply Moves.foldl
    | with_reducible intro _
    | (with_reducible apply List.Subset.trans ?_ ha; decide)
    | (with_reducible apply List.Subset.trans ?_ hq; decide)
    | split
    | dsimp only

theorem State.letIn_moves (s : State) (f : Nat) (t : Nat)
    (ha : [.imp, .forme, .pair, .pwr, .prf, .events, .cal, .cmp, .col, .prs, .oe, .lnk, .lsu, .mem] ⊆ as)
    (hq : [.presses, .jobs, .lateXfers, .drains, .calJobs, .calRuns, .swaps, .spareNeeds, .barSent, .links, .repairMap, .flashQ, .relays, .freeCount] ⊆ ps)
    (h : Moves as ps s0 s) : Moves as ps s0 (State.letIn s f t) := by
  unfold State.letIn
  repeat' first
    | with_reducible assumption
    | with_reducible apply Moves.refl
    | with_reducible apply State.startForme_moves
    | with_reducible apply State.resumeForme_moves
    | with_reducible apply State.checkpointLost_moves
    | with_reducible apply State.abandon_moves
    | with_reducible apply Moves.wr
    | with_reducible apply Moves.ite
    | (with_reducible apply Moves.inSub ha; decide)
    | (with_reducible apply Moves.inSub hq; decide)
    | with_reducible apply Moves.foldl
    | with_reducible intro _
    | (with_reducible apply List.Subset.trans ?_ ha; decide)
    | (with_reducible apply List.Subset.trans ?_ hq; decide)
    | split
    | dsimp only

theorem State.finalAbandon_moves (s : State) (x : Forme)
    (ha : [.forme, .pair, .pwr, .events, .cal, .cmp, .col, .prs, .oe, .lnk, .lsu] ⊆ as)
    (hq : [.presses, .jobs, .lateXfers, .drains, .calJobs, .swaps, .spareNeeds, .links, .relays, .freeCount] ⊆ ps)
    (h : Moves as ps s0 s) : Moves as ps s0 (State.finalAbandon s x) := by
  unfold State.finalAbandon
  repeat' first
    | with_reducible assumption
    | with_reducible apply Moves.refl
    | with_reducible apply State.parkForme_moves
    | with_reducible apply State.yieldWith_moves
    | with_reducible apply Moves.ite
    | (with_reducible apply Moves.inSub ha; decide)
    | (with_reducible apply Moves.inSub hq; decide)
    | with_reducible apply Moves.foldl
    | with_reducible intro _
    | (with_reducible apply List.Subset.trans ?_ ha; decide)
    | (with_reducible apply List.Subset.trans ?_ hq; decide)
    | split
    | dsimp only

theorem execUnitsStopped_moves (f : Nat) (t : Nat) (s : State)
    (ha : [.tick, .imp, .forme, .pair, .pwr, .prf, .irq, .events, .cal, .cmp, .col, .prs, .oe, .lnk, .lsu, .mem] ⊆ as)
    (hq : [.mem, .presses, .jobs, .lateXfers, .drains, .dirtyOut, .calJobs, .calRuns, .swaps, .spareNeeds, .barSent, .links, .repairMap, .flashQ, .relays, .moe, .freeCount] ⊆ ps)
    (h : Moves as ps s0 s) : ResMoves as ps s0 (execUnitsStopped f t s) := by
  unfold execUnitsStopped
  repeat' first
    | with_reducible assumption
    | with_reducible apply Moves.refl
    | with_reducible apply State.stamp_moves
    | with_reducible apply State.irqDeliver_moves
    | with_reducible apply State.letIn_moves
    | with_reducible apply State.finalAbandon_moves
    | with_reducible apply State.beginAllWaiting_moves
    | with_reducible apply State.replay_moves
    | with_reducible apply Moves.wr
    | with_reducible apply Moves.ite
    | with_reducible apply ResMoves.next
    | with_reducible apply ResMoves.fault
    | with_reducible apply ResMoves.refused
    | with_reducible apply ResMoves.ite
    | (with_reducible apply Moves.inSub ha; decide)
    | (with_reducible apply Moves.inSub hq; decide)
    | with_reducible apply Moves.foldl
    | with_reducible intro _
    | (with_reducible apply List.Subset.trans ?_ ha; decide)
    | (with_reducible apply List.Subset.trans ?_ hq; decide)
    | split
    | dsimp only

theorem State.waitBoundary_moves (s : State) (f : Nat) (t : Nat) (pend : Field) (tick : Field)
    (hpend : pend.area ∈ as)
    (htick : tick.area ∈ as)
    (h : Moves as ps s0 s) : Moves as ps s0 (State.waitBoundary s f t pend tick) := by
  unfold State.waitBoundary
  repeat' first
    | with_reducible assumption
    | with_reducible apply Moves.refl
    | with_reducible apply Moves.wr
    | with_reducible apply Moves.ite
    | with_reducible apply Moves.foldl
    | with_reducible intro _
    | split
    | dsimp only

theorem State.writeStores_moves (s : State) (v : Variant)
    (hq : [.presses] ⊆ ps)
    (h : Moves as ps s0 s) : Moves as ps s0 (State.writeStores s v) := by
  unfold State.writeStores
  repeat' first
    | with_reducible assumption
    | with_reducible apply Moves.refl
    | with_reducible apply Press.ok_init
    | (with_reducible apply State.inv_press; assumption)
    | with_reducible apply Press.Ok.pops
    | with_reducible apply Press.Ok.loseCarry
    | with_reducible apply Press.Ok.signal
    | with_reducible apply Press.Ok.waitTok
    | (with_reducible apply State.inv_caseMem; assumption)
    | with_reducible apply Press.Ok.pop
    | with_reducible apply Press.Ok.writeCase
    | with_reducible apply Press.Ok.enqueueRing
    | with_reducible apply Press.Ok.settle
    | with_reducible apply Press.Ok.ite
    | with_reducible apply Press.Ok.of_wf
    | with_reducible apply Moves.setPress
    | with_reducible apply Moves.ite
    | (with_reducible apply Moves.inSub hq; decide)
    | with_reducible apply Moves.each
    | with_reducible apply Moves.foldl
    | with_reducible intro _
    | (with_reducible apply List.Subset.trans ?_ hq; decide)
    | split
    | dsimp only
    | with_reducible apply Press.Ok.wf

theorem execVariantRewriteDone_moves (f : Nat) (t : Nat) (s : State)
    (ha : [.tick, .forme] ⊆ as)
    (hq : [.presses] ⊆ ps)
    (h : Moves as ps s0 s) : ResMoves as ps s0 (execVariantRewriteDone f t s) := by
  unfold execVariantRewriteDone
  repeat' first
    | with_reducible assumption
    | with_reducible apply Moves.refl
    | with_reducible apply State.stamp_moves
    | with_reducible apply State.writeStores_moves
    | with_reducible apply Moves.wr
    | with_reducible apply Moves.bump
    | with_reducible apply Moves.ite
    | with_reducible apply ResMoves.next
    | with_reducible apply ResMoves.fault
    | with_reducible apply ResMoves.refused
    | with_reducible apply ResMoves.ite
    | (with_reducible apply Moves.inSub ha; decide)
    | (with_reducible apply Moves.inSub hq; decide)
    | with_reducible apply Moves.foldl
    | with_reducible intro _
    | (with_reducible apply List.Subset.trans ?_ ha; decide)
    | (with_reducible apply List.Subset.trans ?_ hq; decide)
    | split
    | dsimp only

theorem State.endWait_moves (s : State) (x : Forme)
    (ha : [.fab] ⊆ as)
    (h : Moves as ps s0 s) : Moves as ps s0 (State.endWait s x) := by
  unfold State.endWait
  repeat' first
    | with_reducible assumption
    | with_reducible apply Moves.refl
    | with_reducible apply Moves.wr
    | with_reducible apply Moves.wrap
    | with_reducible apply Moves.ite
    | (with_reducible apply Moves.inSub ha; decide)
    | with_reducible apply Moves.foldl
    | with_reducible intro _
    | (with_reducible apply List.Subset.trans ?_ ha; decide)
    | split
    | dsimp only

theorem State.nextBatch_moves (s : State) (f : Nat)
    (ha : [.pair] ⊆ as)
    (hq : [.dirtyShared] ⊆ ps)
    (h : Moves as ps s0 s) : Moves as ps s0 (State.nextBatch s f) := by
  unfold State.nextBatch
  repeat' first
    | with_reducible assumption
    | with_reducible apply Moves.refl
    | with_reducible apply Moves.wr
    | with_reducible apply Moves.ite
    | (with_reducible apply Moves.inSub ha; decide)
    | (with_reducible apply Moves.inSub hq; decide)
    | with_reducible apply Moves.foldl
    | with_reducible intro _
    | (with_reducible apply List.Subset.trans ?_ ha; decide)
    | (with_reducible apply List.Subset.trans ?_ hq; decide)
    | split
    | dsimp only
    | with_reducible apply Moves.set_dirtyShared

theorem State.rewindTx_moves (s : State) (q : Nat) (v : Nat)
    (ha : [.fab, .gal, .lnk] ⊆ as)
    (hq : [.links] ⊆ ps)
    (h : Moves as ps s0 s) : Moves as ps s0 (State.rewindTx s q v) := by
  unfold State.rewindTx
  repeat' first
    | with_reducible assumption
    | with_reducible apply Moves.refl
    | with_reducible apply State.settleLink_moves
    | with_reducible apply State.setTxNext_moves
    | with_reducible apply State.setLink_moves
    | with_reducible apply Moves.ite
    | (with_reducible apply Moves.inSub ha; decide)
    | (with_reducible apply Moves.inSub hq; decide)
    | with_reducible apply Moves.foldl
    | with_reducible intro _
    | (with_reducible apply List.Subset.trans ?_ ha; decide)
    | (with_reducible apply List.Subset.trans ?_ hq; decide)
    | split
    | dsimp only

theorem State.replayPort_moves (s : State) (x : Forme) (q : Nat)
    (ha : [.fab, .gal, .lnk] ⊆ as)
    (hq : [.links, .early] ⊆ ps)
    (h : Moves as ps s0 s) : Moves as ps s0 (State.replayPort s x q) := by
  unfold State.replayPort
  repeat' first
    | with_reducible assumption
    | with_reducible apply Moves.refl
    | with_reducible apply State.rewindTx_moves
    | with_reducible apply State.setRxExp_moves
    | with_reducible apply State.setLink_moves
    | with_reducible apply State.issue_moves
    | with_reducible apply Moves.wr
    | with_reducible apply Moves.ite
    | (with_reducible apply Moves.inSub ha; decide)
    | (with_reducible apply Moves.inSub hq; decide)
    | with_reducible apply Moves.foldl
    | with_reducible intro _
    | (with_reducible apply List.Subset.trans ?_ ha; decide)
    | (with_reducible apply List.Subset.trans ?_ hq; decide)
    | split
    | dsimp only
    | with_reducible apply Moves.set_early

theorem State.replayPorts_moves (s : State) (x : Forme)
    (ha : [.fab, .gal, .lnk] ⊆ as)
    (hq : [.links, .early] ⊆ ps)
    (h : Moves as ps s0 s) : Moves as ps s0 (State.replayPorts s x) := by
  unfold State.replayPorts
  repeat' first
    | with_reducible assumption
    | with_reducible apply Moves.refl
    | with_reducible apply State.replayPort_moves
    | with_reducible apply Moves.ite
    | (with_reducible apply Moves.inSub ha; decide)
    | (with_reducible apply Moves.inSub hq; decide)
    | with_reducible apply Moves.each
    | with_reducible apply Moves.foldl
    | with_reducible intro _
    | (with_reducible apply List.Subset.trans ?_ ha; decide)
    | (with_reducible apply List.Subset.trans ?_ hq; decide)
    | split
    | dsimp only

theorem State.firstRelease_moves (s : State) (x : Forme) (v : Variant)
    (ha : [.forme, .fab, .pair, .prf, .gal, .lnk] ⊆ as)
    (hq : [.dirtyShared, .links, .early] ⊆ ps)
    (h : Moves as ps s0 s) : Moves as ps s0 (State.firstRelease s x v) := by
  unfold State.firstRelease
  repeat' first
    | with_reducible assumption
    | with_reducible apply Moves.refl
    | with_reducible apply State.nextBatch_moves
    | with_reducible apply State.replayPorts_moves
    | with_reducible apply Moves.wr
    | with_reducible apply Moves.wrap
    | with_reducible apply Moves.ite
    | (with_reducible apply Moves.inSub ha; decide)
    | (with_reducible apply Moves.inSub hq; decide)
    | with_reducible apply Moves.each
    | with_reducible apply Moves.foldl
    | with_reducible intro _
    | (with_reducible apply List.Subset.trans ?_ ha; decide)
    | (with_reducible apply List.Subset.trans ?_ hq; decide)
    | split
    | dsimp only

theorem State.releasePress_moves (s : State) (v : Variant) (q : Nat) (p : Nat)
    (ha : [.prs] ⊆ as)
    (hq : [.presses, .freeCount] ⊆ ps)
    (h : Moves as ps s0 s) : Moves as ps s0 (State.releasePress s v q p) := by
  unfold State.releasePress
  repeat' first
    | with_reducible assumption
    | with_reducible apply Moves.refl
    | with_reducible apply Press.ok_init
    | (with_reducible apply State.inv_press; assumption)
    | with_reducible apply Press.Ok.pops
    | with_reducible apply Press.Ok.loseCarry
    | with_reducible apply Press.Ok.signal
    | with_reducible apply Press.Ok.waitTok
    | (with_reducible apply State.inv_caseMem; assumption)
    | with_reducible apply Press.Ok.pop
    | with_reducible apply Press.Ok.writeCase
    | with_reducible apply Press.Ok.enqueueRing
    | with_reducible apply Press.Ok.settle
    | with_reducible apply Press.Ok.ite
    | with_reducible apply Press.Ok.of_wf
    | with_reducible apply State.setPState_moves
    | with_reducible apply Moves.wrAll
    | with_reducible apply areas_cons
    | with_reducible apply areas_nil
    | with_reducible apply Moves.setPress
    | with_reducible apply Moves.ite
    | (with_reducible apply Moves.inSub ha; decide)
    | (with_reducible apply Moves.inSub hq; decide)
    | with_reducible apply Moves.foldl
    | with_reducible intro _
    | (with_reducible apply List.Subset.trans ?_ ha; decide)
    | (with_reducible apply List.Subset.trans ?_ hq; decide)
    | split
    | dsimp only
    | with_reducible apply Press.Ok.wf

theorem State.startTransfers_moves (s : State) (x : Forme)
    (hq : [.drains] ⊆ ps)
    (h : Moves as ps s0 s) : Moves as ps s0 (State.startTransfers s x) := by
  unfold State.startTransfers
  repeat' first
    | with_reducible assumption
    | with_reducible apply Moves.refl
    | with_reducible apply Moves.ite
    | (with_reducible apply Moves.inSub hq; decide)
    | with_reducible apply Moves.foldl
    | with_reducible intro _
    | (with_reducible apply List.Subset.trans ?_ hq; decide)
    | split
    | dsimp only
    | with_reducible apply Moves.set_drains

theorem State.releaseStep_moves (s : State) (x : Forme) (v : Variant) (t : Nat)
    (ha : [.forme, .fab, .pair, .pwr, .prf, .gal, .cmp, .col, .prs, .lnk] ⊆ as)
    (hq : [.mem, .presses, .jobs, .drains, .dirtyShared, .arrivals, .barDone, .links, .relays, .early, .out, .freeCount] ⊆ ps)
    (h : Moves as ps s0 s) : Moves as ps s0 (State.releaseStep s x v t) := by
  unfold State.releaseStep
  extract_lets g q s1 s2 s3 s4 s5 s6
  have ks1 : Moves as ps s0 s1 := by
    unfold s1
    repeat' first
    | with_reducible assumption
    | with_reducible apply Moves.refl
    | with_reducible apply State.firstRelease_moves
    | with_reducible apply State.dropJobs_moves
    | with_reducible apply State.releasePress_moves
    | with_reducible apply State.deliverEarly_moves
    | with_reducible apply State.startTransfers_moves
    | with_reducible apply Moves.wr
    | with_reducible apply Moves.wrAll
    | with_reducible apply areas_cons
    | with_reducible apply areas_nil
    | with_reducible apply Moves.ite
    | (with_reducible apply Moves.inSub ha; decide)
    | (with_reducible apply Moves.inSub hq; decide)
    | with_reducible apply Moves.each
    | with_reducible apply Moves.foldl
    | with_reducible intro _
    | (with_reducible apply List.Subset.trans ?_ ha; decide)
    | (with_reducible apply List.Subset.trans ?_ hq; decide)
    | split
    | dsimp only
    | with_reducible apply Moves.set_arrivals
    | with_reducible apply Moves.set_barDone
    | with_reducible apply Moves.set_relays
    | with_reducible apply Moves.set_freeCount
    | ((with_reducible apply Moves.update); on_goal 1 => (intro q hn; cases q <;> first | exact absurd (hq (by decide)) hn | rfl))
  clear_value s1
  have ks2 : Moves as ps s0 s2 := by
    unfold s2
    repeat' first
    | with_reducible assumption
    | with_reducible apply Moves.refl
    | with_reducible apply State.firstRelease_moves
    | with_reducible apply State.dropJobs_moves
    | with_reducible apply State.releasePress_moves
    | with_reducible apply State.deliverEarly_moves
    | with_reducible apply State.startTransfers_moves
    | with_reducible apply Moves.wr
    | with_reducible apply Moves.wrAll
    | with_reducible apply areas_cons
    | with_reducible apply areas_nil
    | with_reducible apply Moves.ite
    | (with_reducible apply Moves.inSub ha; decide)
    | (with_reducible apply Moves.inSub hq; decide)
    | with_reducible apply Moves.each
    | with_reducible apply Moves.foldl
    | with_reducible intro _
    | (with_reducible apply List.Subset.trans ?_ ha; decide)
    | (with_reducible apply List.Subset.trans ?_ hq; decide)
    | split
    | dsimp only
    | with_reducible apply Moves.set_arrivals
    | with_reducible apply Moves.set_barDone
    | with_reducible apply Moves.set_relays
    | with_reducible apply Moves.set_freeCount
    | ((with_reducible apply Moves.update); on_goal 1 => (intro q hn; cases q <;> first | exact absurd (hq (by decide)) hn | rfl))
  clear_value s2
  have ks3 : Moves as ps s0 s3 := by
    unfold s3
    repeat' first
    | with_reducible assumption
    | with_reducible apply Moves.refl
    | with_reducible apply State.firstRelease_moves
    | with_reducible apply State.dropJobs_moves
    | with_reducible apply State.releasePress_moves
    | with_reducible apply State.deliverEarly_moves
    | with_reducible apply State.startTransfers_moves
    | with_reducible apply Moves.wr
    | with_reducible apply Moves.wrAll
    | with_reducible apply areas_cons
    | with_reducible apply areas_nil
    | with_reducible apply Moves.ite
    | (with_reducible apply Moves.inSub ha; decide)
    | (with_reducible apply Moves.inSub hq; decide)
    | with_reducible apply Moves.each
    | with_reducible apply Moves.foldl
    | with_reducible intro _
    | (with_reducible apply List.Subset.trans ?_ ha; decide)
    | (with_reducible apply List.Subset.trans ?_ hq; decide)
    | split
    | dsimp only
    | with_reducible apply Moves.set_arrivals
    | with_reducible apply Moves.set_barDone
    | with_reducible apply Moves.set_relays
    | with_reducible apply Moves.set_freeCount
    | ((with_reducible apply Moves.update); on_goal 1 => (intro q hn; cases q <;> first | exact absurd (hq (by decide)) hn | rfl))
  clear_value s3
  have ks4 : Moves as ps s0 s4 := by
    unfold s4
    repeat' first
    | with_reducible assumption
    | with_reducible apply Moves.refl
    | with_reducible apply State.firstRelease_moves
    | with_reducible apply State.dropJobs_moves
    | with_reducible apply State.releasePress_moves
    | with_reducible apply State.deliverEarly_moves
    | with_reducible apply State.startTransfers_moves
    | with_reducible apply Moves.wr
    | with_reducible apply Moves.wrAll
    | with_reducible apply areas_cons
    | with_reducible apply areas_nil
    | with_reducible apply Moves.ite
    | (with_reducible apply Moves.inSub ha; decide)
    | (with_reducible apply Moves.inSub hq; decide)
    | with_reducible apply Moves.each
    | with_reducible apply Moves.foldl
    | with_reducible intro _
    | (with_reducible apply List.Subset.trans ?_ ha; decide)
    | (with_reducible apply List.Subset.trans ?_ hq; decide)
    | split
    | dsimp only
    | with_reducible apply Moves.set_arrivals
    | with_reducible apply Moves.set_barDone
    | with_reducible apply Moves.set_relays
    | with_reducible apply Moves.set_freeCount
    | ((with_reducible apply Moves.update); on_goal 1 => (intro q hn; cases q <;> first | exact absurd (hq (by decide)) hn | rfl))
  clear_value s4
  have ks5 : Moves as ps s0 s5 := by
    unfold s5
    repeat' first
    | with_reducible assumption
    | with_reducible apply Moves.refl
    | with_reducible apply State.firstRelease_moves
    | with_reducible apply State.dropJobs_moves
    | with_reducible apply State.releasePress_moves
    | with_reducible apply State.deliverEarly_moves
    | with_reducible apply State.startTransfers_moves
    | with_reducible apply Moves.wr
    | with_reducible apply Moves.wrAll
    | with_reducible apply areas_cons
    | with_reducible apply areas_nil
    | with_reducible apply Moves.ite
    | (with_reducible apply Moves.inSub ha; decide)
    | (with_reducible apply Moves.inSub hq; decide)
    | with_reducible apply Moves.each
    | with_reducible apply Moves.foldl
    | with_reducible intro _
    | (with_reducible apply List.Subset.trans ?_ ha; decide)
    | (with_reducible apply List.Subset.trans ?_ hq; decide)
    | split
    | dsimp only
    | with_reducible apply Moves.set_arrivals
    | with_reducible apply Moves.set_barDone
    | with_reducible apply Moves.set_relays
    | with_reducible apply Moves.set_freeCount
    | ((with_reducible apply Moves.update); on_goal 1 => (intro q hn; cases q <;> first | exact absurd (hq (by decide)) hn | rfl))
  clear_value s5
  have ks6 : Moves as ps s0 s6 := by
    unfold s6
    repeat' first
    | with_reducible assumption
    | with_reducible apply Moves.refl
    | with_reducible apply State.firstRelease_moves
    | with_reducible apply State.dropJobs_moves
    | with_reducible apply State.releasePress_moves
    | with_reducible apply State.deliverEarly_moves
    | with_reducible apply State.startTransfers_moves
    | with_reducible apply Moves.wr
    | with_reducible apply Moves.wrAll
    | with_reducible apply areas_cons
    | with_reducible apply areas_nil
    | with_reducible apply Moves.ite
    | (with_reducible apply Moves.inSub ha; decide)
    | (with_reducible apply Moves.inSub hq; decide)
    | with_reducible apply Moves.each
    | with_reducible apply Moves.foldl
    | with_reducible intro _
    | (with_reducible apply List.Subset.trans ?_ ha; decide)
    | (with_reducible apply List.Subset.trans ?_ hq; decide)
    | split
    | dsimp only
    | with_reducible apply Moves.set_arrivals
    | with_reducible apply Moves.set_barDone
    | with_reducible apply Moves.set_relays
    | with_reducible apply Moves.set_freeCount
    | ((with_reducible apply Moves.update); on_goal 1 => (intro q hn; cases q <;> first | exact absurd (hq (by decide)) hn | rfl))
  clear_value s6
  repeat' first
    | with_reducible assumption
    | with_reducible apply Moves.refl
    | with_reducible apply State.firstRelease_moves
    | with_reducible apply State.dropJobs_moves
    | with_reducible apply State.releasePress_moves
    | with_reducible apply State.deliverEarly_moves
    | with_reducible apply State.startTransfers_moves
    | with_reducible apply Moves.wr
    | with_reducible apply Moves.wrAll
    | with_reducible apply areas_cons
    | with_reducible apply areas_nil
    | with_reducible apply Moves.ite
    | (with_reducible apply Moves.inSub ha; decide)
    | (with_reducible apply Moves.inSub hq; decide)
    | with_reducible apply Moves.each
    | with_reducible apply Moves.foldl
    | with_reducible intro _
    | (with_reducible apply List.Subset.trans ?_ ha; decide)
    | (with_reducible apply List.Subset.trans ?_ hq; decide)
    | split
    | dsimp only
    | with_reducible apply Moves.set_arrivals
    | with_reducible apply Moves.set_barDone
    | with_reducible apply Moves.set_relays
    | with_reducible apply Moves.set_freeCount
    | ((with_reducible apply Moves.update); on_goal 1 => (intro q hn; cases q <;> first | exact absurd (hq (by decide)) hn | rfl))

theorem execStepRelease_moves (f : Nat) (t : Nat) (s : State)
    (ha : [.tick, .forme, .fab, .pair, .pwr, .prf, .gal, .cmp, .col, .prs, .lnk] ⊆ as)
    (hq : [.mem, .presses, .jobs, .drains, .dirtyShared, .arrivals, .barDone, .links, .relays, .early, .out, .freeCount] ⊆ ps)
    (h : Moves as ps s0 s) : ResMoves as ps s0 (execStepRelease f t s) := by
  unfold execStepRelease
  repeat' first
    | with_reducible assumption
    | with_reducible apply Moves.refl
    | with_reducible apply State.stamp_moves
    | with_reducible apply State.endWait_moves
    | with_reducible apply State.releaseStep_moves
    | with_reducible apply State.sendBatch_moves
    | with_reducible apply Moves.wr
    | with_reducible apply Moves.ite
    | with_reducible apply ResMoves.next
    | with_reducible apply ResMoves.fault
    | with_reducible apply ResMoves.refused
    | with_reducible apply ResMoves.ite
    | (with_reducible apply Moves.inSub ha; decide)
    | (with_reducible apply Moves.inSub hq; decide)
    | with_reducible apply Moves.foldl
    | with_reducible intro _
    | (with_reducible apply List.Subset.trans ?_ ha; decide)
    | (with_reducible apply List.Subset.trans ?_ hq; decide)
    | split
    | dsimp only

theorem execWatchdogTimeout_moves (f : Nat) (t : Nat) (s : State)
    (ha : [.tick, .imp, .forme, .cmp, .col, .prs] ⊆ as)
    (hq : [.presses, .jobs, .lateXfers, .drains, .links, .relays, .freeCount] ⊆ ps)
    (h : Moves as ps s0 s) : ResMoves as ps s0 (execWatchdogTimeout f t s) := by
  unfold execWatchdogTimeout
  repeat' first
    | with_reducible assumption
    | with_reducible apply Moves.refl
    | with_reducible apply State.stamp_moves
    | with_reducible apply State.abandon_moves
    | with_reducible apply Moves.ite
    | with_reducible apply ResMoves.next
    | with_reducible apply ResMoves.fault
    | with_reducible apply ResMoves.refused
    | with_reducible apply ResMoves.ite
    | (with_reducible apply Moves.inSub ha; decide)
    | (with_reducible apply Moves.inSub hq; decide)
    | with_reducible apply Moves.foldl
    | with_reducible intro _
    | (with_reducible apply List.Subset.trans ?_ ha; decide)
    | (with_reducible apply List.Subset.trans ?_ hq; decide)
    | split
    | dsimp only

theorem State.clearCounters_moves (s : State) (x : Forme)
    (ha : [.prs] ⊆ as)
    (h : Moves as ps s0 s) : Moves as ps s0 (State.clearCounters s x) := by
  unfold State.clearCounters
  repeat' first
    | with_reducible assumption
    | with_reducible apply Moves.refl
    | with_reducible apply Moves.wrAll
    | with_reducible apply areas_cons
    | with_reducible apply areas_nil
    | with_reducible apply Moves.ite
    | (with_reducible apply Moves.inSub ha; decide)
    | with_reducible apply Moves.each
    | with_reducible apply Moves.foldl
    | with_reducible intro _
    | (with_reducible apply List.Subset.trans ?_ ha; decide)
    | split
    | dsimp only

theorem State.recordBases_moves (s : State) (x : Forme)
    (ha : [.lnk] ⊆ as)
    (h : Moves as ps s0 s) : Moves as ps s0 (State.recordBases s x) := by
  unfold State.recordBases
  repeat' first
    | with_reducible assumption
    | with_reducible apply Moves.refl
    | with_reducible apply Moves.wr
    | with_reducible apply Moves.ite
    | (with_reducible apply Moves.inSub ha; decide)
    | with_reducible apply Moves.each
    | with_reducible apply Moves.foldl
    | with_reducible intro _
    | (with_reducible apply List.Subset.trans ?_ ha; decide)
    | split
    | dsimp only

theorem State.commitEdition_moves (s : State) (x : Forme) (t : Nat)
    (ha : [.forme, .pair, .events, .prs, .lnk] ⊆ as)
    (hq : [.dirtyOut, .log, .links] ⊆ ps)
    (h : Moves as ps s0 s) : Moves as ps s0 (State.commitEdition s x t) := by
  unfold State.commitEdition
  repeat' first
    | with_reducible assumption
    | with_reducible apply Moves.refl
    | with_reducible apply State.clearCounters_moves
    | with_reducible apply State.recordBases_moves
    | with_reducible apply State.sendEdition_moves
    | with_reducible apply Moves.bump
    | with_reducible apply Moves.orBit
    | with_reducible apply Moves.wrAll
    | with_reducible apply areas_cons
    | with_reducible apply areas_nil
    | with_reducible apply Moves.ite
    | (with_reducible apply Moves.inSub ha; decide)
    | (with_reducible apply Moves.inSub hq; decide)
    | with_reducible apply Moves.each
    | with_reducible apply Moves.foldl
    | with_reducible intro _
    | (with_reducible apply List.Subset.trans ?_ ha; decide)
    | (with_reducible apply List.Subset.trans ?_ hq; decide)
    | split
    | dsimp only
    | with_reducible apply Moves.set_dirtyOut
    | with_reducible apply Moves.set_log
    | ((with_reducible apply Moves.update); on_goal 1 => (intro q hn; cases q <;> first | exact absurd (hq (by decide)) hn | rfl))

theorem State.ignoreCmd_moves (s : State)
    (ha : [.imp] ⊆ as)
    (h : Moves as ps s0 s) : Moves as ps s0 (State.ignoreCmd s) := by
  unfold State.ignoreCmd
  repeat' first
    | with_reducible assumption
    | with_reducible apply Moves.refl
    | with_reducible apply Moves.wr
    | with_reducible apply Moves.ite
    | (with_reducible apply Moves.inSub ha; decide)
    | with_reducible apply Moves.foldl
    | with_reducible intro _
    | (with_reducible apply List.Subset.trans ?_ ha; decide)
    | split
    | dsimp only

theorem State.command_moves (s : State) (f : Nat) (t : Nat) (own : Bool) (hold : State → State)
    (ha : [.imp, .forme, .pair, .pwr, .prf, .events, .cal, .cmp, .col, .prs, .oe, .lnk, .lsu, .mem] ⊆ as)
    (hq : [.presses, .jobs, .lateXfers, .drains, .calJobs, .calRuns, .swaps, .spareNeeds, .barSent, .links, .repairMap, .flashQ, .relays, .freeCount] ⊆ ps)
    (hr : ∀ x0, Moves as ps s0 x0 → Moves as ps s0 (hold x0))
    (h : Moves as ps s0 s) : Moves as ps s0 (State.command s f t own hold) := by
  unfold State.command
  repeat' first
    | with_reducible assumption
    | with_reducible apply Moves.refl
    | with_reducible apply State.ignoreCmd_moves
    | with_reducible apply State.letIn_moves
    | with_reducible apply Moves.ite
    | (with_reducible apply Moves.inSub ha; decide)
    | (with_reducible apply Moves.inSub hq; decide)
    | with_reducible apply Moves.foldl
    | with_reducible apply hr
    | with_reducible intro _
    | (with_reducible apply List.Subset.trans ?_ ha; decide)
    | (with_reducible apply List.Subset.trans ?_ hq; decide)
    | split
    | dsimp only

theorem execFormeResume_moves (f : Nat) (t : Nat) (s : State)
    (ha : [.tick, .imp, .forme, .pair, .pwr, .prf, .events, .cal, .cmp, .col, .prs, .oe, .lnk, .lsu, .mem] ⊆ as)
    (hq : [.presses, .jobs, .lateXfers, .drains, .calJobs, .calRuns, .swaps, .spareNeeds, .barSent, .links, .repairMap, .flashQ, .relays, .freeCount] ⊆ ps)
    (h : Moves as ps s0 s) : ResMoves as ps s0 (execFormeResume f t s) := by
  unfold execFormeResume
  repeat' first
    | with_reducible assumption
    | with_reducible apply Moves.refl
    | with_reducible apply State.stamp_moves
    | with_reducible apply State.ignoreCmd_moves
    | with_reducible apply State.command_moves
    | with_reducible apply State.waitBoundary_moves
    | with_reducible apply Moves.ite
    | with_reducible apply ResMoves.next
    | with_reducible apply ResMoves.fault
    | with_reducible apply ResMoves.refused
    | with_reducible apply ResMoves.ite
    | (with_reducible apply Moves.inSub ha; decide)
    | (with_reducible apply Moves.inSub hq; decide)
    | with_reducible apply Moves.foldl
    | with_reducible intro _
    | (with_reducible apply List.Subset.trans ?_ ha; decide)
    | (with_reducible apply List.Subset.trans ?_ hq; decide)
    | split
    | dsimp only

theorem State.startQuiesce_moves (s : State) (t : Nat)
    (ha : [.imp, .fab] ⊆ as)
    (hq : [.links] ⊆ ps)
    (h : Moves as ps s0 s) : Moves as ps s0 (State.startQuiesce s t) := by
  unfold State.startQuiesce
  repeat' first
    | with_reducible assumption
    | with_reducible apply Moves.refl
    | with_reducible apply State.quiesceCheck_moves
    | with_reducible apply Moves.wr
    | with_reducible apply Moves.ite
    | (with_reducible apply Moves.inSub ha; decide)
    | (with_reducible apply Moves.inSub hq; decide)
    | with_reducible apply Moves.each
    | with_reducible apply Moves.foldl
    | with_reducible intro _
    | (with_reducible apply List.Subset.trans ?_ ha; decide)
    | (with_reducible apply List.Subset.trans ?_ hq; decide)
    | split
    | dsimp only

theorem State.afterCommit_moves (s : State) (f : Nat) (t : Nat)
    (ha : [.forme, .pair, .pwr, .prf, .events, .cal, .cmp, .col, .prs, .oe, .lnk, .lsu, .mem] ⊆ as)
    (hq : [.presses, .jobs, .lateXfers, .drains, .calJobs, .calRuns, .swaps, .spareNeeds, .barSent, .links, .repairMap, .idleDebt, .flashQ, .relays, .freeCount] ⊆ ps)
    (h : Moves as ps s0 s) : Moves as ps s0 (State.afterCommit s f t) := by
  unfold State.afterCommit
  repeat' first
    | with_reducible assumption
    | with_reducible apply Moves.refl
    | with_reducible apply State.routesBack_moves
    | with_reducible apply State.swapYield_moves
    | with_reducible apply State.parkForme_moves
    | with_reducible apply State.prepare_moves
    | with_reducible apply State.powerBoundary_moves
    | with_reducible apply Moves.wr
    | with_reducible apply Moves.ite
    | (with_reducible apply Moves.inSub ha; decide)
    | (with_reducible apply Moves.inSub hq; decide)
    | with_reducible apply Moves.foldl
    | with_reducible intro _
    | (with_reducible apply List.Subset.trans ?_ ha; decide)
    | (with_reducible apply List.Subset.trans ?_ hq; decide)
    | split
    | dsimp only

theorem execEditionCommit_moves (f : Nat) (t : Nat) (s : State)
    (ha : [.tick, .imp, .forme, .fab, .pair, .pwr, .prf, .irq, .events, .cal, .cmp, .col, .prs, .oe, .lnk, .lsu, .mem] ⊆ as)
    (hq : [.presses, .jobs, .lateXfers, .drains, .dirtyOut, .log, .calJobs, .calRuns, .swaps, .spareNeeds, .barSent, .links, .repairMap, .idleDebt, .flashQ, .relays, .freeCount] ⊆ ps)
    (h : Moves as ps s0 s) : ResMoves as ps s0 (execEditionCommit f t s) := by
  unfold execEditionCommit
  repeat' first
    | with_reducible assumption
    | with_reducible apply Moves.refl
    | with_reducible apply State.stamp_moves
    | with_reducible apply State.irqDeliver_moves
    | with_reducible apply State.letIn_moves
    | with_reducible apply State.startQuiesce_moves
    | with_reducible apply State.afterCommit_moves
    | with_reducible apply State.commitEdition_moves
    | with_reducible apply State.tryMirror_moves
    | with_reducible apply Moves.ite
    | with_reducible apply ResMoves.next
    | with_reducible apply ResMoves.fault
    | with_reducible apply ResMoves.refused
    | with_reducible apply ResMoves.ite
    | (with_reducible apply Moves.inSub ha; decide)
    | (with_reducible apply Moves.inSub hq; decide)
    | with_reducible apply Moves.foldl
    | with_reducible intro _
    | (with_reducible apply List.Subset.trans ?_ ha; decide)
    | (with_reducible apply List.Subset.trans ?_ hq; decide)
    | split
    | dsimp only

theorem State.endDrains_moves (s : State) (f : Nat)
    (hq : [.mem, .presses, .drains, .dirtyOut] ⊆ ps)
    (h : Moves as ps s0 s) : Moves as ps s0 (State.endDrains s f) := by
  unfold State.endDrains
  repeat' first
    | with_reducible assumption
    | with_reducible apply Moves.refl
    | with_reducible apply State.allSlots_moves
    | with_reducible apply Moves.ite
    | (with_reducible apply Moves.inSub hq; decide)
    | with_reducible apply Moves.foldl
    | with_reducible intro _
    | (with_reducible apply List.Subset.trans ?_ hq; decide)
    | split
    | dsimp only
    | with_reducible apply Moves.set_drains

theorem State.expireCopies_moves (s : State) (f : Nat)
    (hq : [.badWords] ⊆ ps)
    (h : Moves as ps s0 s) : Moves as ps s0 (State.expireCopies s f) := by
  unfold State.expireCopies
  repeat' first
    | with_reducible assumption
    | with_reducible apply Moves.refl
    | with_reducible apply Moves.ite
    | (with_reducible apply Moves.inSub hq; decide)
    | with_reducible apply Moves.foldl
    | with_reducible intro _
    | (with_reducible apply List.Subset.trans ?_ hq; decide)
    | split
    | dsimp only
    | with_reducible apply Moves.set_badWords

theorem State.stepBoundary_moves (s : State) (f : Nat) (t : Nat)
    (ha : [.forme, .pwr] ⊆ as)
    (hq : [.idleDebt] ⊆ ps)
    (h : Moves as ps s0 s) : Moves as ps s0 (State.stepBoundary s f t) := by
  unfold State.stepBoundary
  repeat' first
    | with_reducible assumption
    | with_reducible apply Moves.refl
    | with_reducible apply State.parkForme_moves
    | with_reducible apply State.powerBoundary_moves
    | with_reducible apply Moves.wr
    | with_reducible apply Moves.ite
    | (with_reducible apply Moves.inSub ha; decide)
    | (with_reducible apply Moves.inSub hq; decide)
    | with_reducible apply Moves.foldl
    | with_reducible intro _
    | (with_reducible apply List.Subset.trans ?_ ha; decide)
    | (with_reducible apply List.Subset.trans ?_ hq; decide)
    | split
    | dsimp only

theorem execStepComplete_moves (f : Nat) (ce : List Sys2Proof.CeSite) (t : Nat) (s : State)
    (ha : [.tick, .imp, .forme, .pair, .pwr, .prf, .irq, .events, .cal, .gal, .cmp, .col, .prs, .oe, .lnk, .lsu, .mem] ⊆ as)
    (hq : [.mem, .presses, .jobs, .lateXfers, .drains, .dirtyOut, .calJobs, .calRuns, .swaps, .spareNeeds, .barSent, .links, .repairMap, .ceLog, .idleDebt, .flashQ, .badWords, .relays, .freeCount] ⊆ ps)
    (h : Moves as ps s0 s) : ResMoves as ps s0 (execStepComplete f ce t s) := by
  unfold execStepComplete
  repeat' first
    | with_reducible assumption
    | with_reducible apply Moves.refl
    | with_reducible apply State.stamp_moves
    | with_reducible apply State.abandon_moves
    | with_reducible apply State.met_moves
    | with_reducible apply State.endDrains_moves
    | with_reducible apply State.expireCopies_moves
    | with_reducible apply State.tryMirror_moves
    | with_reducible apply State.enableSlices_moves
    | with_reducible apply State.stepBoundary_moves
    | with_reducible apply State.irqDeliver_moves
    | with_reducible apply State.letIn_moves
    | with_reducible apply Moves.wr
    | with_reducible apply Moves.bump
    | with_reducible apply Moves.ite
    | with_reducible apply ResMoves.next
    | with_reducible apply ResMoves.fault
    | with_reducible apply ResMoves.refused
    | with_reducible apply ResMoves.ite
    | (with_reducible apply Moves.inSub ha; decide)
    | (with_reducible apply Moves.inSub hq; decide)
    | with_reducible apply Moves.foldl
    | with_reducible intro _
    | (with_reducible apply List.Subset.trans ?_ ha; decide)
    | (with_reducible apply List.Subset.trans ?_ hq; decide)
    | split
    | dsimp only

theorem State.losePress_moves (s : State) (p : Nat) (t : Nat)
    (ha : [.imp, .forme, .cmp, .col, .prs] ⊆ as)
    (hq : [.presses, .jobs, .lateXfers, .drains, .links, .relays, .freeCount] ⊆ ps)
    (h : Moves as ps s0 s) : Moves as ps s0 (State.losePress s p t) := by
  unfold State.losePress
  repeat' first
    | with_reducible assumption
    | with_reducible apply Moves.refl
    | with_reducible apply State.failPress_moves
    | with_reducible apply State.abandonPress_moves
    | with_reducible apply Moves.ite
    | (with_reducible apply Moves.inSub ha; decide)
    | (with_reducible apply Moves.inSub hq; decide)
    | with_reducible apply Moves.foldl
    | with_reducible intro _
    | (with_reducible apply List.Subset.trans ?_ ha; decide)
    | (with_reducible apply List.Subset.trans ?_ hq; decide)
    | split
    | dsimp only

theorem execPressLost_moves (p : Nat) (t : Nat) (s : State)
    (ha : [.tick, .imp, .forme, .cmp, .col, .prs] ⊆ as)
    (hq : [.presses, .jobs, .lateXfers, .drains, .links, .relays, .freeCount] ⊆ ps)
    (h : Moves as ps s0 s) : ResMoves as ps s0 (execPressLost p t s) := by
  unfold execPressLost
  repeat' first
    | with_reducible assumption
    | with_reducible apply Moves.refl
    | with_reducible apply State.losePress_moves
    | with_reducible apply State.stamp_moves
    | with_reducible apply Moves.ite
    | with_reducible apply ResMoves.next
    | with_reducible apply ResMoves.fault
    | with_reducible apply ResMoves.refused
    | with_reducible apply ResMoves.ite
    | (with_reducible apply Moves.inSub ha; decide)
    | (with_reducible apply Moves.inSub hq; decide)
    | with_reducible apply Moves.foldl
    | with_reducible intro _
    | (with_reducible apply List.Subset.trans ?_ ha; decide)
    | (with_reducible apply List.Subset.trans ?_ hq; decide)
    | split
    | dsimp only

theorem execDrainAcknowledged_moves (f : Nat) (s : State)
    (ha : [.forme, .pair] ⊆ as)
    (hq : [.mem, .presses, .drains, .dirtyOut, .links] ⊆ ps)
    (h : Moves as ps s0 s) : ResMoves as ps s0 (execDrainAcknowledged f s) := by
  unfold execDrainAcknowledged
  repeat' first
    | with_reducible assumption
    | with_reducible apply Moves.refl
    | with_reducible apply State.tryMirror_moves
    | with_reducible apply State.ackDrain_moves
    | with_reducible apply Moves.ite
    | with_reducible apply ResMoves.next
    | with_reducible apply ResMoves.fault
    | with_reducible apply ResMoves.refused
    | with_reducible apply ResMoves.ite
    | (with_reducible apply Moves.inSub ha; decide)
    | (with_reducible apply Moves.inSub hq; decide)
    | with_reducible apply Moves.foldl
    | with_reducible intro _
    | (with_reducible apply List.Subset.trans ?_ ha; decide)
    | (with_reducible apply List.Subset.trans ?_ hq; decide)
    | split
    | dsimp only

theorem execFormeStart_moves (f : Nat) (t : Nat) (s : State)
    (ha : [.tick, .imp, .forme, .pair, .pwr, .prf, .events, .cal, .cmp, .col, .prs, .oe, .lnk, .lsu, .mem] ⊆ as)
    (hq : [.presses, .jobs, .lateXfers, .drains, .calJobs, .calRuns, .swaps, .spareNeeds, .barSent, .links, .repairMap, .flashQ, .relays, .freeCount] ⊆ ps)
    (h : Moves as ps s0 s) : ResMoves as ps s0 (execFormeStart f t s) := by
  unfold execFormeStart
  repeat' first
    | with_reducible assumption
    | with_reducible apply Moves.refl
    | with_reducible apply State.command_moves
    | with_reducible apply State.stamp_moves
    | with_reducible apply State.waitBoundary_moves
    | with_reducible apply Moves.ite
    | with_reducible apply ResMoves.next
    | with_reducible apply ResMoves.fault
    | with_reducible apply ResMoves.refused
    | with_reducible apply ResMoves.ite
    | (with_reducible apply Moves.inSub ha; decide)
    | (with_reducible apply Moves.inSub hq; decide)
    | with_reducible apply Moves.foldl
    | with_reducible intro _
    | (with_reducible apply List.Subset.trans ?_ ha; decide)
    | (with_reducible apply List.Subset.trans ?_ hq; decide)
    | split
    | dsimp only

theorem execFormeHold_moves (f : Nat) (t : Nat) (s : State)
    (ha : [.tick, .imp, .forme, .pair, .pwr, .prf, .events, .cal, .cmp, .col, .prs, .oe, .lnk, .lsu, .mem] ⊆ as)
    (hq : [.presses, .jobs, .lateXfers, .drains, .calJobs, .calRuns, .swaps, .spareNeeds, .barSent, .links, .repairMap, .flashQ, .relays, .freeCount] ⊆ ps)
    (h : Moves as ps s0 s) : ResMoves as ps s0 (execFormeHold f t s) := by
  unfold execFormeHold
  repeat' first
    | with_reducible assumption
    | with_reducible apply Moves.refl
    | with_reducible apply State.command_moves
    | with_reducible apply State.stamp_moves
    | with_reducible apply State.waitBoundary_moves
    | with_reducible apply Moves.ite
    | with_reducible apply ResMoves.next
    | with_reducible apply ResMoves.fault
    | with_reducible apply ResMoves.refused
    | with_reducible apply ResMoves.ite
    | (with_reducible apply Moves.inSub ha; decide)
    | (with_reducible apply Moves.inSub hq; decide)
    | with_reducible apply Moves.foldl
    | with_reducible intro _
    | (with_reducible apply List.Subset.trans ?_ ha; decide)
    | (with_reducible apply List.Subset.trans ?_ hq; decide)
    | split
    | dsimp only

theorem execFormePark_moves (f : Nat) (t : Nat) (s : State)
    (ha : [.tick, .imp, .forme, .pair, .pwr, .prf, .events, .cal, .cmp, .col, .prs, .oe, .lnk, .lsu, .mem] ⊆ as)
    (hq : [.presses, .jobs, .lateXfers, .drains, .calJobs, .calRuns, .swaps, .spareNeeds, .barSent, .links, .repairMap, .flashQ, .relays, .freeCount] ⊆ ps)
    (h : Moves as ps s0 s) : ResMoves as ps s0 (execFormePark f t s) := by
  unfold execFormePark
  repeat' first
    | with_reducible assumption
    | with_reducible apply Moves.refl
    | with_reducible apply State.command_moves
    | with_reducible apply State.stamp_moves
    | with_reducible apply State.waitBoundary_moves
    | with_reducible apply Moves.ite
    | with_reducible apply ResMoves.next
    | with_reducible apply ResMoves.fault
    | with_reducible apply ResMoves.refused
    | with_reducible apply ResMoves.ite
    | (with_reducible apply Moves.inSub ha; decide)
    | (with_reducible apply Moves.inSub hq; decide)
    | with_reducible apply Moves.foldl
    | with_reducible intro _
    | (with_reducible apply List.Subset.trans ?_ ha; decide)
    | (with_reducible apply List.Subset.trans ?_ hq; decide)
    | split
    | dsimp only

end Sys2Proof.Machine
end

