-- ==== Sys2Proof/Laws/MovesKeys.lean ====
section
/-!
SUPPORT. Footprints of the operations of Machine/Keys.lean.
-/

namespace Sys2Proof.Machine

variable {as : List Area} {ps : List Part} {s0 : State}

theorem State.showKeys_moves (s : State)
    (ha : [.sec] ⊆ as)
    (h : Moves as ps s0 s) : Moves as ps s0 (State.showKeys s) := by
  unfold State.showKeys
  repeat' first
    | with_reducible assumption
    | with_reducible apply Moves.refl
    | with_reducible apply Moves.wr
    | with_reducible apply Moves.ite
    | (with_reducible apply Moves.inSub ha; decide)
    | with_reducible apply Moves.foldl
    | with_reducible intro _
    | (with_reducible apply List.Subset.trans ?_ ha; decide)
    | split
    | dsimp only

end Sys2Proof.Machine
end

