-- ==== Sys2Proof/Laws/MovesLoad.lean ====
section
/-!
SUPPORT. Footprints of the operations of Machine/Load.lean.
-/

namespace Sys2Proof.Machine

variable {as : List Area} {ps : List Part} {s0 : State}

theorem State.setSlot_moves (s : State) (x : Nat)
    (ha : [.imp, .events] ⊆ as)
    (h : Moves as ps s0 s) : Moves as ps s0 (State.setSlot s x) := by
  unfold State.setSlot
  repeat' first
    | with_reducible assumption
    | with_reducible apply Moves.refl
    | with_reducible apply Moves.wr
    | with_reducible apply Moves.ite
    | (with_reducible apply Moves.inSub ha; decide)
    | with_reducible apply Moves.foldl
    | with_reducible intro _
    | (with_reducible apply List.Subset.trans ?_ ha; decide)
    | split
    | dsimp only

theorem State.report_moves (s : State) (e : ImpErr)
    (ha : [.imp] ⊆ as)
    (h : Moves as ps s0 s) : Moves as ps s0 (State.report s e) := by
  unfold State.report
  repeat' first
    | with_reducible assumption
    | with_reducible apply Moves.refl
    | with_reducible apply Moves.wrAll
    | with_reducible apply areas_cons
    | with_reducible apply areas_nil
    | with_reducible apply Moves.ite
    | (with_reducible apply Moves.inSub ha; decide)
    | with_reducible apply Moves.foldl
    | with_reducible intro _
    | (with_reducible apply List.Subset.trans ?_ ha; decide)
    | split
    | dsimp only

theorem execImpLoad_moves (t : Nat) (s : State)
    (ha : [.tick, .imp, .events] ⊆ as)
    (hq : [.loaded, .pendingBytes] ⊆ ps)
    (h : Moves as ps s0 s) : ResMoves as ps s0 (execImpLoad t s) := by
  unfold execImpLoad
  repeat' first
    | with_reducible assumption
    | with_reducible apply Moves.refl
    | with_reducible apply State.stamp_moves
    | with_reducible apply State.setSlot_moves
    | with_reducible apply State.report_moves
    | with_reducible apply State.ignoreCmd_moves
    | with_reducible apply Moves.wr
    | with_reducible apply Moves.ite
    | with_reducible apply ResMoves.next
    | with_reducible apply ResMoves.fault
    | with_reducible apply ResMoves.refused
    | with_reducible apply ResMoves.ite
    | (with_reducible apply Moves.inSub ha; decide)
    | (with_reducible apply Moves.inSub hq; decide)
    | with_reducible apply Moves.foldl
    | with_reducible intro _
    | (with_reducible apply List.Subset.trans ?_ ha; decide)
    | (with_reducible apply List.Subset.trans ?_ hq; decide)
    | split
    | dsimp only
    | with_reducible apply Moves.set_loaded
    | with_reducible apply Moves.set_pendingBytes
    | ((with_reducible apply Moves.update); on_goal 1 => (intro q hn; cases q <;> first | exact absurd (hq (by decide)) hn | rfl))

theorem State.zeroSeqs_moves (s : State) (q : Nat)
    (ha : [.fab, .lnk] ⊆ as)
    (hq : [.links, .early] ⊆ ps)
    (h : Moves as ps s0 s) : Moves as ps s0 (State.zeroSeqs s q) := by
  unfold State.zeroSeqs
  repeat' first
    | with_reducible assumption
    | with_reducible apply Moves.refl
    | with_reducible apply State.setLink_moves
    | with_reducible apply Moves.wrAll
    | with_reducible apply areas_cons
    | with_reducible apply areas_nil
    | with_reducible apply Moves.ite
    | (with_reducible apply Moves.inSub ha; decide)
    | (with_reducible apply Moves.inSub hq; decide)
    | with_reducible apply Moves.each
    | with_reducible apply Moves.foldl
    | with_reducible intro _
    | (with_reducible apply List.Subset.trans ?_ ha; decide)
    | (with_reducible apply List.Subset.trans ?_ hq; decide)
    | split
    | dsimp only
    | with_reducible apply Moves.set_early

theorem State.emptySlot_moves (s : State)
    (ha : [.imp, .events] ⊆ as)
    (hq : [.loaded, .pendingBytes] ⊆ ps)
    (h : Moves as ps s0 s) : Moves as ps s0 (State.emptySlot s) := by
  unfold State.emptySlot
  repeat' first
    | with_reducible assumption
    | with_reducible apply Moves.refl
    | with_reducible apply State.setSlot_moves
    | with_reducible apply Moves.wr
    | with_reducible apply Moves.ite
    | (with_reducible apply Moves.inSub ha; decide)
    | (with_reducible apply Moves.inSub hq; decide)
    | with_reducible apply Moves.foldl
    | with_reducible intro _
    | (with_reducible apply List.Subset.trans ?_ ha; decide)
    | (with_reducible apply List.Subset.trans ?_ hq; decide)
    | split
    | dsimp only
    | with_reducible apply Moves.set_loaded
    | with_reducible apply Moves.set_pendingBytes
    | ((with_reducible apply Moves.update); on_goal 1 => (intro q hn; cases q <;> first | exact absurd (hq (by decide)) hn | rfl))

theorem State.releaseSwitch_moves (s : State)
    (ha : [.imp, .forme, .fab, .pair, .pwr, .prf, .events, .cal, .cmp, .col, .prs, .oe, .lnk, .lsu, .mem] ⊆ as)
    (hq : [.presses, .jobs, .lateXfers, .drains, .calJobs, .calRuns, .swaps, .spareNeeds, .barSent, .links, .repairMap, .flashQ, .relays, .freeCount] ⊆ ps)
    (h : Moves as ps s0 s) : Moves as ps s0 (State.releaseSwitch s) := by
  unfold State.releaseSwitch
  repeat' first
    | with_reducible assumption
    | with_reducible apply Moves.refl
    | with_reducible apply State.setLink_moves
    | with_reducible apply State.letIn_moves
    | with_reducible apply State.resumeForme_moves
    | with_reducible apply Moves.wr
    | with_reducible apply Moves.ite
    | (with_reducible apply Moves.inSub ha; decide)
    | (with_reducible apply Moves.inSub hq; decide)
    | with_reducible apply Moves.each
    | with_reducible apply Moves.foldl
    | with_reducible intro _
    | (with_reducible apply List.Subset.trans ?_ ha; decide)
    | (with_reducible apply List.Subset.trans ?_ hq; decide)
    | split
    | dsimp only

theorem execImpDiscard_moves (t : Nat) (s : State)
    (ha : [.tick, .imp, .forme, .fab, .pair, .pwr, .prf, .events, .cal, .cmp, .col, .prs, .oe, .lnk, .lsu, .mem] ⊆ as)
    (hq : [.presses, .loaded, .pendingBytes, .jobs, .lateXfers, .drains, .calJobs, .calRuns, .swaps, .spareNeeds, .barSent, .links, .repairMap, .flashQ, .relays, .freeCount] ⊆ ps)
    (h : Moves as ps s0 s) : ResMoves as ps s0 (execImpDiscard t s) := by
  unfold execImpDiscard
  repeat' first
    | with_reducible assumption
    | with_reducible apply Moves.refl
    | with_reducible apply State.stamp_moves
    | with_reducible apply State.emptySlot_moves
    | with_reducible apply State.ignoreCmd_moves
    | with_reducible apply State.releaseSwitch_moves
    | with_reducible apply Moves.wr
    | with_reducible apply Moves.ite
    | with_reducible apply ResMoves.next
    | with_reducible apply ResMoves.fault
    | with_reducible apply ResMoves.refused
    | with_reducible apply ResMoves.ite
    | (with_reducible apply Moves.inSub ha; decide)
    | (with_reducible apply Moves.inSub hq; decide)
    | with_reducible apply Moves.foldl
    | with_reducible intro _
    | (with_reducible apply List.Subset.trans ?_ ha; decide)
    | (with_reducible apply List.Subset.trans ?_ hq; decide)
    | split
    | dsimp only

theorem State.lightPort_moves (s : State) (q : Nat) (t : Nat)
    (ha : [.fab, .events, .cal, .ddl, .oe, .lnk, .lsu] ⊆ as)
    (hq : [.calJobs, .swaps, .links, .early] ⊆ ps)
    (h : Moves as ps s0 s) : Moves as ps s0 (State.lightPort s q t) := by
  unfold State.lightPort
  repeat' first
    | with_reducible assumption
    | with_reducible apply Moves.refl
    | with_reducible apply State.zeroSeqs_moves
    | with_reducible apply State.toClock_moves
    | with_reducible apply Moves.ite
    | (with_reducible apply Moves.inSub ha; decide)
    | (with_reducible apply Moves.inSub hq; decide)
    | with_reducible apply Moves.foldl
    | with_reducible intro _
    | (with_reducible apply List.Subset.trans ?_ ha; decide)
    | (with_reducible apply List.Subset.trans ?_ hq; decide)
    | split
    | dsimp only

theorem State.askWidth_moves (s : State) (q : Nat)
    (ha : [.lnk] ⊆ as)
    (hq : [.links] ⊆ ps)
    (h : Moves as ps s0 s) : Moves as ps s0 (State.askWidth s q) := by
  unfold State.askWidth
  repeat' first
    | with_reducible assumption
    | with_reducible apply Moves.refl
    | with_reducible apply State.setLane_moves
    | with_reducible apply State.issue_moves
    | with_reducible apply Moves.ite
    | (with_reducible apply Moves.inSub ha; decide)
    | (with_reducible apply Moves.inSub hq; decide)
    | with_reducible apply Moves.each
    | with_reducible apply Moves.foldl
    | with_reducible intro _
    | (with_reducible apply List.Subset.trans ?_ ha; decide)
    | (with_reducible apply List.Subset.trans ?_ hq; decide)
    | split
    | dsimp only

theorem State.switchPort_moves (s : State) (old : Option Imposition) (q : Nat) (t : Nat)
    (ha : [.fab, .events, .cal, .ddl, .oe, .lnk, .lsu] ⊆ as)
    (hq : [.calJobs, .swaps, .spareNeeds, .links, .early] ⊆ ps)
    (h : Moves as ps s0 s) : Moves as ps s0 (State.switchPort s old q t) := by
  unfold State.switchPort
  repeat' first
    | with_reducible assumption
    | with_reducible apply Moves.refl
    | with_reducible apply State.setLink_moves
    | with_reducible apply State.lightPort_moves
    | with_reducible apply State.portOff_moves
    | with_reducible apply State.toClock_moves
    | with_reducible apply State.askWidth_moves
    | with_reducible apply Moves.wr
    | with_reducible apply Moves.ite
    | (with_reducible apply Moves.inSub ha; decide)
    | (with_reducible apply Moves.inSub hq; decide)
    | with_reducible apply Moves.foldl
    | with_reducible intro _
    | (with_reducible apply List.Subset.trans ?_ ha; decide)
    | (with_reducible apply List.Subset.trans ?_ hq; decide)
    | split
    | dsimp only

theorem execDiscardStop_moves (t : Nat) (s : State)
    (ha : [.tick, .imp, .events] ⊆ as)
    (hq : [.loaded, .pendingBytes] ⊆ ps)
    (h : Moves as ps s0 s) : ResMoves as ps s0 (execDiscardStop t s) := by
  unfold execDiscardStop
  repeat' first
    | with_reducible assumption
    | with_reducible apply Moves.refl
    | with_reducible apply State.stamp_moves
    | with_reducible apply State.emptySlot_moves
    | with_reducible apply Moves.ite
    | with_reducible apply ResMoves.next
    | with_reducible apply ResMoves.fault
    | with_reducible apply ResMoves.refused
    | with_reducible apply ResMoves.ite
    | (with_reducible apply Moves.inSub ha; decide)
    | (with_reducible apply Moves.inSub hq; decide)
    | with_reducible apply Moves.foldl
    | with_reducible intro _
    | (with_reducible apply List.Subset.trans ?_ ha; decide)
    | (with_reducible apply List.Subset.trans ?_ hq; decide)
    | split
    | dsimp only

theorem State.refuse_moves (s : State) (e : ImpErr)
    (ha : [.imp, .events] ⊆ as)
    (hq : [.loaded, .pendingBytes] ⊆ ps)
    (h : Moves as ps s0 s) : Moves as ps s0 (State.refuse s e) := by
  unfold State.refuse
  repeat' first
    | with_reducible assumption
    | with_reducible apply Moves.refl
    | with_reducible apply State.setSlot_moves
    | with_reducible apply State.report_moves
    | with_reducible apply Moves.wr
    | with_reducible apply Moves.ite
    | (with_reducible apply Moves.inSub ha; decide)
    | (with_reducible apply Moves.inSub hq; decide)
    | with_reducible apply Moves.foldl
    | with_reducible intro _
    | (with_reducible apply List.Subset.trans ?_ ha; decide)
    | (with_reducible apply List.Subset.trans ?_ hq; decide)
    | split
    | dsimp only
    | with_reducible apply Moves.set_loaded
    | with_reducible apply Moves.set_pendingBytes
    | ((with_reducible apply Moves.update); on_goal 1 => (intro q hn; cases q <;> first | exact absurd (hq (by decide)) hn | rfl))

theorem State.switchFault_moves (s : State) (f : Nat)
    (ha : [.imp, .forme, .fab, .pair, .pwr, .prf, .events, .cal, .cmp, .col, .prs, .oe, .lnk, .lsu, .mem] ⊆ as)
    (hq : [.presses, .loaded, .pendingBytes, .jobs, .lateXfers, .drains, .calJobs, .calRuns, .swaps, .spareNeeds, .barSent, .links, .repairMap, .flashQ, .relays, .freeCount] ⊆ ps)
    (h : Moves as ps s0 s) : Moves as ps s0 (State.switchFault s f) := by
  unfold State.switchFault
  repeat' first
    | with_reducible assumption
    | with_reducible apply Moves.refl
    | with_reducible apply State.releaseSwitch_moves
    | with_reducible apply State.refuse_moves
    | with_reducible apply Moves.ite
    | (with_reducible apply Moves.inSub ha; decide)
    | (with_reducible apply Moves.inSub hq; decide)
    | with_reducible apply Moves.foldl
    | with_reducible intro _
    | (with_reducible apply List.Subset.trans ?_ ha; decide)
    | (with_reducible apply List.Subset.trans ?_ hq; decide)
    | split
    | dsimp only

theorem execImpCommit_moves (t : Nat) (s : State)
    (ha : [.tick, .imp, .forme, .fab, .pair, .pwr, .prf, .irq, .events, .cal, .cmp, .col, .prs, .oe, .lnk, .lsu, .mem] ⊆ as)
    (hq : [.presses, .loaded, .pendingBytes, .jobs, .lateXfers, .drains, .calJobs, .calRuns, .swaps, .spareNeeds, .barSent, .links, .repairMap, .flashQ, .relays, .freeCount] ⊆ ps)
    (h : Moves as ps s0 s) : ResMoves as ps s0 (execImpCommit t s) := by
  unfold execImpCommit
  repeat' first
    | with_reducible assumption
    | with_reducible apply Moves.refl
    | with_reducible apply State.stamp_moves
    | with_reducible apply State.irqDeliver_moves
    | with_reducible apply State.switchFault_moves
    | with_reducible apply State.setSlot_moves
    | with_reducible apply State.startQuiesce_moves
    | with_reducible apply State.ignoreCmd_moves
    | with_reducible apply Moves.wr
    | with_reducible apply Moves.ite
    | with_reducible apply ResMoves.next
    | with_reducible apply ResMoves.fault
    | with_reducible apply ResMoves.refused
    | with_reducible apply ResMoves.ite
    | (with_reducible apply Moves.inSub ha; decide)
    | (with_reducible apply Moves.inSub hq; decide)
    | with_reducible apply Moves.each
    | with_reducible apply Moves.foldl
    | with_reducible intro _
    | (with_reducible apply List.Subset.trans ?_ ha; decide)
    | (with_reducible apply List.Subset.trans ?_ hq; decide)
    | split
    | dsimp only

theorem State.endPressProof_moves (s : State) (p : Nat) (mask : Nat) (dead : Option Nat)
    (ha : [.prf, .prs] ⊆ as)
    (hq : [.presses, .repairMap, .flashQ, .freeCount] ⊆ ps)
    (h : Moves as ps s0 s) : Moves as ps s0 (State.endPressProof s p mask dead) := by
  unfold State.endPressProof
  repeat' first
    | with_reducible assumption
    | with_reducible apply Moves.refl
    | with_reducible apply State.addEntry_moves
    | with_reducible apply State.queueFlash_moves
    | with_reducible apply State.failPress_moves
    | with_reducible apply State.setDepth_moves
    | with_reducible apply State.setPState_moves
    | with_reducible apply Moves.orBit
    | with_reducible apply Moves.ite
    | (with_reducible apply Moves.inSub ha; decide)
    | (with_reducible apply Moves.inSub hq; decide)
    | with_reducible apply Moves.each
    | with_reducible apply Moves.foldl
    | with_reducible intro _
    | (with_reducible apply List.Subset.trans ?_ ha; decide)
    | (with_reducible apply List.Subset.trans ?_ hq; decide)
    | split
    | dsimp only

theorem State.loadForme_moves (s : State) (x : Forme)
    (ha : [.forme] ⊆ as)
    (h : Moves as ps s0 s) : Moves as ps s0 (State.loadForme s x) := by
  unfold State.loadForme
  repeat' first
    | with_reducible assumption
    | with_reducible apply Moves.refl
    | with_reducible apply Moves.wrAll
    | with_reducible apply areas_cons
    | with_reducible apply areas_nil
    | with_reducible apply Moves.ite
    | (with_reducible apply Moves.inSub ha; decide)
    | with_reducible apply Moves.foldl
    | with_reducible intro _
    | (with_reducible apply List.Subset.trans ?_ ha; decide)
    | split
    | dsimp only

theorem State.carryForme_moves (s : State) (x : Forme) (parked : Bool)
    (ha : [.forme, .pwr, .prf, .cal, .prs, .oe, .lnk, .mem] ⊆ as)
    (hq : [.presses, .calJobs, .calRuns, .spareNeeds, .barSent, .links, .repairMap, .flashQ, .freeCount] ⊆ ps)
    (h : Moves as ps s0 s) : Moves as ps s0 (State.carryForme s x parked) := by
  unfold State.carryForme
  repeat' first
    | with_reducible assumption
    | with_reducible apply Moves.refl
    | with_reducible apply State.run_moves
    | with_reducible apply State.replay_moves
    | with_reducible apply State.prepare_moves
    | with_reducible apply Moves.ite
    | (with_reducible apply Moves.inSub ha; decide)
    | (with_reducible apply Moves.inSub hq; decide)
    | with_reducible apply Moves.foldl
    | with_reducible intro _
    | (with_reducible apply List.Subset.trans ?_ ha; decide)
    | (with_reducible apply List.Subset.trans ?_ hq; decide)
    | split
    | dsimp only

theorem State.installFormes_moves (s : State) (i : Imposition) (kept : List (Forme × Bool × Nat))
    (ha : [.forme, .pair, .pwr, .prf, .cal, .prs, .oe, .lnk, .mem] ⊆ as)
    (hq : [.presses, .active, .loaded, .pendingBytes, .jobs, .lateXfers, .drains, .dirtyOut, .dirtyShared, .mirrorGot, .log, .calJobs, .calRuns, .spareNeeds, .arrivals, .barDone, .barSent, .links, .repairMap, .idleDebt, .flashQ, .relays, .early, .moe, .freeCount] ⊆ ps)
    (h : Moves as ps s0 s) : Moves as ps s0 (State.installFormes s i kept) := by
  unfold State.installFormes
  extract_lets log s1 s2 s5 s3 s4
  have hl : ∀ (l : List Field), (∀ g ∈ l, g.area ∈ as) → ∀ k t, Moves as ps s0 t →
      Moves as ps s0 (t.each l fun s fld => s.clr fld 0 k) := by
    intro l
    induction l with
    | nil => exact fun _ _ t ht => ht
    | cons f l ih =>
      exact fun hf k t ht => ih (fun g hg => hf g (List.mem_cons_of_mem _ hg)) k _
        (Moves.clr _ _ _ (hf f (List.mem_cons_self ..)) ht)
  have k1 : Moves as ps s0 s1 := Moves.each _ _ (fun x f hx => hl formeFields (fun g hg =>
    ha (List.Subset.trans (l₂ := [Area.forme, .pwr, .pair]) (fun _ h => h) (by decide)
      ((by decide : ∀ g ∈ formeFields, g.area ∈ [Area.forme, .pwr, .pair]) g hg))) _ _ hx) h
  clear_value s1
  have k2 : Moves as ps s0 s2 := by
    refine Moves.parts k1 rfl rfl rfl fun q hn => ?_
    have hz : q ∉ [Part.active, .loaded, .pendingBytes, .jobs, .lateXfers, .drains, .relays, .moe,
        .dirtyOut, .dirtyShared, .log, .arrivals, .barDone, .barSent, .idleDebt, .early, .mirrorGot] :=
      fun hx => hn (hq (List.Subset.trans (fun _ h => h) (by decide) hx))
    cases q <;> first | rfl | exact absurd (by decide) hz
  clear_value s2
  have k5 : Moves as ps s0 s5 := State.capUnmet_moves _ (List.Subset.trans (by decide) ha)
    (Moves.each _ _ (fun x f hx => Moves.wr _ _ _ _ (ha (by decide)) hx) k2)
  clear_value s5
  have k3 : Moves as ps s0 s3 := Moves.each _ _ (fun x f hx =>
    State.loadForme_moves x f (List.Subset.trans (by decide) ha) hx) k5
  have k4 : Moves as ps s0 s4 := Moves.each _ _ (fun x f hx => Moves.wr _ _ _ _ (ha (by decide)) hx) k3
  exact Moves.each _ _ (fun x f hx => State.carryForme_moves _ _ _ (List.Subset.trans (by decide) ha)
    (List.Subset.trans (by decide) hq) (Moves.wr _ _ _ _ (ha (by decide)) hx)) k4

theorem execSwitchComplete_moves (findings : List (Nat × Nat)) (dead : List (Nat × Nat)) (t : Nat) (s : State)
    (ha : [.tick, .imp, .forme, .fab, .pair, .pwr, .prf, .core, .irq, .events, .cal, .gal, .cmp, .col, .ddl, .gst, .prs, .oe, .lnk, .lsu, .mem] ⊆ as)
    (hq : [.presses, .active, .loaded, .pendingBytes, .jobs, .lateXfers, .drains, .dirtyOut, .dirtyShared, .mirrorGot, .mgtLast, .log, .calJobs, .calRuns, .swaps, .spareNeeds, .arrivals, .barDone, .barSent, .links, .repairMap, .idleDebt, .flashQ, .relays, .early, .mgtJobs, .moe, .out, .freeCount] ⊆ ps)
    (h : Moves as ps s0 s) : ResMoves as ps s0 (execSwitchComplete findings dead t s) := by
  unfold execSwitchComplete
  repeat' first
    | with_reducible assumption
    | with_reducible apply Moves.refl
    | with_reducible apply State.stamp_moves
    | with_reducible apply State.endPressProof_moves
    | with_reducible apply State.switchPort_moves
    | with_reducible apply State.installFormes_moves
    | with_reducible apply State.wantWidth_moves
    | with_reducible apply State.irqDeliver_moves
    | with_reducible apply State.refreshPair_moves
    | with_reducible apply State.setSlot_moves
    | with_reducible apply Moves.wrAll
    | with_reducible apply areas_cons
    | with_reducible apply areas_nil
    | with_reducible apply Moves.ite
    | with_reducible apply ResMoves.next
    | with_reducible apply ResMoves.fault
    | with_reducible apply ResMoves.refused
    | with_reducible apply ResMoves.ite
    | (with_reducible apply Moves.inSub ha; decide)
    | (with_reducible apply Moves.inSub hq; decide)
    | with_reducible apply Moves.each
    | with_reducible apply Moves.foldl
    | with_reducible intro _
    | (with_reducible apply List.Subset.trans ?_ ha; decide)
    | (with_reducible apply List.Subset.trans ?_ hq; decide)
    | split
    | dsimp only
    | with_reducible apply Moves.set_active

theorem execVerifyComplete_moves (t : Nat) (s : State)
    (ha : [.tick, .imp, .irq, .events] ⊆ as)
    (hq : [.loaded, .pendingBytes] ⊆ ps)
    (h : Moves as ps s0 s) : ResMoves as ps s0 (execVerifyComplete t s) := by
  unfold execVerifyComplete
  repeat' first
    | with_reducible assumption
    | with_reducible apply Moves.refl
    | with_reducible apply State.stamp_moves
    | with_reducible apply State.irqDeliver_moves
    | with_reducible apply State.refuse_moves
    | with_reducible apply State.setSlot_moves
    | with_reducible apply Moves.ite
    | with_reducible apply ResMoves.next
    | with_reducible apply ResMoves.fault
    | with_reducible apply ResMoves.refused
    | with_reducible apply ResMoves.ite
    | (with_reducible apply Moves.inSub ha; decide)
    | (with_reducible apply Moves.inSub hq; decide)
    | with_reducible apply Moves.foldl
    | with_reducible intro _
    | (with_reducible apply List.Subset.trans ?_ ha; decide)
    | (with_reducible apply List.Subset.trans ?_ hq; decide)
    | split
    | dsimp only

theorem State.writeMemory_moves (s : State) (i : Imposition)
    (ha : [.gal, .mem] ⊆ as)
    (h : Moves as ps s0 s) : Moves as ps s0 (State.writeMemory s i) := by
  unfold State.writeMemory
  repeat' first
    | with_reducible assumption
    | with_reducible apply Moves.refl
    | with_reducible apply Moves.wr
    | with_reducible apply Moves.wrAll
    | with_reducible apply areas_cons
    | with_reducible apply areas_nil
    | with_reducible apply Moves.ite
    | (with_reducible apply Moves.inSub ha; decide)
    | with_reducible apply Moves.each
    | with_reducible apply Moves.foldl
    | with_reducible intro _
    | (with_reducible apply List.Subset.trans ?_ ha; decide)
    | split
    | dsimp only

theorem execCheckComplete_moves (t : Nat) (s : State)
    (ha : [.tick, .imp, .irq, .events] ⊆ as)
    (hq : [.loaded, .pendingBytes] ⊆ ps)
    (h : Moves as ps s0 s) : ResMoves as ps s0 (execCheckComplete t s) := by
  unfold execCheckComplete
  repeat' first
    | with_reducible assumption
    | with_reducible apply Moves.refl
    | with_reducible apply State.stamp_moves
    | with_reducible apply State.irqDeliver_moves
    | with_reducible apply State.refuse_moves
    | with_reducible apply State.setSlot_moves
    | with_reducible apply Moves.ite
    | with_reducible apply ResMoves.next
    | with_reducible apply ResMoves.fault
    | with_reducible apply ResMoves.refused
    | with_reducible apply ResMoves.ite
    | (with_reducible apply Moves.inSub ha; decide)
    | (with_reducible apply Moves.inSub hq; decide)
    | with_reducible apply Moves.foldl
    | with_reducible intro _
    | (with_reducible apply List.Subset.trans ?_ ha; decide)
    | (with_reducible apply List.Subset.trans ?_ hq; decide)
    | split
    | dsimp only
    | with_reducible apply Moves.set_loaded

theorem State.powerPresses_moves (s : State) (i : Imposition)
    (ha : [.prs, .fin, .case] ⊆ as)
    (hq : [.presses, .freeCount] ⊆ ps)
    (h : Moves as ps s0 s) : Moves as ps s0 (State.powerPresses s i) := by
  unfold State.powerPresses
  repeat' first
    | with_reducible assumption
    | with_reducible apply Moves.refl
    | with_reducible apply State.setPState_moves
    | with_reducible apply State.pressOff_moves
    | with_reducible apply Moves.ite
    | (with_reducible apply Moves.inSub ha; decide)
    | (with_reducible apply Moves.inSub hq; decide)
    | with_reducible apply Moves.each
    | with_reducible apply Moves.foldl
    | with_reducible intro _
    | (with_reducible apply List.Subset.trans ?_ ha; decide)
    | (with_reducible apply List.Subset.trans ?_ hq; decide)
    | split
    | dsimp only

theorem State.writeRouting_moves (s : State) (i : Imposition)
    (ha : [.core, .ddl, .gst] ⊆ as)
    (h : Moves as ps s0 s) : Moves as ps s0 (State.writeRouting s i) := by
  unfold State.writeRouting
  repeat' first
    | with_reducible assumption
    | with_reducible apply Moves.refl
    | with_reducible apply State.ddlWr_moves
    | with_reducible apply Moves.wr
    | with_reducible apply Moves.wrAll
    | with_reducible apply areas_cons
    | with_reducible apply areas_nil
    | with_reducible apply Moves.ite
    | (with_reducible apply Moves.inSub ha; decide)
    | with_reducible apply Moves.each
    | with_reducible apply Moves.foldl
    | with_reducible intro _
    | (with_reducible apply List.Subset.trans ?_ ha; decide)
    | split
    | dsimp only

theorem State.writeImages_moves (s : State) (i : Imposition)
    (hq : [.presses] ⊆ ps)
    (h : Moves as ps s0 s) : Moves as ps s0 (State.writeImages s i) := by
  unfold State.writeImages
  repeat' first
    | with_reducible assumption
    | with_reducible apply Moves.refl
    | with_reducible apply State.writeStores_moves
    | with_reducible apply Moves.ite
    | (with_reducible apply Moves.inSub hq; decide)
    | with_reducible apply Moves.each
    | with_reducible apply Moves.foldl
    | with_reducible intro _
    | (with_reducible apply List.Subset.trans ?_ hq; decide)
    | split
    | dsimp only

theorem execSwitch_moves (counterOk : Bool) (t : Nat) (s : State)
    (ha : [.tick, .imp, .forme, .fab, .pair, .pwr, .prf, .sec, .core, .irq, .events, .cal, .gal, .cmp, .col, .ddl, .gst, .prs, .fin, .case, .oe, .lnk, .lsu, .mem] ⊆ as)
    (hq : [.presses, .loaded, .pendingBytes, .jobs, .lateXfers, .drains, .calJobs, .calRuns, .swaps, .spareNeeds, .barSent, .links, .repairMap, .flashQ, .relays, .freeCount] ⊆ ps)
    (h : Moves as ps s0 s) : ResMoves as ps s0 (execSwitch counterOk t s) := by
  unfold execSwitch
  repeat' first
    | with_reducible assumption
    | with_reducible apply Moves.refl
    | with_reducible apply State.stamp_moves
    | with_reducible apply State.irqDeliver_moves
    | with_reducible apply State.switchFault_moves
    | with_reducible apply State.startQuiesce_moves
    | with_reducible apply State.releaseSwitch_moves
    | with_reducible apply State.refuse_moves
    | with_reducible apply State.powerPresses_moves
    | with_reducible apply State.writeRouting_moves
    | with_reducible apply State.writeMemory_moves
    | with_reducible apply State.writeImages_moves
    | with_reducible apply Moves.wr
    | with_reducible apply Moves.ite
    | with_reducible apply ResMoves.next
    | with_reducible apply ResMoves.fault
    | with_reducible apply ResMoves.refused
    | with_reducible apply ResMoves.ite
    | (with_reducible apply Moves.inSub ha; decide)
    | (with_reducible apply Moves.inSub hq; decide)
    | with_reducible apply Moves.foldl
    | with_reducible intro _
    | (with_reducible apply List.Subset.trans ?_ ha; decide)
    | (with_reducible apply List.Subset.trans ?_ hq; decide)
    | split
    | dsimp only

end Sys2Proof.Machine
end

