-- ==== Sys2Proof/Laws/MovesIsland.lean ====
section
/-!
SUPPORT. Footprints of the operations of Machine/Island.lean.
-/

namespace Sys2Proof.Machine

variable {as : List Area} {ps : List Part} {s0 : State}

theorem State.alertPin_moves (s : State)
    (ha : [.sec] ⊆ as)
    (h : Moves as ps s0 s) : Moves as ps s0 (State.alertPin s) := by
  unfold State.alertPin
  repeat' first
    | with_reducible assumption
    | with_reducible apply Moves.refl
    | with_reducible apply Moves.wr
    | with_reducible apply Moves.ite
    | (with_reducible apply Moves.inSub ha; decide)
    | with_reducible apply Moves.foldl
    | with_reducible intro _
    | (with_reducible apply List.Subset.trans ?_ ha; decide)
    | split
    | dsimp only

theorem State.alert_moves (s : State) (b : Nat)
    (ha : [.sec] ⊆ as)
    (h : Moves as ps s0 s) : Moves as ps s0 (State.alert s b) := by
  unfold State.alert
  repeat' first
    | with_reducible assumption
    | with_reducible apply Moves.refl
    | with_reducible apply State.alertPin_moves
    | with_reducible apply Moves.orBit
    | with_reducible apply Moves.ite
    | (with_reducible apply Moves.inSub ha; decide)
    | with_reducible apply Moves.foldl
    | with_reducible intro _
    | (with_reducible apply List.Subset.trans ?_ ha; decide)
    | split
    | dsimp only

theorem State.shutdown_moves (s : State) (trigger : Nat) (t : Nat)
    (ha : [.imp, .forme, .fab, .pair, .sec, .core, .events, .cal, .gal, .cmp, .col, .ddl, .gst, .prs, .oe, .lnk, .lsu] ⊆ as)
    (hq : [.presses, .jobs, .lateXfers, .drains, .mgtLast, .calJobs, .swaps, .spareNeeds, .links, .relays, .mgtJobs, .out, .freeCount] ⊆ ps)
    (h : Moves as ps s0 s) : Moves as ps s0 (State.shutdown s trigger t) := by
  unfold State.shutdown
  repeat' first
    | with_reducible assumption
    | with_reducible apply Moves.refl
    | with_reducible apply State.alert_moves
    | with_reducible apply State.laserShutdown_moves
    | with_reducible apply Moves.wr
    | with_reducible apply Moves.orBit
    | with_reducible apply Moves.ite
    | (with_reducible apply Moves.inSub ha; decide)
    | (with_reducible apply Moves.inSub hq; decide)
    | with_reducible apply Moves.foldl
    | with_reducible intro _
    | (with_reducible apply List.Subset.trans ?_ ha; decide)
    | (with_reducible apply List.Subset.trans ?_ hq; decide)
    | split
    | dsimp only

theorem State.releaseLine_moves (s : State)
    (ha : [.pair, .sec] ⊆ as)
    (h : Moves as ps s0 s) : Moves as ps s0 (State.releaseLine s) := by
  unfold State.releaseLine
  repeat' first
    | with_reducible assumption
    | with_reducible apply Moves.refl
    | with_reducible apply Moves.wr
    | with_reducible apply Moves.ite
    | (with_reducible apply Moves.inSub ha; decide)
    | with_reducible apply Moves.foldl
    | with_reducible intro _
    | (with_reducible apply List.Subset.trans ?_ ha; decide)
    | split
    | dsimp only

theorem State.setSec_moves (s : State) (x : Nat)
    (ha : [.sec] ⊆ as)
    (h : Moves as ps s0 s) : Moves as ps s0 (State.setSec s x) := by
  unfold State.setSec
  repeat' first
    | with_reducible assumption
    | with_reducible apply Moves.refl
    | with_reducible apply Moves.wr
    | with_reducible apply Moves.ite
    | (with_reducible apply Moves.inSub ha; decide)
    | with_reducible apply Moves.foldl
    | with_reducible intro _
    | (with_reducible apply List.Subset.trans ?_ ha; decide)
    | split
    | dsimp only

theorem State.resetMain_moves (s : State) (report : Bool)
    (ha : [.module, .tick, .imp, .forme, .fab, .pair, .pwr, .thm, .prf, .sec, .core, .irq, .events, .mgt, .cal, .chs, .gal, .cmp, .col, .ddl, .gst, .prs, .fin, .case, .oe, .lnk, .lsu, .mem] ⊆ as)
    (hq : [.mem, .presses, .active, .loaded, .pendingBytes, .jobs, .lateXfers, .heldAccs, .drains, .dirtyOut, .dirtyShared, .mirrorGot, .bases, .log, .calJobs, .calRuns, .calFails, .ringErr, .mislocks, .swaps, .spareNeeds, .arrivals, .barDone, .barSent, .tokens, .links, .repairMap, .ceLog, .samples, .idleDebt, .droops, .image, .snaps, .badWords, .relays, .early, .mgtJobs, .moe, .cache, .fades, .dropped] ⊆ ps)
    (h : Moves as ps s0 s) : Moves as ps s0 (State.resetMain s report) := by
  refine h.trans ⟨⟨(fun f i j hf => absurd (ha (show f.area ∈ [.module, .tick, .imp, .forme, .fab, .pair, .pwr, .thm, .prf, .sec, .core, .irq,
      .events, .mgt, .cal, .chs, .gal, .cmp, .col, .ddl, .gst, .prs, .fin, .case, .oe, .lnk, .lsu, .mem] by
      cases f.area <;> decide)) hf), fun q hn => ?_⟩, fun hi => ?_⟩
  · cases q <;> first | rfl | exact absurd (hq (by decide)) hn
  · rw [State.inv_iff] at hi ⊢
    exact ⟨tableWf_filter _ _ hi.1, rfl, fun e he => nomatch he⟩

theorem State.holdMain_moves (s : State) (sec : Nat) (alert : Nat)
    (ha : [.module, .tick, .imp, .forme, .fab, .pair, .pwr, .thm, .prf, .sec, .core, .irq, .events, .mgt, .cal, .chs, .gal, .cmp, .col, .ddl, .gst, .prs, .fin, .case, .oe, .lnk, .lsu, .mem] ⊆ as)
    (hq : [.mem, .presses, .active, .loaded, .pendingBytes, .jobs, .lateXfers, .heldAccs, .drains, .dirtyOut, .dirtyShared, .mirrorGot, .bases, .log, .calJobs, .calRuns, .calFails, .ringErr, .mislocks, .swaps, .spareNeeds, .arrivals, .barDone, .barSent, .tokens, .links, .repairMap, .ceLog, .samples, .idleDebt, .droops, .image, .snaps, .badWords, .relays, .early, .mgtJobs, .moe, .cache, .fades, .dropped] ⊆ ps)
    (h : Moves as ps s0 s) : Moves as ps s0 (State.holdMain s sec alert) := by
  unfold State.holdMain
  repeat' first
    | with_reducible assumption
    | with_reducible apply Moves.refl
    | with_reducible apply State.alert_moves
    | with_reducible apply State.releaseLine_moves
    | with_reducible apply State.setSec_moves
    | with_reducible apply State.resetMain_moves
    | with_reducible apply Moves.wr
    | with_reducible apply Moves.ite
    | (with_reducible apply Moves.inSub ha; decide)
    | (with_reducible apply Moves.inSub hq; decide)
    | with_reducible apply Moves.foldl
    | with_reducible intro _
    | (with_reducible apply List.Subset.trans ?_ ha; decide)
    | (with_reducible apply List.Subset.trans ?_ hq; decide)
    | split
    | dsimp only

theorem State.bootFail_moves (s : State) (cause : Nat)
    (ha : [.module, .tick, .imp, .forme, .fab, .pair, .pwr, .thm, .prf, .sec, .core, .irq, .events, .mgt, .cal, .chs, .gal, .cmp, .col, .ddl, .gst, .prs, .fin, .case, .oe, .lnk, .lsu, .mem] ⊆ as)
    (hq : [.mem, .presses, .active, .loaded, .pendingBytes, .jobs, .lateXfers, .heldAccs, .drains, .dirtyOut, .dirtyShared, .mirrorGot, .bases, .log, .calJobs, .calRuns, .calFails, .ringErr, .mislocks, .swaps, .spareNeeds, .arrivals, .barDone, .barSent, .tokens, .links, .repairMap, .ceLog, .samples, .idleDebt, .droops, .image, .snaps, .badWords, .relays, .early, .mgtJobs, .moe, .cache, .fades, .dropped] ⊆ ps)
    (h : Moves as ps s0 s) : Moves as ps s0 (State.bootFail s cause) := by
  unfold State.bootFail
  repeat' first
    | with_reducible assumption
    | with_reducible apply Moves.refl
    | with_reducible apply State.holdMain_moves
    | with_reducible apply Moves.wr
    | with_reducible apply Moves.ite
    | (with_reducible apply Moves.inSub ha; decide)
    | (with_reducible apply Moves.inSub hq; decide)
    | with_reducible apply Moves.foldl
    | with_reducible intro _
    | (with_reducible apply List.Subset.trans ?_ ha; decide)
    | (with_reducible apply List.Subset.trans ?_ hq; decide)
    | split
    | dsimp only

theorem State.bootImage_moves (s : State)
    (ha : [.module, .tick, .imp, .forme, .fab, .pair, .pwr, .thm, .prf, .sec, .core, .irq, .events, .mgt, .cal, .chs, .gal, .cmp, .col, .ddl, .gst, .prs, .fin, .case, .oe, .lnk, .lsu, .mem] ⊆ as)
    (hq : [.mem, .presses, .active, .loaded, .pendingBytes, .jobs, .lateXfers, .heldAccs, .drains, .dirtyOut, .dirtyShared, .mirrorGot, .bases, .log, .calJobs, .calRuns, .calFails, .ringErr, .mislocks, .swaps, .spareNeeds, .arrivals, .barDone, .barSent, .tokens, .links, .repairMap, .ceLog, .samples, .idleDebt, .droops, .image, .snaps, .badWords, .relays, .early, .mgtJobs, .moe, .cache, .fades, .dropped] ⊆ ps)
    (h : Moves as ps s0 s) : Moves as ps s0 (State.bootImage s) := by
  unfold State.bootImage
  repeat' first
    | with_reducible assumption
    | with_reducible apply Moves.refl
    | with_reducible apply State.bootFail_moves
    | with_reducible apply Moves.wr
    | with_reducible apply Moves.ite
    | (with_reducible apply Moves.inSub ha; decide)
    | (with_reducible apply Moves.inSub hq; decide)
    | with_reducible apply Moves.foldl
    | with_reducible intro _
    | (with_reducible apply List.Subset.trans ?_ ha; decide)
    | (with_reducible apply List.Subset.trans ?_ hq; decide)
    | split
    | dsimp only
    | with_reducible apply Moves.set_image

theorem State.driveLine_moves (s : State)
    (ha : [.pair, .sec] ⊆ as)
    (h : Moves as ps s0 s) : Moves as ps s0 (State.driveLine s) := by
  unfold State.driveLine
  repeat' first
    | with_reducible assumption
    | with_reducible apply Moves.refl
    | with_reducible apply Moves.wr
    | with_reducible apply Moves.ite
    | (with_reducible apply Moves.inSub ha; decide)
    | with_reducible apply Moves.foldl
    | with_reducible intro _
    | (with_reducible apply List.Subset.trans ?_ ha; decide)
    | split
    | dsimp only

theorem State.noteCause_moves (s : State) (b : Nat) (joins : Bool)
    (ha : [.sec] ⊆ as)
    (h : Moves as ps s0 s) : Moves as ps s0 (State.noteCause s b joins) := by
  unfold State.noteCause
  repeat' first
    | with_reducible assumption
    | with_reducible apply Moves.refl
    | with_reducible apply Moves.wr
    | with_reducible apply Moves.orBit
    | with_reducible apply Moves.ite
    | (with_reducible apply Moves.inSub ha; decide)
    | with_reducible apply Moves.foldl
    | with_reducible intro _
    | (with_reducible apply List.Subset.trans ?_ ha; decide)
    | split
    | dsimp only

theorem State.endYield_moves (s : State)
    (ha : [.pair, .sec, .events] ⊆ as)
    (h : Moves as ps s0 s) : Moves as ps s0 (State.endYield s) := by
  unfold State.endYield
  repeat' first
    | with_reducible assumption
    | with_reducible apply Moves.refl
    | with_reducible apply State.alert_moves
    | with_reducible apply State.releaseLine_moves
    | with_reducible apply State.setRole_moves
    | with_reducible apply Moves.ite
    | (with_reducible apply Moves.inSub ha; decide)
    | with_reducible apply Moves.foldl
    | with_reducible intro _
    | (with_reducible apply List.Subset.trans ?_ ha; decide)
    | split
    | dsimp only

theorem State.powerYield_moves (s : State) (b : Nat)
    (ha : [.forme, .pair, .sec, .events, .cal, .cmp, .col, .prs, .oe, .lnk, .lsu] ⊆ as)
    (hq : [.presses, .jobs, .lateXfers, .drains, .calJobs, .swaps, .spareNeeds, .links, .relays, .freeCount] ⊆ ps)
    (h : Moves as ps s0 s) : Moves as ps s0 (State.powerYield s b) := by
  unfold State.powerYield
  repeat' first
    | with_reducible assumption
    | with_reducible apply Moves.refl
    | with_reducible apply State.endYield_moves
    | with_reducible apply State.yieldWith_moves
    | with_reducible apply Moves.free
    | with_reducible apply Moves.ite
    | (with_reducible apply Moves.inSub ha; decide)
    | (with_reducible apply Moves.inSub hq; decide)
    | with_reducible apply Moves.ite_snd
    | with_reducible apply Moves.foldl
    | with_reducible intro _
    | (with_reducible apply List.Subset.trans ?_ ha; decide)
    | (with_reducible apply List.Subset.trans ?_ hq; decide)
    | split
    | dsimp only

theorem State.powerOff_moves (s : State) (b : Nat) (t : Nat)
    (ha : [.imp, .forme, .fab, .pair, .pwr, .sec, .core, .events, .cal, .gal, .cmp, .col, .ddl, .gst, .prs, .oe, .lnk, .lsu] ⊆ as)
    (hq : [.presses, .jobs, .lateXfers, .drains, .mgtLast, .calJobs, .swaps, .spareNeeds, .links, .relays, .mgtJobs, .out, .freeCount] ⊆ ps)
    (h : Moves as ps s0 s) : Moves as ps s0 (State.powerOff s b t) := by
  unfold State.powerOff
  repeat' first
    | with_reducible assumption
    | with_reducible apply Moves.refl
    | with_reducible apply State.noteCause_moves
    | with_reducible apply State.setSec_moves
    | with_reducible apply State.shutdown_moves
    | with_reducible apply State.releaseLine_moves
    | with_reducible apply State.powerYield_moves
    | with_reducible apply Moves.wr
    | with_reducible apply Moves.ite
    | (with_reducible apply Moves.inSub ha; decide)
    | (with_reducible apply Moves.inSub hq; decide)
    | with_reducible apply Moves.foldl
    | with_reducible intro _
    | (with_reducible apply List.Subset.trans ?_ ha; decide)
    | (with_reducible apply List.Subset.trans ?_ hq; decide)
    | split
    | dsimp only

theorem State.endPowerOff_moves (s : State)
    (ha : [.module, .tick, .imp, .forme, .fab, .pair, .pwr, .thm, .prf, .sec, .core, .irq, .events, .mgt, .cal, .chs, .gal, .cmp, .col, .ddl, .gst, .prs, .fin, .case, .oe, .lnk, .lsu, .mem] ⊆ as)
    (hq : [.mem, .presses, .active, .loaded, .pendingBytes, .jobs, .lateXfers, .heldAccs, .drains, .dirtyOut, .dirtyShared, .mirrorGot, .bases, .log, .calJobs, .calRuns, .calFails, .ringErr, .mislocks, .swaps, .spareNeeds, .arrivals, .barDone, .barSent, .tokens, .links, .repairMap, .ceLog, .samples, .idleDebt, .droops, .image, .snaps, .badWords, .relays, .early, .mgtJobs, .moe, .cache, .fades, .dropped] ⊆ ps)
    (h : Moves as ps s0 s) : Moves as ps s0 (State.endPowerOff s) := by
  unfold State.endPowerOff
  repeat' first
    | with_reducible assumption
    | with_reducible apply Moves.refl
    | with_reducible apply State.resetMain_moves
    | with_reducible apply State.setSec_moves
    | with_reducible apply Moves.wrAll
    | with_reducible apply areas_cons
    | with_reducible apply areas_nil
    | with_reducible apply Moves.ite
    | (with_reducible apply Moves.inSub ha; decide)
    | (with_reducible apply Moves.inSub hq; decide)
    | with_reducible apply Moves.foldl
    | with_reducible intro _
    | (with_reducible apply List.Subset.trans ?_ ha; decide)
    | (with_reducible apply List.Subset.trans ?_ hq; decide)
    | split
    | dsimp only

theorem State.fatal_moves (s : State) (phase : Nat) (kind : Nat) (unit : Nat) (cause : Nat)
    (ha : [.module, .tick, .imp, .forme, .fab, .pair, .pwr, .thm, .prf, .sec, .core, .irq, .events, .mgt, .cal, .chs, .gal, .cmp, .col, .ddl, .gst, .prs, .fin, .case, .oe, .lnk, .lsu, .mem] ⊆ as)
    (hq : [.mem, .presses, .active, .loaded, .pendingBytes, .jobs, .lateXfers, .heldAccs, .drains, .dirtyOut, .dirtyShared, .mirrorGot, .bases, .log, .calJobs, .calRuns, .calFails, .ringErr, .mislocks, .swaps, .spareNeeds, .arrivals, .barDone, .barSent, .tokens, .links, .repairMap, .ceLog, .samples, .idleDebt, .droops, .flashQ, .image, .snaps, .badWords, .relays, .early, .mgtJobs, .moe, .cache, .fades, .dropped] ⊆ ps)
    (h : Moves as ps s0 s) : Moves as ps s0 (State.fatal s phase kind unit cause) := by
  unfold State.fatal
  repeat' first
    | with_reducible assumption
    | with_reducible apply Moves.refl
    | with_reducible apply State.holdMain_moves
    | with_reducible apply State.queueFlash_moves
    | with_reducible apply Moves.wrAll
    | with_reducible apply areas_cons
    | with_reducible apply areas_nil
    | with_reducible apply Moves.ite
    | (with_reducible apply Moves.inSub ha; decide)
    | (with_reducible apply Moves.inSub hq; decide)
    | with_reducible apply Moves.foldl
    | with_reducible intro _
    | (with_reducible apply List.Subset.trans ?_ ha; decide)
    | (with_reducible apply List.Subset.trans ?_ hq; decide)
    | split
    | dsimp only

end Sys2Proof.Machine
end

