-- ==== Sys2Proof/Laws/MovesProof.lean ====
section
/-!
SUPPORT. Footprints of the operations of Machine/Proof.lean.
-/

namespace Sys2Proof.Machine

variable {as : List Area} {ps : List Part} {s0 : State}

theorem State.loadCapabilities_moves (s : State)
    (ha : [.module, .chs, .prs, .oe] ⊆ as)
    (h : Moves as ps s0 s) : Moves as ps s0 (State.loadCapabilities s) := by
  unfold State.loadCapabilities
  repeat' first
    | with_reducible assumption
    | with_reducible apply Moves.refl
    | with_reducible apply Moves.wrAll
    | with_reducible apply areas_cons
    | with_reducible apply areas_nil
    | with_reducible apply Moves.ite
    | (with_reducible apply Moves.inSub ha; decide)
    | with_reducible apply Moves.each
    | with_reducible apply Moves.foldl
    | with_reducible intro _
    | (with_reducible apply List.Subset.trans ?_ ha; decide)
    | split
    | dsimp only

theorem State.drivePins_moves (s : State) (code : Nat)
    (ha : [.prf] ⊆ as)
    (h : Moves as ps s0 s) : Moves as ps s0 (State.drivePins s code) := by
  unfold State.drivePins
  repeat' first
    | with_reducible assumption
    | with_reducible apply Moves.refl
    | with_reducible apply Moves.wr
    | with_reducible apply Moves.ite
    | (with_reducible apply Moves.inSub ha; decide)
    | with_reducible apply Moves.foldl
    | with_reducible intro _
    | (with_reducible apply List.Subset.trans ?_ ha; decide)
    | split
    | dsimp only

theorem State.applyEntry_moves (s : State) (e : MapEntry)
    (ha : [.core, .prs, .oe, .lnk, .lsu] ⊆ as)
    (hq : [.presses, .links, .freeCount] ⊆ ps)
    (h : Moves as ps s0 s) : Moves as ps s0 (State.applyEntry s e) := by
  unfold State.applyEntry
  repeat' first
    | with_reducible assumption
    | with_reducible apply Moves.refl
    | with_reducible apply State.failPress_moves
    | with_reducible apply State.setLane_moves
    | with_reducible apply State.retireFibreLane_moves
    | with_reducible apply State.putSpare_moves
    | with_reducible apply State.light_moves
    | with_reducible apply Moves.wr
    | with_reducible apply Moves.orBit
    | with_reducible apply Moves.ite
    | (with_reducible apply Moves.inSub ha; decide)
    | (with_reducible apply Moves.inSub hq; decide)
    | with_reducible apply Moves.foldl
    | with_reducible intro _
    | (with_reducible apply List.Subset.trans ?_ ha; decide)
    | (with_reducible apply List.Subset.trans ?_ hq; decide)
    | split
    | dsimp only

theorem State.coverEntry_moves (s : State) (e : MapEntry)
    (hq : [.links] ⊆ ps)
    (h : Moves as ps s0 s) : Moves as ps s0 (State.coverEntry s e) := by
  unfold State.coverEntry
  repeat' first
    | with_reducible assumption
    | with_reducible apply Moves.refl
    | with_reducible apply State.setLink_moves
    | with_reducible apply Moves.ite
    | (with_reducible apply Moves.inSub hq; decide)
    | with_reducible apply Moves.foldl
    | with_reducible intro _
    | (with_reducible apply List.Subset.trans ?_ hq; decide)
    | split
    | dsimp only

theorem State.failGroup_moves (s : State) (f : Sys2Proof.Finding)
    (hq : [.links] ⊆ ps)
    (h : Moves as ps s0 s) : Moves as ps s0 (State.failGroup s f) := by
  unfold State.failGroup
  repeat' first
    | with_reducible assumption
    | with_reducible apply Moves.refl
    | with_reducible apply State.setLink_moves
    | with_reducible apply Moves.ite
    | (with_reducible apply Moves.inSub hq; decide)
    | with_reducible apply Moves.foldl
    | with_reducible intro _
    | (with_reducible apply List.Subset.trans ?_ hq; decide)
    | split
    | dsimp only

theorem State.caseSpares_moves (s : State)
    (ha : [.prf, .prs] ⊆ as)
    (hq : [.presses, .repairMap, .freeCount] ⊆ ps)
    (h : Moves as ps s0 s) : Moves as ps s0 (State.caseSpares s) := by
  unfold State.caseSpares
  repeat' first
    | with_reducible assumption
    | with_reducible apply Moves.refl
    | with_reducible apply State.addEntry_moves
    | with_reducible apply State.failPress_moves
    | with_reducible apply Moves.ite
    | (with_reducible apply Moves.inSub ha; decide)
    | (with_reducible apply Moves.inSub hq; decide)
    | with_reducible apply Moves.each
    | with_reducible apply Moves.foldl
    | with_reducible intro _
    | (with_reducible apply List.Subset.trans ?_ ha; decide)
    | (with_reducible apply List.Subset.trans ?_ hq; decide)
    | split
    | dsimp only

theorem State.engineLinks_moves (s : State)
    (ha : [.prf, .oe] ⊆ as)
    (hq : [.repairMap] ⊆ ps)
    (h : Moves as ps s0 s) : Moves as ps s0 (State.engineLinks s) := by
  unfold State.engineLinks
  repeat' first
    | with_reducible assumption
    | with_reducible apply Moves.refl
    | with_reducible apply State.addEntry_moves
    | with_reducible apply Moves.wr
    | with_reducible apply Moves.ite
    | (with_reducible apply Moves.inSub ha; decide)
    | (with_reducible apply Moves.inSub hq; decide)
    | with_reducible apply Moves.each
    | with_reducible apply Moves.foldl
    | with_reducible intro _
    | (with_reducible apply List.Subset.trans ?_ ha; decide)
    | (with_reducible apply List.Subset.trans ?_ hq; decide)
    | split
    | dsimp only

theorem State.findings_moves (s : State) (tested : MapEntry → Bool) (fs : List Sys2Proof.Finding)
    (ha : [.prf, .core, .prs, .oe, .lnk, .lsu] ⊆ as)
    (hq : [.presses, .links, .repairMap, .freeCount] ⊆ ps)
    (h : Moves as ps s0 s) : Moves as ps s0 (State.findings s tested fs) := by
  unfold State.findings
  repeat' first
    | with_reducible assumption
    | with_reducible apply Moves.refl
    | with_reducible apply State.applyEntry_moves
    | with_reducible apply State.coverEntry_moves
    | with_reducible apply State.failGroup_moves
    | with_reducible apply State.caseSpares_moves
    | with_reducible apply State.engineLinks_moves
    | with_reducible apply State.failPress_moves
    | with_reducible apply State.mapFields_moves
    | with_reducible apply Moves.bump
    | with_reducible apply Moves.ite
    | (with_reducible apply Moves.inSub ha; decide)
    | (with_reducible apply Moves.inSub hq; decide)
    | with_reducible apply Moves.each
    | with_reducible apply Moves.foldl
    | with_reducible intro _
    | (with_reducible apply List.Subset.trans ?_ ha; decide)
    | (with_reducible apply List.Subset.trans ?_ hq; decide)
    | split
    | dsimp only
    | with_reducible apply Moves.set_repairMap

theorem State.endPhase_moves (s : State) (tested : MapEntry → Bool) (fs : List Sys2Proof.Finding) (go : State → State)
    (ha : [.module, .tick, .imp, .forme, .fab, .pair, .pwr, .thm, .prf, .sec, .core, .irq, .events, .mgt, .cal, .chs, .gal, .cmp, .col, .ddl, .gst, .prs, .fin, .case, .oe, .lnk, .lsu, .mem] ⊆ as)
    (hq : [.mem, .presses, .active, .loaded, .pendingBytes, .jobs, .lateXfers, .heldAccs, .drains, .dirtyOut, .dirtyShared, .mirrorGot, .bases, .log, .calJobs, .calRuns, .calFails, .ringErr, .mislocks, .swaps, .spareNeeds, .arrivals, .barDone, .barSent, .tokens, .links, .repairMap, .ceLog, .samples, .idleDebt, .droops, .flashQ, .image, .snaps, .badWords, .relays, .early, .mgtJobs, .moe, .cache, .fades, .dropped, .freeCount] ⊆ ps)
    (hr : ∀ x0, Moves as ps s0 x0 → Moves as ps s0 (go x0))
    (h : Moves as ps s0 s) : Moves as ps s0 (State.endPhase s tested fs go) := by
  unfold State.endPhase
  repeat' first
    | with_reducible assumption
    | with_reducible apply Moves.refl
    | with_reducible apply State.findings_moves
    | with_reducible apply State.fatal_moves
    | with_reducible apply Moves.ite
    | (with_reducible apply Moves.inSub ha; decide)
    | (with_reducible apply Moves.inSub hq; decide)
    | with_reducible apply Moves.foldl
    | with_reducible apply hr
    | with_reducible intro _
    | (with_reducible apply List.Subset.trans ?_ ha; decide)
    | (with_reducible apply List.Subset.trans ?_ hq; decide)
    | split
    | dsimp only

theorem State.startRun_moves (s : State) (i : Nat) (failed : Bool) (cached : Bool) (fresh : State → State)
    (ha : [.cal] ⊆ as)
    (hq : [.freeCount] ⊆ ps)
    (hr : ∀ x0, Moves as ps s0 x0 → Moves as ps s0 (fresh x0))
    (h : Moves as ps s0 s) : Moves as ps s0 (State.startRun s i failed cached fresh) := by
  unfold State.startRun
  repeat' first
    | with_reducible assumption
    | with_reducible apply Moves.refl
    | with_reducible apply State.calStart_moves
    | with_reducible apply State.calEnd_moves
    | with_reducible apply Moves.free
    | with_reducible apply Moves.ite
    | (with_reducible apply Moves.inSub ha; decide)
    | (with_reducible apply Moves.inSub hq; decide)
    | with_reducible apply Moves.ite_snd
    | with_reducible apply Moves.foldl
    | with_reducible apply hr
    | with_reducible intro _
    | (with_reducible apply List.Subset.trans ?_ ha; decide)
    | (with_reducible apply List.Subset.trans ?_ hq; decide)
    | split
    | dsimp only

theorem State.pressesProven_moves (s : State)
    (ha : [.prs] ⊆ as)
    (hq : [.presses, .freeCount] ⊆ ps)
    (h : Moves as ps s0 s) : Moves as ps s0 (State.pressesProven s) := by
  unfold State.pressesProven
  repeat' first
    | with_reducible assumption
    | with_reducible apply Moves.refl
    | with_reducible apply State.setPState_moves
    | with_reducible apply State.setDepth_moves
    | with_reducible apply Moves.ite
    | (with_reducible apply Moves.inSub ha; decide)
    | (with_reducible apply Moves.inSub hq; decide)
    | with_reducible apply Moves.each
    | with_reducible apply Moves.foldl
    | with_reducible intro _
    | (with_reducible apply List.Subset.trans ?_ ha; decide)
    | (with_reducible apply List.Subset.trans ?_ hq; decide)
    | split
    | dsimp only

theorem State.loadWeights_moves (s : State)
    (ha : [.pwr] ⊆ as)
    (h : Moves as ps s0 s) : Moves as ps s0 (State.loadWeights s) := by
  unfold State.loadWeights
  repeat' first
    | with_reducible assumption
    | with_reducible apply Moves.refl
    | with_reducible apply Moves.wr
    | with_reducible apply Moves.ite
    | (with_reducible apply Moves.inSub ha; decide)
    | with_reducible apply Moves.each
    | with_reducible apply Moves.foldl
    | with_reducible intro _
    | (with_reducible apply List.Subset.trans ?_ ha; decide)
    | split
    | dsimp only

theorem execTapIdcode_moves (s : State)
    (ha : [.prf] ⊆ as)
    (hq : [.out] ⊆ ps)
    (h : Moves as ps s0 s) : ResMoves as ps s0 (execTapIdcode s) := by
  unfold execTapIdcode
  repeat' first
    | with_reducible assumption
    | with_reducible apply Moves.refl
    | with_reducible apply State.send_moves
    | with_reducible apply Moves.wr
    | with_reducible apply Moves.ite
    | with_reducible apply ResMoves.next
    | with_reducible apply ResMoves.fault
    | with_reducible apply ResMoves.refused
    | with_reducible apply ResMoves.ite
    | (with_reducible apply Moves.inSub ha; decide)
    | (with_reducible apply Moves.inSub hq; decide)
    | with_reducible apply Moves.foldl
    | with_reducible intro _
    | (with_reducible apply List.Subset.trans ?_ ha; decide)
    | (with_reducible apply List.Subset.trans ?_ hq; decide)
    | split
    | dsimp only

theorem State.writeChanged_moves (s : State) (old : List MapEntry)
    (ha : [.prf] ⊆ as)
    (hq : [.repairMap, .flashQ] ⊆ ps)
    (h : Moves as ps s0 s) : Moves as ps s0 (State.writeChanged s old) := by
  unfold State.writeChanged
  repeat' first
    | with_reducible assumption
    | with_reducible apply Moves.refl
    | with_reducible apply State.queueFlash_moves
    | with_reducible apply Moves.ite
    | (with_reducible apply Moves.inSub ha; decide)
    | (with_reducible apply Moves.inSub hq; decide)
    | with_reducible apply Moves.foldl
    | with_reducible intro _
    | (with_reducible apply List.Subset.trans ?_ ha; decide)
    | (with_reducible apply List.Subset.trans ?_ hq; decide)
    | split
    | dsimp only

theorem execTapClamp_moves (s : State)
    (ha : [.prf] ⊆ as)
    (h : Moves as ps s0 s) : ResMoves as ps s0 (execTapClamp s) := by
  unfold execTapClamp
  repeat' first
    | with_reducible assumption
    | with_reducible apply Moves.refl
    | with_reducible apply State.drivePins_moves
    | with_reducible apply Moves.ite
    | with_reducible apply ResMoves.next
    | with_reducible apply ResMoves.fault
    | with_reducible apply ResMoves.refused
    | with_reducible apply ResMoves.ite
    | (with_reducible apply Moves.inSub ha; decide)
    | with_reducible apply Moves.foldl
    | with_reducible intro _
    | (with_reducible apply List.Subset.trans ?_ ha; decide)
    | split
    | dsimp only

theorem State.countRound_moves (s : State) (p : Nat) (before : Bool)
    (ha : [.prf] ⊆ as)
    (h : Moves as ps s0 s) : Moves as ps s0 (State.countRound s p before) := by
  unfold State.countRound
  repeat' first
    | with_reducible assumption
    | with_reducible apply Moves.refl
    | with_reducible apply Moves.bump
    | with_reducible apply Moves.ite
    | (with_reducible apply Moves.inSub ha; decide)
    | with_reducible apply Moves.foldl
    | with_reducible intro _
    | (with_reducible apply List.Subset.trans ?_ ha; decide)
    | split
    | dsimp only

theorem execStripSliceDone_moves (p : Nat) (strip : Nat) (ok : Bool) (t : Nat) (s : State)
    (ha : [.tick, .imp, .forme, .pair, .prf, .irq, .events, .cmp, .col, .prs] ⊆ as)
    (hq : [.presses, .jobs, .lateXfers, .drains, .links, .relays, .freeCount] ⊆ ps)
    (h : Moves as ps s0 s) : ResMoves as ps s0 (execStripSliceDone p strip ok t s) := by
  unfold execStripSliceDone
  repeat' first
    | with_reducible assumption
    | with_reducible apply Moves.refl
    | with_reducible apply State.stamp_moves
    | with_reducible apply State.countRound_moves
    | with_reducible apply State.tryMirror_moves
    | with_reducible apply State.irqDeliver_moves
    | with_reducible apply State.abandonPress_moves
    | with_reducible apply Moves.wr
    | with_reducible apply Moves.bump
    | with_reducible apply Moves.orBit
    | with_reducible apply Moves.ite
    | with_reducible apply ResMoves.next
    | with_reducible apply ResMoves.fault
    | with_reducible apply ResMoves.refused
    | with_reducible apply ResMoves.ite
    | (with_reducible apply Moves.inSub ha; decide)
    | (with_reducible apply Moves.inSub hq; decide)
    | with_reducible apply Moves.foldl
    | with_reducible intro _
    | (with_reducible apply List.Subset.trans ?_ ha; decide)
    | (with_reducible apply List.Subset.trans ?_ hq; decide)
    | split
    | dsimp only

theorem State.freshCode_moves (s : State) (f : Field) (k : Nat) (n : Nat)
    (hq : [.freeCount] ⊆ ps)
    (hf : f.area ∈ as)
    (h : Moves as ps s0 s) : Moves as ps s0 (State.freshCode s f k n) := by
  unfold State.freshCode
  repeat' first
    | with_reducible assumption
    | with_reducible apply Moves.refl
    | with_reducible apply Moves.wr
    | with_reducible apply Moves.free
    | with_reducible apply Moves.ite
    | (with_reducible apply Moves.inSub hq; decide)
    | with_reducible apply Moves.ite_snd
    | with_reducible apply Moves.foldl
    | with_reducible intro _
    | (with_reducible apply List.Subset.trans ?_ hq; decide)
    | split
    | dsimp only

theorem State.freshSlot_moves (s : State) (k : Nat) (n : Nat)
    (ha : [.oe] ⊆ as)
    (hq : [.freeCount] ⊆ ps)
    (h : Moves as ps s0 s) : Moves as ps s0 (State.freshSlot s k n) := by
  unfold State.freshSlot
  repeat' first
    | with_reducible assumption
    | with_reducible apply Moves.refl
    | with_reducible apply Moves.wr
    | with_reducible apply Moves.free
    | with_reducible apply Moves.ite
    | (with_reducible apply Moves.inSub ha; decide)
    | (with_reducible apply Moves.inSub hq; decide)
    | with_reducible apply Moves.ite_snd
    | with_reducible apply Moves.foldl
    | with_reducible intro _
    | (with_reducible apply List.Subset.trans ?_ ha; decide)
    | (with_reducible apply List.Subset.trans ?_ hq; decide)
    | split
    | dsimp only

theorem State.engineCals_moves (s : State) (ks : List Nat)
    (ha : [.cal, .oe] ⊆ as)
    (hq : [.freeCount] ⊆ ps)
    (h : Moves as ps s0 s) : Moves as ps s0 (State.engineCals s ks) := by
  unfold State.engineCals
  repeat' first
    | with_reducible assumption
    | with_reducible apply Moves.refl
    | with_reducible apply State.startRun_moves
    | with_reducible apply State.freshCode_moves
    | with_reducible apply State.freshSlot_moves
    | with_reducible apply Moves.wr
    | with_reducible apply Moves.ite
    | (with_reducible apply Moves.inSub ha; decide)
    | (with_reducible apply Moves.inSub hq; decide)
    | with_reducible apply Moves.each
    | with_reducible apply Moves.foldl
    | with_reducible intro _
    | (with_reducible apply List.Subset.trans ?_ ha; decide)
    | (with_reducible apply List.Subset.trans ?_ hq; decide)
    | split
    | dsimp only

theorem State.startCals_moves (s : State)
    (ha : [.cal, .oe] ⊆ as)
    (hq : [.freeCount] ⊆ ps)
    (h : Moves as ps s0 s) : Moves as ps s0 (State.startCals s) := by
  unfold State.startCals
  repeat' first
    | with_reducible assumption
    | with_reducible apply Moves.refl
    | with_reducible apply State.engineCals_moves
    | with_reducible apply State.startRun_moves
    | with_reducible apply Moves.ite
    | (with_reducible apply Moves.inSub ha; decide)
    | (with_reducible apply Moves.inSub hq; decide)
    | with_reducible apply Moves.each
    | with_reducible apply Moves.foldl
    | with_reducible intro _
    | (with_reducible apply List.Subset.trans ?_ ha; decide)
    | (with_reducible apply List.Subset.trans ?_ hq; decide)
    | split
    | dsimp only
    | simp only [id_eq]

theorem State.proofPassed_moves (s : State) (fs : List Sys2Proof.Finding)
    (ha : [.prf, .cal, .prs, .oe, .lnk, .lsu, .mem] ⊆ as)
    (hq : [.presses, .calJobs, .calRuns, .swaps, .spareNeeds, .links, .repairMap, .flashQ, .freeCount] ⊆ ps)
    (h : Moves as ps s0 s) : Moves as ps s0 (State.proofPassed s fs) := by
  unfold State.proofPassed
  repeat' first
    | with_reducible assumption
    | with_reducible apply Moves.refl
    | with_reducible apply State.pressesProven_moves
    | with_reducible apply State.covers_moves
    | with_reducible apply State.setBolt_moves
    | with_reducible apply State.setUnit_moves
    | with_reducible apply State.darkUnit_moves
    | with_reducible apply State.unitProved_moves
    | with_reducible apply State.writeChanged_moves
    | with_reducible apply State.startCals_moves
    | with_reducible apply Moves.wr
    | with_reducible apply Moves.ite
    | (with_reducible apply Moves.inSub ha; decide)
    | (with_reducible apply Moves.inSub hq; decide)
    | with_reducible apply Moves.each
    | with_reducible apply Moves.foldl
    | with_reducible intro _
    | (with_reducible apply List.Subset.trans ?_ ha; decide)
    | (with_reducible apply List.Subset.trans ?_ hq; decide)
    | split
    | dsimp only

theorem State.loadCodes_moves (s : State)
    (ha : [.oe] ⊆ as)
    (h : Moves as ps s0 s) : Moves as ps s0 (State.loadCodes s) := by
  unfold State.loadCodes
  refine Moves.each _ _ (fun x e hx => Moves.ite (fun hc => Moves.wr _ _ _ _ ?_ hx) (fun _ => hx)) h
  exact ha ((by decide : ∀ g ∈ codeFields, g.area ∈ [Area.oe]) _ (List.contains_iff_mem.mp hc))

theorem execTapBypass_moves (s : State)
    (ha : [.prf] ⊆ as)
    (h : Moves as ps s0 s) : ResMoves as ps s0 (execTapBypass s) := by
  unfold execTapBypass
  repeat' first
    | with_reducible assumption
    | with_reducible apply Moves.refl
    | with_reducible apply Moves.wr
    | with_reducible apply Moves.ite
    | with_reducible apply ResMoves.next
    | with_reducible apply ResMoves.fault
    | with_reducible apply ResMoves.refused
    | with_reducible apply ResMoves.ite
    | (with_reducible apply Moves.inSub ha; decide)
    | with_reducible apply Moves.foldl
    | with_reducible intro _
    | (with_reducible apply List.Subset.trans ?_ ha; decide)
    | split
    | dsimp only

theorem State.phaseOne_moves (s : State)
    (ha : [.pwr, .prf, .sec, .oe] ⊆ as)
    (hq : [.repairMap] ⊆ ps)
    (h : Moves as ps s0 s) : Moves as ps s0 (State.phaseOne s) := by
  unfold State.phaseOne
  repeat' first
    | with_reducible assumption
    | with_reducible apply Moves.refl
    | with_reducible apply State.mapFields_moves
    | with_reducible apply State.loadCodes_moves
    | with_reducible apply State.loadWeights_moves
    | with_reducible apply Moves.wrAll
    | with_reducible apply areas_cons
    | with_reducible apply areas_nil
    | with_reducible apply Moves.ite
    | (with_reducible apply Moves.inSub ha; decide)
    | (with_reducible apply Moves.inSub hq; decide)
    | with_reducible apply Moves.foldl
    | with_reducible intro _
    | (with_reducible apply List.Subset.trans ?_ ha; decide)
    | (with_reducible apply List.Subset.trans ?_ hq; decide)
    | split
    | dsimp only
    | with_reducible apply Moves.set_repairMap

theorem State.phaseThree_moves (s : State) (t : Nat)
    (ha : [.pwr, .prf, .core, .events, .cal, .ddl, .prs, .oe, .lnk, .lsu, .mem] ⊆ as)
    (hq : [.presses, .calJobs, .swaps, .links, .freeCount] ⊆ ps)
    (h : Moves as ps s0 s) : Moves as ps s0 (State.phaseThree s t) := by
  unfold State.phaseThree
  repeat' first
    | with_reducible assumption
    | with_reducible apply Moves.refl
    | with_reducible apply State.applyEntry_moves
    | with_reducible apply State.coverEntry_moves
    | with_reducible apply State.setPState_moves
    | with_reducible apply State.toAlign_moves
    | with_reducible apply State.proveUnit_moves
    | with_reducible apply Moves.wr
    | with_reducible apply Moves.ite
    | (with_reducible apply Moves.inSub ha; decide)
    | (with_reducible apply Moves.inSub hq; decide)
    | with_reducible apply Moves.each
    | with_reducible apply Moves.foldl
    | with_reducible intro _
    | (with_reducible apply List.Subset.trans ?_ ha; decide)
    | (with_reducible apply List.Subset.trans ?_ hq; decide)
    | split
    | dsimp only

theorem execProofPhaseComplete_moves (fs : List Sys2Proof.Finding) (t : Nat) (s : State)
    (ha : [.module, .tick, .imp, .forme, .fab, .pair, .pwr, .thm, .prf, .sec, .core, .irq, .events, .mgt, .cal, .chs, .gal, .cmp, .col, .ddl, .gst, .prs, .fin, .case, .oe, .lnk, .lsu, .mem] ⊆ as)
    (hq : [.mem, .presses, .active, .loaded, .pendingBytes, .jobs, .lateXfers, .heldAccs, .drains, .dirtyOut, .dirtyShared, .mirrorGot, .bases, .log, .calJobs, .calRuns, .calFails, .ringErr, .mislocks, .swaps, .spareNeeds, .arrivals, .barDone, .barSent, .tokens, .links, .repairMap, .ceLog, .samples, .idleDebt, .droops, .flashQ, .image, .snaps, .badWords, .relays, .early, .mgtJobs, .moe, .cache, .fades, .dropped, .freeCount] ⊆ ps)
    (h : Moves as ps s0 s) : ResMoves as ps s0 (execProofPhaseComplete fs t s) := by
  unfold execProofPhaseComplete
  repeat' first
    | with_reducible assumption
    | with_reducible apply Moves.refl
    | with_reducible apply State.stamp_moves
    | with_reducible apply State.phaseOne_moves
    | with_reducible apply State.irqDeliver_moves
    | with_reducible apply State.endPhase_moves
    | with_reducible apply State.phaseThree_moves
    | with_reducible apply State.loadCapabilities_moves
    | with_reducible apply State.proofPassed_moves
    | with_reducible apply Moves.ite
    | with_reducible apply ResMoves.next
    | with_reducible apply ResMoves.fault
    | with_reducible apply ResMoves.refused
    | with_reducible apply ResMoves.ite
    | (with_reducible apply Moves.inSub ha; decide)
    | (with_reducible apply Moves.inSub hq; decide)
    | with_reducible apply Moves.foldl
    | with_reducible intro _
    | (with_reducible apply List.Subset.trans ?_ ha; decide)
    | (with_reducible apply List.Subset.trans ?_ hq; decide)
    | split
    | dsimp only

theorem execCoreSlice_moves (n : Nat) (t : Nat) (s : State)
    (ha : [.tick] ⊆ as)
    (h : Moves as ps s0 s) : ResMoves as ps s0 (execCoreSlice n t s) := by
  unfold execCoreSlice
  repeat' first
    | with_reducible assumption
    | with_reducible apply Moves.refl
    | with_reducible apply State.stamp_moves
    | with_reducible apply Moves.ite
    | with_reducible apply ResMoves.next
    | with_reducible apply ResMoves.fault
    | with_reducible apply ResMoves.refused
    | with_reducible apply ResMoves.ite
    | (with_reducible apply Moves.inSub ha; decide)
    | with_reducible apply Moves.foldl
    | with_reducible intro _
    | (with_reducible apply List.Subset.trans ?_ ha; decide)
    | split
    | dsimp only

theorem execLoopback_moves (q : Nat) (t : Nat) (s : State)
    (ha : [.tick, .prf] ⊆ as)
    (h : Moves as ps s0 s) : ResMoves as ps s0 (execLoopback q t s) := by
  unfold execLoopback
  repeat' first
    | with_reducible assumption
    | with_reducible apply Moves.refl
    | with_reducible apply State.stamp_moves
    | with_reducible apply Moves.wr
    | with_reducible apply Moves.ite
    | with_reducible apply ResMoves.next
    | with_reducible apply ResMoves.fault
    | with_reducible apply ResMoves.refused
    | with_reducible apply ResMoves.ite
    | (with_reducible apply Moves.inSub ha; decide)
    | with_reducible apply Moves.foldl
    | with_reducible intro _
    | (with_reducible apply List.Subset.trans ?_ ha; decide)
    | split
    | dsimp only

theorem execStackChannelRetrain_moves (m : Nat) (channel : Nat) (ok : Bool) (t : Nat) (s : State)
    (ha : [.tick, .cal] ⊆ as)
    (hq : [.freeCount] ⊆ ps)
    (h : Moves as ps s0 s) : ResMoves as ps s0 (execStackChannelRetrain m channel ok t s) := by
  unfold execStackChannelRetrain
  repeat' first
    | with_reducible assumption
    | with_reducible apply Moves.refl
    | with_reducible apply State.calStart_moves
    | with_reducible apply State.stamp_moves
    | with_reducible apply State.calEnd_moves
    | with_reducible apply Moves.free
    | with_reducible apply Moves.ite
    | with_reducible apply ResMoves.next
    | with_reducible apply ResMoves.fault
    | with_reducible apply ResMoves.refused
    | with_reducible apply ResMoves.ite
    | (with_reducible apply Moves.inSub ha; decide)
    | (with_reducible apply Moves.inSub hq; decide)
    | with_reducible apply Moves.ite_snd
    | with_reducible apply Moves.foldl
    | with_reducible intro _
    | (with_reducible apply List.Subset.trans ?_ ha; decide)
    | (with_reducible apply List.Subset.trans ?_ hq; decide)
    | split
    | dsimp only

theorem execTapReset_moves (s : State)
    (ha : [.prf] ⊆ as)
    (h : Moves as ps s0 s) : ResMoves as ps s0 (execTapReset s) := by
  unfold execTapReset
  repeat' first
    | with_reducible assumption
    | with_reducible apply Moves.refl
    | with_reducible apply Moves.wr
    | with_reducible apply Moves.ite
    | with_reducible apply ResMoves.next
    | with_reducible apply ResMoves.fault
    | with_reducible apply ResMoves.refused
    | with_reducible apply ResMoves.ite
    | (with_reducible apply Moves.inSub ha; decide)
    | with_reducible apply Moves.foldl
    | with_reducible intro _
    | (with_reducible apply List.Subset.trans ?_ ha; decide)
    | split
    | dsimp only

theorem State.loseChase_moves (s : State) (c : Nat)
    (ha : [.forme, .pair, .pwr, .events, .cal, .cmp, .col, .prs, .oe, .lnk, .lsu] ⊆ as)
    (hq : [.presses, .jobs, .lateXfers, .drains, .calJobs, .swaps, .spareNeeds, .links, .relays, .freeCount] ⊆ ps)
    (h : Moves as ps s0 s) : Moves as ps s0 (State.loseChase s c) := by
  unfold State.loseChase
  repeat' first
    | with_reducible assumption
    | with_reducible apply Moves.refl
    | with_reducible apply State.yieldWith_moves
    | with_reducible apply State.parkLost_moves
    | with_reducible apply Moves.ite
    | (with_reducible apply Moves.inSub ha; decide)
    | (with_reducible apply Moves.inSub hq; decide)
    | with_reducible apply Moves.each
    | with_reducible apply Moves.foldl
    | with_reducible intro _
    | (with_reducible apply List.Subset.trans ?_ ha; decide)
    | (with_reducible apply List.Subset.trans ?_ hq; decide)
    | split
    | dsimp only

theorem execLogicSliceDone_moves (u : Sys2Proof.LogicUnit) (ok : Bool) (t : Nat) (s : State)
    (ha : [.tick, .imp, .forme, .pair, .pwr, .prf, .irq, .events, .cal, .cmp, .col, .prs, .oe, .lnk, .lsu] ⊆ as)
    (hq : [.presses, .jobs, .lateXfers, .drains, .calJobs, .swaps, .spareNeeds, .links, .relays, .freeCount] ⊆ ps)
    (h : Moves as ps s0 s) : ResMoves as ps s0 (execLogicSliceDone u ok t s) := by
  unfold execLogicSliceDone
  repeat' first
    | with_reducible assumption
    | with_reducible apply Moves.refl
    | with_reducible apply State.stamp_moves
    | with_reducible apply State.abandonPress_moves
    | with_reducible apply State.irqDeliver_moves
    | with_reducible apply State.failPress_moves
    | with_reducible apply State.loseChase_moves
    | with_reducible apply Moves.bump
    | with_reducible apply Moves.ite
    | with_reducible apply ResMoves.next
    | with_reducible apply ResMoves.fault
    | with_reducible apply ResMoves.refused
    | with_reducible apply ResMoves.ite
    | (with_reducible apply Moves.inSub ha; decide)
    | (with_reducible apply Moves.inSub hq; decide)
    | with_reducible apply Moves.foldl
    | with_reducible intro _
    | (with_reducible apply List.Subset.trans ?_ ha; decide)
    | (with_reducible apply List.Subset.trans ?_ hq; decide)
    | split
    | dsimp only

theorem execPendingFlush_moves (t : Nat) (s : State)
    (ha : [.tick, .prf] ⊆ as)
    (hq : [.repairMap, .flashQ] ⊆ ps)
    (h : Moves as ps s0 s) : ResMoves as ps s0 (execPendingFlush t s) := by
  unfold execPendingFlush
  repeat' first
    | with_reducible assumption
    | with_reducible apply Moves.refl
    | with_reducible apply State.stamp_moves
    | with_reducible apply State.queueFlash_moves
    | with_reducible apply Moves.ite
    | with_reducible apply ResMoves.next
    | with_reducible apply ResMoves.fault
    | with_reducible apply ResMoves.refused
    | with_reducible apply ResMoves.ite
    | (with_reducible apply Moves.inSub ha; decide)
    | (with_reducible apply Moves.inSub hq; decide)
    | with_reducible apply Moves.foldl
    | with_reducible intro _
    | (with_reducible apply List.Subset.trans ?_ ha; decide)
    | (with_reducible apply List.Subset.trans ?_ hq; decide)
    | split
    | dsimp only

theorem execTapSegsel_moves (segs : Nat) (s : State)
    (ha : [.prf] ⊆ as)
    (hq : [.out] ⊆ ps)
    (h : Moves as ps s0 s) : ResMoves as ps s0 (execTapSegsel segs s) := by
  unfold execTapSegsel
  repeat' first
    | with_reducible assumption
    | with_reducible apply Moves.refl
    | with_reducible apply State.send_moves
    | with_reducible apply Moves.wrAll
    | with_reducible apply areas_cons
    | with_reducible apply areas_nil
    | with_reducible apply Moves.ite
    | with_reducible apply ResMoves.next
    | with_reducible apply ResMoves.fault
    | with_reducible apply ResMoves.refused
    | with_reducible apply ResMoves.ite
    | (with_reducible apply Moves.inSub ha; decide)
    | (with_reducible apply Moves.inSub hq; decide)
    | with_reducible apply Moves.foldl
    | with_reducible intro _
    | (with_reducible apply List.Subset.trans ?_ ha; decide)
    | (with_reducible apply List.Subset.trans ?_ hq; decide)
    | split
    | dsimp only

theorem execLoopbackDone_moves (errors : Nat) (passed : Nat) (t : Nat) (s : State)
    (ha : [.tick, .prf] ⊆ as)
    (h : Moves as ps s0 s) : ResMoves as ps s0 (execLoopbackDone errors passed t s) := by
  unfold execLoopbackDone
  repeat' first
    | with_reducible assumption
    | with_reducible apply Moves.refl
    | with_reducible apply State.stamp_moves
    | with_reducible apply Moves.wrAll
    | with_reducible apply areas_cons
    | with_reducible apply areas_nil
    | with_reducible apply Moves.ite
    | with_reducible apply ResMoves.next
    | with_reducible apply ResMoves.fault
    | with_reducible apply ResMoves.refused
    | with_reducible apply ResMoves.ite
    | (with_reducible apply Moves.inSub ha; decide)
    | with_reducible apply Moves.foldl
    | with_reducible intro _
    | (with_reducible apply List.Subset.trans ?_ ha; decide)
    | split
    | dsimp only

theorem execTapExtest_moves (s : State)
    (ha : [.prf] ⊆ as)
    (h : Moves as ps s0 s) : ResMoves as ps s0 (execTapExtest s) := by
  unfold execTapExtest
  repeat' first
    | with_reducible assumption
    | with_reducible apply Moves.refl
    | with_reducible apply State.drivePins_moves
    | with_reducible apply Moves.ite
    | with_reducible apply ResMoves.next
    | with_reducible apply ResMoves.fault
    | with_reducible apply ResMoves.refused
    | with_reducible apply ResMoves.ite
    | (with_reducible apply Moves.inSub ha; decide)
    | with_reducible apply Moves.foldl
    | with_reducible intro _
    | (with_reducible apply List.Subset.trans ?_ ha; decide)
    | split
    | dsimp only

theorem execClearMap_moves (s : State)
    (ha : [.prf] ⊆ as)
    (h : Moves as ps s0 s) : ResMoves as ps s0 (execClearMap s) := by
  unfold execClearMap
  repeat' first
    | with_reducible assumption
    | with_reducible apply Moves.refl
    | with_reducible apply Moves.wr
    | with_reducible apply Moves.ite
    | with_reducible apply ResMoves.next
    | with_reducible apply ResMoves.fault
    | with_reducible apply ResMoves.refused
    | with_reducible apply ResMoves.ite
    | (with_reducible apply Moves.inSub ha; decide)
    | with_reducible apply Moves.foldl
    | with_reducible intro _
    | (with_reducible apply List.Subset.trans ?_ ha; decide)
    | split
    | dsimp only

theorem execLogicSlice_moves (u : Sys2Proof.LogicUnit) (t : Nat) (s : State)
    (ha : [.tick] ⊆ as)
    (h : Moves as ps s0 s) : ResMoves as ps s0 (execLogicSlice u t s) := by
  unfold execLogicSlice
  repeat' first
    | with_reducible assumption
    | with_reducible apply Moves.refl
    | with_reducible apply State.stamp_moves
    | with_reducible apply Moves.ite
    | with_reducible apply ResMoves.next
    | with_reducible apply ResMoves.fault
    | with_reducible apply ResMoves.refused
    | with_reducible apply ResMoves.ite
    | (with_reducible apply Moves.inSub ha; decide)
    | with_reducible apply Moves.foldl
    | with_reducible intro _
    | (with_reducible apply List.Subset.trans ?_ ha; decide)
    | split
    | dsimp only

theorem execTapSample_moves (s : State)
    (ha : [.prf] ⊆ as)
    (h : Moves as ps s0 s) : ResMoves as ps s0 (execTapSample s) := by
  unfold execTapSample
  repeat' first
    | with_reducible assumption
    | with_reducible apply Moves.refl
    | with_reducible apply Moves.wr
    | with_reducible apply Moves.ite
    | with_reducible apply ResMoves.next
    | with_reducible apply ResMoves.fault
    | with_reducible apply ResMoves.refused
    | with_reducible apply ResMoves.ite
    | (with_reducible apply Moves.inSub ha; decide)
    | with_reducible apply Moves.foldl
    | with_reducible intro _
    | (with_reducible apply List.Subset.trans ?_ ha; decide)
    | split
    | dsimp only

theorem execCoreSliceDone_moves (n : Nat) (ok : Bool) (t : Nat) (s : State)
    (ha : [.tick, .irq, .events] ⊆ as)
    (h : Moves as ps s0 s) : ResMoves as ps s0 (execCoreSliceDone n ok t s) := by
  unfold execCoreSliceDone
  repeat' first
    | with_reducible assumption
    | with_reducible apply Moves.refl
    | with_reducible apply State.stamp_moves
    | with_reducible apply State.irqDeliver_moves
    | with_reducible apply Moves.wr
    | with_reducible apply Moves.ite
    | with_reducible apply ResMoves.next
    | with_reducible apply ResMoves.fault
    | with_reducible apply ResMoves.refused
    | with_reducible apply ResMoves.ite
    | (with_reducible apply Moves.inSub ha; decide)
    | with_reducible apply Moves.foldl
    | with_reducible intro _
    | (with_reducible apply List.Subset.trans ?_ ha; decide)
    | split
    | dsimp only

theorem execTapHighz_moves (s : State)
    (ha : [.prf] ⊆ as)
    (h : Moves as ps s0 s) : ResMoves as ps s0 (execTapHighz s) := by
  unfold execTapHighz
  repeat' first
    | with_reducible assumption
    | with_reducible apply Moves.refl
    | with_reducible apply State.drivePins_moves
    | with_reducible apply Moves.ite
    | with_reducible apply ResMoves.next
    | with_reducible apply ResMoves.fault
    | with_reducible apply ResMoves.refused
    | with_reducible apply ResMoves.ite
    | (with_reducible apply Moves.inSub ha; decide)
    | with_reducible apply Moves.foldl
    | with_reducible intro _
    | (with_reducible apply List.Subset.trans ?_ ha; decide)
    | split
    | dsimp only

end Sys2Proof.Machine
end

