-- ==== Sys2Proof/Laws/MovesPair.lean ====
section
/-!
SUPPORT. Footprints of the operations of Machine/Pair.lean.
-/

namespace Sys2Proof.Machine

variable {as : List Area} {ps : List Part} {s0 : State}

theorem State.refuseRole_moves (s : State)
    (ha : [.pair] ⊆ as)
    (h : Moves as ps s0 s) : Moves as ps s0 (State.refuseRole s) := by
  unfold State.refuseRole
  repeat' first
    | with_reducible assumption
    | with_reducible apply Moves.refl
    | with_reducible apply Moves.wr
    | with_reducible apply Moves.ite
    | (with_reducible apply Moves.inSub ha; decide)
    | with_reducible apply Moves.foldl
    | with_reducible intro _
    | (with_reducible apply List.Subset.trans ?_ ha; decide)
    | split
    | dsimp only

theorem State.lightPorts_moves (s : State) (t : Nat)
    (ha : [.events, .cal, .ddl, .oe, .lnk, .lsu] ⊆ as)
    (hq : [.calJobs, .swaps, .links] ⊆ ps)
    (h : Moves as ps s0 s) : Moves as ps s0 (State.lightPorts s t) := by
  unfold State.lightPorts
  repeat' first
    | with_reducible assumption
    | with_reducible apply Moves.refl
    | with_reducible apply State.toClock_moves
    | with_reducible apply Moves.ite
    | (with_reducible apply Moves.inSub ha; decide)
    | (with_reducible apply Moves.inSub hq; decide)
    | with_reducible apply Moves.each
    | with_reducible apply Moves.foldl
    | with_reducible intro _
    | (with_reducible apply List.Subset.trans ?_ ha; decide)
    | (with_reducible apply List.Subset.trans ?_ hq; decide)
    | split
    | dsimp only

theorem State.retain_moves (s : State)
    (ha : [.forme, .pwr, .core, .events, .cal, .cmp, .col, .prs, .fin, .case, .oe, .lnk, .lsu, .mem] ⊆ as)
    (hq : [.presses, .jobs, .lateXfers, .drains, .calJobs, .swaps, .spareNeeds, .links, .badWords, .relays, .freeCount] ⊆ ps)
    (h : Moves as ps s0 s) : Moves as ps s0 (State.retain s) := by
  unfold State.retain
  repeat' first
    | with_reducible assumption
    | with_reducible apply Moves.refl
    | with_reducible apply State.capUnmet_moves
    | with_reducible apply State.stopUnits_moves
    | with_reducible apply State.setRail_moves
    | with_reducible apply State.pressOff_moves
    | with_reducible apply State.portOff_moves
    | with_reducible apply Moves.wr
    | with_reducible apply Moves.ite
    | (with_reducible apply Moves.inSub ha; decide)
    | (with_reducible apply Moves.inSub hq; decide)
    | with_reducible apply Moves.each
    | with_reducible apply Moves.foldl
    | with_reducible intro _
    | (with_reducible apply List.Subset.trans ?_ ha; decide)
    | (with_reducible apply List.Subset.trans ?_ hq; decide)
    | split
    | dsimp only
    | with_reducible apply Moves.set_badWords

theorem State.grant_moves (s : State) (want : Nat) (t : Nat)
    (ha : [.forme, .pair, .pwr, .core, .events, .cal, .cmp, .col, .ddl, .prs, .fin, .case, .oe, .lnk, .lsu, .mem] ⊆ as)
    (hq : [.presses, .jobs, .lateXfers, .drains, .calJobs, .swaps, .spareNeeds, .links, .badWords, .relays, .freeCount] ⊆ ps)
    (h : Moves as ps s0 s) : Moves as ps s0 (State.grant s want t) := by
  unfold State.grant
  repeat' first
    | with_reducible assumption
    | with_reducible apply Moves.refl
    | with_reducible apply State.refreshPair_moves
    | with_reducible apply State.lightPorts_moves
    | with_reducible apply State.setRole_moves
    | with_reducible apply State.retain_moves
    | with_reducible apply Moves.wr
    | with_reducible apply Moves.ite
    | (with_reducible apply Moves.inSub ha; decide)
    | (with_reducible apply Moves.inSub hq; decide)
    | with_reducible apply Moves.foldl
    | with_reducible intro _
    | (with_reducible apply List.Subset.trans ?_ ha; decide)
    | (with_reducible apply List.Subset.trans ?_ hq; decide)
    | split
    | dsimp only

theorem State.decideRole_moves (s : State) (partnerRole : Nat) (partnerPending : Nat) (t : Nat)
    (ha : [.forme, .pair, .pwr, .core, .events, .cal, .cmp, .col, .ddl, .prs, .fin, .case, .oe, .lnk, .lsu, .mem] ⊆ as)
    (hq : [.presses, .jobs, .lateXfers, .drains, .calJobs, .swaps, .spareNeeds, .links, .badWords, .relays, .freeCount] ⊆ ps)
    (h : Moves as ps s0 s) : Moves as ps s0 (State.decideRole s partnerRole partnerPending t) := by
  unfold State.decideRole
  repeat' first
    | with_reducible assumption
    | with_reducible apply Moves.refl
    | with_reducible apply State.refuseRole_moves
    | with_reducible apply State.grant_moves
    | with_reducible apply Moves.wr
    | with_reducible apply Moves.ite
    | (with_reducible apply Moves.inSub ha; decide)
    | (with_reducible apply Moves.inSub hq; decide)
    | with_reducible apply Moves.foldl
    | with_reducible intro _
    | (with_reducible apply List.Subset.trans ?_ ha; decide)
    | (with_reducible apply List.Subset.trans ?_ hq; decide)
    | split
    | dsimp only

theorem State.noteHello_moves (s : State) (role : Nat) (member : Nat) (resync : Nat)
    (ha : [.pair, .events] ⊆ as)
    (h : Moves as ps s0 s) : Moves as ps s0 (State.noteHello s role member resync) := by
  unfold State.noteHello
  repeat' first
    | with_reducible assumption
    | with_reducible apply Moves.refl
    | with_reducible apply Moves.wr
    | with_reducible apply Moves.wrAll
    | with_reducible apply areas_cons
    | with_reducible apply areas_nil
    | with_reducible apply Moves.ite
    | (with_reducible apply Moves.inSub ha; decide)
    | with_reducible apply Moves.foldl
    | with_reducible intro _
    | (with_reducible apply List.Subset.trans ?_ ha; decide)
    | split
    | dsimp only

theorem State.swapDoneStandby_moves (s : State)
    (ha : [.forme, .pair, .pwr, .sec, .core, .events, .cal, .cmp, .col, .prs, .fin, .case, .oe, .lnk, .lsu, .mem] ⊆ as)
    (hq : [.presses, .jobs, .lateXfers, .drains, .calJobs, .swaps, .spareNeeds, .links, .badWords, .relays, .freeCount] ⊆ ps)
    (h : Moves as ps s0 s) : Moves as ps s0 (State.swapDoneStandby s) := by
  unfold State.swapDoneStandby
  repeat' first
    | with_reducible assumption
    | with_reducible apply Moves.refl
    | with_reducible apply State.retain_moves
    | with_reducible apply State.setRole_moves
    | with_reducible apply State.driveLine_moves
    | with_reducible apply Moves.wr
    | with_reducible apply Moves.ite
    | (with_reducible apply Moves.inSub ha; decide)
    | (with_reducible apply Moves.inSub hq; decide)
    | with_reducible apply Moves.each
    | with_reducible apply Moves.foldl
    | with_reducible intro _
    | (with_reducible apply List.Subset.trans ?_ ha; decide)
    | (with_reducible apply List.Subset.trans ?_ hq; decide)
    | split
    | dsimp only

theorem execPairHello_moves (n : Nat) (b : Sys2Proof.Byp) (role : Nat) (member : Nat) (resync : Nat) (pend : Nat) (t : Nat) (s : State)
    (ha : [.tick, .forme, .fab, .pair, .pwr, .sec, .core, .irq, .events, .cal, .gal, .cmp, .col, .ddl, .prs, .fin, .case, .oe, .lnk, .lsu, .mem] ⊆ as)
    (hq : [.presses, .jobs, .lateXfers, .drains, .calJobs, .swaps, .spareNeeds, .links, .badWords, .relays, .freeCount] ⊆ ps)
    (h : Moves as ps s0 s) : ResMoves as ps s0 (execPairHello n b role member resync pend t s) := by
  unfold execPairHello
  repeat' first
    | with_reducible assumption
    | with_reducible apply Moves.refl
    | with_reducible apply State.byp_moves
    | with_reducible apply State.decideRole_moves
    | with_reducible apply State.noteHello_moves
    | with_reducible apply State.swapDoneStandby_moves
    | with_reducible apply State.irqDeliver_moves
    | with_reducible apply State.refreshPair_moves
    | with_reducible apply Moves.ite
    | with_reducible apply ResMoves.next
    | with_reducible apply ResMoves.fault
    | with_reducible apply ResMoves.refused
    | with_reducible apply ResMoves.ite
    | (with_reducible apply Moves.inSub ha; decide)
    | (with_reducible apply Moves.inSub hq; decide)
    | with_reducible apply Moves.foldl
    | with_reducible intro _
    | (with_reducible apply List.Subset.trans ?_ ha; decide)
    | (with_reducible apply List.Subset.trans ?_ hq; decide)
    | split
    | dsimp only

theorem State.noteMirror_moves (s : State) (f : Nat) (c : Nat) (a : Nat) (n : Nat)
    (hq : [.mirrorGot] ⊆ ps)
    (h : Moves as ps s0 s) : Moves as ps s0 (State.noteMirror s f c a n) := by
  unfold State.noteMirror
  repeat' first
    | with_reducible assumption
    | with_reducible apply Moves.refl
    | with_reducible apply Moves.ite
    | (with_reducible apply Moves.inSub hq; decide)
    | with_reducible apply Moves.foldl
    | with_reducible intro _
    | (with_reducible apply List.Subset.trans ?_ hq; decide)
    | split
    | dsimp only
    | with_reducible apply Moves.set_mirrorGot

theorem execGraceExpired_moves (f : Nat) (t : Nat) (s : State)
    (ha : [.tick, .forme, .pair, .irq, .events] ⊆ as)
    (hq : [.links] ⊆ ps)
    (h : Moves as ps s0 s) : ResMoves as ps s0 (execGraceExpired f t s) := by
  unfold execGraceExpired
  repeat' first
    | with_reducible assumption
    | with_reducible apply Moves.refl
    | with_reducible apply State.stamp_moves
    | with_reducible apply State.irqDeliver_moves
    | with_reducible apply State.refreshPair_moves
    | with_reducible apply Moves.wr
    | with_reducible apply Moves.ite
    | with_reducible apply ResMoves.next
    | with_reducible apply ResMoves.fault
    | with_reducible apply ResMoves.refused
    | with_reducible apply ResMoves.ite
    | (with_reducible apply Moves.inSub ha; decide)
    | (with_reducible apply Moves.inSub hq; decide)
    | with_reducible apply Moves.foldl
    | with_reducible intro _
    | (with_reducible apply List.Subset.trans ?_ ha; decide)
    | (with_reducible apply List.Subset.trans ?_ hq; decide)
    | split
    | dsimp only

theorem State.takeoverFetch_moves (s : State)
    (ha : [.fab, .pair, .gal, .lnk] ⊆ as)
    (hq : [.links, .early] ⊆ ps)
    (h : Moves as ps s0 s) : Moves as ps s0 (State.takeoverFetch s) := by
  unfold State.takeoverFetch
  repeat' first
    | with_reducible assumption
    | with_reducible apply Moves.refl
    | with_reducible apply State.replayPorts_moves
    | with_reducible apply Moves.wr
    | with_reducible apply Moves.ite
    | (with_reducible apply Moves.inSub ha; decide)
    | (with_reducible apply Moves.inSub hq; decide)
    | with_reducible apply Moves.each
    | with_reducible apply Moves.foldl
    | with_reducible intro _
    | (with_reducible apply List.Subset.trans ?_ ha; decide)
    | (with_reducible apply List.Subset.trans ?_ hq; decide)
    | split
    | dsimp only

theorem execTakeoverPortsTimeout_moves (t : Nat) (s : State)
    (ha : [.tick, .fab, .pair, .gal, .lnk] ⊆ as)
    (hq : [.links, .early] ⊆ ps)
    (h : Moves as ps s0 s) : ResMoves as ps s0 (execTakeoverPortsTimeout t s) := by
  unfold execTakeoverPortsTimeout
  repeat' first
    | with_reducible assumption
    | with_reducible apply Moves.refl
    | with_reducible apply State.stamp_moves
    | with_reducible apply State.takeoverFetch_moves
    | with_reducible apply Moves.ite
    | with_reducible apply ResMoves.next
    | with_reducible apply ResMoves.fault
    | with_reducible apply ResMoves.refused
    | with_reducible apply ResMoves.ite
    | (with_reducible apply Moves.inSub ha; decide)
    | (with_reducible apply Moves.inSub hq; decide)
    | with_reducible apply Moves.foldl
    | with_reducible intro _
    | (with_reducible apply List.Subset.trans ?_ ha; decide)
    | (with_reducible apply List.Subset.trans ?_ hq; decide)
    | split
    | dsimp only

theorem State.stopTakeover_moves (s : State) (result : Nat)
    (ha : [.pair, .sec, .events] ⊆ as)
    (h : Moves as ps s0 s) : Moves as ps s0 (State.stopTakeover s result) := by
  unfold State.stopTakeover
  repeat' first
    | with_reducible assumption
    | with_reducible apply Moves.refl
    | with_reducible apply State.setRole_moves
    | with_reducible apply State.releaseLine_moves
    | with_reducible apply Moves.wr
    | with_reducible apply Moves.ite
    | (with_reducible apply Moves.inSub ha; decide)
    | with_reducible apply Moves.foldl
    | with_reducible intro _
    | (with_reducible apply List.Subset.trans ?_ ha; decide)
    | split
    | dsimp only

theorem State.beginTakeover_moves (s : State) (t : Nat)
    (ha : [.pair, .sec, .events] ⊆ as)
    (hq : [.tokens] ⊆ ps)
    (h : Moves as ps s0 s) : Moves as ps s0 (State.beginTakeover s t) := by
  unfold State.beginTakeover
  repeat' first
    | with_reducible assumption
    | with_reducible apply Moves.refl
    | with_reducible apply State.setRole_moves
    | with_reducible apply State.stopTakeover_moves
    | with_reducible apply Moves.wr
    | with_reducible apply Moves.ite
    | (with_reducible apply Moves.inSub ha; decide)
    | (with_reducible apply Moves.inSub hq; decide)
    | with_reducible apply Moves.foldl
    | with_reducible intro _
    | (with_reducible apply List.Subset.trans ?_ ha; decide)
    | (with_reducible apply List.Subset.trans ?_ hq; decide)
    | split
    | dsimp only
    | with_reducible apply Moves.set_tokens

theorem execPairLiveRestored_moves (t : Nat) (s : State)
    (ha : [.tick, .forme, .pair, .irq, .events] ⊆ as)
    (hq : [.links] ⊆ ps)
    (h : Moves as ps s0 s) : ResMoves as ps s0 (execPairLiveRestored t s) := by
  unfold execPairLiveRestored
  repeat' first
    | with_reducible assumption
    | with_reducible apply Moves.refl
    | with_reducible apply State.irqDeliver_moves
    | with_reducible apply State.refreshPair_moves
    | with_reducible apply State.stamp_moves
    | with_reducible apply Moves.wr
    | with_reducible apply Moves.ite
    | with_reducible apply ResMoves.next
    | with_reducible apply ResMoves.fault
    | with_reducible apply ResMoves.refused
    | with_reducible apply ResMoves.ite
    | (with_reducible apply Moves.inSub ha; decide)
    | (with_reducible apply Moves.inSub hq; decide)
    | with_reducible apply Moves.foldl
    | with_reducible intro _
    | (with_reducible apply List.Subset.trans ?_ ha; decide)
    | (with_reducible apply List.Subset.trans ?_ hq; decide)
    | split
    | dsimp only

theorem State.failTakeover_moves (s : State) (x : Nat × Nat × Nat)
    (ha : [.pair, .prf, .sec, .events] ⊆ as)
    (h : Moves as ps s0 s) : Moves as ps s0 (State.failTakeover s x) := by
  unfold State.failTakeover
  repeat' first
    | with_reducible assumption
    | with_reducible apply Moves.refl
    | with_reducible apply State.stopTakeover_moves
    | with_reducible apply Moves.wrAll
    | with_reducible apply areas_cons
    | with_reducible apply areas_nil
    | with_reducible apply Moves.ite
    | (with_reducible apply Moves.inSub ha; decide)
    | with_reducible apply Moves.foldl
    | with_reducible intro _
    | (with_reducible apply List.Subset.trans ?_ ha; decide)
    | split
    | dsimp only

theorem State.startCores_moves (s : State)
    (ha : [.sec, .core] ⊆ as)
    (h : Moves as ps s0 s) : Moves as ps s0 (State.startCores s) := by
  unfold State.startCores
  repeat' first
    | with_reducible assumption
    | with_reducible apply Moves.refl
    | with_reducible apply Moves.wr
    | with_reducible apply Moves.ite
    | (with_reducible apply Moves.inSub ha; decide)
    | with_reducible apply Moves.each
    | with_reducible apply Moves.foldl
    | with_reducible intro _
    | (with_reducible apply List.Subset.trans ?_ ha; decide)
    | split
    | dsimp only

theorem State.takeoverProven_moves (s : State) (fs : List Sys2Proof.Finding)
    (ha : [.module, .tick, .imp, .forme, .fab, .pair, .pwr, .thm, .prf, .sec, .core, .irq, .events, .mgt, .cal, .chs, .gal, .cmp, .col, .ddl, .gst, .prs, .fin, .case, .oe, .lnk, .lsu, .mem] ⊆ as)
    (hq : [.mem, .presses, .active, .loaded, .pendingBytes, .jobs, .lateXfers, .heldAccs, .drains, .dirtyOut, .dirtyShared, .mirrorGot, .bases, .log, .calJobs, .calRuns, .calFails, .ringErr, .mislocks, .swaps, .spareNeeds, .arrivals, .barDone, .barSent, .tokens, .links, .repairMap, .ceLog, .samples, .idleDebt, .droops, .flashQ, .image, .snaps, .badWords, .relays, .early, .mgtJobs, .moe, .cache, .fades, .dropped, .freeCount] ⊆ ps)
    (h : Moves as ps s0 s) : Moves as ps s0 (State.takeoverProven s fs) := by
  unfold State.takeoverProven
  repeat' first
    | with_reducible assumption
    | with_reducible apply Moves.refl
    | with_reducible apply State.writeChanged_moves
    | with_reducible apply State.findings_moves
    | with_reducible apply State.irqDeliver_moves
    | with_reducible apply State.failTakeover_moves
    | with_reducible apply State.engineCals_moves
    | with_reducible apply State.pressesProven_moves
    | with_reducible apply State.bootImage_moves
    | with_reducible apply State.startCores_moves
    | with_reducible apply Moves.wr
    | with_reducible apply Moves.ite
    | (with_reducible apply Moves.inSub ha; decide)
    | (with_reducible apply Moves.inSub hq; decide)
    | with_reducible apply Moves.foldl
    | with_reducible intro _
    | (with_reducible apply List.Subset.trans ?_ ha; decide)
    | (with_reducible apply List.Subset.trans ?_ hq; decide)
    | split
    | dsimp only

theorem execTakeoverProofDone_moves (fs : List Sys2Proof.Finding) (t : Nat) (s : State)
    (ha : [.module, .tick, .imp, .forme, .fab, .pair, .pwr, .thm, .prf, .sec, .core, .irq, .events, .mgt, .cal, .chs, .gal, .cmp, .col, .ddl, .gst, .prs, .fin, .case, .oe, .lnk, .lsu, .mem] ⊆ as)
    (hq : [.mem, .presses, .active, .loaded, .pendingBytes, .jobs, .lateXfers, .heldAccs, .drains, .dirtyOut, .dirtyShared, .mirrorGot, .bases, .log, .calJobs, .calRuns, .calFails, .ringErr, .mislocks, .swaps, .spareNeeds, .arrivals, .barDone, .barSent, .tokens, .links, .repairMap, .ceLog, .samples, .idleDebt, .droops, .flashQ, .image, .snaps, .badWords, .relays, .early, .mgtJobs, .moe, .cache, .fades, .dropped, .freeCount] ⊆ ps)
    (h : Moves as ps s0 s) : ResMoves as ps s0 (execTakeoverProofDone fs t s) := by
  unfold execTakeoverProofDone
  repeat' first
    | with_reducible assumption
    | with_reducible apply Moves.refl
    | with_reducible apply State.stamp_moves
    | with_reducible apply State.takeoverProven_moves
    | with_reducible apply Moves.ite
    | with_reducible apply ResMoves.next
    | with_reducible apply ResMoves.fault
    | with_reducible apply ResMoves.refused
    | with_reducible apply ResMoves.ite
    | (with_reducible apply Moves.inSub ha; decide)
    | (with_reducible apply Moves.inSub hq; decide)
    | with_reducible apply Moves.foldl
    | with_reducible intro _
    | (with_reducible apply List.Subset.trans ?_ ha; decide)
    | (with_reducible apply List.Subset.trans ?_ hq; decide)
    | split
    | dsimp only

theorem execSwapAck_moves (n : Nat) (b : Sys2Proof.Byp) (edition : Nat) (t : Nat) (s : State)
    (ha : [.tick, .forme, .fab, .pair, .events, .cal, .gal, .cmp, .col, .prs, .oe, .lnk, .lsu] ⊆ as)
    (hq : [.presses, .jobs, .lateXfers, .drains, .calJobs, .swaps, .spareNeeds, .links, .relays, .freeCount] ⊆ ps)
    (h : Moves as ps s0 s) : ResMoves as ps s0 (execSwapAck n b edition t s) := by
  unfold execSwapAck
  repeat' first
    | with_reducible assumption
    | with_reducible apply Moves.refl
    | with_reducible apply State.byp_moves
    | with_reducible apply State.receiveAck_moves
    | with_reducible apply State.swapYield_moves
    | with_reducible apply Moves.wr
    | with_reducible apply Moves.ite
    | with_reducible apply ResMoves.next
    | with_reducible apply ResMoves.fault
    | with_reducible apply ResMoves.refused
    | with_reducible apply ResMoves.ite
    | (with_reducible apply Moves.inSub ha; decide)
    | (with_reducible apply Moves.inSub hq; decide)
    | with_reducible apply Moves.foldl
    | with_reducible intro _
    | (with_reducible apply List.Subset.trans ?_ ha; decide)
    | (with_reducible apply List.Subset.trans ?_ hq; decide)
    | split
    | dsimp only

theorem State.relightPort_moves (s : State) (q : Nat) (t : Nat)
    (ha : [.events, .cal, .ddl, .oe, .lnk, .lsu] ⊆ as)
    (hq : [.calJobs, .swaps, .links] ⊆ ps)
    (h : Moves as ps s0 s) : Moves as ps s0 (State.relightPort s q t) := by
  unfold State.relightPort
  repeat' first
    | with_reducible assumption
    | with_reducible apply Moves.refl
    | with_reducible apply State.toClock_moves
    | with_reducible apply State.setLink_moves
    | with_reducible apply Moves.ite
    | (with_reducible apply Moves.inSub ha; decide)
    | (with_reducible apply Moves.inSub hq; decide)
    | with_reducible apply Moves.foldl
    | with_reducible intro _
    | (with_reducible apply List.Subset.trans ?_ ha; decide)
    | (with_reducible apply List.Subset.trans ?_ hq; decide)
    | split
    | dsimp only

theorem State.withdrawSwap_moves (s : State) (t : Nat)
    (ha : [.imp, .forme, .pair, .pwr, .prf, .sec, .events, .cal, .cmp, .col, .ddl, .prs, .oe, .lnk, .lsu, .mem] ⊆ as)
    (hq : [.presses, .jobs, .lateXfers, .drains, .calJobs, .calRuns, .swaps, .spareNeeds, .barSent, .links, .repairMap, .flashQ, .relays, .freeCount] ⊆ ps)
    (h : Moves as ps s0 s) : Moves as ps s0 (State.withdrawSwap s t) := by
  unfold State.withdrawSwap
  repeat' first
    | with_reducible assumption
    | with_reducible apply Moves.refl
    | with_reducible apply State.setRole_moves
    | with_reducible apply State.driveLine_moves
    | with_reducible apply State.relightPort_moves
    | with_reducible apply State.resumeForme_moves
    | with_reducible apply State.replay_moves
    | with_reducible apply State.letIn_moves
    | with_reducible apply State.refreshPair_moves
    | with_reducible apply Moves.wr
    | with_reducible apply Moves.ite
    | (with_reducible apply Moves.inSub ha; decide)
    | (with_reducible apply Moves.inSub hq; decide)
    | with_reducible apply Moves.each
    | with_reducible apply Moves.foldl
    | with_reducible intro _
    | (with_reducible apply List.Subset.trans ?_ ha; decide)
    | (with_reducible apply List.Subset.trans ?_ hq; decide)
    | split
    | dsimp only

theorem State.storeRecord_moves (s : State) (x : Forme) (r : Sys2Proof.CkptRecord)
    (ha : [.pair] ⊆ as)
    (hq : [.bases, .log] ⊆ ps)
    (h : Moves as ps s0 s) : Moves as ps s0 (State.storeRecord s x r) := by
  unfold State.storeRecord
  repeat' first
    | with_reducible assumption
    | with_reducible apply Moves.refl
    | with_reducible apply Moves.wr
    | with_reducible apply Moves.bump
    | with_reducible apply Moves.ite
    | (with_reducible apply Moves.inSub ha; decide)
    | (with_reducible apply Moves.inSub hq; decide)
    | with_reducible apply Moves.foldl
    | with_reducible intro _
    | (with_reducible apply List.Subset.trans ?_ ha; decide)
    | (with_reducible apply List.Subset.trans ?_ hq; decide)
    | split
    | dsimp only
    | with_reducible apply Moves.set_bases
    | with_reducible apply Moves.set_log
    | ((with_reducible apply Moves.update); on_goal 1 => (intro q hn; cases q <;> first | exact absurd (hq (by decide)) hn | rfl))

theorem execPartnerYield_moves (t : Nat) (s : State)
    (ha : [.tick, .imp, .forme, .pair, .pwr, .prf, .sec, .irq, .events, .cal, .cmp, .col, .ddl, .prs, .oe, .lnk, .lsu, .mem] ⊆ as)
    (hq : [.presses, .jobs, .lateXfers, .drains, .calJobs, .calRuns, .swaps, .spareNeeds, .barSent, .tokens, .links, .repairMap, .flashQ, .relays, .freeCount] ⊆ ps)
    (h : Moves as ps s0 s) : ResMoves as ps s0 (execPartnerYield t s) := by
  unfold execPartnerYield
  repeat' first
    | with_reducible assumption
    | with_reducible apply Moves.refl
    | with_reducible apply State.stamp_moves
    | with_reducible apply State.irqDeliver_moves
    | with_reducible apply State.beginTakeover_moves
    | with_reducible apply State.withdrawSwap_moves
    | with_reducible apply State.refreshPair_moves
    | with_reducible apply Moves.wr
    | with_reducible apply Moves.ite
    | with_reducible apply ResMoves.next
    | with_reducible apply ResMoves.fault
    | with_reducible apply ResMoves.refused
    | with_reducible apply ResMoves.ite
    | (with_reducible apply Moves.inSub ha; decide)
    | (with_reducible apply Moves.inSub hq; decide)
    | with_reducible apply Moves.foldl
    | with_reducible intro _
    | (with_reducible apply List.Subset.trans ?_ ha; decide)
    | (with_reducible apply List.Subset.trans ?_ hq; decide)
    | split
    | dsimp only

theorem State.askRole_moves (s : State) (want : Nat)
    (ha : [.pair, .irq] ⊆ as)
    (hq : [.links] ⊆ ps)
    (h : Moves as ps s0 s) : Moves as ps s0 (State.askRole s want) := by
  unfold State.askRole
  repeat' first
    | with_reducible assumption
    | with_reducible apply Moves.refl
    | with_reducible apply State.sendHellos_moves
    | with_reducible apply State.irqDeliver_moves
    | with_reducible apply State.refuseRole_moves
    | with_reducible apply Moves.wr
    | with_reducible apply Moves.ite
    | (with_reducible apply Moves.inSub ha; decide)
    | (with_reducible apply Moves.inSub hq; decide)
    | with_reducible apply Moves.foldl
    | with_reducible intro _
    | (with_reducible apply List.Subset.trans ?_ ha; decide)
    | (with_reducible apply List.Subset.trans ?_ hq; decide)
    | split
    | dsimp only

theorem execPairActive_moves (t : Nat) (s : State)
    (ha : [.tick, .pair, .irq] ⊆ as)
    (hq : [.links] ⊆ ps)
    (h : Moves as ps s0 s) : ResMoves as ps s0 (execPairActive t s) := by
  unfold execPairActive
  repeat' first
    | with_reducible assumption
    | with_reducible apply Moves.refl
    | with_reducible apply State.askRole_moves
    | with_reducible apply State.stamp_moves
    | with_reducible apply Moves.ite
    | with_reducible apply ResMoves.next
    | with_reducible apply ResMoves.fault
    | with_reducible apply ResMoves.refused
    | with_reducible apply ResMoves.ite
    | (with_reducible apply Moves.inSub ha; decide)
    | (with_reducible apply Moves.inSub hq; decide)
    | with_reducible apply Moves.foldl
    | with_reducible intro _
    | (with_reducible apply List.Subset.trans ?_ ha; decide)
    | (with_reducible apply List.Subset.trans ?_ hq; decide)
    | split
    | dsimp only

theorem execPairImp_moves (n : Nat) (b : Sys2Proof.Byp) (digest : Nat) (t : Nat) (s : State)
    (ha : [.tick, .forme, .fab, .pair, .irq, .events, .gal, .lnk] ⊆ as)
    (hq : [.links] ⊆ ps)
    (h : Moves as ps s0 s) : ResMoves as ps s0 (execPairImp n b digest t s) := by
  unfold execPairImp
  repeat' first
    | with_reducible assumption
    | with_reducible apply Moves.refl
    | with_reducible apply State.byp_moves
    | with_reducible apply State.irqDeliver_moves
    | with_reducible apply State.refreshPair_moves
    | with_reducible apply Moves.wr
    | with_reducible apply Moves.ite
    | with_reducible apply ResMoves.next
    | with_reducible apply ResMoves.fault
    | with_reducible apply ResMoves.refused
    | with_reducible apply ResMoves.ite
    | (with_reducible apply Moves.inSub ha; decide)
    | (with_reducible apply Moves.inSub hq; decide)
    | with_reducible apply Moves.foldl
    | with_reducible intro _
    | (with_reducible apply List.Subset.trans ?_ ha; decide)
    | (with_reducible apply List.Subset.trans ?_ hq; decide)
    | split
    | dsimp only

theorem execYieldComplete_moves (t : Nat) (s : State)
    (ha : [.tick, .pair, .sec, .irq, .events, .cal, .ddl, .oe, .lnk, .lsu] ⊆ as)
    (hq : [.calJobs, .swaps, .links] ⊆ ps)
    (h : Moves as ps s0 s) : ResMoves as ps s0 (execYieldComplete t s) := by
  unfold execYieldComplete
  repeat' first
    | with_reducible assumption
    | with_reducible apply Moves.refl
    | with_reducible apply State.endYield_moves
    | with_reducible apply State.stamp_moves
    | with_reducible apply State.relightPort_moves
    | with_reducible apply State.irqDeliver_moves
    | with_reducible apply Moves.ite
    | with_reducible apply ResMoves.next
    | with_reducible apply ResMoves.fault
    | with_reducible apply ResMoves.refused
    | with_reducible apply ResMoves.ite
    | (with_reducible apply Moves.inSub ha; decide)
    | (with_reducible apply Moves.inSub hq; decide)
    | with_reducible apply Moves.each
    | with_reducible apply Moves.foldl
    | with_reducible intro _
    | (with_reducible apply List.Subset.trans ?_ ha; decide)
    | (with_reducible apply List.Subset.trans ?_ hq; decide)
    | split
    | dsimp only

theorem execMirrorBases_moves (n : Nat) (f : Nat) (edition : Nat) (es : List Sys2Proof.BaseEntry) (s : State)
    (hq : [.bases] ⊆ ps)
    (h : Moves as ps s0 s) : ResMoves as ps s0 (execMirrorBases n f edition es s) := by
  unfold execMirrorBases
  repeat' first
    | with_reducible assumption
    | with_reducible apply Moves.refl
    | with_reducible apply Moves.ite
    | with_reducible apply ResMoves.next
    | with_reducible apply ResMoves.fault
    | with_reducible apply ResMoves.refused
    | with_reducible apply ResMoves.ite
    | (with_reducible apply Moves.inSub hq; decide)
    | with_reducible apply Moves.foldl
    | with_reducible intro _
    | (with_reducible apply List.Subset.trans ?_ hq; decide)
    | split
    | dsimp only
    | with_reducible apply Moves.set_bases

theorem State.firstReplay_moves (s : State) (x : Forme) (t : Nat)
    (ha : [.imp, .forme, .fab, .pair, .pwr, .prf, .events, .cal, .gal, .cmp, .col, .prs, .oe, .lnk, .lsu, .mem] ⊆ as)
    (hq : [.mem, .presses, .jobs, .lateXfers, .drains, .dirtyShared, .calJobs, .calRuns, .swaps, .spareNeeds, .arrivals, .barDone, .barSent, .links, .repairMap, .flashQ, .relays, .early, .out, .freeCount] ⊆ ps)
    (h : Moves as ps s0 s) : Moves as ps s0 (State.firstReplay s x t) := by
  unfold State.firstReplay
  repeat' first
    | with_reducible assumption
    | with_reducible apply Moves.refl
    | with_reducible apply State.letIn_moves
    | with_reducible apply State.replay_moves
    | with_reducible apply State.run_moves
    | with_reducible apply State.releaseStep_moves
    | with_reducible apply Moves.wr
    | with_reducible apply Moves.ite
    | (with_reducible apply Moves.inSub ha; decide)
    | (with_reducible apply Moves.inSub hq; decide)
    | with_reducible apply Moves.foldl
    | with_reducible intro _
    | (with_reducible apply List.Subset.trans ?_ ha; decide)
    | (with_reducible apply List.Subset.trans ?_ hq; decide)
    | split
    | dsimp only

theorem State.endTakeover_moves (s : State) (t : Nat)
    (ha : [.imp, .forme, .fab, .pair, .pwr, .prf, .events, .cal, .gal, .cmp, .col, .prs, .oe, .lnk, .lsu, .mem] ⊆ as)
    (hq : [.mem, .presses, .jobs, .lateXfers, .drains, .dirtyShared, .calJobs, .calRuns, .swaps, .spareNeeds, .arrivals, .barDone, .barSent, .links, .repairMap, .flashQ, .relays, .early, .out, .freeCount] ⊆ ps)
    (h : Moves as ps s0 s) : Moves as ps s0 (State.endTakeover s t) := by
  unfold State.endTakeover
  repeat' first
    | with_reducible assumption
    | with_reducible apply Moves.refl
    | with_reducible apply State.setRole_moves
    | with_reducible apply State.firstReplay_moves
    | with_reducible apply State.refreshPair_moves
    | with_reducible apply Moves.wrAll
    | with_reducible apply areas_cons
    | with_reducible apply areas_nil
    | with_reducible apply Moves.ite
    | (with_reducible apply Moves.inSub ha; decide)
    | (with_reducible apply Moves.inSub hq; decide)
    | with_reducible apply Moves.each
    | with_reducible apply Moves.foldl
    | with_reducible intro _
    | (with_reducible apply List.Subset.trans ?_ ha; decide)
    | (with_reducible apply List.Subset.trans ?_ hq; decide)
    | split
    | dsimp only

theorem execSwapReq_moves (n : Nat) (b : Sys2Proof.Byp) (edition : Nat) (t : Nat) (s : State)
    (ha : [.tick, .fab, .gal, .lnk] ⊆ as)
    (hq : [.links] ⊆ ps)
    (h : Moves as ps s0 s) : ResMoves as ps s0 (execSwapReq n b edition t s) := by
  unfold execSwapReq
  repeat' first
    | with_reducible assumption
    | with_reducible apply Moves.refl
    | with_reducible apply State.byp_moves
    | with_reducible apply State.receiveReq_moves
    | with_reducible apply Moves.ite
    | with_reducible apply ResMoves.next
    | with_reducible apply ResMoves.fault
    | with_reducible apply ResMoves.refused
    | with_reducible apply ResMoves.ite
    | (with_reducible apply Moves.inSub ha; decide)
    | (with_reducible apply Moves.inSub hq; decide)
    | with_reducible apply Moves.foldl
    | with_reducible intro _
    | (with_reducible apply List.Subset.trans ?_ ha; decide)
    | (with_reducible apply List.Subset.trans ?_ hq; decide)
    | split
    | dsimp only

theorem execPairLevel_moves (n : Nat) (b : Sys2Proof.Byp) (level : Nat) (t : Nat) (s : State)
    (ha : [.tick, .forme, .fab, .pair, .irq, .events, .gal, .lnk] ⊆ as)
    (hq : [.links] ⊆ ps)
    (h : Moves as ps s0 s) : ResMoves as ps s0 (execPairLevel n b level t s) := by
  unfold execPairLevel
  repeat' first
    | with_reducible assumption
    | with_reducible apply Moves.refl
    | with_reducible apply State.byp_moves
    | with_reducible apply State.irqDeliver_moves
    | with_reducible apply State.refreshPair_moves
    | with_reducible apply Moves.wr
    | with_reducible apply Moves.ite
    | with_reducible apply ResMoves.next
    | with_reducible apply ResMoves.fault
    | with_reducible apply ResMoves.refused
    | with_reducible apply ResMoves.ite
    | (with_reducible apply Moves.inSub ha; decide)
    | (with_reducible apply Moves.inSub hq; decide)
    | with_reducible apply Moves.foldl
    | with_reducible intro _
    | (with_reducible apply List.Subset.trans ?_ ha; decide)
    | (with_reducible apply List.Subset.trans ?_ hq; decide)
    | split
    | dsimp only

theorem State.deltaDone_moves (s : State) (f : Nat)
    (ha : [.forme, .pair] ⊆ as)
    (h : Moves as ps s0 s) : Moves as ps s0 (State.deltaDone s f) := by
  unfold State.deltaDone
  repeat' first
    | with_reducible assumption
    | with_reducible apply Moves.refl
    | with_reducible apply Moves.wr
    | with_reducible apply Moves.bump
    | with_reducible apply Moves.ite
    | (with_reducible apply Moves.inSub ha; decide)
    | with_reducible apply Moves.foldl
    | with_reducible intro _
    | (with_reducible apply List.Subset.trans ?_ ha; decide)
    | split
    | dsimp only

theorem execPairHelloTimer_moves (t : Nat) (s : State)
    (ha : [.tick] ⊆ as)
    (hq : [.links] ⊆ ps)
    (h : Moves as ps s0 s) : ResMoves as ps s0 (execPairHelloTimer t s) := by
  unfold execPairHelloTimer
  repeat' first
    | with_reducible assumption
    | with_reducible apply Moves.refl
    | with_reducible apply State.sendHellos_moves
    | with_reducible apply State.stamp_moves
    | with_reducible apply Moves.ite
    | with_reducible apply ResMoves.next
    | with_reducible apply ResMoves.fault
    | with_reducible apply ResMoves.refused
    | with_reducible apply ResMoves.ite
    | (with_reducible apply Moves.inSub ha; decide)
    | (with_reducible apply Moves.inSub hq; decide)
    | with_reducible apply Moves.foldl
    | with_reducible intro _
    | (with_reducible apply List.Subset.trans ?_ ha; decide)
    | (with_reducible apply List.Subset.trans ?_ hq; decide)
    | split
    | dsimp only

theorem execRoleTimeout_moves (t : Nat) (s : State)
    (ha : [.tick, .forme, .pair, .pwr, .core, .irq, .events, .cal, .cmp, .col, .ddl, .prs, .fin, .case, .oe, .lnk, .lsu, .mem] ⊆ as)
    (hq : [.presses, .jobs, .lateXfers, .drains, .calJobs, .swaps, .spareNeeds, .links, .badWords, .relays, .freeCount] ⊆ ps)
    (h : Moves as ps s0 s) : ResMoves as ps s0 (execRoleTimeout t s) := by
  unfold execRoleTimeout
  repeat' first
    | with_reducible assumption
    | with_reducible apply Moves.refl
    | with_reducible apply State.stamp_moves
    | with_reducible apply State.irqDeliver_moves
    | with_reducible apply State.decideRole_moves
    | with_reducible apply Moves.ite
    | with_reducible apply ResMoves.next
    | with_reducible apply ResMoves.fault
    | with_reducible apply ResMoves.refused
    | with_reducible apply ResMoves.ite
    | (with_reducible apply Moves.inSub ha; decide)
    | (with_reducible apply Moves.inSub hq; decide)
    | with_reducible apply Moves.foldl
    | with_reducible intro _
    | (with_reducible apply List.Subset.trans ?_ ha; decide)
    | (with_reducible apply List.Subset.trans ?_ hq; decide)
    | split
    | dsimp only

theorem State.batchAcked_moves (s : State) (f : Nat)
    (ha : [.forme, .lnk] ⊆ as)
    (h : Moves as ps s0 s) : Moves as ps s0 (State.batchAcked s f) := by
  unfold State.batchAcked
  repeat' first
    | with_reducible assumption
    | with_reducible apply Moves.refl
    | with_reducible apply Moves.wr
    | with_reducible apply Moves.ite
    | (with_reducible apply Moves.inSub ha; decide)
    | with_reducible apply Moves.foldl
    | with_reducible intro _
    | (with_reducible apply List.Subset.trans ?_ ha; decide)
    | split
    | dsimp only

theorem execMirrorDone_moves (n : Nat) (b : Sys2Proof.Byp) (f : Nat) (edition : Nat) (t : Nat) (s : State)
    (ha : [.tick, .forme, .fab, .pair, .gal, .lnk] ⊆ as)
    (hq : [.links] ⊆ ps)
    (h : Moves as ps s0 s) : ResMoves as ps s0 (execMirrorDone n b f edition t s) := by
  unfold execMirrorDone
  repeat' first
    | with_reducible assumption
    | with_reducible apply Moves.refl
    | with_reducible apply State.byp_moves
    | with_reducible apply State.deltaDone_moves
    | with_reducible apply State.batchAcked_moves
    | with_reducible apply Moves.ite
    | with_reducible apply ResMoves.next
    | with_reducible apply ResMoves.fault
    | with_reducible apply ResMoves.refused
    | with_reducible apply ResMoves.ite
    | (with_reducible apply Moves.inSub ha; decide)
    | (with_reducible apply Moves.inSub hq; decide)
    | with_reducible apply Moves.foldl
    | with_reducible intro _
    | (with_reducible apply List.Subset.trans ?_ ha; decide)
    | (with_reducible apply List.Subset.trans ?_ hq; decide)
    | split
    | dsimp only

theorem execPairSwap_moves (f : Nat) (t : Nat) (s : State)
    (ha : [.tick, .pair, .irq] ⊆ as)
    (hq : [.links] ⊆ ps)
    (h : Moves as ps s0 s) : ResMoves as ps s0 (execPairSwap f t s) := by
  unfold execPairSwap
  repeat' first
    | with_reducible assumption
    | with_reducible apply Moves.refl
    | with_reducible apply State.stamp_moves
    | with_reducible apply State.issue_moves
    | with_reducible apply State.irqDeliver_moves
    | with_reducible apply State.refuseRole_moves
    | with_reducible apply Moves.wr
    | with_reducible apply Moves.ite
    | with_reducible apply ResMoves.next
    | with_reducible apply ResMoves.fault
    | with_reducible apply ResMoves.refused
    | with_reducible apply ResMoves.ite
    | (with_reducible apply Moves.inSub ha; decide)
    | (with_reducible apply Moves.inSub hq; decide)
    | with_reducible apply Moves.foldl
    | with_reducible intro _
    | (with_reducible apply List.Subset.trans ?_ ha; decide)
    | (with_reducible apply List.Subset.trans ?_ hq; decide)
    | split
    | dsimp only

theorem execMirrorWrite_moves (n : Nat) (f : Nat) (c : Nat) (addr : Nat) (_edition : Nat) (data : List (BitVec 8)) (s : State)
    (ha : [.pair] ⊆ as)
    (hq : [.mem, .mirrorGot] ⊆ ps)
    (h : Moves as ps s0 s) : ResMoves as ps s0 (execMirrorWrite n f c addr _edition data s) := by
  unfold execMirrorWrite
  repeat' first
    | with_reducible assumption
    | with_reducible apply Moves.refl
    | with_reducible apply State.noteMirror_moves
    | with_reducible apply Moves.bump
    | with_reducible apply Moves.writeMem
    | with_reducible apply Moves.ite
    | with_reducible apply ResMoves.next
    | with_reducible apply ResMoves.fault
    | with_reducible apply ResMoves.refused
    | with_reducible apply ResMoves.ite
    | (with_reducible apply Moves.inSub ha; decide)
    | (with_reducible apply Moves.inSub hq; decide)
    | with_reducible apply Moves.foldl
    | with_reducible intro _
    | (with_reducible apply List.Subset.trans ?_ ha; decide)
    | (with_reducible apply List.Subset.trans ?_ hq; decide)
    | split
    | dsimp only

theorem execLivenessFail_moves (t : Nat) (s : State)
    (ha : [.tick, .forme, .pair, .irq, .events, .cal, .cmp, .col, .prs, .oe, .lnk, .lsu] ⊆ as)
    (hq : [.presses, .jobs, .lateXfers, .drains, .calJobs, .swaps, .spareNeeds, .links, .relays, .freeCount] ⊆ ps)
    (h : Moves as ps s0 s) : ResMoves as ps s0 (execLivenessFail t s) := by
  unfold execLivenessFail
  repeat' first
    | with_reducible assumption
    | with_reducible apply Moves.refl
    | with_reducible apply State.irqDeliver_moves
    | with_reducible apply State.yieldWith_moves
    | with_reducible apply State.stamp_moves
    | with_reducible apply Moves.ite
    | with_reducible apply ResMoves.next
    | with_reducible apply ResMoves.fault
    | with_reducible apply ResMoves.refused
    | with_reducible apply ResMoves.ite
    | (with_reducible apply Moves.inSub ha; decide)
    | (with_reducible apply Moves.inSub hq; decide)
    | with_reducible apply Moves.foldl
    | with_reducible intro _
    | (with_reducible apply List.Subset.trans ?_ ha; decide)
    | (with_reducible apply List.Subset.trans ?_ hq; decide)
    | split
    | dsimp only

theorem State.restoreForme_moves (s : State) (x : Forme)
    (ha : [.forme, .prs] ⊆ as)
    (hq : [.presses] ⊆ ps)
    (h : Moves as ps s0 s) : Moves as ps s0 (State.restoreForme s x) := by
  unfold State.restoreForme
  repeat' first
    | with_reducible assumption
    | with_reducible apply Moves.refl
    | with_reducible apply State.writeStores_moves
    | with_reducible apply State.adopt_moves
    | with_reducible apply Moves.wr
    | with_reducible apply Moves.wrAll
    | with_reducible apply areas_cons
    | with_reducible apply areas_nil
    | with_reducible apply Moves.ite
    | (with_reducible apply Moves.inSub ha; decide)
    | (with_reducible apply Moves.inSub hq; decide)
    | with_reducible apply Moves.foldl
    | with_reducible intro _
    | (with_reducible apply List.Subset.trans ?_ ha; decide)
    | (with_reducible apply List.Subset.trans ?_ hq; decide)
    | split
    | dsimp only

theorem execStandbyStale_moves (t : Nat) (s : State)
    (ha : [.tick, .pair] ⊆ as)
    (h : Moves as ps s0 s) : ResMoves as ps s0 (execStandbyStale t s) := by
  unfold execStandbyStale
  repeat' first
    | with_reducible assumption
    | with_reducible apply Moves.refl
    | with_reducible apply State.stamp_moves
    | with_reducible apply Moves.wr
    | with_reducible apply Moves.ite
    | with_reducible apply ResMoves.next
    | with_reducible apply ResMoves.fault
    | with_reducible apply ResMoves.refused
    | with_reducible apply ResMoves.ite
    | (with_reducible apply Moves.inSub ha; decide)
    | with_reducible apply Moves.each
    | with_reducible apply Moves.foldl
    | with_reducible intro _
    | (with_reducible apply List.Subset.trans ?_ ha; decide)
    | split
    | dsimp only

theorem State.takeBase_moves (s : State) (e : Sys2Proof.BaseEntry)
    (ha : [.lnk] ⊆ as)
    (hq : [.links] ⊆ ps)
    (h : Moves as ps s0 s) : Moves as ps s0 (State.takeBase s e) := by
  unfold State.takeBase
  repeat' first
    | with_reducible assumption
    | with_reducible apply Moves.refl
    | with_reducible apply State.setRxExp_moves
    | with_reducible apply State.setTxNext_moves
    | with_reducible apply Moves.wr
    | with_reducible apply Moves.ite
    | (with_reducible apply Moves.inSub ha; decide)
    | (with_reducible apply Moves.inSub hq; decide)
    | with_reducible apply Moves.foldl
    | with_reducible intro _
    | (with_reducible apply List.Subset.trans ?_ ha; decide)
    | (with_reducible apply List.Subset.trans ?_ hq; decide)
    | split
    | dsimp only

theorem execTakeoverImagesWritten_moves (t : Nat) (s : State)
    (ha : [.tick, .forme, .pair, .events, .cal, .ddl, .prs, .oe, .lnk, .lsu] ⊆ as)
    (hq : [.presses, .calJobs, .swaps, .links] ⊆ ps)
    (h : Moves as ps s0 s) : ResMoves as ps s0 (execTakeoverImagesWritten t s) := by
  unfold execTakeoverImagesWritten
  repeat' first
    | with_reducible assumption
    | with_reducible apply Moves.refl
    | with_reducible apply State.stamp_moves
    | with_reducible apply State.restoreForme_moves
    | with_reducible apply State.takeBase_moves
    | with_reducible apply State.relightPort_moves
    | with_reducible apply Moves.wr
    | with_reducible apply Moves.ite
    | with_reducible apply ResMoves.next
    | with_reducible apply ResMoves.fault
    | with_reducible apply ResMoves.refused
    | with_reducible apply ResMoves.ite
    | (with_reducible apply Moves.inSub ha; decide)
    | (with_reducible apply Moves.inSub hq; decide)
    | with_reducible apply Moves.each
    | with_reducible apply Moves.foldl
    | with_reducible intro _
    | (with_reducible apply List.Subset.trans ?_ ha; decide)
    | (with_reducible apply List.Subset.trans ?_ hq; decide)
    | split
    | dsimp only

theorem execPairYield_moves (t : Nat) (s : State)
    (ha : [.tick, .forme, .pair, .irq, .events, .cal, .cmp, .col, .prs, .oe, .lnk, .lsu] ⊆ as)
    (hq : [.presses, .jobs, .lateXfers, .drains, .calJobs, .swaps, .spareNeeds, .links, .relays, .freeCount] ⊆ ps)
    (h : Moves as ps s0 s) : ResMoves as ps s0 (execPairYield t s) := by
  unfold execPairYield
  repeat' first
    | with_reducible assumption
    | with_reducible apply Moves.refl
    | with_reducible apply State.irqDeliver_moves
    | with_reducible apply State.yieldWith_moves
    | with_reducible apply State.stamp_moves
    | with_reducible apply Moves.ite
    | with_reducible apply ResMoves.next
    | with_reducible apply ResMoves.fault
    | with_reducible apply ResMoves.refused
    | with_reducible apply ResMoves.ite
    | (with_reducible apply Moves.inSub ha; decide)
    | (with_reducible apply Moves.inSub hq; decide)
    | with_reducible apply Moves.foldl
    | with_reducible intro _
    | (with_reducible apply List.Subset.trans ?_ ha; decide)
    | (with_reducible apply List.Subset.trans ?_ hq; decide)
    | split
    | dsimp only

theorem execTakeoverPowered_moves (t : Nat) (s : State)
    (ha : [.tick, .pair, .pwr, .prf, .prs, .mem] ⊆ as)
    (hq : [.presses, .repairMap, .freeCount] ⊆ ps)
    (h : Moves as ps s0 s) : ResMoves as ps s0 (execTakeoverPowered t s) := by
  unfold execTakeoverPowered
  repeat' first
    | with_reducible assumption
    | with_reducible apply Moves.refl
    | with_reducible apply State.stamp_moves
    | with_reducible apply State.setPState_moves
    | with_reducible apply State.setRail_moves
    | with_reducible apply Moves.wr
    | with_reducible apply Moves.wrAll
    | with_reducible apply areas_cons
    | with_reducible apply areas_nil
    | with_reducible apply Moves.ite
    | with_reducible apply ResMoves.next
    | with_reducible apply ResMoves.fault
    | with_reducible apply ResMoves.refused
    | with_reducible apply ResMoves.ite
    | (with_reducible apply Moves.inSub ha; decide)
    | (with_reducible apply Moves.inSub hq; decide)
    | with_reducible apply Moves.each
    | with_reducible apply Moves.foldl
    | with_reducible intro _
    | (with_reducible apply List.Subset.trans ?_ ha; decide)
    | (with_reducible apply List.Subset.trans ?_ hq; decide)
    | split
    | dsimp only
    | with_reducible apply Moves.set_repairMap

theorem execTakeoverRelease_moves (t : Nat) (s : State)
    (ha : [.tick, .imp, .forme, .fab, .pair, .pwr, .prf, .irq, .events, .cal, .gal, .cmp, .col, .prs, .oe, .lnk, .lsu, .mem] ⊆ as)
    (hq : [.mem, .presses, .jobs, .lateXfers, .drains, .dirtyShared, .calJobs, .calRuns, .swaps, .spareNeeds, .arrivals, .barDone, .barSent, .links, .repairMap, .flashQ, .relays, .early, .out, .freeCount] ⊆ ps)
    (h : Moves as ps s0 s) : ResMoves as ps s0 (execTakeoverRelease t s) := by
  unfold execTakeoverRelease
  repeat' first
    | with_reducible assumption
    | with_reducible apply Moves.refl
    | with_reducible apply State.stamp_moves
    | with_reducible apply State.takeoverFetch_moves
    | with_reducible apply State.irqDeliver_moves
    | with_reducible apply State.endTakeover_moves
    | with_reducible apply Moves.ite
    | with_reducible apply ResMoves.next
    | with_reducible apply ResMoves.fault
    | with_reducible apply ResMoves.refused
    | with_reducible apply ResMoves.ite
    | (with_reducible apply Moves.inSub ha; decide)
    | (with_reducible apply Moves.inSub hq; decide)
    | with_reducible apply Moves.foldl
    | with_reducible intro _
    | (with_reducible apply List.Subset.trans ?_ ha; decide)
    | (with_reducible apply List.Subset.trans ?_ hq; decide)
    | split
    | dsimp only

theorem execPairStandby_moves (t : Nat) (s : State)
    (ha : [.tick, .pair, .irq] ⊆ as)
    (hq : [.links] ⊆ ps)
    (h : Moves as ps s0 s) : ResMoves as ps s0 (execPairStandby t s) := by
  unfold execPairStandby
  repeat' first
    | with_reducible assumption
    | with_reducible apply Moves.refl
    | with_reducible apply State.askRole_moves
    | with_reducible apply State.stamp_moves
    | with_reducible apply Moves.ite
    | with_reducible apply ResMoves.next
    | with_reducible apply ResMoves.fault
    | with_reducible apply ResMoves.refused
    | with_reducible apply ResMoves.ite
    | (with_reducible apply Moves.inSub ha; decide)
    | (with_reducible apply Moves.inSub hq; decide)
    | with_reducible apply Moves.foldl
    | with_reducible intro _
    | (with_reducible apply List.Subset.trans ?_ ha; decide)
    | (with_reducible apply List.Subset.trans ?_ hq; decide)
    | split
    | dsimp only

theorem execMirrorRecord_moves (n : Nat) (f : Nat) (r : Sys2Proof.CkptRecord) (t : Nat) (s : State)
    (ha : [.tick, .pair] ⊆ as)
    (hq : [.mirrorGot, .bases, .log, .links] ⊆ ps)
    (h : Moves as ps s0 s) : ResMoves as ps s0 (execMirrorRecord n f r t s) := by
  unfold execMirrorRecord
  repeat' first
    | with_reducible assumption
    | with_reducible apply Moves.refl
    | with_reducible apply State.stamp_moves
    | with_reducible apply State.storeRecord_moves
    | with_reducible apply State.sendByp_moves
    | with_reducible apply Moves.ite
    | with_reducible apply ResMoves.next
    | with_reducible apply ResMoves.fault
    | with_reducible apply ResMoves.refused
    | with_reducible apply ResMoves.ite
    | (with_reducible apply Moves.inSub ha; decide)
    | (with_reducible apply Moves.inSub hq; decide)
    | with_reducible apply Moves.foldl
    | with_reducible intro _
    | (with_reducible apply List.Subset.trans ?_ ha; decide)
    | (with_reducible apply List.Subset.trans ?_ hq; decide)
    | split
    | dsimp only
    | with_reducible apply Moves.set_mirrorGot

end Sys2Proof.Machine
end

