-- ==== Sys2Proof/Laws/MovesPower.lean ====
section
/-!
SUPPORT. Footprints of the operations of Machine/Power.lean.
-/

namespace Sys2Proof.Machine

variable {as : List Area} {ps : List Part} {s0 : State}

theorem execThermalTrip_moves (d : Nat) (t : Nat) (s : State)
    (ha : [.tick, .imp, .forme, .fab, .pair, .pwr, .thm, .sec, .core, .irq, .events, .cal, .gal, .cmp, .col, .ddl, .gst, .prs, .oe, .lnk, .lsu] ⊆ as)
    (hq : [.presses, .jobs, .lateXfers, .drains, .mgtLast, .calJobs, .swaps, .spareNeeds, .links, .relays, .mgtJobs, .out, .freeCount] ⊆ ps)
    (h : Moves as ps s0 s) : ResMoves as ps s0 (execThermalTrip d t s) := by
  unfold execThermalTrip
  repeat' first
    | with_reducible assumption
    | with_reducible apply Moves.refl
    | with_reducible apply State.stamp_moves
    | with_reducible apply State.alert_moves
    | with_reducible apply State.shutdown_moves
    | with_reducible apply State.irqDeliver_moves
    | with_reducible apply State.powerOff_moves
    | with_reducible apply Moves.wr
    | with_reducible apply Moves.ite
    | with_reducible apply ResMoves.next
    | with_reducible apply ResMoves.fault
    | with_reducible apply ResMoves.refused
    | with_reducible apply ResMoves.ite
    | (with_reducible apply Moves.inSub ha; decide)
    | (with_reducible apply Moves.inSub hq; decide)
    | with_reducible apply Moves.foldl
    | with_reducible intro _
    | (with_reducible apply List.Subset.trans ?_ ha; decide)
    | (with_reducible apply List.Subset.trans ?_ hq; decide)
    | split
    | dsimp only

theorem State.showStall_moves (s : State) (f : Nat)
    (ha : [.pwr] ⊆ as)
    (hq : [.freeCount] ⊆ ps)
    (h : Moves as ps s0 s) : Moves as ps s0 (State.showStall s f) := by
  unfold State.showStall
  repeat' first
    | with_reducible assumption
    | with_reducible apply Moves.refl
    | with_reducible apply Moves.wr
    | with_reducible apply Moves.free
    | with_reducible apply Moves.ite
    | (with_reducible apply Moves.inSub ha; decide)
    | (with_reducible apply Moves.inSub hq; decide)
    | with_reducible apply Moves.ite_snd
    | with_reducible apply Moves.foldl
    | with_reducible intro _
    | (with_reducible apply List.Subset.trans ?_ ha; decide)
    | (with_reducible apply List.Subset.trans ?_ hq; decide)
    | split
    | dsimp only

theorem State.setBand_moves (s : State) (d : Nat) (b : Nat)
    (ha : [.thm, .oe, .mem] ⊆ as)
    (h : Moves as ps s0 s) : Moves as ps s0 (State.setBand s d b) := by
  unfold State.setBand
  repeat' first
    | with_reducible assumption
    | with_reducible apply Moves.refl
    | with_reducible apply Moves.wr
    | with_reducible apply Moves.bump
    | with_reducible apply Moves.ite
    | (with_reducible apply Moves.inSub ha; decide)
    | with_reducible apply Moves.foldl
    | with_reducible intro _
    | (with_reducible apply List.Subset.trans ?_ ha; decide)
    | split
    | dsimp only

theorem execPwrCtrlWrite_moves (value : Nat) (s : State)
    (ha : [.pwr] ⊆ as)
    (h : Moves as ps s0 s) : ResMoves as ps s0 (execPwrCtrlWrite value s) := by
  unfold execPwrCtrlWrite
  repeat' first
    | with_reducible assumption
    | with_reducible apply Moves.refl
    | with_reducible apply Moves.wrAll
    | with_reducible apply areas_cons
    | with_reducible apply areas_nil
    | with_reducible apply Moves.ite
    | with_reducible apply ResMoves.next
    | with_reducible apply ResMoves.fault
    | with_reducible apply ResMoves.refused
    | with_reducible apply ResMoves.ite
    | (with_reducible apply Moves.inSub ha; decide)
    | with_reducible apply Moves.foldl
    | with_reducible intro _
    | (with_reducible apply List.Subset.trans ?_ ha; decide)
    | split
    | dsimp only

theorem State.capResume_moves (s : State) (t : Nat)
    (ha : [.imp, .forme, .pair, .pwr, .prf, .events, .cal, .cmp, .col, .prs, .oe, .lnk, .lsu, .mem] ⊆ as)
    (hq : [.presses, .jobs, .lateXfers, .drains, .calJobs, .calRuns, .swaps, .spareNeeds, .barSent, .links, .repairMap, .idleDebt, .flashQ, .relays, .freeCount] ⊆ ps)
    (h : Moves as ps s0 s) : Moves as ps s0 (State.capResume s t) := by
  unfold State.capResume
  repeat' first
    | with_reducible assumption
    | with_reducible apply Moves.refl
    | with_reducible apply State.capUnmet_moves
    | with_reducible apply State.resumeForme_moves
    | with_reducible apply State.letIn_moves
    | with_reducible apply State.setDebt_moves
    | with_reducible apply Moves.wr
    | with_reducible apply Moves.ite
    | (with_reducible apply Moves.inSub ha; decide)
    | (with_reducible apply Moves.inSub hq; decide)
    | with_reducible apply Moves.each
    | with_reducible apply Moves.foldl
    | with_reducible intro _
    | (with_reducible apply List.Subset.trans ?_ ha; decide)
    | (with_reducible apply List.Subset.trans ?_ hq; decide)
    | split
    | dsimp only

theorem State.stallPress_moves (s : State) (f : Nat) (ticks : Nat) (p : Nat)
    (ha : [.forme, .prs] ⊆ as)
    (h : Moves as ps s0 s) : Moves as ps s0 (State.stallPress s f ticks p) := by
  unfold State.stallPress
  repeat' first
    | with_reducible assumption
    | with_reducible apply Moves.refl
    | with_reducible apply Moves.wr
    | with_reducible apply Moves.ite
    | (with_reducible apply Moves.inSub ha; decide)
    | with_reducible apply Moves.foldl
    | with_reducible intro _
    | (with_reducible apply List.Subset.trans ?_ ha; decide)
    | split
    | dsimp only

theorem State.stalls_moves (s : State)
    (ha : [.forme, .pwr, .prs] ⊆ as)
    (hq : [.freeCount] ⊆ ps)
    (h : Moves as ps s0 s) : Moves as ps s0 (State.stalls s) := by
  unfold State.stalls
  repeat' first
    | with_reducible assumption
    | with_reducible apply Moves.refl
    | with_reducible apply State.showStall_moves
    | with_reducible apply State.stallPress_moves
    | with_reducible apply Moves.ite
    | (with_reducible apply Moves.inSub ha; decide)
    | (with_reducible apply Moves.inSub hq; decide)
    | with_reducible apply Moves.each
    | with_reducible apply Moves.foldl
    | with_reducible intro _
    | (with_reducible apply List.Subset.trans ?_ ha; decide)
    | (with_reducible apply List.Subset.trans ?_ hq; decide)
    | split
    | dsimp only

theorem State.noteDrift_moves (s : State) (t : Nat)
    (ha : [.pwr] ⊆ as)
    (h : Moves as ps s0 s) : Moves as ps s0 (State.noteDrift s t) := by
  unfold State.noteDrift
  repeat' first
    | with_reducible assumption
    | with_reducible apply Moves.refl
    | with_reducible apply Moves.wr
    | with_reducible apply Moves.ite
    | (with_reducible apply Moves.inSub ha; decide)
    | with_reducible apply Moves.foldl
    | with_reducible intro _
    | (with_reducible apply List.Subset.trans ?_ ha; decide)
    | split
    | dsimp only

theorem State.compliance_moves (s : State)
    (ha : [.pwr] ⊆ as)
    (h : Moves as ps s0 s) : Moves as ps s0 (State.compliance s) := by
  unfold State.compliance
  repeat' first
    | with_reducible assumption
    | with_reducible apply Moves.refl
    | with_reducible apply Moves.wr
    | with_reducible apply Moves.ite
    | (with_reducible apply Moves.inSub ha; decide)
    | with_reducible apply Moves.foldl
    | with_reducible intro _
    | (with_reducible apply List.Subset.trans ?_ ha; decide)
    | split
    | dsimp only

theorem State.charge_moves (s : State) (q : Nat) (energy : Nat)
    (ha : [.pwr] ⊆ as)
    (h : Moves as ps s0 s) : Moves as ps s0 (State.charge s q energy) := by
  unfold State.charge
  repeat' first
    | with_reducible assumption
    | with_reducible apply Moves.refl
    | with_reducible apply Moves.wr
    | with_reducible apply Moves.wrap
    | with_reducible apply Moves.ite
    | (with_reducible apply Moves.inSub ha; decide)
    | with_reducible apply Moves.foldl
    | with_reducible intro _
    | (with_reducible apply List.Subset.trans ?_ ha; decide)
    | split
    | dsimp only

theorem State.chargeAll_moves (s : State) (es : List Sys2Proof.EstEvent)
    (ha : [.pwr] ⊆ as)
    (h : Moves as ps s0 s) : Moves as ps s0 (State.chargeAll s es) := by
  unfold State.chargeAll
  repeat' first
    | with_reducible assumption
    | with_reducible apply Moves.refl
    | with_reducible apply State.charge_moves
    | with_reducible apply Moves.ite
    | (with_reducible apply Moves.inSub ha; decide)
    | with_reducible apply Moves.each
    | with_reducible apply Moves.foldl
    | with_reducible intro _
    | (with_reducible apply List.Subset.trans ?_ ha; decide)
    | split
    | dsimp only

theorem State.addSample_moves (s : State) (x : Sys2Proof.EstSample)
    (ha : [.forme, .pwr] ⊆ as)
    (hq : [.samples] ⊆ ps)
    (h : Moves as ps s0 s) : Moves as ps s0 (State.addSample s x) := by
  unfold State.addSample
  repeat' first
    | with_reducible assumption
    | with_reducible apply Moves.refl
    | with_reducible apply State.chargeAll_moves
    | with_reducible apply Moves.wr
    | with_reducible apply Moves.ite
    | (with_reducible apply Moves.inSub ha; decide)
    | (with_reducible apply Moves.inSub hq; decide)
    | with_reducible apply Moves.each
    | with_reducible apply Moves.foldl
    | with_reducible intro _
    | (with_reducible apply List.Subset.trans ?_ ha; decide)
    | (with_reducible apply List.Subset.trans ?_ hq; decide)
    | split
    | dsimp only
    | with_reducible apply Moves.set_samples

theorem execEstimatorSample_moves (x : Sys2Proof.EstSample) (t : Nat) (s : State)
    (ha : [.tick, .imp, .forme, .pair, .pwr, .prf, .irq, .events, .cal, .cmp, .col, .prs, .oe, .lnk, .lsu, .mem] ⊆ as)
    (hq : [.presses, .jobs, .lateXfers, .drains, .calJobs, .calRuns, .swaps, .spareNeeds, .barSent, .links, .repairMap, .samples, .idleDebt, .flashQ, .relays, .freeCount] ⊆ ps)
    (h : Moves as ps s0 s) : ResMoves as ps s0 (execEstimatorSample x t s) := by
  unfold execEstimatorSample
  repeat' first
    | with_reducible assumption
    | with_reducible apply Moves.refl
    | with_reducible apply State.stamp_moves
    | with_reducible apply State.irqDeliver_moves
    | with_reducible apply State.capResume_moves
    | with_reducible apply State.stalls_moves
    | with_reducible apply State.noteDrift_moves
    | with_reducible apply State.compliance_moves
    | with_reducible apply State.addSample_moves
    | with_reducible apply Moves.ite
    | with_reducible apply ResMoves.next
    | with_reducible apply ResMoves.fault
    | with_reducible apply ResMoves.refused
    | with_reducible apply ResMoves.ite
    | (with_reducible apply Moves.inSub ha; decide)
    | (with_reducible apply Moves.inSub hq; decide)
    | with_reducible apply Moves.foldl
    | with_reducible intro _
    | (with_reducible apply List.Subset.trans ?_ ha; decide)
    | (with_reducible apply List.Subset.trans ?_ hq; decide)
    | split
    | dsimp only

theorem State.thermalStatus_moves (s : State)
    (ha : [.thm, .events] ⊆ as)
    (h : Moves as ps s0 s) : Moves as ps s0 (State.thermalStatus s) := by
  unfold State.thermalStatus
  repeat' first
    | with_reducible assumption
    | with_reducible apply Moves.refl
    | with_reducible apply Moves.wr
    | with_reducible apply Moves.wrAll
    | with_reducible apply areas_cons
    | with_reducible apply areas_nil
    | with_reducible apply Moves.ite
    | (with_reducible apply Moves.inSub ha; decide)
    | with_reducible apply Moves.foldl
    | with_reducible intro _
    | (with_reducible apply List.Subset.trans ?_ ha; decide)
    | split
    | dsimp only

theorem State.engineCut_moves (s : State) (t : Nat) (k : Nat)
    (ha : [.imp, .forme, .fab, .pair, .pwr, .core, .events, .cal, .gal, .cmp, .col, .ddl, .gst, .prs, .oe, .lnk, .lsu] ⊆ as)
    (hq : [.presses, .jobs, .lateXfers, .drains, .mgtLast, .calJobs, .swaps, .spareNeeds, .links, .relays, .mgtJobs, .out, .freeCount] ⊆ ps)
    (h : Moves as ps s0 s) : Moves as ps s0 (State.engineCut s t k) := by
  unfold State.engineCut
  repeat' first
    | with_reducible assumption
    | with_reducible apply Moves.refl
    | with_reducible apply State.dieDown_moves
    | with_reducible apply State.portOff_moves
    | with_reducible apply Moves.ite
    | (with_reducible apply Moves.inSub ha; decide)
    | (with_reducible apply Moves.inSub hq; decide)
    | with_reducible apply Moves.each
    | with_reducible apply Moves.foldl
    | with_reducible intro _
    | (with_reducible apply List.Subset.trans ?_ ha; decide)
    | (with_reducible apply List.Subset.trans ?_ hq; decide)
    | split
    | dsimp only

theorem State.cutRail_moves (s : State) (n : Nat) (t : Nat)
    (ha : [.imp, .forme, .fab, .pair, .pwr, .sec, .core, .events, .cal, .gal, .cmp, .col, .ddl, .gst, .prs, .oe, .lnk, .lsu] ⊆ as)
    (hq : [.presses, .jobs, .lateXfers, .drains, .mgtLast, .calJobs, .calRuns, .swaps, .spareNeeds, .links, .relays, .mgtJobs, .out, .freeCount] ⊆ ps)
    (h : Moves as ps s0 s) : Moves as ps s0 (State.cutRail s n t) := by
  unfold State.cutRail
  repeat' first
    | with_reducible assumption
    | with_reducible apply Moves.refl
    | with_reducible apply State.losePress_moves
    | with_reducible apply State.powerOff_moves
    | with_reducible apply State.engineCut_moves
    | with_reducible apply State.covers_moves
    | with_reducible apply State.setBolt_moves
    | with_reducible apply State.loseUnit_moves
    | with_reducible apply Moves.wr
    | with_reducible apply Moves.ite
    | (with_reducible apply Moves.inSub ha; decide)
    | (with_reducible apply Moves.inSub hq; decide)
    | with_reducible apply Moves.foldl
    | with_reducible intro _
    | (with_reducible apply List.Subset.trans ?_ ha; decide)
    | (with_reducible apply List.Subset.trans ?_ hq; decide)
    | split
    | dsimp only

theorem execRailWindow_moves (n : Nat) (current : Nat) (t : Nat) (s : State)
    (ha : [.tick, .imp, .forme, .fab, .pair, .pwr, .prf, .sec, .core, .irq, .events, .cal, .gal, .cmp, .col, .ddl, .gst, .prs, .oe, .lnk, .lsu, .mem] ⊆ as)
    (hq : [.mem, .presses, .jobs, .lateXfers, .heldAccs, .drains, .dirtyShared, .mgtLast, .calJobs, .calRuns, .swaps, .spareNeeds, .links, .repairMap, .ceLog, .relays, .mgtJobs, .dropped, .out, .freeCount] ⊆ ps)
    (h : Moves as ps s0 s) : ResMoves as ps s0 (execRailWindow n current t s) := by
  unfold execRailWindow
  repeat' first
    | with_reducible assumption
    | with_reducible apply Moves.refl
    | with_reducible apply State.stamp_moves
    | with_reducible apply State.irqDeliver_moves
    | with_reducible apply State.cutRail_moves
    | with_reducible apply State.releaseHeld_moves
    | with_reducible apply Moves.wr
    | with_reducible apply Moves.bump
    | with_reducible apply Moves.ite
    | with_reducible apply ResMoves.next
    | with_reducible apply ResMoves.fault
    | with_reducible apply ResMoves.refused
    | with_reducible apply ResMoves.ite
    | (with_reducible apply Moves.inSub ha; decide)
    | (with_reducible apply Moves.inSub hq; decide)
    | with_reducible apply Moves.foldl
    | with_reducible intro _
    | (with_reducible apply List.Subset.trans ?_ ha; decide)
    | (with_reducible apply List.Subset.trans ?_ hq; decide)
    | split
    | dsimp only

theorem execMainRailFailure_moves (inputOut : Bool) (t : Nat) (s : State)
    (ha : [.tick, .imp, .forme, .fab, .pair, .pwr, .sec, .core, .irq, .events, .cal, .gal, .cmp, .col, .ddl, .gst, .prs, .oe, .lnk, .lsu] ⊆ as)
    (hq : [.presses, .jobs, .lateXfers, .drains, .mgtLast, .calJobs, .swaps, .spareNeeds, .links, .relays, .mgtJobs, .out, .freeCount] ⊆ ps)
    (h : Moves as ps s0 s) : ResMoves as ps s0 (execMainRailFailure inputOut t s) := by
  unfold execMainRailFailure
  repeat' first
    | with_reducible assumption
    | with_reducible apply Moves.refl
    | with_reducible apply State.stamp_moves
    | with_reducible apply State.irqDeliver_moves
    | with_reducible apply State.powerOff_moves
    | with_reducible apply Moves.wr
    | with_reducible apply Moves.ite
    | with_reducible apply ResMoves.next
    | with_reducible apply ResMoves.fault
    | with_reducible apply ResMoves.refused
    | with_reducible apply ResMoves.ite
    | (with_reducible apply Moves.inSub ha; decide)
    | (with_reducible apply Moves.inSub hq; decide)
    | with_reducible apply Moves.foldl
    | with_reducible intro _
    | (with_reducible apply List.Subset.trans ?_ ha; decide)
    | (with_reducible apply List.Subset.trans ?_ hq; decide)
    | split
    | dsimp only

theorem State.droopEvent_moves (s : State) (i : Nat) (sag : Nat) (t : Nat)
    (ha : [.forme, .pwr] ⊆ as)
    (hq : [.droops] ⊆ ps)
    (h : Moves as ps s0 s) : Moves as ps s0 (State.droopEvent s i sag t) := by
  unfold State.droopEvent
  repeat' first
    | with_reducible assumption
    | with_reducible apply Moves.refl
    | with_reducible apply Moves.wr
    | with_reducible apply Moves.bump
    | with_reducible apply Moves.ite
    | (with_reducible apply Moves.inSub ha; decide)
    | (with_reducible apply Moves.inSub hq; decide)
    | with_reducible apply Moves.foldl
    | with_reducible intro _
    | (with_reducible apply List.Subset.trans ?_ ha; decide)
    | (with_reducible apply List.Subset.trans ?_ hq; decide)
    | split
    | dsimp only
    | with_reducible apply Moves.set_droops

theorem execIdleStepEnd_moves (f : Nat) (t : Nat) (s : State)
    (ha : [.tick, .forme, .pwr] ⊆ as)
    (hq : [.idleDebt] ⊆ ps)
    (h : Moves as ps s0 s) : ResMoves as ps s0 (execIdleStepEnd f t s) := by
  unfold execIdleStepEnd
  repeat' first
    | with_reducible assumption
    | with_reducible apply Moves.refl
    | with_reducible apply State.stamp_moves
    | with_reducible apply State.idleNext_moves
    | with_reducible apply Moves.ite
    | with_reducible apply ResMoves.next
    | with_reducible apply ResMoves.fault
    | with_reducible apply ResMoves.refused
    | with_reducible apply ResMoves.ite
    | (with_reducible apply Moves.inSub ha; decide)
    | (with_reducible apply Moves.inSub hq; decide)
    | with_reducible apply Moves.foldl
    | with_reducible intro _
    | (with_reducible apply List.Subset.trans ?_ ha; decide)
    | (with_reducible apply List.Subset.trans ?_ hq; decide)
    | split
    | dsimp only

theorem execDroopTrip_moves (island : Nat) (sag : Nat) (t : Nat) (s : State)
    (ha : [.tick, .forme, .pwr] ⊆ as)
    (hq : [.droops] ⊆ ps)
    (h : Moves as ps s0 s) : ResMoves as ps s0 (execDroopTrip island sag t s) := by
  unfold execDroopTrip
  repeat' first
    | with_reducible assumption
    | with_reducible apply Moves.refl
    | with_reducible apply State.stamp_moves
    | with_reducible apply State.droopEvent_moves
    | with_reducible apply Moves.ite
    | with_reducible apply ResMoves.next
    | with_reducible apply ResMoves.fault
    | with_reducible apply ResMoves.refused
    | with_reducible apply ResMoves.ite
    | (with_reducible apply Moves.inSub ha; decide)
    | (with_reducible apply Moves.inSub hq; decide)
    | with_reducible apply Moves.foldl
    | with_reducible intro _
    | (with_reducible apply List.Subset.trans ?_ ha; decide)
    | (with_reducible apply List.Subset.trans ?_ hq; decide)
    | split
    | dsimp only

theorem execDroopEventEnd_moves (island : Nat) (still : Option Nat) (t : Nat) (s : State)
    (ha : [.tick, .forme, .pwr] ⊆ as)
    (hq : [.droops] ⊆ ps)
    (h : Moves as ps s0 s) : ResMoves as ps s0 (execDroopEventEnd island still t s) := by
  unfold execDroopEventEnd
  repeat' first
    | with_reducible assumption
    | with_reducible apply Moves.refl
    | with_reducible apply State.stamp_moves
    | with_reducible apply State.droopEvent_moves
    | with_reducible apply Moves.wr
    | with_reducible apply Moves.ite
    | with_reducible apply ResMoves.next
    | with_reducible apply ResMoves.fault
    | with_reducible apply ResMoves.refused
    | with_reducible apply ResMoves.ite
    | (with_reducible apply Moves.inSub ha; decide)
    | (with_reducible apply Moves.inSub hq; decide)
    | with_reducible apply Moves.foldl
    | with_reducible intro _
    | (with_reducible apply List.Subset.trans ?_ ha; decide)
    | (with_reducible apply List.Subset.trans ?_ hq; decide)
    | split
    | dsimp only

theorem execThermalDutyUpdate_moves (d : Nat) (t : Nat) (s : State)
    (ha : [.tick, .thm] ⊆ as)
    (h : Moves as ps s0 s) : ResMoves as ps s0 (execThermalDutyUpdate d t s) := by
  unfold execThermalDutyUpdate
  repeat' first
    | with_reducible assumption
    | with_reducible apply Moves.refl
    | with_reducible apply State.stamp_moves
    | with_reducible apply Moves.wr
    | with_reducible apply Moves.ite
    | with_reducible apply ResMoves.next
    | with_reducible apply ResMoves.fault
    | with_reducible apply ResMoves.refused
    | with_reducible apply ResMoves.ite
    | (with_reducible apply Moves.inSub ha; decide)
    | with_reducible apply Moves.foldl
    | with_reducible intro _
    | (with_reducible apply List.Subset.trans ?_ ha; decide)
    | split
    | dsimp only

theorem execInputMeasurement_moves (watts : Nat) (dv : Nat) (t : Nat) (s : State)
    (ha : [.tick, .pwr, .irq] ⊆ as)
    (h : Moves as ps s0 s) : ResMoves as ps s0 (execInputMeasurement watts dv t s) := by
  unfold execInputMeasurement
  repeat' first
    | with_reducible assumption
    | with_reducible apply Moves.refl
    | with_reducible apply State.stamp_moves
    | with_reducible apply State.irqDeliver_moves
    | with_reducible apply Moves.wr
    | with_reducible apply Moves.ite
    | with_reducible apply ResMoves.next
    | with_reducible apply ResMoves.fault
    | with_reducible apply ResMoves.refused
    | with_reducible apply ResMoves.ite
    | (with_reducible apply Moves.inSub ha; decide)
    | with_reducible apply Moves.foldl
    | with_reducible intro _
    | (with_reducible apply List.Subset.trans ?_ ha; decide)
    | split
    | dsimp only

theorem State.moveBand_moves (s : State) (d : Nat) (x : Int) (t : Nat)
    (ha : [.thm, .oe, .mem] ⊆ as)
    (h : Moves as ps s0 s) : Moves as ps s0 (State.moveBand s d x t) := by
  unfold State.moveBand
  repeat' first
    | with_reducible assumption
    | with_reducible apply Moves.refl
    | with_reducible apply State.setBand_moves
    | with_reducible apply Moves.wr
    | with_reducible apply Moves.ite
    | (with_reducible apply Moves.inSub ha; decide)
    | with_reducible apply Moves.foldl
    | with_reducible intro _
    | (with_reducible apply List.Subset.trans ?_ ha; decide)
    | split
    | dsimp only

theorem execTempSample_moves (d : Nat) (ts : List Int) (t : Nat) (s : State)
    (ha : [.tick, .thm, .irq, .events, .oe, .mem] ⊆ as)
    (h : Moves as ps s0 s) : ResMoves as ps s0 (execTempSample d ts t s) := by
  unfold execTempSample
  repeat' first
    | with_reducible assumption
    | with_reducible apply Moves.refl
    | with_reducible apply State.stamp_moves
    | with_reducible apply State.irqDeliver_moves
    | with_reducible apply State.thermalStatus_moves
    | with_reducible apply State.moveBand_moves
    | with_reducible apply Moves.wrAll
    | with_reducible apply areas_cons
    | with_reducible apply areas_nil
    | with_reducible apply Moves.ite
    | with_reducible apply ResMoves.next
    | with_reducible apply ResMoves.fault
    | with_reducible apply ResMoves.refused
    | with_reducible apply ResMoves.ite
    | (with_reducible apply Moves.inSub ha; decide)
    | with_reducible apply Moves.foldl
    | with_reducible intro _
    | (with_reducible apply List.Subset.trans ?_ ha; decide)
    | split
    | dsimp only

end Sys2Proof.Machine
end

