-- ==== Sys2Proof/Laws/MovesStartup.lean ====
section
/-!
SUPPORT. Footprints of the operations of Machine/Startup.lean.
-/

namespace Sys2Proof.Machine

variable {as : List Area} {ps : List Part} {s0 : State}

theorem State.hardReset_moves (s : State) (b : Nat) (t : Nat)
    (ha : [.imp, .forme, .fab, .pair, .pwr, .thm, .sec, .core, .events, .cal, .gal, .cmp, .col, .ddl, .gst, .prs, .oe, .lnk, .lsu] ⊆ as)
    (hq : [.presses, .jobs, .lateXfers, .drains, .mgtLast, .calJobs, .swaps, .spareNeeds, .links, .relays, .mgtJobs, .out, .freeCount] ⊆ ps)
    (h : Moves as ps s0 s) : Moves as ps s0 (State.hardReset s b t) := by
  unfold State.hardReset
  repeat' first
    | with_reducible assumption
    | with_reducible apply Moves.refl
    | with_reducible apply State.alert_moves
    | with_reducible apply State.noteCause_moves
    | with_reducible apply State.setSec_moves
    | with_reducible apply State.powerOff_moves
    | with_reducible apply State.shutdown_moves
    | with_reducible apply Moves.wr
    | with_reducible apply Moves.wrAll
    | with_reducible apply areas_cons
    | with_reducible apply areas_nil
    | with_reducible apply Moves.ite
    | (with_reducible apply Moves.inSub ha; decide)
    | (with_reducible apply Moves.inSub hq; decide)
    | with_reducible apply Moves.foldl
    | with_reducible intro _
    | (with_reducible apply List.Subset.trans ?_ ha; decide)
    | (with_reducible apply List.Subset.trans ?_ hq; decide)
    | split
    | dsimp only

theorem State.stageFour_moves (s : State)
    (ha : [.sec, .core] ⊆ as)
    (h : Moves as ps s0 s) : Moves as ps s0 (State.stageFour s) := by
  unfold State.stageFour
  repeat' first
    | with_reducible assumption
    | with_reducible apply Moves.refl
    | with_reducible apply State.setSec_moves
    | with_reducible apply State.startCores_moves
    | with_reducible apply Moves.wr
    | with_reducible apply Moves.ite
    | (with_reducible apply Moves.inSub ha; decide)
    | with_reducible apply Moves.foldl
    | with_reducible intro _
    | (with_reducible apply List.Subset.trans ?_ ha; decide)
    | split
    | dsimp only

theorem State.restartFour_moves (s : State) (t : Nat)
    (ha : [.module, .pair, .pwr, .prf, .sec, .core, .events, .cal, .chs, .ddl, .prs, .oe, .lnk, .lsu, .mem] ⊆ as)
    (hq : [.presses, .calJobs, .calRuns, .swaps, .spareNeeds, .links, .repairMap, .flashQ, .freeCount] ⊆ ps)
    (h : Moves as ps s0 s) : Moves as ps s0 (State.restartFour s t) := by
  unfold State.restartFour
  repeat' first
    | with_reducible assumption
    | with_reducible apply Moves.refl
    | with_reducible apply State.phaseThree_moves
    | with_reducible apply State.loadWeights_moves
    | with_reducible apply State.loadCapabilities_moves
    | with_reducible apply State.applyEntry_moves
    | with_reducible apply State.coverEntry_moves
    | with_reducible apply State.setDepth_moves
    | with_reducible apply State.stageFour_moves
    | with_reducible apply State.driveLine_moves
    | with_reducible apply State.proofPassed_moves
    | with_reducible apply Moves.wr
    | with_reducible apply Moves.ite
    | (with_reducible apply Moves.inSub ha; decide)
    | (with_reducible apply Moves.inSub hq; decide)
    | with_reducible apply Moves.each
    | with_reducible apply Moves.foldl
    | with_reducible intro _
    | (with_reducible apply List.Subset.trans ?_ ha; decide)
    | (with_reducible apply List.Subset.trans ?_ hq; decide)
    | split
    | dsimp only

theorem execLaserOverpower_moves (n : Nat) (t : Nat) (s : State)
    (ha : [.tick, .imp, .forme, .fab, .pair, .sec, .core, .irq, .events, .cal, .gal, .cmp, .col, .ddl, .gst, .prs, .oe, .lnk, .lsu] ⊆ as)
    (hq : [.presses, .jobs, .lateXfers, .drains, .mgtLast, .calJobs, .swaps, .spareNeeds, .links, .relays, .mgtJobs, .out, .freeCount] ⊆ ps)
    (h : Moves as ps s0 s) : ResMoves as ps s0 (execLaserOverpower n t s) := by
  unfold execLaserOverpower
  repeat' first
    | with_reducible assumption
    | with_reducible apply Moves.refl
    | with_reducible apply State.irqDeliver_moves
    | with_reducible apply State.shutdown_moves
    | with_reducible apply State.stamp_moves
    | with_reducible apply Moves.wr
    | with_reducible apply Moves.ite
    | with_reducible apply ResMoves.next
    | with_reducible apply ResMoves.fault
    | with_reducible apply ResMoves.refused
    | with_reducible apply ResMoves.ite
    | (with_reducible apply Moves.inSub ha; decide)
    | (with_reducible apply Moves.inSub hq; decide)
    | with_reducible apply Moves.foldl
    | with_reducible intro _
    | (with_reducible apply List.Subset.trans ?_ ha; decide)
    | (with_reducible apply List.Subset.trans ?_ hq; decide)
    | split
    | dsimp only

theorem State.endStageOne_moves (s : State)
    (ha : [.sec, .mgt] ⊆ as)
    (h : Moves as ps s0 s) : Moves as ps s0 (State.endStageOne s) := by
  unfold State.endStageOne
  repeat' first
    | with_reducible assumption
    | with_reducible apply Moves.refl
    | with_reducible apply State.setSec_moves
    | with_reducible apply State.showKeys_moves
    | with_reducible apply Moves.wrap
    | with_reducible apply Moves.wrAll
    | with_reducible apply areas_cons
    | with_reducible apply areas_nil
    | with_reducible apply Moves.ite
    | (with_reducible apply Moves.inSub ha; decide)
    | with_reducible apply Moves.foldl
    | with_reducible intro _
    | (with_reducible apply List.Subset.trans ?_ ha; decide)
    | split
    | dsimp only

theorem State.endStageFour_moves (s : State)
    (ha : [.module, .tick, .imp, .forme, .fab, .pair, .pwr, .thm, .prf, .sec, .core, .irq, .events, .mgt, .cal, .chs, .gal, .cmp, .col, .ddl, .gst, .prs, .fin, .case, .oe, .lnk, .lsu, .mem] ⊆ as)
    (hq : [.mem, .presses, .active, .loaded, .pendingBytes, .jobs, .lateXfers, .heldAccs, .drains, .dirtyOut, .dirtyShared, .mirrorGot, .bases, .log, .calJobs, .calRuns, .calFails, .ringErr, .mislocks, .swaps, .spareNeeds, .arrivals, .barDone, .barSent, .tokens, .links, .repairMap, .ceLog, .samples, .idleDebt, .droops, .image, .snaps, .badWords, .relays, .early, .mgtJobs, .moe, .cache, .fades, .dropped] ⊆ ps)
    (h : Moves as ps s0 s) : Moves as ps s0 (State.endStageFour s) := by
  unfold State.endStageFour
  repeat' first
    | with_reducible assumption
    | with_reducible apply Moves.refl
    | with_reducible apply State.bootImage_moves
    | with_reducible apply Moves.wr
    | with_reducible apply Moves.ite
    | (with_reducible apply Moves.inSub ha; decide)
    | (with_reducible apply Moves.inSub hq; decide)
    | with_reducible apply Moves.foldl
    | with_reducible intro _
    | (with_reducible apply List.Subset.trans ?_ ha; decide)
    | (with_reducible apply List.Subset.trans ?_ hq; decide)
    | split
    | dsimp only

theorem execStageComplete_moves (t : Nat) (s : State)
    (ha : [.module, .tick, .imp, .forme, .fab, .pair, .pwr, .thm, .prf, .sec, .core, .irq, .events, .mgt, .cal, .chs, .gal, .cmp, .col, .ddl, .gst, .prs, .fin, .case, .oe, .lnk, .lsu, .mem] ⊆ as)
    (hq : [.mem, .presses, .active, .loaded, .pendingBytes, .jobs, .lateXfers, .heldAccs, .drains, .dirtyOut, .dirtyShared, .mirrorGot, .bases, .log, .calJobs, .calRuns, .calFails, .ringErr, .mislocks, .swaps, .spareNeeds, .arrivals, .barDone, .barSent, .tokens, .links, .repairMap, .ceLog, .samples, .idleDebt, .droops, .image, .snaps, .badWords, .relays, .early, .mgtJobs, .moe, .cache, .fades, .dropped] ⊆ ps)
    (h : Moves as ps s0 s) : ResMoves as ps s0 (execStageComplete t s) := by
  unfold execStageComplete
  repeat' first
    | with_reducible assumption
    | with_reducible apply Moves.refl
    | with_reducible apply State.stamp_moves
    | with_reducible apply State.endStageOne_moves
    | with_reducible apply State.setSec_moves
    | with_reducible apply State.stageFour_moves
    | with_reducible apply State.irqDeliver_moves
    | with_reducible apply State.endStageFour_moves
    | with_reducible apply Moves.wrAll
    | with_reducible apply areas_cons
    | with_reducible apply areas_nil
    | with_reducible apply Moves.ite
    | with_reducible apply ResMoves.next
    | with_reducible apply ResMoves.fault
    | with_reducible apply ResMoves.refused
    | with_reducible apply ResMoves.ite
    | (with_reducible apply Moves.inSub ha; decide)
    | (with_reducible apply Moves.inSub hq; decide)
    | with_reducible apply Moves.foldl
    | with_reducible intro _
    | (with_reducible apply List.Subset.trans ?_ ha; decide)
    | (with_reducible apply List.Subset.trans ?_ hq; decide)
    | split
    | dsimp only

theorem execHardwareReset_moves (islandTemp : Int) (t : Nat) (s : State)
    (ha : [.tick, .imp, .forme, .fab, .pair, .pwr, .thm, .sec, .core, .events, .cal, .gal, .cmp, .col, .ddl, .gst, .prs, .oe, .lnk, .lsu] ⊆ as)
    (hq : [.presses, .jobs, .lateXfers, .drains, .mgtLast, .calJobs, .swaps, .spareNeeds, .links, .relays, .mgtJobs, .out, .freeCount] ⊆ ps)
    (h : Moves as ps s0 s) : ResMoves as ps s0 (execHardwareReset islandTemp t s) := by
  unfold execHardwareReset
  repeat' first
    | with_reducible assumption
    | with_reducible apply Moves.refl
    | with_reducible apply State.stamp_moves
    | with_reducible apply State.hardReset_moves
    | with_reducible apply Moves.wrAll
    | with_reducible apply areas_cons
    | with_reducible apply areas_nil
    | with_reducible apply Moves.ite
    | with_reducible apply ResMoves.next
    | with_reducible apply ResMoves.fault
    | with_reducible apply ResMoves.refused
    | with_reducible apply ResMoves.ite
    | (with_reducible apply Moves.inSub ha; decide)
    | (with_reducible apply Moves.inSub hq; decide)
    | with_reducible apply Moves.foldl
    | with_reducible intro _
    | (with_reducible apply List.Subset.trans ?_ ha; decide)
    | (with_reducible apply List.Subset.trans ?_ hq; decide)
    | split
    | dsimp only

theorem State.auxLost_moves (s : State)
    (ha : [.module, .tick, .imp, .forme, .fab, .pair, .pwr, .thm, .prf, .sec, .core, .irq, .events, .mgt, .cal, .chs, .gal, .cmp, .col, .ddl, .gst, .prs, .fin, .case, .oe, .lnk, .lsu, .mem] ⊆ as)
    (hq : [.mem, .presses, .active, .loaded, .pendingBytes, .jobs, .lateXfers, .heldAccs, .drains, .dirtyOut, .dirtyShared, .mirrorGot, .bases, .mgtLast, .log, .calJobs, .calRuns, .calFails, .ringErr, .mislocks, .swaps, .spareNeeds, .arrivals, .barDone, .barSent, .tokens, .links, .repairMap, .ceLog, .samples, .idleDebt, .droops, .flashQ, .images, .image, .upload, .snaps, .badWords, .relays, .early, .mgtJobs, .moe, .cache, .fades, .dropped, .freeCount] ⊆ ps)
    (h : Moves as ps s0 s) : Moves as ps s0 (State.auxLost s) := by
  unfold State.auxLost
  extract_lets r s1
  have k1 : Moves as ps s0 s1 := by
    unfold s1
    split
    · exact Moves.ite (fun _ => Moves.wr _ _ _ _ (ha (by decide)) (Moves.free _ (hq (by decide)) h))
        (fun _ => Moves.free _ (hq (by decide)) h)
    · exact Moves.set_images _ (hq (by decide)) h
    · exact h
  clear_value s1
  refine k1.trans ⟨⟨(fun f i j hf => absurd (ha (show f.area ∈ [.module, .tick, .imp, .forme, .fab, .pair, .pwr, .thm, .prf, .sec, .core, .irq,
      .events, .mgt, .cal, .chs, .gal, .cmp, .col, .ddl, .gst, .prs, .fin, .case, .oe, .lnk, .lsu, .mem] by
      cases f.area <;> decide)) hf), fun q hn => ?_⟩, fun hi => ?_⟩
  · cases q <;> first | rfl | exact absurd (hq (by decide)) hn
  · rw [State.inv_iff] at hi ⊢
    exact ⟨tableWf_filter _ _ hi.1, rfl, fun e he => nomatch he⟩

theorem execAuxLoss_moves (s : State)
    (ha : [.module, .tick, .imp, .forme, .fab, .pair, .pwr, .thm, .prf, .sec, .core, .irq, .events, .mgt, .cal, .chs, .gal, .cmp, .col, .ddl, .gst, .prs, .fin, .case, .oe, .lnk, .lsu, .mem] ⊆ as)
    (hq : [.mem, .presses, .active, .loaded, .pendingBytes, .jobs, .lateXfers, .heldAccs, .drains, .dirtyOut, .dirtyShared, .mirrorGot, .bases, .mgtLast, .log, .calJobs, .calRuns, .calFails, .ringErr, .mislocks, .swaps, .spareNeeds, .arrivals, .barDone, .barSent, .tokens, .links, .repairMap, .ceLog, .samples, .idleDebt, .droops, .flashQ, .images, .image, .upload, .snaps, .badWords, .relays, .early, .mgtJobs, .moe, .cache, .fades, .dropped, .freeCount] ⊆ ps)
    (h : Moves as ps s0 s) : ResMoves as ps s0 (execAuxLoss s) := by
  unfold execAuxLoss
  repeat' first
    | with_reducible assumption
    | with_reducible apply Moves.refl
    | with_reducible apply State.auxLost_moves
    | with_reducible apply Moves.ite
    | with_reducible apply ResMoves.next
    | with_reducible apply ResMoves.fault
    | with_reducible apply ResMoves.refused
    | with_reducible apply ResMoves.ite
    | (with_reducible apply Moves.inSub ha; decide)
    | (with_reducible apply Moves.inSub hq; decide)
    | with_reducible apply Moves.foldl
    | with_reducible intro _
    | (with_reducible apply List.Subset.trans ?_ ha; decide)
    | (with_reducible apply List.Subset.trans ?_ hq; decide)
    | split
    | dsimp only

theorem execRailDisableStep_moves (t : Nat) (s : State)
    (ha : [.module, .tick, .imp, .forme, .fab, .pair, .pwr, .thm, .prf, .sec, .core, .irq, .events, .mgt, .cal, .chs, .gal, .cmp, .col, .ddl, .gst, .prs, .fin, .case, .oe, .lnk, .lsu, .mem] ⊆ as)
    (hq : [.mem, .presses, .active, .loaded, .pendingBytes, .jobs, .lateXfers, .heldAccs, .drains, .dirtyOut, .dirtyShared, .mirrorGot, .bases, .log, .calJobs, .calRuns, .calFails, .ringErr, .mislocks, .swaps, .spareNeeds, .arrivals, .barDone, .barSent, .tokens, .links, .repairMap, .ceLog, .samples, .idleDebt, .droops, .image, .snaps, .badWords, .relays, .early, .mgtJobs, .moe, .cache, .fades, .dropped] ⊆ ps)
    (h : Moves as ps s0 s) : ResMoves as ps s0 (execRailDisableStep t s) := by
  unfold execRailDisableStep
  repeat' first
    | with_reducible assumption
    | with_reducible apply Moves.refl
    | with_reducible apply State.stamp_moves
    | with_reducible apply State.endPowerOff_moves
    | with_reducible apply Moves.wr
    | with_reducible apply Moves.ite
    | with_reducible apply ResMoves.next
    | with_reducible apply ResMoves.fault
    | with_reducible apply ResMoves.refused
    | with_reducible apply ResMoves.ite
    | (with_reducible apply Moves.inSub ha; decide)
    | (with_reducible apply Moves.inSub hq; decide)
    | with_reducible apply Moves.each
    | with_reducible apply Moves.foldl
    | with_reducible intro _
    | (with_reducible apply List.Subset.trans ?_ ha; decide)
    | (with_reducible apply List.Subset.trans ?_ hq; decide)
    | split
    | dsimp only

theorem execStageTimeout_moves (t : Nat) (s : State)
    (ha : [.module, .tick, .imp, .forme, .fab, .pair, .pwr, .thm, .prf, .sec, .core, .irq, .events, .mgt, .cal, .chs, .gal, .cmp, .col, .ddl, .gst, .prs, .fin, .case, .oe, .lnk, .lsu, .mem] ⊆ as)
    (hq : [.mem, .presses, .active, .loaded, .pendingBytes, .jobs, .lateXfers, .heldAccs, .drains, .dirtyOut, .dirtyShared, .mirrorGot, .bases, .mgtLast, .log, .calJobs, .calRuns, .calFails, .ringErr, .mislocks, .swaps, .spareNeeds, .arrivals, .barDone, .barSent, .tokens, .links, .repairMap, .ceLog, .samples, .idleDebt, .droops, .flashQ, .image, .snaps, .badWords, .relays, .early, .mgtJobs, .moe, .cache, .fades, .dropped, .out, .freeCount] ⊆ ps)
    (h : Moves as ps s0 s) : ResMoves as ps s0 (execStageTimeout t s) := by
  unfold execStageTimeout
  repeat' first
    | with_reducible assumption
    | with_reducible apply Moves.refl
    | with_reducible apply State.stamp_moves
    | with_reducible apply State.bootFail_moves
    | with_reducible apply State.powerOff_moves
    | with_reducible apply State.fatal_moves
    | with_reducible apply Moves.free
    | with_reducible apply Moves.ite
    | with_reducible apply ResMoves.next
    | with_reducible apply ResMoves.fault
    | with_reducible apply ResMoves.refused
    | with_reducible apply ResMoves.ite
    | (with_reducible apply Moves.inSub ha; decide)
    | (with_reducible apply Moves.inSub hq; decide)
    | with_reducible apply Moves.ite_snd
    | with_reducible apply Moves.foldl
    | with_reducible intro _
    | (with_reducible apply List.Subset.trans ?_ ha; decide)
    | (with_reducible apply List.Subset.trans ?_ hq; decide)
    | split
    | dsimp only

theorem State.newChallenge_moves (s : State)
    (ha : [.sec] ⊆ as)
    (hq : [.freeCount] ⊆ ps)
    (h : Moves as ps s0 s) : Moves as ps s0 (State.newChallenge s) := by
  unfold State.newChallenge
  repeat' first
    | with_reducible assumption
    | with_reducible apply Moves.refl
    | with_reducible apply Moves.wr
    | with_reducible apply Moves.free
    | with_reducible apply Moves.ite
    | (with_reducible apply Moves.inSub ha; decide)
    | (with_reducible apply Moves.inSub hq; decide)
    | with_reducible apply Moves.ite_snd
    | with_reducible apply Moves.foldl
    | with_reducible intro _
    | (with_reducible apply List.Subset.trans ?_ ha; decide)
    | (with_reducible apply List.Subset.trans ?_ hq; decide)
    | split
    | dsimp only

theorem execT0Reached_moves (t : Nat) (s : State)
    (ha : [.tick, .pair, .pwr, .sec] ⊆ as)
    (h : Moves as ps s0 s) : ResMoves as ps s0 (execT0Reached t s) := by
  unfold execT0Reached
  repeat' first
    | with_reducible assumption
    | with_reducible apply Moves.refl
    | with_reducible apply State.stamp_moves
    | with_reducible apply State.setSec_moves
    | with_reducible apply State.driveLine_moves
    | with_reducible apply Moves.wr
    | with_reducible apply Moves.wrAll
    | with_reducible apply areas_cons
    | with_reducible apply areas_nil
    | with_reducible apply Moves.ite
    | with_reducible apply ResMoves.next
    | with_reducible apply ResMoves.fault
    | with_reducible apply ResMoves.refused
    | with_reducible apply ResMoves.ite
    | (with_reducible apply Moves.inSub ha; decide)
    | with_reducible apply Moves.each
    | with_reducible apply Moves.foldl
    | with_reducible intro _
    | (with_reducible apply List.Subset.trans ?_ ha; decide)
    | split
    | dsimp only

theorem execLaserHeartbeatMiss_moves (u : Nat) (t : Nat) (s : State)
    (ha : [.tick, .imp, .forme, .fab, .pair, .sec, .core, .irq, .events, .cal, .gal, .cmp, .col, .ddl, .gst, .prs, .oe, .lnk, .lsu] ⊆ as)
    (hq : [.presses, .jobs, .lateXfers, .drains, .mgtLast, .calJobs, .swaps, .spareNeeds, .links, .relays, .mgtJobs, .out, .freeCount] ⊆ ps)
    (h : Moves as ps s0 s) : ResMoves as ps s0 (execLaserHeartbeatMiss u t s) := by
  unfold execLaserHeartbeatMiss
  repeat' first
    | with_reducible assumption
    | with_reducible apply Moves.refl
    | with_reducible apply State.irqDeliver_moves
    | with_reducible apply State.shutdown_moves
    | with_reducible apply State.stamp_moves
    | with_reducible apply Moves.orBit
    | with_reducible apply Moves.ite
    | with_reducible apply ResMoves.next
    | with_reducible apply ResMoves.fault
    | with_reducible apply ResMoves.refused
    | with_reducible apply ResMoves.ite
    | (with_reducible apply Moves.inSub ha; decide)
    | (with_reducible apply Moves.inSub hq; decide)
    | with_reducible apply Moves.foldl
    | with_reducible intro _
    | (with_reducible apply List.Subset.trans ?_ ha; decide)
    | (with_reducible apply List.Subset.trans ?_ hq; decide)
    | split
    | dsimp only

theorem State.senseIsland_moves (s : State)
    (ha : [.sec] ⊆ as)
    (hq : [.freeCount] ⊆ ps)
    (h : Moves as ps s0 s) : Moves as ps s0 (State.senseIsland s) := by
  unfold State.senseIsland
  repeat' first
    | with_reducible assumption
    | with_reducible apply Moves.refl
    | with_reducible apply Moves.wr
    | with_reducible apply Moves.free
    | with_reducible apply Moves.ite
    | (with_reducible apply Moves.inSub ha; decide)
    | (with_reducible apply Moves.inSub hq; decide)
    | with_reducible apply Moves.ite_snd
    | with_reducible apply Moves.foldl
    | with_reducible intro _
    | (with_reducible apply List.Subset.trans ?_ ha; decide)
    | (with_reducible apply List.Subset.trans ?_ hq; decide)
    | split
    | dsimp only

theorem execSecAttest_moves (t : Nat) (s : State)
    (ha : [.tick] ⊆ as)
    (hq : [.mem] ⊆ ps)
    (h : Moves as ps s0 s) : ResMoves as ps s0 (execSecAttest t s) := by
  unfold execSecAttest
  repeat' first
    | with_reducible assumption
    | with_reducible apply Moves.refl
    | with_reducible apply State.stamp_moves
    | with_reducible apply Moves.writeMem
    | with_reducible apply Moves.ite
    | with_reducible apply ResMoves.next
    | with_reducible apply ResMoves.fault
    | with_reducible apply ResMoves.refused
    | with_reducible apply ResMoves.ite
    | (with_reducible apply Moves.inSub ha; decide)
    | (with_reducible apply Moves.inSub hq; decide)
    | with_reducible apply Moves.foldl
    | with_reducible intro _
    | (with_reducible apply List.Subset.trans ?_ ha; decide)
    | (with_reducible apply List.Subset.trans ?_ hq; decide)
    | split
    | dsimp only

theorem State.mapWritten_moves (s : State) (l : List MapEntry) (codes : SMap RKey Nat)
    (ha : [.prf, .sec] ⊆ as)
    (hq : [.flashMap, .cache] ⊆ ps)
    (h : Moves as ps s0 s) : Moves as ps s0 (State.mapWritten s l codes) := by
  unfold State.mapWritten
  repeat' first
    | with_reducible assumption
    | with_reducible apply Moves.refl
    | with_reducible apply Moves.wrap
    | with_reducible apply Moves.wrAll
    | with_reducible apply areas_cons
    | with_reducible apply areas_nil
    | with_reducible apply Moves.ite
    | (with_reducible apply Moves.inSub ha; decide)
    | (with_reducible apply Moves.inSub hq; decide)
    | with_reducible apply Moves.foldl
    | with_reducible intro _
    | (with_reducible apply List.Subset.trans ?_ ha; decide)
    | (with_reducible apply List.Subset.trans ?_ hq; decide)
    | split
    | dsimp only
    | with_reducible apply Moves.set_flashMap
    | with_reducible apply Moves.set_cache
    | ((with_reducible apply Moves.update); on_goal 1 => (intro q hn; cases q <;> first | exact absurd (hq (by decide)) hn | rfl))

theorem execResetRelease_moves (t : Nat) (s : State)
    (ha : [.tick, .sec] ⊆ as)
    (h : Moves as ps s0 s) : ResMoves as ps s0 (execResetRelease t s) := by
  unfold execResetRelease
  repeat' first
    | with_reducible assumption
    | with_reducible apply Moves.refl
    | with_reducible apply State.stamp_moves
    | with_reducible apply State.setSec_moves
    | with_reducible apply Moves.wr
    | with_reducible apply Moves.ite
    | with_reducible apply ResMoves.next
    | with_reducible apply ResMoves.fault
    | with_reducible apply ResMoves.refused
    | with_reducible apply ResMoves.ite
    | (with_reducible apply Moves.inSub ha; decide)
    | with_reducible apply Moves.foldl
    | with_reducible intro _
    | (with_reducible apply List.Subset.trans ?_ ha; decide)
    | split
    | dsimp only

theorem execSecReady_moves (t : Nat) (s : State)
    (ha : [.tick, .sec] ⊆ as)
    (h : Moves as ps s0 s) : ResMoves as ps s0 (execSecReady t s) := by
  unfold execSecReady
  repeat' first
    | with_reducible assumption
    | with_reducible apply Moves.refl
    | with_reducible apply State.stamp_moves
    | with_reducible apply State.setSec_moves
    | with_reducible apply Moves.wr
    | with_reducible apply Moves.ite
    | with_reducible apply ResMoves.next
    | with_reducible apply ResMoves.fault
    | with_reducible apply ResMoves.refused
    | with_reducible apply ResMoves.ite
    | (with_reducible apply Moves.inSub ha; decide)
    | with_reducible apply Moves.foldl
    | with_reducible intro _
    | (with_reducible apply List.Subset.trans ?_ ha; decide)
    | split
    | dsimp only

theorem State.answerRequest_moves (s : State) (result : Nat)
    (ha : [.sec] ⊆ as)
    (h : Moves as ps s0 s) : Moves as ps s0 (State.answerRequest s result) := by
  unfold State.answerRequest
  repeat' first
    | with_reducible assumption
    | with_reducible apply Moves.refl
    | with_reducible apply Moves.wr
    | with_reducible apply Moves.ite
    | (with_reducible apply Moves.inSub ha; decide)
    | with_reducible apply Moves.foldl
    | with_reducible intro _
    | (with_reducible apply List.Subset.trans ?_ ha; decide)
    | split
    | dsimp only

theorem State.flashFailed_moves (s : State) (j : FlashJob)
    (ha : [.prf, .sec] ⊆ as)
    (hq : [.images] ⊆ ps)
    (h : Moves as ps s0 s) : Moves as ps s0 (State.flashFailed s j) := by
  unfold State.flashFailed
  repeat' first
    | with_reducible assumption
    | with_reducible apply Moves.refl
    | with_reducible apply State.answerRequest_moves
    | with_reducible apply Moves.wr
    | with_reducible apply Moves.ite
    | (with_reducible apply Moves.inSub ha; decide)
    | (with_reducible apply Moves.inSub hq; decide)
    | with_reducible apply Moves.foldl
    | with_reducible intro _
    | (with_reducible apply List.Subset.trans ?_ ha; decide)
    | (with_reducible apply List.Subset.trans ?_ hq; decide)
    | split
    | dsimp only
    | with_reducible apply Moves.set_images

theorem execCounterWriteTimeout_moves (t : Nat) (s : State)
    (ha : [.tick, .imp, .forme, .fab, .pair, .pwr, .prf, .sec, .irq, .events, .cal, .cmp, .col, .prs, .oe, .lnk, .lsu, .mem] ⊆ as)
    (hq : [.presses, .loaded, .pendingBytes, .jobs, .lateXfers, .drains, .calJobs, .calRuns, .swaps, .spareNeeds, .barSent, .links, .repairMap, .flashQ, .images, .relays, .freeCount] ⊆ ps)
    (h : Moves as ps s0 s) : ResMoves as ps s0 (execCounterWriteTimeout t s) := by
  unfold execCounterWriteTimeout
  repeat' first
    | with_reducible assumption
    | with_reducible apply Moves.refl
    | with_reducible apply State.stamp_moves
    | with_reducible apply State.irqDeliver_moves
    | with_reducible apply State.startFlash_moves
    | with_reducible apply State.flashFailed_moves
    | with_reducible apply State.releaseSwitch_moves
    | with_reducible apply State.refuse_moves
    | with_reducible apply Moves.ite
    | with_reducible apply ResMoves.next
    | with_reducible apply ResMoves.fault
    | with_reducible apply ResMoves.refused
    | with_reducible apply ResMoves.ite
    | (with_reducible apply Moves.inSub ha; decide)
    | (with_reducible apply Moves.inSub hq; decide)
    | with_reducible apply Moves.foldl
    | with_reducible intro _
    | (with_reducible apply List.Subset.trans ?_ ha; decide)
    | (with_reducible apply List.Subset.trans ?_ hq; decide)
    | split
    | dsimp only
    | with_reducible apply Moves.set_flashQ

theorem execFwCommit_moves (t : Nat) (s : State)
    (ha : [.tick, .prf] ⊆ as)
    (hq : [.repairMap, .flashQ] ⊆ ps)
    (h : Moves as ps s0 s) : ResMoves as ps s0 (execFwCommit t s) := by
  unfold execFwCommit
  repeat' first
    | with_reducible assumption
    | with_reducible apply Moves.refl
    | with_reducible apply State.stamp_moves
    | with_reducible apply State.queueFlash_moves
    | with_reducible apply Moves.ite
    | with_reducible apply ResMoves.next
    | with_reducible apply ResMoves.fault
    | with_reducible apply ResMoves.refused
    | with_reducible apply ResMoves.ite
    | (with_reducible apply Moves.inSub ha; decide)
    | (with_reducible apply Moves.inSub hq; decide)
    | with_reducible apply Moves.foldl
    | with_reducible intro _
    | (with_reducible apply List.Subset.trans ?_ ha; decide)
    | (with_reducible apply List.Subset.trans ?_ hq; decide)
    | split
    | dsimp only

theorem State.flashDone_moves (s : State) (j : FlashJob) (t : Nat)
    (ha : [.module, .pair, .pwr, .prf, .sec, .core, .events, .cal, .chs, .ddl, .prs, .oe, .lnk, .lsu, .mem] ⊆ as)
    (hq : [.presses, .calJobs, .calRuns, .swaps, .spareNeeds, .links, .repairMap, .flashQ, .keys, .images, .flashMap, .cache, .freeCount] ⊆ ps)
    (h : Moves as ps s0 s) : Moves as ps s0 (State.flashDone s j t) := by
  unfold State.flashDone
  repeat' first
    | with_reducible assumption
    | with_reducible apply Moves.refl
    | with_reducible apply State.answerRequest_moves
    | with_reducible apply State.showKeys_moves
    | with_reducible apply State.mapWritten_moves
    | with_reducible apply State.restartFour_moves
    | with_reducible apply Moves.wr
    | with_reducible apply Moves.ite
    | (with_reducible apply Moves.inSub ha; decide)
    | (with_reducible apply Moves.inSub hq; decide)
    | with_reducible apply Moves.foldl
    | with_reducible intro _
    | (with_reducible apply List.Subset.trans ?_ ha; decide)
    | (with_reducible apply List.Subset.trans ?_ hq; decide)
    | split
    | dsimp only
    | with_reducible apply Moves.set_keys
    | with_reducible apply Moves.set_images
    | ((with_reducible apply Moves.update); on_goal 1 => (intro q hn; cases q <;> first | exact absurd (hq (by decide)) hn | rfl))

theorem execSecAlert_moves (s : State)
    (ha : [.sec, .irq] ⊆ as)
    (h : Moves as ps s0 s) : ResMoves as ps s0 (execSecAlert s) := by
  unfold execSecAlert
  repeat' first
    | with_reducible assumption
    | with_reducible apply Moves.refl
    | with_reducible apply State.irqDeliver_moves
    | with_reducible apply State.alert_moves
    | with_reducible apply Moves.ite
    | with_reducible apply ResMoves.next
    | with_reducible apply ResMoves.fault
    | with_reducible apply ResMoves.refused
    | with_reducible apply ResMoves.ite
    | (with_reducible apply Moves.inSub ha; decide)
    | with_reducible apply Moves.foldl
    | with_reducible intro _
    | (with_reducible apply List.Subset.trans ?_ ha; decide)
    | split
    | dsimp only

theorem execAuxPowerOn_moves (strap : Nat) (fail : Nat) (s : State)
    (ha : [.module, .tick, .imp, .forme, .fab, .pair, .pwr, .thm, .prf, .sec, .core, .irq, .events, .mgt, .cal, .chs, .gal, .cmp, .col, .ddl, .gst, .prs, .fin, .case, .oe, .lnk, .lsu, .mem] ⊆ as)
    (hq : [.mem, .presses, .active, .loaded, .pendingBytes, .jobs, .lateXfers, .heldAccs, .drains, .dirtyOut, .dirtyShared, .mirrorGot, .bases, .mgtLast, .log, .calJobs, .calRuns, .calFails, .ringErr, .mislocks, .swaps, .spareNeeds, .arrivals, .barDone, .barSent, .tokens, .links, .repairMap, .ceLog, .samples, .idleDebt, .droops, .flashQ, .images, .image, .upload, .snaps, .badWords, .relays, .early, .mgtJobs, .moe, .cache, .fades, .dropped, .freeCount] ⊆ ps)
    (h : Moves as ps s0 s) : ResMoves as ps s0 (execAuxPowerOn strap fail s) := by
  unfold execAuxPowerOn
  repeat' first
    | with_reducible assumption
    | with_reducible apply Moves.refl
    | with_reducible apply State.auxLost_moves
    | with_reducible apply State.newChallenge_moves
    | with_reducible apply State.bootFail_moves
    | with_reducible apply Moves.wrAll
    | with_reducible apply areas_cons
    | with_reducible apply areas_nil
    | with_reducible apply Moves.ite
    | with_reducible apply ResMoves.next
    | with_reducible apply ResMoves.fault
    | with_reducible apply ResMoves.refused
    | with_reducible apply ResMoves.ite
    | (with_reducible apply Moves.inSub ha; decide)
    | (with_reducible apply Moves.inSub hq; decide)
    | with_reducible apply Moves.foldl
    | with_reducible intro _
    | (with_reducible apply List.Subset.trans ?_ ha; decide)
    | (with_reducible apply List.Subset.trans ?_ hq; decide)
    | split
    | dsimp only

theorem execFlashWriteComplete_moves (ok : Bool) (t : Nat) (s : State)
    (ha : [.module, .tick, .pair, .pwr, .prf, .sec, .core, .irq, .events, .cal, .chs, .ddl, .prs, .oe, .lnk, .lsu, .mem] ⊆ as)
    (hq : [.presses, .calJobs, .calRuns, .swaps, .spareNeeds, .links, .repairMap, .flashQ, .keys, .images, .flashMap, .cache, .freeCount] ⊆ ps)
    (h : Moves as ps s0 s) : ResMoves as ps s0 (execFlashWriteComplete ok t s) := by
  unfold execFlashWriteComplete
  repeat' first
    | with_reducible assumption
    | with_reducible apply Moves.refl
    | with_reducible apply State.stamp_moves
    | with_reducible apply State.irqDeliver_moves
    | with_reducible apply State.startFlash_moves
    | with_reducible apply State.flashDone_moves
    | with_reducible apply State.flashFailed_moves
    | with_reducible apply Moves.ite
    | with_reducible apply ResMoves.next
    | with_reducible apply ResMoves.fault
    | with_reducible apply ResMoves.refused
    | with_reducible apply ResMoves.ite
    | (with_reducible apply Moves.inSub ha; decide)
    | (with_reducible apply Moves.inSub hq; decide)
    | with_reducible apply Moves.foldl
    | with_reducible intro _
    | (with_reducible apply List.Subset.trans ?_ ha; decide)
    | (with_reducible apply List.Subset.trans ?_ hq; decide)
    | split
    | dsimp only
    | with_reducible apply Moves.set_flashQ

theorem execRailEnableStep_moves (good : Bool) (t : Nat) (s : State)
    (ha : [.tick, .imp, .forme, .fab, .pair, .pwr, .sec, .core, .events, .cal, .gal, .cmp, .col, .ddl, .gst, .prs, .oe, .lnk, .lsu] ⊆ as)
    (hq : [.presses, .jobs, .lateXfers, .drains, .mgtLast, .calJobs, .swaps, .spareNeeds, .links, .relays, .mgtJobs, .out, .freeCount] ⊆ ps)
    (h : Moves as ps s0 s) : ResMoves as ps s0 (execRailEnableStep good t s) := by
  unfold execRailEnableStep
  repeat' first
    | with_reducible assumption
    | with_reducible apply Moves.refl
    | with_reducible apply State.stamp_moves
    | with_reducible apply State.powerOff_moves
    | with_reducible apply Moves.wr
    | with_reducible apply Moves.ite
    | with_reducible apply ResMoves.next
    | with_reducible apply ResMoves.fault
    | with_reducible apply ResMoves.refused
    | with_reducible apply ResMoves.ite
    | (with_reducible apply Moves.inSub ha; decide)
    | (with_reducible apply Moves.inSub hq; decide)
    | with_reducible apply Moves.each
    | with_reducible apply Moves.foldl
    | with_reducible intro _
    | (with_reducible apply List.Subset.trans ?_ ha; decide)
    | (with_reducible apply List.Subset.trans ?_ hq; decide)
    | split
    | dsimp only

end Sys2Proof.Machine
end

