-- ==== Sys2Proof/Laws/MovesRegs.lean ====
section
/-!
SUPPORT. Footprints of the operations of Machine/Regs.lean.
-/

namespace Sys2Proof.Machine

variable {as : List Area} {ps : List Part} {s0 : State}

theorem State.unmapped_moves (s : State) (who : Nat) (a : Nat) (store : Bool)
    (ha : [.module] ⊆ as)
    (h : Moves as ps s0 s) : Moves as ps s0 (State.unmapped s who a store) := by
  unfold State.unmapped
  repeat' first
    | with_reducible assumption
    | with_reducible apply Moves.refl
    | with_reducible apply Moves.bump
    | with_reducible apply Moves.wrAll
    | with_reducible apply areas_cons
    | with_reducible apply areas_nil
    | with_reducible apply Moves.ite
    | (with_reducible apply Moves.inSub ha; decide)
    | with_reducible apply Moves.foldl
    | with_reducible intro _
    | (with_reducible apply List.Subset.trans ?_ ha; decide)
    | split
    | dsimp only

theorem State.storeField_moves (s : State) (who : Nat) (h' : Hit) (x : Slot) (lo : Nat) (w : Nat) (v : Nat)
    (ha : [.module, .tick, .imp, .forme, .fab, .pair, .pwr, .thm, .prf, .sec, .core, .irq, .events, .mgt, .cal, .chs, .gal, .cmp, .col, .ddl, .gst, .prs, .fin, .case, .oe, .lnk, .lsu, .mem] ⊆ as)
    (h : Moves as ps s0 s) : Moves as ps s0 (State.storeField s who h' x lo w v) := by
  have hall : ∀ g : Field, g.area ∈ as := fun g => ha (show g.area ∈ [.module, .tick, .imp, .forme, .fab, .pair,
      .pwr, .thm, .prf, .sec, .core, .irq, .events, .mgt, .cal, .chs, .gal, .cmp, .col, .ddl, .gst, .prs, .fin,
      .case, .oe, .lnk, .lsu, .mem] by cases g.area <;> decide)
  unfold State.storeField
  dsimp only
  split
  · exact Moves.ite (fun _ => h) (fun _ => Moves.wr _ _ _ _ (hall _) h)
  · exact Moves.wr _ _ _ _ (hall _) h
  · exact h

theorem State.after_moves (s : State) (f : State → Res)
    (hr : ∀ x0, Moves as ps s0 x0 → ResMoves as ps s0 (f x0))
    (h : Moves as ps s0 s) : Moves as ps s0 (State.after s f) := by
  unfold State.after
  split
  · rename_i t ht
    exact hr s h t ht
  · exact h

theorem State.keyCommand_moves (s : State) (t : Nat)
    (ha : [.tick, .prf, .sec] ⊆ as)
    (hq : [.repairMap, .flashQ, .freeCount] ⊆ ps)
    (h : Moves as ps s0 s) : Moves as ps s0 (State.keyCommand s t) := by
  unfold State.keyCommand
  repeat' first
    | with_reducible assumption
    | with_reducible apply Moves.refl
    | with_reducible apply State.after_moves
    | with_reducible apply execKeyClaim_moves
    | with_reducible apply execKeyTransfer_moves
    | with_reducible apply execKeyAdd_moves
    | with_reducible apply execKeyRemove_moves
    | with_reducible apply execKeyEpoch_moves
    | with_reducible apply Moves.ite
    | (with_reducible apply Moves.inSub ha; decide)
    | (with_reducible apply Moves.inSub hq; decide)
    | with_reducible apply Moves.foldl
    | with_reducible intro _
    | (with_reducible apply List.Subset.trans ?_ ha; decide)
    | (with_reducible apply List.Subset.trans ?_ hq; decide)
    | split
    | dsimp only

theorem State.startCore_moves (s : State) (n : Nat)
    (ha : [.module, .core] ⊆ as)
    (h : Moves as ps s0 s) : Moves as ps s0 (State.startCore s n) := by
  unfold State.startCore
  repeat' first
    | with_reducible assumption
    | with_reducible apply Moves.refl
    | with_reducible apply Moves.wr
    | with_reducible apply Moves.ite
    | (with_reducible apply Moves.inSub ha; decide)
    | with_reducible apply Moves.foldl
    | with_reducible intro _
    | (with_reducible apply List.Subset.trans ?_ ha; decide)
    | split
    | dsimp only

theorem State.retireCore_moves (s : State) (n : Nat)
    (ha : [.core] ⊆ as)
    (hq : [.badWords] ⊆ ps)
    (h : Moves as ps s0 s) : Moves as ps s0 (State.retireCore s n) := by
  unfold State.retireCore
  repeat' first
    | with_reducible assumption
    | with_reducible apply Moves.refl
    | with_reducible apply Moves.wr
    | with_reducible apply Moves.ite
    | (with_reducible apply Moves.inSub ha; decide)
    | (with_reducible apply Moves.inSub hq; decide)
    | with_reducible apply Moves.foldl
    | with_reducible intro _
    | (with_reducible apply List.Subset.trans ?_ ha; decide)
    | (with_reducible apply List.Subset.trans ?_ hq; decide)
    | split
    | dsimp only
    | with_reducible apply Moves.set_badWords

theorem State.timerLevel_moves (s : State) (n : Nat)
    (ha : [.core] ⊆ as)
    (h : Moves as ps s0 s) : Moves as ps s0 (State.timerLevel s n) := by
  unfold State.timerLevel
  repeat' first
    | with_reducible assumption
    | with_reducible apply Moves.refl
    | with_reducible apply Moves.wr
    | with_reducible apply Moves.ite
    | (with_reducible apply Moves.inSub ha; decide)
    | with_reducible apply Moves.foldl
    | with_reducible intro _
    | (with_reducible apply List.Subset.trans ?_ ha; decide)
    | split
    | dsimp only

theorem State.storeAct_moves (s : State) (h' : Hit) (c : Nat) (t : Nat)
    (ha : [.module, .tick, .imp, .forme, .fab, .pair, .pwr, .prf, .sec, .core, .irq, .events, .cal, .cmp, .col, .ddl, .prs, .oe, .lnk, .lsu, .mem] ⊆ as)
    (hq : [.mem, .presses, .loaded, .pendingBytes, .jobs, .lateXfers, .drains, .calJobs, .calRuns, .swaps, .spareNeeds, .barSent, .links, .repairMap, .flashQ, .badWords, .relays, .out, .freeCount] ⊆ ps)
    (h : Moves as ps s0 s) : Moves as ps s0 (State.storeAct s h' c t) := by
  unfold State.storeAct
  dsimp only
  split
  · split
    · exact State.after_moves _ _ (fun x hx => execImpLoad_moves _ _ (List.Subset.trans (by decide) ha) (List.Subset.trans (by decide) hq) hx) h
    · exact State.after_moves _ _ (fun x hx => execImpCommit_moves _ _ (List.Subset.trans (by decide) ha) (List.Subset.trans (by decide) hq) hx) h
    · exact State.after_moves _ _ (fun x hx => execImpDiscard_moves _ _ (List.Subset.trans (by decide) ha) (List.Subset.trans (by decide) hq) hx) h
    · exact h
  · split
    · exact State.after_moves _ _ (fun x hx => execFormeStart_moves _ _ _ (List.Subset.trans (by decide) ha) (List.Subset.trans (by decide) hq) hx) h
    · exact State.after_moves _ _ (fun x hx => execFormeHold_moves _ _ _ (List.Subset.trans (by decide) ha) (List.Subset.trans (by decide) hq) hx) h
    · exact State.after_moves _ _ (fun x hx => execFormeResume_moves _ _ _ (List.Subset.trans (by decide) ha) (List.Subset.trans (by decide) hq) hx) h
    · exact State.after_moves _ _ (fun x hx => execFormePark_moves _ _ _ (List.Subset.trans (by decide) ha) (List.Subset.trans (by decide) hq) hx) h
    · exact h
  · exact State.after_moves _ _ (fun x hx => execIdentityWrite_moves _ _ (List.Subset.trans (by decide) ha) hx) h
  · split
    · exact State.after_moves _ _ (fun x hx => execPairActive_moves _ _ (List.Subset.trans (by decide) ha) (List.Subset.trans (by decide) hq) hx) h
    · exact State.after_moves _ _ (fun x hx => execPairStandby_moves _ _ (List.Subset.trans (by decide) ha) (List.Subset.trans (by decide) hq) hx) h
    · exact State.after_moves _ _ (fun x hx => execPairSwap_moves _ _ _ (List.Subset.trans (by decide) ha) (List.Subset.trans (by decide) hq) hx) h
    · exact State.after_moves _ _ (fun x hx => execPairYield_moves _ _ (List.Subset.trans (by decide) ha) (List.Subset.trans (by decide) hq) hx) h
    · exact h
  · exact State.after_moves _ _ (fun x hx => execPwrCtrlWrite_moves _ _ (List.Subset.trans (by decide) ha) hx) h
  · split
    · exact State.after_moves _ _ (fun x hx => execLoopback_moves _ _ _ (List.Subset.trans (by decide) ha) hx) h
    · exact State.after_moves _ _ (fun x hx => execClearMap_moves _ (List.Subset.trans (by decide) ha) hx) h
    · exact h
  · split
    · exact State.after_moves _ _ (fun x hx => execSecReady_moves _ _ (List.Subset.trans (by decide) ha) hx) h
    · exact State.after_moves _ _ (fun x hx => execFwCommit_moves _ _ (List.Subset.trans (by decide) ha) (List.Subset.trans (by decide) hq) hx) h
    · exact State.keyCommand_moves _ _ (List.Subset.trans (by decide) ha) (List.Subset.trans (by decide) hq) h
    · exact State.after_moves _ _ (fun x hx => execSecAttest_moves _ _ (List.Subset.trans (by decide) ha) (List.Subset.trans (by decide) hq) hx) h
    · exact State.after_moves _ _ (fun x hx => execSecAlert_moves _ (List.Subset.trans (by decide) ha) hx) h
    · exact h
  · exact State.alertPin_moves _ (List.Subset.trans (by decide) ha) h
  · split
    · exact State.startCore_moves _ _ (List.Subset.trans (by decide) ha) h
    · exact State.retireCore_moves _ _ (List.Subset.trans (by decide) ha) (List.Subset.trans (by decide) hq) h
    · exact h
  · exact State.timerLevel_moves _ _ (List.Subset.trans (by decide) ha) h
  · exact State.after_moves _ _ (fun x hx => execOeCalCtrlWrite_moves _ _ _ (List.Subset.trans (by decide) ha) hx) h
  · split
    · exact State.after_moves _ _ (fun x hx => execRetrain_moves _ _ _ (List.Subset.trans (by decide) ha) (List.Subset.trans (by decide) hq) hx) h
    · exact State.after_moves _ _ (fun x hx => execClearMismatch_moves _ _ _ (List.Subset.trans (by decide) ha) (List.Subset.trans (by decide) hq) hx) h
    · exact h
  · split
    · exact State.after_moves _ _ (fun x hx => execDrainUnit_moves _ _ _ (List.Subset.trans (by decide) ha) (List.Subset.trans (by decide) hq) hx) h
    · exact State.after_moves _ _ (fun x hx => execLsuRestore_moves _ _ _ (List.Subset.trans (by decide) ha) (List.Subset.trans (by decide) hq) hx) h
    · exact State.after_moves _ _ (fun x hx => execRelight_moves _ _ (List.Subset.trans (by decide) ha) (List.Subset.trans (by decide) hq) hx) h
    · exact h
  · exact State.after_moves _ _ (fun x hx => execGuestPost_moves _ _ _ (List.Subset.trans (by decide) ha) (List.Subset.trans (by decide) hq) hx) h
  · exact h

theorem State.storeHit_moves (s : State) (who : Nat) (h' : Hit) (size : Nat) (v : Nat) (t : Nat)
    (ha : [.module, .tick, .imp, .forme, .fab, .pair, .pwr, .thm, .prf, .sec, .core, .irq, .events, .mgt, .cal, .chs, .gal, .cmp, .col, .ddl, .gst, .prs, .fin, .case, .oe, .lnk, .lsu, .mem] ⊆ as)
    (hq : [.mem, .presses, .loaded, .pendingBytes, .jobs, .lateXfers, .drains, .calJobs, .calRuns, .swaps, .spareNeeds, .barSent, .links, .repairMap, .flashQ, .badWords, .relays, .out, .freeCount] ⊆ ps)
    (h : Moves as ps s0 s) : Moves as ps s0 (State.storeHit s who h' size v t) := by
  unfold State.storeHit
  repeat' first
    | with_reducible assumption
    | with_reducible apply Moves.refl
    | with_reducible apply State.storeField_moves
    | with_reducible apply State.storeAct_moves
    | with_reducible apply Moves.ite
    | (with_reducible apply Moves.inSub ha; decide)
    | (with_reducible apply Moves.inSub hq; decide)
    | with_reducible apply Moves.foldl
    | with_reducible intro _
    | (with_reducible apply List.Subset.trans ?_ ha; decide)
    | (with_reducible apply List.Subset.trans ?_ hq; decide)
    | split
    | dsimp only

theorem State.ctlStore_moves (s : State) (who a size v t : Nat) (r : State)
    (ha : [.module, .tick, .imp, .forme, .fab, .pair, .pwr, .thm, .prf, .sec, .core, .irq, .events, .mgt, .cal, .chs, .gal, .cmp, .col, .ddl, .gst, .prs, .fin, .case, .oe, .lnk, .lsu, .mem] ⊆ as)
    (hq : [.mem, .presses, .loaded, .pendingBytes, .jobs, .lateXfers, .drains, .calJobs, .calRuns, .swaps, .spareNeeds, .barSent, .links, .repairMap, .flashQ, .badWords, .relays, .out, .freeCount] ⊆ ps)
    (h : Moves as ps s0 s) (hr : State.ctlStore s who a size v t = some r) : Moves as ps s0 r := by
  unfold State.ctlStore at hr
  split at hr
  · cases hr
  · split at hr
    · cases hr
      exact State.unmapped_moves _ _ _ _ (List.Subset.trans (by decide) ha) h
    · split at hr
      · cases hr
      · rw [← Option.some.inj hr]
        refine State.irqDeliver_moves _ ?_ ?_
        · exact List.Subset.trans (by decide) ha
        · refine Moves.each _ _ (fun x e hx => ?_) h
          refine State.storeHit_moves _ _ _ _ _ _ ?_ ?_ hx
          · exact ha
          · exact hq

theorem State.ctlStore_getD (s u : State) (who a size v t : Nat)
    (ha : [.module, .tick, .imp, .forme, .fab, .pair, .pwr, .thm, .prf, .sec, .core, .irq, .events, .mgt, .cal, .chs, .gal, .cmp, .col, .ddl, .gst, .prs, .fin, .case, .oe, .lnk, .lsu, .mem] ⊆ as)
    (hq : [.mem, .presses, .loaded, .pendingBytes, .jobs, .lateXfers, .drains, .calJobs, .calRuns, .swaps, .spareNeeds, .barSent, .links, .repairMap, .flashQ, .badWords, .relays, .out, .freeCount] ⊆ ps)
    (h : Moves as ps s0 s) (hu : Moves as ps s0 u) :
    Moves as ps s0 ((State.ctlStore s who a size v t).getD u) := by
  cases hr : State.ctlStore s who a size v t with
  | none => exact hu
  | some r => exact State.ctlStore_moves s who a size v t r ha hq h hr

theorem State.formFault_moves (s : State) (who : Nat) (a : Nat)
    (ha : [.core] ⊆ as)
    (h : Moves as ps s0 s) : Moves as ps s0 (State.formFault s who a) := by
  unfold State.formFault
  repeat' first
    | with_reducible assumption
    | with_reducible apply Moves.refl
    | with_reducible apply State.coreFault_moves
    | with_reducible apply Moves.ite
    | (with_reducible apply Moves.inSub ha; decide)
    | with_reducible apply Moves.foldl
    | with_reducible intro _
    | (with_reducible apply List.Subset.trans ?_ ha; decide)
    | split
    | dsimp only

theorem State.storeFor_moves (s : State) (who : Nat) (a : Nat) (size : Nat) (v : Nat) (t : Nat)
    (ha : [.module, .tick, .imp, .forme, .fab, .pair, .pwr, .thm, .prf, .sec, .core, .irq, .events, .mgt, .cal, .chs, .gal, .cmp, .col, .ddl, .gst, .prs, .fin, .case, .oe, .lnk, .lsu, .mem] ⊆ as)
    (hq : [.mem, .presses, .loaded, .pendingBytes, .jobs, .lateXfers, .drains, .calJobs, .calRuns, .swaps, .spareNeeds, .barSent, .links, .repairMap, .flashQ, .badWords, .relays, .out, .freeCount] ⊆ ps)
    (h : Moves as ps s0 s) : Moves as ps s0 (State.storeFor s who a size v t) := by
  exact State.ctlStore_getD _ _ _ _ _ _ _ (List.Subset.trans (by decide) ha)
    (List.Subset.trans (by decide) hq) h (State.formFault_moves _ _ _ (List.Subset.trans (by decide) ha) h)

theorem execGroupWrite_moves (who : Nat) (addr : Nat) (size : Nat) (value : Nat) (t : Nat) (s : State)
    (ha : [.module, .tick, .imp, .forme, .fab, .pair, .pwr, .thm, .prf, .sec, .core, .irq, .events, .mgt, .cal, .chs, .gal, .cmp, .col, .ddl, .gst, .prs, .fin, .case, .oe, .lnk, .lsu, .mem] ⊆ as)
    (hq : [.mem, .presses, .loaded, .pendingBytes, .jobs, .lateXfers, .drains, .calJobs, .calRuns, .swaps, .spareNeeds, .barSent, .links, .repairMap, .flashQ, .badWords, .relays, .out, .freeCount] ⊆ ps)
    (h : Moves as ps s0 s) : ResMoves as ps s0 (execGroupWrite who addr size value t s) := by
  unfold execGroupWrite
  repeat' first
    | with_reducible assumption
    | with_reducible apply Moves.refl
    | with_reducible apply State.storeFor_moves
    | with_reducible apply State.stamp_moves
    | with_reducible apply Moves.ite
    | with_reducible apply ResMoves.next
    | with_reducible apply ResMoves.fault
    | with_reducible apply ResMoves.refused
    | with_reducible apply ResMoves.ite
    | (with_reducible apply Moves.inSub ha; decide)
    | (with_reducible apply Moves.inSub hq; decide)
    | with_reducible apply Moves.foldl
    | with_reducible intro _
    | (with_reducible apply List.Subset.trans ?_ ha; decide)
    | (with_reducible apply List.Subset.trans ?_ hq; decide)
    | split
    | dsimp only

theorem State.snapAfter_moves (s : State) (who : Nat) (a : Nat) (size : Nat) (h' : Hit) (vals : List Nat)
    (hq : [.snaps] ⊆ ps)
    (h : Moves as ps s0 s) : Moves as ps s0 (State.snapAfter s who a size h' vals) := by
  unfold State.snapAfter
  repeat' first
    | with_reducible assumption
    | with_reducible apply Moves.refl
    | with_reducible apply Moves.ite
    | (with_reducible apply Moves.inSub hq; decide)
    | with_reducible apply Moves.foldl
    | with_reducible intro _
    | (with_reducible apply List.Subset.trans ?_ hq; decide)
    | split
    | dsimp only
    | with_reducible apply Moves.set_snaps

theorem State.setMismatch_moves (s : State) (who : Nat)
    (ha : [.core, .mgt] ⊆ as)
    (h : Moves as ps s0 s) : Moves as ps s0 (State.setMismatch s who) := by
  unfold State.setMismatch
  repeat' first
    | with_reducible assumption
    | with_reducible apply Moves.refl
    | with_reducible apply Moves.wr
    | with_reducible apply Moves.ite
    | (with_reducible apply Moves.inSub ha; decide)
    | with_reducible apply Moves.foldl
    | with_reducible intro _
    | (with_reducible apply List.Subset.trans ?_ ha; decide)
    | split
    | dsimp only

theorem State.ctlLoad_moves (s : State) (who a size : Nat) (r : Nat × Bool × State)
    (ha : [.module, .core, .mgt] ⊆ as)
    (hq : [.snaps] ⊆ ps)
    (h : Moves as ps s0 s) (hr : State.ctlLoad s who a size = some r) : Moves as ps s0 r.2.2 := by
  unfold State.ctlLoad at hr
  dsimp only at hr
  split at hr
  · cases hr
  · split at hr
    · cases hr
      exact State.unmapped_moves _ _ _ _ (List.Subset.trans (by decide) ha) (Moves.set_snaps _ (hq (by decide)) h)
    · split at hr
      · cases hr
      · cases hr
        have k : ∀ n l, Moves as ps s0 (s.snapAfter who a size n l) := fun n l =>
          State.snapAfter_moves _ _ _ _ _ _ (List.Subset.trans (by decide) hq) h
        exact Moves.ite (fun _ => State.setMismatch_moves _ _ (List.Subset.trans (by decide) ha) (k _ _))
          (fun _ => k _ _)

theorem State.loadFor_moves (s : State) (who : Nat) (a : Nat) (size : Nat)
    (ha : [.module, .core, .mgt] ⊆ as)
    (hq : [.snaps, .out] ⊆ ps)
    (h : Moves as ps s0 s) : Moves as ps s0 (State.loadFor s who a size) := by
  unfold State.loadFor
  split
  · rename_i hr
    exact State.send_moves _ _ (List.Subset.trans (by decide) hq)
      (State.ctlLoad_moves _ _ _ _ _ (List.Subset.trans (by decide) ha) (List.Subset.trans (by decide) hq) h hr)
  · exact State.formFault_moves _ _ _ (List.Subset.trans (by decide) ha) h

theorem execGroupRead_moves (who : Nat) (addr : Nat) (size : Nat) (s : State)
    (ha : [.module, .core, .mgt] ⊆ as)
    (hq : [.snaps, .out] ⊆ ps)
    (h : Moves as ps s0 s) : ResMoves as ps s0 (execGroupRead who addr size s) := by
  unfold execGroupRead
  repeat' first
    | with_reducible assumption
    | with_reducible apply Moves.refl
    | with_reducible apply State.loadFor_moves
    | with_reducible apply Moves.ite
    | with_reducible apply ResMoves.next
    | with_reducible apply ResMoves.fault
    | with_reducible apply ResMoves.refused
    | with_reducible apply ResMoves.ite
    | (with_reducible apply Moves.inSub ha; decide)
    | (with_reducible apply Moves.inSub hq; decide)
    | with_reducible apply Moves.foldl
    | with_reducible intro _
    | (with_reducible apply List.Subset.trans ?_ ha; decide)
    | (with_reducible apply List.Subset.trans ?_ hq; decide)
    | split
    | dsimp only

theorem execRegisterWrite_moves (who : Nat) (addr : Nat) (size : Nat) (value : Nat) (s : State)
    (ha : [.module, .tick, .imp, .forme, .fab, .pair, .pwr, .thm, .prf, .sec, .core, .irq, .events, .mgt, .cal, .chs, .gal, .cmp, .col, .ddl, .gst, .prs, .fin, .case, .oe, .lnk, .lsu, .mem] ⊆ as)
    (hq : [.mem, .presses, .loaded, .pendingBytes, .jobs, .lateXfers, .drains, .calJobs, .calRuns, .swaps, .spareNeeds, .barSent, .links, .repairMap, .flashQ, .badWords, .relays, .out, .freeCount] ⊆ ps)
    (h : Moves as ps s0 s) : ResMoves as ps s0 (execRegisterWrite who addr size value s) := by
  unfold execRegisterWrite
  repeat' first
    | with_reducible assumption
    | with_reducible apply Moves.refl
    | with_reducible apply State.storeFor_moves
    | with_reducible apply Moves.ite
    | with_reducible apply ResMoves.next
    | with_reducible apply ResMoves.fault
    | with_reducible apply ResMoves.refused
    | with_reducible apply ResMoves.ite
    | (with_reducible apply Moves.inSub ha; decide)
    | (with_reducible apply Moves.inSub hq; decide)
    | with_reducible apply Moves.foldl
    | with_reducible intro _
    | (with_reducible apply List.Subset.trans ?_ ha; decide)
    | (with_reducible apply List.Subset.trans ?_ hq; decide)
    | split
    | dsimp only

theorem execSnapshotRead_moves (who : Nat) (addr : Nat) (size : Nat) (s : State)
    (ha : [.module, .core, .mgt] ⊆ as)
    (hq : [.snaps, .out] ⊆ ps)
    (h : Moves as ps s0 s) : ResMoves as ps s0 (execSnapshotRead who addr size s) := by
  unfold execSnapshotRead
  repeat' first
    | with_reducible assumption
    | with_reducible apply Moves.refl
    | with_reducible apply State.loadFor_moves
    | with_reducible apply Moves.ite
    | with_reducible apply ResMoves.next
    | with_reducible apply ResMoves.fault
    | with_reducible apply ResMoves.refused
    | with_reducible apply ResMoves.ite
    | (with_reducible apply Moves.inSub ha; decide)
    | (with_reducible apply Moves.inSub hq; decide)
    | with_reducible apply Moves.foldl
    | with_reducible intro _
    | (with_reducible apply List.Subset.trans ?_ ha; decide)
    | (with_reducible apply List.Subset.trans ?_ hq; decide)
    | split
    | dsimp only

theorem execUnmappedAccess_moves (who : Nat) (addr : Nat) (store : Bool) (s : State)
    (ha : [.module] ⊆ as)
    (hq : [.snaps, .out] ⊆ ps)
    (h : Moves as ps s0 s) : ResMoves as ps s0 (execUnmappedAccess who addr store s) := by
  unfold execUnmappedAccess
  repeat' first
    | with_reducible assumption
    | with_reducible apply Moves.refl
    | with_reducible apply State.unmapped_moves
    | with_reducible apply State.send_moves
    | with_reducible apply Moves.ite
    | with_reducible apply ResMoves.next
    | with_reducible apply ResMoves.fault
    | with_reducible apply ResMoves.refused
    | with_reducible apply ResMoves.ite
    | (with_reducible apply Moves.inSub ha; decide)
    | (with_reducible apply Moves.inSub hq; decide)
    | with_reducible apply Moves.foldl
    | with_reducible intro _
    | (with_reducible apply List.Subset.trans ?_ ha; decide)
    | (with_reducible apply List.Subset.trans ?_ hq; decide)
    | split
    | dsimp only
    | with_reducible apply Moves.set_snaps

end Sys2Proof.Machine
end

