-- ==== Sys2Proof/Laws/MovesCores.lean ====
section
/-!
SUPPORT. Footprints of the operations of Machine/Cores.lean.
-/

namespace Sys2Proof.Machine

variable {as : List Area} {ps : List Part} {s0 : State}

theorem State.clearMarks_moves (s : State) (n : Nat) (a : Sys2Proof.CoreAcc)
    (hq : [.badWords] ⊆ ps)
    (h : Moves as ps s0 s) : Moves as ps s0 (State.clearMarks s n a) := by
  unfold State.clearMarks
  repeat' first
    | with_reducible assumption
    | with_reducible apply Moves.refl
    | with_reducible apply Moves.ite
    | (with_reducible apply Moves.inSub hq; decide)
    | with_reducible apply Moves.foldl
    | with_reducible intro _
    | (with_reducible apply List.Subset.trans ?_ hq; decide)
    | split
    | dsimp only
    | with_reducible apply Moves.set_badWords

theorem execCoreAccessFault_moves (n : Nat) (a : Sys2Proof.CoreAcc) (s : State)
    (ha : [.core] ⊆ as)
    (hq : [.badWords] ⊆ ps)
    (h : Moves as ps s0 s) : ResMoves as ps s0 (execCoreAccessFault n a s) := by
  unfold execCoreAccessFault
  repeat' first
    | with_reducible assumption
    | with_reducible apply Moves.refl
    | with_reducible apply State.coreFault_moves
    | with_reducible apply State.clearMarks_moves
    | with_reducible apply Moves.ite
    | with_reducible apply ResMoves.next
    | with_reducible apply ResMoves.fault
    | with_reducible apply ResMoves.refused
    | with_reducible apply ResMoves.ite
    | (with_reducible apply Moves.inSub ha; decide)
    | (with_reducible apply Moves.inSub hq; decide)
    | with_reducible apply Moves.foldl
    | with_reducible intro _
    | (with_reducible apply List.Subset.trans ?_ ha; decide)
    | (with_reducible apply List.Subset.trans ?_ hq; decide)
    | split
    | dsimp only

theorem execCoreStart_moves (n : Nat) (s : State)
    (ha : [.module, .core, .irq] ⊆ as)
    (h : Moves as ps s0 s) : ResMoves as ps s0 (execCoreStart n s) := by
  unfold execCoreStart
  repeat' first
    | with_reducible assumption
    | with_reducible apply Moves.refl
    | with_reducible apply State.irqDeliver_moves
    | with_reducible apply State.startCore_moves
    | with_reducible apply Moves.ite
    | with_reducible apply ResMoves.next
    | with_reducible apply ResMoves.fault
    | with_reducible apply ResMoves.refused
    | with_reducible apply ResMoves.ite
    | (with_reducible apply Moves.inSub ha; decide)
    | with_reducible apply Moves.foldl
    | with_reducible intro _
    | (with_reducible apply List.Subset.trans ?_ ha; decide)
    | split
    | dsimp only

theorem execCoreRetire_moves (n : Nat) (s : State)
    (ha : [.core, .irq] ⊆ as)
    (hq : [.badWords] ⊆ ps)
    (h : Moves as ps s0 s) : ResMoves as ps s0 (execCoreRetire n s) := by
  unfold execCoreRetire
  repeat' first
    | with_reducible assumption
    | with_reducible apply Moves.refl
    | with_reducible apply State.irqDeliver_moves
    | with_reducible apply State.retireCore_moves
    | with_reducible apply Moves.ite
    | with_reducible apply ResMoves.next
    | with_reducible apply ResMoves.fault
    | with_reducible apply ResMoves.refused
    | with_reducible apply ResMoves.ite
    | (with_reducible apply Moves.inSub ha; decide)
    | (with_reducible apply Moves.inSub hq; decide)
    | with_reducible apply Moves.foldl
    | with_reducible intro _
    | (with_reducible apply List.Subset.trans ?_ ha; decide)
    | (with_reducible apply List.Subset.trans ?_ hq; decide)
    | split
    | dsimp only

theorem execTimerInterrupt_moves (n : Nat) (s : State)
    (ha : [.core] ⊆ as)
    (h : Moves as ps s0 s) : ResMoves as ps s0 (execTimerInterrupt n s) := by
  unfold execTimerInterrupt
  repeat' first
    | with_reducible assumption
    | with_reducible apply Moves.refl
    | with_reducible apply State.timerLevel_moves
    | with_reducible apply Moves.ite
    | with_reducible apply ResMoves.next
    | with_reducible apply ResMoves.fault
    | with_reducible apply ResMoves.refused
    | with_reducible apply ResMoves.ite
    | (with_reducible apply Moves.inSub ha; decide)
    | with_reducible apply Moves.foldl
    | with_reducible intro _
    | (with_reducible apply List.Subset.trans ?_ ha; decide)
    | split
    | dsimp only

end Sys2Proof.Machine
end

