-- ==== Sys2Proof/Laws/MovesManagement.lean ====
section
/-!
SUPPORT. Footprints of the operations of Machine/Management.lean.
-/

namespace Sys2Proof.Machine

variable {as : List Area} {ps : List Part} {s0 : State}

theorem State.dropMsg_moves (s : State)
    (ha : [.mgt] ⊆ as)
    (h : Moves as ps s0 s) : Moves as ps s0 (State.dropMsg s) := by
  unfold State.dropMsg
  repeat' first
    | with_reducible assumption
    | with_reducible apply Moves.refl
    | with_reducible apply Moves.bump
    | with_reducible apply Moves.ite
    | (with_reducible apply Moves.inSub ha; decide)
    | with_reducible apply Moves.foldl
    | with_reducible intro _
    | (with_reducible apply List.Subset.trans ?_ ha; decide)
    | split
    | dsimp only

theorem State.withHead_moves (s : State) (h' : Sys2Proof.MsgHead) (bytes : Nat) (serve : State → State)
    (ha : [.mgt] ⊆ as)
    (hr : ∀ x0, Moves as ps s0 x0 → Moves as ps s0 (serve x0))
    (h : Moves as ps s0 s) : ResMoves as ps s0 (State.withHead s h' bytes serve) := by
  unfold State.withHead
  repeat' first
    | with_reducible assumption
    | with_reducible apply Moves.refl
    | with_reducible apply State.dropMsg_moves
    | with_reducible apply Moves.ite
    | with_reducible apply ResMoves.next
    | with_reducible apply ResMoves.fault
    | with_reducible apply ResMoves.refused
    | with_reducible apply ResMoves.ite
    | (with_reducible apply Moves.inSub ha; decide)
    | with_reducible apply Moves.foldl
    | with_reducible apply hr
    | with_reducible intro _
    | (with_reducible apply List.Subset.trans ?_ ha; decide)
    | split
    | dsimp only

theorem State.respond_moves (s : State) (type : Nat) (tag : Nat) (status : Nat) (body : List Sys2Proof.Byte)
    (hq : [.out] ⊆ ps)
    (h : Moves as ps s0 s) : Moves as ps s0 (State.respond s type tag status body) := by
  unfold State.respond
  repeat' first
    | with_reducible assumption
    | with_reducible apply Moves.refl
    | with_reducible apply State.send_moves
    | with_reducible apply Moves.ite
    | (with_reducible apply Moves.inSub hq; decide)
    | with_reducible apply Moves.foldl
    | with_reducible intro _
    | (with_reducible apply List.Subset.trans ?_ hq; decide)
    | split
    | dsimp only

theorem State.respondSigned_moves (s : State) (type : Nat) (tag : Nat) (counter : Nat) (status : Nat) (body : List Sys2Proof.Byte)
    (hq : [.out] ⊆ ps)
    (h : Moves as ps s0 s) : Moves as ps s0 (State.respondSigned s type tag counter status body) := by
  unfold State.respondSigned
  repeat' first
    | with_reducible assumption
    | with_reducible apply Moves.refl
    | with_reducible apply State.send_moves
    | with_reducible apply Moves.ite
    | (with_reducible apply Moves.inSub hq; decide)
    | with_reducible apply Moves.foldl
    | with_reducible intro _
    | (with_reducible apply List.Subset.trans ?_ hq; decide)
    | split
    | dsimp only

theorem State.answerAgain_moves (s : State) (slot : Nat) (counter : Nat)
    (hq : [.out] ⊆ ps)
    (h : Moves as ps s0 s) : Moves as ps s0 (State.answerAgain s slot counter) := by
  unfold State.answerAgain
  repeat' first
    | with_reducible assumption
    | with_reducible apply Moves.refl
    | with_reducible apply State.send_moves
    | with_reducible apply Moves.ite
    | (with_reducible apply Moves.inSub hq; decide)
    | with_reducible apply Moves.foldl
    | with_reducible intro _
    | (with_reducible apply List.Subset.trans ?_ hq; decide)
    | split
    | dsimp only

theorem State.received_moves (s : State)
    (ha : [.mgt] ⊆ as)
    (h : Moves as ps s0 s) : Moves as ps s0 (State.received s) := by
  unfold State.received
  repeat' first
    | with_reducible assumption
    | with_reducible apply Moves.refl
    | with_reducible apply Moves.bump
    | with_reducible apply Moves.ite
    | (with_reducible apply Moves.inSub ha; decide)
    | with_reducible apply Moves.foldl
    | with_reducible intro _
    | (with_reducible apply List.Subset.trans ?_ ha; decide)
    | split
    | dsimp only

theorem State.lemik_moves (s : State) (type : Nat) (h' : Sys2Proof.MsgHead) (a : Sys2Proof.AuthTail) (body : List Sys2Proof.Byte) (serve : State → State)
    (ha : [.mgt] ⊆ as)
    (hq : [.out] ⊆ ps)
    (hr : ∀ x0, Moves as ps s0 x0 → Moves as ps s0 (serve x0))
    (h : Moves as ps s0 s) : Moves as ps s0 (State.lemik s type h' a body serve) := by
  unfold State.lemik
  repeat' first
    | with_reducible assumption
    | with_reducible apply Moves.refl
    | with_reducible apply State.respond_moves
    | with_reducible apply State.respondSigned_moves
    | with_reducible apply State.answerAgain_moves
    | with_reducible apply State.received_moves
    | with_reducible apply Moves.bump
    | with_reducible apply Moves.ite
    | (with_reducible apply Moves.inSub ha; decide)
    | (with_reducible apply Moves.inSub hq; decide)
    | with_reducible apply Moves.foldl
    | with_reducible apply hr
    | with_reducible intro _
    | (with_reducible apply List.Subset.trans ?_ ha; decide)
    | (with_reducible apply List.Subset.trans ?_ hq; decide)
    | split
    | dsimp only

theorem State.regOne_moves (s : State) (a width : Nat)
    (ha : [.module, .core, .mgt] ⊆ as)
    (hq : [.snaps] ⊆ ps)
    (h : Moves as ps s0 s) : Moves as ps s0 (State.regOne s a width).2.2 := by
  unfold State.regOne
  split
  · split
    · exact h
    · rename_i h1
      have k := State.ctlLoad_moves _ _ _ _ _ ha hq h h1
      split
      · exact k
      · rename_i h2
        have k2 := State.ctlLoad_moves _ _ _ _ _ ha hq k h2
        exact k2
  · cases hr : State.ctlLoad s 16 a width with
    | none => exact h
    | some r => exact State.ctlLoad_moves _ _ _ _ _ ha hq h hr

theorem State.regReads_moves (s : State) (off width i : Nat) (x : RegRun) (n : Nat)
    (ha : [.module, .core, .mgt] ⊆ as)
    (hq : [.snaps] ⊆ ps)
    (h : Moves as ps s0 s) : Moves as ps s0 (State.regReads s off width i x n).2 := by
  induction n generalizing s i x with
  | zero => exact h
  | succ n ih =>
    unfold State.regReads
    dsimp only
    split
    · exact h
    · exact ih _ _ _ (State.regOne_moves _ _ _ ha hq h)

theorem execRegRead_moves (h' : Sys2Proof.MsgHead) (a : Sys2Proof.AuthTail) (off : Nat) (width : Nat) (count : Nat) (s : State)
    (ha : [.module, .core, .mgt] ⊆ as)
    (hq : [.mgtLast, .snaps, .out] ⊆ ps)
    (h : Moves as ps s0 s) : ResMoves as ps s0 (execRegRead h' a off width count s) := by
  unfold execRegRead
  repeat' first
    | with_reducible assumption
    | with_reducible apply Moves.refl
    | with_reducible apply State.withHead_moves
    | with_reducible apply State.lemik_moves
    | with_reducible apply State.regReads_moves
    | with_reducible apply State.mgtRespond_moves
    | with_reducible apply Moves.ite
    | with_reducible apply ResMoves.next
    | with_reducible apply ResMoves.fault
    | with_reducible apply ResMoves.refused
    | with_reducible apply ResMoves.ite
    | (with_reducible apply Moves.inSub ha; decide)
    | (with_reducible apply Moves.inSub hq; decide)
    | with_reducible apply Moves.ite_snd
    | with_reducible apply Moves.foldl
    | with_reducible intro _
    | (with_reducible apply List.Subset.trans ?_ ha; decide)
    | (with_reducible apply List.Subset.trans ?_ hq; decide)
    | split
    | dsimp only

theorem execMgtAttest_moves (h' : Sys2Proof.MsgHead) (nonce : List Sys2Proof.Byte) (s : State)
    (ha : [.mgt] ⊆ as)
    (hq : [.out] ⊆ ps)
    (h : Moves as ps s0 s) : ResMoves as ps s0 (execMgtAttest h' nonce s) := by
  unfold execMgtAttest
  repeat' first
    | with_reducible assumption
    | with_reducible apply Moves.refl
    | with_reducible apply State.withHead_moves
    | with_reducible apply State.respond_moves
    | with_reducible apply State.received_moves
    | with_reducible apply Moves.ite
    | with_reducible apply ResMoves.next
    | with_reducible apply ResMoves.fault
    | with_reducible apply ResMoves.refused
    | with_reducible apply ResMoves.ite
    | (with_reducible apply Moves.inSub ha; decide)
    | (with_reducible apply Moves.inSub hq; decide)
    | with_reducible apply Moves.foldl
    | with_reducible intro _
    | (with_reducible apply List.Subset.trans ?_ ha; decide)
    | (with_reducible apply List.Subset.trans ?_ hq; decide)
    | split
    | dsimp only

theorem execImageEnd_moves (h' : Sys2Proof.MsgHead) (s : State)
    (ha : [.prf, .mgt] ⊆ as)
    (hq : [.repairMap, .flashQ, .upload, .out] ⊆ ps)
    (h : Moves as ps s0 s) : ResMoves as ps s0 (execImageEnd h' s) := by
  unfold execImageEnd
  repeat' first
    | with_reducible assumption
    | with_reducible apply Moves.refl
    | with_reducible apply State.withHead_moves
    | with_reducible apply State.respond_moves
    | with_reducible apply State.queueFlash_moves
    | with_reducible apply State.received_moves
    | with_reducible apply Moves.ite
    | with_reducible apply ResMoves.next
    | with_reducible apply ResMoves.fault
    | with_reducible apply ResMoves.refused
    | with_reducible apply ResMoves.ite
    | (with_reducible apply Moves.inSub ha; decide)
    | (with_reducible apply Moves.inSub hq; decide)
    | with_reducible apply Moves.foldl
    | with_reducible intro _
    | (with_reducible apply List.Subset.trans ?_ ha; decide)
    | (with_reducible apply List.Subset.trans ?_ hq; decide)
    | split
    | dsimp only
    | with_reducible apply Moves.set_upload

theorem execImageData_moves (h' : Sys2Proof.MsgHead) (off : Nat) (data : List Sys2Proof.Byte) (s : State)
    (ha : [.mgt] ⊆ as)
    (hq : [.upload, .out] ⊆ ps)
    (h : Moves as ps s0 s) : ResMoves as ps s0 (execImageData h' off data s) := by
  unfold execImageData
  repeat' first
    | with_reducible assumption
    | with_reducible apply Moves.refl
    | with_reducible apply State.withHead_moves
    | with_reducible apply State.respond_moves
    | with_reducible apply State.received_moves
    | with_reducible apply Moves.ite
    | with_reducible apply ResMoves.next
    | with_reducible apply ResMoves.fault
    | with_reducible apply ResMoves.refused
    | with_reducible apply ResMoves.ite
    | (with_reducible apply Moves.inSub ha; decide)
    | (with_reducible apply Moves.inSub hq; decide)
    | with_reducible apply Moves.foldl
    | with_reducible intro _
    | (with_reducible apply List.Subset.trans ?_ ha; decide)
    | (with_reducible apply List.Subset.trans ?_ hq; decide)
    | split
    | dsimp only
    | with_reducible apply Moves.set_upload

theorem execEchoRequest_moves (ident : Nat) (seq : Nat) (data : List Sys2Proof.Byte) (s : State)
    (hq : [.out] ⊆ ps)
    (h : Moves as ps s0 s) : ResMoves as ps s0 (execEchoRequest ident seq data s) := by
  unfold execEchoRequest
  repeat' first
    | with_reducible assumption
    | with_reducible apply Moves.refl
    | with_reducible apply State.send_moves
    | with_reducible apply Moves.ite
    | with_reducible apply ResMoves.next
    | with_reducible apply ResMoves.fault
    | with_reducible apply ResMoves.refused
    | with_reducible apply ResMoves.ite
    | (with_reducible apply Moves.inSub hq; decide)
    | with_reducible apply Moves.foldl
    | with_reducible intro _
    | (with_reducible apply List.Subset.trans ?_ hq; decide)
    | split
    | dsimp only

theorem State.regPut_moves (s : State) (a : Nat) (width : Nat) (v : Nat) (t : Nat)
    (ha : [.module, .tick, .imp, .forme, .fab, .pair, .pwr, .thm, .prf, .sec, .core, .irq, .events, .mgt, .cal, .chs, .gal, .cmp, .col, .ddl, .gst, .prs, .fin, .case, .oe, .lnk, .lsu, .mem] ⊆ as)
    (hq : [.mem, .presses, .loaded, .pendingBytes, .jobs, .lateXfers, .drains, .calJobs, .calRuns, .swaps, .spareNeeds, .barSent, .links, .repairMap, .flashQ, .badWords, .relays, .out, .freeCount] ⊆ ps)
    (h : Moves as ps s0 s) : Moves as ps s0 (State.regPut s a width v t) := by
  unfold State.regPut
  split
  · have k := State.ctlStore_getD s s 16 a 8 (v % 2 ^ 64) t (List.Subset.trans (by decide) ha)
      (List.Subset.trans (by decide) hq) h h
    exact State.ctlStore_getD _ _ _ _ _ _ _ (List.Subset.trans (by decide) ha)
      (List.Subset.trans (by decide) hq) k k
  · exact State.ctlStore_getD _ _ _ _ _ _ _ (List.Subset.trans (by decide) ha)
      (List.Subset.trans (by decide) hq) h h

theorem State.regWrites_moves (s : State) (off width i t : Nat) (x : RegRun) (l : List Nat)
    (ha : [.module, .tick, .imp, .forme, .fab, .pair, .pwr, .thm, .prf, .sec, .core, .irq, .events, .mgt, .cal, .chs, .gal, .cmp, .col, .ddl, .gst, .prs, .fin, .case, .oe, .lnk, .lsu, .mem] ⊆ as)
    (hq : [.mem, .presses, .loaded, .pendingBytes, .jobs, .lateXfers, .drains, .calJobs, .calRuns, .swaps, .spareNeeds, .barSent, .links, .repairMap, .flashQ, .badWords, .relays, .out, .freeCount] ⊆ ps)
    (h : Moves as ps s0 s) : Moves as ps s0 (State.regWrites s off width i t x l).2 := by
  induction l generalizing s i x with
  | nil => exact h
  | cons v l ih =>
    unfold State.regWrites
    dsimp only
    split
    · exact h
    · exact ih _ _ _ (State.regPut_moves _ _ _ _ _ ha hq h)

theorem State.openUpload_moves (s : State) (tag : Nat) (len : Nat)
    (ha : [.mgt] ⊆ as)
    (hq : [.upload, .out] ⊆ ps)
    (h : Moves as ps s0 s) : Moves as ps s0 (State.openUpload s tag len) := by
  unfold State.openUpload
  repeat' first
    | with_reducible assumption
    | with_reducible apply Moves.refl
    | with_reducible apply State.respond_moves
    | with_reducible apply State.received_moves
    | with_reducible apply Moves.ite
    | (with_reducible apply Moves.inSub ha; decide)
    | (with_reducible apply Moves.inSub hq; decide)
    | with_reducible apply Moves.foldl
    | with_reducible intro _
    | (with_reducible apply List.Subset.trans ?_ ha; decide)
    | (with_reducible apply List.Subset.trans ?_ hq; decide)
    | split
    | dsimp only
    | with_reducible apply Moves.set_upload

theorem execImageBegin_moves (h' : Sys2Proof.MsgHead) (a : Option Sys2Proof.AuthTail) (len : Nat) (s : State)
    (ha : [.mgt] ⊆ as)
    (hq : [.mgtLast, .upload, .out] ⊆ ps)
    (h : Moves as ps s0 s) : ResMoves as ps s0 (execImageBegin h' a len s) := by
  unfold execImageBegin
  repeat' first
    | with_reducible assumption
    | with_reducible apply Moves.refl
    | with_reducible apply State.withHead_moves
    | with_reducible apply State.openUpload_moves
    | with_reducible apply State.respond_moves
    | with_reducible apply State.answerAgain_moves
    | with_reducible apply Moves.bump
    | with_reducible apply Moves.ite
    | with_reducible apply ResMoves.next
    | with_reducible apply ResMoves.fault
    | with_reducible apply ResMoves.refused
    | with_reducible apply ResMoves.ite
    | (with_reducible apply Moves.inSub ha; decide)
    | (with_reducible apply Moves.inSub hq; decide)
    | with_reducible apply Moves.foldl
    | with_reducible intro _
    | (with_reducible apply List.Subset.trans ?_ ha; decide)
    | (with_reducible apply List.Subset.trans ?_ hq; decide)
    | split
    | dsimp only
    | with_reducible apply Moves.set_mgtLast

theorem execDuplicateAddressDetection_moves (failed : Bool) (s : State)
    (ha : [.mgt] ⊆ as)
    (h : Moves as ps s0 s) : ResMoves as ps s0 (execDuplicateAddressDetection failed s) := by
  unfold execDuplicateAddressDetection
  repeat' first
    | with_reducible assumption
    | with_reducible apply Moves.refl
    | with_reducible apply Moves.wr
    | with_reducible apply Moves.ite
    | with_reducible apply ResMoves.next
    | with_reducible apply ResMoves.fault
    | with_reducible apply ResMoves.refused
    | with_reducible apply ResMoves.ite
    | (with_reducible apply Moves.inSub ha; decide)
    | with_reducible apply Moves.foldl
    | with_reducible intro _
    | (with_reducible apply List.Subset.trans ?_ ha; decide)
    | split
    | dsimp only

theorem execMgtBlockLockLost_moves (s : State)
    (ha : [.mgt] ⊆ as)
    (h : Moves as ps s0 s) : ResMoves as ps s0 (execMgtBlockLockLost s) := by
  unfold execMgtBlockLockLost
  repeat' first
    | with_reducible assumption
    | with_reducible apply Moves.refl
    | with_reducible apply Moves.wr
    | with_reducible apply Moves.ite
    | with_reducible apply ResMoves.next
    | with_reducible apply ResMoves.fault
    | with_reducible apply ResMoves.refused
    | with_reducible apply ResMoves.ite
    | (with_reducible apply Moves.inSub ha; decide)
    | with_reducible apply Moves.foldl
    | with_reducible intro _
    | (with_reducible apply List.Subset.trans ?_ ha; decide)
    | split
    | dsimp only

theorem execRegWrite_moves (h' : Sys2Proof.MsgHead) (a : Sys2Proof.AuthTail) (off : Nat) (width : Nat) (vals : List Nat) (t : Nat) (s : State)
    (ha : [.module, .tick, .imp, .forme, .fab, .pair, .pwr, .thm, .prf, .sec, .core, .irq, .events, .mgt, .cal, .chs, .gal, .cmp, .col, .ddl, .gst, .prs, .fin, .case, .oe, .lnk, .lsu, .mem] ⊆ as)
    (hq : [.mem, .presses, .loaded, .pendingBytes, .jobs, .lateXfers, .drains, .mgtLast, .calJobs, .calRuns, .swaps, .spareNeeds, .barSent, .links, .repairMap, .flashQ, .badWords, .relays, .out, .freeCount] ⊆ ps)
    (h : Moves as ps s0 s) : ResMoves as ps s0 (execRegWrite h' a off width vals t s) := by
  unfold execRegWrite
  repeat' first
    | with_reducible assumption
    | with_reducible apply Moves.refl
    | with_reducible apply State.withHead_moves
    | with_reducible apply State.stamp_moves
    | with_reducible apply State.lemik_moves
    | with_reducible apply State.regWrites_moves
    | with_reducible apply State.mgtRespond_moves
    | with_reducible apply Moves.ite
    | with_reducible apply ResMoves.next
    | with_reducible apply ResMoves.fault
    | with_reducible apply ResMoves.refused
    | with_reducible apply ResMoves.ite
    | (with_reducible apply Moves.inSub ha; decide)
    | (with_reducible apply Moves.inSub hq; decide)
    | with_reducible apply Moves.ite_snd
    | with_reducible apply Moves.foldl
    | with_reducible intro _
    | (with_reducible apply List.Subset.trans ?_ ha; decide)
    | (with_reducible apply List.Subset.trans ?_ hq; decide)
    | split
    | dsimp only

theorem execNeighbourDiscovery_moves (target : Nat) (s : State)
    (hq : [.out] ⊆ ps)
    (h : Moves as ps s0 s) : ResMoves as ps s0 (execNeighbourDiscovery target s) := by
  unfold execNeighbourDiscovery
  repeat' first
    | with_reducible assumption
    | with_reducible apply Moves.refl
    | with_reducible apply State.send_moves
    | with_reducible apply Moves.ite
    | with_reducible apply ResMoves.next
    | with_reducible apply ResMoves.fault
    | with_reducible apply ResMoves.refused
    | with_reducible apply ResMoves.ite
    | (with_reducible apply Moves.inSub hq; decide)
    | with_reducible apply Moves.foldl
    | with_reducible intro _
    | (with_reducible apply List.Subset.trans ?_ hq; decide)
    | split
    | dsimp only

theorem execMgtStatus_moves (h' : Sys2Proof.MsgHead) (s : State)
    (ha : [.mgt] ⊆ as)
    (hq : [.out] ⊆ ps)
    (h : Moves as ps s0 s) : ResMoves as ps s0 (execMgtStatus h' s) := by
  unfold execMgtStatus
  repeat' first
    | with_reducible assumption
    | with_reducible apply Moves.refl
    | with_reducible apply State.withHead_moves
    | with_reducible apply State.respond_moves
    | with_reducible apply State.received_moves
    | with_reducible apply Moves.ite
    | with_reducible apply ResMoves.next
    | with_reducible apply ResMoves.fault
    | with_reducible apply ResMoves.refused
    | with_reducible apply ResMoves.ite
    | (with_reducible apply Moves.inSub ha; decide)
    | (with_reducible apply Moves.inSub hq; decide)
    | with_reducible apply Moves.foldl
    | with_reducible intro _
    | (with_reducible apply List.Subset.trans ?_ ha; decide)
    | (with_reducible apply List.Subset.trans ?_ hq; decide)
    | split
    | dsimp only

theorem execMgtChallenge_moves (h' : Sys2Proof.MsgHead) (s : State)
    (ha : [.mgt] ⊆ as)
    (hq : [.out] ⊆ ps)
    (h : Moves as ps s0 s) : ResMoves as ps s0 (execMgtChallenge h' s) := by
  unfold execMgtChallenge
  repeat' first
    | with_reducible assumption
    | with_reducible apply Moves.refl
    | with_reducible apply State.withHead_moves
    | with_reducible apply State.respond_moves
    | with_reducible apply State.received_moves
    | with_reducible apply Moves.ite
    | with_reducible apply ResMoves.next
    | with_reducible apply ResMoves.fault
    | with_reducible apply ResMoves.refused
    | with_reducible apply ResMoves.ite
    | (with_reducible apply Moves.inSub ha; decide)
    | (with_reducible apply Moves.inSub hq; decide)
    | with_reducible apply Moves.foldl
    | with_reducible intro _
    | (with_reducible apply List.Subset.trans ?_ ha; decide)
    | (with_reducible apply List.Subset.trans ?_ hq; decide)
    | split
    | dsimp only

theorem execMemWrite_moves (h' : Sys2Proof.MsgHead) (a : Sys2Proof.AuthTail) (c : Nat) (space : Nat) (addr : Nat) (data : List Sys2Proof.Byte) (s : State)
    (ha : [.prf, .core, .mgt, .gal, .gst, .mem] ⊆ as)
    (hq : [.mem, .heldAccs, .dirtyShared, .mgtLast, .links, .repairMap, .ceLog, .mgtJobs, .dropped, .out, .freeCount] ⊆ ps)
    (h : Moves as ps s0 s) : ResMoves as ps s0 (execMemWrite h' a c space addr data s) := by
  unfold execMemWrite
  repeat' first
    | with_reducible assumption
    | with_reducible apply Moves.refl
    | with_reducible apply State.withHead_moves
    | with_reducible apply State.lemik_moves
    | with_reducible apply State.mgtAccess_moves
    | with_reducible apply State.mgtRespond_moves
    | with_reducible apply Moves.ite
    | with_reducible apply ResMoves.next
    | with_reducible apply ResMoves.fault
    | with_reducible apply ResMoves.refused
    | with_reducible apply ResMoves.ite
    | (with_reducible apply Moves.inSub ha; decide)
    | (with_reducible apply Moves.inSub hq; decide)
    | with_reducible apply Moves.foldl
    | with_reducible intro _
    | (with_reducible apply List.Subset.trans ?_ ha; decide)
    | (with_reducible apply List.Subset.trans ?_ hq; decide)
    | split
    | dsimp only

theorem execMgtCert_moves (h' : Sys2Proof.MsgHead) (which : Nat) (slot : Nat) (s : State)
    (ha : [.mgt] ⊆ as)
    (hq : [.out] ⊆ ps)
    (h : Moves as ps s0 s) : ResMoves as ps s0 (execMgtCert h' which slot s) := by
  unfold execMgtCert
  repeat' first
    | with_reducible assumption
    | with_reducible apply Moves.refl
    | with_reducible apply State.withHead_moves
    | with_reducible apply State.respond_moves
    | with_reducible apply State.received_moves
    | with_reducible apply Moves.ite
    | with_reducible apply ResMoves.next
    | with_reducible apply ResMoves.fault
    | with_reducible apply ResMoves.refused
    | with_reducible apply ResMoves.ite
    | (with_reducible apply Moves.inSub ha; decide)
    | (with_reducible apply Moves.inSub hq; decide)
    | with_reducible apply Moves.foldl
    | with_reducible intro _
    | (with_reducible apply List.Subset.trans ?_ ha; decide)
    | (with_reducible apply List.Subset.trans ?_ hq; decide)
    | split
    | dsimp only

theorem execMemRead_moves (h' : Sys2Proof.MsgHead) (a : Sys2Proof.AuthTail) (c : Nat) (space : Nat) (addr : Nat) (len : Nat) (met : Sys2Proof.Met) (s : State)
    (ha : [.prf, .core, .mgt, .gal, .gst, .mem] ⊆ as)
    (hq : [.mem, .heldAccs, .dirtyShared, .mgtLast, .links, .repairMap, .ceLog, .mgtJobs, .dropped, .out, .freeCount] ⊆ ps)
    (h : Moves as ps s0 s) : ResMoves as ps s0 (execMemRead h' a c space addr len met s) := by
  unfold execMemRead
  repeat' first
    | with_reducible assumption
    | with_reducible apply Moves.refl
    | with_reducible apply State.withHead_moves
    | with_reducible apply State.lemik_moves
    | with_reducible apply State.mgtAccess_moves
    | with_reducible apply State.mgtRespond_moves
    | with_reducible apply Moves.ite
    | with_reducible apply ResMoves.next
    | with_reducible apply ResMoves.fault
    | with_reducible apply ResMoves.refused
    | with_reducible apply ResMoves.ite
    | (with_reducible apply Moves.inSub ha; decide)
    | (with_reducible apply Moves.inSub hq; decide)
    | with_reducible apply Moves.foldl
    | with_reducible intro _
    | (with_reducible apply List.Subset.trans ?_ ha; decide)
    | (with_reducible apply List.Subset.trans ?_ hq; decide)
    | split
    | dsimp only

theorem execMgtBlockLock_moves (s : State)
    (ha : [.mgt] ⊆ as)
    (h : Moves as ps s0 s) : ResMoves as ps s0 (execMgtBlockLock s) := by
  unfold execMgtBlockLock
  repeat' first
    | with_reducible assumption
    | with_reducible apply Moves.refl
    | with_reducible apply Moves.wr
    | with_reducible apply Moves.ite
    | with_reducible apply ResMoves.next
    | with_reducible apply ResMoves.fault
    | with_reducible apply ResMoves.refused
    | with_reducible apply ResMoves.ite
    | (with_reducible apply Moves.inSub ha; decide)
    | with_reducible apply Moves.foldl
    | with_reducible intro _
    | (with_reducible apply List.Subset.trans ?_ ha; decide)
    | split
    | dsimp only

end Sys2Proof.Machine
end

