-- ==== Sys2Proof/Tests/Slice0.lean ====
section
/-!
SUPPORT. Tests of our own: words of press instructions written out from the spec's encodings, the checks on
operands, values that the spec gives, and, for each statement with hypotheses, states that meet them.
-/

open Sys2Proof Sys2Proof.Machine

namespace Sys2Proof.Tests

/- Each test waits for the kernel, so they go one by one and hold one thread among them. -/
set_option Elab.async false

/-- The state at reset with numbers written. -/
def st (l : List (Field × Nat × Nat × Nat)) : State := State.reset.wrAll l

/-- No token waited on, none signalled. -/
def tok0 : Tok := ⟨false, 0, false, 0⟩

/-- A format F word with every field zero. -/
def fin0 : FinF := ⟨0, 0, 0, 0, false, false, false, false, false, 0, 0, 0, false, 0, 0, 0, 0, false, 0, 0, 0⟩

/-- A bypass message with its CRC. -/
def bypOf (kind arg reqno : Nat) : Byp := ⟨0, 0, 0, reqno, crc16 (bypBytes kind arg reqno 0 0 0)⟩

/-- Drain fields all zero. -/
def out0 : DrainOut := ⟨0, 0, false, false, 0, 0, 0, 0, 0⟩

/-- A request for one sector of the galley with nothing met. -/
def req0 : VcReq := ⟨1, 5, 0, 0, 0, 0, true, 0, ⟨[], false⟩⟩

/-! ### Words of R111 to R118 -/

/-- LOOP waiting on T3, signalling T5: level 2, 6 trips, a body of 4 instructions. -/
theorem test_word_loop :
    pressDecode 1 0x01BD8001400C00000000000000000000 = .ok (.loop 1 ⟨true, 3, true, 5⟩ 2 5 3) := by decide

/-- FENCE for FIN and BOUT, bits 109 and 107. -/
theorem test_word_fence :
    pressDecode 0 0x06002800000000000000000000000000 = .ok (.fence 0 tok0 5) := by decide

/-- SETA AD4: galley, line 0x12345, stride3 1, stride0 -1. -/
theorem test_word_seta : pressDecode 0 0x02004848D140000200000000007FFFFC =
    .ok (.seta 0 tok0 4 ⟨true, 0x12345, -1, 0, 0, 1⟩) := by decide

/-- SRK K1: tensor 0xABCDEF, base 5, 7 elements per row, level 3, stride -2. -/
theorem test_word_srk : pressDecode 0 0x08006AF37BC00000000140001FFFFFFE =
    .ok (.srk 0 tok0 1 ⟨0xABCDEF, 5, 7, 3, -2⟩) := by decide

/-- WLOAD of format 2, 16 strips, AD3 and AD4. -/
theorem test_word_wload : pressDecode 0 0x1000281A000000000000000000000000 =
    .ok (.wload 0 tok0 ⟨2, 16, 3, 4⟩ []) := by decide

/-- PASS of 32 BF16 rows of 15 strips from AD5, swap, head bias, foot both, to a ring of 4 registers from V8. -/
theorem test_word_pass : pressDecode 0 0x12001781FB2800802100000000000000 =
    .ok (.pass 0 tok0 ⟨1, 15, 31, true, 1, 2, 5, 0, ⟨0, 0, false, true, 0, 0, 8, 2, 0⟩⟩ none []) := by decide

/-- DRAIN of 2 carry entries from 1,022 in A56 to AD6. -/
theorem test_word_drain : pressDecode 0 0x1300000010003830007FC00000000000 =
    .ok (.drain 0 tok0 ⟨1, 1022, ⟨7, 0, false, false, 6, 0, 0, 0, 0⟩⟩) := by decide

/-- FADD V3 = V1 + V2. -/
theorem test_word_fadd : pressDecode 0 0x20001844000000000000000000000000 =
    .ok (.fadd 0 tok0 { fin0 with vd := 3, va := 1, vb := 2 }) := by decide

/-- FST of V2 in the MX format of sub 3, rounding mode 2, saturating, flushing slot 15 to AD2. -/
theorem test_word_fst : pressDecode 0 0x330000800003A200125FE00100000000 =
    .ok (.fst 0 tok0 ⟨0, 2, 0, 0, false, false, false, false, false, 0, 3, 2, true, 1, 9, 2, 15, true, 3, 0x2001,
      0⟩) := by decide

/-- GSTORE on reservation 0xABC, 65,536 lines from AD8 to AD7. -/
theorem test_word_gstore : pressDecode 0 0x4100ABC78FFFF0000000000000000000 =
    .ok (.gstore 0 tok0 ⟨0xABC, 7, 8, 65535⟩ []) := by decide

/-- A reserved opcode, a reserved bit of NOP, head 3 of PASS, and a ring size of 5 are illegal. -/
theorem test_words_refused :
    pressDecode 0 0x42000000000000000000000000000000 = .error .opcode ∧
    pressDecode 0 0x00000000000000000000000000000001 = .error .field ∧
    pressDecode 0 0x12001080060000000000000000000000 = .error .field ∧
    pressDecode 0 0x13000000000000000280000000000000 = .error .field := by decide

/-! ### Operands out of the module -/

/-- For each kind of unit or field a command that names the first one the module does not have. -/
theorem test_wf_refuses_press : (([.nop 12 tok0, .nop 0 ⟨true, 8, false, 0⟩, .loop 0 tok0 4 0 0, .loop 0 tok0 0 65536 0, .loop 0 tok0 0 0 4096,
    .seta 0 tok0 16 ⟨false, 0, 0, 0, 0, 0⟩, .seta 0 tok0 0 ⟨false, 2 ^ 21, 0, 0, 0, 0⟩,
    .seta 0 tok0 0 ⟨false, 0, 2 ^ 20, 0, 0, 0⟩, .seta 0 tok0 0 ⟨false, 0, 0, 0, 0, -2 ^ 20 - 1⟩,
    .srk 0 tok0 4 ⟨0, 0, 0, 0, 0⟩, .srk 0 tok0 0 ⟨2 ^ 24, 0, 0, 0, 0⟩, .srk 0 tok0 0 ⟨0, 0, 0, 0, 2 ^ 23⟩,
    .bsig 0 tok0 64, .fence 0 tok0 32, .ramp 0 tok0 4, .wload 0 tok0 ⟨16, 1, 0, 0⟩ [],
    .wload 0 tok0 ⟨1, 1, 0, 0⟩ [2 ^ 23], .bias 0 tok0 0 16 [],
    .pass 0 tok0 ⟨1, 1, 2 ^ 11, false, 0, 0, 0, 0, out0⟩ none [],
    .pass 0 tok0 ⟨1, 1, 0, false, 0, 0, 0, 0, out0⟩ (some 17) [], .drain 0 tok0 ⟨0, 2 ^ 10, out0⟩,
    .drain 0 tok0 ⟨0, 0, { out0 with ring := 8 }⟩, .fadd 0 tok0 { fin0 with vd := 32 },
    .fst 0 tok0 { fin0 with slot := 16 }, .gload 0 tok0 ⟨2 ^ 12, 0, 0, 0⟩ [], .gstore 0 tok0 ⟨0, 16, 0, 0⟩ [],
    .instructionComplete 0 6, .instructionComplete 0 0] : List Instr).all fun c => !c.wf) = true := by decide

/-- The same for the memories, jobs, engines and lasers. -/
theorem test_wf_refuses_memory : (([.unscheduledRequest 4 0 [], .unscheduledRequest 0 8 [], .unscheduledRequest 1 0 [⟨23, 0, 0, 0, 8, none, []⟩],
    .unscheduledRequest 0 0 [⟨3, 0, 0, 249, 8, none, []⟩], .lateTransfer 0 19 0 0 0, .lateTransfer 0 0 0 1 0,
    .galleyScrub 0 64 none, .uncorrectableError (.galley 0 0 galLines 0 false) 0,
    .uncorrectableError (.stack 0 0 (2 ^ 38) false) 0, .uncorrectableError (.unacked 32 0 0) 0,
    .heldAccessRelease 16, .stackRefresh 16 0, .stackRefresh 0 64, .windowFetch 4 [], .jobComplete 0 2 0 0,
    .stepComplete 0 [.stack 16 ⟨0, 0, 0, 0, 0⟩] 0, .toneWindow 8 0 0 true 0, .toneWindow 0 80 0 true 0,
    .calDue 0 4 0 .time 0, .calDue 0 0 10 .time 0, .laserSample 160 0 0 0, .drainUnit 2 0,
    .unitProofDone 0 [80] 0, .steerWindowEnd 0 [(4, 0)] 0] : List Instr).all fun c => !c.wf) = true := by decide

/-- The same for links, dies, guests, power and the island. -/
theorem test_wf_refuses_links : (([.laneLock 56 0 0, .laneLock 0 9 0, .laneLock 32 144 0, .laneLock 40 72 0, .lcLost 32 0,
    .vc1Read 0 { req0 with target := 4 }, .vc1Write 0 { req0 with sectors := 4 } [], .dlaneDrop 12 0 (bypOf 0 0 0) 0 0,
    .groupHealthy 0 2 0 0, .guestRetry 1 0, .barrierRoundComplete 0 64 0, .mirrorWrite 0 0 4 0 0 [],
    .railWindow 26 0 0, .estimatorSample ⟨[⟨24, 0, 0, 0⟩], 0, true⟩ 0, .estimatorSample ⟨[⟨0, 22, 0, 0⟩], 0, true⟩ 0,
    .droopTrip 20 0 0, .tempSample 42 [] 0, .tempSample 0 [] 0, .stripSliceDone 0 17 true 0,
    .logicSlice (.chase 4) 0, .loopback 32 0, .auxPowerOn 0 5, .laserHeartbeatMiss 2 0,
    .coreAccessFault 0 ⟨2 ^ 41, 8, .load, .user, false, false⟩, .registerWrite 17 0 4 0, .registerWrite 0 (2 ^ 28) 4 0] : List Instr).all fun c => !c.wf) = true := by decide


/-- Operands at the top of their ranges pass. -/
theorem test_wf_accepts : (([.loop 11 ⟨true, 7, true, 7⟩ 3 65535 4095,
    .seta 0 tok0 15 ⟨true, 2 ^ 21 - 1, -2 ^ 20, 2 ^ 20 - 1, 0, 0⟩,
    .unscheduledRequest 0 7 [⟨23, 0, 0, 248, 8, none, []⟩], .toneWindow 7 79 0 true 0, .laneLock 32 143 0,
    .guestRetry 2 0, .railWindow 25 0 0, .registerWrite 16 (2 ^ 28 - 1) 4 0] : List Instr).all fun c => c.wf) = true := by decide

/-- A command that names a missing unit is a fault. -/
theorem test_missing_units : exec (.nop 12 tok0) State.reset = .fault .noSuchUnit ∧
    exec (.guestRetry 1 0) State.reset = .fault .noSuchUnit := ⟨rfl, rfl⟩

/-! ### Values that the spec gives -/

/-- CRC-32C of R294, and its value of the nine bytes that its catalogue entry checks. -/
theorem test_crc32c : crc32c [0x31, 0x32, 0x33, 0x34, 0x35, 0x36, 0x37, 0x38, 0x39] = 0xE3069283 := by decide +kernel

/-- CRC-16 of R299 likewise. -/
theorem test_crc16 : crc16 [0x31, 0x32, 0x33, 0x34, 0x35, 0x36, 0x37, 0x38, 0x39] = 0x29B1 := by decide +kernel

theorem test_reset_inv : State.reset.inv = true := by decide

/-- IDENTITY_WRITE in front of the queue is run by the step (R349). -/
theorem test_step_identity : ∃ t, step { State.reset with pending := [.identityWrite 7, .secAlert] } = .next t ∧
    t.identity = 7 ∧ t.pending = [.secAlert] := ⟨_, rfl, by decide, by decide⟩

/-! ### Witnesses: states and operands that meet the statements' hypotheses -/

/-- Press 0 ACTIVE, with x in it. -/
def run (x : Press) : State := (st [(.prsStatusState, 0, 0, 3)]).setPress 0 x

/-- A row of 512 lanes. -/
def row0 : List Nat := List.replicate 512 0x3F800000

/-- A step that does not end its edition, of one job. -/
def step1 : StepEntry := ⟨100, 10, 200, false, 0, 1, 0, 0, 0, 1⟩

/-- A step that ends its edition, with nothing to do. -/
def step2 : StepEntry := ⟨100, 10, 200, true, 0, 0, 0, 0, 0, 0⟩

/-- A reservation of bond 0 in phase 0 of slice 0, held one period in two. -/
def resv1 : Resv := ⟨3, 0, false, 0, 1, 2, 0, 64, 0, 7, 0⟩

/-- A variant of press 0 with two steps and one job. -/
def var1 (job : Nat) : Variant :=
  { number := 0, pressMask := 1, engineMask := 0, widths := 0, editionNominal := 200, programs := [],
    steps := [step1, step2], resvs := [resv1], barriers := [], jobs := [job],
    plans := [⟨[⟨0, 0, 0, 7⟩, ⟨0, 1, 0, 7⟩], [⟨0, 2, 0, 0⟩], []⟩] }

/-- Forme 0 on press 0; `share` has it mirrored, `fab` makes it the fabric forme of port 0. -/
def forme1 (share fab : Bool) (job : Nat) : Forme :=
  { number := 0, mirrored := share, fabric := fab, carriedFrom := 255, linkMin := 1, pressSet := 1,
    engineSet := 0, mirrorShare := 0, portSet := if fab then 3 else 0, startEdition := 1, srSeed := 0,
    variants := [var1 job], ckpts := [] }

/-- Records of port 0, lit with eight data lanes to module 5, and of port 1, which the pair shares. -/
def optics1 : List Byte := List.replicate 16 0 ++ [1, 0xFF, 5, 0, 3, 0, 0, 0, 1, 0xFF, 0, 0, 1, 0, 0, 0]

/-- An imposition of one forme. -/
def imp1 (share fab : Bool) (job : Nat) : Imposition :=
  { capability := 0, rollbackVersion := 3, moduleId := 0, digest := [], formes := [forme1 share fab job],
    routing := [], optics := if fab || share then optics1 else [], memory := [] }

/-- A state with that imposition active. -/
def act (share fab : Bool) (job : Nat) (l : List (Field × Nat × Nat × Nat)) : State :=
  { st l with active := some (imp1 share fab job) }

theorem canDispatch_run (x : Press) (u : Nat) (h : x.queues = []) :
    canDispatch (run x) 0 tok0 u := by
  refine ⟨by decide, rfl, fun e => absurd e (by decide), ?_⟩
  have hp : (run x).press 0 = x := rfl
  simp [State.unitFull, hp, Press.queue, SMap.getD, SMap.get?, h]

theorem witness_StepRunsFrontCommand :
    ({ State.reset with pending := [.secAlert] } : State).pending = .secAlert :: [] := rfl

theorem witness_IdleModuleTicks : State.reset.pending = [] ∧ State.reset.on .hTimeBase 0 0 = false ∧
    (st [(.hTimeBase, 0, 0, 1)]).pending = [] ∧ (st [(.hTimeBase, 0, 0, 1)]).on .hTimeBase 0 0 = true := by decide

theorem witness_StepKeepsInvariant : ∃ t, State.reset.inv = true ∧ step State.reset = .next t :=
  ⟨_, by decide, rfl⟩

theorem witness_CommandsRunOrFault : (Instr.pwrCtrlWrite 5).wf = true ∧ onPress (.pwrCtrlWrite 5) = none ∧
    (Instr.nop 11 tok0).wf = true ∧ onPress (.nop 11 tok0) ≠ none := by decide

/-- A unit whose queue is full whatever the free value. -/
theorem witness_PressControl : canDispatch (run Press.init) 0 tok0 uSeq ∧ canDispatch (run Press.init) 0 tok0 uArr ∧
    State.reset.pState 0 ≠ pActive ∧ (run Press.init).pState 0 = pActive ∧ ((run Press.init).press 0).token 1 = 0 ∧
    (run { Press.init with
      queues := [(2, List.replicate (17 + Config.freeValue 0) ⟨false, 0, none⟩)] }).unitFull 0 uArr = true := by
  refine ⟨canDispatch_run _ _ rfl, canDispatch_run _ _ rfl, by decide, by decide, by decide, ?_⟩
  have hp (x : Press) : (run x).press 0 = x := rfl
  have hf (x : Press) : (run x).freeCount = 0 := rfl
  simp only [State.unitFull, hp, hf, Press.queue, SMap.getD, SMap.get?, uSeq, uArr]
  simp

theorem witness_PressWaits : canDispatch (run Press.init) 0 tok0 uSeq ∧ Press.init.idle = true ∧
    ({ Press.init with queues := [(3, [⟨false, 0, none⟩])] } : Press).idle = false ∧
    (run Press.init).formeOfPress 0 = none ∧ (act false false 0 []).formeOfPress 0 = some (forme1 false false 0) ∧
    (run Press.init).barrierPassed 0 63 = true ∧
    (run { Press.init with signals := [(63, 1)] }).barrierPassed 0 63 = false ∧
    Press.init.fencePassed 31 = true ∧
    ({ Press.init with queues := [(5, [⟨false, 0, none⟩])] } : Press).fencePassed 1 = false :=
  ⟨canDispatch_run _ _ rfl, by decide, by decide, by decide, by decide, by decide, by decide, by decide, by decide⟩

/-- FADD, FFMA, FMOV and FRCP from rings whose registers are valid. -/
theorem witness_LaneArithmetic : canDispatch (run { Press.init with ringValid := [1, 2, 3] }) 0 tok0 uFin ∧
    let x : Press := { Press.init with ringValid := [1, 2, 3] }
    let f : FinF := { fin0 with va := 1, vb := 2, pa := true }
    x.finReady true true false f = true ∧ FinOp.add.fieldOk f = true ∧
    x.finReady true true true { f with vc := 3 } = true ∧ FinOp.ffma.fieldOk { f with vc := 31 } = true ∧
    FinOp.mov.fieldOk { fin0 with vb := 2, bb := true } = true ∧ FinOp.rcp.fieldOk { fin0 with va := 1 } = true :=
  ⟨canDispatch_run _ _ rfl, by decide⟩

theorem witness_MaskInstructions : canDispatch (run Press.init) 0 tok0 uFin ∧
    Press.init.finReady true true false fin0 = true ∧ FinOp.cmp.fieldOk { fin0 with vd := 7, sub := 3 } = true ∧
    FinOp.msk.fieldOk { fin0 with vd := 7, sub := 6, imm := 511 } = true ∧
    FinOp.sel.fieldOk { fin0 with vc := 7 } = true ∧ FinOp.cvt.fieldOk { fin0 with sub := 6 } = true ∧
    Fmt.ofCode 6 ≠ none := ⟨canDispatch_run _ _ rfl, by decide⟩

/-- A legal reduction, an illegal word, and a register whose row is due in the ring. -/
theorem witness_FinisherReductionsAndHolds : canDispatch (run Press.init) 0 tok0 uFin ∧
    Press.init.finReady true false false { fin0 with va := 31 } = true ∧
    FinOp.rsum.fieldOk { fin0 with va := 31 } = true ∧ FinOp.rsum.fieldOk { fin0 with sub := 1 } = false ∧
    canDispatch (run { Press.init with drainQ := [(4, row0)] }) 0 tok0 uFin ∧
    FinOp.rcp.fieldOk { fin0 with va := 4 } = true ∧
    ({ Press.init with drainQ := [(4, [])] } : Press).readable 4 = false :=
  ⟨canDispatch_run _ _ rfl, by decide, by decide, by decide, canDispatch_run _ _ rfl, by decide, by decide⟩

/-- FLD, FST and CMOV at the last lines of the case. -/
theorem witness_CaseMoves : (run Press.init).inv = true ∧ canDispatch (run Press.init) 0 tok0 uFin ∧
    FinOp.ld.fieldOk { fin0 with sub := 1, cad := 1 } = true ∧ Press.init.inCase 1 = true ∧
    caseLineOk 262140 4 = true ∧ FinOp.st.fieldOk { fin0 with sub := 6, flush := true, slot := 15 } = true ∧
    Press.init.readable 0 = true ∧ FinOp.cmov.fieldOk { fin0 with cad := 1, xad := 2, cnt := 65535 } = true ∧
    caseLineOk 196608 65536 = true ∧ caseLineOk 262141 4 = false :=
  ⟨by decide, canDispatch_run _ _ rfl, by decide⟩

theorem witness_ArrayLoadsAndTransfers : canDispatch (run Press.init) 0 tok0 uShd ∧
    (⟨1, 16, 0, 0⟩ : WloadF).fieldOk = true ∧ 16 ≤ (run Press.init).depth 0 ∧
    caseLineOk (262144 - 16 * stripLines 1) (16 * stripLines 1) = true ∧ biasFieldOk 7 = true ∧
    caseLineOk 262128 16 = true ∧ (run Press.init).inv = true ∧
    (({ Press.init with ads := [(7, ⟨true, 1572863, 0, 0, 0, 0⟩)] } : Press).ad 7).galley = true ∧
    galLinesOk 1572863 1 = true ∧ galLinesOk 1572863 2 = false ∧ canDispatch (run Press.init) 0 tok0 uBin ∧
    canDispatch (run Press.init) 0 tok0 uBout :=
  ⟨canDispatch_run _ _ rfl, by decide, by decide, by decide, by decide, by decide, by decide, by decide, by decide,
    by decide, canDispatch_run _ _ rfl, canDispatch_run _ _ rfl⟩

/-- A press with a BF16 tile of weights. -/
def tiled : Press := { Press.init with live := ⟨1, []⟩ }

/-- A PASS of one row with each foot, and a DRAIN of the last carry entry. -/
theorem witness_PassFoldsRows : (run tiled).inv = true ∧ canDispatch (run tiled) 0 tok0 uArr ∧
    (∀ foot ∈ [0, 1, 2], passLegal tiled ⟨1, 16, 0, false, 0, foot, 0, 0, out0⟩ 16 = true ∧
      ((passLines tiled ⟨1, 16, 0, false, 0, foot, 0, 0, out0⟩ ++
        drainLines out0 tiled 1).all fun e => caseLineOk e.1 e.2) = true) ∧
    (⟨0, 1023, { out0 with dfmt := 7 }⟩ : DrainF).fieldOk = true ∧ drainSpaceOk { out0 with dfmt := 7 } tiled = true :=
  ⟨by decide, canDispatch_run _ _ rfl, by decide⟩

/-- A bond transfer of press 0 on the reservation of the running step. -/
def bond1 (fill : Bool) : SlotXfer := ⟨0, 0, 0, fill, 0, 0, 64, 1, 2, 0, 5, 7, 5, 9, false⟩

theorem witness_PressEvents : Press.init.queue 5 = [] ∧
    ({ Press.init with queues := [(5, [⟨true, 7, none⟩])] } : Press).queue 5 = [⟨true, 7, none⟩] ∧
    Press.init.frozen = false ∧ Press.init.rampMode = 0 ∧ State.reset.formeOfPress 11 = none ∧
    (act false false 0 []).closingSlices 0 = false ∧
    (∀ fill, let s := { State.reset with drains := [bond1 fill] }
      s.drains.find? (fun y => y.isBond && y.press = 0 && y.fill = decide ((if fill then 5 else 4) = uBout)) =
        some (bond1 fill) ∧ s.inv = true ∧ (bond1 fill).next = (bond1 fill).lineLo ∧
      s.drains.filter (fun y => y.forme = 0 && y.chase = 0 && !y.moved) = [bond1 fill]) ∧
    (∀ x ∈ [64, 95], x / 32 = 71 / 32) := by decide

theorem witness_PressWordsIllegal : canDispatch (run Press.init) 0 tok0 uShd ∧
    (⟨0, 1, 0, 0⟩ : WloadF).fieldOk = false ∧ caseLineOk 262144 1 = false ∧ biasFieldOk 1 = false ∧
    passLegal Press.init ⟨1, 17, 0, false, 0, 0, 0, 0, out0⟩ 16 = false ∧
    passLegal { tiled with ads := [(0, ⟨false, 262144, 0, 0, 0, 0⟩)] } ⟨1, 16, 0, false, 0, 0, 0, 0, out0⟩ 16 = true ∧
    (⟨0, 0, { out0 with ring := 5 }⟩ : DrainF).fieldOk = false ∧ FinOp.ld.fieldOk { fin0 with sub := 2 } = false ∧
    (Press.init.ad 0).galley = false ∧ galLinesOk 1572864 1 = false :=
  ⟨canDispatch_run _ _ rfl, by decide⟩

theorem witness_PressErrors : canDispatch (run tiled) 0 tok0 uArr ∧
    passLegal tiled ⟨1, 16, 0, false, 0, 0, 0, 0, out0⟩ 16 = true ∧
    (act false false 0 []).formeOfPress 0 = some (forme1 false false 0) ∧
    (act false false 0 [(.modFormeStatusState, 0, 0, 2)]).fState 0 = fRunning := ⟨canDispatch_run _ _ rfl, by decide⟩

/-- n bytes of x, then zeros up to m. -/
def le (m n x : Nat) : List Byte := natLe n x ++ List.replicate (m - n) 0

/-- A directory entry (R206). -/
def entry (type forme variant offset length : Nat) : List Byte :=
  natLe 1 type ++ natLe 1 forme ++ natLe 1 variant ++ le 5 0 0 ++ natLe 4 offset ++ natLe 4 length

/-- A program record of press 0 in a form, of one STEP (R113, R209). -/
def stepProgram (form : Nat) : List Byte :=
  natLe 1 0 ++ natLe 1 form ++ natLe 2 1 ++ le 28 4 1 ++ natLe 2 0 ++ natLe 16 (3 * 2 ^ 120)

/-- A bit-stream of forme 0 on press 0 with one step that is an edition of 1 ms, by R205 to R217; its signature
section is zeros. -/
def stream : List Byte :=
  natLe 4 0x4D494B48 ++ natLe 2 1 ++ natLe 2 128 ++ natLe 4 3072 ++ natLe 2 9 ++ le 10 0 0 ++ natLe 8 3 ++
    natLe 2 7 ++ le 94 2 1 ++
    entry 0x01 0xFF 0xFF 512 64 ++ entry 0x05 0 0 768 100 ++ entry 0x06 0 0 1024 48 ++ entry 0x07 0 0 1536 0 ++
    entry 0x08 0 0 1536 0 ++ entry 0x09 0 0 1536 0 ++ entry 0x0A 0 0 1536 0 ++ entry 0x0B 0 0xFF 1280 32 ++
    entry 0x7F 0xFF 0xFF 1536 1536 ++ le 240 0 0 ++
    -- STRUCTURE: forme 0, not carried, link_min 1, press 0, first edition 1
    (natLe 2 0 ++ natLe 1 0xFF ++ natLe 1 1 ++ le 12 2 1 ++ le 240 8 1) ++
    (stepProgram 0 ++ stepProgram 1 ++ le 156 0 0) ++
    (natLe 4 1000000 ++ natLe 4 0 ++ natLe 4 1000000 ++ le 244 2 1) ++
    (natLe 2 0 ++ le 6 2 1 ++ le 248 4 1000000) ++ le 1536 0 0

/-- A legal bit-stream passes every check of CHECKING; one whose forme has no first edition does not. -/
theorem test_check : stream.length = 3072 ∧ State.reset.checkErr stream = none ∧
    (State.reset.checkErr (stream.set 528 0)).map ImpErr.code = some eForme := by decide +kernel

/-- The header, the rollback counter and the identity of the same stream pass; digest and signature rest on
Config's opaque functions. -/
theorem test_verify : headerBad stream 3072 = false ∧ ¬ leAt stream 24 8 < State.reset.rd .secCounterValue 0 0 ∧
    leAt stream 32 2 = 7 ∧ (State.reset.verifyErr []).map ImpErr.code = some eFormat := by decide +kernel

/-- Forme 0 running its first step, with a job. -/
def going (job : Nat) (l : List (Field × Nat × Nat × Nat)) : State :=
  act false false job ((.modFormeStatusState, 0, 0, 2) :: (.hFormeStepRun, 0, 0, 1) :: l)

/-- A POOL of 2 slots over rows of 128 bytes, from a table of 4 rows. -/
def poolJob : Nat := 1 + 32 * 2 ^ 32 + 128 * 2 ^ 48 + 4 * 2 ^ 128 + 2 ^ 160 + 2 * 2 ^ 192

/-- An ALL_REDUCE on plan 0. -/
def reduceJob : Nat := 1 + 2 ^ 31 + 7 * 2 ^ 12 + 7 * 2 ^ 8 + 2 ^ 64

/-- A held slot, a free one, one with a LIMITING rail, a range that is SCHEDULED, and a held access. -/
theorem witness_GalleyArbitration :
    (going 0 [(.galPhaseMapForme, 0, 0, 0)]).holder 0 0 0 = some resv1 ∧
    (going 0 [(.galPhaseMapForme, 0, 0, 0)]).rd .galPhaseMapForme 0 0 = 0 ∧ State.reset.holder 255 3 7 = none ∧
    State.reset.lateTaker 3 7 = none ∧
    (let x : LateXfer := ⟨3, 5, 0, 63, 70⟩
     let s := { State.reset with lateXfers := [x] }
     s.holder (s.rd .galPhaseMapForme 3 7) 3 7 = none ∧ s.lateTaker 3 7 = some x) ∧ (st [(.pwrRailState, 0, 15, 2)]).limits 3 true = true ∧
    State.reset.limits 3 true = false ∧ State.reset.bankSet 3 7 = 7 ∧ 63 % 64 / 8 = State.reset.bankSet 3 7 ∧
    State.reset.phaseHeld (State.reset.rd .galPhaseMapForme 3 7) 3 7 = false ∧ State.reset.promoted 3 22 = false ∧
    State.reset.judge (reqAccess 3 ⟨22, 0, 63, 248, 8, none, []⟩) = .go ∧
    ((st [(.galRangeValid, 3, 0, 1), (.galRangeAttr, 3, 0, 2), (.galRangeFirstLine, 3, 0, 63)]).galAttr 3 63).1 = 2 ∧
    (going 0 []).judge ⟨0, true, 0, 8, some [], ⟨[], false⟩, .unit 19⟩ = .go ∧
    State.reset.heldAccs.all (fun h => h.forme != 15) = true := by decide

theorem witness_ScrubsAndErrors : (st [(.pwrRailState, 0, 12, 2)]).limits 0 true = true ∧
    (st [(.pwrRailState, 0, 19, 2)]).limits (15 / 4) false = true ∧ State.reset.limits (15 / 4) false = false ∧
    State.reset.on .galStatusUe 0 0 = false ∧ (st [(.galStatusUe, 0, 0, 1)]).on .galStatusUe 0 0 = true ∧
    (let s := st [(.galRangeValid, 0, 0, 1), (.galRangeAttr, 0, 0, 1), (.galRangeForme, 0, 0, 15)]
     (s.galAttr 0 0).1 = 1 ∧ (s.galAttr 0 0).2 < 16 ∧ s.role ≠ rStandby) ∧
    (∀ l ∈ [[], [(0, 7)]],
     let s := (State.reset.setLink 31 { Link.init with unacked := [⟨0, 7, true, [], 3, 15, 1⟩], spilled := l })
     (s.link 31).unacked.find? (fun y => y.vc = 0 && y.seq = 7) = some ⟨0, 7, true, [], 3, 15, 1⟩ ∧
     (s.link 31).spilled.contains (0, 7) = !l.isEmpty) ∧
    (let d : SlotXfer := ⟨15, 0, 15, false, 0, 0, 9, 1, 1, 0, 0, 1, 1, 0, true⟩
     (d.moved = true ∧ ([d].find? fun d => d.forme = 15 && d.toOut) = some d)) := by decide

/-- A job before and at its start, an engine that is full, a job that waits, one that is formed or not. -/
theorem witness_JobStarts : (going poolJob []).on .hFormeStepRun 0 0 = true ∧ (going poolJob []).job 0 0 = none ∧
    (going poolJob []).jobDesc 0 0 = some poolJob ∧ jCol poolJob = false ∧ jCol reduceJob = true ∧
    (going poolJob []).engineFull 0 false = false ∧
    (let x := Job.fresh 0 0 poolJob
     (going poolJob []).startCycle x ≤ (going poolJob []).rd .galCycleCycle 0 0 ∧ (going poolJob []).dueJobs 0 x = [0] ∧
     (going poolJob []).nextWaiting 0 false = none ∧ ((going poolJob []).ensureJob 0 0).job 0 0 = some x ∧
     x.status = .idle ∧ (going poolJob []).jobResvs x = [] ∧ ∀ d ∈ (going poolJob []).drains, d.moved = true) ∧
    (let x := { Job.fresh 0 0 poolJob with status := .waiting }
     let s := { going poolJob [] with jobs := [x] }
     s.job 0 0 = some x ∧ s.startCycle x ≤ s.rd .galCycleCycle 0 0 ∧ s.dueJobs 0 x = [0] ∧ s.nextWaiting 0 false = some x) ∧
    (let x := { Job.fresh 0 0 poolJob with status := .running }
     let y := { Job.fresh 0 1 poolJob with status := .waiting }
     let s := { going poolJob [] with jobs := [x, y] }
     s.engineFull 0 false = true ∧ s.nextWaiting 0 false = some y ∧ s.startCycle y ≤ s.rd .galCycleCycle 0 0 ∧
     s.jobs.find? (fun j => j.chase = 0 && j.col = (0 = 1) && j.idx = 0 && j.status = .running) = some x ∧
     x.formed = false ∧ { x with nextLookup := 2 }.formed = true) ∧
    ({ going poolJob [] with jobs := [{ Job.fresh 0 1 poolJob with status := .waiting }] } : State).engineFull 0
      false = false := by decide +kernel

/-- A running POOL at its first and its last lookup, and nodes of a tree of two ranks. -/
theorem witness_LookupsAndNodes :
    (let x := { Job.fresh 0 0 poolJob with status := .running }
     let s := { going poolJob [] with jobs := [x] }
     (s.jobs.find? fun j => j.chase = 0 && !j.col && j.status = .running) = some x ∧ s.job 0 0 = some x ∧
     (s.window x).length = 2 ∧ x.nextLookup % pSlots poolJob + 1 ≠ pSlots poolJob) ∧
    (let s := going reduceJob []
     s.formeOfJob 0 0 = some 0 ∧ s.jobDesc 0 0 = some reduceJob ∧ jKind reduceJob = 1 ∧
     (s.ensureJob 0 0).job 0 0 = some (Job.fresh 0 0 reduceJob) ∧ ((s.ensureJob 0 0).planOf 0 reduceJob).isSome = true ∧
     isNode 2 0 2 = true ∧ isNode 2 1 2 = true ∧ isNode 2 0 3 = false ∧ parentOf 2 0 1 = some (0, 2, true) ∧
     s.formeOfJob 3 0 = none) := by decide

/-- A node store that one more value fills, and one that has room. -/
theorem witness_NodeStore (v : List Nat) :
    let x := { Job.fresh 0 0 reduceJob with held := [⟨0, 0, 1, v, 1, false⟩] }
    ({ going reduceJob [] with jobs := [x] } : State).heldBytes 0 = v.length * 8 := by
  simp [State.heldBytes, State.stored, Job.fresh, nodeBytes, show jMode reduceJob = 7 by decide,
    show jChase reduceJob = 0 by decide, show jCol reduceJob = true by decide]

theorem witness_ImpositionLoad : State.reset.slot = iEmpty ∧ (st [(.modImpStatusPending, 0, 0, 5)]).slot = iRejected ∧
    (let s := { st [(.modImpStatusPending, 0, 0, 1)] with pendingBytes := [] }
     s.slot = iVerifying ∧ s.on .hImpDiscard 0 0 = false ∧ (s.verifyErr s.pendingBytes).isSome = true) ∧
    (let s := { st [(.modImpStatusPending, 0, 0, 2)] with pendingBytes := stream }
     s.slot = iChecking ∧ s.on .hImpDiscard 0 0 = false ∧ s.checkErr s.pendingBytes = none) ∧
    (st [(.modImpStatusPending, 0, 0, 2), (.hImpDiscard, 0, 0, 1)]).on .hImpDiscard 0 0 = true ∧
    (st [(.modImpStatusPending, 0, 0, 3)]).slot = iLoaded := by decide +kernel

/-- A loaded imposition with no forme to carry, before and after its SWITCH, and one that carries a forme whose
first edition is past. -/
theorem witness_ImpositionSwitch :
    (let s := { st [(.modImpStatusPending, 0, 0, 3)] with loaded := some (imp1 false false 0) }
     s.slot = iLoaded ∧ s.carryFault = none) ∧
    (let c : Imposition := { imp1 false false 0 with formes := [{ forme1 false false 0 with carriedFrom := 0 }] }
     let s := { act false false 0 [(.modImpStatusPending, 0, 0, 3), (.modFormeEditionEdition, 0, 0, 9)] with
       loaded := some c }
     s.slot = iLoaded ∧ s.carryFault = some 0) ∧
    (let s := { st [(.modImpStatusPending, 0, 0, 4), (.hImpSwitchStep, 0, 0, 1)] with
       loaded := some (imp1 false false 0) }
     s.slot = iCommitting ∧ s.rd .hImpSwitchStep 0 0 = 1 ∧ s.carryFault = none ∧ s.unheld = [] ∧ s.quiesced = true ∧
     s.fabricForme = none ∧ bit (imp1 false false 0).presses 0 = true ∧ bit (imp1 false false 0).presses 11 = false ∧
     (imp1 false false 0).rollbackVersion ≠ s.rd .secCounterValue 0 0) ∧
    (let s := { st [(.modImpStatusPending, 0, 0, 4), (.hImpSwitchStep, 0, 0, 3)] with
       loaded := some (imp1 false false 0) }
     s.rd .hImpSwitchStep 0 0 = 3 ∧ s.active = none ∧
     (∀ q, q < 32 → ((imp1 false false 0).port q).lit = false) ∧
     ((imp1 false false 0).formes.map Forme.number).Nodup) := by decide

theorem witness_FormeCommands :
    (let s := act false false 0 [(.modFormeStatusState, 0, 0, 1), (.pairStatusRole, 0, 0, 1)]
     s.startable 0 = true ∧ s.forme 0 = some (forme1 false false 0) ∧ s.select (forme1 false false 0) = some (var1 0) ∧
     s.abandonedAt 0 0 = false ∧ s.rd .hFormeCausePend 0 0 = 0 ∧ s.resumable 0 = false ∧
     s.on .hFormeCkptPend 0 0 = false ∧ (s.judgeEngines (forme1 false false 0)).select (forme1 false false 0) = some (var1 0)) ∧
    (let s := act false false 0 [(.modFormeStatusState, 0, 0, 6), (.modFormeStatusParkReason, 0, 0, parkCap)]
     s.fState 0 = fParked ∧ s.rd .modFormeStatusParkReason 0 0 = parkCap) ∧
    State.reset.fState 15 = fNone ∧ State.reset.role ≠ rActive ∧
    (let s := act false false 0 [(.modFormeStatusState, 0, 0, 4), (.pairStatusRole, 0, 0, 1), (.hFormeNextQ, 0, 0, 1)]
     s.resumable 0 = true ∧ s.startable 0 = false ∧ s.rd .hFormeNextQ 0 0 ≠ s.rd .hFormeEdQ 0 0) ∧
    (let s := act false false 0 [(.modFormeStatusState, 0, 0, 2), (.pairStatusRole, 0, 0, 1)]
     s.letIn 0 0 = s ∧ s.startable 0 = false ∧ s.resumable 0 = false) := by decide

theorem witness_FormeSteps :
    (let s := act false false 0 [(.modFormeStatusState, 0, 0, 2), (.hFormeReady, 0, 0, 1), (.prsStatusState, 0, 0, 2)]
     s.releasable 0 = true ∧ s.variant 0 = some (var1 0) ∧ (forme1 false false 0).fabric = false ∧
     s.batchDone (forme1 false false 0) = true ∧ s.pState 0 = pReady) ∧
    (let s := act false true 0 [(.modFormeStatusState, 0, 0, 2), (.hFormeReady, 0, 0, 1)]
     s.releasable 0 = true ∧ s.peersReady (forme1 false true 0) = false ∧
     s.rd .hFormeNextQ 0 0 = s.rd .hFormeEdQ 0 0) ∧
    (let s := { going poolJob [(.hPrsStepped, 0, 0, 1)] with jobs := [{ Job.fresh 0 0 poolJob with status := .done }] }
     s.curStep 0 = some step1 ∧ s.fState 0 = fRunning ∧ s.stepFinished 0 = true ∧ step1.editionEnd = false ∧
     s.rd .hFormeRelTick 0 0 + step1.nominal + step1.slack = 110 ∧
     s.rd .hFormeRelTick 0 0 + step1.watchdog = 200) := by decide

theorem witness_EditionCommits :
    (let s := act false false 0 [(.modFormeStatusState, 0, 0, 3), (.prfPressSlicePassed, 0, 0, 0x1FFFF),
       (.hFormeHoldPend, 0, 0, 1)]
     s.forme 0 = some (forme1 false false 0) ∧ s.fState 0 = fClosing ∧ s.drainsDone 0 = true ∧
     s.slicesDone 0 = true ∧ (s.mirrorOk (forme1 false false 0)).1 = true ∧ s.on .hFormeResumePend 0 0 = false ∧
     s.rd .hPairSwapEdition 0 0 = 0) ∧
    (act false false 0 [(.modFormeStatusState, 0, 0, 3)]).slicesDone 0 = false ∧
    (let s := act false false 0 [(.modFormeStatusState, 0, 0, 5)]
     s.fState 0 = fAbandoning ∧ s.on .hFormeAbandoned 0 0 = false ∧ s.select (forme1 false false 0) = some (var1 0) ∧
     s.livePartner = false ∧ s.outsideCause (forme1 false false 0) = false) ∧
    (let s := act false false 0 [(.hFormeRewrite, 0, 0, 1)]
     s.variant 0 = some (var1 0) ∧ s.on .hFormeRewrite 0 0 = true) := by decide

/-- Port 0 UP with its eight data lanes members both ways, and the fabric forme on it. -/
def upPort (l : List (Field × Nat × Nat × Nat)) : State :=
  act false true 0 ([(.lnkStatusState, 0, 0, 5), (.lnkStatusTxMask, 0, 0, 0xFF), (.lnkStatusRxMask, 0, 0, 0xFF)] ++
    (List.range 8).map (fun i => (.lnkLaneState, 0, i, 3)) ++ l)

/-- That state with link end n replaced. -/
def upWith (n : Nat) (x : Link) (l : List (Field × Nat × Nat × Nat)) : State := (upPort l).setLink n x

/-- A data block with its parity right. -/
def goodBlock : LaneBlock := ⟨1, 0, parityOf 1 0⟩

/-- A frame of channel 1. -/
def frame1 : LFrame := ⟨1, 7, true, [1], 0, 255, 0⟩

theorem witness_RingLoopsAndMonitors : (st [(.oeRingState, 7, 79, 2)]).ringState 7 79 = 2 ∧
    (st [(.oeRingState, 0, 0, 3), (.hOeHoldEnd, 0, 0, 1), (.modTickTick, 0, 0, 1)]).ringState 0 0 = 2 ∧
    State.reset.ringState 0 0 ≠ 2 ∧ State.reset.rd .hOeCalMode 0 3 = 0 ∧ (∀ c ∈ State.reset.calJobs, c.engine ≠ 0 ∨ c.fibre ≠ 3) ∧
    (let s := { State.reset with ringErr := [((0, 0), (256 : Int))] }
     256 < (s.ringErr.getD (0, 0) 0 + clampI 9 (-2) 2).natAbs) ∧
    (let dark : MonSample := ⟨[], [], [], [], [], [], [], []⟩
     State.reset.losses 7 dark = [] ∧ State.reset.on .oeLossFaultValid 7 0 = false) := by decide

/-- Rings that are parked, that lock without a carrier's tone, and that sweep to recover. -/
theorem witness_ToneWindows : State.reset.rd .oeRingState 0 0 < 2 ∧
    (let s := st [(.oeRingState, 0, 10, 2)]
     2 ≤ s.rd .oeRingState 0 10 ∧ s.ringLit 0 10 = true ∧ (false && s.toneOk 0 10 0) = false ∧
     (0 :: (s.mislocks.getD (0, 10) []).filter fun x => 0 - x < 2 ^ 34).length = 1 ∧ s.lane 0 0 ≠ laneMember) ∧
    (let s := { State.reset with mislocks := [((0, 10), [5])] }
     2 ≤ (6 :: (s.mislocks.getD (0, 10) []).filter fun x => 6 - x < 2 ^ 34).length) ∧
    (upPort []).lane 0 0 = laneMember ∧ (upPort []).spareUse 0 0 ≠ suRetired ∧
    (let s := st [(.oeRingState, 7, 79, 1), (.hOeRecover, 7, 79, 1)]
     s.rd .oeRingState 7 79 = 1 ∧ s.on .hOeRecover 7 79 = true) := by decide

/-- A lane that a loop's drift makes due and that can be calibrated, and a calibration that runs. -/
theorem witness_Calibrations :
    (let s := { upPort [] with ringErr := [((0, 0), (257 : Int))] }
     s.rd .hOeCalMode 0 0 = 0 ∧ (s.stamp 0).dueBy 0 0 0 .drift = true ∧ s.calFree 0 (s.fibreOf 0 0 0) = true ∧
     s.calLane 0 (s.fibreOf 0 0 0) 0 = true ∧ s.spareUse 0 (s.fib 0 0 0) = suFree ∧ (s.link 0).request = none) ∧
    State.reset.dueBy 7 3 9 .drift = false ∧
    (let s := st [(.hOeCalMode, 7, 3, 1)]
     s.rd .hOeCalMode 7 3 = 1 ∧ s.calFree 7 3 = true ∧ s.rd .hOeCalMode 7 0 = 0) ∧
    (let c : CalJob := ⟨0, 0, 0, 0, false, none, none, 0, 0⟩
     let s := { upPort [(.oeRingState, 0, 0, 1)] with calJobs := [c], calRuns := [((0, 0), [7])] }
     s.ringJob 0 0 = some c ∧ s.rd .oeRingState 0 0 = 1 ∧ s.calRuns.getD (0, 0) [] = [7] ∧ Machine.dist 7 11 ≤ 4 ∧
     4 < Machine.dist 7 12 ∧ s.calFree 0 0 = false ∧ s.laneJob 0 0 = some c ∧ s.linkOpen 0 = true ∧ c.result = none) ∧
    (⟨0, 0, 0, 0, true, none, none, 0, 0⟩ : CalJob).aborted = true ∧ State.reset.ringJob 7 79 = none ∧
    State.reset.trains (State.reset.fibPort 7 (State.reset.ringFib 7 79) 9) = false ∧ State.reset.rd .oeRingState 7 79 < 2 ∧
    State.reset.swapMoving 7 = none := by decide

/-- A dark laser, lit ones at each threshold, a warming twin, and a lane that a laser carries. -/
theorem witness_LaserFades : State.reset.rd .lsuLaserLit 0 159 = 0 ∧
    (let s := st [(.lsuLaserLit, 0, 0, 3)]
     s.rd .lsuLaserLit 0 0 ≠ 0 ∧ s.rd .lsuLaserStage 0 0 = 0 ∧ fadeRate (s.fadeLog 0 0 (-50)) ≤ 500) ∧
    (let s := st [(.lsuLaserLit, 0, 0, 3), (.lsuLaserStage, 0, 0, 1)]
     s.rd .lsuLaserStage 0 0 = 1 ∧ s.twinUnusable 0 = true ∧ -30 < sgn 16 (s.rd .lsuLaserOutput 0 0) ∧
     s.rd .lsuLaserBias 0 0 < 750) ∧
    (let s := st [(.lsuStatusStateB, 0, 0, 3), (.lsuStatusBoltedB, 0, 0, 1)]
     s.twinUnusable 0 = false) ∧
    (st [(.lsuLaserLit, 0, 159, 1)]).rd .lsuLaserLit 0 159 = 1 ∧ State.reset.carrier 7 3 9 = none ∧
    (let s := upPort [(.lsuLaserLit, 0, 0, 3), (.hLsuSel, 0, 0, 1)]
     s.carrier 0 0 0 = some 0 ∧ s.linkOpen (portOf 0 0) = true ∧ s.spareUse 0 (s.fib (portOf 0 0) 0 0) = suFree ∧
     s.spareNeeds = [] ∧ s.swaps = [] ∧ s.twinUnusable 0 = true) := by decide

theorem witness_LaserUnits : State.reset.coverOk 1 = false ∧ State.reset.rd .lsuStatusBolted 0 0 ≠ 1 ∧
    (let s := st [(.lsuStatusStateB, 0, 0, 3), (.lsuStatusState, 0, 0, 3), (.lsuStatusBolted, 0, 0, 1)]
     s.coverOk 0 = true ∧ s.unitState 0 ≠ 4 ∧ s.swaps = [] ∧ ∀ i < 80, s.rd .lsuLaserLit 0 (80 * 0 + i) ≠ 3) ∧
    (st [(.lsuStatusState, 0, 0, 5), (.lsuStatusPresent, 0, 0, 1)]).unitState 0 = 5 ∧
    (let s := st [(.oeStatusShutdown, 7, 0, 1), (.lsuStatusState, 0, 0, 6)]
     s.isShut = true ∧ s.rd .thmStatusTrip 0 0 ≠ 1 ∧ s.rd .hHeartMiss 0 0 = 0 ∧ (∀ n < 160, s.rd .hOverPower 0 n = 0) ∧
     s.unitState 0 = 6) ∧
    State.reset.isShut = false ∧ State.reset.unitState 1 = 0 ∧ (st [(.lsuStatusState, 0, 0, 1)]).unitState 0 = 1 ∧
    8 < (List.range 9).eraseDups.length ∧ 79 % 10 = 9 ∧ ([0, 0, 1] : List Nat).eraseDups.length ≤ 8 := by decide +kernel

theorem witness_LaneMembership : (55 < linkEnds) ∧ 71 < allLanes 55 ∧ 143 < allLanes 39 ∧ 8 < allLanes 31 ∧
    (st [(.lnkLaneState, 31, 8, 1)]).lane 31 8 = laneHunt ∧ State.reset.steered 31 8 = false ∧
    (let s := st [(.lnkLaneState, 0, 0, 1), (.oeStatusSteering, 0, 0, 1), (.lnkStatusRxMask, 0, 0, 1)]
     s.steered 0 0 = true) ∧
    (st [(.lnkLaneState, 31, 8, 2)]).lane 31 8 = laneLocked ∧
    (let s := upPort [(.lnkLaneState, 0, 0, 2)]
     s.linkOpen 0 = true ∧ s.lane 0 0 = laneLocked ∧ s.lane 0 1 ≠ laneRetired) ∧
    (let s := upPort [(.lnkLaneState, 0, 8, 2), (.oeFibreStatusSpareUse, 0, 1, 1), (.oeFibreStatusSpareLane, 0, 1, 0), (.lnkStatusRxMask, 0, 0, 0xFE)]
     s.lsStands 0 1 = true ∧ s.lane 0 8 = laneLocked ∧ s.idleGroup 0 8 = false) ∧
    (let s := State.reset.setLink 55 { Link.init with state := 5, lanes := [(63, 2)], covers := [(70, 63)] }
     s.linkOpen 55 = true ∧ s.lane 55 63 = laneLocked ∧ s.wantsRejoin 55 63 = true ∧ s.idleGroup 55 63 = true) ∧
    (let s := State.reset.setLink 55 { Link.init with state := 5, lanes := [(63, 2)] }
     s.wantsRejoin 55 63 = false) ∧
    (State.reset.setLink 55 { Link.init with idle := [(71, 2 ^ 20)] }).link 55 ≠ Link.init := by decide

/-- A member of an open link, with and without link_min others, blocks that are good and bad, and each case of
LINK_DOWN at its boundary. -/
theorem witness_LaneLosses : (upPort []).lane 0 7 = laneMember ∧ (upPort []).linkOpen 0 = true ∧
    blockErr goodBlock goodBlock = false ∧ blockErr goodBlock ⟨1, 0, 1 - parityOf 1 0⟩ = true ∧
    blockErr goodBlock ⟨0, 0, parityOf 0 0⟩ = true ∧ (upPort []).linkMin 0 = 1 ∧ 1 ≤ (upPort []).txWidth 0 ∧
    ((List.range (allLanes 0)).filter fun x => x != 7 && (upPort []).rxMember 0 x).length = 7 ∧
    ((upPort []).laneErrors 0 7 0).length < 3 ∧
    3 ≤ ((upWith 0 { Link.init with errs := [(7, [1, 2])] } []).laneErrors 0 7 3).length ∧
    (st [(.lnkLaneState, 31, 8, 4)]).lane 31 8 = laneRetrain ∧ State.reset.laneFails 31 8 < 2 ∧
    2 ≤ (st [(.lnkLaneRetrainFails, 31, 8, 2)]).laneFails 31 8 ∧
    (upPort [(.lnkStatusTxMask, 0, 0, 0)]).downCase 0 1 0 = true ∧ (upPort []).downCase 0 1 0 = false ∧
    (upPort [(.lnkStatusRxMask, 0, 0, 0)]).downCase 0 2 0 = true ∧ (upPort []).downCase 0 3 0 = true ∧
    (upPort [(.fabStatusState, 0, 0, 3)]).downCase 0 6 (2 ^ 27) = true ∧ (upPort []).downCase 0 7 0 = false ∧
    (st [(.lnkStatusState, 31, 0, 3)]).lState 31 = lAlign := by decide

/-- Link end 0 in IDENT with both final words, its words taken. -/
def identified : Link :=
  { Link.init with train := ⟨(List.range 10).map fun i => (i, if i = 0 then 0xFF * 2 ^ 18 else 0), [], true, true, true, true, 0xFF⟩ }

theorem witness_LinkTraining :
    (let s := st [(.lnkStatusState, 31, 0, 2)]
     s.lState 31 = lClock ∧ (s.link 31).waiting = false ∧ (s.stamp 5).darkNow 31 = false ∧ (s.link 31).retraining = false ∧ (s.link 31).tries < 2) ∧
    (let s := st [(.lnkStatusState, 31, 0, 2), (.lnkStatusTxMask, 31, 0, 0), (.hLnkDarkEnd, 31, 0, 2000), (.hTimeBase, 0, 0, 1)]
     (s.stamp 1999).darkNow 31 = true ∧ (s.stamp 2000).darkNow 31 = false ∧
     trainTimeout (s.endState 31) ≤ 2 ^ 20 - (s.link 31).since) ∧
    (let s := st [(.lnkStatusState, 31, 0, 1)]
     s.lState 31 = lAbsent ∧ s.rd .oeStatusShutdown (31 / 4) 0 ≠ 1 ∧ s.rd .prfLoopbackBusy 0 0 ≠ 1) ∧
    (st [(.lnkStatusState, 31, 0, 7)]).lState 31 = lMismatch ∧ (upPort []).lState 0 = lUp ∧
    (let s := upPort [(.lnkStatusState, 0, 0, 3), (.lnkLaneState, 0, 8, 2)]
     s.endState 0 = lAlign ∧ (s.litLanes 0).all (fun i => s.locked 0 i) = true) ∧
    (let s := st [(.lnkStatusState, 31, 0, 3)]
     (s.litLanes 31).all (fun i => s.locked 31 i) = false) ∧
    (let s := upPort [(.lnkStatusState, 0, 0, 4)]
     s.endState 0 = lIdent ∧ s.identityOk 0 5 3 = true ∧ s.identityOk 0 5 4 = false ∧ (s.link 0).gapOk = false ∧
     seqGt 1 (s.rxExp 0 0) = true ∧ seqGt 0 (s.rxExp 0 0) = false) ∧
    (let s := upWith 0 identified [(.lnkStatusState, 0, 0, 4)]
     s.endState 0 = lIdent ∧ (s.link 0).train.peerOk = true ∧ (s.link 0).train.sentFinal = true ∧
     s.linkMin 0 ≤ popCount (bitsAt (s.trainWord 0 0) 18 8) 8 ∧
     s.linkMin 0 ≤ popCount (s.link 0).train.reported 8 ∧ (s.link 0).marks = [] ∧ s.swaps = []) ∧
    (let s := upWith 0 { Link.init with retraining := true } [(.lnkStatusState, 0, 0, 6)]
     s.endState 0 = lRetrain ∧ (s.link 0).retraining = true) ∧
    (let s := State.reset.setLink 55 { Link.init with state := 2, waiting := true }
     s.endState 55 = lClock ∧ (s.link 55).waiting = true ∧ 2 ^ 16 ≤ 2 ^ 16 - (s.link 55).since ∧
     2 ^ 16 - 1 - (s.link 55).since < trainTimeout lClock) ∧
    (let x := { identified with state := 4, lanes := (List.range 72).map fun i => (i, 2) }
     let s := (State.reset.setLink 54 x).setLink 55 x
     s.endState 55 = lIdent ∧ ((s.shortEnds (dieLinkOf 55)).fillWidth (dieLinkOf 55)).isSome = true) := by decide

/-- A lane of a link that is UP with each thing that its boundary can send. -/
theorem witness_LinkTransmission :
    (let s := upPort [(.lnkCreditVc1, 0, 0, 1)]
     s.upReady 0 = false ∧ s.steerHeld 0 = false ∧ (s.stamp 0).darkNow 0 = false ∧ s.rewindNext 0 = false ∧ s.endState 0 = lUp ∧ markReady (s.link 0).marks 7 = none ∧
     s.txMember 0 7 = true ∧ s.bypReady 0 7 = false ∧ s.oldestResend 0 (s.link 0).resendQ = none ∧
     s.readyNew 0 = none ∧ s.txMember 0 8 = false ∧ channelOk 0 2 = true ∧ channelOk 0 3 = false) ∧
    markReady [(8, true), (7, false)] 8 = some (8, true) ∧
    (upWith 0 { Link.init with bypQ := [⟨1, 0, 0⟩] } []).bypReady 0 7 = true ∧
    (upWith 0 { Link.init with resendQ := [(frame1, true)] } []).oldestResend 0 [(frame1, true)] = some (frame1, true) ∧
    (upWith 0 { Link.init with newQ := [frame1] } [(.lnkCreditVc1, 0, 0, 1)]).readyNew 0 = some frame1 ∧
    (let s := upWith 0 { Link.init with resendQ := [(frame1, true)], rewinds := [(1, 7)] } [(.hLnkBypRun, 0, 7, 4)]
     s.rewindNext 0 = true ∧ 4 ≤ s.rd .hLnkBypRun 0 7) ∧
    (let s := upPort [(.lnkStatusState, 0, 0, 6)]
     s.endState 0 = lRetrain ∧ markReady (s.link 0).marks 7 = none) ∧
    (let s := upPort [(.lnkStatusState, 0, 0, 4), (.oeFibreStatusLevel, 0, 0, 3)]
     s.endState 0 = lIdent ∧ s.upReady 0 = false) ∧
    (let x := { Link.init with unacked := [frame1], request := some ⟨0x20, 0, 1, 15⟩ }
     (x.unacked.find? fun f => f.vc = 1 && f.seq % 2 ^ 20 = 7 % 2 ^ 20) = some frame1 ∧
     x.request = some ⟨0x20, 0, 1, 15⟩ ∧ x.peerCal = false ∧ x.wait = [] ∧ x.widthReq = none) := by decide

/-- Frames that are expected, ahead and behind, and messages with their CRC. -/
theorem witness_LinkReception :
    (let s := upPort [(.lnkRxSeqExpected, 0, 1, 5)]
     s.linkOpen 0 = true ∧ s.rxMember 0 7 = true ∧ s.rxMember 0 8 = false ∧ extend (s.rxRef 0 1) 5 = s.rxExp 0 1 ∧
     seqGe (extend (s.rxRef 0 1) 6) (s.rxExp 0 1) = true ∧ extend (s.rxRef 0 1) 6 ≠ s.rxExp 0 1 ∧
     seqGe (extend (s.rxRef 0 1) 4) (s.rxExp 0 1) = false ∧ s.lane 0 7 = laneMember ∧ channelOk 0 3 = false) ∧
    (let f : Frame := ⟨7, 1, 5, 0, 244, true, false, [], frameCrc (frameBody 1 5 0 244 true false) []⟩
     f.crcOk = true ∧ { f with len := 245 }.crcOk = false) ∧
    (bypOf 0x02 (2 ^ 16 + 9) 0).crcOk 0x02 (2 ^ 16 + 9) = true ∧ (bypOf 0x02 0 0).crcOk 0x02 1 = false ∧
    (upPort [(.fabIdentityIdentity, 0, 0, 1)]).tokenNew (endChase 0) 5 63 15 0 = true ∧
    ({ State.reset with tokens := [((0, 5, 63), ⟨15, 3, 0⟩)] } : State).tokenNew 0 5 63 15 3 = false ∧
    (upPort []).agreedEdition = none ∧ (seqGe 7 frame1.seq = true ∧ seqGe 6 frame1.seq = false) := by decide +kernel

/-- A request to the end's own chase, to another over an open and over a closed ring link, and answers. -/
theorem witness_RemoteAccesses :
    (let s := (upPort []).setLink (ringEnd (endChase 0) 1) { Link.init with state := 5 }
     s.linkOpen 0 = true ∧ req0.target = endChase 0 ∧ s.linkOpen (ringEnd (endChase 0) 1) = true ∧
     s.judge ⟨0, true, 0, 64, none, ⟨[], false⟩, .link 0 req0⟩ = .go ∧
     s.judge ⟨0, true, 256 * galLines, 64, none, ⟨[], false⟩, .link 0 req0⟩ = .fault 1) ∧
    (upPort []).linkOpen (ringEnd (endChase 0) 1) = false ∧
    (let s := upWith 0 { Link.init with vc1Out := [⟨5, ⟨0, true, 0, 64, none, ⟨[], false⟩, .unit 22⟩⟩] } []
     ((s.link 0).vc1Out.find? fun r => r.tag = 5).isSome = true ∧
     (s.link 0).vc1Out.find? (fun r => r.tag = 6) = none) := by decide

/-- Requests that are fresh, repeated and colliding, and acknowledgements that answer. -/
theorem witness_LinkRequests : (bypOf 0x20 (laneArg 5 7 0) 3).crcOk 0x20 (laneArg 5 7 0) = true ∧
    (upPort []).linkOpen 0 = true ∧ ((upPort []).link 0).request = none ∧ ((upPort []).link 0).served = none ∧
    ((upPort []).link 0).unacked = [] ∧ (upPort []).rd .fabStatusState 0 0 ≠ 3 ∧
    (upPort []).spareUse 0 ((upPort []).fib 0 7 1) ≠ suRetired ∧ (upPort []).outranks 0 5 = false ∧
    (upPort [(.fabIdentityIdentity, 0, 0, 1)]).outranks 0 31 = true ∧ (upPort []).noSpare 0 7 = false ∧
    (upPort []).txMember 0 8 = false ∧ 8 < allLanes 0 ∧ (upPort []).calJob 0 0 = none ∧
    (let s := upWith 0 { Link.init with request := some ⟨0x20, laneArg 0 7 0, 3, 0⟩ } []
     bitsAt (laneArg 0 7 0) 7 4 = 7 ∧ bitsAt (laneArg 0 7 0) 4 3 = 0 ∧ (s.link 0).again = [] ∧
     (bypOf 0x22 (laneArg 0 7 0) 3).crcOk 0x22 (laneArg 0 7 0) = true) ∧
    (upPort [(.oeFibreStatusSpareUse, 0, 0, 5), (.oeFibreStatusSpareLane, 0, 0, 3)]).noSpare 0 7 = true ∧
    (upPort [(.lnkStatusTxMask, 0, 0, 0x7F)]).leaving 0 7 = true ∧
    (let s := upPort [(.lnkStatusTxMask, 0, 0, 0x17F)]
     s.txMember 0 7 = false ∧ s.idleGroup 0 7 = false ∧ s.laneLit 0 7 = true ∧ s.txMember 0 8 = true ∧
     bit 0xFF 7 = true ∧ bit 0xFF 8 = false ∧ (7, true) ∉ (s.link 0).toMark ∧ s.reqLane 0 (laneArg 0 7 0) = 7) ∧
    (State.reset.setLink 55 { Link.init with state := 5 }).idleGroup 55 63 = true := by decide +kernel

theorem witness_DieLinks :
    (let s := State.reset.setLink 55 { Link.init with state := 5, txLanes := [63, 64] }
     dieEnd 11 1 = 55 ∧ s.linkOpen 55 = true ∧ 63 < allLanes 55 ∧ s.txMember 55 63 = true ∧
     (s.link 55).txCovers.getD 63 63 = 63 ∧ (63, false) ∉ (s.link 55).toMark ∧
     (s.link (otherEnd 55)).covers.find? (fun c => c.2 = 63 && c.1 != 63) = none) ∧
    (let s := (State.reset.setLink 55 { Link.init with state := 5, txLanes := [63, 64] }).setLink 54
       { Link.init with covers := [(70, 63)] }
     otherEnd 55 = 54 ∧ (s.link (otherEnd 55)).covers.find? (fun c => c.2 = 63 && c.1 != 63) = some (70, 63)) ∧
    (let s := State.reset.setLink 55 { Link.init with lanes := (List.range 72).map fun i => (i, 3) }
     16 ≤ s.readyLanes 55 3) ∧ State.reset.readyLanes 55 3 < 16 ∧
    ¬(State.reset.rd .prfResultState 0 0 = 1 ∨ (4 ≤ 11 ∧ State.reset.rd .hOeFailed (11 - 4) 0 = 1)) ∧
    (st [(.hOeFailed, 7, 0, 1)]).rd .hOeFailed (11 - 4) 0 = 1 ∧
    (bypOf 0x21 63 0).crcOk 0x21 63 = true ∧ (bypOf 0x30 15 1).crcOk 0x30 15 = true ∧ State.reset.linkOpen 55 = false ∧
    (State.reset.setLink 32 { Link.init with state := 3 }).endState 32 = lAlign ∧ dieGroups 32 = 8 ∧ dieGroups 55 = 4 ∧
    State.reset.dieWidth 11 ≠ 3 ∧ (st [(.ddlStatusState, 3, 3, 3)]).rd .ddlStatusState (ddlOf 11).1 (ddlOf 11).2 = 3 ∧
    State.reset.livePartner = false ∧
    (st [(.pairStatusRole, 0, 0, 1), (.pairStatusLiveIn, 0, 0, 1), (.pairStatusPartnerRole, 0, 0, 2)]).livePartner =
      true := by decide +kernel

/-- Sites in each state; before an imposition a site counts as enabled and without a window. -/
theorem witness_GuestSites : State.reset.rd .prfResultState 0 0 ≠ 2 ∧ State.reset.rd .prfResultState 0 0 ≠ 4 ∧
    (st [(.prfResultState, 0, 0, 4)]).rd .prfResultState 0 0 = 4 ∧ bitsAt (4 * 2 ^ 60) 60 4 = 4 ∧ bitsAt (3 * 2 ^ 60) 60 4 ≠ 4 ∧
    ({ req0 with target := 3 } : VcReq).module = 0 ∧ State.reset.guestRec 2 = none ∧
    (let s := st [(.prfResultState, 0, 0, 2), (.gstStatusRate, 2, 0, 6), (.gstStatusState, 2, 0, 2)]
     s.rd .prfResultState 0 0 = 2 ∧ s.gState 2 = gTraining ∧ s.rd .gstStatusRate 2 0 ≠ 0) ∧
    (st [(.gstStatusState, 0, 0, 4)]).gState 0 = gDown ∧ (st [(.gstStatusState, 0, 0, 3)]).gState 0 = gUp ∧
    windowAllows (2 ^ 38, 1) req0 false = true ∧ windowAllows (2 ^ 38, 1) req0 true = false ∧
    windowAllows (2 ^ 38, 1) { req0 with sectors := 2 } false = false ∧ State.reset.guestHeld 0 < 64 ∧
    (∀ r : GuestRec, r.enable = true → r.enable ≠ false) := by
  refine ⟨by decide, by decide, by decide, by decide, by decide, by decide, by decide, by decide, by decide, by decide,
    by decide, by decide, by decide, by decide, ?_⟩
  intro r h; simp [h]

/-- A barrier round that is ready, a steering window, UP ports, and a loss just above and at 9.0 dB. -/
theorem witness_FabricRounds : State.reset.active = none ∧ (upPort []).active ≠ none ∧
    (let v := { var1 0 with
       steps := [{ step1 with barCount := 1 }], barriers := [⟨63, false, [⟨0, 0, 0, 1⟩]⟩] }
     let s := { going 0 [] with
       active := some { imp1 false false 0 with formes := [{ forme1 false false 0 with variants := [v] }] },
       arrivals := [((0, 63, 0, 0), 1)] }
     s.rd .hFormeStepRun 0 0 = 1 ∧ s.roundReady 0 63 = true ∧ s.steersOf 0 63 = []) ∧
    State.reset.roundReady 15 63 = false ∧ (st [(.oeStatusSteering, 7, 0, 1)]).rd .oeStatusSteering 7 0 = 1 ∧
    (let s := upPort [(.fabIdentityIdentity, 0, 0, 1)]
     s.lState 0 = lUp ∧ s.fabricPort 0 = true ∧ s.fabricPort 31 = false) ∧
    (bypOf 0x84 (9 * 2 ^ 28 + 0xFC7B) 0).crcOk 0x84 (9 * 2 ^ 28 + 0xFC7B) = true ∧
    900 < sext16 0 - sext16 0xFC7B ∧ sext16 0 - sext16 0xFC7C ≤ 900 := by decide +kernel

theorem witness_EditionsAcrossModules : (bypOf 0x80 9 0).crcOk 0x80 9 = true ∧ (bypOf 0x81 7 1).crcOk 0x81 7 = true ∧
    (let s := upPort [(.fabIdentityIdentity, 0, 0, 1), (.modFormeStatusState, 0, 0, 2)]
     s.linkOpen 0 = true ∧ (s.stamp 0).replaying 0 = false ∧ s.fabricForme = some (forme1 false true 0) ∧ s.fabricPort 0 = true ∧
     s.fState 0 ≠ fNone) ∧
    (let s := upWith 0 { Link.init with
       retained := [frame1], served := some (0x81, 1, 7), request := some ⟨0x81, 7, 1, 0⟩ } []
     (s.link 0).served = some (0x81, 1, 7 % 2 ^ 20) ∧ extend ((oldestSeq (s.link 0).retained).getD 0) 7 = 7 ∧
     (s.link 0).request = some ⟨0x81, 7, 1, 0⟩) ∧
    (upPort [(.fabIdentityIdentity, 0, 0, 1), (.fabStatusState, 0, 0, 3)]).downCase 0 6 (2 ^ 27) = true ∧
    (upPort [(.fabStatusState, 0, 0, 2)]).rd .fabStatusState 0 0 = 2 ∧ 2 ^ 30 < 2 ^ 30 + 1 - 0 := by decide +kernel

/-- Modules that may ask for a role and may not, that asked and are granted or refused, a module in SWAP_HOLD, and
port 1, which the pair shares. -/
theorem witness_PairRoles : State.reset.role = rNone ∧ (act true false 0 []).role = rNone ∧
    (act true false 0 []).active ≠ none ∧ ¬(State.reset.role = rNone ∧ State.reset.active ≠ none) ∧
    (let s := act true false 0 [(.lnkStatusState, 1, 0, 5)]
     s.isPairPort 1 = true ∧ s.lState 1 = lUp ∧ s.linkOpen 1 = true ∧ (s.link 1).unacked = [] ∧
     s.rd .fabStatusState 0 0 ≠ 3) ∧
    (act true false 0 []).isPairPort 0 = false ∧ State.reset.linkOpen 1 = false ∧
    (∀ want ∈ [1, 2], let s := st [(.pairStatusPending, 0, 0, want)]
     s.rd .pairStatusPending 0 0 = want ∧ s.rd .pairStatusLiveIn 0 0 ≠ 1 ∧ s.role = rNone ∧
     s.rd .pwrRailState 0 11 ≠ 3) ∧
    (∀ want ∈ [1, 2], let s := st [(.pairStatusPending, 0, 0, want), (.pairStatusLiveIn, 0, 0, 1),
       (.pairStatusMember, 0, 0, 1)]
     s.rd .pairStatusLiveIn 0 0 = 1 ∧ s.rd .pairStatusMember 0 0 = 1 ∧ s.rd .pairStatusPending 0 0 = want) ∧
    (bypOf 0x90 (helloOf 15 1 0 2) 0).crcOk 0x90 (helloOf 15 1 0 2) = true ∧
    (bypOf 0x91 7 0).crcOk 0x91 7 = true ∧ (bypOf 0x92 7 0).crcOk 0x92 7 = true ∧
    (st [(.pairStatusRole, 0, 0, 5)]).role = rSwapHold ∧ (st [(.pairStatusRole, 0, 0, 1)]).role ≠ rNone := by
  decide +kernel

theorem witness_Mirroring :
    (let s := act true false 0 [(.pairStatusRole, 0, 0, 2), (.memRegionValid, 0, 0, 1), (.memRegionAttr, 0, 0, 1)]
     s.role = rStandby ∧ (s.mirroredFormes.find? fun x => x.number = 0) = some (forme1 true false 0) ∧
     s.mirrorOwns (forme1 true false 0) 0 0 1 = true ∧ s.mirrorOwns (forme1 true false 0) 0 (2 ^ 38) 1 = false ∧
     (s.mirroredFormes.find? fun x => x.number = 15) = none ∧ s.inv = true ∧
     s.gotWhole (forme1 true false 0) 1 = false ∧ ∀ k < (65 + 63) / 64, k < 2) ∧
    (let s := act true false 0 [(.pairStatusRole, 0, 0, 2)]
     s.gotWhole (forme1 true false 0) 1 = true ∧ s.rd .pairFormeSync 0 0 ≠ 1) ∧
    (let s := act true true 0 [(.pairStatusRole, 0, 0, 1), (.hFormeMirrorSent, 0, 0, 1), (.hFormePreSent, 0, 0, 1),
       (.lnkStatusState, 1, 0, 5)]
     s.role = rActive ∧ 1 % 2 ^ 28 = s.edition 0 % 2 ^ 28 ∧
     0 % 2 ^ 28 = (s.edition 0 - 1) % 2 ^ 28 ∧ s.linkOpen 1 = true ∧ s.mirrorPort (forme1 true true 0) = some 1 ∧
     (bypOf 0x93 1 0).crcOk 0x93 (0 * 2 ^ 28 + 1) = true) ∧
    (act true false 0 []).mirrorPort (forme1 true false 0) = none ∧
    (∀ q < 32, State.reset.isPairPort q = false ∨ State.reset.lState q ≠ lUp) := by decide +kernel

theorem witness_SwapsAndYields :
    (let s := act true true 0 [(.pairStatusRole, 0, 0, 1), (.pairStatusProtection, 0, 0, 1), (.lnkStatusState, 1, 0, 5)]
     (s.mirroredFormes.find? fun x => x.number = 0).bind s.mirrorPort = some 1 ∧ s.role = rActive ∧
     s.rd .pairStatusProtection 0 0 = 1 ∧ s.rd .pairStatusYieldCause 0 0 = 0) ∧
    (State.reset.mirroredFormes.find? fun x => x.number = 15).bind State.reset.mirrorPort = none ∧
    (bypOf 0x94 9 1).crcOk 0x94 9 = true ∧ (bypOf 0x95 9 1).crcOk 0x95 9 = true ∧
    (st [(.pairStatusRole, 0, 0, 1), (.pairStatusYieldCause, 0, 0, 0x0A)]).rd .pairStatusYieldCause 0 0 = 0x0A ∧
    (let s := act true false 0 [(.pairStatusRole, 0, 0, 2), (.pairFormeSync, 0, 0, 1)]
     s.role = rStandby ∧ ∀ x ∈ s.mirroredFormes, s.rd .pairFormeSync 0 x.number = 1) ∧
    (let s := act true false 0 [(.pairStatusRole, 0, 0, 2)]
     ∃ x ∈ s.mirroredFormes, s.rd .pairFormeSync 0 x.number ≠ 1) := by decide +kernel

theorem witness_Takeovers :
    (∀ k ∈ [1, 2, 3, 4, 5], let s := st [(.pairStatusRole, 0, 0, 3), (.hPairPhase, 0, 0, k)]
     s.role = rTakingOver ∧ s.rd .hPairPhase 0 0 = k) ∧
    (let s := st [(.pairStatusRole, 0, 0, 3), (.hPairPhase, 0, 0, 5)]
     (s.firstFatal []) = none ∧ s.takeoverPorts = [] ∧ s.mirroredFormes = [] ∧ s.takeoverReady = true ∧
     s.rd .pwrRailState 0 11 ≠ 3) ∧
    (st [(.pairStatusRole, 0, 0, 3), (.hPairPhase, 0, 0, 1), (.pwrRailState, 0, 11, 3)]).rd .pwrRailState 0 11 = 3 ∧
    (let s := act true true 0 [(.pairStatusRole, 0, 0, 3), (.hPairPhase, 0, 0, 4)]
     0 ∈ s.takeoverPorts ∧ s.lState 0 ≠ lUp) ∧
    (act true true 0 [(.pairStatusRole, 0, 0, 3), (.hPairPhase, 0, 0, 5), (.lnkStatusState, 0, 0, 5)]).takeoverReady =
      false := by decide +kernel

/-! ### Power, proof, start-up, security, cores and management, control space -/

/-- A rail of each state, currents at each side of its limits, no main power and main power, and idle steps. -/
theorem witness_PowerControl : State.reset.rd .pwrRailState 0 25 = 0 ∧
    (∀ k ∈ [1, 2, 3], ∀ n ∈ [0, 11, 12, 19, 20, 23, 24, 25], (st [(.pwrRailState, 0, n, k)]).rd .pwrRailState 0 n = k) ∧
    (railLimits 0).2 < 3001 ∧ 3000 ≤ (railLimits 0).2 ∧ (railLimits 0).1 < 2401 ∧ 2400 ≤ (railLimits 0).1 ∧
    10 * 2159 < 9 * (railLimits 0).1 ∧ 9 * (railLimits 0).1 ≤ 10 * 2160 ∧
    (let s := st [(.hPwrUp, 0, 0, 1)]
     s.rd .hPwrUp 0 0 = 1 ∧ s.sec ≠ zPoweringOff ∧ s.sec ≠ zTripped ∧ State.reset.rd .hPwrUp 0 0 ≠ 1) ∧
    (([] : List EstEvent).all fun x => x.e < 24 && x.q < 22) = true ∧ State.reset.drifts = false ∧
    (let s := { st [(.hPwrDriftTick, 0, 0, 1)] with samples := [⟨0, 100, false, []⟩] }
     s.drifts = true ∧ s.rd .hPwrDriftTick 0 0 ≠ 0 ∧ 2 ^ 30 ≤ 2 ^ 30 + 1 - s.rd .hPwrDriftTick 0 0) ∧
    (let s := { st [(.hFormeIdle, 0, 0, 1)] with idleDebt := [(0, (1 : Int))] }
     s.rd .hFormeIdle 0 0 = 1 ∧ 0 < s.debt 0) ∧
    (let s := st [(.hFormeIdle, 0, 15, 1)]
     s.rd .hFormeIdle 0 15 = 1 ∧ s.debt 15 ≤ 0) ∧ State.reset.rd .hFormeIdle 0 0 ≠ 1 := by decide +kernel

/-- Sags of each stretch and of none, a storm's 64th event, domains of every band, and a trip. -/
theorem witness_DroopsAndHeat : stretchOf 49 = 0 ∧ stretchOf 50 ≠ 0 ∧ stretchOf 75 ≠ 0 ∧ stretchOf 100 ≠ 0 ∧
    State.reset.rd .hDroopRun 0 19 = 0 ∧ (st [(.hDroopRun, 0, 0, 1)]).rd .hDroopRun 0 0 ≠ 0 ∧
    63 ≤ ((List.replicate 63 7).filter fun x => 8 - x < 2 ^ 20).length ∧
    ((List.replicate 62 7).filter fun x => 8 - x < 2 ^ 20).length < 63 ∧
    bandOf 359 = 0 ∧ bandOf 360 = 1 ∧ bandOf 560 = 2 ∧ bandOf 680 = 3 ∧ bandOf 760 = 4 ∧ bandFloor 4 = 760 ∧
    (∀ d ∈ [0, 16, 31, 32, 39, 41], ((List.replicate (sensorsOf d) (743 : Int)).length = sensorsOf d ∧
      743 ∈ List.replicate (sensorsOf d) (743 : Int))) ∧
    (let s := st [(.thmDomainBand, 0, 41, 4), (.hThmCool, 0, 41, 1)]
     s.rd .thmDomainBand 0 41 = 4 ∧ bandOf 743 ≤ 4 ∧ (743 : Int) < bandFloor 4 - 16 ∧ s.rd .hThmCool 0 41 ≠ 0 ∧
     2 ^ 20 ≤ 2 ^ 20 + 1 - s.rd .hThmCool 0 41 ∧ ¬(744 : Int) < bandFloor 4 - 16) ∧
    State.reset.rd .thmDomainBand 0 0 < bandOf 360 ∧ State.reset.rd .thmDomainBand 0 0 ≠ 4 ∧
    State.reset.sec ≠ zTripped ∧ State.reset.sec ≠ zPoweringOff := by decide +kernel

/-- The three phases of a start-up proof with and without a fatal finding, strips passed and failed, and a live
partner. -/
theorem witness_ProofsAndSlices :
    (∀ ph ∈ [1, 2, 3], let s := st [(.secStatusState, 0, 0, 3), (.prfResultState, 0, 0, 1), (.prfResultPhase, 0, 0, ph)]
     s.sec = zProof ∧ s.rd .prfResultState 0 0 = 1 ∧ s.rd .prfResultPhase 0 0 = ph ∧
     ((s.stamp 5).findings (fun e => if ph = 2 then e.array = 4 else e.array != 4) []).firstFatal [] = none) ∧
    (let fs : List Finding := [⟨.fatalStack, 15, 0, 4, 0, 0⟩]
     let s := st [(.secStatusState, 0, 0, 3), (.prfResultState, 0, 0, 1), (.prfResultPhase, 0, 0, 3)]
     ((s.stamp 5).findings (fun e => e.array != 4) fs).firstFatal fs = some (3, 15, 4)) ∧
    State.reset.sec ≠ zProof ∧ (st [(.prsStripMapStripFailed, 11, 0, 0x10000)]).rd .prsStripMapStripFailed 11 0 = 0x10000 ∧
    bit 0x10000 16 = true ∧ bit 0x10000 0 = false ∧
    (let s := act true false 0 [(.modFormeStatusState, 0, 0, 2)]
     s.stripInUse 0 15 = true ∧ s.formeOfPress 0 = some (forme1 true false 0) ∧ s.livePartner = false ∧
     s.fState 0 ≠ fNone ∧ s.onChase (forme1 true false 0) 0 = true) ∧
    (let s := st [(.pairStatusRole, 0, 0, 1), (.pairStatusLiveIn, 0, 0, 1), (.pairStatusPartnerRole, 0, 0, 2)]
     s.livePartner = true ∧ s.rd .pairStatusYieldCause 0 0 = 0) ∧ unitOk (.press 11) = true := by decide +kernel

theorem witness_RepairMapAndScan : State.reset.rd .prfMapUnwritten 0 0 = 0 ∧
    (let s := st [(.prfMapUnwritten, 0, 0, 1)]
     s.rd .prfMapUnwritten 0 0 ≠ 0 ∧ s.rd .hMapClear 0 0 = 0) ∧
    (st [(.hPinReset, 0, 0, 1)]).rd .hPinReset 0 0 = 1 ∧ (st [(.secStatusState, 0, 0, 6)]).sec = zFatal ∧
    ¬((st [(.hPinReset, 0, 0, 0)]).rd .hPinReset 0 0 = 1 ∨ (st [(.hPinReset, 0, 0, 0)]).sec = zFatal) := by decide +kernel

theorem witness_LoopbackTests : (State.reset.rd .prfLoopbackBusy 0 0 ≠ 1 ∧ State.reset.lState 31 = lOff) ∧
    (st [(.lnkStatusState, 0, 0, 1)]).lState 0 = lAbsent ∧
    (let s := st [(.prfLoopbackBusy, 0, 0, 1), (.prfLoopbackPort, 0, 0, 31)]
     s.rd .prfLoopbackBusy 0 0 = 1 ∧ s.rd .prfLoopbackPort 0 0 = 31) ∧
    (upPort []).lState 0 ≠ lOff ∧ (upPort []).lState 0 ≠ lAbsent := by decide +kernel

/-- Each stage of the start-up, and one where no image can be picked. -/
theorem witness_StartUpStages :
    (st [(.hStage, 0, 0, 1)]).rd .hStage 0 0 = 1 ∧
    (let s := st [(.hStage, 0, 0, 2), (.hPwrOnStep, 0, 0, 4), (.hPwrUp, 0, 0, 1)]
     s.rd .hStage 0 0 = 2 ∧ s.rd .hPwrOnStep 0 0 = 4 ∧ s.rd .hPwrUp 0 0 = 1 ∧ s.sec ≠ zTripped ∧ s.sec ≠ zPoweringOff) ∧
    (let s := st [(.hStage, 0, 0, 3), (.prfResultState, 0, 0, 2)]
     s.rd .hStage 0 0 = 3 ∧ s.rd .prfResultState 0 0 = 2 ∧ s.bootCore = some 0) ∧
    (let s := st [(.hStage, 0, 0, 4)]
     s.rd .hStage 0 0 = 4 ∧ (s.stamp 5).pickImage = none ∧ s.sec ≠ zBootFail) ∧
    (st [(.hStage, 0, 0, 5)]).rd .hStage 0 0 = 5 ∧ State.reset.flashQ = [] := by decide +kernel

/-- A slot with an image that verifies is picked. Whether one verifies rests on the signature scheme, which is an
opaque function of Config. -/
theorem witness_StartUpImage (s : State) (img : List Byte) (h : s.images.get? 0 = some img) (g : s.images.get? 1 = none)
    (ok : s.imageOk img = true) (v : s.rd .secCounterValue 0 1 ≤ imageVersion img) : s.pickImage = some (0, img) := by
  have a : s.bootable 0 = some img := by simp [State.bootable, h, ok, v]
  have b : s.bootable 1 = none := by simp [State.bootable, g]
  simp [State.pickImage, a, b]

theorem witness_ResetAndPowerOff :
    (let s := st [(.secStatusState, 0, 0, 1), (.hPinReset, 0, 0, 0)]
     s.sec = zAuxOnly ∧ s.rd .hPinReset 0 0 ≠ 1) ∧
    (∀ k < 4, let s := st [(.secStatusState, 0, 0, 2), (.hPwrOnStep, 0, 0, k), (.hPwrUp, 0, 0, 1)]
     s.sec = zSequencing ∧ s.rd .hPwrOnStep 0 0 = k ∧ s.rd .hPwrUp 0 0 = 1) ∧
    (st [(.secStatusState, 0, 0, 0)]).sec = zStage1 ∧ (st [(.secStatusState, 0, 0, 10)]).sec = zTripped ∧
    (let s := st [(.secStatusState, 0, 0, 9), (.secEventsResetMask, 0, 0, 7)]
     s.sec = zOff ∧ s.rd .secEventsResetMask 0 0 < 8) ∧
    (∀ k ∈ [1, 4, 5], let s := st [(.secStatusState, 0, 0, 8), (.hPwrOffStep, 0, 0, k)]
     s.sec = zPoweringOff ∧ s.rd .hPwrOffStep 0 0 = k) ∧
    (let s := st [(.secStatusState, 0, 0, 5), (.hPwrUp, 0, 0, 1)]
     s.sec ≠ zStage1 ∧ s.sec ≠ zTripped ∧ s.sec ≠ zPoweringOff ∧ s.rd .hPwrUp 0 0 = 1 ∧ s.isShut = false) ∧
    (st [(.oeStatusShutdown, 7, 0, 1)]).isShut = true := by decide +kernel

/-- Each write at the front of the flash's queue, alone and before the map, and a switch that waits for its counter. -/
theorem witness_FlashAndSupervisor :
    (∀ j ∈ [FlashJob.counter 2 9, .keys [(4, [])], .map, .mapOf [] [], .image 1 [0]],
      ({ State.reset with flashQ := [j] } : State).flashQ = j :: []) ∧
    ({ State.reset with flashQ := [.counter 0 9, .map] } : State).flashQ = .counter 0 9 :: [.map] ∧
    (let s := st [(.secStatusState, 0, 0, 7), (.secStatusFailCause, 0, 0, 5), (.secReqStatusBusy, 0, 0, 1)]
     s.sec = zBootFail ∧ s.rd .secStatusFailCause 0 0 = 5 ∧ s.rd .secReqStatusBusy 0 0 = 1) ∧
    (let i := { imp1 true false 0 with rollbackVersion := 3 }
     let s := { st [(.modImpStatusPending, 0, 0, 4), (.hImpSwitchStep, 0, 0, 1)] with loaded := some i }
     s.loaded = some i ∧ s.slot = iCommitting ∧ s.rd .hImpSwitchStep 0 0 = 1 ∧ s.unheld = [] ∧ s.quiesced = true ∧
     i.rollbackVersion ≠ s.rd .secCounterValue 0 0 ∧ s.flashQ = []) ∧
    (let s := st [(.secStatusState, 0, 0, 4), (.hStage, 0, 0, 5)]
     s.sec = zBooting ∧ s.rd .hStage 0 0 = 5) ∧
    (let s := { State.reset with image := List.replicate 24 (0 : Byte) ++ [1] }
     s.rd .secCounterValue 0 1 < imageVersion s.image) ∧ imageVersion State.reset.image ≤ State.reset.rd .secCounterValue 0 1 ∧
    State.reset.inv = true ∧ bit (State.reset.rd .secStatusAlertMask 0 0) 6 = false := by decide +kernel

/-- A key request with each op, one found busy, a wrong challenge, and free slots. -/
theorem witness_KeysAndSignedCommands :
    (∀ op ∈ [1, 2, 3, 4, 5], let s := State.reset.writeMem 0 0 [BitVec.ofNat 8 op, 4]
     s.keyReq.op = op ∧ s.keyReq.slot = 4 ∧ s.rd .secReqStatusBusy 0 0 ≠ 1 ∧ s.keyReq.challenge = s.rd .hChallenge 0 0 ∧
     s.keyRec 4 = none ∧ s.authorityKey 4 = none) ∧
    (st [(.secReqStatusBusy, 0, 0, 1)]).rd .secReqStatusBusy 0 0 = 1 ∧
    (st [(.hChallenge, 0, 0, 9)]).rd .hChallenge 0 0 = 9 ∧ State.reset.rd .hChallenge 0 0 = 0 ∧
    (let s := State.reset.writeMem 0 32 (natLe 4 4 ++ natLe 4 3 ++ natLe 8 4)
     let r := s.keyReq
     recFits 4 r.record = true ∧ leAt r.record 8 4 = 4) := by decide +kernel

theorem witness_CoresAndManagement : (st [(.coreStatusState, 0, 15, 1)]).rd .coreStatusState 0 15 = cHalted ∧
    (st [(.coreStatusState, 0, 0, 2)]).rd .coreStatusState 0 0 = cRun ∧ State.reset.rd .coreStatusState 0 0 ≠ cHalted ∧
    State.reset.rd .coreStatusState 0 0 ≠ cRun ∧
    State.reset.accCause 0 ⟨0x10010000, 8, .load, .machine, false, false⟩ = some 1 ∧
    State.reset.accCause 15 ⟨0xFFFFFFFF, 1, .load, .machine, false, false⟩ = some 1 ∧
    State.reset.accCause 0 ⟨0, 8, .amo, .machine, false, false⟩ = some 4 ∧
    State.reset.accCause 0 ⟨0, 4, .load, .machine, false, false⟩ = none ∧
    (let s := st [(.secEventsResetMask, 0, 0, 1), (.secStatusState, 0, 0, 5), (.coreStatusState, 0, 0, 2)]
     s.islandOn = true ∧ s.sec ≠ zStage1 ∧ s.rd .mgtStatusAddrConflict 0 0 ≠ 1 ∧ s.ownerValid = false ∧
     s.lemikServes = true ∧ s.keyRec 15 = none ∧ s.image = [] ∧ s.upload = none) ∧
    State.reset.islandOn = false ∧ State.reset.lemikServes = false ∧
    (let s := { State.reset with upload := some (4, [1]), image := [0], keys := [(15, [1])] }
     s.upload = some (4, [1]) ∧ s.image ≠ [] ∧ s.keyRec 15 = some [1] ∧ 1 + [(2 : Byte)].length ≤ 4 ∧
     ¬([(1 : Byte)].length = 4 ∧ s.imageOk [1] = true)) := by decide +kernel

/-- A request under an operations key whose signature verifies and whose counter is new passes; the signature
scheme is an opaque function of Config. -/
theorem witness_LemikSignature (s : State) (type : Nat) (h : MsgHead) (a : AuthTail) (body key : List Byte)
    (k : s.opsKey a.slot = some key)
    (v : Config.falconVerify key (authBytes type h a body) (fixLen 1280 a.sig) = true)
    (c : a.counter / 2 ^ 32 = s.rd .secCounterValue 0 3 % 2 ^ 32) (l : s.lastCounter a.slot = none) :
    s.authCheck type h a body = .ok := by
  have c' : (a.counter / 2 ^ 32 != s.rd .secCounterValue 0 3 % 2 ^ 32) = false := by rw [c]; exact bne_self_eq_false _
  simp only [State.authCheck, k, v, c', l]; rfl

/-- A module that serves and refuses a request without a key, one that does not serve, and accesses that go on,
fault and are held. -/
theorem witness_LemikRequests :
    (let s := st [(.secEventsResetMask, 0, 0, 1), (.secStatusState, 0, 0, 5), (.coreStatusState, 0, 0, 2)]
     s.islandOn = true ∧ s.lemikServes = true ∧ s.mgtHeld < 64 ∧
     s.authCheck 0x10 ⟨0x4B4C, 1, 0, 8⟩ ⟨8, 1, []⟩ (regBody 0 4 1) = .refused 3) ∧
    regForm 4 1 = true ∧ regForm 3 1 = false ∧ memForm 0 0 0 64 = true ∧ memForm 4 0 0 64 = false ∧
    State.reset.judge ⟨3, false, 0, 64, none, ⟨[], false⟩, .mgt 0x12 0 8 1⟩ = .go ∧
    State.reset.judge ⟨3, true, 2 ^ 30, 64, none, ⟨[], false⟩, .mgt 0x12 0 8 1⟩ = .fault 1 ∧
    64 ≤ ({ State.reset with
      heldAccs := List.replicate 64 ⟨0, ⟨0, false, 0, 64, none, ⟨[], false⟩, .mgt 0x12 0 8 1⟩⟩ } : State).mgtHeld :=
  by decide +kernel

/-- Addresses that no register has, below and in the aperture. -/
theorem witness_UnmappedAccesses : State.reset.reach 16 0x28 = [] ∧ State.reset.reach 0 0xE000000 = [] ∧
    State.reset.reach 0 0 ≠ [] ∧ formOk 0x28 8 = true ∧ State.reset.rd .modUnmappedUnmapped 0 0 ≠ 1 ∧
    (st [(.modUnmappedUnmapped, 0, 0, 1)]).rd .modUnmappedUnmapped 0 0 = 1 := by decide +kernel

theorem witness_GroupMaskCopies :
    (let s := st [(.secStatusState, 0, 0, 8), (.hPwrOffStep, 0, 0, 5), (.modGroupMaskMask, 0, 16, 7)]
     s.sec = zPoweringOff ∧ 5 ≤ s.rd .hPwrOffStep 0 0 ∧ s.rd .modGroupMaskMask 0 16 = 7) ∧
    (st [(.coreStatusState, 0, 15, 1)]).rd .coreStatusState 0 15 = cHalted ∧
    State.reset.rd .modGroupMaskMask 0 0 = 0 ∧ (st [(.prsStatusState, 11, 0, 3)]).reach 0 0xF104100 ≠ [] := by decide +kernel

/-- Forms refused, a register with and without a snapshot, one of two halves, a unit without power, and broadcasts
whose members agree and differ. -/
theorem witness_RegisterAccesses : formOk 2 4 = false ∧ formOk 4 4 = true ∧
    State.reset.reach 0 0 = [⟨.modId, 0, 0, 0⟩] ∧ State.reset.reach 0 4 = [⟨.modId, 0, 0, 4⟩] ∧ isAperture 0 = false ∧
    State.reset.readable ⟨.modId, 0, 0, 0⟩ = true ∧ 8 * 4 < RegName.modId.info.width ∧
    (let s := { State.reset with snaps := [(0, (4, 9))] }
     s.snaps.get? 0 = some (4, 9)) ∧ State.reset.snaps.get? 0 = none ∧
    State.reset.powered ⟨.finNumFlags, 0, 0, 0⟩ = false ∧
    (let s := st [(.prsStatusState, 0, 0, 3), (.prsStatusState, 11, 0, 3), (.finNumFlagsNanIn, 11, 0, 1)]
     s.reach 0 0xF104100 = [⟨.finNumFlags, 0, 0, 0⟩, ⟨.finNumFlags, 11, 0, 0⟩] ∧ isAperture 0xF104100 = true ∧
     s.powered ⟨.finNumFlags, 0, 0, 0⟩ = true ∧
     halfOf 0 4 (s.regVal 0 ⟨.finNumFlags, 11, 0, 0⟩) ≠ halfOf 0 4 (s.regVal 0 ⟨.finNumFlags, 0, 0, 0⟩)) ∧
    (st [(.modUnmappedUnmapped, 0, 0, 1)]).rd .modUnmappedUnmapped 0 0 = 1 := by decide +kernel

theorem witness_ResetValues : RegName.modId ≠ .prsIstore ∧
    State.reset.regVal 0 ⟨.modId, 0, 0, 0⟩ = 0x0000000132314B48 := by decide +kernel

end Sys2Proof.Tests
end

/-!
# Scope and conventions: the step, the outcomes of a command, and control space

What every command moves and what it can answer, each said once over the constructors of `Instr` and then used for
the step as a whole; the unmapped access; the values at reset.
-/

namespace Sys2Proof.Machine

/-! ## The invariant, at reset and from step to step -/

/-- Settles O3: every table and every memory is empty at reset. -/
theorem resetHasInvariant : Obligations.ResetHasInvariant :=
  ⟨(State.inv_iff _).mpr ⟨rfl, rfl, fun _ h => nomatch h⟩, rfl⟩

/-- Every group of numbers. -/
def everyArea : List Area :=
  [.module, .tick, .imp, .forme, .fab, .pair, .pwr, .thm, .prf, .sec, .core, .irq, .events, .mgt, .cal,
    .chs, .gal, .cmp, .col, .ddl, .gst, .prs, .fin, .case, .oe, .lnk, .lsu, .mem]

/-- Every part of the state but the queue of commands. -/
def besideQueue : List Part :=
  [.mem, .presses, .active, .loaded, .pendingBytes, .jobs, .lateXfers, .heldAccs, .drains, .dirtyOut,
    .dirtyShared, .mirrorGot, .bases, .mgtLast, .log, .calJobs, .calRuns, .calFails, .ringErr, .mislocks, .swaps,
    .spareNeeds, .arrivals, .barDone, .barSent, .tokens, .links, .repairMap, .ceLog, .samples, .idleDebt,
    .droops, .flashQ, .keys, .images, .flashMap, .image, .upload, .snaps, .badWords, .relays, .early, .mgtJobs,
    .moe, .cache, .fades, .dropped, .out, .freeCount]

theorem subset_everyArea {l : List Area} : l ⊆ everyArea := fun a _ => by cases a <;> decide

theorem subset_besideQueue {l : List Part} (h : .pending ∉ l := by decide) : l ⊆ besideQueue := by
  intro q hq
  cases q
  case pending => exact absurd hq h
  all_goals decide

/-- Every command keeps the invariant, and none moves the queue. -/
theorem exec_moves (c : Instr) (s : State) : ResMoves everyArea besideQueue s (exec c s) :=
  match c with
  | .nop p k => execNop_moves p k s subset_everyArea subset_besideQueue (.refl s)
  | .loop p k level countM1 bodyM1 =>
    execLoop_moves p k level countM1 bodyM1 s subset_everyArea subset_besideQueue (.refl s)
  | .seta p k ad a => execSeta_moves p k ad a s subset_everyArea subset_besideQueue (.refl s)
  | .srk p k key a => execSrk_moves p k key a s subset_everyArea subset_besideQueue (.refl s)
  | .stepEnd p k => execStepEnd_moves p k s subset_everyArea subset_besideQueue (.refl s)
  | .bsig p k barrier => execBsig_moves p k barrier s subset_everyArea subset_besideQueue (.refl s)
  | .bwait p k barrier => execBwait_moves p k barrier s subset_everyArea subset_besideQueue (.refl s)
  | .fence p k units => execFence_moves p k units s subset_everyArea subset_besideQueue (.refl s)
  | .ramp p k mode => execRamp_moves p k mode s subset_everyArea subset_besideQueue (.refl s)
  | .wload p k w ce => execWload_moves p k w ce s subset_everyArea subset_besideQueue (.refl s)
  | .bias p k bfmt bad ce => execBias_moves p k bfmt bad ce s subset_everyArea subset_besideQueue (.refl s)
  | .pass p k f parity ce => execPass_moves p k f parity ce s subset_everyArea subset_besideQueue (.refl s)
  | .drain p k f => execDrain_moves p k f s subset_everyArea subset_besideQueue (.refl s)
  | .fadd p k f => execFadd_moves p k f s subset_everyArea subset_besideQueue (.refl s)
  | .fsub p k f => execFsub_moves p k f s subset_everyArea subset_besideQueue (.refl s)
  | .fmul p k f => execFmul_moves p k f s subset_everyArea subset_besideQueue (.refl s)
  | .ffma p k f => execFfma_moves p k f s subset_everyArea subset_besideQueue (.refl s)
  | .fmin p k f => execFmin_moves p k f s subset_everyArea subset_besideQueue (.refl s)
  | .fmax p k f => execFmax_moves p k f s subset_everyArea subset_besideQueue (.refl s)
  | .fcmp p k f => execFcmp_moves p k f s subset_everyArea subset_besideQueue (.refl s)
  | .fsel p k f => execFsel_moves p k f s subset_everyArea subset_besideQueue (.refl s)
  | .fmov p k f => execFmov_moves p k f s subset_everyArea subset_besideQueue (.refl s)
  | .fmsk p k f => execFmsk_moves p k f s subset_everyArea subset_besideQueue (.refl s)
  | .fcvt p k f => execFcvt_moves p k f s subset_everyArea subset_besideQueue (.refl s)
  | .frcp p k f => execFrcp_moves p k f s subset_everyArea subset_besideQueue (.refl s)
  | .frsq p k f => execFrsq_moves p k f s subset_everyArea subset_besideQueue (.refl s)
  | .fexp p k f => execFexp_moves p k f s subset_everyArea subset_besideQueue (.refl s)
  | .flog p k f => execFlog_moves p k f s subset_everyArea subset_besideQueue (.refl s)
  | .frsum p k f => execFrsum_moves p k f s subset_everyArea subset_besideQueue (.refl s)
  | .frmax p k f => execFrmax_moves p k f s subset_everyArea subset_besideQueue (.refl s)
  | .frmin p k f => execFrmin_moves p k f s subset_everyArea subset_besideQueue (.refl s)
  | .fld p k f ce => execFld_moves p k f ce s subset_everyArea subset_besideQueue (.refl s)
  | .fst p k f => execFst_moves p k f s subset_everyArea subset_besideQueue (.refl s)
  | .cmov p k f ce => execCmov_moves p k f ce s subset_everyArea subset_besideQueue (.refl s)
  | .gload p k f ce => execGload_moves p k f ce s subset_everyArea subset_besideQueue (.refl s)
  | .gstore p k f ce => execGstore_moves p k f ce s subset_everyArea subset_besideQueue (.refl s)
  | .instructionComplete p unit => execInstructionComplete_moves p unit s subset_besideQueue (.refl s)
  | .arrayResume p frozen => execArrayResume_moves p frozen s subset_everyArea subset_besideQueue (.refl s)
  | .arrayGate p => execArrayGate_moves p s subset_besideQueue (.refl s)
  | .caseScrub p ce => execCaseScrub_moves p ce s subset_everyArea subset_besideQueue (.refl s)
  | .caseUncorrectable p word t =>
    execCaseUncorrectable_moves p word t s subset_everyArea subset_besideQueue (.refl s)
  | .istoreError p half kind t =>
    execIstoreError_moves p half kind t s subset_everyArea subset_besideQueue (.refl s)
  | .unscheduledRequest c phase reqs =>
    execUnscheduledRequest_moves c phase reqs s subset_everyArea subset_besideQueue (.refl s)
  | .lateTransfer c code order nextLine lastLine =>
    execLateTransfer_moves c code order nextLine lastLine s subset_everyArea subset_besideQueue (.refl s)
  | .galleyScrub c bank ce => execGalleyScrub_moves c bank ce s subset_everyArea subset_besideQueue (.refl s)
  | .uncorrectableError u t => execUncorrectableError_moves u t s subset_everyArea subset_besideQueue (.refl s)
  | .coreLineUe u t => execCoreLineUe_moves u t s subset_everyArea subset_besideQueue (.refl s)
  | .heldAccessRelease f => execHeldAccessRelease_moves f s subset_everyArea subset_besideQueue (.refl s)
  | .stackRefresh m channel => execStackRefresh_moves m channel s subset_everyArea (.refl s)
  | .patrolScrub m ce => execPatrolScrub_moves m ce s subset_everyArea subset_besideQueue (.refl s)
  | .scrubLate m t => execScrubLate_moves m t s subset_everyArea (.refl s)
  | .drainAcknowledged f => execDrainAcknowledged_moves f s subset_everyArea subset_besideQueue (.refl s)
  | .jobStart f job t => execJobStart_moves f job t s subset_everyArea subset_besideQueue (.refl s)
  | .windowFetch c ce => execWindowFetch_moves c ce s subset_everyArea subset_besideQueue (.refl s)
  | .nodeArrival c job shard lo hi v =>
    execNodeArrival_moves c job shard lo hi v s subset_everyArea subset_besideQueue (.refl s)
  | .jobComplete c eng job t =>
    execJobComplete_moves c eng job t s subset_everyArea subset_besideQueue (.refl s)
  | .impLoad t => execImpLoad_moves t s subset_everyArea subset_besideQueue (.refl s)
  | .impCommit t => execImpCommit_moves t s subset_everyArea subset_besideQueue (.refl s)
  | .impDiscard t => execImpDiscard_moves t s subset_everyArea subset_besideQueue (.refl s)
  | .verifyComplete t => execVerifyComplete_moves t s subset_everyArea subset_besideQueue (.refl s)
  | .checkComplete t => execCheckComplete_moves t s subset_everyArea subset_besideQueue (.refl s)
  | .discardStop t => execDiscardStop_moves t s subset_everyArea subset_besideQueue (.refl s)
  | .switch counterOk t => execSwitch_moves counterOk t s subset_everyArea subset_besideQueue (.refl s)
  | .switchComplete findings dead t =>
    execSwitchComplete_moves findings dead t s subset_everyArea subset_besideQueue (.refl s)
  | .formeStart f t => execFormeStart_moves f t s subset_everyArea subset_besideQueue (.refl s)
  | .formeHold f t => execFormeHold_moves f t s subset_everyArea subset_besideQueue (.refl s)
  | .formeResume f t => execFormeResume_moves f t s subset_everyArea subset_besideQueue (.refl s)
  | .formePark f t => execFormePark_moves f t s subset_everyArea subset_besideQueue (.refl s)
  | .stepComplete f ce t => execStepComplete_moves f ce t s subset_everyArea subset_besideQueue (.refl s)
  | .stepRelease f t => execStepRelease_moves f t s subset_everyArea subset_besideQueue (.refl s)
  | .watchdogTimeout f t => execWatchdogTimeout_moves f t s subset_everyArea subset_besideQueue (.refl s)
  | .editionCommit f t => execEditionCommit_moves f t s subset_everyArea subset_besideQueue (.refl s)
  | .unitsStopped f t => execUnitsStopped_moves f t s subset_everyArea subset_besideQueue (.refl s)
  | .variantRewriteDone f t => execVariantRewriteDone_moves f t s subset_everyArea subset_besideQueue (.refl s)
  | .pressLost p t => execPressLost_moves p t s subset_everyArea subset_besideQueue (.refl s)
  | .heaterLoopUpdate k r err =>
    execHeaterLoopUpdate_moves k r err s subset_everyArea subset_besideQueue (.refl s)
  | .toneWindow k r strongest margin10dB t =>
    execToneWindow_moves k r strongest margin10dB t s subset_everyArea subset_besideQueue (.refl s)
  | .mislockRecoveryDone k r code t =>
    execMislockRecoveryDone_moves k r code t s subset_everyArea subset_besideQueue (.refl s)
  | .calDue k j w why t => execCalDue_moves k j w why t s subset_everyArea subset_besideQueue (.refl s)
  | .continuousCalNext k j t =>
    execContinuousCalNext_moves k j t s subset_everyArea subset_besideQueue (.refl s)
  | .calibrationSweepDone k r run t =>
    execCalibrationSweepDone_moves k r run t s subset_everyArea subset_besideQueue (.refl s)
  | .laneRetrained k j d w t =>
    execLaneRetrained_moves k j d w t s subset_everyArea subset_besideQueue (.refl s)
  | .powerMonitorSample k m t => execPowerMonitorSample_moves k m t s subset_everyArea (.refl s)
  | .laserSample n output bias t =>
    execLaserSample_moves n output bias t s subset_everyArea subset_besideQueue (.refl s)
  | .watchClear n t => execWatchClear_moves n t s subset_everyArea (.refl s)
  | .twinReady n t => execTwinReady_moves n t s subset_everyArea subset_besideQueue (.refl s)
  | .suddenLoss k j w t => execSuddenLoss_moves k j w t s subset_everyArea subset_besideQueue (.refl s)
  | .drainUnit u t => execDrainUnit_moves u t s subset_everyArea subset_besideQueue (.refl s)
  | .lsuRestore u t => execLsuRestore_moves u t s subset_everyArea subset_besideQueue (.refl s)
  | .relight t => execRelight_moves t s subset_everyArea subset_besideQueue (.refl s)
  | .unitInserted u t => execUnitInserted_moves u t s subset_everyArea subset_besideQueue (.refl s)
  | .unitProofDone u failed t =>
    execUnitProofDone_moves u failed t s subset_everyArea subset_besideQueue (.refl s)
  | .interlockOpen u t => execInterlockOpen_moves u t s subset_everyArea subset_besideQueue (.refl s)
  | .steerWindowEnd k unaligned t =>
    execSteerWindowEnd_moves k unaligned t s subset_everyArea subset_besideQueue (.refl s)
  | .oeCalCtrlWrite k value => execOeCalCtrlWrite_moves k value s subset_everyArea (.refl s)
  | .laneLock n x t => execLaneLock_moves n x t s subset_everyArea subset_besideQueue (.refl s)
  | .lossOfLock n x t => execLossOfLock_moves n x t s subset_everyArea subset_besideQueue (.refl s)
  | .blockError n lane prev b t =>
    execBlockError_moves n lane prev b t s subset_everyArea subset_besideQueue (.refl s)
  | .lcLost n t => execLcLost_moves n t s subset_everyArea subset_besideQueue (.refl s)
  | .lcLock n t => execLcLock_moves n t s subset_everyArea subset_besideQueue (.refl s)
  | .alignComplete n t => execAlignComplete_moves n t s subset_everyArea subset_besideQueue (.refl s)
  | .train n w t => execTrain_moves n w t s subset_everyArea subset_besideQueue (.refl s)
  | .trainingTimeout n t => execTrainingTimeout_moves n t s subset_everyArea subset_besideQueue (.refl s)
  | .trainingRetry n t => execTrainingRetry_moves n t s subset_everyArea subset_besideQueue (.refl s)
  | .poll n t => execPoll_moves n t s subset_everyArea (.refl s)
  | .pollEnd n t => execPollEnd_moves n t s subset_everyArea (.refl s)
  | .peerLcDetected n t => execPeerLcDetected_moves n t s subset_everyArea subset_besideQueue (.refl s)
  | .clearMismatch n t => execClearMismatch_moves n t s subset_everyArea subset_besideQueue (.refl s)
  | .retrain n t => execRetrain_moves n t s subset_everyArea subset_besideQueue (.refl s)
  | .transmitStart n lane t => execTransmitStart_moves n lane t s subset_everyArea subset_besideQueue (.refl s)
  | .frame n f t => execFrame_moves n f t s subset_everyArea subset_besideQueue (.refl s)
  | .vc1Read n r => execVc1Read_moves n r s subset_everyArea subset_besideQueue (.refl s)
  | .vc1Write n r data => execVc1Write_moves n r data s subset_everyArea subset_besideQueue (.refl s)
  | .vc1Data n tag data => execVc1Data_moves n tag data s subset_everyArea subset_besideQueue (.refl s)
  | .vc1Done n tag => execVc1Done_moves n tag s subset_everyArea subset_besideQueue (.refl s)
  | .vc1Error n tag => execVc1Error_moves n tag s subset_everyArea subset_besideQueue (.refl s)
  | .ack n b t => execAck_moves n b t s subset_everyArea subset_besideQueue (.refl s)
  | .credit n b vc freed t => execCredit_moves n b vc freed t s subset_everyArea subset_besideQueue (.refl s)
  | .barrierToken n b origin bar edition count t =>
    execBarrierToken_moves n b origin bar edition count t s subset_everyArea subset_besideQueue (.refl s)
  | .laneMove n b ident lane t =>
    execLaneMove_moves n b ident lane t s subset_everyArea subset_besideQueue (.refl s)
  | .laneBack n b ident lane t =>
    execLaneBack_moves n b ident lane t s subset_everyArea subset_besideQueue (.refl s)
  | .laneCal n b ident lane t =>
    execLaneCal_moves n b ident lane t s subset_everyArea subset_besideQueue (.refl s)
  | .laneCalEnd n b ident lane t =>
    execLaneCalEnd_moves n b ident lane t s subset_everyArea subset_besideQueue (.refl s)
  | .laneRejoin n b ident lane t =>
    execLaneRejoin_moves n b ident lane t s subset_everyArea subset_besideQueue (.refl s)
  | .spareIn n b ident lane t =>
    execSpareIn_moves n b ident lane t s subset_everyArea subset_besideQueue (.refl s)
  | .laneDrop n b lane t => execLaneDrop_moves n b lane t s subset_everyArea subset_besideQueue (.refl s)
  | .laneAck n b arg t => execLaneAck_moves n b arg t s subset_everyArea subset_besideQueue (.refl s)
  | .widthReq n b ident mask t =>
    execWidthReq_moves n b ident mask t s subset_everyArea subset_besideQueue (.refl s)
  | .widthAck n b arg t => execWidthAck_moves n b arg t s subset_everyArea subset_besideQueue (.refl s)
  | .retrainReq n b ident t => execRetrainReq_moves n b ident t s subset_everyArea subset_besideQueue (.refl s)
  | .retrainAck n b arg t => execRetrainAck_moves n b arg t s subset_everyArea subset_besideQueue (.refl s)
  | .rewind n b vc hi t => execRewind_moves n b vc hi t s subset_everyArea subset_besideQueue (.refl s)
  | .markJoin n lane t => execMarkJoin_moves n lane t s subset_everyArea subset_besideQueue (.refl s)
  | .markLeave n lane t => execMarkLeave_moves n lane t s subset_everyArea subset_besideQueue (.refl s)
  | .ackTimer n vc t => execAckTimer_moves n vc t s subset_everyArea subset_besideQueue (.refl s)
  | .creditTimer n vc t => execCreditTimer_moves n vc t s subset_everyArea subset_besideQueue (.refl s)
  | .replayTimer n vc seq t => execReplayTimer_moves n vc seq t s subset_everyArea subset_besideQueue (.refl s)
  | .requestRepeat n t => execRequestRepeat_moves n t s subset_everyArea subset_besideQueue (.refl s)
  | .laneCleanRun n x t => execLaneCleanRun_moves n x t s subset_everyArea subset_besideQueue (.refl s)
  | .laneRetrainTimeout n x t =>
    execLaneRetrainTimeout_moves n x t s subset_everyArea subset_besideQueue (.refl s)
  | .laneRetrainRetry n x t => execLaneRetrainRetry_moves n x t s subset_everyArea subset_besideQueue (.refl s)
  | .idleAdaptation n x idle blocks =>
    execIdleAdaptation_moves n x idle blocks s subset_everyArea subset_besideQueue (.refl s)
  | .linkDown n cause t => execLinkDown_moves n cause t s subset_everyArea subset_besideQueue (.refl s)
  | .dlaneDrop l e b lane t => execDlaneDrop_moves l e b lane t s subset_everyArea subset_besideQueue (.refl s)
  | .dwidthReq l e b mask t => execDwidthReq_moves l e b mask t s subset_everyArea subset_besideQueue (.refl s)
  | .dwidthAck l e b mask t => execDwidthAck_moves l e b mask t s subset_everyArea subset_besideQueue (.refl s)
  | .groupClockLost l e g t => execGroupClockLost_moves l e g t s subset_everyArea subset_besideQueue (.refl s)
  | .groupHealthy l e g t => execGroupHealthy_moves l e g t s subset_everyArea subset_besideQueue (.refl s)
  | .dieLinkDown l t => execDieLinkDown_moves l t s subset_everyArea subset_besideQueue (.refl s)
  | .dieLinkRetry l t => execDieLinkRetry_moves l t s subset_everyArea subset_besideQueue (.refl s)
  | .guestTrain g offer t => execGuestTrain_moves g offer t s subset_everyArea subset_besideQueue (.refl s)
  | .guestRetry g t => execGuestRetry_moves g t s subset_everyArea (.refl s)
  | .guestHello g cap t => execGuestHello_moves g cap t s subset_everyArea (.refl s)
  | .guestRead g r => execGuestRead_moves g r s subset_everyArea subset_besideQueue (.refl s)
  | .guestWrite g r data => execGuestWrite_moves g r data s subset_everyArea subset_besideQueue (.refl s)
  | .guestNotify g value t => execGuestNotify_moves g value t s subset_everyArea (.refl s)
  | .guestPost g value => execGuestPost_moves g value s subset_everyArea subset_besideQueue (.refl s)
  | .lowPowerRequest g => execLowPowerRequest_moves g s subset_everyArea (.refl s)
  | .guestLinkDown g t => execGuestLinkDown_moves g t s subset_everyArea subset_besideQueue (.refl s)
  | .identityWrite value => execIdentityWrite_moves value s subset_everyArea (.refl s)
  | .barrierRoundComplete f bar t =>
    execBarrierRoundComplete_moves f bar t s subset_everyArea subset_besideQueue (.refl s)
  | .tokenRepeat n t => execTokenRepeat_moves n t s subset_everyArea subset_besideQueue (.refl s)
  | .editionToken n b edition t =>
    execEditionToken_moves n b edition t s subset_everyArea subset_besideQueue (.refl s)
  | .editionRepeat n t => execEditionRepeat_moves n t s subset_everyArea subset_besideQueue (.refl s)
  | .editionStalled f t => execEditionStalled_moves f t s subset_everyArea (.refl s)
  | .fetch n b base t => execFetch_moves n b base t s subset_everyArea subset_besideQueue (.refl s)
  | .fetchAck n b base t => execFetchAck_moves n b base t s subset_everyArea subset_besideQueue (.refl s)
  | .quiesce n b edition t => execQuiesce_moves n b edition t s subset_everyArea subset_besideQueue (.refl s)
  | .quiesceTimeout n t => execQuiesceTimeout_moves n t s subset_everyArea subset_besideQueue (.refl s)
  | .plant n b w s5 t => execPlant_moves n b w s5 t s subset_everyArea subset_besideQueue (.refl s)
  | .plantTimer n t => execPlantTimer_moves n t s subset_everyArea subset_besideQueue (.refl s)
  | .pairActive t => execPairActive_moves t s subset_everyArea subset_besideQueue (.refl s)
  | .pairStandby t => execPairStandby_moves t s subset_everyArea subset_besideQueue (.refl s)
  | .pairSwap f t => execPairSwap_moves f t s subset_everyArea subset_besideQueue (.refl s)
  | .pairYield t => execPairYield_moves t s subset_everyArea subset_besideQueue (.refl s)
  | .roleTimeout t => execRoleTimeout_moves t s subset_everyArea subset_besideQueue (.refl s)
  | .pairHello n b role member resync pend t =>
    execPairHello_moves n b role member resync pend t s subset_everyArea subset_besideQueue (.refl s)
  | .pairLevel n b level t => execPairLevel_moves n b level t s subset_everyArea subset_besideQueue (.refl s)
  | .pairImp n b digest t => execPairImp_moves n b digest t s subset_everyArea subset_besideQueue (.refl s)
  | .mirrorWrite n f c addr edition data =>
    execMirrorWrite_moves n f c addr edition data s subset_everyArea subset_besideQueue (.refl s)
  | .mirrorBases n f edition es => execMirrorBases_moves n f edition es s subset_besideQueue (.refl s)
  | .mirrorRecord n f r t => execMirrorRecord_moves n f r t s subset_everyArea subset_besideQueue (.refl s)
  | .mirrorDone n b f edition t =>
    execMirrorDone_moves n b f edition t s subset_everyArea subset_besideQueue (.refl s)
  | .swapReq n b edition t => execSwapReq_moves n b edition t s subset_everyArea subset_besideQueue (.refl s)
  | .swapAck n b edition t => execSwapAck_moves n b edition t s subset_everyArea subset_besideQueue (.refl s)
  | .partnerYield t => execPartnerYield_moves t s subset_everyArea subset_besideQueue (.refl s)
  | .livenessFail t => execLivenessFail_moves t s subset_everyArea subset_besideQueue (.refl s)
  | .yieldComplete t => execYieldComplete_moves t s subset_everyArea subset_besideQueue (.refl s)
  | .graceExpired f t => execGraceExpired_moves f t s subset_everyArea subset_besideQueue (.refl s)
  | .standbyStale t => execStandbyStale_moves t s subset_everyArea (.refl s)
  | .takeoverPowered t => execTakeoverPowered_moves t s subset_everyArea subset_besideQueue (.refl s)
  | .takeoverProofDone fs t => execTakeoverProofDone_moves fs t s subset_everyArea subset_besideQueue (.refl s)
  | .takeoverImagesWritten t =>
    execTakeoverImagesWritten_moves t s subset_everyArea subset_besideQueue (.refl s)
  | .takeoverPortsTimeout t => execTakeoverPortsTimeout_moves t s subset_everyArea subset_besideQueue (.refl s)
  | .takeoverRelease t => execTakeoverRelease_moves t s subset_everyArea subset_besideQueue (.refl s)
  | .railWindow n current t => execRailWindow_moves n current t s subset_everyArea subset_besideQueue (.refl s)
  | .mainRailFailure inputOut t =>
    execMainRailFailure_moves inputOut t s subset_everyArea subset_besideQueue (.refl s)
  | .estimatorSample e t => execEstimatorSample_moves e t s subset_everyArea subset_besideQueue (.refl s)
  | .inputMeasurement watts dv t => execInputMeasurement_moves watts dv t s subset_everyArea (.refl s)
  | .idleStepEnd f t => execIdleStepEnd_moves f t s subset_everyArea subset_besideQueue (.refl s)
  | .pwrCtrlWrite value => execPwrCtrlWrite_moves value s subset_everyArea (.refl s)
  | .droopTrip island sag t => execDroopTrip_moves island sag t s subset_everyArea subset_besideQueue (.refl s)
  | .droopEventEnd island still t =>
    execDroopEventEnd_moves island still t s subset_everyArea subset_besideQueue (.refl s)
  | .tempSample d ts t => execTempSample_moves d ts t s subset_everyArea (.refl s)
  | .thermalDutyUpdate d t => execThermalDutyUpdate_moves d t s subset_everyArea (.refl s)
  | .thermalTrip d t => execThermalTrip_moves d t s subset_everyArea subset_besideQueue (.refl s)
  | .proofPhaseComplete fs t =>
    execProofPhaseComplete_moves fs t s subset_everyArea subset_besideQueue (.refl s)
  | .stripSliceDone p strip ok t =>
    execStripSliceDone_moves p strip ok t s subset_everyArea subset_besideQueue (.refl s)
  | .logicSlice u t => execLogicSlice_moves u t s subset_everyArea (.refl s)
  | .coreSlice n t => execCoreSlice_moves n t s subset_everyArea (.refl s)
  | .pendingFlush t => execPendingFlush_moves t s subset_everyArea subset_besideQueue (.refl s)
  | .stackChannelRetrain m channel ok t =>
    execStackChannelRetrain_moves m channel ok t s subset_everyArea subset_besideQueue (.refl s)
  | .loopback q t => execLoopback_moves q t s subset_everyArea (.refl s)
  | .loopbackDone errors passed t => execLoopbackDone_moves errors passed t s subset_everyArea (.refl s)
  | .clearMap => execClearMap_moves s subset_everyArea (.refl s)
  | .tapReset => execTapReset_moves s subset_everyArea (.refl s)
  | .tapBypass => execTapBypass_moves s subset_everyArea (.refl s)
  | .tapIdcode => execTapIdcode_moves s subset_everyArea subset_besideQueue (.refl s)
  | .tapSample => execTapSample_moves s subset_everyArea (.refl s)
  | .tapExtest => execTapExtest_moves s subset_everyArea (.refl s)
  | .tapClamp => execTapClamp_moves s subset_everyArea (.refl s)
  | .tapHighz => execTapHighz_moves s subset_everyArea (.refl s)
  | .tapSegsel segs => execTapSegsel_moves segs s subset_everyArea subset_besideQueue (.refl s)
  | .auxPowerOn strap fail => execAuxPowerOn_moves strap fail s subset_everyArea subset_besideQueue (.refl s)
  | .stageComplete t => execStageComplete_moves t s subset_everyArea subset_besideQueue (.refl s)
  | .stageTimeout t => execStageTimeout_moves t s subset_everyArea subset_besideQueue (.refl s)
  | .t0Reached t => execT0Reached_moves t s subset_everyArea (.refl s)
  | .railEnableStep good t => execRailEnableStep_moves good t s subset_everyArea subset_besideQueue (.refl s)
  | .hardwareReset islandTemp t =>
    execHardwareReset_moves islandTemp t s subset_everyArea subset_besideQueue (.refl s)
  | .resetRelease t => execResetRelease_moves t s subset_everyArea (.refl s)
  | .auxLoss => execAuxLoss_moves s subset_everyArea subset_besideQueue (.refl s)
  | .railDisableStep t => execRailDisableStep_moves t s subset_everyArea subset_besideQueue (.refl s)
  | .laserOverpower n t => execLaserOverpower_moves n t s subset_everyArea subset_besideQueue (.refl s)
  | .laserHeartbeatMiss u t => execLaserHeartbeatMiss_moves u t s subset_everyArea subset_besideQueue (.refl s)
  | .flashWriteComplete ok t =>
    execFlashWriteComplete_moves ok t s subset_everyArea subset_besideQueue (.refl s)
  | .counterWriteTimeout t => execCounterWriteTimeout_moves t s subset_everyArea subset_besideQueue (.refl s)
  | .secReady t => execSecReady_moves t s subset_everyArea (.refl s)
  | .fwCommit t => execFwCommit_moves t s subset_everyArea subset_besideQueue (.refl s)
  | .secAttest t => execSecAttest_moves t s subset_everyArea subset_besideQueue (.refl s)
  | .secAlert => execSecAlert_moves s subset_everyArea (.refl s)
  | .keyClaim t => execKeyClaim_moves t s subset_everyArea subset_besideQueue (.refl s)
  | .keyTransfer t => execKeyTransfer_moves t s subset_everyArea subset_besideQueue (.refl s)
  | .keyAdd t => execKeyAdd_moves t s subset_everyArea subset_besideQueue (.refl s)
  | .keyRemove t => execKeyRemove_moves t s subset_everyArea subset_besideQueue (.refl s)
  | .keyEpoch t => execKeyEpoch_moves t s subset_everyArea subset_besideQueue (.refl s)
  | .svReset c t => execSvReset_moves c t s subset_everyArea subset_besideQueue (.refl s)
  | .svPowerOff c t => execSvPowerOff_moves c t s subset_everyArea subset_besideQueue (.refl s)
  | .svPowerOn c t => execSvPowerOn_moves c t s subset_everyArea subset_besideQueue (.refl s)
  | .svLaserOff c t => execSvLaserOff_moves c t s subset_everyArea subset_besideQueue (.refl s)
  | .coreStart n => execCoreStart_moves n s subset_everyArea (.refl s)
  | .coreRetire n => execCoreRetire_moves n s subset_everyArea subset_besideQueue (.refl s)
  | .timerInterrupt n => execTimerInterrupt_moves n s subset_everyArea (.refl s)
  | .coreAccessFault n a => execCoreAccessFault_moves n a s subset_everyArea subset_besideQueue (.refl s)
  | .snapshotRead who addr size =>
    execSnapshotRead_moves who addr size s subset_everyArea subset_besideQueue (.refl s)
  | .groupRead who addr size =>
    execGroupRead_moves who addr size s subset_everyArea subset_besideQueue (.refl s)
  | .groupWrite who addr size value t =>
    execGroupWrite_moves who addr size value t s subset_everyArea subset_besideQueue (.refl s)
  | .unmappedAccess who addr store =>
    execUnmappedAccess_moves who addr store s subset_everyArea subset_besideQueue (.refl s)
  | .registerWrite who addr size value =>
    execRegisterWrite_moves who addr size value s subset_everyArea subset_besideQueue (.refl s)
  | .neighbourDiscovery target => execNeighbourDiscovery_moves target s subset_besideQueue (.refl s)
  | .echoRequest ident seq data => execEchoRequest_moves ident seq data s subset_besideQueue (.refl s)
  | .duplicateAddressDetection failed => execDuplicateAddressDetection_moves failed s subset_everyArea (.refl s)
  | .mgtStatus h => execMgtStatus_moves h s subset_everyArea subset_besideQueue (.refl s)
  | .mgtChallenge h => execMgtChallenge_moves h s subset_everyArea subset_besideQueue (.refl s)
  | .mgtCert h which slot => execMgtCert_moves h which slot s subset_everyArea subset_besideQueue (.refl s)
  | .mgtAttest h nonce => execMgtAttest_moves h nonce s subset_everyArea subset_besideQueue (.refl s)
  | .regRead h a off width count =>
    execRegRead_moves h a off width count s subset_everyArea subset_besideQueue (.refl s)
  | .regWrite h a off width vals t =>
    execRegWrite_moves h a off width vals t s subset_everyArea subset_besideQueue (.refl s)
  | .memRead h a c space addr len met =>
    execMemRead_moves h a c space addr len met s subset_everyArea subset_besideQueue (.refl s)
  | .memWrite h a c space addr data =>
    execMemWrite_moves h a c space addr data s subset_everyArea subset_besideQueue (.refl s)
  | .imageBegin h a len => execImageBegin_moves h a len s subset_everyArea subset_besideQueue (.refl s)
  | .imageData h off data => execImageData_moves h off data s subset_everyArea subset_besideQueue (.refl s)
  | .imageEnd h => execImageEnd_moves h s subset_everyArea subset_besideQueue (.refl s)
  | .unitWithdrawn u t => execUnitWithdrawn_moves u t s subset_everyArea (.refl s)
  | .pairHelloTimer t => execPairHelloTimer_moves t s subset_everyArea subset_besideQueue (.refl s)
  | .pairLiveRestored t => execPairLiveRestored_moves t s subset_everyArea subset_besideQueue (.refl s)
  | .logicSliceDone u ok t => execLogicSliceDone_moves u ok t s subset_everyArea subset_besideQueue (.refl s)
  | .coreSliceDone n ok t => execCoreSliceDone_moves n ok t s subset_everyArea (.refl s)
  | .mgtBlockLock => execMgtBlockLock_moves s subset_everyArea (.refl s)
  | .mgtBlockLockLost => execMgtBlockLockLost_moves s subset_everyArea (.refl s)
  | .otherBypassKind n b kind arg => execOtherBypassKind_moves n b kind arg s subset_everyArea (.refl s)

/-- On an empty queue a step is the tick of an idle module (log entry 2). -/
theorem step_of_pending_nil {s : State} (h : s.pending = []) : step s = .next s.idle := by
  unfold step; rw [h]

/-- With a command at the front a step runs it on the state whose queue is the rest (log entry 2). -/
theorem step_of_pending_cons {s : State} {c : Instr} {rest : List Instr} (h : s.pending = c :: rest) :
    step s = exec c { s with pending := rest } := by
  unfold step; rw [h]

/-- Settles O4: the idle tick and every command keep the invariant, which does not speak of the queue. -/
theorem stepKeepsInvariant : Obligations.StepKeepsInvariant := by
  intro s t hs ht
  cases hp : s.pending with
  | nil =>
    have idles : ResMoves everyArea besideQueue s (.next s.idle) :=
      .next (State.idle_moves s subset_everyArea (.refl s))
    exact (idles t ((step_of_pending_nil hp).symm.trans ht)).2 hs
  | cons c rest =>
    have runs := exec_moves c { s with pending := rest } t ((step_of_pending_cons hp).symm.trans ht)
    exact runs.2 hs

/-! ## Time -/

/-- While the time base counts, MOD_TICK moves on by the ticks that pass (R5). -/
theorem State.now_tickBy (s : State) (n : Nat) (h : s.on .hTimeBase 0 0 = true) :
    (s.tickBy n).now = (s.now + n) % 2 ^ 64 := by
  have on : (s.keepCycle n).on .hTimeBase 0 0 = true := h
  simp only [State.tickBy, on, if_true, State.now, State.rd_wrap]
  rfl

/-- While the time base counts, the galley cycle of each chase moves on by the ticks that pass (R141). -/
theorem State.galCycle_tickBy (s : State) (n c : Nat) (hc : c < 4) (h : s.on .hTimeBase 0 0 = true) :
    (s.tickBy n).rd .galCycleCycle c 0 = (s.rd .galCycleCycle c 0 + n) % 2 ^ 64 := by
  have on : (s.keepCycle n).on .hTimeBase 0 0 = true := h
  simp only [State.tickBy, on, if_true, State.rd_wrap]
  obtain rfl | rfl | rfl | rfl : c = 0 ∨ c = 1 ∨ c = 2 ∨ c = 3 := by omega
  all_goals rfl

/-- While the time base is off no number moves (R5). -/
theorem State.rd_tickBy_off (s : State) (n : Nat) (f : Field) (i j : Nat) (h : s.on .hTimeBase 0 0 = false) :
    (s.tickBy n).rd f i j = s.rd f i j := by
  have off : (s.keepCycle n).on .hTimeBase 0 0 = false := h
  simp only [State.tickBy, off]
  rfl

/-- The tick of an idle module shows of MOD_TICK and the galley cycles what the time base makes of it. -/
theorem State.rd_idle (s : State) (f : Field) (i j : Nat) (hf : f ∉ .hSurvTick :: irqFields) :
    s.idle.rd f i j = (s.tickBy 1).rd f i j := by
  simp only [irqFields, List.mem_cons, List.not_mem_nil, or_false, not_or] at hf
  obtain ⟨surv, irq⟩ := hf
  unfold State.idle
  rw [State.rd_irqDeliver _ _ _ _ irq]
  split
  · exact State.rd_wr_ne _ _ _ _ _ _ _ _ (Ne.symm surv)
  · rfl

theorem State.idle_changes (s : State) : changes (timeFields ++ irqFields) [] s s.idle := by
  have ticked : changes timeFields [] s (s.tickBy 1) :=
    ⟨fun f i j hf => State.rd_tickBy s 1 f i j (by simpa [timeFields, not_or] using hf),
      fun q _ => by rw [State.tickBy_only]; cases q <;> rfl⟩
  have ticked := ticked.mono (List.subset_append_left timeFields irqFields) (List.Subset.refl _)
  exact .irqDeliver (List.subset_append_right ..) (.ite (fun _ => ticked.wrap _ _ _ _ (by decide)) fun _ => ticked)

/-- Settles O2: the step is the idle tick, whose numbers are those of `tickBy` beside the island's counter and the
delivery of interrupts. -/
theorem idleModuleTicks : Obligations.IdleModuleTicks := by
  intro s hs
  refine ⟨s.idle, step_of_pending_nil hs, fun on => ⟨?_, fun c hc => ?_⟩, fun off => ⟨?_, fun c => ?_⟩,
    s.idle_changes⟩
  · exact (s.rd_idle _ _ _ (by decide)).trans (s.now_tickBy 1 on)
  · exact (s.rd_idle _ _ _ (by decide)).trans (s.galCycle_tickBy 1 c hc on)
  · exact (s.rd_idle _ _ _ (by decide)).trans (s.rd_tickBy_off 1 _ _ _ off)
  · exact (s.rd_idle _ _ _ (by decide)).trans (s.rd_tickBy_off 1 _ _ _ off)

/-! ## The outcomes of commands -/

/-! ### What a command answers -/

/-- A command answers a next state. -/
def Goes (r : Res) : Prop := ∃ t, r = .next t

theorem Goes.next (t : State) : Goes (.next t) := ⟨t, rfl⟩

theorem Goes.ite {c : Prop} [Decidable c] {r r' : Res} (h : c → Goes r) (h' : ¬c → Goes r') :
    Goes (if c then r else r') := by
  split <;> rename_i hc
  · exact h hc
  · exact h' hc

/-- A command answers a next state; or, where the check `ok` of its operands fails, the fault of a unit that the
module does not have (log entry 3). -/
def Answers (ok : Bool) (r : Res) : Prop := Goes r ∨ (ok = false ∧ r = .fault .noSuchUnit)

theorem Answers.goes {ok : Bool} {r : Res} (h : Goes r) : Answers ok r := .inl h

/-- A check may be given stronger. -/
theorem Answers.mono {ok ok' : Bool} {r : Res} (hk : ok' = true → ok = true) (h : Answers ok r) :
    Answers ok' r :=
  h.imp_right fun ⟨no, hr⟩ => ⟨by cases ok' <;> simp_all, hr⟩

theorem Answers.also {ok b : Bool} {r : Res} (h : Answers ok r) : Answers (ok && b) r :=
  h.mono fun k => (Bool.and_eq_true_iff.mp k).1

/-- A command that makes its check first. -/
theorem Answers.guard {g : Prop} [Decidable g] {r : Res} (h : Goes r) :
    Answers (decide g) (if g then r else .fault .noSuchUnit) := by
  split <;> rename_i hg
  · exact .inl h
  · exact .inr ⟨decide_eq_false hg, rfl⟩

/-- The same where the check is a truth value. -/
theorem Answers.check {ok : Bool} {r : Res} (h : Goes r) :
    Answers ok (if ok = true then r else .fault .noSuchUnit) := by
  cases ok
  · exact .inr ⟨rfl, rfl⟩
  · exact .inl h

/-! ### Commands of one kind of unit -/

theorem allLanes_eq_laneCount (n : Nat) : allLanes n = laneCount n := by
  have ring : dieLinkOf n < 4 ↔ n < 40 := by unfold dieLinkOf; omega
  unfold allLanes laneCount dieGroups dataLanes
  by_cases port : n < 32
  · simp [port]
  · by_cases hr : n < 40 <;> simp [port, ring, hr]

theorem unitOk_eq_blockFits (u : LogicUnit) : unitOk u = blockFits u := by cases u <;> rfl

theorem ueOk_eq_ueFits (u : UeSite) : ueOk u = ueFits u := by cases u <;> rfl

section
variable (s : State)

theorem atLane_answers (n i t : Nat) (run : State → State) :
    Answers (decide (n < 56) && decide (i < laneCount n)) (s.atLane n i t run) := by
  rw [← allLanes_eq_laneCount]
  exact .check (.next _)

theorem atEnd_answers (n t : Nat) (run : State → State) : Answers (decide (n < 56)) (s.atEnd n t run) :=
  .guard (.next _)

theorem atPort_answers (n t : Nat) (run : State → State) : Answers (decide (n < 32)) (s.atPort n t run) :=
  .guard (.next _)

theorem byp_answers (n : Nat) (b : Byp) (kind arg t : Nat) (run : State → State) :
    Answers (decide (n < 56)) (s.byp n b kind arg t run) := atEnd_answers s n t _

theorem laneRequest_answers (n : Nat) (b : Byp) (ident lane action t : Nat) (run : State → State) :
    Answers (decide (n < 56)) (s.laneRequest n b ident lane action t run) := byp_answers s n b _ _ t _

theorem dieByp_answers (l e : Nat) (b : Byp) (kind arg t : Nat) (run : State → State) :
    Answers (decide (l < 12) && decide (e < 2)) (s.dieByp l e b kind arg t run) := by
  unfold State.dieByp
  by_cases hg : l < 12 ∧ e < 2
  · have fits : dieEnd l e < 56 := by unfold dieEnd; omega
    rw [if_pos (by simpa using hg)]
    exact (byp_answers s (dieEnd l e) b kind arg t run).mono fun _ => decide_eq_true fits
  · rw [if_neg (by simpa using hg)]
    exact .inr ⟨by simpa using hg, rfl⟩

theorem vc1Serve_answers (n : Nat) (r : VcReq) (data : Option (List Byte)) :
    Answers (decide (n < 56) && decide (r.target < 4) && decide (1 ≤ r.sectors) && decide (r.sectors ≤ 3))
      (s.vc1Serve n r data) :=
  .check (.ite (fun _ => .next _) fun _ => .next _)

theorem vc1Answered_answers (n tag op : Nat) (data : List Byte) :
    Answers (decide (n < 56)) (s.vc1Answered n tag op data) :=
  .guard <| by
    dsimp only
    split
    · exact .next _
    · exact .ite (fun _ => .next _) fun _ => .next _

theorem withHead_goes (h : MsgHead) (bytes : Nat) (serve : State → State) : Goes (s.withHead h bytes serve) :=
  .ite (fun _ => .next _) fun _ => .ite (fun _ => .next _) fun _ => .next _

end

/-- A command that is no press instruction runs where its operands lie within the module; elsewhere it may be the
fault of a unit that the module does not have (R14; log entry 3). -/
theorem exec_answers (c : Instr) (s : State) (h : onPress c = none) : Answers c.wf (exec c s) := by
  delta exec Instr.wf
  cases c
  case nop | loop | seta | srk | stepEnd | bsig | bwait | fence | ramp | wload | bias | pass | drain | fadd |
    fsub | fmul | ffma | fmin | fmax | fcmp | fsel | fmov | fmsk | fcvt | frcp | frsq | fexp | flog | frsum
    | frmax | frmin | fld | fst | cmov | gload | gstore =>
    exact absurd h (by simp [onPress])
  -- at a lane, a link end, a port, a die link, or by a bypass message
  case laneLock | lossOfLock | blockError | transmitStart | markJoin | markLeave | laneCleanRun |
    laneRetrainTimeout | laneRetrainRetry | idleAdaptation =>
    exact atLane_answers s _ _ _ _
  case alignComplete | train | trainingTimeout | trainingRetry | ackTimer | creditTimer | replayTimer |
    requestRepeat =>
    exact atEnd_answers s _ _ _
  case frame =>
    exact (atEnd_answers s _ _ _).also
  case lcLost | lcLock | poll | pollEnd | peerLcDetected | clearMismatch | retrain | linkDown | tokenRepeat |
    editionRepeat | quiesceTimeout | plantTimer =>
    exact atPort_answers s _ _ _
  case ack | credit | barrierToken | laneDrop | laneAck | widthReq | widthAck | retrainReq | retrainAck | rewind
    | editionToken | fetch | fetchAck | quiesce | plant | pairHello | pairLevel | pairImp | swapReq |
    swapAck =>
    exact byp_answers s _ _ _ _ _ _
  case mirrorDone =>
    exact (byp_answers s _ _ _ _ _ _).also
  case laneMove | laneBack | laneCal | laneCalEnd | laneRejoin | spareIn =>
    exact laneRequest_answers s _ _ _ _ _ _ _
  case dlaneDrop | dwidthReq | dwidthAck =>
    exact dieByp_answers s _ _ _ _ _ _ _
  case vc1Read =>
    exact (vc1Serve_answers s _ _ _).also
  case vc1Write =>
    exact vc1Serve_answers s _ _ _
  case vc1Data | vc1Done | vc1Error =>
    exact vc1Answered_answers s _ _ _ _
  -- messages of the management port, and the commands without operands to check
  case mgtStatus | mgtChallenge | mgtCert | mgtAttest | regRead | regWrite | memRead | memWrite | imageBegin |
    imageData | imageEnd =>
    exact .goes (withHead_goes _ _ _ _)
  case pairActive | pairStandby | pairYield | livenessFail | yieldComplete | inputMeasurement | pwrCtrlWrite |
    pendingFlush | clearMap | tapReset | tapBypass | tapIdcode | tapSample | tapExtest | tapClamp | tapHighz
    | tapSegsel | hardwareReset | auxLoss | secAttest | secAlert | keyClaim | keyTransfer | keyAdd |
    keyRemove | keyEpoch | svReset | svPowerOff | svPowerOn | svLaserOff | neighbourDiscovery | echoRequest
    | duplicateAddressDetection | pairHelloTimer | pairLiveRestored | mgtBlockLock | mgtBlockLockLost =>
    exact .goes (.next _)
  case impLoad | discardStop | identityWrite | roleTimeout | standbyStale | takeoverPowered | takeoverProofDone |
    takeoverImagesWritten | takeoverPortsTimeout | mainRailFailure | loopbackDone | t0Reached | resetRelease
    | secReady | fwCommit =>
    exact .goes (.ite (fun _ => .next _) fun _ => .next _)
  -- one check, and one outcome or two behind it
  case caseUncorrectable | heldAccessRelease | scrubLate | drainAcknowledged | formeStart | formeHold | formePark
    | pressLost | watchClear | lsuRestore | oeCalCtrlWrite | dieLinkDown | idleStepEnd | droopTrip |
    thermalDutyUpdate | thermalTrip | coreSlice | auxPowerOn | laserOverpower | laserHeartbeatMiss |
    coreStart | coreRetire | timerInterrupt | coreSliceDone =>
    exact .guard (.next _)
  case caseScrub =>
    exact (Answers.guard (.next _)).also
  case groupClockLost | groupHealthy | guestTrain | guestRetry | guestHello | guestNotify | guestPost |
    lowPowerRequest | guestLinkDown | guestWrite | lateTransfer | stackRefresh | toneWindow | calDue |
    unitProofDone | estimatorSample | tempSample | snapshotRead | groupRead | groupWrite | registerWrite =>
    exact .check (.next _)
  case guestRead =>
    exact (Answers.check (.next _)).also
  case logicSlice =>
    exact .mono (unitOk_eq_blockFits _).trans (.check (.next _))
  case arrayResume | formeResume | laserSample | twinReady | unitInserted | interlockOpen | dieLinkRetry |
    editionStalled | loopback | unitWithdrawn =>
    exact .guard (.ite (fun _ => .next _) fun _ => .next _)
  case heaterLoopUpdate | mislockRecoveryDone | continuousCalNext | steerWindowEnd | barrierRoundComplete |
    mirrorBases | stackChannelRetrain =>
    exact .check (.ite (fun _ => .next _) fun _ => .next _)
  -- what is left branches further: past the check, every branch ends in a next state
  case' impCommit | impDiscard | verifyComplete | checkComplete | switch | switchComplete | relight | partnerYield
    | takeoverRelease | proofPhaseComplete | stageComplete | stageTimeout | railEnableStep | railDisableStep
    | flashWriteComplete | counterWriteTimeout =>
    refine .goes ?_
    delta execImpCommit execImpDiscard execVerifyComplete execCheckComplete execSwitch execSwitchComplete
      execRelight execPartnerYield execTakeoverRelease execProofPhaseComplete execStageComplete execStageTimeout
      execRailEnableStep execRailDisableStep execFlashWriteComplete execCounterWriteTimeout
    dsimp only
  case' arrayGate | istoreError | jobStart | nodeArrival | watchdogTimeout | editionCommit | unitsStopped |
    variantRewriteDone | powerMonitorSample | drainUnit | pairSwap | graceExpired | railWindow |
    droopEventEnd | stepRelease | patrolScrub | otherBypassKind =>
    refine .guard ?_
  case' instructionComplete | jobComplete | calibrationSweepDone | suddenLoss | mirrorRecord | galleyScrub |
    mirrorWrite | stripSliceDone | coreAccessFault | unmappedAccess =>
    refine .check ?_
  case' windowFetch | stepComplete =>
    refine (Answers.guard ?_).also
  case' uncorrectableError | coreLineUe =>
    refine .mono (ueOk_eq_ueFits _).trans (.check ?_)
  case' logicSliceDone =>
    refine .mono (unitOk_eq_blockFits _).trans (.check ?_)
  case' laneRetrained =>
    refine .mono (fun k => ?_) (.check ?_)
    · simp only [Bool.and_eq_true] at k ⊢; tauto
  case' unscheduledRequest =>
    refine .mono (fun k => ?_) (.check ?_)
    · simp only [Bool.and_eq_true, List.all_eq_true] at k ⊢; grind
  all_goals
    repeat' first
      | with_reducible exact Goes.next _
      | split
      | dsimp only

/-- A press instruction answers as another command does, its press checked, or ends in the fault of a line beyond
the case or the galley (log entry 75). -/
def PressAnswers (p : Nat) (r : Res) : Prop := Answers (decide (p < 12)) r ∨ r = .fault .noSuchLine

theorem dispatch_answers (s : State) (p : Nat) (k : Tok) (u : Nat) (legal : Bool) (hold : Nat) (ready : Bool)
    (lines : List (Int × Nat)) (waits : List Field) (run : State → State) :
    PressAnswers p (s.dispatch p k u legal hold ready lines waits run) := by
  rcases State.dispatch_cases s p k u legal hold ready lines waits run with
    ⟨hp, h⟩ | h | h | h | ⟨_, h⟩ | ⟨_, _, h⟩ | ⟨_, h⟩
  · exact .inl (.inr ⟨decide_eq_false (by omega), h⟩)
  · exact .inl (.inl ⟨_, h⟩)
  · exact .inl (.inl ⟨_, h⟩)
  · exact .inl (.inl ⟨_, h⟩)
  · exact .inl (.inl ⟨_, h⟩)
  · exact .inr h
  · exact .inl (.inl ⟨_, h⟩)

theorem finOp_answers (s : State) (p : Nat) (k : Tok) (o : FinOp) (f : FinF) (op : List FVal → FVal) :
    PressAnswers p (s.finOp p k o f op) := by
  unfold State.finOp
  apply dispatch_answers

theorem finReduce_answers (s : State) (p : Nat) (k : Tok) (o : FinOp) (f : FinF) (ident : Nat)
    (op : FVal → FVal → FVal) : PressAnswers p (s.finReduce p k o f ident op) := by
  unfold State.finReduce
  apply dispatch_answers

theorem PressAnswers.ite_line {c : Prop} [Decidable c] {p : Nat} {r : Res} (h : PressAnswers p r) :
    PressAnswers p (if c then .fault .noSuchLine else r) := by
  split
  · exact .inr rfl
  · exact h

theorem exec_press_answers {c : Instr} {p u : Nat} {k : Tok} (s : State) (h : onPress c = some (p, k, u)) :
    PressAnswers p (exec c s) := by
  delta exec
  cases c
  case nop | loop | seta | srk | stepEnd | bsig | bwait | fence | ramp | wload | bias | pass | drain | fcmp |
    fsel | fmsk | fcvt | fld | fst | cmov =>
    cases h
    delta execNop execLoop execSeta execSrk execStepEnd execBsig execBwait execFence execRamp execWload execBias
      execPass execDrain execFcmp execFsel execFmsk execFcvt execFld execFst execCmov
    dsimp only
    with_reducible apply dispatch_answers
  case fadd | fsub | fmul | ffma | fmin | fmax | fmov | frcp | frsq | fexp | flog =>
    cases h
    delta execFadd execFsub execFmul execFfma execFmin execFmax execFmov execFrcp execFrsq execFexp execFlog
    with_reducible apply finOp_answers
  case frsum | frmax | frmin =>
    cases h
    delta execFrsum execFrmax execFrmin
    with_reducible apply finReduce_answers
  case gload | gstore =>
    cases h
    exact .ite_line (dispatch_answers s _ _ _ _ _ _ _ _ _)
  all_goals cases h

theorem press_lt_of_wf {c : Instr} {p u : Nat} {k : Tok} (h : onPress c = some (p, k, u)) (w : c.wf = true) :
    p < 12 := by
  cases c <;> cases h
  all_goals
    simp only [Instr.wf, Bool.and_eq_true, decide_eq_true_eq] at w
    omega

/-! ### What follows for every command -/

theorem Goes.ne_refused {r : Res} (h : Goes r) (x : Refusal) : r ≠ .refused x := by
  obtain ⟨t, rfl⟩ := h; exact nofun

theorem Goes.ne_fault {r : Res} (h : Goes r) (x : Fault) : r ≠ .fault x := by
  obtain ⟨t, rfl⟩ := h; exact nofun

theorem Answers.ne_refused {ok : Bool} {r : Res} (h : Answers ok r) (x : Refusal) : r ≠ .refused x := by
  obtain h | ⟨_, rfl⟩ := h
  · exact h.ne_refused x
  · exact nofun

theorem Answers.ne_noSuchLine {ok : Bool} {r : Res} (h : Answers ok r) : r ≠ .fault .noSuchLine := by
  obtain h | ⟨_, rfl⟩ := h
  · exact h.ne_fault _
  · simp

theorem Answers.goes_of_ok {ok : Bool} {r : Res} (h : Answers ok r) (hok : ok = true) : Goes r :=
  h.resolve_right fun ⟨no, _⟩ => by simp [hok] at no

theorem exec_ne_refused (c : Instr) (s : State) (r : Refusal) : exec c s ≠ .refused r := by
  cases hc : onPress c with
  | none => exact (exec_answers c s hc).ne_refused r
  | some x =>
    obtain h | h := exec_press_answers (p := x.1) (k := x.2.1) (u := x.2.2) s hc
    · exact h.ne_refused r
    · rw [h]; exact nofun

theorem press_runs_or_noSuchLine {c : Instr} (s : State) (w : c.wf = true) (h : onPress c ≠ none) :
    (∃ t, Runs c s t) ∨ exec c s = .fault .noSuchLine := by
  obtain ⟨⟨p, k, u⟩, hc⟩ := Option.ne_none_iff_exists'.mp h
  exact (exec_press_answers s hc).imp_left fun a => a.goes_of_ok (decide_eq_true (press_lt_of_wf hc w))

theorem exec_pending {c : Instr} {s t : State} (h : Runs c s t) : t.pending = s.pending :=
  (exec_moves c s t h).1.2 .pending (by decide)

/-! ### Units that the module does not have -/

theorem noSuchUnit_of_le {m n : Nat} (r : Res) (h : m ≤ n) :
    (if n < m then r else .fault .noSuchUnit) = .fault .noSuchUnit := if_neg (Nat.not_lt.mpr h)

theorem dispatch_noSuchUnit (s : State) (p : Nat) (k : Tok) (u : Nat) (legal : Bool) (hold : Nat) (ready : Bool)
    (lines : List (Int × Nat)) (waits : List Field) (run : State → State) (h : 12 ≤ p) :
    s.dispatch p k u legal hold ready lines waits run = .fault .noSuchUnit := noSuchUnit_of_le _ h

theorem atPort_noSuchUnit (s : State) (n t : Nat) (run : State → State) (h : 32 ≤ n) :
    s.atPort n t run = .fault .noSuchUnit := noSuchUnit_of_le _ h

theorem atGuest_noSuchUnit (s : State) (g t : Nat) (run : State → State) (h : g ≠ 0 ∧ g ≠ 2) :
    s.atGuest g t run = .fault .noSuchUnit := if_neg (by simpa using h)

/-- Settles O5: a command checks its operands first and then runs; a press instruction alone can end in
`noSuchLine`. -/
theorem commandsRunOrFault : Obligations.CommandsRunOrFault := by
  refine ⟨⟨fun c s => ⟨exec_ne_refused c s, fun w hc => (exec_answers c s hc).goes_of_ok w,
    fun w hc => press_runs_or_noSuchLine s w hc, fun hl hc => (exec_answers c s hc).ne_noSuchLine hl⟩,
    fun c s t h => exec_pending h⟩, ?_⟩
  intro s n t
  refine ⟨fun h => ⟨fun k => ?_, ?_, ?_⟩, fun h ce => ?_, fun h v => ?_, fun h => ?_, fun h => ?_,
    fun h => ⟨?_, ?_⟩, fun h => ?_, fun h => ?_, fun h => ⟨?_, ?_, ?_⟩, fun h c => ?_⟩
  · show execNop n k s = _
    exact dispatch_noSuchUnit s n k _ _ _ _ _ _ _ h
  · show execArrayGate n s = _
    exact noSuchUnit_of_le _ h
  · show execPressLost n t s = _
    exact noSuchUnit_of_le _ h
  · show execWindowFetch n ce s = _
    exact noSuchUnit_of_le _ h
  · show execOeCalCtrlWrite n v s = _
    exact noSuchUnit_of_le _ h
  · show execWatchClear n t s = _
    exact noSuchUnit_of_le _ h
  · show execAlignComplete n t s = _
    exact noSuchUnit_of_le _ h
  · show execPoll n t s = _
    exact atPort_noSuchUnit s n t _ h
  · show execRetrain n t s = _
    exact atPort_noSuchUnit s n t _ h
  · show execDieLinkDown n t s = _
    exact noSuchUnit_of_le _ h
  · show execGuestRetry n t s = _
    exact atGuest_noSuchUnit s n t _ h
  · show execFormeHold n t s = _
    exact noSuchUnit_of_le _ h
  · show execScrubLate n t s = _
    exact noSuchUnit_of_le _ h
  · show execCoreStart n s = _
    exact noSuchUnit_of_le _ h
  · show execRailWindow n c t s = _
    exact noSuchUnit_of_le _ h

/-! ## Control space -/

/-! ### What an access reaches does not change with time -/

theorem State.powered_stamp (s : State) (u : Nat) (h : Hit) : (s.stamp u).powered h = s.powered h := by
  unfold State.powered State.pState
  simp only [State.rd_stamp _ _ _ _ _ (show Field.pwrRailState ≠ _ ∧ _ by decide),
    State.rd_stamp _ _ _ _ _ (show Field.prsStatusState ≠ _ ∧ _ by decide),
    State.rd_stamp _ _ _ _ _ (show Field.oeStatusState ≠ _ ∧ _ by decide),
    State.rd_stamp _ _ _ _ _ (show Field.memStatusState ≠ _ ∧ _ by decide)]

theorem State.reach_stamp (s : State) (u who a : Nat) : (s.stamp u).reach who a = s.reach who a := by
  unfold State.reach State.members
  simp only [State.powered_stamp, State.rd_stamp _ _ _ _ _ (show Field.modGroupMaskMask ≠ _ ∧ _ by decide)]

/-! ### The unmapped access (R12, R506) -/

/-- The state t shows an unmapped access of a requester that came in s: counted, and recorded where the flag was
clear. -/
def noted (s : State) (who a : Nat) (store : Bool) (t : State) : Prop :=
  t.rd .modUnmappedUnmapped 0 0 = 1 ∧
  t.rd .modUnmappedCount 0 0 = min 65535 (s.rd .modUnmappedCount 0 0 + 1) ∧
  (s.rd .modUnmappedUnmapped 0 0 ≠ 1 → t.rd .modUnmappedSource 0 0 = who ∧
    t.rd .modUnmappedWrite 0 0 = b2n store ∧ t.rd .modUnmappedOffset 0 0 = a) ∧
  (s.rd .modUnmappedUnmapped 0 0 = 1 →
    t.rd .modUnmappedSource 0 0 = s.rd .modUnmappedSource 0 0 ∧
    t.rd .modUnmappedWrite 0 0 = s.rd .modUnmappedWrite 0 0 ∧
    t.rd .modUnmappedOffset 0 0 = s.rd .modUnmappedOffset 0 0) ∧
  changes (.modUnmappedUnmapped :: .modUnmappedCount :: .modUnmappedSource :: .modUnmappedWrite ::
    .modUnmappedOffset :: timeFields) [.snaps, .out] s t

/-- Time that passed before the access, its requester's snapshot and the answer do not touch what it noted. -/
theorem noted.frame {s s' t t' : State} {who a : Nat} {store : Bool} (h : noted s' who a store t)
    (hs : changes timeFields [.snaps, .out] s s') (ht : changes [] [.snaps, .out] t t') :
    noted s who a store t' := by
  obtain ⟨flag, count, first, later, frame⟩ := h
  have before (f : Field) (hf : f ∉ timeFields) : s'.rd f 0 0 = s.rd f 0 0 := hs.1 f 0 0 hf
  have after (f : Field) : t'.rd f 0 0 = t.rd f 0 0 := ht.1 f 0 0 (List.not_mem_nil)
  simp only [before _ (show Field.modUnmappedUnmapped ∉ timeFields by decide),
    before _ (show Field.modUnmappedCount ∉ timeFields by decide),
    before _ (show Field.modUnmappedSource ∉ timeFields by decide),
    before _ (show Field.modUnmappedWrite ∉ timeFields by decide),
    before _ (show Field.modUnmappedOffset ∉ timeFields by decide)] at count first later
  simp only [noted, after]
  exact ⟨flag, count, first, later, ((hs.mono (by decide) (List.Subset.refl _)).trans frame).trans
    (ht.mono (List.nil_subset _) (List.Subset.refl _))⟩

/-- A value below the width's bound is held as it is. -/
theorem Field.fit_of_lt {f : Field} {v : Nat} (h : v < 2 ^ f.spec.width) : f.fit v = v := by
  unfold Field.fit
  split
  · rfl
  · exact Nat.mod_eq_of_lt h

section
variable (s : State) (who a : Nat) (store : Bool)

theorem State.unmapped_only : s.unmapped who a store =
    { s with regs := (s.unmapped who a store).regs, prev := (s.unmapped who a store).prev } := by
  unfold State.unmapped
  dsimp only
  split
  · exact State.bump_only ..
  · rw [State.wrAll_only, State.bump_only]

theorem State.unmapped_noted (hw : who ≤ 16) (ha : a < ctlSize) : noted s who a store (s.unmapped who a store) := by
  have offset : Field.modUnmappedOffset.fit a = a := Field.fit_of_lt ha
  have source : Field.modUnmappedSource.fit who = who := Field.fit_of_lt (show who < 32 by omega)
  have kind : Field.modUnmappedWrite.fit (b2n store) = b2n store := by cases store <;> rfl
  have one : Field.modUnmappedUnmapped.fit 1 = 1 := rfl
  have counted : (s.bump .modUnmappedCount 0 0 1).rd .modUnmappedCount 0 0 =
      min 65535 (s.rd .modUnmappedCount 0 0 + 1) := State.rd_bump_same s .modUnmappedCount 0 0 1 (by decide)
  have others (f : Field) (h : Field.modUnmappedCount ≠ f) :
      (s.bump .modUnmappedCount 0 0 1).rd f 0 0 = s.rd f 0 0 :=
    State.rd_bump_ne _ _ _ _ _ _ _ _ h
  have moved : changes (.modUnmappedUnmapped :: .modUnmappedCount :: .modUnmappedSource :: .modUnmappedWrite ::
      .modUnmappedOffset :: timeFields) [.snaps, .out] s (s.bump .modUnmappedCount 0 0 1) :=
    (changes.refl s).bump _ _ _ _ (by decide)
  unfold State.unmapped
  dsimp only
  by_cases flag : s.rd .modUnmappedUnmapped 0 0 = 1
  · have set : (s.bump .modUnmappedCount 0 0 1).on .modUnmappedUnmapped 0 0 = true := by
      simp [State.on, others, flag]
    rw [if_pos set]
    exact ⟨(others _ (by decide)).trans flag, counted, fun h => absurd flag h,
      fun _ => ⟨others _ (by decide), others _ (by decide), others _ (by decide)⟩, moved⟩
  · have clear : ¬(s.bump .modUnmappedCount 0 0 1).on .modUnmappedUnmapped 0 0 = true := by
      simp [State.on, others, flag]
    rw [if_neg clear]
    refine ⟨?_, ?_, fun _ => ⟨?_, ?_, ?_⟩, fun h => absurd h flag, moved.wrAll _ (by simp)⟩
    all_goals simp [State.wrAll, State.rd_wr, counted, source, kind, offset, one]

/-- The state after a load that names no register: zero goes to the requester, whose snapshot ends. -/
def State.unmappedLoad (s : State) (who a : Nat) : State :=
  (({ s with snaps := s.snaps.del who } : State).unmapped who a false).send (.regValue who a 0)

theorem State.unmappedLoad_noted (hw : who ≤ 16) (ha : a < ctlSize) : noted s who a false (s.unmappedLoad who a) :=
  (State.unmapped_noted ({ s with snaps := s.snaps.del who } : State) who a false hw ha).frame
    ((changes.refl s).parts rfl fun q hq => by cases q <;> first | rfl | exact absurd (by decide) hq)
    ((changes.refl _).send _ (by decide))

theorem State.unmappedLoad_out : (s.unmappedLoad who a).out = .regValue who a 0 :: s.out := by
  unfold State.unmappedLoad
  rw [State.unmapped_only]
  rfl

theorem State.unmappedLoad_snaps : (s.unmappedLoad who a).snaps = s.snaps.del who := by
  unfold State.unmappedLoad
  rw [State.unmapped_only]
  rfl

variable {s who a}

theorem State.loadFor_unmapped {size : Nat} (hr : s.reach who a = []) (hf : formOk a size = true) :
    s.loadFor who a size = s.unmappedLoad who a := by
  simp [State.loadFor, State.ctlLoad, hr, hf, State.unmappedLoad]

theorem State.storeFor_unmapped {size : Nat} (v t : Nat) (hr : s.reach who a = []) (hf : formOk a size = true) :
    s.storeFor who a size v t = s.unmapped who a true := by
  simp [State.storeFor, State.ctlStore, hr, hf]

theorem ctlOk_of_le (hw : who ≤ 16) (ha : a < ctlSize) : ctlOk who a = true := by
  simp [ctlOk, hw, ha]

end

/-- What a command that makes an unmapped access comes to. -/
theorem unmappedAccesses_runs {c : Instr} {s : State} {who a size value u : Nat} {store : Bool} (hw : who ≤ 16)
    (ha : a < ctlSize) (hr : s.reach who a = [])
    (hc : (c = .unmappedAccess who a store) ∨ (formOk a size = true ∧
      ((c = .snapshotRead who a size ∧ store = false) ∨ (c = .groupRead who a size ∧ store = false) ∨
        (c = .groupWrite who a size value u ∧ store = true) ∨
        (c = .registerWrite who a size value ∧ store = true)))) :
    Runs c s (if store then s.unmapped who a true else s.unmappedLoad who a) ∨
    store = true ∧ Runs c s ((s.stamp u).unmapped who a true) := by
  have ok := ctlOk_of_le hw ha
  obtain rfl | ⟨hf, ⟨rfl, rfl⟩ | ⟨rfl, rfl⟩ | ⟨rfl, rfl⟩ | ⟨rfl, rfl⟩⟩ := hc
  · left
    show execUnmappedAccess who a store s = _
    cases store <;> simp [execUnmappedAccess, ok, hr, State.unmappedLoad]
  · left
    show execSnapshotRead who a size s = _
    simp [execSnapshotRead, ok, State.loadFor_unmapped hr hf]
  · left
    show execGroupRead who a size s = _
    simp [execGroupRead, ok, State.loadFor_unmapped hr hf]
  · right
    refine ⟨rfl, ?_⟩
    show execGroupWrite who a size value u s = _
    simp [execGroupWrite, ok, State.storeFor_unmapped _ _ ((s.reach_stamp u who a).trans hr) hf]
  · left
    show execRegisterWrite who a size value s = _
    simp [execRegisterWrite, ok, State.storeFor_unmapped _ _ hr hf]

/-- Settles O57: each of the five commands comes to `State.unmapped`, after the stamp of GROUP_WRITE and beside the
answer of a load. -/
theorem unmappedAccesses : Obligations.UnmappedAccesses := by
  intro s who a size value u hw ha
  refine ⟨fun hr c store hc => ?_, fun hr store => ?_⟩
  · obtain run | ⟨rfl, run⟩ := unmappedAccesses_runs hw ha hr hc
    · cases store
      · exact ⟨_, run, s.unmappedLoad_noted who a hw ha,
          fun _ => ⟨s.unmappedLoad_out who a, s.unmappedLoad_snaps who a⟩, nofun⟩
      · exact ⟨_, run, s.unmapped_noted who a true hw ha, nofun, fun _ => by
          rw [if_pos rfl, State.unmapped_only]; exact ⟨rfl, rfl⟩⟩
    · refine ⟨_, run, ?_, nofun, fun _ => ?_⟩
      · exact (State.unmapped_noted _ who a true hw ha).frame
          ((changes.refl s).stamp u (List.Subset.refl _)) (changes.refl _)
      · rw [State.unmapped_only, State.stamp_only]; exact ⟨rfl, rfl⟩
  · show execUnmappedAccess who a store s = _
    simp [execUnmappedAccess, ctlOk_of_le hw ha, hr]

/-! ### What a store does: the bits that an event set in the cycle before (R13) -/

/-- A state whose unmapped-access flag is set, and whose record of the galley cycle before holds 3 for that one-bit
field. -/
def oddPrevState : State :=
  { State.reset with
    regs := [(⟨.modUnmappedUnmapped, 0, 0⟩, 1)]
    prev := [(⟨.modUnmappedUnmapped, 0, 0⟩, 3)] }

/-- A store of bit 63 to MOD_UNMAPPED clears the flag there: the store looks at bit 0 of the record alone (R13). -/
theorem oddPrevState_store_clears {t : State} (h : Runs (.registerWrite 0 0x18 8 (2 ^ 63)) oddPrevState t) :
    t.rd .modUnmappedUnmapped 0 0 = 0 := by
  have run : execRegisterWrite 0 0x18 8 (2 ^ 63) oddPrevState = .next t := h
  rw [execRegisterWrite, if_pos (by decide)] at run
  obtain rfl := Host.Outcome.next.inj run
  decide +kernel

/-- Refutes O59: the clause on MOD_UNMAPPED speaks of every state, and neither a hypothesis nor the invariant bounds
the record of the galley cycle before (`prev`). Where it holds 3 for the one-bit flag, the clause says that a store of
bit 63 leaves the flag set, since 3 is not 1; the store, which looks at bit 0 of the record, clears it. -/
theorem not_registerAccesses : ¬ Obligations.RegisterAccesses := by
  unfold Obligations.RegisterAccesses
  intro h
  obtain ⟨-, -, -, -, -, ⟨t, run, flag, -⟩, -⟩ := h oddPrevState 0 0 8 (2 ^ 63) 0 (by decide) (by decide)
  have stays : t.rd .modUnmappedUnmapped 0 0 = 1 := flag (by decide)
  have clears := oddPrevState_store_clears run
  omega

/-! ## Values at reset -/

/-- At reset every number reads as its reset value. -/
theorem State.rd_reset (f : Field) (i j : Nat) : State.reset.rd f i j = f.spec.reset := rfl

/-- What a read shows of a field at reset. -/
def Field.shownAtReset (f : Field) : Nat := if f.spec.acc = .wo then 0 else f.spec.reset

theorem State.ringState_reset (k r : Nat) : State.reset.ringState k r = 0 := rfl

theorem State.irqLevels_reset : State.reset.irqLevels = 0 := by decide

theorem State.fibreLevel_reset (k f : Nat) : State.reset.fibreLevel k f = 0 := by
  unfold State.fibreLevel; split <;> rfl

theorem State.bankMask_reset (n : Nat) : State.reset.bankMask n = 0 := by
  have unset (j : Nat) : bit (State.reset.rd .hLsuSel 0 n) j = false := by
    have zero : State.reset.rd .hLsuSel 0 n = 0 := rfl
    simp [zero, bit]
  simp [State.bankMask, unset]

theorem State.pwrState_reset : State.reset.pwrState = 0 := rfl

theorem State.shown_reset (who : Nat) (f : Field) (i j : Nat) : State.reset.shown who f i j = f.shownAtReset := by
  unfold State.shown Field.shownAtReset
  split
  · rfl
  · split
    · rfl
    · exact State.irqLevels_reset
    · exact State.ringState_reset i j
    · exact State.fibreLevel_reset i j
    · exact State.bankMask_reset j
    · rfl
    · exact State.pwrState_reset
    · rfl
    · rfl
    · rfl
    · rfl

/-- Value of a register at reset, from the table alone. -/
theorem State.regVal_reset (who : Nat) (h : Hit) (hr : h.reg ≠ .prsIstore) :
    State.reset.regVal who h = (h.reg.info.slots.map fun x => x.field.shownAtReset * 2 ^ x.lo).sum := by
  simp only [State.regVal, if_neg hr, State.shown_reset]

/-- Settles O60: what a read shows at reset follows from the table of fields, register by register. -/
theorem resetValues : Obligations.ResetValues := by
  intro r inst elem who hr
  rw [State.regVal_reset _ _ hr]
  cases r <;> rfl

end Sys2Proof.Machine

/-!
# Links: VC1 requests and their answers

What a link end does with an answer to one of its outstanding requests, and the message that a guest gets of it.
-/

namespace Sys2Proof.Machine

/-! ## The head of a VC1 payload (R298) -/

@[simp] theorem length_natLe (n x : Nat) : (natLe n x).length = n := by
  induction n generalizing x with
  | zero => rfl
  | succ n ih => simp [natLe, ih]

/-- The head takes 16 bytes; the data follow. -/
theorem length_vc1Bytes (op sectors tag module code chase target : Nat) (galley : Bool) (addr : Nat)
    (data : List Byte) :
    (vc1Bytes op sectors tag module code chase target galley addr data).length = 16 + data.length := by
  simp only [vc1Bytes, List.length_append, length_natLe]

/-- A message with its head is longer than its data. -/
theorem vc1Bytes_ne_data (op sectors tag module code chase target : Nat) (galley : Bool) (addr : Nat)
    (data : List Byte) : vc1Bytes op sectors tag module code chase target galley addr data ≠ data := fun h => by
  have := congrArg List.length h
  rw [length_vc1Bytes] at this
  omega

/-! ## The answer to an outstanding request -/

/-- The state of an end whose outstanding request r is no longer outstanding. -/
def State.dropVc1 (s : State) (n : Nat) (r : VcOut) : State :=
  s.setLink n { s.link n with vc1Out := (s.link n).vc1Out.erase r }

@[simp] theorem State.dropVc1_out (s : State) (n : Nat) (r : VcOut) : (s.dropVc1 n r).out = s.out := rfl

/-- DONE to an outstanding request: the request is dropped, and its access answered. -/
theorem runs_vc1Done {s : State} {n tag : Nat} {r : VcOut} (hn : n < linkEnds)
    (hr : (s.link n).vc1Out.find? (fun r => r.tag = tag) = some r) :
    Runs (.vc1Done n tag) s ((s.dropVc1 n r).answerDone r.acc []) := by
  show s.vc1Answered n tag 0x82 [] = _
  simp [State.vc1Answered, hn, hr, State.dropVc1]

/-- The guest's message carries the head of R298 before the data (R344). -/
theorem State.answerDone_guest_out (s : State) {a : Access} {g : Nat} {q : VcReq} (data : List Byte)
    (ha : a.who = .guest g q) :
    let op := if a.data.isSome then 0x82 else 0x81
    (s.answerDone a data).out =
      .guest g op q.tag (vc1Bytes op q.sectors q.tag 0 14 g g q.galley q.addr data) :: s.out := by
  simp only [State.answerDone, ha]
  rfl

/-- The message to a guest is never the bare data of its answer. -/
theorem vc1Done_guest_out_ne {s t : State} {n tag g : Nat} {r : VcOut} {q : VcReq} (hn : n < linkEnds)
    (hr : (s.link n).vc1Out.find? (fun r => r.tag = tag) = some r) (hg : r.acc.who = .guest g q)
    (run : Runs (.vc1Done n tag) s t) (op : Nat) : t.out ≠ .guest g op q.tag [] :: s.out := by
  obtain rfl : _ = t := Host.Outcome.next.inj ((runs_vc1Done hn hr).symm.trans run)
  rw [State.answerDone_guest_out _ _ hg, State.dropVc1_out]
  intro h
  obtain ⟨-, -, -, bytes⟩ := Out.guest.inj (List.cons.inj h).1
  exact vc1Bytes_ne_data _ _ _ _ _ _ _ _ _ _ bytes

/-! ## A guest's WRITE that waits at a ring end -/

/-- A guest of chase 0 writes one sector of the galley of chase 1, with tag 5. -/
def guestWriteReq : VcReq := ⟨1, 5, 0, 9, 0, 1, true, 0, ⟨[], false⟩⟩

/-- That request as it waits on the ring for its answer. -/
def guestWriteOut : VcOut := ⟨5, ⟨1, true, 0, 64, some (List.replicate 64 0), ⟨[], false⟩, .guest 0 guestWriteReq⟩⟩

/-- The state at reset, but that the request waits at the end by which chase 0 reaches chase 1. -/
def guestWriteState : State := State.reset.setLink (ringEnd 0 1) { Link.init with vc1Out := [guestWriteOut] }

/-- Refutes O36: to a guest's request the statement has the message carry the data of the answer alone, while the
message of the model carries the 16-byte head of R298 too, as R344 says. A guest's WRITE that waits at a link end
and is answered with DONE shows it: the guest gets 16 bytes, where the statement gives it none. (No command of the
model leaves a guest's request waiting at a link end, but the statement speaks of every state.) -/
theorem not_remoteAccesses : ¬ Obligations.RemoteAccesses := by
  unfold Obligations.RemoteAccesses
  intro h
  have inRange : ringEnd 0 1 < linkEnds := by decide
  have waits : (guestWriteState.link (ringEnd 0 1)).vc1Out.find? (fun r => r.tag = 5) = some guestWriteOut := by
    decide
  obtain ⟨-, answers⟩ := h guestWriteState (ringEnd 0 1) inRange
  obtain ⟨-, ⟨t, run, ⟨-, -, -, -, guest, -⟩, -⟩, -⟩ := (answers 5 []).2 guestWriteOut waits
  exact vc1Done_guest_out_ne inRange waits rfl run _ (guest 0 guestWriteReq rfl)

end Sys2Proof.Machine

/-!
# Numerics: the finisher, the case and the array

What the instructions of the finisher and of the array make of lanes, masks, lines of the case and rows: the numeric
events first, then the end of an instruction of a unit, then each family of instructions.
-/

namespace Sys2Proof.Machine

/-! ## The numeric events and the flags that show them (R68) -/

/-- The sticky fields that events raise. No field of a press shows the event `overflow`. -/
def NumFlags.fields (fl : NumFlags) : List Field :=
  List.flatten [if fl.nanIn then [.finNumFlagsNanIn] else [], if fl.nanMade then [.finNumFlagsNanMade] else [],
    if fl.navBlock then [.finNumFlagsNavBlock] else [], if fl.a56Overflow then [.finNumFlagsA56Overflow] else [],
    if fl.saturated then [.finNumFlagsSaturated] else [], if fl.underflow then [.finNumFlagsUnderflow] else [],
    if fl.bf16Truncated then [.finNumFlagsBf16Truncated] else []]

theorem NumFlags.mem_fields (fl : NumFlags) (g : Field) :
    g ∈ fl.fields ↔ (fl.nanIn = true ∧ g = .finNumFlagsNanIn) ∨ (fl.nanMade = true ∧ g = .finNumFlagsNanMade) ∨
      (fl.navBlock = true ∧ g = .finNumFlagsNavBlock) ∨ (fl.a56Overflow = true ∧ g = .finNumFlagsA56Overflow) ∨
      (fl.saturated = true ∧ g = .finNumFlagsSaturated) ∨ (fl.underflow = true ∧ g = .finNumFlagsUnderflow) ∨
      (fl.bf16Truncated = true ∧ g = .finNumFlagsBf16Truncated) := by
  simp [NumFlags.fields]

theorem NumFlags.fields_subset (fl : NumFlags) : fl.fields ⊆ finFields := by
  intro g hg
  rw [NumFlags.mem_fields] at hg
  obtain ⟨-, rfl⟩ | ⟨-, rfl⟩ | ⟨-, rfl⟩ | ⟨-, rfl⟩ | ⟨-, rfl⟩ | ⟨-, rfl⟩ | ⟨-, rfl⟩ := hg <;> decide

@[simp] theorem NumFlags.fields_none : NumFlags.none.fields = [] := rfl

theorem NumFlags.mem_fields_or (a b : NumFlags) (g : Field) :
    g ∈ (a.or b).fields ↔ g ∈ a.fields ∨ g ∈ b.fields := by
  simp only [NumFlags.mem_fields, NumFlags.or, Bool.or_eq_true, or_and_right]
  rw [iff_iff_eq]
  ac_rfl

theorem NumFlags.mem_fields_foldl (l : List NumFlags) (a : NumFlags) (g : Field) :
    g ∈ (l.foldl NumFlags.or a).fields ↔ g ∈ a.fields ∨ ∃ fl ∈ l, g ∈ fl.fields := by
  induction l generalizing a with
  | nil => simp
  | cons b l ih => simp [ih, NumFlags.mem_fields_or, or_assoc]

/-- A list of events raises what one of them raises. -/
theorem NumFlags.mem_fields_orAll (l : List NumFlags) (g : Field) :
    g ∈ (NumFlags.orAll l).fields ↔ ∃ fl ∈ l, g ∈ fl.fields := by
  simp [NumFlags.orAll, NumFlags.mem_fields_foldl]

theorem State.each_append {α : Type} (s : State) (l m : List α) (f : State → α → State) :
    s.each (l ++ m) f = (s.each l f).each m f := List.foldl_append ..

theorem State.each_cons {α : Type} (s : State) (a : α) (l : List α) (f : State → α → State) :
    s.each (a :: l) f = (f s a).each l f := rfl

theorem State.each_nil {α : Type} (s : State) (f : State → α → State) : s.each [] f = s := rfl

theorem State.each_ite_singleton {α : Type} (s : State) (b : Bool) (x : α) (f : State → α → State) :
    s.each (if b then [x] else []) f = if b then f s x else s := by cases b <;> rfl

/-- Flags raised: 1 is written to each field that the events raise. -/
theorem State.finFlags_eq (s : State) (p : Nat) (fl : NumFlags) :
    s.finFlags p fl = s.each fl.fields fun s g => s.wr g p 0 1 := by
  simp only [NumFlags.fields, List.flatten_cons, List.flatten_nil, State.each_append, State.each_ite_singleton]
  rfl

@[simp] theorem State.finFlags_none (s : State) (p : Nat) : s.finFlags p .none = s := rfl

theorem State.finFlags_only (s : State) (p : Nat) (fl : NumFlags) :
    s.finFlags p fl = { s with regs := (s.finFlags p fl).regs, prev := (s.finFlags p fl).prev } := by
  rw [State.finFlags_eq]
  exact State.each_only _ _ (fun _ _ => rfl) s

@[simp] theorem State.finFlags_press (s : State) (p q : Nat) (fl : NumFlags) :
    (s.finFlags p fl).press q = s.press q := by rw [State.finFlags_only]; rfl

theorem fit_one_of_mem_finFields {g : Field} (h : g ∈ finFields) : g.fit 1 = 1 := by
  revert g; decide

theorem State.each_wr_one_rd (s : State) (p : Nat) (l : List Field) (hl : l ⊆ finFields) (g : Field) :
    (s.each l fun s g => s.wr g p 0 1).rd g p 0 = if g ∈ l then 1 else s.rd g p 0 := by
  induction l generalizing s with
  | nil => rfl
  | cons f l ih =>
    obtain ⟨hf, hl⟩ := List.cons_subset.mp hl
    rw [State.each_cons, ih _ hl, State.rd_wr]
    by_cases hg : f = g
    · subst hg; simp [fit_one_of_mem_finFields hf]
    · simp [hg, Ne.symm hg]

/-- A flag after events: 1 where they raise it, else as it was (R68). -/
theorem State.finFlags_rd (s : State) (p : Nat) (fl : NumFlags) (g : Field) :
    (s.finFlags p fl).rd g p 0 = if g ∈ fl.fields then 1 else s.rd g p 0 := by
  rw [State.finFlags_eq]
  exact State.each_wr_one_rd s p _ fl.fields_subset g

theorem State.finFlags_rd_ne (s : State) (p : Nat) (fl : NumFlags) (g : Field) (i j : Nat) (hg : g ∉ finFields) :
    (s.finFlags p fl).rd g i j = s.rd g i j := by
  rw [State.finFlags_eq]
  have h : ∀ f ∈ fl.fields, f ≠ g := fun f hf e => hg (e ▸ fl.fields_subset hf)
  revert h
  generalize fl.fields = l
  induction l generalizing s with
  | nil => exact fun _ => rfl
  | cons f l ih =>
    intro h
    exact (ih _ fun x hx => h x (List.mem_cons_of_mem _ hx)).trans
      (State.rd_wr_ne _ _ _ _ _ _ _ _ (h f (List.mem_cons_self ..)))

theorem changes.finFlags {fs : List Field} {ps : List Part} {s t : State} (p : Nat) (fl : NumFlags)
    (hf : fl.fields ⊆ fs) (h : changes fs ps s t) : changes fs ps s (t.finFlags p fl) := by
  rw [State.finFlags_eq]
  revert hf
  generalize fl.fields = l
  induction l generalizing t with
  | nil => exact fun _ => h
  | cons f l ih =>
    intro hf
    obtain ⟨hf, hl⟩ := List.cons_subset.mp hf
    exact ih (h.wr f p 0 1 hf) hl

/-! ## Words of the case read with a corrected error (R97, R441) -/

/-- The fields that a place's turning suspect can move: those of the repair map. -/
def suspectFields : List Field :=
  [.prfMapPendingDropped, .prfMapUnwritten, .hMapFirstTick, .prfResultEntries, .prfMapPending]

/-- The parts that a corrected word can move. -/
def ceParts : List Part := [.ceLog, .repairMap, .freeCount]

section
variable {fs : List Field} {ps : List Part} {s t : State}

theorem changes.mapFields (hf : suspectFields ⊆ fs) (h : changes fs ps s t) : changes fs ps s t.mapFields :=
  (h.wr _ _ _ _ (hf (by decide))).wr _ _ _ _ (hf (by decide))

theorem changes.addEntry (e : MapEntry) (hf : suspectFields ⊆ fs) (hp : ceParts ⊆ ps) (h : changes fs ps s t) :
    changes fs ps s (t.addEntry e) := by
  unfold State.addEntry
  refine changes.mapFields hf
    (changes.bump _ _ _ _ (hf (by decide)) (changes.parts (t := if _ then _ else _) ?_ rfl ?_))
  · exact changes.ite (fun _ => h.wr _ _ _ _ (hf (by decide))) fun _ => h
  · intro q hq
    cases q <;> first | rfl | exact absurd (hp (by decide)) hq

theorem changes.suspect (type unit place word : Nat) (hf : suspectFields ⊆ fs) (hp : ceParts ⊆ ps)
    (h : changes fs ps s t) : changes fs ps s (t.suspect type unit place word) := by
  unfold State.suspect
  have free {u : State} (w : Nat) (hu : changes fs ps s u) : changes fs ps s (u.free w).2 := hu.free w (hp (by decide))
  exact changes.ite (fun _ => h) fun _ =>
    changes.ite (fun _ => h.wr _ _ _ _ (hf (by decide))) fun _ => (free 8 (free 8 h)).addEntry _ hf hp

theorem changes.ceSeen (e : CeEntry) (place word : Nat) (hf : suspectFields ⊆ fs) (hp : ceParts ⊆ ps)
    (h : changes fs ps s t) : changes fs ps s (t.ceSeen e place word) := by
  unfold State.ceSeen
  have kept : ∀ l, changes fs ps s { t with ceLog := l } := fun l =>
    h.parts rfl fun q hq => by cases q <;> first | rfl | exact absurd (hp (by decide)) hq
  exact changes.ite (fun _ => (kept _).suspect _ _ _ _ hf hp) fun _ => kept _

theorem changes.caseCe (p word : Nat) (hf : ceFields ⊆ fs) (hp : ceParts ⊆ ps) (h : changes fs ps s t) :
    changes fs ps s (t.caseCe p word) := by
  unfold State.caseCe
  have addr := changes.ite (c := t.on .caseEccStatusUe p 0 = true) (fun _ => h) fun _ =>
    h.wr .caseEccStatusWordAddr p 0 word (hf (by decide))
  exact ((addr.wr _ _ _ _ (hf (by decide))).bump _ _ _ _ (hf (by decide))).ceSeen _ _ _
    (List.Subset.trans (by decide) hf) hp

theorem changes.caseCes (p : Nat) (ws : List Nat) (hf : ceFields ⊆ fs) (hp : ceParts ⊆ ps) (h : changes fs ps s t) :
    changes fs ps s (t.caseCes p ws) := by
  unfold State.caseCes
  have each := h.each ws (fun s w => s.caseCe p w) fun x w hx => hx.caseCe p w hf hp
  dsimp only
  split
  · exact each
  · exact changes.ite (fun _ => each) fun _ => each.wr _ _ _ _ (hf (by decide))

end

@[simp] theorem State.caseCes_nil (s : State) (p : Nat) : s.caseCes p [] = s := rfl

theorem State.caseCes_changes (s : State) (p : Nat) (ws : List Nat) : changes ceFields ceParts s (s.caseCes p ws) :=
  (changes.refl s).caseCes p ws (List.Subset.refl _) (List.Subset.refl _)

@[simp] theorem State.caseCes_press (s : State) (p q : Nat) (ws : List Nat) :
    (s.caseCes p ws).press q = s.press q := by
  have h : (s.caseCes p ws).presses = s.presses := (s.caseCes_changes p ws).2 .presses (by decide)
  unfold State.press
  rw [h]

theorem State.caseCes_rd (s : State) (p : Nat) (ws : List Nat) (g : Field) (i j : Nat) (hg : g ∉ ceFields) :
    (s.caseCes p ws).rd g i j = s.rd g i j := (s.caseCes_changes p ws).1 g i j hg

/-- A corrected word sets ce and counts, up to the field's largest value. -/
theorem State.caseCe_rd (s : State) (p word : Nat) :
    (s.caseCe p word).rd .caseEccStatusCe p 0 = 1 ∧
      (s.caseCe p word).rd .caseCeCountCount p 0 = min (2 ^ 32 - 1) (s.rd .caseCeCountCount p 0 + 1) := by
  have seen (t : State) (e : CeEntry) (place w : Nat) :=
    (changes.refl t).ceSeen e place w (List.Subset.refl suspectFields) (List.Subset.refl ceParts)
  unfold State.caseCe
  constructor
  · rw [(seen _ _ _ _).1 _ _ _ (by decide), State.rd_bump_ne _ _ _ _ _ _ _ _ (by decide), State.rd_wr_same]
    decide
  · rw [(seen _ _ _ _).1 _ _ _ (by decide), State.rd_bump_same _ _ _ _ _ (by decide),
      State.rd_wr_ne _ _ _ _ _ _ _ _ (by decide)]
    split
    · rfl
    · rw [State.rd_wr_ne _ _ _ _ _ _ _ _ (by decide)]
      rfl

/-- Corrected words set ce, and each of them counts, up to the field's largest value. -/
theorem State.each_caseCe_rd (s : State) (p w : Nat) (ws : List Nat) :
    (s.each (w :: ws) fun s w => s.caseCe p w).rd .caseEccStatusCe p 0 = 1 ∧
      (s.each (w :: ws) fun s w => s.caseCe p w).rd .caseCeCountCount p 0 =
        min (2 ^ 32 - 1) (s.rd .caseCeCountCount p 0 + (w :: ws).length) := by
  induction ws generalizing s w with
  | nil =>
    rw [State.each_cons, State.each_nil]
    exact s.caseCe_rd p w
  | cons v l ih =>
    obtain ⟨flag, count⟩ := ih (s.caseCe p w) v
    rw [State.each_cons]
    refine ⟨flag, ?_⟩
    rw [count, (s.caseCe_rd p w).2]
    simp only [List.length_cons]
    omega

theorem State.caseCes_cons_rd (s : State) (p w : Nat) (ws : List Nat) :
    (s.caseCes p (w :: ws)).rd .caseEccStatusCe p 0 = 1 ∧
      (s.caseCes p (w :: ws)).rd .caseCeCountCount p 0 =
        min (2 ^ 32 - 1) (s.rd .caseCeCountCount p 0 + (w :: ws).length) := by
  have addr (g : Field) (hg : Field.caseEccStatusWordAddr ≠ g) :
      (s.caseCes p (w :: ws)).rd g p 0 = (s.each (w :: ws) fun s w => s.caseCe p w).rd g p 0 := by
    unfold State.caseCes
    dsimp only
    split
    · rfl
    · split
      · rfl
      · exact State.rd_wr_ne _ _ _ _ _ _ _ _ hg
  rw [addr _ (by decide), addr _ (by decide)]
  exact s.each_caseCe_rd p w ws

/-! ## The end of an instruction of a unit -/

section
variable {fs : List Field} {ps : List Part} {p : Nat} {s t u : State}

/-- A change of numbers and parts beside the presses. -/
theorem onlyPress.and_changes (h : onlyPress fs ps p s t) (hp : .presses ∉ ps) (h' : changes fs ps t u) :
    onlyPress fs ps p s u := by
  have presses : u.presses = t.presses := h'.2 .presses hp
  refine ⟨h.1.trans (h'.mono (List.Subset.refl _) (List.subset_cons_self ..)), fun q hq => ?_⟩
  rw [← h.2 q hq]
  unfold State.press
  rw [presses]

theorem onlyPress.finFlags (h : onlyPress fs ps p s t) (hp : .presses ∉ ps) (fl : NumFlags) (hf : fl.fields ⊆ fs) :
    onlyPress fs ps p s (t.finFlags p fl) := h.and_changes hp ((changes.refl t).finFlags p fl hf)

theorem onlyPress.caseCes (h : onlyPress fs ps p s t) (hp : .presses ∉ ps) (ws : List Nat)
    (hw : ws = [] ∨ (ceFields ⊆ fs ∧ ceParts ⊆ ps)) : onlyPress fs ps p s (t.caseCes p ws) := by
  obtain rfl | ⟨hf, hq⟩ := hw
  · exact h
  · exact h.and_changes hp ((t.caseCes_changes p ws).mono hf hq)

/-- An issue moves the reason of a hold, and its press, alone. -/
theorem State.issued_hold_only (s : State) (p : Nat) (k : Tok) (n : Nat) :
    onlyPress [.prsSeqStatusHold] [] p s (s.issued p k n) :=
  ⟨⟨fun g i j hg => State.issued_rd _ _ _ _ _ _ _ (by simpa using hg), (s.issued_only p k n).1.2⟩,
    fun _ hq => State.issued_other _ _ _ _ _ hq⟩

/-- The counts of cycles that an instruction of the array or the finisher raises are neither the sequencer's
fields, nor flags, nor counts of corrected words. -/
theorem not_mem_of_arrWaits {ws : List Field} (hw : ws ⊆ arrWaits) {g : Field}
    (hg : g ∈ seqFields ++ finFields ++ ceFields) : g ∉ ws := fun h =>
  absurd (hw h) ((by decide : ∀ g ∈ seqFields ++ finFields ++ ceFields, g ∉ arrWaits) g hg)

/-- What an instruction counts and how it moves on leave a flag, or a count of corrected words, as it was. -/
theorem State.advance_stalled_rd (t : State) (p : Nat) {ws : List Field} (hw : ws ⊆ arrWaits) {g : Field}
    (hg : g ∈ finFields ++ ceFields) (i j : Nat) : ((t.stalled p ws).advance p).rd g i j = t.rd g i j := by
  rw [State.advance_rd _ _ _ _ _ ((by decide : ∀ g ∈ finFields ++ ceFields, g ≠ .prsSeqStatusPc) g hg),
    State.stalled_rd _ _ _ _ _ _ (not_mem_of_arrWaits hw (by simp only [List.mem_append] at hg ⊢; tauto))]

/-- An instruction whose effect is the state w, with its flags gs, and then the corrected words ce, runs to its end,
and counts those words (R97, R107). -/
theorem pressEnds_counted (c : Instr) (w : State) (x : Press) (gs : List Field) (ce : List Nat) (ws : List Field)
    (Q : State → Prop) (hc : exec c s = .next (((w.caseCes p ce).stalled p ws).advance p)) (hx : w.press p = x)
    (hh : w.rd .prsSeqStatusHold p 0 = 0) (ho : onlyPress (.prsSeqStatusHold :: gs) ps p s w) (hg : gs ⊆ finFields)
    (hgs : gs ⊆ fs) (hws : ws ⊆ fs) (hw : ws ⊆ arrWaits) (hp : .presses ∉ ps) (hn : .freeCount ∈ ps)
    (hce : ce = [] ∨ (ceFields ⊆ fs ∧ ceParts ⊆ ps))
    (hQ : ∀ t, t.press p = movedOn s p x → (∀ g ∈ finFields, t.rd g p 0 = w.rd g p 0) →
      onlyPress (seqFields ++ fs) ps p s t → (ce = [] → t.rd .caseCeCountCount p 0 = s.rd .caseCeCountCount p 0) →
      (∀ v l, ce = v :: l → t.rd .caseEccStatusCe p 0 = 1 ∧
        t.rd .caseCeCountCount p 0 = min (2 ^ 32 - 1) (s.rd .caseCeCountCount p 0 + (v :: l).length)) → Q t) :
    pressEnds c fs ps p s x Q := by
  have kept (g : Field) (hold : g ≠ .prsSeqStatusHold) (flag : g ∉ finFields) : w.rd g p 0 = s.rd g p 0 :=
    ho.1.1 g p 0 fun h => (List.mem_cons.mp h).elim hold fun h => flag (hg h)
  have wait (g : Field) (hg : g ∈ seqFields) (t : State) : (t.stalled p ws).rd g p 0 = t.rd g p 0 :=
    State.stalled_rd _ _ _ _ _ _ (not_mem_of_arrWaits hw (List.mem_append_left _ (List.mem_append_left _ hg)))
  have pc : ((w.caseCes p ce).stalled p ws).rd .prsSeqStatusPc p 0 = s.rd .prsSeqStatusPc p 0 := by
    rw [wait _ (by decide), State.caseCes_rd _ _ _ _ _ _ (by decide), kept _ (by decide) (by decide)]
  have right {l : List Field} (h : l ⊆ fs) : l ⊆ seqFields ++ fs := List.Subset.trans h (List.subset_append_right ..)
  have only : onlyPress (seqFields ++ fs) ps p s ((w.caseCes p ce).stalled p ws) :=
    (((ho.mono (List.cons_subset.mpr ⟨List.mem_append_left _ (by decide), right hgs⟩) (List.Subset.refl _)).caseCes
      hp ce (hce.imp_right fun h => ⟨right h.1, h.2⟩)).stalled ws (right hws) (.inr hn))
  have moved : onlyPress (seqFields ++ fs) ps p s (((w.caseCes p ce).stalled p ws).advance p) :=
    only.trans ((State.advance_only _ p).mono (List.subset_append_left ..) (List.nil_subset _))
  refine pressEnds_of c x Q _ hc (by simpa using hx) pc ?_ only
    (hQ _ ?_ (fun g hg => ?_) moved (fun h => ?_) fun v l h => ?_)
  · rw [wait _ (by decide), State.caseCes_rd _ _ _ _ _ _ (by decide), hh]
  · rw [State.advance_press, if_pos rfl, State.stalled_press, State.caseCes_press, hx]
    unfold movedOn
    rw [pc]
  · rw [State.advance_stalled_rd _ _ hw (List.mem_append_left _ hg),
      State.caseCes_rd _ _ _ _ _ _ ((by decide : ∀ g ∈ finFields, g ∉ ceFields) g hg)]
  · subst h
    rw [State.advance_stalled_rd _ _ hw (by decide), State.caseCes_nil, kept _ (by decide) (by decide)]
  · subst h
    rw [State.advance_stalled_rd _ _ hw (by decide), State.advance_stalled_rd _ _ hw (by decide),
      ← kept .caseCeCountCount (by decide) (by decide)]
    exact State.caseCes_cons_rd _ _ _ _

/-- The same where the effect is the press x and the events fl (R68). -/
theorem pressEnds_flagged (c : Instr) (k : Tok) (n : Nat) (x : Press) (fl : NumFlags) (ce : List Nat) (ws : List Field)
    (Q : State → Prop)
    (hc : exec c s =
      .next ((((((s.issued p k n).setPress p x).finFlags p fl).caseCes p ce).stalled p ws).advance p))
    (hfl : fl.fields ⊆ fs) (hws : ws ⊆ fs) (hw : ws ⊆ arrWaits) (hp : .presses ∉ ps) (hn : .freeCount ∈ ps)
    (hce : ce = [] ∨ (ceFields ⊆ fs ∧ ceParts ⊆ ps))
    (hQ : ∀ t, t.press p = movedOn s p x →
      (∀ g ∈ finFields, t.rd g p 0 = if g ∈ fl.fields then 1 else s.rd g p 0) →
      (∀ v l, ce = v :: l → t.rd .caseEccStatusCe p 0 = 1 ∧
        t.rd .caseCeCountCount p 0 = min (2 ^ 32 - 1) (s.rd .caseCeCountCount p 0 + (v :: l).length)) → Q t) :
    pressEnds c fs ps p s x Q := by
  refine pressEnds_counted c _ x fl.fields ce ws Q hc (by simp [State.press_setPress]) ?_ ?_ fl.fields_subset hfl hws hw
    hp hn hce fun t hx hf _ _ hn => hQ t hx (fun g hg => ?_) hn
  · rw [State.finFlags_rd_ne _ _ _ _ _ _ (by decide), State.rd_setPress, State.issued_hold]
  · exact ((s.issued_hold_only p k n).mono (by simp) (List.nil_subset _)).setPress x |>.finFlags hp fl (by simp)
  · rw [hf g hg, State.finFlags_rd, State.rd_setPress,
      State.issued_rd _ _ _ _ _ _ _ ((by decide : ∀ g ∈ finFields, g ≠ .prsSeqStatusHold) g hg)]

/-- The same of an instruction that reads the case, whatever words the reads find corrected (R97). -/
theorem pressReads_flagged (c : List Nat → Instr) (k : Tok) (n : Nat) (x : Press) (fl : NumFlags) (ws : List Field)
    (Q : State → Prop)
    (hc : ∀ ce, exec (c ce) s =
      .next ((((((s.issued p k n).setPress p x).finFlags p fl).caseCes p ce).stalled p ws).advance p))
    (hfl : fl.fields ⊆ fs) (hws : ws ⊆ fs) (hw : ws ⊆ arrWaits)
    (hQ : ∀ t, t.press p = movedOn s p x →
      (∀ g ∈ finFields, t.rd g p 0 = if g ∈ fl.fields then 1 else s.rd g p 0) → Q t) :
    pressReads c fs [.freeCount] p s x Q := by
  have right {l : List Field} (h : l ⊆ fs) : l ⊆ ceFields ++ fs := List.Subset.trans h (List.subset_append_right ..)
  constructor
  · exact pressEnds_flagged _ k n x fl [] ws Q (hc []) hfl hws hw (by decide) (by decide) (.inl rfl)
      fun t hx hf _ => hQ t hx hf
  · intro w ce
    exact pressEnds_flagged _ k n x fl (w :: ce) ws _ (hc _) (right hfl) (right hws) hw (by decide) (by decide)
      (.inr ⟨List.subset_append_left .., by decide⟩) fun t hx hf hn => ⟨hQ t hx hf, hn w ce rfl⟩

end

/-! ## A press after the issue of its instruction -/

section
variable (s : State) (p : Nat) (k : Tok) (u : Nat)

/-- An issue moves tokens and queues alone. -/
theorem entered_only : entered s p k u =
    { s.press p with tokens := (entered s p k u).tokens, queues := (entered s p k u).queues } := by
  rw [entered_eq]
  unfold Press.waitTok Press.signal
  by_cases hu : u = uSeq <;> cases k.wen <;> cases k.sen <;> simp [hu]

@[simp] theorem entered_caseMem : (entered s p k u).caseMem = (s.press p).caseMem := by rw [entered_only]
@[simp] theorem entered_vregs : (entered s p k u).vregs = (s.press p).vregs := by rw [entered_only]
@[simp] theorem entered_masks : (entered s p k u).masks = (s.press p).masks := by rw [entered_only]
@[simp] theorem entered_vreg (r : Nat) : (entered s p k u).vreg r = (s.press p).vreg r := by
  rw [entered_only]; rfl
@[simp] theorem entered_mask (m : Nat) : (entered s p k u).mask m = (s.press p).mask m := by
  rw [entered_only]; rfl
@[simp] theorem entered_srcB (f : FinF) : (entered s p k u).srcB f = (s.press p).srcB f := by
  rw [entered_only]; rfl
@[simp] theorem entered_laneOn (f : FinF) (n : Nat) : (entered s p k u).laneOn f n = (s.press p).laneOn f n := by
  rw [entered_only]; rfl
@[simp] theorem entered_addr (a : Nat) : (entered s p k u).addr a = (s.press p).addr a := by
  rw [entered_only]; rfl
@[simp] theorem entered_finLine (f : FinF) : (entered s p k u).finLine f = (s.press p).finLine f := by
  rw [entered_only]; rfl
@[simp] theorem entered_caseBytes (l n : Nat) : (entered s p k u).caseBytes l n = (s.press p).caseBytes l n := by
  rw [entered_only]; rfl
@[simp] theorem entered_stagingLine : (entered s p k u).stagingLine = (s.press p).stagingLine := by
  rw [entered_only]; rfl
@[simp] theorem entered_merge (f : FinF) (l : List Nat) :
    (entered s p k u).merge f l = (s.press p).merge f l := by rw [entered_only]; rfl
@[simp] theorem entered_lanes (f : FinF) (srcs : List (List Nat)) (op : List FVal → FVal) :
    (entered s p k u).lanes f srcs op = (s.press p).lanes f srcs op := by rw [entered_only]; rfl

end

/-! ## Lane operations (R64, R68, R132) -/

theorem getD_map_range {α : Type} (g : Nat → α) (d : α) {m n : Nat} (h : n < m) :
    ((List.range m).map g).getD n d = g n := by
  simp [List.getD_eq_getElem?_getD, h]

theorem merge_eq (x : Press) (f : FinF) (g : Nat → Nat) :
    x.merge f ((List.range 512).map g) =
      (List.range 512).map fun n => if x.laneOn f n then g n else (x.vreg f.vd).getD n 0 := by
  refine List.map_congr_left fun n hn => ?_
  rw [getD_map_range _ _ (List.mem_range.mp hn)]

/-- The events of one lane are the reading and the making of a NaN. -/
theorem mem_fields_laneFlags (vs : List FVal) (r : FVal) (g : Field) :
    g ∈ (laneFlags vs r).fields ↔ (vs.any FVal.isNaN = true ∧ g = .finNumFlagsNanIn) ∨
      ((r.isNaN && !vs.any FVal.isNaN) = true ∧ g = .finNumFlagsNanMade) := by
  simp [NumFlags.mem_fields, laneFlags, NumFlags.none]

/-- The events of the lanes from a list of 512: those of an enabled lane. -/
theorem mem_fields_lanes (x : Press) (f : FinF) (fl : Nat → NumFlags) (g : Field) :
    g ∈ (NumFlags.orAll ((List.range 512).map fun n => if x.laneOn f n then fl n else .none)).fields ↔
      ∃ n, n < 512 ∧ x.laneOn f n = true ∧ g ∈ (fl n).fields := by
  simp only [NumFlags.mem_fields_orAll, List.mem_map, List.mem_range, exists_exists_and_eq_and]
  refine exists_congr fun n => and_congr_right fun _ => ?_
  cases x.laneOn f n <;> simp

theorem lanes_eq (x : Press) (f : FinF) (srcs : List (List Nat)) (op : List FVal → FVal) :
    x.lanes f srcs op =
      ((List.range 512).map fun n => fp32Of (op (srcs.map fun l => fp32Val (l.getD n 0))),
        NumFlags.orAll ((List.range 512).map fun n =>
          if x.laneOn f n then laneFlags (srcs.map fun l => fp32Val (l.getD n 0))
            (op (srcs.map fun l => fp32Val (l.getD n 0))) else .none)) := by
  simp [Press.lanes, Function.comp_def]

theorem merge_lanes (x : Press) (f : FinF) (srcs : List (List Nat)) (op : List FVal → FVal) :
    x.merge f (x.lanes f srcs op).1 = (List.range 512).map (laneValue x f srcs op) := by
  rw [lanes_eq, merge_eq]
  rfl

theorem mem_fields_lanes_nanIn (x : Press) (f : FinF) (srcs : List (List Nat)) (op : List FVal → FVal) :
    .finNumFlagsNanIn ∈ (x.lanes f srcs op).2.fields ↔ ∃ n, n < 512 ∧ laneNan x f srcs n := by
  simp [lanes_eq, mem_fields_lanes, mem_fields_laneFlags, laneNan]

theorem mem_fields_lanes_nanMade (x : Press) (f : FinF) (srcs : List (List Nat)) (op : List FVal → FVal) :
    .finNumFlagsNanMade ∈ (x.lanes f srcs op).2.fields ↔ ∃ n, n < 512 ∧ laneMade x f srcs op n := by
  simp [lanes_eq, mem_fields_lanes, mem_fields_laneFlags, laneMade, and_comm]

theorem fields_lanes_subset (x : Press) (f : FinF) (srcs : List (List Nat)) (op : List FVal → FVal) :
    (x.lanes f srcs op).2.fields ⊆ [.finNumFlagsNanIn, .finNumFlagsNanMade] := by
  intro g hg
  simp only [lanes_eq, mem_fields_lanes, mem_fields_laneFlags] at hg
  obtain ⟨n, -, -, hg⟩ := hg
  obtain ⟨-, rfl⟩ | ⟨-, rfl⟩ := hg <;> decide

/-- A flag that the instruction sets to one where an event raises it. -/
theorem sticky_of_rd {s t : State} {p : Nat} {g : Field} {fl : NumFlags} {e : Prop}
    (h : t.rd g p 0 = if g ∈ fl.fields then 1 else s.rd g p 0) (he : g ∈ fl.fields ↔ e) : sticky g p s t e := by
  unfold sticky
  rw [h]
  by_cases raised : g ∈ fl.fields
  · simp [raised, he.mp raised]
  · simp [raised, mt he.mpr raised]

/-- A legal word that nothing holds runs: its effect, the cycles that it counts, and the sequencer's move (R107). -/
theorem dispatch_ok {s : State} {p u : Nat} {k : Tok} (h : canDispatch s p k u) {legal ready : Bool}
    {lines : List (Int × Nat)} (hl : legal = true) (hr : ready = true)
    (hn : (lines.all fun e => caseLineOk e.1 e.2) = true) (waits : List Field) (run : State → State) :
    s.dispatch p k u legal 0 ready lines waits run =
      .next (((run (s.issued p k u)).stalled p waits).advance p) := by
  subst hl hr
  exact State.dispatch_runs s p k u lines waits run h hn

theorem dispatch_fin {s : State} {p : Nat} {k : Tok} (h : canDispatch s p k uFin) {legal ready : Bool}
    (hl : legal = true) (hr : ready = true) (waits : List Field) (run : State → State) :
    s.dispatch p k uFin legal 0 ready [] waits run =
      .next (((run (s.issued p k uFin)).stalled p waits).advance p) := dispatch_ok h hl hr rfl waits run

/-- A press with a row written to vd and the rings popped that the word names (R130). -/
def Press.putRow (x : Press) (f : FinF) (row : List Nat) : Press := ({ x with vregs := x.vregs.put f.vd row }).pops f

/-- A result of an instruction just issued, merged under the mask into vd (R130, R132). -/
theorem finWrite_issued (s : State) (p : Nat) (k : Tok) (f : FinF) (res : List Nat × NumFlags) :
    (s.issued p k uFin).finWrite p f res =
      ((s.issued p k uFin).setPress p ((entered s p k uFin).putRow f ((s.press p).merge f res.1))).finFlags p
        res.2 := by
  rw [← entered_merge s p k uFin]
  rfl

/-- The sources of an operation, in order. -/
def finSrcs (o : FinOp) (x : Press) (f : FinF) : List (List Nat) :=
  (if o.use.va then [x.vreg f.va] else []) ++ (if o.use.vb then [x.srcB f] else []) ++
    (if o = .ffma then [x.vreg f.vc] else [])

/-- An operation on lanes runs to its end with its rounded results, its pops and its NaN flags. -/
theorem laneRuns_of_finOp {c : Instr} {s : State} {p : Nat} {k : Tok} {o : FinOp} {f : FinF} {op : List FVal → FVal}
    (hc : exec c s = s.finOp p k o f op) (hd : canDispatch s p k uFin) (hl : o.fieldOk f = true)
    (hr : (s.press p).finReady o.use.va o.use.vb (o.use.vc && o = .ffma) f = true) :
    laneRuns c p k f s (finSrcs o (s.press p) f) op := by
  have run : exec c s = .next ((((((s.issued p k uFin).setPress p ((entered s p k uFin).putRow f
      ((List.range 512).map (laneValue (s.press p) f (finSrcs o (s.press p) f) op)))).finFlags p
        ((s.press p).lanes f (finSrcs o (s.press p) f) op).2).caseCes p []).stalled p
          [.prsBusyCyclesBusy]).advance p) := by
    rw [hc, State.finOp, dispatch_fin hd hl hr, State.caseCes_nil]
    simp only [State.issued_press, entered_vreg, entered_srcB, entered_lanes, finWrite_issued]
    rw [← merge_lanes]
    rfl
  unfold laneRuns
  refine pressEnds_flagged c k uFin ((entered s p k uFin).putRow f _) ((s.press p).lanes f _ op).2 []
    [.prsBusyCyclesBusy] _ run
    (List.Subset.trans (fields_lanes_subset ..) (by decide)) (by decide)
    (by decide) (by decide) (by decide) (.inl rfl) fun t _ hf _ => ⟨?_, ?_⟩
  · exact sticky_of_rd (hf _ (by decide)) (mem_fields_lanes_nanIn ..)
  · exact sticky_of_rd (hf _ (by decide)) (mem_fields_lanes_nanMade ..)

/-- Settles O8: one rule for the operations on lanes, and each instruction's sources. -/
theorem laneArithmetic : Obligations.LaneArithmetic := by
  intro s p k f hd
  refine ⟨fun hr => ?_, fun hr hl => laneRuns_of_finOp (o := .ffma) rfl hd hl hr,
    fun hr hl => laneRuns_of_finOp (o := .mov) rfl hd hl hr, fun hr => ?_⟩
  · simp only [List.forall_mem_cons, List.not_mem_nil, false_implies, implies_true, and_true]
    exact ⟨fun hl => laneRuns_of_finOp (o := .add) rfl hd hl hr, fun hl => laneRuns_of_finOp (o := .sub) rfl hd hl hr,
      fun hl => laneRuns_of_finOp (o := .mul) rfl hd hl hr, fun hl => laneRuns_of_finOp (o := .min) rfl hd hl hr,
      fun hl => laneRuns_of_finOp (o := .max) rfl hd hl hr⟩
  · simp only [List.forall_mem_cons, List.not_mem_nil, false_implies, implies_true, and_true]
    exact ⟨fun hl => laneRuns_of_finOp (o := .rcp) rfl hd hl hr, fun hl => laneRuns_of_finOp (o := .rsq) rfl hd hl hr,
      fun hl => laneRuns_of_finOp (o := .exp) rfl hd hl hr, fun hl => laneRuns_of_finOp (o := .log) rfl hd hl hr⟩

/-! ## Pops of ring registers (R130) -/

/-- Ring rows written, and ring registers popped, move vector registers and the ring's own state alone. -/
theorem Press.settleFrom_only (x : Press) (n : Nat) :
    x.settleFrom n = { x with vregs := (x.settleFrom n).vregs, ringValid := (x.settleFrom n).ringValid,
                              drainQ := (x.settleFrom n).drainQ } := by
  induction n generalizing x with
  | zero => rfl
  | succ n ih =>
    unfold Press.settleFrom
    split
    · rfl
    · split
      · rfl
      · rw [ih]

theorem Press.pop_only (x : Press) (rs : List Nat) :
    x.pop rs = { x with vregs := (x.pop rs).vregs, ringValid := (x.pop rs).ringValid,
                        drainQ := (x.pop rs).drainQ } := by
  unfold Press.pop
  split
  · rfl
  · exact Press.settleFrom_only _ _

theorem Press.pops_only (x : Press) (f : FinF) :
    x.pops f = { x with vregs := (x.pops f).vregs, ringValid := (x.pops f).ringValid,
                        drainQ := (x.pops f).drainQ } := Press.pop_only _ _

@[simp] theorem Press.pops_caseMem (x : Press) (f : FinF) : (x.pops f).caseMem = x.caseMem := by rw [Press.pops_only]

@[simp] theorem Press.pops_mask (x : Press) (f : FinF) (m : Nat) : (x.pops f).mask m = x.mask m := by
  rw [Press.pops_only]; rfl

/-! ## Masks (R90, R132) -/

theorem bit_eq_testBit (x k : Nat) : bit x k = x.testBit k := Nat.testBit_eq_decide_div_mod_eq.symm

/-- The number whose bits below m are those of c. -/
def maskOf (c : Nat → Bool) (m : Nat) : Nat := (List.range m).foldl (fun a n => if c n then a + 2 ^ n else a) 0

theorem maskOf_succ (c : Nat → Bool) (m : Nat) : maskOf c (m + 1) = if c m then maskOf c m + 2 ^ m else maskOf c m := by
  simp [maskOf, List.range_succ]

theorem maskOf_lt (c : Nat → Bool) (m : Nat) : maskOf c m < 2 ^ m := by
  induction m with
  | zero => exact Nat.one_pos
  | succ m ih =>
    rw [maskOf_succ, Nat.pow_succ]
    split <;> omega

theorem bit_maskOf (c : Nat → Bool) (m n : Nat) : bit (maskOf c m) n = (decide (n < m) && c n) := by
  rw [bit_eq_testBit]
  induction m with
  | zero => simp [maskOf]
  | succ m ih =>
    rw [maskOf_succ]
    obtain h | rfl | h := Nat.lt_trichotomy n m
    · have below : n < m + 1 := by omega
      split
      · rw [Nat.add_comm, Nat.testBit_two_pow_add_gt h, ih]; simp [h, below]
      · rw [ih]; simp [h, below]
    · have clear := Nat.testBit_lt_two_pow (maskOf_lt c n)
      cases hc : c n
      · simpa [hc] using clear
      · simp only [if_pos]
        rw [Nat.add_comm, Nat.testBit_two_pow_add_eq, clear]
        simp
    · have beyond : maskOf c (m + 1) < 2 ^ n :=
        lt_of_lt_of_le (maskOf_lt c (m + 1)) (Nat.pow_le_pow_right (by decide) h)
      have no : ¬ n < m + 1 := by omega
      rw [← maskOf_succ, Nat.testBit_lt_two_pow beyond]
      simp [no]

/-- A press with the mask vd written and the rings popped that the word names (R130). -/
def Press.putMask (x : Press) (f : FinF) (m : Nat) : Press := ({ x with masks := x.masks.put f.vd m }).pops f

theorem Press.putMask_mask (x : Press) (f : FinF) (v m : Nat) :
    (x.putMask f v).mask m = if f.vd = m then v else x.mask m := by
  rw [Press.putMask, Press.pops_mask]
  exact SMap.getD_put ..

/-- Bits of a mask result: the new bit of an enabled lane, the old bit of another (R132). -/
def maskBit (x : Press) (f : FinF) (bits : Nat → Bool) (n : Nat) : Bool :=
  if x.laneOn f n then bits n else bit (x.mask f.vd) n

theorem maskWrite_issued (s : State) (p : Nat) (k : Tok) (f : FinF) (bits : Nat → Bool) (fl : NumFlags) :
    (s.issued p k uFin).maskWrite p f bits fl =
      ((s.issued p k uFin).setPress p ((entered s p k uFin).putMask f
        (maskOf (maskBit (s.press p) f bits) 512))).finFlags p fl := by
  have same : maskBit (entered s p k uFin) f bits = maskBit (s.press p) f bits := by
    funext n; simp [maskBit]
  rw [← same]
  rfl

/-- An instruction that writes a mask runs to its end: the bits of enabled lanes are new, and other bits and other
masks as before (R132). -/
theorem maskWrite_runs {c : Instr} {s : State} {p : Nat} {k : Tok} {f : FinF} {bits : Nat → Bool} {fl : NumFlags}
    {fs : List Field} (hfl : fl.fields ⊆ fs)
    (hc : exec c s =
      .next ((((s.issued p k uFin).maskWrite p f bits fl).stalled p [.prsBusyCyclesBusy]).advance p)) :
    ∃ t, Runs c s t ∧
      (∀ n, n < 512 → bit ((t.press p).mask f.vd) n = maskBit (s.press p) f bits n) ∧
      (∀ m, m ≠ f.vd → (t.press p).mask m = (s.press p).mask m) ∧
      onlyPress (.prsBusyCyclesBusy :: seqFields ++ fs) [.freeCount] p s t := by
  have ends : pressEnds c (.prsBusyCyclesBusy :: fs) [.freeCount] p s
      ((entered s p k uFin).putMask f (maskOf (maskBit (s.press p) f bits) 512)) fun _ => True := by
    refine pressEnds_flagged c k uFin _ fl [] [.prsBusyCyclesBusy] _ ?_ (List.subset_cons_of_subset _ hfl) (by simp)
      (by decide) (by decide) (by decide) (.inl rfl) fun _ _ _ _ => trivial
    rw [hc, maskWrite_issued, State.caseCes_nil]
  obtain ⟨t, run, hx, -, -, -, only⟩ := ends
  have mask (m : Nat) : (t.press p).mask m =
      ((entered s p k uFin).putMask f (maskOf (maskBit (s.press p) f bits) 512)).mask m := by rw [hx]; rfl
  refine ⟨t, run, fun n hn => ?_, fun m hm => ?_, only.mono ?_ (List.Subset.refl _)⟩
  · rw [mask, Press.putMask_mask, if_pos rfl, bit_maskOf]
    simp [hn]
  · rw [mask, Press.putMask_mask, if_neg (Ne.symm hm), entered_mask]
  · intro g hg
    simp only [List.mem_append, List.mem_cons] at hg ⊢
    tauto

/-- FCMP's comparison, by its sub-operation (R132). -/
theorem fcmpHolds_eq (sub : Nat) (a b : FVal) :
    fcmpHolds sub a b =
      if sub = 0 then !a.isNaN && !b.isNaN && a.cmp b = 0
      else if sub = 1 then !a.isNaN && !b.isNaN && a.cmp b < 0
      else if sub = 2 then !a.isNaN && !b.isNaN && a.cmp b ≤ 0
      else a.isNaN || b.isNaN := by
  unfold fcmpHolds
  split <;> simp_all

/-- FMSK's bit, by its sub-operation (R132). -/
theorem fmskBit_eq (sub imm a b n : Nat) :
    fmskBit sub imm a b n =
      if sub = 0 then bit a n && bit b n
      else if sub = 1 then bit a n || bit b n
      else if sub = 2 then bit a n != bit b n
      else if sub = 3 then bit a n && !bit b n
      else if sub = 4 then true
      else if sub = 5 then false
      else n = imm % 512 := by
  unfold fmskBit
  split <;> simp_all

/-! ## Stochastic rounding's modes (R55, R121) -/

/-- The rounding mode of an element rests on the press's key and loop indices, on the active imposition and on the
formes' editions. -/
theorem State.rmode_congr {s t : State} {p : Nat} (hk : (t.press p).keys = (s.press p).keys)
    (hi : (t.press p).idx = (s.press p).idx) (ha : t.active = s.active)
    (he : ∀ f, t.rd .modFormeEditionEdition 0 f = s.rd .modFormeEditionEdition 0 f) (code key row n : Nat) :
    t.rmode p code key row n = s.rmode p code key row n := by
  have forme : t.formeOfPress p = s.formeOfPress p := by unfold State.formeOfPress; rw [ha]
  have edition : t.edition = s.edition := by funext f; unfold State.edition; rw [he]
  have keys : (t.press p).key key = (s.press p).key key := by unfold Press.key; rw [hk]
  have index : (t.press p).srIndex key row n = (s.press p).srIndex key row n := by
    unfold Press.srIndex Press.index
    rw [keys, hi]
  unfold State.rmode
  rw [forme, edition]
  simp only [keys, index]

@[simp] theorem State.issued_rmode (s : State) (p : Nat) (k : Tok) (u code key row n : Nat) :
    (s.issued p k u).rmode p code key row n = s.rmode p code key row n := by
  refine State.rmode_congr (s := s) (t := s.issued p k u) ?_ ?_ rfl
    (fun f => State.issued_rd s p k u .modFormeEditionEdition 0 f (by decide)) code key row n
  · rw [State.issued_press, entered_only]
  · rw [State.issued_press, entered_only]

/-! ## Rows written (R132) -/

/-- An instruction that writes a row to vd, merged under the mask, runs to its end. -/
theorem finWrite_ends {c : Instr} {s : State} {p : Nat} {k : Tok} {f : FinF} {res : List Nat × NumFlags} {v : Nat → Nat}
    (hv : ∀ n, n < 512 → res.1.getD n 0 = v n)
    (hc : exec c s = .next ((((s.issued p k uFin).finWrite p f res).stalled p [.prsBusyCyclesBusy]).advance p)) :
    pressEnds c (.prsBusyCyclesBusy :: finFields) [.freeCount] p s
      ((entered s p k uFin).putRow f
        ((List.range 512).map fun n => if (s.press p).laneOn f n then v n else ((s.press p).vreg f.vd).getD n 0))
      fun _ => True := by
  have row : (s.press p).merge f res.1 =
      (List.range 512).map fun n => if (s.press p).laneOn f n then v n else ((s.press p).vreg f.vd).getD n 0 :=
    List.map_congr_left fun n hn => by rw [hv n (List.mem_range.mp hn)]
  refine pressEnds_flagged c k uFin _ res.2 [] [.prsBusyCyclesBusy] _ ?_
    (List.subset_cons_of_subset _ res.2.fields_subset) (by simp) (by decide) (by decide) (by decide) (.inl rfl)
    fun _ _ _ _ => trivial
  rw [hc, finWrite_issued, State.caseCes_nil, row]

/-- Rows of 32 put end to end. -/
theorem flatten_blocks {α : Type} (g : Nat → Nat → α) (a : Nat) :
    ((List.range a).map fun b => (List.range 32).map (g b)).flatten =
      (List.range (32 * a)).map fun n => g (n / 32) (n % 32) := by
  induction a with
  | zero => rfl
  | succ a ih =>
    rw [List.range_succ (n := a), List.map_append, List.flatten_append, ih, Nat.mul_succ, List.range_add,
      List.map_append]
    congr 1
    simp only [List.map_cons, List.map_nil, List.flatten_cons, List.flatten_nil, List.append_nil, List.map_map]
    refine List.map_congr_left fun i hi => ?_
    have hi : i < 32 := List.mem_range.mp hi
    show g a i = g ((32 * a + i) / 32) ((32 * a + i) % 32)
    rw [show (32 * a + i) / 32 = a by omega, show (32 * a + i) % 32 = i by omega]

/-! ## FSEL and FCVT (R132) -/

/-- A row and its events from the lanes' patterns and events. -/
def rowOf (es : List (Nat × NumFlags)) : List Nat × NumFlags := (es.map Prod.fst, NumFlags.orAll (es.map Prod.snd))

theorem rowOf_getD (es : List (Nat × NumFlags)) (n : Nat) (d : NumFlags) :
    (rowOf es).1.getD n 0 = (es.getD n (0, d)).1 :=
  List.getD_map es (0, d) Prod.fst

/-- What FSEL gives each lane. -/
def fselLane (x : Press) (f : FinF) (n : Nat) : Nat × NumFlags :=
  let va := fp32Val ((x.vreg f.va).getD n 0)
  let vb := fp32Val ((x.srcB f).getD n 0)
  (fp32Of (if bit (x.mask f.vc) n then va else vb),
    if x.laneOn f n then laneFlags [va, vb] (.fin false 0 0) else NumFlags.none)

theorem exec_fsel (s : State) (p : Nat) (k : Tok) (f : FinF) :
    exec (.fsel p k f) s =
      s.dispatch p k uFin (FinOp.sel.fieldOk f) 0 ((s.press p).finReady true true false f) [] [.prsBusyCyclesBusy]
        fun s => s.finWrite p f (rowOf ((List.range 512).map (fselLane (s.press p) f))) := rfl

/-- What FCVT to BF16 gives each lane. -/
def State.fcvtLane (s : State) (p : Nat) (f : FinF) (fmt : Fmt) (n : Nat) : Nat × NumFlags :=
  let v := fp32Val (((s.press p).vreg f.va).getD n 0)
  let e := fmt.encode (s.rmode p f.rmode f.key f.srow n) f.sat v
  (convert fmt .fp32 e.1,
    if (s.press p).laneOn f n then e.2.or (laneFlags [v] (.fin false 0 0)) else NumFlags.none)

/-- What FCVT gives the lanes, by its sub-operation. -/
def State.fcvtLanes (s : State) (p : Nat) (f : FinF) : List (Nat × NumFlags) :=
  match Fmt.ofCode f.sub with
  | none => []
  | some fmt =>
    if fmt.isMx then ((List.range 16).map fun b => s.fcvtBlock p f fmt b).flatten
    else (List.range 512).map (s.fcvtLane p f fmt)

theorem exec_fcvt (s : State) (p : Nat) (k : Tok) (f : FinF) :
    exec (.fcvt p k f) s =
      s.dispatch p k uFin (FinOp.cvt.fieldOk f) 0 ((s.press p).finReady true false false f) [] [.prsBusyCyclesBusy]
        fun s => s.finWrite p f (rowOf (s.fcvtLanes p f)) := rfl

theorem State.fcvtLanes_bf16 (s : State) (p : Nat) {f : FinF} (hs : f.sub = 1) :
    s.fcvtLanes p f = (List.range 512).map (s.fcvtLane p f .bf16) := by
  unfold State.fcvtLanes
  rw [hs]
  rfl

/-- The block of MX elements of FCVT that lane n lies in: scale, elements and events (R66). -/
def State.fcvtQuant (s : State) (p : Nat) (f : FinF) (fmt : Fmt) (j : Nat) : Nat × List Nat × NumFlags :=
  mxQuantise fmt ((List.range 32).map fun i => s.rmode p f.rmode f.key f.srow (32 * j + i))
    ((List.range 32).map fun i => fp32Val (((s.press p).vreg f.va).getD (32 * j + i) 0))

@[simp] theorem State.fcvtQuant_issued (s : State) (p : Nat) (k : Tok) (f : FinF) (fmt : Fmt) (j : Nat) :
    (s.issued p k uFin).fcvtQuant p f fmt j = s.fcvtQuant p f fmt j := by
  simp only [State.fcvtQuant, State.issued_rmode, State.issued_press, entered_vreg]

/-- An MX element's value in lane n, as FP32 (R132; log entry 10). -/
def State.fcvtMx (s : State) (p : Nat) (f : FinF) (fmt : Fmt) (n : Nat) : Nat :=
  fp32Of (dequant fmt (s.fcvtQuant p f fmt (n / 32)).1 ((s.fcvtQuant p f fmt (n / 32)).2.1.getD (n % 32) 0))

theorem fcvtBlock_fst (s : State) (p : Nat) (f : FinF) (fmt : Fmt) (b : Nat) :
    (s.fcvtBlock p f fmt b).map Prod.fst =
      (List.range 32).map fun i =>
        fp32Of (dequant fmt (s.fcvtQuant p f fmt b).1 ((s.fcvtQuant p f fmt b).2.1.getD i 0)) := by
  simp only [State.fcvtBlock, List.map_map]
  rfl

theorem State.fcvtLanes_mx (s : State) (p : Nat) {f : FinF} {fmt : Fmt} (hf : Fmt.ofCode f.sub = some fmt)
    (hm : fmt.isMx = true) : (rowOf (s.fcvtLanes p f)).1 = (List.range 512).map (s.fcvtMx p f fmt) := by
  unfold State.fcvtLanes rowOf
  simp only [hf, hm, if_true, List.map_flatten, List.map_map, Function.comp_def, fcvtBlock_fst]
  exact flatten_blocks (fun b i =>
    fp32Of (dequant fmt (s.fcvtQuant p f fmt b).1 ((s.fcvtQuant p f fmt b).2.1.getD i 0))) 16

/-- The sub-operations of FCVT other than the first name the MX formats (R132). -/
theorem isMx_of_fcvt {f : FinF} {fmt : Fmt} (hl : FinOp.cvt.fieldOk f = true) (hs : f.sub ≠ 1)
    (hf : Fmt.ofCode f.sub = some fmt) : fmt.isMx = true := by
  have range : 1 ≤ f.sub ∧ f.sub ≤ 6 := by
    simp only [FinOp.fieldOk, FinOp.subOk, Bool.and_eq_true, decide_eq_true_eq] at hl
    tauto
  obtain ⟨lo, hi⟩ := range
  generalize f.sub = n at *
  interval_cases n <;> simp_all [Fmt.ofCode] <;> subst hf <;> rfl

/-! ## FCMP and FMSK (R132) -/

/-- FCMP's bit of lane n. -/
def fcmpBit (x : Press) (f : FinF) (n : Nat) : Bool :=
  fcmpHolds f.sub (fp32Val ((x.vreg f.va).getD n 0)) (fp32Val ((x.srcB f).getD n 0))

/-- FCMP's events. -/
def fcmpFlags (x : Press) (f : FinF) : NumFlags :=
  NumFlags.orAll ((List.range 512).map fun n =>
    if x.laneOn f n then
      laneFlags [fp32Val ((x.vreg f.va).getD n 0), fp32Val ((x.srcB f).getD n 0)] (.fin false 0 0)
    else NumFlags.none)

theorem exec_fcmp (s : State) (p : Nat) (k : Tok) (f : FinF) :
    exec (.fcmp p k f) s =
      s.dispatch p k uFin (FinOp.cmp.fieldOk f) 0 ((s.press p).finReady true true false f) [] [.prsBusyCyclesBusy]
        fun s => s.maskWrite p f (fcmpBit (s.press p) f) (fcmpFlags (s.press p) f) := rfl

theorem exec_fmsk (s : State) (p : Nat) (k : Tok) (f : FinF) :
    exec (.fmsk p k f) s =
      s.dispatch p k uFin (FinOp.msk.fieldOk f) 0 true [] [.prsBusyCyclesBusy]
        fun s => s.maskWrite p f (fmskBit f.sub f.imm ((s.press p).mask f.va) ((s.press p).mask f.vb)) .none := rfl

/-- Settles O9: FCMP and FMSK by the rule for masks, FSEL and FCVT by the rule for rows merged under the mask. -/
theorem maskInstructions : Obligations.MaskInstructions := by
  intro s p k f hd x y a b va vb merged put
  refine ⟨fun hr hl => ?_, fun hl => ?_, fun hr hl => ?_, fun hr hl => ⟨fun hs => ?_, fun fmt hs hf => ?_⟩⟩
  · obtain ⟨t, run, bits, others, only⟩ :=
      maskWrite_runs (NumFlags.fields_subset _) ((exec_fcmp s p k f).trans (dispatch_fin hd hl hr _ _))
    refine ⟨t, run, fun n hn => ?_, others, only⟩
    rw [bits n hn, maskBit, fcmpBit, fcmpHolds_eq]
    simp only [State.issued_press, entered_vreg, entered_srcB, x, va, vb, a, b]
  · obtain ⟨t, run, bits, others, only⟩ :=
      maskWrite_runs (fs := []) (List.nil_subset _) ((exec_fmsk s p k f).trans (dispatch_fin hd hl rfl _ _))
    refine ⟨t, run, fun n hn => ?_, others, only⟩
    rw [bits n hn, maskBit, fmskBit_eq]
    simp only [State.issued_press, entered_mask, x]
  · refine finWrite_ends (fun n hn => ?_) ((exec_fsel s p k f).trans (dispatch_fin hd hl hr _ _))
    rw [rowOf_getD _ _ .none, getD_map_range _ _ hn]
    simp only [fselLane, State.issued_press, entered_vreg, entered_mask, entered_srcB, x, va, vb, a, b]
  · refine finWrite_ends (fun n hn => ?_) ((exec_fcvt s p k f).trans (dispatch_fin hd hl hr _ _))
    rw [State.fcvtLanes_bf16 _ _ hs, rowOf_getD _ _ .none, getD_map_range _ _ hn]
    simp only [State.fcvtLane, State.issued_press, entered_vreg, State.issued_rmode, x, va, a]
  · refine finWrite_ends (fun n hn => ?_) ((exec_fcvt s p k f).trans (dispatch_fin hd hl hr _ _))
    rw [State.fcvtLanes_mx _ _ hf (isMx_of_fcvt hl hs hf), getD_map_range _ _ hn]
    simp only [State.fcvtMx, State.fcvtQuant_issued]
    rfl

/-! ## The canonical tree (R52) -/

section
variable {α β : Type}

/-- A map that respects the nodes respects the tree. -/
theorem treeFold_map (h : α → β) {c : α → α → α} {c' : β → β → β} (hom : ∀ a b, h (c a b) = c' (h a) (h b)) (d : α)
    (n : Nat) (l : List α) : h (treeFold c d n l) = treeFold c' (h d) n (l.map h) := by
  induction n generalizing l with
  | zero => rcases l with _ | ⟨x, _ | ⟨y, l⟩⟩ <;> rfl
  | succ n ih =>
    rcases l with _ | ⟨x, _ | ⟨y, l⟩⟩
    · rfl
    · rfl
    · simp only [treeFold, hom, ih, List.map_take, List.map_drop, List.map_cons, List.length_map]

theorem tree_map (h : α → β) {c : α → α → α} {c' : β → β → β} (hom : ∀ a b, h (c a b) = c' (h a) (h b)) (d : α)
    (l : List α) : h (tree c d l) = tree c' (h d) (l.map h) := by
  simp only [tree, treeFold_map h hom, List.length_map]

/-- What holds of the leaves and passes up the nodes holds of the tree. -/
theorem treeFold_induction {P : α → Prop} {c : α → α → α} {d : α} (hd : P d) (hc : ∀ a b, P a → P b → P (c a b))
    (n : Nat) (l : List α) (hl : ∀ x ∈ l, P x) : P (treeFold c d n l) := by
  induction n generalizing l with
  | zero =>
    rcases l with _ | ⟨x, _ | ⟨y, l⟩⟩
    · exact hd
    · exact hl x (List.mem_cons_self ..)
    · exact hl x (List.mem_cons_self ..)
  | succ n ih =>
    rcases l with _ | ⟨x, _ | ⟨y, l⟩⟩
    · exact hd
    · exact hl x (List.mem_cons_self ..)
    · exact hc _ _ (ih _ fun z hz => hl z (List.mem_of_mem_take hz)) (ih _ fun z hz => hl z (List.mem_of_mem_drop hz))

end

/-! ## Reductions (R53, R92, R132) -/

/-- A leaf of a reduction: the lane's pattern, or that of a lane not enabled, with its events. -/
def reduceLeaf (x : Press) (f : FinF) (ident n : Nat) : Nat × NumFlags :=
  if x.laneOn f n then
    let v := (x.vreg f.va).getD n 0
    (v, laneFlags [fp32Val v] (.fin false 0 0))
  else (ident, NumFlags.none)

/-- A node of a reduction: the rounded result and its events. -/
def reduceNode (op : FVal → FVal → FVal) (a b : Nat × NumFlags) : Nat × NumFlags :=
  let va := fp32Val a.1
  let vb := fp32Val b.1
  let v := op va vb
  (fp32Of v, (a.2.or b.2).or { NumFlags.none with nanMade := v.isNaN && !va.isNaN && !vb.isNaN })

/-- The tree over the lanes. -/
def reduceTree (x : Press) (f : FinF) (ident : Nat) (op : FVal → FVal → FVal) : Nat × NumFlags :=
  tree (reduceNode op) (0, NumFlags.none) ((List.range 512).map (reduceLeaf x f ident))

theorem reduceTree_fst (x : Press) (f : FinF) (ident : Nat) (op : FVal → FVal → FVal) :
    (reduceTree x f ident op).1 = tree (fun a b => fp32Of (op (fp32Val a) (fp32Val b))) 0
      ((List.range 512).map fun n => if x.laneOn f n then (x.vreg f.va).getD n 0 else ident) := by
  have leaf (n : Nat) : (reduceLeaf x f ident n).1 = if x.laneOn f n then (x.vreg f.va).getD n 0 else ident := by
    unfold reduceLeaf
    cases x.laneOn f n <;> simp
  rw [reduceTree, tree_map (c := reduceNode op) (c' := fun a b => fp32Of (op (fp32Val a) (fp32Val b))) Prod.fst
    (fun _ _ => rfl), List.map_map]
  simp only [Function.comp_def, leaf]

theorem reduceTree_fields (x : Press) (f : FinF) (ident : Nat) (op : FVal → FVal → FVal) :
    (reduceTree x f ident op).2.fields ⊆ [.finNumFlagsNanIn, .finNumFlagsNanMade] := by
  refine treeFold_induction
    (P := fun e : Nat × NumFlags => e.2.fields ⊆ [.finNumFlagsNanIn, .finNumFlagsNanMade]) (List.nil_subset _)
    (fun a b ha hb g hg => ?_) _ _ fun e he => ?_
  · simp only [reduceNode, NumFlags.mem_fields_or] at hg
    obtain (hg | hg) | hg := hg
    · exact ha hg
    · exact hb hg
    · simp only [NumFlags.mem_fields, NumFlags.none, Bool.false_eq_true, false_and, false_or, or_false] at hg
      rw [hg.2]
      decide
  · obtain ⟨n, -, rfl⟩ := List.mem_map.mp he
    unfold reduceLeaf
    split
    · intro g hg
      simp only [mem_fields_laneFlags] at hg
      obtain ⟨-, rfl⟩ | ⟨-, rfl⟩ := hg <;> decide
    · exact List.nil_subset _

theorem reduce_issued (s : State) (p : Nat) (k : Tok) (f : FinF) (ident : Nat) (op : FVal → FVal → FVal) :
    (s.issued p k uFin).reduce p f ident op =
      ((s.issued p k uFin).setPress p ((entered s p k uFin).putRow f
        ((reduceTree (s.press p) f ident op).1 :: List.replicate 511 0))).finFlags p
        (reduceTree (s.press p) f ident op).2 := by
  have same : reduceTree (entered s p k uFin) f ident op = reduceTree (s.press p) f ident op := by
    rw [entered_only]; rfl
  rw [← same]
  rfl

/-- A reduction runs to its end, with the tree's value in lane 0 of vd and +0 in the others (R92). -/
theorem finReduce_ends {c : Instr} {s : State} {p : Nat} {k : Tok} {o : FinOp} {f : FinF} {ident : Nat}
    {op : FVal → FVal → FVal} (hc : exec c s = s.finReduce p k o f ident op) (hd : canDispatch s p k uFin)
    (hl : o.fieldOk f = true) (hr : (s.press p).finReady true false false f = true) :
    let x := s.press p
    let leaves := (List.range 512).map fun n => if x.laneOn f n then (x.vreg f.va).getD n 0 else ident
    let r := tree (fun a b => fp32Of (op (fp32Val a) (fp32Val b))) 0 leaves
    pressEnds c [.finNumFlagsNanIn, .finNumFlagsNanMade, .prsBusyCyclesBusy] [.freeCount] p s
      ((entered s p k uFin).putRow f (r :: List.replicate 511 0)) fun _ => True := by
  intro x leaves r
  refine pressEnds_flagged c k uFin _ (reduceTree x f ident op).2 [] [.prsBusyCyclesBusy] _ ?_
    (List.Subset.trans (reduceTree_fields ..) (by decide)) (by decide) (by decide) (by decide) (by decide) (.inl rfl)
    fun _ _ _ _ => trivial
  rw [hc, State.finReduce, dispatch_fin hd hl hr, reduce_issued, State.caseCes_nil, reduceTree_fst]

/-! ## Words that do not run (R130, R139) -/

/-- A legal word whose ring rows are not there yet waits (R130; log entry 6). -/
theorem dispatch_waits {s : State} {p u : Nat} {k : Tok} (h : canDispatch s p k u) (lines : List (Int × Nat))
    (waits : List Field) (run : State → State) : s.dispatch p k u true 0 false lines waits run = .next s := by
  obtain ⟨hp, ha, ht, hf⟩ := h
  have token : (k.wen && decide ((s.press p).token k.wtok = 0)) = false := by
    cases hk : k.wen
    · rfl
    · simp [ht hk]
  simp [State.dispatch, hp, ha, token, hf]

theorem dispatch_illegal {s : State} {p u : Nat} {k : Tok} (h : canDispatch s p k u) (hold : Nat) (ready : Bool)
    (lines : List (Int × Nat)) (waits : List Field) (run : State → State) :
    s.dispatch p k u false hold ready lines waits run = .next (s.illegalWord p) := by
  obtain ⟨hp, ha, -, -⟩ := h
  simp [State.dispatch, hp, ha]

/-- A press that enters a state: its state is written, and it may lose its carry file (R86). -/
theorem State.setPState_cases (s : State) (p st : Nat) :
    s.setPState p st = s.wr .prsStatusState p 0 st ∨
      s.setPState p st = { (s.wr .prsStatusState p 0 st).setPress p ((s.press p).loseCarry s.freeCount) with
        freeCount := s.freeCount + 1 } := by
  unfold State.setPState
  dsimp only
  split
  · exact .inr rfl
  · exact .inl rfl

theorem State.setPState_rd (s : State) (p st : Nat) (g : Field) (i j : Nat) :
    (s.setPState p st).rd g i j = (s.wr .prsStatusState p 0 st).rd g i j := by
  obtain h | h := s.setPState_cases p st
  · rw [h]
  · rw [h]; rfl

theorem State.setPState_rd_ne (s : State) (p st : Nat) (g : Field) (i j : Nat) (h : g ≠ .prsStatusState ∨ i ≠ p) :
    (s.setPState p st).rd g i j = s.rd g i j := by
  rw [State.setPState_rd, State.rd_wr, if_neg]
  rintro ⟨rfl, rfl, -⟩
  exact h.elim (absurd rfl) (absurd rfl)

theorem State.setPState_pState (s : State) (p : Nat) : (s.setPState p pParked).pState p = pParked := by
  rw [State.pState, State.setPState_rd, State.rd_wr_same]
  decide

theorem State.setPState_press_ne (s : State) {p q : Nat} (st : Nat) (h : q ≠ p) :
    (s.setPState p st).press q = s.press q := by
  obtain e | e := s.setPState_cases p st <;> rw [e]
  · rfl
  · exact (State.press_setPress ..).trans (if_neg (Ne.symm h))

theorem State.setPState_press (s : State) (p st : Nat) :
    (s.setPState p st).press p = s.press p ∨ (s.setPState p st).press p = (s.press p).loseCarry s.freeCount := by
  obtain e | e := s.setPState_cases p st <;> rw [e]
  · exact .inl rfl
  · exact .inr ((State.press_setPress ..).trans (if_pos rfl))

/-- Press p as it was: what it holds, and the numbers of its status. -/
def State.samePress (p : Nat) (s t : State) : Prop :=
  t.press p = s.press p ∧ t.pState p = s.pState p ∧
    t.rd .prsSeqStatusIllegal p 0 = s.rd .prsSeqStatusIllegal p 0

/-- A press that does not run is not parked with those of its forme that do (R104, R233). -/
theorem State.parkPresses_samePress (s : State) (f p : Nat) (h : s.pState p = pParked) :
    State.samePress p s (s.parkPresses f) := by
  unfold State.parkPresses
  generalize s.formePresses f = l
  suffices hs : ∀ u : State, State.samePress p s u →
      State.samePress p s (u.each l fun s p => if s.pState p = pActive then s.setPState p pParked else s) from
    hs s ⟨rfl, rfl, rfl⟩
  induction l with
  | nil => exact fun u hu => hu
  | cons q l ih =>
    intro u hu
    refine ih _ ?_
    dsimp only
    split
    case isFalse => exact hu
    case isTrue active =>
      obtain ⟨press, state, illegal⟩ := hu
      have other : p ≠ q := by
        rintro rfl
        rw [state, h] at active
        exact absurd active (by decide)
      exact ⟨(u.setPState_press_ne _ other).trans press, (u.setPState_rd_ne q _ _ p 0 (.inr other)).trans state,
        (u.setPState_rd_ne q _ _ p 0 (.inr other)).trans illegal⟩

/-- An abandonment moves presses by parking those that run, and by nothing else (R233). -/
theorem State.abandon_moves_parked (s : State) (f cause t : Nat) : ∃ u, (u = s ∨ u = s.parkPresses f) ∧
    Moves [.imp, .forme, .cmp, .col] [.jobs, .lateXfers, .drains, .links, .relays] u (s.abandon f cause t) := by
  unfold State.abandon
  split
  · refine ⟨_, .inr rfl, ?_⟩
    have stopped : Moves [.imp, .forme, .cmp, .col] [.jobs, .lateXfers, .drains, .links, .relays] (s.parkPresses f)
        (s.stopUnits f) :=
      State.dropTraffic_moves _ _ (by decide) (State.dropLate_moves _ _ (by decide)
        (State.dropJobs_moves _ _ (by decide) (by decide) (Moves.refl _)))
    have ignored (u : State) (pend tick : Field) (hp : pend.area = .forme) (ht : tick.area = .forme)
        (hu : Moves [.imp, .forme, .cmp, .col] [.jobs, .lateXfers, .drains, .links, .relays] (s.parkPresses f) u) :=
      State.ignoreWith_moves u f t pend tick (by decide) (by rw [hp]; decide) (by rw [ht]; decide) hu
    have sent (u : State) (hu : Moves [.imp, .forme, .cmp, .col] [.jobs, .lateXfers, .drains, .links, .relays]
        (s.parkPresses f) u) := Moves.ite (c := u.on .hFormePreDone 0 f = true) (fun _ => hu) fun _ =>
          hu.wr .hFormePreSent 0 f 0 (by decide)
    refine Moves.wr _ _ _ _ (by decide) (sent _ ?_)
    refine Moves.wr _ _ _ _ (by decide) (Moves.wr _ _ _ _ (by decide) (Moves.wr _ _ _ _ (by decide) ?_))
    refine Moves.bump _ _ _ _ (by decide) (Moves.wr _ _ _ _ (by decide) (Moves.wr _ _ _ _ (by decide) ?_))
    exact ignored _ _ _ rfl rfl (ignored _ _ _ rfl rfl (ignored _ _ _ rfl rfl (ignored _ _ _ rfl rfl stopped)))
  · refine ⟨s, .inl rfl, Moves.ite (fun _ => (Moves.refl s).wr _ _ _ _ (by decide)) fun _ =>
      Moves.ite (fun _ => Moves.refl s) fun _ => State.waitCause_moves s _ _ (by decide) (Moves.refl s)⟩

/-- A parked press stays as it is when its edition is abandoned (R233). -/
theorem State.abandonPress_samePress (s : State) (p cause t : Nat) (h : s.pState p = pParked) :
    State.samePress p s (s.abandonPress p cause t) := by
  unfold State.abandonPress
  split
  · exact ⟨rfl, rfl, rfl⟩
  next x _ =>
    obtain ⟨u, hu, ⟨numbers, parts⟩, -⟩ := s.abandon_moves_parked x.number cause t
    have presses : (s.abandon x.number cause t).presses = u.presses := parts .presses (by decide)
    have same : State.samePress p u (s.abandon x.number cause t) :=
      ⟨by unfold State.press; rw [presses], numbers _ _ _ (by decide), numbers _ _ _ (by decide)⟩
    obtain rfl | rfl := hu
    · exact same
    · have parked := s.parkPresses_samePress x.number p h
      exact ⟨same.1.trans parked.1, same.2.1.trans parked.2.1, same.2.2.trans parked.2.2⟩

/-- An illegal word sets illegal, parks its press, and leaves what it computes on as it was (R139). -/
theorem illegalRuns_of {c : Instr} {s : State} {p : Nat} (hc : exec c s = .next (s.illegalWord p)) :
    illegalRuns c p s := by
  obtain ⟨press, state, illegal⟩ := ((s.wr .prsSeqStatusIllegal p 0 1).setPState p pParked).abandonPress_samePress p
    causeIstore s.now (State.setPState_pState ..)
  have mem : (s.illegalWord p).mem = s.mem :=
    (State.illegalWord_moves (as := [.imp, .forme, .cmp, .col, .prs]) s p (List.Subset.refl _) (List.Subset.refl _)
      (Moves.refl s)).1.2 .mem (by decide)
  have set : (s.illegalWord p).rd .prsSeqStatusIllegal p 0 = 1 := by
    refine illegal.trans ?_
    rw [State.setPState_rd_ne _ _ _ _ _ _ (.inl (by decide)), State.rd_wr_same]
    decide
  refine ⟨_, hc, set, state.trans (State.setPState_pState ..), ?_⟩
  have holds : (s.illegalWord p).press p = s.press p ∨ (s.illegalWord p).press p = (s.press p).loseCarry s.freeCount :=
    press ▸ State.setPState_press (s.wr .prsSeqStatusIllegal p 0 1) p pParked
  obtain h | h := holds <;> rw [h] <;> exact ⟨rfl, rfl, rfl, rfl, mem⟩

/-- The words of the finisher that compute on lanes, each with its operation. -/
def laneWords (p : Nat) (k : Tok) (f : FinF) : List (Instr × FinOp) :=
  [(.fadd p k f, .add), (.fsub p k f, .sub), (.fmul p k f, .mul), (.ffma p k f, .ffma), (.fmin p k f, .min),
    (.fmax p k f, .max), (.fcmp p k f, .cmp), (.fsel p k f, .sel), (.fmov p k f, .mov), (.fmsk p k f, .msk),
    (.fcvt p k f, .cvt), (.frcp p k f, .rcp), (.frsq p k f, .rsq), (.fexp p k f, .exp), (.flog p k f, .log),
    (.frsum p k f, .rsum), (.frmax p k f, .rmax), (.frmin p k f, .rmin)]

/-- A word of the finisher is dispatched under its field rules, and, but for FMSK, waits for the ring registers that
it reads (R117, R130). -/
def finDispatched (s : State) (p : Nat) (k : Tok) (f : FinF) (e : Instr × FinOp) : Prop :=
  ∃ ready run, exec e.1 s = s.dispatch p k uFin (e.2.fieldOk f) 0 ready [] [.prsBusyCyclesBusy] run ∧
    (e.2 ≠ .msk → ready = (s.press p).finReady e.2.use.va e.2.use.vb (e.2.use.vc && e.2 = .ffma) f)

section
variable {s : State} {p : Nat} {k : Tok} {f : FinF} {c : Instr} {o : FinOp}

theorem finDispatched_of_finOp {op : List FVal → FVal} (hc : exec c s = s.finOp p k o f op) :
    finDispatched s p k f (c, o) := ⟨_, _, hc.trans (by unfold State.finOp; rfl), fun _ => rfl⟩

theorem finDispatched_of_finReduce {ident : Nat} {op : FVal → FVal → FVal}
    (hc : exec c s = s.finReduce p k o f ident op)
    (ho : o = .rsum ∨ o = .rmax ∨ o = .rmin) : finDispatched s p k f (c, o) := by
  refine ⟨_, _, hc.trans (by unfold State.finReduce; rfl), fun _ => ?_⟩
  obtain rfl | rfl | rfl := ho <;> rfl

end

theorem finDispatched_laneWords (s : State) (p : Nat) (k : Tok) (f : FinF) :
    ∀ e ∈ laneWords p k f, finDispatched s p k f e := by
  simp only [laneWords, List.forall_mem_cons, List.not_mem_nil, false_implies, implies_true, and_true]
  exact ⟨finDispatched_of_finOp rfl, finDispatched_of_finOp rfl, finDispatched_of_finOp rfl, finDispatched_of_finOp rfl,
    finDispatched_of_finOp rfl, finDispatched_of_finOp rfl, ⟨_, _, exec_fcmp s p k f, fun _ => rfl⟩,
    ⟨_, _, exec_fsel s p k f, fun _ => rfl⟩, finDispatched_of_finOp rfl,
    ⟨_, _, exec_fmsk s p k f, fun h => absurd rfl h⟩, ⟨_, _, exec_fcvt s p k f, fun _ => rfl⟩,
    finDispatched_of_finOp rfl, finDispatched_of_finOp rfl, finDispatched_of_finOp rfl, finDispatched_of_finOp rfl,
    finDispatched_of_finReduce rfl (.inl rfl), finDispatched_of_finReduce rfl (.inr (.inl rfl)),
    finDispatched_of_finReduce rfl (.inr (.inr rfl))⟩

/-- A register whose row is due keeps a word from its reads (R130). -/
theorem finReady_eq_false {x : Press} {o : FinOp} {f : FinF}
    (h : ((o.use.va && !x.readable f.va) || (o.use.vb && !f.bi && !x.readable f.vb) ||
      (o = .ffma && !x.readable f.vc)) = true) :
    x.finReady o.use.va o.use.vb (o.use.vc && o = .ffma) f = false := by
  have third : o = .ffma → o.use.vc = true := by rintro rfl; rfl
  simp only [Bool.or_eq_true, Bool.and_eq_true, Bool.not_eq_true', decide_eq_true_eq] at h
  obtain (⟨use, due⟩ | ⟨⟨use, reg⟩, due⟩) | ⟨is, due⟩ := h
  · simp [Press.finReady, use, due]
  · simp [Press.finReady, use, reg, due]
  · simp [Press.finReady, third is, due, decide_eq_true is]

/-- Settles O10: the reductions by the tree's rule, and the words that do not run by those of the dispatch. -/
theorem finisherReductionsAndHolds : Obligations.FinisherReductionsAndHolds := by
  constructor
  · intro s p k f hd hr x y
    simp only [List.forall_mem_cons, List.not_mem_nil, false_implies, implies_true, and_true]
    exact ⟨fun hl => finReduce_ends (o := .rsum) rfl hd hl hr, fun hl => finReduce_ends (o := .rmax) rfl hd hl hr,
      fun hl => finReduce_ends (o := .rmin) rfl hd hl hr⟩
  · intro s p k f hd e he
    obtain ⟨ready, run, hc, hr⟩ := finDispatched_laneWords s p k f e he
    refine ⟨fun hl => illegalRuns_of ?_, fun hl hm due => ?_⟩
    · rw [hc, hl]
      exact dispatch_illegal hd ..
    · rw [Runs, hc, hl, hr hm, finReady_eq_false due]
      exact dispatch_waits hd ..

/-! ## Bytes of rows (R40, R41, R66, R129) -/

@[simp] theorem length_caseBytes (x : Press) (l n : Nat) : (x.caseBytes l n).length = n := by
  simp [Press.caseBytes, Memory.read]

theorem getD_caseBytes (x : Press) (l : Nat) {n i : Nat} (h : i < n) :
    (x.caseBytes l n).getD i 0 = x.caseMem.get (l * 256 + i) := getD_map_range _ _ h

theorem length_padTo {n : Nat} {bs : List Byte} (h : bs.length ≤ n) : (padTo n bs).length = n := by
  simp [padTo]; omega

@[simp] theorem length_pack (f : Fmt) (xs : List Nat) : (f.pack xs).length = f.packedBytes xs.length := length_natLe _ _

/-- A row of 512 elements fills the pitch of its format. -/
theorem length_rowBytes {fmt : Nat} {els : List Nat} (hf : fmt ≤ 7) (he : els.length = 512) :
    (rowBytes fmt els).length = dPitch fmt * 256 := by
  interval_cases fmt <;> exact length_padTo (by rw [length_pack, he]; decide)

theorem length_mxQuantise (f : Fmt) {rs : List RMode} {vs : List FVal} (h : rs.length = vs.length) :
    (mxQuantise f rs vs).2.1.length = vs.length := by
  unfold mxQuantise
  split <;> simp [h]

/-- A converted row has as many elements as the row, and a scale byte for each block of 32 in an MX format. -/
theorem length_convertRow {fmt : Nat} {f : Fmt} (sat : Bool) {rs : List RMode} {vs : List FVal}
    (hf : Fmt.ofCode fmt = some f) (hr : rs.length = 512) (hv : vs.length = 512) :
    (convertRow fmt sat rs vs).1.length = 512 ∧
      (convertRow fmt sat rs vs).2.1.length = if f.isMx then 16 else 0 := by
  unfold convertRow
  rw [hf]
  dsimp only
  split
  case isFalse => simp [hr, hv]
  case isTrue =>
    have block (b : Nat) (hb : b < 16) :
        (mxQuantise f ((rs.drop (32 * b)).take 32) ((vs.drop (32 * b)).take 32)).2.1.length = 32 := by
      rw [length_mxQuantise _ (by simp [hr, hv])]
      simp [hv]
      omega
    have blocks : vs.length / 32 = 16 := by rw [hv]
    refine ⟨?_, by simp [blocks]⟩
    rw [blocks, List.length_flatten, List.map_map, List.map_map, List.map_congr_left (g := fun _ => 32)]
    · rfl
    · exact fun b hb => block b (List.mem_range.mp hb)

/-! ## FLD, FST and CMOV (R133) -/

/-- The row that FLD loads. -/
def fldRow (x : Press) (f : FinF) : List Nat :=
  if f.sub = 1 then (Fmt.bf16.unpack 512 (x.caseBytes (x.finLine f).toNat 1024)).map (convert .bf16 .fp32)
  else Fmt.fp32.unpack 512 (x.caseBytes (x.finLine f).toNat 2048)

/-- FLD's events: the NaNs of BF16 lanes. -/
def fldFlags (x : Press) (f : FinF) : NumFlags :=
  if f.sub = 1 then
    NumFlags.orAll ((Fmt.bf16.unpack 512 (x.caseBytes (x.finLine f).toNat 1024)).map fun e =>
      laneFlags [Fmt.bf16.decode e] (.fin false 0 0))
  else .none

theorem exec_fld (s : State) (p : Nat) (k : Tok) (f : FinF) (ce : List Nat) :
    exec (.fld p k f ce) s =
      s.dispatch p k uFin (FinOp.ld.fieldOk f && (s.press p).inCase f.cad) 0 true
        [((s.press p).finLine f, if f.sub = 1 then 4 else 8)] finCaseWaits fun s =>
        ((s.setPress p { s.press p with vregs := (s.press p).vregs.put f.vd (fldRow (s.press p) f) }).finFlags p
          (fldFlags (s.press p) f)).caseCes p ce := by
  show execFld p k f ce s = _
  unfold execFld fldRow fldFlags
  dsimp only
  congr 1
  funext s
  split <;> rfl

/-- FST's row: patterns as stored, scale bytes, and the events of the conversion. -/
def State.fstRow (s : State) (p : Nat) (f : FinF) : List Nat × List Nat × NumFlags :=
  if f.sub = 0 then ((s.press p).vreg f.va, [], NumFlags.none)
  else convertRow f.sub f.sat ((List.range 512).map fun n => s.rmode p f.rmode f.key f.srow n)
    (((s.press p).vreg f.va).map fp32Val)

/-- The press with FST's row stored, its scale bytes staged, and the staging line written where the word flushes. -/
def Press.stored (x : Press) (f : FinF) (c : List Nat × List Nat × NumFlags) : Press :=
  let z := x.writeCase (x.finLine f).toNat (rowBytes f.sub c.1)
  let st := if c.2.1.isEmpty then x.stagingLine
    else spliceBytes x.stagingLine (16 * f.slot) (c.2.1.map fun b => BitVec.ofNat 8 b)
  if f.flush then { (z.writeCase (x.addr f.xad).toNat st) with staging := [] } else { z with staging := st }

/-- FST's events. -/
def fstFlags (x : Press) (f : FinF) (c : List Nat × List Nat × NumFlags) : NumFlags :=
  if f.sub = 0 then NumFlags.none
  else c.2.2.or (NumFlags.orAll (((x.vreg f.va).map fp32Val).map fun v => laneFlags [v] (.fin false 0 0)))

theorem exec_fst (s : State) (p : Nat) (k : Tok) (f : FinF) :
    exec (.fst p k f) s =
      s.dispatch p k uFin
        (FinOp.st.fieldOk f && (s.press p).inCase f.cad && (!f.flush || (s.press p).inCase f.xad)) 0
        ((s.press p).finReady true false false f) (fstLines (s.press p) f) finCaseWaits fun s =>
        (s.setPress p (((s.press p).stored f (s.fstRow p f)).pops f)).finFlags p
          (fstFlags (s.press p) f (s.fstRow p f)) := rfl

theorem exec_cmov (s : State) (p : Nat) (k : Tok) (f : FinF) (ce : List Nat) :
    exec (.cmov p k f ce) s =
      s.dispatch p k uFin (FinOp.cmov.fieldOk f && (s.press p).inCase f.cad && (s.press p).inCase f.xad) 0 true
        [((s.press p).addr f.cad, f.cnt + 1), ((s.press p).addr f.xad, f.cnt + 1)] finCaseWaits fun s =>
        (s.setPress p ((s.press p).writeCase ((s.press p).addr f.xad).toNat
          ((s.press p).caseBytes ((s.press p).addr f.cad).toNat ((f.cnt + 1) * 256)))).caseCes p ce := rfl

@[simp] theorem State.fstRow_issued (s : State) (p : Nat) (k : Tok) (f : FinF) :
    (s.issued p k uFin).fstRow p f = s.fstRow p f := by
  simp only [State.fstRow, State.issued_rmode, State.issued_press, entered_vreg]

theorem sub_le_of_st {f : FinF} (hl : FinOp.st.fieldOk f = true) : f.sub ≤ 6 := by
  simp only [FinOp.fieldOk, FinOp.subOk, Bool.and_eq_true, decide_eq_true_eq] at hl
  tauto

/-- FST's row fills the lines of its format (R133). -/
theorem length_fstRow (s : State) (p : Nat) {f : FinF} (hl : FinOp.st.fieldOk f = true) :
    (rowBytes f.sub (s.fstRow p f).1).length = dPitch f.sub * 256 := by
  have sub := sub_le_of_st hl
  refine length_rowBytes (by omega) ?_
  have reg : ((s.press p).vreg f.va).length = 512 := by simp [Press.vreg, lanes512]
  unfold State.fstRow
  split
  · dsimp only
    exact reg
  · obtain ⟨fmt, hf⟩ : ∃ fmt, Fmt.ofCode f.sub = some fmt := by
      generalize f.sub = n at sub
      interval_cases n <;> exact ⟨_, rfl⟩
    exact (length_convertRow f.sat hf (by simp) (by simp [reg])).1

/-- A byte of the case outside the lines stored is as it was; one within is the byte stored. -/
theorem get_writeCase {x : Press} (hx : x.caseMem.wf = true) (l : Nat) (bs : List Byte) (a : Nat) :
    (x.writeCase l bs).caseMem.get a =
      if l * 256 ≤ a ∧ a < l * 256 + bs.length then bs.getD (a - l * 256) 0 else x.caseMem.get a :=
  Memory.get_write _ _ _ _ hx

theorem get_writeCase_outside {x : Press} (hx : x.caseMem.wf = true) (l : Nat) (bs : List Byte) {a n : Nat}
    (hn : bs.length ≤ n * 256) (ha : a < l * 256 ∨ (l + n) * 256 ≤ a) :
    (x.writeCase l bs).caseMem.get a = x.caseMem.get a := by
  rw [get_writeCase hx, if_neg (by omega)]

theorem get_writeCase_within {x : Press} (hx : x.caseMem.wf = true) (l : Nat) (bs : List Byte) {i : Nat}
    (hi : i < bs.length) : (x.writeCase l bs).caseMem.get (l * 256 + i) = bs.getD i 0 := by
  rw [get_writeCase hx, if_pos (by omega), Nat.add_sub_cancel_left]

section
variable {s : State} {p : Nat} {k : Tok} {f : FinF}

/-- FLD runs to its end; the case stays, and FP32 lanes raise no flag. -/
theorem fld_reads (hd : canDispatch s p k uFin) (hl : FinOp.ld.fieldOk f = true) (hc : (s.press p).inCase f.cad = true)
    (hn : caseLineOk ((s.press p).finLine f) (if f.sub = 1 then 4 else 8) = true) :
    pressReads (.fld p k f) (finCaseWaits ++ finFields) [.freeCount] p s
      { entered s p k uFin with vregs := (entered s p k uFin).vregs.put f.vd (fldRow (s.press p) f) }
      fun t => (∀ a, (t.press p).caseMem.get a = (s.press p).caseMem.get a) ∧
        (f.sub ≠ 1 → ∀ g ∈ finFields, t.rd g p 0 = s.rd g p 0) := by
  refine pressReads_flagged _ k uFin _ (fldFlags (s.press p) f) finCaseWaits _ (fun ce => ?_)
    (List.Subset.trans (NumFlags.fields_subset _) (List.subset_append_right finCaseWaits finFields))
    (List.subset_append_left ..) (by decide) fun t ht hf => ⟨fun a => ?_, fun hs g hg => ?_⟩
  · have row : fldRow (entered s p k uFin) f = fldRow (s.press p) f := by
      simp only [fldRow, entered_finLine, entered_caseBytes]
    have flags : fldFlags (entered s p k uFin) f = fldFlags (s.press p) f := by
      simp only [fldFlags, entered_finLine, entered_caseBytes]
    rw [exec_fld, dispatch_ok hd (by rw [hl, hc]; rfl) rfl (by simpa using hn), State.issued_press, row, flags]
  · rw [ht]
    show (entered s p k uFin).caseMem.get a = _
    rw [entered_caseMem]
  · rw [hf g hg, if_neg (by simp [fldFlags, hs])]

/-- FST runs to its end; without a flush no byte outside its lines changes, and FP32 lanes raise no flag. -/
theorem fst_ends (hinv : s.inv = true) (hd : canDispatch s p k uFin) (hl : FinOp.st.fieldOk f = true)
    (hc : (s.press p).inCase f.cad = true) (hx : f.flush = true → (s.press p).inCase f.xad = true)
    (hr : (s.press p).readable f.va = true) (hn : caseLineOk ((s.press p).finLine f) (dPitch f.sub) = true)
    (hm : f.flush = true → caseLineOk ((s.press p).addr f.xad) 1 = true) :
    pressEnds (.fst p k f) (finCaseWaits ++ finFields) [.freeCount] p s
      (((entered s p k uFin).stored f (s.fstRow p f)).pops f)
      fun t => (f.sub = 0 → ∀ g ∈ finFields, t.rd g p 0 = s.rd g p 0) ∧
        (f.flush = false → ∀ a, a < ((s.press p).finLine f).toNat * 256 ∨
          (((s.press p).finLine f).toNat + dPitch f.sub) * 256 ≤ a →
          (t.press p).caseMem.get a = (s.press p).caseMem.get a) := by
  have wf : (entered s p k uFin).caseMem.wf = true := by
    rw [entered_caseMem]
    exact s.inv_caseMem p hinv
  refine pressEnds_flagged _ k uFin _ (fstFlags (entered s p k uFin) f (s.fstRow p f)) [] finCaseWaits _ ?_
    (List.Subset.trans (NumFlags.fields_subset _) (List.subset_append_right finCaseWaits finFields))
    (List.subset_append_left ..) (by decide) (by decide) (by decide) (.inl rfl)
    fun t ht hf _ => ⟨fun hs g hg => ?_, fun hs a ha => ?_⟩
  · have legal : (FinOp.st.fieldOk f && (s.press p).inCase f.cad && (!f.flush || (s.press p).inCase f.xad)) = true := by
      rw [hl, hc]
      cases hf : f.flush
      · rfl
      · simpa using hx hf
    have ready : (s.press p).finReady true false false f = true := by simp [Press.finReady, hr]
    have lines : ((fstLines (s.press p) f).all fun e => caseLineOk e.1 e.2) = true := by
      cases hf : f.flush
      · simpa [fstLines, hf] using hn
      · simpa [fstLines, hf] using ⟨hn, hm hf⟩
    rw [exec_fst, dispatch_ok hd legal ready lines, State.caseCes_nil, State.issued_press, State.fstRow_issued]
  · rw [hf g hg, if_neg (by simp [fstFlags, hs])]
  · have case : (t.press p).caseMem = ((entered s p k uFin).writeCase ((entered s p k uFin).finLine f).toNat
        (rowBytes f.sub (s.fstRow p f).1)).caseMem := by
      rw [ht]
      show (Press.pops _ f).caseMem = _
      rw [Press.pops_caseMem]
      simp [Press.stored, hs]
    rw [case, entered_finLine, get_writeCase_outside wf _ _ (length_fstRow s p hl).le ha, entered_caseMem]

/-- CMOV runs to its end: the lines at xad are those that were at cad, and no other byte changes. -/
theorem cmov_reads (hinv : s.inv = true) (hd : canDispatch s p k uFin) (hl : FinOp.cmov.fieldOk f = true)
    (hc : (s.press p).inCase f.cad = true) (hx : (s.press p).inCase f.xad = true)
    (hn : caseLineOk ((s.press p).addr f.cad) (f.cnt + 1) = true)
    (hm : caseLineOk ((s.press p).addr f.xad) (f.cnt + 1) = true) :
    pressReads (.cmov p k f) finCaseWaits [.freeCount] p s
      ((entered s p k uFin).writeCase ((s.press p).addr f.xad).toNat
        ((s.press p).caseBytes ((s.press p).addr f.cad).toNat ((f.cnt + 1) * 256)))
      fun t => (∀ i, i < (f.cnt + 1) * 256 → (t.press p).caseMem.get (((s.press p).addr f.xad).toNat * 256 + i) =
          (s.press p).caseMem.get (((s.press p).addr f.cad).toNat * 256 + i)) ∧
        ∀ a, a < ((s.press p).addr f.xad).toNat * 256 ∨ (((s.press p).addr f.xad).toNat + f.cnt + 1) * 256 ≤ a →
          (t.press p).caseMem.get a = (s.press p).caseMem.get a := by
  have wf : (entered s p k uFin).caseMem.wf = true := by
    rw [entered_caseMem]
    exact s.inv_caseMem p hinv
  refine pressReads_flagged _ k uFin _ .none finCaseWaits _ (fun ce => ?_) (List.nil_subset _) (List.Subset.refl _)
    (by decide) fun t ht _ => ?_
  · rw [exec_cmov, dispatch_ok hd (by rw [hl, hc, hx]; rfl) rfl (by simp [hn, hm]), State.finFlags_none,
      State.issued_press, entered_addr, entered_addr, entered_caseBytes]
  · have case : (t.press p).caseMem = ((entered s p k uFin).writeCase ((s.press p).addr f.xad).toNat
        ((s.press p).caseBytes ((s.press p).addr f.cad).toNat ((f.cnt + 1) * 256))).caseMem := by
      rw [ht]
      rfl
    rw [case]
    refine ⟨fun i hi => ?_, fun a ha => ?_⟩
    · rw [get_writeCase_within wf _ _ (by simpa using hi), getD_caseBytes _ _ hi]
    · rw [get_writeCase_outside wf _ _ (n := f.cnt + 1) (by simp) ha, entered_caseMem]

end

/-- Settles O11: FLD, FST and CMOV, each by the rule for an instruction that ends and by bytes read after bytes
written. -/
theorem caseMoves : Obligations.CaseMoves := by
  intro s p k f hinv hd
  refine ⟨fun hl hc hn => fld_reads hd hl hc hn, fun hl hc hx hr hn hm => ?_,
    fun hl hc hx hn hm => cmov_reads hinv hd hl hc hx hn hm⟩
  have ends := fst_ends hinv hd hl hc hx hr hn hm
  simp only [Press.stored, entered_finLine, entered_addr, entered_stagingLine] at ends
  exact ends

/-! ## Rows drained (R88, R129, R130) -/

/-- Rows of a drain as converted: elements, scale bytes and events. -/
def State.drainConv (s : State) (p : Nat) (o : DrainOut) (accs : List (List Nat)) :
    List (List Nat × List Nat × NumFlags) :=
  (List.range accs.length).map fun m => s.drainRow p o m (accs.getD m [])

def drainFlags (conv : List (List Nat × List Nat × NumFlags)) : NumFlags := NumFlags.orAll (conv.map fun e => e.2.2)

/-- A press with converted rows sent to a ring. -/
def Press.ringDrained (x : Press) (o : DrainOut) (conv : List (List Nat × List Nat × NumFlags)) : Press :=
  x.enqueueRing ((List.range conv.length).map fun m =>
    (o.vbase + m % 2 ^ o.ring, (conv.getD m ([], [], drainFlags conv)).1))

/-- The lines of converted rows. -/
def drainBytes (o : DrainOut) (conv : List (List Nat × List Nat × NumFlags)) : List Byte :=
  (conv.map fun e => rowBytes o.dfmt e.1).flatten

/-- The scale lines of converted rows. -/
def scaleBytes (conv : List (List Nat × List Nat × NumFlags)) : List Byte :=
  ((List.range ((conv.length + 15) / 16)).map fun g => scaleLine (conv.map fun e => e.2.1) g).flatten

/-- A press with converted rows stored in its case, and frozen where fr says so. -/
def Press.caseDrained (x : Press) (o : DrainOut) (conv : List (List Nat × List Nat × NumFlags)) (fr : Bool) : Press :=
  let y : Press := ({ x with frozen := x.frozen || fr } : Press).writeCase (x.addr o.dad).toNat
    (drainBytes o conv)
  if 2 ≤ o.dfmt && o.dfmt ≤ 6 then y.writeCase (x.addr o.dsad).toNat (scaleBytes conv) else y

def Press.drained (x : Press) (o : DrainOut) (conv : List (List Nat × List Nat × NumFlags)) (fr : Bool) : Press :=
  if o.toRing then x.ringDrained o conv else x.caseDrained o conv fr

@[simp] theorem State.length_drainConv (s : State) (p : Nat) (o : DrainOut) (accs : List (List Nat)) :
    (s.drainConv p o accs).length = accs.length := by simp [State.drainConv]

theorem State.drainRows_eq (s : State) (p : Nat) (o : DrainOut) (accs : List (List Nat)) :
    s.drainRows p o accs =
      (s.setPress p ((s.press p).drained o (s.drainConv p o accs) (s.caseFreeze accs.length))).finFlags p
        (drainFlags (s.drainConv p o accs)) := by
  unfold Press.drained Press.ringDrained Press.caseDrained drainBytes scaleBytes
  rw [State.length_drainConv]
  rfl

theorem State.drainConv_congr {s t : State} {p : Nat} (hk : (t.press p).keys = (s.press p).keys)
    (hi : (t.press p).idx = (s.press p).idx) (ha : t.active = s.active)
    (he : ∀ f, t.rd .modFormeEditionEdition 0 f = s.rd .modFormeEditionEdition 0 f) (o : DrainOut)
    (accs : List (List Nat)) : t.drainConv p o accs = s.drainConv p o accs := by
  simp only [State.drainConv, State.drainRow, State.rmode_congr hk hi ha he]

section
variable {fs : List Field} {ps : List Part} {p : Nat} {s t : State} {o : DrainOut} {accs : List (List Nat)}

/-- What a drain leaves of its press, after what leaves keys, indices and editions as they were. -/
theorem State.drainRows_press (h : onlyPress fs ps p s t) (hk : (t.press p).keys = (s.press p).keys)
    (hi : (t.press p).idx = (s.press p).idx) (hf : .modFormeEditionEdition ∉ fs) (ha : .active ∉ ps) :
    (t.drainRows p o accs).press p =
      (t.press p).drained o (s.drainConv p o accs) (t.caseFreeze accs.length) := by
  rw [State.drainRows_eq, State.finFlags_press, State.press_setPress, if_pos rfl,
    State.drainConv_congr hk hi (h.1.2 .active (by simpa using ha)) fun g => h.1.1 _ 0 g hf]

theorem State.drainRows_only (h : onlyPress fs ps p s t) (hp : .presses ∉ ps) (hf : finFields ⊆ fs) :
    onlyPress fs ps p s (t.drainRows p o accs) := by
  rw [State.drainRows_eq]
  exact (h.setPress _).finFlags hp _ (List.Subset.trans (NumFlags.fields_subset _) hf)

theorem State.drainRows_rd (g : Field) (i j : Nat) (hg : g ∉ finFields) :
    (t.drainRows p o accs).rd g i j = t.rd g i j := by
  rw [State.drainRows_eq, State.finFlags_rd_ne _ _ _ _ _ _ hg, State.rd_setPress]

theorem State.caseFreeze_congr (h : t.freeCount = s.freeCount) (n : Nat) : t.caseFreeze n = s.caseFreeze n := by
  unfold State.caseFreeze
  rw [h]

end

/-- A drain moves the case, the vector registers, the ring's own state and the freeze alone. -/
theorem Press.drained_only (x : Press) (o : DrainOut) (conv : List (List Nat × List Nat × NumFlags)) (fr : Bool) :
    x.drained o conv fr = { x with
      caseMem := (x.drained o conv fr).caseMem, vregs := (x.drained o conv fr).vregs,
      ringValid := (x.drained o conv fr).ringValid, drainQ := (x.drained o conv fr).drainQ,
      frozen := (x.drained o conv fr).frozen } := by
  unfold Press.drained
  split
  · unfold Press.ringDrained Press.enqueueRing Press.settle
    rw [Press.settleFrom_only]
  · unfold Press.caseDrained
    dsimp only
    split <;> rfl

theorem Press.drained_array (x : Press) (o : DrainOut) (conv : List (List Nat × List Nat × NumFlags)) (fr : Bool) :
    (x.drained o conv fr).live = x.live ∧ (x.drained o conv fr).shadow = x.shadow ∧
      (x.drained o conv fr).carry = x.carry := by
  rw [Press.drained_only]
  exact ⟨rfl, rfl, rfl⟩

section
variable {x : Press} {o : DrainOut} {conv : List (List Nat × List Nat × NumFlags)} {fr : Bool}

theorem Press.drained_caseMem (ho : o.toRing = true) : (x.drained o conv fr).caseMem = x.caseMem := by
  rw [Press.drained, if_pos ho, Press.ringDrained, Press.enqueueRing, Press.settle, Press.settleFrom_only]

theorem Press.drained_of_case (ho : o.toRing = false) : x.drained o conv fr = x.caseDrained o conv fr := by
  rw [Press.drained, if_neg (by simp [ho])]

theorem Press.drained_vregs (ho : o.toRing = false) : (x.drained o conv fr).vregs = x.vregs := by
  rw [Press.drained_of_case ho, Press.caseDrained]
  split <;> rfl

theorem length_flatten_map {α β : Type} {l : List α} {g : α → List β} {c : Nat} (h : ∀ e ∈ l, (g e).length = c) :
    (l.map g).flatten.length = l.length * c := by
  rw [List.length_flatten, List.map_map, List.map_congr_left (g := fun _ => c) (by simpa using h),
    List.map_const', List.sum_replicate, smul_eq_mul]

/-- Rows of one length put end to end are read row by row. -/
theorem getD_flatten_map {α β : Type} {l : List α} {g : α → List β} {c : Nat} (h : ∀ e ∈ l, (g e).length = c) (d : β)
    {m i : Nat} (hm : m < l.length) (hi : i < c) :
    (l.map g).flatten.getD (c * m + i) d = (g l[m]).getD i d := by
  induction l generalizing m with
  | nil => exact absurd hm (Nat.not_lt_zero _)
  | cons e l ih =>
    have head : (g e).length = c := h e (List.mem_cons_self ..)
    cases m with
    | zero =>
      rw [List.map_cons, List.flatten_cons, List.getD_append _ _ _ _ (by omega)]
      simp
    | succ m =>
      rw [List.map_cons, List.flatten_cons, List.getD_append_right _ _ _ _ (by rw [head, Nat.mul_succ]; omega), head,
        show c * (m + 1) + i - c = c * m + i by rw [Nat.mul_succ]; omega]
      exact ih (fun a ha => h a (List.mem_cons_of_mem _ ha)) (by simpa using hm)

theorem length_scaleLine {scs : List (List Nat)} (h : ∀ bs ∈ scs, bs.length = 16) (g : Nat) :
    (scaleLine scs g).length = 256 := by
  unfold scaleLine
  rw [length_flatten_map (c := 16)]
  · simp
  · intro r _
    split
    case h_1 bs hb => simp [h bs (List.mem_of_getElem? hb)]
    case h_2 => simp

theorem length_scaleBytes (h : ∀ e ∈ conv, e.2.1.length = 16) :
    (scaleBytes conv).length = (conv.length + 15) / 16 * 256 := by
  unfold scaleBytes
  rw [length_flatten_map (c := 256)]
  · simp
  · exact fun g _ => length_scaleLine (fun bs hb => by
      obtain ⟨e, he, rfl⟩ := List.mem_map.mp hb
      exact h e he) g

/-- The rows fill their lines, and their scale bytes theirs. -/
def drainFits (o : DrainOut) (conv : List (List Nat × List Nat × NumFlags)) : Prop :=
  o.dfmt ≤ 7 ∧ ∀ e ∈ conv, e.1.length = 512 ∧ ((2 ≤ o.dfmt && o.dfmt ≤ 6) = true → e.2.1.length = 16)

theorem drainFits_drainConv (s : State) (p : Nat) {o : DrainOut} (ho : o.dfmt ≤ 7) {accs : List (List Nat)}
    (ha : ∀ r ∈ accs, r.length = 512) : drainFits o (s.drainConv p o accs) := by
  refine ⟨ho, fun e he => ?_⟩
  obtain ⟨m, hm, rfl⟩ := List.mem_map.mp he
  have row : (accs.getD m []).length = 512 := by
    rw [List.getD_eq_getElem _ _ (List.mem_range.mp hm)]
    exact ha _ (List.getElem_mem _)
  unfold State.drainRow
  split
  case isTrue h => exact ⟨row, fun hm => absurd hm (by simp [h])⟩
  case isFalse =>
    obtain ⟨f, hf, mx⟩ : ∃ f, Fmt.ofCode o.dfmt = some f ∧ ((2 ≤ o.dfmt && o.dfmt ≤ 6) = true → f.isMx = true) := by
      generalize o.dfmt = n at ho
      interval_cases n <;> exact ⟨_, rfl, by decide⟩
    have len := length_convertRow o.sat hf
      (rs := (List.range 512).map fun n => s.rmode p o.rmode o.key m n)
      (vs := (accs.getD m []).map a56Val) (by simp) (by rw [List.length_map, row])
    exact ⟨len.1, fun hm => by rw [len.2, if_pos (mx hm)]⟩

theorem length_drainBytes (h : drainFits o conv) :
    (drainBytes o conv).length = conv.length * (dPitch o.dfmt * 256) :=
  length_flatten_map fun e he => length_rowBytes h.1 (h.2 e he).1

/-- No byte of the case changes outside the lines of a drain. -/
theorem Press.get_drained_outside (ho : o.toRing = false) (hw : x.caseMem.wf = true) (h : drainFits o conv) {a : Nat}
    (ha : ∀ e ∈ drainLines o x conv.length, a < e.1.toNat * 256 ∨ (e.1.toNat + e.2) * 256 ≤ a) :
    (x.drained o conv fr).caseMem.get a = x.caseMem.get a := by
  rw [Press.drained_of_case ho]
  simp only [drainLines, ho, Bool.false_eq_true, if_false, List.forall_mem_cons] at ha
  obtain ⟨rows, scales⟩ := ha
  have stored := get_writeCase_outside (x := { x with frozen := x.frozen || fr }) hw (x.addr o.dad).toNat
    (drainBytes o conv) (n := conv.length * dPitch o.dfmt)
    (by rw [length_drainBytes h, Nat.mul_assoc]) rows
  unfold Press.caseDrained
  dsimp only
  split
  case isFalse => exact stored
  case isTrue mx =>
    rw [get_writeCase_outside (Memory.wf_write _ _ _ hw) _ _ (n := (conv.length + 15) / 16)
      (by rw [length_scaleBytes fun e he => (h.2 e he).2 mx]) (by simpa [mx] using scales)]
    exact stored

/-- Row m of a drain in A56 stands in its 16 lines. -/
theorem Press.get_drained_a56 (ho : o.toRing = false) (hw : x.caseMem.wf = true) (h : drainFits o conv)
    (hf : o.dfmt = 7) {m i : Nat} (hm : m < conv.length) (hi : i < 4096) :
    (x.drained o conv fr).caseMem.get (((x.addr o.dad).toNat + 16 * m) * 256 + i) =
      (rowBytes 7 conv[m].1).getD i 0 := by
  have fits : ∀ e ∈ conv, (rowBytes o.dfmt e.1).length = 4096 := fun e he => by
    rw [length_rowBytes h.1 (h.2 e he).1, hf]
    rfl
  have place : ((x.addr o.dad).toNat + 16 * m) * 256 + i = (x.addr o.dad).toNat * 256 + (4096 * m + i) := by omega
  rw [Press.drained_of_case ho, Press.caseDrained, if_neg (by simp [hf]), place,
    get_writeCase_within (x := { x with frozen := x.frozen || fr }) hw, drainBytes, getD_flatten_map fits 0 hm hi, hf]
  rw [drainBytes, length_flatten_map fits]
  omega

/-- What a drain from the press z of rows to o leaves of the case and the lanes of x. -/
def drainKeeps (x : Press) (o : DrainOut) (n : Nat) (y : Press) : Prop :=
  (o.toRing = true → y.caseMem = x.caseMem) ∧
  (o.toRing = false → y.vregs = x.vregs ∧
    ∀ a, (∀ e ∈ drainLines o x n, a < e.1.toNat * 256 ∨ (e.1.toNat + e.2) * 256 ≤ a) →
      y.caseMem.get a = x.caseMem.get a)

theorem drainLines_congr {x z : Press} (h : z.addr = x.addr) (o : DrainOut) (n : Nat) :
    drainLines o z n = drainLines o x n := by
  unfold drainLines
  rw [h]

theorem drainKeeps_drained {x z : Press} {o : DrainOut} {conv : List (List Nat × List Nat × NumFlags)} {fr : Bool}
    (ha : z.addr = x.addr) (hm : z.caseMem = x.caseMem) (hv : z.vregs = x.vregs) (hw : x.caseMem.wf = true)
    (h : drainFits o conv) : drainKeeps x o conv.length (z.drained o conv fr) := by
  refine ⟨fun ho => (Press.drained_caseMem ho).trans hm, fun ho => ⟨(Press.drained_vregs ho).trans hv, fun a out => ?_⟩⟩
  rw [Press.get_drained_outside ho (hm ▸ hw) h (by rwa [drainLines_congr ha]), hm]

end

/-! ## PASS (R128) -/

theorem DrainOut.dfmt_le {o : DrainOut} (h : o.fieldOk = true) : o.dfmt ≤ 7 := by
  simp only [DrainOut.fieldOk, Bool.and_eq_true, decide_eq_true_eq] at h
  tauto

/-- What a drain rests on, or leaves alone, is after an issue to the array as before it. -/
theorem running_same (s : State) (p : Nat) (k : Tok) (r : ArrRun) :
    let x := s.press p
    let y := (entered s p k uArr).running r
    y.addr = x.addr ∧ y.keys = x.keys ∧ y.idx = x.idx ∧ y.caseMem = x.caseMem ∧ y.vregs = x.vregs ∧
      y.carry = x.carry ∧ y.live = x.live ∧ y.shadow = x.shadow ∧ y.frozen = x.frozen := by
  dsimp only
  rw [entered_only]
  exact ⟨rfl, rfl, rfl, rfl, rfl, rfl, rfl, rfl, rfl⟩

/-- The rows of a PASS with their events. -/
def passFolds (s : State) (p : Nat) (f : PassF) : List (List Nat × NumFlags) :=
  passRows (s.press p) ((s.press p).passTile f.swap) s.freeCount f

/-- The press that a PASS leaves, before its rows drain. -/
def passedPress (s : State) (p : Nat) (k : Tok) (f : PassF) : Press :=
  let x := s.press p
  { (entered s p k uArr).running (s.passRun p f) with
    gated := false, live := x.passTile f.swap, shadow := if f.swap then x.shadow.drop 1 else x.shadow,
    carry := if f.foot = 0 then x.carry else putCarry x.carry 0 ((passFolds s p f).map Prod.fst) }

/-- The free values drawn before a PASS drains: one more where a strip holds no defined weight. -/
def drawnAtDrain (s : State) (p : Nat) (f : PassF) : Nat :=
  if ((s.press p).passTile f.swap).undefBelow f.strips then s.freeCount + 1 else s.freeCount

/-- The state with that press and the events shown, before the rows drain. -/
def State.passed (s : State) (p : Nat) (k : Tok) (f : PassF) : State :=
  ((if ((s.press p).passTile f.swap).undefBelow f.strips then
      { s.issued p k uArr with freeCount := s.freeCount + 1 } else s.issued p k uArr).setPress p
    (passedPress s p k f)).finFlags p (NumFlags.orAll ((passFolds s p f).map Prod.snd))

/-- The effect of a PASS. -/
def State.passEffect (s : State) (p : Nat) (k : Tok) (f : PassF) : State :=
  if f.foot = 1 then s.passed p k f else (s.passed p k f).drainRows p f.out ((passFolds s p f).map Prod.fst)

/-- The press that a PASS leaves where its rows drain, with n free values drawn before the drain. -/
def passDrained (s : State) (p : Nat) (k : Tok) (f : PassF) (n : Nat) : Press :=
  (passedPress s p k f).drained f.out (s.drainConv p f.out ((passFolds s p f).map Prod.fst))
    ({ s with freeCount := n }.caseFreeze (f.mM1 + 1))

theorem passRun_issued (s : State) (p : Nat) (k : Tok) (f : PassF) :
    (s.issued p k uArr).passRun p f = s.passRun p f := by
  have depth : (s.issued p k uArr).depth p = s.depth p := by
    unfold State.depth
    rw [State.issued_rd _ _ _ _ _ _ _ (by decide)]
  unfold State.passRun State.arrayDepth
  rw [depth, State.issued_press, entered_only]
  rfl

theorem passRows_running (s : State) (p : Nat) (k : Tok) (r : ArrRun) (t : Tile) (n : Nat) (f : PassF) :
    passRows ((entered s p k uArr).running r) t n f = passRows (s.press p) t n f := by
  rw [entered_only]
  rfl

theorem passTile_running (s : State) (p : Nat) (k : Tok) (r : ArrRun) (b : Bool) :
    ((entered s p k uArr).running r).passTile b = (s.press p).passTile b := by
  rw [entered_only]
  rfl

section
variable {s : State} {p : Nat} {k : Tok} {f : PassF}

@[simp] theorem length_passFolds : (passFolds s p f).length = f.mM1 + 1 := by simp [passFolds, passRows]

theorem length_of_mem_passFolds {r : List Nat} (h : r ∈ (passFolds s p f).map Prod.fst) : r.length = 512 := by
  simp only [passFolds, passRows, List.map_map, List.mem_map] at h
  obtain ⟨m, -, rfl⟩ := h
  simp [passRow]

/-- What a drain rests on, or leaves alone, is after the folds as before the instruction. -/
theorem passedPress_same : (passedPress s p k f).addr = (s.press p).addr ∧
    (passedPress s p k f).keys = (s.press p).keys ∧ (passedPress s p k f).idx = (s.press p).idx ∧
    (passedPress s p k f).caseMem = (s.press p).caseMem ∧ (passedPress s p k f).vregs = (s.press p).vregs ∧
    (passedPress s p k f).frozen = (s.press p).frozen := by
  obtain ⟨addr, keys, idx, case, vregs, -, -, -, frozen⟩ := running_same s p k (s.passRun p f)
  exact ⟨addr, keys, idx, case, vregs, frozen⟩

theorem State.passed_press : (s.passed p k f).press p = passedPress s p k f := by
  rw [State.passed, State.finFlags_press, State.press_setPress, if_pos rfl]

theorem State.passed_freeCount : (s.passed p k f).freeCount = drawnAtDrain s p f := by
  rw [State.passed, State.finFlags_only, drawnAtDrain]
  dsimp only [State.setPress]
  split <;> rfl

/-- A PASS, before its rows drain, moves its press, its flags, the reason of a hold and the count of free values. -/
theorem State.passed_only : onlyPress (.prsSeqStatusHold :: finFields) [.freeCount] p s (s.passed p k f) := by
  have issued : onlyPress (.prsSeqStatusHold :: finFields) [.freeCount] p s (s.issued p k uArr) :=
    (s.issued_hold_only p k uArr).mono (by simp) (List.nil_subset _)
  have drawn : onlyPress (.prsSeqStatusHold :: finFields) [.freeCount] p s
      { s.issued p k uArr with freeCount := s.freeCount + 1 } :=
    ⟨issued.1.parts rfl fun q hq => by cases q <;> first | rfl | exact absurd (by decide) hq, issued.2⟩
  refine onlyPress.finFlags (onlyPress.setPress ?_ _) (by decide) _
    (List.Subset.trans (NumFlags.fields_subset _) (List.subset_cons_self ..))
  split
  · exact drawn
  · exact issued

theorem State.passed_hold : (s.passed p k f).rd .prsSeqStatusHold p 0 = 0 := by
  rw [State.passed, State.finFlags_rd_ne _ _ _ _ _ _ (by decide), State.rd_setPress]
  split <;> exact s.issued_hold p k uArr

theorem State.passEffect_only : onlyPress (.prsSeqStatusHold :: finFields) [.freeCount] p s (s.passEffect p k f) := by
  unfold State.passEffect
  split
  · exact State.passed_only
  · exact State.drainRows_only State.passed_only (by decide) (List.subset_cons_self ..)

theorem State.passEffect_hold : (s.passEffect p k f).rd .prsSeqStatusHold p 0 = 0 := by
  unfold State.passEffect
  split
  · exact State.passed_hold
  · rw [State.drainRows_rd _ _ _ (by decide), State.passed_hold]

theorem State.passEffect_press_carry (hf : f.foot = 1) : (s.passEffect p k f).press p = passedPress s p k f := by
  rw [State.passEffect, if_pos hf, State.passed_press]

theorem State.passEffect_press_drain (hf : f.foot ≠ 1) :
    (s.passEffect p k f).press p = passDrained s p k f (drawnAtDrain s p f) := by
  obtain ⟨-, keys, idx, -⟩ := passedPress_same (s := s) (p := p) (k := k) (f := f)
  rw [State.passEffect, if_neg hf, State.drainRows_press State.passed_only (State.passed_press.symm ▸ keys)
    (State.passed_press.symm ▸ idx) (by decide) (by decide), State.passed_press, List.length_map, length_passFolds]
  exact congrArg _ (State.caseFreeze_congr State.passed_freeCount _)

theorem exec_pass (hd : canDispatch s p k uArr) (hl : passLegal (s.press p) f (s.depth p) = true)
    (hn : ((passLines (s.press p) f ++ if f.foot = 1 then [] else drainLines f.out (s.press p) (f.mM1 + 1)).all
      fun e => caseLineOk e.1 e.2) = true) (ce : List Nat) :
    exec (.pass p k f none ce) s =
      .next ((((s.passEffect p k f).caseCes p ce).stalled p (passWaits (s.press p) f)).advance p) := by
  have unfolded : exec (.pass p k f none ce) s = execPass p k f none ce s := rfl
  obtain ⟨-, -, -, -, -, carry, -, shadow, -⟩ := running_same s p k (s.passRun p f)
  rw [unfolded, execPass, dispatch_ok hd hl rfl hn]
  simp only [State.issued_press, passRun_issued, passTile_running, passRows_running]
  unfold State.passEffect State.passed passedPress passFolds
  dsimp only
  rw [← carry, ← shadow]
  rfl

theorem passWaits_subset (x : Press) (f : PassF) : passWaits x f ⊆ arrWaits := by
  unfold passWaits
  refine List.append_subset.mpr ⟨List.append_subset.mpr ⟨by decide, ?_⟩, ?_⟩ <;> split <;> decide

/-- A PASS whose foot is the carry file runs to its end; the case and the lanes stay. -/
theorem pass_reads (hd : canDispatch s p k uArr) (hl : passLegal (s.press p) f (s.depth p) = true)
    (hn : ((passLines (s.press p) f ++ if f.foot = 1 then [] else drainLines f.out (s.press p) (f.mM1 + 1)).all
      fun e => caseLineOk e.1 e.2) = true) (hf : f.foot = 1) :
    pressReads (.pass p k f none) (arrWaits ++ finFields) [.freeCount] p s (passedPress s p k f) fun t =>
      (t.press p).caseMem = (s.press p).caseMem ∧ (t.press p).vregs = (s.press p).vregs := by
  obtain ⟨-, -, -, case, vregs, -⟩ := passedPress_same (s := s) (p := p) (k := k) (f := f)
  have kept (t : State) (ht : t.press p = movedOn s p (passedPress s p k f)) :
      (t.press p).caseMem = (s.press p).caseMem ∧ (t.press p).vregs = (s.press p).vregs := by
    rw [ht]
    exact ⟨case, vregs⟩
  have press := State.passEffect_press_carry (s := s) (p := p) (k := k) hf
  constructor
  · exact pressEnds_counted _ _ _ finFields [] _ _ (exec_pass hd hl hn []) press State.passEffect_hold
      State.passEffect_only (List.Subset.refl _) (List.subset_append_right ..)
      (List.Subset.trans (passWaits_subset ..) (List.subset_append_left ..)) (passWaits_subset ..) (by decide)
      (by decide) (.inl rfl) fun t ht _ _ _ _ => kept t ht
  · intro w ce
    exact pressEnds_counted _ _ _ finFields (w :: ce) _ _ (exec_pass hd hl hn _) press State.passEffect_hold
      (State.passEffect_only.mono (List.Subset.refl _) (by decide)) (List.Subset.refl _) (by decide)
      (List.Subset.trans (passWaits_subset ..) (by decide)) (passWaits_subset ..) (by decide) (by decide)
      (.inr ⟨List.subset_append_left .., by decide⟩) fun t ht _ _ _ hc => ⟨kept t ht, hc w ce rfl⟩

/-- A PASS whose rows drain runs to its end. -/
theorem pass_drains (hd : canDispatch s p k uArr) (hl : passLegal (s.press p) f (s.depth p) = true)
    (hn : ((passLines (s.press p) f ++ if f.foot = 1 then [] else drainLines f.out (s.press p) (f.mM1 + 1)).all
      fun e => caseLineOk e.1 e.2) = true) (hf : f.foot ≠ 1) (ce : List Nat) :
    ∃ t, Runs (.pass p k f none ce) s t ∧ t.press p = movedOn s p (passDrained s p k f (drawnAtDrain s p f)) ∧
      (ce = [] → t.rd .caseCeCountCount p 0 = s.rd .caseCeCountCount p 0) ∧
      onlyPress (seqFields ++ arrWaits ++ ceFields ++ finFields) [.ceLog, .repairMap, .freeCount] p s t := by
  have ends : pressEnds (.pass p k f none ce) (arrWaits ++ (ceFields ++ finFields)) ceParts p s
      (passDrained s p k f (drawnAtDrain s p f)) fun t =>
        ce = [] → t.rd .caseCeCountCount p 0 = s.rd .caseCeCountCount p 0 :=
    pressEnds_counted _ _ _ finFields ce _ _ (exec_pass hd hl hn ce) (State.passEffect_press_drain hf)
      State.passEffect_hold (State.passEffect_only.mono (List.Subset.refl _) (by decide)) (List.Subset.refl _)
      (by decide) (List.Subset.trans (passWaits_subset ..) (List.subset_append_left ..)) (passWaits_subset ..)
      (by decide) (by decide) (.inr ⟨by decide, List.Subset.refl _⟩) fun _ _ _ _ count _ => count
  obtain ⟨t, runs, press, -, -, count, only⟩ := ends
  exact ⟨t, runs, press, count, only.mono (by decide) (List.Subset.refl _)⟩

theorem dfmt_of_passLegal {x : Press} {d : Nat} (h : passLegal x f d = true) (hf : f.foot ≠ 1) : f.out.dfmt ≤ 7 := by
  simp only [passLegal, PassF.fieldOk, hf, if_false, Bool.and_eq_true] at h
  exact DrainOut.dfmt_le (by tauto)

theorem drainKeeps_passDrained (hinv : s.inv = true) (ho : f.out.dfmt ≤ 7) (n : Nat) :
    drainKeeps (s.press p) f.out (f.mM1 + 1) (passDrained s p k f n) := by
  obtain ⟨addr, -, -, case, vregs, -⟩ := passedPress_same (s := s) (p := p) (k := k) (f := f)
  have fits := drainFits_drainConv s p ho (accs := (passFolds s p f).map Prod.fst) fun r hr =>
    length_of_mem_passFolds hr
  have kept := drainKeeps_drained (fr := { s with freeCount := n }.caseFreeze (f.mM1 + 1)) addr case vregs
    (s.inv_caseMem p hinv) fits
  rwa [State.length_drainConv, List.length_map, length_passFolds] at kept

/-- A drain to the case freezes by the last free value drawn before it. -/
theorem passDrained_frozen (ho : f.out.toRing = false) (n : Nat) :
    (passDrained s p k f n).frozen = ((s.press p).frozen || { s with freeCount := n }.caseFreeze (f.mM1 + 1)) := by
  obtain ⟨-, -, -, -, -, frozen⟩ := passedPress_same (s := s) (p := p) (k := k) (f := f)
  rw [← frozen, passDrained, Press.drained_of_case ho, Press.caseDrained]
  split <;> rfl

/-- The rows of a PASS drained where no free value has been drawn for its weights. -/
theorem passedPress_drainRows :
    (((s.issued p k uArr).setPress p (passedPress s p k f)).drainRows p f.out
      ((passFolds s p f).map Prod.fst)).press p = passDrained s p k f s.freeCount := by
  obtain ⟨-, keys, idx, -⟩ := passedPress_same (s := s) (p := p) (k := k) (f := f)
  have press : ((s.issued p k uArr).setPress p (passedPress s p k f)).press p = passedPress s p k f := by
    rw [State.press_setPress, if_pos rfl]
  rw [State.drainRows_press ((s.issued_hold_only p k uArr).setPress _) (press.symm ▸ keys) (press.symm ▸ idx)
    (by decide) (by decide), press, List.length_map, length_passFolds]
  rfl

end

/-! ## DRAIN (R131) -/

/-- The carry entries that a DRAIN places. -/
def drainOut (s : State) (p : Nat) (f : DrainF) : List (List Nat) :=
  (List.range (f.mM1 + 1)).map fun i => (s.press p).carryRow (f.m0 + i)

/-- The effect of a DRAIN. -/
def State.drainEffect (s : State) (p : Nat) (k : Tok) (f : DrainF) : State :=
  ((s.issued p k uArr).setPress p ((entered s p k uArr).running (drainRun f))).drainRows p f.out (drainOut s p f)

/-- The press that a DRAIN leaves. -/
def drainDrained (s : State) (p : Nat) (k : Tok) (f : DrainF) : Press :=
  ((entered s p k uArr).running (drainRun f)).drained f.out (s.drainConv p f.out (drainOut s p f))
    (s.caseFreeze (f.mM1 + 1))

theorem length_carryRow (x : Press) (m : Nat) : (x.carryRow m).length = 512 := by
  unfold Press.carryRow
  split
  · simp [lanes512]
  · split
    · exact List.length_replicate
    · simp

section
variable {s : State} {p : Nat} {k : Tok} {f : DrainF}

@[simp] theorem length_drainOut : (drainOut s p f).length = f.mM1 + 1 := by simp [drainOut]

theorem drainFits_drainOut (hl : f.fieldOk = true) : drainFits f.out (s.drainConv p f.out (drainOut s p f)) :=
  drainFits_drainConv s p (DrainOut.dfmt_le hl) fun r hr => by
    obtain ⟨i, -, rfl⟩ := List.mem_map.mp hr
    exact length_carryRow _ _

theorem State.drainEffect_press : (s.drainEffect p k f).press p = drainDrained s p k f := by
  obtain ⟨-, keys, idx, -⟩ := running_same s p k (drainRun f)
  have press : ((s.issued p k uArr).setPress p ((entered s p k uArr).running (drainRun f))).press p =
      (entered s p k uArr).running (drainRun f) := by
    rw [State.press_setPress, if_pos rfl]
  rw [State.drainEffect, State.drainRows_press ((s.issued_hold_only p k uArr).setPress _) (press.symm ▸ keys)
    (press.symm ▸ idx) (by decide) (by decide), press, length_drainOut]
  rfl

theorem exec_drain (hd : canDispatch s p k uArr) (hl : f.fieldOk = true) (hm : f.m0 + f.mM1 + 1 ≤ 1024)
    (ho : drainSpaceOk f.out (s.press p) = true)
    (hn : ((drainLines f.out (s.press p) (f.mM1 + 1)).all fun e => caseLineOk e.1 e.2) = true) :
    exec (.drain p k f) s =
      .next ((((s.drainEffect p k f).caseCes p []).stalled p (drainWaits (s.press p) f)).advance p) := by
  have carry (m : Nat) : (entered s p k uArr).carryRow m = (s.press p).carryRow m := by
    rw [entered_only]
    rfl
  have unfolded : exec (.drain p k f) s = execDrain p k f s := rfl
  rw [unfolded, execDrain, dispatch_ok hd (by simp [hl, hm, ho]) rfl hn, State.caseCes_nil]
  simp only [State.issued_press, carry]
  rfl

theorem drainWaits_subset (x : Press) : drainWaits x f ⊆ arrWaits := by
  unfold drainWaits
  refine List.append_subset.mpr ⟨by decide, ?_⟩
  split <;> decide

/-- A DRAIN runs to its end. -/
theorem drain_ends (hd : canDispatch s p k uArr) (hl : f.fieldOk = true) (hm : f.m0 + f.mM1 + 1 ≤ 1024)
    (ho : drainSpaceOk f.out (s.press p) = true)
    (hn : ((drainLines f.out (s.press p) (f.mM1 + 1)).all fun e => caseLineOk e.1 e.2) = true) :
    pressEnds (.drain p k f) (arrWaits ++ finFields) [.freeCount] p s (drainDrained s p k f) fun _ => True := by
  refine pressEnds_counted _ _ _ finFields [] _ _ (exec_drain hd hl hm ho hn) State.drainEffect_press ?_ ?_
    (List.Subset.refl _) (List.subset_append_right ..)
    (List.Subset.trans (drainWaits_subset _) (List.subset_append_left ..)) (drainWaits_subset _) (by decide)
    (by decide) (.inl rfl) fun _ _ _ _ _ _ => trivial
  · rw [State.drainEffect, State.drainRows_rd _ _ _ (by decide), State.rd_setPress, State.issued_hold]
  · exact State.drainRows_only (((s.issued_hold_only p k uArr).setPress _).mono (by simp) (List.nil_subset _))
      (by decide) (List.subset_cons_self ..)

theorem drainKeeps_drainDrained (hinv : s.inv = true) (hl : f.fieldOk = true) :
    drainKeeps (s.press p) f.out (f.mM1 + 1) (drainDrained s p k f) := by
  obtain ⟨addr, -, -, case, vregs, -⟩ := running_same s p k (drainRun f)
  have kept := drainKeeps_drained (fr := s.caseFreeze (f.mM1 + 1)) addr case vregs (s.inv_caseMem p hinv)
    (drainFits_drainOut (s := s) (p := p) hl)
  rwa [State.length_drainConv, length_drainOut] at kept

theorem get_drainDrained (hinv : s.inv = true) (hl : f.fieldOk = true) (ho : f.out.toRing = false)
    (hf : f.out.dfmt = 7) {m i : Nat} (hm : m < f.mM1 + 1) (hi : i < 4096) :
    (drainDrained s p k f).caseMem.get ((((s.press p).addr f.out.dad).toNat + 16 * m) * 256 + i) =
      (rowBytes 7 ((drainOut s p f).getD m [])).getD i 0 := by
  obtain ⟨addr, -, -, case, -⟩ := running_same s p k (drainRun f)
  have place : m < (s.drainConv p f.out (drainOut s p f)).length := by simpa using hm
  rw [drainDrained, ← addr, Press.get_drained_a56 ho (case ▸ s.inv_caseMem p hinv) (drainFits_drainOut hl) hf place hi]
  simp [State.drainConv, State.drainRow, hf]

end

/-! ## What O13 rests on

O13 takes the freeze of a PASS that drains to the case (R88, log entry 37) from the free value that stands for
weights not defined (log entry 1); the model draws the next free value for it. So O13 holds if and only if the lowest
bits of the free values are all alike, which nothing in the model says, and which nothing refutes. -/

/-- A press whose array holds a BF16 tile with no strip defined. -/
def unloadedPress : Press := { Press.init with live := ⟨1, []⟩ }

/-- Press 0 ACTIVE with no strip of weights defined, after n free values have been drawn. -/
def unloadedAt (n : Nat) : State :=
  { (State.reset.wr .prsStatusState 0 0 pActive).setPress 0 unloadedPress with freeCount := n }

/-- A PASS of 33 rows of BF16 through 16 strips to the case, in FP32. -/
def pass33 : PassF := ⟨1, 16, 32, false, 0, 0, 0, 0, ⟨0, 0, false, false, 0, 0, 0, 0, 0⟩⟩

theorem canDispatch_unloadedAt (n : Nat) : canDispatch (unloadedAt n) 0 ⟨false, 0, false, 0⟩ uArr :=
  ⟨by decide, rfl, fun e => absurd e (by decide), rfl⟩

/-- O13 takes the freeze from the free values drawn before the instruction, whatever the pass draws. -/
theorem caseFreeze_of_passFoldsRows (h : Obligations.PassFoldsRows) {s : State} {p : Nat} {k : Tok} {f : PassF}
    (inv : s.inv = true) (hd : canDispatch s p k uArr) (hl : passLegal (s.press p) f (s.depth p) = true)
    (hn : ((passLines (s.press p) f ++ if f.foot = 1 then [] else drainLines f.out (s.press p) (f.mM1 + 1)).all
      fun e => caseLineOk e.1 e.2) = true) (hf : f.foot ≠ 1) (ho : f.out.toRing = false)
    (thawed : (s.press p).frozen = false) :
    s.caseFreeze (f.mM1 + 1) = { s with freeCount := drawnAtDrain s p f }.caseFreeze (f.mM1 + 1) := by
  obtain ⟨-, -, cased⟩ := (h s p k inv hd).1 f hl hn
  obtain ⟨t, runs, said, -⟩ := cased hf []
  obtain ⟨u, ran, press, -⟩ := pass_drains hd hl hn hf []
  obtain rfl : t = u := Host.Outcome.next.inj (runs.symm.trans ran)
  have stated := said.trans (congrArg (movedOn s p) passedPress_drainRows)
  have moved : (movedOn s p (passDrained s p k f (drawnAtDrain s p f))).frozen =
      (movedOn s p (passDrained s p k f s.freeCount)).frozen := congrArg Press.frozen (press.symm.trans stated)
  have same : (passDrained s p k f (drawnAtDrain s p f)).frozen = (passDrained s p k f s.freeCount).frozen := moved
  rw [passDrained_frozen ho, passDrained_frozen ho, thawed, Bool.false_or, Bool.false_or] at same
  exact same.symm

theorem parity_of_passFoldsRows (h : Obligations.PassFoldsRows) (n : Nat) :
    Config.freeValue n % 2 = 1 ↔ Config.freeValue (n + 1) % 2 = 1 := by
  have inv : (unloadedAt 0).inv = true := by decide
  have legal : passLegal unloadedPress pass33 16 = true := by decide
  have lines : ((passLines unloadedPress pass33 ++ drainLines pass33.out unloadedPress 33).all fun e =>
      caseLineOk e.1 e.2) = true := by decide
  have undef : (unloadedPress.passTile false).undefBelow 16 = true := by decide
  have drawn : drawnAtDrain (unloadedAt n) 0 pass33 = n + 1 := if_pos undef
  have freeze := caseFreeze_of_passFoldsRows (s := unloadedAt n) h inv (canDispatch_unloadedAt n) legal lines
    (by decide) rfl rfl
  rw [drawn] at freeze
  have bit (m : Nat) : (unloadedAt m).caseFreeze 33 = decide (Config.freeValue m % 2 = 1) := rfl
  exact decide_eq_decide.mp ((bit n).symm.trans (freeze.trans (bit (n + 1))))

theorem passFoldsRows_of_parity (h : ∀ n, Config.freeValue n % 2 = 1 ↔ Config.freeValue (n + 1) % 2 = 1) :
    Obligations.PassFoldsRows := by
  intro s p k hinv hd
  refine ⟨fun f hl hn => ⟨by simp [passRows], fun hf => pass_reads hd hl hn hf, fun hf ce => ?_⟩,
    fun f hl hm ho hn => ?_⟩
  · obtain ⟨t, runs, press, count, only⟩ := pass_drains hd hl hn hf ce
    obtain ⟨ring, case⟩ := drainKeeps_passDrained (p := p) (k := k) hinv (dfmt_of_passLegal hl hf) s.freeCount
    have drawn : passDrained s p k f (drawnAtDrain s p f) = passDrained s p k f s.freeCount := by
      unfold drawnAtDrain
      split
      case isFalse => rfl
      case isTrue => simp [passDrained, State.caseFreeze, h s.freeCount]
    obtain ⟨live, shadow, carry⟩ : (passDrained s p k f s.freeCount).live = (passedPress s p k f).live ∧
        (passDrained s p k f s.freeCount).shadow = (passedPress s p k f).shadow ∧
        (passDrained s p k f s.freeCount).carry = (passedPress s p k f).carry := Press.drained_array ..
    rw [drawn] at press
    refine ⟨t, runs, press.trans (congrArg _ passedPress_drainRows.symm), ?_, ?_, ?_, count, only, ?_, ?_⟩ <;>
      rw [press]
    · exact live
    · exact shadow
    · exact carry
    · exact ring
    · exact case
  · obtain ⟨t, runs, press, -, -, -, only⟩ := drain_ends hd hl hm ho hn
    obtain ⟨ring, case⟩ := drainKeeps_drainDrained (p := p) (k := k) hinv hl
    obtain ⟨-, -, -, -, -, carry, live, -⟩ := running_same s p k (drainRun f)
    have array : (drainDrained s p k f).carry = (s.press p).carry ∧
        (drainDrained s p k f).live = (s.press p).live := by
      obtain ⟨live', -, carry'⟩ := Press.drained_array ((entered s p k uArr).running (drainRun f)) f.out
        (s.drainConv p f.out (drainOut s p f)) (s.caseFreeze (f.mM1 + 1))
      exact ⟨carry'.trans carry, live'.trans live⟩
    refine ⟨t, runs, press.trans (congrArg _ State.drainEffect_press.symm), ?_, ?_, only, ?_, fun hr =>
      ⟨?_, fun hf m i hm hi => ?_, ?_⟩⟩ <;> rw [press]
    · exact array.1
    · exact array.2
    · exact ring
    · exact (case hr).1
    · exact get_drainDrained hinv hl hr hf hm hi
    · exact (case hr).2

/-- O13 is a statement about the free values. -/
theorem passFoldsRows_iff_parity :
    Obligations.PassFoldsRows ↔ ∀ n, Config.freeValue n % 2 = 1 ↔ Config.freeValue (n + 1) % 2 = 1 :=
  ⟨parity_of_passFoldsRows, passFoldsRows_of_parity⟩

end Sys2Proof.Machine

/-!
# The press: array loads, galley transfers, completions and errors

What a word of the array or a galley transfer does where it is illegal, where its lines do not exist and where it runs;
what the events of a press move; what an error sets and what it does to the press's forme.
-/

namespace Sys2Proof.Machine

/-! ## Words that break a rule, and lines that do not exist (R94, R138, R139, R142) -/

section
variable {s : State} {p u : Nat} {k : Tok} {c : Instr} {legal ready : Bool} {lines : List (Int × Nat)}
  {waits : List Field} {run : State → State}

/-- A press instruction dispatched with an illegal word. -/
theorem illegalRuns_of_dispatch (hd : canDispatch s p k u) (hl : legal = false) {hold : Nat}
    (hc : exec c s = s.dispatch p k u legal hold ready lines waits run) : illegalRuns c p s := by
  subst hl
  exact illegalRuns_of (hc.trans (dispatch_illegal hd ..))

/-- A legal word that nothing holds stops at a line that does not exist (R94; log entry 75). -/
theorem dispatch_noSuchLine (hd : canDispatch s p k u) (hl : legal = true)
    (hn : (lines.all fun e => caseLineOk e.1 e.2) = false) :
    s.dispatch p k u legal 0 true lines waits run = .fault .noSuchLine := by
  subst hl
  obtain ⟨hp, ha, ht, hf⟩ := hd
  have token : (k.wen && decide ((s.press p).token k.wtok = 0)) = false := by
    cases hk : k.wen
    · rfl
    · simp [ht hk]
  simp [State.dispatch, hp, ha, token, hf, hn]

end

/-- Cycle counts that a WLOAD can raise: it waits behind a load that is not yet swapped in (R78). -/
def wloadWaits (x : Press) : List Field :=
  .prsStallCountsCaseConflict :: if x.unswapped then [.prsStallCountsShadowWait] else []

theorem wloadWaits_subset (x : Press) : wloadWaits x ⊆ [.prsStallCountsCaseConflict, .prsStallCountsShadowWait] := by
  unfold wloadWaits
  split <;> decide

theorem exec_wload (s : State) (p : Nat) (k : Tok) (w : WloadF) (ce : List Nat) :
    exec (.wload p k w ce) s =
      s.dispatch p k uShd
        (w.fieldOk && w.strips ≤ s.depth p && (s.press p).inCase w.wad && (w.wfmt = 1 || (s.press p).inCase w.sad)) 0
        true
        (((s.press p).addr w.wad, w.strips * stripLines w.wfmt) ::
          (if w.wfmt = 1 then [] else [((s.press p).addr w.sad, w.strips * scaleLines w.wfmt)]))
        (wloadWaits (s.press p)) fun s =>
        (s.setPress p { s.press p with
          gated := false,
          shadow := (s.press p).shadow ++ [Tile.mk w.wfmt ((List.range w.strips).map fun i =>
            some (loadStrip (s.press p) w.wfmt ((s.press p).addr w.wad).toNat ((s.press p).addr w.sad).toNat i))]
          }).caseCes p ce := by
  show execWload p k w ce s = _
  unfold execWload
  rfl

theorem exec_bias (s : State) (p : Nat) (k : Tok) (bfmt bad : Nat) (ce : List Nat) :
    exec (.bias p k bfmt bad ce) s =
      s.dispatch p k uArr (biasFieldOk bfmt && (s.press p).inCase bad) 0 true
        [((s.press p).addr bad, if bfmt = 7 then 16 else 8)] [.prsStallCountsCaseConflict] fun s =>
        (s.setPress p { s.press p with
          bias := if bfmt = 7 then Fmt.a56.unpack 512 ((s.press p).caseBytes ((s.press p).addr bad).toNat 4096)
            else (Fmt.fp32.unpack 512 ((s.press p).caseBytes ((s.press p).addr bad).toNat 2048)).map
              (convert .fp32 .a56) }).caseCes p ce := by
  show execBias p k bfmt bad ce s = _
  unfold execBias
  rfl

theorem exec_pass_dispatch (s : State) (p : Nat) (k : Tok) (f : PassF) (e : Option Nat) (ce : List Nat) :
   ∃ run, exec (.pass p k f e ce) s = s.dispatch p k uArr (passLegal (s.press p) f (s.depth p)) 0 true
    (passLines (s.press p) f ++ (if f.foot = 1 then [] else drainLines f.out (s.press p) (f.mM1 + 1)))
     (passWaits (s.press p) f) run := by
  show ∃ run, execPass p k f e ce s = _
  unfold execPass
  exact ⟨_, rfl⟩

theorem exec_drain_dispatch (s : State) (p : Nat) (k : Tok) (f : DrainF) :
   ∃ run, exec (.drain p k f) s = s.dispatch p k uArr
     (f.fieldOk && f.m0 + f.mM1 + 1 ≤ 1024 && drainSpaceOk f.out (s.press p)) 0 true
      (drainLines f.out (s.press p) (f.mM1 + 1)) (drainWaits (s.press p) f) run := by
  show ∃ run, execDrain p k f s = _
  unfold execDrain
  exact ⟨_, rfl⟩

/-- The check of its galley lines comes before the dispatch of a GLOAD, which runs where it is passed. -/
theorem exec_gload {s : State} {p : Nat} {f : GalF}
    (h : ((s.press p).ad f.gad).galley = false ∨ galLinesOk ((s.press p).addr f.gad) (f.linesM1 + 1) = true)
    (k : Tok) (ce : List Nat) :
    exec (.gload p k f ce) s =
      s.dispatch p k uBin (((s.press p).ad f.gad).galley && (s.press p).inCase f.cad) 0 true
        [((s.press p).addr f.cad, f.linesM1 + 1)] bondWaits fun s =>
        (s.queueBond p f.resv false ((s.press p).addr f.gad).toNat ((s.press p).addr f.cad).toNat
          (f.linesM1 + 1)).galCes (p / 3) (p % 3) true ce := by
  have unfolded : exec (.gload p k f ce) s = execGload p k f ce s := rfl
  rw [unfolded, execGload, if_neg]
  obtain h | h := h <;> simp [h]

/-- The same of a GSTORE. -/
theorem exec_gstore {s : State} {p : Nat} {f : GalF}
    (h : ((s.press p).ad f.gad).galley = false ∨ galLinesOk ((s.press p).addr f.gad) (f.linesM1 + 1) = true)
    (k : Tok) (ce : List Nat) :
    exec (.gstore p k f ce) s =
      s.dispatch p k uBout (((s.press p).ad f.gad).galley && (s.press p).inCase f.cad) 0 true
        [((s.press p).addr f.cad, f.linesM1 + 1)] bondWaits fun s =>
        (s.queueBond p f.resv true ((s.press p).addr f.gad).toNat ((s.press p).addr f.cad).toNat
          (f.linesM1 + 1)).caseCes p ce := by
  have unfolded : exec (.gstore p k f ce) s = execGstore p k f ce s := rfl
  rw [unfolded, execGstore, if_neg]
  obtain h | h := h <;> simp [h]

/-- An ACTIVE press stops at a galley line that does not exist (R142; log entry 75). -/
theorem gload_gstore_noSuchLine {s : State} {p : Nat} {f : GalF} (hp : p < 12) (ha : s.pState p = pActive)
    (hg : ((s.press p).ad f.gad).galley = true)
    (hn : galLinesOk ((s.press p).addr f.gad) (f.linesM1 + 1) = false) (k : Tok) (ce : List Nat) :
    exec (.gload p k f ce) s = .fault .noSuchLine ∧ exec (.gstore p k f ce) s = .fault .noSuchLine := by
  have check : (decide (p < 12) && decide (s.pState p = pActive) &&
      !galLinesOk ((s.press p).addr f.gad) (f.linesM1 + 1) && ((s.press p).ad f.gad).galley) = true := by
    simp [hp, ha, hg, hn]
  exact ⟨if_pos check, if_pos check⟩

/-- Settles O15: every word is dispatched under its rules and with its lines, and a transfer checks the galley's
lines before. -/
theorem pressWordsIllegal : Obligations.PressWordsIllegal := by
  intro s p k hp x
  refine ⟨fun w hd => ⟨fun hl ce => illegalRuns_of_dispatch hd hl (exec_wload ..), fun hl hn ce => ?_⟩,
    fun hd => ⟨fun bfmt bad => ⟨fun hl ce => illegalRuns_of_dispatch hd hl (exec_bias ..), fun hl hn ce => ?_⟩,
      fun f e ce hl => ?_, fun f e ce hl hn => ?_, fun f hl => ?_⟩,
    fun f hd => ⟨fun hl ce => illegalRuns_of_dispatch hd hl (exec_fld ..),
      fun hl => illegalRuns_of_dispatch hd hl (exec_fst ..),
      fun hl ce => illegalRuns_of_dispatch hd hl (exec_cmov ..), fun hl hn ce => ?_⟩,
    fun f => ⟨fun hd hl hg ce => illegalRuns_of_dispatch hd hl (exec_gload hg k ce),
      fun hd hl hg ce => illegalRuns_of_dispatch hd hl (exec_gstore hg k ce),
      fun ha hg hn ce => gload_gstore_noSuchLine hp ha hg hn k ce⟩⟩
  · rw [exec_wload]
    exact dispatch_noSuchLine hd hl (by rw [List.all_cons, hn, Bool.false_and])
  · rw [exec_bias]
    exact dispatch_noSuchLine hd hl (by rw [List.all_cons, hn, Bool.false_and])
  · obtain ⟨run, hc⟩ := exec_pass_dispatch s p k f e ce
    exact illegalRuns_of_dispatch hd hl hc
  · obtain ⟨run, hc⟩ := exec_pass_dispatch s p k f e ce
    exact hc.trans (dispatch_noSuchLine hd hl (by rw [List.all_append, hn, Bool.false_and]))
  · obtain ⟨run, hc⟩ := exec_drain_dispatch s p k f
    exact illegalRuns_of_dispatch hd hl hc
  · rw [exec_cmov]
    exact dispatch_noSuchLine hd hl (by simp [x, hn])

end Sys2Proof.Machine

namespace Sys2Proof.Machine

/-! ## Loads of the array (R76, R126, R127) -/

/-- The shadow load of a WLOAD: its strips from the weight and scale lines of the case (R126). -/
def wloadTile (x : Press) (w : WloadF) : Tile :=
  Tile.mk w.wfmt ((List.range w.strips).map fun i =>
    some (x.caseBytes ((x.addr w.wad).toNat + i * stripLines w.wfmt) (stripLines w.wfmt * 256),
      x.caseBytes ((x.addr w.sad).toNat + i * scaleLines w.wfmt) (scaleLines w.wfmt * 256)))

/-- The values of a BIAS (R127). -/
def biasLoad (x : Press) (bfmt bad : Nat) : List Nat :=
  if bfmt = 7 then Fmt.a56.unpack 512 (x.caseBytes (x.addr bad).toNat 4096)
  else (Fmt.fp32.unpack 512 (x.caseBytes (x.addr bad).toNat 2048)).map (convert .fp32 .a56)

section
variable {s : State} {p : Nat} {k : Tok}

theorem wload_reads {w : WloadF} (hd : canDispatch s p k uShd) (hl : w.fieldOk = true) (hs : w.strips ≤ s.depth p)
    (hw : (s.press p).inCase w.wad = true) (hc : w.wfmt = 1 ∨ (s.press p).inCase w.sad = true)
    (hn : caseLineOk ((s.press p).addr w.wad) (w.strips * stripLines w.wfmt) = true)
    (hm : w.wfmt = 1 ∨ caseLineOk ((s.press p).addr w.sad) (w.strips * scaleLines w.wfmt) = true) :
    pressReads (.wload p k w) [.prsStallCountsCaseConflict, .prsStallCountsShadowWait] [.freeCount] p s
      { entered s p k uShd with gated := false, shadow := (s.press p).shadow ++ [wloadTile (s.press p) w] }
      fun t => (t.press p).live = (s.press p).live ∧ (t.press p).caseMem = (s.press p).caseMem := by
  refine pressReads_flagged _ k uShd _ .none _ _ (fun ce => ?_) (List.nil_subset _) (wloadWaits_subset (s.press p))
    (List.Subset.trans (wloadWaits_subset _) (by decide)) fun t ht _ => ?_
  · have legal : (w.fieldOk && w.strips ≤ s.depth p && (s.press p).inCase w.wad &&
        (w.wfmt = 1 || (s.press p).inCase w.sad)) = true := by simp [hl, hs, hw, hc]
    have lines : ((((s.press p).addr w.wad, w.strips * stripLines w.wfmt) ::
        (if w.wfmt = 1 then [] else [((s.press p).addr w.sad, w.strips * scaleLines w.wfmt)])).all fun e =>
          caseLineOk e.1 e.2) = true := by
      split
      · simpa using hn
      · simpa [hn] using hm.resolve_left ‹_›
    have tile : wloadTile (entered s p k uShd) w = wloadTile (s.press p) w := by
      simp only [wloadTile, entered_addr, entered_caseBytes]
    have shadow : (entered s p k uShd).shadow = (s.press p).shadow := by rw [entered_only]
    rw [exec_wload, dispatch_ok hd legal rfl lines, State.finFlags_none, State.issued_press, ← tile, ← shadow]
    rfl
  · rw [ht]
    show (entered s p k uShd).live = _ ∧ (entered s p k uShd).caseMem = _
    rw [entered_only]
    exact ⟨rfl, rfl⟩

theorem bias_reads {bfmt bad : Nat} (hd : canDispatch s p k uArr) (hl : biasFieldOk bfmt = true)
    (hc : (s.press p).inCase bad = true) (hn : caseLineOk ((s.press p).addr bad) (if bfmt = 7 then 16 else 8) = true) :
    pressReads (.bias p k bfmt bad) [.prsStallCountsCaseConflict] [.freeCount] p s
      { entered s p k uArr with bias := biasLoad (s.press p) bfmt bad }
      fun t => (t.press p).caseMem = (s.press p).caseMem := by
  refine pressReads_flagged _ k uArr _ .none [.prsStallCountsCaseConflict] _ (fun ce => ?_) (List.nil_subset _)
    (List.Subset.refl _) (by decide) fun t ht _ => ?_
  · have row : biasLoad (entered s p k uArr) bfmt bad = biasLoad (s.press p) bfmt bad := by
      simp only [biasLoad, entered_addr, entered_caseBytes]
    rw [exec_bias, dispatch_ok hd (by rw [hl, hc]; rfl) rfl (by simpa using hn), State.finFlags_none,
      State.issued_press, ← row]
    rfl
  · rw [ht]
    show (entered s p k uArr).caseMem = _
    rw [entered_caseMem]

end

/-! ## Galley transfers (R118, R134) -/

/-- The transfer that a GLOAD or GSTORE puts behind those under way (R134, R146). -/
def State.bondXfer (s : State) (p resv : Nat) (fill : Bool) (g l n : Nat) : SlotXfer :=
  let e := s.bondResv p resv
  let rel := s.rd .hFormeRelCycle (p / 3) e.1
  { forme := e.1, chase := p / 3, code := p % 3, fill := fill, phase := e.2.phase, start := rel + e.2.start,
    stop := rel + e.2.stop, runHeld := e.2.runHeld, runPeriod := e.2.runPeriod, due := s.bondDue p fill,
    lineLo := g, lineHi := g + n, next := g, memAddr := l, toOut := false }

theorem State.queueBond_eq (s : State) (p resv : Nat) (fill : Bool) (g l n : Nat) :
    s.queueBond p resv fill g l n = { s with drains := s.drains ++ [s.bondXfer p resv fill g l n] } := rfl

theorem State.bondXfer_press (s : State) (p resv : Nat) (fill : Bool) (g l n : Nat) :
    (s.bondXfer p resv fill g l n).press = p := by
  show 3 * (p / 3) + p % 3 = p
  omega

/-- An issue changes nothing of which a transfer's place and slots depend. -/
theorem State.bondXfer_issued (s : State) (p : Nat) (k : Tok) (u resv : Nat) (fill : Bool) (g l n : Nat) :
    (s.issued p k u).bondXfer p resv fill g l n = s.bondXfer p resv fill g l n := by
  have active : (s.issued p k u).active = s.active := rfl
  have drains : (s.issued p k u).drains = s.drains := rfl
  simp (disch := decide) only [State.bondXfer, State.bondResv, State.bondDue, State.formeOfPress, State.resv,
    State.curStep, State.variant, State.forme, State.issued_rd, active, drains]

/-- The fields that a corrected word of a galley can move (R162, R441). -/
def galCeFields : List Field :=
  [.galStatusCe, .galCeCountCount, .galEccAddrRequester, .galEccAddrSched, .galEccAddrLine, .galEccAddrWord] ++
    suspectFields

theorem State.galCe_changes (s : State) (c code : Nat) (sched : Bool) (line word : Nat) :
    changes galCeFields ceParts s (s.galCe c code sched line word) := by
  unfold State.galCe
  refine changes.ceSeen _ _ _ (by decide) (List.Subset.refl _)
    (changes.bump _ _ _ _ (by decide) (changes.wr _ _ _ _ (by decide) (changes.ite (fun _ => .refl s) fun _ => ?_)))
  exact ((((changes.refl s).wr _ _ _ _ (by decide)).wr _ _ _ _ (by decide)).wr _ _ _ _ (by decide)).wr _ _ _ _
    (by decide)

theorem State.galCes_changes (s : State) (c code : Nat) (sched : Bool) (ws : List Nat) :
    changes galCeFields ceParts s (s.galCes c code sched ws) :=
  (changes.refl s).each ws _ fun _ _ h => h.trans (State.galCe_changes ..)

/-- A corrected word of a galley sets ce and counts, up to the field's largest value. -/
theorem State.galCe_rd (s : State) (c code : Nat) (sched : Bool) (line word : Nat) :
    (s.galCe c code sched line word).rd .galStatusCe c 0 = 1 ∧
      (s.galCe c code sched line word).rd .galCeCountCount c 0 =
        min (2 ^ 32 - 1) (s.rd .galCeCountCount c 0 + 1) := by
  have seen (t : State) (e : CeEntry) (place w : Nat) :=
    (changes.refl t).ceSeen e place w (List.Subset.refl suspectFields) (List.Subset.refl ceParts)
  unfold State.galCe
  constructor
  · rw [(seen _ _ _ _).1 _ _ _ (by decide), State.rd_bump_ne _ _ _ _ _ _ _ _ (by decide), State.rd_wr_same]
    decide
  · rw [(seen _ _ _ _).1 _ _ _ (by decide), State.rd_bump_same _ _ _ _ _ (by decide),
      State.rd_wr_ne _ _ _ _ _ _ _ _ (by decide)]
    split
    · rfl
    · simp (disch := decide) only [State.rd_wr_ne]
      rfl

theorem State.galCes_cons (s : State) (c code : Nat) (sched : Bool) (w : Nat) (ws : List Nat) :
    s.galCes c code sched (w :: ws) = (s.galCe c code sched (w / 32) (w % 32)).galCes c code sched ws := rfl

@[simp] theorem State.galCes_nil (s : State) (c code : Nat) (sched : Bool) : s.galCes c code sched [] = s := rfl

/-- Corrected words of a galley set ce, and each of them counts, up to the field's largest value. -/
theorem State.galCes_cons_rd (s : State) (c code : Nat) (sched : Bool) (w : Nat) (ws : List Nat) :
    (s.galCes c code sched (w :: ws)).rd .galStatusCe c 0 = 1 ∧
      (s.galCes c code sched (w :: ws)).rd .galCeCountCount c 0 =
        min (2 ^ 32 - 1) (s.rd .galCeCountCount c 0 + (w :: ws).length) := by
  induction ws generalizing s w with
  | nil =>
    rw [State.galCes_cons, State.galCes_nil]
    exact s.galCe_rd ..
  | cons v l ih =>
    obtain ⟨flag, count⟩ := ih (s.galCe c code sched (w / 32) (w % 32)) v
    rw [State.galCes_cons, flag, count, (s.galCe_rd ..).2]
    refine ⟨rfl, ?_⟩
    simp only [List.length_cons]
    omega

/-- The transfer stands behind those under way, and nothing has moved (R134). -/
def bondQueued (s : State) (p : Nat) (f : GalF) (fill : Bool) (t : State) : Prop :=
  let g := ((s.press p).addr f.gad).toNat
  let c := ((s.press p).addr f.cad).toNat
  let n := f.linesM1 + 1
  t.drains = (s.queueBond p f.resv fill g c n).drains ∧ t.drains.dropLast = s.drains ∧
    t.drains.getLast?.map (fun d => (d.press, d.fill, d.next, d.lineHi, d.memAddr)) = some (p, fill, g, g + n, c)

theorem bondQueued_of_drains {s t : State} {p : Nat} {f : GalF} {fill : Bool}
    (h : t.drains = s.drains ++ [s.bondXfer p f.resv fill ((s.press p).addr f.gad).toNat
      ((s.press p).addr f.cad).toNat (f.linesM1 + 1)]) : bondQueued s p f fill t := by
  refine ⟨h, ?_, ?_⟩
  · rw [h, List.dropLast_concat]
  · rw [h, List.getLast?_concat, Option.map_some, State.bondXfer_press]
    rfl

/-- An issued instruction with its transfer queued. -/
def State.bonded (s : State) (p : Nat) (k : Tok) (u : Nat) (f : GalF) (fill : Bool) : State :=
  (s.issued p k u).queueBond p f.resv fill ((s.press p).addr f.gad).toNat ((s.press p).addr f.cad).toNat
    (f.linesM1 + 1)

section
variable {fs gs : List Field} {ps : List Part} {s w : State} {p u : Nat} {k : Tok} {f : GalF} {fill : Bool} {c : Instr}

theorem State.bonded_drains : (s.bonded p k u f fill).drains =
    s.drains ++ [s.bondXfer p f.resv fill ((s.press p).addr f.gad).toNat ((s.press p).addr f.cad).toNat
      (f.linesM1 + 1)] := by
  rw [← State.bondXfer_issued s p k u]
  rfl

theorem State.bonded_only : onlyPress [.prsSeqStatusHold] [.drains] p s (s.bonded p k u f fill) := by
  obtain ⟨numbers, others⟩ := s.issued_hold_only p k u
  exact ⟨(numbers.mono (List.Subset.refl _) (by decide)).parts rfl fun q hq => by
    cases q <;> first | rfl | exact absurd (by decide) hq, others⟩

/-- An instruction whose effect is to queue a transfer, and then to count corrected words by the fields gs, runs to its
end (R107, R134). -/
theorem pressEnds_bonded (Q : State → Prop) (hc : exec c s = .next ((w.stalled p bondWaits).advance p))
    (hw : changes gs ceParts (s.bonded p k u f fill) w) (hgs : ∀ g ∈ seqFields ++ bondWaits, g ∉ gs)
    (hf : bondWaits ⊆ fs) (hp : .presses ∉ ps) (hd : .drains ∈ ps) (hn : .freeCount ∈ ps)
    (hce : w = s.bonded p k u f fill ∨ (gs ⊆ fs ∧ ceParts ⊆ ps))
    (hQ : ∀ t, bondQueued s p f fill t → t.mem = s.mem →
      (∀ g ∈ gs, t.rd g = w.rd g) → Q t) :
    pressEnds c fs ps p s (entered s p k u) Q := by
  have press (q : Nat) : w.press q = (s.issued p k u).press q := by
    have presses : w.presses = (s.issued p k u).presses := hw.2 .presses (by decide)
    unfold State.press
    rw [presses]
  have seq (g : Field) (hg : g ∈ seqFields) : (w.stalled p bondWaits).rd g p 0 = (s.issued p k u).rd g p 0 := by
    rw [State.stalled_rd _ _ _ _ _ _ ((by decide : ∀ g ∈ seqFields, g ∉ bondWaits) g hg)]
    exact hw.1 _ _ _ (hgs g (List.mem_append_left _ hg))
  have only : onlyPress (seqFields ++ fs) ps p s w := by
    have bonded : onlyPress (seqFields ++ fs) ps p s (s.bonded p k u f fill) :=
      State.bonded_only.mono (List.cons_subset.mpr ⟨List.mem_append_left _ (by decide), List.nil_subset _⟩)
        (List.cons_subset.mpr ⟨hd, List.nil_subset _⟩)
    obtain rfl | ⟨hg, hq⟩ := hce
    · exact bonded
    · exact bonded.and_changes hp (hw.mono (List.Subset.trans hg (List.subset_append_right ..)) hq)
  refine pressEnds_of c _ Q (w.stalled p bondWaits) hc ?_ ?_ ?_ ?_ (hQ _ (bondQueued_of_drains ?_) ?_ fun g hg => ?_)
  · rw [State.stalled_press, press, State.issued_press]
  · rw [seq _ (by decide), State.issued_rd _ _ _ _ _ _ _ (by decide)]
  · rw [seq _ (by decide), State.issued_hold]
  · exact only.stalled bondWaits (List.Subset.trans hf (List.subset_append_right ..)) (.inr hn)
  · have drains : w.drains = (s.bonded p k u f fill).drains := hw.2 .drains (by decide)
    rw [← State.bonded_drains, ← drains, State.stalled_only]
    rfl
  · have mem : w.mem = s.mem := hw.2 .mem (by decide)
    rw [← mem, State.stalled_only]
    rfl
  · funext i j
    have apart : g ∉ seqFields ++ bondWaits := fun h => hgs g h hg
    rw [List.mem_append, not_or] at apart
    have pc : g ≠ .prsSeqStatusPc := by
      rintro rfl
      exact apart.1 (by decide)
    rw [State.advance_rd _ _ _ _ _ pc, State.stalled_rd _ _ _ _ _ _ apart.2]

theorem gload_runs (hd : canDispatch s p k uBin) (hg : ((s.press p).ad f.gad).galley = true)
    (hc : (s.press p).inCase f.cad = true) (hl : galLinesOk ((s.press p).addr f.gad) (f.linesM1 + 1) = true)
    (hn : caseLineOk ((s.press p).addr f.cad) (f.linesM1 + 1) = true) (ce : List Nat) :
    exec (.gload p k f ce) s =
      .next ((((s.bonded p k uBin f false).galCes (p / 3) (p % 3) true ce).stalled p bondWaits).advance p) := by
  rw [exec_gload (.inr hl), dispatch_ok hd (by rw [hg, hc]; rfl) rfl (by simpa using hn), State.issued_press,
    entered_addr, entered_addr]
  rfl

theorem gstore_runs (hd : canDispatch s p k uBout) (hg : ((s.press p).ad f.gad).galley = true)
    (hc : (s.press p).inCase f.cad = true) (hl : galLinesOk ((s.press p).addr f.gad) (f.linesM1 + 1) = true)
    (hn : caseLineOk ((s.press p).addr f.cad) (f.linesM1 + 1) = true) (ce : List Nat) :
    exec (.gstore p k f ce) s =
      .next ((((s.bonded p k uBout f true).caseCes p ce).stalled p bondWaits).advance p) := by
  rw [exec_gstore (.inr hl), dispatch_ok hd (by rw [hg, hc]; rfl) rfl (by simpa using hn), State.issued_press,
    entered_addr, entered_addr]
  rfl

end

/-- Settles O12: the loads by the rule for an instruction that reads the case, the transfers by that for one that queues
its lines. -/
theorem arrayLoadsAndTransfers : Obligations.ArrayLoadsAndTransfers := by
  refine ⟨fun s p k => ⟨fun w hd hl hs hw hc hn hm => wload_reads hd hl hs hw hc hn hm,
    fun bfmt bad hd hl hc hn => bias_reads hd hl hc hn⟩, ?_⟩
  intro s p k f _ x g c n hg hc hl hn what
  refine ⟨fun hd => ?_, fun hd => ?_⟩
  · refine ⟨pressEnds_bonded _ (gload_runs hd hg hc hl hn []) (changes.refl (fs := galCeFields) _) (by decide)
      (List.Subset.refl _) (by decide) (by decide) (by decide) (.inl rfl) fun t ht _ _ => ht, fun w ce => ?_⟩
    have ends : pressEnds (.gload p k f (w :: ce)) (galCeFields ++ bondWaits) (.drains :: ceParts) p s
        (entered s p k uBin) fun t => what false t ∧ t.mem = s.mem ∧ t.rd .galStatusCe (p / 3) 0 = 1 ∧
          t.rd .galCeCountCount (p / 3) 0 =
            min (2 ^ 32 - 1) (s.rd .galCeCountCount (p / 3) 0 + (w :: ce).length) := by
      refine pressEnds_bonded _ (gload_runs hd hg hc hl hn (w :: ce)) (State.galCes_changes ..) (by decide)
        (List.subset_append_right ..) (by decide) (by decide) (by decide)
        (.inr ⟨List.subset_append_left .., by decide⟩) fun t ht mem rd => ⟨ht, mem, ?_⟩
      obtain ⟨flag, count⟩ := State.galCes_cons_rd (s.bonded p k uBin f false) (p / 3) (p % 3) true w ce
      rw [rd _ (by decide), rd _ (by decide), flag, count, State.bonded_only.1.1 _ _ _ (by decide)]
      exact ⟨rfl, rfl⟩
    obtain ⟨t, run, press, -, -, ⟨queued, mem, flag, count⟩, -⟩ := ends
    exact ⟨t, run, press, queued, mem, flag, count⟩
  · refine ⟨pressEnds_bonded _ (gstore_runs hd hg hc hl hn []) (changes.refl (fs := ceFields) _) (by decide)
      (List.Subset.refl _) (by decide) (by decide) (by decide) (.inl rfl) fun t ht _ _ => ht, fun w ce => ?_⟩
    refine pressEnds_bonded _ (gstore_runs hd hg hc hl hn (w :: ce)) (State.caseCes_changes ..) (by decide)
      (List.subset_append_right ..) (by decide) (by decide) (by decide)
      (.inr ⟨List.subset_append_left .., by decide⟩) fun t ht mem rd => ⟨ht, ?_⟩
    obtain ⟨flag, count⟩ := State.caseCes_cons_rd (s.bonded p k uBout f true) p w ce
    rw [rd _ (by decide), rd _ (by decide), flag, count, State.bonded_only.1.1 _ _ _ (by decide)]
    exact ⟨rfl, rfl⟩

end Sys2Proof.Machine

namespace Sys2Proof.Machine

/-! ## The switch of an imposition on a standby (R222, R371) -/

theorem State.each_clr_rd (s : State) (l : List Field) (q : Nat) (g : Field) (i j : Nat) (hl : ∀ f ∈ l, f ≠ g) :
    (l.foldl (fun s f => s.clr f q 0) s).rd g i j = s.rd g i j := by
  induction l generalizing s with
  | nil => rfl
  | cons f l ih =>
    refine (ih _ fun x hx => hl x (List.mem_cons_of_mem _ hx)).trans ((State.rd_clr ..).trans (if_neg ?_))
    exact fun e => hl f (List.mem_cons_self ..) e.1

/-- The loss of a press's power leaves the others in their states, and one that was OFF in that (R104). -/
theorem State.pressOff_pState (s : State) (q p : Nat) (h : s.pState p = pOff) : (s.pressOff q).pState p = pOff := by
  have kept : ∀ f ∈ pressLost, f ≠ .prsStatusState := by decide
  unfold State.pressOff State.pState
  rw [State.each_clr_rd _ _ _ _ _ _ kept, State.rd_setPress, State.setPState_rd, State.rd_wr]
  split
  · decide
  · exact h

/-- The power of presses at a switch leaves a press of a standby OFF, whatever the new imposition says of it
(R104, R371). -/
theorem State.powerPresses_standby (s : State) (i : Imposition) (p : Nat) (hr : s.role = rStandby)
    (hp : s.pState p = pOff) : (s.powerPresses i).pState p = pOff := by
  unfold State.powerPresses
  suffices off : ∀ (l : List Nat) (u : State), u.role = rStandby → u.pState p = pOff →
      (u.each l fun s p =>
        if bit i.presses p && s.role != rStandby then (if s.pState p = pOff then s.setPState p pProof else s)
        else if s.pState p = pFailed then s
        else s.pressOff p).pState p = pOff from off _ s hr hp
  intro l
  induction l with
  | nil => exact fun _ _ h => h
  | cons q l ih =>
    intro u hr hp
    rw [State.each_cons]
    have standby : (bit i.presses q && u.role != rStandby) = false := by rw [hr]; exact Bool.and_false _
    simp only [standby, Bool.false_eq_true, if_false]
    split
    · exact ih u hr hp
    · have role : (u.pressOff q).role = u.role :=
        (State.pressOff_moves u q (List.Subset.refl _) (List.Subset.refl _) (Moves.refl u)).1.1 _ _ _ (by decide)
      exact ih _ (role.trans hr) (u.pressOff_pState q p hp)

/-- The tables that a switch writes are no part of the module's role, nor of the state of a press. -/
theorem State.switchTables_same (s : State) (i : Imposition) (p : Nat) :
    let t := ((s.writeImages i).writeMemory i).writeRouting i
    t.role = s.role ∧ t.pState p = s.pState p := by
  have moves : Moves [.core, .gal, .mem, .ddl, .gst] [.presses] s
      (((s.writeImages i).writeMemory i).writeRouting i) :=
    State.writeRouting_moves _ _ (by decide)
      (State.writeMemory_moves _ _ (by decide) (State.writeImages_moves _ _ (by decide) (Moves.refl s)))
  exact ⟨moves.1.1 _ _ _ (by decide), moves.1.1 _ _ _ (by decide)⟩

/-- A SWITCH whose counter is written, with no imposition active before (R222). -/
theorem exec_switch_first {s : State} {i : Imposition} (u : Nat) (hl : s.loaded = some i) (ha : s.active = none)
    (hs : (s.stamp u).slot = iCommitting) (hw : (s.stamp u).rd .hImpSwitchStep 0 0 = 1)
    (hq : (s.stamp u).quiesced = true) :
    exec (.switch true u) s =
      .next ((((((s.stamp u).wr .secCounterValue 0 0 i.rollbackVersion).wr .hImpSwitchStep 0 0
        3).writeImages i |>.writeMemory i).writeRouting i).powerPresses i) := by
  have carry : (s.stamp u).carryFault = none := by
    simp [State.carryFault, State.formeNums, ha]
  have quiesces : (s.stamp u).startQuiesce u = s.stamp u := by
    simp [State.startQuiesce, State.fabricForme, ha]
  have held : (s.stamp u).unheld = [] := by simp [State.unheld, State.formeNums, ha]
  show execSwitch true u s = _
  unfold execSwitch
  simp [hl, hs, hw, carry, quiesces, held, hq]

/-- An imposition whose forme uses press 0. -/
def pressImp : Imposition :=
  { capability := 0, rollbackVersion := 0, moduleId := 0, digest := [],
    formes := [{ number := 0, mirrored := false, fabric := false, carriedFrom := 255, linkMin := 1, pressSet := 1,
                 engineSet := 0, mirrorShare := 0, portSet := 0, startEdition := 1, srSeed := 0, variants := [],
                 ckpts := [] }],
    routing := [], optics := [], memory := [] }

/-- A standby that switches to that imposition, with every press OFF. -/
def standbySwitch : State :=
  { State.reset.wrAll [(.modImpStatusPending, 0, 0, iCommitting), (.hImpSwitchStep, 0, 0, 1),
      (.pairStatusRole, 0, 0, rStandby)] with loaded := some pressImp }

/-- Refutes O22: the clause on SWITCH has every press OFF of the new imposition proved, while on a standby every
press stays OFF, as R371 says: a standby with press 0 OFF in the new imposition shows it. -/
theorem not_impositionSwitch : ¬ Obligations.ImpositionSwitch := by
  intro h
  obtain ⟨-, -, -, -, -, switch, -⟩ := h standbySwitch 0
  obtain ⟨proved, -⟩ := switch pressImp true rfl (by decide) (by decide) (by decide) (by decide) (by decide)
    (.inl (by decide))
  obtain ⟨t, run, -, -, -, -, proof, -⟩ := proved (.inl rfl)
  have run' := exec_switch_first (s := standbySwitch) (i := pressImp) 0 rfl rfl (by decide) (by decide) (by decide)
  obtain rfl := Host.Outcome.next.inj (run'.symm.trans run)
  have standby : ((standbySwitch.stamp 0).wr .secCounterValue 0 0 pressImp.rollbackVersion |>.wr .hImpSwitchStep 0 0
      3).role = rStandby := by decide
  have off : ((standbySwitch.stamp 0).wr .secCounterValue 0 0 pressImp.rollbackVersion |>.wr .hImpSwitchStep 0 0
      3).pState 0 = pOff := by decide
  obtain ⟨role, state⟩ := State.switchTables_same _ pressImp 0
  have stays := State.powerPresses_standby _ pressImp 0 (role.trans standby) (state.trans off)
  exact absurd ((proof 0 (by decide) (by decide) (by decide)).symm.trans stays) (by decide)

end Sys2Proof.Machine

namespace Sys2Proof.Machine

/-! ## The abandonment of an edition (R231 to R233) -/

/-- The fields that an error of a press sets before its forme hears of it (R97, R139). -/
def errorFields : List Field :=
  timeFields ++ suspectFields ++ [.caseEccStatusUe, .caseEccStatusWordAddr, .prsStatusEccUncorrected, .prsStatusState,
    .prsIstoreEccUe, .prsIstoreEccHalfAddr, .prsSeqStatusIstoreUe, .prsSeqStatusIllegal]

/-- The parts that it moves. -/
def errorParts : List Part := .presses :: ceParts

section
variable {s t : State}

/-- What an error sets of its press is no condition of a commit (R229). -/
theorem commitDue_of_error (h : changes errorFields errorParts s t) (f : Nat) : t.commitDue f = s.commitDue f := by
  have rd : ∀ g i j, g ∉ errorFields → t.rd g i j = s.rd g i j := h.1
  have active : t.active = s.active := h.2 .active (by decide)
  have drains : t.drains = s.drains := h.2 .drains (by decide)
  have forme : t.forme f = s.forme f := by rw [State.forme, active]; rfl
  have slices : t.slicesDone f = s.slicesDone f := by
    simp (disch := decide) only [State.slicesDone, State.formePresses, State.variant, State.stripInUse, forme, rd]
  have port (x : Forme) : t.mirrorPort x = s.mirrorPort x := by
    simp (disch := decide) only [State.mirrorPort, State.isPairPort, State.portRec, State.identity, State.lState, rd,
      active]
    rfl
  have digest : t.impDigest = s.impDigest := by rw [State.impDigest, active]; rfl
  have differs : t.pairDiffers = s.pairDiffers := by
    simp (disch := decide) only [State.pairDiffers, State.on, digest, rd]
  have agrees : t.pairAgrees = s.pairAgrees := by
    simp (disch := decide) only [State.pairAgrees, State.on, digest, rd]
  have protection (x : Forme) : t.protectionOf x = s.protectionOf x := by
    simp (disch := decide) only [State.protectionOf, State.role, State.on, differs, agrees, port, rd]
    rfl
  have mirror (x : Forme) : t.mirrorOk x = s.mirrorOk x := by
    simp (disch := decide) only [State.mirrorOk, State.on, protection, rd]
    rfl
  simp (disch := decide) only [State.commitDue, State.fState, State.drainsDone, slices, forme, mirror, rd, drains]
  rfl

theorem State.fState_of_commitDue {f : Nat} (h : s.commitDue f = true) : s.fState f = fClosing := by
  simp only [State.commitDue, Bool.and_eq_true, decide_eq_true_eq] at h
  tauto

/-- An abandonment read from states that agree on the forme with those that it is between. -/
theorem abandoned.congr {f cause : Nat} {s' t' : State} (h : abandoned f cause s t)
    (hs : changes errorFields errorParts s' s) (ht : ∀ g, g.area = .forme → t'.rd g 0 f = t.rd g 0 f) :
    abandoned f cause s' t' := by
  unfold abandoned State.fState at h ⊢
  rwa [ht _ rfl, ht _ rfl, ht _ rfl, ht _ rfl, ← commitDue_of_error hs, ← hs.1 _ _ _ (by decide),
    ← hs.1 .modFormeCountsAbandons _ _ (by decide)]

end

theorem State.ignoreWith_rd (s : State) (f t : Nat) (pend tick g : Field) (i j : Nat) (hp : pend ≠ g)
    (hi : .modImpStatusCmdIgnored ≠ g) : (s.ignoreWith f t pend tick).rd g i j = s.rd g i j := by
  unfold State.ignoreWith
  split
  · rw [State.rd_wr_ne _ _ _ _ _ _ _ _ hi, State.rd_wr_ne _ _ _ _ _ _ _ _ hp]
  · rfl

/-- An edition that runs, or closes with its commit not yet due, is abandoned (R231, R233). -/
theorem State.abandon_running (s : State) {f cause : Nat} (n : Nat)
    (hc : Field.modFormeStatusCause.fit cause = cause) (hr : s.fState f = fRunning ∨ s.fState f = fClosing)
    (hd : s.commitDue f = false) :
    (s.abandon f cause n).fState f = fAbandoning ∧ (s.abandon f cause n).rd .modFormeStatusCause 0 f = cause ∧
      (s.abandon f cause n).rd .modFormeCountsAbandons 0 f = min 65535 (s.rd .modFormeCountsAbandons 0 f + 1) := by
  have stopped : (s.stopUnits f).rd .modFormeCountsAbandons 0 f = s.rd .modFormeCountsAbandons 0 f :=
    (State.stopUnits_moves s f (List.Subset.refl _) (List.Subset.refl _) (Moves.refl s)).1.1 _ _ _ (by decide)
  unfold State.abandon
  rw [if_pos (by simp [hr, hd])]
  dsimp only
  have presend {g : Field} (u : State) (hg : .hFormePreSent ≠ g) :
      (if u.on .hFormePreDone 0 f then u else u.wr .hFormePreSent 0 f 0).rd g 0 f = u.rd g 0 f := by
    split
    · rfl
    · exact State.rd_wr_ne _ _ _ _ _ _ _ _ hg
  unfold State.fState
  refine ⟨?_, ?_, ?_⟩ <;>
    simp (disch := decide) only [presend, State.rd_wr_ne, State.rd_bump_ne, State.rd_wr_same, State.rd_bump_same,
      State.ignoreWith_rd, stopped, hc]
  all_goals rfl

/-- A cause that finds the commit due waits; of two, the lower code (R231, R232). -/
theorem State.abandon_due (s : State) {f cause : Nat} (n : Nat) (h0 : cause ≠ 0)
    (hc : Field.hFormeCausePend.fit cause = cause) (hd : s.commitDue f = true) :
    (s.abandon f cause n).fState f = fClosing ∧ (s.abandon f cause n).rd .hFormeCausePend 0 f ≠ 0 ∧
      (s.abandon f cause n).rd .hFormeCausePend 0 f ≤ cause := by
  have closing := s.fState_of_commitDue hd
  have waits : s.abandon f cause n = s.waitCause f cause := by
    have other : (fClosing = fAbandoning) = False := by decide
    unfold State.abandon
    simp [hd, closing, other]
  rw [waits]
  unfold State.waitCause State.fState
  unfold State.fState at closing
  dsimp only
  split
  case isTrue kept =>
    have other : (fClosing = fNone) = False := by decide
    simp only [closing, other, decide_false, Bool.false_or, Bool.and_eq_true, bne_iff_ne,
      decide_eq_true_eq] at kept
    exact ⟨closing, kept⟩
  case isFalse =>
    rw [State.rd_wr_ne _ _ _ _ _ _ _ _ (by decide), State.rd_wr_same, hc]
    exact ⟨closing, h0, Nat.le_refl _⟩

/-- The causes of the errors of a press fit their fields (R232). -/
def abandonCause (cause : Nat) : Prop :=
  cause ≠ 0 ∧ Field.modFormeStatusCause.fit cause = cause ∧ Field.hFormeCausePend.fit cause = cause

theorem abandonCause_ue : abandonCause causeUe := by unfold abandonCause; decide

theorem abandonCause_istore : abandonCause causeIstore := by unfold abandonCause; decide

theorem abandonCause_pressLost : abandonCause causePressLost := by unfold abandonCause; decide

/-- What an abandonment does to its forme (R231 to R233). -/
theorem State.abandon_abandoned (s : State) {f cause : Nat} (n : Nat) (hc : abandonCause cause) :
    abandoned f cause s (s.abandon f cause n) := by
  obtain ⟨h0, cause, pend⟩ := hc
  exact ⟨fun run due => s.abandon_running n cause run due, fun due => s.abandon_due n h0 pend due⟩

/-! ## Errors of a press (R97, R139, R236) -/

theorem changes.setPState {fs : List Field} {ps : List Part} {s t : State} (p x : Nat) (hf : .prsStatusState ∈ fs)
    (hp : [.presses, .freeCount] ⊆ ps) (h : changes fs ps s t) : changes fs ps s (t.setPState p x) := by
  have written := h.wr .prsStatusState p 0 x hf
  obtain e | e := t.setPState_cases p x <;> rw [e]
  · exact written
  · exact (written.setPress p _ (hp (by decide))).parts rfl fun q hq => by
      cases q <;> first | rfl | exact absurd (hp (by decide)) hq

/-- A press that meets an error parks where it runs (R97, R139). -/
def State.parkActive (s : State) (p : Nat) : State := if s.pState p = pActive then s.setPState p pParked else s

/-- Presses that park change their state and no other number. -/
theorem State.parkPresses_rd (s : State) (f : Nat) (g : Field) (i j : Nat) (hg : g ≠ .prsStatusState) :
    (s.parkPresses f).rd g i j = s.rd g i j := by
  refine State.rd_each _ _ g i j (fun u q => ?_) s
  split
  · exact State.setPState_rd_ne _ _ _ _ _ _ (.inl hg)
  · rfl

/-- An abandonment moves no number but those of formes and engines, and the states of presses. -/
theorem State.abandonPress_rd (s : State) (p cause n : Nat) (g : Field) (i j : Nat)
    (ha : g.area ∉ [Area.imp, .forme, .cmp, .col]) (hg : g ≠ .prsStatusState) :
    (s.abandonPress p cause n).rd g i j = s.rd g i j := by
  unfold State.abandonPress
  split
  · rfl
  next x _ =>
    obtain ⟨u, hu, ⟨numbers, -⟩, -⟩ := s.abandon_moves_parked x.number cause n
    rw [numbers g i j ha]
    obtain rfl | rfl := hu
    · rfl
    · exact s.parkPresses_rd _ _ _ _ hg

section
variable {s w : State} {p cause n : Nat}

/-- A press that met an error in w, on the way from s, and parked, has its forme abandon (R97, R139). -/
theorem abandoned_of_error (h : changes errorFields errorParts s w) (hc : abandonCause cause) (f : Forme)
    (hf : s.formeOfPress p = some f) : abandoned f.number cause s (w.abandonPress p cause n) := by
  have active : w.active = s.active := h.2 .active (by decide)
  have forme : w.formeOfPress p = some f := by rw [← hf, State.formeOfPress, active]; rfl
  refine (w.abandon_abandoned n hc).congr h fun g _ => ?_
  rw [State.abandonPress, forme]

/-- An error that parks its press where it runs, and has its forme abandon (R97, R139). -/
theorem parked_of_error (h : changes errorFields errorParts s w) (hp : w.pState p = s.pState p)
    (hc : abandonCause cause) :
    let t := (w.parkActive p).abandonPress p cause n
    (s.pState p = pActive → t.pState p = pParked) ∧
      (∀ f, s.formeOfPress p = some f → abandoned f.number cause s t) ∧
      ∀ g, g.area ∉ [Area.imp, .forme, .cmp, .col] → g ≠ .prsStatusState → t.rd g p 0 = w.rd g p 0 := by
  have parks : changes errorFields errorParts s (w.parkActive p) := by
    unfold State.parkActive
    split
    · exact h.setPState p _ (by decide) (by decide)
    · exact h
  refine ⟨fun run => ?_, fun f hf => abandoned_of_error parks hc f hf, fun g ha hg => ?_⟩
  · have state : (w.parkActive p).pState p = pParked := by
      rw [State.parkActive, if_pos (hp.trans run), State.setPState_pState]
    exact (State.abandonPress_samePress _ p cause n state).2.1.trans state
  · rw [State.abandonPress_rd _ _ _ _ _ _ _ ha hg, State.parkActive]
    split
    · exact State.setPState_rd_ne _ _ _ _ _ _ (.inl hg)
    · rfl

end

/-- The state in which CASE_UNCORRECTABLE parks its press (R97, R441). -/
def State.caseUe (s : State) (p word u : Nat) : State :=
  ((((s.stamp u).wr .caseEccStatusUe p 0 1).wr .caseEccStatusWordAddr p 0 word).wr .prsStatusEccUncorrected p 0
    1).suspect 3 p (casePlace (word / 32)) (word % 32)

/-- That in which an uncorrectable error of the instruction store does (R139). -/
def State.istoreUe (s : State) (p half u : Nat) : State :=
  (((s.stamp u).wr .prsIstoreEccUe p 0 1).wr .prsIstoreEccHalfAddr p 0 half).wr .prsSeqStatusIstoreUe p 0 1

/-- That in which an illegal word of it does (R139). -/
def State.istoreIllegal (s : State) (p u : Nat) : State := (s.stamp u).wr .prsSeqStatusIllegal p 0 1

section
variable {p : Nat} (u : Nat)

theorem timeFields_subset_errorFields : timeFields ⊆ errorFields :=
  List.subset_append_of_subset_left _ (List.subset_append_left ..)

theorem State.caseUe_changes (s : State) (p word : Nat) : changes errorFields errorParts s (s.caseUe p word u) :=
  ((((changes.refl s).stamp u timeFields_subset_errorFields).wr _ _ _ _ (by decide)).wr _ _ _ _ (by decide)).wr
    _ _ _ _ (by decide) |>.suspect _ _ _ _ (by decide) (List.subset_cons_self ..)

theorem State.istoreUe_changes (s : State) (p half : Nat) : changes errorFields errorParts s (s.istoreUe p half u) :=
  ((((changes.refl s).stamp u timeFields_subset_errorFields).wr _ _ _ _ (by decide)).wr _ _ _ _ (by decide)).wr
    _ _ _ _ (by decide)

/-- A place that turns suspect moves the repair map alone. -/
theorem State.caseUe_rd (s : State) (p word : Nat) {g : Field} (hg : g ∉ suspectFields) (i j : Nat) :
    (s.caseUe p word u).rd g i j = ((((s.stamp u).wr .caseEccStatusUe p 0 1).wr .caseEccStatusWordAddr p 0 word).wr
      .prsStatusEccUncorrected p 0 1).rd g i j :=
  ((changes.refl _).suspect 3 p (casePlace (word / 32)) (word % 32) (List.Subset.refl suspectFields)
    (List.Subset.refl ceParts)).1 g i j hg

theorem State.istoreIllegal_changes (s : State) (p : Nat) : changes errorFields errorParts s (s.istoreIllegal p u) :=
  ((changes.refl s).stamp u timeFields_subset_errorFields).wr _ _ _ _ (by decide)

theorem State.stamp_pState (s : State) (p : Nat) : (s.stamp u).pState p = s.pState p :=
  ((changes.refl (ps := []) s).stamp u (List.Subset.refl timeFields)).1 _ _ _ (by decide)

theorem State.caseUe_pState (s : State) (p word : Nat) : (s.caseUe p word u).pState p = s.pState p := by
  unfold State.pState
  rw [State.caseUe_rd _ _ _ _ (by decide)]
  simp (disch := decide) only [State.rd_wr_ne]
  exact s.stamp_pState u p

theorem State.istoreUe_pState (s : State) (p half : Nat) : (s.istoreUe p half u).pState p = s.pState p := by
  unfold State.pState State.istoreUe
  simp (disch := decide) only [State.rd_wr_ne]
  exact s.stamp_pState u p

theorem State.istoreIllegal_pState (s : State) (p : Nat) : (s.istoreIllegal p u).pState p = s.pState p :=
  (State.rd_wr_ne _ _ _ _ _ _ _ _ (by decide)).trans (s.stamp_pState u p)

theorem execCaseUncorrectable_eq (hp : p < 12) (word : Nat) (s : State) : execCaseUncorrectable p word u s =
    .next (((s.caseUe p word u).parkActive p).abandonPress p causeUe u) := by
  unfold execCaseUncorrectable
  rw [if_pos hp]
  rfl

theorem execIstoreError_uncorrectable (hp : p < 12) (half : Nat) (s : State) :
    execIstoreError p half .uncorrectable u s =
      .next (((s.istoreUe p half u).parkActive p).abandonPress p causeIstore u) := by
  unfold execIstoreError
  rw [if_pos hp]
  rfl

theorem execIstoreError_illegal (hp : p < 12) (half : Nat) (s : State) : execIstoreError p half .illegal u s =
    .next (((s.istoreIllegal p u).parkActive p).abandonPress p causeIstore u) := by
  unfold execIstoreError
  rw [if_pos hp]
  rfl

/-- The place of a corrected error shows unless that of an uncorrectable one does (R139). -/
def State.istorePlace (s : State) (p half u : Nat) : State :=
  if (s.stamp u).on .prsIstoreEccUe p 0 then s.stamp u else (s.stamp u).wr .prsIstoreEccHalfAddr p 0 half

/-- A corrected error of the instruction store is counted; its place shows unless that of an uncorrectable one does
(R139). -/
theorem istoreError_corrected (hp : p < 12) (half : Nat) (s : State) :
    ∃ t, Runs (.istoreError p half .corrected u) s t ∧ t.rd .prsIstoreEccCe p 0 = 1 ∧
      t.rd .prsIstoreEccCeCount p 0 = min 16383 (s.rd .prsIstoreEccCeCount p 0 + 1) ∧
      changes (.prsIstoreEccHalfAddr :: .prsIstoreEccCe :: .prsIstoreEccCeCount :: timeFields) [] s t := by
  have run : execIstoreError p half .corrected u s =
      .next (((s.istorePlace p half u).wr .prsIstoreEccCe p 0 1).bump .prsIstoreEccCeCount p 0 1) := by
    unfold execIstoreError
    rw [if_pos hp]
    rfl
  have moved : changes (.prsIstoreEccHalfAddr :: timeFields) [] s (s.istorePlace p half u) := by
    have time := (changes.refl (ps := []) s).stamp u (List.subset_cons_self Field.prsIstoreEccHalfAddr timeFields)
    exact changes.ite (fun _ => time) fun _ => time.wr _ _ _ _ (by decide)
  refine ⟨_, run, ?_, ?_, ?_⟩
  · rw [State.rd_bump_ne _ _ _ _ _ _ _ _ (by decide), State.rd_wr_same]
    rfl
  · rw [State.rd_bump_same _ _ _ _ _ (by decide), State.rd_wr_ne _ _ _ _ _ _ _ _ (by decide),
      moved.1 _ _ _ (by decide)]
    rfl
  · exact ((moved.mono (by decide) (List.Subset.refl _)).wr _ _ _ _ (by decide)).bump _ _ _ _ (by decide)

end

section
variable {s : State} {p u : Nat}

/-- A lost press fails after its forme abandons (R236). -/
theorem pressLost_fails (hp : p < 12) :
    ∃ t, execPressLost p u s = .next t ∧ t.pState p = pFailed ∧
      ∀ f, s.formeOfPress p = some f → abandoned f.number causePressLost s t := by
  have run : execPressLost p u s = .next (((s.stamp u).abandonPress p causePressLost u).failPress p) := by
    unfold execPressLost
    rw [if_pos hp]
    rfl
  refine ⟨_, run, ?_, fun f hf => ?_⟩
  · unfold State.failPress State.pState
    rw [State.rd_wr_ne _ _ _ _ _ _ _ _ (by decide), State.setPState_rd, State.rd_wr_same]
    rfl
  · have time := (changes.refl s).stamp u (ps := errorParts) timeFields_subset_errorFields
    refine (abandoned_of_error (n := u) time abandonCause_pressLost f hf).congr (changes.refl s) fun g hg => ?_
    have other {x : Field} (hx : x.area = .prs) : x ≠ g := fun e =>
      absurd ((congrArg _ e).symm.trans hx ▸ hg) (by decide)
    unfold State.failPress
    rw [State.rd_wr_ne _ _ _ _ _ _ _ _ (other rfl), State.setPState_rd_ne _ _ _ _ _ _ (.inl (other rfl).symm)]

end

/-! ## A parity error in a strip (R84, R435) -/

/-- A bit that is set stands in a field that has it. -/
theorem bit_setBit_mod {x k w : Nat} (hk : k < w) : bit (setBit x k % 2 ^ w) k = true := by
  rw [bit_eq_testBit, Nat.testBit_mod_two_pow, decide_eq_true hk, Bool.true_and, setBit, bit_eq_testBit]
  cases h : x.testBit k
  · rw [if_neg (by simp), Nat.add_comm, Nat.testBit_two_pow_add_eq, h]
    rfl
  · rw [if_pos rfl, h]

theorem State.orBit_rd_same (s : State) (f : Field) (i j k : Nat) :
    (s.orBit f i j k).rd f i j = f.fit (setBit (s.rd f i j) k) :=
  State.rd_wr_same s f i j _

theorem State.orBit_rd_ne (s : State) (f g : Field) (i j a b k : Nat) (h : f ≠ g) :
    (s.orBit f i j k).rd g a b = s.rd g a b :=
  State.rd_wr_ne s f g i j a b _ h

/-- The state in which a slot parity error of a strip is counted (R435). -/
def State.parityCounted (s : State) (p strip : Nat) : State :=
  ((((s.orBit .hPrsFailPend p 0 strip).orBit .hPrsParity p 0 strip).bump .prfPressFails 0 p 1).wr
    .prfPressLastFail 0 p strip).wr .coreIrqEventsProof 0 0 1

/-- A strip that fails by parity counts, is named and waits to be marked at the boundary; the proof event rises (R84,
R435). -/
theorem State.stripFails_rd (s : State) (p n : Nat) {strip : Nat} (hs : strip < 17) :
    let t := s.stripFails p strip n true
    t.rd .prfPressLastFail 0 p = strip ∧ t.rd .prfPressFails 0 p = min 65535 (s.rd .prfPressFails 0 p + 1) ∧
      t.rd .coreIrqEventsProof 0 0 = 1 ∧ bit (t.rd .hPrsFailPend p 0) strip = true := by
  have left (g : Field) (i j : Nat) (ha : g.area ∉ [Area.imp, .forme, .cmp, .col]) (hg : g ≠ .prsStatusState) :
      (s.stripFails p strip n true).rd g i j = (s.parityCounted p strip).rd g i j := by
    have cases : s.stripFails p strip n true = if (s.parityCounted p strip).stripInUse p strip then
        (s.parityCounted p strip).abandonPress p causeSlice n else s.parityCounted p strip := rfl
    rw [cases]
    split
    · exact State.abandonPress_rd _ _ _ _ _ _ _ ha hg
    · rfl
  intro t
  rw [left _ _ _ (by decide) (by decide), left _ _ _ (by decide) (by decide), left _ _ _ (by decide) (by decide),
    left _ _ _ (by decide) (by decide)]
  unfold State.parityCounted
  refine ⟨?_, ?_, State.rd_wr_same .., ?_⟩
  · rw [State.rd_wr_ne _ _ _ _ _ _ _ _ (by decide), State.rd_wr_same]
    exact Nat.mod_eq_of_lt (Nat.lt_trans hs (by decide))
  · simp (disch := decide) only [State.rd_wr_ne, State.rd_bump_same, State.orBit_rd_ne]
    rfl
  · simp (disch := decide) only [State.rd_wr_ne, State.rd_bump_ne, State.orBit_rd_ne, State.orBit_rd_same]
    exact bit_setBit_mod hs

section
variable {s : State} {p : Nat} {k : Tok} {f : PassF}

theorem exec_pass_parity (hd : canDispatch s p k uArr) (hl : passLegal (s.press p) f (s.depth p) = true)
    (hn : ((passLines (s.press p) f ++ if f.foot = 1 then [] else drainLines f.out (s.press p) (f.mM1 + 1)).all
      fun e => caseLineOk e.1 e.2) = true) (strip : Nat) (ce : List Nat) :
    ∃ n, exec (.pass p k f (some strip) ce) s = .next (((((s.passEffect p k f).caseCes p ce).stripFails p strip n
      true).stalled p (passWaits (s.press p) f)).advance p) := by
  have unfolded : exec (.pass p k f (some strip) ce) s = execPass p k f (some strip) ce s := rfl
  obtain ⟨-, -, -, -, -, carry, -, shadow, -⟩ := running_same s p k (s.passRun p f)
  refine ⟨((s.passEffect p k f).caseCes p ce).now, ?_⟩
  rw [unfolded, execPass, dispatch_ok hd hl rfl hn]
  simp only [State.issued_press, passRun_issued, passTile_running, passRows_running]
  unfold State.passEffect State.passed passedPress passFolds
  dsimp only
  rw [← carry, ← shadow]
  rfl

/-- A PASS that meets a parity error in a strip counts it (R435). -/
theorem pass_parity (hd : canDispatch s p k uArr) (hl : passLegal (s.press p) f (s.depth p) = true)
    (hn : ((passLines (s.press p) f ++ if f.foot = 1 then [] else drainLines f.out (s.press p) (f.mM1 + 1)).all
      fun e => caseLineOk e.1 e.2) = true) {strip : Nat} (hs : strip < 17) (ce : List Nat) :
    ∃ t, Runs (.pass p k f (some strip) ce) s t ∧ t.rd .prfPressLastFail 0 p = strip ∧
      t.rd .prfPressFails 0 p = min 65535 (s.rd .prfPressFails 0 p + 1) ∧ t.rd .coreIrqEventsProof 0 0 = 1 ∧
      bit (t.rd .hPrsFailPend p 0) strip = true := by
  obtain ⟨n, run⟩ := exec_pass_parity hd hl hn strip ce
  refine ⟨_, run, ?_⟩
  have left (w : State) (g : Field) (i j : Nat) (hg : g ∉ arrWaits) (hpc : g ≠ .prsSeqStatusPc) :
      ((w.stalled p (passWaits (s.press p) f)).advance p).rd g i j = w.rd g i j := by
    rw [State.advance_rd _ _ _ _ _ hpc, State.stalled_rd _ _ _ _ _ _ fun h => hg (passWaits_subset _ _ h)]
  have before : ((s.passEffect p k f).caseCes p ce).rd .prfPressFails 0 p = s.rd .prfPressFails 0 p := by
    rw [State.caseCes_rd _ _ _ _ _ _ (by decide), State.passEffect_only.1.1 _ _ _ (by decide)]
  simp (disch := decide) only [left]
  rw [← before]
  exact State.stripFails_rd _ p n hs

end

/-- Settles O16: the errors that park a press by one rule, a lost press and a parity error by their own. -/
theorem pressErrors : Obligations.PressErrors := by
  intro s p u hp
  have all {α : Type} (l : List α) : l ⊆ l := List.Subset.refl l
  refine ⟨fun word => ?_, fun half => istoreError_corrected u hp half s, fun half => ?_, fun half => ?_, ?_, ?_⟩
  · have run := execCaseUncorrectable_eq u hp word s
    obtain ⟨parks, leaves, kept⟩ := parked_of_error (n := u) (s.caseUe_changes u p word) (s.caseUe_pState u p word)
      abandonCause_ue
    refine ⟨_, run, ?_, ?_, ?_, parks, leaves,
      (execCaseUncorrectable_moves p word u s (all _) (all _) (Moves.refl s) _ run).1⟩
    all_goals
      rw [kept _ (by decide) (by decide), s.caseUe_rd u p word (by decide)]
      simp (disch := decide) only [State.rd_wr_ne, State.rd_wr_same]
      rfl
  · have run := execIstoreError_uncorrectable u hp half s
    obtain ⟨parks, leaves, kept⟩ := parked_of_error (n := u) (s.istoreUe_changes u p half)
      (s.istoreUe_pState u p half) abandonCause_istore
    refine ⟨_, run, ?_, ?_, ?_, parks, leaves,
      (execIstoreError_moves p half _ u s (all _) (all _) (Moves.refl s) _ run).1⟩
    all_goals
      rw [kept _ (by decide) (by decide), State.istoreUe]
      simp (disch := decide) only [State.rd_wr_ne, State.rd_wr_same]
      rfl
  · have run := execIstoreError_illegal u hp half s
    obtain ⟨parks, leaves, kept⟩ := parked_of_error (n := u) (s.istoreIllegal_changes u p)
      (s.istoreIllegal_pState u p) abandonCause_istore
    refine ⟨_, run, ?_, parks, leaves, (execIstoreError_moves p half _ u s (all _) (all _) (Moves.refl s) _ run).1⟩
    rw [kept _ (by decide) (by decide), State.istoreIllegal, State.rd_wr_same]
    rfl
  · obtain ⟨t, run, state, leaves⟩ := pressLost_fails (s := s) (u := u) hp
    exact ⟨t, run, state, leaves, (execPressLost_moves p u s (all _) (all _) (Moves.refl s) _ run).1⟩
  · intro k f strip hs hd hl hn ce
    obtain ⟨t, run, last, fails, event, pend⟩ := pass_parity hd hl hn hs ce
    exact ⟨t, run, last, fails, event, pend,
      (execPass_moves p k f (some strip) ce s (all _) (all _) (Moves.refl s) _ run).1⟩

end Sys2Proof.Machine

namespace Sys2Proof.Machine

/-! ## The slots of a transfer (R143, R145 to R147) -/

namespace SlotXfer

/-- No slot is taken before it is due. -/
theorem due_le_slot (d : SlotXfer) : d.due ≤ d.slot := by
  unfold slot
  dsimp only
  split
  case h_1 t held =>
    obtain ⟨i, -, hi⟩ := List.exists_of_findSome?_eq_some held
    rw [Option.ite_none_right_eq_some] at hi
    obtain ⟨ok, slot⟩ := hi
    simp only [Bool.and_eq_true, decide_eq_true_eq] at ok
    exact Option.some.inj slot ▸ ok.1.2
  case h_2 => omega

theorem slot_lt_after (d : SlotXfer) : d.slot < d.after.slot := d.after.due_le_slot

theorem after_next (d : SlotXfer) : d.after.next = min d.lineHi (groupEnd d.next) := rfl

theorem moved_iff {d : SlotXfer} : d.moved = true ↔ d.lineHi ≤ d.next := by simp [moved]

theorem moved_eq_false_iff {d : SlotXfer} : d.moved = false ↔ d.next < d.lineHi := by simp [moved]

/-- A slot fewer is left behind one that is taken. -/
theorem slots_after {d : SlotXfer} (hm : d.moved = false) (ha : d.after.moved = false) :
    d.slots = d.after.slots + 1 := by
  rw [moved_eq_false_iff] at hm ha
  simp only [after, slots, groupEnd] at ha ⊢
  omega

theorem slots_pos {d : SlotXfer} (hm : d.moved = false) : 0 < d.slots := by
  rw [moved_eq_false_iff] at hm
  unfold slots
  omega

/-- The slot that moves the last line, where more than one is left, is that of the transfer after its next slot. -/
theorem slotOf_last_after {d : SlotXfer} (hm : d.moved = false) (ha : d.after.moved = false) :
    d.slotOf (d.lineHi - 1) = d.after.slotOf (d.lineHi - 1) := by
  rw [slotOf, slots_after hm ha, upTo, if_neg, slotOf]
  rw [moved_eq_false_iff] at ha
  simp only [after] at ha
  omega

/-- The next slot is not behind that of the last line. -/
theorem slot_le_slotOf_last {d : SlotXfer} (hm : d.moved = false) : d.slot ≤ d.slotOf (d.lineHi - 1) := by
  obtain ⟨n, hn⟩ : ∃ n, d.slots = n := ⟨_, rfl⟩
  induction n generalizing d with
  | zero => exact absurd hn (Nat.ne_of_gt (slots_pos hm))
  | succ n ih =>
    cases ha : d.after.moved
    · rw [slotOf_last_after hm ha]
      have later : d.after.slot ≤ d.after.slotOf (d.lineHi - 1) :=
        ih ha (Nat.succ.inj ((slots_after hm ha).symm.trans hn))
      exact Nat.le_trans (Nat.le_of_lt d.slot_lt_after) later
    · have last : d.lineHi ≤ min d.lineHi (groupEnd d.next) := moved_iff.mp ha
      rw [moved_eq_false_iff] at hm
      rw [slotOf, hn, upTo, if_pos (by omega)]

end SlotXfer

/-! ## Lines copied from one memory to another (R134) -/

/-- dst is dst₀ with n bytes from a those of src from b. -/
def copied (src dst₀ dst : Memory) (a b n : Nat) : Prop :=
  ∀ x, dst.get x = if a ≤ x ∧ x < a + n then src.get (b + (x - a)) else dst₀.get x

theorem copied_nil (src dst : Memory) (a b : Nat) : copied src dst dst a b 0 := fun x => by
  rw [if_neg (by omega)]

theorem copied.write {src dst₀ dst : Memory} {a b n : Nat} (h : copied src dst₀ dst a b n) (hw : dst.wf = true)
    (m : Nat) : copied src dst₀ (dst.write (a + n) (src.read (b + n) m)) a b (n + m) := by
  intro x
  have len : (src.read (b + n) m).length = m := by simp [Memory.read]
  rw [Memory.get_write _ _ _ _ hw, len, h x]
  by_cases hx : a + n ≤ x ∧ x < a + n + m
  · have byte : (src.read (b + n) m).getD (x - (a + n)) 0 = src.get (b + n + (x - (a + n))) :=
      getD_map_range _ _ (by omega)
    rw [if_pos hx, if_pos (by omega), byte]
    congr 1
    omega
  · rw [if_neg hx]
    by_cases hn : a ≤ x ∧ x < a + n
    · rw [if_pos hn, if_pos (by omega)]
    · rw [if_neg hn, if_neg (by omega)]

theorem copied.within {src dst₀ dst : Memory} {a b n i : Nat} (h : copied src dst₀ dst a b n) (hi : i < n) :
    dst.get (a + i) = src.get (b + i) := by
  rw [h, if_pos (by omega), Nat.add_sub_cancel_left]

theorem copied.outside {src dst₀ dst : Memory} {a b n x : Nat} (h : copied src dst₀ dst a b n)
    (hx : x < a ∨ a + n ≤ x) : dst.get x = dst₀.get x := by
  rw [h, if_neg (by omega)]

/-! ## What transfers move (R28, R134, R146) -/

/-- Of what the presses hold only cases changed. -/
def casesOnly (s t : State) : Prop := ∀ q, t.press q = { s.press q with caseMem := (t.press q).caseMem }

theorem casesOnly.refl (s : State) : casesOnly s s := fun _ => rfl

theorem casesOnly.of_presses {s t : State} (h : t.presses = s.presses) : casesOnly s t := fun q => by
  unfold State.press
  rw [h]

theorem casesOnly.trans {s t u : State} (h : casesOnly s t) (h' : casesOnly t u) : casesOnly s u := fun q => by
  rw [h' q, h q]

theorem State.moveTo_casesOnly (s : State) (d : SlotXfer) (past : Nat) : casesOnly s (s.moveTo d past) := by
  unfold State.moveTo
  dsimp only
  split
  · split
    · exact .of_presses rfl
    · intro q
      rw [State.press_setPress]
      split
      next h => subst h; rfl
      next => rfl
  · have units (w : State) (c stack mode m line : Nat) (g : Bool) (n : Nat) :
        (w.moveUnits c stack mode m line g n).presses = w.presses :=
      (State.moveUnits_moves w c stack mode m line g n (List.Subset.refl _) (Moves.refl (as := []) w)).1.2 .presses
        (by decide)
    split <;> exact .of_presses (units ..)

theorem State.runSlots_casesOnly (s : State) (f c : Nat) (go : SlotXfer → Bool) (n : Nat) :
    casesOnly s (s.runSlots f c go n) := by
  induction n generalizing s with
  | zero => exact .refl s
  | succ n ih =>
    rw [State.runSlots]
    split
    · exact .refl s
    · split
      · exact (s.moveTo_casesOnly _ _).trans (ih _)
      · exact .refl s

theorem State.endBond_casesOnly (s : State) (p u : Nat) : casesOnly s (s.endBond p u) := by
  unfold State.endBond
  split
  · exact .refl s
  · dsimp only
    split
    · exact .of_presses rfl
    · exact (s.runSlots_casesOnly _ _ _ _).trans (.of_presses rfl)

/-- The lines of one slot of a GLOAD or GSTORE (R134). -/
theorem State.moveTo_bond (s : State) {d : SlotXfer} (hb : d.isBond = true) (hm : d.moved = false) :
    s.moveTo d (groupEnd d.next) =
      let w : State := { s with drains := s.drains.map fun y => if y = d then d.after else y }
      let n := (d.after.next - d.next) * 256
      if d.fill then w.writeGal d.chase (d.next * 256) ((w.press d.press).caseBytes (d.memAddr + (d.next - d.lineLo)) n)
      else w.setPress d.press
        ((w.press d.press).writeCase (d.memAddr + (d.next - d.lineLo)) (w.readGal d.chase (d.next * 256) n)) := by
  rw [SlotXfer.moved_eq_false_iff] at hm
  have next : max d.next (min (groupEnd d.next) d.lineHi) = min d.lineHi (groupEnd d.next) := by
    unfold groupEnd
    omega
  unfold State.moveTo SlotXfer.after
  dsimp only
  rw [if_pos hb, next, Nat.min_comm]

/-- What of a transfer its slots leave as it was. -/
def SlotXfer.fixed (d : SlotXfer) : SlotXfer := { d with next := 0, due := 0 }

theorem SlotXfer.eq_of_fixed {d e : SlotXfer} (h : d.fixed = e.fixed) :
    d.forme = e.forme ∧ d.chase = e.chase ∧ d.code = e.code ∧ d.fill = e.fill ∧ d.lineLo = e.lineLo ∧
      d.lineHi = e.lineHi ∧ d.memAddr = e.memAddr := by
  simp only [fixed, SlotXfer.mk.injEq] at h
  tauto

/-- From s to w the lines of the bond transfer d have moved up to the next line of `now`, which is d by then. -/
structure bondMoved (s : State) (d now : SlotXfer) (w : State) : Prop where
  inv : w.inv = true
  same : now.fixed = d.fixed
  lo : d.lineLo ≤ now.next
  hi : now.next ≤ d.lineHi
  load : d.fill = false → w.mem = s.mem ∧ copied s.mem (s.press d.press).caseMem (w.press d.press).caseMem
    (d.memAddr * 256) (galBase d.chase + d.lineLo * 256) ((now.next - d.lineLo) * 256)
  store : d.fill = true → (w.press d.press).caseMem = (s.press d.press).caseMem ∧ copied (s.press d.press).caseMem s.mem
    w.mem (galBase d.chase + d.lineLo * 256) (d.memAddr * 256) ((now.next - d.lineLo) * 256)

theorem bondMoved.refl {s : State} {d : SlotXfer} (hs : s.inv = true) (hl : d.next = d.lineLo)
    (hh : d.lineLo ≤ d.lineHi) : bondMoved s d d s where
  inv := hs
  same := rfl
  lo := Nat.le_of_eq hl.symm
  hi := hl ▸ hh
  load _ := ⟨rfl, by rw [hl, Nat.sub_self, Nat.zero_mul]; exact copied_nil _ _ _ _⟩
  store _ := ⟨rfl, by rw [hl, Nat.sub_self, Nat.zero_mul]; exact copied_nil _ _ _ _⟩

/-- A slot moves the next lines of its transfer. -/
theorem bondMoved.slot {s w : State} {d now : SlotXfer} (h : bondMoved s d now w) (hb : d.isBond = true)
    (hm : now.moved = false) : bondMoved s d now.after (w.moveTo now (groupEnd now.next)) := by
  obtain ⟨inv, same, lo, hi, load, store⟩ := h
  obtain ⟨-, chase, code, fill, lineLo, lineHi, memAddr⟩ := SlotXfer.eq_of_fixed same
  have press : now.press = d.press := by rw [SlotXfer.press, chase, code]; rfl
  have bond : now.isBond = true := by rw [SlotXfer.isBond, code]; exact hb
  have inv' := (State.moveTo_moves (as := []) w now (groupEnd now.next) (List.Subset.refl _) (Moves.refl w)).2 inv
  have next : now.next ≤ now.after.next ∧ now.after.next ≤ d.lineHi := by
    rw [SlotXfer.moved_eq_false_iff] at hm
    rw [SlotXfer.after_next, lineHi, groupEnd]
    omega
  have lines : (now.after.next - d.lineLo) * 256 = (now.next - d.lineLo) * 256 + (now.after.next - now.next) * 256 := by
    omega
  have gal : galBase d.chase + now.next * 256 = galBase d.chase + d.lineLo * 256 + (now.next - d.lineLo) * 256 := by
    rw [Nat.add_assoc, ← Nat.add_mul, Nat.add_sub_cancel' lo]
  have case : (d.memAddr + (now.next - d.lineLo)) * 256 = d.memAddr * 256 + (now.next - d.lineLo) * 256 := by
    rw [Nat.add_mul]
  refine ⟨inv', same, Nat.le_trans lo next.1, next.2, fun filled => ?_, fun filled => ?_⟩
  · obtain ⟨mem, bytes⟩ := load filled
    rw [State.moveTo_bond _ bond hm, fill, filled, press, chase, lineLo, memAddr, ← mem]
    refine ⟨rfl, ?_⟩
    have write := bytes.write (w.inv_caseMem d.press inv) ((now.after.next - now.next) * 256)
    rw [← lines, ← gal, ← case, ← mem] at write
    simp only [Bool.false_eq_true, if_false, State.press_setPress, if_true]
    exact write
  · obtain ⟨mem, bytes⟩ := store filled
    have write := bytes.write ((State.inv_iff w).mp inv).2.1 ((now.after.next - now.next) * 256)
    rw [← lines, ← gal, ← case, ← mem] at write
    rw [State.moveTo_bond _ bond hm, fill, filled, press, chase, lineLo, memAddr, ← mem]
    exact ⟨rfl, write⟩

/-- The transfer is one of forme f in slice c that has lines to move. -/
def SlotXfer.underWay (f c : Nat) (d : SlotXfer) : Bool := d.forme = f && d.chase = c && !d.moved

theorem State.nextXfer_none {s : State} {f c : Nat} (h : s.drains.filter (SlotXfer.underWay f c) = []) :
    s.nextXfer f c = none := by
  have filtered : (s.drains.filter fun d => d.forme = f && d.chase = c && !d.moved) = [] := h
  rw [State.nextXfer, filtered]
  rfl

theorem State.nextXfer_only {s : State} {f c : Nat} {d : SlotXfer}
    (h : s.drains.filter (SlotXfer.underWay f c) = [d]) : s.nextXfer f c = some d := by
  have filtered : (s.drains.filter fun d => d.forme = f && d.chase = c && !d.moved) = [d] := h
  rw [State.nextXfer, filtered]
  rfl

section
variable {s w : State} {d now : SlotXfer} {l₁ l₂ : List SlotXfer}
  (h₁ : l₁.filter (SlotXfer.underWay d.forme d.chase) = []) (h₂ : l₂.filter (SlotXfer.underWay d.forme d.chase) = [])
  (hw : w.drains = l₁ ++ now :: l₂) (same : now.fixed = d.fixed)

include h₁ h₂ hw same

/-- Of transfers of which one at most is under way, that one takes the next slot. -/
theorem State.nextXfer_between : w.nextXfer d.forme d.chase = if now.moved then none else some now := by
  obtain ⟨forme, chase, -⟩ := SlotXfer.eq_of_fixed same
  have filter : w.drains.filter (SlotXfer.underWay d.forme d.chase) = if now.moved then [] else [now] := by
    rw [hw, List.filter_append, h₁, List.nil_append, List.filter_cons, h₂]
    cases hm : now.moved <;> simp [SlotXfer.underWay, forme, chase, hm]
  cases hm : now.moved
  · exact State.nextXfer_only (filter.trans (by simp [hm]))
  · exact State.nextXfer_none (filter.trans (by simp [hm]))

/-- That transfer alone differs after its slot. -/
theorem State.moveTo_drains (hb : d.isBond = true) (hm : now.moved = false) :
    (w.moveTo now (groupEnd now.next)).drains = l₁ ++ now.after :: l₂ := by
  obtain ⟨forme, chase, code, -⟩ := SlotXfer.eq_of_fixed same
  have others {l : List SlotXfer} (h : l.filter (SlotXfer.underWay d.forme d.chase) = []) :
      l.map (fun y => if y = now then now.after else y) = l := by
    conv_rhs => rw [← List.map_id l]
    refine List.map_congr_left fun y hy => if_neg ?_
    rintro rfl
    exact absurd (List.filter_eq_nil_iff.mp h y hy) (by simp [SlotXfer.underWay, forme, chase, hm])
  have moved : (w.moveTo now (groupEnd now.next)).drains = w.drains.map fun y => if y = now then now.after else y := by
    rw [State.moveTo_bond _ (show now.isBond = true by rw [SlotXfer.isBond, code]; exact hb) hm]
    dsimp only
    split <;> rfl
  rw [moved, hw, List.map_append, List.map_cons, others h₁, others h₂, if_pos rfl]

omit same

/-- The slots of the only transfer under way pass up to its last (R28, R134). -/
theorem State.runSlots_bond (hb : d.isBond = true) {t n : Nat}
    (ht : now.moved = false → now.slotOf (now.lineHi - 1) < t) (hn : now.moved = false → now.slots ≤ n)
    (h : bondMoved s d now w) :
    ∃ last, (w.runSlots d.forme d.chase (fun y => y.slot < t) n).drains = l₁ ++ last :: l₂ ∧ last.next = d.lineHi ∧
      bondMoved s d last (w.runSlots d.forme d.chase (fun y => y.slot < t) n) := by
  have ends {now : SlotXfer} {w : State} (h : bondMoved s d now w) (hm : now.moved = true) : now.next = d.lineHi := by
    obtain ⟨-, -, -, -, -, lineHi, -⟩ := SlotXfer.eq_of_fixed h.same
    exact Nat.le_antisymm h.hi (lineHi ▸ SlotXfer.moved_iff.mp hm)
  induction n generalizing now w with
  | zero =>
    cases hm : now.moved
    · exact absurd (hn hm) (Nat.not_le.mpr (SlotXfer.slots_pos hm))
    · exact ⟨now, hw, ends h hm, h⟩
  | succ n ih =>
    rw [State.runSlots, State.nextXfer_between h₁ h₂ hw h.same]
    cases hm : now.moved
    · have due : now.slot < t := Nat.lt_of_le_of_lt (SlotXfer.slot_le_slotOf_last hm) (ht hm)
      simp only [due, decide_true, Bool.false_eq_true, if_true, if_false]
      refine ih (State.moveTo_drains h₁ h₂ hw h.same hb hm) (fun ha => ?_) (fun ha => ?_) (h.slot hb hm)
      · exact (SlotXfer.slotOf_last_after hm ha).symm ▸ ht hm
      · have := SlotXfer.slots_after hm ha
        have := hn hm
        omega
    · exact ⟨now, hw, ends h hm, h⟩

end

/-- The oldest bond transfer of a unit is where its press and its direction are found first. -/
def SlotXfer.bondOf (p : Nat) (fill : Bool) (d : SlotXfer) : Bool := d.isBond && d.press = p && d.fill = fill

theorem SlotXfer.bondOf_fixed {d e : SlotXfer} (h : d.fixed = e.fixed) (p : Nat) (fill : Bool) :
    d.bondOf p fill = e.bondOf p fill := by
  obtain ⟨-, chase, code, dir, -⟩ := SlotXfer.eq_of_fixed h
  rw [bondOf, bondOf, isBond, isBond, press, press, chase, code, dir]

theorem State.endBond_below {s : State} {u : Nat} (p : Nat) (hu : u < 4) : s.endBond p u = s := by
  have none : s.drains.find? (fun d => 4 ≤ u && d.isBond && d.press = p && d.fill = decide (u = uBout)) = none := by
    rw [List.find?_eq_none]
    intro d _
    simp [Nat.not_le.mpr hu]
  rw [State.endBond, none]

theorem State.endBond_find {s : State} {p u : Nat} {d : SlotXfer} (hu : 4 ≤ u)
    (hd : s.drains.find? (SlotXfer.bondOf p (decide (u = uBout))) = some d) (hm : d.moved = false) :
    s.endBond p u = { s.finishXfer d with drains := (s.finishXfer d).drains.eraseP (SlotXfer.bondOf p d.fill) } := by
  have found : (fun d : SlotXfer => 4 ≤ u && d.isBond && d.press = p && d.fill = decide (u = uBout)) =
      SlotXfer.bondOf p (decide (u = uBout)) := by
    funext d
    simp only [hu, decide_true, Bool.true_and]
    rfl
  rw [State.endBond, found, hd]
  dsimp only
  rw [if_neg (by simp [hm])]
  rfl

/-- A GLOAD or GSTORE that ends, alone under way in its slice, has moved its lines (R28, R134). -/
theorem State.endBond_moves_lines {s : State} {p u : Nat} {d : SlotXfer} (hs : s.inv = true) (hu : 4 ≤ u)
    (hd : s.drains.find? (SlotXfer.bondOf p (decide (u = uBout))) = some d) (hl : d.next = d.lineLo)
    (hh : d.lineLo < d.lineHi) (alone : s.drains.filter (SlotXfer.underWay d.forme d.chase) = [d]) :
    (s.endBond p u).drains = s.drains.erase d ∧
      ∃ last, last.next = d.lineHi ∧ bondMoved s d last (s.endBond p u) := by
  obtain ⟨isBond, l₁, l₂, split, before⟩ := List.find?_eq_some_iff_append.mp hd
  have hm : d.moved = false := SlotXfer.moved_eq_false_iff.mpr (hl ▸ hh)
  have underWay : d.underWay d.forme d.chase = true := by simp [SlotXfer.underWay, hm]
  obtain ⟨h₁, h₂⟩ : l₁.filter (SlotXfer.underWay d.forme d.chase) = [] ∧
      l₂.filter (SlotXfer.underWay d.forme d.chase) = [] := by
    rw [split, List.filter_append, List.filter_cons_of_pos underWay] at alone
    simpa [List.append_eq_singleton_iff] using alone
  have bond : d.isBond = true := by
    simp only [SlotXfer.bondOf, Bool.and_eq_true] at isBond
    exact isBond.1.1
  have fuel : d.slots ≤ (s.drains.map SlotXfer.slots).sum := by
    rw [split]
    simp
    omega
  obtain ⟨last, drains, next, moved⟩ := State.runSlots_bond h₁ h₂ split bond (fun _ => Nat.lt_succ_self _)
    (fun _ => fuel) (bondMoved.refl hs hl (Nat.le_of_lt hh))
  have ends : bondMoved s d last (s.finishXfer d) := moved
  have left : (s.finishXfer d).drains = l₁ ++ last :: l₂ := drains
  have fill : d.fill = decide (u = uBout) := by
    simp only [SlotXfer.bondOf, Bool.and_eq_true, decide_eq_true_eq] at isBond
    exact isBond.2
  have first {y : SlotXfer} (hy : y ∈ l₁) : ¬y.bondOf p (decide (u = uBout)) = true := by simpa using before y hy
  rw [State.endBond_find hu hd hm]
  refine ⟨?_, last, next, ends.inv, ends.same, ends.lo, ends.hi, ends.load, ends.store⟩
  have here : last.bondOf p (decide (u = uBout)) = true := (SlotXfer.bondOf_fixed ends.same ..).trans isBond
  have apart : d ∉ l₁ := fun hy => first hy isBond
  dsimp only
  rw [left, fill, List.eraseP_append_right _ fun y hy => first hy, List.eraseP_cons_of_pos here, split,
    List.erase_append_right _ apart, List.erase_cons_head]

end Sys2Proof.Machine

namespace Sys2Proof.Machine

/-! ## Completions (R108, R109, R125) -/

/-- What press x holds once the first instruction e of unit u completes and leaves r (R108, R125). -/
def Press.completed (x : Press) (u : Nat) (e : UnitEntry) (r : List UnitEntry) : Press :=
  let y := { x with queues := x.queues.put u r }
  { y with
    tokens := if e.sen then x.tokens.put e.stok (min 255 (x.token e.stok + 1)) else x.tokens
    gated := x.gated || (x.rampMode = 3 && y.arrayIdle) }

section
variable (x : Press) (u : Nat) (e : UnitEntry) (r : List UnitEntry)

/-- The gate and the signal of a completion, as the model takes them in turn. -/
theorem Press.completed_eq : x.completed u e r =
    let y := { x with queues := x.queues.put u r }
    let y := if y.rampMode = 3 && y.arrayIdle then { y with gated := true } else y
    if e.sen then y.signal e.stok else y := by
  cases idle : decide (x.rampMode = 3) && ({ x with queues := x.queues.put u r } : Press).arrayIdle <;>
    cases send : e.sen <;>
    simp only [Press.completed, Press.signal, idle, send, Bool.or_false, Bool.or_true, Bool.false_eq_true, if_true,
      if_false] <;> rfl

theorem Press.completed_queue (v : Nat) : (x.completed u e r).queue v = if u = v then r else x.queue v :=
  SMap.getD_put ..

theorem Press.completed_token (n : Nat) : (x.completed u e r).token n =
    if e.sen ∧ n = e.stok then min 255 (x.token n + 1) else x.token n := by
  unfold Press.completed Press.token
  dsimp only
  cases e.sen
  · rfl
  · simp only [if_true, SMap.getD_put, true_and, eq_comm (a := n)]
    split
    next h => rw [h]
    next => rfl

theorem Press.completed_gated : (x.completed u e r).gated = true ↔
    x.gated = true ∨ (x.rampMode = 3 ∧ (x.completed u e r).arrayIdle = true) := by
  have idle : (x.completed u e r).arrayIdle = ({ x with queues := x.queues.put u r } : Press).arrayIdle := rfl
  rw [idle, ← decide_eq_true_iff (p := x.rampMode = 3), ← Bool.and_eq_true, ← Bool.or_eq_true]
  rfl

end

/-- The state after a completion: the bond transfer of the unit ends first (R108, R109, R134). -/
def State.completes (s : State) (p u : Nat) (e : UnitEntry) (r : List UnitEntry) : State :=
  (s.endBond p u).setPress p (((s.endBond p u).press p).completed u e r)

theorem execInstructionComplete_nil {s : State} {p u : Nat} (hp : p < 12) (h1 : 1 ≤ u) (h5 : u ≤ 5)
    (hq : (s.press p).queue u = []) : execInstructionComplete p u s = .next s := by
  unfold execInstructionComplete
  rw [if_pos (by simp [hp, h1, h5])]
  dsimp only
  rw [hq]

theorem execInstructionComplete_cons {s : State} {p u : Nat} {e : UnitEntry} {r : List UnitEntry} (hp : p < 12)
    (h1 : 1 ≤ u) (h5 : u ≤ 5) (hq : (s.press p).queue u = e :: r) :
    execInstructionComplete p u s = .next (s.completes p u e r) := by
  unfold execInstructionComplete State.completes
  rw [if_pos (by simp [hp, h1, h5]), Press.completed_eq]
  dsimp only
  rw [hq]

section
variable {s : State} {p u : Nat} (e : UnitEntry) (r : List UnitEntry)

theorem State.completes_press : (s.completes p u e r).press p = ((s.endBond p u).press p).completed u e r :=
  (State.press_setPress ..).trans (if_pos rfl)

theorem State.completes_press_ne {q : Nat} (h : q ≠ p) : (s.completes p u e r).press q = (s.endBond p u).press q :=
  (State.press_setPress ..).trans (if_neg h.symm)

/-- A completion takes the instruction off its unit and leaves the other units (R109). -/
theorem State.completes_queue (v : Nat) :
    ((s.completes p u e r).press p).queue v = if u = v then r else (s.press p).queue v := by
  rw [State.completes_press, Press.completed_queue, s.endBond_casesOnly p u p]
  rfl

/-- The signal of a completion is its only effect on the tokens (R108). -/
theorem State.completes_token (n : Nat) : ((s.completes p u e r).press p).token n =
    if e.sen ∧ n = e.stok then min 255 ((s.press p).token n + 1) else (s.press p).token n := by
  rw [State.completes_press, Press.completed_token, s.endBond_casesOnly p u p]
  rfl

/-- In mode GATE the completion that leaves the array idle gates it (R125). -/
theorem State.completes_gated : ((s.completes p u e r).press p).gated = true ↔
    (s.press p).gated = true ∨ ((s.press p).rampMode = 3 ∧ ((s.completes p u e r).press p).arrayIdle = true) := by
  rw [State.completes_press, Press.completed_gated, s.endBond_casesOnly p u p]

theorem State.completes_vregs : ((s.completes p u e r).press p).vregs = (s.press p).vregs := by
  rw [State.completes_press, s.endBond_casesOnly p u p]
  rfl

theorem State.completes_caseMem : ((s.completes p u e r).press p).caseMem = ((s.endBond p u).press p).caseMem := by
  rw [State.completes_press]
  rfl

/-- A unit that makes no bond transfer moves its press alone. -/
theorem State.completes_only (hu : u < 4) : onlyPress [] [] p s (s.completes p u e r) := by
  rw [State.completes, State.endBond_below p hu]
  exact (onlyPress.refl [] [] p s).setPress _

end

/-- The bytes that the end of a GLOAD or GSTORE alone in its slice has moved (R134). -/
theorem State.completes_moves_lines {s : State} {p u : Nat} (e : UnitEntry) (r : List UnitEntry) {d : SlotXfer}
    (hs : s.inv = true) (hu : 4 ≤ u) (hd : s.drains.find? (SlotXfer.bondOf p (decide (u = uBout))) = some d)
    (hl : d.next = d.lineLo) (hh : d.lineLo < d.lineHi)
    (alone : s.drains.filter (SlotXfer.underWay d.forme d.chase) = [d]) :
    let t := s.completes p u e r
    let n := (d.lineHi - d.lineLo) * 256
    let g := galBase (p / 3) + d.lineLo * 256
    let c := d.memAddr * 256
    t.drains = s.drains.erase d ∧
      (d.fill = false → t.mem = s.mem ∧ copied s.mem (s.press p).caseMem (t.press p).caseMem c g n) ∧
      (d.fill = true → (t.press p).caseMem = (s.press p).caseMem ∧ copied (s.press p).caseMem s.mem t.mem g c n) := by
  obtain ⟨drains, last, next, moved⟩ := State.endBond_moves_lines hs hu hd hl hh alone
  have bond := List.find?_some hd
  simp only [SlotXfer.bondOf, SlotXfer.isBond, Bool.and_eq_true, decide_eq_true_eq] at bond
  obtain ⟨⟨code, press⟩, -⟩ := bond
  have chase : p / 3 = d.chase := by
    rw [SlotXfer.press] at press
    omega
  have load := moved.load
  have store := moved.store
  rw [next, press] at load store
  intro t n g c
  refine ⟨drains, fun filled => ?_, fun filled => ?_⟩
  · rw [State.completes_caseMem, show g = galBase d.chase + d.lineLo * 256 by rw [← chase]]
    exact load filled
  · rw [State.completes_caseMem, show g = galBase d.chase + d.lineLo * 256 by rw [← chase]]
    exact store filled

/-! ## Idle events (R88, R98, R125) -/

section
variable {s : State} {p : Nat}

theorem arrayResume_runs (hp : p < 12) (n : Nat) :
    ((s.press p).frozen = false → Runs (.arrayResume p n) s s) ∧
      ((s.press p).frozen = true → ∃ t, Runs (.arrayResume p n) s t ∧
        t.press p = { s.press p with frozen := decide (32 < (s.press p).drainQ.length) } ∧
        t.rd .prsStallCountsCaseConflict p 0 = min 65535 (s.rd .prsStallCountsCaseConflict p 0 + n) ∧
        onlyPress [.prsStallCountsCaseConflict] [] p s t) := by
  have exec : execArrayResume p n s = if (s.press p).frozen then
      .next ((s.setPress p { s.press p with frozen := decide (32 < (s.press p).drainQ.length) }).bump
        .prsStallCountsCaseConflict p 0 n) else .next s := if_pos hp
  refine ⟨fun runs => exec.trans (if_neg (by simp [runs])), fun frozen => ⟨_, exec.trans (if_pos frozen), ?_, ?_, ?_⟩⟩
  · rw [State.press, State.bump_presses]
    exact (State.press_setPress ..).trans (if_pos rfl)
  · rw [State.rd_bump_same _ _ _ _ _ (by decide), State.rd_setPress]
    rfl
  · exact ((onlyPress.refl [.prsStallCountsCaseConflict] [] p s).setPress _).and_changes (by decide)
      ((changes.refl _).bump _ _ _ _ (by decide))

theorem arrayGate_runs (hp : p < 12) :
    ((s.press p).rampMode = 0 → (∀ f, s.formeOfPress p = some f → s.closingSlices f.number = false) →
      ∃ t, Runs (.arrayGate p) s t ∧ t.press p = { s.press p with gated := true } ∧ onlyPress [] [] p s t) ∧
    ((s.press p).rampMode ≠ 0 → Runs (.arrayGate p) s s) := by
  have unfolded (t : State) : Runs (.arrayGate p) s t ↔ execArrayGate p s = .next t := Iff.rfl
  refine ⟨fun mode free => ⟨s.setPress p { s.press p with gated := true }, ?_, ?_, ?_⟩, fun mode => ?_⟩
  · rw [unfolded, execArrayGate, if_pos hp]
    cases hf : s.formeOfPress p with
    | none => simp [mode]
    | some f => simp [mode, free f hf]
  · exact (State.press_setPress ..).trans (if_pos rfl)
  · exact (onlyPress.refl [] [] p s).setPress _
  · rw [unfolded, execArrayGate, if_pos hp]
    simp [mode]

end

/-! ## The scrub of a case (R97, R98) -/

section
variable {s : State} {p : Nat}

/-- The state of a scrub before its corrected words. -/
def State.scrubbed (s : State) (p : Nat) : State :=
  s.wr .hPrsScrubLine p 0 ((s.rd .hPrsScrubLine p 0 + 1) % 262144)

theorem execCaseScrub_eq (hp : p < 12) (ce : List Nat) : execCaseScrub p ce s = .next ((s.scrubbed p).caseCes p ce) :=
  if_pos hp

theorem State.scrubbed_line : (s.scrubbed p).rd .hPrsScrubLine p 0 = (s.rd .hPrsScrubLine p 0 + 1) % 262144 := by
  rw [State.scrubbed, State.rd_wr_same]
  exact Nat.mod_eq_of_lt (Nat.mod_lt _ (by decide))

theorem State.scrubbed_changes : changes [.hPrsScrubLine] [] s (s.scrubbed p) :=
  (changes.refl s).wr _ _ _ _ (by decide)

theorem State.on_caseUe_each (s : State) (p : Nat) (ws : List Nat) :
    (s.each ws fun s w => s.caseCe p w).on .caseEccStatusUe p 0 = s.on .caseEccStatusUe p 0 := by
  have same := ((changes.refl s).each ws (fun s w => s.caseCe p w) fun x w hx =>
    hx.caseCe p w (List.Subset.refl ceFields) (List.Subset.refl ceParts)).1 .caseEccStatusUe p 0 (by decide)
  rw [State.on, State.on, same]

/-- The address of an uncorrectable word stands (R97). -/
theorem State.each_caseCe_wordAddr (ws : List Nat) (hu : s.on .caseEccStatusUe p 0 = true) :
    (s.each ws fun s w => s.caseCe p w).rd .caseEccStatusWordAddr p 0 = s.rd .caseEccStatusWordAddr p 0 := by
  have seen (t : State) (e : CeEntry) (place w : Nat) :=
    (changes.refl t).ceSeen e place w (List.Subset.refl suspectFields) (List.Subset.refl ceParts)
  induction ws generalizing s with
  | nil => rfl
  | cons w l ih =>
    rw [State.each_cons, ih (by rw [← hu]; exact s.on_caseUe_each p [w]), State.caseCe, if_pos hu,
      (seen _ _ _ _).1 _ _ _ (by decide), State.rd_bump_ne _ _ _ _ _ _ _ _ (by decide),
      State.rd_wr_ne _ _ _ _ _ _ _ _ (by decide)]

theorem State.caseCes_wordAddr_ue (ws : List Nat) (hu : s.on .caseEccStatusUe p 0 = true) :
    (s.caseCes p ws).rd .caseEccStatusWordAddr p 0 = s.rd .caseEccStatusWordAddr p 0 := by
  rw [← s.each_caseCe_wordAddr ws hu, State.caseCes]
  split
  · rfl
  · rw [if_pos ((s.on_caseUe_each p ws).trans hu)]

/-- Words of one line are those of the last line read. -/
theorem lastRead_append {ce : List Nat} {w : Nat} (h : ∀ x ∈ ce, x / 32 = w / 32) :
    lastRead (ce ++ [w]) = w :: ce.reverse := by
  have all : ce.reverse.takeWhile (fun x => decide (x / 32 = w / 32)) = ce.reverse :=
    List.takeWhile_eq_self_iff.mpr fun x hx => decide_eq_true (h x (List.mem_reverse.mp hx))
  rw [lastRead, List.reverse_append, List.reverse_singleton, List.singleton_append]
  dsimp only
  rw [all]

/-- The lowest corrected word of a line read is the address shown while ue is clear (R97). -/
theorem State.caseCes_wordAddr {ce : List Nat} {w : Nat} (hu : s.on .caseEccStatusUe p 0 = false)
    (h : ∀ x ∈ ce, x / 32 = w / 32) :
    (s.caseCes p (ce ++ [w])).rd .caseEccStatusWordAddr p 0 = ce.foldl min w % 2 ^ 23 := by
  have lowest : ce.reverse.foldl min w = ce.foldl min w := (List.reverse_perm ce).foldl_eq w
  rw [State.caseCes, lastRead_append h]
  dsimp only
  rw [if_neg (by rw [s.on_caseUe_each p, hu]; decide), State.rd_wr_same, lowest]
  rfl

/-- A scrub that corrects words counts them and shows the lowest of the line's (R97, R98). -/
theorem caseScrub_corrected (hp : p < 12) (ce : List Nat) (w : Nat) :
    ∃ t, Runs (.caseScrub p (ce ++ [w])) s t ∧
      t.rd .hPrsScrubLine p 0 = (s.rd .hPrsScrubLine p 0 + 1) % 262144 ∧ t.rd .caseEccStatusCe p 0 = 1 ∧
      t.rd .caseCeCountCount p 0 = min (2 ^ 32 - 1) (s.rd .caseCeCountCount p 0 + ce.length + 1) ∧
      t.rd .caseEccStatusUe p 0 = s.rd .caseEccStatusUe p 0 ∧
      (s.on .caseEccStatusUe p 0 = true → t.rd .caseEccStatusWordAddr p 0 = s.rd .caseEccStatusWordAddr p 0) ∧
      (s.on .caseEccStatusUe p 0 = false → (∀ x ∈ ce, x / 32 = w / 32) →
        t.rd .caseEccStatusWordAddr p 0 = ce.foldl min w % 2 ^ 23) ∧
      t.presses = s.presses ∧ t.mem = s.mem := by
  obtain ⟨flag, count⟩ : ((s.scrubbed p).caseCes p (ce ++ [w])).rd .caseEccStatusCe p 0 = 1 ∧
      ((s.scrubbed p).caseCes p (ce ++ [w])).rd .caseCeCountCount p 0 =
        min (2 ^ 32 - 1) ((s.scrubbed p).rd .caseCeCountCount p 0 + (ce ++ [w]).length) := by
    cases ce with
    | nil => exact State.caseCes_cons_rd ..
    | cons v l => exact State.caseCes_cons_rd ..
  have before (g : Field) (i j : Nat) (hg : g ∉ [Field.hPrsScrubLine]) : (s.scrubbed p).rd g i j = s.rd g i j :=
    State.scrubbed_changes.1 g i j hg
  have on : (s.scrubbed p).on .caseEccStatusUe p 0 = s.on .caseEccStatusUe p 0 := by
    rw [State.on, State.on, before _ _ _ (by decide)]
  have parts := ((s.scrubbed p).caseCes_changes p (ce ++ [w])).2
  refine ⟨_, execCaseScrub_eq hp (ce ++ [w]), ?_, flag, ?_, ?_, fun hu => ?_, fun hu same => ?_,
    parts .presses (by decide), parts .mem (by decide)⟩
  · rw [State.caseCes_rd _ _ _ _ _ _ (by decide), State.scrubbed_line]
  · rw [count, before _ _ _ (by decide), List.length_append, List.length_singleton, Nat.add_assoc]
  · rw [State.caseCes_rd _ _ _ _ _ _ (by decide), before _ _ _ (by decide)]
  · rw [State.caseCes_wordAddr_ue _ (on.trans hu), before _ _ _ (by decide)]
  · exact State.caseCes_wordAddr (on.trans hu) same

end

/-- Settles O14: the transfer that a completion ends moves its lines slot by slot, by induction on its slots; the idle
events by cases of the model. -/
theorem pressEvents : Obligations.PressEvents := by
  intro s p hp
  refine ⟨fun u h1 h5 => ⟨fun hq => execInstructionComplete_nil hp h1 h5 hq, fun e r hq => ?_⟩,
    fun n => arrayResume_runs hp n, (arrayGate_runs hp).1, (arrayGate_runs hp).2, ?_, fun w ce => ?_⟩
  · have run := execInstructionComplete_cons hp h1 h5 hq
    have moves := (execInstructionComplete_moves (as := []) p u s (List.Subset.refl _) (Moves.refl s) _ run).1
    have parts : changes [] [.presses, .mem, .drains, .dirtyOut] s (s.completes p u e r) :=
      ⟨fun f i j _ => moves.1 f i j (List.not_mem_nil), fun q hq => moves.2 q (by simp at hq ⊢; tauto)⟩
    refine ⟨s.completes p u e r, run, (State.completes_queue e r u).trans (if_pos rfl),
      fun v hv => (State.completes_queue e r v).trans (if_neg hv.symm), State.completes_token e r,
      State.completes_gated e r, State.completes_caseMem e r, State.completes_vregs e r, rfl, rfl,
      fun q hq => State.completes_press_ne e r hq, State.completes_only e r, parts, ?_⟩
    intro d hd hu hs hl hh alone
    obtain ⟨drains, load, store⟩ := State.completes_moves_lines e r hs hu hd hl hh alone
    refine ⟨drains, fun filled => ?_, fun filled => ?_⟩
    · obtain ⟨mem, bytes⟩ := load filled
      exact ⟨mem, fun i hi => bytes.within hi, fun a ha => bytes.outside ha⟩
    · obtain ⟨case, bytes⟩ := store filled
      exact ⟨case, fun i hi => bytes.within hi, fun a ha => bytes.outside ha⟩
  · exact ⟨_, execCaseScrub_eq hp [], State.scrubbed_line, State.scrubbed_changes⟩
  · exact caseScrub_corrected hp ce w

end Sys2Proof.Machine

/-!
# Press programs: control, waits, and the steps of a forme

The instructions of the sequencer, what holds them, and the release, the end and the watchdog of a forme's steps.
-/

namespace Sys2Proof.Machine

/-! ## RAMP to GATE (R102, R125) -/

/-- An instruction of the array that was just issued stands in the queue of ARR. -/
theorem entered_arrayIdle (s : State) (p : Nat) (k : Tok) : (entered s p k uArr).arrayIdle = false := by
  have queue : (entered s p k uArr).queue uArr ≠ [] := by
    rw [entered_eq, if_neg (by decide)]
    simp [Press.queue]
  simp [Press.arrayIdle, queue]

/-- RAMP to GATE gates the array of a press whose ARR and SHD were empty before it. -/
theorem ramp_gates {s t : State} {p : Nat} {k : Tok} (hd : canDispatch s p k uArr)
    (idle : (s.press p).arrayIdle = true) (run : Runs (.ramp p k 3) s t) : (t.press p).gated = true := by
  have runs : execRamp p k 3 s = .next t := run
  rw [execRamp, State.dispatch_runs _ _ _ _ _ _ _ hd rfl] at runs
  obtain rfl := Host.Outcome.next.inj runs
  rw [State.advance_press, if_pos rfl, movedOn_same, State.stalled_press, State.press_setPress, if_pos rfl]
  simp [idle]

/-- Press 0 ACTIVE with its units empty and its array not gated. -/
def ungatedState : State :=
  (State.reset.wr .prsStatusState 0 0 pActive).setPress 0 { Press.init with gated := false }

/-- Refutes O6: the clause on RAMP gates the array where ARR and SHD are empty after the dispatch, when the RAMP
itself stands in ARR, so it says that GATE gates no array; the model looks at the units before the dispatch, as R125
has it. A RAMP to GATE on a press with empty units and an array that is not gated shows it. -/
theorem not_pressControl : ¬ Obligations.PressControl := by
  unfold Obligations.PressControl
  intro h
  obtain ⟨control, -⟩ := h
  have ready : canDispatch ungatedState 0 ⟨false, 0, false, 0⟩ uArr :=
    ⟨by decide, rfl, fun e => absurd e (by decide), rfl⟩
  obtain ⟨-, ramp⟩ := control ungatedState 0 ⟨false, 0, false, 0⟩
  obtain ⟨t, run, holds, -⟩ := ramp ready 3
  have gates : (t.press 0).gated = true := ramp_gates ready rfl run
  have said : (t.press 0).gated = ((entered ungatedState 0 ⟨false, 0, false, 0⟩ uArr).gated ||
      (entered ungatedState 0 ⟨false, 0, false, 0⟩ uArr).arrayIdle) := congrArg Press.gated holds
  rw [gates, entered_arrayIdle] at said
  exact absurd said (by decide)

/-! ## Instructions of the sequencer (R107, R108, R119) -/

section
variable {s : State} {p u : Nat} {k : Tok} {c : Instr}

/-- A legal word that its own rule holds shows why (R108). -/
theorem dispatch_held (h : canDispatch s p k u) {hold : Nat} (h0 : hold ≠ 0) (ready : Bool)
    (lines : List (Int × Nat)) (waits : List Field) (run : State → State) :
    s.dispatch p k u true hold ready lines waits run = .next (s.holdDispatch p hold) := by
  obtain ⟨hp, active, token, room⟩ := h
  have waited : (k.wen && decide ((s.press p).token k.wtok = 0)) = false := by
    cases wen : k.wen
    · rfl
    · simp [token wen]
  simp [State.dispatch, hp, active, waited, room, h0]

/-- The counts of PRS_SEQ_WAITS. -/
def waitFields : List Field :=
  [.prsSeqWaitsTokenWait, .prsSeqWaitsQueueWait, .prsSeqWaitsBarrierWait, .prsSeqWaitsFenceWait]

theorem holdField_mem (code : Nat) : holdField code ∈ waitFields := by
  unfold holdField
  split_ifs <;> decide

/-- A held dispatch shows its code, and counts a cycle of its reason (R107, R108). -/
theorem heldFor_of {code : Nat} (hc : exec c s = .next (s.holdDispatch p code)) (fits : code < 8) :
    heldFor c code p s := by
  have other : holdField code ≠ .prsSeqStatusHold :=
    (by decide : ∀ f ∈ waitFields, f ≠ .prsSeqStatusHold) _ (holdField_mem code)
  have width : (holdField code).spec.width = 16 :=
    (by decide : ∀ f ∈ waitFields, f.spec.width = 16) _ (holdField_mem code)
  refine ⟨_, hc, ?_, ?_, ?_⟩
  · rw [State.holdDispatch, State.rd_bump_ne _ _ _ _ _ _ _ _ other, State.rd_wr_same]
    exact Nat.mod_eq_of_lt fits
  · rw [State.holdDispatch, State.rd_bump_same _ _ _ _ _ (by omega), State.rd_wr_ne _ _ _ _ _ _ _ _ other.symm, width]
    rfl
  · exact ((changes.refl s).wr _ _ _ _ (by simp)).bump _ _ _ _ (by simp)

/-- An instruction of SEQ that its own rule lets pass has its effect. -/
theorem dispatch_seq (h : canDispatch s p k u) (run : State → State) :
    s.dispatch p k u true 0 true [] [] run = .next ((run (s.issued p k u)).advance p) :=
  s.dispatch_runs p k u [] [] run h rfl

/-- An instruction with no effect but its dispatch ends with the press as the issue left it. -/
theorem pressEnds_issued (hc : exec c s = .next ((s.issued p k u).advance p)) :
    pressEnds c [] [] p s (entered s p k u) fun _ => True :=
  pressEnds_of c _ _ _ hc rfl (s.issued_rd p k u _ _ _ (by decide)) (s.issued_hold p k u)
    ((s.issued_only p k u).mono (List.subset_append_left ..) (List.Subset.refl _)) trivial

/-- A wait that goes on where its condition holds, and is held for a code where it does not. -/
theorem waits_runs (h : canDispatch s p k uSeq) {passed : Bool} {code : Nat} (h0 : code ≠ 0) (fits : code < 8)
    (hc : exec c s = s.dispatch p k uSeq true (if passed then 0 else code) true [] [] fun s => s) :
    (passed = true → pressEnds c [] [] p s (entered s p k uSeq) fun _ => True) ∧
      (passed = false → heldFor c code p s) := by
  refine ⟨?_, ?_⟩ <;> rintro rfl
  · exact pressEnds_issued (hc.trans (dispatch_seq h _))
  · exact heldFor_of (hc.trans (dispatch_held h h0 _ _ _ _)) fits

end

/-! ## STEP (R122, R125) -/

/-- A press that stays or becomes READY or ACTIVE keeps its carry file (R86). -/
theorem State.setPState_kept (s : State) (p : Nat) {st : Nat} (h : st = pReady ∨ st = pActive) :
    s.setPState p st = s.wr .prsStatusState p 0 st := by
  unfold State.setPState
  obtain rfl | rfl := h <;> simp

section
variable {s : State} {p : Nat} {k : Tok}

/-- The press that ends its step: the gating mode HOLD ends with it. -/
def Press.stepped (x : Press) : Press := { x with rampMode := if x.rampMode = 1 then 0 else x.rampMode }

/-- The state after the effect of a STEP. -/
def State.stepped (s : State) (p : Nat) (k : Tok) : State :=
  ((((s.issued p k uSeq).setPress p (entered s p k uSeq).stepped).wr .prsStatusState p 0 pReady).wr .hPrsStepped p 0 1
    |>.wrap .prsStepCountSteps p 0 1).wr .prsSeqStatusHold p 0 5

theorem exec_stepEnd (h : canDispatch s p k uSeq) (idle : (s.press p).idle = true) :
    exec (.stepEnd p k) s = .next ((s.stepped p k).advance p) := by
  show execStepEnd p k s = _
  rw [execStepEnd, idle, if_pos rfl, dispatch_seq h]
  dsimp only
  rw [State.setPState_kept _ _ (.inl rfl)]
  rfl

theorem State.stepped_press : (s.stepped p k).press p = (entered s p k uSeq).stepped := by
  simp [State.stepped, State.wrap, State.press_setPress]

theorem State.stepped_only :
    onlyPress (.prsStatusState :: .hPrsStepped :: .prsStepCountSteps :: seqFields) [] p s (s.stepped p k) :=
  ((((((s.issued_only p k uSeq).mono (by decide) (List.Subset.refl _)).setPress _).wr _ _ _ _ (by decide)).wr _ _ _ _
    (by decide)).wr _ _ _ _ (by decide)).wr _ _ _ _ (by decide)

theorem State.stepped_rd : (s.stepped p k).pState p = pReady ∧ (s.stepped p k).rd .hPrsStepped p 0 = 1 ∧
    (s.stepped p k).rd .prsSeqStatusHold p 0 = 5 ∧
    (s.stepped p k).rd .prsStepCountSteps p 0 = (s.rd .prsStepCountSteps p 0 + 1) % 2 ^ 64 := by
  unfold State.stepped State.wrap State.pState
  refine ⟨?_, ?_, ?_, ?_⟩ <;>
    simp (disch := decide) only [State.rd_wr_ne, State.rd_wr_same, State.rd_setPress, State.issued_rd]
  all_goals rfl

/-- STEP with every unit empty reports the step (R122). -/
theorem stepEnd_runs (h : canDispatch s p k uSeq) (idle : (s.press p).idle = true) :
    ∃ t, Runs (.stepEnd p k) s t ∧ t.pState p = pReady ∧ t.rd .hPrsStepped p 0 = 1 ∧
      t.rd .prsSeqStatusHold p 0 = 5 ∧ t.rd .prsStepCountSteps p 0 = (s.rd .prsStepCountSteps p 0 + 1) % 2 ^ 64 ∧
      t.press p = movedOn s p (entered s p k uSeq).stepped ∧
      t.rd .prsSeqStatusPc p 0 = nextPc s p (entered s p k uSeq).stepped ∧
      onlyPress (.prsStatusState :: .hPrsStepped :: .prsStepCountSteps :: seqFields) [] p s t := by
  have kept (g : Field) (hg : g ≠ .prsSeqStatusPc) :
      ((s.stepped p k).advance p).rd g p 0 = (s.stepped p k).rd g p 0 := State.advance_rd _ _ _ _ _ hg
  have pc : (s.stepped p k).rd .prsSeqStatusPc p 0 = s.rd .prsSeqStatusPc p 0 := by
    unfold State.stepped State.wrap
    simp (disch := decide) only [State.rd_wr_ne, State.rd_setPress, State.issued_rd]
  obtain ⟨state, stepped, hold, count⟩ := State.stepped_rd (s := s) (p := p) (k := k)
  refine ⟨_, exec_stepEnd h idle, (kept _ (by decide)).trans state, (kept _ (by decide)).trans stepped,
    (kept _ (by decide)).trans hold, (kept _ (by decide)).trans count, ?_, ?_,
    State.stepped_only.trans ((State.advance_only _ p).mono (by decide) (List.Subset.refl _))⟩
  · rw [State.advance_press, if_pos rfl, State.stepped_press, movedOn, movedOn, pc]
  · rw [State.advance_pc, State.stepped_press, nextPc, nextPc, pc]

/-- STEP with a unit not empty is held (R122). -/
theorem stepEnd_held (h : canDispatch s p k uSeq) (busy : (s.press p).idle = false) :
    heldFor (.stepEnd p k) 4 p s := by
  refine heldFor_of ?_ (by decide)
  show execStepEnd p k s = _
  rw [execStepEnd, busy]
  exact dispatch_held h (by decide) _ _ _ _

end

/-! ## BSIG (R124, R353) -/

theorem State.barrierArrive_changes (s : State) (f b kind unit : Nat) :
    changes [] [.arrivals, .barSent, .tokens, .links] s (s.barrierArrive f b kind unit) := by
  obtain ⟨⟨numbers, parts⟩, -⟩ := State.barrierArrive_moves (as := []) s f b kind unit (List.Subset.refl _) (Moves.refl s)
  exact ⟨fun g i j _ => numbers g i j List.not_mem_nil, parts⟩

/-- An arrival adds one to its participant's (R353). -/
theorem State.barrierArrive_arrived (s : State) (f b kind unit : Nat) :
    (s.barrierArrive f b kind unit).arrived f b kind unit = s.arrived f b kind unit + 1 := by
  have arrivals : (s.barrierArrive f b kind unit).arrivals =
      s.arrivals.put (f, b, kind, unit) (s.arrived f b kind unit + 1) := by
    unfold State.barrierArrive
    dsimp only
    split
    · split
      · exact (State.ownArrival_moves (as := []) _ f b (List.Subset.refl _) (Moves.refl _)).1.2 .arrivals (by decide)
      · rfl
    · rfl
  rw [State.arrived, arrivals, SMap.getD_put, if_pos rfl]

section
variable {s : State} {p : Nat} {k : Tok} {b : Nat}

/-- A press that has signalled a barrier once more. -/
def Press.signalled (x : Press) (b : Nat) : Press := { x with signals := x.signals.put b (x.signals.getD b 0 + 1) }

/-- The state of a press that signals a barrier, before its forme hears of it. -/
def State.signalled (s : State) (p : Nat) (k : Tok) (b : Nat) : State :=
  (s.issued p k uSeq).setPress p ((entered s p k uSeq).signalled b)

theorem exec_bsig (h : canDispatch s p k uSeq) : exec (.bsig p k b) s = .next (
    (match s.formeOfPress p with
      | none => s.signalled p k b
      | some f => (s.signalled p k b).barrierArrive f.number b 0 p).advance p) := by
  show execBsig p k b s = _
  rw [execBsig, dispatch_seq h]
  rfl

theorem State.signalled_press : (s.signalled p k b).press p = (entered s p k uSeq).signalled b := by
  simp [State.signalled, State.press_setPress]

theorem State.signalled_only : onlyPress (seqFields ++ []) [] p s (s.signalled p k b) :=
  ((s.issued_only p k uSeq).mono (List.subset_append_left ..) (List.Subset.refl _)).setPress _

theorem State.signalled_rd : (s.signalled p k b).rd .prsSeqStatusPc p 0 = s.rd .prsSeqStatusPc p 0 ∧
    (s.signalled p k b).rd .prsSeqStatusHold p 0 = 0 :=
  ⟨s.issued_rd p k uSeq _ _ _ (by decide), s.issued_hold p k uSeq⟩

theorem bsig_alone (h : canDispatch s p k uSeq) (hf : s.formeOfPress p = none) :
    pressEnds (.bsig p k b) [] [] p s ((entered s p k uSeq).signalled b) fun _ => True := by
  have run := exec_bsig (b := b) h
  rw [hf] at run
  exact pressEnds_of _ _ _ _ run State.signalled_press State.signalled_rd.1 State.signalled_rd.2
    State.signalled_only trivial

theorem bsig_arrives (h : canDispatch s p k uSeq) {f : Forme} (hf : s.formeOfPress p = some f) :
    pressEnds (.bsig p k b) [] [.arrivals, .barSent, .tokens, .links] p s ((entered s p k uSeq).signalled b)
      fun t => t.arrived f.number b 0 p = s.arrived f.number b 0 p + 1 := by
  have run := exec_bsig (b := b) h
  rw [hf] at run
  have arrives := (s.signalled p k b).barrierArrive_changes f.number b 0 p
  have presses : ((s.signalled p k b).barrierArrive f.number b 0 p).presses = (s.signalled p k b).presses :=
    arrives.2 .presses (by decide)
  have press : ((s.signalled p k b).barrierArrive f.number b 0 p).press p = (s.signalled p k b).press p := by
    unfold State.press
    rw [presses]
  exact pressEnds_of _ _ _ _ run (press.trans State.signalled_press)
    ((arrives.1 _ _ _ List.not_mem_nil).trans State.signalled_rd.1)
    ((arrives.1 _ _ _ List.not_mem_nil).trans State.signalled_rd.2)
    ((State.signalled_only.mono (List.Subset.refl _) (List.nil_subset _)).and_changes (by decide)
      (arrives.mono (List.nil_subset _) (List.Subset.refl _)))
    (State.barrierArrive_arrived ..)

end

/-- Settles O7: the waits by one rule, STEP and BSIG by their own; a FENCE of no unit is an illegal word. -/
theorem pressWaits : Obligations.PressWaits := by
  intro s p k h
  refine ⟨stepEnd_runs h, stepEnd_held h, fun b => bsig_alone h, fun b f => bsig_arrives h,
    fun b => waits_runs h (by decide) (by decide) rfl, fun u hu => waits_runs h (by decide) (by decide) ?_, ?_⟩
  · show execFence p k u s = _
    rw [execFence, bne_iff_ne.mpr hu]
  · have refused : exec (.fence p k 0) s = .next (s.illegalWord p) := by
      show execFence p k 0 s = _
      rw [execFence]
      exact dispatch_illegal h _ _ _ _ _
    obtain ⟨t, run, illegal, parked, -⟩ := illegalRuns_of refused
    exact ⟨t, run, illegal, parked⟩

end Sys2Proof.Machine

namespace Sys2Proof.Machine

/-! ## The release of a press (R106, R108, R119 to R121, R124) -/

section
variable {as : List Area} {ps : List Part} {v : Variant} {q p : Nat} {s t u : State}

/-- The numbers of a press by which its program stands: its state, its form and its program counter. -/
def programFields : List Field := [.prsStatusState, .prsSeqStatusForm, .prsSeqStatusPc]

/-- What press p holds, and the numbers of its program, are in t as in s. -/
def pressKept (p : Nat) (s t : State) : Prop :=
  t.press p = s.press p ∧ ∀ g ∈ programFields, t.rd g p 0 = s.rd g p 0

theorem pressKept.trans (h : pressKept p s t) (h' : pressKept p t u) : pressKept p s u :=
  ⟨h'.1.trans h.1, fun g hg => (h'.2 g hg).trans (h.2 g hg)⟩

theorem pressKept.of_moves (h : Moves as ps s t) (ha : .prs ∉ as) (hp : .presses ∉ ps) : pressKept p s t := by
  obtain ⟨⟨numbers, parts⟩, -⟩ := h
  have presses : t.presses = s.presses := parts .presses hp
  refine ⟨by unfold State.press; rw [presses], fun g hg => numbers g p 0 ?_⟩
  rwa [(by decide : ∀ g ∈ programFields, g.area = .prs) g hg]

theorem pressKept.wr (h : pressKept p s t) (g : Field) (i j n : Nat) (hg : g ∉ programFields) :
    pressKept p s (t.wr g i j n) :=
  ⟨h.1, fun f hf => (State.rd_wr_ne t g f i j p 0 n fun e => hg (e ▸ hf)).trans (h.2 f hf)⟩

theorem pressKept.each {α : Type} (l : List α) (f : State → α → State)
    (hf : ∀ u a, a ∈ l → pressKept p s u → pressKept p s (f u a)) (h : pressKept p s t) :
    pressKept p s (t.each l f) := by
  induction l generalizing t with
  | nil => exact h
  | cons a l ih => exact ih (fun u b hb => hf u b (List.mem_cons_of_mem _ hb)) (hf t a List.mem_cons_self h)

/-- What a press holds at the start of a step: nothing of an earlier one in its sequencer and its units. -/
def Press.released (x : Press) : Press :=
  { x with tokens := [], ads := [], keys := [], frames := [], idx := [], signals := [], staging := [], rampMode := 0,
           queues := [], drainQ := [], ringValid := [], frozen := false, shadow := [] }

/-- A released press runs, unless it is not READY (R104). -/
def State.started (s : State) (p : Nat) : State :=
  if s.pState p = pReady then (s.setPress p (s.press p).released).wr .prsStatusState p 0 pActive
  else s.setPress p (s.press p).released

theorem State.releasePress_eq (s : State) (v : Variant) (q p : Nat) :
    s.releasePress v q p = (s.started p).wrAll
      [(.prsSeqStatusPc, p, 0, v.entry p ((s.started p).rd .prsSeqStatusForm p 0) q), (.prsSeqStatusHold, p, 0, 0),
        (.prsSeqStatusTokens, p, 0, 0), (.hPrsStepped, p, 0, 0)] := by
  unfold State.releasePress State.started
  dsimp only
  rw [State.setPState_kept _ _ (.inr rfl)]
  rfl

theorem State.started_press (s : State) (p r : Nat) :
    (s.started p).press r = if p = r then (s.press p).released else s.press r := by
  unfold State.started
  split <;> exact State.press_setPress ..

theorem State.started_rd (s : State) (p : Nat) (g : Field) (i j : Nat) (h : i ≠ p ∨ g ≠ .prsStatusState) :
    (s.started p).rd g i j = s.rd g i j := by
  unfold State.started
  split
  · rw [State.rd_wr, if_neg (by rintro ⟨rfl, rfl, -⟩; simp at h), State.rd_setPress]
  · rfl

theorem State.started_pState (s : State) (p : Nat) :
    (s.started p).pState p = if s.pState p = pReady then pActive else s.pState p := by
  unfold State.started
  split
  · exact State.rd_wr_same ..
  · rfl

/-- Press p starts step q of variant v: it runs where it was READY, from the step's entry. -/
structure stepStarted (v : Variant) (q p : Nat) (s t : State) : Prop where
  press : t.press p = (s.press p).released
  state : t.pState p = if s.pState p = pReady then pActive else s.pState p
  pc : t.rd .prsSeqStatusPc p 0 = v.entry p (s.rd .prsSeqStatusForm p 0) q % 2 ^ 14

theorem stepStarted.congr {s' t' : State} (h : stepStarted v q p s' t') (hs : pressKept p s s')
    (ht : pressKept p t' t) : stepStarted v q p s t where
  press := by rw [ht.1, h.press, hs.1]
  state := by
    have before : s'.pState p = s.pState p := hs.2 _ (by decide)
    have after : t.pState p = t'.pState p := ht.2 _ (by decide)
    rw [after, h.state, before]
  pc := by rw [ht.2 _ (by decide), h.pc, hs.2 _ (by decide)]

theorem State.releasePress_started (s : State) (v : Variant) (q p : Nat) :
    stepStarted v q p s (s.releasePress v q p) := by
  rw [State.releasePress_eq]
  refine ⟨?_, ?_, ?_⟩
  · exact (s.started_press p p).trans (if_pos rfl)
  · rw [← s.started_pState p]
    simp (disch := decide) only [State.pState, State.wrAll, List.foldl_cons, List.foldl_nil, State.rd_wr_ne]
  · simp (disch := decide) only [State.wrAll, List.foldl_cons, List.foldl_nil, State.rd_wr_ne, State.rd_wr_same]
    rw [s.started_rd p _ p 0 (.inr (by decide))]
    rfl

/-- The release of one press leaves the others as they were. -/
theorem State.releasePress_other (s : State) (v : Variant) (q : Nat) {p r : Nat} (h : p ≠ r) :
    pressKept r s (s.releasePress v q p) := by
  rw [State.releasePress_eq]
  refine ⟨(s.started_press p r).trans (if_neg h), fun g _ => ?_⟩
  simp only [State.wrAll, List.foldl_cons, List.foldl_nil, State.rd_wr, h, false_and, and_false, if_false]
  exact s.started_rd p g r 0 (.inl h.symm)

/-- Of a list of presses that are released, each starts the step. -/
theorem State.each_releasePress_started {l : List Nat} (hn : l.Nodup) (hp : p ∈ l) :
    stepStarted v q p s (s.each l fun s p => s.releasePress v q p) := by
  have others (u : State) (m : List Nat) (hm : p ∉ m) : pressKept p u (u.each m fun s p => s.releasePress v q p) :=
    pressKept.each m _ (fun w r hr h => h.trans (w.releasePress_other v q fun e => hm (e ▸ hr))) ⟨rfl, fun _ _ => rfl⟩
  obtain ⟨before, after, rfl⟩ := List.append_of_mem hp
  obtain ⟨-, tail, apart⟩ := List.nodup_append.mp hn
  rw [State.each_append, State.each_cons]
  exact ((s.each before _).releasePress_started v q p).congr
    (others s before fun h => apart p h p List.mem_cons_self rfl) (others _ after (List.nodup_cons.mp tail).1)

end

/-! ## The release of a step (R223, R360, R379) -/

section
variable {x : Forme} {v : Variant} {f n : Nat} {s t : State}

/-- Nothing of the step before is left in the forme's barriers and in what it relayed (R24, R353). -/
def State.clearStep (s : State) (f : Nat) : State :=
  { s with relays := s.relays.filter (fun r => !(r.sent && decide (r.forme = f))),
           arrivals := s.arrivals.filter (fun e => !decide (e.1.1 = f)),
           barDone := s.barDone.filter fun e => !decide (e.1.1 = f) }

/-- The state of a step about to be released: what waited for an edition's first release is done, and nothing of the
step before is left. -/
def State.stepCleared (s : State) (x : Forme) (v : Variant) : State :=
  ((if s.rd .hFormeNextQ 0 x.number = s.rd .hFormeEdQ 0 x.number then s.firstRelease x v
    else s).dropJobs x.number).clearStep x.number

/-- The numbers of step q, released at t. -/
def State.noteStep (s : State) (f q t : Nat) : State :=
  s.wrAll [(.modFormeStepQ, 0, f, q), (.hFormeNextQ, 0, f, q + 1), (.hFormeRelTick, 0, f, t),
    (.hFormeStepRun, 0, f, 1), (.hFormeReady, 0, f, 0), (.hFormeLateStep, 0, f, 0),
    (.hFormeJobTable, 0, f, s.freeCount), (.pwrFormeStallTicks, 0, f, 0),
    (.hFormeActSum, 0, f, 0), (.hFormeActNum, 0, f, 0), (.hFormeStallMax, 0, f, 0)]

/-- The state once they and the step's stall budget are noted. -/
def State.stepNoted (s : State) (f q t : Nat) : State :=
  let s := ((s.noteStep f q t).free 1).2
  s.wr .hFormeStallBudget 0 f (s.stallBudget f)

/-- Each press's stall is counted from here, and each chase's galley cycle is noted. -/
def State.cyclesNoted (s : State) (f : Nat) (v : Variant) : State :=
  (s.each (bitsSet v.pressMask 12) fun s p => s.wr .hPrsStall 0 p 0).each [0, 1, 2, 3] fun s c =>
    s.wr .hFormeRelCycle c f (s.rd .galCycleCycle c 0)

/-- The step once its number and its cycles are noted, with its presses still to be released. -/
def State.stepReady (s : State) (x : Forme) (v : Variant) (q t : Nat) : State :=
  ((s.stepCleared x v).stepNoted x.number q t).cyclesNoted x.number v

theorem State.releaseStep_eq (s : State) (x : Forme) (v : Variant) (t : Nat) : s.releaseStep x v t =
    ((((s.stepReady x v (s.rd .hFormeNextQ 0 x.number) t).each (bitsSet v.pressMask 12) fun u p =>
      u.releasePress v (s.rd .hFormeNextQ 0 x.number) p).startTransfers x).deliverEarly) := rfl

theorem State.clearStep_moves (s : State) (f : Nat) : Moves [] [.arrivals, .barDone, .relays] s (s.clearStep f) :=
  (Moves.refl s).parts rfl rfl rfl fun q hq => by cases q <;> first | rfl | exact absurd (by decide) hq

theorem State.stepCleared_moves (s : State) (x : Forme) (v : Variant) :
    Moves [.forme, .fab, .pair, .prf, .gal, .cmp, .col, .lnk] [.jobs, .dirtyShared, .arrivals, .barDone, .links,
      .relays, .early] s (s.stepCleared x v) :=
  (State.clearStep_moves _ _).step (List.nil_subset _) (by decide)
    (State.dropJobs_moves _ _ (by decide) (by decide) (Moves.ite
      (fun _ => State.firstRelease_moves s x v (by decide) (by decide) (Moves.refl s)) fun _ => Moves.refl s))

theorem State.noteStep_moves (s : State) (f q t : Nat) : Moves [.forme, .pwr] [] s (s.noteStep f q t) := by
  unfold State.noteStep
  refine Moves.wrAll _ ?_ (Moves.refl s)
  repeat refine areas_cons (by decide) ?_
  exact areas_nil

theorem State.stepNoted_moves (s : State) (f q t : Nat) :
    Moves [.forme, .pwr] [.freeCount] s (s.stepNoted f q t) :=
  (((s.noteStep_moves f q t).mono (List.Subset.refl _) (List.nil_subset _)).free 1 (by decide)).wr _ _ _ _ (by decide)

/-- The numbers that a release notes (R223). -/
theorem State.stepNoted_rd (s : State) (f q t : Nat) :
    (s.stepNoted f q t).rd .modFormeStepQ 0 f = q % 2 ^ 64 ∧
    (s.stepNoted f q t).rd .hFormeNextQ 0 f = (q + 1) % 2 ^ 64 ∧
    (s.stepNoted f q t).rd .hFormeRelTick 0 f = t ∧ (s.stepNoted f q t).rd .hFormeStepRun 0 f = 1 := by
  unfold State.stepNoted State.noteStep
  have beside (u : State) (g : Field) : (u.free 1).2.rd g 0 f = u.rd g 0 f := rfl
  refine ⟨?_, ?_, ?_, ?_⟩ <;>
    simp (disch := decide) only [State.rd_wr_ne, beside, State.wrAll, List.foldl_cons, List.foldl_nil,
      State.rd_wr_same]
  all_goals rfl

theorem State.cyclesNoted_rd (s : State) (f : Nat) (v : Variant) (g : Field) (i j : Nat)
    (hg : g ≠ .hPrsStall ∧ g ≠ .hFormeRelCycle) : (s.cyclesNoted f v).rd g i j = s.rd g i j := by
  unfold State.cyclesNoted
  rw [State.rd_each _ _ _ _ _ fun u c => State.rd_wr_ne _ _ _ _ _ _ _ _ hg.2.symm,
    State.rd_each _ _ _ _ _ fun u c => State.rd_wr_ne _ _ _ _ _ _ _ _ hg.1.symm]

theorem State.stepReady_kept (s : State) (x : Forme) (v : Variant) (q t p : Nat) :
    pressKept p s (s.stepReady x v q t) := by
  have cleared : pressKept p s (s.stepCleared x v) := .of_moves (s.stepCleared_moves x v) (by decide) (by decide)
  refine .each _ _ (fun _ _ _ h => h.wr _ _ _ _ (by decide)) (.each _ _ (fun _ _ _ h => h.wr _ _ _ _ (by decide)) ?_)
  exact cleared.trans (.of_moves (State.stepNoted_moves ..) (by decide) (by decide))

/-- Once its presses are released, a step's transfers wait, and what came early for it is delivered (R193, R530). -/
theorem State.transfersStarted_moves (s : State) (x : Forme) :
    Moves [] [.drains, .mem, .jobs, .links, .relays, .early, .out] s (s.startTransfers x).deliverEarly :=
  State.deliverEarly_moves _ (by decide) (State.startTransfers_moves s x (by decide) (Moves.refl s))

/-- What forme f and its presses hold after the release of step q of variant w, at the stamp n (R106, R108, R223). -/
structure stepReleased (w : Variant) (f q n : Nat) (s t : State) : Prop where
  seq : t.rd .modFormeStepQ 0 f = q % 2 ^ 64
  next : t.rd .hFormeNextQ 0 f = (q + 1) % 2 ^ 64
  tick : t.rd .hFormeRelTick 0 f = n
  run : t.rd .hFormeStepRun 0 f = 1
  press : ∀ p ∈ bitsSet w.pressMask 12, stepStarted w q p s t

theorem State.releaseStep_released (s : State) (x : Forme) (w : Variant) (n : Nat) :
    stepReleased w x.number (s.rd .hFormeNextQ 0 x.number) n s (s.releaseStep x w n) := by
  rw [State.releaseStep_eq]
  generalize s.rd .hFormeNextQ 0 x.number = q
  have released : Moves [.prs] [.presses, .freeCount] (s.stepReady x w q n)
      ((s.stepReady x w q n).each (bitsSet w.pressMask 12) fun u p => u.releasePress w q p) :=
    Moves.each _ _ (fun u p h => State.releasePress_moves u w q p (by decide) (by decide) h) (Moves.refl _)
  have started (p : Nat) (hp : p ∈ bitsSet w.pressMask 12) :
      stepStarted w q p (s.stepReady x w q n)
        ((s.stepReady x w q n).each (bitsSet w.pressMask 12) fun u p => u.releasePress w q p) :=
    State.each_releasePress_started (List.nodup_range.filter _) hp
  generalize (s.stepReady x w q n).each _ _ = u at released started ⊢
  have late := u.transfersStarted_moves x
  have number (g : Field) (hg : g.area = .forme) (other : g ≠ .hPrsStall ∧ g ≠ .hFormeRelCycle) :
      (u.startTransfers x).deliverEarly.rd g 0 x.number = ((s.stepCleared x w).stepNoted x.number q n).rd g 0 x.number := by
    rw [late.1.1 g _ _ List.not_mem_nil, released.1.1 g _ _ (by rw [hg]; decide)]
    exact State.cyclesNoted_rd _ _ _ _ _ _ other
  obtain ⟨seq, next, tick, run⟩ := (s.stepCleared x w).stepNoted_rd x.number q n
  exact ⟨(number _ rfl (by decide)).trans seq, (number _ rfl (by decide)).trans next,
    (number _ rfl (by decide)).trans tick, (number _ rfl (by decide)).trans run, fun p hp =>
      (started p hp).congr (s.stepReady_kept x w q n p) (.of_moves late (by decide) (by decide))⟩

/-! ### STEP_RELEASE -/

/-- The end of a wait is no condition of a batch (R379). -/
theorem State.batchDone_endWait (s : State) (x : Forme) : (s.endWait x).batchDone x = s.batchDone x := by
  have waited : changes [.fabEditionWaitTicks, .fabStatusState] [] s (s.endWait x) :=
    changes.ite (fun _ => ((changes.refl s).wrap _ _ _ _ (by decide)).wr _ _ _ _ (by decide)) fun _ => changes.refl s
  generalize s.endWait x = t at waited
  have rd : ∀ g i j, g ∉ [.fabEditionWaitTicks, .fabStatusState] → t.rd g i j = s.rd g i j := waited.1
  have active : t.active = s.active := waited.2 .active (by decide)
  have port : t.mirrorPort x = s.mirrorPort x := by
    simp (disch := decide) only [State.mirrorPort, State.isPairPort, State.portRec, State.identity, State.lState, rd,
      active]
    rfl
  have digest : t.impDigest = s.impDigest := by rw [State.impDigest, active]; rfl
  have differs : t.pairDiffers = s.pairDiffers := by
    simp (disch := decide) only [State.pairDiffers, State.on, digest, rd]
  have agrees : t.pairAgrees = s.pairAgrees := by
    simp (disch := decide) only [State.pairAgrees, State.on, digest, rd]
  have protection : t.protectionOf x = s.protectionOf x := by
    simp (disch := decide) only [State.protectionOf, State.role, State.on, differs, agrees, port, rd]
    rfl
  simp (disch := decide) only [State.batchDone, State.on, protection, rd]

variable {u : Nat} {w : Variant}

theorem State.rd_stamp_forme (s : State) (u : Nat) {g : Field} (hg : g.area = .forme) (i j : Nat) :
    (s.stamp u).rd g i j = s.rd g i j :=
  (State.stamp_moves (ps := []) s u (List.Subset.refl _) (Moves.refl s)).1.1 g i j (by rw [hg]; decide)

section
variable (hf : f < 16) (hx : (s.stamp u).forme f = some x) (hw : (s.stamp u).variant f = some w)
  (ready : (s.stamp u).releasable f = true)
include hf hx hw ready

/-- A step is released in the middle of an edition; at its start, where the peers' tokens are there and the batch is
done, once the wait for them is over (R223, R360, R379). -/
theorem exec_stepRelease (h : s.rd .hFormeNextQ 0 f ≠ s.rd .hFormeEdQ 0 f ∨
      ((x.fabric = false ∨ (s.stamp u).peersReady x = true) ∧ (s.stamp u).batchDone x = true)) :
    ∃ v, Moves [.tick, .fab] [] s v ∧ exec (.stepRelease f u) s = .next (v.releaseStep x w u) := by
  have stamped : Moves [.tick, .fab] [] s (s.stamp u) := State.stamp_moves s u (by decide) (Moves.refl s)
  by_cases first : (s.stamp u).rd .hFormeNextQ 0 f = (s.stamp u).rd .hFormeEdQ 0 f
  · obtain within | ⟨peers, batch⟩ := h
    · rw [State.rd_stamp_forme _ _ rfl, State.rd_stamp_forme _ _ rfl] at first
      exact absurd first within
    · refine ⟨_, State.endWait_moves _ x (by decide) stamped, ?_⟩
      have goes : (x.fabric && !(s.stamp u).peersReady x) = false := by
        obtain h | h := peers <;> simp [h]
      show execStepRelease f u s = _
      simp [execStepRelease, hf, hx, hw, ready, first, goes, State.batchDone_endWait, batch]
  · refine ⟨_, stamped, ?_⟩
    show execStepRelease f u s = _
    simp [execStepRelease, hf, hx, hw, ready, first]

/-- The fabric forme waits for its peers at the start of an edition (R360). -/
theorem stepRelease_waits (first : s.rd .hFormeNextQ 0 f = s.rd .hFormeEdQ 0 f) (fabric : x.fabric = true)
    (peers : (s.stamp u).peersReady x = false) :
    ∃ t, Runs (.stepRelease f u) s t ∧ t.rd .fabStatusState 0 0 = 2 ∧
      changes (.fabStatusState :: .hFormeWaitTick :: timeFields) [] s t := by
  have stamped : changes (.fabStatusState :: .hFormeWaitTick :: timeFields) [] s (s.stamp u) :=
    (changes.refl s).stamp u (by decide)
  have run : exec (.stepRelease f u) s = .next (if (s.stamp u).rd .fabStatusState 0 0 = 2 then s.stamp u
      else ((s.stamp u).wr .fabStatusState 0 0 2).wr .hFormeWaitTick 0 f u) := by
    have first : (s.stamp u).rd .hFormeNextQ 0 f = (s.stamp u).rd .hFormeEdQ 0 f := by
      rw [State.rd_stamp_forme _ _ rfl, State.rd_stamp_forme _ _ rfl, first]
    show execStepRelease f u s = _
    simp [execStepRelease, hf, hx, hw, ready, first, fabric, peers]
  refine ⟨_, run, ?_, ?_⟩
  · split
    · assumption
    · rw [State.rd_wr_ne _ _ _ _ _ _ _ _ (by decide), State.rd_wr_same]
      rfl
  · exact .ite (fun _ => stamped) fun _ => (stamped.wr _ _ _ _ (by decide)).wr _ _ _ _ (by decide)

end

/-- A forme that is not ready is left alone (R223). -/
theorem stepRelease_idle (hf : f < 16) (ready : (s.stamp u).releasable f = false) :
    ∃ t, Runs (.stepRelease f u) s t ∧ changes timeFields [] s t := by
  refine ⟨s.stamp u, ?_, (changes.refl s).stamp u (List.Subset.refl _)⟩
  show execStepRelease f u s = _
  simp only [execStepRelease, hf, if_true, ready]
  split <;> rfl

/-- A release read from the state before its stamp and its wait. -/
theorem stepReleased_of (base : Moves [.tick, .fab] [] s t) (w : Variant) (n : Nat) :
    stepReleased w x.number (s.rd .hFormeNextQ 0 x.number) n s (t.releaseStep x w n) := by
  have same : t.rd .hFormeNextQ 0 x.number = s.rd .hFormeNextQ 0 x.number := base.1.1 _ _ _ (by decide)
  obtain ⟨seq, next, tick, run, press⟩ := t.releaseStep_released x w n
  rw [same] at seq next press
  exact ⟨seq, next, tick, run, fun p hp =>
    (press p hp).congr (.of_moves base (by decide) (by decide)) ⟨rfl, fun _ _ => rfl⟩⟩

/-- The release of a step, with what its presses hold and what it touches (R106, R108, R223). -/
theorem stepRelease_runs (hf : f < 16) (hx : (s.stamp u).forme f = some x) (hn : x.number = f)
    (hw : (s.stamp u).variant f = some w) (ready : (s.stamp u).releasable f = true)
    (h : s.rd .hFormeNextQ 0 f ≠ s.rd .hFormeEdQ 0 f ∨
      ((x.fabric = false ∨ (s.stamp u).peersReady x = true) ∧ (s.stamp u).batchDone x = true)) :
    ∃ t, Runs (.stepRelease f u) s t ∧ stepReleased w f (s.rd .hFormeNextQ 0 f) u s t ∧
      touches [.tick, .forme, .fab, .pair, .pwr, .prf, .gal, .cmp, .col, .prs, .lnk] [.mem, .presses, .jobs, .drains,
        .dirtyShared, .arrivals, .barDone, .links, .relays, .early, .out, .freeCount] s t := by
  obtain ⟨v, base, run⟩ := exec_stepRelease hf hx hw ready h
  subst hn
  exact ⟨_, run, stepReleased_of base w u,
    (execStepRelease_moves x.number u s (List.Subset.refl _) (List.Subset.refl _) (Moves.refl s) _ run).1⟩

end

end Sys2Proof.Machine

namespace Sys2Proof.Machine

/-! ## What the end of a step leaves of its marks (R171, R224) -/

section
variable {as : List Area} {ps : List Part} {f : Nat} {s t u : State}

/-- The numbers by which a step shows that it was late, and that it runs. -/
def markFields : List Field := [.modFormeStatusLate, .modFormeCountsLateSteps, .hFormeStepRun]

/-- From s to t the marks of late steps of forme f stay as they are, and no step of it begins to run. -/
structure marksKept (f : Nat) (s t : State) : Prop where
  late : t.rd .modFormeStatusLate 0 f = s.rd .modFormeStatusLate 0 f
  count : t.rd .modFormeCountsLateSteps 0 f = s.rd .modFormeCountsLateSteps 0 f
  ended : s.rd .hFormeStepRun 0 f = 0 → t.rd .hFormeStepRun 0 f = 0

theorem marksKept.refl (f : Nat) (s : State) : marksKept f s s := ⟨rfl, rfl, id⟩

theorem marksKept.trans (h : marksKept f s t) (h' : marksKept f t u) : marksKept f s u :=
  ⟨h'.late.trans h.late, h'.count.trans h.count, fun run => h'.ended (h.ended run)⟩

theorem marksKept.of_rd (h : ∀ g ∈ markFields, t.rd g 0 f = s.rd g 0 f) : marksKept f s t :=
  ⟨h _ (by decide), h _ (by decide), fun run => (h _ (by decide)).trans run⟩

/-- What moves no number of a forme keeps its marks. -/
theorem marksKept.moves (h : marksKept f s t) (hm : Moves as ps t u) (ha : .forme ∉ as) : marksKept f s u :=
  h.trans (.of_rd fun g hg => hm.1.1 g 0 f (by rwa [(by decide : ∀ g ∈ markFields, g.area = .forme) g hg]))

theorem marksKept.wr (h : marksKept f s t) (g : Field) (i j n : Nat) (hg : g ∉ markFields) :
    marksKept f s (t.wr g i j n) :=
  h.trans (.of_rd fun m hm => State.rd_wr_ne t g m i j 0 f n fun e => hg (e ▸ hm))

theorem marksKept.bump (h : marksKept f s t) (g : Field) (i j n : Nat) (hg : g ∉ markFields) :
    marksKept f s (t.bump g i j n) :=
  h.trans (.of_rd fun m hm => State.rd_bump_ne t g m i j 0 f n fun e => hg (e ▸ hm))

theorem marksKept.stop (h : marksKept f s t) (e : Nat) : marksKept f s (t.wr .hFormeStepRun 0 e 0) := by
  refine h.trans ⟨State.rd_wr_ne _ _ _ _ _ _ _ _ (by decide), State.rd_wr_ne _ _ _ _ _ _ _ _ (by decide),
    fun run => ?_⟩
  rw [State.rd_wr]
  split
  · rfl
  · exact run

theorem marksKept.ite {c : Prop} [Decidable c] (h : c → marksKept f s t) (h' : ¬c → marksKept f s u) :
    marksKept f s (if c then t else u) := by
  split
  next hc => exact h hc
  next hc => exact h' hc

theorem marksKept.each {α : Type} (l : List α) (g : State → α → State)
    (hg : ∀ u a, marksKept f s u → marksKept f s (g u a)) (h : marksKept f s t) : marksKept f s (t.each l g) := by
  induction l generalizing t with
  | nil => exact h
  | cons a l ih => exact ih (hg t a h)

/-! ### Park and abandonment -/

theorem marksKept.parkForme (h : marksKept f s t) (e reason : Nat) (replay : Bool) :
    marksKept f s (t.parkForme e reason replay) :=
  ((((h.wr _ _ _ _ (by decide)).wr _ _ _ _ (by decide)).stop e).wr _ _ _ _ (by decide)).wr _ _ _ _ (by decide)
    |>.moves (State.capUnmet_moves (ps := []) _ (List.Subset.refl _) (Moves.refl _)) (by decide)

theorem marksKept.stopUnits (h : marksKept f s t) (e : Nat) : marksKept f s (t.stopUnits e) :=
  h.moves (State.stopUnits_moves t e (List.Subset.refl _) (List.Subset.refl _) (Moves.refl t)) (by decide)

theorem marksKept.ignoreWith (h : marksKept f s t) (e n : Nat) (pend tick : Field) (hp : pend ∉ markFields) :
    marksKept f s (t.ignoreWith e n pend tick) :=
  .ite (fun _ => (h.wr _ _ _ _ hp).wr _ _ _ _ (by decide)) fun _ => h

theorem marksKept.abandon (h : marksKept f s t) (e cause n : Nat) : marksKept f s (t.abandon e cause n) := by
  unfold State.abandon
  refine .ite (fun _ => ?_) fun _ => .ite (fun _ => h.wr _ _ _ _ (by decide)) fun _ => .ite (fun _ => h) fun _ => ?_
  · have ignored := ((((h.stopUnits e).ignoreWith e n .hFormeHoldPend .hFormeHoldTick (by decide)).ignoreWith e n
      .hFormeParkPend .hFormeParkTick (by decide)).ignoreWith e n .hFormeStartPend .hFormeStartTick
      (by decide)).ignoreWith e n .hFormeResumePend .hFormeResumeTick (by decide)
    have stopped := ((((ignored.wr .modFormeStatusState 0 e fAbandoning (by decide)).wr .modFormeStatusCause 0 e cause
      (by decide)).bump .modFormeCountsAbandons 0 e 1 (by decide)).stop e).wr .hFormeReady 0 e 0 (by decide)
    have unsent := stopped.wr .hFormeMirrorSent 0 e 0 (by decide)
    exact (marksKept.ite (fun _ => unsent) fun _ => unsent.wr _ _ _ _ (by decide)).wr _ _ _ _ (by decide)
  · exact .ite (fun _ => h) fun _ => h.wr _ _ _ _ (by decide)

/-! ### The yield of the pair -/

theorem marksKept.dropMirror (h : marksKept f s t) (x : Forme) : marksKept f s (t.dropMirror x) := by
  have dropped : marksKept f s (t.each (bitsSet x.portSet 32) fun s q =>
      if s.isPairPort q then
        s.setLink q { s.link q with newQ := (s.link q).newQ.filter fun y => y.vc != 2 || y.forme != x.number }
      else s) :=
    h.each _ _ fun u q hu => .ite (fun _ => hu.trans (.of_rd fun _ _ => rfl)) fun _ => hu
  have unsent := dropped.wr .hFormeMirrorSent 0 x.number 0 (by decide)
  exact .ite (fun _ => unsent) fun _ => unsent.wr _ _ _ _ (by decide)

theorem marksKept.resyncDue (h : marksKept f s t) (x : Forme) : marksKept f s
    (if t.protectionOf x = 5 then (t.wr .hPairResyncDue 0 x.number 1).dropMirror x else t) :=
  .ite (fun _ => (h.wr _ _ _ _ (by decide)).dropMirror x) fun _ => h

theorem marksKept.refreshPair (h : marksKept f s t) : marksKept f s t.refreshPair := by
  unfold State.refreshPair
  have formes := h.each t.mirroredFormes (fun s x =>
    let s := s.wr .pairFormePairPort 0 x.number ((s.mirrorPort x).getD 31)
    let s := if s.protectionOf x = 5 then (s.wr .hPairResyncDue 0 x.number 1).dropMirror x else s
    if (s.mirrorPort x).isSome then s.wr .hPairGraceOver 0 x.number 0 else s) fun u x hu => by
      have resync := (hu.wr .pairFormePairPort 0 x.number ((u.mirrorPort x).getD 31) (by decide)).resyncDue x
      exact .ite (fun _ => resync.wr _ _ _ _ (by decide)) fun _ => resync
  exact .ite (fun _ => formes) fun _ => (formes.wr _ _ _ _ (by decide)).wr _ _ _ _ (by decide)

theorem marksKept.yieldForme (h : marksKept f s t) (cause e : Nat) : marksKept f s (t.yieldForme cause e) :=
  .ite (fun _ => (((h.stopUnits e).wr _ _ _ _ (by decide)).stop e).wr _ _ _ _ (by decide)) fun _ => h.stopUnits e

theorem marksKept.yieldWith (h : marksKept f s t) (cause : Nat) : marksKept f s (t.yieldWith cause) := by
  unfold State.yieldWith
  refine .ite (fun _ => ?_) fun _ => h
  refine marksKept.refreshPair (marksKept.wr (marksKept.each _ _ (fun u q hu => .ite (fun _ => hu) fun _ => ?_)
    (h.each _ _ fun u e hu => hu.yieldForme cause e)) _ _ _ _ (by decide))
  exact hu.moves (State.portOff_moves u q (List.Subset.refl _) (List.Subset.refl _) (Moves.refl u)) (by decide)

theorem marksKept.checkpointLost (h : marksKept f s t) (e n : Nat) : marksKept f s (t.checkpointLost e n) := by
  unfold State.checkpointLost
  exact .ite (fun _ => h.yieldWith 2) fun _ => ((((h.stopUnits e).parkForme e _ _).wr _ _ _ _ (by decide)).bump
    _ _ _ _ (by decide)).wr _ _ _ _ (by decide)

/-! ### The boundary of an edition -/

theorem marksKept.adopt (h : marksKept f s t) (e : Nat) (v : Variant) : marksKept f s (t.adopt e v) := by
  unfold State.adopt
  refine marksKept.each _ _ (fun _ _ hu => hu.wr _ _ _ _ (by decide)) (marksKept.wr (.ite (fun _ => ?_) fun _ => h)
    _ _ _ _ (by decide))
  exact h.wr _ _ _ _ (by decide)

/-- An edition's first number is noted. -/
def State.editionNoted (s : State) (f : Nat) : State :=
  (s.wr .hFormeEdQ 0 f (s.rd .hFormeNextQ 0 f)).wr .pwrFormeIdleSteps 0 f 0

/-- The arrivals of the fabric forme are counted afresh (R358). -/
def State.sentCleared (s : State) (x : Forme) : State := if x.fabric then { s with barSent := [] } else s

/-- The start of an edition as far as the selection of its variant. -/
def State.editionBegun (s : State) (f : Nat) (x : Forme) : State :=
  (((s.each (bitsSet x.pressSet 12) State.markStrips).editionNoted f).sentCleared x).judgeEngines x

/-- Its variant is selected and taken, or the forme parks for want of one (R237, R238). -/
def State.variantTaken (s : State) (f : Nat) (x : Forme) : State :=
  match s.select x with
  | none => s.parkForme f parkNoVariant true
  | some v =>
    (((s.adopt f v).routesBack x).setViews x).each (bitsSet x.pressSet 12) (fun s p =>
      if s.pState p = pParked then s.setPState p pReady else s) |>.wr .hFormeReady 0 f 1

theorem State.prepare_of_forme {x : Forme} (h : s.forme f = some x) :
    s.prepare f = (s.editionBegun f x).variantTaken f x := by
  unfold State.prepare
  rw [h]
  rfl

theorem marksKept.sentCleared (h : marksKept f s t) (x : Forme) : marksKept f s (t.sentCleared x) :=
  .ite (fun _ => h.trans (.of_rd fun _ _ => rfl)) fun _ => h

theorem marksKept.editionBegun (h : marksKept f s t) (e : Nat) (x : Forme) :
    marksKept f s (t.editionBegun e x) := by
  have strips : marksKept f s (t.each (bitsSet x.pressSet 12) State.markStrips) :=
    h.each _ _ fun u p hu =>
      hu.moves (State.markStrips_moves u p (List.Subset.refl _) (List.Subset.refl _) (Moves.refl u)) (by decide)
  have noted : marksKept f s ((t.each (bitsSet x.pressSet 12) State.markStrips).editionNoted e) :=
    (strips.wr _ _ _ _ (by decide)).wr _ _ _ _ (by decide)
  exact (noted.sentCleared x).moves (State.judgeEngines_moves (ps := []) _ x (List.Subset.refl _) (Moves.refl _))
    (by decide)

theorem marksKept.variantTaken (h : marksKept f s t) (e : Nat) (x : Forme) :
    marksKept f s (t.variantTaken e x) := by
  unfold State.variantTaken
  split
  · exact h.parkForme e _ _
  next v _ =>
    have viewed := ((h.adopt e v).moves (State.routesBack_moves _ x (List.Subset.refl _) (List.Subset.refl _)
      (Moves.refl _)) (by decide)).moves (State.setViews_moves (ps := []) _ x (List.Subset.refl _) (Moves.refl _))
      (by decide)
    refine (viewed.each _ _ fun u p hu => .ite (fun _ => ?_) fun _ => hu).wr _ _ _ _ (by decide)
    exact hu.moves (State.setPState_moves u p _ (List.Subset.refl _) (List.Subset.refl _) (Moves.refl u)) (by decide)

theorem marksKept.prepare (h : marksKept f s t) (e : Nat) : marksKept f s (t.prepare e) := by
  cases hx : t.forme e with
  | none =>
    unfold State.prepare
    rw [hx]
    exact h
  | some x =>
    rw [State.prepare_of_forme hx]
    exact (h.editionBegun e x).variantTaken e x

theorem marksKept.run (h : marksKept f s t) (e point : Nat) : marksKept f s (t.run e point) :=
  (h.wr _ _ _ _ (by decide)).wr _ _ _ _ (by decide)

theorem marksKept.replay (h : marksKept f s t) (e : Nat) : marksKept f s (t.replay e) :=
  (((((h.wr _ _ _ _ (by decide)).wr _ _ _ _ (by decide)).wr _ _ _ _ (by decide)).wr _ _ _ _ (by decide)).wr _ _ _ _
    (by decide)).prepare e

theorem marksKept.resumeForme (h : marksKept f s t) (e point : Nat) : marksKept f s (t.resumeForme e point) := by
  have runs := (h.run e point).wr .modFormeStatusParkReason 0 e 0 (by decide)
  exact .ite (fun _ => (runs.wr _ _ _ _ (by decide)).replay e) fun _ =>
    .ite (fun _ => runs.prepare e) fun _ => runs.wr _ _ _ _ (by decide)

/-- A START that waits takes effect (R231). -/
def State.startPending (s : State) (f : Nat) : State :=
  if s.on .hFormeStartPend 0 f && s.startable f then (s.wr .hFormeStartPend 0 f 0).startForme f else s

/-- A RESUME that waits takes effect (R231). -/
def State.resumePending (s : State) (f : Nat) : State :=
  if s.on .hFormeResumePend 0 f && s.resumable f then (s.wr .hFormeResumePend 0 f 0).resumeForme f 1 else s

/-- An error in the checkpoint region, or a cause, that waits for RUNNING takes effect (R231). -/
def State.errorPending (s : State) (f t : Nat) : State :=
  if s.fState f = fRunning && s.on .hFormeCkptPend 0 f then
    ((s.wr .hFormeCkptPend 0 f 0).wr .hFormeCausePend 0 f 0).checkpointLost f t
  else if s.fState f = fRunning && s.rd .hFormeCausePend 0 f != 0 then
    (s.wr .hFormeCausePend 0 f 0).abandon f (s.rd .hFormeCausePend 0 f) t
  else s

theorem State.letIn_eq (s : State) (f t : Nat) :
    s.letIn f t = ((s.startPending f).resumePending f).errorPending f t := rfl

theorem marksKept.startPending (h : marksKept f s t) (e : Nat) : marksKept f s (t.startPending e) :=
  .ite (fun _ => ((h.wr _ _ _ _ (by decide)).run e 1).prepare e) fun _ => h

theorem marksKept.resumePending (h : marksKept f s t) (e : Nat) : marksKept f s (t.resumePending e) :=
  .ite (fun _ => (h.wr _ _ _ _ (by decide)).resumeForme e 1) fun _ => h

theorem marksKept.errorPending (h : marksKept f s t) (e n : Nat) : marksKept f s (t.errorPending e n) :=
  .ite (fun _ => ((h.wr _ _ _ _ (by decide)).wr _ _ _ _ (by decide)).checkpointLost e n) fun _ =>
    .ite (fun _ => (h.wr _ _ _ _ (by decide)).abandon e _ n) fun _ => h

/-- What waited for the forme's state, and now takes effect in it, leaves the marks of the step that ended. -/
theorem marksKept.letIn (h : marksKept f s t) (e n : Nat) : marksKept f s (t.letIn e n) := by
  rw [State.letIn_eq]
  exact ((h.startPending e).resumePending e).errorPending e n

/-! ### The boundary of a step -/

theorem marksKept.pointStep (h : marksKept f s t) (e n : Nat) : marksKept f s (t.pointStep e n) := by
  have set (q : Nat) : marksKept f s (t.setPoint e q n) :=
    .ite (fun _ => h) fun _ => ((h.wr _ _ _ _ (by decide)).bump _ _ _ _ (by decide)).wr _ _ _ _ (by decide)
  exact .ite (fun _ => h) fun _ => .ite (fun _ => (((set _).wr _ _ _ _ (by decide)).wr _ _ _ _ (by decide)).wr _ _ _ _
    (by decide)) fun _ => set _

theorem marksKept.setDebt (h : marksKept f s t) (e : Nat) (b : Int) : marksKept f s (t.setDebt e b) :=
  h.trans (.of_rd fun _ _ => rfl)

theorem marksKept.idleRule (h : marksKept f s t) (e : Nat) : marksKept f s (t.idleRule e) := by
  have none : marksKept f s ((t.setDebt e 0).wr .pwrFormeFloor 0 e 0) := (h.setDebt e 0).wr _ _ _ _ (by decide)
  have next {u : State} (hu : marksKept f s u) : marksKept f s (u.idleNext e) :=
    .ite (fun _ => ((hu.setDebt e _).bump _ _ _ _ (by decide)).wr _ _ _ _ (by decide)) fun _ => hu.wr _ _ _ _ (by decide)
  exact .ite (fun _ => .ite (fun _ => none) fun _ => next ((h.setDebt e _).wr _ _ _ _ (by decide))) fun _ => none

theorem marksKept.stepBoundary (h : marksKept f s t) (e n : Nat) : marksKept f s (t.stepBoundary e n) := by
  have power : marksKept f s (t.powerBoundary e n) :=
    .ite (fun _ => h.parkForme e _ _) fun _ => (h.pointStep e n).idleRule e
  exact .ite (fun _ => (h.wr _ _ _ _ (by decide)).parkForme e _ _) fun _ =>
    .ite (fun _ => power.wr _ _ _ _ (by decide)) fun _ => power

/-- What a closing edition sends to the mirror moves two numbers (R376, R382). -/
theorem State.tryMirror_changes (s : State) (e : Nat) :
    changes [.pairFormeSync, .hFormeMirrorSent] [.links] s (s.tryMirror e) := by
  have sent {u w : State} (h : changes [.pairFormeSync, .hFormeMirrorSent] [.links] s u) (hm : Moves [] [.links] u w) :
      changes [.pairFormeSync, .hFormeMirrorSent] [.links] s w :=
    h.trans ⟨fun g i j _ => hm.1.1 g i j List.not_mem_nil, hm.1.2⟩
  unfold State.tryMirror
  split
  · exact .refl s
  next x _ =>
    split
    · exact .refl s
    next q _ =>
      refine .ite (fun _ => changes.wr _ _ _ _ (by decide) (sent (sent (.ite (fun _ => ?_) fun _ => .refl s)
        (State.sendBases_moves _ q x _ (List.Subset.refl _) (Moves.refl _)))
        (State.sendRecord_moves _ q _ (List.Subset.refl _) (Moves.refl _)))) fun _ => .refl s
      exact (sent (.refl s) (State.sendResync_moves s q x (List.Subset.refl _) (Moves.refl s))).wr _ _ _ _ (by decide)

end

end Sys2Proof.Machine

namespace Sys2Proof.Machine

/-! ## The end of a step (R171, R223 to R225, R231, R240) -/

section
variable {f n u : Nat} {s t : State} {e : StepEntry}

/-- A step that ends at the stamp t ends late: by its stamp, or by a job (R171, R224). -/
def State.isLate (s : State) (f : Nat) (e : StepEntry) (t : Nat) : Bool :=
  s.rd .hFormeRelTick 0 f + e.nominal + e.slack ≤ t || s.on .hFormeLateStep 0 f

/-- The step's lateness is marked. -/
def State.lateMarked (s : State) (f : Nat) (e : StepEntry) (t : Nat) : State :=
  if s.isLate f e t then (s.wr .modFormeStatusLate 0 f 1).bump .modFormeCountsLateSteps 0 f 1 else s

/-- The step has ended, its boundary still to come. -/
def State.stepEnded (s : State) (f : Nat) (e : StepEntry) (ce : List CeSite) (t : Nat) : State :=
  ((((((s.lateMarked f e t).endDrains f).met 15 true ce).wr .hFormeStepRun 0 f 0).wr .hFormeDoneTick 0 f t).expireCopies f)

/-- What follows the step: its edition closes, or the next step's boundary (R231). -/
def State.afterStep (s : State) (f : Nat) (e : StepEntry) (t : Nat) : State :=
  if e.editionEnd then ((s.wr .modFormeStatusState 0 f fClosing).enableSlices f).tryMirror f else s.stepBoundary f t

/-- The transfers that a step's end completes, and what they met corrected, move no number of a forme. -/
theorem State.stepEnded_rd (s : State) (f : Nat) (e : StepEntry) (ce : List CeSite) (t : Nat) {g : Field}
    (hg : g.area = .forme) (hr : g ≠ .hFormeStepRun) (hd : g ≠ .hFormeDoneTick) (i j : Nat) :
    (s.stepEnded f e ce t).rd g i j = (s.lateMarked f e t).rd g i j := by
  have moved : Moves [.prf, .gal, .mem] [.mem, .presses, .drains, .dirtyOut, .repairMap, .ceLog, .freeCount]
      (s.lateMarked f e t) (((s.lateMarked f e t).endDrains f).met 15 true ce) :=
    State.met_moves _ _ _ _ (by decide) (by decide) (State.endDrains_moves _ f (by decide) (Moves.refl _))
  have expired (w : State) : (w.expireCopies f).rd g i j = w.rd g i j :=
    (State.expireCopies_moves (as := []) w f (List.Subset.refl _) (Moves.refl w)).1.1 g i j List.not_mem_nil
  rw [State.stepEnded, expired, State.rd_wr_ne _ _ _ _ _ _ _ _ hd.symm, State.rd_wr_ne _ _ _ _ _ _ _ _ hr.symm]
  exact moved.1.1 g i j (by rw [hg]; decide)

theorem State.stepEnded_run (s : State) (f : Nat) (e : StepEntry) (ce : List CeSite) (t : Nat) :
    (s.stepEnded f e ce t).rd .hFormeStepRun 0 f = 0 := by
  have expired (w : State) : (w.expireCopies f).rd .hFormeStepRun 0 f = w.rd .hFormeStepRun 0 f :=
    (State.expireCopies_moves (as := []) w f (List.Subset.refl _) (Moves.refl w)).1.1 _ _ _ List.not_mem_nil
  rw [State.stepEnded, expired, State.rd_wr_ne _ _ _ _ _ _ _ _ (by decide), State.rd_wr_same]
  rfl

theorem State.lateMarked_rd_ne (s : State) (f : Nat) (e : StepEntry) (t : Nat) {g : Field} (hg : g ∉ markFields)
    (i j : Nat) : (s.lateMarked f e t).rd g i j = s.rd g i j := by
  have late : Field.modFormeStatusLate ≠ g := by rintro rfl; exact hg (by decide)
  have count : Field.modFormeCountsLateSteps ≠ g := by rintro rfl; exact hg (by decide)
  unfold State.lateMarked
  split
  · rw [State.rd_bump_ne _ _ _ _ _ _ _ _ count, State.rd_wr_ne _ _ _ _ _ _ _ _ late]
  · rfl

/-- A late step is marked and counted (R224). -/
theorem State.lateMarked_late (h : s.isLate f e n = true) :
    (s.lateMarked f e n).rd .modFormeStatusLate 0 f = 1 ∧ (s.lateMarked f e n).rd .modFormeCountsLateSteps 0 f =
      min (2 ^ 32 - 1) (s.rd .modFormeCountsLateSteps 0 f + 1) := by
  rw [State.lateMarked, if_pos h, State.rd_bump_ne _ _ _ _ _ _ _ _ (by decide), State.rd_wr_same,
    State.rd_bump_same _ _ _ _ _ (by decide), State.rd_wr_ne _ _ _ _ _ _ _ _ (by decide)]
  exact ⟨rfl, rfl⟩

/-- The end of a step leaves its forme's other numbers as they were before its stamp. -/
theorem State.stepEnded_stamp_rd (s : State) (f : Nat) (e : StepEntry) (ce : List CeSite) (u : Nat) {g : Field}
    (hg : g.area = .forme) (hm : g ∉ markFields) (hd : g ≠ .hFormeDoneTick) :
    ((s.stamp u).stepEnded f e ce u).rd g 0 f = s.rd g 0 f := by
  rw [State.stepEnded_rd _ _ _ _ _ hg (by rintro rfl; exact hm (by decide)) hd, State.lateMarked_rd_ne _ _ _ _ hm,
    s.rd_stamp_forme u hg]

theorem State.isLate_stamp (s : State) (f : Nat) (e : StepEntry) (u n : Nat) :
    (s.stamp u).isLate f e n = s.isLate f e n := by
  rw [State.isLate, State.isLate, State.on, State.on, s.rd_stamp_forme u rfl, s.rd_stamp_forme u rfl]

theorem State.stepEnded_late (ce : List CeSite) (h : s.isLate f e u = true) :
    ((s.stamp u).stepEnded f e ce u).rd .modFormeStatusLate 0 f = 1 ∧
      ((s.stamp u).stepEnded f e ce u).rd .modFormeCountsLateSteps 0 f =
        min (2 ^ 32 - 1) (s.rd .modFormeCountsLateSteps 0 f + 1) := by
  rw [State.stepEnded_rd _ _ _ _ _ rfl (by decide) (by decide), State.stepEnded_rd _ _ _ _ _ rfl (by decide) (by decide),
    ← s.rd_stamp_forme u rfl]
  exact State.lateMarked_late ((s.isLate_stamp f e u u).trans h)

theorem State.stepEnded_in_time (ce : List CeSite) (h : s.isLate f e u = false) :
    ((s.stamp u).stepEnded f e ce u).rd .modFormeStatusLate 0 f = s.rd .modFormeStatusLate 0 f ∧
      ((s.stamp u).stepEnded f e ce u).rd .modFormeCountsLateSteps 0 f = s.rd .modFormeCountsLateSteps 0 f := by
  have plain : (s.stamp u).lateMarked f e u = s.stamp u := by
    rw [State.lateMarked, if_neg (by rw [s.isLate_stamp, h]; decide)]
  rw [State.stepEnded_rd _ _ _ _ _ rfl (by decide) (by decide), State.stepEnded_rd _ _ _ _ _ rfl (by decide) (by decide),
    plain]
  exact ⟨s.rd_stamp_forme u rfl _ _, s.rd_stamp_forme u rfl _ _⟩

theorem marksKept.afterStep (h : marksKept f s t) (e : StepEntry) (n : Nat) : marksKept f s (t.afterStep f e n) := by
  have enabled := (h.wr .modFormeStatusState 0 f fClosing (by decide)).moves
    (State.enableSlices_moves (as := []) _ f (List.Subset.refl _) (Moves.refl _)) (by decide)
  exact .ite (fun _ => enabled.trans (.of_rd fun g hg => (State.tryMirror_changes _ f).1 g 0 f
    ((by decide : ∀ g ∈ markFields, g ∉ [.pairFormeSync, .hFormeMirrorSent]) g hg))) fun _ => h.stepBoundary f n

/-- The last step of an edition leaves the forme CLOSING (R231). -/
theorem State.afterStep_closing (s : State) (f : Nat) (n : Nat) (h : e.editionEnd = true) :
    (s.afterStep f e n).fState f = fClosing := by
  rw [State.afterStep, if_pos h, State.fState, (State.tryMirror_changes _ f).1 _ _ _ (by decide),
    (State.enableSlices_moves (as := []) _ f (List.Subset.refl _) (Moves.refl _)).1.1 _ _ _ List.not_mem_nil,
    State.rd_wr_same]
  rfl

/-- A forme that parks shows it and the reason (R240). -/
theorem State.parkForme_rd (s : State) (f reason : Nat) (replay : Bool) :
    (s.parkForme f reason replay).fState f = fParked ∧
    (s.parkForme f reason replay).rd .modFormeStatusParkReason 0 f = Field.modFormeStatusParkReason.fit reason ∧
    (s.parkForme f reason replay).rd .hFormeResumePend 0 f = s.rd .hFormeResumePend 0 f := by
  have cap (w : State) (g : Field) (hg : g ≠ .pwrStatusCapUnmet) : w.capUnmet.rd g 0 f = w.rd g 0 f :=
    State.rd_wr_ne _ _ _ _ _ _ _ _ hg.symm
  unfold State.parkForme State.fState
  refine ⟨?_, ?_, ?_⟩ <;> simp (disch := decide) only [cap, State.rd_wr_ne, State.rd_wr_same]
  rfl

/-- A PARK that waits parks the forme at the step's boundary (R231, R240). -/
theorem State.afterStep_parked (h : e.editionEnd = false) (park : s.on .hFormeParkPend 0 f = true) :
    (s.afterStep f e n).fState f = fParked ∧
    (s.afterStep f e n).rd .modFormeStatusParkReason 0 f = parkSupervisor ∧
    (s.afterStep f e n).rd .hFormeResumePend 0 f = s.rd .hFormeResumePend 0 f := by
  obtain ⟨state, reason, resume⟩ := (s.wr .hFormeParkPend 0 f 0).parkForme_rd f parkSupervisor false
  rw [State.rd_wr_ne _ _ _ _ _ _ _ _ (by decide)] at resume
  rw [State.afterStep, if_neg (by simp [h]), State.stepBoundary, if_pos park]
  exact ⟨state, reason, resume⟩

/-- A CLOSING forme lets nothing in. -/
theorem State.letIn_closing (h : s.fState f = fClosing) : s.letIn f n = s := by
  have loaded : ¬fClosing = fLoaded := by decide
  have held : ¬fClosing = fHeld := by decide
  have parked : ¬fClosing = fParked := by decide
  have running : ¬fClosing = fRunning := by decide
  simp [State.letIn, State.startable, State.resumable, h, loaded, held, parked, running]

/-- A PARKED forme lets in nothing but a RESUME (R231, R240). -/
theorem State.letIn_parked (h : s.fState f = fParked) (resume : s.on .hFormeResumePend 0 f = false) :
    s.letIn f n = s := by
  have loaded : ¬fParked = fLoaded := by decide
  have running : ¬fParked = fRunning := by decide
  simp [State.letIn, State.startable, h, resume, loaded, running]

theorem State.rd_irqDeliver_forme (s : State) {g : Field} (hg : g.area = .forme) (i j : Nat) :
    s.irqDeliver.rd g i j = s.rd g i j :=
  (State.irqDeliver_moves (ps := []) s (List.Subset.refl _) (Moves.refl s)).1.1 g i j (by rw [hg]; decide)

/-! ### STEP_COMPLETE and WATCHDOG_TIMEOUT -/

theorem abandonCause_timeout : abandonCause causeTimeout := by unfold abandonCause; decide

/-- An abandonment at the watchdog's tick, read from the state before its stamp (R225). -/
theorem abandoned_timeout (s : State) (f u : Nat) :
    abandoned f causeTimeout s ((s.stamp u).abandon f causeTimeout u) :=
  ((s.stamp u).abandon_abandoned u abandonCause_timeout).congr
    ((changes.refl s).stamp u timeFields_subset_errorFields) fun _ _ => rfl

section
variable (hf : f < 16) (hc : (s.stamp u).curStep f = some e)
include hf hc

theorem exec_stepComplete_timeout (ce : List CeSite) (run : s.fState f = fRunning)
    (finished : (s.stamp u).stepFinished f = true) (late : s.rd .hFormeRelTick 0 f + e.watchdog ≤ u) :
    exec (.stepComplete f ce u) s = .next ((s.stamp u).abandon f causeTimeout u) := by
  have run : (s.stamp u).fState f = fRunning := (s.rd_stamp_forme u rfl _ _).trans run
  have late : (s.stamp u).rd .hFormeRelTick 0 f + e.watchdog ≤ u := by rwa [s.rd_stamp_forme u rfl]
  show execStepComplete f ce u s = _
  simp [execStepComplete, hf, hc, run, finished, late]

theorem exec_stepComplete_ends (ce : List CeSite) (run : s.fState f = fRunning)
    (finished : (s.stamp u).stepFinished f = true) (early : u < s.rd .hFormeRelTick 0 f + e.watchdog) :
    exec (.stepComplete f ce u) s =
      .next (((((s.stamp u).stepEnded f e ce u).afterStep f e u).letIn f u).irqDeliver) := by
  have run : (s.stamp u).fState f = fRunning := (s.rd_stamp_forme u rfl _ _).trans run
  have early : ¬(s.stamp u).rd .hFormeRelTick 0 f + e.watchdog ≤ u := by rw [s.rd_stamp_forme u rfl]; omega
  show execStepComplete f ce u s = _
  simp only [execStepComplete, hf, hc, run, finished, early, if_true, decide_true, decide_false, Bool.and_true,
    Bool.and_false, Bool.false_eq_true, if_false]
  rfl

/-- The end of a step before the watchdog's tick (R223, R224, R231). -/
theorem stepComplete_ends (ce : List CeSite) (run : s.fState f = fRunning)
    (finished : (s.stamp u).stepFinished f = true) (early : u < s.rd .hFormeRelTick 0 f + e.watchdog) :
    ∃ t, Runs (.stepComplete f ce u) s t ∧ t.rd .hFormeStepRun 0 f = 0 ∧
      (e.editionEnd = true → t.fState f = fClosing) ∧
      (e.editionEnd = false → s.on .hFormeParkPend 0 f = true → s.on .hFormeResumePend 0 f = false →
        t.fState f = fParked ∧ t.rd .modFormeStatusParkReason 0 f = parkSupervisor) ∧
      (s.isLate f e u = true → t.rd .modFormeStatusLate 0 f = 1 ∧
        t.rd .modFormeCountsLateSteps 0 f = min (2 ^ 32 - 1) (s.rd .modFormeCountsLateSteps 0 f + 1)) ∧
      (s.isLate f e u = false → t.rd .modFormeStatusLate 0 f = s.rd .modFormeStatusLate 0 f ∧
        t.rd .modFormeCountsLateSteps 0 f = s.rd .modFormeCountsLateSteps 0 f) := by
  have forme {g : Field} (hg : g.area = .forme) (hm : g ∉ markFields) (hd : g ≠ .hFormeDoneTick) :=
    s.stepEnded_stamp_rd f e ce u hg hm hd
  have stops := (s.stamp u).stepEnded_run f e ce u
  have marked := State.stepEnded_late (s := s) (f := f) (e := e) (u := u) ce
  have unmarked := State.stepEnded_in_time (s := s) (f := f) (e := e) (u := u) ce
  have runs := exec_stepComplete_ends hf hc ce run finished early
  generalize (s.stamp u).stepEnded f e ce u = w at *
  have kept := ((marksKept.refl f w).afterStep e u).letIn f u
  refine ⟨_, runs, ?_, fun last => ?_, fun inside park resume => ?_, fun late => ?_, fun late => ?_⟩
  · rw [State.rd_irqDeliver_forme _ rfl, kept.ended stops]
  · have closing := w.afterStep_closing (n := u) f last
    rw [State.fState, State.rd_irqDeliver_forme _ rfl, State.letIn_closing closing]
    exact closing
  · have park : w.on .hFormeParkPend 0 f = true := by rwa [State.on, forme rfl (by decide) (by decide)]
    obtain ⟨state, reason, pend⟩ := State.afterStep_parked (n := u) inside park
    have resume : (w.afterStep f e u).on .hFormeResumePend 0 f = false := by
      rwa [State.on, pend, forme rfl (by decide) (by decide)]
    rw [State.fState, State.rd_irqDeliver_forme _ rfl, State.rd_irqDeliver_forme _ rfl,
      State.letIn_parked state resume]
    exact ⟨state, reason⟩
  · rw [State.rd_irqDeliver_forme _ rfl, State.rd_irqDeliver_forme _ rfl, kept.late, kept.count]
    exact marked late
  · rw [State.rd_irqDeliver_forme _ rfl, State.rd_irqDeliver_forme _ rfl, kept.late, kept.count]
    exact unmarked late

theorem watchdogTimeout_abandons (run : s.on .hFormeStepRun 0 f = true)
    (late : s.rd .hFormeRelTick 0 f + e.watchdog ≤ u) :
    exec (.watchdogTimeout f u) s = .next ((s.stamp u).abandon f causeTimeout u) := by
  have run : (s.stamp u).on .hFormeStepRun 0 f = true := by rwa [State.on, s.rd_stamp_forme u rfl]
  have late : (s.stamp u).rd .hFormeRelTick 0 f + e.watchdog ≤ u := by rwa [s.rd_stamp_forme u rfl]
  show execWatchdogTimeout f u s = _
  simp [execWatchdogTimeout, hf, hc, run, late]

theorem watchdogTimeout_quiet (h : s.on .hFormeStepRun 0 f = false ∨ u < s.rd .hFormeRelTick 0 f + e.watchdog) :
    exec (.watchdogTimeout f u) s = .next (s.stamp u) := by
  have idle : ¬((s.stamp u).on .hFormeStepRun 0 f && decide ((s.stamp u).rd .hFormeRelTick 0 f + e.watchdog ≤ u)) := by
    rw [State.on, s.rd_stamp_forme u rfl, s.rd_stamp_forme u rfl, ← State.on]
    obtain h | h := h
    · simp [h]
    · simp [Nat.not_le.mpr h]
  show execWatchdogTimeout f u s = _
  simp only [execWatchdogTimeout, hf, if_true, hc, if_neg idle]

end

/-- A step that has not finished, or whose forme does not run, does not end (R223). -/
theorem stepComplete_quiet (hf : f < 16) (ce : List CeSite)
    (h : s.fState f ≠ fRunning ∨ (s.stamp u).stepFinished f = false) :
    exec (.stepComplete f ce u) s = .next (s.stamp u) := by
  have going : (decide ((s.stamp u).fState f = fRunning) && (s.stamp u).stepFinished f) = false := by
    obtain h | h := h
    · have other : (s.stamp u).fState f ≠ fRunning := fun e => h ((s.rd_stamp_forme u rfl _ _).symm.trans e)
      simp [other]
    · simp [h]
  show execStepComplete f ce u s = _
  simp only [execStepComplete, hf, if_true, going, Bool.false_and, Bool.false_eq_true, if_false]
  split <;> rfl

end

/-- Settles O24: a release by what it notes and by the release of one press; the end of a step by what its boundary
leaves of its marks. -/
theorem formeSteps : Obligations.FormeSteps := by
  intro s f u hf
  have stamped : changes timeFields [] s (s.stamp u) := (changes.refl s).stamp u (List.Subset.refl _)
  refine ⟨fun x w hx hn hw ready => ⟨fun h => ?_, fun first fabric peers =>
      stepRelease_waits hf hx hw ready first fabric peers⟩, stepRelease_idle hf,
    fun e ce hc run finished => ⟨fun late => ?_, fun early => ?_⟩,
    fun h ce => ⟨_, stepComplete_quiet hf ce h, stamped⟩,
    fun e hc => ⟨fun run late => ?_, fun h => ⟨_, watchdogTimeout_quiet hf hc h, stamped⟩⟩⟩
  · obtain ⟨t, runs, ⟨seq, next, tick, run, press⟩, moved⟩ := stepRelease_runs hf hx hn hw ready h
    refine ⟨t, runs, seq, next, tick, run, fun p hp => ?_, moved⟩
    obtain ⟨holds, state, pc⟩ := press p hp
    rw [holds, state, pc]
    exact ⟨fun ready => if_pos ready, fun failed => by rw [failed]; rfl, rfl, rfl, rfl, rfl, rfl, rfl, rfl, rfl, rfl, rfl⟩
  · have runs := exec_stepComplete_timeout hf hc ce run finished late
    exact ⟨_, runs, abandoned_timeout s f u,
      (execStepComplete_moves f ce u s (List.Subset.refl _) (List.Subset.refl _) (Moves.refl s) _ runs).1⟩
  · obtain ⟨t, runs, stops, closing, parked, late, intime⟩ := stepComplete_ends hf hc ce run finished early
    refine ⟨t, runs, stops, closing, parked, fun h => late ?_, fun h h' => intime ?_,
      (execStepComplete_moves f ce u s (List.Subset.refl _) (List.Subset.refl _) (Moves.refl s) _ runs).1⟩
    · simpa [State.isLate] using h
    · simpa [State.isLate, h'] using h
  · have runs := watchdogTimeout_abandons hf hc run late
    exact ⟨_, runs, abandoned_timeout s f u,
      (execWatchdogTimeout_moves f u s (List.Subset.refl _) (List.Subset.refl _) (Moves.refl s) _ runs).1⟩

end Sys2Proof.Machine

/-!
# The galley and the memory: arbitration, scrubs, uncorrectable errors, drains

A free slot granted to memory refill; what a scrub logs; what the log of an uncorrectable error moves, and the
abandonment that follows it; the drains that an acknowledgement takes off the list.
-/

namespace Sys2Proof.Machine

/-! ## A line of the REFILL cache that was dropped (R155, R166) -/

/-- Line 0 of slice 0 lies in a REFILL range, and an uncorrectable error dropped it. -/
def droppedLineState : State :=
  { State.reset with
    regs := [(⟨.galRangeValid, 0, 0⟩, 1), (⟨.galRangeAttr, 0, 0⟩, 3)]
    dropped := [(0, 0)] }

/-- Memory refill of the first stack writes that line. -/
def refillRequest : GalReq := ⟨15, 0, 0, 0, 256, some (List.replicate 256 0), []⟩

/-- The write makes the line good again (R166). -/
theorem droppedLineState_refilled {t : State} (h : Runs (.unscheduledRequest 0 0 [refillRequest]) droppedLineState t) :
    t.dropped = [] := by
  have run : execUnscheduledRequest 0 0 [refillRequest] droppedLineState = .next t := h
  have granted : execUnscheduledRequest 0 0 [refillRequest] droppedLineState =
      .next (droppedLineState.grantBank 0 [refillRequest] 0) := by rfl
  obtain rfl := Host.Outcome.next.inj (granted.symm.trans run)
  decide +kernel

/-- Refutes O17: a write that a free slot grants changes, by the statement, the memory, the record of answers and the
two counts alone. Where memory refill writes a line of the REFILL cache that an uncorrectable error dropped, the line
is fetched again and leaves the list of dropped lines (R155, R166), a change that the statement does not admit. -/
theorem not_galleyArbitration : ¬ Obligations.GalleyArbitration := by
  unfold Obligations.GalleyArbitration
  intro h
  obtain ⟨-, granted, -⟩ := h droppedLineState
  obtain ⟨t, run, -, -, -, writes, -⟩ := granted 0 0 15 0 0 0 256 (some (List.replicate 256 0)) [] (by decide)
    (by decide) (by decide) (by decide) (by decide) (by decide) (by decide) (by decide) (by decide) (by decide)
    (by decide) (by decide)
  obtain ⟨-, -, -, parts⟩ := writes _ rfl (by decide)
  have kept : t.dropped = [(0, 0)] := parts .dropped (by decide)
  rw [droppedLineState_refilled run] at kept
  exact absurd kept (by decide)

/-! ## Scrubs (R161 to R163, R398) -/

/-- The fields that a corrected burst of a stack can move (R163, R441). -/
def memCeFields : List Field :=
  [.memStatusCe, .memCeCountCount, .memEccAddrChannel, .memEccAddrBank, .memEccAddrRow, .memEccAddrBurst,
    .memEccAddrSymbols] ++ suspectFields

section
variable (s : State)

/-- What a corrected word logs of its place: nothing where an uncorrectable error has logged its own (R162). -/
theorem State.galCe_place (c code : Nat) (sched : Bool) (line word : Nat) :
    let t := s.galCe c code sched line word
    (s.on .galStatusUe c 0 = false → t.rd .galEccAddrRequester c 0 = code % 2 ^ 5 ∧
      t.rd .galEccAddrLine c 0 = line % 2 ^ 21 ∧ t.rd .galEccAddrWord c 0 = word % 2 ^ 5) ∧
    (s.on .galStatusUe c 0 = true → t.rd .galEccAddrLine c 0 = s.rd .galEccAddrLine c 0) := by
  have seen (t : State) (e : CeEntry) (place w : Nat) :=
    (changes.refl t).ceSeen e place w (List.Subset.refl suspectFields) (List.Subset.refl ceParts)
  refine ⟨fun clear => ?_, fun set => ?_⟩
  · unfold State.galCe
    rw [clear]
    refine ⟨?_, ?_, ?_⟩ <;>
    · rw [(seen _ _ _ _).1 _ _ _ (by decide), State.rd_bump_ne _ _ _ _ _ _ _ _ (by decide)]
      simp (disch := decide) only [Bool.false_eq_true, if_false, State.rd_wr_ne, State.rd_wr_same]
      rfl
  · unfold State.galCe
    rw [set, (seen _ _ _ _).1 _ _ _ (by decide), State.rd_bump_ne _ _ _ _ _ _ _ _ (by decide),
      State.rd_wr_ne _ _ _ _ _ _ _ _ (by decide)]
    rfl

/-- A corrected burst sets ce and counts; its place is logged unless an uncorrectable error has logged its own
(R163). -/
theorem State.memCe_rd (m : Nat) (b : BurstErr) :
    let t := s.memCe m b
    t.rd .memStatusCe m 0 = 1 ∧ t.rd .memCeCountCount m 0 = min (2 ^ 32 - 1) (s.rd .memCeCountCount m 0 + 1) ∧
    (s.on .memStatusUe m 0 = false → t.rd .memEccAddrChannel m 0 = b.channel % 2 ^ 6 ∧
      t.rd .memEccAddrBank m 0 = b.bank % 2 ^ 4 ∧ t.rd .memEccAddrRow m 0 = b.row % 2 ^ 15 ∧
      t.rd .memEccAddrBurst m 0 = b.burst % 2 ^ 5) ∧
    (s.on .memStatusUe m 0 = true → t.rd .memEccAddrRow m 0 = s.rd .memEccAddrRow m 0) := by
  have seen (t : State) (e : CeEntry) (place w : Nat) :=
    (changes.refl t).ceSeen e place w (List.Subset.refl suspectFields) (List.Subset.refl ceParts)
  unfold State.memCe
  refine ⟨?_, ?_, fun clear => ?_, fun set => ?_⟩
  · rw [(seen _ _ _ _).1 _ _ _ (by decide), State.rd_bump_ne _ _ _ _ _ _ _ _ (by decide), State.rd_wr_same]
    rfl
  · rw [(seen _ _ _ _).1 _ _ _ (by decide), State.rd_bump_same _ _ _ _ _ (by decide),
      State.rd_wr_ne _ _ _ _ _ _ _ _ (by decide)]
    split
    · rfl
    · simp (disch := decide) only [State.rd_wr_ne]
      rfl
  · rw [clear]
    refine ⟨?_, ?_, ?_, ?_⟩ <;>
    · rw [(seen _ _ _ _).1 _ _ _ (by decide), State.rd_bump_ne _ _ _ _ _ _ _ _ (by decide)]
      simp (disch := decide) only [Bool.false_eq_true, if_false, State.rd_wr_ne, State.rd_wr_same]
      rfl
  · rw [set, (seen _ _ _ _).1 _ _ _ (by decide), State.rd_bump_ne _ _ _ _ _ _ _ _ (by decide),
      State.rd_wr_ne _ _ _ _ _ _ _ _ (by decide)]
    rfl

theorem State.memCe_changes (m : Nat) (b : BurstErr) : changes memCeFields ceParts s (s.memCe m b) := by
  unfold State.memCe
  refine changes.ceSeen _ _ _ (by decide) (List.Subset.refl _)
    (changes.bump _ _ _ _ (by decide) (changes.wr _ _ _ _ (by decide) (changes.ite (fun _ => .refl s) fun _ => ?_)))
  exact (((((changes.refl s).wr _ _ _ _ (by decide)).wr _ _ _ _ (by decide)).wr _ _ _ _ (by decide)).wr _ _ _ _
    (by decide)).wr _ _ _ _ (by decide)

/-- The slice whose scrub moved on to the next line of a bank (R162). -/
def State.galScrubbed (c b : Nat) : State := s.wr .hGalScrubLine c b ((s.rd .hGalScrubLine c b + 1) % 24576)

/-- The stack whose patrol moved on to its next burst (R163). -/
def State.patrolled (m : Nat) : State := s.wr .hMemPatrol m 0 (s.rd .hMemPatrol m 0 + 1)

variable {s}

theorem execGalleyScrub_limits {c b : Nat} (hc : c < 4) (hb : b < 64) (h : s.limits c true = true) (w : Option Nat) :
    execGalleyScrub c b w s = .next s := by simp [execGalleyScrub, hc, hb, h]

theorem execGalleyScrub_eq {c b : Nat} (hc : c < 4) (hb : b < 64) (h : s.limits c true = false) (w : Option Nat) :
    execGalleyScrub c b w s = .next (match w with
      | none => s.galScrubbed c b
      | some w => (s.galScrubbed c b).galCe c 24 false (s.rd .hGalScrubLine c b * 64 + b) (w % 32)) := by
  cases w <;> simp [execGalleyScrub, hc, hb, h, State.galScrubbed]

theorem execPatrolScrub_limits {m : Nat} (hm : m < 16) (h : s.limits (m / 4) false = true) (b : Option BurstErr) :
    execPatrolScrub m b s = .next s := by simp [execPatrolScrub, hm, h]

theorem execPatrolScrub_eq {m : Nat} (hm : m < 16) (h : s.limits (m / 4) false = false) (b : Option BurstErr) :
    execPatrolScrub m b s = .next (match b with
      | none => s.patrolled m
      | some b => (s.patrolled m).memCe m b) := by
  cases b <;> simp [execPatrolScrub, hm, h, State.patrolled]

theorem State.galScrubbed_line (c b : Nat) :
    (s.galScrubbed c b).rd .hGalScrubLine c b = (s.rd .hGalScrubLine c b + 1) % 24576 := by
  unfold State.galScrubbed
  rw [State.rd_wr_same]
  exact Nat.mod_eq_of_lt (Nat.lt_of_lt_of_le (Nat.mod_lt _ (by decide)) (by decide))

theorem State.galScrubbed_rd (c b : Nat) {g : Field} (hg : .hGalScrubLine ≠ g) (i j : Nat) :
    (s.galScrubbed c b).rd g i j = s.rd g i j := State.rd_wr_ne _ _ _ _ _ _ _ _ hg

theorem State.patrolled_rd (m : Nat) {g : Field} (hg : .hMemPatrol ≠ g) (i j : Nat) :
    (s.patrolled m).rd g i j = s.rd g i j := State.rd_wr_ne _ _ _ _ _ _ _ _ hg

theorem galleyScrub_runs {c b : Nat} (hc : c < 4) (hb : b < 64) (h : s.limits c true = false) :
    (∃ t, Runs (.galleyScrub c b none) s t ∧ t.rd .hGalScrubLine c b = (s.rd .hGalScrubLine c b + 1) % 24576 ∧
      changes [.hGalScrubLine] [] s t) ∧
    ∀ w, ∃ t, Runs (.galleyScrub c b (some w)) s t ∧
      t.rd .hGalScrubLine c b = (s.rd .hGalScrubLine c b + 1) % 24576 ∧ t.rd .galStatusCe c 0 = 1 ∧
      t.rd .galCeCountCount c 0 = min (2 ^ 32 - 1) (s.rd .galCeCountCount c 0 + 1) ∧
      (s.on .galStatusUe c 0 = false → t.rd .galEccAddrRequester c 0 = 24 ∧
        t.rd .galEccAddrLine c 0 = (s.rd .hGalScrubLine c b * 64 + b) % 2 ^ 21 ∧
        t.rd .galEccAddrWord c 0 = w % 32) ∧
      (s.on .galStatusUe c 0 = true → t.rd .galEccAddrLine c 0 = s.rd .galEccAddrLine c 0) ∧
      t.mem = s.mem ∧ touches [.prf, .gal] [.repairMap, .ceLog, .freeCount] s t := by
  refine ⟨⟨_, execGalleyScrub_eq hc hb h none, s.galScrubbed_line c b, (changes.refl s).wr _ _ _ _ (by decide)⟩,
    fun w => ?_⟩
  have run := execGalleyScrub_eq hc hb h (some w)
  have logged := State.galCe_changes (s.galScrubbed c b) c 24 false (s.rd .hGalScrubLine c b * 64 + b) (w % 32)
  obtain ⟨flag, count⟩ := State.galCe_rd (s.galScrubbed c b) c 24 false (s.rd .hGalScrubLine c b * 64 + b) (w % 32)
  obtain ⟨place, kept⟩ := State.galCe_place (s.galScrubbed c b) c 24 false (s.rd .hGalScrubLine c b * 64 + b) (w % 32)
  rw [State.galScrubbed_rd _ _ (by decide)] at count
  simp only [State.on, State.galScrubbed_rd _ _ (by decide : Field.hGalScrubLine ≠ .galStatusUe)] at place kept
  refine ⟨_, run, (logged.1 _ _ _ (by decide)).trans (s.galScrubbed_line c b), flag, count, fun clear => ?_,
    fun set => (kept set).trans (State.galScrubbed_rd _ _ (by decide) _ _), logged.2 .mem (by decide),
    (execGalleyScrub_moves c b (some w) s (List.Subset.refl _) (List.Subset.refl _) (Moves.refl s) _ run).1⟩
  obtain ⟨requester, line, word⟩ := place clear
  exact ⟨requester, line, word.trans (by omega)⟩

theorem patrolScrub_runs {m : Nat} (hm : m < 16) (h : s.limits (m / 4) false = false) :
    (∃ t, Runs (.patrolScrub m none) s t ∧ t.rd .hMemPatrol m 0 = (s.rd .hMemPatrol m 0 + 1) % 2 ^ 30 ∧
      changes [.hMemPatrol] [] s t) ∧
    ∀ b, ∃ t, Runs (.patrolScrub m (some b)) s t ∧ t.rd .memStatusCe m 0 = 1 ∧
      t.rd .memCeCountCount m 0 = min (2 ^ 32 - 1) (s.rd .memCeCountCount m 0 + 1) ∧
      (s.on .memStatusUe m 0 = false → t.rd .memEccAddrChannel m 0 = b.channel % 64 ∧
        t.rd .memEccAddrBank m 0 = b.bank % 16 ∧ t.rd .memEccAddrRow m 0 = b.row % 2 ^ 15 ∧
        t.rd .memEccAddrBurst m 0 = b.burst % 32) ∧
      (s.on .memStatusUe m 0 = true → t.rd .memEccAddrRow m 0 = s.rd .memEccAddrRow m 0) ∧
      t.mem = s.mem ∧ touches [.prf, .mem] [.repairMap, .ceLog, .freeCount] s t := by
  refine ⟨⟨_, execPatrolScrub_eq hm h none, State.rd_wr_same .., (changes.refl s).wr _ _ _ _ (by decide)⟩,
    fun b => ?_⟩
  have run := execPatrolScrub_eq hm h (some b)
  have logged := State.memCe_changes (s.patrolled m) m b
  obtain ⟨flag, count, place, kept⟩ := State.memCe_rd (s.patrolled m) m b
  rw [State.patrolled_rd _ (by decide)] at count
  simp only [State.on, State.patrolled_rd _ (by decide : Field.hMemPatrol ≠ .memStatusUe)] at place kept
  exact ⟨_, run, flag, count, place, fun set => (kept set).trans (State.patrolled_rd _ (by decide) _ _),
    logged.2 .mem (by decide),
    (execPatrolScrub_moves m (some b) s (List.Subset.refl _) (List.Subset.refl _) (Moves.refl s) _ run).1⟩

theorem scrubLate_runs {m : Nat} (hm : m < 16) (u : Nat) : ∃ t, Runs (.scrubLate m u) s t ∧
    t.rd .memStatusScrubLate m 0 = 1 ∧ changes (.memStatusScrubLate :: timeFields) [] s t := by
  have run : execScrubLate m u s = .next ((s.stamp u).wr .memStatusScrubLate m 0 1) := by simp [execScrubLate, hm]
  exact ⟨_, run, State.rd_wr_same .., ((changes.refl s).stamp u (List.subset_cons_self ..)).wr _ _ _ _ (by decide)⟩

theorem stackRefresh_runs {m ch : Nat} (hm : m < 16) (hc : ch < 64) : ∃ t, Runs (.stackRefresh m ch) s t ∧
    t.rd .hMemRefreshBank m ch = (s.rd .hMemRefreshBank m ch + 1) % 16 ∧
    t.rd .hMemChanBand m ch = s.rd .memStatusBand m 0 % 16 ∧ changes [.hMemRefreshBank, .hMemChanBand] [] s t := by
  have run : execStackRefresh m ch s = .next ((s.wr .hMemRefreshBank m ch (s.rd .hMemRefreshBank m ch + 1)).wr
      .hMemChanBand m ch (s.rd .memStatusBand m 0)) := by simp [execStackRefresh, hm, hc]
  refine ⟨_, run, ?_, State.rd_wr_same .., ((changes.refl s).wr _ _ _ _ (by decide)).wr _ _ _ _ (by decide)⟩
  rw [State.rd_wr_ne _ _ _ _ _ _ _ _ (by decide), State.rd_wr_same]
  rfl

end

/-! ## The log of an uncorrectable error (R164, R441) -/

/-- The fields that the log of an error in a slice or a stack can move. -/
def ueLogFields : List Field :=
  timeFields ++ suspectFields ++ [.galStatusUe, .galEccAddrRequester, .galEccAddrSched, .galEccAddrLine,
    .galEccAddrWord, .memStatusUe, .memEccAddrChannel, .memEccAddrBank, .memEccAddrRow, .memEccAddrBurst,
    .memEccAddrSymbols]

section
variable {ps : List Part} {s t : State}

theorem timeFields_subset_ueLogFields : timeFields ⊆ ueLogFields :=
  List.subset_append_of_subset_left _ (List.subset_append_left ..)

theorem changes.logGal (c code line word : Nat) (sched : Bool) (hp : ceParts ⊆ ps) (h : changes ueLogFields ps s t) :
    changes ueLogFields ps s (t.logGal c code line word sched) :=
  (((((h.wr _ _ _ _ (by decide)).wr _ _ _ _ (by decide)).wr _ _ _ _ (by decide)).wr _ _ _ _ (by decide)).wr _ _ _ _
    (by decide)).suspect _ _ _ _ (by decide) hp

theorem changes.logMem (m : Nat) (x : StackPos) (hp : ceParts ⊆ ps) (h : changes ueLogFields ps s t) :
    changes ueLogFields ps s (t.logMem m x) :=
  ((((((h.wr _ _ _ _ (by decide)).wr _ _ _ _ (by decide)).wr _ _ _ _ (by decide)).wr _ _ _ _ (by decide)).wr _ _ _ _
    (by decide)).wr _ _ _ _ (by decide)).suspect _ _ _ _ (by decide) hp

theorem changes.logKept (c code : Nat) (hp : ceParts ⊆ ps) (h : changes ueLogFields ps s t) :
    changes ueLogFields ps s (t.logKept c code) :=
  ((h.free 21 (hp (by decide))).free 5 (hp (by decide))).logGal _ _ _ _ _ hp

/-- The log of an error in a line shows its requester, its line and its word. -/
theorem State.logGal_rd (s : State) (c code line word : Nat) (sched : Bool) :
    let t := s.logGal c code line word sched
    t.rd .galStatusUe c 0 = 1 ∧ t.rd .galEccAddrRequester c 0 = code % 2 ^ 5 ∧
      t.rd .galEccAddrLine c 0 = line % 2 ^ 21 ∧ t.rd .galEccAddrWord c 0 = word % 2 ^ 5 := by
  have seen (t : State) :=
    (changes.refl t).suspect 4 c (galPlace line) word (List.Subset.refl suspectFields) (List.Subset.refl ceParts)
  unfold State.logGal
  refine ⟨?_, ?_, ?_, ?_⟩ <;>
  · rw [(seen _).1 _ _ _ (by decide)]
    simp (disch := decide) only [State.rd_wr_ne, State.rd_wr_same]
    rfl

/-- That of an error in a burst shows the place of the burst. -/
theorem State.logMem_rd (s : State) (m : Nat) (x : StackPos) :
    let t := s.logMem m x
    t.rd .memStatusUe m 0 = 1 ∧ t.rd .memEccAddrChannel m 0 = x.channel % 2 ^ 6 ∧
      t.rd .memEccAddrBank m 0 = x.bank % 2 ^ 4 ∧ t.rd .memEccAddrRow m 0 = x.row % 2 ^ 15 := by
  have seen (t : State) := (changes.refl t).suspect 5 m (stackPlace x.channel x.bank x.row) (x.byte / 64)
    (List.Subset.refl suspectFields) (List.Subset.refl ceParts)
  unfold State.logMem
  refine ⟨?_, ?_, ?_, ?_⟩ <;>
  · rw [(seen _).1 _ _ _ (by decide)]
    simp (disch := decide) only [State.rd_wr_ne, State.rd_wr_same]
    rfl

/-- The log of an error is no condition of a commit (R229). -/
theorem commitDue_of_log (h : changes ueLogFields ceParts s t) (f : Nat) : t.commitDue f = s.commitDue f := by
  have rd : ∀ g i j, g ∉ ueLogFields → t.rd g i j = s.rd g i j := h.1
  have active : t.active = s.active := h.2 .active (by decide)
  have drains : t.drains = s.drains := h.2 .drains (by decide)
  have forme : t.forme f = s.forme f := by rw [State.forme, active]; rfl
  have slices : t.slicesDone f = s.slicesDone f := by
    simp (disch := decide) only [State.slicesDone, State.formePresses, State.variant, State.stripInUse, forme, rd]
  have mirror (x : Forme) : t.mirrorOk x = s.mirrorOk x := by
    simp (disch := decide) only [State.mirrorOk, State.protectionOf, State.pairDiffers, State.pairAgrees,
      State.mirrorPort, State.isPairPort, State.portRec, State.identity, State.lState, State.impDigest, State.role,
      State.on, rd, active] <;> rfl
  simp (disch := decide) only [State.commitDue, State.fState, State.drainsDone, slices, forme, mirror, rd, drains]
  rfl

/-- An abandonment behind the log of the error, read from the state before it (R164, R231). -/
theorem abandoned_of_log (h : changes ueLogFields ceParts s t) (f n : Nat) :
    abandoned f causeUe s (t.abandon f causeUe n) := by
  have ends := t.abandon_abandoned (f := f) n abandonCause_ue
  unfold abandoned State.fState at ends ⊢
  rwa [commitDue_of_log h, h.1 .modFormeStatusState _ _ (by decide), h.1 .modFormeCountsAbandons _ _ (by decide)] at ends

/-- The range of a line is read from the range table alone (R152). -/
theorem galAttr_of_changes {fs : List Field} (h : changes fs ps s t) (hf : ∀ g ∈ [Field.galRangeValid, .galRangeAttr,
    .galRangeForme, .galRangeFirstLine, .galRangeLinesM1], g ∉ fs) (c line : Nat) :
    t.galAttr c line = s.galAttr c line := by
  have rd : ∀ g ∈ [Field.galRangeValid, .galRangeAttr, .galRangeForme, .galRangeFirstLine, .galRangeLinesM1], ∀ i j,
      t.rd g i j = s.rd g i j := fun g hg i j => h.1 g i j (hf g hg)
  simp (disch := decide) only [State.galAttr, State.on, rd] <;> rfl

theorem galAttr_of_log (h : changes ueLogFields ceParts s t) (c line : Nat) : t.galAttr c line = s.galAttr c line :=
  galAttr_of_changes h (by decide) c line

theorem regionOf_of_log (h : changes ueLogFields ceParts s t) (c band : Nat) : t.regionOf c band = s.regionOf c band := by
  simp (disch := decide) only [State.regionOf, State.on, h.1]

theorem memAttr_of_log (h : changes ueLogFields ceParts s t) (c a : Nat) : t.memAttr c a = s.memAttr c a := by
  simp (disch := decide) only [State.memAttr, regionOf_of_log h, h.1] <;> rfl

theorem memMode_of_log (h : changes ueLogFields ceParts s t) (c a : Nat) : t.memMode c a = s.memMode c a := by
  simp (disch := decide) only [State.memMode, regionOf_of_log h, h.1] <;> rfl

theorem inCheckpoint_of_log (h : changes ueLogFields ceParts s t) (f : Nat) (x : UeSite) :
    t.inCheckpoint f x = s.inCheckpoint f x := by
  have active : t.active = s.active := h.2 .active (by decide)
  have forme : t.forme f = s.forme f := by rw [State.forme, active]; rfl
  simp (disch := decide) only [State.inCheckpoint, forme, h.1] <;> rfl

theorem link_of_log (h : changes ueLogFields ceParts s t) (q : Nat) : t.link q = s.link q := by
  have links : t.links = s.links := h.2 .links (by decide)
  rw [State.link, links]
  rfl

theorem role_of_log (h : changes ueLogFields ceParts s t) : t.role = s.role := h.1 _ _ _ (by decide)

end

/-! ## Uncorrectable errors (R164 to R166, R169, R382) -/

/-- The parts that an uncorrectable error can move behind its log: those of what abandons, parks or yields. -/
def ueParts : List Part :=
  [.presses, .jobs, .lateXfers, .drains, .calJobs, .swaps, .spareNeeds, .links, .relays, .freeCount]

/-- The groups of numbers that it can move there. -/
def ueAreas : List Area := [.imp, .forme, .pair, .pwr, .events, .cal, .cmp, .col, .prs, .oe, .lnk, .lsu]

section
variable {s : State}

/-- What follows the log of an uncorrectable error: nothing where no forme owns the place, and the abandonment of
the forme where one does, neither on a standby nor in the forme's checkpoint (R164, R165, R382). -/
theorem execUncorrectableError_cases {x : UeSite} (ok : ueOk x = true) (u : Nat) :
    let w := (s.stamp u).logUe x
    ∃ t, execUncorrectableError x u s = .next t ∧ Moves ueAreas ueParts w t ∧ ((w.ueAttr x).1 = 0 → t = w) ∧
      ((w.ueAttr x).1 = 1 ∨ (w.ueAttr x).1 = 2 → (w.ueAttr x).2 < 16 → w.role ≠ rStandby →
        w.inCheckpoint (w.ueAttr x).2 x = false → t = w.abandon (w.ueAttr x).2 causeUe u) := by
  intro w
  unfold execUncorrectableError
  rw [if_pos ok]
  dsimp only
  by_cases owned : ((w.ueAttr x).1 = 1 ∨ (w.ueAttr x).1 = 2) ∧ (w.ueAttr x).2 < 16
  case neg =>
    rw [if_neg (by simpa using owned)]
    exact ⟨w, rfl, Moves.refl w, fun _ => rfl, fun h h' => absurd ⟨h, h'⟩ owned⟩
  case pos =>
    have owns : ¬(w.ueAttr x).1 = 0 := by omega
    rw [if_pos (by simpa using owned)]
    by_cases standby : w.role = rStandby
    · rw [if_pos standby]
      exact ⟨_, rfl, Moves.ite (fun _ => (Moves.refl w).wr _ _ _ _ (by decide)) fun _ => Moves.refl w,
        fun h => absurd h owns, fun _ _ h => absurd standby h⟩
    · rw [if_neg standby]
      by_cases inside : w.inCheckpoint (w.ueAttr x).2 x = true
      · rw [if_pos inside]
        split
        · exact ⟨_, rfl, State.checkpointLost_moves w _ u (by decide) (by decide) (Moves.refl w),
            fun h => absurd h owns, fun _ _ _ h => absurd (inside.symm.trans h) (by decide)⟩
        · exact ⟨_, rfl, Moves.ite (fun _ => Moves.refl w) fun _ => (Moves.refl w).wr _ _ _ _ (by decide),
            fun h => absurd h owns, fun _ _ _ h => absurd (inside.symm.trans h) (by decide)⟩
      · rw [if_neg inside]
        exact ⟨_, rfl, State.abandon_moves w _ causeUe u (by decide) (by decide) (Moves.refl w),
          fun h => absurd h owns, fun _ _ _ _ => rfl⟩

/-- The footprint that the statement gives an uncorrectable error. -/
def ueTouches (s t : State) : Prop :=
  touches [.tick, .imp, .forme, .fab, .pair, .pwr, .prf, .core, .events, .cal, .gal, .cmp, .col, .prs, .oe, .lnk, .lsu,
    .mem] [.presses, .jobs, .lateXfers, .drains, .calJobs, .swaps, .spareNeeds, .links, .repairMap, .badWords, .relays,
    .out, .freeCount] s t

theorem ueTouches_of_runs {x : UeSite} {u : Nat} {t : State} (run : Runs (.uncorrectableError x u) s t) :
    ueTouches s t :=
  (execUncorrectableError_moves x u s (List.Subset.refl _) (List.Subset.refl _) (Moves.refl s) _ run).1

/-- An error whose log is in w, the state behind it: the numbers of slices and stacks, the memory and the record of
answers stand as the log left them, and the forme that owns the place abandons (R164). -/
theorem uncorrectableError_runs {x : UeSite} {w : State} {u : Nat} (ok : ueOk x = true)
    (log : (s.stamp u).logUe x = w) : ∃ t, Runs (.uncorrectableError x u) s t ∧
      (∀ g i j, g.area = .gal ∨ g.area = .mem → t.rd g i j = w.rd g i j) ∧ t.mem = s.mem ∧
      ((w.ueAttr x).1 = 0 → t = w) ∧
      (changes ueLogFields ceParts s w → (w.ueAttr x).1 = 1 ∨ (w.ueAttr x).1 = 2 → (w.ueAttr x).2 < 16 →
        s.role ≠ rStandby → s.inCheckpoint (w.ueAttr x).2 x = false → abandoned (w.ueAttr x).2 causeUe s t) ∧
      ueTouches s t := by
  subst log
  obtain ⟨t, run, moves, alone, abandons⟩ := execUncorrectableError_cases (s := s) ok u
  refine ⟨t, run, fun g i j hg => moves.1.1 g i j ?_, (ueTouches_of_runs run).2 .mem (by decide), alone,
    fun logged h1 h2 h3 h4 => ?_, ueTouches_of_runs run⟩
  · obtain e | e := hg <;> rw [e] <;> decide
  · rw [abandons h1 h2 (by rwa [role_of_log logged]) (by rwa [inCheckpoint_of_log logged])]
    exact abandoned_of_log logged _ u

end

section
variable {s : State} (u : Nat)

theorem State.stamp_ueLog (s : State) : changes ueLogFields ceParts s (s.stamp u) :=
  (changes.refl s).stamp u timeFields_subset_ueLogFields

theorem State.logUe_galley (s : State) {c code : Nat} (line word : Nat) (sched : Bool) (hc : code < 19) :
    s.logUe (.galley c code line word sched) = s.logGal c code line word sched := by
  have core : ¬19 ≤ code := by omega
  have guest : ¬code = 23 := by omega
  simp [State.logUe, core, guest]

theorem State.logUe_stack (s : State) {c code : Nat} (a : Nat) (sched : Bool) (hc : code < 19) :
    s.logUe (.stack c code a sched) =
      s.logMem (4 * c + (stackPos (s.memMode c a) a).stack) (stackPos (s.memMode c a) a) := by
  have core : ¬19 ≤ code := by omega
  have guest : ¬code = 23 := by omega
  simp [State.logUe, core, guest]

theorem galleyUe_runs {c code line word : Nat} (sched : Bool) (hc : c < 4) (hcode : code < 19) (hl : line < galLines)
    (hw : word < 32) : ∃ t, Runs (.uncorrectableError (.galley c code line word sched) u) s t ∧
      t.rd .galStatusUe c 0 = 1 ∧ t.rd .galEccAddrRequester c 0 = code ∧ t.rd .galEccAddrLine c 0 = line ∧
      t.rd .galEccAddrWord c 0 = word ∧ t.mem = s.mem ∧
      ((s.galAttr c line).1 = 1 ∨ (s.galAttr c line).1 = 2 → (s.galAttr c line).2 < 16 → s.role ≠ rStandby →
        abandoned (s.galAttr c line).2 causeUe s t) ∧ ueTouches s t := by
  have ok : ueOk (.galley c code line word sched) = true := by
    have : code < 32 := by omega
    simp [ueOk, hc, hl, hw, this]
  have logged := (s.stamp_ueLog u).logGal c code line word sched (List.Subset.refl _)
  obtain ⟨t, run, numbers, mem, -, abandons, moved⟩ := uncorrectableError_runs ok ((s.stamp u).logUe_galley line word
    sched hcode)
  obtain ⟨ue, requester, place, bits⟩ := (s.stamp u).logGal_rd c code line word sched
  have inLine : line < 2 ^ 21 := Nat.lt_trans hl (by decide)
  refine ⟨t, run, (numbers _ _ _ (.inl rfl)).trans ue, ?_, ?_, ?_, mem, fun h1 h2 h3 => ?_, moved⟩
  · rw [numbers _ _ _ (.inl rfl), requester]
    omega
  · rw [numbers _ _ _ (.inl rfl), place, Nat.mod_eq_of_lt inLine]
  · rw [numbers _ _ _ (.inl rfl), bits]
    omega
  · have attr : ((s.stamp u).logGal c code line word sched).ueAttr (.galley c code line word sched) =
        s.galAttr c line := galAttr_of_log logged c line
    rw [attr] at abandons
    exact abandons logged h1 h2 h3 rfl

theorem stackUe_runs {c code a : Nat} (sched : Bool) (hc : c < 4) (hcode : code < 19) (ha : a < 2 ^ 38) :
    let x := stackPos (s.memMode c a) a
    let m := 4 * c + x.stack
    ∃ t, Runs (.uncorrectableError (.stack c code a sched) u) s t ∧ t.rd .memStatusUe m 0 = 1 ∧
      t.rd .memEccAddrChannel m 0 = x.channel % 64 ∧ t.rd .memEccAddrBank m 0 = x.bank % 16 ∧
      t.rd .memEccAddrRow m 0 = x.row % 2 ^ 15 ∧ t.mem = s.mem ∧
      ((s.memAttr c a).1 = 1 ∨ (s.memAttr c a).1 = 2 → (s.memAttr c a).2 < 16 → s.role ≠ rStandby →
        s.inCheckpoint (s.memAttr c a).2 (.stack c code a sched) = false →
        abandoned (s.memAttr c a).2 causeUe s t) ∧ ueTouches s t := by
  intro x m
  have ok : ueOk (.stack c code a sched) = true := by
    have : code < 32 := by omega
    simp [ueOk, hc, this]
    omega
  have log : (s.stamp u).logUe (.stack c code a sched) = (s.stamp u).logMem m x := by
    rw [State.logUe_stack _ _ _ hcode, memMode_of_log (s.stamp_ueLog u)]
  have logged := (s.stamp_ueLog u).logMem m x (List.Subset.refl _)
  obtain ⟨t, run, numbers, mem, -, abandons, moved⟩ := uncorrectableError_runs ok log
  obtain ⟨ue, channel, bank, row⟩ := (s.stamp u).logMem_rd m x
  refine ⟨t, run, (numbers _ _ _ (.inr rfl)).trans ue, (numbers _ _ _ (.inr rfl)).trans channel,
    (numbers _ _ _ (.inr rfl)).trans bank, (numbers _ _ _ (.inr rfl)).trans row, mem, fun h1 h2 h3 h4 => ?_, moved⟩
  have attr : ((s.stamp u).logMem m x).ueAttr (.stack c code a sched) = s.memAttr c a := memAttr_of_log logged c a
  rw [attr] at abandons
  exact abandons logged h1 h2 h3 h4

/-- The fabric port without the frame that an error spoilt (R169). -/
def Link.unretain (x : Link) (vc seq : Nat) : Link :=
  { x with retained := x.retained.filter fun y => !(y.vc = vc && y.seq = seq) }

/-- The state in which a frame kept for a pair alone is lost (R169). -/
def State.retainLost (s : State) (q vc seq : Nat) : State :=
  (((s.wr .galStatusRetainLost (q / 8) 0 1).setLink q ((s.link q).unretain vc seq)).settleLink q).send (.retainLost q)

theorem Link.spill_retained (x : Link) : x.spill.retained = x.retained := rfl

/-- The buffers that settle after a frame went keep the frames retained, and the flag of a frame lost. -/
theorem State.settleLink_retained (s : State) (q : Nat) : ((s.settleLink q).link q).retained = (s.link q).retained ∧
    ∀ c, (s.settleLink q).rd .galStatusRetainLost c 0 = s.rd .galStatusRetainLost c 0 := by
  unfold State.settleLink
  split
  next hq =>
    have fields (t : State) : (t.linkFields q).links = t.links ∧
        ∀ c, (t.linkFields q).rd .galStatusRetainLost c 0 = t.rd .galStatusRetainLost c 0 := by
      unfold State.linkFields
      rw [if_pos hq]
      exact ⟨rfl, fun c => by simp (disch := decide) only [State.rd_wr_ne]⟩
    refine ⟨?_, fun c => ((fields _).2 c).trans (State.rd_wr_ne _ _ _ _ _ _ _ _ (by decide))⟩
    have links := (fields ((s.setLink q (s.link q).spill).retainHigh (q / 8))).1
    rw [State.link, links]
    have kept : ((s.setLink q (s.link q).spill).link q).retained = (s.link q).retained := by
      rw [State.link_setLink, if_pos rfl, Link.spill_retained]
    exact kept
  next => exact ⟨rfl, fun _ => rfl⟩

theorem retainedUe_runs {q vc seq : Nat} (hq : q < 32) (hv : vc < 3) (hs : seq < 2 ^ 48) :
    ∃ t, Runs (.uncorrectableError (.retained q vc seq) u) s t ∧ t.rd .galStatusRetainLost (q / 8) 0 = 1 ∧
      .retainLost q ∈ t.out ∧ t.mem = s.mem ∧ (∀ y ∈ (t.link q).retained, y.vc ≠ vc ∨ y.seq ≠ seq) ∧ ueTouches s t := by
  have ok : ueOk (.retained q vc seq) = true := by
    simp [ueOk, hq, hv]
    omega
  obtain ⟨t, run, -, mem, alone, -, moved⟩ := uncorrectableError_runs (s := s) (x := .retained q vc seq)
    (w := (s.stamp u).retainLost q vc seq) ok rfl
  obtain rfl := alone rfl
  obtain ⟨left, flag⟩ := State.settleLink_retained (((s.stamp u).wr .galStatusRetainLost (q / 8) 0 1).setLink q
    (((s.stamp u).link q).unretain vc seq)) q
  refine ⟨_, run, (flag _).trans ?_, List.mem_cons_self .., mem, fun y hy => ?_, moved⟩
  · rw [State.rd_setLink, State.rd_wr_same]
    rfl
  · have kept : y ∈ (((s.stamp u).link q).unretain vc seq).retained := by
      rw [State.link_setLink, if_pos rfl] at left
      exact left ▸ hy
    have other := (List.mem_filter.mp kept).2
    simp only [Bool.not_eq_true', Bool.and_eq_false_iff, decide_eq_false_iff_not] at other
    exact other

/-- An error in a frame that waits for its acknowledgement is logged where the frame is kept: in a line of its chase's
slice, or in a burst of one of its chase's stacks where it is spilled (R164, R167). -/
theorem State.logUe_unacked (s : State) (q vc seq : Nat) : let w := s.logUe (.unacked q vc seq)
    (∀ v, changes ueLogFields ceParts v s → changes ueLogFields ceParts v w) ∧
    ((s.link q).spilled.contains (vc, seq) = false →
      w.rd .galStatusUe (q / 8) 0 = 1 ∧ w.rd .galEccAddrRequester (q / 8) 0 = (12 + q / 4 % 2) % 2 ^ 5) ∧
    ((s.link q).spilled.contains (vc, seq) = true → ∃ n, n < 4 ∧ w.rd .memStatusUe (4 * (q / 8) + n) 0 = 1) := by
  cases spilled : (s.link q).spilled.contains (vc, seq)
  case false =>
    have log : s.logUe (.unacked q vc seq) = s.logKept (q / 8) (12 + q / 4 % 2) := if_neg (by rw [spilled]; decide)
    obtain ⟨ue, requester, -, -⟩ := ((s.free 21).2.free 5).2.logGal_rd (q / 8) (12 + q / 4 % 2)
      ((s.free 21).1 % galLines) ((s.free 21).2.free 5).1 true
    rw [log]
    exact ⟨fun v h => h.logKept _ _ (List.Subset.refl _), fun _ => ⟨ue, requester⟩, fun h => absurd h (by decide)⟩
  case true =>
    let x := stackPos 0 (s.free 38).1
    have log : s.logUe (.unacked q vc seq) = (s.free 38).2.logMem (4 * (q / 8) + x.stack) x := if_pos spilled
    obtain ⟨ue, -⟩ := (s.free 38).2.logMem_rd (4 * (q / 8) + x.stack) x
    rw [log]
    exact ⟨fun v h => (h.free 38 (by decide)).logMem _ _ (List.Subset.refl _), fun h => absurd h (by decide),
      fun _ => ⟨x.stack, Nat.mod_lt _ (by decide), ue⟩⟩

theorem unackedUe_runs {q vc seq : Nat} (hq : q < 32) (hv : vc < 3) (hs : seq < 2 ^ 48) {y : LFrame}
    (hy : (s.link q).unacked.find? (fun y => y.vc = vc && y.seq = seq) = some y) (hf : y.forme < 16)
    (hr : s.role ≠ rStandby) : ∃ t, Runs (.uncorrectableError (.unacked q vc seq) u) s t ∧
      ((s.link q).spilled.contains (vc, seq) = false →
        t.rd .galStatusUe (q / 8) 0 = 1 ∧ t.rd .galEccAddrRequester (q / 8) 0 = 12 + q / 4 % 2) ∧
      ((s.link q).spilled.contains (vc, seq) = true → ∃ m, m < 16 ∧ m / 4 = q / 8 ∧ t.rd .memStatusUe m 0 = 1) ∧
      abandoned y.forme causeUe s t ∧ ueTouches s t := by
  have ok : ueOk (.unacked q vc seq) = true := by
    simp [ueOk, hq, hv]
    omega
  obtain ⟨log, slice, stack⟩ := (s.stamp u).logUe_unacked q vc seq
  have logged := log s (s.stamp_ueLog u)
  obtain ⟨t, run, numbers, -, -, abandons, moved⟩ := uncorrectableError_runs ok rfl
  have attr : ((s.stamp u).logUe (.unacked q vc seq)).ueAttr (.unacked q vc seq) = (2, y.forme) := by
    unfold State.ueAttr
    dsimp only
    rw [link_of_log logged, hy]
  rw [attr] at abandons
  rw [State.link_stamp] at slice stack
  refine ⟨t, run, fun h => ?_, fun h => ?_, abandons logged (.inr rfl) hf hr rfl, moved⟩
  · obtain ⟨ue, requester⟩ := slice h
    rw [numbers _ _ _ (.inl rfl), numbers _ _ _ (.inl rfl), requester]
    exact ⟨ue, by omega⟩
  · obtain ⟨n, hn, ue⟩ := stack h
    exact ⟨4 * (q / 8) + n, by omega, by omega, (numbers _ _ _ (.inr rfl)).trans ue⟩

theorem heldUe_runs {c f : Nat} (col : Bool) (hc : c < 4) (hf : f < 16) (hr : s.role ≠ rStandby) :
    ∃ t, Runs (.uncorrectableError (.held c col f) u) s t ∧ t.rd .galStatusUe c 0 = 1 ∧
      t.rd .galEccAddrRequester c 0 = (if col then 3 else 4) ∧ abandoned f causeUe s t ∧ ueTouches s t := by
  have ok : ueOk (.held c col f) = true := by simp [ueOk, hc, hf]
  have logged := (s.stamp_ueLog u).logKept c (if col then 3 else 4) (List.Subset.refl _)
  obtain ⟨t, run, numbers, -, -, abandons, moved⟩ := uncorrectableError_runs (s := s) (x := .held c col f)
    (w := (s.stamp u).logKept c (if col then 3 else 4)) ok rfl
  obtain ⟨ue, requester, -, -⟩ := (((s.stamp u).free 21).2.free 5).2.logGal_rd c (if col then 3 else 4)
    (((s.stamp u).free 21).1 % galLines) (((s.stamp u).free 21).2.free 5).1 true
  refine ⟨t, run, (numbers _ _ _ (.inl rfl)).trans ue, ?_, abandons logged (.inr rfl) hf hr rfl, moved⟩
  exact (numbers _ _ _ (.inl rfl)).trans (requester.trans (by cases col <;> rfl))

/-- The state in which a core's read of a line meets an error: the core's access fault, and the word bad in its L2
(R164, R477, R478). -/
def State.coreUe (s : State) (c n line word : Nat) (sched : Bool) : State :=
  ((s.logGal c (19 + n) line word sched).coreFault (4 * c + n) 3 (galBase c + line * 256 + word * 8)).markBad
    (4 * c + n) [galBase c + line * 256 + word * 8]

theorem State.logUe_core (s : State) {n : Nat} (c line word : Nat) (sched : Bool) (hn : n < 4) :
    s.logUe (.galley c (19 + n) line word sched) = s.coreUe c n line word sched := by
  have core : 19 + n ≤ 22 := by omega
  have number : 4 * c + (19 + n) - 19 = 4 * c + n := by omega
  simp [State.logUe, State.coreUe, core, number]

/-- A line of the REFILL cache is dropped (R166). -/
def State.dropRefill (s : State) (c line : Nat) : State :=
  if (s.galAttr c line).1 = 3 && !s.dropped.contains (c, line) then { s with dropped := (c, line) :: s.dropped } else s

theorem State.dropRefill_rd (s : State) (c line : Nat) (g : Field) (i j : Nat) :
    (s.dropRefill c line).rd g i j = s.rd g i j := by
  unfold State.dropRefill
  split <;> rfl

theorem State.dropRefill_badWords (s : State) (c line : Nat) : (s.dropRefill c line).badWords = s.badWords := by
  unfold State.dropRefill
  split <;> rfl

theorem State.dropRefill_mem (s : State) {c line : Nat} (h : (s.galAttr c line).1 = 3) :
    (c, line) ∈ (s.dropRefill c line).dropped := by
  unfold State.dropRefill
  rw [h]
  split
  · exact List.mem_cons_self ..
  next h => simpa using h

theorem State.coreUe_changes (s : State) (c n line word : Nat) (sched : Bool) :
    changes (.coreFaultCause :: .coreFaultAddress :: ueLogFields) (.badWords :: ceParts) s
      (s.coreUe c n line word sched) := by
  have log := (changes.refl s).logGal c (19 + n) line word sched (List.Subset.refl ceParts)
  refine (((log.mono (by decide) (by decide)).wr .coreFaultCause 0 (4 * c + n) 3 (by decide)).wr .coreFaultAddress 0
    (4 * c + n) (galBase c + line * 256 + word * 8) (by decide)).parts rfl fun p hp => ?_
  cases p <;> first | rfl | exact absurd (by decide) hp

theorem State.coreUe_rd (s : State) {c n line word : Nat} (sched : Bool)
    (fits : galBase c + line * 256 + word * 8 < 2 ^ 41) : let t := s.coreUe c n line word sched
    t.rd .galStatusUe c 0 = 1 ∧ t.rd .coreFaultCause 0 (4 * c + n) = 3 ∧
      t.rd .coreFaultAddress 0 (4 * c + n) = galBase c + line * 256 + word * 8 := by
  intro t
  have marked (g : Field) (i j : Nat) : t.rd g i j = ((s.logGal c (19 + n) line word sched).coreFault (4 * c + n) 3
    (galBase c + line * 256 + word * 8)).rd g i j := rfl
  rw [marked, marked, marked]
  unfold State.coreFault
  simp (disch := decide) only [State.rd_wr_ne, State.rd_wr_same]
  exact ⟨(s.logGal_rd c (19 + n) line word sched).1, rfl, Field.fit_of_lt fits⟩

/-- Every byte of a slice has an address of 41 bits (R475). -/
theorem galWord_lt {c line word : Nat} (hc : c < 4) (hl : line < galLines) (hw : word < 32) :
    galBase c + line * 256 + word * 8 < 2 ^ 41 := by
  unfold galLines at hl
  unfold galBase
  omega

theorem execCoreLineUe_core {c n line word : Nat} (sched : Bool) (hc : c < 4) (hn : n < 4) (hl : line < galLines)
    (hw : word < 32) : execCoreLineUe (.galley c (19 + n) line word sched) u s =
      .next (((s.stamp u).coreUe c n line word sched).dropRefill c line) := by
  have ok : ueOk (.galley c (19 + n) line word sched) = true := by
    have : 19 + n < 32 := by omega
    simp [ueOk, hc, hl, hw, this]
  unfold execCoreLineUe
  rw [if_pos ok, State.logUe_core _ _ _ _ _ hn]
  exact (apply_ite Host.Outcome.next _ _ _).symm

theorem coreLineUe_runs {c n line word : Nat} (sched : Bool) (hc : c < 4) (hn : n < 4) (hl : line < galLines)
    (hw : word < 32) : let a := galBase c + line * 256 + word * 8
    ∃ t, Runs (.coreLineUe (.galley c (19 + n) line word sched) u) s t ∧ t.rd .galStatusUe c 0 = 1 ∧
      t.rd .coreFaultCause 0 (4 * c + n) = 3 ∧ t.rd .coreFaultAddress 0 (4 * c + n) = a ∧ (4 * c + n, a) ∈ t.badWords ∧
      ((s.galAttr c line).1 = 3 → (c, line) ∈ t.dropped) ∧ (∀ f, t.fState f = s.fState f) ∧ t.mem = s.mem ∧
      touches [.tick, .fab, .prf, .core, .gal, .lnk, .mem] [.links, .repairMap, .badWords, .dropped, .out, .freeCount]
        s t := by
  have run := execCoreLineUe_core (s := s) u sched hc hn hl hw
  have moved := (execCoreLineUe_moves _ u s (List.Subset.refl _) (List.Subset.refl _) (Moves.refl s) _ run).1
  obtain ⟨ue, cause, address⟩ := (s.stamp u).coreUe_rd (n := n) sched (galWord_lt hc hl hw)
  have attr : ((s.stamp u).coreUe c n line word sched).galAttr c line = s.galAttr c line := by
    rw [galAttr_of_changes ((s.stamp u).coreUe_changes c n line word sched) (by decide),
      galAttr_of_log (s.stamp_ueLog u)]
  refine ⟨_, run, (State.dropRefill_rd ..).trans ue, (State.dropRefill_rd ..).trans cause,
    (State.dropRefill_rd ..).trans address, ?_, fun refill => State.dropRefill_mem _ (by rw [attr, refill]),
    fun f => moved.1 _ _ _ (by decide), moved.2 .mem (by decide), moved⟩
  rw [State.dropRefill_badWords]
  exact List.mem_cons_self ..

end

/-! ## Drains acknowledged (R229, R376) -/

/-- The drain goes into the out_region of forme f (R229). -/
def SlotXfer.drainOf (f : Nat) (d : SlotXfer) : Bool := d.forme = f && d.toOut

/-- The element that a search finds is the one that erasing by the same condition takes away. -/
theorem eraseP_eq_erase_of_find {α : Type} [DecidableEq α] {l : List α} {p : α → Bool} {a : α}
    (h : l.find? p = some a) : l.eraseP p = l.erase a := by
  obtain ⟨holds, l₁, l₂, rfl, before⟩ := List.find?_eq_some_iff_append.mp h
  have first {y : α} (hy : y ∈ l₁) : ¬p y = true := by simpa using before y hy
  have apart : a ∉ l₁ := fun hy => first hy holds
  rw [List.eraseP_append_right _ fun y hy => first hy, List.eraseP_cons_of_pos holds, List.erase_append_right _ apart,
    List.erase_cons_head]

section
variable {s : State} {f : Nat}

/-- The slots of a transfer leave the list of transfers as it was, but for the lines moved. -/
theorem State.moveTo_fixed (s : State) (d : SlotXfer) (past : Nat) :
    (s.moveTo d past).drains.map SlotXfer.fixed = s.drains.map SlotXfer.fixed := by
  have units (w : State) (c stack mode m line : Nat) (g : Bool) (n : Nat) :
      (w.moveUnits c stack mode m line g n).drains = w.drains :=
    (State.moveUnits_moves w c stack mode m line g n (List.Subset.refl _) (Moves.refl (as := []) w)).1.2 .drains
      (by decide)
  have one (x : SlotXfer) (hx : x.fixed = d.fixed) :
      (s.drains.map fun y => if y = d then x else y).map SlotXfer.fixed = s.drains.map SlotXfer.fixed := by
    rw [List.map_map]
    refine List.map_congr_left fun y _ => ?_
    show SlotXfer.fixed (if y = d then x else y) = _
    split
    next h => rw [h, hx]
    next => rfl
  unfold State.moveTo
  dsimp only
  split
  · split <;> exact one _ rfl
  · split <;> (show List.map SlotXfer.fixed (State.drains _) = _; rw [units]; exact one _ rfl)

theorem State.runSlots_fixed (s : State) (f c : Nat) (go : SlotXfer → Bool) (n : Nat) :
    (s.runSlots f c go n).drains.map SlotXfer.fixed = s.drains.map SlotXfer.fixed := by
  induction n generalizing s with
  | zero => rfl
  | succ n ih =>
    rw [State.runSlots]
    split
    · rfl
    · split
      · exact (ih _).trans (s.moveTo_fixed _ _)
      · rfl

/-- What is left of an acknowledged drain has moved. -/
def State.drained (s : State) (d : SlotXfer) : State := if d.moved then s else s.finishXfer d

theorem State.drained_fixed (s : State) (d : SlotXfer) :
    (s.drained d).drains.map SlotXfer.fixed = s.drains.map SlotXfer.fixed := by
  unfold State.drained
  split
  · rfl
  · exact s.runSlots_fixed _ _ _ _

theorem State.ackDrain_none (h : s.drains.find? (SlotXfer.drainOf f) = none) : s.ackDrain f = s := by
  have none : s.drains.find? (fun d => d.forme = f && d.toOut) = none := h
  rw [State.ackDrain, none]

theorem State.ackDrain_some {d : SlotXfer} (h : s.drains.find? (SlotXfer.drainOf f) = some d) :
    s.ackDrain f =
      ({ s.drained d with drains := (s.drained d).drains.eraseP (SlotXfer.drainOf f) } : State).mirrorDrain d := by
  have some : s.drains.find? (fun d => d.forme = f && d.toOut) = some d := h
  rw [State.ackDrain, some]
  rfl

/-- The mirror's part in an acknowledgement moves neither the drains nor the memory. -/
theorem drainAcknowledged_rest (hf : f < 16) : ∃ t, Runs (.drainAcknowledged f) s t ∧
    t.drains = (s.ackDrain f).drains ∧ t.mem = (s.ackDrain f).mem ∧
    touches [.forme, .pair] [.mem, .presses, .drains, .dirtyOut, .links] s t := by
  have run : execDrainAcknowledged f s = .next ((s.ackDrain f).tryMirror f) := by simp [execDrainAcknowledged, hf]
  have mirror := (State.tryMirror_moves (s.ackDrain f) f (List.Subset.refl _) (List.Subset.refl _) (Moves.refl _)).1
  exact ⟨_, run, mirror.2 .drains (by decide), mirror.2 .mem (by decide),
    (execDrainAcknowledged_moves f s (List.Subset.refl _) (List.Subset.refl _) (Moves.refl s) _ run).1⟩

theorem drainAcknowledged_runs (hf : f < 16) : ∃ t, Runs (.drainAcknowledged f) s t ∧
    (∀ d, s.drains.find? (SlotXfer.drainOf f) = some d → t.drains.length + 1 = s.drains.length ∧
      (d.moved = true → t.drains = s.drains.erase d ∧ t.mem = s.mem)) ∧
    (s.drains.find? (SlotXfer.drainOf f) = none → t.drains = s.drains ∧ t.mem = s.mem) ∧
    touches [.forme, .pair] [.mem, .presses, .drains, .dirtyOut, .links] s t := by
  obtain ⟨t, run, drains, mem, moved⟩ := drainAcknowledged_rest (s := s) hf
  refine ⟨t, run, fun d hd => ?_, fun none => ?_, moved⟩
  · have mirror (w : State) := (State.mirrorDrain_moves w d (List.Subset.refl _) (List.Subset.refl _) (Moves.refl w)).1.2
    have left : t.drains = (s.drained d).drains.eraseP (SlotXfer.drainOf f) := by
      rw [drains, State.ackDrain_some hd]
      exact mirror _ .drains (by decide)
    refine ⟨?_, fun whole => ?_⟩
    · have same : (s.drained d).drains.any (SlotXfer.drainOf f) = s.drains.any (SlotXfer.drainOf f) := by
        have fixed (l : List SlotXfer) : l.any (SlotXfer.drainOf f) = (l.map SlotXfer.fixed).any (SlotXfer.drainOf f) := by
          rw [List.any_map]
          rfl
        rw [fixed, State.drained_fixed, ← fixed]
      have length : (s.drained d).drains.length = s.drains.length := by
        have h := congrArg List.length (s.drained_fixed d)
        rwa [List.length_map, List.length_map] at h
      have found : s.drains.any (SlotXfer.drainOf f) = true :=
        List.any_eq_true.mpr ⟨d, List.mem_of_find?_eq_some hd, List.find?_some hd⟩
      have nonempty := List.length_pos_of_mem (List.mem_of_find?_eq_some hd)
      rw [left, List.length_eraseP, same, found, length]
      simp only [if_true]
      omega
    · have kept : s.drained d = s := if_pos whole
      rw [kept] at left
      refine ⟨?_, ?_⟩
      · exact left.trans (eraseP_eq_erase_of_find hd)
      · rw [mem, State.ackDrain_some hd]
        exact (mirror _ .mem (by decide)).trans (by rw [kept])
  · rw [drains, mem, State.ackDrain_none none]
    exact ⟨rfl, rfl⟩

end

/-- Settles O18: the scrubs by what each writes; the errors by their log and by what follows it; an acknowledgement by
the transfers that keep their places in the list. -/
theorem scrubsAndErrors : Obligations.ScrubsAndErrors := by
  unfold Obligations.ScrubsAndErrors
  refine ⟨fun s => ⟨fun c b hc hb => ⟨execGalleyScrub_limits hc hb, galleyScrub_runs hc hb⟩,
      fun m hm => ⟨execPatrolScrub_limits hm, patrolScrub_runs hm⟩, fun m u hm => scrubLate_runs hm u,
      fun m ch hm hc => stackRefresh_runs hm hc⟩,
    fun s u => ⟨fun c code line word sched hc hcode hl hw => galleyUe_runs u sched hc hcode hl hw,
      fun c code a sched hc hcode ha => stackUe_runs u sched hc hcode ha,
      fun q vc seq hq hv hs => ⟨retainedUe_runs u hq hv hs, fun y hy hf hr => unackedUe_runs u hq hv hs hy hf hr⟩,
      fun c col f hc hf hr => heldUe_runs u col hc hf hr,
      fun c n line word sched hc hn hl hw => coreLineUe_runs u sched hc hn hl hw,
      fun f hf => drainAcknowledged_runs hf⟩⟩

end Sys2Proof.Machine

namespace Sys2Proof.Machine

/-! ## What becomes of a request before Lemik serves it (R490 to R493) -/

section
variable {s w : State}

theorem lemikServes_of_time (h : changes timeFields [] s w) : w.lemikServes = s.lemikServes := by
  simp (disch := decide) only [State.lemikServes, State.sec, h.1]
  rfl

theorem mgtHeld_of_time (h : changes timeFields [] s w) : w.mgtHeld = s.mgtHeld := by
  have held : w.heldAccs = s.heldAccs := h.2 .heldAccs (by decide)
  have jobs : w.mgtJobs = s.mgtJobs := h.2 .mgtJobs (by decide)
  rw [State.mgtHeld, held, jobs]
  rfl

theorem opsKey_of_time (h : changes timeFields [] s w) (slot : Nat) : w.opsKey slot = s.opsKey slot := by
  have keys : w.keys = s.keys := h.2 .keys (by decide)
  have record (k : Nat) : w.keyRec k = s.keyRec k := by rw [State.keyRec, keys]; rfl
  have valid (k : Nat) : w.keyValid k = s.keyValid k := by
    simp (disch := decide) only [State.keyValid, State.rootValid, State.ownerValid, State.certified, record, h.1] <;> rfl
  simp only [State.opsKey, State.keyOf, record, valid] <;> rfl

theorem authCheck_of_time (h : changes timeFields [] s w) (type : Nat) (x : MsgHead) (a : AuthTail)
    (body : List Byte) : w.authCheck type x a body = s.authCheck type x a body := by
  have last : w.lastCounter a.slot = s.lastCounter a.slot := by
    have held : w.heldAccs = s.heldAccs := h.2 .heldAccs (by decide)
    have jobs : w.mgtJobs = s.mgtJobs := h.2 .mgtJobs (by decide)
    have kept : w.mgtLast = s.mgtLast := h.2 .mgtLast (by decide)
    simp only [State.lastCounter, State.heldCounters, held, jobs, kept] <;> rfl
  simp (disch := decide) only [State.authCheck, opsKey_of_time h, last, h.1] <;> rfl

/-- What becomes of a request before it is served: none without power, dropped with a bad head, answered with STATE while
Lemik does not serve, refused, answered again, or turned away with BUSY (R490 to R493). -/
def admits (c : Instr) (type n : Nat) (h : MsgHead) (a : AuthTail) (body : List Byte) (s : State) : Prop :=
  let head := h.magic = 0x4B4C ∧ h.version = 1 ∧ h.bodyBytes = n
  (s.islandOn = false → quietly c s) ∧
  (s.islandOn = true → ¬head → ∃ t, Runs c s t ∧
    t.rd .mgtCountsDropped 0 0 = min 65535 (s.rd .mgtCountsDropped 0 0 + 1) ∧
    changes (.mgtCountsDropped :: timeFields) [] s t) ∧
  (s.islandOn = true → head →
    (s.lemikServes = false → ∃ t, Runs c s t ∧ t.out = .mgt type h.tag 7 [] [] :: s.out ∧ changes timeFields [.out] s t) ∧
    (s.lemikServes = true →
      (∀ k, s.authCheck type h a body = .refused k → ∃ t, Runs c s t ∧
        (∃ tail, t.out = .mgt type h.tag k [] tail :: s.out) ∧
        t.rd .mgtCountsAuthRefused 0 0 = min 65535 (s.rd .mgtCountsAuthRefused 0 0 + 1) ∧
        changes (.mgtCountsAuthRefused :: timeFields) [.out] s t) ∧
      (s.authCheck type h a body = .again → ∃ t, Runs c s t ∧
        (∀ r, s.mgtLast.get? a.slot = some (a.counter, r) → t.out = r :: s.out) ∧ changes timeFields [.out] s t) ∧
      (s.authCheck type h a body = .ok → 64 ≤ s.mgtHeld → ∃ t, Runs c s t ∧
        (∃ tail, t.out = .mgt type h.tag 6 [] tail :: s.out) ∧
        t.rd .mgtCountsBusy 0 0 = min 65535 (s.rd .mgtCountsBusy 0 0 + 1) ∧
        changes (.mgtCountsBusy :: timeFields) [.out] s t)))

/-- A request that Lemik's checks receive in w, the state s but for time, is admitted so. -/
theorem admits_of_lemik {c : Instr} {type n : Nat} {h : MsgHead} {a : AuthTail} {body : List Byte}
    {serve : State → State} (time : changes timeFields [] s w)
    (run : exec c s = w.withHead h n fun x => x.lemik type h a body serve) : admits c type n h a body s := by
  have on : w.islandOn = s.islandOn := by simp (disch := decide) only [State.islandOn, time.1]
  have serves := lemikServes_of_time time
  have out : w.out = s.out := time.2 .out (by decide)
  have rd {g : Field} (hg : g ∉ timeFields) : w.rd g 0 0 = s.rd g 0 0 := time.1 g 0 0 hg
  have sent (fs : List Field) (hf : timeFields ⊆ fs) : changes fs [.out] s w := time.mono hf (List.nil_subset _)
  refine ⟨fun off => ⟨w, ?_, time⟩, fun up bad => ?_, fun up good => ?_⟩
  · rw [Runs, run, State.withHead, on, off]
    rfl
  · have dropped : exec c s = .next w.dropMsg := by
      rw [run, State.withHead, on, up, if_neg (by decide), if_neg (by simpa [and_assoc] using bad)]
    refine ⟨_, dropped, ?_, (time.mono (by decide) (by decide)).bump _ _ _ _ (by decide)⟩
    unfold State.dropMsg
    rw [State.rd_bump_same _ _ _ _ _ (by decide), rd (by decide)]
    rfl
  · have served : exec c s = .next (w.lemik type h a body serve) := by
      rw [run, State.withHead, on, up, if_neg (by decide), if_pos (by simpa [and_assoc] using good)]
    unfold State.lemik at served
    rw [serves, authCheck_of_time time, mgtHeld_of_time time] at served
    refine ⟨fun idle => ?_, fun busy => ⟨fun k refused => ?_, fun again => ?_, fun ok full => ?_⟩⟩
    · rw [idle] at served
      exact ⟨_, served, congrArg _ out, (sent _ (List.Subset.refl _)).send _ (by decide)⟩
    · rw [busy, refused] at served
      refine ⟨_, served, ⟨_, congrArg _ ((State.bump_out ..).trans out)⟩, ?_,
        ((sent _ (by decide)).bump _ _ _ _ (by decide)).send _ (by decide)⟩
      refine (State.rd_bump_same _ _ _ _ _ (by decide)).trans ?_
      rw [rd (by decide)]
      rfl
    · rw [busy, again] at served
      have last : w.mgtLast = s.mgtLast := time.2 .mgtLast (by decide)
      refine ⟨_, served, fun r kept => ?_, ?_⟩
      · show (w.answerAgain a.slot a.counter).out = _
        unfold State.answerAgain
        rw [last, kept]
        dsimp only
        rw [if_pos rfl]
        exact congrArg _ out
      · show changes timeFields [.out] s (w.answerAgain a.slot a.counter)
        have sent := sent _ (List.Subset.refl _)
        unfold State.answerAgain
        split
        · exact changes.ite (fun _ => sent.send _ (by decide)) fun _ => sent
        · exact sent
    · rw [busy, ok] at served
      have served : exec c s = .next ((w.bump .mgtCountsBusy 0 0 1).respondSigned type h.tag a.counter 6 []) :=
        served.trans (congrArg _ (if_pos full))
      refine ⟨_, served, ⟨_, congrArg _ ((State.bump_out ..).trans out)⟩, ?_,
        ((sent _ (by decide)).bump _ _ _ _ (by decide)).send _ (by decide)⟩
      refine (State.rd_bump_same _ _ _ _ _ (by decide)).trans ?_
      rw [rd (by decide)]
      rfl

end

/-- The half of O56 that says how a request is admitted holds of all four types. -/
theorem lemik_admits (s : State) (h : MsgHead) (a : AuthTail) (off width count ch space addr len u : Nat) (vals : List Nat)
    (data : List Byte) (met : Met) (c : Instr) (type n : Nat) (body : List Byte)
    (hc : (c = .regRead h a off width count ∧ type = 0x10 ∧ n = 8 ∧ body = regBody off width count) ∨
        (c = .regWrite h a off width vals u ∧ type = 0x11 ∧ n = 8 + width * vals.length ∧
          body = regBody off width vals.length ++ vals.flatMap (natLe width)) ∨
        (c = .memRead h a ch space addr len met ∧ type = 0x12 ∧ n = 20 ∧ body = memBody ch space addr len) ∨
        (c = .memWrite h a ch space addr data ∧ type = 0x13 ∧ n = 20 + data.length ∧
          body = memBody ch space addr data.length ++ data)) : admits c type n h a body s := by
  obtain ⟨rfl, rfl, rfl, rfl⟩ | ⟨rfl, rfl, rfl, rfl⟩ | ⟨rfl, rfl, rfl, rfl⟩ | ⟨rfl, rfl, rfl, rfl⟩ := hc
  · exact admits_of_lemik (changes.refl s) rfl
  · exact admits_of_lemik ((changes.refl s).stamp u (List.Subset.refl _)) rfl
  · exact admits_of_lemik (changes.refl s) rfl
  · exact admits_of_lemik (changes.refl s) rfl

/-! ## Why O56 stays open

What O56 says of a request that passes the checks of R492 rests on `Config.falconVerify`, the signature scheme, an opaque
function of which the model says nothing. Were no signature to verify, no request would pass and O56 would hold. Were
every signature to verify, a MEM_READ of another chase's slice would pass: it crosses the ring and is answered with a
fault where a link of the way is down (R24, R336), where O56 has it answered with the bytes. So neither O56 nor its
negation follows from the model. -/

theorem authCheck_ne_ok_of_no_signature (never : ∀ key m sig, Config.falconVerify key m sig = false) (s : State) (type : Nat)
    (h : MsgHead) (a : AuthTail) (body : List Byte) : s.authCheck type h a body ≠ .ok := by
  unfold State.authCheck
  split
  · exact nofun
  · rw [never]
    exact nofun

/-- O56 would hold were no signature to verify. -/
theorem lemikRequests_of_no_signature (never : ∀ key m sig, Config.falconVerify key m sig = false) :
    Obligations.LemikRequests := by
  intro s h a off width count ch space addr len u vals data met
  refine ⟨lemik_admits s h a off width count ch space addr len u vals data met, fun _ _ _ => ⟨?_, ?_, ?_, ?_⟩⟩
  all_goals exact fun _ ok => absurd ok (authCheck_ne_ok_of_no_signature never _ _ _ _ _)

/-- A response goes behind what was sent before (R492). -/
theorem State.mgtRespond_out (s : State) (type tag slot counter status : Nat) (body : List Byte) :
    (s.mgtRespond type tag slot counter status body).out =
      .mgt type tag status body (s.mgtTail type tag counter status body) :: s.out := by
  unfold State.mgtRespond
  dsimp only
  split <;> rfl

/-- A module that serves and holds some keys, with every die link down. -/
def servingState (keys : SMap Nat (List Byte)) : State :=
  { State.reset with
    regs := [(⟨.secEventsResetMask, 0, 0⟩, 1), (⟨.secStatusState, 0, 0⟩, 5), (⟨.coreStatusState, 0, 0⟩, 2)]
    keys := keys }

/-- The access of a MEM_READ of the first sector of slice 1. -/
def crossingRead (h : MsgHead) (a : AuthTail) : Access :=
  ⟨1, true, 0, 64, none, ⟨[], false⟩, .mgt 0x12 h.tag a.slot a.counter⟩

section
variable {keys : SMap Nat (List Byte)} {h : MsgHead} {a : AuthTail}

/-- Attributes, holds and rails let the read pass (R152 to R154, R398). -/
theorem judge_crossingRead : (servingState keys).received.judge (crossingRead h a) = .go := by
  with_unfolding_all rfl

/-- Such a read, once authenticated, is answered with the cause LINK, where a link of its way is down (R336). -/
theorem crossingRead_runs (head : h.magic = 0x4B4C ∧ h.version = 1 ∧ h.bodyBytes = 20)
    (ok : (servingState keys).authCheck 0x12 h a (memBody 1 1 0 64) = .ok) :
    exec (.memRead h a 1 1 0 64 ⟨[], false⟩) (servingState keys) =
      .next ((servingState keys).received.mgtRespond 0x12 h.tag a.slot a.counter 5 (natLe 1 6)) := by
  obtain ⟨magic, version, bytes⟩ := head
  have on : (servingState keys).islandOn = true := rfl
  have serves : (servingState keys).lemikServes = true := rfl
  have held : (servingState keys).mgtHeld = 0 := rfl
  have form : memForm 1 1 0 64 = true := rfl
  have cut : (servingState keys).received.ringCut 0 1 = true := rfl
  have access : (servingState keys).received.mgtAccess (crossingRead h a) 0x12 h.tag a.slot a.counter =
      (servingState keys).received.mgtRespond 0x12 h.tag a.slot a.counter 5 (natLe 1 6) := by
    have other : ¬(crossingRead h a).chase = 0 := by
      show ¬1 = 0
      decide
    unfold State.mgtAccess
    rw [if_neg other, judge_crossingRead]
    exact if_pos cut
  show execMemRead h a 1 1 0 64 ⟨[], false⟩ (servingState keys) = _
  simp only [execMemRead, State.withHead, State.lemik, on, serves, magic, version, bytes, ok, held, form]
  exact congrArg Host.Outcome.next access

/-- What O56 says of such a read: it never passes the checks of R492. -/
theorem authCheck_ne_ok_of_lemikRequests (holds : Obligations.LemikRequests)
    (head : h.magic = 0x4B4C ∧ h.version = 1 ∧ h.bodyBytes = 20) :
    (servingState keys).authCheck 0x12 h a (memBody 1 1 0 64) ≠ .ok := by
  intro ok
  obtain ⟨-, answers⟩ := holds (servingState keys) h a 0 0 0 1 1 0 64 0 [] [] ⟨[], false⟩
  obtain ⟨-, -, reads, -⟩ := answers rfl rfl (by show 0 < 64; decide)
  obtain ⟨t, run, -, -, -, formed, -⟩ := reads head ok
  obtain ⟨before, -, tail, out⟩ := (formed rfl).1 judge_crossingRead rfl
  obtain rfl := Host.Outcome.next.inj ((crossingRead_runs head ok).symm.trans run)
  rw [State.mgtRespond_out] at out
  obtain ⟨status, -⟩ := List.cons.inj out
  exact absurd (Out.mgt.inj status).2.2.1 (by decide)

end

/-- A record of slot 4 with the role of the owner's root key, certified by its own slot (R463, R464). -/
def ownerRecord : List Byte := [4, 0, 0, 0, 3, 0, 0, 0, 4]

/-- O56 would fail were every signature to verify: the module then accepts a read that crosses the ring. -/
theorem not_lemikRequests_of_every_signature (always : ∀ key m sig, Config.falconVerify key m sig = true) :
    ¬ Obligations.LemikRequests := by
  intro holds
  refine authCheck_ne_ok_of_lemikRequests (keys := [(4, ownerRecord)]) (h := ⟨0x4B4C, 1, 0, 20⟩) (a := ⟨4, 1, []⟩) holds
    ⟨rfl, rfl, rfl⟩ ?_
  have valid : (servingState [(4, ownerRecord)]).keyValid 4 = true := by
    show (recFits 4 ownerRecord && decide (leAt ownerRecord 8 4 = 4) && recSigned ownerRecord (recKey ownerRecord)) = true
    rw [recSigned, always]
    decide
  have key : (servingState [(4, ownerRecord)]).opsKey 4 = some (recKey ownerRecord) := by
    have kept : (servingState [(4, ownerRecord)]).keyRec 4 = some ownerRecord := rfl
    have role : recRole ownerRecord = 3 := by decide
    simp [State.opsKey, State.keyOf, kept, valid, role]
  have first : (servingState [(4, ownerRecord)]).lastCounter 4 = none := rfl
  simp only [State.authCheck, key, first, always]
  rfl

end Sys2Proof.Machine

/-!
# Compositors and collective engines

What becomes of the jobs that the engines know, each said once of the operation that does it: the job that begins, the
jobs that wait, the window of lookups, and the node values.
-/

namespace Sys2Proof.Machine

/-! ## Jobs that the engines know (R170) -/

section
variable {s t : State} {f i c n : Nat} {x : Job} {as : List Area} {ps : List Part} {fs : List Field}

theorem changes_of_moves (h : Moves [] ps s t) : changes [] ps s t :=
  ⟨fun g a b _ => h.1.1 g a b List.not_mem_nil, h.1.2⟩

theorem State.key_of_job (h : s.job f i = some x) : x.forme = f ∧ x.idx = i := by
  simpa using List.find?_some h

theorem State.job_congr (h : t.jobs = s.jobs) (f i : Nat) : t.job f i = s.job f i := by rw [State.job, h]; rfl

theorem State.setJob_congr (h : t.jobs = s.jobs) (x : Job) : (t.setJob x).jobs = (s.setJob x).jobs := by
  simp only [State.setJob, h]

theorem State.ensureJob_of_job (h : s.job f i = some x) : s.ensureJob f i = s := by rw [State.ensureJob, h]

theorem State.ensureJob_of_none {d : Nat} (h : s.job f i = none) (hd : s.jobDesc f i = some d) :
    s.ensureJob f i = { s with jobs := s.jobs ++ [Job.fresh f i d] } := by rw [State.ensureJob, h, hd]

/-- A job put in the place of one that is there is found there. -/
theorem State.job_setJob (h : (s.job x.forme x.idx).isSome = true) : (s.setJob x).job x.forme x.idx = some x := by
  obtain ⟨y, found⟩ := Option.isSome_iff_exists.mp h
  obtain ⟨yf, yi⟩ := State.key_of_job found
  have place (j : Job) : (decide ((if j.forme = x.forme && j.idx = x.idx then x else j).forme = x.forme) &&
      decide ((if j.forme = x.forme && j.idx = x.idx then x else j).idx = x.idx)) =
      (decide (j.forme = x.forme) && decide (j.idx = x.idx)) := by
    split
    next hj => rw [hj]; simp
    next => rfl
  have search : (s.setJob x).job x.forme x.idx =
      (s.job x.forme x.idx).map fun j => if j.forme = x.forme && j.idx = x.idx then x else j := by
    rw [State.job, State.setJob, List.find?_map]
    exact congrArg (Option.map _) (congrArg (List.find? · s.jobs) (funext place))
  rw [search, found, Option.map_some, yf, yi]
  simp

theorem State.mem_setJob {y : Job} (h : s.job x.forme x.idx = some y) : x ∈ (s.setJob x).jobs :=
  List.mem_of_find?_eq_some (State.job_setJob (Option.isSome_of_eq_some h))

/-! ### A job that runs, and the engine that shows it (R170, R188) -/

/-- Job i of forme f is there and RUNNING, and the collective engine of chase c shows job n. -/
structure State.shows (f i c n : Nat) (s : State) : Prop where
  there : ∃ j ∈ s.jobs, j.forme = f ∧ j.idx = i
  runs : ∀ j ∈ s.jobs, j.forme = f → j.idx = i → j.status = .running
  field : s.rd .colStatusJob c 0 = n

theorem State.shows.job (h : s.shows f i c n) : (s.job f i).map Job.status = some .running := by
  obtain ⟨⟨j, mem, hf, hi⟩, runs, -⟩ := h
  cases hj : s.job f i with
  | none => exact absurd (List.find?_eq_none.mp hj j mem) (by simp [hf, hi])
  | some x =>
    obtain ⟨xf, xi⟩ := State.key_of_job hj
    rw [Option.map_some, runs x (List.mem_of_find?_eq_some hj) xf xi]

theorem State.shows.of_same (h : s.shows f i c n) (hj : t.jobs = s.jobs)
    (hr : t.rd .colStatusJob c 0 = s.rd .colStatusJob c 0) : t.shows f i c n :=
  ⟨hj ▸ h.there, hj ▸ h.runs, hr.trans h.field⟩

theorem State.shows.of_changes (h : s.shows f i c n) (hc : changes fs ps s t) (hf : .colStatusJob ∉ fs)
    (hp : .jobs ∉ ps) : t.shows f i c n := h.of_same (hc.2 .jobs hp) (hc.1 _ _ _ hf)

theorem State.shows.of_moves (h : s.shows f i c n) (hm : Moves as ps s t) (ha : .col ∉ as) (hp : .jobs ∉ ps) :
    t.shows f i c n := h.of_same (hm.1.2 .jobs hp) (hm.1.1 _ _ _ ha)

theorem State.shows.wr (h : s.shows f i c n) (g : Field) (a b v : Nat) (hg : g ≠ .colStatusJob) :
    (s.wr g a b v).shows f i c n := h.of_same rfl (State.rd_wr_ne _ _ _ _ _ _ _ _ hg)

theorem State.shows.ite {p : Prop} [Decidable p] (h : p → s.shows f i c n) (h' : ¬p → t.shows f i c n) :
    (if p then s else t).shows f i c n := by
  split <;> rename_i hp
  · exact h hp
  · exact h' hp

theorem State.shows.each {α : Type} (l : List α) (g : State → α → State)
    (hg : ∀ s a, s.shows f i c n → (g s a).shows f i c n) (h : s.shows f i c n) : (s.each l g).shows f i c n := by
  induction l generalizing s with
  | nil => exact h
  | cons a l ih => exact ih (hg s a h)

/-- A job replaced keeps another's state, and its own where the new one runs. -/
theorem State.shows.setJob (h : s.shows f i c n) (hx : x.forme = f → x.idx = i → x.status = .running) :
    (s.setJob x).shows f i c n := by
  obtain ⟨⟨j, mem, hf, hi⟩, runs, field⟩ := h
  refine ⟨⟨_, List.mem_map_of_mem mem, ?_⟩, fun y hy yf yi => ?_, field⟩
  · split
    next h => simp only [Bool.and_eq_true, decide_eq_true_eq] at h; exact ⟨h.1 ▸ hf, h.2 ▸ hi⟩
    next => exact ⟨hf, hi⟩
  · obtain ⟨z, hz, rfl⟩ := List.mem_map.mp hy
    by_cases place : (decide (z.forme = x.forme) && decide (z.idx = x.idx)) = true
    · rw [if_pos place] at yf yi ⊢
      exact hx yf yi
    · rw [if_neg place] at yf yi ⊢
      exact runs z hz yf yi

/-- The same where the new one is what was known of the job, but for its state and its place. -/
theorem State.shows.update {y : Job} (h : s.shows f i c n) (hx : x ∈ s.jobs)
    (hy : y.forme = x.forme ∧ y.idx = x.idx ∧ y.status = x.status) : (s.setJob y).shows f i c n := by
  obtain ⟨forme, idx, status⟩ := hy
  exact h.setJob fun yf yi => status.trans (h.runs x hx (forme ▸ yf) (idx ▸ yi))

theorem State.shows.ensureJob (h : s.shows f i c n) (a b : Nat) : (s.ensureJob a b).shows f i c n := by
  obtain ⟨⟨j, mem, hf, hi⟩, runs, field⟩ := h
  unfold State.ensureJob
  split
  next d hn _ =>
    refine ⟨⟨j, List.mem_append_left _ mem, hf, hi⟩, fun y hy yf yi => ?_, field⟩
    rcases List.mem_append.mp hy with hy | hy
    · exact runs y hy yf yi
    · obtain rfl := List.mem_singleton.mp hy
      obtain ⟨rfl, rfl⟩ : a = f ∧ b = i := ⟨yf, yi⟩
      exact absurd (List.find?_eq_none.mp hn j mem) (by simp [hf, hi])
  next => exact ⟨⟨j, mem, hf, hi⟩, runs, field⟩

end

section
variable {s t : State} {f i c n : Nat} {x : Job}

theorem changes.colFlags {fs : List Field} {ps : List Part} (a : Nat) (e : NumFlags)
    (hf : [.colNumFlagsNanIn, .colNumFlagsNanMade, .colNumFlagsA56Overflow, .colNumFlagsOverflow, .colNumFlagsSaturated,
      .colNumFlagsUnderflow] ⊆ fs) (h : changes fs ps s t) : changes fs ps s (t.colFlags a e) := by
  have raise (b : Bool) {g : Field} (hg : g ∈ fs) {w : State} (hw : changes fs ps s w) :
      changes fs ps s (if b then w.wr g a 0 1 else w) := .ite (fun _ => hw.wr _ _ _ _ hg) fun _ => hw
  exact raise _ (hf (by decide)) (raise _ (hf (by decide)) (raise _ (hf (by decide)) (raise _ (hf (by decide))
    (raise _ (hf (by decide)) (raise _ (hf (by decide)) h)))))

theorem State.shows.colFlags (h : s.shows f i c n) (a : Nat) (e : NumFlags) : (s.colFlags a e).shows f i c n :=
  h.of_changes ((changes.refl (ps := []) s).colFlags a e (List.Subset.refl _)) (by decide) (by decide)

theorem State.shows.land (h : s.shows f i c n) (a b line : Nat) : (s.land a b line).shows f i c n := by
  have known := h.ensureJob a b
  unfold State.land
  dsimp only
  split
  · exact known
  next x hx => exact known.update (List.mem_of_find?_eq_some hx) ⟨rfl, rfl, rfl⟩

theorem State.shows.queueXfer (h : s.shows f i c n) (rs : List Resv) (e : Nat × Option Nat) (a b : Nat)
    (bytes : List Byte) : (s.queueXfer rs e a b bytes).shows f i c n :=
  h.of_moves (as := []) (State.queueXfer_moves s rs e a b bytes (List.Subset.refl _) (Moves.refl s)) (by decide)
    (by decide)

theorem State.shows.putLines (h : s.shows f i c n) (a line : Nat) (bs : List Byte) :
    (s.putLines a line bs).shows f i c n :=
  h.of_moves (as := []) (State.putLines_moves s a line bs (List.Subset.refl _) (Moves.refl s)) (by decide) (by decide)

theorem State.shows.putPadded (h : s.shows f i c n) (a line : Nat) (bs : List Byte) :
    (s.putPadded a line bs).shows f i c n := h.putLines _ _ _

theorem State.shows.sendLines (h : s.shows f i c n) (x : Job) (p : Plan) (q kind : Nat) (line : Nat → Nat)
    (data : List Byte) : (s.sendLines x p q kind line data).shows f i c n := by
  unfold State.sendLines
  split
  · exact h
  · refine .ite (fun _ => ?_) fun _ => h.queueXfer _ _ _ _ _
    split
    · exact h
    · exact .ite (fun _ => (h.putPadded _ _ _).land _ _ _) fun _ => h.queueXfer _ _ _ _ _

theorem State.shows.sendNode (h : s.shows f i c n) (x : Job) (p : Plan) (shard lo hi : Nat) (v : List Nat)
    (dst : Nat × Nat) : (s.sendNode x p shard lo hi v dst).shows f i c n := h.queueXfer _ _ _ _ _

theorem State.shows.rootResult (h : s.shows f i c n) (hx : x.forme = f → x.idx = i → x.status = .running) (p : Plan)
    (shard : Nat) (v : List Nat) : (s.rootResult x p shard v).shows f i c n := by
  have kept := (h.colFlags x.chase (NumFlags.orAll (((List.range v.length).map fun n =>
    if jMode x.desc = 7 then (v.getD n 0, NumFlags.none)
    else convertOut (jFmt x.desc) (s.jobRound x.forme (cRmode x.desc) (cTensor x.desc) (shard * cCount x.desc + n))
      (cSat x.desc) (fp32Val (v.getD n 0))).map Prod.snd))).setJob hx
  exact .ite (fun _ => kept.each _ _ fun w q hw => hw.sendLines _ _ _ _ _ _)
    fun _ => (kept.putPadded _ _ _).land _ _ _

theorem State.shows.scratch (h : s.shows f i c n) (a line k : Nat) : (s.scratch a line k).shows f i c n :=
  h.of_moves (as := []) (State.scratch_moves s a line k (List.Subset.refl _) (Moves.refl s)) (by decide) (by decide)

theorem oldestHeld_mem {l : List (Job × HeldNode)} {e : Job × HeldNode} (h : oldestHeld l = some e) : e ∈ l := by
  induction l generalizing e with
  | nil => exact absurd h (by simp [oldestHeld])
  | cons a l ih =>
    rw [oldestHeld] at h
    split at h
    · exact Option.some.inj h ▸ List.mem_cons_self ..
    next b hb =>
      obtain rfl := Option.some.inj h
      split
      · exact List.mem_cons_self ..
      · exact List.mem_cons_of_mem _ (ih hb)

theorem State.job_mem_of_stored {e : Job × HeldNode} (h : e ∈ s.stored c) : e.1 ∈ s.jobs := by
  obtain ⟨j, hj, he⟩ := List.mem_flatMap.mp h
  obtain ⟨-, -, rfl⟩ := List.mem_map.mp he
  exact (List.mem_filter.mp hj).1

theorem State.shows.nodeSpill (h : s.shows f i c n) (a k : Nat) : (s.nodeSpill a k).shows f i c n := by
  induction k generalizing s with
  | zero => exact h
  | succ k ih =>
    rw [State.nodeSpill]
    refine .ite (fun _ => ?_) fun _ => h
    split
    · exact h
    next e he =>
      refine ih (.scratch (.wr ?_ _ _ _ _ (by decide)) _ _ _)
      exact h.update (State.job_mem_of_stored (oldestHeld_mem he)) ⟨rfl, rfl, rfl⟩

theorem State.shows.nodeStep (h : s.shows f i c n) (a b : Nat) (p : Plan) (shard k lo hi : Nat) (v : List Nat) :
    (s.nodeStep a b p shard k lo hi v).shows f i c n := by
  induction k generalizing s lo hi v with
  | zero => exact h
  | succ k ih =>
    rw [State.nodeStep]
    split
    · exact h
    next x hx =>
      have mem : x ∈ s.jobs := List.mem_of_find?_eq_some hx
      have marked := h.update (y := { x with seen := x.seen ++ [(shard, lo, hi)] }) mem ⟨rfl, rfl, rfl⟩
      dsimp only
      refine .ite (fun _ => ?_) fun _ => ?_
      · refine marked.rootResult ?_ p shard v
        exact h.runs x mem
      split
      · exact h
      · refine .ite (fun _ => marked.sendNode _ _ _ _ _ _ _) fun _ => ?_
        split
        · exact h
        · split
          · refine .nodeSpill ?_ _ _
            exact h.update mem ⟨rfl, rfl, rfl⟩
          · refine ih ?_ _ _ _
            refine .colFlags ?_ _ _
            exact h.update mem ⟨rfl, rfl, rfl⟩

theorem State.shows.nodeArrive (h : s.shows f i c n) (a b shard lo hi : Nat) (v : List Nat) :
    (s.nodeArrive a b shard lo hi v).shows f i c n := by
  unfold State.nodeArrive
  split
  · exact h
  · split
    · exact h
    · exact .ite (fun _ => h.wr _ _ _ _ (by decide)) fun _ => .ite (fun _ => h.wr _ _ _ _ (by decide))
        fun _ => h.nodeStep _ _ _ _ _ _ _ _

theorem State.shows.dispatch6 (h : s.shows f i c n) (x : Job) (p : Plan) : (s.dispatch6 x p).shows f i c n := by
  unfold State.dispatch6
  extract_lets d r a own s1 pl res s2 mine marked left s3 entry s4 rb rl g slots full s5 bits s6
  have h1 : s1.shows f i c n := .ite (fun _ => h.wr _ _ _ _ (by decide)) fun _ => h
  have h2 : s2.shows f i c n :=
    h1.of_moves (as := []) (State.placement_moves _ _ _ (List.Subset.refl _) (Moves.refl _)) (by decide) (by decide)
  have h3 : s3.shows f i c n :=
    ((h2.wr .colMoeCountsOverflowed _ _ _ (by decide)).wr .colMoeCountsRerouted _ _ _ (by decide)).wr
      .colMoeCountsDropped _ _ _ (by decide)
  have h4 : s4.shows f i c n := h3.putLines _ _ _
  have h5 : s5.shows f i c n := h4.each _ _ fun w e hw => .ite (fun _ => hw) fun _ => hw.putLines _ _ _
  have h6 : s6.shows f i c n := .ite (fun _ => h5) fun _ => h5.putLines _ _ _
  exact h6.each _ _ fun w e hw => hw.sendLines _ _ _ _ _ _

theorem State.shows.combineHost (h : s.shows f i c n) (x : Job) (p : Plan) : (s.combineHost x p).shows f i c n := by
  refine State.shows.each _ _ (fun w e hw => ?_) (h.each _ _ fun w e hw => hw.sendLines _ _ _ _ _ _)
  dsimp only
  split
  · exact hw
  · exact hw.sendLines _ _ _ _ _ _

/-- What a collective job does when it begins leaves jobs RUNNING and the engine's job field as it was. -/
theorem State.shows.colBegin (h : s.shows f i c n) (hx : x.forme = f → x.idx = i → x.status = .running) :
    (s.colBegin x).shows f i c n := by
  unfold State.colBegin
  split
  · exact h
  next p _ =>
    have begun := h.setJob (x := { x with awaits := s.awaited x p }) hx
    refine .ite (fun _ => begun.each _ _ fun w q hw => ?_) fun _ => .ite (fun _ => begun.each _ _ fun w q hw =>
      hw.sendLines _ _ _ _ _ _) fun _ => .ite (fun _ => begun.each _ _ fun w q hw => hw.sendLines _ _ _ _ _ _) fun _ =>
      .ite (fun _ => begun.dispatch6 _ _) fun _ => begun.combineHost _ _
    dsimp only
    split
    · exact hw
    · refine .ite (fun _ => ?_) fun _ => hw.sendNode _ _ _ _ _ _ _
      split
      · exact (hw.ensureJob _ _).nodeArrive _ _ _ _ _ _
      · exact hw

end

section
variable {s t : State} {f i c n : Nat} {x y : Job} {col : Bool}

/-! ### Rooms of an engine, and who waits for it (R170, R171) -/

theorem State.startCycle_congr (hr : ∀ a b, t.rd .hFormeRelCycle a b = s.rd .hFormeRelCycle a b) (x : Job) :
    t.startCycle x = s.startCycle x := by rw [State.startCycle, hr, State.startCycle]

theorem State.engineFull_congr (hj : t.jobs = s.jobs) (c : Nat) (col : Bool) : t.engineFull c col = s.engineFull c col := by
  rw [State.engineFull, State.running, hj]
  rfl

theorem State.nextWaiting_congr (hj : t.jobs.filter (fun j => j.chase = c && j.col = col && j.status = .waiting) =
      s.jobs.filter fun j => j.chase = c && j.col = col && j.status = .waiting)
    (hr : ∀ a b, t.rd .hFormeRelCycle a b = s.rd .hFormeRelCycle a b) : t.nextWaiting c col = s.nextWaiting c col := by
  have order : t.goesFirst = s.goesFirst := by
    funext a b
    simp only [State.goesFirst, State.startCycle_congr hr]
  simp only [State.nextWaiting, hj, order]

/-- The job that begins next is one of the engine's that waits. -/
theorem State.nextWaiting_mem (h : s.nextWaiting c col = some x) :
    x ∈ s.jobs ∧ x.chase = c ∧ x.col = col ∧ x.status = .waiting := by
  obtain ⟨mem, is⟩ := List.mem_filter.mp (List.mem_of_find?_eq_some h)
  simp only [Bool.and_eq_true, decide_eq_true_eq] at is
  exact ⟨mem, is.1.1, is.1.2, is.2⟩

/-- A compositor with a job that runs is full (R171). -/
theorem State.engineFull_of_running (h : x ∈ s.jobs) (hc : x.col = false) (hs : x.status = .running) :
    s.engineFull x.chase false = true := by
  have mem : x ∈ s.jobs.filter fun j => j.chase = x.chase && j.col = false && j.status = .running :=
    List.mem_filter.mpr ⟨h, by simp [hc, hs]⟩
  have some : 1 ≤ s.running x.chase false := List.length_pos_of_mem mem
  simpa [State.engineFull] using some

theorem State.beginWaiting_stop (h : s.engineFull c col = true ∨ s.nextWaiting c col = none) (k : Nat) :
    s.beginWaiting c col k = s := by
  cases k with
  | zero => rfl
  | succ k =>
    rw [State.beginWaiting]
    split
    · rfl
    next room => rw [h.resolve_left room]

theorem State.beginWaiting_begins (room : s.engineFull c col = false) (h : s.nextWaiting c col = some y) (k : Nat) :
    s.beginWaiting c col (k + 1) = (s.beginJob y.forme y.idx).beginWaiting c col k := by
  rw [State.beginWaiting, room, h]
  rfl

/-! ### A job begins (R170, R173) -/

theorem State.jobFields_changes (s : State) (c : Nat) :
    changes [.cmpStatusBusy, .colStatusBusy, .colStatusActive] [] s (s.jobFields c) :=
  (((changes.refl s).wr _ _ _ _ (by decide)).wr _ _ _ _ (by decide)).wr _ _ _ _ (by decide)

theorem State.slotsBefore_changes (s : State) (f c n : Nat) :
    changes [] [.mem, .presses, .drains, .dirtyOut] s (s.slotsBefore f c n) :=
  changes_of_moves (State.slotsBefore_moves s f c n (List.Subset.refl _) (Moves.refl s))

/-- Where every transfer has moved its lines, no slot is taken. -/
theorem State.slotsBefore_moved (h : ∀ d ∈ s.drains, d.moved = true) (f c n : Nat) : s.slotsBefore f c n = s := by
  have none : s.nextXfer f c = none := State.nextXfer_none (List.filter_eq_nil_iff.mpr fun d hd => by
    simp [SlotXfer.underWay, h d hd])
  unfold State.slotsBefore
  cases (s.drains.map SlotXfer.slots).sum with
  | zero => rfl
  | succ k => rw [State.runSlots, none]

/-- The state in which a job has taken its engine and has done nothing yet. -/
def State.engaged (s : State) (f : Nat) (x : Job) : State :=
  ((s.slotsBefore f x.chase (s.jobWindow x)).setJob { x with status := .running }).jobFields x.chase

theorem State.beginJob_eq (h : s.job f i = some x) : s.beginJob f i =
    if x.col then ((s.engaged f x).wr .colStatusJob x.chase 0 i).colBegin { x with status := .running }
    else (s.engaged f x).wr .cmpStatusJob x.chase 0 i := by
  rw [State.beginJob, h]
  rfl

theorem State.engaged_jobs (s : State) (f : Nat) (x : Job) :
    (s.engaged f x).jobs = (s.setJob { x with status := .running }).jobs :=
  State.setJob_congr (t := s.slotsBefore f x.chase (s.jobWindow x)) ((s.slotsBefore_changes _ _ _).2 .jobs (by decide)) _

theorem State.engaged_changes (s : State) (f : Nat) (x : Job) :
    changes [.cmpStatusBusy, .colStatusBusy, .colStatusActive] [.jobs, .mem, .presses, .drains, .dirtyOut] s
      (s.engaged f x) := by
  have slots := (s.slotsBefore_changes f x.chase (s.jobWindow x)).mono
    (List.nil_subset [.cmpStatusBusy, .colStatusBusy, .colStatusActive]) (List.subset_cons_self .jobs _)
  refine (slots.trans (u := (s.slotsBefore f x.chase (s.jobWindow x)).setJob { x with status := .running }) ?_).trans
    ((State.jobFields_changes _ _).mono (List.Subset.refl _) (List.nil_subset _))
  exact (changes.refl _).parts rfl fun q hq => by cases q <;> first | rfl | exact absurd (by decide) hq

/-- The job that takes its engine is RUNNING. -/
theorem State.engaged_shows (h : s.job f i = some x) (n : Nat) :
    ((s.engaged f x).wr .colStatusJob x.chase 0 n).shows f i x.chase (n % 2 ^ 16) := by
  obtain ⟨rfl, rfl⟩ := State.key_of_job h
  have jobs := s.engaged_jobs x.forme x
  refine ⟨⟨{ x with status := .running }, ?_, rfl, rfl⟩, fun j hj jf ji => ?_, State.rd_wr_same ..⟩
  · rw [State.wr_jobs, jobs]
    exact State.mem_setJob (x := { x with status := .running }) h
  · rw [State.wr_jobs, jobs] at hj
    obtain ⟨z, -, rfl⟩ := List.mem_map.mp hj
    by_cases place : (decide (z.forme = x.forme) && decide (z.idx = x.idx)) = true
    · rw [if_pos place]
    · rw [if_neg place] at jf ji
      exact absurd (by simp [jf, ji]) place

/-- A job that begins is RUNNING, and shows in its engine's job field (R170, R188). -/
theorem State.beginJob_running (h : s.job f i = some x) : ((s.beginJob f i).job f i).map Job.status = some .running ∧
    (s.beginJob f i).rd (if x.col then .colStatusJob else .cmpStatusJob) x.chase 0 = i % 2 ^ 16 := by
  rw [State.beginJob_eq h]
  have engaged := State.engaged_shows h i
  by_cases hc : x.col = true
  · have begun := engaged.colBegin (x := { x with status := .running }) fun _ _ => rfl
    simp only [if_pos hc]
    exact ⟨begun.job, begun.field⟩
  · simp only [if_neg hc]
    exact ⟨engaged.job, State.rd_wr_same ..⟩

/-- A compositor job that begins does nothing else yet (R170, R171). -/
theorem State.beginJob_compositor (h : s.job f i = some x) (hc : x.col = false) :
    (s.beginJob f i).jobs = (s.setJob { x with status := .running }).jobs ∧
    (s.beginJob f i).mem = (s.slotsBefore f x.chase (s.jobWindow x)).mem ∧
    (s.beginJob f i).rd .cmpStatusJob x.chase 0 = i % 2 ^ 16 ∧ (s.beginJob f i).rd .cmpStatusBusy x.chase 0 = 1 ∧
    (s.beginJob f i).engineFull x.chase false = true ∧
    changes [.cmpStatusJob, .cmpStatusBusy, .colStatusBusy, .colStatusActive]
      [.jobs, .mem, .presses, .drains, .dirtyOut] s (s.beginJob f i) := by
  obtain ⟨rfl, rfl⟩ := State.key_of_job h
  have begun : s.beginJob x.forme x.idx = (s.engaged x.forme x).wr .cmpStatusJob x.chase 0 x.idx := by
    rw [State.beginJob_eq h, hc]
    rfl
  have jobs := s.engaged_jobs x.forme x
  have mem : { x with status := .running } ∈ (s.engaged x.forme x).jobs := by
    rw [jobs]
    exact State.mem_setJob (x := { x with status := .running }) h
  have full : (s.engaged x.forme x).engineFull x.chase false = true :=
    State.engineFull_of_running (x := { x with status := .running }) mem hc rfl
  have busy : (s.engaged x.forme x).rd .cmpStatusBusy x.chase 0 = 1 := by
    have some : (s.engaged x.forme x).running x.chase false ≠ 0 := by
      have one : 1 ≤ (s.engaged x.forme x).running x.chase false := by simpa [State.engineFull] using full
      exact Nat.ne_of_gt one
    have run : (((s.slotsBefore x.forme x.chase (s.jobWindow x)).setJob { x with status := .running }).jobs.filter
        fun j => j.chase = x.chase && j.col = false && j.status = .running).length ≠ 0 := some
    unfold State.engaged State.jobFields
    simp (disch := decide) only [State.rd_wr_ne, State.rd_wr_same]
    rw [bne_iff_ne.mpr run]
    rfl
  rw [begun]
  exact ⟨jobs, rfl, State.rd_wr_same .., (State.rd_wr_ne _ _ _ _ _ _ _ _ (by decide)).trans busy, full,
    ((s.engaged_changes x.forme x).mono (List.subset_cons_self ..) (List.Subset.refl _)).wr _ _ _ _ (by decide)⟩

theorem State.shows.refield (h : s.shows f i c n) (hj : t.jobs = s.jobs) : t.shows f i c (t.rd .colStatusJob c 0) :=
  ⟨hj ▸ h.there, hj ▸ h.runs, rfl⟩

/-- A job that begins leaves another's state as it is where that one runs. -/
theorem State.shows.beginJob (h : s.shows f i c n) (a b : Nat) : ∃ m, (s.beginJob a b).shows f i c m := by
  cases hx : s.job a b with
  | none => exact ⟨n, by rwa [State.beginJob, hx]⟩
  | some x =>
    rw [State.beginJob_eq hx]
    have taken : (s.setJob { x with status := .running }).shows f i c n := h.setJob fun _ _ => rfl
    split
    · have shown := taken.refield (t := (s.engaged a x).wr .colStatusJob x.chase 0 b) (s.engaged_jobs a x)
      exact ⟨_, shown.colBegin fun _ _ => rfl⟩
    · exact ⟨_, taken.refield (s.engaged_jobs a x)⟩

theorem State.shows.beginWaiting (h : s.shows f i c n) (a : Nat) (col : Bool) (k : Nat) :
    ∃ m, (s.beginWaiting a col k).shows f i c m := by
  induction k generalizing s n with
  | zero => exact ⟨n, h⟩
  | succ k ih =>
    rw [State.beginWaiting]
    split
    · exact ⟨n, h⟩
    · split
      · exact ⟨n, h⟩
      next y _ =>
        obtain ⟨m, begun⟩ := h.beginJob y.forme y.idx
        exact ih begun

end

section
variable {s t : State} {f i c n u : Nat} {x y : Job} {col : Bool}

/-! ### A job that is due (R170, R171) -/

/-- A job whose engine is full waits, late. -/
def State.madeLate (s : State) (f : Nat) (x : Job) : State :=
  ((s.wr (if x.col then .colStatusLate else .cmpStatusLate) x.chase 0 1).wr .hFormeLateStep 0 f 1).setJob
    { x with status := .waiting }

theorem State.startJob_idle (h : s.job f i = some x) (idle : x.status = .idle)
    (first : s.nextWaiting x.chase x.col = none) :
    s.startJob f i = if s.engineFull x.chase x.col then s.madeLate f x else s.beginJob f i := by
  rw [State.startJob]
  simp only [State.ensureJob_of_job h, h, idle, bne_self_eq_false, Bool.false_eq_true, if_false,
    State.beginWaiting_stop (.inr first)]
  rfl

theorem State.startJob_known (h : s.job f i = some x) (known : x.status ≠ .idle) : s.startJob f i = s := by
  rw [State.startJob]
  simp only [State.ensureJob_of_job h, h, bne_iff_ne, ne_eq, known, not_false_iff, if_true]

theorem State.madeLate_spec (s : State) (f : Nat) (x : Job) :
    (s.madeLate f x).jobs = (s.setJob { x with status := .waiting }).jobs ∧
    (s.madeLate f x).rd (if x.col then .colStatusLate else .cmpStatusLate) x.chase 0 = 1 ∧
    (s.madeLate f x).rd .hFormeLateStep 0 f = 1 ∧
    changes [.colStatusLate, .cmpStatusLate, .hFormeLateStep] [.jobs] s (s.madeLate f x) := by
  have late : changes [.colStatusLate, .cmpStatusLate, .hFormeLateStep] [.jobs] s
      ((s.wr (if x.col then .colStatusLate else .cmpStatusLate) x.chase 0 1).wr .hFormeLateStep 0 f 1) :=
    ((changes.refl s).wr _ _ _ _ (by split <;> decide)).wr _ _ _ _ (by decide)
  have step : (s.madeLate f x).rd .hFormeLateStep 0 f =
      ((s.wr (if x.col then .colStatusLate else .cmpStatusLate) x.chase 0 1).wr .hFormeLateStep 0 f 1).rd
        .hFormeLateStep 0 f := rfl
  refine ⟨rfl, ?_, step.trans (State.rd_wr_same ..), late.parts rfl fun q hq => by
    cases q <;> first | rfl | exact absurd (by decide) hq⟩
  have engine : (s.madeLate f x).rd (if x.col then .colStatusLate else .cmpStatusLate) x.chase 0 =
      ((s.wr (if x.col then .colStatusLate else .cmpStatusLate) x.chase 0 1).wr .hFormeLateStep 0 f 1).rd
        (if x.col then .colStatusLate else .cmpStatusLate) x.chase 0 := rfl
  rw [engine, State.rd_wr_ne _ _ _ _ _ _ _ _ (by split <;> decide), State.rd_wr_same]
  split <;> rfl

theorem startJob_spec (h : s.job f i = some x) (idle : x.status = .idle)
    (first : s.nextWaiting x.chase x.col = none) :
    let t := s.startJob f i
    (s.engineFull x.chase x.col = true →
      t.jobs = (s.setJob { x with status := .waiting }).jobs ∧
      t.rd (if x.col then .colStatusLate else .cmpStatusLate) x.chase 0 = 1 ∧ t.rd .hFormeLateStep 0 f = 1 ∧
      changes [.colStatusLate, .cmpStatusLate, .hFormeLateStep] [.jobs] s t) ∧
    (s.engineFull x.chase x.col = false → (t.job f i).map Job.status = some .running ∧
      t.rd (if x.col then .colStatusJob else .cmpStatusJob) x.chase 0 = i % 2 ^ 16 ∧
      (x.col = false → t.jobs = (s.setJob { x with status := .running }).jobs ∧
        t.mem = (s.slotsBefore f x.chase (s.jobWindow x)).mem)) := by
  dsimp only
  rw [State.startJob_idle h idle first]
  refine ⟨fun full => ?_, fun room => ?_⟩
  · rw [if_pos full]
    exact s.madeLate_spec f x
  · rw [room, if_neg Bool.false_ne_true]
    obtain ⟨running, field⟩ := State.beginJob_running h
    refine ⟨running, field, fun hc => ?_⟩
    obtain ⟨jobs, mem, -⟩ := State.beginJob_compositor h hc
    exact ⟨jobs, mem⟩

/-! ### The first window of a job (R170, R173) -/

theorem minList_le {l : List Nat} {a : Nat} (h : a ∈ l) : minList l ≤ a := by
  induction l using minList.induct with
  | case1 => exact absurd h List.not_mem_nil
  | case2 b => exact Nat.le_of_eq (List.mem_singleton.mp h).symm
  | case3 b d l ih =>
    rcases List.mem_cons.mp h with rfl | h
    · exact Nat.min_le_left ..
    · exact Nat.le_trans (Nat.min_le_right ..) (ih h)

theorem State.jobWindow_spec (s : State) (x : Job) : s.startCycle x ≤ s.jobWindow x ∧
    ∀ r ∈ s.jobResvs x, s.jobWindow x ≤ s.rd .hFormeRelCycle x.chase x.forme + max (jStart x.desc) r.start := by
  refine ⟨Nat.add_le_add_left (Nat.le_max_left ..) _, fun r hr => Nat.add_le_add_left ?_ _⟩
  have mem : r.start ∈ (s.jobResvs x).map Resv.start := List.mem_map_of_mem hr
  have some : ((s.jobResvs x).map Resv.start).isEmpty = false := by
    rw [List.isEmpty_eq_false_iff]
    exact List.ne_nil_of_mem mem
  rw [some]
  exact max_le_max_left _ (minList_le mem)

/-! ### The jobs that are due, in their order (R170) -/

/-- Entry a of the job table begins before entry b: the earlier start, then the lower index (R170). -/
def startsFirst (a b : Nat × Nat) : Prop := jStart a.2 < jStart b.2 ∨ (jStart a.2 = jStart b.2 ∧ a.1 < b.1)

theorem mem_insertDue (e a : Nat × Nat) (l : List (Nat × Nat)) : a ∈ insertDue e l ↔ a = e ∨ a ∈ l := by
  induction l with
  | nil => simp [insertDue]
  | cons b l ih =>
    rw [insertDue]
    split
    · rw [List.mem_cons, ih, List.mem_cons]
      tauto
    · rw [List.mem_cons]

/-- An entry of a higher index than all is put behind those that start no later. -/
theorem pairwise_insertDue {e : Nat × Nat} {l : List (Nat × Nat)} (hl : l.Pairwise startsFirst)
    (he : ∀ a ∈ l, a.1 < e.1) : (insertDue e l).Pairwise startsFirst := by
  induction l with
  | nil => simp [insertDue]
  | cons b l ih =>
    obtain ⟨hb, hl'⟩ := List.pairwise_cons.mp hl
    rw [insertDue]
    split
    next no =>
      refine List.pairwise_cons.mpr ⟨fun a ha => ?_, ih hl' fun a ha => he a (List.mem_cons_of_mem _ ha)⟩
      rcases (mem_insertDue e a l).mp ha with rfl | ha
      · have := he b (List.mem_cons_self ..)
        unfold startsFirst
        omega
      · exact hb a ha
    next later =>
      refine List.pairwise_cons.mpr ⟨fun a ha => .inl ?_, hl⟩
      rcases List.mem_cons.mp ha with rfl | ha
      · omega
      · have := hb a ha
        unfold startsFirst at this
        omega

theorem mem_foldl_insertDue (l k : List (Nat × Nat)) (a : Nat × Nat) :
    a ∈ l.foldl (fun l e => insertDue e l) k ↔ a ∈ l ∨ a ∈ k := by
  induction l generalizing k with
  | nil => simp
  | cons b l ih =>
    rw [List.foldl_cons, ih, mem_insertDue, List.mem_cons]
    tauto

theorem pairwise_foldl_insertDue {l k : List (Nat × Nat)} (hl : l.Pairwise fun a b => a.1 < b.1)
    (hk : k.Pairwise startsFirst) (before : ∀ a ∈ k, ∀ b ∈ l, a.1 < b.1) :
    (l.foldl (fun l e => insertDue e l) k).Pairwise startsFirst := by
  induction l generalizing k with
  | nil => exact hk
  | cons b l ih =>
    obtain ⟨hb, hl'⟩ := List.pairwise_cons.mp hl
    refine ih hl' (pairwise_insertDue hk fun a ha => before a ha b (List.mem_cons_self ..)) fun a ha e he => ?_
    rcases (mem_insertDue b a k).mp ha with rfl | ha
    · exact hb e he
    · exact before a ha e (List.mem_cons_of_mem _ he)

/-- The job table stands in the order of its indices. -/
theorem State.stepJobs_pairwise (s : State) (f : Nat) : (s.stepJobs f).Pairwise fun a b => a.1 < b.1 := by
  unfold State.stepJobs
  split
  next v e _ _ =>
    refine List.pairwise_filterMap.mpr (List.pairwise_lt_range.imp fun {a b} lt x hx y hy => ?_)
    obtain ⟨d, -, rfl⟩ := Option.map_eq_some_iff.mp hx
    obtain ⟨e, -, rfl⟩ := Option.map_eq_some_iff.mp hy
    exact lt
  next => exact List.Pairwise.nil

theorem State.stepJobs_unique {d e : Nat × Nat} (hd : d ∈ s.stepJobs f) (he : e ∈ s.stepJobs f) (h : d.1 = e.1) :
    d = e := by
  unfold State.stepJobs at hd he
  split at hd
  next v k hv hk =>
    rw [hv, hk] at he
    obtain ⟨i, -, hi⟩ := List.mem_filterMap.mp hd
    obtain ⟨j, -, hj⟩ := List.mem_filterMap.mp he
    obtain ⟨a, ha, rfl⟩ := Option.map_eq_some_iff.mp hi
    obtain ⟨b, hb, rfl⟩ := Option.map_eq_some_iff.mp hj
    obtain rfl : i = j := h
    rw [Option.some.inj (ha.symm.trans hb)]
  next => exact absurd hd List.not_mem_nil

/-- An entry of the job table that is due with job x on its engine (R170). -/
def isDue (x : Job) (e : Nat × Nat) : Bool :=
  jChase e.2 = x.chase && jCol e.2 = x.col &&
    (jStart e.2 < jStart x.desc || (jStart e.2 = jStart x.desc && e.1 ≤ x.idx))

theorem State.dueJobs_eq (s : State) (f : Nat) (x : Job) :
    s.dueJobs f x = (((s.stepJobs f).filter (isDue x)).foldl (fun l e => insertDue e l) []).map Prod.fst := rfl

theorem State.mem_dueJobs (s : State) (f : Nat) (x : Job) (i : Nat) :
    i ∈ s.dueJobs f x ↔ ∃ d, (i, d) ∈ s.stepJobs f ∧ jChase d = x.chase ∧ jCol d = x.col ∧
      (jStart d < jStart x.desc ∨ (jStart d = jStart x.desc ∧ i ≤ x.idx)) := by
  rw [State.dueJobs_eq]
  simp [mem_foldl_insertDue, isDue, and_assoc]

theorem State.dueJobs_pairwise (s : State) (f : Nat) (x : Job) :
    (s.dueJobs f x).Pairwise fun i j => ∀ d ∈ s.stepJobs f, ∀ e ∈ s.stepJobs f, d.1 = i → e.1 = j →
      jStart d.2 < jStart e.2 ∨ (jStart d.2 = jStart e.2 ∧ i < j) := by
  have sorted : (((s.stepJobs f).filter (isDue x)).foldl (fun l e => insertDue e l) []).Pairwise startsFirst :=
    pairwise_foldl_insertDue ((s.stepJobs_pairwise f).filter _) List.Pairwise.nil fun a ha => absurd ha List.not_mem_nil
  have entry {a : Nat × Nat} (ha : a ∈ ((s.stepJobs f).filter (isDue x)).foldl (fun l e => insertDue e l) []) :
      a ∈ s.stepJobs f := by
    rcases (mem_foldl_insertDue _ _ a).mp ha with ha | ha
    · exact (List.mem_filter.mp ha).1
    · exact absurd ha List.not_mem_nil
  rw [State.dueJobs_eq, List.pairwise_map]
  refine sorted.imp_of_mem fun {a b} ha hb first d hd e he hda heb => ?_
  obtain rfl := State.stepJobs_unique hd (entry ha) hda
  obtain rfl := State.stepJobs_unique he (entry hb) heb
  exact first

end

section
variable {s t w : State} {f i c n u job : Nat} {x y : Job} {col : Bool}

/-! ### JOB_START (R170, R171) -/

theorem State.stepJobs_of_time (h : changes timeFields [.jobs] s t) (f : Nat) : t.stepJobs f = s.stepJobs f := by
  have active : t.active = s.active := h.2 .active (by decide)
  have forme : t.forme f = s.forme f := by rw [State.forme, active]; rfl
  simp (disch := decide) only [State.stepJobs, State.curStep, State.variant, forme, h.1]

theorem State.dueJobs_of_time (h : changes timeFields [.jobs] s t) (f : Nat) (x : Job) : t.dueJobs f x = s.dueJobs f x := by
  rw [State.dueJobs, State.stepJobs_of_time h]
  rfl

theorem State.jobDesc_of_time (h : changes timeFields [.jobs] s t) (f i : Nat) : t.jobDesc f i = s.jobDesc f i := by
  have active : t.active = s.active := h.2 .active (by decide)
  have forme : t.forme f = s.forme f := by rw [State.forme, active]; rfl
  simp (disch := decide) only [State.jobDesc, State.curStep, State.variant, forme, h.1]

theorem State.stamp_time (s : State) (u : Nat) : changes timeFields [] s (s.stamp u) :=
  (changes.refl s).stamp u (List.Subset.refl _)

theorem State.ensureJob_changes (s : State) (f i : Nat) : changes [] [.jobs] s (s.ensureJob f i) :=
  changes_of_moves (State.ensureJob_moves s f i (List.Subset.refl _) (Moves.refl s))

theorem State.known_time (s : State) (u f i : Nat) : changes timeFields [.jobs] s ((s.stamp u).ensureJob f i) :=
  ((s.stamp_time u).mono (List.Subset.refl _) (List.nil_subset _)).trans
    ((State.ensureJob_changes _ f i).mono (List.nil_subset _) (List.Subset.refl _))

theorem jobStart_off (hf : f < 16) (off : s.on .hFormeStepRun 0 f = false) :
    ∃ t, Runs (.jobStart f job u) s t ∧ changes timeFields [] s t := by
  have still : (s.stamp u).on .hFormeStepRun 0 f = false := by
    rw [State.on, State.rd_stamp _ _ _ _ _ (by decide)]
    exact off
  refine ⟨s.stamp u, ?_, s.stamp_time u⟩
  show execJobStart f job u s = _
  rw [execJobStart, if_pos hf]
  dsimp only
  rw [still]
  rfl

theorem exec_jobStart (hf : f < 16) (on : s.on .hFormeStepRun 0 f = true) (hw : (s.stamp u).ensureJob f job = w)
    (hx : w.job f job = some x) : exec (.jobStart f job u) s = .next (
      if w.rd .galCycleCycle x.chase 0 < w.startCycle x then w
      else (w.each (w.dueJobs f x) fun w i => w.startJob f i).beginWaiting x.chase x.col 8) := by
  have still : (s.stamp u).on .hFormeStepRun 0 f = true := by
    rw [State.on, State.rd_stamp _ _ _ _ _ (by decide)]
    exact on
  show execJobStart f job u s = _
  rw [execJobStart, if_pos hf]
  dsimp only
  rw [still, if_pos rfl, hw, hx]
  dsimp only
  split <;> rfl

theorem jobStart_runs (hf : f < 16) (on : s.on .hFormeStepRun 0 f = true)
    (hx : ((s.stamp u).ensureJob f job).job f job = some x) :
    let w := (s.stamp u).ensureJob f job
    let now := w.rd .galCycleCycle x.chase 0
    (now < w.startCycle x → ∃ t, Runs (.jobStart f job u) s t ∧ t.jobs = w.jobs ∧ changes timeFields [.jobs] s t) ∧
    (w.startCycle x ≤ now → ∃ t, Runs (.jobStart f job u) s t ∧
      t = (w.each (w.dueJobs f x) fun w i => w.startJob f i).beginWaiting x.chase x.col 8 ∧
      touches [.tick, .forme, .cmp, .col] [.mem, .presses, .jobs, .drains, .dirtyOut, .links, .relays, .moe,
        .freeCount] s t) := by
  have run := exec_jobStart hf on rfl hx
  refine ⟨fun early => ?_, fun due => ?_⟩
  · rw [if_pos early] at run
    exact ⟨_, run, rfl, s.known_time u f job⟩
  · rw [if_neg (Nat.not_lt.mpr due)] at run
    exact ⟨_, run, rfl, (execJobStart_moves f job u s (List.Subset.refl _) (List.Subset.refl _) (Moves.refl s) _ run).1⟩

/-- The jobs that the engines know once an event has named one of which none knew. -/
theorem State.ensureJob_fresh {d : Nat} (none : s.job f job = none) (hd : s.jobDesc f job = some d) :
    ((s.stamp u).ensureJob f job).jobs = s.jobs ++ [Job.fresh f job d] ∧
    ((s.stamp u).ensureJob f job).job f job = some (Job.fresh f job d) := by
  have time := (s.stamp_time u).mono (List.Subset.refl _) (List.nil_subset [.jobs])
  have known := State.ensureJob_of_none ((State.job_congr (State.stamp_jobs s u) f job).trans none)
    ((State.jobDesc_of_time time f job).trans hd)
  have jobs : ((s.stamp u).ensureJob f job).jobs = s.jobs ++ [Job.fresh f job d] := by rw [known, State.stamp_jobs]
  have before : s.jobs.find? (fun j => j.forme = f && j.idx = job) = .none := none
  refine ⟨jobs, ?_⟩
  rw [State.job, jobs, List.find?_append, before]
  simp [Job.fresh]

/-- A job put in the place of the last, which alone has its key. -/
theorem setJob_append (hj : w.jobs = s.jobs ++ [y]) (none : s.job x.forme x.idx = none)
    (hy : y.forme = x.forme ∧ y.idx = x.idx) : (w.setJob x).jobs = s.jobs ++ [x] := by
  have others : s.jobs.map (fun j => if j.forme = x.forme && j.idx = x.idx then x else j) = s.jobs := by
    conv_rhs => rw [← List.map_id s.jobs]
    exact List.map_congr_left fun j hj => if_neg (List.find?_eq_none.mp none j hj)
  rw [State.setJob, hj, List.map_append, others]
  simp [hy.1, hy.2]

/-- A job that does not run takes no room. -/
theorem engineFull_append (hj : w.jobs = s.jobs ++ [y]) (idle : y.status ≠ .running) (c : Nat) (col : Bool) :
    w.engineFull c col = s.engineFull c col := by
  have running : w.running c col = s.running c col := by
    simp [State.running, hj, List.filter_append, idle]
  rw [State.engineFull, running]
  rfl

theorem nextWaiting_append (hj : w.jobs = s.jobs ++ [y]) (idle : y.status ≠ .waiting)
    (hr : ∀ a b, w.rd .hFormeRelCycle a b = s.rd .hFormeRelCycle a b) : w.nextWaiting c col = s.nextWaiting c col :=
  State.nextWaiting_congr (by simp [hj, List.filter_append, idle]) hr

section
variable {d : Nat} (hf : f < 16) (on : s.on .hFormeStepRun 0 f = true) (none : s.job f job = none)
  (hd : s.jobDesc f job = some d)
  (due : s.startCycle (Job.fresh f job d) ≤ (s.stamp u).rd .galCycleCycle (jChase d) 0)
  (alone : s.dueJobs f (Job.fresh f job d) = [job]) (first : s.nextWaiting (jChase d) (jCol d) = .none)

include hf on none hd due alone first

theorem exec_jobStart_fresh (hw : (s.stamp u).ensureJob f job = w) : exec (.jobStart f job u) s = .next (
    (if s.engineFull (jChase d) (jCol d) then w.madeLate f (Job.fresh f job d) else w.beginJob f job).beginWaiting
      (jChase d) (jCol d) 8) := by
  have time : changes timeFields [.jobs] s w := hw ▸ s.known_time u f job
  obtain ⟨jobs, found⟩ : w.jobs = s.jobs ++ [Job.fresh f job d] ∧ w.job f job = some (Job.fresh f job d) :=
    hw ▸ State.ensureJob_fresh none hd
  have rel (a b : Nat) : w.rd .hFormeRelCycle a b = s.rd .hFormeRelCycle a b := time.1 _ _ _ (by decide)
  have waits : w.nextWaiting (jChase d) (jCol d) = .none := (nextWaiting_append jobs nofun rel).trans first
  have clock : w.rd .galCycleCycle (jChase d) 0 = (s.stamp u).rd .galCycleCycle (jChase d) 0 :=
    hw ▸ (State.ensureJob_changes _ f job).1 _ _ _ List.not_mem_nil
  have now : ¬w.rd .galCycleCycle (Job.fresh f job d).chase 0 < w.startCycle (Job.fresh f job d) := by
    rw [State.startCycle_congr rel]
    exact Nat.not_lt.mpr (clock ▸ due)
  rw [exec_jobStart hf on hw found, if_neg now, State.dueJobs_of_time time, alone, State.each_cons, State.each_nil,
    State.startJob_idle found rfl waits, engineFull_append jobs nofun]
  rfl

theorem jobStart_fresh :
    let x := Job.fresh f job d
    (jCol d = false → s.engineFull (jChase d) false = false → ∃ t, Runs (.jobStart f job u) s t ∧
      t.jobs = s.jobs ++ [{ x with status := .running }] ∧
      t.rd .cmpStatusJob (jChase d) 0 = job % 2 ^ 16 ∧ t.rd .cmpStatusBusy (jChase d) 0 = 1 ∧
      ((∀ d ∈ s.drains, d.moved = true) → t.mem = s.mem) ∧
      changes (.cmpStatusJob :: .cmpStatusBusy :: .colStatusBusy :: .colStatusActive :: timeFields)
        [.jobs, .mem, .presses, .drains, .dirtyOut] s t) ∧
    (s.engineFull (jChase d) (jCol d) = true → ∃ t, Runs (.jobStart f job u) s t ∧
      t.jobs = s.jobs ++ [{ x with status := .waiting }] ∧
      t.rd (if jCol d then .colStatusLate else .cmpStatusLate) (jChase d) 0 = 1 ∧
      t.rd .hFormeLateStep 0 f = 1 ∧
      changes (.colStatusLate :: .cmpStatusLate :: .hFormeLateStep :: timeFields) [.jobs] s t) := by
  intro x
  obtain ⟨w, hw⟩ : ∃ w, (s.stamp u).ensureJob f job = w := ⟨_, rfl⟩
  have run := exec_jobStart_fresh hf on none hd due alone first hw
  have time : changes timeFields [.jobs] s w := hw ▸ s.known_time u f job
  obtain ⟨known, found⟩ : w.jobs = s.jobs ++ [x] ∧ w.job f job = some x := hw ▸ State.ensureJob_fresh none hd
  refine ⟨fun hc room => ?_, fun full => ?_⟩
  · obtain ⟨jobs, mem, field, busy, taken, moved⟩ := State.beginJob_compositor found hc
    have stop : (w.beginJob f job).beginWaiting (jChase d) false 8 = w.beginJob f job :=
      State.beginWaiting_stop (.inl taken) 8
    rw [hc, room, if_neg Bool.false_ne_true, stop] at run
    refine ⟨_, run, jobs.trans (setJob_append known none ⟨rfl, rfl⟩), field, busy, fun all => ?_, ?_⟩
    · have drains : w.drains = s.drains := time.2 .drains (by decide)
      rw [mem, State.slotsBefore_moved (drains ▸ all)]
      exact time.2 .mem (by decide)
    · exact (time.mono (by decide) (by decide)).trans (moved.mono (by decide) (List.Subset.refl _))
  · obtain ⟨jobs, late, step, moved⟩ := w.madeLate_spec f x
    have last := jobs.trans (setJob_append known none ⟨rfl, rfl⟩)
    rw [if_pos full, State.beginWaiting_stop (.inl ((engineFull_append last nofun _ _).trans full))] at run
    exact ⟨_, run, last, late, step, (time.mono (by decide) (List.Subset.refl _)).trans
      (moved.mono (by decide) (List.Subset.refl _))⟩

end

theorem State.each_startJob_known {l : List Nat} (h : ∀ i ∈ l, ∃ y, s.job f i = some y ∧ y.status ≠ .idle) :
    (s.each l fun w i => w.startJob f i) = s := by
  induction l with
  | nil => rfl
  | cons i l ih =>
    obtain ⟨y, hy, known⟩ := h i (List.mem_cons_self ..)
    rw [State.each_cons, State.startJob_known hy known]
    exact ih fun j hj => h j (List.mem_cons_of_mem _ hj)

theorem jobStart_waiting (hf : f < 16) (on : s.on .hFormeStepRun 0 f = true) (hx : s.job f job = some x)
    (hc : x.col = false) (due : s.startCycle x ≤ (s.stamp u).rd .galCycleCycle x.chase 0)
    (known : ∀ i ∈ s.dueJobs f x, ∃ y, s.job f i = some y ∧ y.status ≠ .idle) :
    (s.engineFull x.chase false = false → s.nextWaiting x.chase false = some x →
      ∃ t, Runs (.jobStart f job u) s t ∧ t.jobs = (s.setJob { x with status := .running }).jobs ∧
        t.rd .cmpStatusJob x.chase 0 = job % 2 ^ 16) ∧
    (s.engineFull x.chase false = true → ∃ t, Runs (.jobStart f job u) s t ∧ changes timeFields [] s t) := by
  have time := (s.stamp_time u).mono (List.Subset.refl _) (List.nil_subset [.jobs])
  have job_stamp (i : Nat) : (s.stamp u).job f i = s.job f i := State.job_congr (State.stamp_jobs s u) f i
  have found : (s.stamp u).job f job = some x := (job_stamp job).trans hx
  have rel (a b : Nat) : (s.stamp u).rd .hFormeRelCycle a b = s.rd .hFormeRelCycle a b := time.1 _ _ _ (by decide)
  have full : (s.stamp u).engineFull x.chase false = s.engineFull x.chase false :=
    State.engineFull_congr (State.stamp_jobs s u) _ _
  have run := exec_jobStart hf on (State.ensureJob_of_job found) found
  rw [State.startCycle_congr rel, if_neg (Nat.not_lt.mpr due), State.dueJobs_of_time time,
    State.each_startJob_known fun i hi => (job_stamp i).symm ▸ known i hi, hc] at run
  refine ⟨fun room first => ?_, fun none => ?_⟩
  · have next : (s.stamp u).nextWaiting x.chase false = some x :=
      (State.nextWaiting_congr (by rw [State.stamp_jobs]) rel).trans first
    obtain ⟨forme, idx⟩ := State.key_of_job hx
    obtain ⟨jobs, -, field, -, taken, -⟩ := State.beginJob_compositor found hc
    rw [State.beginWaiting_begins (full.trans room) next, forme, idx, State.beginWaiting_stop (.inl taken)] at run
    exact ⟨_, run, jobs.trans (State.setJob_congr (State.stamp_jobs s u) _), field⟩
  · rw [State.beginWaiting_stop (.inl (full.trans none))] at run
    exact ⟨_, run, s.stamp_time u⟩

end

section
variable {s t w : State} {f i c n u eng : Nat} {x y : Job} {col : Bool}

/-! ### JOB_COMPLETE (R171, R172, R196) -/

theorem State.beginJob_shows (h : s.job f i = some x) : ∃ n, (s.beginJob f i).shows f i x.chase n := by
  have engaged := State.engaged_shows h i
  rw [State.beginJob_eq h]
  split
  · exact ⟨_, engaged.colBegin fun _ _ => rfl⟩
  · exact ⟨_, engaged.refield rfl⟩

/-- The state after a job has completed, before the next one begins. -/
def State.completed (s : State) (x : Job) (kind : Nat) : State :=
  (((if x.col && jKind x.desc = 6 then s.combineTokens x else s).setJob { x with status := .done }).jobFields
    x.chase).barrierArrive x.forme (jBarrier x.desc) kind x.chase

theorem exec_jobComplete (he : eng < 2) (hc : x.chase < 4) (u : Nat)
    (found : s.jobs.find? (fun j => j.chase = x.chase && j.col = (eng = 1) && j.idx = x.idx && j.status = .running) =
      some x) : exec (.jobComplete x.chase eng x.idx u) s = .next (
        if x.formed then ((s.stamp u).completed x (eng + 1)).beginWaiting x.chase (eng = 1) 8 else s.stamp u) := by
  show execJobComplete x.chase eng x.idx u s = _
  rw [execJobComplete, if_pos (by simp [hc, he])]
  dsimp only
  rw [State.stamp_jobs, found]
  dsimp only
  split <;> rfl

theorem State.completed_jobs (s : State) (x : Job) (kind : Nat) :
    (s.completed x kind).jobs = (s.setJob { x with status := .done }).jobs := by
  refine ((State.barrierArrive_changes _ _ _ _ _).2 .jobs (by decide)).trans
    (((State.jobFields_changes _ _).2 .jobs (by decide)).trans (State.setJob_congr ?_ _))
  split
  · exact (State.combineTokens_moves s x (List.Subset.refl _) (List.Subset.refl _) (Moves.refl s)).1.2 .jobs (by decide)
  · rfl

theorem State.completed_arrived (s : State) (x : Job) (kind : Nat) :
    (s.completed x kind).arrived x.forme (jBarrier x.desc) kind x.chase =
      s.arrived x.forme (jBarrier x.desc) kind x.chase + 1 := by
  have arrivals : (if x.col && jKind x.desc = 6 then s.combineTokens x else s).arrivals = s.arrivals := by
    split
    · exact (State.combineTokens_moves s x (List.Subset.refl _) (List.Subset.refl _) (Moves.refl s)).1.2 .arrivals
        (by decide)
    · rfl
  have before : State.arrived (((if x.col && jKind x.desc = 6 then s.combineTokens x else s).setJob
      { x with status := .done }).jobFields x.chase) x.forme (jBarrier x.desc) kind x.chase =
      s.arrived x.forme (jBarrier x.desc) kind x.chase := by
    rw [State.arrived, State.arrived, ← arrivals]
    rfl
  rw [State.completed, State.barrierArrive_arrived, before]

theorem State.completed_compositor (s : State) (kind : Nat) (hc : x.col = false) :
    changes [.cmpStatusBusy, .colStatusBusy, .colStatusActive] [.jobs, .arrivals, .barSent, .tokens, .links] s
      (s.completed x kind) := by
  have done : changes [.cmpStatusBusy, .colStatusBusy, .colStatusActive] [.jobs, .arrivals, .barSent, .tokens, .links] s
      (s.setJob { x with status := .done }) :=
    (changes.refl s).parts rfl fun q hq => by cases q <;> first | rfl | exact absurd (by decide) hq
  have plain : (if x.col && jKind x.desc = 6 then s.combineTokens x else s) = s := if_neg (by simp [hc])
  rw [State.completed, plain]
  exact (done.trans ((State.jobFields_changes _ _).mono (List.Subset.refl _) (List.nil_subset _))).trans
    ((State.barrierArrive_changes _ _ _ _ _).mono (List.nil_subset _) (by decide))

theorem State.completed_relCycle (s : State) (x : Job) (kind a b : Nat) :
    (s.completed x kind).rd .hFormeRelCycle a b = s.rd .hFormeRelCycle a b := by
  refine ((State.barrierArrive_changes _ _ _ _ _).1 _ _ _ List.not_mem_nil).trans
    (((State.jobFields_changes _ _).1 _ _ _ (by decide)).trans ?_)
  show State.rd (if x.col && jKind x.desc = 6 then s.combineTokens x else s) _ _ _ = _
  split
  · exact (State.combineTokens_moves s x (List.Subset.refl _) (List.Subset.refl _) (Moves.refl s)).1.1 _ _ _ (by decide)
  · rfl

theorem State.beginWaiting_arrivals (s : State) (c : Nat) (col : Bool) (k : Nat) :
    (s.beginWaiting c col k).arrivals = s.arrivals :=
  (State.beginWaiting_moves s c col k (List.Subset.refl _) (List.Subset.refl _) (Moves.refl s)).1.2 .arrivals (by decide)

section
variable (he : eng < 2) (hc : x.chase < 4)
  (found : s.jobs.find? (fun j => j.chase = x.chase && j.col = (eng = 1) && j.idx = x.idx && j.status = .running) =
    some x)

include he hc found

theorem jobComplete_unformed (u : Nat) (h : x.formed = false) :
    ∃ t, Runs (.jobComplete x.chase eng x.idx u) s t ∧ changes timeFields [] s t := by
  have run := exec_jobComplete he hc u found
  rw [h, if_neg Bool.false_ne_true] at run
  exact ⟨_, run, s.stamp_time u⟩

/-- What every completion comes to (R172). -/
theorem jobComplete_formed (u : Nat) (h : x.formed = true) :
    ∃ v t, Runs (.jobComplete x.chase eng x.idx u) s t ∧ t = v.beginWaiting x.chase (eng = 1) 8 ∧
      v.jobs = (s.setJob { x with status := .done }).jobs ∧
      (∀ a b, v.rd .hFormeRelCycle a b = s.rd .hFormeRelCycle a b) ∧
      t.arrived x.forme (jBarrier x.desc) (eng + 1) x.chase =
        s.arrived x.forme (jBarrier x.desc) (eng + 1) x.chase + 1 ∧
      (x.col = false → changes (.cmpStatusBusy :: .colStatusBusy :: .colStatusActive :: timeFields)
        [.jobs, .arrivals, .barSent, .tokens, .links] s v) ∧
      touches [.tick, .cmp, .col] [.mem, .presses, .jobs, .drains, .dirtyOut, .arrivals, .barSent, .tokens, .links,
        .relays, .moe, .freeCount] s t := by
  have run := exec_jobComplete he hc u found
  rw [if_pos h] at run
  have time := s.stamp_time u
  refine ⟨_, _, run, rfl, (State.completed_jobs _ _ _).trans (State.setJob_congr (State.stamp_jobs s u) _),
    fun a b => (State.completed_relCycle _ _ _ a b).trans (time.1 _ _ _ (by decide)), ?_, fun compositor => ?_,
    (execJobComplete_moves _ _ _ _ s (List.Subset.refl _) (List.Subset.refl _) (Moves.refl s) _ run).1⟩
  · rw [State.arrived, State.beginWaiting_arrivals]
    refine (State.completed_arrived _ x _).trans ?_
    rw [State.arrived, State.stamp_arrivals]
    rfl
  · exact (time.mono (by decide) (List.nil_subset _)).trans
      ((State.completed_compositor _ _ compositor).mono (by decide) (List.Subset.refl _))

theorem jobComplete_alone (u : Nat) (h : x.formed = true) :
    let w := s.setJob { x with status := .done }
    w.nextWaiting x.chase (eng = 1) = none ∨ w.engineFull x.chase (eng = 1) = true →
      ∃ t, Runs (.jobComplete x.chase eng x.idx u) s t ∧ t.jobs = w.jobs ∧
        t.arrived x.forme (jBarrier x.desc) (eng + 1) x.chase =
          s.arrived x.forme (jBarrier x.desc) (eng + 1) x.chase + 1 ∧
        (x.col = false → changes (.cmpStatusBusy :: .colStatusBusy :: .colStatusActive :: timeFields)
          [.jobs, .arrivals, .barSent, .tokens, .links] s t) ∧
        touches [.tick, .cmp, .col] [.mem, .presses, .jobs, .drains, .dirtyOut, .arrivals, .barSent, .tokens, .links,
          .relays, .moe, .freeCount] s t := by
  intro w stays
  obtain ⟨v, t, run, begun, jobs, rel, arrived, moved, touched⟩ := jobComplete_formed he hc found u h
  have stop : t = v := begun.trans (State.beginWaiting_stop (stays.symm.imp (State.engineFull_congr jobs _ _).trans
    (State.nextWaiting_congr (s := w) (by rw [jobs]) rel).trans) 8)
  subst stop
  exact ⟨t, run, jobs, arrived, moved, touched⟩

theorem jobComplete_begins (u : Nat) (h : x.formed = true) :
    let w := s.setJob { x with status := .done }
    ∀ y, w.nextWaiting x.chase (eng = 1) = some y → w.engineFull x.chase (eng = 1) = false →
      w.job y.forme y.idx = some y →
      ∃ t, Runs (.jobComplete x.chase eng x.idx u) s t ∧
        (t.job y.forme y.idx).map Job.status = some .running ∧
        t.arrived x.forme (jBarrier x.desc) (eng + 1) x.chase =
          s.arrived x.forme (jBarrier x.desc) (eng + 1) x.chase + 1 ∧
        (eng = 0 → t.jobs = (w.setJob { y with status := .running }).jobs ∧
          t.rd .cmpStatusJob x.chase 0 = y.idx % 2 ^ 16) ∧
        touches [.tick, .cmp, .col] [.mem, .presses, .jobs, .drains, .dirtyOut, .arrivals, .barSent, .tokens, .links,
          .relays, .moe, .freeCount] s t := by
  intro w y next room known
  obtain ⟨v, t, run, begun, jobs, rel, arrived, -, touched⟩ := jobComplete_formed he hc found u h
  obtain ⟨-, chase, col, -⟩ := State.nextWaiting_mem next
  have known' : v.job y.forme y.idx = some y := (State.job_congr jobs _ _).trans known
  rw [State.beginWaiting_begins ((State.engineFull_congr jobs _ _).trans room)
    ((State.nextWaiting_congr (s := w) (by rw [jobs]) rel).trans next)] at begun
  refine ⟨t, run, ?_, arrived, fun compositor => ?_, touched⟩
  · obtain ⟨n, shows⟩ := State.beginJob_shows known'
    obtain ⟨m, after⟩ := shows.beginWaiting x.chase (eng = 1) 7
    rw [begun]
    exact after.job
  · subst compositor
    obtain ⟨same, -, field, -, full, -⟩ := State.beginJob_compositor known' (col.trans (by decide))
    rw [chase] at field full
    have stop : t = v.beginJob y.forme y.idx := begun.trans (State.beginWaiting_stop (.inl full) 7)
    rw [stop]
    exact ⟨same.trans (State.setJob_congr jobs _), field⟩

end

end

/-- Settles O19: a job that begins stays RUNNING whatever the engines then do; a compositor with a job that runs is
full, so that one job begins at a time; the due jobs stand in their order by insertion. -/
theorem jobStarts : Obligations.JobStarts := by
  unfold Obligations.JobStarts
  refine ⟨fun s f i x hx idle first _ _ => startJob_spec hx idle first, State.jobWindow_spec,
    fun s f x => ⟨s.mem_dueJobs f x, s.dueJobs_pairwise f x⟩, fun s f job u hf => ⟨jobStart_off hf,
      fun x on hx => jobStart_runs hf on hx,
      fun d on none hd due alone first => jobStart_fresh hf on none hd due alone first,
      fun x on hx hc _ due known => jobStart_waiting hf on hx hc due known,
      fun x eng he hc found => ⟨jobComplete_unformed he hc found u, fun formed =>
        ⟨jobComplete_alone he hc found u formed, jobComplete_begins he hc found u formed⟩⟩⟩⟩

/-! ## Node values (R189 to R195) -/

section
variable {s t w : State} {f i c : Nat} {x : Job} {p : Plan} {shard lo hi : Nat} {v : List Nat}

theorem State.putPadded_mem_congr (h : t.mem = s.mem) (c line : Nat) (bs : List Byte) :
    (t.putPadded c line bs).mem = (s.putPadded c line bs).mem := by
  unfold State.putPadded State.putLines
  split
  · simp only [State.writeGal, h]
  · exact h

/-! ### Node store (R194) -/

theorem State.nodeSpill_fits (h : s.heldBytes c ≤ 2 ^ 23) (k : Nat) : s.nodeSpill c k = s := by
  cases k with
  | zero => rfl
  | succ k => rw [State.nodeSpill, if_neg (Nat.not_lt.mpr h)]

theorem State.scratch_rd (s : State) (c line k : Nat) (g : Field) (a b : Nat) : (s.scratch c line k).rd g a b = s.rd g a b :=
  (State.scratch_moves (as := []) s c line k (List.Subset.refl _) (Moves.refl s)).1.1 g a b List.not_mem_nil

/-- What has spilled shows for good. -/
theorem State.nodeSpill_kept (h : s.rd .colStatusSpill c 0 = 1) (k : Nat) : (s.nodeSpill c k).rd .colStatusSpill c 0 = 1 := by
  induction k generalizing s with
  | zero => exact h
  | succ k ih =>
    rw [State.nodeSpill]
    split
    · split
      · exact h
      · refine ih ?_
        rw [State.scratch_rd, State.rd_wr_same]
        rfl
    · exact h

theorem oldestHeld_eq_none {l : List (Job × HeldNode)} (h : oldestHeld l = none) : l = [] := by
  cases l with
  | nil => rfl
  | cons e l =>
    rw [oldestHeld] at h
    split at h <;> exact absurd h (Option.some_ne_none _)

/-- Where the held values exceed the store, one of them spills (R194). -/
theorem State.nodeSpill_spills (h : 2 ^ 23 < s.heldBytes c) :
    (s.nodeSpill c (s.stored c).length).rd .colStatusSpill c 0 = 1 := by
  have some : s.stored c ≠ [] := by
    intro none
    rw [State.heldBytes, none] at h
    exact absurd h (by decide)
  obtain ⟨k, hk⟩ := Nat.exists_eq_succ_of_ne_zero (mt List.length_eq_zero_iff.mp some)
  rw [hk, State.nodeSpill, if_pos h]
  split
  next none => exact absurd (oldestHeld_eq_none none) some
  next e _ =>
    refine State.nodeSpill_kept ?_ k
    rw [State.scratch_rd, State.rd_wr_same]
    rfl

/-! ### The way of one value (R189, R190) -/

/-- The job with a node noted as held or combined (R195). -/
def Job.noted (x : Job) (shard lo hi : Nat) : Job := { x with seen := x.seen ++ [(shard, lo, hi)] }

/-- Where a value at job x goes next (R189, R190). -/
def State.nodeNext (s : State) (x : Job) (p : Plan) (shard lo hi : Nat) : Option (Nat × Nat) :=
  p.next s.identity shard lo hi ((p.mine s.identity x.chase).any fun m => m.lo = lo && m.hi = hi)

/-- The held value is the sibling of [lo, hi), which is the left or the right child of [plo, phi) (R189). -/
def HeldNode.isSibling (shard lo hi plo phi : Nat) (left : Bool) (h : HeldNode) : Bool :=
  h.shard = shard && (if left then h.lo = hi && h.hi = phi else h.lo = plo && h.hi = lo)

theorem State.nodeStep_root (hx : s.job f i = some x) (k : Nat) :
    s.nodeStep f i p shard (k + 1) 0 p.ranks.length v =
      (s.setJob (x.noted shard 0 p.ranks.length)).rootResult (x.noted shard 0 p.ranks.length) p shard v := by
  rw [State.nodeStep, hx]
  dsimp only
  rw [if_pos (by simp)]
  rfl

theorem State.nodeStep_inner (hx : s.job f i = some x) (inner : ¬(lo = 0 ∧ hi = p.ranks.length)) {e : Nat × Nat}
    (he : s.nodeNext x p shard lo hi = some e) (k : Nat) :
    (e ≠ (s.identity, x.chase) → s.nodeStep f i p shard (k + 1) lo hi v =
      (s.setJob (x.noted shard lo hi)).sendNode (x.noted shard lo hi) p shard lo hi v e) ∧
    ∀ plo phi left, e = (s.identity, x.chase) → parentOf p.ranks.length lo hi = some (plo, phi, left) →
      (x.held.find? (HeldNode.isSibling shard lo hi plo phi left) = none →
        let z := s.setJob { x.noted shard lo hi with
          held := x.held ++ [⟨shard, lo, hi, v, s.nextAge x.chase, false⟩] }
        s.nodeStep f i p shard (k + 1) lo hi v = z.nodeSpill x.chase (z.stored x.chase).length) ∧
      ∀ h, x.held.find? (HeldNode.isSibling shard lo hi plo phi left) = some h →
        let r := if left then combineVals x.desc v h.vals else combineVals x.desc h.vals v
        s.nodeStep f i p shard (k + 1) lo hi v =
          ((s.setJob { x.noted shard lo hi with held := x.held.erase h }).colFlags x.chase r.2).nodeStep f i p shard k
            plo phi r.1 := by
  have notRoot : ¬(decide (lo = 0) && decide (hi = p.ranks.length)) = true := by simpa using inner
  have next : p.next s.identity shard lo hi ((p.mine s.identity x.chase).any fun m => m.lo = lo && m.hi = hi) = some e := he
  refine ⟨fun away => ?_, fun plo phi left here parent => ⟨fun alone => ?_, fun h found => ?_⟩⟩
  · rw [State.nodeStep, hx]
    dsimp only
    rw [if_neg notRoot, next]
    dsimp only
    rw [if_pos (bne_iff_ne.mpr away)]
    rfl
  · have none : x.held.find? (fun h => h.shard = shard &&
      (if left then h.lo = hi && h.hi = phi else h.lo = plo && h.hi = lo)) = none := alone
    rw [State.nodeStep, hx]
    dsimp only
    rw [if_neg notRoot, next]
    dsimp only
    rw [if_neg (by simp [here]), parent]
    dsimp only
    rw [none]
    rfl
  · have some : x.held.find? (fun h => h.shard = shard &&
      (if left then h.lo = hi && h.hi = phi else h.lo = plo && h.hi = lo)) = some h := found
    rw [State.nodeStep, hx]
    dsimp only
    rw [if_neg notRoot, next]
    dsimp only
    rw [if_neg (by simp [here]), parent]
    dsimp only
    rw [some]
    rfl

theorem State.sendNode_changes (s : State) (x : Job) (p : Plan) (shard lo hi : Nat) (v : List Nat) (e : Nat × Nat) :
    changes [] [.links, .relays] s (s.sendNode x p shard lo hi v e) :=
  changes_of_moves (State.sendNode_moves s x p shard lo hi v e (List.Subset.refl _) (Moves.refl s))

/-- An exact sum is written at its owner as it stands (R191, R192). -/
theorem State.rootResult_exact (s : State) (x : Job) (p : Plan) (shard : Nat) (v : List Nat) (kind : jKind x.desc = 2)
    (mode : jMode x.desc = 7) :
    (s.rootResult x p shard v).mem = (s.putPadded x.chase (cDst x.desc) (v.flatMap (natLe 8))).mem := by
  have flags (e : NumFlags) : ((s.colFlags x.chase e).setJob x).mem = s.mem :=
    ((changes.refl (ps := []) s).colFlags x.chase e (List.Subset.refl _)).2 .mem List.not_mem_nil
  have land (w : State) (a b line : Nat) : (w.land a b line).mem = w.mem :=
    (State.land_moves (as := []) w a b line (List.Subset.refl _) (Moves.refl w)).1.2 .mem (by decide)
  have values : ((List.range v.length).map fun n => v.getD n 0) = v :=
    List.ext_getElem (by simp) fun n h h' => by simp [List.getD_eq_getElem?_getD, h']
  unfold State.rootResult
  simp only [kind, mode, if_true, OfNat.ofNat_ne_one, if_false, List.map_map, Function.comp_def, values]
  rw [land]
  exact State.putPadded_mem_congr (flags _) _ _ _

end

section
variable {s t w : State} {f i c job : Nat} {x : Job} {p : Plan} {shard lo hi : Nat} {v : List Nat}

/-! ### NODE_ARRIVAL (R189, R195) -/

/-- The three ways of a value that arrives (R195). -/
theorem State.nodeArrive_cases (hx : s.job f i = some x) (hp : s.planOf f x.desc = some p) (shard lo hi : Nat)
    (v : List Nat) :
    ((p.ranks.length ≤ shard ∨ isNode p.ranks.length lo hi = false) →
      s.nodeArrive f i shard lo hi v = s.wr .colStatusBadNode x.chase 0 1) ∧
    (shard < p.ranks.length → isNode p.ranks.length lo hi = true →
      ((∃ e ∈ x.seen, e.1 = shard ∧ e.2.1 ≤ lo ∧ hi ≤ e.2.2) →
        s.nodeArrive f i shard lo hi v = s.wr .colStatusDupTerm x.chase 0 1) ∧
      ((∀ e ∈ x.seen, e.1 = shard → e.2.1 ≤ lo → e.2.2 < hi) →
        s.nodeArrive f i shard lo hi v = s.nodeStep f i p shard 32 lo hi v)) := by
  unfold State.nodeArrive
  rw [hx]
  dsimp only
  rw [hp]
  dsimp only
  refine ⟨fun bad => if_pos (by simpa using bad), fun within node => ?_⟩
  rw [if_neg (by simp [node, within])]
  have seen : (x.seen.any fun e => e.1 = shard && e.2.1 ≤ lo && hi ≤ e.2.2) = true ↔
      ∃ e ∈ x.seen, e.1 = shard ∧ e.2.1 ≤ lo ∧ hi ≤ e.2.2 := by simp [List.any_eq_true, and_assoc]
  refine ⟨fun covered => if_pos (seen.mpr covered), fun fresh => if_neg fun covered => ?_⟩
  obtain ⟨e, he, here, left, right⟩ := seen.mp covered
  exact Nat.not_le.mpr (fresh e he here left) right

theorem exec_nodeArrival_none (hc : c < 4) (h : s.formeOfJob c job = none) :
    Runs (.nodeArrival c job shard lo hi v) s s := by
  show execNodeArrival c job shard lo hi v s = _
  rw [execNodeArrival, if_pos hc, h]

theorem exec_nodeArrival {d : Nat} (hc : c < 4) (hf : s.formeOfJob c job = some f) (hd : s.jobDesc f job = some d)
    (kind : jKind d = 1 ∨ jKind d = 2) :
    Runs (.nodeArrival c job shard lo hi v) s ((s.ensureJob f job).nodeArrive f job shard lo hi v) := by
  show execNodeArrival c job shard lo hi v s = _
  rw [execNodeArrival, if_pos hc, hf]
  dsimp only
  rw [hd]
  dsimp only
  rw [if_pos (by simpa using kind)]

/-- What becomes of a value that is a node and not covered yet (R189, R190, R194). -/
theorem State.nodeStep_spec (hx : w.job f i = some x) (k : Nat) :
    let y := { x with seen := x.seen ++ [(shard, lo, hi)] }
    let dst := w.nodeNext x p shard lo hi
    let t := w.nodeStep f i p shard (k + 1) lo hi v
    (lo = 0 → hi = p.ranks.length → t = (w.setJob y).rootResult y p shard v ∧
      (jKind x.desc = 2 → jMode x.desc = 7 →
        t.mem = (w.putPadded x.chase (cDst x.desc) (v.flatMap (natLe 8))).mem)) ∧
    (¬ (lo = 0 ∧ hi = p.ranks.length) →
      (∀ e, dst = some e → e ≠ (w.identity, x.chase) →
        t = (w.setJob y).sendNode y p shard lo hi v e ∧ t.mem = w.mem ∧ t.jobs = (w.setJob y).jobs) ∧
      (∀ plo phi left, dst = some (w.identity, x.chase) → parentOf p.ranks.length lo hi = some (plo, phi, left) →
        let sib := x.held.find? fun h =>
          h.shard = shard && (if left then h.lo = hi && h.hi = phi else h.lo = plo && h.hi = lo)
        (sib = none →
          let z := w.setJob { y with held := x.held ++ [⟨shard, lo, hi, v, w.nextAge x.chase, false⟩] }
          (z.heldBytes x.chase ≤ 2 ^ 23 → t = z) ∧
          (2 ^ 23 < z.heldBytes x.chase → t.rd .colStatusSpill x.chase 0 = 1)) ∧
        ∀ h, sib = some h →
          let r := if left then combineVals x.desc v h.vals else combineVals x.desc h.vals v
          t = ((w.setJob { y with held := x.held.erase h }).colFlags x.chase r.2).nodeStep f i p shard k plo phi
            r.1)) := by
  intro y dst t
  refine ⟨fun hlo hhi => ?_, fun inner => ⟨fun e he away => ?_, fun plo phi left here parent => ?_⟩⟩
  · subst hlo hhi
    have root : t = (w.setJob y).rootResult y p shard v := State.nodeStep_root hx k
    refine ⟨root, fun kind mode => ?_⟩
    rw [root, State.rootResult_exact _ y p shard v kind mode]
    exact State.putPadded_mem_congr (s := w) (t := w.setJob y) rfl _ _ _
  · have sent : t = (w.setJob y).sendNode y p shard lo hi v e := (State.nodeStep_inner hx inner he k).1 away
    have kept := (w.setJob y).sendNode_changes y p shard lo hi v e
    rw [sent]
    exact ⟨rfl, kept.2 .mem (by decide), kept.2 .jobs (by decide)⟩
  · obtain ⟨held, combined⟩ := (State.nodeStep_inner (v := v) hx inner here k).2 plo phi left rfl parent
    refine ⟨fun none => ⟨fun fits => ?_, fun exceeds => ?_⟩, combined⟩
    · exact (held none).trans (State.nodeSpill_fits fits _)
    · have stored : t = _ := held none
      rw [stored]
      exact State.nodeSpill_spills exceeds

theorem nodeArrival_runs {d : Nat} (hc : c < 4) (hf : s.formeOfJob c job = some f) (hd : s.jobDesc f job = some d)
    (kind : jKind d = 1 ∨ jKind d = 2) (hx : (s.ensureJob f job).job f job = some x)
    (hp : (s.ensureJob f job).planOf f x.desc = some p) :
    let w := s.ensureJob f job
    let n := p.ranks.length
    let y := { x with seen := x.seen ++ [(shard, lo, hi)] }
    let own := (p.mine s.identity x.chase).any fun m => m.lo = lo && m.hi = hi
    let dst := p.next s.identity shard lo hi own
    ∃ t, Runs (.nodeArrival c job shard lo hi v) s t ∧ touches [.col] [.mem, .jobs, .links, .relays,
      .freeCount] s t ∧
      ((n ≤ shard ∨ isNode n lo hi = false) → t.rd .colStatusBadNode x.chase 0 = 1 ∧
        changes [.colStatusBadNode] [] w t) ∧
      (shard < n → isNode n lo hi = true →
        ((∃ e ∈ x.seen, e.1 = shard ∧ e.2.1 ≤ lo ∧ hi ≤ e.2.2) → t.rd .colStatusDupTerm x.chase 0 = 1 ∧
          changes [.colStatusDupTerm] [] w t) ∧
        ((∀ e ∈ x.seen, e.1 = shard → e.2.1 ≤ lo → e.2.2 < hi) →
          (lo = 0 → hi = n → t = (w.setJob y).rootResult y p shard v ∧
            (jKind x.desc = 2 → jMode x.desc = 7 →
              t.mem = (s.putPadded x.chase (cDst x.desc) (v.flatMap (natLe 8))).mem)) ∧
          (¬ (lo = 0 ∧ hi = n) →
            (∀ e, dst = some e → e ≠ (s.identity, x.chase) →
              t = (w.setJob y).sendNode y p shard lo hi v e ∧ t.mem = s.mem ∧ t.jobs = (w.setJob y).jobs) ∧
            (∀ plo phi left, dst = some (s.identity, x.chase) → parentOf n lo hi = some (plo, phi, left) →
              let sib := x.held.find? fun h =>
                h.shard = shard && (if left then h.lo = hi && h.hi = phi else h.lo = plo && h.hi = lo)
              (sib = none →
                let z := w.setJob { y with held := x.held ++ [⟨shard, lo, hi, v, w.nextAge x.chase,
                  false⟩] }
                (z.heldBytes x.chase ≤ 2 ^ 23 → t = z) ∧
                (2 ^ 23 < z.heldBytes x.chase → t.rd .colStatusSpill x.chase 0 = 1)) ∧
              ∀ h, sib = some h →
                let r := if left then combineVals x.desc v h.vals else combineVals x.desc h.vals v
                t = ((w.setJob { y with held := x.held.erase h }).colFlags x.chase r.2).nodeStep f job p
                  shard 31 plo phi r.1)))) := by
  obtain ⟨w, hw⟩ : ∃ w, s.ensureJob f job = w := ⟨_, rfl⟩
  have run : Runs (.nodeArrival c job shard lo hi v) s (w.nodeArrive f job shard lo hi v) :=
    hw ▸ exec_nodeArrival hc hf hd kind
  have known : changes [] [.jobs] s w := hw ▸ s.ensureJob_changes f job
  have identity : w.identity = s.identity := known.1 _ _ _ List.not_mem_nil
  have mem : w.mem = s.mem := known.2 .mem (by decide)
  rw [hw] at hx hp ⊢
  obtain ⟨bad, good⟩ := State.nodeArrive_cases hx hp shard lo hi v
  have set (g : Field) (hg : g.fit 1 = 1) : (w.wr g x.chase 0 1).rd g x.chase 0 = 1 ∧ changes [g] [] w (w.wr g x.chase 0 1) :=
    ⟨(State.rd_wr_same ..).trans hg, (changes.refl w).wr _ _ _ _ (List.mem_singleton_self g)⟩
  refine ⟨_, run, (execNodeArrival_moves _ _ _ _ _ _ s (List.Subset.refl _) (List.Subset.refl _) (Moves.refl s) _ run).1,
    fun noNode => bad noNode ▸ set .colStatusBadNode rfl, fun within node => ?_⟩
  obtain ⟨covered, fresh⟩ := good within node
  refine ⟨fun dup => covered dup ▸ set .colStatusDupTerm rfl, fun new => ?_⟩
  have spec := State.nodeStep_spec (p := p) (shard := shard) (lo := lo) (hi := hi) (v := v) hx 31
  rw [fresh new, ← identity, ← mem]
  obtain ⟨root, inner⟩ := spec
  refine ⟨fun hlo hhi => ⟨(root hlo hhi).1, fun kind mode => ?_⟩, inner⟩
  exact ((root hlo hhi).2 kind mode).trans (State.putPadded_mem_congr mem _ _ _)

end

/-! ## Lookups (R174 to R184) -/

/-- The sticky flags of a compositor (R185). -/
def cmpFlagFields : List Field :=
  [.cmpNumFlagsNanIn, .cmpNumFlagsNanMade, .cmpNumFlagsOverflow, .cmpNumFlagsSaturated, .cmpNumFlagsUnderflow]

/-- The fields that count a lookup (R176). -/
def lookupFields : List Field :=
  [.cmpExceptCountsNull, .cmpExceptCountsOutOfRange, .cmpStatusIdxRange, .cmpLookupCountLookups]

section
variable {s t : State} {f i c : Nat} {x : Job} {fs : List Field} {ps : List Part} {rows : List (Nat × List Byte)}

theorem changes.cmpFlags (a : Nat) (e : NumFlags) (hf : cmpFlagFields ⊆ fs) (h : changes fs ps s t) :
    changes fs ps s (t.cmpFlags a e) := by
  have raise (b : Bool) {g : Field} (hg : g ∈ fs) {w : State} (hw : changes fs ps s w) :
      changes fs ps s (if b then w.wr g a 0 1 else w) := .ite (fun _ => hw.wr _ _ _ _ hg) fun _ => hw
  exact raise _ (hf (by decide)) (raise _ (hf (by decide)) (raise _ (hf (by decide)) (raise _ (hf (by decide))
    (raise _ (hf (by decide)) h))))

theorem changes.putPadded (a line : Nat) (bs : List Byte) (hp : .mem ∈ ps) (h : changes fs ps s t) :
    changes fs ps s (t.putPadded a line bs) :=
  h.trans ((changes_of_moves (ps := [.mem]) (State.putPadded_moves t a line bs (List.Subset.refl _) (Moves.refl t))).mono
    (List.nil_subset _) (by simpa using hp))

theorem changes.setJob (x : Job) (hp : .jobs ∈ ps) (h : changes fs ps s t) : changes fs ps s (t.setJob x) :=
  h.parts rfl fun q hq => by cases q <;> first | rfl | exact absurd hp hq

theorem State.setJob_mem (s : State) (x : Job) : (s.setJob x).mem = s.mem := rfl

/-! ### What a lookup reads -/

/-- Index that the next lookup of a job finds in its list (R175). -/
def State.nextIndex (s : State) (x : Job) : Nat := s.listEntry x.chase (pIndex x.desc) x.nextLookup

theorem State.listEntry_congr (h : t.mem = s.mem) (c line i : Nat) : t.listEntry c line i = s.listEntry c line i := by
  rw [State.listEntry, State.readGal, h]
  rfl

theorem State.jobRound_congr (active : t.active = s.active)
    (edition : t.rd .modFormeEditionEdition 0 f = s.rd .modFormeEditionEdition 0 f) (code tensor k : Nat) :
    t.jobRound f code tensor k = s.jobRound f code tensor k := by
  have forme : t.forme f = s.forme f := by rw [State.forme, active]; rfl
  rw [State.jobRound, State.edition, forme, edition]
  rfl

/-- What a bag's output row is depends on the memory, the forme and its edition alone (R60, R183). -/
theorem State.writeBag_mem_congr (h : changes fs ps s t) (hf : .modFormeEditionEdition ∉ fs) (hm : .mem ∉ ps)
    (ha : .active ∉ ps) (x : Job) (b : Nat) (row : List Nat × NumFlags) :
    (t.writeBag x b row).mem = (s.writeBag x b row).mem := by
  have flags (w : State) (e : NumFlags) : (w.cmpFlags x.chase e).mem = w.mem :=
    ((changes.refl (ps := []) w).cmpFlags x.chase e (List.Subset.refl _)).2 .mem List.not_mem_nil
  have round (code tensor k : Nat) : t.jobRound x.forme code tensor k = s.jobRound x.forme code tensor k :=
    State.jobRound_congr (h.2 .active ha) (h.1 _ _ _ hf) code tensor k
  unfold State.writeBag
  simp only [round]
  exact State.putPadded_mem_congr ((flags _ _).trans ((h.2 .mem hm).trans (flags _ _).symm)) _ _ _

/-! ### One lookup -/

/-- The state in which the next lookup of a job has been counted (R176). -/
def State.counted (s : State) (x : Job) : State :=
  if s.nextIndex x = 0xFFFFFFFF then s.bump .cmpExceptCountsNull x.chase 0 1
  else if pRows x.desc ≤ s.nextIndex x then
    (s.wr .cmpStatusIdxRange x.chase 0 1).bump .cmpExceptCountsOutOfRange x.chase 0 1
  else s.bump .cmpLookupCountLookups x.chase 0 1

/-- The row that the next lookup of a job gets (R176, R177). -/
def State.lookupRow (s : State) (x : Job) (rows : List (Nat × List Byte)) : List Byte :=
  if nullIndex x.desc (s.nextIndex x) then List.replicate (pRowBytes x.desc) 0
  else ((rows.find? fun e => e.1 = x.nextLookup).map Prod.snd).getD []

/-- Term of the next lookup of a job from its row, with its events (R182). -/
def State.lookupTerm (s : State) (x : Job) (row : List Byte) : List Nat × NumFlags :=
  pooledTerm x.desc (s.listEntry x.chase (pWeight x.desc) x.nextLookup) (decodeRow (jFmt x.desc) (pDim x.desc) row).1

/-- The terms that a job holds with that of its next lookup (R182). -/
def State.termsHeld (s : State) (x : Job) (row : List Byte) : List HeldNode :=
  let b := x.nextLookup / pSlots x.desc
  let j := x.nextLookup % pSlots x.desc
  x.held ++ [if nullIndex x.desc (s.nextIndex x) then HeldNode.mk b j j (nullTerm x.desc) 0 false
    else HeldNode.mk b j (j + 1) (s.lookupTerm x row).1 0 false]

/-- The pooled row of the terms held (R182). -/
def pooledRow (d : Nat) (held : List HeldNode) : List Nat × NumFlags :=
  poolBag d ((held.filter fun h => h.lo != h.hi).length) (held.map HeldNode.vals)

theorem State.counted_changes (s : State) (x : Job) : changes lookupFields [] s (s.counted x) :=
  .ite (fun _ => (changes.refl s).bump _ _ _ _ (by decide)) fun _ =>
    .ite (fun _ => ((changes.refl s).wr _ _ _ _ (by decide)).bump _ _ _ _ (by decide)) fun _ =>
      (changes.refl s).bump _ _ _ _ (by decide)

theorem State.counted_mem (s : State) (x : Job) : (s.counted x).mem = s.mem := (s.counted_changes x).2 .mem (by decide)

theorem State.counted_rd (s : State) (x : Job) :
    (s.nextIndex x = 0xFFFFFFFF → (s.counted x).rd .cmpExceptCountsNull x.chase 0 =
      min (2 ^ 32 - 1) (s.rd .cmpExceptCountsNull x.chase 0 + 1)) ∧
    (s.nextIndex x ≠ 0xFFFFFFFF → pRows x.desc ≤ s.nextIndex x → (s.counted x).rd .cmpStatusIdxRange x.chase 0 = 1 ∧
      (s.counted x).rd .cmpExceptCountsOutOfRange x.chase 0 =
        min (2 ^ 32 - 1) (s.rd .cmpExceptCountsOutOfRange x.chase 0 + 1)) ∧
    (nullIndex x.desc (s.nextIndex x) = false → (s.counted x).rd .cmpLookupCountLookups x.chase 0 =
      min (2 ^ 64 - 1) (s.rd .cmpLookupCountLookups x.chase 0 + 1)) := by
  unfold State.counted
  refine ⟨fun null => ?_, fun some beyond => ?_, fun within => ?_⟩
  · rw [if_pos null, State.rd_bump_same _ _ _ _ _ (by decide)]
    rfl
  · rw [if_neg some, if_pos beyond, State.rd_bump_ne _ _ _ _ _ _ _ _ (by decide), State.rd_wr_same,
      State.rd_bump_same _ _ _ _ _ (by decide), State.rd_wr_ne _ _ _ _ _ _ _ _ (by decide)]
    exact ⟨rfl, rfl⟩
  · simp only [nullIndex, Bool.or_eq_false_iff, decide_eq_false_iff_not] at within
    rw [if_neg within.1, if_neg within.2, State.rd_bump_same _ _ _ _ _ (by decide)]
    rfl

/-- GATHER writes the row to the lookup's output lines (R183). -/
theorem State.lookup_gather (s : State) (rows : List (Nat × List Byte)) (kind : jKind x.desc = 2) :
    s.lookup x rows = ((s.counted x).putPadded x.chase
      (pOut x.desc + x.nextLookup * linesOf (pRowBytes x.desc)) (s.lookupRow x rows)).setJob
        { x with nextLookup := x.nextLookup + 1 } := if_pos kind

/-- The state in which the next lookup of a POOL job is counted, and its events shown (R176, R182). -/
def State.termRead (s : State) (x : Job) (row : List Byte) : State :=
  if nullIndex x.desc (s.nextIndex x) then s.counted x
  else (s.counted x).cmpFlags x.chase
    ((decodeRow (jFmt x.desc) (pDim x.desc) row).2.or ((s.counted x).lookupTerm x row).2)

theorem State.termRead_changes (s : State) (x : Job) (row : List Byte) :
    changes (lookupFields ++ cmpFlagFields) [] s (s.termRead x row) := by
  have counted := (s.counted_changes x).mono (List.subset_append_left lookupFields cmpFlagFields) (List.Subset.refl [])
  exact .ite (fun _ => counted) fun _ => counted.cmpFlags _ _ (List.subset_append_right ..)

theorem State.termsHeld_counted (s : State) (x : Job) (row : List Byte) :
    (x.held ++ [if nullIndex x.desc (s.nextIndex x) then
        HeldNode.mk (x.nextLookup / pSlots x.desc) (x.nextLookup % pSlots x.desc) (x.nextLookup % pSlots x.desc)
          (nullTerm x.desc) 0 false
      else HeldNode.mk (x.nextLookup / pSlots x.desc) (x.nextLookup % pSlots x.desc)
        (x.nextLookup % pSlots x.desc + 1) ((s.counted x).lookupTerm x row).1 0 false]) = s.termsHeld x row := by
  have term : (s.counted x).lookupTerm x row = s.lookupTerm x row := by
    rw [State.lookupTerm, State.listEntry_congr (s.counted_mem x)]
    rfl
  rw [term]
  rfl

/-- POOL holds the term of a lookup that is not its bag's last (R182). -/
theorem State.lookup_holds (s : State) (rows : List (Nat × List Byte)) (kind : jKind x.desc ≠ 2)
    (more : x.nextLookup % pSlots x.desc + 1 ≠ pSlots x.desc) :
    s.lookup x rows = (s.termRead x (s.lookupRow x rows)).setJob
      { x with nextLookup := x.nextLookup + 1, held := s.termsHeld x (s.lookupRow x rows) } := by
  rw [← State.termsHeld_counted]
  exact (if_neg kind).trans (if_neg more)

/-- The last lookup of a bag writes the pooled row and holds nothing more (R182, R183). -/
theorem State.lookup_pools (s : State) (rows : List (Nat × List Byte)) (kind : jKind x.desc ≠ 2)
    (last : x.nextLookup % pSlots x.desc + 1 = pSlots x.desc) :
    s.lookup x rows = ((s.termRead x (s.lookupRow x rows)).writeBag { x with nextLookup := x.nextLookup + 1 }
      (x.nextLookup / pSlots x.desc) (pooledRow x.desc (s.termsHeld x (s.lookupRow x rows)))).setJob
        { x with nextLookup := x.nextLookup + 1, held := [] } := by
  rw [← State.termsHeld_counted]
  exact (if_neg kind).trans (if_pos last)

/-- A lookup moves the flags behind its count, and the memory and the job. -/
theorem State.lookup_changes (s : State) (x : Job) (rows : List (Nat × List Byte)) :
    changes cmpFlagFields [.mem, .jobs] (s.counted x) (s.lookup x rows) := by
  have refl := changes.refl (fs := cmpFlagFields) (ps := [.mem, .jobs]) (s.counted x)
  by_cases kind : jKind x.desc = 2
  · rw [State.lookup_gather s rows kind]
    exact (refl.putPadded _ _ _ (by decide)).setJob _ (by decide)
  · have read : changes cmpFlagFields [.mem, .jobs] (s.counted x) (s.termRead x (s.lookupRow x rows)) :=
      .ite (fun _ => refl) fun _ => refl.cmpFlags _ _ (List.Subset.refl _)
    by_cases last : x.nextLookup % pSlots x.desc + 1 = pSlots x.desc
    · rw [State.lookup_pools s rows kind last]
      exact ((read.cmpFlags _ _ (List.Subset.refl _)).putPadded _ _ _ (by decide)).setJob _ (by decide)
    · rw [State.lookup_holds s rows kind last]
      exact read.setJob _ (by decide)

theorem lookup_spec {row : List Byte} (found : (rows.find? fun e => e.1 = x.nextLookup).map Prod.snd = some row) :
    let c := x.chase
    let d := x.desc
    let i := x.nextLookup
    let idx := s.listEntry c (pIndex d) i
    let null : Bool := idx = 0xFFFFFFFF || pRows d ≤ idx
    let r := if null then List.replicate (pRowBytes d) 0 else row
    let t := s.lookup x rows
    (idx = 0xFFFFFFFF → t.rd .cmpExceptCountsNull c 0 = min (2 ^ 32 - 1) (s.rd .cmpExceptCountsNull c 0 +
      1)) ∧
    (idx ≠ 0xFFFFFFFF → pRows d ≤ idx → t.rd .cmpStatusIdxRange c 0 = 1 ∧
      t.rd .cmpExceptCountsOutOfRange c 0 = min (2 ^ 32 - 1) (s.rd .cmpExceptCountsOutOfRange c 0 + 1)) ∧
    (null = false → t.rd .cmpLookupCountLookups c 0 =
      min (2 ^ 64 - 1) (s.rd .cmpLookupCountLookups c 0 + 1)) ∧
    (jKind d = 2 → t.jobs = (s.setJob { x with nextLookup := i + 1 }).jobs ∧
      t.mem = (s.putPadded c (pOut d + i * linesOf (pRowBytes d)) r).mem) ∧
    (jKind d ≠ 2 →
      let b := i / pSlots d
      let j := i % pSlots d
      let term := (pooledTerm d (s.listEntry c (pWeight d) i) (decodeRow (jFmt d) (pDim d) r).1).1
      let held := x.held ++ [if null then HeldNode.mk b j j (nullTerm d) 0 false
        else HeldNode.mk b j (j + 1) term 0 false]
      (j + 1 ≠ pSlots d → t.jobs = (s.setJob { x with nextLookup := i + 1, held := held }).jobs ∧
        t.mem = s.mem) ∧
      (j + 1 = pSlots d → t.jobs = (s.setJob { x with nextLookup := i + 1, held := [] }).jobs ∧
        t.mem = (s.writeBag { x with nextLookup := i + 1 } b
          (poolBag d ((held.filter fun h => h.lo != h.hi).length) (held.map HeldNode.vals))).mem)) := by
  intro c d i idx null r t
  have count (g : Field) (hg : g ∉ cmpFlagFields) : t.rd g c 0 = (s.counted x).rd g c 0 :=
    (s.lookup_changes x rows).1 _ _ _ hg
  have got : s.lookupRow x rows = r := by
    rw [State.lookupRow, found]
    rfl
  obtain ⟨nulls, beyond, looked⟩ := s.counted_rd x
  rw [count _ (by decide), count _ (by decide), count _ (by decide), count _ (by decide)]
  refine ⟨nulls, beyond, looked, fun kind => ?_, fun kind => ⟨fun more => ?_, fun last => ?_⟩⟩
  · have eq := s.lookup_gather rows kind
    have written := (changes.refl (fs := []) (ps := [.mem]) (s.counted x)).putPadded c
      (pOut d + i * linesOf (pRowBytes d)) r (by decide)
    rw [got] at eq
    exact ⟨(congrArg State.jobs eq).trans (State.setJob_congr
        ((written.2 .jobs (by decide)).trans ((s.counted_changes x).2 .jobs (by decide))) _),
      (congrArg State.mem eq).trans ((State.setJob_mem _ _).trans (State.putPadded_mem_congr (s.counted_mem x) _ _ _))⟩
  · have eq := s.lookup_holds rows kind more
    have read := s.termRead_changes x (s.lookupRow x rows)
    rw [got] at eq read
    exact ⟨(congrArg State.jobs eq).trans (State.setJob_congr (read.2 .jobs (by decide)) _),
      (congrArg State.mem eq).trans ((State.setJob_mem _ _).trans (read.2 .mem (by decide)))⟩
  · have eq := s.lookup_pools rows kind last
    have read := s.termRead_changes x (s.lookupRow x rows)
    rw [got] at eq read
    have bag (w : State) (y : Job) (b : Nat) (row : List Nat × NumFlags) : (w.writeBag y b row).jobs = w.jobs :=
      (State.writeBag_moves w y b row (List.Subset.refl _) (List.Subset.refl _) (Moves.refl w)).1.2 .jobs (by decide)
    exact ⟨(congrArg State.jobs eq).trans (State.setJob_congr ((bag _ _ _ _).trans (read.2 .jobs (by decide))) _),
      (congrArg State.mem eq).trans ((State.setJob_mem _ _).trans
        (State.writeBag_mem_congr read (by decide) (by decide) (by decide) _ _ _))⟩

end

/-! ## The window of a job (R178) -/

/-- The fields that corrected errors of a read can move (R162, R163). -/
def metFields : List Field := galCeFields ++ memCeFields

/-- The numbers of a region that place an address (R158, R228). -/
def bandFields : List Field := [.memRegionValid, .memRegionFirstBand, .memRegionBandsM1, .memRegionMode]

section
variable {s t : State} {c : Nat} {x : Job} {fs : List Field} {ps : List Part}

theorem State.met_changes (s : State) (code : Nat) (sched : Bool) (l : List CeSite) :
    changes metFields ceParts s (s.met code sched l) := by
  refine (changes.refl s).each l _ fun t site h => h.trans ?_
  cases site with
  | galley c w => exact (State.galCe_changes ..).mono (List.subset_append_left ..) (List.Subset.refl _)
  | stack m b => exact (State.memCe_changes ..).mono (List.subset_append_right ..) (List.Subset.refl _)

/-! ### Of what the fetches depend -/

theorem memMode_congr (h : changes fs ps s t) (hf : ∀ g ∈ bandFields, g ∉ fs) (c a : Nat) : t.memMode c a = s.memMode c a := by
  have rd : ∀ g ∈ bandFields, ∀ i j, t.rd g i j = s.rd g i j := fun g hg i j => h.1 g i j (hf g hg)
  have region : t.regionOf c (a / 2 ^ 23) = s.regionOf c (a / 2 ^ 23) := by
    simp (disch := decide) only [State.regionOf, State.on, rd]
  rw [State.memMode, region]
  simp (disch := decide) only [rd]
  rfl

theorem fetchKey_congr (h : changes fs ps s t) (hf : ∀ g ∈ bandFields, g ∉ fs) (c : Nat) (e : Fetch) :
    t.fetchKey c e = s.fetchKey c e := by rw [State.fetchKey, memMode_congr h hf]; rfl

theorem readMem_congr (h : changes fs ps s t) (hf : ∀ g ∈ bandFields, g ∉ fs) (hm : .mem ∉ ps) (c a n : Nat) :
    t.readMem c a n = s.readMem c a n := by
  have mem : t.mem = s.mem := h.2 .mem hm
  simp only [State.readMem, State.memCell, memMode_congr h hf, mem]

theorem insertFetch_congr (h : changes fs ps s t) (hf : ∀ g ∈ bandFields, g ∉ fs) (c : Nat) (e : Fetch) (l : List Fetch) :
    t.insertFetch c e l = s.insertFetch c e l := by
  induction l with
  | nil => rfl
  | cons a l ih => rw [State.insertFetch, State.insertFetch, fetchKey_congr h hf, fetchKey_congr h hf, ih]

theorem viewAddr_congr (h : changes fs ps s t) (hf : ∀ g ∈ bandFields, g ∉ fs) (ha : .active ∉ ps) (f c a : Nat) :
    t.viewAddr f c a = s.viewAddr f c a := by
  have active : t.active = s.active := h.2 .active ha
  have forme : t.forme f = s.forme f := by rw [State.forme, active]; rfl
  have rd (i j : Nat) : t.rd .memRegionFirstBand i j = s.rd .memRegionFirstBand i j := h.1 _ i j (hf _ (by decide))
  simp only [State.viewAddr, active, forme, rd]

/-- A job's window depends on the list, the imposition and the regions alone (R175, R178). -/
theorem window_congr (h : changes fs ps s t) (hf : ∀ g ∈ bandFields, g ∉ fs) (hm : .mem ∉ ps) (ha : .active ∉ ps) (x : Job) :
    t.window x = s.window x := by
  simp only [State.window, viewAddr_congr h hf ha, State.listEntry_congr (h.2 .mem hm), insertFetch_congr h hf]

/-! ### The order of the fetches -/

theorem State.mem_insertFetch (s : State) (c : Nat) (e a : Fetch) (l : List Fetch) :
    a ∈ s.insertFetch c e l ↔ a = e ∨ a ∈ l := by
  induction l with
  | nil => simp [State.insertFetch]
  | cons b l ih =>
    rw [State.insertFetch]
    split
    · rw [List.mem_cons]
    · rw [List.mem_cons, ih, List.mem_cons]
      exact or_left_comm

theorem State.insertFetch_pairwise (s : State) (c : Nat) (e : Fetch) {l : List Fetch}
    (hl : l.Pairwise fun a b => s.fetchKey c a ≤ s.fetchKey c b) :
    (s.insertFetch c e l).Pairwise fun a b => s.fetchKey c a ≤ s.fetchKey c b := by
  induction l with
  | nil => exact List.pairwise_singleton ..
  | cons b l ih =>
    obtain ⟨first, rest⟩ := List.pairwise_cons.mp hl
    rw [State.insertFetch]
    split
    next before =>
      refine List.pairwise_cons.mpr ⟨fun a ha => ?_, hl⟩
      rcases List.mem_cons.mp ha with rfl | ha
      · exact before.le
      · exact before.le.trans (first a ha)
    next behind =>
      refine List.pairwise_cons.mpr ⟨fun a ha => ?_, ih rest⟩
      rcases (s.mem_insertFetch c e a l).mp ha with rfl | ha
      · exact Nat.not_lt.mp behind
      · exact first a ha

/-- The fetch of the row that a position of the list names (R177, R228). -/
def State.fetchAt (s : State) (x : Job) (i : Nat) : Fetch :=
  (i, s.viewAddr x.forme x.chase (pTable x.desc) + s.listEntry x.chase (pIndex x.desc) i * pRowBytes x.desc)

/-- Fetches with that of one more position, where it names a row (R176, R178). -/
def State.addFetch (s : State) (x : Job) (l : List Fetch) (i : Nat) : List Fetch :=
  if nullIndex x.desc (s.listEntry x.chase (pIndex x.desc) i) then l else s.insertFetch x.chase (s.fetchAt x i) l

theorem State.window_eq (s : State) (x : Job) : s.window x =
    ((List.range (min 256 (pTotal x.desc - x.nextLookup))).map fun i => x.nextLookup + i).foldl (s.addFetch x) [] := rfl

theorem State.mem_addFetch (s : State) (x : Job) (l : List Fetch) (i : Nat) (e : Fetch) : e ∈ s.addFetch x l i ↔
    e ∈ l ∨ nullIndex x.desc (s.listEntry x.chase (pIndex x.desc) i) = false ∧ e = s.fetchAt x i := by
  unfold State.addFetch
  split
  next null => simp [null]
  next row => rw [s.mem_insertFetch]; simp [row, or_comm]

theorem State.addFetch_pairwise (s : State) (x : Job) {l : List Fetch} (i : Nat)
    (hl : l.Pairwise fun a b => s.fetchKey x.chase a ≤ s.fetchKey x.chase b) :
    (s.addFetch x l i).Pairwise fun a b => s.fetchKey x.chase a ≤ s.fetchKey x.chase b := by
  unfold State.addFetch
  split
  · exact hl
  · exact s.insertFetch_pairwise x.chase _ hl

theorem State.mem_foldl_addFetch (s : State) (x : Job) (k : List Nat) (l : List Fetch) (e : Fetch) :
    e ∈ k.foldl (s.addFetch x) l ↔ e ∈ l ∨
      ∃ i ∈ k, nullIndex x.desc (s.listEntry x.chase (pIndex x.desc) i) = false ∧ e = s.fetchAt x i := by
  induction k generalizing l with
  | nil => simp
  | cons i k ih =>
    rw [List.foldl_cons, ih, s.mem_addFetch, or_assoc]
    simp only [List.mem_cons, exists_eq_or_imp]

/-- A window holds one fetch for each of its lookups that names a row (R176, R178). -/
theorem State.mem_window (s : State) (x : Job) (e : Fetch) :
    e ∈ s.window x ↔ ∃ i, x.nextLookup ≤ i ∧ i < x.nextLookup + min 256 (pTotal x.desc - x.nextLookup) ∧
      nullIndex x.desc (s.listEntry x.chase (pIndex x.desc) i) = false ∧ e = s.fetchAt x i := by
  rw [s.window_eq, s.mem_foldl_addFetch]
  have range (i : Nat) : (i ∈ (List.range (min 256 (pTotal x.desc - x.nextLookup))).map fun i => x.nextLookup + i) ↔
      x.nextLookup ≤ i ∧ i < x.nextLookup + min 256 (pTotal x.desc - x.nextLookup) := by
    simp only [List.mem_map, List.mem_range]
    exact ⟨fun ⟨j, hj, hi⟩ => by omega, fun ⟨lo, hi⟩ => ⟨i - x.nextLookup, by omega, by omega⟩⟩
  simp only [range, List.not_mem_nil, false_or, and_assoc]

/-- The fetches of a window are issued in the order of stack, channel, bank, row and list position (R178). -/
theorem State.window_pairwise (s : State) (x : Job) :
    (s.window x).Pairwise fun a b => s.fetchKey x.chase a ≤ s.fetchKey x.chase b := by
  rw [s.window_eq]
  exact List.foldlRecOn _ (s.addFetch x) List.Pairwise.nil fun _ sorted i _ => s.addFetch_pairwise x i sorted

end

/-! ## The lookups of a window (R178, R180) -/

/-- Two states that agree but for a compositor's spill flag and what the module has sent: no lookup tells them
apart. -/
def State.alike (s t : State) : Prop := changes [.cmpStatusSpill] [.out] s t

section
variable {s t : State} {x : Job} {rows : List (Nat × List Byte)}

theorem State.alike.rd (h : s.alike t) {g : Field} (hg : g ≠ .cmpStatusSpill) (i j : Nat) : t.rd g i j = s.rd g i j :=
  h.1 g i j fun hm => hg (List.mem_singleton.mp hm)

theorem State.alike.mem (h : s.alike t) : t.mem = s.mem := h.2 .mem (by decide)

theorem State.alike.jobs (h : s.alike t) : t.jobs = s.jobs := h.2 .jobs (by decide)

theorem State.alike.wr (h : s.alike t) (g : Field) (i j v : Nat) : (s.wr g i j v).alike (t.wr g i j v) := by
  refine ⟨fun k a b hk => ?_, fun q hq => by cases q <;> exact h.2 _ hq⟩
  rw [State.rd_wr, State.rd_wr, h.1 k a b hk]

theorem State.alike.bump (h : s.alike t) {g : Field} (hg : g ≠ .cmpStatusSpill) (i j n : Nat) :
    (s.bump g i j n).alike (t.bump g i j n) := by
  rw [State.bump, State.bump, h.rd hg]
  split <;> exact h.wr ..

theorem State.alike.ite {s' t' : State} {p : Prop} [Decidable p] (h : p → s.alike t) (h' : ¬p → s'.alike t') :
    (if p then s else s').alike (if p then t else t') := by
  split <;> rename_i hp
  · exact h hp
  · exact h' hp

theorem State.alike.cmpFlags (h : s.alike t) (c : Nat) (e : NumFlags) : (s.cmpFlags c e).alike (t.cmpFlags c e) := by
  have raise (b : Bool) (g : Field) {u v : State} (hu : u.alike v) :
      State.alike (if b then u.wr g c 0 1 else u) (if b then v.wr g c 0 1 else v) := .ite (fun _ => hu.wr ..) fun _ => hu
  exact raise _ _ (raise _ _ (raise _ _ (raise _ _ (raise _ _ h))))

/-- The parts of both set to the same. -/
theorem State.alike.parts {s' t' : State} (h : s.alike t) (hs : s'.regs = s.regs) (ht : t'.regs = t.regs)
    (hq : ∀ q, q ∉ [Part.out] → q.same s' t') : s'.alike t' := by
  refine ⟨fun g i j hg => ?_, hq⟩
  have same := h.1 g i j hg
  unfold State.rd at same ⊢
  rw [hs, ht, same]

theorem State.alike.putLines (h : s.alike t) (c line : Nat) (bs : List Byte) :
    (s.putLines c line bs).alike (t.putLines c line bs) := by
  refine .ite (fun _ => h.parts rfl rfl fun q hq => ?_) fun _ => h
  cases q
  case mem => simp only [Part.same, State.writeGal, h.mem]
  all_goals exact h.2 _ hq

theorem State.alike.setJob (h : s.alike t) (x : Job) : (s.setJob x).alike (t.setJob x) := by
  refine h.parts rfl rfl fun q hq => ?_
  cases q
  case jobs => exact State.setJob_congr h.jobs x
  all_goals exact h.2 _ hq

theorem State.alike.scratch (h : s.alike t) (c line n : Nat) : (s.scratch c line n).alike (t.scratch c line n) := by
  have count : t.freeCount = s.freeCount := h.2 .freeCount (by decide)
  have counted : State.alike { s with freeCount := s.freeCount + 1 } { t with freeCount := s.freeCount + 1 } := by
    refine h.parts rfl rfl fun q hq => ?_
    cases q
    case freeCount => rfl
    all_goals exact h.2 _ hq
  rw [State.scratch, State.scratch, count]
  exact counted.putLines ..

theorem State.alike.writeBag (h : s.alike t) (x : Job) (b : Nat) (row : List Nat × NumFlags) :
    (s.writeBag x b row).alike (t.writeBag x b row) := by
  have round (code tensor k : Nat) : t.jobRound x.forme code tensor k = s.jobRound x.forme code tensor k :=
    State.jobRound_congr (h.2 .active (by decide)) (h.rd (by decide) _ _) code tensor k
  unfold State.writeBag
  simp only [round]
  exact (h.cmpFlags ..).putLines ..

/-! ### One lookup -/

theorem State.alike.nextIndex (h : s.alike t) (x : Job) : t.nextIndex x = s.nextIndex x := State.listEntry_congr h.mem ..

theorem State.alike.counted (h : s.alike t) (x : Job) : (s.counted x).alike (t.counted x) := by
  rw [State.counted, State.counted, h.nextIndex]
  exact .ite (fun _ => h.bump (by decide) ..) fun _ =>
    .ite (fun _ => (h.wr ..).bump (by decide) ..) fun _ => h.bump (by decide) ..

theorem State.alike.lookupRow (h : s.alike t) (x : Job) (rows : List (Nat × List Byte)) :
    t.lookupRow x rows = s.lookupRow x rows := by rw [State.lookupRow, h.nextIndex]; rfl

theorem State.alike.lookupTerm (h : s.alike t) (x : Job) (row : List Byte) : t.lookupTerm x row = s.lookupTerm x row := by
  rw [State.lookupTerm, State.listEntry_congr h.mem]
  rfl

theorem State.alike.termsHeld (h : s.alike t) (x : Job) (row : List Byte) : t.termsHeld x row = s.termsHeld x row := by
  rw [State.termsHeld, h.nextIndex, h.lookupTerm]
  rfl

theorem State.alike.termRead (h : s.alike t) (x : Job) (row : List Byte) : (s.termRead x row).alike (t.termRead x row) := by
  rw [State.termRead, State.termRead, h.nextIndex, (h.counted x).lookupTerm]
  exact .ite (fun _ => h.counted x) fun _ => (h.counted x).cmpFlags ..

theorem State.alike.lookup (h : s.alike t) (x : Job) (rows : List (Nat × List Byte)) :
    (s.lookup x rows).alike (t.lookup x rows) := by
  by_cases kind : jKind x.desc = 2
  · rw [State.lookup_gather s rows kind, State.lookup_gather t rows kind, h.lookupRow]
    exact ((h.counted x).putLines ..).setJob _
  · by_cases last : x.nextLookup % pSlots x.desc + 1 = pSlots x.desc
    · rw [State.lookup_pools s rows kind last, State.lookup_pools t rows kind last, h.lookupRow, h.termsHeld]
      exact ((h.termRead x _).writeBag ..).setJob _
    · rw [State.lookup_holds s rows kind last, State.lookup_holds t rows kind last, h.lookupRow, h.termsHeld]
      exact (h.termRead x _).setJob _

theorem State.alike.lookups (h : s.alike t) (f i : Nat) (rows : List (Nat × List Byte)) (k : Nat) :
    (s.lookups f i rows k).alike (t.lookups f i rows k) := by
  induction k generalizing s t with
  | zero => exact h
  | succ k ih =>
    rw [State.lookups, State.lookups, State.job_congr h.jobs]
    split
    · exact h
    · exact .ite (fun _ => ih (h.lookup ..)) fun _ => h

/-! ### How far the list is read -/

theorem State.putPadded_jobs (s : State) (c line : Nat) (bs : List Byte) : (s.putPadded c line bs).jobs = s.jobs :=
  ((changes.refl (fs := []) (ps := [.mem]) s).putPadded c line bs (by decide)).2 .jobs (by decide)

theorem State.writeBag_jobs (s : State) (x : Job) (b : Nat) (row : List Nat × NumFlags) :
    (s.writeBag x b row).jobs = s.jobs :=
  (State.putPadded_jobs ..).trans
    (((changes.refl (ps := []) s).cmpFlags x.chase _ (List.Subset.refl _)).2 .jobs List.not_mem_nil)

theorem State.lookup_jobs (s : State) (x : Job) (rows : List (Nat × List Byte)) :
    ∃ held, (s.lookup x rows).jobs = (s.setJob { x with nextLookup := x.nextLookup + 1, held := held }).jobs := by
  have counted : (s.counted x).jobs = s.jobs := (s.counted_changes x).2 .jobs (by decide)
  have read (row : List Byte) : (s.termRead x row).jobs = s.jobs := (s.termRead_changes x row).2 .jobs (by decide)
  by_cases kind : jKind x.desc = 2
  · rw [State.lookup_gather s rows kind]
    exact ⟨x.held, State.setJob_congr ((State.putPadded_jobs ..).trans counted) _⟩
  · by_cases last : x.nextLookup % pSlots x.desc + 1 = pSlots x.desc
    · rw [State.lookup_pools s rows kind last]
      exact ⟨[], State.setJob_congr ((State.writeBag_jobs ..).trans (read _)) _⟩
    · rw [State.lookup_holds s rows kind last]
      exact ⟨_, State.setJob_congr (read _) _⟩

/-- After k lookups the job stands k entries on, or at the end of its list (R175). -/
theorem State.lookups_next (f i : Nat) (rows : List (Nat × List Byte)) (k : Nat) (h : s.job f i = some x) :
    ((s.lookups f i rows k).job f i).map Job.nextLookup =
      some (x.nextLookup + min k (pTotal x.desc - x.nextLookup)) := by
  induction k generalizing s x with
  | zero => rw [State.lookups, h, Nat.zero_min]; rfl
  | succ k ih =>
    obtain ⟨rfl, rfl⟩ := State.key_of_job h
    rw [State.lookups, h]
    dsimp only
    split
    next more =>
      obtain ⟨held, jobs⟩ := s.lookup_jobs x rows
      have there : (s.lookup x rows).job x.forme x.idx =
          some { x with nextLookup := x.nextLookup + 1, held := held } :=
        (State.job_congr jobs _ _).trans (State.job_setJob (x := { x with nextLookup := x.nextLookup + 1, held := held })
          (Option.isSome_of_eq_some h))
      rw [ih there]
      exact congrArg some (by dsimp only; omega)
    next done =>
      rw [h, Option.map_some]
      exact congrArg some (by omega)

/-! ### WINDOW_FETCH -/

/-- What the fetches of a chase's window met, and the free value of a window of more than 1 MiB of terms (R162, R163,
R194). -/
def State.windowMet (s : State) (c : Nat) (x : Job) (ce : List CeSite) : State :=
  let m := s.met 4 true ce
  let big := jKind x.desc = 1 && 2 ^ 20 < min 256 (pTotal x.desc - x.nextLookup) * 4 * pDim x.desc
  let r := if big then m.free 1 else (0, m)
  if r.1 = 1 then r.2.wr .cmpStatusSpill c 0 1 else r.2

theorem chase_of_found {c : Nat} (h : (s.jobs.find? fun j => j.chase = c && !j.col && j.status = .running) = some x) :
    x.chase = c := by
  have here := List.find?_some h
  simp only [Bool.and_eq_true, decide_eq_true_eq] at here
  exact here.1.1

theorem exec_windowFetch_none {c : Nat} (ce : List CeSite) (hc : c < 4)
    (h : (s.jobs.find? fun j => j.chase = c && !j.col && j.status = .running) = none) : Runs (.windowFetch c ce) s s := by
  show execWindowFetch c ce s = _
  rw [execWindowFetch, if_pos hc, h]

theorem exec_windowFetch {c : Nat} (ce : List CeSite) (hc : c < 4)
    (h : (s.jobs.find? fun j => j.chase = c && !j.col && j.status = .running) = some x) :
    Runs (.windowFetch c ce) s ((s.windowMet c x ce).fetchWindow x) := by
  show execWindowFetch c ce s = _
  rw [execWindowFetch, if_pos hc, h]
  rfl

/-- The free value alone decides whether the window spilled. -/
theorem State.windowMet_alike (s : State) (c : Nat) (x : Job) (ce : List CeSite) :
    State.alike (if jKind x.desc = 1 ∧ 2 ^ 20 < min 256 (pTotal x.desc - x.nextLookup) * 4 * pDim x.desc
      then ((s.met 4 true ce).free 1).2 else s.met 4 true ce) (s.windowMet c x ce) := by
  have spill (b : Prop) [Decidable b] (u : State) : u.alike (if b then u.wr .cmpStatusSpill c 0 1 else u) :=
    changes.ite (fun _ => (changes.refl u).wr _ _ _ _ (by decide)) fun _ => .refl u
  unfold State.windowMet
  by_cases big : jKind x.desc = 1 ∧ 2 ^ 20 < min 256 (pTotal x.desc - x.nextLookup) * 4 * pDim x.desc
  · simp only [big, and_self, decide_true, Bool.and_self, if_true]
    exact spill _ _
  · have small : (decide (jKind x.desc = 1) &&
        decide (2 ^ 20 < min 256 (pTotal x.desc - x.nextLookup) * 4 * pDim x.desc)) = false := by
      simpa using big
    simp only [small, if_neg big]
    exact spill _ _

theorem State.windowMet_changes (s : State) (c : Nat) (x : Job) (ce : List CeSite) :
    changes (.cmpStatusSpill :: metFields) ceParts s (s.windowMet c x ce) := by
  have met := (s.met_changes 4 true ce).mono (List.subset_cons_self .cmpStatusSpill _) (List.Subset.refl _)
  have drawn (b : Bool) : changes (.cmpStatusSpill :: metFields) ceParts s
      (if b then (s.met 4 true ce).free 1 else (0, s.met 4 true ce)).2 := by
    cases b with
    | false => exact met
    | true => exact met.free 1 (by decide)
  exact .ite (fun _ => (drawn _).wr _ _ _ _ (by decide)) fun _ => drawn _

end

section
variable {s : State} {c : Nat} {x : Job}

/-- The state in which the fetches of a window are issued and its rows stand in the staging range (R178, R180). -/
def State.fetched (s : State) (x : Job) : State :=
  (s.send (.fetches x.chase ((s.window x).map Prod.snd))).stageWindow x

theorem State.fetchWindow_eq (s : State) (x : Job) : s.fetchWindow x = (s.fetched x).lookups x.forme x.idx
    ((s.window x).map fun e => (e.1, s.readMem x.chase e.2 (pRowBytes x.desc))) 256 := rfl

theorem windowFetch_runs (ce : List CeSite) (hc : c < 4)
    (found : (s.jobs.find? fun j => j.chase = c && !j.col && j.status = .running) = some x)
    (hx : s.job x.forme x.idx = some x) :
    let d := x.desc
    let n := min 256 (pTotal d - x.nextLookup)
    let big := jKind d = 1 ∧ 2 ^ 20 < n * 4 * pDim d
    let m := s.met 4 true ce
    let v := ((if big then (m.free 1).2 else m) : State)
    let rows := (s.window x).map fun e => (e.1, s.readMem c e.2 (pRowBytes d))
    let w := (v.stageWindow x).lookups x.forme x.idx rows 256
    ∃ t, Runs (.windowFetch c ce) s t ∧ .fetches c ((s.window x).map Prod.snd) ∈ t.out ∧
      t.mem = w.mem ∧ t.jobs = w.jobs ∧
      (t.job x.forme x.idx).map Job.nextLookup = some (x.nextLookup + n) ∧
      (∀ g ∈ [Field.cmpExceptCountsNull, .cmpExceptCountsOutOfRange, .cmpLookupCountLookups],
        t.rd g c 0 = w.rd g c 0) ∧
      touches [.prf, .gal, .cmp, .mem] [.mem, .jobs, .repairMap, .ceLog, .out, .freeCount] s t := by
  intro d n big m v rows w
  obtain rfl := chase_of_found found
  have met := s.windowMet_changes x.chase x ce
  have window : (s.windowMet x.chase x ce).window x = s.window x :=
    window_congr met (by decide) (by decide) (by decide) x
  have read (e : Fetch) : (s.windowMet x.chase x ce).readMem x.chase e.2 (pRowBytes x.desc) =
      s.readMem x.chase e.2 (pRowBytes x.desc) := readMem_congr met (by decide) (by decide) _ _ _
  obtain ⟨u, hu⟩ : ∃ u, (s.windowMet x.chase x ce).fetched x = u := ⟨_, rfl⟩
  have run : Runs (.windowFetch x.chase ce) s (u.lookups x.forme x.idx rows 256) := by
    have ran := exec_windowFetch ce hc found
    rw [State.fetchWindow_eq, window, hu] at ran
    simp only [read] at ran
    exact ran
  have sent : v.alike ((s.windowMet x.chase x ce).send (.fetches x.chase ((s.window x).map Prod.snd))) :=
    changes.send _ (by decide) (s.windowMet_alike x.chase x ce)
  have same : State.alike w (u.lookups x.forme x.idx rows 256) := by
    rw [← hu, State.fetched, window]
    exact (sent.scratch ..).lookups ..
  have staged : changes [] [.mem, .freeCount] ((s.windowMet x.chase x ce).send
      (.fetches x.chase ((s.window x).map Prod.snd))) u := by
    rw [← hu, State.fetched, window]
    exact changes_of_moves (State.stageWindow_moves _ x (List.Subset.refl _) (Moves.refl _))
  have out : (u.lookups x.forme x.idx rows 256).out = u.out :=
    (State.lookups_moves u x.forme x.idx rows 256 (List.Subset.refl _) (List.Subset.refl _) (Moves.refl u)).1.2 .out
      (by decide)
  have jobs : u.jobs = s.jobs := (staged.2 .jobs (by decide)).trans (met.2 .jobs (by decide))
  refine ⟨_, run, ?_, same.mem, same.jobs, State.lookups_next _ _ rows 256 ((State.job_congr jobs _ _).trans hx),
    fun g hg => same.rd (fun spill => ?_) _ _,
    (execWindowFetch_moves x.chase ce s (List.Subset.refl _) (List.Subset.refl _) (Moves.refl s) _ run).1⟩
  · rw [out, staged.2 .out (by decide)]
    exact List.mem_cons_self
  · exact absurd (spill ▸ hg) (by decide)

end

/-- Settles O20: the window's fetches are put in by insertion; the lookups behind them tell no state from one that
differs in its spill flag and in what the module has sent; a node value goes one step of its way. -/
theorem lookupsAndNodes : Obligations.LookupsAndNodes := by
  unfold Obligations.LookupsAndNodes
  refine ⟨fun s c ce hc => ⟨exec_windowFetch_none ce hc, fun x found hx => ?_⟩,
    fun s x rows row _ found => lookup_spec found, fun s c job shard lo hi v hc => ⟨exec_nodeArrival_none hc,
      fun f d x p hf hd kind hx hp => nodeArrival_runs hc hf hd kind hx hp⟩⟩
  have window := windowFetch_runs ce hc found hx
  obtain rfl := chase_of_found found
  exact ⟨s.mem_window x, s.window_pairwise x, window⟩

end Sys2Proof.Machine

/-!
# LOAD, START and EDITION_COMMIT: three states that the statements miss

One state each that O21, O23 and O25 speak of and that the model takes elsewhere than they say.
-/

namespace Sys2Proof.Machine

/-! ## A source address within 256 bytes (R218) -/

/-- A source address that no line of 256 bytes begins at, one byte to read, and a byte that is not zero there. -/
def unalignedLoad : State := (State.reset.wrAll [(.modImpSrcAddr, 0, 0, 1), (.modImpLenBytes, 0, 0, 1)]).writeMem 0 1 [5]

/-- LOAD reads from the start of the 256 bytes that the source address lies in, where the memory is zero. -/
theorem unalignedLoad_reads {t : State} (h : Runs (.impLoad 0) unalignedLoad t) : t.pendingBytes = [0] := by
  have run : execImpLoad 0 unalignedLoad = .next t := h
  rw [execImpLoad, if_pos (by decide)] at run
  obtain rfl := Host.Outcome.next.inj run
  decide +kernel

/-- Refutes O21: the clause on LOAD has the bytes read from MOD_IMP_SRC as it stands, while the module reads from the
256-byte boundary at or below it, as a load of the register shows the address. With the address at byte 1, which alone
is not zero, the byte read is that at address 0. No store to the register leaves such an address there, but no
hypothesis of the statement excludes one. -/
theorem not_impositionLoad : ¬ Obligations.ImpositionLoad := by
  unfold Obligations.ImpositionLoad
  intro h
  obtain ⟨load, -⟩ := h unalignedLoad 0
  obtain ⟨t, run, -, -, bytes, -⟩ := load (.inl (by decide))
  exact absurd (bytes.symm.trans (unalignedLoad_reads run)) (by decide +kernel)

/-! ## A number beyond its field's width (R231) -/

/-- The one variant of a forme that uses neither press nor engine. -/
def plainVariant : Variant :=
  { number := 0, pressMask := 0, engineMask := 0, widths := 0, editionNominal := 0, programs := [], steps := [],
    resvs := [], barriers := [], jobs := [], plans := [] }

/-- Forme 0, of the variants given, on no press, engine or port. -/
def plainForme (l : List Variant) : Forme :=
  { number := 0, mirrored := false, fabric := false, carriedFrom := 255, linkMin := 1, pressSet := 0, engineSet := 0,
    mirrorShare := 0, portSet := 0, startEdition := 1, srSeed := 0, variants := l, ckpts := [] }

/-- An imposition of that forme alone. -/
def plainImp (l : List Variant) : Imposition :=
  { capability := 0, rollbackVersion := 0, moduleId := 0, digest := [], formes := [plainForme l], routing := [],
    optics := [], memory := [] }

/-- Forme 0 LOADED on an ACTIVE module, with 256 as the cause that waits, in a field of 8 bits. -/
def wideCauseState : State :=
  { State.reset with
    regs := [(⟨.modFormeStatusState, 0, 0⟩, fLoaded), (⟨.pairStatusRole, 0, 0⟩, rActive),
      (⟨.hFormeCausePend, 0, 0⟩, 256)]
    active := some (plainImp [plainVariant]) }

/-- START abandons it, and the cause shown is held to its 8 bits. -/
theorem wideCauseState_started {t : State} (h : Runs (.formeStart 0 0) wideCauseState t) :
    t.rd .modFormeStatusCause 0 0 = 0 := by
  have run : execFormeStart 0 0 wideCauseState = .next t := h
  rw [execFormeStart, if_pos (by decide)] at run
  obtain rfl := Host.Outcome.next.inj run
  decide +kernel

/-- Refutes O23: the clause on START with a cause that waited has the cause shown equal to the one that waited, in every
state; no hypothesis asks for the invariant, which holds each number to its field's width. Where 256 waits in that
field of 8 bits, the cause shown is 0. -/
theorem not_formeCommands : ¬ Obligations.FormeCommands := by
  unfold Obligations.FormeCommands
  intro h
  obtain ⟨-, -, -, -, start, -⟩ := h wideCauseState 0 0 (by decide)
  have quiet : ∀ p, wideCauseState.rd .hPrsFailPend p 0 = 0 := fun p => rfl
  obtain ⟨-, abandons⟩ := start (plainForme [plainVariant]) plainVariant (by decide) (by decide) rfl quiet (by decide)
    (by decide)
  obtain ⟨t, run, -, cause, -⟩ := abandons (by decide)
  exact absurd (cause.symm.trans (wideCauseState_started run)) (by decide)

/-! ## A RESUME that waits at a commit (R230, R234) -/

/-- Forme 0 CLOSING with nothing to wait for; a HOLD and a RESUME wait, and the mark of a replay due on leaving PARKED
is set. -/
def replayDueState : State :=
  { State.reset.wrAll [(.modFormeStatusState, 0, 0, fClosing), (.pairStatusRole, 0, 0, rActive),
      (.hFormeHoldPend, 0, 0, 1), (.hFormeResumePend, 0, 0, 1), (.hFormeParkReplay, 0, 0, 1)] with
    active := some (plainImp []) }

/-- Its commit holds it, and the RESUME takes it from there to a replay. -/
theorem replayDueState_committed {t : State} (h : Runs (.editionCommit 0 0) replayDueState t) :
    t.rd .modFormeStatusReplay 0 0 = 1 := by
  have run : execEditionCommit 0 0 replayDueState = .next t := h
  rw [execEditionCommit, if_pos (by decide)] at run
  obtain rfl := Host.Outcome.next.inj run
  rw [State.rd_irqDeliver_forme _ rfl]
  decide +kernel

/-- Refutes O25: the clause on EDITION_COMMIT has replay cleared after every commit. Where a HOLD and a RESUME wait and
the forme is marked to replay when it leaves HELD or PARKED, the commit holds the forme, the RESUME that waited takes
effect in HELD, and replay is set again. -/
theorem not_editionCommits : ¬ Obligations.EditionCommits := by
  unfold Obligations.EditionCommits
  intro h
  obtain ⟨commits, -⟩ := h replayDueState 0 0 (by decide)
  obtain ⟨commit, -⟩ := commits (plainForme []) (by decide) rfl
  obtain ⟨t, run, -, -, replay, -⟩ := commit (by decide) (by decide) (by decide) (by decide)
  exact absurd (replay.symm.trans (replayDueState_committed run)) (by decide)

end Sys2Proof.Machine

/-!
# The mirror between the members of a pair (R229, R376 to R382)
-/

namespace Sys2Proof.Machine

/-! ## Bytes of a write in chase memory (R158) -/

section
variable {s t u : State} {fs : List Field} {as : List Area} {ps : List Part}

theorem State.writeMem_changes (s : State) (c a : Nat) (bs : List Byte) : changes [] [.mem] s (s.writeMem c a bs) :=
  changes_of_moves (Moves.writeMem c a bs (by decide) (Moves.refl s))

/-- A write leaves every byte that none of its addresses names. -/
theorem State.get_writeMem_outside {c a x : Nat} {bs : List Byte} (hs : s.mem.wf = true)
    (hx : ∀ i < bs.length, x ≠ s.memCell c (a + i)) : (s.writeMem c a bs).mem.get x = s.mem.get x := by
  induction bs generalizing s a with
  | nil => rfl
  | cons b r ih =>
    have rest : ∀ i < r.length, x ≠ s.memCell c (a + 1 + i) := fun i hi => by
      have far := hx (i + 1) (Nat.succ_lt_succ hi)
      rwa [show a + (i + 1) = a + 1 + i by omega] at far
    have first : x ≠ s.memCell c a := hx 0 (Nat.succ_pos _)
    exact (ih (s := { s with mem := s.mem.set (s.memCell c a) b }) (Memory.wf_set _ _ _ hs) rest).trans
      ((Memory.get_set _ _ _ _ hs).trans (if_neg first))

/-! ## What the pair's conditions read -/

theorem touches_of_changes (h : changes fs ps s t) (hf : ∀ g ∈ fs, g.area ∈ as) : touches as ps s t :=
  ⟨fun g i j hg => h.1 g i j fun hm => hg (hf g hm), h.2⟩

theorem touches.trans (h : touches as ps s t) (h' : touches as ps t u) : touches as ps s u :=
  ⟨fun g i j hg => (h'.1 g i j hg).trans (h.1 g i j hg), fun q hq => Part.same_trans (h.2 q hq) (h'.2 q hq)⟩

theorem touches_stamp (s : State) (u : Nat) : touches [.tick] [] s (s.stamp u) :=
  touches_of_changes (s.stamp_time u) (by decide)

@[simp] theorem State.role_stamp (s : State) (u : Nat) : (s.stamp u).role = s.role :=
  State.rd_stamp _ _ _ _ _ (by decide)

@[simp] theorem State.mirroredFormes_stamp (s : State) (u : Nat) : (s.stamp u).mirroredFormes = s.mirroredFormes := by
  simp [State.mirroredFormes]

theorem State.linkOpen_stamp (s : State) (u n : Nat) : (s.stamp u).linkOpen n = s.linkOpen n := by
  simp (disch := decide) only [State.linkOpen, State.endState, State.lState, State.link_stamp, State.rd_stamp]
  rfl

theorem lState_of_touches (h : touches as ps s t) (lnk : .lnk ∉ as) (q : Nat) : t.lState q = s.lState q :=
  h.1 .lnkStatusState _ _ lnk

theorem isPairPort_of_touches (h : touches as ps s t) (fab : .fab ∉ as) (active : .active ∉ ps) (q : Nat) :
    t.isPairPort q = s.isPairPort q := by
  have same : t.active = s.active := h.2 .active active
  have identity : t.identity = s.identity := h.1 .fabIdentityIdentity _ _ fab
  simp only [State.isPairPort, State.portRec, same, identity]

theorem mirrorPort_of_touches (h : touches as ps s t) (lnk : .lnk ∉ as) (fab : .fab ∉ as) (active : .active ∉ ps)
    (x : Forme) : t.mirrorPort x = s.mirrorPort x := by
  simp only [State.mirrorPort, isPairPort_of_touches h fab active, lState_of_touches h lnk]

/-! ## WRITE (R378) -/

theorem execMirrorWrite_idle {n f c : Nat} (hn : n < 32) (hf : f < 16) (hc : c < 4) (addr e : Nat) (d : List Byte)
    (h : s.role ≠ rStandby) : execMirrorWrite n f c addr e d s = .next s := by
  simp [execMirrorWrite, hn, hf, hc, h]

theorem execMirrorWrite_owned {n f c addr : Nat} (hn : n < 32) (hf : f < 16) (hc : c < 4) (e : Nat) {d : List Byte}
    {x : Forme} (h : s.role = rStandby) (hx : (s.mirroredFormes.find? fun x => x.number = f) = some x)
    (owns : s.mirrorOwns x c addr d.length = true) :
    execMirrorWrite n f c addr e d s = .next ((s.writeMem c addr d).noteMirror f c addr d.length) := by
  simp [execMirrorWrite, hn, hf, hc, h, hx, owns]

theorem execMirrorWrite_bad {n f c addr : Nat} (hn : n < 32) (hf : f < 16) (hc : c < 4) (e : Nat) {d : List Byte}
    (h : s.role = rStandby)
    (bad : ∀ x, (s.mirroredFormes.find? fun x => x.number = f) = some x → s.mirrorOwns x c addr d.length = false) :
    execMirrorWrite n f c addr e d s = .next (s.bump .pairCountsBadWrites 0 0 1) := by
  cases hx : s.mirroredFormes.find? fun x => x.number = f with
  | none => simp [execMirrorWrite, hn, hf, hc, h, hx]
  | some x => simp [execMirrorWrite, hn, hf, hc, h, hx, bad x hx]

theorem State.mem_noteMirror {f c a n : Nat} :
    (∀ k < (n + 63) / 64, (f, c, a + 64 * k) ∈ (s.noteMirror f c a n).mirrorGot) ∧
    ∀ x ∈ s.mirrorGot, x ∈ (s.noteMirror f c a n).mirrorGot := by
  refine ⟨fun k hk => ?_, fun x hx => List.mem_append_left _ hx⟩
  by_cases had : (f, c, a + 64 * k) ∈ s.mirrorGot
  · exact List.mem_append_left _ had
  · refine List.mem_append_right _ (List.mem_filter.mpr ⟨List.mem_map.mpr ⟨k, List.mem_range.mpr hk, rfl⟩, ?_⟩)
    simpa using had

theorem State.noteMirror_changes (s : State) (f c a n : Nat) : changes [] [.mirrorGot] s (s.noteMirror f c a n) :=
  (changes.refl s).parts rfl fun q hq => by cases q <;> first | rfl | exact absurd (by decide) hq

theorem mirrorWrite_stores {n f c addr : Nat} (hn : n < 32) (hf : f < 16) (hc : c < 4) (e : Nat) {d : List Byte}
    {x : Forme} (h : s.role = rStandby) (hx : (s.mirroredFormes.find? fun x => x.number = f) = some x)
    (owns : s.mirrorOwns x c addr d.length = true) : ∃ t, Runs (.mirrorWrite n f c addr e d) s t ∧
      t.mem = (s.writeMem c addr d).mem ∧
      (∀ k < (d.length + 63) / 64, (f, c, addr + 64 * k) ∈ t.mirrorGot) ∧
      (∀ x ∈ s.mirrorGot, x ∈ t.mirrorGot) ∧
      (s.inv = true → ∀ a, (∀ i < d.length, a ≠ s.memCell c (addr + i)) → t.mem.get a = s.mem.get a) ∧
      changes [] [.mem, .mirrorGot] s t := by
  have written := s.writeMem_changes c addr d
  obtain ⟨noted, kept⟩ := (s.writeMem c addr d).mem_noteMirror (f := f) (c := c) (a := addr) (n := d.length)
  have got : (s.writeMem c addr d).mirrorGot = s.mirrorGot := written.2 .mirrorGot (by decide)
  refine ⟨_, execMirrorWrite_owned hn hf hc e h hx owns, rfl, noted, fun x hx => kept x (got ▸ hx), fun hs a ha => ?_,
    (written.mono (by decide) (by decide)).trans ((State.noteMirror_changes _ _ _ _ _).mono (by decide) (by decide))⟩
  obtain ⟨-, wf, -⟩ := (State.inv_iff s).mp hs
  exact State.get_writeMem_outside wf ha

theorem mirrorWrite_counts {n f c addr : Nat} (hn : n < 32) (hf : f < 16) (hc : c < 4) (e : Nat) {d : List Byte}
    (h : s.role = rStandby)
    (bad : ∀ x, (s.mirroredFormes.find? fun x => x.number = f) = some x → s.mirrorOwns x c addr d.length = false) :
    ∃ t, Runs (.mirrorWrite n f c addr e d) s t ∧
      t.rd .pairCountsBadWrites 0 0 = min 65535 (s.rd .pairCountsBadWrites 0 0 + 1) ∧
      changes [.pairCountsBadWrites] [] s t :=
  ⟨_, execMirrorWrite_bad hn hf hc e h bad, State.rd_bump_same _ _ _ _ _ (by decide),
    (changes.refl s).bump _ _ _ _ (by decide)⟩

/-! ## BASES (R377, R378) -/

/-- BASES entries of an edition held beside the others, in the places of those that they repeat. -/
def State.basesHeld (s : State) (f e : Nat) (es : List BaseEntry) : State :=
  { s with bases := (s.bases.filter fun b => b.1 != f || b.2.1 != e || !(es.any fun e => e.port = b.2.2.port)) ++
      es.map fun x => (f, e, x) }

theorem exec_mirrorBases {n f : Nat} (hn : n < 32) (hf : f < 16) (e : Nat) (es : List BaseEntry) :
    execMirrorBases n f e es s = .next (if s.role = rStandby then s.basesHeld f e es else s) := by
  rw [execMirrorBases, if_pos (by simp [hn, hf])]
  split <;> rfl

theorem State.basesHeld_spec (s : State) (f e : Nat) (es : List BaseEntry) :
    (∀ x ∈ es, (f, e, x) ∈ (s.basesHeld f e es).bases) ∧
    (∀ x ∈ s.bases, x.1 ≠ f ∨ x.2.1 ≠ e → x ∈ (s.basesHeld f e es).bases) ∧
    changes [] [.bases] s (s.basesHeld f e es) := by
  refine ⟨fun x hx => List.mem_append_right _ (List.mem_map.mpr ⟨x, hx, rfl⟩), fun x hx other => ?_,
    (changes.refl s).parts rfl fun q hq => by cases q <;> first | rfl | exact absurd (by decide) hq⟩
  refine List.mem_append_left _ (List.mem_filter.mpr ⟨hx, ?_⟩)
  rcases other with other | other <;> simp [other]

theorem mirrorBases_runs {n f : Nat} (hn : n < 32) (hf : f < 16) (e : Nat) (es : List BaseEntry) :
    (s.role = rStandby → ∃ t, Runs (.mirrorBases n f e es) s t ∧ (∀ x ∈ es, (f, e, x) ∈ t.bases) ∧
      (∀ x ∈ s.bases, x.1 ≠ f ∨ x.2.1 ≠ e → x ∈ t.bases) ∧ changes [] [.bases] s t) ∧
    (s.role ≠ rStandby → Runs (.mirrorBases n f e es) s s) := by
  have run := exec_mirrorBases (s := s) hn hf e es
  exact ⟨fun standby => ⟨_, run.trans (by rw [if_pos standby]), s.basesHeld_spec f e es⟩,
    fun other => run.trans (by rw [if_neg other])⟩

/-! ## RECORD (R378, R379, R382) -/

/-- The numbers of a record that a standby stores. -/
def recordFields : List Field := [.pairFormeSync, .pairFormeEdition, .pairCountsResyncs]

/-- The log and the BASES entries as a record that is stored leaves them. -/
def State.recordLogged (s : State) (f : Nat) (r : CkptRecord) : State :=
  { s with log := r :: s.log, bases := s.bases.filter fun b => b.1 != f || b.2.1 = r.edition % 2 ^ 32 }

/-- A whole copy makes its forme SYNCED. -/
def State.syncedBy (s : State) (x : Forme) (e : Nat) : State :=
  if s.rd .pairFormeSync 0 x.number != 1 && s.gotWhole x e then
    (s.bump .pairCountsResyncs 0 0 1).wr .pairFormeSync 0 x.number 1 else s

theorem State.storeRecord_eq (s : State) (x : Forme) (r : CkptRecord) : s.storeRecord x r =
    ((s.recordLogged x.number r).syncedBy x r.edition).wr .pairFormeEdition 0 x.number r.edition := rfl

theorem State.recordLogged_changes (s : State) (f : Nat) (r : CkptRecord) :
    changes [] [.log, .bases] s (s.recordLogged f r) :=
  (changes.refl s).parts rfl fun q hq => by cases q <;> first | rfl | exact absurd (by decide) hq

theorem State.syncedBy_changes (s : State) (x : Forme) (e : Nat) : changes recordFields [] s (s.syncedBy x e) :=
  .ite (fun _ => ((changes.refl s).bump _ _ _ _ (by decide)).wr _ _ _ _ (by decide)) fun _ => .refl s

theorem State.storeRecord_changes (s : State) (x : Forme) (r : CkptRecord) :
    changes recordFields [.log, .bases] s (s.storeRecord x r) :=
  (((s.recordLogged_changes x.number r).mono (by decide) (by decide)).trans
    ((State.syncedBy_changes _ x _).mono (List.Subset.refl _) (by decide))).wr _ _ _ _ (by decide)

/-- A forme is SYNCED after a whole copy, and after anything else as it was. -/
theorem State.syncedBy_rd (s : State) (x : Forme) (e : Nat) :
    (s.gotWhole x e = true → (s.syncedBy x e).rd .pairFormeSync 0 x.number = 1 ∧
      (s.rd .pairFormeSync 0 x.number ≠ 1 →
        (s.syncedBy x e).rd .pairCountsResyncs 0 0 = min 65535 (s.rd .pairCountsResyncs 0 0 + 1))) ∧
    (s.gotWhole x e = false → (s.syncedBy x e).rd .pairFormeSync 0 x.number = s.rd .pairFormeSync 0 x.number) := by
  unfold State.syncedBy
  refine ⟨fun whole => ?_, fun part => by simp [part]⟩
  by_cases synced : s.rd .pairFormeSync 0 x.number = 1
  · simp [synced]
  · have counted : (s.bump .pairCountsResyncs 0 0 1).rd .pairCountsResyncs 0 0 =
        min 65535 (s.rd .pairCountsResyncs 0 0 + 1) := State.rd_bump_same _ _ _ _ _ (by decide)
    rw [if_pos (by simp [synced, whole])]
    exact ⟨State.rd_wr_same .., fun _ => (State.rd_wr_ne _ _ _ _ _ _ _ _ (by decide)).trans counted⟩

/-- What a record that is stored shows (R378, R381, R382). -/
theorem State.storeRecord_spec (s : State) (x : Forme) (r : CkptRecord) :
    let t := s.storeRecord x r
    t.log = r :: s.log ∧ t.rd .pairFormeEdition 0 x.number = r.edition % 2 ^ 48 ∧
    (∀ y ∈ s.bases, y.1 ≠ x.number ∨ y.2.1 = r.edition % 2 ^ 32 → y ∈ t.bases) ∧
    (∀ y ∈ t.bases, y ∈ s.bases ∧ (y.1 = x.number → y.2.1 = r.edition % 2 ^ 32)) ∧
    (s.gotWhole x r.edition = true → t.rd .pairFormeSync 0 x.number = 1 ∧ (s.rd .pairFormeSync 0 x.number ≠ 1 →
      t.rd .pairCountsResyncs 0 0 = min 65535 (s.rd .pairCountsResyncs 0 0 + 1))) ∧
    (s.gotWhole x r.edition = false → t.rd .pairFormeSync 0 x.number = s.rd .pairFormeSync 0 x.number) := by
  intro t
  have synced := (s.recordLogged x.number r).syncedBy_changes x r.edition
  obtain ⟨whole, part⟩ := (s.recordLogged x.number r).syncedBy_rd x r.edition
  have shown (g : Field) (i j : Nat) (hg : g ≠ .pairFormeEdition) :
      t.rd g i j = ((s.recordLogged x.number r).syncedBy x r.edition).rd g i j :=
    State.rd_wr_ne _ _ _ _ _ _ _ _ hg.symm
  have bases : t.bases = (s.recordLogged x.number r).bases := synced.2 .bases (by decide)
  have mem_bases (y) : y ∈ t.bases ↔ y ∈ s.bases ∧ (y.1 ≠ x.number ∨ y.2.1 = r.edition % 2 ^ 32) := by
    rw [bases]
    simp [State.recordLogged]
  refine ⟨synced.2 .log (by decide), State.rd_wr_same .., fun y hy keep => (mem_bases y).mpr ⟨hy, keep⟩,
    fun y hy => ?_, fun copied => ?_, fun copied => (shown _ _ _ (by decide)).trans (part copied)⟩
  case refine_2 =>
    obtain ⟨sync, count⟩ := whole copied
    exact ⟨(shown _ _ _ (by decide)).trans sync, fun first => (shown _ _ _ (by decide)).trans (count first)⟩
  obtain ⟨old, keep⟩ := (mem_bases y).mp hy
  exact ⟨old, fun same => keep.resolve_left fun other => other same⟩

/-- A standby stores the record of a mirrored forme that it does not hold yet. -/
def State.recordKept (s : State) (f : Nat) (r : CkptRecord) : State :=
  match s.mirroredFormes.find? fun x => x.number = f with
  | some x =>
    if (s.log.find? fun x => x.forme = f).map CkptRecord.edition = some r.edition then s else s.storeRecord x r
  | none => s

/-- It forgets what it was sent before the record, and answers. -/
def State.recordAnswered (s : State) (n f : Nat) (r : CkptRecord) : State :=
  ({ s with mirrorGot := s.mirrorGot.filter fun e => e.1 != f } : State).sendByp n 0x93
    (f * 2 ^ 28 + r.edition % 2 ^ 28) 0

theorem exec_mirrorRecord {n f : Nat} (hn : n < 32) (hf : f < 16) (r : CkptRecord) (u : Nat) :
    execMirrorRecord n f r u s = .next (if s.role = rStandby then ((s.stamp u).recordKept f r).recordAnswered n f r
      else s.stamp u) := by
  rw [execMirrorRecord, if_pos (by simp [hn, hf])]
  dsimp only
  rw [State.role_stamp]
  split <;> rfl

theorem State.recordAnswered_changes (s : State) (n f : Nat) (r : CkptRecord) :
    changes [] [.links, .mirrorGot] s (s.recordAnswered n f r) := by
  unfold State.recordAnswered State.sendByp
  refine changes.setLink _ _ (by decide) ?_
  exact (changes.refl s).parts rfl fun q hq => by cases q <;> first | rfl | exact absurd (by decide) hq

theorem State.recordAnswered_spec (s : State) (n f : Nat) (r : CkptRecord) :
    let t := s.recordAnswered n f r
    t.log = s.log ∧ t.bases = s.bases ∧ (∀ g i j, t.rd g i j = s.rd g i j) ∧
    t.mirrorGot = s.mirrorGot.filter (fun e => e.1 ≠ f) ∧
    (t.link n).bypQ = (s.link n).bypQ ++ [⟨0x93, f * 2 ^ 28 + r.edition % 2 ^ 28, 0⟩] := by
  refine ⟨rfl, rfl, fun _ _ _ => rfl, ?_, ?_⟩
  · simp [State.recordAnswered, State.sendByp, State.setLink, bne, beq_eq_decide]
  · simp only [State.recordAnswered, State.sendByp, State.link_setLink, if_pos]
    rfl

theorem State.recordKept_changes (s : State) (f : Nat) (r : CkptRecord) :
    changes recordFields [.log, .bases] s (s.recordKept f r) := by
  unfold State.recordKept
  split
  next x _ => exact .ite (fun _ => .refl s) fun _ => s.storeRecord_changes x r
  next => exact .refl s

theorem gotWhole_stamp (s : State) (u : Nat) (x : Forme) (e : Nat) : (s.stamp u).gotWhole x e = s.gotWhole x e := by
  simp (disch := decide) only [State.gotWhole, State.sharedRegions, State.gotBands, State.on, State.rd_stamp,
    State.stamp_mirrorGot]

theorem mirrorRecord_runs {n f : Nat} (hn : n < 32) (hf : f < 16) (r : CkptRecord) (u : Nat) :
    let had := (s.log.find? fun x => x.forme = f).map CkptRecord.edition = some r.edition
    (s.role = rStandby → ∃ t, Runs (.mirrorRecord n f r u) s t ∧ (had → t.log = s.log) ∧
      (¬had → ∀ x, (s.mirroredFormes.find? fun x => x.number = f) = some x → t.log = r :: s.log ∧
        t.rd .pairFormeEdition 0 f = r.edition % 2 ^ 48 ∧
        (∀ y ∈ s.bases, y.1 ≠ f ∨ y.2.1 = r.edition % 2 ^ 32 → y ∈ t.bases) ∧
        (∀ y ∈ t.bases, y ∈ s.bases ∧ (y.1 = f → y.2.1 = r.edition % 2 ^ 32)) ∧
        (s.gotWhole x r.edition = true → t.rd .pairFormeSync 0 f = 1 ∧ (s.rd .pairFormeSync 0 f ≠ 1 →
          t.rd .pairCountsResyncs 0 0 = min 65535 (s.rd .pairCountsResyncs 0 0 + 1))) ∧
        (s.gotWhole x r.edition = false → t.rd .pairFormeSync 0 f = s.rd .pairFormeSync 0 f)) ∧
      ((s.mirroredFormes.find? fun x => x.number = f) = none → t.log = s.log) ∧
      t.mirrorGot = s.mirrorGot.filter (fun e => e.1 ≠ f) ∧
      (t.link n).bypQ = (s.link n).bypQ ++ [⟨0x93, f * 2 ^ 28 + r.edition % 2 ^ 28, 0⟩] ∧
      changes (recordFields ++ timeFields) [.log, .links, .bases, .mirrorGot] s t) ∧
    (s.role ≠ rStandby → quietly (.mirrorRecord n f r u) s) := by
  intro had
  have run := exec_mirrorRecord (s := s) hn hf r u
  refine ⟨fun standby => ?_, fun other => ⟨_, run.trans (by rw [if_neg other]), s.stamp_time u⟩⟩
  obtain ⟨log, bases, rd, got, bypQ⟩ := ((s.stamp u).recordKept f r).recordAnswered_spec n f r
  have kept := (s.stamp u).recordKept_changes f r
  have links : ((s.stamp u).recordKept f r).link n = s.link n := by
    rw [State.link, kept.2 .links (by decide)]
    exact State.link_stamp s u n
  have old : ((s.stamp u).recordKept f r).mirrorGot = s.mirrorGot :=
    (kept.2 .mirrorGot (by decide)).trans (State.stamp_mirrorGot s u)
  refine ⟨_, run.trans (by rw [if_pos standby]), fun again => ?_, fun first x hx => ?_, fun none => ?_, old ▸ got,
    links ▸ bypQ, ?_⟩
  case refine_1 =>
    have same : (s.stamp u).recordKept f r = s.stamp u := by
      unfold State.recordKept
      split
      · exact if_pos (by rw [State.stamp_log]; exact again)
      · rfl
    rw [log, same, State.stamp_log]
  case refine_2 =>
    have number : x.number = f := by simpa using List.find?_some hx
    have stores : (s.stamp u).recordKept f r = (s.stamp u).storeRecord x r := by
      rw [State.recordKept, State.mirroredFormes_stamp, hx, State.stamp_log]
      exact if_neg first
    obtain ⟨logged, edition, keeps, held, whole, part⟩ := (s.stamp u).storeRecord_spec x r
    rw [gotWhole_stamp, number, State.rd_stamp _ _ _ _ _ (by decide)] at whole part
    rw [State.rd_stamp _ _ _ _ _ (by decide)] at whole
    rw [number] at edition keeps held
    rw [State.stamp_bases] at keeps held
    rw [log, bases, rd, rd, rd, stores]
    exact ⟨State.stamp_log s u ▸ logged, edition, keeps, held, whole, part⟩
  case refine_3 =>
    have same : (s.stamp u).recordKept f r = s.stamp u := by
      rw [State.recordKept, State.mirroredFormes_stamp, none]
    rw [log, same, State.stamp_log]
  case refine_4 =>
    exact (((s.stamp_time u).mono (by decide) (by decide)).trans (kept.mono (by decide) (by decide))).trans
      ((State.recordAnswered_changes _ n f r).mono (by decide) (by decide))

/-! ## Bypass messages heard (R299, R306, R366) -/

/-- The three acknowledgements that a bypass message carries. -/
def State.acked (s : State) (n : Nat) (b : Byp) : State :=
  ((s.ackRx n 0 b.ack0).ackRx n 1 b.ack1).ackRx n 2 b.ack2

theorem touches_acked (s : State) (n : Nat) (b : Byp) : touches [.fab, .gal, .lnk] [.links] s (s.acked n b) := by
  have one (v a : Nat) {w : State} (h : Moves [.fab, .gal, .lnk] [.links] s w) :=
    State.ackRx_moves w n v a (List.Subset.refl _) (List.Subset.refl _) h
  exact (one 2 _ (one 1 _ (one 0 _ (.refl s)))).1

/-- Nothing is acknowledged where nothing waits for it. -/
theorem State.acked_none {n : Nat} (h : (s.link n).unacked = []) (b : Byp) : s.acked n b = s := by
  have one (v a : Nat) : s.ackRx n v a = s := by simp [State.ackRx, h]
  rw [State.acked, one, one, one]

theorem State.quiesceCheck_none (n : Nat) (h : s.rd .fabStatusState 0 0 ≠ 3) : s.quiesceCheck n = s := by
  unfold State.quiesceCheck
  split
  · rfl
  · exact if_neg (by simp [h])

theorem touches_quiesceCheck (s : State) (n : Nat) : touches [.fab] [.links] s (s.quiesceCheck n) :=
  (State.quiesceCheck_moves s n (List.Subset.refl _) (List.Subset.refl _) (.refl s)).1

/-- A good bypass message at an end that carries them. -/
theorem byp_heard {n kind arg : Nat} {b : Byp} (hn : n < linkEnds) (up : s.linkOpen n = true)
    (crc : b.crcOk kind arg = true) (u : Nat) (run : State → State) :
    s.byp n b kind arg u run = .next ((run ((s.stamp u).acked n b)).quiesceCheck n) := by
  rw [State.byp, State.atEnd, if_pos hn, if_pos ((s.linkOpen_stamp u n).trans up), if_pos crc]
  rfl

/-! ## MIRROR_DONE (R229, R378, R379) -/

/-- What MIRROR_DONE for an edition does. -/
def State.mirrorAnswered (s : State) (f e : Nat) : State :=
  if s.role = rActive then
    if e % 2 ^ 28 = s.edition f % 2 ^ 28 then s.deltaDone f
    else if s.on .hFormePreSent 0 f && e % 2 ^ 28 = (s.edition f - 1) % 2 ^ 28 then s.batchAcked f
    else s
  else s

theorem exec_mirrorDone {n f e : Nat} {b : Byp} (hn : n < 32) (hf : f < 16) (up : s.linkOpen n = true)
    (crc : b.crcOk 0x93 (f * 2 ^ 28 + e) = true) (u : Nat) : execMirrorDone n b f e u s =
      .next ((((s.stamp u).acked n b).mirrorAnswered f e).quiesceCheck n) := by
  have ends : n < linkEnds := Nat.lt_of_lt_of_le hn (by decide)
  rw [execMirrorDone, byp_heard ends up crc]
  simp [State.mirrorAnswered, hn, hf]

theorem State.deltaDone_rd (s : State) (f : Nat) :
    (s.deltaDone f).rd .hFormeMirrorDone 0 f = 1 ∧ (s.deltaDone f).rd .pairFormeSync 0 f = 1 ∧
      (s.deltaDone f).rd .pairFormeEdition 0 f = s.edition f % 2 ^ 48 := by
  unfold State.deltaDone
  dsimp only
  split <;> refine ⟨?_, ?_, ?_⟩ <;>
    simp (disch := decide) only [State.rd_wr_ne, State.rd_bump_ne, State.rd_wr_same] <;> rfl

theorem State.batchAcked_rd (s : State) (f : Nat) : (s.batchAcked f).rd .hFormePreDone 0 f = 1 := by
  unfold State.batchAcked
  dsimp only
  split
  · rw [State.rd_wr_ne _ _ _ _ _ _ _ _ (by decide), State.rd_wr_same]; rfl
  · exact State.rd_wr_same ..

/-- The forme's numbers and the role before the answer is taken. -/
theorem State.heard_rd (s : State) (n u : Nat) (b : Byp) :
    ((s.stamp u).acked n b).role = s.role ∧ (∀ f, ((s.stamp u).acked n b).edition f = s.edition f) ∧
      ∀ f, ((s.stamp u).acked n b).on .hFormePreSent 0 f = s.on .hFormePreSent 0 f := by
  have rd (g : Field) (i j : Nat) (hg : g.area ∉ [Area.tick, .fab, .gal, .lnk]) :
      ((s.stamp u).acked n b).rd g i j = s.rd g i j :=
    ((touches_acked (s.stamp u) n b).1 g i j fun h => hg (List.mem_cons_of_mem _ h)).trans
      ((touches_stamp s u).1 g i j fun h => hg (by rw [List.mem_singleton.mp h]; decide))
  exact ⟨rd _ _ _ (by decide), fun f => congrArg (· + 1) (rd _ _ _ (by decide)),
    fun f => by simp only [State.on, rd .hFormePreSent 0 f (by decide)]⟩

theorem mirrorDone_touches {n f e u : Nat} {b : Byp} {t : State} (h : Runs (.mirrorDone n b f e u) s t) :
    touches [.tick, .forme, .fab, .pair, .gal, .lnk] [.links] s t :=
  (execMirrorDone_moves n b f e u s (List.Subset.refl _) (List.Subset.refl _) (.refl s) t h).1

theorem mirrorDone_runs {n f e : Nat} {b : Byp} (hn : n < 32) (hf : f < 16) (up : s.linkOpen n = true)
    (crc : b.crcOk 0x93 (f * 2 ^ 28 + e) = true) (u : Nat) :
    let closing := s.role = rActive ∧ e % 2 ^ 28 = s.edition f % 2 ^ 28
    let batch := s.role = rActive ∧ s.rd .hFormePreSent 0 f = 1 ∧ e % 2 ^ 28 = (s.edition f - 1) % 2 ^ 28
    (closing → ∃ t, Runs (.mirrorDone n b f e u) s t ∧ t.rd .hFormeMirrorDone 0 f = 1 ∧
      t.rd .pairFormeSync 0 f = 1 ∧ t.rd .pairFormeEdition 0 f = s.edition f % 2 ^ 48 ∧
      touches [.tick, .forme, .fab, .pair, .gal, .lnk] [.links] s t) ∧
    (¬closing → batch → ∃ t, Runs (.mirrorDone n b f e u) s t ∧ t.rd .hFormePreDone 0 f = 1 ∧
      touches [.tick, .forme, .fab, .pair, .gal, .lnk] [.links] s t) ∧
    (¬closing → ¬batch → (s.link n).unacked = [] → s.rd .fabStatusState 0 0 ≠ 3 →
      quietly (.mirrorDone n b f e u) s) := by
  intro closing batch
  have run := exec_mirrorDone hn hf up crc u
  obtain ⟨role, edition, sent⟩ := s.heard_rd n u b
  have shown (w : State) (g : Field) (i j : Nat) (hg : g.area ∉ [Area.fab]) :
      (w.quiesceCheck n).rd g i j = w.rd g i j :=
    (touches_quiesceCheck w n).1 g i j hg
  refine ⟨fun close => ?_, fun open_ last => ?_, fun open_ other unacked calm => ?_⟩
  case refine_1 =>
    obtain ⟨active, same⟩ := close
    have answer : ((s.stamp u).acked n b).mirrorAnswered f e = ((s.stamp u).acked n b).deltaDone f := by
      rw [State.mirrorAnswered, if_pos (role.trans active), if_pos ((edition f).symm ▸ same)]
    obtain ⟨done, sync, shows⟩ := ((s.stamp u).acked n b).deltaDone_rd f
    rw [answer] at run
    rw [edition] at shows
    exact ⟨_, run, (shown _ _ _ _ (by decide)).trans done, (shown _ _ _ _ (by decide)).trans sync,
      (shown _ _ _ _ (by decide)).trans shows, mirrorDone_touches run⟩
  case refine_2 =>
    obtain ⟨active, presend, same⟩ := last
    have answer : ((s.stamp u).acked n b).mirrorAnswered f e = ((s.stamp u).acked n b).batchAcked f := by
      have differs : ¬e % 2 ^ 28 = s.edition f % 2 ^ 28 := fun h => open_ ⟨active, h⟩
      rw [State.mirrorAnswered, if_pos (role.trans active), edition, if_neg differs, sent, if_pos]
      simp only [State.on, presend, same, decide_true, Bool.and_self]
    rw [answer] at run
    exact ⟨_, run, (shown _ _ _ _ (by decide)).trans (State.batchAcked_rd _ f), mirrorDone_touches run⟩
  case refine_3 =>
    have idle : (s.stamp u).mirrorAnswered f e = s.stamp u := by
      obtain ⟨role', edition', sent'⟩ := s.heard_rd n u b
      rw [State.acked_none (by rwa [State.link_stamp])] at role' edition' sent'
      unfold State.mirrorAnswered
      rw [role', edition', sent']
      split
      next active =>
        rw [if_neg fun h => open_ ⟨active, h⟩, if_neg]
        simp only [State.on, Bool.and_eq_true, decide_eq_true_eq]
        exact fun h => other ⟨active, h⟩
      next => rfl
    rw [State.acked_none (by rwa [State.link_stamp]), idle, State.quiesceCheck_none] at run
    · exact ⟨_, run, s.stamp_time u⟩
    · rwa [State.rd_stamp _ _ _ _ _ (by decide)]

/-! ## Losses of protection (R381) -/

/-- What a refresh does for one mirrored forme before it looks at the grace. -/
def State.refreshDrops (s : State) (f : Forme) : State :=
  let s := s.wr .pairFormePairPort 0 f.number ((s.mirrorPort f).getD 31)
  if s.protectionOf f = 5 then (s.wr .hPairResyncDue 0 f.number 1).dropMirror f else s

/-- What a refresh does for one mirrored forme. -/
def State.refreshForme (s : State) (f : Forme) : State :=
  if ((s.refreshDrops f).mirrorPort f).isSome then (s.refreshDrops f).wr .hPairGraceOver 0 f.number 0
  else s.refreshDrops f

theorem State.refreshPair_rd (s : State) {g : Field} (hp : g ≠ .pairStatusProtection) (he : g ≠ .coreIrqEventsPair)
    (i j : Nat) : s.refreshPair.rd g i j = (s.each s.mirroredFormes State.refreshForme).rd g i j := by
  unfold State.refreshPair
  dsimp only
  split
  · rfl
  · rw [State.rd_wr_ne _ _ _ _ _ _ _ _ he.symm, State.rd_wr_ne _ _ _ _ _ _ _ _ hp.symm]
    rfl

theorem touches_refreshDrops (s : State) (f : Forme) : touches [.forme, .pair] [.links] s (s.refreshDrops f) := by
  unfold State.refreshDrops
  dsimp only
  have shown : Moves [.forme, .pair] [.links] s (s.wr .pairFormePairPort 0 f.number ((s.mirrorPort f).getD 31)) :=
    (Moves.refl s).wr _ _ _ _ (by decide)
  split
  · exact (State.dropMirror_moves _ f (by decide) (by decide) (shown.wr _ _ _ _ (by decide))).1
  · exact shown.1

theorem State.refreshDrops_grace (s : State) (x : Forme) (f : Nat) :
    (s.refreshDrops x).rd .hPairGraceOver 0 f = s.rd .hPairGraceOver 0 f := by
  unfold State.refreshDrops
  dsimp only
  split
  · rw [(State.dropMirror_moves _ x (List.Subset.refl _) (List.Subset.refl _) (.refl _)).1.1 _ _ _ (by decide),
      State.rd_wr_ne _ _ _ _ _ _ _ _ (by decide), State.rd_wr_ne _ _ _ _ _ _ _ _ (by decide)]
  · exact State.rd_wr_ne _ _ _ _ _ _ _ _ (by decide)

theorem touches_refreshForme (s : State) (f : Forme) : touches [.forme, .pair] [.links] s (s.refreshForme f) := by
  unfold State.refreshForme
  split
  · have graced : touches [.forme, .pair] [.links] (s.refreshDrops f)
        ((s.refreshDrops f).wr .hPairGraceOver 0 f.number 0) :=
      touches_of_changes ((changes.refl _).wr (fs := [.hPairGraceOver]) _ _ _ _ (by decide)) (by decide)
    exact (touches_refreshDrops s f).trans graced
  · exact touches_refreshDrops s f

/-- A refresh for a forme without a port, or for another, leaves forme f's grace. -/
theorem State.refreshForme_grace {x : Forme} {f : Nat} (h : x.number = f → s.mirrorPort x = none) :
    (s.refreshForme x).rd .hPairGraceOver 0 f = s.rd .hPairGraceOver 0 f := by
  have port := mirrorPort_of_touches (touches_refreshDrops s x) (by decide) (by decide) (by decide) x
  unfold State.refreshForme
  split
  next has =>
    have other : x.number ≠ f := fun same => by simp [port, h same] at has
    rw [State.rd_wr, if_neg fun he => other he.2.2, State.refreshDrops_grace]
  next => exact s.refreshDrops_grace x f

/-- A grace that has ended stays so while the forme has no port (R381). -/
theorem State.refreshForme_each_grace {l : List Forme} {f : Nat} (h : ∀ x ∈ l, x.number = f → s.mirrorPort x = none) :
    (s.each l State.refreshForme).rd .hPairGraceOver 0 f = s.rd .hPairGraceOver 0 f := by
  induction l generalizing s with
  | nil => rfl
  | cons x l ih =>
    have port := mirrorPort_of_touches (touches_refreshForme s x) (by decide) (by decide) (by decide)
    exact (ih fun y hy same => (port y).trans (h y (List.mem_cons_of_mem _ hy) same)).trans
      (State.refreshForme_grace (h x (List.mem_cons_self ..)))

theorem mirrorPort_stamp (s : State) (u : Nat) (x : Forme) : (s.stamp u).mirrorPort x = s.mirrorPort x :=
  mirrorPort_of_touches (touches_stamp s u) (by decide) (by decide) (by decide) x

theorem graceExpired_ends {f : Nat} (hf : f < 16) (u : Nat) (active : s.role = rActive)
    (mirrored : ∃ x ∈ s.mirroredFormes, x.number = f)
    (dark : ∀ x ∈ s.mirroredFormes, x.number = f → s.mirrorPort x = none) :
    ∃ t, Runs (.graceExpired f u) s t ∧ t.rd .hPairGraceOver 0 f = 1 ∧
      touches [.tick, .forme, .pair, .irq, .events] [.links] s t := by
  obtain ⟨x, found⟩ : ∃ x, (s.mirroredFormes.find? fun x => x.number = f) = some x := by
    obtain ⟨x, hx, number⟩ := mirrored
    exact Option.isSome_iff_exists.mp (List.find?_isSome.mpr ⟨x, hx, by simpa using number⟩)
  have none : s.mirrorPort x = none := dark x (List.mem_of_find?_eq_some found) (by simpa using List.find?_some found)
  have run : execGraceExpired f u s = .next ((s.stamp u).wr .hPairGraceOver 0 f 1).refreshPair.irqDeliver := by
    simp [execGraceExpired, hf, found, active, mirrorPort_stamp, none]
  have kept : touches [.tick, .pair] [] s ((s.stamp u).wr .hPairGraceOver 0 f 1) :=
    touches_of_changes (((s.stamp_time u).mono (fs := .hPairGraceOver :: timeFields) (by decide) (by decide)).wr _ _ _ _
      (by decide)) (by decide)
  have formes : ((s.stamp u).wr .hPairGraceOver 0 f 1).mirroredFormes = s.mirroredFormes := s.mirroredFormes_stamp u
  have still := State.refreshForme_each_grace (l := s.mirroredFormes) (f := f) fun y hy same =>
    (mirrorPort_of_touches kept (by decide) (by decide) (by decide) y).trans (dark y hy same)
  refine ⟨_, run, ?_,
    (execGraceExpired_moves f u s (List.Subset.refl _) (List.Subset.refl _) (.refl s) _ run).1⟩
  rw [State.rd_irqDeliver _ _ _ _ (by decide), State.refreshPair_rd _ (by decide) (by decide), formes, still,
    State.rd_wr_same]
  rfl

theorem graceExpired_quiet {f : Nat} (hf : f < 16) (u : Nat) (h : s.role ≠ rActive ∨
    ∀ x, (s.mirroredFormes.find? fun x => x.number = f) = some x → (s.mirrorPort x).isSome = true) :
    quietly (.graceExpired f u) s := by
  refine ⟨_, ?_, s.stamp_time u⟩
  show execGraceExpired f u s = _
  cases found : s.mirroredFormes.find? fun x => x.number = f with
  | none => simp [execGraceExpired, hf, found]
  | some x =>
    have holds : s.role = rActive → s.mirrorPort x ≠ none := fun active none => by
      have some := (h.resolve_left fun other => other active) x found
      simp [none] at some
    have refused : ¬((s.stamp u).role = rActive && ((s.stamp u).mirrorPort x).isNone) = true := by
      simpa [mirrorPort_stamp] using holds
    rw [execGraceExpired, if_pos hf]
    simp only [State.mirroredFormes_stamp, found]
    rw [if_neg refused]

/-! ### STANDBY_STALE -/

/-- Every unit of a list shows what was written for each. -/
theorem State.each_wr_const_rd {α : Type} {l : List α} (g : Field) (k : α → Nat) (v : Nat) {x : α} (hx : x ∈ l) :
    (s.each l fun s x => s.wr g 0 (k x) v).rd g 0 (k x) = g.fit v := by
  have keeps (l : List α) (w : State) (h : w.rd g 0 (k x) = g.fit v) :
      (w.each l fun s x => s.wr g 0 (k x) v).rd g 0 (k x) = g.fit v := by
    induction l generalizing w with
    | nil => exact h
    | cons a l ih =>
      refine ih _ ?_
      rw [State.rd_wr]
      split
      · rfl
      · exact h
  induction l generalizing s with
  | nil => exact nomatch hx
  | cons a l ih =>
    rcases List.mem_cons.mp hx with rfl | hx
    · exact keeps l _ (State.rd_wr_same ..)
    · exact ih hx

/-- A standby with no pair-link port UP. -/
def State.cutOff (s : State) : Prop := s.role = rStandby ∧ ∀ q < 32, s.isPairPort q = false ∨ s.lState q ≠ lUp

theorem exec_standbyStale (s : State) (u : Nat) [Decidable s.cutOff] : execStandbyStale u s = .next (if s.cutOff then
    (s.stamp u).each s.mirroredFormes fun s x => s.wr .pairFormeSync 0 x.number 2 else s.stamp u) := by
  have kept := touches_stamp s u
  have same : ((s.stamp u).role = rStandby && !((List.range 32).any fun q => (s.stamp u).isPairPort q &&
      (s.stamp u).lState q = lUp)) = true ↔ s.cutOff := by
    simp only [State.role_stamp, isPairPort_of_touches kept (by decide) (by decide), lState_of_touches kept (by decide)]
    simp [State.cutOff, imp_iff_not_or]
  unfold execStandbyStale
  dsimp only
  by_cases cut : s.cutOff
  · rw [if_pos (same.mpr cut), if_pos cut, State.mirroredFormes_stamp]
  · rw [if_neg fun h => cut (same.mp h), if_neg cut]

theorem standbyStale_runs (s : State) (u : Nat) :
    (s.cutOff → ∃ t, Runs (.standbyStale u) s t ∧ (∀ x ∈ s.mirroredFormes, t.rd .pairFormeSync 0 x.number = 2) ∧
      changes (.pairFormeSync :: timeFields) [] s t) ∧
    (¬s.cutOff → quietly (.standbyStale u) s) := by
  classical
  have run := exec_standbyStale s u
  refine ⟨fun cut => ⟨_, run.trans (by rw [if_pos cut]), fun x hx => ?_, ?_⟩,
    fun up => ⟨_, run.trans (by rw [if_neg up]), s.stamp_time u⟩⟩
  · exact State.each_wr_const_rd .pairFormeSync Forme.number 2 hx
  · exact changes.each _ _ (fun _ _ h => h.wr _ _ _ _ (by decide)) ((s.stamp_time u).mono (by decide) (by decide))

end

/-- Settles O43: the standby's stores one by one, MIRROR_DONE by what it does between the acknowledgements that every
bypass message carries and the look at a quiescing port, and the end of a grace by the refresh that follows it. -/
theorem mirroring : Obligations.Mirroring := by
  unfold Obligations.Mirroring
  intro s n f u hn hf
  obtain ⟨stale, connected⟩ := standbyStale_runs s u
  refine ⟨fun c addr e d hc => ⟨execMirrorWrite_idle hn hf hc addr e d, fun x standby found =>
      ⟨mirrorWrite_stores hn hf hc e standby found, fun outside => ?_⟩, fun standby none => ?_⟩,
    fun e es => mirrorBases_runs hn hf e es, fun r => mirrorRecord_runs hn hf r u,
    fun b e up crc => mirrorDone_runs hn hf up crc u, graceExpired_ends hf u, graceExpired_quiet hf u, stale, connected⟩
  · refine mirrorWrite_counts hn hf hc e standby fun y hy => ?_
    rwa [← Option.some.inj (found.symm.trans hy)]
  · exact mirrorWrite_counts hn hf hc e standby fun y hy => absurd (none.symm.trans hy) (by simp)

end Sys2Proof.Machine

/-!
# The flash, and what the supervisor commands (R429, R438, R456, R461, R466 to R472, R494)
-/

namespace Sys2Proof.Machine

section
variable {s t w : State} {u : Nat} {as : List Area} {fs : List Field} {ps : List Part}

/-! ## The write that starts (R438, R471) -/

theorem bit_setBit (x k : Nat) : bit (setBit x k) k = true := by
  unfold setBit
  cases h : bit x k
  · rw [bit_eq_testBit] at h
    rw [if_neg (by simp), bit_eq_testBit, Nat.add_comm, Nat.testBit_two_pow_add_eq, h]
    rfl
  · rwa [if_pos rfl]

theorem State.startFlash_changes (s : State) : changes [.hMapClear] [.repairMap, .flashQ] s s.startFlash := by
  unfold State.startFlash
  split
  · refine changes.wr _ _ _ _ (by decide) ?_
    exact (changes.refl s).parts rfl fun q hq => by cases q <;> first | rfl | exact absurd (by decide) hq
  · exact .refl s

/-- The map and the queue as the start of the next write leaves them, where the writes in l wait after it. -/
def nextStarts (s : State) (l : List FlashJob) (t : State) : Prop :=
  (∀ l', l = .map :: l' → t.rd .hMapClear 0 0 = 0 ∧ (∃ c, t.flashQ = .mapOf t.repairMap c :: l') ∧
    (s.rd .hMapClear 0 0 ≠ 1 → t.repairMap = s.repairMap) ∧
    (s.rd .hMapClear 0 0 = 1 → ∀ e ∈ t.repairMap, bit e.flags 1 = true)) ∧
  (l.head? ≠ some .map → t.flashQ = l ∧ t.repairMap = s.repairMap)

theorem State.startFlash_next (s : State) : nextStarts s s.flashQ s.startFlash := by
  refine ⟨fun l' hl => ?_, fun hl => ?_⟩
  case refine_1 =>
    unfold State.startFlash
    rw [hl]
    refine ⟨State.rd_wr_same .., ⟨_, rfl⟩, fun off => if_neg (by simpa [State.on] using off), fun on e he => ?_⟩
    rw [State.wr_repairMap, if_pos (by simp [State.on, on])] at he
    obtain ⟨x, -, rfl⟩ := List.mem_map.mp he
    exact bit_setBit ..
  case refine_2 =>
    have same : s.startFlash = s := by
      unfold State.startFlash
      split
      next l' h => exact absurd (by rw [h]; rfl) hl
      next => rfl
    rw [same]
    exact ⟨rfl, rfl⟩

/-- A state in which a flash write has ended, and no other numbers of the map or the queue have moved. -/
theorem nextStarts.congr {t' : State} {l : List FlashJob} (h : nextStarts w l t)
    (clear : w.rd .hMapClear 0 0 = s.rd .hMapClear 0 0) (map : w.repairMap = s.repairMap)
    (out : changes irqFields [] t t') : nextStarts s l t' := by
  have queue : t'.flashQ = t.flashQ := out.2 .flashQ (by decide)
  have repair : t'.repairMap = t.repairMap := out.2 .repairMap (by decide)
  have mark : t'.rd .hMapClear 0 0 = t.rd .hMapClear 0 0 := out.1 _ _ _ (by decide)
  unfold nextStarts at h ⊢
  rwa [queue, repair, mark, ← clear, ← map]

/-! ## The end of a write (R471) -/

/-- The module as the end of its first flash write finds it. -/
def State.dequeued (s : State) (l : List FlashJob) (u : Nat) : State := { s.stamp u with flashQ := l }

theorem State.dequeued_changes (s : State) (l : List FlashJob) (u : Nat) :
    changes timeFields [.flashQ] s (s.dequeued l u) :=
  ((s.stamp_time u).mono (List.Subset.refl _) (List.nil_subset _)).parts rfl fun q hq => by
    cases q <;> first | rfl | exact absurd (by decide) hq

theorem exec_flashWriteComplete {j : FlashJob} {l : List FlashJob} (h : s.flashQ = j :: l) (ok : Bool) (u : Nat) :
    execFlashWriteComplete ok u s = .next ((if ok then (s.dequeued l u).flashDone j u
      else (s.dequeued l u).flashFailed j).startFlash).irqDeliver := by
  unfold execFlashWriteComplete
  dsimp only
  rw [State.stamp_flashQ, h]
  rfl

theorem flashWriteComplete_quiet (h : s.flashQ = []) (ok : Bool) (u : Nat) : quietly (.flashWriteComplete ok u) s := by
  refine ⟨_, ?_, s.stamp_time u⟩
  show execFlashWriteComplete ok u s = _
  unfold execFlashWriteComplete
  dsimp only
  rw [State.stamp_flashQ, h]

/-- The numbers and parts that the start of the next write, and the interrupts, leave. -/
theorem State.started_changes (w : State) :
    changes (.hMapClear :: irqFields) [.repairMap, .flashQ] w w.startFlash.irqDeliver :=
  (w.startFlash_changes.mono (by decide) (by decide)).irqDeliver (by decide)

/-- The next write starts where what ended has moved neither the map nor the queue. -/
theorem started_next {l : List FlashJob} (h : changes fs ps (s.dequeued l u) w) (clear : .hMapClear ∉ fs)
    (queue : .flashQ ∉ ps) (map : .repairMap ∉ ps) : nextStarts s l w.startFlash.irqDeliver := by
  have taken := s.dequeued_changes l u
  have starts := w.startFlash_next
  rw [show w.flashQ = l from h.2 .flashQ queue] at starts
  exact starts.congr ((h.1 _ _ _ clear).trans (taken.1 _ _ _ (by decide)))
    ((h.2 .repairMap map).trans (taken.2 .repairMap (by decide))) ((changes.refl _).irqDeliver (List.Subset.refl _))

/-! ### What each write leaves -/

/-- A key request in hand is answered with a result. -/
def requestAnswered (s : State) (k : Nat) (t : State) : Prop :=
  s.rd .secReqStatusBusy 0 0 = 1 → t.rd .secReqStatusBusy 0 0 = 0 ∧ t.rd .secReqStatusResult 0 0 = k

theorem State.answerRequest_changes (s : State) (k : Nat) :
    changes [.secReqStatusBusy, .secReqStatusResult] [] s (s.answerRequest k) :=
  .ite (fun _ => ((changes.refl s).wr _ _ _ _ (by decide)).wr _ _ _ _ (by decide)) fun _ => .refl s

theorem State.answerRequest_answered (s : State) {k : Nat} (hk : k < 256) :
    requestAnswered s k (s.answerRequest k) := by
  intro busy
  unfold State.answerRequest
  rw [if_pos (by simpa [State.on] using busy)]
  exact ⟨(State.rd_wr_ne _ _ _ _ _ _ _ _ (by decide)).trans (State.rd_wr_same ..),
    (State.rd_wr_same ..).trans (Nat.mod_eq_of_lt hk)⟩

/-- The answer is shown after the next write has started, and was asked for before the write in hand ended. -/
theorem requestAnswered.shown {k : Nat} {l : List FlashJob} (h : requestAnswered w k t)
    (before : w.rd .secReqStatusBusy 0 0 = (s.dequeued l u).rd .secReqStatusBusy 0 0) :
    requestAnswered s k t.startFlash.irqDeliver := by
  have shows := t.started_changes
  have asked := (s.dequeued_changes l u).1 .secReqStatusBusy 0 0 (by decide)
  unfold requestAnswered at h ⊢
  rwa [shows.1 _ _ _ (by decide), shows.1 _ _ _ (by decide), ← asked, ← before]

theorem State.showKeys_changes (s : State) : changes [.secStatusKeys, .secStatusOwner] [] s s.showKeys :=
  ((changes.refl s).wr _ _ _ _ (by decide)).wr _ _ _ _ (by decide)

/-- A counter written, before an epoch's keys are shown. -/
def State.counterRaised (s : State) (n x : Nat) : State :=
  s.wr .secCounterValue 0 n (max x (s.rd .secCounterValue 0 n))

/-- The numbers that the end of a write of a counter or of keys moves. -/
def keyWriteFields : List Field :=
  [.secCounterValue, .secStatusKeys, .secStatusOwner, .secReqStatusBusy, .secReqStatusResult]

theorem State.shownAndAnswered_changes (s : State) (k : Nat) :
    changes keyWriteFields [] s (s.showKeys.answerRequest k) :=
  (s.showKeys_changes.mono (by decide) (List.Subset.refl _)).trans
    ((State.answerRequest_changes _ k).mono (by decide) (List.Subset.refl _))

theorem State.shownAndAnswered_answered (s : State) : requestAnswered s.showKeys 1 (s.showKeys.answerRequest 1) :=
  State.answerRequest_answered _ (by decide)

section
variable {l : List FlashJob}

theorem counterWritten (s : State) (l : List FlashJob) (n x u : Nat) :
    let t := ((s.dequeued l u).flashDone (.counter n x) u).startFlash.irqDeliver
    nextStarts s l t ∧ (n = 2 → requestAnswered s 1 t) ∧
      t.rd .secCounterValue 0 n = max x (s.rd .secCounterValue 0 n) % 2 ^ 64 := by
  intro t
  have raised : changes keyWriteFields [] (s.dequeued l u) ((s.dequeued l u).counterRaised n x) :=
    (changes.refl _).wr _ _ _ _ (by decide)
  have value : ((s.dequeued l u).counterRaised n x).rd .secCounterValue 0 n =
      max x (s.rd .secCounterValue 0 n) % 2 ^ 64 := by
    rw [State.counterRaised, State.rd_wr_same, (s.dequeued_changes l u).1 _ _ _ (by decide)]
    rfl
  by_cases epoch : n = 2
  · have done : (s.dequeued l u).flashDone (.counter n x) u =
        ((s.dequeued l u).counterRaised n x).showKeys.answerRequest 1 := if_pos epoch
    have shown := ((s.dequeued l u).counterRaised n x).shownAndAnswered_changes 1
    have counter : (((s.dequeued l u).counterRaised n x).showKeys.answerRequest 1).rd .secCounterValue 0 n =
        ((s.dequeued l u).counterRaised n x).rd .secCounterValue 0 n :=
      ((State.answerRequest_changes _ 1).1 _ _ _ (by decide)).trans ((State.showKeys_changes _).1 _ _ _ (by decide))
    refine ⟨?_, fun _ => ?_, ?_⟩ <;> unfold t <;> rw [done]
    · exact started_next (raised.trans shown) (by decide) (by decide) (by decide)
    · exact (State.shownAndAnswered_answered _).shown (((State.showKeys_changes _).1 _ _ _ (by decide)).trans
        (State.rd_wr_ne _ _ _ _ _ _ _ _ (by decide)))
    · exact ((State.started_changes _).1 _ _ _ (by decide)).trans (counter.trans value)
  · have done : (s.dequeued l u).flashDone (.counter n x) u = (s.dequeued l u).counterRaised n x := if_neg epoch
    unfold t
    rw [done]
    exact ⟨started_next raised (by decide) (by decide) (by decide), fun h => absurd h epoch,
      ((State.started_changes _).1 _ _ _ (by decide)).trans value⟩

/-- Key slots in the flash, before what they show. -/
def State.keysPut (s : State) (ks : List (Nat × List Byte)) : State := { s with keys := putKeys s.keys ks }

theorem State.keysPut_changes (s : State) (ks : List (Nat × List Byte)) :
    changes keyWriteFields [.keys] s (s.keysPut ks) :=
  (changes.refl _).parts rfl fun q hq => by cases q <;> first | rfl | exact absurd (by decide) hq

theorem keysWritten (s : State) (l : List FlashJob) (ks : List (Nat × List Byte)) (u : Nat) :
    let t := ((s.dequeued l u).flashDone (.keys ks) u).startFlash.irqDeliver
    nextStarts s l t ∧ t.keys = putKeys s.keys ks ∧ requestAnswered s 1 t := by
  intro t
  obtain ⟨v, hv⟩ : ∃ v : State, v = (s.dequeued l u).keysPut ks := ⟨_, rfl⟩
  have put : changes keyWriteFields [.keys] (s.dequeued l u) v := hv ▸ State.keysPut_changes _ ks
  have keys : v.keys = putKeys s.keys ks := by
    rw [hv]
    exact congrArg (putKeys · ks) ((s.dequeued_changes l u).2 .keys (by decide))
  have busy : v.rd .secReqStatusBusy 0 0 = (s.dequeued l u).rd .secReqStatusBusy 0 0 := by rw [hv]; rfl
  have done : (s.dequeued l u).flashDone (.keys ks) u = v.showKeys.answerRequest 1 := by rw [hv]; rfl
  have shown := v.shownAndAnswered_changes 1
  unfold t
  rw [done]
  exact ⟨started_next (put.trans (shown.mono (List.Subset.refl _) (List.nil_subset _))) (by decide) (by decide)
      (by decide),
    ((State.started_changes _).2 .keys (by decide)).trans ((shown.2 .keys (by decide)).trans keys),
    v.shownAndAnswered_answered.shown ((v.showKeys_changes.1 _ _ _ (by decide)).trans busy)⟩

/-- The numbers that a map written moves. -/
def mapWriteFields : List Field := [.hFlashGen, .prfMapGeneration, .prfMapUnwritten]

/-- A map in the flash with its generation, before what the registers show. -/
def State.mapPut (s : State) (m : List MapEntry) (c : SMap RKey Nat) : State :=
  { s with flashMap := m, cache := c }.wrap .hFlashGen 0 0 1

/-- The registers of the map, as the flash now holds it. -/
def State.showMap (s : State) (m : List MapEntry) : State :=
  (s.wr .prfMapGeneration 0 0 (s.rd .hFlashGen 0 0)).wr .prfMapUnwritten 0 0
    (s.repairMap.filter fun e => !m.contains e).length

theorem State.mapPut_changes (s : State) (m : List MapEntry) (c : SMap RKey Nat) :
    changes mapWriteFields [.flashMap, .cache] s (s.mapPut m c) := by
  have put : changes mapWriteFields [.flashMap, .cache] s ({ s with flashMap := m, cache := c } : State) :=
    (changes.refl _).parts rfl fun q hq => by cases q <;> first | rfl | exact absurd (by decide) hq
  exact put.wrap _ _ _ _ (by decide)

theorem State.mapWritten_eq (s : State) (m : List MapEntry) (c : SMap RKey Nat) :
    s.mapWritten m c = if (s.mapPut m c).on .hTimeBase 0 0 then (s.mapPut m c).showMap m else s.mapPut m c := rfl

theorem State.mapWritten_changes (s : State) (m : List MapEntry) (c : SMap RKey Nat) :
    changes mapWriteFields [.flashMap, .cache] s (s.mapWritten m c) := by
  rw [State.mapWritten_eq]
  exact .ite (fun _ => ((s.mapPut_changes m c).wr _ _ _ _ (by decide)).wr _ _ _ _ (by decide))
    fun _ => s.mapPut_changes m c

/-- The generation rises; in force, the map shows it and counts what was added since the write started (R438). -/
theorem State.mapWritten_spec (s : State) (m : List MapEntry) (c : SMap RKey Nat) :
    let t := s.mapWritten m c
    t.flashMap = m ∧ t.cache = c ∧ t.rd .hFlashGen 0 0 = (s.rd .hFlashGen 0 0 + 1) % 2 ^ 64 ∧
      (s.rd .hTimeBase 0 0 = 1 → t.rd .prfMapGeneration 0 0 = (s.rd .hFlashGen 0 0 + 1) % 2 ^ 32 ∧
        ((∀ e ∈ s.repairMap, e ∈ m) → t.rd .prfMapUnwritten 0 0 = 0)) := by
  intro t
  have gen : (s.mapPut m c).rd .hFlashGen 0 0 = (s.rd .hFlashGen 0 0 + 1) % 2 ^ 64 := State.rd_wr_same ..
  have base : (s.mapPut m c).on .hTimeBase 0 0 = s.on .hTimeBase 0 0 := by
    unfold State.on
    rw [(s.mapPut_changes m c).1 .hTimeBase 0 0 (by decide)]
  have same : t.flashMap = m ∧ t.cache = c ∧ t.rd .hFlashGen 0 0 = (s.rd .hFlashGen 0 0 + 1) % 2 ^ 64 := by
    unfold t
    rw [State.mapWritten_eq, base, ← gen]
    split
    · exact ⟨rfl, rfl, (State.rd_wr_ne _ _ _ _ _ _ _ _ (by decide)).trans (State.rd_wr_ne _ _ _ _ _ _ _ _ (by decide))⟩
    · exact ⟨rfl, rfl, rfl⟩
  refine ⟨same.1, same.2.1, same.2.2, fun on => ?_⟩
  have shown : t = (s.mapPut m c).showMap m := by
    unfold t
    rw [State.mapWritten_eq, base, if_pos (by simpa [State.on] using on)]
  rw [shown, State.showMap, gen]
  refine ⟨((State.rd_wr_ne _ _ _ _ _ _ _ _ (by decide)).trans (State.rd_wr_same ..)).trans
    (Nat.mod_mod_of_dvd _ (Nat.pow_dvd_pow 2 (by decide : 32 ≤ 64))), fun all => (State.rd_wr_same ..).trans ?_⟩
  have none : (s.repairMap.filter fun e => !m.contains e) = [] :=
    List.filter_eq_nil_iff.mpr fun e he => by simpa using all e he
  rw [show (s.mapPut m c).repairMap = s.repairMap from rfl, none]
  rfl

theorem mapWritten_shown (s : State) (l : List FlashJob) (m : List MapEntry) (c : SMap RKey Nat) (u : Nat) :
    let t := ((s.dequeued l u).flashDone (.mapOf m c) u).startFlash.irqDeliver
    nextStarts s l t ∧ t.flashMap = m ∧ t.cache = c ∧
      t.rd .hFlashGen 0 0 = (s.rd .hFlashGen 0 0 + 1) % 2 ^ 64 ∧
      (s.rd .hTimeBase 0 0 = 1 → t.rd .prfMapGeneration 0 0 = (s.rd .hFlashGen 0 0 + 1) % 2 ^ 32 ∧
        ((∀ e ∈ s.repairMap, e ∈ m) → t.rd .prfMapUnwritten 0 0 = 0)) := by
  intro t
  have shows := ((s.dequeued l u).mapWritten m c).started_changes
  have before := s.dequeued_changes l u
  obtain ⟨map, codes, gen, force⟩ := (s.dequeued l u).mapWritten_spec m c
  rw [before.1 _ _ _ (by decide)] at gen
  rw [before.1 _ _ _ (by decide), before.1 _ _ _ (by decide),
    show (s.dequeued l u).repairMap = s.repairMap from before.2 .repairMap (by decide)] at force
  refine ⟨started_next ((s.dequeued l u).mapWritten_changes m c) (by decide) (by decide) (by decide),
    (shows.2 .flashMap (by decide)).trans map, (shows.2 .cache (by decide)).trans codes,
    (shows.1 _ _ _ (by decide)).trans gen, fun on => ?_⟩
  obtain ⟨generation, unwritten⟩ := force on
  exact ⟨(shows.1 _ _ _ (by decide)).trans generation, fun all => (shows.1 _ _ _ (by decide)).trans (unwritten all)⟩

/-! ### An image written (R494; log entry 28) -/

/-- An image in its slot. -/
def State.imagePut (s : State) (slot : Nat) (data : List Byte) : State := { s with images := s.images.put slot data }

theorem State.imagePut_changes (s : State) (slot : Nat) (data : List Byte) :
    changes [] [.images] s (s.imagePut slot data) :=
  (changes.refl _).parts rfl fun q hq => by cases q <;> first | rfl | exact absurd (by decide) hq

theorem State.stageFour_rd (s : State) : s.stageFour.sec = zBooting ∧ s.stageFour.rd .hStage 0 0 = 4 :=
  ⟨State.rd_wr_same .., (State.rd_wr_ne _ _ _ _ _ _ _ _ (by decide)).trans (State.rd_wr_same ..)⟩

theorem State.restartFour_spec (s : State) (u : Nat) :
    (s.restartFour u).sec = zBooting ∧ (s.restartFour u).rd .hStage 0 0 = 4 ∧ (s.restartFour u).images = s.images := by
  have moved := State.restartFour_moves s u (List.Subset.refl _) (List.Subset.refl _) (.refl s)
  obtain ⟨sec, stage⟩ : (s.restartFour u).sec = zBooting ∧ (s.restartFour u).rd .hStage 0 0 = 4 :=
    State.stageFour_rd _
  exact ⟨sec, stage, moved.1.2 .images (by decide)⟩

theorem imageWritten (s : State) (l : List FlashJob) (slot : Nat) (data : List Byte) (u : Nat) :
    let t := ((s.dequeued l u).flashDone (.image slot data) u).startFlash.irqDeliver
    t.images.get? slot = some data ∧
      (s.sec = zBootFail → s.rd .secStatusFailCause 0 0 = 5 → t.sec = zBooting ∧ t.rd .hStage 0 0 = 4) ∧
      (s.sec ≠ zBootFail ∨ s.rd .secStatusFailCause 0 0 ≠ 5 → nextStarts s l t ∧ t.sec = s.sec) := by
  intro t
  obtain ⟨v, hv⟩ : ∃ v : State, v = (s.dequeued l u).imagePut slot data := ⟨_, rfl⟩
  have put : changes [] [.images] (s.dequeued l u) v := hv ▸ State.imagePut_changes _ slot data
  have before := s.dequeued_changes l u
  have sec : v.sec = s.sec := (put.1 _ _ _ (by decide)).trans (before.1 _ _ _ (by decide))
  have cause : v.rd .secStatusFailCause 0 0 = s.rd .secStatusFailCause 0 0 :=
    (put.1 _ _ _ (by decide)).trans (before.1 _ _ _ (by decide))
  have stored : v.images.get? slot = some data := by simp [hv, State.imagePut, SMap.get?_put]
  have done : (s.dequeued l u).flashDone (.image slot data) u =
      if (v.sec == zBootFail && v.rd .secStatusFailCause 0 0 == 5) = true then v.restartFour u else v := by
    rw [hv]
    rfl
  unfold t
  rw [done, sec, cause]
  by_cases lacked : s.sec = zBootFail ∧ s.rd .secStatusFailCause 0 0 = 5
  · obtain ⟨fail, none⟩ := lacked
    rw [if_pos (Bool.and_eq_true_iff.mpr ⟨beq_iff_eq.mpr fail, beq_iff_eq.mpr none⟩)]
    have shows := (v.restartFour u).started_changes
    obtain ⟨boots, stage, images⟩ := v.restartFour_spec u
    have kept := (shows.2 .images (by decide)).trans images
    exact ⟨(congrArg (·.get? slot) kept).trans stored,
      fun _ _ => ⟨(shows.1 _ _ _ (by decide)).trans boots, (shows.1 _ _ _ (by decide)).trans stage⟩,
      fun other => absurd none (other.resolve_left fun h => h fail)⟩
  · rw [if_neg fun h => lacked ((Bool.and_eq_true_iff.mp h).imp beq_iff_eq.mp beq_iff_eq.mp)]
    have shows := v.started_changes
    have kept := shows.2 .images (by decide)
    exact ⟨(congrArg (·.get? slot) kept).trans stored, fun fail none => absurd ⟨fail, none⟩ lacked, fun _ =>
      ⟨started_next put (by decide) (by decide) (by decide), (shows.1 _ _ _ (by decide)).trans sec⟩⟩

end

end

/-! ### A write that failed (R438, R469, R470; log entry 27) -/

section
variable {s t v w : State} {u : Nat} {as : List Area} {fs : List Field} {ps : List Part}

/-- The numbers that a failed write moves. -/
def failFields : List Field := [.secReqStatusBusy, .secReqStatusResult, .prfMapWriteFail]

theorem State.flashFailed_changes (s : State) (j : FlashJob) : changes failFields [.images] s (s.flashFailed j) := by
  have answer (k : Nat) : changes failFields [.images] s (s.answerRequest k) :=
    (s.answerRequest_changes k).mono (by decide) (List.nil_subset _)
  cases j with
  | counter n x => exact .ite (fun _ => answer 6) fun _ => .refl s
  | keys ks => exact answer 7
  | map => exact .refl s
  | mapOf m c => exact (changes.refl s).wr _ _ _ _ (by decide)
  | image slot data =>
    exact (changes.refl s).parts rfl fun q hq => by cases q <;> first | rfl | exact absurd (by decide) hq

/-- The numbers and parts that move from a failed write to the start of the next. -/
theorem failed_changes (s : State) (l : List FlashJob) (j : FlashJob) (u : Nat) :
    changes (timeFields ++ failFields ++ .hMapClear :: irqFields) [.flashQ, .images, .repairMap] s
      ((s.dequeued l u).flashFailed j).startFlash.irqDeliver :=
  (((s.dequeued_changes l u).mono (by decide) (by decide)).trans
    ((State.flashFailed_changes _ j).mono (by decide) (by decide))).trans
      ((State.started_changes _).mono (by decide) (by decide))

theorem failed_next (s : State) (l : List FlashJob) (j : FlashJob) (u : Nat) :
    nextStarts s l ((s.dequeued l u).flashFailed j).startFlash.irqDeliver :=
  started_next (State.flashFailed_changes _ j) (by decide) (by decide) (by decide)

/-- A key request hears of the failure of its write. -/
theorem failed_answered {l : List FlashJob} {j : FlashJob} {k : Nat} (hk : k < 256)
    (h : (s.dequeued l u).flashFailed j = (s.dequeued l u).answerRequest k) :
    requestAnswered s k ((s.dequeued l u).flashFailed j).startFlash.irqDeliver := by
  rw [h]
  exact (State.answerRequest_answered _ hk).shown rfl

theorem State.flashFailed_epoch (s : State) (x : Nat) : s.flashFailed (.counter 2 x) = s.answerRequest 6 := rfl

theorem failed_imageLost (s : State) (l : List FlashJob) (slot : Nat) (data : List Byte) (u : Nat) :
    (((s.dequeued l u).flashFailed (.image slot data)).startFlash.irqDeliver).images.get? slot = none := by
  have lost : ((s.dequeued l u).flashFailed (.image slot data)).images.get? slot = none := by
    show SMap.get? (SMap.del _ slot) slot = none
    rw [SMap.get?_del, if_pos rfl]
  exact (congrArg (·.get? slot) ((State.started_changes _).2 .images (by decide))).trans lost

/-! ## COUNTER_WRITE_TIMEOUT (R222, R470) -/

theorem exec_counterWriteTimeout {n x : Nat} {l : List FlashJob} (h : s.flashQ = .counter n x :: l) (u : Nat) :
    execCounterWriteTimeout u s = .next ((s.dequeued l u).flashFailed (.counter n x)).startFlash.irqDeliver := by
  unfold execCounterWriteTimeout
  dsimp only
  rw [State.stamp_flashQ, h]
  rfl

/-- The switch of i has held its formes and waits for its counter alone. -/
def State.waitsForCounter (s : State) (i : Imposition) : Bool :=
  s.slot = iCommitting && s.rd .hImpSwitchStep 0 0 = 1 && s.unheld.isEmpty && s.quiesced &&
    i.rollbackVersion != s.rd .secCounterValue 0 0

theorem exec_counterWriteTimeout_noCounter (h : ∀ n x l, s.flashQ ≠ .counter n x :: l) (u : Nat) :
    execCounterWriteTimeout u s = match s.loaded with
      | some i => if (s.stamp u).waitsForCounter i then
          .next ((s.stamp u).refuse (errModule eRollback)).releaseSwitch.irqDeliver else .next (s.stamp u)
      | none => .next (s.stamp u) := by
  unfold execCounterWriteTimeout
  dsimp only
  rw [State.stamp_flashQ, State.stamp_loaded]
  split
  next n x l e => exact absurd e (h n x l)
  next => rfl

theorem State.mustQuiesce_stamp (s : State) (u q : Nat) : (s.stamp u).mustQuiesce q = s.mustQuiesce q := by
  simp (disch := decide) only [State.mustQuiesce, State.fabricPort, State.isPairPort, State.portRec, State.identity,
    State.fabricForme, State.linkOpen, State.endState, State.lState, State.rd_stamp, State.stamp_active,
    State.link_stamp] <;> rfl

theorem State.waitsForCounter_stamp (s : State) (u : Nat) (i : Imposition) :
    (s.stamp u).waitsForCounter i = s.waitsForCounter i := by
  simp (disch := decide) only [State.waitsForCounter, State.slot, State.unheld, State.formeNums, State.fState,
    State.quiesced, State.allQuiesced, State.mustQuiesce_stamp, State.on, State.rd_stamp, State.stamp_active] <;> rfl

end

/-! ### What a refused switch leaves of the pending slot -/

section
variable {s t u : State} {as : List Area} {ps : List Part}

/-- The numbers by which the pending slot shows how far its switch is. -/
def slotFields : List Field := [.modImpStatusPending, .hImpSwitchStep]

/-- From s to t the pending slot stays in its state, and at its step of a switch. -/
def slotKept (s t : State) : Prop := ∀ g ∈ slotFields, t.rd g 0 0 = s.rd g 0 0

theorem slotKept.refl (s : State) : slotKept s s := fun _ _ => rfl

theorem slotKept.wr (h : slotKept s t) (g : Field) (i j n : Nat) (hg : g ∉ slotFields) : slotKept s (t.wr g i j n) :=
  fun m hm => (State.rd_wr_ne t g m i j 0 0 n fun e => hg (e ▸ hm)).trans (h m hm)

theorem slotKept.moves (h : slotKept s t) (hm : Moves as ps t u) (ha : .imp ∉ as) : slotKept s u := fun g hg =>
  (hm.1.1 g 0 0 (by rwa [(by decide : ∀ g ∈ slotFields, g.area = .imp) g hg])).trans (h g hg)

theorem slotKept.ite {c : Prop} [Decidable c] (h : c → slotKept s t) (h' : ¬c → slotKept s u) :
    slotKept s (if c then t else u) := by
  split
  next hc => exact h hc
  next hc => exact h' hc

theorem slotKept.each {α : Type} (l : List α) (g : State → α → State)
    (hg : ∀ u a, slotKept s u → slotKept s (g u a)) (h : slotKept s t) : slotKept s (t.each l g) := by
  induction l generalizing t with
  | nil => exact h
  | cons a l ih => exact ih (hg t a h)

theorem slotKept.ignoreWith (h : slotKept s t) (f n : Nat) (pend tick : Field) (hp : pend ∉ slotFields) :
    slotKept s (t.ignoreWith f n pend tick) :=
  .ite (fun _ => (h.wr _ _ _ _ hp).wr _ _ _ _ (by decide)) fun _ => h

theorem slotKept.abandon (h : slotKept s t) (f cause n : Nat) : slotKept s (t.abandon f cause n) := by
  unfold State.abandon
  refine .ite (fun _ => ?_) fun _ => .ite (fun _ => h.wr _ _ _ _ (by decide)) fun _ => .ite (fun _ => h) fun _ => ?_
  · have stopped := h.moves (State.stopUnits_moves t f (List.Subset.refl _) (List.Subset.refl _) (.refl t)) (by decide)
    have ignored := (((stopped.ignoreWith f n .hFormeHoldPend .hFormeHoldTick (by decide)).ignoreWith f n
      .hFormeParkPend .hFormeParkTick (by decide)).ignoreWith f n .hFormeStartPend .hFormeStartTick
      (by decide)).ignoreWith f n .hFormeResumePend .hFormeResumeTick (by decide)
    have unsent := ignored.moves (((((((Moves.refl _).wr .modFormeStatusState 0 f fAbandoning (by decide)).wr
      .modFormeStatusCause 0 f cause (by decide)).bump .modFormeCountsAbandons 0 f 1 (by decide)).wr
      .hFormeStepRun 0 f 0 (by decide)).wr .hFormeReady 0 f 0 (by decide)).wr .hFormeMirrorSent 0 f 0 (by decide))
      (as := [.forme]) (ps := []) (by decide)
    exact (slotKept.ite (fun _ => unsent) fun _ => unsent.wr _ _ _ _ (by decide)).wr _ _ _ _ (by decide)
  · exact .ite (fun _ => h) fun _ => h.wr _ _ _ _ (by decide)

theorem slotKept.resumeForme (h : slotKept s t) (f point : Nat) : slotKept s (t.resumeForme f point) :=
  h.moves (State.resumeForme_moves t f point (List.Subset.refl _) (List.Subset.refl _) (.refl t)) (by decide)

theorem slotKept.letIn (h : slotKept s t) (f n : Nat) : slotKept s (t.letIn f n) := by
  rw [State.letIn_eq]
  have starts : slotKept s (t.startPending f) := .ite (fun _ => (h.wr _ _ _ _ (by decide)).moves
    (State.startForme_moves _ f (List.Subset.refl _) (List.Subset.refl _) (.refl _)) (by decide)) fun _ => h
  have resumes : slotKept s ((t.startPending f).resumePending f) :=
    .ite (fun _ => (starts.wr _ _ _ _ (by decide)).resumeForme f 1) fun _ => starts
  refine .ite (fun _ => ?_) fun _ => .ite (fun _ => (resumes.wr _ _ _ _ (by decide)).abandon f _ n) fun _ => resumes
  exact ((resumes.wr _ _ _ _ (by decide)).wr _ _ _ _ (by decide)).moves
    (State.checkpointLost_moves _ f n (List.Subset.refl _) (List.Subset.refl _) (.refl _)) (by decide)

/-- A switch that is let go is at no step; its slot stays as it is. -/
theorem State.releaseSwitch_slot (s : State) :
    s.releaseSwitch.slot = s.slot ∧ s.releaseSwitch.rd .hImpSwitchStep 0 0 = 0 := by
  have kept : slotKept (s.wr .hImpSwitchStep 0 0 0) s.releaseSwitch := by
    unfold State.releaseSwitch
    refine slotKept.each _ _ (fun v f hv => .ite (fun _ => ?_) fun _ => hv.letIn f _)
      (.ite (fun _ => ?_) fun _ => .refl _)
    · have noted := hv.wr .modFormeStatusSwitchPending 0 f 0 (by decide)
      exact (slotKept.ite (fun _ => noted.resumeForme f 1) fun _ => noted).letIn f _
    · refine slotKept.wr (slotKept.each _ _ (fun v q hv => ?_) (.refl _)) _ _ _ _ (by decide)
      exact slotKept.wr (fun g hg => hv g hg) _ _ _ _ (by decide)
  exact ⟨(kept .modImpStatusPending (by decide)).trans (State.rd_wr_ne _ _ _ _ _ _ _ _ (by decide)),
    (kept .hImpSwitchStep (by decide)).trans (State.rd_wr_same ..)⟩

theorem State.refuse_slot (s : State) (e : ImpErr) : (s.refuse e).slot = iRejected := by
  have rejected : ((s.report e).setSlot iRejected).slot = iRejected :=
    (State.rd_wr_ne _ _ _ _ _ _ _ _ (by decide)).trans (State.rd_wr_same ..)
  rw [← rejected]
  exact State.rd_wr_ne ((s.report e).setSlot iRejected) .hImpDiscard .modImpStatusPending 0 0 0 0 0 (by decide)

theorem switchRefused (s : State) (e : ImpErr) :
    let t := (s.refuse e).releaseSwitch.irqDeliver
    t.slot = iRejected ∧ t.rd .hImpSwitchStep 0 0 = 0 ∧ t.active = s.active ∧ t.loaded = none := by
  intro t
  have shows : changes irqFields [] (s.refuse e).releaseSwitch t := (changes.refl _).irqDeliver (List.Subset.refl _)
  have released := (State.releaseSwitch_moves (s.refuse e) (List.Subset.refl _) (List.Subset.refl _) (.refl _)).1
  obtain ⟨slot, step⟩ := (s.refuse e).releaseSwitch_slot
  exact ⟨(shows.1 _ _ _ (by decide)).trans (slot.trans (s.refuse_slot e)), (shows.1 _ _ _ (by decide)).trans step,
    (shows.2 .active (by decide)).trans (released.2 .active (by decide)),
    (shows.2 .loaded (by decide)).trans (released.2 .loaded (by decide))⟩

end

/-! ## What the supervisor commands (R456, R461, R470, R472) -/

section
variable {s t v : State} {u : Nat}

/-! ### READY and FW_COMMIT -/

theorem secReady_ends (u : Nat) (booting : s.sec = zBooting) (last : s.rd .hStage 0 0 = 5) :
    ∃ t, Runs (.secReady u) s t ∧ t.sec = zReady ∧ t.rd .hPinReady 0 0 = 1 ∧ t.rd .hStage 0 0 = 0 ∧
      touches [.tick, .sec] [] s t := by
  have run : execSecReady u s =
      .next ((((s.stamp u).wr .hPinReady 0 0 1).wr .hStage 0 0 0).wr .secStatusState 0 0 zReady) :=
    if_pos (by simp (disch := decide) only [State.sec, State.rd_stamp] at booting ⊢; simp [booting, last])
  refine ⟨_, run, State.rd_wr_same .., ?_, ?_,
    (execSecReady_moves u s (List.Subset.refl _) (.refl s) _ run).1⟩
  · exact (State.rd_wr_ne _ _ _ _ _ _ _ _ (by decide)).trans ((State.rd_wr_ne _ _ _ _ _ _ _ _ (by decide)).trans
      (State.rd_wr_same ..))
  · exact (State.rd_wr_ne _ _ _ _ _ _ _ _ (by decide)).trans (State.rd_wr_same ..)

theorem secReady_quiet (u : Nat) (h : s.sec ≠ zBooting ∨ s.rd .hStage 0 0 ≠ 5) : quietly (.secReady u) s :=
  ⟨_, if_neg (by
    simp (disch := decide) only [State.sec, State.rd_stamp] at h ⊢
    simpa [imp_iff_not_or] using h), s.stamp_time u⟩

theorem mem_insertFlash (j : FlashJob) (l : List FlashJob) : j ∈ insertFlash j l := by
  induction l with
  | nil => exact List.mem_singleton_self j
  | cons k l ih =>
    unfold insertFlash
    split
    · exact List.mem_cons_of_mem k ih
    · exact List.mem_cons_self ..

/-- A write of a counter waits in the queue, and no write of the map starts by it. -/
theorem State.queueFlash_counter (s : State) (n x : Nat) :
    FlashJob.counter n x ∈ (s.queueFlash (.counter n x)).flashQ ∧
      changes [] [.flashQ] s (s.queueFlash (.counter n x)) := by
  have queued (l : List FlashJob) : changes [] [.flashQ] s { s with flashQ := l } :=
    (changes.refl s).parts rfl fun q hq => by cases q <;> first | rfl | exact absurd (by decide) hq
  unfold State.queueFlash
  split
  · exact ⟨List.mem_singleton_self _, queued _⟩
  · exact ⟨List.mem_cons_of_mem _ (mem_insertFlash ..), queued _⟩

theorem fwCommit_queues (u : Nat) (newer : s.rd .secCounterValue 0 1 < imageVersion s.image) :
    ∃ t, Runs (.fwCommit u) s t ∧ FlashJob.counter 1 (imageVersion s.image) ∈ t.flashQ ∧
      changes timeFields [.flashQ] s t := by
  obtain ⟨waits, queues⟩ := (s.stamp u).queueFlash_counter 1 (imageVersion s.image)
  refine ⟨_, ?_, waits, ((s.stamp_time u).mono (List.Subset.refl _) (List.nil_subset _)).trans
    (queues.mono (List.nil_subset _) (List.Subset.refl _))⟩
  show execFwCommit u s = _
  unfold execFwCommit
  dsimp only
  rw [State.stamp_image, State.rd_stamp _ _ _ _ _ (by decide), if_pos newer]

theorem fwCommit_quiet (u : Nat) (old : imageVersion s.image ≤ s.rd .secCounterValue 0 1) :
    quietly (.fwCommit u) s := by
  refine ⟨_, ?_, s.stamp_time u⟩
  show execFwCommit u s = _
  unfold execFwCommit
  dsimp only
  rw [State.stamp_image, State.rd_stamp _ _ _ _ _ (by decide), if_neg (Nat.not_lt.mpr old)]

/-! ### ATTEST -/

theorem fixLen_length (n : Nat) (l : List Byte) : (fixLen n l).length = n := by
  simp [fixLen]

theorem State.memCell_stamp (s : State) (u c a : Nat) : (s.stamp u).memCell c a = s.memCell c a := by
  unfold State.memCell
  rw [memMode_congr (s.stamp_time u) (by decide)]

theorem exec_secAttest (s : State) (u : Nat) :
    execSecAttest u s = .next ((s.stamp u).writeMem 0 (s.rd .secReqAddrAddr 0 0 / 4096 * 4096 + 256)
      ((s.stamp u).attestation (s.readMem 0 (s.rd .secReqAddrAddr 0 0 / 4096 * 4096) 32))) := by
  unfold execSecAttest
  dsimp only
  rw [State.rd_stamp _ _ _ _ _ (by decide), readMem_congr (s.stamp_time u) (by decide) (by decide)]

/-- The report changes no byte beside its own 2,048. -/
theorem attested_outside (s : State) (u a : Nat) (nonce : List Byte) (hs : s.inv = true) {x : Nat}
    (far : ∀ i < 2048, x ≠ s.memCell 0 (a + i)) :
    ((s.stamp u).writeMem 0 a ((s.stamp u).attestation nonce)).mem.get x = s.mem.get x := by
  have mem : (s.stamp u).mem = s.mem := (s.stamp_time u).2 .mem (by decide)
  have wf : (s.stamp u).mem.wf = true := mem ▸ ((State.inv_iff s).mp hs).2.1
  rw [State.get_writeMem_outside wf fun i hi => ?_, mem]
  rw [State.memCell_stamp]
  exact far i (hi.trans_eq (fixLen_length ..))

/-! ### ALERT -/

theorem State.alert_shows (s : State) {b : Nat} (hb : b < 8) : bit ((s.alert b).rd .secStatusAlerts 0 0) b = true := by
  unfold State.alert State.alertPin
  rw [State.rd_wr_ne _ _ _ _ _ _ _ _ (by decide), State.orBit_rd_same]
  exact bit_setBit_mod hb

/-- An alert that the mask lets through pulls SB_ALERT_N (R456). -/
theorem State.alert_pin (s : State) {b : Nat} (hb : b < 8) (unmasked : bit (s.rd .secStatusAlertMask 0 0) b = false) :
    (s.alert b).rd .hPinAlert 0 0 = 1 := by
  have mask : (s.orBit .secStatusAlerts 0 0 b).rd .secStatusAlertMask 0 0 = s.rd .secStatusAlertMask 0 0 :=
    State.orBit_rd_ne _ _ _ _ _ _ _ _ (by decide)
  have set : bit ((s.orBit .secStatusAlerts 0 0 b).rd .secStatusAlerts 0 0) b = true := by
    rw [State.orBit_rd_same]
    exact bit_setBit_mod hb
  have any : ((List.range 8).any fun k => bit ((s.orBit .secStatusAlerts 0 0 b).rd .secStatusAlerts 0 0) k &&
      !bit ((s.orBit .secStatusAlerts 0 0 b).rd .secStatusAlertMask 0 0) k) = true :=
    List.any_eq_true.mpr ⟨b, List.mem_range.mpr hb, by rw [set, mask, unmasked]; rfl⟩
  unfold State.alert State.alertPin
  rw [any]
  exact State.rd_wr_same ..

theorem secAlert_set (s : State) : ∃ t, Runs .secAlert s t ∧ bit (t.rd .secStatusAlerts 0 0) 6 = true ∧
    (bit (s.rd .secStatusAlertMask 0 0) 6 = false → t.rd .hPinAlert 0 0 = 1) ∧
    changes (.secStatusAlerts :: .hPinAlert :: irqFields) [] s t := by
  have shows : changes irqFields [] (s.alert 6) (s.alert 6).irqDeliver :=
    (changes.refl _).irqDeliver (List.Subset.refl _)
  refine ⟨_, rfl, ?_, fun unmasked => ?_, (((changes.refl s).orBit _ _ _ _ (by decide)).wr _ _ _ _
    (by decide)).irqDeliver (by decide)⟩
  · rw [shows.1 _ _ _ (by decide)]
    exact s.alert_shows (by decide)
  · exact (shows.1 _ _ _ (by decide)).trans (s.alert_pin (by decide) unmasked)

end

/-! ## The flash and the supervisor, together -/

theorem flashWriteComplete_done (s : State) (u : Nat) (j : FlashJob) (l : List FlashJob) (h : s.flashQ = j :: l) :
    ∃ t, Runs (.flashWriteComplete true u) s t ∧
      (∀ n x, j = .counter n x → nextStarts s l t ∧ (n = 2 → requestAnswered s 1 t) ∧
        t.rd .secCounterValue 0 n = max x (s.rd .secCounterValue 0 n) % 2 ^ 64) ∧
      (∀ ks, j = .keys ks → nextStarts s l t ∧ t.keys = putKeys s.keys ks ∧ requestAnswered s 1 t) ∧
      (j = .map → nextStarts s l t) ∧
      (∀ m c, j = .mapOf m c → nextStarts s l t ∧ t.flashMap = m ∧ t.cache = c ∧
        t.rd .hFlashGen 0 0 = (s.rd .hFlashGen 0 0 + 1) % 2 ^ 64 ∧
        (s.rd .hTimeBase 0 0 = 1 → t.rd .prfMapGeneration 0 0 = (s.rd .hFlashGen 0 0 + 1) % 2 ^ 32 ∧
          ((∀ e ∈ s.repairMap, e ∈ m) → t.rd .prfMapUnwritten 0 0 = 0))) ∧
      (∀ slot data, j = .image slot data → t.images.get? slot = some data ∧
        (s.sec = zBootFail → s.rd .secStatusFailCause 0 0 = 5 → t.sec = zBooting ∧ t.rd .hStage 0 0 = 4) ∧
        (s.sec ≠ zBootFail ∨ s.rd .secStatusFailCause 0 0 ≠ 5 → nextStarts s l t ∧ t.sec = s.sec)) ∧
      touches [.module, .tick, .pair, .pwr, .prf, .sec, .core, .irq, .events, .cal, .chs, .ddl, .prs,
        .oe, .lnk, .lsu, .mem] [.presses, .calJobs, .calRuns, .swaps, .spareNeeds, .links, .repairMap,
        .flashQ, .keys, .images, .flashMap, .cache, .freeCount] s t := by
  have run : execFlashWriteComplete true u s = .next ((s.dequeued l u).flashDone j u).startFlash.irqDeliver :=
    exec_flashWriteComplete h true u
  refine ⟨_, run, ?_, ?_, ?_, ?_, ?_,
    (execFlashWriteComplete_moves true u s (List.Subset.refl _) (List.Subset.refl _) (.refl s) _ run).1⟩
  · rintro n x rfl
    exact counterWritten s l n x u
  · rintro ks rfl
    exact keysWritten s l ks u
  · rintro rfl
    exact started_next (.refl _) (fs := []) (ps := []) (by decide) (by decide) (by decide)
  · rintro m c rfl
    exact mapWritten_shown s l m c u
  · rintro slot data rfl
    exact imageWritten s l slot data u

theorem flashWriteComplete_failed (s : State) (u : Nat) (j : FlashJob) (l : List FlashJob) (h : s.flashQ = j :: l) :
    ∃ t, Runs (.flashWriteComplete false u) s t ∧ nextStarts s l t ∧ t.keys = s.keys ∧ t.flashMap = s.flashMap ∧
      t.cache = s.cache ∧
      (∀ n, t.rd .secCounterValue 0 n = s.rd .secCounterValue 0 n) ∧
      (∀ x, j = .counter 2 x → requestAnswered s 6 t) ∧ (∀ ks, j = .keys ks → requestAnswered s 7 t) ∧
      (∀ m c, j = .mapOf m c → t.rd .prfMapWriteFail 0 0 = 1) ∧
      (∀ slot data, j = .image slot data → t.images.get? slot = none) ∧
      touches [.module, .tick, .pair, .pwr, .prf, .sec, .core, .irq, .events, .cal, .chs, .ddl, .prs,
        .oe, .lnk, .lsu, .mem] [.presses, .calJobs, .calRuns, .swaps, .spareNeeds, .links, .repairMap,
        .flashQ, .keys, .images, .flashMap, .cache, .freeCount] s t := by
  have run : execFlashWriteComplete false u s = .next ((s.dequeued l u).flashFailed j).startFlash.irqDeliver :=
    exec_flashWriteComplete h false u
  have kept := failed_changes s l j u
  refine ⟨_, run, failed_next s l j u, kept.2 .keys (by decide), kept.2 .flashMap (by decide),
    kept.2 .cache (by decide), fun n => kept.1 _ _ _ (by decide), ?_, ?_, ?_, ?_,
    (execFlashWriteComplete_moves false u s (List.Subset.refl _) (List.Subset.refl _) (.refl s) _ run).1⟩
  · rintro x rfl
    exact failed_answered (by decide) (State.flashFailed_epoch _ x)
  · rintro ks rfl
    exact failed_answered (by decide) rfl
  · rintro m c rfl
    exact ((State.started_changes _).1 _ _ _ (by decide)).trans (State.rd_wr_same ..)
  · rintro slot data rfl
    exact failed_imageLost s l slot data u

/-- The parts and areas that a COUNTER_WRITE_TIMEOUT can touch. -/
theorem touches_counterWriteTimeout {s t : State} {u : Nat} (run : Runs (.counterWriteTimeout u) s t) :
    touches [.tick, .imp, .forme, .fab, .pair, .pwr, .prf, .sec, .irq, .events, .cal, .cmp, .col, .prs,
      .oe, .lnk, .lsu, .mem] [.presses, .loaded, .pendingBytes, .jobs, .lateXfers, .drains, .calJobs,
      .calRuns, .swaps, .spareNeeds, .barSent, .links, .repairMap, .flashQ, .images, .relays, .freeCount] s t :=
  (execCounterWriteTimeout_moves u s (List.Subset.refl _) (List.Subset.refl _) (.refl s) _ run).1

theorem counterWriteTimeout_quiet {s : State} (u : Nat) (h : ∀ n x l, s.flashQ ≠ .counter n x :: l)
    (away : s.loaded = none ∨ s.slot ≠ iCommitting) : quietly (.counterWriteTimeout u) s := by
  refine ⟨_, (exec_counterWriteTimeout_noCounter h u).trans ?_, s.stamp_time u⟩
  cases loaded : s.loaded with
  | none => rfl
  | some i =>
    have slot : s.slot ≠ iCommitting := away.resolve_left (by simp [loaded])
    have waits : (s.stamp u).waitsForCounter i = false := by
      rw [State.waitsForCounter_stamp]
      simp [State.waitsForCounter, slot]
    simp [waits]

theorem counterWriteTimeout_refuses {s : State} {i : Imposition} (u : Nat) (h : ∀ n x l, s.flashQ ≠ .counter n x :: l)
    (loaded : s.loaded = some i) (waits : s.waitsForCounter i = true) :
    execCounterWriteTimeout u s = .next ((s.stamp u).refuse (errModule eRollback)).releaseSwitch.irqDeliver := by
  rw [exec_counterWriteTimeout_noCounter h, loaded]
  exact if_pos ((s.waitsForCounter_stamp u i).trans waits)

/-- Settles O53: each write of the flash by its kind, done and failed, with the start of the next; the switch refused
for its counter keeps its slot through everything that is let in again; and the four commands. -/
theorem flashAndSupervisor : Obligations.FlashAndSupervisor := by
  intro s u v answered
  refine ⟨fun ok none => flashWriteComplete_quiet none ok u, fun j l h => ?_, fun n x l h => ?_, fun h => ⟨?_, ?_⟩,
    secReady_ends u, secReady_quiet u, fwCommit_queues u, fwCommit_quiet u, ?_, secAlert_set s⟩
  · exact ⟨flashWriteComplete_done s u j l h, flashWriteComplete_failed s u j l h⟩
  · have run := exec_counterWriteTimeout h u
    obtain ⟨due, other⟩ := failed_next s l (.counter n x) u
    refine ⟨_, run, fun notMap => (other notMap).1, fun l' map => (due l' map).2.1,
      fun m => (failed_changes s l (.counter n x) u).1 _ _ _ (by decide), fun epoch => ?_,
      touches_counterWriteTimeout run⟩
    subst epoch
    exact failed_answered (by decide) (State.flashFailed_epoch _ x)
  · exact counterWriteTimeout_quiet u h
  · intro i loaded slot step held quiet counter
    have run := counterWriteTimeout_refuses u h loaded (by
      simp [State.waitsForCounter, slot, step, held, quiet, counter])
    obtain ⟨rejected, noStep, active, none⟩ := switchRefused (s.stamp u) (errModule eRollback)
    exact ⟨_, run, rejected, noStep, active.trans (s.stamp_active u), none, touches_counterWriteTimeout run⟩
  · intro a
    exact ⟨_, exec_secAttest s u, rfl, fun hs x far => attested_outside s u _ _ hs far,
      ((s.stamp_time u).mono (List.Subset.refl _) (List.nil_subset _)).trans
        ((State.writeMem_changes ..).mono (List.nil_subset _) (List.Subset.refl _))⟩

end Sys2Proof.Machine

/-!
# Tones, lasers, units and requests: four states that the statements miss

One state each that O27, O29, O30 and O34 speak of and that the model takes elsewhere than they say.
-/

namespace Sys2Proof.Machine

-- Proofs checked one after another hold fewer threads' stacks at a time, which the memory of one process needs.
set_option Elab.async false

/-! ## A route that gives every fibre to one port bank (R275, R279) -/

/-- Filter L0 of fibre bank 1 locked at engine 0, under an active imposition whose route gives every fibre to port
bank 0. -/
def sharedRouteRing : State :=
  { State.reset with
    regs := [(⟨.oeRingState, 0, 30⟩, 2)]
    active := some (plainImp []) }

/-- Its mislock has the filter of the first fibre that port bank 0 uses sweep, which is another one. -/
theorem sharedRouteRing_parked {t : State} (h : Runs (.toneWindow 0 30 31 false 0) sharedRouteRing t) :
    t.rd .oeRingState 0 30 = 0 := by
  have run : execToneWindow 0 30 31 false 0 sharedRouteRing = .next t := h
  rw [execToneWindow, if_pos (by decide)] at run
  obtain rfl := Host.Outcome.next.inj run
  decide +kernel

/-- Refutes O27: the clause on a first mislock has the ring sweep where its lane carries no traffic, in every state. The
ring that the model has sweep is that of the fibre which its port uses under the route in force; the load refuses a
route that is no permutation of the fibres, but no hypothesis of the statement excludes one. Where the route gives
fibres 0 and 1 to port bank 0, the filter of fibre 1 stays parked. -/
theorem not_toneWindows : ¬ Obligations.ToneWindows := by
  unfold Obligations.ToneWindows
  intro h
  obtain ⟨window, -⟩ := h sharedRouteRing 0 30 0 (by decide) (by decide)
  obtain ⟨-, mislock⟩ := window 31 false
  obtain ⟨t, run, -, -, -, -, -, -, first, -⟩ := mislock (by decide) (by decide) (by decide)
  obtain ⟨-, -, sweeps, -⟩ := first (by decide)
  exact absurd ((sweeps (by decide)).symm.trans (sharedRouteRing_parked run)) (by decide)

/-- Port bank 1 of engine 0 takes L0 from laser 0 on an open link, under the same route. -/
def sharedRouteLaser : State :=
  { State.reset with
    regs := [(⟨.lsuLaserLit, 0, 0⟩, 3), (⟨.hLsuSel, 0, 0⟩, 2), (⟨.lnkStatusState, 1, 0⟩, lUp)]
    active := some (plainImp []) }

/-- Its loss takes the spare for the port that the route gives the fibre to, and no MARK waits at port 1. -/
theorem sharedRouteLaser_unmarked {t : State} (h : Runs (.suddenLoss 0 1 0 0) sharedRouteLaser t) :
    (t.link 1).marks = [] := by
  have run : execSuddenLoss 0 1 0 0 sharedRouteLaser = .next t := h
  rw [execSuddenLoss, if_pos (by decide)] at run
  have lit : (sharedRouteLaser.stamp 0).carrier 0 1 0 = some 0 := by decide
  simp only [lit] at run
  obtain rfl := Host.Outcome.next.inj run
  decide +kernel

/-- Refutes O29: the clause on SUDDEN_LOSS has the lane's own port send the MARKs, in every state. The model sends them
from the port that the route in force gives the spare's fibre to, which is the lane's own under every route that the
load admits; no hypothesis of the statement asks for one. Where the route gives every fibre to port bank 0, the MARKs of
port bank 1's lane wait at port 0. -/
theorem not_laserFades : ¬ Obligations.LaserFades := by
  unfold Obligations.LaserFades
  intro h
  obtain ⟨-, -, -, loss⟩ := h sharedRouteLaser 0
  obtain ⟨-, carried⟩ := loss 0 1 0 (by decide) (by decide) (by decide)
  obtain ⟨t, run, -, moves, -⟩ := carried 0 (by decide)
  obtain ⟨-, -, marks, -⟩ := moves (by decide) (by decide) (by decide) rfl rfl (by decide)
  exact absurd (marks.symm.trans (sharedRouteLaser_unmarked run)) (by decide)

/-! ## A number beyond its field's width (R274) -/

/-- A laser safety shutdown in force, with 2 in the one bit that notes laser 0's overpower. -/
def wideOverpowerState : State :=
  { State.reset with regs := [(⟨.oeStatusShutdown, 0, 0⟩, 1), (⟨.hOverPower, 0, 0⟩, 2)] }

/-- RELIGHT clears the shutdown and leaves that number as it is. -/
theorem wideOverpowerState_relit {t : State} (h : Runs (.relight 0) wideOverpowerState t) :
    t.rd .oeStatusShutdown 0 0 = 0 ∧ t.rd .hOverPower 0 0 = 2 := by
  have run : execRelight 0 wideOverpowerState = .next t := h
  rw [execRelight, if_neg (by decide +kernel)] at run
  have idle : (((wideOverpowerState.stamp 0).rd .hHeartMiss 0 0 != 0) ||
      (List.range 160).any fun n => (wideOverpowerState.stamp 0).on .hOverPower 0 n) = false := by decide +kernel
  simp only [idle] at run
  obtain rfl := Host.Outcome.next.inj run
  decide +kernel

/-- Refutes O30: the clause on RELIGHT has every laser's overpower mark zero after a relight, in every state; no
hypothesis asks for the invariant, which holds each number to its field's width. Where the mark of one bit holds 2, the
laser counts as not fired, and RELIGHT clears the shutdown and leaves the mark. -/
theorem not_laserUnits : ¬ Obligations.LaserUnits := by
  unfold Obligations.LaserUnits
  intro h
  obtain ⟨-, -, -, -, -, -, -, relight, -⟩ := h wideOverpowerState 0 0 (by decide)
  obtain ⟨-, t, run, same | ⟨-, -, cleared⟩⟩ := relight (by decide +kernel) (by decide)
  · exact absurd ((same.1 .oeStatusShutdown 0 0 (by decide)).symm.trans (wideOverpowerState_relit run).1) (by decide)
  · exact absurd ((cleared 0 (by decide)).symm.trans (wideOverpowerState_relit run).2) (by decide)

/-! ## A port retrain that failed sixteen times (R311, R316) -/

/-- Port 0 while a calibration of the peer's runs: its request for a port retrain was repeated 16 times, and a lane
request waits. -/
def stuckRetrain : State :=
  State.reset.setLink 0 { Link.init with
    request := some ⟨0x40, 0, 1, 16⟩
    again := [(0x20, 0)]
    peerCal := true }

/-- The retrain goes before the request that waits. -/
theorem stuckRetrain_again {t : State} (h : Runs (.requestRepeat 0 0) stuckRetrain t) :
    (t.link 0).again = [(0x40, 0), (0x20, 0)] := by
  have run : execRequestRepeat 0 0 stuckRetrain = .next t := h
  rw [execRequestRepeat, State.atEnd, if_pos (by decide)] at run
  obtain rfl := Host.Outcome.next.inj run
  decide +kernel

/-- Refutes O34: the clause on REQUEST_REPEAT has a request that failed wait behind those that wait already, while a
port retrain goes before every other (R316). -/
theorem not_linkTransmission : ¬ Obligations.LinkTransmission := by
  unfold Obligations.LinkTransmission
  intro h
  obtain ⟨-, -, -, repeats⟩ := h stuckRetrain 0 0 (by decide)
  obtain ⟨-, fails⟩ := repeats ⟨0x40, 0, 1, 16⟩ (by decide)
  obtain ⟨t, run, -, waits, -⟩ := fails (by decide)
  exact absurd ((waits (by decide)).2.symm.trans (stuckRetrain_again run)) (by decide)

end Sys2Proof.Machine

/-!
# Rings, spares and calibrations of the optical engines (R241 to R261)

The footprints and answers of what the commands of an engine share: a lane's ring sweeps, its spare is taken, its
calibration starts, its port asks the peer.
-/

namespace Sys2Proof.Machine

-- Proofs checked one after another hold fewer threads' stacks at a time, which the memory of one process needs.
set_option Elab.async false

section
variable {s t w : State} {fs gs : List Field} {ps qs : List Part}

/-! ## Footprints, one operation after another -/

/-- One more operation, of a smaller footprint. -/
theorem changes.step (h : changes fs ps s t) (h' : changes gs qs t w) (hf : gs ⊆ fs := by decide)
    (hp : qs ⊆ ps := by decide) : changes fs ps s w := h.trans (h'.mono hf hp)

/-- A field read after an event set a bit of a field. -/
theorem State.rd_orBit (s : State) (f g : Field) (i j a b k : Nat) :
    (s.orBit f i j k).rd g a b = if f = g ∧ i = a ∧ j = b then f.fit (setBit (s.rd f i j) k) else s.rd g a b :=
  State.rd_wr ..

/-! ## Ports, fibres and rings (R241, R245, R275) -/

theorem portOf_div {j : Nat} (k : Nat) (hj : j < 4) : portOf k j / 4 = k := by unfold portOf; omega

/-- A slot is always of one of the engine's four port banks. -/
theorem State.bankAt_lt (s : State) (k w : Nat) {f : Nat} (hf : f < 4) : s.bankAt k w f < 4 := by
  unfold State.bankAt State.bankBy
  split
  · exact hf
  · split
    · exact hf
    · exact Nat.mod_lt _ (by decide)

theorem State.fibreOf_lt (s : State) (k w : Nat) {j : Nat} (hj : j < 4) : s.fibreOf k w j < 4 := by
  unfold State.fibreOf
  cases h : (List.range 4).find? fun f => s.bankAt k w f = j with
  | none => exact hj
  | some f => exact List.mem_range.mp (List.mem_of_find?_eq_some h)

/-! ### What the route in force says, where it and the imposition stay -/

section
variable (h : changes fs ps s t) (route : .oeRouteCurrent ∉ fs) (active : .active ∉ ps)
include h route active

theorem bankAt_of_changes (k lane f : Nat) : t.bankAt k lane f = s.bankAt k lane f := by
  have same : t.active = s.active := h.2 .active active
  have current : t.rd .oeRouteCurrent k 0 = s.rd .oeRouteCurrent k 0 := h.1 _ _ _ route
  simp only [State.bankAt, State.bankBy, same, current]

theorem fibreOf_of_changes (k lane j : Nat) : t.fibreOf k lane j = s.fibreOf k lane j := by
  simp only [State.fibreOf, bankAt_of_changes h route active]

theorem fib_of_changes (n lane d : Nat) : t.fib n lane d = s.fib n lane d := by
  simp only [State.fib, fibreOf_of_changes h route active]

theorem fibPort_of_changes (k f lane : Nat) : t.fibPort k f lane = s.fibPort k f lane := by
  simp only [State.fibPort, bankAt_of_changes h route active]

theorem ringFib_of_changes (k r : Nat) : t.ringFib k r = s.ringFib k r := by
  simp only [State.ringFib, fib_of_changes h route active]

theorem laneRing_of_changes (n lane d : Nat) : t.laneRing n lane d = s.laneRing n lane d := by
  simp only [State.laneRing, fibreOf_of_changes h route active]

end

/-! ## Requests and MARKs (R310, R311) -/

theorem State.sendByp_changes (s : State) (n kind arg reqno : Nat) :
    changes [] [.links] s (s.sendByp n kind arg reqno) := (changes.refl s).setLink _ _ (by decide)

theorem State.mark_changes (s : State) (n : Nat) (l : List (Nat × Bool)) : changes [] [.links] s (s.mark n l) :=
  (changes.refl s).setLink _ _ (by decide)

theorem State.issue_changes (s : State) (n kind arg : Nat) : changes [] [.links] s (s.issue n kind arg) := by
  unfold State.issue
  dsimp only
  split
  · exact (changes.refl s).setLink _ _ (by decide)
  · exact ((changes.refl s).setLink _ _ (by decide)).step (State.sendByp_changes ..)

theorem State.laneReq_changes (s : State) (n lane action : Nat) : changes [] [.links] s (s.laneReq n lane action) :=
  s.issue_changes ..

/-- A request that finds none outstanding is outstanding. -/
theorem asked_issue (s : State) (n kind arg : Nat) : asked n kind arg s (s.issue n kind arg) := by
  intro none
  simp only [State.issue, none]
  simp [State.sendByp, State.link_setLink]

theorem asked_of_link {n kind arg : Nat} (h : s.link n = t.link n) (h' : asked n kind arg t w) : asked n kind arg s w :=
  fun none => h' (h ▸ none)

theorem endIdentity_of_changes (h : changes fs ps s t) (hf : .fabIdentityIdentity ∉ fs) (n : Nat) :
    t.endIdentity n = s.endIdentity n := by
  have same : t.identity = s.identity := h.1 _ _ _ hf
  simp only [State.endIdentity, same]

/-! ## The spare of a fibre (R252) -/

/-- Numbers that a spare's use moves. -/
def spareFields : List Field := [.oeFibreStatusSpareUse, .oeFibreStatusSpareLane]

theorem State.putSpare_changes (s : State) (k f use lane : Nat) :
    changes spareFields [] s (s.putSpare k f use lane) :=
  ((changes.refl s).wr _ _ _ _ (by decide)).wr _ _ _ _ (by decide)

theorem State.putSpare_use (s : State) (k f lane : Nat) {use : Nat} (hu : use < 16) :
    (s.putSpare k f use lane).spareUse k f = use := by
  unfold State.putSpare State.spareUse
  rw [State.rd_wr_ne _ _ _ _ _ _ _ _ (by decide), State.rd_wr_same]
  exact Nat.mod_eq_of_lt hu

theorem State.putSpare_lane (s : State) (k f : Nat) {use lane : Nat} (hl : lane < 16) (free : use ≠ suFree)
    (out : use ≠ suUnavailable) : (s.putSpare k f use lane).rd .oeFibreStatusSpareLane k f = lane := by
  unfold State.putSpare
  rw [State.rd_wr_same, if_neg (by simp [free, out])]
  exact Nat.mod_eq_of_lt hl

/-- The spare of another fibre keeps its use and its lane. -/
theorem State.putSpare_other (s : State) (k use lane : Nat) {f g : Nat} (h : f ≠ g) :
    (s.putSpare k f use lane).spareUse k g = s.spareUse k g ∧
    (s.putSpare k f use lane).rd .oeFibreStatusSpareLane k g = s.rd .oeFibreStatusSpareLane k g := by
  simp [State.putSpare, State.spareUse, State.rd_wr, h]

/-! ## Calibrations (R254 to R258) -/

theorem State.laneMoved_changes (s : State) (n lane : Nat) : changes [.oeRingState] [] s (s.laneMoved n lane) := by
  have set (r v : Nat) (c : Prop) [Decidable c] {x : State} (h : changes [.oeRingState] [] s x) :
      changes [.oeRingState] [] s (if c then x.wr .oeRingState (n / 4) r v else x) :=
    .ite (fun _ => h.wr _ _ _ _ (by decide)) fun _ => h
  unfold State.laneMoved
  refine .ite (fun _ => .refl s) fun _ => ?_
  extract_lets k tx rx sweep s1 s2
  have first : changes [.oeRingState] [] s s1 := .ite (fun _ => .refl s) fun _ => set _ _ _ (.refl s)
  have second : changes [.oeRingState] [] s s2 := .ite (fun _ => first) fun _ => set _ _ _ first
  split
  · exact second
  · refine .ite (fun _ => second) fun _ => ?_
    extract_lets s3
    have third : changes [.oeRingState] [] s s3 := .ite (fun _ => set _ _ _ second) fun _ => second
    exact .ite (fun _ => set _ _ _ third) fun _ => third

/-- Numbers that a calibration's start moves. -/
def calFields : List Field := [.oeRingState, .calRecRuns, .oeFibreStatusSpareUse, .oeFibreStatusSpareLane]

/-- The calibration of lane w of port n that begins now (R256). -/
def State.newCal (s : State) (n lane : Nat) : CalJob :=
  ⟨n / 4, n % 4, s.fibreOf (n / 4) lane (n % 4), lane, false, none, none,
    s.rd .oeRingLockCode (n / 4) (s.laneRing n lane 0), s.rd .oeRingLockCode (n / 4) (s.laneRing n lane 1)⟩

theorem State.beginCal_changes (s : State) (n lane : Nat) :
    changes [.oeRingState, .calRecRuns] [.calJobs, .calRuns] s (s.beginCal n lane) := by
  unfold State.beginCal
  extract_lets k c s1
  have first : changes [.oeRingState, .calRecRuns] [.calJobs, .calRuns] s s1 :=
    (changes.refl s).parts rfl fun q hq => by cases q <;> first | rfl | exact absurd (by decide) hq
  exact (first.bump _ _ _ _ (by decide)).step (State.laneMoved_changes ..)

theorem State.beginCal_calJobs (s : State) (n lane : Nat) :
    (s.beginCal n lane).calJobs = s.calJobs ++ [s.newCal n lane] := by
  unfold State.beginCal
  extract_lets k c s1
  exact ((State.laneMoved_changes ..).2 .calJobs (by decide)).trans
    (((changes.refl (fs := [.calRecRuns]) (ps := []) s1).bump _ _ _ _ (by decide)).2 .calJobs (by decide))

theorem State.calSpare_changes (s : State) (k f lane : Nat) : changes spareFields [] s (s.calSpare k f lane) :=
  .ite (fun _ => s.putSpare_changes ..) fun _ => .refl s

theorem State.calSpares_changes (s : State) (n lane : Nat) : changes spareFields [] s (s.calSpares n lane) :=
  (s.calSpare_changes ..).step (State.calSpare_changes ..)

theorem State.startCal_changes (s : State) (n lane : Nat) :
    changes calFields [.calJobs, .calRuns, .links] s (s.startCal n lane) := by
  have begun : changes calFields [.calJobs, .calRuns, .links] s (s.beginCal n lane) :=
    (s.beginCal_changes n lane).mono (by decide) (by decide)
  exact .ite (fun _ => (begun.step (State.calSpares_changes ..)).step (State.laneReq_changes ..)) fun _ => begun

theorem State.tryCal_changes (s : State) (k g : Nat) :
    changes calFields [.calJobs, .calRuns, .links] s (s.tryCal k g) := by
  unfold State.tryCal
  refine .ite (fun _ => ?_) fun _ => .refl s
  split
  · exact s.startCal_changes ..
  · exact .refl s

theorem State.setDue_changes (s : State) (k g lane : Nat) :
    changes [.oeFibreStatusCalDue] [] s (s.setDue k g lane) :=
  ((changes.refl s).orBit _ _ _ _ (by decide)).orBit _ _ _ _ (by decide)

/-- A lane that becomes due shows due on both fibres of its pair. -/
theorem State.setDue_due (s : State) (k g : Nat) {lane : Nat} (hl : lane < 10) :
    (s.setDue k g lane).due k (2 * g) lane = true ∧ (s.setDue k g lane).due k (2 * g + 1) lane = true := by
  have shown (x : Nat) : bit (Field.oeFibreStatusCalDue.fit (setBit x lane)) lane = true := bit_setBit_mod hl
  unfold State.due State.setDue
  refine ⟨?_, ?_⟩
  · rw [State.rd_orBit, if_neg (by simp), State.rd_orBit, if_pos ⟨rfl, rfl, rfl⟩]
    exact shown _
  · rw [State.rd_orBit, if_pos ⟨rfl, rfl, rfl⟩]
    exact shown _

end

end Sys2Proof.Machine

/-!
# Heater loops, calibration control and power monitors (R246 to R261)
-/

namespace Sys2Proof.Machine

-- Proofs checked one after another hold fewer threads' stacks at a time, which the memory of one process needs.
set_option Elab.async false

section
variable {s t : State} {k r : Nat}

/-! ## HEATER_LOOP_UPDATE (R246 to R248, R254) -/

theorem twos_lt (w : Nat) (x : Int) : twos w x < 2 ^ w := by
  have := Int.emod_lt_of_pos x (show (0 : Int) < (2 ^ w : Nat) from mod_cast Nat.two_pow_pos w)
  have := Int.emod_nonneg x (show ((2 ^ w : Nat) : Int) ≠ 0 from mod_cast (Nat.two_pow_pos w).ne')
  unfold twos
  omega

theorem clampI_le {x lo hi : Int} (h : lo ≤ hi) : clampI x lo hi ≤ hi := by
  unfold clampI
  split
  · exact h
  · split <;> omega

/-- The loop of a ring after an update: its correction, bias and drive. -/
def State.looped (s : State) (k r : Nat) (e b d : Int) : State :=
  (({ s with ringErr := s.ringErr.put (k, r) e } : State).wr .oeRingBias k r (twos 12 b)).wr .oeRingDrive k r d.toNat

theorem State.looped_changes (s : State) (k r : Nat) (e b d : Int) :
    changes [.oeRingBias, .oeRingDrive] [.ringErr] s (s.looped k r e b d) := by
  have corrected : changes [.oeRingBias, .oeRingDrive] [.ringErr] s { s with ringErr := s.ringErr.put (k, r) e } :=
    (changes.refl s).parts rfl fun q hq => by cases q <;> first | rfl | exact absurd (by decide) hq
  exact (corrected.wr _ _ _ _ (by decide)).wr _ _ _ _ (by decide)

theorem State.looped_shows (s : State) (k r : Nat) (e b : Int) {d : Int} (hd : d ≤ 4095) :
    (s.looped k r e b d).ringErr = s.ringErr.put (k, r) e ∧ (s.looped k r e b d).rd .oeRingBias k r = twos 12 b ∧
      (s.looped k r e b d).rd .oeRingDrive k r = d.toNat := by
  refine ⟨rfl, ?_, ?_⟩
  · rw [State.looped, State.rd_wr_ne _ _ _ _ _ _ _ _ (by decide), State.rd_wr_same]
    exact Nat.mod_eq_of_lt (twos_lt 12 b)
  · rw [State.looped, State.rd_wr_same]
    exact Nat.mod_eq_of_lt (show d.toNat < 2 ^ 12 by omega)

/-- The lane of a ring whose correction has gone far is due, and its calibration starts where it can. -/
def State.loopDue (s : State) (k r : Nat) (e : Int) : State :=
  if 256 < e.natAbs && s.rd .hOeCalMode k (s.ringFib k r / 2) = 0 then
    (s.setDue k (s.ringFib k r / 2) (r % 10)).tryCal k (s.ringFib k r / 2) else s

theorem State.loopDue_changes (s : State) (k r : Nat) (e : Int) :
    changes (.oeFibreStatusCalDue :: calFields) [.calJobs, .calRuns, .links] s (s.loopDue k r e) :=
  .ite (fun _ => ((s.setDue_changes ..).mono (by decide) (by decide)).step (State.tryCal_changes ..)) fun _ => .refl s

/-- The lane of a far correction in native mode is due on both fibres of its pair. -/
theorem State.loopDue_due (s : State) (k r : Nat) {e : Int} (far : 256 < e.natAbs)
    (native : s.rd .hOeCalMode k (s.ringFib k r / 2) = 0) :
    (s.loopDue k r e).due k (2 * (s.ringFib k r / 2)) (r % 10) = true ∧
      (s.loopDue k r e).due k (2 * (s.ringFib k r / 2) + 1) (r % 10) = true := by
  rw [State.loopDue, if_pos (by simp [far, native])]
  have due := s.setDue_due k (s.ringFib k r / 2) (Nat.mod_lt r (show 0 < 10 by decide))
  have kept (f : Nat) := ((s.setDue k (s.ringFib k r / 2) (r % 10)).tryCal_changes k (s.ringFib k r / 2)).1
    .oeFibreStatusCalDue k f (by decide)
  exact ⟨(congrArg (bit · _) (kept _)).trans due.1, (congrArg (bit · _) (kept _)).trans due.2⟩

theorem heaterLoopUpdate_runs (hk : k < 8) (hr : r < 80) (locked : s.ringState k r = 2) (err : Int) :
    let e := s.ringErr.getD (k, r) 0 + clampI err (-2) 2
    let b0 := sgn 12 (s.rd .oeRingBias k r)
    let b := b0 + clampI (Config.heaterBias k (s.rd .oeStatusBand k 0) - b0) (-2) 2
    let d := clampI (Int.ofNat (s.rd .oeRingLockCode k r) + b + e - s.crosstalk k r) 0 4095
    Runs (.heaterLoopUpdate k r err) s ((s.looped k r e b d).loopDue k r e) := by
  intro e b0 b d
  show execHeaterLoopUpdate k r err s = _
  rw [execHeaterLoopUpdate, if_pos (by simp [hk, hr]), if_pos locked]
  rfl

/-- A ring that is locked: its loop moves, and its lane is due where the correction has gone far. -/
theorem heaterLoop_locked (hk : k < 8) (hr : r < 80) (locked : s.ringState k r = 2) (err : Int) :
    let g := s.ringFib k r / 2
    let e := s.ringErr.getD (k, r) 0 + clampI err (-2) 2
    let b0 := sgn 12 (s.rd .oeRingBias k r)
    let b := b0 + clampI (Config.heaterBias k (s.rd .oeStatusBand k 0) - b0) (-2) 2
    let d := clampI (Int.ofNat (s.rd .oeRingLockCode k r) + b + e - s.crosstalk k r) 0 4095
    ∃ t, Runs (.heaterLoopUpdate k r err) s t ∧ t.ringErr = s.ringErr.put (k, r) e ∧
      t.rd .oeRingBias k r = twos 12 b ∧ t.rd .oeRingDrive k r = d.toNat ∧
      (256 < e.natAbs → s.rd .hOeCalMode k g = 0 → t.due k (2 * g) (r % 10) = true ∧
        t.due k (2 * g + 1) (r % 10) = true) ∧
      (e.natAbs ≤ 256 ∨ s.rd .hOeCalMode k g ≠ 0 → changes [.oeRingBias, .oeRingDrive] [.ringErr] s t) ∧
      touches [.cal, .oe] [.calJobs, .calRuns, .ringErr, .links] s t := by
  intro g e b0 b d
  have moved := s.looped_changes k r e b d
  have due := (s.looped k r e b d).loopDue_changes k r e
  obtain ⟨err', bias, drive⟩ := s.looped_shows k r e b (d := d) (clampI_le (by decide))
  have pair : (s.looped k r e b d).ringFib k r / 2 = g := by
    rw [ringFib_of_changes moved (by decide) (by decide)]
  have mode : (s.looped k r e b d).rd .hOeCalMode k g = s.rd .hOeCalMode k g := moved.1 _ _ _ (by decide)
  refine ⟨_, heaterLoopUpdate_runs hk hr locked err, (due.2 .ringErr (by decide)).trans err',
    (due.1 _ _ _ (by decide)).trans bias, (due.1 _ _ _ (by decide)).trans drive, fun far native => ?_, fun near => ?_,
    touches_of_changes (fs := .oeRingBias :: .oeRingDrive :: .oeFibreStatusCalDue :: calFields)
      ((moved.mono (by decide) (by decide)).step due) (by decide)⟩
  · have both := State.loopDue_due _ k r far (pair.symm ▸ mode.trans native)
    rwa [pair] at both
  · rwa [State.loopDue, pair, mode, if_neg]
    simp only [Bool.and_eq_true, decide_eq_true_eq, not_and]
    exact fun far native => near.elim (fun h => absurd far (Nat.not_lt.mpr h)) (fun h => h native)

/-! ## OE_CAL_CTRL_WRITE (R254, R255) -/

theorem State.calMode_changes (s : State) (k g : Nat) : changes [.hOeCalMode] [] s (s.calMode k g) :=
  .ite (fun _ => .refl s) fun _ => (changes.refl s).wr _ _ _ _ (by decide)

/-- A calibration runs on fibre pair g of engine k. -/
def State.pairBusy (s : State) (k g : Nat) : Bool := s.calJobs.any fun c => c.engine = k && c.fibre = g

theorem State.pairBusy_iff (s : State) (k g : Nat) :
    s.pairBusy k g = true ↔ ∃ c ∈ s.calJobs, c.engine = k ∧ c.fibre = g := by
  simp [State.pairBusy]

theorem State.calMode_eq (s : State) (k g : Nat) :
    s.calMode k g = if s.pairBusy k g then s else s.wr .hOeCalMode k g (s.rd .oeCalCtrlMode k 0) := rfl

/-- The mode of a fibre pair follows the engine's where no calibration runs there. -/
theorem State.calMode_rd (s : State) (k g x : Nat) : (s.calMode k g).rd .hOeCalMode k x =
    if g = x ∧ s.pairBusy k g = false then s.rd .oeCalCtrlMode k 0 % 2 else s.rd .hOeCalMode k x := by
  rw [State.calMode_eq]
  cases s.pairBusy k g
  · simp only [Bool.false_eq_true, if_false, State.rd_wr, true_and, and_true]
    rfl
  · simp

/-- The modes of the pairs of a list follow the engine's, each where no calibration runs. -/
theorem State.each_calMode_rd (s : State) (k : Nat) (l : List Nat) (x : Nat) :
    (s.each l fun s g => s.calMode k g).rd .hOeCalMode k x =
      if x ∈ l ∧ s.pairBusy k x = false then s.rd .oeCalCtrlMode k 0 % 2 else s.rd .hOeCalMode k x := by
  induction l generalizing s with
  | nil => simp [State.each_nil]
  | cons g l ih =>
    have one := s.calMode_changes k g
    have busy : (s.calMode k g).pairBusy k x = s.pairBusy k x := congrArg (List.any · _) (one.2 .calJobs (by decide))
    have mode : (s.calMode k g).rd .oeCalCtrlMode k 0 = s.rd .oeCalCtrlMode k 0 := one.1 _ _ _ (by decide)
    rw [State.each_cons, ih, busy, mode, State.calMode_rd]
    by_cases hg : g = x
    · subst hg
      cases s.pairBusy k g <;> simp
    · simp [hg, Ne.symm hg]

theorem oeCalCtrlWrite_runs (hk : k < 8) (value : Nat) :
    ∃ t, Runs (.oeCalCtrlWrite k value) s t ∧
      t.rd .oeCalCtrlDelta k 0 = max 4 (min 40 (value % 256)) ∧ t.rd .oeCalCtrlMode k 0 = value / 256 % 2 ∧
      (∀ g < 4, ((∀ c ∈ s.calJobs, c.engine ≠ k ∨ c.fibre ≠ g) → t.rd .hOeCalMode k g = value / 256 % 2) ∧
        ((∃ c ∈ s.calJobs, c.engine = k ∧ c.fibre = g) → t.rd .hOeCalMode k g = s.rd .hOeCalMode k g)) ∧
      changes [.oeCalCtrlDelta, .oeCalCtrlMode, .hOeCalMode] [] s t := by
  let d := if value % 256 < 4 then 4 else if 40 < value % 256 then 40 else value % 256
  let w := (s.wr .oeCalCtrlDelta k 0 d).wr .oeCalCtrlMode k 0 (bitsAt value 8 1)
  have written : changes [.oeCalCtrlDelta, .oeCalCtrlMode, .hOeCalMode] [] s w :=
    ((changes.refl s).wr _ _ _ _ (by decide)).wr _ _ _ _ (by decide)
  have modes : changes [.hOeCalMode] [] w (w.each (List.range 4) fun s g => s.calMode k g) :=
    .each _ _ (fun x g h => h.step (x.calMode_changes k g)) (.refl w)
  have run : Runs (.oeCalCtrlWrite k value) s (w.each (List.range 4) fun s g => s.calMode k g) := by
    show execOeCalCtrlWrite k value s = _
    rw [execOeCalCtrlWrite, if_pos hk]
  have mode : w.rd .oeCalCtrlMode k 0 = value / 256 % 2 := by
    rw [State.rd_wr_same]
    exact Nat.mod_mod _ _
  have held : d = max 4 (min 40 (value % 256)) := by
    simp only [d]
    split <;> [omega; split <;> omega]
  refine ⟨_, run, (modes.1 _ _ _ (by decide)).trans ?_, (modes.1 _ _ _ (by decide)).trans mode, fun g hg => ?_,
    written.step modes⟩
  · rw [State.rd_wr_ne _ _ _ _ _ _ _ _ (by decide), State.rd_wr_same]
    exact (Nat.mod_eq_of_lt (show d < 2 ^ 8 by omega)).trans held
  · have busy : w.pairBusy k g = s.pairBusy k g := rfl
    have shown := w.each_calMode_rd k (List.range 4) g
    rw [mode, busy] at shown
    refine ⟨fun free => shown.trans ?_, fun running => shown.trans ?_⟩
    · have idle : s.pairBusy k g = false := Bool.eq_false_iff.mpr fun h => by
        obtain ⟨c, hc, engine, fibre⟩ := (s.pairBusy_iff k g).mp h
        exact (free c hc).elim (fun e => e engine) fun e => e fibre
      rw [idle, if_pos ⟨List.mem_range.mpr hg, rfl⟩, Nat.mod_mod]
    · rw [(s.pairBusy_iff k g).mpr running, if_neg (by simp), State.rd_wr_ne _ _ _ _ _ _ _ _ (by decide),
        State.rd_wr_ne _ _ _ _ _ _ _ _ (by decide)]

/-! ## POWER_MONITOR_SAMPLE (R260, R261) -/

/-- The monitors of engine k show a sample. -/
def State.monitored (s : State) (k : Nat) (m : MonSample) : State :=
  let v (l : List Int) (i : Nat) : Nat := twos 16 (l.getD i (-32768))
  let s := s.each (List.range 10) fun s w =>
    (s.wr .oeSrcMonS1A k w (v m.s1a w)).wr .oeSrcMonS1B k w (v m.s1b w)
  s.each (List.range 40) fun s i =>
    (((s.wr .oeMonS2 k i (v m.s2 i)).wr .oeMonS4 k i (v m.s4 i)).wr .oeMonS5 k i (v m.s5 i)).wr .oeMonS6 k i (v m.s6 i)

/-- The monitors. -/
def monFields : List Field := [.oeSrcMonS1A, .oeSrcMonS1B, .oeMonS2, .oeMonS4, .oeMonS5, .oeMonS6]

/-- What each step of a list writes for its own element of one field stands after the list. -/
theorem State.each_shows (f : Field) (k : Nat) (v : Nat → Nat) (g : State → Nat → State)
    (same : ∀ s i, (g s i).rd f k i = v i) (other : ∀ s i j, i ≠ j → (g s i).rd f k j = s.rd f k j) {l : List Nat}
    {i : Nat} (hi : i ∈ l) (s : State) : (s.each l g).rd f k i = v i := by
  have keeps (l : List Nat) (w : State) (h : w.rd f k i = v i) : (w.each l g).rd f k i = v i := by
    induction l generalizing w with
    | nil => exact h
    | cons a l ih =>
      refine ih _ ?_
      by_cases e : a = i
      · exact e ▸ same w a
      · exact (other w a i e).trans h
  induction l generalizing s with
  | nil => exact nomatch hi
  | cons a l ih =>
    rcases List.mem_cons.mp hi with rfl | hi
    · exact keeps l _ (same s i)
    · exact ih hi _

theorem State.monitored_changes (s : State) (k : Nat) (m : MonSample) : changes monFields [] s (s.monitored k m) :=
  .each _ _ (fun _ _ h => (((h.wr _ _ _ _ (by decide)).wr _ _ _ _ (by decide)).wr _ _ _ _ (by decide)).wr _ _ _ _
    (by decide)) (.each _ _ (fun _ _ h => (h.wr _ _ _ _ (by decide)).wr _ _ _ _ (by decide)) (.refl s))

/-- A reading as a monitor shows it fits the monitor. -/
theorem fit_twos {f : Field} (x : Int) (hf : f.spec.width = 16) : f.fit (twos 16 x) = twos 16 x :=
  Field.fit_of_lt (hf ▸ twos_lt 16 x)

theorem State.monitored_source (s : State) (k : Nat) (m : MonSample) {i : Nat} (hi : i < 10) :
    (s.monitored k m).rd .oeSrcMonS1A k i = twos 16 (m.s1a.getD i (-32768)) ∧
      (s.monitored k m).rd .oeSrcMonS1B k i = twos 16 (m.s1b.getD i (-32768)) := by
  unfold State.monitored
  refine ⟨?_, ?_⟩ <;> rw [State.rd_each _ _ _ _ _ fun s a => by simp [State.rd_wr]]
  · refine State.each_shows _ k (fun i => twos 16 (m.s1a.getD i (-32768))) _ (fun s i => ?_)
      (fun s i j h => by simp [State.rd_wr, h]) (List.mem_range.mpr hi) s
    rw [State.rd_wr_ne _ _ _ _ _ _ _ _ (by decide), State.rd_wr_same, fit_twos _ rfl]
  · refine State.each_shows _ k (fun i => twos 16 (m.s1b.getD i (-32768))) _ (fun s i => ?_)
      (fun s i j h => by simp [State.rd_wr, h]) (List.mem_range.mpr hi) s
    rw [State.rd_wr_same, fit_twos _ rfl]

theorem State.monitored_path (s : State) (k : Nat) (m : MonSample) {i : Nat} (hi : i < 40) :
    (s.monitored k m).rd .oeMonS2 k i = twos 16 (m.s2.getD i (-32768)) ∧
      (s.monitored k m).rd .oeMonS4 k i = twos 16 (m.s4.getD i (-32768)) ∧
      (s.monitored k m).rd .oeMonS5 k i = twos 16 (m.s5.getD i (-32768)) ∧
      (s.monitored k m).rd .oeMonS6 k i = twos 16 (m.s6.getD i (-32768)) := by
  have at_ := List.mem_range.mpr hi
  unfold State.monitored
  refine ⟨?_, ?_, ?_, ?_⟩
  · refine State.each_shows _ k (fun i => twos 16 (m.s2.getD i (-32768))) _ (fun s i => ?_)
      (fun s i j h => by simp [State.rd_wr, h]) at_ _
    rw [State.rd_wr_ne _ _ _ _ _ _ _ _ (by decide), State.rd_wr_ne _ _ _ _ _ _ _ _ (by decide),
      State.rd_wr_ne _ _ _ _ _ _ _ _ (by decide), State.rd_wr_same, fit_twos _ rfl]
  · refine State.each_shows _ k (fun i => twos 16 (m.s4.getD i (-32768))) _ (fun s i => ?_)
      (fun s i j h => by simp [State.rd_wr, h]) at_ _
    rw [State.rd_wr_ne _ _ _ _ _ _ _ _ (by decide), State.rd_wr_ne _ _ _ _ _ _ _ _ (by decide), State.rd_wr_same,
      fit_twos _ rfl]
  · refine State.each_shows _ k (fun i => twos 16 (m.s5.getD i (-32768))) _ (fun s i => ?_)
      (fun s i j h => by simp [State.rd_wr, h]) at_ _
    rw [State.rd_wr_ne _ _ _ _ _ _ _ _ (by decide), State.rd_wr_same, fit_twos _ rfl]
  · refine State.each_shows _ k (fun i => twos 16 (m.s6.getD i (-32768))) _ (fun s i => ?_)
      (fun s i j h => by simp [State.rd_wr, h]) at_ _
    rw [State.rd_wr_same, fit_twos _ rfl]

/-- The losses of a sample do not depend on what the monitors show. -/
theorem State.monitored_losses (s : State) (k : Nat) (m : MonSample) :
    (s.monitored k m).losses k m = s.losses k m := by
  have shown := s.monitored_changes k m
  have keeps (f : Field) (i j : Nat) (hf : f ∉ monFields := by decide) :
      (s.monitored k m).rd f i j = s.rd f i j := shown.1 f i j hf
  have tx (j w : Nat) : (s.monitored k m).txLoss k m j w = s.txLoss k m j w := by
    simp only [State.txLoss, State.carrier, keeps .oeFibreStatusLevel, keeps .lsuLaserLit, keeps .hLsuSel,
      fibreOf_of_changes shown (by decide) (by decide)]
  have rx (j w : Nat) : (s.monitored k m).rxLoss k m j w = s.rxLoss k m j w := by
    simp only [State.rxLoss, keeps .oeRingState]
  simp only [State.losses, tx, rx]

/-- A loss located: its element, bank, direction, wavelength and excess show. -/
def State.located (s : State) (k : Nat) (x : LossAt) : State :=
  s.wrAll [(.oeLossFaultValid, k, 0, 1), (.oeLossFaultExcess, k, 0, x.excess),
    (.oeLossFaultElement, k, 0, x.element), (.oeLossFaultBank, k, 0, x.bank),
    (.oeLossFaultDir, k, 0, x.dir), (.oeLossFaultWavelength, k, 0, x.w)]

/-- Numbers that locate a loss. -/
def lossFields : List Field :=
  [.oeLossFaultValid, .oeLossFaultExcess, .oeLossFaultElement, .oeLossFaultBank, .oeLossFaultDir,
    .oeLossFaultWavelength]

theorem State.located_changes (s : State) (k : Nat) (x : LossAt) : changes lossFields [] s (s.located k x) :=
  (changes.refl s).wrAll _ (by simp [lossFields])

theorem State.located_shows (s : State) (k : Nat) (x : LossAt) :
    (s.located k x).rd .oeLossFaultValid k 0 = 1 ∧ (s.located k x).rd .oeLossFaultElement k 0 = x.element % 16 ∧
      (s.located k x).rd .oeLossFaultBank k 0 = x.bank % 4 ∧ (s.located k x).rd .oeLossFaultDir k 0 = x.dir % 2 ∧
      (s.located k x).rd .oeLossFaultWavelength k 0 = x.w % 16 ∧
      (s.located k x).rd .oeLossFaultExcess k 0 = x.excess % 256 := by
  simp only [State.located, State.wrAll, List.foldl_cons, List.foldl_nil, State.rd_wr, reduceCtorEq, false_and,
    and_self, if_true, if_false]
  exact ⟨rfl, rfl, rfl, rfl, rfl, rfl⟩

/-- What a sample leaves: the monitors, and the first loss where none is shown yet. -/
def State.sampled (s : State) (k : Nat) (m : MonSample) : State :=
  match s.losses k m with
  | [] => s.monitored k m
  | x :: _ => if s.on .oeLossFaultValid k 0 then s.monitored k m else (s.monitored k m).located k x

theorem powerMonitorSample_runs (hk : k < 8) (m : MonSample) (u : Nat) :
    Runs (.powerMonitorSample k m u) s ((s.stamp u).sampled k m) := by
  show execPowerMonitorSample k m u s = _
  have valid : ((s.stamp u).monitored k m).on .oeLossFaultValid k 0 = (s.stamp u).on .oeLossFaultValid k 0 :=
    congrArg (fun x => decide (x = 1)) (((s.stamp u).monitored_changes k m).1 _ _ _ (by decide))
  rw [execPowerMonitorSample, if_pos hk, State.sampled, ← State.monitored_losses, ← valid]
  change (match ((s.stamp u).monitored k m).losses k m with
    | [] => Host.Outcome.next ((s.stamp u).monitored k m)
    | x :: _ => if ((s.stamp u).monitored k m).on .oeLossFaultValid k 0 then
        Host.Outcome.next ((s.stamp u).monitored k m)
      else Host.Outcome.next (((s.stamp u).monitored k m).located k x)) = _
  cases ((s.stamp u).monitored k m).losses k m with
  | nil => rfl
  | cons x l => dsimp only; split <;> rfl

/-- A sample shows in the monitors alone, or in them and in a loss. -/
theorem State.sampled_cases (s : State) (k : Nat) (m : MonSample) :
    s.sampled k m = s.monitored k m ∧ (s.losses k m = [] ∨ s.on .oeLossFaultValid k 0 = true) ∨
      ∃ x l, s.losses k m = x :: l ∧ s.on .oeLossFaultValid k 0 = false ∧
        s.sampled k m = (s.monitored k m).located k x := by
  unfold State.sampled
  cases s.losses k m with
  | nil => exact .inl ⟨rfl, .inl rfl⟩
  | cons x l =>
    dsimp only
    cases s.on .oeLossFaultValid k 0
    · exact .inr ⟨x, l, rfl, rfl, rfl⟩
    · exact .inl ⟨rfl, .inr rfl⟩

theorem State.sampled_changes (s : State) (k : Nat) (m : MonSample) :
    changes (monFields ++ lossFields) [] s (s.sampled k m) := by
  have shown : changes (monFields ++ lossFields) [] s (s.monitored k m) :=
    (s.monitored_changes k m).mono (by decide) (by decide)
  rcases s.sampled_cases k m with ⟨e, _⟩ | ⟨x, l, _, _, e⟩
  · exact e ▸ shown
  · exact e ▸ shown.step (State.located_changes _ k x)

/-- The monitors stand after the loss is located. -/
theorem State.sampled_rd (s : State) (k : Nat) (m : MonSample) {f : Field} (hf : f ∉ lossFields) (i j : Nat) :
    (s.sampled k m).rd f i j = (s.monitored k m).rd f i j := by
  rcases s.sampled_cases k m with ⟨e, _⟩ | ⟨x, l, _, _, e⟩
  · rw [e]
  · rw [e]
    exact ((s.monitored k m).located_changes k x).1 f i j hf

end

/-- Settles O26: the loop of a ring, the calibration control, and the monitors with the first loss. -/
theorem ringLoopsAndMonitors : Obligations.RingLoopsAndMonitors := by
  unfold Obligations.RingLoopsAndMonitors
  refine ⟨fun s k hk => ⟨fun r err hr => ⟨fun locked => heaterLoop_locked hk hr locked err, fun free => ?_⟩,
    fun value => oeCalCtrlWrite_runs hk value⟩, fun s k u m hk => ?_⟩
  · show execHeaterLoopUpdate k r err s = _
    rw [execHeaterLoopUpdate, if_pos (by simp [hk, hr]), if_neg free]
  · intro v
    have time := s.stamp_time u
    have valid : v.on .oeLossFaultValid k 0 = s.on .oeLossFaultValid k 0 :=
      congrArg (fun x => decide (x = 1)) (time.1 _ _ _ (by decide))
    refine ⟨_, powerMonitorSample_runs hk m u, fun w hw => ?_, fun i hi => ?_, fun none => ?_,
      fun x l first fresh => ?_,
      touches_of_changes (fs := timeFields ++ (monFields ++ lossFields))
        ((time.mono (by decide) (by decide)).step (v.sampled_changes k m)) (by decide)⟩
    · rw [State.sampled_rd _ _ _ (by decide), State.sampled_rd _ _ _ (by decide)]
      exact v.monitored_source k m hw
    · rw [State.sampled_rd _ _ _ (by decide), State.sampled_rd _ _ _ (by decide), State.sampled_rd _ _ _ (by decide),
        State.sampled_rd _ _ _ (by decide)]
      exact v.monitored_path k m hi
    · rcases v.sampled_cases k m with ⟨e, _⟩ | ⟨x, l, some, shown, _⟩
      · rw [e]
        exact (time.mono (by decide) (by decide)).step (v.monitored_changes k m)
      · simp_all
    · rcases v.sampled_cases k m with ⟨_, none⟩ | ⟨y, l', some, _, e⟩
      · simp_all
      · obtain ⟨rfl, rfl⟩ := List.cons.inj (first.symm.trans some)
        exact e ▸ State.located_shows _ k x

end Sys2Proof.Machine

/-!
# Calibrations of lanes: due, started, swept, ended (R254 to R259)
-/

namespace Sys2Proof.Machine

-- Proofs checked one after another hold fewer threads' stacks at a time, which the memory of one process needs.
set_option Elab.async false

section
variable {s t : State} {fs : List Field} {ps : List Part} {k j w : Nat}

/-! ## A calibration that starts (R252, R256) -/

theorem State.startCal_data (s : State) (n : Nat) (hw : w < 8) :
    s.startCal n w = ((s.beginCal n w).calSpares n w).laneReq n w 2 := if_pos hw

theorem State.startCal_jobs (s : State) (n : Nat) (hw : w < 8) :
    (s.startCal n w).calJobs = s.calJobs ++ [s.newCal n w] := by
  rw [s.startCal_data n hw]
  calc (((s.beginCal n w).calSpares n w).laneReq n w 2).calJobs
      = ((s.beginCal n w).calSpares n w).calJobs := (State.laneReq_changes ..).2 .calJobs (by decide)
    _ = (s.beginCal n w).calJobs := (State.calSpares_changes ..).2 .calJobs (by decide)
    _ = _ := s.beginCal_calJobs n w

/-- A free transmit spare is put to the calibration of a lane. -/
theorem State.calSpares_takes (s : State) (n : Nat) (hw : w < 16) (free : s.spareUse (n / 4) (s.fib n w 0) = suFree) :
    (s.calSpares n w).spareUse (n / 4) (s.fib n w 0) = suCal ∧
      (s.calSpares n w).rd .oeFibreStatusSpareLane (n / 4) (s.fib n w 0) = w := by
  have differ : s.fib n w 1 ≠ s.fib n w 0 := by simp [State.fib]
  have taken : s.calSpare (n / 4) (s.fib n w 0) w = s.putSpare (n / 4) (s.fib n w 0) suCal w := if_pos free
  rw [State.calSpares, taken]
  have first := s.putSpare_use (n / 4) (s.fib n w 0) w (use := suCal) (by decide)
  have lane := s.putSpare_lane (n / 4) (s.fib n w 0) (use := suCal) hw (by decide) (by decide)
  unfold State.calSpare
  split
  · obtain ⟨use, kept⟩ := (s.putSpare (n / 4) (s.fib n w 0) suCal w).putSpare_other (n / 4) suCal w differ
    exact ⟨use.trans first, kept.trans lane⟩
  · exact ⟨first, lane⟩

theorem State.startCal_spare (s : State) (n : Nat) (hw : w < 8) (free : s.spareUse (n / 4) (s.fib n w 0) = suFree) :
    (s.startCal n w).spareUse (n / 4) (s.fib n w 0) = suCal ∧
      (s.startCal n w).rd .oeFibreStatusSpareLane (n / 4) (s.fib n w 0) = w := by
  have begun := s.beginCal_changes n w
  have fib := fib_of_changes begun (by decide) (by decide) n w 0
  have open_ : (s.beginCal n w).spareUse (n / 4) ((s.beginCal n w).fib n w 0) = suFree := by
    rw [fib]
    exact (begun.1 .oeFibreStatusSpareUse _ _ (by decide)).trans free
  have taken := (s.beginCal n w).calSpares_takes n (show w < 16 by omega) open_
  rw [fib] at taken
  have kept := ((s.beginCal n w).calSpares n w).laneReq_changes n w 2
  rw [s.startCal_data n hw]
  exact ⟨(kept.1 .oeFibreStatusSpareUse _ _ (by decide)).trans taken.1, (kept.1 _ _ _ (by decide)).trans taken.2⟩

theorem State.startCal_asked (s : State) (n : Nat) (hw : w < 8) :
    asked n 0x20 (laneArg (s.endIdentity n) w 2) s (s.startCal n w) := by
  have begun : changes calFields [.calJobs, .calRuns] s ((s.beginCal n w).calSpares n w) :=
    ((s.beginCal_changes n w).mono (by decide) (by decide)).step (State.calSpares_changes ..)
  have link : s.link n = ((s.beginCal n w).calSpares n w).link n :=
    congrArg (·.getD n Link.init) (begun.2 .links (by decide)).symm
  rw [s.startCal_data n hw, ← endIdentity_of_changes begun (by decide)]
  exact asked_of_link link (asked_issue _ _ _ _)

/-! ## The lowest lane that is due (R254) -/

theorem bit_setBit_low {x a b : Nat} (h : b < a) : bit (setBit x a) b = bit x b := by
  unfold setBit
  split
  · rfl
  · rw [bit_eq_testBit, bit_eq_testBit, Nat.add_comm, Nat.testBit_two_pow_add_gt h]

/-- A lane that becomes due makes no lower one due. -/
theorem State.setDue_low (s : State) (k g : Nat) (hw : w < 10) {x : Nat} (hx : x < w) (f : Nat) :
    (s.setDue k g w).due k f x = s.due k f x := by
  have one (s : State) (a : Nat) : bit ((s.orBit .oeFibreStatusCalDue k a w).rd .oeFibreStatusCalDue k f) x =
      bit (s.rd .oeFibreStatusCalDue k f) x := by
    rw [State.rd_orBit]
    split
    next same =>
      obtain ⟨_, _, rfl⟩ := same
      show bit (setBit _ w % 2 ^ 10) x = _
      rw [bit_eq_testBit, Nat.testBit_mod_two_pow, decide_eq_true (show x < 10 by omega), Bool.true_and,
        ← bit_eq_testBit, bit_setBit_low hx]
    · rfl
  exact (one _ _).trans (one _ _)

section
variable (h : changes fs ps s t) (use : .oeFibreStatusSpareUse ∉ fs)
include h use

theorem calFree_of_changes (jobs : .calJobs ∉ ps) (swaps : .swaps ∉ ps) (g : Nat) : t.calFree k g = s.calFree k g := by
  have jobs' : t.calJobs = s.calJobs := h.2 .calJobs jobs
  have swaps' : t.swaps = s.swaps := h.2 .swaps swaps
  have uses (f : Nat) : t.spareUse k f = s.spareUse k f := h.1 _ _ _ use
  simp only [State.calFree, State.calJob, State.spareOpen, uses, jobs', swaps']

theorem calLane_of_changes (route : .oeRouteCurrent ∉ fs) (active : .active ∉ ps) (state : .lnkStatusState ∉ fs)
    (retired : .oeFibreStatusRetired ∉ fs) (g lane : Nat) : t.calLane k g lane = s.calLane k g lane := by
  have uses (f : Nat) : t.spareUse k f = s.spareUse k f := h.1 _ _ _ use
  have states (q : Nat) : t.lState q = s.lState q := h.1 _ _ _ state
  have out (f x : Nat) : t.retiredLane k f x = s.retiredLane k f x := congrArg (bit · x) (h.1 _ _ _ retired)
  simp only [State.calLane, fibPort_of_changes h route active, uses, states, out]

end

/-- The lane that became due is calibrated where its pair is free, it can be calibrated and no lower one is due. -/
theorem State.tryCal_starts (s : State) (k g : Nat) (hw : w < 9) (native : s.rd .hOeCalMode k g = 0)
    (free : s.calFree k g = true) (first : ∀ x < w, s.due k (2 * g) x = false ∧ s.due k (2 * g + 1) x = false)
    (can : s.calLane k g w = true) :
    (s.setDue k g w).tryCal k g = (s.setDue k g w).startCal (s.fibPort k (2 * g) w) w := by
  have due := s.setDue_changes k g w
  have lanes (x : Nat) : (s.setDue k g w).calLane k g x = s.calLane k g x :=
    calLane_of_changes due (by decide) (by decide) (by decide) (by decide) (by decide) g x
  have found : (List.range 9).find? (fun x =>
      ((s.setDue k g w).due k (2 * g) x || (s.setDue k g w).due k (2 * g + 1) x) &&
        (s.setDue k g w).calLane k g x) = some w := by
    refine List.find?_range_eq_some.mpr ⟨?_, List.mem_range.mpr hw, fun x hx => ?_⟩
    · rw [(s.setDue_due k g (show w < 10 by omega)).1, lanes, can]
      rfl
    · obtain ⟨tx, rx⟩ := first x hx
      rw [s.setDue_low k g (by omega) hx, s.setDue_low k g (by omega) hx, tx, rx]
      rfl
  have mode : (s.setDue k g w).rd .hOeCalMode k g = 0 := (due.1 _ _ _ (by decide)).trans native
  have open_ : (s.setDue k g w).calFree k g = true :=
    (calFree_of_changes due (by decide) (by decide) (by decide) g).trans free
  rw [State.tryCal, if_pos (by simp [mode, open_]), found, ← fibPort_of_changes due (by decide) (by decide)]

/-- A pair that is not free waits. -/
theorem State.tryCal_waits (s : State) (k g : Nat) (busy : s.calFree k g = false) : s.tryCal k g = s := by
  rw [State.tryCal, if_neg (by simp [busy])]

/-! ## CAL_DUE (R254) -/

theorem fibPort_div (s : State) (k f lane : Nat) (hf : f / 2 < 4) : s.fibPort k f lane / 4 = k :=
  portOf_div k (s.bankAt_lt k lane hf)

theorem calDue_runs (hk : k < 8) (hj : j < 4) (hw : w < 10) (why : CalWhy) (u : Nat) :
    Runs (.calDue k j w why u) s
      (if s.rd .hOeCalMode k (s.fibreOf k w j) = 0 && (s.stamp u).dueBy k j w why then
        ((s.stamp u).setDue k (s.fibreOf k w j) w).tryCal k (s.fibreOf k w j) else s.stamp u) := by
  have time := s.stamp_time u
  show execCalDue k j w why u s = _
  rw [execCalDue, if_pos (by simp [hk, hj, hw])]
  dsimp only
  rw [fibreOf_of_changes time (by decide) (by decide), time.1 _ _ _ (by decide)]

theorem calDue_due (hk : k < 8) (hj : j < 4) (hw : w < 10) (why : CalWhy) (u : Nat) :
    let v := s.stamp u
    let g := s.fibreOf k w j
    let n := s.fibPort k (2 * g) w
    s.rd .hOeCalMode k g = 0 → v.dueBy k j w why = true → ∃ t, Runs (.calDue k j w why u) s t ∧
      bit (t.rd .oeFibreStatusCalDue k (2 * g)) w = true ∧
      bit (t.rd .oeFibreStatusCalDue k (2 * g + 1)) w = true ∧
      (v.calFree k g = false → changes (.oeFibreStatusCalDue :: timeFields) [] s t) ∧
      (v.calFree k g = true → w < 8 → (∀ x < w, s.due k (2 * g) x = false ∧ s.due k (2 * g + 1) x = false) →
        v.calLane k g w = true →
        t.calJobs = s.calJobs ++ [⟨k, n % 4, s.fibreOf k w (n % 4), w, false, none, none,
          s.rd .oeRingLockCode k (s.laneRing n w 0), s.rd .oeRingLockCode k (s.laneRing n w 1)⟩] ∧
        (s.spareUse k (s.fib n w 0) = suFree → t.spareUse k (s.fib n w 0) = suCal ∧
          t.rd .oeFibreStatusSpareLane k (s.fib n w 0) = w) ∧
        asked n 0x20 (laneArg (s.endIdentity n) w 2) s t) ∧
      touches [.tick, .cal, .oe] [.calJobs, .calRuns, .links] s t := by
  intro v g n native why'
  have time : changes timeFields [] s v := s.stamp_time u
  have mode : v.rd .hOeCalMode k g = 0 := (time.1 _ _ _ (by decide)).trans native
  have run : Runs (.calDue k j w why u) s ((v.setDue k g w).tryCal k g) := by
    have := calDue_runs (s := s) hk hj hw why u
    rwa [if_pos (by simpa using ⟨native, why'⟩)] at this
  have due : changes (.oeFibreStatusCalDue :: timeFields) [] s (v.setDue k g w) :=
    (time.mono (by decide) (by decide)).step (v.setDue_changes k g w)
  have tried := (v.setDue k g w).tryCal_changes k g
  have shown := v.setDue_due k g hw
  refine ⟨_, run, (congrArg (bit · w) (tried.1 _ _ _ (by decide))).trans shown.1,
    (congrArg (bit · w) (tried.1 _ _ _ (by decide))).trans shown.2, fun busy => ?_, fun free data first can => ?_,
    touches_of_changes (fs := .oeFibreStatusCalDue :: (timeFields ++ calFields))
      ((due.mono (by decide) (by decide)).step tried) (by decide)⟩
  · rwa [State.tryCal_waits _ k g ((calFree_of_changes (v.setDue_changes k g w) (by decide) (by decide) (by decide)
      g).trans busy)]
  · have lower (x : Nat) (hx : x < w) : v.due k (2 * g) x = false ∧ v.due k (2 * g + 1) x = false :=
      ⟨(congrArg (bit · x) (time.1 _ _ _ (by decide))).trans (first x hx).1,
        (congrArg (bit · x) (time.1 _ _ _ (by decide))).trans (first x hx).2⟩
    have port : v.fibPort k (2 * g) w = n := fibPort_of_changes time (by decide) (by decide) ..
    have engine : n / 4 = k := fibPort_div s k (2 * g) w (by have := s.fibreOf_lt k w hj; omega)
    have fib := fib_of_changes due (by decide) (by decide) n w 0
    rw [v.tryCal_starts k g (by omega) mode free lower can, port]
    refine ⟨?_, fun spare => ?_, ?_⟩
    · have jobs : (v.setDue k g w).calJobs = s.calJobs := due.2 .calJobs (by decide)
      have code (r : Nat) : (v.setDue k g w).rd .oeRingLockCode k r = s.rd .oeRingLockCode k r :=
        due.1 _ _ _ (by decide)
      rw [State.startCal_jobs _ n data, jobs]
      simp only [State.newCal, engine, code, fibreOf_of_changes due (by decide) (by decide),
        laneRing_of_changes due (by decide) (by decide)]
    · have free' : (v.setDue k g w).spareUse (n / 4) ((v.setDue k g w).fib n w 0) = suFree := by
        rw [fib, engine]
        exact (due.1 _ _ _ (by decide)).trans spare
      have taken := (v.setDue k g w).startCal_spare n data free'
      rwa [fib, engine] at taken
    · have link : s.link n = (v.setDue k g w).link n :=
        congrArg (·.getD n Link.init) (due.2 .links (by decide)).symm
      rw [← endIdentity_of_changes due (by decide)]
      exact asked_of_link link (State.startCal_asked _ n data)

theorem calDue_quiet (hk : k < 8) (hj : j < 4) (hw : w < 10) (why : CalWhy) (u : Nat)
    (h : s.rd .hOeCalMode k (s.fibreOf k w j) ≠ 0 ∨ (s.stamp u).dueBy k j w why = false) :
    quietly (.calDue k j w why u) s := by
  have run := calDue_runs (s := s) hk hj hw why u
  rw [if_neg (by rcases h with h | h <;> simp [h])] at run
  exact ⟨_, run, s.stamp_time u⟩

/-! ## CONTINUOUS_CAL_NEXT (R255) -/

theorem continuousCalNext_runs (hk : k < 8) (hj : j < 4) (u : Nat) (mode : s.rd .hOeCalMode k j = 1)
    (free : (s.stamp u).calFree k j = true) : ∃ t, Runs (.continuousCalNext k j u) s t ∧
      t.rd .hOeContNext k j = (s.rd .hOeContNext k j + 1) % 9 ∧
      touches [.tick, .cal, .oe] [.calJobs, .calRuns, .links] s t := by
  let lane := (s.stamp u).rd .hOeContNext k j
  let next := (s.stamp u).wr .hOeContNext k j ((lane + 1) % 9)
  have time := s.stamp_time u
  have same : lane = s.rd .hOeContNext k j := time.1 _ _ _ (by decide)
  have moved : changes (.hOeContNext :: timeFields) [] s next :=
    (time.mono (by decide) (by decide)).wr _ _ _ _ (by decide)
  have began : changes calFields [.calJobs, .calRuns, .links] next
      (if next.calLane k j lane then next.startCal (next.fibPort k (2 * j) lane) lane else next) :=
    .ite (fun _ => next.startCal_changes ..) fun _ => .refl next
  refine ⟨_, ?_, (began.1 _ _ _ (by decide)).trans ?_,
    touches_of_changes (fs := .hOeContNext :: (timeFields ++ calFields))
      ((moved.mono (by decide) (by decide)).step began) (by decide)⟩
  · show execContinuousCalNext k j u s = _
    have mode' : (s.stamp u).rd .hOeCalMode k j = 1 := (time.1 _ _ _ (by decide)).trans mode
    rw [execContinuousCalNext, if_pos (by simp [hk, hj])]
    dsimp only
    rw [if_pos (by simp [mode', free])]
  · rw [State.rd_wr_same, same]
    exact Nat.mod_eq_of_lt (show (s.rd .hOeContNext k j + 1) % 9 < 2 ^ 4 by omega)

theorem continuousCalNext_quiet (hk : k < 8) (hj : j < 4) (u : Nat)
    (h : s.rd .hOeCalMode k j ≠ 1 ∨ (s.stamp u).calFree k j = false) : quietly (.continuousCalNext k j u) s := by
  have time := s.stamp_time u
  have mode : (s.stamp u).rd .hOeCalMode k j = s.rd .hOeCalMode k j := time.1 _ _ _ (by decide)
  refine ⟨_, ?_, time⟩
  show execContinuousCalNext k j u s = _
  rw [execContinuousCalNext, if_pos (by simp [hk, hj])]
  dsimp only
  rw [mode, if_neg (by rcases h with h | h <;> simp [h])]

/-! ## CALIBRATION_SWEEP_DONE (R256 to R258) -/

/-- The run of a ring is kept. -/
def State.keepRuns (s : State) (k r : Nat) (l : List Nat) : State := { s with calRuns := s.calRuns.put (k, r) l }

theorem State.keepRuns_changes (s : State) (k r : Nat) (l : List Nat) : changes [] [.calRuns] s (s.keepRuns k r l) :=
  (changes.refl s).parts rfl fun q hq => by cases q <;> first | rfl | exact absurd (by decide) hq

/-- The failures in a row of a ring. -/
def State.withFails (s : State) (m : SMap (Nat × Nat) Nat) : State := { s with calFails := m }

theorem State.withFails_changes (s : State) (m : SMap (Nat × Nat) Nat) : changes [] [.calFails] s (s.withFails m) :=
  (changes.refl s).parts rfl fun q hq => by cases q <;> first | rfl | exact absurd (by decide) hq

/-- A ring's correction back at zero. -/
def State.noErr (s : State) (k r : Nat) : State := { s with ringErr := s.ringErr.del (k, r) }

theorem State.noErr_changes (s : State) (k r : Nat) : changes [] [.ringErr] s (s.noErr k r) :=
  (changes.refl s).parts rfl fun q hq => by cases q <;> first | rfl | exact absurd (by decide) hq

theorem State.lockRing_eq (s : State) (k r code : Nat) :
    s.lockRing k r code = ((s.wr .oeRingLockCode k r code).wr .oeRingState k r 2).noErr k r := rfl

theorem State.lockRing_changes (s : State) (k r code : Nat) :
    changes [.oeRingLockCode, .oeRingState] [.ringErr] s (s.lockRing k r code) := by
  have locked : changes [.oeRingLockCode, .oeRingState] [.ringErr] s
      ((s.wr .oeRingLockCode k r code).wr .oeRingState k r 2) :=
    ((changes.refl s).wr _ _ _ _ (by decide)).wr _ _ _ _ (by decide)
  exact locked.step (State.noErr_changes ..)

theorem State.lockRing_shows (s : State) (k r code : Nat) :
    (s.lockRing k r code).rd .oeRingLockCode k r = code % 4096 ∧ (s.lockRing k r code).rd .oeRingState k r = 2 ∧
      (s.lockRing k r code).ringErr.getD (k, r) 0 = 0 := by
  have zeroed := ((s.wr .oeRingLockCode k r code).wr .oeRingState k r 2).noErr_changes k r
  rw [s.lockRing_eq]
  refine ⟨?_, ?_, ?_⟩
  · rw [zeroed.1 _ _ _ (by decide), State.rd_wr_ne _ _ _ _ _ _ _ _ (by decide), State.rd_wr_same]
    rfl
  · rw [zeroed.1 _ _ _ (by decide), State.rd_wr_same]
    rfl
  · show ((s.ringErr.del (k, r)).get? (k, r)).getD 0 = 0
    rw [SMap.get?_del, if_pos rfl]
    rfl

/-- The calibration of a lane whose ring r has a result. -/
def CalJob.took (c : CalJob) (r code : Nat) : CalJob :=
  if r / 10 % 2 = 0 then { c with modRes := some code } else { c with filtRes := some code }

/-- The first ring of a lane that ends leaves its calibration without a result. -/
theorem CalJob.took_result {c : CalJob} (r code : Nat) (mod : c.modRes = none) (filt : c.filtRes = none) :
    (c.took r code).result = none := by
  unfold CalJob.took
  split <;> simp [CalJob.result, mod, filt]

/-- A calibration that goes on as another. -/
def State.jobTo (s : State) (c c' : CalJob) : State :=
  { s with calJobs := s.calJobs.map fun x => if x = c then c' else x }

theorem State.jobTo_changes (s : State) (c c' : CalJob) : changes [] [.calJobs] s (s.jobTo c c') :=
  (changes.refl s).parts rfl fun q hq => by cases q <;> first | rfl | exact absurd (by decide) hq

/-- The runs of a ring with a further one. -/
def State.runsWith (s : State) (k r run : Nat) : List Nat := s.calRuns.getD (k, r) [] ++ [run]

/-- A run that decides nothing and is not the third is only kept. -/
theorem State.sweepRun_kept (s : State) (r run : Nat) (c : CalJob) (open_ : repeatAgree 4 (s.runsWith k r run) = none)
    (third : (s.runsWith k r run).length ≠ 3) :
    s.sweepRun k r run c = s.keepRuns k r (s.runsWith k r run) := by
  rw [State.runsWith] at open_ third
  simp only [State.sweepRun, open_]
  rw [if_neg (by simp only [decide_eq_false third, Bool.false_and, Bool.false_eq_true, not_false_eq_true])]
  rfl

/-- A run that decides: the ring's result is taken, and the calibration goes on with the other ring. -/
theorem State.sweepRun_ends (s : State) (r run : Nat) {c : CalJob} {res : Nat × Nat} (mod : c.modRes = none)
    (filt : c.filtRes = none) (decided : repeatAgree 4 (s.runsWith k r run) = some res) :
    ∃ v, changes [.oeCalEventsThirdRuns] [.calRuns] s v ∧
      s.sweepRun k r run c = (v.ringResult k r res).jobTo c (c.took r res.1) := by
  have kept : changes [.oeCalEventsThirdRuns] [.calRuns] s (s.keepRuns k r (s.runsWith k r run)) :=
    (s.keepRuns_changes ..).mono (by decide) (by decide)
  rw [State.runsWith] at decided
  have settles (v : State) : v.jobSettle (c.took r res.1) = v := by
    rw [State.jobSettle, CalJob.took_result r res.1 mod filt]
  simp only [State.sweepRun, decided]
  split
  · exact ⟨_, kept.bump _ _ _ _ (by decide), settles _⟩
  · exact ⟨_, kept, settles _⟩

theorem State.ringResult_passes (s : State) (k r : Nat) {code res : Nat} (h : res ≠ 3) :
    s.ringResult k r (res, code) = (s.withFails (s.calFails.del (k, r))).lockRing k r code := if_neg h

/-- A failure that is not the third in a row is counted, and the ring is locked again. -/
theorem State.ringResult_fails (s : State) (k r : Nat) (few : s.calFails.getD (k, r) 0 < 2) :
    s.ringResult k r (3, 0) =
      (s.withFails (s.calFails.put (k, r) (s.calFails.getD (k, r) 0 + 1))).wr .oeRingState k r 2 := by
  rw [State.ringResult, if_pos rfl]
  exact if_neg (by omega)

theorem repeatAgree_near {a b : Nat} (h : Machine.dist a b ≤ 4) : repeatAgree 4 [a, b] = some (1, (a + b) / 2) := by
  rw [repeatAgree, if_pos h]

theorem repeatAgree_far {a b : Nat} (h : 4 < Machine.dist a b) : repeatAgree 4 [a, b] = none := by
  rw [repeatAgree, if_neg (by omega)]

theorem repeatAgree_fails {a b c : Nat} (h : 4 < Machine.dist a c) (h' : 4 < Machine.dist b c) :
    repeatAgree 4 [a, b, c] = some (3, 0) := by
  simp [repeatAgree, Nat.not_le.mpr h, Nat.not_le.mpr h']

section
variable {r run u : Nat} {c : CalJob}

theorem sweepDone_runs (hk : k < 8) (hr : r < 80) (job : s.ringJob k r = some c) (live : c.aborted = false)
    (mod : c.modRes = none) (filt : c.filtRes = none) (sweeps : s.rd .oeRingState k r = 1) :
    Runs (.calibrationSweepDone k r run u) s ((s.stamp u).sweepRun k r run c) := by
  have jobs : (s.stamp u).ringJob k r = some c := by rw [State.ringJob, State.stamp_calJobs]; exact job
  have state : (s.stamp u).rd .oeRingState k r = 1 := ((s.stamp_time u).1 _ _ _ (by decide)).trans sweeps
  show execCalibrationSweepDone k r run u s = _
  rw [execCalibrationSweepDone, if_pos (by simp [hk, hr])]
  dsimp only
  rw [if_neg (by simp [jobs])]
  simp only [jobs, state, live, mod, filt]
  rw [if_neg (by simp)]

/-- A run that decides nothing is only kept. -/
theorem sweepDone_kept (hk : k < 8) (hr : r < 80) (job : s.ringJob k r = some c) (live : c.aborted = false)
    (mod : c.modRes = none) (filt : c.filtRes = none) (sweeps : s.rd .oeRingState k r = 1) {l : List Nat}
    (runs : s.calRuns.getD (k, r) [] = l) (open_ : repeatAgree 4 (l ++ [run]) = none) (third : l.length ≠ 2) :
    ∃ t, Runs (.calibrationSweepDone k r run u) s t ∧ t.calRuns = s.calRuns.put (k, r) (l ++ [run]) ∧
      changes timeFields [.calRuns] s t := by
  have with_ : (s.stamp u).runsWith k r run = l ++ [run] := by rw [State.runsWith, State.stamp_calRuns, runs]
  have kept := (s.stamp u).sweepRun_kept r run c (with_ ▸ open_) (with_ ▸ by simpa using third)
  refine ⟨_, sweepDone_runs hk hr job live mod filt sweeps, ?_, ?_⟩
  · rw [kept, with_, State.keepRuns, State.stamp_calRuns]
  · rw [kept]
    exact ((s.stamp_time u).mono (by decide) (by decide)).step (State.keepRuns_changes ..)

/-- Areas and parts that the run of a ring may move. -/
theorem touches_sweep {v w x : State} (time : changes timeFields [] s v)
    (h : changes [.oeCalEventsThirdRuns] [.calRuns] v w)
    (h' : changes [.oeRingLockCode, .oeRingState] [.calFails, .ringErr] w x) (c c' : CalJob) :
    touches [.tick, .cal, .oe, .lnk, .lsu] [.calJobs, .calRuns, .calFails, .ringErr, .swaps, .spareNeeds, .links] s
      (x.jobTo c c') :=
  touches_of_changes (fs := timeFields ++ [.oeCalEventsThirdRuns, .oeRingLockCode, .oeRingState])
    ((((time.mono (by decide) (by decide)).step h).step h').step (x.jobTo_changes c c')) (by decide)

/-- A second run near the first: the ring locks at their mean. -/
theorem sweepDone_agrees (hk : k < 8) (hr : r < 80) (job : s.ringJob k r = some c) (live : c.aborted = false)
    (mod : c.modRes = none) (filt : c.filtRes = none) (sweeps : s.rd .oeRingState k r = 1) {a : Nat}
    (runs : s.calRuns.getD (k, r) [] = [a]) (near : Machine.dist a run ≤ 4) :
    ∃ t, Runs (.calibrationSweepDone k r run u) s t ∧ t.rd .oeRingLockCode k r = (a + run) / 2 % 4096 ∧
      t.rd .oeRingState k r = 2 ∧ t.ringErr.getD (k, r) 0 = 0 ∧
      touches [.tick, .cal, .oe, .lnk, .lsu] [.calJobs, .calRuns, .calFails, .ringErr, .swaps, .spareNeeds, .links]
        s t := by
  have with_ : (s.stamp u).runsWith k r run = [a, run] := by rw [State.runsWith, State.stamp_calRuns, runs]; rfl
  obtain ⟨v, kept, ends⟩ := (s.stamp u).sweepRun_ends r run mod filt (with_ ▸ repeatAgree_near near)
  rw [v.ringResult_passes k r (by decide)] at ends
  have locked : changes [.oeRingLockCode, .oeRingState] [.calFails, .ringErr] v _ :=
    ((v.withFails_changes (v.calFails.del (k, r))).mono (by decide) (by decide)).step
      (State.lockRing_changes _ k r ((a + run) / 2))
  obtain ⟨code, state, err⟩ := (v.withFails (v.calFails.del (k, r))).lockRing_shows k r ((a + run) / 2)
  refine ⟨_, sweepDone_runs hk hr job live mod filt sweeps, ?_⟩
  rw [ends]
  exact ⟨code, state, err, touches_sweep (s.stamp_time u) kept locked ..⟩

/-- A third run that agrees with neither: a failure, with the code as it was. -/
theorem sweepDone_fails (hk : k < 8) (hr : r < 80) (job : s.ringJob k r = some c) (live : c.aborted = false)
    (mod : c.modRes = none) (filt : c.filtRes = none) (sweeps : s.rd .oeRingState k r = 1) {a b : Nat}
    (runs : s.calRuns.getD (k, r) [] = [a, b]) (far : 4 < Machine.dist a run) (far' : 4 < Machine.dist b run)
    (few : s.calFails.getD (k, r) 0 < 2) :
    ∃ t, Runs (.calibrationSweepDone k r run u) s t ∧
      t.calFails.getD (k, r) 0 = s.calFails.getD (k, r) 0 + 1 ∧
      t.rd .oeRingLockCode k r = s.rd .oeRingLockCode k r ∧ t.rd .oeRingState k r = 2 ∧
      touches [.tick, .cal, .oe, .lnk, .lsu] [.calJobs, .calRuns, .calFails, .ringErr, .swaps, .spareNeeds, .links]
        s t := by
  have time := s.stamp_time u
  have with_ : (s.stamp u).runsWith k r run = [a, b, run] := by rw [State.runsWith, State.stamp_calRuns, runs]; rfl
  obtain ⟨v, kept, ends⟩ := (s.stamp u).sweepRun_ends r run mod filt (with_ ▸ repeatAgree_fails far far')
  have fails : v.calFails = s.calFails := (kept.2 .calFails (by decide)).trans (time.2 .calFails (by decide))
  rw [v.ringResult_fails k r (fails ▸ few), fails] at ends
  let v' := v.withFails (s.calFails.put (k, r) (s.calFails.getD (k, r) 0 + 1))
  have failed : changes [.oeRingState] [.calFails] v (v'.wr .oeRingState k r 2) :=
    ((v.withFails_changes _).mono (by decide) (by decide)).wr _ _ _ _ (by decide)
  have counted : changes [.oeRingLockCode, .oeRingState] [.calFails, .ringErr] v (v'.wr .oeRingState k r 2) :=
    failed.mono (by decide) (by decide)
  have code : (v'.wr .oeRingState k r 2).rd .oeRingLockCode k r = s.rd .oeRingLockCode k r := by
    rw [failed.1 _ _ _ (by decide), kept.1 _ _ _ (by decide), time.1 _ _ _ (by decide)]
  have state : (v'.wr .oeRingState k r 2).rd .oeRingState k r = 2 := by
    rw [State.rd_wr_same]
    rfl
  have number : (v'.wr .oeRingState k r 2).calFails.getD (k, r) 0 = s.calFails.getD (k, r) 0 + 1 := by
    rw [State.wr_calFails]
    exact SMap.getD_put_same ..
  refine ⟨_, sweepDone_runs hk hr job live mod filt sweeps, ?_⟩
  rw [ends]
  exact ⟨number, code, state, touches_sweep time kept counted ..⟩

/-- A sweep of a ring in no calibration, none of an LC ring of a port that trains. -/
theorem sweepDone_alone (hk : k < 8) (hr : r < 80) (job : s.ringJob k r = none)
    (h : r % 10 ≠ 9 ∨ s.trains (s.fibPort k (s.ringFib k r) 9) = false ∨ s.rd .oeRingState k r < 2) :
    quietly (.calibrationSweepDone k r run u) s := by
  have time := s.stamp_time u
  have jobs : (s.stamp u).ringJob k r = none := by rw [State.ringJob, State.stamp_calJobs]; exact job
  have state : (s.stamp u).rd .oeRingState k r = s.rd .oeRingState k r := time.1 _ _ _ (by decide)
  have trains (q : Nat) : (s.stamp u).trains q = s.trains q := by
    have (q : Nat) : (s.stamp u).lState q = s.lState q := time.1 _ _ _ (by decide)
    simp only [State.trains, this]
  refine ⟨_, ?_, time⟩
  show execCalibrationSweepDone k r run u s = _
  rw [execCalibrationSweepDone, if_pos (by simp [hk, hr])]
  dsimp only
  rw [state, fibPort_of_changes time (by decide) (by decide), ringFib_of_changes time (by decide) (by decide), trains,
    if_neg, jobs]
  simp only [Bool.and_eq_true, decide_eq_true_eq, not_and, Nat.not_le]
  rintro ⟨⟨-, lc⟩, trains⟩
  rw [lc] at trains
  exact h.elim (fun h => absurd lc h) fun h => h.elim (fun h => absurd trains (by simp [h])) id

/-- A run of a ring that does not sweep. -/
theorem sweepDone_still (hk : k < 8) (hr : r < 80) (job : s.ringJob k r = some c) (h : s.rd .oeRingState k r ≠ 1) :
    quietly (.calibrationSweepDone k r run u) s := by
  have jobs : (s.stamp u).ringJob k r = some c := by rw [State.ringJob, State.stamp_calJobs]; exact job
  have state : (s.stamp u).rd .oeRingState k r ≠ 1 := by rwa [(s.stamp_time u).1 _ _ _ (by decide)]
  refine ⟨_, ?_, s.stamp_time u⟩
  show execCalibrationSweepDone k r run u s = _
  rw [execCalibrationSweepDone, if_pos (by simp [hk, hr])]
  dsimp only
  rw [if_neg (by simp [jobs])]
  simp only [jobs]
  rw [if_pos (by simp [state])]

end

/-! ## LANE_RETRAINED (R256, R259) -/

theorem State.laneJob_stamp (s : State) (u n lane : Nat) : (s.stamp u).laneJob n lane = s.laneJob n lane := by
  rw [State.laneJob, State.stamp_calJobs]
  rfl

theorem laneRetrained_ends (hk : k < 8) (hj : j < 4) (hw : w < 8) (u : Nat) {c : CalJob}
    (job : s.laneJob (portOf k j) w = some c) (up : s.linkOpen (portOf k j) = true)
    (ended : c.aborted = true ∨ c.result.isSome = true) :
    ∃ t, Runs (.laneRetrained k j 1 w u) s t ∧
      asked (portOf k j) 0x20 (laneArg (s.endIdentity (portOf k j)) w 3) s t ∧ changes timeFields [.links] s t := by
  have time := s.stamp_time u
  refine ⟨(s.stamp u).laneReq (portOf k j) w 3, ?_, ?_,
    (time.mono (by decide) (by decide)).step (State.laneReq_changes ..)⟩
  · show execLaneRetrained k j 1 w u s = _
    rw [execLaneRetrained, if_pos (by simp [hk, hj]; omega)]
    simp only [State.laneJob_stamp, job, State.linkOpen_stamp, up]
    rw [if_neg (by decide), if_pos (by rcases ended with h | h <;> simp [h]), if_pos (by simp [hw])]
  · rw [← endIdentity_of_changes time (by decide)]
    exact asked_of_link (s.link_stamp u _).symm (asked_issue _ _ _ _)

theorem laneRetrained_waits (hk : k < 8) (hj : j < 4) (hw : w < 8) (u : Nat) {c : CalJob}
    (job : s.laneJob (portOf k j) w = some c) (live : c.aborted = false) (runs : c.result = none) :
    quietly (.laneRetrained k j 1 w u) s := by
  refine ⟨_, ?_, s.stamp_time u⟩
  show execLaneRetrained k j 1 w u s = _
  rw [execLaneRetrained, if_pos (by simp [hk, hj]; omega)]
  simp only [State.laneJob_stamp, job]
  rw [if_neg (by decide), if_neg (by simp [live, runs])]

theorem laneRetrained_noSwap (hk : k < 8) (hj : j < 4) (hw : w < 10) (u : Nat) (still : s.swapMoving k = none) :
    quietly (.laneRetrained k j 0 w u) s := by
  have still' : (s.stamp u).swapMoving k = none := by rw [State.swapMoving, State.stamp_swaps]; exact still
  refine ⟨_, ?_, s.stamp_time u⟩
  show execLaneRetrained k j 0 w u s = _
  rw [execLaneRetrained, if_pos (by simp [hk, hj, hw])]
  simp only [still', if_true]

end

/-- Settles O28: calibrations become due, start, run and end as the clauses say. -/
theorem calibrations : Obligations.Calibrations := by
  unfold Obligations.Calibrations
  intro s k j u hk hj v
  refine ⟨fun w why hw => ⟨calDue_due hk hj hw why u, calDue_quiet hk hj hw why u⟩, continuousCalNext_runs hk hj u,
    continuousCalNext_quiet hk hj u, ?_, fun r run hr =>
      ⟨sweepDone_alone hk hr, fun c job => sweepDone_still hk hr job⟩,
    fun w c hw job up => ⟨laneRetrained_ends hk hj hw u job up, laneRetrained_waits hk hj hw u job⟩,
    fun w hw => laneRetrained_noSwap hk hj hw u⟩
  intro r c run hr job live mod filt sweeps
  refine ⟨fun runs => sweepDone_kept hk hr job live mod filt sweeps runs rfl (by decide),
    fun a runs near => sweepDone_agrees hk hr job live mod filt sweeps runs near,
    fun a runs far => sweepDone_kept hk hr job live mod filt sweeps runs (repeatAgree_far far) (by simp),
    fun a b runs far far' few => sweepDone_fails hk hr job live mod filt sweeps runs far far' few⟩

end Sys2Proof.Machine

/-!
# What an engine's ports and rings leave unchanged (R244, R252, R276, R313, R320)

Footprints of the operations that follow a port's state, of a route that comes into force and of a lane that leaves.
-/

namespace Sys2Proof.Machine

-- Proofs checked one after another hold fewer threads' stacks at a time, which the memory of one process needs.
set_option Elab.async false

section
variable {s t : State} {fs : List Field} {ps : List Part} {k n w : Nat}

/-! ## Spares (R252, R253, R259) -/

theorem State.restoreCodes_changes (s : State) (c : CalJob) :
    changes [.oeRingLockCode, .oeRingState] [] s (s.restoreCodes c) := by
  unfold State.restoreCodes
  exact .each _ _ (fun _ _ h => .ite (fun _ => h) fun _ => h.wr _ _ _ _ (by decide))
    (((changes.refl s).wr _ _ _ _ (by decide)).wr _ _ _ _ (by decide))

/-! ## Lanes (R310) -/

theorem State.setLane_changes (s : State) (n i st : Nat) :
    changes [.lnkLaneState, .lnkStatusRxMask] [.links] s (s.setLane n i st) := by
  have wrote : changes [.lnkLaneState, .lnkStatusRxMask] [.links] s (s.wr .lnkLaneState n i st) :=
    (changes.refl s).wr _ _ _ _ (by decide)
  exact .ite (fun _ => .ite (fun _ => wrote.orBit _ _ _ _ (by decide)) fun _ => wrote.andNot _ _ _ _ (by decide))
    fun _ => (changes.refl s).setLink _ _ (by decide)

theorem State.setTx_changes (s : State) (n i : Nat) (on : Bool) :
    changes [.lnkStatusTxMask] [.links] s (s.setTx n i on) :=
  .ite (fun _ => .ite (fun _ => (changes.refl s).orBit _ _ _ _ (by decide)) fun _ =>
    (changes.refl s).andNot _ _ _ _ (by decide)) fun _ => (changes.refl s).setLink _ _ (by decide)

/-! ## An engine that follows its ports (R244, R264, R267) -/

/-- Numbers of an engine, of its rings and of its lasers that follow the state of its ports. -/
def followFields : List Field :=
  [.oeStatusState, .oeStatusFibresLit, .oeRingState, .oeRingDrive, .hOeRecover, .hOeHoldEnd, .hOeCalMode,
    .oeFibreStatusSpareUse, .oeFibreStatusSpareLane, .lsuLaserStage, .lsuLaserLit, .hLsuSel, .calRecRuns,
    .lsuStatusCoverOk, .lsuStatusCoverOkB]

/-- The same, and the counts and logs that go with the power. -/
def engineFields : List Field := followFields ++ (engineLost ++ portLost)

theorem State.engineDark_changes (s : State) (k : Nat) : changes engineFields [] s (s.engineDark k) := by
  have cleared (l : List Field) (hl : l ⊆ engineFields) {t u : State} (q : Nat) (h : changes engineFields [] t u) :
      changes engineFields [] t (u.each l fun s f => s.clr f q 0) := by
    induction l generalizing u with
    | nil => exact h
    | cons f l ih =>
      exact ih (fun g hg => hl (List.mem_cons_of_mem _ hg)) (h.clr _ _ _ (hl (List.mem_cons_self ..)))
  exact .each _ _
    (fun _ q h => cleared Machine.portLost (fun _ h => List.mem_append_right _ (List.mem_append_right _ h)) q h)
    (cleared Machine.engineLost (fun _ h => List.mem_append_right _ (List.mem_append_left _ h)) k (.refl s))

theorem State.dropSwaps_changes (s : State) (k : Nat) : changes [.lsuLaserStage] [.swaps] s (s.dropSwaps k) := by
  unfold State.dropSwaps
  extract_lets mine s1
  have dropped : changes [.lsuLaserStage] [.swaps] s s1 :=
    (changes.refl s).parts rfl fun q hq => by cases q <;> first | rfl | exact absurd (by decide) hq
  exact .each _ _ (fun _ _ h => .ite (fun _ => h.wr _ _ _ _ (by decide)) fun _ => h) dropped

theorem State.powerRings_changes (s : State) (k : Nat) : changes [.oeRingState] [] s (s.powerRings k) :=
  .each _ _ (fun _ _ h => .ite (fun _ => h) fun _ => h.wr _ _ _ _ (by decide)) (.refl s)

/-- The calibrations in hand. -/
def State.withJobs (s : State) (l : List CalJob) : State := { s with calJobs := l }

theorem State.withJobs_changes (s : State) (l : List CalJob) : changes [] [.calJobs] s (s.withJobs l) :=
  (changes.refl s).parts rfl fun q hq => by cases q <;> first | rfl | exact absurd (by decide) hq

theorem State.parkRings_changes (s : State) (k : Nat) : changes followFields [.calJobs] s (s.parkRings k) := by
  unfold State.parkRings
  extract_lets s1 s2 s3
  have park {x : State} (r : Nat) (h : changes followFields [.calJobs] s x) : changes followFields [.calJobs] s
      ((((x.wr .oeRingState k r 0).wr .oeRingDrive k r 0).wr .hOeRecover k r 0).wr .hOeHoldEnd k r 0) :=
    (((h.wr _ _ _ _ (by decide)).wr _ _ _ _ (by decide)).wr _ _ _ _ (by decide)).wr _ _ _ _ (by decide)
  have parked : changes followFields [.calJobs] s s1 := .each _ _ (fun _ r h => park r h) (.refl s)
  have ended : changes followFields [.calJobs] s s2 :=
    parked.step (s1.withJobs_changes (s1.calJobs.filter fun c => !decide (c.engine = k)))
  have modes : changes followFields [.calJobs] s s3 := .each _ _ (fun x g h => h.step (x.calMode_changes k g)) ended
  exact .each _ _ (fun x _ h => .ite (fun _ => h.step (x.putSpare_changes ..)) fun _ => h) modes

/-- Numbers of a laser's light. -/
def lightFields : List Field := [.lsuLaserLit, .hLsuSel]

theorem State.light_changes (s : State) (m lit banks : Nat) : changes lightFields [] s (s.light m lit banks) :=
  ((changes.refl s).wr _ _ _ _ (by decide)).wr _ _ _ _ (by decide)

theorem State.lightLane_changes (s : State) (k : Nat) (on : Bool) (lane : Nat) :
    changes lightFields [] s (s.lightLane k on lane) := by
  have light {x : State} (m lit banks : Nat) (h : changes lightFields [] s x) :
      changes lightFields [] s (x.light m lit banks) := h.step (x.light_changes m lit banks)
  unfold State.lightLane
  extract_lets p q s1
  have first : changes lightFields [] s s1 :=
    .ite (fun _ => .refl s) fun _ => .ite (fun _ => light _ _ _ (.refl s)) fun _ =>
      .ite (fun _ => light _ _ _ (.refl s)) fun _ => .refl s
  exact .ite (fun _ => .ite (fun _ => .ite (fun _ => light _ _ _ first) fun _ => first) fun _ => first) fun _ =>
    light _ _ _ (light _ _ _ (.refl s))

theorem State.warm_changes (s : State) (m : Nat) : changes (.calRecRuns :: lightFields) [] s (s.warm m) :=
  .ite (fun _ => ((s.light_changes ..).mono (by decide) (by decide)).bump _ _ _ _ (by decide)) fun _ => .refl s

theorem State.warmTwins_changes (s : State) (k : Nat) : changes (.calRecRuns :: lightFields) [] s (s.warmTwins k) :=
  .each _ _ (fun x _ h => .ite (fun _ => h.step (x.warm_changes _)) fun _ => h) (.refl s)

theorem State.covers_changes (s : State) : changes [.lsuStatusCoverOk, .lsuStatusCoverOkB] [] s s.covers :=
  ((changes.refl s).wr _ _ _ _ (by decide)).wr _ _ _ _ (by decide)

/-- A port of engine k is not OFF. -/
def State.engineOn (s : State) (k : Nat) : Bool :=
  [4 * k, 4 * k + 1, 4 * k + 2, 4 * k + 3].any fun q => s.lState q != lOff

/-- What follows the ports follows after the counts and logs have gone with the power, where every port is OFF. -/
theorem State.refreshEngine_after (s : State) (k : Nat) :
    ∃ v, (v = s ∨ s.engineOn k = false ∧ v = s.engineDark k) ∧
      changes followFields [.calJobs, .swaps] v (s.refreshEngine k) := by
  unfold State.refreshEngine
  extract_lets ports on act st lit old s1 s2 live s3 s4 s5
  have status : changes followFields [.calJobs, .swaps] s1 s2 :=
    ((changes.refl s1).wr _ _ _ _ (by decide)).wr _ _ _ _ (by decide)
  have swaps : changes followFields [.calJobs, .swaps] s1 s3 :=
    .ite (fun _ => status) fun _ => status.step (s2.dropSwaps_changes k)
  have rings : changes followFields [.calJobs, .swaps] s1 s4 :=
    .ite (fun _ => swaps.step (s3.powerRings_changes k)) fun _ =>
      .ite (fun _ => swaps.step (s3.parkRings_changes k)) fun _ => swaps
  have lights : changes followFields [.calJobs, .swaps] s1 s5 :=
    .each _ _ (fun x _ h => h.step (x.lightLane_changes ..)) rings
  have twins : changes followFields [.calJobs, .swaps] s1 (if live then s5.warmTwins k else s5) :=
    .ite (fun _ => lights.step (s5.warmTwins_changes k)) fun _ => lights
  refine ⟨s1, ?_, twins.step (State.covers_changes _)⟩
  show (if st = 0 && old != 0 then s.engineDark k else s) = s ∨ _
  split
  next dark =>
    refine .inr ⟨?_, if_pos dark⟩
    simp only [Bool.and_eq_true, decide_eq_true_eq] at dark
    by_contra lit
    have lit : on = true := eq_true_of_ne_false lit
    simp only [st, lit, if_true] at dark
    split at dark <;> [exact absurd dark.1 (by decide); split at dark <;> exact absurd dark.1 (by decide)]
  · exact .inl rfl

theorem State.refreshEngine_changes (s : State) (k : Nat) :
    changes engineFields [.calJobs, .swaps] s (s.refreshEngine k) := by
  obtain ⟨v, dark, follows⟩ := s.refreshEngine_after k
  have gone : changes engineFields [.calJobs, .swaps] s v := by
    rcases dark with e | ⟨-, e⟩ <;> rw [e]
    · exact .refl s
    · exact (s.engineDark_changes k).mono (List.Subset.refl _) (by decide)
  exact gone.step follows (hf := List.subset_append_left _ _)

/-- An engine with a port that is not OFF keeps its counts and logs. -/
theorem State.refreshEngine_on (s : State) {k : Nat} (on : s.engineOn k = true) :
    changes followFields [.calJobs, .swaps] s (s.refreshEngine k) := by
  obtain ⟨v, e | ⟨off, -⟩, follows⟩ := s.refreshEngine_after k
  · exact e ▸ follows
  · simp [on] at off

/-! ## A port that enters a state (R236, R273, R287) -/

theorem State.noteLost_changes (s : State) (k : Nat) : changes [.hOeLost] [] s (s.noteLost k) := by
  unfold State.noteLost
  split
  · exact .refl s
  · exact .ite (fun _ => (changes.refl s).wr _ _ _ _ (by decide)) fun _ => .refl s

/-- Numbers beside its own and its engine's that a port's state moves. -/
def portFields : List Field := [.oeFibreStatusLevel, .coreIrqEventsLink, .hOeLost]

/-- A port shows its state before its engine follows. -/
theorem State.setPort_after (s : State) (n st : Nat) :
    ∃ v, changes portFields [] (s.wr .lnkStatusState n 0 st) v ∧ s.setPort n st = v.refreshEngine (n / 4) := by
  unfold State.setPort
  extract_lets old s1 lvl s2 s3
  have level : changes portFields [] s1 s2 := (changes.refl s1).wr _ _ _ _ (by decide)
  have event : changes portFields [] s1 s3 := .ite (fun _ => level.wr _ _ _ _ (by decide)) fun _ => level
  exact ⟨_, event.step (s3.noteLost_changes _), rfl⟩

theorem State.setPort_changes (s : State) (n st : Nat) :
    changes (.lnkStatusState :: (portFields ++ engineFields)) [.calJobs, .swaps] s (s.setPort n st) := by
  obtain ⟨v, moved, follows⟩ := s.setPort_after n st
  have state : changes (.lnkStatusState :: (portFields ++ engineFields)) [.calJobs, .swaps] s
      (s.wr .lnkStatusState n 0 st) := (changes.refl s).wr _ _ _ _ (List.mem_cons_self ..)
  rw [follows]
  exact (state.step moved (hf := fun _ h => .tail _ (List.mem_append_left _ h))).step (v.refreshEngine_changes _)
    (hf := fun _ h => .tail _ (List.mem_append_right _ h))

/-- A port that enters a state other than OFF shows it, and its engine keeps its counts and logs. -/
theorem State.setPort_on (s : State) {n st : Nat} (hst : st < 8) (on : st ≠ lOff) :
    (s.setPort n st).lState n = st ∧
      changes (.lnkStatusState :: (portFields ++ followFields)) [.calJobs, .swaps] s (s.setPort n st) := by
  obtain ⟨v, moved, follows⟩ := s.setPort_after n st
  have shown : (s.wr .lnkStatusState n 0 st).lState n = st := by
    rw [State.lState, State.rd_wr_same]
    exact Nat.mod_eq_of_lt hst
  have state : v.lState n = st := (moved.1 .lnkStatusState n 0 (by decide)).trans shown
  have live : v.engineOn (n / 4) = true := by
    refine List.any_eq_true.mpr ⟨n, ?_, by simp [state, on]⟩
    simp only [List.mem_cons, List.not_mem_nil, or_false]
    omega
  have kept := v.refreshEngine_on live
  rw [follows]
  refine ⟨(kept.1 .lnkStatusState n 0 (by decide)).trans state, ?_⟩
  have first : changes (.lnkStatusState :: (portFields ++ followFields)) [.calJobs, .swaps] s
      (s.wr .lnkStatusState n 0 st) := (changes.refl s).wr _ _ _ _ (List.mem_cons_self ..)
  exact (first.step moved).step kept

/-! ## Routes and windows (R275, R276) -/

/-- The routes of the engines and their steering windows. -/
def routeFields : List Field := [.oeRouteCurrent, .oeStatusRoute, .oeRouteNext, .oeStatusSteering]

/-- The routes and the windows of s stand in t. -/
def routesKept (s t : State) : Prop := ∀ f ∈ routeFields, ∀ i j, t.rd f i j = s.rd f i j

theorem routesKept.trans {u : State} (h : routesKept s t) (h' : routesKept t u) : routesKept s u :=
  fun f hf i j => (h' f hf i j).trans (h f hf i j)

theorem routesKept_of_changes (h : changes fs ps s t) (hf : ∀ f ∈ routeFields, f ∉ fs := by decide) : routesKept s t :=
  fun f hr i j => h.1 f i j (hf f hr)

theorem routesKept_of_touches {as : List Area} (h : touches as ps s t) (oe : .oe ∉ as := by decide) : routesKept s t :=
  fun f hr i j => h.1 f i j ((show ∀ f ∈ routeFields, f.area = .oe by decide) f hr ▸ oe)

/-! ### A link that goes down (R319 to R321) -/

theorem State.darkLanes_changes (s : State) (n : Nat) :
    changes [.lnkLaneState, .lnkStatusRxMask, .lnkStatusTxMask, .lnkStatusClockOk] [.links] s (s.darkLanes n) := by
  unfold State.darkLanes
  extract_lets s1
  have lanes : changes [.lnkLaneState, .lnkStatusRxMask, .lnkStatusTxMask, .lnkStatusClockOk] [.links] s s1 :=
    .each _ _ (fun x i h => .ite (fun _ => h) fun _ => h.step (x.setLane_changes ..)) (.refl s)
  exact .ite (fun _ => (lanes.wr _ _ _ _ (by decide)).wr _ _ _ _ (by decide)) fun _ => lanes.setLink _ _ (by decide)

/-- The needs of spares that wait, and the swaps. -/
def State.withNeeds (s : State) (l : List SpareNeed) (x : List Swap) : State := { s with spareNeeds := l, swaps := x }

theorem State.withNeeds_changes (s : State) (l : List SpareNeed) (x : List Swap) :
    changes [] [.spareNeeds, .swaps] s (s.withNeeds l x) :=
  (changes.refl s).parts rfl fun q hq => by cases q <;> first | rfl | exact absurd (by decide) hq

theorem State.leaveSpares_changes (s : State) (n : Nat) :
    changes spareFields [.spareNeeds, .swaps] s (s.leaveSpares n) := by
  unfold State.leaveSpares
  extract_lets k s1
  have left : changes spareFields [.spareNeeds, .swaps] s s1 :=
    .each _ _ (fun x f h => .ite (fun _ => h.step (x.putSpare_changes ..)) fun _ => h) (.refl s)
  exact left.step (s1.withNeeds_changes ..)

theorem State.downSpares_changes (s : State) (n : Nat) :
    changes (.oeRingState :: spareFields) [.spareNeeds, .swaps] s (s.downSpares n) :=
  .each _ _ (fun x _ h => h.step (x.laneMoved_changes ..)) ((s.leaveSpares_changes n).mono (by decide) (by decide))

theorem State.toClock_routes (s : State) (n u : Nat) (hn : n < 32) : routesKept s (s.toClock n u) := by
  unfold State.toClock
  extract_lets x s1 s2
  have opened : changes [.lnkStatusAttempts] [.links] s s1 := (changes.refl s).setLink _ _ (by decide)
  have fresh : changes [.lnkStatusAttempts] [.links] s s2 :=
    .ite (fun _ => opened.wr _ _ _ _ (by decide)) fun _ => opened
  refine (routesKept_of_changes fresh).trans ?_
  rw [State.setEnd, if_pos hn]
  exact routesKept_of_changes (s2.setPort_changes n lClock)

theorem State.linkDown_routes (s : State) (n cause u : Nat) : routesKept s (s.linkDown n cause u) := by
  have moved {as : List Area} {qs : List Part} {x y : State} (h : Moves as qs x y) (oe : .oe ∉ as := by decide) :
      routesKept x y := routesKept_of_touches h.1 oe
  unfold State.linkDown
  split
  next up =>
    have hn : n < 32 := by
      simp only [Bool.and_eq_true, decide_eq_true_eq] at up
      exact up.1
    extract_lets x pair s1 s2 s3 s4 s5
    have dark : routesKept s s1 := routesKept_of_changes
      (fs := .oeRingState :: spareFields ++ [.lnkLaneState, .lnkStatusRxMask, .lnkStatusTxMask, .lnkStatusClockOk])
      ((((s.darkLanes_changes n).mono (ps := [.links, .spareNeeds, .swaps]) (by decide) (by decide)).setLink _ _
        (by decide)).step (State.downSpares_changes ..))
    have settled : routesKept s1 s2 :=
      moved (State.settleLink_moves s1 n (List.Subset.refl _) (List.Subset.refl _) (.refl s1))
    have counted : routesKept s2 s3 := routesKept_of_changes (fs := [.lnkStatusLastDown, .lnkEventsDowns]) (ps := [])
      (((changes.refl s2).wr _ _ _ _ (by decide)).bump _ _ _ _ (by decide))
    have clock : routesKept s3 s4 := (routesKept_of_changes (fs := [.hLnkDarkEnd]) (ps := [])
      ((changes.refl s3).wr _ _ _ _ (by decide))).trans (State.toClock_routes _ n u hn)
    have completed : routesKept s4 s5 := by
      show routesKept s4 (if s4.on .fabPortQuiesced 0 n then s4 else s4.synthetic n x u)
      split
      · exact fun _ _ _ _ => rfl
      · exact moved (State.synthetic_moves s4 n x u (List.Subset.refl _) (List.Subset.refl _) (.refl s4))
    have all := (((dark.trans settled).trans counted).trans clock).trans completed
    split
    · exact all.trans (moved (State.pairPortLost_moves s5 n (List.Subset.refl _) (List.Subset.refl _) (.refl s5)))
    · exact all
  · exact fun _ _ _ _ => rfl

theorem State.checkWidth_routes (s : State) (n u : Nat) : routesKept s (s.checkWidth n u) := by
  unfold State.checkWidth
  split
  · split
    · exact s.linkDown_routes n _ u
    · split
      · exact s.linkDown_routes n _ u
      · exact fun _ _ _ _ => rfl
  · exact fun _ _ _ _ => rfl

/-- A lane that leaves at its receiver leaves the routes and windows alone. -/
theorem State.laneOut_routes (s : State) (n lane u : Nat) : routesKept s (s.laneOut n lane u) := by
  unfold State.laneOut
  split
  · extract_lets s1
    have left : changes [.lnkLaneState, .lnkStatusRxMask, .oeRingState, .lnkErrCountsLaneDrops] [.links] s s1 := by
      have out := ((s.setLane_changes n lane laneRetrain).mono
        (fs := [.lnkLaneState, .lnkStatusRxMask, .oeRingState, .lnkErrCountsLaneDrops]) (by decide)
        (List.Subset.refl _)).step (State.laneMoved_changes _ n lane)
      exact .ite (fun _ => out.bump _ _ _ _ (by decide)) fun _ => out
    exact (routesKept_of_changes (left.step (s1.sendByp_changes ..))).trans (State.checkWidth_routes _ n u)
  · exact fun _ _ _ _ => rfl

theorem State.each_routes {α : Type} (l : List α) (f : State → α → State) (h : ∀ x a, routesKept x (f x a))
    (s : State) :
    routesKept s (s.each l f) := by
  induction l generalizing s with
  | nil => exact fun _ _ _ _ => rfl
  | cons a l ih => exact (h s a).trans (ih _)

/-! ### A window that ends, a route that comes into force -/

theorem State.calEnd_changes (s : State) (i result : Nat) :
    changes [.calRecLastTick, .calRecResult, .calRecFailures] [] s (s.calEnd i result) := by
  have noted : changes [.calRecLastTick, .calRecResult, .calRecFailures] [] s
      ((s.wr .calRecLastTick 0 i s.now).wr .calRecResult 0 i result) :=
    ((changes.refl s).wr _ _ _ _ (by decide)).wr _ _ _ _ (by decide)
  exact .ite (fun _ => noted.bump _ _ _ _ (by decide)) fun _ => noted

/-- Numbers that a calibration which is pre-empted moves. -/
def preemptFields : List Field :=
  [.oeCalEventsPreempted, .calRecLastTick, .calRecResult, .calRecFailures, .oeRingLockCode, .oeRingState]

/-- The calibrations in hand and the runs of their rings. -/
def State.withCals (s : State) (l : List CalJob) (m : SMap (Nat × Nat) (List Nat)) : State :=
  { s with calJobs := l, calRuns := m }

theorem State.withCals_changes (s : State) (l : List CalJob) (m : SMap (Nat × Nat) (List Nat)) :
    changes [] [.calJobs, .calRuns] s (s.withCals l m) :=
  (changes.refl s).parts rfl fun q hq => by cases q <;> first | rfl | exact absurd (by decide) hq

theorem State.preemptCal_changes (s : State) (k g : Nat) :
    changes preemptFields [.calJobs, .calRuns] s (s.preemptCal k g) := by
  unfold State.preemptCal
  split
  · exact .refl s
  next c _ =>
    refine .ite (fun _ => .refl s) fun _ => ?_
    extract_lets s1 s2
    have ended : changes preemptFields [.calJobs, .calRuns] s s1 :=
      ((changes.refl s).bump _ _ _ _ (by decide)).step (State.calEnd_changes ..)
    have restored : changes preemptFields [.calJobs, .calRuns] s s2 := ended.step (s1.restoreCodes_changes c)
    exact restored.step (s2.withCals_changes ..)

theorem State.moveUse_changes (s : State) (k f route : Nat) :
    changes (preemptFields ++ spareFields) [.calJobs, .calRuns, .spareNeeds] s (s.moveUse k f route) := by
  unfold State.moveUse
  extract_lets lane j g use s1
  refine .ite (fun _ => .refl s) fun _ => ?_
  have freed : changes (preemptFields ++ spareFields) [.calJobs, .calRuns, .spareNeeds] s s1 :=
    (s.putSpare_changes ..).mono (by decide) (by decide)
  exact .ite (fun _ => freed.step (s1.putSpare_changes ..)) fun _ =>
    .ite (fun _ => freed.step (s1.preemptCal_changes ..)) fun _ => freed.parts rfl fun q hq => by cases q <;> first | rfl | exact absurd (by decide) hq

theorem State.steerSpare_changes (s : State) (f lane a b : Nat) :
    changes [.lnkStatusTxMask, .lnkLaneState, .lnkStatusRxMask] [.links] s (s.steerSpare f lane a b) :=
  .ite
    (fun _ => ((((s.setTx_changes ..).mono (by decide) (by decide)).step (State.setTx_changes ..)).step
      (State.setTx_changes ..)).step (State.setTx_changes ..))
    fun _ => ((((s.setLane_changes ..).mono (by decide) (by decide)).step (State.setLane_changes ..)).step
      (State.setLane_changes ..)).step (State.setLane_changes ..)

/-- What a spare that is moved to another port's lane leaves as it was. -/
def steerFields : List Field :=
  [.lnkStatusTxMask, .lnkLaneState, .lnkStatusRxMask] ++ (preemptFields ++ spareFields)

/-- A route that comes into force shows, after the spares have followed it. -/
theorem State.setRoute_eq (s : State) (k route : Nat) :
    ∃ v, changes steerFields [.links, .calJobs, .calRuns, .spareNeeds] s v ∧
      s.setRoute k route = (v.wr .oeRouteCurrent k 0 route).wr .oeStatusRoute k 0 route := by
  unfold State.setRoute
  extract_lets used on s1 s2
  have steered : changes steerFields [.links, .calJobs, .calRuns, .spareNeeds] s s1 := by
    refine .each _ _ (fun x f h => ?_) (.refl s)
    exact .ite (fun _ => h) fun _ => h.step (x.steerSpare_changes ..)
  exact ⟨s2, .each _ _ (fun x f h => h.step (x.moveUse_changes ..)) steered, rfl⟩

theorem State.closeWindow_eq (s : State) (k : Nat) :
    ∃ v : State, s.closeWindow k = (v.wr .oeRouteNext k 0 0x3F).wr .oeStatusSteering k 0 0 := ⟨_, rfl⟩

end

end Sys2Proof.Machine

/-!
# Identity, rounds, windows, tokens and plant losses of the fabric (R276, R349 to R357, R365)
-/

namespace Sys2Proof.Machine

-- Proofs checked one after another hold fewer threads' stacks at a time, which the memory of one process needs.
set_option Elab.async false

section
variable {s t : State} {k n u : Nat}

/-! ## IDENTITY_WRITE (R349) -/

theorem identityWrite_sets {x : Nat} (idle : s.active = none) (lo : 1 ≤ x) (hi : x ≤ 0x3FF) :
    ∃ t, Runs (.identityWrite x) s t ∧ t.identity = x ∧ changes [.fabIdentityIdentity] [] s t := by
  refine ⟨s.wr .fabIdentityIdentity 0 0 x, ?_, ?_, (changes.refl s).wr _ _ _ _ (by decide)⟩
  · show execIdentityWrite x s = _
    rw [execIdentityWrite, if_pos (by simp [idle, lo, hi])]
  · rw [State.identity, State.rd_wr_same]
    exact Nat.mod_eq_of_lt (show x < 2 ^ 16 by omega)

theorem identityWrite_refused {x : Nat} (h : s.active ≠ none ∨ x = 0 ∨ 0x3FF < x) :
    ∃ t, Runs (.identityWrite x) s t ∧ t.rd .fabIdentityWriteRefused 0 0 = 1 ∧
      changes [.fabIdentityWriteRefused] [] s t := by
  refine ⟨s.wr .fabIdentityWriteRefused 0 0 1, ?_, State.rd_wr_same .., (changes.refl s).wr _ _ _ _ (by decide)⟩
  show execIdentityWrite x s = _
  rw [execIdentityWrite, if_neg]
  simp only [Bool.and_eq_true, Option.isNone_iff_eq_none, decide_eq_true_eq, not_and, Nat.not_le]
  rintro ⟨idle, lo⟩
  exact h.elim (fun h => absurd idle h) fun h => by omega

/-! ## BARRIER_ROUND_COMPLETE (R276, R353, R356) -/

/-- Numbers that a window which opens moves. -/
def windowFields : List Field :=
  [.oeRingState, .hOeHoldEnd, .lnkLaneState, .oeStatusSteering, .oeRouteNext, .oeRouteSteers]

/-- A window that opens: its lanes held and hunting, then the window, its route and its count. -/
theorem State.openWindow_eq (s : State) (k route : Nat) :
    ∃ v, changes [.oeRingState, .hOeHoldEnd, .lnkLaneState] [] s v ∧ s.openWindow k route =
      ((v.wr .oeStatusSteering k 0 1).wr .oeRouteNext k 0 route).bump .oeRouteSteers k 0 1 := by
  unfold State.openWindow
  extract_lets s1 s2
  have held : changes [.oeRingState, .hOeHoldEnd, .lnkLaneState] [] s s1 :=
    .each _ _ (fun x r h => .ite (fun _ => (h.wr _ _ _ _ (by decide)).wr _ _ _ _ (by decide)) fun _ => h) (.refl s)
  exact ⟨s2, .each _ _ (fun x e h => .ite (fun _ => h.wr _ _ _ _ (by decide)) fun _ => h) held, rfl⟩

theorem State.openWindow_changes (s : State) (k route : Nat) : changes windowFields [] s (s.openWindow k route) := by
  obtain ⟨v, held, opened⟩ := s.openWindow_eq k route
  rw [opened]
  exact (((held.mono (by decide) (by decide)).wr _ _ _ _ (by decide)).wr _ _ _ _ (by decide)).bump _ _ _ _ (by decide)

/-- The window of engine k shows its route and its count; another engine's stands. -/
theorem State.openWindow_rd (s : State) (k route x : Nat) :
    (s.openWindow k route).rd .oeStatusSteering x 0 = (if k = x then 1 else s.rd .oeStatusSteering x 0) ∧
    (s.openWindow k route).rd .oeRouteNext x 0 = (if k = x then route % 64 else s.rd .oeRouteNext x 0) ∧
    (s.openWindow k route).rd .oeRouteSteers x 0 =
      if k = x then min (2 ^ 32 - 1) (s.rd .oeRouteSteers x 0 + 1) else s.rd .oeRouteSteers x 0 := by
  obtain ⟨v, held, opened⟩ := s.openWindow_eq k route
  have kept (f : Field) (hf : f ∉ [Field.oeRingState, .hOeHoldEnd, .lnkLaneState]) : v.rd f x 0 = s.rd f x 0 :=
    held.1 f x 0 hf
  rw [opened]
  refine ⟨?_, ?_, ?_⟩
  · rw [State.rd_bump_ne _ _ _ _ _ _ _ _ (by decide), State.rd_wr_ne _ _ _ _ _ _ _ _ (by decide), State.rd_wr,
      kept _ (by decide)]
    simp only [true_and, and_true]
    rfl
  · rw [State.rd_bump_ne _ _ _ _ _ _ _ _ (by decide), State.rd_wr, State.rd_wr_ne _ _ _ _ _ _ _ _ (by decide),
      kept _ (by decide)]
    simp only [true_and, and_true]
    rfl
  · by_cases h : k = x
    · subst h
      rw [State.rd_bump_same _ _ _ _ _ (by decide), if_pos rfl, State.rd_wr_ne _ _ _ _ _ _ _ _ (by decide),
        State.rd_wr_ne _ _ _ _ _ _ _ _ (by decide), kept _ (by decide)]
      rfl
    · rw [State.bump, if_neg (by decide), State.rd_wr, if_neg (by simp [h]), if_neg h,
        State.rd_wr_ne _ _ _ _ _ _ _ _ (by decide), State.rd_wr_ne _ _ _ _ _ _ _ _ (by decide), kept _ (by decide)]

/-- The windows that a steer record opens. -/
def State.steerOpens (s : State) (r : SteerRec) : State :=
  s.each (bitsSet r.engines 8) fun s k => s.openWindow k r.route

theorem State.each_openWindow_changes (s : State) (l : List Nat) (route : Nat) :
    changes windowFields [] s (s.each l fun s k => s.openWindow k route) :=
  .each _ _ (fun x k h => h.step (x.openWindow_changes k route)) (.refl s)

/-- The engines of a list have their windows open; the others as before. -/
theorem State.each_openWindow_steering (s : State) (l : List Nat) (route x : Nat) :
    (s.each l fun s k => s.openWindow k route).rd .oeStatusSteering x 0 =
      if x ∈ l then 1 else s.rd .oeStatusSteering x 0 := by
  induction l generalizing s with
  | nil => rfl
  | cons k l ih =>
    rw [State.each_cons, ih, (s.openWindow_rd k route x).1]
    by_cases h : k = x <;> simp [h, Ne.symm]

/-- An engine that is not in the list keeps its route and its count. -/
theorem State.each_openWindow_other (s : State) {l : List Nat} {route x : Nat} (hx : x ∉ l) :
    (s.each l fun s k => s.openWindow k route).rd .oeRouteNext x 0 = s.rd .oeRouteNext x 0 ∧
    (s.each l fun s k => s.openWindow k route).rd .oeRouteSteers x 0 = s.rd .oeRouteSteers x 0 := by
  induction l generalizing s with
  | nil => exact ⟨rfl, rfl⟩
  | cons k l ih =>
    obtain ⟨differ, rest⟩ := not_or.mp (List.mem_cons.not.mp hx)
    obtain ⟨next, steers⟩ := ih (s.openWindow k route) rest
    obtain ⟨-, next', steers'⟩ := s.openWindow_rd k route x
    rw [if_neg (Ne.symm differ)] at next' steers'
    exact ⟨next.trans next', steers.trans steers'⟩

/-- An engine that is once in the list has its next route and counts the steer. -/
theorem State.each_openWindow_once (s : State) {l : List Nat} (once : l.Nodup) {route x : Nat} (hx : x ∈ l) :
    (s.each l fun s k => s.openWindow k route).rd .oeRouteNext x 0 = route % 64 ∧
    (s.each l fun s k => s.openWindow k route).rd .oeRouteSteers x 0 =
      min (2 ^ 32 - 1) (s.rd .oeRouteSteers x 0 + 1) := by
  induction l generalizing s with
  | nil => exact nomatch hx
  | cons k l ih =>
    obtain ⟨fresh, once⟩ := List.nodup_cons.mp once
    obtain ⟨-, next, steers⟩ := s.openWindow_rd k route x
    by_cases h : k = x
    · subst h
      obtain ⟨next', steers'⟩ := (s.openWindow k route).each_openWindow_other (route := route) fresh
      rw [if_pos rfl] at next steers
      exact ⟨next'.trans next, steers'.trans steers⟩
    · rw [if_neg h] at next steers
      obtain ⟨next', steers'⟩ := ih (s.openWindow k route) once ((List.mem_cons.mp hx).resolve_left (Ne.symm h))
      exact ⟨next', steers'.trans (by rw [steers])⟩

theorem mem_bitsSet {x m k : Nat} : k ∈ bitsSet x m ↔ k < m ∧ bit x k = true := by
  rw [bitsSet, List.mem_filter, List.mem_range]

theorem bitsSet_nodup (x m : Nat) : (bitsSet x m).Nodup := List.nodup_range.filter _

/-- The records of a list open the windows of their engines. -/
theorem State.each_steerOpens_steering (s : State) (l : List SteerRec) (x : Nat) :
    (s.each l State.steerOpens).rd .oeStatusSteering x 0 =
      if ∃ r ∈ l, x ∈ bitsSet r.engines 8 then 1 else s.rd .oeStatusSteering x 0 := by
  induction l generalizing s with
  | nil => simp [State.each_nil]
  | cons r l ih =>
    rw [State.each_cons, ih, State.steerOpens, State.each_openWindow_steering]
    by_cases h : x ∈ bitsSet r.engines 8 <;> simp [h]

/-- A round counted as complete. -/
def State.roundDone (s : State) (f bar : Nat) : State :=
  { s with barDone := s.barDone.put (f, bar) (s.rounds f bar + 1) }

theorem State.roundDone_changes (s : State) (f bar : Nat) : changes [] [.barDone] s (s.roundDone f bar) :=
  (changes.refl s).parts rfl fun q hq => by cases q <;> first | rfl | exact absurd (by decide) hq

theorem State.roundDone_steersOf (s : State) (u f bar : Nat) :
    ((s.stamp u).roundDone f bar).steersOf f bar = s.steersOf f bar := by
  have done : changes timeFields [.barDone] s ((s.stamp u).roundDone f bar) :=
    ((s.stamp_time u).mono (by decide) (by decide)).step (State.roundDone_changes ..)
  have active : ((s.stamp u).roundDone f bar).active = s.active := done.2 .active (by decide)
  have variant : ((s.stamp u).roundDone f bar).rd .modFormeStatusVariant 0 f = s.rd .modFormeStatusVariant 0 f :=
    done.1 _ _ _ (by decide)
  have step : ((s.stamp u).roundDone f bar).rd .modFormeStepQ 0 f = s.rd .modFormeStepQ 0 f := done.1 _ _ _ (by decide)
  simp only [State.steersOf, State.variant, State.forme, active, variant, step]

theorem barrierRound_runs {f bar : Nat} (hf : f < 16) (hb : bar < 64) (running : s.rd .hFormeStepRun 0 f = 1)
    (ready : (s.stamp u).roundReady f bar = true) :
    Runs (.barrierRoundComplete f bar u) s
      (((s.stamp u).roundDone f bar).each (s.steersOf f bar) State.steerOpens) := by
  have on : (s.stamp u).on .hFormeStepRun 0 f = true :=
    decide_eq_true (((s.stamp_time u).1 _ _ _ (by decide)).trans running)
  show execBarrierRoundComplete f bar u s = _
  rw [execBarrierRoundComplete, if_pos (by simp [hf, hb])]
  dsimp only
  rw [if_pos (by simp [on, ready]), ← s.roundDone_steersOf u]
  rfl

theorem barrierRound_ready {f bar : Nat} (hf : f < 16) (hb : bar < 64) (running : s.rd .hFormeStepRun 0 f = 1)
    (ready : (s.stamp u).roundReady f bar = true) :
    ∃ t, Runs (.barrierRoundComplete f bar u) s t ∧ t.rounds f bar = s.rounds f bar + 1 ∧
      (s.steersOf f bar = [] → changes timeFields [.barDone] s t) ∧
      (∀ r ∈ s.steersOf f bar, ∀ k < 8, bit r.engines k = true → t.rd .oeStatusSteering k 0 = 1) ∧
      (∀ r, s.steersOf f bar = [r] → ∀ k < 8, bit r.engines k = true →
        t.rd .oeStatusSteering k 0 = 1 ∧ t.rd .oeRouteNext k 0 = r.route % 64 ∧
        t.rd .oeRouteSteers k 0 = min (2 ^ 32 - 1) (s.rd .oeRouteSteers k 0 + 1)) ∧
      touches [.tick, .oe, .lnk] [.barDone] s t := by
  have done : changes timeFields [.barDone] s ((s.stamp u).roundDone f bar) :=
    ((s.stamp_time u).mono (by decide) (by decide)).step (State.roundDone_changes ..)
  have opened : changes windowFields [] ((s.stamp u).roundDone f bar)
      (((s.stamp u).roundDone f bar).each (s.steersOf f bar) State.steerOpens) :=
    .each _ _ (fun x r h => h.step (x.each_openWindow_changes ..)) (.refl _)
  have steering : ∀ r ∈ s.steersOf f bar, ∀ k < 8, bit r.engines k = true →
      (((s.stamp u).roundDone f bar).each (s.steersOf f bar) State.steerOpens).rd .oeStatusSteering k 0 = 1 := by
    intro r hr k hk named
    rw [State.each_steerOpens_steering, if_pos ⟨r, hr, mem_bitsSet.mpr ⟨hk, named⟩⟩]
  refine ⟨_, barrierRound_runs hf hb running ready, ?_, fun none => ?_, steering, fun r one k hk named => ?_,
    touches_of_changes (fs := timeFields ++ windowFields) ((done.mono (by decide) (by decide)).step opened) (by decide)⟩
  · have counted : (s.stamp u).rounds f bar = s.rounds f bar := by rw [State.rounds, State.stamp_barDone]; rfl
    rw [State.rounds, opened.2 .barDone (by decide), State.roundDone, SMap.getD_put_same, counted]
  · rw [none]
    exact done
  · have at_ := mem_bitsSet.mpr ⟨hk, named⟩
    refine ⟨steering r (one ▸ List.mem_singleton_self r) k hk named, ?_⟩
    obtain ⟨next, steers⟩ := ((s.stamp u).roundDone f bar).each_openWindow_once (bitsSet_nodup r.engines 8)
      (route := r.route) at_
    rw [done.1 _ _ _ (by decide)] at steers
    rw [one]
    exact ⟨next, steers⟩

theorem barrierRound_early {f bar : Nat} (hf : f < 16) (hb : bar < 64)
    (h : ¬(s.rd .hFormeStepRun 0 f = 1 ∧ (s.stamp u).roundReady f bar = true)) :
    quietly (.barrierRoundComplete f bar u) s := by
  have time := s.stamp_time u
  refine ⟨_, ?_, time⟩
  show execBarrierRoundComplete f bar u s = _
  rw [execBarrierRoundComplete, if_pos (by simp [hf, hb])]
  dsimp only
  rw [State.on, time.1 _ _ _ (by decide), if_neg (by simpa using h)]

/-! ## STEER_WINDOW_END (R276, R313) -/

theorem steerWindow_ends {l : List (Nat × Nat)} (hk : k < 8) (hl : (l.all fun e => e.1 < 4 && e.2 < 8) = true)
    (window : s.rd .oeStatusSteering k 0 = 1) :
    ∃ t, Runs (.steerWindowEnd k l u) s t ∧ t.rd .oeRouteCurrent k 0 = s.rd .oeRouteNext k 0 % 64 ∧
      t.rd .oeStatusRoute k 0 = s.rd .oeRouteNext k 0 % 64 ∧ t.rd .oeRouteNext k 0 = 0x3F ∧
      t.rd .oeStatusSteering k 0 = 0 ∧
      touches [.tick, .imp, .forme, .fab, .pair, .core, .events, .cal, .gal, .cmp, .col, .ddl, .gst, .prs, .oe, .lnk,
        .lsu] [.presses, .jobs, .lateXfers, .drains, .mgtLast, .calJobs, .calRuns, .swaps, .spareNeeds, .links, .relays,
        .mgtJobs, .out, .freeCount] s t := by
  let route := s.rd .oeRouteNext k 0
  let switched := ((s.stamp u).closeWindow k).setRoute k route
  have time := s.stamp_time u
  have on : (s.stamp u).on .oeStatusSteering k 0 = true :=
    decide_eq_true ((time.1 _ _ _ (by decide)).trans window)
  have run : Runs (.steerWindowEnd k l u) s (switched.each l fun s e => s.laneOut (portOf k e.1) e.2 u) := by
    show execSteerWindowEnd k l u s = _
    rw [execSteerWindowEnd, if_pos (by simp [hk, hl])]
    dsimp only
    rw [if_pos on, time.1 .oeRouteNext k 0 (by decide)]
  have left : routesKept switched (switched.each l fun s e => s.laneOut (portOf k e.1) e.2 u) :=
    State.each_routes l _ (fun x e => x.laneOut_routes (portOf k e.1) e.2 u) _
  have kept (f : Field) (hf : f ∈ routeFields) := left f hf k 0
  obtain ⟨c, closed⟩ := (s.stamp u).closeWindow_eq k
  obtain ⟨v, steered, set⟩ := ((s.stamp u).closeWindow k).setRoute_eq k route
  refine ⟨_, run, ?_, ?_, ?_, ?_,
    (execSteerWindowEnd_moves k l u s (List.Subset.refl _) (List.Subset.refl _) (.refl s) _ run).1⟩
  · rw [kept _ (by decide), show switched = _ from set, State.rd_wr_ne _ _ _ _ _ _ _ _ (by decide), State.rd_wr_same]
    rfl
  · rw [kept _ (by decide), show switched = _ from set, State.rd_wr_same]
    rfl
  · rw [kept _ (by decide), show switched = _ from set, State.rd_wr_ne _ _ _ _ _ _ _ _ (by decide),
      State.rd_wr_ne _ _ _ _ _ _ _ _ (by decide), steered.1 _ _ _ (by decide), closed,
      State.rd_wr_ne _ _ _ _ _ _ _ _ (by decide), State.rd_wr_same]
    rfl
  · rw [kept _ (by decide), show switched = _ from set, State.rd_wr_ne _ _ _ _ _ _ _ _ (by decide),
      State.rd_wr_ne _ _ _ _ _ _ _ _ (by decide), steered.1 _ _ _ (by decide), closed, State.rd_wr_same]
    rfl

theorem steerWindow_none {l : List (Nat × Nat)} (hk : k < 8) (hl : (l.all fun e => e.1 < 4 && e.2 < 8) = true)
    (closed : s.rd .oeStatusSteering k 0 ≠ 1) : quietly (.steerWindowEnd k l u) s := by
  have time := s.stamp_time u
  refine ⟨_, ?_, time⟩
  show execSteerWindowEnd k l u s = _
  rw [execSteerWindowEnd, if_pos (by simp [hk, hl])]
  dsimp only
  rw [State.on, time.1 _ _ _ (by decide), if_neg (by simpa using closed)]

/-! ## TOKEN_REPEAT, PLANT_TIMER (R352, R357) -/

/-- Messages that each element of a list may queue at a link end stand in its queue. -/
theorem State.each_queues {α : Type} (n : Nat) (inv : State → Prop) (m : α → Option BypMsg) (g : State → α → State)
    (one : ∀ s a, inv s → inv (g s a) ∧ ((g s a).link n).bypQ = (s.link n).bypQ ++ (m a).toList) (l : List α)
    (s : State) (h : inv s) : ((s.each l g).link n).bypQ = (s.link n).bypQ ++ l.filterMap m := by
  induction l generalizing s with
  | nil => simp [State.each_nil]
  | cons a l ih =>
    obtain ⟨stands, queued⟩ := one s a h
    rw [State.each_cons, ih _ stands, queued, List.filterMap_cons]
    cases m a <;> simp

theorem fabricPort_stamp (s : State) (u n : Nat) : (s.stamp u).fabricPort n = s.fabricPort n := by
  simp only [State.fabricPort, State.fabricForme, State.stamp_active,
    isPairPort_of_touches (touches_stamp s u) (by decide) (by decide)]

theorem State.lState_stamp (s : State) (u q : Nat) : (s.stamp u).lState q = s.lState q :=
  (s.stamp_time u).1 _ _ _ (by decide)

theorem State.sendByp_queue (s : State) (n kind arg reqno : Nat) :
    ((s.sendByp n kind arg reqno).link n).bypQ = (s.link n).bypQ ++ [⟨kind, arg, reqno⟩] := by
  rw [State.sendByp, State.link_setLink, if_pos rfl]

theorem tokenRepeat_runs (hn : n < 32) (up : s.lState n = lUp) (fabric : s.fabricPort n = true) :
    ∃ t, Runs (.tokenRepeat n u) s t ∧
      (∀ e ∈ s.tokens, e.1.1 = n / 8 → (s.stamp u).now - e.2.changed < 2 ^ 18 →
        ⟨0x10, tokenArg e.1.2.1 e.1.2.2 e.2.nibble e.2.count, 0⟩ ∈ (t.link n).bypQ) ∧
      changes timeFields [.links] s t := by
  have time := s.stamp_time u
  refine ⟨(s.stamp u).repeatTokens n, ?_, fun e he chase recent => ?_, ?_⟩
  · show execTokenRepeat n u s = _
    rw [execTokenRepeat, State.atPort, if_pos hn, if_pos (by simp [State.lState_stamp, fabricPort_stamp, up, fabric])]
  · rw [State.repeatTokens, State.each_queues n (fun _ => True)
      (fun e : (Nat × Nat × Nat) × TokEntry => some ⟨0x10, tokenArg e.1.2.1 e.1.2.2 e.2.nibble e.2.count, 0⟩) _
      (fun s e _ => ⟨trivial, s.sendByp_queue ..⟩) _ _ trivial]
    refine List.mem_append_right _ (List.mem_filterMap.mpr ⟨e, List.mem_filter.mpr ⟨?_, ?_⟩, rfl⟩)
    · rwa [State.stamp_tokens]
    · simp only [endChase, hn, if_true, chase, recent, decide_true, Bool.and_self]
  · exact (time.mono (by decide) (by decide)).trans (.each _ _ (fun x _ h => h.step (x.sendByp_changes ..)) (.refl _))

theorem tokenRepeat_none (hn : n < 32) (h : s.lState n ≠ lUp ∨ s.fabricPort n = false) :
    quietly (.tokenRepeat n u) s := by
  refine ⟨_, ?_, s.stamp_time u⟩
  show execTokenRepeat n u s = _
  rw [execTokenRepeat, State.atPort, if_pos hn, State.lState_stamp, fabricPort_stamp,
    if_neg (by rcases h with h | h <;> simp [h])]

/-- What PLANT_TIMER queues for a wavelength: nothing where it is dark. -/
def State.plantOf (s : State) (n w : Nat) : Option BypMsg :=
  if s.rd .oeMonS5 (n / 4) (10 * (n % 4) + w) = 0x8000 then none
  else some ⟨0x84, w * 2 ^ 28 + s.rd .oeMonS5 (n / 4) (10 * (n % 4) + w), 0⟩

theorem plantTimer_runs (hn : n < 32) (up : s.lState n = lUp) :
    ∃ t, Runs (.plantTimer n u) s t ∧
      (∀ w < 10, s.rd .oeMonS5 (n / 4) (10 * (n % 4) + w) ≠ 0x8000 →
        ⟨0x84, w * 2 ^ 28 + s.rd .oeMonS5 (n / 4) (10 * (n % 4) + w), 0⟩ ∈ (t.link n).bypQ) ∧
      changes timeFields [.links] s t := by
  have time := s.stamp_time u
  have run : execPlantTimer n u s = .next ((s.stamp u).each (List.range 10) fun s w =>
      if s.rd .oeMonS5 (n / 4) (10 * (n % 4) + w) = 0x8000 then s
      else s.sendByp n 0x84 (w * 2 ^ 28 + s.rd .oeMonS5 (n / 4) (10 * (n % 4) + w)) 0) := by
    rw [execPlantTimer, State.atPort, if_pos hn, State.lState_stamp, if_pos up]
  refine ⟨_, run, fun w hw lit => ?_, ?_⟩
  · rw [State.each_queues n (fun x => ∀ i, x.rd .oeMonS5 (n / 4) i = s.rd .oeMonS5 (n / 4) i) (s.plantOf n) _
      (fun x w kept => ?_) _ _ fun i => time.1 _ _ _ (by decide)]
    · exact List.mem_append_right _ (List.mem_filterMap.mpr ⟨w, List.mem_range.mpr hw, if_neg lit⟩)
    · rw [kept, State.plantOf]
      split
      · exact ⟨kept, (List.append_nil _).symm⟩
      · exact ⟨fun i => ((x.sendByp_changes ..).1 _ _ _ (by decide)).trans (kept i), x.sendByp_queue ..⟩
  · exact (time.mono (by decide) (by decide)).trans
      (.each _ _ (fun x _ h => .ite (fun _ => h) fun _ => h.step (x.sendByp_changes ..)) (.refl _))

theorem plantTimer_none (hn : n < 32) (h : s.lState n ≠ lUp) : quietly (.plantTimer n u) s := by
  refine ⟨_, ?_, s.stamp_time u⟩
  show execPlantTimer n u s = _
  rw [execPlantTimer, State.atPort, if_pos hn, State.lState_stamp, if_neg h]

/-! ## Bypass messages (R299, R306, R366) -/

/-- A bypass message at an end that carries none. -/
theorem byp_closed {kind arg : Nat} {b : Byp} (hn : n < linkEnds) (down : s.linkOpen n = false) (run : State → State) :
    s.byp n b kind arg u run = .next (s.stamp u) := by
  rw [State.byp, State.atEnd, if_pos hn, if_neg (by rw [State.linkOpen_stamp, down]; decide)]

/-- A corrupt bypass message counts. -/
theorem byp_corrupt {kind arg : Nat} {b : Byp} (hn : n < linkEnds) (up : s.linkOpen n = true)
    (crc : b.crcOk kind arg = false) (run : State → State) :
    s.byp n b kind arg u run = .next ((s.stamp u).count n .lnkErrCountsCrcErrors) := by
  rw [State.byp, State.atEnd, if_pos hn, if_pos ((s.linkOpen_stamp u n).trans up), if_neg (by simp [crc])]

/-- What a corrupt message leaves. -/
theorem corrupt_shows (s : State) (u n : Nat) :
    (n < 32 → ((s.stamp u).count n .lnkErrCountsCrcErrors).rd .lnkErrCountsCrcErrors n 0 =
      min 65535 (s.rd .lnkErrCountsCrcErrors n 0 + 1)) ∧
    changes (.lnkErrCountsCrcErrors :: timeFields) [] s ((s.stamp u).count n .lnkErrCountsCrcErrors) := by
  have time := s.stamp_time u
  have time' : changes (.lnkErrCountsCrcErrors :: timeFields) [] s (s.stamp u) := time.mono (by decide) (by decide)
  refine ⟨fun hn => ?_, .ite (fun _ => time'.bump _ _ _ _ (by decide)) fun _ => time'⟩
  rw [State.count, if_pos hn, State.rd_bump_same _ _ _ _ _ (by decide), time.1 _ _ _ (by decide)]
  rfl

/-- What a quiesce that a message completes may move. -/
theorem State.quiesceCheck_changes (s : State) (n : Nat) :
    changes [.fabPortQuiesced, .fabStatusState] [.links] s (s.quiesceCheck n) := by
  unfold State.quiesceCheck
  split
  · exact .refl s
  next e _ =>
    refine .ite (fun _ => ?_) fun _ => .refl s
    extract_lets x empty s1 y s2
    have sent : changes [.fabPortQuiesced, .fabStatusState] [.links] s s1 :=
      .ite (fun _ => ((changes.refl s).setLink _ _ (by decide)).step (State.sendByp_changes ..)) fun _ => .refl s
    have quiet : changes [.fabPortQuiesced, .fabStatusState] [.links] s s2 :=
      .ite (fun _ => sent.wr _ _ _ _ (by decide)) fun _ => sent
    exact .ite (fun _ => quiet.wr _ _ _ _ (by decide)) fun _ => quiet

/-! ## PLANT (R365, R521) -/

/-- The state after a PLANT that a port takes. -/
def State.planted (s : State) (n w s5 : Nat) : State :=
  if n < 32 && w < 10 then
    let s4 := s.rd .oeMonS4 (n / 4) (10 * (n % 4) + w)
    let loss := sext16 s4 - sext16 s5
    if s4 != 0x8000 && 900 < loss then
      ((s.wr .fabPortPlantFault 0 n 1).wr .fabPortPlantWavelength 0 n w).wr .fabPortPlantExcess 0 n
        (min 255 ((loss - 900) / 10).toNat)
    else s
  else s

/-- Numbers of a plant loss. -/
def plantFields : List Field := [.fabPortPlantFault, .fabPortPlantWavelength, .fabPortPlantExcess]

theorem State.planted_changes (s : State) (n w s5 : Nat) : changes plantFields [] s (s.planted n w s5) :=
  .ite (fun _ => .ite (fun _ => (((changes.refl s).wr _ _ _ _ (by decide)).wr _ _ _ _ (by decide)).wr _ _ _ _
    (by decide)) fun _ => .refl s) fun _ => .refl s

theorem State.planted_shows (s : State) {n w s5 s4 : Nat} (hn : n < 32) (hw : w < 10)
    (lit : s.rd .oeMonS4 (n / 4) (10 * (n % 4) + w) = s4) (hs4 : s4 ≠ 0x8000) (far : 900 < sext16 s4 - sext16 s5) :
    (s.planted n w s5).rd .fabPortPlantFault 0 n = 1 ∧ (s.planted n w s5).rd .fabPortPlantWavelength 0 n = w ∧
      (s.planted n w s5).rd .fabPortPlantExcess 0 n = min 255 ((sext16 s4 - sext16 s5 - 900) / 10).toNat := by
  rw [State.planted, if_pos (by simp [hn, hw])]
  dsimp only
  rw [lit, if_pos (by simp [hs4, far])]
  refine ⟨?_, ?_, ?_⟩
  · rw [State.rd_wr_ne _ _ _ _ _ _ _ _ (by decide), State.rd_wr_ne _ _ _ _ _ _ _ _ (by decide), State.rd_wr_same]
    rfl
  · rw [State.rd_wr_ne _ _ _ _ _ _ _ _ (by decide), State.rd_wr_same]
    exact Nat.mod_eq_of_lt (show w < 2 ^ 4 by omega)
  · rw [State.rd_wr_same]
    exact Nat.mod_eq_of_lt (show min 255 _ < 2 ^ 8 by omega)

theorem State.planted_none (s : State) {n w s5 : Nat}
    (h : 32 ≤ n ∨ 10 ≤ w ∨ s.rd .oeMonS4 (n / 4) (10 * (n % 4) + w) = 0x8000 ∨
      sext16 (s.rd .oeMonS4 (n / 4) (10 * (n % 4) + w)) - sext16 s5 ≤ 900) : s.planted n w s5 = s := by
  unfold State.planted
  split
  next inside =>
    simp only [Bool.and_eq_true, decide_eq_true_eq] at inside
    refine if_neg ?_
    simp only [Bool.and_eq_true, bne_iff_ne, ne_eq, decide_eq_true_eq, not_and, not_lt]
    exact fun lit => ((h.resolve_left (by omega)).resolve_left (by omega)).resolve_left lit
  · rfl

/-- Where nothing is acknowledged and no quiesce waits, a PLANT leaves what it notes. -/
theorem plant_calm {b : Byp} {w s5 : Nat} (calm : (s.link n).unacked = [] ∧ s.rd .fabStatusState 0 0 ≠ 3) :
    ((((s.stamp u).acked n b).planted n w s5)).quiesceCheck n = (s.stamp u).planted n w s5 := by
  obtain ⟨idle, still⟩ := calm
  rw [State.acked_none (by rwa [State.link_stamp]), State.quiesceCheck_none]
  rwa [((s.stamp u).planted_changes n w s5).1 _ _ _ (by decide), (s.stamp_time u).1 _ _ _ (by decide)]

section
variable {b : Byp} {w s5 : Nat} (hn : n < linkEnds)
include hn

theorem plant_runs (up : s.linkOpen n = true) (crc : b.crcOk 0x84 (w * 2 ^ 28 + s5) = true) :
    Runs (.plant n b w s5 u) s (((((s.stamp u).acked n b).planted n w s5)).quiesceCheck n) :=
  byp_heard hn up crc u (fun x => x.planted n w s5)

theorem plant_closed (down : s.linkOpen n = false) : quietly (.plant n b w s5 u) s :=
  ⟨s.stamp u, byp_closed hn down fun x => x.planted n w s5, s.stamp_time u⟩

theorem plant_corrupt (up : s.linkOpen n = true) (crc : b.crcOk 0x84 (w * 2 ^ 28 + s5) = false) :
    ∃ t, Runs (.plant n b w s5 u) s t ∧
      (n < 32 → t.rd .lnkErrCountsCrcErrors n 0 = min 65535 (s.rd .lnkErrCountsCrcErrors n 0 + 1)) ∧
      changes (.lnkErrCountsCrcErrors :: timeFields) [] s t :=
  ⟨_, byp_corrupt hn up crc fun x => x.planted n w s5, corrupt_shows s u n⟩

theorem plant_notes (up : s.linkOpen n = true) (crc : b.crcOk 0x84 (w * 2 ^ 28 + s5) = true) :
    let calm := (s.link n).unacked = [] ∧ s.rd .fabStatusState 0 0 ≠ 3
    let s4 := s.rd .oeMonS4 (n / 4) (10 * (n % 4) + w)
    let loss := sext16 s4 - sext16 s5
    (n < 32 → w < 10 → s4 ≠ 0x8000 → 900 < loss → ∃ t, Runs (.plant n b w s5 u) s t ∧
      t.rd .fabPortPlantFault 0 n = 1 ∧ t.rd .fabPortPlantWavelength 0 n = w ∧
      t.rd .fabPortPlantExcess 0 n = min 255 ((loss - 900) / 10).toNat ∧
      (calm → changes (.fabPortPlantFault :: .fabPortPlantWavelength :: .fabPortPlantExcess :: timeFields) [] s t) ∧
      touches [.tick, .fab, .gal, .lnk] [.links] s t) ∧
    (32 ≤ n ∨ 10 ≤ w ∨ s4 = 0x8000 ∨ loss ≤ 900 → calm → quietly (.plant n b w s5 u) s) := by
  intro calm s4 loss
  have time := s.stamp_time u
  have run := plant_runs (u := u) hn up crc
  refine ⟨fun hp hw lit far => ?_, fun h still => ?_⟩
  · have level : ((s.stamp u).acked n b).rd .oeMonS4 (n / 4) (10 * (n % 4) + w) = s4 :=
      ((touches_acked (s.stamp u) n b).1 _ _ _ (by decide)).trans (time.1 _ _ _ (by decide))
    have quiet := (((s.stamp u).acked n b).planted n w s5).quiesceCheck_changes n
    obtain ⟨fault, wavelength, excess⟩ := ((s.stamp u).acked n b).planted_shows hp hw level lit far
    refine ⟨_, run, (quiet.1 _ _ _ (by decide)).trans fault, (quiet.1 _ _ _ (by decide)).trans wavelength,
      (quiet.1 _ _ _ (by decide)).trans excess, fun still => ?_,
      (execPlant_moves n b w s5 u s (List.Subset.refl _) (List.Subset.refl _) (.refl s) _ run).1⟩
    rw [plant_calm still]
    exact (time.mono (by decide) (by decide)).step (State.planted_changes ..)
  · rw [plant_calm still, State.planted_none] at run
    · exact ⟨_, run, time⟩
    · rwa [time.1 _ _ _ (by decide)]

end

end

/-- Settles O40: identities, barrier rounds and windows, tokens and plant losses. -/
theorem fabricRounds : Obligations.FabricRounds := by
  unfold Obligations.FabricRounds
  intro s u v
  refine ⟨fun x => ⟨identityWrite_sets, identityWrite_refused⟩,
    fun f bar hf hb => ⟨fun ready => barrierRound_ready hf hb ready.1 ready.2, barrierRound_early hf hb⟩,
    fun k l hk hl => ⟨steerWindow_ends hk hl, steerWindow_none hk hl⟩,
    fun n hn => ⟨tokenRepeat_runs hn, tokenRepeat_none hn, plantTimer_runs hn, plantTimer_none hn⟩,
    fun n b w s5 hn => ⟨plant_closed hn, plant_corrupt hn, plant_notes hn⟩⟩

end Sys2Proof.Machine

/-!
# What a link end's requests keep (R252, R253, R265, R310, R311)

The operations that carry a request out only add to what a link end has to send: the request served last stays, and
no message and no MARK that waits goes.
-/

namespace Sys2Proof.Machine

-- Proofs checked one after another hold fewer threads' stacks at a time, which the memory of one process needs.
set_option Elab.async false

/-- Link end y has what x had to send, and answers the same request of the peer. -/
structure Link.grows (x y : Link) : Prop where
  served : y.served = x.served
  peerCal : y.peerCal = x.peerCal
  sent : x.bypQ ⊆ y.bypQ
  marks : x.marks ⊆ y.marks

theorem Link.grows.refl (x : Link) : x.grows x := ⟨rfl, rfl, List.Subset.refl _, List.Subset.refl _⟩

theorem Link.grows.trans {x y z : Link} (h : x.grows y) (h' : y.grows z) : x.grows z :=
  ⟨h'.served.trans h.served, h'.peerCal.trans h.peerCal, List.Subset.trans h.sent h'.sent,
    List.Subset.trans h.marks h'.marks⟩

/-- Every link end grows, and no withdrawal is counted. -/
def Grows (s t : State) : Prop :=
  (∀ m, (s.link m).grows (t.link m)) ∧ ∀ j, t.rd .lnkEventsWithdrawals j 0 = s.rd .lnkEventsWithdrawals j 0

section
variable {s t w : State} {fs : List Field} {ps : List Part}

theorem Grows.refl (s : State) : Grows s s := ⟨fun _ => .refl _, fun _ => rfl⟩

theorem Grows.trans (h : Grows s t) (h' : Grows t w) : Grows s w :=
  ⟨fun m => (h.1 m).trans (h'.1 m), fun j => (h'.2 j).trans (h.2 j)⟩

theorem link_of_changes (h : changes fs ps s t) (hq : .links ∉ ps) (m : Nat) : t.link m = s.link m :=
  congrArg (·.getD m Link.init) (h.2 .links hq)

theorem Grows.changes (h : Grows s t) (h' : changes fs ps t w) (hf : .lnkEventsWithdrawals ∉ fs := by decide)
    (hq : .links ∉ ps := by decide) : Grows s w :=
  h.trans ⟨fun m => link_of_changes h' hq m ▸ .refl _, fun j => h'.1 _ j 0 hf⟩

theorem Grows.of_changes (h : Machine.changes fs ps s t) (hf : .lnkEventsWithdrawals ∉ fs := by decide)
    (hq : .links ∉ ps := by decide) : Grows s t := (Grows.refl s).changes h hf hq

theorem Grows.ite {c : Prop} [Decidable c] (h : c → Grows s t) (h' : ¬c → Grows s w) :
    Grows s (if c then t else w) := by
  split
  next hc => exact h hc
  next hc => exact h' hc

theorem Grows.each {α : Type} (l : List α) (f : State → α → State) (hf : ∀ x a, Grows x (f x a)) (s : State) :
    Grows s (s.each l f) := by
  induction l generalizing s with
  | nil => exact .refl s
  | cons a l ih => exact (hf s a).trans (ih _)

theorem Grows.setLink (s : State) (n : Nat) {x : Link} (h : (s.link n).grows x) : Grows s (s.setLink n x) := by
  refine ⟨fun m => ?_, fun j => rfl⟩
  rw [State.link_setLink]
  split
  next e => exact e ▸ h
  · exact .refl _

/-! ## Messages, MARKs and requests -/

theorem State.sendByp_grows (s : State) (n kind arg reqno : Nat) : Grows s (s.sendByp n kind arg reqno) :=
  .setLink s n ⟨rfl, rfl, List.subset_append_left .., List.Subset.refl _⟩

theorem State.mark_grows (s : State) (n : Nat) (l : List (Nat × Bool)) : Grows s (s.mark n l) :=
  .setLink s n ⟨rfl, rfl, List.Subset.refl _, List.subset_append_left ..⟩

theorem State.issue_grows (s : State) (n kind arg : Nat) : Grows s (s.issue n kind arg) := by
  unfold State.issue
  dsimp only
  split
  · exact .setLink s n ⟨rfl, rfl, List.Subset.refl _, List.Subset.refl _⟩
  · exact (Grows.setLink s n (by exact ⟨rfl, rfl, List.Subset.refl _, List.Subset.refl _⟩)).trans
      (State.sendByp_grows ..)

theorem State.laneReq_grows (s : State) (n lane action : Nat) : Grows s (s.laneReq n lane action) := s.issue_grows ..

theorem State.issueNext_grows (s : State) (n : Nat) : Grows s (s.issueNext n) := by
  have again (l : List (Nat × Nat)) : Grows s (s.setLink n { s.link n with again := l }) :=
    .setLink s n ⟨rfl, rfl, List.Subset.refl _, List.Subset.refl _⟩
  unfold State.issueNext
  refine .ite (fun _ => ?_) fun _ => .refl s
  split
  · exact .ite (fun _ => again _) fun _ => .refl s
  · exact .ite (fun _ => .refl s) fun _ => (again _).trans (State.issue_grows ..)

/-! ## Spares -/

theorem State.takeSpare_grows (s : State) (d : SpareNeed) : Grows s (s.takeSpare d) := by
  unfold State.takeSpare
  extract_lets n use s1 s2 s3
  have put : Grows s s1 := .of_changes (s.putSpare_changes ..)
  refine .ite (fun _ => ?_) fun _ => .ite (fun _ => put.trans (s1.laneReq_grows ..)) fun _ => ?_
  · exact (Grows.ite (fun _ => put.trans (s1.mark_grows ..)) fun _ => put).trans (s2.laneReq_grows ..)
  · exact (Grows.ite (fun _ => put.changes (s1.putSpare_changes ..)) fun _ => put).trans (s3.laneReq_grows ..)

theorem State.serveSpare_grows (s : State) (k f : Nat) : Grows s (s.serveSpare k f) := by
  unfold State.serveSpare
  refine .ite (fun _ => ?_) fun _ => .refl s
  split
  · exact .refl s
  next d _ =>
    exact (Grows.of_changes (s.withNeeds_changes (s.spareNeeds.erase d) s.swaps)).trans (State.takeSpare_grows ..)

theorem State.freeSpare_grows (s : State) (k f : Nat) : Grows s (s.freeSpare k f) :=
  (Grows.of_changes (s.putSpare_changes ..)).trans (State.serveSpare_grows ..)

theorem State.giveBack_grows (s : State) (k f lane : Nat) : Grows s (s.giveBack k f lane) :=
  .ite (fun _ => s.freeSpare_grows ..) fun _ => .refl s

theorem State.preemptLs_changes (s : State) (k g : Nat) :
    changes (.hOeCalMode :: preemptFields) [.calJobs, .calRuns] s (s.preemptLs k g) := by
  unfold State.preemptLs
  split
  · exact .refl s
  · refine .ite (fun _ => ?_) fun _ => .refl s
    extract_lets s1
    have ended : changes (.hOeCalMode :: preemptFields) [.calJobs, .calRuns] s s1 :=
      (s.preemptCal_changes ..).mono (by decide) (by decide)
    exact (ended.step (s1.withJobs_changes _)).step (State.calMode_changes ..)

theorem State.takeOver_grows (s : State) (d : SpareNeed) : Grows s (s.takeOver d) := by
  unfold State.takeOver
  extract_lets n old m use wait s1 s2 s3 s4
  have waits : Grows s s1 := .of_changes (s.withNeeds_changes (s.spareNeeds.erase d ++ [wait]) s.swaps)
  have put : Grows s s2 := waits.changes (s1.putSpare_changes ..)
  have back : Grows s s3 := .ite (fun _ => put.trans (s2.mark_grows ..)) fun _ => put
  have moved : Grows s s4 := .ite (fun _ => back.trans (s3.mark_grows ..)) fun _ => back.trans (s3.mark_grows ..)
  exact moved.trans (s4.laneReq_grows ..)

theorem State.needSpare_grows (s : State) (d : SpareNeed) : Grows s (s.needSpare d) := by
  unfold State.needSpare
  extract_lets use s1 s2
  have free (x : State) : Grows x (if use = suCal then x.preemptCal d.engine (d.fibre / 2) else x) :=
    .ite (fun _ => .of_changes (x.preemptCal_changes ..)) fun _ => .refl x
  refine .ite (fun _ => .refl s) fun _ => .ite (fun _ => ?_) fun _ => .ite (fun _ => s.takeOver_grows d) fun _ => ?_
  · exact (free s).changes (State.putSpare_changes ..)
  · have waits : Grows s s1 := .of_changes (s.withNeeds_changes (s.spareNeeds ++ [d]) s.swaps)
    exact ((waits.trans (free s1)).changes (State.preemptLs_changes ..)).trans (State.serveSpare_grows ..)

/-! ## Calibrations -/

theorem State.endCal_grows (s : State) (k j lane : Nat) : Grows s (s.endCal k j lane) := by
  unfold State.endCal
  extract_lets mine s1 s2 give
  have gave (x : State) (f : Nat) : Grows x (give x f) := .ite (fun _ => x.freeSpare_grows ..) fun _ => .refl x
  have ended : Grows s s1 := .of_changes (s.withJobs_changes _)
  have due : Grows s1 s2 := by
    refine .each _ _ (fun x c => ?_) s1
    have mode : changes [.hOeCalMode, .oeFibreStatusCalDue] [] x (x.calMode k c.fibre) :=
      (x.calMode_changes ..).mono (by decide) (by decide)
    exact .of_changes (changes.ite (fun _ => mode) fun _ =>
      (mode.andNot _ _ _ _ (by decide)).andNot _ _ _ _ (by decide))
  exact ((ended.trans due).trans (gave ..)).trans (gave ..)

theorem State.startCal_grows (s : State) (n lane : Nat) : Grows s (s.startCal n lane) := by
  have begun : Grows s (s.beginCal n lane) := .of_changes (s.beginCal_changes n lane)
  exact .ite (fun _ => (begun.changes (State.calSpares_changes ..)).trans (State.laneReq_grows ..)) fun _ => begun

theorem State.tryCal_grows (s : State) (k g : Nat) : Grows s (s.tryCal k g) := by
  unfold State.tryCal
  refine .ite (fun _ => ?_) fun _ => .refl s
  split
  · exact s.startCal_grows ..
  · exact .refl s

/-! ## Swaps -/

theorem State.moveBank_changes (s : State) (src dst j : Nat) : changes lightFields [] s (s.moveBank src dst j) := by
  unfold State.moveBank
  extract_lets b s1
  have first : changes lightFields [] s s1 := .ite (fun _ => s.light_changes ..) fun _ => .refl s
  exact first.step (s1.light_changes ..)

theorem State.setSwap_changes (s : State) (x y : Swap) : changes [] [.spareNeeds, .swaps] s (s.setSwap x y) :=
  s.withNeeds_changes s.spareNeeds _

theorem State.holdRing_changes (s : State) (k r e : Nat) :
    changes [.oeRingState, .hOeHoldEnd] [] s (s.holdRing k r e) :=
  .ite (fun _ => ((changes.refl s).wr _ _ _ _ (by decide)).wr _ _ _ _ (by decide)) fun _ => .refl s

theorem State.swapDone_grows (s : State) (x : Swap) : Grows s (s.swapDone x) := .of_changes (s.setSwap_changes ..)

theorem State.swapSource_grows (s : State) (x : Swap) (j : Nat) : Grows s (s.swapSource x j) :=
  ((Grows.of_changes (s.moveBank_changes ..)).changes (State.holdRing_changes ..)).changes (State.setSwap_changes ..)

theorem State.swapBank_grows (s : State) (x : Swap) (j : Nat) : Grows s (s.swapBank x j) := by
  have done : Grows s ((s.moveBank x.src x.dst j).swapDone x) :=
    (Grows.of_changes (s.moveBank_changes ..)).trans (State.swapDone_grows ..)
  unfold State.swapBank
  extract_lets k n f use s1
  refine .ite (fun _ => done) fun _ => .ite (fun _ => ?_) fun _ => .ite (fun _ => done) fun _ =>
    .ite (fun _ => s.swapSource_grows ..) fun _ => .ite (fun _ => ?_) fun _ => ?_
  · exact .ite (fun _ => done.trans (State.freeSpare_grows ..)) fun _ => done
  · exact (s.mark_grows ..).trans (State.swapSource_grows ..)
  · exact (Grows.of_changes (s.setSwap_changes ..)).trans (State.needSpare_grows ..)

theorem State.unitSettle_grows (s : State) (u : Nat) : Grows s (s.unitSettle u) := by
  have unit (x : State) (st : Nat) : Grows x (x.setUnit u st) := by
    unfold State.setUnit
    split <;> exact .of_changes (fs := [.lsuStatusState, .lsuStatusStateB]) (ps := [])
      ((changes.refl x).wr _ _ _ _ (by decide))
  have bolt (x : State) (b : Nat) : Grows x (x.setBolt u b) := by
    unfold State.setBolt
    split <;> exact .of_changes (fs := [.lsuStatusBolted, .lsuStatusBoltedB]) (ps := [])
      ((changes.refl x).wr _ _ _ _ (by decide))
  have dark : Grows s (s.darkUnit u) := .each _ _ (fun x _ => .of_changes (x.light_changes ..)) s
  exact .ite (fun _ => (dark.trans (unit ..)).trans (bolt ..)) fun _ => .ite (fun _ => unit ..) fun _ => .refl s

theorem State.endSwap_grows (s : State) (x : Swap) : Grows s (s.endSwap x) := by
  unfold State.endSwap
  extract_lets s1 s2 s3
  have dropped : Grows s s1 := .of_changes (s.withNeeds_changes s.spareNeeds _)
  have dark : changes (.lsuLaserStage :: lightFields) [] s1 (s1.light x.src 0 0) :=
    (s1.light_changes ..).mono (by decide) (by decide)
  have laser : Grows s s2 := dropped.trans (.ite (fun _ => .of_changes (dark.wr _ _ _ _ (by decide))) fun _ =>
    .ite (fun _ => .of_changes dark) fun _ => .refl s1)
  have settled : Grows s s3 := ((laser.trans (s2.unitSettle_grows 0)).trans (State.unitSettle_grows ..)).changes
    (State.covers_changes _)
  exact .ite (fun _ => settled) fun _ => settled.trans (.each _ _ (fun y j => y.tryCal_grows ..) s3)

theorem State.swapRun_grows (s : State) (k fuel : Nat) : Grows s (s.swapRun k fuel) := by
  induction fuel generalizing s with
  | zero => exact .refl s
  | succ fuel ih =>
    unfold State.swapRun
    refine .ite (fun _ => .refl s) fun _ => ?_
    split
    · exact .refl s
    · split
      · exact (s.endSwap_grows _).trans (ih _)
      · exact (s.swapBank_grows ..).trans (ih _)

theorem State.swapNext_grows (s : State) (k : Nat) : Grows s (s.swapNext k) := s.swapRun_grows ..

theorem State.afterSpare_grows (s : State) (k j : Nat) : Grows s (s.afterSpare k j) :=
  (s.swapNext_grows k).trans (State.tryCal_grows ..)

theorem State.switchSource_grows (s : State) (n lane : Nat) : Grows s (s.switchSource n lane) := by
  unfold State.switchSource
  dsimp only
  split
  · exact .ite (fun _ => s.swapSource_grows ..) fun _ => .refl s
  · exact .refl s

theorem State.swapBack_grows (s : State) (k j lane : Nat) : Grows s (s.swapBack k j lane) := by
  unfold State.swapBack
  split
  · exact .ite (fun _ => (s.swapDone_grows _).trans (State.swapNext_grows ..)) fun _ => .refl s
  · exact .refl s

/-! ## Lanes that move and lanes that are retired -/

theorem State.moveTx_grows (s : State) (n lane : Nat) : Grows s (s.moveTx n lane) :=
  .ite (fun _ => s.mark_grows ..) fun _ => .ite (fun _ => .refl s) fun _ => s.mark_grows ..

theorem State.backTx_grows (s : State) (n lane : Nat) : Grows s (s.backTx n lane) :=
  .ite (fun _ => .refl s) fun _ => .ite (fun _ => .refl s) fun _ => .ite (fun _ => s.mark_grows ..) fun _ =>
    s.mark_grows ..

theorem State.yieldCal_grows (s : State) (n lane : Nat) : Grows s (s.yieldCal n lane) := by
  unfold State.yieldCal
  extract_lets k s1
  have ls : Grows s s1 := .of_changes (s.preemptLs_changes ..)
  split
  · exact ls
  next c _ =>
    extract_lets m req x s2 s3 s4
    refine .ite (fun _ => ?_) fun _ => ls
    have gave (x : State) (f : Nat) : Grows x (if x.spareUse k f = suCal then x.putSpare k f suFree 15 else x) :=
      .ite (fun _ => .of_changes (x.putSpare_changes ..)) fun _ => .refl x
    have withdrawn : Grows s s2 := ls.trans (.setLink s1 m ⟨rfl, rfl, List.Subset.refl _, List.Subset.refl _⟩)
    have spares : Grows s s4 :=
      ((withdrawn.changes (s2.withJobs_changes (s2.calJobs.erase c))).trans (gave s3 _)).trans (gave ..)
    exact .ite (fun _ => spares.changes (fs := [.hOeContNext]) (ps := [])
      ((changes.refl s4).wr _ _ _ _ (by decide))) fun _ => spares

/-- Numbers that a lane which is retired moves. -/
def retireFields : List Field :=
  [.oeFibreStatusRetired, .oeRingState, .oeRingDrive, .hOeRecover, .lnkEventsRetires]

theorem State.retireFibreLane_changes (s : State) (k f lane : Nat) :
    changes retireFields [] s (s.retireFibreLane k f lane) :=
  .ite (fun _ => .refl s) fun _ => (((((changes.refl s).orBit _ _ _ _ (by decide)).wr _ _ _ _ (by decide)).wr _ _ _ _
    (by decide)).wr _ _ _ _ (by decide)).bump _ _ _ _ (by decide)

theorem State.retireFibreLane_retired (s : State) (k f : Nat) {lane : Nat} (hl : lane < 8) :
    (s.retireFibreLane k f lane).retiredLane k f lane = true := by
  unfold State.retireFibreLane
  split
  next out => exact out
  · rw [State.retiredLane, State.rd_bump_ne _ _ _ _ _ _ _ _ (by decide), State.rd_wr_ne _ _ _ _ _ _ _ _ (by decide),
      State.rd_wr_ne _ _ _ _ _ _ _ _ (by decide), State.rd_wr_ne _ _ _ _ _ _ _ _ (by decide), State.orBit_rd_same]
    exact bit_setBit_mod hl

/-- Numbers that LS of a fibre which is retired moves. -/
def spareGoneFields : List Field :=
  [.hOeSpareGone, .oeRingState, .oeRingDrive, .oeFibreStatusSpareUse, .oeFibreStatusSpareLane, .lnkEventsRetires]

/-- LS of a fibre retired, but for what was retired before. -/
theorem State.retireSpare_cases (s : State) (k f : Nat) :
    s.retireSpare k f = s ∧ s.rd .hOeSpareGone k f = 1 ∨
      changes (spareGoneFields.erase .hOeSpareGone) [] (s.wr .hOeSpareGone k f 1) (s.retireSpare k f) := by
  unfold State.retireSpare
  split
  next gone => exact .inl ⟨rfl, of_decide_eq_true gone⟩
  · refine .inr ?_
    have parked : changes (spareGoneFields.erase .hOeSpareGone) [] (s.wr .hOeSpareGone k f 1)
        (((s.wr .hOeSpareGone k f 1).wr .oeRingState k (ringOf (f / 2) (f % 2) 8) 0).wr .oeRingDrive k
          (ringOf (f / 2) (f % 2) 8) 0) :=
      ((changes.refl _).wr _ _ _ _ (by decide)).wr _ _ _ _ (by decide)
    exact (parked.step (State.putSpare_changes ..)).bump _ _ _ _ (by decide)

theorem State.retireSpare_gone (s : State) (k f : Nat) : (s.retireSpare k f).rd .hOeSpareGone k f = 1 := by
  rcases s.retireSpare_cases k f with ⟨e, gone⟩ | kept
  · rwa [e]
  · exact (kept.1 _ _ _ (by decide)).trans (State.rd_wr_same ..)

theorem State.retireSpare_changes (s : State) (k f : Nat) : changes spareGoneFields [] s (s.retireSpare k f) := by
  rcases s.retireSpare_cases k f with ⟨e, -⟩ | kept
  · rw [e]
    exact .refl s
  · exact ((changes.refl s).wr _ _ _ _ (by decide)).step kept

end

end Sys2Proof.Machine

/-!
# Requests between peers, acknowledgements and what they read (R306, R310 to R316)
-/

namespace Sys2Proof.Machine

-- Proofs checked one after another hold fewer threads' stacks at a time, which the memory of one process needs.
set_option Elab.async false

section
variable {s t w : State} {n u : Nat}

/-! ## What acknowledgements leave (R306) -/

/-- The ends differ in the frames that they keep at most. -/
structure Link.hears (x y : Link) : Prop where
  request : y.request = x.request
  again : y.again = x.again
  served : y.served = x.served
  peerCal : y.peerCal = x.peerCal
  bypQ : y.bypQ = x.bypQ
  marks : y.marks = x.marks
  behind : y.behind = x.behind
  txLanes : y.txLanes = x.txLanes
  txCovers : y.txCovers = x.txCovers

theorem Link.hears.refl (x : Link) : x.hears x := ⟨rfl, rfl, rfl, rfl, rfl, rfl, rfl, rfl, rfl⟩

theorem Link.hears.trans {x y z : Link} (h : x.hears y) (h' : y.hears z) : x.hears z :=
  ⟨h'.request.trans h.request, h'.again.trans h.again, h'.served.trans h.served, h'.peerCal.trans h.peerCal,
    h'.bypQ.trans h.bypQ, h'.marks.trans h.marks, h'.behind.trans h.behind, h'.txLanes.trans h.txLanes,
    h'.txCovers.trans h.txCovers⟩

/-- Numbers that follow the frames that a link end keeps. -/
def ackFields : List Field := [.lnkTxSeqUnacked, .fabPortRetained, .galStatusRetainHigh]

/-- An event at a link end moved its frames at most. -/
structure Hears (s t : State) : Prop where
  changes : changes ackFields [.links] s t
  links : ∀ m, (s.link m).hears (t.link m)

theorem Hears.refl (s : State) : Hears s s := ⟨.refl s, fun _ => .refl _⟩

theorem Hears.trans (h : Hears s t) (h' : Hears t w) : Hears s w :=
  ⟨h.changes.trans h'.changes, fun m => (h.links m).trans (h'.links m)⟩

theorem Hears.setLink (s : State) (n : Nat) {x : Link} (h : (s.link n).hears x) : Hears s (s.setLink n x) := by
  refine ⟨(changes.refl s).setLink _ _ (by decide), fun m => ?_⟩
  rw [State.link_setLink]
  split
  next e => exact e ▸ h
  · exact .refl _

theorem Hears.of_changes (h : Machine.changes ackFields [] s t) : Hears s t :=
  ⟨h.mono (List.Subset.refl _) (by decide), fun m => link_of_changes h (by decide) m ▸ .refl _⟩

theorem State.settleLink_hears (s : State) (n : Nat) : Hears s (s.settleLink n) := by
  unfold State.settleLink
  split
  · have spilled : Hears s (s.setLink n (s.link n).spill) := .setLink s n ⟨rfl, rfl, rfl, rfl, rfl, rfl, rfl, rfl, rfl⟩
    have high (x : State) (c : Nat) : Hears x (x.retainHigh c) := .of_changes ((changes.refl x).wr _ _ _ _ (by decide))
    have shown (x : State) : Hears x (x.linkFields n) := .of_changes (.ite
      (fun _ => ((((changes.refl x).wr _ _ _ _ (by decide)).wr _ _ _ _ (by decide)).wr _ _ _ _ (by decide)).wr _ _ _ _
        (by decide)) fun _ => .refl x)
    exact (spilled.trans (high ..)).trans (shown _)
  · exact .refl s

theorem State.ackRx_hears (s : State) (n v a : Nat) : Hears s (s.ackRx n v a) := by
  unfold State.ackRx
  dsimp only
  split
  · exact .refl s
  · split
    · exact (Hears.setLink s n (by exact ⟨rfl, rfl, rfl, rfl, rfl, rfl, rfl, rfl, rfl⟩)).trans
        (State.settleLink_hears ..)
    · exact .refl s

theorem State.acked_hears (s : State) (n : Nat) (b : Byp) : Hears s (s.acked n b) :=
  ((s.ackRx_hears ..).trans (State.ackRx_hears ..)).trans (State.ackRx_hears ..)

/-- What a quiesce that a message completes leaves of a link end. -/
structure Link.ends (x y : Link) : Prop where
  request : y.request = x.request
  served : y.served = x.served
  peerCal : y.peerCal = x.peerCal
  sent : x.bypQ ⊆ y.bypQ
  marks : y.marks = x.marks
  behind : y.behind = x.behind

theorem Link.ends.refl (x : Link) : x.ends x := ⟨rfl, rfl, rfl, List.Subset.refl _, rfl, rfl⟩

theorem State.quiesceCheck_ends (s : State) (n : Nat) : (s.link n).ends ((s.quiesceCheck n).link n) := by
  unfold State.quiesceCheck
  split
  · exact .refl _
  next e _ =>
    split
    · extract_lets x empty s1 y s2
      have sent : (s.link n).ends (s1.link n) := by
        show (s.link n).ends (State.link (if empty && !x.quiesceSent then
          (s.setLink n { x with quiesceSent := true }).sendByp n 0x83 (e % 2 ^ 32) 0 else s) n)
        split
        · rw [State.sendByp, State.link_setLink, if_pos rfl, State.link_setLink, if_pos rfl]
          exact ⟨rfl, rfl, rfl, List.subset_append_left .., rfl, rfl⟩
        · exact .refl _
      have quiet : changes [.fabPortQuiesced] [] s1 s2 :=
        .ite (fun _ => (changes.refl s1).wr _ _ _ _ (by decide)) fun _ => .refl s1
      have agreed : changes [.fabStatusState] [] s2 (if s2.allQuiesced then s2.wr .fabStatusState 0 0 4 else s2) :=
        .ite (fun _ => (changes.refl s2).wr _ _ _ _ (by decide)) fun _ => .refl s2
      rw [link_of_changes agreed (by decide), link_of_changes quiet (by decide)]
      exact sent
    · exact .refl _

/-! ## What a request reads (R310, R311) -/

/-- The ends have the same transmit lanes and the same MARKs to send. -/
structure Link.alike (x y : Link) : Prop where
  marks : y.marks = x.marks
  behind : y.behind = x.behind
  txLanes : y.txLanes = x.txLanes
  txCovers : y.txCovers = x.txCovers

theorem Link.hears.alike {x y : Link} (h : x.hears y) : x.alike y := ⟨h.marks, h.behind, h.txLanes, h.txCovers⟩

/-- The states differ in time, in the frames and messages of the link ends and in the withdrawals that they count. -/
structure Alike (s t : State) : Prop where
  changes : changes (.lnkEventsWithdrawals :: (timeFields ++ ackFields)) [.links] s t
  links : ∀ m, (s.link m).alike (t.link m)

theorem Alike.trans (h : Alike s t) (h' : Alike t w) : Alike s w :=
  ⟨h.changes.trans h'.changes, fun m => ⟨(h'.links m).marks.trans (h.links m).marks,
    (h'.links m).behind.trans (h.links m).behind, (h'.links m).txLanes.trans (h.links m).txLanes,
    (h'.links m).txCovers.trans (h.links m).txCovers⟩⟩

theorem Alike.setLink (s : State) (n : Nat) {x : Link} (h : (s.link n).alike x) : Alike s (s.setLink n x) := by
  refine ⟨(changes.refl s).setLink _ _ (by decide), fun m => ?_⟩
  rw [State.link_setLink]
  split
  next e => exact e ▸ h
  · exact ⟨rfl, rfl, rfl, rfl⟩

theorem Alike.sendByp (s : State) (n kind arg reqno : Nat) : Alike s (s.sendByp n kind arg reqno) :=
  .setLink s n ⟨rfl, rfl, rfl, rfl⟩

/-- An end that heard a message and took its acknowledgements. -/
theorem alike_heard (s : State) (u n : Nat) (b : Byp) : Alike s ((s.stamp u).acked n b) := by
  have heard := (s.stamp u).acked_hears n b
  exact ⟨((s.stamp_time u).mono (by decide) (by decide)).step heard.changes,
    fun m => (s.link_stamp u m) ▸ (heard.links m).alike⟩

section
variable (h : Alike s t)
include h

theorem Alike.rd (f : Field) (i j : Nat) (hf : f ∉ .lnkEventsWithdrawals :: (timeFields ++ ackFields) := by decide) :
    t.rd f i j = s.rd f i j := h.changes.1 f i j hf

theorem Alike.active : t.active = s.active := h.changes.2 .active (by decide)

theorem Alike.toMark (n : Nat) : (t.link n).toMark = (s.link n).toMark := by
  simp only [Link.toMark, (h.links n).marks, (h.links n).behind]

theorem Alike.txMember (n i : Nat) : t.txMember n i = s.txMember n i := by
  simp only [State.txMember, h.rd .lnkStatusTxMask, (h.links n).txLanes]

theorem Alike.fibreOf (k lane j : Nat) : t.fibreOf k lane j = s.fibreOf k lane j :=
  fibreOf_of_changes h.changes (by decide) (by decide) ..

theorem Alike.fib (n lane d : Nat) : t.fib n lane d = s.fib n lane d :=
  fib_of_changes h.changes (by decide) (by decide) ..

theorem Alike.laneRing (n lane d : Nat) : t.laneRing n lane d = s.laneRing n lane d :=
  laneRing_of_changes h.changes (by decide) (by decide) ..

theorem Alike.spareUse (k f : Nat) : t.spareUse k f = s.spareUse k f := h.rd ..

theorem Alike.retiredLane (k f lane : Nat) : t.retiredLane k f lane = s.retiredLane k f lane :=
  congrArg (bit · lane) (h.rd ..)

theorem Alike.noSpare (n lane : Nat) : t.noSpare n lane = s.noSpare n lane := by
  simp only [State.noSpare, h.spareUse, h.fib, h.rd .oeFibreStatusSpareLane]

theorem Alike.onSudden (n lane : Nat) : t.onSudden n lane = s.onSudden n lane := by
  simp only [State.onSudden, h.spareUse, h.fib, h.rd .oeFibreStatusSpareLane]

theorem Alike.leaving (n lane : Nat) : t.leaving n lane = s.leaving n lane := by
  simp only [State.leaving, h.txMember, h.toMark]

theorem Alike.idleGroup (n i : Nat) : t.idleGroup n i = s.idleGroup n i := by
  simp only [State.idleGroup, State.groupsInUse, h.txMember]

theorem Alike.laneLit (n lane : Nat) : t.laneLit n lane = s.laneLit n lane := by
  simp only [State.laneLit, State.portRec, h.retiredLane, h.fib, h.active]

theorem Alike.endIdentity (n : Nat) : t.endIdentity n = s.endIdentity n :=
  endIdentity_of_changes h.changes (by decide) n

theorem Alike.reqLane (n arg : Nat) : t.reqLane n arg = s.reqLane n arg := by
  simp only [State.reqLane, h.endIdentity]

theorem Alike.outranks (n peer : Nat) : t.outranks n peer = s.outranks n peer := by
  simp only [State.outranks, h.endIdentity, h.rd .pairStatusRole]

theorem Alike.lState (n : Nat) : t.lState n = s.lState n := h.rd ..

end

/-! ## MARKs that wait behind an acknowledgement (R310, R311) -/

/-- Link end n has the MARKs of a list to send besides those that it had. -/
def marksMore (n : Nat) (l : List (Nat × Bool)) (s t : State) : Prop :=
  (t.link n).marks = (s.link n).marks ++ l ∧ (t.link n).behind = (s.link n).behind

theorem marksMore.trans {l m : List (Nat × Bool)} (h : marksMore n l s t) (h' : marksMore n m t w) :
    marksMore n (l ++ m) s w := by
  refine ⟨?_, h'.2.trans h.2⟩
  rw [h'.1, h.1, List.append_assoc]

theorem marksMore_of_link (h : t.link n = s.link n) : marksMore n [] s t := by
  rw [marksMore, h]
  exact ⟨(List.append_nil _).symm, rfl⟩

theorem State.mark_more (s : State) (n : Nat) (l : List (Nat × Bool)) : marksMore n l s (s.mark n l) := by
  rw [marksMore, State.mark, State.link_setLink, if_pos rfl]
  exact ⟨rfl, rfl⟩

/-- A MARK waits at link end n: it is to be sent, and behind acknowledgement number r unless it was before. -/
def waitsAt (n r : Nat) (m : Nat × Bool) (s t : State) : Prop :=
  m ∈ (t.link n).toMark ∧ (m ∉ (s.link n).toMark → (r, m) ∈ (t.link n).behind)

theorem State.holdMarks_link (s : State) (n : Nat) (before : List (Nat × Bool)) (r : Nat) :
    (s.holdMarks n before r).link n = { s.link n with
      marks := (s.link n).marks.filter fun m => before.contains m
      behind := (s.link n).behind ++ ((s.link n).marks.filter fun m => !before.contains m).map fun m => (r, m) } := by
  rw [State.holdMarks, State.link_setLink, if_pos rfl]

theorem State.holdMarks_changes (s : State) (n : Nat) (before : List (Nat × Bool)) (r : Nat) :
    changes [] [.links] s (s.holdMarks n before r) := (changes.refl s).setLink _ _ (by decide)

/-- A MARK that a request adds waits behind the acknowledgement. -/
theorem waitsAt_holdMarks {l : List (Nat × Bool)} {m : Nat × Bool} (r : Nat) (more : marksMore n l s t) (hm : m ∈ l) :
    waitsAt n r m s (t.holdMarks n (s.link n).toMark r) := by
  obtain ⟨marks, behind⟩ := more
  have mine : m ∈ (t.link n).marks := marks ▸ List.mem_append_right _ hm
  rw [waitsAt, Link.toMark, State.holdMarks_link]
  by_cases old : m ∈ (s.link n).toMark
  · exact ⟨List.mem_append_left _ (List.mem_filter.mpr ⟨mine, by simpa using old⟩), fun new => absurd old new⟩
  · have held : (r, m) ∈ (t.link n).behind ++
        ((t.link n).marks.filter fun m => !(s.link n).toMark.contains m).map fun m => (r, m) :=
      List.mem_append_right _ (List.mem_map.mpr ⟨m, List.mem_filter.mpr ⟨mine, by simpa using old⟩, rfl⟩)
    exact ⟨List.mem_append_right _ (List.mem_map.mpr ⟨_, held, rfl⟩), fun _ => held⟩

/-- A request that adds no MARK leaves those that wait. -/
theorem holdMarks_none (r : Nat) (more : marksMore n [] s t) :
    ((t.holdMarks n (s.link n).toMark r).link n).marks = (s.link n).marks ∧
      ((t.holdMarks n (s.link n).toMark r).link n).behind = (s.link n).behind := by
  obtain ⟨marks, behind⟩ := more
  rw [List.append_nil] at marks
  have old : ∀ m ∈ (s.link n).marks, (s.link n).toMark.contains m = true := fun m hm =>
    List.contains_iff_mem.mpr (List.mem_append_left _ hm)
  rw [State.holdMarks_link]
  dsimp only
  rw [marks, behind]
  refine ⟨List.filter_eq_self.mpr old, ?_⟩
  rw [List.filter_eq_nil_iff.mpr fun m hm => by rw [old m hm]; decide, List.map_nil, List.append_nil]

/-! ## A request received (R311, R312) -/

/-- What the steps after an acknowledgement keep of it. -/
structure Answered (n : Nat) (s t : State) : Prop where
  served : (t.link n).served = (s.link n).served
  sent : (s.link n).bypQ ⊆ (t.link n).bypQ
  count : t.rd .lnkEventsWithdrawals n 0 = s.rd .lnkEventsWithdrawals n 0

theorem Answered.trans (h : Answered n s t) (h' : Answered n t w) : Answered n s w :=
  ⟨h'.served.trans h.served, List.Subset.trans h.sent h'.sent, h'.count.trans h.count⟩

theorem Grows.answered (h : Grows s t) (n : Nat) : Answered n s t := ⟨(h.1 n).served, (h.1 n).sent, h.2 n⟩

theorem Answered.setLink (s : State) (n : Nat) {x : Link} (served : x.served = (s.link n).served)
    (sent : (s.link n).bypQ ⊆ x.bypQ) : Answered n s (s.setLink n x) := by
  refine ⟨?_, ?_, rfl⟩ <;> rw [State.link_setLink, if_pos rfl]
  · exact served
  · exact sent

theorem State.quiesceCheck_answered (s : State) (n : Nat) : Answered n s (s.quiesceCheck n) :=
  ⟨(s.quiesceCheck_ends n).served, (s.quiesceCheck_ends n).sent, (s.quiesceCheck_changes n).1 _ _ _ (by decide)⟩

/-- A request of the peer noted as served, with its acknowledgement queued. -/
def State.serving (s : State) (n kind arg reqno : Nat) : State :=
  (s.setLink n { s.link n with served := some (kind, reqno, arg) }).sendByp n (ackKind kind) arg reqno

theorem State.serving_alike (s : State) (n kind arg reqno : Nat) : Alike s (s.serving n kind arg reqno) :=
  (Alike.setLink s n (by exact ⟨rfl, rfl, rfl, rfl⟩)).trans (Alike.sendByp ..)

theorem State.serving_link (s : State) (n kind arg reqno : Nat) : (s.serving n kind arg reqno).link n =
    { s.link n with served := some (kind, reqno, arg), bypQ := (s.link n).bypQ ++ [⟨ackKind kind, arg, reqno⟩] } := by
  rw [State.serving, State.sendByp, State.link_setLink, if_pos rfl, State.link_setLink, if_pos rfl]

/-- A request was served and its acknowledgement waits to be sent. -/
def acksRequest (n kind arg reqno : Nat) (t : State) : Prop :=
  (t.link n).served = some (kind, reqno, arg) ∧ ⟨ackKind kind, arg, reqno⟩ ∈ (t.link n).bypQ

theorem State.serving_acks (s : State) (n kind arg reqno : Nat) :
    acksRequest n kind arg reqno (s.serving n kind arg reqno) := by
  rw [acksRequest, State.serving_link]
  exact ⟨rfl, List.mem_append_right _ (List.mem_singleton_self _)⟩

theorem acksRequest.answered {kind arg reqno : Nat} (h : acksRequest n kind arg reqno s) (h' : Answered n s t) :
    acksRequest n kind arg reqno t := ⟨h'.served.trans h.1, h'.sent h.2⟩

/-- This end's request withdrawn, to be issued again, and counted (R312). -/
def State.withdrawing (s : State) (n : Nat) (r : LinkReq) : State :=
  (s.setLink n { s.link n with request := none, again := askAgain (s.link n).again r.kind r.arg }).count n
    .lnkEventsWithdrawals

/-- What this end withdrew waits for the MARKs of the peer's request (R312). -/
def State.waitPeer (s : State) (n kind arg : Nat) (before : List (Nat × Bool)) : State :=
  (s.setLink n { s.link n with
    wait := (((s.link n).toMark.filter fun m => !before.contains m).map fun m => (true, m)) ++
      s.peerMarks n kind arg }).issueNext n

section
variable {kind arg reqno peer : Nat} {run : State → State}

theorem receiveReq_repeat (same : (s.link n).served = some (kind, reqno, arg)) :
    s.receiveReq n kind arg reqno peer run = s.sendByp n (ackKind kind) arg reqno := if_pos same

theorem receiveReq_fresh (new : (s.link n).served ≠ some (kind, reqno, arg)) (none : (s.link n).request = none) :
    s.receiveReq n kind arg reqno peer run =
      (run (s.serving n kind arg reqno)).holdMarks n (s.link n).toMark reqno := by
  rw [State.receiveReq]
  dsimp only
  rw [if_neg new]
  split
  · rfl
  next mine => simp [none] at mine

section
variable {r : LinkReq} (new : (s.link n).served ≠ some (kind, reqno, arg)) (mine : (s.link n).request = some r)
  (hr : r.kind ≠ 0x81) (hk : kind ≠ 0x81)
include new mine hr hk

theorem receiveReq_outranked (higher : s.outranks n peer = true) : s.receiveReq n kind arg reqno peer run = s := by
  rw [State.receiveReq]
  dsimp only
  rw [if_neg new]
  split
  next none => simp [mine] at none
  next r' mine' =>
    obtain rfl := Option.some.inj (mine.symm.trans mine')
    rw [if_neg (by simp [hr, hk]), if_pos higher]

theorem receiveReq_withdraws (under : s.outranks n peer = false) : s.receiveReq n kind arg reqno peer run =
    ((run ((s.withdrawing n r).serving n kind arg reqno)).holdMarks n (s.link n).toMark reqno).waitPeer n kind arg
      (s.link n).toMark := by
  rw [State.receiveReq]
  dsimp only
  rw [if_neg new]
  split
  next none => simp [mine] at none
  next r' mine' =>
    obtain rfl := Option.some.inj (mine.symm.trans mine')
    rw [if_neg (by simp [hr, hk]), if_neg (by simp [under])]
    rfl

end

theorem State.holdMarks_answered (s : State) (n : Nat) (before : List (Nat × Bool)) (r : Nat) :
    Answered n s (s.holdMarks n before r) := .setLink s n rfl (List.Subset.refl _)

theorem State.waitPeer_answered (s : State) (n kind arg : Nat) (before : List (Nat × Bool)) :
    Answered n s (s.waitPeer n kind arg before) :=
  (Answered.setLink s n (by rfl) (by exact List.Subset.refl _)).trans ((State.issueNext_grows ..).answered n)

theorem State.withdrawing_counts (s : State) {n : Nat} (r : LinkReq) (hn : n < 32) :
    (s.withdrawing n r).rd .lnkEventsWithdrawals n 0 = min 65535 (s.rd .lnkEventsWithdrawals n 0 + 1) := by
  rw [State.withdrawing, State.count, if_pos hn, State.rd_bump_same _ _ _ _ _ (by decide)]
  rfl

/-- The request of the peer that this end's makes way for is served, and the withdrawal is counted. -/
theorem withdraws_shows (s : State) (r : LinkReq) (before : List (Nat × Bool)) (answers : ∀ w, Answered n w (run w)) :
    acksRequest n kind arg reqno
      (((run ((s.withdrawing n r).serving n kind arg reqno)).holdMarks n before reqno).waitPeer n kind arg before) ∧
    (n < 32 → (((run ((s.withdrawing n r).serving n kind arg reqno)).holdMarks n before reqno).waitPeer n kind arg
      before).rd .lnkEventsWithdrawals n 0 = min 65535 (s.rd .lnkEventsWithdrawals n 0 + 1)) := by
  have after : Answered n ((s.withdrawing n r).serving n kind arg reqno) _ :=
    ((answers _).trans (State.holdMarks_answered _ n before reqno)).trans (State.waitPeer_answered _ n kind arg before)
  refine ⟨(State.serving_acks ..).answered after, fun hn => after.count.trans ?_⟩
  exact s.withdrawing_counts r hn

end

end

end Sys2Proof.Machine

/-!
# Lane, width and retrain requests between peers (R252, R253, R256, R310 to R316)
-/

namespace Sys2Proof.Machine

-- Proofs checked one after another hold fewer threads' stacks at a time, which the memory of one process needs.
set_option Elab.async false

section
variable {s t w : State} {n u kind arg id : Nat} {b : Byp}

/-! ## A message heard (R299, R306, R366) -/

/-- Where nothing is acknowledged and no quiesce waits, a message leaves what its command does. -/
def calmAt (s : State) (n : Nat) : Prop := (s.link n).unacked = [] ∧ s.rd .fabStatusState 0 0 ≠ 3

theorem heard_calm (calm : calmAt s n) (u : Nat) (b : Byp) : (s.stamp u).acked n b = s.stamp u :=
  State.acked_none (by rw [State.link_stamp]; exact calm.1) b

theorem heard_link (s : State) (u n : Nat) (b : Byp) : (s.link n).hears (((s.stamp u).acked n b).link n) :=
  s.link_stamp u n ▸ ((s.stamp u).acked_hears n b).links n

theorem quiesceCheck_calm {fs : List Field} {ps : List Part} (calm : calmAt s n) (h : changes fs ps s t)
    (hf : .fabStatusState ∉ fs := by decide) : t.quiesceCheck n = t :=
  State.quiesceCheck_none n (by rw [h.1 _ _ _ hf]; exact calm.2)

/-! ## A request heard -/

/-- The request that is served last is the peer's, and its acknowledgement waits. -/
def State.servedFor (s : State) (n u kind arg : Nat) (b : Byp) : State :=
  ((s.stamp u).acked n b).serving n kind arg b.reqno

theorem State.servedFor_alike (s : State) (n u kind arg : Nat) (b : Byp) : Alike s (s.servedFor n u kind arg b) :=
  (alike_heard s u n b).trans (State.serving_alike ..)

theorem State.servedFor_more (s : State) (n u kind arg : Nat) (b : Byp) :
    marksMore n [] s (s.servedFor n u kind arg b) := by
  have same := (s.servedFor_alike n u kind arg b).links n
  exact ⟨same.marks.trans (List.append_nil _).symm, same.behind⟩

/-- The state after a request of the peer that was carried out. -/
def State.carriedOut (s : State) (n u kind arg : Nat) (b : Byp) (run : State → State) : State :=
  ((run (s.servedFor n u kind arg b)).holdMarks n (s.link n).toMark b.reqno).quiesceCheck n

/-- What the end of a request leaves of what carrying it out did. -/
structure Delivered (n r : Nat) (s y t : State) : Prop where
  rest : changes [.fabPortQuiesced, .fabStatusState] [.links] y t
  peerCal : (t.link n).peerCal = (y.link n).peerCal
  waits : ∀ l, marksMore n l s y → ∀ m ∈ l, waitsAt n r m s t
  none : marksMore n [] s y → (t.link n).marks = (s.link n).marks ∧ (t.link n).behind = (s.link n).behind

theorem delivered (n r : Nat) (s y : State) :
    Delivered n r s y ((y.holdMarks n (s.link n).toMark r).quiesceCheck n) := by
  have ends := (y.holdMarks n (s.link n).toMark r).quiesceCheck_ends n
  have calm : (y.holdMarks n (s.link n).toMark r).link n = _ := y.holdMarks_link n (s.link n).toMark r
  refine ⟨((y.holdMarks_changes ..).mono (by decide) (by decide)).step (State.quiesceCheck_changes ..),
    ends.peerCal.trans (by rw [calm]), fun l more m hm => ?_, fun more => ?_⟩
  · obtain ⟨mark, behind⟩ := waitsAt_holdMarks r more hm
    refine ⟨?_, fun new => ends.behind.symm ▸ behind new⟩
    rwa [Link.toMark, ends.marks, ends.behind]
  · obtain ⟨marks, behind⟩ := holdMarks_none r more
    exact ⟨ends.marks.trans marks, ends.behind.trans behind⟩

section
variable {c : Instr} {run : State → State} (hn : n < linkEnds) (up : s.linkOpen n = true)
  (hc : exec c s = s.byp n b kind arg u fun s => s.receiveReq n kind arg b.reqno id run)
include hn up hc

theorem request_runs (crc : b.crcOk kind arg = true) :
    Runs c s ((((s.stamp u).acked n b).receiveReq n kind arg b.reqno id run).quiesceCheck n) := by
  rw [Runs, hc, byp_heard hn up crc]

/-- A fresh request with none of this end's outstanding is carried out. -/
theorem request_fresh (crc : b.crcOk kind arg = true) (none : (s.link n).request = none)
    (new : (s.link n).served ≠ some (kind, b.reqno, arg)) : Runs c s (s.carriedOut n u kind arg b run) := by
  have heard := heard_link s u n b
  have runs := request_runs hn up hc crc
  rwa [receiveReq_fresh (by rwa [heard.served]) (by rw [heard.request, none]),
    (alike_heard s u n b).toMark] at runs

omit hn up hc in
theorem request_acks (answers : ∀ w, Answered n w (run w)) :
    acksRequest n kind arg b.reqno (s.carriedOut n u kind arg b run) :=
  (State.serving_acks ..).answered
    (((answers _).trans (State.holdMarks_answered ..)).trans (State.quiesceCheck_answered ..))

/-- A repeat of the request carried out last is acknowledged again, and no more. -/
theorem request_repeats (crc : b.crcOk kind arg = true) (same : (s.link n).served = some (kind, b.reqno, arg)) :
    ∃ t, Runs c s t ∧ ⟨ackKind kind, arg, b.reqno⟩ ∈ (t.link n).bypQ ∧ (t.link n).marks = (s.link n).marks ∧
      (calmAt s n → (t.link n).bypQ = (s.link n).bypQ ++ [⟨ackKind kind, arg, b.reqno⟩] ∧
        changes timeFields [.links] s t) := by
  have heard := heard_link s u n b
  have runs := request_runs hn up hc crc
  rw [receiveReq_repeat (heard.served.trans same)] at runs
  have queue := ((s.stamp u).acked n b).sendByp_queue n (ackKind kind) arg b.reqno
  have ends := (((s.stamp u).acked n b).sendByp n (ackKind kind) arg b.reqno).quiesceCheck_ends n
  have marks := ((Alike.sendByp ((s.stamp u).acked n b) n (ackKind kind) arg b.reqno).links n).marks
  refine ⟨_, runs, ends.sent ?_, ends.marks.trans (marks.trans heard.marks), fun calm => ?_⟩
  · rw [queue]
    exact List.mem_append_right _ (List.mem_singleton_self _)
  · have sent : changes timeFields [.links] s ((s.stamp u).sendByp n (ackKind kind) arg b.reqno) :=
      ((s.stamp_time u).mono (by decide) (by decide)).step (State.sendByp_changes ..)
    rw [heard_calm calm, quiesceCheck_calm calm sent, State.sendByp_queue, State.link_stamp]
    exact ⟨rfl, sent⟩

section
variable {r : LinkReq} (mine : (s.link n).request = some r) (hr : r.kind ≠ 0x81) (hk : kind ≠ 0x81)
  (new : (s.link n).served ≠ some (kind, b.reqno, arg))
include mine hr hk new

/-- Where this end's request goes before the peer's, the peer's does nothing. -/
theorem request_outranked (crc : b.crcOk kind arg = true) (higher : s.outranks n id = true) (calm : calmAt s n) :
    quietly c s := by
  have runs := request_runs hn up hc crc
  have time := s.stamp_time u
  rw [heard_calm calm, receiveReq_outranked (by rwa [State.link_stamp]) (by rw [State.link_stamp, mine]) hr hk,
    quiesceCheck_calm calm time] at runs
  · exact ⟨_, runs, time⟩
  · rw [← heard_calm calm u b, (alike_heard s u n b).outranks, higher]

/-- Where this end's request makes way, it is withdrawn and counted, and the peer's is acknowledged. -/
theorem request_withdraws (crc : b.crcOk kind arg = true) (under : s.outranks n id = false)
    (answers : ∀ w, Answered n w (run w)) : ∃ t, Runs c s t ∧ acksRequest n kind arg b.reqno t ∧
      (n < 32 → t.rd .lnkEventsWithdrawals n 0 = min 65535 (s.rd .lnkEventsWithdrawals n 0 + 1)) := by
  have heard := heard_link s u n b
  have alike := alike_heard s u n b
  have runs := request_runs hn up hc crc
  rw [receiveReq_withdraws (by rwa [heard.served]) (heard.request.trans mine) hr hk
    ((alike.outranks ..).trans under)] at runs
  obtain ⟨acks, counts⟩ := withdraws_shows ((s.stamp u).acked n b) r (((s.stamp u).acked n b).link n).toMark
    (kind := kind) (arg := arg) (reqno := b.reqno) answers
  have last := State.quiesceCheck_answered (n := n)
  refine ⟨_, runs, acks.answered (last _), fun hp => (last _).count.trans ((counts hp).trans ?_)⟩
  rw [((s.stamp u).acked_hears n b).changes.1 _ _ _ (by decide), (s.stamp_time u).1 _ _ _ (by decide)]

end

/-- What a link end does with a request that repeats one or that meets one of its own (R311, R312). -/
theorem request_asks (hk : kind ≠ 0x81) (answers : ∀ w, Answered n w (run w)) (crc : b.crcOk kind arg = true) :
    ((s.link n).served = some (kind, b.reqno, arg) → ∃ t, Runs c s t ∧
      ⟨ackKind kind, arg, b.reqno⟩ ∈ (t.link n).bypQ ∧ (t.link n).marks = (s.link n).marks ∧
      (calmAt s n → (t.link n).bypQ = (s.link n).bypQ ++ [⟨ackKind kind, arg, b.reqno⟩] ∧
        changes timeFields [.links] s t)) ∧
    (∀ r, (s.link n).request = some r → r.kind ≠ 0x81 → (s.link n).served ≠ some (kind, b.reqno, arg) →
      (s.outranks n id = true → calmAt s n → quietly c s) ∧
      (s.outranks n id = false → ∃ t, Runs c s t ∧ acksRequest n kind arg b.reqno t ∧
        (n < 32 → t.rd .lnkEventsWithdrawals n 0 = min 65535 (s.rd .lnkEventsWithdrawals n 0 + 1)))) :=
  ⟨request_repeats hn up hc crc, fun _ mine hr new =>
    ⟨request_outranked hn up hc mine hr hk new crc,
      fun under => request_withdraws hn up hc mine hr hk new crc under answers⟩⟩

end

end

end Sys2Proof.Machine

/-!
# What each request of the peer does (R252, R253, R256, R311 to R316)
-/

namespace Sys2Proof.Machine

-- Proofs checked one after another hold fewer threads' stacks at a time, which the memory of one process needs.
set_option Elab.async false

section
variable {s t w : State} {n u id lane : Nat} {b : Byp}

/-- A request finds this end without one of its own, and is no repeat. -/
def freshAt (s : State) (n kind arg : Nat) (b : Byp) : Prop :=
  b.crcOk kind arg = true ∧ (s.link n).request = none ∧ (s.link n).served ≠ some (kind, b.reqno, arg)

/-! ## MOVE (R253) -/

/-- MOVE carried out. -/
def State.peerMove (s : State) (n lane : Nat) : State :=
  if n < 32 && lane < 8 && s.spareUse (n / 4) (s.fib n lane 1) != suRetired then
    (s.free 8).2.putSpare (n / 4) (s.fib n lane 1) (2 + (s.free 8).1 % 3) lane
  else s

theorem laneMove_exec (s : State) (n id lane u : Nat) (b : Byp) : exec (.laneMove n b id lane u) s =
    s.byp n b 0x20 (laneArg id lane 0) u fun s =>
      s.receiveReq n 0x20 (laneArg id lane 0) b.reqno id fun s => s.peerMove n lane := rfl

theorem State.peerMove_grows (s : State) (n lane : Nat) : Grows s (s.peerMove n lane) :=
  .ite (fun _ => .of_changes (fs := spareFields) (ps := [.freeCount])
    (((changes.refl s).free _ (by decide)).step (State.putSpare_changes ..))) fun _ => .refl s

theorem State.peerMove_spare (s : State) (hn : n < 32) (hl : lane < 8)
    (use : s.spareUse (n / 4) (s.fib n lane 1) ≠ suRetired) :
    2 ≤ (s.peerMove n lane).spareUse (n / 4) (s.fib n lane 1) ∧
      (s.peerMove n lane).spareUse (n / 4) (s.fib n lane 1) ≤ 4 ∧
      (s.peerMove n lane).rd .oeFibreStatusSpareLane (n / 4) (s.fib n lane 1) = lane := by
  have three := Nat.mod_lt (s.free 8).1 (show 0 < 3 by decide)
  rw [State.peerMove, if_pos (by simp [hn, hl, use]), State.putSpare_use _ _ _ _ (by omega),
    State.putSpare_lane _ _ _ (by omega) (by simp only [suFree]; omega) (by simp only [suUnavailable]; omega)]
  omega

/-! ## BACK (R253) -/

/-- BACK carried out. -/
def State.peerBack (s : State) (n lane : Nat) : State :=
  if n < 32 && s.rd .oeFibreStatusSpareLane (n / 4) (s.fib n lane 1) = lane &&
      s.spareUse (n / 4) (s.fib n lane 1) != suRetired then s.freeSpare (n / 4) (s.fib n lane 1) else s

theorem laneBack_exec (s : State) (n id lane u : Nat) (b : Byp) : exec (.laneBack n b id lane u) s =
    s.byp n b 0x20 (laneArg id lane 1) u fun s =>
      s.receiveReq n 0x20 (laneArg id lane 1) b.reqno id fun s => s.peerBack n lane := rfl

theorem State.peerBack_grows (s : State) (n lane : Nat) : Grows s (s.peerBack n lane) :=
  .ite (fun _ => s.freeSpare_grows ..) fun _ => .refl s

/-- A spare that no need waits for is free. -/
theorem State.freeSpare_use (s : State) (k f : Nat) (none : s.spareNeeds = []) :
    (s.freeSpare k f).spareUse k f = suFree := by
  have free := s.putSpare_use k f 15 (use := suFree) (by decide)
  have needs : (s.putSpare k f suFree 15).spareNeeds = [] :=
    ((s.putSpare_changes ..).2 .spareNeeds (by decide)).trans none
  rwa [State.freeSpare, State.serveSpare, if_pos free, needs]

theorem State.peerBack_spare (s : State) (hn : n < 32) (use : s.spareUse (n / 4) (s.fib n lane 1) ≠ suRetired)
    (none : s.spareNeeds = []) (on : s.rd .oeFibreStatusSpareLane (n / 4) (s.fib n lane 1) = lane) :
    (s.peerBack n lane).spareUse (n / 4) (s.fib n lane 1) = suFree := by
  rw [State.peerBack, if_pos (by simp [hn, use, on]), s.freeSpare_use _ _ none]

/-! ## CAL (R256) -/

/-- CAL carried out, once this end's own request waits. -/
def State.peerCalStart (s : State) (n lane : Nat) : State :=
  (if (s.calJob (n / 4) (s.fibreOf (n / 4) lane (n % 4))).isNone &&
      s.spareOpen (n / 4) (2 * s.fibreOf (n / 4) lane (n % 4)) &&
      s.spareOpen (n / 4) (2 * s.fibreOf (n / 4) lane (n % 4) + 1) then
    (s.beginCal n lane).calSpares n lane else s).moveTx n lane

/-- A calibration of the peer runs, or not. -/
def State.withPeerCal (s : State) (n : Nat) (on : Bool) : State := s.setLink n { s.link n with peerCal := on }

/-- CAL carried out. -/
def State.peerCal (s : State) (n lane : Nat) : State :=
  if n < 32 && lane < 8 then ((s.withPeerCal n true).yieldCal n lane).peerCalStart n lane else s

theorem laneCal_exec (s : State) (n id lane u : Nat) (b : Byp) : exec (.laneCal n b id lane u) s =
    s.byp n b 0x20 (laneArg id lane 2) u fun s =>
      s.receiveReq n 0x20 (laneArg id lane 2) b.reqno id fun s => s.peerCal n lane := rfl

theorem State.withPeerCal_answered (s : State) (n : Nat) (on : Bool) : Answered n s (s.withPeerCal n on) :=
  .setLink s n rfl (List.Subset.refl _)

theorem State.withPeerCal_link (s : State) (n : Nat) (on : Bool) :
    (s.withPeerCal n on).link n = { s.link n with peerCal := on } := by
  rw [State.withPeerCal, State.link_setLink, if_pos rfl]

theorem State.withPeerCal_changes (s : State) (n : Nat) (on : Bool) : changes [] [.links] s (s.withPeerCal n on) :=
  (changes.refl s).setLink _ _ (by decide)

theorem State.peerCalStart_grows (s : State) (n lane : Nat) : Grows s (s.peerCalStart n lane) :=
  (Grows.ite (fun _ => (Grows.of_changes (s.beginCal_changes ..)).changes (State.calSpares_changes ..)) fun _ =>
    .refl s).trans (State.moveTx_grows ..)

theorem State.peerCal_answered (s : State) (n lane : Nat) : Answered n s (s.peerCal n lane) := by
  unfold State.peerCal
  split
  · exact (s.withPeerCal_answered n true).trans
      (((State.yieldCal_grows ..).trans (State.peerCalStart_grows ..)).answered n)
  · exact (Grows.refl s).answered n

theorem State.peerCal_runs (s : State) (hn : n < 32) (hl : lane < 8) : ((s.peerCal n lane).link n).peerCal = true := by
  have grows := (State.yieldCal_grows (s.withPeerCal n true) n lane).trans (State.peerCalStart_grows _ n lane)
  rw [State.peerCal, if_pos (by simp [hn, hl]), (grows.1 n).peerCal, State.withPeerCal_link]

/-- No calibration of the pair: nothing gives way. -/
theorem State.yieldCal_none (s : State) (n lane : Nat)
    (idle : s.calJob (n / 4) (s.fibreOf (n / 4) lane (n % 4)) = none) : s.yieldCal n lane = s := by
  have ls : s.preemptLs (n / 4) (s.fibreOf (n / 4) lane (n % 4)) = s := by rw [State.preemptLs, idle]
  rw [State.yieldCal]
  dsimp only
  rw [ls, idle]

theorem State.moveTx_changes (s : State) (n lane : Nat) : changes [] [.links] s (s.moveTx n lane) :=
  .ite (fun _ => s.mark_changes ..) fun _ => .ite (fun _ => .refl s) fun _ => s.mark_changes ..

theorem State.peerCal_jobs (s : State) (hn : n < 32) (hl : lane < 8)
    (idle : (s.calJob (n / 4) (s.fibreOf (n / 4) lane (n % 4))).isNone = true)
    (tx : s.spareOpen (n / 4) (2 * s.fibreOf (n / 4) lane (n % 4)) = true)
    (rx : s.spareOpen (n / 4) (2 * s.fibreOf (n / 4) lane (n % 4) + 1) = true) :
    (s.peerCal n lane).calJobs = s.calJobs ++ [s.newCal n lane] := by
  have set := s.withPeerCal_changes n true
  have fibre : (s.withPeerCal n true).fibreOf (n / 4) lane (n % 4) = s.fibreOf (n / 4) lane (n % 4) :=
    fibreOf_of_changes set (by decide) (by decide) ..
  have none : (s.withPeerCal n true).calJob (n / 4) ((s.withPeerCal n true).fibreOf (n / 4) lane (n % 4)) = none := by
    rw [fibre]
    exact Option.isNone_iff_eq_none.mp idle
  have begun := (s.withPeerCal n true).beginCal_calJobs n lane
  rw [State.peerCal, if_pos (by simp [hn, hl]), State.yieldCal_none _ _ _ none, State.peerCalStart, fibre,
    if_pos (by rw [← fibre, none, fibre]; exact Bool.and_eq_true_iff.mpr ⟨tx, rx⟩)]
  rw [(State.moveTx_changes ..).2 .calJobs (by decide), (State.calSpares_changes ..).2 .calJobs (by decide), begun]
  rfl

/-! ## CAL_END (R256, R312) -/

/-- CAL_END carried out, once the peer's calibration is over and its MARKs and this end's are waited for. -/
def State.peerCalOver (s : State) (n lane : Nat) : State :=
  (((if ((s.laneJob n lane).bind CalJob.result).isNone then
      s.preemptCal (n / 4) (s.fibreOf (n / 4) lane (n % 4)) else s).endCal (n / 4) (n % 4) lane).afterSpare (n / 4)
    (s.fibreOf (n / 4) lane (n % 4))).issueNext n

/-- What a link end waits for (R312). -/
def State.withWait (s : State) (n : Nat) (l : List (Bool × Nat × Bool)) : State :=
  s.setLink n { s.link n with wait := l }

/-- CAL_END carried out. -/
def State.peerCalEnd (s : State) (n id lane : Nat) : State :=
  if n < 32 && lane < 8 then
    let back := (s.withPeerCal n false).backTx n lane
    (back.withWait n ((((back.link n).toMark.filter fun m => !(s.link n).toMark.contains m).map fun m => (true, m)) ++
      back.peerMarks n 0x20 (laneArg id lane 3))).peerCalOver n lane
  else s

theorem laneCalEnd_exec (s : State) (n id lane u : Nat) (b : Byp) : exec (.laneCalEnd n b id lane u) s =
    s.byp n b 0x20 (laneArg id lane 3) u fun s =>
      s.receiveReq n 0x20 (laneArg id lane 3) b.reqno id fun s => s.peerCalEnd n id lane := rfl

theorem State.peerCalOver_grows (s : State) (n lane : Nat) : Grows s (s.peerCalOver n lane) :=
  (((Grows.ite (fun _ => .of_changes (s.preemptCal_changes ..)) fun _ => .refl s).trans (State.endCal_grows ..)).trans
    (State.afterSpare_grows ..)).trans (State.issueNext_grows ..)

theorem State.withWait_grows (s : State) (n : Nat) (l : List (Bool × Nat × Bool)) : Grows s (s.withWait n l) :=
  .setLink s n ⟨rfl, rfl, List.Subset.refl _, List.Subset.refl _⟩

/-- What CAL_END does beside the end of the peer's calibration only adds to what is to be sent. -/
theorem State.peerCalEnd_grows (s : State) {n lane : Nat} (hn : n < 32) (hl : lane < 8) (id : Nat) :
    Grows (s.withPeerCal n false) (s.peerCalEnd n id lane) := by
  rw [State.peerCalEnd, if_pos (by simp [hn, hl])]
  exact ((State.backTx_grows ..).trans (State.withWait_grows ..)).trans (State.peerCalOver_grows ..)

theorem State.peerCalEnd_answered (s : State) (n id lane : Nat) : Answered n s (s.peerCalEnd n id lane) := by
  by_cases inside : n < 32 ∧ lane < 8
  · exact (s.withPeerCal_answered n false).trans ((s.peerCalEnd_grows inside.1 inside.2 id).answered n)
  · rw [State.peerCalEnd, if_neg (by simpa using inside)]
    exact (Grows.refl s).answered n

theorem State.peerCalEnd_over (s : State) (hn : n < 32) (hl : lane < 8) (id : Nat) :
    ((s.peerCalEnd n id lane).link n).peerCal = false := by
  rw [((s.peerCalEnd_grows hn hl id).1 n).peerCal, State.withPeerCal_link]

/-! ## REJOIN (R313, R329, R331) -/

/-- The lanes that the spares of a die link stand for, at the sender. -/
def State.withTxCovers (s : State) (n : Nat) (m : SMap Nat Nat) : State := s.setLink n { s.link n with txCovers := m }

/-- REJOIN carried out. -/
def State.peerRejoin (s : State) (n lane : Nat) : State :=
  if lane < allLanes n && !s.txMember n lane then
    match (s.link n).txCovers.find? fun e => e.2 = lane with
    | some e =>
      let v := s.withTxCovers n ((s.link n).txCovers.del e.1)
      if v.idleGroup n lane then v else v.mark n [(lane, true), (e.1, false)]
    | none => if s.idleGroup n lane then s else s.mark n [(lane, true)]
  else s

theorem laneRejoin_exec (s : State) (n id lane u : Nat) (b : Byp) : exec (.laneRejoin n b id lane u) s =
    s.byp n b 0x20 (laneArg id lane 4) u fun s =>
      s.receiveReq n 0x20 (laneArg id lane 4) b.reqno id fun s => s.peerRejoin n lane := rfl

theorem State.withTxCovers_grows (s : State) (n : Nat) (m : SMap Nat Nat) : Grows s (s.withTxCovers n m) :=
  .setLink s n ⟨rfl, rfl, List.Subset.refl _, List.Subset.refl _⟩

theorem State.withTxCovers_more (s : State) (n : Nat) (m : SMap Nat Nat) : marksMore n [] s (s.withTxCovers n m) := by
  rw [marksMore, State.withTxCovers, State.link_setLink, if_pos rfl]
  exact ⟨(List.append_nil _).symm, rfl⟩

theorem State.withTxCovers_txLanes (s : State) (n : Nat) (m : SMap Nat Nat) (x : Nat) :
    ((s.withTxCovers n m).link x).txLanes = (s.link x).txLanes := by
  rw [State.withTxCovers, State.link_setLink]
  split
  next e => rw [e]
  · rfl

theorem State.withTxCovers_idleGroup (s : State) (n : Nat) (m : SMap Nat Nat) (x i : Nat) :
    (s.withTxCovers n m).idleGroup x i = s.idleGroup x i := by
  have member (x i : Nat) : (s.withTxCovers n m).txMember x i = s.txMember x i := by
    simp only [State.txMember, s.withTxCovers_txLanes]
    rfl
  simp only [State.idleGroup, State.groupsInUse, member]

theorem State.peerRejoin_grows (s : State) (n lane : Nat) : Grows s (s.peerRejoin n lane) := by
  unfold State.peerRejoin
  refine .ite (fun _ => ?_) fun _ => .refl s
  split
  next e _ =>
    have covered := s.withTxCovers_grows n ((s.link n).txCovers.del e.1)
    exact .ite (fun _ => covered) fun _ => covered.trans (State.mark_grows ..)
  · exact .ite (fun _ => .refl s) fun _ => s.mark_grows ..

/-- A lane that is no member joins, and the spare that stood for it leaves. -/
theorem State.peerRejoin_joins (s : State) (hl : lane < allLanes n) (out : s.txMember n lane = false)
    (inUse : s.idleGroup n lane = false) : ∃ l, marksMore n l s (s.peerRejoin n lane) ∧ (lane, true) ∈ l ∧
      ∀ e, ((s.link n).txCovers.find? fun e => e.2 = lane) = some e → (e.1, false) ∈ l := by
  rw [State.peerRejoin, if_pos (by simp [hl, out])]
  split
  next e covered =>
    refine ⟨[(lane, true), (e.1, false)], ?_, by simp, fun e' h => ?_⟩
    · dsimp only
      rw [State.withTxCovers_idleGroup, inUse]
      exact (s.withTxCovers_more n _).trans (State.mark_more ..)
    · obtain rfl := Option.some.inj (covered.symm.trans h)
      simp
  next none =>
    refine ⟨[(lane, true)], ?_, by simp, fun e' h => by simp [none] at h⟩
    rw [inUse]
    exact s.mark_more ..

/-- A member, a lane that the link has not and one of a group out of use send nothing. -/
theorem State.peerRejoin_stays (s : State)
    (h : s.txMember n lane = true ∨ allLanes n ≤ lane ∨ s.idleGroup n lane = true) :
    marksMore n [] s (s.peerRejoin n lane) := by
  rw [State.peerRejoin]
  split
  next inside =>
    have idle : s.idleGroup n lane = true := by
      simp only [Bool.and_eq_true, decide_eq_true_eq, Bool.not_eq_true'] at inside
      exact (h.resolve_left (by simp [inside.2])).resolve_left (by omega)
    split
    · dsimp only
      rw [State.withTxCovers_idleGroup, idle]
      exact s.withTxCovers_more ..
    · rw [idle]
      exact marksMore_of_link rfl
  · exact marksMore_of_link rfl

/-! ## SPARE_IN (R252, R314) -/

/-- A member lane leaves the link. -/
def State.laneLeaves (s : State) (n lane : Nat) : State := if s.txMember n lane then s.mark n [(lane, false)] else s

/-- LS stands for a retired lane, and joins. -/
def State.spareStands (s : State) (n f lane : Nat) : State :=
  let v := (if s.spareUse (n / 4) f = suCal then s.preemptCal (n / 4) (f / 2) else s).putSpare (n / 4) f suRetired lane
  if v.txMember n 8 then v else v.mark n [(8, true)]

/-- SPARE_IN carried out for a data lane. -/
def State.laneOutFor (s : State) (n f lane : Nat) : State :=
  (if s.noSpare n lane then s else s.spareStands n f lane).laneLeaves n lane

/-- SPARE_IN carried out. -/
def State.peerSpareIn (s : State) (n lane : Nat) : State :=
  if n < 32 && lane < 8 then
    (s.retireFibreLane (n / 4) (s.fib n lane 0) lane).laneOutFor n (s.fib n lane 0) lane
  else if n < 32 && lane = 8 then (s.retireSpare (n / 4) (2 * (n % 4))).laneLeaves n 8
  else s

theorem spareIn_exec (s : State) (n id lane u : Nat) (b : Byp) : exec (.spareIn n b id lane u) s =
    s.byp n b 0x20 (laneArg id lane 5) u fun s =>
      s.receiveReq n 0x20 (laneArg id lane 5) b.reqno id fun s => s.peerSpareIn n lane := by
  show execSpareIn n b id lane u s = _
  have same : (fun s : State => if n < 32 && lane < 8 then
      let f := s.fib n lane 0
      let s := s.retireFibreLane (n / 4) f lane
      if s.noSpare n lane then (if s.txMember n lane then s.mark n [(lane, false)] else s)
      else
        let s := if s.spareUse (n / 4) f = suCal then s.preemptCal (n / 4) (f / 2) else s
        let s := s.putSpare (n / 4) f suRetired lane
        let s := if s.txMember n 8 then s else s.mark n [(8, true)]
        if s.txMember n lane then s.mark n [(lane, false)] else s
    else if n < 32 && lane = 8 then
      let s := s.retireSpare (n / 4) (2 * (n % 4))
      if s.txMember n 8 then s.mark n [(8, false)] else s
    else s) = fun s => s.peerSpareIn n lane := by
    funext s
    simp only [State.peerSpareIn, State.laneOutFor, State.laneLeaves]
    split
    · split <;> rfl
    · rfl
  exact congrArg (fun run => s.byp n b 0x20 (laneArg id lane 5) u fun s =>
    s.receiveReq n 0x20 (laneArg id lane 5) b.reqno id run) same

theorem State.laneLeaves_grows (s : State) (n lane : Nat) : Grows s (s.laneLeaves n lane) :=
  .ite (fun _ => s.mark_grows ..) fun _ => .refl s

theorem State.laneLeaves_more (s : State) (n lane : Nat) : ∃ l, marksMore n l s (s.laneLeaves n lane) ∧
    (s.txMember n lane = true → (lane, false) ∈ l) := by
  unfold State.laneLeaves
  split
  · exact ⟨_, s.mark_more .., fun _ => List.mem_singleton_self _⟩
  next out => exact ⟨[], marksMore_of_link rfl, fun member => absurd member out⟩

theorem State.laneLeaves_changes (s : State) (n lane : Nat) : changes [] [.links] s (s.laneLeaves n lane) :=
  .ite (fun _ => s.mark_changes ..) fun _ => .refl s

/-- What LS's standing for a lane moves beside the MARKs: the spare is put, a calibration gives way. -/
theorem State.spareStands_eq (s : State) (n f lane : Nat) :
    ∃ v : State, changes preemptFields [.calJobs, .calRuns] s v ∧
    s.spareStands n f lane = if (v.putSpare (n / 4) f suRetired lane).txMember n 8 then
      v.putSpare (n / 4) f suRetired lane else (v.putSpare (n / 4) f suRetired lane).mark n [(8, true)] :=
  ⟨_, .ite (fun _ => s.preemptCal_changes ..) fun _ => .refl s, rfl⟩

theorem State.spareStands_grows (s : State) (n f lane : Nat) : Grows s (s.spareStands n f lane) := by
  obtain ⟨v, moved, e⟩ := s.spareStands_eq n f lane
  have put : Grows s (v.putSpare (n / 4) f suRetired lane) := (Grows.of_changes moved).changes (v.putSpare_changes ..)
  rw [e]
  exact .ite (fun _ => put) fun _ => put.trans (State.mark_grows ..)

theorem State.spareStands_changes (s : State) (n f lane : Nat) :
    changes (preemptFields ++ spareFields) [.calJobs, .calRuns, .links] s (s.spareStands n f lane) := by
  obtain ⟨v, moved, e⟩ := s.spareStands_eq n f lane
  have put : changes (preemptFields ++ spareFields) [.calJobs, .calRuns, .links] s
      (v.putSpare (n / 4) f suRetired lane) :=
    (moved.mono (List.subset_append_left ..) (by decide)).step (v.putSpare_changes ..)
  rw [e]
  exact .ite (fun _ => put) fun _ => put.step (State.mark_changes ..)

theorem State.spareStands_more (s : State) (n f lane : Nat) : ∃ l, marksMore n l s (s.spareStands n f lane) := by
  obtain ⟨v, moved, e⟩ := s.spareStands_eq n f lane
  have put : marksMore n [] s (v.putSpare (n / 4) f suRetired lane) := marksMore_of_link
    ((link_of_changes (v.putSpare_changes ..) (by decide) n).trans (link_of_changes moved (by decide) n))
  rw [e]
  split
  · exact ⟨_, put⟩
  · exact ⟨_, put.trans (State.mark_more ..)⟩

theorem State.spareStands_spare (s : State) (n f : Nat) {lane : Nat} (hl : lane < 8) :
    (s.spareStands n f lane).spareUse (n / 4) f = suRetired ∧
      (s.spareStands n f lane).rd .oeFibreStatusSpareLane (n / 4) f = lane := by
  obtain ⟨v, -, e⟩ := s.spareStands_eq n f lane
  have use := v.putSpare_use (n / 4) f lane (use := suRetired) (by decide)
  have on := v.putSpare_lane (n / 4) f (use := suRetired) (show lane < 16 by omega) (by decide) (by decide)
  rw [e]
  split <;> exact ⟨use, on⟩

theorem txMember_of_changes {fs : List Field} {ps : List Part} (h : changes fs ps s t) (hf : .lnkStatusTxMask ∉ fs)
    (hn : n < 32) (i : Nat) : t.txMember n i = s.txMember n i := by
  rw [State.txMember, if_pos hn, h.1 _ _ _ hf, State.txMember, if_pos hn]

theorem State.laneOutFor_more (s : State) (hn : n < 32) (f lane : Nat) : ∃ l, marksMore n l s (s.laneOutFor n f lane) ∧
    (s.txMember n lane = true → (lane, false) ∈ l) := by
  have first : ∃ l, marksMore n l s (if s.noSpare n lane then s else s.spareStands n f lane) := by
    split
    · exact ⟨[], marksMore_of_link rfl⟩
    · exact s.spareStands_more ..
  have member : (if s.noSpare n lane then s else s.spareStands n f lane).txMember n lane = s.txMember n lane := by
    split
    · rfl
    · exact txMember_of_changes (s.spareStands_changes ..) (by decide) hn lane
  obtain ⟨l, more⟩ := first
  obtain ⟨m, more', leaves⟩ := State.laneLeaves_more (if s.noSpare n lane then s else s.spareStands n f lane) n lane
  exact ⟨l ++ m, more.trans more', fun h => List.mem_append_right _ (leaves (member.trans h))⟩

theorem State.laneOutFor_grows (s : State) (n f lane : Nat) : Grows s (s.laneOutFor n f lane) :=
  (Grows.ite (fun _ => .refl s) fun _ => s.spareStands_grows ..).trans (State.laneLeaves_grows ..)

theorem State.peerSpareIn_grows (s : State) (n lane : Nat) : Grows s (s.peerSpareIn n lane) :=
  .ite (fun _ => (Grows.of_changes (s.retireFibreLane_changes ..)).trans (State.laneOutFor_grows ..)) fun _ =>
    .ite (fun _ => (Grows.of_changes (s.retireSpare_changes ..)).trans (State.laneLeaves_grows ..)) fun _ => .refl s

/-- A data lane is retired at its sender and leaves; LS stands for it where no other retired lane has it. -/
theorem State.peerSpareIn_lane (s : State) (hn : n < 32) (hl : lane < 8) :
    bit ((s.peerSpareIn n lane).rd .oeFibreStatusRetired (n / 4) (s.fib n lane 0)) lane = true ∧
      (∃ l, marksMore n l s (s.peerSpareIn n lane) ∧ (s.txMember n lane = true → (lane, false) ∈ l)) ∧
      (s.noSpare n lane = false → (s.peerSpareIn n lane).spareUse (n / 4) (s.fib n lane 0) = suRetired ∧
        (s.peerSpareIn n lane).rd .oeFibreStatusSpareLane (n / 4) (s.fib n lane 0) = lane) := by
  let v := s.retireFibreLane (n / 4) (s.fib n lane 0) lane
  have retired : changes retireFields [] s v := s.retireFibreLane_changes ..
  have shown : bit (v.rd .oeFibreStatusRetired (n / 4) (s.fib n lane 0)) lane = true :=
    s.retireFibreLane_retired (n / 4) (s.fib n lane 0) hl
  have uses (k f : Nat) : v.spareUse k f = s.spareUse k f := retired.1 _ _ _ (by decide)
  have open_ : v.noSpare n lane = s.noSpare n lane := by
    simp only [State.noSpare, uses, fib_of_changes retired (by decide) (by decide),
      retired.1 .oeFibreStatusSpareLane _ _ (by decide)]
  rw [State.peerSpareIn, if_pos (by simp [hn, hl])]
  refine ⟨?_, ?_, fun spare => ?_⟩
  · have kept : changes (preemptFields ++ spareFields) [.calJobs, .calRuns, .links] v
        (v.laneOutFor n (s.fib n lane 0) lane) :=
      (changes.ite (fun _ => .refl v) fun _ => v.spareStands_changes ..).step (State.laneLeaves_changes ..)
    rw [kept.1 _ _ _ (by decide)]
    exact shown
  · obtain ⟨l, more, leaves⟩ := v.laneOutFor_more hn (s.fib n lane 0) lane
    exact ⟨l, (marksMore_of_link (link_of_changes retired (by decide) n)).trans more,
      fun member => leaves ((txMember_of_changes retired (by decide) hn lane).trans member)⟩
  · have put := v.spareStands_spare n (s.fib n lane 0) hl
    have leaves := (v.spareStands n (s.fib n lane 0) lane).laneLeaves_changes n lane
    rw [State.laneOutFor, open_, spare]
    exact ⟨(leaves.1 .oeFibreStatusSpareUse _ _ (by decide)).trans put.1, (leaves.1 _ _ _ (by decide)).trans put.2⟩

/-- LS itself is retired, and leaves. -/
theorem State.peerSpareIn_spare (s : State) (hn : n < 32) :
    (s.peerSpareIn n 8).rd .hOeSpareGone (n / 4) (2 * (n % 4)) = 1 ∧
      ∃ l, marksMore n l s (s.peerSpareIn n 8) ∧ (s.txMember n 8 = true → (8, false) ∈ l) := by
  have retired := s.retireSpare_changes (n / 4) (2 * (n % 4))
  rw [State.peerSpareIn, if_neg (by simp), if_pos (by simp [hn])]
  refine ⟨((State.laneLeaves_changes ..).1 _ _ _ (by decide)).trans (s.retireSpare_gone ..), ?_⟩
  obtain ⟨l, more, leaves⟩ := (s.retireSpare (n / 4) (2 * (n % 4))).laneLeaves_more n 8
  exact ⟨l, (marksMore_of_link (link_of_changes retired (by decide) n)).trans more,
    fun member => leaves ((txMember_of_changes retired (by decide) hn 8).trans member)⟩

/-! ## WIDTH_REQ (R315) -/

/-- The MARKs that make the transmit members those of a mask, of the lanes that can be sent. -/
def State.widthMarks (s : State) (n mask : Nat) : List (Nat × Bool) :=
  (List.range 9).filterMap fun i =>
    if bit mask i && s.laneLit n i && !s.txMember n i then some (i, true)
    else if !bit mask i && s.txMember n i then some (i, false)
    else none

theorem widthReq_exec (s : State) (n id mask u : Nat) (b : Byp) : exec (.widthReq n b id mask u) s =
    s.byp n b 0x30 (id * 2 ^ 11 + mask % 2 ^ 9) u fun s =>
      s.receiveReq n 0x30 (id * 2 ^ 11 + mask % 2 ^ 9) b.reqno id fun s => s.mark n (s.widthMarks n mask) := rfl

theorem State.widthMarks_leave (s : State) {mask i : Nat} (hi : i < 9) (out : bit mask i = false)
    (member : s.txMember n i = true) : (i, false) ∈ s.widthMarks n mask :=
  List.mem_filterMap.mpr ⟨i, List.mem_range.mpr hi, by simp [out, member]⟩

theorem State.widthMarks_join (s : State) {mask i : Nat} (hi : i < 9) (wanted : bit mask i = true)
    (out : s.txMember n i = false) (lit : s.laneLit n i = true) : (i, true) ∈ s.widthMarks n mask :=
  List.mem_filterMap.mpr ⟨i, List.mem_range.mpr hi, by simp [wanted, out, lit]⟩

/-! ## RETRAIN_REQ (R316) -/

/-- A retrain begun where the port is UP. -/
def State.retrains (s : State) (n u : Nat) : State := if n < 32 && s.lState n = lUp then s.beginRetrain n u else s

theorem retrainReq_exec (s : State) (n id u : Nat) (b : Byp) : exec (.retrainReq n b id u) s =
    s.byp n b 0x40 (id * 2 ^ 11) u fun s =>
      s.receiveReq n 0x40 (id * 2 ^ 11) b.reqno id fun s => s.retrains n u := rfl

/-- A retrain notes that it is in progress, and the port shows it. -/
theorem State.beginRetrain_eq (s : State) (n u : Nat) :
    ∃ v, v = s.setLink n { s.link n with retraining := true, since := u, stopped := [] } ∧
      s.beginRetrain n u = v.setPort n lRetrain := ⟨_, rfl, rfl⟩

theorem State.retrains_answered (s : State) (n u : Nat) : Answered n s (s.retrains n u) := by
  unfold State.retrains
  split
  · obtain ⟨v, e, begun⟩ := s.beginRetrain_eq n u
    have noted : Answered n s v := e ▸ .setLink s n rfl (List.Subset.refl _)
    have kept := (v.setPort_on (n := n) (st := lRetrain) (by decide) (by decide)).2
    rw [begun]
    refine noted.trans ⟨?_, ?_, kept.1 _ _ _ (by decide)⟩
    · rw [link_of_changes kept (by decide)]
    · rw [link_of_changes kept (by decide)]
      exact List.Subset.refl _
  · exact (Grows.refl s).answered n

theorem State.retrains_shows (s : State) (hn : n < 32) (up : s.lState n = lUp) (u : Nat) :
    (s.retrains n u).lState n = lRetrain := by
  obtain ⟨v, -, begun⟩ := s.beginRetrain_eq n u
  rw [State.retrains, if_pos (by simp [hn, up]), begun]
  exact (v.setPort_on (by decide) (by decide)).1

/-- A retrain keeps this end's requests. -/
theorem State.retrains_request (s : State) (n u : Nat) :
    ((s.retrains n u).link n).request = (s.link n).request ∧ ((s.retrains n u).link n).again = (s.link n).again := by
  unfold State.retrains
  split
  · obtain ⟨v, e, begun⟩ := s.beginRetrain_eq n u
    have kept := (v.setPort_on (n := n) (st := lRetrain) (by decide) (by decide)).2
    rw [begun, link_of_changes kept (by decide), e, State.link_setLink, if_pos rfl]
    exact ⟨rfl, rfl⟩
  · exact ⟨rfl, rfl⟩

end

end Sys2Proof.Machine

/-!
# Acknowledgements, LANE_DROP and what link ends ask of each other (R252, R253, R310 to R316)
-/

namespace Sys2Proof.Machine

-- Proofs checked one after another hold fewer threads' stacks at a time, which the memory of one process needs.
set_option Elab.async false

section
variable {s t w : State} {n u id lane kind arg : Nat} {b : Byp}

/-! ## LANE_DROP (R313) -/

/-- LANE_DROP carried out: LEAVE is the next MARK of a member lane that has none. -/
def State.dropLane (s : State) (n lane : Nat) : State :=
  if lane < allLanes n && s.txMember n lane && !(s.link n).toMark.contains (lane, false) then
    s.setLink n { s.link n with marks := (lane, false) :: (s.link n).marks }
  else s

theorem laneDrop_runs (hn : n < linkEnds) (up : s.linkOpen n = true)
    (crc : b.crcOk 0x21 (if n < 32 then lane * 2 ^ 7 else lane) = true) (u : Nat) :
    Runs (.laneDrop n b lane u) s ((((s.stamp u).acked n b).dropLane n lane).quiesceCheck n) :=
  byp_heard hn up crc u fun s => s.dropLane n lane

theorem laneDrop_touches (run : Runs (.laneDrop n b lane u) s t) : touches [.tick, .fab, .gal, .lnk] [.links] s t :=
  (execLaneDrop_moves n b lane u s (List.Subset.refl _) (List.Subset.refl _) (.refl s) t run).1

theorem laneDrop_leaves (hn : n < linkEnds) (up : s.linkOpen n = true)
    (crc : b.crcOk 0x21 (if n < 32 then lane * 2 ^ 7 else lane) = true) (hl : lane < allLanes n)
    (member : s.txMember n lane = true) (new : (lane, false) ∉ (s.link n).toMark) :
    ∃ t, Runs (.laneDrop n b lane u) s t ∧ (t.link n).marks = (lane, false) :: (s.link n).marks ∧
      touches [.tick, .fab, .gal, .lnk] [.links] s t := by
  have alike := alike_heard s u n b
  have run := laneDrop_runs hn up crc u
  refine ⟨_, run, (State.quiesceCheck_ends ..).marks.trans ?_, laneDrop_touches run⟩
  rw [State.dropLane, if_pos (by simp [hl, alike.txMember, member, alike.toMark, new]), State.link_setLink, if_pos rfl]
  exact congrArg _ (alike.links n).marks

theorem laneDrop_stays (hn : n < linkEnds) (up : s.linkOpen n = true)
    (crc : b.crcOk 0x21 (if n < 32 then lane * 2 ^ 7 else lane) = true)
    (h : allLanes n ≤ lane ∨ s.txMember n lane = false ∨ (lane, false) ∈ (s.link n).toMark) :
    ∃ t, Runs (.laneDrop n b lane u) s t ∧ (t.link n).marks = (s.link n).marks ∧
      touches [.tick, .fab, .gal, .lnk] [.links] s t := by
  have alike := alike_heard s u n b
  have run := laneDrop_runs hn up crc u
  refine ⟨_, run, (State.quiesceCheck_ends ..).marks.trans ?_, laneDrop_touches run⟩
  rw [State.dropLane, if_neg, (alike.links n).marks]
  rw [alike.txMember, alike.toMark]
  rcases h with h | h | h <;> simp [h]

/-! ## Acknowledgements received (R311) -/

/-- This end's request answered. -/
def State.released (s : State) (n : Nat) : State := s.setLink n { s.link n with request := none }

theorem State.released_link (s : State) (n : Nat) : (s.released n).link n = { s.link n with request := none } := by
  rw [State.released, State.link_setLink, if_pos rfl]

theorem State.released_alike (s : State) (n : Nat) : Alike s (s.released n) := .setLink s n ⟨rfl, rfl, rfl, rfl⟩

theorem receiveAck_other {reqno : Nat} {run : State → State}
    (h : ∀ r, (s.link n).request = some r → r.arg ≠ arg ∨ r.reqno ≠ reqno) : s.receiveAck n kind arg reqno run = s := by
  rw [State.receiveAck]
  split
  next r mine => exact if_neg (by rcases h r mine with h | h <;> simp [h])
  · rfl

theorem receiveAck_answers {run : State → State} {r : LinkReq} (mine : (s.link n).request = some r)
    (hk : ackKind r.kind = kind) :
    s.receiveAck n kind r.arg r.reqno run = (run (s.released n)).issueNext n := by
  rw [State.receiveAck]
  split
  next r' mine' =>
    obtain rfl := Option.some.inj (mine.symm.trans mine')
    exact if_pos (by simp [hk])
  next none => simp [mine] at none

/-- With nothing that waits to be issued, no request is outstanding after an answer. -/
theorem State.issueNext_idle (s : State) (n : Nat) (idle : (s.link n).request = none) (again : (s.link n).again = []) :
    ((s.issueNext n).link n).request = none := by
  unfold State.issueNext
  dsimp only
  split
  · rw [again, State.nextRequest]
    dsimp only
    split
    · rw [State.link_setLink, if_pos rfl]
      exact idle
    · exact idle
  · exact idle

section
variable {c : Instr} {run : State → State} (hn : n < linkEnds) (up : s.linkOpen n = true)
  (hc : exec c s = s.byp n b kind arg u fun s => s.receiveAck n kind arg b.reqno run)
include hn up hc

/-- An acknowledgement that answers no request of this end does nothing. -/
theorem ack_other (crc : b.crcOk kind arg = true) (calm : calmAt s n)
    (h : ∀ r, (s.link n).request = some r → r.arg ≠ arg ∨ r.reqno ≠ b.reqno) : quietly c s := by
  refine ⟨s.stamp u, ?_, s.stamp_time u⟩
  rw [Runs, hc, byp_heard hn up crc, heard_calm calm, receiveAck_other (by rwa [State.link_stamp]),
    quiesceCheck_calm calm (s.stamp_time u)]

/-- An acknowledgement that answers this end's request ends it and carries it out. -/
theorem ack_answers {r : LinkReq} (mine : (s.link n).request = some r) (ha : r.arg = arg) (hr : r.reqno = b.reqno)
    (hk : ackKind r.kind = kind) (crc : b.crcOk kind arg = true) :
    Runs c s (((run (((s.stamp u).acked n b).released n)).issueNext n).quiesceCheck n) := by
  subst ha
  rw [Runs, hc, byp_heard hn up crc, ← hr, receiveAck_answers ((heard_link s u n b).request.trans mine) hk]

end

/-- The state in which this end's request is answered, before its answer is carried out. -/
theorem answered_alike (s : State) (u n : Nat) (b : Byp) : Alike s (((s.stamp u).acked n b).released n) :=
  (alike_heard s u n b).trans (State.released_alike ..)

theorem answered_link (s : State) (u n : Nat) (b : Byp) :
    ((((s.stamp u).acked n b).released n).link n).request = none ∧
      ((((s.stamp u).acked n b).released n).link n).again = (s.link n).again := by
  rw [State.released_link]
  exact ⟨rfl, (heard_link s u n b).again⟩

/-- What waits to be issued is empty: no request is outstanding once the answer is carried out. -/
theorem answer_ends {v : State} (idle : (v.link n).request = none) (again : (v.link n).again = []) :
    (((v.issueNext n).quiesceCheck n).link n).request = none :=
  (State.quiesceCheck_ends ..).request.trans (v.issueNext_idle n idle again)

/-- MARKs that an answer adds are to be sent in the end. -/
theorem answer_marks {v y : State} (h : Grows v y) {m : Nat × Bool} (hm : m ∈ (v.link n).marks) :
    m ∈ (((y.issueNext n).quiesceCheck n).link n).marks := by
  rw [(State.quiesceCheck_ends ..).marks]
  exact ((h.trans (y.issueNext_grows n)).1 n).marks hm

/-! ## LANE_ACK (R252, R253, R265) -/

/-- The lane of this end has moved to LS: what its swap waits for. -/
def State.laneMovedOut (s : State) (n lane : Nat) : State :=
  if n < 32 && !(s.moveTx n lane).txMember n lane then (s.moveTx n lane).switchSource n lane else s.moveTx n lane

/-- The lane of this end is back. -/
def State.laneBackIn (s : State) (n lane act : Nat) : State :=
  let s := if act = 3 && s.onSudden n lane then s else s.backTx n lane
  if n < 32 then
    let s := if act = 3 then s.endCal (n / 4) (n % 4) lane else s.giveBack (n / 4) (s.fib n lane 0) lane
    (s.swapBack (n / 4) (n % 4) lane).afterSpare (n / 4) (s.fibreOf (n / 4) lane (n % 4))
  else s

/-- A lane of a group out of use has its place again. -/
def State.laneUncovered (s : State) (n lane : Nat) : State :=
  (s.setLink n { s.link n with covers := (s.link n).covers.filter fun e => e.2 != lane }).groupFields (dieLinkOf n)

/-- LANE_ACK carried out. -/
def State.laneAcked (s : State) (n arg : Nat) : State :=
  if bitsAt arg 4 3 = 4 && s.idleGroup n (s.reqLane n arg) then s.laneUncovered n (s.reqLane n arg)
  else if bitsAt arg 4 3 = 0 || bitsAt arg 4 3 = 2 then s.laneMovedOut n (s.reqLane n arg)
  else if bitsAt arg 4 3 = 1 || bitsAt arg 4 3 = 3 then s.laneBackIn n (s.reqLane n arg) (bitsAt arg 4 3)
  else s

theorem laneAck_exec (s : State) (n arg u : Nat) (b : Byp) : exec (.laneAck n b arg u) s =
    s.byp n b 0x22 arg u fun s => s.receiveAck n 0x22 arg b.reqno fun s => s.laneAcked n arg := rfl

theorem State.laneAcked_moves {act : Nat} (s : State) (ha : bitsAt arg 4 3 = act) (h : act = 0 ∨ act = 2) :
    s.laneAcked n arg = s.laneMovedOut n (s.reqLane n arg) := by
  rw [State.laneAcked, ha]
  rcases h with rfl | rfl <;> simp

theorem State.laneAcked_returns {act : Nat} (s : State) (ha : bitsAt arg 4 3 = act) (h : act = 1 ∨ act = 3) :
    s.laneAcked n arg = s.laneBackIn n (s.reqLane n arg) act := by
  rw [State.laneAcked, ha]
  rcases h with rfl | rfl <;> simp

theorem State.laneMovedOut_grows (s : State) (n lane : Nat) : Grows (s.moveTx n lane) (s.laneMovedOut n lane) :=
  .ite (fun _ => State.switchSource_grows ..) fun _ => .refl _

theorem State.mark_marks (s : State) (n : Nat) (l : List (Nat × Bool)) {m : Nat × Bool} (hm : m ∈ l) :
    m ∈ ((s.mark n l).link n).marks := by
  rw [(s.mark_more n l).1]
  exact List.mem_append_right _ hm

/-- The lane's place moves to LS where no retired lane has it and LS is free to join. -/
theorem State.moveTx_marks (s : State) (spare : s.noSpare n lane = false) (out : s.txMember n 8 = false)
    (new : (8, true) ∉ (s.link n).toMark) :
    (8, true) ∈ ((s.moveTx n lane).link n).marks ∧ (lane, false) ∈ ((s.moveTx n lane).link n).marks := by
  rw [State.moveTx, if_neg (by simp [spare]), if_neg (by simp [out, new])]
  exact ⟨s.mark_marks _ _ (by simp), s.mark_marks _ _ (by simp)⟩

/-- Without a spare the lane leaves the link. -/
theorem State.moveTx_leaves (s : State) (spare : s.noSpare n lane = true) :
    (lane, false) ∈ ((s.moveTx n lane).link n).marks := by
  rw [State.moveTx, if_pos spare]
  exact s.mark_marks _ _ (by simp)

/-- A lane that left joins again unless it is retired. -/
theorem State.backTx_joins (s : State) (left : s.leaving n lane = true)
    (sound : 32 ≤ n ∨ s.retiredLane (n / 4) (s.fib n lane 0) lane = false) :
    (lane, true) ∈ ((s.backTx n lane).link n).marks := by
  rw [State.backTx, if_neg (by simp [left]), if_neg]
  · split <;> exact s.mark_marks _ _ (by simp)
  · rcases sound with h | h <;> simp [h]

/-- What follows the lane's return only adds to what is to be sent. -/
theorem State.laneBackIn_grows (s : State) {act : Nat} (back : act ≠ 3 ∨ s.onSudden n lane = false) :
    Grows (s.backTx n lane) (s.laneBackIn n lane act) := by
  unfold State.laneBackIn
  extract_lets s1 s2
  have first : s1 = s.backTx n lane := if_neg (by rcases back with h | h <;> simp [h])
  have freed : Grows s1 s2 := .ite (fun _ => s1.endCal_grows ..) fun _ => s1.giveBack_grows ..
  rw [← first]
  exact .ite (fun _ => (freed.trans (s2.swapBack_grows ..)).trans (State.afterSpare_grows ..)) fun _ => .refl s1

/-- A member lane that moves asks nothing more. -/
theorem State.laneMovedOut_member (s : State) (member : s.txMember n lane = true) :
    s.laneMovedOut n lane = s.moveTx n lane := by
  rw [State.laneMovedOut]
  split
  next out =>
    simp only [Bool.and_eq_true, decide_eq_true_eq, Bool.not_eq_true'] at out
    have kept := txMember_of_changes (s.moveTx_changes n lane) (by decide) out.1 lane
    rw [kept, member] at out
    exact absurd out.2 (by decide)
  · rfl

theorem State.moveTx_request (s : State) (n lane : Nat) :
    ((s.moveTx n lane).link n).request = (s.link n).request ∧ ((s.moveTx n lane).link n).again = (s.link n).again := by
  have marked (l : List (Nat × Bool)) : ((s.mark n l).link n).request = (s.link n).request ∧
      ((s.mark n l).link n).again = (s.link n).again := by
    rw [State.mark, State.link_setLink, if_pos rfl]
    exact ⟨rfl, rfl⟩
  unfold State.moveTx
  split
  · exact marked _
  · split
    · exact ⟨rfl, rfl⟩
    · exact marked _

theorem laneAck_shows {r : LinkReq} (hn : n < linkEnds) (up : s.linkOpen n = true) (mine : (s.link n).request = some r)
    (hr : r.reqno = b.reqno) (hk : r.kind = 0x20) (crc : b.crcOk 0x22 r.arg = true) :
    let w := s.reqLane n r.arg
    let act := bitsAt r.arg 4 3
    ∃ t, Runs (.laneAck n b r.arg u) s t ∧ touches [.tick, .fab, .cal, .gal, .ddl, .oe, .lnk, .lsu]
        [.calJobs, .calRuns, .swaps, .spareNeeds, .links] s t ∧
      ((act = 0 ∨ act = 2) → s.noSpare n w = false → s.txMember n 8 = false → (8, true) ∉ (s.link n).toMark →
        (8, true) ∈ (t.link n).marks ∧ (w, false) ∈ (t.link n).marks) ∧
      ((act = 0 ∨ act = 2) → s.noSpare n w = true → (w, false) ∈ (t.link n).marks) ∧
      ((act = 0 ∨ act = 2) → s.txMember n w = true → (s.link n).again = [] → (t.link n).request = none) ∧
      ((act = 1 ∨ (act = 3 ∧ s.onSudden n w = false)) → s.leaving n w = true →
        (32 ≤ n ∨ s.retiredLane (n / 4) (s.fib n w 0) w = false) → (w, true) ∈ (t.link n).marks) := by
  intro lane act
  have alike := answered_alike s u n b
  have run := ack_answers (u := u) hn up (laneAck_exec s n r.arg u b) mine rfl hr (by rw [hk]; rfl) crc
  obtain ⟨ended, again⟩ := answered_link s u n b
  let v := ((s.stamp u).acked n b).released n
  have names : v.reqLane n r.arg = lane := alike.reqLane ..
  have out (h : act = 0 ∨ act = 2) : v.laneAcked n r.arg = v.laneMovedOut n lane := names ▸ v.laneAcked_moves rfl h
  refine ⟨_, run,
    (execLaneAck_moves n b r.arg u s (List.Subset.refl _) (List.Subset.refl _) (.refl s) _ run).1,
    fun h spare free new => ?_, fun h spare => ?_, fun h member idle => ?_, fun h left sound => ?_⟩
  · have marks := v.moveTx_marks ((alike.noSpare n lane).trans spare) ((alike.txMember n 8).trans free)
      (alike.toMark n ▸ new)
    rw [show (((s.stamp u).acked n b).released n).laneAcked n r.arg = _ from out h]
    exact ⟨answer_marks (v.laneMovedOut_grows ..) marks.1, answer_marks (v.laneMovedOut_grows ..) marks.2⟩
  · rw [show (((s.stamp u).acked n b).released n).laneAcked n r.arg = _ from out h]
    exact answer_marks (v.laneMovedOut_grows ..) (v.moveTx_leaves ((alike.noSpare n lane).trans spare))
  · have moved := v.laneMovedOut_member ((alike.txMember n lane).trans member)
    obtain ⟨request, again'⟩ := v.moveTx_request n lane
    rw [show (((s.stamp u).acked n b).released n).laneAcked n r.arg = _ from (out h).trans moved]
    exact answer_ends (request.trans ended) (again'.trans (again.trans idle))
  · have back : act = 1 ∨ act = 3 := h.imp id And.left
    have sudden : act ≠ 3 ∨ v.onSudden n lane = false :=
      h.imp (fun h => by omega) fun h => (alike.onSudden n lane).trans h.2
    have joins := v.backTx_joins ((alike.leaving n lane).trans left)
      (sound.imp id fun h => ((alike.retiredLane ..).trans (by rw [alike.fib])).trans h)
    rw [show (((s.stamp u).acked n b).released n).laneAcked n r.arg = v.laneBackIn n lane act from
      names ▸ v.laneAcked_returns rfl back]
    exact answer_marks (v.laneBackIn_grows sudden) joins

end

end Sys2Proof.Machine

/-!
# The requests of O37 settled (R252, R253, R256, R310 to R316)
-/

namespace Sys2Proof.Machine

-- Proofs checked one after another hold fewer threads' stacks at a time, which the memory of one process needs.
set_option Elab.async false

section
variable {s : State} {n u id lane : Nat} {b : Byp} (hn : n < linkEnds)
include hn

/-- On a link that is not open a message does nothing. -/
theorem closed_quiet {c : Instr} {kind arg : Nat} {run : State → State} (down : s.linkOpen n = false)
    (hc : exec c s = s.byp n b kind arg u run) : quietly c s :=
  ⟨s.stamp u, hc.trans (byp_closed hn down run), s.stamp_time u⟩

variable (up : s.linkOpen n = true)
include up

/-! ## Fresh requests of lanes -/

theorem laneMove_fresh (fresh : freshAt s n 0x20 (laneArg id lane 0) b) : ∃ t, Runs (.laneMove n b id lane u) s t ∧
    acksRequest n 0x20 (laneArg id lane 0) b.reqno t ∧
    (n < 32 → lane < 8 → s.spareUse (n / 4) (s.fib n lane 1) ≠ suRetired →
      2 ≤ t.spareUse (n / 4) (s.fib n lane 1) ∧ t.spareUse (n / 4) (s.fib n lane 1) ≤ 4 ∧
      t.rd .oeFibreStatusSpareLane (n / 4) (s.fib n lane 1) = lane) ∧
    touches [.tick, .fab, .gal, .oe, .lnk] [.links, .freeCount] s t := by
  obtain ⟨crc, idle, new⟩ := fresh
  have run := request_fresh hn up (laneMove_exec s n id lane u b) crc idle new
  have done := delivered n b.reqno s ((s.servedFor n u 0x20 (laneArg id lane 0) b).peerMove n lane)
  have alike := s.servedFor_alike n u 0x20 (laneArg id lane 0) b
  refine ⟨_, run, request_acks fun w => (w.peerMove_grows n lane).answered n, fun hp hl use => ?_,
    (execLaneMove_moves n b id lane u s (List.Subset.refl _) (List.Subset.refl _) (.refl s) _ run).1⟩
  have spare := (s.servedFor n u 0x20 (laneArg id lane 0) b).peerMove_spare hp hl
    (by rwa [alike.spareUse, alike.fib])
  rw [alike.fib] at spare
  obtain ⟨lo, hi, on⟩ := spare
  have same := done.rest.1 .oeFibreStatusSpareUse (n / 4) (s.fib n lane 1) (by decide)
  exact ⟨le_of_le_of_eq lo same.symm, le_of_eq_of_le same hi, (done.rest.1 _ _ _ (by decide)).trans on⟩

theorem laneBack_fresh (fresh : freshAt s n 0x20 (laneArg id lane 1) b) : ∃ t, Runs (.laneBack n b id lane u) s t ∧
    acksRequest n 0x20 (laneArg id lane 1) b.reqno t ∧
    (n < 32 → s.spareUse (n / 4) (s.fib n lane 1) ≠ suRetired → s.spareNeeds = [] →
      s.rd .oeFibreStatusSpareLane (n / 4) (s.fib n lane 1) = lane →
      t.spareUse (n / 4) (s.fib n lane 1) = suFree) ∧
    touches [.tick, .fab, .gal, .oe, .lnk] [.spareNeeds, .links] s t := by
  obtain ⟨crc, idle, new⟩ := fresh
  have run := request_fresh hn up (laneBack_exec s n id lane u b) crc idle new
  have done := delivered n b.reqno s ((s.servedFor n u 0x20 (laneArg id lane 1) b).peerBack n lane)
  have alike := s.servedFor_alike n u 0x20 (laneArg id lane 1) b
  refine ⟨_, run, request_acks fun w => (w.peerBack_grows n lane).answered n, fun hp use none on => ?_,
    (execLaneBack_moves n b id lane u s (List.Subset.refl _) (List.Subset.refl _) (.refl s) _ run).1⟩
  have spare := (s.servedFor n u 0x20 (laneArg id lane 1) b).peerBack_spare hp (by rwa [alike.spareUse, alike.fib])
    ((alike.changes.2 .spareNeeds (by decide)).trans none)
    ((alike.rd .oeFibreStatusSpareLane _ _).trans (by rwa [alike.fib]))
  rw [alike.fib] at spare
  exact (done.rest.1 .oeFibreStatusSpareUse _ _ (by decide)).trans spare

theorem laneCal_fresh (fresh : freshAt s n 0x20 (laneArg id lane 2) b) : ∃ t, Runs (.laneCal n b id lane u) s t ∧
    acksRequest n 0x20 (laneArg id lane 2) b.reqno t ∧
    (n < 32 → lane < 8 → (t.link n).peerCal = true ∧
      (let k := n / 4
       let g := s.fibreOf k lane (n % 4)
       (s.calJob k g).isNone = true → s.spareOpen k (2 * g) = true → s.spareOpen k (2 * g + 1) = true →
        t.calJobs = s.calJobs ++ [⟨k, n % 4, g, lane, false, none, none,
          s.rd .oeRingLockCode k (s.laneRing n lane 0), s.rd .oeRingLockCode k (s.laneRing n lane 1)⟩])) ∧
    touches [.tick, .fab, .cal, .gal, .oe, .lnk] [.calJobs, .calRuns, .links] s t := by
  obtain ⟨crc, idle, new⟩ := fresh
  let w := s.servedFor n u 0x20 (laneArg id lane 2) b
  have run := request_fresh hn up (laneCal_exec s n id lane u b) crc idle new
  have done := delivered n b.reqno s (w.peerCal n lane)
  have alike : Alike s w := s.servedFor_alike n u 0x20 (laneArg id lane 2) b
  refine ⟨_, run, request_acks fun w => w.peerCal_answered n lane, fun hp hl => ⟨?_, fun free tx rx => ?_⟩,
    (execLaneCal_moves n b id lane u s (List.Subset.refl _) (List.Subset.refl _) (.refl s) _ run).1⟩
  · exact done.peerCal.trans (w.peerCal_runs hp hl)
  · have jobs : w.calJobs = s.calJobs := alike.changes.2 .calJobs (by decide)
    have job (k g : Nat) : w.calJob k g = s.calJob k g := by rw [State.calJob, jobs]; rfl
    have opens (k f : Nat) : w.spareOpen k f = s.spareOpen k f := by simp only [State.spareOpen, alike.spareUse]
    have started := w.peerCal_jobs hp hl (by rwa [alike.fibreOf, job]) (by rwa [alike.fibreOf, opens])
      (by rwa [alike.fibreOf, opens])
    refine ((done.rest.2 .calJobs (by decide)).trans started).trans ?_
    simp only [jobs, State.newCal, alike.fibreOf, alike.laneRing, alike.rd .oeRingLockCode]

theorem laneCalEnd_fresh (fresh : freshAt s n 0x20 (laneArg id lane 3) b) : ∃ t, Runs (.laneCalEnd n b id lane u) s t ∧
    acksRequest n 0x20 (laneArg id lane 3) b.reqno t ∧ (n < 32 → lane < 8 → (t.link n).peerCal = false) ∧
    touches [.tick, .fab, .cal, .gal, .oe, .lnk, .lsu] [.calJobs, .calRuns, .swaps, .spareNeeds, .links] s t := by
  obtain ⟨crc, idle, new⟩ := fresh
  have run := request_fresh hn up (laneCalEnd_exec s n id lane u b) crc idle new
  have done := delivered n b.reqno s ((s.servedFor n u 0x20 (laneArg id lane 3) b).peerCalEnd n id lane)
  exact ⟨_, run, request_acks fun w => w.peerCalEnd_answered n id lane,
    fun hp hl => done.peerCal.trans (State.peerCalEnd_over _ hp hl id),
    (execLaneCalEnd_moves n b id lane u s (List.Subset.refl _) (List.Subset.refl _) (.refl s) _ run).1⟩

theorem laneRejoin_fresh (fresh : freshAt s n 0x20 (laneArg id lane 4) b) : ∃ t, Runs (.laneRejoin n b id lane u) s t ∧
    acksRequest n 0x20 (laneArg id lane 4) b.reqno t ∧
    (lane < allLanes n → s.txMember n lane = false → s.idleGroup n lane = false →
      waitsAt n b.reqno (lane, true) s t ∧
      ∀ e, ((s.link n).txCovers.find? fun e => e.2 = lane) = some e → waitsAt n b.reqno (e.1, false) s t) ∧
    (s.txMember n lane = true ∨ allLanes n ≤ lane ∨ s.idleGroup n lane = true →
      (t.link n).marks = (s.link n).marks ∧ (t.link n).behind = (s.link n).behind) ∧
    touches [.tick, .fab, .gal, .lnk] [.links] s t := by
  obtain ⟨crc, idle, new⟩ := fresh
  let w := s.servedFor n u 0x20 (laneArg id lane 4) b
  have run := request_fresh hn up (laneRejoin_exec s n id lane u b) crc idle new
  have done := delivered n b.reqno s (w.peerRejoin n lane)
  have alike : Alike s w := s.servedFor_alike n u 0x20 (laneArg id lane 4) b
  have served : marksMore n [] s w := s.servedFor_more n u 0x20 (laneArg id lane 4) b
  refine ⟨_, run, request_acks fun w => (w.peerRejoin_grows n lane).answered n, fun hl out inUse => ?_, fun h => ?_,
    (execLaneRejoin_moves n b id lane u s (List.Subset.refl _) (List.Subset.refl _) (.refl s) _ run).1⟩
  · obtain ⟨l, more, joins, leaves⟩ := w.peerRejoin_joins hl ((alike.txMember ..).trans out)
      ((alike.idleGroup ..).trans inUse)
    have waits := done.waits l (served.trans more)
    exact ⟨waits _ joins, fun e covered => waits _ (leaves e ((alike.links n).txCovers ▸ covered))⟩
  · exact done.none (served.trans (w.peerRejoin_stays (by rwa [alike.txMember, alike.idleGroup])))

theorem spareIn_fresh (fresh : freshAt s n 0x20 (laneArg id lane 5) b) : ∃ t, Runs (.spareIn n b id lane u) s t ∧
    acksRequest n 0x20 (laneArg id lane 5) b.reqno t ∧
    (n < 32 → lane < 8 → bit (t.rd .oeFibreStatusRetired (n / 4) (s.fib n lane 0)) lane = true ∧
      (s.txMember n lane = true → waitsAt n b.reqno (lane, false) s t) ∧
      (s.noSpare n lane = false → t.spareUse (n / 4) (s.fib n lane 0) = suRetired ∧
        t.rd .oeFibreStatusSpareLane (n / 4) (s.fib n lane 0) = lane)) ∧
    (n < 32 → lane = 8 → t.rd .hOeSpareGone (n / 4) (2 * (n % 4)) = 1 ∧
      (s.txMember n 8 = true → waitsAt n b.reqno (8, false) s t)) ∧
    touches [.tick, .fab, .cal, .gal, .oe, .lnk] [.calJobs, .calRuns, .links] s t := by
  obtain ⟨crc, idle, new⟩ := fresh
  let w := s.servedFor n u 0x20 (laneArg id lane 5) b
  have run := request_fresh hn up (spareIn_exec s n id lane u b) crc idle new
  have done := delivered n b.reqno s (w.peerSpareIn n lane)
  have alike : Alike s w := s.servedFor_alike n u 0x20 (laneArg id lane 5) b
  have served : marksMore n [] s w := s.servedFor_more n u 0x20 (laneArg id lane 5) b
  refine ⟨_, run, request_acks fun w => (w.peerSpareIn_grows n lane).answered n, fun hp hl => ?_, fun hp ls => ?_,
    (execSpareIn_moves n b id lane u s (List.Subset.refl _) (List.Subset.refl _) (.refl s) _ run).1⟩
  · obtain ⟨retired, ⟨l, more, leaves⟩, spare⟩ := w.peerSpareIn_lane hp hl
    rw [alike.fib, alike.noSpare] at spare
    rw [alike.fib] at retired
    refine ⟨(congrArg (bit · lane) (done.rest.1 _ _ _ (by decide))).trans retired,
      fun member => done.waits l (served.trans more) _ (leaves ((alike.txMember ..).trans member)), fun free => ?_⟩
    obtain ⟨use, on⟩ := spare free
    exact ⟨(done.rest.1 .oeFibreStatusSpareUse _ _ (by decide)).trans use, (done.rest.1 _ _ _ (by decide)).trans on⟩
  · subst ls
    obtain ⟨gone, l, more, leaves⟩ := w.peerSpareIn_spare hp
    exact ⟨(done.rest.1 _ _ _ (by decide)).trans gone,
      fun member => done.waits l (served.trans more) _ (leaves ((alike.txMember ..).trans member))⟩

/-! ## Fresh requests of the retrain and the width -/

theorem retrainReq_fresh (fresh : freshAt s n 0x40 (id * 2 ^ 11) b) : ∃ t, Runs (.retrainReq n b id u) s t ∧
    acksRequest n 0x40 (id * 2 ^ 11) b.reqno t ∧ (n < 32 → s.lState n = lUp → t.lState n = lRetrain) ∧
    touches [.tick, .fab, .events, .cal, .gal, .oe, .lnk, .lsu] [.calJobs, .swaps, .links] s t := by
  obtain ⟨crc, idle, new⟩ := fresh
  have run := request_fresh hn up (retrainReq_exec s n id u b) crc idle new
  have done := delivered n b.reqno s ((s.servedFor n u 0x40 (id * 2 ^ 11) b).retrains n u)
  have alike := s.servedFor_alike n u 0x40 (id * 2 ^ 11) b
  exact ⟨_, run, request_acks fun w => w.retrains_answered n u,
    fun hp open_ => (done.rest.1 .lnkStatusState n 0 (by decide)).trans
      (State.retrains_shows _ hp ((alike.lState n).trans open_) u),
    (execRetrainReq_moves n b id u s (List.Subset.refl _) (List.Subset.refl _) (.refl s) _ run).1⟩

theorem widthReq_fresh {mask : Nat} (fresh : freshAt s n 0x30 (id * 2 ^ 11 + mask % 2 ^ 9) b) :
    ∃ t, Runs (.widthReq n b id mask u) s t ∧ acksRequest n 0x30 (id * 2 ^ 11 + mask % 2 ^ 9) b.reqno t ∧
    (∀ i < 9, bit mask i = false → s.txMember n i = true → waitsAt n b.reqno (i, false) s t) ∧
    (∀ i < 9, bit mask i = true → s.txMember n i = false → s.laneLit n i = true →
      waitsAt n b.reqno (i, true) s t) ∧
    (calmAt s n → changes timeFields [.links] s t) ∧ touches [.tick, .fab, .gal, .lnk] [.links] s t := by
  obtain ⟨crc, idle, new⟩ := fresh
  let w := s.servedFor n u 0x30 (id * 2 ^ 11 + mask % 2 ^ 9) b
  have run := request_fresh hn up (widthReq_exec s n id mask u b) crc idle new
  have done := delivered n b.reqno s (w.mark n (w.widthMarks n mask))
  have alike : Alike s w := s.servedFor_alike n u 0x30 (id * 2 ^ 11 + mask % 2 ^ 9) b
  have waits := done.waits _ ((s.servedFor_more n u 0x30 (id * 2 ^ 11 + mask % 2 ^ 9) b).trans (w.mark_more ..))
  refine ⟨_, run, request_acks fun w => (w.mark_grows n _).answered n,
    fun i hi out member => waits _ (w.widthMarks_leave hi out ((alike.txMember ..).trans member)),
    fun i hi wanted out lit => waits _ (w.widthMarks_join hi wanted ((alike.txMember ..).trans out)
      ((alike.laneLit ..).trans lit)), fun calm => ?_,
    (execWidthReq_moves n b id mask u s (List.Subset.refl _) (List.Subset.refl _) (.refl s) _ run).1⟩
  have served : changes timeFields [.links] s w := by
    show changes timeFields [.links] s (((s.stamp u).acked n b).serving n 0x30 (id * 2 ^ 11 + mask % 2 ^ 9) b.reqno)
    rw [heard_calm calm]
    exact (((s.stamp_time u).mono (List.Subset.refl _) (by decide)).setLink _ _ (by decide)).step
      (State.sendByp_changes ..)
  have marked : changes timeFields [.links] s
      ((w.mark n (w.widthMarks n mask)).holdMarks n (s.link n).toMark b.reqno) :=
    (served.step (w.mark_changes ..)).step (State.holdMarks_changes ..)
  rw [State.carriedOut, quiesceCheck_calm calm marked]
  exact marked

/-! ## Acknowledgements of the retrain and the width -/

omit hn up in
theorem widthAck_exec (s : State) (n arg u : Nat) (b : Byp) : exec (.widthAck n b arg u) s =
    s.byp n b 0x31 arg u fun s => s.receiveAck n 0x31 arg b.reqno fun s => s := rfl

omit hn up in
theorem retrainAck_exec (s : State) (n arg u : Nat) (b : Byp) : exec (.retrainAck n b arg u) s =
    s.byp n b 0x41 arg u fun s => s.receiveAck n 0x41 arg b.reqno fun s => s.retrains n u := rfl

omit hn up in
theorem State.issueNext_changes (s : State) (n : Nat) : changes [] [.links] s (s.issueNext n) := by
  unfold State.issueNext
  refine .ite (fun _ => ?_) fun _ => .refl s
  split
  · exact .ite (fun _ => (changes.refl s).setLink _ _ (by decide)) fun _ => .refl s
  · exact .ite (fun _ => .refl s) fun _ => ((changes.refl s).setLink _ _ (by decide)).step (State.issue_changes ..)

variable {r : LinkReq} (mine : (s.link n).request = some r) (hr : r.reqno = b.reqno)
include mine hr

theorem widthAck_shows (hk : r.kind = 0x30) (crc : b.crcOk 0x31 r.arg = true) :
    ∃ t, Runs (.widthAck n b r.arg u) s t ∧ ((s.link n).again = [] → (t.link n).request = none) ∧
      (calmAt s n → changes timeFields [.links] s t) ∧ touches [.tick, .fab, .gal, .lnk] [.links] s t := by
  have run := ack_answers (u := u) hn up (widthAck_exec s n r.arg u b) mine rfl hr (by rw [hk]; rfl) crc
  obtain ⟨ended, again⟩ := answered_link s u n b
  refine ⟨_, run, fun idle => answer_ends ended (again.trans idle), fun calm => ?_,
    (execWidthAck_moves n b r.arg u s (List.Subset.refl _) (List.Subset.refl _) (.refl s) _ run).1⟩
  have answered : changes timeFields [.links] s (((s.stamp u).released n).issueNext n) :=
    (((s.stamp_time u).mono (List.Subset.refl _) (by decide)).setLink _ _ (by decide)).step
      (State.issueNext_changes ..)
  rw [heard_calm calm, quiesceCheck_calm calm answered]
  exact answered

theorem retrainAck_shows (hk : r.kind = 0x40) (crc : b.crcOk 0x41 r.arg = true) :
    ∃ t, Runs (.retrainAck n b r.arg u) s t ∧ ((s.link n).again = [] → (t.link n).request = none) ∧
      (n < 32 → s.lState n = lUp → t.lState n = lRetrain) ∧
      touches [.tick, .fab, .events, .cal, .gal, .oe, .lnk, .lsu] [.calJobs, .swaps, .links] s t := by
  have run := ack_answers (u := u) hn up (retrainAck_exec s n r.arg u b) mine rfl hr (by rw [hk]; rfl) crc
  obtain ⟨ended, again⟩ := answered_link s u n b
  obtain ⟨request, waiting⟩ := (((s.stamp u).acked n b).released n).retrains_request n u
  have alike := answered_alike s u n b
  refine ⟨_, run, fun idle => answer_ends (request.trans ended) (waiting.trans (again.trans idle)), fun hp open_ => ?_,
    (execRetrainAck_moves n b r.arg u s (List.Subset.refl _) (List.Subset.refl _) (.refl s) _ run).1⟩
  have shown := (((s.stamp u).acked n b).released n).retrains_shows hp ((alike.lState n).trans open_) u
  exact ((State.quiesceCheck_changes ..).1 .lnkStatusState n 0 (by decide)).trans
    (((State.issueNext_changes ..).1 .lnkStatusState n 0 (by decide)).trans shown)

end

/-- Settles O37: requests between peers and their answers. -/
theorem linkRequests : Obligations.LinkRequests := by
  unfold Obligations.LinkRequests
  intro s n lane u b hn x calm
  refine ⟨fun down id k => ?_, fun up => ⟨fun id => ?_, fun crc => ?_, fun k other still => ?_, fun r mine hr => ?_⟩⟩
  · have quiet {c : Instr} {kind arg : Nat} {run : State → State} (hc : exec c s = s.byp n b kind arg u run) :
        quietly c s := closed_quiet hn down hc
    simp only [List.forall_mem_cons]
    exact ⟨quiet (laneMove_exec ..), quiet (laneBack_exec ..), quiet (laneCal_exec ..), quiet (laneCalEnd_exec ..),
      quiet (laneRejoin_exec ..), quiet (spareIn_exec ..), closed_quiet hn down (run := fun s => s.dropLane n lane) rfl,
      quiet (laneAck_exec ..), quiet (widthReq_exec ..), quiet (widthAck_exec ..), quiet (retrainReq_exec ..),
      quiet (retrainAck_exec ..), fun c hc => nomatch hc⟩
  · have asks {c : Instr} {kind arg : Nat} {run : State → State} (hk : kind ≠ 0x81)
        (hc : exec c s = s.byp n b kind arg u fun s => s.receiveReq n kind arg b.reqno id run)
        (answers : ∀ w, Answered n w (run w)) := request_asks hn up hc hk answers
    refine ⟨⟨asks (by decide) (laneMove_exec ..) fun w => (w.peerMove_grows n lane).answered n,
      asks (by decide) (laneBack_exec ..) fun w => (w.peerBack_grows n lane).answered n,
      asks (by decide) (laneCal_exec ..) fun w => w.peerCal_answered n lane,
      asks (by decide) (laneCalEnd_exec ..) fun w => w.peerCalEnd_answered n id lane,
      asks (by decide) (laneRejoin_exec ..) fun w => (w.peerRejoin_grows n lane).answered n,
      asks (by decide) (spareIn_exec ..) fun w => (w.peerSpareIn_grows n lane).answered n,
      asks (by decide) (retrainReq_exec ..) fun w => w.retrains_answered n u,
      fun mask => asks (by decide) (widthReq_exec ..) fun w => (w.mark_grows n _).answered n⟩,
      laneMove_fresh hn up, laneBack_fresh hn up, laneCal_fresh hn up, laneCalEnd_fresh hn up, laneRejoin_fresh hn up,
      spareIn_fresh hn up, retrainReq_fresh hn up, fun mask => widthReq_fresh hn up⟩
  · exact ⟨laneDrop_leaves hn up crc, laneDrop_stays hn up crc⟩
  · exact ⟨fun crc => ack_other hn up (laneAck_exec ..) crc still other,
      fun crc => ack_other hn up (widthAck_exec ..) crc still other,
      fun crc => ack_other hn up (retrainAck_exec ..) crc still other⟩
  · exact ⟨fun hk crc => laneAck_shows hn up mine hr hk crc, widthAck_shows hn up mine hr,
      retrainAck_shows hn up mine hr⟩

end Sys2Proof.Machine
